-- ==== Sys2Proof/Word.lean ====
section
/-! DEFINITION. The word types of the module and their plainest arithmetic (R4, R83, R100: bytes, 256-bit rows, 272-bit codewords). -/

namespace Sys2Proof

/-- One byte. -/
abbrev Byte := BitVec 8

/-- A 256-bit data row (R83). -/
abbrev Row := BitVec 256

/-- A stored or carried codeword: 256 data bits and 16 check bits (R100). -/
abbrev Codeword := BitVec 272

/-- An IEEE 754 binary32 bit pattern (R29). -/
abbrev F32 := BitVec 32

/-- A 128-bit tile command word (R122). -/
abbrev CmdWord := BitVec 128

/-- The word read from the bytes of `bs`, least-significant byte first (R4). -/
def leNat : List Byte → Nat
  | [] => 0
  | b :: bs => b.toNat + 256 * leNat bs

/-- The `k` low bytes of `v`, least-significant byte first (R4). -/
def leBytes : Nat → Nat → List Byte
  | 0, _ => []
  | k + 1, v => BitVec.ofNat 8 v :: leBytes k (v / 256)

end Sys2Proof
end

