-- ==== Sys2Proof/Syntax.lean ====
section
/-! DEFINITION. The commands of the block: one constructor of `Instr` for each row of spec/opcode_table.json, with the operand types they carry. A command is a message, a register write, an event on a pin or a sensor, a timer's expiry, or a step of a tile. -/

namespace Sys2Proof

/-- The packet types of R169. -/
inductive Ptype where
  | read | write | signal | memRead | memWrite | data | fork | ack | status
  deriving DecidableEq, Repr, Inhabited

/-- A packet of the fabric (R169-R172): the header's fields, `reserved` its reserved bits [511:256], and the payload codewords. `head` holds the two header codewords as they arrive where errors have touched them on the way; the fields are what they decode to (R173). -/
structure Packet where
  ptype      : Ptype := .read
  rows       : Nat := 0
  tag        : Nat := 0
  job        : Nat := 0
  partition  : Nat := 0
  srcX       : Nat := 0
  srcY       : Nat := 0
  dstX       : Nat := 0
  dstY       : Nat := 0
  status     : Nat := 0
  byteCount  : Nat := 0
  xferId     : Nat := 0
  sigAdd     : Nat := 0
  sigGauge   : Nat := 0
  sigEn      : Bool := false
  srcDevice  : Nat := 0
  srcLogical : Nat := 0
  stride     : Nat := 0
  farAddr    : BitVec 64 := 0
  list       : List (Nat × Nat) := []
  data       : List Codeword := []
  reserved   : Nat := 0
  head       : List Codeword := []
  deriving DecidableEq, Repr, Inhabited

/-- The routing fields of a head flit's control field (R164). -/
structure Leg where
  vc   : Nat := 0
  legX : Nat := 0
  legY : Nat := 0
  deriving DecidableEq, Repr, Inhabited

/-- One contested cycle that a command met: the bank, the tile cycle, the codes of the engines that had an access ready for the bank in it (R91). -/
structure Contest where
  bank  : Nat
  cycle : Nat
  ready : List Nat
  deriving DecidableEq, Repr, Inhabited

/-- The unit a stage of a start works on, and whether a unit of the stage trains in full (R470). -/
structure StageUnit where
  unit : Nat
  full : Bool
  deriving DecidableEq, Repr, Inhabited

/-- A queue of a tile, and the tile cycle in which its watchdog looks at it (R142). -/
structure QueueCycle where
  queue : Nat
  cycle : Nat
  deriving DecidableEq, Repr, Inhabited

/-- A WRITE that reaches a dispatcher, with the rows of the whole PUT it belongs to (R248). -/
structure PutWrite where
  rows : Nat
  pkt  : Packet
  deriving DecidableEq, Repr, Inhabited

/-- The reservation a copy was launched under: its dispatcher's device and partition, and its id there (R251). -/
structure CopyId where
  device : Nat
  part   : Nat
  resId  : Nat
  deriving DecidableEq, Repr, Inhabited

/-- A CTRL message of Causeway (R341); `reserved` holds bits [227:224] of its header, the reserved ones and local. -/
structure CtrlMsg where
  mtype : Nat := 0
  dst   : Nat := 0
  src   : Nat := 0
  hops  : Nat := 0
  reserved : Nat := 0
  body  : BitVec 224 := 0
  deriving DecidableEq, Repr, Inhabited

/-- A MGMT unit (R347): its header fields, `reserved` bits [227:225] of it, and the bytes of its Bamurn message. -/
structure MgmtUnit where
  dst    : Nat := 0
  src    : Nat := 0
  hops   : Nat := 0
  reserved : Nat := 0
  local' : Bool := false
  length : Nat := 0
  bytes  : List Byte := []
  deriving DecidableEq, Repr, Inhabited

/-- A Causeway flit (R329): the 192-bit control field and the four slots. -/
structure Flit where
  ctl   : BitVec 192 := 0
  slots : List Codeword := []
  deriving DecidableEq, Repr, Inhabited

/-- A DTL message (R359, R360): the header's fields and its data cells. `reserved` holds the header's reserved bits, [51:8] and above them [127:112]; `head` the header cell where it did not arrive as its sender encoded it. -/
structure DtlMsg where
  dtype     : Nat := 0
  addr      : Nat := 0
  stride    : Nat := 0
  arg       : Nat := 0
  job       : Nat := 0
  dtag      : Nat := 0
  status    : Nat := 0
  partition : Nat := 0xF
  reserved  : Nat := 0
  head      : Option Codeword := none
  cells     : List Codeword := []
  deriving DecidableEq, Repr, Inhabited

/-- The values of a CBOR item that the endpoint exchanges (R369, R371). -/
inductive Cbor where
  | uint  (n : Nat)
  | float (f : F32)
  | bytes (b : List Byte)
  | array (xs : List Nat)
  | info  (kv : List (Nat × Nat))
  deriving DecidableEq, Repr, Inhabited

/-- One CBOR map: its keys and values in order. -/
abbrev CborMap := List (Nat × Cbor)

/-- A client connection of the endpoint (R369): the SHA-256 fingerprint of its certificate and the stream the request uses. -/
structure Client where
  conn        : Nat := 0
  fingerprint : Nat := 0
  stream      : Nat := 0
  deriving DecidableEq, Repr, Inhabited

/-- An endpoint request: what the stream carried (`none`: not a well-formed map, or more bytes than object 9000:06 allows) (R370). -/
structure Request where
  client : Client
  size   : Nat
  map    : Option CborMap
  deriving DecidableEq, Repr, Inhabited

/-- What the frame of a management-port datagram shows beside its message (R379, R380): its destination MAC address, a VLAN tag, whether it carries IPv6, whether the datagram is a fragment, its destination address and UDP port, the bytes of extension headers. `none` stands for the port's own address, its link-local address and the port it listens on. -/
structure MgmtFrame where
  mac      : Option Nat := none
  vlan     : Bool := false
  ipv6     : Bool := true
  fragment : Bool := false
  dst      : Option Nat := none
  udpPort  : Option Nat := none
  extra    : Nat := 0
  deriving DecidableEq, Repr, Inhabited

/-- The path a Bamurn message arrives on (R379-R383); `src` of the management port is the source address and port, kept opaque, and `frame` what the frame shows. -/
inductive Path where
  | port (src : Nat) (frame : MgmtFrame := {})
  | link (port : Nat) (src : Nat) (isLocal : Bool)
  | mailbox
  deriving DecidableEq, Repr, Inhabited

/-- A rail of R410. -/
inductive Rail where
  | vl (c : Nat)
  | va (f : Nat)
  | vf (f : Nat)
  | ve
  | vs (k : Nat)
  | vp
  | vr
  | vh (h : Nat)
  | dimm (c : Nat)
  deriving DecidableEq, Repr, Inhabited

/-- A unit whose PHY lost its reference (R456). -/
inductive PhyUnit where
  | port (k : Nat)
  | stack (h : Nat)
  | channel (c : Nat)
  | ucie (m : Nat)
  | tidePll
  deriving DecidableEq, Repr, Inhabited

/-- What training found for one unit (R475, R476). `rate` 0: it fails at every rate. `full`: it trained in full. -/
structure Trained where
  number   : Nat
  identity : Nat
  rate     : Nat
  full     : Bool
  deriving DecidableEq, Repr, Inhabited

/-- A DIMM as S4 reads it (R309): MRDIMM or RDIMM, bytes installed, the rates it supports, its serial. -/
structure Dimm where
  channel  : Nat
  isMr     : Bool
  capacity : Nat
  rates    : List Nat
  serial   : Nat
  deriving DecidableEq, Repr, Inhabited

/-- One read of the memory test as the array gives it, undecoded (R477, R478, R480): the server (0-11 a stack, 12-27 a channel), the row of memory, the background, the element, whether it belongs to the retest of its row, the 272 raw bits. -/
structure TestRead where
  server     : Nat
  row        : Nat
  background : Nat
  element    : Nat
  retest     : Bool
  raw        : Codeword
  deriving DecidableEq, Repr, Inhabited

/-- What a boot stage found in the hardware: the physical outcomes that the spec's own rules then act on (R469-R484). -/
structure StageReport where
  failed      : Option (Nat × Nat) := none
  imageOk     : List Bool := [true, true]
  slotId      : Nat := 0
  fuseFixed   : Nat := 0
  fuseBadRow  : Option Nat := none
  openChains  : List Nat := []
  trained     : List Trained := []
  dimms       : List Dimm := []
  reads       : List TestRead := []
  badTiles    : List Nat := []
  sparedRows  : List (Nat × Nat × Nat) := []
  badBlock    : Option Nat := none
  deriving DecidableEq, Repr, Inhabited

/-- The suspect code kinds of R492 with the unit's number. -/
structure Suspect where
  kind   : Nat
  number : Nat
  deriving DecidableEq, Repr, Inhabited

/-- The fields of a WAIT_TIMEOUT report (R217) beside the tile, which is the suspect, and owner_closed: the logical number, the queue, the kind of wait, the gauge, the threshold, the start of the wait, whether a pending-signal entry held a signal for the gauge, the closed tiles of the job. -/
structure WaitFields where
  logical : Nat
  queue   : Nat
  kind    : Nat
  gauge   : Nat
  threshold : Nat
  since   : Nat
  pending : Bool
  closedInJob : Nat
  deriving DecidableEq, Repr, Inhabited

/-- A fault report as it reaches the levee log (R493). `wait` holds the fields of a WAIT_TIMEOUT report (R217). -/
structure Report where
  cls         : Nat
  suspect     : Suspect
  reporter    : Suspect
  status      : Nat := 0
  partition   : Nat := 0xF
  job         : Nat := 0
  step        : Nat := 0
  detail      : Nat := 0
  ownerClosed : Bool := false
  closedUnit  : Option Suspect := none
  wait        : Option WaitFields := none
  deriving DecidableEq, Repr, Inhabited

/-- A server of memory requests: an HBM stack's controller or the DDR5 path of a channel (R308, R313). -/
inductive Server where
  | stack (h : Nat)
  | channel (c : Nat)
  deriving DecidableEq, Repr, Inhabited

/-- A fenced domain (R503). -/
inductive Domain where
  | tile (n : Nat)
  | cluster (c : Nat)
  | partition (q : Nat)
  | device
  deriving DecidableEq, Repr, Inhabited

/-- An Ethernet frame as it reaches a port: its bytes, whether its frame check sequence is good, and the tide count with which the port stamped it (R350, R351). -/
structure EthFrame where
  bytes  : List Byte := []
  fcsOk  : Bool := true
  stamp  : Option Nat := none
  deriving DecidableEq, Repr, Inhabited

/-- The commands, one constructor for each row of spec/opcode_table.json, in the order of the table. `sess` is the Bamurn session that writes; `n` a physical tile number; `q` a partition (in tile commands a queue); `k` a port; `c` in a tile command the tile cycle at which it happens, elsewhere a cluster. -/
inductive Instr where
  /-- TEST_SESSION_ENTER (R11). A write of 0x01 to object 0110:01 moves the device from SERVICE to TEST when every partition's job is NONE, or is answered BUSY, NOT_READY or OK with no effect. -/
  | testSessionEnter (sess : Nat)
  /-- TEST_SESSION_LEAVE (R11). A write of 0x00 to object 0110:01 by the test session or a SECURITY session returns TEST to SERVICE. -/
  | testSessionLeave (sess : Nat)
  /-- OBJECT_WRITE (R396). A write to an object that has no row of its own is checked in the order of R396 and applied. -/
  | objectWrite (sess index sub ty : Nat) (value : List Byte)
  /-- COLD_START (R467). At power-on, or once the input has been at 42 V or above for 100 ms after a close, the rails rise and stages S0-S11 run. -/
  | coldStart (inputMv : Nat)
  /-- START_COMMAND_WARM (R468). A write of 0x01 to start_command starts a warm start. -/
  | startCommandWarm (sess : Nat)
  /-- START_COMMAND_COLD (R468). A write of 0x02 to start_command starts a cold start, with the rails held off for 2 s. -/
  | startCommandCold (sess : Nat)
  /-- STAGE_END (R469). When a boot stage completes its work, the next stage begins. -/
  | stageEnd (r : StageReport)
  /-- STAGE_TIMEOUT (R470). A stage that runs beyond twice its limit fails the start with reason TIMEOUT; `unit` is the one it works on. -/
  | stageTimeout (unit : StageUnit)
  /-- NEXT_ATTEMPT (R488). One second after a failed start's record commits, the next attempt starts with the adjustments of the failed stage. -/
  | nextAttempt
  /-- TOPOLOGY_WAIT_EXPIRY (R482). S9 ends when topo_wait_ms elapses, and mismatching or missing ports are recorded. -/
  | topologyWaitExpiry
  /-- TRAIN_DISCARD (R490). A write of 0x01 to object 7020:01 discards every saved training entry. -/
  | trainDiscard (sess : Nat)
  /-- MEMTEST_NEXT (R481). A write to object 7030:02 sets the memory test mode for the next cold or warm start only. -/
  | memtestNext (sess mode : Nat)
  /-- INPUT_SAG (R409). A busbar sample below 40 V begins a sag and counts it in object 1000:02. -/
  | inputSag (mv : Nat)
  /-- SAVE_AND_CLOSE (R409). An input that stays below 40 V for more than 1 ms stops every queue, closes the device, drains the write buffers and turns the rails off. -/
  | saveAndClose
  /-- INPUT_OVERVOLTAGE (R409). An input above 60 V for 10 µs opens the input eFuse at once, and the module saves and closes. -/
  | inputOvervoltage (mv : Nat)
  /-- BUSCONV_LOST (R408). A lost bus converter is disabled and recorded, and the cap is derated or the module closes according to the number lost. -/
  | busconvLost (i : Nat)
  /-- PHASE_LOST (R420). A failed regulator phase is disabled and recorded, and the derates of R421 and R422 are applied. -/
  | phaseLost (rail : Rail) (phase : Nat)
  /-- PLANE_SHORT (R423). Plane short protection qualifies for 2 µs and latches every phase of the rail off. -/
  | planeShort (rail : Rail)
  /-- SENSE_FALLBACK (R414). A remote sense in fault for 100 µs makes the rail regulate at its local output and reports SENSE_FALLBACK. -/
  | senseFallback (rail : Rail)
  /-- PATH_RESISTANCE_CHECK (R415). Every 10 ms each VL, VA and VF rail computes Z and compares it with its baseline. -/
  | pathResistanceCheck (rail : Rail) (localMv senseMv ma : Nat) (senseOpen : Bool)
  /-- CRACK_CHAIN_CHECK (R415). Every second each field's crack chain is measured, and an open chain is reported. -/
  | crackChainCheck (openFields : List Nat)
  /-- SLUICE_STAGE_DECISION (R419). At each stage decision time, the rail-group current decides whether the stage closes now, closes later or holds. -/
  | sluiceStageDecision (c ma : Nat)
  /-- SLUICE_HOLD_READING (R419). During a hold, G is read again every 100 ns and the stage is decided at the first reading at or below 98 %. -/
  | sluiceHoldReading (c ma : Nat)
  /-- HOLD_BUDGET_EXPIRY (R419). When a wake's 50 µs hold budget runs out, the stage closes at once and later stages follow at 4 × i. -/
  | holdBudgetExpiry (c : Nat)
  /-- CLUSTER_CLOCK_LOCK (R418). The cluster clock locks, the plane becomes ON and any latched gate runs. -/
  | clusterClockLock (c : Nat)
  /-- CLUSTER_GATE_REQUEST (R416). A cluster that meets the gating conditions, for example after gate_after, begins gating. -/
  | clusterGateRequest (c : Nat)
  /-- GATING_COMPLETE (R417). A gating completes, the plane becomes GATED and any latched wake runs. -/
  | gatingComplete (c : Nat)
  /-- POWER_OFF_N_LOW (R566). POWER_OFF_N held low for 10 ms makes the module save and close, or blocks a start. -/
  | powerOffNLow
  /-- POWER_OFF_N_RELEASE (R566). Release of POWER_OFF_N with the input at 42 V or above leads to a cold start after 100 ms. -/
  | powerOffNRelease (inputMv : Nat)
  /-- DIMM_FEED_TRIP (R570). A DIMM feed eFuse trips, and its channel is treated as not answering. -/
  | dimmFeedTrip (ch : Nat)
  /-- CONTROL_TICK (R434). Every 100 µs the throttle controller makes at most one change to the module ceiling or the weir duty. -/
  | controlTick (avg1ms avg1s : Nat)
  /-- RAIL_GROUP_CURRENT_READING (R436). Every 50 ns the rail-group current is compared with its limit, and the CURRENT duty and ceilings are applied or released. -/
  | railGroupCurrentReading (f ma : Nat)
  /-- ARRAY_RAMP_UP (R76). A ramp-up that fits the slope budget turns the column groups on and lets the row issue. -/
  | arrayRampUp (n c : Nat)
  /-- ARRAY_RAMP_DOWN (R76). When the hold after a burst ends, the column groups turn off from G7 downward. -/
  | arrayRampDown (n c : Nat)
  /-- DROOP_EVENT (R454). VL below the droop margin halves the cluster clock and counts a droop event. -/
  | droopEvent (c : Nat)
  /-- DROOP_EXIT (R454). After 1 µs at an adequate VL, the clock returns to full frequency. -/
  | droopExit (c : Nat)
  /-- DROOP_HOLD_EXPIRY (R438). When a droop ceiling hold of 100 ms ends, the ceiling rises one step every 10 ms. -/
  | droopHoldExpiry (c : Nat)
  /-- DIE_SENSOR_READING (R439). Every 100 µs a cluster die sensor reading lowers or raises the cluster ceiling or duty. -/
  | dieSensorReading (c : Nat) (temp : Int)
  /-- HBM_TEMP_READING (R440). Every 1 ms a stack temperature adjusts the stack's rate limit, or trips the module. -/
  | hbmTempReading (h : Nat) (temp : Int)
  /-- DIMM_TEMP_READING (R440). Every 10 ms a DIMM temperature adjusts its rate limit, or takes its channel out. -/
  | dimmTempReading (ch : Nat) (temp : Int)
  /-- COOLANT_READING (R441). Every second inlet, outlet and flow readings set the COOLANT caps, or close the module. -/
  | coolantReading (inlet outlet : Int) (flow : Nat)
  /-- COOLANT_RESTORED (R441). After a thermal or coolant close, 60 s of good coolant and die temperatures leads to a cold start. -/
  | coolantRestored
  /-- WEIR_HOLD_EXPIRY (R442). The weir's pause after a boundary ends, and the next step start proceeds. -/
  | weirHoldExpiry (q : Nat)
  /-- SLACK_NOTICE_SEND (R448). Every 5 ms while a job qualifies, a partition sends SLACK to the members of its barrier group. -/
  | slackNoticeSend (q : Nat)
  /-- SLACK (R449). A received SLACK sets the PEER_SLACK ceiling of the matching partition, or is counted and ignored. -/
  | slack (m : CtrlMsg)
  /-- PEER_SLACK_EXPIRY (R449). 15 ms after the last SLACK from a sender, its PEER_SLACK ceiling is released. -/
  | peerSlackExpiry (q sender : Nat)
  /-- FREQUENCY_CHANGE (R452). Once the sensed voltage reaches the new set point, the generator changes frequency and completes a one-step move. -/
  | frequencyChange (c : Nat)
  /-- CLOCK_FAULT (R455). A short period or phase stops the cluster clock, raises STEP_FAULT and, at the third fault within 24 h, fails the generator. -/
  | clockFault (c : Nat) (isPhase : Bool)
  /-- CLOCK_RELOCK (R455). The generator relocks 0.5 µs after a clock fault. -/
  | clockRelock (c : Nat)
  /-- REFERENCE_LOSS (R456). A PHY reference loss fails its unit, or enough losses together close the module. -/
  | referenceLoss (units : List PhyUnit)
  /-- TIDE_SYNC_PULSE (R458). Every 1 µs each local tide counter compares itself with the master's pulse and corrects itself. -/
  | tideSyncPulse (counter master : Nat)
  /-- PTP_SYNC (R464). After each IEEE 1588 synchronisation, firmware publishes the relation between PTP time and the tide count. -/
  | ptpSync (port baseTide baseNs : Nat) (ratePpb : Int)
  /-- DEVICE_ID_WRITE (R352). A write of device_id is answered BUSY while a job is loaded, or applies at once and starts HELLO and TOPO. -/
  | deviceIdWrite (sess v : Nat)
  /-- PORT_RESET_RETRAIN (R324). A write of 0x01 to port_reset retrains the port. -/
  | portResetRetrain (sess k : Nat)
  /-- PORT_RESET_CLEAR (R324). A write of 0x02 to port_reset retrains the port and clears its lane-retirement record. -/
  | portResetClear (sess k : Nat)
  /-- PORT_RETRY_TIMER (R325). One second after entering DOWN, the port enters TRAINING. -/
  | portRetryTimer (k : Nat)
  /-- TRAINING_TIMEOUT (R325). A port without lock within 20 ms or 200 ms returns to DOWN and counts a training failure. -/
  | trainingTimeout (k : Nat)
  /-- CODEWORD_LOCK_LOSS (R328). Eight consecutive uncorrectable codewords lose lock, and the port retrains. -/
  | codewordLockLoss (k lane : Nat)
  /-- HELLO_SEND (R343). The port sends HELLO every 1 ms while TRAINING or FOREIGN, and every 100 ms while UP. -/
  | helloSend (k : Nat)
  /-- HELLO (R343). A received HELLO brings the port UP when it matches, or sends it to FOREIGN. -/
  | hello (k : Nat) (m : CtrlMsg)
  /-- FLIT_RECEIVE (R332). A received flit is checked, its slots delivered, its credits and acknowledgements applied, or it is refused with NAK. -/
  | flitReceive (k : Nat) (f : Flit) (codewordOk : Bool)
  /-- ACK_SEND (R332). The receiver sends an ACK at least every 64 flits and every 100 ns. -/
  | ackSend (k : Nat)
  /-- LANE_SPARING_CHECK (R333). Every 10 ms the port counts replays and retires a lane after 100 consecutive bad checks. -/
  | laneSparingCheck (k : Nat)
  /-- LANE_SWAP (R334). A received LANE_SWAP is answered with LANE_ACK and its own switch point. -/
  | laneSwap (k : Nat) (m : CtrlMsg)
  /-- LANE_ACK (R334). A received LANE_ACK fixes the peer's switch point for the receiver. -/
  | laneAck (k : Nat) (m : CtrlMsg)
  /-- LANE_SWITCH (R334). At its switch_seq a lane end moves the logical lane to LS, or drops it to UP3 or RETIRED. -/
  | laneSwitch (k seq : Nat)
  /-- CABLE_INSERT (R568). An inserted link cable starts training within 1 s. -/
  | cableInsert (k : Nat)
  /-- CABLE_REMOVE (R568). A removed link cable is a port loss. -/
  | cableRemove (k : Nat)
  /-- TOPO_SEND (R345). Every 10 ms, and on a change of neighbours, the device floods TOPO. -/
  | topoSend
  /-- TOPO (R345). A received newer TOPO is forwarded and the routes are recomputed. -/
  | topo (k : Nat) (m : CtrlMsg)
  /-- TSYNC_SEND (R346). Every tsync_interval a port sends TSYNC. -/
  | tsyncSend (k : Nat)
  /-- TSYNC (R346). A received TSYNC is answered with TSYNC_REPLY within 2 µs. -/
  | tsync (k : Nat) (m : CtrlMsg)
  /-- TSYNC_REPLY (R462). A received TSYNC_REPLY yields delay and offset, and steers the tide count and time state. -/
  | tsyncReply (k : Nat) (m : CtrlMsg) (t4 : Nat)
  /-- INGRESS_REQUEST (R338). A request arriving at an ingress port is sent on in transit, answered STATUS, or translated onto the mesh. -/
  | ingressRequest (k hop : Nat) (p : Packet)
  /-- INGRESS_REPLY (R339). A reply arriving at a port matches its forward entry and goes to the return position, or is discarded. -/
  | ingressReply (k hop : Nat) (p : Packet)
  /-- EGRESS_FORK_BRANCH (R336). An egress port turns a received FORK branch into one DATA packet for the oldest matching remote READ. -/
  | egressForkBranch (k : Nat) (p : Packet)
  /-- MGMT_UNIT (R347). A received MGMT unit is routed on, delivered as a Bamurn message, or discarded. -/
  | mgmtUnit (k : Nat) (u : MgmtUnit) (slots : Nat)
  /-- ETH_LINK_UP (R325). An Ethernet-mode port whose IEEE 802.3 link comes up enters ETH_UP. -/
  | ethLinkUp (k : Nat)
  /-- ETH_LINK_DOWN (R325). An ETH_UP port whose link goes down enters TRAINING. -/
  | ethLinkDown (k : Nat)
  /-- ETH_FRAME_RECEIVE (R350). An Ethernet frame arrives for the service endpoint or IEEE 1588, or is dropped. -/
  | ethFrameReceive (k : Nat) (f : EthFrame)
  /-- WAIT (R127). WAIT issues once its own-tile gauge has reached the per-step threshold. -/
  | wait (n q c : Nat)
  /-- SIGNAL (R129). SIGNAL issues and adds to an own or far gauge, at once or deferred by the queue rule. -/
  | signal (n q c : Nat)
  /-- SIGNAL_APPLY (R129). A deferred signal is applied or sent once its queue's completion condition holds. -/
  | signalApply (n q c : Nat)
  /-- END (R131). END returns the queue to its entry address after 3 cycles. -/
  | queueEnd (n q c : Nat)
  /-- NOP (R131). NOP occupies the queue for its cycle count. -/
  | nop (n q c : Nat)
  /-- LOAD_STATIONARY (R132). LOAD_STATIONARY issues, its checks pass, and it waits for its ready condition. -/
  | loadStationary (n c : Nat)
  /-- LOAD_STATIONARY_ROWS_START (R69). In the first cycle in which the ready condition holds, the stationary rows cross the row bus into the shadow registers. -/
  | loadStationaryRowsStart (n c : Nat) (hits : List Contest)
  /-- SWAP (R70). SWAP copies the shadow registers to the live registers once the load has completed. -/
  | swap (n c : Nat)
  /-- PASS (R133). PASS streams rows through the array in the selected op and fold. -/
  | pass (n c : Nat) (hits : List Contest)
  /-- FOLD_LAND (R73). A streamed row's fold lands in the accumulator slot L cycles after issue. -/
  | foldLand (n c : Nat)
  /-- SET_HANDLE (R88). SET_HANDLE writes or unmaps a handle entry, waiting for remote requests on it. -/
  | setHandle (n c : Nat)
  /-- SET_SENTINEL (R138). SET_SENTINEL sets one sentinel configuration word. -/
  | setSentinel (n c : Nat)
  /-- CONVERT (R154). VEC CONVERT converts FP32 to or from BF16. -/
  | vecConvert (n c : Nat) (hits : List Contest)
  /-- SPILL_FIX (R155). VEC SPILL_FIX applies the spillway corrections of one pass to slots or rows. -/
  | vecSpillFix (n c : Nat) (hits : List Contest)
  /-- REQUANT (R154). VEC REQUANT re-quantises FP32 or BF16 into a narrow format with RNE or seeded rounding. -/
  | vecRequant (n c : Nat) (hits : List Contest)
  /-- ADD (R152). VEC ADD adds two operands elementwise. -/
  | vecAdd (n c : Nat) (hits : List Contest)
  /-- MUL (R152). VEC MUL multiplies two operands elementwise, optionally adding d. -/
  | vecMul (n c : Nat) (hits : List Contest)
  /-- MAX (R152). VEC MAX takes the elementwise maximum. -/
  | vecMax (n c : Nat) (hits : List Contest)
  /-- MIN (R152). VEC MIN takes the elementwise minimum. -/
  | vecMin (n c : Nat) (hits : List Contest)
  /-- ACT (R153). VEC ACT applies the activation function selected by aux. -/
  | vecAct (n c : Nat) (hits : List Contest)
  /-- REDUCE (R157). VEC REDUCE reduces each vector to one value or index. -/
  | vecReduce (n c : Nat) (hits : List Contest)
  /-- SOFTMAX (R158). VEC SOFTMAX computes softmax over each vector in three passes. -/
  | vecSoftmax (n c : Nat) (hits : List Contest)
  /-- NORM (R159). VEC NORM applies RMS or layer normalisation to each vector. -/
  | vecNorm (n c : Nat) (hits : List Contest)
  /-- DEQUANT (R154). VEC DEQUANT expands a narrow format to FP32 or BF16. -/
  | vecDequant (n c : Nat) (hits : List Contest)
  /-- TOPK (R160). VEC TOPK selects the k largest elements of each vector with weights and indices. -/
  | vecTopk (n c : Nat) (hits : List Contest)
  /-- RANDOM (R161). VEC RANDOM writes counter-based draws in the selected distribution. -/
  | vecRandom (n c : Nat) (hits : List Contest)
  /-- VEC_WRITE_COMPLETE (R149). A VEC's last scratchpad write completes P cycles after its last read. -/
  | vecWriteComplete (n c : Nat)
  /-- FILL (R95). A FILL descriptor writes one pattern row into every destination row. -/
  | moveFill (n c : Nat) (hits : List Contest)
  /-- COPY (R96). A COPY descriptor copies rows within the own scratchpad. -/
  | moveCopy (n c : Nat) (hits : List Contest)
  /-- PUT (R108). A PUT descriptor sends local rows to a far scratchpad as WRITE packets. -/
  | movePut (n c : Nat) (hits : List Contest)
  /-- GET (R108). A GET descriptor requests far scratchpad rows with READ packets. -/
  | moveGet (n c : Nat) (hits : List Contest)
  /-- LOAD (R108). A LOAD descriptor reads rows from an HBM or DDR5 window with MEM_READ packets. -/
  | moveLoad (n c : Nat) (hits : List Contest)
  /-- STORE (R108). A STORE descriptor writes rows to an HBM or DDR5 window with MEM_WRITE packets. -/
  | moveStore (n c : Nat) (hits : List Contest)
  /-- DESCRIPTOR_COMPLETE (R113). When every request of a descriptor has completed, its signal is applied, or it ends without signal and reports its status. -/
  | descriptorComplete (n id c : Nat)
  /-- QUEUE_WATCHDOG_FIRE (R142). A queue waiting at its head beyond the watchdog limit enters HALTED_TIMEOUT and reports WAIT_TIMEOUT. -/
  | queueWatchdogFire (n : Nat) (q : QueueCycle)
  /-- HEAD_FLIT_ROUTE (R179). A router forwards a head flit, turns it at a waypoint, detours it, or answers FENCED or REFUSED. -/
  | headFlitRoute (pos : Nat) (leg : Leg) (p : Packet)
  /-- FLIT_PARITY_ERROR (R165). A station refuses a flit with bad control parity, and a second error marks the link failed. -/
  | flitParityError (pos input : Nat)
  /-- FORK_SPLIT (R184). A router divides a FORK's list among its outputs and waits for every branch. -/
  | forkSplit (pos waits : Nat) (p : Packet)
  /-- POSITION_NON_FORWARDING (R181). A position becomes non-forwarding: neighbour detour entries are set and the routes are checked again. -/
  | positionNonForwarding (n : Nat)
  /-- NON_FORWARDING_DRAIN_END (R181). After up to 100 µs of draining, the position forwards nothing more and discards held flits. -/
  | nonForwardingDrainEnd (n : Nat)
  /-- READ_PACKET (R183). A READ request arriving at fabric-remote is checked, merged and answered with DATA, FORK or STATUS. -/
  | readPacket (n : Nat) (p : Packet) (hits : List Contest)
  /-- WRITE_PACKET (R203). A WRITE arriving at fabric-remote is checked, written, counted for its transfer and acknowledged. -/
  | writePacket (n : Nat) (p : Packet) (hits : List Contest)
  /-- SIGNAL_PACKET (R195). A SIGNAL packet arriving at fabric-remote is checked, applied and acknowledged, or refused. -/
  | signalPacket (n : Nat) (p : Packet)
  /-- PENDING_HOLD_RELEASE (R205). A WRITE held because every pending-signal entry was valid enters once an entry is freed. -/
  | pendingHoldRelease (n : Nat)
  /-- MEM_READ (R182). A MEM_READ arriving at an HBM controller or the DDR5 path joins a merge or opens one and issues the read. -/
  | memRead (p : Packet)
  /-- MEM_WRITE (R308). A MEM_WRITE arriving at a controller enters the write buffer and is acknowledged. -/
  | memWrite (p : Packet)
  /-- MEMORY_READ_COMPLETE (R316). A memory read returns and is decoded, and the merge is answered with DATA, FORK or STATUS UNCORRECTABLE. -/
  | memoryReadComplete (srv : Server) (id : Nat)
  /-- WRITE_BUFFER_FLUSH (R308). A buffered write is written to the stack or DIMM. -/
  | writeBufferFlush (srv : Server)
  /-- PATROL_READ (R315). The patrol scrub reads the next codeword, writes back corrections and reports uncorrectable ones. -/
  | patrolRead (srv : Server)
  /-- STACK_ECC_POLL (R303). Every second the stack's on-die ECC correction counts are read. -/
  | stackEccPoll (h count : Nat)
  /-- HOLD_BUFFER_EXPIRY (R258). Prefetched rows leave the hold buffer after prefetch_hold_us. -/
  | holdBufferExpiry (h : Nat)
  /-- DATA_PACKET (R187). A DATA reply at a mover lands its rows and completes its tracking entry. -/
  | dataPacket (n : Nat) (p : Packet) (hits : List Contest)
  /-- FORK_PACKET (R187). A FORK reply at a tile completes the oldest matching tracking entry. -/
  | forkPacket (n : Nat) (p : Packet) (hits : List Contest)
  /-- ACK_PACKET (R113). An ACK completes a WRITE, MEM_WRITE or SIGNAL request and returns a signal credit. -/
  | ackPacket (n : Nat) (p : Packet)
  /-- STATUS_PACKET (R114). A STATUS reply ends its request with a non-OK status and, for UNCORRECTABLE, raises STEP_FAULT. -/
  | statusPacket (n : Nat) (p : Packet)
  /-- CLOSURE_DRAIN_EXPIRY (R504). After closure_drain_us, requests still held in the closed domain are answered FENCED. -/
  | closureDrainExpiry (d : Domain)
  /-- DRAIN_COMPLETE (R214). When every tile's tracking entries and credits are back, the gauges are restored and the step replays. -/
  | drainComplete (q : Nat)
  /-- LOCAL_DRAIN_TIMEOUT (R506). A drain incomplete after abandon_limit_ms triggers a recovery reset with cause 0x02. -/
  | localDrainTimeout (q : Nat)
  /-- REMAP_COMPLETE (R509). The target is loaded, gets its gauges, and the map is rewritten; REMAPPED is sent. -/
  | remapComplete (q : Nat) (readable : Bool)
  /-- GAUGE_SET (R220). A write to object 2100+n:62 sets a gauge by hand and reports an operator action. -/
  | gaugeSet (sess n : Nat) (v : BitVec 64)
  /-- PARTITION_APPLY (R224). A write of 0x01 to object 5000+q:08 checks and applies the partition configuration. -/
  | partitionApply (sess q : Nat)
  /-- GRANULE_FILL_COMPLETE (R556). The zero fill of a partition's new window granules ends and the partition becomes CONFIGURED. -/
  | granuleFillComplete (q : Nat)
  /-- JOB_LOAD (R232). job_load checks the job table, loads every tile and enters WAITING. -/
  | jobLoad (sess q : Nat)
  /-- JOB_END_AT_BOUNDARY (R234). job_end 0x00 is latched to end the job at the next boundary. -/
  | jobEndAtBoundary (sess q : Nat)
  /-- JOB_END_AT_ONCE (R233). job_end 0x01 stops the queues and moves the job to ENDING with a scrub. -/
  | jobEndAtOnce (sess q : Nat)
  /-- JOB_PREEMPT (R240). job_preempt is latched to save the job at the next boundary with free pending entries. -/
  | jobPreempt (sess q : Nat)
  /-- JOB_RESUME (R241). job_resume checks the save area, reloads the saved map and gauges and enters WAITING. -/
  | jobResume (sess q : Nat)
  /-- JOB_SCRUB_COMPLETE (R233). Once every tile of an ENDING job is scrubbed, the job becomes NONE and its tiles OFFERED. -/
  | jobScrubComplete (q : Nat) (badRows : List (Nat × Nat × Nat))
  /-- PROGRAM_FAULT_END (R125). Within 500 µs of a program-fault report, the job sequencer ends the job without replay. -/
  | programFaultEnd (q : Nat)
  /-- ENTRY_POLL (R239). The sequencer reads the step entry and starts the step on a matching seal, or counts a wait and retries after poll_ns. -/
  | entryPoll (q : Nat)
  /-- PIN_WAIT_RELEASE (R277). A step start waiting for pin entries proceeds once enough are free. -/
  | pinWaitRelease (q : Nat)
  /-- STEP_START_RELEASE (R235). Once arguments are acknowledged, lanes ready and remaps done, the step registers are written and start gauges raised. -/
  | stepStartRelease (q : Nat)
  /-- WATCH_NOTICE (R236). A watch gauge reaching its threshold notifies the sequencer, and the last notice completes the boundary. -/
  | watchNotice (q w : Nat)
  /-- CADENCE_TICK (R244). At a cadence tick the sequencer starts a step, drops the tick as a miss, or counts an empty tick. -/
  | cadenceTick (q t : Nat)
  /-- OUTSIDE_DECLARE (R298). A write of 0x01 to object 5040+q:04 sets bit 3 of the determinism record. -/
  | outsideDeclare (sess q : Nat)
  /-- READY (R300). The barrier leader collects READY and, once it holds every member's, sends START with a start time. -/
  | ready (m : CtrlMsg)
  /-- START (R300). A member receiving START writes its step registers and waits for time T. -/
  | start (m : CtrlMsg)
  /-- BARRIER_START_TIME (R300). When the tide count reaches T, the member raises the start gauge. -/
  | barrierStartTime (q : Nat)
  /-- EXPERT_APPLY (R247). A write of 0x01 to object 5200:02 checks and applies the expert table. -/
  | expertApply (sess : Nat)
  /-- TOKEN_REQUEST (R250). A TOKEN arriving at the dispatcher is checked and staged, and RESERVEs go to every target. -/
  | tokenRequest (q : Nat) (p : PutWrite)
  /-- RELEASE_REQUEST (R256). A RELEASE row frees a landing slot and grants it to the oldest queued RESERVE. -/
  | releaseRequest (q : Nat) (p : Packet)
  /-- HINT_REQUEST (R258). A HINT issues prefetch MEM_READs of the expert weights, or is dropped. -/
  | hintRequest (q : Nat) (p : PutWrite)
  /-- STAGING_HOLD_RELEASE (R250). A token WRITE held for staging rows enters once rows are free. -/
  | stagingHoldRelease (q : Nat)
  /-- RESERVE (R251). A target dispatcher answers RESERVE with GRANT, queues it, or answers a DSTATUS. -/
  | reserve (m : CtrlMsg)
  /-- GRANT (R252). A received GRANT is recorded, and copies launch once every grant is held, or one by one in unicast. -/
  | grant (m : CtrlMsg)
  /-- RESERVATION_CANCEL (R253). A received CANCEL frees a granted slot or removes a queued request. -/
  | reservationCancel (m : CtrlMsg)
  /-- DSTATUS (R254). A refusing DSTATUS cancels the token's reservations or skips one copy and reports it. -/
  | dstatus (m : CtrlMsg)
  /-- NO_CREDIT_RETRY (R251). 200 ns after NO_CREDIT the sender repeats the RESERVE. -/
  | noCreditRetry (q resId : Nat)
  /-- MULTICAST_TIMEOUT (R253). When grants are incomplete at multicast_timeout_ns, all reservations are cancelled and unicasts follow. -/
  | multicastTimeout (q token : Nat)
  /-- COPY_ARRIVE (R255). A launched copy arriving at the target dispatcher is written into its slot with a gauge signal. -/
  | copyArrive (q : Nat) (resId : CopyId) (rows : List Row)
  /-- COPY_RECEIPT_CONFIRM (R255). The target's confirmation of receipt frees the copy's staging rows. -/
  | copyReceiptConfirm (q resId : Nat)
  /-- OPEN (R271). context_op OPEN opens a FREE slot, or latches behind a release. -/
  | ctxOpen (sess : Nat) (v : BitVec 256)
  /-- CLOSE (R271). context_op CLOSE releases an IDLE context or marks an ACTIVE one CLOSING. -/
  | ctxClose (sess : Nat) (v : BitVec 256)
  /-- SET_POSITION (R272). context_op SET_POSITION raises the descriptor position. -/
  | ctxSetPosition (sess : Nat) (v : BitVec 256)
  /-- SET_PRIORITY (R272). context_op SET_PRIORITY sets the context priority. -/
  | ctxSetPriority (sess : Nat) (v : BitVec 256)
  /-- PIN (R272). context_op PIN sets pinned and queues promotion of every DDR5 page. -/
  | ctxPin (sess : Nat) (v : BitVec 256)
  /-- UNPIN (R272). context_op UNPIN clears pinned. -/
  | ctxUnpin (sess : Nat) (v : BitVec 256)
  /-- PROMOTE (R272). context_op PROMOTE queues promotion of every DDR5 page. -/
  | ctxPromote (sess : Nat) (v : BitVec 256)
  /-- DEMOTE (R272). context_op DEMOTE queues demotion of an IDLE unpinned context. -/
  | ctxDemote (sess : Nat) (v : BitVec 256)
  /-- CONTEXT_READ (R272). context_op READ copies the descriptor to object 3400:03. -/
  | ctxRead (sess : Nat) (v : BitVec 256)
  /-- POOL_APPLY (R274). A write of 0x01 to object 3410+q:06 checks and applies the page pools. -/
  | poolApply (sess q : Nat)
  /-- PAGE_MOVE_COMPLETE (R283). A page move or zero fill completes, its entry is rewritten and the pager starts its next queued move. -/
  | pageMoveComplete (q id : Nat)
  /-- PAGE_RELEASE_COMPLETE (R271). When all pages of a RELEASING context are returned, it becomes FREE, or IDLE for a latched OPEN. -/
  | pageReleaseComplete (slot : Nat)
  /-- UCIE_RETRAIN_TIMEOUT (R358). A UCIe module that does not retrain within 10 ms is retired and its requests answered TIMEOUT. -/
  | ucieRetrainTimeout (m : Nat)
  /-- DTL_MEM_READ (R361). The reeve die serves a MEM_READ from DDR5 and answers MEM_DATA. -/
  | dtlMemRead (m : Nat) (d : DtlMsg)
  /-- DTL_MEM_WRITE (R363). The reeve die buffers a MEM_WRITE for DDR5 and answers MEM_ACK. -/
  | dtlMemWrite (m : Nat) (d : DtlMsg)
  /-- MEM_DATA (R361). A MEM_DATA response at the compute die is forwarded to its requesters. -/
  | memData (m : Nat) (d : DtlMsg)
  /-- MEM_ACK (R361). A MEM_ACK response at the compute die acknowledges its tile write. -/
  | memAck (m : Nat) (d : DtlMsg)
  /-- HBM_READ (R361). An HBM_READ from reeve firmware is served by the HBM controller and answered HBM_DATA. -/
  | hbmRead (m : Nat) (d : DtlMsg)
  /-- HBM_WRITE (R363). An HBM_WRITE from reeve firmware is buffered and answered HBM_ACK. -/
  | hbmWrite (m : Nat) (d : DtlMsg)
  /-- HBM_DATA (R361). An HBM_DATA response delivers rows or a status to reeve firmware. -/
  | hbmData (m : Nat) (d : DtlMsg)
  /-- HBM_ACK (R364). An HBM_ACK acknowledges a reeve firmware write to HBM. -/
  | hbmAck (m : Nat) (d : DtlMsg)
  /-- OBJ_REQ (R361). An OBJ_REQ reads or writes a compute-die object and is answered OBJ_RSP. -/
  | objReq (m : Nat) (d : DtlMsg)
  /-- OBJ_RSP (R361). An OBJ_RSP returns a compute-die object value or status to the reeve die. -/
  | objRsp (m : Nat) (d : DtlMsg)
  /-- EVENT_LEVEE (R365). A LEVEE event carries a levee record notice to the reeve die. -/
  | eventLevee (m : Nat) (d : DtlMsg)
  /-- EVENT_BOUNDARY (R365). A BOUNDARY event tells serving firmware of a boundary or dropped tick, so it reads output records and answers clients. -/
  | eventBoundary (m : Nat) (d : DtlMsg)
  /-- EVENT_JOB_STATE (R365). A JOB_STATE event reports a partition's new job state. -/
  | eventJobState (m : Nat) (d : DtlMsg)
  /-- EVENT_PORT_STATE (R365). A PORT_STATE event reports a port's new state. -/
  | eventPortState (m : Nat) (d : DtlMsg)
  /-- DTL_MGMT (R361). A MGMT DTL message carries a MGMT unit between a Causeway port and the reeve die. -/
  | dtlMgmt (m : Nat) (up : Bool) (d : DtlMsg)
  /-- DTL_ETH (R361). An ETH DTL message carries an Ethernet frame between a port and the reeve die. -/
  | dtlEth (m : Nat) (up : Bool) (d : DtlMsg)
  /-- CREDIT (R362). A CREDIT message returns DTL receive credits. -/
  | credit (m : Nat) (up : Bool) (d : DtlMsg)
  /-- RECOVER_REQ (R518). The compute die asks the reeve die for a recovery reset with a cause. -/
  | recoverReq (m : Nat) (d : DtlMsg)
  /-- CLOSE_GO (R518). The reeve die orders the device closure of a recovery reset. -/
  | closeGo (m : Nat) (d : DtlMsg)
  /-- QUIESCED (R518). The compute die reports that it has drained and notified every levee record. -/
  | quiesced (m : Nat) (d : DtlMsg)
  /-- RESTART (R518). The reeve die resets the compute-die logic and runs the recovery stages. -/
  | restart (m : Nat) (d : DtlMsg)
  /-- REMAPPED (R518). The compute die reports completed remaps to the reeve die. -/
  | remapped (m : Nat) (d : DtlMsg)
  /-- SVC_APPLY (R368). A write of 0x01 to object 9100+s:0F applies the service configuration. -/
  | svcApply (sess svc : Nat)
  /-- SVC_START (R368). A write of 0x02 to object 9100+s:0F starts the service. -/
  | svcStart (sess svc : Nat)
  /-- SVC_STOP (R368). A write of 0x00 to object 9100+s:0F stops the service at the next boundary. -/
  | svcStop (sess svc : Nat)
  /-- OPEN_CONTEXT (R372). An endpoint OPEN_CONTEXT request opens a context for the client's tenant. -/
  | reqOpenContext (r : Request)
  /-- APPEND (R372). An endpoint APPEND request queues tokens to append to a context. -/
  | reqAppend (r : Request)
  /-- GENERATE (R372). An endpoint GENERATE request queues token generation with partial and final responses. -/
  | reqGenerate (r : Request)
  /-- CANCEL (R374). An endpoint CANCEL removes the context's lane from the next unsealed entry. -/
  | reqCancel (r : Request)
  /-- CLOSE_CONTEXT (R372). An endpoint CLOSE_CONTEXT closes the context once it leaves ACTIVE. -/
  | reqCloseContext (r : Request)
  /-- SUBMIT_FRAME (R376). An endpoint SUBMIT_FRAME places a frame for its stream's next tick. -/
  | reqSubmitFrame (r : Request)
  /-- STATUS (R372). An endpoint STATUS request is answered with the info map. -/
  | reqStatus (r : Request)
  /-- ENTRY_SEAL (R375). Within 100 µs of a step start, firmware builds and seals the next entry from continuing and admitted lanes. -/
  | entrySeal (svc : Nat)
  /-- VISION_TICK_SEAL (R376). Firmware seals a vision tick's entry 200 µs before the tick. -/
  | visionTickSeal (svc tick : Nat)
  /-- CONNECTION_LOST (R374). Loss of a client connection during APPEND or GENERATE acts as CANCEL. -/
  | connectionLost (conn : Nat)
  /-- CONTEXT_IDLE_TIMEOUT (R374). A context unused for context_idle_s is closed as by CLOSE_CONTEXT. -/
  | contextIdleTimeout (slot : Nat)
  /-- RECOVERY_RESUME_TIMEOUT (R373). A request whose job is not resumed within 5 s of a recovery reset is answered DEGRADED. -/
  | recoveryResumeTimeout (svc : Nat)
  /-- SESSION_OPEN (R388). SESSION_OPEN allocates a session and answers SESSION_CHALLENGE, or BUSY or ACCESS_DENIED. -/
  | sessionOpen (path : Path) (bytes : List Byte)
  /-- SESSION_AUTH (R388). SESSION_AUTH checks the proof and opens the session with its key, or frees it. -/
  | sessionAuth (path : Path) (bytes : List Byte)
  /-- SESSION_CLOSE (R391). SESSION_CLOSE ends the session. -/
  | sessionClose (path : Path) (bytes : List Byte)
  /-- ECHO (R385). ECHO is answered and resets the session idle timer. -/
  | echo (path : Path) (bytes : List Byte)
  /-- READ (R394). A Bamurn READ returns the values of its items. -/
  | bamRead (path : Path) (bytes : List Byte)
  /-- WRITE (R392). A Bamurn WRITE executes its value items in order. -/
  | bamWrite (path : Path) (bytes : List Byte)
  /-- READ_BLOCK (R394). A Bamurn READ_BLOCK returns one block of an object's value. -/
  | readBlock (path : Path) (bytes : List Byte)
  /-- WRITE_BLOCK (R395). A Bamurn WRITE_BLOCK adds a block to a sequence and writes the whole value at its last block. -/
  | writeBlock (path : Path) (bytes : List Byte)
  /-- DESCRIBE (R405). A Bamurn DESCRIBE returns the description of each object named. -/
  | describe (path : Path) (bytes : List Byte)
  /-- RELAY (R382). A management message with relay set is forwarded as a MGMT unit, and the response returned unchanged. -/
  | relay (path : Path) (bytes : List Byte)
  /-- SESSION_CLOSE_COMMAND (R406). A write to object 0200:03 closes the named session. -/
  | sessionCloseCommand (sess target : Nat)
  /-- SESSION_IDLE_TIMEOUT (R391). A session with no accepted request for session_idle_s ends. -/
  | sessionIdleTimeout (sess : Nat)
  /-- SESSION_AUTH_TIMEOUT (R388). A session not authenticated within 5 s of its challenge is freed. -/
  | sessionAuthTimeout (sess : Nat)
  /-- CREDENTIAL_LOCK_EXPIRY (R388). A credential locked after 8 wrong proofs is unlocked after 60 s. -/
  | credentialLockExpiry (cred : Nat)
  /-- BLOCK_SEQUENCE_TIMEOUT (R395). A block sequence without a block for 10 s is discarded. -/
  | blockSequenceTimeout (sess : Nat)
  /-- LEVEE_REPORT (R493). A fault report reaches the levee log and is coalesced into its record or the overflow record. -/
  | leveeReport (r : Report)
  /-- STORM_CLEAR (R495). Storm active clears after ten quiet 1 ms intervals. -/
  | stormClear (entry : Nat)
  /-- LEVEE_NOTICE (R496). 10 ms after a notice, a record with new reports sends another LEVEE notice. -/
  | leveeNotice (entry : Nat)
  /-- LEVEE_ENTRY_FREE (R497). A record is freed 1 s after its last report once its final count is notified. -/
  | leveeEntryFree (entry : Nat)
  /-- POWERED_SECOND (R498). The powered-seconds count advances every second and is stored every 60 s. -/
  | poweredSecond
  /-- WATCHDOG_CHECK (R506). After a WAIT_TIMEOUT the sequencer checks the control state and replays, halts, ends the job or resets. -/
  | watchdogCheck (q : Nat) (stateOk : Bool)
  /-- ABANDON (R512). A received ABANDON makes the member abandon the step, roll back, or halt. -/
  | abandon (m : CtrlMsg)
  /-- DRAINED (R512). A received DRAINED is recorded, and the replay runs once every member's is held. -/
  | drained (m : CtrlMsg)
  /-- DRAINED_MISSING_TIMEOUT (R512). A DRAINED still missing after abandon_limit_ms halts the job with cause 0x07. -/
  | drainedMissingTimeout (q : Nat)
  /-- JOB_HALT (R513). A received JOB_HALT halts the member's partition of that job. -/
  | jobHalt (m : CtrlMsg)
  /-- CLOSING (R514). A received CLOSING halts the jobs shared with the sender and marks it closed. -/
  | closing (m : CtrlMsg)
  /-- RECOVERED (R514). A received RECOVERED clears the sender's closed mark. -/
  | recovered (m : CtrlMsg)
  /-- RECOVERY_RESET_COMMAND (R515). A write of 0x01 to object 6020:00 starts a recovery reset. -/
  | recoveryResetCommand (sess : Nat)
  /-- HISTORY_CLEAR (R519). A write to object 6010:02 clears every history entry of a suspect. -/
  | historyClear (sess code : Nat)
  /-- PACKAGE_APPLY (R524). A write of 0x01 to object 6041:03 verifies the staged scour package and makes it active. -/
  | packageApply (sess : Nat) (flashOk : Bool)
  /-- SCOUR_CHUNK_START (R527). The scour scheduler starts a chunk on an eligible position, saving its window. -/
  | scourChunkStart (n : Nat)
  /-- SCOUR_INSERT (R529). A partition without slack for scour_starve_ms has a scour window inserted at a step boundary. -/
  | scourInsert (q : Nat)
  /-- SCOUR_CHUNK_TIMEOUT (R527). A chunk at 16 µs stops issuing, restores its window and counts INCONCLUSIVE. -/
  | scourChunkTimeout (n : Nat)
  /-- SCOUR_CHUNK_COMPLETE (R528). A chunk's CRC and restore are checked, and PASS, FAIL or INCONCLUSIVE is decided. -/
  | scourChunkComplete (n crc : Nat) (rawBad : List (Nat × Nat)) (restoreOk : Bool)
  /-- TWIN_COMPARE (R534). When the twin's digest is complete, it is compared with the primary's and the result acted on. -/
  | twinCompare (q : Nat)
  /-- TWIN_LIMIT_EXPIRY (R534). A twin not complete by twin_limit_ms is INCONCLUSIVE and the boundary proceeds. -/
  | twinLimitExpiry (q : Nat)
  /-- UFR_SELECT (R541). A write to object 6060:01 exposes a UFR, or writes a UFR of a levee record. -/
  | ufrSelect (sess v : Nat)
  /-- IMAGE_APPLY (R546). A write of 0x01 to object 7060:03 verifies and programs the staged firmware image. -/
  | imageApply (sess : Nat) (flashOk : Bool)
  /-- SVN_COMMIT (R547). A write to object 8000:02 blows svn_fuse up to the value written. -/
  | svnCommit (sess v : Nat)
  /-- CREDENTIAL_SET (R553). A write to object 8000:04 sets or deletes a Bamurn credential and ends its sessions. -/
  | credentialSet (sess : Nat) (v : BitVec 320)
  /-- ATTEST_REQUEST (R550). A write to object 8010:02 queues an attestation report. -/
  | attestRequest (sess : Nat) (value : List Byte)
  /-- ATTEST_SIGNED (R551). The security engine completes a signature and the report appears in object 8010:03. -/
  | attestSigned
  /-- TLS_KEYGEN (R552). A write of 0x01 to object 8020:00 generates a TLS key and its certificate request. -/
  | tlsKeygen (sess : Nat)
  /-- TLS_CHAIN_WRITE (R552). A write of a certificate chain to object 8020:02 is checked against the key and serves new connections. -/
  | tlsChainWrite (sess : Nat) (chain : List Byte)
  /-- DEBUG_READ (R558). A write to object 8030:01 reads up to 32 rows of a held tile into object 8030:02. -/
  | debugRead (sess : Nat) (v : BitVec 64)
  /-- DEBUG_RELEASE (R558). A write to object 8030:03 releases a held tile for its scrub. -/
  | debugRelease (sess n : Nat)
  /-- DEBUG_HOLD_EXPIRY (R558). A scrub held for debug proceeds 10 s after S7 began. -/
  | debugHoldExpiry
  /-- UNLOCK_TOKEN (R559). A token written to object 8040:02 zero-fills memory, scrubs tiles and unlocks the test port. -/
  | unlockToken (sess : Nat) (token : List Byte)
  /-- MEMORY_UNIT_NOT_ANSWERING (R320). An HBM stack or DDR5 channel stops answering in service; its requests are then answered UNCORRECTABLE until the next start. -/
  | memoryUnitNotAnswering (srv : Server)
  /-- PRBS_PHASE_END (R327). After 10 ms of PRBS31, or 1 ms with saved settings, the lanes of a training port move on to sending idle flits. -/
  | prbsPhaseEnd (k : Nat)
  /-- CODEWORD_LOCK (R328). A lane's receiver gains codeword lock once 16 consecutive codewords decode, so the port can exchange HELLO, or so a retrain can resume. -/
  | codewordLock (k lane : Nat)
  /-- EGRESS_PACKET (R336). A packet bound for another device reaches its egress port from the mesh; the port records a forward entry, rewrites the header and packs the packet into slots within its credits. -/
  | egressPacket (k hop : Nat) (p : Packet)
  /-- UCIE_ADAPTER_RETRY_FAILURE (R358). A UCIe module fails adapter retry and starts retraining as UCIe defines. -/
  | ucieAdapterRetryFailure (m : Nat)
  /-- UCIE_RETRAINED (R358). A UCIe module that retrains within 10 ms returns to up and carries DTL traffic again. -/
  | ucieRetrained (m : Nat)
  deriving DecidableEq, Repr

end Sys2Proof
end

