-- ==== Sys2Proof/Decode.lean ====
section
/-! DEFINITION. Reading a command from a word of spec/opcode_table.json. No row of that table gives bits: a command of this block is a message, an object write, an event or a timer's expiry, and its own encoding (a packet's header, a Bamurn message, a DTL header) is read by the part it reaches. -/

namespace Sys2Proof

/-- The command that a word spells by the table's bits. No row gives any bits, so no word spells a command. -/
def decodeTableWord (_nbits _w : Nat) : Option Instr := none

end Sys2Proof
end

