-- ==== Sys2Proof/Machine/Crc.lean ====
section
/-! DEFINITION. The checks the module computes over bytes: CRC-64 of R533, CRC-32C of R329 and R401, SHA-256 (FIPS 180-4) and HMAC-SHA-256 (FIPS 198-1) of R388 and R389. -/

namespace Sys2Proof.Machine

/-! ### Reflected CRCs -/

/-- One bit of a reflected CRC with the reflected polynomial `poly`. -/
def crcBit (poly c : Nat) : Nat := if c % 2 = 1 then Nat.xor (c / 2) poly else c / 2

/-- Bits of a reflected CRC. -/
def crcBits (poly : Nat) : Nat → Nat → Nat
  | 0, c => c
  | k + 1, c => crcBits poly k (crcBit poly c)

/-- Bytes of a reflected CRC. -/
def crcBytes (poly c : Nat) (bs : List Byte) : Nat := bs.foldl (fun a b => crcBits poly 8 (Nat.xor a b.toNat)) c

/-- The running register of the CRC-64 of R533, before its final xor: polynomial 0x42F0E1EBA9EA3693 reflected. -/
def crc64Run (c : BitVec 64) (bs : List Byte) : BitVec 64 := BitVec.ofNat 64 (crcBytes 0xC96C5795D7870F42 c.toNat bs)

/-- The CRC-64 of R533. -/
def crc64 (bs : List Byte) : BitVec 64 := crc64Run (BitVec.allOnes 64) bs ^^^ BitVec.allOnes 64

/-- CRC-32C: the Castagnoli polynomial 0x1EDC6F41 reflected, initial value and final xor all ones. -/
def crc32c (bs : List Byte) : BitVec 32 := BitVec.ofNat 32 (crcBytes 0x82F63B78 0xFFFFFFFF bs) ^^^ BitVec.allOnes 32

/-! ### SHA-256 (FIPS 180-4) -/

/-- The sixty-four round constants side by side, round 0 in the most-significant 32 bits: the fractions of the cube roots of the first primes. -/
def roundConstants : BitVec 2048 :=
  0x428a2f9871374491b5c0fbcfe9b5dba53956c25b59f111f1923f82a4ab1c5ed5d807aa9812835b01243185be550c7dc372be5d7480deb1fe9bdc06a7c19bf174e49b69c1efbe47860fc19dc6240ca1cc2de92c6f4a7484aa5cb0a9dc76f988da983e5152a831c66db00327c8bf597fc7c6e00bf3d5a7914706ca63511429296727b70a852e1b21384d2c6dfc53380d13650a7354766a0abb81c2c92e92722c85a2bfe8a1a81a664bc24b8b70c76c51a3d192e819d6990624f40e3585106aa07019a4c1161e376c082748774c34b0bcb5391c0cb34ed8aa4a5b9cca4f682e6ff3748f82ee78a5636f84c878148cc7020890befffaa4506cebbef9a3f7c67178f2

/-- The constant of a round. -/
def roundConstant (i : Nat) : BitVec 32 := roundConstants.extractLsb' (32 * (63 - i)) 32

/-- The hash value before the first block, its words side by side: the fractions of the square roots of the first primes. -/
def hashStart : BitVec 256 := 0x6a09e667bb67ae853c6ef372a54ff53a510e527f9b05688c1f83d9ab5be0cd19

/-- The eight words of a hash value, the most-significant first. -/
def hashWords (h : BitVec 256) : List (BitVec 32) := (List.range 8).map (fun i => h.extractLsb' (32 * (7 - i)) 32)

/-- The exclusive or of a word's rotations to the right. -/
def turned (x : BitVec 32) (by' : List Nat) : BitVec 32 := by'.foldl (fun acc k => acc ^^^ x.rotateRight k) 0

/-- The words of the schedule from word 16 on, one from the last sixteen, which `recent` holds oldest first. -/
def nextScheduled (recent : List (BitVec 32)) : BitVec 32 :=
  let word := fun i => recent.getD i 0
  word 0 + word 9 + (turned (word 1) [7, 18] ^^^ word 1 >>> 3) + (turned (word 14) [17, 19] ^^^ word 14 >>> 10)

/-- The working words after one round on schedule word `w` with constant `k`. -/
def hashRound (w k : BitVec 32) : List (BitVec 32) → List (BitVec 32)
  | [a, b, c, d, e, f, g, h] =>
    let mix := h + turned e [6, 11, 25] + (g ^^^ (e &&& (f ^^^ g))) + k + w
    [mix + turned a [2, 13, 22] + ((a &&& (b ||| c)) ||| (b &&& c)), a, b, c, d + mix, e, f, g]
  | other => other

/-- The rounds from round `i` on: `left` of them, with the last sixteen schedule words, oldest first. -/
def hashRounds : Nat → Nat → List (BitVec 32) → List (BitVec 32) → List (BitVec 32)
  | 0, _, _, work => work
  | left + 1, i, recent, work =>
    hashRounds left (i + 1) (recent.drop 1 ++ [nextScheduled recent]) (hashRound (recent.headD 0) (roundConstant i) work)

/-- A number from bytes, most-significant byte first. -/
def beNat (bs : List Byte) : Nat := bs.foldl (fun v b => 256 * v + b.toNat) 0

/-- The `k` low bytes of a number, most-significant byte first. -/
def beBytes (k v : Nat) : List Byte := (leBytes k v).reverse

/-- Cut a byte string into pieces of `k` bytes, `n` of them. -/
def pieces (k : Nat) : Nat → List Byte → List (List Byte)
  | 0, _ => []
  | n + 1, bs => bs.take k :: pieces k n (bs.drop k)

/-- The hash value after one 64-byte block. -/
def hashBlock (h : List (BitVec 32)) (block : List Byte) : List (BitVec 32) :=
  List.zipWith (· + ·) h (hashRounds 64 0 ((pieces 4 16 block).map (fun b => BitVec.ofNat 32 (beNat b))) h)

/-- SHA-256 of a byte string. -/
def sha256 (m : List Byte) : List Byte :=
  let padded := m ++ (0x80#8 :: List.replicate ((119 - m.length % 64) % 64) 0#8) ++ beBytes 8 (8 * m.length)
  ((pieces 64 (padded.length / 64) padded).foldl hashBlock (hashWords hashStart)).flatMap (fun w => beBytes 4 w.toNat)

/-- HMAC-SHA-256 (FIPS 198-1). -/
def hmacSha256 (key m : List Byte) : List Byte :=
  let k0 := if key.length > 64 then sha256 key else key
  let k := k0 ++ List.replicate (64 - k0.length) 0
  sha256 (k.map (· ^^^ 0x5C#8) ++ sha256 (k.map (· ^^^ 0x36#8) ++ m))

end Sys2Proof.Machine
end

