-- ==== Sys2Proof/Config.lean ====
section
/-! DEFINITION. What an implementation fixes and the spec leaves open: the FREE VALUES of the model. Every constant here has no body, so no proof can see its value. notes/assumptions/3.md and 4.md. -/

namespace Sys2Proof.Config

/-- FREE VALUE: the exponential the vector unit computes, on bit patterns (R148: one fixed algorithm, so a function of the operand); `inBounds` takes it, and the free values of the other transcendentals, only within 2 ULP. -/
opaque vecExp : F32 → F32

/-- FREE VALUE: the natural logarithm the vector unit computes (R148). -/
opaque vecLog : F32 → F32

/-- FREE VALUE: the hyperbolic tangent the vector unit computes (R148). -/
opaque vecTanh : F32 → F32

/-- FREE VALUE: the reciprocal the vector unit computes (R148). -/
opaque vecRecip : F32 → F32

/-- FREE VALUE: the reciprocal square root the vector unit computes (R148). -/
opaque vecRsqrt : F32 → F32

/-- FREE VALUE: the first LOG of GUMBEL, whose operand has 25 significant bits and enters unrounded (R161). The operand is `2 * draw + 1` in units of 2^-25. -/
opaque vecLogWide : Nat → F32

/-- FREE VALUE: a byte an unreset gated register or an undefined capture holds (R411: the live and shadow registers are lost at gating). -/
opaque lostRow : Nat → BitVec 512

/-- FREE VALUE: a random 128-bit nonce or challenge (R388, R559). -/
opaque nonce : Nat → BitVec 128

/-- FREE VALUE: does an SLH-DSA signature verify under FIPS 205 (R521, R544, R559)? Arguments: public key, message, signature. -/
opaque slhVerify : List Byte → List Byte → List Byte → Bool

/-- FREE VALUE: the SLH-DSA-SHA2-128s signature of a message by the device identity key (R540, R550), 7,856 bytes. -/
opaque slhSign : List Byte → List Byte

/-- FREE VALUE: the identity public key generated from the seeds of R549. -/
opaque identityKey : List Byte → List Byte

/-- FREE VALUE: the P-384 public key of the n-th key generation (R552). -/
opaque tlsKey : Nat → List Byte

/-- FREE VALUE: the PKCS#10 request of a TLS key (R552). -/
opaque tlsRequest : List Byte → List Byte

/-- FREE VALUE: the public key of the leaf certificate of a DER chain (R552); none where it is no chain. -/
opaque leafKey : List Byte → Option (List Byte)

/-- FREE VALUE: the SHA-256 fingerprint the factory burned as root_key_hash (R542). -/
opaque rootKeyHash : List Byte

/-- FREE VALUE: the unique device secret (R542). -/
opaque uds : List Byte

/-- FREE VALUE: the key of credential 0, delivered for each serial (R553). -/
opaque factoryKey : List Byte

/-- FREE VALUE: Peulasel's certificate for the identity key (R549). -/
opaque identityCert : List Byte

/-- FREE VALUE: the verification key of scour packages (R521). -/
opaque packageKey : List Byte

/-- FREE VALUE: does an SLH-DSA token over serial and challenge verify (R559)? -/
opaque tokenVerify : List Byte → List Byte → Bool

/-- FREE VALUE: the value a read returns where the spec orders no read against a write, or states no result; a fresh one for each counter value. -/
opaque unordered : Nat → Nat

/-- FREE VALUE: the bank and the row of a DIMM byte address, which R310 leaves to the controller. -/
opaque ddrBankRow : Nat → Nat × Nat

/-- FREE VALUE: the soft post-package repairs a bank of a memory device has, by server and bank (R318). -/
opaque repairsOf : Nat → Nat → Nat

/-- FREE VALUE: does the context cache still hold an unpinned descriptor it has held before (R285 gives the service of hits and misses, and no rule for what leaves the cache)? -/
opaque cacheKeeps : Nat → Bool

/-- FREE VALUE: the FREE slot that the serving firmware opens (R372 names none); a value that is no FREE slot stands for the lowest one. -/
opaque openSlot : Nat → Nat

/-- FREE VALUE: where in the partition's window, in units of 32 bytes, the serving firmware puts the lane list of an entry, by service and key (R229 gives the field and no place). -/
opaque laneListAt : Nat → Nat → Nat

/-- FREE VALUE: where in the window, in units of 32 bytes, the serving firmware puts a lane's token list, by service, key and lane (R366). -/
opaque tokenListAt : Nat → Nat → Nat → Nat

/-- FREE VALUE: the firmware image that the factory put into both flashes (R543). -/
opaque factoryImage : List Byte

/-- FREE VALUE: the scour package that the factory put into the flash (R521). -/
opaque factoryPackage : List Byte

/-- FREE VALUE: the decoded fuse block, UDS rows excluded (R471, R545). -/
opaque fuseBlock : List Byte

/-- FREE VALUE: the baseline Z0 of a rail in µΩ from the fuses (R415, R471): a VL plane by its cluster, VA.Ff as 100 + f, VF.Ff as 106 + f. -/
opaque railBase : Nat → Nat

/-- FREE VALUE: the number a new session takes (R388 names none); a number in use or outside 1-0xFFFE stands for the lowest free one. -/
opaque sessionNumber : Nat → Nat

/-- FREE VALUE: the largest value size that a description states for an object of variable size whose table states none (R405). -/
opaque maxSize : Nat → Nat

/-- FREE VALUE: the rows, by bank and bank row, that do not hold zero at the read-back of a scrub, a fresh list for each scrub (R97, R98). -/
opaque scrubFails : Nat → List (Nat × Nat)

/-- FREE VALUE: what a sensor reads that no command reports, a fresh one for each read. -/
opaque sensor : Nat → Nat

end Sys2Proof.Config
end

