-- ==== Sys2Proof/Machine/Store.lean ====
section
/-! DEFINITION. The one store of the model: a sparse table from numbers to values in one canonical form (keys strictly rising, no entry equal to what an unlisted key reads as). Registers, tiles, rows and entries of every numbered kind are held in it. -/

namespace Sys2Proof.Machine

/-- A sparse table: the entries that differ from what an unlisted key reads as, by rising key. -/
abbrev Tbl (α : Type) := List (Nat × α)

/-- The entry listed for `k`. -/
def Tbl.find {α : Type} : Tbl α → Nat → Option α
  | [], _ => none
  | (j, v) :: r, k => if j = k then some v else Tbl.find r k

/-- What `k` reads as, `d` where nothing is listed. -/
def Tbl.get {α : Type} (t : Tbl α) (d : α) (k : Nat) : α := (Tbl.find t k).getD d

/-- List `v` for `k`, in key order. -/
def Tbl.insert {α : Type} : Tbl α → Nat → α → Tbl α
  | [], k, v => [(k, v)]
  | (j, w) :: r, k, v =>
    if k < j then (k, v) :: (j, w) :: r
    else if j = k then (k, v) :: r
    else (j, w) :: Tbl.insert r k v

/-- Unlist `k`. -/
def Tbl.erase {α : Type} (t : Tbl α) (k : Nat) : Tbl α := t.filter (fun e => e.1 ≠ k)

/-- Write `v` at `k`: a write of the unlisted value unlists the key. -/
def Tbl.put {α : Type} [DecidableEq α] (t : Tbl α) (d : α) (k : Nat) (v : α) : Tbl α :=
  if v = d then Tbl.erase t k else Tbl.insert t k v

/-- The keys rise strictly. -/
def Tbl.sorted {α : Type} : Tbl α → Bool
  | [] => true
  | [_] => true
  | (j, _) :: (k, w) :: r => decide (j < k) && Tbl.sorted ((k, w) :: r)

/-- The canonical form of a table whose unlisted keys read as `d`. -/
def Tbl.wf {α : Type} [DecidableEq α] (t : Tbl α) (d : Nat → α) : Bool :=
  Tbl.sorted t && t.all (fun e => decide (e.2 ≠ d e.1))

/-- The listed keys. -/
def Tbl.keys {α : Type} (t : Tbl α) : List Nat := t.map (·.1)

/-- Keep what `f` keeps of every entry of a table. -/
def Tbl.keep {α : Type} [DecidableEq α] (t : Tbl α) (d : α) (f : α → α) : Tbl α :=
  t.filterMap (fun e => if f e.2 = d then none else some (e.1, f e.2))

/-- The key of an object's entry: index, subindex, entry number (0 where the object is no table) (R404). -/
def okey (index sub elem : Nat) : Nat := (index * 256 + sub) * 65536 + elem

end Sys2Proof.Machine
end

