-- ==== Sys2Proof/Machine/Objects.lean ====
section
/-! DEFINITION. The object dictionary's descriptions (R404, R405): for each object its index range, subindex, name, type, access, size, range and whether the record flash keeps it; and what each object reads as before anything has written it. Written from the object tables of spec/. -/

namespace Sys2Proof.Machine

/-- One object of the dictionary: `count` consecutive indices from `base` carry it at subindex `sub` (R404). `ty` and `access` are the codes of R393 and R405; `entries` is a TABLE's entry count; `size` a value's or an entry's bytes (0: variable); `lo` and `hi` bound what a write may carry; `keep`: the record flash or fuses hold it across power loss. -/
structure ObjDesc where
  base    : Nat
  count   : Nat
  sub     : Nat
  name    : String
  ty      : Nat
  access  : Nat
  entries : Nat
  size    : Nat
  lo      : Nat
  hi      : Nat
  keep    : Bool
  deriving DecidableEq, Repr

/-- Objects, part 0, from 0100:00 (R2) to 2100:26 (R115). -/
def objects0 : List ObjDesc := [
  ⟨0x0100, 1, 0x00, "part_number", 8, 1, 0, 0, 0, 0, true⟩,
  ⟨0x0101, 1, 0x00, "grade", 2, 1, 0, 1, 0, 255, true⟩,
  ⟨0x0102, 1, 0x00, "tiles_offered", 3, 1, 0, 2, 0, 0xFFFF, false⟩,
  ⟨0x0110, 1, 0x00, "device_mode", 2, 1, 0, 1, 0, 255, false⟩,
  ⟨0x0110, 1, 0x01, "test_session", 2, 5, 0, 1, 0, 255, false⟩,
  ⟨0x0110, 1, 0x02, "test_holder", 3, 1, 0, 2, 0, 0xFFFF, false⟩,
  ⟨0x2100, 1224, 0x00, "tile_state", 2, 1, 0, 1, 0, 255, true⟩,
  ⟨0x2000, 1, 0x00, "floor_plan_version", 4, 1, 0, 4, 0, 0xFFFFFFFF, true⟩,
  ⟨0x2001, 1, 0x00, "floor_plan", 11, 1, 1224, 1, 0, 255, false⟩,
  ⟨0x2002, 1, 0x00, "reserve_pool", 3, 1, 0, 2, 0, 0xFFFF, false⟩,
  ⟨0x2003, 1, 0x00, "holes", 3, 1, 0, 2, 0, 0xFFFF, false⟩,
  ⟨0x2100, 1224, 0x01, "tile_x", 2, 1, 0, 1, 0, 255, false⟩,
  ⟨0x2100, 1224, 0x02, "tile_y", 2, 1, 0, 1, 0, 255, false⟩,
  ⟨0x2100, 1224, 0x03, "tile_cluster", 2, 1, 0, 1, 0, 255, false⟩,
  ⟨0x2100, 1224, 0x04, "tile_logical", 3, 1, 0, 2, 0, 0xFFFF, false⟩,
  ⟨0x2100, 1224, 0x05, "tile_polder", 3, 1, 0, 2, 0, 0xFFFF, false⟩,
  ⟨0x2100, 1224, 0x10, "column_saturation", 11, 6, 128, 2, 0, 0xFFFF, false⟩,
  ⟨0x2100, 1224, 0x11, "requant_clamps", 4, 6, 0, 4, 0, 0xFFFFFFFF, false⟩,
  ⟨0x2100, 1224, 0x12, "sentinel_cfg", 11, 1, 3, 4, 0, 0xFFFFFFFF, false⟩,
  ⟨0x2100, 1224, 0x13, "sentinel_events", 11, 6, 3, 4, 0, 0xFFFFFFFF, false⟩,
  ⟨0x2100, 1224, 0x14, "sentinel_last", 11, 1, 3, 8, 0, 0xFFFFFFFFFFFFFFFF, false⟩,
  ⟨0x2100, 1224, 0x15, "sentinel_last_code", 11, 1, 3, 1, 0, 255, false⟩,
  ⟨0x2100, 1224, 0x16, "format_faults", 4, 6, 0, 4, 0, 0xFFFFFFFF, false⟩,
  ⟨0x2100, 1224, 0x17, "nan_scale", 4, 6, 0, 4, 0, 0xFFFFFFFF, false⟩,
  ⟨0x2100, 1224, 0x18, "mode_faults", 4, 6, 0, 4, 0, 0xFFFFFFFF, false⟩,
  ⟨0x2100, 1224, 0x19, "array_ramps", 4, 6, 0, 4, 0, 0xFFFFFFFF, false⟩,
  ⟨0x2100, 1224, 0x1A, "column_repair", 4, 1, 0, 4, 0, 0xFFFFFFFF, true⟩,
  ⟨0x2100, 1224, 0x1B, "array_rows", 5, 6, 0, 8, 0, 0xFFFFFFFFFFFFFFFF, false⟩,
  ⟨0x2100, 1224, 0x1C, "array_filler", 5, 6, 0, 8, 0, 0xFFFFFFFFFFFFFFFF, false⟩,
  ⟨0x2100, 1224, 0x20, "handle_table", 11, 1, 64, 8, 0, 0xFFFFFFFFFFFFFFFF, false⟩,
  ⟨0x2100, 1224, 0x21, "bank_collisions", 11, 6, 12, 4, 0, 0xFFFFFFFF, false⟩,
  ⟨0x2100, 1224, 0x22, "collision_slip", 5, 6, 0, 8, 0, 0xFFFFFFFFFFFFFFFF, false⟩,
  ⟨0x2100, 1224, 0x23, "corrected_reads", 11, 6, 12, 4, 0, 0xFFFFFFFF, false⟩,
  ⟨0x2100, 1224, 0x24, "uncorrectable_reads", 4, 6, 0, 4, 0, 0xFFFFFFFF, false⟩,
  ⟨0x2100, 1224, 0x25, "spare_rows_left", 11, 1, 12, 1, 0, 255, false⟩,
  ⟨0x2100, 1224, 0x26, "spare_pending", 11, 1, 12, 1, 0, 255, false⟩]

/-- Objects, part 1, from 2100:27 (R115) to 2100:67 (R222). -/
def objects1 : List ObjDesc := [
  ⟨0x2100, 1224, 0x27, "mover_inflight", 2, 1, 0, 1, 0, 255, false⟩,
  ⟨0x2100, 1224, 0x28, "mover_entry_waits", 5, 6, 0, 8, 0, 0xFFFFFFFFFFFFFFFF, false⟩,
  ⟨0x2100, 1224, 0x29, "scrub_last", 10, 1, 0, 8, 0, 0xFFFFFFFFFFFFFFFF, false⟩,
  ⟨0x2100, 1224, 0x2A, "scrub_state", 2, 1, 0, 1, 0, 255, false⟩,
  ⟨0x2100, 1224, 0x2B, "mover_last_error", 2, 1, 0, 1, 0, 255, false⟩,
  ⟨0x2100, 1224, 0x2C, "collision_last", 5, 1, 0, 8, 0, 0xFFFFFFFFFFFFFFFF, false⟩,
  ⟨0x2100, 1224, 0x30, "queue_state", 11, 1, 4, 1, 0, 255, false⟩,
  ⟨0x2100, 1224, 0x31, "queue_pc", 11, 1, 4, 2, 0, 0xFFFF, false⟩,
  ⟨0x2100, 1224, 0x32, "queue_last_status", 11, 1, 4, 1, 0, 255, false⟩,
  ⟨0x2100, 1224, 0x33, "queue_head_since", 11, 1, 4, 8, 0, 0xFFFFFFFFFFFFFFFF, false⟩,
  ⟨0x2100, 1224, 0x34, "queue_wait_target", 11, 1, 4, 8, 0, 0xFFFFFFFFFFFFFFFF, false⟩,
  ⟨0x2100, 1224, 0x35, "queue_issued", 11, 6, 4, 8, 0, 0xFFFFFFFFFFFFFFFF, false⟩,
  ⟨0x2100, 1224, 0x36, "queue_timeouts", 4, 6, 0, 4, 0, 0xFFFFFFFF, false⟩,
  ⟨0x2100, 1224, 0x37, "program_id", 4, 1, 0, 4, 0, 0xFFFFFFFF, false⟩,
  ⟨0x2100, 1224, 0x38, "step_register", 5, 1, 0, 8, 0, 0xFFFFFFFFFFFFFFFF, false⟩,
  ⟨0x2100, 1224, 0x39, "signals_suppressed", 4, 6, 0, 4, 0, 0xFFFFFFFF, false⟩,
  ⟨0x2100, 1224, 0x40, "vec_busy", 5, 6, 0, 8, 0, 0xFFFFFFFFFFFFFFFF, false⟩,
  ⟨0x2100, 1224, 0x41, "vec_nan_skipped", 4, 6, 0, 4, 0, 0xFFFFFFFF, false⟩,
  ⟨0x2100, 1224, 0x42, "vec_interlock", 5, 6, 0, 8, 0, 0xFFFFFFFFFFFFFFFF, false⟩,
  ⟨0x2100, 1224, 0x43, "vec_commands", 5, 6, 0, 8, 0, 0xFFFFFFFFFFFFFFFF, false⟩,
  ⟨0x2100, 1224, 0x50, "detour_entry", 5, 1, 0, 8, 0, 0xFFFFFFFFFFFFFFFF, false⟩,
  ⟨0x2100, 1224, 0x51, "flits_forwarded", 11, 6, 2, 8, 0, 0xFFFFFFFFFFFFFFFF, false⟩,
  ⟨0x2100, 1224, 0x52, "link_retries", 4, 6, 0, 4, 0, 0xFFFFFFFF, false⟩,
  ⟨0x2100, 1224, 0x53, "payload_corrected", 4, 6, 0, 4, 0, 0xFFFFFFFF, false⟩,
  ⟨0x2100, 1224, 0x54, "payload_uncorrectable", 4, 6, 0, 4, 0, 0xFFFFFFFF, false⟩,
  ⟨0x2100, 1224, 0x55, "reads_merged", 4, 6, 0, 4, 0, 0xFFFFFFFF, false⟩,
  ⟨0x2100, 1224, 0x56, "fork_waits", 5, 6, 0, 8, 0, 0xFFFFFFFFFFFFFFFF, false⟩,
  ⟨0x2100, 1224, 0x57, "packets_fenced", 4, 6, 0, 4, 0, 0xFFFFFFFF, false⟩,
  ⟨0x2100, 1224, 0x60, "gauge_records", 11, 1, 128, 16, 0, 0xFFFFFFFFFFFFFFFFFFFFFFFFFFFFFFFF, false⟩,
  ⟨0x2100, 1224, 0x61, "gauge_last_tide", 11, 1, 128, 8, 0, 0xFFFFFFFFFFFFFFFF, false⟩,
  ⟨0x2100, 1224, 0x62, "gauge_set", 5, 5, 0, 8, 0, 0xFFFFFFFFFFFFFFFF, false⟩,
  ⟨0x2100, 1224, 0x63, "pending_signals", 11, 1, 32, 16, 0, 0xFFFFFFFFFFFFFFFFFFFFFFFFFFFFFFFF, false⟩,
  ⟨0x2100, 1224, 0x64, "signals_applied", 5, 6, 0, 8, 0, 0xFFFFFFFFFFFFFFFF, false⟩,
  ⟨0x2100, 1224, 0x65, "signals_refused", 4, 6, 0, 4, 0, 0xFFFFFFFF, false⟩,
  ⟨0x2100, 1224, 0x66, "pending_full_holds", 4, 6, 0, 4, 0, 0xFFFFFFFF, false⟩,
  ⟨0x2100, 1224, 0x67, "transfer_errors", 4, 6, 0, 4, 0, 0xFFFFFFFF, false⟩]

/-- Objects, part 2, from 2100:68 (R222) to 5200:04 (R245). -/
def objects2 : List ObjDesc := [
  ⟨0x2100, 1224, 0x68, "signals_discarded", 4, 6, 0, 4, 0, 0xFFFFFFFF, false⟩,
  ⟨0x5000, 12, 0x00, "part_state", 2, 1, 0, 1, 0, 255, false⟩,
  ⟨0x5000, 12, 0x01, "clusters", 9, 3, 0, 12, 0, 0xFFFFFFFFFFFFFFFFFFFFFFFF, true⟩,
  ⟨0x5000, 12, 0x02, "hbm_base", 5, 3, 0, 8, 0, 0xFFFFFFFFFFFFFFFF, true⟩,
  ⟨0x5000, 12, 0x03, "hbm_size", 5, 3, 0, 8, 0, 0xFFFFFFFFFFFFFFFF, true⟩,
  ⟨0x5000, 12, 0x04, "ddr_base", 5, 3, 0, 8, 0, 0xFFFFFFFFFFFFFFFF, true⟩,
  ⟨0x5000, 12, 0x05, "ddr_size", 5, 3, 0, 8, 0, 0xFFFFFFFFFFFFFFFF, true⟩,
  ⟨0x5000, 12, 0x06, "job_table", 5, 3, 0, 8, 0, 0xFFFFFFFFFFFFFFFF, true⟩,
  ⟨0x5000, 12, 0x07, "tenant", 4, 3, 0, 4, 0, 0xFFFFFFFF, true⟩,
  ⟨0x5000, 12, 0x08, "apply", 2, 5, 0, 1, 0, 255, false⟩,
  ⟨0x5000, 12, 0x09, "reserve_pool", 3, 1, 0, 2, 0, 0xFFFF, false⟩,
  ⟨0x5000, 12, 0x0A, "poll_ns", 4, 3, 0, 4, 500, 0x186A0, true⟩,
  ⟨0x5010, 12, 0x00, "job_state", 2, 1, 0, 1, 0, 255, false⟩,
  ⟨0x5010, 12, 0x01, "job_load", 2, 5, 0, 1, 0, 255, false⟩,
  ⟨0x5010, 12, 0x02, "job_end", 2, 5, 0, 1, 0, 255, false⟩,
  ⟨0x5010, 12, 0x03, "job_preempt", 2, 5, 0, 1, 0, 255, false⟩,
  ⟨0x5010, 12, 0x04, "job_resume", 2, 5, 0, 1, 0, 255, false⟩,
  ⟨0x5010, 12, 0x05, "step", 5, 1, 0, 8, 0, 0xFFFFFFFFFFFFFFFF, false⟩,
  ⟨0x5010, 12, 0x06, "steps_completed", 5, 1, 0, 8, 0, 0xFFFFFFFFFFFFFFFF, false⟩,
  ⟨0x5010, 12, 0x07, "load_error", 4, 1, 0, 4, 0, 0xFFFFFFFF, false⟩,
  ⟨0x5010, 12, 0x08, "boundary_tide", 10, 1, 0, 8, 0, 0xFFFFFFFFFFFFFFFF, false⟩,
  ⟨0x5010, 12, 0x09, "entry_waits", 5, 6, 0, 8, 0, 0xFFFFFFFFFFFFFFFF, false⟩,
  ⟨0x5010, 12, 0x0A, "entry_errors", 4, 6, 0, 4, 0, 0xFFFFFFFF, false⟩,
  ⟨0x5010, 12, 0x0B, "replays", 4, 6, 0, 4, 0, 0xFFFFFFFF, false⟩,
  ⟨0x5010, 12, 0x0C, "job_id", 3, 1, 0, 2, 0, 0xFFFF, false⟩,
  ⟨0x5020, 12, 0x00, "cadence_enable", 1, 3, 0, 1, 0, 1, true⟩,
  ⟨0x5020, 12, 0x01, "cadence_period_ns", 4, 2, 0, 4, 0x186A0, 0x3B9ACA00, false⟩,
  ⟨0x5020, 12, 0x02, "cadence_phase", 10, 2, 0, 8, 0, 0xFFFFFFFFFFFFFFFF, false⟩,
  ⟨0x5020, 12, 0x03, "cadence_miss", 5, 6, 0, 8, 0, 0xFFFFFFFFFFFFFFFF, false⟩,
  ⟨0x5020, 12, 0x04, "cadence_empty", 5, 6, 0, 8, 0, 0xFFFFFFFFFFFFFFFF, false⟩,
  ⟨0x5020, 12, 0x05, "cadence_last_tick", 5, 1, 0, 8, 0, 0xFFFFFFFFFFFFFFFF, false⟩,
  ⟨0x5200, 1, 0x00, "expert_table_version", 4, 1, 0, 4, 0, 0xFFFFFFFF, false⟩,
  ⟨0x5200, 1, 0x01, "expert_table", 11, 2, 4096, 32, 0, 0xFFFFFFFFFFFFFFFFFFFFFFFFFFFFFFFFFFFFFFFFFFFFFFFFFFFFFFFFFFFFFFFF, false⟩,
  ⟨0x5200, 1, 0x02, "expert_apply", 2, 5, 0, 1, 0, 255, false⟩,
  ⟨0x5200, 1, 0x03, "multicast_timeout_ns", 4, 3, 0, 4, 500, 0x4E20, true⟩,
  ⟨0x5200, 1, 0x04, "prefetch_hold_us", 3, 3, 0, 2, 1, 200, true⟩]

/-- Objects, part 3, from 5210:00 (R259) to 3410:0F (R288). -/
def objects3 : List ObjDesc := [
  ⟨0x5210, 12, 0x00, "tokens_accepted", 5, 6, 0, 8, 0, 0xFFFFFFFFFFFFFFFF, false⟩,
  ⟨0x5210, 12, 0x01, "copies_delivered", 5, 6, 0, 8, 0, 0xFFFFFFFFFFFFFFFF, false⟩,
  ⟨0x5210, 12, 0x02, "multicast_fallbacks", 4, 6, 0, 4, 0, 0xFFFFFFFF, false⟩,
  ⟨0x5210, 12, 0x03, "no_credit_retries", 4, 6, 0, 4, 0, 0xFFFFFFFF, false⟩,
  ⟨0x5210, 12, 0x04, "reserve_wait_ns", 5, 6, 0, 8, 0, 0xFFFFFFFFFFFFFFFF, false⟩,
  ⟨0x5210, 12, 0x05, "copies_skipped", 4, 6, 0, 4, 0, 0xFFFFFFFF, false⟩,
  ⟨0x5210, 12, 0x06, "staging_holds", 4, 6, 0, 4, 0, 0xFFFFFFFF, false⟩,
  ⟨0x5210, 12, 0x07, "hints_issued", 4, 6, 0, 4, 0, 0xFFFFFFFF, false⟩,
  ⟨0x5210, 12, 0x08, "hints_dropped", 4, 6, 0, 4, 0, 0xFFFFFFFF, false⟩,
  ⟨0x5210, 12, 0x09, "staging_in_use", 3, 1, 0, 2, 0, 0xFFFF, false⟩,
  ⟨0x3400, 1, 0x00, "context_table_base", 5, 1, 0, 8, 0, 0xFFFFFFFFFFFFFFFF, false⟩,
  ⟨0x3400, 1, 0x01, "contexts_open", 4, 1, 0, 4, 0, 0xFFFFFFFF, false⟩,
  ⟨0x3400, 1, 0x02, "context_op", 9, 5, 0, 32, 0, 0xFFFFFFFFFFFFFFFFFFFFFFFFFFFFFFFFFFFFFFFFFFFFFFFFFFFFFFFFFFFFFFFF, false⟩,
  ⟨0x3400, 1, 0x03, "context_result", 9, 1, 0, 64, 0, 0xFFFFFFFFFFFFFFFFFFFFFFFFFFFFFFFFFFFFFFFFFFFFFFFFFFFFFFFFFFFFFFFFFFFFFFFFFFFFFFFFFFFFFFFFFFFFFFFFFFFFFFFFFFFFFFFFFFFFFFFFFFFFFFFF, false⟩,
  ⟨0x3400, 1, 0x04, "cache_pinned", 3, 1, 0, 2, 0, 0xFFFF, false⟩,
  ⟨0x3400, 1, 0x05, "cache_hits", 5, 6, 0, 8, 0, 0xFFFFFFFFFFFFFFFF, false⟩,
  ⟨0x3400, 1, 0x06, "cache_misses", 5, 6, 0, 8, 0, 0xFFFFFFFFFFFFFFFF, false⟩,
  ⟨0x3400, 1, 0x07, "pin_waits", 4, 6, 0, 4, 0, 0xFFFFFFFF, false⟩,
  ⟨0x3400, 1, 0x08, "pager_in_flight", 2, 1, 0, 1, 0, 255, false⟩,
  ⟨0x3400, 1, 0x09, "page_uncorrectable", 4, 6, 0, 4, 0, 0xFFFFFFFF, false⟩,
  ⟨0x3410, 12, 0x00, "pool_hbm_offset", 5, 3, 0, 8, 0, 0xFFFFFFFFFFFFFFFF, true⟩,
  ⟨0x3410, 12, 0x01, "pool_hbm_pages", 4, 3, 0, 4, 0, 0xFFFFFFFF, true⟩,
  ⟨0x3410, 12, 0x02, "pool_ddr_offset", 5, 3, 0, 8, 0, 0xFFFFFFFFFFFFFFFF, true⟩,
  ⟨0x3410, 12, 0x03, "pool_ddr_pages", 4, 3, 0, 4, 0, 0xFFFFFFFF, true⟩,
  ⟨0x3410, 12, 0x04, "lane_area", 5, 3, 0, 8, 0, 0xFFFFFFFFFFFFFFFF, true⟩,
  ⟨0x3410, 12, 0x05, "kv_bytes", 4, 3, 0, 4, 32, 0x8000, true⟩,
  ⟨0x3410, 12, 0x06, "pool_apply", 2, 5, 0, 1, 0, 255, false⟩,
  ⟨0x3410, 12, 0x07, "hbm_high_water", 2, 3, 0, 1, 50, 99, true⟩,
  ⟨0x3410, 12, 0x08, "hbm_low_water", 2, 3, 0, 1, 10, 98, true⟩,
  ⟨0x3410, 12, 0x09, "demote_age", 4, 3, 0, 4, 1, 0xF4240, true⟩,
  ⟨0x3410, 12, 0x0A, "boundaries", 5, 1, 0, 8, 0, 0xFFFFFFFFFFFFFFFF, true⟩,
  ⟨0x3410, 12, 0x0B, "hbm_pages_free", 4, 1, 0, 4, 0, 0xFFFFFFFF, false⟩,
  ⟨0x3410, 12, 0x0C, "ddr_pages_free", 4, 1, 0, 4, 0, 0xFFFFFFFF, false⟩,
  ⟨0x3410, 12, 0x0D, "promotions", 5, 6, 0, 8, 0, 0xFFFFFFFFFFFFFFFF, false⟩,
  ⟨0x3410, 12, 0x0E, "demotions", 5, 6, 0, 8, 0, 0xFFFFFFFFFFFFFFFF, false⟩,
  ⟨0x3410, 12, 0x0F, "zero_fills", 5, 6, 0, 8, 0, 0xFFFFFFFFFFFFFFFF, false⟩]

/-- Objects, part 4, from 3410:10 (R288) to 3110:05 (R323). -/
def objects4 : List ObjDesc := [
  ⟨0x3410, 12, 0x10, "lanes_not_ready", 4, 6, 0, 4, 0, 0xFFFFFFFF, false⟩,
  ⟨0x5040, 12, 0x00, "outside_flags", 4, 1, 0, 4, 0, 0xFFFFFFFF, false⟩,
  ⟨0x5040, 12, 0x01, "outside_since", 5, 1, 0, 8, 0, 0xFFFFFFFFFFFFFFFF, false⟩,
  ⟨0x5040, 12, 0x02, "remaps", 4, 1, 0, 4, 0, 0xFFFFFFFF, false⟩,
  ⟨0x5040, 12, 0x03, "replays_total", 4, 1, 0, 4, 0, 0xFFFFFFFF, false⟩,
  ⟨0x5040, 12, 0x04, "outside_declare", 2, 5, 0, 1, 0, 255, false⟩,
  ⟨0x5040, 12, 0x08, "barrier_enable", 1, 3, 0, 1, 0, 1, true⟩,
  ⟨0x5040, 12, 0x09, "barrier_group", 9, 3, 0, 32, 0, 0xFFFFFFFFFFFFFFFFFFFFFFFFFFFFFFFFFFFFFFFFFFFFFFFFFFFFFFFFFFFFFFFF, true⟩,
  ⟨0x5040, 12, 0x0A, "barrier_lead_ns", 4, 3, 0, 4, 1000, 0x186A0, true⟩,
  ⟨0x5040, 12, 0x0B, "barrier_late", 4, 6, 0, 4, 0, 0xFFFFFFFF, false⟩,
  ⟨0x5040, 12, 0x0C, "barrier_last", 10, 1, 0, 8, 0, 0xFFFFFFFFFFFFFFFF, false⟩,
  ⟨0x3000, 1, 0x00, "hbm_patrol_hours", 3, 3, 0, 2, 1, 168, true⟩,
  ⟨0x3000, 1, 0x01, "hbm_capacity", 5, 1, 0, 8, 0, 0xFFFFFFFFFFFFFFFF, false⟩,
  ⟨0x3000, 1, 0x02, "hbm_retired_spans", 11, 1, 0, 8, 0, 0xFFFFFFFFFFFFFFFF, true⟩,
  ⟨0x3010, 12, 0x00, "stack_state", 2, 1, 0, 1, 0, 255, false⟩,
  ⟨0x3010, 12, 0x01, "stack_rate", 3, 1, 0, 2, 0, 0xFFFF, false⟩,
  ⟨0x3010, 12, 0x02, "corrected", 5, 6, 0, 8, 0, 0xFFFFFFFFFFFFFFFF, false⟩,
  ⟨0x3010, 12, 0x03, "uncorrectable", 4, 6, 0, 4, 0, 0xFFFFFFFF, false⟩,
  ⟨0x3010, 12, 0x04, "stack_ecc_corrected", 5, 6, 0, 8, 0, 0xFFFFFFFFFFFFFFFF, false⟩,
  ⟨0x3010, 12, 0x05, "rows_retired", 3, 1, 0, 2, 0, 0xFFFF, true⟩,
  ⟨0x3010, 12, 0x06, "banks_retired", 3, 1, 0, 2, 0, 0xFFFF, true⟩,
  ⟨0x3010, 12, 0x07, "merge_joins", 5, 6, 0, 8, 0, 0xFFFFFFFFFFFFFFFF, false⟩,
  ⟨0x3010, 12, 0x08, "hold_hits", 5, 6, 0, 8, 0, 0xFFFFFFFFFFFFFFFF, false⟩,
  ⟨0x3010, 12, 0x09, "requests_in_flight", 3, 1, 0, 2, 0, 0xFFFF, false⟩,
  ⟨0x3010, 12, 0x0A, "patrol_pass", 10, 1, 0, 8, 0, 0xFFFFFFFFFFFFFFFF, false⟩,
  ⟨0x3100, 1, 0x00, "ddr_type", 2, 1, 0, 1, 0, 255, false⟩,
  ⟨0x3100, 1, 0x01, "ddr_rate", 3, 1, 0, 2, 0, 0xFFFF, false⟩,
  ⟨0x3100, 1, 0x02, "ddr_channels", 3, 1, 0, 2, 0, 0xFFFF, false⟩,
  ⟨0x3100, 1, 0x03, "ddr_capacity", 5, 1, 0, 8, 0, 0xFFFFFFFFFFFFFFFF, false⟩,
  ⟨0x3100, 1, 0x04, "ddr_patrol_hours", 3, 3, 0, 2, 1, 168, true⟩,
  ⟨0x3110, 16, 0x00, "channel_state", 2, 1, 0, 1, 0, 255, false⟩,
  ⟨0x3110, 16, 0x01, "dimm_capacity", 5, 1, 0, 8, 0, 0xFFFFFFFFFFFFFFFF, false⟩,
  ⟨0x3110, 16, 0x02, "corrected", 5, 6, 0, 8, 0, 0xFFFFFFFFFFFFFFFF, false⟩,
  ⟨0x3110, 16, 0x03, "uncorrectable", 4, 6, 0, 4, 0, 0xFFFFFFFF, false⟩,
  ⟨0x3110, 16, 0x04, "lane_mismatch", 4, 6, 0, 4, 0, 0xFFFFFFFF, false⟩,
  ⟨0x3110, 16, 0x05, "rows_retired", 3, 1, 0, 2, 0, 0xFFFF, true⟩]

/-- Objects, part 5, from 3110:06 (R323) to 9100:04 (R368). -/
def objects5 : List ObjDesc := [
  ⟨0x3110, 16, 0x06, "banks_retired", 3, 1, 0, 2, 0, 0xFFFF, true⟩,
  ⟨0x3110, 16, 0x07, "merge_joins", 5, 6, 0, 8, 0, 0xFFFFFFFFFFFFFFFF, false⟩,
  ⟨0x4000, 1, 0x00, "device_id", 3, 3, 0, 2, 0, 0xFFFF, true⟩,
  ⟨0x4000, 1, 0x01, "domain_id", 4, 3, 0, 4, 0, 0xFFFFFFFF, true⟩,
  ⟨0x4000, 1, 0x02, "module_serial", 5, 1, 0, 8, 0, 0xFFFFFFFFFFFFFFFF, true⟩,
  ⟨0x4000, 1, 0x03, "topology_version", 4, 1, 0, 4, 0, 0xFFFFFFFF, false⟩,
  ⟨0x4000, 1, 0x04, "route_table", 11, 1, 256, 4, 0, 0xFFFFFFFF, false⟩,
  ⟨0x4000, 1, 0x05, "domain_serials", 11, 1, 256, 8, 0, 0xFFFFFFFFFFFFFFFF, false⟩,
  ⟨0x4000, 1, 0x06, "id_conflicts", 9, 1, 0, 32, 0, 0xFFFFFFFFFFFFFFFFFFFFFFFFFFFFFFFFFFFFFFFFFFFFFFFFFFFFFFFFFFFFFFFF, false⟩,
  ⟨0x4000, 1, 0x07, "tsync_interval_us", 3, 3, 0, 2, 100, 0x2710, true⟩,
  ⟨0x4010, 16, 0x00, "port_mode", 2, 3, 0, 1, 0, 255, true⟩,
  ⟨0x4010, 16, 0x01, "port_state", 2, 1, 0, 1, 0, 255, false⟩,
  ⟨0x4010, 16, 0x02, "lane_map", 3, 1, 0, 2, 0, 0xFFFF, true⟩,
  ⟨0x4010, 16, 0x03, "peer", 4, 1, 0, 4, 0, 0xFFFFFFFF, false⟩,
  ⟨0x4010, 16, 0x04, "port_reset", 2, 5, 0, 1, 0, 255, false⟩,
  ⟨0x4010, 16, 0x05, "flits_tx", 5, 6, 0, 8, 0, 0xFFFFFFFFFFFFFFFF, false⟩,
  ⟨0x4010, 16, 0x06, "flits_rx", 5, 6, 0, 8, 0, 0xFFFFFFFFFFFFFFFF, false⟩,
  ⟨0x4010, 16, 0x07, "replays", 4, 6, 0, 4, 0, 0xFFFFFFFF, false⟩,
  ⟨0x4010, 16, 0x08, "replay_window", 3, 1, 0, 2, 0, 0xFFFF, false⟩,
  ⟨0x4010, 16, 0x09, "lanes_retired", 2, 1, 0, 1, 0, 255, true⟩,
  ⟨0x4010, 16, 0x0A, "fec_corrected", 11, 6, 5, 8, 0, 0xFFFFFFFFFFFFFFFF, false⟩,
  ⟨0x4010, 16, 0x0B, "fec_uncorrectable", 11, 6, 5, 4, 0, 0xFFFFFFFF, false⟩,
  ⟨0x4010, 16, 0x0C, "crc_errors", 4, 6, 0, 4, 0, 0xFFFFFFFF, false⟩,
  ⟨0x4010, 16, 0x0D, "credit_stall_ns", 5, 6, 0, 8, 0, 0xFFFFFFFFFFFFFFFF, false⟩,
  ⟨0x4010, 16, 0x0E, "training_failures", 4, 6, 0, 4, 0, 0xFFFFFFFF, false⟩,
  ⟨0x4010, 16, 0x0F, "discarded_units", 4, 6, 0, 4, 0, 0xFFFFFFFF, false⟩,
  ⟨0x4010, 16, 0x10, "mac_address", 5, 3, 0, 8, 0, 0xFFFFFFFFFFFF, true⟩,
  ⟨0x4010, 16, 0x11, "eth_frames_rx", 5, 6, 0, 8, 0, 0xFFFFFFFFFFFFFFFF, false⟩,
  ⟨0x4010, 16, 0x12, "eth_frames_tx", 5, 6, 0, 8, 0, 0xFFFFFFFFFFFFFFFF, false⟩,
  ⟨0x4010, 16, 0x13, "eth_fcs_errors", 4, 6, 0, 4, 0, 0xFFFFFFFF, false⟩,
  ⟨0x4010, 16, 0x14, "ptp_enable", 1, 3, 0, 1, 0, 1, true⟩,
  ⟨0x9100, 16, 0x00, "svc_state", 2, 1, 0, 1, 0, 255, false⟩,
  ⟨0x9100, 16, 0x01, "svc_kind", 2, 3, 0, 1, 1, 2, true⟩,
  ⟨0x9100, 16, 0x02, "partition", 2, 3, 0, 1, 0, 11, true⟩,
  ⟨0x9100, 16, 0x03, "in_offset", 5, 3, 0, 8, 0, 0xFFFFFFFFFFFFFFFF, true⟩,
  ⟨0x9100, 16, 0x04, "out_offset", 5, 3, 0, 8, 0, 0xFFFFFFFFFFFFFFFF, true⟩]

/-- Objects, part 6, from 9100:05 (R368) to 0200:06 (R406). -/
def objects6 : List ObjDesc := [
  ⟨0x9100, 16, 0x05, "max_lanes", 3, 3, 0, 2, 1, 0x2000, true⟩,
  ⟨0x9100, 16, 0x06, "prefill_tokens", 4, 3, 0, 4, 1, 0x100000, true⟩,
  ⟨0x9100, 16, 0x07, "prefill_chunk", 3, 3, 0, 2, 1, 0x4000, true⟩,
  ⟨0x9100, 16, 0x08, "max_positions", 3, 3, 0, 2, 16, 0x4000, true⟩,
  ⟨0x9100, 16, 0x09, "queue_max", 4, 3, 0, 4, 1, 0x40000, true⟩,
  ⟨0x9100, 16, 0x0A, "groups", 2, 3, 0, 1, 1, 64, true⟩,
  ⟨0x9100, 16, 0x0B, "frame_offset", 5, 3, 0, 8, 0, 0xFFFFFFFFFFFFFFFF, true⟩,
  ⟨0x9100, 16, 0x0C, "frame_bytes", 4, 3, 0, 4, 0, 0xFFFFFFFF, true⟩,
  ⟨0x9100, 16, 0x0D, "result_offset", 5, 3, 0, 8, 0, 0xFFFFFFFFFFFFFFFF, true⟩,
  ⟨0x9100, 16, 0x0E, "result_bytes", 4, 3, 0, 4, 0, 0xFFFFFFFF, true⟩,
  ⟨0x9100, 16, 0x0F, "svc_apply", 2, 5, 0, 1, 0, 255, false⟩,
  ⟨0x9000, 1, 0x00, "svc_udp_port", 3, 3, 0, 2, 1024, 0xFFFF, true⟩,
  ⟨0x9000, 1, 0x01, "endpoint_state", 2, 1, 0, 1, 0, 255, false⟩,
  ⟨0x9000, 1, 0x02, "max_connections", 3, 3, 0, 2, 1, 1024, true⟩,
  ⟨0x9000, 1, 0x03, "max_streams", 3, 3, 0, 2, 1, 0x1000, true⟩,
  ⟨0x9000, 1, 0x04, "idle_timeout_s", 3, 3, 0, 2, 5, 600, true⟩,
  ⟨0x9000, 1, 0x05, "context_idle_s", 4, 3, 0, 4, 60, 0x93A80, true⟩,
  ⟨0x9000, 1, 0x06, "max_request_bytes", 4, 3, 0, 4, 0x1000, 0x1000000, true⟩,
  ⟨0x9000, 1, 0x07, "requests", 5, 6, 0, 8, 0, 0xFFFFFFFFFFFFFFFF, false⟩,
  ⟨0x9000, 1, 0x08, "refused_busy", 4, 6, 0, 4, 0, 0xFFFFFFFF, false⟩,
  ⟨0x9010, 1, 0x00, "tenants", 11, 3, 256, 48, 0, 0xFFFFFFFFFFFFFFFFFFFFFFFFFFFFFFFFFFFFFFFFFFFFFFFFFFFFFFFFFFFFFFFFFFFFFFFFFFFFFFFFFFFFFFFFFFFFFFFF, true⟩,
  ⟨0x3200, 1, 0x00, "ucie_modules_up", 2, 1, 0, 1, 0, 255, false⟩,
  ⟨0x3210, 8, 0x00, "module_state", 2, 1, 0, 1, 0, 255, false⟩,
  ⟨0x3210, 8, 0x01, "adapter_retries", 4, 6, 0, 4, 0, 0xFFFFFFFF, false⟩,
  ⟨0x3210, 8, 0x02, "lanes_repaired", 2, 1, 0, 1, 0, 255, false⟩,
  ⟨0x3210, 8, 0x03, "header_discards", 4, 6, 0, 4, 0, 0xFFFFFFFF, false⟩,
  ⟨0x3210, 8, 0x04, "cells_tx", 5, 6, 0, 8, 0, 0xFFFFFFFFFFFFFFFF, false⟩,
  ⟨0x3210, 8, 0x05, "cells_rx", 5, 6, 0, 8, 0, 0xFFFFFFFFFFFFFFFF, false⟩,
  ⟨0x3210, 8, 0x06, "credit_stall_ns", 5, 6, 0, 8, 0, 0xFFFFFFFFFFFFFFFF, false⟩,
  ⟨0x0200, 1, 0x00, "sessions_open", 2, 1, 0, 1, 0, 255, false⟩,
  ⟨0x0200, 1, 0x01, "session_idle_s", 3, 3, 0, 2, 10, 3600, true⟩,
  ⟨0x0200, 1, 0x02, "session_table", 11, 1, 16, 16, 0, 0xFFFFFFFFFFFFFFFFFFFFFFFFFFFFFFFF, false⟩,
  ⟨0x0200, 1, 0x03, "session_close", 3, 5, 0, 2, 0, 0xFFFF, false⟩,
  ⟨0x0200, 1, 0x04, "auth_failures", 4, 6, 0, 4, 0, 0xFFFFFFFF, false⟩,
  ⟨0x0200, 1, 0x05, "mac_discards", 4, 6, 0, 4, 0, 0xFFFFFFFF, false⟩,
  ⟨0x0200, 1, 0x06, "replay_discards", 4, 6, 0, 4, 0, 0xFFFFFFFF, false⟩]

/-- Objects, part 7, from 0200:07 (R406) to 1040:05 (R429). -/
def objects7 : List ObjDesc := [
  ⟨0x0200, 1, 0x07, "credential_lockouts", 4, 6, 0, 4, 0, 0xFFFFFFFF, false⟩,
  ⟨0x0210, 1, 0x00, "record_free", 4, 1, 0, 4, 0, 0xFFFFFFFF, false⟩,
  ⟨0x0210, 1, 0x01, "compactions", 4, 1, 0, 4, 0, 0xFFFFFFFF, true⟩,
  ⟨0x0210, 1, 0x02, "records_ignored", 4, 1, 0, 4, 0, 0xFFFFFFFF, false⟩,
  ⟨0x0210, 1, 0x03, "record_sequence", 4, 1, 0, 4, 0, 0xFFFFFFFF, false⟩,
  ⟨0x0280, 1, 0x00, "mgmt_udp_port", 3, 3, 0, 2, 1024, 0xFFFF, true⟩,
  ⟨0x0280, 1, 0x01, "mgmt_ipv6_address", 9, 3, 0, 16, 0, 0xFFFFFFFFFFFFFFFFFFFFFFFFFFFFFFFF, true⟩,
  ⟨0x0280, 1, 0x02, "mgmt_prefix_len", 2, 3, 0, 1, 1, 128, true⟩,
  ⟨0x0280, 1, 0x03, "mgmt_mac_address", 5, 1, 0, 8, 0, 0xFFFFFFFFFFFFFFFF, true⟩,
  ⟨0x0280, 1, 0x04, "plca_node_id", 2, 3, 0, 1, 0, 255, true⟩,
  ⟨0x0280, 1, 0x05, "plca_node_count", 2, 3, 0, 1, 1, 255, true⟩,
  ⟨0x0280, 1, 0x06, "mgmt_frames_rx", 5, 6, 0, 8, 0, 0xFFFFFFFFFFFFFFFF, false⟩,
  ⟨0x0280, 1, 0x07, "mgmt_frames_tx", 5, 6, 0, 8, 0, 0xFFFFFFFFFFFFFFFF, false⟩,
  ⟨0x1000, 1, 0x00, "input_mv", 4, 1, 0, 4, 0, 0xFFFFFFFF, false⟩,
  ⟨0x1000, 1, 0x01, "input_ma", 4, 1, 0, 4, 0, 0xFFFFFFFF, false⟩,
  ⟨0x1000, 1, 0x02, "input_sags", 4, 6, 0, 4, 0, 0xFFFFFFFF, false⟩,
  ⟨0x1000, 1, 0x03, "input_closes", 4, 1, 0, 4, 0, 0xFFFFFFFF, true⟩,
  ⟨0x1000, 1, 0x04, "busconv_state", 11, 1, 4, 1, 0, 255, true⟩,
  ⟨0x1000, 1, 0x05, "bus12_mv", 4, 1, 0, 4, 0, 0xFFFFFFFF, false⟩,
  ⟨0x1010, 1, 0x00, "sluice_interval_ns", 3, 3, 0, 2, 100, 2000, true⟩,
  ⟨0x1010, 1, 0x01, "gate_after_us", 4, 3, 0, 4, 10, 0xF4240, true⟩,
  ⟨0x1010, 1, 0x02, "sluice_holds", 4, 6, 0, 4, 0, 0xFFFFFFFF, false⟩,
  ⟨0x1010, 1, 0x03, "sluice_stretched", 4, 6, 0, 4, 0, 0xFFFFFFFF, false⟩,
  ⟨0x1010, 1, 0x04, "sluice_expired", 4, 6, 0, 4, 0, 0xFFFFFFFF, false⟩,
  ⟨0x1020, 6, 0x00, "group_limit_a", 3, 3, 0, 2, 300, 612, true⟩,
  ⟨0x1020, 6, 0x01, "group_ma", 4, 1, 0, 4, 0, 0xFFFFFFFF, false⟩,
  ⟨0x1020, 6, 0x02, "va_state", 2, 1, 0, 1, 0, 255, true⟩,
  ⟨0x1020, 6, 0x03, "vf_state", 2, 1, 0, 1, 0, 255, true⟩,
  ⟨0x1020, 6, 0x04, "crack_chain", 2, 1, 0, 1, 0, 255, false⟩,
  ⟨0x1020, 6, 0x05, "wakes_queued", 2, 1, 0, 1, 0, 255, false⟩,
  ⟨0x1040, 90, 0x00, "plane_state", 2, 1, 0, 1, 0, 255, false⟩,
  ⟨0x1040, 90, 0x01, "phases_ok", 2, 1, 0, 1, 0, 255, true⟩,
  ⟨0x1040, 90, 0x02, "set_mv", 3, 1, 0, 2, 0, 0xFFFF, false⟩,
  ⟨0x1040, 90, 0x03, "sense_mv", 3, 1, 0, 2, 0, 0xFFFF, false⟩,
  ⟨0x1040, 90, 0x04, "local_mv", 3, 1, 0, 2, 0, 0xFFFF, false⟩,
  ⟨0x1040, 90, 0x05, "plane_ma", 4, 1, 0, 4, 0, 0xFFFFFFFF, false⟩]

/-- Objects, part 8, from 1040:06 (R429) to 1410:03 (R465). -/
def objects8 : List ObjDesc := [
  ⟨0x1040, 90, 0x06, "phase_ma", 11, 1, 3, 4, 0, 0xFFFFFFFF, false⟩,
  ⟨0x1040, 90, 0x07, "phase_temp", 11, 1, 3, 4, 0, 0xFFFFFFFF, false⟩,
  ⟨0x1040, 90, 0x08, "path_uohm", 4, 1, 0, 4, 0, 0xFFFFFFFF, false⟩,
  ⟨0x1040, 90, 0x09, "path_base_uohm", 4, 1, 0, 4, 0, 0xFFFFFFFF, true⟩,
  ⟨0x1040, 90, 0x0A, "sense_fallback", 1, 1, 0, 1, 0, 1, false⟩,
  ⟨0x1040, 90, 0x0B, "last_wake_ns", 4, 1, 0, 4, 0, 0xFFFFFFFF, false⟩,
  ⟨0x1040, 90, 0x0C, "wakes", 4, 6, 0, 4, 0, 0xFFFFFFFF, false⟩,
  ⟨0x1040, 90, 0x0D, "plane_last_event", 10, 1, 0, 8, 0, 0xFFFFFFFFFFFFFFFF, false⟩,
  ⟨0x1120, 12, 0x00, "pref_step_run", 2, 3, 0, 1, 0, 255, true⟩,
  ⟨0x1120, 12, 0x01, "pref_step_wait", 2, 3, 0, 1, 0, 255, true⟩,
  ⟨0x1120, 12, 0x02, "pref_step_load", 2, 3, 0, 1, 0, 255, true⟩,
  ⟨0x1130, 256, 0x00, "polder_pref_step", 2, 3, 0, 1, 0, 255, true⟩,
  ⟨0x1101, 1, 0x00, "power_cap_w", 3, 3, 0, 2, 2200, 3600, true⟩,
  ⟨0x1101, 1, 0x01, "fast_margin_w", 3, 3, 0, 2, 0, 500, true⟩,
  ⟨0x1101, 1, 0x02, "power_1ms_w", 4, 1, 0, 4, 0, 0xFFFFFFFF, false⟩,
  ⟨0x1101, 1, 0x03, "power_1s_w", 4, 1, 0, 4, 0, 0xFFFFFFFF, false⟩,
  ⟨0x1101, 1, 0x04, "ceiling", 2, 1, 0, 1, 0, 255, false⟩,
  ⟨0x1101, 1, 0x05, "weir_duty", 2, 1, 0, 1, 0, 255, false⟩,
  ⟨0x1101, 1, 0x06, "cap_status", 2, 1, 0, 1, 0, 255, false⟩,
  ⟨0x1101, 1, 0x07, "effective_cap_w", 3, 1, 0, 2, 0, 0xFFFF, false⟩,
  ⟨0x1101, 1, 0x08, "effective_fast_w", 3, 1, 0, 2, 0, 0xFFFF, false⟩,
  ⟨0x1300, 14, 0x00, "throttle_us", 5, 6, 0, 8, 0, 0xFFFFFFFFFFFFFFFF, false⟩,
  ⟨0x1300, 14, 0x01, "throttle_events", 4, 6, 0, 4, 0, 0xFFFFFFFF, false⟩,
  ⟨0x1300, 14, 0x02, "throttle_last_start", 10, 1, 0, 8, 0, 0xFFFFFFFFFFFFFFFF, false⟩,
  ⟨0x1300, 14, 0x03, "throttle_active", 1, 1, 0, 1, 0, 1, false⟩,
  ⟨0x1310, 90, 0x00, "applied_step", 2, 1, 0, 1, 0, 255, false⟩,
  ⟨0x1310, 90, 0x01, "pref_step", 2, 1, 0, 1, 0, 255, false⟩,
  ⟨0x1310, 90, 0x02, "cluster_ceiling", 2, 1, 0, 1, 0, 255, false⟩,
  ⟨0x1310, 90, 0x03, "issue_duty", 2, 1, 0, 1, 0, 255, false⟩,
  ⟨0x1310, 90, 0x04, "reasons", 3, 1, 0, 2, 0, 0xFFFF, false⟩,
  ⟨0x1310, 90, 0x05, "die_temp", 6, 1, 0, 4, 0, 0xFFFFFFFF, false⟩,
  ⟨0x1310, 90, 0x06, "droop_events", 4, 6, 0, 4, 0, 0xFFFFFFFF, false⟩,
  ⟨0x1410, 1, 0x00, "freq_table", 11, 1, 32, 2, 0, 0xFFFF, false⟩,
  ⟨0x1410, 1, 0x01, "ref_state", 2, 1, 0, 1, 0, 255, false⟩,
  ⟨0x1410, 1, 0x02, "ref_ppb", 6, 1, 0, 4, 0, 0xFFFFFFFF, false⟩,
  ⟨0x1410, 1, 0x03, "droop_margin_mv", 2, 3, 0, 1, 20, 80, true⟩]

/-- Objects, part 9, from 1410:04 (R465) to 7020:02 (R490). -/
def objects9 : List ObjDesc := [
  ⟨0x1410, 1, 0x04, "phy_ref_losses", 4, 6, 0, 4, 0, 0xFFFFFFFF, false⟩,
  ⟨0x1420, 1, 0x00, "tide_now", 10, 1, 0, 8, 0, 0xFFFFFFFFFFFFFFFF, false⟩,
  ⟨0x1420, 1, 0x01, "time_mode", 2, 3, 0, 1, 0, 1, true⟩,
  ⟨0x1420, 1, 0x02, "time_state", 2, 1, 0, 1, 0, 255, false⟩,
  ⟨0x1420, 1, 0x03, "time_parent", 4, 1, 0, 4, 0, 0xFFFFFFFF, false⟩,
  ⟨0x1420, 1, 0x04, "parent_offset", 6, 1, 0, 4, 0, 0xFFFFFFFF, false⟩,
  ⟨0x1420, 1, 0x05, "parent_delay", 4, 1, 0, 4, 0, 0xFFFFFFFF, false⟩,
  ⟨0x1420, 1, 0x06, "tide_steps", 4, 6, 0, 4, 0, 0xFFFFFFFF, false⟩,
  ⟨0x1420, 1, 0x07, "tide_stepped_units", 5, 1, 0, 8, 0, 0xFFFFFFFFFFFFFFFF, false⟩,
  ⟨0x1420, 1, 0x08, "rate_adjust_ppb", 6, 1, 0, 4, 0, 0xFFFFFFFF, false⟩,
  ⟨0x1430, 1, 0x00, "ptp_state", 2, 1, 0, 1, 0, 255, false⟩,
  ⟨0x1430, 1, 0x01, "ptp_port", 2, 1, 0, 1, 0, 255, false⟩,
  ⟨0x1430, 1, 0x02, "ptp_base_tide", 10, 1, 0, 8, 0, 0xFFFFFFFFFFFFFFFF, false⟩,
  ⟨0x1430, 1, 0x03, "ptp_base_ns", 5, 1, 0, 8, 0, 0xFFFFFFFFFFFFFFFF, false⟩,
  ⟨0x1430, 1, 0x04, "ptp_rate_ppb", 6, 1, 0, 4, 0, 0xFFFFFFFF, false⟩,
  ⟨0x1430, 1, 0x05, "ptp_domain", 2, 3, 0, 1, 0, 127, true⟩,
  ⟨0x1450, 90, 0x00, "clk_state", 2, 1, 0, 1, 0, 255, true⟩,
  ⟨0x1450, 90, 0x01, "clk_mhz", 3, 1, 0, 2, 0, 0xFFFF, false⟩,
  ⟨0x1450, 90, 0x02, "period_faults", 4, 6, 0, 4, 0, 0xFFFFFFFF, false⟩,
  ⟨0x1450, 90, 0x03, "duty_faults", 4, 6, 0, 4, 0, 0xFFFFFFFF, false⟩,
  ⟨0x1450, 90, 0x04, "droop_active", 1, 1, 0, 1, 0, 1, false⟩,
  ⟨0x1450, 90, 0x05, "moves", 4, 6, 0, 4, 0, 0xFFFFFFFF, false⟩,
  ⟨0x1450, 90, 0x06, "clk_last_event", 10, 1, 0, 8, 0, 0xFFFFFFFFFFFFFFFF, false⟩,
  ⟨0x7000, 1, 0x00, "start_kind", 2, 1, 0, 1, 0, 255, false⟩,
  ⟨0x7000, 1, 0x01, "start_command", 2, 5, 0, 1, 0, 255, false⟩,
  ⟨0x7000, 1, 0x02, "failed_starts", 2, 1, 0, 1, 0, 255, true⟩,
  ⟨0x7000, 1, 0x03, "stage", 2, 1, 0, 1, 0, 255, false⟩,
  ⟨0x7000, 1, 0x04, "stage_since", 10, 1, 0, 8, 0, 0xFFFFFFFFFFFFFFFF, false⟩,
  ⟨0x7000, 1, 0x05, "services_autostart", 3, 3, 0, 2, 0, 0xFFFF, true⟩,
  ⟨0x7000, 1, 0x06, "adjust_pending", 2, 1, 0, 1, 0, 255, true⟩,
  ⟨0x7000, 1, 0x07, "starts_total", 4, 1, 0, 4, 0, 0xFFFFFFFF, true⟩,
  ⟨0x7010, 1, 0x00, "boot_records", 11, 1, 16, 32, 0, 0xFFFFFFFFFFFFFFFFFFFFFFFFFFFFFFFFFFFFFFFFFFFFFFFFFFFFFFFFFFFFFFFF, true⟩,
  ⟨0x7010, 1, 0x01, "stage_times", 11, 1, 12, 4, 0, 0xFFFFFFFF, false⟩,
  ⟨0x7020, 1, 0x00, "train_policy", 2, 3, 0, 1, 0, 1, true⟩,
  ⟨0x7020, 1, 0x01, "train_discard", 2, 5, 0, 1, 0, 255, false⟩,
  ⟨0x7020, 1, 0x02, "saved_training", 11, 1, 0, 16, 0, 0xFFFFFFFFFFFFFFFFFFFFFFFFFFFFFFFF, true⟩]

/-- Objects, part 10, from 7030:00 (R490) to 6040:01 (R541). -/
def objects10 : List ObjDesc := [
  ⟨0x7030, 1, 0x00, "memtest_cold", 2, 3, 0, 1, 0, 2, true⟩,
  ⟨0x7030, 1, 0x01, "memtest_warm", 2, 3, 0, 1, 0, 2, true⟩,
  ⟨0x7030, 1, 0x02, "memtest_next", 2, 5, 0, 1, 0, 255, false⟩,
  ⟨0x7030, 1, 0x03, "memtest_failed", 5, 1, 0, 8, 0, 0xFFFFFFFFFFFFFFFF, false⟩,
  ⟨0x7030, 1, 0x04, "memtest_rows_retired", 4, 1, 0, 4, 0, 0xFFFFFFFF, false⟩,
  ⟨0x7040, 1, 0x00, "topo_policy", 2, 3, 0, 1, 0, 1, true⟩,
  ⟨0x7040, 1, 0x01, "topo_expected", 11, 3, 16, 16, 0, 0xFFFFFFFFFFFFFFFFFFFFFFFFFFFFFFFF, true⟩,
  ⟨0x7040, 1, 0x02, "topo_wait_ms", 4, 3, 0, 4, 500, 0xEA60, true⟩,
  ⟨0x7040, 1, 0x03, "topo_mismatch", 3, 1, 0, 2, 0, 0xFFFF, false⟩,
  ⟨0x7050, 1, 0x00, "fuse_rows_corrected", 4, 1, 0, 4, 0, 0xFFFFFFFF, false⟩,
  ⟨0x7050, 1, 0x01, "fuse_margin_read", 1, 1, 0, 1, 0, 1, false⟩,
  ⟨0x6000, 1, 0x00, "levee_records", 11, 1, 256, 64, 0, 0xFFFFFFFFFFFFFFFFFFFFFFFFFFFFFFFFFFFFFFFFFFFFFFFFFFFFFFFFFFFFFFFFFFFFFFFFFFFFFFFFFFFFFFFFFFFFFFFFFFFFFFFFFFFFFFFFFFFFFFFFFFFFFFFF, false⟩,
  ⟨0x6000, 1, 0x01, "levee_overflow", 4, 6, 0, 4, 0, 0xFFFFFFFF, false⟩,
  ⟨0x6000, 1, 0x02, "levee_reports", 5, 6, 0, 8, 0, 0xFFFFFFFFFFFFFFFF, false⟩,
  ⟨0x6000, 1, 0x03, "levee_storms", 4, 6, 0, 4, 0, 0xFFFFFFFF, false⟩,
  ⟨0x6000, 1, 0x04, "levee_archive", 11, 1, 0, 64, 0, 0xFFFFFFFFFFFFFFFFFFFFFFFFFFFFFFFFFFFFFFFFFFFFFFFFFFFFFFFFFFFFFFFFFFFFFFFFFFFFFFFFFFFFFFFFFFFFFFFFFFFFFFFFFFFFFFFFFFFFFFFFFFFFFFFF, false⟩,
  ⟨0x6010, 1, 0x00, "history", 11, 1, 0, 32, 0, 0xFFFFFFFFFFFFFFFFFFFFFFFFFFFFFFFFFFFFFFFFFFFFFFFFFFFFFFFFFFFFFFFF, true⟩,
  ⟨0x6010, 1, 0x01, "powered_s", 5, 1, 0, 8, 0, 0xFFFFFFFFFFFFFFFF, true⟩,
  ⟨0x6010, 1, 0x02, "history_clear", 3, 5, 0, 2, 0, 0xFFFF, false⟩,
  ⟨0x6020, 1, 0x00, "recovery_reset", 2, 5, 0, 1, 0, 255, false⟩,
  ⟨0x6020, 1, 0x01, "closure_drain_us", 4, 3, 0, 4, 10, 0x2710, true⟩,
  ⟨0x6020, 1, 0x02, "abandon_limit_ms", 3, 3, 0, 2, 5, 1000, true⟩,
  ⟨0x6020, 1, 0x03, "recoveries", 4, 1, 0, 4, 0, 0xFFFFFFFF, true⟩,
  ⟨0x6020, 1, 0x04, "recovery_cause", 2, 1, 0, 1, 0, 255, false⟩,
  ⟨0x6020, 1, 0x05, "recovery_last", 10, 1, 0, 8, 0, 0xFFFFFFFFFFFFFFFF, false⟩,
  ⟨0x6020, 1, 0x06, "watchdog_abandons", 4, 6, 0, 4, 0, 0xFFFFFFFF, false⟩,
  ⟨0x6030, 12, 0x00, "halt_cause", 2, 1, 0, 1, 0, 255, false⟩,
  ⟨0x6030, 12, 0x01, "halt_step", 5, 1, 0, 8, 0, 0xFFFFFFFFFFFFFFFF, false⟩,
  ⟨0x6030, 12, 0x02, "step_abandons", 2, 1, 0, 1, 0, 255, false⟩,
  ⟨0x6041, 1, 0x00, "package_id", 4, 1, 0, 4, 0, 0xFFFFFFFF, false⟩,
  ⟨0x6041, 1, 0x01, "package_version", 3, 1, 0, 2, 0, 0xFFFF, false⟩,
  ⟨0x6041, 1, 0x02, "package_stage", 9, 4, 0, 0, 0, 0, false⟩,
  ⟨0x6041, 1, 0x03, "package_apply", 2, 5, 0, 1, 0, 255, false⟩,
  ⟨0x6041, 1, 0x04, "package_state", 2, 1, 0, 1, 0, 255, false⟩,
  ⟨0x6040, 1, 0x00, "scour_enable", 1, 3, 0, 1, 0, 1, true⟩,
  ⟨0x6040, 1, 0x01, "scour_period_h", 3, 3, 0, 2, 1, 720, true⟩]

/-- Objects, part 11, from 6040:02 (R541) to 8020:02 (R560). -/
def objects11 : List ObjDesc := [
  ⟨0x6040, 1, 0x02, "scour_starve_ms", 3, 3, 0, 2, 10, 0xEA60, true⟩,
  ⟨0x6040, 1, 0x03, "scour_insert_gap_ms", 3, 3, 0, 2, 1, 0x2710, true⟩,
  ⟨0x6040, 1, 0x04, "scour_chunks", 5, 6, 0, 8, 0, 0xFFFFFFFFFFFFFFFF, false⟩,
  ⟨0x6040, 1, 0x05, "scour_fails", 4, 6, 0, 4, 0, 0xFFFFFFFF, false⟩,
  ⟨0x6040, 1, 0x06, "scour_inconclusive", 4, 6, 0, 4, 0, 0xFFFFFFFF, false⟩,
  ⟨0x6040, 1, 0x07, "scour_inserted", 4, 6, 0, 4, 0, 0xFFFFFFFF, false⟩,
  ⟨0x6040, 1, 0x08, "scour_last_pass", 11, 1, 1224, 4, 0, 0xFFFFFFFF, false⟩,
  ⟨0x6050, 1, 0x00, "twin_interval", 4, 3, 0, 4, 0, 0xFFFFFFFF, true⟩,
  ⟨0x6050, 1, 0x01, "twin_hold", 1, 3, 0, 1, 0, 1, true⟩,
  ⟨0x6050, 1, 0x02, "twin_limit_ms", 3, 3, 0, 2, 5, 1000, true⟩,
  ⟨0x6050, 1, 0x03, "twin_runs", 5, 6, 0, 8, 0, 0xFFFFFFFFFFFFFFFF, false⟩,
  ⟨0x6050, 1, 0x04, "twin_skipped", 4, 6, 0, 4, 0, 0xFFFFFFFF, false⟩,
  ⟨0x6050, 1, 0x05, "twin_mismatches", 4, 6, 0, 4, 0, 0xFFFFFFFF, false⟩,
  ⟨0x6060, 1, 0x00, "ufr_sequence", 4, 1, 0, 4, 0, 0xFFFFFFFF, true⟩,
  ⟨0x6060, 1, 0x01, "ufr_select", 4, 5, 0, 4, 0, 0xFFFFFFFF, false⟩,
  ⟨0x6060, 1, 0x02, "ufr_record", 9, 1, 0, 0, 0, 0, false⟩,
  ⟨0x6060, 1, 0x03, "ufr_sign", 1, 3, 0, 1, 0, 1, true⟩,
  ⟨0x7060, 1, 0x00, "image_state", 11, 1, 2, 1, 0, 255, true⟩,
  ⟨0x7060, 1, 0x01, "image_build", 11, 1, 2, 4, 0, 0xFFFFFFFF, true⟩,
  ⟨0x7060, 1, 0x02, "image_stage", 9, 4, 0, 0, 0, 0, false⟩,
  ⟨0x7060, 1, 0x03, "image_apply", 2, 5, 0, 1, 0, 255, false⟩,
  ⟨0x7060, 1, 0x04, "boot_select", 2, 3, 0, 1, 0, 1, true⟩,
  ⟨0x8000, 1, 0x00, "root_key_hash", 9, 1, 0, 32, 0, 0xFFFFFFFFFFFFFFFFFFFFFFFFFFFFFFFFFFFFFFFFFFFFFFFFFFFFFFFFFFFFFFFF, true⟩,
  ⟨0x8000, 1, 0x01, "svn_fuse", 2, 1, 0, 1, 0, 255, true⟩,
  ⟨0x8000, 1, 0x02, "svn_commit", 2, 5, 0, 1, 0, 255, false⟩,
  ⟨0x8000, 1, 0x03, "credentials", 11, 1, 16, 16, 0, 0xFFFFFFFFFFFFFFFFFFFFFFFFFFFFFFFF, true⟩,
  ⟨0x8000, 1, 0x04, "credential_set", 9, 5, 0, 40, 0, 0xFFFFFFFFFFFFFFFFFFFFFFFFFFFFFFFFFFFFFFFFFFFFFFFFFFFFFFFFFFFFFFFFFFFFFFFFFFFFFFFF, false⟩,
  ⟨0x8010, 1, 0x00, "identity_cert", 9, 1, 0, 0, 0, 0, false⟩,
  ⟨0x8010, 1, 0x01, "identity_pubkey", 9, 1, 0, 32, 0, 0xFFFFFFFFFFFFFFFFFFFFFFFFFFFFFFFFFFFFFFFFFFFFFFFFFFFFFFFFFFFFFFFF, false⟩,
  ⟨0x8010, 1, 0x02, "attest_request", 9, 5, 0, 0, 0, 0, false⟩,
  ⟨0x8010, 1, 0x03, "attest_report", 9, 1, 0, 0, 0, 0, false⟩,
  ⟨0x8010, 1, 0x04, "measurements", 11, 1, 8, 32, 0, 0xFFFFFFFFFFFFFFFFFFFFFFFFFFFFFFFFFFFFFFFFFFFFFFFFFFFFFFFFFFFFFFFF, false⟩,
  ⟨0x8010, 1, 0x05, "attest_sequence", 4, 1, 0, 4, 0, 0xFFFFFFFF, false⟩,
  ⟨0x8020, 1, 0x00, "tls_keygen", 2, 5, 0, 1, 0, 255, false⟩,
  ⟨0x8020, 1, 0x01, "tls_csr", 9, 1, 0, 0, 0, 0, false⟩,
  ⟨0x8020, 1, 0x02, "tls_chain", 9, 3, 0, 0, 0, 0, true⟩]

/-- Objects, part 12, from 8030:01 (R560) to 203C:00 (R177). -/
def objects12 : List ObjDesc := [
  ⟨0x8030, 1, 0x01, "debug_read", 5, 5, 0, 8, 0, 0xFFFFFFFFFFFFFFFF, false⟩,
  ⟨0x8030, 1, 0x02, "debug_data", 9, 1, 0, 0, 0, 0, false⟩,
  ⟨0x8030, 1, 0x03, "debug_release", 3, 5, 0, 2, 0, 0xFFFF, false⟩,
  ⟨0x8030, 1, 0x04, "debug_arm", 1, 3, 0, 1, 0, 1, true⟩,
  ⟨0x8040, 1, 0x00, "port_unlocked", 1, 1, 0, 1, 0, 1, false⟩,
  ⟨0x8040, 1, 0x01, "unlock_challenge", 9, 1, 0, 16, 0, 0xFFFFFFFFFFFFFFFFFFFFFFFFFFFFFFFF, false⟩,
  ⟨0x8040, 1, 0x02, "unlock_token", 9, 4, 0, 0, 0, 0, false⟩,
  ⟨0x0280, 1, 0x08, "mgmt_slot_id", 2, 1, 0, 1, 0, 15, false⟩,
  ⟨0x0280, 1, 0x09, "power_off_holds", 4, 6, 0, 4, 0, 0xFFFFFFFF, true⟩,
  ⟨0x10A0, 32, 0x00, "rail_state", 2, 1, 0, 1, 0, 255, true⟩,
  ⟨0x10A0, 32, 0x01, "rail_phases_ok", 2, 1, 0, 1, 0, 255, true⟩,
  ⟨0x10A0, 32, 0x02, "rail_set_mv", 3, 1, 0, 2, 0, 0xFFFF, false⟩,
  ⟨0x10A0, 32, 0x03, "rail_sense_mv", 3, 1, 0, 2, 0, 0xFFFF, false⟩,
  ⟨0x10A0, 32, 0x04, "rail_local_mv", 3, 1, 0, 2, 0, 0xFFFF, false⟩,
  ⟨0x10A0, 32, 0x05, "rail_ma", 4, 1, 0, 4, 0, 0xFFFFFFFF, false⟩,
  ⟨0x10A0, 32, 0x06, "rail_phase_ma", 11, 1, 3, 4, 0, 0xFFFFFFFF, false⟩,
  ⟨0x10A0, 32, 0x07, "rail_phase_temp", 11, 1, 3, 4, 0, 0xFFFFFFFF, false⟩,
  ⟨0x10A0, 32, 0x0D, "rail_last_event", 10, 1, 0, 8, 0, 0xFFFFFFFFFFFFFFFF, false⟩,
  ⟨0x1100, 1, 0x00, "op_table", 11, 1, 32, 8, 0, 0xFFFFFFFFFFFFFFFF, true⟩,
  ⟨0x1100, 1, 0x01, "step_floor", 2, 3, 0, 1, 0, 26, true⟩,
  ⟨0x1100, 1, 0x02, "step_max", 2, 3, 0, 1, 0, 31, true⟩,
  ⟨0x1102, 1, 0x00, "sympathy_enable", 1, 3, 0, 1, 0, 1, true⟩,
  ⟨0x1102, 1, 0x01, "slack_after_us", 4, 3, 0, 4, 100, 0x186A0, true⟩,
  ⟨0x1102, 1, 0x02, "slack_ignored", 4, 6, 0, 4, 0, 0xFFFFFFFF, false⟩,
  ⟨0x1110, 6, 0x00, "slope_a_per_us", 3, 3, 0, 2, 60, 612, true⟩,
  ⟨0x1400, 1, 0x00, "die_target_c", 2, 3, 0, 1, 80, 100, true⟩,
  ⟨0x1400, 1, 0x01, "coolant_inlet", 6, 1, 0, 4, 0, 0xFFFFFFFF, false⟩,
  ⟨0x1400, 1, 0x02, "coolant_outlet", 6, 1, 0, 4, 0, 0xFFFFFFFF, false⟩,
  ⟨0x1400, 1, 0x03, "coolant_flow", 4, 1, 0, 4, 0, 0xFFFFFFFF, false⟩,
  ⟨0x1400, 1, 0x04, "hbm_temps", 11, 1, 12, 4, 0, 0xFFFFFFFF, false⟩,
  ⟨0x1400, 1, 0x05, "dimm_temps", 11, 1, 16, 4, 0, 0xFFFFFFFF, false⟩,
  ⟨0x2010, 1, 0x00, "array_ramp_cycles", 2, 3, 0, 1, 16, 128, true⟩,
  ⟨0x2011, 1, 0x00, "queue_watchdog_ms", 4, 3, 0, 4, 1, 0xEA60, true⟩,
  ⟨0x2012, 1, 0x00, "fabric_hop_ps", 3, 1, 0, 2, 0, 0xFFFF, false⟩,
  ⟨0x2030, 12, 0x00, "detour_version", 4, 1, 0, 4, 0, 0xFFFFFFFF, false⟩,
  ⟨0x203C, 1, 0x00, "detour_version", 4, 1, 0, 4, 0, 0xFFFFFFFF, false⟩]

/-- Objects, part 13, from 5030:00 (R231) to 5100:04 (R231). -/
def objects13 : List ObjDesc := [
  ⟨0x5030, 1, 0x00, "polders_in_use", 3, 1, 0, 2, 0, 0xFFFF, false⟩,
  ⟨0x5100, 256, 0x00, "polder_state", 2, 1, 0, 1, 0, 255, false⟩,
  ⟨0x5100, 256, 0x01, "polder_partition", 2, 1, 0, 1, 0, 255, false⟩,
  ⟨0x5100, 256, 0x02, "polder_tiles", 3, 1, 0, 2, 0, 0xFFFF, false⟩,
  ⟨0x5100, 256, 0x03, "polder_program_id", 4, 1, 0, 4, 0, 0xFFFFFFFF, false⟩,
  ⟨0x5100, 256, 0x04, "polder_image_offset", 5, 1, 0, 8, 0, 0xFFFFFFFFFFFFFFFF, false⟩]

/-- Every object of the dictionary. -/
def objects : List ObjDesc :=
  objects0 ++ objects1 ++ objects2 ++ objects3 ++ objects4 ++ objects5 ++ objects6 ++ objects7 ++ objects8 ++ objects9 ++ objects10 ++ objects11 ++ objects12 ++ objects13

/-- Does the description cover this index and subindex? -/
def ObjDesc.covers (d : ObjDesc) (index sub : Nat) : Bool :=
  decide (d.base ≤ index) && decide (index < d.base + d.count) && decide (d.sub = sub)

/-- The object at an index and subindex; none where the directory of R404 has none. -/
def objAt (index sub : Nat) : Option ObjDesc := objects.find? (fun d => d.covers index sub)

/-- The objects whose entries do not read as 0 before anything has written them: first index, number of indices, subindex, value. -/
def resetValues : List (Nat × Nat × Nat × Nat) := [
  (0x0101, 1, 0x00, 1),
  (0x2100, 1224, 0x00, 2),
  (0x2000, 1, 0x00, 1),
  (0x2100, 1224, 0x04, 0xFFFF),
  (0x2100, 1224, 0x05, 0xFFFF),
  (0x2100, 1224, 0x12, 0xFE00),
  (0x2100, 1224, 0x1A, 0xFFFFFFFF),
  (0x2100, 1224, 0x25, 8),
  (0x5000, 12, 0x0A, 2000),
  (0x5020, 12, 0x01, 0xFE502B),
  (0x5200, 1, 0x03, 2000),
  (0x5200, 1, 0x04, 20),
  (0x3400, 1, 0x00, 0x10000000),
  (0x3410, 12, 0x05, 0x4000),
  (0x3410, 12, 0x07, 90),
  (0x3410, 12, 0x08, 80),
  (0x3410, 12, 0x09, 64),
  (0x5040, 12, 0x0A, 4000),
  (0x3000, 1, 0x00, 24),
  (0x3000, 1, 0x01, 0x18000000000),
  (0x3100, 1, 0x04, 24),
  (0x4000, 1, 0x00, 0xFFFF),
  (0x4000, 1, 0x04, 0xF0000),
  (0x4000, 1, 0x07, 1000),
  (0x4010, 16, 0x00, 1),
  (0x4010, 16, 0x02, 1672),
  (0x4010, 16, 0x03, 0xFFFF0000),
  (0x9100, 16, 0x01, 1),
  (0x9100, 16, 0x05, 1024),
  (0x9100, 16, 0x06, 0x4000),
  (0x9100, 16, 0x07, 0x1000),
  (0x9100, 16, 0x08, 0x4000),
  (0x9100, 16, 0x09, 0x10000),
  (0x9100, 16, 0x0A, 8),
  (0x9000, 1, 0x00, 0x1BDA),
  (0x9000, 1, 0x02, 256),
  (0x9000, 1, 0x03, 1024),
  (0x9000, 1, 0x04, 30),
  (0x9000, 1, 0x05, 3600),
  (0x9000, 1, 0x06, 0x100000),
  (0x0200, 1, 0x01, 60),
  (0x0280, 1, 0x00, 0x128B),
  (0x0280, 1, 0x02, 64),
  (0x0280, 1, 0x04, 255),
  (0x0280, 1, 0x05, 8),
  (0x1010, 1, 0x00, 250),
  (0x1010, 1, 0x01, 200),
  (0x1020, 6, 0x00, 540),
  (0x1040, 90, 0x01, 7),
  (0x1120, 12, 0x00, 26),
  (0x1120, 12, 0x01, 12),
  (0x1120, 12, 0x02, 26),
  (0x1130, 256, 0x00, 255),
  (0x1101, 1, 0x00, 3600),
  (0x1101, 1, 0x01, 100),
  (0x1101, 1, 0x04, 26),
  (0x1101, 1, 0x05, 16),
  (0x1101, 1, 0x07, 3600),
  (0x1101, 1, 0x08, 3700),
  (0x1310, 90, 0x02, 26),
  (0x1310, 90, 0x03, 20),
  (0x1310, 90, 0x04, 1),
  (0x1410, 1, 0x03, 40),
  (0x1420, 1, 0x03, 0xFFFF0000),
  (0x1430, 1, 0x01, 255),
  (0x7030, 1, 0x00, 1),
  (0x7040, 1, 0x01, 0xFFFFF00000000000),
  (0x7040, 1, 0x02, 2000),
  (0x6020, 1, 0x01, 100),
  (0x6020, 1, 0x02, 50),
  (0x6040, 1, 0x00, 1),
  (0x6040, 1, 0x01, 24),
  (0x6040, 1, 0x02, 1000),
  (0x6040, 1, 0x03, 10),
  (0x6050, 1, 0x00, 0x1000),
  (0x6050, 1, 0x01, 1),
  (0x6050, 1, 0x02, 50),
  (0x1100, 1, 0x02, 26),
  (0x1102, 1, 0x01, 1000),
  (0x1110, 6, 0x00, 240),
  (0x1400, 1, 0x00, 95),
  (0x2010, 1, 0x00, 48),
  (0x2011, 1, 0x00, 500),
  (0x5100, 256, 0x01, 255)]

/-- The x coordinate of a tile position (R13, R14). -/
def xOf (n : Nat) : Nat := n % 51

/-- The y coordinate of a tile position (R13, R14). -/
def yOf (n : Nat) : Nat := n / 51

/-- The reticle field of a tile position (R13). -/
def fieldNo (n : Nat) : Nat := 3 * (yOf n / 12) + xOf n / 17

/-- The cluster of a tile position (R16). -/
def clusterOf (n : Nat) : Nat :=
  if xOf n % 17 = 16 then 72 + 3 * fieldNo n + yOf n % 12 / 4
  else 12 * fieldNo n + 4 * (yOf n % 12 / 4) + xOf n % 17 / 4

/-- The 32 frequencies of R451, in MHz. -/
def freqTable : List Nat := (List.range 27).map (fun k => 400 + 50 * k) ++ [1730, 1760, 1790, 1820, 1850]

/-- The tile state at reset: no position fused HOLE and a full grade, so R21 withdraws 6 candidates of F0 and F1 and 5 of the other fields, the highest numbers first, and the reserve columns are RESERVE (notes/assumptions/2.md). -/
def resetTileState (n : Nat) : Nat :=
  if xOf n % 17 = 16 then 1
  else if yOf n % 12 = 11 ∧ (xOf n % 17 ≥ 11 ∨ (xOf n % 17 = 10 ∧ fieldNo n ≤ 1)) then 1
  else 2

/-- The operating point of a step at reset: its frequency, the fuses' voltage and current, usable (R430; the fuse values are those of notes/assumptions/2.md). -/
def resetPoint (k : Nat) : Nat :=
  let mhz := freqTable.getD k 0
  2 ^ 48 * mhz + 2 ^ 32 * (if k ≤ 26 then 550 + 200 * k / 26 else 750 + 14 * (k - 26)) + 2 ^ 16 * (4000 + 44000 * mhz / 1850) + 1

/-- The phases of the per-class rails of objects 10A0 to 10BF, in the order VE, VS, VP, VR, VH, DIMM feeds (R410, R429). -/
def railPhases (r : Nat) : Nat :=
  if r = 0 then 0x3F else if r ≤ 4 then 7 else if r ≤ 6 then 15 else if r ≤ 18 then 3 else 0

/-- What an object's entry reads as at reset: the default of its table, or the value notes/assumptions/2.md names. -/
def regDefault (key : Nat) : Nat :=
  let sub := key / 65536 % 256
  let index := key / 16777216
  if 0x2100 ≤ index ∧ index < 0x25C8 ∧ sub ≤ 3 then
    (if sub = 0 then resetTileState (index - 0x2100)
     else if sub = 1 then xOf (index - 0x2100)
     else if sub = 2 then yOf (index - 0x2100)
     else clusterOf (index - 0x2100))
  else if index = 0x1410 ∧ sub = 0 then freqTable.getD (key % 65536) 0
  else if index = 0x1100 ∧ sub = 0 then (if key % 65536 < 32 then resetPoint (key % 65536) else 0)
  else if 0x10A0 ≤ index ∧ index < 0x10C0 ∧ sub = 1 then railPhases (index - 0x10A0)
  else match resetValues.find? (fun r => decide (r.1 ≤ index) && decide (index < r.1 + r.2.1) && decide (r.2.2.1 = sub)) with
  | some r => if index ≥ 0x1088 ∧ index < 0x109A ∧ sub = 1 then 3 else r.2.2.2
  | none => 0

end Sys2Proof.Machine
end

