-- ==== Sys2Proof/Machine/State.lean ====
section
/-! DEFINITION. The state of the module as plain data, and the state after reset. Every register of the object dictionary stands in `State.regs` under its index, subindex and entry number; everything else the spec gives the machine has a field of its own. -/

namespace Sys2Proof.Machine

/-- Why a step stops with a fault. -/
inductive Fault where
  /-- Raised by HBM_READ and HBM_WRITE (`execHbmRead`, `execHbmWrite`): reeve firmware named an address outside the HBM map, which R356 calls an access fault. Safe: nothing follows. -/
  | accessFault (addr : Nat)
  deriving DecidableEq, Repr

/-- Why a command has no meaning. -/
inductive Refusal where
  /-- Raised only by an arm of `exec` whose command has no meaning yet. Safe: nothing follows. -/
  | notModelled (mnemonic : String)
  deriving DecidableEq, Repr

/-- The pins of the management connector that the module drives (R565). -/
inductive Pin where
  | pgood | presentN | alertN
  deriving DecidableEq, Repr

/-- What the block has sent: every answer, packet, message, report and order that leaves the part a command acts on. -/
inductive Msg where
  /-- The status that answers a write of `sess` to an object (R396). -/
  | answer (sess index sub status : Nat)
  /-- A Bamurn message sent on a path (R379-R384). -/
  | bytes (path : Path) (b : List Byte)
  /-- The PLCA coordinator's beacon for so many nodes on the management port (R380). -/
  | beacon (nodes : Nat)
  /-- A packet given to the mesh at a position (R164, R169); `reply` its plane. -/
  | packet (pos : Nat) (reply : Bool) (p : Packet)
  /-- A packet that a router passes to its neighbour with a leg, or to its local port where `to'` is the router itself (R176, R179, R184). -/
  | hop (pos to' : Nat) (leg : Leg) (p : Packet)
  /-- A packet packed into slots at a port, with its hop count (R329, R336). -/
  | egress (k hop : Nat) (p : Packet)
  /-- A CTRL message leaving at a port (R341). -/
  | ctrl (k : Nat) (m : CtrlMsg)
  /-- A CTRL message between sequencers, dispatchers or devices, routed to its device (R342). -/
  | control (m : CtrlMsg)
  /-- A MGMT unit leaving at a port (R347). -/
  | mgmt (k : Nat) (u : MgmtUnit)
  /-- Link-level acknowledgement at a port: sequence number, and whether it is a NAK (R332). -/
  | linkAck (k seq : Nat) (nak : Bool)
  /-- Credits returned at a port, by class (R331). -/
  | credits (k : Nat) (by' : List Nat)
  /-- A slot received at a port and delivered to the embankment with its class and kind (R329, R330). -/
  | slot (k cls kind : Nat) (w : Codeword)
  /-- Flits sent again at a port, from this sequence number (R332). -/
  | resend (k seq : Nat)
  /-- A DTL message on a module (R359); `up` towards the compute die. -/
  | dtl (m : Nat) (up : Bool) (d : DtlMsg)
  /-- A fault report on its way to the levee log (R491). -/
  | report (r : Report)
  /-- An endpoint response (R371). -/
  | response (c : Client) (m : CborMap)
  /-- An Ethernet frame that leaves at a port (R350). -/
  | ethOut (k : Nat) (b : List Byte)
  /-- The tide count at which a port sent an IEEE 1588 event message (R351). -/
  | ptpStamp (k tide : Nat)
  /-- An Ethernet frame given to the endpoint or to IEEE 1588 (R350, R351). -/
  | frame (k : Nat) (f : EthFrame)
  /-- A Bamurn message delivered to the server from a MGMT unit (R347, R381). -/
  | deliver (path : Path) (b : List Byte)
  /-- A level driven on a pin (R565). -/
  | pin (p : Pin) (level : Bool)
  /-- A copy launched by the dispatcher of a partition to the target dispatcher of a device, with its reservation identifier (R255, R338). -/
  | copy (device part resId : Nat) (rows : List Row)
  /-- The confirmation that a copy was received, to the dispatcher that sent it (R255). -/
  | confirm (device part resId : Nat)
  /-- A prefetch hint passed to the device that homes an expert (R258). -/
  | hint (device expert : Nat)
  /-- A read issued to a memory server for a merge (R308, R316). -/
  | memRead (srv : Server) (id : Nat)
  deriving DecidableEq, Repr

/-! ### Sessions and the record flash (R387-R403) -/

/-- A block sequence in progress (R395). -/
structure BlockSeq where
  index  : Nat
  sub    : Nat
  ty     : Nat
  offset : Nat
  total  : Nat
  data   : List Byte
  heard  : Nat := 0
  deriving DecidableEq, Repr

/-- A Bamurn session (R387-R391). `failed`: its credential changed during its handshake, which fails with ACCESS_DENIED (R553). -/
structure Session where
  number     : Nat
  credential : Nat
  rights     : Nat := 0
  authed     : Bool := false
  failed     : Bool := false
  path       : Path
  cnonce     : BitVec 128 := 0
  dnonce     : BitVec 128 := 0
  key        : List Byte := []
  high       : Nat := 0
  cache      : List (Nat × List Byte) := []
  idleLimit  : Nat := 60
  opened     : Nat := 0
  heard      : Nat := 0
  block      : Option BlockSeq := none
  deriving DecidableEq, Repr

/-- A record of the record flash (R401): the value as stored, whether its CRC and its commit byte stand. -/
structure FlashRec where
  seq    : Nat
  index  : Nat
  sub    : Nat
  ty     : Nat
  value  : List Byte
  crc    : Nat
  commit : Bool
  deriving DecidableEq, Repr

/-- The record flash (R400-R403). `ok`: programming succeeds. -/
structure RecFlash where
  current  : List FlashRec := []
  other    : List FlashRec := []
  inSecond : Nat := 0
  ok       : Bool := true
  deriving DecidableEq, Repr

/-- The sequence state of the mailbox, which has rights 7 and no key (R383, R390). -/
def mailboxSession : Session := { number := 0xFFFF, credential := 0xFFFF, rights := 7, authed := true, path := .mailbox }

/-- What the management port took over at the start (R380, R406): the UDP port it listens on, its additional address, its PLCA node identifier. -/
structure MgmtPort where
  udpPort : Nat := 4747
  address : Nat := 0
  node    : Nat := 0xFF
  deriving DecidableEq, Repr

/-- The Bamurn server: the sessions, the mailbox, wrong proofs per credential with their powered second, the credentials locked, the relays whose response is awaited: where it comes from (a device, or 256 and a port), its tag, where it goes (R382-R391). -/
structure Bamurn where
  mgmt     : MgmtPort := {}
  sessions : List Session := []
  mailbox  : Session := mailboxSession
  wrong    : List (Nat × Nat) := []
  locked   : List (Nat × Nat) := []
  relays   : List (Nat × Nat × Path) := []
  flash    : RecFlash := {}
  deriving DecidableEq, Repr

/-! ### The device (R8-R11) -/

/-- The device modes of R8. -/
inductive Mode where
  | startup | service | test | recovery | safe
  deriving DecidableEq, Repr

/-- The code of a mode in object 0110:00 (R8). -/
def Mode.code : Mode → Nat
  | .startup => 0
  | .service => 1
  | .test => 2
  | .recovery => 3
  | .safe => 4

/-- A mode-change request that waits for a transition to complete (R10). -/
inductive ModeRequest where
  | enterTest (sess : Nat)
  | leaveTest (sess : Nat)
  | warmStart (sess : Nat)
  | coldStart (sess : Nat)
  | recoveryReset (sess : Nat)
  deriving DecidableEq, Repr

/-- The mode, the test session, and the latched request (R8-R11). `holder` 0: none. -/
structure Device where
  mode    : Mode := .startup
  holder  : Nat := 0
  latched : Option ModeRequest := none
  deriving DecidableEq, Repr

/-! ### The floor plan (R19-R24) -/

/-- What the floor plan holds beside the tile states: the positions fused HOLE, whether a plan is stored, and each replacement chosen and not yet OFFERED, with the tile it replaces (R21, R22). -/
structure Floor where
  holes   : List Nat := []
  stored  : Bool := false
  chosen  : List (Nat × Nat) := []
  deriving DecidableEq, Repr

/-! ### Partitions as configured (R223, R224) -/

/-- The configuration of a partition that the last accepted apply put in force (R223). -/
structure PartCfg where
  clusters : Nat := 0
  hbmBase  : Nat := 0
  hbmSize  : Nat := 0
  ddrBase  : Nat := 0
  ddrSize  : Nat := 0
  jobTable : Nat := 0
  tenant   : Nat := 0
  deriving DecidableEq, Repr

/-! ### Tiles: the array (R57-R81) -/

/-- A stationary operand as it stands in the shadow or live registers: its format, its 96 array rows of 512 bits and its scale bytes (R57, R68). Empty lists read as zero. -/
structure Station where
  fmt    : Nat := 0
  rows   : List (BitVec 512) := []
  scales : List Nat := []
  deriving DecidableEq, Repr

/-- A LOAD_STATIONARY as captured at issue (R69, R89, R132): the handle entries, the ready condition as gauge and threshold, and the sentinel word in force. -/
structure LoadReq where
  fmt      : Nat
  cond     : Option (Nat × Nat)
  eHandle  : Nat
  eRow     : Nat
  sHandle  : Nat
  sRow     : Nat
  sentinel : Nat
  deriving DecidableEq, Repr

/-- Where the last stationary load stands (R69, R70). A crossing load holds the cycle of its last row, the sentinel word it acts under when it completes (R54), and whether it met a collision (R93). -/
inductive LoadPhase where
  | idle
  | waiting (r : LoadReq)
  | crossing (last : Nat) (act : Option Nat) (collided : Bool)
  | done
  deriving DecidableEq, Repr

/-- One scale segment of one output as it reaches the column output: the exact sum, the exponent, a NaN scale, unequal codes in L1 or L2 (R40, R41, R65). -/
structure Segment where
  sum   : Int
  exp   : Int
  nan   : Bool := false
  fault : Bool := false
  deriving DecidableEq, Repr

/-- A streamed row issued and not yet landed (R60, R73): its issue cycle, the cycle in which it lands, the fold code, the slot base, the row number, the index base, and each output's segments in ascending row order; on the last row of its PASS the sentinel word under which the PASS acts and whether it met a collision (R54, R93). -/
structure Fold where
  issued : Nat
  lands : Nat
  fold  : Nat
  slot  : Nat
  row   : Nat
  index : Nat
  outs  : List (List Segment)
  act   : Option Nat := none
  collided : Bool := false
  deriving DecidableEq, Repr

/-- The activity ramp of an array (R76): the ramp length in force, whether the groups are on or coming on, the first cycle in which all are on, the cycle of the last row, the cycle in which ramp-down began. -/
structure Ramp where
  len    : Nat := 48
  up     : Bool := false
  full   : Nat := 0
  last   : Nat := 0
  downAt : Option Nat := none
  deriving DecidableEq, Repr

/-- The MAC array of a tile. `acc` is the accumulator file by slot, `swapped` whether a SWAP has occurred since job load. -/
structure ArrayUnit where
  live    : Station := {}
  shadow  : Station := {}
  load    : LoadPhase := .idle
  swapped : Bool := false
  folds   : List Fold := []
  acc     : Tbl (List F32) := []
  ramp    : Ramp := {}
  deriving DecidableEq, Repr

/-- A vector command in progress (R149, R150): the cycle it started, the cycles of its last read and of its last write, the rows it writes with their data, whether it met a collision, and the sentinel word it acts under when it completes (R54). -/
structure VecRun where
  start     : Nat
  lastRead  : Nat
  lastWrite : Nat
  banks     : List Nat := []
  writes    : List (Nat × Nat × Row) := []
  collided  : Bool := false
  act       : Option Nat := none
  deriving DecidableEq, Repr

/-! ### Tiles: the mover (R106-R114) -/

/-- A request in flight (R112): its tag, its descriptor, its packet type, its first row within the transfer, its rows, the far address and stride its reply copies. -/
structure Track where
  tag    : Nat
  desc   : Nat
  ptype  : Ptype
  first  : Nat
  rows   : Nat
  addr   : Nat
  stride : Nat
  deriving DecidableEq, Repr

/-- A descriptor in progress (R106): its number, its word, the local handle entry captured, the rows and requests issued, the first status that is not OK with the suspect it names (R114), its transfer identifier (R201), whether its data is discarded (R144), whether it met a collision (R93), whether its end is reported already (R114). -/
structure MoveDesc where
  id      : Nat
  word    : Row
  handle  : Nat
  asked   : Nat := 0
  reqs    : Nat := 0
  status  : Nat := 0
  suspect : Option Suspect := none
  xferId  : Nat := 0
  discard : Bool := false
  collided : Bool := false
  told    : Bool := false
  deriving DecidableEq, Repr

/-- The mover of a tile: descriptors in progress in issue order, tracking entries, the next descriptor and tag numbers, the transfer counter (1-65,535), SIGNAL send credits, far signals awaiting their reply with the queue and the far address; the elapsed count from which a request that waits for a tracking entry is not yet counted (R112). -/
structure Mover where
  descs   : List MoveDesc := []
  tracks  : List Track := []
  nextId  : Nat := 0
  nextTag : Nat := 0
  xfer    : Nat := 1
  credits : Nat := 16
  signals : List (Nat × Nat) := []
  waits   : Option Nat := none
  deriving DecidableEq, Repr

/-! ### Tiles: gauges (R192-R216) -/

/-- The states of the gauges of one tile (R216). -/
inductive GaugeState where
  | clear | live | draining | frozen | saved
  deriving DecidableEq, Repr

/-- One gauge (R192, R208, R209, R221). `part` is the partition of the last signaller; `other` sums the additions of other partitions since the snapshot; `cycle` is the tile cycle in which the tile itself last changed the gauge, `prior` the value it had before (R128). -/
structure Gauge where
  value   : Nat := 0
  mask    : Nat := 0
  handSet : Bool := false
  device  : Nat := 0
  logical : Nat := 0
  add     : Nat := 0
  tide    : Nat := 0
  part    : Nat := 0xF
  other   : Nat := 0
  cycle   : Option Nat := none
  prior   : Nat := 0
  deriving DecidableEq, Repr

/-- An entry of the pending-signal table (R202), with the partition its packets name (R218). -/
structure PendSig where
  valid    : Bool := false
  held     : Bool := false
  failed   : Bool := false
  device   : Nat := 0
  logical  : Nat := 0
  part     : Nat := 0xF
  xferId   : Nat := 0
  gauge    : Nat := 0
  add      : Nat := 0
  expected : Nat := 0
  landed   : Nat := 0
  deriving DecidableEq, Repr

/-- The gauge unit of a position (R192). -/
structure GaugeUnit where
  st       : GaugeState := .clear
  gauges   : Tbl Gauge := []
  snapshot : Tbl Nat := []
  pend     : Tbl PendSig := []
  held     : List Packet := []
  fenced   : Bool := false
  deriving DecidableEq, Repr

/-! ### Tiles: queues (R116-R145) -/

/-- A signal issued and not yet applied (R129). `ready` is the cycle from which Q-array's may be applied. -/
structure Deferred where
  far    : Bool
  gauge  : Nat
  add    : Nat
  device : Nat
  tile   : Nat
  ready  : Nat
  deriving DecidableEq, Repr

/-- What a queue holds beside its objects 2100+n:30-:35: the first cycle in which it may issue, its deferred signals, the number of the first descriptor that failed since END (R129), whether the prologue runs, the step offset of the pass through its segment, and that of the last pass that reached END (R126, R239). -/
structure QueueUnit where
  free     : Nat := 0
  deferred : List Deferred := []
  moveBad  : Option Nat := none
  prologue : Bool := false
  run      : Nat := 0
  ended    : Option Nat := none
  waitAt   : Nat := 0
  deriving DecidableEq, Repr

/-- A row whose corrected reads the bank tracks, with the count of distinct steps and the last step counted (R104). -/
structure RowTrack where
  bank  : Nat
  row   : Nat
  count : Nat
  step  : Nat
  deriving DecidableEq, Repr

/-- A merge of remote reads at a tile, a memory server or a UCIe port (R94, R182, R183): the row or rows read, the requests joined, oldest first. -/
structure Merge where
  id     : Nat
  addr   : Nat
  stride : Nat
  rows   : Nat
  reqs   : List Packet
  opened : Nat := 0
  deriving DecidableEq, Repr

/-- A packet in a router's input buffer, which holds one packet of each class (R176): the input, 0 to 5 on the request plane (north, east, south, west, local, the second link of a side at the die edge) and 6 to 11 on the reply plane; its leg; the packet. -/
structure Buffered where
  input : Nat
  leg   : Leg
  pkt   : Packet
  deriving DecidableEq, Repr

/-- A contested cycle of a bank as its port granted it (R91): the engine that won, and those that lost. -/
structure Grant where
  bank   : Nat
  cycle  : Nat
  won    : Nat
  losers : List Nat
  deriving DecidableEq, Repr

/-- One tile position. `owner` is the partition whose job holds it. Scratchpad rows are keyed by bank * 1024 + row, store rows by their number; unlisted rows read as the zero codeword. `spared` lists rows replaced in service, `grants` the contested cycles of the banks. `inputs` are the router's input buffers, `parity` lists the router inputs whose last flit was refused once (R165). `before` is the state the tile had when it closed, `cause` the fault class that closed it, 0 where only the next start's retest decides (R98, R502). `through`: the position has closed and the entries of its neighbours are not yet set; `drains`: they are set, and the flits it holds still leave (R181). -/
structure Tile where
  owner   : Option Nat := none
  spad    : Tbl Codeword := []
  store   : Tbl Codeword := []
  spared  : List (Nat × Nat) := []
  queued  : List (Nat × Nat) := []
  tracker : List RowTrack := []
  grants  : List Grant := []
  arr     : ArrayUnit := {}
  vec     : List VecRun := []
  mov     : Mover := {}
  gau     : GaugeUnit := {}
  qs      : Tbl QueueUnit := []
  merges  : List Merge := []
  before  : Nat := 2
  cause   : Nat := 0
  inputs  : List Buffered := []
  parity  : List Nat := []
  digest  : List (BitVec 64) := []
  through : Bool := false
  drains  : Bool := false
  deriving DecidableEq, Repr

/-! ### Jobs (R226-R242) -/

/-- A boundary watch of a loaded job, and whether its notice has arrived in the step (R227, R236). -/
structure Watch where
  gauge   : Nat
  base    : Nat
  perStep : Nat
  logical : Nat
  reached : Bool := false
  deriving DecidableEq, Repr

/-- A placement entry (R228). -/
structure Placed where
  physical : Nat
  polder   : Nat
  tpOffset : Nat := 0
  tpRows   : Nat := 0
  tpBank   : Nat := 0
  tpBase   : Nat := 0
  deriving DecidableEq, Repr

/-- An argument target (R228). -/
structure ArgTarget where
  arg     : Nat
  row     : Nat
  handle  : Nat
  logical : Nat
  deriving DecidableEq, Repr

/-- A shared-gauge declaration (R228). -/
structure Shared where
  mask    : Nat
  gauge   : Nat
  logical : Nat
  deriving DecidableEq, Repr

/-- The job header (R226). -/
structure JobHdr where
  version     : Nat := 1
  jobId       : Nat := 1
  tiles       : Nat := 1
  polderCount : Nat := 1
  startGauge  : Nat := 0
  firstStep   : Nat := 0
  seed        : Nat := 0
  ringOffset  : Nat := 0
  ringLog2    : Nat := 4
  watchCount  : Nat := 1
  targetCount : Nat := 0
  sharedCount : Nat := 0
  placementAt : Nat := 0
  polderAt    : Nat := 0
  targetsAt   : Nat := 0
  sharedAt    : Nat := 0
  saveAt      : Nat := 0
  deriving DecidableEq, Repr

/-- A step entry that the sequencer holds (R229, R235). -/
structure Entry where
  key      : Nat
  lanes    : Nat
  laneList : Nat
  endAfter : Bool
  args     : List Row
  deriving DecidableEq, Repr

/-- A remap in progress: the logical number, the closed tile, its target (R508, R509). -/
structure Remap where
  logical : Nat
  closed  : Nat
  target  : Nat
  deriving DecidableEq, Repr

/-- A twin run of a step (R531-R536): the logical tile, the primary's and the twin's positions, the step, whether the boundary waits for the comparison and from which elapsed count, whether the step has started, after a comparison that differed under twin_hold, the two digests P and T that the replay decides between, and the primary's digest as it stood at a boundary that did not wait. -/
structure TwinRun where
  logical : Nat
  primary : Nat
  twin    : Nat
  step    : Nat
  held    : Bool := false
  heldAt  : Nat := 0
  started : Bool := false
  differs : Option (List (BitVec 64) × List (BitVec 64)) := none
  prim    : Option (List (BitVec 64)) := none
  deriving DecidableEq, Repr

/-- One lane of the step that starts or runs (R277, R278): its place in the lane list, its slot, its status, the descriptor position at the hand-over, whether its record is written. -/
structure LaneRec where
  lane     : Nat
  slot     : Nat
  status   : Nat
  position : Nat
  done     : Bool
  deriving DecidableEq, Repr

/-- A job held by a partition (R226-R236). `map` gives each logical tile's physical position; `loading` is set while a load or resume waits for what it still needs; `args` are the targets whose acknowledgement is awaited; `lanes` whether the context cache has reported the lanes ready; `pins` whether the step start waits for pins; `dogStep` is the step whose watchdog abandonment was made, `dogOwner` whether a report of the step marked its owner closed (R506); `routeBad` that its routes failed since the step began (R181); `since` is the elapsed count at which it entered its state (R416); `pinned` the pin entries it holds (R277); `weirHold` that the weir, `scourHold` that an inserted scour window, holds the next step start (R442, R529); `tick` the last tick taken, `tickBase` its tide count, or that of tick 0 where none has been taken, `period` the period in force in ns (R243); `ready` that READY was sent (R300); `retwin` the logical tile twinned again and the steps left (R535); `twinNext` the twin prepared for the next step (R532); `rampLen`, `dogMs` and `mcastNs` the ramp length, the queue watchdog limit and the multicast timeout in force for the job's life, as its load found them (R77, R141, R245); `prevRecs` the lane records of the last completed step (R512); `prepared` the slots made ready for the job (R265); `polledAt` the elapsed count of the last read of its step entry that found no seal (R239), `slackAt` that of its last slack window, `insertAt` that of the last window inserted (R529). -/
structure Job where
  hdr       : JobHdr := {}
  map       : List Nat := []
  placed    : List Placed := []
  polders   : List (Nat × Nat) := []
  watches   : List Watch := []
  targets   : List ArgTarget := []
  cadence   : Bool := false
  phase     : Nat := 0
  tickBase  : Nat := 0
  period    : Nat := 0
  barrier   : Bool := false
  group     : Nat := 0
  readys    : List (Nat × Nat) := []
  startAt   : Option Nat := none
  entry     : Option Entry := none
  refused   : Option Nat := none
  starting  : Bool := false
  args      : List Nat := []
  lanes     : Bool := false
  pins      : Bool := false
  remaps    : List Remap := []
  drained   : List Nat := []
  selfDone  : Bool := false
  dogStep   : Option Nat := none
  dogOwner  : Bool := false
  memFault  : List (Nat × Nat × Nat) := []
  twin      : Option TwinRun := none
  twinNext  : Option TwinRun := none
  scrubLeft : List Nat := []
  twinEvery : Nat := 4096
  twinHold  : Bool := true
  routeBad  : Bool := false
  since     : Nat := 0
  pinned    : Nat := 0
  laneRecs  : List LaneRec := []
  prevRecs  : List LaneRec := []
  prepared  : List Nat := []
  weirHold  : Bool := false
  scourHold : Bool := false
  tick      : Option Nat := none
  ready     : Bool := false
  retwin    : Option (Nat × Nat) := none
  rampLen   : Nat := 48
  dogMs     : Nat := 500
  mcastNs   : Nat := 2000
  polledAt  : Option Nat := none
  slackAt   : Nat := 0
  insertAt  : Option Nat := none
  deriving DecidableEq, Repr

/-- A command latched by the job sequencer (R234). -/
inductive JobLatch where
  | finish | preempt | load | resume
  deriving DecidableEq, Repr

/-! ### Window fills (R556) -/

/-- The zero fill of a partition's new windows (R556): the configuration that waits for it, the granules still to fill. -/
structure PartFill where
  cfg : PartCfg
  hbm : List Nat
  ddr : List Nat
  deriving DecidableEq, Repr

/-! ### Dispatchers (R248-R259) -/

/-- Where one target of a token stands (R252-R254): no reservation sent, a RESERVE sent, NO_CREDIT answered, a GRANT held, its copy launched, its receipt confirmed, its copy not delivered. -/
inductive TargetState where
  | idle | asked | retry | granted | launched | done | skipped
  deriving DecidableEq, Repr

/-- One target of a token: its expert, its reservation identifier, the slot granted, the elapsed count from which a RESERVE that met NO_CREDIT is repeated. -/
structure Target where
  expert : Nat
  resId  : Nat := 0
  slot   : Nat := 0
  st     : TargetState := .idle
  retry  : Nat := 0
  deriving DecidableEq, Repr

/-- A token that the dispatcher stages (R250, R252): the position and logical number that sent it, its rows with the dispatch header first, its targets, whether it has fallen back to unicasts, the elapsed counts of its first RESERVE and of its last launch. -/
structure Token where
  id      : Nat
  pos     : Nat
  logical : Nat
  rows    : List Row
  targets : List Target
  unicast : Bool := false
  began   : Nat := 0
  sentAt  : Option Nat := none
  deriving DecidableEq, Repr

/-- A reservation at the target (R251): its expert, the device and partition that made it, its identifier, its slot, whether its copy has landed. -/
structure Taken where
  expert : Nat
  device : Nat
  part   : Nat
  resId  : Nat
  job    : Nat
  slot   : Nat := 0
  landed : Bool := false
  deriving DecidableEq, Repr

/-- A TOKEN that the dispatcher assembles (R248, R250): the position that sends it, its first far row, the rows of its PUT, those that have come, how many have come, and the status of one that failed its check. -/
structure TokenPart where
  pos    : Nat
  start  : Nat
  total  : Nat
  rows   : List Row := []
  got    : Nat := 0
  status : Nat := 0
  deriving DecidableEq, Repr

/-- A WRITE before the dispatcher's port (R250): its request's kind, the rows of its PUT, the packet. -/
structure DispWrite where
  kind : Nat
  rows : Nat
  pkt  : Packet
  deriving DecidableEq, Repr

/-- The dispatcher of a partition: the tokens it assembles, the tokens staged, the WRITEs that wait at its port, the slots taken, the requests queued for slots in arrival order. -/
structure Disp where
  parts   : List TokenPart := []
  tokens  : List Token := []
  nextId  : Nat := 0
  nextRes : Nat := 0
  held    : List DispWrite := []
  taken   : List Taken := []
  queue   : List Taken := []
  deriving DecidableEq, Repr

/-! ### Contexts (R268-R284) -/

/-- The states of a context (R269, R271). -/
inductive CtxState where
  | free | idle | active | closing | releasing
  deriving DecidableEq, Repr

/-- The values an OPEN supplies (R272). -/
structure CtxOpen where
  seed      : Nat
  tenant    : Nat
  partition : Nat
  deriving DecidableEq, Repr

/-- A context descriptor, with the state the context cache holds (R269). Page entries stand as their 64 bits (R270). `opens` is the OPEN that is latched behind a release (R272). -/
structure Ctx where
  st           : CtxState := .free
  lastStep     : Nat := 0
  seed         : Nat := 0
  mapEntry     : Nat := 0
  commitEntry  : Nat := 0
  epoch        : Nat := 0
  tenant       : Nat := 0
  position     : Nat := 0
  lastBoundary : Nat := 0
  jobId        : Nat := 0
  pages        : Nat := 0
  priority     : Nat := 0x80
  partition    : Nat := 0
  opens        : Option CtxOpen := none
  damaged      : Bool := false
  pinned       : Bool := false
  fwTag        : Nat := 0
  used         : Nat := 0
  deriving DecidableEq, Repr

/-- The free list of a pool (R275): pages put back in front, the pages from `next` on that no context has held yet, with their tag, and the pages returned, each with its tag. -/
structure FreeList where
  front : List (Nat × Nat) := []
  next  : Nat := 0
  size  : Nat := 0
  tag   : Nat := 0
  back  : List (Nat × Nat) := []
  deriving DecidableEq, Repr

/-- The applied page pools of a partition (R274). `demoting`: demotion runs between the water marks (R282). -/
structure CtxPool where
  applied   : Bool := false
  hbmOffset : Nat := 0
  ddrOffset : Nat := 0
  laneArea  : Nat := 0
  kvBytes   : Nat := 16384
  hbm       : FreeList := {}
  ddr       : FreeList := {}
  demoting  : Bool := false
  deriving DecidableEq, Repr

/-- What a page move does (R281-R283). -/
inductive MoveKind where
  | promote | demote | fill | background
  deriving DecidableEq, Repr

/-- A page move, or a zero fill (R281, R283): its slot, the page (8192: the map, 8193: the commit page), its source and destination indices, its class of R281; `dstTag` the tag of the destination it holds (R275). -/
structure PageMove where
  id    : Nat
  kind  : MoveKind
  slot  : Nat
  page  : Nat
  src   : Nat
  dst   : Option Nat
  cls   : Nat
  dstTag : Nat := 0
  deriving DecidableEq, Repr

/-- The pager of a partition (R281). -/
structure Pager where
  queue  : List PageMove := []
  flight : List PageMove := []
  nextId : Nat := 1
  deriving DecidableEq, Repr
/-! ### Memory servers (R182, R258, R308, R313-R320) -/

/-- A memory read in progress or merged (R182, R308): its key, the requests joined, the elapsed count of the first, whether it still takes requests, the data where a later write closed it (R308), whether a prefetch hint asked for it (R258). -/
structure MemMerge where
  id        : Nat
  partition : Nat
  job       : Nat
  addr      : Nat
  rows      : Nat
  stride    : Nat
  reqs      : List Packet := []
  opened    : Nat := 0
  open'     : Bool := true
  port      : Nat := 0
  data      : Option (List (Option Row)) := none
  hint      : Bool := false
  deriving DecidableEq, Repr

/-- A read held for prefetch (R258). -/
structure HoldRead where
  partition : Nat
  job       : Nat
  addr      : Nat
  rows      : Nat
  stride    : Nat
  data      : List Row
  since     : Nat
  deriving DecidableEq, Repr

/-- A row tracked for corrections (R317). -/
structure CorrRow where
  bank  : Nat
  row   : Nat
  count : Nat
  first : Nat
  deriving DecidableEq, Repr

/-- An HBM stack's controller, or the DDR5 path of a channel (R308, R313, R317-R320). `wbuf` holds buffered rows, oldest first; `waiting` the writes that found it full, `dtl` those that found it full at the reeve die with their module; `retired` lists rows by bank. `passFrom` is the start of the patrol's pass and `passHours` its pass time (R315). -/
structure MemServer where
  merges  : List MemMerge := []
  passFrom  : Option Nat := none
  passHours : Nat := 24
  nextId  : Nat := 1
  wbuf    : List (Nat × Row) := []
  waiting : List Packet := []
  dtl     : List (Nat × DtlMsg) := []
  hold    : List HoldRead := []
  tracker : List CorrRow := []
  patrol  : Nat := 0
  dead    : Bool := false
  retired : List (Nat × Nat) := []
  banks   : List Nat := []
  deriving DecidableEq, Repr

/-! ### Causeway ports (R324-R347) -/

/-- A lane change under way (R334): the logical lane, whether it is dropped, the switch points of the own transmitter and of the peer's, and which of the two have switched. -/
structure Swap where
  lane   : Nat
  drop   : Bool
  tx     : Option Nat := none
  rx     : Option Nat := none
  txDone : Bool := false
  rxDone : Bool := false
  deriving DecidableEq, Repr

/-- A port (R324-R347). `mode` is the mode in effect; `locked` the physical lanes with codeword lock, `prbsDone` whether training is past its PRBS phase; `resume` the state a retrain resumes, `failed` its failures in a row; `txSeq` the next flit number, `ackNext` the first one unacknowledged, `rxSeq` the next one expected, `discarding` whether it awaits a replay, `naks` the last NAK's number and the replays of its event; `credits` and `owed` by class; `fwd` the forward table, oldest first; `inbound` the requests admitted from the peer and not yet answered, with their hop index; `egress` and `ingress` what waits, `stuck` the CTRL messages and MGMT units that wait for credit with their class and slots, `stalled` the elapsed count since when a slot waits for credit (R331); `marks` the elapsed counts of replays, `laneBad` physical lanes and elapsed counts of uncorrectable codewords, `badChecks` the checks of R333 in a row; `swaps` the lane changes; `serial` the serial of the last HELLO; `latch` a port_reset that waits for the training under way (R399); `syncSeq` and `t1` of the last TSYNC sent with the elapsed count at it, `offsets` the offsets measured, newest first (R346, R462); `held` whether the topology check holds it in FOREIGN (R482). -/
structure Port where
  mode       : Nat := 1
  locked     : List Nat := []
  prbsDone   : Bool := false
  resume     : Option Nat := none
  failed     : Nat := 0
  txSeq      : Nat := 0
  ackNext    : Nat := 0
  rxSeq      : Nat := 0
  discarding : Bool := false
  naks       : Option (Nat × Nat) := none
  credits    : List Nat := [3072, 1536, 1536, 1536, 3072, 1536, 1536, 1536, 256, 64]
  owed       : List Nat := [0, 0, 0, 0, 0, 0, 0, 0, 0, 0]
  fwd        : List Packet := []
  inbound    : List (Nat × Packet) := []
  egress     : List (Nat × Packet) := []
  ingress    : List (Nat × Packet) := []
  stuck      : List (Nat × Nat × Msg) := []
  stalled    : Option Nat := none
  marks      : List Nat := []
  laneBad    : List (Nat × Nat) := []
  badChecks  : Nat := 0
  swaps      : List Swap := []
  serial     : Nat := 0
  syncSeq    : Nat := 0
  t1         : Nat := 0
  syncAt     : Nat := 0
  offsets    : List Int := []
  latch      : Option Nat := none
  held       : Bool := false
  deriving DecidableEq, Repr

/-! ### Services and requests (R366-R376) -/

/-- An APPEND or GENERATE in progress (R372-R375): its client and req_id, the context's slot and tenant, the tokens still to append, whether the last chunk samples, the sampling values as binary32 bit patterns, the stop tokens, the tokens it may still produce, its arrival number, the key of the last entry that holds its lane, the reason for which it leaves the next entry, whether its connection is lost, and the requests answered when it ends, each with whether it closes the context. -/
structure SvcReq where
  client  : Client
  reqId   : Nat
  gen     : Bool
  slot    : Nat
  tenant  : Nat
  tokens  : List Nat := []
  sample  : Bool := false
  temp    : Nat := 0x3F800000
  topP    : Nat := 0x3F800000
  stop    : List Nat := []
  left    : Nat := 0
  seq     : Nat
  lastKey : Option Nat := none
  leave   : Option Nat := none
  lost    : Bool := false
  askers  : List (Client × Nat × Bool) := []
  deriving DecidableEq, Repr

/-- A frame of a vision service (R376): its stream, its client and req_id, its bytes, the tick it was placed for. -/
structure SvcFrame where
  stream : Nat
  client : Client
  reqId  : Nat
  bytes  : List Byte
  tick   : Option Nat := none
  deriving DecidableEq, Repr

/-- A service (R368, R375): the configuration applied, as the values of objects 9100+s:01 to :0E; the requests that wait; those with a lane; the lanes of the last entry sealed, by arrival number; the entries sealed whose boundary has not come; the key of the next entry; whether a stop waits for the next boundary; the function control latched (R399); the frames. -/
structure Service where
  cfg     : List Nat := []
  waiting : List SvcReq := []
  active  : List SvcReq := []
  lanes   : List Nat := []
  sealed  : List (Nat × List Nat) := []
  nextKey : Option Nat := none
  stopAt  : Bool := false
  latch   : Option Nat := none
  frames  : List SvcFrame := []
  deriving DecidableEq, Repr

/-! ### The die-to-die layer (R359-R363) -/

/-- A request of the compute die outstanding on a UCIe module (R362): its tag, its packets (one for a write, those merged for a read), the read's merge. -/
structure DtlReq where
  dtag  : Nat
  pkt   : Packet
  chan  : Nat
  merge : Option Nat := none
  deriving DecidableEq, Repr

/-- A UCIe module (R362): the credits the compute die holds by class, those the reeve die holds, the compute die's requests outstanding, its requests that wait for credit, the next tag, since when the first of them waits for credit. -/
structure Ucie where
  req     : Nat := 4096
  rsp     : Nat := 4096
  ctrl    : Nat := 1024
  rReq    : Nat := 4096
  rRsp    : Nat := 4096
  rCtrl   : Nat := 1024
  out     : List DtlReq := []
  waiting : List DtlReq := []
  nextTag : Nat := 0
  stalled : Option Nat := none
  deriving DecidableEq, Repr
/-! ### Rail groups (R413, R437) -/

/-- A rail group: the elapsed counts of the ramp-up charges of the trailing 1 µs, and the tiles whose ramp-ups wait, in request order (R437). -/
structure RailGroup where
  charges : List Nat := []
  waiting : List Nat := []
  deriving DecidableEq, Repr

/-- A wake in progress (R418, R419): its cluster, the elapsed count of its request, the interval in force, the stages closed, whether it holds, whether its hold budget ran out, the elapsed count at which its next decision, reading or clock start is due, the start of the hold in progress, the time of the holds before it. -/
structure Wake where
  cluster  : Nat
  asked    : Nat
  interval : Nat
  stages   : Nat := 0
  holding  : Bool := false
  expired  : Bool := false
  due      : Nat := 0
  holdAt   : Nat := 0
  held     : Nat := 0
  deriving DecidableEq, Repr

/-- The wakes of a rail group: the one in progress and those that wait, in request order, with the elapsed count of their requests (R417, R419). -/
structure WakeGroup where
  now   : Option Wake := none
  queue : List (Nat × Nat) := []
  deriving DecidableEq, Repr

/-- The supply (R407-R426, R565, R566): whether the rails are off, why they went off (0 never on, 1 input, 2 POWER_OFF_N, 3 heat or coolant, 4 a rail of the device), the elapsed count at which a sag began, whether POWER_OFF_N is low, the tide count of the last power-loss record, the phases lost of VA.f (key f) and VF.f (key 6 + f), the baselines Z0 of VA and VF rails in µΩ by rail number (R415), the consecutive computations of Z above 1.25 and above 1.50 times the baseline, the rails reported CRACK_SUSPECT, the VA and VF rails at local sense, the capacity limit of two lost bus converters (R408). -/
structure Power where
  closed  : Bool := true
  cause   : Nat := 0
  sag     : Option Nat := none
  pinLow  : Bool := false
  lossAt  : Option Nat := none
  lost    : Tbl Nat := []
  bases   : Tbl Nat := []
  over125 : Tbl Nat := []
  over150 : Tbl Nat := []
  suspect : List Nat := []
  local'  : List Nat := []
  capHold : Bool := false
  deriving DecidableEq, Repr

/-! ### The throttle controller (R430-R449) -/

/-- The own ceilings of a cluster that THERMAL_DIE and DROOP move (R438, R439; 31: none), the thermal issue duty, the readings since the thermal ceiling last changed, the readings in a row at or above 110 °C; the elapsed counts of recent droop events, whether the droop hold runs, the events counted in it, the control ticks since the droop ceiling last rose; whether a move of the generator is under way towards another step (R452). -/
structure ClusterLimit where
  thermal    : Nat := 31
  hot        : Bool := false
  thermSince : Nat := 100
  tripReads  : Nat := 0
  droop      : Nat := 31
  marks      : List Nat := []
  hold       : Bool := false
  holdAt     : Nat := 0
  inHold     : Nat := 0
  riseTicks  : Nat := 0
  deriving DecidableEq, Repr

/-- The current limit of a rail group (R436): readings in a row above the limit, whether the 12/20 duty holds, readings in a row at or below 90 %, the group's ceiling (31: none), the readings since it last changed. -/
structure GroupLimit where
  above : Nat := 0
  duty  : Bool := false
  below : Nat := 0
  cur   : Nat := 31
  since : Nat := 20000
  deriving DecidableEq, Repr

/-- The request rate limit of a stack or DIMM (R440): eighths of the peak rate, readings since it last rose, readings in a row at the trip. -/
structure UnitLimit where
  eighths : Nat := 8
  since   : Nat := 10
  trip    : Nat := 0
  deriving DecidableEq, Repr

/-- The throttle controller: control ticks since the last change, whether either cap was exceeded at the last tick and by which reason the slow one, whether CAP_UNREACHABLE stands, the limits of clusters, rail groups, stacks and DIMMs, coolant readings taken and in a row out of range, the SLACK ceilings held by partition, sender and level with the elapsed count of the last SLACK by 256 × partition + sender (R449), the control ticks in a row that a cluster (by its number) ran below its preferred step, or a partition (90 and its number) under the weir, with the tide count of their start, the partitions whose peers hold a SLACK (R448), the values in force until the next control tick of step limits and preferred steps written since the last one, by object (R431, R432). -/
structure Throttle where
  since     : Nat := 10000
  fast      : Bool := false
  slow      : Nat := 0
  unreached : Bool := false
  clusters  : Tbl ClusterLimit := []
  groups    : Tbl GroupLimit := []
  hbms      : Tbl UnitLimit := []
  dimms     : Tbl UnitLimit := []
  coolSeen  : Bool := false
  inletBad  : Nat := 0
  flowBad   : Nat := 0
  peers     : List (Nat × Nat × Nat) := []
  slackAt   : Tbl Nat := []
  slackFor  : Tbl (Nat × Nat) := []
  told      : List Nat := []
  inForce   : Tbl (Option Nat) := []
  deriving DecidableEq, Repr

/-! ### Starts (R467-R490) -/

/-- An entry of saved_training (R475, R490). -/
structure SavedTrain where
  identity : Nat
  unit     : Nat
  rate     : Nat
  starts   : Nat
  deriving DecidableEq, Repr

/-- The start in progress, and what the next one finds (R467-R490): whether one runs, the tide count at its beginning, the elapsed counts at its beginning and at that of its stage, its adjustment bits, the memory test modes used, whether a unit trained in full, whether one was retired or excluded, whether the topology mismatches, the rows S6 retired, whether the offered set changed; the kind of the next attempt once a start has failed, and the elapsed count of that failure; the mode that memtest_next holds; the cluster that adjustment bit 6 leaves gated; the saved training entries; objects 7020:00, 7040:00, 7040:01 and 7040:02 as they stood when this start began (R489). -/
structure Boot where
  active   : Bool := false
  began    : Nat := 0
  startedAt : Nat := 0
  stageAt  : Nat := 0
  adjust   : Nat := 0
  testHbm  : Nat := 0
  testDdr  : Nat := 0
  full     : Bool := false
  lostUnit : Bool := false
  mismatch : Bool := false
  rows     : Nat := 0
  changed  : Bool := false
  waiting  : Option Nat := none
  failedAt : Nat := 0
  memNext  : Option Nat := none
  badCluster : Option Nat := none
  saved    : List SavedTrain := []
  policy   : Nat := 0
  topoHold : Bool := false
  topoWait : Nat := 2000
  expected : List Nat := []
  deriving DecidableEq, Repr

/-! ### Faults (R493-R520) -/

/-- A levee record (R494), with the elapsed counts of its reports of the trailing 1 ms (R495), newest first, the count that the last notice carried (R496), and the elapsed counts of its first report, of its last, of the last at whose arrival the trailing 1 ms held more than 64, and of the last notice (R495-R497). -/
structure LeveeRec where
  first    : Nat
  last     : Nat
  detail   : Nat
  count    : Nat := 1
  reporter : Nat
  suspect  : Nat
  cls      : Nat
  status   : Nat
  part     : Nat
  job      : Nat
  step     : Nat
  peak     : Nat := 1
  notices  : Nat := 0
  storm    : Bool := false
  active   : Bool := false
  ownerClosed : Bool := false
  recent   : List Nat := []
  noticed  : Nat := 0
  firstAt  : Nat := 0
  lastAt   : Nat := 0
  aboveAt  : Nat := 0
  noticeAt : Nat := 0
  deriving DecidableEq, Repr

/-- A history entry (R498). `kept` is its verdict, its counts, its events and its update as the flash holds them, `keptAt` the elapsed count at which they were written. -/
structure HistEntry where
  suspect   : Nat
  cls       : Nat
  verdict   : Nat := 0
  transient : Nat := 0
  permanent : Nat := 0
  ev0       : Nat := 0
  ev1       : Nat := 0
  ev2       : Nat := 0
  updated   : Nat := 0
  kept      : List Nat := []
  keptAt    : Nat := 0
  deriving DecidableEq, Repr

/-- Where a recovery reset stands (R516). -/
inductive Recovery where
  | none | closing | quiesced | restarted
  deriving DecidableEq, Repr

/-- The levee log by entry, its archive as the records' 512 bits, most recently notified first, the history, the domains whose closure drains and the elapsed count at which the drain ends, the peers that announced a closure, where a recovery reset stands, the elapsed count of its trigger, the cause of a RECOVER_REQ under way, the powered seconds as last stored (R493-R518). -/
structure Faults where
  levee       : Tbl (Option LeveeRec) := []
  archive     : List Nat := []
  history     : List HistEntry := []
  closing     : List (Domain × Nat) := []
  peersClosed : List Nat := []
  recovery    : Recovery := .none
  recoverAt   : Nat := 0
  asked       : Option Nat := none
  stored      : Nat := 0
  deriving DecidableEq, Repr

/-! ### Scour tests (R521-R530) -/

/-- A chunk that runs on a position (R527): the chunk, its kind, its expected CRC and its package, its window, the rows saved, the accumulator slots its PASS commands name (first slot, rows), whether it loads array registers, whether it was inserted, whether it stopped before its end, whether a package apply has made its package an old one (R524), the elapsed count at its start. -/
structure Chunk where
  tile     : Nat
  chunk    : Nat
  kind     : Nat
  expect   : Nat
  pkgId    : Nat
  version  : Nat
  window   : Nat
  saved    : List Codeword := []
  slots    : List (Nat × Nat) := []
  loads    : Bool := false
  inserted : Bool := false
  stopped  : Bool := false
  old      : Bool := false
  startAt  : Nat := 0
  deriving DecidableEq, Repr

/-- Where a position stands in its pass (R525, R528, R529): its chunk counter, the next chunk of the pass, whether that chunk runs again after a CRC that differed, whether the position must complete a pass before it serves as a twin or remap target (R536), the powered second of its last complete pass. -/
structure ScourPos where
  counter : Nat := 0
  next    : Nat := 0
  again   : Bool := false
  due     : Bool := false
  passAt  : Nat := 0
  deriving DecidableEq, Repr

/-- The scour packages: the active one (none: the factory's) and the one staged (R521-R524). -/
structure Package where
  active : Option (List Byte) := none
  staged : Option (List Byte) := none
  deriving DecidableEq, Repr

/-! ### The Ulniuk Fault Records (R539, R540) -/

/-- What a UFR of a twin comparison carries under key 22 (R540): the twin's position, P, T and P′, the case of R536. -/
structure UfrTwin where
  twin  : Nat
  p     : List (BitVec 64)
  t     : List (BitVec 64)
  p'    : List (BitVec 64)
  case' : Nat
  deriving DecidableEq, Repr

/-- A UFR by its fields (R540); a field that does not apply is absent. `signature` is key 31. -/
structure Ufr where
  seq       : Nat
  serial    : Nat := 0
  device    : Nat := 0
  kind      : Nat
  cls       : Nat
  suspect   : Nat
  reporter  : Option Nat := none
  count     : Option Nat := none
  times     : Option (Nat × Nat) := none
  powered   : Nat := 0
  status    : Option Nat := none
  job       : Option (Nat × Nat × Nat) := none
  logical   : Option Nat := none
  verdict   : Nat := 0
  hist      : List Nat := []
  detail    : Option Nat := none
  flags     : Option Nat := none
  scour     : Option (List Nat) := none
  twin      : Option UfrTwin := none
  image     : Nat := 0
  signature : Option (List Byte) := none
  deriving DecidableEq, Repr

/-! ### Security (R542-R560) -/

/-- A Bamurn credential (R553); `key` none: the factory's key. -/
structure Credential where
  key    : Option (List Byte) := none
  rights : Nat := 0x3F
  deriving DecidableEq, Repr

/-- The security engine and the firmware flashes (R542-R559): the images of flashes A and B (none: the factory's), the image staged, the image marked failed last, whether an image was installed in SAFE; the measurement registers and the job measurements; the credentials; the attestation requests queued and the newest report; the number of key generations, the TLS key pending and the one in use by generation (0 the factory's), the chain; the challenge last read, whether the test port was unlocked and a debug read made since the last cold start; the tiles whose scrub the debug hold holds, and the data of the last debug read. -/
structure Security where
  images    : List (Option (List Byte)) := [none, none]
  staged    : Option (List Byte) := none
  lastBad   : Nat := 0
  installed : Bool := false
  meas      : List (List Byte) := []
  pms       : Tbl (List Byte) := []
  creds     : Tbl (Option Credential) := [(0, some {})]
  attests   : List (Nat × List Byte) := []
  report    : List Byte := []
  keyGens   : Nat := 0
  tlsNext   : Option Nat := none
  tlsKey    : Nat := 0
  tlsChain  : List Byte := []
  challenge : Option (List Byte) := none
  unlocked  : Bool := false
  debugRead : Bool := false
  held      : List Nat := []
  debugData : List Byte := []
  deriving DecidableEq, Repr

/-! ### The whole state -/

/-- The state of the module. -/
structure State where
  /-- The commands that wait, first in, first out. -/
  pending : List Instr := []
  /-- Everything the block has sent, newest first. -/
  sent : List Msg := []
  /-- The MODEL's own counter that the free values of `Config` are applied to (notes/assumptions/3.md). -/
  fresh : Nat := 0
  /-- The master tide count, in units of 0.25 ns (R457). -/
  tide : Nat := 0
  /-- The units elapsed, in units of 0.25 ns: as the tide count, without its forward steps (R459, R461). Every duration is measured by it, and every field that an `elapsed count` stands in keeps a value of it. -/
  elapsed : Nat := 0
  /-- Every register of the object dictionary, by `okey` (R404). -/
  regs : Tbl Nat := []
  /-- Mode, test session, latched request (R8-R11). -/
  device : Device := {}
  /-- Sessions and the record flash (R387-R403). -/
  bamurn : Bamurn := {}
  /-- Holes, the stored floor plan, replacements (R21, R22). -/
  floor : Floor := {}
  /-- The configuration in force of each partition (R223, R224). -/
  cfgs : Tbl PartCfg := []
  /-- The tile positions, by physical number. -/
  tiles : Tbl Tile := []
  /-- The job each partition holds (R226-R242). -/
  jobs : Tbl (Option Job) := []
  /-- The command each job sequencer has latched (R234). -/
  latches : Tbl (Option JobLatch) := []
  /-- The zero fills of new windows in progress (R556). -/
  fills : Tbl (Option PartFill) := []
  /-- The ownership tag of each 256 MiB granule of HBM: 0 ZERO, else the tenant + 1 (R556). -/
  hbmTags : Tbl Nat := []
  /-- The ownership tag of each 1 GiB granule of DDR5 (R556). -/
  ddrTags : Tbl Nat := []
  /-- The applied expert table, by expert number (R245, R246). -/
  experts : Tbl Nat := []
  /-- The dispatcher of each partition (R248). -/
  disps : Tbl Disp := []
  /-- The context descriptors, by slot (R268). -/
  ctxs : Tbl Ctx := []
  /-- The slots the context cache has held since it was emptied (R287). -/
  cached : List Nat := []
  /-- The applied page pools (R274). -/
  pools : Tbl CtxPool := []
  /-- The pagers (R281). -/
  pagers : Tbl Pager := []
  /-- The partitions whose step start waits for pins, in arrival order (R277). -/
  pinQueue : List Nat := []
  /-- HBM, one codeword for each 32-byte row, keyed by byte address / 32 (R304, R307). -/
  hbm : Tbl Codeword := []
  /-- DDR5, one 64-byte subchannel burst with its lane field, keyed by byte address / 64 (R310, R311). -/
  ddr : Tbl (BitVec 640) := []
  /-- The HBM stacks' controllers. -/
  hbms   : Tbl MemServer := []
  /-- The DDR5 paths of the channels. -/
  channels : Tbl MemServer := []
  /-- Start addresses of retired HBM bank spans, object 3000:02 (R319). -/
  spans : List Nat := []
  /-- The ports (R324-R347). -/
  ports : Tbl Port := []
  /-- The latest TOPO of each origin: its topo_seq and the peer of each port that has one (R345). -/
  topo : Tbl (Option (Nat × List Nat)) := []
  /-- The topo_seq of the device's own last change of neighbours (R342, R345). -/
  topoSeq : Nat := 0
  /-- The time root chosen, and the exchanges in a row within 1 unit and beyond 4 units (R460, R462). -/
  timeRoot : Nat := 0
  steady : Nat := 0
  wide : Nat := 0
  /-- The services (R368). -/
  svcs : Tbl Service := []
  /-- The committed positions plus the pending token of each context, as the serving firmware holds them (R367). -/
  lens : Tbl Nat := []
  /-- The requests to close a context that wait for its slot to leave ACTIVE: slot, client, req_id (R372). -/
  closers : List (Nat × Client × Nat) := []
  /-- The number the next request takes (R375). -/
  svcSeq : Nat := 0
  /-- The UCIe modules (R362). -/
  ucies : Tbl Ucie := []
  /-- The slope budget of each rail group (R437). -/
  slopes : Tbl RailGroup := []
  /-- The wakes of each rail group (R417-R419). -/
  wakes : Tbl WakeGroup := []
  /-- The request latched at each plane: true a wake, false a gate (R417). -/
  planeLatch : Tbl (Option Bool) := []
  /-- The supply, its rails and pins (R407-R426, R565, R566). -/
  power : Power := {}
  /-- The throttle controller (R430-R449). -/
  throttle : Throttle := {}
  /-- The firmware image that runs: 0 image A, 1 image B (R544). -/
  running : Nat := 0
  /-- The start in progress and what the next one finds (R467-R490). -/
  boot : Boot := {}
  /-- The levee log, the history, closures and the recovery reset (R493-R518). -/
  faults : Faults := {}
  /-- The chunk that runs in each partition; 12 for the positions in no job (R529). -/
  chunks : Tbl (Option Chunk) := []
  /-- Each position's place in its pass (R525, R529). -/
  scour : Tbl ScourPos := []
  /-- The UFRs kept, newest first: 1,024 in reeve SRAM (R539). -/
  ufrs : List Ufr := []
  /-- The UFRs kept persistently, newest first: 256 (R539). -/
  ufrKept : List Ufr := []
  /-- The sequence number of the UFR that object 6060:02 shows; 0 none (R541). -/
  ufrShown : Nat := 0

  /-- The scour packages (R521-R524). -/
  pkg : Package := {}
  /-- The security engine and the firmware flashes (R542-R559). -/
  sec : Security := {}
  deriving DecidableEq, Repr

/-- The module before its first cold start: unpowered, every register at its default, no command waiting (R9, R467). -/
def State.reset : State := {}

end Sys2Proof.Machine
end

