-- ==== Sys2Proof/Machine/Ops.lean ====
section
/-! DEFINITION. The named operations that the meanings share: reading and writing a register, counting, sending, the status codes of R7, the rights of a session (R387), the order of checks on a write (R396, R397) and the bit fields of words. -/

namespace Sys2Proof.Machine

/-- What a meaning answers. -/
abbrev Out := Host.Outcome State Fault Refusal

/-! ### Status codes (R7) -/

abbrev stOk : Nat := 0x00
abbrev stPending : Nat := 0x01
abbrev stFenced : Nat := 0x02
abbrev stTimeout : Nat := 0x03
abbrev stUncorrectable : Nat := 0x04
abbrev stNoCredit : Nat := 0x05
abbrev stRefused : Nat := 0x06
abbrev stRestartPending : Nat := 0x07
abbrev stDegraded : Nat := 0x08
abbrev stAccessDenied : Nat := 0x09
abbrev stBadValue : Nat := 0x0A
abbrev stBusy : Nat := 0x0B
abbrev stNotReady : Nat := 0x0C
abbrev stCapUnreachable : Nat := 0x0D

/-! ### Bit fields -/

/-- Bits [lo + w - 1 : lo] of a word held as a number. -/
def fieldOf (v lo w : Nat) : Nat := v / 2 ^ lo % 2 ^ w

/-- Bit `i` of a word held as a number. -/
def bitOf (v i : Nat) : Bool := v / 2 ^ i % 2 == 1

/-- The word `v` with bits [lo + w - 1 : lo] replaced by `x`. -/
def setField (v lo w x : Nat) : Nat :=
  2 ^ (lo + w) * (v / 2 ^ (lo + w)) + 2 ^ lo * (x % 2 ^ w) + v % 2 ^ lo

/-- The word `v` with bit `i` set or cleared. -/
def setBit (v i : Nat) (b : Bool) : Nat := setField v i 1 (if b then 1 else 0)

/-- The numbers of the set bits of `v` below `w`, rising. -/
def bitsOf (v w : Nat) : List Nat := (List.range w).filter (fun i => bitOf v i)

/-- The number of set bits of `v` below `w`. -/
def popCount (v w : Nat) : Nat := (bitsOf v w).length

/-- The two's complement reading of the low `w` bits (R393). -/
def signedOf (v w : Nat) : Int := if bitOf v (w - 1) then (v % 2 ^ w : Nat) - (2 ^ w : Nat) else (v % 2 ^ w : Nat)

/-- The low `w` bits of an integer in two's complement (R393). -/
def unsignedOf (x : Int) (w : Nat) : Nat := (x % (2 ^ w : Nat)).toNat

/-! ### Registers -/

/-- The value of an object's entry. -/
def State.obj (s : State) (index sub : Nat) (elem : Nat := 0) : Nat :=
  Tbl.get s.regs (regDefault (okey index sub elem)) (okey index sub elem)

/-- Write an object's entry. -/
def State.setObj (s : State) (index sub elem v : Nat) : State :=
  { s with regs := Tbl.put s.regs (regDefault (okey index sub elem)) (okey index sub elem) v }

/-- Add to a counter of `w` bits, which stops at its all-ones value (R51, R406). -/
def State.count (s : State) (index sub elem w : Nat) (by' : Nat := 1) : State :=
  s.setObj index sub elem (min (s.obj index sub elem + by') (2 ^ w - 1))

/-- Write a list of entries of a table from entry `e`. -/
def State.setObjs (s : State) (index sub : Nat) : Nat → List Nat → State
  | _, [] => s
  | e, v :: vs => State.setObjs (s.setObj index sub e v) index sub (e + 1) vs

/-- The entries 0 to n - 1 of a table. -/
def State.objs (s : State) (index sub n : Nat) : List Nat := (List.range n).map (fun e => s.obj index sub e)

/-! ### Sending -/

/-- Send one message. -/
def State.emit (s : State) (m : Msg) : State := { s with sent := m :: s.sent }

/-- Send messages, the first first. -/
def State.emits (s : State) (ms : List Msg) : State := ms.foldl State.emit s

/-- Answer a write with its status (R396). -/
def State.answer (s : State) (sess index sub st : Nat) : State := s.emit (.answer sess index sub st)

/-- Send a fault report to the levee log (R491). -/
def State.report (s : State) (r : Report) : State := s.emit (.report r)

/-- Draw a fresh argument for a free value of `Config` (notes/assumptions/3.md). -/
def State.draw (s : State) : Nat × State := (s.fresh, { s with fresh := s.fresh + 1 })

/-- Apply `f` for each element, from the first. -/
def State.each {α : Type} (s : State) (xs : List α) (f : State → α → State) : State := xs.foldl f s

/-! ### Rights and the checks on a write (R387, R396, R397) -/

/-- Rights bits of R387. -/
abbrev rRead : Nat := 0
abbrev rWrite : Nat := 1
abbrev rPersist : Nat := 2
abbrev rUpdate : Nat := 3
abbrev rDebug : Nat := 4
abbrev rSecurity : Nat := 5

/-- The authenticated session of a number, if it exists (R388). -/
def State.session (s : State) (sess : Nat) : Option Session :=
  s.bamurn.sessions.find? (fun x => x.number == sess && x.authed)

/-- The rights mask of a session; the mailbox holds READ, WRITE and PERSIST (R383, R387). -/
def State.rights (s : State) (sess : Nat) : Nat :=
  if sess = 0xFFFF then 7
  else match s.session sess with
    | some x => x.rights
    | none => 0

/-- Does a session hold a right? -/
def State.holds (s : State) (sess right : Nat) : Bool := bitOf (s.rights sess) right

/-- The rights a write needs: PERSIST for an RWP object and WRITE for the others, with DEBUG, UPDATE or SECURITY where R11, R219, R546, R387 and the object tables ask for them. -/
def writeRights (index sub access : Nat) : Nat :=
  let base := if access = 3 then 4 else 2
  let sec := if (index ≥ 0x8000 ∧ index < 0x9000) ∨ (index = 0x6010 ∧ sub = 2) ∨ (index = 0x6020 ∧ sub = 0) then 32 else 0
  let upd := if (index = 0x7060 ∧ sub ≥ 2) ∨ (index = 0x6041 ∧ sub ≥ 2) then 8 else 0
  let dbg := if (index = 0x0110 ∧ sub = 1) ∨ (index ≥ 0x2100 ∧ index < 0x25C8 ∧ sub = 0x62)
                ∨ (index = 0x8030) then 16 else 0
  base ||| sec ||| upd ||| dbg

/-- The rights a read needs: READ, with WRITE for an RC object read without peek, and DEBUG where R219 and R558 ask for it. -/
def readRights (index sub access : Nat) (peek : Bool) : Nat :=
  let base := if access = 6 ∧ !peek then 3 else 1
  let dbg := if (index ≥ 0x2100 ∧ index < 0x25C8 ∧ (sub = 0x60 ∨ sub = 0x61 ∨ sub = 0x63))
                ∨ (index = 0x8030 ∧ sub = 2) then 16 else 0
  base ||| dbg

/-- The boot stage whose end makes an object available (R469); 11 where the table names no group. -/
def stageOf (index sub : Nat) : Nat :=
  if index < 0x0300 ∨ (0x1000 ≤ index ∧ index < 0x1100) ∨ (0x7000 ≤ index ∧ index < 0x9000) then 1
  else if (0x2000 ≤ index ∧ index ≤ 0x2003) ∨ (0x2100 ≤ index ∧ index ≤ 0x25C7 ∧ sub ≤ 5) then 2
  else if (0x1100 ≤ index ∧ index < 0x1600) ∨ (0x2010 ≤ index ∧ index ≤ 0x203C)
      ∨ (0x2100 ≤ index ∧ index ≤ 0x25C7) ∨ (0x3200 ≤ index ∧ index ≤ 0x3217) then 3
  else if 0x3100 ≤ index ∧ index ≤ 0x311F then 4
  else if 0x3000 ≤ index ∧ index ≤ 0x301B then 5
  else if 0x3400 ≤ index ∧ index ≤ 0x341B then 6
  else if 0x5000 ≤ index ∧ index < 0x7000 then 7
  else if 0x4000 ≤ index ∧ index ≤ 0x401F then 8
  else if (0x9000 ≤ index ∧ index ≤ 0x9010) ∨ (0x9100 ≤ index ∧ index ≤ 0x910F) then 10
  else 11

/-- Has the object's owner been initialised at the current boot stage (R397, R469)? Object 7000:03 holds the stage in progress, 0xFF after READY. -/
def State.initialised (s : State) (index sub : Nat) : Bool :=
  decide (stageOf index sub < s.obj 0x7000 3)

/-- Is the object one of those whose reads and writes R219 gates by mode? -/
def gaugeGated (index sub : Nat) : Bool :=
  decide (0x2100 ≤ index) && decide (index < 0x25C8) && (sub == 0x60 || sub == 0x61 || sub == 0x63)

/-- May the update agent of SAFE read the object (R397; the challenge, R559)? -/
def safeReadable (index sub : Nat) : Bool :=
  (decide (0x0100 ≤ index) && decide (index < 0x0300)) || (index == 0x7000 && decide (sub ≤ 7))
    || (index == 0x7010 && decide (sub ≤ 1)) || (index == 0x7060 && decide (sub ≤ 1)) || (index == 0x8040 && sub == 1)

/-- May the update agent of SAFE write the object (R397; the unlock token, R559)? -/
def safeWritable (index sub : Nat) : Bool :=
  (index == 0x0200 && sub == 3) || (index == 0x7000 && sub == 1)
    || (index == 0x7060 && (sub == 2 || sub == 3 || sub == 4)) || (index == 0x8040 && sub == 2)

/-- What the device mode answers to an access; none where it allows it (R397, R219). Objects 6020:00 and 0110:01 answer by mode themselves (R515, R11). The gauge rule, being the narrower, comes first: reads in STARTUP, TEST and RECOVERY, hand-sets in SERVICE only. -/
def State.modeGate (s : State) (write : Bool) (index sub : Nat) : Option Nat :=
  if gaugeGated index sub && !write && (s.device.mode == .service || s.device.mode == .safe) then some stAccessDenied
  else if write && decide (0x2100 ≤ index) && decide (index < 0x25C8) && sub == 0x62 && s.device.mode != .service then some stAccessDenied
  else if write && ((index == 0x6020 && sub == 0) || (index == 0x0110 && sub == 1)) then none
  else match s.device.mode with
    | .startup => if s.initialised index sub then none else some stNotReady
    | .safe =>
      if (if write then safeWritable index sub else safeReadable index sub) then none else some stNotReady
    | _ => none

/-- The status of the first check that refuses a write before the value is looked at; none where all pass (R396). -/
def State.writeGuard (s : State) (sess index sub : Nat) : Option Nat :=
  match objAt index sub with
  | none => some stBadValue
  | some d =>
    if writeRights index sub d.access &&& s.rights sess ≠ writeRights index sub d.access then some stAccessDenied
    else if d.access = 1 ∨ d.access = 6 then some stAccessDenied
    else s.modeGate true index sub

/-- A write to a CMD object: the checks of R396, then the object's own rule; the status is answered and kept as the object's last status (R6, R396). -/
def State.command (s : State) (sess index sub : Nat) (own : State → State × Nat) : State × Nat :=
  match s.writeGuard sess index sub with
  | some st => (if (objAt index sub).isSome then s.setObj index sub 0 st else s, st)
  | none => ((own s).1.setObj index sub 0 (own s).2, (own s).2)

/-- The outcome of a command that writes a CMD object. -/
def State.commandOut (s : State) (sess index sub : Nat) (own : State → State × Nat) : Out :=
  .next ((s.command sess index sub own).1.answer sess index sub (s.command sess index sub own).2)

/-! ### Device-wide numbers -/

/-- The object index of a tile (R14). -/
abbrev tileIx (n : Nat) : Nat := 0x2100 + n

/-- The twelve partitions. -/
abbrev partitionNumbers : List Nat := List.range 12

/-- The tide units of a time in nanoseconds (R457: 0.25 ns). -/
abbrev nsTide (ns : Nat) : Nat := 4 * ns

/-- One second in tide units. -/
abbrev secTide : Nat := 4000000000

/-- One millisecond in tide units. -/
abbrev msTide : Nat := 4000000

end Sys2Proof.Machine
end

