-- ==== Sys2Proof/Machine/Code272.lean ====
section
/-! DEFINITION. The 272/256 code: encoder, decoder and the decision table (R100-R102). -/

namespace Sys2Proof.Machine

/-- The powers of alpha (R100). -/
def gfExp : List Nat := [0x1, 0x2, 0x4, 0x8, 0x3, 0x6, 0xC, 0xB, 0x5, 0xA, 0x7, 0xE, 0xF, 0xD, 0x9]

/-- The logarithm of a non-zero nibble (R100). -/
def gfLog (x : Nat) : Nat := gfExp.findIdx (fun y => y == x)

/-- The product of two nibbles (R100). -/
def gfMul (x y : Nat) : Nat := if x = 0 ∨ y = 0 then 0 else gfExp.getD ((gfLog x + gfLog y) % 15) 0

/-- The quotient of two nibbles, the divisor not 0 (R100). -/
def gfDiv (x y : Nat) : Nat := if x = 0 then 0 else gfExp.getD ((gfLog x + 15 - gfLog y) % 15) 0

/-- The form `a² + a·b + λ·b²`, with λ = 0x8 (R101). -/
def gfForm (a b : Nat) : Nat := gfMul a a ^^^ gfMul a b ^^^ gfMul 8 (gfMul b b)

/-- The coordinates of data nibble `i` (R101). -/
def nibA (i : Nat) : Nat := i % 16
def nibB (i : Nat) : Nat := 2 + i / 16

/-- Nibble `i` of a word. -/
def nibble (v i : Nat) : Nat := v / 16 ^ i % 16

/-- The sum over the 64 data nibbles of `k i · d_i`. -/
def gfSum (v : Nat) (k : Nat → Nat) : Nat :=
  (List.range 64).foldl (fun acc i => acc ^^^ gfMul (k i) (nibble v i)) 0

/-- The check nibbles of a data row, c0 lowest (R101). -/
def checkNibbles (d : Row) : Nat :=
  let v := d.toNat
  let c0 := gfSum v (fun i => 1 ^^^ nibA i ^^^ nibB i)
  let c1 := gfSum v (fun i => gfForm (nibA i) (nibB i) ^^^ nibA i ^^^ gfMul 8 (nibB i))
  let c2 := gfSum v nibA
  let c3 := gfSum v nibB
  c0 + 16 * c1 + 256 * c2 + 4096 * c3

/-- Encode a row (R101). -/
def encodeRow (d : Row) : Codeword := BitVec.ofNat 272 (d.toNat + 2 ^ 256 * checkNibbles d)

/-- The syndrome of a codeword (R102). -/
def syndrome (w : Codeword) : Nat × Nat × Nat × Nat :=
  let v := w.toNat
  let c := fun k => nibble v (64 + k)
  (gfSum v (fun _ => 1) ^^^ c 0 ^^^ c 2 ^^^ c 3,
   gfSum v (fun i => gfForm (nibA i) (nibB i)) ^^^ c 1 ^^^ c 2 ^^^ gfMul 8 (c 3),
   gfSum v nibA ^^^ c 2,
   gfSum v nibB ^^^ c 3)

/-- What the decoder decides (R102). -/
inductive Decoded where
  | clean (d : Row)
  | corrected (d : Row)
  | bad
  deriving DecidableEq, Repr

/-- Decode a codeword (R102). -/
def decodeWord (w : Codeword) : Decoded :=
  let s := syndrome w
  let d : Row := w.setWidth 256
  if s = (0, 0, 0, 0) then .clean d
  else if s.1 = 0 ∧ s.2.2.1 = 0 ∧ s.2.2.2 = 0 then .corrected d
  else if s.1 = 0 then .bad
  else
    let a := gfDiv s.2.2.1 s.1
    let b := gfDiv s.2.2.2 s.1
    if s.2.1 ≠ gfMul s.1 (gfForm a b) then .bad
    else if (a = 0 ∧ b = 0) ∨ (a = 1 ∧ b = 0) ∨ (a = 0 ∧ b = 1) then .corrected d
    else if 2 ≤ b ∧ b ≤ 5 then
      .corrected (d ^^^ (BitVec.ofNat 256 (s.1 * 16 ^ (16 * (b - 2) + a))))
    else .bad

/-- The data of a codeword that decodes; the raw data bits where it does not. -/
def decodedRow (w : Codeword) : Row :=
  match decodeWord w with
  | .clean d => d
  | .corrected d => d
  | .bad => w.setWidth 256

/-- Does a codeword decode uncorrectable? -/
def isBadWord (w : Codeword) : Bool := decodeWord w == .bad

end Sys2Proof.Machine
end

