-- ==== Sys2Proof/Machine/Flags.lean ====
section
/-! DEFINITION. Exact FP32 arithmetic: values as signed dyadic numbers, one rounding to nearest even, saturation and its flag, NaN and infinity rules (R41, R42, R45, R146, R148). -/

namespace Sys2Proof.Machine

/-- The value of an FP32 pattern: NaN, an infinity, or (-1)^neg * m * 2^e. -/
inductive FVal where
  | nan
  | inf (neg : Bool)
  | fin (neg : Bool) (m : Nat) (e : Int)
  deriving DecidableEq, Repr

/-- The canonical NaN (R41). -/
abbrev f32NaN : F32 := 0x7FC00000#32

/-- The largest finite magnitude (R42). -/
abbrev f32Max : F32 := 0x7F7FFFFF#32

/-- The value of a binary32 pattern (IEEE 754, R29). -/
def decodeF32 (w : F32) : FVal :=
  let v := w.toNat
  let neg := bitOf v 31
  let ex := fieldOf v 23 8
  let fr := fieldOf v 0 23
  if ex = 255 then (if fr = 0 then .inf neg else .nan)
  else if ex = 0 then .fin neg fr (-149)
  else .fin neg (2 ^ 23 + fr) ((ex : Int) - 150)

/-- `a / 2^k` rounded to nearest, ties to even. -/
def shiftRne (a k : Nat) : Nat :=
  let q := a / 2 ^ k
  let r := a % 2 ^ k
  if k = 0 then a
  else if r * 2 > 2 ^ k ∨ (r * 2 = 2 ^ k ∧ q % 2 = 1) then q + 1 else q

/-- The magnitude bits of `m * 2^e` rounded to nearest even with gradual underflow; 0x7F800000 or above where it exceeds the largest finite magnitude. -/
def roundMag (m : Nat) (e : Int) : Nat :=
  if m = 0 then 0
  else
    let q : Int := max (e + Nat.log2 m - 23) (-149)
    let mant := if e ≥ q then 2 ^ (e - q).toNat * m else shiftRne m (q - e).toNat
    2 ^ 23 * (q + 149).toNat + mant

/-- Round a signed dyadic to FP32: infinity beyond the largest finite magnitude (IEEE 754). -/
def roundF32 (neg : Bool) (m : Nat) (e : Int) : F32 :=
  let b := min (roundMag m e) 0x7F800000
  BitVec.ofNat 32 ((if neg then 2 ^ 31 else 0) + b)

/-- Round with saturation: the largest finite magnitude in place of an infinity, and whether it saturated (R42). -/
def roundSat (neg : Bool) (m : Nat) (e : Int) : F32 × Bool :=
  let b := roundMag m e
  (BitVec.ofNat 32 ((if neg then 2 ^ 31 else 0) + min b 0x7F7FFFFF), decide (b ≥ 0x7F800000))

/-- The exact sum of two signed dyadics: sign, magnitude, exponent; `+0` for an exact zero unless both are `-0`. -/
def exactAdd (na : Bool) (ma : Nat) (ea : Int) (nb : Bool) (mb : Nat) (eb : Int) : Bool × Nat × Int :=
  let e := min ea eb
  let a : Int := (2 ^ (ea - e).toNat * ma : Nat) * (if na then -1 else 1)
  let b : Int := (2 ^ (eb - e).toNat * mb : Nat) * (if nb then -1 else 1)
  let s := a + b
  (if s = 0 then na && nb else decide (s < 0), s.natAbs, e)

/-- One fused step of a fold: `acc + k * 2^e`, rounded once, saturating; NaN and an infinite acc stay (R41, R42, R45). -/
def fusedStep (acc : F32) (k : Int) (e : Int) : F32 × Bool :=
  match decodeF32 acc with
  | .nan => (acc, false)
  | .inf _ => (acc, false)
  | .fin n m ea =>
    let r := exactAdd n m ea (decide (k < 0)) k.natAbs e
    roundSat r.1 r.2.1 r.2.2

/-- IEEE 754 addition. -/
def addF32 (x y : F32) : F32 :=
  match decodeF32 x, decodeF32 y with
  | .nan, _ => f32NaN
  | _, .nan => f32NaN
  | .inf a, .inf b => if a = b then x else f32NaN
  | .inf _, _ => x
  | _, .inf _ => y
  | .fin na ma ea, .fin nb mb eb =>
    let r := exactAdd na ma ea nb mb eb
    roundF32 r.1 r.2.1 r.2.2

/-- The pattern with the other sign. -/
def negF32 (x : F32) : F32 := x ^^^ 0x80000000#32

/-- IEEE 754 subtraction. -/
def subF32 (x y : F32) : F32 := addF32 x (negF32 y)

/-- IEEE 754 multiplication. -/
def mulF32 (x y : F32) : F32 :=
  match decodeF32 x, decodeF32 y with
  | .nan, _ => f32NaN
  | _, .nan => f32NaN
  | .inf a, .inf b => if a = b then 0x7F800000#32 else 0xFF800000#32
  | .inf a, .fin b m _ => if m = 0 then f32NaN else if a = b then 0x7F800000#32 else 0xFF800000#32
  | .fin b m _, .inf a => if m = 0 then f32NaN else if a = b then 0x7F800000#32 else 0xFF800000#32
  | .fin na ma ea, .fin nb mb eb => roundF32 (na != nb) (ma * mb) (ea + eb)

/-- Fused multiply-add, one rounding: `x * y + z`. -/
def fmaF32 (x y z : F32) : F32 :=
  match decodeF32 x, decodeF32 y, decodeF32 z with
  | .fin na ma ea, .fin nb mb eb, .fin nc mc ec =>
    let r := exactAdd (na != nb) (ma * mb) (ea + eb) nc mc ec
    roundF32 r.1 r.2.1 r.2.2
  | .fin _ _ _, .fin _ _ _, .nan => f32NaN
  | .fin _ _ _, .fin _ _ _, .inf _ => z
  | _, _, _ => addF32 (mulF32 x y) z

/-- Is the pattern a NaN? -/
def isNaN32 (x : F32) : Bool := decodeF32 x == .nan

/-- Is the pattern a NaN or an infinity? -/
def isNonFinite (x : F32) : Bool := fieldOf x.toNat 23 8 == 255

/-- An integer that orders the non-NaN patterns as their values, `-0` and `+0` alike. -/
def orderF32 (x : F32) : Int :=
  let v := x.toNat
  if bitOf v 31 then -((v % 2 ^ 31 : Nat) : Int) else ((v % 2 ^ 31 : Nat) : Int)

/-- `x > y`, false on NaN. -/
def gtF32 (x y : F32) : Bool := !isNaN32 x && !isNaN32 y && decide (orderF32 x > orderF32 y)

/-- The nearest FP32 to an integer. -/
def ofIntF32 (k : Int) : F32 := roundF32 (decide (k < 0)) k.natAbs 0

/-- The FP32 of a BF16 pattern (R29). -/
def ofBf16 (h : Nat) : F32 := BitVec.ofNat 32 (h % 65536 * 65536)

end Sys2Proof.Machine
end

