-- ==== Sys2Proof/Machine/Operands.lean ====
section
/-! DEFINITION. The number formats of the array and the vector unit: format codes, element and scale planes, spill words, segments, re-quantisation, the draw function (02_number_formats.md). -/

namespace Sys2Proof.Machine

/-! ### Format codes (R29) -/

abbrev fmtM4 : Nat := 0
abbrev fmtM3 : Nat := 1
abbrev fmtT2 : Nat := 2
abbrev fmtMXFP4 : Nat := 3
abbrev fmtMXINT8 : Nat := 4
abbrev fmtI8 : Nat := 5
abbrev fmtBF16 : Nat := 6
abbrev fmtFP32 : Nat := 7

/-- Bits of an element; 0 for a code not used (R29). -/
def elemBits (f : Nat) : Nat := [4, 3, 2, 4, 8, 8, 16, 32].getD f 0

/-- Elements of a block that share a scale; 1 for BF16 and FP32 (R29). -/
def blockSize (f : Nat) : Nat := [16, 16, 32, 32, 32, 32, 1, 1].getD f 1

/-- Is the code a narrow format of the array (R29)? -/
def isNarrow (f : Nat) : Bool := decide (f < 6)

/-- Is the element 8 bits wide? -/
def is8 (f : Nat) : Bool := f == fmtMXINT8 || f == fmtI8

/-- The adjustment f of R38. -/
def expAdjust (f : Nat) : Int := if f = fmtMXFP4 then -1 else if f = fmtMXINT8 then -6 else 0

/-- Elements held by one 256-bit row (R30). -/
def perRow (f : Nat) : Nat := [64, 80, 128, 64, 32, 32, 16, 8].getD f 1

/-! ### Elements (R30-R36) -/

/-- The integer d of an MXFP4 code, twice its value (R34). -/
def mxfp4 (code : Nat) : Int :=
  let d : Int := [0, 1, 2, 3, 4, 6, 8, 12].getD (code % 8) 0
  if code % 16 ≥ 8 then -d else d

/-- The integer of a T2 code; the invalid code reads as 0 (R33). -/
def t2 (code : Nat) : Int := [0, 1, 0, -1].getD (code % 4) 0

/-- The grid integer of an element's code (R31-R36). -/
def gridOf (f code : Nat) : Int :=
  if f = fmtMXFP4 then mxfp4 code
  else if f = fmtT2 then t2 code
  else signedOf code (elemBits f)

/-- Is the code invalid (R33)? -/
def isInvalid (f code : Nat) : Bool := f == fmtT2 && code % 4 == 2

/-- The code of element `i` of a plane whose rows are `rows` (R30, R32). -/
def elemCode (f : Nat) (rows : List Row) (i : Nat) : Nat :=
  fieldOf ((rows.getD (i / perRow f) 0).toNat) (i % perRow f * elemBits f) (elemBits f)

/-- Byte `i` of a plane (R4, R30). -/
def planeByte (rows : List Row) (i : Nat) : Nat := fieldOf ((rows.getD (i / 32) 0).toNat) (i % 32 * 8) 8

/-- The 32-bit word `i` of a plane (R30). -/
def planeWord (rows : List Row) (i : Nat) : Nat := fieldOf ((rows.getD (i / 8) 0).toNat) (i % 8 * 32) 32

/-- Pack units of `w` bits into rows, `per` to a row, padding zero (R30). -/
def packRows (w per : Nat) (units : List Nat) : List Row :=
  (List.range ((units.length + per - 1) / per)).map (fun r =>
    BitVec.ofNat 256 (((List.range per).map (fun i => 2 ^ (i * w) * (units.getD (r * per + i) 0 % 2 ^ w))).sum))

/-! ### Pairings and segments (R38-R40) -/

/-- The operand pairings the array accepts in MAC (R39). -/
def macPairing (st str : Nat) : Bool :=
  let four := str == fmtM4 || str == fmtMXFP4
  ((st == fmtM4 || st == fmtM3 || st == fmtMXFP4) && (four || is8 str))
    || (st == fmtT2 && four) || (is8 st && (four || is8 str))

/-- Rows of the reduction in one scale segment (R38). -/
def segRows (st str : Nat) : Nat := if blockSize st = 32 ∧ blockSize str = 32 then 32 else 16

/-- Outputs per streamed row (R64). -/
def outputsOf (st : Nat) : Nat := if st = fmtT2 then 256 else if is8 st then 64 else 128


/-! ### Spill words (R43-R46) -/

/-- The valid entries of a spill word that are used, as index and value, and whether the word is malformed (R43, R46). -/
def spillEntries (block w : Nat) : List (Nat × Int) × Bool :=
  let entry := fun (h : Nat) => (bitOf h 15, fieldOf h 13 2, fieldOf h 8 5, signedOf h 8)
  let e0 := entry (w % 65536)
  let e1 := entry (w / 65536 % 65536)
  let good := fun (e : Bool × Nat × Nat × Int) => e.1 && e.2.1 == 0 && decide (e.2.2.1 < block)
  let bad := fun (e : Bool × Nat × Nat × Int) => e.1 && !(e.2.1 == 0 && decide (e.2.2.1 < block))
  let twice := good e0 && good e1 && e0.2.2.1 == e1.2.2.1
  ((if good e0 then [(e0.2.2.1, e0.2.2.2)] else [])
      ++ (if good e1 && !twice then [(e1.2.2.1, e1.2.2.2)] else []),
    bad e0 || bad e1 || twice)

/-! ### Re-quantisation (R47-R50) -/

/-- The least integer s with `m * 2^e ≤ k * 2^s`, for m and k positive (R47). -/
def leastScale (m : Nat) (e : Int) (k : Nat) : Int :=
  let s0 : Int := e + Nat.log2 m - Nat.log2 k
  let fits := fun (s : Int) => if e ≥ s then decide (2 ^ (e - s).toNat * m ≤ k) else decide (m ≤ 2 ^ (s - e).toNat * k)
  if fits (s0 - 1) then s0 - 1 else if fits s0 then s0 else s0 + 1

/-- The scale exponent s that R47 chooses for a block whose largest magnitude is `m * 2^e`, m positive. -/
def scaleExp (f : Nat) (m : Nat) (e : Int) : Int :=
  if f = fmtM4 then leastScale m e 7
  else if f = fmtM3 then leastScale m e 3
  else if f = fmtT2 then leastScale m e 1
  else if f = fmtI8 then leastScale m e 127
  else if f = fmtMXFP4 then e + Nat.log2 m - 2
  else e + Nat.log2 m

/-- The scale code of a block: 0xFF with a NaN or infinity in it, 0x00 where every input is zero (R47). -/
def scaleCode (f : Nat) (xs : List F32) : Nat :=
  if xs.any isNonFinite then 0xFF
  else
    let top := xs.foldl (fun a x => max a (x.toNat % 2 ^ 31)) 0
    match decodeF32 (BitVec.ofNat 32 top) with
    | .fin _ m e => if m = 0 then 0 else (min (max (scaleExp f m e + 127) 0) 254).toNat
    | _ => 0xFF

/-- The ends of an integer grid (R48). -/
def gridLo (f : Nat) : Int := if f = fmtM4 then -8 else if f = fmtM3 then -4 else if f = fmtT2 then -1 else -128
def gridHi (f : Nat) : Int := if f = fmtM4 then 7 else if f = fmtM3 then 3 else if f = fmtT2 then 1 else 127

/-- The magnitudes of the d grid (R34). -/
def dGrid : List Nat := [0, 1, 2, 3, 4, 6, 8, 12]

/-- Round `m * 2^e` on the integers: to nearest even, or with the draw `u` (R48 step 3). `neg` is the sign of the value; the grid below and above follow the signed value. -/
def roundInt (neg : Bool) (m : Nat) (e : Int) (u : Option Nat) : Int :=
  let num := if e ≥ 0 then m * 2 ^ e.toNat else m
  let k := if e ≥ 0 then 0 else (-e).toNat
  let q := num / 2 ^ k
  let r := num % 2 ^ k
  match u with
  | none => let a : Int := shiftRne num k; if neg then -a else a
  | some d =>
    if r = 0 then (if neg then -(q : Int) else q)
    else if neg then
      -- lo = -(q+1), hi = -q; (v - lo) = 1 - r / 2^k
      let t := 2 ^ 24 * (2 ^ k - r) / 2 ^ k
      if d < t then -(q : Int) else -((q : Int) + 1)
    else
      let t := 2 ^ 24 * r / 2 ^ k
      if d < t then (q : Int) + 1 else (q : Int)

/-- Round a magnitude `m * 2^e` of at most 12 on the d grid (R48 step 3); answers the signed d. -/
def roundD (neg : Bool) (m : Nat) (e : Int) (u : Option Nat) : Int :=
  let le := fun (d : Nat) => if e ≥ 0 then decide (d ≤ m * 2 ^ e.toNat) else decide (2 ^ (-e).toNat * d ≤ m)
  let i := (dGrid.filter le).length - 1
  let lo := dGrid.getD i 0
  let hi := dGrid.getD (i + 1) lo
  let k := if e ≥ 0 then 0 else (-e).toNat
  let num := if e ≥ 0 then m * 2 ^ e.toNat else m
  let r := num - 2 ^ k * lo          -- distance above lo, in 2^-k
  let gap := 2 ^ k * (hi - lo)
  let sign := fun (d : Nat) => if neg then -(d : Int) else (d : Int)
  if r = 0 then sign lo
  else match u with
  | none =>
    if r * 2 > gap ∨ (r * 2 = gap ∧ i % 2 = 1) then sign hi else sign lo
  | some d =>
    if neg then
      let t := 2 ^ 24 * (gap - r) / gap
      if d < t then sign lo else sign hi
    else
      let t := 2 ^ 24 * r / gap
      if d < t then sign hi else sign lo

/-- The code of a grid integer; a zero is the code of +0 (R48 step 5). -/
def codeOfGrid (f : Nat) (g : Int) : Nat :=
  if f = fmtMXFP4 then
    if g = 0 then 0
    else dGrid.findIdx (fun d => d == g.natAbs) + (if g < 0 then 8 else 0)
  else unsignedOf g (elemBits f)

/-- Re-quantise one input on its block's scale code: the element's code, and whether it was clamped (R48). -/
def requantElem (f scale : Nat) (x : F32) (u : Option Nat) : Nat × Bool :=
  if scale = 0xFF then (0, false)
  else match decodeF32 x with
  | .fin neg m e =>
    let s : Int := (scale : Int) - 127
    if m = 0 then (0, false)
    else if f = fmtMXFP4 then
      let ev := e - s + 1
      let above := if ev ≥ 0 then decide (m * 2 ^ ev.toNat > 12) else decide (m > 12 * 2 ^ (-ev).toNat)
      if above then (if neg then 0xF else 0x7, true)
      else (codeOfGrid f (roundD neg m ev u), false)
    else
      let ev := e - s + (if f = fmtMXINT8 then 6 else 0)
      let g := roundInt neg m ev u
      if g > gridHi f then (codeOfGrid f (gridHi f), true)
      else if g < gridLo f then (codeOfGrid f (gridLo f), true)
      else (codeOfGrid f g, false)
  | _ => (0, false)

/-- The draw function (R49). -/
def draw (seed step tile stream site index : BitVec 64) : BitVec 64 :=
  let k1 := step ^^^ (stream <<< 56)
  let round := fun (p : BitVec 64 × BitVec 64) =>
    let x := (p.1 ^^^ p.2) * 0x9E3779B97F4A7C15#64
    let x := x ^^^ (x >>> 29)
    let x := (x ^^^ k1) * 0xBF58476D1CE4E5B9#64
    let x := x ^^^ (x >>> 32)
    (x, p.2 + 0x632BE59BD9B4E019#64)
  let x0 := (tile <<< 48) ||| (site <<< 32) ||| index
  (round (round (round (round (x0, seed))))).1

/-- The 24-bit rounding draw: the top 24 bits (R49). -/
def draw24 (x : BitVec 64) : Nat := x.toNat / 2 ^ 40

/-- The value of a narrow element as a signed dyadic rounded to FP32 (R31-R37): NaN where the block's scale is NaN; the MXFP4 code 0x8 is -0. -/
def dequantElem (f scale code : Nat) : F32 :=
  if scale = 0xFF then f32NaN
  else
    let g := gridOf f code
    roundF32 (decide (g < 0) || (f == fmtMXFP4 && code % 16 == 8)) g.natAbs ((scale : Int) - 127 + expAdjust f)

end Sys2Proof.Machine
end

