-- ==== Sys2Proof/Machine/Floor.lean ====
section
/-! DEFINITION. The die floor plan: positions, hops, tile states, the offered set of R21 and the replacements of R22 (01_module_and_floor_plan.md). -/

namespace Sys2Proof.Machine

/-! ### Positions (R13-R17) -/

/-- The physical tile number of a position (R14). -/
def posOf (x y : Nat) : Nat := y * 51 + x

/-- Is a position in a reserve column (R15)? -/
def isReserveCol (n : Nat) : Bool := xOf n % 17 == 16

/-- The hop count between two positions (R17). -/
def hops (a b : Nat) : Nat :=
  (max (xOf a) (xOf b) - min (xOf a) (xOf b)) + (max (yOf a) (yOf b) - min (yOf a) (yOf b))

/-- Every tile position. -/
abbrev allTiles : List Nat := List.range 1224

/-- The tiles of a cluster (R16). -/
def tilesOfCluster (c : Nat) : List Nat := allTiles.filter (fun n => clusterOf n == c)

/-- The field of a cluster (R16). -/
def clusterField (c : Nat) : Nat := if c < 72 then c / 12 else (c - 72) / 3

/-! ### Tile states (R19) -/

abbrev tsHole : Nat := 0
abbrev tsReserve : Nat := 1
abbrev tsOffered : Nat := 2
abbrev tsIdle : Nat := 3
abbrev tsActive : Nat := 4
abbrev tsClosed : Nat := 5
abbrev tsRetired : Nat := 6

/-- The state of a tile (R19). -/
def State.tileState (s : State) (n : Nat) : Nat := s.obj (tileIx n) 0

/-- Set the state of a tile (R19). -/
def State.setTileState (s : State) (n v : Nat) : State := s.setObj (tileIx n) 0 0 v

/-- The number of tiles in a state. -/
def State.tilesIn (s : State) (v : Nat) : Nat := (allTiles.filter (fun n => s.tileState n == v)).length

/-- The tiles already chosen as replacements (R22). -/
def State.isChosen (s : State) (n : Nat) : Bool := s.floor.chosen.any (fun p => p.2 == n)

/-- Is a position usable: none of HOLE, CLOSED and RETIRED (R18, R26)? -/
def State.usable (s : State) (n : Nat) : Bool :=
  s.tileState n != tsHole && s.tileState n != tsClosed && s.tileState n != tsRetired

/-- Does a position forward fabric traffic (R18)? One that closed does until its neighbours' entries are set, step 1 of R181. -/
def State.forwards (s : State) (n : Nat) : Bool := s.usable n || (Tbl.get s.tiles {} n).through

/-- Does a position still move the flits it holds: it forwards, or drains (R181)? -/
def State.carries (s : State) (n : Nat) : Bool := s.forwards n || (Tbl.get s.tiles {} n).drains

/-- The replacements chosen and still RESERVE (R22). -/
def State.chosenReserve (s : State) : List Nat := (s.floor.chosen.map (·.2)).filter (fun n => s.tileState n == tsReserve)

/-- Object 0102:00, the size of the offered set (R2). -/
def State.tilesOffered (s : State) : Nat :=
  s.tilesIn tsOffered + s.tilesIn tsIdle + s.tilesIn tsActive + s.chosenReserve.length

/-- The grade's tile count (R1). -/
def State.gradeCount (s : State) : Nat := if s.obj 0x0101 0 = 2 then 1088 else 1120

/-! ### Partitions as owners of tiles (R223-R225) -/

/-- The configuration in force of a partition. -/
def State.cfg (s : State) (q : Nat) : PartCfg := Tbl.get s.cfgs {} q

/-- Is a partition CONFIGURED (R223)? -/
def State.configured (s : State) (q : Nat) : Bool := s.obj (0x5000 + q) 0 == 1

/-- Does a configured partition own a cluster (R223)? -/
def State.ownsCluster (s : State) (q c : Nat) : Bool := s.configured q && bitOf (s.cfg q).clusters c

/-- The partition whose clusters hold a position, if any (R223). -/
def State.partitionOf (s : State) (n : Nat) : Option Nat :=
  partitionNumbers.find? (fun q => s.ownsCluster q (clusterOf n))

/-- Is a tile in the reserve pool of a partition: RESERVE, in its clusters, and not chosen as a replacement (R22, R225)? -/
def State.inPool (s : State) (q n : Nat) : Bool :=
  s.tileState n == tsReserve && s.ownsCluster q (clusterOf n) && !s.isChosen n

/-- Object 5000+q:09, the size of a partition's reserve pool (R22, R225). -/
def State.poolSize (s : State) (q : Nat) : Nat := (allTiles.filter (s.inPool q)).length

/-- Object 2002:00: the RESERVE tiles not chosen as replacements (R20). -/
def State.reserveCount (s : State) : Nat :=
  (allTiles.filter (fun n => s.tileState n == tsReserve && !s.isChosen n)).length

/-- Object 2003:00: the HOLE and RETIRED tiles (R20). -/
def State.holeCount (s : State) : Nat := s.tilesIn tsHole + s.tilesIn tsRetired

/-! ### The offered set (R21) -/

/-- Withdraw `k` candidates: each from the field with the most left, the lowest field on a tie, the highest number of it. `fields` lists each field's candidates, highest first. Answers the numbers withdrawn. -/
def withdraw : Nat → List (List Nat) → List Nat
  | 0, _ => []
  | k + 1, fields =>
    let m := fields.foldl (fun a l => max a l.length) 0
    let f := fields.findIdx (fun l => l.length == m)
    match fields.getD f [] with
    | [] => []
    | n :: rest => n :: withdraw k (fields.set f rest)

/-- The candidates of a field, highest number first: its regular positions that are not HOLE (R21). -/
def candidates (holes : List Nat) (f : Nat) : List Nat :=
  (allTiles.filter (fun n => fieldNo n == f && !isReserveCol n && !holes.contains n)).reverse

/-- The positions withdrawn into RESERVE by R21. -/
def withdrawn (holes : List Nat) (grade : Nat) : List Nat :=
  let fields := (List.range 6).map (candidates holes)
  withdraw ((fields.map List.length).sum - grade) fields

/-- Derive the offered set from the fuses and store the plan (R21). A tile already RETIRED stays so. -/
def State.deriveOffered (s : State) : State :=
  let w := withdrawn s.floor.holes s.gradeCount
  let s1 := s.each allTiles (fun s n =>
    if s.floor.holes.contains n then s.setTileState n tsHole
    else if isReserveCol n || w.contains n then s.setTileState n tsReserve
    else s.setTileState n tsOffered)
  { s1 with floor := { s1.floor with stored := true } }

/-! ### Replacements (R22) -/

/-- Is a tile the target of a remap in progress (R508, R509)? -/
def State.isTarget (s : State) (n : Nat) : Bool :=
  s.jobs.any (fun e => e.2.elim false (fun j => j.remaps.any (fun r => r.target == n)))

/-- Is a tile eligible to replace a retired position: RESERVE, not chosen, in the pool of the partition that holds the position or in no partition's pool (R22)? The target of a remap in progress is taken already: it becomes a replacement at step 5 of R509. -/
def State.eligible (s : State) (retired n : Nat) : Bool :=
  s.tileState n == tsReserve && !s.isChosen n && !s.isTarget n &&
    (match s.partitionOf n with
     | none => true
     | some q => s.partitionOf retired == some q)

/-- Of two candidates the better: fewest hops, then a regular position, then the lower number (R22, R508). -/
def better (target a b : Nat) : Nat :=
  let ha := hops target a
  let hb := hops target b
  if ha < hb then a else if hb < ha then b
  else if !isReserveCol a && isReserveCol b then a
  else if isReserveCol a && !isReserveCol b then b
  else min a b

/-- The best of a list of candidates. -/
def best (target : Nat) : List Nat → Option Nat
  | [] => none
  | a :: r => match best target r with
    | none => some a
    | some b => some (better target a b)

/-- The eligible tile R22 chooses for a retired position: the retired tile's field first, then the die. -/
def State.replacementFor (s : State) (retired : Nat) : Option Nat :=
  let e := allTiles.filter (s.eligible retired)
  (best retired (e.filter (fun n => fieldNo n == fieldNo retired))).or (best retired e)

/-- Record a replacement (R22). -/
def State.choose (s : State) (retired n : Nat) : State :=
  { s with floor := { s.floor with chosen := s.floor.chosen ++ [(retired, n)] } }

/-- The offered set lost a tile that nothing replaces: its version increments and the module reports DEGRADED; a start does both at its own end (R20, R23, R474, R483). -/
def State.shrink (s : State) : State :=
  if s.boot.active then s
  else (s.count 0x2000 0 0 32).report { cls := 0x13, suspect := ⟨13, 0⟩, reporter := ⟨13, 0⟩, status := stDegraded }

/-- Choose the replacement of a retired offered tile, if any is eligible (R22, R23). -/
def State.chooseReplacement (s : State) (retired : Nat) : State :=
  (s.replacementFor retired).elim s.shrink (s.choose retired)

/-- At a job load, the replacements chosen enter OFFERED and the floor plan's version increments (R22). -/
def State.admitReplacements (s : State) : State :=
  if s.floor.chosen.isEmpty then s
  else
    let s1 := s.each s.chosenReserve (fun s n => s.setTileState n tsOffered)
    ({ s1 with floor := { s1.floor with chosen := [] } }).count 0x2000 0 0 32

end Sys2Proof.Machine
end

