-- ==== Sys2Proof/Machine/Routes.lean ====
section
/-! DEFINITION. Routes over the mesh: embankment ports and edge chains (R25, R26), the address interleaves (R304, R305, R310), detour entries (R177, R178) and the walk of a packet (R176, R179). -/

namespace Sys2Proof.Machine

/-! ### Embankment ports (R25, R26) -/

/-- The edge position of port k of HBM stack h (R25, R305). -/
def hbmPortPos (h k : Nat) : Nat :=
  let f := h / 2
  posOf (17 * (f % 3) + 8 * (h % 2) + k) (if f < 3 then 0 else 23)

/-- The edge position of Causeway port Pk (R25). -/
def causewayPos (k : Nat) : Nat :=
  if k < 8 then posOf 50 (3 * k + 1)
  else if k < 12 then posOf 0 (2 * (k - 8) + 1)
  else posOf 0 (16 + 2 * (k - 12))

/-- The edge position of UCIe module m (R25). -/
def uciePos (m : Nat) : Nat := posOf 0 (8 + m)

/-- The positions of the edge chain through an edge position: one edge of one field; `upright` for a west or east edge (R26). DEDUCED: a chain holds every edge position of its field's edge. -/
def chainOf (n : Nat) (upright : Bool) : List Nat :=
  allTiles.filter (fun p => fieldNo p == fieldNo n && (if upright then xOf p == xOf n else yOf p == yOf n))

/-- The usable position of a list nearest to `n`, the lower number on a tie (R26). -/
def nearestUsable (s : State) (n : Nat) (ps : List Nat) : Option Nat :=
  ps.foldl (fun acc p =>
    if s.usable p then
      match acc with
      | none => some p
      | some a => if hops n p < hops n a then some p else some a
    else acc) none

/-- Where an embankment port enters and leaves the mesh; none where it is unreachable (R26). -/
def State.entryPos (s : State) (n : Nat) (upright : Bool) : Option Nat :=
  if s.usable n then some n else nearestUsable s n (chainOf n upright)

/-- The UCIe position a tile's DDR5 requests use: the nearest usable UCIe port on the west edge (R28). DESIGN CHOICE (notes/assumptions/111.md): a module is usable unless it is RETIRED, nearness counts mesh hops to the position the port uses, and of two equally near ports the lower-numbered position serves. -/
def State.ucieEntry (s : State) (from' : Nat) : Option Nat :=
  let up := (List.range 8).filter (fun m => s.obj (0x3210 + m) 0 != 3)
  let ps := up.filterMap (fun m => s.entryPos (uciePos m) true)
  nearestUsable s from' ps

/-! ### Address interleaves (R304, R305, R310) -/

/-- 256 GiB. -/
abbrev regionBytes : Nat := 0x4000000000

/-- The pseudo-channel index p of an HBM address within its region (R304). -/
def hbmPseudo (a : Nat) : Nat :=
  let u := a % regionBytes / 256
  let l := u / 128
  (u % 128) ^^^ (l % 128) ^^^ (l / 128 % 128) ^^^ (l / 16384 % 128) ^^^ (l / 2097152 % 128)

/-- The stack that serves an HBM address (R304). -/
def hbmStack (a : Nat) : Nat := 2 * (a / regionBytes) + hbmPseudo a / 64

/-- The channel, pseudo-channel, bank, row of an HBM address (R304). -/
def hbmChannel (a : Nat) : Nat := hbmPseudo a % 64 / 2
def hbmBank (a : Nat) : Nat := a % regionBytes / 256 / 128 / 131072
def hbmRow (a : Nat) : Nat := a % regionBytes / 256 / 128 % 131072 / 4

/-- The edge position of the port that serves an HBM address (R305). -/
def hbmPortOf (a : Nat) : Nat := hbmPortPos (hbmStack a) (hbmChannel a / 4)

/-- The DDR5 channels in the interleave (R310). -/
def State.ddrUsed (s : State) : List Nat := bitsOf (s.obj 0x3100 2) 16

/-- The channel and DIMM byte of a DDR5 address (R310). -/
def State.ddrDecode (s : State) (d : Nat) : Nat × Nat :=
  let us := s.ddrUsed
  let u := d / 256
  (us.getD (u % us.length) 0, u / us.length * 256 + d % 256)

/-! ### Detour entries (R177, R178) -/

/-- The four directions, in the order of R177. -/
inductive Dir where
  | north | east | south | west
  deriving DecidableEq, Repr

/-- The neighbour in a direction, if inside the die. -/
def neighbour (n : Nat) : Dir → Option Nat
  | .north => if yOf n = 0 then none else some (n - 51)
  | .south => if yOf n = 23 then none else some (n + 51)
  | .east => if xOf n = 50 then none else some (n + 1)
  | .west => if xOf n = 0 then none else some (n - 1)

/-- The length of the run of non-forwarding positions that starts at the neighbour (R178). -/
def State.blockedRun (s : State) : Nat → Nat → Dir → Nat
  | 0, _, _ => 0
  | fuel + 1, n, d =>
    match neighbour n d with
    | some m => if s.forwards m then 0 else 1 + State.blockedRun s fuel m d
    | none => 0

/-- Do the positions (x, a) to (x, b) of a column all forward? -/
def State.columnClear (s : State) (x a b : Nat) : Bool :=
  (List.range (max a b - min a b + 1)).all (fun i => s.forwards (posOf x (min a b + i)))

/-- Do the positions (a, y) to (b, y) of a row all forward? -/
def State.rowClear (s : State) (y a b : Nat) : Bool :=
  (List.range (max a b - min a b + 1)).all (fun i => s.forwards (posOf (min a b + i) y))

/-- The code of a waypoint (R177). -/
def wpCode (x y : Nat) : Nat := x * 32 + y

/-- No detour exists (R177). -/
abbrev noWaypoint : Nat := 0x7FF

/-- The candidates of a coordinate in order of nearness, the lower (north or west) first on a tie. -/
def nearestFirst (v bound : Nat) : List Nat :=
  (List.range bound).flatMap (fun i =>
    (if i + 1 ≤ v then [v - (i + 1)] else []) ++ (if v + i + 1 < bound then [v + i + 1] else []))

/-- The waypoint of a detour in a direction whose neighbour does not forward (R178). -/
def State.waypoint (s : State) (n : Nat) (d : Dir) : Nat :=
  let r := s.blockedRun 51 n d
  let x := xOf n
  let y := yOf n
  match d with
  | .east =>
    let x' := x + r + 1
    if x' > 50 then noWaypoint
    else match (nearestFirst y 24).find? (fun y' => s.columnClear x y y' && s.rowClear y' x x') with
      | some y' => wpCode x y'
      | none => noWaypoint
  | .west =>
    if x < r + 1 then noWaypoint
    else match (nearestFirst y 24).find? (fun y' => s.columnClear x y y' && s.rowClear y' (x - (r + 1)) x) with
      | some y' => wpCode x y'
      | none => noWaypoint
  | .south =>
    let y' := y + r + 1
    if y' > 23 then noWaypoint
    else if !s.forwards (posOf x y') then noWaypoint
    else match (nearestFirst x 51).find? (fun x' => s.rowClear y x x' && s.columnClear x' y y') with
      | some x' => wpCode x' y'
      | none => noWaypoint
  | .north =>
    if y < r + 1 then noWaypoint
    else if !s.forwards (posOf x (y - (r + 1))) then noWaypoint
    else match (nearestFirst x 51).find? (fun x' => s.rowClear y x x' && s.columnClear x' (y - (r + 1)) y) with
      | some x' => wpCode x' (y - (r + 1))
      | none => noWaypoint

/-- The 12 bits of one direction of a detour entry (R177). -/
def State.detourField (s : State) (n : Nat) (d : Dir) : Nat :=
  match neighbour n d with
  | some m => if s.forwards m then 0 else 0x800 + s.waypoint n d
  | none => 0

/-- The detour entry of a router (R177, R178). -/
def State.detourOf (s : State) (n : Nat) : Nat :=
  s.detourField n .west + s.detourField n .south * 2 ^ 12 + 2 ^ 24 * s.detourField n .east
    + 2 ^ 36 * s.detourField n .north

/-- The stored field of a direction: valid bit and waypoint (R177). -/
def State.detourAt (s : State) (n : Nat) (d : Dir) : Bool × Nat :=
  let lo := match d with
    | .west => 0
    | .south => 12
    | .east => 24
    | .north => 36
  (bitOf (s.obj (tileIx n) 0x50) (lo + 11), fieldOf (s.obj (tileIx n) 0x50) lo 11)

/-- Count a detour event in the table of a partition, or of the positions outside every partition (R177). -/
def State.countDetour (s : State) : Option Nat → State
  | some q => s.count (0x2030 + q) 0 0 32
  | none => s.count 0x203C 0 0 32

/-- Write the detour entries of some routers. -/
def State.writeDetours (s : State) (ns : List Nat) : State :=
  s.each (ns.filter (fun n => s.tileState n != tsHole)) (fun t n => t.setObj (tileIx n) 0x50 0 (s.detourOf n))

/-- Write the detour entries of some routers and count one event for each table that changed; answers the routers that changed (R177, R181). The router of a HOLE has never forwarded: its entry reads 0 (R191). -/
def State.setDetours (s : State) (ns : List Nat) : State × List Nat :=
  let changed := ns.filter (fun n => s.tileState n != tsHole && s.obj (tileIx n) 0x50 != s.detourOf n)
  let s1 := s.each changed (fun t n => t.setObj (tileIx n) 0x50 0 (s.detourOf n))
  let owners := (changed.map s.partitionOf).eraseDups
  (s1.each owners State.countDetour, changed)

/-- The neighbours of a position. -/
def neighbours (n : Nat) : List Nat := [Dir.north, .east, .south, .west].filterMap (neighbour n)

/-! ### The walk of a packet (R176, R179) -/

/-- The direction of the next hop towards the end of a leg: X first, then Y; none at the leg's end (R176). -/
def nextDir (n lx ly : Nat) : Option Dir :=
  if xOf n < lx then some .east
  else if lx < xOf n then some .west
  else if yOf n < ly then some .south
  else if ly < yOf n then some .north
  else none

/-- What a router does with a head flit (R179). -/
inductive Hop where
  | eject
  | turn
  | forward (to' : Nat) (d : Dir)
  | detour (wx wy : Nat)
  | fenced
  | refused
  deriving DecidableEq, Repr

/-- The decision of R179 at router `n` for a packet of class `vc`, leg end (lx, ly) and destination (dx, dy). -/
def State.hop (s : State) (n vc lx ly dx dy : Nat) : Hop :=
  match nextDir n lx ly with
  | none => if lx = dx ∧ ly = dy then .eject else .turn
  | some d =>
    match neighbour n d with
    | none => .fenced
    | some m =>
      if s.forwards m then .forward m d
      else if m = posOf dx dy ∨ m = posOf lx ly then .fenced
      else
        let wp := (s.detourAt n d).2
        if !(s.detourAt n d).1 || wp = noWaypoint || vc ≥ 2 then .refused
        else .detour (wp / 32) (wp % 32)

/-- The routers a packet passes from `n` to its destination; none where its route fails (R176, R179, R180). -/
def State.walk (s : State) : Nat → Nat → Nat → Nat → Nat → Nat → Nat → Option (List Nat)
  | 0, _, _, _, _, _, _ => none
  | fuel + 1, n, vc, lx, ly, dx, dy =>
    match s.hop n vc lx ly dx dy with
    | .eject => some [n]
    | .turn => State.walk s fuel n vc dx dy dx dy
    | .forward m _ => (State.walk s fuel m vc lx ly dx dy).map (fun r => n :: r)
    | .detour wx wy => State.walk s fuel n (vc + 1) wx wy dx dy
    | .fenced => none
    | .refused => none

/-- The route from one position to another. -/
def State.route (s : State) (a b : Nat) : Option (List Nat) :=
  s.walk 400 a 0 (xOf b) (yOf b) (xOf b) (yOf b)

/-- Does the route pass the check of R180? -/
def State.routeOk (s : State) (a b : Nat) : Bool := (s.route a b).isSome

end Sys2Proof.Machine
end

