-- ==== Sys2Proof/Machine/Tiles.lean ====
section
/-! DEFINITION. A tile's parts as the commands use them: reports, the scratchpad behind its decoder, handles, gauges, the queue objects and the command store (04, 05, 08). -/

namespace Sys2Proof.Machine

/-! ### Access -/

/-- A tile position. -/
def State.tile (s : State) (n : Nat) : Tile := Tbl.get s.tiles {} n

/-- Replace a tile position. -/
def State.setTile (s : State) (n : Nat) (t : Tile) : State := { s with tiles := Tbl.put s.tiles {} n t }

/-- Change a tile position. -/
def State.modTile (s : State) (n : Nat) (f : Tile → Tile) : State := s.setTile n (f (s.tile n))

/-- Change a tile's array. -/
def State.modArr (s : State) (n : Nat) (f : ArrayUnit → ArrayUnit) : State :=
  s.modTile n (fun t => { t with arr := f t.arr })

/-- Change a tile's mover. -/
def State.modMov (s : State) (n : Nat) (f : Mover → Mover) : State :=
  s.modTile n (fun t => { t with mov := f t.mov })

/-- Change a tile's gauge unit. -/
def State.modGau (s : State) (n : Nat) (f : GaugeUnit → GaugeUnit) : State :=
  s.modTile n (fun t => { t with gau := f t.gau })

/-- Change what a queue of a tile holds. -/
def State.modQueue (s : State) (n q : Nat) (f : QueueUnit → QueueUnit) : State :=
  s.modTile n (fun t => { t with qs := Tbl.put t.qs {} q (f (Tbl.get t.qs {} q)) })

/-- What a queue of a tile holds. -/
def State.queue (s : State) (n q : Nat) : QueueUnit := Tbl.get (s.tile n).qs {} q

/-- The job of a partition. -/
def State.job (s : State) (q : Nat) : Option Job := Tbl.get s.jobs none q

/-- Replace the job of a partition. -/
def State.setJob (s : State) (q : Nat) (j : Option Job) : State := { s with jobs := Tbl.put s.jobs none q j }

/-- Change the job of a partition, if it holds one. -/
def State.modJob (s : State) (q : Nat) (f : Job → Job) : State :=
  match s.job q with
  | some j => s.setJob q (some (f j))
  | none => s

/-- Object 5010+q:00 (R231). -/
def State.jobState (s : State) (q : Nat) : Nat := s.obj (0x5010 + q) 0

/-- Set object 5010+q:00. -/
def State.setJobState (s : State) (q v : Nat) : State := s.setObj (0x5010 + q) 0 0 v

abbrev jsNone : Nat := 0
abbrev jsLoading : Nat := 1
abbrev jsWaiting : Nat := 2
abbrev jsStepping : Nat := 3
abbrev jsDraining : Nat := 4
abbrev jsSaved : Nat := 5
abbrev jsEnding : Nat := 6
abbrev jsHalted : Nat := 7

/-- Is every partition's job NONE (R11, R352)? -/
def State.allJobsNone (s : State) : Bool := partitionNumbers.all (fun q => s.jobState q == jsNone)

/-- Object 5010+q:05, the step counter. -/
def State.step' (s : State) (q : Nat) : Nat := s.obj (0x5010 + q) 5

/-- The job identifier of a partition's job; 0 with none. -/
def State.jobId (s : State) (q : Nat) : Nat := match s.job q with
  | some j => j.hdr.jobId
  | none => 0

/-- The partition whose job holds a tile. -/
def State.ownerOf (s : State) (n : Nat) : Option Nat := (s.tile n).owner

/-- The logical number of a tile (R20). -/
def State.logicalOf (s : State) (n : Nat) : Nat := s.obj (tileIx n) 4

/-- The position of a logical tile in a partition's job (R175). -/
def State.physicalOf (s : State) (q logical : Nat) : Option Nat :=
  match s.job q with
  | some j => j.map[logical]?
  | none => none

/-- The identifier the device carries in packets: 0 while it has none (R193). -/
def State.ownDevice (s : State) : Nat := if s.obj 0x4000 0 = 0xFFFF then 0 else s.obj 0x4000 0

/-! ### Fault classes, suspects and reports (R491-R493) -/

abbrev clNumericRange : Nat := 0x01
abbrev clBankCollision : Nat := 0x02
abbrev clProgram : Nat := 0x03
abbrev clWaitTimeout : Nat := 0x04
abbrev clTileData : Nat := 0x05
abbrev clTransfer : Nat := 0x06
abbrev clFabricLink : Nat := 0x07
abbrev clFabricPath : Nat := 0x08
abbrev clMemoryCorrected : Nat := 0x09
abbrev clMemoryUncorrectable : Nat := 0x0A
abbrev clLink : Nat := 0x0B
abbrev clTiming : Nat := 0x0C
abbrev clPower : Nat := 0x0D
abbrev clClock : Nat := 0x0E
abbrev clThermal : Nat := 0x0F
abbrev clStorage : Nat := 0x10
abbrev clOperator : Nat := 0x11
abbrev clCadenceMiss : Nat := 0x12
abbrev clRecovery : Nat := 0x13
abbrev clSilentData : Nat := 0x14

/-- The 16-bit suspect code (R492). -/
def susCode (x : Suspect) : Nat := x.kind * 4096 + x.number

abbrev susNone : Suspect := ⟨0, 0⟩
abbrev susTile (n : Nat) : Suspect := ⟨1, n⟩
abbrev susCluster (c : Nat) : Suspect := ⟨2, c⟩
abbrev susField (f : Nat) : Suspect := ⟨3, f⟩
abbrev susStack (h : Nat) : Suspect := ⟨4, h⟩
abbrev susChannel (c : Nat) : Suspect := ⟨5, c⟩
abbrev susUcie (m : Nat) : Suspect := ⟨6, m⟩
abbrev susPort (k : Nat) : Suspect := ⟨7, 8 * k + 7⟩
abbrev susLane (k lane : Nat) : Suspect := ⟨7, 8 * k + lane⟩
abbrev susBlock (b : Nat) : Suspect := ⟨8, b⟩
abbrev susRail (r : Nat) : Suspect := ⟨9, r⟩
abbrev susReeve (u : Nat) : Suspect := ⟨10, u⟩
abbrev susDevice (d : Nat) : Suspect := ⟨11, d⟩
abbrev susPartition (q : Nat) : Suspect := ⟨12, q⟩
abbrev susModule : Suspect := ⟨13, 0⟩

/-- A port. -/
def State.port (s : State) (k : Nat) : Port := Tbl.get s.ports {} k

/-- Change a port. -/
def State.modPort (s : State) (k : Nat) (f : Port → Port) : State := { s with ports := Tbl.put s.ports {} k (f (s.port k)) }

/-- Is the compute die closed as a whole: new requests are answered FENCED (R503, R504, R516)? -/
def State.deviceClosed (s : State) : Bool := s.faults.closing.any (fun e => e.1 == .device) || s.faults.recovery == .quiesced

/-- A report about a partition's job (R493). -/
def State.reportFor (s : State) (q : Option Nat) (cls : Nat) (suspect reporter : Suspect)
    (status detail : Nat) (closed : Option Suspect := none) : State :=
  s.report { cls := cls, suspect := suspect, reporter := reporter, status := status,
             partition := q.getD 0xF, job := (q.map s.jobId).getD 0, step := (q.map s.step').getD 0,
             detail := detail, closedUnit := closed }

/-- A report by a tile that names itself (R125, R493). -/
def State.tileReport (s : State) (n cls status detail : Nat) (closed : Option Suspect := none) : State :=
  s.reportFor (s.ownerOf n) cls (susTile n) (susTile n) status detail closed

/-! ### The scratchpad (R83, R103-R105) -/

/-- Write a row, encoded afresh (R103). -/
def State.writeSpad (s : State) (n bank row : Nat) (d : Row) : State :=
  s.modTile n (fun t => { t with spad := Tbl.put t.spad 0 (bank * 1024 + row) (encodeRow d) })

/-- Queue a row for sparing at the next scrub (R84, R104). -/
def State.queueSparing (s : State) (n bank row : Nat) : State :=
  if (s.tile n).queued.contains (bank, row) then s
  else
    let s1 := s.modTile n (fun t => { t with queued := t.queued ++ [(bank, row)] })
    s1.count (tileIx n) 0x26 bank 8

/-- Track a corrected read: distinct steps of up to 4 rows of the bank; the fourth queues the row (R104). -/
def State.trackRow (s : State) (n bank row : Nat) : State :=
  let step := s.obj (tileIx n) 0x38
  let tr := (s.tile n).tracker
  match tr.find? (fun t => t.bank == bank && t.row == row) with
  | some t =>
    if t.step = step then s
    else
      let s1 := s.modTile n (fun u => { u with tracker := u.tracker.map (fun x =>
        if x.bank = bank ∧ x.row = row then { x with count := x.count + 1, step := step } else x) })
      if t.count + 1 = 4 then s1.queueSparing n bank row else s1
  | none =>
    if (tr.filter (fun t => t.bank == bank)).length < 4 then
      s.modTile n (fun u => { u with tracker := u.tracker ++ [⟨bank, row, 1, step⟩] })
    else s

/-- Read a row through the decoder: corrections and failures are counted; none where it decodes uncorrectable (R103-R105). -/
def State.readSpad (s : State) (n bank row : Nat) : State × Option Row :=
  match decodeWord (Tbl.get (s.tile n).spad 0 (bank * 1024 + row)) with
  | .clean d => (s, some d)
  | .corrected d => ((s.count (tileIx n) 0x23 bank 32).trackRow n bank row, some d)
  | .bad => (((s.count (tileIx n) 0x24 0 32).queueSparing n bank row).tileReport n clTileData stUncorrectable (bank * 1024 + row), none)

/-- Replace a row by a spare of its bank, if one is left (R84, R98). -/
def State.spareRow (s : State) (n bank row : Nat) : State × Bool :=
  if s.obj (tileIx n) 0x25 bank = 0 then (s, false)
  else
    ((s.setObj (tileIx n) 0x25 bank (s.obj (tileIx n) 0x25 bank - 1)).modTile n (fun t =>
      { t with spared := t.spared ++ [(bank, row)] }), true)

/-- What a completed scrub of a tile leaves, whose router the scrub does not touch: queued rows spared, handles, scratchpad, accumulator file, array registers, gauges, snapshots and pending entries cleared (R81, R97, R104, R194). DESIGN CHOICE (notes/assumptions/117.md): a queued row whose bank has no spare leaves the queue, and its bank goes on with the row (R84). -/
def State.wipeTile (s : State) (n : Nat) : State :=
  let s1 := s.each (s.tile n).queued (fun t r => (t.spareRow n r.1 r.2).1)
  let s2 := s1.each (List.range 12) (fun t b => t.setObj (tileIx n) 0x26 b 0)
  let s3 := s2.each (List.range 64) (fun t h => t.setObj (tileIx n) 0x20 h 0)
  let s4 := s3.modTile n (fun t => { owner := t.owner, store := t.store, spared := t.spared, before := t.before, cause := t.cause,
                                     inputs := t.inputs, parity := t.parity, through := t.through, drains := t.drains })
  ((s4.setObj (tileIx n) 0x29 0 s.tide).setObj (tileIx n) 0x2A 0 0).setObj (tileIx n) 0x27 0 0

/-! ### Handles (R85-R89) -/

/-- The handle entry of a tile (R85). -/
def State.handle (s : State) (n h : Nat) : Nat := s.obj (tileIx n) 0x20 h

def hValid (e : Nat) : Bool := bitOf e 63
def hMask (e : Nat) : Nat := fieldOf e 40 12
def hLength (e : Nat) : Nat := fieldOf e 26 14
def hBase (e : Nat) : Nat := fieldOf e 16 10

/-- The rights bits of R86, as bit numbers of the entry. -/
abbrev hrStream : Nat := 62
abbrev hrStationary : Nat := 61
abbrev hrVecRead : Nat := 60
abbrev hrVecWrite : Nat := 59
abbrev hrMoveRead : Nat := 58
abbrev hrMoveWrite : Nat := 57
abbrev hrRemoteRead : Nat := 56
abbrev hrRemoteWrite : Nat := 55

/-- The bank and bank row of buffer row `i` (R87). -/
def hPlace (e i : Nat) : Nat × Nat :=
  let bs := bitsOf (hMask e) 12
  (bs.getD (i % bs.length) 0, hBase e + i / bs.length)

/-- The status that an access of `rows` rows from `first` through an entry meets; none where it is allowed (R89). -/
def handleCheck (e right first rows : Nat) : Option Nat :=
  if !hValid e || !bitOf e right then some stAccessDenied
  else if first + rows > hLength e then some stBadValue
  else none

/-- Is an entry of SET_HANDLE acceptable, with the entry stored: an invalid entry clears the handle (R88)? -/
def handleEntry (e : Nat) : Option Nat :=
  if fieldOf e 52 3 ≠ 0 ∨ fieldOf e 0 16 ≠ 0 then none
  else if !hValid e then some 0
  else
    let k := popCount (hMask e) 12
    if k = 0 ∨ hLength e = 0 ∨ hLength e > 12288 then none
    else if hBase e + (hLength e + k - 1) / k > 1024 then none
    else some e

/-- Read `count` buffer rows through an entry from row `first`; none once a row decodes uncorrectable. -/
def State.readRows (s : State) (n e : Nat) : Nat → Nat → State × Option (List Row)
  | _, 0 => (s, some [])
  | first, count + 1 =>
    match s.readSpad n (hPlace e first).1 (hPlace e first).2 with
    | (s1, none) => (s1, none)
    | (s1, some d) =>
      match State.readRows s1 n e (first + 1) count with
      | (s2, none) => (s2, none)
      | (s2, some ds) => (s2, some (d :: ds))

/-- Write buffer rows through an entry from row `first`. -/
def State.writeRows (s : State) (n e : Nat) : Nat → List Row → State
  | _, [] => s
  | first, d :: ds => State.writeRows (s.writeSpad n (hPlace e first).1 (hPlace e first).2 d) n e (first + 1) ds

/-! ### Collisions (R91-R93) -/

/-- Has an engine lost in each of the 4 cycles of a bank before cycle `c` (R91)? -/
def agedAt (gs : List Grant) (bank c e : Nat) : Bool :=
  (List.range 4).all (fun k => gs.any (fun g => g.bank == bank && g.cycle + k + 1 == c && g.losers.contains e))

/-- The engine the port grants: an aged access first, then the lowest code (R91). -/
def grantOf (gs : List Grant) (x : Contest) : Nat :=
  (x.ready.filter (agedAt gs x.bank x.cycle)).min?.getD (x.ready.min?.getD 0)

/-- A port grants a contested cycle, which counts once, and once more for each scheduled engine that loses it (R91-R93). A cycle granted before stays as it was granted. -/
def State.contest (s : State) (n : Nat) (x : Contest) : State :=
  let gs := (s.tile n).grants
  if gs.any (fun g => g.bank == x.bank && g.cycle == x.cycle) then s
  else
    let won := grantOf gs x
    let losers := x.ready.filter (fun y => y ≠ won)
    let fresh := [0, 1, 2].filter (fun e => losers.contains e && !gs.any (fun g => g.cycle == x.cycle && g.losers.contains e))
    let s1 := s.modTile n (fun t => { t with grants := ⟨x.bank, x.cycle, won, losers⟩ :: t.grants })
    let s2 := (s1.count (tileIx n) 0x21 x.bank 32).count (tileIx n) 0x22 0 64 fresh.length
    s2.setObj (tileIx n) 0x2C 0 (s.tide % 2 ^ 48 * 65536 + x.bank * 4096 + won * 256 + losers.min?.getD 0 * 16)

/-- The contested cycles that a command of engine `e` meets in the banks it claims, from cycle `c` on; answers whether it met one (R90, R91, R93). -/
def State.collide (s : State) (n : Nat) (hits : List Contest) (e c : Nat) (banks : List Nat) : State × Bool :=
  let own := hits.filter (fun x => x.ready.contains e && banks.contains x.bank && decide (c ≤ x.cycle))
  (s.each own (fun s x => s.contest n x), !own.isEmpty)

/-- The cycles from `c` on in which an access of an engine lost (R92). -/
def State.lostCycles (s : State) (n e c : Nat) : List Nat :=
  (((s.tile n).grants.filter (fun g => g.losers.contains e && decide (c ≤ g.cycle))).map (·.cycle)).eraseDups

/-- The cycle of an access placed in cycle `base`, when its engine has lost the cycles `ks`: each loss delays it and what follows by one cycle, and nothing before (R92). -/
def slipped (ks : List Nat) (base : Nat) : Nat :=
  ks.foldl (fun t _ => base + ks.countP (fun k => decide (k ≤ t))) base

/-- The report of a command that met a collision, sent when it completes (R93). -/
def State.collisionReport (s : State) (n : Nat) (met : Bool) : State :=
  if met then s.tileReport n clBankCollision 0 0 else s

/-- The banks of a handle entry (R85, R90). -/
def hBanks (e : Nat) : List Nat := bitsOf (hMask e) 12

/-- Is a position closed or retired: its registers stand frozen, its engines stopped (R56, R504)? -/
def State.stopped (s : State) (n : Nat) : Bool := s.tileState n == tsClosed || s.tileState n == tsRetired

/-! ### Gauges (R192-R197, R208-R216) -/

/-- A gauge of a tile. -/
def State.gauge (s : State) (n g : Nat) : Gauge := Tbl.get (s.tile n).gau.gauges {} g

/-- Replace a gauge of a tile. -/
def State.setGauge (s : State) (n g : Nat) (v : Gauge) : State :=
  s.modGau n (fun u => { u with gauges := Tbl.put u.gauges {} g v })

/-- The value of a gauge that a WAIT or a ready condition sees in tile cycle `c`: a change the tile itself makes in a cycle shows in the next one (R128). -/
def State.gaugeAt (s : State) (n g c : Nat) : Nat :=
  let u := s.gauge n g
  if u.cycle = some c then u.prior else u.value

/-- Has a gauge of value `g` reached threshold `t` (R197)? -/
def reached (g t : Nat) : Bool := decide ((g % 2 ^ 32 + 2 ^ 32 - t % 2 ^ 32) % 2 ^ 32 < 2 ^ 31)

/-- Add to a gauge and record the signaller; `other`: the partition of another job from which the addition comes; `cycle`: the tile cycle of a change that the tile makes itself (R128, R195, R209, R221). -/
def State.addGauge (s : State) (n g amount device logical : Nat) (other : Option Nat := none) (cycle : Option Nat := none) : State :=
  let u := s.gauge n g
  let s1 := s.setGauge n g { u with cycle := cycle.or u.cycle, prior := if cycle.isNone ∨ u.cycle = cycle then u.prior else u.value,
                                    value := (u.value + amount) % 2 ^ 32, device := device, logical := logical,
                                    add := amount, tide := s.tide, part := (other.or (s.ownerOf n)).getD 0xF,
                                    other := if other.isSome then (u.other + amount) % 2 ^ 32 else u.other }
  s1.count (tileIx n) 0x64 0 64

/-- Apply a signal of the tile's own job: added while LIVE, discarded and counted while DRAINING, without effect otherwise (R195, R214, R216). -/
def State.signalTile (s : State) (n g amount device logical : Nat) (cycle : Option Nat := none) : State :=
  match (s.tile n).gau.st with
  | .live => s.addGauge n g amount device logical none cycle
  | .draining => s.count (tileIx n) 0x68 0 32
  | _ => s

/-! ### Queue objects and the command store (R116, R121, R125, R143, R145) -/

abbrev qsEmpty : Nat := 0
abbrev qsHeld : Nat := 1
abbrev qsRunning : Nat := 2
abbrev qsStalled : Nat := 3
abbrev qsHaltedFault : Nat := 4
abbrev qsHaltedTimeout : Nat := 5
abbrev qsFrozen : Nat := 6

def State.qState (s : State) (n q : Nat) : Nat := s.obj (tileIx n) 0x30 q
def State.setQState (s : State) (n q v : Nat) : State := s.setObj (tileIx n) 0x30 q v
def State.qPc (s : State) (n q : Nat) : Nat := s.obj (tileIx n) 0x31 q

/-- The command word at a word address; none where its row decodes uncorrectable (R116). -/
def State.cmdWord (s : State) (n addr : Nat) : Option Nat :=
  match decodeWord (Tbl.get (s.tile n).store 0 (addr / 2)) with
  | .clean d => some (fieldOf d.toNat (addr % 2 * 128) 128)
  | .corrected d => some (fieldOf d.toNat (addr % 2 * 128) 128)
  | .bad => none

/-- The opcode of a command word (R122). -/
def opcodeOf (w : Nat) : Nat := fieldOf w 120 8

/-- The image header of a tile, store row 0 (R118). -/
def State.imageHeader (s : State) (n : Nat) : Nat := (decodedRow (Tbl.get (s.tile n).store 0 0)).toNat

/-- A queue's entry address and segment length (R118). -/
def State.qEntry (s : State) (n q : Nat) : Nat := fieldOf (s.imageHeader n) (32 * q) 16
def State.qLength (s : State) (n q : Nat) : Nat := fieldOf (s.imageHeader n) (32 * q + 16) 16

/-- Halt a queue at a failed issue-time check: state, status, one program-fault report (R125). -/
def State.haltFault (s : State) (n q st : Nat) : State :=
  let s1 := s.setQState n q qsHaltedFault
  let s2 := s1.setObj (tileIx n) 0x32 q st
  let s3 := (s2.setObj (tileIx n) 0x33 q 0).setObj (tileIx n) 0x34 q 0
  s3.tileReport n clProgram st (s.qPc n q)

/-- Hold a queue at its head: STALLED, with the start of its wait and its wait target (R142, R143, R145). -/
def State.stall (s : State) (n q target : Nat) : State :=
  let s1 := s.setQState n q qsStalled
  let s2 := if s.obj (tileIx n) 0x33 q = 0 then (s1.setObj (tileIx n) 0x33 q (max s.tide 1)).modQueue n q (fun u => { u with waitAt := s.elapsed }) else s1
  s2.setObj (tileIx n) 0x34 q target

/-- A command issues: the queue runs on at `pc`, free again at cycle `free` (R121, R124, R143). -/
def State.issued (s : State) (n q pc free : Nat) : State :=
  let s1 := (s.setQState n q qsRunning).setObj (tileIx n) 0x31 q pc
  let s2 := (s1.setObj (tileIx n) 0x33 q 0).setObj (tileIx n) 0x34 q 0
  (s2.count (tileIx n) 0x35 q 64).modQueue n q (fun u => { u with free := free })

/-- Steps since the job's first step, modulo 2^32 (R126). -/
def State.stepOffset (s : State) (n : Nat) : Nat :=
  let first := match s.ownerOf n with
    | some q => (s.job q).elim 0 (fun j => j.hdr.firstStep)
    | none => 0
  (s.obj (tileIx n) 0x38 + 2 ^ 64 - first) % 2 ^ 32

/-- The threshold of R126 in step offset `k`. -/
def thresholdAt (base perStep k : Nat) : Nat := (base + perStep * k) % 2 ^ 32

/-- The threshold of R126 with the step register's offset. -/
def State.threshold (s : State) (n base perStep : Nat) : Nat := thresholdAt base perStep (s.stepOffset n)

/-- The wait target of object 2100+n:34. -/
def waitTarget (gauge threshold : Nat) : Nat := 2 ^ 39 + 2 ^ 32 * gauge + threshold

end Sys2Proof.Machine
end

