-- ==== Sys2Proof/Machine/Banks.lean ====
section
/-! DEFINITION. HBM and DDR5 as the module's own blocks and the controllers reach them: far addresses, codewords and bursts, corrections, retirement, the write buffer, the windows of a partition (13, R27, R109). -/

namespace Sys2Proof.Machine

/-! ### Far addresses (R109) -/

/-- The form of a far address (R109). -/
def farForm (a : Nat) : Nat := fieldOf a 62 2
def farDevice (a : Nat) : Nat := fieldOf a 54 8
def farTile (a : Nat) : Nat := fieldOf a 38 16
def farHandle (a : Nat) : Nat := fieldOf a 32 6
def farRow (a : Nat) : Nat := fieldOf a 0 14
def farOffset (a : Nat) : Nat := fieldOf a 0 62

/-! ### Servers -/

/-- A server's controller state. -/
def State.server (s : State) : Server → MemServer
  | .stack h => Tbl.get s.hbms {} h
  | .channel c => Tbl.get s.channels {} c

/-- Replace a server's controller state. -/
def State.setServer (s : State) (srv : Server) (m : MemServer) : State :=
  match srv with
  | .stack h => { s with hbms := Tbl.put s.hbms {} h m }
  | .channel c => { s with channels := Tbl.put s.channels {} c m }

/-- Change a server's controller state. -/
def State.modServer (s : State) (srv : Server) (f : MemServer → MemServer) : State := s.setServer srv (f (s.server srv))

/-- The object index of a server (R323). -/
def serverIx : Server → Nat
  | .stack h => 0x3010 + h
  | .channel c => 0x3110 + c

/-- The suspect a server is (R492). -/
def serverSus : Server → Suspect
  | .stack h => susStack h
  | .channel c => susChannel c

/-- A number for a server, for `Config.repairsOf`. -/
def serverNo : Server → Nat
  | .stack h => h
  | .channel c => 16 + c

/-- Object 3010+h:09 follows the requests in a stack's controller (R308, R323). -/
def State.syncRequests (s : State) (srv : Server) : State :=
  match srv with
  | .stack h =>
    let m := s.server srv
    s.setObj (0x3010 + h) 9 0 (min 2048 ((m.merges.map (fun x => x.reqs.length)).sum + m.waiting.length))
  | .channel _ => s

/-! ### Rows of DDR5 (R311, R312) -/

/-- The bytes of a codeword, least-significant first (R311). -/
def codeBytes (w : Codeword) : List Byte := leBytes 34 w.toNat

/-- The CRC of a burst: codeword 0, codeword 1, the burst's address (R311). -/
def burstCrc (c0 c1 : Codeword) (k : Nat) : Nat := (crc32c (codeBytes c0 ++ codeBytes c1 ++ leBytes 8 k)).toNat

/-- A burst that holds two codewords, both copies of its lane field alike (R311). -/
def burstOf (c0 c1 : Codeword) (k : Nat) : BitVec 640 :=
  let lane := c0.toNat / 2 ^ 256 + 2 ^ 16 * (c1.toNat / 2 ^ 256) + 2 ^ 32 * burstCrc c0 c1 k
  BitVec.ofNat 640 (c0.toNat % 2 ^ 256 + 2 ^ 256 * (c1.toNat % 2 ^ 256) + 2 ^ 512 * lane + 2 ^ 576 * lane)

/-- What a burst that nothing has written reads as: zero data with its lane field (DESIGN CHOICE, notes/assumptions/5.md). -/
def blankBurst (k : Nat) : BitVec 640 := burstOf 0 0 k

/-- Codeword `i` of a burst with the check nibbles of a copy (R311). -/
def burstWord (b : BitVec 640) (copy i : Nat) : Codeword :=
  BitVec.ofNat 272 (fieldOf b.toNat (256 * i) 256 + 2 ^ 256 * fieldOf b.toNat (512 + 64 * copy + 16 * i) 16)

/-- One copy's decision: the two rows and the corrections, where neither codeword fails and the CRC agrees (R312). -/
def burstTry (k : Nat) (b : BitVec 640) (copy : Nat) : Option (Row × Row × Nat) :=
  let d0 := decodeWord (burstWord b copy 0)
  let d1 := decodeWord (burstWord b copy 1)
  if d0 == .bad || d1 == .bad then none
  else
    let r0 := decodedRow (burstWord b copy 0)
    let r1 := decodedRow (burstWord b copy 1)
    if burstCrc (encodeRow r0) (encodeRow r1) k = fieldOf b.toNat (512 + 64 * copy + 32) 32 then
      some (r0, r1, (if encodeRow r0 = burstWord b copy 0 then 0 else 1) + (if encodeRow r1 = burstWord b copy 1 then 0 else 1))
    else none

/-- A burst read: the rows, the corrections, whether the copies differ or copy b was used; none where it is uncorrectable (R312). -/
def burstRead (k : Nat) (b : BitVec 640) : Option (Row × Row × Nat × Bool) :=
  match burstTry k b 0 with
  | some (r0, r1, n) => some (r0, r1, n, fieldOf b.toNat 512 64 != fieldOf b.toNat 576 64)
  | none => (burstTry k b 1).map (fun x => (x.1, x.2.1, x.2.2, true))

/-- The burst that holds a DDR5 row. -/
def State.burst (s : State) (k : Nat) : BitVec 640 := Tbl.get s.ddr (blankBurst k) k

/-- Replace what HBM holds. -/
def State.setHbm (s : State) (t : Tbl Codeword) : State := { s with hbm := t }

/-- Replace what DDR5 holds. -/
def State.setDdr (s : State) (t : Tbl (BitVec 640)) : State := { s with ddr := t }

/-- Write one row of DDR5 into its burst (R311). -/
def State.putDdr (s : State) (row : Nat) (d : Row) : State :=
  let k := row / 2
  let b := s.burst k
  let other := match burstRead k b with
    | some (r0, r1, _, _) => encodeRow (if row % 2 = 0 then r1 else r0)
    | none => burstWord b 0 (1 - row % 2)
  let v := if row % 2 = 0 then burstOf (encodeRow d) other k else burstOf other (encodeRow d) k
  s.setDdr (Tbl.put s.ddr (blankBurst k) k v)

/-- Write one row of HBM (R307). -/
def State.putHbm (s : State) (row : Nat) (d : Row) : State := s.setHbm (Tbl.put s.hbm 0 row (encodeRow d))

/-- Write one row at a server. -/
def State.putRow (s : State) (srv : Server) (row : Nat) (d : Row) : State :=
  match srv with
  | .stack _ => s.putHbm row d
  | .channel _ => s.putDdr row d

/-! ### Addresses (R304, R310) -/

/-- The bank and row of a memory row at its server (R304, R310). -/
def State.bankRow (s : State) (srv : Server) (row : Nat) : Nat × Nat :=
  match srv with
  | .stack _ => (hbmBank (32 * row), hbmPseudo (32 * row) * 32768 + hbmRow (32 * row))
  | .channel _ => Config.ddrBankRow (s.ddrDecode (32 * row)).2

/-- The server and byte address of a window offset (R109, R304, R310). -/
def State.memPlace (s : State) (q form offset : Nat) : Server × Nat :=
  if form = 2 then
    let a := (s.cfg q).ddrBase + offset
    (.channel (s.ddrDecode a).1, a)
  else
    let a := (s.cfg q).hbmBase + offset
    (.stack (hbmStack a), a)

/-- The memory rows that a request covers: far_addr, stride 0 meaning 32 (R109, R171). -/
def State.requestRowsAt (s : State) (q addr rows stride : Nat) : List Nat :=
  let base := if farForm addr = 2 then (s.cfg q).ddrBase else (s.cfg q).hbmBase
  let step := if stride = 0 then 32 else stride
  (List.range rows).map (fun j => (base + farOffset addr + j * step) / 32)

/-! ### Retirement (R317-R319) -/

/-- A bank is retired: counted, and in HBM its span recorded (R319). -/
def State.retireBank (s : State) (srv : Server) (bank : Nat) : State :=
  if (s.server srv).banks.contains bank then s
  else
    let s1 := (s.modServer srv (fun m => { m with banks := m.banks ++ [bank] })).count (serverIx srv) 6 0 16
    match srv with
    | .stack h =>
      let span := regionBytes * (h / 2) + 0x100000000 * bank
      let s2 := { s1 with spans := if s1.spans.contains span then s1.spans else s1.spans ++ [span] }
      if s2.obj (0x3010 + h) 0 = 0 then s2.setObj (0x3010 + h) 0 0 1 else s2
    | .channel _ => s1

/-- A row is retired to a spare of its bank, or its bank is retired where no repair is left; a bank is retired with its ninth row (R318, R319). -/
def State.retireRow (s : State) (srv : Server) (bank row : Nat) : State :=
  let m := s.server srv
  if m.banks.contains bank ∨ m.retired.contains (bank, row) then s
  else
    let n := m.retired.countP (fun r => r.1 == bank)
    if Config.repairsOf (serverNo srv) bank ≤ n then s.retireBank srv bank
    else
      let s1 := ((s.modServer srv (fun x => { x with retired := x.retired ++ [(bank, row)],
                                                      tracker := x.tracker.filter (fun t => !(t.bank == bank && t.row == row)) })).count
                  (serverIx srv) 5 0 16)
      if n + 1 ≥ 9 then s1.retireBank srv bank else s1

/-- The entry a full tracker gives up: the lowest count, the oldest first correction on a tie (R317). -/
def trackVictim (ts : List CorrRow) : Option CorrRow :=
  ts.foldl (fun a t => match a with
    | none => some t
    | some b => if t.count < b.count ∨ (t.count = b.count ∧ t.first < b.first) then some t else some b) none

/-- The rows of DDR5 or HBM that a DTL message covers (R360). -/
def dtlRows (d : DtlMsg) (rows : Nat) : List Nat :=
  (List.range rows).map (fun i => (d.addr + i * (if d.stride = 0 then 32 else d.stride)) / 32)

/-- Is a write to a row buffered or queued at a server (R314)? -/
def State.writeDue (s : State) (srv : Server) (row : Nat) : Bool :=
  let m := s.server srv
  m.wbuf.any (fun w => w.1 == row)
    || m.waiting.any (fun p => (s.requestRowsAt p.partition p.farAddr.toNat p.rows p.stride).contains row)
    || m.dtl.any (fun x => (dtlRows x.2 x.2.cells.length).contains row)

/-- Count a correction of a row in its tracker; a count of 17 within 3,600 s retires the row (R317, R318). -/
def State.trackCorrection (s : State) (srv : Server) (bank row : Nat) : State :=
  let m := s.server srv
  match m.tracker.find? (fun t => t.bank == bank && t.row == row) with
  | some t =>
    let fresh := decide (3600 * secTide + t.first < s.elapsed)
    let c := if fresh then 1 else t.count + 1
    let s1 := s.modServer srv (fun x => { x with tracker := x.tracker.map (fun u =>
      if u = t then { u with count := c, first := if fresh then s.elapsed else u.first } else u) })
    if c ≥ 17 then s1.retireRow srv bank row else s1
  | none =>
    let e : CorrRow := { bank := bank, row := row, count := 1, first := s.elapsed }
    if m.tracker.length < 512 then s.modServer srv (fun x => { x with tracker := x.tracker ++ [e] })
    else match trackVictim m.tracker with
      | some v => s.modServer srv (fun x => { x with tracker := x.tracker.map (fun u => if u = v then e else u) })
      | none => s

/-! ### One row read (R312, R314, R316) -/

/-- Corrected codewords are counted, reported, written back unless a write to the row is buffered or queued, and each is tracked (R314, R317). -/
def State.corrected (s : State) (srv : Server) (row n : Nat) (d : Row) : State :=
  let br := s.bankRow srv row
  let s1 := (s.count (serverIx srv) 2 0 64 n).reportFor none clMemoryCorrected (serverSus srv) (serverSus srv) 0 row
  let s2 := if s.writeDue srv row then s1 else s1.putRow srv row d
  s2.each (List.range n) (fun t _ => t.trackCorrection srv br.1 br.2)

/-- A codeword that decodes uncorrectable is counted and reported (R316). -/
def State.uncorrectable (s : State) (srv : Server) (row : Nat) (q : Option Nat) : State :=
  (s.count (serverIx srv) 3 0 32).reportFor q clMemoryUncorrectable (serverSus srv) (serverSus srv) stUncorrectable row

/-! ### The context table (R268, R269) -/

/-- The descriptor of a context slot. -/
def State.ctx (s : State) (slot : Nat) : Ctx := Tbl.get s.ctxs {} slot

/-- The state code of a descriptor (R269). -/
def CtxState.code : CtxState → Nat
  | .free => 0
  | .idle => 1
  | .active => 2
  | .closing => 3
  | .releasing => 4

/-- A descriptor's 512 bits (R269). -/
def Ctx.word (c : Ctx) : Nat :=
  2 ^ 448 * c.lastStep + 2 ^ 384 * c.seed + 2 ^ 320 * c.mapEntry + 2 ^ 256 * c.commitEntry + 2 ^ 224 * c.epoch
    + 2 ^ 192 * c.tenant + 2 ^ 160 * c.position + 2 ^ 128 * c.lastBoundary + 2 ^ 112 * c.jobId + 2 ^ 96 * c.pages
    + 2 ^ 88 * c.priority + 2 ^ 84 * c.partition + 2 ^ 72 * c.st.code + (if c.opens.isSome then 2 ^ 66 else 0)
    + (if c.damaged then 2 ^ 65 else 0) + (if c.pinned then 2 ^ 64 else 0) + c.fwTag

/-- The rows of the context table. -/
def isTableRow (row : Nat) : Bool := decide (0x800000 ≤ row) && decide (row < 0x880000)

/-- A row of the HBM copy of the context table: half a descriptor, whose states ACTIVE and CLOSING read as IDLE there (R268, R269). -/
def State.tableRow (s : State) (row : Nat) : Row :=
  let c := s.ctx ((row - 0x800000) / 2)
  let w := Ctx.word (if c.st = .active ∨ c.st = .closing then { c with st := .idle } else c)
  BitVec.ofNat 256 (if row % 2 = 0 then w else w / 2 ^ 256)

/-- Read one row of memory, from the write buffer where it is held there (R308, R312, R314, R316). The context table shows the descriptors, and no write but the context cache's reaches it (R268). -/
def State.readMem (s : State) (srv : Server) (row : Nat) (q : Option Nat) : State × Option Row :=
  match (s.server srv).wbuf.reverse.find? (fun w => w.1 == row) with
  | some w => (s, some w.2)
  | none =>
    match srv with
    | .stack _ => if isTableRow row then (s, some (s.tableRow row)) else match decodeWord (Tbl.get s.hbm 0 row) with
      | .clean d => (s, some d)
      | .corrected d => (s.corrected srv row 1 d, some d)
      | .bad => (s.uncorrectable srv row q, none)
    | .channel c => match burstRead (row / 2) (s.burst (row / 2)) with
      | some (r0, r1, n, differ) =>
        let d := if row % 2 = 0 then r0 else r1
        let s1 := if differ then s.count (0x3110 + c) 4 0 32 else s
        (if n = 0 then s1 else s1.corrected srv row n d, some d)
      | none => (s.uncorrectable srv row q, none)

/-- Read rows of memory in order. -/
def State.readMemRows (s : State) (srv : Server) (rows : List Nat) (q : Option Nat) : State × List (Option Row) :=
  rows.foldl (fun acc r =>
    let x := acc.1.readMem srv r q
    (x.1, acc.2 ++ [x.2])) (s, [])

/-- Merges that overlap rows about to be written take their data now and close (R308). -/
def State.closeOverlap (s : State) (srv : Server) (rows : List Nat) : State :=
  (s.server srv).merges.foldl (fun s m =>
    let mine := s.requestRowsAt m.partition m.addr m.rows m.stride
    if m.data.isNone && mine.any (fun r => rows.contains r) then
      let x := s.readMemRows srv mine (some m.partition)
      x.1.modServer srv (fun y => { y with merges := y.merges.map (fun z =>
        if z.id = m.id then { z with open' := false, data := some x.2 } else z) })
    else s) s

/-! ### Blocks on the embankment ring (R27) -/

/-- The server of a memory row: HBM, or DDR5 where `ddr`. -/
def State.rowServer (s : State) (ddr : Bool) (row : Nat) : Server :=
  if ddr then .channel (s.ddrDecode (32 * row)).1 else .stack (hbmStack (32 * row))

/-- A block of the module reads one row of memory. -/
def State.ringRead (s : State) (ddr : Bool) (row : Nat) (q : Option Nat) : State × Option Row :=
  s.readMem (s.rowServer ddr row) row q

/-- Prefetched rows that a write overlaps leave the hold buffer (R258). -/
def State.dropHeld (s : State) (srv : Server) (rows : List Nat) : State :=
  s.modServer srv (fun m => { m with
    hold := m.hold.filter (fun h => !(s.requestRowsAt h.partition h.addr h.rows h.stride).any (fun r => rows.contains r)) })

/-- A block of the module writes one row of memory; where the write buffer holds the row, the write queues behind it (R308). -/
def State.ringWrite (s : State) (ddr : Bool) (row : Nat) (d : Row) : State :=
  let srv := s.rowServer ddr row
  let s1 := (s.closeOverlap srv [row]).dropHeld srv [row]
  if (s1.server srv).wbuf.any (fun w => w.1 == row) then s1.modServer srv (fun m => { m with wbuf := m.wbuf ++ [(row, d)] })
  else s1.putRow srv row d

/-- Read `k` rows as one word, least-significant row first (R4); none where a row decodes uncorrectable. -/
def State.ringWord (s : State) (ddr : Bool) (row : Nat) (q : Option Nat) : Nat → State × Option Nat
  | 0 => (s, some 0)
  | k + 1 =>
    match s.ringRead ddr row q with
    | (s1, none) => (s1, none)
    | (s1, some d) =>
      match State.ringWord s1 ddr (row + 1) q k with
      | (s2, some v) => (s2, some (d.toNat + 2 ^ 256 * v))
      | (s2, none) => (s2, none)

/-- Write `k` rows of a word. -/
def State.ringPut (s : State) (ddr : Bool) (row : Nat) : Nat → Nat → State
  | 0, _ => s
  | k + 1, v => State.ringPut (s.ringWrite ddr row (BitVec.ofNat 256 v)) ddr (row + 1) k (v / 2 ^ 256)

/-- The HBM row at an offset of a partition's window. -/
def State.winRow (s : State) (q offset : Nat) : Nat := ((s.cfg q).hbmBase + offset) / 32

/-- Do `len` bytes from an offset lie in a partition's HBM window? -/
def State.inWindow (s : State) (q offset len : Nat) : Bool := decide (offset + len ≤ (s.cfg q).hbmSize)

end Sys2Proof.Machine
end

