-- ==== Sys2Proof/Machine/Ufr.lean ====
section
/-! DEFINITION. The Ulniuk Fault Records: their CBOR encoding, their signature, and the writing of one (R539, R540). -/

namespace Sys2Proof.Machine

/-! ### CBOR (RFC 8949, definite lengths) -/

/-- The head of a CBOR item: major type and argument in its shortest form. -/
def cborHead (major v : Nat) : List Byte :=
  if v < 24 then [BitVec.ofNat 8 (major * 32 + v)]
  else if v < 2 ^ 8 then BitVec.ofNat 8 (major * 32 + 24) :: beBytes 1 v
  else if v < 2 ^ 16 then BitVec.ofNat 8 (major * 32 + 25) :: beBytes 2 v
  else if v < 2 ^ 32 then BitVec.ofNat 8 (major * 32 + 26) :: beBytes 4 v
  else BitVec.ofNat 8 (major * 32 + 27) :: beBytes 8 v

/-- An unsigned integer. -/
def cborUint (v : Nat) : List Byte := cborHead 0 v

/-- A byte string. -/
def cborBytes (b : List Byte) : List Byte := cborHead 2 b.length ++ b

/-- An array of encoded items. -/
def cborArray (xs : List (List Byte)) : List Byte := cborHead 4 xs.length ++ xs.flatten

/-- A map from unsigned-integer keys to encoded items, in the order given. -/
def cborMap (kv : List (Nat × List Byte)) : List Byte := cborHead 5 kv.length ++ kv.flatMap (fun e => cborUint e.1 ++ e.2)

/-! ### The record (R540) -/

/-- A digest as R540 carries it: the four CRC-64 values, queue 0 first, least-significant byte first. -/
def digestBytes (d : List (BitVec 64)) : List Byte := d.flatMap (fun c => leBytes 8 c.toNat)

/-- A key that is present. -/
def key1 (k : Nat) : Option Nat → List (Nat × List Byte)
  | some v => [(k, cborUint v)]
  | none => []

/-- The keys of a UFR in ascending order, without key 31 (R540). -/
def Ufr.keys (u : Ufr) : List (Nat × List Byte) :=
  [(0, cborUint 1), (1, cborUint u.seq), (2, cborUint u.serial), (3, cborUint u.device), (4, cborUint u.kind),
   (5, cborUint u.cls), (6, cborUint u.suspect)]
    ++ key1 7 u.reporter ++ key1 8 u.count ++ key1 9 (u.times.map (·.1)) ++ key1 10 (u.times.map (·.2))
    ++ [(11, cborUint u.powered)] ++ key1 12 u.status
    ++ key1 13 (u.job.map (·.1)) ++ key1 14 (u.job.map (·.2.1)) ++ key1 15 (u.job.map (·.2.2))
    ++ key1 16 u.logical ++ [(17, cborUint u.verdict), (18, cborArray (u.hist.map cborUint))]
    ++ key1 19 u.detail ++ key1 20 u.flags
    ++ (match u.scour with
        | some xs => [(21, cborMap (xs.zipIdx.map (fun e => (e.2, cborUint e.1))))]
        | none => [])
    ++ (match u.twin with
        | some t => [(22, cborMap ([(0, cborUint t.twin), (1, cborBytes (digestBytes t.p)), (2, cborBytes (digestBytes t.t))] ++ (if t.p'.isEmpty then [] else [(3, cborBytes (digestBytes t.p'))]) ++ [(4, cborUint t.case')]))]
        | none => [])
    ++ [(23, cborUint u.image)]

/-- The bytes of a UFR as object 6060:02 shows it (R540, R541). -/
def Ufr.bytes (u : Ufr) : List Byte :=
  cborMap (u.keys ++ (match u.signature with
    | some g => [(31, cborBytes g)]
    | none => []))

/-- Write a UFR: numbered, stamped, signed where ufr_sign is set, the newest kept; verdicts and differing comparisons also persistently (R539-R541). -/
def State.writeUfr (s : State) (u : Ufr) : State :=
  let seq := s.obj 0x6060 0 + 1
  let u1 : Ufr := { u with seq := seq, serial := s.obj 0x4000 2, device := s.obj 0x4000 0, powered := s.obj 0x6010 1, image := s.running }
  let u2 := if s.obj 0x6060 3 = 1 then { u1 with signature := some (Config.slhSign (cborMap u1.keys)) } else u1
  let s1 := s.setObj 0x6060 0 0 seq
  { s1 with ufrs := (u2 :: s1.ufrs).take 1024,
            ufrKept := if u2.kind = 2 ∨ u2.kind = 4 then (u2 :: s1.ufrKept).take 256 else s1.ufrKept }

/-- The UFR of a sequence number. -/
def State.ufr (s : State) (seq : Nat) : Option Ufr := (s.ufrs ++ s.ufrKept).find? (fun u => u.seq == seq)

end Sys2Proof.Machine
end

