-- ==== Sys2Proof/Machine/Planes.lean ====
section
/-! DEFINITION. The VL planes of the clusters and requests to wake them (17_power_delivery.md R417-R419). -/

namespace Sys2Proof.Machine

/-! ### Planes (R417) -/

abbrev plGated : Nat := 0
abbrev plWaking : Nat := 1
abbrev plOn : Nat := 2
abbrev plGating : Nat := 3
abbrev plDark : Nat := 4

/-- The state of a cluster's plane, object 1040+c:00. -/
def State.plane (s : State) (c : Nat) : Nat := s.obj (0x1040 + c) 0

/-- Set the state of a cluster's plane. -/
def State.setPlane (s : State) (c v : Nat) : State := s.setObj (0x1040 + c) 0 0 v

/-- The request latched at a plane (R399, R417). -/
def State.planeWaits (s : State) (c : Nat) : Option Bool := Tbl.get s.planeLatch none c

/-- Latch, or drop, a request at a plane. -/
def State.latchPlane (s : State) (c : Nat) (r : Option Bool) : State := { s with planeLatch := Tbl.put s.planeLatch none c r }

/-- The wakes of a rail group, which is the 15 clusters of a field (R413). -/
def State.wakeGroup (s : State) (f : Nat) : WakeGroup := Tbl.get s.wakes {} f

/-- Change the wakes of a rail group; object 1020+f:05 shows how many wait. -/
def State.modWakes (s : State) (f : Nat) (g : WakeGroup → WakeGroup) : State :=
  let w := g (s.wakeGroup f)
  { s with wakes := Tbl.put s.wakes {} f w }.setObj (0x1020 + f) 5 0 w.queue.length

/-! ### Wakes (R417-R419) -/

/-- A wake request of a cluster (R417): a gated plane wakes, or waits behind the wake of its rail group; a latched gate is replaced. -/
def State.wakeRequest (s : State) (c : Nat) : State :=
  let f := clusterField c
  if s.plane c = plGated then
    let s1 := s.setPlane c plWaking
    match (s1.wakeGroup f).now with
    | none => s1.modWakes f (fun g => { g with now := some { cluster := c, asked := s.elapsed, interval := s.obj 0x1010 0, due := s.elapsed } })
    | some _ => s1.modWakes f (fun g => { g with queue := g.queue ++ [(c, s.elapsed)] })
  else if s.plane c = plWaking then s.latchPlane c none
  else if s.plane c = plGating then s.latchPlane c (some true)
  else s

end Sys2Proof.Machine
end

