-- ==== Sys2Proof/Machine/Control.lean ====
section
/-! DEFINITION. What the job sequencers and the fault rules share: messages to the members of a job, the history, closing and retiring tiles, the route check, remaps, halts, the abandonment of a step and the end of a job (07 R180, 08 R214, 09 R233, 21). -/

namespace Sys2Proof.Machine

/-! ### Events and members -/

/-- The UCIe module that carries the compute die's own messages: the lowest module that is up, 0 with none. -/
def State.upModule (s : State) : Nat :=
  ((List.range 8).find? (fun m => s.obj (0x3210 + m) 0 == 2)).getD 0

/-- The cells a DTL message takes (R362). -/
def DtlMsg.size (d : DtlMsg) : Nat := d.cells.length + 1

/-- Send a DTL message on a module, `up` towards the compute die; object 3210+m:04 counts the compute die's cells (R359). -/
def State.dtlOut (s : State) (m : Nat) (up : Bool) (d : DtlMsg) : State :=
  if up then s.emit (.dtl m up d) else (s.emit (.dtl m up d)).count (0x3210 + m) 4 0 64 (DtlMsg.size d)

/-- Send an EVENT to the reeve die (R365). -/
def State.event (s : State) (code partition addr extra : Nat) (cells : List Codeword := []) : State :=
  s.dtlOut s.upModule false { dtype := 0x0B, arg := code + extra * 256, partition := partition, addr := addr, cells := cells }

/-- Change the state of a job and report it (R233, R365). -/
def State.toJobState (s : State) (q v : Nat) : State :=
  if s.jobState q = v then s
  else ((s.setJobState q v).modJob q (fun j => { j with since := s.elapsed })).event 0x03 q 0 v

/-- The other members of a job (R511). -/
def State.members (s : State) (q : Nat) : List Nat :=
  match s.job q with
  | some j => if j.barrier then (bitsOf j.group 256).filter (fun d => d ≠ s.ownDevice) else []
  | none => []

/-- Send one CTRL message to a device (R341). -/
def State.control (s : State) (dst mtype : Nat) (body : Nat) : State :=
  s.emit (.control { mtype := mtype, dst := dst, src := s.ownDevice, body := BitVec.ofNat 224 body })

/-- The reserved bits of a CTRL body, as lowest bit and width (R342, R511). -/
def ctrlSpare (mtype : Nat) : List (Nat × Nat) :=
  if mtype = 0x01 then [(0, 100)] else if mtype = 0x02 ∨ mtype = 0x03 then [(0, 204)] else if mtype = 0x04 then [(0, 144)]
  else if mtype = 0x05 then [(0, 80)] else if mtype = 0x06 then [(0, 40)] else if mtype = 0x10 then [(0, 152)]
  else if mtype = 0x11 then [(0, 142), (152, 8)] else if mtype = 0x12 then [(0, 160)] else if mtype = 0x13 then [(0, 134), (142, 18)]
  else if mtype = 0x14 then [(0, 144)] else if mtype = 0x15 then [(0, 80)] else if mtype = 0x16 then [(0, 128)]
  else if mtype = 0x20 ∨ mtype = 0x22 then [(0, 136)] else if mtype = 0x21 then [(0, 144)]
  else if mtype = 0x23 ∨ mtype = 0x24 then [(0, 192)] else []

/-- Are the reserved bits of a CTRL message of a type zero (R5, R341, R342, R511)? -/
def ctrlOk (mtype : Nat) (m : CtrlMsg) : Bool :=
  m.reserved == 0 && (ctrlSpare mtype).all (fun f => fieldOf m.body.toNat f.1 f.2 == 0)

/-- A CTRL message of a type arrives; one with a non-zero reserved bit has no effect, since no answer to it exists (R5). -/
def State.onCtrl (s : State) (mtype : Nat) (m : CtrlMsg) (f : State → State) : State := if ctrlOk mtype m then f s else s

/-- Send a CTRL message about a job and step to every other member (R511-R513). -/
def State.toMembers (s : State) (q mtype step low : Nat) : State :=
  s.each (s.members q) (fun t d => t.control d mtype (2 ^ 208 * s.jobId q + 2 ^ 144 * (step % 2 ^ 64) + 2 ^ 136 * low))

/-- The partition whose loaded job has an identifier. -/
def State.partitionOfJob (s : State) (job : Nat) : Option Nat :=
  partitionNumbers.find? (fun q => (s.job q).isSome && s.jobId q == job)

/-- An event places a partition's job outside R289: its flag, and the step at which the first flag was set (R292, R298). -/
def State.outside (s : State) (q bit : Nat) : State :=
  let f := s.obj (0x5040 + q) 0
  (if f = 0 then s.setObj (0x5040 + q) 1 0 (s.step' q) else s).setObj (0x5040 + q) 0 0 (setBit f bit true)

/-! ### The history (R498-R500) -/

/-- The powered seconds, object 6010:01. -/
def State.powered (s : State) : Nat := s.obj 0x6010 1

/-- The history entry of a suspect and class. -/
def State.hist (s : State) (suspect cls : Nat) : Option HistEntry :=
  s.faults.history.find? (fun h => h.suspect == suspect && h.cls == cls)

/-- The entry that makes room in a full table: the oldest update among those not retired, else the oldest (R498). -/
def histVictim (hs : List HistEntry) : Option HistEntry :=
  let live := hs.filter (fun h => h.verdict ≠ 2)
  let pool := if live.isEmpty then hs else live
  pool.foldl (fun a h => match a with
    | none => some h
    | some b => if h.updated < b.updated then some h else some b) none

/-- A history entry as the flash takes it now (R498). -/
def HistEntry.store (e : HistEntry) (now : Nat) : HistEntry :=
  { e with kept := [e.verdict, e.transient, e.permanent, e.ev0, e.ev1, e.ev2, e.updated], keptAt := now }

/-- The history entry that a start finds in the flash (R498). -/
def HistEntry.restored (e : HistEntry) : HistEntry :=
  { e with verdict := e.kept.getD 0 0, transient := e.kept.getD 1 0, permanent := e.kept.getD 2 0, ev0 := e.kept.getD 3 0,
           ev1 := e.kept.getD 4 0, ev2 := e.kept.getD 5 0, updated := e.kept.getD 6 0, keptAt := 0 }

/-- Is a history entry written to the flash: a verdict at once, other updates at most once per 10 s (R498)? -/
def HistEntry.writes (e : HistEntry) (now : Nat) : Bool := e.verdict != e.kept.getD 0 0 || decide (e.keptAt + 10 * secTide ≤ now)

/-- Keep a history entry, and write it to the flash where its time has come (R498). -/
def State.putHist (s : State) (x : HistEntry) : State :=
  let e := if x.writes s.elapsed then x.store s.elapsed else x
  let same := fun (h : HistEntry) => h.suspect == e.suspect && h.cls == e.cls
  let hs := s.faults.history
  let hs1 :=
    if hs.any same then hs.map (fun h => if same h then e else h)
    else if hs.length < 2048 then hs ++ [e]
    else match histVictim hs with
      | some v => hs.map (fun h => if h = v then e else h)
      | none => hs ++ [e]
  { s with faults := { s.faults with history := hs1 } }

/-- Record one counted event of a suspect; answers whether it is the third within 86,400 powered seconds (R498-R500). -/
def State.countEvent (s : State) (suspect cls : Nat) : State × Bool :=
  let now := s.powered
  let e := (s.hist suspect cls).getD { suspect := suspect, cls := cls }
  let third := e.transient ≥ 2 && decide (now - e.ev1 ≤ 86400)
  (s.putHist { e with verdict := max e.verdict 1, transient := e.transient + 1,
                      ev0 := e.ev1, ev1 := e.ev2, ev2 := now, updated := now }, third)

/-- The part of a history entry that a UFR carries (R540). -/
def HistEntry.five (e : HistEntry) : List Nat := [e.transient, e.permanent, e.ev0, e.ev1, e.ev2]

/-- The verdict and history of a suspect in a class as a UFR carries them (R540). -/
def State.ufrOf (s : State) (kind suspect cls : Nat) : Ufr :=
  let e := (s.hist suspect cls).getD { suspect := suspect, cls := cls }
  { seq := 0, kind := kind, cls := cls, suspect := suspect, verdict := e.verdict, hist := e.five }

/-- Record a permanent verdict and write its UFR (R498, R499, R539). -/
def State.verdict (s : State) (suspect cls : Nat) : State :=
  let e := (s.hist suspect cls).getD { suspect := suspect, cls := cls }
  let s1 := s.putHist { e with verdict := 2, permanent := e.permanent + 1, updated := s.powered }
  s1.writeUfr (s1.ufrOf 2 suspect cls)

/-! ### Closing and retiring tiles (R502-R504, R210, R143) -/

/-- The elapsed count at which the drain of a closure that begins now ends: closure_drain_us later (R503, R519). -/
def State.drainEnd (s : State) : Nat := s.elapsed + nsTide (1000 * s.obj 0x6020 1)

/-- Start the drain of a closed domain and report its closure (R504). -/
def State.closeDomain (s : State) (d : Domain) (unit : Suspect) (q : Option Nat) : State :=
  let s1 := { s with faults := { s.faults with closing := s.faults.closing ++ [(d, s.drainEnd)] } }
  s1.reportFor q clRecovery unit unit 0 0

/-- Freeze the queues of a tile that closes (R143). -/
def State.freezeQueues (s : State) (n : Nat) : State :=
  s.each [0, 1, 2, 3] (fun t q =>
    if t.qState n q = qsEmpty then t else (t.setQState n q qsFrozen).setObj (tileIx n) 0x33 q 0)

/-- The gauges of a tile that closes freeze (R210, R216). -/
def State.freezeGauges (s : State) (n : Nat) : State :=
  s.modGau n (fun u => { u with st :=
    (match u.st with
     | .live => .frozen
     | .draining => .frozen
     | x => x) })

/-- The queues and gauges of every tile freeze, at a closure of the device (R143, R210, R504). -/
def State.freezeDevice (s : State) : State := s.each (Tbl.keys s.tiles) (fun t n => (t.freezeQueues n).freezeGauges n)

/-- Every queue of a tile is EMPTY (R143). -/
def State.emptyQueues (s : State) (n : Nat) : State :=
  s.each [0, 1, 2, 3] (fun t k => ((t.setQState n k qsEmpty).setObj (tileIx n) 0x33 k 0).setObj (tileIx n) 0x34 k 0)

/-- A tile holds no job any more: its queues EMPTY, its numbers unassigned (R20, R145). -/
def State.unassign (s : State) (n : Nat) : State :=
  let s1 := (s.emptyQueues n).modTile n (fun u => { u with owner := none })
  ((s1.setObj (tileIx n) 4 0 0xFFFF).setObj (tileIx n) 5 0 0xFFFF).setObj (tileIx n) 0x37 0 0

/-- A tile leaves its job scrubbed (R20, R97, R145). -/
def State.releaseTile (s : State) (n : Nat) : State := (s.wipeTile n).unassign n

/-- The read-back of a scrub: each row that fails is spared; where its bank has no spare left, object 2100+n:2A reads 0x03 (R97, R98). -/
def State.readBack (s : State) (n : Nat) (bad : List (Nat × Nat)) : State :=
  let r := bad.foldl (fun (acc : State × Bool) x =>
    let y := acc.1.spareRow n x.1 x.2
    (y.1, acc.2 && y.2)) (s, true)
  if r.2 then r.1 else r.1.setObj (tileIx n) 0x2A 0 3

/-- Did the last scrub of a tile fail (R98)? -/
def State.scrubFailed (s : State) (n : Nat) : Bool := s.obj (tileIx n) 0x2A == 3

/-- The read-back of a scrub that no command reports (R97, R98). -/
def State.checkScrub (s : State) (n : Nat) : State := (s.draw.2.readBack n (Config.scrubFails s.draw.1))

/-- A tile leaves its job scrubbed and read back (R97). -/
def State.scrubbed (s : State) (n : Nat) : State := (s.releaseTile n).checkScrub n

/-- A tile that holds no job closes after a scrub that failed; it counts as closed from state `before` (R98, R502, R504). -/
def State.failScrub (s : State) (n before : Nat) : State :=
  ((s.setTileState n tsClosed).modTile n (fun t => { t with before := before, cause := 0, through := true })).closeDomain
    (.tile n) (susTile n) none

/-- A tile scrubbed takes state `st`, or closes where the scrub failed (R98, R233). -/
def State.passScrub (s : State) (n st : Nat) : State := if s.scrubFailed n then s.failScrub n st else s.setTileState n st

/-- The twin run of a partition's job. -/
def State.twinRun (s : State) (q : Nat) : Option TwinRun := (s.job q).bind (·.twin)

/-- The twin prepared for the next step of a partition's job. -/
def State.twinNext (s : State) (q : Nat) : Option TwinRun := (s.job q).bind (·.twinNext)

/-- A tile that joined a job without entering its map, a twin or a remap target, is scrubbed back to RESERVE, unless it has closed (R505, R537). -/
def State.sendBack (s : State) (n : Nat) : State :=
  if s.tileState n = tsClosed then s.modTile n (fun u => { u with owner := none }) else (s.scrubbed n).passScrub n tsReserve

/-- A twin returns to RESERVE (R537). -/
def State.freeTwin (s : State) (t : TwinRun) : State := s.sendBack t.twin

/-- The twin run in progress ends (R537). -/
def State.discardRun (s : State) (q : Nat) : State :=
  match s.twinRun q with
  | some t => (s.modJob q (fun j => { j with twin := none })).freeTwin t
  | none => s

/-- The twin prepared for the next step is given up (R537). -/
def State.discardNext (s : State) (q : Nat) : State :=
  match s.twinNext q with
  | some t => (s.modJob q (fun j => { j with twinNext := none })).freeTwin t
  | none => s

/-- Every twin of a partition is discarded (R537). -/
def State.discardTwin (s : State) (q : Nat) : State := (s.discardRun q).discardNext q

/-- A twin run ends without a comparison, and its step counts as not twinned (R532, R534, R537). -/
def State.dropTwin (s : State) (q : Nat) : State :=
  if (s.twinRun q).isSome then (s.discardRun q).count 0x6050 4 0 32 else s

/-- Does a twin run name a tile, as the primary or as the twin? -/
def TwinRun.names (t : TwinRun) (n : Nat) : Bool := t.primary == n || t.twin == n

/-- The partition in whose twin runs a tile takes part. -/
def State.twinPartition (s : State) (n : Nat) : Option Nat :=
  partitionNumbers.find? (fun q => ((s.twinRun q).toList ++ (s.twinNext q).toList).any (·.names n))

/-- The twin runs that a tile takes part in end INCONCLUSIVE (R532, R537). -/
def State.dropTwinOf (s : State) (n : Nat) : State :=
  match s.twinPartition n with
  | none => s
  | some q =>
    let s1 := if (s.twinRun q).elim false (·.names n) then s.dropTwin q else s
    if (s1.twinNext q).elim false (·.names n) then s1.discardNext q else s1

/-- A chunk that runs on a tile is discarded (R530). -/
def State.discardChunk (s : State) (n : Nat) : State :=
  { s with chunks := s.chunks.filter (fun e => !(e.2.elim false (fun c => c.tile == n))) }

/-- May a tile close (R502)? -/
def State.closable (s : State) (n : Nat) : Bool :=
  let st := s.tileState n
  st == tsReserve || st == tsOffered || st == tsIdle || st == tsActive

/-- A tile's ramp-up no longer waits for the slope budget of its rail group (R437). -/
def State.leaveRamp (s : State) (n : Nat) : State :=
  { s with slopes := Tbl.keep s.slopes {} (fun g => { g with waiting := g.waiting.filter (· ≠ n) }) }

/-- A tile enters CLOSED for faults of a class: new traffic is refused, its queues and gauges freeze, a chunk on it is discarded, a twin run it takes part in ends (R504 step 1, R210, R530, R537). Its router forwards until the entries of its neighbours are set (R181). -/
def State.shutTile (s : State) (n cls : Nat) : State :=
  if s.closable n then
    let st := s.tileState n
    let s0 := ((s.setTileState n tsClosed).discardChunk n).leaveRamp n
    let s1 := ((s0.dropTwinOf n).freezeQueues n).freezeGauges n
    s1.modTile n (fun t => { t with before := st, cause := cls, through := true })
  else s

/-- A tile's own closure (R503, R504). -/
def State.closeTile (s : State) (n : Nat) (cls : Nat := clTileData) : State :=
  if s.closable n then (s.shutTile n cls).closeDomain (.tile n) (susTile n) (s.ownerOf n) else s

/-- A closed tile becomes RETIRED: verdict, its queues EMPTY, its numbers unassigned, its gauges CLEAR, and a replacement where it was offered and no remap gave one (R20, R22, R143, R145, R216, R502). `remapped` is the remap target, which is then the replacement. DESIGN CHOICE (notes/assumptions/113.md): a replacement chosen for another tile and retired before it was OFFERED is not chosen again. -/
def State.retireTile (s : State) (n cls : Nat) (remapped : Option Nat) : State :=
  let before := (s.tile n).before
  let s1 := (((s.setTileState n tsRetired).verdict (susCode (susTile n)) cls).unassign n).modTile n (fun t => { t with gau := {} })
  match remapped with
  | some t => s1.choose n t
  | none => if before = tsReserve then s1 else s1.chooseReplacement n

/-! ### The route check (R180, R248) -/

/-- The mesh position of a partition's sequencer (R248). -/
def State.sequencerPos (s : State) (q : Nat) : Option Nat :=
  match (bitsOf (s.cfg q).clusters 90).head? with
  | none => none
  | some c =>
    match tilesOfCluster c with
    | [] => none
    | t :: _ => s.entryPos (posOf (xOf t) (if clusterField c < 3 then 0 else 23)) false

/-- The HBM ports that serve the regions a window touches (R180, R304). -/
def State.windowPorts (s : State) (c : PartCfg) : List (Option Nat) :=
  if c.hbmSize = 0 then []
  else
    let f0 := c.hbmBase / regionBytes
    let f1 := (c.hbmBase + c.hbmSize - 1) / regionBytes
    (List.range (f1 - f0 + 1)).flatMap (fun i =>
      (List.range 16).map (fun k => s.entryPos (hbmPortPos (2 * (f0 + i) + k / 8) (k % 8)) false))

/-- The Causeway ports in Causeway mode (R180, R324). -/
def State.causewayPorts (s : State) : List (Option Nat) :=
  ((List.range 16).filter (fun k => (s.port k).mode == 1)).map (fun k => s.entryPos (causewayPos k) true)

/-- The state once every router that closed stops forwarding and the entries around it are set (R181). -/
def State.settled (s : State) : State :=
  let closed := (s.tiles.filter (fun e => e.2.through)).map (·.1)
  let s1 := s.each closed (fun t n => t.modTile n (fun u => { u with through := false }))
  s1.each closed (fun t n => (t.setDetours (neighbours n)).1)

/-- The positions whose routes a job needs: its map with each remap's target in the closed tile's place, without the closed tiles that still wait for a target (R180, R181, R508). -/
def State.routedMap (s : State) (j : Job) : List Nat :=
  (j.remaps.foldl (fun m r => m.set r.logical r.target) j.map).filter s.usable

/-- Do two positions reach each other both ways? -/
def State.bothWays (s : State) (a : Nat) : Option Nat → Bool
  | some b => s.routeOk a b && s.routeOk b a
  | none => false

/-- The route check over the positions of a partition's job (R180). -/
def State.routesOk (s : State) (q : Nat) (map : List Nat) : Bool :=
  let c := s.cfg q
  let ends := s.sequencerPos q :: s.windowPorts c ++ s.causewayPorts
  map.all (fun a =>
    map.all (fun b => a == b || s.routeOk a b)
      && ends.all (s.bothWays a)
      && (c.ddrSize == 0 || s.bothWays a (s.ucieEntry a)))

/-! ### Stopping the queues (R143, R144) -/

/-- A tile discards its in-flight work: deferred signals, a prologue, folds, the load, vector commands; its mover's requests complete with their data discarded and no signal (R144). -/
def State.discardWork (s : State) (n : Nat) : State :=
  s.modTile n (fun t => { t with
    qs := t.qs.map (fun e => (e.1, { e.2 with deferred := [], moveBad := none, prologue := false, ended := none })),
    arr := { t.arr with folds := [], load := .idle },
    vec := [],
    mov := { t.mov with descs := t.mov.descs.map (fun d => { d with discard := true }) } })

/-- A queue returns to its entry in HELD at an abandoned step; a halted queue stays, but for HALTED_TIMEOUT under a watchdog abandonment (R143, R507). -/
def State.holdQueue (s : State) (dog : Bool) (n q : Nat) : State :=
  let st := s.qState n q
  if st = qsHeld ∨ st = qsRunning ∨ st = qsStalled ∨ (dog ∧ st = qsHaltedTimeout) then
    (((s.setQState n q qsHeld).setObj (tileIx n) 0x31 q (s.qEntry n q)).setObj (tileIx n) 0x33 q 0).setObj (tileIx n) 0x34 q 0
  else s

/-- Clear every pending-signal entry of a tile (R207). -/
def State.clearPending (s : State) (n : Nat) : State := s.modGau n (fun u => { u with pend := [] })

/-- A tile copies its gauge values into its boundary snapshot, and the sums of other partitions' additions start anew (R209, R214). -/
def State.snapshotTile (s : State) (n : Nat) : State :=
  s.modGau n (fun u => { u with snapshot := u.gauges.filterMap (fun e => if e.2.value = 0 then none else some (e.1, e.2.value)),
                                gauges := u.gauges.filterMap (fun e => let g : Gauge := { e.2 with other := 0 }; if g = {} then none else some (e.1, g)) })

/-- One tile of an abandoned step: queues, in-flight work, gauges DRAINING, pending entries cleared (R144, R207, R214, R216). -/
def State.abandonTile (s : State) (dog : Bool) (n : Nat) : State :=
  if s.tileState n = tsClosed then s
  else
    let s1 := (s.each [0, 1, 2, 3] (fun t q => t.holdQueue dog n q)).discardWork n
    (s1.clearPending n).modGau n (fun u => { u with st := if u.st = .live then .draining else u.st })

/-! ### Lanes of a step (R271, R280) -/

/-- Replace the descriptor of a context slot. -/
def State.setCtx (s : State) (slot : Nat) (c : Ctx) : State := { s with ctxs := Tbl.put s.ctxs {} slot c }

/-- A partition's pins are released: its ACTIVE contexts become IDLE, its CLOSING ones RELEASING; `f` first writes what a boundary writes (R271, R280). -/
def State.unpinLanes (s : State) (q : Nat) (f : Ctx → Ctx) : State :=
  let s1 := s.each (s.ctxs.filter (fun e => e.2.partition == q)) (fun t e =>
    match e.2.st with
    | .active => t.setCtx e.1 { f e.2 with st := .idle }
    | .closing => t.setCtx e.1 { f e.2 with st := .releasing }
    | _ => t)
  { s1.modJob q (fun j => { j with pinned := 0, laneRecs := [], lanes := false, pins := false }) with
      pinQueue := s1.pinQueue.erase q }

/-! ### Halting and ending a job (R233, R503, R510, R513) -/

/-- The tiles of a partition's job that are CLOSED become RETIRED (R502, R510). -/
def State.retireClosed (s : State) (q : Nat) : State :=
  match s.job q with
  | some j => s.each (j.map.filter (fun n => s.tileState n == tsClosed && (s.tile n).cause != 0))
      (fun t n => t.retireTile n (t.tile n).cause none)
  | none => s

/-- The tiles of a job: its map, and the targets of remaps in progress. -/
def State.jobTiles (s : State) (q : Nat) : List Nat :=
  match s.job q with
  | some j => j.map ++ j.remaps.map (·.target) ++ (j.twin.map (·.twin)).toList ++ (j.twinNext.map (·.twin)).toList
  | none => []

/-- The tiles of a job that take part in its step: not the twin of the next one (R532). -/
def State.stepTiles (s : State) (q : Nat) : List Nat :=
  (s.jobTiles q).filter (fun n => (s.twinNext q).elim true (fun t => t.twin != n))

/-- The remaps of a job are dropped: their targets return to RESERVE (R505). -/
def State.dropRemaps (s : State) (q : Nat) : State :=
  match s.job q with
  | some j => (s.modJob q (fun j => { j with remaps := [] })).each (j.remaps.map (·.target)) State.sendBack
  | none => s

/-- A job enters HALTED: its queues stop, its traffic is fenced, its closed tiles retire, its members are told; the gauges of its tiles keep their state (R216, R233, R503, R513, R520). -/
def State.haltJob (s : State) (q cause : Nat) : State :=
  let st := s.jobState q
  if st = jsNone ∨ st = jsSaved ∨ st = jsEnding ∨ st = jsHalted then s
  else
    let s1 := ((s.setObj (0x6030 + q) 0 0 cause).setObj (0x6030 + q) 1 0 (s.step' q)).toMembers q 0x22 (s.step' q) cause
    let s2 := ((((s1.each (s.jobTiles q) State.discardChunk).discardTwin q).dropRemaps q).unpinLanes q id)
    let s3 := s2.each (s2.jobTiles q) (fun t n =>
      (t.abandonTile false n).modGau n (fun u => { u with st := (t.tile n).gau.st }))
    ((s3.modJob q (fun j => { j with starting := false })).retireClosed q |>.toJobState q jsHalted).closeDomain (.partition q) (susPartition q) (some q)

/-- A job enters ENDING: its queues stop, its remaps are dropped, the tiles of its map wait for their scrub. `told`: the members hear of it, unless a latched end caused it (R233, R505, R513). -/
def State.endJob (s : State) (q : Nat) (told : Bool) : State :=
  let s0 := if told then s.toMembers q 0x22 (s.step' q) 0 else s
  let s1 := (((s0.each (s0.jobTiles q) State.discardChunk).discardTwin q).dropRemaps q).unpinLanes q id
  let tiles := s1.jobTiles q
  let s2 := s1.each tiles (fun t n =>
    if t.tileState n = tsClosed then t
    else ((t.emptyQueues n).discardWork n).clearPending n)
  let s3 := s2.retireClosed q
  let s4 := s3.modJob q (fun j => { j with starting := false, entry := none,
                                              scrubLeft := tiles.filter (fun n => s3.tileState n ≠ tsRetired ∧ s3.tileState n ≠ tsClosed) })
  (s4.each (tiles.filter (fun n => s3.tileState n ≠ tsRetired ∧ s3.tileState n ≠ tsClosed)) (fun t n => t.setObj (tileIx n) 0x2A 0 1)).toJobState q jsEnding

/-! ### Remaps (R508-R510) -/

/-- Must a position be scoured before it is used again (R536)? -/
def State.scourDue (s : State) (n : Nat) : Bool := (Tbl.get s.scour {} n).due

/-- The tiles already taken as targets of remaps in progress. -/
def State.remapTargets (s : State) : List Nat :=
  partitionNumbers.flatMap (fun q => (s.job q).elim [] (fun j => j.remaps.map (·.target)))

/-- The best free candidate for a closed tile: its field first, fewest hops, routes that pass once the closed routers are routed around (R180, R508). -/
def State.remapCandidate (s : State) (q closed : Nat) : Option Nat :=
  let taken := s.remapTargets
  let after := s.settled
  let map := (s.job q).elim [] s.routedMap
  let pool := allTiles.filter (fun n => s.inPool q n && !taken.contains n && !s.scourDue n && after.routesOk q (n :: map))
  (best closed (pool.filter (fun n => fieldNo n == fieldNo closed))).or (best closed pool)

/-- Start the remap of one logical tile, which wakes the target's cluster, or halt the job where no candidate is left (R508, R510). -/
def State.remapOne (s : State) (q logical closed : Nat) : State :=
  (s.remapCandidate q closed).elim (s.haltJob q 0x01) (fun t =>
    (((s.dropTwinOf t).discardChunk t).wakeRequest (clusterOf t)).modJob q (fun j => { j with remaps := j.remaps ++ [⟨logical, closed, t⟩] }))

/-- Start the remaps of every closed tile of a job that has none yet, in logical order (R508). -/
def State.startRemaps (s : State) (q : Nat) : State :=
  match s.job q with
  | none => s
  | some j =>
    s.each ((List.range j.map.length).filter (fun l =>
        s.tileState (j.map.getD l 0) == tsClosed && !j.remaps.any (fun r => r.logical == l)))
      (fun t l => if t.jobState q = jsHalted then t else t.remapOne q l (j.map.getD l 0))

/-- A remap whose target closes before it completes takes the next candidate; the target holds no job (R505). -/
def State.dropTarget (s : State) (q n : Nat) : State :=
  (s.modJob q (fun j => { j with remaps := j.remaps.filter (fun r => r.target ≠ n) })).modTile n (fun u => { u with owner := none })

/-! ### The abandonment of a step (R214, R233, R501, R506, R512) -/

/-- Abandon the step that a partition runs: its tiles stop, its gauges drain, its members are told; a fourth abandonment of one step halts the job (R144, R214, R501, R512). A start that has not yet written the step registers has taken no snapshot: its tiles, but for closed ones, take it now. -/
def State.abandonStep (s : State) (q cls : Nat) (dog : Bool) : State :=
  if s.jobState q ≠ jsStepping then s
  else if s.obj (0x6030 + q) 2 ≥ 3 then (s.setObj (0x6030 + q) 2 0 4).haltJob q 0x03
  else
    let s0 := if (s.job q).elim false (fun j => j.starting && j.startAt.isNone) then
        s.each ((s.stepTiles q).filter (fun n => s.tileState n != tsClosed)) State.snapshotTile else s
    let s1 := (s0.count (0x6030 + q) 2 0 8).toMembers q 0x20 (s.step' q) cls
    let s2 := s1.each (s.stepTiles q) (fun t n => t.abandonTile dog n)
    let s3 := s2.modJob q (fun j => { j with starting := false, args := [], selfDone := false, startAt := none, readys := [], ready := false,
                                                twin := j.twin.map (fun t => { t with started := false, held := false }),
                                                watches := j.watches.map (fun w => { w with reached := false }) })
    s3.toJobState q jsDraining

/-- A tile reaches a permanent verdict: it closes, and its job, if it holds one, remaps it (R499, R508). -/
def State.condemnTile (s : State) (n : Nat) (cls : Nat := clTileData) : State :=
  let s1 := s.closeTile n cls
  match s.ownerOf n with
  | some q =>
    if (s.job q).elim false (fun j => j.remaps.any (fun r => r.target == n)) then (s1.dropTarget q n).startRemaps q
    else s1.startRemaps q
  | none => s1

/-- STEP_FAULT in a partition. A TILE_DATA fault is one event of its suspect tile for each abandonment, and the third within 24 h a permanent verdict (R105, R214, R500, R505). -/
def State.stepFault (s : State) (q cls : Nat) (suspect : Option Nat) : State :=
  let fresh := s.jobState q = jsStepping
  let s1 := s.abandonStep q cls false
  match suspect with
  | some n =>
    if cls = clTileData ∧ fresh then
      let r := s1.countEvent (susCode (susTile n)) clTileData
      if r.2 then r.1.condemnTile n else r.1
    else s1
  | none => s1

/-- The twin run that a tile takes part in as the twin (R531). -/
def State.isTwin (s : State) (n : Nat) : Bool :=
  (s.ownerOf n).elim false (fun q => ((s.twinRun q).toList ++ (s.twinNext q).toList).any (fun t => t.twin == n))

/-! ### Positions that stop forwarding (R181, R200) -/

/-- The routers that packets of a partition's checked routes pass (R180, R200). -/
def State.routersUsed (s : State) (q : Nat) (map : List Nat) : List Nat :=
  let c := s.cfg q
  let ends := (s.sequencerPos q :: s.windowPorts c ++ s.causewayPorts).filterMap id
  let targets := map ++ ends
  map.flatMap (fun a => targets.flatMap (fun b => (s.route a b).getD [] ++ (s.route b a).getD [])
    ++ (if c.ddrSize = 0 then [] else ((s.ucieEntry a).map (fun b => (s.route a b).getD [] ++ (s.route b a).getD [])).getD []))

/-- After the detour entries changed, each loaded job's routes are checked again: a WAITING or LOADING job halts at once, and a STEPPING job whose routes fail stops at its next boundary (R181, R233). -/
def State.recheckRoutes (s : State) : State :=
  s.each (partitionNumbers.filter (fun q => (s.job q).isSome)) (fun t q =>
    match t.job q with
    | some j =>
      if t.routesOk q (t.routedMap j) then t
      else if t.jobState q = jsWaiting ∨ t.jobState q = jsLoading then t.haltJob q 0x02
      else if t.jobState q = jsStepping ∨ t.jobState q = jsDraining then t.modJob q (fun j => { j with routeBad := true })
      else t
    | none => t)

end Sys2Proof.Machine
end

