-- ==== Sys2Proof/Machine/Contexts.lean ====
section
/-! DEFINITION. Contexts: page pools, the pager, the lanes of a step, the operations of context_op (11_contexts_and_kv.md). -/

namespace Sys2Proof.Machine

/-! ### Free lists (R275, R319) -/

/-- Rows of a 64 KiB page. -/
abbrev pageRows : Nat := 2048

/-- The page numbers of the map and of the commit page beside data pages 0 to 8,191. -/
abbrev mapPage : Nat := 8192
abbrev commitPage : Nat := 8193

/-- The pages of a free list, retired spans left out of account. -/
def FreeList.length (f : FreeList) : Nat := f.front.length + (f.size - f.next) + f.back.length

/-- Take the page at the head of a free list, with its tag (R275). -/
def FreeList.take (f : FreeList) : Option ((Nat × Nat) × FreeList) :=
  match f.front with
  | p :: r => some (p, { f with front := r })
  | [] =>
    if f.next < f.size then some ((f.next, f.tag), { f with next := f.next + 1 })
    else match f.back with
      | p :: r => some (p, { f with back := r })
      | [] => none

/-- Return a page to a free list with a tag (R276). DEDUCED: it goes to the end. -/
def FreeList.give (f : FreeList) (i tag : Nat) : FreeList := { f with back := f.back ++ [(i, tag)] }

/-- The pools of a partition. -/
def State.pool (s : State) (q : Nat) : CtxPool := Tbl.get s.pools {} q

/-- Change the pools of a partition. -/
def State.modPool (s : State) (q : Nat) (f : CtxPool → CtxPool) : State :=
  { s with pools := Tbl.put s.pools {} q (f (s.pool q)) }

/-- The pager of a partition. -/
def State.pager (s : State) (q : Nat) : Pager := Tbl.get s.pagers {} q

/-- Change the pager of a partition. -/
def State.modPager (s : State) (q : Nat) (f : Pager → Pager) : State :=
  { s with pagers := Tbl.put s.pagers {} q (f (s.pager q)) }

/-- The byte address of a pool page in its memory (R270). -/
def State.pageAddr (s : State) (q : Nat) (ddr : Bool) (i : Nat) : Nat :=
  (if ddr then (s.cfg q).ddrBase + (s.pool q).ddrOffset else (s.cfg q).hbmBase + (s.pool q).hbmOffset) + 65536 * i

/-- Does an HBM pool page lie in a retired span (R319)? -/
def State.pageRetired (s : State) (q i : Nat) : Bool :=
  let a := s.pageAddr q false i
  s.spans.any (fun sp => decide (sp ≤ a) && decide (a < 0x100000000 + sp))

/-- The free list of a tier. -/
def State.freeList (s : State) (q : Nat) (ddr : Bool) : FreeList := if ddr then (s.pool q).ddr else (s.pool q).hbm

/-- Replace the free list of a tier. -/
def State.setFreeList (s : State) (q : Nat) (ddr : Bool) (f : FreeList) : State :=
  s.modPool q (fun p => if ddr then { p with ddr := f } else { p with hbm := f })

/-- The pages of a tier's pool that no context has held yet and that lie in retired spans (R319). -/
def State.retiredAhead (s : State) (q : Nat) : Nat :=
  let f := (s.pool q).hbm
  let lo := s.pageAddr q false f.next
  let hi := s.pageAddr q false f.size
  (s.spans.map (fun sp => (min hi (0x100000000 + sp) - max lo sp) / 65536)).sum

/-- The free pages of a tier: objects 3410+q:0B and :0C (R288, R319). -/
def State.freePages (s : State) (q : Nat) (ddr : Bool) : Nat :=
  let f := s.freeList q ddr
  if ddr then f.length
  else f.length - s.retiredAhead q - (f.front ++ f.back).countP (fun p => s.pageRetired q p.1)

/-- Take a free page; pages in retired spans are withdrawn (R275, R319). -/
def State.takePage : Nat → State → Nat → Bool → State × Option (Nat × Nat)
  | 0, s, _, _ => (s, none)
  | fuel + 1, s, q, ddr =>
    match (s.freeList q ddr).take with
    | none => (s, none)
    | some (p, f) =>
      let s1 := s.setFreeList q ddr f
      if !ddr && s.pageRetired q p.1 then State.takePage fuel s1 q ddr else (s1, some p)

/-- Take a free page of a tier. -/
def State.newPage (s : State) (q : Nat) (ddr : Bool) : State × Option (Nat × Nat) :=
  State.takePage ((s.freeList q ddr).length + 1) s q ddr

/-- Return a page to its tier, unless it lies in a retired span (R276, R319). -/
def State.freePage (s : State) (q : Nat) (ddr : Bool) (i tag : Nat) : State :=
  if !ddr && s.pageRetired q i then s else s.setFreeList q ddr ((s.freeList q ddr).give i tag)

/-! ### Page contents (R275, R283) -/

/-- Zero `n` rows of memory: zero data with its code. Writes buffered to them are superseded, reads merged over them take their data first (R308). -/
def State.zeroRows (s : State) (ddr : Bool) (row n : Nat) : State :=
  let rows := (List.range n).map (fun i => row + i)
  let srvs := (rows.map (fun r => s.rowServer ddr r)).eraseDups
  let s1 := s.each srvs (fun t v => ((t.closeOverlap v rows).dropHeld v rows).modServer v (fun m => { m with
    wbuf := m.wbuf.filter (fun w => !(decide (row ≤ w.1) && decide (w.1 < row + n))) }))
  if ddr then
    let s2 : State := { s1 with ddr := s1.ddr.filter (fun e => !(decide (row ≤ 2 * e.1) && decide (2 * e.1 + 1 < row + n))) }
    s2.each (rows.filter (fun r => (r == row && r % 2 == 1) || (r + 1 == row + n && r % 2 == 0))) (fun t r => t.ringWrite true r 0)
  else { s1 with hbm := s1.hbm.filter (fun e => !(decide (row ≤ e.1) && decide (e.1 < row + n))) }

/-- Zero a pool page and count the fill (R275, R288). -/
def State.zeroPage (s : State) (q : Nat) (ddr : Bool) (i : Nat) : State :=
  (s.zeroRows ddr (s.pageAddr q ddr i / 32) pageRows).count (0x3410 + q) 0xF 0 64

/-- Copy rows, decoding and encoding every codeword; answers whether all decoded (R283, R284). -/
def State.copyRows (s : State) (q : Nat) (fromDdr : Bool) (src : Nat) (toDdr : Bool) (dst : Nat) : Nat → State × Bool
  | 0 => (s, true)
  | n + 1 =>
    match s.ringRead fromDdr src (some q) with
    | (s1, none) => (s1, false)
    | (s1, some d) => State.copyRows (s1.ringWrite toDdr dst d) q fromDdr (src + 1) toDdr (dst + 1) n

/-! ### Page entries (R270) -/

/-- A page entry. -/
def pageEntry (ddr : Bool) (i : Nat) : Nat := 2 ^ 63 + (if ddr then 2 ^ 62 else 0) + i
def eValid (e : Nat) : Bool := bitOf e 63
def eDdr (e : Nat) : Bool := bitOf e 62
def eIndex (e : Nat) : Nat := fieldOf e 0 32

/-- The row of the page map that holds entry `j`. -/
def State.mapRow (s : State) (c : Ctx) (j : Nat) : Nat :=
  s.pageAddr c.partition (eDdr c.mapEntry) (eIndex c.mapEntry) / 32 + j / 4

/-- The entry of a page of a context. DEDUCED: a map row that decodes uncorrectable damages the context, its pages being lost (R269, R284). -/
def State.entryOf (s : State) (slot page : Nat) : State × Nat :=
  let c := s.ctx slot
  if page = mapPage then (s, c.mapEntry)
  else if page = commitPage then (s, c.commitEntry)
  else match s.ringRead (eDdr c.mapEntry) (s.mapRow c page) (some c.partition) with
    | (s1, some d) => (s1, fieldOf d.toNat (page % 4 * 64) 64)
    | (s1, none) => (s1.setCtx slot { s1.ctx slot with damaged := true }, 0)

/-- Rewrite the entry of a page of a context; false where its map row decodes uncorrectable, which leaves it unchanged (R283, R284). -/
def State.setEntry (s : State) (slot page e : Nat) : State × Bool :=
  let c := s.ctx slot
  if page = mapPage then (s.setCtx slot { c with mapEntry := e }, true)
  else if page = commitPage then (s.setCtx slot { c with commitEntry := e }, true)
  else
    let row := s.mapRow c page
    match s.ringRead (eDdr c.mapEntry) row (some c.partition) with
    | (s1, some d) => (s1.ringWrite (eDdr c.mapEntry) row (BitVec.ofNat 256 (setField d.toNat (page % 4 * 64) 64 e)), true)
    | (s1, none) => (s1, false)

/-- The entries of the first `n` data pages of a context, of its commit page and of its map. -/
def State.entries (s : State) (slot n : Nat) : State × List (Nat × Nat) :=
  (List.range n ++ [commitPage, mapPage]).foldl (fun acc p =>
    let x := acc.1.entryOf slot p
    (x.1, acc.2 ++ [(p, x.2)])) (s, [])

/-- The pages of a context that lie in a tier, with their indices. -/
def State.pagesIn (s : State) (slot : Nat) (ddr : Bool) : State × List (Nat × Nat) :=
  let x := s.entries slot (s.ctx slot).pages
  (x.1, (x.2.filter (fun e => eValid e.2 && eDdr e.2 == ddr)).map (fun e => (e.1, eIndex e.2)))

/-! ### The pager's queue (R281-R284) -/

/-- Add a move behind those of its class and of the classes before (R281). -/
def State.queueMove (s : State) (q : Nat) (kind : MoveKind) (slot page src : Nat) (dst : Option (Nat × Nat)) (cls : Nat) : State :=
  s.modPager q (fun p =>
    let m : PageMove := { id := p.nextId, kind := kind, slot := slot, page := page, src := src, dst := dst.map (·.1), cls := cls, dstTag := dst.elim 0 (·.2) }
    { p with nextId := p.nextId + 1,
             queue := p.queue.filter (fun x => decide (x.cls ≤ cls)) ++ m :: p.queue.filter (fun x => decide (cls < x.cls)) })

/-- The moves in flight in the module, object 3400:08 (R281). -/
def State.movesInFlight (s : State) : Nat := (partitionNumbers.map (fun q => (s.pager q).flight.length)).sum

/-- The tier a move's destination lies in. -/
def MoveKind.toDdr : MoveKind → Bool
  | .demote => true
  | _ => false

/-- Take a page for a copy: one that carries the tag of another tenant is zero-filled first (R275). -/
def State.takeFor (s : State) (q : Nat) (ddr : Bool) (tenant : Nat) : State × Option (Nat × Nat) :=
  match s.newPage q ddr with
  | (s1, some p) => if p.2 = 0 ∨ p.2 = tenant then (s1, some p) else (s1.zeroPage q ddr p.1, some (p.1, 0))
  | (s1, none) => (s1, none)

/-- The destination of a move that starts: a missing page is zero-filled by the move itself (R275, R283). -/
def State.destOf (s : State) (q : Nat) (m : PageMove) : State × Option (Nat × Nat) :=
  if m.kind = .fill then s.newPage q false else s.takeFor q m.kind.toDdr (s.ctx m.slot).tenant

/-- Start the first of some queued moves of a partition that has, or finds, a destination (R281, R283). -/
def State.startMove (s : State) (q : Nat) : List PageMove → State × Bool
  | [] => (s, false)
  | m :: rest =>
    match m.dst with
    | some _ => (s.modPager q (fun p => { p with queue := p.queue.erase m, flight := p.flight ++ [m] }), true)
    | none => match s.destOf q m with
      | (s1, some p) => (s1.modPager q (fun x => { x with queue := x.queue.erase m, flight := x.flight ++ [{ m with dst := some p.1, dstTag := p.2 }] }), true)
      | (s1, none) => State.startMove s1 q rest

/-- A free page of a tenant is taken out to be zeroed in the background (R275). -/
def State.startFill (s : State) (q : Nat) (ddr : Bool) : State :=
  let f := s.freeList q ddr
  let start := fun (t : State) (i tag : Nat) => t.modPager q (fun p => { p with nextId := p.nextId + 1, flight := p.flight ++ [{ id := p.nextId, kind := .background, slot := 0, page := (if ddr then 1 else 0), src := i, dst := some i, cls := 4, dstTag := tag }] })
  match f.front.find? (fun p => p.2 ≠ 0) with
  | some p => start (s.setFreeList q ddr { f with front := f.front.erase p }) p.1 p.2
  | none =>
    if f.next < f.size ∧ f.tag ≠ 0 then start (s.setFreeList q ddr { f with next := f.next + 1 }) f.next f.tag
    else match f.back.find? (fun p => p.2 ≠ 0) with
      | some p => start (s.setFreeList q ddr { f with back := f.back.erase p }) p.1 p.2
      | none => s

/-- Start the first queued move among pairs of a class and a partition (R281). -/
def State.startAny (s : State) : List (Nat × Nat) → State × Bool
  | [] => (s, false)
  | (c, q) :: rest =>
    match s.startMove q ((s.pager q).queue.filter (fun m => m.cls == c)) with
    | (s1, true) => (s1, true)
    | (s1, false) => State.startAny s1 rest

/-- The classes of R281, each over every partition. -/
def pagerOrder : List (Nat × Nat) := [1, 2, 3].flatMap (fun c => partitionNumbers.map (fun q => (c, q)))

/-- With no move queued, one tagged free page of a partition is zeroed at a time (R275). -/
def State.idleFill (s : State) (q : Nat) : State :=
  let busy := fun (t : State) => (t.pager q).flight.any (fun m => m.kind == .background)
  if s.movesInFlight ≥ 64 ∨ !(s.pager q).queue.isEmpty ∨ busy s then s
  else
    let s1 := s.startFill q false
    if busy s1 then s1 else s1.startFill q true

/-- Start queued moves of every partition while fewer than 64 are in flight in the module, then background fills (R275, R281). -/
def State.pumpPages : Nat → State → State
  | 0, s => s
  | fuel + 1, s =>
    if s.movesInFlight ≥ 64 then s
    else match s.startAny pagerOrder with
      | (s1, true) => State.pumpPages fuel s1
      | (s1, false) => s1.each partitionNumbers State.idleFill

/-- The contexts of a partition that may be demoted: IDLE, not pinned, of at least an age, the slot itself left out; lowest priority first, then the greatest age, then the lowest slot (R282). -/
def State.demotable (s : State) (q age : Nat) (but : Option Nat) : List Nat :=
  let now := s.obj (0x3410 + q) 0xA
  let ageOf := fun (c : Ctx) => (now + 2 ^ 32 - c.lastBoundary) % 2 ^ 32
  let cs := s.ctxs.filter (fun e => e.2.partition == q && e.2.st == .idle && !e.2.pinned && decide (age ≤ ageOf e.2) && some e.1 ≠ but)
  (cs.mergeSort (fun a b =>
    if a.2.priority ≠ b.2.priority then decide (a.2.priority < b.2.priority)
    else if ageOf a.2 ≠ ageOf b.2 then decide (ageOf b.2 < ageOf a.2)
    else decide (a.1 ≤ b.1))).map (·.1)

/-- Demotions queued and in flight that have yet to free an HBM page. -/
def State.demotionsPending (s : State) (q : Nat) : Nat :=
  ((s.pager q).queue ++ (s.pager q).flight).countP (fun m => m.kind == .demote)

/-- Queue the demotion of every HBM page of a context, while the DDR5 pool has pages for them (R282). -/
def State.queueDemotion (s : State) (q slot cls : Nat) : State :=
  let x := s.pagesIn slot false
  x.2.foldl (fun t p =>
    let waiting := (t.pager q).queue.countP (fun m => m.kind == .demote)
    let busy := ((t.pager q).queue ++ (t.pager q).flight).any (fun m => m.slot == slot && m.page == p.1)
    if busy || decide (t.freePages q true ≤ waiting) then t else t.queueMove q .demote slot p.1 p.2 none cls) x.1

/-- The used pages of the HBM pool. -/
def State.usedPages (s : State) (q : Nat) : Nat := (s.pool q).hbm.size - s.freePages q false

/-- Demotion between the water marks: it starts above hbm_high_water and stops at or below hbm_low_water (R282). -/
def State.waterMarks (s : State) (q : Nat) : State :=
  let size := (s.pool q).hbm.size
  let used := s.usedPages q
  let on := ((s.pool q).demoting && decide (s.obj (0x3410 + q) 8 * size < 100 * used)) || decide (s.obj (0x3410 + q) 7 * size < 100 * used)
  let s1 := s.modPool q (fun p => { p with demoting := on })
  if on then
    (s1.demotable q (s1.obj (0x3410 + q) 9) none).foldl (fun t slot =>
      if 100 * (used - t.demotionsPending q) ≤ t.obj (0x3410 + q) 8 * size then t else t.queueDemotion q slot 3) s1
  else s1

/-- The pager goes on: water marks, then queued moves (R281, R282). -/
def State.pagerRun (s : State) (q : Nat) : State := State.pumpPages 65 (s.waterMarks q)

/-- Withdraw queued moves of a context; destinations they hold return to their pool with the tag they carried (R275). -/
def State.withdraw (s : State) (q slot : Nat) (which : PageMove → Bool) : State :=
  let mine := fun (m : PageMove) => m.slot == slot && m.kind != .background && which m
  let s1 := s.modPager q (fun p => { p with queue := p.queue.filter (fun m => !mine m) })
  ((s.pager q).queue.filter mine).foldl (fun t m => match m.dst with
    | some i => t.freePage q m.kind.toDdr i m.dstTag
    | none => t) s1

/-- Withdraw every queued move of a context. -/
def State.dropMoves (s : State) (q slot : Nat) : State := s.withdraw q slot (fun _ => true)

/-- A codeword of a move was uncorrectable: the destination is freed, the entry stays, the context is damaged (R284). -/
def State.moveLost (s : State) (q slot : Nat) (fromDdr : Bool) (src : Nat) (toDdr : Bool) (dst : Nat) : State :=
  let c := s.ctx slot
  (((s.freePage q toDdr dst c.tenant).setCtx slot { c with damaged := true }).count 0x3400 9 0 32).reportFor (some q)
    clMemoryUncorrectable (serverSus (s.rowServer fromDdr (s.pageAddr q fromDdr src / 32))) (susBlock 3) stUncorrectable slot

/-- Copy a page to the other tier, rewrite its entry, free the source; false where a codeword of the page or of its map row decodes uncorrectable (R283, R284). -/
def State.movePage (s : State) (q slot page : Nat) (toDdr : Bool) (src dst : Nat) : State × Bool :=
  match s.copyRows q (!toDdr) (s.pageAddr q (!toDdr) src / 32) toDdr (s.pageAddr q toDdr dst / 32) pageRows with
  | (s1, false) => (s1.moveLost q slot (!toDdr) src toDdr dst, false)
  | (s1, true) => match s1.setEntry slot page (pageEntry toDdr dst) with
    | (s2, false) => (s2.moveLost q slot (!toDdr) src toDdr dst, false)
    | (s2, true) => ((s2.freePage q (!toDdr) src (s2.ctx slot).tenant).count (0x3410 + q) (if toDdr then 0xE else 0xD) 0 64, true)

/-- Demote one context at once to make room (R277, R282): its demotions in flight end, queued ones are withdrawn, its other HBM pages move. DESIGN CHOICE: its moves take no step of their own. -/
def State.demoteNow (s : State) (q slot : Nat) : State :=
  let mine := fun (m : PageMove) => m.slot == slot && m.kind == .demote
  let fl := (s.pager q).flight.filter mine
  let s1 := (s.withdraw q slot mine).modPager q (fun p => { p with flight := p.flight.filter (fun m => !mine m) })
  let s2 := fl.foldl (fun t m => (t.movePage q slot m.page true m.src (m.dst.getD 0)).1) s1
  let x := s2.pagesIn slot false
  x.2.foldl (fun t p =>
    match t.takeFor q true (t.ctx slot).tenant with
    | (t1, none) => t1
    | (t1, some d) => (t1.movePage q slot p.1 true p.2 d.1).1) x.1

/-- Make room for `need` HBM pages by demoting IDLE, unpinned contexts whatever their age (R282). -/
def State.makeRoom (s : State) (q need : Nat) (but : Option Nat) : State :=
  (s.demotable q 0 but).foldl (fun t slot => if t.freePages q false ≥ need then t else t.demoteNow q slot) s

/-- Could `need` HBM pages be had after those demotions (R277, R282)? Demotions in flight already hold their DDR5 page. -/
def State.canMakeRoom (s : State) (q need : Nat) (but : Option Nat) : Bool :=
  let cs := s.demotable q 0 but
  let held := (s.pager q).flight.countP (fun m => m.kind == .demote && cs.contains m.slot)
  let extra := (cs.map (fun slot => (s.pagesIn slot false).2.length)).sum
  decide (need ≤ s.freePages q false + min extra (held + s.freePages q true))

/-! ### Lanes (R277-R280) -/

/-- A lookup of a descriptor: a hit in the cache or a read of HBM (R287). -/
def State.lookup (s : State) (slot : Nat) : State :=
  let d := s.draw
  let c := s.ctx slot
  let hit := c.st == .active || c.st == .closing || (s.cached.contains slot && Config.cacheKeeps d.1)
  let s1 := d.2.count 0x3400 (if hit then 5 else 6) 0 64
  { s1 with cached := if s1.cached.contains slot then s1.cached else slot :: s1.cached }

/-- The data pages a lane at position `p` has allocated (R273). -/
def kvPages (p k : Nat) : Nat := min 8192 (((p + 9) * k + 65535) / 65536)

/-- The lane status before its pages are looked at (R277). DEDUCED: 0x03 first, since such a slot has no descriptor, then in the table's order. -/
def State.laneStatus (s : State) (q slot : Nat) : Nat :=
  let c := s.ctx slot
  if slot > 262143 then 3
  else if c.st ≠ .idle then 1
  else if c.partition ≠ q then 2
  else if c.damaged then 5
  else 0

/-- Hand one missing page to a lane: at once, or by a zero fill where another tenant's tag stands; a fill without a page waits for one (R275, R277). -/
def State.handPage (s : State) (q slot j : Nat) : State :=
  match s.newPage q false with
  | (s1, none) => s1.queueMove q .fill slot j 0 none 1
  | (s1, some p) =>
    if p.2 = 0 ∨ p.2 = (s1.ctx slot).tenant then
      match s1.setEntry slot j (pageEntry false p.1) with
      | (s2, true) => s2
      | (s2, false) => s2.moveLost q slot false p.1 false p.1
    else s1.queueMove q .fill slot j p.1 (some p) 1

/-- Place the pages of a ready lane: its context becomes ACTIVE, missing pages are allocated, every DDR5 page is queued for promotion; status 0x04 where they find no place, which moves nothing; 0x05 where its map is lost (R273, R277, R282, R284). -/
def State.placeLane (s : State) (q slot : Nat) : State × Nat :=
  let n := max (kvPages (s.ctx slot).position (s.pool q).kvBytes) (s.ctx slot).pages
  let x := s.entries slot n
  let moves := (x.1.pager q).queue ++ (x.1.pager q).flight
  let comes := fun (p : Nat) => moves.any (fun m => m.slot == slot && m.page == p && (m.kind == .fill || (m.kind == .promote && m.dst.isSome)))
  let fresh := (x.2.filter (fun e => !eValid e.2 && !comes e.1)).map (·.1)
  let far := x.2.filter (fun e => eValid e.2 && eDdr e.2 && !comes e.1)
  let need := fresh.length + far.length
  if (x.1.ctx slot).damaged then (x.1, 5)
  else if !x.1.canMakeRoom q need (some slot) then (x.1, 4)
  else
    let s1 := (x.1.withdraw q slot (fun m => m.kind == .demote || m.dst.isNone)).makeRoom q need (some slot)
    let s2 := s1.setCtx slot { s1.ctx slot with st := .active, pages := n }
    let s3 := s2.each fresh (fun t j => t.handPage q slot j)
    let s4 := far.foldl (fun t e =>
      let y := t.takeFor q false (t.ctx slot).tenant
      y.1.queueMove q .promote slot e.1 (eIndex e.2) y.2 1) s3
    if (s4.ctx slot).damaged then ((s4.dropMoves q slot).setCtx slot { s4.ctx slot with st := .idle }, 5) else (s4, 0)

/-- Are all pages of a lane in HBM (R277)? -/
def State.lanePlaced (s : State) (q slot : Nat) : Bool :=
  !((s.pager q).queue ++ (s.pager q).flight).any (fun m => m.slot == slot && (m.kind == .promote || m.kind == .fill))

/-- The lane record (R278). -/
def State.laneRecord (s : State) (r : LaneRec) : Nat :=
  let c := s.ctx r.slot
  if r.status ≠ 0 then 2 ^ 46 * (r.slot % 2 ^ 18) + r.status
  else 2 ^ 192 * c.seed + 2 ^ 160 * c.epoch + 2 ^ 128 * r.position + 2 ^ 96 * eIndex c.mapEntry + 2 ^ 64 * eIndex c.commitEntry
    + 2 ^ 46 * r.slot + 2 ^ 16 * c.pages + c.priority * 2 ^ 8

/-- Write the records of the lanes whose pages are in HBM, and report the lanes ready once every record is written (R277). -/
def State.lanesReady (s : State) (q : Nat) : State :=
  match s.job q with
  | none => s
  | some j =>
    let due := j.laneRecs.filter (fun r => !r.done && (r.status != 0 || s.lanePlaced q r.slot))
    let s1 := due.foldl (fun t r => t.ringWrite false (t.winRow q ((t.pool q).laneArea + 32 * r.lane)) (BitVec.ofNat 256 (t.laneRecord r))) s
    let recs := j.laneRecs.map (fun r => if due.contains r then { r with done := true } else r)
    s1.modJob q (fun k => { k with laneRecs := recs, lanes := recs.all (·.done) })

/-- One lane of the hand-over (R277). -/
def State.takeLane (s : State) (q lane slot : Nat) : State :=
  let s1 := if slot ≤ 262143 then s.lookup slot else s
  let st := s1.laneStatus q slot
  let x := if st = 0 then s1.placeLane q slot else (s1, st)
  let s2 := if x.2 = 0 then x.1 else x.1.count (0x3410 + q) 0x10 0 32
  s2.modJob q (fun j => { j with laneRecs := j.laneRecs ++ [{
    lane := lane, slot := slot, status := x.2, position := (s1.ctx slot).position, done := false }] })

/-- The slot numbers of a lane list (R229, R277); a row that decodes uncorrectable gives slots that do not exist. -/
def State.laneSlots (s : State) (q list lanes : Nat) : State × List Nat :=
  (List.range ((lanes + 7) / 8)).foldl (fun acc i =>
    let x := acc.1.ringRead false (acc.1.winRow q list + i) (some q)
    (x.1, acc.2 ++ (List.range (min 8 (lanes - 8 * i))).map (fun k => match x.2 with
      | some d => fieldOf d.toNat (32 * k) 32
      | none => 0xFFFFFFFF))) (s, [])

/-- Pins held in the module, object 3400:04 (R277, R287). -/
def State.pinsHeld (s : State) : Nat :=
  (partitionNumbers.map (fun q => (s.job q).elim 0 (·.pinned))).sum

/-- Steps 1 to 5 of R277, the pins being free. -/
def State.handLanes (s : State) (q : Nat) (e : Entry) : State :=
  let s1 := s.modJob q (fun j => { j with pinned := e.lanes, pins := false, laneRecs := [], lanes := false })
  let x := s1.laneSlots q e.laneList e.lanes
  let s2 := x.2.zipIdx.foldl (fun t p => t.takeLane q p.2 p.1) x.1
  (s2.pagerRun q).lanesReady q

/-- The lane list of an entry reaches the context cache: handed over, or behind the step starts that wait for pins (R277). -/
def State.laneHandover (s : State) (q : Nat) (e : Entry) : State :=
  if e.lanes = 0 then s.modJob q (fun j => { j with lanes := true })
  else if s.pinQueue.isEmpty && decide (s.pinsHeld + e.lanes ≤ 8192) then s.handLanes q e
  else
    let s1 := (s.modJob q (fun j => { j with pins := true })).count 0x3400 7 0 32
    { s1 with pinQueue := s1.pinQueue ++ [q] }

/-- PIN_WAIT_RELEASE: the step start first in line proceeds once enough pins are free. -/
def execPinWaitRelease (q : Nat) (s : State) : Out :=
  .next (match s.pinQueue, (s.job q).bind (·.entry) with
    | p :: rest, some e =>
      if p = q ∧ s.pinsHeld + e.lanes ≤ 8192 then { s with pinQueue := rest }.handLanes q e else s
    | _, _ => s)

/-- The lanes of the last completed step are pinned again for its replay: their contexts are ACTIVE, pages demoted since are promoted, the records of the original start stand in the lane area again (DEDUCED: R271, R279, R512). -/
def State.repinLanes (s : State) (q : Nat) : State :=
  let recs := (s.job q).elim [] (·.prevRecs)
  let s1 := s.modJob q (fun j => { j with pinned := recs.length, laneRecs := recs.map (fun r => { r with done := false }), lanes := false })
  let s2 := recs.foldl (fun t r =>
    if r.status = 0 ∧ (t.ctx r.slot).st = .idle ∧ (t.ctx r.slot).partition = q then (t.placeLane q r.slot).1 else t) s1
  (s2.pagerRun q).lanesReady q

/-- What a boundary writes to the descriptors of the pinned lanes, and the count of boundaries (R280). -/
def State.cacheBoundary (s : State) (q step : Nat) : State :=
  let b := s.obj (0x3410 + q) 0xA
  let job := s.jobId q
  let recs := (s.job q).elim [] (·.laneRecs)
  let s1 := (s.unpinLanes q (fun c => { c with lastStep := step, lastBoundary := b % 2 ^ 32, jobId := job })).modJob q (fun j => { j with prevRecs := recs })
  (s1.count (0x3410 + q) 0xA 0 64).pagerRun q

/-! ### The end of a move (R283, R284) -/

/-- A lane that waits for a page of a context a move has damaged gets status 0x05 (DEDUCED: R277, R284). -/
def State.moveFailed (s : State) (q slot : Nat) : State :=
  if (s.job q).elim false (fun j => j.laneRecs.any (fun r => r.slot == slot && !r.done && r.status == 0)) then
    let s1 := (s.dropMoves q slot).modJob q (fun j => { j with laneRecs := j.laneRecs.map (fun r =>
      if r.slot = slot ∧ !r.done ∧ r.status = 0 then { r with status := 5 } else r) })
    let c := s1.ctx slot
    (s1.setCtx slot { c with st := if c.st = .closing then .releasing else .idle }).count (0x3410 + q) 0x10 0 32
  else s

/-- One move of the pager ends (R275, R283). A demotion of a context that is no longer IDLE, or that firmware has pinned since, is given up (R269, R278). -/
def State.endMove (s : State) (q : Nat) (m : PageMove) (i : Nat) : State :=
  match m.kind with
  | .background =>
    let ddr := m.page == 1
    let s1 := s.zeroPage q ddr i
    let f := s1.freeList q ddr
    if !ddr && s1.pageRetired q i then s1 else s1.setFreeList q ddr { f with front := f.front ++ [(i, 0)] }
  | .fill => match (s.zeroPage q false i).setEntry m.slot m.page (pageEntry false i) with
    | (s1, true) => s1
    | (s1, false) => (s1.moveLost q m.slot false i false i).moveFailed q m.slot
  | .promote => match s.movePage q m.slot m.page false m.src i with
    | (s1, true) => s1
    | (s1, false) => s1.moveFailed q m.slot
  | .demote =>
    if (s.ctx m.slot).st ≠ .idle ∨ (s.ctx m.slot).pinned then s.freePage q true i (s.ctx m.slot).tenant
    else match s.movePage q m.slot m.page true m.src i with
      | (s1, true) => s1
      | (s1, false) => s1.moveFailed q m.slot

/-- PAGE_MOVE_COMPLETE: a move in flight ends, its entry is rewritten, lanes that waited for it are looked at, the next moves start. -/
def execPageMoveComplete (q id : Nat) (s : State) : Out :=
  .next (match (s.pager q).flight.find? (fun m => m.id == id) with
    | none => s
    | some m =>
      let s1 := s.modPager q (fun p => { p with flight := p.flight.filter (fun x => x.id ≠ id) })
      ((s1.endMove q m (m.dst.getD 0)).lanesReady q).pagerRun q)

/-! ### context_op (R271, R272) -/

/-- Open a slot: two HBM pages after demotions, the map zero-filled (R271, R272, R275); none where the pool cannot supply them. -/
def State.openCtx (s : State) (slot : Nat) (o : CtxOpen) : Option State :=
  let s0 := s.makeRoom o.partition 2 (some slot)
  match s0.newPage o.partition false with
  | (_, none) => none
  | (s1, some a) => match s1.newPage o.partition false with
    | (_, none) => none
    | (s2, some b) =>
      let s3 := s2.zeroPage o.partition false a.1
      let s4 := if b.2 = 0 ∨ b.2 = o.tenant then s3 else s3.zeroPage o.partition false b.1
      let c := s4.ctx slot
      some ((s4.setCtx slot { c with
        st := .idle, epoch := (c.epoch + 1) % 2 ^ 32, seed := o.seed, tenant := o.tenant, partition := o.partition,
        position := 0, priority := 0x80, pages := 0, mapEntry := pageEntry false a.1, commitEntry := pageEntry false b.1,
        opens := none, damaged := false, pinned := false, used := s4.elapsed }).pagerRun o.partition)

/-- Are the fields of a context_op that its operation does not use zero (R5, R272)? -/
def ctxFieldsOk (v op : Nat) : Bool :=
  fieldOf v 136 6 == 0 && fieldOf v 8 124 == 0
    && (op == 1 || (fieldOf v 160 32 == 0 && fieldOf v 132 4 == 0))
    && (if op = 1 then true else if op = 3 then fieldOf v 224 32 == 0 else if op = 4 then fieldOf v 200 56 == 0 else fieldOf v 192 64 == 0)

/-- The slot a context_op names. -/
def ctxSlot (v : Nat) : Nat := fieldOf v 142 18

/-- Run an operation on a slot that is not FREE (R272). -/
def ruleCtx (v op : Nat) (f : State → Nat → Ctx → State × Nat) (s : State) : State × Nat :=
  if !ctxFieldsOk v op then (s, stBadValue)
  else
    let slot := ctxSlot v
    let s1 := s.lookup slot
    if (s1.ctx slot).st = .free then (s1, stNotReady) else f s1 slot (s1.ctx slot)

/-- Is a context IDLE or ACTIVE? -/
def Ctx.usable (c : Ctx) : Bool := c.st == .idle || c.st == .active

/-- An operation of an IDLE or ACTIVE context; BUSY while it closes or releases, for which R272 states no answer (DESIGN CHOICE). -/
def ruleUsable (v op : Nat) (f : State → Nat → Ctx → State × Nat) (s : State) : State × Nat :=
  ruleCtx v op (fun t slot c => if c.usable then f t slot c else (t, stBusy)) s

/-- An OPEN waits for the release of its slot; the read-back of context_op follows this slot (R272, R399). -/
def State.latchOpen (s : State) (slot : Nat) (o : CtxOpen) : State :=
  (s.setCtx slot { s.ctx slot with opens := some o }).setObj 0x3400 2 1 slot

/-- The own rule of OPEN (R272). -/
def ruleCtxOpen (v : Nat) (s : State) : State × Nat :=
  let o : CtxOpen := { seed := fieldOf v 192 64, tenant := fieldOf v 160 32, partition := fieldOf v 132 4 }
  if !ctxFieldsOk v 1 ∨ o.partition > 11 ∨ !(s.pool o.partition).applied then (s, stBadValue)
  else
    let slot := ctxSlot v
    let s1 := s.lookup slot
    let c := s1.ctx slot
    match c.st with
    | .free => match s1.openCtx slot o with
      | some s2 => (s2, stOk)
      | none => (s1, stRefused)
    | .closing => (s1.latchOpen slot o, stRestartPending)
    | .releasing => (s1.latchOpen slot o, stRestartPending)
    | _ => (s1, stBusy)

/-- The own rule of CLOSE (R271, R272). -/
def ruleCtxClose (v : Nat) (s : State) : State × Nat :=
  ruleCtx v 2 (fun t slot c => match c.st with
    | .idle => ((t.dropMoves c.partition slot).setCtx slot { c with st := .releasing }, stOk)
    | .active => (t.setCtx slot { c with st := .closing }, stPending)
    | _ => (t.setCtx slot { c with opens := none }, stOk)) s

/-- The own rule of SET_POSITION. -/
def ruleCtxSetPosition (v : Nat) (s : State) : State × Nat :=
  ruleUsable v 3 (fun t slot c =>
    let p := fieldOf v 192 32
    if p > 16384 ∨ p < c.position then (t, stBadValue) else (t.setCtx slot { c with position := p }, stOk)) s

/-- The own rule of SET_PRIORITY. -/
def ruleCtxSetPriority (v : Nat) (s : State) : State × Nat :=
  ruleUsable v 4 (fun t slot c => (t.setCtx slot { c with priority := fieldOf v 192 8 }, stOk)) s

/-- Queue the promotion of every DDR5 page of a context that no move takes yet (R272). -/
def State.queuePromotion (s : State) (slot : Nat) : State :=
  let q := (s.ctx slot).partition
  let x := s.pagesIn slot true
  (x.2.foldl (fun t p =>
    if ((t.pager q).queue ++ (t.pager q).flight).any (fun m => m.slot == slot && m.page == p.1) then t
    else t.queueMove q .promote slot p.1 p.2 none 2) x.1).pagerRun q

/-- The own rule of PIN: demotions of the context that are still queued are withdrawn (R269). -/
def ruleCtxPin (v : Nat) (s : State) : State × Nat :=
  ruleUsable v 5 (fun t slot c =>
    (((t.withdraw c.partition slot (fun m => m.kind == .demote)).setCtx slot { c with pinned := true }).queuePromotion slot, stOk)) s

/-- The own rule of UNPIN. -/
def ruleCtxUnpin (v : Nat) (s : State) : State × Nat :=
  ruleUsable v 6 (fun t slot c => (t.setCtx slot { c with pinned := false }, stOk)) s

/-- The own rule of PROMOTE. -/
def ruleCtxPromote (v : Nat) (s : State) : State × Nat :=
  ruleUsable v 7 (fun t slot _ => (t.queuePromotion slot, stOk)) s

/-- The own rule of DEMOTE. -/
def ruleCtxDemote (v : Nat) (s : State) : State × Nat :=
  ruleCtx v 8 (fun t slot c =>
    if (t.pool c.partition).ddr.size = 0 then (t, stBadValue)
    else if c.st ≠ .idle ∨ c.pinned then (t, stBusy)
    else ((t.queueDemotion c.partition slot 2).pagerRun c.partition, stOk)) s

/-- The own rule of READ. -/
def ruleCtxRead (v : Nat) (s : State) : State × Nat :=
  ruleCtx v 9 (fun t _ c => (t.setObj 0x3400 3 0 c.word, stOk)) s

/-- OPEN of context_op. -/
def execCtxOpen (sess : Nat) (v : BitVec 256) (s : State) : Out := s.commandOut sess 0x3400 2 (ruleCtxOpen v.toNat)
/-- CLOSE of context_op. -/
def execCtxClose (sess : Nat) (v : BitVec 256) (s : State) : Out := s.commandOut sess 0x3400 2 (ruleCtxClose v.toNat)
/-- SET_POSITION of context_op. -/
def execCtxSetPosition (sess : Nat) (v : BitVec 256) (s : State) : Out := s.commandOut sess 0x3400 2 (ruleCtxSetPosition v.toNat)
/-- SET_PRIORITY of context_op. -/
def execCtxSetPriority (sess : Nat) (v : BitVec 256) (s : State) : Out := s.commandOut sess 0x3400 2 (ruleCtxSetPriority v.toNat)
/-- PIN of context_op. -/
def execCtxPin (sess : Nat) (v : BitVec 256) (s : State) : Out := s.commandOut sess 0x3400 2 (ruleCtxPin v.toNat)
/-- UNPIN of context_op. -/
def execCtxUnpin (sess : Nat) (v : BitVec 256) (s : State) : Out := s.commandOut sess 0x3400 2 (ruleCtxUnpin v.toNat)
/-- PROMOTE of context_op. -/
def execCtxPromote (sess : Nat) (v : BitVec 256) (s : State) : Out := s.commandOut sess 0x3400 2 (ruleCtxPromote v.toNat)
/-- DEMOTE of context_op. -/
def execCtxDemote (sess : Nat) (v : BitVec 256) (s : State) : Out := s.commandOut sess 0x3400 2 (ruleCtxDemote v.toNat)
/-- READ of context_op. -/
def execCtxRead (sess : Nat) (v : BitVec 256) (s : State) : Out := s.commandOut sess 0x3400 2 (ruleCtxRead v.toNat)

/-- PAGE_RELEASE_COMPLETE: every valid page of a RELEASING context returns to its tier tagged with its tenant; the slot is FREE, or a latched OPEN runs (R271, R276). -/
def execPageReleaseComplete (slot : Nat) (s : State) : Out :=
  .next (
    let c := s.ctx slot
    if c.st ≠ .releasing ∨ (s.pager c.partition).flight.any (fun m => m.slot == slot && m.kind != .background) then s
    else
      let back := fun (t : State) (ddr : Bool) =>
        let x := t.pagesIn slot ddr
        x.2.foldl (fun u p => u.freePage c.partition ddr p.2 c.tenant) x.1
      let s1 := back (back (s.dropMoves c.partition slot) false) true
      let c1 : Ctx := { c with st := .free, mapEntry := 0, commitEntry := 0, pages := 0, opens := none, damaged := false, pinned := false }
      let s2 := s1.setCtx slot c1
      let s3 := match c.opens with
        | some o => (s2.openCtx slot o).getD s2
        | none => s2
      s3.pagerRun c.partition)

/-! ### Pools (R274) -/

/-- Do two byte ranges overlap? -/
def rangesOverlap (a n b m : Nat) : Bool := decide (a < b + m) && decide (b < a + n)

/-- Does a window touch a region lost with a retired stack (R320)? -/
def State.windowLost (s : State) (q : Nat) : Bool :=
  let c := s.cfg q
  (List.range 6).any (fun f => rangesOverlap c.hbmBase c.hbmSize (regionBytes * f) regionBytes
    && (s.obj (0x3010 + 2 * f) 0 == 2 || s.obj (0x3010 + 2 * f + 1) 0 == 2))

/-- The own rule of object 3410+q:06. DESIGN CHOICE: a page of a pool just applied carries the partition's tenant as its tag. -/
def rulePoolApply (q v : Nat) (s : State) : State × Nat :=
  let g := fun k => s.obj (0x3410 + q) k
  let c := s.cfg q
  if v ≠ 1 then (s, stBadValue)
  else if s.ctxs.any (fun e => e.2.st != .free && e.2.partition == q) ∨ s.jobState q ≠ jsNone then (s, stBusy)
  else if g 0 % 65536 ≠ 0 ∨ g 2 % 65536 ≠ 0 ∨ g 0 + 65536 * g 1 > c.hbmSize ∨ (g 3 ≠ 0 ∧ c.ddrSize = 0)
      ∨ (g 3 ≠ 0 ∧ g 2 + 65536 * g 3 > c.ddrSize) ∨ g 4 % 32 ≠ 0 ∨ 262144 + g 4 > c.hbmSize
      ∨ (g 1 ≠ 0 ∧ g 4 < g 0 + 65536 * g 1 ∧ g 0 < 262144 + g 4) ∨ g 5 < 32 ∨ g 5 > 32768 ∨ g 5 % 32 ≠ 0 then (s, stBadValue)
  else if s.windowLost q then (s, stRefused)
  else
    let s1 := s.modPool q (fun _ => { applied := true, hbmOffset := g 0, ddrOffset := g 2, laneArea := g 4, kvBytes := g 5,
                                      hbm := { size := g 1, tag := c.tenant }, ddr := { size := g 3, tag := c.tenant } })
    ({ s1 with pagers := Tbl.put s1.pagers {} q {} }.pagerRun q, stOk)

/-- POOL_APPLY: checks and applies the page pools. -/
def execPoolApply (sess q : Nat) (s : State) : Out := s.commandOut sess (0x3410 + q) 6 (rulePoolApply q 1)

end Sys2Proof.Machine
end

