-- ==== Sys2Proof/Machine/Gating.lean ====
section
/-! DEFINITION. Power gating and sluicing: the transitions of a cluster's VL plane and the stages of a wake (17_power_delivery.md R411, R416-R419). -/

namespace Sys2Proof.Machine

/-! ### Wakes (R418, R419) -/

/-- The wake in progress of a cluster. -/
def State.wakeOf (s : State) (c : Nat) : Option Wake :=
  match (s.wakeGroup (clusterField c)).now with
  | some w => if w.cluster = c then some w else none
  | none => none

/-- Change the wake in progress of a cluster. -/
def State.setWake (s : State) (c : Nat) (w : Wake) : State := s.modWakes (clusterField c) (fun g => { g with now := some w })

/-- The rail group's current against a share of its limit, in thousandths (R419). -/
def State.groupAbove (s : State) (c ma share : Nat) : Bool := decide (ma > s.obj (0x1020 + clusterField c) 0 * share)

/-- The hold time of a wake up to an elapsed count (R419). -/
def Wake.heldTime (w : Wake) (tide : Nat) : Nat := w.held + (if w.holding then tide - w.holdAt else 0)

/-- Has a wake used its hold budget of 50 µs (R419)? -/
def Wake.spent (w : Wake) (tide : Nat) : Bool := decide (nsTide 50000 ≤ w.heldTime tide)

/-- A stage closes now or, with k = 2, an interval later; the next decision, or the clock's start, is due an interval after that (R418, R419). -/
def Wake.closeStage (w : Wake) (tide k : Nat) : Wake :=
  { w with holding := false, held := w.heldTime tide, stages := w.stages + 1, due := tide + nsTide (k * w.interval) }

/-- A hold begins, or goes on to the next reading 100 ns later (R419). -/
def Wake.hold (w : Wake) (tide : Nat) : Wake :=
  { w with holding := true, holdAt := if w.holding then w.holdAt else tide, due := tide + nsTide 100 }

/-- A stage closes with no check once the budget ran out: the next one 4 intervals later, the clock one interval after the last (R419). -/
def Wake.closeExpired (w : Wake) (tide : Nat) : Wake :=
  { w.closeStage tide (if w.stages = 7 then 1 else 4) with expired := true }

/-- Decide a stage from a reading of the rail group's current (R419). -/
def State.decideStage (s : State) (c ma : Nat) (w : Wake) : State :=
  let s1 := s.setObj (0x1020 + clusterField c) 1 0 ma
  if s.groupAbove c ma 980 then
    let s2 := s1.setWake c (w.hold s.elapsed)
    if w.holding then s2 else s2.count 0x1010 2 0 32
  else if s.groupAbove c ma 900 then (s1.setWake c (w.closeStage s.elapsed 2)).count 0x1010 3 0 32
  else s1.setWake c (w.closeStage s.elapsed 1)

/-- SLUICE_STAGE_DECISION: at its decision time the next stage of a wake is decided by the rail group's current; without a check once the hold budget ran out. -/
def execSluiceStageDecision (c ma : Nat) (s : State) : Out :=
  .next (match s.wakeOf c with
    | some w =>
      if w.stages ≥ 8 ∨ w.holding ∨ s.elapsed < w.due then s
      else if w.expired then s.setWake c (w.closeExpired s.elapsed)
      else s.decideStage c ma w
    | none => s)

/-- SLUICE_HOLD_READING: a reading during a hold, every 100 ns while the budget lasts. -/
def execSluiceHoldReading (c ma : Nat) (s : State) : Out :=
  .next (match s.wakeOf c with
    | some w => if w.holding ∧ w.due ≤ s.elapsed ∧ !w.spent s.elapsed then s.decideStage c ma w else s
    | none => s)

/-- HOLD_BUDGET_EXPIRY: after 50 µs of holds the stage closes at once and every later one without a check. -/
def execHoldBudgetExpiry (c : Nat) (s : State) : Out :=
  .next (match s.wakeOf c with
    | some w =>
      if w.holding ∧ w.spent s.elapsed then (s.setWake c (w.closeExpired s.elapsed)).count 0x1010 4 0 32 else s
    | none => s)

/-! ### Gates (R411, R416, R417) -/

/-- Is a queue at rest for gating: EMPTY, or STALLED at a WAIT with nowd (R416)? -/
def State.queueAtRest (s : State) (n q : Nat) : Bool :=
  s.qState n q == qsEmpty
    || (s.qState n q == qsStalled && (match s.cmdWord n (s.qPc n q) with
        | some w => opcodeOf w == 0x01 && bitOf w 119
        | none => false))

/-- May a tile's cluster be gated as far as the tile goes (R416)? -/
def State.tileGateable (s : State) (n : Nat) : Bool :=
  let st := s.tileState n
  (st == tsHole || st == tsReserve || st == tsOffered || st == tsRetired || st == tsClosed
    || (st == tsActive && (match s.ownerOf n with
        | some q => s.jobState q == jsWaiting
            && (s.job q).elim false (fun j => decide (j.since + 4000 * s.obj 0x1010 1 ≤ s.elapsed))
            && [0, 1, 2, 3].all (s.queueAtRest n)
        | none => false)))
    && !s.chunks.any (fun e => e.2.elim false (fun k => k.tile == n))
    && (s.twinPartition n).isNone
    && !partitionNumbers.any (fun q => (s.job q).elim false (fun j => j.scrubLeft.contains n))

/-- The conditions of R416 for gating a cluster. -/
def State.gateable (s : State) (c : Nat) : Bool := (tilesOfCluster c).all s.tileGateable

/-- Set the state and the output frequency of a cluster's generator, unless it has failed (R455, R466). -/
def State.setClock (s : State) (c v mhz : Nat) : State :=
  if s.obj (0x1450 + c) 0 = 4 then s else (s.setObj (0x1450 + c) 0 0 v).setObj (0x1450 + c) 1 0 mhz

/-- Start the gating of an ON cluster: its clock stops and its ACTIVE tiles enter IDLE (R416, R417, R453, R502). -/
def State.startGate (s : State) (c : Nat) : State :=
  let s1 := ((s.setPlane c plGating).setClock c 0 0).setObj (0x1450 + c) 4 0 0
  s1.each (tilesOfCluster c) (fun t n => if t.tileState n = tsActive then t.setTileState n tsIdle else t)

/-- A gate request of a cluster: latched while it wakes, in place of a latched wake while it gates. -/
def State.gateRequest (s : State) (c : Nat) : State :=
  if s.plane c = plOn then (if s.gateable c then s.startGate c else s)
  else if s.plane c = plWaking then s.latchPlane c (some false)
  else if s.plane c = plGating then s.latchPlane c none
  else s

/-- CLUSTER_GATE_REQUEST: the sequencer, the scrub or the scheduler asks to gate a cluster. -/
def execClusterGateRequest (c : Nat) (s : State) : Out := .next (s.gateRequest c)

/-- What a gated tile loses: the live and shadow registers and the pipelines of its engines (R411). -/
def State.loseArray (s : State) (n : Nat) : State :=
  let lost : Nat → Station := fun k =>
    { fmt := 0, rows := (List.range 96).map (fun i => Config.lostRow (k + i)),
      scales := (List.range 128).map (fun i => (Config.lostRow (k + 96 + i)).toNat % 256) }
  let s1 := s.modTile n (fun t =>
    { t with vec := [], arr := { t.arr with live := lost s.fresh, shadow := lost (s.fresh + 224), folds := [] } })
  { s1 with fresh := s.fresh + 448 }

/-- GATING_COMPLETE: the plane is GATED, its arrays' registers are lost, a latched wake runs. -/
def execGatingComplete (c : Nat) (s : State) : Out :=
  .next (if s.plane c = plGating then
    let s1 := (s.setPlane c plGated).each (tilesOfCluster c) State.loseArray
    if s.planeWaits c = some true then (s1.latchPlane c none).wakeRequest c else s1
  else s)

/-- The next wake of a rail group starts (R417, R419). -/
def State.nextWake (s : State) (f : Nat) : State :=
  match (s.wakeGroup f).queue with
  | [] => s.modWakes f (fun g => { g with now := none })
  | (c, t) :: rest => s.modWakes f (fun _ => { now := some { cluster := c, asked := t, interval := s.obj 0x1010 0, due := s.elapsed }, queue := rest })

/-- A cluster is ON: its generator runs at the applied step and its IDLE tiles are ACTIVE (R416, R418, R453). -/
def State.clusterOn (s : State) (c : Nat) : State :=
  let s1 := (s.setPlane c plOn).setClock c 2 (freqTable.getD (s.obj (0x1310 + c) 0) 0)
  s1.each (tilesOfCluster c) (fun t n => if t.tileState n = tsIdle then t.setTileState n tsActive else t)

/-- CLUSTER_CLOCK_LOCK: the lock, once the clock has started after stage 7, completes the wake; a latched gate runs, and the next wake of the group starts. -/
def execClusterClockLock (c : Nat) (s : State) : Out :=
  .next (match s.wakeOf c with
    | some w =>
      if w.stages < 8 ∨ s.elapsed < w.due then s
      else
        let s1 := (((s.clusterOn c).setObj (0x1040 + c) 0xB 0 ((s.elapsed - w.asked) / 4)).count (0x1040 + c) 0xC 0 32).nextWake (clusterField c)
        if s.planeWaits c = some false then (s1.latchPlane c none).gateRequest c else s1
    | none => s)

end Sys2Proof.Machine
end

