-- ==== Sys2Proof/Machine/Prepare.lean ====
section
/-! DEFINITION. How a tile is made ready for a job: the sequence of R120 with the tile preload of R228, used by a job load, by a remap target (R509) and by a twin (R532). -/

namespace Sys2Proof.Machine

/-- The objects of a tile that a job load returns to their defaults (R56, R82, R115, R145, R162, R222). -/
abbrev jobObjects : List Nat :=
  [0x10, 0x11, 0x12, 0x13, 0x14, 0x15, 0x16, 0x17, 0x18, 0x19, 0x1B, 0x1C,
   0x21, 0x22, 0x23, 0x24, 0x27, 0x28, 0x2B,
   0x30, 0x31, 0x32, 0x33, 0x34, 0x35, 0x36, 0x37, 0x38, 0x39,
   0x40, 0x41, 0x42, 0x43, 0x61, 0x62, 0x64, 0x65, 0x66, 0x67, 0x68]

/-- Return those objects of a tile to their defaults. -/
def State.resetTileObjects (s : State) (n : Nat) : State :=
  { s with regs := s.regs.filter (fun e => !(e.1 / 16777216 == tileIx n && jobObjects.contains (e.1 / 65536 % 256))) }

/-- A row of the partition's window; zero where it decodes uncorrectable (DESIGN CHOICE: the read is reported under R316, and nothing says what is copied). -/
def State.winRead (s : State) (q offset i : Nat) : State × Row :=
  let x := s.ringRead false (s.winRow q offset + i) (some q)
  (x.1, x.2.getD 0)

/-- Copy `k` rows of the window into the command store from row `r` (R116, R120). -/
def State.copyToStore (s : State) (q offset n : Nat) (k : Nat) : State :=
  (List.range k).foldl (fun t r =>
    let x := t.winRead q offset r
    x.1.modTile n (fun u => { u with store := Tbl.put u.store 0 r (encodeRow x.2) })) s

/-- Copy `k` rows of the window into a bank from bank row `base` (R120, R228). -/
def State.copyToBank (s : State) (q offset n bank base k : Nat) : State :=
  (List.range k).foldl (fun t r =>
    let x := t.winRead q offset r
    x.1.writeSpad n bank (base + r) x.2) s

/-- Every HELD queue with a segment runs from its entry, and without one is EMPTY; a halted queue stays halted (R120 step 5, R143). -/
def State.runQueues (s : State) (n : Nat) : State :=
  s.each [0, 1, 2, 3] (fun t q =>
    if t.qState n q ≠ qsHeld then t
    else if t.qLength n q = 0 then t.setQState n q qsEmpty
    else (t.setQState n q qsRunning).setObj (tileIx n) 0x31 q (t.qEntry n q))

/-- The queues of a tile restart at a replay; in a remap target whose prologue still runs they wait for its end (R120 steps 4 and 5, R143). -/
def State.restartQueues (s : State) (n : Nat) : State := if (s.queue n 3).prologue then s else s.runQueues n

/-- Steps 3 to 5 of R120: the queues are HELD at their entries, and run at once where the image has no prologue. -/
def State.enterQueues (s : State) (n : Nat) : State :=
  let h := s.imageHeader n
  let s1 := s.each [0, 1, 2, 3] (fun t q => (t.setQState n q qsHeld).setObj (tileIx n) 0x31 q (t.qEntry n q))
  if fieldOf h 128 16 = 0 then s1.runQueues n
  else (s1.setObj (tileIx n) 0x31 3 (fieldOf h 144 16)).modQueue n 3 (fun u => { u with prologue := true })

/-- Scrub a tile and make it a tile of a partition's job: its image, preloads, numbers, step register and queues; after a scrub that failed nothing more (R97, R98, R120, R228). -/
def State.prepareTile (s : State) (q n logical step : Nat) : State :=
  match s.job q with
  | none => s
  | some j =>
    let p := j.placed.getD logical ⟨n, 0, 0, 0, 0, 0⟩
    let image := (Tbl.find j.polders p.polder).getD 0
    let s1 := ((s.scrubbed n).resetTileObjects n).modTile n (fun t =>
      { t with owner := some q, arr := { t.arr with ramp := { len := j.rampLen } }, gau := { t.gau with st := .live } })
    if s1.scrubFailed n then s1 else
    let h := (s1.winRead q image 0).2.toNat
    let s2 := s1.copyToStore q image n (fieldOf h 208 16 + 1)
    let s3 := s2.copyToBank q (image + 32 * (fieldOf h 208 16 + 1)) n (fieldOf h 188 4) (fieldOf h 178 10) (fieldOf h 192 16)
    let s4 := s3.copyToBank q p.tpOffset n p.tpBank p.tpBase p.tpRows
    let s5 := (((s4.setObj (tileIx n) 4 0 logical).setObj (tileIx n) 5 0 p.polder).setObj (tileIx n) 0x37 0 (fieldOf h 224 32)).setObj (tileIx n) 0x38 0 step
    s5.enterQueues n

/-- Has every prologue of these tiles ended (R120 step 4)? -/
def State.prologuesDone (s : State) (ns : List Nat) : Bool := ns.all (fun n => !(s.queue n 3).prologue)

/-- Are the clusters of these tiles ON (R416)? -/
def State.clustersOn (s : State) (ns : List Nat) : Bool := ns.all (fun n => s.plane (clusterOf n) == plOn)

/-- Wake every gated cluster of these tiles, in cluster order (R416, R419). -/
def State.wakeTiles (s : State) (ns : List Nat) : State :=
  let cs := ns.map clusterOf
  s.each ((List.range 90).filter (fun c => cs.contains c)) State.wakeRequest

/-- All 128 gauges of a tile become what `f` makes of each; a value that changes changes now (R222). -/
def State.rewriteGauges (s : State) (n : Nat) (f : Nat → Gauge → Gauge) : State :=
  s.modGau n (fun u => { u with gauges := (List.range 128).filterMap (fun g =>
    let old := Tbl.get u.gauges {} g
    let w : Gauge := f g old
    let v : Gauge := { w with cycle := none, prior := 0, tide := if w.value = old.value then w.tide else s.tide }
    if v = {} then none else some (g, v)) })

/-- Restore a tile's gauges from its snapshot, with the sums of other partitions where a gauge is shared; its pending entries are cleared and its gauges LIVE (R209, R214, R216). -/
def State.restoreTile (s : State) (n : Nat) : State :=
  let snap := (s.tile n).gau.snapshot
  (s.rewriteGauges n (fun g u => { u with value := (Tbl.get snap 0 g + (if u.mask = 0 then 0 else u.other)) % 2 ^ 32 })).modGau n
    (fun u => { u with pend := [], st := if u.st = .draining then .live else u.st })

/-! ### The dispatcher at a load (R248) -/

/-- The dispatcher of a partition. -/
def State.disp (s : State) (q : Nat) : Disp := Tbl.get s.disps {} q

/-- Change the dispatcher of a partition. -/
def State.modDisp (s : State) (q : Nat) (f : Disp → Disp) : State := { s with disps := Tbl.put s.disps {} q (f (s.disp q)) }

/-- A load finds its dispatcher empty: no token, no slot taken, nothing queued (R248, R251). DEDUCED: the spec states no end of a job's tokens and slots. -/
def State.clearDispatcher (s : State) (q : Nat) : State :=
  s.modDisp q (fun d => { d with parts := [], tokens := [], held := [], taken := [], queue := [] })

end Sys2Proof.Machine
end

