-- ==== Sys2Proof/Machine/Steps.lean ====
section
/-! DEFINITION. The steps of a job: entries, step starts, boundaries, twins, the barrier, abandonment and replay, remaps, pre-emption (09_polders_and_pipelines.md, 12 R299-R302, 21 R505-R514, 22 R531-R537). -/

namespace Sys2Proof.Machine

/-! ### The step ring (R229, R230) -/

/-- The window offset of the ring entry of a key (R229). -/
def entryAt (j : Job) (key : Nat) : Nat := j.hdr.ringOffset + key % 2 ^ j.hdr.ringLog2 * 256

/-- Read the rows of a ring entry. -/
def State.entryRows (s : State) (q at' : Nat) : State × List (Option Row) :=
  (List.range 8).foldl (fun acc i =>
    let x := acc.1.ringRead false (acc.1.winRow q at' + i) (some q)
    (x.1, acc.2 ++ [x.2])) (s, [])

/-- The content of an entry whose seal matches; none where R230 refuses it. -/
def State.entryOk (s : State) (q key : Nat) (r : List Row) : Option Entry :=
  let w := fun i => (r.getD i 0).toNat
  let lanes := fieldOf (w 0) 128 14
  let list := fieldOf (w 0) 64 64
  if fieldOf (w 0) 143 49 ≠ 0 ∨ w 5 ≠ 0 ∨ w 6 ≠ 0 ∨ fieldOf (w 7) 0 184 ≠ 0 ∨ lanes > 8192
      ∨ list % 32 ≠ 0 ∨ !s.inWindow q list (4 * lanes) then none
  else some { key := key, lanes := lanes, laneList := list, endAfter := bitOf (w 0) 142, args := (r.drop 1).take 4 }

/-- Read the entry of a key: none where no seal matches, `some none` where it matches and R230 refuses the content. A row that decodes uncorrectable matches nothing. -/
def State.readEntry (s : State) (q key : Nat) : State × Option (Option Entry) :=
  match s.job q with
  | none => (s, none)
  | some j =>
    let x := s.entryRows q (entryAt j key)
    let rows := x.2.filterMap id
    if rows.length < 8 ∨ fieldOf (rows.getD 7 0).toNat 192 64 ≠ 2 ^ 64 - 1 - key % 2 ^ 64 then (x.1, none)
    else (x.1, some (x.1.entryOk q key rows))

/-- Write one field of a row of the window. -/
def State.putField (s : State) (q offset lo w v : Nat) : State :=
  match s.ringRead false (s.winRow q offset) (some q) with
  | (s1, some d) => s1.ringWrite false (s1.winRow q offset) (BitVec.ofNat 256 (setField d.toNat lo w v))
  | (s1, none) => s1

/-- Write the disposition of an entry (R229). -/
def State.dispose (s : State) (q key d : Nat) : State :=
  match s.job q with
  | some j => s.putField q (entryAt j key + 224) 184 8 d
  | none => s

/-- An accepted entry with bad content: counted and reported once per key (R230, R292). -/
def State.refuseEntry (s : State) (q key : Nat) : State :=
  if (s.job q).elim true (fun j => j.refused == some key) then s
  else
    let s1 := (s.modJob q (fun j => { j with refused := some key })).count (0x5010 + q) 0xA 0 32
    (s1.outside q 1).reportFor (some q) clProgram (susPartition q) (susBlock 0) stBadValue key

/-! ### Argument rows (R235) -/

/-- A scratchpad address in the form of R109. -/
def padAddr (device logical handle row : Nat) : BitVec 64 :=
  BitVec.ofNat 64 (2 ^ 54 * device + 2 ^ 38 * logical + 2 ^ 32 * handle + row)

/-- The key of an argument row's target in `Job.args`. -/
def argKey (pos : Nat) (far : BitVec 64) : Nat := 2 ^ 64 * pos + far.toNat

/-- Write each argument row to each of its targets as a WRITE packet with src_logical 0xFFFF (R235 step 3). -/
def State.sendArgs (s : State) (q : Nat) : State :=
  match s.job q with
  | none => s
  | some j =>
    let src := (s.sequencerPos q).getD 0
    let one := fun (t : State) (a : ArgTarget) =>
      let pos := j.map.getD a.logical 0
      let far := padAddr t.ownDevice a.logical a.handle a.row
      let row := (j.entry.elim [] (·.args)).getD a.arg 0
      (t.modJob q (fun k => { k with args := k.args ++ [argKey pos far] })).emit (.packet src false
        { ptype := .write, rows := 1, job := t.jobId q, partition := q, srcX := xOf src, srcY := yOf src,
          dstX := xOf pos, dstY := yOf pos, srcDevice := t.ownDevice, srcLogical := 0xFFFF, farAddr := far,
          data := [encodeRow row] })
    s.each j.targets one

/-! ### Twins (R531-R537) -/

/-- The logical tile that a step twins, if any (R531, R535). -/
def Job.twins (j : Job) (step : Nat) : Option Nat :=
  match j.retwin with
  | some (l, k + 1) => if k < 16 then some l else none
  | _ => if j.twinEvery ≠ 0 ∧ step % j.twinEvery = 0 then some (step / j.twinEvery % max 1 j.map.length) else none

/-- The free tile that R531 takes as the twin of a position: from the pool, then from the reserve tiles outside every pool. -/
def State.twinCandidate (s : State) (q primary : Nat) : Option Nat :=
  let busy := s.remapTargets ++ partitionNumbers.flatMap (fun p => ((s.twinRun p).toList ++ (s.twinNext p).toList).map (·.twin))
  let pick := fun (ns : List Nat) =>
    (best primary (ns.filter (fun n => fieldNo n == fieldNo primary))).or (best primary ns)
  (pick (allTiles.filter (fun n => s.inPool q n && !busy.contains n && !s.scourDue n))).or
    (pick (allTiles.filter (fun n => s.tileState n == tsReserve && (s.partitionOf n).isNone && !s.isChosen n && !busy.contains n && !s.scourDue n)))

/-- Load the twin of a logical tile as a remap target is loaded, with the primary's shared masks; one whose scrub fails closes and is given up (R98, R509, R532). -/
def State.loadTwin (s : State) (q : Nat) (t : TwinRun) : State :=
  let g := (s.tile t.primary).gau.gauges
  let s1 := ((s.discardChunk t.twin).wakeRequest (clusterOf t.twin)).prepareTile q t.twin t.logical t.step
  if s1.scrubFailed t.twin then (s1.failScrub t.twin tsReserve).dropTwinOf t.twin
  else s1.rewriteGauges t.twin (fun i u => { u with mask := (Tbl.get g {} i).mask })

/-- Prepare the twin of a step, where the step is twinned and a tile is free (R531, R532). -/
def State.prepareTwin (s : State) (q step : Nat) : State :=
  match s.job q with
  | none => s
  | some j => match j.twins step, j.twinNext with
    | some l, none =>
      let primary := j.map.getD l 0
      match s.twinCandidate q primary with
      | some n =>
        let t : TwinRun := { logical := l, primary := primary, twin := n, step := step }
        (s.modJob q (fun k => { k with twinNext := some t })).loadTwin q t
      | none => s
    | _, _ => s

/-- At a step start the twin prepared for the step becomes the one that runs; a run still unfinished ends INCONCLUSIVE; a step that should be twinned and has no twin is counted (R531, R535). -/
def State.takeTwin (s : State) (q step : Nat) : State :=
  let s1 := s.prepareTwin q step
  match s1.job q with
  | none => s1
  | some j =>
    let wanted := j.twins step
    let s2 := if wanted.isSome then s1.modJob q (fun k => { k with retwin := (match k.retwin with
      | some (l, n + 1) => if n = 0 then none else some (l, n)
      | x => x) }) else s1
    match j.twinNext with
    | some t =>
      if t.step = step then (s2.dropTwin q).modJob q (fun k => { k with twin := some t, twinNext := none }) else s2.discardNext q
    | none => if wanted.isSome then s2.count 0x6050 4 0 32 else s2

/-- A twin's gauges take the primary's boundary snapshot, and both digests start anew (R532, R533). -/
def State.armTwin (s : State) (q : Nat) : State :=
  match s.twinRun q with
  | some t =>
    if t.differs.isSome then s.modTile t.primary (fun u => { u with digest := [] })
    else
      let snap := (s.tile t.primary).gau.snapshot
      let s1 := (s.rewriteGauges t.twin (fun g u => { u with value := Tbl.get snap 0 g, other := 0 })).modTile t.twin
        (fun u => { u with digest := [], gau := { u.gau with snapshot := snap } })
      s1.modTile t.primary (fun u => { u with digest := [] })
  | none => s

/-! ### Step starts (R235, R300, R301) -/

/-- The chunk that runs in a slack window of a partition stops (R530). -/
def State.stopSlack (s : State) (q : Nat) : State :=
  match Tbl.get s.chunks none q with
  | some k => if k.inserted then s else { s with chunks := Tbl.put s.chunks none q (some { k with stopped := true }) }
  | none => s

/-- Steps 1 to 3 of R235 with an accepted entry: disposition 0x01, the step number, the clusters woken, the lanes handed over, the arguments written (R235, R416, R530). -/
def State.startStep (s : State) (q : Nat) (e : Entry) : State :=
  match s.job q with
  | none => s
  | some j =>
    let step := s.step' q
    let s1 := (s.dispose q e.key 1).putField q (entryAt j e.key) 192 64 step
    let s2 := (s1.modJob q (fun k => { k with entry := some e, refused := none, starting := true, args := [], ready := false, startAt := none, watches := k.watches.map (fun w => { w with reached := false }), slackAt := if s.jobState q = jsWaiting ∧ k.since < s.elapsed then s.elapsed else k.slackAt })).toJobState q jsStepping
    let s3 := s2.stopSlack q
    (((s3.wakeTiles j.map).laneHandover q e).takeTwin q step).sendArgs q

/-- Read the entry of the next step in step mode, and start it on a matching seal (R230, R236, R239). -/
def State.pollEntry (s : State) (q : Nat) : State :=
  match s.job q with
  | none => s
  | some j =>
    if s.jobState q ≠ jsWaiting ∨ j.cadence ∨ j.weirHold ∨ j.scourHold then s
    else match s.readEntry q (s.step' q) with
      | (s1, none) => (s1.modJob q (fun k => { k with polledAt := some s.elapsed })).count (0x5010 + q) 9 0 64
      | (s1, some none) => s1.refuseEntry q (s.step' q)
      | (s1, some (some e)) => s1.startStep q e

/-- Is a read of the step entry due: poll_ns, within 100 ns, after the last that found no seal (R239)? -/
def State.pollDue (s : State) (q : Nat) : Bool :=
  ((s.job q).bind (·.polledAt)).elim true (fun t => decide (t + nsTide (s.obj (0x5000 + q) 0xA - 100) ≤ s.elapsed))

/-- ENTRY_POLL: the sequencer reads the step entry; before poll_ns have passed, nothing. -/
def execEntryPoll (q : Nat) (s : State) : Out := .next (if s.pollDue q then s.pollEntry q else s)

/-- The threshold of a watch in a step (R126, R227). -/
def Job.watchThreshold (j : Job) (step : Nat) (w : Watch) : Nat :=
  (w.base + w.perStep * ((step + 2 ^ 64 - j.hdr.firstStep) % 2 ^ 32)) % 2 ^ 32

/-- Has the gauge of a watch reached its threshold (R197, R236)? -/
def State.watchMet (s : State) (q : Nat) (j : Job) (w : Watch) : Bool :=
  reached (s.gauge (j.map.getD w.logical 0) w.gauge).value (j.watchThreshold (s.step' q) w)

/-- Step 4 of R235: every tile takes its snapshot and the step number, and watches already reached notify (R214, R236). -/
def State.writeRegisters (s : State) (q : Nat) : State :=
  match s.job q with
  | none => s
  | some j =>
    let s1 := s.each j.map (fun t n => (t.snapshotTile n).setObj (tileIx n) 0x38 0 (s.step' q))
    let s2 := (s1.armTwin q).modJob q (fun k => { k with watches := k.watches.map (fun w => { w with reached := s1.watchMet q j w }) })
    match s2.twinRun q with
    | some t => s2.setObj (tileIx t.twin) 0x38 0 (s.step' q)
    | none => s2

/-! ### Boundaries (R234, R236, R240) -/

/-- Are all pending-signal entries of a job's tiles free (R213)? -/
def State.jobPendFree (s : State) (q : Nat) : Bool :=
  ((s.job q).elim [] (·.map)).all (fun n => (s.tile n).gau.pend.all (fun e => !e.2.valid))

/-- Row `i` of the save area's map: 16 physical numbers (R240). -/
def mapRowOf (map : List Nat) (i : Nat) : Nat :=
  ((List.range 16).map (fun k => 2 ^ (16 * k) * map.getD (16 * i + k) 0)).sum

/-- Write the save area: the map, the gauges by logical tile, the first row last (R213, R240). -/
def State.writeSave (s : State) (q : Nat) : State :=
  match s.job q with
  | none => s
  | some j =>
    let n := j.map.length
    let rows := (2 * n + 31) / 32
    let base := s.winRow q j.hdr.saveAt
    let s1 := (List.range rows).foldl (fun t i => t.ringWrite false (base + 1 + i) (BitVec.ofNat 256 (mapRowOf j.map i))) s
    let s2 := j.map.zipIdx.foldl (fun t e => (List.range 16).foldl (fun t r =>
      let v := ((List.range 8).map (fun k => 2 ^ (32 * k) * (s.gauge e.1 (8 * r + k)).value)).sum
      t.ringWrite false (base + 1 + rows + 16 * e.2 + r) (BitVec.ofNat 256 v)) t) s1
    let step := s.step' q
    s2.ringWrite false base (BitVec.ofNat 256 (step + 2 ^ 64 * j.hdr.jobId + 2 ^ 80 * n + 2 ^ 192 * (2 ^ 64 - 1 - step)))

/-- The polder numbers of a partition's job are freed (R233, R240). -/
def State.freePolders (s : State) (q : Nat) : State :=
  let mine := (List.range 256).filter (fun p => s.obj (0x5100 + p) 1 == q && s.obj (0x5100 + p) 0 == 1)
  let s1 := s.each mine (fun t p =>
    ((((t.setObj (0x5100 + p) 0 0 0).setObj (0x5100 + p) 1 0 0xFF).setObj (0x5100 + p) 2 0 0).setObj (0x5100 + p) 3 0 0).setObj (0x5100 + p) 4 0 0)
  s1.setObj 0x5030 0 0 (s1.obj 0x5030 0 - mine.length)

/-- The last status of a latched command when it takes effect (R234, R399). -/
def State.settle (s : State) (q : Nat) : State :=
  let s1 := match Tbl.get s.latches none q with
    | some .finish => s.setObj (0x5010 + q) 2 0 stOk
    | some .preempt => s.setObj (0x5010 + q) 3 0 stOk
    | some .load => s.setObj (0x5010 + q) 1 0 stOk
    | some .resume => s.setObj (0x5010 + q) 4 0 stOk
    | none => s
  { s1 with latches := Tbl.put s1.latches none q none }

/-- Pre-emption at a boundary: the save area written, every tile scrubbed and OFFERED, the polders freed; the sequencer keeps only that a saved job was loaded in cadence mode (R213, R240, R244). -/
def State.preemptSave (s : State) (q : Nat) : State :=
  match s.job q with
  | none => s
  | some j =>
    let s1 := ((s.discardTwin q).each j.map State.discardChunk).writeSave q
    let s2 := s1.each j.map (fun t n => (t.scrubbed n).passScrub n tsOffered)
    let s3 := (s2.freePolders q).settle q
    (s3.setJob q (some { hdr := { j.hdr with tiles := 0 }, cadence := j.cadence, phase := j.phase, tickBase := j.tickBase, tick := j.tick, period := j.period })).toJobState q jsSaved

/-- What a comparison with the replay's digest decides (R536): 1 the primary, 2 the twin, 3 neither. -/
def twinCase (p t p' : List (BitVec 64)) : Nat := if p' = t then 1 else if p' = p then 2 else 3

/-- The UFR of a comparison that differed (R539, R540). -/
def State.twinUfr (s : State) (q : Nat) (t : TwinRun) (suspect : Nat) (d : List (BitVec 64) × List (BitVec 64)) (p' : List (BitVec 64))
    (case' flags : Nat) : State :=
  let u := s.ufrOf 4 (susCode (susTile suspect)) clSilentData
  s.writeUfr { u with job := some (q, s.jobId q, t.step), logical := some t.logical, flags := some flags,
                      twin := some { twin := t.twin, p := d.1, t := d.2, p' := p', case' := case' } }

/-- One SILENT_DATA event against a tile; the third within 24 h condemns it, a RESERVE tile the second (R500, R536, R538). -/
def State.silentEvent (s : State) (n : Nat) : State :=
  let e := (s.hist (susCode (susTile n)) clSilentData).getD { suspect := 0, cls := 0 }
  let second := s.tileState n == tsReserve && decide (e.transient ≥ 1) && decide (s.powered - e.ev2 ≤ 86400)
  let r := s.countEvent (susCode (susTile n)) clSilentData
  if r.2 || second then r.1.condemnTile n clSilentData else r.1

/-- The replay of a step whose comparison differed has reached its boundary: R536 decides. Answers whether the step is abandoned once more for the primary's remap. -/
def State.decideTwin (s : State) (q : Nat) (t : TwinRun) (d : List (BitVec 64) × List (BitVec 64)) : State × Bool :=
  let p' := (s.tile t.primary).digest
  let c := twinCase d.1 d.2 p'
  let s0 := s.discardRun q
  if c = 1 then (((s0.silentEvent t.primary).twinUfr q t t.primary d p' 1 0), false)
  else if c = 2 then
    let s1 := s0.silentEvent t.twin
    ({ s1 with scour := Tbl.put s1.scour {} t.twin { Tbl.get s1.scour {} t.twin with next := 0, again := false, due := true } }.twinUfr q t t.twin d p' 2 0, false)
  else
    let s1 := (s0.silentEvent t.twin).abandonStep q clSilentData false
    ((s1.condemnTile t.primary clSilentData).twinUfr q t t.primary d p' 3 0, true)

/-- The boundary of a step: the entry completed, the counters advanced, the context cache told, then the latched command, end_after or the next entry (R234, R236, R240, R280, R442). -/
def State.boundary (s : State) (q : Nat) : State :=
  match s.job q with
  | none => s
  | some j =>
    let step := s.step' q
    let key := j.entry.elim step (·.key)
    let s1 := (((s.dispose q key 2).setObj (0x5010 + q) 8 0 s.tide).setObj (0x5010 + q) 5 0 ((step + 1) % 2 ^ 64)).count (0x5010 + q) 6 0 64
    let s2 := ((s1.setObj (0x6030 + q) 2 0 0).event 2 q step 2).cacheBoundary q step
    let s3 := s2.each j.map (fun t n => t.modGau n (fun u => { u with fenced := false }))
    let held := !j.cadence && decide (s.obj 0x1101 5 < 16)
    let s4 := (s3.modJob q (fun k => { k with entry := none, args := [], memFault := [], dogStep := none, dogOwner := false, drained := [], weirHold := held, startAt := none, ready := false, readys := k.readys.filter (fun r => decide (step < r.2)), twin := k.twin.map (fun t => { t with prim := some (s.tile t.primary).digest }), watches := k.watches.map (fun w => { w with reached := false }) })).toJobState q jsWaiting
    if j.routeBad then s4.haltJob q 0x02
    else if Tbl.get s4.latches none q = some .finish ∨ j.entry.elim false (·.endAfter) then (s4.settle q).endJob q false
    else if Tbl.get s4.latches none q = some .preempt ∧ s4.jobPendFree q then s4.preemptSave q
    else s4.pollEntry q

/-- Does a boundary wait for a twin's comparison (R534)? -/
def State.twinWaits (s : State) (q : Nat) : Bool :=
  (s.job q).elim false (fun j => j.twinHold && j.twin.elim false (fun t => t.started && t.differs.isNone && t.step == s.step' q))

/-- The boundary comes once the step has started, every watch is reached and no comparison is awaited (R236, R534, R536). -/
def State.proceed (s : State) (q : Nat) : State :=
  match s.job q with
  | none => s
  | some j =>
    if s.jobState q ≠ jsStepping ∨ j.starting ∨ !j.watches.all (·.reached) then s
    else if s.twinWaits q then s.modJob q (fun k => { k with twin := k.twin.map (fun t => if t.held then t else { t with held := true, heldAt := s.elapsed }) })
    else match j.twin with
      | some t => match t.differs with
        | some d =>
          let r := s.decideTwin q t d
          if r.2 then r.1 else r.1.boundary q
        | none => s.boundary q
      | none => s.boundary q

/-- Step 5 of R235: the start gauge rises by 1 in every tile of the job, and the twin of the next step is prepared (R235, R532). -/
def State.raiseStart (s : State) (q : Nat) : State :=
  match s.job q with
  | none => s
  | some j =>
    let twin := j.twin.elim [] (fun t => if t.differs.isNone ∧ t.step = s.step' q then [t.twin] else [])
    let s1 := s.each (j.map ++ twin) (fun t n => t.signalTile n j.hdr.startGauge 1 t.ownDevice 0xFFFF)
    let s2 := s1.modJob q (fun k => { k with starting := false, startAt := none, twin := k.twin.map (fun t => if t.step = s.step' q ∧ t.differs.isNone then { t with started := true } else t) })
    (s2.prepareTwin q (s.step' q + 1)).proceed q

/-- Is a step start ready for step 4: arguments acknowledged, lanes ready, remaps and prologues complete, clusters ON, no chunk running on the job's tiles (R235, R416, R509, R530)? -/
def State.startReady (s : State) (q : Nat) : Bool :=
  (s.job q).elim false (fun j => s.jobState q == jsStepping && j.starting && j.args.isEmpty && j.lanes && j.remaps.isEmpty
    && s.prologuesDone (j.map ++ (j.twin.map (·.twin)).toList) && s.clustersOn (j.map ++ (j.twin.map (·.twin)).toList)
    && !s.chunks.any (fun e => e.2.elim false (fun k => j.map.contains k.tile)))

/-! ### The barrier (R299-R301) -/

/-- The leader of a job's barrier group: its lowest device (R299). -/
def State.leader (s : State) (j : Job) : Nat := ((bitsOf j.group 256).head?).getD s.ownDevice

/-- A START reaches a member: the step registers are written and the start time is kept; a late one raises the start gauge at once (R300, R301). -/
def State.onStart (s : State) (q t : Nat) : State :=
  let s1 := (s.writeRegisters q).setObj (0x5040 + q) 0xC 0 t
  if s.tide + 4000 > t then
    ((s1.count (0x5040 + q) 0xB 0 32).reportFor (some q) clTiming (susPartition q) (susBlock 0) 0 (s.tide + 4000 - t)).raiseStart q
  else s1.modJob q (fun j => { j with startAt := some t })

/-- The leader starts the step once it holds READY from every member (R300). -/
def State.tryStart (s : State) (q : Nat) : State :=
  match s.job q with
  | none => s
  | some j =>
    let step := s.step' q
    if j.barrier ∧ s.leader j = s.ownDevice ∧ j.startAt.isNone ∧ j.ready
        ∧ (bitsOf j.group 256).all (fun d => j.readys.contains (d, step)) then
      let t := (s.tide + 4 * s.obj (0x5040 + q) 0xA + 39) / 40 * 40
      let s1 := s.each (s.members q) (fun u d => u.control d 0x15 (2 ^ 208 * s.jobId q + 2 ^ 144 * step + 2 ^ 80 * t))
      s1.onStart q t
    else s

/-- A member is ready: it tells the leader, once (R300). -/
def State.sendReady (s : State) (q : Nat) : State :=
  match s.job q with
  | none => s
  | some j =>
    if j.ready then s
    else
      let s1 := s.modJob q (fun k => { k with ready := true })
      if s.leader j = s.ownDevice then (s1.modJob q (fun k => { k with readys := k.readys ++ [(s.ownDevice, s.step' q)] })).tryStart q
      else s1.control (s.leader j) 0x14 (2 ^ 208 * s.jobId q + 2 ^ 144 * s.step' q)

/-- STEP_START_RELEASE: steps 4 and 5 of R235, through the barrier where the job uses it. -/
def execStepStartRelease (q : Nat) (s : State) : Out :=
  .next (if s.startReady q then
    if (s.job q).elim false (·.barrier) then s.sendReady q
    else (s.writeRegisters q).raiseStart q
  else s)

/-- READY: the leader notes a member that is ready. -/
def execReady (m : CtrlMsg) (s : State) : Out :=
  .next (s.onCtrl 0x14 m fun s => match s.partitionOfJob (fieldOf m.body.toNat 208 16) with
    | some q => (s.modJob q (fun j =>
        { j with readys := j.readys.filter (fun r => r ≠ (m.src, fieldOf m.body.toNat 144 64)) ++ [(m.src, fieldOf m.body.toNat 144 64)] })).tryStart q
    | none => s)

/-- START: a member that waits for it writes its step registers and waits for time T. -/
def execStart (m : CtrlMsg) (s : State) : Out :=
  .next (s.onCtrl 0x15 m fun s => match s.partitionOfJob (fieldOf m.body.toNat 208 16) with
    | some q =>
      if (s.job q).elim false (fun j => j.barrier && j.ready && j.startAt.isNone && j.starting)
          && s.startReady q && fieldOf m.body.toNat 144 64 == s.step' q then s.onStart q (fieldOf m.body.toNat 80 64)
      else s
    | none => s)

/-- BARRIER_START_TIME: time T is reached and the start gauges rise. -/
def execBarrierStartTime (q : Nat) (s : State) : Out :=
  .next (match (s.job q).bind (·.startAt) with
    | some v => if s.jobState q = jsStepping ∧ v ≤ s.tide then s.raiseStart q else s
    | none => s)

/-! ### Watches (R236) -/

/-- WATCH_NOTICE: a watch gauge has reached its threshold; the last notice brings the boundary. -/
def execWatchNotice (q w : Nat) (s : State) : Out :=
  .next (match s.job q with
    | none => s
    | some j => match j.watches[w]? with
      | none => s
      | some x =>
        if s.jobState q = jsStepping ∧ (!j.starting ∨ j.startAt.isSome) ∧ !x.reached ∧ s.watchMet q j x then
          (s.modJob q (fun k => { k with watches := k.watches.set w { x with reached := true } })).proceed q
        else s)

/-! ### Faults in a twin (R532) -/

/-- The twin runs a tile takes part in end, and a boundary that waited goes on (R532, R534). -/
def State.endTwinOf (s : State) (n : Nat) : State :=
  match s.twinPartition n with
  | some q => (s.dropTwinOf n).proceed q
  | none => s

/-- STEP_FAULT raised in a tile (R105, R116): in the partition of the job that holds it. In a twin it ends the twin run, and TILE_DATA is an event against the twin (R532). -/
def State.tileStepFault (s : State) (n cls : Nat) (suspect : Option Nat) : State :=
  match s.ownerOf n with
  | some q =>
    if s.isTwin n then
      (if cls = clTileData then (s.countEvent (susCode (susTile n)) clTileData).1 else s).endTwinOf n
    else s.stepFault q cls suspect
  | none => s

/-- STEP_FAULT in every partition that has a job loaded (R173). -/
def State.stepFaultAll (s : State) (cls : Nat) : State :=
  s.each (partitionNumbers.filter (fun q => (s.job q).isSome)) (fun t q => t.stepFault q cls none)

/-! ### Drain, restore and replay (R214, R233, R512) -/

/-- Has the local drain of a partition completed: no tracking entry in use and every SIGNAL credit back (R214)? -/
def State.drainedHere (s : State) (q : Nat) : Bool :=
  ((s.job q).elim [] (·.map)).all (fun n => s.tileState n == tsClosed
    || ((s.tile n).mov.tracks.isEmpty && (s.tile n).mov.credits == 16))

/-- Restore and replay, once the drain is complete on every member and every remap is complete (R214, R235, R294, R512). -/
def State.tryRestore (s : State) (q : Nat) : State :=
  match s.job q with
  | none => s
  | some j =>
    if s.jobState q = jsDraining ∧ j.selfDone ∧ j.remaps.isEmpty ∧ (s.members q).all (fun d => j.drained.contains d) then
      let s1 := s.each j.map (fun t n => (t.restoreTile n).restartQueues n)
      let s2 := (s1.count (0x5010 + q) 0xB 0 32).count (0x5040 + q) 3 0 32
      let s3 := (s2.modJob q (fun k => { k with starting := true, drained := [], selfDone := false, args := [] })).toJobState q jsStepping
      let s4 := match j.twin with
        | some t => if t.differs.isSome then s3 else s3.loadTwin q t
        | none => s3
      (s4.wakeTiles j.map).sendArgs q
    else s

/-- DRAIN_COMPLETE: the partition's own drain is complete; the members are told (R512). In a job that halted while it drained the gauges are restored and nothing replays (R216, R503). -/
def execDrainComplete (q : Nat) (s : State) : Out :=
  .next (match s.job q with
    | none => s
    | some j =>
      if s.jobState q = jsDraining ∧ !j.selfDone ∧ s.drainedHere q then
        ((s.modJob q (fun k => { k with selfDone := true })).toMembers q 0x21 (s.step' q) 0).tryRestore q
      else if s.jobState q = jsHalted ∧ s.drainedHere q then
        s.each (j.map.filter (fun n => (s.tile n).gau.st == .draining)) State.restoreTile
      else s)

/-! ### Loads that complete (R232, R233) -/

/-- A load is complete once every prologue and every remap is: the job enters WAITING (R120, R232, R243, R509). -/
def State.finishLoad (s : State) (q : Nat) : State :=
  match s.job q with
  | none => s
  | some j =>
    if s.jobState q = jsLoading ∧ j.remaps.isEmpty ∧ s.prologuesDone j.map then
      (s.modJob q (fun k => if k.phase = 0 then { k with phase := s.tide, tickBase := s.tide } else k)).toJobState q jsWaiting
    else s

/-! ### Remaps (R215, R509) -/

/-- The gauges of a remap target: while a step is abandoned the closed tile's snapshot with its sums of other partitions, else its current values (R215). -/
def State.giveGauges (s : State) (q closed target : Nat) : State :=
  let g := (s.tile closed).gau
  let s1 := s.modGau target (fun u => { u with gauges := g.gauges, snapshot := g.snapshot, st := if s.jobState q = jsDraining then .draining else .live })
  if s.jobState q = jsDraining then s1.rewriteGauges target (fun i u => { u with value := Tbl.get g.snapshot 0 i }) else s1

/-- Send REMAPPED (R509, R518). -/
def State.sendRemapped (s : State) (q : Nat) (r : Remap) : State :=
  let e := 2 ^ 48 * r.logical + 2 ^ 32 * r.closed + 2 ^ 16 * r.target
  s.dtlOut s.upModule false { dtype := 0x0F, arg := 5, partition := q, addr := s.step' q, cells := [encodeRow (BitVec.ofNat 256 (e + 2 ^ 64 * (2 ^ 192 - 1)))] }

/-- A tile whose number has been remapped leaves the job: RETIRED, or, closed by a failed scrub, still CLOSED; its target is its replacement (R22, R98, R502, R509). -/
def State.replaceTile (s : State) (closed target : Nat) : State :=
  if (s.tile closed).cause = 0 then ((s.unassign closed).modTile closed (fun t => { t with gau := {} })).choose closed target
  else s.retireTile closed (s.tile closed).cause (some target)

/-- Steps 2 to 5 of R509 for one remap; a target whose scrub fails closes, and the next candidate follows (R98, R505). -/
def State.doRemap (s : State) (q : Nat) (r : Remap) : State :=
  let s0 := s.prepareTile q r.target r.logical (s.step' q)
  if s0.scrubFailed r.target then ((s0.failScrub r.target tsReserve).dropTarget q r.target).startRemaps q else
  let s1 := s0.giveGauges q r.closed r.target
  let s2 := s1.modJob q (fun j => { j with map := j.map.set r.logical r.target, remaps := j.remaps.erase r, placed := j.placed.mapIdx (fun i p => if i = r.logical then { p with physical := r.target } else p) })
  let s3 := (s2.setTileState r.target tsActive).replaceTile r.closed r.target
  ((s3.sendRemapped q r).count (0x5040 + q) 2 0 32).reportFor (some q) clRecovery (susTile r.closed) (susBlock 0) 0 r.target

/-- REMAP_COMPLETE: the next remap of a partition completes; where the closed tile's gauges cannot be read, the job halts (R215, R510). -/
def execRemapComplete (q : Nat) (readable : Bool) (s : State) : Out :=
  .next (match s.job q with
    | none => s
    | some j => match j.remaps with
      | [] => s
      | r :: _ =>
        if !readable then s.haltJob q 0x0A
        else if s.plane (clusterOf r.target) ≠ plOn then s.wakeRequest (clusterOf r.target)
        else ((s.doRemap q r).finishLoad q).tryRestore q)

/-! ### Cadence mode (R243, R244, R442) -/

/-- A tick dropped: the miss counted, reported and told to the reeve die (R244, R292, R365). -/
def State.dropTick (s : State) (q t : Nat) : State :=
  (((s.count (0x5020 + q) 3 0 64).outside q 2).event 2 q (s.step' q) 3).reportFor (some q) clCadenceMiss (susPartition q) (susBlock 0) 0 t

/-- A tick whose frame is dropped: its entry's disposition, and the tick (R244). -/
def State.missTick (s : State) (q t : Nat) : State :=
  let x := s.readEntry q t
  (if x.2.isSome then x.1.dispose q t 3 else x.1).dropTick q t

/-- The tide count of tick `t`: ticks go on from the last one at the period in force (R243). -/
def Job.tickDue (j : Job) (t : Nat) : Nat := j.tickBase + 4 * ((t - j.tick.getD 0) * j.period)

/-- Is tick `t` the next or a later one, and is it its time: within 2 ns before and the 50 ns in which the sequencer acts (R243, R244)? A phase still open gives no tick its time. -/
def Job.tickNow (j : Job) (tide t : Nat) : Bool :=
  j.phase != 0 && j.tick.all (fun u => decide (u < t)) && decide (j.tickDue t ≤ tide + 8) && decide (tide ≤ j.tickDue t + 200)

/-- How many ticks, counted from `tickBase`, fall before a tide count. -/
def Job.ticksBefore (j : Job) (tide : Nat) : Nat := (tide - j.tickBase + (4 * j.period - 1)) / (4 * j.period)

/-- A forward step of `x` units jumps over the ticks of a partition that lie between: none is taken, each counts as a cadence miss (R244, R459). -/
def State.jumpTicks (s : State) (q x : Nat) : State :=
  match s.job q with
  | none => s
  | some j =>
    let first := max (if j.tick.isSome then 1 else 0) (j.ticksBefore (s.tide + 1))
    let n := j.ticksBefore (s.tide + x) - first
    if !j.cadence ∨ s.jobState q = jsNone ∨ j.phase = 0 ∨ n = 0 then s
    else
      let s1 := s.each ((List.range n).map (fun i => j.tick.getD 0 + first + i)) (fun t k =>
        if s.jobState q = jsStepping ∨ s.jobState q = jsDraining ∨ s.jobState q = jsWaiting then t.dropTick q k else t.count (0x5020 + q) 3 0 64)
      let last := j.tick.getD 0 + first + n - 1
      s1.modJob q (fun k => { k with tick := some last, tickBase := j.tickDue last })

/-- CADENCE_TICK: tick `t` of a partition. A period written since the last tick is in force from this one on (R243). -/
def execCadenceTick (q t : Nat) (s : State) : Out :=
  .next (match s.job q with
    | none => s
    | some j =>
      if !j.cadence ∨ s.jobState q = jsNone ∨ !j.tickNow s.tide t then s
      else
        let s0 := s.modJob q (fun k => { k with tick := some t, tickBase := j.tickDue t, period := s.obj (0x5020 + q) 1 })
        let st := s.jobState q
        if st = jsStepping ∨ st = jsDraining then s0.missTick q t
        else if st = jsWaiting then
          if t % 16 ≥ s.obj 0x1101 5 then s0.missTick q t
          else
            match s0.readEntry q t with
            | (s1, none) => s1.count (0x5020 + q) 4 0 64
            | (s1, some none) => (s1.refuseEntry q t).count (0x5020 + q) 4 0 64
            | (s1, some (some e)) => (s1.setObj (0x5020 + q) 5 0 t).startStep q e
        else s0.count (0x5020 + q) 3 0 64)

/-- WEIR_HOLD_EXPIRY: the weir's hold of the next step start ends, and the entry is read. -/
def execWeirHoldExpiry (q : Nat) (s : State) : Out :=
  .next (if (s.job q).elim false (·.weirHold) then (s.modJob q (fun j => { j with weirHold := false })).pollEntry q else s)

end Sys2Proof.Machine
end

