-- ==== Sys2Proof/Machine/Send.lean ====
section
/-! DEFINITION. What leaves a tile: the destination of a request (R175, R193, R337), far SIGNALs (R129, R130, R174), the step digest of a twin run (R533). -/

namespace Sys2Proof.Machine

/-! ### Digests (R533) -/

/-- Does a tile take part in a twin run (R533)? -/
def State.inTwin (s : State) (n : Nat) : Bool :=
  (s.ownerOf n).elim false (fun q => (s.twinRun q).elim false (·.names n))

/-- Add what a queue sends to its digest (R533). DEDUCED: each field enters in whole bytes, least-significant first, in the order R533 names them. -/
def State.digestAdd (s : State) (n q : Nat) (bs : List Byte) : State :=
  if s.inTwin n then
    s.modTile n (fun t => { t with digest := (List.range 4).map (fun k =>
      let c := t.digest.getD k (BitVec.allOnes 64)
      if k = q then crc64Run c bs else c) })
  else s

/-! ### Destinations (R175, R193, R337) -/

/-- The route mask of a device (R337, object 4000:04). -/
def State.routeMask (s : State) (device : Nat) : Nat := s.obj 0x4000 4 device % 65536

/-- Is a device field the device's own (R193)? -/
def State.isOwn (s : State) (device : Nat) : Bool := device == s.ownDevice

/-- The port that carries request `j` of a tile to a device; none where no port may (R337). -/
def State.portFor (s : State) (device portMask j logical : Nat) : Option Nat :=
  let m := if portMask = 0 then s.routeMask device else s.routeMask device &&& portMask
  match bitsOf m 16 with
  | [] => none
  | ps => some (ps.getD ((j + logical) % ps.length) 0)

/-- The mesh position of a Causeway port (R26, R175). -/
def State.portPos (s : State) (k : Nat) : Nat := (s.entryPos (causewayPos k) true).getD (causewayPos k)

/-- The packet fields every request of a tile carries (R170, R171). -/
def State.requestFrom (s : State) (n dst : Nat) : Packet :=
  { job := (s.ownerOf n).elim 0 s.jobId, partition := (s.ownerOf n).getD 0xF, srcX := xOf n, srcY := yOf n,
    dstX := xOf dst, dstY := yOf dst, srcDevice := s.ownDevice, srcLogical := s.logicalOf n }

/-! ### Far SIGNALs (R129, R130, R174) -/

/-- Where a far SIGNAL goes: a position, or the status it ends with where it has no destination (R130). -/
def State.signalTarget (s : State) (n device logical : Nat) : Except Nat Nat :=
  if s.isOwn device then
    match (s.ownerOf n).bind (fun q => s.physicalOf q logical) with
    | some p => .ok p
    | none => .error stBadValue
  else match s.portFor device 0 0 (s.logicalOf n) with
    | some k => .ok (s.portPos k)
    | none => .error stRefused

/-- The unit at a far address, as a report names a closed one: its tile on the own device, else its device (R493). -/
def State.farUnit (s : State) (n addr : Nat) : Suspect :=
  let device := fieldOf addr 54 8
  if s.isOwn device then
    (((s.ownerOf n).bind (fun q => s.physicalOf q (fieldOf addr 38 16))).map susTile).getD (susTile n)
  else susDevice device

/-- A far SIGNAL to an address that ended with a status other than OK: recorded, and reported with the target's address as detail and a closed target as the closed unit; one refused, or without destination, is counted (R130, R211, R222). -/
def State.signalRefused (s : State) (n q st addr : Nat) (unsent : Bool := false) : State :=
  let s1 := s.setObj (tileIx n) 0x32 q st
  (if unsent ∨ st = stFenced ∨ st = stAccessDenied then s1.count (tileIx n) 0x65 0 32 else s1).tileReport n clTransfer st addr
    (if st = stFenced then some (s.farUnit n addr) else none)

/-- Send a far SIGNAL of a queue (R129, R130, R174, R532, R533). -/
def State.sendSignal (s : State) (n q : Nat) (d : Deferred) : State :=
  let s0 := s.digestAdd n q (leBytes 1 d.gauge ++ leBytes 2 d.add ++ leBytes 1 d.device ++ leBytes 2 d.tile)
  if s.isTwin n then s0
  else match s0.signalTarget n d.device d.tile with
    | .error st => s0.signalRefused n q st (padAddr d.device d.tile 0 0).toNat true
    | .ok p =>
      ((s0.modMov n (fun m => { m with credits := m.credits - 1, signals := m.signals ++ [(q, (padAddr d.device d.tile 0 0).toNat)] })).emit
        (.packet n false { s0.requestFrom n p with
          ptype := .signal, sigAdd := d.add, sigGauge := d.gauge, sigEn := true,
          farAddr := padAddr d.device d.tile 0 0 }))

/-- Apply or send a deferred signal in tile cycle `c` (R128, R129). -/
def State.applySignal (s : State) (n q c : Nat) (d : Deferred) : State :=
  if d.far then s.sendSignal n q d
  else s.signalTile n d.gauge d.add s.ownDevice (s.logicalOf n) (some c)

end Sys2Proof.Machine
end

