-- ==== Sys2Proof/Machine/Queues.lean ====
section
/-! DEFINITION. The commands that every queue may issue and those of Q-control: WAIT, SIGNAL, END, NOP, SET_HANDLE, SET_SENTINEL, the application of deferred signals, the queue watchdog (05, 08). -/

namespace Sys2Proof.Machine

/-! ### The head of a queue (R121-R125, R143) -/

/-- Does a queue issue in cycle `c`: RUNNING or STALLED, or HELD in the prologue of Q-control, and free (R120, R121, R143)? -/
def State.mayIssue (s : State) (n q c : Nat) : Bool :=
  (s.qState n q == qsRunning || s.qState n q == qsStalled || (s.qState n q == qsHeld && (s.queue n q).prologue))
    && decide ((s.queue n q).free ≤ c)

/-- An uncorrectable read of the command store: counted, reported, and a STEP_FAULT in the tile (R105, R116). -/
def State.storeFault (s : State) (n : Nat) : State :=
  ((s.count (tileIx n) 0x24 0 32).tileReport n clTileData stUncorrectable 0).tileStepFault n clTileData (some n)

/-- Run `f` on the word at the head of a queue where the queue may issue in cycle `c` and the word carries opcode `op`; a row of the store that decodes uncorrectable raises STEP_FAULT; otherwise nothing happens. -/
def State.atHead (s : State) (n q c op : Nat) (f : Nat → State) : State :=
  if s.mayIssue n q c then
    match s.cmdWord n (s.qPc n q) with
    | none => s.storeFault n
    | some w => if opcodeOf w = op then f w else s
  else s

/-- A command issues and the queue moves to its next word, free again at cycle `free`. The prologue stays in HELD (R120). -/
def State.advance (s : State) (n q free : Nat) : State :=
  let pro := (s.queue n q).prologue
  let s1 := s.issued n q (s.qPc n q + 1) free
  if pro then s1.setQState n q qsHeld else s1

/-- A command fails an issue-time check (R125); in a twin it ends the twin run (R532). -/
def State.issueFault (s : State) (n q st : Nat) : State :=
  if s.isTwin n then s.endTwinOf n else s.haltFault n q st

/-! ### WAIT (R126-R128, R197) -/

/-- The step offset that a WAIT at the head of a queue counts from: the step register's, but at the queue's entry the next one while the register still holds the step whose pass has ended (R126, R239). DEDUCED from R239 and the example of chapter 05, where a queue waits at its entry for step k + 1 before that step starts. -/
def State.waitOffset (s : State) (n q : Nat) : Nat :=
  let k := s.stepOffset n
  if s.qPc n q = s.qEntry n q then
    match (s.queue n q).ended with
    | some e => if reached e k then (e + 1) % 2 ^ 32 else k
    | none => k
  else k

/-- The threshold of a WAIT word at the head of a queue (R126, R127). -/
def State.waitThreshold (s : State) (n q w : Nat) : Nat :=
  thresholdAt (fieldOf w 64 32) (fieldOf w 96 16) (s.waitOffset n q)

/-- A WAIT at a queue's entry begins the pass of its step (R239). -/
def State.beginPass (s : State) (n q : Nat) : State :=
  if s.qPc n q = s.qEntry n q then s.modQueue n q (fun u => { u with run := s.waitOffset n q }) else s

/-- WAIT: issues where its gauge has reached the threshold, holds the queue otherwise. -/
def execWait (n q c : Nat) (s : State) : Out :=
  .next (s.atHead n q c 0x01 (fun w =>
    let g := fieldOf w 112 7
    let t := s.waitThreshold n q w
    if reached (s.gaugeAt n g c) t then (s.beginPass n q).advance n q (c + 1) else s.stall n q (waitTarget g t)))

/-! ### SIGNAL (R129, R130, R174) -/

/-- The cycle, or for Q-move the descriptor number, from which a signal issued in cycle `c` may be applied (R74, R129). -/
def State.signalReady (s : State) (n q c : Nat) : Nat :=
  if q = 0 then (s.tile n).arr.folds.foldl (fun a f => max a (f.lands + 1)) (c + 1)
  else if q = 1 then (s.tile n).vec.foldl (fun a v => max a (max v.lastWrite v.lastRead + 1)) (c + 1)
  else if q = 2 then (s.tile n).mov.nextId
  else c

/-- The signal that a SIGNAL word names (R129). -/
def signalOf (w ready : Nat) : Deferred :=
  { far := bitOf w 119, gauge := fieldOf w 112 7, add := fieldOf w 96 16, device := fieldOf w 88 8,
    tile := fieldOf w 72 16, ready := ready }

/-- Does a far SIGNAL find no send credit, although it has a destination (R124, R130, R174)? -/
def State.noSignalCredit (s : State) (n : Nat) (d : Deferred) : Bool :=
  d.far && (s.tile n).mov.credits == 0 && !s.isTwin n
    && (match s.signalTarget n d.device d.tile with
        | .ok _ => true
        | .error _ => false)

/-- SIGNAL: issues, deferred in Q-array, Q-vector and Q-move and applied at once in Q-control; waits while 8 are deferred or a far signal has no credit. -/
def execSignal (n q c : Nat) (s : State) : Out :=
  .next (s.atHead n q c 0x02 (fun w =>
    let d := signalOf w (s.signalReady n q c)
    if (s.queue n q).deferred.length ≥ 8 ∨ s.noSignalCredit n d then s.stall n q 0
    else if q = 3 then (s.advance n q (c + 1)).applySignal n q c d
    else (s.advance n q (c + 1)).modQueue n q (fun u => { u with deferred := u.deferred ++ [d] })))

/-- May the oldest deferred signal of a queue be applied in cycle `c` (R74, R129)? -/
def State.signalDue (s : State) (n q c : Nat) (d : Deferred) : Bool :=
  (if q = 2 then (s.tile n).mov.descs.all (fun m => decide (d.ready ≤ m.id)) else decide (d.ready ≤ c))
    && !(q == 0 && (s.tile n).arr.folds.any (fun f => decide (f.lands < d.ready)))
    && !(q == 1 && (s.tile n).vec.any (fun v => decide (max v.lastWrite v.lastRead < d.ready)))
    && !s.noSignalCredit n d

/-- Does a Q-move signal find an earlier descriptor that failed since END (R129)? -/
def State.suppressed (s : State) (n q : Nat) (d : Deferred) : Bool :=
  q == 2 && (s.queue n q).moveBad.elim false (fun id => decide (id < d.ready))

/-- SIGNAL_APPLY: the oldest deferred signal of a queue is applied or sent; Q-move's is suppressed and counted where an earlier descriptor failed since END. -/
def execSignalApply (n q c : Nat) (s : State) : Out :=
  .next (match (s.queue n q).deferred with
    | [] => s
    | d :: rest =>
      if s.qState n q = qsFrozen then s
      else if s.signalDue n q c d then
        let s1 := s.modQueue n q (fun u => { u with deferred := rest })
        if s.suppressed n q d then s1.count (tileIx n) 0x39 0 32 else s1.applySignal n q c d
      else s)

/-! ### END and NOP (R121, R131, R120) -/

/-- END: the queue returns to its entry, and issues again 3 cycles later; in the prologue, all queues start. -/
def execQueueEnd (n q c : Nat) (s : State) : Out :=
  .next (s.atHead n q c 0x03 (fun _ =>
    if (s.queue n q).prologue then
      let s1 := ((s.issued n q (s.qEntry n q) (c + 3)).modQueue n q (fun u => { u with prologue := false })).setQState n q qsHeld |>.runQueues n
      (s1.ownerOf n).elim s1 s1.finishLoad
    else (s.issued n q (s.qEntry n q) (c + 3)).modQueue n q (fun u => { u with moveBad := none, ended := some u.run })))

/-- NOP: occupies the queue for its cycles, 1 where the field is 0. -/
def execNop (n q c : Nat) (s : State) : Out :=
  .next (s.atHead n q c 0x04 (fun w => s.advance n q (c + max 1 (fieldOf w 104 16))))

/-! ### Q-control (R53, R88, R89, R138) -/

/-- Is a remote request on a handle in progress: a merge of reads that names it, or a WRITE held at the port (R89)? -/
def State.remoteBusy (s : State) (n h : Nat) : Bool :=
  (s.tile n).merges.any (fun m => fieldOf m.addr 32 6 == h)
    || (s.tile n).gau.held.any (fun p => fieldOf p.farAddr.toNat 32 6 == h)

/-- SET_HANDLE: stores its entry, waits while a remote request on an open handle is in progress, or halts Q-control. -/
def execSetHandle (n c : Nat) (s : State) : Out :=
  .next (s.atHead n 3 c 0x40 (fun w =>
    let h := fieldOf w 64 6
    match handleEntry (fieldOf w 0 64) with
    | none => s.issueFault n 3 stBadValue
    | some e =>
      let old := s.handle n h
      if (bitOf old hrRemoteRead || bitOf old hrRemoteWrite) && s.remoteBusy n h then s.stall n 3 0
      else (s.advance n 3 (c + 1)).setObj (tileIx n) 0x20 h e))

/-- Is a sentinel word acceptable (R53)? -/
def sentinelOk (w : Nat) : Bool :=
  decide (fieldOf w 8 8 ≠ 0xFF) && decide (fieldOf w 0 8 ≤ fieldOf w 8 8) && !bitOf w 31 && fieldOf w 16 6 == 0

/-- SET_SENTINEL: sets one sentinel's configuration word, or halts Q-control. -/
def execSetSentinel (n c : Nat) (s : State) : Out :=
  .next (s.atHead n 3 c 0x41 (fun w =>
    if fieldOf w 32 2 < 3 ∧ sentinelOk (fieldOf w 0 32) then
      (s.advance n 3 (c + 1)).setObj (tileIx n) 0x12 (fieldOf w 32 2) (fieldOf w 0 32)
    else s.issueFault n 3 stBadValue))

/-! ### The queue watchdog (R142, R217, R218) -/

/-- The gauge and threshold that the head of a queue waits for: those of a WAIT, or of the ready condition of a load behind which the head waits; none for another command (R142, R217). -/
def State.awaited (s : State) (n q : Nat) : Option (Nat × Nat × Nat) :=
  match s.cmdWord n (s.qPc n q) with
  | some w =>
    if opcodeOf w = 0x01 then some (0, fieldOf w 112 7, s.waitThreshold n q w)
    else if q = 0 ∧ (opcodeOf w = 0x10 ∨ opcodeOf w = 0x11) then
      match (s.tile n).arr.load with
      | .waiting r => r.cond.map (fun g => (1, g.1, g.2))
      | _ => none
    else none
  | none => none

/-- Is the owner of an awaited signal closed (R218)? -/
def State.ownerClosed (s : State) (n g : Nat) : Bool :=
  let u := s.gauge n g
  let tileClosed := fun (device logical part : Nat) =>
    s.isOwn device && ((s.physicalOf part logical).map (fun p => s.tileState p == tsClosed)).getD false
  (u.add != 0 && tileClosed u.device u.logical u.part)
    || (s.tile n).gau.pend.any (fun e => e.2.valid && e.2.held && e.2.gauge == g
        && (tileClosed e.2.device e.2.logical e.2.part || s.faults.peersClosed.contains e.2.device))
    || (s.tile n).gau.fenced

/-- The tiles of a waiter's job that are CLOSED (R217). -/
def State.closedInJob (s : State) (n : Nat) : Nat :=
  ((s.ownerOf n).elim [] s.jobTiles).countP (fun t => s.tileState t == tsClosed)

/-- The fields of a WAIT_TIMEOUT report, and whether the owner is closed (R217, R218). -/
def State.waitFields (s : State) (n q : Nat) : WaitFields × Bool :=
  let fields := fun (kind g t : Nat) (pending : Bool) =>
    { logical := s.logicalOf n, queue := q, kind := kind, gauge := g, threshold := t, since := s.obj (tileIx n) 0x33 q,
      pending := pending, closedInJob := s.closedInJob n : WaitFields }
  match s.awaited n q with
  | some (kind, g, t) =>
    (fields kind g t ((s.tile n).gau.pend.any (fun e => e.2.valid && e.2.held && e.2.gauge == g)), s.ownerClosed n g)
  | none => (fields 2 0xFF 0 false, false)

/-- What the 64-bit detail of a record keeps of them: threshold, gauge, kind, queue, the pending flag, the closed tiles (R493). -/
def waitDetail (w : WaitFields) : Nat :=
  w.threshold + 2 ^ 32 * w.gauge + 2 ^ 40 * w.kind + 2 ^ 42 * w.queue + (if w.pending then 2 ^ 44 else 0) + 2 ^ 45 * (w.closedInJob % 2048)

/-- Is the wait at the head of a queue timed: STALLED, and no WAIT with nowd set (R142)? -/
def State.timed (s : State) (n q : Nat) : Bool :=
  s.qState n q == qsStalled
    && (match s.cmdWord n (s.qPc n q) with
        | some w => !(opcodeOf w == 0x01 && bitOf w 119)
        | none => false)

/-- Is the condition that the head waits for met in cycle `c`, so that it issues instead (R124, R128, R142)? -/
def State.waitMet (s : State) (n q c : Nat) : Bool :=
  match s.cmdWord n (s.qPc n q) with
  | none => false
  | some w =>
    let t := s.tile n
    match opcodeOf w with
    | 0x01 => reached (s.gaugeAt n (fieldOf w 112 7) c) (s.waitThreshold n q w)
    | 0x02 => decide ((s.queue n q).deferred.length < 8) && !s.noSignalCredit n (signalOf w 0)
    | 0x10 => t.arr.load == .idle
    | 0x11 => (match t.arr.load with
        | .done => true
        | .crossing last _ _ => decide (last < c)
        | _ => false)
    | 0x30 => decide (t.mov.descs.length < 8)
    | 0x40 => !s.remoteBusy n (fieldOf w 64 6)
    | _ => true

/-- The watchdog limit of a tile's job as its load found it, in units elapsed (R141, R142). -/
def State.dogLimit (s : State) (n : Nat) : Nat :=
  nsTide (1000000 * (((s.ownerOf n).bind s.job).elim 500 (·.dogMs)))

/-- Has the wait at the head of a queue reached the limit (R142)? -/
def State.waitedOut (s : State) (n q : Nat) : Bool := decide ((s.queue n q).waitAt + s.dogLimit n ≤ s.elapsed)

/-- QUEUE_WATCHDOG_FIRE in tile cycle `w.cycle`: a timed wait that has reached its limit and whose condition is not met halts the queue with TIMEOUT and a WAIT_TIMEOUT report; in a twin the twin run ends. -/
def execQueueWatchdogFire (n : Nat) (w : QueueCycle) (s : State) : Out :=
  let q := w.queue
  .next (if s.timed n q && s.waitedOut n q && !s.waitMet n q w.cycle then
    if s.isTwin n then s.endTwinOf n
    else
      let d := s.waitFields n q
      let s0 := (s.setObj (tileIx n) 0x33 q 0).setObj (tileIx n) 0x34 q 0
      let s1 := ((s0.setQState n q qsHaltedTimeout).setObj (tileIx n) 0x32 q stTimeout).count (tileIx n) 0x36 0 32
      let s2 := if d.2 then (s.ownerOf n).elim s1 (fun p => s1.modJob p (fun j => { j with dogOwner := true })) else s1
      s2.report { cls := clWaitTimeout, suspect := susTile n, reporter := susTile n, status := stTimeout,
                  partition := (s.ownerOf n).getD 0xF, job := (s.ownerOf n).elim 0 s.jobId,
                  step := (s.ownerOf n).elim 0 s.step', detail := waitDetail d.1, ownerClosed := d.2, wait := some d.1 }
  else s)

end Sys2Proof.Machine
end

