-- ==== Sys2Proof/Machine/Array.lean ====
section
/-! DEFINITION. The MAC array: loading and swapping a stationary operand, passes and their folds, the activity ramp (02, 03, 05). -/

namespace Sys2Proof.Machine

/-! ### Stationary operands (R68, R69, R132) -/

/-- The formats a stationary operand may have (R132). -/
def stationaryFmt (f : Nat) : Bool := decide (f < 6)

/-- Scale rows of a load (R132). -/
def scaleRows (f : Nat) : Nat := if f = fmtMXFP4 then 12 else if is8 f then 6 else 24

/-- The code of output `j` in one 512-bit array row (R68). -/
def stElem (f : Nat) (row : BitVec 512) (j : Nat) : Nat :=
  if f = fmtM3 then (if j < 80 then fieldOf row.toNat (3 * j) 3 else fieldOf row.toNat (256 + 3 * (j - 80)) 3)
  else fieldOf row.toNat (j * elemBits f) (elemBits f)

/-- Pair the element rows of a load into array rows: even row low, odd row high (R68). -/
def pairRows : List Row → List (BitVec 512)
  | a :: b :: r => (b ++ a) :: pairRows r
  | _ => []

/-- The scale bytes of a plane. -/
def planeBytes (rows : List Row) (count : Nat) : List Nat := (List.range count).map (planeByte rows)

/-- Bands of a stationary operand (R68). -/
def bandsOf (f : Nat) : Nat := 96 / blockSize f

/-- Count a sentinel's events among the scale codes it checked; answers whether there was one (R52, R54). DESIGN CHOICE (notes/assumptions/114.md): the last event of a command is the last one in ascending plane order. -/
def State.sentinelCount (s : State) (n i word : Nat) (codes : List Nat) : State × Bool :=
  let out := codes.filter (fun c => decide (c < fieldOf word 0 8) || decide (c > fieldOf word 8 8) || c == 0xFF)
  match out.getLast? with
  | none => (s, false)
  | some c =>
    (((s.count (tileIx n) 0x13 i 32 out.length).setObj (tileIx n) 0x14 i s.tide).setObj (tileIx n) 0x15 i c, true)

/-- A sentinel acts once, in the cycle in which a command that produced events completes (R54). -/
def State.sentinelAct (s : State) (n word c : Nat) : State :=
  let action := fieldOf word 29 2
  let s1 := if action = 1 ∨ action = 3 then s.signalTile n (fieldOf word 22 7) 1 s.ownDevice (s.logicalOf n) (some c) else s
  if action ≥ 2 then s1.tileReport n clNumericRange 0 word else s1

/-- A command completes in cycle `c`: the sentinel word it carries acts, and a collision it met is reported (R54, R93). -/
def State.completed (s : State) (n c : Nat) (act : Option Nat) (met : Bool) : State :=
  (act.elim s (fun w => s.sentinelAct n w c)).collisionReport n met

/-- LOAD_STATIONARY: captures its handles, format, condition and sentinel word, or waits behind an earlier load. -/
def execLoadStationary (n c : Nat) (s : State) : Out :=
  .next (s.atHead n 0 c 0x10 (fun w =>
    if (s.tile n).arr.load ≠ .idle then s.stall n 0 0
    else
      let f := fieldOf w 116 4
      let eh := s.handle n (fieldOf w 54 6)
      let sh := s.handle n (fieldOf w 34 6)
      if !stationaryFmt f then s.issueFault n 0 stBadValue
      else match handleCheck eh hrStationary (fieldOf w 40 14) 192 with
        | some st => s.issueFault n 0 st
        | none => match handleCheck sh hrStationary (fieldOf w 20 14) (scaleRows f) with
          | some st => s.issueFault n 0 st
          | none =>
            (s.advance n 0 (c + 1)).modArr n (fun a => { a with load := .waiting {
              fmt := f,
              cond := if bitOf w 115 then some (fieldOf w 108 7, s.threshold n (fieldOf w 60 32) (fieldOf w 92 16)) else none,
              eHandle := eh, eRow := fieldOf w 40 14, sHandle := sh, sRow := fieldOf w 20 14,
              sentinel := s.obj (tileIx n) 0x12 0 } })))

/-- Does the ready condition of a load hold in cycle `c` (R69, R128, R197)? -/
def State.loadReady (s : State) (n c : Nat) (r : LoadReq) : Bool :=
  match r.cond with
  | some (g, t) => reached (s.gaugeAt n g c) t
  | none => true

/-- A load whose last row has crossed before cycle `c` completes (R54, R69, R93). -/
def State.completeLoad (s : State) (n c : Nat) : State :=
  match (s.tile n).arr.load with
  | .crossing last act met => if last < c then (s.modArr n (fun a => { a with load := .done })).completed n c act met else s
  | _ => s

/-- LOAD_STATIONARY_ROWS_START: the waiting load's rows cross the row bus into the shadow registers over 96 cycles and the cycles lost in collisions; a load whose rows have crossed completes. -/
def execLoadStationaryRowsStart (n c : Nat) (hits : List Contest) (s : State) : Out :=
  .next (if s.stopped n then s else match (s.tile n).arr.load with
    | .waiting r =>
      if s.loadReady n c r then
        match s.readRows n r.eHandle r.eRow 192 with
        | (s1, none) => s1.tileStepFault n clTileData (some n)
        | (s1, some es) => match s1.readRows n r.sHandle r.sRow (scaleRows r.fmt) with
          | (s2, none) => s2.tileStepFault n clTileData (some n)
          | (s2, some ss) =>
            let st : Station := { fmt := r.fmt, rows := pairRows es, scales := planeBytes ss (outputsOf r.fmt * bandsOf r.fmt) }
            let co := s2.collide n hits 1 c (hBanks r.eHandle ++ hBanks r.sHandle)
            let bad := if r.fmt = fmtT2 then
                (st.rows.map (fun row => (List.range 256).countP (fun j => isInvalid fmtT2 (stElem fmtT2 row j)))).sum
              else 0
            let ev := (co.1.count (tileIx n) 0x16 0 32 bad).sentinelCount n 0 r.sentinel st.scales
            ev.1.modArr n (fun a => { a with shadow := st, load := .crossing (slipped (co.1.lostCycles n 1 c) (c + 95)) (if ev.2 then some r.sentinel else none) co.2 })
      else s
    | _ => s.completeLoad n c)

/-- SWAP: the shadow operand becomes live once its load has completed; with no load since the last SWAP it halts Q-array. -/
def execSwap (n c : Nat) (s : State) : Out :=
  .next (s.atHead n 0 c 0x11 (fun _ =>
    let s1 := s.completeLoad n c
    match (s1.tile n).arr.load with
    | .idle => s.issueFault n 0 stBadValue
    | .done => (s1.advance n 0 (c + 1)).modArr n (fun a => { a with live := a.shadow, load := .idle, swapped := true })
    | _ => s.stall n 0 0))

/-! ### Passes (R61-R75, R133) -/

abbrev opMac : Nat := 0
abbrev opL1 : Nat := 1
abbrev opL2 : Nat := 2
abbrev opHam : Nat := 3

/-- The formats a streaming operand may have (R39, R133). -/
def streamingFmt (f : Nat) : Bool := f == fmtM4 || f == fmtMXFP4 || is8 f

/-- Does the array accept a PASS (R39, R44, R62, R63, R67, R133)? -/
def passOk (live op fold a : Nat) (wSpill aSpill multi : Bool) (rows slot : Nat) : Bool :=
  let spillOk := !(wSpill && is8 live) && !(aSpill && is8 a)
  let formats :=
    if op = opMac then macPairing live a && spillOk
    else if op = opHam then live != fmtT2 && isNarrow live && streamingFmt a && !wSpill && !aSpill
    else ((live == fmtM4 || live == fmtM3) && a == fmtM4 || live == fmtMXFP4 && a == fmtMXFP4) && !wSpill && !aSpill
  let per := if live = fmtT2 then 2 else 1
  decide (fold < 6) && streamingFmt a && formats
    && (if fold < 2 then decide (slot + per * rows ≤ 1024)
        else !multi && decide (slot + 2 * per ≤ 1024))

/-- Cycles per streamed row (R72). -/
def rowCycles (a : Nat) : Nat := if is8 a then 2 else 1

/-- The pass latency L (R73). DESIGN CHOICE (notes/assumptions/116.md): it counts from a row's last issue cycle. -/
def passLatency (live a : Nat) : Nat := if is8 live || is8 a then 14 else 13

/-- Buffer rows of the streaming element plane (R133). -/
def streamRows (a rows : Nat) : Nat := if is8 a then rows * 3 else (rows * 48 + 31) / 32

/-- Scale bytes of one streamed row (R71). -/
def streamScales (a : Nat) : Nat := if blockSize a = 32 then 3 else 6

/-- The 4-bit code of a nibble position in HAM; an M3 code enters sign-extended (R66). -/
def hamCode (f code : Nat) : Nat := if f = fmtM3 then unsignedOf (signedOf code 3) 4 else code

/-- The popcount of one pair of elements (R66). -/
def hamPair (fw w fa a : Nat) : Nat :=
  let w := hamCode fw w
  if is8 fw && !is8 fa then popCount (w % 16 ^^^ a) 4 + popCount (w / 16 ^^^ a) 4
  else if !is8 fw && is8 fa then popCount (w ^^^ a % 16) 4 + popCount (w ^^^ a / 16) 4
  else popCount (w ^^^ a) 8

/-- What one cell contributes (R61, R66). -/
def cellOf (op fw w fa a : Nat) : Int :=
  if op = opHam then hamPair fw w fa a
  else
    let x := gridOf fw w
    let y := gridOf fa a
    if op = opMac then x * y else if op = opL1 then (x - y).natAbs else (x - y) * (x - y)

/-- One segment of output `j` (R40, R65, R66): rows `lo` to `lo + len - 1` of the reduction. -/
def segmentOf (live : Station) (op a : Nat) (codes scales : List Nat) (j lo len : Nat) : Segment :=
  let sum := ((List.range len).map (fun i =>
    cellOf op live.fmt (stElem live.fmt (live.rows.getD (lo + i) 0) j) a (codes.getD (lo + i) 0))).sum
  if op = opHam then { sum := sum, exp := 0 }
  else
    let ew := live.scales.getD (lo / blockSize live.fmt * outputsOf live.fmt + j) 0
    let ea := scales.getD (lo / blockSize a) 0
    let nan := ew == 0xFF || ea == 0xFF
    let f := expAdjust live.fmt
    if op = opMac then { sum := sum, exp := (ew : Int) + ea - 254 + f + expAdjust a, nan := nan }
    else
      { sum := sum, exp := (if op = opL1 then (ew : Int) - 127 + f else 2 * ((ew : Int) - 127 + f)),
        nan := nan, fault := !nan && ew != ea }

/-- The segments of every output for one streamed row, in ascending row order (R38, R41). -/
def rowOutputs (live : Station) (op a : Nat) (codes scales : List Nat) : List (List Segment) :=
  let len := if op = opHam then 96 else segRows live.fmt a
  (List.range (outputsOf live.fmt)).map (fun j =>
    (List.range (96 / len)).map (fun k => segmentOf live op a codes scales j (k * len) len))

/-! ### The activity ramp (R76, R437) -/

/-- The cycle in which a row ready in cycle `c` issues; none where all groups are off and a ramp-up must start first (R76). -/
def rampIssue (r : Ramp) (c : Nat) : Option Nat :=
  if !r.up then none
  else match r.downAt with
    | none => some (max c r.full)
    | some d =>
      let i := r.len / 8
      if c < d then some c
      else
        let j := (c - d) / i + 1
        if j ≥ 8 then none else some (c + j * i)

/-- Fold records of a pass: streamed row `m` issues from `start + m * per` on, later by the cycles `ks` the engine lost until then, and lands L cycles after its last issue cycle (R72, R73, R75, R92). The last row carries what the PASS does when it completes. -/
def passFolds (live : Station) (op a fold slot index start : Nat) (ks : List Nat) (act : Option Nat) (met : Bool)
    (es ss : List Row) (rows : Nat) : List Fold :=
  (List.range rows).map (fun m =>
    let at' := slipped ks (start + m * rowCycles a + (rowCycles a - 1))
    { issued := at', lands := at' + passLatency live.fmt a, fold := fold, slot := slot, row := m,
      index := index, act := if m + 1 = rows then act else none, collided := m + 1 == rows && met,
      outs := rowOutputs live op a ((List.range 96).map (fun r => elemCode a es (96 * m + r)))
        ((List.range (streamScales a)).map (fun b => planeByte ss (m * streamScales a + b))) })

/-- PASS: streams its rows through the array, each row's fold to land later. With all groups off it waits for ARRAY_RAMP_UP. DESIGN CHOICE (notes/assumptions/115.md): a HAM PASS, too, checks its scale handle, reads its scale rows, and its sentinel counts their codes. -/
def execPass (n c : Nat) (hits : List Contest) (s : State) : Out :=
  .next (s.atHead n 0 c 0x12 (fun w =>
    let live := (s.tile n).arr.live
    let op := fieldOf w 118 2
    let fold := fieldOf w 115 3
    let a := fieldOf w 111 4
    let rows := fieldOf w 94 14
    let slot := fieldOf w 84 10
    let eh := s.handle n (fieldOf w 78 6)
    let sh := s.handle n (fieldOf w 58 6)
    let eRow := fieldOf w 64 14
    let sRow := fieldOf w 44 14
    let nScale := (rows * streamScales a + 31) / 32
    if !(s.tile n).arr.swapped then s.issueFault n 0 stBadValue
    else if !passOk live.fmt op fold a (bitOf w 110) (bitOf w 109) (bitOf w 108) rows slot then s.issueFault n 0 stBadValue
    else match handleCheck eh hrStream eRow (streamRows a rows) with
      | some st => s.issueFault n 0 st
      | none => match handleCheck sh hrStream sRow nScale with
        | some st => s.issueFault n 0 st
        | none => match rampIssue (s.tile n).arr.ramp c with
          | none =>
            let f := fieldNo n
            let g := Tbl.get s.slopes {} f
            if g.waiting.contains n then s
            else { s with slopes := Tbl.put s.slopes {} f { g with waiting := g.waiting ++ [n] } }
          | some start => match s.readRows n eh eRow (streamRows a rows) with
            | (s1, none) => s1.tileStepFault n clTileData (some n)
            | (s1, some es) => match s1.readRows n sh sRow nScale with
              | (s2, none) => s2.tileStepFault n clTileData (some n)
              | (s2, some ss) =>
                let co := s2.collide n hits 0 start (hBanks eh ++ hBanks sh)
                let ks := co.1.lostCycles n 0 start
                let busy := rows * rowCycles a
                let r := (s.tile n).arr.ramp
                let idle := if r.last = 0 ∨ r.downAt.isSome ∨ r.last < r.full then 0 else min r.len (start - (r.last + 1))
                let word := s.obj (tileIx n) 0x12 1
                let ev := ((co.1.count (tileIx n) 0x1B 0 64 busy).count (tileIx n) 0x1C 0 64 idle).sentinelCount n 1 word
                  (planeBytes ss (rows * streamScales a))
                let last := slipped ks (start + busy - 1)
                (ev.1.advance n 0 (last + 1)).modArr n (fun u => { u with
                  folds := u.folds ++ passFolds live op a fold slot (fieldOf w 0 32) start ks (if ev.2 then some word else none) co.2 es ss rows,
                  ramp := { u.ramp with last := last, downAt := none } })))

/-! ### Folds (R41, R42, R59, R62, R64, R65, R67) -/

/-- What the folding of one output met: the result, saturations, NaN-scale steps, unequal-code segments. -/
structure FoldSum where
  acc    : F32
  sat    : Nat := 0
  nans   : Nat := 0
  faults : Nat := 0
  deriving DecidableEq, Repr

/-- Fold segments in order (R41, R42, R65). -/
def foldSegments (init : F32) (segs : List Segment) : FoldSum :=
  segs.foldl (fun x g =>
    if g.nan then { x with acc := f32NaN, nans := x.nans + 1 }
    else if g.fault then { x with acc := f32NaN, faults := x.faults + 1 }
    else
      let r := fusedStep x.acc g.sum g.exp
      { x with acc := r.1, sat := x.sat + (if r.2 then 1 else 0) }) { acc := init }

/-- The entry `e` of a slot of the accumulator file (R59). -/
def accGet (acc : Tbl (List F32)) (slot e : Nat) : F32 := (Tbl.get acc [] slot).getD e 0

/-- Write entries of a slot; a slot of zeros is unlisted. -/
def accPut (acc : Tbl (List F32)) (slot e : Nat) (v : F32) : Tbl (List F32) :=
  let row := Tbl.get acc [] slot
  let full := row ++ List.replicate (128 - row.length) 0
  let next := full.set e v
  Tbl.put acc [] slot (if next.all (· == 0) then [] else next)

/-- The column of output `j`, for the saturation counters (R51, R64). DEDUCED: the first column of an 8-bit output. -/
def columnOf (live j : Nat) : Nat := if live = 256 then j / 2 else if live = 64 then 2 * j else j

/-- Is a candidate kept over the stored value (R67)? -/
def better32 (isMax : Bool) (cand v : F32) : Bool := if isMax then gtF32 cand v else gtF32 v cand

/-- Land the fold of one streamed row into the accumulator file (R62, R64, R67). -/
def State.landFold (s : State) (n : Nat) (f : Fold) : State :=
  let width := f.outs.length
  let two := width == 256
  (f.outs.zipIdx).foldl (fun s o =>
    let j := o.2
    let e := j % 128
    let acc := (s.tile n).arr.acc
    let compare := decide (f.fold ≥ 2)
    let dest := if compare then f.slot + j / 128 else if two then f.slot + 2 * f.row + j / 128 else f.slot + f.row
    let r := foldSegments (if f.fold = 1 then accGet acc dest e else 0) o.1
    let s1 := ((s.count (tileIx n) 0x10 (columnOf width j) 16 r.sat).count (tileIx n) 0x17 0 32 r.nans).count (tileIx n) 0x18 0 32 r.faults
    let put := fun (s : State) (slot : Nat) (v : F32) => s.modArr n (fun u => { u with acc := accPut u.acc slot e v })
    if !compare then put s1 dest r.acc
    else
      let index := dest + (if two then 2 else 1)
      let stamp := BitVec.ofNat 32 (f.index + f.row)
      if (f.fold == 2 || f.fold == 4) && f.row == 0 then put (put s1 dest r.acc) index stamp
      else if isNaN32 r.acc then s1.count (tileIx n) 0x18 0 32
      else if better32 (f.fold == 2 || f.fold == 3) r.acc (accGet acc dest e) then put (put s1 dest r.acc) index stamp
      else s1) s

/-- FOLD_LAND: the oldest fold in flight lands at the end of its cycle; with the last one of its rows a PASS completes (DEDUCED, notes/assumptions/17.md). -/
def execFoldLand (n c : Nat) (s : State) : Out :=
  .next (match (s.tile n).arr.folds with
    | f :: rest =>
      if f.lands ≤ c ∧ !s.stopped n then ((s.landFold n f).modArr n (fun u => { u with folds := rest })).completed n c f.act f.collided
      else s
    | [] => s)

/-! ### Ramp-up and ramp-down (R76, R437) -/

/-- The charges of a rail group in the trailing 1 µs (R437). -/
def recentCharges (g : RailGroup) (now : Nat) : List Nat := g.charges.filter (fun t => decide (now < t + 4000))

/-- ARRAY_RAMP_UP: the first waiting ramp-up of the rail group starts where its 3 A fit the slope budget; the row issues R cycles later. -/
def execArrayRampUp (n c : Nat) (s : State) : Out :=
  .next (
    let f := fieldNo n
    let g := Tbl.get s.slopes {} f
    let recent := recentCharges g s.elapsed
    if g.waiting.head? = some n ∧ !s.stopped n ∧ 3 * (recent.length + 1) ≤ s.obj (0x1110 + f) 0 then
      let s1 := { s with slopes := Tbl.put s.slopes {} f { charges := recent ++ [s.elapsed], waiting := g.waiting.drop 1 } }
      (s1.count (tileIx n) 0x19 0 32).modArr n (fun u => { u with
        ramp := { u.ramp with up := true, full := c + u.ramp.len, last := 0, downAt := none } })
    else s)

/-- ARRAY_RAMP_DOWN: the hold of R cycles after the last row has ended; the column groups turn off from G7 downward. -/
def execArrayRampDown (n c : Nat) (s : State) : Out :=
  .next (
    let r := (s.tile n).arr.ramp
    if r.up ∧ !s.stopped n ∧ r.downAt = none ∧ 0 < r.last ∧ r.last + r.len < c then
      (s.count (tileIx n) 0x1C 0 64 r.len).modArr n (fun u => { u with ramp := { u.ramp with downAt := some c } })
    else s)

end Sys2Proof.Machine
end

