-- ==== Sys2Proof/Machine/Flits.lean ====
section
/-! DEFINITION. Packets as the mesh carries them: the header's bits, flits and their control field, the payload's places (07 R164, R169-R173). -/

namespace Sys2Proof.Machine

/-! ### The header (R169-R172) -/

/-- The code of a packet type (R169). -/
def ptypeCode : Ptype → Nat
  | .read => 1
  | .write => 2
  | .signal => 3
  | .memRead => 4
  | .memWrite => 5
  | .data => 6
  | .fork => 7
  | .ack => 8
  | .status => 9

/-- The packet type of a code; none for a code not used (R169). -/
def ptypeOf (v : Nat) : Option Ptype :=
  [none, some .read, some .write, some .signal, some .memRead, some .memWrite, some .data, some .fork, some .ack, some .status].getD v none

/-- Is a packet on the reply plane (R169)? -/
def isReply (p : Packet) : Bool := p.ptype == .data || p.ptype == .fork || p.ptype == .ack || p.ptype == .status

/-- Bits [63:0] of a header, common to every type (R170). -/
def headerCommon (p : Packet) : Nat :=
  ptypeCode p.ptype + 2 ^ 4 * p.status + 2 ^ 12 * p.dstX + 2 ^ 18 * p.dstY + 2 ^ 23 * p.srcX + 2 ^ 29 * p.srcY
    + 2 ^ 34 * p.tag + 2 ^ 40 * p.rows + 2 ^ 44 * p.partition + 2 ^ 48 * p.job

/-- The 32 requester entries of a FORK, packed from entry 0 upward; 0x7FF is empty (R172). -/
def forkEntries (list : List (Nat × Nat)) : Nat :=
  ((List.range 32).map (fun k => 2 ^ (11 * k) * ((list[k]?).elim 0x7FF (fun e => 2 ^ 5 * e.1 + e.2)))).sum

/-- The 512 bits of a header (R170-R172). -/
def meshHeader (p : Packet) : Nat :=
  headerCommon p + 2 ^ 64 * p.farAddr.toNat + 2 ^ 128 * p.stride
    + (if p.ptype = .fork then 2 ^ 160 * forkEntries p.list
       else 2 ^ 160 * p.srcLogical + 2 ^ 176 * p.srcDevice + 2 ^ 184 * (if p.sigEn then 1 else 0) + 2 ^ 185 * p.sigGauge
         + 2 ^ 192 * p.sigAdd + 2 ^ 208 * p.xferId + 2 ^ 224 * p.byteCount + 2 ^ 256 * p.reserved)

/-- The requester entries of a FORK header's list bits, up to the first empty one (R172). -/
def forkList' (v : Nat) : List (Nat × Nat) :=
  (((List.range 32).map (fun k => fieldOf v (11 * k) 11)).takeWhile (fun e => e != 0x7FF)).map (fun e => (e / 2 ^ 5, e % 2 ^ 5))

/-- The packet of a header, without its rows; none where the type is not used (R169-R172). -/
def headerPacket (h : Nat) : Option Packet :=
  (ptypeOf (fieldOf h 0 4)).map (fun t =>
    let p : Packet := { ptype := t, status := fieldOf h 4 8, dstX := fieldOf h 12 6, dstY := fieldOf h 18 5, srcX := fieldOf h 23 6,
                        srcY := fieldOf h 29 5, tag := fieldOf h 34 6, rows := fieldOf h 40 4, partition := fieldOf h 44 4,
                        job := fieldOf h 48 16, farAddr := BitVec.ofNat 64 (fieldOf h 64 64), stride := fieldOf h 128 32 }
    if t = .fork then { p with list := forkList' (fieldOf h 160 352) }
    else { p with srcLogical := fieldOf h 160 16, srcDevice := fieldOf h 176 8, sigEn := bitOf h 184, sigGauge := fieldOf h 185 7,
                  sigAdd := fieldOf h 192 16, xferId := fieldOf h 208 16, byteCount := fieldOf h 224 32, reserved := fieldOf h 256 256 })

/-- Header codeword `k` of a packet as its sender encodes it (R170, R173). -/
def headWord (p : Packet) (k : Nat) : Codeword := encodeRow (BitVec.ofNat 256 (fieldOf (meshHeader p) (256 * k) 256))

/-- Has a header codeword `k` of a packet become uncorrectable on the way (R173)? -/
def headBad (p : Packet) (k : Nat) : Bool := (p.head[k]?).elim false (fun w => decodeWord w == .bad)

/-- A packet whose header a router has decoded and encoded afresh (R173, R184). -/
def mended (p : Packet) : Packet := { p with head := [] }

/-! ### Flits (R164, R169) -/

/-- A flit: its 20-bit control field and its two codewords (R164). -/
structure MeshFlit where
  ctl : Nat
  cw0 : Codeword := 0
  cw1 : Codeword := 0
  deriving DecidableEq, Repr

/-- The flits of a packet (R169): its head, and one for each two rows. -/
def flitsOf (p : Packet) : Nat := 1 + (p.data.length + 1) / 2

/-- The kind of flit `i` of `k`: 0 HEAD, 1 BODY, 2 TAIL, 3 SINGLE (R164). -/
def flitKind (i k : Nat) : Nat := if k = 1 then 3 else if i = 0 then 0 else if i + 1 = k then 2 else 1

/-- The control field of a flit: kind, detour class, FORK bit, leg, and the bit that makes it even parity (R164). -/
def flitCtl (kind : Nat) (leg : Leg) (fork : Bool) : Nat :=
  let v := 2 ^ 18 * kind + 2 ^ 16 * leg.vc + (if fork then 2 ^ 15 else 0) + 2 ^ 9 * leg.legX + 2 ^ 4 * leg.legY
  v + popCount v 20 % 2

/-- Does a control field arrive with even parity (R164, R165)? -/
def ctlEven (v : Nat) : Bool := popCount v 20 % 2 == 0

/-- The flits of a packet on a leg: the header, then row 2j in codeword 0 and row 2j + 1 in codeword 1; an odd last row leaves the zero codeword (R164, R169, R170). -/
def meshFlits (leg : Leg) (p : Packet) : List MeshFlit :=
  let ctl := fun i => flitCtl (flitKind i (flitsOf p)) leg (p.ptype == .fork)
  ⟨ctl 0, p.head.getD 0 (headWord p 0), p.head.getD 1 (headWord p 1)⟩
    :: (List.range ((p.data.length + 1) / 2)).map (fun j => ⟨ctl (j + 1), p.data.getD (2 * j) 0, p.data.getD (2 * j + 1) 0⟩)

end Sys2Proof.Machine
end

