-- ==== Sys2Proof/Machine/Vector.lean ====
section
/-! DEFINITION. The vector unit: the functions of VEC, their operands, cycles and writes (06). -/

namespace Sys2Proof.Machine

/-! ### Arithmetic with one rounding (R146, R148, R152) -/

abbrev f32Inf : F32 := 0x7F800000#32

/-- Infinity with a sign. -/
def f32Inf' (neg : Bool) : F32 := if neg then 0xFF800000#32 else f32Inf

/-- The exact sum of two values; NaN and infinities as IEEE 754. -/
def FVal.add : FVal → FVal → FVal
  | .nan, _ => .nan
  | _, .nan => .nan
  | .inf a, .inf b => if a = b then .inf a else .nan
  | .inf a, _ => .inf a
  | _, .inf b => .inf b
  | .fin na ma ea, .fin nb mb eb =>
    let r := exactAdd na ma ea nb mb eb
    .fin r.1 r.2.1 r.2.2

/-- The exact product of two values. -/
def FVal.mul : FVal → FVal → FVal
  | .nan, _ => .nan
  | _, .nan => .nan
  | .inf a, .inf b => .inf (a != b)
  | .inf a, .fin b m _ => if m = 0 then .nan else .inf (a != b)
  | .fin b m _, .inf a => if m = 0 then .nan else .inf (a != b)
  | .fin na ma ea, .fin nb mb eb => .fin (na != nb) (ma * mb) (ea + eb)

/-- Round a value into BF16 or FP32, to nearest even, infinity on overflow; the pattern (R148). -/
def FVal.round (bf : Bool) : FVal → Nat
  | .nan => if bf then 0x7FC0 else 0x7FC00000
  | .inf neg => (if bf then 0x7F80 else 0x7F800000) + (if neg then (if bf then 2 ^ 15 else 2 ^ 31) else 0)
  | .fin neg m e =>
    if bf then
      let q : Int := max (e + Nat.log2 m - 7) (-133)
      let mant := if e ≥ q then 2 ^ (e - q).toNat * m else shiftRne m (q - e).toNat
      let b := if m = 0 then 0 else (q + 133).toNat * 2 ^ 7 + mant
      (if neg then 2 ^ 15 else 0) + min b 0x7F80
    else (roundF32 neg m e).toNat

/-- An FP32 result in the output format (R148). -/
def toFmt (bf : Bool) (x : F32) : Nat := (decodeF32 x).round bf

/-- A key that orders the non-NaN patterns with `-0` below `+0` (R152). -/
def keyF32 (x : F32) : Int :=
  let v := x.toNat
  if bitOf v 31 then -((v % 2 ^ 31 : Nat) : Int) - 1 else ((v % 2 ^ 31 : Nat) : Int)

/-- The larger or smaller of two elements; NaN if either is (R152). -/
def pickF32 (isMax : Bool) (x y : F32) : F32 :=
  if isNaN32 x || isNaN32 y then f32NaN
  else if (if isMax then decide (keyF32 x ≥ keyF32 y) else decide (keyF32 x ≤ keyF32 y)) then x else y

/-- A finite value divided by a positive integer, rounded to nearest even (R159). -/
def divNat (x : F32) (l : Nat) : F32 :=
  match decodeF32 x with
  | .fin neg m e =>
    let num := 2 ^ 64 * m
    roundF32 neg (2 * (num / l) + (if num % l = 0 then 0 else 1)) (e - 65)
  | .inf _ => x
  | .nan => f32NaN

/-- The quotient of two FP32 values, one rounding (R148, R153). -/
def divF32 (x y : F32) : F32 :=
  match decodeF32 x, decodeF32 y with
  | .nan, _ => f32NaN
  | _, .nan => f32NaN
  | .inf _, .inf _ => f32NaN
  | .inf a, .fin b _ _ => f32Inf' (a != b)
  | .fin a _ _, .inf b => if a != b then 0x80000000#32 else 0
  | .fin a m e, .fin b k f =>
    if k = 0 then (if m = 0 then f32NaN else f32Inf' (a != b))
    else
      let num := 2 ^ 64 * m
      roundF32 (a != b) (2 * (num / k) + (if num % k = 0 then 0 else 1)) (e - f - 65)

/-! ### Transcendentals (R148): free values within what the spec states -/

abbrev f32NegInf : F32 := 0xFF800000#32
abbrev f32One : F32 := 0x3F800000#32

/-- Does a value lie within 2 ULP of every real number from `lo * 2^p` to `hi * 2^p`? The ULP is that of the end nearest to 0. -/
def within2 (v : F32) (lo hi p : Int) : Bool :=
  match decodeF32 v with
  | .fin neg m e =>
    let u : Int := max ((Nat.log2 (min lo.natAbs hi.natAbs) : Int) + p - 23) (-149) + 1
    let x : Int := if neg then -(m : Int) else m
    let d := min (min p u) e
    let sc := fun (a q : Int) => ((2 ^ (q - d).toNat : Nat) : Int) * a
    decide (sc hi p ≤ sc x e + sc 1 u) && decide (sc x e ≤ sc lo p + sc 1 u)
  | _ => false

/-- The free value `v` of a function whose exact value lies from `lo * 2^p` to `hi * 2^p`: `v` where it keeps the 2 ULP of R148, else the exact value rounded. -/
def inBounds (v : F32) (lo hi p : Int) : F32 :=
  if within2 v lo hi p then v
  else roundF32 (decide (lo < 0)) (2 * (min lo.natAbs hi.natAbs) + (if lo = hi then 0 else 1)) (p - 1)

/-- ln 2 in units of 2^-192, rounded down. -/
def ln2Fixed : Nat := 4350955369971217654477563090224794165364344896676135745069

/-- `e^(x * 2^-192)` for `0 ≤ x < ln 2`, in units of 2^-192: 48 terms of the series. -/
def expSeries (x : Nat) : Nat :=
  (List.range 48).foldl (fun acc i => 2 ^ 192 + x * acc / (2 ^ 192 * (48 - i))) (2 ^ 192)

/-- The exponential of a number in units of 2^-192: a mantissa in units of 2^-192, right to 2^16 units, and a power of 2. -/
def expFixed (x : Int) : Nat × Int :=
  let k := x / (ln2Fixed : Int)
  (expSeries (x - k * ln2Fixed).toNat, k)

/-- A finite value in units of 2^-192. -/
def fixed192 (neg : Bool) (m : Nat) (e : Int) : Int :=
  let a : Nat := if 0 ≤ e + 192 then 2 ^ (e + 192).toNat * m else m / 2 ^ (-(e + 192)).toNat
  if neg then -(a : Int) else a

/-- Exponential: NaN, `-∞` and `+∞` as the exact value (R148, R158). Above 89 the exact value lies beyond the range, below -120 within a quarter ULP of 0. -/
def expF32 (x : F32) : F32 :=
  match decodeF32 x with
  | .nan => f32NaN
  | .inf neg => if neg then 0 else f32Inf
  | .fin neg m e =>
    let a := fixed192 neg m e
    if a > 89 * (2 ^ 192 : Nat) then f32Inf
    else if a < -(120 * (2 ^ 192 : Nat) : Int) then inBounds (Config.vecExp x) 0 1 (-151)
    else
      let r := expFixed a
      inBounds (Config.vecExp x) ((r.1 : Int) - 2 ^ 16) ((r.1 : Int) + 2 ^ 16) (r.2 - 192)

/-- `ln (m * 2^e)` for a positive m below 2^64, in units of 2^-192, right to 2^16 units: `k ln 2 + 2 atanh ((f - 1) / (f + 1))` with f from 1 to 2. -/
def logFixed (m : Nat) (e : Int) : Int :=
  let l := Nat.log2 m
  let f := 2 ^ 64 * m / 2 ^ l
  let z := 2 ^ 192 * (f - 2 ^ 64) / (f + 2 ^ 64)
  let z2 := z * z / 2 ^ 192
  let t := (List.range 64).foldl (fun acc i => 2 ^ 192 / (2 * (63 - i) + 1) + z2 * acc / 2 ^ 192) 0
  (e + l) * ln2Fixed + ((2 * (z * t / 2 ^ 192) : Nat) : Int)

/-- The logarithm of `m * 2^e`, m positive, as the free value `v` where it keeps 2 ULP; exactly 0 at 1 (R148). -/
def logOf (v : F32) (m : Nat) (e : Int) : F32 :=
  if e ≤ 0 ∧ m = 2 ^ (-e).toNat then inBounds v 0 0 0
  else inBounds v (logFixed m e - 2 ^ 16) (logFixed m e + 2 ^ 16) (-192)

/-- Natural logarithm: `-∞` at zero, NaN below (R153). -/
def logF32 (x : F32) : F32 :=
  match decodeF32 x with
  | .nan => f32NaN
  | .inf neg => if neg then f32NaN else f32Inf
  | .fin neg m e => if m = 0 then f32NegInf else if neg then f32NaN else logOf (Config.vecLog x) m e

/-- Hyperbolic tangent. Below 2^-20 it lies from x(1 - 2^-40) to x, above 16 from 1 - 2^-40 to 1; between, it is `1 - 2 / (e^2x + 1)`. -/
def tanhF32 (x : F32) : F32 :=
  match decodeF32 x with
  | .nan => f32NaN
  | .inf neg => if neg then negF32 f32One else f32One
  | .fin neg m e =>
    let a := (fixed192 false m e).toNat
    let sg := fun (lo hi p : Int) => if neg then inBounds (Config.vecTanh x) (-hi) (-lo) p else inBounds (Config.vecTanh x) lo hi p
    if a < 2 ^ 172 then sg (((2 ^ 40 - 1 : Nat) : Int) * m) (((2 ^ 40 : Nat) : Int) * m) (e - 40)
    else if a > 16 * 2 ^ 192 then sg (2 ^ 40 - 1) (2 ^ 40) (-40)
    else
      let r := expFixed (2 * a : Nat)
      let w := 2 ^ r.2.toNat * r.1
      let t : Nat := 2 ^ 192 - 2 ^ 385 / (w + 2 ^ 192)
      sg ((t : Int) - 2 ^ 20) ((t : Int) + 2 ^ 20) (-192)

/-- Reciprocal: the exact value of `1 / (m * 2^e)` lies in one unit of the quotient `2^96 / m`. -/
def recipF32 (x : F32) : F32 :=
  match decodeF32 x with
  | .nan => f32NaN
  | .inf neg => if neg then 0x80000000#32 else 0
  | .fin neg m e =>
    if m = 0 then (if neg then f32NegInf else f32Inf)
    else
      let q : Int := (2 ^ 96 / m : Nat)
      let up : Int := if 2 ^ 96 % m = 0 then 0 else 1
      if neg then inBounds (Config.vecRecip x) (-(q + up)) (-q) (-96 - e) else inBounds (Config.vecRecip x) q (q + up) (-96 - e)

/-- Reciprocal square root: NaN below 0; the exact value lies in one unit of the root of an even-exponent quotient (R148, R153). -/
def rsqrtF32 (x : F32) : F32 :=
  match decodeF32 x with
  | .nan => f32NaN
  | .inf neg => if neg then f32NaN else 0
  | .fin neg m e =>
    if m = 0 then (if neg then f32NegInf else f32Inf)
    else if neg then f32NaN
    else
      let odd := e % 2 ≠ 0
      let m' := if odd then 2 * m else m
      let e' := if odd then e - 1 else e
      let q := 2 ^ 150 / m'
      let r := Nat.sqrt q
      inBounds (Config.vecRsqrt x) r (r + (if r * r = q ∧ 2 ^ 150 % m' = 0 then 0 else 1) : Nat) (-75 - e' / 2)

/-! ### A VEC under way -/

/-- How a VEC ends before it writes: an issue-time status, or an uncorrectable read. -/
inductive VecStop where
  | status (st : Nat)
  | uncorrectable (s : State)

/-- What a VEC has done so far: the state, the accumulator slots as it reads them, the banks accessed row by row, those of source rows, which every pass reads again, the accumulator slots read, the rows to write. -/
structure VecCtx where
  s      : State
  acc    : Nat → List F32
  banks  : List Nat := []
  again  : List Nat := []
  slots  : List Nat := []
  writes : List (Nat × Nat × Row) := []
  act    : Option Nat := none

/-- A stage of a VEC. -/
abbrev Vec (α : Type) := StateT VecCtx (Except VecStop) α

/-- End the command with a status (R125). -/
def Vec.stop {α : Type} (st : Nat) : Vec α := throw (.status st)

/-- Go on where a condition holds, else BAD_VALUE. -/
def Vec.need (b : Bool) : Vec Unit := if b then pure () else Vec.stop stBadValue

/-- Check rights and bounds of rows behind a handle (R89, R147). -/
def Vec.check (n h right first rows : Nat) : Vec Nat := do
  let x ← get
  let e := x.s.handle n h
  match handleCheck e right first rows with
  | some st => Vec.stop st
  | none => pure e

/-- Read `count` rows behind handle `h` from buffer row `first` (R89, R105, R149). -/
def Vec.rows (n h first count : Nat) : Vec (List Row) := do
  let e ← Vec.check n h hrVecRead first count
  let x ← get
  match x.s.readRows n e first count with
  | (s1, some ds) =>
    set { x with s := s1, banks := x.banks ++ (List.range count).map (fun i => (hPlace e (first + i)).1) }
    pure ds
  | (s1, none) => throw (.uncorrectable s1)

/-- Read accumulator slots; none beyond 1,023 (R59, R60, R147). -/
def Vec.slots (first count : Nat) : Vec (List F32) := do
  Vec.need (decide (first + count ≤ 1024))
  let x ← get
  set { x with slots := x.slots ++ (List.range count).map (first + ·) }
  pure ((List.range count).flatMap (fun i => (List.range 128).map (fun e => (x.acc (first + i)).getD e 0)))

/-- Stage rows to write behind handle `h` from buffer row `first` (R147). -/
def Vec.write (n h first : Nat) (ds : List Row) : Vec Unit := do
  let e ← Vec.check n h hrVecWrite first ds.length
  modify (fun x => { x with
    banks := x.banks ++ (List.range ds.length).map (fun i => (hPlace e (first + i)).1),
    writes := x.writes ++ (ds.zipIdx).map (fun d => ((hPlace e (first + d.2)).1, (hPlace e (first + d.2)).2, d.1)) })

/-- The fields of a VEC word (R134). -/
structure VecWord where
  aHandle : Nat
  aRow    : Nat
  bHandle : Nat
  bRow    : Nat
  dHandle : Nat
  dRow    : Nat
  count   : Nat
  fmtIn   : Nat
  fmtOut  : Nat
  rnd     : Bool
  site    : Nat
  aux     : Nat
  aAcc    : Bool

/-- The fields of a command word (R134). -/
def vecWord (w : Nat) : VecWord :=
  { aHandle := fieldOf w 106 6, aRow := fieldOf w 92 14, bHandle := fieldOf w 86 6, bRow := fieldOf w 72 14,
    dHandle := fieldOf w 66 6, dRow := fieldOf w 52 14, count := fieldOf w 36 16, fmtIn := fieldOf w 32 4,
    fmtOut := fieldOf w 28 4, rnd := bitOf w 27, site := fieldOf w 11 16, aux := fieldOf w 4 7, aAcc := bitOf w 3 }

/-- Is a format FP32 or BF16? -/
def isWide (f : Nat) : Bool := f == fmtFP32 || f == fmtBF16

/-- The elements of FP32 or BF16 rows, as FP32 values (R30, R147). -/
def wideElems (f : Nat) (rows : List Row) (count : Nat) : List F32 :=
  (List.range count).map (fun i =>
    if f = fmtBF16 then ofBf16 (elemCode fmtBF16 rows i) else BitVec.ofNat 32 (planeWord rows i))

/-- Rows that hold `count` elements of a format. -/
def rowsFor (f count : Nat) : Nat := (count + perRow f - 1) / perRow f

/-- Read source a: `count` elements from element `from'`, which starts a row (R147, R156). -/
def Vec.source (n : Nat) (v : VecWord) (from' count : Nat) : Vec (List F32) := do
  Vec.need (isWide v.fmtIn)
  if v.aAcc then
    Vec.need (v.fmtIn == fmtFP32)
    let lo := from' / 128
    let hi := (from' + count - 1) / 128
    let es ← Vec.slots (v.aRow + lo) (hi - lo + 1)
    pure ((es.drop (from' - lo * 128)).take count)
  else
    let x ← get
    let ds ← Vec.rows n v.aHandle (v.aRow + from' / perRow v.fmtIn) (rowsFor v.fmtIn count)
    modify (fun y => { y with again := y.again ++ y.banks.drop x.banks.length })
    pure (wideElems v.fmtIn ds count)

/-- Pack wide results into rows (R30, R147). -/
def packWide (f : Nat) (vals : List Nat) : List Row :=
  if f = fmtBF16 then packRows 16 16 vals else packRows 32 8 vals

/-- Write wide results from element `from'` of d, which starts a row. -/
def Vec.putWide (n : Nat) (v : VecWord) (f from' : Nat) (vals : List Nat) : Vec Unit :=
  Vec.write n v.dHandle (v.dRow + from' / perRow f) (packWide f vals)

/-- The lanes that apply (R146). -/
def lanes (wideLanes : Bool) (v : VecWord) : Nat := if wideLanes && v.fmtIn == fmtBF16 && v.fmtOut == fmtBF16 then 128 else 64

/-- The lane term of a function counted in 64-element groups (R151). -/
def groupTerm (wideLanes : Bool) (v : VecWord) : Nat := (64 * v.count + lanes wideLanes v - 1) / lanes wideLanes v

/-- The lane term of a row-wise function (R151). -/
def rowTerm (p count l : Nat) : Nat := p * count * ((l + 63) / 64) + 8 * (p - 1) * ((count + 63) / 64)

/-- The banks and rows that the writes of a command touch. -/
def writeBanks (ws : List (Nat × Nat × Row)) : List Nat := (ws.map (·.1)).eraseDups

/-- The rows that earlier vector commands have still to write become readable to this one (R136, R150). -/
def State.flushVec (s : State) (n : Nat) : State :=
  let ws := (s.tile n).vec.flatMap (·.writes)
  let s1 := s.each ws (fun t w => t.writeSpad n w.1 w.2.1 w.2.2)
  s1.modTile n (fun t => { t with vec := t.vec.map (fun r => { r with writes := [] }) })

/-- The slots that a fold writes (R62, R67). -/
def Fold.touches (f : Fold) : List Nat :=
  let width := if f.outs.length = 256 then 2 else 1
  if f.fold ≥ 2 then (List.range (2 * width)).map (f.slot + ·) else (List.range width).map (f.slot + width * f.row + ·)

/-- The cycle in which a VEC that reaches the head in cycle `c` starts: after earlier writes of banks it shares, and after the folds to slots it names that are in flight then (R60, R149, R150). A fold of a row issued later is not waited for. -/
def State.vecStart (s : State) (n c : Nat) (banks slots : List Nat) : Nat :=
  let t := s.tile n
  let s1 := t.vec.foldl (fun a r => if r.banks.any (fun b => banks.contains b) then max a (r.lastWrite + 1) else a) c
  t.arr.folds.foldl (fun a f =>
    if f.issued ≤ a ∧ a ≤ f.lands ∧ f.touches.any (fun x => slots.contains x) then f.lands + 1 else a) s1

/-- The accumulator file once these folds have landed. -/
def State.accAfter (s : State) (n : Nat) (fs : List Fold) : Tbl (List F32) := ((s.each fs (fun s f => s.landFold n f)).tile n).arr.acc

/-- The slots as a VEC that reads from cycle `start` to `last` finds them: every fold issued up to `start` has landed; of those issued later that land before `last`, a free value `pick` says how many the read of a slot sees (R60). -/
def State.accSeen (s : State) (n start last pick : Nat) : Nat → List F32 :=
  let early := (s.tile n).arr.folds.filter (fun f => decide (f.issued ≤ start))
  let late := (s.tile n).arr.folds.filter (fun f => decide (start < f.issued) && decide (f.lands ≤ last))
  let files := (List.range (late.length + 1)).map (fun k => s.accAfter n (early ++ late.take k))
  fun slot => Tbl.get (files.getD (pick / files.length ^ slot % files.length) []) [] slot

/-- The issue length of a VEC whose body answered `r` (R149): lane term, accesses of one bank over the passes, slot reads. -/
def VecCtx.issueLength (x : VecCtx) (r : Nat × Nat × Nat) : Nat :=
  let tally := (List.range 12).foldl (fun a b => max a (x.banks.countP (· == b) + (r.2.1 - 1) * x.again.countP (· == b))) 0
  max (max r.1 tally) (max (2 * x.slots.eraseDups.length * r.2.1) 1)

/-- Run a VEC of function code `func` at the head of Q-vector (R124, R134-R136, R149). `body` answers its lane term, passes and write latency P. Which rows and slots it names does not depend on what the slots hold: a first run finds them, and with them its cycles; the second computes on the slots as they stand in those cycles (R60). -/
def execVec (n c : Nat) (hits : List Contest) (func : Nat) (body : Nat → VecWord → Vec (Nat × Nat × Nat)) (s : State) : Out :=
  .next (s.atHead n 1 c 0x20 (fun w =>
    if fieldOf w 112 8 ≠ func then s
    else
      let v := vecWord w
      let s0 := s.flushVec n
      let run : Vec (Nat × Nat × Nat) := do
        Vec.need (decide (0 < v.count) && (!v.rnd || func == 0x03) && fieldOf w 0 3 == 0)
        body n v
      match run.run { s := s0, acc := fun _ => [] } with
      | .error (.status st) => s0.issueFault n 1 st
      | .error (.uncorrectable s1) => s1.tileStepFault n clTileData (some n)
      | .ok (r, x) =>
        let len := x.issueLength r
        let start := s.vecStart n c x.banks x.slots
        let co := s0.collide n hits 2 start x.banks
        let ks := co.1.lostCycles n 2 start
        let last := slipped ks (start + len - 1)
        let pick := if x.slots.isEmpty then (0, co.1) else co.1.draw
        match run.run { s := pick.2, acc := pick.2.accSeen n start last (Config.unordered pick.1) } with
        | .error _ => s0
        | .ok (_, y) =>
          let s1 := (y.s.count (tileIx n) 0x42 0 64 (start - c)).count (tileIx n) 0x40 0 64 len
          (s1.advance n 1 (last + 1)).modTile n (fun t => { t with vec := t.vec ++ [{
            start := start, lastRead := last, lastWrite := slipped ks (start + len - 1 + r.2.2), banks := writeBanks y.writes,
            writes := y.writes, collided := co.2, act := y.act }] })))

/-! ### Elementwise functions (R151-R154) -/

/-- VEC_CONVERT: FP32 to BF16 or BF16 to FP32. -/
def vecConvertBody (n : Nat) (v : VecWord) : Vec (Nat × Nat × Nat) := do
  Vec.need (isWide v.fmtOut && v.fmtIn != v.fmtOut && v.aux == 0)
  let xs ← Vec.source n v 0 (64 * v.count)
  Vec.putWide n v v.fmtOut 0 (xs.map (toFmt (v.fmtOut == fmtBF16)))
  pure (groupTerm false v, 1, 4)

/-- CONVERT. -/
def execVecConvert (n c : Nat) (hits : List Contest) (s : State) : Out := execVec n c hits 0x01 vecConvertBody s

/-- ADD, MUL, MAX and MIN: `f` answers the result's pattern from a, b and d's old element. -/
def vecBinaryBody (isMul : Bool) (f : Bool → F32 → F32 → Option F32 → Nat) (n : Nat) (v : VecWord) : Vec (Nat × Nat × Nat) := do
  Vec.need (isWide v.fmtOut && decide (v.aux < (if isMul then 4 else 2)))
  let m := 64 * v.count
  let reuse := bitOf v.aux 0
  let xs ← Vec.source n v 0 m
  let bs ← Vec.rows n v.bHandle v.bRow (rowsFor v.fmtIn (if reuse then 64 else m))
  let ys := wideElems v.fmtIn bs (if reuse then 64 else m)
  let ds ← if isMul && bitOf v.aux 1 then
      (do let rs ← Vec.rows n v.dHandle v.dRow (rowsFor v.fmtOut m)
          pure ((wideElems v.fmtOut rs m).map some))
    else pure []
  let bf := v.fmtOut == fmtBF16
  Vec.putWide n v v.fmtOut 0 ((List.range m).map (fun i =>
    f bf (xs.getD i 0) (ys.getD (if reuse then i % 64 else i) 0) (ds.getD i none)))
  pure (groupTerm true v, 1, 6)

/-- ADD. -/
def execVecAdd (n c : Nat) (hits : List Contest) (s : State) : Out :=
  execVec n c hits 0x04 (vecBinaryBody false (fun bf x y _ => ((decodeF32 x).add (decodeF32 y)).round bf)) s

/-- MUL, with the old element of d added where aux bit 1 is set. -/
def execVecMul (n c : Nat) (hits : List Contest) (s : State) : Out :=
  execVec n c hits 0x05 (vecBinaryBody true (fun bf x y d =>
    let p := (decodeF32 x).mul (decodeF32 y)
    match d with
    | some z => (p.add (decodeF32 z)).round bf
    | none => p.round bf)) s

/-- MAX. -/
def execVecMax (n c : Nat) (hits : List Contest) (s : State) : Out :=
  execVec n c hits 0x06 (vecBinaryBody false (fun bf x y _ => toFmt bf (pickF32 true x y))) s

/-- MIN. -/
def execVecMin (n c : Nat) (hits : List Contest) (s : State) : Out :=
  execVec n c hits 0x07 (vecBinaryBody false (fun bf x y _ => toFmt bf (pickF32 false x y))) s

/-- The activation function of an aux value; none where it is not used (R153). SQUARE is rounded by the caller. DEDUCED (notes/assumptions/122.md): each operation of a formula is an FP32 operation of its own, from left to right. -/
def actF32 (aux : Nat) (x : F32) : F32 :=
  if aux = 0 then pickF32 true x 0
  else if isNaN32 x then f32NaN
  else if aux = 1 then
    let cube := mulF32 (mulF32 x x) x
    mulF32 (mulF32 0x3F000000#32 x) (addF32 f32One (tanhF32 (mulF32 0x3F4C422A#32 (addF32 x (mulF32 0x3D372713#32 cube)))))
  else if aux = 2 then divF32 x (addF32 f32One (expF32 (negF32 x)))
  else if aux = 3 then divF32 f32One (addF32 f32One (expF32 (negF32 x)))
  else if aux = 4 then tanhF32 x
  else if aux = 5 then expF32 x
  else if aux = 6 then logF32 x
  else if aux = 7 then recipF32 x
  else rsqrtF32 x

/-- ACT. -/
def execVecAct (n c : Nat) (hits : List Contest) (s : State) : Out :=
  execVec n c hits 0x08 (fun n v => do
    Vec.need (isWide v.fmtOut && decide (v.aux < 10))
    let xs ← Vec.source n v 0 (64 * v.count)
    let bf := v.fmtOut == fmtBF16
    Vec.putWide n v v.fmtOut 0 (xs.map (fun x =>
      if v.aux = 9 then ((decodeF32 x).mul (decodeF32 x)).round bf else toFmt bf (actF32 v.aux x)))
    pure (groupTerm true v, 1, 10)) s

/-- DEQUANT (R33, R154). -/
def execVecDequant (n c : Nat) (hits : List Contest) (s : State) : Out :=
  execVec n c hits 0x0C (fun n v => do
    Vec.need (isNarrow v.fmtIn && isWide v.fmtOut && v.aux == 0 && !v.aAcc)
    let m := 64 * v.count
    let es ← Vec.rows n v.aHandle v.aRow (rowsFor v.fmtIn m)
    let ss ← Vec.rows n v.bHandle v.bRow ((m / blockSize v.fmtIn + 31) / 32)
    let bad := (List.range m).countP (fun i => isInvalid v.fmtIn (elemCode v.fmtIn es i))
    modify (fun x => { x with s := x.s.count (tileIx n) 0x16 0 32 bad })
    Vec.putWide n v v.fmtOut 0 ((List.range m).map (fun i =>
      toFmt (v.fmtOut == fmtBF16) (dequantElem v.fmtIn (planeByte ss (i / blockSize v.fmtIn)) (elemCode v.fmtIn es i))))
    pure (groupTerm false v, 1, 6)) s

/-! ### Drawing (R49, R136, R161) -/

/-- The draw of a tile's command (R49, R136). -/
def State.drawAt (s : State) (n stream site index : Nat) : BitVec 64 :=
  let seed := (s.ownerOf n).elim 0 (fun q => (s.job q).elim 0 (fun j => j.hdr.seed))
  Sys2Proof.Machine.draw (BitVec.ofNat 64 seed) (BitVec.ofNat 64 (s.obj (tileIx n) 0x38)) (BitVec.ofNat 64 (s.logicalOf n))
    (BitVec.ofNat 64 stream) (BitVec.ofNat 64 site) (BitVec.ofNat 64 index)

/-- REQUANT (R47, R48, R52, R54, R136, R154). -/
def execVecRequant (n c : Nat) (hits : List Contest) (s : State) : Out :=
  execVec n c hits 0x03 (fun n v => do
    Vec.need (isNarrow v.fmtOut && v.aux == 0)
    let m := 64 * v.count
    let blk := blockSize v.fmtOut
    let xs ← Vec.source n v 0 m
    let scales := (List.range (m / blk)).map (fun b => scaleCode v.fmtOut ((xs.drop (b * blk)).take blk))
    let x ← get
    let out := (List.range m).map (fun i => requantElem v.fmtOut (scales.getD (i / blk) 0) (xs.getD i 0)
      (if v.rnd then some (draw24 (x.s.drawAt n 0 v.site i)) else none))
    Vec.write n v.dHandle v.dRow (packRows (elemBits v.fmtOut) (perRow v.fmtOut) (out.map (·.1)))
    Vec.write n v.bHandle v.bRow (packRows 8 32 scales)
    let word := x.s.obj (tileIx n) 0x12 2
    modify (fun x =>
      let s1 := x.s.count (tileIx n) 0x11 0 32 (out.countP (·.2))
      let ev := s1.sentinelCount n 2 word scales
      { x with s := ev.1, act := if ev.2 then some word else none })
    pure (groupTerm false v, 1, 10)) s

/-- RANDOM (R161). -/
def execVecRandom (n c : Nat) (hits : List Contest) (s : State) : Out :=
  execVec n c hits 0x0E (fun n v => do
    Vec.need (isWide v.fmtOut && decide (v.aux < 3) && (v.aux != 0 || v.fmtOut == fmtFP32))
    let x ← get
    let bf := v.fmtOut == fmtBF16
    Vec.putWide n v v.fmtOut 0 ((List.range (64 * v.count)).map (fun i =>
      let d := (x.s.drawAt n 1 v.site i).toNat
      if v.aux = 0 then d / 2 ^ 32
      else if v.aux = 1 then (FVal.fin false (d / 2 ^ 40) (-24)).round bf
      else toFmt bf (negF32 (logF32 (negF32 (logOf (Config.vecLogWide (2 * (d / 2 ^ 40) + 1)) (2 * (d / 2 ^ 40) + 1) (-25)))))))
    pure (groupTerm false v, 1, 8)) s

/-! ### Row-wise functions (R156-R160) -/

/-- The sum of R157: 64 partial sums, then a tree. -/
def sumF32 (xs : List F32) : F32 :=
  let parts := (List.range 64).map (fun j => (xs.zipIdx).foldl (fun a x => if x.2 % 64 = j then addF32 a x.1 else a) 0)
  let fold := fun (ps : List F32) (w : Nat) => (List.range w).map (fun j => addF32 (ps.getD j 0) (ps.getD (j + w) 0))
  ([32, 16, 8, 4, 2, 1].foldl fold parts).getD 0 0

/-- The largest or smallest element with its index, NaN skipped, the lower index on a tie (R157). `signed`: -0 lies below +0. -/
def extremeF32 (isMax signed : Bool) (xs : List F32) : Option (F32 × Nat) :=
  let key := fun (x : F32) => if signed then keyF32 x else orderF32 x
  (xs.zipIdx).foldl (fun a x =>
    if isNaN32 x.1 then a
    else match a with
      | none => some x
      | some y => if (if isMax then decide (key x.1 > key y.1) else decide (key x.1 < key y.1)) then some x else a) none

/-- NaN elements of a vector. -/
def nanCount (xs : List F32) : Nat := xs.countP isNaN32

/-- A reduction; the result's pattern and the NaN elements skipped (R157). DESIGN CHOICE (notes/assumptions/120.md): SUMSQ rounds each product before it adds it. -/
def reduceF32 (aux : Nat) (xs : List F32) : Nat × Nat :=
  if aux = 0 then ((sumF32 xs).toNat, 0)
  else if aux = 3 then ((sumF32 (xs.map (fun x => mulF32 x x))).toNat, 0)
  else if aux = 1 ∨ aux = 2 then ((((extremeF32 (aux == 1) true xs).map (·.1)).getD f32NaN).toNat, nanCount xs)
  else (((extremeF32 (aux == 4) false xs).map (·.2)).getD 0xFFFFFFFF, nanCount xs)

/-- SOFTMAX of a vector (R158). -/
def softmaxF32 (tau : F32) (xs : List F32) : List F32 :=
  if xs.any isNaN32 || xs.all (· == f32NegInf) then xs.map (fun _ => f32NaN)
  else
    let m := ((extremeF32 true true xs).map (·.1)).getD f32NaN
    let es := xs.map (fun x => if x = f32NegInf then 0 else expF32 (mulF32 tau (subF32 x m)))
    let r := recipF32 (sumF32 es)
    (xs.zip es).map (fun x => if x.1 = f32NegInf then 0 else mulF32 x.2 r)

/-- The parameter row of the row-wise functions (R156). -/
structure RowParam where
  gHandle : Nat
  gRow    : Nat
  hHandle : Nat
  hRow    : Nat
  hEn     : Bool
  gEn     : Bool
  raw     : Bool
  param   : F32
  stride  : Nat
  len     : Nat

/-- Read and check the parameter row (R149, R151, R156). -/
def Vec.rowParam (n : Nat) (v : VecWord) : Vec RowParam := do
  let rs ← Vec.rows n v.bHandle v.bRow 1
  let w := (rs.getD 0 0).toNat
  let p : RowParam := RowParam.mk (fieldOf w 250 6) (fieldOf w 236 14) (fieldOf w 230 6) (fieldOf w 216 14)
    (bitOf w 66) (bitOf w 65) (bitOf w 64) (BitVec.ofNat 32 (fieldOf w 32 32)) (fieldOf w 16 16) (fieldOf w 0 16)
  Vec.need (fieldOf w 67 149 == 0 && decide (0 < p.len) && decide (64 ≤ p.stride) && p.stride % 64 == 0 && decide (p.len ≤ p.stride))
  pure p

/-- τ: a parameter of 0 means 1.0 (R156). -/
def RowParam.tau (p : RowParam) : F32 := if p.param = 0 then f32One else p.param

/-- Run `f` on each vector in turn (R156). -/
def Vec.vectors (n : Nat) (v : VecWord) (p : RowParam) (f : Nat → List F32 → Vec Unit) : Nat → Nat → Vec Unit
  | _, 0 => pure ()
  | i, k + 1 => do
    let xs ← Vec.source n v (i * p.stride) p.len
    f i xs
    Vec.vectors n v p f (i + 1) k

/-- REDUCE (R157). -/
def execVecReduce (n c : Nat) (hits : List Contest) (s : State) : Out :=
  execVec n c hits 0x09 (fun n v => do
    Vec.need (v.fmtOut == fmtFP32 && decide (v.aux < 6))
    let p ← Vec.rowParam n v
    Vec.need (p.param == 0)
    let es ← Vec.source n v 0 p.len
    let rec go : Nat → Nat → List F32 → List Nat → Vec (List Nat)
      | _, 0, _, acc => pure acc
      | i, k + 1, xs, acc => do
        let r := reduceF32 v.aux xs
        modify (fun x => { x with s := x.s.count (tileIx n) 0x41 0 32 r.2 })
        let next ← if k = 0 then pure [] else Vec.source n v ((i + 1) * p.stride) p.len
        go (i + 1) k next (acc ++ [r.1])
    let outs ← go 0 v.count es []
    Vec.putWide n v fmtFP32 0 outs
    pure (rowTerm 1 v.count p.len, 1, 8)) s

/-- SOFTMAX (R158). -/
def execVecSoftmax (n c : Nat) (hits : List Contest) (s : State) : Out :=
  execVec n c hits 0x0A (fun n v => do
    Vec.need (isWide v.fmtOut && v.aux == 0)
    let p ← Vec.rowParam n v
    Vec.vectors n v p (fun i xs =>
      Vec.putWide n v v.fmtOut (i * p.stride) ((softmaxF32 p.tau xs).map (toFmt (v.fmtOut == fmtBF16)))) 0 v.count
    pure (rowTerm 3 v.count p.len, 3, 10)) s

/-- The values of NORM before the output format (R159). DESIGN CHOICE (notes/assumptions/120.md): each square is rounded before it is added. -/
def normF32 (layer : Bool) (eps : F32) (g h : Option (List F32)) (xs : List F32) : List F32 :=
  let mu := divNat (sumF32 xs) xs.length
  let ds := if layer then xs.map (fun x => subF32 x mu) else xs
  let r := rsqrtF32 (addF32 (divNat (sumF32 (ds.map (fun x => mulF32 x x))) xs.length) eps)
  (ds.zipIdx).map (fun x =>
    let y := mulF32 x.1 r
    let y := match g with
      | some gs => mulF32 y (gs.getD x.2 0)
      | none => y
    match h with
    | some hs => addF32 y (hs.getD x.2 0)
    | none => y)

/-- NORM (R159). -/
def execVecNorm (n c : Nat) (hits : List Contest) (s : State) : Out :=
  execVec n c hits 0x0B (fun n v => do
    Vec.need (isWide v.fmtOut && decide (v.aux < 2))
    let p ← Vec.rowParam n v
    Vec.need (!(p.hEn && v.aux == 0))
    let g ← if p.gEn then (do let rs ← Vec.rows n p.gHandle p.gRow (rowsFor fmtFP32 p.len); pure (some (wideElems fmtFP32 rs p.len)))
      else pure none
    let h ← if p.hEn then (do let rs ← Vec.rows n p.hHandle p.hRow (rowsFor fmtFP32 p.len); pure (some (wideElems fmtFP32 rs p.len)))
      else pure none
    Vec.vectors n v p (fun i xs =>
      Vec.putWide n v v.fmtOut (i * p.stride) ((normF32 (v.aux == 1) p.param g h xs).map (toFmt (v.fmtOut == fmtBF16)))) 0 v.count
    let passes := if v.aux = 1 then 3 else 2
    pure (rowTerm passes v.count p.len, passes, 10)) s

/-- The `k` largest elements with their indices, in selection order (R160). -/
def topF32 : Nat → List (F32 × Nat) → List (F32 × Nat)
  | 0, _ => []
  | k + 1, xs =>
    match xs.foldl (fun a x => match a with
      | none => some x
      | some y => if orderF32 x.1 > orderF32 y.1 then some x else a) (none : Option (F32 × Nat)) with
    | none => []
    | some b => b :: topF32 k (xs.filter (fun x => x.2 ≠ b.2))

/-- TOPK (R160). -/
def execVecTopk (n c : Nat) (hits : List Contest) (s : State) : Out :=
  execVec n c hits 0x0D (fun n v => do
    Vec.need (v.fmtOut == fmtFP32 && decide (1 ≤ v.aux) && decide (v.aux ≤ 8))
    let p ← Vec.rowParam n v
    Vec.vectors n v p (fun i xs => do
      modify (fun x => { x with s := x.s.count (tileIx n) 0x41 0 32 (nanCount xs) })
      let sel := topF32 v.aux ((xs.zipIdx).filter (fun x => !isNaN32 x.1))
      let vals := sel.map (·.1)
      let ws := if p.raw then vals else softmaxF32 p.tau vals
      let pad := 8 - sel.length
      Vec.write n v.dHandle (v.dRow + 2 * i)
        (packRows 32 8 (ws.map BitVec.toNat ++ List.replicate pad 0)
          ++ packRows 32 8 (sel.map (·.2) ++ List.replicate pad 0xFFFFFFFF))) 0 v.count
    pure (rowTerm 1 v.count p.len, 1, 12)) s

/-! ### SPILL_FIX (R43-R46, R155) -/

/-- The parameter row of SPILL_FIX (R155). -/
structure SpillParam where
  wsHandle : Nat
  wsRow    : Nat
  weHandle : Nat
  weRow    : Nat
  wcHandle : Nat
  wcRow    : Nat
  asHandle : Nat
  asRow    : Nat
  aeHandle : Nat
  aeRow    : Nat
  acHandle : Nat
  acRow    : Nat
  wFmt     : Nat
  aFmt     : Nat
  wSp      : Bool
  aSp      : Bool
  m0       : Nat

/-- The fields of the parameter row (R155). -/
def spillParam (w : Nat) : SpillParam :=
  { wsHandle := fieldOf w 250 6, wsRow := fieldOf w 236 14, weHandle := fieldOf w 230 6, weRow := fieldOf w 216 14,
    wcHandle := fieldOf w 210 6, wcRow := fieldOf w 196 14, asHandle := fieldOf w 190 6, asRow := fieldOf w 176 14,
    aeHandle := fieldOf w 170 6, aeRow := fieldOf w 156 14, acHandle := fieldOf w 150 6, acRow := fieldOf w 136 14,
    wFmt := fieldOf w 132 4, aFmt := fieldOf w 128 4, wSp := bitOf w 127, aSp := bitOf w 126, m0 := fieldOf w 112 14 }

/-- Read the rows of a plane that hold units `lo` to `hi - 1`, `per` to a row; answers the number of the first unit read and the rows. -/
def Vec.span (n h first per lo hi : Nat) : Vec (Nat × List Row) := do
  let r0 := lo / per
  let rs ← Vec.rows n h (first + r0) ((hi + per - 1) / per - r0)
  pure (r0 * per, rs)

/-- The correction of one segment of one output: the exact integer, and whether any entry spills in it (R45). `ws` and `as'` list the spilled row indices of the pass with their values. -/
def spillSegment (wGrid aGrid : Nat → Int) (ws as' : List (Nat × Int)) (lo len : Nat) : Int × Bool :=
  let rows := ((ws.map (·.1) ++ as'.map (·.1)).filter (fun i => decide (lo ≤ i) && decide (i < lo + len))).eraseDups
  let valueAt := fun (es : List (Nat × Int)) (i : Nat) (d : Int) => ((es.find? (fun e => e.1 == i)).map (·.2)).getD d
  ((rows.map (fun i => valueAt ws i (wGrid i) * valueAt as' i (aGrid i) - wGrid i * aGrid i)).sum, !rows.isEmpty)

/-- SPILL_FIX (R45, R46, R155). DESIGN CHOICE (notes/assumptions/121.md): the malformed words that count are those of the command's own streamed rows. -/
def execVecSpillFix (n c : Nat) (hits : List Contest) (s : State) : Out :=
  execVec n c hits 0x02 (fun n v => do
    Vec.need (v.fmtIn == fmtFP32 && v.fmtOut == fmtFP32 && v.aux == 0)
    let prs ← Vec.rows n v.bHandle v.bRow 1
    let w := (prs.getD 0 0).toNat
    let p := spillParam w
    Vec.need (fieldOf w 0 112 == 0 && macPairing p.wFmt p.aFmt && !(p.wSp && is8 p.wFmt) && !(p.aSp && is8 p.aFmt))
    let two := p.wFmt == fmtT2
    let rows := if two then (v.count + 1) / 2 else v.count
    let outs := outputsOf p.wFmt
    let blkW := blockSize p.wFmt
    let blkA := blockSize p.aFmt
    let bA := 96 / blkA
    let xs ← Vec.source n v 0 (128 * v.count)
    let we ← Vec.rows n p.weHandle p.weRow 192
    let wc ← Vec.rows n p.wcHandle p.wcRow (scaleRows p.wFmt)
    let wsRows ← if p.wSp then Vec.rows n p.wsHandle p.wsRow (outs * (96 / blkW) / 8) else pure []
    let ae ← Vec.span n p.aeHandle p.aeRow (perRow p.aFmt) (96 * p.m0) (96 * (p.m0 + rows))
    let ac ← Vec.span n p.acHandle p.acRow 32 (bA * p.m0) (bA * (p.m0 + rows))
    let asp ← if p.aSp then Vec.span n p.asHandle p.asRow 8 (bA * p.m0) (bA * (p.m0 + rows)) else pure (0, [])
    let arr := pairRows we
    let wWord := fun (b j : Nat) => if p.wSp then planeWord wsRows (b * outs + j) else 0
    let aWord := fun (m t : Nat) => if p.aSp then planeWord asp.2 (m * bA + t - asp.1) else 0
    let badW := if p.wSp then (List.range (96 / blkW * outs)).countP (fun i => (spillEntries blkW (planeWord wsRows i)).2) else 0
    let badA := if p.aSp then (List.range (bA * rows)).countP (fun i => (spillEntries blkA (planeWord asp.2 (bA * p.m0 + i - asp.1))).2) else 0
    let len := segRows p.wFmt p.aFmt
    let fix := fun (i e : Nat) =>
      let x := xs.getD (128 * i + e) 0
      let m := p.m0 + (if two then i / 2 else i)
      let j := if two then i % 2 * 128 + e else e
      if j ≥ outs then (x, 0)
      else
        let ws := (List.range (96 / blkW)).flatMap (fun b => (spillEntries blkW (wWord b j)).1.map (fun q => (b * blkW + q.1, q.2)))
        let as' := (List.range bA).flatMap (fun t => (spillEntries blkA (aWord m t)).1.map (fun q => (t * blkA + q.1, q.2)))
        (List.range (96 / len)).foldl (fun (acc : F32 × Nat) k =>
          let lo := k * len
          let cr := spillSegment (fun r => gridOf p.wFmt (stElem p.wFmt (arr.getD r 0) j))
            (fun r => gridOf p.aFmt (elemCode p.aFmt ae.2 (96 * m + r - ae.1))) ws as' lo len
          if !cr.2 then acc
          else
            let ew := planeByte wc (lo / blkW * outs + j)
            let ea := planeByte ac.2 (m * bA + lo / blkA - ac.1)
            if ew = 0xFF ∨ ea = 0xFF then (if isNonFinite acc.1 then acc else (f32NaN, acc.2))
            else
              let r := fusedStep acc.1 cr.1 ((ew : Int) + ea - 254 + expAdjust p.wFmt + expAdjust p.aFmt)
              (r.1, acc.2 + (if r.2 then 1 else 0))) (x, 0)
    let res := (List.range v.count).map (fun i => (List.range 128).map (fix i))
    modify (fun x =>
      let s1 := x.s.count (tileIx n) 0x16 0 32 (badW + badA)
      { x with s := (res.zipIdx).foldl (fun s r => (r.1.zipIdx).foldl (fun s y =>
          if y.1.2 = 0 then s
          else s.count (tileIx n) 0x10 (columnOf outs (if two then r.2 % 2 * 128 + y.2 else y.2)) 16 y.1.2) s) s1 })
    Vec.putWide n v fmtFP32 0 (res.flatten.map (fun y => y.1.toNat))
    pure (2 * v.count, 1, 12)) s

/-! ### Completion (R149, R54, R93) -/

/-- VEC_WRITE_COMPLETE: the last write of the oldest vector command completes. -/
def execVecWriteComplete (n c : Nat) (s : State) : Out :=
  .next (match (s.tile n).vec with
    | [] => s
    | r :: rest =>
      if r.lastWrite ≤ c ∧ !s.stopped n then
        let s1 := s.each r.writes (fun t w => t.writeSpad n w.1 w.2.1 w.2.2)
        ((s1.modTile n (fun t => { t with vec := rest })).count (tileIx n) 0x43 0 64).completed n c r.act r.collided
      else s)

end Sys2Proof.Machine
end

