-- ==== Sys2Proof/Machine/Mover.lean ====
section
/-! DEFINITION. The mover: descriptors, their requests, their completion (04, 07 R175, 08 R201, 14 R337). -/

namespace Sys2Proof.Machine

/-! ### Descriptors (R107-R110) -/

def dOp (w : Row) : Nat := fieldOf w.toNat 252 4
def dHandle (w : Row) : Nat := fieldOf w.toNat 242 6
def dRow (w : Row) : Nat := fieldOf w.toNat 228 14
def dRows (w : Row) : Nat := fieldOf w.toNat 214 14
def dSigEn (w : Row) : Bool := bitOf w.toNat 199
def dSigFar (w : Row) : Bool := bitOf w.toNat 198
def dSigGauge (w : Row) : Nat := fieldOf w.toNat 191 7
def dSigAdd (w : Row) : Nat := fieldOf w.toNat 175 16
def dFar (w : Row) : Nat := fieldOf w.toNat 64 64
def dPorts (w : Row) : Nat := fieldOf w.toNat 48 16

/-- The stride of a descriptor: 0 means 32 (R107). -/
def dStride (w : Row) : Nat := if fieldOf w.toNat 128 32 = 0 then 32 else fieldOf w.toNat 128 32

abbrev opFill : Nat := 1
abbrev opCopy : Nat := 2
abbrev opPut : Nat := 3
abbrev opGet : Nat := 4
abbrev opLoad : Nat := 5
abbrev opStore : Nat := 6


/-- Reserved fields of a descriptor are zero (R107, R109). -/
def dReservedOk (w : Row) : Bool :=
  let v := w.toNat
  fieldOf v 248 4 == 0 && fieldOf v 200 14 == 0 && fieldOf v 160 15 == 0 && fieldOf v 0 48 == 0
    && (farForm (dFar w) != 0 || fieldOf (dFar w) 14 18 == 0)

/-- The status with which a descriptor ends before it moves anything; none where it may start (R89, R107, R108, R110). -/
def State.descCheck (s : State) (n : Nat) (w : Row) : Option Nat :=
  let op := dOp w
  let far := dFar w
  let form := farForm far
  let q := (s.ownerOf n).getD 12
  let cfg := s.cfg q
  let size := if form = 1 then cfg.hbmSize else cfg.ddrSize
  let local' := form = 0 ∧ s.isOwn (farDevice far)
  let tiles := (s.job q).elim 0 (fun j => j.map.length)
  let read := op = opPut ∨ op = opStore
  if op = 0 ∨ op > 6 ∨ form = 3 then some stBadValue
  else if op ≤ 4 ∧ form ≠ 0 ∨ op ≥ 5 ∧ form = 0 then some stBadValue
  else if !dReservedOk w ∨ dRows w = 0 ∨ dRows w > 12288 then some stBadValue
  else if (op = opFill ∨ op = opCopy) ∧ ¬ (local' ∧ farTile far = s.logicalOf n) then some stBadValue
  else if dSigFar w ∧ op ≠ opPut then some stBadValue
  else if dSigEn w ∧ dSigAdd w = 0 then some stBadValue
  else if op ≥ 5 ∧ (farOffset far % 32 ≠ 0 ∨ dStride w % 32 ≠ 0
      ∨ farOffset far + (dRows w - 1) * dStride w + 32 > size) then some stBadValue
  else if (bitsOf (dPorts w) 16).any (fun k => (s.port k).mode != 1) then some stBadValue
  else if local' ∧ farTile far ≥ tiles ∧ farTile far ≠ 0xFF00 then some stBadValue
  else match handleCheck (s.handle n (dHandle w)) (if read then hrMoveRead else hrMoveWrite) (dRow w) (dRows w) with
    | some st => some st
    | none =>
      if op = opFill then handleCheck (s.handle n (farHandle far)) hrMoveRead (farRow far) 1
      else if op = opCopy then handleCheck (s.handle n (farHandle far)) hrMoveRead (farRow far) (dRows w)
      else none

/-! ### Requests (R112, R175, R201, R337) -/

/-- Rows of the next request of a descriptor from row `first` (R112). -/
def requestRows (w : Row) (first : Nat) : Nat :=
  let left := min 8 (dRows w - first)
  if dOp w ≤ 4 then left
  else
    let unit := fun (j : Nat) => (farOffset (dFar w) + j * dStride w) / 256
    ((List.range left).takeWhile (fun i => unit (first + i) == unit first)).length

/-- Where a request goes, or the status with which its descriptor ends (R26, R28, R110, R175, R305, R337). -/
def State.requestDest (s : State) (n : Nat) (w : Row) (first j : Nat) : Except Nat Nat :=
  let far := dFar w
  let q := (s.ownerOf n).getD 12
  if dOp w ≤ 4 then
    if s.isOwn (farDevice far) then
      if farTile far = 0xFF00 then
        match s.sequencerPos q with
        | some p => .ok p
        | none => .error stRefused
      else match s.physicalOf q (farTile far) with
        | some p => .ok p
        | none => .error stBadValue
    else match s.portFor (farDevice far) (dPorts w) j (s.logicalOf n) with
      | some k => .ok (s.portPos k)
      | none => .error stRefused
  else if farForm far = 1 then
    match s.entryPos (hbmPortOf ((s.cfg q).hbmBase + farOffset far + first * dStride w)) false with
    | some p => .ok p
    | none => .error stRefused
  else match s.ucieEntry n with
    | some p => .ok p
    | none => .error stRefused

/-- The far address of row `first` of a transfer (R107, R109, R112). -/
def requestAddr (w : Row) (first : Nat) : BitVec 64 :=
  if dOp w ≤ 4 then BitVec.ofNat 64 (dFar w + first) else BitVec.ofNat 64 (dFar w + first * dStride w)

/-- The packet type of an operation's requests. -/
def requestType (op : Nat) : Ptype :=
  if op = opPut then .write else if op = opGet then .read else if op = opLoad then .memRead else .memWrite

/-- The lowest free tag of a tile's 64 tracking entries; none while all are in use (R112). -/
def freeTag (ts : List Track) : Option Nat := (List.range 64).find? (fun k => !ts.any (fun t => t.tag == k))

/-- Object 2100+n:27 follows the tracking entries in use (R115). -/
def State.syncInflight (s : State) (n : Nat) : State := s.setObj (tileIx n) 0x27 0 (s.tile n).mov.tracks.length

/-- Change the descriptor of a number. -/
def State.modDesc (s : State) (n id : Nat) (f : MoveDesc → MoveDesc) : State :=
  s.modMov n (fun m => { m with descs := m.descs.map (fun d => if d.id = id then f d else d) })

/-- Issue the next request of a descriptor; none where it must wait for a tracking entry or has no request left (R112, R201, R532, R533). -/
def State.issueRequest (s : State) (n : Nat) (d : MoveDesc) : Option State :=
  let w := d.word
  let k := requestRows w d.asked
  if dRows w ≤ d.asked ∨ d.discard then none
  else match freeTag (s.tile n).mov.tracks with
    | none => none
    | some tag =>
      let twin := s.isTwin n && (dOp w == opPut || dOp w == opStore)
      match (if twin then .ok n else s.requestDest n w d.asked d.reqs) with
      | .error st => some (s.modDesc n d.id (fun x => { x with status := st, asked := dRows w }))
      | .ok pos =>
        let out := dOp w = opPut ∨ dOp w = opStore
        match (if out then s.readRows n d.handle (dRow w + d.asked) k else (s, some [])) with
        | (s1, none) =>
          some ((s1.modDesc n d.id (fun x => { x with discard := true })).tileStepFault n clTileData (some n))
        | (s1, some rows) =>
          let last := d.asked + k = dRows w
          let sig := dOp w = opPut ∧ dSigEn w ∧ dSigFar w ∧ last
          let counted := d.xferId ≠ 0
          let p : Packet := { s.requestFrom n pos with
            ptype := requestType (dOp w), rows := k, tag := tag, farAddr := requestAddr w d.asked,
            stride := if dOp w ≤ 4 then 0 else fieldOf w.toNat 128 32,
            sigEn := sig, sigGauge := if sig then dSigGauge w else 0, sigAdd := if sig then dSigAdd w else 0,
            xferId := if counted then d.xferId else 0,
            byteCount := if counted ∧ sig then 32 * dRows w else 0, data := rows.map encodeRow }
          let s2 := s1.modDesc n d.id (fun x => { x with asked := x.asked + k, reqs := x.reqs + 1 })
          let s3 := if out then s2.digestAdd n 2 (leBytes 1 (ptypeCode p.ptype) ++ leBytes 1 k ++ leBytes 8 p.farAddr.toNat
              ++ leBytes 4 p.stride ++ leBytes 1 (if p.sigEn then 1 else 0) ++ leBytes 1 p.sigGauge ++ leBytes 2 p.sigAdd
              ++ leBytes 4 p.byteCount ++ rows.flatMap (fun r => leBytes 32 r.toNat)) else s2
          if twin then some s3
          else
            let t : Track := { tag := tag, desc := d.id, ptype := p.ptype, first := d.asked, rows := k, addr := p.farAddr.toNat, stride := p.stride }
            some ((s3.modMov n (fun m => { m with tracks := m.tracks ++ [t] })).emit (.packet n false p))

/-- Issue requests of the descriptors in progress, in issue order, until none can (R112, R188). -/
def State.pump : Nat → State → Nat → State
  | 0, s, _ => s
  | fuel + 1, s, n =>
    match (s.tile n).mov.descs.findSome? (s.issueRequest n) with
    | some s1 => State.pump fuel s1 n
    | none => s

/-- The frequency of a cluster's clock in MHz (object 1310+c:00). -/
def State.clusterMHz (s : State) (c : Nat) : Nat := freqTable.getD (s.obj (0x1310 + c) 0) 400

/-- The tide units that `k` tile cycles of a tile last. -/
def State.cyclesTide (s : State) (n k : Nat) : Nat := k * 4000 / s.clusterMHz (clusterOf n)

/-- Does a request of a tile wait for a tracking entry (R112)? -/
def Mover.starved (m : Mover) : Bool :=
  (freeTag m.tracks).isNone && m.descs.any (fun d => decide (d.asked < dRows d.word) && !d.discard)

/-- Count the tile cycles that a request has waited for a tracking entry (R112). -/
def State.countStarved (s : State) (n : Nat) : State :=
  match (s.tile n).mov.waits with
  | none => s
  | some t =>
    let k := (s.elapsed - t) * s.clusterMHz (clusterOf n) / 4000
    (s.count (tileIx n) 0x28 0 64 k).modMov n (fun m => { m with waits := some (t + s.cyclesTide n k) })

/-- Issue what can be issued; a twin's PUT and STORE requests take no tracking entry, so 12,288 rounds suffice. A request left without an entry waits from now on (R112). -/
def State.pumpAll (s : State) (n : Nat) : State :=
  (((s.countStarved n).pump 12400 n).modMov n (fun m => { m with waits := if m.starved then m.waits.or (some s.elapsed) else none })).syncInflight n

/-! ### MOVE (R106, R137) -/

/-- The next transfer identifier (R201). -/
def nextXfer (x : Nat) : Nat := if x ≥ 65535 then 1 else x + 1

/-- Descriptor `id` ends with a status that is not OK: recorded and reported, its signal suppressed, and the first such number kept for the signals of Q-move (R114, R129). -/
def State.descFailed (s : State) (n id st : Nat) (suspect : Suspect) (closed : Option Suspect) : State :=
  let s1 := (s.setObj (tileIx n) 0x2B 0 st).modQueue n 2 (fun u => { u with moveBad := some (u.moveBad.elim id (min id)) })
  s1.reportFor (s.ownerOf n) clTransfer suspect (susTile n) st 0 closed

/-- The banks that a MOVE claims: that of its descriptor row, those of its local rows, and of the own tile's rows that a FILL or COPY reads (R90, R106). -/
def State.moveBanks (s : State) (n e row : Nat) (d : Row) : List Nat :=
  (hPlace e row).1 :: hBanks (s.handle n (dHandle d)) ++ (if dOp d ≤ 2 then hBanks (s.handle n (farHandle (dFar d))) else [])

/-- MOVE at the head of Q-move whose descriptor has operation `op`; it waits while 8 descriptors are in progress. `start` does the operation's own first work; its last argument says whether the descriptor read met a collision. -/
def execMove (op : Nat) (start : State → Row → Bool → State) (n c : Nat) (hits : List Contest) (s : State) : Out :=
  .next (s.atHead n 2 c 0x30 (fun w =>
    let e := s.handle n (fieldOf w 114 6)
    let row := fieldOf w 100 14
    if (s.tile n).mov.descs.length ≥ 8 then s.stall n 2 0
    else match handleCheck e hrMoveRead row 1 with
    | some st => s.issueFault n 2 st
    | none => match s.readRows n e row 1 with
      | (s1, none) => s1.tileStepFault n clTileData (some n)
      | (s1, some ds) =>
        let d := ds.getD 0 0
        if dOp d ≠ op ∧ ¬ (op = opFill ∧ (dOp d = 0 ∨ dOp d > 6)) then s
        else
          let co := s1.collide n hits 3 c (s.moveBanks n e row d)
          let s2 := co.1.advance n 2 (c + 1)
          match s2.descCheck n d with
          | some st =>
            let id := (s.tile n).mov.nextId
            ((s2.modMov n (fun m => { m with nextId := id + 1 })).descFailed n id st (susTile n) none).collisionReport n co.2
          | none => start s2 d co.2))

/-- A descriptor enters progress (R106). -/
def State.addDesc (s : State) (n : Nat) (w : Row) (done counted met : Bool) : State :=
  s.modMov n (fun m => { m with
    descs := m.descs ++ [{ id := m.nextId, word := w, handle := s.handle n (dHandle w),
                           asked := if done then dRows w else 0, xferId := if counted then m.xfer else 0, collided := met }],
    nextId := m.nextId + 1, xfer := if counted then nextXfer m.xfer else m.xfer })

/-- FILL: one pattern row into every destination row (R95). A MOVE whose descriptor has an op not used also ends here, with BAD_VALUE (R110). -/
def execMoveFill (n c : Nat) (hits : List Contest) (s : State) : Out :=
  execMove opFill (fun s w met =>
    match s.readRows n (s.handle n (farHandle (dFar w))) (farRow (dFar w)) 1 with
    | (s1, none) => s1.tileStepFault n clTileData (some n)
    | (s1, some ds) =>
      (s1.writeRows n (s.handle n (dHandle w)) (dRow w) (List.replicate (dRows w) (ds.getD 0 0))).addDesc n w true false met) n c hits s

/-- COPY: rows of the own tile to rows of the own tile (R96). DESIGN CHOICE (notes/assumptions/118.md): every source row is read before a row is written. -/
def execMoveCopy (n c : Nat) (hits : List Contest) (s : State) : Out :=
  execMove opCopy (fun s w met =>
    match s.readRows n (s.handle n (farHandle (dFar w))) (farRow (dFar w)) (dRows w) with
    | (s1, none) => s1.tileStepFault n clTileData (some n)
    | (s1, some ds) => (s1.writeRows n (s.handle n (dHandle w)) (dRow w) ds).addDesc n w true false met) n c hits s

/-- PUT: local rows to far rows; to another device with sig_far set it is a counted transfer (R201). -/
def execMovePut (n c : Nat) (hits : List Contest) (s : State) : Out :=
  execMove opPut (fun s w met =>
    (s.addDesc n w false (dSigFar w && !s.isOwn (farDevice (dFar w))) met).pumpAll n) n c hits s

/-- GET: far rows to local rows. -/
def execMoveGet (n c : Nat) (hits : List Contest) (s : State) : Out :=
  execMove opGet (fun s w met => (s.addDesc n w false false met).pumpAll n) n c hits s

/-- LOAD: memory to local rows. -/
def execMoveLoad (n c : Nat) (hits : List Contest) (s : State) : Out :=
  execMove opLoad (fun s w met => (s.addDesc n w false false met).pumpAll n) n c hits s

/-- STORE: local rows to memory. -/
def execMoveStore (n c : Nat) (hits : List Contest) (s : State) : Out :=
  execMove opStore (fun s w met => (s.addDesc n w false false met).pumpAll n) n c hits s

/-! ### Completion (R113, R114) -/

/-- Has every request of a descriptor completed (R113)? -/
def descDone (m : Mover) (d : MoveDesc) : Bool :=
  (decide (dRows d.word ≤ d.asked) || d.discard) && !m.tracks.any (fun t => t.desc == d.id)

/-- DESCRIPTOR_COMPLETE: a descriptor whose requests have all completed ends, with its own-tile signal, or with its status recorded and reported. -/
def execDescriptorComplete (n id c : Nat) (s : State) : Out :=
  .next (match (s.tile n).mov.descs.find? (fun d => d.id == id) with
    | none => s
    | some d =>
      if !descDone (s.tile n).mov d || s.stopped n then s
      else
        let s1 := (s.modMov n (fun m => { m with descs := m.descs.filter (fun x => x.id ≠ id) })).collisionReport n d.collided
        if d.discard ∨ d.told then s1
        else if d.status ≠ 0 then
          s1.descFailed n id d.status (d.suspect.getD (susTile n))
            (if d.status = stFenced ∧ dOp d.word ≤ 4 then some (s.farUnit n (dFar d.word)) else none)
        else if dSigEn d.word ∧ ¬ dSigFar d.word then
          s1.signalTile n (dSigGauge d.word) (dSigAdd d.word) s.ownDevice (s.logicalOf n) (some c)
        else s1)

end Sys2Proof.Machine
end

