-- ==== Sys2Proof/Machine/Fabric.lean ====
section
/-! DEFINITION. Packets at tiles and routers: fabric-remote, replies at the mover, head flits, forks, positions that stop forwarding, the hand-set of a gauge (04, 07, 08). -/

namespace Sys2Proof.Machine

/-! ### Replies and payloads (R171, R173) -/

/-- A reply to a request from position `pos`: it copies far_addr, stride and tag, and the requester's identity, by which R339 returns it (R171). -/
def replyTo (pos : Nat) (p : Packet) (t : Ptype) (status : Nat) (data : List Codeword) : Packet :=
  { ptype := t, rows := data.length, tag := p.tag, job := p.job, partition := p.partition, srcX := xOf pos, srcY := yOf pos,
    dstX := p.srcX, dstY := p.srcY, status := status, farAddr := p.farAddr, stride := p.stride,
    srcDevice := p.srcDevice, srcLogical := p.srcLogical, data := data }

/-- Answer a request from position `pos` (R111, R169). -/
def State.sendReply (s : State) (pos : Nat) (p : Packet) (status : Nat) : State :=
  s.emit (.packet pos true (replyTo pos p (if status = stOk then .ack else .status) status []))

/-- The position a packet came from. -/
def srcPos (p : Packet) : Nat := posOf p.srcX p.srcY

/-- A status as its receiver takes it: a code not used is BAD_VALUE (R7). -/
def knownStatus (st : Nat) : Nat := if st < 0x0E then st else stBadValue

/-- A packet is discarded at a position, its owner unknown: a fabric-path report, and STEP_FAULT in every partition that has a job (R173). -/
def State.losePacket (s : State) (pos : Nat) : State :=
  (s.reportFor (s.partitionOf pos) clFabricPath (susTile pos) (susTile pos) 0 0).stepFaultAll clFabricPath

/-- A packet reaches its destination: one whose header is uncorrectable is discarded; a request with a non-zero reserved field is answered BAD_VALUE, a reply with one has no effect; else `f` takes it (R5, R173). -/
def State.onPacket (s : State) (n : Nat) (p : Packet) (f : State → State) : State :=
  if headBad p 0 || headBad p 1 then s.losePacket n
  else if p.reserved ≠ 0 then (if isReply p then s else s.sendReply n p stBadValue)
  else f s

/-- Decode the payload of a packet that arrives at position `n`: corrections and failures are counted; none where a codeword is uncorrectable (R173). -/
def State.landPayload (s : State) (n : Nat) (p : Packet) : State × Option (List Row) :=
  let ds := p.data.map decodeWord
  let fixed := ds.countP (fun d => match d with
    | .corrected _ => true
    | _ => false)
  let bad := ds.countP (· == .bad)
  let s1 := (s.count (tileIx n) 0x53 0 32 fixed).count (tileIx n) 0x54 0 32 bad
  if bad = 0 then (s1, some (p.data.map decodedRow))
  else
    (((s1.reportFor (s1.ownerOf n) clTileData (susTile (srcPos p)) (susTile n) stUncorrectable 0)).tileStepFault n clTileData
      (some (srcPos p)), none)

/-! ### The checks of fabric-remote (R111, R208) -/

/-- Does a packet come from an embankment block (R171)? -/
def fromBlock (p : Packet) : Bool := p.srcLogical == 0xFFFF

/-- Is a packet one of partition `q`'s own job sequencer, which contains its dispatcher: from that block of this device, at its mesh position (R235, R248, R255)? -/
def State.ownBlock (s : State) (q : Nat) (p : Packet) : Bool :=
  fromBlock p && s.isOwn p.srcDevice && p.partition == q && s.sequencerPos q == some (srcPos p)

/-- The status a request meets; `right` the handle right it needs, none for a SIGNAL (R111). -/
def State.remoteCheck (s : State) (n : Nat) (p : Packet) (right : Option Nat) : Nat :=
  if s.tileState n = tsClosed ∨ s.deviceClosed then stFenced
  else match s.ownerOf n with
    | none => stFenced
    | some q =>
      if s.jobState q = jsHalted then stFenced
      else
        let own := p.job = s.jobId q
        let shared := right = none ∧ s.isOwn p.srcDevice ∧ bitOf (s.gauge n p.sigGauge).mask p.partition
        let block := right = some hrRemoteWrite ∧ s.ownBlock q p
        if ¬ own ∧ ¬ shared ∧ ¬ block then stAccessDenied
        else match right with
          | none => stOk
          | some r => (handleCheck (s.handle n (farHandle p.farAddr.toNat)) r (farRow p.farAddr.toNat) p.rows).getD stOk

/-- Is a request of the job that holds the tile? -/
def State.ownJob (s : State) (n : Nat) (p : Packet) : Bool :=
  (s.ownerOf n).elim false (fun q => p.job == s.jobId q)

/-! ### READ (R94, R183) -/

/-- The banks of the rows a request names (R90). -/
def State.remoteBanks (s : State) (n : Nat) (p : Packet) : List Nat := hBanks (s.handle n (farHandle p.farAddr.toNat))

/-- The contested cycles of a request at fabric-remote, whose report follows as it completes (R90, R93). -/
def State.remoteContest (s : State) (n : Nat) (p : Packet) (hits : List Contest) : State :=
  let co := s.collide n hits 4 0 (s.remoteBanks n p)
  co.1.collisionReport n co.2

/-- A READ at fabric-remote: refused with its status, or joined to an open merge of the same job, far_addr and rows, or the first of a new merge, which is answered when its 8 tile cycles end (`State.closeMerges`). -/
def State.takeRead (s : State) (n : Nat) (p : Packet) : State :=
  let st := s.remoteCheck n p (some hrRemoteRead)
  if st ≠ stOk then s.sendReply n p st
  else
    let joins := fun (m : Merge) => m.addr == p.farAddr.toNat && m.rows == p.rows && decide (m.reqs.length < 32)
      && m.reqs.all (fun r => r.job == p.job && srcPos r != srcPos p)
      && decide (s.elapsed ≤ m.opened + s.cyclesTide n 8)
    match (s.tile n).merges.findIdx? joins with
    | some i =>
      (s.count (tileIx n) 0x55 0 32).modTile n (fun t => { t with
        merges := t.merges.modify i (fun m => { m with reqs := m.reqs ++ [p] }) })
    | none =>
      s.modTile n (fun t => { t with merges := t.merges ++ [{ id := 0, addr := p.farAddr.toNat, stride := 0, rows := p.rows, reqs := [p], opened := s.elapsed }] })

/-- The FORK list of a merge (R172). -/
def forkList (reqs : List Packet) : List (Nat × Nat) := reqs.map (fun r => (r.srcX, r.srcY))

/-- Answer a merge with DATA or FORK, or with STATUS UNCORRECTABLE to each requester (R105, R182, R183). -/
def State.answerMerge (s : State) (pos : Nat) (m : Merge) (data : Option (List Codeword)) : State :=
  match data, m.reqs with
  | none, reqs => s.each reqs (fun t r => t.sendReply pos r stUncorrectable)
  | some ds, [r] => s.emit (.packet pos true (replyTo pos r .data stOk ds))
  | some ds, r :: rest =>
    s.emit (.packet pos true { replyTo pos r .fork stOk ds with
      tag := 0, dstX := 0x3F, dstY := 0x1F, list := forkList (r :: rest) })
  | some _, [] => s

/-- The merges of a tile whose 8 cycles have passed are read once and answered (R94, R183). -/
def State.closeMerges (s : State) (n : Nat) : State :=
  let due := (s.tile n).merges.filter (fun m => decide (m.opened + s.cyclesTide n 8 < s.elapsed))
  if due.isEmpty then s
  else
    let s1 := s.modTile n (fun t => { t with merges := t.merges.filter (fun m => decide (s.elapsed ≤ m.opened + s.cyclesTide n 8)) })
    s1.each due (fun t m =>
      let a := m.addr
      let r := t.readRows n (t.handle n (farHandle a)) (farRow a) m.rows
      r.1.answerMerge n m (r.2.map (fun ds => ds.map encodeRow)))

/-! ### WRITE and counted transfers (R199-R206) -/

/-- The entry of a transfer's key (R201, R202). -/
def pendOf (pend : Tbl PendSig) (p : Packet) : Option Nat :=
  (pend.find? (fun e => e.2.valid && e.2.device == p.srcDevice && e.2.logical == p.srcLogical && e.2.xferId == p.xferId)).map (·.1)

/-- The lowest free entry of a pending-signal table. -/
def pendFree (pend : Tbl PendSig) : Option Nat := (List.range 32).find? (fun k => !(Tbl.get pend {} k).valid)

/-- Replace an entry of the pending-signal table. -/
def State.setPend (s : State) (n k : Nat) (e : PendSig) : State :=
  s.modGau n (fun u => { u with pend := Tbl.put u.pend {} k e })

/-- The tile that sent a counted transfer, as a report names it (R206, R493). -/
def State.senderOf (s : State) (p : Packet) : Suspect :=
  if s.isOwn p.srcDevice then ((s.physicalOf p.partition p.srcLogical).map susTile).getD susNone else susDevice p.srcDevice

/-- Steps 2 to 4 of R203 on entry `k`, with the failures of R206. The 20-bit fields hold what they can (R202). While DRAINING the signal is acknowledged, counted and not held (R214). -/
def State.countTransfer (s : State) (n k : Nat) (p : Packet) : State :=
  let e := Tbl.get (s.tile n).gau.pend {} k
  let draining := (s.tile n).gau.st == .draining
  let sig := p.sigEn && !draining
  let s1 := if p.sigEn && draining then s.count (tileIx n) 0x68 0 32 else s
  let landed := e.landed + 32 * p.rows
  let e1 : PendSig := { e with valid := true, device := p.srcDevice, logical := p.srcLogical, part := p.partition, xferId := p.xferId,
                               landed := min landed (2 ^ 20 - 1) }
  let badCount := p.byteCount = 0 ∨ p.byteCount % 32 ≠ 0 ∨ p.byteCount > 393216
  let e2 := if sig ∧ ¬ e1.held then { e1 with held := true, gauge := p.sigGauge, add := p.sigAdd, expected := p.byteCount % 2 ^ 20 } else e1
  let fails := (e2.held ∧ landed > e2.expected) ∨ (sig ∧ e1.held) ∨ (sig ∧ badCount)
  if fails ∧ ¬ e.failed then
    ((s1.setPend n k { e2 with failed := true }).count (tileIx n) 0x67 0 32).reportFor (s.ownerOf n) clProgram
      (s.senderOf p) (susTile n) stBadValue p.xferId
  else if e2.held ∧ landed = e2.expected ∧ ¬ e2.failed then
    (s1.setPend n k {}).signalTile n e2.gauge e2.add e2.device e2.logical
  else s1.setPend n k e2

/-- Write an admitted WRITE's rows and treat its signal (R199, R203). -/
def State.takeWrite (s : State) (n : Nat) (p : Packet) (rows : List Row) : State :=
  let s1 := s.writeRows n (s.handle n (farHandle p.farAddr.toNat)) (farRow p.farAddr.toNat) rows
  if p.xferId ≠ 0 ∧ !fromBlock p then
    match (pendOf (s1.tile n).gau.pend p).or (pendFree (s1.tile n).gau.pend) with
    | some k => s1.countTransfer n k p
    | none => s1
  else if p.sigEn then s1.signalTile n p.sigGauge p.sigAdd p.srcDevice p.srcLogical
  else s1

/-- The twin that copies what a primary accepts (R532). -/
def State.twinOf (s : State) (n : Nat) : Option Nat :=
  (s.ownerOf n).bind (fun q => (s.job q).bind (fun j => j.twin.bind (fun t =>
    if t.primary = n ∧ t.differs.isNone then some t.twin else none)))

/-- Must a WRITE be held: a counted transfer with a new key while all 32 entries are valid (R205)? -/
def State.mustHold (s : State) (n : Nat) (p : Packet) : Bool :=
  p.xferId != 0 && !fromBlock p && (pendOf (s.tile n).gau.pend p).isNone && (pendFree (s.tile n).gau.pend).isNone

/-- Write a WRITE that passed its checks and acknowledge it (R173, R203, R204, R532). -/
def State.admitWrite (s : State) (n : Nat) (p : Packet) : State :=
  match s.landPayload n p with
  | (s1, none) => s1
  | (s1, some rows) =>
    let s2 := s1.takeWrite n p rows
    ((s2.twinOf n).elim s2 (fun t => s2.takeWrite t p rows)).sendReply n p stOk

/-! ### SIGNAL packets (R111, R195, R208, R209, R214) -/

/-- Apply a SIGNAL packet: of the own job under its gauges' state, of another partition always while LIVE or DRAINING. -/
def State.takeSignal (s : State) (n : Nat) (p : Packet) : State :=
  if s.ownJob n p then s.signalTile n p.sigGauge p.sigAdd p.srcDevice p.srcLogical
  else match (s.tile n).gau.st with
    | .live => s.addGauge n p.sigGauge p.sigAdd p.srcDevice p.srcLogical (some p.partition)
    | .draining => s.addGauge n p.sigGauge p.sigAdd p.srcDevice p.srcLogical (some p.partition)
    | _ => s

/-- A SIGNAL at fabric-remote: refused with its status, or applied and acknowledged (R111, R532). -/
def State.takeSignalPacket (s : State) (n : Nat) (p : Packet) : State :=
  let st := s.remoteCheck n p none
  if st ≠ stOk then s.sendReply n p st
  else
    let s1 := s.takeSignal n p
    ((s1.twinOf n).elim s1 (fun t => s1.takeSignal t p)).sendReply n p stOk

/-! ### The local port (R111, R205) -/

/-- Is a request one that the full pending-signal table keeps at the local port: a WRITE that passes its checks and must be held (R205)? -/
def State.blocked (s : State) (n : Nat) (p : Packet) : Bool :=
  p.ptype == .write && s.remoteCheck n p (some hrRemoteWrite) == stOk && s.mustHold n p

/-- Treat one request that enters fabric-remote. -/
def State.takeRequest (s : State) (n : Nat) (p : Packet) : State :=
  match p.ptype with
  | .read => s.takeRead n p
  | .signal => s.takeSignalPacket n p
  | _ =>
    let st := s.remoteCheck n p (some hrRemoteWrite)
    if st ≠ stOk then s.sendReply n p st else s.admitWrite n p

/-- The requests that stand before the local port enter in order, up to one that must be held, which counts (R205). -/
def State.enter (n : Nat) : List Packet → State → State
  | [], s => s.modGau n (fun u => { u with held := [] })
  | p :: rest, s =>
    if s.blocked n p then (s.count (tileIx n) 0x66 0 32).modGau n (fun u => { u with held := p :: rest })
    else State.enter n rest (s.takeRequest n p)

/-- A request arrives: behind a held packet it waits in the mesh path; else it enters (R205). -/
def State.arriveRequest (s : State) (n : Nat) (p : Packet) : State :=
  if (s.tile n).gau.held.isEmpty then State.enter n [p] s
  else s.modGau n (fun u => { u with held := u.held ++ [p] })

/-- READ_PACKET: a READ arrives at fabric-remote. -/
def execReadPacket (n : Nat) (p : Packet) (hits : List Contest) (s : State) : Out :=
  .next (s.onPacket n p (fun s => (s.remoteContest n p hits).arriveRequest n { p with ptype := .read }))

/-- WRITE_PACKET: checked, written, its signal applied or held, acknowledged; or held at the port (R111, R199-R206). -/
def execWritePacket (n : Nat) (p : Packet) (hits : List Contest) (s : State) : Out :=
  .next (s.onPacket n p (fun s => (s.remoteContest n p hits).arriveRequest n { p with ptype := .write }))

/-- SIGNAL_PACKET: refused with its status, or applied and acknowledged. -/
def execSignalPacket (n : Nat) (p : Packet) (s : State) : Out :=
  .next (s.onPacket n p (fun s => s.arriveRequest n { p with ptype := .signal }))

/-- PENDING_HOLD_RELEASE: with an entry free, the held packet enters, and what stood behind it up to the next that must be held (R205). -/
def execPendingHoldRelease (n : Nat) (s : State) : Out :=
  .next (match (s.tile n).gau.held with
    | [] => s
    | p :: rest => if s.blocked n p then s else State.enter n rest (s.takeRequest n p))

/-! ### Replies at the mover (R112-R114, R187) -/

/-- Release a tracking entry and issue what waited for one (R112). -/
def State.release (s : State) (n tag : Nat) : State :=
  (s.modMov n (fun m => { m with tracks := m.tracks.filter (fun t => t.tag ≠ tag) })).pumpAll n

/-- Land the rows of a read reply for a tracking entry (R112, R173, R187). -/
def State.landReply (s : State) (n : Nat) (t : Track) (p : Packet) : State :=
  match s.landPayload n p with
  | (s1, none) => (s1.modDesc n t.desc (fun d => { d with discard := true })).release n t.tag
  | (s1, some rows) =>
    let d := (s1.tile n).mov.descs.find? (fun d => d.id == t.desc)
    let s2 := match d with
      | some x => if x.discard then s1 else s1.writeRows n x.handle (dRow x.word + t.first) rows
      | none => s1
    s2.release n t.tag

/-- The contested cycles of a read reply's rows; its descriptor reports them when it completes (R90, R93). -/
def State.replyContest (s : State) (n : Nat) (t : Track) (hits : List Contest) : State :=
  let banks := ((s.tile n).mov.descs.find? (fun d => d.id == t.desc)).elim [] (fun d => hBanks d.handle)
  let co := s.collide n hits 3 0 banks
  if co.2 then co.1.modDesc n t.desc (fun d => { d with collided := true }) else co.1

/-- DATA_PACKET: completes the tracking entry named by its tag. -/
def execDataPacket (n : Nat) (p : Packet) (hits : List Contest) (s : State) : Out :=
  .next (s.onPacket n p (fun s =>
    match (s.tile n).mov.tracks.find? (fun t => t.tag == p.tag && (t.ptype == .read || t.ptype == .memRead)) with
    | some t => (s.replyContest n t hits).landReply n t p
    | none => s))

/-- FORK_PACKET: completes the oldest tracking entry that awaits a read with the FORK's far_addr, rows and stride. -/
def execForkPacket (n : Nat) (p : Packet) (hits : List Contest) (s : State) : Out :=
  .next (s.onPacket n p (fun s =>
    match (s.tile n).mov.tracks.find? (fun t => (t.ptype == .read || t.ptype == .memRead) && t.addr == p.farAddr.toNat
        && t.rows == p.rows && t.stride == p.stride) with
    | some t => (s.replyContest n t hits).landReply n t p
    | none => s))

/-- A far SIGNAL's reply: the credit returns (R174); answers the queue that sent it. -/
def State.signalReply (s : State) (n : Nat) (p : Packet) : State × Option Nat :=
  match (s.tile n).mov.signals.find? (fun x => x.2 == p.farAddr.toNat) with
  | some (q, a) =>
    (s.modMov n (fun m => { m with credits := m.credits + 1, signals := m.signals.erase (q, a) }), some q)
  | none => (s, none)

/-- An argument row's target has acknowledged (R235). -/
def State.argAcked (s : State) (p : Packet) : State :=
  s.modJob p.partition (fun j => { j with args := j.args.erase (argKey (srcPos p) p.farAddr) })

/-- Is a reply that of an argument row still awaited, and not of a dispatcher's copy (R235, R255)? -/
def State.argAwaited (s : State) (p : Packet) : Bool :=
  (s.job p.partition).elim false (fun j => j.args.contains (argKey (srcPos p) p.farAddr))

/-- The tracking entry of a WRITE or MEM_WRITE that a reply answers, by the tag and the far address it copies. DESIGN CHOICE (notes/assumptions/124.md): a reply that no such entry matches answers the far SIGNAL to its far address; a header has no bit that tells the two apart (R171). -/
def State.trackOf (s : State) (n : Nat) (p : Packet) (ts : List Ptype) : Option Track :=
  (s.tile n).mov.tracks.find? (fun t => t.tag == p.tag && ts.contains t.ptype && t.addr == p.farAddr.toNat)

/-- ACK_PACKET: acknowledges a WRITE or MEM_WRITE of the mover, a far SIGNAL, or an argument row of the sequencer. -/
def execAckPacket (n : Nat) (p : Packet) (s : State) : Out :=
  .next (s.onPacket n p (fun s =>
    if fromBlock p then s.argAcked p
    else match s.trackOf n p [.write, .memWrite] with
      | some t => s.release n t.tag
      | none => (s.signalReply n p).1))

/-- The unit that serves a request: the suspect of an UNCORRECTABLE answer (R114). -/
def State.serverOf (s : State) (n : Nat) (t : Track) (p : Packet) : Suspect × Option Nat :=
  let q := (s.ownerOf n).getD 12
  if farForm t.addr = 1 then (susStack (hbmStack ((s.cfg q).hbmBase + farOffset t.addr)), none)
  else if farForm t.addr = 2 then (susChannel (s.ddrDecode ((s.cfg q).ddrBase + farOffset t.addr)).1, none)
  else if s.isOwn (farDevice t.addr) then (susTile (srcPos p), some (srcPos p))
  else (susDevice (farDevice t.addr), none)

/-- A far SIGNAL of the job was refused at a closure: its tiles' waits may have a closed owner (R218). -/
def State.markFenced (s : State) (n : Nat) : State :=
  s.each ((s.ownerOf n).elim [] s.jobTiles) (fun t m => t.modGau m (fun u => { u with fenced := true }))

/-- A target refuses an argument row: a program fault of the job, which ends (R235). -/
def State.argRefused (s : State) (p : Packet) (st : Nat) : State :=
  if s.argAwaited p then
    (s.reportFor (some p.partition) clProgram (susTile (srcPos p)) (susPartition p.partition) st 0).endJob p.partition true
  else s

/-- Does the request of a tracking entry carry a signal: the last WRITE of a PUT with sig_far (R113)? -/
def State.carriesSignal (s : State) (n : Nat) (t : Track) : Bool :=
  ((s.tile n).mov.descs.find? (fun d => d.id == t.desc)).elim false (fun d =>
    dOp d.word == opPut && dSigEn d.word && dSigFar d.word && t.first + t.rows == dRows d.word)

/-- A request of the mover ends with status `st`: its descriptor keeps the first such status. UNCORRECTABLE is recorded and reported at once, since the STEP_FAULT it raises discards the descriptor (R105, R114, R211, R218). -/
def State.requestFailed (s : State) (n st : Nat) (t : Track) (p : Packet) : State :=
  let refused := (st == stFenced || st == stAccessDenied) && s.carriesSignal n t
  let s1 := if refused then s.count (tileIx n) 0x65 0 32 else s
  let s2 := if refused && st == stFenced then s1.markFenced n else s1
  let s3 := (s2.modDesc n t.desc (fun d => if d.status = 0 then { d with status := st } else d)).release n t.tag
  if st = stUncorrectable then
    let srv := s.serverOf n t p
    ((s3.descFailed n t.desc st srv.1 none).modDesc n t.desc (fun d => { d with told := true })).tileStepFault n
      (if srv.2.isSome then clTileData else clMemoryUncorrectable) srv.2
  else s3

/-- STATUS_PACKET: a request ends with a status that is not OK (R7, R114, R130, R235). -/
def execStatusPacket (n : Nat) (p : Packet) (s : State) : Out :=
  .next (s.onPacket n p (fun s =>
    let st := knownStatus p.status
    if fromBlock p then s.argRefused p st
    else match s.trackOf n p [.read, .write, .memRead, .memWrite] with
      | some t => s.requestFailed n st t p
      | none => match s.signalReply n p with
        | (s1, some q) => (if st = stFenced then s1.markFenced n else s1).signalRefused n q st p.farAddr.toNat
        | (s1, none) => s1))

/-! ### Routers (R164-R181, R184-R186) -/

/-- Count the flits of a packet that pass a router (R191). -/
def State.countFlits (s : State) (pos : Nat) (p : Packet) : State :=
  s.count (tileIx pos) 0x51 (if isReply p then 1 else 0) 64 (flitsOf p)

/-- A request that cannot go on is answered with a STATUS to its source; a reply is discarded; either counts (R179). -/
def State.stopPacket (s : State) (pos : Nat) (p : Packet) (st : Nat) : State :=
  let s1 := s.count (tileIx pos) 0x57 0 32
  if isReply p then s1 else s1.sendReply pos p st

/-- The input of the next router that a hop arrives at (R164). -/
def arrivesAt (p : Packet) : Dir → Nat
  | .north => (if isReply p then 6 else 0) + 2
  | .east => (if isReply p then 6 else 0) + 3
  | .south => if isReply p then 6 else 0
  | .west => (if isReply p then 6 else 0) + 1

/-- Is the buffer of a class free at an input (R176)? -/
def State.bufferFree (s : State) (m input vc : Nat) : Bool :=
  !(s.tile m).inputs.any (fun x => x.input == input && x.leg.vc == vc)

/-- A packet leaves the input buffer in which it stands, if it stands in one (R176). -/
def State.unbuffer (s : State) (pos : Nat) (leg : Leg) (p : Packet) : State :=
  match (s.tile pos).inputs.find? (fun x => decide (x.leg = leg) && decide (x.pkt = p)) with
  | some x => s.modTile pos (fun t => { t with inputs := t.inputs.erase x })
  | none => s

/-- A packet passes to the neighbour in a direction: its flits are accepted at that router's input, and stand in its buffer (R164, R165, R176). -/
def State.passOn (s : State) (pos m : Nat) (d : Dir) (leg : Leg) (p : Packet) : State :=
  let i := arrivesAt p d
  (s.modTile m (fun t => { t with inputs := t.inputs ++ [⟨i, leg, p⟩], parity := t.parity.erase i })).emit (.hop pos m leg p)

/-- Where a router sends a packet after its turns and detours: the hop and the leg it leaves with, or none where it decodes an uncorrectable header at a turn (R173, R176, R179). -/
def State.nextHop (s : State) (pos : Nat) (leg : Leg) (p : Packet) : Option (Hop × Leg) :=
  let on := fun (leg : Leg) => match s.hop pos leg.vc leg.legX leg.legY p.dstX p.dstY with
    | .detour wx wy => (s.hop pos (leg.vc + 1) wx wy p.dstX p.dstY, (⟨leg.vc + 1, wx, wy⟩ : Leg))
    | h => (h, leg)
  match s.hop pos leg.vc leg.legX leg.legY p.dstX p.dstY with
  | .turn => if headBad p 0 then none else some (on ⟨leg.vc, p.dstX, p.dstY⟩)
  | _ => some (on leg)

/-- Route a packet's head at a router; it waits where the next router's buffer of its class is full (R176, R179). A position that has ceased to forward, and has no flits left to drain, discards it (R181). -/
def State.routeHead (s : State) (pos : Nat) (leg : Leg) (p : Packet) : State :=
  if !s.carries pos then (s.unbuffer pos leg p).losePacket pos
  else match s.nextHop pos leg p with
    | none => (s.unbuffer pos leg p).losePacket pos
    | some (.eject, l) => ((s.unbuffer pos leg p).countFlits pos p).emit (.hop pos pos l p)
    | some (.forward m d, l) =>
      if s.bufferFree m (arrivesAt p d) l.vc then ((s.unbuffer pos leg p).countFlits pos p).passOn pos m d l p else s
    | some (.fenced, _) => ((s.unbuffer pos leg p).countFlits pos p).stopPacket pos p stFenced
    | some (.refused, _) =>
      (((s.unbuffer pos leg p).countFlits pos p).stopPacket pos p stRefused).reportFor (s.partitionOf pos) clFabricPath
        (susTile pos) (susTile pos) stRefused 0
    | some (.turn, _) => s
    | some (.detour _ _, _) => s

/-- FLIT_PARITY_ERROR: a first error is refused and repeated; the second on the same flit fails the link: the position closes, and the packet caught on the link is discarded (R165, R173). -/
def execFlitParityError (pos input : Nat) (s : State) : Out :=
  .next (
    if (s.tile pos).parity.contains input then
      let s1 := s.modTile pos (fun t => { t with parity := t.parity.erase input })
      let s2 := s1.reportFor (s.partitionOf pos) clFabricLink (susTile pos) (susTile pos) 0 input (some (susTile pos))
      (s2.condemnTile pos clFabricLink).losePacket pos
    else (s.count (tileIx pos) 0x52 0 32).modTile pos (fun t => { t with parity := t.parity ++ [input] }))

/-- The output of a FORK entry at a router: X first, then Y, local where both match (R184). -/
def forkOutput (pos : Nat) (e : Nat × Nat) : Option Dir := nextDir pos e.1 e.2

/-- The entries of a FORK for one output (R184). -/
def forkPart (pos : Nat) (p : Packet) (d : Option Dir) : List (Nat × Nat) := p.list.filter (fun e => decide (forkOutput pos e = d))

/-- Can a branch of a FORK move: its next router, if it forwards, has a free buffer (R185)? -/
def State.branchFree (s : State) (pos : Nat) (p : Packet) : Option Dir → Bool
  | none => true
  | some d => match neighbour pos d with
    | none => true
    | some m => (forkPart pos p (some d)).isEmpty || !s.forwards m || s.bufferFree m (arrivesAt p d) 0

/-- One branch of a FORK: passed on with its own entries, or, where its next hop does not forward, turned into DATA packets (R184, R186). -/
def State.forkBranch (s : State) (pos : Nat) (p : Packet) (d : Option Dir) : State :=
  let mine := forkPart pos p d
  if mine.isEmpty then s
  else
    let rest : Packet := { mended p with list := mine }
    match d with
    | none => s.emit (.hop pos pos ⟨0, 0x3F, 0x1F⟩ rest)
    | some dir => match neighbour pos dir with
      | none => s
      | some m =>
        if s.forwards m then s.passOn pos m dir ⟨0, 0x3F, 0x1F⟩ rest
        else
          s.each mine (fun t e =>
            if t.forwards (posOf e.1 e.2) then
              t.routeHead pos ⟨0, e.1, e.2⟩ { mended p with ptype := .data, list := [], dstX := e.1, dstY := e.2 }
            else t.count (tileIx pos) 0x57 0 32)

/-- A FORK at a router (R184-R186): it waits until every branch is free; both header codewords are decoded where it splits; then each branch takes its entries. `waits` flits have waited for a slow branch. -/
def State.splitFork (s : State) (pos waits : Nat) (p : Packet) : State :=
  let outs : List (Option Dir) := [none, some .north, some .east, some .south, some .west]
  let leg : Leg := ⟨0, 0x3F, 0x1F⟩
  if !s.carries pos ∨ ((headBad p 0 || headBad p 1) ∧ 2 ≤ (outs.filter (fun d => !(forkPart pos p d).isEmpty)).length) then
    (s.unbuffer pos leg p).losePacket pos
  else if outs.all (s.branchFree pos p) then
    ((((s.unbuffer pos leg p).countFlits pos p).count (tileIx pos) 0x56 0 64 waits)).each outs (fun t d => t.forkBranch pos p d)
  else s

/-- FORK_SPLIT: a router divides a FORK's list by output; `waits` flits waited for a slow branch (R184-R186). -/
def execForkSplit (pos waits : Nat) (p : Packet) (s : State) : Out := .next (s.splitFork pos waits p)

/-- HEAD_FLIT_ROUTE: a router ejects, forwards, turns or detours a packet, or ends it with FENCED or REFUSED; a FORK follows its list. -/
def execHeadFlitRoute (pos : Nat) (leg : Leg) (p : Packet) (s : State) : Out :=
  .next (if p.ptype = .fork then s.splitFork pos 0 p else s.routeHead pos leg p)

/-- The embankment blocks that meet the mesh, each with its edge position, the kind of chain, and its suspect (R25, R26). -/
def embankmentBlocks : List (Nat × Bool × Suspect) :=
  (List.range 12).flatMap (fun h => (List.range 8).map (fun k => (hbmPortPos h k, false, susStack h)))
    ++ (List.range 16).map (fun k => (causewayPos k, true, susPort k)) ++ (List.range 8).map (fun m => (uciePos m, true, susUcie m))

/-- The blocks that a position's end leaves unreachable from the mesh are logged as degraded (R26). -/
def State.reportUnreachable (s before : State) : State :=
  let lost := embankmentBlocks.filter (fun b => (s.entryPos b.1 b.2.1).isNone && (before.entryPos b.1 b.2.1).isSome)
  s.each ((lost.map (fun b => b.2.2)).eraseDups) (fun t x => t.reportFor none clRecovery x x stDegraded 0)

/-- POSITION_NON_FORWARDING: step 1 of R181 for a position that is HOLE, CLOSED or RETIRED. The entries of its neighbours are set; every job whose checked routes passed a router whose entry changed has its step abandoned, and every job's routes are checked again; the flits it holds drain from now on (R26, R177, R178, R181, R200). -/
def execPositionNonForwarding (n : Nat) (s : State) : Out :=
  .next (
    if s.usable n then s
    else
      let was := (s.tile n).through
      let r := (s.modTile n (fun t => { t with through := false, drains := t.drains || was })).setDetours (neighbours n)
      let hit := partitionNumbers.filter (fun q => (s.job q).elim false (fun j =>
        (s.routersUsed q j.map).any (fun x => r.2.contains x)))
      let s1 := (r.1.each hit (fun t q => t.stepFault q clFabricPath none)).recheckRoutes
      if was then s1.reportUnreachable (s.setTileState n (s.tile n).before) else s1)

/-- NON_FORWARDING_DRAIN_END: after 100 µs the position forwards nothing more; packets it still holds are discarded, and a lost packet raises STEP_FAULT in every partition with a job (R173, R181). -/
def execNonForwardingDrainEnd (n : Nat) (s : State) : Out :=
  .next (
    if s.forwards n then s
    else
      let t := s.tile n
      let lost := !(t.gau.held.isEmpty && t.merges.isEmpty && t.inputs.isEmpty)
      let s1 := s.modTile n (fun t => { t with drains := false, inputs := [], merges := [], gau := { t.gau with held := [] } })
      if lost then s1.losePacket n else s1)

/-! ### The hand-set of a gauge (R196, R220) -/

/-- The own rule of object 2100+n:62. -/
def ruleGaugeSet (n v : Nat) (s : State) : State × Nat :=
  if (s.ownerOf n).isNone then (s, stNotReady)
  else match (s.tile n).gau.st with
    | .frozen => (s, stFenced)
    | .draining => (s, stBusy)
    | .saved => (s, stBusy)
    | _ =>
      if fieldOf v 39 25 ≠ 0 then (s, stBadValue)
      else
        let g := fieldOf v 32 7
        let u := s.gauge n g
        let s1 := (s.setGauge n g { u with value := v % 2 ^ 32, handSet := true, tide := s.tide }).tileReport n clOperator 0 g
        ((s.ownerOf n).elim s1 (fun q => s1.outside q 0), stOk)

/-- GAUGE_SET: sets one gauge by hand. -/
def execGaugeSet (sess n : Nat) (v : BitVec 64) (s : State) : Out :=
  s.commandOut sess (tileIx n) 0x62 (ruleGaugeSet n v.toNat)

end Sys2Proof.Machine
end

