-- ==== Sys2Proof/Machine/Image.lean ====
section
/-! DEFINITION. The checks of a stage program image at a job load (R118, R119, R123, R126-R138). -/

namespace Sys2Proof.Machine

/-- May the words of a queue, or of the prologue (none), carry an opcode (R119, R123)? -/
def opcodeAllowed (op : Nat) : Option Nat → Bool
  | none => op == 0x03 || op == 0x04 || op == 0x40 || op == 0x41
  | some q => (decide (1 ≤ op) && decide (op ≤ 4))
      || (q == 0 && (op == 0x10 || op == 0x11 || op == 0x12)) || (q == 1 && op == 0x20) || (q == 2 && op == 0x30)
      || (q == 3 && (op == 0x40 || op == 0x41))

/-- The formats and aux of a VEC word (R134, R136, R151-R161). -/
def vecFormsOk (func : Nat) (v : VecWord) : Bool :=
  let i := v.fmtIn
  let o := v.fmtOut
  if func = 0x01 then isWide i && isWide o && i != o && v.aux == 0
  else if func = 0x02 then i == fmtFP32 && o == fmtFP32 && v.aux == 0
  else if func = 0x03 then isWide i && isNarrow o && v.aux == 0
  else if func = 0x05 then isWide i && isWide o && decide (v.aux < 4)
  else if func = 0x04 ∨ func = 0x06 ∨ func = 0x07 then isWide i && isWide o && decide (v.aux < 2)
  else if func = 0x08 then isWide i && isWide o && decide (v.aux < 10)
  else if func = 0x09 then isWide i && o == fmtFP32 && decide (v.aux < 6)
  else if func = 0x0A then isWide i && isWide o && v.aux == 0
  else if func = 0x0B then isWide i && isWide o && decide (v.aux < 2)
  else if func = 0x0C then isNarrow i && isWide o && v.aux == 0 && !v.aAcc
  else if func = 0x0D then isWide i && o == fmtFP32 && decide (1 ≤ v.aux) && decide (v.aux ≤ 8)
  else if func = 0x0E then isWide o && decide (v.aux < 3) && (v.aux != 0 || o == fmtFP32)
  else false

/-- The last slot that a VEC word with a_acc certainly reads (R147, R151). -/
def vecLastSlot (func : Nat) (v : VecWord) : Nat :=
  if func = 0x02 then v.aRow + v.count - 1
  else if func = 0x09 ∨ func = 0x0A ∨ func = 0x0B ∨ func = 0x0D then v.aRow
  else v.aRow + (64 * v.count - 1) / 128

/-- The load-time checks of a VEC word. -/
def vecWordOk (sites w : Nat) : Bool :=
  let v := vecWord w
  let func := fieldOf w 112 8
  fieldOf w 0 3 == 0 && decide (0 < v.count) && decide (v.fmtIn < 8) && decide (v.fmtOut < 8) && vecFormsOk func v
    && (!v.rnd || (func == 0x03 && decide (v.site < sites)))
    && (!v.aAcc || (v.aHandle == 0 && v.fmtIn == fmtFP32 && decide (vecLastSlot func v < 1024)))

/-- The load-time checks of a PASS word: those that some live format passes (R133). -/
def passWordOk (w : Nat) : Bool :=
  let fold := fieldOf w 115 3
  decide (1 ≤ fieldOf w 94 14) && fieldOf w 32 12 == 0 && (decide (2 ≤ fold) || fieldOf w 0 32 == 0)
    && (List.range 6).any (fun live => passOk live (fieldOf w 118 2) fold (fieldOf w 111 4) (bitOf w 110) (bitOf w 109) (bitOf w 108)
        (fieldOf w 94 14) (fieldOf w 84 10))

/-- The fields of one command word; `first`: it lies at its queue's entry address (R119, R127). -/
def wordOk (sites : Nat) (q : Option Nat) (first : Bool) (w : Nat) : Bool :=
  let op := opcodeOf w
  opcodeAllowed op q &&
    (if op = 0x01 then fieldOf w 0 64 == 0 && (!bitOf w 119 || first)
     else if op = 0x02 then fieldOf w 0 72 == 0 && fieldOf w 96 16 != 0 && (bitOf w 119 || fieldOf w 72 24 == 0)
     else if op = 0x03 ∨ op = 0x11 then fieldOf w 0 120 == 0
     else if op = 0x04 then fieldOf w 0 104 == 0
     else if op = 0x10 then stationaryFmt (fieldOf w 116 4) && fieldOf w 0 20 == 0
     else if op = 0x12 then passWordOk w
     else if op = 0x20 then vecWordOk sites w
     else if op = 0x30 then fieldOf w 0 100 == 0
     else if op = 0x40 then fieldOf w 70 50 == 0 && (handleEntry (fieldOf w 0 64)).isSome
     else fieldOf w 34 86 == 0 && decide (fieldOf w 32 2 < 3) && sentinelOk (fieldOf w 0 32))

/-- A segment of an image: its queue (none: the prologue), its entry and its length (R118). -/
structure Segm where
  queue : Option Nat
  entry : Nat
  len   : Nat
  deriving DecidableEq, Repr

/-- The non-empty segments of a header (R118). -/
def segments (h : Nat) : List Segm :=
  (((List.range 4).map (fun q => Segm.mk (some q) (fieldOf h (32 * q) 16) (fieldOf h (32 * q + 16) 16)))
    ++ [Segm.mk none (fieldOf h 144 16) (fieldOf h 128 16)]).filter (fun g => decide (g.len ≠ 0))

/-- Do two segments overlap? -/
def Segm.overlaps (a b : Segm) : Bool := decide (a.entry < b.entry + b.len) && decide (b.entry < a.entry + a.len)

/-- The header's own fields and the preload bounds (R118, R119). -/
def headerOk (h : Nat) : Bool :=
  let cmd := fieldOf h 208 16
  decide (1 ≤ cmd) && decide (cmd ≤ 2047) && decide (fieldOf h 192 16 ≤ 1024) && decide (fieldOf h 188 4 ≤ 11) && fieldOf h 176 2 == 0
    && decide (fieldOf h 178 10 + fieldOf h 192 16 ≤ 1024)

/-- The word of an image at a word address. -/
def imageWord (rows : List Row) (a : Nat) : Nat := fieldOf (rows.getD (a / 2) 0).toNat (128 * (a % 2)) 128

/-- The first word of a segment that breaks R119. -/
def segmentFault (rows : List Row) (sites : Nat) (g : Segm) : Option Nat :=
  ((List.range g.len).map (fun i => g.entry + i)).find? (fun a =>
    let w := imageWord rows a
    !(wordOk sites g.queue (a == g.entry) w && (opcodeOf w == 0x03) == (a == g.entry + g.len - 1)))

/-- The first REQUANT word with seeded rounding whose site an earlier one uses (R50, R136). -/
def siteFault (rows : List Row) (gs : List Segm) : Option Nat :=
  let uses := (gs.flatMap (fun g => (List.range g.len).map (fun i => g.entry + i))).filterMap (fun a =>
    let w := imageWord rows a
    if opcodeOf w = 0x20 ∧ fieldOf w 112 8 = 0x03 ∧ bitOf w 27 then some (a, fieldOf w 11 16) else none)
  (uses.zipIdx.find? (fun e => (uses.take e.2).any (fun u => u.2 == e.1.2))).map (·.1.1)

/-- The word address at which an image breaks R119; none where it breaks nothing. DEDUCED: a fault of the header counts at word 0, a misplaced segment at its entry. -/
def imageFault (rows : List Row) : Option Nat :=
  let h := (rows.getD 0 0).toNat
  let gs := segments h
  if !headerOk h then some 0
  else match gs.zipIdx.find? (fun e => decide (e.1.entry < 2) || decide (e.1.entry + e.1.len > 2 * fieldOf h 208 16 + 2)
      || (gs.take e.2).any (e.1.overlaps ·)) with
    | some e => some e.1.entry
    | none => match gs.findSome? (segmentFault rows (fieldOf h 160 16)) with
      | some a => some a
      | none => siteFault rows gs

end Sys2Proof.Machine
end

