-- ==== Sys2Proof/Machine/Jobs.lean ====
section
/-! DEFINITION. Partitions and the life of a job: apply, load, end, pre-emption, resumption, scrub (09_polders_and_pipelines.md R223-R241, 23 R556). -/

namespace Sys2Proof.Machine

/-! ### Partition apply (R223, R224, R556) -/

/-- The fill in progress of a partition's new windows. -/
def State.fillOf (s : State) (q : Nat) : Option PartFill := Tbl.get s.fills none q

/-- The configuration that a partition holds against others: in force, or waiting for its fill (R224, R556). -/
def State.heldCfg (s : State) (q : Nat) : Option PartCfg :=
  match s.fillOf q with
  | some f => some f.cfg
  | none => if s.configured q then some (s.cfg q) else none

/-- The configuration held in objects 5000+q:01 to :07 (R223). -/
def State.newCfg (s : State) (q : Nat) : PartCfg :=
  let g := fun k => s.obj (0x5000 + q) k
  { clusters := g 1, hbmBase := g 2, hbmSize := g 3, ddrBase := g 4, ddrSize := g 5, jobTable := g 6, tenant := g 7 }

/-- Does a configuration break one of the conditions of R224 (R3, R320)? -/
def State.cfgBad (s : State) (q : Nat) (c : PartCfg) : Bool :=
  let others := (partitionNumbers.filter (· ≠ q)).filterMap s.heldCfg
  decide (c.clusters ≥ 2 ^ 90)
    || others.any (fun o => (c.clusters &&& o.clusters) != 0)
    || decide (c.hbmBase < 0x40000000) || c.hbmBase % 0x10000000 != 0 || c.hbmSize == 0 || c.hbmSize % 0x10000000 != 0
    || decide (c.hbmBase + c.hbmSize > 6 * regionBytes)
    || others.any (fun o => rangesOverlap c.hbmBase c.hbmSize o.hbmBase o.hbmSize)
    || c.ddrBase % 0x40000000 != 0 || c.ddrSize % 0x40000000 != 0
    || others.any (fun o => decide (0 < c.ddrSize) && decide (0 < o.ddrSize) && rangesOverlap c.ddrBase c.ddrSize o.ddrBase o.ddrSize)
    || (decide (0 < c.ddrSize) && decide (c.ddrBase + c.ddrSize > s.obj 0x3100 3))
    || decide (c.jobTable + 128 > c.hbmSize) || c.jobTable % 256 != 0

/-- The granules of a window. -/
def granules (base size unit : Nat) : List Nat := (List.range (size / unit)).map (fun i => base / unit + i)

/-- Put a configuration in force (R223, R556). -/
def State.putCfg (s : State) (q : Nat) (c : PartCfg) : State :=
  let tag := c.tenant + 1
  let s1 := { s with
    cfgs := Tbl.put s.cfgs {} q c, fills := Tbl.put s.fills none q none,
    hbmTags := (granules c.hbmBase c.hbmSize 0x10000000).foldl (fun t g => Tbl.put t 0 g tag) s.hbmTags,
    ddrTags := (granules c.ddrBase c.ddrSize 0x40000000).foldl (fun t g => Tbl.put t 0 g tag) s.ddrTags }
  s1.setObj (0x5000 + q) 0 0 1

/-- The own rule of object 5000+q:08 (R224, R556). BUSY during the fill of an earlier apply: DESIGN CHOICE. -/
def rulePartitionApply (q v : Nat) (s : State) : State × Nat :=
  if v ≠ 1 then (s, stBadValue)
  else if s.jobState q ≠ jsNone ∨ (s.fillOf q).isSome then (s, stBusy)
  else
    let c := s.newCfg q
    if c.clusters = 0 then
      ({ s with cfgs := Tbl.put s.cfgs {} q {} }.setObj (0x5000 + q) 0 0 0, stOk)
    else if s.cfgBad q c then (s, stBadValue)
    else
      let stale := fun (t : Tbl Nat) (g : Nat) => Tbl.get t 0 g != 0 && Tbl.get t 0 g != c.tenant + 1
      let h := (granules c.hbmBase c.hbmSize 0x10000000).filter (stale s.hbmTags)
      let d := (granules c.ddrBase c.ddrSize 0x40000000).filter (stale s.ddrTags)
      if h.isEmpty ∧ d.isEmpty then (s.putCfg q c, stOk)
      else ({ s with fills := Tbl.put s.fills none q (some ⟨c, h, d⟩) }.setObj (0x5000 + q) 0 0 0, stPending)

/-- PARTITION_APPLY: checks and applies the partition's configuration. -/
def execPartitionApply (sess q : Nat) (s : State) : Out := s.commandOut sess (0x5000 + q) 8 (rulePartitionApply q 1)

/-- Zero a byte range of a memory. -/
def State.zeroRange (s : State) (ddr : Bool) (lo hi : Nat) : State :=
  if ddr then { s with ddr := s.ddr.filter (fun e => !(decide (lo ≤ 64 * e.1) && decide (64 * e.1 < hi))) }
  else { s with hbm := s.hbm.filter (fun e => !(decide (lo ≤ 32 * e.1) && decide (32 * e.1 < hi))) }

/-- GRANULE_FILL_COMPLETE: the granules of another tenant are zero, the windows are tagged, the partition is CONFIGURED. -/
def execGranuleFillComplete (q : Nat) (s : State) : Out :=
  .next (match s.fillOf q with
    | none => s
    | some f =>
      let s1 := s.each f.hbm (fun t g => t.zeroRange false (0x10000000 * g) (0x10000000 * (g + 1)))
      let s2 := s1.each f.ddr (fun t g => t.zeroRange true (0x40000000 * g) (0x40000000 * (g + 1)))
      (s2.putCfg q f.cfg).setObj (0x5000 + q) 8 0 stOk)

/-! ### The job table (R226-R228) -/

/-- Rows of the window as one number, the first row least significant; none where a row decodes uncorrectable. -/
def State.readWin (s : State) (q offset k : Nat) : State × Option Nat :=
  let x := (List.range k).foldl (fun (acc : State × Option (List Row)) i =>
    let y := acc.1.ringRead false (acc.1.winRow q offset + i) (some q)
    (y.1, match acc.2, y.2 with
      | some l, some d => some (l ++ [d])
      | _, _ => none)) (s, some [])
  (x.1, x.2.map (fun l => (l.zipIdx.map (fun e => 2 ^ (256 * e.2) * e.1.toNat)).sum))

/-- The job header in 1,024 bits (R226). -/
def headerOf (h : Nat) : JobHdr :=
  { version := fieldOf h 0 8, jobId := fieldOf h 16 16, tiles := fieldOf h 32 16, polderCount := fieldOf h 48 8,
    startGauge := fieldOf h 56 7, firstStep := fieldOf h 64 64, seed := fieldOf h 128 64, ringOffset := fieldOf h 192 64,
    ringLog2 := fieldOf h 256 4, watchCount := fieldOf h 260 4, targetCount := fieldOf h 264 8, sharedCount := fieldOf h 272 16,
    placementAt := fieldOf h 320 64, polderAt := fieldOf h 384 64, targetsAt := fieldOf h 448 64, sharedAt := fieldOf h 512 64,
    saveAt := fieldOf h 576 64 }

/-- Watch `w` of a header: its fields, and whether per_step and the reserved fields are in range (R227). -/
def watchOf (h w : Nat) : Watch × Bool :=
  let x := fieldOf h (640 + 96 * w) 96
  ({ gauge := fieldOf x 32 7, base := fieldOf x 64 32, perStep := fieldOf x 48 16, logical := fieldOf x 0 16 },
    fieldOf x 39 9 == 0 && fieldOf x 16 16 == 0 && fieldOf x 48 16 != 0)

/-- The tiles a partition offers (R2, R226). -/
def State.offeredIn (s : State) (q : Nat) : List Nat :=
  allTiles.filter (fun n => s.tileState n == tsOffered && s.ownsCluster q (clusterOf n))

/-- Is an aligned extent inside the window? -/
def State.extentOk (s : State) (q offset align len : Nat) : Bool := offset % align == 0 && s.inWindow q offset len

/-- The header's fields within their ranges, its extents inside the window; `limit` bounds the number of tiles (R226, R232). -/
def State.headerFieldsOk (s : State) (q limit h : Nat) : Bool :=
  let x := headerOf h
  fieldOf h 8 8 == 0 && fieldOf h 63 1 == 0 && fieldOf h 288 32 == 0
    && decide (1 ≤ x.jobId) && decide (1 ≤ x.tiles) && decide (x.tiles ≤ limit) && decide (1 ≤ x.polderCount)
    && decide (4 ≤ x.ringLog2) && decide (x.ringLog2 ≤ 12) && decide (1 ≤ x.watchCount) && decide (x.watchCount ≤ 4)
    && decide (x.targetCount ≤ 64) && decide (x.sharedCount ≤ 1024)
    && s.extentOk q x.ringOffset 256 (256 * 2 ^ x.ringLog2) && s.extentOk q x.placementAt 32 (16 * x.tiles)
    && s.extentOk q x.polderAt 32 (16 * x.polderCount) && s.extentOk q x.targetsAt 32 (8 * x.targetCount)
    && s.extentOk q x.sharedAt 32 (8 * x.sharedCount)
    && s.extentOk q x.saveAt 32 (32 + (2 * x.tiles + 31) / 32 * 32 + 512 * x.tiles)
    && (List.range x.watchCount).all (fun w => (watchOf h w).2)

/-- Entries of `w` bits of a table held as one number. -/
def entriesOf (v w n : Nat) : List Nat := (List.range n).map (fun i => fieldOf v (w * i) w)

/-- A placement entry (R228). -/
def placedOf (e : Nat) : Placed :=
  { physical := fieldOf e 0 11, polder := fieldOf e 11 8, tpRows := fieldOf e 29 7, tpBank := fieldOf e 36 4, tpBase := fieldOf e 40 10,
    tpOffset := fieldOf e 64 64 }

/-- The ranges of a placement entry (R228). -/
def State.placedOk (s : State) (q e : Nat) : Bool :=
  let p := placedOf e
  decide (p.physical ≤ 1223) && decide (p.tpRows ≤ 64) && decide (p.tpBank ≤ 11) && decide (p.tpBase + p.tpRows ≤ 1024)
    && fieldOf e 19 10 == 0 && fieldOf e 50 14 == 0 && s.extentOk q p.tpOffset 32 (32 * p.tpRows)

/-- The ranges of a polder table entry (R228). -/
def State.polderOk (s : State) (q e : Nat) : Bool := fieldOf e 8 56 == 0 && s.extentOk q (fieldOf e 64 64) 32 32

/-- A job table as read: header, placement, polders, targets, declarations. -/
structure JobTable where
  raw     : Nat
  hdr     : JobHdr
  placed  : List Nat
  polders : List Nat
  targets : List Nat
  shared  : List Nat
  deriving DecidableEq, Repr

/-- Read the tables that a header names (R226). -/
def State.readTables (s : State) (q raw : Nat) : State × Option JobTable :=
  let h := headerOf raw
  let t := fun (x : State) (at' w n : Nat) => x.readWin q at' ((w * n + 31) / 32)
  let (s1, p) := t s h.placementAt 16 h.tiles
  let (s2, o) := t s1 h.polderAt 16 h.polderCount
  let (s3, a) := t s2 h.targetsAt 8 h.targetCount
  let (s4, d) := t s3 h.sharedAt 8 h.sharedCount
  (s4, match p, o, a, d with
    | some p, some o, some a, some d =>
      some { raw := raw, hdr := h, placed := entriesOf p 128 h.tiles, polders := entriesOf o 128 h.polderCount,
             targets := entriesOf a 64 h.targetCount, shared := entriesOf d 64 h.sharedCount }
    | _, _, _, _ => none)

/-- An argument target and a declaration (R228). -/
def targetOf (e : Nat) : ArgTarget := { logical := fieldOf e 0 16, handle := fieldOf e 16 6, row := fieldOf e 22 14, arg := fieldOf e 36 2 }
def sharedOf (e : Nat) : Shared := { logical := fieldOf e 0 16, gauge := fieldOf e 16 7, mask := fieldOf e 23 12 }

/-! ### The load checks (R232) -/

/-- What refuses a load: the status, the failing part and its index (R231, R232). -/
structure LoadFault where
  status : Nat
  part   : Nat
  index  : Nat := 0
  deriving DecidableEq, Repr

/-- The first failing entry of a table, as a fault. -/
def firstBad {α : Type} (xs : List α) (status part : Nat) (ok : α → Bool) : Option LoadFault :=
  (xs.zipIdx.find? (fun e => !ok e.1)).map (fun e => ⟨status, part, e.2⟩)

/-- The first fault of a list of checks. -/
def firstFault (fs : List (Unit → Option LoadFault)) : Option LoadFault := fs.findSome? (fun f => f ())

/-- Is a polder held by another partition's loaded job (R232, R241)? -/
def State.polderTaken (s : State) (q p : Nat) : Bool := s.obj (0x5100 + p) 0 == 1 && s.obj (0x5100 + p) 1 != q

/-- The rows of an image: header and command rows (R118). -/
def State.imageRows (s : State) (q at' : Nat) : State × Option (List Row) :=
  match s.readWin q at' 1 with
  | (s1, some h) =>
    let k := fieldOf h 208 16 + 1
    match s1.readWin q at' k with
    | (s2, some v) => (s2, some ((List.range k).map (fun i => BitVec.ofNat 256 (fieldOf v (256 * i) 256))))
    | (s2, none) => (s2, none)
  | (s1, none) => (s1, none)

/-- The fault of the first image that R119 refuses, or that does not lie in the window. -/
def State.imagesFault (s : State) (q : Nat) : List Nat → State × Option LoadFault
  | [] => (s, none)
  | at' :: rest =>
    match s.imageRows q at' with
    | (s1, none) => (s1, some ⟨stUncorrectable, 6, 0⟩)
    | (s1, some rows) =>
      let h := (rows.getD 0 0).toNat
      if !s.inWindow q at' (32 * (1 + fieldOf h 208 16 + fieldOf h 192 16)) then (s1, some ⟨stBadValue, 6, 0⟩)
      else match imageFault rows with
        | some a => (s1, some ⟨stBadValue, 6, a⟩)
        | none => State.imagesFault s1 q rest

/-- The tiles of a map that may not be loaded, as a fault (R232, R241). -/
def State.mapFault (s : State) (q : Nat) (map : List Nat) : Option LoadFault :=
  firstBad map.zipIdx stRefused 2 (fun e =>
    decide (e.1 < 1224) && s.tileState e.1 == tsOffered && s.ownsCluster q (clusterOf e.1) && !(map.take e.2).contains e.1)

/-- A polder of the placement that another partition's job holds, as a fault of its placement entry (R231, R232, R241). -/
def State.heldFault (s : State) (q : Nat) (t : JobTable) (status : Nat) : Option LoadFault :=
  firstBad (t.placed.map placedOf) status 2 (fun p => !s.polderTaken q p.polder)

/-- The checks of R232 from the table entries on, for a given map from logical tile to position. A polder number that fails is a field of its placement entry (R231). -/
def State.tableFault (s : State) (q : Nat) (t : JobTable) (map : List Nat) : Option LoadFault :=
  let n := t.hdr.tiles
  let placed := t.placed.map placedOf
  let table := t.polders.map (fun e => fieldOf e 0 8)
  let watches := (List.range t.hdr.watchCount).map (fun w => (watchOf t.raw w).1)
  firstFault [
    fun _ => firstBad t.placed stBadValue 2 (s.placedOk q),
    fun _ => firstBad t.polders stBadValue 3 (s.polderOk q),
    fun _ => firstBad t.targets stBadValue 4 (fun e => fieldOf e 38 26 == 0),
    fun _ => firstBad t.shared stBadValue 5 (fun e => fieldOf e 35 29 == 0),
    fun _ => if s.obj (0x5040 + q) 8 = 1 ∧ !bitOf (s.obj (0x5040 + q) 9) s.ownDevice then some ⟨stBadValue, 8, 0⟩ else none,
    fun _ => s.mapFault q map,
    fun _ => firstBad placed stRefused 2 (fun p => table.count p.polder == 1 && !s.polderTaken q p.polder),
    fun _ => if watches.all (fun w => decide (w.logical < n)) then none else some ⟨stBadValue, 1, 0⟩,
    fun _ => firstBad t.targets stBadValue 4 (fun e => decide ((targetOf e).logical < n)),
    fun _ => firstBad t.shared stBadValue 5 (fun e => decide ((sharedOf e).logical < n))]

/-! ### Loading (R120, R194, R232) -/

/-- The job record of a table, with what it keeps for its life of the objects that take effect at a job load (R77, R141, R226-R228, R243, R245, R299, R541). -/
def State.jobOf (s : State) (q : Nat) (t : JobTable) (map : List Nat) : Job :=
  { hdr := t.hdr, map := map,
    placed := (t.placed.map placedOf).zipIdx.map (fun e => { e.1 with physical := map.getD e.2 0 }),
    polders := t.polders.map (fun e => (fieldOf e 0 8, fieldOf e 64 64)),
    watches := (List.range t.hdr.watchCount).map (fun w => (watchOf t.raw w).1),
    targets := t.targets.map targetOf, cadence := s.obj (0x5020 + q) 0 == 1, phase := s.obj (0x5020 + q) 2,
    tickBase := s.obj (0x5020 + q) 2, period := s.obj (0x5020 + q) 1,
    barrier := s.obj (0x5040 + q) 8 == 1, group := s.obj (0x5040 + q) 9, since := s.elapsed, slackAt := s.elapsed,
    twinEvery := s.obj 0x6050 0, twinHold := s.obj 0x6050 1 == 1,
    rampLen := s.obj 0x2010 0, dogMs := s.obj 0x2011 0, mcastNs := s.obj 0x5200 3 }

/-- The polder objects of a loaded job (R231). -/
def State.setPolders (s : State) (q : Nat) (j : Job) : State :=
  let used := (j.placed.map (·.polder)).eraseDups
  let s1 := s.each used (fun t p =>
    let at' := (Tbl.find j.polders p).getD 0
    let n := j.placed.countP (fun e => e.polder == p)
    ((((t.setObj (0x5100 + p) 0 0 1).setObj (0x5100 + p) 1 0 q).setObj (0x5100 + p) 2 0 n).setObj (0x5100 + p) 3 0
      (fieldOf (t.winRead q at' 0).2.toNat 224 32)).setObj (0x5100 + p) 4 0 at')
  s1.setObj 0x5030 0 0 (s1.obj 0x5030 0 + used.length)

/-- Run a load whose checks passed: the tiles prepared, gauges and shared masks set, the records cleared, the job LOADING until its prologues end; a tile whose scrub fails closes and is remapped (R98, R120, R194, R232, R298, R509, R520). The step register of every tile takes `step`: DESIGN CHOICE at a resume, where it is the saved next step (notes/assumptions/119.md). -/
def State.runLoad (s : State) (q : Nat) (t : JobTable) (map : List Nat) (step : Nat) : State :=
  let j := s.jobOf q t map
  let s1 := (((s.setJob q (some j)).clearDispatcher q).toJobState q jsLoading).wakeTiles map
  let s2 := map.zipIdx.foldl (fun u e => (u.prepareTile q e.1 e.2 step).setTileState e.1 tsActive) s1
  let s3 := (t.shared.map sharedOf).foldl (fun u d =>
    let n := map.getD d.logical 0
    u.setGauge n d.gauge { u.gauge n d.gauge with mask := d.mask }) s2
  let s4 := (((s3.setPolders q j).setObj (0x5010 + q) 5 0 step).setObj (0x5010 + q) 6 0 0).setObj (0x5010 + q) 0xC 0 t.hdr.jobId
  let s5 := s4.each [0, 1, 2] (fun u k => u.setObj (0x6030 + q) k 0 0)
  (s5.each (map.filter s5.scrubFailed) (fun u n => u.closeTile n 0)).startRemaps q

/-- The job measurement of a load or resume: from zero, extended with the 128-byte job header and then with each stage program image in polder-table order (R545). -/
def State.measureJob (s : State) (q raw : Nat) (images : List Nat) : State :=
  let ds := leBytes 128 raw :: images.map (fun at' => 
    let h := (s.readWin q at' 1).2.getD 0
    let k := 1 + fieldOf h 208 16 + fieldOf h 192 16
    leBytes (32 * k) ((s.readWin q at' k).2.getD 0))
  { s with sec := { s.sec with pms := Tbl.put s.sec.pms [] q (ds.foldl (fun m d => sha256 (m ++ d)) (List.replicate 32 0)) } }

/-- Refuse a load: object 5010+q:07 and the status of the check (R231). -/
def State.refuseLoad (s : State) (q : Nat) (f : LoadFault) : State × Nat :=
  (s.setObj (0x5010 + q) 7 0 (f.part * 65536 + f.index % 65536), f.status)

/-- The checks of R232 and what follows them. `plan` gives from the tables the map and the step, or a fault of R241; a resumption's number of tiles is held to the offered ones by its saved map. -/
def State.loadWith (s : State) (q : Nat) (resume : Bool)
    (plan : State → JobTable → State × (LoadFault ⊕ (List Nat × Nat))) (done : State → State) : State × Nat :=
  if !s.configured q ∨ s.windowLost q then s.refuseLoad q ⟨stRefused, 1, 0⟩
  else match s.readWin q (s.cfg q).jobTable 4 with
    | (s1, none) => s1.refuseLoad q ⟨stUncorrectable, 1, 0⟩
    | (s1, some raw) =>
      if fieldOf raw 0 8 ≠ 1 then s1.refuseLoad q ⟨stRefused, 1, 0⟩
      else if !s1.headerFieldsOk q (if resume then 1224 else (s1.offeredIn q).length) raw then s1.refuseLoad q ⟨stBadValue, 1, 0⟩
      else match s1.readTables q raw with
        | (s2, none) => s2.refuseLoad q ⟨stUncorrectable, 1, 0⟩
        | (s2, some t) => match plan s2 t with
          | (s3, .inl f) => s3.refuseLoad q f
          | (s3, .inr (map, step)) => match s3.tableFault q t map with
            | some f => s3.refuseLoad q f
            | none =>
              let images := t.polders.map (fun e => fieldOf e 64 64)
              match s3.imagesFault q images with
              | (s4, some f) => s4.refuseLoad q f
              | (s4, none) =>
                if !s4.routesOk q map then s4.refuseLoad q ⟨stRefused, 7, 0⟩
                else ((done ((s4.measureJob q raw images).runLoad q t map step)).finishLoad q, stOk)

/-- May a load or resume begin: the status that stops it, or none; no job runs in STARTUP or TEST (R8, R11, R234). -/
def State.loadGate (s : State) (q v : Nat) (l : JobLatch) : Option (State × Nat) :=
  let st := s.jobState q
  if v ≠ 1 then some (s, stBadValue)
  else if s.device.mode = .test ∨ s.device.mode = .startup then some (s, stNotReady)
  else if st = jsEnding then some ({ s with latches := Tbl.put s.latches none q (some l) }, stRestartPending)
  else if st ≠ jsNone ∧ st ≠ jsSaved then some (s, stBusy)
  else none

/-- The own rule of object 5010+q:01 (R232). DESIGN CHOICE (notes/assumptions/112.md): the replacements that wait enter OFFERED before the load's checks, whether it is then refused or not, and at a resume too (R22). -/
def ruleJobLoad (q v : Nat) (s : State) : State × Nat :=
  match s.loadGate q v .load with
  | some r => r
  | none => s.admitReplacements.loadWith q false
      (fun t x => (t, .inr (x.placed.map (fun e => (placedOf e).physical), x.hdr.firstStep)))
      (fun t => t.each [0, 1, 2, 3] (fun u k => u.setObj (0x5040 + q) k 0 0))

/-- What a resumption takes from the save area, or the condition that refuses it (R240, R241). -/
def State.savePlan (s : State) (q : Nat) (t : JobTable) : State × (LoadFault ⊕ (List Nat × Nat)) :=
  let n := t.hdr.tiles
  match s.readWin q t.hdr.saveAt (1 + (2 * n + 31) / 32) with
  | (s1, none) => (s1, .inl ⟨stUncorrectable, 1, 0⟩)
  | (s1, some v) =>
    let step := fieldOf v 0 64
    if fieldOf v 192 64 ≠ 2 ^ 64 - 1 - step ∨ fieldOf v 64 16 ≠ t.hdr.jobId ∨ fieldOf v 80 16 ≠ n then (s1, .inl ⟨stBadValue, 1, 0⟩)
    else
      let map := entriesOf (v / 2 ^ 256) 16 n
      match (s1.mapFault q map).or (s1.heldFault q t stBusy) with
      | some f => (s1, .inl f)
      | none => (s1, .inr (map, step))

/-- Restore the saved gauges by logical tile (R213, R241). -/
def State.restoreSaved (s : State) (q : Nat) : State :=
  match s.job q with
  | none => s
  | some j =>
    let base := j.hdr.saveAt + 32 + (2 * j.map.length + 31) / 32 * 32
    j.map.zipIdx.foldl (fun t e =>
      let rows := (List.range 16).map (fun r => (t.winRead q (base + 512 * e.2) r).2.toNat)
      t.rewriteGauges e.1 (fun g u => { u with value := fieldOf (rows.getD (g / 8) 0) (32 * (g % 8)) 32 })) s

/-- A resumed job goes on with the ticks of the saved one, which never ceased (R244). -/
def State.carryTicks (s : State) (q : Nat) (old : Option Job) : State :=
  match old with
  | some o => if o.cadence then s.modJob q (fun j => if j.cadence then
      { j with phase := o.phase, tickBase := o.tickBase, tick := o.tick, period := o.period } else j) else s
  | none => s

/-- The own rule of object 5010+q:04 (R241). -/
def ruleJobResume (q v : Nat) (s : State) : State × Nat :=
  match s.loadGate q v .resume with
  | some r => r
  | none => s.admitReplacements.loadWith q true (fun t x => t.savePlan q x) (fun t => (t.restoreSaved q).carryTicks q (s.job q))

/-- JOB_LOAD: loads the job whose header is at object 5000+q:06. -/
def execJobLoad (sess q : Nat) (s : State) : Out := s.commandOut sess (0x5010 + q) 1 (ruleJobLoad q 1)

/-- JOB_RESUME: resumes the job of the save area. -/
def execJobResume (sess q : Nat) (s : State) : Out := s.commandOut sess (0x5010 + q) 4 (ruleJobResume q 1)

/-! ### Ending and pre-empting (R233, R234) -/

/-- End a job at once (R233, R234). -/
def State.endNow (s : State) (q : Nat) : State := (s.settle q).endJob q true

/-- The own rule of object 5010+q:02 (R233, R234). -/
def ruleJobEnd (q v : Nat) (s : State) : State × Nat :=
  let st := s.jobState q
  if v > 1 then (s, stBadValue)
  else if st = jsNone then (s, stNotReady)
  else if st = jsEnding then ({ s with latches := Tbl.put s.latches none q none }, stOk)
  else if v = 1 ∨ st = jsSaved ∨ st = jsHalted then (s.endNow q, stOk)
  else ({ s with latches := Tbl.put s.latches none q (some .finish) }, stRestartPending)

/-- The own rule of object 5010+q:03 (R234). NOT_READY while ENDING or HALTED, when no boundary follows: DESIGN CHOICE. -/
def ruleJobPreempt (q v : Nat) (s : State) : State × Nat :=
  let st := s.jobState q
  if v ≠ 1 then (s, stBadValue)
  else if st = jsNone ∨ st = jsSaved ∨ st = jsEnding ∨ st = jsHalted then (s, stNotReady)
  else ({ s with latches := Tbl.put s.latches none q (some .preempt) }, stRestartPending)

/-- JOB_END_AT_BOUNDARY: the job ends at its next boundary. -/
def execJobEndAtBoundary (sess q : Nat) (s : State) : Out := s.commandOut sess (0x5010 + q) 2 (ruleJobEnd q 0)

/-- JOB_END_AT_ONCE: the job's queues stop and its tiles are scrubbed. -/
def execJobEndAtOnce (sess q : Nat) (s : State) : Out := s.commandOut sess (0x5010 + q) 2 (ruleJobEnd q 1)

/-- JOB_PREEMPT: the job is pre-empted at its next boundary. -/
def execJobPreempt (sess q : Nat) (s : State) : Out := s.commandOut sess (0x5010 + q) 3 (ruleJobPreempt q 1)

/-- Scrub one tile of an ENDING job: rows that fail the read-back are spared, or the tile closes; else it is OFFERED (R97, R98, R233, R502). -/
def State.scrubTile (s : State) (n : Nat) (bad : List (Nat × Nat)) : State :=
  ((s.releaseTile n).readBack n bad).passScrub n tsOffered

/-- JOB_SCRUB_COMPLETE: every tile of an ENDING job is scrubbed; the job is NONE, and a latched load or resume runs. `badRows` names the rows that failed their read-back by tile, bank and row. -/
def execJobScrubComplete (q : Nat) (badRows : List (Nat × Nat × Nat)) (s : State) : Out :=
  .next (match s.job q with
    | none => s
    | some j =>
      if s.jobState q ≠ jsEnding then s
      else
        let s1 := s.each j.scrubLeft (fun t n => t.scrubTile n ((badRows.filter (fun r => r.1 == n)).map (·.2)))
        let s2 := ((s1.freePolders q).setObj (0x5010 + q) 0xC 0 0).toJobState q jsNone
        let s3 := s2.setJob q none
        match Tbl.get s3.latches none q with
        | some .load =>
          let r := ruleJobLoad q 1 { s3 with latches := Tbl.put s3.latches none q none }
          r.1.setObj (0x5010 + q) 1 0 r.2
        | some .resume =>
          let r := ruleJobResume q 1 { s3 with latches := Tbl.put s3.latches none q none }
          r.1.setObj (0x5010 + q) 4 0 r.2
        | _ => { s3 with latches := Tbl.put s3.latches none q none })

/-- PROGRAM_FAULT_END: within 500 µs of the report of a queue that halted at a failed check, the job sequencer ends the job (R125, R233). -/
def execProgramFaultEnd (q : Nat) (s : State) : Out :=
  .next (if ((s.job q).elim [] (·.map)).any (fun n => [0, 1, 2, 3].any (fun k => s.qState n k == qsHaltedFault))
      ∧ s.jobState q ≠ jsEnding then s.endNow q else s)

/-- The own rule of object 5040+q:04 (R298). -/
def ruleOutsideDeclare (q v : Nat) (s : State) : State × Nat :=
  if v ≠ 1 then (s, stBadValue)
  else if (s.job q).isNone then (s, stNotReady)
  else (s.outside q 3, stOk)

/-- OUTSIDE_DECLARE: the serving firmware declares a write that places the job outside R289. -/
def execOutsideDeclare (sess q : Nat) (s : State) : Out := s.commandOut sess (0x5040 + q) 4 (ruleOutsideDeclare q 1)

end Sys2Proof.Machine
end

