-- ==== Sys2Proof/Machine/Ucie.lean ====
section
/-! DEFINITION. The UCIe modules: the requests of the compute die to DDR5, their tags and credits, the write buffers at the reeve die (15_reeve_die_and_service.md R359-R363). -/

namespace Sys2Proof.Machine

/-- A UCIe module. -/
def State.ucie (s : State) (m : Nat) : Ucie := Tbl.get s.ucies {} m

/-- Change a UCIe module. -/
def State.modUcie (s : State) (m : Nat) (f : Ucie → Ucie) : State := { s with ucies := Tbl.put s.ucies {} m (f (s.ucie m)) }

/-- The module that carries a tile's DDR5 requests: the one at the nearest usable UCIe port, 0 with none (R28, R313). -/
def State.moduleFor (s : State) (pos : Nat) : Nat :=
  ((List.range 8).find? (fun m => s.obj (0x3210 + m) 0 != 3 && (s.ucieEntry pos).isSome && s.entryPos (uciePos m) true == s.ucieEntry pos)).getD 0

/-- Return credits of one class, 0 REQ, 1 RSP, 2 CTRL (R361, R362). -/
def State.giveCredit (s : State) (m : Nat) (up : Bool) (cls n : Nat) : State :=
  s.dtlOut m up { dtype := 0x0E, arg := (if cls = 0 then n else 0) + (if cls = 1 then n * 65536 else 0), addr := if cls = 2 then n else 0 }

/-- The cells of the response a request waits for (R362). -/
def DtlReq.reply (r : DtlReq) : Nat := if r.merge.isSome then r.pkt.rows + 1 else 1

/-- The message of a request: DDR5 address, stride, rows or data (R360, R361). -/
def State.reqMsg (s : State) (r : DtlReq) (tag : Nat) : DtlMsg :=
  { dtype := if r.merge.isSome then 0x01 else 0x02, addr := (s.memPlace r.pkt.partition 2 (farOffset r.pkt.farAddr.toNat)).2,
    stride := r.pkt.stride, arg := if r.merge.isSome then r.pkt.rows else 0, job := r.pkt.job, dtag := tag,
    partition := r.pkt.partition, cells := if r.merge.isSome then [] else r.pkt.data }

/-- May a request be sent: the module up, credits, room for its response, a tag (R362)? -/
def State.mayAsk (s : State) (m : Nat) (r : DtlReq) : Bool :=
  let u := s.ucie m
  s.obj (0x3210 + m) 0 == 2 && decide ((DtlMsg.size (s.reqMsg r 0)) ≤ u.req) && decide ((u.out.map DtlReq.reply).sum + r.reply ≤ 4096) && decide (u.out.length < 4096)

/-- The next tag that no outstanding request uses. -/
def Ucie.freeTag (u : Ucie) : Nat :=
  ((List.range 4096).map (fun i => (u.nextTag + i) % 4096)).find? (fun t => !u.out.any (fun r => r.dtag == t)) |>.getD 0

/-- Send a request. -/
def State.launchReq (s : State) (m : Nat) (r : DtlReq) : State :=
  let tag := (s.ucie m).freeTag
  let d := s.reqMsg r tag
  (s.modUcie m (fun u => { u with req := u.req - DtlMsg.size d, out := u.out ++ [{ r with dtag := tag }], nextTag := (tag + 1) % 4096 })).dtlOut m false d

/-- Count the time in which a request has waited for credit at a module, in object 3210+m:06 (R362). -/
def State.countStall (s : State) (m : Nat) : State :=
  match (s.ucie m).stalled with
  | none => s
  | some t =>
    let ns := (s.elapsed - t) / 4
    (s.count (0x3210 + m) 6 0 64 ns).modUcie m (fun u => { u with stalled := some (t + nsTide ns) })

/-- From now on a request waits for credit at a module, or none does. -/
def Ucie.noted (u : Ucie) (tide : Nat) : Ucie := { u with stalled := if u.waiting.isEmpty then none else u.stalled.or (some tide) }

/-- Send a request, or let it wait for credit behind the others (R362). -/
def State.askDtl (s : State) (m : Nat) (r : DtlReq) : State :=
  if (s.ucie m).waiting.isEmpty && s.mayAsk m r then s.launchReq m r
  else s.modUcie m (fun u => { u with waiting := u.waiting ++ [r] }.noted s.elapsed)

/-- Send the requests that wait, in order, as long as they fit. -/
def State.sendWaiting : Nat → State → Nat → State
  | 0, s, _ => s
  | fuel + 1, s, m =>
    match (s.ucie m).waiting with
    | [] => s
    | r :: rest =>
      if s.mayAsk m r then State.sendWaiting fuel ((s.modUcie m (fun u => { u with waiting := rest })).launchReq m r) m else s

/-- Send what waits at a module. -/
def State.sendAllWaiting (s : State) (m : Nat) : State :=
  if (s.ucie m).waiting.isEmpty then s
  else (State.sendWaiting (s.ucie m).waiting.length (s.countStall m) m).modUcie m (fun u => u.noted s.elapsed)

/-- A request is answered: its tag is free (R362). -/
def State.freeReq (s : State) (m tag : Nat) : State :=
  (s.modUcie m (fun u => { u with out := u.out.filter (fun r => r.dtag != tag) })).sendAllWaiting m

/-- Forget the requests that carry a merge of a channel. -/
def State.dropMergeReq (s : State) (c id : Nat) : State :=
  { s with ucies := s.ucies.map (fun e => (e.1, { e.2 with
      out := e.2.out.filter (fun r => !(r.chan == c && r.merge == some id)),
      waiting := e.2.waiting.filter (fun r => !(r.chan == c && r.merge == some id)) })) }

/-- Buffer a write of a DTL message at a server and acknowledge it with the message type given; `up` towards the compute die (R308, R313, R363). -/
def State.bufferDtl (s : State) (srv : Server) (m : Nat) (up : Bool) (ack : Nat) (d : DtlMsg) : State :=
  let rows := dtlRows d d.cells.length
  let s1 := s.closeOverlap srv rows
  let s2 := (s1.modServer srv (fun x => { x with wbuf := x.wbuf ++ rows.zip (d.cells.map decodedRow) })).dropHeld srv rows
  s2.dtlOut m up { dtype := ack, dtag := d.dtag, job := d.job, partition := d.partition }

/-- Rows a write buffer holds (R308, R313). -/
def bufferRows : Server → Nat
  | .stack _ => 8192
  | .channel _ => 4096

/-- Which way, and with which type, a server acknowledges a DTL write: a channel with MEM_ACK, a stack with HBM_ACK (R361). -/
def dtlAck : Server → Bool × Nat
  | .stack _ => (false, 0x08)
  | .channel _ => (true, 0x04)

/-- Admit the DTL writes that wait at a server, in arrival order, while its buffer has room (R308). -/
def State.admitDtl : Nat → State → Server → State
  | 0, s, _ => s
  | fuel + 1, s, srv =>
    match (s.server srv).dtl with
    | [] => s
    | (m, d) :: rest =>
      if (s.server srv).wbuf.length + d.cells.length > bufferRows srv then s
      else State.admitDtl fuel ((s.modServer srv (fun x => { x with dtl := rest })).bufferDtl srv m (dtlAck srv).1 (dtlAck srv).2 d) srv

/-- A DTL write enters the buffer of its server, or waits while the buffer is full (R308). -/
def State.takeDtl (s : State) (srv : Server) (m : Nat) (d : DtlMsg) : State :=
  if (s.server srv).wbuf.length + d.cells.length > bufferRows srv ∨ !(s.server srv).dtl.isEmpty then
    s.modServer srv (fun x => { x with dtl := x.dtl ++ [(m, d)] })
  else s.bufferDtl srv m (dtlAck srv).1 (dtlAck srv).2 d

/-! ### Receiving (R359, R362) -/

/-- The credit class of a message type: 0 REQ, 1 RSP, 2 CTRL; none for CREDIT (R361). -/
def dtlClass (dtype : Nat) : Option Nat :=
  if [0x01, 0x02, 0x05, 0x06, 0x09].contains dtype then some 0
  else if [0x03, 0x04, 0x07, 0x08, 0x0A].contains dtype then some 1
  else if [0x0B, 0x0C, 0x0D, 0x0F].contains dtype then some 2
  else none

/-- The reeve die spends its credits on a message to the compute die, or the compute die its RSP and CTRL credits; requests of the compute die were paid when sent (R362). -/
def State.spend (s : State) (m : Nat) (up : Bool) (d : DtlMsg) : State :=
  let n := DtlMsg.size d
  match dtlClass d.dtype, up with
  | some 0, true => s.modUcie m (fun u => { u with rReq := u.rReq - n })
  | some 1, true => s.modUcie m (fun u => { u with rRsp := u.rRsp - n })
  | some 2, true => s.modUcie m (fun u => { u with rCtrl := u.rCtrl - n })
  | some 1, false => s.modUcie m (fun u => { u with rsp := u.rsp - n })
  | some 2, false => s.modUcie m (fun u => { u with ctrl := u.ctrl - n })
  | _, _ => s

/-- A message is received: its cells counted at the compute die, its credits spent by the sender and returned by the receiver (R359, R362). -/
def State.dtlIn (s : State) (m : Nat) (up : Bool) (d : DtlMsg) : State :=
  let s1 := if up then s.count (0x3210 + m) 5 0 64 (DtlMsg.size d) else s
  match dtlClass d.dtype with
  | some c => (s1.spend m up d).giveCredit m (!up) c (DtlMsg.size d)
  | none => s1

/-! ### The header cell (R359-R361) -/

/-- The 256 bits of a message's header cell (R360). -/
def dtlHeader (d : DtlMsg) : Nat :=
  d.dtype + 2 ^ 8 * (d.reserved % 2 ^ 44) + 2 ^ 52 * d.partition + 2 ^ 56 * d.status + 2 ^ 64 * d.dtag + 2 ^ 80 * d.job
    + 2 ^ 96 * d.cells.length + 2 ^ 112 * (d.reserved / 2 ^ 44) + 2 ^ 128 * d.arg + 2 ^ 160 * d.stride + 2 ^ 192 * d.addr

/-- The message of a header cell and the cells that follow it in the stream (R359, R360). -/
def dtlMessage (h : Nat) (rest : List Codeword) : DtlMsg :=
  { dtype := fieldOf h 0 8, reserved := fieldOf h 8 44 + 2 ^ 44 * fieldOf h 112 16, partition := fieldOf h 52 4, status := fieldOf h 56 8,
    dtag := fieldOf h 64 16, job := fieldOf h 80 16, arg := fieldOf h 128 32, stride := fieldOf h 160 32, addr := fieldOf h 192 64,
    cells := rest.take (fieldOf h 96 16) }

/-- The cells of a message: its header cell, then its data cells (R359). -/
def dtlCells (d : DtlMsg) : List Codeword := d.head.getD (encodeRow (BitVec.ofNat 256 (dtlHeader d))) :: d.cells

/-- Has a message's header cell become uncorrectable on the way (R359)? -/
def headerLost (d : DtlMsg) : Bool := d.head.elim false (fun w => decodeWord w == .bad)

/-- The cells that hold `n` bytes (R361). -/
def cellsOf (n : Nat) : Nat := (n + 31) / 32

/-- An entry of REMAPPED: unused, or with its reserved bits zero (R518). -/
def remapEntryOk (v : Nat) : Bool := v == 2 ^ 64 - 1 || v % 2 ^ 16 == 0

/-- Are a message's reserved bits zero, and its arg and its number of data cells those of its type (R5, R360, R361, R365, R518)? -/
def dtlShape (d : DtlMsg) : Bool :=
  let k := d.cells.length
  let t := d.dtype
  let len := fieldOf d.arg 0 16
  let aligned := d.addr % 32 == 0 && d.stride % 32 == 0
  d.reserved == 0 &&
    (if t = 0x01 ∨ t = 0x05 then decide (1 ≤ d.arg) && decide (d.arg ≤ 8) && k == 0 && aligned
     else if t = 0x02 ∨ t = 0x06 then d.arg == 0 && decide (1 ≤ k) && decide (k ≤ 8) && aligned
     else if t = 0x03 ∨ t = 0x07 then d.arg == 0 && decide (k ≤ 8) && (d.status == stOk) == decide (1 ≤ k)
     else if t = 0x04 ∨ t = 0x08 then d.arg == 0 && k == 0
     else if t = 0x09 then decide (d.arg < 2 ^ 8)
     else if t = 0x0A then d.arg == 0
     else if t = 0x0B then decide (k ≤ 4) &&
       (if d.arg % 256 = 4 then decide (d.arg < 2 ^ 24) else if d.arg % 256 = 1 then d.arg == 1 else decide (d.arg % 256 ≤ 4) && decide (2 ≤ d.arg % 256) && decide (d.arg < 2 ^ 16))
     else if t = 0x0C then decide (d.arg < 2 ^ 20) && decide (1 ≤ k) && decide (k ≤ 48) && k == cellsOf len
     else if t = 0x0D then decide (12 * 2 ^ 16 ≤ d.arg) && decide (d.arg < 2 ^ 20) && decide (64 ≤ len) && decide (len ≤ 9216) && k == cellsOf len
     else if t = 0x0E then decide (d.addr < 2 ^ 16) && k == 0
     else if t = 0x0F then decide (1 ≤ d.arg) && decide (d.arg ≤ 5) &&
       (if d.arg = 5 then k == 1 && (List.range 4).all (fun i => remapEntryOk (fieldOf (decodedRow (d.cells.headD 0)).toNat (64 * i) 64)) else k == 0)
     else false)

/-- The type of the response to a request (R361). -/
def responseType (t : Nat) : Option Nat :=
  if t = 0x01 then some 0x03 else if t = 0x02 then some 0x04 else if t = 0x05 then some 0x07 else if t = 0x06 then some 0x08
  else if t = 0x09 then some 0x0A else none

/-- A message arrives, towards the compute die where `up`: one whose header is uncorrectable is discarded, counted and reported, and its credits stay spent (DESIGN CHOICE, notes/assumptions/125.md); a request of the wrong shape is answered BAD_VALUE, any other such message has no effect; else `f` takes it (R5, R359, R362). -/
def State.onDtl (s : State) (m : Nat) (up : Bool) (d : DtlMsg) (f : State → State) : State :=
  if headerLost d then
    ((s.spend m up d).count (0x3210 + m) 3 0 32).reportFor none clLink (susUcie m) (susUcie m) stUncorrectable 0
  else
    let s0 := s.dtlIn m up d
    if dtlShape d then f s0
    else match responseType d.dtype with
      | some t => s0.dtlOut m (!up) { dtype := t, dtag := d.dtag, job := d.job, partition := d.partition, status := stBadValue }
      | none => s0

end Sys2Proof.Machine
end

