-- ==== Sys2Proof/Machine/Memory.lean ====
section
/-! DEFINITION. HBM and DDR5: codewords and bursts, the controllers, merges, write buffers, prefetch holds, corrections, patrol, retirement (13, 07 R182, 10 R258). -/

namespace Sys2Proof.Machine

/-! ### Requests (R182, R258, R308, R313) -/

/-- The position at which a server answers: the port a request came to. -/
def State.serverPos (s : State) (p : Packet) : Nat :=
  match s.memPlace p.partition (farForm p.farAddr.toNat) (farOffset p.farAddr.toNat) with
  | (.stack _, a) => (s.entryPos (hbmPortOf a) false).getD (hbmPortOf a)
  | (.channel _, _) => (s.ucieEntry (srcPos p)).getD (uciePos 0)

/-- The port at which a request to a server merges: its UCIe module for DDR5, the controller's own for HBM (R182, R313). -/
def State.mergePort (s : State) (srv : Server) (p : Packet) : Nat :=
  match srv with
  | .stack _ => 0
  | .channel _ => s.moduleFor (srcPos p)

/-- Does a merge agree with a request in the fields of R182? -/
def MemMerge.agrees (m : MemMerge) (p : Packet) : Bool :=
  m.partition == p.partition && m.job == p.job && m.addr == p.farAddr.toNat && m.rows == p.rows && m.stride == p.stride

/-- May a request join a merge at its port (R182)? -/
def State.mayJoin (s : State) (srv : Server) (m : MemMerge) (p : Packet) : Bool :=
  m.open' && m.port == s.mergePort srv p && m.agrees p && decide (s.elapsed ≤ m.opened + 192) && decide (m.reqs.length < 32)
    && m.reqs.all (fun r => srcPos r != srcPos p)

/-- Turn rows read into an answer: uncorrectable where any row is (R316). -/
def wholeRows (rows : List (Option Row)) : Option (List Codeword) :=
  if rows.any (·.isNone) then none else some (rows.filterMap (fun r => r.map encodeRow))

/-- The merge as `State.answerMerge` takes it. -/
def MemMerge.asMerge (m : MemMerge) : Merge :=
  { id := m.id, addr := m.addr, stride := m.stride, rows := m.rows, reqs := m.reqs, opened := m.opened }

/-- Does a request need DDR5 where none is installed (R3)? -/
def State.noDdr (s : State) (p : Packet) : Bool := farForm p.farAddr.toNat == 2 && s.ddrUsed.isEmpty

/-- A MEM_READ or MEM_WRITE arrives at its server's port: BAD_VALUE where it needs a DDR5 that is absent (R3, R5, R173). -/
def State.onMemory (s : State) (p : Packet) (f : State → State) : State :=
  s.onPacket (s.serverPos p) p (fun s => if s.noDdr p then s.sendReply (s.serverPos p) p stBadValue else f s)

/-- MEM_READ: joins an open merge, is served from the hold buffer, or opens a merge and issues the memory read, for DDR5 as a message on the nearest usable UCIe module; a unit that does not answer gives UNCORRECTABLE (R182, R258, R308, R320). -/
def execMemRead (p : Packet) (s : State) : Out :=
  .next (s.onMemory p fun s =>
    let srv := (s.memPlace p.partition (farForm p.farAddr.toNat) (farOffset p.farAddr.toNat)).1
    let m := s.server srv
    let pos := s.serverPos p
    if m.dead then s.sendReply pos p stUncorrectable
    else match m.merges.findIdx? (fun x => s.mayJoin srv x p) with
      | some i =>
        (((s.modServer srv (fun x => { x with merges := x.merges.modify i (fun y => { y with reqs := y.reqs ++ [p] }) })).count
          (serverIx srv) 7 0 64)).syncRequests srv
      | none => match m.hold.find? (fun h => h.partition == p.partition && h.job == p.job && h.addr == p.farAddr.toNat
            && h.rows == p.rows && h.stride == p.stride) with
        | some h => (s.emit (.packet pos true (replyTo pos p .data stOk (h.data.map encodeRow)))).count (serverIx srv) 8 0 64
        | none =>
          let e : MemMerge := { id := m.nextId, partition := p.partition, job := p.job, addr := p.farAddr.toNat, rows := p.rows,
                                stride := p.stride, reqs := [p], opened := s.elapsed, port := s.mergePort srv p }
          let s1 := s.modServer srv (fun x => { x with merges := x.merges ++ [e], nextId := x.nextId + 1 })
          match srv with
          | .stack _ => (s1.emit (.memRead srv m.nextId)).syncRequests srv
          | .channel c => s1.askDtl e.port { dtag := 0, pkt := p, chan := c, merge := some m.nextId })

/-- Take a MEM_WRITE's rows into the write buffer and acknowledge it (R258, R308). -/
def State.bufferWrite (s : State) (srv : Server) (p : Packet) (data : List Row) : State :=
  let rows := s.requestRowsAt p.partition p.farAddr.toNat p.rows p.stride
  let s1 := s.closeOverlap srv rows
  let s2 := (s1.modServer srv (fun m => { m with wbuf := m.wbuf ++ rows.zip data })).dropHeld srv rows
  s2.sendReply (s.serverPos p) p stOk

/-- Decode the payload of a write at the port of a block (R173): a failure raises STEP_FAULT in the requester's partition. -/
def State.landAt (s : State) (pos : Nat) (p : Packet) : State × Option (List Row) :=
  let ds := p.data.map decodeWord
  let bad := ds.countP (· == .bad)
  let fixed := ds.countP (fun d => match d with
    | .corrected _ => true
    | _ => false)
  let s1 := (s.count (tileIx pos) 0x53 0 32 fixed).count (tileIx pos) 0x54 0 32 bad
  if bad = 0 then (s1, some (p.data.map decodedRow))
  else
    ((s1.reportFor (some p.partition) clTileData (susTile (srcPos p)) (susTile pos) stUncorrectable 0).stepFault p.partition
      clTileData (some (srcPos p)), none)

/-- Decode the payload of a write at its server's port (R173). -/
def State.landWrite (s : State) (p : Packet) : State × Option (List Row) := s.landAt (s.serverPos p) p

/-- MEM_WRITE: into a stack's write buffer and acknowledged, or waiting while the buffer is full; for DDR5 it becomes a message on the nearest usable UCIe module, and the acknowledgement follows MEM_ACK (R361-R363). -/
def execMemWrite (p : Packet) (s : State) : Out :=
  .next (s.onMemory p fun s =>
    let srv := (s.memPlace p.partition (farForm p.farAddr.toNat) (farOffset p.farAddr.toNat)).1
    let m := s.server srv
    if m.dead then s.sendReply (s.serverPos p) p stUncorrectable
    else match srv with
    | .channel c => s.askDtl (s.moduleFor (srcPos p)) { dtag := 0, pkt := p, chan := c }
    | .stack _ =>
    if m.wbuf.length + p.rows > bufferRows srv ∨ !m.waiting.isEmpty then
      (s.modServer srv (fun x => { x with waiting := x.waiting ++ [p] })).syncRequests srv
    else match s.landWrite p with
      | (s1, none) => s1
      | (s1, some data) => s1.bufferWrite srv p data)

/-- The job of a demand read that failed: a replay of the same step that faults again on the same row halts it (R316). A fault met while the step is being abandoned is none of a replay's. -/
def State.memoryFault (s : State) (q row : Nat) : State :=
  match s.job q with
  | none => s
  | some j =>
    if s.jobState q ≠ jsStepping then s
    else if j.memFault.any (fun f => f.1 == row && f.2.1 == s.step' q && f.2.2 != s.obj (0x6030 + q) 2) then s.haltJob q 0x04
    else s.modJob q (fun j => { j with memFault := j.memFault ++ [(row, s.step' q, s.obj (0x6030 + q) 2)] })

/-- The first row of a list whose read failed. -/
def firstFailed (rows : List Nat) (data : List (Option Row)) : Option Nat :=
  ((rows.zip data).find? (fun x => x.2.isNone)).map (·.1)

/-- MEMORY_READ_COMPLETE: a memory read returns; its merge is answered, or, for a hint that no write has overlapped, its rows are held (R258, R308). -/
def execMemoryReadComplete (srv : Server) (id : Nat) (s : State) : Out :=
  .next (match (s.server srv).merges.find? (fun m => m.id == id) with
    | none => s
    | some m =>
      let rows := s.requestRowsAt m.partition m.addr m.rows m.stride
      let x := match m.data with
        | some d => (s, d)
        | none => s.readMemRows srv rows (some m.partition)
      let s0 := match srv with
        | .stack _ => x.1
        | .channel c => x.1.dropMergeReq c id
      let s1 := (s0.modServer srv (fun y => { y with merges := y.merges.filter (fun z => z.id ≠ id) })).syncRequests srv
      let s2 := if m.hint && m.data.isNone then
          match wholeRows x.2 with
          | some _ => s1.modServer srv (fun y => { y with hold := y.hold ++ [{
              partition := m.partition, job := m.job, addr := m.addr, rows := m.rows, stride := m.stride,
              data := x.2.filterMap (fun r => r), since := s.elapsed }] })
          | none => s1
        else s1
      match m.reqs with
      | [] => s2
      | p :: _ =>
        let s3 := s2.answerMerge (s.serverPos p) m.asMerge (wholeRows x.2)
        match firstFailed rows x.2 with
        | some r => s3.memoryFault m.partition r
        | none => s3)

/-- Admit the writes that wait, in arrival order, while the buffer has room (R308). -/
def State.admitWaiting : Nat → State → Server → State
  | 0, s, _ => s
  | fuel + 1, s, srv =>
    match (s.server srv).waiting with
    | [] => s
    | p :: rest =>
      if (s.server srv).wbuf.length + p.rows > bufferRows srv then s
      else
        let s1 := s.modServer srv (fun m => { m with waiting := rest })
        match s1.landWrite p with
        | (s2, none) => State.admitWaiting fuel s2 srv
        | (s2, some data) => State.admitWaiting fuel (s2.bufferWrite srv p data) srv

/-- Write a server's buffered rows to its memory, in arrival order. -/
def State.flushServer (s : State) (srv : Server) : State :=
  (s.each (s.server srv).wbuf (fun t w => t.putRow srv w.1 w.2)).modServer srv (fun m => { m with wbuf := [] })

/-- WRITE_BUFFER_FLUSH: buffered rows reach the memory, and waiting writes enter. -/
def execWriteBufferFlush (srv : Server) (s : State) : Out :=
  .next (
    let s1 := s.flushServer srv
    let s2 := State.admitWaiting (s1.server srv).waiting.length s1 srv
    (State.admitDtl (s2.server srv).dtl.length s2 srv).syncRequests srv)

/-! ### Patrol, on-die ECC, holds, failures (R258, R303, R315, R320) -/

/-- The row at a server's patrol position: an HBM stack's rows in address order within its region, a channel's bursts within its DIMM (R304, R310, R315). DEDUCED: the order of the patrol. -/
def State.patrolRow (s : State) (srv : Server) (i : Nat) : Nat :=
  match srv with
  | .stack h => h / 2 * (regionBytes / 32) + i
  | .channel c =>
    let us := s.ddrUsed
    let k := us.findIdx (· == c)
    (i / 8 * us.length + k) * 8 + i % 8

/-- The rows of one pass (R315). -/
def State.patrolEnd (s : State) (srv : Server) : Nat :=
  match srv with
  | .stack _ => regionBytes / 32
  | .channel _ => s.obj 0x3100 3 / max 1 s.ddrUsed.length / 32

/-- The pass time that a server's next pass takes, in hours (R315). -/
def State.passHours (s : State) (srv : Server) : Nat :=
  match srv with
  | .stack _ => s.obj 0x3000 0
  | .channel _ => s.obj 0x3100 4

/-- A pass that has not begun begins now, with the pass time its object holds (R315). -/
def State.beginPatrol (s : State) (srv : Server) : State :=
  if (s.server srv).passFrom.isSome then s
  else s.modServer srv (fun m => { m with passFrom := some s.elapsed, passHours := s.passHours srv })

/-- Is the read at a server's patrol position due: the pass's reads are spread over its time (R315)? -/
def State.patrolDue (s : State) (srv : Server) : Bool :=
  let m := s.server srv
  decide (m.passFrom.getD s.elapsed + 3600 * secTide * m.passHours * m.patrol / s.patrolEnd srv ≤ s.elapsed)

/-- PATROL_READ: the next codeword of the pass is read once it is due; a position that another stack of the field serves is passed over. -/
def execPatrolRead (srv : Server) (s0 : State) : Out :=
  .next (
    let s := s0.beginPatrol srv
    if !s.patrolDue srv then s else
    let i := (s.server srv).patrol
    let row := s.patrolRow srv i
    let mine := match srv with
      | .stack h => hbmStack (32 * row) == h
      | .channel c => s.ddrUsed.contains c
    let s1 := if mine && !(s.server srv).dead then (s.readMem srv row none).1 else s
    let wrap := decide (i + 1 ≥ s.patrolEnd srv)
    let s2 := s1.modServer srv (fun m => { m with patrol := if wrap then 0 else i + 1, passFrom := if wrap then none else m.passFrom })
    match srv, wrap with
    | .stack h, true => s2.setObj (0x3010 + h) 0xA 0 s.tide
    | _, _ => s2)

/-- STACK_ECC_POLL: the corrections that a stack's on-die ECC reports are counted. -/
def execStackEccPoll (h count : Nat) (s : State) : Out :=
  .next (s.count (0x3010 + h) 4 0 64 count)

/-- HOLD_BUFFER_EXPIRY: rows held longer than prefetch_hold_us leave the hold buffer. -/
def execHoldBufferExpiry (h : Nat) (s : State) : Out :=
  .next (s.modServer (.stack h) (fun m => { m with
    hold := m.hold.filter (fun x => decide (s.elapsed < x.since + nsTide (1000 * s.obj 0x5200 4))) }))

/-- MEMORY_UNIT_NOT_ANSWERING: the unit's requests, those waiting and those to come, are answered UNCORRECTABLE until the next start (R320). -/
def execMemoryUnitNotAnswering (srv : Server) (s : State) : Out :=
  .next (
    let m := s.server srv
    if m.dead then s
    else
      let s1 := s.modServer srv (fun x => { x with dead := true, merges := [], waiting := [], dtl := [], hold := [] })
      let s2 := s1.setObj (serverIx srv) 0 0 (match srv with
        | .stack _ => 3
        | .channel _ => 4)
      let s3 := s2.reportFor none clMemoryUncorrectable (serverSus srv) (serverSus srv) stUncorrectable 0 (some (serverSus srv))
      let s4 := (m.merges.flatMap (·.reqs) ++ m.waiting).foldl (fun t p => t.sendReply (s.serverPos p) p stUncorrectable) s3
      let s5 := s4.each m.dtl (fun t x => t.dtlOut x.1 (dtlAck srv).1 { dtype := (dtlAck srv).2, dtag := x.2.dtag, status := stUncorrectable, job := x.2.job, partition := x.2.partition })
      match srv with
      | .stack _ => s5.syncRequests srv
      | .channel c => s5.each m.merges (fun t x => t.dropMergeReq c x.id))

end Sys2Proof.Machine
end

