-- ==== Sys2Proof/Machine/Experts.lean ====
section
/-! DEFINITION. The dispatchers: the expert table, tokens, reservations, landing slots, copies, prefetch hints (10_experts_and_run_ahead.md R245-R259, 14 R338, R342). -/

namespace Sys2Proof.Machine

/-! ### The expert table (R245-R247) -/

def xOffset (e : Nat) : Nat := fieldOf e 192 64
def xRows (e : Nat) : Nat := fieldOf e 176 16
def xValid (e : Nat) : Bool := bitOf e 127
def xDevice (e : Nat) : Nat := fieldOf e 112 8
def xPolder (e : Nat) : Nat := fieldOf e 104 8
def xIntake (e : Nat) : Nat := fieldOf e 88 16
def xHandle (e : Nat) : Nat := fieldOf e 82 6
def xGauge (e : Nat) : Nat := fieldOf e 75 7
def xSlotRows (e : Nat) : Nat := fieldOf e 64 8
def xSlots (e : Nat) : Nat := fieldOf e 54 10

/-- May a valid entry be applied (R247)? -/
def expertOk (e : Nat) : Bool :=
  fieldOf e 128 48 == 0 && fieldOf e 120 7 == 0 && fieldOf e 72 3 == 0 && fieldOf e 0 54 == 0
    && decide (2 ≤ xSlotRows e) && decide (1 ≤ xSlots e) && xOffset e % 32 == 0

/-- The own rule of object 5200:02 (R247). -/
def ruleExpertApply (v : Nat) (s : State) : State × Nat :=
  let es := s.objs 0x5200 1 4096
  let valid := es.filter xValid
  if v ≠ 1 then (s, stBadValue)
  else if partitionNumbers.any (fun q => s.jobState q != jsNone && s.jobState q != jsSaved) then (s, stBusy)
  else if !valid.all expertOk ∨ (valid.filter (fun e => s.isOwn (xDevice e))).length > 512 then (s, stBadValue)
  else (({ s with experts := (es.zipIdx.filter (fun (e : Nat × Nat) => e.1 != 0)).map (fun (e : Nat × Nat) => (e.2, e.1)) }).setObj 0x5200 0 0
    ((s.obj 0x5200 0 + 1) % 2 ^ 32), stOk)

/-- EXPERT_APPLY: checks and applies the expert table. -/
def execExpertApply (sess : Nat) (s : State) : Out := s.commandOut sess 0x5200 2 (ruleExpertApply 1)

/-- The applied entry of an expert (R245). -/
def State.expert (s : State) (e : Nat) : Nat := Tbl.get s.experts 0 e

/-- The partition that holds an expert's polder (R231, R251). -/
def State.expertPartition (s : State) (e : Nat) : Option Nat :=
  let p := xPolder (s.expert e)
  if s.obj (0x5100 + p) 0 = 1 then some (s.obj (0x5100 + p) 1) else none

/-! ### The dispatcher's tables -/

/-- Change the token of a number. -/
def State.modToken (s : State) (q id : Nat) (f : Token → Token) : State :=
  s.modDisp q (fun d => { d with tokens := d.tokens.map (fun t => if t.id = id then f t else t) })

/-- The token of a number. -/
def State.token (s : State) (q id : Nat) : Option Token := (s.disp q).tokens.find? (fun t => t.id == id)

/-- The token that holds a reservation identifier; a cancelled identifier is nobody's (R253). -/
def State.tokenOfRes (s : State) (q resId : Nat) : Option Token :=
  (s.disp q).tokens.find? (fun t => t.targets.any (fun x => x.resId == resId && x.st != .idle))

/-- Change the target of a reservation identifier. -/
def Token.modRes (t : Token) (resId : Nat) (f : Target → Target) : Token :=
  { t with targets := t.targets.map (fun x => if x.resId = resId ∧ x.st ≠ .idle then f x else x) }

/-- Staging rows in use, object 5210+q:09 (R250, R259). -/
def State.staged (s : State) (q : Nat) : Nat :=
  ((s.disp q).tokens.map (fun t => t.rows.length)).sum + ((s.disp q).parts.map (fun t => t.rows.length)).sum

/-- Staging rows of a dispatcher (R250). -/
abbrev stagingRows : Nat := 16384

/-! ### Messages (R342) -/

/-- The fields that RESERVE, GRANT, CANCEL and DSTATUS share. -/
def resBody (resId expert job part : Nat) : Nat := 2 ^ 192 * resId + 2 ^ 180 * expert + 2 ^ 164 * job + 2 ^ 160 * part

def mRes (m : CtrlMsg) : Nat := fieldOf m.body.toNat 192 32
def mExpert (m : CtrlMsg) : Nat := fieldOf m.body.toNat 180 12
def mJob (m : CtrlMsg) : Nat := fieldOf m.body.toNat 164 16
def mPart (m : CtrlMsg) : Nat := fieldOf m.body.toNat 160 4
def mRows (m : CtrlMsg) : Nat := fieldOf m.body.toNat 152 8
def mSlot (m : CtrlMsg) : Nat := fieldOf m.body.toNat 142 10
def mStatus (m : CtrlMsg) : Nat := fieldOf m.body.toNat 134 8

/-- Send a RESERVE for a target of a token under an identifier (R251, R252). -/
def State.sendReserve (s : State) (q : Nat) (t : Token) (expert resId : Nat) : State :=
  s.control (xDevice (s.expert expert)) 0x10 (resBody resId expert (s.jobId q) q + 2 ^ 152 * t.rows.length)

/-- Reserve a target of a token under a new identifier (R251-R253). -/
def State.ask (s : State) (q id expert : Nat) : State :=
  match s.token q id with
  | none => s
  | some t =>
    let r := (s.disp q).nextRes
    let s1 := (s.modDisp q (fun d => { d with nextRes := (r + 1) % 2 ^ 32 })).modToken q id (fun t =>
      { t with targets := t.targets.map (fun x => if x.expert = expert then { x with resId := r, st := .asked } else x) })
    s1.sendReserve q t expert r

/-- Send CANCEL for every reservation of a token, whether granted, queued or retrying; the identifiers are then nobody's (R253, R254). -/
def State.cancelAll (s : State) (q : Nat) (t : Token) : State :=
  let live := t.targets.filter (fun x => x.st == .asked || x.st == .retry || x.st == .granted)
  (s.each live (fun u x => u.control (xDevice (u.expert x.expert)) 0x12 (resBody x.resId x.expert (u.jobId q) q))).modToken q t.id
    (fun t => { t with targets := t.targets.map (fun x => if live.contains x then { x with st := .idle } else x) })

/-! ### Landing slots (R251, R256) -/

/-- The lowest-numbered free slot of an expert (R251). -/
def State.freeSlot (s : State) (q e : Nat) : Option Nat :=
  (List.range (xSlots (s.expert e))).find? (fun k => !(s.disp q).taken.any (fun t => t.expert == e && t.slot == k))

/-- May a GRANT be given now: a slot free, and slot_rows staging rows free (R251)? -/
def State.grantable (s : State) (q e : Nat) : Option Nat :=
  if s.staged q + xSlotRows (s.expert e) ≤ stagingRows then s.freeSlot q e else none

/-- Give a request a slot and send its GRANT (R251). -/
def State.giveSlot (s : State) (q : Nat) (r : Taken) (slot : Nat) : State :=
  (s.modDisp q (fun d => { d with taken := d.taken ++ [{ r with slot := slot, landed := false }] })).control r.device 0x11
    (resBody r.resId r.expert r.job r.part + 2 ^ 142 * slot)

/-- The oldest queued RESERVE of an expert receives a slot, if one is given (R251, R256). -/
def State.serveWith (s : State) (q e : Nat) (slot : Option Nat) : State :=
  match (s.disp q).queue.find? (fun r => r.expert == e), slot with
  | some r, some k => (s.modDisp q (fun d => { d with queue := d.queue.erase r })).giveSlot q r k
  | _, _ => s

/-- A slot of an expert has become free: the oldest queued RESERVE receives it (R251, R256). -/
def State.serveQueue (s : State) (q e : Nat) : State := s.serveWith q e (s.freeSlot q e)

/-- Staging rows have become free: the queued RESERVEs are granted in arrival order as far as slots and staging rows go (R251). -/
def State.serveStaged (s : State) (q : Nat) : State :=
  s.each ((s.disp q).queue.map (·.expert)) (fun t e => t.serveWith q e (t.grantable q e))

/-! ### Launching (R252, R253, R338) -/

/-- The header row of a copy as it lands (R249): the sender's fields kept, `k`, the source and the slot filled. -/
def landedHeader (h : Row) (k device logical slot : Nat) : Row :=
  let v := setField (setField (setField (setField h.toNat 56 4 k) 48 8 device) 32 16 logical) 22 10 slot
  BitVec.ofNat 256 v

/-- The WRITEs that carry a copy to another device (R338). -/
def State.copyPackets (s : State) (q : Nat) (rows : List Row) (device resId dst : Nat) : List Packet :=
  let src := (s.sequencerPos q).getD 0
  (List.range ((rows.length + 7) / 8)).map (fun i =>
    let part := (rows.drop (8 * i)).take 8
    { ptype := .write, rows := part.length, job := s.jobId q, partition := q, srcX := xOf src, srcY := yOf src,
      dstX := xOf dst, dstY := yOf dst, srcDevice := s.ownDevice, srcLogical := 0xFFFF, xferId := 8 * i,
      byteCount := if 8 * i + part.length = rows.length then 32 * rows.length else 0,
      farAddr := BitVec.ofNat 64 (2 ^ 54 * device + 0xFF00 * 2 ^ 38 + 0x3F * 2 ^ 32 + resId), data := part.map encodeRow })

/-- Launch the copy for a granted target (R252, R255): within the device to its target dispatcher, else as WRITEs through the ports of R337. DEDUCED: the sender's number, device and logical tile go with the copy's header; the copies of a dispatcher leave through the port of R337's rule. -/
def State.launch (s : State) (q : Nat) (t : Token) (x : Target) : State :=
  let device := xDevice (s.expert x.expert)
  let k := t.targets.findIdx (fun y => y.expert == x.expert)
  let rows := match t.rows with
    | [] => []
    | h :: r => landedHeader h k s.ownDevice t.logical 0 :: r
  let s1 := s.modToken q t.id (fun t => { t.modRes x.resId (fun y => { y with st := .launched }) with sentAt := some s.elapsed })
  if s.isOwn device then s1.emit (.copy device ((s.expertPartition x.expert).getD q) x.resId rows)
  else match s.portFor device 0 0 0xFFFF with
    | some p => s1.emits ((s.copyPackets q rows device x.resId (s.portPos p)).map (fun p => .packet ((s.sequencerPos q).getD 0) false p))
    | none => s1

/-- A copy is not delivered: counted and reported (R254). -/
def State.skipCopy (s : State) (q : Nat) (t : Token) (expert st : Nat) (fenced : Bool) : State :=
  let e := s.expert expert
  let unit := if s.isOwn (xDevice e) then
      (((s.expertPartition expert).bind (fun p => s.physicalOf p (xIntake e))).map susTile).getD (susDevice (xDevice e))
    else susDevice (xDevice e)
  (s.count (0x5210 + q) 5 0 32).reportFor (some q) clProgram (susTile t.pos) (susBlock 1) st expert
    (if fenced then some unit else none)

/-- Is every copy of a token confirmed or skipped (R255)? -/
def Token.finished (t : Token) : Bool := t.targets.all (fun x => x.st == .done || x.st == .skipped)

/-- A token whose every copy is confirmed or skipped leaves its staging rows (R251, R255). -/
def State.dropFinished (s : State) (q : Nat) : State :=
  if (s.disp q).tokens.any Token.finished then
    (s.modDisp q (fun d => { d with tokens := d.tokens.filter (fun t => !t.finished) })).serveStaged q
  else s

/-- Add a token's wait from its first RESERVE to its last launch, if it launched a copy (R259). -/
def State.countWait (s : State) (q id : Nat) : State :=
  match s.token q id with
  | some t => t.sentAt.elim s (fun e => s.count (0x5210 + q) 4 0 64 ((e - t.began) / 4))
  | none => s

/-- What a token does next. In its multicast phase it launches every copy once every GRANT is held; in its unicast phase it launches the copy of the target whose turn it is, and asks for the next (R252, R253). -/
def State.settleToken (s : State) (q id : Nat) : State :=
  match s.token q id with
  | none => s
  | some t =>
    if !t.unicast then
      if t.targets.all (fun x => x.st == .granted) then (s.each t.targets (fun u x => u.launch q t x)).countWait q id else s
    else
      let s1 := s.each (t.targets.filter (fun x => x.st == .granted)) (fun u x => u.launch q t x)
      match s1.token q id with
      | none => s1
      | some t1 =>
        match t1.targets.find? (fun x => x.st == .idle || x.st == .asked || x.st == .retry) with
        | some x => if x.st = .idle then s1.ask q id x.expert else s1
        | none => (s1.countWait q id).dropFinished q

/-! ### Requests of a stage program (R248-R250, R256) -/

/-- The kind of a request (R249, R256). -/
def reqKind (h : Nat) : Nat := fieldOf h 0 4

/-- The experts that a dispatch header names (R249). -/
def reqTargets (h : Nat) : List Nat := (List.range (min 8 (fieldOf h 60 4))).map (fun k => fieldOf h (64 + 12 * k) 12)

/-- The rows of a request as sent. -/
def reqRows (p : Packet) : List Row := p.data.map decodedRow

/-- Are the fields that every request leaves zero zero (R248-R250)? -/
def commonOk (p : Packet) : Bool := !p.sigEn && farHandle p.farAddr.toNat == 0

/-- The checks of R250 on a dispatch header. -/
def State.headerOk (s : State) (h : Nat) : Bool :=
  let n := fieldOf h 60 4
  let ts := reqTargets h
  fieldOf h 160 32 == 0 && fieldOf h 4 18 == 0 && decide (1 ≤ n) && decide (n ≤ 8)
    && (List.range 8).all (fun k => decide (k < n) || fieldOf h (64 + 12 * k) 12 == 0)
    && ts.eraseDups.length == ts.length && ts.all (fun e => xValid (s.expert e))

/-- The status of the first WRITE of a TOKEN of `total` rows (R250). -/
def State.tokenCheck (s : State) (total : Nat) (p : Packet) : Nat :=
  let h := ((reqRows p).headD 0).toNat
  if p.data.isEmpty ∨ !commonOk p ∨ reqKind h ≠ 1 ∨ !s.headerOk h then stBadValue
  else if farRow p.farAddr.toNat % 256 ≠ 0 ∨ (reqTargets h).any (fun e => decide (total > xSlotRows (s.expert e))) then stBadValue
  else stOk

/-- The mesh position of a dispatcher (R248). -/
def State.dispPos (s : State) (q : Nat) : Nat := (s.sequencerPos q).getD 0

/-- A token whose rows have all come is staged, and reserves at every target at once (R250, R252). -/
def State.stageToken (s : State) (q : Nat) (p : Packet) (rows : List Row) : State :=
  let ts := reqTargets (rows.headD 0).toNat
  let id := (s.disp q).nextId
  let t : Token := { id := id, pos := srcPos p, logical := p.srcLogical, rows := rows, targets := ts.map (fun e => { expert := e }), began := s.elapsed }
  ((s.modDisp q (fun d => { d with tokens := d.tokens ++ [t], nextId := id + 1 })).count (0x5210 + q) 0 0 64).each ts (fun u e => u.ask q id e)

/-- Does a WRITE belong to a token that is being assembled: of the same position, within its rows (R248)? -/
def TokenPart.holds (t : TokenPart) (p : Packet) : Bool :=
  t.pos == srcPos p && decide (t.start ≤ farRow p.farAddr.toNat) && decide (farRow p.farAddr.toNat < t.start + t.total)

/-- The token that a WRITE belongs to: the one being assembled, or, for the first WRITE of a PUT of `total` rows, a new one with the status of R250. -/
def State.partOf (s : State) (q total : Nat) (p : Packet) : TokenPart :=
  ((s.disp q).parts.find? (·.holds p)).getD
    { pos := srcPos p, start := farRow p.farAddr.toNat, total := total, status := s.tokenCheck total p }

/-- A WRITE of a TOKEN enters: answered with the status of its request, or staged and acknowledged; the last one completes the token (R248, R250). DESIGN CHOICE (notes/assumptions/126.md): the WRITE tells how many rows its PUT has. -/
def State.takeToken (s : State) (q total : Nat) (p : Packet) : State :=
  let t := s.partOf q total p
  let others := fun (d : Disp) => d.parts.filter (fun x => !x.holds p)
  if t.status ≠ stOk then
    let t1 : TokenPart := { t with got := t.got + p.data.length }
    (s.modDisp q (fun d => { d with parts := others d ++ (if t1.got < t1.total then [t1] else []) })).sendReply (s.dispPos q) p t.status
  else match s.landAt (s.dispPos q) p with
    | (s1, none) => s1
    | (s1, some rows) =>
      let t1 : TokenPart := { t with rows := t.rows ++ rows, got := t.got + rows.length }
      if t1.got < t1.total then
        (s1.modDisp q (fun d => { d with parts := others d ++ [t1] })).sendReply (s.dispPos q) p stOk
      else ((s1.modDisp q (fun d => { d with parts := others d })).sendReply (s.dispPos q) p stOk).stageToken q p t1.rows

/-- Must a WRITE of a TOKEN that is not refused wait for staging rows (R250)? -/
def State.mustStage (s : State) (q total : Nat) (p : Packet) : Bool :=
  (s.partOf q total p).status == stOk && decide (s.staged q + p.data.length > stagingRows)

/-! ### Reservations (R251, R253) -/

/-- RESERVE: a target dispatcher answers with GRANT, queues the request, or answers a DSTATUS. Behind a queued request of its expert it queues too. DESIGN CHOICE: a request that finds a slot and no staging rows is queued. -/
def execReserve (m : CtrlMsg) (s : State) : Out :=
  .next (s.onCtrl 0x10 m fun s => 
    let e := mExpert m
    let x := s.expert e
    let refuse := fun (st : Nat) => s.control m.src 0x13 (resBody (mRes m) e (mJob m) (mPart m) + 2 ^ 134 * st)
    if !xValid x ∨ !s.isOwn (xDevice x) then refuse stRefused
    else match s.expertPartition e with
      | none => refuse stAccessDenied
      | some q =>
        if s.jobId q ≠ mJob m then refuse stAccessDenied
        else if (s.physicalOf q (xIntake x)).elim false (fun n => s.tileState n == tsClosed) then refuse stFenced
        else
          let r : Taken := { expert := e, device := m.src, part := mPart m, resId := mRes m, job := mJob m }
          let first := !(s.disp q).queue.any (fun r => r.expert == e)
          match (if first then s.grantable q e else none) with
          | some k => s.giveSlot q r k
          | none =>
            if (s.disp q).queue.countP (fun r => r.expert == e) < 64 then s.modDisp q (fun d => { d with queue := d.queue ++ [r] })
            else refuse stNoCredit)

/-- GRANT: recorded, and the copies launch once every grant is held, or one by one in unicast; the GRANT of a cancelled identifier is discarded. -/
def execGrant (m : CtrlMsg) (s : State) : Out :=
  .next (s.onCtrl 0x11 m fun s => 
    let q := mPart m
    match s.tokenOfRes q (mRes m) with
    | none => s
    | some t =>
      (s.modToken q t.id (fun t => t.modRes (mRes m) (fun x =>
        if x.st = .asked ∨ x.st = .retry then { x with st := .granted, slot := mSlot m } else x))).settleToken q t.id)

/-- RESERVATION_CANCEL: frees a granted slot, which the oldest queued RESERVE receives, or removes a queued request. -/
def execReservationCancel (m : CtrlMsg) (s : State) : Out :=
  .next (s.onCtrl 0x12 m fun s => 
    let same := fun (r : Taken) => r.resId == mRes m && r.device == m.src && r.part == mPart m && r.expert == mExpert m
    match partitionNumbers.find? (fun q => (s.disp q).taken.any same || (s.disp q).queue.any same) with
    | none => s
    | some q =>
      (s.modDisp q (fun d => { d with taken := d.taken.filter (fun r => !same r), queue := d.queue.filter (fun r => !same r) })).serveQueue q (mExpert m))

/-- A status answers a reservation: NO_CREDIT waits for its repeat; any other status cancels the token's reservations and launches nothing, or skips one copy in unicast, and reports every copy not delivered. -/
def State.takeDstatus (s : State) (m : CtrlMsg) : State :=
  let q := mPart m
  match s.tokenOfRes q (mRes m) with
  | none => s
  | some t =>
    let fenced := decide (mStatus m = stFenced)
    if mStatus m = stNoCredit then s.modToken q t.id (fun t => t.modRes (mRes m) (fun x => { x with st := .retry, retry := s.elapsed + nsTide 180 }))
    else if t.unicast then
      ((s.skipCopy q t (mExpert m) (mStatus m) fenced).modToken q t.id (fun t =>
        t.modRes (mRes m) (fun x => { x with st := .skipped }))).settleToken q t.id
    else
      let s1 := (s.modToken q t.id (fun t => t.modRes (mRes m) (fun x => { x with st := .skipped }))).cancelAll q
        { t with targets := t.targets.filter (fun x => x.resId != mRes m) }
      let s2 := s1.each t.targets (fun u x => u.skipCopy q t x.expert (mStatus m) (fenced && x.resId == mRes m))
      (s2.modDisp q (fun d => { d with tokens := d.tokens.filter (fun x => x.id != t.id) })).serveStaged q

/-- DSTATUS: a status answers a reservation. -/
def execDstatus (m : CtrlMsg) (s : State) : Out := .next (s.onCtrl 0x13 m fun s => s.takeDstatus m)

/-- NO_CREDIT_RETRY: 200 ns after it, within 20 ns, the RESERVE that met NO_CREDIT is repeated and counted (R251). -/
def execNoCreditRetry (q resId : Nat) (s : State) : Out :=
  .next (match s.tokenOfRes q resId with
    | none => s
    | some t => match t.targets.find? (fun x => x.resId == resId && x.st == .retry && decide (x.retry ≤ s.elapsed)) with
      | none => s
      | some x =>
        ((s.count (0x5210 + q) 3 0 32).modToken q t.id (fun t => t.modRes resId (fun x => { x with st := .asked }))).sendReserve q t x.expert resId)

/-- The reservation limit of a partition's job in tide units (R245, R253). -/
def State.castLimit (s : State) (q : Nat) : Nat := nsTide ((s.job q).elim 2000 (·.mcastNs))

/-- MULTICAST_TIMEOUT: with grants missing at the limit, every reservation is cancelled and unicasts follow in target order. -/
def execMulticastTimeout (q token : Nat) (s : State) : Out :=
  .next (match s.token q token with
    | none => s
    | some t =>
      if t.unicast ∨ s.elapsed < t.began + s.castLimit q ∨ t.targets.any (fun x => x.st == .launched || x.st == .done) then s
      else (((s.cancelAll q t).count (0x5210 + q) 2 0 32).modToken q token (fun t => { t with unicast := true })).settleToken q token)

/-! ### Copies (R255) -/

/-- The WRITEs with which a target dispatcher puts a copy into its slot; the last carries a signal of +1 to the entry's gauge (R255). -/
def State.landingPackets (s : State) (q : Nat) (r : Taken) (n : Nat) (rows : List Row) : List Packet :=
  let e := s.expert r.expert
  let src := (s.sequencerPos q).getD 0
  (List.range ((rows.length + 7) / 8)).map (fun i =>
    let part := (rows.drop (8 * i)).take 8
    let row := r.slot * xSlotRows e + 8 * i
    { ptype := .write, rows := part.length, job := s.jobId q, partition := q, srcX := xOf src, srcY := yOf src,
      dstX := xOf n, dstY := yOf n, srcDevice := s.ownDevice, srcLogical := 0xFFFF,
      sigEn := decide (8 * i + part.length = rows.length), sigGauge := xGauge e, sigAdd := 1,
      farAddr := BitVec.ofNat 64 (2 ^ 54 * s.ownDevice + 2 ^ 38 * xIntake e + 2 ^ 32 * xHandle e + row), data := part.map encodeRow })

/-- COPY_ARRIVE: the copy of a granted reservation of the dispatcher of a partition of a device is written into its slot, counted and confirmed. -/
def execCopyArrive (q : Nat) (resId : CopyId) (rows : List Row) (s : State) : Out :=
  .next (match (s.disp q).taken.find? (fun r => r.resId == resId.resId && r.device == resId.device && r.part == resId.part && !r.landed) with
    | none => s
    | some r =>
      match s.physicalOf q (xIntake (s.expert r.expert)), rows with
      | some n, h :: rest =>
        let k := (reqTargets h.toNat).findIdx (fun e => e == r.expert)
        let h1 := landedHeader h k r.device (fieldOf h.toNat 32 16) r.slot
        let s1 := s.modDisp q (fun d => { d with taken := d.taken.map (fun x => if x = r then { x with landed := true } else x) })
        let s2 := (s1.emits ((s.landingPackets q r n (h1 :: rest)).map (fun p => .packet ((s.sequencerPos q).getD 0) false p))).count (0x5210 + q) 1 0 64
        s2.emit (.confirm r.device r.part resId.resId)
      | _, _ => s)

/-- COPY_RECEIPT_CONFIRM: a copy's receipt is confirmed; the token leaves its staging rows when every copy is. -/
def execCopyReceiptConfirm (q resId : Nat) (s : State) : Out :=
  .next (match s.tokenOfRes q resId with
    | none => s
    | some t =>
      (s.modToken q t.id (fun t => t.modRes resId (fun x => if x.st = .launched then { x with st := .done } else x))).dropFinished q)

/-! ### Releases (R256) -/

/-- May a RELEASE row be accepted: its fields zero, its expert homed in the partition, its slot taken (R250, R256)? -/
def State.releaseOk (s : State) (q v : Nat) : Bool :=
  reqKind v == 2 && fieldOf v 42 214 == 0 && fieldOf v 28 4 == 0 && fieldOf v 4 12 == 0
    && s.expertPartition (fieldOf v 16 12) == some q && xValid (s.expert (fieldOf v 16 12))
    && s.isOwn (xDevice (s.expert (fieldOf v 16 12)))
    && (s.disp q).taken.any (fun t => t.expert == fieldOf v 16 12 && t.slot == fieldOf v 32 10)

/-- A WRITE of RELEASE rows: each frees a landing slot, which the oldest queued RESERVE receives; with a row that fails it is answered BAD_VALUE and frees nothing. -/
def State.takeRelease (s : State) (q : Nat) (p : Packet) : State :=
  let rows := (reqRows p).map (·.toNat)
  if !commonOk p ∨ rows.isEmpty ∨ !rows.all (s.releaseOk q) ∨ rows.eraseDups.length ≠ rows.length then s.sendReply (s.dispPos q) p stBadValue
  else match s.landAt (s.dispPos q) p with
    | (s1, none) => s1
    | (s1, some _) => (s1.sendReply (s.dispPos q) p stOk).each rows (fun t v =>
      (t.modDisp q (fun d => { d with taken := d.taken.filter (fun r => !(r.expert == fieldOf v 16 12 && r.slot == fieldOf v 32 10)) })).serveQueue q (fieldOf v 16 12))

/-! ### Hints (R258) -/

/-- Rows of a hold buffer of 2 MiB (R258). -/
abbrev holdRows : Nat := 65536

/-- The MEM_READs of a hint for an expert: first far address and rows of each (R258). -/
def hintReads (e : Nat) : List (Nat × Nat) :=
  (List.range ((xRows e + 7) / 8)).map (fun i => (2 ^ 62 + xOffset e + 256 * i, min 8 (xRows e - 8 * i)))

/-- Is a hold buffer that a hint of expert `e` reads into full? -/
def State.holdFull (s : State) (q e : Nat) : Bool :=
  (hintReads (s.expert e)).any (fun r =>
    let m := s.server (s.memPlace q 1 (farOffset r.1)).1
    decide ((m.hold.map (·.rows)).sum + ((m.merges.filter (·.hint)).map (·.rows)).sum + r.2 > holdRows))

/-- Issue the MEM_READs of a hint for an expert of partition `q` (R258). -/
def State.issueHint (s : State) (q e : Nat) : State :=
  s.each (hintReads (s.expert e)) (fun t r =>
    let srv := (t.memPlace q 1 (farOffset r.1)).1
    let m := t.server srv
    if m.dead then t
    else
      let x : MemMerge := { id := m.nextId, partition := q, job := t.jobId q, addr := r.1, rows := r.2, stride := 32, opened := t.elapsed, hint := true }
      (t.modServer srv (fun y => { y with merges := y.merges ++ [x], nextId := y.nextId + 1 })).emit (.memRead srv m.nextId))

/-- Can a Causeway credit message to a device be sent at once: a route, and a credit of the CTRL class (R258, R330, R331)? -/
def State.canSignal (s : State) (d : Nat) : Bool :=
  ((bitsOf (s.routeMask d) 16).head?).elim false (fun k => (s.port k).stuck.isEmpty && decide (1 ≤ (s.port k).credits.getD 8 0))

/-- Does a hint for an expert issue a read here: rows to prefetch, its polder loaded, a stack that answers (R246, R258)? -/
def State.hintReads (s : State) (e : Nat) : Bool :=
  (s.expertPartition e).elim false (fun x => (Machine.hintReads (s.expert e)).any (fun r => !(s.server (s.memPlace x 1 (farOffset r.1)).1).dead))

/-- The hint of a header: dropped and counted, or its reads issued where its experts are homed, or passed to their devices. One that another device passed on is not passed on again (R258). DESIGN CHOICE (notes/assumptions/127.md): the form in which a hint travels between devices. -/
def State.runHint (s : State) (q h : Nat) (far' : Bool) : State :=
  let ts := (reqTargets h).filter (fun e => xRows (s.expert e) != 0)
  let own := ts.filter (fun e => s.isOwn (xDevice (s.expert e)))
  let far := if far' then [] else ts.filter (fun e => !s.isOwn (xDevice (s.expert e)))
  if s.staged q * 4 > 3 * stagingRows ∨ own.any (fun e => (s.expertPartition e).elim false (fun t => s.holdFull t e))
      ∨ far.any (fun e => !s.canSignal (xDevice (s.expert e))) then s.count (0x5210 + q) 8 0 32
  else
    let s1 := s.each own (fun t e => (t.expertPartition e).elim t (fun x => t.issueHint x e))
    let s2 := s1.each far (fun t e => t.emit (.hint (xDevice (t.expert e)) e))
    if own.any s.hintReads then s2.count (0x5210 + q) 7 0 32 else s2

/-- A WRITE of a HINT of `total` rows: checked and acknowledged to the mesh; a hint that another device passed on is never acknowledged (R250, R258). -/
def State.takeHint (s : State) (q total : Nat) (p : Packet) : State :=
  let h := ((reqRows p).headD 0).toNat
  if !s.isOwn p.srcDevice then s.runHint q h true
  else if total ≠ 1 ∨ p.data.length ≠ 1 ∨ !commonOk p ∨ reqKind h ≠ 3 ∨ !s.headerOk h then s.sendReply (s.dispPos q) p stBadValue
  else match s.landAt (s.dispPos q) p with
    | (s1, none) => s1
    | (s1, some _) => (s1.sendReply (s.dispPos q) p stOk).runHint q h false

/-! ### The dispatcher's port (R250) -/

/-- Treat one WRITE that enters the dispatcher. -/
def State.takeDispWrite (s : State) (q : Nat) (w : DispWrite) : State :=
  if w.kind = 1 then s.takeToken q w.rows w.pkt else if w.kind = 2 then s.takeRelease q w.pkt else s.takeHint q w.rows w.pkt

/-- The WRITEs before the dispatcher's port enter in order, up to one that must be held, which counts (R250). -/
def State.enterDisp (q : Nat) : List DispWrite → State → State
  | [], s => s.modDisp q (fun d => { d with held := [] })
  | w :: rest, s =>
    if w.kind == 1 && s.mustStage q w.rows w.pkt then (s.count (0x5210 + q) 6 0 32).modDisp q (fun d => { d with held := w :: rest })
    else State.enterDisp q rest (s.takeDispWrite q w)

/-- A WRITE arrives at the dispatcher: behind a held one it waits in the mesh path (R250). -/
def State.arriveDisp (s : State) (q : Nat) (w : DispWrite) : State :=
  s.onPacket (s.dispPos q) w.pkt (fun s =>
    if (s.disp q).held.isEmpty then State.enterDisp q [w] s else s.modDisp q (fun d => { d with held := d.held ++ [w] }))

/-- TOKEN_REQUEST: a WRITE of a TOKEN whose PUT has `p.rows` rows; the token is checked, assembled, staged or held, and its RESERVEs go out. -/
def execTokenRequest (q : Nat) (p : PutWrite) (s : State) : Out := .next (s.arriveDisp q ⟨1, p.rows, p.pkt⟩)

/-- RELEASE_REQUEST: a WRITE of RELEASE rows. -/
def execReleaseRequest (q : Nat) (p : Packet) (s : State) : Out := .next (s.arriveDisp q ⟨2, p.data.length, p⟩)

/-- HINT_REQUEST: a WRITE of a HINT whose PUT has `p.rows` rows. -/
def execHintRequest (q : Nat) (p : PutWrite) (s : State) : Out := .next (s.arriveDisp q ⟨3, p.rows, p.pkt⟩)

/-- STAGING_HOLD_RELEASE: the WRITE held enters once its rows find room, and what stood behind it up to the next that must be held. -/
def execStagingHoldRelease (q : Nat) (s : State) : Out :=
  .next (match (s.disp q).held with
    | [] => s
    | w :: rest => if w.kind == 1 && s.mustStage q w.rows w.pkt then s else State.enterDisp q rest (s.takeDispWrite q w))

end Sys2Proof.Machine
end

