-- ==== Sys2Proof/Machine/Links.lean ====
section
/-! DEFINITION. Causeway ports and Ethernet ports: port states, training, flits, lanes, packets between devices, control messages, discovery and routes, domain time, management units (14_causeway_links.md R324-R353, 19 R460-R462, 24 R568). -/

namespace Sys2Proof.Machine

/-! ### Port states (R325) -/

abbrev psDown : Nat := 0
abbrev psTraining : Nat := 1
abbrev psUp : Nat := 2
abbrev psUp3 : Nat := 3
abbrev psForeign : Nat := 4
abbrev psRetired : Nat := 5
abbrev psEthUp : Nat := 6
abbrev psDisabled : Nat := 7

/-- The state of a port, object 4010+k:01. -/
def State.portState (s : State) (k : Nat) : Nat := s.obj (0x4010 + k) 1

/-- Is a port UP or UP3? -/
def State.portUp (s : State) (k : Nat) : Bool := s.portState k == psUp || s.portState k == psUp3

/-- The ports that are UP or UP3. -/
def State.upPorts (s : State) : List Nat := (List.range 16).filter s.portUp

/-- Change the state of a port and report it (R325, R365). -/
def State.toPortState (s : State) (k v : Nat) : State :=
  if s.portState k = v then s else (s.setObj (0x4010 + k) 1 0 v).event 0x04 0xF 0 (k + v * 256)

/-- The peer device of a port, object 4010+k:03 (R353). -/
def State.peerOf (s : State) (k : Nat) : Nat := fieldOf (s.obj (0x4010 + k) 3) 16 16

/-- The physical lane of a logical lane, 7 where it is dropped (R334). -/
def State.laneOf (s : State) (k i : Nat) : Nat := fieldOf (s.obj (0x4010 + k) 2) (3 * i) 3

/-- The logical lanes that carry flits (R328, R334). -/
def State.activeLanes (s : State) (k : Nat) : List Nat := (List.range 4).filter (fun i => s.laneOf k i != 7)

/-- A discarded message, unit or reply (R353). -/
def State.discardUnit (s : State) (k : Nat) : State := s.count (0x4010 + k) 0xF 0 32

/-- Flits leave a port: numbered and counted (R329, R353). -/
def State.countTx (s : State) (k n : Nat) : State :=
  (s.count (0x4010 + k) 5 0 64 n).modPort k (fun p => { p with txSeq := (p.txSeq + n) % 65536 })

/-- May `n` slots of a class leave a port that is up: credits held, the replay buffer not full (R331, R332)? -/
def State.roomTx (s : State) (k cls n : Nat) : Bool :=
  let x := s.port k
  decide (n ≤ x.credits.getD cls 0) && decide ((x.txSeq + 65536 - x.ackNext) % 65536 + (n + 3) / 4 ≤ 1024)

/-- Slots of a class leave a port (R329, R331). -/
def State.spendTx (s : State) (k cls n : Nat) (m : Msg) : State :=
  ((s.emit m).modPort k (fun x => { x with credits := x.credits.modify cls (· - n) })).countTx k ((n + 3) / 4)

/-- Send a CTRL message or a MGMT unit of `n` slots at a port: at once while its class has no other waiting and has credits, or once it has. A port that is not up has no credits to spend (R331, R343). -/
def State.sendSlots (s : State) (k cls n : Nat) (m : Msg) : State :=
  if !s.portUp k then (s.emit m).countTx k ((n + 3) / 4)
  else if (s.port k).stuck.all (fun x => x.1 != cls) && s.roomTx k cls n then s.spendTx k cls n m
  else s.modPort k (fun x => { x with stuck := x.stuck ++ [(cls, n, m)], stalled := x.stalled.or (some s.elapsed) })

/-- Send a CTRL message in a flit of a port (R341). -/
def State.sendCtrl (s : State) (k mtype body : Nat) (dst src hops : Nat) : State :=
  s.sendSlots k 8 1 (.ctrl k { mtype := mtype, dst := dst, src := src, hops := hops, body := BitVec.ofNat 224 body })

/-- Send a MGMT unit in slots of a port (R347). -/
def State.sendUnit (s : State) (k : Nat) (u : MgmtUnit) : State := s.sendSlots k 9 (1 + (u.length + 31) / 32) (.mgmt k u)

/-! ### Routes (R345) and the time root (R460, R462) -/

/-- The devices next to a device by its latest TOPO (R345). -/
def State.nextTo (s : State) (d : Nat) : List Nat := (Tbl.get s.topo none d).elim [] (·.2)

/-- The devices within `n` links of those in the list. -/
def State.within (s : State) : Nat → List Nat → List Nat
  | 0, ds => ds
  | n + 1, ds => State.within s n ((ds ++ ds.flatMap s.nextTo).eraseDups)

/-- The links from a device to each device at most 3 links away, as the lists of those within 0, 1, 2 and 3 links. -/
def State.rings (s : State) (d : Nat) : List (List Nat) := [0, 1, 2, 3].map (fun n => s.within n [d])

/-- The links to a device by the lists of `State.rings`. -/
def ringDist (rings : List (List Nat)) (d : Nat) : Option Nat := rings.findIdx? (fun r => r.contains d)

/-- The route table entry of a device: hops, and the mask of every UP or UP3 port whose peer lies one hop closer (R345, R352). -/
def routeEntry (ports : List (Nat × List (List Nat))) (d : Nat) : Nat :=
  let ds := ports.filterMap (fun p => (ringDist p.2 d).map (fun n => (p.1, n)))
  match ds.foldl (fun (a : Option Nat) x => some (match a with
      | some b => min b x.2
      | none => x.2)) none with
  | none => 0xF0000
  | some n => (n + 1) * 65536 + ((ds.filter (fun x => x.2 == n)).map (fun x => 2 ^ x.1)).sum

/-- The lowest identifier reachable, the own among them (R460). -/
def State.lowestDevice (s : State) : Nat :=
  ((List.range 256).find? (fun d => d == s.obj 0x4000 0 || s.obj 0x4000 4 d % 65536 != 0)).getD (s.obj 0x4000 0)

/-- The time state and the parent after a change of mode, identifier or routes (R460, R462). -/
def State.retime (s : State) : State :=
  if s.obj 0x1420 1 = 1 ∨ s.obj 0x4000 0 = 0xFFFF then
    ((s.setObj 0x1420 2 0 0).setObj 0x1420 8 0 0).setObj 0x1420 3 0 0xFFFF0000
  else
    let root := s.lowestDevice
    if root = s.obj 0x4000 0 then
      { ((s.setObj 0x1420 2 0 1).setObj 0x1420 8 0 0).setObj 0x1420 3 0 0xFFFF0000 with timeRoot := root }
    else
      let k := ((bitsOf (s.obj 0x4000 4 root) 16).head?).getD 0
      let parent := s.peerOf k * 65536 + k * 4096
      let st := s.obj 0x1420 2
      if st = 2 ∨ st = 3 then
        if s.obj 0x1420 3 = parent ∧ s.timeRoot = root then s
        else { (s.setObj 0x1420 2 0 2).setObj 0x1420 3 0 parent with timeRoot := root, steady := 0, wide := 0 }
      else { (s.setObj 0x1420 2 0 2).setObj 0x1420 3 0 parent with timeRoot := root, steady := 0, wide := 0 }

/-- Recompute the routes (R345). -/
def State.recomputeRoutes (s : State) : State :=
  let own := s.obj 0x4000 0
  let ports := if own = 0xFFFF then [] else
    (s.upPorts.filter (fun k => decide (s.peerOf k < 256))).map (fun k => (k, s.rings (s.peerOf k)))
  let entry := fun (d : Nat) => if d = own ∨ bitOf (s.obj 0x4000 6) d then 0xF0000 else routeEntry ports d
  ((s.setObjs 0x4000 4 0 ((List.range 256).map entry)).setObj 0x4000 3 0 ((s.obj 0x4000 3 + 1) % 2 ^ 32)).retime

/-- The body of the device's own TOPO (R342). -/
def State.topoBody (s : State) : Nat :=
  2 ^ 216 * s.ownDevice + 2 ^ 184 * s.topoSeq
    + ((s.upPorts.filter (fun k => decide (s.peerOf k < 256))).map (fun k => 2 ^ (40 + 9 * k) * (256 + s.peerOf k))).sum

/-- Flood the device's own TOPO on every port that is up (R345). -/
def State.sendTopo (s : State) : State :=
  if s.obj 0x4000 0 = 0xFFFF then s else s.each s.upPorts (fun t k => t.sendCtrl k 0x06 t.topoBody 0 0 0)

/-- The device's neighbours changed: a new TOPO is flooded and the routes are recomputed (R345). -/
def State.neighboursChanged (s : State) : State :=
  ({ s with topoSeq := (s.topoSeq + 1) % 2 ^ 32 }.sendTopo).recomputeRoutes

/-! ### Port loss, training (R325-R327, R335) -/

/-- A port loss (R335): every request in the forward table is answered TIMEOUT toward its return position, STEP_FAULT is raised in every partition that had one, the loss is reported, the routes are recomputed. -/
def State.portLoss (s : State) (k : Nat) : State :=
  let p := s.port k
  let pos := s.portPos k
  let s1 := s.modPort k (fun x => { x with fwd := [], inbound := [], ingress := [], stuck := [], stalled := none, resume := none, failed := 0, ackNext := x.txSeq, naks := none, discarding := false, swaps := [] })
  let s2 := s1.each p.fwd (fun t r => t.sendReply pos r stTimeout)
  let qs := ((p.fwd.filter (fun r => r.srcDevice == s.ownDevice)).map (·.partition)).eraseDups
  let s3 := s2.each qs (fun t q => t.stepFault q clLink none)
  (s3.reportFor none clLink (susPort k) (susPort k) 0 0).neighboursChanged

/-- Enter TRAINING; `resume` is the state a retrain resumes (R325, R327). -/
def State.train (s : State) (k : Nat) (resume : Option Nat) : State :=
  (s.modPort k (fun p => { p with locked := [], prbsDone := false, resume := resume })).toPortState k psTraining

/-- A port that is UP or UP3 is lost and enters a state. -/
def State.loseTo (s : State) (k v : Nat) : State :=
  if s.portUp k ∨ (s.port k).resume.isSome then (s.toPortState k v).portLoss k else s.toPortState k v

/-- Retrain a port with the mode its object holds (R324, R325). -/
def State.resetPort (s : State) (k : Nat) (clear : Bool) : State :=
  let mode := s.obj (0x4010 + k) 0
  let s0 := s.modPort k (fun p => { p with mode := mode, held := false })
  let s1 := if clear then (s0.setObj (0x4010 + k) 2 0 0x0688).setObj (0x4010 + k) 9 0 0 else s0
  if mode = 0 then s1.loseTo k psDisabled
  else if s.portState k = psRetired ∧ !clear then s1
  else (s1.loseTo k psTraining).train k none

/-- A port_reset that was latched while the port trained runs when the training ends (R399). -/
def State.trained (s : State) (k : Nat) : State :=
  match (s.port k).latch with
  | some v => (s.modPort k (fun p => { p with latch := none })).resetPort k (v == 2)
  | none => s

/-- The own rule of object 4010+k:04 (R324, R399). -/
def rulePortReset (k v : Nat) (s : State) : State × Nat :=
  if (v = 1 ∨ v = 2) ∧ s.portState k = psTraining then (s.modPort k (fun p => { p with latch := some v }), stRestartPending)
  else if v = 1 then (s.resetPort k false, stOk) else if v = 2 then (s.resetPort k true, stOk) else (s, stBadValue)

/-- PORT_RESET_RETRAIN: a write of 0x01 to port_reset. -/
def execPortResetRetrain (sess k : Nat) (s : State) : Out := s.commandOut sess (0x4010 + k) 4 (rulePortReset k 1)

/-- PORT_RESET_CLEAR: a write of 0x02 to port_reset. -/
def execPortResetClear (sess k : Nat) (s : State) : Out := s.commandOut sess (0x4010 + k) 4 (rulePortReset k 2)

/-- PORT_RETRY_TIMER: 1 s after it entered DOWN, the port enters TRAINING. -/
def execPortRetryTimer (k : Nat) (s : State) : Out :=
  .next (if s.portState k = psDown then s.train k none else s)

/-- The lanes with lock that training needs: 4, and 3 where a retrain resumes UP3 (R325). DEDUCED: the second. -/
def Port.lanesNeeded (p : Port) : Nat := if p.resume = some psUp3 then 3 else 4

/-- TRAINING_TIMEOUT: without lock the port returns to DOWN; a retrain from UP or UP3 does so at its third failure in a row, which is a port loss. -/
def execTrainingTimeout (k : Nat) (s : State) : Out :=
  .next (
    let p := s.port k
    if s.portState k ≠ psTraining ∨ p.locked.length ≥ p.lanesNeeded then s
    else
      let s1 := s.count (0x4010 + k) 0xE 0 32
      match p.resume with
      | none => (s1.toPortState k psDown).trained k
      | some _ =>
        if p.failed + 1 ≥ 3 then (s1.loseTo k psDown).trained k
        else s1.modPort k (fun p => { p with failed := p.failed + 1, locked := [], prbsDone := false }))

/-- PRBS_PHASE_END: the lanes move on to idle flits. -/
def execPrbsPhaseEnd (k : Nat) (s : State) : Out :=
  .next (if s.portState k = psTraining then s.modPort k (fun p => { p with prbsDone := true }) else s)

/-- CODEWORD_LOCK: a physical lane gains lock. -/
def execCodewordLock (k lane : Nat) (s : State) : Out :=
  .next (s.modPort k (fun p => if p.prbsDone ∨ s.portState k ≠ psTraining then { p with locked := (p.locked.erase lane) ++ [lane] } else p))

/-- CODEWORD_LOCK_LOSS: a physical lane loses lock; an active lane's loss sends a port that is up to TRAINING, its sequence, replay and credit state kept. -/
def execCodewordLockLoss (k lane : Nat) (s : State) : Out :=
  .next (
    let s1 := s.modPort k (fun p => { p with locked := p.locked.erase lane })
    if s.portUp k ∧ (s.activeLanes k).any (fun i => s.laneOf k i == lane) then s1.train k (some (s.portState k)) else s1)

/-- CABLE_INSERT: an inserted cable starts training within 1 s. -/
def execCableInsert (k : Nat) (s : State) : Out :=
  .next (if s.portState k = psDown then s.train k none else s)

/-- CABLE_REMOVE: a removed cable is a port loss. -/
def execCableRemove (k : Nat) (s : State) : Out :=
  .next (
    let st := s.portState k
    if st = psRetired ∨ st = psDisabled ∨ st = psDown then s
    else if st = psEthUp then s.toPortState k psTraining
    else s.loseTo k psDown)

/-! ### Traffic that waits (R331, R332, R338, R339) -/

/-- The class of a packet on its hop (R330). -/
def classOf (p : Packet) (hop : Nat) : Nat := (if isReply p then 4 else 0) + min 3 hop

/-- Do a request and a reply match in their key (R339)? The far address, which a reply copies, stands for whether the request was a SIGNAL: DESIGN CHOICE (notes/assumptions/124.md), since a reply's header does not say it (R171). -/
def sameKey (a b : Packet) : Bool :=
  a.srcDevice == b.srcDevice && a.srcLogical == b.srcLogical && a.tag == b.tag && a.farAddr == b.farAddr

/-- May a packet leave a port now: the port up, an entry free for a request, the credits held, the replay buffer not full (R331, R332, R339)? -/
def State.mayLeave (s : State) (k hop : Nat) (p : Packet) : Bool :=
  let x := s.port k
  let n := 1 + p.data.length
  s.portUp k && (isReply p || decide (x.fwd.length < 8192)) && s.roomTx k (classOf p hop) n

/-- Requests admitted to the mesh reserve rows + 1 slots of the 4,096 of the outbound reply queue (R338). -/
def Port.reserved (p : Port) : Nat := (p.inbound.map (fun x => x.2.rows + 1)).sum

/-- The partitions whose loaded job has the identifier of a packet (R338). -/
def State.partitionsOfJob (s : State) (job : Nat) : List Nat :=
  partitionNumbers.filter (fun q => (s.job q).isSome && s.jobId q == job && s.jobState q != jsSaved)

/-- Answer a request that came over a port with a STATUS, on that port at the next hop index (R338). -/
def State.refuseIngress (s : State) (k hop : Nat) (p : Packet) (st : Nat) : State :=
  s.modPort k (fun x => { x with egress := x.egress ++ [(min 3 (hop + 1), replyTo (s.portPos k) p .status st [])] })

/-- A translated request enters the mesh from the port (R338). -/
def State.enterMesh (s : State) (k hop dst : Nat) (p : Packet) : State :=
  let pos := s.portPos k
  (s.modPort k (fun x => { x with inbound := x.inbound ++ [(hop, p)] })).emit
    (.packet pos false { p with srcX := xOf pos, srcY := yOf pos, dstX := xOf dst, dstY := yOf dst })

/-- Where a request for this device goes, or the status it is answered (R338). -/
def State.ingressDest (s : State) (p : Packet) : Except Nat Nat :=
  if s.deviceClosed then .error stFenced
  else match s.partitionsOfJob p.job with
  | [] => .error stFenced
  | [q] =>
    let t := farTile p.farAddr.toNat
    if t = 0xFF00 then
      match s.sequencerPos q with
      | some d => .ok d
      | none => .error stFenced
    else match s.physicalOf q t with
      | some d => if t < (s.job q).elim 0 (·.map.length) then .ok d else .error stBadValue
      | none => .error stBadValue
  | _ => .error stAccessDenied

/-- A packet leaves a port: a request is recorded, a reply ends its request's reservation; the header loses its mesh positions and the packet is packed into slots within the credits (R331, R336, R339). -/
def State.leave (s : State) (k hop : Nat) (p : Packet) : State :=
  let n := 1 + p.data.length
  let c := classOf p hop
  let s1 := s.modPort k (fun x =>
    let y := if isReply p then { x with inbound := x.inbound.eraseP (fun e => sameKey e.2 p) }
      else { x with fwd := x.fwd ++ [{ p with data := [] }] }
    { y with credits := y.credits.modify c (fun v => v - n) })
  (s1.emit (.egress k hop { p with srcX := 0, srcY := 0, dstX := 0, dstY := 0 })).countTx k ((n + 3) / 4)

/-- The CTRL messages and MGMT units that wait at a port leave in the order of their class as far as the credits go (R331). -/
def State.pumpStuck (s : State) (k : Nat) : State :=
  let wait := (s.port k).stuck
  (s.modPort k (fun x => { x with stuck := [] })).each wait (fun t e => t.sendSlots k e.1 e.2.1 e.2.2)

/-- Count the time in which a slot has waited for credit at a port, in object 4010+k:0D (R331). -/
def State.countCredit (s : State) (k : Nat) : State :=
  match (s.port k).stalled with
  | none => s
  | some t =>
    let ns := (s.elapsed - t) / 4
    (s.count (0x4010 + k) 0xD 0 64 ns).modPort k (fun x => { x with stalled := some (t + nsTide ns) })

/-- Does a slot that is ready wait for credit at a port (R331)? -/
def State.starved (s : State) (k : Nat) : Bool :=
  let x := s.port k
  s.portUp k && (!x.stuck.isEmpty || x.egress.any (fun e => decide (x.credits.getD (classOf e.2 e.1) 0 < 1 + e.2.data.length)))

/-- Send what waits at a port, each packet that may leave in the order it came; then take in requests that wait for room in the reply queue. -/
def State.pumpTraffic (s : State) (k : Nat) : State :=
  let wait := (s.port k).egress
  let s1 := (s.modPort k (fun x => { x with egress := [] })).each wait (fun t e =>
    if t.mayLeave k e.1 e.2 then t.leave k e.1 e.2 else t.modPort k (fun x => { x with egress := x.egress ++ [e] }))
  let ins := (s1.port k).ingress
  (s1.modPort k (fun x => { x with ingress := [] })).each ins (fun t e =>
    if (t.port k).reserved + e.2.rows + 1 ≤ 4096 then
      match t.ingressDest e.2 with
      | .ok d => t.enterMesh k e.1 d e.2
      | .error st => t.refuseIngress k e.1 e.2 st
    else t.modPort k (fun x => { x with ingress := x.ingress ++ [e] }))

/-- A port takes up what waits at it, and notes from when on a slot waits for credit (R331, R338, R339). -/
def State.pumpPort (s : State) (k : Nat) : State :=
  let x := s.port k
  if x.egress.isEmpty && x.ingress.isEmpty && x.stuck.isEmpty then s
  else
    let s1 := (((s.countCredit k).pumpStuck k).pumpTraffic k)
    s1.modPort k (fun x => { x with stalled := if s1.starved k then x.stalled.or (some s.elapsed) else none })

/-- EGRESS_PACKET: a packet bound for another device reaches its egress port; a device without an identifier, or in SAFE, carries none (R344). -/
def execEgressPacket (k hop : Nat) (p : Packet) (s : State) : Out :=
  .next (
    if s.obj 0x4000 0 = 0xFFFF ∨ s.device.mode = .safe then s.discardUnit k
    else (s.modPort k (fun x => { x with egress := x.egress ++ [(hop, p)] })).pumpPort k)

/-- INGRESS_REQUEST: sent on in transit, answered STATUS, or translated onto the mesh once its reply has room. -/
def execIngressRequest (k hop : Nat) (p : Packet) (s : State) : Out :=
  .next (
    let d := farDevice p.farAddr.toNat
    if s.obj 0x4000 0 = 0xFFFF ∨ s.device.mode = .safe then s.discardUnit k
    else if !s.isOwn d then
      match bitsOf (s.routeMask d) 16 with
      | [] => (s.refuseIngress k hop p stRefused).pumpPort k
      | ps =>
        if hop ≥ 3 then (s.refuseIngress k hop p stRefused).pumpPort k
        else
          let out := s.portPos (ps.getD ((p.srcDevice + p.srcLogical + d) % ps.length) 0)
          s.enterMesh k hop out p
    else match s.ingressDest p with
      | .error st => (s.refuseIngress k hop p st).pumpPort k
      | .ok _ => (s.modPort k (fun x => { x with ingress := x.ingress ++ [(hop, p)] })).pumpPort k)

/-- INGRESS_REPLY: matches the oldest entry of its key and goes to the return position, or is discarded. -/
def execIngressReply (k _hop : Nat) (p : Packet) (s : State) : Out :=
  .next (match (s.port k).fwd.find? (fun r => sameKey r p) with
    | none => s.discardUnit k
    | some r =>
      let pos := s.portPos k
      ((s.modPort k (fun x => { x with fwd := x.fwd.eraseP (fun r => sameKey r p) })).emit
        (.packet pos true { p with srcX := xOf pos, srcY := yOf pos, dstX := r.srcX, dstY := r.srcY })).pumpPort k)

/-- EGRESS_FORK_BRANCH: one DATA packet to the oldest remote READ that the port carried with the same far_addr, rows and stride. -/
def execEgressForkBranch (k : Nat) (p : Packet) (s : State) : Out :=
  .next (match (s.port k).inbound.find? (fun e => (e.2.ptype == .read || e.2.ptype == .memRead) && e.2.farAddr == p.farAddr
      && e.2.rows == p.rows && e.2.stride == p.stride) with
    | none => s
    | some e =>
      (s.modPort k (fun x => { x with egress := x.egress ++ [(min 3 (e.1 + 1), replyTo (s.portPos k) e.2 .data stOk p.data)] })).pumpPort k)

/-! ### Flits (R329-R332) -/

/-- The bytes of a flit that its CRC covers: bits [1279:32], least-significant byte first (R329). -/
def flitCovered (f : Flit) : List Byte :=
  leBytes 156 ((f.ctl.toNat + (f.slots.zipIdx.map (fun x => 2 ^ (192 + 272 * x.2) * x.1.toNat)).sum) / 2 ^ 32)

def flitSeq (f : Flit) : Nat := fieldOf f.ctl.toNat 176 16
def flitAckSeq (f : Flit) : Nat := fieldOf f.ctl.toNat 160 16
def flitAckKind (f : Flit) : Nat := fieldOf f.ctl.toNat 158 2
def flitClass (f : Flit) (j : Nat) : Nat := fieldOf f.ctl.toNat (132 + 6 * j + 2) 4
def slotKind (f : Flit) (j : Nat) : Nat := fieldOf f.ctl.toNat (132 + 6 * j) 2
def flitCredits (f : Flit) (c : Nat) : Nat := fieldOf f.ctl.toNat (52 + 8 * c) 8

/-- Does a flit's CRC hold (R329)? -/
def flitCrcOk (f : Flit) : Bool := (crc32c (flitCovered f)).toNat == fieldOf f.ctl.toNat 0 32

/-- The CTRL message of a slot (R341). -/
def ctrlOf (w : Row) : CtrlMsg :=
  let v := w.toNat
  { mtype := fieldOf v 248 8, dst := fieldOf v 240 8, src := fieldOf v 232 8, hops := fieldOf v 228 4, reserved := fieldOf v 224 4, body := BitVec.ofNat 224 v }

/-- Is a message type routed (R341)? -/
def isRouted (t : Nat) : Bool := decide (0x10 ≤ t) && decide (t ≤ 0x16) || decide (0x20 ≤ t) && decide (t ≤ 0x24)

/-- Is a message type used (R341, R511)? -/
def isUsed (t : Nat) : Bool := decide (1 ≤ t) && decide (t ≤ 6) || isRouted t

/-- The port on which a routed message or unit leaves for a device (R341). DESIGN CHOICE: the lowest of the route mask. -/
def State.routePort (s : State) (d : Nat) : Option Nat := (bitsOf (s.routeMask d) 16).head?

/-- A CTRL slot that arrives: delivered, sent on, or discarded (R341, R344). -/
def State.takeCtrl (s : State) (k : Nat) (w : Codeword) : State :=
  let m := ctrlOf (decodedRow w)
  if isBadWord w ∨ !isUsed m.mtype ∨ m.hops > 3 then s.discardUnit k
  else if isRouted m.mtype ∧ (s.obj 0x4000 0 = 0xFFFF ∨ s.device.mode = .safe) then s.discardUnit k
  else if isRouted m.mtype ∧ !s.isOwn m.dst then
    match s.routePort m.dst with
    | some j => if m.hops = 3 then s.discardUnit k else s.sendCtrl j m.mtype m.body.toNat m.dst m.src (m.hops + 1)
    | none => s.discardUnit k
  else s.emit (.slot k 8 1 w)

/-- Deliver a slot and note the credit it returns (R330, R331). -/
def State.takeSlot (s : State) (k cls kind : Nat) (w : Codeword) : State :=
  if kind = 0 then s
  else if kind = 3 ∨ cls > 9 then s.discardUnit k
  else
    let s1 := s.modPort k (fun p => { p with owed := p.owed.modify cls (· + 1) })
    if cls = 8 then s1.takeCtrl k w else s1.emit (.slot k cls kind w)

/-- Apply an ACK: every flit up to its number is received (R329, R332). -/
def State.ackFlits (s : State) (k a : Nat) : State :=
  s.modPort k (fun p =>
    if (a + 1 + 65536 - p.ackNext) % 65536 ≤ (p.txSeq + 65536 - p.ackNext) % 65536 then { p with ackNext := (a + 1) % 65536 } else p)

/-- Answer a NAK: the flits from ack_seq + 1 are sent again; the ninth NAK of one number finds that the flit's 8th replay failed and sends the port to TRAINING (R325, R332). -/
def State.nakFlits (s : State) (k a : Nat) : State :=
  let n := match (s.port k).naks with
    | some (b, n) => if a = b then n + 1 else 1
    | none => 1
  let s1 := (s.ackFlits k a).modPort k (fun p => { p with naks := some (a, n) })
  if n > 8 then s1.train k (some (s.portState k))
  else ((s1.count (0x4010 + k) 7 0 32).modPort k (fun p => { p with marks := s.elapsed :: p.marks })).emit (.resend k ((a + 1) % 65536))

/-- The physical lane that carries a flit number (R328). -/
def State.laneOfSeq (s : State) (k seq : Nat) : Nat :=
  let ls := s.activeLanes k
  s.laneOf k (ls.getD (seq % max 1 ls.length) 0)

/-- A flit is refused: one NAK names the last good flit, and it and every later flit are discarded until the replayed one (R332, R353). -/
def State.refuseFlit (s : State) (k : Nat) (codewordOk : Bool) : State :=
  let p := s.port k
  if p.discarding then s
  else
    let lane := s.laneOfSeq k p.rxSeq
    let s1 := if codewordOk then s
      else (s.count (0x4010 + k) 0xB lane 32).modPort k (fun p => { p with laneBad := (lane, s.elapsed) :: p.laneBad })
    ((s1.count (0x4010 + k) 0xC 0 32).modPort k (fun p => { p with discarding := true, marks := s.elapsed :: p.marks })).emit
      (.linkAck k ((p.rxSeq + 65535) % 65536) true)

/-- FLIT_RECEIVE: a flit is refused with NAK, discarded, or accepted: its slots delivered, its credits and its acknowledgement applied. -/
def execFlitReceive (k : Nat) (f : Flit) (codewordOk : Bool) (s : State) : Out :=
  .next (
    if !s.portUp k then s
    else if !codewordOk ∨ !flitCrcOk f then s.refuseFlit k codewordOk
    else if (flitSeq f) ≠ (s.port k).rxSeq then s
    else
      let s1 := (s.count (0x4010 + k) 6 0 64).modPort k (fun p => { p with rxSeq := ((flitSeq f) + 1) % 65536, discarding := false, credits := p.credits.zipIdx.map (fun x => x.1 + flitCredits f x.2) })
      let s2 := s1.each (f.slots.zipIdx) (fun t x => t.takeSlot k (flitClass f x.2) (slotKind f x.2) x.1)
      let s3 := if (flitAckKind f) = 1 then s2.ackFlits k (flitAckSeq f) else if (flitAckKind f) = 2 then s2.nakFlits k (flitAckSeq f) else s2
      s3.pumpPort k)

/-- ACK_SEND: the receiver acknowledges every flit received and returns credits, up to 255 of a class. -/
def execAckSend (k : Nat) (s : State) : Out :=
  .next (
    if !s.portUp k then s
    else
      let p := s.port k
      (((s.emit (.linkAck k ((p.rxSeq + 65535) % 65536) false)).emit (.credits k (p.owed.map (min 255)))).countTx k 1).modPort k
        (fun p => { p with owed := p.owed.map (fun v => v - min 255 v) }))

/-! ### Lane sparing (R333, R334) -/

/-- The lowest multiple of 4n at or above a flit's number + 1,024 (R334). -/
def State.switchPoint (s : State) (k : Nat) : Nat :=
  let m := 4 * max 1 (s.activeLanes k).length
  (((s.port k).txSeq + 1024 + m - 1) / m * m) % 65536

/-- The body of LANE_SWAP and LANE_ACK (R342). -/
def swapBody (seq lane : Nat) (drop : Bool) : Nat := 2 ^ 208 * seq + 2 ^ 205 * lane + (if drop then 2 ^ 204 else 0)

/-- Record a lane change, in lane order (R334: the lower lane number first). -/
def putSwap (xs : List Swap) (x : Swap) : List Swap :=
  if xs.any (fun y => y.lane == x.lane) then xs.map (fun y => if y.lane = x.lane then x else y)
  else xs.filter (fun y => decide (y.lane < x.lane)) ++ x :: xs.filter (fun y => decide (x.lane < y.lane))

/-- The lane to retire: the active lane with the most uncorrectable codewords, ties to the most corrected symbols, then to the lower number; none where none had any (R333). -/
def State.worstLane (s : State) (k : Nat) : Option Nat :=
  let bad := (s.port k).laneBad
  let score := fun (i : Nat) => (bad.countP (fun b => b.1 == s.laneOf k i), s.obj (0x4010 + k) 0xA (s.laneOf k i))
  (s.activeLanes k).foldl (fun (a : Option Nat) i =>
    if (score i).1 = 0 then a
    else match a with
      | none => some i
      | some j => if (score i).1 > (score j).1 ∨ ((score i).1 = (score j).1 ∧ (score i).2 > (score j).2) then some i else a) none

/-- LANE_SPARING_CHECK: replays of the trailing second are counted; the 100th check in a row above 64 retires a lane at the end that receives the errors. -/
def execLaneSparingCheck (k : Nat) (s : State) : Out :=
  .next (
    if !s.portUp k then s
    else
      let recent := fun (t : Nat) => decide (s.elapsed < 4000000000 + t)
      let s1 := s.modPort k (fun p => { p with marks := p.marks.filter recent, laneBad := p.laneBad.filter (fun b => recent b.2) })
      let n := (s1.port k).marks.length
      let bad := if n > 64 then (s.port k).badChecks + 1 else 0
      let s2 := (s1.setObj (0x4010 + k) 8 0 (min 65535 n)).modPort k (fun p => { p with badChecks := bad })
      if bad < 100 then s2
      else match s2.worstLane k with
        | none => s2
        | some lane =>
          let drop := (s2.activeLanes k).any (fun i => s2.laneOf k i == 4)
          let seq := s2.switchPoint k
          (s2.sendCtrl k 0x02 (swapBody seq lane drop) 0 0 0).modPort k (fun p => { p with
            badChecks := 0, swaps := putSwap p.swaps { lane := lane, drop := drop, tx := some seq } }))

/-- LANE_SWAP: answered with LANE_ACK and the own switch point; a crossing request for the same lane is the same swap. -/
def execLaneSwap (k : Nat) (m : CtrlMsg) (s : State) : Out :=
  .next (s.onCtrl 0x02 m fun s => 
    if !s.portUp k then s
    else
      let v := m.body.toNat
      let lane := fieldOf v 205 3
      let old := (s.port k).swaps.find? (fun x => x.lane == lane)
      let seq := match old.bind (·.tx) with
        | some t => t
        | none => s.switchPoint k
      let x : Swap := { lane := lane, drop := bitOf v 204, tx := some seq, rx := some (fieldOf v 208 16) }
      (s.sendCtrl k 0x03 (swapBody seq lane (bitOf v 204)) 0 0 0).modPort k (fun p => { p with swaps := putSwap p.swaps x }))

/-- LANE_ACK: fixes the peer's switch point for the receiver. -/
def execLaneAck (k : Nat) (m : CtrlMsg) (s : State) : Out :=
  .next (s.onCtrl 0x03 m fun s => s.modPort k (fun p => { p with swaps := p.swaps.map (fun x =>
    if x.lane = fieldOf m.body.toNat 205 3 then { x with rx := some (fieldOf m.body.toNat 208 16) } else x) }))

/-- A lane change takes effect: the logical lane moves to LS, or is dropped, to UP3 and then RETIRED; recorded and reported (R325, R334). -/
def State.finishSwap (s : State) (k : Nat) (x : Swap) : State :=
  let v := s.obj (0x4010 + k) 2
  let n := min 3 (s.obj (0x4010 + k) 9 + 1)
  let v1 := setField (setField v (3 * x.lane) 3 (if x.drop then 7 else 4)) 12 3 n
  let s1 := (((s.setObj (0x4010 + k) 2 0 v1).setObj (0x4010 + k) 9 0 n).modPort k (fun p => { p with
    swaps := p.swaps.filter (fun y => y.lane != x.lane) })).reportFor none clLink (susLane k (s.laneOf k x.lane)) (susPort k) 0 x.lane
  if !x.drop then s1
  else if s.portState k = psUp3 then s1.loseTo k psRetired
  else s1.toPortState k psUp3

/-- LANE_SWITCH: at a switch point the transmitter or the receiver of a lane change switches. -/
def execLaneSwitch (k seq : Nat) (s : State) : Out :=
  .next (
    let hit := fun (x : Swap) => (x.tx == some seq && !x.txDone) || (x.rx == some seq && !x.rxDone)
    match (s.port k).swaps.find? hit with
    | none => s
    | some x =>
      let y : Swap := { x with txDone := x.txDone || x.tx == some seq, rxDone := x.rxDone || x.rx == some seq }
      let s1 := s.modPort k (fun p => { p with swaps := putSwap p.swaps y })
      if y.txDone && y.rxDone then s1.finishSwap k y else s1)

/-! ### Discovery (R343-R345) -/

/-- HELLO_SEND: the port sends HELLO while TRAINING, FOREIGN, UP or UP3. -/
def execHelloSend (k : Nat) (s : State) : Out :=
  .next (
    let st := s.portState k
    if (s.port k).mode = 1 ∧ (st = psTraining ∨ st = psForeign ∨ st = psUp ∨ st = psUp3) then
      s.sendCtrl k 0x01 (2 ^ 160 * (s.obj 0x4000 2 % 2 ^ 64) + 2 ^ 128 * s.obj 0x4000 1 + 2 ^ 112 * s.obj 0x4000 0 + 2 ^ 100 + 2 ^ 108 * k) 0 0 0
    else s)

/-- A serial claims an identifier: recorded, or marked as a conflict where another serial that is present claims it (R345). -/
def State.claim (s : State) (k dev serial : Nat) : State :=
  if dev ≥ 256 then s
  else
    let known := s.obj 0x4000 5 dev
    let present := dev == s.obj 0x4000 0 || (List.range 16).any (fun j => j != k && s.portUp j && s.peerOf j == dev && (s.port j).serial != serial)
    if known ≠ 0 ∧ known ≠ serial ∧ present then
      if bitOf (s.obj 0x4000 6) dev then s
      else (s.setObj 0x4000 6 0 (setBit (s.obj 0x4000 6) dev true)).reportFor none clLink (susDevice dev) (susPort k) 0 serial
    else s.setObj 0x4000 5 dev serial

/-- HELLO: a match brings a training port with lock UP, or resumes a retrain, or ends FOREIGN; a mismatch makes a training port FOREIGN, and a port that is up lost and FOREIGN. -/
def execHello (k : Nat) (m : CtrlMsg) (s : State) : Out :=
  .next (s.onCtrl 0x01 m fun s => 
    let v := m.body.toNat
    let serial := fieldOf v 160 64
    let dev := fieldOf v 112 16
    let ok := fieldOf v 128 32 == s.obj 0x4000 1 && fieldOf v 100 8 == 1
    let st := s.portState k
    let p := s.port k
    if st ≠ psTraining ∧ st ≠ psForeign ∧ st ≠ psUp ∧ st ≠ psUp3 then s
    else
      let moved := s.obj (0x4010 + k) 3 != dev * 65536 + fieldOf v 108 4 * 4096
      let s1 := (s.setObj (0x4010 + k) 3 0 (dev * 65536 + fieldOf v 108 4 * 4096)).modPort k (fun p => { p with serial := serial })
      let s2 := if ok then s1.claim k dev serial else s1
      if !ok ∨ (p.held ∧ st = psForeign) then
        if st = psForeign then s2
        else if st = psTraining ∧ p.resume.isNone then (s2.toPortState k psForeign).trained k
        else s2.loseTo k psForeign
      else if st = psUp ∨ st = psUp3 then (if moved then s2.neighboursChanged else s2)
      else if st = psTraining ∧ p.locked.length < p.lanesNeeded then s2
      else match p.resume with
        | some r =>
          let s3 := (s2.toPortState k r).modPort k (fun p => { p with resume := none, failed := 0, naks := none })
          ((if p.ackNext = p.txSeq then s3 else s3.emit (.resend k p.ackNext)).pumpPort k).trained k
        | none =>
          (((s2.toPortState k psUp).modPort k (fun p => { p with
            txSeq := 0, ackNext := 0, rxSeq := 0, discarding := false, naks := none, failed := 0, offsets := [],
            credits := ({} : Port).credits, owed := ({} : Port).owed })).neighboursChanged.pumpPort k).trained k)

/-- TOPO_SEND: the device floods its TOPO. -/
def execTopoSend (s : State) : Out := .next s.sendTopo

/-- TOPO: a newer one is held, forwarded on every other port that is up, and the routes are recomputed. -/
def execTopo (k : Nat) (m : CtrlMsg) (s : State) : Out :=
  .next (s.onCtrl 0x06 m fun s => 
    let v := m.body.toNat
    let origin := fieldOf v 216 8
    let seq := fieldOf v 184 32
    let newer := match Tbl.get s.topo none origin with
      | none => true
      | some (old, _) => decide (0 < (seq + 2 ^ 32 - old) % 2 ^ 32) && decide ((seq + 2 ^ 32 - old) % 2 ^ 32 < 2 ^ 31)
    if origin = s.obj 0x4000 0 ∨ !newer then s
    else
      let peers := (List.range 16).filterMap (fun j => if bitOf v (40 + 9 * j + 8) then some (fieldOf v (40 + 9 * j) 8) else none)
      let s1 := { s with topo := Tbl.put s.topo none origin (some (seq, peers)) }
      (s1.each (s1.upPorts.filter (fun j => j != k)) (fun t j => t.sendCtrl j 0x06 v 0 0 0)).recomputeRoutes)

/-- The own rule of object 4000:00 (R352). -/
def ruleDeviceId (v : Nat) (s : State) : State × Nat :=
  if v ≥ 256 ∧ v ≠ 0xFFFF then (s, stBadValue)
  else if !s.allJobsNone then (s, stBusy)
  else
    let s1 := s.setObj 0x4000 0 0 v
    let s2 := if v < 256 then s1.setObj 0x4000 5 v (s1.obj 0x4000 2) else s1
    let s3 := s2.each ((List.range 16).filter (fun k => s2.portUp k || s2.portState k == psTraining || s2.portState k == psForeign)) (fun t k =>
      match execHelloSend k t with
      | .next u => u
      | _ => t)
    (s3.neighboursChanged, stOk)

/-! ### Time over Causeway (R346, R460-R462) -/

/-- TSYNC_SEND: a port that is up sends TSYNC, every tsync_interval (R346). -/
def execTsyncSend (k : Nat) (s : State) : Out :=
  .next (
    if !s.portUp k ∨ s.elapsed < (s.port k).syncAt + nsTide (1000 * s.obj 0x4000 7) then s
    else
      let n := ((s.port k).syncSeq + 1) % 65536
      (s.sendCtrl k 0x04 (2 ^ 208 * n + 2 ^ 144 * (s.tide % 2 ^ 64)) 0 0 0).modPort k (fun p => { p with syncSeq := n, t1 := s.tide, syncAt := s.elapsed }))

/-- TSYNC: answered with TSYNC_REPLY. -/
def execTsync (k : Nat) (m : CtrlMsg) (s : State) : Out :=
  .next (s.onCtrl 0x04 m fun s => 
    if !s.portUp k then s
    else s.sendCtrl k 0x05 (2 ^ 208 * fieldOf m.body.toNat 208 16 + 2 ^ 144 * (s.tide % 2 ^ 64) + 2 ^ 80 * (s.tide % 2 ^ 64)) 0 0 0)

/-- Insert into a rising list. -/
def insertInt (x : Int) : List Int → List Int
  | [] => [x]
  | y :: ys => if x ≤ y then x :: y :: ys else y :: insertInt x ys

/-- The median of a list (R462). DESIGN CHOICE: of an even number, the two middle ones' mean, rounded down. -/
def median (xs : List Int) : Int :=
  let ys := xs.foldr insertInt []
  let n := ys.length
  if n % 2 = 1 then ys.getD (n / 2) 0 else (ys.getD (n / 2 - 1) 0 + ys.getD (n / 2) 0) / 2

/-- Step the tide count forward, and no elapsed unit with it; the cadence ticks between are missed (R459, R461). DEDUCED: the offsets held were measured against the former count and lose the step. -/
def State.stepTide (s : State) (x : Nat) : State :=
  let s1 := ((s.each partitionNumbers (fun t q => t.jumpTicks q x)).count 0x1420 6 0 32).count 0x1420 7 0 64 x
  { s1.each (List.range 16) (fun t k => t.modPort k (fun p => { p with offsets := p.offsets.map (fun o => o - x) })) with tide := s.tide + x }

/-- The steering of a device by its parent's filtered offset (R462). -/
def State.steer (s : State) (k : Nat) (offset delay : Int) : State :=
  let rate := max (-100000) (min 100000 (offset * 15625 / (s.obj 0x4000 7 : Nat)))
  let s1 := ((s.setObj 0x1420 4 0 (unsignedOf offset 32)).setObj 0x1420 5 0 (unsignedOf delay 32)).setObj 0x1420 8 0 (unsignedOf rate 32)
  if s.obj 0x1420 2 = 2 then
    let n := if -1 ≤ offset ∧ offset ≤ 1 then s.steady + 1 else 0
    if n ≥ 16 then { s1.setObj 0x1420 2 0 3 with steady := 0, wide := 0 } else { s1 with steady := n }
  else
    let n := if offset > 4 ∨ offset < -4 then s.wide + 1 else 0
    if n ≥ 4 then { (s1.setObj 0x1420 2 0 2).reportFor none clTiming (susPort k) susModule 0 0 with steady := 0, wide := 0 }
    else { s1 with wide := n }

/-- TSYNC_REPLY: the delay and the offset of the peer enter the port's filter; a neighbour ahead by more than 40 units steps the tide count, the parent steers it. -/
def execTsyncReply (k : Nat) (m : CtrlMsg) (t4 : Nat) (s : State) : Out :=
  .next (s.onCtrl 0x05 m fun s => 
    let v := m.body.toNat
    let p := s.port k
    if !s.portUp k ∨ fieldOf v 208 16 ≠ p.syncSeq then s
    else
      let t1 : Int := p.t1
      let t2 : Int := fieldOf v 144 64
      let t3 : Int := fieldOf v 80 64
      let delay := ((t4 - t1) - (t3 - t2)) / 2
      let offset := ((t2 - t1) - (t4 - t3)) / 2
      let s1 := s.modPort k (fun p => { p with offsets := (offset :: p.offsets).take 16 })
      let o := median (s1.port k).offsets
      if s.obj 0x1420 2 = 0 then s1
      else
        let s2 := if fieldOf (s.obj 0x1420 3) 12 4 = k ∧ s.obj 0x1420 2 ≥ 2 then s1.steer k o delay else s1
        if o > 40 then s2.stepTide o.toNat else s2)

/-! ### Management units and Ethernet (R325, R347, R350, R351) -/

/-- MGMT_UNIT: delivered as a Bamurn message, sent on by the route table, or discarded. `slots` counts its continuation slots. -/
def execMgmtUnit (k : Nat) (u : MgmtUnit) (slots : Nat) (s : State) : Out :=
  .next (
    if u.reserved ≠ 0 then s
    else if u.length = 0 ∨ u.length > 1536 ∨ slots > 48 ∨ slots ≠ (u.length + 31) / 32 ∨ u.hops > 3 then s.discardUnit k
    else if u.local' ∨ (s.obj 0x4000 0 ≠ 0xFFFF ∧ s.isOwn u.dst) then s.emit (.deliver (.link k u.src u.local') (u.bytes.take u.length))
    else match s.routePort u.dst with
      | some j => if u.hops = 3 then s.discardUnit k else s.sendUnit j { u with hops := u.hops + 1 }
      | none => s.discardUnit k)

/-- ETH_LINK_UP: a port in an Ethernet mode enters ETH_UP. -/
def execEthLinkUp (k : Nat) (s : State) : Out :=
  .next (if (s.port k).mode ≥ 2 ∧ s.portState k ≠ psDisabled then (s.toPortState k psEthUp).trained k else s)

/-- ETH_LINK_DOWN: a port in ETH_UP enters TRAINING. -/
def execEthLinkDown (k : Nat) (s : State) : Out :=
  .next (if s.portState k = psEthUp then s.train k none else s)

/-- Two bytes of a frame, the first more significant. PRESUMED (notes/assumptions/128.md): the layout of IEEE 802.3, IPv6, UDP and IEEE 1588 frames. -/
def frameU16 (b : List Byte) (i : Nat) : Nat := (b.getD i 0).toNat * 256 + (b.getD (i + 1) 0).toNat

/-- Does a frame carry a VLAN tag (R350)? -/
def isTagged (b : List Byte) : Bool := frameU16 b 12 == 0x8100 || frameU16 b 12 == 0x88A8

/-- Is a frame an IEEE 1588 event message, over Ethernet or over UDP/IPv6 (R351)? -/
def ptpEvent (b : List Byte) : Bool :=
  (frameU16 b 12 == 0x88F7 && decide ((b.getD 14 0).toNat % 16 < 4))
    || (frameU16 b 12 == 0x86DD && b.getD 20 0 == 17 && frameU16 b 56 == 319)

/-- The stamp a port puts on a frame as it passes: the tide count, for an event message where object 4010+k:14 is set (R351). -/
def State.frameStamp (s : State) (k : Nat) (b : List Byte) : Option Nat :=
  if s.obj (0x4010 + k) 0x14 = 1 ∧ ptpEvent b then some s.tide else none

/-- A frame leaves at a port (R350, R351). -/
def State.sendFrame (s : State) (k : Nat) (b : List Byte) : State :=
  let s1 := (s.count (0x4010 + k) 0x12 0 64).emit (.ethOut k b)
  (s.frameStamp k b).elim s1 (fun t => s1.emit (.ptpStamp k t))

/-- ETH_FRAME_RECEIVE: a frame is counted, stamped where R351 has it so, and given to the endpoint or IEEE 1588; a bad check sequence, a tag or a length outside 64-9,216 bytes drops it. -/
def execEthFrameReceive (k : Nat) (f : EthFrame) (s : State) : Out :=
  .next (
    if s.portState k ≠ psEthUp then s
    else if !f.fcsOk then s.count (0x4010 + k) 0x13 0 32
    else
      let s1 := s.count (0x4010 + k) 0x11 0 64
      if isTagged f.bytes ∨ f.bytes.length < 64 ∨ f.bytes.length > 9216 then s1
      else s1.emit (.frame k { f with stamp := s.frameStamp k f.bytes }))

end Sys2Proof.Machine
end

