-- ==== Sys2Proof/Machine/Service.lean ====
section
/-! DEFINITION. The services and the endpoint: requests of clients, admission, the sealing of step entries, the answers at a boundary (15_reeve_die_and_service.md R365-R376). The serving firmware's reads and writes of objects and of HBM happen within the command; the free places of its lists are `Config.laneListAt` and `Config.tokenListAt`. -/

namespace Sys2Proof.Machine

/-! ### Services (R368) -/

/-- A service. -/
def State.svc (s : State) (n : Nat) : Service := Tbl.get s.svcs {} n

/-- Change a service. -/
def State.modSvc (s : State) (n : Nat) (f : Service → Service) : State := { s with svcs := Tbl.put s.svcs {} n (f (s.svc n)) }

/-- A value of a service's applied configuration, by its subindex in 9100+s; the objects' defaults before the first apply. -/
def State.svcVal (s : State) (n sub : Nat) : Nat :=
  match (s.svc n).cfg with
  | [] => regDefault (okey (0x9100 + n) sub 0)
  | c => c.getD (sub - 1) 0

/-- The state of a service, object 9100+s:00. -/
def State.svcState (s : State) (n : Nat) : Nat := s.obj (0x9100 + n) 0

abbrev svStopped : Nat := 0
abbrev svStarting : Nat := 1
abbrev svRunning : Nat := 2
abbrev svRecovering : Nat := 3

/-- The partition of a service. -/
def State.svcPart (s : State) (n : Nat) : Nat := s.svcVal n 2

/-- The sixteen services. -/
abbrev serviceNumbers : List Nat := List.range 16

/-! ### Responses (R371, R373) -/

/-- Send a final response and count it (R371, R377). -/
def State.final (s : State) (c : Client) (reqId st : Nat) (more : CborMap := []) : State :=
  (s.emit (.response c ([(0, .uint 0), (1, .uint reqId), (2, .uint st)] ++ more))).count 0x9000 7 0 64

/-- Send a partial response (R372). -/
def State.partialTo (s : State) (c : Client) (reqId : Nat) (more : CborMap) : State :=
  s.emit (.response c ([(0, .uint 1), (1, .uint reqId), (2, .uint stOk)] ++ more))

/-- The word of a context_op (R272). -/
def ctxWord (op slot arg tenant partition : Nat) : Nat :=
  2 ^ 192 * arg + 2 ^ 160 * tenant + 2 ^ 142 * slot + 2 ^ 132 * partition + op

/-- Close a context for a request: answered at once, or once the slot leaves ACTIVE (R372). -/
def State.closeFor (s : State) (slot : Nat) (c : Client) (reqId : Nat) : State :=
  let r := ruleCtxClose (ctxWord 2 slot 0 0 0) s
  if r.2 = stPending then { r.1 with closers := r.1.closers ++ [(slot, c, reqId)] }
  else r.1.final c reqId r.2 [(6, .uint 4)]

/-- Answer the requests that wait for a context to leave ACTIVE. -/
def State.answerClosers (s : State) : State :=
  let gone := fun (e : Nat × Client × Nat) => (s.ctx e.1).st != .active && (s.ctx e.1).st != .closing
  ({ s with closers := s.closers.filter (fun e => !gone e) }).each (s.closers.filter gone) (fun t e => t.final e.2.1 e.2.2 stOk [(6, .uint 4)])

/-- A request ends: its final response, unless its connection is lost, then those that waited for its end (R373, R374). -/
def State.endReq (s : State) (n : Nat) (r : SvcReq) (st : Nat) (more : CborMap) : State :=
  let s1 := s.modSvc n (fun v => { v with waiting := v.waiting.filter (fun x => x.seq != r.seq), active := v.active.filter (fun x => x.seq != r.seq) })
  let s0 := s1.setCtx r.slot { s1.ctx r.slot with used := s1.elapsed }
  let s2 := if r.lost then s0 else s0.final r.client r.reqId st more
  s2.each r.askers (fun t a => if a.2.2 then t.closeFor r.slot a.1 a.2.1 else t.final a.1 a.2.1 stOk)

/-- What the final response of a request holds that ends before its work is done: a GENERATE the tokens not yet sent, of which none are left, the context's length, the reason (R372-R374). -/
def State.endKeys (s : State) (r : SvcReq) (reason : Nat) : CborMap :=
  (if r.gen then [(5, .array [])] else []) ++ [(4, .uint (Tbl.get s.lens 0 r.slot)), (6, .uint reason)]

/-- Every request and frame of a service is answered DEGRADED (R373). -/
def State.dropRequests (s : State) (n : Nat) : State :=
  let v := s.svc n
  let s1 := s.each (v.waiting ++ v.active) (fun t r => t.endReq n r stDegraded (t.endKeys r 5))
  (s1.each v.frames (fun t f => t.final f.client f.reqId stDegraded [(6, .uint 5)])).modSvc n (fun v =>
    { v with waiting := [], active := [], lanes := [], sealed := [], frames := [] })

/-! ### Starting and stopping (R368, R399) -/

/-- Is the job of a partition loaded and able to run steps? -/
def State.jobRuns (s : State) (q : Nat) : Bool :=
  s.jobState q == jsWaiting || s.jobState q == jsStepping || s.jobState q == jsDraining

/-- Start a service: it runs once its partition's job is loaded (R366, R368). DEDUCED: what ends the starting state. -/
def State.startSvc (s : State) (n : Nat) : State :=
  (s.setObj (0x9100 + n) 0 0 (if s.jobRuns (s.svcPart n) then svRunning else svStarting)).modSvc n (fun v => { v with nextKey := none })

/-- A service stops: its requests are answered, a start that was latched runs (R373, R399). -/
def State.stopNow (s : State) (n : Nat) : State :=
  let s1 := (s.dropRequests n).setObj (0x9100 + n) 0 0 svStopped
  let l := (s1.svc n).latch
  let s2 := s1.modSvc n (fun v => { v with stopAt := false, latch := none })
  if l = some 2 then s2.startSvc n else s2

/-- Stop a service at the next boundary; at once while no step runs (R368). -/
def State.stopSvc (s : State) (n : Nat) : State × Nat :=
  if s.jobState (s.svcPart n) = jsStepping ∨ s.jobState (s.svcPart n) = jsDraining then
    (s.modSvc n (fun v => { v with stopAt := true }), stPending)
  else (s.stopNow n, stOk)

/-- Does an area of the service lie in its partition's HBM window (R368)? -/
def State.svcAreasOk (s : State) (vals : List Nat) : Bool :=
  let v := fun (sub : Nat) => vals.getD (sub - 1) 0
  let q := v 2
  if v 1 = 2 then s.inWindow q (v 0xB) (v 0xC * 1024) && s.inWindow q (v 0xD) (v 0xE * 1024)
  else s.inWindow q (v 3) 0x100000 && s.inWindow q (v 4) 0x100000

/-- The own rule of object 9100+s:0F (R368, R399). -/
def ruleSvc (n v : Nat) (s : State) : State × Nat :=
  let st := s.svcState n
  if v = 1 then
    let vals := (List.range 14).map (fun i => s.obj (0x9100 + n) (i + 1))
    if st ≠ svStopped then (s, stBusy)
    else if !s.svcAreasOk vals then (s, stBadValue)
    else (s.modSvc n (fun x => { x with cfg := vals }), stOk)
  else if v = 2 then
    if st = svStopped then (s.startSvc n, stOk)
    else if (s.svc n).stopAt then (s.modSvc n (fun x => { x with latch := some 2 }), stRestartPending)
    else if st = svStarting ∧ (s.svc n).latch.isSome then (s.modSvc n (fun x => { x with latch := some 2 }), stRestartPending)
    else (s, stOk)
  else if v = 0 then
    if st = svStopped then (s, stOk)
    else if (s.svc n).stopAt ∨ st = svStarting then (s.modSvc n (fun x => { x with latch := some 0 }), stRestartPending)
    else s.stopSvc n
  else (s, stBadValue)

/-- SVC_APPLY: applies the service configuration. -/
def execSvcApply (sess n : Nat) (s : State) : Out := s.commandOut sess (0x9100 + n) 0xF (ruleSvc n 1)

/-- SVC_START: starts the service. -/
def execSvcStart (sess n : Nat) (s : State) : Out := s.commandOut sess (0x9100 + n) 0xF (ruleSvc n 2)

/-- SVC_STOP: stops the service at the next boundary. -/
def execSvcStop (sess n : Nat) (s : State) : Out := s.commandOut sess (0x9100 + n) 0xF (ruleSvc n 0)

/-! ### Reading a request (R369-R371) -/

/-- The value of a key. -/
def keyOf (m : CborMap) (k : Nat) : Option Cbor := (m.find? (fun e => e.1 == k)).map (·.2)

/-- The unsigned integer of a key. -/
def uintOf (m : CborMap) (k : Nat) : Option Nat :=
  match keyOf m k with
  | some (.uint n) => some n
  | _ => none

/-- An optional unsigned integer below a bound, with its default; none where it is no such value. -/
def uintOr (m : CborMap) (k d bound : Nat) : Option Nat :=
  match keyOf m k with
  | none => some d
  | some (.uint n) => if n < bound then some n else none
  | _ => none

/-- An optional binary32 value between two positive bit patterns, with its default. -/
def floatOr (m : CborMap) (k d lo hi : Nat) : Option Nat :=
  match keyOf m k with
  | none => some d
  | some (.float f) => if lo ≤ f.toNat ∧ f.toNat ≤ hi then some f.toNat else none
  | _ => none

/-- An array of at most `hi` and at least `lo` unsigned integers below `bound`. -/
def arrayOr (m : CborMap) (k lo hi bound : Nat) : Option (List Nat) :=
  match keyOf m k with
  | none => some []
  | some (.array xs) => if lo ≤ xs.length ∧ xs.length ≤ hi ∧ xs.all (fun x => decide (x < bound)) then some xs else none
  | _ => none

/-- The map of a request that is well formed for an operation: no larger than object 9000:06 allows, no key twice, none unknown, none missing (R370-R372). -/
def State.requestMap (s : State) (r : Request) (op : Nat) (need may : List Nat) : Option CborMap :=
  match r.map with
  | none => none
  | some m =>
    let ks := m.map (·.1)
    if r.size ≤ s.obj 0x9000 6 ∧ ks.eraseDups.length = ks.length ∧ uintOf m 0 = some op ∧ (uintOf m 1).isSome
        ∧ need.all ks.contains ∧ ks.all ([0, 1] ++ need ++ may).contains then some m else none

/-- The req_id that a response echoes; 0 where the request holds none. -/
def reqIdOf (r : Request) : Nat := (r.map.bind (fun m => uintOf m 1)).getD 0

/-- The tenant entry of a client (R369, R377). -/
def State.tenantOf (s : State) (c : Client) : Option Nat :=
  (s.objs 0x9010 0 256).find? (fun e => e != 0 && fieldOf e 128 256 == c.fingerprint)

def teTenant (e : Nat) : Nat := fieldOf e 96 32
def teMax (e : Nat) : Nat := fieldOf e 64 32
def teShare (e : Nat) : Nat := fieldOf e 56 8

/-- Is the endpoint open: in SERVICE, and in RECOVERY, where it holds requests (R9, R370, R374)? In every other mode it answers NOT_READY. -/
def State.endpointOpen (s : State) : Bool := s.device.mode == .service || s.device.mode == .recovery

/-- Does a service answer: the device mode SERVICE and the service running; requests of a service that recovers are held (R370, R374). -/
def State.answers (s : State) (n : Nat) : Bool :=
  s.endpointOpen && ((s.device.mode == .service && s.svcState n == svRunning) || s.svcState n == svRecovering)

/-- Refuse a request. -/
def State.refuseReq (s : State) (r : Request) (st : Nat) : Out := .next (s.final r.client (reqIdOf r) st)

/-! ### Contexts of clients (R372, R374, R375) -/

/-- The lowest slot number from `k` that holds no open context, by the descriptors listed. -/
def lowestFree : Nat → Tbl Ctx → Nat
  | k, [] => k
  | k, (j, c) :: r => if j = k ∧ c.st ≠ .free then lowestFree (k + 1) r else if j < k then lowestFree k r else k

/-- The slot that an OPEN_CONTEXT takes; none where every slot is taken. -/
def State.pickSlot (s : State) : State × Option Nat :=
  let d := s.draw
  let k := Config.openSlot d.1
  let low := lowestFree 0 s.ctxs
  if k < 262144 ∧ (s.ctx k).st = .free then (d.2, some k)
  else if low < 262144 then (d.2, some low) else (d.2, none)

/-- The open contexts of a tenant. -/
def State.openOf (s : State) (tenant : Nat) : Nat := (s.ctxs.filter (fun e => e.2.st != .free && e.2.tenant == tenant)).length

/-- OPEN_CONTEXT: opens a context of the connection's tenant in the service's partition. -/
def execReqOpenContext (r : Request) (s : State) : Out :=
  match s.requestMap r 1 [2] [9, 10] with
  | none => s.refuseReq r stBadValue
  | some m => match uintOr m 2 16 16, uintOr m 9 0 (2 ^ 64), uintOr m 10 128 256 with
    | some n, some seed, some prio =>
      if n ≥ 16 then s.refuseReq r stBadValue
      else if !s.answers n then s.refuseReq r stNotReady
      else match s.tenantOf r.client with
        | none => s.refuseReq r stAccessDenied
        | some e =>
          if s.openOf (teTenant e) ≥ teMax e then s.refuseReq r stRefused
          else match s.pickSlot with
            | (_, none) => s.refuseReq r stRefused
            | (s1, some slot) =>
              let x := ruleCtxOpen (ctxWord 1 slot seed (teTenant e) (s.svcPart n)) s1
              if x.2 ≠ stOk then .next (x.1.final r.client (reqIdOf r) x.2)
              else
                let s2 := (ruleCtxSetPriority (ctxWord 4 slot prio 0 0) x.1).1
                .next (({ s2 with lens := Tbl.put s2.lens 0 slot 0 }).final r.client (reqIdOf r) stOk
                  [(3, .uint (2 ^ 18 * (s2.ctx slot).epoch + slot))])
    | _, _, _ => s.refuseReq r stBadValue

/-- The service that runs in a partition. -/
def State.svcOf (s : State) (q : Nat) : Option Nat :=
  serviceNumbers.find? (fun n => s.svcState n != svStopped && s.svcPart n == q)

/-- The request in progress on a slot, with its service. -/
def State.reqOn (s : State) (slot : Nat) : Option (Nat × SvcReq) :=
  (serviceNumbers.flatMap (fun n => ((s.svc n).waiting ++ (s.svc n).active).map (fun r => (n, r)))).find? (fun e => e.2.slot == slot)

/-- The context that a request names: its slot and service, or the status it is answered (R370, R374). -/
def State.ctxFor (s : State) (r : Request) (v : Nat) : Except Nat (Nat × Nat × Nat) :=
  let slot := v % 2 ^ 18
  let c := s.ctx slot
  match s.svcOf c.partition, s.tenantOf r.client with
  | none, _ => .error stNotReady
  | _, none => .error stAccessDenied
  | some n, some e =>
    if !s.answers n then .error stNotReady
    else if c.st ≠ .free ∧ c.tenant ≠ teTenant e then .error stAccessDenied
    else if c.epoch ≠ v / 2 ^ 18 ∨ c.st = .free then .error stBadValue
    else .ok (slot, n, teTenant e)

/-- Queue an APPEND or GENERATE, or answer BUSY (R374, R375). -/
def State.queueReq (s : State) (n : Nat) (x : SvcReq) : State :=
  if (s.svc n).waiting.length ≥ s.svcVal n 9 then (s.count 0x9000 8 0 32).final x.client x.reqId stBusy
  else { s.modSvc n (fun v => { v with waiting := v.waiting ++ [{ x with seq := s.svcSeq }] }) with svcSeq := s.svcSeq + 1 }

/-- APPEND: queues tokens to append to a context. -/
def execReqAppend (r : Request) (s : State) : Out :=
  match s.requestMap r 2 [3, 4] [] with
  | none => s.refuseReq r stBadValue
  | some m => match uintOf m 3, arrayOr m 4 1 65536 (2 ^ 32 - 1) with
    | some v, some ts => match s.ctxFor r v with
      | .error st => s.refuseReq r st
      | .ok (slot, n, tenant) =>
        if (s.reqOn slot).isSome then s.refuseReq r stBusy
        else if Tbl.get s.lens 0 slot + ts.length > s.svcVal n 8 then s.refuseReq r stBadValue
        else .next (s.queueReq n { client := r.client, reqId := reqIdOf r, gen := false, slot := slot, tenant := tenant, tokens := ts, seq := 0 })
    | _, _ => s.refuseReq r stBadValue

/-- GENERATE: queues the generation of tokens. -/
def execReqGenerate (r : Request) (s : State) : Out :=
  match s.requestMap r 3 [3, 5] [4, 6, 7, 8] with
  | none => s.refuseReq r stBadValue
  | some m => match uintOf m 3, uintOf m 5, arrayOr m 4 1 65536 (2 ^ 32 - 1), floatOr m 6 0x3F800000 0 0x40000000,
      floatOr m 7 0x3F800000 1 0x3F800000, arrayOr m 8 0 4 (2 ^ 32) with
    | some v, some k, some ts, some temp, some topP, some stop =>
      if k = 0 ∨ k > 16383 then s.refuseReq r stBadValue
      else match s.ctxFor r v with
        | .error st => s.refuseReq r st
        | .ok (slot, n, tenant) =>
          if (s.reqOn slot).isSome then s.refuseReq r stBusy
          else .next (s.queueReq n { client := r.client, reqId := reqIdOf r, gen := true, slot := slot, tenant := tenant, tokens := ts, sample := !ts.isEmpty, temp := temp, topP := topP, stop := stop, left := k, seq := 0 })
    | _, _, _, _, _, _ => s.refuseReq r stBadValue

/-- Change a request in progress. -/
def State.modReq (s : State) (n seq : Nat) (f : SvcReq → SvcReq) : State :=
  let g := fun (xs : List SvcReq) => xs.map (fun x => if x.seq = seq then f x else x)
  s.modSvc n (fun v => { v with waiting := g v.waiting, active := g v.active })

/-- A request that is to leave: at once where no sealed entry still holds its lane, else after the last such boundary (R374). -/
def State.leaveReq (s : State) (n : Nat) (r : SvcReq) : State :=
  match s.reqOn r.slot with
  | some (_, x) =>
    if x.lastKey.elim false (fun k => (s.svc n).sealed.any (fun e => e.1 == k)) then s
    else s.endReq n x stOk (s.endKeys x (x.leave.getD 3))
  | none => s

/-- CANCEL and CLOSE_CONTEXT during a request (R374). -/
def State.cancelReq (s : State) (n : Nat) (x : SvcReq) (r : Request) (close : Bool) : State :=
  (s.modReq n x.seq (fun y => { y with leave := some (if close then 4 else y.leave.getD 3), askers := y.askers ++ [(r.client, reqIdOf r, close)] })).leaveReq n x

/-- CANCEL: the context's lane leaves the next unsealed entry; with nothing in progress, OK. -/
def execReqCancel (r : Request) (s : State) : Out :=
  match s.requestMap r 4 [3] [] with
  | none => s.refuseReq r stBadValue
  | some m => match uintOf m 3 with
    | none => s.refuseReq r stBadValue
    | some v => match s.ctxFor r v with
      | .error st => s.refuseReq r st
      | .ok (slot, _, _) => match s.reqOn slot with
        | none => .next (s.final r.client (reqIdOf r) stOk)
        | some (n, x) => .next (s.cancelReq n x r false)

/-- CLOSE_CONTEXT: closes the context, after the request in progress ends. -/
def execReqCloseContext (r : Request) (s : State) : Out :=
  match s.requestMap r 5 [3] [] with
  | none => s.refuseReq r stBadValue
  | some m => match uintOf m 3 with
    | none => s.refuseReq r stBadValue
    | some v => match s.ctxFor r v with
      | .error st => s.refuseReq r st
      | .ok (slot, _, _) => match s.reqOn slot with
        | none => .next (s.closeFor slot r.client (reqIdOf r))
        | some (n, x) => .next (s.cancelReq n x r true)

/-- CONNECTION_LOST: the connection's requests in progress leave as by CANCEL; nobody is answered on it. -/
def execConnectionLost (conn : Nat) (s : State) : Out :=
  .next (s.each serviceNumbers (fun t n =>
    t.each (((t.svc n).waiting ++ (t.svc n).active).filter (fun r => r.client.conn == conn)) (fun u r =>
      (u.modReq n r.seq (fun y => { y with leave := some (y.leave.getD 3), lost := true })).leaveReq n r)))

/-- CONTEXT_IDLE_TIMEOUT: a context unused for context_idle_s is closed as by CLOSE_CONTEXT. DEDUCED: a context is used when it is opened and while a request of it is in progress. -/
def execContextIdleTimeout (slot : Nat) (s : State) : Out :=
  .next (if (s.ctx slot).st = .free ∨ (s.reqOn slot).isSome ∨ s.elapsed < (s.ctx slot).used + secTide * s.obj 0x9000 5 then s else (ruleCtxClose (ctxWord 2 slot 0 0 0) s).1)

/-- RECOVERY_RESUME_TIMEOUT: the job was not resumed within 5 s of the recovery reset; the service's requests are answered DEGRADED. DEDUCED: the 5 s run from the reset's trigger. -/
def execRecoveryResumeTimeout (n : Nat) (s : State) : Out :=
  .next (if s.svcState n = svRecovering ∧ s.faults.recoverAt + 5 * secTide ≤ s.elapsed then s.dropRequests n else s)

/-- STATUS: answered with the info map; NOT_READY while the endpoint is not open or the service it names does not run (R370). -/
def execReqStatus (r : Request) (s : State) : Out :=
  match s.requestMap r 7 [] [2, 3] with
  | none => s.refuseReq r stBadValue
  | some m => match uintOr m 2 16 16, uintOr m 3 (2 ^ 50) (2 ^ 50), s.tenantOf r.client with
    | some n, some v, some e =>
      if !s.endpointOpen ∨ (n < 16 ∧ !s.answers n) then s.refuseReq r stNotReady else
      let own := fun (k : Nat) => [(1, s.svcState k), (3, (s.svc k).waiting.length), (4, (s.svc k).lanes.length)]
      let base := [(0, s.device.mode.code), (2, s.openOf (teTenant e))]
      if v < 2 ^ 50 then
        let slot := v % 2 ^ 18
        let c := s.ctx slot
        if c.st ≠ .free ∧ c.tenant ≠ teTenant e then s.refuseReq r stAccessDenied
        else if c.epoch ≠ v / 2 ^ 18 ∨ c.st = .free then s.refuseReq r stBadValue
        else .next (s.final r.client (reqIdOf r) stOk [(9, .info (base ++ (s.svcOf c.partition).elim [] own
          ++ [(5, Tbl.get s.lens 0 slot), (6, c.st.code)]))])
      else .next (s.final r.client (reqIdOf r) stOk [(9, .info (base ++ (if n < 16 then own n else [])))])
    | _, _, none => s.refuseReq r stAccessDenied
    | _, _, _ => s.refuseReq r stBadValue

/-! ### Sealing an entry (R230, R265, R366, R375) -/

/-- A request before another: descending priority of its context, then arrival order (R375). -/
def State.reqBefore (s : State) (a b : SvcReq) : Bool :=
  decide ((s.ctx a.slot).priority > (s.ctx b.slot).priority)
    || ((s.ctx a.slot).priority == (s.ctx b.slot).priority && decide (a.seq < b.seq))

/-- Insert a request in admission order. -/
def State.insertReq (s : State) (x : SvcReq) : List SvcReq → List SvcReq
  | [] => [x]
  | y :: ys => if s.reqBefore x y then x :: y :: ys else y :: State.insertReq s x ys

/-- The share of max_lanes a tenant may hold while others wait, in lanes (R375). -/
def State.shareOf (s : State) (n tenant : Nat) : Nat :=
  ((((s.objs 0x9010 0 256).find? (fun e => e != 0 && teTenant e == tenant)).map teShare).getD 100) * s.svcVal n 5 / 100

/-- Admit waiting requests in order while lanes and appended tokens stay within their limits (R375). Answers the requests admitted. -/
def State.admitReqs (s : State) (n : Nat) : List SvcReq → List SvcReq → Nat → List SvcReq
  | [], chosen, _ => chosen
  | x :: rest, chosen, budget =>
    let k := min (s.svcVal n 7) x.tokens.length
    let others := (s.svc n).waiting.any (fun y => y.tenant != x.tenant)
    if chosen.length + 1 > s.svcVal n 5 ∨ k > budget then chosen
    else if others ∧ chosen.countP (fun y => y.tenant == x.tenant) + 1 > s.shareOf n x.tenant then State.admitReqs s n rest chosen budget
    else State.admitReqs s n rest (chosen ++ [x]) (budget - k)

/-- The tokens that each lane appends in the entry: at most prefill_chunk each and prefill_tokens together (R375). -/
def chunksOf (chunk : Nat) : Nat → List SvcReq → List Nat
  | _, [] => []
  | budget, x :: xs =>
    let k := min (min chunk x.tokens.length) budget
    k :: chunksOf chunk (budget - k) xs

/-- The input record of a lane (R366); `k` tokens are appended. DEDUCED: a GENERATE whose token list needs several entries samples with the last one. -/
def inputRecord (r : SvcReq) (k offset : Nat) : Nat :=
  let last := decide (k = r.tokens.length)
  let mode := if !r.gen ∨ (r.sample ∧ !last) then 1 else if r.sample then 2 else 3
  let stops := (List.range 4).map (fun i => 2 ^ (384 + 32 * i) * r.stop.getD i 0xFFFFFFFF)
  stops.sum + 2 ^ 320 * offset + 2 ^ 288 * r.temp + 2 ^ 256 * r.topP + 2 ^ 224 * (if mode = 1 then 0 else r.left) + 2 ^ 208 * k + 2 ^ 200 * mode

/-- A word of `w`-bit values, the first lowest. -/
def packWords (w : Nat) (xs : List Nat) : Nat := (xs.zipIdx.map (fun e => 2 ^ (w * e.2) * (e.1 % 2 ^ w))).sum

/-- Before a context runs in a job other than the one it last ran in, the commit words of its position's two groups are zeroed (R265). -/
def State.prepareCtx (s : State) (q slot : Nat) : State :=
  let c := s.ctx slot
  let g := c.position / 8
  if c.jobId = s.jobId q ∨ (s.job q).elim false (fun j => j.prepared.contains slot) ∨ !eValid c.commitEntry then s
  else (s.zeroRows (eDdr c.commitEntry) (s.pageAddr c.partition (eDdr c.commitEntry) (eIndex c.commitEntry) / 32 + g) (min 2 (pageRows - g))).modJob q (fun j =>
    { j with prepared := slot :: j.prepared })

/-- The key of the next entry of a service: after the last one sealed; else that of the job's next step (R229). -/
def State.entryKey (s : State) (n : Nat) : Nat :=
  let q := s.svcPart n
  match (s.svc n).nextKey with
  | some k => k
  | none => if s.jobState q = jsWaiting then s.step' q else s.step' q + 1

/-- Write a step entry; its seal last (R229, R230). -/
def State.writeEntry (s : State) (q key lanes list : Nat) : State :=
  match s.job q with
  | none => s
  | some j =>
    s.ringPut false (s.winRow q (j.hdr.ringOffset + key % 2 ^ j.hdr.ringLog2 * 256)) 8
      (2 ^ 1984 * (2 ^ 64 - 1 - key % 2 ^ 64) + 2 ^ 128 * lanes + 2 ^ 64 * list + key)

/-- ENTRY_SEAL: the next entry of a language service is built from the continuing lanes and the requests admitted, its input records, token lists and lane list written, then the entry. -/
def execEntrySeal (n : Nat) (s : State) : Out :=
  .next (
    let q := s.svcPart n
    if s.svcState n ≠ svRunning ∨ s.svcVal n 1 ≠ 1 ∨ !s.jobRuns q then s
    else
      let v := s.svc n
      let key := s.entryKey n
      let cont := (v.lanes.filterMap (fun i => v.active.find? (fun r => r.seq == i))).filter (fun r => r.leave.isNone && (r.gen || !r.tokens.isEmpty))
      let budget := s.svcVal n 6 - (chunksOf (s.svcVal n 7) (s.svcVal n 6) cont).sum
      let order := (v.waiting.filter (fun r => r.leave.isNone)).foldr (fun x acc => s.insertReq x acc) []
      let all := s.admitReqs n order cont budget
      let ks := chunksOf (s.svcVal n 7) (s.svcVal n 6) all
      let lanes := all.zip ks
      let s1 := lanes.zipIdx.foldl (fun t e =>
        let r := e.1.1
        let off := 32 * Config.tokenListAt n key e.2
        let t1 := (t.prepareCtx q r.slot).ringPut false (t.winRow q off) ((4 * e.1.2 + 31) / 32) (packWords 32 (r.tokens.take e.1.2))
        t1.ringPut false (t1.winRow q (t1.svcVal n 3 + 64 * (8192 * (key % 2) + e.2))) 2 (inputRecord r e.1.2 off)) s
      let list := 32 * Config.laneListAt n key
      let s2 := s1.ringPut false (s1.winRow q list) ((4 * all.length + 31) / 32) (packWords 32 (all.map (·.slot)))
      let s3 := s2.writeEntry q key all.length list
      let next := lanes.map (fun e =>
        let r := e.1
        let rest := r.tokens.drop e.2
        { r with tokens := rest, sample := r.sample && !rest.isEmpty, lastKey := some key })
      s3.modSvc n (fun w => { w with
        waiting := w.waiting.filter (fun r => !all.any (fun x => x.seq == r.seq)),
        active := w.active.filter (fun r => !all.any (fun x => x.seq == r.seq)) ++ next,
        lanes := all.map (·.seq), sealed := w.sealed ++ [(key, all.map (·.seq))], nextKey := some (key + 1) }))

/-! ### Vision (R376) -/

/-- The groups of a vision service. -/
def State.svcGroups (s : State) (n : Nat) : Nat := max 1 (s.svcVal n 0xA)

/-- The place of a stream's frame or result of a tick, in units of its size (R376). -/
def visionIndex (groups tick stream : Nat) : Nat := 512 * (tick / groups % 2) + stream

/-- SUBMIT_FRAME: a frame waits for its group's next tick; it supersedes the stream's frame that waits. -/
def execReqSubmitFrame (r : Request) (s : State) : Out :=
  match s.requestMap r 6 [2, 11, 12] [] with
  | none => s.refuseReq r stBadValue
  | some m => match uintOr m 2 16 16, uintOr m 11 512 512, keyOf m 12 with
    | some n, some t, some (.bytes b) =>
      if n ≥ 16 ∨ t ≥ 512 then s.refuseReq r stBadValue
      else if !s.answers n then s.refuseReq r stNotReady
      else if s.svcVal n 1 ≠ 2 ∨ b.length ≠ s.svcVal n 0xC then s.refuseReq r stBadValue
      else
        let old := (s.svc n).frames.filter (fun f => f.stream == t && f.tick.isNone)
        let s1 := s.each old (fun u f => u.final f.client f.reqId stRefused [(6, .uint 17)])
        .next (s1.modSvc n (fun v => { v with frames := v.frames.filter (fun f => !(f.stream == t && f.tick.isNone))
          ++ [{ stream := t, client := r.client, reqId := reqIdOf r, bytes := b }] }))
    | _, _, _ => s.refuseReq r stBadValue

/-- VISION_TICK_SEAL: the frames that wait in the tick's group are placed and the tick's entry is sealed. -/
def execVisionTickSeal (n tick : Nat) (s : State) : Out :=
  .next (
    let q := s.svcPart n
    if s.svcState n ≠ svRunning ∨ s.svcVal n 1 ≠ 2 ∨ !s.jobRuns q then s
    else
      let g := s.svcGroups n
      let mine := fun (f : SvcFrame) => f.tick.isNone && f.stream % g == tick % g
      let s1 := s.each ((s.svc n).frames.filter mine) (fun t f =>
        t.ringPut false (t.winRow q (t.svcVal n 0xB + t.svcVal n 0xC * visionIndex g tick f.stream)) (f.bytes.length / 32) (leNat f.bytes))
      (s1.writeEntry q tick 0 0).modSvc n (fun v => { v with
        frames := v.frames.map (fun f => if mine f then { f with tick := some tick } else f), sealed := v.sealed ++ [(tick, [])] }))

/-! ### Boundaries (R365, R367, R372-R374) -/

/-- The output record of a lane (R367). -/
structure OutRecord where
  tokens : List Nat
  length : Nat
  count  : Nat
  left   : Nat
  flags  : Nat
  deriving DecidableEq, Repr

/-- Read the output record of a lane for a step; none where it decodes uncorrectable. -/
def State.readOutput (s : State) (n step lane : Nat) : State × Option OutRecord :=
  let q := s.svcPart n
  match s.ringWord false (s.winRow q (s.svcVal n 4 + 64 * (8192 * (step % 2) + lane))) (some q) 2 with
  | (s1, none) => (s1, none)
  | (s1, some v) =>
    let k := min 9 (fieldOf v 64 16)
    (s1, some { tokens := (List.range k).map (fun j => fieldOf v (128 + 32 * j) 32), length := fieldOf v 96 32, count := k,
                left := fieldOf v 32 32, flags := fieldOf v 0 8 })

/-- The reason of a request that its output record ends (R367, R373). -/
def doneReason (flags : Nat) : Nat := if bitOf flags 1 then 1 else if bitOf flags 2 then 2 else 0

/-- One lane of a completed step: the context's position and length follow its record, and its request is answered (R265, R367, R372). -/
def State.laneDone (s : State) (n step lane seq : Nat) : State :=
  match (s.svc n).active.find? (fun r => r.seq == seq) with
  | none => s
  | some r => match s.readOutput n step lane with
    | (s1, none) => s1
    | (s1, some o) =>
      let s2 := { s1 with lens := Tbl.put s1.lens 0 r.slot o.length }
      let s3 := (ruleCtxSetPosition (ctxWord 3 r.slot (o.length - 1) 0 0) s2).1
      if !r.gen then
        if r.tokens.isEmpty ∧ r.lastKey = some step then s3.endReq n r stOk [(4, .uint o.length)] else s3
      else if bitOf o.flags 0 then s3.endReq n r stOk [(5, .array o.tokens), (4, .uint o.length), (6, .uint (doneReason o.flags))]
      else
        let s4 := s3.modReq n seq (fun x => { x with left := o.left })
        if o.count > 0 ∧ !r.lost then s4.partialTo r.client r.reqId [(5, .array o.tokens), (4, .uint o.length)] else s4

/-- The disposition of the entry of a key, as the sequencer wrote it (R229). -/
def State.entryDisposition (s : State) (q key : Nat) : Nat :=
  match s.job q with
  | none => 0
  | some j => match (s.ringRead false (s.winRow q (j.hdr.ringOffset + key % 2 ^ j.hdr.ringLog2 * 256) + 7) (some q)).2 with
    | some d => fieldOf d.toNat 184 8
    | none => 0

/-- A vision tick that ran or was dropped: its frames are answered (R373, R376). -/
def State.tickDone (s : State) (n tick : Nat) : State :=
  let q := s.svcPart n
  let d := s.entryDisposition q tick
  let fs := (s.svc n).frames.filter (fun f => f.tick == some tick)
  let drop := fun (t : State) => t.modSvc n (fun v => { v with frames := v.frames.filter (fun f => f.tick != some tick), sealed := v.sealed.filter (fun e => e.1 != tick) })
  if d = 3 then drop (s.each fs (fun t f => t.final f.client f.reqId stRefused [(6, .uint 16)]))
  else if d = 2 then
    drop (s.each fs (fun t f =>
      let b := t.svcVal n 0xE
      match t.ringWord false (t.winRow q (t.svcVal n 0xD + b * visionIndex (t.svcGroups n) tick f.stream)) (some q) (b / 32) with
      | (u, some v) => u.final f.client f.reqId stOk [(7, .bytes (leBytes b v)), (8, .uint tick)]
      | (u, none) => u.final f.client f.reqId stUncorrectable))
  else s

/-- EVENT_BOUNDARY: the serving firmware reads the output records of the step and answers clients; a stop that waited takes effect. -/
def execEventBoundary (m : Nat) (d : DtlMsg) (s : State) : Out :=
  .next (s.onDtl m false d fun s1 =>
    let q := d.partition
    let step := d.addr
    (s1.each (serviceNumbers.filter (fun n => s1.svcState n != svStopped && s1.svcPart n == q)) (fun t n =>
      let t1 := if t.svcVal n 1 = 2 then t.each ((t.svc n).sealed.map (·.1)) (fun u k => u.tickDone n k)
        else if fieldOf d.arg 8 8 = 2 then
          match (t.svc n).sealed.find? (fun e => e.1 == step) with
          | none => t
          | some e =>
            let u := (e.2.zipIdx).foldl (fun u x => u.laneDone n step x.2 x.1) t
            let u1 := u.modSvc n (fun v => { v with sealed := v.sealed.filter (fun x => decide (x.1 > step)) })
            u1.each ((u1.svc n).active.filter (fun r => r.leave.isSome)) (fun w r => w.leaveReq n r)
        else t
      if (t1.svc n).stopAt then t1.stopNow n else t1)).answerClosers)

/-- The serving firmware reloads the job of a service that recovers, by OBJ_REQ on module `m` (R364, R374, R484). -/
def State.reloadJob (s : State) (m q : Nat) : State :=
  s.dtlOut m true { dtype := 0x09, addr := (0x5010 + q) * 65536 + 256, arg := 2, cells := [encodeRow 1] }

/-- EVENT_JOB_STATE: a service that starts or recovers runs once its job does; the firmware reloads the job of a service that recovers. -/
def execEventJobState (m : Nat) (d : DtlMsg) (s : State) : Out :=
  .next (s.onDtl m false d fun s1 =>
    let q := d.partition
    let st := fieldOf d.arg 8 8
    (s1.each (serviceNumbers.filter (fun n => (s1.svcState n == svStarting || s1.svcState n == svRecovering) && s1.svcPart n == q)) (fun t n =>
      if st = jsWaiting ∨ st = jsStepping then
        let t1 := (t.setObj (0x9100 + n) 0 0 svRunning).modSvc n (fun v => { v with nextKey := none, sealed := [] })
        let l := (t1.svc n).latch
        let t2 := t1.modSvc n (fun v => { v with latch := none })
        if l = some 0 then (t2.stopSvc n).1 else t2
      else if st = jsNone ∧ t.svcState n = svRecovering then
        t.reloadJob m q
      else t)).answerClosers)

end Sys2Proof.Machine
end

