-- ==== Sys2Proof/Machine/Records.lean ====
section
/-! DEFINITION. The record flash (R400-R403): the bytes of a record, a persistent write with its commit byte, the scan of both areas at a start, compaction. -/

namespace Sys2Proof.Machine

/-- A value padded with zero bytes to a multiple of 16 (R401). -/
def padded (v : List Byte) : List Byte := v ++ List.replicate ((16 - v.length % 16) % 16) 0

/-- The header bits [95:0] of a record (R401). -/
def recordHeader (seq index sub ty len : Nat) : Nat :=
  0xB5 + sub % 256 * 2 ^ 8 + 2 ^ 16 * (index % 65536) + 2 ^ 40 * (ty % 256) + 2 ^ 48 * (len % 65536) + 2 ^ 64 * (seq % 2 ^ 32)

/-- The CRC of a record: over header bits [95:0] and the padded value (R401). -/
def recordCrc (seq index sub ty : Nat) (value : List Byte) : Nat :=
  (crc32c (leBytes 12 (recordHeader seq index sub ty value.length) ++ padded value)).toNat

/-- Does a record satisfy the conditions of the scan (R402)? -/
def FlashRec.valid (r : FlashRec) : Bool := r.commit && r.crc == recordCrc r.seq r.index r.sub r.ty r.value

/-- The bytes a record takes (R401). -/
def FlashRec.bytes (r : FlashRec) : Nat := 32 + (padded r.value).length

/-- Every record of both areas. -/
def RecFlash.all (f : RecFlash) : List FlashRec := f.current ++ f.other

/-- The highest sequence number in either area (R401). -/
def RecFlash.highest (f : RecFlash) : Nat := (f.all.map (·.seq)).foldl max 0

/-- The bytes free in the current area of 32 MiB (R403). -/
def RecFlash.free (f : RecFlash) : Nat := 0x2000000 - (f.current.map FlashRec.bytes).sum

/-- The newest valid record of an object among records (R402). -/
def newestOf (rs : List FlashRec) (index sub : Nat) : Option FlashRec :=
  (rs.filter (fun r => r.valid && r.index == index && r.sub == sub)).foldl (fun b r =>
    match b with
    | some x => if x.seq < r.seq then some r else b
    | none => some r) none

/-- A committed record. -/
def FlashRec.make (seq index sub ty : Nat) (value : List Byte) : FlashRec :=
  { seq := seq, index := index, sub := sub, ty := ty, value := value, crc := recordCrc seq index sub ty value, commit := true }

/-- The records that a compaction copies: the newest valid one of every object, numbered from `seq` (R403). -/
def RecFlash.copied (f : RecFlash) : List FlashRec :=
  let keep := f.all.filter (fun r => newestOf f.all r.index r.sub == some r)
  (keep.zipIdx).map (fun e => FlashRec.make (f.highest + 1 + e.2) e.1.index e.1.sub e.1.ty e.1.value)

/-- Compact where the current area has less than 1 MiB free (R403). -/
def State.compact (s : State) : State :=
  let f := s.bamurn.flash
  if f.free ≥ 0x100000 then s
  else { s with bamurn := { s.bamurn with flash := { f with current := f.copied, other := [] } } }.count 0x0210 1 0 32

/-- A persistent write of a value already checked: BUSY beyond 100 in a second, REFUSED and reported where programming fails; otherwise a committed record (R400, R401). -/
def State.storeRecord (s : State) (index sub ty : Nat) (value : List Byte) : State × Nat :=
  let f := s.bamurn.flash
  if f.inSecond ≥ 100 then (s, stBusy)
  else if !f.ok then (s.reportFor none clStorage (susReeve 1) (susReeve 1) stRefused (index * 256 + sub), stRefused)
  else
    let r := FlashRec.make (f.highest + 1) index sub ty value
    ({ s with bamurn := { s.bamurn with flash := { f with current := f.current ++ [r], inSecond := f.inSecond + 1 } } }.compact, stOk)

/-- Numbers of `size` bytes each (R393). -/
def chunked (size : Nat) (bs : List Byte) : List Nat :=
  if size = 0 then [] else (List.range (bs.length / size)).map (fun i => leNat ((bs.drop (i * size)).take size))

/-- Give an object the value of a record. -/
def State.restore (s : State) (r : FlashRec) : State :=
  match objAt r.index r.sub with
  | none => s
  | some d =>
    if d.access ≠ 3 then s
    else if r.index = 0x8020 ∧ r.sub = 2 then { s with sec := { s.sec with tlsChain := r.value } }
    else if d.ty = 11 then s.setObjs r.index r.sub 0 (chunked d.size r.value)
    else s.setObj r.index r.sub 0 (leNat r.value)

/-- The scan of a start: every object takes its newest valid record, of those objects that `want` admits; every other record is ignored, and the invalid ones are counted in object 0210:02 (R402, R488). -/
def State.scanFlash (s : State) (want : Nat → Bool) : State :=
  let rs := s.bamurn.flash.all
  let s1 := s.setObj 0x0210 2 0 (rs.filter (fun r => newestOf rs r.index r.sub != some r)).length
  s1.each (rs.filter (fun r => newestOf rs r.index r.sub == some r && want r.index)) State.restore

/-- The outcome of a write to a persistent object with a rule of its own: the checks, the record, then the value (R396, R400). -/
def State.persistOut (s : State) (sess index sub ty : Nat) (value : List Byte) (own : State → State × Nat) : Out :=
  match s.writeGuard sess index sub with
  | some st => .next (s.answer sess index sub st)
  | none =>
    if (own s).2 ≠ stOk then .next ((own s).1.answer sess index sub (own s).2)
    else
      let r := s.storeRecord index sub ty value
      if r.2 ≠ stOk then .next (r.1.answer sess index sub r.2)
      else .next ((own r.1).1.answer sess index sub (own r.1).2)

end Sys2Proof.Machine
end

