-- ==== Sys2Proof/Machine/Starts.lean ====
section
/-! DEFINITION. What starts, closes and recovery resets share (R9, R409, R467, R485-R488, R515): what survives a start, the beginning of a start, the boot record, a failed start, the save and close, the beginning of a recovery reset. -/

namespace Sys2Proof.Machine

/-! ### The start of a start (R467) -/

/-- Does a register keep its value over a cold or warm start? The fuses, the objects the spec calls persistent, the stored floor plan, and the boot ROM's image choice, and of the state objects only DARK, failed and RETIRED (R417, R325, R455, R473, R544). A persistent object that a write sets takes its value from the record flash in S1. -/
def survives (e : Nat × Nat) : Bool :=
  let sub := e.1 / 65536 % 256
  let index := e.1 / 16777216
  if 0x1040 ≤ index ∧ index < 0x109A ∧ sub = 0 then e.2 == plDark
  else if 0x1450 ≤ index ∧ index < 0x14AA ∧ sub = 0 then e.2 == 4
  else if 0x4010 ≤ index ∧ index < 0x4020 ∧ sub = 1 then e.2 == psRetired
  else if index = 0x7060 ∧ sub = 4 then true
  else match objAt index sub with
    | some d => d.keep && d.access != 3
    | none => false

/-- What a memory server keeps over a start: the rows and banks retired (R318, R319). -/
def MemServer.kept (m : MemServer) : MemServer := { retired := m.retired, banks := m.banks }

/-- What is left of the state once the logic of both dies is reset: persistent objects and state, the tide count and the units elapsed, what has been sent (R467, R556). HBM and DDR5 contents are lost (R322). -/
def State.blank (s : State) : State :=
  { pending := s.pending, sent := s.sent, fresh := s.fresh, tide := s.tide, elapsed := s.elapsed,
    regs := s.regs.filter survives,
    bamurn := { flash := { s.bamurn.flash with inSecond := 0 } },
    floor := s.floor,
    tiles := Tbl.keep s.tiles {} (fun t => { before := t.before, cause := t.cause }),
    hbms := Tbl.keep s.hbms {} MemServer.kept,
    channels := Tbl.keep s.channels {} MemServer.kept,
    spans := s.spans,
    faults := { history := s.faults.history.map HistEntry.restored, stored := s.faults.stored },
    pkg := { active := s.pkg.active },
    ufrs := s.ufrKept, ufrKept := s.ufrKept,
    running := s.running,
    power := { s.power with closed := false, sag := none, over125 := [], over150 := [], suspect := [], local' := [], capHold := false },
    boot := { saved := s.boot.saved, memNext := s.boot.memNext, badCluster := s.boot.badCluster },
    sec := { images := s.sec.images, lastBad := s.sec.lastBad, creds := s.sec.creds, keyGens := s.sec.keyGens, tlsNext := s.sec.tlsNext,
             tlsKey := s.sec.tlsKey, tlsChain := s.sec.tlsChain, unlocked := s.sec.unlocked, debugRead := s.sec.debugRead } }

/-- Begin a cold (1) or warm (2) start: STARTUP mode, stage S0, every session ended (R391, R467, R473). -/
def State.startUp (s : State) (kind : Nat) : State :=
  let cold := kind == 1
  let s1 := { s.blank with tide := if cold then 0 else s.tide, elapsed := if cold then 0 else s.elapsed }
  let s2 := { s1 with boot := { s1.boot with active := true, began := s1.tide, startedAt := s1.elapsed, stageAt := s1.elapsed, adjust := s1.obj 0x7000 6 } }
  let s3 := if cold then { s2 with sec := { s2.sec with unlocked := false, debugRead := false } } else s2
  let s4 := (((s3.setObj 0x7000 0 0 kind).setObj 0x7000 3 0 0).setObj 0x7000 4 0 s3.tide).setObj 0x6010 1 0 s3.faults.stored
  let s5 := (s4.setObj 0x8040 0 0 (if s4.sec.unlocked then 1 else 0)).count 0x7000 7 0 32
  s5.emits [.pin .presentN false, .pin .pgood true, .pin .alertN true]

/-! ### The boot record and a failed start (R485-R488) -/

/-- A boot record (R485). -/
def State.bootRecord (s : State) (result unit reason stage : Nat) (flag0 : Bool) : Nat :=
  let b := s.boot
  2 ^ 64 * (s.tilesOffered % 2 ^ 16) + 2 ^ 32 * (b.rows % 2 ^ 32)
    + 2 ^ 80 * ((if flag0 then 1 else 0) + (if b.mismatch then 2 else 0) + (if b.full then 4 else 0))
    + 2 ^ 88 * (s.running % 256) + 2 ^ 96 * (b.adjust % 256) + 2 ^ 104 * result + 2 ^ 112 * (s.obj 0x7000 2 % 256)
    + 2 ^ 120 * b.testDdr + 2 ^ 124 * b.testHbm + 2 ^ 128 * (s.obj 0x7000 0 % 16) + 2 ^ 132 * (stage % 16)
    + 2 ^ 136 * reason + 2 ^ 144 * (unit % 2 ^ 16) + 2 ^ 160 * ((s.elapsed - b.startedAt) / msTide % 2 ^ 32) + 2 ^ 192 * b.began

/-- Put a boot record in front of the 16 kept (R485). -/
def State.pushRecord (s : State) (r : Nat) : State := s.setObjs 0x7010 0 0 (r :: s.objs 0x7010 0 15)

/-- The adjustment bits that a failed stage adds (R488). -/
def adjustOf (stage : Nat) : Nat :=
  if stage = 0 then 1 else if stage = 1 then 2 else if stage = 2 then 4 else if stage = 3 ∨ stage = 8 then 8
  else if stage = 4 then 0x10 else if stage = 5 ∨ stage = 6 then 0x20 else if stage = 7 then 0x40
  else if stage = 10 then 0x80 else 0

/-- Mark a firmware image failed (R488, R544). -/
def State.markImage (s : State) (i : Nat) : State :=
  { s.setObj 0x7060 0 i 1 with sec := { s.sec with lastBad := i } }

/-- Enter SAFE: the update agent of the boot ROM runs, ALERT_N is low (R9, R565). -/
def State.enterSafe (s : State) : State :=
  { s with device := { mode := .safe } }.emit (.pin .alertN false)

/-- A start fails at its stage: the record is committed, the count rises, the adjustments are added to those in force and the next attempt is planned; the third failure in a row, or the loss of both images, enters SAFE (R487, R488). An attempt whose record the flash does not take does not count. -/
def State.failStart (s : State) (unit reason : Nat) (both : Bool := false) : State :=
  if !s.boot.active then s
  else
    let stage := s.obj 0x7000 3
    let kept := s.bamurn.flash.ok
    let s1 := if kept then s.pushRecord (s.bootRecord 1 unit reason stage false) else s
    let n := if kept then min 3 (s.obj 0x7000 2 + 1) else s.obj 0x7000 2
    let s2 := { s1.setObj 0x7000 2 0 n with boot := { s1.boot with active := false } }
    if both ∨ n ≥ 3 then s2.enterSafe
    else
      let adj := s.obj 0x7000 6 ||| adjustOf stage
      let s3 := if stage = 1 then s2.markImage s2.running else s2
      let kind := match s.device.latched with
        | some (.warmStart _) => 2
        | some (.coldStart _) => 1
        | _ => if bitOf adj 0 then 1 else 2
      let s4 := { s3 with device := { mode := .startup },
                          boot := { s3.boot with waiting := some kind, failedAt := s.elapsed, badCluster := if stage = 7 ∧ unit / 4096 = 7 then some (unit % 4096) else s3.boot.badCluster } }
      (s4.setObj 0x7000 6 0 adj).emit (.pin .alertN true)

/-! ### The save and close (R409, R441, R566) -/

/-- Every queue stops, every logic plane is gated at once, no wake goes on (R409). -/
def State.stopAll (s : State) : State :=
  let s1 := s.freezeDevice
  let s2 := s1.each (List.range 90) (fun t c => if t.plane c = plDark then t else if t.plane c = plGated then t else (((t.setPlane c plGated).setClock c 0 0).setObj (0x1450 + c) 4 0 0).setObj (0x1450 + c) 1 0 0)
  (s2.each (List.range 6) (fun t f => t.setObj (0x1020 + f) 5 0 0)).each [()] (fun t _ => { t with wakes := [], planeLatch := [] })

/-- Write every buffered row to its memory (R322, R409). -/
def State.drainBuffers (s : State) : State :=
  (s.each (Tbl.keys s.hbms) (fun t h => t.flushServer (.stack h))).each (Tbl.keys s.channels) (fun t c => t.flushServer (.channel c))

/-- The module saves and closes (R409): the queues stop, the device is closed, the planes gated, the write buffers drained, the power-loss record committed, a start in progress cut off, the rails turned off. -/
def State.saveClose (s : State) (cause : Nat) : State :=
  if s.power.closed then s
  else
    let s1 := (s.emit (.pin .alertN false)).stopAll.drainBuffers.closeDomain .device susModule none
    let s2 := s1.reportFor none clPower susModule susModule 0 cause
    let s3 := if s2.boot.active then s2.pushRecord (s2.bootRecord 2 0 0 (s2.obj 0x7000 3) false) else s2
    let s4 := if cause = 1 ∨ s.power.sag.isSome then s3.count 0x1000 3 0 32 else s3
    let s5 := if cause = 2 then s4.count 0x0280 9 0 32 else s4
    { s5 with boot := { s5.boot with active := false, waiting := none },
              power := { s5.power with closed := true, cause := cause, lossAt := some s5.tide } }.emits [.pin .pgood false, .pin .alertN true]

/-- The device closes over a rail it cannot run without, and cold-starts (R410, R422). -/
def State.closeAndStart (s : State) : State := (s.saveClose 4).startUp 1

/-! ### The beginning of a recovery reset (R514-R516) -/

/-- The devices of the route table (R337, R514). -/
def State.routedDevices (s : State) : List Nat := (List.range 256).filter (fun d => s.routeMask d != 0 && d != s.obj 0x4000 0)

/-- Send a CTRL message to every device of the route table (R514). -/
def State.toRouted (s : State) (mtype body : Nat) : State := s.each s.routedDevices (fun t d => t.control d mtype body)

/-- Send a recovery control message of R518 on UCIe; `up` towards the compute die. -/
def State.recoveryDtl (s : State) (up : Bool) (code addr : Nat) : State :=
  s.dtlOut s.upModule up { dtype := 0x0F, arg := code, addr := addr }

/-- The expected duration that CLOSING carries, in ms (R516: within 5 s; DESIGN CHOICE: that bound). -/
abbrev expectedMs : Nat := 5000

/-- A recovery reset begins (R515, R516): RECOVERY mode, CLOSING to every routed device, CLOSE_GO to the compute die, the services hold their requests, every session ends. A cause that arises while one runs fails that start. Outside SERVICE and TEST nothing begins (R9). -/
def State.recover (s : State) (cause : Nat) : State :=
  if s.device.mode = .recovery then s.failStart 0x9000 stDegraded
  else if s.device.mode ≠ .service ∧ s.device.mode ≠ .test then s
  else
    let s1 := { s with
      device := { mode := .recovery, latched := s.device.latched },
      boot := { s.boot with active := true, began := s.tide, startedAt := s.elapsed, stageAt := s.elapsed, adjust := s.obj 0x7000 6, testHbm := 0, testDdr := 0,
                            full := false, lostUnit := false, mismatch := false, rows := 0, changed := false,
                            policy := s.obj 0x7020 0, topoHold := s.obj 0x7040 0 == 1, topoWait := s.obj 0x7040 2, expected := s.objs 0x7040 1 16 },
      bamurn := { s.bamurn with sessions := [], mailbox := mailboxSession, relays := [] },
      faults := { s.faults with recovery := .closing, recoverAt := s.elapsed } }
    let s2 := (((s1.setObj 0x7000 0 0 3).setObj 0x7000 3 0 7).setObj 0x7000 4 0 s.tide).count 0x7000 7 0 32
    let s3 := ((s2.count 0x6020 3 0 32).setObj 0x6020 4 0 cause).setObj 0x6020 5 0 s.tide
    let s4 := s3.each serviceNumbers (fun t n => if t.svcState n = svStopped then t else t.setObj (0x9100 + n) 0 0 svRecovering)
    let s5 := (s4.setObj 0x0110 2 0 0).emit (.pin .alertN false)
    ((s5.toRouted 0x23 (2 ^ 216 * cause + 2 ^ 192 * expectedMs)).recoveryDtl true 2 cause)

end Sys2Proof.Machine
end

