-- ==== Sys2Proof/Machine/Throttle.lean ====
section
/-! DEFINITION. The operating points, the power caps, the limits of current, droop and heat, the weir and the slack notices (18_power_caps_and_thermal.md). -/

namespace Sys2Proof.Machine

/-! ### Limits of each unit -/

/-- The own limits of a cluster (R431, R438, R439). -/
def State.limits (s : State) (c : Nat) : ClusterLimit := Tbl.get s.throttle.clusters {} c

/-- Change the throttle controller's state. -/
def State.modThrottle (s : State) (f : Throttle → Throttle) : State := { s with throttle := f s.throttle }

/-- Change the own limits of a cluster. -/
def State.modLimit (s : State) (c : Nat) (f : ClusterLimit → ClusterLimit) : State :=
  s.modThrottle (fun t => { t with clusters := Tbl.put t.clusters {} c (f (s.limits c)) })

/-- The current limit of a rail group (R436). -/
def State.groupLimit (s : State) (f : Nat) : GroupLimit := Tbl.get s.throttle.groups {} f

/-- Replace the current limit of a rail group. -/
def State.setGroup (s : State) (f : Nat) (g : GroupLimit) : State :=
  s.modThrottle (fun t => { t with groups := Tbl.put t.groups {} f g })

/-! ### The applied step (R430-R432) -/

/-- Does a write to an object apply at the next control tick (R431, R432)? -/
def atNextTick (index sub : Nat) : Bool :=
  (index == 0x1100 && (sub == 1 || sub == 2)) || (decide (0x1120 ≤ index) && decide (index < 0x112C) && decide (sub < 3))
    || (decide (0x1130 ≤ index) && decide (index < 0x1230) && sub == 0)

/-- The value of such an object that is in force: the one before the first write since the last control tick. -/
def State.inForce (s : State) (index sub : Nat) : Nat := (Tbl.get s.throttle.inForce none (okey index sub 0)).getD (s.obj index sub)

/-- Keep the value in force of an object about to be written. -/
def State.keepInForce (s : State) (index sub : Nat) : State :=
  if atNextTick index sub then
    s.modThrottle (fun t => { t with inForce := Tbl.put t.inForce none (okey index sub 0) (some (s.inForce index sub)) })
  else s

/-- Objects 1100:01 and 1100:02 as they are in force (R431). -/
def State.stepFloor (s : State) : Nat := s.inForce 0x1100 1
def State.stepMax (s : State) : Nat := s.inForce 0x1100 2

/-- May a step be applied (R430)? -/
def State.stepUsable (s : State) (k : Nat) : Bool := bitOf (s.obj 0x1100 0 k) 0

/-- The step itself where it is usable, else the next lower usable one, else the next higher one (R431). -/
def State.usableNear (s : State) (k : Nat) : Nat :=
  match ((List.range (k + 1)).reverse.find? s.stepUsable) with
  | some j => j
  | none => match ((List.range 32).filter (fun j => decide (j > k))).find? s.stepUsable with
    | some j => j
    | none => k

/-- A ceiling one step lower, not below the floor; 31 stands for no ceiling (R436, R438, R439). -/
def State.lower (s : State) (v : Nat) : Nat := max s.stepFloor (min v s.stepMax - 1)

/-- A ceiling one step higher; none from step_max on. -/
def State.raised (s : State) (v : Nat) : Nat := if v + 1 ≥ s.stepMax then 31 else v + 1

/-- The partition whose clusters hold a cluster. -/
def State.clusterPartition (s : State) (c : Nat) : Option Nat := partitionNumbers.find? (fun q => s.ownsCluster q c)

/-- The ACTIVE tiles of a cluster that serve a partition's job. -/
def State.servingTiles (s : State) (q c : Nat) : List Nat :=
  (tilesOfCluster c).filter (fun n => s.tileState n == tsActive && s.ownerOf n == some q)

/-- The preferred step of a tile while its job is STEPPING: its polder's, or pref_step_run (R432). -/
def State.tilePref (s : State) (q n : Nat) : Nat :=
  let run := s.inForce (0x1120 + q) 0
  match (s.job q).bind (fun j => j.placed[s.logicalOf n]?) with
  | some p => if s.inForce (0x1130 + p.polder) 0 = 0xFF then run else s.inForce (0x1130 + p.polder) 0
  | none => run

/-- The preferred step of a cluster (R432). -/
def State.prefStep (s : State) (c : Nat) : Nat :=
  match s.clusterPartition c with
  | none => 26
  | some q =>
    let act := s.servingTiles q c
    if act.isEmpty then s.inForce (0x1120 + q) 2
    else if s.jobState q = jsStepping then act.foldl (fun m n => max m (s.tilePref q n)) 0
    else if s.jobState q = jsDraining then s.inForce (0x1120 + q) 0
    else if s.jobState q = jsWaiting then s.inForce (0x1120 + q) 1
    else s.inForce (0x1120 + q) 2

/-- The ceiling that received SLACKs put on a partition's clusters: the lowest level, not below the floor; 31 where none holds (R449). -/
def State.peerCeiling (s : State) (q : Nat) : Nat :=
  match s.throttle.peers.filter (fun p => p.1 == q) with
  | [] => 31
  | ps => max s.stepFloor (ps.foldl (fun m p => min m p.2.2) 31)

/-- The ceiling that received SLACKs put on a cluster (R449). -/
def State.clusterPeer (s : State) (c : Nat) : Nat := (s.clusterPartition c).elim 31 s.peerCeiling

/-- The lowest ceiling of a cluster that no peer made: the module's, and its own (R431, R448). -/
def State.nonPeerCeiling (s : State) (c : Nat) : Nat :=
  let l := s.limits c
  min (s.obj 0x1101 4) (min l.thermal (min l.droop (s.groupLimit (clusterField c)).cur))

/-- Object 1310+c:02, the lowest of the cluster's own ceilings (R446). -/
def State.ownCeiling (s : State) (c : Nat) : Nat :=
  let l := s.limits c
  min s.stepMax (min l.thermal (min l.droop (min (s.groupLimit (clusterField c)).cur (s.clusterPeer c))))

/-- The step a cluster is sent to (R431). -/
def State.targetStep (s : State) (c : Nat) : Nat :=
  s.usableNear (max s.stepFloor (min (s.prefStep c) (min (s.obj 0x1101 4) (s.ownCeiling c))))

/-! ### Issue duties (R421, R422, R436, R439) -/

/-- The duty that phase loss leaves a cluster: 9 with two of a regular plane's phases lost, 12 with VA derated, else 20 (R421, R422). -/
def State.phaseDuty (s : State) (c : Nat) : Nat :=
  let vl := if c < 72 ∧ popCount (s.obj (0x1040 + c) 1) 3 = 1 then 9 else 20
  let va := if s.obj (0x1020 + clusterField c) 2 = 1 then 12 else 20
  min vl va

/-- Object 1310+c:03, the lowest duty that applies (R436). -/
def State.issueDuty (s : State) (c : Nat) : Nat :=
  min (s.phaseDuty c) (min (if (s.groupLimit (clusterField c)).duty then 12 else 20) (if (s.limits c).hot then 10 else 20))

/-! ### Throttle reasons (R444-R446) -/

abbrev rsPowerFast : Nat := 1
abbrev rsPowerSlow : Nat := 2
abbrev rsCurrent : Nat := 3
abbrev rsDroop : Nat := 4
abbrev rsThermalDie : Nat := 5
abbrev rsThermalHbm : Nat := 6
abbrev rsThermalDimm : Nat := 7
abbrev rsCoolant : Nat := 8
abbrev rsSlope : Nat := 9
abbrev rsPhaseDerate : Nat := 10
abbrev rsWeir : Nat := 11
abbrev rsCapUnreachable : Nat := 12
abbrev rsPeerSlack : Nat := 13

/-- Is a partition's job STEPPING or WAITING (R442, R449)? -/
def State.weirJob (s : State) (q : Nat) : Bool := s.jobState q == jsStepping || s.jobState q == jsWaiting

/-- Is a reason active on a cluster (R444, R446)? A reason of the whole module is shown on the ON clusters. THERMAL_HBM and THERMAL_DIMM limit no cluster. -/
def State.reasonOn (s : State) (c r : Nat) : Bool :=
  let on := s.plane c == plOn
  let free := min (s.prefStep c) s.stepMax
  let l := s.limits c
  let g := s.groupLimit (clusterField c)
  if r = rsPowerFast then on && s.throttle.fast
  else if r = rsPowerSlow ∨ r = rsCoolant then on && s.throttle.slow == r
  else if r = rsCurrent then g.duty || decide (g.cur < free)
  else if r = rsDroop then s.obj (0x1450 + c) 4 == 1 || decide (l.droop < free)
  else if r = rsThermalDie then l.hot || decide (l.thermal < free)
  else if r = rsSlope then (Tbl.get s.slopes {} (clusterField c)).waiting.any (fun n => clusterOf n == c)
  else if r = rsPhaseDerate then decide (s.phaseDuty c < 20) || (on && s.power.capHold && decide (2400 < s.obj 0x1101 0))
  else if r = rsWeir then on && decide (s.obj 0x1101 5 < 16) && (s.clusterPartition c).any s.weirJob
  else if r = rsCapUnreachable then on && s.throttle.unreached
  else if r = rsPeerSlack then decide (s.clusterPeer c < free)
  else false

/-- Is a reason active (R444)? NONE is active exactly when no other one is. -/
def State.reasonActive (s : State) (r : Nat) : Bool :=
  if r = rsPowerFast then s.throttle.fast
  else if r = rsPowerSlow ∨ r = rsCoolant then s.throttle.slow == r
  else if r = rsThermalHbm then s.throttle.hbms.any (fun e => decide (e.2.eighths < 8))
  else if r = rsThermalDimm then s.throttle.dimms.any (fun e => decide (e.2.eighths < 8))
  else if r = rsSlope then s.slopes.any (fun e => !e.2.waiting.isEmpty)
  else if r = rsPhaseDerate then s.throttle.slow == r || (s.power.capHold && decide (2400 < s.obj 0x1101 0)) || (List.range 90).any (fun c => decide (s.phaseDuty c < 20))
  else if r = rsWeir then decide (s.obj 0x1101 5 < 16)
  else if r = rsCapUnreachable then s.throttle.unreached
  else (List.range 90).any (fun c => s.reasonOn c r)

/-- Bring a reason's objects to whether it is active (R445). -/
def State.setReason (s : State) (r : Nat) (on : Bool) : State :=
  if on ∧ s.obj (0x1300 + r) 3 = 0 then ((s.setObj (0x1300 + r) 3 0 1).count (0x1300 + r) 1 0 32).setObj (0x1300 + r) 2 0 s.tide
  else if on then s
  else s.setObj (0x1300 + r) 3 0 0

/-- Object 1310+c:04 (R446). -/
def State.reasonBits (s : State) (c : Nat) : Nat :=
  let bits := ((List.range 14).filter (fun r => decide (1 ≤ r) && s.reasonOn c r)).foldl (fun m r => m + 2 ^ r) 0
  if bits = 0 then 1 else bits

/-- Send a cluster to its step: a generator that runs moves there by FREQUENCY_CHANGE, one that stands is put there (R431, R452, R453). -/
def State.retarget (s : State) (c : Nat) : State :=
  let t := s.targetStep c
  let s1 := ((s.setObj (0x1310 + c) 1 0 (s.prefStep c)).setObj (0x1310 + c) 2 0 (s.ownCeiling c)).setObj (0x1310 + c) 3 0 (s.issueDuty c)
  if s1.plane c = plOn then
    if s1.obj (0x1450 + c) 0 = 2 ∧ s1.obj (0x1310 + c) 0 ≠ t then s1.setObj (0x1450 + c) 0 0 3 else s1
  else s1.setObj (0x1310 + c) 0 0 t

/-- Apply every limit: the steps the clusters are sent to, the duties and the reasons (R431, R444-R446). -/
def State.refresh (s : State) : State :=
  let s1 := s.each (List.range 90) State.retarget
  let s2 := s1.each (List.range 90) (fun t c => t.setObj (0x1310 + c) 4 0 (s1.reasonBits c))
  let act := (List.range 14).filter (fun r => decide (1 ≤ r) && s2.reasonActive r)
  (s2.each ((List.range 14).drop 1) (fun t r => t.setReason r (act.contains r))).setReason 0 act.isEmpty

/-! ### Power caps (R433-R435, R443) -/

/-- The limit of a warm coolant inlet, if it derates (R435). -/
def State.inletLimit (s : State) : Option Nat :=
  let t := signedOf (s.obj 0x1400 1) 32
  if s.throttle.coolSeen ∧ t > 500 then some (max 2400 (3600 - 20 * (t - 500).toNat)) else none

/-- The limit of a low coolant flow, in tenths of a litre per minute, if it derates (R435). -/
def State.flowLimit (s : State) : Option Nat :=
  let f := s.obj 0x1400 3
  if s.throttle.coolSeen ∧ f < 4500 then some (max 2400 (80 * (f / 100))) else none

/-- The effective slow cap and the reason of the limit that sets it, the lower code on a tie (R434, R435). -/
def State.slowCap (s : State) : Nat × Nat :=
  let take : Nat × Nat → Nat × Nat → Nat × Nat := fun a b => if b.1 < a.1 then b else a
  let cool := [s.inletLimit, s.flowLimit].filterMap (fun o => o.map (fun v => (v, rsCoolant)))
  let phase := if s.power.capHold then [(2400, rsPhaseDerate)] else []
  (cool ++ phase).foldl take (s.obj 0x1101 0, rsPowerSlow)

/-- The effective fast cap (R433, R435). -/
def State.fastCap (s : State) : Nat :=
  let v := min (s.slowCap.1 + s.obj 0x1101 1) 3700
  if s.power.capHold then min v 2500 else v

/-- The highest step applied to any ON cluster, the floor where none is ON (R434). -/
def State.highestStep (s : State) : Nat :=
  ((List.range 90).filter (fun c => s.plane c == plOn)).foldl (fun m c => max m (s.obj (0x1310 + c) 0)) s.stepFloor

/-- One lowering (R434), or CAP_UNREACHABLE in place of one below the least duty or with no job to act on (R443). -/
def State.lowerOnce (s : State) : State :=
  let h := s.highestStep
  let d := s.obj 0x1101 5
  if h > s.stepFloor then
    (s.setObj 0x1101 4 0 (max s.stepFloor (min (s.obj 0x1101 4) h - 1))).modThrottle (fun t => { t with since := 0, unreached := false })
  else if d ≤ 1 ∨ !partitionNumbers.any s.weirJob then
    if s.throttle.unreached then s
    else (s.modThrottle (fun t => { t with unreached := true })).reportFor none clPower susModule susModule stCapUnreachable 0
  else ((s.setObj 0x1101 4 0 s.stepFloor).setObj 0x1101 5 0 (d - 1)).modThrottle (fun t => { t with since := 0, unreached := false })

/-- One raise: the weir first, then the ceiling towards step_max (R434). -/
def State.raiseOnce (s : State) : State :=
  let d := s.obj 0x1101 5
  let s1 := s.modThrottle (fun t => { t with unreached := false })
  if d < 16 then (s1.setObj 0x1101 5 0 (d + 1)).modThrottle (fun t => { t with since := 0 })
  else if s.obj 0x1101 4 < s.stepMax then (s1.setObj 0x1101 4 0 (s.obj 0x1101 4 + 1)).modThrottle (fun t => { t with since := 0 })
  else s1

/-- The change of a control tick: the first row of R434's table that applies. `avg1ms` and `avg1s` are the two averages in W. -/
def State.capTick (s : State) (avg1ms avg1s : Nat) : State :=
  let (slow, reason) := s.slowCap
  let fast := s.fastCap
  let s1 := (((s.setObj 0x1101 2 0 avg1ms).setObj 0x1101 3 0 avg1s).setObj 0x1101 7 0 slow).setObj 0x1101 8 0 fast
  let s2 := s1.modThrottle (fun t => { t with fast := decide (avg1ms > fast), slow := if avg1s > slow then reason else 0, since := t.since + 1 })
  let n := s2.throttle.since
  let s3 :=
    if (avg1ms > fast ∧ n ≥ 10) ∨ (avg1s > slow ∧ n ≥ 500) then s2.lowerOnce
    else if 100 * avg1ms ≤ 97 * fast ∧ 100 * avg1ms ≤ 97 * slow ∧ n ≥ 100 then s2.raiseOnce
    else s2.modThrottle (fun t => { t with unreached := false })
  s3.setObj 0x1101 6 0 (if s3.throttle.unreached then stCapUnreachable else 0)

/-- The droop ceilings whose hold has ended rise one step every 100 control ticks (R438). -/
def State.droopTick (s : State) : State :=
  s.each (Tbl.keys s.throttle.clusters) (fun t c =>
    let l := t.limits c
    if l.droop = 31 ∨ l.hold then t
    else if l.riseTicks + 1 ≥ 100 then t.modLimit c (fun l => { l with droop := t.raised l.droop, riseTicks := 0 })
    else t.modLimit c (fun l => { l with riseTicks := l.riseTicks + 1 }))

/-- Microseconds of the reasons that were active up to a control tick (R445). -/
def State.accrue (s : State) : State :=
  s.each (List.range 14) (fun t r => if t.obj (0x1300 + r) 3 = 1 then t.count (0x1300 + r) 0 0 64 100 else t)

/-! ### Slack notices (R447-R449) -/

/-- Does a cluster run below its preferred step for a reason other than PEER_SLACK (R448)? -/
def State.runsBelow (s : State) (c : Nat) : Bool :=
  s.plane c == plOn && decide (s.obj (0x1310 + c) 0 < s.prefStep c) && decide (s.nonPeerCeiling c < s.prefStep c)

/-- Count, or end, the control ticks in a row of one of `slackFor`'s keys (R448). -/
def State.slackCount (s : State) (key : Nat) (on : Bool) : State :=
  s.modThrottle (fun t =>
    let (n, since) := Tbl.get t.slackFor (0, 0) key
    { t with slackFor := Tbl.put t.slackFor (0, 0) key (if on then (n + 1, if n = 0 then s.tide else since) else (0, 0)) })

/-- The clusters of a partition (R223). -/
def State.clustersOf (s : State) (q : Nat) : List Nat := (List.range 90).filter (s.ownsCluster q)

/-- The keys of `slackFor` by which a partition's job qualifies: slack_after_us has passed (R448). -/
def State.slackKeys (s : State) (q : Nat) : List Nat :=
  if s.weirJob q then
    (s.clustersOf q ++ [90 + q]).filter (fun k => decide (0 < (Tbl.get s.throttle.slackFor (0, 0) k).1 ∧ (Tbl.get s.throttle.slackFor (0, 0) k).1 * 100 ≥ s.obj 0x1102 1))
  else []

/-- May a partition send SLACK (R448)? -/
def State.sendsSlack (s : State) (q : Nat) : Bool :=
  s.obj 0x1102 0 == 1 && s.obj 0x4000 0 != 0xFFFF && !(s.slackKeys q).isEmpty

/-- The devices a partition's SLACK goes to (R448): the others of its barrier group, object 5040+q:09. -/
def State.slackPeers (s : State) (q : Nat) : List Nat := (bitsOf (s.obj (0x5040 + q) 9) 256).filter (fun d => d ≠ s.ownDevice)

/-- Send one SLACK of a partition to its peers (R342, R448). -/
def State.slackTo (s : State) (q reason level since : Nat) : State :=
  s.each (s.slackPeers q) (fun t d =>
    t.control d 0x16 (2 ^ 208 * s.jobId q + 2 ^ 200 * reason + 2 ^ 192 * level + 2 ^ 128 * (since % 2 ^ 64)))

/-- The partitions that no longer qualify send their final SLACK (R448). -/
def State.slackRelease (s : State) : State :=
  s.each s.throttle.told (fun t q =>
    if t.sendsSlack q then t
    else (t.slackTo q 0 0 0).modThrottle (fun h => { h with told := h.told.filter (· ≠ q) }))

/-- The slack counts of a control tick (R448). -/
def State.slackTick (s : State) : State :=
  let s1 := s.each (List.range 90) (fun t c => t.slackCount c (s.runsBelow c))
  let s2 := s1.each partitionNumbers (fun t q => t.slackCount (90 + q) (s.weirJob q && decide (s.obj 0x1101 5 < 16)))
  s2.slackRelease

/-- From a control tick on, every limit written is in force (R431, R432). -/
def State.applyWritten (s : State) : State := s.modThrottle (fun t => { t with inForce := [] })

/-- CONTROL_TICK: the counters of the reasons, the limits written, the one change of R434, the droop ceilings, the limits as they now stand, the slack counts. -/
def execControlTick (avg1ms avg1s : Nat) (s : State) : Out :=
  .next (((s.accrue.applyWritten.capTick avg1ms avg1s).droopTick.refresh).slackTick)

/-- The binding reason of the lowest code among a partition's clusters, PEER_SLACK apart (R448). -/
def State.bindingReason (s : State) (q : Nat) : Nat :=
  (((List.range 13).drop 1).find? (fun r => (s.clustersOf q).any (fun c => bitOf (s.obj (0x1310 + c) 4) r))).getD 0

/-- SLACK_NOTICE_SEND: a partition whose job qualifies tells its peers. -/
def execSlackNoticeSend (q : Nat) (s : State) : Out :=
  .next (if s.sendsSlack q then
    let keys := s.slackKeys q
    let starts := keys.map (fun k => (Tbl.get s.throttle.slackFor (0, 0) k).2)
    let level := (s.clustersOf q).foldl (fun m c => min m (s.obj (0x1310 + c) 0)) 31
    (s.slackTo q (s.bindingReason q) level (starts.foldl min (starts.headD 0))).modThrottle
      (fun h => { h with told := if h.told.contains q then h.told else h.told ++ [q] })
  else s)

/-- SLACK: counted with sympathy_enable at 0; else the ceiling of the partitions whose job it names is set, or released by reason 0 (R449). -/
def execSlack (m : CtrlMsg) (s : State) : Out :=
  let b := m.body.toNat
  let level := fieldOf b 192 8
  .next (s.onCtrl 0x16 m fun s => if s.obj 0x1102 0 = 0 then s.count 0x1102 2 0 32
  else (s.each partitionNumbers (fun t q =>
      if t.weirJob q ∧ t.jobId q = fieldOf b 208 16 ∧ bitOf (t.obj (0x5040 + q) 9) m.src then
        t.modThrottle (fun h =>
          let others := h.peers.filter (fun p => !(p.1 == q && p.2.1 == m.src))
          { h with peers := if fieldOf b 200 8 = 0 then others else others ++ [(q, m.src, level)], slackAt := Tbl.put h.slackAt 0 (256 * q + m.src) t.elapsed })
      else t)).refresh)

/-- PEER_SLACK_EXPIRY: 15 ms after a sender's last SLACK its ceiling ends. -/
def execPeerSlackExpiry (q sender : Nat) (s : State) : Out :=
  .next (if s.elapsed < Tbl.get s.throttle.slackAt 0 (256 * q + sender) + 15 * msTide then s
    else (s.modThrottle (fun h => { h with peers := h.peers.filter (fun p => !(p.1 == q && p.2.1 == sender)) })).refresh)

/-! ### Current and droop (R436, R438, R454) -/

/-- The current limit of a rail group after a reading of `ma` mA against `limit` A (R436). Readings come every 50 ns. -/
def State.groupAfter (s : State) (g : GroupLimit) (limit ma : Nat) : GroupLimit :=
  let above := if ma > 1000 * limit then g.above + 1 else 0
  let below := if ma ≤ 900 * limit then g.below + 1 else 0
  let held := g.duty || decide (above ≥ 4)
  let duty := held && decide (below < 200)
  let since := g.since + 1
  if held ∧ ma > 950 * limit ∧ since ≥ 200 then { above := above, below := below, duty := duty, cur := s.lower g.cur, since := 0 }
  else if ma ≤ 850 * limit ∧ g.cur ≠ 31 ∧ since ≥ 20000 then { above := above, below := below, duty := duty, cur := s.raised g.cur, since := 0 }
  else { above := above, below := below, duty := duty, cur := g.cur, since := since }

/-- RAIL_GROUP_CURRENT_READING: the fast sense of a rail group against object 1020+f:00. -/
def execRailGroupCurrentReading (f ma : Nat) (s : State) : Out :=
  let s1 := s.setObj (0x1020 + f) 1 0 ma
  .next ((s1.setGroup f (s1.groupAfter (s1.groupLimit f) (s1.obj (0x1020 + f) 0) ma)).refresh)

/-- The droop limit of a cluster after one droop event: 8 in the trailing 1 ms, or 8 more within the hold, lower it one step and start the hold (R438). -/
def State.droopAfter (s : State) (l : ClusterLimit) : ClusterLimit :=
  let marks := s.elapsed :: l.marks.filter (fun t => decide (s.elapsed < 4000000 + t))
  if l.hold then
    if l.inHold + 1 ≥ 8 then { l with marks := marks, droop := s.lower l.droop, holdAt := s.elapsed, inHold := 0 }
    else { l with marks := marks, inHold := l.inHold + 1 }
  else if marks.length ≥ 8 then { l with marks := marks, droop := s.lower l.droop, hold := true, holdAt := s.elapsed, inHold := 0, riseTicks := 0 }
  else { l with marks := marks }

/-- DROOP_EVENT: the generator of an ON cluster halves its output (R454), one droop event of R438. -/
def execDroopEvent (c : Nat) (s : State) : Out :=
  .next (if s.plane c = plOn ∧ s.obj (0x1450 + c) 4 = 0 then
    let s1 := ((s.setObj (0x1450 + c) 4 0 1).setObj (0x1450 + c) 1 0 (s.obj (0x1450 + c) 1 / 2)).count (0x1310 + c) 6 0 32
    (s1.modLimit c s1.droopAfter).refresh
  else s)

/-- DROOP_EXIT: the generator returns to its full frequency (R454). -/
def execDroopExit (c : Nat) (s : State) : Out :=
  .next (if s.obj (0x1450 + c) 4 = 1 then
    ((s.setObj (0x1450 + c) 4 0 0).setObj (0x1450 + c) 1 0 (if s.obj (0x1450 + c) 1 = 0 then 0 else freqTable.getD (s.obj (0x1310 + c) 0) 0)).refresh
  else s)

/-- DROOP_HOLD_EXPIRY: 100 ms after it began, or was restarted, the hold ends; the ceiling then rises with the control ticks (R438). -/
def execDroopHoldExpiry (c : Nat) (s : State) : Out :=
  .next (if (s.limits c).hold ∧ (s.limits c).holdAt + 100 * msTide ≤ s.elapsed then s.modLimit c (fun l => { l with hold := false, inHold := 0, riseTicks := 0 }) else s)

/-! ### Heat and coolant (R439-R441) -/

/-- The thermal limit of a cluster after a reading of `t` tenths of a degree against a target (R439). Readings come every 100 µs. -/
def State.thermalAfter (s : State) (l : ClusterLimit) (target t : Int) : ClusterLimit :=
  let since := l.thermSince + 1
  let trip := if t ≥ 1100 then l.tripReads + 1 else 0
  let l1 := { l with thermSince := since, tripReads := trip }
  if t > target then
    let l2 := if since ≥ 10 ∧ min l.thermal s.stepMax > s.stepFloor then { l1 with thermal := s.lower l.thermal, thermSince := 0 } else l1
    if t > target + 50 ∧ min l.thermal s.stepMax ≤ s.stepFloor then { l2 with hot := true } else l2
  else
    let l2 := { l1 with hot := false }
    if t ≤ target - 30 ∧ l.thermal ≠ 31 ∧ since ≥ 100 then { l2 with thermal := s.raised l.thermal, thermSince := 0 } else l2

/-- DIE_SENSOR_READING: a cluster's sensor; 10 readings in a row at or above 110 °C save and close the module (R439). -/
def execDieSensorReading (c : Nat) (temp : Int) (s : State) : Out :=
  let s1 := s.setObj (0x1310 + c) 5 0 (unsignedOf temp 32)
  let s2 := (s1.modLimit c (fun l => s1.thermalAfter l (10 * (s1.obj 0x1400 0 : Int)) temp)).refresh
  .next (if (s2.limits c).tripReads ≥ 10 then (s2.reportFor none clThermal (susCluster c) susModule 0 (unsignedOf temp 32)).saveClose 3 else s2)

/-- The request rate limit of a unit after a reading: above `hi` it falls by one eighth at each reading, at or below `lo` it rises by one at every tenth; readings in a row at or above `trip` are counted (R440). -/
def UnitLimit.after (u : UnitLimit) (hi lo trip t : Int) : UnitLimit :=
  let n := if t ≥ trip then u.trip + 1 else 0
  if t > hi then { eighths := max 4 (u.eighths - 1), since := 0, trip := n }
  else if t ≤ lo ∧ u.eighths < 8 ∧ u.since + 1 ≥ 10 then { eighths := u.eighths + 1, since := 0, trip := n }
  else { eighths := u.eighths, since := u.since + 1, trip := n }

/-- HBM_TEMP_READING: a stack's rate limit; 105 °C over 10 readings saves and closes the module (R440). -/
def execHbmTempReading (h : Nat) (temp : Int) (s : State) : Out :=
  let u := (Tbl.get s.throttle.hbms {} h).after 950 920 1050 temp
  let s1 := ((s.setObj 0x1400 4 h (unsignedOf temp 32)).modThrottle (fun t => { t with hbms := Tbl.put t.hbms {} h u })).refresh
  .next (if u.trip ≥ 10 then (s1.reportFor none clThermal (susStack h) susModule 0 (unsignedOf temp 32)).saveClose 3 else s1)

/-- DIMM_TEMP_READING: a DIMM's rate limit; 95 °C over 10 readings takes its channel out as not answering (R320, R440). -/
def execDimmTempReading (ch : Nat) (temp : Int) (s : State) : Out :=
  let u := (Tbl.get s.throttle.dimms {} ch).after 850 820 950 temp
  let s1 := ((s.setObj 0x1400 5 ch (unsignedOf temp 32)).modThrottle (fun t => { t with dimms := Tbl.put t.dimms {} ch u })).refresh
  if u.trip ≥ 10 then execMemoryUnitNotAnswering (.channel ch) (s1.reportFor none clThermal (susChannel ch) susModule 0 (unsignedOf temp 32)) else .next s1

/-- COOLANT_READING: the sensors of R441; two readings in a row above 55 °C at the inlet, or below 3.0 L/min, save and close the module. -/
def execCoolantReading (inlet outlet : Int) (flow : Nat) (s : State) : Out :=
  let s1 := ((s.setObj 0x1400 1 0 (unsignedOf inlet 32)).setObj 0x1400 2 0 (unsignedOf outlet 32)).setObj 0x1400 3 0 flow
  let s2 := s1.modThrottle (fun t => { t with coolSeen := true, inletBad := if inlet > 550 then t.inletBad + 1 else 0, flowBad := if flow < 3000 then t.flowBad + 1 else 0 })
  .next (if s2.throttle.inletBad ≥ 2 ∨ s2.throttle.flowBad ≥ 2 then (s2.reportFor none clThermal susModule susModule 0 (unsignedOf inlet 32)).saveClose 3 else s2)

/-- COOLANT_RESTORED: after a thermal or coolant close the conditions of R441 have held for 60 s, and the module cold-starts. -/
def execCoolantRestored (s : State) : Out :=
  .next (if s.power.closed ∧ s.power.cause = 3 ∧ signedOf (s.obj 0x1400 1) 32 ≤ 450 ∧ s.obj 0x1400 3 ≥ 4500
      ∧ (List.range 90).all (fun c => decide (signedOf (s.obj (0x1310 + c) 5) 32 < 600)) then s.startUp 1 else s)

end Sys2Proof.Machine
end

