-- ==== Sys2Proof/Machine/Dtl.lean ====
section
/-! DEFINITION. The die-to-die transport: the messages the two dies exchange, their credits, and the loss of a UCIe module (15_reeve_die_and_service.md R356-R365). -/

namespace Sys2Proof.Machine

/-! ### DDR5 requests (R313, R361, R363) -/

/-- DTL_MEM_READ: the reeve die reads DDR5 and answers MEM_DATA, with UNCORRECTABLE and no data where a codeword fails, with BAD_VALUE where no DIMM is installed (R3, R316, R320). -/
def execDtlMemRead (m : Nat) (d : DtlMsg) (s : State) : Out :=
  let srv : Server := .channel (s.ddrDecode d.addr).1
  let rows := dtlRows d (fieldOf d.arg 0 4)
  let head : DtlMsg := { dtype := 0x03, dtag := d.dtag, job := d.job, partition := d.partition }
  .next (s.onDtl m false d fun s0 => if s.ddrUsed.isEmpty then s0.dtlOut m true { head with status := stBadValue }
  else if (s.server srv).dead then s0.dtlOut m true { head with status := stUncorrectable }
  else
    let x := s0.readMemRows srv rows (some d.partition)
    match wholeRows x.2, firstFailed rows x.2 with
    | some ws, _ => x.1.dtlOut m true { head with cells := ws }
    | none, some r => (x.1.memoryFault d.partition r).dtlOut m true { head with status := stUncorrectable }
    | none, none => x.1.dtlOut m true { head with status := stUncorrectable })

/-- The request that a tag names on a module. -/
def State.outstanding (s : State) (m tag : Nat) : Option DtlReq := (s.ucie m).out.find? (fun r => r.dtag == tag)

/-- The reeve die decodes the cells of a write: a failure raises STEP_FAULT with the source tile as suspect (R173, R359). -/
def State.landDtl (s : State) (m : Nat) (d : DtlMsg) : State × Bool :=
  if d.cells.any isBadWord then
    match s.outstanding m d.dtag with
    | some r => ((s.reportFor (some d.partition) clTileData (susTile (srcPos r.pkt)) (susUcie m) stUncorrectable 0).stepFault d.partition clTileData (some (srcPos r.pkt)), false)
    | none => (s, false)
  else (s, true)

/-- DTL_MEM_WRITE: the rows enter the channel's write buffer, or wait for it, and MEM_ACK answers. -/
def execDtlMemWrite (m : Nat) (d : DtlMsg) (s : State) : Out :=
  let srv : Server := .channel (s.ddrDecode d.addr).1
  let ack : DtlMsg := { dtype := 0x04, dtag := d.dtag, job := d.job, partition := d.partition, status := stUncorrectable }
  .next (s.onDtl m false d fun s0 => if s.ddrUsed.isEmpty then s0.dtlOut m true { ack with status := stBadValue }
  else if (s.server srv).dead then s0.dtlOut m true ack
  else
    let x := s0.landDtl m d
    if x.2 then x.1.takeDtl srv m d else x.1.dtlOut m true ack)

/-- MEM_DATA: the merge it answers is forwarded to its requesters; a response that no request waits for is dropped. -/
def execMemData (m : Nat) (d : DtlMsg) (s : State) : Out :=
  .next (s.onDtl m true d fun s0 => match s.outstanding m d.dtag with
    | none => s0
    | some r =>
      let s1 := s0.freeReq m d.dtag
      let srv : Server := .channel r.chan
      match r.merge.bind (fun id => (s.server srv).merges.find? (fun x => x.id == id)) with
      | none => s1
      | some g =>
        let s2 := s1.modServer srv (fun y => { y with merges := y.merges.filter (fun z => z.id ≠ g.id) })
        if d.status ≠ stOk then s2.each g.reqs (fun t p => t.sendReply (s.serverPos p) p (knownStatus d.status))
        else s2.answerMerge (s.serverPos r.pkt) g.asMerge (match g.data with
          | some rows => wholeRows rows
          | none => some d.cells))

/-- MEM_ACK: the tile write it answers is acknowledged. -/
def execMemAck (m : Nat) (d : DtlMsg) (s : State) : Out :=
  .next (s.onDtl m true d fun s0 => match s.outstanding m d.dtag with
    | none => s0
    | some r =>
      let s1 := s0.freeReq m d.dtag
      if r.merge.isSome then s1 else s1.sendReply (s.serverPos r.pkt) r.pkt (knownStatus d.status))

/-! ### HBM requests of reeve firmware (R356, R361, R364) -/

/-- Does a message name rows inside the HBM map (R356)? -/
def hbmMapped (d : DtlMsg) (rows : Nat) : Bool := (dtlRows d rows).all (fun r => decide (32 * r < 6 * regionBytes))

/-- HBM_READ: the stack's controller reads the rows and answers HBM_DATA; outside the HBM map the access is an access fault of the core. -/
def execHbmRead (m : Nat) (d : DtlMsg) (s : State) : Out :=
  let n := fieldOf d.arg 0 4
  if !hbmMapped d n then .fault (.accessFault d.addr)
  else
    let srv : Server := .stack (hbmStack d.addr)
    let head : DtlMsg := { dtype := 0x07, dtag := d.dtag, job := d.job, partition := d.partition }
    .next (s.onDtl m true d fun s0 => if (s.server srv).dead then s0.dtlOut m false { head with status := stUncorrectable }
    else
      let x := s0.readMemRows srv (dtlRows d n) none
      match wholeRows x.2 with
      | some ws => x.1.dtlOut m false { head with cells := ws }
      | none => x.1.dtlOut m false { head with status := stUncorrectable })

/-- HBM_WRITE: the rows enter the stack's write buffer, or wait for it, and HBM_ACK answers; a cell that decodes uncorrectable is answered UNCORRECTABLE. -/
def execHbmWrite (m : Nat) (d : DtlMsg) (s : State) : Out :=
  if !hbmMapped d d.cells.length then .fault (.accessFault d.addr)
  else
    let srv : Server := .stack (hbmStack d.addr)
    let ack : DtlMsg := { dtype := 0x08, dtag := d.dtag, job := d.job, partition := d.partition, status := stUncorrectable }
    .next (s.onDtl m true d fun s0 => if (s.server srv).dead ∨ d.cells.any isBadWord then s0.dtlOut m false ack else s0.takeDtl srv m d)

/-- HBM_DATA: rows or a status reach reeve firmware. -/
def execHbmData (m : Nat) (d : DtlMsg) (s : State) : Out := .next (s.onDtl m false d id)

/-- HBM_ACK: reeve firmware's write to HBM is acknowledged. -/
def execHbmAck (m : Nat) (d : DtlMsg) (s : State) : Out := .next (s.onDtl m false d id)

/-- OBJ_RSP: a compute-die object's value or status reaches the reeve die. -/
def execObjRsp (m : Nat) (d : DtlMsg) (s : State) : Out := .next (s.onDtl m false d id)

/-! ### Ports and credits (R347, R350, R361, R362) -/

/-- The payload bytes of a message's cells, lowest first (R361). -/
def dtlBytes (d : DtlMsg) (n : Nat) : List Byte := (d.cells.flatMap (fun w => leBytes 32 (decodedRow w).toNat)).take n

/-- DTL_MGMT: towards the reeve die a Bamurn message of a port is delivered to the server; towards the compute die one leaves at its port as a local unit. The message names no source and no destination device. -/
def execDtlMgmt (m : Nat) (up : Bool) (d : DtlMsg) (s : State) : Out :=
  let k := fieldOf d.arg 16 4
  let n := fieldOf d.arg 0 16
  .next (s.onDtl m up d fun s0 => if up then s0.emit (.mgmt k { src := s.obj 0x4000 0, local' := true, length := n, bytes := dtlBytes d n })
  else s0.emit (.deliver (.link k 0 true) (dtlBytes d n)))

/-- DTL_ETH: towards the reeve die a frame of a port reaches the endpoint; towards the compute die one leaves at its port where that is up (R350). -/
def execDtlEth (m : Nat) (up : Bool) (d : DtlMsg) (s : State) : Out :=
  let k := fieldOf d.arg 16 4
  let b := dtlBytes d (fieldOf d.arg 0 16)
  .next (s.onDtl m up d fun s0 => if !up then s0.emit (.frame k { bytes := b })
  else if s.portState k = psEthUp then s0.sendFrame k b else s0)

/-- CREDIT: cells come back to the end that receives it, up to the grant of each class; requests that waited for them are sent. -/
def execCredit (m : Nat) (up : Bool) (d : DtlMsg) (s : State) : Out :=
  let q := fieldOf d.arg 0 16
  let r := fieldOf d.arg 16 16
  let c := fieldOf d.addr 0 16
  .next (s.onDtl m up d fun s0 => if up then (s0.modUcie m (fun u => { u with req := min 4096 (u.req + q), rsp := min 4096 (u.rsp + r), ctrl := min 1024 (u.ctrl + c) })).sendAllWaiting m
  else s0.modUcie m (fun u => { u with rReq := min 4096 (u.rReq + q), rRsp := min 4096 (u.rRsp + r), rCtrl := min 1024 (u.rCtrl + c) }))

/-! ### Loss of a module (R358) -/

/-- Set the state of a UCIe module and its bit in object 3200:00. -/
def State.toModule (s : State) (m v : Nat) : State :=
  let s1 := s.setObj (0x3210 + m) 0 0 v
  s1.setObj 0x3200 0 0 (setBit (s1.obj 0x3200 0) m (v == 2))

/-- A module is retired until the next start: its requests are answered TIMEOUT, STEP_FAULT in the partitions that had one, a report, a recovery reset when no module is left (R358). Requests that waited for credit move to the nearest usable module. -/
def State.retireUcie (s : State) (m : Nat) : State :=
  if s.obj (0x3210 + m) 0 = 3 then s
  else
    let u := s.ucie m
    let s1 := (s.toModule m 3).modUcie m (fun _ => {})
    let s2 := s1.each u.out (fun t r => match r.merge with
      | none => t.sendReply (s.serverPos r.pkt) r.pkt stTimeout
      | some id =>
        let reqs := ((t.server (.channel r.chan)).merges.filter (fun g => g.id == id)).flatMap (·.reqs)
        (t.modServer (.channel r.chan) (fun y => { y with merges := y.merges.filter (fun z => z.id ≠ id) })).each reqs
          (fun t p => t.sendReply (s.serverPos p) p stTimeout))
    let s3 := s2.each ((u.out.map (fun r => r.pkt.partition)).eraseDups) (fun t q => t.stepFault q clLink none)
    let s4 := s3.reportFor none clLink (susUcie m) (susUcie m) stDegraded 0 (some (susUcie m))
    if (List.range 8).all (fun k => s4.obj (0x3210 + k) 0 == 3) then s4.recover 3
    else s4.each u.waiting (fun t r => t.askDtl (t.moduleFor (srcPos r.pkt)) r)

/-- UCIE_ADAPTER_RETRY_FAILURE: the module retrains. -/
def execUcieAdapterRetryFailure (m : Nat) (s : State) : Out :=
  .next (if s.obj (0x3210 + m) 0 = 2 then (((s.countStall m).modUcie m (fun u => { u with stalled := none })).toModule m 1).count (0x3210 + m) 1 0 32 else s)

/-- UCIE_RETRAINED: within 10 ms the module is up again and sends what waited. -/
def execUcieRetrained (m : Nat) (s : State) : Out :=
  .next (if s.obj (0x3210 + m) 0 = 1 then (s.toModule m 2).sendAllWaiting m else s)

/-- UCIE_RETRAIN_TIMEOUT: the module did not retrain within 10 ms. -/
def execUcieRetrainTimeout (m : Nat) (s : State) : Out :=
  .next (if s.obj (0x3210 + m) 0 = 1 then s.retireUcie m else s)

end Sys2Proof.Machine
end

