-- ==== Sys2Proof/Machine/Clocks.lean ====
section
/-! DEFINITION. The cluster clock generators, the reference and the tide count (19_clocks_and_tide.md). -/

namespace Sys2Proof.Machine

/-! ### Closing a cluster (R425, R455, R503) -/

/-- The partitions whose job holds a tile of a cluster. -/
def State.clusterJobs (s : State) (c : Nat) : List Nat :=
  partitionNumbers.filter (fun q => (s.jobTiles q).any (fun n => clusterOf n == c))

/-- A cluster is closed: STEP_FAULT in the partitions that hold its tiles, its tiles CLOSED, one closure, their logical numbers remapped (R425, R503, R508). -/
def State.condemnCluster (s : State) (c cls : Nat) : State :=
  let tiles := tilesOfCluster c
  let qs := s.clusterJobs c
  let s1 := s.each qs (fun t q => t.stepFault q cls none)
  let s2 := s1.each tiles (fun t n => t.shutTile n cls)
  let s3 := s2.closeDomain (.cluster c) (susCluster c) qs.head?
  s3.each qs (fun t q => (t.each tiles (fun u n => u.dropTarget q n)).startRemaps q)

/-! ### The generators (R451-R455) -/

/-- The frequency a generator puts out at its applied step, halved in a droop step-down (R451, R454). -/
def State.outputMHz (s : State) (c : Nat) : Nat :=
  let f := freqTable.getD (s.obj (0x1310 + c) 0) 0
  if s.obj (0x1450 + c) 4 = 1 then f / 2 else f

/-- The next step of a move from `a` towards `t`, past unusable ones (R430, R452). -/
def State.nextStep (s : State) (a t : Nat) : Nat :=
  if a < t then (((List.range 32).filter (fun k => decide (a < k ∧ k ≤ t))).find? s.stepUsable).getD t
  else (((List.range 32).filter (fun k => decide (t ≤ k ∧ k < a))).reverse.find? s.stepUsable).getD t

/-- FREQUENCY_CHANGE: a generator that runs completes a move of one step towards its target. -/
def execFrequencyChange (c : Nat) (s : State) : Out :=
  let t := s.targetStep c
  let a := s.obj (0x1310 + c) 0
  let st := s.obj (0x1450 + c) 0
  .next (if s.plane c = plOn ∧ (st = 2 ∨ st = 3) then
    if a = t then s.setObj (0x1450 + c) 0 0 2
    else
      let b := s.nextStep a t
      let s1 := (s.setObj (0x1310 + c) 0 0 b).count (0x1450 + c) 5 0 32
      (s1.setClock c (if b = t then 2 else 3) (s1.outputMHz c)).refresh
  else s)

/-- A fault stops the clock of a generator that runs: counted, reported, STEP_FAULT in the partitions that hold tiles of the cluster; the third within 24 h fails the generator, and the cluster closes as one whose plane is DARK (R455, R499). -/
def execClockFault (c : Nat) (isPhase : Bool) (s : State) : Out :=
  let st := s.obj (0x1450 + c) 0
  .next (if s.plane c = plOn ∧ (st = 2 ∨ st = 3) then
    let s1 := ((s.setClock c 1 0).count (0x1450 + c) (if isPhase then 3 else 2) 0 32).setObj (0x1450 + c) 6 0 s.tide
    let r := s1.countEvent (susCode (susCluster c)) clClock
    let s2 := r.1.reportFor (s.clusterJobs c).head? clClock (susCluster c) (susCluster c) 0 (if isPhase then 1 else 0) (if r.2 then some (susCluster c) else none)
    let s3 := s2.each (s.clusterJobs c) (fun t q => t.stepFault q clClock none)
    if r.2 then ((s3.setObj (0x1450 + c) 0 0 4).verdict (susCode (susCluster c)) clClock).condemnCluster c clClock else s3
  else s)

/-- CLOCK_RELOCK: the generator runs again at its applied step. -/
def execClockRelock (c : Nat) (s : State) : Out :=
  .next (if s.plane c = plOn ∧ s.obj (0x1450 + c) 0 = 1 then
    ((s.setClock c 2 (s.outputMHz c)).setObj (0x1450 + c) 6 0 s.tide).retarget c
  else s)

/-! ### The reference (R456) -/

/-- The suspect that a PHY unit is (R492). -/
def phySuspect : PhyUnit → Suspect
  | .port k => susPort k
  | .stack h => susStack h
  | .channel c => susChannel c
  | .ucie m => susUcie m
  | .tidePll => susModule

/-- The group of a unit, a row of R456's table. -/
def phyGroup : PhyUnit → Nat
  | .port _ => 0
  | .stack _ => 1
  | .channel _ => 2
  | .ucie _ => 3
  | .tidePll => 4

/-- The state of an outcome, the state before it where it stopped. -/
def stateOf (s : State) (o : Out) : State :=
  match o with
  | .next t => t
  | .fault _ => s
  | .refused _ => s

/-- The loss of one unit: counted, reported, and the unit fails as R456's table says. -/
def State.loseUnit (s : State) (u : PhyUnit) : State :=
  let s1 := (s.count 0x1410 4 0 32).reportFor none clClock (phySuspect u) susModule 0 0
  match u with
  | .port k => if s1.portState k = psDisabled ∨ s1.portState k = psRetired then s1 else s1.loseTo k psTraining
  | .stack h => stateOf s1 (execMemoryUnitNotAnswering (.stack h) s1)
  | .channel c => stateOf s1 (execMemoryUnitNotAnswering (.channel c) s1)
  | .ucie m => s1.retireUcie m
  | .tidePll => s1

/-- REFERENCE_LOSS: the units that report a loss within 10 µs. Losses in all four unit groups, or one of the tide PLL, are a failed reference, and the module saves and closes. -/
def execReferenceLoss (units : List PhyUnit) (s : State) : Out :=
  let groups := ((units.map phyGroup).filter (· < 4)).eraseDups
  let s1 := s.each units State.loseUnit
  .next (if units.contains .tidePll ∨ groups.length ≥ 4 then (s1.setObj 0x1410 1 0 1).saveClose 5 else s1)

/-! ### The tide count (R457-R464) -/

/-- TIDE_SYNC_PULSE: a local counter more than 64 units behind is set forward, one more than 64 ahead holds; either counts in object 1420:06. Smaller differences are removed unit by unit (R458). -/
def execTideSyncPulse (counter master : Nat) (s : State) : Out :=
  .next (if counter + 64 < master ∨ master + 64 < counter then s.count 0x1420 6 0 32 else s)

/-- The port whose IEEE 1588 clock runs: the lowest that has ptp_enable set (R464). -/
def State.ptpPort (s : State) : Option Nat := [12, 13, 14, 15].find? (fun k => s.obj (0x4010 + k) 0x14 == 1)

/-- A rate in parts per 10^9 within ±100 ppm (R462, R464). -/
def clampPpb (x : Int) : Int := max (-100000) (min 100000 x)

/-- PTP_SYNC: firmware publishes the relation of PTP time and the tide count; the time root also steers its rate (R464). -/
def execPtpSync (port baseTide baseNs : Nat) (ratePpb : Int) (s : State) : Out :=
  .next (if s.ptpPort = some port ∧ s.portState port = psEthUp then
    let s1 := (((s.setObj 0x1430 0 0 2).setObj 0x1430 1 0 port).setObj 0x1430 2 0 baseTide).setObj 0x1430 3 0 baseNs
    let s2 := s1.setObj 0x1430 4 0 (unsignedOf ratePpb 32)
    if s2.obj 0x1420 2 = 1 then s2.setObj 0x1420 8 0 (unsignedOf (clampPpb (signedOf (s2.obj 0x1420 8) 32 + ratePpb)) 32) else s2
  else s)

/-- DEVICE_ID_WRITE: BUSY while a job is loaded; otherwise at once, with HELLO and TOPO (R352). -/
def execDeviceIdWrite (sess v : Nat) (s : State) : Out := s.persistOut sess 0x4000 0 3 (leBytes 2 v) (ruleDeviceId v)

end Sys2Proof.Machine
end

