-- ==== Sys2Proof/Machine/Power.lean ====
section
/-! DEFINITION. The supply: the input and its converters, the rails and their phases, cracks, the save and close, the cold start (17_power_delivery.md R407-R429, 24_physical.md R565, R566, R570). -/

namespace Sys2Proof.Machine

/-! ### The rails and their objects (R410, R428, R429) -/

/-- The index of the state object of a rail: 1040+c, 1020+f, or 10A0-10BF in the order VE, VS, VP, VR, VH, DIMM feeds (R429; the order is the model's). -/
def railIx : Rail → Nat
  | .vl c => 0x1040 + c
  | .va f => 0x1020 + f
  | .vf f => 0x1020 + f
  | .ve => 0x10A0
  | .vs k => 0x10A1 + k
  | .vp => 0x10A5
  | .vr => 0x10A6
  | .vh h => 0x10A7 + h
  | .dimm c => 0x10B3 + c

/-- The suspect that a rail is: a plane is named by its cluster (R425, R492). -/
def railSuspect : Rail → Suspect
  | .vl c => susCluster c
  | r => susRail (railIx r - 0x1000)

/-- The key of a VA or VF rail in the tables of `Power`. -/
def fieldKey : Rail → Nat
  | .va f => f
  | .vf f => 6 + f
  | _ => 0

/-- The tide count of a rail's last event, where the rail has that object (R429). -/
def State.stampRail (s : State) (r : Rail) : State :=
  match r with
  | .va _ => s
  | .vf _ => s
  | .dimm c => if c < 13 then s.setObj (0x10B3 + c) 0xD 0 s.tide else s
  | _ => s.setObj (railIx r) 0xD 0 s.tide

/-- One report of a rail under POWER (R491). -/
def State.railReport (s : State) (r : Rail) (status detail : Nat) : State :=
  (s.stampRail r).reportFor none clPower (railSuspect r) susModule status detail

/-- Change the supply. -/
def State.modPower (s : State) (f : Power → Power) : State := { s with power := f s.power }

/-! ### DARK planes and lost fields (R417, R425, R426) -/

/-- A wake of a cluster that is in progress, or waits, is given up; the next wake of its group starts. -/
def State.dropWake (s : State) (c : Nat) : State :=
  let f := clusterField c
  let s1 := s.modWakes f (fun g => { g with queue := g.queue.filter (fun w => w.1 != c) })
  if (s1.wakeOf c).isSome then s1.nextWake f else s1

/-- A VL plane goes DARK: its phases latched off, its clock stopped, the cluster closed (R417, R425). -/
def State.planeDark (s : State) (c : Nat) : State :=
  if s.plane c = plDark then s
  else
    let s1 := ((s.setPlane c plDark).setObj (0x1040 + c) 1 0 0).dropWake c
    let s2 := ((s1.latchPlane c none).setClock c 0 0).setObj (0x1450 + c) 4 0 0
    ((s2.verdict (susCode (susCluster c)) clPower).condemnCluster c clPower).refresh

/-- Does a loaded job hold a tile of a field, or a checked route through it (R426)? -/
def State.usesField (s : State) (q f : Nat) : Bool :=
  match s.job q with
  | some j => (s.jobTiles q).any (fun n => fieldNo n == f) || (s.routersUsed q j.map).any (fun n => fieldNo n == f)
  | none => false

/-- A field is lost: its positions close and, but for HOLE ones, are RETIRED; every job with a tile or a checked route in it halts (R426, R502). -/
def State.fieldLost (s : State) (f : Nat) : State :=
  let tiles := allTiles.filter (fun n => fieldNo n == f)
  let qs := partitionNumbers.filter (fun q => s.usesField q f)
  let s1 := s.each tiles (fun t n =>
    if t.closable n then { t.shutTile n clPower with faults := { t.faults with closing := t.faults.closing ++ [(.tile n, t.drainEnd)] } } else t)
  let s2 := s1.each qs (fun t q => t.haltJob q 0x09)
  let s3 := s2.each (tiles.filter (fun n => s2.tileState n == tsClosed)) (fun t n => t.retireTile n clPower none)
  (s3.reportFor qs.head? clPower (susField f) susModule stDegraded 0 (some (susField f))).refresh

/-- VA.f or VF.f is lost: its object, then the field. -/
def State.fieldRailLost (s : State) (r : Rail) : State :=
  match r with
  | .va f => if s.obj (0x1020 + f) 2 = 2 then s else (s.setObj (0x1020 + f) 2 0 2).fieldLost f
  | .vf f => if s.obj (0x1020 + f) 3 = 2 then s else (s.setObj (0x1020 + f) 3 0 2).fieldLost f
  | _ => s

/-- A per-class rail carries its load no more: the device closes and cold-starts, four ports are lost, a stack or a channel does not answer (R410, R422). -/
def State.railLost (s : State) (r : Rail) : State :=
  let off : State → State := fun t => if railIx r < 0x10C0 then t.setObj (railIx r) 0 0 2 else t
  match r with
  | .vl c => s.planeDark c
  | .va _ => s.fieldRailLost r
  | .vf _ => s.fieldRailLost r
  | .ve => (off s).closeAndStart
  | .vp => (off s).closeAndStart
  | .vr => (off s).closeAndStart
  | .vs k => (off s).each [0, 1, 2, 3] (fun t i =>
      let p := 4 * k + i
      if t.portState p = psRetired ∨ t.portState p = psDisabled then t else t.loseTo p psTraining)
  | .vh h => stateOf (off s) (execMemoryUnitNotAnswering (.stack h) (off s))
  | .dimm c => stateOf (off s) (execMemoryUnitNotAnswering (.channel c) (off s))

/-! ### Phases (R420-R422) -/


/-- The phases a rail has lost, as a mask. -/
def State.phasesLost (s : State) (r : Rail) : Nat :=
  match r with
  | .vl c => (if c < 72 then 7 else 3) - s.obj (0x1040 + c) 1
  | .va f => Tbl.get s.power.lost 0 f
  | .vf f => Tbl.get s.power.lost 0 (6 + f)
  | .dimm _ => 0
  | _ => railPhases (railIx r - 0x10A0) - s.obj (railIx r) 1

/-- The number of phases of a rail (R410). -/
def phaseCount : Rail → Nat
  | .vl c => if c < 72 then 3 else 2
  | .va _ => 4
  | .vf _ => 3
  | .ve => 6
  | .vs _ => 3
  | .vp => 4
  | .vr => 4
  | .vh _ => 2
  | .dimm _ => 0

/-- Disable a phase for good (R420). -/
def State.disablePhase (s : State) (r : Rail) (phase : Nat) : State :=
  match r with
  | .vl c => s.setObj (0x1040 + c) 1 0 (setBit (s.obj (0x1040 + c) 1) phase false)
  | .va _ => s.modPower (fun p => { p with lost := Tbl.put p.lost 0 (fieldKey r) (setBit (Tbl.get p.lost 0 (fieldKey r)) phase true) })
  | .vf _ => s.modPower (fun p => { p with lost := Tbl.put p.lost 0 (fieldKey r) (setBit (Tbl.get p.lost 0 (fieldKey r)) phase true) })
  | _ => s.setObj (railIx r) 1 0 (setBit (s.obj (railIx r) 1) phase false)

/-- What the phases lost do to a rail (R421, R422): `n` phases are lost. -/
def State.phaseEffect (s : State) (r : Rail) (n : Nat) : State :=
  match r with
  | .vl c => if n ≥ phaseCount r then s.planeDark c else s
  | .va f => if n ≥ 3 then s.fieldRailLost r else if n = 2 then s.setObj (0x1020 + f) 2 0 1 else s
  | .vf f => if n ≥ 3 then s.fieldRailLost r else if n = 2 then s.setObj (0x1020 + f) 3 0 1 else s
  | _ => if n ≥ 2 then s.railLost r else s

/-- PHASE_LOST: the phase is disabled and recorded, reported, and the derates follow. A phase already lost, or one the rail has not, changes nothing. -/
def execPhaseLost (rail : Rail) (phase : Nat) (s : State) : Out :=
  .next (if phase ≥ phaseCount rail ∨ bitOf (s.phasesLost rail) phase then s
  else
    let s1 := (s.disablePhase rail phase).railReport rail 0 phase
    (s1.phaseEffect rail (popCount (s1.phasesLost rail) 6)).refresh)

/-- PLANE_SHORT: every phase of the rail is latched off for good (R423, R424). -/
def execPlaneShort (rail : Rail) (s : State) : Out :=
  .next (
    let s1 := s.each (List.range (phaseCount rail)) (fun t i => t.disablePhase rail i)
    (s1.railReport rail 0 0xFF).railLost rail)

/-! ### Remote sense and cracks (R414, R415) -/

/-- Is a rail regulated at its local output (R414)? -/
def State.localSense (s : State) (r : Rail) : Bool :=
  match r with
  | .vl c => s.obj (0x1040 + c) 0xA == 1
  | .va _ => s.power.local'.contains (fieldKey r)
  | .vf _ => s.power.local'.contains (fieldKey r)
  | _ => false

/-- SENSE_FALLBACK: a VL, VA or VF rail regulates at its local output until the next start, reported once. -/
def execSenseFallback (rail : Rail) (s : State) : Out :=
  .next (if s.localSense rail then s
  else match rail with
    | .vl c => (s.setObj (0x1040 + c) 0xA 0 1).railReport rail 0 1
    | .va f => (s.modPower (fun p => { p with local' := p.local' ++ [f] })).railReport rail 0 1
    | .vf f => (s.modPower (fun p => { p with local' := p.local' ++ [6 + f] })).railReport rail 0 1
    | _ => s)

/-- The key of a rail in the counts of R415. -/
def senseKey : Rail → Nat
  | .vl c => c
  | r => 100 + fieldKey r

/-- The baseline Z0 of a rail, in µΩ (R415). -/
def State.baseline (s : State) (r : Rail) : Nat :=
  match r with
  | .vl c => s.obj (0x1040 + c) 9
  | _ => Tbl.get s.power.bases 0 (fieldKey r)

/-- Does a rail have a path resistance check (R415)? -/
def hasSense : Rail → Bool
  | .vl _ => true
  | .va _ => true
  | .vf _ => true
  | _ => false

/-- The current from which Z is computed, in mA (R415). -/
def senseFloor : Rail → Nat
  | .vl c => if c < 72 then 10000 else 3000
  | _ => 10000

/-- Keep what a check measured of a VL plane (R429). -/
def State.keepSense (s : State) (r : Rail) (localMv senseMv ma : Nat) : State :=
  match r with
  | .vl c => ((s.setObj (0x1040 + c) 3 0 senseMv).setObj (0x1040 + c) 4 0 localMv).setObj (0x1040 + c) 5 0 ma
  | _ => s

/-- Keep the resistance computed for a VL plane (R429). -/
def State.keepZ (s : State) (r : Rail) (z : Nat) : State :=
  match r with
  | .vl c => s.setObj (0x1040 + c) 8 0 z
  | _ => s

/-- Count one computation of Z against the baseline: CRACK_SUSPECT at the hundredth in a row above 1.25 Z0, the rail lost at the hundredth in a row above 1.50 Z0 (R415). -/
def State.judgeZ (s : State) (r : Rail) (z : Nat) : State :=
  let k := senseKey r
  let z0 := s.baseline r
  let a := if 4 * z > 5 * z0 then Tbl.get s.power.over125 0 k + 1 else 0
  let b := if 2 * z > 3 * z0 then Tbl.get s.power.over150 0 k + 1 else 0
  let s1 := s.modPower (fun p => { p with over125 := Tbl.put p.over125 0 k (min a 100), over150 := Tbl.put p.over150 0 k (min b 100) })
  let s2 := if a ≥ 100 ∧ !s.power.suspect.contains k then (s1.modPower (fun p => { p with suspect := p.suspect ++ [k] })).railReport r 0 2 else s1
  if b ≥ 100 then s2.railLost r else s2

/-- PATH_RESISTANCE_CHECK: Z of a VL, VA or VF rail that carries enough current and whose sense is not in fault; an open sense is a loss at once. -/
def execPathResistanceCheck (rail : Rail) (localMv senseMv ma : Nat) (senseOpen : Bool) (s : State) : Out :=
  .next (if !hasSense rail ∨ s.localSense rail then s
  else
    let s1 := s.keepSense rail localMv senseMv ma
    if senseOpen then (s1.railReport rail 0 3).railLost rail
    else if ma < senseFloor rail then s1
    else
      let z := 1000000 * (localMv - senseMv) / ma
      (s1.keepZ rail z).judgeZ rail z)

/-- CRACK_CHAIN_CHECK: each field's chain as measured; an open one is reported, and the field runs on until the next start. -/
def execCrackChainCheck (openFields : List Nat) (s : State) : Out :=
  .next (s.each (List.range 6) (fun t f =>
    let open' := openFields.contains f
    let t1 := t.setObj (0x1020 + f) 4 0 (if open' then 1 else 0)
    if open' && t.obj (0x1020 + f) 4 == 0 then t1.reportFor none clPower (susField f) susModule 0 4 else t1))

/-! ### The input (R407-R409) -/

/-- INPUT_SAG: a busbar sample below 40 V begins a sag, or goes on with one; at 40 V or above the sag is over. -/
def execInputSag (mv : Nat) (s : State) : Out :=
  .next (if s.power.closed then s
  else
    let s1 := s.setObj 0x1000 0 0 mv
    if mv ≥ 40000 then s1.modPower (fun p => { p with sag := none })
    else if s.power.sag.isSome then s1
    else (s1.count 0x1000 2 0 32).modPower (fun p => { p with sag := some s.elapsed }))

/-- SAVE_AND_CLOSE: more than 1 ms into a sag the module saves and closes. -/
def execSaveAndClose (s : State) : Out := .next (if s.power.sag.elim false (fun t => decide (t + msTide < s.elapsed)) then s.saveClose 1 else s)

/-- INPUT_OVERVOLTAGE: above 60 V the input eFuse opens and the module saves and closes. -/
def execInputOvervoltage (mv : Nat) (s : State) : Out :=
  .next (if s.power.closed then s
  else
    let s1 := s.setObj 0x1000 0 0 mv
    if mv > 60000 then s1.saveClose 1 else s1)

/-- BUSCONV_LOST: the converter is disabled for good; the second loss limits the cap, the third closes the module (R408). -/
def execBusconvLost (i : Nat) (s : State) : Out :=
  .next (if s.obj 0x1000 4 i = 1 ∨ i ≥ 4 then s
  else
    let s1 := (s.setObj 0x1000 4 i 1).reportFor none clPower susModule susModule 0 i
    let n := (s1.objs 0x1000 4 4).sum
    if n ≥ 3 then s1.saveClose 1
    else if n = 2 then (s1.modPower (fun p => { p with capHold := true })).refresh
    else s1)

/-- DIMM_FEED_TRIP: the channel does not answer (R320, R570). -/
def execDimmFeedTrip (ch : Nat) (s : State) : Out :=
  execMemoryUnitNotAnswering (.channel ch) ((if ch < 13 then s.setObj (0x10B3 + ch) 0 0 2 else s).railReport (.dimm ch) 0 0)

/-! ### Power off and cold start (R9, R467, R565, R566) -/

/-- POWER_OFF_N_LOW: after 10 ms the module saves and closes; a closed one does not start. -/
def execPowerOffNLow (s : State) : Out := .next ((s.saveClose 2).modPower (fun p => { p with pinLow := true }))

/-- The rails rise and a cold start begins. -/
def State.coldStart (s : State) (inputMv : Nat) : State := (s.startUp 1).setObj 0x1000 0 0 inputMv

/-- POWER_OFF_N_RELEASE: with the input at 42 V or above a closed module cold-starts, but for a close by heat, which R441 ends. -/
def execPowerOffNRelease (inputMv : Nat) (s : State) : Out :=
  let s1 := s.modPower (fun p => { p with pinLow := false })
  .next (if s.power.closed ∧ s.power.cause ≠ 3 ∧ inputMv ≥ 42000 then s1.coldStart inputMv else s1)

/-- COLD_START: the input has been at 42 V or above for 100 ms. -/
def execColdStart (inputMv : Nat) (s : State) : Out :=
  .next (if s.power.closed ∧ s.power.cause ≠ 3 ∧ !s.power.pinLow ∧ inputMv ≥ 42000 then s.coldStart inputMv else s)

end Sys2Proof.Machine
end

