-- ==== Sys2Proof/Machine/Measure.lean ====
section
/-! DEFINITION. Firmware images and measurements: the check of an image, the measurement registers, the credential table (23_security.md R543-R546, R553). -/

namespace Sys2Proof.Machine

/-- The bytes of a text of ASCII characters. -/
def ascii (t : String) : List Byte := t.toList.map (fun c => BitVec.ofNat 8 c.toNat)

/-! ### Images (R543, R544) -/

/-- The image in firmware flash `i`: the factory's where nothing was programmed. -/
def State.imageBytes (s : State) (i : Nat) : List Byte := (s.sec.images.getD i none).getD Config.factoryImage

/-- The header row of an image (R543). -/
def imageHead (b : List Byte) : Nat := leNat (b.take 32)

/-- The fields of the header (R543). -/
def imageSvn (b : List Byte) : Nat := fieldOf (imageHead b) 152 8
def imageBuild (b : List Byte) : Nat := fieldOf (imageHead b) 160 32

/-- An SLH-DSA-SHA2-192s signature's bytes (R543). -/
abbrev sigBytes : Nat := 16224

/-- Does an image verify: its layout and length, the public key's hash, the security version, the signature (R543, R544)? -/
def verifyImage (svnFuse : Nat) (b : List Byte) : Bool :=
  let h := imageHead b
  let body := b.take (b.length - sigBytes)
  let key := (b.drop 32).take 48
  fieldOf h 224 32 == 0x4B545846 && decide (b.length ≤ 56 * 1048576) && fieldOf h 192 32 == b.length
    && fieldOf h 120 32 + 32 + 48 + sigBytes == b.length && fieldOf h 0 120 == 0
    && sha256 key == Config.rootKeyHash && decide (svnFuse ≤ imageSvn b) && decide (imageSvn b ≤ 64)
    && Config.slhVerify key body (b.drop (b.length - sigBytes))

/-- Does the boot ROM accept the image of a flash? `readable`: the flash reads as it was programmed. The factory's image verifies. -/
def State.accepts (s : State) (i : Nat) (readable : Bool) : Bool :=
  readable && (match s.sec.images.getD i none with
    | none => true
    | some b => verifyImage (s.obj 0x8000 1) b)

/-! ### Measurements (R545) -/

/-- The eight measurement registers; zero at a cold or warm start. -/
def State.measures (s : State) : List (List Byte) := if s.sec.meas.length = 8 then s.sec.meas else List.replicate 8 (List.replicate 32 0)

/-- Extend a measurement register: M = SHA-256(M ‖ d). -/
def State.extendMeas (s : State) (k : Nat) (d : List Byte) : State :=
  let ms := s.measures
  { s with sec := { s.sec with meas := ms.set k (sha256 (ms.getD k [] ++ d)) } }

/-- The key of a credential (R553). -/
def Credential.bytes (c : Credential) : List Byte := c.key.getD Config.factoryKey

/-- The state code of a credential: 0 empty, 1 active, 2 locked (R553). -/
def State.credState (s : State) (k : Nat) : Nat :=
  match Tbl.get s.sec.creds none k with
  | none => 0
  | some _ => if s.bamurn.locked.any (fun e => e.1 == k) then 2 else 1

/-- An entry of object 8000:03 (R553). -/
def State.credRow (s : State) (k : Nat) : Nat :=
  match Tbl.get s.sec.creds none k with
  | none => 2 ^ 16 * k
  | some c => 2 ^ 64 * leNat ((sha256 c.bytes).take 8) + 2 ^ 32 * c.rights + 2 ^ 24 * s.credState k + 2 ^ 16 * k

/-- The credential table as measured: object 8000:03, 16 bytes for each credential (R545, R553). -/
def State.credTable (s : State) : List Byte := (List.range 16).flatMap (fun k => leBytes 16 (s.credRow k))

/-- M4 is extended with the credential table, object 8020:02 and object 9010:00 (R545). -/
def State.measureConfig (s : State) : State :=
  s.extendMeas 4 (sha256 (s.credTable ++ s.sec.tlsChain ++ (s.objs 0x9010 0 256).flatMap (leBytes 48)))

end Sys2Proof.Machine
end

