-- ==== Sys2Proof/Machine/Mgmt.lean ====
section
/-! DEFINITION. The management port: its access to the medium, its addresses, the frames it takes (16_object_dictionary.md R379, R380). -/

namespace Sys2Proof.Machine

/-- How the port shares its medium: CSMA/CD, or PLCA with its node identifier (R380). -/
inductive MgmtAccess where
  | csmaCd
  | plca (node : Nat)
  deriving DecidableEq, Repr

/-- The access of the management port: CSMA/CD where the node identifier is 0xFF (R380). -/
def MgmtPort.access (m : MgmtPort) : MgmtAccess := if m.node = 0xFF then .csmaCd else .plca m.node

/-- The nodes that the port sends the beacon for: only node 0, the coordinator, sends it (R380). -/
def State.beaconNodes (s : State) : Option Nat :=
  match s.bamurn.mgmt.access with
  | .plca 0 => some (s.obj 0x0280 5)
  | _ => none

/-- The port's MAC address (R406). -/
def State.mgmtMac (s : State) : Nat := fieldOf (s.obj 0x0280 3) 0 48

/-- The IPv6 link-local address derived from a MAC address. PRESUMED (notes/assumptions/131.md): by the modified EUI-64 of RFC 4291, fe80::/64. -/
def linkLocal (mac : Nat) : Nat :=
  2 ^ 112 * 0xFE80 + 2 ^ 40 * (fieldOf mac 24 24 ^^^ 0x020000) + 2 ^ 24 * 0xFFFE + fieldOf mac 0 24

/-- The addresses of the management port: the link-local one, and object 0280:01 where it is not zero (R380). -/
def State.mgmtAddresses (s : State) : List Nat :=
  linkLocal s.mgmtMac :: (if s.bamurn.mgmt.address = 0 then [] else [s.bamurn.mgmt.address])

/-- The length of the frame of a datagram: Ethernet header and check sequence, IPv6 header, extension headers, UDP header, message. PRESUMED (notes/assumptions/131.md): 14 + 4, 40 and 8 bytes. -/
def mgmtLength (f : MgmtFrame) (n : Nat) : Nat := 66 + f.extra + n

/-- Does the port take a frame whose message has `n` bytes: 64 to 1,518 B, untagged, IPv6, no fragment, addressed to it and to the UDP port it listens on (R379, R380)? -/
def State.takesFrame (s : State) (f : MgmtFrame) (n : Nat) : Bool :=
  decide (64 ≤ mgmtLength f n) && decide (mgmtLength f n ≤ 1518) && !f.vlan && f.ipv6 && !f.fragment
    && f.mac.all (fun a => a == s.mgmtMac)
    && f.dst.all (fun a => s.mgmtAddresses.contains a)
    && f.udpPort.all (fun u => u == s.bamurn.mgmt.udpPort)

/-- The port comes up at S1 with the objects that apply at a start; the coordinator sends its beacon (R380, R406, R469). -/
def State.mgmtUp (s : State) : State :=
  let s1 := { s with bamurn := { s.bamurn with mgmt := { udpPort := s.obj 0x0280 0, address := s.obj 0x0280 1, node := s.obj 0x0280 4 } } }
  match s1.beaconNodes with
  | some n => s1.emit (.beacon n)
  | none => s1

end Sys2Proof.Machine
end

