-- ==== Sys2Proof/Machine/Boot.lean ====
section
/-! DEFINITION. The stages of a start, the next attempt, the start command, the test session (20_bring_up.md R467-R490, 00_scope.md R8-R11). -/

namespace Sys2Proof.Machine

/-- Change the start in progress. -/
def State.modBoot (s : State) (f : Boot → Boot) : State := { s with boot := f s.boot }

/-- Is an adjustment bit in force in this start (R488)? -/
def State.adjusted (s : State) (bit : Nat) : Bool := bitOf s.boot.adjust bit

/-- The positions that are, or were when they closed, OFFERED, IDLE or ACTIVE. -/
def State.offeredSet (s : State) : List Nat :=
  allTiles.filter (fun n =>
    let st := if s.tileState n = tsClosed then (s.tile n).before else s.tileState n
    st == tsOffered || st == tsIdle || st == tsActive)

/-- The state a CLOSED tile returns to when its retest passes: the one before, with ACTIVE and IDLE read as OFFERED (R502). -/
def openState (before : Nat) : Nat := if before = tsReserve then tsReserve else tsOffered

/-! ### S0 and S1 (R469, R544) -/

/-- S0 fails over a rail that the device cannot run without (R410, R422). -/
def State.stage0 (s : State) (r : StageReport) : State :=
  match r.failed, [0x10A0, 0x10A5, 0x10A6].find? (fun i => s.obj i 0 == 2 || decide (popCount (railPhases (i - 0x10A0) - s.obj i 1) 6 ≥ 2)) with
  | some (u, _), _ => s.failStart u stDegraded
  | none, some i => s.failStart i stDegraded
  | none, none => s

/-- The memory test modes of this start, and the objects that a later write does not change for it (R481, R489). -/
def State.settleStart (s : State) : State :=
  let m := s.boot.memNext.getD (s.obj 0x7030 (if s.obj 0x7000 0 = 1 then 0 else 1))
  s.modBoot (fun b => { b with testHbm := if bitOf b.adjust 5 then 2 else m, testDdr := m, memNext := none, policy := s.obj 0x7020 0, topoHold := s.obj 0x7040 0 == 1, topoWait := s.obj 0x7040 2, expected := s.objs 0x7040 1 16, saved := if bitOf b.adjust 3 then b.saved.filter (fun e => e.unit / 4096 != 4 && e.unit / 4096 != 8) else b.saved })

/-- Which objects S1 restores from the record flash: all, but under adjustment bit 7 four ranges only (R488). -/
def restores (adjust index : Nat) : Bool :=
  !bitOf adjust 7 || [0x02].contains (index / 256) || [4, 7, 8].contains (index / 4096)

/-- S1: an image is chosen and measured, the slot sampled, the record flash scanned, the management port up (R380, R402, R469, R544, R545, R564). -/
def State.stage1 (s : State) (r : StageReport) : State :=
  let sel := s.obj 0x7060 4 % 2
  let first := if s.obj 0x7060 0 sel = 1 then 1 - sel else sel
  let ok := fun (i : Nat) => s.accepts i (r.imageOk.getD i true)
  if !ok first ∧ !ok (1 - first) then ((s.markImage (1 - first)).markImage first).failStart (0x2000 + first) stRefused true
  else
    let run := if ok first then first else 1 - first
    let s1 := if ok first then s else s.markImage first
    let s2 := { s1 with running := run }
    match r.failed with
    | some _ => s2.failStart (0x2000 + run) stRefused
    | none =>
      let b := s2.imageBytes run
      let s3 := (s2.setObj 0x7060 0 run 0).setObjs 0x7060 1 0 [imageBuild (s2.imageBytes 0), imageBuild (s2.imageBytes 1)]
      let s4 := (s3.extendMeas 0 (sha256 b)).extendMeas 1 (leBytes 1 (imageSvn b) ++ leBytes 1 (s3.obj 0x8000 1) ++ leBytes 1 run)
      (((s4.scanFlash (restores s4.boot.adjust)).setObj 0x0280 8 0 (r.slotId % 16)).mgmtUp).settleStart

/-! ### S2 (R471-R473) -/

/-- Give the rails their baselines from the fuses (R415, R471). -/
def State.loadBaselines (s : State) : State :=
  (s.each (List.range 90) (fun t c => t.setObj (0x1040 + c) 9 0 (Config.railBase c))).modPower (fun p =>
    { p with bases := (List.range 12).foldl (fun b i => Tbl.put b 0 i (Config.railBase (100 + i))) [] })

/-- Derive the plan again under R21; RETIRED and CLOSED positions keep their state, a CLOSED one with its derived state as the one before (R21, R473, R488). -/
def State.derivePlan (s : State) : State :=
  let kept := allTiles.filter (fun n => s.tileState n == tsRetired || s.tileState n == tsClosed)
  let d := s.deriveOffered
  let d1 := d.each kept (fun t n => if s.tileState n = tsClosed then (t.modTile n (fun x => { x with before := d.tileState n })).setTileState n tsClosed else t.setTileState n tsRetired)
  let d2 := { d1 with floor := { d1.floor with chosen := [] } }
  d2.each (kept.filter (fun n => s.tileState n == tsRetired && d.tileState n == tsOffered)) State.chooseReplacement

/-- A position is excluded at a start: RETIRED, unless it is HOLE or RETIRED already (R473). -/
def State.exclude (s : State) (n : Nat) : State :=
  let st := s.tileState n
  if st = tsHole ∨ st = tsRetired then s
  else (if st = tsClosed then s else s.modTile n (fun t => { t with before := st })).retireTile n clPower none

/-- Must a position be RETIRED for its plane, its field, its crack chain or its clock generator (R473)? -/
def State.excluded (s : State) (n : Nat) : Bool :=
  let f := fieldNo n
  s.plane (clusterOf n) == plDark || s.obj (0x1450 + clusterOf n) 0 == 4
    || s.obj (0x1020 + f) 2 == 2 || s.obj (0x1020 + f) 3 == 2 || s.obj (0x1020 + f) 4 == 1

/-- S2: the fuses, the crack chains, the floor plan, whose detour entries are one event (R177, R471-R473, R415, R545). -/
def State.stage2 (s : State) (r : StageReport) : State :=
  let s0 := ((s.setObj 0x7050 0 0 r.fuseFixed).setObj 0x7050 1 0 (if s.adjusted 2 then 1 else 0)).loadBaselines
  match r.fuseBadRow with
  | some row => s0.failStart (0x3000 + row) stUncorrectable
  | none =>
    let before := s0.offeredSet
    let s1 := s0.each r.openChains (fun t f => (t.setObj (0x1020 + f) 4 0 1).reportFor none clPower (susField f) susModule 0 4)
    let s2 := if s1.floor.stored ∧ !s1.adjusted 2 then s1 else s1.derivePlan
    let s3 := s2.each (allTiles.filter s2.excluded) State.exclude
    let s4 := s3.each (allTiles.filter (fun n => s3.tileState n == tsIdle || s3.tileState n == tsActive)) (fun t n => t.setTileState n tsOffered)
    let s5 := (s4.setDetours allTiles).1
    (s5.modBoot (fun b => { b with changed := s5.offeredSet != before })).extendMeas 2 (sha256 Config.fuseBlock)

/-! ### Training (R357, R303, R309, R475, R476) -/

/-- What training found for a unit of a stage. -/
def foundFor (r : StageReport) (n : Nat) : Option Trained := r.trained.find? (fun t => t.number == n)

/-- Did a unit pass? -/
def passed (r : StageReport) (n : Nat) : Bool := (foundFor r n).elim false (fun t => decide (t.rate > 0))

/-- Is the saved entry of a unit valid (R475)? -/
def State.savedValid (s : State) (unit identity : Nat) : Bool :=
  s.boot.policy == 0 && s.boot.saved.any (fun e => e.unit == unit && e.identity == identity)

/-- The entry of a unit that trained in full is rewritten (R475, R476); `force`: an adjustment made every unit train in full. -/
def State.noteTrained (s : State) (cls : Nat) (force : Bool) (t : Trained) : State :=
  let unit := cls * 4096 + t.number
  if t.full || force || !s.savedValid unit t.identity then
    s.modBoot (fun b => { b with full := true, saved := if t.rate = 0 then b.saved else b.saved.filter (fun e => e.unit != unit) ++ [{ identity := t.identity, unit := unit, rate := t.rate, starts := s.obj 0x7000 7 }] })
  else s

/-- A unit is retired or excluded at this start (R320, R358, R483). -/
def State.unitLost (s : State) (cls : Nat) (x : Suspect) : State :=
  (s.modBoot (fun b => { b with lostUnit := true })).reportFor none cls x x stDegraded 0 (some x)

/-- S3: the UCIe modules; the start fails with all retired (R357, R358, R476). -/
def State.stage3 (s : State) (r : StageReport) : State :=
  let s1 := s.each r.trained (fun t x => t.noteTrained 4 (t.adjusted 3) x)
  let s2 := s1.each (List.range 8) (fun t m => if passed r m then (t.toModule m 2).modUcie m (fun _ => {}) else (t.toModule m 3).unitLost clLink (susUcie m))
  if (List.range 8).all (fun m => !passed r m) then s2.failStart 0x4000 stDegraded else s2

/-- The data rates of a DIMM type, highest first (R309). -/
def ddrRates (isMr : Bool) : List Nat := if isMr then [8800, 8000] else [6400, 5600, 4800]

/-- S4: the DDR5 channels and their interleave (R309, R320, R476); under adjustment bit 4 none is trained (R488). -/
def State.stage4 (s : State) (r : StageReport) : State :=
  let s0 := s.each r.dimms (fun t d => t.setObj (0x3110 + d.channel) 1 0 d.capacity)
  match r.failed with
  | some _ => s0.failStart 0x5FFF stDegraded
  | none =>
    if s.adjusted 4 then s0.each r.dimms (fun t d => t.setObj (0x3110 + d.channel) 0 0 2)
    else
      let mr := r.dimms.countP (·.isMr)
      let type' := decide (mr > r.dimms.length - mr)
      let mine := r.dimms.filter (fun d => d.isMr == type')
      let works := fun (d : Dimm) => passed r d.channel && decide (s.obj (0x3110 + d.channel) 6 ≤ 32)
      let used := mine.filter works
      let s1 := s0.each (r.trained.filter (fun t => mine.any (fun d => d.channel == t.number))) (fun t x => t.noteTrained 5 false x)
      let s2 := s1.each (r.dimms.filter (fun d => d.isMr != type')) (fun t d => t.setObj (0x3110 + d.channel) 0 0 2)
      let s3 := s2.each (mine.filter (fun d => !works d)) (fun t d => (t.setObj (0x3110 + d.channel) 0 0 3).unitLost clMemoryUncorrectable (susChannel d.channel))
      let s4 := s3.each used (fun t d => t.setObj (0x3110 + d.channel) 0 0 1)
      let caps := used.map (·.capacity)
      let rate := ((ddrRates type').find? (fun x => used.all (fun d => d.rates.contains x))).getD 0
      if used.isEmpty then s4
      else (((s4.setObj 0x3100 0 0 (if type' then 2 else 1)).setObj 0x3100 1 0 rate).setObj 0x3100 2 0 (used.foldl (fun m d => setBit m d.channel true) 0)).setObj 0x3100 3 0 (used.length * caps.foldl min (caps.headD 0))

/-- Object 3000:01: 256 GiB for each region whose two stacks are in use (R320). -/
def State.setHbmCapacity (s : State) : State :=
  s.setObj 0x3000 1 0 (regionBytes * ((List.range 6).filter (fun f => s.obj (0x3010 + 2 * f) 0 < 2 && s.obj (0x3011 + 2 * f) 0 < 2)).length)

/-- A stack is retired from this start on (R320). -/
def State.dropStack (s : State) (h : Nat) : State := ((s.setObj (0x3010 + h) 0 0 2).unitLost clMemoryUncorrectable (susStack h)).setHbmCapacity

/-- The start fails where H0 or H1 is retired (R476, R480). -/
def State.needModuleRange (s : State) : State :=
  match [0, 1].find? (fun h => s.obj (0x3010 + h) 0 == 2) with
  | some h => s.failStart (0x6000 + h) stDegraded
  | none => s

/-- S5: the HBM stacks (R303, R320, R476). -/
def State.stage5 (s : State) (r : StageReport) : State :=
  let s1 := s.each r.trained (fun t x => t.noteTrained 6 (t.adjusted 5) x)
  let s2 := s1.each (List.range 12) (fun t h =>
    let banks := t.obj (0x3010 + h) 6
    let u := t.setObj (0x3010 + h) 1 0 ((foundFor r h).elim 0 (·.rate))
    if !passed r h ∨ banks > 64 then u.dropStack h else u.setObj (0x3010 + h) 0 0 (if banks > 0 then 1 else 0))
  s2.setHbmCapacity.needModuleRange

/-! ### S6 (R477-R481) -/

/-- The server of a number in a test read: a stack, or 12 and a channel. -/
def testServer (n : Nat) : Server := if n < 12 then .stack n else .channel (n - 12)

/-- The address pattern of a codeword: its byte address, inverted in every second 64-bit word (R477). -/
def addressPattern (row : Nat) : Row :=
  let a := 32 * row % 2 ^ 64
  let pair := 2 ^ 64 * (2 ^ 64 - 1 - a) + a
  BitVec.ofNat 256 (2 ^ 128 * pair + pair)

/-- The four backgrounds of a FULL test (R478). -/
def background (b row : Nat) : Row :=
  if b = 0 then 0
  else if b = 1 then BitVec.ofNat 256 ((2 ^ 256 - 1) / 3)
  else if b = 2 then (if row % 2 = 1 then ~~~(BitVec.ofNat 256 ((2 ^ 256 - 1) / 5)) else BitVec.ofNat 256 ((2 ^ 256 - 1) / 5))
  else addressPattern row

/-- An element of a memory test: its address order, what it reads and what it writes, `some true` the complement of the background (R478). -/
structure Element where
  ascending : Bool
  reads     : Option Bool
  writes    : Option Bool
  deriving DecidableEq, Repr

/-- The six elements of a FULL test (R478). -/
def fullElements : List Element :=
  [⟨true, none, some false⟩, ⟨true, some false, some true⟩, ⟨true, some true, some false⟩,
   ⟨false, some false, some true⟩, ⟨false, some true, some false⟩, ⟨true, some false, none⟩]

/-- The elements of a QUICK test: write the address pattern, read and compare (R477). -/
def quickElements : List Element := [⟨true, none, some false⟩, ⟨true, some false, none⟩]

/-- The elements of a mode over a background, before its zero sweep (R477): QUICK uses the address pattern alone, NONE none. -/
def elementsOf (mode b : Nat) : List Element :=
  if mode = 2 ∧ b < 4 then fullElements else if mode = 1 ∧ b = 3 then quickElements else []

/-- The codeword that a read of an element expects; none where the mode makes no such read (R477, R478). -/
def expectedWord (mode b element row : Nat) : Option Codeword :=
  match (elementsOf mode b)[element]? with
  | some e => e.reads.map (fun inv => encodeRow (if inv then ~~~(background b row) else background b row))
  | none => none

/-- The test mode of a server in this start (R481). -/
def State.testMode (s : State) (n : Nat) : Nat := if n < 12 then s.boot.testHbm else s.boot.testDdr

/-- Is a server in use, and so tested? -/
def State.tests (s : State) (n : Nat) : Bool :=
  if n < 12 then decide (s.obj (0x3010 + n) 0 < 2) else s.obj (0x3110 + (n - 12)) 0 == 1

/-- Does a read fail: does any of its 272 raw bits differ from what was written (R478)? -/
def State.readFails (s : State) (r : TestRead) : Bool :=
  s.tests r.server && (expectedWord (s.testMode r.server) r.background (r.element - 1) r.row).elim false (fun w => r.raw != w)

/-- The server, bank and row of a test read. -/
def State.testedRow (s : State) (r : TestRead) : Nat × Nat × Nat := (r.server, s.bankRow (testServer r.server) r.row)

/-- S6: every row with a failing codeword is retired, and the bank of one that fails its retest; the zero sweep clears HBM and DDR5, and with them the context table (R477-R480). -/
def State.stage6 (s : State) (r : StageReport) : State :=
  let bad := r.reads.filter s.readFails
  let first := bad.filter (fun x => !x.retest)
  let rows := (first.map s.testedRow).eraseDups
  let again := ((bad.filter (·.retest)).map s.testedRow).eraseDups
  let s1 := s.each rows (fun t x => t.retireRow (testServer x.1) x.2.1 x.2.2)
  let s2 := s1.each (again.filter rows.contains) (fun t x => t.retireBank (testServer x.1) x.2.1)
  let s3 : State := { s2.modBoot (fun b => { b with rows := rows.length }) with hbm := [], ddr := [], ctxs := [], cached := [] }
  let s4 := (s3.setObj 0x7030 3 0 ((first.map (fun x => (x.server, x.row))).eraseDups).length).setObj 0x7030 4 0 rows.length
  let s5 := s4.each ((List.range 12).filter (fun h => decide (s4.obj (0x3010 + h) 0 < 2) && decide (s4.obj (0x3010 + h) 6 > 64))) State.dropStack
  s5.needModuleRange

/-! ### S7 (R474) -/

/-- The cluster that adjustment bit 6 leaves gated (R488). -/
def State.skipped (s : State) : Option Nat := if s.adjusted 6 then s.boot.badCluster else none

/-- A tile that fails the tile test becomes RETIRED, and its neighbours' detour entries are set, an event of its own (R177, R181, R474). -/
def State.failTile (s : State) (n : Nat) : State :=
  let s1 := if s.tileState n = tsClosed then s else s.modTile n (fun x => { x with before := s.tileState n })
  ((s1.retireTile n clTileData none).setDetours (neighbours n)).1

/-- A CLOSED tile that passes its retest returns and forwards again. DEDUCED (notes/assumptions/130.md): the entries around it are written anew, which is no event of R177. -/
def State.reopenTile (s : State) (n : Nat) : State :=
  (s.setTileState n (openState (s.tile n).before)).writeDetours (neighbours n)

/-- The scrub of a tile in S7: rows queued for sparing first, the read-back last; a tile that fails it closes (R84, R97, R98). -/
def State.scrubAtStart (s : State) (n : Nat) : State :=
  let st := s.tileState n
  let s1 := s.each (s.tile n).queued (fun t r => (t.spareRow n r.1 r.2).1)
  let s2 := s1.modTile n (fun t => { before := t.before, cause := t.cause, spared := t.spared })
  let s3 := (s2.setObj (tileIx n) 0x29 0 s2.tide).checkScrub n
  if s3.scrubFailed n then s3.failScrub n st else s3

/-- S7: self-test, wake of the clusters, tile test, scrub, the scour package copied to HBM (R97, R521, R474, R488, R502). A recovery start tests the CLOSED tiles only (R516). -/
def State.stage7 (s : State) (r : StageReport) : State :=
  match r.badBlock with
  | some b => s.failStart (0x9000 + b) stDegraded
  | none =>
    let recovery := s.obj 0x7000 0 == 3
    let before := s.offeredSet
    let s1 := s.each ((List.range 90).filter (fun c => s.plane c != plDark && s.obj (0x1450 + c) 0 != 4 && s.skipped != some c)) (fun t c =>
      if t.plane c = plOn then t else ((t.retarget c).clusterOn c).count (0x1040 + c) 0xC 0 32)
    let s2 := s1.each (s1.skipped.toList.flatMap tilesOfCluster) (fun t n => t.shutTile n 0)
    let tested := allTiles.filter (fun n => s2.tileState n != tsHole && s2.tileState n != tsRetired && s2.skipped != some (clusterOf n) && (!recovery || s2.tileState n == tsClosed))
    let sp := (r.sparedRows.filter (fun x => tested.contains x.1)).foldl (fun (a : State × List Nat) x =>
      let y := a.1.spareRow x.1 x.2.1 x.2.2
      (y.1, if y.2 then a.2 else a.2 ++ [x.1])) (s2, [])
    let bad := tested.filter (fun n => r.badTiles.contains n || sp.2.contains n)
    let s3 := sp.1.each bad State.failTile
    let s4 := s3.each (tested.filter (fun n => s3.tileState n == tsClosed)) State.reopenTile
    let s5 := s4.each (allTiles.filter (fun n => s4.tileState n != tsHole && s4.tileState n != tsRetired && s4.tileState n != tsClosed)) State.scrubAtStart
    let s6 := (chunked 32 (s5.pkg.active.getD Config.factoryPackage)).zipIdx.foldl (fun (t : State) e => t.putHbm (0x2200_0000 / 32 + e.2) (BitVec.ofNat 256 e.1)) s5
    let s7 := if s6.boot.changed || s6.offeredSet != before then s6.count 0x2000 0 0 32 else s6
    if recovery then s7 else s7.extendMeas 3 (sha256 (s7.pkg.active.getD Config.factoryPackage))

/-! ### S8 to S10 (R482, R484) -/

/-- S8: every port takes its mode and trains (R324, R327). -/
def State.stage8 (s : State) (r : StageReport) : State :=
  let s1 := s.each r.trained (fun t x => t.noteTrained 8 (t.adjusted 3) x)
  s1.each (List.range 16) (fun t k => t.resetPort k false)

/-- Does a topology entry expect anything (R482)? -/
def expects (e : Nat) : Bool := bitOf e 0 || fieldOf e 64 64 != 0 || fieldOf e 48 16 != 0xFFFF || fieldOf e 44 4 != 0xF

/-- Does the peer of a port match its entry (R482)? -/
def State.peerMatches (s : State) (k e : Nat) : Bool :=
  let p := s.obj (0x4010 + k) 3
  (fieldOf e 64 64 == 0 || fieldOf e 64 64 == (s.port k).serial) && (fieldOf e 48 16 == 0xFFFF || fieldOf e 48 16 == fieldOf p 16 16)
    && (fieldOf e 44 4 == 0xF || fieldOf e 44 4 == fieldOf p 12 4)

/-- Is every required port UP or UP3 with a matching peer (R482)? -/
def State.topologyMet (s : State) : Bool :=
  (List.range 16).all (fun k => !bitOf (s.boot.expected.getD k 0) 0 || (s.portUp k && s.peerMatches k (s.boot.expected.getD k 0)))

/-- S9 ends: the mismatching and missing ports are recorded, and mismatching ones held in FOREIGN where the policy says so (R482). -/
def State.stage9 (s : State) : State :=
  let entry := fun k => s.boot.expected.getD k 0
  let wrong := (List.range 16).filter (fun k => s.portUp k && !s.peerMatches k (entry k))
  let missing := (List.range 16).filter (fun k => !s.portUp k && expects (entry k))
  let s1 := (s.setObj 0x7040 3 0 ((wrong ++ missing).foldl (fun m k => setBit m k true) 0)).modBoot (fun b => { b with mismatch := !(wrong ++ missing).isEmpty })
  if s.boot.topoHold then s1.each wrong (fun t k => (t.modPort k (fun p => { p with held := true })).loseTo k psForeign) else s1

/-- S10: the persistent configurations are applied; the services of object 7000:05 start, but for a recovery start and under adjustment bit 7 (R484, R488). -/
def State.stage10 (s : State) (r : StageReport) : State :=
  match r.failed with
  | some _ => s.failStart 0xA000 stNotReady
  | none =>
    let s1 := s.each partitionNumbers (fun t q =>
      let x := rulePartitionApply q 1 t
      if x.2 = stOk ∨ x.2 = stPending then x.1 else t.reportFor (some q) clProgram (susPartition q) (susPartition q) x.2 0)
    let s2 := s1.each (partitionNumbers.filter s1.configured) (fun t q => (rulePoolApply q 1 t).1)
    let s3 := (ruleExpertApply 1 s2).1
    let s4 := if s3.obj 0x7000 0 = 3 then s3 else s3.measureConfig
    if s4.obj 0x7000 0 = 3 ∨ s4.adjusted 7 then s4
    else s4.each (bitsOf (s4.obj 0x7000 5) 16) (fun t n => (ruleSvc n 2 (ruleSvc n 1 t).1).1)

/-! ### S11 (R483) -/

/-- May READY be declared (R483)? -/
def State.mayReady (s : State) : Bool :=
  [0, 1].all (fun h => decide (s.obj (0x3010 + h) 0 < 2)) && (List.range 8).any (fun m => s.obj (0x3210 + m) 0 == 2) && decide (s.tilesOffered ≥ 1)

/-- Is DEGRADED reported at READY (R483)? -/
def State.degraded (s : State) : Bool := decide (s.tilesOffered < s.gradeCount) || s.boot.lostUnit || s.adjusted 4

/-- A latched mode change runs once the transition has completed (R10, R489). -/
def State.runLatched (s : State) : State :=
  let s1 := { s with device := { s.device with latched := none } }
  match s.device.latched with
  | some (.warmStart _) => s1.startUp 2
  | some (.coldStart _) => s1.startUp 1
  | some (.recoveryReset _) => s1.recover 1
  | _ => s1

/-- Once a recovery start is READY the serving firmware reloads the jobs of its services (R9, R484). -/
def State.reloadJobs (s : State) : State :=
  s.each (serviceNumbers.filter (fun n => s.svcState n == svRecovering)) (fun t n => t.reloadJob t.upModule (t.svcPart n))

/-- READY: SERVICE, the count and the adjustments cleared, the record, RECOVERED and the jobs reloaded after a recovery, a latched request (R9, R483, R484, R485, R487, R514). -/
def State.ready (s : State) : State :=
  let deg := s.degraded
  let s1 := if s.bamurn.flash.ok then s.pushRecord (s.bootRecord 0 0 0 0xF deg) else s
  let s2 := ((s1.setObj 0x7000 2 0 0).setObj 0x7000 6 0 0).setObj 0x7000 3 0 0xFF
  let s3 := { s2 with boot := { s2.boot with active := false, badCluster := none }, device := { mode := .service, latched := s.device.latched },
                      faults := { s2.faults with recovery := .none } }
  let s4 := if deg then s3.reportFor none clRecovery susModule susModule stDegraded 0 else s3
  let s5 := if s.obj 0x7000 0 = 3 then (s4.toRouted 0x24 (2 ^ 192 * s4.obj 0x6020 3)).reloadJobs else s4
  (s5.emit (.pin .alertN true)).runLatched

/-! ### The stages in order (R469, R470) -/

/-- The work of a stage, with its own failures. -/
def State.stageWork (s : State) (stage : Nat) (r : StageReport) : State :=
  match stage with
  | 0 => s.stage0 r
  | 1 => s.stage1 r
  | 2 => s.stage2 r
  | 3 => s.stage3 r
  | 4 => s.stage4 r
  | 5 => s.stage5 r
  | 6 => s.stage6 r
  | 7 => s.stage7 r
  | 8 => s.stage8 r
  | 9 => s.stage9
  | 10 => s.stage10 r
  | _ => s.ready

/-- The stage ends, unless it failed: its duration is kept and the next one begins; a recovery start passes from S7 to S9 (R467, R469). -/
def State.endStage (s : State) (r : StageReport) : State :=
  let stage := s.obj 0x7000 3
  let s1 := (s.setObj 0x7010 1 stage ((s.elapsed - s.boot.stageAt) / msTide)).stageWork stage r
  if s1.boot.active ∧ s1.obj 0x7000 3 = stage ∧ stage < 11 then
    ((s1.setObj 0x7000 3 0 (if stage = 7 ∧ s.obj 0x7000 0 = 3 then 9 else stage + 1)).setObj 0x7000 4 0 s1.tide).modBoot (fun b => { b with stageAt := s1.elapsed })
  else s1

/-- May the stage in progress end now: S7 waits for tiles held for debug and, in a recovery reset, for RESTART, S9 for the required ports, S11 for the conditions of READY (R99, R482, R483)? -/
def State.stageDue (s : State) : Bool :=
  s.boot.active &&
    (match s.obj 0x7000 3 with
     | 7 => s.sec.held.isEmpty && (s.obj 0x7000 0 != 3 || s.faults.recovery == .restarted)
     | 9 => s.topologyMet
     | 11 => s.mayReady
     | _ => true)

/-- STAGE_END: the stage's work with what it found in the hardware, then the next stage. -/
def execStageEnd (r : StageReport) (s : State) : Out := .next (if s.stageDue then s.endStage r else s)

/-- The time of the memory test in ms: the longest of the stacks' and channels' (R479). -/
def State.memTestMs (s : State) : Nat :=
  let accesses := fun (m : Nat) => if m = 2 then 41 else if m = 1 then 3 else 1
  let hbm := (List.range 12).map (fun h =>
    if s.tests h then accesses s.boot.testHbm * 2 ^ 37 * 10000 / (1536 * s.obj (0x3010 + h) 1 * 1000000) else 0)
  let ddr := (List.range 16).map (fun c =>
    if s.tests (12 + c) then accesses s.boot.testDdr * s.obj (0x3110 + c) 1 * 10000 / (48 * s.obj 0x3100 1 * 1000000) else 0)
  (hbm ++ ddr).foldl max 0

/-- The limits of the stages in ms, by the kind of the start (R469): S4, S5 and S8 take the cold figures where a unit trains in full. -/
def State.stageLimit (s : State) (stage : Nat) (full : Bool) : Nat :=
  let kind := s.obj 0x7000 0
  let cold := kind == 1 || (full && (stage == 4 || stage == 5 || stage == 8))
  if stage = 6 then s.memTestMs + 1000
  else if stage = 9 then (if kind = 3 then 500 else s.boot.topoWait)
  else if kind = 3 then (if stage = 7 then 2000 else if stage = 10 then 1500 else 100)
  else (if cold then [500, 3000, 1000, 1000, 60000, 20000, 0, 25000, 1000, 0, 3000, 100]
        else [100, 3000, 1000, 300, 4000, 2000, 0, 5000, 300, 0, 3000, 100]).getD stage 0

/-- Have so many ms passed since the current stage began? -/
def State.stagePast (s : State) (ms : Nat) : Bool := decide (s.boot.stageAt + ms * msTide ≤ s.elapsed)

/-- STAGE_TIMEOUT: a stage beyond twice its limit fails the start; `unit` names the one it works on (R470). S9 never fails the start (R482). -/
def execStageTimeout (unit : StageUnit) (s : State) : Out :=
  let stage := s.obj 0x7000 3
  .next (if stage ≠ 9 ∧ s.stagePast (2 * s.stageLimit stage unit.full) then s.failStart unit.unit stTimeout else s)

/-- TOPOLOGY_WAIT_EXPIRY: S9 ends although ports are missing, once topo_wait_ms has elapsed (R482); in a recovery start within its limit of 0.5 s (R469). -/
def execTopologyWaitExpiry (s : State) : Out :=
  .next (if s.boot.active ∧ s.obj 0x7000 3 = 9 ∧ s.stagePast (s.stageLimit 9 false) then s.endStage {} else s)

/-- The kind of the next attempt: a start_command latched since the failure sets it (R489). -/
def State.nextKind (s : State) (kind : Nat) : Nat :=
  match s.device.latched with
  | some (.warmStart _) => 2
  | some (.coldStart _) => 1
  | _ => kind

/-- NEXT_ATTEMPT: 1 s after the record commits, the next attempt starts (R487, R488, R489). -/
def execNextAttempt (s : State) : Out :=
  .next (match s.boot.waiting with
    | some kind => if s.power.closed ∨ s.elapsed < s.boot.failedAt + secTide then s else s.startUp (s.nextKind kind)
    | none => s)

/-! ### Commands (R10, R11, R468, R481, R490) -/

/-- The own rule of object 7000:01 (R10, R468, R489). -/
def ruleStartCommand (sess v : Nat) (s : State) : State × Nat :=
  let kind := if v = 1 then 2 else 1
  let latched := if v = 1 then ModeRequest.warmStart sess else ModeRequest.coldStart sess
  if v ≠ 1 ∧ v ≠ 2 then (s, stBadValue)
  else match s.device.mode with
    | .service => (s.startUp kind, stOk)
    | .test => (s.startUp kind, stOk)
    | .startup => ({ s with device := { s.device with latched := some latched } }, stRestartPending)
    | .recovery => ({ s with device := { s.device with latched := some latched } }, stRestartPending)
    | .safe => if s.sec.installed then (((s.setObj 0x7000 2 0 0).setObj 0x7000 6 0 0).startUp kind, stOk) else (s, stRefused)

/-- START_COMMAND_WARM: object 7000:01 written with 0x01. -/
def execStartCommandWarm (sess : Nat) (s : State) : Out := s.commandOut sess 0x7000 1 (ruleStartCommand sess 1)

/-- START_COMMAND_COLD: object 7000:01 written with 0x02. -/
def execStartCommandCold (sess : Nat) (s : State) : Out := s.commandOut sess 0x7000 1 (ruleStartCommand sess 2)

/-- The own rule of object 7020:01. -/
def ruleTrainDiscard (v : Nat) (s : State) : State × Nat :=
  if v = 1 then (s.modBoot (fun b => { b with saved := [] }), stOk) else (s, stBadValue)

/-- TRAIN_DISCARD: every saved training entry is discarded. -/
def execTrainDiscard (sess : Nat) (s : State) : Out := s.commandOut sess 0x7020 1 (ruleTrainDiscard 1)

/-- The own rule of object 7030:02 (R481). -/
def ruleMemtestNext (v : Nat) (s : State) : State × Nat :=
  if v ≤ 2 then (s.modBoot (fun b => { b with memNext := some v }), stOk) else (s, stBadValue)

/-- MEMTEST_NEXT: the memory test mode of the next cold or warm start. -/
def execMemtestNext (sess mode : Nat) (s : State) : Out := s.commandOut sess 0x7030 2 (ruleMemtestNext mode)

/-- The own rule of object 0110:01 (R11). -/
def ruleTestSession (sess v : Nat) (s : State) : State × Nat :=
  let mode := s.device.mode
  if v = 0 then
    if mode ≠ .test then (s, stOk)
    else if s.device.holder = sess ∨ s.holds sess rSecurity then ({ s with device := { s.device with mode := .service, holder := 0 } }, stOk)
    else (s, stAccessDenied)
  else if v = 1 then
    match mode with
    | .service => if s.allJobsNone then ({ s with device := { s.device with mode := .test, holder := sess } }, stOk) else (s, stBusy)
    | .test => if s.device.holder = sess then (s, stOk) else (s, stBusy)
    | _ => (s, stNotReady)
  else (s, stBadValue)

/-- TEST_SESSION_ENTER: object 0110:01 written with 0x01. -/
def execTestSessionEnter (sess : Nat) (s : State) : Out := s.commandOut sess 0x0110 1 (ruleTestSession sess 1)

/-- TEST_SESSION_LEAVE: object 0110:01 written with 0x00. -/
def execTestSessionLeave (sess : Nat) (s : State) : Out := s.commandOut sess 0x0110 1 (ruleTestSession sess 0)

end Sys2Proof.Machine
end

