-- ==== Sys2Proof/Machine/Faults.lean ====
section
/-! DEFINITION. The levee log, the history, closures that drain, the watchdog check, the recovery messages between devices and the recovery reset (21_faults_reset_recovery.md R491-R520, R365, R286, R322). -/

namespace Sys2Proof.Machine

/-! ### The levee log (R493-R497) -/

/-- The suspect code under which a report is coalesced: the closed unit that a FENCED report names, else its suspect (R493). -/
def reportKey (r : Report) : Nat :=
  match r.closedUnit with
  | some u => if r.status = stFenced then susCode u else susCode r.suspect
  | none => susCode r.suspect

/-- The reporter that a record keeps: the suspect of a report keyed by a closed unit, else the report's own (R493). -/
def reportReporter (r : Report) : Nat :=
  if r.closedUnit.isSome ∧ r.status = stFenced then susCode r.suspect else susCode r.reporter

/-- The overflow record's entry and suspect (R494, R497). -/
abbrev overflowEntry : Nat := 255
abbrev overflowSuspect : Nat := 0xE000

/-- A record of the levee log, if the entry holds one. -/
def State.levee (s : State) (e : Nat) : Option LeveeRec := Tbl.get s.faults.levee none e

/-- Replace a record of the levee log. -/
def State.setLevee (s : State) (e : Nat) (r : Option LeveeRec) : State :=
  { s with faults := { s.faults with levee := Tbl.put s.faults.levee none e r } }

/-- The flags of a record; bit 3 once the suspect has a permanent verdict in the class (R494, R499). -/
def State.leveeFlags (s : State) (e : Nat) (r : LeveeRec) : Nat :=
  (if r.storm then 1 else 0) + (if r.active then 2 else 0) + (if r.ownerClosed then 4 else 0)
    + (if (s.hist r.suspect r.cls).elim false (fun h => h.verdict == 2) then 8 else 0) + (if e = overflowEntry then 16 else 0)

/-- The 512 bits of a record (R494). -/
def State.leveeWord (s : State) (e : Nat) (r : LeveeRec) : Nat :=
  2 ^ 448 * (r.first % 2 ^ 64) + 2 ^ 384 * (r.last % 2 ^ 64) + 2 ^ 320 * (r.detail % 2 ^ 64) + 2 ^ 288 * min r.count (2 ^ 32 - 1)
    + 2 ^ 272 * (r.reporter % 2 ^ 16) + 2 ^ 256 * (r.suspect % 2 ^ 16) + 2 ^ 248 * (r.cls % 256) + 2 ^ 240 * (r.status % 256)
    + 2 ^ 236 * (r.part % 16) + 2 ^ 216 * (r.job % 2 ^ 16) + 2 ^ 152 * (r.step % 2 ^ 64) + 2 ^ 144 * min r.peak 255
    + 2 ^ 128 * (e % 2 ^ 16) + 2 ^ 96 * (r.notices % 2 ^ 32) + s.leveeFlags e r

/-- Send the notice of a record: a LEVEE event with the record in two data cells, bits 255 to 0 first (R365, R496). -/
def State.leveeNotice (s : State) (e : Nat) : State :=
  match s.levee e with
  | none => s
  | some r =>
    let r1 := { r with notices := r.notices + 1, noticed := r.count, noticeAt := s.elapsed }
    let w := s.leveeWord e r1
    (s.setLevee e (some r1)).event 1 r.part 0 0 [encodeRow (BitVec.ofNat 256 w), encodeRow (BitVec.ofNat 256 (w / 2 ^ 256))]

/-- A record with one report more: the count, the reports of the trailing 1 ms, the storm (R494, R495). -/
def LeveeRec.add (r : LeveeRec) (tide now : Nat) (ownerClosed : Bool) : LeveeRec :=
  let recent := (now :: r.recent.filter (fun t => decide (now < t + msTide))).take 256
  let above := decide (recent.length > 64)
  { r with last := tide, count := min (r.count + 1) (2 ^ 32 - 1), recent := recent, peak := max r.peak (min 255 recent.length), storm := r.storm || above, active := r.active || above, ownerClosed := r.ownerClosed || ownerClosed, lastAt := now, aboveAt := if above then now else r.aboveAt }

/-- The first record of a key (R493, R494). -/
def State.openRecord (s : State) (r : Report) (suspect : Nat) : LeveeRec :=
  { first := s.tide, last := s.tide, detail := r.detail, reporter := reportReporter r, suspect := suspect, cls := r.cls, status := r.status, part := r.partition, job := r.job, step := r.step, ownerClosed := r.ownerClosed, recent := [s.elapsed], firstAt := s.elapsed, lastAt := s.elapsed }

/-- A report joins the record of an entry, or opens it with a notice; a storm that begins is counted (R494-R496). -/
def State.joinRecord (s : State) (e : Nat) (r : Report) (suspect : Nat) : State :=
  match s.levee e with
  | some x =>
    let x1 := x.add s.tide s.elapsed r.ownerClosed
    let s1 := s.setLevee e (some x1)
    if x1.active && !x.active then s1.count 0x6000 3 0 32 else s1
  | none => (s.setLevee e (some (s.openRecord r suspect))).leveeNotice e

/-- The entry of a key: the one that holds it, else the lowest free one, else the overflow record (R494, R497). -/
def State.leveeEntry (s : State) (suspect cls : Nat) : Nat :=
  match (List.range 255).find? (fun e => (s.levee e).elim false (fun r => r.suspect == suspect && r.cls == cls)) with
  | some e => e
  | none => ((List.range 255).find? (fun e => (s.levee e).isNone)).getD overflowEntry

/-- LEVEE_REPORT: a report is counted and coalesced into its record or the overflow record. -/
def execLeveeReport (r : Report) (s : State) : Out :=
  .next (
    let s1 := s.count 0x6000 2 0 64
    let e := s1.leveeEntry (reportKey r) r.cls
    if e = overflowEntry then (s1.count 0x6000 1 0 32).joinRecord overflowEntry r overflowSuspect
    else s1.joinRecord e r (reportKey r))

/-- The end of the tenth quiet interval: ten intervals of 1 ms, aligned to the first report, from the first one that begins after the last report above 64 (R495). -/
def LeveeRec.quietAt (r : LeveeRec) : Nat := r.firstAt + ((r.aboveAt - r.firstAt) / msTide + 11) * msTide

/-- STORM_CLEAR: the tenth quiet interval of a record in storm has ended; earlier, nothing. -/
def execStormClear (entry : Nat) (s : State) : Out :=
  .next (match s.levee entry with
    | some r => if r.quietAt ≤ s.elapsed then s.setLevee entry (some { r with active := false }) else s
    | none => s)

/-- LEVEE_NOTICE: 10 ms after a notice, a record that took reports in the meantime sends another. -/
def execLeveeNotice (entry : Nat) (s : State) : Out :=
  .next (match s.levee entry with
    | some r => if r.count > r.noticed ∧ r.noticeAt + 10 * msTide ≤ s.elapsed then s.leveeNotice entry else s
    | none => s)

/-- LEVEE_ENTRY_FREE: 1 s after its last report a record whose final count is notified is freed. -/
def execLeveeEntryFree (entry : Nat) (s : State) : Out :=
  .next (match s.levee entry with
    | some r => if r.count = r.noticed ∧ r.lastAt + secTide ≤ s.elapsed then s.setLevee entry none else s
    | none => s)

/-- Do two notices carry the same record: entry, key and first tide (R497)? -/
def sameRecord (a b : Nat) : Bool := fieldOf a 448 64 == fieldOf b 448 64 && fieldOf a 248 24 == fieldOf b 248 24 && fieldOf a 128 16 == fieldOf b 128 16

/-- EVENT_LEVEE: the firmware archives the notified contents in front, in place of the record's entry; 4,096 are kept. -/
def execEventLevee (m : Nat) (d : DtlMsg) (s : State) : Out :=
  .next (s.onDtl m false d fun s1 =>
    match d.cells with
    | [lo, hi] =>
      let w := 2 ^ 256 * (decodedRow hi).toNat + (decodedRow lo).toNat
      { s1 with faults := { s1.faults with archive := (w :: s1.faults.archive.filter (fun x => !sameRecord x w)).take 4096 } }
    | _ => s1)

/-- EVENT_PORT_STATE: a port's new state reaches the reeve die. -/
def execEventPortState (m : Nat) (d : DtlMsg) (s : State) : Out := .next (s.onDtl m false d id)

/-! ### Powered seconds and the history (R403, R498, R519) -/

/-- The history entries whose updates wait and may be written are written to the flash (R498). -/
def State.keepHistory (s : State) : State :=
  { s with faults := { s.faults with history := s.faults.history.map (fun e => if e.writes s.elapsed then e.store s.elapsed else e) } }

/-- POWERED_SECOND: the powered seconds advance, are stored every 60 s, updates of the history that wait are written, and the record flash may be programmed again (R403, R498). -/
def execPoweredSecond (s : State) : Out :=
  .next (if s.power.closed then s
  else
    let s1 := s.count 0x6010 1 0 64
    let s2 := { s1 with bamurn := { s1.bamurn with flash := { s1.bamurn.flash with inSecond := 0 } } }.keepHistory
    if s2.powered ≥ s2.faults.stored + 60 then { s2 with faults := { s2.faults with stored := s2.powered } } else s2)

/-- The own rule of object 6010:02. -/
def ruleHistoryClear (code : Nat) (s : State) : State × Nat :=
  if s.faults.history.any (fun h => h.suspect == code) then
    ({ s with faults := { s.faults with history := s.faults.history.filter (fun h => h.suspect != code) } }, stOk)
  else (s, stNotReady)

/-- HISTORY_CLEAR: every history entry of a suspect is cleared. -/
def execHistoryClear (sess code : Nat) (s : State) : Out := s.commandOut sess 0x6010 2 (ruleHistoryClear code)

/-! ### The end of a closure's drain (R502, R504) -/

/-- The tiles of a closed domain. -/
def State.domainTiles (s : State) : Domain → List Nat
  | .tile n => [n]
  | .cluster c => tilesOfCluster c
  | .partition q => s.jobTiles q
  | .device => Tbl.keys s.tiles

/-- Requests still held at a position are answered FENCED (R504 step 3). -/
def State.answerHeld (s : State) (n : Nat) : State :=
  let t := s.tile n
  let s1 := (t.merges.flatMap (·.reqs) ++ t.gau.held).foldl (fun u p => u.sendReply n p stFenced) s
  s1.modTile n (fun u => { u with merges := [], gau := { u.gau with held := [] } })

/-- The requests that a closed position has outstanding are given up: their replies will be discarded (R504 step 3). -/
def State.dropTracks (s : State) (n : Nat) : State := s.modMov n (fun m => { m with descs := [], tracks := [], signals := [], credits := 16 })

/-- A CLOSED tile that held no job, closed by a verdict, a DARK plane or a field loss, becomes RETIRED once its closure is complete (R502). -/
def State.closureRetires (s : State) (n : Nat) : State :=
  let t := s.tile n
  if s.tileState n = tsClosed ∧ t.owner.isNone ∧ t.cause ≠ 0 then s.retireTile n t.cause none else s

/-- The ports answer every request in their forward tables TIMEOUT (R335, R504). -/
def State.answerForwards (s : State) : State :=
  s.each (List.range 16) (fun t k => ((t.port k).fwd.foldl (fun u r => u.sendReply (u.portPos k) r stTimeout) t).modPort k (fun p => { p with fwd := [] }))

/-- Steps 3 of R504 for a domain. -/
def State.endClosure (s : State) (d : Domain) : State :=
  let tiles := s.domainTiles d
  let s1 := s.each tiles State.answerHeld
  match d with
  | .tile _ => (s1.each tiles State.dropTracks).each tiles State.closureRetires
  | .cluster _ => (s1.each tiles State.dropTracks).each tiles State.closureRetires
  | .partition _ => s1
  | .device => s1.answerForwards

/-- A recovery reset has drained: the write buffers are written, every record is notified, QUIESCED is sent and the table emptied (R322, R497, R516). -/
def State.quiesce (s : State) : State :=
  let s1 := s.drainBuffers.each (Tbl.keys s.faults.levee) State.leveeNotice
  { s1 with faults := { s1.faults with levee := [], recovery := .quiesced } }.recoveryDtl false 3 0

/-- CLOSURE_DRAIN_EXPIRY: closure_drain_us after a closure; earlier, nothing. -/
def execClosureDrainExpiry (d : Domain) (s : State) : Out :=
  .next (match s.faults.closing.find? (fun e => e.1 == d && decide (e.2 ≤ s.elapsed)) with
  | some e =>
    let s1 := { s with faults := { s.faults with closing := s.faults.closing.erase e } }.endClosure d
    if d = .device ∧ s1.faults.recovery = .closing then s1.quiesce else s1
  | none => s)

/-! ### The watchdog check and drains that hang (R506, R507) -/

/-- The compute die asks for a recovery reset, which begins (R506, R515, R518). -/
def State.askRecovery (s : State) (cause : Nat) : State :=
  let s1 := s.recoveryDtl false 1 cause
  ({ s1 with faults := { s1.faults with asked := some cause } }).recover cause

/-- Has a queue of a partition's job halted on its watchdog? -/
def State.dogFired (s : State) (q : Nat) : Bool :=
  ((s.job q).elim [] (·.map)).any (fun n => [0, 1, 2, 3].any (fun k => s.qState n k == qsHaltedTimeout))

/-- Is the control state consistent: the polls, parity and encodings that the hardware checks, and every step register equal to the step counter (R506)? -/
def State.controlOk (s : State) (q : Nat) (hardware : Bool) : Bool :=
  hardware && ((s.job q).elim [] (·.map)).all (fun n => s.tileState n == tsClosed || s.obj (tileIx n) 0x38 == s.step' q)

/-- The first row of R506 that applies. -/
def State.watchdogRow (s : State) (q : Nat) (j : Job) (ok : Bool) : State :=
  let step := s.step' q
  if !ok then s.askRecovery 2
  else if j.dogStep ≠ some step then
    ((s.abandonStep q clWaitTimeout true).modJob q (fun k => { k with dogStep := some step })).count 0x6020 6 0 32
  else if j.dogOwner then s.haltJob q 0x08
  else s.endNow q

/-- WATCHDOG_CHECK: within 1 ms of a WAIT_TIMEOUT the sequencer checks the control state; while the job is WAITING it ends as a program fault. -/
def execWatchdogCheck (q : Nat) (stateOk : Bool) (s : State) : Out :=
  .next (match s.job q with
    | none => s
    | some j =>
      if !s.dogFired q then s
      else if s.jobState q = jsWaiting then s.endNow q
      else if s.jobState q = jsStepping then s.watchdogRow q j (s.controlOk q stateOk)
      else s)

/-- Has a partition's drain lasted abandon_limit_ms (R506, R512)? -/
def State.drainPast (s : State) (q : Nat) : Bool := (s.job q).elim false (fun j => decide (j.since + msTide * s.obj 0x6020 2 ≤ s.elapsed))

/-- LOCAL_DRAIN_TIMEOUT: a local drain incomplete after abandon_limit_ms is an inconsistent state. -/
def execLocalDrainTimeout (q : Nat) (s : State) : Out :=
  .next (if s.jobState q = jsDraining ∧ s.drainPast q ∧ !(s.job q).elim true (·.selfDone) then s.askRecovery 2 else s)

/-! ### Recovery messages between devices (R511-R514) -/

/-- The step that a recovery message names (R511). -/
def mStep (m : CtrlMsg) : Nat := fieldOf m.body.toNat 144 64

/-- The job that a recovery message names (R511). -/
def mJobId (m : CtrlMsg) : Nat := fieldOf m.body.toNat 208 16

/-- A member that waits for START of the step after `step`, or waits to start it (R512). -/
def State.before' (s : State) (q step : Nat) (j : Job) : Bool :=
  s.step' q == (step + 1) % 2 ^ 64 && (s.jobState q == jsWaiting || (s.jobState q == jsStepping && j.starting && j.startAt.isNone))

/-- The key of the entry that the last completed step ran: its number in step mode, the tick in cadence mode (R229, R243). -/
def State.lastKey (s : State) (q step : Nat) (j : Job) : Nat := if j.cadence then s.obj (0x5020 + q) 5 else step

/-- A member whose counter stands one step later goes back to the step and abandons it from the snapshot of its start (R512). The lanes of the step are pinned again for its replay. -/
def State.rollBack (s : State) (q step cls : Nat) (j : Job) : State :=
  let key := s.lastKey q step j
  let s1 := (((s.dropTwin q).discardNext q).unpinLanes q id).repinLanes q
  let s2 := (s1.setObj (0x5010 + q) 5 0 step).dispose q key 1
  let x := s2.readEntry q key
  ((x.1.modJob q (fun k => { k with entry := x.2.bind id, starting := false, startAt := none })).setJobState q jsStepping).abandonStep q cls false

/-- ABANDON: the table of R512. -/
def execAbandon (m : CtrlMsg) (s : State) : Out :=
  .next (s.onCtrl 0x20 m fun s => match s.partitionOfJob (mJobId m) with
    | none => s
    | some q => match s.job q with
      | none => s
      | some j =>
        let step := mStep m
        let cls := fieldOf m.body.toNat 136 8
        if s.before' q step j then s.rollBack q step cls j
        else if s.jobState q = jsStepping ∧ s.step' q = step then s.abandonStep q cls false
        else if s.jobState q = jsStepping ∧ s.step' q > step then s.haltJob q 0x05
        else s)

/-- DRAINED: a member's drain of the step is complete. -/
def execDrained (m : CtrlMsg) (s : State) : Out :=
  .next (s.onCtrl 0x21 m fun s => match s.partitionOfJob (mJobId m) with
    | none => s
    | some q =>
      if s.step' q = mStep m then
        (s.modJob q (fun j => { j with drained := if j.drained.contains m.src then j.drained else j.drained ++ [m.src] })).tryRestore q
      else s)

/-- DRAINED_MISSING_TIMEOUT: a member's DRAINED is missing after abandon_limit_ms. -/
def execDrainedMissingTimeout (q : Nat) (s : State) : Out :=
  .next (match s.job q with
    | none => s
    | some j =>
      if s.jobState q = jsDraining ∧ s.drainPast q ∧ j.selfDone ∧ (s.members q).any (fun d => !j.drained.contains d) then s.haltJob q 0x07 else s)

/-- JOB_HALT: a receiver halts its own partition of the job. -/
def execJobHalt (m : CtrlMsg) (s : State) : Out :=
  .next (s.onCtrl 0x22 m fun s => match s.partitionOfJob (mJobId m) with
    | none => s
    | some q => s.haltJob q 0x05)

/-- Every reservation that a dispatcher of this device has asked of a device, or repeats there, is answered FENCED (R251, R514). -/
def State.fenceAsked (s : State) (q device : Nat) : State :=
  let waits := (s.disp q).tokens.flatMap (fun t => t.targets.filter (fun x => (x.st == .asked || x.st == .retry) && xDevice (s.expert x.expert) == device))
  s.each waits (fun t x => t.takeDstatus { mtype := 0x13, dst := s.ownDevice, src := device, body := BitVec.ofNat 224 (resBody x.resId x.expert (s.jobId q) q + 2 ^ 134 * stFenced) })

/-- The RESERVEs of a device that wait in a dispatcher's queue are answered FENCED (R251, R514). -/
def State.fenceQueued (s : State) (q device : Nat) : State :=
  ((s.disp q).queue.filter (fun r => r.device == device)).foldl (fun t r =>
    (t.modDisp q (fun d => { d with queue := d.queue.erase r })).control device 0x13 (resBody r.resId r.expert r.job r.part + 2 ^ 134 * stFenced)) s

/-- CLOSING: a peer begins a recovery reset. DEDUCED: the requests that wait for its reservations are those asked of it and those it has queued here. -/
def execClosing (m : CtrlMsg) (s : State) : Out :=
  .next (s.onCtrl 0x23 m fun s => 
    let s1 := s.each (partitionNumbers.filter (fun q => (s.members q).contains m.src)) (fun t q => t.haltJob q 0x06)
    let s2 := { s1 with faults := { s1.faults with peersClosed := if s1.faults.peersClosed.contains m.src then s1.faults.peersClosed else s1.faults.peersClosed ++ [m.src] } }
    s2.each partitionNumbers (fun t q => (t.fenceAsked q m.src).fenceQueued q m.src))

/-- RECOVERED: the peer's closure is over. -/
def execRecovered (m : CtrlMsg) (s : State) : Out :=
  .next (s.onCtrl 0x24 m fun s => { s with faults := { s.faults with peersClosed := s.faults.peersClosed.filter (fun d => d ≠ m.src) } })

/-! ### The recovery reset (R515-R518) -/

/-- The own rule of object 6020:00 (R515). -/
def ruleRecoveryReset (sess v : Nat) (s : State) : State × Nat :=
  if v ≠ 1 then (s, stBadValue)
  else match s.device.mode with
    | .service => (s.recover 1, stOk)
    | .test => (s.recover 1, stOk)
    | .startup => (s, stNotReady)
    | .recovery => ({ s with device := { s.device with latched := some (.recoveryReset sess) } }, stRestartPending)
    | .safe => (s, stRefused)

/-- RECOVERY_RESET_COMMAND: object 6020:00 written with 0x01. -/
def execRecoveryResetCommand (sess : Nat) (s : State) : Out := s.commandOut sess 0x6020 0 (ruleRecoveryReset sess 1)

/-- RECOVER_REQ: the compute die asks for a recovery reset; one that the request's own trigger has begun goes on (R515, R518). -/
def execRecoverReq (m : Nat) (d : DtlMsg) (s : State) : Out :=
  .next (s.onDtl m false d fun s1 =>
    let cause := d.addr % 256
    if s1.faults.asked = some cause then { s1 with faults := { s1.faults with asked := none } }
    else if 2 ≤ cause ∧ cause ≤ 4 then s1.recover cause else s1)

/-- CLOSE_GO: every queue stops, every tile's gauges freeze and the device closes (R210, R504, R516). -/
def execCloseGo (m : Nat) (d : DtlMsg) (s : State) : Out :=
  .next (s.onDtl m true d fun s1 =>
    if s1.faults.recovery = .closing then s1.freezeDevice.closeDomain .device susModule none else s1)

/-- QUIESCED: the firmware orders the restart (R516). -/
def execQuiesced (m : Nat) (d : DtlMsg) (s : State) : Out :=
  .next (s.onDtl m false d fun s1 =>
    if s1.faults.recovery = .quiesced then s1.recoveryDtl true 4 0 else s1)

/-- Does a register survive the logic reset of the compute die (R516, R517)? The volatile objects of tiles, partitions, jobs, contexts and dispatchers return to their defaults; the tile states, the spares left and the persistent objects stay. -/
def survivesRestart (e : Nat × Nat) : Bool :=
  let sub := e.1 / 65536 % 256
  let index := e.1 / 16777216
  let logic := (0x2010 ≤ index && index < 0x25C8) || (0x3400 ≤ index && index < 0x341C) || (0x5000 ≤ index && index < 0x521C) || (0x6030 ≤ index && index < 0x603C)
  let tile := 0x2100 ≤ index && index < 0x25C8
  !logic || (tile && (sub == 0 || sub == 0x25)) || (objAt index sub).elim false (·.keep)

/-- A page move in flight, or queued with a destination, at the reset: the destination is freed; a page taken out to be zeroed returns with its tag (R286). -/
def State.undoMove (s : State) (q : Nat) (m : PageMove) : State :=
  match m.dst with
  | some i => s.freePage q (if m.kind = .background then m.page == 1 else m.kind.toDdr) i (if m.kind = .promote ∨ m.kind = .demote then (s.ctx m.slot).tenant else m.dstTag)
  | none => s

/-- Contexts across a recovery reset: ACTIVE ones are IDLE, the close of a CLOSING one runs (R286). -/
def Ctx.recovered (c : Ctx) : Ctx :=
  { c with st := (match c.st with
    | .active => .idle
    | .closing => .releasing
    | x => x) }

/-- What a memory server keeps over a recovery reset (R322). -/
def MemServer.recovered (m : MemServer) : MemServer := { m with merges := [], hold := [], wbuf := [], waiting := [], dtl := [] }

/-- The logic reset of the compute die: jobs, queues, dispatchers, pagers and volatile objects start anew; memories, context descriptors, pools, ports and the state of the reeve die stay, and S7 begins (R286, R322, R516, R517). The scratchpads stand until the scrub of S7, which the tiles of stopped jobs wait for under debug_arm (R99, R558). -/
def State.logicReset (s : State) : State :=
  let stopped := partitionNumbers.flatMap s.jobTiles
  let s1 := s.drainBuffers.each partitionNumbers (fun t q => ((t.pager q).queue ++ (t.pager q).flight).foldl (fun u m => u.undoMove q m) t)
  let s2 := s1.each (allTiles.filter (fun n => s1.tileState n == tsActive || s1.tileState n == tsIdle)) (fun t n => t.setTileState n tsOffered)
  let s3 := { s2 with regs := s2.regs.filter survivesRestart, cfgs := [], jobs := [], latches := [], fills := [], experts := [], disps := [], pagers := [], cached := [], pinQueue := [], ucies := [], slopes := [], wakes := [], planeLatch := [], chunks := [] }
  let held := if s.obj 0x8030 4 = 1 then stopped else []
  let s4 := s3.each held (fun t n => t.setObj (tileIx n) 0x2A 0 2)
  { s4 with tiles := Tbl.keep s3.tiles {} (fun t => { t with owner := none }), ctxs := Tbl.keep s3.ctxs {} Ctx.recovered, hbms := Tbl.keep s3.hbms {} MemServer.recovered, channels := Tbl.keep s3.channels {} MemServer.recovered, ports := Tbl.keep s3.ports {} (fun p => { p with fwd := [], inbound := [], egress := [], ingress := [] }), sec := { s3.sec with held := held }, faults := { s3.faults with recovery := .restarted }, boot := { s4.boot with stageAt := s4.elapsed } }.setObj 0x7000 4 0 s4.tide

/-- RESTART: the compute-die logic is reset, and S7 runs (R516). -/
def execRestart (m : Nat) (d : DtlMsg) (s : State) : Out :=
  .next (s.onDtl m true d fun s1 =>
    if s1.faults.recovery = .quiesced then s1.logicReset else s1)

/-- REMAPPED: completed remaps are reported to the reeve die (R509, R518). -/
def execRemapped (m : Nat) (d : DtlMsg) (s : State) : Out := .next (s.onDtl m false d id)

end Sys2Proof.Machine
end

