-- ==== Sys2Proof/Machine/Silent.lean ====
section
/-! DEFINITION. Scour tests, twin comparisons and the selection of fault records (22_silent_errors.md R521-R541). -/

namespace Sys2Proof.Machine

/-! ### Content packages (R521-R524) -/

/-- Row `i` of a package. -/
def pkgRow (b : List Byte) (i : Nat) : Nat := leNat ((b.drop (32 * i)).take 32)

/-- The fields of a package header (R522). -/
def pkgId (b : List Byte) : Nat := fieldOf (pkgRow b 0) 224 32
def pkgVersion (b : List Byte) : Nat := fieldOf (pkgRow b 0) 208 16
def pkgChunks (b : List Byte) : Nat := fieldOf (pkgRow b 0) 192 16

/-- The fields of a chunk descriptor (R523). -/
def ckKind (d : Nat) : Nat := fieldOf d 242 4
def ckWords (d : Nat) : Nat := fieldOf d 230 10
def ckCmdAt (d : Nat) : Nat := fieldOf d 200 30
def ckDataAt (d : Nat) : Nat := fieldOf d 170 30
def ckDataRows (d : Nat) : Nat := fieldOf d 160 10
def ckResultRows (d : Nat) : Nat := fieldOf d 150 10
def ckCrc (d : Nat) : Nat := fieldOf d 118 32

/-- The command words of a chunk. -/
def ckCommands (b : List Byte) (d : Nat) : List Nat :=
  (List.range (ckWords d)).map (fun i => leNat ((b.drop (ckCmdAt d + 16 * i)).take 16))

/-- The queue in which a command may stand (R123). -/
def queueOfOp (op : Nat) : Nat :=
  if op = 0x10 ∨ op = 0x11 ∨ op = 0x12 then 0 else if op = 0x20 then 1 else if op = 0x30 then 2 else 3

/-- The handle fields of a command word (R127-R140). -/
def wordHandles (w : Nat) : List Nat :=
  let op := opcodeOf w
  if op = 0x10 then [fieldOf w 54 6, fieldOf w 34 6]
  else if op = 0x12 then [fieldOf w 78 6, fieldOf w 58 6]
  else if op = 0x20 then [fieldOf w 106 6, fieldOf w 86 6, fieldOf w 66 6]
  else if op = 0x30 then [fieldOf w 114 6]
  else if op = 0x40 then [fieldOf w 64 6]
  else []

/-- May a chunk hold a command word: R119's fields, no WAIT, SIGNAL or END, handle 0 only (R523)? -/
def chunkWordOk (w : Nat) : Bool :=
  let op := opcodeOf w
  !(op == 0x01 || op == 0x02 || op == 0x03) && wordOk 65536 (some (queueOfOp op)) false w && (wordHandles w).all (fun h => h == 0)

/-- The check of a chunk descriptor and its command words (R523, R524). -/
def chunkOk (b : List Byte) (i : Nat) : Bool :=
  let d := pkgRow b (i + 1)
  let k := ckKind d
  let sig := fieldOf (pkgRow b 0) 128 32
  fieldOf d 246 10 == i % 1024 && decide (1 ≤ k) && decide (k ≤ 5) && fieldOf d 240 2 == 0 && fieldOf d 0 118 == 0
    && decide (ckWords d ≤ 512) && (k != 1 || ckWords d == 0) && ckCmdAt d % 16 == 0 && ckDataAt d % 32 == 0
    && decide (ckDataRows d ≤ 192) && decide (1 ≤ ckResultRows d) && decide (ckResultRows d ≤ 192)
    && decide (ckCmdAt d + 16 * ckWords d ≤ sig) && decide (ckDataAt d + 32 * ckDataRows d ≤ sig)
    && (ckCommands b d).all chunkWordOk

/-- Does a package verify (R521-R524)? -/
def verifyPackage (b : List Byte) : Bool :=
  let h := pkgRow b 0
  decide (b.length ≤ 1048576) && fieldOf h 160 32 == b.length && pkgId b != 0 && decide (1 ≤ pkgChunks b) && decide (pkgChunks b ≤ 1024)
    && fieldOf h 128 32 + sigBytes == b.length && fieldOf h 0 128 == 0
    && (List.range (pkgChunks b)).all (chunkOk b)
    && Config.slhVerify Config.packageKey (b.take (b.length - sigBytes)) (b.drop (b.length - sigBytes))

/-- The active package. -/
def State.package (s : State) : List Byte := s.pkg.active.getD Config.factoryPackage

/-- Objects 6041:00 and 6041:01 show the active package (R524). -/
def State.showPackage (s : State) : State := (s.setObj 0x6041 0 0 (pkgId s.package)).setObj 0x6041 1 0 (pkgVersion s.package)

/-- The own rule of object 6041:03. `flashOk`: the flash programming succeeds. -/
def rulePackageApply (flashOk : Bool) (v : Nat) (s : State) : State × Nat :=
  if v ≠ 1 then (s, stBadValue)
  else match s.pkg.staged with
    | none => (s, stBadValue)
    | some b =>
      if !verifyPackage b then (s.setObj 0x6041 4 0 2, stBadValue)
      else if !flashOk then (s.reportFor none clStorage (susReeve (2 + s.running)) (susReeve 0) stRefused 0, stRefused)
      else
        let s1 := { s with pkg := { active := some b, staged := none }, scour := Tbl.keep s.scour {} (fun p => { p with next := 0, again := false }), chunks := s.chunks.map (fun (e : Nat × Option Chunk) => (e.1, e.2.map (fun (k : Chunk) => { k with old := true }))) }
        (s1.showPackage.setObj 0x6041 4 0 0, stOk)

/-- PACKAGE_APPLY: the staged package is verified and becomes active. -/
def execPackageApply (sess : Nat) (flashOk : Bool) (s : State) : Out := s.commandOut sess 0x6041 3 (rulePackageApply flashOk 1)

/-! ### Windows (R525) -/

/-- The rows of a window as scratchpad keys: bank * 1024 + bank row, bank first in each row number. -/
def windowRows (w : Nat) : List Nat :=
  (List.range (if w = 24 then 16 else 42)).flatMap (fun r => (List.range 12).map (fun b => b * 1024 + 42 * w + r))

/-- The row of HBM at which a position's save area begins. -/
def saveRow (n : Nat) : Nat := (0x2000_0000 + 16384 * n) / 32

/-! ### Running a chunk (R526-R530) -/

/-- The group of a position: the partition whose job holds it, else 12 (R529). -/
def State.scourGroup (s : State) (n : Nat) : Nat := (s.ownerOf n).getD 12

/-- The chunk that runs on a position, with its group. -/
def State.chunkOn (s : State) (n : Nat) : Option (Nat × Chunk) :=
  s.chunks.findSome? (fun e => match e.2 with
    | some k => if k.tile = n then some (e.1, k) else none
    | none => none)

/-- The conditions of R526 on a position. A position in use as a twin or taken by a remap is not free (R530). -/
def State.scourable (s : State) (n : Nat) : Bool :=
  let st := s.tileState n
  let a := (s.tile n).arr
  (st == tsOffered || st == tsReserve || (st == tsActive && (s.ownerOf n).elim false (fun q => s.jobState q == jsWaiting)))
    && s.plane (clusterOf n) != plDark
    && [0, 1, 2, 3].all (fun q => (s.queueAtRest n q || s.qState n q == qsHeld) && (s.queue n q).deferred.isEmpty)
    && a.load == .idle && (s.tile n).mov.descs.isEmpty && (s.tile n).mov.tracks.isEmpty
    && (s.twinPartition n).isNone && !s.remapTargets.contains n

/-- The chunk a position runs next: the first from its place in the pass that its kind allows there; none at the end of the pass (R523, R529). -/
def State.nextChunk (s : State) (n : Nat) : Option Nat :=
  ((List.range (pkgChunks s.package)).drop (Tbl.get s.scour {} n).next).find? (fun i =>
    ckKind (pkgRow s.package (i + 1)) != 5 || (s.ownerOf n).isNone)

/-- Steps 1 to 3 of R527 begin: the window's rows are copied to the save area; a MARCH or a run of the commands follows. -/
def State.beginChunk (s : State) (n c : Nat) : State :=
  let b := s.package
  let d := pkgRow b (c + 1)
  let g := s.scourGroup n
  let p := Tbl.get s.scour {} n
  let w := p.counter % 25
  let rows := (windowRows w).map (fun k => Tbl.get (s.tile n).spad 0 k)
  let cmds := ckCommands b d
  let k : Chunk := { tile := n, chunk := c, kind := ckKind d, expect := ckCrc d, pkgId := pkgId b, version := pkgVersion b, window := w, saved := rows, slots := (cmds.filter (fun x => opcodeOf x == 0x12)).map (fun x => (fieldOf x 84 10, fieldOf x 94 14)), loads := cmds.any (fun x => opcodeOf x == 0x10), inserted := (s.job g).elim false (·.scourHold), startAt := s.elapsed }
  let s1 := rows.zipIdx.foldl (fun (t : State) e => t.setHbm (Tbl.put t.hbm 0 (saveRow n + e.2) e.1)) s
  { s1 with chunks := Tbl.put s1.chunks none g (some k), scour := Tbl.put s1.scour {} n { p with counter := p.counter + 1, next := c } }

/-- An inserted window ends: the step start goes on (R529). -/
def State.endInsert (s : State) (q : Nat) : State :=
  if (s.job q).elim false (·.scourHold) then (s.modJob q (fun j => { j with scourHold := false })).pollEntry q else s

/-- Does a position stand before another in the scheduler's order: by the oldest completed pass, then by physical number (R529)? -/
def State.scourBefore (s : State) (m n : Nat) : Bool :=
  let a := (Tbl.get s.scour {} m).passAt
  let b := (Tbl.get s.scour {} n).passAt
  decide (a < b ∨ (a = b ∧ m < n))

/-- Is a position the one that the scheduler serves: of those of its group that may run a chunk, none stands before it (R529)? -/
def State.scourFirst (s : State) (n : Nat) : Bool :=
  allTiles.all (fun m => !(s.scourBefore m n && s.scourGroup m == s.scourGroup n && s.scourable m))

/-- The 16 µs of a chunk, or of an inserted window's wait for its tile, from an elapsed count on (R527, R529). -/
def State.past16 (s : State) (since : Nat) : Bool := decide (since + nsTide 16000 ≤ s.elapsed)

/-- SCOUR_CHUNK_START: the scheduler starts a position's next chunk, if it is the one to serve; a gated cluster is woken first; an inserted window whose tile does not meet R526 within 16 µs of the boundary is given up. -/
def execScourChunkStart (n : Nat) (s : State) : Out :=
  .next (
    let g := s.scourGroup n
    if s.obj 0x6040 0 = 0 ∨ (Tbl.get s.chunks none g).isSome then s
    else if !s.scourable n then if s.jobState g = jsStepping ∨ (s.job g).elim false (fun j => !s.past16 j.since) then s else s.endInsert g
    else if !s.scourFirst n then s
    else if s.plane (clusterOf n) ≠ plOn then s.wakeRequest (clusterOf n)
    else match s.nextChunk n with
      | some c => s.beginChunk n c
      | none => s.endInsert g)

/-- May a window be inserted at a partition's next boundary: no slack window for scour_starve_ms, none inserted for scour_insert_gap_ms? DEDUCED: a job offers a slack window while it is WAITING for longer than an instant (R526, R529). -/
def State.insertDue (s : State) (q : Nat) (j : Job) : Bool :=
  decide (s.jobState q = jsStepping ∨ (s.jobState q = jsWaiting ∧ j.since = s.elapsed)) && decide (j.slackAt + msTide * s.obj 0x6040 2 ≤ s.elapsed)
    && j.insertAt.elim true (fun t => decide (t + msTide * s.obj 0x6040 3 ≤ s.elapsed))

/-- SCOUR_INSERT: a partition without slack for scour_starve_ms has a window inserted at its boundary, where the next step start waits for one chunk. -/
def execScourInsert (q : Nat) (s : State) : Out :=
  .next (if s.obj 0x6040 0 = 1 ∧ (s.job q).elim false (fun j => !j.scourHold && s.insertDue q j) ∧ (Tbl.get s.chunks none q).isNone then
    (s.modJob q (fun j => { j with scourHold := true, insertAt := some s.elapsed })).count 0x6040 7 0 32
  else s)

/-- SCOUR_CHUNK_TIMEOUT: a chunk at 16 µs goes on to step 5 at once; earlier, nothing. -/
def execScourChunkTimeout (n : Nat) (s : State) : Out :=
  .next (match s.chunkOn n with
    | some (g, k) => if s.past16 k.startAt then { s with chunks := Tbl.put s.chunks none g (some { k with stopped := true }) } else s
    | none => s)

/-- Step 5 of R527: the window is restored, the accumulator slots and array registers that the chunk used are zeroed. -/
def State.restoreWindow (s : State) (k : Chunk) : State :=
  s.modTile k.tile (fun t => { t with
    spad := ((windowRows k.window).zip k.saved).foldl (fun m e => Tbl.put m 0 e.1 e.2) t.spad,
    arr := { t.arr with acc := t.arr.acc.filter (fun e => !k.slots.any (fun x => decide (x.1 ≤ e.1) && decide (e.1 < x.1 + x.2))), live := if k.loads then {} else t.arr.live, shadow := if k.loads then {} else t.arr.shadow } })

/-- A pass over a position advances; after the last chunk it is complete (R529, R541). -/
def State.advancePass (s : State) (k : Chunk) : State :=
  let p := Tbl.get s.scour {} k.tile
  if k.old then s
  else
    let s1 := { s with scour := Tbl.put s.scour {} k.tile { p with next := k.chunk + 1, again := false } }
    if (s1.nextChunk k.tile).isSome then s1
    else { s1 with scour := Tbl.put s1.scour {} k.tile { p with next := 0, again := false, due := false, passAt := s1.powered % 2 ^ 32 } }.setObj 0x6040 8 k.tile (s1.powered % 2 ^ 32)

/-- A FAIL: counted, reported, its UFR written, the position condemned (R528, R538, R539). -/
def State.scourFail (s : State) (k : Chunk) (crc : Nat) : State :=
  let n := k.tile
  let s1 := ((s.count 0x6040 5 0 32).count 0x6040 4 0 64).reportFor (s.ownerOf n) clSilentData (susTile n) (susTile n) 0 k.chunk
  let s2 := s1.writeUfr { s1.ufrOf 3 (susCode (susTile n)) clSilentData with scour := some [k.pkgId, k.version, k.chunk, k.expect, crc, k.window] }
  s2.condemnTile n clSilentData

/-- May a row be queued for sparing: is a spare of its bank left (R84, R528)? -/
def State.spareLeft (s : State) (n bank : Nat) : Bool := decide (s.obj (tileIx n) 0x26 bank < s.obj (tileIx n) 0x25 bank)

/-- The rows that a march found are queued for sparing; answers whether every bank had a spare (R528). -/
def State.queueMarch (s : State) (n : Nat) (rows : List (Nat × Nat)) : State × Bool :=
  rows.foldl (fun acc r =>
    if (acc.1.tile n).queued.contains r then acc
    else if acc.1.spareLeft n r.1 then (acc.1.queueSparing n r.1 r.2, acc.2) else (acc.1, false)) (s, true)

/-- The outcome of a chunk that ran to its end (R528). -/
def State.chunkOutcome (s : State) (k : Chunk) (crc : Nat) (rawBad : List (Nat × Nat)) : State :=
  let p := Tbl.get s.scour {} k.tile
  if k.kind = 1 then
    let r := s.queueMarch k.tile rawBad
    if r.2 then (r.1.count 0x6040 4 0 64).advancePass k else r.1.scourFail k crc
  else if crc = k.expect then
    let s1 := (s.count 0x6040 4 0 64).advancePass k
    if p.again then s1.silentEvent k.tile else s1
  else if p.again then s.scourFail k crc
  else { s with scour := Tbl.put s.scour {} k.tile { p with again := true } }.count 0x6040 4 0 64

/-- SCOUR_CHUNK_COMPLETE: the window is restored and the outcome decided. `crc` is the CRC-32C of the result rows, `rawBad` the rows in which a march mismatched by bank and row, `restoreOk` whether the restore read back, at the second attempt at the latest. -/
def execScourChunkComplete (n crc : Nat) (rawBad : List (Nat × Nat)) (restoreOk : Bool) (s : State) : Out :=
  .next (match s.chunkOn n with
    | none => s
    | some (g, k) =>
      let s1 := { s with chunks := Tbl.put s.chunks none g none }.restoreWindow k
      let s2 :=
        if !restoreOk then s1.scourFail k crc
        else if k.stopped then s1.count 0x6040 6 0 32
        else s1.chunkOutcome k crc rawBad
      s2.endInsert g)

/-! ### Twin comparisons (R533-R537) -/

/-- Is the twin's digest complete: its queues at their entry addresses, no descriptor in progress (R534)? -/
def State.twinComplete (s : State) (t : TwinRun) : Bool :=
  t.started && (s.tile t.twin).mov.descs.isEmpty
    && [0, 1, 2, 3].all (fun q => s.qState t.twin q == qsEmpty || s.qPc t.twin q == s.qEntry t.twin q)

/-- The primary's digest once its step has reached the boundary (R534). -/
def State.primaryDigest (s : State) (t : TwinRun) : Option (List (BitVec 64)) :=
  match t.prim with
  | some d => some d
  | none => if t.held then some (s.tile t.primary).digest else none

/-- A comparison differed under twin_hold: the step is abandoned and replayed (R535). -/
def State.replayTwin (s : State) (q : Nat) (p t : List (BitVec 64)) : State :=
  (s.abandonStep q clSilentData false).modJob q (fun j => { j with twin := j.twin.map (fun x => { x with differs := some (p, t) }) })

/-- A comparison differed without twin_hold: an unresolved event against both tiles, a UFR that suspects the results, the logical tile twinned in the next 16 steps (R535). -/
def State.suspectTwin (s : State) (q : Nat) (t : TwinRun) (p d : List (BitVec 64)) : State :=
  let s1 := (((s.discardRun q).silentEvent t.primary).silentEvent t.twin).twinUfr q t t.primary (p, d) [] 0 256
  s1.modJob q (fun j => { j with retwin := some (t.logical, 16) })

/-- TWIN_COMPARE: the comparator compares the two digests. -/
def execTwinCompare (q : Nat) (s : State) : Out :=
  .next (match s.twinRun q with
    | none => s
    | some t => match s.primaryDigest t with
      | none => s
      | some p =>
        if t.differs.isSome ∨ !s.twinComplete t then s
        else
          let d := (s.tile t.twin).digest
          let s1 := s.count 0x6050 3 0 64
          if p = d then
            let s2 := s1.discardRun q
            if t.held then s2.proceed q else s2
          else
            let s2 := s1.count 0x6050 5 0 32
            if t.held then s2.replayTwin q p d else s2.suspectTwin q t p d)

/-- TWIN_LIMIT_EXPIRY: a twin not complete by twin_limit_ms is INCONCLUSIVE. -/
def execTwinLimitExpiry (q : Nat) (s : State) : Out :=
  .next (match s.twinRun q with
    | some t => if t.held ∧ t.heldAt + msTide * s.obj 0x6050 2 ≤ s.elapsed ∧ !s.twinComplete t then (s.dropTwin q).proceed q else s
    | none => s)

/-! ### Fault records (R539-R541) -/

/-- Write the UFR of an archived levee record (R539, R540). -/
def State.leveeUfr (s : State) (w : Nat) : State :=
  let part := fieldOf w 236 4
  s.writeUfr { s.ufrOf 1 (fieldOf w 256 16) (fieldOf w 248 8) with reporter := some (fieldOf w 272 16), count := some (fieldOf w 288 32), times := some (fieldOf w 448 64, fieldOf w 384 64), status := some (fieldOf w 240 8), job := if part = 15 then none else some (part, fieldOf w 216 16, fieldOf w 152 64), detail := some (fieldOf w 320 64), flags := some (fieldOf w 0 8) }

/-- The own rule of object 6060:01 (R541). -/
def ruleUfrSelect (v : Nat) (s : State) : State × Nat :=
  if v ≥ 0x80000000 then
    match s.faults.archive[v - 0x80000000]? with
    | some w => (s.leveeUfr w, stOk)
    | none => (s, stNotReady)
  else if (s.ufr v).isSome then ({ s with ufrShown := v }, stOk)
  else (s, stNotReady)

/-- UFR_SELECT: a UFR is exposed, or one of an archived levee record is written. -/
def execUfrSelect (sess v : Nat) (s : State) : Out := s.commandOut sess 0x6060 1 (ruleUfrSelect v)

end Sys2Proof.Machine
end

