-- ==== Sys2Proof/Machine/Security.lean ====
section
/-! DEFINITION. Firmware update, credentials, attestation, the TLS key, debug reads and the test port (23_security.md R542-R560), and the end of a session (16_object_dictionary.md R391). -/

namespace Sys2Proof.Machine

/-! ### The end of a session (R11, R391) -/

/-- End every session that `p` names; a test session that one of them held ends, and the mode returns to SERVICE (R11, R391). -/
def State.endSessions (s : State) (p : Session → Bool) : State :=
  let gone := s.bamurn.sessions.filter p
  let s1 := { s with bamurn := { s.bamurn with sessions := s.bamurn.sessions.filter (fun x => !p x) } }
  if s1.device.mode = .test ∧ gone.any (fun x => x.number == s1.device.holder) then
    { s1 with device := { s1.device with mode := .service, holder := 0 } }
  else s1

/-! ### Firmware update (R546-R548) -/

/-- The flash that staging and an apply use: the one that does not run; in SAFE the one marked failed last (R546, R548). -/
def State.updateFlash (s : State) : Nat := if s.device.mode = .safe then s.sec.lastBad else 1 - s.running

/-- Programme a verified image: it is valid, shown and selected for the next start (R546). -/
def State.installImage (s : State) (i : Nat) (b : List Byte) : State :=
  let s1 := { s with sec := { s.sec with images := (s.sec.images ++ List.replicate (2 - s.sec.images.length) none).set i (some b), staged := none, installed := s.sec.installed || s.device.mode == Mode.safe } }
  ((s1.setObj 0x7060 0 i 0).setObj 0x7060 1 i (imageBuild b)).setObj 0x7060 4 0 i

/-- The own rule of object 7060:03. `flashOk`: the flash programming succeeds. -/
def ruleImageApply (flashOk : Bool) (v : Nat) (s : State) : State × Nat :=
  if v ≠ 1 then (s, stBadValue)
  else match s.sec.staged with
    | none => (s, stBadValue)
    | some b =>
      let i := s.updateFlash
      if !verifyImage (s.obj 0x8000 1) b then (s.setObj 0x7060 0 i 3, stBadValue)
      else if !flashOk then (s.reportFor none clStorage (susReeve (2 + i)) (susReeve 0) stRefused 0, stRefused)
      else ((((s.storeRecord 0x7060 4 2 (leBytes 1 i)).1).installImage i b), stOk)

/-- IMAGE_APPLY: the staged firmware image is verified and programmed. -/
def execImageApply (sess : Nat) (flashOk : Bool) (s : State) : Out := s.commandOut sess 0x7060 3 (ruleImageApply flashOk 1)

/-- The own rule of object 8000:02 (R547). -/
def ruleSvnCommit (v : Nat) (s : State) : State × Nat :=
  if s.obj 0x8000 1 < v ∧ v ≤ imageSvn (s.imageBytes s.running) then (s.setObj 0x8000 1 0 v, stOk) else (s, stBadValue)

/-- SVN_COMMIT: svn_fuse rises to the value written. -/
def execSvnCommit (sess v : Nat) (s : State) : Out := s.commandOut sess 0x8000 2 (ruleSvnCommit v)

/-! ### Credentials (R553) -/

/-- Is a credential other than `k`, or `k` with new rights, active with SECURITY? -/
def State.securityLeft (s : State) (k rights : Nat) : Bool :=
  (List.range 16).any (fun i =>
    if i = k then bitOf rights rSecurity && s.credState i != 2
    else s.credState i == 1 && (Tbl.get s.sec.creds none i).elim false (fun c => bitOf c.rights rSecurity))

/-- The own rule of object 8000:04 (R553). -/
def ruleCredentialSet (v : Nat) (s : State) : State × Nat :=
  let k := fieldOf v 0 8
  let rights := fieldOf v 32 32
  if fieldOf v 8 24 ≠ 0 ∨ k > 15 ∨ rights ≥ 64 then (s, stBadValue)
  else if !s.securityLeft k rights then (s, stRefused)
  else
    let c : Option Credential := if rights = 0 then none else some { key := some (leBytes 32 (fieldOf v 64 256)), rights := rights }
    let s1 := s.endSessions (fun x => x.credential == k && x.authed)
    let s2 := { s1 with bamurn := { s1.bamurn with sessions := s1.bamurn.sessions.map (fun (x : Session) => if x.credential = k then { x with failed := true } else x) }, sec := { s1.sec with creds := Tbl.put s1.sec.creds none k c } }
    (s2.measureConfig, stOk)

/-- CREDENTIAL_SET: a credential is set or deleted and its sessions end. -/
def execCredentialSet (sess : Nat) (v : BitVec 320) (s : State) : Out := s.commandOut sess 0x8000 4 (ruleCredentialSet v.toNat)

/-! ### Attestation (R549-R551) -/

/-- The seeds from which the identity key comes, and its public key (R549). -/
def identityPublic : List Byte :=
  Config.identityKey ((List.range 3).flatMap (fun i => (hmacSha256 Config.uds (ascii "KTX-IDENT" ++ leBytes 1 i)).take 16))

/-- The own rule of object 8010:02 (R550, R551). -/
def ruleAttest (b : List Byte) (s : State) : State × Nat :=
  match b with
  | [] => (s, stBadValue)
  | q :: nonce =>
    if ¬ (q.toNat < 12 ∨ q.toNat = 0xFF) ∨ nonce.length < 16 ∨ nonce.length > 64 then (s, stBadValue)
    else if s.sec.attests.length ≥ 4 then (s, stBusy)
    else ({ s with sec := { s.sec with attests := s.sec.attests ++ [(q.toNat, nonce)] } }, stPending)

/-- ATTEST_REQUEST: an attestation report is queued. -/
def execAttestRequest (sess : Nat) (value : List Byte) (s : State) : Out := s.commandOut sess 0x8010 2 (ruleAttest value)

/-- The flags of a report (R550, key 15). -/
def State.attestFlags (s : State) (q : Nat) : Nat :=
  (if s.degraded then 1 else 0) + (if s.sec.unlocked then 2 else 0) + (if q < 12 ∧ s.obj (0x5040 + q) 0 ≠ 0 then 4 else 0)
    + (if s.sec.debugRead then 8 else 0)

/-- Object 0100:00: the part number of the module's grade (R1, R2). -/
def State.partNumber (s : State) : List Byte := ascii (if s.obj 0x0101 0 = 1 then "MK9-1120-L" else "MK9-1088-L")

/-- A CBOR text string. -/
def cborText (b : List Byte) : List Byte := cborHead 3 b.length ++ b

/-- The keys of an attestation report without its signature (R550). -/
def State.attestKeys (s : State) (q : Nat) (nonce : List Byte) : List (Nat × List Byte) :=
  let loaded := decide (q < 12) && (s.job q).isSome
  [(0, cborUint 1), (1, cborUint (s.obj 0x4000 2)), (2, cborText s.partNumber), (3, cborUint (s.obj 0x0101 0)), (4, cborBytes nonce),
   (5, cborUint s.tide), (6, cborUint s.running), (7, cborUint (imageSvn (s.imageBytes s.running))), (8, cborUint (s.obj 0x8000 1)),
   (9, cborArray ((s.measures.take 5).map cborBytes))]
    ++ (if q < 12 then [(10, cborUint q)] else [])
    ++ (if loaded then [(11, cborBytes (Tbl.get s.sec.pms [] q)), (12, cborUint (s.jobId q))] else [])
    ++ [(13, cborUint s.tilesOffered), (14, cborUint s.device.mode.code), (15, cborUint (s.attestFlags q))]

/-- ATTEST_SIGNED: the oldest request's report is signed and shown. -/
def execAttestSigned (s : State) : Out :=
  .next (match s.sec.attests with
    | [] => s
    | (q, nonce) :: rest =>
      let keys := s.attestKeys q nonce
      let report := cborMap (keys ++ [(31, cborBytes (Config.slhSign (cborMap keys)))])
      let s1 := { s with sec := { s.sec with attests := rest, report := report } }.count 0x8010 5 0 32
      if rest.isEmpty then s1.setObj 0x8010 2 0 stOk else s1)

/-! ### The TLS key (R552) -/

/-- The own rule of object 8020:00. -/
def ruleTlsKeygen (v : Nat) (s : State) : State × Nat :=
  if v = 1 then ({ s with sec := { s.sec with keyGens := s.sec.keyGens + 1, tlsNext := some (s.sec.keyGens + 1) } }, stOk) else (s, stBadValue)

/-- TLS_KEYGEN: a key and its request are generated. -/
def execTlsKeygen (sess : Nat) (s : State) : Out := s.commandOut sess 0x8020 0 (ruleTlsKeygen 1)

/-- Put a certificate chain in force, for the pending key where it is that one's. -/
def State.useChain (s : State) (chain : List Byte) (pending : Bool) : State :=
  { s with sec := { s.sec with tlsChain := chain, tlsKey := if pending then s.sec.tlsNext.getD s.sec.tlsKey else s.sec.tlsKey, tlsNext := if pending then none else s.sec.tlsNext } }.measureConfig

/-- The own rule of object 8020:02. -/
def ruleTlsChain (chain : List Byte) (s : State) : State × Nat :=
  if chain.length > 8192 then (s, stBadValue)
  else match Config.leafKey chain with
    | none => (s, stBadValue)
    | some k =>
      if s.sec.tlsNext.map Config.tlsKey = some k then (s.useChain chain true, stOk)
      else if Config.tlsKey s.sec.tlsKey = k then (s.useChain chain false, stOk)
      else (s, stBadValue)

/-- TLS_CHAIN_WRITE: a certificate chain is checked and serves new connections. -/
def execTlsChainWrite (sess : Nat) (chain : List Byte) (s : State) : Out := s.persistOut sess 0x8020 2 9 chain (ruleTlsChain chain)

/-! ### Debug reads (R99, R558) -/

/-- The rows of a debug read: each row's bytes, and whether it decodes uncorrectable. -/
def State.debugRows (s : State) (n bank row count : Nat) : List (List Byte × Bool) :=
  (List.range count).map (fun i =>
    let w := Tbl.get (s.tile n).spad 0 (bank * 1024 + row + i)
    (leBytes 32 (decodedRow w).toNat, match decodeWord w with
      | .bad => true
      | _ => false))

/-- The own rule of object 8030:01. The header's mask of 32 bits takes the place of the count's low bits (notes/assumptions). -/
def ruleDebugRead (v : Nat) (s : State) : State × Nat :=
  let n := fieldOf v 48 16
  let bank := fieldOf v 44 4
  let row := fieldOf v 34 10
  let count := fieldOf v 28 6
  if !s.sec.held.contains n then (s, stFenced)
  else if fieldOf v 0 28 ≠ 0 ∨ bank > 11 ∨ count = 0 ∨ count > 32 ∨ row + count > 1024 then (s, stBadValue)
  else
    let rows := s.debugRows n bank row count
    let mask := (rows.zipIdx.map (fun e => if e.1.2 then 2 ^ e.2 else 0)).sum
    let data := leBytes 8 (setField v 0 32 mask) ++ rows.flatMap (·.1)
    ({ s with sec := { s.sec with debugData := data, debugRead := true } }.reportFor none clOperator (susTile n) (susReeve 0) 0 v, stOk)

/-- DEBUG_READ: up to 32 rows of a held tile are read. -/
def execDebugRead (sess : Nat) (v : BitVec 64) (s : State) : Out := s.commandOut sess 0x8030 1 (ruleDebugRead v.toNat)

/-- The scrubs of held tiles proceed (R99, R558). -/
def State.releaseHeld (s : State) (ns : List Nat) : State :=
  ({ s with sec := { s.sec with held := s.sec.held.filter (fun n => !ns.contains n) } }).each ns (fun t n => t.setObj (tileIx n) 0x2A 0 1)

/-- The own rule of object 8030:03. -/
def ruleDebugRelease (v : Nat) (s : State) : State × Nat :=
  if v = 0xFFFF then (s.releaseHeld s.sec.held, stOk)
  else if v ≥ 1224 then (s, stBadValue)
  else (s.releaseHeld (s.sec.held.filter (· == v)), stOk)

/-- DEBUG_RELEASE: a held tile, or every one, goes to its scrub. -/
def execDebugRelease (sess n : Nat) (s : State) : Out := s.commandOut sess 0x8030 3 (ruleDebugRelease n)

/-- DEBUG_HOLD_EXPIRY: 10 s after S7 began the held scrubs proceed; earlier, nothing. -/
def execDebugHoldExpiry (s : State) : Out := .next (if s.stagePast 10000 then s.releaseHeld s.sec.held else s)

/-! ### The test port (R559) -/

/-- A pool whose pages are all free and zero. -/
def CtxPool.emptied (p : CtxPool) : CtxPool := { p with hbm := { size := p.hbm.size }, ddr := { size := p.ddr.size }, demoting := false }

/-- What an accepted token does: all memory zero-filled, every context FREE, every tile scrubbed, the test port unlocked. -/
def State.unlockPort (s : State) : State :=
  let s1 := { s with hbm := [], ddr := [], ctxs := [], cached := [], pinQueue := [], pagers := [], pools := Tbl.keep s.pools {} CtxPool.emptied, hbms := Tbl.keep s.hbms {} MemServer.recovered, channels := Tbl.keep s.channels {} MemServer.recovered }
  let s2 := s1.each (Tbl.keys s1.tiles) (fun t n =>
    let u := (t.wipeTile n).checkScrub n
    if u.closable n then u.passScrub n (u.tileState n) else u)
  { s2 with sec := { s2.sec with unlocked := true, challenge := none } }.setObj 0x8040 0 0 1

/-- The own rule of object 8040:02. -/
def ruleUnlock (token : List Byte) (s : State) : State × Nat :=
  if s.device.mode ≠ .test ∧ s.device.mode ≠ .safe then (s, stNotReady)
  else match s.sec.challenge with
    | none => (s, stAccessDenied)
    | some c => if Config.tokenVerify (leBytes 8 (s.obj 0x4000 2) ++ c) token then (s.unlockPort, stOk) else (s, stAccessDenied)

/-- UNLOCK_TOKEN: a token is written to object 8040:02. -/
def execUnlockToken (sess : Nat) (token : List Byte) (s : State) : Out :=
  .next (match s.writeGuard sess 0x8040 2 with
    | some st => s.answer sess 0x8040 2 st
    | none => (ruleUnlock token s).1.answer sess 0x8040 2 (ruleUnlock token s).2)

end Sys2Proof.Machine
end

