-- ==== Sys2Proof/Machine/Dictionary.lean ====
section
/-! DEFINITION. The object dictionary as the Bamurn server and OBJ_REQ read, write and describe it (16_object_dictionary.md R387, R393, R396-R399, R405, R406): the value of every object, the check of a value written, what a write does. -/

namespace Sys2Proof.Machine

/-! ### What objects read as (R406 and the object tables of the other chapters) -/

/-- Object 0200:02: an entry for each session (R406). -/
def Session.row (x : Session) : Nat :=
  let path := match x.path with
    | .port .. => 0
    | _ => 1
  2 ^ 64 * (x.opened % 2 ^ 64) + 2 ^ 32 * x.rights + 2 ^ 24 * path + 2 ^ 16 * x.credential + x.number

/-- Does a queue have a WAIT on gauge `g` at its head (R221)? -/
def State.waitsOn (s : State) (n q g : Nat) : Bool :=
  match s.awaited n q with
  | some (k, h, _) => k == 0 && h == g && s.qState n q != qsEmpty
  | none => false

/-- The gauge record of a gauge (R221). -/
def State.gaugeRow (s : State) (n g : Nat) : Nat :=
  let u := s.gauge n g
  let x := (s.tile n).gau
  let flag := fun (b : Bool) (i : Nat) => if b then 2 ^ i else 0
  let ready := match (s.tile n).arr.load with
    | .waiting r => (r.cond.map (·.1)) == some g
    | _ => false
  2 ^ 108 * u.mask + flag ready 107 + ((List.range 4).map (fun q => flag (s.waitsOn n q g) (103 + q))).sum
    + flag (x.st == .frozen) 102 + flag u.handSet 101 + flag (x.pend.any (fun e => e.2.valid && e.2.held && e.2.gauge == g)) 100
    + 2 ^ 88 * u.device + 2 ^ 72 * u.logical + 2 ^ 56 * u.add + u.value

/-- An entry of the pending-signal table (R202); a number beyond its field shows its low bits (DESIGN CHOICE, notes/assumptions/123.md). -/
def PendSig.row (e : PendSig) : Nat :=
  let flag := fun (b : Bool) (i : Nat) => if b then 2 ^ i else 0
  flag e.valid 127 + flag e.held 126 + flag e.failed 125 + 2 ^ 95 * (e.device % 2 ^ 8) + 2 ^ 79 * (e.logical % 2 ^ 16) + 2 ^ 63 * (e.xferId % 2 ^ 16)
    + 2 ^ 56 * (e.gauge % 2 ^ 7) + 2 ^ 40 * (e.add % 2 ^ 16) + 2 ^ 20 * (e.expected % 2 ^ 20) + e.landed % 2 ^ 20

/-- A history entry (R498). -/
def HistEntry.row (h : HistEntry) : Nat :=
  2 ^ 240 * h.suspect + 2 ^ 232 * h.cls + 2 ^ 224 * h.verdict + 2 ^ 192 * h.transient + 2 ^ 160 * h.permanent
    + 2 ^ 96 * h.ev2 + 2 ^ 64 * h.ev1 + 2 ^ 32 * h.ev0 + h.updated

/-- A saved training entry (R490). -/
def SavedTrain.row (t : SavedTrain) : Nat := 2 ^ 64 * t.identity + 2 ^ 48 * t.unit + 2 ^ 32 * t.rate + t.starts

/-- Entries of `size` bytes each, packed in entry order (R393). -/
def packed (size : Nat) (xs : List Nat) : List Byte := xs.flatMap (leBytes size)

/-- Objects of one index whose value is computed when they are read: this chapter's, the floor plan's and the module's. -/
def State.moduleValue (s : State) (index sub : Nat) : Option (List Byte) :=
  if index = 0x0100 ∧ sub = 0 then some s.partNumber
  else if index = 0x0102 ∧ sub = 0 then some (leBytes 2 s.tilesOffered)
  else if index = 0x0110 ∧ sub = 0 then some (leBytes 1 s.device.mode.code)
  else if index = 0x0110 ∧ sub = 2 then some (leBytes 2 s.device.holder)
  else if index = 0x0200 ∧ sub = 0 then some (leBytes 1 s.bamurn.sessions.length)
  else if index = 0x0200 ∧ sub = 2 then some (packed 16 (s.bamurn.sessions.map Session.row))
  else if index = 0x0210 ∧ sub = 0 then some (leBytes 4 s.bamurn.flash.free)
  else if index = 0x0210 ∧ sub = 3 then some (leBytes 4 s.bamurn.flash.highest)
  else if index = 0x1420 ∧ sub = 0 then some (leBytes 8 s.tide)
  else if index = 0x2001 ∧ sub = 0 then some (packed 1 (allTiles.map s.tileState))
  else if index = 0x2002 ∧ sub = 0 then some (leBytes 2 s.reserveCount)
  else if index = 0x2003 ∧ sub = 0 then some (leBytes 2 s.holeCount)
  else if index = 0x3000 ∧ sub = 2 then some (packed 8 s.spans)
  else if index = 0x3400 ∧ sub = 1 then some (leBytes 4 (s.ctxs.filter (fun e => e.2.st != .free)).length)
  else if index = 0x3400 ∧ sub = 4 then some (leBytes 2 s.pinsHeld)
  else if index = 0x3400 ∧ sub = 8 then some (leBytes 1 s.movesInFlight)
  else if index = 0x9000 ∧ sub = 1 then
    some (leBytes 1 (match s.device.mode with
      | .service => 1
      | .recovery => 1
      | .test => 2
      | _ => 0))
  else none

/-- Objects of one index whose value is computed when they are read: faults, UFRs, starts and security. -/
def State.recordValue (s : State) (index sub : Nat) : Option (List Byte) :=
  if index = 0x6000 ∧ sub = 0 then some (packed 64 ((List.range 256).map (fun e => (s.levee e).elim 0 (s.leveeWord e))))
  else if index = 0x6000 ∧ sub = 4 then some (packed 64 s.faults.archive)
  else if index = 0x6010 ∧ sub = 0 then some (packed 32 (s.faults.history.map HistEntry.row))
  else if index = 0x6060 ∧ sub = 2 then some ((s.ufr s.ufrShown).elim [] Ufr.bytes)
  else if index = 0x7020 ∧ sub = 2 then some (packed 16 (s.boot.saved.map SavedTrain.row))
  else if index = 0x8000 ∧ sub = 0 then some Config.rootKeyHash
  else if index = 0x8000 ∧ sub = 3 then some s.credTable
  else if index = 0x8010 ∧ sub = 0 then some Config.identityCert
  else if index = 0x8010 ∧ sub = 1 then some identityPublic
  else if index = 0x8010 ∧ sub = 3 then some s.sec.report
  else if index = 0x8010 ∧ sub = 4 then some s.measures.flatten
  else if index = 0x8020 ∧ sub = 1 then some (if s.sec.keyGens = 0 then [] else Config.tlsRequest (Config.tlsKey s.sec.keyGens))
  else if index = 0x8020 ∧ sub = 2 then some s.sec.tlsChain
  else if index = 0x8030 ∧ sub = 2 then some s.sec.debugData
  else none

/-- Objects of tiles, clusters and partitions whose value is computed when they are read. -/
def State.unitValue (s : State) (index sub : Nat) : Option (List Byte) :=
  if 0x2100 ≤ index ∧ index < 0x25C8 ∧ sub = 0x60 then some (packed 16 ((List.range 128).map (s.gaugeRow (index - 0x2100))))
  else if 0x2100 ≤ index ∧ index < 0x25C8 ∧ sub = 0x61 then
    some (packed 8 ((List.range 128).map (fun g => (s.gauge (index - 0x2100) g).tide)))
  else if 0x2100 ≤ index ∧ index < 0x25C8 ∧ sub = 0x63 then
    some (packed 16 ((List.range 32).map (fun k => (Tbl.get (s.tile (index - 0x2100)).gau.pend {} k).row)))
  else if 0x1040 ≤ index ∧ index < 0x109A ∧ sub = 0 ∧ (s.planeWaits (index - 0x1040)).isSome then some (leBytes 1 stRestartPending)
  else if 0x1040 ≤ index ∧ index < 0x109A ∧ sub = 2 then
    some (leBytes 2 (fieldOf (s.obj 0x1100 0 (s.obj (index - 0x1040 + 0x1310) 0)) 32 16))
  else if 0x3410 ≤ index ∧ index < 0x341C ∧ sub = 0xB then some (leBytes 4 (s.freePages (index - 0x3410) false))
  else if 0x3410 ≤ index ∧ index < 0x341C ∧ sub = 0xC then some (leBytes 4 (s.freePages (index - 0x3410) true))
  else if 0x5000 ≤ index ∧ index < 0x500C ∧ sub = 9 then some (leBytes 2 (s.poolSize (index - 0x5000)))
  else if 0x5210 ≤ index ∧ index < 0x521C ∧ sub = 9 then
    some (leBytes 2 ((Tbl.get s.disps {} (index - 0x5210)).tokens.map (fun t => t.rows.length)).sum)
  else none

/-- The value of an object that is computed, none for one that stands in `State.regs`. -/
def State.computed (s : State) (index sub : Nat) : Option (List Byte) :=
  match s.moduleValue index sub with
  | some v => some v
  | none => match s.recordValue index sub with
    | some v => some v
    | none => s.unitValue index sub

/-- Objects that a sensor feeds and no command reports (R407-R429, R191): what they read is a free value. -/
def isSensor (index sub : Nat) : Bool :=
  (index == 0x1000 && (sub == 1 || sub == 5)) || (index == 0x2012 && sub == 0) || (index == 0x1410 && sub == 2)
    || (decide (0x1040 ≤ index) && decide (index < 0x109A) && (sub == 6 || sub == 7))
    || (decide (0x10A0 ≤ index) && decide (index < 0x10C0) && decide (2 ≤ sub) && decide (sub ≤ 7))

/-- Objects that a sensor feeds and a command reports: until the first report they read as a free value. -/
def isReported (index sub : Nat) : Bool :=
  (index == 0x1000 && sub == 0) || (index == 0x1101 && (sub == 2 || sub == 3))
    || (decide (0x1020 ≤ index) && decide (index < 0x1026) && sub == 1)
    || (decide (0x1040 ≤ index) && decide (index < 0x109A) && (sub == 3 || sub == 4 || sub == 5 || sub == 9))
    || (decide (0x1310 ≤ index) && decide (index < 0x136A) && sub == 5)
    || (index == 0x1400 && decide (1 ≤ sub) && decide (sub ≤ 5))

/-- The control whose write is latched until a transition ends (R10, R234, R324, R368, R399). -/
def State.latchedWrite (s : State) (index sub : Nat) : Bool :=
  if 0x5010 ≤ index ∧ index < 0x501C then
    (match Tbl.get s.latches none (index - 0x5010) with
      | some .load => sub == 1
      | some .finish => sub == 2
      | some .preempt => sub == 3
      | some .resume => sub == 4
      | none => false)
  else if 0x4010 ≤ index ∧ index < 0x4020 then sub == 4 && (s.port (index - 0x4010)).latch.isSome
  else if 0x9100 ≤ index ∧ index < 0x9110 then sub == 0xF && (s.svc (index - 0x9100)).latch.isSome
  else if index = 0x3400 then sub == 2 && (s.ctx (s.obj 0x3400 2 1)).opens.isSome
  else
    (match s.device.latched with
      | some (.enterTest _) => index == 0x0110 && sub == 1
      | some (.leaveTest _) => index == 0x0110 && sub == 1
      | some (.warmStart _) => index == 0x7000 && sub == 1
      | some (.coldStart _) => index == 0x7000 && sub == 1
      | some (.recoveryReset _) => index == 0x6020 && sub == 0
      | none => false)

/-- What a CMD object reads as: the status of its last write; RESTART_PENDING exactly while that write is latched (R396, R399). -/
def State.lastStatus (s : State) (index sub : Nat) : Nat :=
  if s.obj index sub = stRestartPending then (if s.latchedWrite index sub then stRestartPending else stOk) else s.obj index sub

/-- Table entries up to the last that is not zero. -/
def trimmed (xs : List Nat) : List Nat := (xs.reverse.dropWhile (fun x => x == 0)).reverse

/-- What the entries of a table read as: reserved fields read as zero (R5, R246, R482). -/
def shown (index sub e : Nat) : Nat :=
  if index = 0x5200 ∧ sub = 1 then setField (setField (setField (setField e 0 54 0) 72 3 0) 120 7 0) 128 48 0
  else if index = 0x7040 ∧ sub = 1 then setField e 1 43 0
  else e

/-- The value bytes of an object (R393), of one that no sensor feeds. -/
def State.valueOf (s : State) (index sub : Nat) (d : ObjDesc) : List Byte :=
  if d.access = 5 then leBytes 1 (s.lastStatus index sub)
  else match s.computed index sub with
    | some v => v
    | none =>
      if index = 0x9010 then packed d.size (trimmed (s.objs index sub d.entries))
      else if d.ty = 11 then packed d.size ((s.objs index sub d.entries).map (shown index sub))
      else leBytes d.size (s.obj index sub)

/-- Read an object: free values for what sensors feed, a new challenge for object 8040:01 (R559). -/
def State.fetch (s : State) (index sub : Nat) (d : ObjDesc) : State × List Byte :=
  let n := if d.ty = 11 then d.entries else 1
  if isSensor index sub ∨ (isReported index sub ∧ (List.range n).all (fun e => s.obj index sub e == 0)) then
    let x := s.draw
    (x.2, packed d.size ((List.range n).map (fun e => Config.sensor (x.1 * 65536 + e) % 256 ^ d.size)))
  else if index = 0x8040 ∧ sub = 1 then
    let x := s.draw
    let c := leBytes 16 (Config.nonce x.1).toNat
    ({ x.2 with sec := { x.2.sec with challenge := some c } }, c)
  else (s, s.valueOf index sub d)

/-- Clear an RC object (R6, R51). -/
def State.cleared (s : State) (index sub : Nat) (d : ObjDesc) : State :=
  s.setObjs index sub 0 (List.replicate (if d.ty = 11 then d.entries else 1) 0)

/-- May an object be read without a session (R387)? -/
def identityObject (index : Nat) : Bool := decide (0x0100 ≤ index) && decide (index < 0x0200)

/-- The status of the first check that refuses a read; none where all pass (R387, R396, R397, R219). Session 0 is no session. -/
def State.readGuard (s : State) (sess index sub : Nat) (peek : Bool) : Option Nat :=
  match objAt index sub with
  | none => some stBadValue
  | some d =>
    let need := readRights index sub d.access peek
    if (sess = 0 ∧ !identityObject index) ∨ (sess ≠ 0 ∧ need &&& s.rights sess ≠ need) then some stAccessDenied
    else if d.access = 4 ∨ (peek ∧ d.access ≠ 6) then some stAccessDenied
    else s.modeGate false index sub

/-- Read an object: its value, and an RC object read without peek clears (R6, R386, R396). -/
def State.readValue (s : State) (sess index sub : Nat) (peek : Bool) : State × Nat × List Byte :=
  match s.readGuard sess index sub peek, objAt index sub with
  | some st, _ => (s, st, [])
  | none, none => (s, stBadValue, [])
  | none, some d =>
    let x := s.fetch index sub d
    (if d.access = 6 ∧ !peek then x.1.cleared index sub d else x.1, stOk, x.2)

/-! ### The value of a write (R393, R396) -/

/-- Is a value's type and length the object's (R393)? An attestation request and the certificate chain have no fixed length, nor have images, packages and tokens; object 9010:00 takes any number of entries. -/
def ObjDesc.fits (d : ObjDesc) (ty : Nat) (value : List Byte) : Bool :=
  ty == d.ty
    && (if d.size = 0 then true
        else if d.base = 0x9010 then value.length % d.size == 0 && decide (value.length ≤ d.entries * d.size)
        else value.length == (if d.ty = 11 then d.entries * d.size else d.size))

/-- A tenant entry: unused, or every field in its range (R378). -/
def tenantOk (e : Nat) : Bool :=
  e == 0 || (fieldOf e 0 56 == 0 && decide (1 ≤ fieldOf e 56 8) && decide (fieldOf e 56 8 ≤ 100)
    && decide (1 ≤ fieldOf e 64 32) && decide (fieldOf e 64 32 ≤ 262144))

/-- The conditions of the object tables beyond one range (R224, R288, R324, R378, R426, R431-R433, R482, R541). -/
def State.extraOk (s : State) (index sub v : Nat) : Bool :=
  if 0x4010 ≤ index ∧ index < 0x4020 ∧ sub = 0 then decide (v ≤ 3) && (decide (v < 2) || decide (12 ≤ index - 0x4010))
  else if 0x5000 ≤ index ∧ index < 0x500C ∧ sub = 1 then decide (v < 2 ^ 90)
  else if 0x5000 ≤ index ∧ index < 0x500C ∧ sub = 6 then v % 256 == 0
  else if 0x3410 ≤ index ∧ index < 0x341C ∧ sub = 8 then decide (v < s.obj index 7)
  else if index = 0x1010 ∧ sub = 0 then v % 10 == 0
  else if index = 0x1100 ∧ sub = 1 then decide (v ≤ s.obj 0x1100 2)
  else if index = 0x1100 ∧ sub = 2 then decide (s.obj 0x1100 1 ≤ v)
  else if 0x1120 ≤ index ∧ index < 0x112C then decide (s.obj 0x1100 1 ≤ v) && decide (v ≤ s.obj 0x1100 2)
  else if 0x1130 ≤ index ∧ index < 0x1230 then v == 255 || (decide (s.obj 0x1100 1 ≤ v) && decide (v ≤ s.obj 0x1100 2))
  else if index = 0x2010 then v % 8 == 0
  else if index = 0x6050 ∧ sub = 0 then v == 0 || (decide (64 ≤ v) && decide (v ≤ 1048576))
  else if 0x9100 ≤ index ∧ index < 0x9110 ∧ sub = 0xC then v % 32 == 0 && decide (32 ≤ v) && decide (v ≤ 16777216)
  else if 0x9100 ≤ index ∧ index < 0x9110 ∧ sub = 0xE then v % 32 == 0
  else true

/-- The entries that a table write gives. -/
def tableEntries (d : ObjDesc) (value : List Byte) : List Nat :=
  let xs := chunked d.size value
  xs ++ List.replicate (d.entries - xs.length) 0

/-- Is a value one the object takes (R393, R396): its type, its length, its range? -/
def State.valueOk (s : State) (index sub ty : Nat) (d : ObjDesc) (value : List Byte) : Bool :=
  d.fits ty value
    && (if d.size = 0 then true
        else if d.ty = 11 then
          (tableEntries d value).all (fun e => (index != 0x9010 || tenantOk e) && (index != 0x7040 || fieldOf e 1 43 == 0))
        else if d.access = 5 then true
        else decide (d.lo ≤ leNat value) && decide (leNat value ≤ d.hi) && s.extraOk index sub (leNat value))

/-! ### The commands of CMD objects (R396) -/

/-- The own rule of context_op by its operation (R272). -/
def ruleContextOp (v : Nat) (s : State) : State × Nat :=
  match fieldOf v 0 8 with
  | 1 => ruleCtxOpen v s
  | 2 => ruleCtxClose v s
  | 3 => ruleCtxSetPosition v s
  | 4 => ruleCtxSetPriority v s
  | 5 => ruleCtxPin v s
  | 6 => ruleCtxUnpin v s
  | 7 => ruleCtxPromote v s
  | 8 => ruleCtxDemote v s
  | 9 => ruleCtxRead v s
  | _ => (s, stBadValue)

/-- The own rule of object 0200:03: one's own session needs no further right, another's SECURITY; an unknown one is answered NOT_READY (R406). -/
def ruleSessionClose (sess v : Nat) (s : State) : State × Nat :=
  if !s.bamurn.sessions.any (fun x => x.number == v) then (s, stNotReady)
  else if v ≠ sess ∧ !s.holds sess rSecurity then (s, stAccessDenied)
  else (s.endSessions (fun x => x.number == v), stOk)

/-- The own rule of a CMD object of one index. -/
def ruleModule (sess index sub v : Nat) (value : List Byte) (s : State) : State × Nat :=
  if index = 0x0110 then ruleTestSession sess v s
  else if index = 0x0200 then ruleSessionClose sess v s
  else if index = 0x3400 then ruleContextOp v s
  else if index = 0x5200 then ruleExpertApply v s
  else if index = 0x6010 then ruleHistoryClear v s
  else if index = 0x6020 then ruleRecoveryReset sess v s
  else if index = 0x6041 then rulePackageApply true v s
  else if index = 0x6060 then ruleUfrSelect v s
  else if index = 0x7000 then ruleStartCommand sess v s
  else if index = 0x7020 then ruleTrainDiscard v s
  else if index = 0x7030 then ruleMemtestNext v s
  else if index = 0x7060 then ruleImageApply true v s
  else if index = 0x8000 then (if sub = 2 then ruleSvnCommit v s else ruleCredentialSet v s)
  else if index = 0x8010 then ruleAttest value s
  else if index = 0x8020 then ruleTlsKeygen v s
  else if index = 0x8030 then (if sub = 1 then ruleDebugRead v s else ruleDebugRelease v s)
  else (s, stBadValue)

/-- The own rule of a CMD object, those of tiles, partitions, ports and services included. -/
def ruleCommand (sess index sub v : Nat) (value : List Byte) (s : State) : State × Nat :=
  if 0x2100 ≤ index ∧ index < 0x25C8 then ruleGaugeSet (index - 0x2100) v s
  else if 0x3410 ≤ index ∧ index < 0x341C then rulePoolApply (index - 0x3410) v s
  else if 0x4010 ≤ index ∧ index < 0x4020 then rulePortReset (index - 0x4010) v s
  else if 0x5000 ≤ index ∧ index < 0x500C then rulePartitionApply (index - 0x5000) v s
  else if 0x5010 ≤ index ∧ index < 0x501C then
    (if sub = 1 then ruleJobLoad (index - 0x5010) v s else if sub = 2 then ruleJobEnd (index - 0x5010) v s
     else if sub = 3 then ruleJobPreempt (index - 0x5010) v s else ruleJobResume (index - 0x5010) v s)
  else if 0x5040 ≤ index ∧ index < 0x504C then ruleOutsideDeclare (index - 0x5040) v s
  else if 0x9100 ≤ index ∧ index < 0x9110 then ruleSvc (index - 0x9100) v s
  else ruleModule sess index sub v value s

/-! ### What a write does (R396, R400) -/

/-- The IEEE 1588 clock after a change of ptp_enable (R464): the lowest port set is the one in use, and the clock listens anew where that port changes. -/
def State.choosePtp (s : State) : State :=
  match s.ptpPort with
  | none => (s.setObj 0x1430 0 0 0).setObj 0x1430 1 0 0xFF
  | some k => if s.obj 0x1430 1 = k then s else (s.setObj 0x1430 0 0 1).setObj 0x1430 1 0 k

/-- What follows a new value at once. -/
def State.afterWrite (s : State) (index sub : Nat) : State :=
  if index = 0x1420 ∧ sub = 1 then s.retime
  else if 0x4010 ≤ index ∧ index < 0x4020 ∧ sub = 0x14 then s.choosePtp
  else if index = 0x9010 then s.measureConfig
  else if 0x3410 ≤ index ∧ index < 0x341C ∧ 7 ≤ sub ∧ sub ≤ 9 then s.pagerRun (index - 0x3410)
  else s

/-- Give an object a value already checked. -/
def State.putValue (s : State) (index sub : Nat) (d : ObjDesc) (value : List Byte) : State :=
  let t := s.keepInForce index sub
  (if d.ty = 11 then t.setObjs index sub 0 (tableEntries d value) else t.setObj index sub 0 (leNat value)).afterWrite index sub

/-- The own rule of an RWP object, before its record (R352, R552). -/
def State.rwpRule (s : State) (index sub : Nat) (d : ObjDesc) (value : List Byte) : State × Nat :=
  if index = 0x4000 ∧ sub = 0 then ruleDeviceId (leNat value) s
  else if index = 0x8020 ∧ sub = 2 then ruleTlsChain value s
  else (s.putValue index sub d value, stOk)

/-- A persistent write: the object's own rule, the record, then the value (R400). -/
def State.persist (s : State) (index sub : Nat) (d : ObjDesc) (value : List Byte) : State × Nat :=
  let own := s.rwpRule index sub d value
  if own.2 ≠ stOk then own
  else
    let r := s.storeRecord index sub d.ty value
    if r.2 ≠ stOk then r else r.1.rwpRule index sub d value

/-- A write to a write-only object: an image or a package is staged (R546, R523), an unlock token is checked (R559). -/
def State.stage (s : State) (index : Nat) (value : List Byte) : State × Nat :=
  if index = 0x6041 then ({ s with pkg := { s.pkg with staged := some value } }.setObj 0x6041 4 0 1, stOk)
  else if index = 0x7060 then ({ s with sec := { s.sec with staged := some value } }.setObj 0x7060 0 s.updateFlash 2, stOk)
  else ruleUnlock value s

/-- Write an object: the checks of R396 in their order, then its own rule; the answer is the status. -/
def State.writeValue (s : State) (sess index sub ty : Nat) (value : List Byte) : State × Nat :=
  match objAt index sub with
  | none => (s, stBadValue)
  | some d =>
    if d.access = 5 then
      s.command sess index sub (fun t => if !t.valueOk index sub ty d value then (t, stBadValue) else ruleCommand sess index sub (leNat value) value t)
    else match s.writeGuard sess index sub with
      | some st => (s, st)
      | none =>
        if !s.valueOk index sub ty d value then (s, stBadValue)
        else if d.access = 4 then s.stage index value
        else if d.access = 3 then s.persist index sub d value
        else (s.putValue index sub d value, stOk)

/-- OBJECT_WRITE: a write to an object. -/
def execObjectWrite (sess index sub ty : Nat) (value : List Byte) (s : State) : Out :=
  let r := s.writeValue sess index sub ty value
  .next (r.1.answer sess index sub r.2)

/-- SESSION_CLOSE_COMMAND: a write to object 0200:03. -/
def execSessionCloseCommand (sess target : Nat) (s : State) : Out := s.commandOut sess 0x0200 3 (ruleSessionClose sess target)

/-! ### Descriptions (R405) -/

/-- The largest value an object's table states, for objects of variable size; none where it states none. -/
def statedMax (index sub : Nat) : Option Nat :=
  if index = 0x0100 then some 255
  else if index = 0x3000 ∧ sub = 2 then none
  else if index = 0x6010 then some 65536
  else if index = 0x8010 ∧ sub = 2 then some 65
  else if index = 0x8020 ∧ sub = 2 then some 8192
  else if index = 0x8030 ∧ sub = 2 then some 1032
  else none

/-- The description of an object: 64 bytes. -/
def State.description (s : State) (index sub : Nat) (d : ObjDesc) : List Byte :=
  let variable' := d.size = 0 ∨ (d.ty = 11 ∧ d.entries = 0)
  let max' := if variable' then (statedMax index sub).getD (Config.maxSize (okey index sub 0) % 2 ^ 32)
    else if d.ty = 11 then d.entries * d.size else d.size
  let entries := if d.ty = 11 then (s.valueOf index sub d).length / d.size else 0
  let gate := 1 + (if gaugeGated index sub then 2 else 0) + (if gaugeGated index sub ∨ !safeReadable index sub then 16 else 0)
  let wr := if d.access = 1 ∨ d.access = 6 then 0 else writeRights index sub d.access
  let rd := if d.access = 4 then 0 else readRights index sub d.access false
  leBytes 32 (2 ^ 224 * max' + 2 ^ 192 * entries + 2 ^ 176 * (if d.ty = 11 then d.size else 0) + 2 ^ 96 * gate
    + 2 ^ 64 * rd + 2 ^ 32 * wr + d.access * 2 ^ 8 + d.ty)
    ++ ((ascii d.name) ++ List.replicate 32 0).take 32

/-- The answer to a DESCRIBE of an object (R396, R405). -/
def State.describe (s : State) (index sub : Nat) : Nat × List Byte :=
  match objAt index sub with
  | none => (stBadValue, [])
  | some d =>
    if s.device.mode = .safe ∧ !safeReadable index sub then (stNotReady, []) else (stOk, s.description index sub d)

/-! ### OBJ_REQ (R361) -/

/-- The data cells of a value, lowest byte first, the last one padded with zeros (R361). -/
def valueCells (v : List Byte) : List Codeword :=
  (List.range ((v.length + 31) / 32)).map (fun i => encodeRow (BitVec.ofNat 256 (leNat ((v.drop (32 * i)).take 32))))

/-- What an OBJ_REQ asks: 0x01 reads the object and 0x02 writes it; rights and modes have been checked by the sender. -/
def State.objRequest (s : State) (index sub arg : Nat) (value : List Byte) : State × Nat × List Byte :=
  match objAt index sub with
  | none => (s, stBadValue, [])
  | some d =>
    if arg = 1 then
      (if d.access = 4 then (s, stAccessDenied, [])
       else
        let x := s.fetch index sub d
        (if d.access = 6 then x.1.cleared index sub d else x.1, stOk, x.2))
    else if arg = 2 then
      let v := if d.size = 0 then value else value.take (if d.ty = 11 then d.entries * d.size else d.size)
      if d.access = 1 ∨ d.access = 6 then (s, stAccessDenied, [])
      else if !s.valueOk index sub d.ty d v then (s, stBadValue, [])
      else
        let r := if d.access = 5 then ruleCommand 0xFFFF index sub (leNat v) v s
          else if d.access = 4 then s.stage index v
          else (s.putValue index sub d v, stOk)
        ((if d.access = 5 then r.1.setObj index sub 0 r.2 else r.1), r.2, [])
    else (s, stBadValue, [])

/-- OBJ_REQ: a compute-die object is read or written, and OBJ_RSP answers with the value or the status. -/
def execObjReq (m : Nat) (d : DtlMsg) (s : State) : Out :=
  .next (s.onDtl m true d fun s0 =>
    let r := s0.objRequest (fieldOf d.addr 16 16) (fieldOf d.addr 8 8) (fieldOf d.arg 0 8) (dtlBytes d (32 * d.cells.length))
    r.1.dtlOut m false { dtype := 0x0A, dtag := d.dtag, partition := d.partition, status := r.2.1, cells := valueCells r.2.2 })

end Sys2Proof.Machine
end

