-- ==== Sys2Proof/Machine/Bamurn.lean ====
section
/-! DEFINITION. The Bamurn protocol (16_object_dictionary.md R379-R397): message headers, items, the paths, sessions with their proofs, MACs and sequence numbers, the messages, relays and the timers of sessions. -/

namespace Sys2Proof.Machine

/-! ### Headers and responses (R384, R389) -/

/-- The header of a message as a word (R384). -/
def headOf (b : List Byte) : Nat := leNat (b.take 16)
def hVersion (h : Nat) : Nat := fieldOf h 0 8
def hType (h : Nat) : Nat := fieldOf h 8 8
def hTag (h : Nat) : Nat := fieldOf h 16 16
def hResponse (h : Nat) : Bool := bitOf h 32
def hMac (h : Nat) : Bool := bitOf h 33
def hRelay (h : Nat) : Bool := bitOf h 34
def hStop (h : Nat) : Bool := bitOf h 35
def hPortRelay (h : Nat) : Bool := bitOf h 39
def hStatus (h : Nat) : Nat := fieldOf h 40 8
def hBytes (h : Nat) : Nat := fieldOf h 48 16
def hCount (h : Nat) : Nat := fieldOf h 64 8
def hTarget (h : Nat) : Nat := fieldOf h 72 8
def hSession (h : Nat) : Nat := fieldOf h 80 16
def hSeq (h : Nat) : Nat := fieldOf h 96 32

/-- The MAC of a message: the first 16 bytes of HMAC-SHA-256 (R389). -/
def macOf (key b : List Byte) : List Byte := (hmacSha256 key b).take 16

/-- What a response holds beside what it copies: its type, session, status, items and body. -/
structure Reply where
  mtype   : Nat
  session : Nat
  status  : Nat := 0
  count   : Nat := 0
  body    : List Byte := []
  deriving DecidableEq, Repr

/-- The bytes of a response to a request header; `key` none where it carries no MAC (R384, R385, R389). -/
def Reply.bytes (r : Reply) (h : Nat) (key : Option (List Byte)) : List Byte :=
  let n := 16 + r.body.length + (if key.isSome then 16 else 0)
  let head := 1 + r.mtype * 2 ^ 8 + 2 ^ 16 * hTag h + 2 ^ 32 + (if key.isSome then 2 ^ 33 else 0) + 2 ^ 40 * r.status
    + 2 ^ 48 * n + 2 ^ 64 * r.count + 2 ^ 80 * r.session + 2 ^ 96 * hSeq h
  let m := leBytes 16 head ++ r.body
  m ++ (match key with
    | some k => macOf k m
    | none => [])

/-! ### Paths (R379, R381, R382) -/

/-- Send a MGMT unit at a port. -/
def State.sendMgmt (s : State) (k dst : Nat) (isLocal : Bool) (b : List Byte) : State :=
  s.sendUnit k { dst := dst, src := s.ownDevice, local' := isLocal, length := b.length, bytes := b }

/-- Send a message on the path its request came by: to the source address of a datagram, or as a MGMT unit to the source device, local over the same port where the request was (R379, R381). -/
def State.sendOn (s : State) (p : Path) (b : List Byte) : State :=
  match p with
  | .port src _ => (s.emit (.bytes (.port src) b)).count 0x0280 7 0 64
  | .mailbox => s.emit (.bytes p b)
  | .link k src isLocal =>
    if isLocal then s.sendMgmt k 0 true b
    else match s.routePort src with
      | some j => s.sendMgmt j src false b
      | none => s

/-- Count a frame of the management port (R406). -/
def State.heard (s : State) (p : Path) : State :=
  match p with
  | .port .. => s.count 0x0280 6 0 64
  | _ => s

/-- Does a path bring the message to the server: on the management port only in a frame that the port takes (R379, R380)? -/
def State.taken (s : State) (p : Path) (b : List Byte) : Bool :=
  match p with
  | .port _ f => s.takesFrame f b.length
  | _ => true

/-- Is a message that carries relay meant for this device (R382)? On the management port: its target is this device. Over Causeway it is this device it was relayed to: its target is the identifier, or it came on a local unit. -/
def State.isRecipient (s : State) (p : Path) (h : Nat) : Bool :=
  let own := s.obj 0x4000 0 != 0xFFFF && hTarget h == s.obj 0x4000 0
  match p with
  | .port .. => !hPortRelay h && own
  | .link _ _ isLocal => if hPortRelay h then isLocal else own
  | .mailbox => false

/-- Discard a message and count it in object 0200:05 (R382, R383, R389). -/
def State.discardMessage (s : State) : State := s.count 0x0200 5 0 32

/-! ### Sessions (R388-R391) -/

/-- The session a message names, the mailbox among them. -/
def State.sessionOf (s : State) (n : Nat) : Option Session :=
  if n = 0xFFFF then some s.bamurn.mailbox else s.bamurn.sessions.find? (fun x => x.number == n)

/-- Change a session. -/
def State.modSession (s : State) (n : Nat) (f : Session → Session) : State :=
  { s with bamurn := { s.bamurn with
      mailbox := if n = 0xFFFF then f s.bamurn.mailbox else s.bamurn.mailbox,
      sessions := s.bamurn.sessions.map (fun x => if x.number = n then f x else x) } }

/-- The key under which a session's responses carry a MAC: none in the mailbox (R383, R389). -/
def Session.macKey (x : Session) : Option (List Byte) := if x.number = 0xFFFF ∨ !x.authed then none else some x.key

/-- Keep a response among the 16 most recent (R390). -/
def Session.remember (x : Session) (seq : Nat) (b : List Byte) : Session :=
  { x with high := seq, cache := ((seq, b) :: x.cache).take 16 }

/-- The number of a new session: one the implementation picks among the free ones (R388; notes/assumptions). -/
def State.freeNumber (s : State) (draw : Nat) : Nat :=
  let free := fun (n : Nat) => decide (1 ≤ n) && decide (n ≤ 0xFFFE) && !s.bamurn.sessions.any (fun x => x.number == n)
  if free (Config.sessionNumber draw) then Config.sessionNumber draw
  else ((List.range 18).find? free).getD 1

/-- SESSION_OPEN: a session and its challenge, or BUSY or ACCESS_DENIED (R388). -/
def State.openSession (s : State) (p : Path) (h : Nat) (body : List Byte) : State × Reply :=
  let no := fun (st : Nat) => (s, ({ mtype := 2, session := 0, status := st } : Reply))
  let cred := leNat (body.take 1)
  if body.length ≠ 32 ∨ hCount h ≠ 0 ∨ hSession h ≠ 0 ∨ leNat ((body.drop 1).take 15) ≠ 0 then no stBadValue
  else if cred > 15 ∨ s.credState cred ≠ 1 then no stAccessDenied
  else if s.bamurn.sessions.length ≥ 16 then no stBusy
  else
    let a := s.draw
    let b := a.2.draw
    let x : Session := { number := s.freeNumber a.1, credential := cred, path := p, cnonce := BitVec.ofNat 128 (leNat (body.drop 16)), dnonce := Config.nonce b.1, idleLimit := s.obj 0x0200 1, opened := s.tide, heard := s.elapsed }
    ({ b.2 with bamurn := { b.2.bamurn with sessions := b.2.bamurn.sessions ++ [x] } },
     { mtype := 2, session := x.number, body := leBytes 32 (2 ^ 128 * (Config.nonce b.1).toNat + 2 ^ 64 * s.obj 0x4000 2) })

/-- The proof that opens a session (R388). -/
def State.proofOf (s : State) (x : Session) (key : List Byte) : List Byte :=
  hmacSha256 key (ascii "BMRN-AUTH" ++ leBytes 16 x.cnonce.toNat ++ leBytes 16 x.dnonce.toNat ++ leBytes 8 (s.obj 0x4000 2) ++ leBytes 2 x.number)

/-- The session key K (R388). -/
def sessionKey (x : Session) (key : List Byte) : List Byte :=
  hmacSha256 key (ascii "BMRN-SESS" ++ leBytes 16 x.cnonce.toNat ++ leBytes 16 x.dnonce.toNat)

/-- A wrong proof: counted; the eighth for a credential within 60 s locks it (R388). -/
def State.wrongProof (s : State) (cred : Nat) : State :=
  let now := s.obj 0x6010 1
  let wrong := (cred, now) :: s.bamurn.wrong.filter (fun w => decide (now < w.2 + 60))
  let s1 := s.count 0x0200 4 0 32
  if (wrong.filter (fun w => w.1 == cred)).length < 8 then { s1 with bamurn := { s1.bamurn with wrong := wrong } }
  else ({ s1 with bamurn := { s1.bamurn with wrong := wrong.filter (fun w => w.1 != cred), locked := (cred, s.elapsed + secTide * 60) :: s1.bamurn.locked } }.count 0x0200 7 0 32).measureConfig

/-- Free a session that is not authenticated (R388). -/
def State.freeSession (s : State) (n : Nat) : State :=
  { s with bamurn := { s.bamurn with sessions := s.bamurn.sessions.filter (fun x => x.number != n) } }

/-- SESSION_AUTH in a session not yet authenticated: the state and the response's bytes (R388, R553). -/
def State.authenticate (s : State) (x : Session) (h : Nat) (body : List Byte) : State × List Byte :=
  let no := fun (t : State) (st : Nat) => (t, Reply.bytes { mtype := 3, session := x.number, status := st } h none)
  match Tbl.get s.sec.creds none x.credential with
  | none => no (s.freeSession x.number) stAccessDenied
  | some c =>
    if body.length ≠ 32 ∨ hCount h ≠ 0 then no s stBadValue
    else if x.failed then no (s.freeSession x.number) stAccessDenied
    else if body ≠ s.proofOf x c.bytes then no ((s.freeSession x.number).wrongProof x.credential) stAccessDenied
    else
      let k := sessionKey x c.bytes
      let r := Reply.bytes { mtype := 3, session := x.number, body := leBytes 4 c.rights } h (some k)
      (s.modSession x.number (fun y => ({ y with authed := true, rights := c.rights, key := k, heard := s.elapsed }).remember (hSeq h) r), r)

/-! ### Items (R386, R392) -/

/-- A value padded with zero bytes to a multiple of 4. -/
def pad4 (v : List Byte) : List Byte := v ++ List.replicate ((4 - v.length % 4) % 4) 0

/-- The head of a value item (R386). -/
def itemHead (index sub flags ty status vlen : Nat) : Nat :=
  flags % 256 + sub % 256 * 2 ^ 8 + 2 ^ 16 * (index % 65536) + 2 ^ 32 * (ty % 256) + 2 ^ 40 * (status % 256) + 2 ^ 48 * (vlen % 65536)

/-- The index, subindex and peek bit of a read item or a head. -/
def iIndex (w : Nat) : Nat := fieldOf w 16 16
def iSub (w : Nat) : Nat := fieldOf w 8 8
def iPeek (w : Nat) : Bool := bitOf w 0

/-- The bytes of a value item. -/
def valueItem (w ty status : Nat) (value : List Byte) : List Byte :=
  leBytes 8 (itemHead (iIndex w) (iSub w) (w % 2) ty status value.length) ++ pad4 value

/-- The bytes of a value item without a value that states a size (R393). -/
def bareItem (w ty status vlen : Nat) : List Byte := leBytes 8 (itemHead (iIndex w) (iSub w) (w % 2) ty status vlen)

/-- The type code of the object an item names. -/
def tyAt (w : Nat) : Nat := ((objAt (iIndex w) (iSub w)).map (·.ty)).getD 0

/-- The type code of what a read of the object an item names gives: U8 for a CMD object (R396). -/
def readTy (w : Nat) : Nat := ((objAt (iIndex w) (iSub w)).map (fun d => if d.access = 5 then 2 else d.ty)).getD 0

/-- A read item in a session (R386, R393, R394). -/
def State.readItem (s : State) (sess : Nat) (it : Nat × List Byte) : State × Nat × List Byte :=
  let w := it.1
  if fieldOf w 1 7 ≠ 0 then (s, stBadValue, bareItem w 0 stBadValue 0)
  else
    let r := s.readValue sess (iIndex w) (iSub w) (iPeek w)
    if r.2.1 ≠ stOk then (s, r.2.1, bareItem w (readTy w) r.2.1 0)
    else if r.2.2.length > 1400 then (s, stBadValue, bareItem w (readTy w) stBadValue r.2.2.length)
    else (r.1, stOk, valueItem w (readTy w) stOk r.2.2)

/-- The size that a refused write item states: an object's too large for one message (R393). -/
def largeSize (w : Nat) : Nat :=
  match objAt (iIndex w) (iSub w) with
  | some d => if d.ty = 11 ∧ d.entries * d.size > 1400 then d.entries * d.size else 0
  | none => 0

/-- A value item written in a session (R386, R392). -/
def State.writeItem (s : State) (sess : Nat) (it : Nat × List Byte) : State × Nat × List Byte :=
  let w := it.1
  let vlen := fieldOf w 48 16
  let ty := fieldOf w 32 8
  if fieldOf w 1 7 ≠ 0 ∨ fieldOf w 40 8 ≠ 0 ∨ vlen > 1400 ∨ (it.2.drop vlen).any (fun b => b != 0) then (s, stBadValue, bareItem w ty stBadValue 0)
  else
    let r := s.writeValue sess (iIndex w) (iSub w) ty (it.2.take vlen)
    (r.1, r.2, bareItem w ty r.2 (if r.2 = stBadValue then largeSize w else 0))

/-- A read item described (R405). -/
def State.describeItem (s : State) (_sess : Nat) (it : Nat × List Byte) : State × Nat × List Byte :=
  let w := it.1
  if fieldOf w 1 7 ≠ 0 then (s, stBadValue, bareItem w 0 stBadValue 0)
  else
    let r := s.describe (iIndex w) (iSub w)
    (s, r.1, valueItem w 9 r.1 r.2)

/-- Execute items in order; with `stop`, those after the first whose status is not OK or RESTART_PENDING are answered REFUSED (R392). -/
def State.runItems (f : State → Nat × List Byte → State × Nat × List Byte) (stop : Bool) : Bool → State → List (Nat × List Byte) → State × List Byte
  | _, s, [] => (s, [])
  | halted, s, it :: rest =>
    if halted then
      let x := State.runItems f stop true s rest
      (x.1, bareItem it.1 (tyAt it.1) stRefused 0 ++ x.2)
    else
      let r := f s it
      let x := State.runItems f stop (stop && r.2.1 != stOk && r.2.1 != stRestartPending) r.1 rest
      (x.1, r.2.2 ++ x.2)

/-- The read items of a body: `n` of 4 bytes each. -/
def readItems : Nat → List Byte → Option (List (Nat × List Byte))
  | 0, [] => some []
  | 0, _ :: _ => none
  | n + 1, b => if b.length < 4 then none else (readItems n (b.drop 4)).map (fun r => (leNat (b.take 4), []) :: r)

/-- The value items of a body: `n` of them, each with its padded value. -/
def valueItems : Nat → List Byte → Option (List (Nat × List Byte))
  | 0, [] => some []
  | 0, _ :: _ => none
  | n + 1, b =>
    let w := leNat (b.take 8)
    let len := (fieldOf w 48 16 + 3) / 4 * 4
    if b.length < 8 + len then none else (valueItems n (b.drop (8 + len))).map (fun r => (w, (b.drop 8).take len) :: r)

/-- What a message does in a session, given its header and body: the state and its reply. -/
abbrev Handler := State → Nat → Nat → List Byte → State × Reply

/-- A message of items: BAD_VALUE and no items where the count disagrees with the body (R385); where `limit`, a response beyond 1,440 bytes is BAD_VALUE and nothing is done (R394). -/
def itemMessage (mtype : Nat) (limit : Bool) (items : Nat → List Byte → Option (List (Nat × List Byte)))
    (f : State → Nat → Nat × List Byte → State × Nat × List Byte) : Handler := fun s sess h body =>
  let bad : State × Reply := (s, { mtype := mtype, session := sess, status := stBadValue })
  match items (hCount h) body with
  | none => bad
  | some xs =>
    if xs.length > 64 then bad
    else
      let r := State.runItems (fun t it => f t sess it) (hStop h) false s xs
      if limit ∧ 16 + r.2.length + (if sess = 0 ∨ sess = 0xFFFF then 0 else 16) > 1440 then bad
      else (r.1, { mtype := mtype, session := sess, count := xs.length, body := r.2 })

/-- ECHO (R385). -/
def handleEcho : Handler := fun s sess h body =>
  (s, { mtype := 5, session := sess, status := if hCount h ≠ 0 ∨ !body.isEmpty then stBadValue else stOk })

/-- SESSION_CLOSE: the session ends with its answer; there is none to end outside a session (R387, R391). -/
def handleClose : Handler := fun s sess h body =>
  if hCount h ≠ 0 ∨ !body.isEmpty then (s, { mtype := 4, session := sess, status := stBadValue })
  else if sess = 0 ∨ sess = 0xFFFF then (s, { mtype := 4, session := sess, status := stAccessDenied })
  else (s.endSessions (fun x => x.number == sess), { mtype := 4, session := sess })

/-! ### Blocks (R386, R394, R395) -/

/-- The bytes of a block item. -/
def blockItem (w ty status vlen total offset : Nat) (data : List Byte) : List Byte :=
  leBytes 16 (itemHead (iIndex w) (iSub w) (fieldOf w 0 2) ty status vlen + 2 ^ 64 * (offset % 2 ^ 32) + 2 ^ 96 * (total % 2 ^ 32)) ++ pad4 data

/-- READ_BLOCK: bytes of an object's value, clipped to its size (R394); without peek it clears an RC object, all of it (R6). -/
def handleReadBlock : Handler := fun s sess h body =>
  let w := leNat (body.take 16)
  let offset := fieldOf w 64 32
  let one := fun (t : State) (st vlen total : Nat) (data : List Byte) =>
    (t, ({ mtype := 0x12, session := sess, count := 1, body := blockItem w (readTy w) st vlen total offset data } : Reply))
  if hCount h ≠ 1 ∨ body.length ≠ 16 then (s, { mtype := 0x12, session := sess, status := stBadValue })
  else if fieldOf w 2 6 ≠ 0 ∨ fieldOf w 40 8 ≠ 0 then one s stBadValue 0 0 []
  else if sess = 0 then one s stAccessDenied 0 0 []
  else match objAt (iIndex w) (iSub w) with
    | none => one s stBadValue 0 0 []
    | some d =>
      match s.readGuard sess (iIndex w) (iSub w) (iPeek w) with
      | some st => one s st 0 0 []
      | none =>
        let x := s.fetch (iIndex w) (iSub w) d
        let data := (x.2.drop offset).take (min (fieldOf w 48 16) 1392)
        one (if d.access = 6 ∧ !iPeek w then x.1.cleared (iIndex w) (iSub w) d else x.1) stOk data.length x.2.length data

/-- Does the range of a first block lie in the object (R395)? -/
def blockFits (d : ObjDesc) (offset total : Nat) : Bool :=
  decide (total ≤ 1048576)
    && (if d.ty = 11 then d.size != 0 && offset % d.size == 0 && total % d.size == 0 && decide (offset + total ≤ d.entries * d.size)
        else offset == 0 && (d.size == 0 || total == d.size))

/-- The whole value that a sequence writes: a TABLE's other entries keep their values (R395). -/
def State.spliced (s : State) (d : ObjDesc) (b : BlockSeq) : List Byte :=
  if d.ty = 11 then
    let old := packed d.size (s.objs b.index b.sub d.entries)
    old.take b.offset ++ b.data ++ old.drop (b.offset + b.total)
  else b.data

/-- A block of a sequence: its status (R395). -/
def State.addBlock (s : State) (sess w : Nat) (data : List Byte) : State × Nat :=
  let ending := fun (t : State) (st : Nat) => (t.modSession sess (fun x => { x with block := none }), st)
  match objAt (iIndex w) (iSub w), (s.sessionOf sess).bind (·.block) with
  | none, _ => ending s stBadValue
  | some d, open' =>
    let ty := fieldOf w 32 8
    let offset := fieldOf w 64 32
    let total := fieldOf w 96 32
    let seq : Option BlockSeq := match open' with
      | some b => if b.index = iIndex w ∧ b.sub = iSub w ∧ b.ty = ty ∧ b.total = total ∧ offset = b.offset + b.data.length then some { b with data := b.data ++ data } else none
      | none => if blockFits d offset total then some { index := iIndex w, sub := iSub w, ty := ty, offset := offset, total := total, data := data } else none
    match s.writeGuard sess (iIndex w) (iSub w), seq with
    | some st, _ => ending s st
    | none, none => ending s stBadValue
    | none, some b =>
      if b.data.length > total ∨ (bitOf w 1 ∧ b.data.length ≠ total) then ending s stBadValue
      else if !bitOf w 1 then (s.modSession sess (fun x => { x with block := some { b with heard := s.elapsed } }), stOk)
      else
        let r := s.writeValue sess (iIndex w) (iSub w) ty (s.spliced d b)
        ending r.1 r.2

/-- WRITE_BLOCK (R395). -/
def handleWriteBlock : Handler := fun s sess h body =>
  let w := leNat (body.take 16)
  let vlen := fieldOf w 48 16
  let one := fun (t : State) (st : Nat) =>
    (t, ({ mtype := 0x13, session := sess, count := 1, body := blockItem w (fieldOf w 32 8) st 0 (fieldOf w 96 32) (fieldOf w 64 32) [] } : Reply))
  if hCount h ≠ 1 ∨ body.length ≠ 16 + (vlen + 3) / 4 * 4 then (s, { mtype := 0x13, session := sess, status := stBadValue })
  else if fieldOf w 2 6 ≠ 0 ∨ fieldOf w 40 8 ≠ 0 ∨ vlen > 1392 ∨ (body.drop (16 + vlen)).any (fun b => b != 0) then one s stBadValue
  else if sess = 0 then one s stAccessDenied
  else
    let r := s.addBlock sess w ((body.drop 16).take vlen)
    one r.1 r.2

/-! ### Requests (R384, R385, R389, R390) -/

/-- Is a request well-formed (R384, R385): its length, its reserved bits, its type that of the message the command names? -/
def requestOk (mtype : Nat) (h : Nat) (b : List Byte) (p : Path) : Bool :=
  hBytes h == b.length && b.length % 4 == 0 && decide (b.length ≤ 1440) && fieldOf h 36 3 == 0 && hStatus h == 0
    && hType h == mtype && (if hRelay h then p != .mailbox else !hPortRelay h && hTarget h == 0)

/-- Answer a request in its session: the response goes out and, in a session, is kept for repeats (R390). -/
def State.answerRequest (s : State) (p : Path) (h : Nat) (x : Option Session) (r : Reply) : State :=
  match x with
  | none => s.sendOn p (r.bytes h none)
  | some x =>
    let b := r.bytes h x.macKey
    (s.modSession x.number (fun y => ({ y with heard := s.elapsed }).remember (hSeq h) b)).sendOn p b

/-- A request whose session, MAC and path are in order: executed, answered again, or discarded by its sequence number (R390). -/
def State.execute (s : State) (p : Path) (mtype : Nat) (f : Handler) (x : Option Session) (b : List Byte) (n : Nat) : State :=
  let h := headOf b
  let run := fun (t : State) =>
    let r := if requestOk mtype h b p then f t (hSession h) h ((b.drop 16).take (n - 16)) else (t, { mtype := hType h, session := hSession h, status := stBadValue })
    r.1.answerRequest p h x r.2
  match x with
  | none => run s
  | some y =>
    match y.cache.find? (fun c => c.1 == hSeq h) with
    | some c => s.sendOn p c.2
    | none => if y.high < hSeq h then run s else s.count 0x0200 6 0 32

/-- A message received on a path and not to be relayed: discarded, answered outside a session, or taken in its session (R381-R389). -/
def State.receive (s : State) (p : Path) (mtype : Nat) (f : Handler) (b : List Byte) : State :=
  let h := headOf b
  let s0 := s.heard p
  let sess := hSession h
  let unheard : Bool := match p with
    | .link _ _ false => s0.obj 0x4000 0 == 0xFFFF
    | _ => false
  if !s.taken p b then s
  else if b.length < 16 ∨ hVersion h ≠ 1 ∨ hResponse h ∨ unheard then s0
  else if hRelay h ∧ p ≠ .mailbox ∧ !s0.isRecipient p h then s0.discardMessage
  else if (sess = 0xFFFF ∧ p ≠ .mailbox) ∨ (sess ≠ 0xFFFF ∧ p = .mailbox) then s0.discardMessage
  else if sess = 0 ∨ sess = 0xFFFF then
    if hMac h then s0.discardMessage
    else s0.execute p mtype f (if sess = 0 then none else some s0.bamurn.mailbox) b b.length
  else match s0.session sess with
    | some x =>
      if b.length < 32 ∨ !hMac h ∨ macOf x.key (b.take (b.length - 16)) ≠ b.drop (b.length - 16) then s0.discardMessage
      else s0.execute p mtype f (some x) b (b.length - 16)
    | none => s0.discardMessage

/-! ### The messages (R385) -/

/-- SESSION_OPEN: a session and its challenge. -/
def execSessionOpen (p : Path) (b : List Byte) (s : State) : Out :=
  .next (s.receive p 1 (fun t _ h body => t.openSession p h body) b)

/-- SESSION_AUTH: without a MAC it completes the handshake of its session; one that is not well-formed is answered BAD_VALUE and leaves the handshake (R5); with a MAC there is no handshake to complete (R388, R389). -/
def execSessionAuth (p : Path) (b : List Byte) (s : State) : Out :=
  let h := headOf b
  let again : Handler := fun t sess _ _ => (t, { mtype := 3, session := sess, status := stBadValue })
  .next (if !s.taken p b then s else match s.bamurn.sessions.find? (fun x => x.number == hSession h && !x.authed) with
    | some x =>
      let s0 := s.heard p
      if hVersion h = 1 ∧ !hResponse h ∧ !hMac h ∧ p ≠ .mailbox ∧ (!hRelay h || s.isRecipient p h) then
        if requestOk 3 h b p then
          let r := s0.authenticate x h (b.drop 16)
          r.1.sendOn p r.2
        else s0.sendOn p (Reply.bytes { mtype := 3, session := hSession h, status := stBadValue } h none)
      else s0.discardMessage
    | none => s.receive p 3 again b)

/-- SESSION_CLOSE: the session ends. -/
def execSessionClose (p : Path) (b : List Byte) (s : State) : Out := .next (s.receive p 4 handleClose b)

/-- ECHO: answered. -/
def execEcho (p : Path) (b : List Byte) (s : State) : Out := .next (s.receive p 5 handleEcho b)

/-- READ: the values of its items. -/
def execBamRead (p : Path) (b : List Byte) (s : State) : Out :=
  .next (s.receive p 0x10 (itemMessage 0x10 true readItems (fun t sess it => t.readItem sess it)) b)

/-- WRITE: its value items are executed in order. -/
def execBamWrite (p : Path) (b : List Byte) (s : State) : Out :=
  .next (s.receive p 0x11 (itemMessage 0x11 false valueItems (fun t sess it => t.writeItem sess it)) b)

/-- READ_BLOCK: one block of an object's value. -/
def execReadBlock (p : Path) (b : List Byte) (s : State) : Out := .next (s.receive p 0x12 handleReadBlock b)

/-- WRITE_BLOCK: a block of a sequence; the last one writes. -/
def execWriteBlock (p : Path) (b : List Byte) (s : State) : Out := .next (s.receive p 0x13 handleWriteBlock b)

/-- DESCRIBE: the descriptions of its items. -/
def execDescribe (p : Path) (b : List Byte) (s : State) : Out :=
  .next (s.receive p 0x14 (itemMessage 0x14 true readItems (fun t sess it => t.describeItem sess it)) b)

/-! ### Relays (R382) -/

/-- Where the response of a relayed request comes from: 256 + k for the peer on port k, else the device. -/
def relayKey (h : Nat) : Nat := if hPortRelay h then 256 + hTarget h % 16 else hTarget h

/-- Forward a message of the management port; target bits [7:4] that are not zero in a port relay are answered BAD_VALUE. -/
def State.relayOut (s : State) (p : Path) (h : Nat) (b : List Byte) : State :=
  if hPortRelay h ∧ hTarget h ≥ 16 then s.sendOn p (Reply.bytes { mtype := hType h, session := hSession h, status := stBadValue } h none)
  else
    let s1 := { s with bamurn := { s.bamurn with relays := s.bamurn.relays ++ [(relayKey h, hTag h, p)] } }
    if hPortRelay h then (if s.portUp (hTarget h) then s1.sendMgmt (hTarget h) 0 true b else s)
    else match s.routePort (hTarget h) with
      | some j => s1.sendMgmt j (hTarget h) false b
      | none => s

/-- Return the response of a relayed request to the source of the request. -/
def State.relayBack (s : State) (origin : Nat) (b : List Byte) : State :=
  match s.bamurn.relays.find? (fun r => r.1 == origin && r.2.1 == hTag (headOf b)) with
  | none => s
  | some r => { s with bamurn := { s.bamurn with relays := s.bamurn.relays.erase r } }.sendOn r.2.2 b

/-- RELAY: a message of the management port is forwarded as a MGMT unit; its response is returned; one that comes over Causeway is not relayed again. -/
def execRelay (p : Path) (b : List Byte) (s : State) : Out :=
  let h := headOf b
  let s0 := s.heard p
  .next (if !s.taken p b then s else if b.length < 16 ∨ hVersion h ≠ 1 then s0
  else match p with
    | .port .. => if hRelay h ∧ !hResponse h ∧ !s0.isRecipient p h then s0.relayOut p h b else s0
    | .link k src isLocal =>
      if hResponse h then s0.relayBack (if isLocal then 256 + k else src) b
      else if hRelay h ∧ !s0.isRecipient p h then s0.discardMessage else s0
    | .mailbox => s0)

/-! ### Timers (R388, R391, R395) -/

/-- SESSION_IDLE_TIMEOUT: a session with no accepted request for its idle limit ends. -/
def execSessionIdleTimeout (sess : Nat) (s : State) : Out :=
  .next (s.endSessions (fun x => x.number == sess && x.authed && decide (x.heard + secTide * x.idleLimit ≤ s.elapsed)))

/-- SESSION_AUTH_TIMEOUT: a session not authenticated within 5 s is freed. -/
def execSessionAuthTimeout (sess : Nat) (s : State) : Out :=
  .next { s with bamurn := { s.bamurn with sessions := s.bamurn.sessions.filter (fun x => x.number != sess || x.authed || decide (s.elapsed < x.heard + secTide * 5)) } }

/-- CREDENTIAL_LOCK_EXPIRY: a lock ends after 60 s. -/
def execCredentialLockExpiry (cred : Nat) (s : State) : Out :=
  .next (if s.bamurn.locked.any (fun k => k.1 == cred && decide (k.2 ≤ s.elapsed)) then
    { s with bamurn := { s.bamurn with locked := s.bamurn.locked.filter (fun k => k.1 != cred) } }.measureConfig else s)

/-- BLOCK_SEQUENCE_TIMEOUT: a block sequence without a block for 10 s is discarded. -/
def execBlockSequenceTimeout (sess : Nat) (s : State) : Out :=
  .next (s.modSession sess (fun x => { x with block := x.block.filter (fun b => decide (s.elapsed < b.heard + secTide * 10)) }))

end Sys2Proof.Machine
end

