-- ==== Sys2Proof/Machine/Dispatch.lean ====
section
/-! DEFINITION. One arm for each command of spec/opcode_table.json: the command's meaning, or its rejection by name. -/

namespace Sys2Proof.Machine

/-- The effect of a command on everything but the queue. -/
def exec (i : Instr) (s : State) : Host.Outcome State Fault Refusal :=
  match i with
  | .testSessionEnter sess => Sys2Proof.Machine.execTestSessionEnter sess s
  | .testSessionLeave sess => Sys2Proof.Machine.execTestSessionLeave sess s
  | .objectWrite sess index sub ty value => Sys2Proof.Machine.execObjectWrite sess index sub ty value s
  | .coldStart inputMv => Sys2Proof.Machine.execColdStart inputMv s
  | .startCommandWarm sess => Sys2Proof.Machine.execStartCommandWarm sess s
  | .startCommandCold sess => Sys2Proof.Machine.execStartCommandCold sess s
  | .stageEnd r => Sys2Proof.Machine.execStageEnd r s
  | .stageTimeout unit => Sys2Proof.Machine.execStageTimeout unit s
  | .nextAttempt => Sys2Proof.Machine.execNextAttempt s
  | .topologyWaitExpiry => Sys2Proof.Machine.execTopologyWaitExpiry s
  | .trainDiscard sess => Sys2Proof.Machine.execTrainDiscard sess s
  | .memtestNext sess mode => Sys2Proof.Machine.execMemtestNext sess mode s
  | .inputSag mv => Sys2Proof.Machine.execInputSag mv s
  | .saveAndClose => Sys2Proof.Machine.execSaveAndClose s
  | .inputOvervoltage mv => Sys2Proof.Machine.execInputOvervoltage mv s
  | .busconvLost j => Sys2Proof.Machine.execBusconvLost j s
  | .phaseLost rail phase => Sys2Proof.Machine.execPhaseLost rail phase s
  | .planeShort rail => Sys2Proof.Machine.execPlaneShort rail s
  | .senseFallback rail => Sys2Proof.Machine.execSenseFallback rail s
  | .pathResistanceCheck rail localMv senseMv ma senseOpen => Sys2Proof.Machine.execPathResistanceCheck rail localMv senseMv ma senseOpen s
  | .crackChainCheck openFields => Sys2Proof.Machine.execCrackChainCheck openFields s
  | .sluiceStageDecision c ma => Sys2Proof.Machine.execSluiceStageDecision c ma s
  | .sluiceHoldReading c ma => Sys2Proof.Machine.execSluiceHoldReading c ma s
  | .holdBudgetExpiry c => Sys2Proof.Machine.execHoldBudgetExpiry c s
  | .clusterClockLock c => Sys2Proof.Machine.execClusterClockLock c s
  | .clusterGateRequest c => Sys2Proof.Machine.execClusterGateRequest c s
  | .gatingComplete c => Sys2Proof.Machine.execGatingComplete c s
  | .powerOffNLow => Sys2Proof.Machine.execPowerOffNLow s
  | .powerOffNRelease inputMv => Sys2Proof.Machine.execPowerOffNRelease inputMv s
  | .dimmFeedTrip ch => Sys2Proof.Machine.execDimmFeedTrip ch s
  | .controlTick avg1ms avg1s => Sys2Proof.Machine.execControlTick avg1ms avg1s s
  | .railGroupCurrentReading f ma => Sys2Proof.Machine.execRailGroupCurrentReading f ma s
  | .arrayRampUp n c => Sys2Proof.Machine.execArrayRampUp n c s
  | .arrayRampDown n c => Sys2Proof.Machine.execArrayRampDown n c s
  | .droopEvent c => Sys2Proof.Machine.execDroopEvent c s
  | .droopExit c => Sys2Proof.Machine.execDroopExit c s
  | .droopHoldExpiry c => Sys2Proof.Machine.execDroopHoldExpiry c s
  | .dieSensorReading c temp => Sys2Proof.Machine.execDieSensorReading c temp s
  | .hbmTempReading h temp => Sys2Proof.Machine.execHbmTempReading h temp s
  | .dimmTempReading ch temp => Sys2Proof.Machine.execDimmTempReading ch temp s
  | .coolantReading inlet outlet flow => Sys2Proof.Machine.execCoolantReading inlet outlet flow s
  | .coolantRestored => Sys2Proof.Machine.execCoolantRestored s
  | .weirHoldExpiry q => Sys2Proof.Machine.execWeirHoldExpiry q s
  | .slackNoticeSend q => Sys2Proof.Machine.execSlackNoticeSend q s
  | .slack m => Sys2Proof.Machine.execSlack m s
  | .peerSlackExpiry q sender => Sys2Proof.Machine.execPeerSlackExpiry q sender s
  | .frequencyChange c => Sys2Proof.Machine.execFrequencyChange c s
  | .clockFault c isPhase => Sys2Proof.Machine.execClockFault c isPhase s
  | .clockRelock c => Sys2Proof.Machine.execClockRelock c s
  | .referenceLoss units => Sys2Proof.Machine.execReferenceLoss units s
  | .tideSyncPulse counter master => Sys2Proof.Machine.execTideSyncPulse counter master s
  | .ptpSync port baseTide baseNs ratePpb => Sys2Proof.Machine.execPtpSync port baseTide baseNs ratePpb s
  | .deviceIdWrite sess v => Sys2Proof.Machine.execDeviceIdWrite sess v s
  | .portResetRetrain sess k => Sys2Proof.Machine.execPortResetRetrain sess k s
  | .portResetClear sess k => Sys2Proof.Machine.execPortResetClear sess k s
  | .portRetryTimer k => Sys2Proof.Machine.execPortRetryTimer k s
  | .trainingTimeout k => Sys2Proof.Machine.execTrainingTimeout k s
  | .codewordLockLoss k lane => Sys2Proof.Machine.execCodewordLockLoss k lane s
  | .helloSend k => Sys2Proof.Machine.execHelloSend k s
  | .hello k m => Sys2Proof.Machine.execHello k m s
  | .flitReceive k f codewordOk => Sys2Proof.Machine.execFlitReceive k f codewordOk s
  | .ackSend k => Sys2Proof.Machine.execAckSend k s
  | .laneSparingCheck k => Sys2Proof.Machine.execLaneSparingCheck k s
  | .laneSwap k m => Sys2Proof.Machine.execLaneSwap k m s
  | .laneAck k m => Sys2Proof.Machine.execLaneAck k m s
  | .laneSwitch k seq => Sys2Proof.Machine.execLaneSwitch k seq s
  | .cableInsert k => Sys2Proof.Machine.execCableInsert k s
  | .cableRemove k => Sys2Proof.Machine.execCableRemove k s
  | .topoSend => Sys2Proof.Machine.execTopoSend s
  | .topo k m => Sys2Proof.Machine.execTopo k m s
  | .tsyncSend k => Sys2Proof.Machine.execTsyncSend k s
  | .tsync k m => Sys2Proof.Machine.execTsync k m s
  | .tsyncReply k m t4 => Sys2Proof.Machine.execTsyncReply k m t4 s
  | .ingressRequest k hop p => Sys2Proof.Machine.execIngressRequest k hop p s
  | .ingressReply k hop p => Sys2Proof.Machine.execIngressReply k hop p s
  | .egressForkBranch k p => Sys2Proof.Machine.execEgressForkBranch k p s
  | .mgmtUnit k u slots => Sys2Proof.Machine.execMgmtUnit k u slots s
  | .ethLinkUp k => Sys2Proof.Machine.execEthLinkUp k s
  | .ethLinkDown k => Sys2Proof.Machine.execEthLinkDown k s
  | .ethFrameReceive k f => Sys2Proof.Machine.execEthFrameReceive k f s
  | .wait n q c => Sys2Proof.Machine.execWait n q c s
  | .signal n q c => Sys2Proof.Machine.execSignal n q c s
  | .signalApply n q c => Sys2Proof.Machine.execSignalApply n q c s
  | .queueEnd n q c => Sys2Proof.Machine.execQueueEnd n q c s
  | .nop n q c => Sys2Proof.Machine.execNop n q c s
  | .loadStationary n c => Sys2Proof.Machine.execLoadStationary n c s
  | .loadStationaryRowsStart n c hits => Sys2Proof.Machine.execLoadStationaryRowsStart n c hits s
  | .swap n c => Sys2Proof.Machine.execSwap n c s
  | .pass n c hits => Sys2Proof.Machine.execPass n c hits s
  | .foldLand n c => Sys2Proof.Machine.execFoldLand n c s
  | .setHandle n c => Sys2Proof.Machine.execSetHandle n c s
  | .setSentinel n c => Sys2Proof.Machine.execSetSentinel n c s
  | .vecConvert n c hits => Sys2Proof.Machine.execVecConvert n c hits s
  | .vecSpillFix n c hits => Sys2Proof.Machine.execVecSpillFix n c hits s
  | .vecRequant n c hits => Sys2Proof.Machine.execVecRequant n c hits s
  | .vecAdd n c hits => Sys2Proof.Machine.execVecAdd n c hits s
  | .vecMul n c hits => Sys2Proof.Machine.execVecMul n c hits s
  | .vecMax n c hits => Sys2Proof.Machine.execVecMax n c hits s
  | .vecMin n c hits => Sys2Proof.Machine.execVecMin n c hits s
  | .vecAct n c hits => Sys2Proof.Machine.execVecAct n c hits s
  | .vecReduce n c hits => Sys2Proof.Machine.execVecReduce n c hits s
  | .vecSoftmax n c hits => Sys2Proof.Machine.execVecSoftmax n c hits s
  | .vecNorm n c hits => Sys2Proof.Machine.execVecNorm n c hits s
  | .vecDequant n c hits => Sys2Proof.Machine.execVecDequant n c hits s
  | .vecTopk n c hits => Sys2Proof.Machine.execVecTopk n c hits s
  | .vecRandom n c hits => Sys2Proof.Machine.execVecRandom n c hits s
  | .vecWriteComplete n c => Sys2Proof.Machine.execVecWriteComplete n c s
  | .moveFill n c hits => Sys2Proof.Machine.execMoveFill n c hits s
  | .moveCopy n c hits => Sys2Proof.Machine.execMoveCopy n c hits s
  | .movePut n c hits => Sys2Proof.Machine.execMovePut n c hits s
  | .moveGet n c hits => Sys2Proof.Machine.execMoveGet n c hits s
  | .moveLoad n c hits => Sys2Proof.Machine.execMoveLoad n c hits s
  | .moveStore n c hits => Sys2Proof.Machine.execMoveStore n c hits s
  | .descriptorComplete n id c => Sys2Proof.Machine.execDescriptorComplete n id c s
  | .queueWatchdogFire n q => Sys2Proof.Machine.execQueueWatchdogFire n q s
  | .headFlitRoute pos leg p => Sys2Proof.Machine.execHeadFlitRoute pos leg p s
  | .flitParityError pos input => Sys2Proof.Machine.execFlitParityError pos input s
  | .forkSplit pos waits p => Sys2Proof.Machine.execForkSplit pos waits p s
  | .positionNonForwarding n => Sys2Proof.Machine.execPositionNonForwarding n s
  | .nonForwardingDrainEnd n => Sys2Proof.Machine.execNonForwardingDrainEnd n s
  | .readPacket n p hits => Sys2Proof.Machine.execReadPacket n p hits s
  | .writePacket n p hits => Sys2Proof.Machine.execWritePacket n p hits s
  | .signalPacket n p => Sys2Proof.Machine.execSignalPacket n p s
  | .pendingHoldRelease n => Sys2Proof.Machine.execPendingHoldRelease n s
  | .memRead p => Sys2Proof.Machine.execMemRead p s
  | .memWrite p => Sys2Proof.Machine.execMemWrite p s
  | .memoryReadComplete srv id => Sys2Proof.Machine.execMemoryReadComplete srv id s
  | .writeBufferFlush srv => Sys2Proof.Machine.execWriteBufferFlush srv s
  | .patrolRead srv => Sys2Proof.Machine.execPatrolRead srv s
  | .stackEccPoll h count => Sys2Proof.Machine.execStackEccPoll h count s
  | .holdBufferExpiry h => Sys2Proof.Machine.execHoldBufferExpiry h s
  | .dataPacket n p hits => Sys2Proof.Machine.execDataPacket n p hits s
  | .forkPacket n p hits => Sys2Proof.Machine.execForkPacket n p hits s
  | .ackPacket n p => Sys2Proof.Machine.execAckPacket n p s
  | .statusPacket n p => Sys2Proof.Machine.execStatusPacket n p s
  | .closureDrainExpiry d => Sys2Proof.Machine.execClosureDrainExpiry d s
  | .drainComplete q => Sys2Proof.Machine.execDrainComplete q s
  | .localDrainTimeout q => Sys2Proof.Machine.execLocalDrainTimeout q s
  | .remapComplete q readable => Sys2Proof.Machine.execRemapComplete q readable s
  | .gaugeSet sess n v => Sys2Proof.Machine.execGaugeSet sess n v s
  | .partitionApply sess q => Sys2Proof.Machine.execPartitionApply sess q s
  | .granuleFillComplete q => Sys2Proof.Machine.execGranuleFillComplete q s
  | .jobLoad sess q => Sys2Proof.Machine.execJobLoad sess q s
  | .jobEndAtBoundary sess q => Sys2Proof.Machine.execJobEndAtBoundary sess q s
  | .jobEndAtOnce sess q => Sys2Proof.Machine.execJobEndAtOnce sess q s
  | .jobPreempt sess q => Sys2Proof.Machine.execJobPreempt sess q s
  | .jobResume sess q => Sys2Proof.Machine.execJobResume sess q s
  | .jobScrubComplete q badRows => Sys2Proof.Machine.execJobScrubComplete q badRows s
  | .programFaultEnd q => Sys2Proof.Machine.execProgramFaultEnd q s
  | .entryPoll q => Sys2Proof.Machine.execEntryPoll q s
  | .pinWaitRelease q => Sys2Proof.Machine.execPinWaitRelease q s
  | .stepStartRelease q => Sys2Proof.Machine.execStepStartRelease q s
  | .watchNotice q w => Sys2Proof.Machine.execWatchNotice q w s
  | .cadenceTick q t => Sys2Proof.Machine.execCadenceTick q t s
  | .outsideDeclare sess q => Sys2Proof.Machine.execOutsideDeclare sess q s
  | .ready m => Sys2Proof.Machine.execReady m s
  | .start m => Sys2Proof.Machine.execStart m s
  | .barrierStartTime q => Sys2Proof.Machine.execBarrierStartTime q s
  | .expertApply sess => Sys2Proof.Machine.execExpertApply sess s
  | .tokenRequest q p => Sys2Proof.Machine.execTokenRequest q p s
  | .releaseRequest q p => Sys2Proof.Machine.execReleaseRequest q p s
  | .hintRequest q p => Sys2Proof.Machine.execHintRequest q p s
  | .stagingHoldRelease q => Sys2Proof.Machine.execStagingHoldRelease q s
  | .reserve m => Sys2Proof.Machine.execReserve m s
  | .grant m => Sys2Proof.Machine.execGrant m s
  | .reservationCancel m => Sys2Proof.Machine.execReservationCancel m s
  | .dstatus m => Sys2Proof.Machine.execDstatus m s
  | .noCreditRetry q resId => Sys2Proof.Machine.execNoCreditRetry q resId s
  | .multicastTimeout q token => Sys2Proof.Machine.execMulticastTimeout q token s
  | .copyArrive q resId rows => Sys2Proof.Machine.execCopyArrive q resId rows s
  | .copyReceiptConfirm q resId => Sys2Proof.Machine.execCopyReceiptConfirm q resId s
  | .ctxOpen sess v => Sys2Proof.Machine.execCtxOpen sess v s
  | .ctxClose sess v => Sys2Proof.Machine.execCtxClose sess v s
  | .ctxSetPosition sess v => Sys2Proof.Machine.execCtxSetPosition sess v s
  | .ctxSetPriority sess v => Sys2Proof.Machine.execCtxSetPriority sess v s
  | .ctxPin sess v => Sys2Proof.Machine.execCtxPin sess v s
  | .ctxUnpin sess v => Sys2Proof.Machine.execCtxUnpin sess v s
  | .ctxPromote sess v => Sys2Proof.Machine.execCtxPromote sess v s
  | .ctxDemote sess v => Sys2Proof.Machine.execCtxDemote sess v s
  | .ctxRead sess v => Sys2Proof.Machine.execCtxRead sess v s
  | .poolApply sess q => Sys2Proof.Machine.execPoolApply sess q s
  | .pageMoveComplete q id => Sys2Proof.Machine.execPageMoveComplete q id s
  | .pageReleaseComplete slot => Sys2Proof.Machine.execPageReleaseComplete slot s
  | .ucieRetrainTimeout m => Sys2Proof.Machine.execUcieRetrainTimeout m s
  | .dtlMemRead m d => Sys2Proof.Machine.execDtlMemRead m d s
  | .dtlMemWrite m d => Sys2Proof.Machine.execDtlMemWrite m d s
  | .memData m d => Sys2Proof.Machine.execMemData m d s
  | .memAck m d => Sys2Proof.Machine.execMemAck m d s
  | .hbmRead m d => Sys2Proof.Machine.execHbmRead m d s
  | .hbmWrite m d => Sys2Proof.Machine.execHbmWrite m d s
  | .hbmData m d => Sys2Proof.Machine.execHbmData m d s
  | .hbmAck m d => Sys2Proof.Machine.execHbmAck m d s
  | .objReq m d => Sys2Proof.Machine.execObjReq m d s
  | .objRsp m d => Sys2Proof.Machine.execObjRsp m d s
  | .eventLevee m d => Sys2Proof.Machine.execEventLevee m d s
  | .eventBoundary m d => Sys2Proof.Machine.execEventBoundary m d s
  | .eventJobState m d => Sys2Proof.Machine.execEventJobState m d s
  | .eventPortState m d => Sys2Proof.Machine.execEventPortState m d s
  | .dtlMgmt m up d => Sys2Proof.Machine.execDtlMgmt m up d s
  | .dtlEth m up d => Sys2Proof.Machine.execDtlEth m up d s
  | .credit m up d => Sys2Proof.Machine.execCredit m up d s
  | .recoverReq m d => Sys2Proof.Machine.execRecoverReq m d s
  | .closeGo m d => Sys2Proof.Machine.execCloseGo m d s
  | .quiesced m d => Sys2Proof.Machine.execQuiesced m d s
  | .restart m d => Sys2Proof.Machine.execRestart m d s
  | .remapped m d => Sys2Proof.Machine.execRemapped m d s
  | .svcApply sess svc => Sys2Proof.Machine.execSvcApply sess svc s
  | .svcStart sess svc => Sys2Proof.Machine.execSvcStart sess svc s
  | .svcStop sess svc => Sys2Proof.Machine.execSvcStop sess svc s
  | .reqOpenContext r => Sys2Proof.Machine.execReqOpenContext r s
  | .reqAppend r => Sys2Proof.Machine.execReqAppend r s
  | .reqGenerate r => Sys2Proof.Machine.execReqGenerate r s
  | .reqCancel r => Sys2Proof.Machine.execReqCancel r s
  | .reqCloseContext r => Sys2Proof.Machine.execReqCloseContext r s
  | .reqSubmitFrame r => Sys2Proof.Machine.execReqSubmitFrame r s
  | .reqStatus r => Sys2Proof.Machine.execReqStatus r s
  | .entrySeal svc => Sys2Proof.Machine.execEntrySeal svc s
  | .visionTickSeal svc tick => Sys2Proof.Machine.execVisionTickSeal svc tick s
  | .connectionLost conn => Sys2Proof.Machine.execConnectionLost conn s
  | .contextIdleTimeout slot => Sys2Proof.Machine.execContextIdleTimeout slot s
  | .recoveryResumeTimeout svc => Sys2Proof.Machine.execRecoveryResumeTimeout svc s
  | .sessionOpen path bytes => Sys2Proof.Machine.execSessionOpen path bytes s
  | .sessionAuth path bytes => Sys2Proof.Machine.execSessionAuth path bytes s
  | .sessionClose path bytes => Sys2Proof.Machine.execSessionClose path bytes s
  | .echo path bytes => Sys2Proof.Machine.execEcho path bytes s
  | .bamRead path bytes => Sys2Proof.Machine.execBamRead path bytes s
  | .bamWrite path bytes => Sys2Proof.Machine.execBamWrite path bytes s
  | .readBlock path bytes => Sys2Proof.Machine.execReadBlock path bytes s
  | .writeBlock path bytes => Sys2Proof.Machine.execWriteBlock path bytes s
  | .describe path bytes => Sys2Proof.Machine.execDescribe path bytes s
  | .relay path bytes => Sys2Proof.Machine.execRelay path bytes s
  | .sessionCloseCommand sess target => Sys2Proof.Machine.execSessionCloseCommand sess target s
  | .sessionIdleTimeout sess => Sys2Proof.Machine.execSessionIdleTimeout sess s
  | .sessionAuthTimeout sess => Sys2Proof.Machine.execSessionAuthTimeout sess s
  | .credentialLockExpiry cred => Sys2Proof.Machine.execCredentialLockExpiry cred s
  | .blockSequenceTimeout sess => Sys2Proof.Machine.execBlockSequenceTimeout sess s
  | .leveeReport r => Sys2Proof.Machine.execLeveeReport r s
  | .stormClear entry => Sys2Proof.Machine.execStormClear entry s
  | .leveeNotice entry => Sys2Proof.Machine.execLeveeNotice entry s
  | .leveeEntryFree entry => Sys2Proof.Machine.execLeveeEntryFree entry s
  | .poweredSecond => Sys2Proof.Machine.execPoweredSecond s
  | .watchdogCheck q stateOk => Sys2Proof.Machine.execWatchdogCheck q stateOk s
  | .abandon m => Sys2Proof.Machine.execAbandon m s
  | .drained m => Sys2Proof.Machine.execDrained m s
  | .drainedMissingTimeout q => Sys2Proof.Machine.execDrainedMissingTimeout q s
  | .jobHalt m => Sys2Proof.Machine.execJobHalt m s
  | .closing m => Sys2Proof.Machine.execClosing m s
  | .recovered m => Sys2Proof.Machine.execRecovered m s
  | .recoveryResetCommand sess => Sys2Proof.Machine.execRecoveryResetCommand sess s
  | .historyClear sess code => Sys2Proof.Machine.execHistoryClear sess code s
  | .packageApply sess flashOk => Sys2Proof.Machine.execPackageApply sess flashOk s
  | .scourChunkStart n => Sys2Proof.Machine.execScourChunkStart n s
  | .scourInsert q => Sys2Proof.Machine.execScourInsert q s
  | .scourChunkTimeout n => Sys2Proof.Machine.execScourChunkTimeout n s
  | .scourChunkComplete n crc rawBad restoreOk => Sys2Proof.Machine.execScourChunkComplete n crc rawBad restoreOk s
  | .twinCompare q => Sys2Proof.Machine.execTwinCompare q s
  | .twinLimitExpiry q => Sys2Proof.Machine.execTwinLimitExpiry q s
  | .ufrSelect sess v => Sys2Proof.Machine.execUfrSelect sess v s
  | .imageApply sess flashOk => Sys2Proof.Machine.execImageApply sess flashOk s
  | .svnCommit sess v => Sys2Proof.Machine.execSvnCommit sess v s
  | .credentialSet sess v => Sys2Proof.Machine.execCredentialSet sess v s
  | .attestRequest sess value => Sys2Proof.Machine.execAttestRequest sess value s
  | .attestSigned => Sys2Proof.Machine.execAttestSigned s
  | .tlsKeygen sess => Sys2Proof.Machine.execTlsKeygen sess s
  | .tlsChainWrite sess chain => Sys2Proof.Machine.execTlsChainWrite sess chain s
  | .debugRead sess v => Sys2Proof.Machine.execDebugRead sess v s
  | .debugRelease sess n => Sys2Proof.Machine.execDebugRelease sess n s
  | .debugHoldExpiry => Sys2Proof.Machine.execDebugHoldExpiry s
  | .unlockToken sess token => Sys2Proof.Machine.execUnlockToken sess token s
  | .memoryUnitNotAnswering srv => Sys2Proof.Machine.execMemoryUnitNotAnswering srv s
  | .prbsPhaseEnd k => Sys2Proof.Machine.execPrbsPhaseEnd k s
  | .codewordLock k lane => Sys2Proof.Machine.execCodewordLock k lane s
  | .egressPacket k hop p => Sys2Proof.Machine.execEgressPacket k hop p s
  | .ucieAdapterRetryFailure m => Sys2Proof.Machine.execUcieAdapterRetryFailure m s
  | .ucieRetrained m => Sys2Proof.Machine.execUcieRetrained m s

end Sys2Proof.Machine
end

