-- ==== Sys2Proof/Machine/Tick.lean ====
section
/-! DEFINITION. What the passing of time does by itself: the master tide count advances, and merges of remote reads whose time has come are answered (R94, R183, R457). -/

namespace Sys2Proof.Machine

/-- One unit of the master tide count, 0.25 ns (R457), and one unit elapsed (R459): the tiles' merges that are due are answered. Every other effect that time brings is a command (notes/assumptions/1.md). -/
def State.tick (s : State) : State :=
  let s1 := { s with tide := s.tide + 1, elapsed := s.elapsed + 1 }
  s1.each ((s.tiles.filter (fun e => !e.2.merges.isEmpty)).map (·.1)) (fun t n => t.closeMerges n)

end Sys2Proof.Machine
end

