-- ==== Sys2Proof/Safety.lean ====
section
/-! DEFINITION. What counts as a safe state and a safe run, and the words the statements use: the canonical form of the memories and of the registers, what a register reads as by its key, and which registers a command leaves as they were. -/

namespace Sys2Proof.Machine

/-! ### The canonical form -/

/-- The canonical form of the memories and the register file: HBM, DDR5 and the object entries, each with rising keys and no entry equal to what an unlisted key reads as. -/
def Memory.wf (s : State) : Bool :=
  Tbl.wf s.hbm (fun _ => 0) && Tbl.wf s.ddr blankBurst && Tbl.wf s.regs regDefault

/-! ### Registers by their keys -/

/-- What the object entry of a key reads as (R404). -/
def State.reg (s : State) (k : Nat) : Nat := Tbl.get s.regs (regDefault k) k

/-- Every register whose key is not listed reads in `t` as in `s`. -/
def State.sameRegs (s t : State) (ks : List Nat) : Prop := ∀ k, k ∉ ks → t.reg k = s.reg k

/-- The number under which `sameObjs` lists an object. -/
abbrev objNo (index sub : Nat) : Nat := index * 256 + sub

/-- Every register of the objects not listed reads in `t` as in `s`. -/
def State.sameObjs (s t : State) (os : List Nat) : Prop := ∀ k, k / 65536 ∉ os → t.reg k = s.reg k

/-! ### Commands that write a CMD object -/

/-- The session, the index and the subindex of a command that is a write to a CMD object (R6, R396). -/
def cmdObject : Instr → Option (Nat × Nat × Nat)
  | .testSessionEnter sess => some (sess, 0x0110, 1)
  | .testSessionLeave sess => some (sess, 0x0110, 1)
  | .startCommandWarm sess => some (sess, 0x7000, 1)
  | .startCommandCold sess => some (sess, 0x7000, 1)
  | .trainDiscard sess => some (sess, 0x7020, 1)
  | .memtestNext sess _ => some (sess, 0x7030, 2)
  | .portResetRetrain sess k => some (sess, (0x4010 + k), 4)
  | .portResetClear sess k => some (sess, (0x4010 + k), 4)
  | .gaugeSet sess n _ => some (sess, (tileIx n), 0x62)
  | .partitionApply sess q => some (sess, (0x5000 + q), 8)
  | .jobLoad sess q => some (sess, (0x5010 + q), 1)
  | .jobEndAtBoundary sess q => some (sess, (0x5010 + q), 2)
  | .jobEndAtOnce sess q => some (sess, (0x5010 + q), 2)
  | .jobPreempt sess q => some (sess, (0x5010 + q), 3)
  | .jobResume sess q => some (sess, (0x5010 + q), 4)
  | .outsideDeclare sess q => some (sess, (0x5040 + q), 4)
  | .expertApply sess => some (sess, 0x5200, 2)
  | .ctxOpen sess _ => some (sess, 0x3400, 2)
  | .ctxClose sess _ => some (sess, 0x3400, 2)
  | .ctxSetPosition sess _ => some (sess, 0x3400, 2)
  | .ctxSetPriority sess _ => some (sess, 0x3400, 2)
  | .ctxPin sess _ => some (sess, 0x3400, 2)
  | .ctxUnpin sess _ => some (sess, 0x3400, 2)
  | .ctxPromote sess _ => some (sess, 0x3400, 2)
  | .ctxDemote sess _ => some (sess, 0x3400, 2)
  | .ctxRead sess _ => some (sess, 0x3400, 2)
  | .poolApply sess q => some (sess, (0x3410 + q), 6)
  | .svcApply sess n => some (sess, (0x9100 + n), 0xF)
  | .svcStart sess n => some (sess, (0x9100 + n), 0xF)
  | .svcStop sess n => some (sess, (0x9100 + n), 0xF)
  | .sessionCloseCommand sess _ => some (sess, 0x0200, 3)
  | .recoveryResetCommand sess => some (sess, 0x6020, 0)
  | .historyClear sess _ => some (sess, 0x6010, 2)
  | .packageApply sess _ => some (sess, 0x6041, 3)
  | .ufrSelect sess _ => some (sess, 0x6060, 1)
  | .imageApply sess _ => some (sess, 0x7060, 3)
  | .svnCommit sess _ => some (sess, 0x8000, 2)
  | .credentialSet sess _ => some (sess, 0x8000, 4)
  | .attestRequest sess _ => some (sess, 0x8010, 2)
  | .tlsKeygen sess => some (sess, 0x8020, 0)
  | .debugRead sess _ => some (sess, 0x8030, 1)
  | .debugRelease sess _ => some (sess, 0x8030, 3)
  | _ => none

/-! ### Queues and scratchpads -/

/-- The command that a queue command of the table carries at the head of its queue: tile, queue, cycle, opcode (R122, R123). -/
def queueHead : Instr → Option (Nat × Nat × Nat × Nat)
  | .wait n q c => some (n, q, c, 0x01)
  | .signal n q c => some (n, q, c, 0x02)
  | .queueEnd n q c => some (n, q, c, 0x03)
  | .nop n q c => some (n, q, c, 0x04)
  | .loadStationary n c => some (n, 0, c, 0x10)
  | .swap n c => some (n, 0, c, 0x11)
  | .pass n c _ => some (n, 0, c, 0x12)
  | .vecConvert n c _ => some (n, 1, c, 0x20)
  | .vecSpillFix n c _ => some (n, 1, c, 0x20)
  | .vecRequant n c _ => some (n, 1, c, 0x20)
  | .vecAdd n c _ => some (n, 1, c, 0x20)
  | .vecMul n c _ => some (n, 1, c, 0x20)
  | .vecMax n c _ => some (n, 1, c, 0x20)
  | .vecMin n c _ => some (n, 1, c, 0x20)
  | .vecAct n c _ => some (n, 1, c, 0x20)
  | .vecReduce n c _ => some (n, 1, c, 0x20)
  | .vecSoftmax n c _ => some (n, 1, c, 0x20)
  | .vecNorm n c _ => some (n, 1, c, 0x20)
  | .vecDequant n c _ => some (n, 1, c, 0x20)
  | .vecTopk n c _ => some (n, 1, c, 0x20)
  | .vecRandom n c _ => some (n, 1, c, 0x20)
  | .moveFill n c _ => some (n, 2, c, 0x30)
  | .moveCopy n c _ => some (n, 2, c, 0x30)
  | .movePut n c _ => some (n, 2, c, 0x30)
  | .moveGet n c _ => some (n, 2, c, 0x30)
  | .moveLoad n c _ => some (n, 2, c, 0x30)
  | .moveStore n c _ => some (n, 2, c, 0x30)
  | .setHandle n c => some (n, 3, c, 0x40)
  | .setSentinel n c => some (n, 3, c, 0x41)
  | _ => none

/-- Word `w` stands at the head of a queue that may issue it in cycle `c`, outside a prologue (R120, R121, R124). -/
def State.headIs (s : State) (n q c w : Nat) : Prop :=
  s.mayIssue n q c = true ∧ (s.queue n q).prologue = false ∧ s.cmdWord n (s.qPc n q) = some w

/-- A queue has issued its head command: RUNNING at `pc`, free again at cycle `free`, no wait timed, one command more counted (R121, R124, R143, R145). -/
def State.issuedTo (s t : State) (n q pc free : Nat) : Prop :=
  t.qState n q = 2 ∧ t.qPc n q = pc ∧ (t.queue n q).free = free ∧ t.obj (tileIx n) 0x33 q = 0 ∧ t.obj (tileIx n) 0x34 q = 0
    ∧ t.obj (tileIx n) 0x35 q = min (s.obj (tileIx n) 0x35 q + 1) (2 ^ 64 - 1)

/-- The object entries of a queue: state, pc, status, wait start, wait target, issue count. -/
def queueKeys (n q : Nat) : List Nat := [0x30, 0x31, 0x32, 0x33, 0x34, 0x35].map (fun sub => okey (tileIx n) sub q)

/-- Nothing but registers and one tile differs. -/
def State.onlyTile (s t : State) (n : Nat) : Prop :=
  t = { s with regs := t.regs, tiles := t.tiles } ∧ ∀ m, m ≠ n → t.tile m = s.tile m

/-- Of one tile, nothing but what its queues hold differs; of all the rest, registers alone. -/
def State.onlyQueues (s t : State) (n : Nat) : Prop :=
  s.onlyTile t n ∧ t.tile n = { s.tile n with qs := (t.tile n).qs }

/-- The scratchpad key of buffer row `i` behind a handle entry (R87). -/
def spadKey (e i : Nat) : Nat := (hPlace e i).1 * 1024 + (hPlace e i).2

/-- Rows behind a handle entry decode clean and hold `ds` (R87, R103). -/
def State.holds' (s : State) (n e first : Nat) (ds : List Row) : Prop :=
  ∀ i, i < ds.length → decodeWord (Tbl.get (s.tile n).spad 0 (spadKey e (first + i))) = .clean (ds.getD i 0)

/-- A read of rows behind a handle under a right passes its checks and finds `ds` (R86, R89). -/
def State.reads (s : State) (n h right first : Nat) (ds : List Row) : Prop :=
  handleCheck (s.handle n h) right first ds.length = none ∧ s.holds' n (s.handle n h) first ds

/-- The bank, bank row and data of rows written behind a handle (R87). -/
def State.placed (s : State) (n h first : Nat) (ds : List Row) : List (Nat × Nat × Row) :=
  (ds.zipIdx).map (fun d => ((hPlace (s.handle n h) (first + d.2)).1, (hPlace (s.handle n h) (first + d.2)).2, d.1))

/-- Source a of a VEC: `count` elements from element `start` of the accumulator file, with no fold in flight (R60), or of rows behind its handle (R147). -/
def State.vecSource (s : State) (n : Nat) (v : VecWord) (start count : Nat) (xs : List F32) : Prop :=
  isWide v.fmtIn = true ∧ 0 < count ∧
  (if v.aAcc = true then
    (s.tile n).arr.folds = [] ∧ v.fmtIn = fmtFP32 ∧ v.aRow + (start + count - 1) / 128 < 1024 ∧
      xs = (List.range count).map (fun i => accGet (s.tile n).arr.acc (v.aRow + (start + i) / 128) ((start + i) % 128))
  else ∃ ds, ds.length = rowsFor v.fmtIn count ∧ s.reads n v.aHandle hrVecRead (v.aRow + start / perRow v.fmtIn) ds ∧ xs = wideElems v.fmtIn ds count)

/-- A VEC of function `func` with fields `v` may issue on Q-vector in cycle `c`: no earlier VEC has writes to make, and no bank was contested (R92, R124, R134, R136, R151). -/
def State.vecHead (s : State) (n c func : Nat) (v : VecWord) : Prop :=
  ∃ w, s.headIs n 1 c w ∧ opcodeOf w = 0x20 ∧ fieldOf w 112 8 = func ∧ v = vecWord w ∧ fieldOf w 0 3 = 0 ∧ 0 < v.count
    ∧ (v.rnd = true → func = 0x03) ∧ (s.tile n).vec = [] ∧ (s.tile n).grants = []

/-- A VEC has issued and will write `ws`: beside Q-vector, its busy and wait counters, the registers `ks` and the counter of free values, nothing else differs; the scratchpad has not changed yet (R149). -/
def State.vecIssued (s t : State) (n : Nat) (ws : List (Nat × Nat × Row)) (ks : List Nat) : Prop :=
  (∃ free, s.issuedTo t n 1 (s.qPc n 1 + 1) free) ∧ (∃ r, (t.tile n).vec = [r] ∧ r.writes = ws)
    ∧ t = { s with regs := t.regs, tiles := t.tiles, fresh := t.fresh } ∧ (∀ m, m ≠ n → t.tile m = s.tile m)
    ∧ t.tile n = { s.tile n with vec := (t.tile n).vec, qs := (t.tile n).qs }
    ∧ s.sameRegs t (queueKeys n 1 ++ okey (tileIx n) 0x40 0 :: okey (tileIx n) 0x42 0 :: ks)

/-- A MOVE stands at the head of Q-move in cycle `c`, its descriptor row reads clean as `d`, and fewer than 8 descriptors are in progress (R106, R137). -/
def State.moveHead (s : State) (n c : Nat) (d : Row) : Prop :=
  ∃ w, s.headIs n 2 c w ∧ opcodeOf w = 0x30 ∧ s.reads n (fieldOf w 114 6) hrMoveRead (fieldOf w 100 14) [d]
    ∧ (s.tile n).mov.descs.length < 8

/-- A packet whose header arrives intact, with no reserved bit set, at a tile before whose local port no packet is held (R5, R173, R205). -/
def State.enters (s : State) (n : Nat) (p : Packet) : Prop := p.head = [] ∧ p.reserved = 0 ∧ (s.tile n).gau.held = []

/-- A packet whose header arrives intact, with no reserved bit set (R5, R173). -/
def soundPacket (p : Packet) : Prop := p.head = [] ∧ p.reserved = 0

/-- A die-to-die message whose header arrives intact and whose fields and data cells are those of its type (R5, R359, R361). -/
def soundMsg (d : DtlMsg) : Prop := d.head = none ∧ dtlShape d = true

/-! ### Responses of the endpoint -/

/-- Nothing has happened but one final response of a status to a client, and its count (R371, R377). -/
def State.answered (s t : State) (c : Client) (reqId st : Nat) (more : CborMap) : Prop :=
  t.sent = .response c ([(0, .uint 0), (1, .uint reqId), (2, .uint st)] ++ more) :: s.sent
    ∧ t.obj 0x9000 7 = min (s.obj 0x9000 7 + 1) (2 ^ 64 - 1) ∧ t = { s with regs := t.regs, sent := t.sent } ∧ s.sameRegs t [okey 0x9000 7 0]

/-- No write waits in a buffer and no read in a merge of any memory server. -/
def State.quietMemory (s : State) : Prop := ∀ srv, (s.server srv).wbuf = [] ∧ (s.server srv).merges = []

/-- The step entry of a key stands in a job's ring: lane count, lane list and seal as written (R229). -/
def State.entryWritten (s : State) (q key lanes list : Nat) (j : Job) : Prop :=
  ∀ i, i < 8 → Tbl.get s.hbm 0 (s.winRow q (j.hdr.ringOffset + key % 2 ^ j.hdr.ringLog2 * 256) + i)
    = encodeRow (BitVec.ofNat 256 ((2 ^ 1984 * (2 ^ 64 - 1 - key % 2 ^ 64) + 2 ^ 128 * lanes + 2 ^ 64 * list + key) / 2 ^ (256 * i)))

/-! ### Bamurn messages -/

/-- The path on which the answer to a message goes out: to the source address of a datagram (R379). -/
def backPath : Path → Path
  | .port src _ => .port src
  | p => p

/-- A well-formed request of a type, in a frame that the management port takes, not relayed, with its header (R379, R380, R384, R385). -/
def State.portRequest (s : State) (p : Path) (mtype : Nat) (b : List Byte) (h : Nat) : Prop :=
  (∃ src f, p = .port src f) ∧ s.taken p b = true ∧ 16 ≤ b.length ∧ h = headOf b ∧ hVersion h = 1 ∧ hResponse h = false ∧ hRelay h = false ∧ requestOk mtype h b p = true

/-- A request on the management port outside any session (R387). -/
def State.sessionless (s : State) (p : Path) (mtype : Nat) (b : List Byte) (h : Nat) : Prop := s.portRequest p mtype b h ∧ hSession h = 0 ∧ hMac h = false

/-- A request on the management port whose session is open and whose MAC is right (R389). -/
def State.authentic (s : State) (p : Path) (mtype : Nat) (b : List Byte) (h : Nat) (x : Session) : Prop :=
  s.portRequest p mtype b h ∧ hSession h ≠ 0 ∧ hSession h ≠ 0xFFFF ∧ s.session (hSession h) = some x ∧ hMac h = true ∧ 32 ≤ b.length
    ∧ macOf x.key (b.take (b.length - 16)) = b.drop (b.length - 16)

/-- Such a request whose sequence number is new (R390). -/
def State.inSession (s : State) (p : Path) (mtype : Nat) (b : List Byte) (h : Nat) (x : Session) : Prop :=
  s.authentic p mtype b h x ∧ x.cache.find? (fun c => c.1 == hSeq h) = none ∧ x.high < hSeq h

/-- The body of a request with a MAC (R384, R389). -/
def macBody (b : List Byte) : List Byte := (b.drop 16).take (b.length - 32)

/-! ### Outcomes -/

/-- A step is safe if it answers a next state. -/
def State.safeStep (s : State) : Bool :=
  match step s with
  | .next _ => true
  | _ => false

end Sys2Proof.Machine
end

