-- ==== Sys2Proof/Certificates/Slice0/Obligations.lean ====
section
/-! DEFINITION. The statements about the model: each `def Obligations.<Name> : Prop` is listed in OBLIGATIONS.json with the rules of spec/ it rests on. A statement about a command says that `exec` answers a next state and what it holds; `t = { s with f := t.f, ... }` says that no other field changes, and `sameRegs`/`sameObjs` that no other register does. -/

open Sys2Proof Sys2Proof.Machine

/-- For every command c and state s, a step of s with c put at the front of its queue is exec of c on s, whose queue is then the rest. With no command waiting, a step only lets the master tide count advance by one unit and answers the merges that are due (the model's choice, notes/assumptions/1.md): the tide count is one more, and no register but those a merge's answer counts, no job, no port and no memory word changes. (95_what_each_step_holds.md) -/
def Obligations.StepRunsFrontCommand : Prop :=
  (∀ (c : Instr) (s : State), step (s.withCommand c) = exec c s) ∧
  (∀ (c : Instr) (rest : List Instr) (s : State), s.pending = c :: rest → step s = exec c { s with pending := rest }) ∧
  (∀ s : State, s.pending = [] → ∃ t, step s = .next t ∧ t.tide = s.tide + 1 ∧ t.elapsed = s.elapsed + 1 ∧
    t = { s with tide := t.tide, elapsed := t.elapsed, regs := t.regs, sent := t.sent, tiles := t.tiles })

/-- After reset no command waits and nothing has been sent; the rails are off and the mode is STARTUP (R8); HBM, DDR5 and the register file list nothing, so that every object reads its table's default; no partition holds a job (JOB_STATE NONE), every context is FREE, no session is open, the tide count and the units elapsed are 0. What no table states (the fuse values and the contents of memory) is the model's choice: notes/assumptions/2.md and 5.md. State.reset has HBM, DDR5 and the register file in canonical form: keys strictly rising, no entry equal to what an unlisted key reads as. (R8, R19, R226, R268, 20_bring_up.md, 13_memory_tiers.md, 16_object_dictionary.md) -/
def Obligations.ResetIsUnpoweredAndCanonical : Prop :=
  State.reset.pending = [] ∧
  State.reset.sent = [] ∧
  State.reset.power.closed = true ∧
  State.reset.device.mode = .startup ∧
  State.reset.hbm = [] ∧
  State.reset.ddr = [] ∧
  State.reset.tide = 0 ∧ State.reset.elapsed = 0 ∧
  State.reset.bamurn.sessions = [] ∧
  (∀ k, State.reset.reg k = regDefault k) ∧
  (∀ q, State.reset.job q = none) ∧
  (∀ q, q < 12 → State.reset.jobState q = 0) ∧
  (∀ c, (State.reset.ctx c).st = .free) ∧
  Memory.wf State.reset = true

/-- For every state whose HBM, DDR5 and register file are in canonical form, whatever command stands at the front of its queue, the state that a step answers has them in canonical form. (13_memory_tiers.md, 16_object_dictionary.md) -/
def Obligations.StepKeepsMemoryCanonical : Prop :=
  ∀ s t : State, Memory.wf s = true → step s = .next t → Memory.wf t = true

/-- For every command c and state s, where exec answers a next state its queue is that of s (commands that wait keep their order, no command queues another), everything sent before stays sent (what s has sent ends the list that the next state has sent), and the counter that free values are applied to never falls. (95_what_each_step_holds.md, 20_bring_up.md) -/
def Obligations.CommandsLeaveTheQueue : Prop :=
  ∀ (c : Instr) (s t : State), exec c s = .next t →
    t.pending = s.pending ∧ (∃ new, t.sent = new ++ s.sent) ∧ s.fresh ≤ t.fresh

/-- For every command that is a write to a CMD object, and every state in which a check of R396 before the value (the object exists, the session's rights, the access code, the device mode) refuses it with a status: exec answers a next state in which that status has been answered to the writing session and is the object's last status, no other register has changed and no other field of the state has. A session without the WRITE right (and DEBUG, UPDATE or SECURITY where the object asks for it) is refused with ACCESS_DENIED before the mode is looked at. (R6, R396, R397, R387) -/
def Obligations.RefusedWriteHasNoEffect : Prop :=
  (∀ (c : Instr) (s : State) (sess i j st : Nat), cmdObject c = some (sess, i, j) → (objAt i j).isSome → s.writeGuard sess i j = some st →
    ∃ t, exec c s = .next t ∧ t.sent = .answer sess i j st :: s.sent ∧ t.reg (okey i j 0) = st ∧
      s.sameRegs t [okey i j 0] ∧ t = { s with regs := t.regs, sent := t.sent }) ∧
  (∀ (c : Instr) (s : State) (sess i j : Nat), cmdObject c = some (sess, i, j) → (objAt i j).isSome → s.holds sess rWrite = false →
    ∃ t, exec c s = .next t ∧ t.sent = .answer sess i j stAccessDenied :: s.sent)

/-- Where the checks of R396 pass a write to object 0110:01: ENTER answers OK and makes the mode TEST with the writer as test session in SERVICE with every partition's job NONE; BUSY in SERVICE with a job, or in TEST for another session than the test session; OK without effect for the test session; NOT_READY in STARTUP, RECOVERY and SAFE. LEAVE in TEST answers OK and returns to SERVICE for the test session or a session with SECURITY, ACCESS_DENIED without effect for another; OK without effect in any other mode. The status is answered and is the object's last status; no other register, and nothing but the mode and the test session, changes. Where the checks of R396 pass a write to object 7000:01: in SERVICE and TEST, and in SAFE once an image has been installed, it answers OK and a start begins: STARTUP mode, start_kind 2 (warm) or 1 (cold), stage 0, the tide count kept by a warm start and 0 after a cold one, every session ended, HBM and DDR5 contents lost, no partition holding a job, the fuses' holes and the record flash's records kept. In STARTUP and RECOVERY it answers RESTART_PENDING and is latched, whatever was latched before, and nothing else changes; in SAFE without an installed image it answers REFUSED without effect. (R8, R9, R11, R399, R10, R467, R468, R322, R391) -/
def Obligations.TestSessionsAndStartCommands : Prop :=
  (∀ (s : State) (sess : Nat), s.writeGuard sess 0x0110 1 = none →
    (∃ t, exec (.testSessionEnter sess) s = .next t ∧
      t = { s with regs := t.regs, sent := t.sent, device := t.device } ∧ s.sameRegs t [okey 0x0110 1 0] ∧
      t.sent = .answer sess 0x0110 1 (t.reg (okey 0x0110 1 0)) :: s.sent ∧
      (s.device.mode = .service → (∀ q, q < 12 → s.jobState q = 0) →
        t.reg (okey 0x0110 1 0) = stOk ∧ t.device = { s.device with mode := .test, holder := sess }) ∧
      (s.device.mode = .service → (∃ q, q < 12 ∧ s.jobState q ≠ 0) → t.reg (okey 0x0110 1 0) = stBusy ∧ t.device = s.device) ∧
      (s.device.mode = .test → t.device = s.device ∧ t.reg (okey 0x0110 1 0) = if s.device.holder = sess then stOk else stBusy) ∧
      (s.device.mode ∈ [.startup, .recovery, .safe] → t.device = s.device ∧ t.reg (okey 0x0110 1 0) = stNotReady)) ∧
    (∃ t, exec (.testSessionLeave sess) s = .next t ∧
      t = { s with regs := t.regs, sent := t.sent, device := t.device } ∧ s.sameRegs t [okey 0x0110 1 0] ∧
      t.sent = .answer sess 0x0110 1 (t.reg (okey 0x0110 1 0)) :: s.sent ∧
      (s.device.mode = .test → (s.device.holder = sess ∨ s.holds sess rSecurity = true) →
        t.reg (okey 0x0110 1 0) = stOk ∧ t.device = { s.device with mode := .service, holder := 0 }) ∧
      (s.device.mode = .test → s.device.holder ≠ sess → s.holds sess rSecurity = false →
        t.reg (okey 0x0110 1 0) = stAccessDenied ∧ t.device = s.device) ∧
      (s.device.mode ≠ .test → t.reg (okey 0x0110 1 0) = stOk ∧ t.device = s.device))) ∧
  (∀ (s : State) (sess : Nat) (c : Instr) (kind : Nat) (r : ModeRequest),
    (c = .startCommandWarm sess ∧ kind = 2 ∧ r = .warmStart sess) ∨ (c = .startCommandCold sess ∧ kind = 1 ∧ r = .coldStart sess) →
    s.writeGuard sess 0x7000 1 = none →
    (s.device.mode = .service ∨ s.device.mode = .test ∨ (s.device.mode = .safe ∧ s.sec.installed = true) →
      ∃ t, exec c s = .next t ∧ t.device.mode = .startup ∧ t.device.latched = none ∧ t.boot.active = true ∧
        t.obj 0x7000 0 = kind ∧ t.obj 0x7000 3 = 0 ∧ t.obj 0x7000 1 = stOk ∧ t.sent.head? = some (.answer sess 0x7000 1 stOk) ∧
        t.tide = (if kind = 1 then 0 else s.tide) ∧ t.bamurn.sessions = [] ∧ t.hbm = [] ∧ t.ddr = [] ∧ (∀ q, t.job q = none) ∧
        t.floor = s.floor ∧ t.bamurn.flash.current = s.bamurn.flash.current ∧ t.pending = s.pending) ∧
    (s.device.mode = .startup ∨ s.device.mode = .recovery →
      ∃ t, exec c s = .next t ∧ t = { s with regs := t.regs, sent := .answer sess 0x7000 1 stRestartPending :: s.sent, device := { s.device with latched := some r } } ∧
        s.sameRegs t [okey 0x7000 1 0] ∧ t.obj 0x7000 1 = stRestartPending) ∧
    (s.device.mode = .safe ∧ s.sec.installed = false →
      ∃ t, exec c s = .next t ∧ t = { s with regs := t.regs, sent := .answer sess 0x7000 1 stRefused :: s.sent } ∧
        s.sameRegs t [okey 0x7000 1 0] ∧ t.obj 0x7000 1 = stRefused))

/-- While a start runs, STAGE_END in S0 (no rail down, nothing found failed) keeps the stage's duration in ms and begins S1 with its beginning; in S9 with a required port missing it changes nothing, and TOPOLOGY_WAIT_EXPIRY after topo_wait_ms (0.5 s in a recovery start) ends S9, whose mismatching ports are only recorded under topo_policy 0, and begins S10; in S11 with H0 and H1 in use, a UCIe module up and an offered tile, no mode change latched, STAGE_END declares READY: SERVICE mode, stage 0xFF, failed_starts and adjust_pending cleared. With no start in progress STAGE_END and TOPOLOGY_WAIT_EXPIRY change nothing. STAGE_TIMEOUT beyond twice the limit of a stage other than S9 ends the start: with a record flash that takes the record, failed_starts rises by one (to 3 at most) and a boot record with result 1, reason TIMEOUT and the unit stands first in object 7010:00, the older ones after it. Below three failures the mode is STARTUP, the adjustment bits of the failed stage are added and the next attempt waits; at three it is SAFE and ALERT_N is driven low. NEXT_ATTEMPT, 1 s after the failure, begins a start of the kind planned, or of the kind of a start_command latched meanwhile (STARTUP, stage 0); with none planned it changes nothing. STAGE_TIMEOUT without a start in progress, in S9 or within twice the stage's limit changes nothing. (R469, R470, R482, R483, R485, R487, R9, R488) -/
def Obligations.StagesEndFailAndStartAgain : Prop :=
  (∀ (s : State) (r : StageReport), s.boot.active = true → s.obj 0x7000 3 = 0 → r.failed = none →
    (∀ i ∈ [0x10A0, 0x10A5, 0x10A6], s.obj i 0 ≠ 2 ∧ popCount (railPhases (i - 0x10A0) - s.obj i 1) 6 < 2) →
    ∃ t, exec (.stageEnd r) s = .next t ∧ t.obj 0x7000 3 = 1 ∧ t.obj 0x7000 4 = s.tide ∧ t.obj 0x7010 1 0 = (s.elapsed - s.boot.stageAt) / msTide ∧
      t = { s with regs := t.regs, boot := { s.boot with stageAt := s.elapsed } } ∧
      s.sameRegs t [okey 0x7000 3 0, okey 0x7000 4 0, okey 0x7010 1 0]) ∧
  (∀ (s : State) (r : StageReport), s.boot.active = true → s.obj 0x7000 3 = 9 → s.topologyMet = false → exec (.stageEnd r) s = .next s) ∧
  (∀ s : State, s.boot.active = true → s.obj 0x7000 3 = 9 → s.boot.topoHold = false → s.stagePast (s.stageLimit 9 false) = true →
    ∃ t, exec .topologyWaitExpiry s = .next t ∧ t.obj 0x7000 3 = 10 ∧ t.obj 0x7000 4 = s.tide ∧
      (∀ k, k < 16 → (bitOf (t.obj 0x7040 3) k = true ↔
        (if s.portUp k then s.peerMatches k (s.boot.expected.getD k 0) = false else expects (s.boot.expected.getD k 0) = true))) ∧
      t.ports = s.ports ∧ s.sameRegs t [okey 0x7000 3 0, okey 0x7000 4 0, okey 0x7010 1 9, okey 0x7040 3 0]) ∧
  (∀ (s : State) (r : StageReport), s.boot.active = true → s.obj 0x7000 3 = 11 → s.mayReady = true → s.device.latched = none →
    ∃ t, exec (.stageEnd r) s = .next t ∧ t.device.mode = .service ∧ t.obj 0x7000 3 = 0xFF ∧ t.obj 0x7000 2 = 0 ∧ t.obj 0x7000 6 = 0 ∧
      t.boot.active = false ∧ t.jobs = s.jobs ∧ t.hbm = s.hbm ∧ t.ddr = s.ddr) ∧
  (∀ (s : State) (r : StageReport), s.boot.active = false → exec (.stageEnd r) s = .next s ∧ exec .topologyWaitExpiry s = .next s) ∧
  (∀ (s : State) (unit : Nat) (full : Bool), s.boot.active = true → s.obj 0x7000 3 ≠ 9 → s.stagePast (2 * s.stageLimit (s.obj 0x7000 3) full) = true → s.bamurn.flash.ok = true → s.boot.testDdr < 16 → s.boot.testHbm < 16 →
    ∃ t, exec (.stageTimeout ⟨unit, full⟩) s = .next t ∧ t.boot.active = false ∧ t.obj 0x7000 2 = min 3 (s.obj 0x7000 2 + 1) ∧
      fieldOf (t.obj 0x7010 0 0) 104 8 = 1 ∧ fieldOf (t.obj 0x7010 0 0) 136 8 = stTimeout ∧
      fieldOf (t.obj 0x7010 0 0) 144 16 = unit % 65536 ∧
      (∀ e, e < 15 → t.obj 0x7010 0 (e + 1) = s.obj 0x7010 0 e) ∧
      (s.obj 0x7000 2 ≥ 2 → t.device.mode = .safe ∧ t.sent = .pin .alertN false :: s.sent) ∧
      (s.obj 0x7000 2 < 2 → t.device.mode = .startup ∧ t.boot.waiting.isSome = true ∧
        t.obj 0x7000 6 = s.obj 0x7000 6 ||| adjustOf (s.obj 0x7000 3)) ∧
      t = { s with regs := t.regs, sent := t.sent, device := t.device, boot := t.boot, sec := t.sec }) ∧
  (∀ (s : State) (kind : Nat), s.boot.waiting = some kind → s.power.closed = false → s.boot.failedAt + secTide ≤ s.elapsed →
    ∃ t, exec .nextAttempt s = .next t ∧ t.device.mode = .startup ∧ t.boot.active = true ∧ t.boot.waiting = none ∧
      t.obj 0x7000 0 = (match s.device.latched with | some (.warmStart _) => 2 | some (.coldStart _) => 1 | _ => kind) ∧ t.obj 0x7000 3 = 0 ∧ t.obj 0x7000 7 = min (s.obj 0x7000 7 + 1) (2 ^ 32 - 1)) ∧
  (∀ (s : State), s.boot.waiting = none → exec .nextAttempt s = .next s) ∧
  (∀ (s : State) (unit : Nat) (full : Bool), s.boot.active = false ∨ s.obj 0x7000 3 = 9 ∨ s.stagePast (2 * s.stageLimit (s.obj 0x7000 3) full) = false → exec (.stageTimeout ⟨unit, full⟩) s = .next s)

/-- Where the checks of R396 pass: TRAIN_DISCARD answers OK and leaves no saved training entry; MEMTEST_NEXT with mode 0, 1 or 2 answers OK and holds the mode for the next cold or warm start, with a greater value it answers BAD_VALUE and holds what it held. Nothing else of the start's data, no other register and no other field changes. (R475, R481, R490) -/
def Obligations.TrainingAndMemoryTestCommands : Prop :=
  (∀ (s : State) (sess : Nat), s.writeGuard sess 0x7020 1 = none →
    ∃ t, exec (.trainDiscard sess) s = .next t ∧ t.obj 0x7020 1 = stOk ∧ s.sameRegs t [okey 0x7020 1 0] ∧
      t = { s with regs := t.regs, sent := .answer sess 0x7020 1 stOk :: s.sent, boot := { s.boot with saved := [] } }) ∧
  (∀ (s : State) (sess mode : Nat), s.writeGuard sess 0x7030 2 = none → mode ≤ 2 →
    ∃ t, exec (.memtestNext sess mode) s = .next t ∧ t.obj 0x7030 2 = stOk ∧ s.sameRegs t [okey 0x7030 2 0] ∧
      t = { s with regs := t.regs, sent := .answer sess 0x7030 2 stOk :: s.sent, boot := { s.boot with memNext := some mode } }) ∧
  (∀ (s : State) (sess mode : Nat), s.writeGuard sess 0x7030 2 = none → 2 < mode →
    ∃ t, exec (.memtestNext sess mode) s = .next t ∧ t.obj 0x7030 2 = stBadValue ∧ s.sameRegs t [okey 0x7030 2 0] ∧
      t = { s with regs := t.regs, sent := .answer sess 0x7030 2 stBadValue :: s.sent })

/-- On a powered module INPUT_SAG keeps the sample, counts in object 1000:02 a sample below 40 V that begins a sag, which a sample of 40 V or more ends; SAVE_AND_CLOSE acts only more than 1 ms into a sag; INPUT_OVERVOLTAGE acts above 60 V; POWER_OFF_N_LOW always. The close turns the rails off, cuts a start off, keeps its cause and time, counts the input's closes in object 1000:03 and POWER_OFF_N's in 0280:09, leaves every logic plane that is not DARK gated, drives ALERT_N low for its duration and PGOOD low at its end, and keeps the jobs, the contexts and the waiting commands as they stand. BUSCONV_LOST of a working converter marks it for good: the first is only reported under POWER, the second also holds the cap, the third closes the module; a converter already lost changes nothing. COLD_START begins a cold start exactly where the rails are off, POWER_OFF_N is not low, heat did not close the module and the input is at 42 V or above; POWER_OFF_N_RELEASE ends the low level and, under the same conditions, begins one: STARTUP mode, start_kind COLD, stage S0, tide count 0, rails on, the input voltage kept, starts_total counted, the holes and the record flash's records kept, no memory contents. In every other case COLD_START changes nothing and the release only the level of the pin. (R408, R409, R565, R566, R9, R441, R467) -/
def Obligations.SupplyClosesAndColdStarts : Prop :=
  (∀ (s : State) (mv : Nat), s.power.closed = false →
    ∃ t, exec (.inputSag mv) s = .next t ∧ t.obj 0x1000 0 = mv ∧ t.power = { s.power with sag := if mv < 40000 then some (s.power.sag.getD s.elapsed) else none } ∧
      t.obj 0x1000 2 = (if mv < 40000 ∧ s.power.sag = none then min (s.obj 0x1000 2 + 1) (2 ^ 32 - 1) else s.obj 0x1000 2) ∧
      s.sameRegs t [okey 0x1000 0 0, okey 0x1000 2 0] ∧ t = { s with regs := t.regs, power := t.power }) ∧
  (∀ (s : State) (c : Instr) (cause : Nat), s.power.closed = false →
    (c = .saveAndClose ∧ (∃ since, s.power.sag = some since ∧ since + msTide < s.elapsed) ∧ cause = 1) ∨ (∃ mv, c = .inputOvervoltage mv ∧ 60000 < mv ∧ cause = 1) ∨ (c = .powerOffNLow ∧ cause = 2) →
    ∃ t, exec c s = .next t ∧ t.power.closed = true ∧ t.power.cause = cause ∧ t.power.lossAt = some s.tide ∧ t.boot.active = false ∧
      t.sent.take 2 = [.pin .alertN true, .pin .pgood false] ∧ .pin .alertN false ∈ t.sent ∧
      (∀ k, k < 90 → t.plane k = if s.plane k = 4 then 4 else 0) ∧
      t.obj 0x1000 3 = (if cause = 1 ∨ s.power.sag ≠ none then min (s.obj 0x1000 3 + 1) (2 ^ 32 - 1) else s.obj 0x1000 3) ∧
      t.obj 0x0280 9 = (if cause = 2 then min (s.obj 0x0280 9 + 1) (2 ^ 32 - 1) else s.obj 0x0280 9) ∧
      t.jobs = s.jobs ∧ t.ctxs = s.ctxs ∧ t.pending = s.pending ∧ t.tide = s.tide) ∧
  (∀ (s : State), (∀ since, s.power.sag = some since → s.elapsed ≤ since + msTide) → exec .saveAndClose s = .next s) ∧
  (∀ (s : State) (mv : Nat), s.power.closed = false → mv ≤ 60000 →
    ∃ t, exec (.inputOvervoltage mv) s = .next t ∧ t.obj 0x1000 0 = mv ∧ s.sameRegs t [okey 0x1000 0 0] ∧ t = { s with regs := t.regs }) ∧
  (∀ (s : State) (i : Nat), i < 4 → s.obj 0x1000 4 i = 0 →
    ∃ t, exec (.busconvLost i) s = .next t ∧ t.obj 0x1000 4 i = 1 ∧
      ((s.objs 0x1000 4 4).sum = 0 → s.sameRegs t [okey 0x1000 4 i] ∧ t = { s with regs := t.regs, sent := t.sent } ∧
        ∃ r, t.sent = .report r :: s.sent ∧ r.cls = clPower ∧ r.suspect = susModule ∧ r.detail = i) ∧
      ((s.objs 0x1000 4 4).sum = 1 → t.power = { s.power with capHold := true }) ∧
      ((s.objs 0x1000 4 4).sum = 2 → t.power.closed = true)) ∧
  (∀ (s : State) (i : Nat), s.obj 0x1000 4 i = 1 → exec (.busconvLost i) s = .next s) ∧
  (∀ (s : State) (c : Instr) (mv : Nat), s.power.closed = true → s.power.cause ≠ 3 → 42000 ≤ mv →
    (c = .coldStart mv ∧ s.power.pinLow = false) ∨ c = .powerOffNRelease mv →
    ∃ t, exec c s = .next t ∧ t.power.closed = false ∧ t.power.pinLow = false ∧ t.device.mode = .startup ∧ t.boot.active = true ∧ t.tide = 0 ∧
      t.obj 0x7000 0 = 1 ∧ t.obj 0x7000 3 = 0 ∧ t.obj 0x7000 7 = min (s.obj 0x7000 7 + 1) (2 ^ 32 - 1) ∧ t.obj 0x1000 0 = mv ∧
      t.floor = s.floor ∧ t.bamurn.flash.current = s.bamurn.flash.current ∧ t.hbm = [] ∧ t.ddr = [] ∧ t.jobs = [] ∧ t.ctxs = [] ∧
      t.sent = .pin .alertN true :: .pin .pgood true :: .pin .presentN false :: s.sent) ∧
  (∀ (s : State) (mv : Nat), s.power.closed = false ∨ s.power.cause = 3 ∨ s.power.pinLow = true ∨ mv < 42000 → exec (.coldStart mv) s = .next s) ∧
  (∀ (s : State) (mv : Nat), s.power.closed = false ∨ s.power.cause = 3 ∨ mv < 42000 →
    exec (.powerOffNRelease mv) s = .next { s with power := { s.power with pinLow := false } })

/-- PHASE_LOST of a phase that the VL plane of a cluster still has clears the phase's bit of object 1040+c:01, leaves every other phase, and reports the cluster under POWER with the phase as detail; while a phase remains the plane keeps its state, with none left it is DARK and its clock stopped. A phase already lost, or one the rail has not, changes nothing. PLANE_SHORT of a plane that is not DARK leaves it DARK with no phase. On VA and VF of a field the second phase lost sets the state of the rail to derated (1). SENSE_FALLBACK of a VL plane at remote sense sets object 1040+c:0A and reports it once under POWER; at local sense it changes nothing. PATH_RESISTANCE_CHECK of a plane at remote sense, the sense closed and the current at or above the floor (10 A, 3 A for a reserve plane), keeps the two voltages and the current and computes Z = (local - sensed) / current in µΩ in object 1040+c:08; below the floor it keeps the measurement and computes nothing; at local sense it changes nothing. CRACK_CHAIN_CHECK sets object 1020+f:04 of every field to what was measured and changes no other register. DIMM_FEED_TRIP of a channel whose DIMM answered, no request of which waits, leaves the channel not answering (state 4). (R417, R420, R421, R422, R425, R414, R415, R429, R491, R320) -/
def Obligations.PhaseLossAndFeedChecks : Prop :=
  (∀ (s : State) (c phase : Nat), c < 90 → phase < phaseCount (.vl c) → s.obj (0x1040 + c) 1 ≤ (if c < 72 then 7 else 3) → bitOf (s.obj (0x1040 + c) 1) phase = true → s.plane c ≠ 4 →
    ∃ t, exec (.phaseLost (.vl c) phase) s = .next t ∧
      (∃ r, .report r ∈ t.sent ∧ r.cls = clPower ∧ r.suspect = susCluster c ∧ r.detail = phase) ∧
      (s.obj (0x1040 + c) 1 ≠ 2 ^ phase → t.obj (0x1040 + c) 1 = s.obj (0x1040 + c) 1 - 2 ^ phase ∧ t.plane c = s.plane c) ∧
      (s.obj (0x1040 + c) 1 = 2 ^ phase → t.obj (0x1040 + c) 1 = 0 ∧ t.plane c = 4)) ∧
  (∀ (s : State) (rail : Rail) (phase : Nat), phaseCount rail ≤ phase ∨ bitOf (s.phasesLost rail) phase = true → exec (.phaseLost rail phase) s = .next s) ∧
  (∀ (s : State) (c : Nat), c < 90 → s.plane c ≠ 4 → ∃ t, exec (.planeShort (.vl c)) s = .next t ∧ t.plane c = 4 ∧ t.obj (0x1040 + c) 1 = 0 ∧
      (∃ r, .report r ∈ t.sent ∧ r.cls = clPower ∧ r.suspect = susCluster c)) ∧
  (∀ (s : State) (f phase : Nat), f < 6 → phase < 4 → bitOf (s.phasesLost (.va f)) phase = false → popCount (s.phasesLost (.va f)) 6 = 1 →
    ∃ t, exec (.phaseLost (.va f) phase) s = .next t ∧ t.obj (0x1020 + f) 2 = 1 ∧ t.jobs = s.jobs ∧ t.tiles = s.tiles) ∧
  (∀ (s : State) (f phase : Nat), f < 6 → phase < 3 → bitOf (s.phasesLost (.vf f)) phase = false → popCount (s.phasesLost (.vf f)) 6 = 1 →
    ∃ t, exec (.phaseLost (.vf f) phase) s = .next t ∧ t.obj (0x1020 + f) 3 = 1 ∧ t.jobs = s.jobs ∧ t.tiles = s.tiles) ∧
  (∀ (s : State) (c : Nat), s.obj (0x1040 + c) 0xA ≠ 1 →
    ∃ t, exec (.senseFallback (.vl c)) s = .next t ∧ t.obj (0x1040 + c) 0xA = 1 ∧ s.sameRegs t [okey (0x1040 + c) 0xA 0, okey (0x1040 + c) 0xD 0] ∧
      t = { s with regs := t.regs, sent := t.sent } ∧ (∃ r, t.sent = .report r :: s.sent ∧ r.cls = clPower ∧ r.suspect = susCluster c ∧ r.detail = 1)) ∧
  (∀ (s : State) (c : Nat), s.obj (0x1040 + c) 0xA = 1 → exec (.senseFallback (.vl c)) s = .next s) ∧
  (∀ (s : State) (c a b ma : Nat), s.obj (0x1040 + c) 0xA ≠ 1 → (if c < 72 then 10000 else 3000) ≤ ma →
      4 * (1000000 * (a - b) / ma) ≤ 5 * s.obj (0x1040 + c) 9 →
    ∃ t, exec (.pathResistanceCheck (.vl c) a b ma false) s = .next t ∧
      t.obj (0x1040 + c) 8 = 1000000 * (a - b) / ma ∧ t.obj (0x1040 + c) 4 = a ∧ t.obj (0x1040 + c) 3 = b ∧ t.obj (0x1040 + c) 5 = ma ∧
      s.sameRegs t [okey (0x1040 + c) 8 0, okey (0x1040 + c) 3 0, okey (0x1040 + c) 4 0, okey (0x1040 + c) 5 0] ∧ t = { s with regs := t.regs, power := t.power }) ∧
  (∀ (s : State) (c a b ma : Nat), s.obj (0x1040 + c) 0xA ≠ 1 → ma < (if c < 72 then 10000 else 3000) →
    ∃ t, exec (.pathResistanceCheck (.vl c) a b ma false) s = .next t ∧ t.obj (0x1040 + c) 4 = a ∧ t.obj (0x1040 + c) 3 = b ∧ t.obj (0x1040 + c) 5 = ma ∧
      s.sameRegs t [okey (0x1040 + c) 3 0, okey (0x1040 + c) 4 0, okey (0x1040 + c) 5 0] ∧ t = { s with regs := t.regs }) ∧
  (∀ (s : State) (l : List Nat), ∃ t, exec (.crackChainCheck l) s = .next t ∧
      (∀ f, f < 6 → t.obj (0x1020 + f) 4 = if f ∈ l then 1 else 0) ∧
      s.sameRegs t ((List.range 6).map (fun f => okey (0x1020 + f) 4 0)) ∧ t = { s with regs := t.regs, sent := t.sent }) ∧
  (∀ (s : State) (ch : Nat), ch < 16 → s.obj (0x3110 + ch) 0 = 1 → Tbl.get s.channels {} ch = {} →
    ∃ t, exec (.dimmFeedTrip ch) s = .next t ∧ t.obj (0x3110 + ch) 0 = 4 ∧ t.hbm = s.hbm ∧ t.ddr = s.ddr ∧ t.jobs = s.jobs)

/-- SLUICE_STAGE_DECISION, at its decision time, for the cluster whose wake is in progress with a stage left, not in a hold and its budget unspent, keeps the reading G in object 1020+f:01 and: at or below 98 % of the group limit closes one stage, counting object 1010:03 where G is above 90 %; above 98 % it closes none and begins a hold, counted in 1010:02. With the budget spent it closes a stage without a check. SLUICE_HOLD_READING in a hold, 100 ns after the last reading and before the budget of 50 µs ran out, decides in the same way, a hold that goes on is not counted again; outside a hold it changes nothing. HOLD_BUDGET_EXPIRY in a hold, with the budget spent, closes the stage, ends the hold, makes every later stage close without a check and counts 1010:04; otherwise it changes nothing. Before their time, or without a wake in progress, none of the three changes anything. CLUSTER_GATE_REQUEST starts the gating of an ON plane whose tiles all meet R416 (GATING, the generator stopped, ACTIVE tiles IDLE), leaves an ON plane that does not, is latched while the plane wakes, replaces a latched wake while it gates, and changes nothing at a GATED or DARK plane. GATING_COMPLETE makes a GATING plane GATED, or WAKING where a wake was latched, keeps scratchpads, accumulators, gauges and handles of its tiles and loses the live and shadow registers (free values); in any other state it changes nothing. CLUSTER_CLOCK_LOCK an interval after the last stage of the wake makes the plane ON and counts the wake in object 1040+c:0C; before it, or without a wake in progress, it changes nothing. No command of these touches a job or a memory. (R417, R418, R419, R411, R416) -/
def Obligations.PlanesGateAndWakeBySluice : Prop :=
  (∀ (s : State) (c ma : Nat) (w : Wake) (i : Instr), s.wakeOf c = some w → w.due ≤ s.elapsed →
    (i = .sluiceStageDecision c ma ∧ w.stages < 8 ∧ w.holding = false ∧ w.expired = false) ∨ (i = .sluiceHoldReading c ma ∧ w.holding = true ∧ w.spent s.elapsed = false) →
    ∃ t, exec i s = .next t ∧ t.obj (0x1020 + clusterField c) 1 = ma ∧
      t.wakeOf c = some (if ma > s.obj (0x1020 + clusterField c) 0 * 980 then w.hold s.elapsed else w.closeStage s.elapsed (if ma > s.obj (0x1020 + clusterField c) 0 * 900 then 2 else 1)) ∧
      t.obj 0x1010 2 = (if ma > s.obj (0x1020 + clusterField c) 0 * 980 ∧ w.holding = false then min (s.obj 0x1010 2 + 1) (2 ^ 32 - 1) else s.obj 0x1010 2) ∧
      t.obj 0x1010 3 = (if s.obj (0x1020 + clusterField c) 0 * 900 < ma ∧ ma ≤ s.obj (0x1020 + clusterField c) 0 * 980 then min (s.obj 0x1010 3 + 1) (2 ^ 32 - 1) else s.obj 0x1010 3) ∧
      t = { s with regs := t.regs, wakes := t.wakes }) ∧
  (∀ (s : State) (c ma : Nat) (w : Wake), s.wakeOf c = some w → w.stages < 8 → w.holding = false → w.expired = true → w.due ≤ s.elapsed →
    ∃ t, exec (.sluiceStageDecision c ma) s = .next t ∧ t.wakeOf c = some (w.closeExpired s.elapsed) ∧ t = { s with regs := t.regs, wakes := t.wakes }) ∧
  (∀ (s : State) (c ma : Nat) (w : Wake), s.wakeOf c = some w → s.elapsed < w.due →
    exec (.sluiceStageDecision c ma) s = .next s ∧ exec (.sluiceHoldReading c ma) s = .next s ∧ exec (.clusterClockLock c) s = .next s) ∧
  (∀ (s : State) (c ma : Nat) (w : Wake), s.wakeOf c = some w → w.holding = false → exec (.sluiceHoldReading c ma) s = .next s ∧ exec (.holdBudgetExpiry c) s = .next s) ∧
  (∀ (s : State) (c : Nat) (w : Wake), s.wakeOf c = some w → w.spent s.elapsed = false → exec (.holdBudgetExpiry c) s = .next s) ∧
  (∀ (s : State) (c : Nat) (w : Wake), s.wakeOf c = some w → w.holding = true → w.spent s.elapsed = true →
    ∃ t, exec (.holdBudgetExpiry c) s = .next t ∧ t.wakeOf c = some (w.closeExpired s.elapsed) ∧
      t.obj 0x1010 4 = min (s.obj 0x1010 4 + 1) (2 ^ 32 - 1) ∧ t = { s with regs := t.regs, wakes := t.wakes }) ∧
  (∀ (s : State) (c ma : Nat), s.wakeOf c = none →
    exec (.sluiceStageDecision c ma) s = .next s ∧ exec (.sluiceHoldReading c ma) s = .next s ∧ exec (.holdBudgetExpiry c) s = .next s) ∧
  (∀ (s : State) (c : Nat), c < 90 → s.plane c = 2 → s.gateable c = true →
    ∃ t, exec (.clusterGateRequest c) s = .next t ∧ t.plane c = 3 ∧ (s.obj (0x1450 + c) 0 ≠ 4 → t.obj (0x1450 + c) 0 = 0 ∧ t.obj (0x1450 + c) 1 = 0) ∧
      (∀ n ∈ tilesOfCluster c, t.tileState n = if s.tileState n = 4 then 3 else s.tileState n) ∧ t = { s with regs := t.regs }) ∧
  (∀ (s : State) (c : Nat), s.plane c = 2 → s.gateable c = false → exec (.clusterGateRequest c) s = .next s) ∧
  (∀ (s : State) (c : Nat), s.plane c = 1 → ∃ t, exec (.clusterGateRequest c) s = .next t ∧ t.planeWaits c = some false ∧ t = { s with planeLatch := t.planeLatch }) ∧
  (∀ (s : State) (c : Nat), s.plane c = 3 → ∃ t, exec (.clusterGateRequest c) s = .next t ∧ t.planeWaits c = none ∧ t = { s with planeLatch := t.planeLatch }) ∧
  (∀ (s : State) (c : Nat), s.plane c = 0 ∨ s.plane c = 4 → exec (.clusterGateRequest c) s = .next s) ∧
  (∀ (s : State) (c : Nat), c < 90 → s.plane c = 3 → s.planeWaits c = none →
    ∃ t, exec (.gatingComplete c) s = .next t ∧ t.plane c = 0 ∧ s.sameRegs t [okey (0x1040 + c) 0 0] ∧ t = { s with regs := t.regs, tiles := t.tiles, fresh := t.fresh } ∧
      (∀ n, (t.tile n).spad = (s.tile n).spad ∧ (t.tile n).arr.acc = (s.tile n).arr.acc ∧ (t.tile n).gau = (s.tile n).gau ∧ (t.tile n).store = (s.tile n).store) ∧
      (∀ n, n ∉ tilesOfCluster c → t.tile n = s.tile n)) ∧
  (∀ (s : State) (c : Nat), c < 90 → s.plane c = 3 → s.planeWaits c = some true → ∃ t, exec (.gatingComplete c) s = .next t ∧ t.plane c = 1 ∧ t.planeWaits c = none) ∧
  (∀ (s : State) (c : Nat), s.plane c ≠ 3 → exec (.gatingComplete c) s = .next s) ∧
  (∀ (s : State) (c : Nat) (w : Wake), c < 90 → s.wakeOf c = some w → 8 ≤ w.stages → w.due ≤ s.elapsed → s.planeWaits c = none → (s.wakeGroup (clusterField c)).queue = [] →
    ∃ t, exec (.clusterClockLock c) s = .next t ∧ t.plane c = 2 ∧ t.obj (0x1040 + c) 0xC = min (s.obj (0x1040 + c) 0xC + 1) (2 ^ 32 - 1) ∧ t.wakeOf c = none ∧
      t = { s with regs := t.regs, wakes := t.wakes }) ∧
  (∀ (s : State) (c : Nat), s.wakeOf c = none ∨ (∃ w, s.wakeOf c = some w ∧ w.stages < 8) → exec (.clusterClockLock c) s = .next s)

/-- CONTROL_TICK with the averages a (1 ms) and b (1 s) keeps them in 1101:02 and :03 and the effective caps in :07 and :08. Let n be the ticks since the last change and h the highest step applied to an ON cluster (step_floor with none). With a above the fast cap and n at least 10 (1 ms), or b above the slow cap and n at least 500 (50 ms): above step_floor the ceiling becomes one step below the lower of ceiling and h, not below step_floor; at step_floor the ceiling becomes step_floor and the weir duty falls by one while it is above 1 and a job is STEPPING or WAITING; else both stay and cap_status is CAP_UNREACHABLE. Otherwise, with a at or below 97 % of both caps and n at least 100: the duty rises by one below 16, else the ceiling rises towards step_max. Otherwise neither changes. The tick changes nothing but registers, messages and the controller's own state. RAIL_GROUP_CURRENT_READING keeps G in 1020+f:01; the fourth reading in a row above the limit holds every cluster of the group to an issue duty of at most 12, the 200th in a row at or below 90 % releases that duty, a reading above 95 % while it holds, 200 readings after the last change, lowers the group's ceiling one step. DROOP_EVENT of an ON cluster at full frequency halves its output, counts 1310+c:06, and as the eighth within 1 ms outside a hold lowers its ceiling one step and starts the hold; in any other state it changes nothing. DROOP_EXIT ends a step-down (full frequency of the applied step), otherwise it changes nothing. DROOP_HOLD_EXPIRY, 100 ms after a hold's start, ends it and nothing else. None of the four changes anything but registers and the throttle controller's state. (R433, R434, R435, R442, R443, R436, R438, R454) -/
def Obligations.ControlTickCurrentAndDroop : Prop :=
  (∀ (s : State) (a b h : Nat), s.obj 0x1100 1 ≤ h → (∀ c, c < 90 → s.plane c = 2 → s.obj (0x1310 + c) 0 ≤ h) →
    (h = s.obj 0x1100 1 ∨ ∃ c, c < 90 ∧ s.plane c = 2 ∧ s.obj (0x1310 + c) 0 = h) →
    ∃ t, exec (.controlTick a b) s = .next t ∧ t = { s with regs := t.regs, sent := t.sent, throttle := t.throttle } ∧
      t.obj 0x1101 2 = a ∧ t.obj 0x1101 3 = b ∧ t.obj 0x1101 7 = s.slowCap.1 ∧ t.obj 0x1101 8 = s.fastCap ∧
      (if (s.fastCap < a ∧ 10 ≤ s.throttle.since + 1) ∨ (s.slowCap.1 < b ∧ 500 ≤ s.throttle.since + 1) then
        if s.obj 0x1100 1 < h then t.obj 0x1101 4 = max (s.obj 0x1100 1) (min (s.obj 0x1101 4) h - 1) ∧ t.obj 0x1101 5 = s.obj 0x1101 5
        else if 1 < s.obj 0x1101 5 ∧ (∃ q ∈ List.range 12, s.jobState q = 3 ∨ s.jobState q = 2) then
          t.obj 0x1101 4 = s.obj 0x1100 1 ∧ t.obj 0x1101 5 = s.obj 0x1101 5 - 1
        else t.obj 0x1101 4 = s.obj 0x1101 4 ∧ t.obj 0x1101 5 = s.obj 0x1101 5 ∧ t.obj 0x1101 6 = stCapUnreachable
      else if 100 * a ≤ 97 * s.fastCap ∧ 100 * a ≤ 97 * s.slowCap.1 ∧ 100 ≤ s.throttle.since + 1 then
        t.obj 0x1101 6 = 0 ∧
        (if s.obj 0x1101 5 < 16 then t.obj 0x1101 5 = s.obj 0x1101 5 + 1 ∧ t.obj 0x1101 4 = s.obj 0x1101 4
         else t.obj 0x1101 5 = s.obj 0x1101 5 ∧ t.obj 0x1101 4 = if s.obj 0x1101 4 < s.obj 0x1100 2 then s.obj 0x1101 4 + 1 else s.obj 0x1101 4)
      else t.obj 0x1101 4 = s.obj 0x1101 4 ∧ t.obj 0x1101 5 = s.obj 0x1101 5 ∧ t.obj 0x1101 6 = 0)) ∧
  (∀ (s : State) (f ma : Nat), f < 6 →
    ∃ t, exec (.railGroupCurrentReading f ma) s = .next t ∧ t.obj (0x1020 + f) 1 = ma ∧ t = { s with regs := t.regs, throttle := t.throttle } ∧
      (3 ≤ (s.groupLimit f).above → 1000 * s.obj (0x1020 + f) 0 < ma →
        (t.groupLimit f).duty = true ∧ ∀ c, c < 90 → clusterField c = f → t.obj (0x1310 + c) 3 ≤ 12) ∧
      (199 ≤ (s.groupLimit f).below → ma ≤ 900 * s.obj (0x1020 + f) 0 → (t.groupLimit f).duty = false) ∧
      ((s.groupLimit f).duty = true → 950 * s.obj (0x1020 + f) 0 < ma → 199 ≤ (s.groupLimit f).since →
        (t.groupLimit f).cur = max s.stepFloor (min (s.groupLimit f).cur s.stepMax - 1)) ∧
      (∀ g, g ≠ f → t.groupLimit g = s.groupLimit g)) ∧
  (∀ (s : State) (c : Nat), c < 90 → s.plane c = 2 → s.obj (0x1450 + c) 4 = 0 →
    ∃ t, exec (.droopEvent c) s = .next t ∧ t.obj (0x1450 + c) 4 = 1 ∧ t.obj (0x1450 + c) 1 = s.obj (0x1450 + c) 1 / 2 ∧
      t.obj (0x1310 + c) 6 = min (s.obj (0x1310 + c) 6 + 1) (2 ^ 32 - 1) ∧ t = { s with regs := t.regs, throttle := t.throttle } ∧
      ((s.limits c).hold = false → 7 ≤ ((s.limits c).marks.filter (fun m => decide (s.elapsed < 4000000 + m))).length →
        (t.limits c).hold = true ∧ (t.limits c).droop = max s.stepFloor (min (s.limits c).droop s.stepMax - 1)) ∧
      ((s.limits c).hold = false → ((s.limits c).marks.filter (fun m => decide (s.elapsed < 4000000 + m))).length < 7 →
        (t.limits c).hold = false ∧ (t.limits c).droop = (s.limits c).droop)) ∧
  (∀ (s : State) (c : Nat), s.plane c ≠ 2 ∨ s.obj (0x1450 + c) 4 ≠ 0 → exec (.droopEvent c) s = .next s) ∧
  (∀ (s : State) (c : Nat), c < 90 → s.obj (0x1450 + c) 4 = 1 → s.obj (0x1450 + c) 1 ≠ 0 →
    ∃ t, exec (.droopExit c) s = .next t ∧ t.obj (0x1450 + c) 4 = 0 ∧ t.obj (0x1450 + c) 1 = freqTable.getD (s.obj (0x1310 + c) 0) 0 ∧ t = { s with regs := t.regs }) ∧
  (∀ (s : State) (c : Nat), s.obj (0x1450 + c) 4 ≠ 1 → exec (.droopExit c) s = .next s) ∧
  (∀ (s : State) (c : Nat), (s.limits c).hold = true → (s.limits c).holdAt + 100 * msTide ≤ s.elapsed →
    ∃ t, exec (.droopHoldExpiry c) s = .next t ∧ (t.limits c).hold = false ∧ (t.limits c).droop = (s.limits c).droop ∧ t = { s with throttle := t.throttle }) ∧
  (∀ (s : State) (c : Nat), (s.limits c).hold = false ∨ s.elapsed < (s.limits c).holdAt + 100 * msTide → exec (.droopHoldExpiry c) s = .next s)

/-- DIE_SENSOR_READING keeps the reading in 1310+c:05 and, without a tenth reading in a row at or above 110 °C, leaves the supply as it is: above target, 10 readings after the last change and above step_floor, the cluster's ceiling falls one step; at or below target - 3 °C, 100 readings after it, it rises one. The tenth in a row at or above 110 °C closes a powered module for heat. HBM_TEMP_READING and DIMM_TEMP_READING keep their reading; above 95 °C (85 °C) the unit's rate falls by 1/8 to 4/8 at least, and the tenth in a row at or above 105 °C closes the module (at or above 95 °C takes the DIMM's channel out as not answering). COOLANT_READING keeps the three readings; a second in a row above 55 °C, or below 3.0 L/min, closes the module. COOLANT_RESTORED cold-starts a module that heat closed with the inlet at most 45 °C, the flow at least 4.5 L/min and every die sensor below 60 °C, and otherwise changes nothing. SLACK_NOTICE_SEND of a partition whose job qualifies sends one SLACK to each other device of its barrier group with the job's identifier and the binding reason, and remembers that its peers hold one; of another it changes nothing. A SLACK (reserved bits 0) received with sympathy_enable 0 is counted in 1102:02 and otherwise ignored. With it set, a SLACK with a reason other than 0 that names the STEPPING or WAITING job of a partition whose barrier group names the sender puts, until it ends, a ceiling of max(level, step_floor) on every cluster of that partition; with reason 0 it ends the sender's ceiling there, as PEER_SLACK_EXPIRY does 15 ms after its last SLACK; ceilings held for other senders or partitions stay. (R439, R440, R441, R320, R341, R448, R449) -/
def Obligations.HeatLimitsAndSlackNotices : Prop :=
  (∀ (s : State) (c : Nat) (x : Int), c < 90 →
    ∃ t, exec (.dieSensorReading c x) s = .next t ∧ t.obj (0x1310 + c) 5 = unsignedOf x 32 ∧
      ((s.limits c).tripReads < 9 ∨ x < 1100 → t = { s with regs := t.regs, throttle := t.throttle } ∧
        (x > 10 * (s.obj 0x1400 0 : Int) → 9 ≤ (s.limits c).thermSince → s.stepFloor < min (s.limits c).thermal s.stepMax →
          (t.limits c).thermal = max s.stepFloor (min (s.limits c).thermal s.stepMax - 1)) ∧
        (x ≤ 10 * (s.obj 0x1400 0 : Int) - 30 → 99 ≤ (s.limits c).thermSince → (s.limits c).thermal + 1 < s.stepMax → (s.limits c).thermal ≠ 31 →
          (t.limits c).thermal = (s.limits c).thermal + 1)) ∧
      (9 ≤ (s.limits c).tripReads → 1100 ≤ x → s.power.closed = false → t.power.closed = true ∧ t.power.cause = 3)) ∧
  (∀ (s : State) (h : Nat) (x : Int), h < 12 →
    ∃ t, exec (.hbmTempReading h x) s = .next t ∧ t.obj 0x1400 4 h = unsignedOf x 32 ∧
      ((Tbl.get s.throttle.hbms {} h).trip < 9 ∨ x < 1050 → t = { s with regs := t.regs, throttle := t.throttle } ∧
        (950 < x → (Tbl.get t.throttle.hbms {} h).eighths = max 4 ((Tbl.get s.throttle.hbms {} h).eighths - 1)) ∧
        (920 < x → x ≤ 950 → (Tbl.get t.throttle.hbms {} h).eighths = (Tbl.get s.throttle.hbms {} h).eighths)) ∧
      (9 ≤ (Tbl.get s.throttle.hbms {} h).trip → 1050 ≤ x → s.power.closed = false → t.power.closed = true ∧ t.power.cause = 3)) ∧
  (∀ (s : State) (ch : Nat) (x : Int), ch < 16 →
    ∃ t, exec (.dimmTempReading ch x) s = .next t ∧ t.obj 0x1400 5 ch = unsignedOf x 32 ∧
      ((Tbl.get s.throttle.dimms {} ch).trip < 9 ∨ x < 950 → t = { s with regs := t.regs, throttle := t.throttle } ∧
        (850 < x → (Tbl.get t.throttle.dimms {} ch).eighths = max 4 ((Tbl.get s.throttle.dimms {} ch).eighths - 1))) ∧
      (9 ≤ (Tbl.get s.throttle.dimms {} ch).trip → 950 ≤ x → s.obj (0x3110 + ch) 0 = 1 → Tbl.get s.channels {} ch = {} → t.obj (0x3110 + ch) 0 = 4)) ∧
  (∀ (s : State) (inlet outlet : Int) (flow : Nat),
    ∃ t, exec (.coolantReading inlet outlet flow) s = .next t ∧
      t.obj 0x1400 1 = unsignedOf inlet 32 ∧ t.obj 0x1400 2 = unsignedOf outlet 32 ∧ t.obj 0x1400 3 = flow ∧
      ((s.throttle.inletBad = 0 ∨ inlet ≤ 550) → (s.throttle.flowBad = 0 ∨ 3000 ≤ flow) →
        s.sameRegs t [okey 0x1400 1 0, okey 0x1400 2 0, okey 0x1400 3 0] ∧ t = { s with regs := t.regs, throttle := t.throttle }) ∧
      ((0 < s.throttle.inletBad ∧ 550 < inlet) ∨ (0 < s.throttle.flowBad ∧ flow < 3000) → s.power.closed = false → t.power.closed = true ∧ t.power.cause = 3)) ∧
  (∀ (s : State), s.power.closed = true → s.power.cause = 3 → signedOf (s.obj 0x1400 1) 32 ≤ 450 → 4500 ≤ s.obj 0x1400 3 →
    (∀ c, c < 90 → signedOf (s.obj (0x1310 + c) 5) 32 < 600) →
    ∃ t, exec .coolantRestored s = .next t ∧ t.power.closed = false ∧ t.device.mode = .startup ∧ t.obj 0x7000 0 = 1 ∧ t.tide = 0) ∧
  (∀ (s : State), s.power.closed = false ∨ s.power.cause ≠ 3 ∨ 450 < signedOf (s.obj 0x1400 1) 32 ∨ s.obj 0x1400 3 < 4500 ∨
      (∃ c, c < 90 ∧ 600 ≤ signedOf (s.obj (0x1310 + c) 5) 32) → exec .coolantRestored s = .next s) ∧
  (∀ (s : State) (q : Nat), s.sendsSlack q = true → s.jobId q < 65536 →
    ∃ t, exec (.slackNoticeSend q) s = .next t ∧ q ∈ t.throttle.told ∧ t = { s with sent := t.sent, throttle := { s.throttle with told := t.throttle.told } } ∧
      (∀ d, d ∈ s.slackPeers q → ∃ m, .control m ∈ t.sent ∧ m.mtype = 0x16 ∧ m.dst = d ∧
        fieldOf m.body.toNat 208 16 = s.jobId q ∧ fieldOf m.body.toNat 200 8 = s.bindingReason q)) ∧
  (∀ (s : State) (q : Nat), s.sendsSlack q = false → exec (.slackNoticeSend q) s = .next s) ∧
  (∀ (s : State) (m : CtrlMsg), ctrlOk 0x16 m = true → s.obj 0x1102 0 = 0 →
    ∃ t, exec (.slack m) s = .next t ∧ t.obj 0x1102 2 = min (s.obj 0x1102 2 + 1) (2 ^ 32 - 1) ∧ s.sameRegs t [okey 0x1102 2 0] ∧ t = { s with regs := t.regs }) ∧
  (∀ (s : State) (m : CtrlMsg) (q : Nat), ctrlOk 0x16 m = true → s.obj 0x1102 0 = 1 → q < 12 → s.jobState q = 2 ∨ s.jobState q = 3 →
      s.jobId q = fieldOf m.body.toNat 208 16 → bitOf (s.obj (0x5040 + q) 9) m.src = true →
    ∃ t, exec (.slack m) s = .next t ∧ t = { s with regs := t.regs, throttle := { s.throttle with peers := t.throttle.peers, slackAt := t.throttle.slackAt } } ∧
      (fieldOf m.body.toNat 200 8 ≠ 0 → (q, m.src, fieldOf m.body.toNat 192 8) ∈ t.throttle.peers ∧
        ∀ c, c < 90 → s.clusterPartition c = some q → t.obj (0x1310 + c) 2 ≤ max (fieldOf m.body.toNat 192 8) s.stepFloor) ∧
      (fieldOf m.body.toNat 200 8 = 0 → ∀ l, (q, m.src, l) ∉ t.throttle.peers) ∧
      (∀ p d l, d ≠ m.src → ((p, d, l) ∈ t.throttle.peers ↔ (p, d, l) ∈ s.throttle.peers))) ∧
  (∀ (s : State) (q sender : Nat), s.elapsed < Tbl.get s.throttle.slackAt 0 (256 * q + sender) + 15 * msTide → exec (.peerSlackExpiry q sender) s = .next s) ∧
  (∀ (s : State) (q sender : Nat), Tbl.get s.throttle.slackAt 0 (256 * q + sender) + 15 * msTide ≤ s.elapsed →
    ∃ t, exec (.peerSlackExpiry q sender) s = .next t ∧ t = { s with regs := t.regs, throttle := { s.throttle with peers := t.throttle.peers } } ∧
      (∀ p d l, (p, d, l) ∈ t.throttle.peers ↔ ((p, d, l) ∈ s.throttle.peers ∧ ¬ (p = q ∧ d = sender))))

/-- FREQUENCY_CHANGE of a running generator of an ON cluster moves the applied step by exactly one towards its target where every step is usable, counts 1450+c:05 and puts out the new step's frequency (half of it in a droop step-down); at the target it only locks. CLOCK_FAULT of a running generator, the cluster in no job and its history empty, stops it (relocking), counts a period fault in 1450+c:02 or a phase fault in :03 with its time and reports it under CLOCK; CLOCK_RELOCK lets a stopped one run again. REFERENCE_LOSS of the tide PLL counts, sets 1410:01 and closes a powered module; of no unit it changes nothing. TIDE_SYNC_PULSE counts in 1420:06 a local counter more than 64 units away from the master and changes nothing else. PTP_SYNC publishes its relation at the port whose IEEE 1588 clock runs while its link is up, and changes nothing elsewhere. (R451, R452, R455, R456, R458, R464) -/
def Obligations.ClockGenerators : Prop :=
  (∀ (s : State) (c : Nat), c < 90 → s.plane c = 2 → s.obj (0x1450 + c) 0 = 2 ∨ s.obj (0x1450 + c) 0 = 3 → s.obj (0x1310 + c) 0 < 32 → s.targetStep c < 32 →
      (∀ k, k < 32 → s.stepUsable k = true) → s.obj (0x1310 + c) 0 ≠ s.targetStep c →
    ∃ t, exec (.frequencyChange c) s = .next t ∧
      t.obj (0x1310 + c) 0 = (if s.obj (0x1310 + c) 0 < s.targetStep c then s.obj (0x1310 + c) 0 + 1 else s.obj (0x1310 + c) 0 - 1) ∧
      t.obj (0x1450 + c) 1 = (if s.obj (0x1450 + c) 4 = 1 then freqTable.getD (t.obj (0x1310 + c) 0) 0 / 2 else freqTable.getD (t.obj (0x1310 + c) 0) 0) ∧
      t.obj (0x1450 + c) 5 = min (s.obj (0x1450 + c) 5 + 1) (2 ^ 32 - 1) ∧ t = { s with regs := t.regs }) ∧
  (∀ (s : State) (c : Nat), s.plane c = 2 → s.obj (0x1450 + c) 0 = 2 ∨ s.obj (0x1450 + c) 0 = 3 → s.obj (0x1310 + c) 0 = s.targetStep c →
    ∃ t, exec (.frequencyChange c) s = .next t ∧ t.obj (0x1450 + c) 0 = 2 ∧ s.sameRegs t [okey (0x1450 + c) 0 0] ∧ t = { s with regs := t.regs }) ∧
  (∀ (s : State) (c : Nat) (ph : Bool), c < 90 → s.plane c = 2 → s.obj (0x1450 + c) 0 = 2 ∨ s.obj (0x1450 + c) 0 = 3 → s.clusterJobs c = [] → s.hist (susCode (susCluster c)) clClock = none →
    ∃ t, exec (.clockFault c ph) s = .next t ∧ t.obj (0x1450 + c) 0 = 1 ∧ t.obj (0x1450 + c) 1 = 0 ∧ t.obj (0x1450 + c) 6 = s.tide ∧
      t.obj (0x1450 + c) 2 = (if ph then s.obj (0x1450 + c) 2 else min (s.obj (0x1450 + c) 2 + 1) (2 ^ 32 - 1)) ∧
      t.obj (0x1450 + c) 3 = (if ph then min (s.obj (0x1450 + c) 3 + 1) (2 ^ 32 - 1) else s.obj (0x1450 + c) 3) ∧
      (∃ r, t.sent = .report r :: s.sent ∧ r.cls = clClock ∧ r.suspect = susCluster c) ∧ t = { s with regs := t.regs, sent := t.sent, faults := t.faults }) ∧
  (∀ (s : State) (c : Nat), c < 90 → s.plane c = 2 → s.obj (0x1450 + c) 0 = 1 →
    ∃ t, exec (.clockRelock c) s = .next t ∧ t.obj (0x1450 + c) 1 = s.outputMHz c ∧ t.obj (0x1450 + c) 6 = s.tide ∧
      t.obj (0x1450 + c) 0 = (if s.obj (0x1310 + c) 0 = s.targetStep c then 2 else 3) ∧ t = { s with regs := t.regs }) ∧
  (∀ (s : State) (c : Nat), s.plane c ≠ 2 → exec (.frequencyChange c) s = .next s ∧ exec (.clockRelock c) s = .next s ∧ ∀ ph, exec (.clockFault c ph) s = .next s) ∧
  (∀ (s : State), s.power.closed = false →
    ∃ t, exec (.referenceLoss [.tidePll]) s = .next t ∧ t.power.closed = true ∧ t.obj 0x1410 1 = 1 ∧ t.obj 0x1410 4 = min (s.obj 0x1410 4 + 1) (2 ^ 32 - 1) ∧ t.jobs = s.jobs) ∧
  (∀ (s : State), exec (.referenceLoss []) s = .next s) ∧
  (∀ (s : State) (a b : Nat), ∃ t, exec (.tideSyncPulse a b) s = .next t ∧ t = { s with regs := t.regs } ∧ s.sameRegs t [okey 0x1420 6 0] ∧
      t.obj 0x1420 6 = if a + 64 < b ∨ b + 64 < a then min (s.obj 0x1420 6 + 1) (2 ^ 32 - 1) else s.obj 0x1420 6) ∧
  (∀ (s : State) (k bt bn : Nat) (r : Int), s.ptpPort = some k → s.portState k = 6 →
    ∃ t, exec (.ptpSync k bt bn r) s = .next t ∧ t.obj 0x1430 0 = 2 ∧ t.obj 0x1430 1 = k ∧ t.obj 0x1430 2 = bt ∧ t.obj 0x1430 3 = bn ∧ t.obj 0x1430 4 = unsignedOf r 32 ∧
      s.sameRegs t [okey 0x1430 0 0, okey 0x1430 1 0, okey 0x1430 2 0, okey 0x1430 3 0, okey 0x1430 4 0, okey 0x1420 8 0] ∧ t = { s with regs := t.regs }) ∧
  (∀ (s : State) (k bt bn : Nat) (r : Int), s.ptpPort ≠ some k ∨ s.portState k ≠ 6 → exec (.ptpSync k bt bn r) s = .next s)

/-- Where the checks of R396 pass, every partition's job is NONE, the value is 0-255 or 0xFFFF and the record flash takes it, DEVICE_ID_WRITE answers OK, object 4000:00 reads the value, and no tile, job or memory changes. With a job in any partition it answers BUSY, and with another value BAD_VALUE, and in both cases nothing else changes. HELLO_SEND of a Causeway port in TRAINING or FOREIGN, or in UP or UP3 with credits, sends a HELLO with the device's serial, domain, identifier and port; of another it changes nothing. A HELLO of the same domain and version at a port in TRAINING with lock on its lanes, not a retrain, records the peer and its serial and brings the port UP with its sequence numbers at 0 and full credits, but for the slot that the device's own TOPO takes; of another domain at a port in TRAINING that is no retrain it makes the port FOREIGN; at a port DOWN, RETIRED, DISABLED or ETH_UP it changes nothing. TOPO_SEND sends the device's TOPO on each port that is up, or leaves it waiting for credit there, and sends nothing without an identifier. A TOPO newer than what is held of its origin is held and counts a new route version in 4000:03; an older one, or the device's own, changes nothing. (R352, R396, R400, R342, R343, R344, R345) -/
def Obligations.DeviceIdentifierHelloAndTopology : Prop :=
  (∀ (s : State) (sess v : Nat), s.writeGuard sess 0x4000 0 = none → (∀ q, q < 12 → s.jobState q = 0) → v < 256 ∨ v = 0xFFFF →
      (s.storeRecord 0x4000 0 3 (leBytes 2 v)).2 = stOk →
    ∃ t, exec (.deviceIdWrite sess v) s = .next t ∧ t.obj 0x4000 0 = v ∧ t.sent.head? = some (.answer sess 0x4000 0 stOk) ∧
      t.bamurn = (s.storeRecord 0x4000 0 3 (leBytes 2 v)).1.bamurn ∧ t.tiles = s.tiles ∧ t.jobs = s.jobs ∧ t.hbm = s.hbm ∧ t.ddr = s.ddr) ∧
  (∀ (s : State) (sess v : Nat), s.writeGuard sess 0x4000 0 = none → v < 256 ∨ v = 0xFFFF → (∃ q, q < 12 ∧ s.jobState q ≠ 0) →
    exec (.deviceIdWrite sess v) s = .next { s with sent := .answer sess 0x4000 0 stBusy :: s.sent }) ∧
  (∀ (s : State) (sess v : Nat), s.writeGuard sess 0x4000 0 = none → 256 ≤ v → v ≠ 0xFFFF →
    exec (.deviceIdWrite sess v) s = .next { s with sent := .answer sess 0x4000 0 stBadValue :: s.sent }) ∧
  (∀ (s : State) (k : Nat), k < 16 → (s.port k).mode = 1 → s.portState k ∈ [1, 2, 3, 4] → s.obj 0x4000 1 < 2 ^ 32 → s.obj 0x4000 0 < 2 ^ 16 →
      (s.portUp k = true → (s.port k).stuck = [] ∧ s.roomTx k 8 1 = true) →
    ∃ t m, exec (.helloSend k) s = .next t ∧ t.sent = .ctrl k m :: s.sent ∧ m.mtype = 1 ∧ fieldOf m.body.toNat 160 64 = s.obj 0x4000 2 % 2 ^ 64 ∧
      fieldOf m.body.toNat 128 32 = s.obj 0x4000 1 ∧ fieldOf m.body.toNat 112 16 = s.obj 0x4000 0 ∧ fieldOf m.body.toNat 108 4 = k ∧
      t = { s with regs := t.regs, sent := t.sent, ports := t.ports } ∧ s.sameRegs t [okey (0x4010 + k) 5 0]) ∧
  (∀ (s : State) (k : Nat), (s.port k).mode ≠ 1 ∨ s.portState k ∉ [1, 2, 3, 4] → exec (.helloSend k) s = .next s) ∧
  (∀ (s : State) (k : Nat) (m : CtrlMsg), k < 16 → ctrlOk 0x01 m = true → s.portState k = 1 → (s.port k).resume = none → (s.port k).latch = none → 4 ≤ (s.port k).locked.length →
      fieldOf m.body.toNat 128 32 = s.obj 0x4000 1 → fieldOf m.body.toNat 100 8 = 1 → (s.port k).egress = [] → (s.port k).ingress = [] → (s.port k).stuck = [] →
    ∃ t, exec (.hello k m) s = .next t ∧ t.portState k = 2 ∧ t.obj (0x4010 + k) 3 = fieldOf m.body.toNat 112 16 * 65536 + fieldOf m.body.toNat 108 4 * 4096 ∧
      (t.port k).serial = fieldOf m.body.toNat 160 64 ∧ (t.port k).rxSeq = 0 ∧ (t.port k).ackNext = 0 ∧ (t.port k).credits = [3072, 1536, 1536, 1536, 3072, 1536, 1536, 1536, if s.obj 0x4000 0 = 0xFFFF then 256 else 255, 64] ∧
      t.tiles = s.tiles ∧ t.jobs = s.jobs) ∧
  (∀ (s : State) (k : Nat) (m : CtrlMsg), k < 16 → ctrlOk 0x01 m = true → s.portState k = 1 → (s.port k).resume = none → (s.port k).latch = none → fieldOf m.body.toNat 128 32 ≠ s.obj 0x4000 1 →
    ∃ t, exec (.hello k m) s = .next t ∧ t.portState k = 4 ∧ t = { s with regs := t.regs, sent := t.sent, ports := t.ports }) ∧
  (∀ (s : State) (k : Nat) (m : CtrlMsg), s.portState k ∉ [1, 2, 3, 4] → exec (.hello k m) s = .next s) ∧
  (∀ (s : State), s.obj 0x4000 0 ≠ 0xFFFF →
    ∃ t, exec .topoSend s = .next t ∧ (∀ k, k < 16 → s.portUp k = true → ∃ m, m.mtype = 6 ∧ (.ctrl k m ∈ t.sent ∨ (8, 1, .ctrl k m) ∈ (t.port k).stuck)) ∧ t = { s with regs := t.regs, sent := t.sent, ports := t.ports }) ∧
  (∀ (s : State), s.obj 0x4000 0 = 0xFFFF → exec .topoSend s = .next s) ∧
  (∀ (s : State) (k : Nat) (m : CtrlMsg), ctrlOk 0x06 m = true → fieldOf m.body.toNat 216 8 ≠ s.obj 0x4000 0 → Tbl.get s.topo none (fieldOf m.body.toNat 216 8) = none →
    ∃ t, exec (.topo k m) s = .next t ∧ (∃ peers, Tbl.get t.topo none (fieldOf m.body.toNat 216 8) = some (fieldOf m.body.toNat 184 32, peers) ∧
        ∀ j, j < 16 → bitOf m.body.toNat (40 + 9 * j + 8) = true → fieldOf m.body.toNat (40 + 9 * j) 8 ∈ peers) ∧
      t.obj 0x4000 3 = (s.obj 0x4000 3 + 1) % 2 ^ 32 ∧ t.tiles = s.tiles ∧ t.jobs = s.jobs) ∧
  (∀ (s : State) (k : Nat) (m : CtrlMsg), fieldOf m.body.toNat 216 8 = s.obj 0x4000 0 ∨
      (∃ ps, Tbl.get s.topo none (fieldOf m.body.toNat 216 8) = some (fieldOf m.body.toNat 184 32, ps)) → exec (.topo k m) s = .next s)

/-- PORT_RESET_RETRAIN and PORT_RESET_CLEAR of a port in TRAINING answer RESTART_PENDING and are latched; with mode 0 they lead to DISABLED, otherwise (RETIRED apart, which only CLEAR leaves) to TRAINING, and CLEAR gives the lane map its default. PORT_RETRY_TIMER and CABLE_INSERT take a port from DOWN to TRAINING and change no other. TRAINING_TIMEOUT without lock counts a failure: a first training returns to DOWN, a retrain tries again up to the third failure; with lock, or outside TRAINING, it changes nothing. PRBS_PHASE_END and CODEWORD_LOCK record the phase and the lane; CODEWORD_LOCK_LOSS of an active lane of a port that is up sends it to TRAINING with its sequence, replay and credit state kept, any other only drops the lane. CABLE_REMOVE leaves RETIRED, DISABLED and DOWN, takes ETH_UP to TRAINING and a port not in use to DOWN. ETH_LINK_UP and ETH_LINK_DOWN lead to ETH_UP and back to TRAINING. No other port changes, but for what a TOPO that leaves at it spends or leaves waiting (R331). (R324, R325, R326, R327, R335, R399) -/
def Obligations.PortStatesAndTraining : Prop :=
  (∀ (s : State) (sess k v : Nat) (c : Instr), k < 16 → s.writeGuard sess (0x4010 + k) 4 = none →
      (c = .portResetRetrain sess k ∧ v = 1) ∨ (c = .portResetClear sess k ∧ v = 2) →
    (s.portState k = 1 → ∃ t, exec c s = .next t ∧ (t.port k).latch = some v ∧ t.obj (0x4010 + k) 4 = stRestartPending ∧ s.sameRegs t [okey (0x4010 + k) 4 0] ∧
      t = { s with regs := t.regs, ports := t.ports, sent := .answer sess (0x4010 + k) 4 stRestartPending :: s.sent }) ∧
    (s.portState k ≠ 1 → (s.port k).fwd = [] → ∃ t, exec c s = .next t ∧ t.obj (0x4010 + k) 4 = stOk ∧
      t.portState k = (if s.obj (0x4010 + k) 0 = 0 then 7 else if s.portState k = 5 ∧ v = 1 then 5 else 1) ∧
      (v = 2 → t.obj (0x4010 + k) 2 = 0x0688 ∧ t.obj (0x4010 + k) 9 = 0) ∧ (t.port k).mode = s.obj (0x4010 + k) 0 ∧
      (∀ j, j ≠ k → { t.port j with txSeq := 0, credits := [], stuck := [], stalled := none } = { s.port j with txSeq := 0, credits := [], stuck := [], stalled := none }))) ∧
  (∀ (s : State) (k : Nat) (c : Instr), k < 16 → c = .portRetryTimer k ∨ c = .cableInsert k →
    (s.portState k = 0 → ∃ t, exec c s = .next t ∧ t.portState k = 1 ∧ (t.port k).locked = [] ∧ (t.port k).prbsDone = false ∧ t = { s with regs := t.regs, ports := t.ports, sent := t.sent } ∧
      ∀ j, j ≠ k → t.port j = s.port j) ∧
    (s.portState k ≠ 0 → exec c s = .next s)) ∧
  (∀ (s : State) (k : Nat), k < 16 →
    (s.portState k = 1 → (s.port k).locked.length < (s.port k).lanesNeeded → (s.port k).latch = none → (s.port k).resume = none →
      ∃ t, exec (.trainingTimeout k) s = .next t ∧ t.portState k = 0 ∧ t.obj (0x4010 + k) 0xE = min (s.obj (0x4010 + k) 0xE + 1) (2 ^ 32 - 1) ∧ t.ports = s.ports) ∧
    (s.portState k = 1 → (s.port k).locked.length < (s.port k).lanesNeeded → (s.port k).resume ≠ none → (s.port k).failed < 2 →
      ∃ t, exec (.trainingTimeout k) s = .next t ∧ t.portState k = 1 ∧ t.port k = { s.port k with failed := (s.port k).failed + 1, locked := [], prbsDone := false } ∧
        t.obj (0x4010 + k) 0xE = min (s.obj (0x4010 + k) 0xE + 1) (2 ^ 32 - 1) ∧ t = { s with regs := t.regs, ports := t.ports }) ∧
    (s.portState k ≠ 1 ∨ (s.port k).lanesNeeded ≤ (s.port k).locked.length → exec (.trainingTimeout k) s = .next s)) ∧
  (∀ (s : State) (k : Nat), ∃ t, exec (.prbsPhaseEnd k) s = .next t ∧ t = { s with ports := t.ports } ∧ (∀ j, j ≠ k → t.port j = s.port j) ∧
      t.port k = if s.portState k = 1 then { s.port k with prbsDone := true } else s.port k) ∧
  (∀ (s : State) (k lane : Nat), ∃ t, exec (.codewordLock k lane) s = .next t ∧ t = { s with ports := t.ports } ∧ (∀ j, j ≠ k → t.port j = s.port j) ∧
      ((s.port k).prbsDone = true ∨ s.portState k ≠ 1 → lane ∈ (t.port k).locked) ∧ (s.portState k = 1 → (s.port k).prbsDone = false → t.port k = s.port k)) ∧
  (∀ (s : State) (k lane : Nat), k < 16 → ∃ t, exec (.codewordLockLoss k lane) s = .next t ∧ (∀ j, j ≠ k → t.port j = s.port j) ∧
      (if s.portUp k = true ∧ (∃ i ∈ s.activeLanes k, s.laneOf k i = lane) then
        t.portState k = 1 ∧ t.port k = { s.port k with locked := [], prbsDone := false, resume := some (s.portState k) }
      else t = { s with ports := t.ports } ∧ t.port k = { s.port k with locked := (s.port k).locked.erase lane })) ∧
  (∀ (s : State) (k : Nat), k < 16 →
    (s.portState k = 5 ∨ s.portState k = 7 ∨ s.portState k = 0 → exec (.cableRemove k) s = .next s) ∧
    (s.portState k = 6 → ∃ t, exec (.cableRemove k) s = .next t ∧ t.portState k = 1 ∧ t.ports = s.ports) ∧
    ((s.portState k = 1 ∨ s.portState k = 4) → (s.port k).resume = none → ∃ t, exec (.cableRemove k) s = .next t ∧ t.portState k = 0 ∧ t.ports = s.ports) ∧
    ((s.portState k = 2 ∨ s.portState k = 3) → (s.port k).fwd = [] → ∃ t, exec (.cableRemove k) s = .next t ∧ t.portState k = 0)) ∧
  (∀ (s : State) (k : Nat), k < 16 → 2 ≤ (s.port k).mode → s.portState k ≠ 7 → (s.port k).latch = none →
    ∃ t, exec (.ethLinkUp k) s = .next t ∧ t.portState k = 6 ∧ t.ports = s.ports) ∧
  (∀ (s : State) (k : Nat), k < 16 → s.portState k = 6 → ∃ t, exec (.ethLinkDown k) s = .next t ∧ t.portState k = 1 ∧ (∀ j, j ≠ k → t.port j = s.port j)) ∧
  (∀ (s : State) (k : Nat), s.portState k ≠ 6 → exec (.ethLinkDown k) s = .next s) ∧
  (∀ (s : State) (k : Nat), (s.port k).mode < 2 ∨ s.portState k = 7 → exec (.ethLinkUp k) s = .next s)

/-- FLIT_RECEIVE at a port that is not up changes nothing. A flit whose codeword or CRC is bad is answered by one NAK that names the last good number, counts 4010+k:0C and makes the port discard until the replay; while it discards, a further bad flit changes nothing. A good flit that is not the one expected changes nothing. A good flit in sequence advances the expected number by one modulo 65,536, ends the discarding and counts 4010+k:06. ACK_SEND of a port that is up sends an acknowledgement of the last number received and at most 255 credits of each class, which are then owed no longer; of another port it changes nothing. (R329, R331, R332, R353) -/
def Obligations.FlitsAndAcknowledgements : Prop :=
  (∀ (s : State) (k : Nat) (f : Flit) (ok : Bool), s.portUp k = false → exec (.flitReceive k f ok) s = .next s) ∧
  (∀ (s : State) (k : Nat) (f : Flit) (ok : Bool), k < 16 → s.portUp k = true → ok = false ∨ flitCrcOk f = false → (s.port k).discarding = false →
    ∃ t, exec (.flitReceive k f ok) s = .next t ∧ t.sent = .linkAck k (((s.port k).rxSeq + 65535) % 65536) true :: s.sent ∧
      t.obj (0x4010 + k) 0xC = min (s.obj (0x4010 + k) 0xC + 1) (2 ^ 32 - 1) ∧ (t.port k).discarding = true ∧ (t.port k).rxSeq = (s.port k).rxSeq ∧
      (∀ j, j ≠ k → t.port j = s.port j) ∧ t = { s with regs := t.regs, sent := t.sent, ports := t.ports }) ∧
  (∀ (s : State) (k : Nat) (f : Flit) (ok : Bool), ok = false ∨ flitCrcOk f = false → (s.port k).discarding = true → exec (.flitReceive k f ok) s = .next s) ∧
  (∀ (s : State) (k : Nat) (f : Flit), flitCrcOk f = true → flitSeq f ≠ (s.port k).rxSeq → exec (.flitReceive k f true) s = .next s) ∧
  (∀ (s : State) (k : Nat) (f : Flit), k < 16 → s.portUp k = true → flitCrcOk f = true → flitSeq f = (s.port k).rxSeq →
    ∃ t, exec (.flitReceive k f true) s = .next t ∧ (t.port k).rxSeq = (flitSeq f + 1) % 65536 ∧ (t.port k).discarding = false ∧
      t.obj (0x4010 + k) 6 = min (s.obj (0x4010 + k) 6 + 1) (2 ^ 64 - 1) ∧ t = { s with regs := t.regs, sent := t.sent, ports := t.ports }) ∧
  (∀ (s : State) (k : Nat), k < 16 → s.portUp k = true →
    ∃ t, exec (.ackSend k) s = .next t ∧
      t.sent = .credits k ((s.port k).owed.map (min 255)) :: .linkAck k (((s.port k).rxSeq + 65535) % 65536) false :: s.sent ∧
      (t.port k).owed = (s.port k).owed.map (fun v => v - min 255 v) ∧ (t.port k).txSeq = ((s.port k).txSeq + 1) % 65536 ∧
      (∀ j, j ≠ k → t.port j = s.port j) ∧ t = { s with regs := t.regs, sent := t.sent, ports := t.ports } ∧ s.sameRegs t [okey (0x4010 + k) 5 0]) ∧
  (∀ (s : State) (k : Nat), s.portUp k = false → exec (.ackSend k) s = .next s)

/-- LANE_SPARING_CHECK of a port that is up keeps the replays of the trailing second in 4010+k:08 and counts a check in a row above 64; the hundredth asks by LANE_SWAP, where it has credit, for the lane with the most uncorrectable codewords of the trailing second, if any. LANE_SWAP at a port that is up with credit is answered by one LANE_ACK for the lane with the own switch point, and the peer's switch point is kept. LANE_ACK fixes the peer's switch point of the lane changes of its lane. LANE_SWITCH at a number at which no change switches alters nothing, at the second of the two switch points of a change that does not drop the lane it moves the logical lane to the spare (lane map 4), counts the lane in 4010+k:09 and reports it under the link class. (R333, R334, R342) -/
def Obligations.LaneSparing : Prop :=
  (∀ (s : State) (k : Nat), k < 16 → s.portUp k = true →
    ∃ t, exec (.laneSparingCheck k) s = .next t ∧ t = { s with regs := t.regs, sent := t.sent, ports := t.ports } ∧
      t.obj (0x4010 + k) 8 = min 65535 ((s.port k).marks.filter (fun m => decide (s.elapsed < 4000000000 + m))).length ∧
      (((s.port k).marks.filter (fun m => decide (s.elapsed < 4000000000 + m))).length ≤ 64 → (t.port k).badChecks = 0 ∧ t.sent = s.sent ∧ (t.port k).swaps = (s.port k).swaps) ∧
      (64 < ((s.port k).marks.filter (fun m => decide (s.elapsed < 4000000000 + m))).length → (s.port k).badChecks < 99 → (t.port k).badChecks = (s.port k).badChecks + 1 ∧ t.sent = s.sent) ∧
      (64 < ((s.port k).marks.filter (fun m => decide (s.elapsed < 4000000000 + m))).length → 99 ≤ (s.port k).badChecks → (s.port k).stuck = [] → s.roomTx k 8 1 = true →
        ∀ lane, ({ s with ports := Tbl.put s.ports {} k { s.port k with laneBad := (s.port k).laneBad.filter (fun b => decide (s.elapsed < 4000000000 + b.2)) } } : State).worstLane k = some lane →
          ∃ m, t.sent = .ctrl k m :: s.sent ∧ m.mtype = 2 ∧ fieldOf m.body.toNat 205 3 = lane % 8 ∧ (t.port k).badChecks = 0) ∧
      (∀ j, j ≠ k → t.port j = s.port j)) ∧
  (∀ (s : State) (k : Nat), s.portUp k = false → exec (.laneSparingCheck k) s = .next s) ∧
  (∀ (s : State) (k : Nat) (m : CtrlMsg), k < 16 → s.portUp k = true → ctrlOk 0x02 m = true → (s.port k).stuck = [] → s.roomTx k 8 1 = true → (∀ x ∈ (s.port k).swaps, ∀ v, x.tx = some v → v < 65536) →
    ∃ t a, exec (.laneSwap k m) s = .next t ∧ t.sent = .ctrl k a :: s.sent ∧ a.mtype = 3 ∧ fieldOf a.body.toNat 205 3 = fieldOf m.body.toNat 205 3 ∧
      (∃ x ∈ (t.port k).swaps, x.lane = fieldOf m.body.toNat 205 3 ∧ x.drop = bitOf m.body.toNat 204 ∧ x.rx = some (fieldOf m.body.toNat 208 16) ∧ x.tx = some (fieldOf a.body.toNat 208 16)) ∧
      t = { s with regs := t.regs, sent := t.sent, ports := t.ports }) ∧
  (∀ (s : State) (k : Nat) (m : CtrlMsg), s.portUp k = false → exec (.laneSwap k m) s = .next s) ∧
  (∀ (s : State) (k : Nat) (m : CtrlMsg), ctrlOk 0x03 m = true → ∃ t, exec (.laneAck k m) s = .next t ∧ t = { s with ports := t.ports } ∧ (∀ j, j ≠ k → t.port j = s.port j) ∧
      t.port k = { s.port k with swaps := (s.port k).swaps.map (fun x => if x.lane = fieldOf m.body.toNat 205 3 then { x with rx := some (fieldOf m.body.toNat 208 16) } else x) }) ∧
  (∀ (s : State) (k seq : Nat), (s.port k).swaps = [] → exec (.laneSwitch k seq) s = .next s) ∧
  (∀ (s : State) (k seq lane : Nat) (x : Swap), k < 16 → lane < 4 → (s.port k).swaps = [x] → x.lane = lane → x.drop = false → x.tx = some seq → x.txDone = false → x.rx ≠ some seq → x.rxDone = true →
    ∃ t, exec (.laneSwitch k seq) s = .next t ∧ t.laneOf k lane = 4 ∧ (∀ i, i < 4 → i ≠ lane → t.laneOf k i = s.laneOf k i) ∧
      t.obj (0x4010 + k) 9 = min 3 (s.obj (0x4010 + k) 9 + 1) ∧ (t.port k).swaps = [] ∧ (∃ r, t.sent = .report r :: s.sent ∧ r.cls = clLink) ∧
      s.sameRegs t [okey (0x4010 + k) 2 0, okey (0x4010 + k) 9 0] ∧ t = { s with regs := t.regs, sent := t.sent, ports := t.ports })

/-- Without a device identifier, or in SAFE, EGRESS_PACKET and INGRESS_REQUEST are discarded and counted in 4010+k:0F. EGRESS_PACKET that may leave with nothing waiting leaves as it is, without mesh positions, a request being recorded in the forward table; one that may not waits. An INGRESS_REQUEST for this device of a job that no partition holds, or while the device is closed, is answered FENCED, which waits at the port or has left it, and no packet enters the mesh; one with a destination here, and room for its reply, enters the mesh to it, and one for another device enters to the one port that carries it. An INGRESS_REPLY with no request of its key is discarded and counted; with one it goes on the reply plane to the request's source and ends the oldest such request. EGRESS_FORK_BRANCH without a remote READ of its address, rows and stride changes nothing, with one it answers the oldest with a DATA packet of its data. (R336, R337, R338, R339, R344) -/
def Obligations.PacketsBetweenDevices : Prop :=
  (∀ (s : State) (k hop : Nat) (p : Packet) (c : Instr), c = .egressPacket k hop p ∨ c = .ingressRequest k hop p → s.obj 0x4000 0 = 0xFFFF ∨ s.device.mode = .safe →
    ∃ t, exec c s = .next t ∧ t.obj (0x4010 + k) 0xF = min (s.obj (0x4010 + k) 0xF + 1) (2 ^ 32 - 1) ∧ s.sameRegs t [okey (0x4010 + k) 0xF 0] ∧ t = { s with regs := t.regs }) ∧
  (∀ (s : State) (k hop : Nat) (p : Packet), s.obj 0x4000 0 ≠ 0xFFFF → s.device.mode ≠ .safe → (s.port k).egress = [] → (s.port k).ingress = [] → (s.port k).stuck = [] → (s.port k).stalled = none →
    ∃ t, exec (.egressPacket k hop p) s = .next t ∧ t = { s with regs := t.regs, sent := t.sent, ports := t.ports } ∧ (∀ j, j ≠ k → t.port j = s.port j) ∧
      (s.mayLeave k hop p = true → t.sent = .egress k hop { p with srcX := 0, srcY := 0, dstX := 0, dstY := 0 } :: s.sent ∧ (t.port k).egress = [] ∧
        (isReply p = false → (t.port k).fwd = (s.port k).fwd ++ [{ p with data := [] }])) ∧
      (s.mayLeave k hop p = false → t.sent = s.sent ∧ t.port k = { s.port k with egress := [(hop, p)], stalled := (t.port k).stalled })) ∧
  (∀ (s : State) (k hop : Nat) (p : Packet), s.obj 0x4000 0 ≠ 0xFFFF → s.device.mode ≠ .safe → s.isOwn (farDevice p.farAddr.toNat) = true →
      s.deviceClosed = true ∨ s.partitionsOfJob p.job = [] → (s.port k).ingress = [] →
    ∃ t r, exec (.ingressRequest k hop p) s = .next t ∧ r.ptype = .status ∧ r.status = stFenced ∧ r.tag = p.tag ∧ r.srcLogical = p.srcLogical ∧ r.srcDevice = p.srcDevice ∧
      ((min 3 (hop + 1), r) ∈ (t.port k).egress ∨ .egress k (min 3 (hop + 1)) { r with srcX := 0, srcY := 0, dstX := 0, dstY := 0 } ∈ t.sent) ∧
      (∀ n b x, .packet n b x ∈ t.sent → .packet n b x ∈ s.sent) ∧ t = { s with regs := t.regs, sent := t.sent, ports := t.ports }) ∧
  (∀ (s : State) (k hop : Nat) (p : Packet), (∀ r ∈ (s.port k).fwd, sameKey r p = false) →
    ∃ t, exec (.ingressReply k hop p) s = .next t ∧ t.obj (0x4010 + k) 0xF = min (s.obj (0x4010 + k) 0xF + 1) (2 ^ 32 - 1) ∧ s.sameRegs t [okey (0x4010 + k) 0xF 0] ∧ t = { s with regs := t.regs }) ∧
  (∀ (s : State) (k hop : Nat) (p r : Packet) (rest : List Packet), (s.port k).fwd = r :: rest → sameKey r p = true → (s.port k).egress = [] → (s.port k).ingress = [] → (s.port k).stuck = [] →
    ∃ t, exec (.ingressReply k hop p) s = .next t ∧ (t.port k).fwd = rest ∧
      (∃ x, t.sent = .packet (s.portPos k) true x :: s.sent ∧ x.dstX = r.srcX ∧ x.dstY = r.srcY ∧ x.data = p.data ∧ x.status = p.status ∧ x.tag = p.tag) ∧
      t = { s with regs := t.regs, sent := t.sent, ports := t.ports }) ∧
  (∀ (s : State) (k : Nat) (p : Packet), (∀ e ∈ (s.port k).inbound, e.2.farAddr ≠ p.farAddr ∨ e.2.rows ≠ p.rows ∨ e.2.stride ≠ p.stride ∨ (e.2.ptype ≠ .read ∧ e.2.ptype ≠ .memRead)) →
    exec (.egressForkBranch k p) s = .next s) ∧
  (∀ (s : State) (k hop : Nat) (p r : Packet) (rest : List (Nat × Packet)), (s.port k).inbound = (hop, r) :: rest → r.ptype = .read ∨ r.ptype = .memRead →
      r.farAddr = p.farAddr → r.rows = p.rows → r.stride = p.stride → (s.port k).egress = [] → (s.port k).ingress = [] →
    ∃ t x, exec (.egressForkBranch k p) s = .next t ∧ x.ptype = .data ∧ x.data = p.data ∧ x.tag = r.tag ∧ x.srcLogical = r.srcLogical ∧
      ((min 3 (hop + 1), x) ∈ (t.port k).egress ∨ .egress k (min 3 (hop + 1)) { x with srcX := 0, srcY := 0, dstX := 0, dstY := 0 } ∈ t.sent) ∧
      t = { s with regs := t.regs, sent := t.sent, ports := t.ports }) ∧
  (∀ (s : State) (k hop j : Nat) (p : Packet), s.obj 0x4000 0 ≠ 0xFFFF → s.device.mode ≠ .safe → s.isOwn (farDevice p.farAddr.toNat) = false → bitsOf (s.routeMask (farDevice p.farAddr.toNat)) 16 = [j] → hop < 3 →
    ∃ t x, exec (.ingressRequest k hop p) s = .next t ∧ t.sent = .packet (s.portPos k) false x :: s.sent ∧ (x.dstX, x.dstY) = (xOf (s.portPos j), yOf (s.portPos j)) ∧ x.data = p.data ∧ x.farAddr = p.farAddr ∧
      t.port k = { s.port k with inbound := (s.port k).inbound ++ [(hop, p)] } ∧ t = { s with sent := t.sent, ports := t.ports }) ∧
  (∀ (s : State) (k hop d : Nat) (p : Packet), s.obj 0x4000 0 ≠ 0xFFFF → s.device.mode ≠ .safe → s.isOwn (farDevice p.farAddr.toNat) = true → s.ingressDest p = .ok d → (s.port k).egress = [] → (s.port k).ingress = [] → (s.port k).stuck = [] →
      (s.port k).reserved + p.rows + 1 ≤ 4096 →
    ∃ t x, exec (.ingressRequest k hop p) s = .next t ∧ t.sent = .packet (s.portPos k) false x :: s.sent ∧ (x.dstX, x.dstY) = (xOf d, yOf d) ∧ x.data = p.data ∧ x.farAddr = p.farAddr ∧
      (t.port k).inbound = (s.port k).inbound ++ [(hop, p)] ∧ t = { s with regs := t.regs, sent := t.sent, ports := t.ports })

/-- TSYNC_SEND of a port that is up with credit, tsync_interval after the last, sends a TSYNC with a new sequence number and keeps the tide and elapsed counts at which it went; TSYNC at a port that is up with credit is answered at once with the number and the own tide count; at other ports both change nothing. A TSYNC_REPLY with another number than the last sent, or at a port not up, changes nothing. With that number the offset ((t2 - t1) - (t4 - t3)) / 2 comes first among at most 16 of the port; in time state FREE nothing else happens. The tide count never falls, and rises only where the filtered offset is above 40 units. A MGMT unit of length 1 to 1,536 (reserved bits 0) with the slots its length needs and hops at most 3 is delivered as a Bamurn message if it is local or names this device; else it is sent on, where there is credit, at the lowest port of its route (the model's choice, log entry 53) with its hops raised, or, without a route or with hops 3, discarded and counted in 4010+k:0F, as every malformed unit is. ETH_FRAME_RECEIVE outside ETH_UP changes nothing; a frame with a bad check sequence counts 4010+k:13 alone; a good one counts 4010+k:11 and, untagged and of 64 to 9,216 bytes, is passed on, stamped with the tide count where it is an IEEE 1588 event message and ptp_enable is set. A unit with a reserved bit set has no effect (no rule of R5's answer exists for it). (R346, R461, R462, R347, R350, R351) -/
def Obligations.DomainTimeManagementAndFrames : Prop :=
  (∀ (s : State) (k : Nat), s.portUp k = true → (s.port k).stuck = [] → s.roomTx k 8 1 = true → (s.port k).syncAt + nsTide (1000 * s.obj 0x4000 7) ≤ s.elapsed →
    ∃ t m, exec (.tsyncSend k) s = .next t ∧ t.sent = .ctrl k m :: s.sent ∧ m.mtype = 4 ∧ fieldOf m.body.toNat 208 16 = (t.port k).syncSeq ∧ (t.port k).syncSeq = ((s.port k).syncSeq + 1) % 65536 ∧
      fieldOf m.body.toNat 144 64 = s.tide % 2 ^ 64 ∧ (t.port k).t1 = s.tide ∧ (t.port k).syncAt = s.elapsed ∧ t = { s with regs := t.regs, sent := t.sent, ports := t.ports }) ∧
  (∀ (s : State) (k : Nat) (m : CtrlMsg), s.portUp k = true → ctrlOk 0x04 m = true → (s.port k).stuck = [] → s.roomTx k 8 1 = true →
    ∃ t a, exec (.tsync k m) s = .next t ∧ t.sent = .ctrl k a :: s.sent ∧ a.mtype = 5 ∧ fieldOf a.body.toNat 208 16 = fieldOf m.body.toNat 208 16 ∧
      fieldOf a.body.toNat 144 64 = s.tide % 2 ^ 64 ∧ fieldOf a.body.toNat 80 64 = s.tide % 2 ^ 64 ∧ t = { s with regs := t.regs, sent := t.sent, ports := t.ports }) ∧
  (∀ (s : State) (k x : Nat) (m : CtrlMsg), s.portUp k = false → exec (.tsyncSend k) s = .next s ∧ exec (.tsync k m) s = .next s ∧ exec (.tsyncReply k m x) s = .next s) ∧
  (∀ (s : State) (k x : Nat) (m : CtrlMsg), fieldOf m.body.toNat 208 16 ≠ (s.port k).syncSeq → exec (.tsyncReply k m x) s = .next s) ∧
  (∀ (s : State) (k x : Nat) (m : CtrlMsg), s.portUp k = true → ctrlOk 0x05 m = true → fieldOf m.body.toNat 208 16 = (s.port k).syncSeq →
    ∃ t, exec (.tsyncReply k m x) s = .next t ∧ s.tide ≤ t.tide ∧
      (s.obj 0x1420 2 = 0 → t = { s with ports := t.ports } ∧
        (t.port k).offsets = ((((fieldOf m.body.toNat 144 64 : Int) - (s.port k).t1) - ((x : Int) - fieldOf m.body.toNat 80 64)) / 2 :: (s.port k).offsets).take 16) ∧
      (∀ o : Int, o = ((((fieldOf m.body.toNat 144 64 : Int) - (s.port k).t1) - ((x : Int) - fieldOf m.body.toNat 80 64)) / 2) → (s.port k).offsets = [] →
        s.obj 0x1420 2 ≠ 0 → t.tide = s.tide + (if 40 < o then o.toNat else 0))) ∧
  (∀ (s : State) (k slots : Nat) (u : MgmtUnit), u.reserved = 0 → 1 ≤ u.length → u.length ≤ 1536 → slots ≤ 48 → slots = (u.length + 31) / 32 → u.hops ≤ 3 →
    (u.local' = true ∨ (s.obj 0x4000 0 ≠ 0xFFFF ∧ u.dst = s.ownDevice) → exec (.mgmtUnit k u slots) s = .next (s.emit (.deliver (.link k u.src u.local') (u.bytes.take u.length)))) ∧
    (u.local' = false → s.obj 0x4000 0 = 0xFFFF ∨ u.dst ≠ s.ownDevice → u.hops < 3 → ∀ j, (bitsOf (s.routeMask u.dst) 16).head? = some j → (s.port j).stuck = [] → s.roomTx j 9 (1 + (u.length + 31) / 32) = true →
      ∃ t, exec (.mgmtUnit k u slots) s = .next t ∧ t.sent = .mgmt j { u with hops := u.hops + 1 } :: s.sent ∧ t = { s with regs := t.regs, sent := t.sent, ports := t.ports } ∧ s.sameRegs t [okey (0x4010 + j) 5 0]) ∧
    (u.local' = false → s.obj 0x4000 0 = 0xFFFF ∨ u.dst ≠ s.ownDevice → u.hops = 3 ∨ bitsOf (s.routeMask u.dst) 16 = [] →
      ∃ t, exec (.mgmtUnit k u slots) s = .next t ∧ t.obj (0x4010 + k) 0xF = min (s.obj (0x4010 + k) 0xF + 1) (2 ^ 32 - 1) ∧ s.sameRegs t [okey (0x4010 + k) 0xF 0] ∧ t = { s with regs := t.regs })) ∧
  (∀ (s : State) (k slots : Nat) (u : MgmtUnit), u.reserved = 0 → u.length = 0 ∨ 1536 < u.length ∨ 48 < slots ∨ slots ≠ (u.length + 31) / 32 ∨ 3 < u.hops →
    ∃ t, exec (.mgmtUnit k u slots) s = .next t ∧ t.obj (0x4010 + k) 0xF = min (s.obj (0x4010 + k) 0xF + 1) (2 ^ 32 - 1) ∧ s.sameRegs t [okey (0x4010 + k) 0xF 0] ∧ t = { s with regs := t.regs }) ∧
  (∀ (s : State) (k : Nat) (f : EthFrame), s.portState k ≠ 6 → exec (.ethFrameReceive k f) s = .next s) ∧
  (∀ (s : State) (k : Nat) (f : EthFrame), s.portState k = 6 →
    ∃ t, exec (.ethFrameReceive k f) s = .next t ∧ t = { s with regs := t.regs, sent := t.sent } ∧
      (f.fcsOk = false → t.sent = s.sent ∧ t.obj (0x4010 + k) 0x13 = min (s.obj (0x4010 + k) 0x13 + 1) (2 ^ 32 - 1) ∧ s.sameRegs t [okey (0x4010 + k) 0x13 0]) ∧
      (f.fcsOk = true → t.obj (0x4010 + k) 0x11 = min (s.obj (0x4010 + k) 0x11 + 1) (2 ^ 64 - 1) ∧ s.sameRegs t [okey (0x4010 + k) 0x11 0] ∧
        t.sent = if isTagged f.bytes = true ∨ f.bytes.length < 64 ∨ 9216 < f.bytes.length then s.sent
          else .frame k { f with stamp := if s.obj (0x4010 + k) 0x14 = 1 ∧ ptpEvent f.bytes = true then some s.tide else none } :: s.sent))

/-- For every queue command c (WAIT, SIGNAL, END, NOP, LOAD_STATIONARY, SWAP, PASS, the 14 VEC functions, the 6 MOVE operations, SET_HANDLE, SET_SENTINEL) of tile n and queue q: where the queue is neither RUNNING nor STALLED nor in its prologue, or is not free in that cycle, or the word at its head carries another opcode, exec changes nothing. NOP at the head of a queue that may issue it moves the pc on by one and occupies the queue for max(1, cycles) cycles. END moves the pc to the queue's entry and occupies it for 3 cycles. Both change registers and queues of that tile alone, and no register but those of that queue. SET_HANDLE at the head of Q-control stores its entry in 2100+n:20 where the entry is acceptable (an entry that is not valid clears the handle) and the old entry has no remote right, pc + 1; an entry with a reserved bit set, an empty mask or length, or rows beyond the bank's 1,024 halts Q-control in HALTED_FAULT with BAD_VALUE in 2100+n:32 and leaves the handle. SET_SENTINEL stores its word in 2100+n:12 for sentinel 0 to 2 where high is not 0xFF, low does not exceed high and the reserved bits are 0; a word outside these halts Q-control the same way. A halt leaves the pc. (R121, R122, R123, R124, R143, R53, R85, R88, R89, R125, R138) -/
def Obligations.QueueHeadsHandlesAndSentinels : Prop :=
  (∀ (s : State) (i : Instr) (n q c op : Nat), queueHead i = some (n, q, c, op) →
    s.mayIssue n q c = false ∨ (∃ w, s.cmdWord n (s.qPc n q) = some w ∧ opcodeOf w ≠ op) → exec i s = .next s) ∧
  (∀ (s : State) (n q c w : Nat), s.headIs n q c w → opcodeOf w = 0x04 →
    ∃ t, exec (.nop n q c) s = .next t ∧ s.issuedTo t n q (s.qPc n q + 1) (c + max 1 (fieldOf w 104 16)) ∧ s.onlyQueues t n ∧ s.sameRegs t (queueKeys n q)) ∧
  (∀ (s : State) (n q c w : Nat), s.headIs n q c w → opcodeOf w = 0x03 →
    ∃ t, exec (.queueEnd n q c) s = .next t ∧ s.issuedTo t n q (s.qEntry n q) (c + 3) ∧ (t.queue n q).deferred = (s.queue n q).deferred ∧
      (t.queue n q).moveBad = none ∧ s.onlyQueues t n ∧ s.sameRegs t (queueKeys n q)) ∧
  (∀ (s : State) (n c w : Nat), s.headIs n 3 c w → opcodeOf w = 0x40 →
    (bitOf (s.handle n (fieldOf w 64 6)) 56 = false → bitOf (s.handle n (fieldOf w 64 6)) 55 = false → fieldOf w 52 3 = 0 → fieldOf w 0 16 = 0 →
      (bitOf (fieldOf w 0 64) 63 = true → 0 < popCount (fieldOf w 40 12) 12 ∧ 0 < fieldOf w 26 14 ∧ fieldOf w 26 14 ≤ 12288 ∧
        fieldOf w 16 10 + (fieldOf w 26 14 + popCount (fieldOf w 40 12) 12 - 1) / popCount (fieldOf w 40 12) 12 ≤ 1024) →
      ∃ t, exec (.setHandle n c) s = .next t ∧ s.issuedTo t n 3 (s.qPc n 3 + 1) (c + 1) ∧
        t.handle n (fieldOf w 64 6) = (if bitOf (fieldOf w 0 64) 63 = true then fieldOf w 0 64 else 0) ∧
        s.onlyQueues t n ∧ s.sameRegs t (okey (tileIx n) 0x20 (fieldOf w 64 6) :: queueKeys n 3)) ∧
    (s.isTwin n = false → (fieldOf w 52 3 ≠ 0 ∨ fieldOf w 0 16 ≠ 0 ∨ (bitOf (fieldOf w 0 64) 63 = true ∧
        (popCount (fieldOf w 40 12) 12 = 0 ∨ fieldOf w 26 14 = 0 ∨ 12288 < fieldOf w 26 14))) →
      ∃ t, exec (.setHandle n c) s = .next t ∧ t.qState n 3 = 4 ∧ t.obj (tileIx n) 0x32 3 = stBadValue ∧ t.qPc n 3 = s.qPc n 3 ∧
        t.handle n (fieldOf w 64 6) = s.handle n (fieldOf w 64 6) ∧ t.tiles = s.tiles)) ∧
  (∀ (s : State) (n c w : Nat), s.headIs n 3 c w → opcodeOf w = 0x41 →
    (fieldOf w 32 2 < 3 → fieldOf w 8 8 ≠ 0xFF → fieldOf w 0 8 ≤ fieldOf w 8 8 → bitOf w 31 = false → fieldOf w 16 6 = 0 →
      ∃ t, exec (.setSentinel n c) s = .next t ∧ s.issuedTo t n 3 (s.qPc n 3 + 1) (c + 1) ∧ t.obj (tileIx n) 0x12 (fieldOf w 32 2) = fieldOf w 0 32 ∧
        s.onlyQueues t n ∧ s.sameRegs t (okey (tileIx n) 0x12 (fieldOf w 32 2) :: queueKeys n 3)) ∧
    (s.isTwin n = false → (fieldOf w 32 2 = 3 ∨ fieldOf w 8 8 = 0xFF ∨ fieldOf w 8 8 < fieldOf w 0 8) →
      ∃ t, exec (.setSentinel n c) s = .next t ∧ t.qState n 3 = 4 ∧ t.obj (tileIx n) 0x32 3 = stBadValue ∧ t.qPc n 3 = s.qPc n 3 ∧ t.tiles = s.tiles ∧
        ∀ i, t.obj (tileIx n) 0x12 i = s.obj (tileIx n) 0x12 i))

/-- WAIT at the head of its queue, with g its gauge, issues (pc + 1, one cycle) where the gauge's value at the beginning of the cycle less the threshold, modulo 2^32, lies below 2^31, and otherwise leaves the pc, makes the queue STALLED and shows gauge and threshold in the wait target. The threshold is base + per_step * k modulo 2^32 with k the step register less the job's first step; at the queue's entry k is the next step after the pass that ended, while the register still holds that pass's step (DEDUCED, log entry 6). Neither changes a gauge. QUEUE_WATCHDOG_FIRE of a queue that is not STALLED, or whose wait is met or has not lasted the job's limit, changes nothing; of a STALLED queue of a tile that is no twin, at a head that is no WAIT, whose wait has lasted the limit and is not met, it makes the queue HALTED_TIMEOUT, records TIMEOUT in 2100+n:32, counts it in 2100+n:36, reports it, and leaves tiles and memory as they were. (R126, R127, R142, R197, R217, R239) -/
def Obligations.WaitIssuesAtTheThreshold : Prop :=
  (∀ (s : State) (n q c w : Nat), s.headIs n q c w → opcodeOf w = 0x01 →
    ∃ t k, exec (.wait n q c) s = .next t ∧
      (s.qPc n q ≠ s.qEntry n q ∨ (s.queue n q).ended = none → k = s.stepOffset n) ∧
      (s.qPc n q = s.qEntry n q → (s.queue n q).ended = some (s.stepOffset n) → k = (s.stepOffset n + 1) % 2 ^ 32) ∧
      s.onlyQueues t n ∧ s.sameRegs t (queueKeys n q) ∧
      (if (s.gaugeAt n (fieldOf w 112 7) c % 2 ^ 32 + 2 ^ 32 - (fieldOf w 64 32 + fieldOf w 96 16 * k) % 2 ^ 32) % 2 ^ 32 < 2 ^ 31 then
        s.issuedTo t n q (s.qPc n q + 1) (c + 1)
      else t.qState n q = 3 ∧ t.qPc n q = s.qPc n q ∧ t.obj (tileIx n) 0x33 q ≠ 0 ∧
        t.obj (tileIx n) 0x34 q = 2 ^ 39 + 2 ^ 32 * fieldOf w 112 7 + (fieldOf w 64 32 + fieldOf w 96 16 * k) % 2 ^ 32)) ∧
  (∀ (s : State) (n q c : Nat), s.qState n q ≠ 3 ∨ s.waitedOut n q = false ∨ s.waitMet n q c = true → exec (.queueWatchdogFire n ⟨q, c⟩) s = .next s) ∧
  (∀ (s : State) (n q c w : Nat), s.qState n q = 3 → s.cmdWord n (s.qPc n q) = some w → opcodeOf w ≠ 1 → s.waitedOut n q = true → s.waitMet n q c = false → s.isTwin n = false →
    ∃ t, exec (.queueWatchdogFire n ⟨q, c⟩) s = .next t ∧ t.qState n q = 5 ∧ t.qPc n q = s.qPc n q ∧ t.obj (tileIx n) 0x32 q = stTimeout ∧
      t.obj (tileIx n) 0x36 = min (s.obj (tileIx n) 0x36 + 1) (2 ^ 32 - 1) ∧ t.tiles = s.tiles ∧ t.hbm = s.hbm ∧ t.ddr = s.ddr ∧ t.sent ≠ s.sent)

/-- A local SIGNAL at the head of Q-array, Q-vector or Q-move with fewer than 8 signals deferred issues in one cycle and joins the end of its queue's deferred signals, with its gauge and amount, changing no gauge; with 8 deferred the queue is STALLED at it. In Q-control of a tile whose gauge unit is live it adds its amount to the own gauge modulo 2^32, counts it in 2100+n:64 and records own device, logical tile and amount as the last signaller. SIGNAL_APPLY on a queue with none deferred, or in a FROZEN queue, changes nothing; in Q-vector with no vector command in progress it takes the oldest, whose cycle has come, and adds it to the gauge; where an earlier descriptor of Q-move failed since END and none is in progress it drops it and counts it in 2100+n:39, the gauges unchanged. (R124, R129, R174, R195) -/
def Obligations.SignalsAreDeferredAndApplied : Prop :=
  (∀ (s : State) (n q c w : Nat), q < 3 → s.headIs n q c w → opcodeOf w = 0x02 → bitOf w 119 = false →
    ((s.queue n q).deferred.length < 8 → ∃ t d, exec (.signal n q c) s = .next t ∧ s.issuedTo t n q (s.qPc n q + 1) (c + 1) ∧
      (t.queue n q).deferred = (s.queue n q).deferred ++ [d] ∧ d.far = false ∧ d.gauge = fieldOf w 112 7 ∧ d.add = fieldOf w 96 16 ∧
      s.onlyQueues t n ∧ s.sameRegs t (queueKeys n q)) ∧
    (8 ≤ (s.queue n q).deferred.length → ∃ t, exec (.signal n q c) s = .next t ∧ t.qState n q = 3 ∧ t.qPc n q = s.qPc n q ∧ s.onlyQueues t n ∧
      s.sameRegs t (queueKeys n q))) ∧
  (∀ (s : State) (n c w : Nat), s.headIs n 3 c w → opcodeOf w = 0x02 → bitOf w 119 = false → (s.queue n 3).deferred.length < 8 → (s.tile n).gau.st = .live →
    ∃ t, exec (.signal n 3 c) s = .next t ∧ s.issuedTo t n 3 (s.qPc n 3 + 1) (c + 1) ∧
      (t.gauge n (fieldOf w 112 7)).value = ((s.gauge n (fieldOf w 112 7)).value + fieldOf w 96 16) % 2 ^ 32 ∧
      (t.gauge n (fieldOf w 112 7)).device = s.ownDevice ∧ (t.gauge n (fieldOf w 112 7)).logical = s.logicalOf n ∧ (t.gauge n (fieldOf w 112 7)).add = fieldOf w 96 16 ∧
      (∀ g, g ≠ fieldOf w 112 7 → t.gauge n g = s.gauge n g) ∧ t.obj (tileIx n) 0x64 = min (s.obj (tileIx n) 0x64 + 1) (2 ^ 64 - 1) ∧
      s.onlyTile t n ∧ s.sameRegs t (okey (tileIx n) 0x64 0 :: queueKeys n 3)) ∧
  (∀ (s : State) (n q c : Nat), (s.queue n q).deferred = [] ∨ s.qState n q = 6 → exec (.signalApply n q c) s = .next s) ∧
  (∀ (s : State) (n c : Nat) (d : Deferred) (rest : List Deferred), (s.queue n 1).deferred = d :: rest → s.qState n 1 ≠ 6 → d.ready ≤ c → d.far = false →
      (s.tile n).vec = [] → (s.tile n).gau.st = .live →
    ∃ t, exec (.signalApply n 1 c) s = .next t ∧ (t.queue n 1).deferred = rest ∧ (t.gauge n d.gauge).value = ((s.gauge n d.gauge).value + d.add) % 2 ^ 32 ∧
      (∀ g, g ≠ d.gauge → t.gauge n g = s.gauge n g) ∧ s.onlyTile t n ∧ s.sameRegs t [okey (tileIx n) 0x64 0]) ∧
  (∀ (s : State) (n c : Nat) (d : Deferred) (rest : List Deferred), (s.queue n 2).deferred = d :: rest → s.qState n 2 ≠ 6 → (s.tile n).mov.descs = [] → d.far = false →
      (∃ id, (s.queue n 2).moveBad = some id ∧ id < d.ready) →
    ∃ t, exec (.signalApply n 2 c) s = .next t ∧ (t.queue n 2).deferred = rest ∧ t.obj (tileIx n) 0x39 = min (s.obj (tileIx n) 0x39 + 1) (2 ^ 32 - 1) ∧
      s.onlyQueues t n ∧ s.sameRegs t [okey (tileIx n) 0x39 0])

/-- LOAD_STATIONARY at the head of Q-array issues in one cycle where no load is in progress or unswapped, the format is one of the six narrow ones and both handles allow the rows under the stationary right; the load then waits with its format, handle entries, rows and condition, the live operand unchanged. While an earlier load is in progress the queue is STALLED. A format that is not narrow halts Q-array with BAD_VALUE. LOAD_STATIONARY_ROWS_START of a load whose condition is absent or met, whose rows decode clean, in a format other than T2, with the sentinel's bounds holding every scale code, puts format, rows and scales into the shadow registers, the crossing ending 95 cycles later; a load whose crossing has ended it completes; with no load, or the condition not met, it changes nothing. SWAP makes the shadow operand live once the crossing has ended (here without a sentinel event or a collision to report), holds the queue before that, and halts it with BAD_VALUE where nothing was loaded. (R68, R69, R70, R89, R124, R125, R131, R132) -/
def Obligations.StationaryOperandsLoadAndSwap : Prop :=
  (∀ (s : State) (n c w : Nat), s.headIs n 0 c w → opcodeOf w = 0x10 →
    ((s.tile n).arr.load = .idle → fieldOf w 116 4 < 6 →
      handleCheck (s.handle n (fieldOf w 54 6)) hrStationary (fieldOf w 40 14) 192 = none →
      handleCheck (s.handle n (fieldOf w 34 6)) hrStationary (fieldOf w 20 14) (if fieldOf w 116 4 = 3 then 12 else if fieldOf w 116 4 = 4 ∨ fieldOf w 116 4 = 5 then 6 else 24) = none →
      ∃ t r, exec (.loadStationary n c) s = .next t ∧ s.issuedTo t n 0 (s.qPc n 0 + 1) (c + 1) ∧ (t.tile n).arr = { (s.tile n).arr with load := .waiting r } ∧
        r.fmt = fieldOf w 116 4 ∧ r.eHandle = s.handle n (fieldOf w 54 6) ∧ r.eRow = fieldOf w 40 14 ∧ r.sHandle = s.handle n (fieldOf w 34 6) ∧ r.sRow = fieldOf w 20 14 ∧
        (bitOf w 115 = false → r.cond = none) ∧
        (bitOf w 115 = true → r.cond = some (fieldOf w 108 7, (fieldOf w 60 32 + fieldOf w 92 16 * s.stepOffset n) % 2 ^ 32)) ∧
        s.onlyTile t n ∧ s.sameRegs t (queueKeys n 0)) ∧
    ((s.tile n).arr.load ≠ .idle → ∃ t, exec (.loadStationary n c) s = .next t ∧ t.qState n 0 = 3 ∧ t.qPc n 0 = s.qPc n 0 ∧ s.onlyQueues t n ∧ s.sameRegs t (queueKeys n 0)) ∧
    ((s.tile n).arr.load = .idle → 6 ≤ fieldOf w 116 4 → s.isTwin n = false →
      ∃ t, exec (.loadStationary n c) s = .next t ∧ t.qState n 0 = 4 ∧ t.obj (tileIx n) 0x32 0 = stBadValue ∧ t.qPc n 0 = s.qPc n 0 ∧ t.tiles = s.tiles)) ∧
  (∀ (s : State) (n c : Nat) (hits : List Contest) (r : LoadReq), (s.tile n).arr.load = .waiting r →
    (∀ g v, r.cond = some (g, v) → reached (s.gaugeAt n g c) v = false → exec (.loadStationaryRowsStart n c hits) s = .next s)) ∧
  (∀ (s : State) (n c : Nat) (hits : List Contest), (s.tile n).arr.load = .idle → exec (.loadStationaryRowsStart n c hits) s = .next s) ∧
  (∀ (s : State) (n c : Nat) (r : LoadReq) (es ss : List Row), (s.tile n).arr.load = .waiting r → s.stopped n = false → (s.tile n).grants = [] → r.cond = none → r.fmt ≠ 2 →
      es.length = 192 → ss.length = scaleRows r.fmt → s.holds' n r.eHandle r.eRow es → s.holds' n r.sHandle r.sRow ss →
      (∀ x, x ∈ planeBytes ss (outputsOf r.fmt * bandsOf r.fmt) → fieldOf r.sentinel 0 8 ≤ x ∧ x ≤ fieldOf r.sentinel 8 8 ∧ x ≠ 0xFF) →
    ∃ t, exec (.loadStationaryRowsStart n c []) s = .next t ∧ (t.tile n).arr.load = .crossing (c + 95) none false ∧ (t.tile n).arr.live = (s.tile n).arr.live ∧
      (t.tile n).arr.shadow = { fmt := r.fmt, rows := pairRows es, scales := planeBytes ss (outputsOf r.fmt * bandsOf r.fmt) } ∧ s.onlyTile t n ∧ t.sent = s.sent ∧
      s.sameRegs t [okey (tileIx n) 0x16 0]) ∧
  (∀ (s : State) (n c last : Nat) (hits : List Contest), s.stopped n = false → (s.tile n).arr.load = .crossing last none false → last < c →
    ∃ t, exec (.loadStationaryRowsStart n c hits) s = .next t ∧ t.tile n = { s.tile n with arr := { (s.tile n).arr with load := .done } } ∧ s.onlyTile t n ∧ t.regs = s.regs) ∧
  (∀ (s : State) (n c w : Nat), s.headIs n 0 c w → opcodeOf w = 0x11 →
    ((s.tile n).arr.load = .idle → s.isTwin n = false →
      ∃ t, exec (.swap n c) s = .next t ∧ t.qState n 0 = 4 ∧ t.obj (tileIx n) 0x32 0 = stBadValue ∧ t.tiles = s.tiles) ∧
    ((s.tile n).arr.load = .done ∨ (∃ last, (s.tile n).arr.load = .crossing last none false ∧ last < c) →
      ∃ t, exec (.swap n c) s = .next t ∧ s.issuedTo t n 0 (s.qPc n 0 + 1) (c + 1) ∧ (t.tile n).arr.live = (s.tile n).arr.shadow ∧ (t.tile n).arr.load = .idle ∧ (t.tile n).arr.swapped = true ∧
        (t.tile n).arr.acc = (s.tile n).arr.acc ∧ s.onlyTile t n ∧ s.sameRegs t (queueKeys n 0)) ∧
    (∀ last act met, (s.tile n).arr.load = .crossing last act met → c ≤ last →
      ∃ t, exec (.swap n c) s = .next t ∧ t.qState n 0 = 3 ∧ t.qPc n 0 = s.qPc n 0 ∧ s.onlyQueues t n))

/-- PASS before any SWAP since the job load halts Q-array with BAD_VALUE. PASS at the head after one, in a tile whose banks were not contested, accepted by its operands, with its handles allowing the rows under the streaming right, all groups on and no ramp-down begun, its rows clean and its sentinel's bounds holding every scale code, issues: the pc moves on by one, Q-array is occupied for M times the cycles per row, M folds are added in row order, each landing L cycles after the last issue cycle of its row, the accumulator file is unchanged, and the busy cycles are counted in 2100+n:1B. With all groups off it changes nothing but the waiting list of its rail group. FOLD_LAND in a cycle before the oldest fold's, with none in flight, or in a closed or retired tile changes nothing. At or after that cycle it takes that fold (here one that does not complete a PASS with a sentinel event or a collision), and for fold 0 or 1 (overwrite or accumulate) over up to 128 outputs entry j of slot + row holds the fused fold of output j's segments, from 0 or from the old entry; no other slot changes. (R62, R64, R72, R73, R74, R76, R133) -/
def Obligations.PassesStreamAndFoldsLand : Prop :=
  (∀ (s : State) (n c w : Nat), s.headIs n 0 c w → opcodeOf w = 0x12 → (s.tile n).arr.swapped = false → s.isTwin n = false →
    ∃ t, exec (.pass n c []) s = .next t ∧ t.qState n 0 = 4 ∧ t.obj (tileIx n) 0x32 0 = stBadValue ∧ t.qPc n 0 = s.qPc n 0 ∧ t.tiles = s.tiles) ∧
  (∀ (s : State) (n c w : Nat) (es ss : List Row), s.headIs n 0 c w → opcodeOf w = 0x12 → (s.tile n).arr.swapped = true → (s.tile n).grants = [] →
      passOk (s.tile n).arr.live.fmt (fieldOf w 118 2) (fieldOf w 115 3) (fieldOf w 111 4) (bitOf w 110) (bitOf w 109) (bitOf w 108) (fieldOf w 94 14) (fieldOf w 84 10) = true →
      es.length = streamRows (fieldOf w 111 4) (fieldOf w 94 14) → ss.length = (fieldOf w 94 14 * streamScales (fieldOf w 111 4) + 31) / 32 →
      s.reads n (fieldOf w 78 6) hrStream (fieldOf w 64 14) es → s.reads n (fieldOf w 58 6) hrStream (fieldOf w 44 14) ss →
    ((s.tile n).arr.ramp.up = true → (s.tile n).arr.ramp.downAt = none → 0 < fieldOf w 94 14 →
      (∀ x, x ∈ planeBytes ss (fieldOf w 94 14 * streamScales (fieldOf w 111 4)) → fieldOf (s.obj (tileIx n) 0x12 1) 0 8 ≤ x ∧ x ≤ fieldOf (s.obj (tileIx n) 0x12 1) 8 8 ∧ x ≠ 0xFF) →
      ∃ t start fs, exec (.pass n c []) s = .next t ∧ start = max c (s.tile n).arr.ramp.full ∧
        s.issuedTo t n 0 (s.qPc n 0 + 1) (start + fieldOf w 94 14 * rowCycles (fieldOf w 111 4)) ∧
        (t.tile n).arr.folds = (s.tile n).arr.folds ++ fs ∧ fs.length = fieldOf w 94 14 ∧
        (∀ m, m < fieldOf w 94 14 → ∃ f, fs[m]? = some f ∧ f.row = m ∧ f.fold = fieldOf w 115 3 ∧ f.slot = fieldOf w 84 10 ∧ f.act = none ∧ f.collided = false ∧
          f.lands = start + m * rowCycles (fieldOf w 111 4) + (rowCycles (fieldOf w 111 4) - 1) + passLatency (s.tile n).arr.live.fmt (fieldOf w 111 4)) ∧
        (t.tile n).arr.acc = (s.tile n).arr.acc ∧ (t.tile n).arr.live = (s.tile n).arr.live ∧ (t.tile n).spad = (s.tile n).spad ∧
        t.obj (tileIx n) 0x1B = min (s.obj (tileIx n) 0x1B + fieldOf w 94 14 * rowCycles (fieldOf w 111 4)) (2 ^ 64 - 1) ∧
        s.onlyTile t n ∧ s.sameRegs t (okey (tileIx n) 0x1B 0 :: okey (tileIx n) 0x1C 0 :: queueKeys n 0)) ∧
    ((s.tile n).arr.ramp.up = false → ∃ t, exec (.pass n c []) s = .next t ∧ t = { s with slopes := t.slopes })) ∧
  (∀ (s : State) (n c : Nat), (∀ f rest, (s.tile n).arr.folds = f :: rest → c < f.lands) ∨ s.stopped n = true → exec (.foldLand n c) s = .next s) ∧
  (∀ (s : State) (n c : Nat) (f : Fold) (rest : List Fold), (s.tile n).arr.folds = f :: rest → f.lands ≤ c → s.stopped n = false → f.act = none → f.collided = false → f.fold < 2 → f.outs.length ≤ 128 →
    ∃ t, exec (.foldLand n c) s = .next t ∧ (t.tile n).arr.folds = rest ∧ s.onlyTile t n ∧
      (∀ j, j < f.outs.length → accGet (t.tile n).arr.acc (f.slot + f.row) j =
        (foldSegments (if f.fold = 1 then accGet (s.tile n).arr.acc (f.slot + f.row) j else 0) (f.outs.getD j [])).acc) ∧
      (∀ slot j, slot ≠ f.slot + f.row ∨ f.outs.length ≤ j → accGet (t.tile n).arr.acc slot j = accGet (s.tile n).arr.acc slot j))

/-- ARRAY_RAMP_UP of a tile, neither closed nor retired, that is first in its rail group's waiting list, with room for 3 A more in the trailing microsecond of the group's slope budget, leaves the list, adds one charge at the present count, counts 2100+n:19, and turns the groups on, all of them after the ramp length; of another tile, or without room, it changes nothing. ARRAY_RAMP_DOWN of such a tile whose groups are on and whose last row issued more than the ramp length ago starts the ramp-down in that cycle and counts the held cycles in 2100+n:1C; otherwise it changes nothing. Neither touches anything else. (R76, R437) -/
def Obligations.ArrayRamps : Prop :=
  (∀ (s : State) (n c : Nat) (rest : List Nat), (Tbl.get s.slopes {} (fieldNo n)).waiting = n :: rest → s.stopped n = false →
      3 * (((Tbl.get s.slopes {} (fieldNo n)).charges.filter (fun t => decide (s.elapsed < t + 4000))).length + 1) ≤ s.obj (0x1110 + fieldNo n) 0 →
    ∃ t, exec (.arrayRampUp n c) s = .next t ∧ (Tbl.get t.slopes {} (fieldNo n)).waiting = rest ∧
      (Tbl.get t.slopes {} (fieldNo n)).charges = (Tbl.get s.slopes {} (fieldNo n)).charges.filter (fun t => decide (s.elapsed < t + 4000)) ++ [s.elapsed] ∧
      t.obj (tileIx n) 0x19 = min (s.obj (tileIx n) 0x19 + 1) (2 ^ 32 - 1) ∧
      t.tile n = { s.tile n with arr := { (s.tile n).arr with ramp := { (s.tile n).arr.ramp with up := true, full := c + (s.tile n).arr.ramp.len, last := 0, downAt := none } } } ∧
      t = { s with regs := t.regs, tiles := t.tiles, slopes := t.slopes } ∧ s.sameRegs t [okey (tileIx n) 0x19 0]) ∧
  (∀ (s : State) (n c : Nat), (Tbl.get s.slopes {} (fieldNo n)).waiting.head? ≠ some n ∨ s.stopped n = true ∨
      s.obj (0x1110 + fieldNo n) 0 < 3 * (((Tbl.get s.slopes {} (fieldNo n)).charges.filter (fun t => decide (s.elapsed < t + 4000))).length + 1) →
    exec (.arrayRampUp n c) s = .next s) ∧
  (∀ (s : State) (n c : Nat), (s.tile n).arr.ramp.up = true → s.stopped n = false → (s.tile n).arr.ramp.downAt = none → 0 < (s.tile n).arr.ramp.last →
      (s.tile n).arr.ramp.last + (s.tile n).arr.ramp.len < c →
    ∃ t, exec (.arrayRampDown n c) s = .next t ∧
      t.tile n = { s.tile n with arr := { (s.tile n).arr with ramp := { (s.tile n).arr.ramp with downAt := some c } } } ∧
      t.obj (tileIx n) 0x1C = min (s.obj (tileIx n) 0x1C + (s.tile n).arr.ramp.len) (2 ^ 64 - 1) ∧ s.onlyTile t n ∧ s.sameRegs t [okey (tileIx n) 0x1C 0]) ∧
  (∀ (s : State) (n c : Nat), (s.tile n).arr.ramp.up = false ∨ s.stopped n = true ∨ (s.tile n).arr.ramp.downAt ≠ none ∨ (s.tile n).arr.ramp.last = 0 ∨
      c ≤ (s.tile n).arr.ramp.last + (s.tile n).arr.ramp.len → exec (.arrayRampDown n c) s = .next s)

/-- With no earlier vector command in progress and no contested bank, sources that pass their handle checks and decode clean (or lie in the accumulator file, no fold being in flight), and a destination that passes its check, each of these commands issues: pc + 1, one vector command in progress whose rows to write hold, in element order, for CONVERT the element in the other wide format, for ADD the sum and for MUL (aux bit 1 clear) the product of a and b rounded once, with b reused by groups of 64 where aux bit 0 is set, for MAX and MIN the larger or smaller (NaN if either is), for ACT the activation of a that aux selects, for DEQUANT the element of the narrow format with its block's scale. The scratchpad is unchanged until the write completes; registers other than Q-vector's and its counters (2100+n:16 for DEQUANT) are unchanged. (R146, R147, R148, R149, R151, R152, R153, R154) -/
def Obligations.VectorElementwise : Prop :=
  (∀ (s : State) (n c : Nat) (v : VecWord) (xs : List F32), s.vecSource n v 0 (64 * v.count) xs →
    (s.vecHead n c 0x01 v → isWide v.fmtOut = true → v.fmtIn ≠ v.fmtOut → v.aux = 0 →
      ∀ ds, ds = packWide v.fmtOut (xs.map (toFmt (v.fmtOut == fmtBF16))) → handleCheck (s.handle n v.dHandle) hrVecWrite v.dRow ds.length = none →
      ∃ t, exec (.vecConvert n c []) s = .next t ∧ s.vecIssued t n (s.placed n v.dHandle v.dRow ds) []) ∧
    (s.vecHead n c 0x08 v → isWide v.fmtOut = true → v.aux < 10 →
      ∀ ds, ds = packWide v.fmtOut (xs.map (fun x => if v.aux = 9 then ((decodeF32 x).mul (decodeF32 x)).round (v.fmtOut == fmtBF16) else toFmt (v.fmtOut == fmtBF16) (actF32 v.aux x))) →
      handleCheck (s.handle n v.dHandle) hrVecWrite v.dRow ds.length = none →
      ∃ t, exec (.vecAct n c []) s = .next t ∧ s.vecIssued t n (s.placed n v.dHandle v.dRow ds) []) ∧
    (∀ (bs : List Row) (i : Instr) (f : F32 → F32 → Nat) (ds : List Row), isWide v.fmtOut = true → v.aux < 2 →
      bs.length = rowsFor v.fmtIn (if bitOf v.aux 0 = true then 64 else 64 * v.count) → s.reads n v.bHandle hrVecRead v.bRow bs →
      (i = .vecAdd n c [] ∧ s.vecHead n c 0x04 v ∧ f = (fun x y => ((decodeF32 x).add (decodeF32 y)).round (v.fmtOut == fmtBF16)) ∨
       i = .vecMul n c [] ∧ s.vecHead n c 0x05 v ∧ f = (fun x y => ((decodeF32 x).mul (decodeF32 y)).round (v.fmtOut == fmtBF16)) ∨
       i = .vecMax n c [] ∧ s.vecHead n c 0x06 v ∧ f = (fun x y => toFmt (v.fmtOut == fmtBF16) (pickF32 true x y)) ∨
       i = .vecMin n c [] ∧ s.vecHead n c 0x07 v ∧ f = (fun x y => toFmt (v.fmtOut == fmtBF16) (pickF32 false x y))) →
      ds = packWide v.fmtOut ((List.range (64 * v.count)).map (fun j => f (xs.getD j 0)
        ((wideElems v.fmtIn bs (if bitOf v.aux 0 = true then 64 else 64 * v.count)).getD (if bitOf v.aux 0 = true then j % 64 else j) 0))) →
      handleCheck (s.handle n v.dHandle) hrVecWrite v.dRow ds.length = none →
      ∃ t, exec i s = .next t ∧ s.vecIssued t n (s.placed n v.dHandle v.dRow ds) [])) ∧
  (∀ (s : State) (n c : Nat) (v : VecWord) (es ss ds : List Row), s.vecHead n c 0x0C v → v.fmtIn < 6 → isWide v.fmtOut = true → v.aux = 0 → v.aAcc = false →
      es.length = rowsFor v.fmtIn (64 * v.count) → ss.length = (64 * v.count / blockSize v.fmtIn + 31) / 32 →
      s.reads n v.aHandle hrVecRead v.aRow es → s.reads n v.bHandle hrVecRead v.bRow ss →
      ds = packWide v.fmtOut ((List.range (64 * v.count)).map (fun j => toFmt (v.fmtOut == fmtBF16)
        (dequantElem v.fmtIn (planeByte ss (j / blockSize v.fmtIn)) (elemCode v.fmtIn es j)))) →
      handleCheck (s.handle n v.dHandle) hrVecWrite v.dRow ds.length = none →
    ∃ t, exec (.vecDequant n c []) s = .next t ∧ s.vecIssued t n (s.placed n v.dHandle v.dRow ds) [okey (tileIx n) 0x16 0])

/-- Under the same conditions REQUANT writes the codes of its elements to d and the block scales to b, each scale the least that holds its block, with the draw of stream 0 at the flat index where rnd is set; RANDOM writes for each index the draw's upper 32 bits, its upper 24 bits over 2^24, or the Gumbel value; SPILL_FIX of M4 operands without spill planes, from row 0, writes the FP32 values of its source. VEC_WRITE_COMPLETE at or after the oldest command's last write, one that met no collision and no sentinel event, puts its rows, encoded, into the scratchpad, removes it and counts 2100+n:43; before that cycle, with none in progress, or in a closed or retired tile it changes nothing. (R47, R48, R49, R136, R149, R154, R161) -/
def Obligations.VectorRequantRandomAndCompletion : Prop :=
  (∀ (s : State) (n c : Nat) (v : VecWord) (xs : List F32) (scales : List Nat) (ds bs : List Row), s.vecSource n v 0 (64 * v.count) xs → s.vecHead n c 0x03 v →
      v.fmtOut < 6 → v.aux = 0 →
      scales = (List.range (64 * v.count / blockSize v.fmtOut)).map (fun b => scaleCode v.fmtOut ((xs.drop (b * blockSize v.fmtOut)).take (blockSize v.fmtOut))) →
      ds = packRows (elemBits v.fmtOut) (perRow v.fmtOut) ((List.range (64 * v.count)).map (fun j =>
        (requantElem v.fmtOut (scales.getD (j / blockSize v.fmtOut) 0) (xs.getD j 0) (if v.rnd = true then some (draw24 (s.drawAt n 0 v.site j)) else none)).1)) →
      bs = packRows 8 32 scales →
      handleCheck (s.handle n v.dHandle) hrVecWrite v.dRow ds.length = none → handleCheck (s.handle n v.bHandle) hrVecWrite v.bRow bs.length = none →
    ∃ t, exec (.vecRequant n c []) s = .next t ∧
      s.vecIssued t n (s.placed n v.dHandle v.dRow ds ++ s.placed n v.bHandle v.bRow bs)
        [okey (tileIx n) 0x11 0, okey (tileIx n) 0x13 2, okey (tileIx n) 0x14 2, okey (tileIx n) 0x15 2]) ∧
  (∀ (s : State) (n c : Nat) (v : VecWord) (ds : List Row), s.vecHead n c 0x0E v → isWide v.fmtOut = true → v.aux < 2 → (v.aux = 0 → v.fmtOut = fmtFP32) →
      ds = packWide v.fmtOut ((List.range (64 * v.count)).map (fun j =>
        if v.aux = 0 then (s.drawAt n 1 v.site j).toNat / 2 ^ 32 else (FVal.fin false ((s.drawAt n 1 v.site j).toNat / 2 ^ 40) (-24)).round (v.fmtOut == fmtBF16))) →
      handleCheck (s.handle n v.dHandle) hrVecWrite v.dRow ds.length = none →
    ∃ t, exec (.vecRandom n c []) s = .next t ∧ s.vecIssued t n (s.placed n v.dHandle v.dRow ds) []) ∧
  (∀ (s : State) (n c : Nat) (v : VecWord) (xs : List F32) (ps we wc ae ac ds : List Row) (p : SpillParam), s.vecHead n c 0x02 v → v.fmtIn = fmtFP32 → v.fmtOut = fmtFP32 → v.aux = 0 →
      ps.length = 1 → s.reads n v.bHandle hrVecRead v.bRow ps → p = spillParam (ps.getD 0 0).toNat → fieldOf (ps.getD 0 0).toNat 0 112 = 0 →
      p.wFmt = fmtM4 → p.aFmt = fmtM4 → p.wSp = false → p.aSp = false → p.m0 = 0 → s.vecSource n v 0 (128 * v.count) xs →
      we.length = 192 → s.reads n p.weHandle hrVecRead p.weRow we → wc.length = 24 → s.reads n p.wcHandle hrVecRead p.wcRow wc →
      ae.length = (96 * v.count + 63) / 64 → s.reads n p.aeHandle hrVecRead p.aeRow ae → ac.length = (6 * v.count + 31) / 32 → s.reads n p.acHandle hrVecRead p.acRow ac →
      ds = packWide fmtFP32 (xs.map BitVec.toNat) → handleCheck (s.handle n v.dHandle) hrVecWrite v.dRow ds.length = none →
    ∃ t, exec (.vecSpillFix n c []) s = .next t ∧ s.vecIssued t n (s.placed n v.dHandle v.dRow ds) [okey (tileIx n) 0x16 0]) ∧
  (∀ (s : State) (n c : Nat), (∀ r rest, (s.tile n).vec = r :: rest → c < r.lastWrite) ∨ s.stopped n = true → exec (.vecWriteComplete n c) s = .next s) ∧
  (∀ (s : State) (n c : Nat) (r : VecRun) (rest : List VecRun), (s.tile n).vec = r :: rest → r.lastWrite ≤ c → s.stopped n = false → r.act = none → r.collided = false →
    ∃ t, exec (.vecWriteComplete n c) s = .next t ∧ (t.tile n).vec = rest ∧ t.obj (tileIx n) 0x43 = min (s.obj (tileIx n) 0x43 + 1) (2 ^ 64 - 1) ∧
      (∀ a, (∀ w, w ∈ r.writes → w.1 * 1024 + w.2.1 ≠ a) → Tbl.get (t.tile n).spad 0 a = Tbl.get (s.tile n).spad 0 a) ∧
      (∀ w ws, r.writes = ws ++ [w] → Tbl.get (t.tile n).spad 0 (w.1 * 1024 + w.2.1) = encodeRow w.2.2) ∧
      t.tile n = { s.tile n with vec := rest, spad := (t.tile n).spad } ∧ s.onlyTile t n ∧ s.sameRegs t [okey (tileIx n) 0x43 0])

/-- Under the same conditions, with a parameter row that passes its checks (stride S a multiple of 64, 1 <= L <= S), each vector i starting at element i * S and having L elements: REDUCE (param 0) writes one FP32 result per vector, packed; SOFTMAX writes the softmax of vector i at element i * S of d; NORM without gain and offset writes the root-mean-square or layer norm of vector i there; TOPK writes two rows per vector, the values in selection order and their indices, unused values 0 and unused indices 0xFFFFFFFF (raw set). (R151, R156, R157, R158, R159, R160) -/
def Obligations.VectorRowwise : Prop :=
  ∀ (s : State) (n c : Nat) (v : VecWord) (ps : List Row) (w len stride : Nat) (vs : List (List F32)) (ds : List Row),
    ps.length = 1 → s.reads n v.bHandle hrVecRead v.bRow ps → w = (ps.getD 0 0).toNat → len = fieldOf w 0 16 → stride = fieldOf w 16 16 →
    fieldOf w 67 149 = 0 → 0 < len → 64 ≤ stride → stride % 64 = 0 → len ≤ stride →
    vs.length = v.count → (∀ i, i < v.count → s.vecSource n v (i * stride) len (vs.getD i [])) →
    (s.vecHead n c 0x09 v → v.fmtOut = fmtFP32 → v.aux < 6 → fieldOf w 32 32 = 0 →
      ds = packWide fmtFP32 (vs.map (fun xs => (reduceF32 v.aux xs).1)) → handleCheck (s.handle n v.dHandle) hrVecWrite v.dRow ds.length = none →
      ∃ t, exec (.vecReduce n c []) s = .next t ∧ s.vecIssued t n (s.placed n v.dHandle v.dRow ds) [okey (tileIx n) 0x41 0]) ∧
    (s.vecHead n c 0x0A v → isWide v.fmtOut = true → v.aux = 0 →
      (∀ i, i < v.count → handleCheck (s.handle n v.dHandle) hrVecWrite (v.dRow + i * stride / perRow v.fmtOut) (rowsFor v.fmtOut len) = none) →
      ∃ t, exec (.vecSoftmax n c []) s = .next t ∧
        s.vecIssued t n ((vs.zipIdx).flatMap (fun x => s.placed n v.dHandle (v.dRow + x.2 * stride / perRow v.fmtOut)
          (packWide v.fmtOut ((softmaxF32 (if fieldOf w 32 32 = 0 then 0x3F800000#32 else BitVec.ofNat 32 (fieldOf w 32 32)) x.1).map (toFmt (v.fmtOut == fmtBF16)))))) []) ∧
    (s.vecHead n c 0x0B v → isWide v.fmtOut = true → v.aux < 2 → bitOf w 65 = false → bitOf w 66 = false →
      (∀ i, i < v.count → handleCheck (s.handle n v.dHandle) hrVecWrite (v.dRow + i * stride / perRow v.fmtOut) (rowsFor v.fmtOut len) = none) →
      ∃ t, exec (.vecNorm n c []) s = .next t ∧
        s.vecIssued t n ((vs.zipIdx).flatMap (fun x => s.placed n v.dHandle (v.dRow + x.2 * stride / perRow v.fmtOut)
          (packWide v.fmtOut ((normF32 (v.aux == 1) (BitVec.ofNat 32 (fieldOf w 32 32)) none none x.1).map (toFmt (v.fmtOut == fmtBF16)))))) []) ∧
    (s.vecHead n c 0x0D v → v.fmtOut = fmtFP32 → 1 ≤ v.aux → v.aux ≤ 8 → bitOf w 64 = true →
      (∀ i, i < v.count → handleCheck (s.handle n v.dHandle) hrVecWrite (v.dRow + 2 * i) 2 = none) →
      ∃ t, exec (.vecTopk n c []) s = .next t ∧
        s.vecIssued t n ((vs.zipIdx).flatMap (fun x =>
          let sel := topF32 v.aux ((x.1.zipIdx).filter (fun y => !isNaN32 y.1))
          s.placed n v.dHandle (v.dRow + 2 * x.2)
            (packRows 32 8 (sel.map (fun y => y.1.toNat) ++ List.replicate (8 - sel.length) 0) ++ packRows 32 8 (sel.map (·.2) ++ List.replicate (8 - sel.length) 0xFFFFFFFF)))) [okey (tileIx n) 0x41 0])

/-- MOVE at the head of Q-move, its descriptor row readable and clean, fewer than 8 descriptors in progress and the descriptor accepted, issues in one cycle and the descriptor enters progress. FILL writes the pattern row to every destination row and COPY the source rows to the destination rows, later rows winning, and neither changes any other row. PUT, GET, LOAD and STORE of at most 8 rows that one request carries, with no other descriptor and no request in progress or waiting, in no twin run, send exactly one packet of the type WRITE, READ, MEM_READ or MEM_WRITE with the row count, the far address and (PUT, STORE) the encoded rows, and hold one tracking entry for it. A descriptor that fails its checks issues too, enters no progress and is recorded in 2100+n:2B. DESCRIPTOR_COMPLETE takes a descriptor whose requests have all completed and that met no collision, on a tile that is neither CLOSED nor RETIRED, adding its own-tile signal where it ended OK; before its requests have completed it changes nothing. (R95, R96, R106, R107, R112, R113, R124, R137, R175) -/
def Obligations.MovesInsideAndOutOfATile : Prop :=
  (∀ (s : State) (n c : Nat) (d : Row) (i : Instr) (src : List Row), s.moveHead n c d → s.descCheck n d = none →
      (i = .moveFill n c [] ∧ dOp d = 1 ∧ (∃ pat, s.holds' n (s.handle n (farHandle (dFar d))) (farRow (dFar d)) [pat] ∧ src = List.replicate (dRows d) pat)) ∨
      (i = .moveCopy n c [] ∧ dOp d = 2 ∧ src.length = dRows d ∧ s.holds' n (s.handle n (farHandle (dFar d))) (farRow (dFar d)) src) →
    ∃ t x, exec i s = .next t ∧ s.issuedTo t n 2 (s.qPc n 2 + 1) (c + 1) ∧ (t.tile n).mov.descs = (s.tile n).mov.descs ++ [x] ∧ x.word = d ∧ x.asked = dRows d ∧
      (∀ k, k < dRows d → (∀ j, k < j → j < dRows d → spadKey (s.handle n (dHandle d)) (dRow d + j) ≠ spadKey (s.handle n (dHandle d)) (dRow d + k)) →
        Tbl.get (t.tile n).spad 0 (spadKey (s.handle n (dHandle d)) (dRow d + k)) = encodeRow (src.getD k 0)) ∧
      (∀ a, (∀ k, k < dRows d → a ≠ spadKey (s.handle n (dHandle d)) (dRow d + k)) →
        Tbl.get (t.tile n).spad 0 a = Tbl.get (s.tile n).spad 0 a) ∧
      s.onlyTile t n ∧ s.sameRegs t (queueKeys n 2)) ∧
  (∀ (s : State) (n c pos : Nat) (d : Row) (i : Instr) (ty : Ptype) (src : List Row), s.moveHead n c d → s.descCheck n d = none → (s.tile n).mov.descs = [] → (s.tile n).mov.tracks = [] → (s.tile n).mov.waits = none →
      dRows d ≤ 8 → requestRows d 0 = dRows d → s.requestDest n d 0 0 = .ok pos → s.isTwin n = false → s.inTwin n = false →
      (i = .movePut n c [] ∧ dOp d = 3 ∧ ty = .write ∨ i = .moveGet n c [] ∧ dOp d = 4 ∧ ty = .read ∨
       i = .moveLoad n c [] ∧ dOp d = 5 ∧ ty = .memRead ∨ i = .moveStore n c [] ∧ dOp d = 6 ∧ ty = .memWrite) →
      (if dOp d = 3 ∨ dOp d = 6 then src.length = dRows d ∧ s.holds' n (s.handle n (dHandle d)) (dRow d) src else src = []) →
    ∃ t p, exec i s = .next t ∧ s.issuedTo t n 2 (s.qPc n 2 + 1) (c + 1) ∧ t.sent = .packet n false p :: s.sent ∧
      p.ptype = ty ∧ p.rows = dRows d ∧ p.farAddr = BitVec.ofNat 64 (dFar d) ∧ p.data = src.map encodeRow ∧ p.tag = 0 ∧ (p.dstX, p.dstY) = (xOf pos, yOf pos) ∧
      p.srcDevice = s.ownDevice ∧ p.srcLogical = s.logicalOf n ∧ (t.tile n).mov.tracks.length = 1 ∧ t.obj (tileIx n) 0x27 = 1 ∧
      (t.tile n).mov.descs.length = 1 ∧ (t.tile n).spad = (s.tile n).spad ∧ (t.tile n).gau = (s.tile n).gau ∧
      t = { s with regs := t.regs, tiles := t.tiles, sent := t.sent } ∧ (∀ m, m ≠ n → t.tile m = s.tile m) ∧ s.sameRegs t (okey (tileIx n) 0x27 0 :: queueKeys n 2)) ∧
  (∀ (s : State) (n c st : Nat) (d : Row), s.moveHead n c d → s.descCheck n d = some st → dOp d = 4 →
    ∃ t, exec (.moveGet n c []) s = .next t ∧ s.issuedTo t n 2 (s.qPc n 2 + 1) (c + 1) ∧ t.obj (tileIx n) 0x2B = st ∧ (t.tile n).mov = { (s.tile n).mov with nextId := (s.tile n).mov.nextId + 1 } ∧
      (t.tile n).spad = (s.tile n).spad ∧ t.hbm = s.hbm ∧ t.ddr = s.ddr) ∧
  (∀ (s : State) (n id c : Nat), (∀ d, d ∈ (s.tile n).mov.descs → d.id = id → (d.asked < dRows d.word ∧ d.discard = false) ∨ ∃ t, t ∈ (s.tile n).mov.tracks ∧ t.desc = id) →
    exec (.descriptorComplete n id c) s = .next s) ∧
  (∀ (s : State) (n c : Nat) (d : MoveDesc), (s.tile n).mov.descs = [d] → (s.tile n).mov.tracks = [] → dRows d.word ≤ d.asked → d.discard = false → d.told = false → d.collided = false → d.status = 0 → s.stopped n = false → (s.tile n).gau.st = .live →
    ∃ t, exec (.descriptorComplete n d.id c) s = .next t ∧ (t.tile n).mov = { (s.tile n).mov with descs := [] } ∧ s.onlyTile t n ∧ s.sameRegs t [okey (tileIx n) 0x64 0] ∧
      (∀ g, (t.gauge n g).value = if dSigEn d.word = true ∧ dSigFar d.word = false ∧ g = dSigGauge d.word then ((s.gauge n g).value + dSigAdd d.word) % 2 ^ 32 else (s.gauge n g).value))

/-- READ_PACKET, WRITE_PACKET and SIGNAL_PACKET with an intact header, no reserved bit set, no bank contested and no packet held before the port: where the check of R111 does not pass, the tile answers STATUS with that status and changes nothing else. An admitted READ joins an open merge or begins one; nothing is sent yet. An admitted WRITE that is no counted transfer, with a clean payload and no signal, no twin following and no write held, writes its rows behind the named handle, leaves the other rows and the gauges, and is acknowledged. An admitted SIGNAL of the tile's own job adds its amount to the gauge modulo 2^32 and is acknowledged. PENDING_HOLD_RELEASE with nothing held, or with the first held packet still waiting for an entry, changes nothing; with one WRITE held, a counted transfer without its signal that passes its check, and an entry free, it takes the lowest free entry for the transfer, counts the bytes landed, acknowledges the WRITE and holds nothing more. (R94, R111, R169, R171, R195, R199, R205) -/
def Obligations.RequestsAtFabricRemote : Prop :=
  (∀ (s : State) (n st : Nat) (p : Packet) (i : Instr) (r : Option Nat),
      (i = .readPacket n p [] ∧ r = some hrRemoteRead ∨ i = .writePacket n p [] ∧ r = some hrRemoteWrite ∨ i = .signalPacket n p ∧ r = none) → s.enters n p → s.remoteCheck n p r = st → st ≠ stOk →
    ∃ t a, exec i s = .next t ∧ t = { s with tiles := t.tiles, sent := .packet n true a :: s.sent } ∧ (∀ m, t.tile m = s.tile m) ∧ a.ptype = .status ∧ a.status = st ∧ a.tag = p.tag ∧ a.farAddr = p.farAddr ∧ (a.dstX, a.dstY) = (p.srcX, p.srcY)) ∧
  (∀ (s : State) (n : Nat) (p : Packet), s.enters n p → s.remoteCheck n p (some hrRemoteRead) = stOk →
    ∃ t, exec (.readPacket n p []) s = .next t ∧ t.sent = s.sent ∧ s.onlyTile t n ∧ t.tile n = { s.tile n with merges := (t.tile n).merges } ∧ s.sameRegs t [okey (tileIx n) 0x55 0] ∧
      ((s.tile n).merges = [] → ∃ m, (t.tile n).merges = [m] ∧ m.reqs = [{ p with ptype := .read }] ∧ m.addr = p.farAddr.toNat ∧ m.rows = p.rows ∧ m.opened = s.elapsed)) ∧
  (∀ (s : State) (n : Nat) (p : Packet) (ds : List Row), s.enters n p → s.remoteCheck n p (some hrRemoteWrite) = stOk → p.xferId = 0 → p.sigEn = false →
      p.data.map decodeWord = ds.map Decoded.clean → s.twinOf n = none →
    ∃ t a, exec (.writePacket n p []) s = .next t ∧ t.sent = .packet n true a :: s.sent ∧ a.ptype = .ack ∧ a.tag = p.tag ∧ (a.dstX, a.dstY) = (p.srcX, p.srcY) ∧
      (∀ x rest, ds = rest ++ [x] → Tbl.get (t.tile n).spad 0
        (spadKey (s.handle n (farHandle p.farAddr.toNat)) (farRow p.farAddr.toNat + rest.length)) = encodeRow x) ∧
      (∀ b, (∀ k, k < ds.length → b ≠ spadKey (s.handle n (farHandle p.farAddr.toNat)) (farRow p.farAddr.toNat + k)) →
        Tbl.get (t.tile n).spad 0 b = Tbl.get (s.tile n).spad 0 b) ∧
      t.tile n = { s.tile n with spad := (t.tile n).spad } ∧ (∀ m, m ≠ n → t.tile m = s.tile m) ∧ t = { s with regs := t.regs, tiles := t.tiles, sent := t.sent } ∧
      s.sameRegs t [okey (tileIx n) 0x53 0, okey (tileIx n) 0x54 0]) ∧
  (∀ (s : State) (n q : Nat) (p : Packet), s.enters n p → s.remoteCheck n p none = stOk → s.ownerOf n = some q → p.job = s.jobId q → (s.tile n).gau.st = .live → s.twinOf n = none →
    ∃ t a, exec (.signalPacket n p) s = .next t ∧ t.sent = .packet n true a :: s.sent ∧ a.ptype = .ack ∧ a.farAddr = p.farAddr ∧ (a.dstX, a.dstY) = (p.srcX, p.srcY) ∧
      (∀ g, (t.gauge n g).value = if g = p.sigGauge then ((s.gauge n g).value + p.sigAdd) % 2 ^ 32 else (s.gauge n g).value) ∧
      (t.gauge n p.sigGauge).device = p.srcDevice ∧ (t.gauge n p.sigGauge).logical = p.srcLogical ∧
      t.tile n = { s.tile n with gau := (t.tile n).gau } ∧ (∀ m, m ≠ n → t.tile m = s.tile m) ∧ t = { s with regs := t.regs, tiles := t.tiles, sent := t.sent } ∧
      s.sameRegs t [okey (tileIx n) 0x64 0]) ∧
  (∀ (s : State) (n : Nat), (s.tile n).gau.held = [] ∨ (∃ p rest, (s.tile n).gau.held = p :: rest ∧ s.blocked n p = true) → exec (.pendingHoldRelease n) s = .next s) ∧
  (∀ (s : State) (n k : Nat) (p : Packet) (ds : List Row), (s.tile n).gau.held = [p] → p.ptype = .write → s.remoteCheck n p (some hrRemoteWrite) = stOk →
      p.xferId ≠ 0 → fromBlock p = false → p.sigEn = false → pendOf (s.tile n).gau.pend p = none → pendFree (s.tile n).gau.pend = some k → Tbl.get (s.tile n).gau.pend {} k = {} →
      p.data.map decodeWord = ds.map Decoded.clean → s.twinOf n = none →
    ∃ t a, exec (.pendingHoldRelease n) s = .next t ∧ t.sent = .packet n true a :: s.sent ∧ a.ptype = .ack ∧ a.tag = p.tag ∧ (a.dstX, a.dstY) = (p.srcX, p.srcY) ∧
      (t.tile n).gau.held = [] ∧ (Tbl.get (t.tile n).gau.pend {} k).landed = min (32 * p.rows) (2 ^ 20 - 1) ∧ (Tbl.get (t.tile n).gau.pend {} k).valid = true ∧
      (Tbl.get (t.tile n).gau.pend {} k).xferId = p.xferId ∧ (t.tile n).gau.gauges = (s.tile n).gau.gauges ∧ (∀ m, m ≠ n → t.tile m = s.tile m))

/-- Replies with an intact header and no reserved bit set, no bank contested, no request waiting. With one descriptor in progress whose requests are all issued, and one tracking entry of it: DATA with that entry's tag, and FORK with its far address, row count and stride, where the entry awaits a read and the payload is clean, write the rows behind the descriptor's handle and free the entry; ACK with its tag and far address, where the entry awaits a write, frees it and changes no row; STATUS with a status other than OK and UNCORRECTABLE, for a request that carries no signal, frees it and gives the descriptor that status (BAD_VALUE for a code not used). A reply that answers no entry and no far SIGNAL changes nothing. ACK of a far SIGNAL returns one send credit. (R112, R113, R114, R130, R171, R172, R174, R187) -/
def Obligations.RepliesAtTheMover : Prop :=
  (∀ (s : State) (n : Nat) (p : Packet) (x : MoveDesc) (k : Track) (ds : List Row) (i : Instr), (s.tile n).mov.descs = [x] → (s.tile n).mov.tracks = [k] → k.desc = x.id → x.discard = false → p.head = [] → p.reserved = 0 → (s.tile n).mov.waits = none →
      dRows x.word ≤ x.asked → k.ptype = .read ∨ k.ptype = .memRead → p.data.map decodeWord = ds.map Decoded.clean →
      (i = .dataPacket n p [] ∧ p.tag = k.tag ∨ i = .forkPacket n p [] ∧ p.farAddr.toNat = k.addr ∧ p.rows = k.rows ∧ p.stride = k.stride) →
    ∃ t, exec i s = .next t ∧ (t.tile n).mov = { (s.tile n).mov with tracks := [] } ∧ t.obj (tileIx n) 0x27 = 0 ∧
      (∀ d rest, ds = rest ++ [d] → Tbl.get (t.tile n).spad 0
        (spadKey x.handle (dRow x.word + k.first + rest.length)) = encodeRow d) ∧
      (∀ b, (∀ j, j < ds.length → b ≠ spadKey x.handle (dRow x.word + k.first + j)) →
        Tbl.get (t.tile n).spad 0 b = Tbl.get (s.tile n).spad 0 b) ∧
      s.onlyTile t n ∧ s.sameRegs t [okey (tileIx n) 0x27 0, okey (tileIx n) 0x53 0, okey (tileIx n) 0x54 0]) ∧
  (∀ (s : State) (n : Nat) (p : Packet), (s.tile n).mov.tracks = [] → p.head = [] → p.reserved = 0 →
    exec (.dataPacket n p []) s = .next s ∧ exec (.forkPacket n p []) s = .next s ∧ (p.srcLogical ≠ 0xFFFF → (∀ x, x ∈ (s.tile n).mov.signals → x.2 ≠ p.farAddr.toNat) → exec (.ackPacket n p) s = .next s ∧ exec (.statusPacket n p) s = .next s)) ∧
  (∀ (s : State) (n : Nat) (p : Packet) (x : MoveDesc) (k : Track), (s.tile n).mov.descs = [x] → (s.tile n).mov.tracks = [k] → k.desc = x.id → dRows x.word ≤ x.asked → p.tag = k.tag → p.farAddr.toNat = k.addr →
      p.srcLogical ≠ 0xFFFF → p.head = [] → p.reserved = 0 → (s.tile n).mov.waits = none →
    (k.ptype = .write ∨ k.ptype = .memWrite → ∃ t, exec (.ackPacket n p) s = .next t ∧ t.tile n = { s.tile n with mov := { (s.tile n).mov with tracks := [] } } ∧ t.obj (tileIx n) 0x27 = 0 ∧
      s.onlyTile t n ∧ s.sameRegs t [okey (tileIx n) 0x27 0]) ∧
    (p.status ≠ 0 → p.status ≠ stUncorrectable → x.status = 0 → s.carriesSignal n k = false → ∃ t, exec (.statusPacket n p) s = .next t ∧
      (t.tile n).mov = { (s.tile n).mov with tracks := [], descs := [{ x with status := if p.status < 14 then p.status else stBadValue }] } ∧ (t.tile n).spad = (s.tile n).spad ∧ t.obj (tileIx n) 0x27 = 0 ∧
      s.onlyTile t n ∧ s.sameRegs t [okey (tileIx n) 0x27 0])) ∧
  (∀ (s : State) (n q : Nat) (p : Packet), p.srcLogical ≠ 0xFFFF → p.head = [] → p.reserved = 0 → (s.tile n).mov.tracks = [] → (s.tile n).mov.signals = [(q, p.farAddr.toNat)] →
    ∃ t, exec (.ackPacket n p) s = .next t ∧ t.tile n = { s.tile n with mov := { (s.tile n).mov with credits := (s.tile n).mov.credits + 1, signals := [] } } ∧ t.regs = s.regs ∧ s.onlyTile t n)

/-- At a position that forwards or drains, HEAD_FLIT_ROUTE of a packet other than a FORK counts the packet's flits in 2100+n:51 and, where the router's decision is to eject, passes the packet to the local port unchanged; where it is to forward and the next router's buffer of its class is free, the packet passes to that router's input with its leg, and where the buffer is full it waits; where it is FENCED, it counts 2100+n:57 and answers a request with STATUS FENCED and discards a reply. FLIT_PARITY_ERROR on an input whose flit is refused for the first time counts 2100+n:52 and remembers the input. FORK_SPLIT with every entry at its own position passes one copy to the local port. POSITION_NON_FORWARDING of a position in use changes nothing; at a HOLE, CLOSED or RETIRED one it leaves memory, power and ports, and with no job loaded the position forwards no more and each neighbour that is no HOLE has the detour entry of R177. NON_FORWARDING_DRAIN_END of a position that forwards changes nothing; at one that does not and holds no packet it ends the drain. GAUGE_SET passes the write guard, answers NOT_READY on a tile no job holds, and on a live gauge unit sets the gauge's value and its hand-set mark and leaves every other gauge. (R164, R165, R176, R177, R179, R181, R184, R191, R196, R220) -/
def Obligations.RoutersAndFailedPositions : Prop :=
  (∀ (s : State) (pos : Nat) (leg : Leg) (p : Packet), p.ptype ≠ .fork → s.carries pos = true → s.hop pos leg.vc leg.legX leg.legY p.dstX p.dstY = .eject →
    ∃ t, exec (.headFlitRoute pos leg p) s = .next t ∧ t.sent = .hop pos pos leg p :: s.sent ∧
      t.obj (tileIx pos) 0x51 (if isReply p then 1 else 0) = min (s.obj (tileIx pos) 0x51 (if isReply p then 1 else 0) + (1 + (p.data.length + 1) / 2)) (2 ^ 64 - 1) ∧
      t.tile pos = { s.tile pos with inputs := (t.tile pos).inputs } ∧ ((s.tile pos).inputs = [] → (t.tile pos).inputs = []) ∧ (∀ m, m ≠ pos → t.tile m = s.tile m) ∧
      t = { s with regs := t.regs, tiles := t.tiles, sent := t.sent } ∧ s.sameRegs t [okey (tileIx pos) 0x51 (if isReply p then 1 else 0)]) ∧
  (∀ (s : State) (pos m : Nat) (d : Dir) (leg : Leg) (p : Packet), p.ptype ≠ .fork → s.carries pos = true → s.hop pos leg.vc leg.legX leg.legY p.dstX p.dstY = .forward m d →
    (s.bufferFree m (arrivesAt p d) leg.vc = true → m ≠ pos →
      ∃ t, exec (.headFlitRoute pos leg p) s = .next t ∧ t.sent = .hop pos m leg p :: s.sent ∧
        t.obj (tileIx pos) 0x51 (if isReply p then 1 else 0) = min (s.obj (tileIx pos) 0x51 (if isReply p then 1 else 0) + (1 + (p.data.length + 1) / 2)) (2 ^ 64 - 1) ∧
        t.tile m = { s.tile m with inputs := (s.tile m).inputs ++ [⟨arrivesAt p d, leg, p⟩], parity := (s.tile m).parity.erase (arrivesAt p d) } ∧
        (∀ x, x ≠ pos → x ≠ m → t.tile x = s.tile x) ∧
        t = { s with regs := t.regs, tiles := t.tiles, sent := t.sent } ∧ s.sameRegs t [okey (tileIx pos) 0x51 (if isReply p then 1 else 0)]) ∧
    (s.bufferFree m (arrivesAt p d) leg.vc = false → exec (.headFlitRoute pos leg p) s = .next s)) ∧
  (∀ (s : State) (pos : Nat) (leg : Leg) (p : Packet), p.ptype ≠ .fork → s.carries pos = true → s.hop pos leg.vc leg.legX leg.legY p.dstX p.dstY = .fenced →
    ∃ t, exec (.headFlitRoute pos leg p) s = .next t ∧ t.obj (tileIx pos) 0x57 = min (s.obj (tileIx pos) 0x57 + 1) (2 ^ 32 - 1) ∧
      (isReply p = true → t.sent = s.sent) ∧
      (isReply p = false → ∃ a, t.sent = .packet pos true a :: s.sent ∧ a.ptype = .status ∧ a.status = stFenced ∧ a.tag = p.tag ∧ (a.dstX, a.dstY) = (p.srcX, p.srcY))) ∧
  (∀ (s : State) (pos input : Nat), input ∉ (s.tile pos).parity →
    ∃ t, exec (.flitParityError pos input) s = .next t ∧ t.tile pos = { s.tile pos with parity := (s.tile pos).parity ++ [input] } ∧
      t.obj (tileIx pos) 0x52 = min (s.obj (tileIx pos) 0x52 + 1) (2 ^ 32 - 1) ∧ s.onlyTile t pos ∧ s.sameRegs t [okey (tileIx pos) 0x52 0]) ∧
  (∀ (s : State) (pos waits : Nat) (p : Packet), s.carries pos = true → p.head = [] → p.list ≠ [] → (∀ e, e ∈ p.list → nextDir pos e.1 e.2 = none) →
    ∃ t, exec (.forkSplit pos waits p) s = .next t ∧ t.sent = .hop pos pos ⟨0, 0x3F, 0x1F⟩ p :: s.sent ∧ t.obj (tileIx pos) 0x56 = min (s.obj (tileIx pos) 0x56 + waits) (2 ^ 64 - 1) ∧
      t = { s with regs := t.regs, tiles := t.tiles, sent := t.sent } ∧ (∀ m, m ≠ pos → t.tile m = s.tile m)) ∧
  (∀ (s : State) (n : Nat), (s.usable n = true → exec (.positionNonForwarding n) s = .next s) ∧ (s.forwards n = true → exec (.nonForwardingDrainEnd n) s = .next s)) ∧
  (∀ (s : State) (n : Nat), s.usable n = false → ∃ t, exec (.positionNonForwarding n) s = .next t ∧ t.hbm = s.hbm ∧ t.ddr = s.ddr ∧ t.power = s.power ∧ t.ports = s.ports) ∧
  (∀ (s : State) (n : Nat), s.usable n = false → s.jobs = [] → ∃ t, exec (.positionNonForwarding n) s = .next t ∧ t = { s with regs := t.regs, tiles := t.tiles, sent := t.sent } ∧
    t.forwards n = false ∧ (∀ m, m ≠ n → t.tile m = s.tile m) ∧ ∀ m, m ∈ neighbours n → s.tileState m ≠ tsHole → t.obj (tileIx m) 0x50 = t.detourOf m) ∧
  (∀ (s : State) (n : Nat), s.forwards n = false → (s.tile n).gau.held = [] → (s.tile n).merges = [] → (s.tile n).inputs = [] →
    ∃ t, exec (.nonForwardingDrainEnd n) s = .next t ∧ t = { s with tiles := t.tiles } ∧ t.tile n = { s.tile n with drains := false } ∧ ∀ m, m ≠ n → t.tile m = s.tile m) ∧
  (∀ (s : State) (sess n : Nat) (v : BitVec 64), s.writeGuard sess (tileIx n) 0x62 = none →
    ((s.tile n).owner = none → ∃ t, exec (.gaugeSet sess n v) s = .next t ∧ t.obj (tileIx n) 0x62 = stNotReady ∧ t.tiles = s.tiles ∧ t.sent = .answer sess (tileIx n) 0x62 stNotReady :: s.sent) ∧
    (∀ q, (s.tile n).owner = some q → (s.tile n).gau.st = .live → fieldOf v.toNat 39 25 = 0 →
      ∃ t, exec (.gaugeSet sess n v) s = .next t ∧ t.obj (tileIx n) 0x62 = stOk ∧
        t.gauge n (fieldOf v.toNat 32 7) = { s.gauge n (fieldOf v.toNat 32 7) with value := v.toNat % 2 ^ 32, handSet := true, tide := s.tide } ∧
        (∀ g, g ≠ fieldOf v.toNat 32 7 → t.gauge n g = s.gauge n g) ∧ (∀ m, m ≠ n → t.tile m = s.tile m) ∧ bitOf (t.obj (0x5040 + q) 0) 0 = true ∧
        t = { s with regs := t.regs, tiles := t.tiles, sent := t.sent }))

/-- Requests arrive with intact headers and no reserved bit set. At a stack that answers, MEM_READ with no merge and no held read open begins a merge of that request and asks its memory; MEM_WRITE with room in the buffer, none waiting and a clean payload joins the write buffer and is acknowledged; neither changes HBM. At one that does not answer both get STATUS UNCORRECTABLE and nothing else changes. MEMORY_READ_COMPLETE of a merge of one request over clean rows outside the context table answers it with DATA of those rows and ends the merge; of a number that no merge carries it changes nothing. WRITE_BUFFER_FLUSH with nothing waiting writes the buffered rows, the later winning, leaves every other row, and empties the buffer. PATROL_READ in a pass that has begun changes nothing before the read is due; due, over a clean row, it advances the position, wrapping at the region's end with the time kept in 3010+h:0A, where the pass ends. STACK_ECC_POLL adds its count to 3010+h:04. HOLD_BUFFER_EXPIRY drops the reads held for prefetch_hold_us or longer. MEMORY_UNIT_NOT_ANSWERING marks an idle stack dead with state 3, reports it, and changes nothing the second time. (R182, R258, R308, R313, R315, R316, R320, R323) -/
def Obligations.MemoryServersReadAndWrite : Prop :=
  (∀ (s : State) (h a pos : Nat) (p : Packet), s.memPlace p.partition (farForm p.farAddr.toNat) (farOffset p.farAddr.toNat) = (.stack h, a) → soundPacket p → pos = s.serverPos p →
    ((s.server (.stack h)).dead = false → (s.server (.stack h)).merges = [] → (s.server (.stack h)).hold = [] →
      ∃ t e, exec (.memRead p) s = .next t ∧ t.sent = .memRead (.stack h) (s.server (.stack h)).nextId :: s.sent ∧ (t.server (.stack h)).merges = [e] ∧
        e.id = (s.server (.stack h)).nextId ∧ e.reqs = [p] ∧ e.addr = p.farAddr.toNat ∧ e.rows = p.rows ∧ e.opened = s.elapsed ∧
        t = { s with regs := t.regs, hbms := t.hbms, sent := t.sent } ∧ s.sameRegs t [okey (0x3010 + h) 9 0]) ∧
    ((s.server (.stack h)).dead = true → ∃ x, x.ptype = .status ∧ x.status = stUncorrectable ∧ x.tag = p.tag ∧
      exec (.memRead p) s = .next { s with sent := .packet pos true x :: s.sent } ∧ exec (.memWrite p) s = .next { s with sent := .packet pos true x :: s.sent }) ∧
    (∀ ds, (s.server (.stack h)).dead = false → (s.server (.stack h)).wbuf.length + p.rows ≤ 8192 → (s.server (.stack h)).waiting = [] → (s.server (.stack h)).merges = [] →
      (s.server (.stack h)).hold = [] → p.data.map decodeWord = ds.map Decoded.clean →
      ∃ t x, exec (.memWrite p) s = .next t ∧ t.sent = .packet pos true x :: s.sent ∧ x.ptype = .ack ∧ x.tag = p.tag ∧
        (t.server (.stack h)).wbuf = (s.server (.stack h)).wbuf ++ (s.requestRowsAt p.partition p.farAddr.toNat p.rows p.stride).zip ds ∧
        t = { s with regs := t.regs, hbms := t.hbms, sent := t.sent } ∧ s.sameRegs t [okey (tileIx pos) 0x53 0, okey (tileIx pos) 0x54 0])) ∧
  (∀ (s : State) (srv : Server) (id : Nat), (∀ g, g ∈ (s.server srv).merges → g.id ≠ id) → exec (.memoryReadComplete srv id) s = .next s) ∧
  (∀ (s : State) (h : Nat) (g : MemMerge) (p : Packet) (ds : List Row), (s.server (.stack h)).merges = [g] → g.reqs = [p] → g.data = none → g.hint = false → (s.server (.stack h)).wbuf = [] →
      ds.length = g.rows → (∀ i, i < g.rows → decodeWord (Tbl.get s.hbm 0 ((s.requestRowsAt g.partition g.addr g.rows g.stride).getD i 0)) = .clean (ds.getD i 0)) →
      (∀ i, i < g.rows → isTableRow ((s.requestRowsAt g.partition g.addr g.rows g.stride).getD i 0) = false) →
    ∃ t x, exec (.memoryReadComplete (.stack h) g.id) s = .next t ∧ t.sent = .packet (s.serverPos p) true x :: s.sent ∧ x.ptype = .data ∧ x.data = ds.map encodeRow ∧ x.tag = p.tag ∧
      (x.dstX, x.dstY) = (p.srcX, p.srcY) ∧ (t.server (.stack h)).merges = [] ∧ t = { s with regs := t.regs, hbms := t.hbms, sent := t.sent } ∧ s.sameRegs t [okey (0x3010 + h) 9 0]) ∧
  (∀ (s : State) (h : Nat), (s.server (.stack h)).waiting = [] → (s.server (.stack h)).dtl = [] →
    ∃ t, exec (.writeBufferFlush (.stack h)) s = .next t ∧ (t.server (.stack h)).wbuf = [] ∧
      (∀ a, (∀ w, w ∈ (s.server (.stack h)).wbuf → w.1 ≠ a) → Tbl.get t.hbm 0 a = Tbl.get s.hbm 0 a) ∧
      (∀ w ws, (s.server (.stack h)).wbuf = ws ++ [w] → Tbl.get t.hbm 0 w.1 = encodeRow w.2) ∧
      t = { s with regs := t.regs, hbm := t.hbm, hbms := t.hbms } ∧ s.sameRegs t [okey (0x3010 + h) 9 0]) ∧
  (∀ (s : State) (h t0 : Nat), (s.server (.stack h)).passFrom = some t0 → s.patrolDue (.stack h) = false → exec (.patrolRead (.stack h)) s = .next s) ∧
  (∀ (s : State) (h t0 : Nat) (d : Row), (s.server (.stack h)).passFrom = some t0 → s.patrolDue (.stack h) = true → hbmStack (32 * (h / 2 * (regionBytes / 32) + (s.server (.stack h)).patrol)) = h → (s.server (.stack h)).dead = false → (s.server (.stack h)).wbuf = [] →
      decodeWord (Tbl.get s.hbm 0 (h / 2 * (regionBytes / 32) + (s.server (.stack h)).patrol)) = .clean d →
    ∃ t, exec (.patrolRead (.stack h)) s = .next t ∧ (t.server (.stack h)) = { s.server (.stack h) with patrol := if regionBytes / 32 ≤ (s.server (.stack h)).patrol + 1 then 0 else (s.server (.stack h)).patrol + 1, passFrom := if regionBytes / 32 ≤ (s.server (.stack h)).patrol + 1 then none else some t0 } ∧
      (regionBytes / 32 ≤ (s.server (.stack h)).patrol + 1 → t.obj (0x3010 + h) 0xA = s.tide) ∧ t = { s with regs := t.regs, hbms := t.hbms } ∧ s.sameRegs t [okey (0x3010 + h) 0xA 0]) ∧
  (∀ (s : State) (h count : Nat), ∃ t, exec (.stackEccPoll h count) s = .next t ∧ t.obj (0x3010 + h) 4 = min (s.obj (0x3010 + h) 4 + count) (2 ^ 64 - 1) ∧ t = { s with regs := t.regs } ∧ s.sameRegs t [okey (0x3010 + h) 4 0]) ∧
  (∀ (s : State) (h : Nat), ∃ t, exec (.holdBufferExpiry h) s = .next t ∧
    (t.server (.stack h)).hold = (s.server (.stack h)).hold.filter (fun x => decide (s.elapsed < x.since + 4 * (1000 * s.obj 0x5200 4))) ∧ t = { s with hbms := t.hbms }) ∧
  (∀ (s : State) (srv : Server), (s.server srv).dead = true → exec (.memoryUnitNotAnswering srv) s = .next s) ∧
  (∀ (s : State) (h : Nat), (s.server (.stack h)).dead = false → (s.server (.stack h)).merges = [] → (s.server (.stack h)).waiting = [] → (s.server (.stack h)).dtl = [] →
    ∃ t r, exec (.memoryUnitNotAnswering (.stack h)) s = .next t ∧ (t.server (.stack h)).dead = true ∧ (t.server (.stack h)).wbuf = (s.server (.stack h)).wbuf ∧ t.obj (0x3010 + h) 0 = 3 ∧
      t.sent = .report r :: s.sent ∧ r.cls = clMemoryUncorrectable ∧ r.suspect = susStack h ∧ t = { s with regs := t.regs, hbms := t.hbms, sent := t.sent } ∧
      s.sameRegs t [okey (0x3010 + h) 0 0, okey (0x3010 + h) 9 0])

/-- Messages arrive with an intact header and of their type's shape; a DTL_MEM_READ of another shape is answered by MEM_DATA with BAD_VALUE. Where a DIMM is installed, DTL_MEM_READ of clean bursts is answered by MEM_DATA with the encoded rows and DTL_MEM_WRITE with room and clean cells enters the channel's write buffer and is answered by MEM_ACK, DDR5 unchanged in both. HBM_READ of clean rows outside the context table is answered by HBM_DATA and HBM_WRITE with room and clean cells enters the stack's buffer and is answered by HBM_ACK, HBM unchanged; both end in an access fault where a row lies outside the HBM map. MEM_DATA with status OK for an outstanding merged read with one requester sends it DATA with the message's cells, and MEM_ACK sends the writer's ACK; both free the tag. HBM_DATA and HBM_ACK change nothing but credits. Each of the eight returns the receiver's credits by one CREDIT message. (R356, R359, R361, R362, R363, R364) -/
def Obligations.DieToDieMemory : Prop :=
  (∀ (s : State) (m c : Nat) (d : DtlMsg) (ds : List (Row × Row)) (rows : List Nat), soundMsg d → s.ddrUsed ≠ [] → d.dtype = 1 → c = (s.ddrDecode d.addr).1 → (s.server (.channel c)).dead = false → (s.server (.channel c)).wbuf = [] →
      rows = dtlRows d (fieldOf d.arg 0 4) → ds.length = rows.length →
      (∀ i, i < rows.length → burstRead (rows.getD i 0 / 2) (s.burst (rows.getD i 0 / 2)) = some ((ds.getD i (0, 0)).1, (ds.getD i (0, 0)).2, 0, false)) →
    ∃ t x y, exec (.dtlMemRead m d) s = .next t ∧ t.sent = .dtl m true y :: .dtl m true x :: s.sent ∧ x.dtype = 0xE ∧ x.arg = d.cells.length + 1 ∧ y.dtype = 3 ∧ y.dtag = d.dtag ∧ y.status = 0 ∧
      y.cells = (List.range rows.length).map (fun i => encodeRow (if rows.getD i 0 % 2 = 0 then (ds.getD i (0, 0)).1 else (ds.getD i (0, 0)).2)) ∧
      t = { s with ucies := t.ucies, sent := t.sent }) ∧
  (∀ (s : State) (m : Nat) (d : DtlMsg), d.head = none → dtlShape d = false → d.dtype = 1 →
    ∃ t x y, exec (.dtlMemRead m d) s = .next t ∧ t.sent = .dtl m true y :: .dtl m true x :: s.sent ∧ y.dtype = 3 ∧ y.dtag = d.dtag ∧ y.status = stBadValue ∧ y.cells = [] ∧ t = { s with ucies := t.ucies, sent := t.sent }) ∧
  (∀ (s : State) (m c : Nat) (d : DtlMsg), soundMsg d → s.ddrUsed ≠ [] → d.dtype = 2 → c = (s.ddrDecode d.addr).1 → (s.server (.channel c)).dead = false → (s.server (.channel c)).merges = [] → (s.server (.channel c)).dtl = [] →
      (s.server (.channel c)).wbuf.length + d.cells.length ≤ 4096 → (s.server (.channel c)).hold = [] → d.cells.any isBadWord = false →
    ∃ t x y, exec (.dtlMemWrite m d) s = .next t ∧ t.sent = .dtl m true y :: .dtl m true x :: s.sent ∧ x.dtype = 0xE ∧ y.dtype = 4 ∧ y.dtag = d.dtag ∧ y.status = 0 ∧
      (t.server (.channel c)).wbuf = (s.server (.channel c)).wbuf ++ (dtlRows d d.cells.length).zip (d.cells.map decodedRow) ∧ t = { s with ucies := t.ucies, channels := t.channels, sent := t.sent }) ∧
  (∀ (s : State) (m : Nat) (d : DtlMsg), (∃ r, r ∈ dtlRows d (fieldOf d.arg 0 4) ∧ 6 * regionBytes ≤ 32 * r) → exec (.hbmRead m d) s = .fault (.accessFault d.addr)) ∧
  (∀ (s : State) (m : Nat) (d : DtlMsg), (∃ r, r ∈ dtlRows d d.cells.length ∧ 6 * regionBytes ≤ 32 * r) → exec (.hbmWrite m d) s = .fault (.accessFault d.addr)) ∧
  (∀ (s : State) (m h : Nat) (d : DtlMsg) (ds : List Row) (rows : List Nat), soundMsg d → d.dtype = 5 → h = hbmStack d.addr → rows = dtlRows d (fieldOf d.arg 0 4) → (∀ r, r ∈ rows → 32 * r < 6 * regionBytes ∧ isTableRow r = false) →
      (s.server (.stack h)).dead = false → (s.server (.stack h)).wbuf = [] → ds.length = rows.length → (∀ i, i < rows.length → decodeWord (Tbl.get s.hbm 0 (rows.getD i 0)) = .clean (ds.getD i 0)) →
    ∃ t x y, exec (.hbmRead m d) s = .next t ∧ t.sent = .dtl m false y :: .dtl m false x :: s.sent ∧ x.dtype = 0xE ∧ x.arg = d.cells.length + 1 ∧ y.dtype = 7 ∧ y.dtag = d.dtag ∧ y.status = 0 ∧
      y.cells = ds.map encodeRow ∧ t = { s with regs := t.regs, ucies := t.ucies, sent := t.sent } ∧ s.sameRegs t [okey (0x3210 + m) 4 0, okey (0x3210 + m) 5 0]) ∧
  (∀ (s : State) (m h : Nat) (d : DtlMsg), soundMsg d → d.dtype = 6 → h = hbmStack d.addr → (∀ r, r ∈ dtlRows d d.cells.length → 32 * r < 6 * regionBytes) → (s.server (.stack h)).dead = false →
      (s.server (.stack h)).merges = [] → (s.server (.stack h)).dtl = [] → (s.server (.stack h)).wbuf.length + d.cells.length ≤ 8192 → (s.server (.stack h)).hold = [] → d.cells.any isBadWord = false →
    ∃ t x y, exec (.hbmWrite m d) s = .next t ∧ t.sent = .dtl m false y :: .dtl m false x :: s.sent ∧ x.dtype = 0xE ∧ y.dtype = 8 ∧ y.dtag = d.dtag ∧ y.status = 0 ∧
      (t.server (.stack h)).wbuf = (s.server (.stack h)).wbuf ++ (dtlRows d d.cells.length).zip (d.cells.map decodedRow) ∧
      t = { s with regs := t.regs, ucies := t.ucies, hbms := t.hbms, sent := t.sent } ∧ s.sameRegs t [okey (0x3210 + m) 4 0, okey (0x3210 + m) 5 0]) ∧
  (∀ (s : State) (m : Nat) (d : DtlMsg) (r : DtlReq) (g : MemMerge) (p : Packet), soundMsg d → d.dtype = 3 → d.status = 0 → (s.ucie m).out = [r] → r.dtag = d.dtag → (s.ucie m).waiting = [] → r.merge = some g.id →
      (s.server (.channel r.chan)).merges = [g] → g.reqs = [p] → g.data = none →
    ∃ t a rest, exec (.memData m d) s = .next t ∧ t.sent = .packet (s.serverPos r.pkt) true a :: rest ∧ a.ptype = .data ∧ a.data = d.cells ∧ a.tag = p.tag ∧ (a.dstX, a.dstY) = (p.srcX, p.srcY) ∧
      (t.ucie m).out = [] ∧ (t.server (.channel r.chan)).merges = [] ∧ t = { s with regs := t.regs, ucies := t.ucies, channels := t.channels, sent := t.sent }) ∧
  (∀ (s : State) (m : Nat) (d : DtlMsg) (r : DtlReq), soundMsg d → d.dtype = 4 → d.status = 0 → (s.ucie m).out = [r] → r.dtag = d.dtag → (s.ucie m).waiting = [] → r.merge = none →
    ∃ t a rest, exec (.memAck m d) s = .next t ∧ t.sent = .packet (s.serverPos r.pkt) true a :: rest ∧ a.ptype = .ack ∧ a.tag = r.pkt.tag ∧ (t.ucie m).out = [] ∧
      t = { s with regs := t.regs, ucies := t.ucies, sent := t.sent }) ∧
  (∀ (s : State) (m : Nat) (d : DtlMsg) (i : Instr), soundMsg d → (i = .hbmData m d ∧ d.dtype = 7 ∨ i = .hbmAck m d ∧ d.dtype = 8) →
    ∃ t x, exec i s = .next t ∧ t.sent = .dtl m true x :: s.sent ∧ x.dtype = 0xE ∧ x.arg = (d.cells.length + 1) * 65536 ∧ t = { s with ucies := t.ucies, sent := t.sent })

/-- Messages arrive with an intact header and of their type's shape. OBJ_REQ of an object that does not exist is answered by OBJ_RSP with BAD_VALUE. OBJ_RSP, EVENT_PORT_STATE and REMAPPED change nothing but credits. EVENT_LEVEE with two cells puts the record they carry first in the archive, in place of an entry of the same record, and keeps 4,096. DTL_MGMT leaves at the port as a local management unit or is delivered to the server; DTL_ETH towards the reeve die gives the frame to the endpoint and towards the compute die leaves at the port where it is ETH_UP, with a stamp of the tide count behind it where the port is set to stamp and the frame is an event message (R351). CREDIT adds its cells to each class, up to 4,096, 4,096 and 1,024, and with nothing waiting sends nothing. With no request waiting, UCIE_ADAPTER_RETRY_FAILURE takes a module from UP to RETRAINING and counts it; UCIE_RETRAINED takes it back; UCIE_RETRAIN_TIMEOUT retires it, with nothing outstanding and another module left; each changes nothing in another state. (R347, R350, R351, R358, R361, R362, R365, R497) -/
def Obligations.DieToDieObjectsAndLinks : Prop :=
  (∀ (s : State) (m : Nat) (d : DtlMsg), soundMsg d → d.dtype = 9 → objAt (fieldOf d.addr 16 16) (fieldOf d.addr 8 8) = none →
    ∃ t x y, exec (.objReq m d) s = .next t ∧ t.sent = .dtl m false y :: .dtl m false x :: s.sent ∧ x.dtype = 0xE ∧ y.dtype = 0xA ∧ y.dtag = d.dtag ∧ y.status = stBadValue ∧ y.cells = [] ∧
      t = { s with regs := t.regs, ucies := t.ucies, sent := t.sent } ∧ s.sameRegs t [okey (0x3210 + m) 4 0, okey (0x3210 + m) 5 0]) ∧
  (∀ (s : State) (m : Nat) (d : DtlMsg) (i : Instr), soundMsg d → (i = .objRsp m d ∧ d.dtype = 0xA ∨ i = .eventPortState m d ∧ d.dtype = 0xB ∨ i = .remapped m d ∧ d.dtype = 0xF) →
    ∃ t x, exec i s = .next t ∧ t.sent = .dtl m true x :: s.sent ∧ x.dtype = 0xE ∧ t = { s with ucies := t.ucies, sent := t.sent } ∧
      (d.dtype = 0xA → x.arg = (d.cells.length + 1) * 65536) ∧ (d.dtype ≠ 0xA → x.addr = d.cells.length + 1)) ∧
  (∀ (s : State) (m : Nat) (d : DtlMsg) (lo hi : Codeword), soundMsg d → d.dtype = 0xB → d.cells = [lo, hi] →
    ∃ t w, exec (.eventLevee m d) s = .next t ∧ w = 2 ^ 256 * (decodedRow hi).toNat + (decodedRow lo).toNat ∧
      t.faults = { s.faults with archive := (w :: s.faults.archive.filter (fun x => !sameRecord x w)).take 4096 } ∧ t = { s with ucies := t.ucies, faults := t.faults, sent := t.sent }) ∧
  (∀ (s : State) (m : Nat) (d : DtlMsg), soundMsg d → d.dtype = 0xC →
    (∃ t u x, exec (.dtlMgmt m true d) s = .next t ∧ t.sent = .mgmt (fieldOf d.arg 16 4) u :: x :: s.sent ∧ u.local' = true ∧ u.length = fieldOf d.arg 0 16 ∧ u.bytes = dtlBytes d (fieldOf d.arg 0 16) ∧
      t = { s with regs := t.regs, ucies := t.ucies, sent := t.sent }) ∧
    (∃ t x, exec (.dtlMgmt m false d) s = .next t ∧ t.sent = .deliver (.link (fieldOf d.arg 16 4) 0 true) (dtlBytes d (fieldOf d.arg 0 16)) :: x :: s.sent ∧ t = { s with ucies := t.ucies, sent := t.sent })) ∧
  (∀ (s : State) (m : Nat) (d : DtlMsg), soundMsg d → d.dtype = 0xD →
    (∃ t f x, exec (.dtlEth m false d) s = .next t ∧ t.sent = .frame (fieldOf d.arg 16 4) f :: x :: s.sent ∧ f.bytes = dtlBytes d (fieldOf d.arg 0 16) ∧ t = { s with ucies := t.ucies, sent := t.sent }) ∧
    (s.portState (fieldOf d.arg 16 4) = 6 → ∃ t x stamp, exec (.dtlEth m true d) s = .next t ∧ t.sent = stamp ++ .ethOut (fieldOf d.arg 16 4) (dtlBytes d (fieldOf d.arg 0 16)) :: x :: s.sent ∧
      stamp = (if s.obj (0x4010 + fieldOf d.arg 16 4) 0x14 = 1 ∧ ptpEvent (dtlBytes d (fieldOf d.arg 0 16)) = true then [.ptpStamp (fieldOf d.arg 16 4) s.tide] else []) ∧
      t.obj (0x4010 + fieldOf d.arg 16 4) 0x12 = min (s.obj (0x4010 + fieldOf d.arg 16 4) 0x12 + 1) (2 ^ 64 - 1) ∧ t = { s with regs := t.regs, ucies := t.ucies, sent := t.sent })) ∧
  (∀ (s : State) (m : Nat) (d : DtlMsg), soundMsg d → d.dtype = 0xE →
    ((s.ucie m).waiting = [] → ∃ t, exec (.credit m true d) s = .next t ∧ t.sent = s.sent ∧ s.sameRegs t [okey (0x3210 + m) 5 0] ∧
      t.ucie m = { s.ucie m with req := min 4096 ((s.ucie m).req + fieldOf d.arg 0 16), rsp := min 4096 ((s.ucie m).rsp + fieldOf d.arg 16 16), ctrl := min 1024 ((s.ucie m).ctrl + fieldOf d.addr 0 16) } ∧
      (∀ j, j ≠ m → t.ucie j = s.ucie j) ∧ t = { s with regs := t.regs, ucies := t.ucies }) ∧
    (∃ t, exec (.credit m false d) s = .next t ∧
      t.ucie m = { s.ucie m with rReq := min 4096 ((s.ucie m).rReq + fieldOf d.arg 0 16), rRsp := min 4096 ((s.ucie m).rRsp + fieldOf d.arg 16 16), rCtrl := min 1024 ((s.ucie m).rCtrl + fieldOf d.addr 0 16) } ∧
      t = { s with ucies := t.ucies })) ∧
  (∀ (s : State) (m : Nat), m < 8 →
    (s.obj (0x3210 + m) 0 = 2 → (s.ucie m).stalled = none → ∃ t, exec (.ucieAdapterRetryFailure m) s = .next t ∧ t.obj (0x3210 + m) 0 = 1 ∧ t.obj (0x3210 + m) 1 = min (s.obj (0x3210 + m) 1 + 1) (2 ^ 32 - 1) ∧
      bitOf (t.obj 0x3200 0) m = false ∧ t = { s with regs := t.regs, ucies := t.ucies } ∧ (∀ j, t.ucie j = s.ucie j) ∧ s.sameRegs t [okey (0x3210 + m) 0 0, okey (0x3210 + m) 1 0, okey 0x3200 0 0]) ∧
    (s.obj (0x3210 + m) 0 ≠ 2 → exec (.ucieAdapterRetryFailure m) s = .next s) ∧
    (s.obj (0x3210 + m) 0 = 1 → (s.ucie m).waiting = [] → ∃ t, exec (.ucieRetrained m) s = .next t ∧ t.obj (0x3210 + m) 0 = 2 ∧ bitOf (t.obj 0x3200 0) m = true ∧ t = { s with regs := t.regs } ∧
      s.sameRegs t [okey (0x3210 + m) 0 0, okey 0x3200 0 0]) ∧
    (s.obj (0x3210 + m) 0 ≠ 1 → exec (.ucieRetrained m) s = .next s ∧ exec (.ucieRetrainTimeout m) s = .next s) ∧
    (∀ j, s.obj (0x3210 + m) 0 = 1 → j < 8 → j ≠ m → s.obj (0x3210 + j) 0 ≠ 3 → (s.ucie m).out = [] → (s.ucie m).waiting = [] →
      ∃ t r, exec (.ucieRetrainTimeout m) s = .next t ∧ t.obj (0x3210 + m) 0 = 3 ∧ t.ucie m = {} ∧ bitOf (t.obj 0x3200 0) m = false ∧ t.sent = .report r :: s.sent ∧ r.cls = clLink ∧ r.suspect = susUcie m ∧
        r.closedUnit = some (susUcie m) ∧ t = { s with regs := t.regs, ucies := t.ucies, sent := t.sent }))

/-- ENTRY_POLL before poll_ns have passed since the last read that found no seal, or of a job that is not WAITING, in cadence mode or held, changes nothing; else of a WAITING job it counts 5010+q:09 and notes the time of the read where no seal matches, and starts the step where an accepted one does (job STEPPING, entry kept, step starting). STEP_START_RELEASE with the start not ready changes nothing; of a ready job with no barrier and no twin, no watch yet met, it writes the step into every tile's step register and raises each start gauge by 1. READY of an unknown job changes nothing; otherwise (its reserved bits zero) the leader notes sender and step. START of a member that does not wait for it changes nothing; one that waits writes its step registers and keeps the time. BARRIER_START_TIME without a time set, or before it, changes nothing; of a STEPPING job it raises the start gauges. WATCH_NOTICE of a watch not met changes nothing; with another watch outstanding it marks the watch; the last one, with nothing latched, advances the step counter and 5010+q:06 and notes the time in 5010+q:08. CADENCE_TICK of a job not in cadence mode, or of a tick whose time it is not, changes nothing; of a STEPPING one it counts a dropped tick. WEIR_HOLD_EXPIRY of a job not held changes nothing and otherwise, where a read is due, acts as ENTRY_POLL without the hold. (R197, R214, R230, R235, R236, R239, R244, R300, R301, R442) -/
def Obligations.StepsStartAndEnd : Prop :=
  (∀ (s : State) (q : Nat) (j : Job), q < 12 → s.job q = some j →
    (s.jobState q ≠ 2 ∨ j.cadence = true ∨ j.weirHold = true ∨ j.scourHold = true ∨ s.pollDue q = false → exec (.entryPoll q) s = .next s) ∧
    (s.jobState q = 2 → s.pollDue q = true → j.cadence = false → j.weirHold = false → j.scourHold = false → s.readEntry q (s.step' q) = (s, none) →
      ∃ t, exec (.entryPoll q) s = .next t ∧ t = { s with regs := t.regs, jobs := t.jobs } ∧ t.job q = some { j with polledAt := some s.elapsed } ∧ t.obj (0x5010 + q) 9 = min (s.obj (0x5010 + q) 9 + 1) (2 ^ 64 - 1) ∧ s.sameRegs t [okey (0x5010 + q) 9 0]) ∧
    (∀ e, s.jobState q = 2 → s.pollDue q = true → j.cadence = false → j.weirHold = false → j.scourHold = false → s.readEntry q (s.step' q) = (s, some (some e)) →
      ∃ t k, exec (.entryPoll q) s = .next t ∧ t.jobState q = 3 ∧ t.job q = some k ∧ k.entry = some e ∧ k.starting = true ∧ k.map = j.map ∧ t.step' q = s.step' q) ∧
    (s.startReady q = false → exec (.stepStartRelease q) s = .next s) ∧
    (s.startReady q = true → j.barrier = false → j.twin = none → j.twinNext = none → j.retwin = none → j.twinEvery = 0 → j.watches ≠ [] → (∀ w, w ∈ j.watches → s.watchMet q j w = false) →
      j.map.Nodup → (∀ n, n ∈ j.map → (s.tile n).gau.st = .live ∧ Tbl.wf (s.tile n).gau.gauges (fun _ => {}) = true) →
      ∃ t k, exec (.stepStartRelease q) s = .next t ∧ t.jobState q = 3 ∧ t.job q = some k ∧ k.starting = false ∧ t.sent = s.sent ∧ t.hbm = s.hbm ∧ t.ddr = s.ddr ∧
        (∀ n, n ∈ j.map → t.obj (tileIx n) 0x38 = s.step' q ∧ (t.gauge n j.hdr.startGauge).value = ((s.gauge n j.hdr.startGauge).value + 1) % 2 ^ 32 ∧
          ∀ g, g ≠ j.hdr.startGauge → (t.gauge n g).value = (s.gauge n g).value) ∧
        (∀ n, n ∉ j.map → t.tile n = s.tile n)) ∧
    (∀ w x, j.watches[w]? = some x → x.reached = true ∨ s.watchMet q j x = false ∨ s.jobState q ≠ 3 → exec (.watchNotice q w) s = .next s) ∧
    (∀ w x y, j.watches[w]? = some x → s.jobState q = 3 → j.starting = false → x.reached = false → s.watchMet q j x = true → y ∈ j.watches.eraseIdx w → y.reached = false →
      ∃ t, exec (.watchNotice q w) s = .next t ∧ t.job q = some { j with watches := j.watches.set w { x with reached := true } } ∧ t = { s with jobs := t.jobs }) ∧
    (∀ w x, j.watches[w]? = some x → s.jobState q = 3 → j.starting = false → x.reached = false → s.watchMet q j x = true → (∀ y, y ∈ j.watches.eraseIdx w → y.reached = true) →
      j.twin = none → j.routeBad = false → Tbl.get s.latches none q = none → (∀ e, j.entry = some e → e.endAfter = false) →
      ∃ t, exec (.watchNotice q w) s = .next t ∧ t.step' q = (s.step' q + 1) % 2 ^ 64 ∧ t.obj (0x5010 + q) 6 = min (s.obj (0x5010 + q) 6 + 1) (2 ^ 64 - 1) ∧ t.obj (0x5010 + q) 8 = s.tide) ∧
    (j.startAt = none → exec (.barrierStartTime q) s = .next s) ∧
    (∀ v, j.startAt = some v → s.tide < v → exec (.barrierStartTime q) s = .next s) ∧
    (∀ v, j.startAt = some v → v ≤ s.tide → s.jobState q = 3 → j.twin = none → j.twinNext = none → j.retwin = none → j.twinEvery = 0 → (∃ w, w ∈ j.watches ∧ w.reached = false) → j.map.Nodup →
      (∀ n, n ∈ j.map → (s.tile n).gau.st = .live) →
      ∃ t k, exec (.barrierStartTime q) s = .next t ∧ t.jobState q = 3 ∧ t.job q = some k ∧ k.starting = false ∧ k.startAt = none ∧ t.sent = s.sent ∧ t.hbm = s.hbm ∧
        ∀ n, n ∈ j.map → (t.gauge n j.hdr.startGauge).value = ((s.gauge n j.hdr.startGauge).value + 1) % 2 ^ 32) ∧
    (∀ c, j.cadence = false ∨ j.tickNow s.tide c = false → exec (.cadenceTick q c) s = .next s) ∧
    (∀ c, j.cadence = true → s.jobState q = 3 → j.tickNow s.tide c = true →
      ∃ t k, exec (.cadenceTick q c) s = .next t ∧ t.jobState q = 3 ∧ t.step' q = s.step' q ∧ t.job q = some k ∧ k.tick = some c ∧ t.obj (0x5020 + q) 3 = min (s.obj (0x5020 + q) 3 + 1) (2 ^ 64 - 1) ∧ bitOf (t.obj (0x5040 + q) 0) 2 = true) ∧
    (j.weirHold = false → exec (.weirHoldExpiry q) s = .next s) ∧
    (j.weirHold = true → s.pollDue q = true → exec (.weirHoldExpiry q) s = exec (.entryPoll q) (s.setJob q (some { j with weirHold := false })))) ∧
  (∀ (s : State) (m : CtrlMsg), s.partitionOfJob (fieldOf m.body.toNat 208 16) = none → exec (.ready m) s = .next s ∧ exec (.start m) s = .next s) ∧
  (∀ (s : State) (m : CtrlMsg) (q : Nat) (j : Job), s.partitionOfJob (fieldOf m.body.toNat 208 16) = some q → s.job q = some j →
    (j.ready = false → ctrlOk 0x14 m = true → ∃ t k, exec (.ready m) s = .next t ∧ t.job q = some k ∧ k = { j with readys := k.readys } ∧ (m.src, fieldOf m.body.toNat 144 64) ∈ k.readys ∧ t = { s with jobs := t.jobs }) ∧
    (j.barrier = false ∨ j.ready = false ∨ j.starting = false ∨ fieldOf m.body.toNat 144 64 ≠ s.step' q → exec (.start m) s = .next s) ∧
    (j.barrier = true → j.ready = true → j.starting = true → ctrlOk 0x15 m = true → j.startAt = none → s.startReady q = true → fieldOf m.body.toNat 144 64 = s.step' q → s.tide + 4000 ≤ fieldOf m.body.toNat 80 64 → j.twin = none →
      ∃ t k, exec (.start m) s = .next t ∧ t.job q = some k ∧ k.startAt = some (fieldOf m.body.toNat 80 64) ∧ t.obj (0x5040 + q) 0xC = fieldOf m.body.toNat 80 64 ∧ t.sent = s.sent ∧
        ∀ n, n ∈ j.map → t.obj (tileIx n) 0x38 = s.step' q))

/-- Each command of this list passes the write guard first. PARTITION_APPLY answers BUSY while a job or a fill is there, unconfigures the partition where its cluster mask is 0, answers BAD_VALUE where R224 fails, and otherwise puts the configuration in force at once where no granule holds another tenant's tag, else starts the fill and answers PENDING. GRANULE_FILL_COMPLETE without a fill changes nothing; otherwise those granules read zero, no other HBM row changes, and the configuration is in force. JOB_LOAD and JOB_RESUME answer NOT_READY in TEST and STARTUP, BUSY in a state other than NONE, SAVED and ENDING, are latched while ENDING, and with every check of R232 passed answer OK and give the partition the job with its header, its map and its first (or saved) step, LOADING or WAITING with its tiles ACTIVE where no tile's scrub fails. JOB_END at a boundary is latched, at once it puts the job in ENDING; JOB_PREEMPT is latched. JOB_SCRUB_COMPLETE of an ENDING job with no bad row and nothing latched leaves state NONE and its tiles OFFERED; of another it changes nothing. PROGRAM_FAULT_END ends a job with a queue in HALTED_FAULT and no other. OUTSIDE_DECLARE sets bit 3 of 5040+q:00. (R97, R125, R223, R224, R231, R232, R233, R234, R240, R241, R298, R556) -/
def Obligations.PartitionsAndJobs : Prop :=
  (∀ (s : State) (sess q : Nat) (c : PartCfg), q < 12 → s.writeGuard sess (0x5000 + q) 8 = none → c = s.newCfg q →
    (s.jobState q ≠ 0 ∨ s.fillOf q ≠ none → ∃ t, exec (.partitionApply sess q) s = .next t ∧ t.obj (0x5000 + q) 8 = stBusy ∧ s.sameRegs t [okey (0x5000 + q) 8 0] ∧ t = { s with regs := t.regs, sent := t.sent }) ∧
    (s.jobState q = 0 → s.fillOf q = none → c.clusters = 0 → ∃ t, exec (.partitionApply sess q) s = .next t ∧ t.obj (0x5000 + q) 0 = 0 ∧ t.cfg q = {} ∧ t.obj (0x5000 + q) 8 = stOk ∧
      t = { s with regs := t.regs, cfgs := t.cfgs, sent := t.sent }) ∧
    (s.jobState q = 0 → s.fillOf q = none → c.clusters ≠ 0 → s.cfgBad q c = true → ∃ t, exec (.partitionApply sess q) s = .next t ∧ t.obj (0x5000 + q) 8 = stBadValue ∧
      s.sameRegs t [okey (0x5000 + q) 8 0] ∧ t = { s with regs := t.regs, sent := t.sent }) ∧
    (s.jobState q = 0 → s.fillOf q = none → c.clusters ≠ 0 → s.cfgBad q c = false → (∀ g, Tbl.get s.hbmTags 0 g = 0 ∨ Tbl.get s.hbmTags 0 g = c.tenant + 1) →
      (∀ g, Tbl.get s.ddrTags 0 g = 0 ∨ Tbl.get s.ddrTags 0 g = c.tenant + 1) →
      ∃ t, exec (.partitionApply sess q) s = .next t ∧ t.obj (0x5000 + q) 8 = stOk ∧ t.obj (0x5000 + q) 0 = 1 ∧ t.cfg q = c ∧ t.hbm = s.hbm ∧ t.ddr = s.ddr ∧ t.jobs = s.jobs ∧
        ∀ g, c.hbmBase ≤ 0x10000000 * g → 0x10000000 * g < c.hbmBase + c.hbmSize → Tbl.get t.hbmTags 0 g = c.tenant + 1) ∧
    (∀ g, s.jobState q = 0 → s.fillOf q = none → c.clusters ≠ 0 → s.cfgBad q c = false → c.hbmBase ≤ 0x10000000 * g → 0x10000000 * g < c.hbmBase + c.hbmSize →
      Tbl.get s.hbmTags 0 g ≠ 0 → Tbl.get s.hbmTags 0 g ≠ c.tenant + 1 →
      ∃ t f, exec (.partitionApply sess q) s = .next t ∧ t.obj (0x5000 + q) 8 = stPending ∧ t.obj (0x5000 + q) 0 = 0 ∧ t.fillOf q = some f ∧ f.cfg = c ∧ g ∈ f.hbm ∧ t.hbm = s.hbm)) ∧
  (∀ (s : State) (q : Nat), s.fillOf q = none → exec (.granuleFillComplete q) s = .next s) ∧
  (∀ (s : State) (q : Nat) (f : PartFill), q < 12 → s.fillOf q = some f →
    ∃ t, exec (.granuleFillComplete q) s = .next t ∧ t.cfg q = f.cfg ∧ t.fillOf q = none ∧ t.obj (0x5000 + q) 0 = 1 ∧ t.obj (0x5000 + q) 8 = stOk ∧ t.jobs = s.jobs ∧
      ∀ a, ((∃ g, g ∈ f.hbm ∧ 0x10000000 * g ≤ 32 * a ∧ 32 * a < 0x10000000 * (g + 1)) → Tbl.get t.hbm 0 a = 0) ∧
        ((∀ g, g ∈ f.hbm → 32 * a < 0x10000000 * g ∨ 0x10000000 * (g + 1) ≤ 32 * a) → Tbl.get t.hbm 0 a = Tbl.get s.hbm 0 a)) ∧
  (∀ (s : State) (sess q sub st : Nat) (i : Instr), q < 12 → s.writeGuard sess (0x5010 + q) sub = none → (i = .jobLoad sess q ∧ sub = 1 ∨ i = .jobResume sess q ∧ sub = 4) →
    (s.device.mode = .test ∨ s.device.mode = .startup → st = stNotReady → ∃ t, exec i s = .next t ∧ t.obj (0x5010 + q) sub = st ∧ s.sameRegs t [okey (0x5010 + q) sub 0] ∧ t = { s with regs := t.regs, sent := t.sent }) ∧
    (s.device.mode ≠ .test → s.device.mode ≠ .startup → s.jobState q ∉ [0, 5, 6] → st = stBusy → ∃ t, exec i s = .next t ∧ t.obj (0x5010 + q) sub = st ∧ s.sameRegs t [okey (0x5010 + q) sub 0] ∧ t = { s with regs := t.regs, sent := t.sent }) ∧
    (s.device.mode ≠ .test → s.device.mode ≠ .startup → s.jobState q = 6 → st = stRestartPending → ∃ t, exec i s = .next t ∧ t.obj (0x5010 + q) sub = st ∧ Tbl.get t.latches none q = some (if sub = 1 then .load else .resume) ∧
      t = { s with regs := t.regs, latches := t.latches, sent := t.sent })) ∧
  (∀ (s s3 : State) (sess q sub raw step : Nat) (i : Instr) (x : JobTable) (map : List Nat), q < 12 → s.writeGuard sess (0x5010 + q) sub = none → s.device.mode ≠ .test → s.device.mode ≠ .startup → s.jobState q = 0 ∨ s.jobState q = 5 →
      s.floor.chosen = [] → s.configured q = true → s.windowLost q = false → s.readWin q (s.cfg q).jobTable 4 = (s, some raw) → fieldOf raw 0 8 = 1 → s.headerFieldsOk q (if sub = 4 then 1224 else (s.offeredIn q).length) raw = true →
      s.readTables q raw = (s, some x) →
      (i = .jobLoad sess q ∧ sub = 1 ∧ map = x.placed.map (fun e => (placedOf e).physical) ∧ step = x.hdr.firstStep ∨ i = .jobResume sess q ∧ sub = 4 ∧ s.savePlan q x = (s, .inr (map, step))) →
      s.tableFault q x map = none →
      s.imagesFault q (x.polders.map (fun e => fieldOf e 64 64)) = (s3, none) → s3.routesOk q map = true →
    ∃ t k, exec i s = .next t ∧ t.obj (0x5010 + q) sub = stOk ∧ t.job q = some k ∧ k.hdr = x.hdr ∧ k.map = map ∧ t.step' q = step ∧
      t.obj (0x5010 + q) 6 = 0 ∧ t.obj (0x5010 + q) 0xC = x.hdr.jobId ∧
      ((∀ n, n ∈ map → t.scrubFailed n = false) → (t.jobState q = 1 ∨ t.jobState q = 2) ∧ ∀ n, n ∈ map → t.tileState n = 4 ∧ t.ownerOf n = some q)) ∧
  (∀ (s : State) (sess q : Nat), q < 12 →
    (s.writeGuard sess (0x5010 + q) 2 = none → s.jobState q = 0 → ∃ t, exec (.jobEndAtBoundary sess q) s = .next t ∧ t.obj (0x5010 + q) 2 = stNotReady ∧ t = { s with regs := t.regs, sent := t.sent }) ∧
    (s.writeGuard sess (0x5010 + q) 2 = none → s.jobState q ∉ [0, 5, 6, 7] → ∃ t, exec (.jobEndAtBoundary sess q) s = .next t ∧ t.obj (0x5010 + q) 2 = stRestartPending ∧
      Tbl.get t.latches none q = some .finish ∧ t = { s with regs := t.regs, latches := t.latches, sent := t.sent }) ∧
    (s.writeGuard sess (0x5010 + q) 2 = none → s.jobState q ∉ [0, 6] → ∃ t, exec (.jobEndAtOnce sess q) s = .next t ∧ t.obj (0x5010 + q) 2 = stOk ∧ t.jobState q = 6 ∧ Tbl.get t.latches none q = none ∧ t.hbm = s.hbm ∧ t.ddr = s.ddr) ∧
    (s.writeGuard sess (0x5010 + q) 3 = none → s.jobState q ∉ [0, 5, 6, 7] → ∃ t, exec (.jobPreempt sess q) s = .next t ∧ t.obj (0x5010 + q) 3 = stRestartPending ∧
      Tbl.get t.latches none q = some .preempt ∧ t = { s with regs := t.regs, latches := t.latches, sent := t.sent }) ∧
    (s.writeGuard sess (0x5040 + q) 4 = none → s.job q ≠ none → ∃ t, exec (.outsideDeclare sess q) s = .next t ∧ t.obj (0x5040 + q) 4 = stOk ∧ bitOf (t.obj (0x5040 + q) 0) 3 = true ∧
      t = { s with regs := t.regs, sent := t.sent } ∧ s.sameRegs t [okey (0x5040 + q) 0 0, okey (0x5040 + q) 1 0, okey (0x5040 + q) 4 0])) ∧
  (∀ (s : State) (q : Nat), s.jobState q ≠ 6 → exec (.jobScrubComplete q []) s = .next s) ∧
  (∀ (s : State) (q : Nat) (j : Job), q < 12 → s.job q = some j → s.jobState q = 6 → Tbl.get s.latches none q = none →
    ∃ t, exec (.jobScrubComplete q []) s = .next t ∧ t.jobState q = 0 ∧ t.job q = none ∧ t.obj (0x5010 + q) 0xC = 0 ∧ t.hbm = s.hbm ∧ t.ddr = s.ddr ∧
      ∀ n, n ∈ j.scrubLeft → n < 1224 → t.tileState n = 2 ∧ t.ownerOf n = none ∧ (t.tile n).spad = []) ∧
  (∀ (s : State) (q : Nat) (j : Job), q < 12 → s.job q = some j →
    ((∀ n k, n ∈ j.map → k < 4 → s.qState n k ≠ 4) ∨ s.jobState q = 6 → exec (.programFaultEnd q) s = .next s) ∧
    (∀ n k, n ∈ j.map → k < 4 → s.qState n k = 4 → s.jobState q ≠ 6 → ∃ t, exec (.programFaultEnd q) s = .next t ∧ t.jobState q = 6 ∧ t.hbm = s.hbm ∧ t.ddr = s.ddr))

/-- EXPERT_APPLY answers BUSY while a job runs and otherwise, with valid entries within R247, puts the 4,096 entries in force and adds 1 to 5200:00. At a dispatcher that assembles no token, WRITEs and messages arriving sound: TOKEN_REQUEST of a bad request gets STATUS with R250's status; one behind a held WRITE, or good and without staging room, is held; with room its rows are kept and acknowledged, and the last WRITE, with no token staged before it, stages the token and reserves its one target. STAGING_HOLD_RELEASE without a held WRITE or without room changes nothing and otherwise takes it. RESERVE of an expert not homed here is refused by DSTATUS; with a slot free and none queued before it, it takes the lowest and sends GRANT. GRANT launches a token of one target; GRANT, DSTATUS, CANCEL, NO_CREDIT_RETRY, MULTICAST_TIMEOUT, COPY_ARRIVE and COPY_RECEIPT_CONFIRM of an unknown reservation change nothing. DSTATUS NO_CREDIT waits 180 ns for the repeat, which then sends RESERVE again. CANCEL frees a taken slot. A timeout, once the limit has passed, makes the token unicast. An arriving copy is written to its slot and confirmed; the confirmed token leaves. RELEASE_REQUEST frees its slot; HINT_REQUEST of this device with a bad header gets BAD_VALUE, of experts without weights an ACK alone, of one loaded expert with up to 8 rows an ACK, a count in 5210+q:07 and a memory read. (R247, R249, R250, R251, R252, R253, R254, R255, R256, R258, R259) -/
def Obligations.ExpertsAndDispatchers : Prop :=
  (∀ (s : State) (sess : Nat), s.writeGuard sess 0x5200 2 = none →
    (∀ q, q < 12 → s.jobState q ≠ 0 → s.jobState q ≠ 5 → ∃ t, exec (.expertApply sess) s = .next t ∧ t.obj 0x5200 2 = stBusy ∧ t.experts = s.experts ∧ s.sameRegs t [okey 0x5200 2 0]) ∧
    ((∀ q, q < 12 → s.jobState q = 0 ∨ s.jobState q = 5) → (∀ e, e < 4096 → xValid (s.obj 0x5200 1 e) = true → expertOk (s.obj 0x5200 1 e) = true) →
      (((s.objs 0x5200 1 4096).filter xValid).filter (fun e => s.isOwn (xDevice e))).length ≤ 512 →
      ∃ t, exec (.expertApply sess) s = .next t ∧ t.obj 0x5200 2 = stOk ∧ (∀ e, e < 4096 → t.expert e = s.obj 0x5200 1 e) ∧ t.obj 0x5200 0 = (s.obj 0x5200 0 + 1) % 2 ^ 32 ∧
        t = { s with regs := t.regs, experts := t.experts, sent := t.sent })) ∧
  (∀ (s : State) (q pos rows : Nat) (p : Packet), pos = (s.sequencerPos q).getD 0 → (s.disp q).parts = [] → soundPacket p →
    (∀ st, s.tokenCheck rows p = st → st ≠ stOk → (s.disp q).held = [] → ∃ t a, exec (.tokenRequest q ⟨rows, p⟩) s = .next t ∧ t.sent = .packet pos true a :: s.sent ∧ a.ptype = .status ∧ a.status = st ∧ a.tag = p.tag ∧
      (t.disp q).tokens = (s.disp q).tokens ∧ (rows ≤ p.data.length → (t.disp q).parts = []) ∧ t = { s with disps := t.disps, sent := t.sent }) ∧
    ((s.disp q).held ≠ [] → ∃ t, exec (.tokenRequest q ⟨rows, p⟩) s = .next t ∧ (t.disp q).held = (s.disp q).held ++ [⟨1, rows, p⟩] ∧ (t.disp q).tokens = (s.disp q).tokens ∧ t = { s with disps := t.disps }) ∧
    (s.tokenCheck rows p = stOk → (s.disp q).held = [] → 16384 < s.staged q + p.data.length → ∃ t, exec (.tokenRequest q ⟨rows, p⟩) s = .next t ∧ (t.disp q).held = [⟨1, rows, p⟩] ∧ (t.disp q).tokens = (s.disp q).tokens ∧
      t.obj (0x5210 + q) 6 = min (s.obj (0x5210 + q) 6 + 1) (2 ^ 32 - 1) ∧ t = { s with regs := t.regs, disps := t.disps }) ∧
    (∀ (ds : List Row), s.tokenCheck rows p = stOk → (s.disp q).held = [] → s.staged q + p.data.length ≤ 16384 → p.data.length < rows → p.data.map decodeWord = ds.map Decoded.clean →
      ∃ t k a, exec (.tokenRequest q ⟨rows, p⟩) s = .next t ∧ (t.disp q).parts = [k] ∧ k.rows = reqRows p ∧ k.total = rows ∧ (t.disp q).tokens = (s.disp q).tokens ∧ t.sent = .packet pos true a :: s.sent ∧ a.ptype = .ack ∧
        t = { s with regs := t.regs, disps := t.disps, sent := t.sent }) ∧
    (∀ (e : Nat) (ds : List Row) (i : Instr), (s.disp q).tokens = [] → s.tokenCheck rows p = stOk → (i = .tokenRequest q ⟨rows, p⟩ ∧ (s.disp q).held = [] ∨ i = .stagingHoldRelease q ∧ (s.disp q).held = [⟨1, rows, p⟩]) → p.data.length ≤ 16384 → p.data.length = rows →
      p.data.map decodeWord = ds.map Decoded.clean → reqTargets ((reqRows p).headD 0).toNat = [e] →
      ∃ t k m a, exec i s = .next t ∧ (t.disp q).tokens = [k] ∧ k.rows = reqRows p ∧ k.targets = [{ expert := e, resId := (s.disp q).nextRes, st := .asked }] ∧ k.unicast = false ∧ (t.disp q).held = [] ∧
        t.sent = .control m :: .packet pos true a :: s.sent ∧ a.ptype = .ack ∧ m.mtype = 0x10 ∧ m.dst = xDevice (s.expert e) ∧ (t.disp q).nextRes = ((s.disp q).nextRes + 1) % 2 ^ 32 ∧
        t.obj (0x5210 + q) 0 = min (s.obj (0x5210 + q) 0 + 1) (2 ^ 64 - 1) ∧ t = { s with regs := t.regs, disps := t.disps, sent := t.sent }) ∧
    ((s.disp q).held = [] → exec (.stagingHoldRelease q) s = .next s) ∧
    (s.tokenCheck rows p = stOk → (s.disp q).held = [⟨1, rows, p⟩] → 16384 < s.staged q + p.data.length → exec (.stagingHoldRelease q) s = .next s)) ∧
  (∀ (s : State) (m : CtrlMsg), (xValid (s.expert (mExpert m)) = false ∨ s.isOwn (xDevice (s.expert (mExpert m))) = false) → ctrlOk 0x10 m = true →
    ∃ a, exec (.reserve m) s = .next { s with sent := .control a :: s.sent } ∧ a.mtype = 0x13 ∧ a.dst = m.src) ∧
  (∀ (s : State) (m : CtrlMsg) (q n : Nat), xValid (s.expert (mExpert m)) = true → s.isOwn (xDevice (s.expert (mExpert m))) = true → s.expertPartition (mExpert m) = some q → s.jobId q = mJob m →
      s.physicalOf q (xIntake (s.expert (mExpert m))) = some n → s.tileState n ≠ 5 → (s.disp q).taken = [] → (s.disp q).tokens = [] → (s.disp q).parts = [] → (∀ r, r ∈ (s.disp q).queue → r.expert ≠ mExpert m) → ctrlOk 0x10 m = true → 0 < xSlots (s.expert (mExpert m)) →
    ∃ t a r, exec (.reserve m) s = .next t ∧ (t.disp q).taken = [r] ∧ r.expert = mExpert m ∧ r.slot = 0 ∧ r.device = m.src ∧ r.resId = mRes m ∧ t.sent = .control a :: s.sent ∧ a.mtype = 0x11 ∧ a.dst = m.src ∧
      t = { s with disps := t.disps, sent := t.sent }) ∧
  (∀ (s : State) (q resId device part : Nat) (m : CtrlMsg) (rows : List Row), s.tokenOfRes q resId = none → (mPart m = q → mRes m = resId →
      exec (.grant m) s = .next s ∧ exec (.dstatus m) s = .next s) ∧ exec (.noCreditRetry q resId) s = .next s ∧ exec (.copyReceiptConfirm q resId) s = .next s ∧
      ((s.disp q).taken = [] → exec (.copyArrive q ⟨device, part, resId⟩ rows) s = .next s)) ∧
  (∀ (s : State) (m : CtrlMsg), (∀ q, q < 12 → (s.disp q).taken = [] ∧ (s.disp q).queue = []) → exec (.reservationCancel m) s = .next s) ∧
  (∀ (s : State) (q token : Nat), (∀ k, s.token q token = some k → s.elapsed < k.began + s.castLimit q) → exec (.multicastTimeout q token) s = .next s) ∧
  (∀ (s : State) (q : Nat) (k : Token) (x : Target), (s.disp q).tokens = [k] → k.targets = [x] → k.unicast = false →
    (∀ m, x.st = .asked → ctrlOk 0x11 m = true → mPart m = q → mRes m = x.resId → s.isOwn (xDevice (s.expert x.expert)) = true →
      ∃ t k' y dev part rows, exec (.grant m) s = .next t ∧ (t.disp q).tokens = [k'] ∧ k'.targets = [y] ∧ y.st = .launched ∧ y.slot = mSlot m ∧ t.sent = .copy dev part x.resId rows :: s.sent ∧
        rows.length = k.rows.length ∧ t = { s with regs := t.regs, disps := t.disps, sent := t.sent }) ∧
    (∀ m, x.st = .asked → ctrlOk 0x13 m = true → mPart m = q → mRes m = x.resId → mStatus m = stNoCredit →
      ∃ t, exec (.dstatus m) s = .next t ∧ (t.disp q).tokens = [{ k with targets := [{ x with st := .retry, retry := s.elapsed + 720 }] }] ∧ t = { s with disps := t.disps }) ∧
    (x.st = .retry → x.retry ≤ s.elapsed → ∃ t m, exec (.noCreditRetry q x.resId) s = .next t ∧ (t.disp q).tokens = [{ k with targets := [{ x with st := .asked }] }] ∧ t.sent = .control m :: s.sent ∧ m.mtype = 0x10 ∧
      t.obj (0x5210 + q) 3 = min (s.obj (0x5210 + q) 3 + 1) (2 ^ 32 - 1) ∧ t = { s with regs := t.regs, disps := t.disps, sent := t.sent }) ∧
    (x.st = .asked → k.began + s.castLimit q ≤ s.elapsed → ∃ t k', exec (.multicastTimeout q k.id) s = .next t ∧ (t.disp q).tokens = [k'] ∧ k'.unicast = true ∧ t.obj (0x5210 + q) 2 = min (s.obj (0x5210 + q) 2 + 1) (2 ^ 32 - 1) ∧
      t = { s with regs := t.regs, disps := t.disps, sent := t.sent }) ∧
    (x.st = .launched → (s.disp q).queue = [] → ∃ t, exec (.copyReceiptConfirm q x.resId) s = .next t ∧ (t.disp q).tokens = [] ∧ t = { s with disps := t.disps })) ∧
  (∀ (s : State) (q n : Nat) (r : Taken), (s.disp q).taken = [r] → (s.disp q).queue = [] →
    (∀ h rest, r.landed = false → s.physicalOf q (xIntake (s.expert r.expert)) = some n → (h :: rest).length ≤ 8 →
      ∃ t p, exec (.copyArrive q ⟨r.device, r.part, r.resId⟩ (h :: rest)) s = .next t ∧ t.sent = .confirm r.device r.part r.resId :: .packet ((s.sequencerPos q).getD 0) false p :: s.sent ∧ p.ptype = .write ∧
        p.rows = (h :: rest).length ∧ p.sigEn = true ∧ p.sigAdd = 1 ∧ p.sigGauge = xGauge (s.expert r.expert) ∧ (p.dstX, p.dstY) = (xOf n, yOf n) ∧ p.data.drop 1 = rest.map encodeRow ∧
        (t.disp q).taken = [{ r with landed := true }] ∧ t.obj (0x5210 + q) 1 = min (s.obj (0x5210 + q) 1 + 1) (2 ^ 64 - 1) ∧ t = { s with regs := t.regs, disps := t.disps, sent := t.sent }) ∧
    (∀ m, q < 12 → ctrlOk 0x12 m = true → (∀ j, j < q → (s.disp j).taken = [] ∧ (s.disp j).queue = []) → mRes m = r.resId → m.src = r.device → mPart m = r.part → mExpert m = r.expert →
      ∃ t, exec (.reservationCancel m) s = .next t ∧ (t.disp q).taken = [] ∧ t = { s with disps := t.disps }) ∧
    (∀ p v, soundPacket p → (s.disp q).held = [] → commonOk p = true → p.data.map decodeWord = [Decoded.clean v] → s.releaseOk q v.toNat = true →
      ∃ t a, exec (.releaseRequest q p) s = .next t ∧ (t.disp q).taken = [] ∧ t.sent = .packet ((s.sequencerPos q).getD 0) true a :: s.sent ∧ a.ptype = .ack ∧ t = { s with regs := t.regs, disps := t.disps, sent := t.sent })) ∧
  (∀ (s : State) (q rows : Nat) (p : Packet) (h : Row), soundPacket p → (s.disp q).held = [] → s.isOwn p.srcDevice = true → p.data.map decodeWord = [Decoded.clean h] →
    (rows ≠ 1 ∨ commonOk p = false ∨ reqKind h.toNat ≠ 3 ∨ s.headerOk h.toNat = false →
      ∃ t a, exec (.hintRequest q ⟨rows, p⟩) s = .next t ∧ t = { s with disps := t.disps, sent := .packet ((s.sequencerPos q).getD 0) true a :: s.sent } ∧ a.ptype = .status ∧ a.status = stBadValue ∧ t.disp q = s.disp q) ∧
    (rows = 1 → commonOk p = true → reqKind h.toNat = 3 → s.headerOk h.toNat = true → (s.disp q).tokens = [] → (s.disp q).parts = [] → (∀ e, e ∈ reqTargets h.toNat → xRows (s.expert e) = 0) →
      ∃ t a, exec (.hintRequest q ⟨rows, p⟩) s = .next t ∧ t.sent = .packet ((s.sequencerPos q).getD 0) true a :: s.sent ∧ a.ptype = .ack ∧ t.obj (0x5210 + q) 7 = s.obj (0x5210 + q) 7 ∧
        t = { s with regs := t.regs, disps := t.disps, sent := t.sent }) ∧
    (∀ e x a k srv, rows = 1 → commonOk p = true → reqKind h.toNat = 3 → s.headerOk h.toNat = true → (s.disp q).tokens = [] → (s.disp q).parts = [] → reqTargets h.toNat = [e] →
      s.isOwn (xDevice (s.expert e)) = true → s.expertPartition e = some x → hintReads (s.expert e) = [(a, k)] → srv = (s.memPlace x 1 (farOffset a)).1 → (s.server srv).dead = false → s.holdFull x e = false →
      ∃ t y, exec (.hintRequest q ⟨rows, p⟩) s = .next t ∧ t.sent = .memRead srv (s.server srv).nextId :: .packet ((s.sequencerPos q).getD 0) true y :: s.sent ∧ y.ptype = .ack ∧
        t.obj (0x5210 + q) 7 = min (s.obj (0x5210 + q) 7 + 1) (2 ^ 32 - 1) ∧ t = { s with regs := t.regs, disps := t.disps, hbms := t.hbms, channels := t.channels, sent := t.sent }))

/-- Every context_op with an unused field set answers BAD_VALUE; on a FREE slot every operation but OPEN answers NOT_READY. OPEN of a FREE slot in an applied pool with two free pages makes it IDLE with a new epoch, the operand's seed, tenant and partition, position 0, priority 0x80 and a map page that reads zero. CLOSE takes IDLE to RELEASING and ACTIVE to CLOSING (PENDING). SET_POSITION of a usable context sets a position from its present one up to 16,384, and answers BAD_VALUE otherwise; SET_PRIORITY, PIN and UNPIN set their field; PROMOTE leaves the descriptor but for its damage mark; DEMOTE answers BAD_VALUE with no DDR5 pool and BUSY unless IDLE and unpinned; READ puts the 512-bit descriptor into 3400:03. No operation changes another slot's descriptor, but for the damage mark of one whose page map is found lost. POOL_APPLY answers BUSY with a context open or a job, and otherwise, with no page move queued anywhere, makes valid pools. PAGE_MOVE_COMPLETE of no move in flight changes nothing; of a background fill it zeroes the page and counts it, once where no context of the partition is listed. PAGE_RELEASE_COMPLETE frees a RELEASING context without pages and changes no other. PIN_WAIT_RELEASE hands over the lanes of the first in line and changes nothing for another. (R269, R271, R272, R274, R275, R276, R277, R283, R287) -/
def Obligations.ContextsPoolsAndPages : Prop :=
  (∀ (s : State) (sess op : Nat) (v : BitVec 256) (i : Instr), s.writeGuard sess 0x3400 2 = none →
      (op = 1 ∧ i = .ctxOpen sess v ∨ op = 2 ∧ i = .ctxClose sess v ∨ op = 3 ∧ i = .ctxSetPosition sess v ∨ op = 4 ∧ i = .ctxSetPriority sess v ∨ op = 5 ∧ i = .ctxPin sess v ∨
       op = 6 ∧ i = .ctxUnpin sess v ∨ op = 7 ∧ i = .ctxPromote sess v ∨ op = 8 ∧ i = .ctxDemote sess v ∨ op = 9 ∧ i = .ctxRead sess v) →
    (ctxFieldsOk v.toNat op = false → ∃ t, exec i s = .next t ∧ t.obj 0x3400 2 = stBadValue ∧ t = { s with regs := t.regs, sent := t.sent } ∧ s.sameRegs t [okey 0x3400 2 0]) ∧
    (ctxFieldsOk v.toNat op = true → op ≠ 1 → (s.ctx (ctxSlot v.toNat)).st = .free → ∃ t, exec i s = .next t ∧ t.obj 0x3400 2 = stNotReady ∧ t.ctxs = s.ctxs ∧ t.hbm = s.hbm ∧ t.pools = s.pools) ∧
    (op ≠ 1 → ∃ t, exec i s = .next t ∧ ∀ k, k ≠ ctxSlot v.toNat → t.ctx k = { s.ctx k with damaged := (t.ctx k).damaged })) ∧
  (∀ (s : State) (sess slot q : Nat) (v : BitVec 256), s.writeGuard sess 0x3400 2 = none → ctxFieldsOk v.toNat 1 = true → slot = ctxSlot v.toNat → q = fieldOf v.toNat 132 4 → q ≤ 11 →
      (s.pool q).applied = true → (s.ctx slot).st = .free → (s.pool q).hbm.front = [] → (s.pool q).hbm.back = [] → (s.pool q).hbm.next + 2 ≤ (s.pool q).hbm.size → s.spans = [] →
    ∃ t, exec (.ctxOpen sess v) s = .next t ∧ t.obj 0x3400 2 = stOk ∧ (t.ctx slot).st = .idle ∧ (t.ctx slot).epoch = ((s.ctx slot).epoch + 1) % 2 ^ 32 ∧ (t.ctx slot).seed = fieldOf v.toNat 192 64 ∧
      (t.ctx slot).tenant = fieldOf v.toNat 160 32 ∧ (t.ctx slot).partition = q ∧ (t.ctx slot).position = 0 ∧ (t.ctx slot).priority = 0x80 ∧ (t.ctx slot).pages = 0 ∧ (t.ctx slot).pinned = false ∧
      (t.ctx slot).mapEntry = pageEntry false (s.pool q).hbm.next ∧ (t.ctx slot).commitEntry = pageEntry false ((s.pool q).hbm.next + 1) ∧
      ∀ r, r < 2048 → Tbl.get t.hbm 0 (s.pageAddr q false (s.pool q).hbm.next / 32 + r) = 0) ∧
  (∀ (s : State) (sess slot : Nat) (v : BitVec 256) (c : Ctx), s.writeGuard sess 0x3400 2 = none → slot = ctxSlot v.toNat → c = s.ctx slot →
    (ctxFieldsOk v.toNat 2 = true → c.st = .idle → ∃ t, exec (.ctxClose sess v) s = .next t ∧ t.obj 0x3400 2 = stOk ∧ t.ctx slot = { c with st := .releasing }) ∧
    (ctxFieldsOk v.toNat 2 = true → c.st = .active → ∃ t, exec (.ctxClose sess v) s = .next t ∧ t.obj 0x3400 2 = stPending ∧ t.ctx slot = { c with st := .closing }) ∧
    (c.st = .idle ∨ c.st = .active →
      (ctxFieldsOk v.toNat 3 = true → ∃ t, exec (.ctxSetPosition sess v) s = .next t ∧ t.hbm = s.hbm ∧ t.pools = s.pools ∧
        if c.position ≤ fieldOf v.toNat 192 32 ∧ fieldOf v.toNat 192 32 ≤ 16384 then t.obj 0x3400 2 = stOk ∧ t.ctx slot = { c with position := fieldOf v.toNat 192 32 }
        else t.obj 0x3400 2 = stBadValue ∧ t.ctxs = s.ctxs) ∧
      (ctxFieldsOk v.toNat 4 = true → ∃ t, exec (.ctxSetPriority sess v) s = .next t ∧ t.obj 0x3400 2 = stOk ∧ t.ctx slot = { c with priority := fieldOf v.toNat 192 8 } ∧ t.hbm = s.hbm) ∧
      (ctxFieldsOk v.toNat 5 = true → ∃ t, exec (.ctxPin sess v) s = .next t ∧ t.obj 0x3400 2 = stOk ∧ t.ctx slot = { c with pinned := true, damaged := (t.ctx slot).damaged }) ∧
      (ctxFieldsOk v.toNat 6 = true → ∃ t, exec (.ctxUnpin sess v) s = .next t ∧ t.obj 0x3400 2 = stOk ∧ t.ctx slot = { c with pinned := false } ∧ t.hbm = s.hbm) ∧
      (ctxFieldsOk v.toNat 7 = true → ∃ t, exec (.ctxPromote sess v) s = .next t ∧ t.obj 0x3400 2 = stOk ∧ t.ctx slot = { c with damaged := (t.ctx slot).damaged })) ∧
    (ctxFieldsOk v.toNat 8 = true → c.st ≠ .free → (s.pool c.partition).ddr.size = 0 → ∃ t, exec (.ctxDemote sess v) s = .next t ∧ t.obj 0x3400 2 = stBadValue ∧ t.ctxs = s.ctxs) ∧
    (ctxFieldsOk v.toNat 8 = true → c.st ≠ .free → (s.pool c.partition).ddr.size ≠ 0 → c.st ≠ .idle ∨ c.pinned = true → ∃ t, exec (.ctxDemote sess v) s = .next t ∧ t.obj 0x3400 2 = stBusy ∧ t.ctxs = s.ctxs) ∧
    (ctxFieldsOk v.toNat 8 = true → c.st = .idle → (s.pool c.partition).ddr.size ≠ 0 → c.pinned = false → ∃ t, exec (.ctxDemote sess v) s = .next t ∧ t.obj 0x3400 2 = stOk ∧ t.ctx slot = { c with damaged := (t.ctx slot).damaged }) ∧
    (ctxFieldsOk v.toNat 9 = true → c.st ≠ .free → ∃ t, exec (.ctxRead sess v) s = .next t ∧ t.obj 0x3400 2 = stOk ∧ t.obj 0x3400 3 = c.word ∧ t.ctxs = s.ctxs ∧ t.hbm = s.hbm)) ∧
  (∀ (s : State) (sess q : Nat), q < 12 → s.writeGuard sess (0x3410 + q) 6 = none →
    (s.jobState q ≠ 0 ∨ (∃ e, e ∈ s.ctxs ∧ e.2.st ≠ .free ∧ e.2.partition = q) → ∃ t, exec (.poolApply sess q) s = .next t ∧ t.obj (0x3410 + q) 6 = stBusy ∧ t.pools = s.pools ∧ s.sameRegs t [okey (0x3410 + q) 6 0]) ∧
    (s.jobState q = 0 → (∀ e, e ∈ s.ctxs → e.2.st = .free ∨ e.2.partition ≠ q) → s.windowLost q = false → s.obj (0x3410 + q) 0 % 65536 = 0 → s.obj (0x3410 + q) 0 + 65536 * s.obj (0x3410 + q) 1 ≤ s.obj (0x3410 + q) 4 →
      s.obj (0x3410 + q) 2 % 65536 = 0 → s.obj (0x3410 + q) 3 = 0 → s.obj (0x3410 + q) 4 % 32 = 0 → s.obj (0x3410 + q) 4 + 262144 ≤ (s.cfg q).hbmSize → s.obj (0x3410 + q) 5 % 32 = 0 →
      32 ≤ s.obj (0x3410 + q) 5 → s.obj (0x3410 + q) 5 ≤ 32768 → (s.cfg q).tenant = 0 → s.pagers = [] →
      ∃ t, exec (.poolApply sess q) s = .next t ∧ t.obj (0x3410 + q) 6 = stOk ∧ (t.pool q).applied = true ∧ (t.pool q).hbm.size = s.obj (0x3410 + q) 1 ∧ (t.pool q).laneArea = s.obj (0x3410 + q) 4 ∧
        (t.pool q).kvBytes = s.obj (0x3410 + q) 5 ∧ t.hbm = s.hbm ∧ t.ctxs = s.ctxs)) ∧
  (∀ (s : State) (q id : Nat), (∀ m, m ∈ (s.pager q).flight → m.id ≠ id) → exec (.pageMoveComplete q id) s = .next s) ∧
  (∀ (s : State) (q i : Nat) (m : PageMove), q < 12 → (s.pager q).flight = [m] → m.kind = .background → m.page = 0 → m.dst = some i → s.job q = none → (s.pager q).queue = [] → (∀ e, e ∈ s.ctxs → e.2.partition ≠ q) →
    ∃ t, exec (.pageMoveComplete q m.id) s = .next t ∧ t.obj (0x3410 + q) 0xF = min (s.obj (0x3410 + q) 0xF + 1) (2 ^ 64 - 1) ∧
      ∀ r, r < 2048 → Tbl.get t.hbm 0 (s.pageAddr q false i / 32 + r) = 0) ∧
  (∀ (s : State) (slot : Nat), (s.ctx slot).st ≠ .releasing → exec (.pageReleaseComplete slot) s = .next s) ∧
  (∀ (s : State) (slot : Nat) (c : Ctx), c = s.ctx slot → c.st = .releasing → (s.pager c.partition).flight = [] → c.pages = 0 → c.mapEntry = 0 → c.commitEntry = 0 → c.opens = none →
    ∃ t, exec (.pageReleaseComplete slot) s = .next t ∧ t.ctx slot = { c with st := .free, damaged := false, pinned := false } ∧ ∀ k, k ≠ slot → t.ctx k = { s.ctx k with damaged := (t.ctx k).damaged }) ∧
  (∀ (s : State) (q : Nat), s.pinQueue.head? ≠ some q → exec (.pinWaitRelease q) s = .next s) ∧
  (∀ (s : State) (q : Nat) (rest : List Nat) (j : Job) (e : Entry), s.pinQueue = q :: rest → s.job q = some j → j.entry = some e → s.pinsHeld + e.lanes ≤ 8192 →
    ∃ t k, exec (.pinWaitRelease q) s = .next t ∧ t.pinQueue = rest ∧ t.job q = some k ∧ k.pinned = e.lanes ∧ k.pins = false ∧ k.laneRecs.length = e.lanes)

/-- SVC_APPLY answers BUSY unless stopped, BAD_VALUE where an area leaves the window, else takes over the 14 configuration values. SVC_START of a stopped service makes it running if its job runs, else starting, and changes nothing of a running one. SVC_STOP waits for the boundary (PENDING) while a step runs, else stops at once: the requests are answered DEGRADED with reason 5 and none is left; a start or stop while a stop waits or the service is starting is latched. ENTRY_SEAL of a running language service gives the waiting request a lane, consumes the tokens of its first chunk and writes the entry of its key; VISION_TICK_SEAL of a vision service places its group's frames, leaves the others and writes the tick's entry; both do nothing otherwise. Of sound messages, EVENT_BOUNDARY of a partition with no service only returns the message's credits; a done output record of a GENERATE ends it with its tokens, length and reason. EVENT_JOB_STATE makes a starting or recovering service running once the job is WAITING or STEPPING. CONNECTION_LOST ends its waiting request unanswered; without requests it changes nothing, as do CONTEXT_IDLE_TIMEOUT of a slot that is free, in use or used within context_idle_s, and RECOVERY_RESUME_TIMEOUT of a service that does not recover; an IDLE context unused for that long goes to RELEASING, a recovering service's requests are dropped. (R229, R230, R365, R367, R368, R373, R374, R375, R376, R399) -/
def Obligations.ServicesAreConfiguredStartedAndFed : Prop :=
  (∀ (s : State) (sess n : Nat), n < 16 → s.writeGuard sess (0x9100 + n) 0xF = none →
    ∃ t, exec (.svcApply sess n) s = .next t ∧ t = { s with regs := t.regs, svcs := t.svcs, sent := t.sent } ∧ s.sameRegs t [okey (0x9100 + n) 0xF 0] ∧ (∀ m, m ≠ n → t.svc m = s.svc m) ∧
      (s.obj (0x9100 + n) 0 ≠ 0 → t.obj (0x9100 + n) 0xF = stBusy ∧ t.svcs = s.svcs) ∧
      (s.obj (0x9100 + n) 0 = 0 → s.svcAreasOk ((List.range 14).map (fun i => s.obj (0x9100 + n) (i + 1))) = false → t.obj (0x9100 + n) 0xF = stBadValue ∧ t.svcs = s.svcs) ∧
      (s.obj (0x9100 + n) 0 = 0 → s.svcAreasOk ((List.range 14).map (fun i => s.obj (0x9100 + n) (i + 1))) = true →
        t.obj (0x9100 + n) 0xF = stOk ∧ t.svc n = { s.svc n with cfg := (List.range 14).map (fun i => s.obj (0x9100 + n) (i + 1)) })) ∧
  (∀ (s : State) (sess n : Nat), n < 16 → s.writeGuard sess (0x9100 + n) 0xF = none →
    ∃ t, exec (.svcStart sess n) s = .next t ∧ t = { s with regs := t.regs, svcs := t.svcs, sent := t.sent } ∧ s.sameRegs t [okey (0x9100 + n) 0xF 0, okey (0x9100 + n) 0 0] ∧
      (s.obj (0x9100 + n) 0 = 0 → t.obj (0x9100 + n) 0xF = stOk ∧ t.obj (0x9100 + n) 0 = (if s.jobRuns (s.svcPart n) then 2 else 1)) ∧
      (s.obj (0x9100 + n) 0 ≠ 0 → (s.svc n).stopAt = true → t.obj (0x9100 + n) 0xF = stRestartPending ∧ t.svc n = { s.svc n with latch := some 2 } ∧ t.obj (0x9100 + n) 0 = s.obj (0x9100 + n) 0) ∧
      (s.obj (0x9100 + n) 0 = 1 → (s.svc n).latch ≠ none → t.obj (0x9100 + n) 0xF = stRestartPending ∧ t.svc n = { s.svc n with latch := some 2 } ∧ t.obj (0x9100 + n) 0 = 1) ∧
      (s.obj (0x9100 + n) 0 = 2 ∨ s.obj (0x9100 + n) 0 = 1 ∧ (s.svc n).latch = none → (s.svc n).stopAt = false → t.obj (0x9100 + n) 0xF = stOk ∧ t.svcs = s.svcs ∧ t.obj (0x9100 + n) 0 = s.obj (0x9100 + n) 0)) ∧
  (∀ (s : State) (sess n : Nat), n < 16 → s.writeGuard sess (0x9100 + n) 0xF = none →
    (s.obj (0x9100 + n) 0 = 0 → ∃ t, exec (.svcStop sess n) s = .next t ∧ t.obj (0x9100 + n) 0xF = stOk ∧ t = { s with regs := t.regs, sent := t.sent } ∧ s.sameRegs t [okey (0x9100 + n) 0xF 0]) ∧
    (s.obj (0x9100 + n) 0 = 2 → (s.svc n).stopAt = false → s.jobState (s.svcPart n) = 3 ∨ s.jobState (s.svcPart n) = 4 →
      ∃ t, exec (.svcStop sess n) s = .next t ∧ t.obj (0x9100 + n) 0xF = stPending ∧ t.svc n = { s.svc n with stopAt := true } ∧ t = { s with regs := t.regs, svcs := t.svcs, sent := t.sent } ∧
        s.sameRegs t [okey (0x9100 + n) 0xF 0]) ∧
    (∀ x, s.obj (0x9100 + n) 0 = 2 → (s.svc n).stopAt = false → (s.svc n).latch = none → s.jobState (s.svcPart n) ≠ 3 → s.jobState (s.svcPart n) ≠ 4 → (s.svc n).waiting = [x] → (s.svc n).active = [] →
      (s.svc n).frames = [] → x.lost = false → x.askers = [] →
      ∃ t, exec (.svcStop sess n) s = .next t ∧ t.obj (0x9100 + n) 0xF = stOk ∧ t.obj (0x9100 + n) 0 = 0 ∧ (t.svc n).waiting = [] ∧ (t.svc n).active = [] ∧
        t.sent = .answer sess (0x9100 + n) 0xF stOk :: .response x.client ([(0, .uint 0), (1, .uint x.reqId), (2, .uint stDegraded)] ++ s.endKeys x 5) :: s.sent ∧
        t = { s with regs := t.regs, svcs := t.svcs, ctxs := t.ctxs, sent := t.sent } ∧ t.ctx x.slot = { s.ctx x.slot with used := s.elapsed } ∧ (∀ k, k ≠ x.slot → t.ctx k = s.ctx k) ∧
        s.sameRegs t [okey (0x9100 + n) 0xF 0, okey (0x9100 + n) 0 0, okey 0x9000 7 0]) ∧
    (s.obj (0x9100 + n) 0 ≠ 0 → (s.svc n).stopAt = true ∨ s.obj (0x9100 + n) 0 = 1 → ∃ t, exec (.svcStop sess n) s = .next t ∧ t.obj (0x9100 + n) 0xF = stRestartPending ∧
      t.svc n = { s.svc n with latch := some 0 } ∧ (∀ k, k ≠ n → t.svc k = s.svc k) ∧ t = { s with regs := t.regs, svcs := t.svcs, sent := t.sent } ∧ s.sameRegs t [okey (0x9100 + n) 0xF 0])) ∧
  (∀ (s : State) (n : Nat), s.obj (0x9100 + n) 0 ≠ 2 ∨ s.svcVal n 1 ≠ 1 ∨ s.jobRuns (s.svcPart n) = false → exec (.entrySeal n) s = .next s) ∧
  (∀ (s : State) (n q key k : Nat) (j : Job) (x : SvcReq), s.obj (0x9100 + n) 0 = 2 → s.svcVal n 1 = 1 → q = s.svcPart n → s.jobRuns q = true → s.job q = some j → key = s.entryKey n → s.quietMemory →
      (s.svc n).waiting = [x] → (s.svc n).active = [] → (s.svc n).lanes = [] → x.leave = none → 1 ≤ s.svcVal n 5 → k = min (s.svcVal n 7) x.tokens.length → k ≤ s.svcVal n 6 →
    ∃ t, exec (.entrySeal n) s = .next t ∧ t.entryWritten q key 1 (32 * Config.laneListAt n key) j ∧ t.sent = s.sent ∧ t.ctxs = s.ctxs ∧ t.regs = s.regs ∧
      t.svc n = { s.svc n with waiting := [], lanes := [x.seq], sealed := (s.svc n).sealed ++ [(key, [x.seq])], nextKey := some (key + 1), active := [{ x with tokens := x.tokens.drop k, sample := x.sample && !(x.tokens.drop k).isEmpty, lastKey := some key }] }) ∧
  (∀ (s : State) (n tick : Nat), s.obj (0x9100 + n) 0 ≠ 2 ∨ s.svcVal n 1 ≠ 2 ∨ s.jobRuns (s.svcPart n) = false → exec (.visionTickSeal n tick) s = .next s) ∧
  (∀ (s : State) (n tick q : Nat) (j : Job), s.obj (0x9100 + n) 0 = 2 → s.svcVal n 1 = 2 → q = s.svcPart n → s.jobRuns q = true → s.job q = some j → s.quietMemory →
    ∃ t, exec (.visionTickSeal n tick) s = .next t ∧ t.entryWritten q tick 0 0 j ∧ t.sent = s.sent ∧ t.ctxs = s.ctxs ∧ t.regs = s.regs ∧
      t.svc n = { s.svc n with sealed := (s.svc n).sealed ++ [(tick, [])], frames := (s.svc n).frames.map (fun f => if f.tick.isNone && f.stream % s.svcGroups n == tick % s.svcGroups n then { f with tick := some tick } else f) }) ∧
  (∀ (s : State) (m : Nat) (d : DtlMsg), soundMsg d → (∀ n, n < 16 → s.obj (0x9100 + n) 0 = 0 ∨ s.svcPart n ≠ d.partition) → s.closers = [] →
    exec (.eventBoundary m d) s = .next (s.dtlIn m false d)) ∧
  (∀ (s : State) (m n : Nat) (d : DtlMsg) (r : SvcReq) (o : OutRecord), soundMsg d → n < 16 → s.closers = [] → s.obj (0x9100 + n) 0 ≠ 0 → s.svcPart n = d.partition →
      (∀ k, k < 16 → k ≠ n → s.obj (0x9100 + k) 0 = 0 ∨ s.svcPart k ≠ d.partition) → s.svcVal n 1 = 1 → fieldOf d.arg 8 8 = 2 → (s.svc n).sealed = [(d.addr, [r.seq])] → (s.svc n).active = [r] →
      (s.svc n).waiting = [] → (s.svc n).stopAt = false → r.gen = true → r.leave = none → r.lost = false → r.askers = [] → s.readOutput n d.addr 0 = (s, some o) → bitOf o.flags 0 = true →
    ∃ t u, exec (.eventBoundary m d) s = .next t ∧ u = s.dtlIn m false d ∧ (t.svc n).active = [] ∧ (t.svc n).sealed = [] ∧ Tbl.get t.lens 0 r.slot = o.length ∧
      t.sent = .response r.client [(0, .uint 0), (1, .uint r.reqId), (2, .uint stOk), (5, .array o.tokens), (4, .uint o.length), (6, .uint (doneReason o.flags))] :: u.sent) ∧
  (∀ (s : State) (m n st : Nat) (d : DtlMsg), soundMsg d → n < 16 → st = fieldOf d.arg 8 8 → st = 2 ∨ st = 3 → s.obj (0x9100 + n) 0 = 1 ∨ s.obj (0x9100 + n) 0 = 3 → s.svcPart n = d.partition → (s.svc n).latch = none →
      s.closers = [] → (∀ k, k < 16 → k ≠ n → s.svcPart k ≠ d.partition) →
    ∃ t u, exec (.eventJobState m d) s = .next t ∧ u = s.dtlIn m false d ∧ t.obj (0x9100 + n) 0 = 2 ∧ t.svc n = { s.svc n with nextKey := none, sealed := [] } ∧
      t = { u with regs := t.regs, svcs := t.svcs } ∧ u.sameRegs t [okey (0x9100 + n) 0 0]) ∧
  (∀ (s : State) (conn : Nat), (∀ n, n < 16 → ∀ r, r ∈ (s.svc n).waiting ++ (s.svc n).active → r.client.conn ≠ conn) → exec (.connectionLost conn) s = .next s) ∧
  (∀ (s : State) (conn n : Nat) (x : SvcReq), n < 16 → (s.svc n).waiting = [x] → (s.svc n).active = [] → (∀ k, k < 16 → k ≠ n → (s.svc k).waiting = [] ∧ (s.svc k).active = []) → x.client.conn = conn →
      x.lastKey = none → x.askers = [] →
    ∃ t, exec (.connectionLost conn) s = .next t ∧ t = { s with svcs := t.svcs, ctxs := t.ctxs } ∧ t.svc n = { s.svc n with waiting := [] } ∧ t.ctx x.slot = { s.ctx x.slot with used := s.elapsed } ∧
      (∀ k, k ≠ x.slot → t.ctx k = s.ctx k)) ∧
  (∀ (s : State) (slot : Nat), (s.ctx slot).st = .free ∨ (s.reqOn slot).isSome = true ∨ s.elapsed < (s.ctx slot).used + secTide * s.obj 0x9000 5 → exec (.contextIdleTimeout slot) s = .next s) ∧
  (∀ (s : State) (slot : Nat), slot < 262144 → (s.ctx slot).st = .idle → s.reqOn slot = none → (s.ctx slot).used + secTide * s.obj 0x9000 5 ≤ s.elapsed → ∃ t, exec (.contextIdleTimeout slot) s = .next t ∧ t.ctx slot = { s.ctx slot with st := .releasing }) ∧
  (∀ (s : State) (n : Nat), s.obj (0x9100 + n) 0 ≠ 3 ∨ s.elapsed < s.faults.recoverAt + 5 * secTide → exec (.recoveryResumeTimeout n) s = .next s) ∧
  (∀ (s : State) (n : Nat), n < 16 → s.obj (0x9100 + n) 0 = 3 → s.faults.recoverAt + 5 * secTide ≤ s.elapsed → ∃ t, exec (.recoveryResumeTimeout n) s = .next t ∧ t.svc n = { s.svc n with waiting := [], active := [], lanes := [], sealed := [], frames := [] } ∧
    t.obj (0x9100 + n) 0 = 3)

/-- Each of the seven requests whose map is not well formed for its operation is answered with one final map of status BAD_VALUE and has no other effect. OPEN_CONTEXT of an admitted tenant opens a slot with the tenant, seed and priority given and answers its number; a tenant at its limit gets REFUSED. APPEND and GENERATE of a usable context with nothing in progress join the service's queue behind the others, or are answered BUSY where queue_max wait or the context has a request in progress. CANCEL with nothing in progress answers OK; during a request whose lane no sealed entry holds, the request ends with reason 3 and the CANCEL is answered. CLOSE_CONTEXT of an IDLE context with nothing in progress makes it RELEASING and answers reason 4. SUBMIT_FRAME appends the frame, answering the stream's waiting frame REFUSED with reason 17. STATUS is answered NOT_READY while the endpoint is closed or the service it names does not answer, else with device mode and the tenant's contexts. (R366, R369, R370, R371, R372, R373, R374, R375, R376) -/
def Obligations.EndpointRequestsAreServed : Prop :=
  (∀ (s : State) (r : Request) (i : Instr) (op : Nat) (need may : List Nat),
      (i = .reqOpenContext r ∧ op = 1 ∧ need = [2] ∧ may = [9, 10] ∨ i = .reqAppend r ∧ op = 2 ∧ need = [3, 4] ∧ may = [] ∨ i = .reqGenerate r ∧ op = 3 ∧ need = [3, 5] ∧ may = [4, 6, 7, 8] ∨
       i = .reqCancel r ∧ op = 4 ∧ need = [3] ∧ may = [] ∨ i = .reqCloseContext r ∧ op = 5 ∧ need = [3] ∧ may = [] ∨ i = .reqSubmitFrame r ∧ op = 6 ∧ need = [2, 11, 12] ∧ may = [] ∨
       i = .reqStatus r ∧ op = 7 ∧ need = [] ∧ may = [2, 3]) → s.requestMap r op need may = none →
    ∃ t, exec i s = .next t ∧ s.answered t r.client (reqIdOf r) stBadValue []) ∧
  (∀ (s : State) (r : Request) (m : CborMap) (n seed prio e q slot : Nat), s.requestMap r 1 [2] [9, 10] = some m → uintOr m 2 16 16 = some n → n < 16 → uintOr m 9 0 (2 ^ 64) = some seed →
      uintOr m 10 128 256 = some prio → s.answers n = true → s.tenantOf r.client = some e →
    (teMax e ≤ s.openOf (teTenant e) → ∃ t, exec (.reqOpenContext r) s = .next t ∧ s.answered t r.client (reqIdOf r) stRefused []) ∧
    (s.openOf (teTenant e) < teMax e → s.pickSlot.2 = some slot → (s.ctx slot).st = .free → q = s.svcPart n → q ≤ 11 → (s.pool q).applied = true → (s.pool q).hbm.front = [] → (s.pool q).hbm.back = [] →
        (s.pool q).hbm.next + 2 ≤ (s.pool q).hbm.size → s.spans = [] →
      ∃ t, exec (.reqOpenContext r) s = .next t ∧ (t.ctx slot).st = .idle ∧ (t.ctx slot).tenant = teTenant e ∧ (t.ctx slot).seed = seed ∧ (t.ctx slot).priority = prio ∧ (t.ctx slot).partition = q ∧
        (t.ctx slot).position = 0 ∧ (t.ctx slot).epoch = ((s.ctx slot).epoch + 1) % 2 ^ 32 ∧ Tbl.get t.lens 0 slot = 0 ∧
        ∃ rest, t.sent = .response r.client [(0, .uint 0), (1, .uint (reqIdOf r)), (2, .uint stOk), (3, .uint (2 ^ 18 * (t.ctx slot).epoch + slot))] :: rest)) ∧
  (∀ (s : State) (r : Request) (m : CborMap) (v slot n tenant : Nat) (ts : List Nat), s.requestMap r 2 [3, 4] [] = some m → uintOf m 3 = some v → arrayOr m 4 1 65536 (2 ^ 32 - 1) = some ts →
      s.ctxFor r v = .ok (slot, n, tenant) →
    ((s.reqOn slot).isSome = true → ∃ t, exec (.reqAppend r) s = .next t ∧ s.answered t r.client (reqIdOf r) stBusy []) ∧
    (s.reqOn slot = none → s.svcVal n 8 < Tbl.get s.lens 0 slot + ts.length → ∃ t, exec (.reqAppend r) s = .next t ∧ s.answered t r.client (reqIdOf r) stBadValue []) ∧
    (s.reqOn slot = none → Tbl.get s.lens 0 slot + ts.length ≤ s.svcVal n 8 → s.svcVal n 9 ≤ (s.svc n).waiting.length →
      ∃ t, exec (.reqAppend r) s = .next t ∧ t.sent = .response r.client [(0, .uint 0), (1, .uint (reqIdOf r)), (2, .uint stBusy)] :: s.sent ∧ t = { s with regs := t.regs, sent := t.sent } ∧
        s.sameRegs t [okey 0x9000 7 0, okey 0x9000 8 0]) ∧
    (s.reqOn slot = none → Tbl.get s.lens 0 slot + ts.length ≤ s.svcVal n 8 → (s.svc n).waiting.length < s.svcVal n 9 →
      ∃ t, exec (.reqAppend r) s = .next t ∧ t = { s with svcs := t.svcs, svcSeq := s.svcSeq + 1 } ∧ (∀ k, k ≠ n → t.svc k = s.svc k) ∧
        t.svc n = { s.svc n with waiting := (s.svc n).waiting ++ [{ client := r.client, reqId := reqIdOf r, gen := false, slot := slot, tenant := tenant, tokens := ts, seq := s.svcSeq }] })) ∧
  (∀ (s : State) (r : Request) (m : CborMap) (v k temp topP slot n tenant : Nat) (ts stop : List Nat), s.requestMap r 3 [3, 5] [4, 6, 7, 8] = some m → uintOf m 3 = some v → uintOf m 5 = some k →
      arrayOr m 4 1 65536 (2 ^ 32 - 1) = some ts → floatOr m 6 0x3F800000 0 0x40000000 = some temp → floatOr m 7 0x3F800000 1 0x3F800000 = some topP → arrayOr m 8 0 4 (2 ^ 32) = some stop →
    (k = 0 ∨ 16383 < k → ∃ t, exec (.reqGenerate r) s = .next t ∧ s.answered t r.client (reqIdOf r) stBadValue []) ∧
    (1 ≤ k → k ≤ 16383 → s.ctxFor r v = .ok (slot, n, tenant) → s.reqOn slot = none → (s.svc n).waiting.length < s.svcVal n 9 →
      ∃ t, exec (.reqGenerate r) s = .next t ∧ t = { s with svcs := t.svcs, svcSeq := s.svcSeq + 1 } ∧ (∀ k, k ≠ n → t.svc k = s.svc k) ∧
        t.svc n = { s.svc n with waiting := (s.svc n).waiting ++ [{ client := r.client, reqId := reqIdOf r, gen := true, slot := slot, tenant := tenant, tokens := ts, sample := !ts.isEmpty, temp := temp, topP := topP, stop := stop, left := k, seq := s.svcSeq }] })) ∧
  (∀ (s : State) (r : Request) (m : CborMap) (v : Nat) (i : Instr), (i = .reqCancel r ∧ s.requestMap r 4 [3] [] = some m ∨ i = .reqCloseContext r ∧ s.requestMap r 5 [3] [] = some m) → uintOf m 3 = some v →
    (∀ n e, s.svcOf (s.ctx (v % 2 ^ 18)).partition = some n → s.answers n = true → s.tenantOf r.client = some e → (s.ctx (v % 2 ^ 18)).st ≠ .free →
      ((s.ctx (v % 2 ^ 18)).tenant ≠ teTenant e → ∃ t, exec i s = .next t ∧ s.answered t r.client (reqIdOf r) stAccessDenied []) ∧
      ((s.ctx (v % 2 ^ 18)).tenant = teTenant e → (s.ctx (v % 2 ^ 18)).epoch ≠ v / 2 ^ 18 → ∃ t, exec i s = .next t ∧ s.answered t r.client (reqIdOf r) stBadValue [])) ∧
    (∀ slot n tenant, s.ctxFor r v = .ok (slot, n, tenant) →
      (i = .reqCancel r → s.reqOn slot = none → ∃ t, exec i s = .next t ∧ s.answered t r.client (reqIdOf r) stOk []) ∧
      (∀ x k, i = .reqCancel r → s.reqOn slot = some (k, x) → k < 16 → (s.svc k).waiting = [x] → (s.svc k).active = [] → x.lastKey = none → x.leave = none → x.lost = false → x.askers = [] →
        ∃ t, exec i s = .next t ∧ (t.svc k).waiting = [] ∧
          t.sent = .response r.client [(0, .uint 0), (1, .uint (reqIdOf r)), (2, .uint stOk)] :: .response x.client ([(0, .uint 0), (1, .uint x.reqId), (2, .uint stOk)] ++ s.endKeys x 3) :: s.sent) ∧
      (i = .reqCloseContext r → s.reqOn slot = none → (s.ctx slot).st = .idle →
        ∃ t rest, exec i s = .next t ∧ t.ctx slot = { s.ctx slot with st := .releasing } ∧ t.sent = .response r.client [(0, .uint 0), (1, .uint (reqIdOf r)), (2, .uint stOk), (6, .uint 4)] :: rest))) ∧
  (∀ (s : State) (r : Request) (m : CborMap) (n k : Nat) (b : List Byte), s.requestMap r 6 [2, 11, 12] [] = some m → uintOr m 2 16 16 = some n → n < 16 → uintOr m 11 512 512 = some k → k < 512 →
      keyOf m 12 = some (.bytes b) →
    (s.answers n = false → ∃ t, exec (.reqSubmitFrame r) s = .next t ∧ s.answered t r.client (reqIdOf r) stNotReady []) ∧
    (s.answers n = true → s.svcVal n 1 = 2 → b.length = s.svcVal n 0xC → (∀ f, f ∈ (s.svc n).frames → f.stream ≠ k) →
      ∃ t, exec (.reqSubmitFrame r) s = .next t ∧ t = { s with svcs := t.svcs } ∧ t.svc n = { s.svc n with frames := (s.svc n).frames ++ [{ stream := k, client := r.client, reqId := reqIdOf r, bytes := b }] }) ∧
    (∀ f, s.answers n = true → s.svcVal n 1 = 2 → b.length = s.svcVal n 0xC → (s.svc n).frames = [f] → f.stream = k → f.tick = none →
      ∃ t, exec (.reqSubmitFrame r) s = .next t ∧ t.sent = .response f.client [(0, .uint 0), (1, .uint f.reqId), (2, .uint stRefused), (6, .uint 17)] :: s.sent ∧
        (t.svc n).frames = [{ stream := k, client := r.client, reqId := reqIdOf r, bytes := b }])) ∧
  (∀ (s : State) (r : Request) (m : CborMap) (e : Nat), s.requestMap r 7 [] [2, 3] = some m → keyOf m 3 = none → s.tenantOf r.client = some e →
    (keyOf m 2 = none → s.endpointOpen = false → ∃ t, exec (.reqStatus r) s = .next t ∧ s.answered t r.client (reqIdOf r) stNotReady []) ∧
    (∀ n, n < 16 → keyOf m 2 = some (.uint n) → s.answers n = false → ∃ t, exec (.reqStatus r) s = .next t ∧ s.answered t r.client (reqIdOf r) stNotReady []) ∧
    (keyOf m 2 = none → s.endpointOpen = true → ∃ t, exec (.reqStatus r) s = .next t ∧ s.answered t r.client (reqIdOf r) stOk [(9, .info [(0, s.device.mode.code), (2, s.openOf (teTenant e))])]) ∧
    (∀ n, n < 16 → keyOf m 2 = some (.uint n) → s.answers n = true → ∃ t, exec (.reqStatus r) s = .next t ∧ s.answered t r.client (reqIdOf r) stOk
      [(9, .info [(0, s.device.mode.code), (2, s.openOf (teTenant e)), (1, s.obj (0x9100 + n) 0), (3, (s.svc n).waiting.length), (4, (s.svc n).lanes.length)])]))

/-- A report with no record of its key takes the lowest free entry, opens a record of count 1 and sends its notice; a further report of the key only adds to that record; with entries 0 to 254 taken by other keys it joins record 255 and 6000:01 counts. Every report counts in 6000:02. STORM_CLEAR ends a record's active storm once the tenth quiet interval has ended; LEVEE_NOTICE sends a notice only if reports came since the last, 10 ms ago; LEVEE_ENTRY_FREE frees a record only if its count is notified, 1 s after its last report; earlier they change nothing; on an empty entry the three change nothing. EVENT_LEVEE with a sound message puts the notified contents in front of the archive, which keeps 4,096. POWERED_SECOND advances 6010:01, clears the flash budget and writes the history updates that are due unless the module is closed. HISTORY_CLEAR removes a suspect's entries, NOT_READY with none. CLOSURE_DRAIN_EXPIRY of a domain whose drain has not begun or not yet lasted closure_drain_us changes nothing; at its end, of a closed tile it ends the closure, answers the held request FENCED and gives up the tile's outstanding requests; of the device under a recovery reset it empties the levee log and sends QUIESCED. (R365, R403, R493, R494, R495, R496, R497, R498, R504, R519) -/
def Obligations.FaultsAreCoalescedAndRecorded : Prop :=
  (∀ (s : State) (r : Report) (e : Nat), e < 255 → s.levee e = none → (∀ i, i < e → s.levee i ≠ none) → (∀ i x, i < 255 → s.levee i = some x → x.suspect ≠ reportKey r ∨ x.cls ≠ r.cls) →
    ∃ t x m d, exec (.leveeReport r) s = .next t ∧ t.levee e = some x ∧ x.suspect = reportKey r ∧ x.cls = r.cls ∧ x.reporter = reportReporter r ∧ x.count = 1 ∧ x.notices = 1 ∧ x.noticed = 1 ∧
      x.first = s.tide ∧ x.last = s.tide ∧ x.detail = r.detail ∧ x.status = r.status ∧ x.part = r.partition ∧ x.job = r.job ∧ x.step = r.step ∧ x.ownerClosed = r.ownerClosed ∧
      t.sent = .dtl m false d :: s.sent ∧ d.dtype = 0xB ∧ d.arg = 1 ∧ d.cells.length = 2 ∧ t.obj 0x6000 2 = min (s.obj 0x6000 2 + 1) (2 ^ 64 - 1) ∧ (∀ i, i ≠ e → t.levee i = s.levee i) ∧
      t = { s with regs := t.regs, faults := t.faults, sent := t.sent } ∧ s.sameRegs t [okey 0x6000 2 0, okey (0x3210 + m) 4 0]) ∧
  (∀ (s : State) (r : Report) (e : Nat) (x : LeveeRec), e < 255 → s.levee e = some x → x.suspect = reportKey r → x.cls = r.cls →
      (∀ i y, i < e → s.levee i = some y → y.suspect ≠ reportKey r ∨ y.cls ≠ r.cls) →
    ∃ t y, exec (.leveeReport r) s = .next t ∧ t.levee e = some y ∧ y.count = min (x.count + 1) (2 ^ 32 - 1) ∧ y.last = s.tide ∧ y.first = x.first ∧ y.detail = x.detail ∧ y.status = x.status ∧ y.reporter = x.reporter ∧
      y.notices = x.notices ∧ y.ownerClosed = (x.ownerClosed || r.ownerClosed) ∧ x.peak ≤ y.peak ∧ (x.storm = true → y.storm = true) ∧ (∀ i, i ≠ e → t.levee i = s.levee i) ∧
      t = { s with regs := t.regs, faults := t.faults } ∧ s.sameRegs t [okey 0x6000 2 0, okey 0x6000 3 0] ∧ t.obj 0x6000 2 = min (s.obj 0x6000 2 + 1) (2 ^ 64 - 1) ∧
      t.obj 0x6000 3 = (if y.active = true ∧ x.active = false then min (s.obj 0x6000 3 + 1) (2 ^ 32 - 1) else s.obj 0x6000 3)) ∧
  (∀ (s : State) (r : Report) (x : LeveeRec), (∀ i, i < 255 → ∃ y, s.levee i = some y ∧ (y.suspect ≠ reportKey r ∨ y.cls ≠ r.cls)) → s.levee 255 = some x →
    ∃ t y, exec (.leveeReport r) s = .next t ∧ t.levee 255 = some y ∧ y.count = min (x.count + 1) (2 ^ 32 - 1) ∧ t.obj 0x6000 1 = min (s.obj 0x6000 1 + 1) (2 ^ 32 - 1) ∧ t.obj 0x6000 2 = min (s.obj 0x6000 2 + 1) (2 ^ 64 - 1) ∧ ∀ i, i < 255 → t.levee i = s.levee i) ∧
  (∀ (s : State) (e : Nat), s.levee e = none → exec (.stormClear e) s = .next s ∧ exec (.leveeNotice e) s = .next s ∧ exec (.leveeEntryFree e) s = .next s) ∧
  (∀ (s : State) (e : Nat) (x : LeveeRec), s.levee e = some x →
    (x.firstAt + ((x.aboveAt - x.firstAt) / msTide + 11) * msTide ≤ s.elapsed → ∃ t, exec (.stormClear e) s = .next t ∧ t.levee e = some { x with active := false } ∧ t = { s with faults := t.faults } ∧ ∀ i, i ≠ e → t.levee i = s.levee i) ∧
    (¬ (x.firstAt + ((x.aboveAt - x.firstAt) / msTide + 11) * msTide ≤ s.elapsed) → exec (.stormClear e) s = .next s) ∧
    (x.noticed < x.count → x.noticeAt + 10 * msTide ≤ s.elapsed → ∃ t m d, exec (.leveeNotice e) s = .next t ∧ t.levee e = some { x with notices := x.notices + 1, noticed := x.count, noticeAt := s.elapsed } ∧ t.sent = .dtl m false d :: s.sent ∧ d.dtype = 0xB ∧ d.arg = 1) ∧
    (x.count ≤ x.noticed ∨ s.elapsed < x.noticeAt + 10 * msTide → exec (.leveeNotice e) s = .next s) ∧
    (x.count = x.noticed → x.lastAt + secTide ≤ s.elapsed → ∃ t, exec (.leveeEntryFree e) s = .next t ∧ t.levee e = none ∧ t = { s with faults := t.faults } ∧ ∀ i, i ≠ e → t.levee i = s.levee i) ∧
    (x.count ≠ x.noticed ∨ s.elapsed < x.lastAt + secTide → exec (.leveeEntryFree e) s = .next s)) ∧
  (∀ (s : State) (m w : Nat) (d : DtlMsg) (lo hi : Codeword), soundMsg d → d.cells = [lo, hi] → w = 2 ^ 256 * (decodedRow hi).toNat + (decodedRow lo).toNat →
    ∃ t u, exec (.eventLevee m d) s = .next t ∧ u = s.dtlIn m false d ∧ t.faults.archive.head? = some w ∧ t.faults.archive.length ≤ 4096 ∧ (∀ x, x ∈ t.faults.archive → x = w ∨ x ∈ s.faults.archive) ∧
      t = { u with faults := { u.faults with archive := t.faults.archive } }) ∧
  (∀ (s : State), s.power.closed = true → exec .poweredSecond s = .next s) ∧
  (∀ (s : State), s.power.closed = false → ∃ t, exec .poweredSecond s = .next t ∧ t.obj 0x6010 1 = min (s.obj 0x6010 1 + 1) (2 ^ 64 - 1) ∧ t.bamurn.flash.inSecond = 0 ∧
    t = { s with regs := t.regs, bamurn := t.bamurn, faults := t.faults } ∧ s.sameRegs t [okey 0x6010 1 0] ∧ t.faults = { s.faults with stored := t.faults.stored, history := s.faults.history.map (fun e => if e.writes s.elapsed then e.store s.elapsed else e) } ∧
    (s.faults.stored + 60 ≤ t.obj 0x6010 1 → t.faults.stored = t.obj 0x6010 1)) ∧
  (∀ (s : State) (sess code : Nat), s.writeGuard sess 0x6010 2 = none →
    ∃ t, exec (.historyClear sess code) s = .next t ∧ t = { s with regs := t.regs, faults := t.faults, sent := t.sent } ∧ s.sameRegs t [okey 0x6010 2 0] ∧
      t.faults = { s.faults with history := s.faults.history.filter (fun h => h.suspect != code) } ∧
      ((∃ h, h ∈ s.faults.history ∧ h.suspect = code) → t.obj 0x6010 2 = stOk) ∧ ((∀ h, h ∈ s.faults.history → h.suspect ≠ code) → t.obj 0x6010 2 = stNotReady)) ∧
  (∀ (s : State) (d : Domain), (∀ e, e ∈ s.faults.closing → e.1 = d → s.elapsed < e.2) → exec (.closureDrainExpiry d) s = .next s) ∧
  (∀ (s : State) (n h : Nat) (p : Packet), n < 1224 → s.faults.closing = [(.tile n, h)] → h ≤ s.elapsed → (s.tile n).merges = [] → (s.tile n).gau.held = [p] → s.tileState n ≠ 5 ∨ (s.tile n).owner ≠ none →
    ∃ t x, exec (.closureDrainExpiry (.tile n)) s = .next t ∧ t.faults.closing = [] ∧ t.sent = .packet n true x :: s.sent ∧ x.status = stFenced ∧ x.tag = p.tag ∧ (t.tile n).mov.tracks = [] ∧
      (t.tile n).mov.descs = [] ∧ (t.tile n).gau.held = [] ∧ t = { s with faults := t.faults, tiles := t.tiles, sent := t.sent } ∧ ∀ m, m ≠ n → t.tile m = s.tile m) ∧
  (∀ (s : State) (n h : Nat), n < 1224 → s.faults.closing = [(.tile n, h)] → h ≤ s.elapsed → (s.tile n).merges = [] → (s.tile n).gau.held = [] → s.tileState n = 5 → (s.tile n).owner = none → (s.tile n).cause ≠ 0 →
    ∃ t, exec (.closureDrainExpiry (.tile n)) s = .next t ∧ t.tileState n = 6 ∧ t.faults.closing = []) ∧
  (∀ (s : State) (h : Nat), s.faults.closing = [(.device, h)] → h ≤ s.elapsed → s.faults.recovery = .closing →
    ∃ t m rest, exec (.closureDrainExpiry .device) s = .next t ∧ t.faults.recovery = .quiesced ∧ t.faults.levee = [] ∧ t.faults.closing = [] ∧ t.sent = .dtl m false { dtype := 0x0F, arg := 3 } :: rest)

/-- DRAIN_COMPLETE of a drained job of one device restores its gauges from the snapshots, takes it to STEPPING and counts the replay; of a job that halted while it drained it restores the gauges alone. REMAP_COMPLETE, where the target's scrub does not fail, gives the target the logical number, makes it ACTIVE and the closed tile RETIRED; an unreadable closed tile halts the job. After abandon_limit_ms LOCAL_DRAIN_TIMEOUT of an incomplete drain in SERVICE begins a recovery reset of cause 2; DRAINED_MISSING_TIMEOUT halts the job. WATCHDOG_CHECK of a halted queue ends a WAITING job, abandons a STEPPING one the first time, and resets on inconsistent state. ABANDON of the member's own step abandons it, of an older one halts it; DRAINED notes its sender; JOB_HALT halts. CLOSING notes the peer and halts its job here; RECOVERED forgets it. RECOVERY_RESET_COMMAND in SERVICE or TEST begins a reset of cause 1, in RECOVERY is latched; RECOVER_REQ of causes 2 to 4 begins one unless it was asked for here. CLOSE_GO closes the device with its gauges frozen, QUIESCED orders the restart, RESTART clears jobs, experts and dispatchers, each only in its phase. A message with a non-zero reserved bit, and a command whose condition does not hold, change nothing but a sound message's credits. (R214, R233, R505, R506, R507, R509, R511, R512, R513, R514, R515, R516) -/
def Obligations.StepsDrainRestoreAndDevicesRecover : Prop :=
  (∀ (s : State) (q : Nat), s.jobState q ≠ 4 ∧ s.jobState q ≠ 7 ∨ s.drainedHere q = false ∨ s.job q = none ∨ (∃ j, s.job q = some j ∧ j.selfDone = true ∧ s.jobState q ≠ 7) → exec (.drainComplete q) s = .next s) ∧
  (∀ (s : State) (q : Nat) (j : Job), q < 12 → s.job q = some j → s.jobState q = 4 → j.selfDone = false → s.drainedHere q = true → j.barrier = false → j.remaps = [] → j.twin = none → (∀ n, n ∈ j.map → n < 1224) →
    ∃ t k, exec (.drainComplete q) s = .next t ∧ t.job q = some k ∧ k.starting = true ∧ k.selfDone = false ∧ t.jobState q = 3 ∧ t.obj (0x5010 + q) 0xB = min (s.obj (0x5010 + q) 0xB + 1) (2 ^ 32 - 1) ∧
      ∀ n g, n ∈ j.map → g < 128 → (Tbl.get (t.tile n).gau.gauges {} g).value =
        (Tbl.get (s.tile n).gau.snapshot 0 g + (if (Tbl.get (s.tile n).gau.gauges {} g).mask = 0 then 0 else (Tbl.get (s.tile n).gau.gauges {} g).other)) % 2 ^ 32) ∧
  (∀ (s : State) (q : Nat) (readable : Bool), s.job q = none ∨ (∃ j, s.job q = some j ∧ j.remaps = []) → exec (.remapComplete q readable) s = .next s) ∧
  (∀ (s : State) (q : Nat) (j : Job) (r : Remap) (rest : List Remap), q < 12 → s.job q = some j → j.remaps = r :: rest →
    (s.jobState q = 1 ∨ s.jobState q = 2 ∨ s.jobState q = 3 ∨ s.jobState q = 4 → ∃ t, exec (.remapComplete q false) s = .next t ∧ t.jobState q = 7) ∧
    (s.jobState q = 4 → j.selfDone = false → r.target < 1224 → r.closed < 1224 → r.closed ≠ r.target → (s.tile r.closed).cause ≠ 0 → s.plane (clusterOf r.target) = 2 →
      ∃ t, exec (.remapComplete q true) s = .next t ∧ ((s.prepareTile q r.target r.logical (s.step' q)).scrubFailed r.target = false → ∃ k, t.job q = some k ∧ k.remaps = rest ∧ k.map = j.map.set r.logical r.target ∧ t.tileState r.target = 4 ∧ t.tileState r.closed = 6 ∧
        t.obj (0x5040 + q) 2 = min (s.obj (0x5040 + q) 2 + 1) (2 ^ 32 - 1) ∧ t.jobState q = 4))) ∧
  (∀ (s : State) (q : Nat), s.jobState q ≠ 4 ∨ s.drainPast q = false ∨ (∃ j, s.job q = some j ∧ j.selfDone = true) → exec (.localDrainTimeout q) s = .next s) ∧
  (∀ (s : State) (q : Nat) (j : Job), s.job q = some j → s.jobState q = 4 → s.drainPast q = true → j.selfDone = false → s.device.mode = .service →
    ∃ t, exec (.localDrainTimeout q) s = .next t ∧ t.device.mode = .recovery ∧ t.obj 0x6020 4 = 2 ∧ t.faults.recovery = .closing ∧ t.faults.asked = some 2) ∧
  (∀ (s : State) (q : Nat) (j : Job), s.job q = some j →
    (s.jobState q ≠ 4 ∨ s.drainPast q = false ∨ j.selfDone = false ∨ (∀ d, d ∈ s.members q → d ∈ j.drained) → exec (.drainedMissingTimeout q) s = .next s) ∧
    (∀ d, s.jobState q = 4 → s.drainPast q = true → j.selfDone = true → d ∈ s.members q → d ∉ j.drained → ∃ t, exec (.drainedMissingTimeout q) s = .next t ∧ t.jobState q = 7)) ∧
  (∀ (s : State) (q : Nat) (ok : Bool), s.dogFired q = false → exec (.watchdogCheck q ok) s = .next s) ∧
  (∀ (s : State) (q : Nat) (ok : Bool) (j : Job), s.job q = some j → s.dogFired q = true →
    (s.jobState q = 2 → ∃ t, exec (.watchdogCheck q ok) s = .next t ∧ t.jobState q = 6) ∧
    (s.jobState q = 3 → s.controlOk q ok = true → j.dogStep ≠ some (s.step' q) → s.obj (0x6030 + q) 2 < 3 → ∃ t, exec (.watchdogCheck q ok) s = .next t ∧ t.jobState q = 4) ∧
    (s.jobState q = 3 → s.controlOk q ok = true → j.dogStep = some (s.step' q) → ∃ t, exec (.watchdogCheck q ok) s = .next t ∧ t.jobState q = (if j.dogOwner = true then 7 else 6)) ∧
    (s.jobState q = 3 → s.controlOk q ok = false → s.device.mode = .service → ∃ t, exec (.watchdogCheck q ok) s = .next t ∧ t.device.mode = .recovery ∧ t.obj 0x6020 4 = 2)) ∧
  (∀ (s : State) (m : CtrlMsg), s.partitionOfJob (mJobId m) = none → exec (.abandon m) s = .next s ∧ exec (.drained m) s = .next s ∧ exec (.jobHalt m) s = .next s) ∧
  (∀ (s : State) (m : CtrlMsg) (q : Nat) (j : Job), s.partitionOfJob (mJobId m) = some q → s.job q = some j →
    (ctrlOk 0x20 m = true → s.before' q (mStep m) j = false → s.jobState q = 3 → s.step' q = mStep m → s.obj (0x6030 + q) 2 < 3 → ∃ t, exec (.abandon m) s = .next t ∧ t.jobState q = 4) ∧
    (ctrlOk 0x20 m = true → s.before' q (mStep m) j = false → s.jobState q = 3 → mStep m < s.step' q → ∃ t, exec (.abandon m) s = .next t ∧ t.jobState q = 7) ∧
    (ctrlOk 0x20 m = true → s.before' q (mStep m) j = true → s.obj (0x6030 + q) 2 < 3 → (∀ n, n ∈ s.jobTiles q → n < 1224) → ∃ t, exec (.abandon m) s = .next t ∧ t.jobState q = 4) ∧
    (s.step' q ≠ mStep m → exec (.drained m) s = .next s) ∧
    (ctrlOk 0x21 m = true → s.step' q = mStep m → j.selfDone = false → ∃ t, exec (.drained m) s = .next t ∧ t.job q = some { j with drained := if j.drained.contains m.src then j.drained else j.drained ++ [m.src] } ∧ t = { s with jobs := t.jobs }) ∧
    (ctrlOk 0x22 m = true → s.jobState q = 1 ∨ s.jobState q = 2 ∨ s.jobState q = 3 ∨ s.jobState q = 4 → ∃ t, exec (.jobHalt m) s = .next t ∧ t.jobState q = 7) ∧
    (s.jobState q = 0 ∨ s.jobState q = 5 ∨ s.jobState q = 6 ∨ s.jobState q = 7 → exec (.jobHalt m) s = .next s)) ∧
  (∀ (s : State) (m : CtrlMsg), ctrlOk 0x23 m = true → (∀ q, q < 12 → m.src ∉ s.members q) → (∀ q, q < 12 → (s.disp q).tokens = [] ∧ (s.disp q).queue = []) →
    ∃ t, exec (.closing m) s = .next t ∧ m.src ∈ t.faults.peersClosed ∧ (∀ d, d ≠ m.src → (d ∈ t.faults.peersClosed ↔ d ∈ s.faults.peersClosed)) ∧
      t = { s with faults := { s.faults with peersClosed := t.faults.peersClosed } }) ∧
  (∀ (s : State) (m : CtrlMsg) (q : Nat), ctrlOk 0x23 m = true → q < 12 → m.src ∈ s.members q → (∀ k, k < 12 → k ≠ q → m.src ∉ s.members k) → (∀ k, k < 12 → (s.disp k).tokens = [] ∧ (s.disp k).queue = []) →
      s.jobState q = 2 ∨ s.jobState q = 3 ∨ s.jobState q = 4 →
    ∃ t, exec (.closing m) s = .next t ∧ m.src ∈ t.faults.peersClosed ∧ t.jobState q = 7) ∧
  (∀ (s : State) (m : CtrlMsg), ctrlOk 0x24 m = true → ∃ t, exec (.recovered m) s = .next t ∧ (∀ d, d ∈ t.faults.peersClosed ↔ d ∈ s.faults.peersClosed ∧ d ≠ m.src) ∧ t = { s with faults := { s.faults with peersClosed := t.faults.peersClosed } }) ∧
  (∀ (s : State) (sess : Nat), s.writeGuard sess 0x6020 0 = none →
    (s.device.mode = .service ∨ s.device.mode = .test → ∃ t, exec (.recoveryResetCommand sess) s = .next t ∧ t.obj 0x6020 0 = stOk ∧ t.device.mode = .recovery ∧ t.faults.recovery = .closing ∧ t.obj 0x6020 4 = 1 ∧
      t.obj 0x6020 3 = min (s.obj 0x6020 3 + 1) (2 ^ 32 - 1) ∧ t.bamurn.sessions = [] ∧ t.hbm = s.hbm ∧ t.ddr = s.ddr ∧ t.tiles = s.tiles ∧ t.jobs = s.jobs) ∧
    (s.device.mode = .recovery → ∃ t, exec (.recoveryResetCommand sess) s = .next t ∧ t.obj 0x6020 0 = stRestartPending ∧ t.device = { s.device with latched := some (.recoveryReset sess) }) ∧
    (s.device.mode = .startup → ∃ t, exec (.recoveryResetCommand sess) s = .next t ∧ t.obj 0x6020 0 = stNotReady ∧ t = { s with regs := t.regs, sent := t.sent }) ∧
    (s.device.mode = .safe → ∃ t, exec (.recoveryResetCommand sess) s = .next t ∧ t.obj 0x6020 0 = stRefused ∧ t = { s with regs := t.regs, sent := t.sent })) ∧
  (∀ (s u : State) (m : Nat) (d : DtlMsg), u = s.dtlIn m false d → soundMsg d →
    (s.faults.asked = some (d.addr % 256) → exec (.recoverReq m d) s = .next { u with faults := { u.faults with asked := none } }) ∧
    (s.faults.asked = none → 2 ≤ d.addr % 256 → d.addr % 256 ≤ 4 → s.device.mode = .service ∨ s.device.mode = .test →
      ∃ t, exec (.recoverReq m d) s = .next t ∧ t.device.mode = .recovery ∧ t.obj 0x6020 4 = d.addr % 256 ∧ t.faults.recovery = .closing) ∧
    (s.faults.asked = none → d.addr % 256 < 2 ∨ 4 < d.addr % 256 → exec (.recoverReq m d) s = .next u) ∧
    (s.faults.recovery ≠ .quiesced → exec (.quiesced m d) s = .next u) ∧
    (s.faults.recovery = .quiesced → ∃ t n, exec (.quiesced m d) s = .next t ∧ t.sent = .dtl n true { dtype := 0x0F, arg := 4 } :: u.sent ∧ t = { u with sent := t.sent })) ∧
  (∀ (s u : State) (m : Nat) (d : DtlMsg), u = s.dtlIn m true d → soundMsg d →
    (s.faults.recovery ≠ .closing → exec (.closeGo m d) s = .next u) ∧
    (s.faults.recovery = .closing → ∃ t, exec (.closeGo m d) s = .next t ∧ t.faults.closing = s.faults.closing ++ [(.device, s.drainEnd)] ∧ (∀ n, n ∈ Tbl.keys s.tiles → (s.tile n).gau.st = .live → (t.tile n).gau.st = .frozen) ∧
      (∀ n q, n < 1224 → q < 4 → n ∈ Tbl.keys s.tiles → (∀ i, i ∈ Tbl.keys s.tiles → i < 1224) → s.qState n q ≠ 0 → t.qState n q = 6)) ∧
    (s.faults.recovery ≠ .quiesced → exec (.restart m d) s = .next u) ∧
    (s.faults.recovery = .quiesced → ∃ t, exec (.restart m d) s = .next t ∧ t.jobs = [] ∧ t.cfgs = [] ∧ t.experts = [] ∧ t.disps = [] ∧ t.pagers = [] ∧ t.device = s.device ∧ t.floor = s.floor)) ∧
  (∀ (s : State) (q : Nat) (j : Job), s.job q = some j → s.jobState q = 7 → s.drainedHere q = true → ∃ t, exec (.drainComplete q) s = .next t ∧ t = { s with tiles := t.tiles } ∧
    ∀ n, n ∈ j.map → (s.tile n).gau.st = .draining → (t.tile n).gau.st = .live ∧ (t.tile n).gau.pend = []) ∧
  (∀ (s : State) (m : CtrlMsg), (ctrlOk 0x20 m = false → exec (.abandon m) s = .next s) ∧ (ctrlOk 0x21 m = false → exec (.drained m) s = .next s) ∧ (ctrlOk 0x22 m = false → exec (.jobHalt m) s = .next s) ∧
    (ctrlOk 0x23 m = false → exec (.closing m) s = .next s) ∧ (ctrlOk 0x24 m = false → exec (.recovered m) s = .next s))

/-- PACKAGE_APPLY with nothing staged, or with a staged package that does not verify, answers BAD_VALUE and keeps the active package; a verified one becomes active, or is answered REFUSED where the flash fails. SCOUR_CHUNK_START does nothing while scour is off or a chunk runs in the group; on an eligible tile of an ON cluster it saves the window's rows and starts the next chunk, the tile itself unchanged. SCOUR_INSERT, where a window is due, holds the partition's next step start and counts, else does nothing. SCOUR_CHUNK_TIMEOUT marks the chunk stopped. SCOUR_CHUNK_COMPLETE restores the window; a matching CRC counts in 6040:04 and the pass goes on, a first mismatch leaves the chunk to run again, a stopped chunk counts in 6040:06. TWIN_COMPARE of equal digests counts and ends the run, of different ones counts in 6050:05 and twins the logical tile again, or abandons the step where the twin was held; of no complete twin it does nothing. TWIN_LIMIT_EXPIRY counts a skipped twin only where one is held, incomplete and past twin_limit_ms. UFR_SELECT exposes an existing UFR, writes one for an archived levee record, and answers NOT_READY otherwise. (R521, R524, R525, R527, R528, R529, R532, R533, R534, R535, R540, R541) -/
def Obligations.ScourTwinsAndFaultRecords : Prop :=
  (∀ (s : State) (sess : Nat) (ok : Bool), s.writeGuard sess 0x6041 3 = none →
    (s.pkg.staged = none → ∃ t, exec (.packageApply sess ok) s = .next t ∧ t.obj 0x6041 3 = stBadValue ∧ t = { s with regs := t.regs, sent := t.sent } ∧ s.sameRegs t [okey 0x6041 3 0]) ∧
    (∀ b, s.pkg.staged = some b → ∃ t, exec (.packageApply sess ok) s = .next t ∧
      if verifyPackage b = false then t.obj 0x6041 3 = stBadValue ∧ t.obj 0x6041 4 = 2 ∧ t = { s with regs := t.regs, sent := t.sent } ∧ s.sameRegs t [okey 0x6041 3 0, okey 0x6041 4 0]
      else if ok = false then t.obj 0x6041 3 = stRefused ∧ t = { s with regs := t.regs, sent := t.sent } ∧ s.sameRegs t [okey 0x6041 3 0]
      else t.obj 0x6041 3 = stOk ∧ t.obj 0x6041 4 = 0 ∧ t.obj 0x6041 0 = pkgId b ∧ t.obj 0x6041 1 = pkgVersion b ∧ t.pkg = { active := some b, staged := none } ∧
        (∀ n, (Tbl.get t.scour {} n).next = 0 ∧ (Tbl.get t.scour {} n).again = false) ∧ t = { s with regs := t.regs, sent := t.sent, pkg := t.pkg, scour := t.scour, chunks := t.chunks })) ∧
  (∀ (s : State) (n : Nat), s.obj 0x6040 0 = 0 ∨ Tbl.get s.chunks none (s.scourGroup n) ≠ none → exec (.scourChunkStart n) s = .next s) ∧
  (∀ (s : State) (n : Nat), s.scourable n = false → s.ownerOf n = none → s.job 12 = none → exec (.scourChunkStart n) s = .next s) ∧
  (∀ (s : State) (n : Nat), s.scourable n = true → s.scourFirst n = false → exec (.scourChunkStart n) s = .next s) ∧
  (∀ (s : State) (n c : Nat), s.obj 0x6040 0 ≠ 0 → Tbl.get s.chunks none (s.scourGroup n) = none → s.scourable n = true → s.scourFirst n = true → s.plane (clusterOf n) = 2 → s.nextChunk n = some c →
    ∃ t k, exec (.scourChunkStart n) s = .next t ∧ Tbl.get t.chunks none (s.scourGroup n) = some k ∧ k.tile = n ∧ k.chunk = c ∧ k.window = (Tbl.get s.scour {} n).counter % 25 ∧ k.stopped = false ∧
      k.expect = ckCrc (pkgRow s.package (c + 1)) ∧ k.saved = (windowRows k.window).map (fun r => Tbl.get (s.tile n).spad 0 r) ∧
      (∀ i, i < k.saved.length → Tbl.get t.hbm 0 (saveRow n + i) = k.saved.getD i 0) ∧ (∀ a, a < saveRow n ∨ saveRow n + k.saved.length ≤ a → Tbl.get t.hbm 0 a = Tbl.get s.hbm 0 a) ∧
      (Tbl.get t.scour {} n).counter = (Tbl.get s.scour {} n).counter + 1 ∧ t = { s with hbm := t.hbm, chunks := t.chunks, scour := t.scour }) ∧
  (∀ (s : State) (q : Nat) (j : Job), s.job q = some j →
    (s.obj 0x6040 0 = 1 → s.insertDue q j = true → j.scourHold = false → Tbl.get s.chunks none q = none →
      ∃ t, exec (.scourInsert q) s = .next t ∧ t.job q = some { j with scourHold := true, insertAt := some s.elapsed } ∧ t.obj 0x6040 7 = min (s.obj 0x6040 7 + 1) (2 ^ 32 - 1) ∧ t = { s with regs := t.regs, jobs := t.jobs } ∧ s.sameRegs t [okey 0x6040 7 0]) ∧
    (s.obj 0x6040 0 ≠ 1 ∨ s.insertDue q j = false ∨ j.scourHold = true ∨ Tbl.get s.chunks none q ≠ none → exec (.scourInsert q) s = .next s)) ∧
  (∀ (s : State) (n crc : Nat) (bad : List (Nat × Nat)) (ok : Bool), s.chunkOn n = none → exec (.scourChunkTimeout n) s = .next s ∧ exec (.scourChunkComplete n crc bad ok) s = .next s) ∧
  (∀ (s : State) (n g : Nat) (k : Chunk), s.chunkOn n = some (g, k) →
    (k.startAt + nsTide 16000 ≤ s.elapsed → ∃ t, exec (.scourChunkTimeout n) s = .next t ∧ Tbl.get t.chunks none g = some { k with stopped := true } ∧ t = { s with chunks := t.chunks }) ∧
    (s.elapsed < k.startAt + nsTide 16000 → exec (.scourChunkTimeout n) s = .next s)) ∧
  (∀ (s : State) (n g crc : Nat) (bad : List (Nat × Nat)) (k : Chunk), s.chunkOn n = some (g, k) → k.window < 25 → k.old = false → (s.job g).elim false (fun j => j.scourHold) = false →
    ∃ t, exec (.scourChunkComplete n crc bad true) s = .next t ∧
      (k.stopped = true ∨ (k.kind ≠ 1 ∧ (Tbl.get s.scour {} n).again = false) → Tbl.get t.chunks none g = none ∧
        (∀ i, i < k.saved.length → i < (windowRows k.window).length → Tbl.get (t.tile n).spad 0 ((windowRows k.window).getD i 0) = k.saved.getD i 0) ∧
        t = { s with regs := t.regs, tiles := t.tiles, chunks := t.chunks, scour := t.scour } ∧ (∀ m, m ≠ n → t.tile m = s.tile m) ∧ (t.tile n).gau = (s.tile n).gau ∧ (t.tile n).store = (s.tile n).store) ∧
      (k.stopped = true → t.obj 0x6040 6 = min (s.obj 0x6040 6 + 1) (2 ^ 32 - 1) ∧ t.scour = s.scour ∧ s.sameRegs t [okey 0x6040 6 0]) ∧
      (k.stopped = false → k.kind ≠ 1 → (Tbl.get s.scour {} n).again = false → t.obj 0x6040 4 = min (s.obj 0x6040 4 + 1) (2 ^ 64 - 1) ∧ s.sameRegs t [okey 0x6040 4 0, okey 0x6040 8 n] ∧
        (crc = k.expect → (Tbl.get t.scour {} n).next = k.chunk + 1 ∨ (Tbl.get t.scour {} n).next = 0) ∧
        (crc ≠ k.expect → Tbl.get t.scour {} n = { Tbl.get s.scour {} n with again := true }))) ∧
  (∀ (s : State) (q : Nat), s.twinRun q = none → exec (.twinCompare q) s = .next s ∧ exec (.twinLimitExpiry q) s = .next s) ∧
  (∀ (s : State) (q : Nat) (w : TwinRun), s.twinRun q = some w → s.twinComplete w = false →
    exec (.twinCompare q) s = .next s ∧ (w.held = false ∨ s.elapsed < w.heldAt + msTide * s.obj 0x6050 2 → exec (.twinLimitExpiry q) s = .next s)) ∧
  (∀ (s : State) (q : Nat) (w : TwinRun) (j : Job), s.job q = some j → j.twin = some w → w.held = true → w.heldAt + msTide * s.obj 0x6050 2 ≤ s.elapsed → s.twinComplete w = false → w.twin < 1224 → s.jobState q ≠ 3 →
    ∃ t, exec (.twinLimitExpiry q) s = .next t ∧ t.obj 0x6050 4 = min (s.obj 0x6050 4 + 1) (2 ^ 32 - 1) ∧ t.twinRun q = none) ∧
  (∀ (s : State) (q : Nat) (w : TwinRun) (j : Job) (p : List (BitVec 64)), q < 12 → s.job q = some j → j.twin = some w → s.primaryDigest w = some p → w.differs = none → s.twinComplete w = true → w.twin < 1224 → w.primary < 1224 →
    (p = (s.tile w.twin).digest → w.held = false → ∃ t, exec (.twinCompare q) s = .next t ∧ t.obj 0x6050 3 = min (s.obj 0x6050 3 + 1) (2 ^ 64 - 1) ∧ t.obj 0x6050 5 = s.obj 0x6050 5 ∧ t.twinRun q = none ∧ (t.scrubFailed w.twin = false → t.sent = s.sent) ∧
      t.jobState q = s.jobState q) ∧
    (p ≠ (s.tile w.twin).digest → w.held = true → s.jobState q = 3 → s.obj (0x6030 + q) 2 < 3 →
      ∃ t, exec (.twinCompare q) s = .next t ∧ t.obj 0x6050 5 = min (s.obj 0x6050 5 + 1) (2 ^ 32 - 1) ∧ t.jobState q = 4 ∧ ∃ k u, t.job q = some k ∧ k.twin = some u ∧ u.differs = some (p, (s.tile w.twin).digest))) ∧
  (∀ (s : State) (sess v : Nat), s.writeGuard sess 0x6060 1 = none →
    (v < 0x80000000 → s.ufr v ≠ none → ∃ t, exec (.ufrSelect sess v) s = .next t ∧ t.obj 0x6060 1 = stOk ∧ t.ufrShown = v ∧ t = { s with regs := t.regs, ufrShown := v, sent := t.sent } ∧ s.sameRegs t [okey 0x6060 1 0]) ∧
    (v < 0x80000000 → s.ufr v = none → ∃ t, exec (.ufrSelect sess v) s = .next t ∧ t.obj 0x6060 1 = stNotReady ∧ t = { s with regs := t.regs, sent := t.sent } ∧ s.sameRegs t [okey 0x6060 1 0]) ∧
    (∀ w, 0x80000000 ≤ v → s.faults.archive[v - 0x80000000]? = some w → ∃ t u, exec (.ufrSelect sess v) s = .next t ∧ t.obj 0x6060 1 = stOk ∧ t.obj 0x6060 0 = s.obj 0x6060 0 + 1 ∧ t.ufrs.head? = some u ∧ u.kind = 1 ∧
      u.seq = s.obj 0x6060 0 + 1 ∧ u.suspect = fieldOf w 256 16 ∧ u.cls = fieldOf w 248 8 ∧ s.sameRegs t [okey 0x6060 0 0, okey 0x6060 1 0]) ∧
    (0x80000000 ≤ v → s.faults.archive[v - 0x80000000]? = none → ∃ t, exec (.ufrSelect sess v) s = .next t ∧ t.obj 0x6060 1 = stNotReady ∧ t = { s with regs := t.regs, sent := t.sent }))

/-- IMAGE_APPLY with nothing staged, or with an image that does not verify, answers BAD_VALUE and installs nothing; a verified one is installed in the other flash and selected, or answered REFUSED where the flash fails. SVN_COMMIT raises 8000:01 to a value above it and at or below the running image's version, and answers BAD_VALUE otherwise. CREDENTIAL_SET that would leave no SECURITY credential answers REFUSED; otherwise it sets or deletes the credential and ends its sessions, and no other credential changes. ATTEST_REQUEST queues a well-formed request (PENDING), BUSY with four queued; ATTEST_SIGNED signs the oldest, counts it and answers OK after the last. TLS_KEYGEN makes the next key pending; TLS_CHAIN_WRITE of a chain above 8,192 bytes or for another key is refused, of one for the pending or present key puts it in force. DEBUG_READ of a tile not held answers FENCED, of a held one shows the rows; DEBUG_RELEASE releases one or all, DEBUG_HOLD_EXPIRY all, whose scrubs then run. UNLOCK_TOKEN outside TEST and SAFE answers NOT_READY; a verified token empties HBM, DDR5, contexts and scratchpads and unlocks, any other answers ACCESS_DENIED and changes nothing. (R99, R543, R546, R547, R549, R550, R551, R552, R553, R558, R559) -/
def Obligations.SecurityCommandsActByTheirChecks : Prop :=
  (∀ (s : State) (sess : Nat) (ok : Bool), s.writeGuard sess 0x7060 3 = none →
    (s.sec.staged = none → ∃ t, exec (.imageApply sess ok) s = .next t ∧ t.obj 0x7060 3 = stBadValue ∧ t = { s with regs := t.regs, sent := t.sent } ∧ s.sameRegs t [okey 0x7060 3 0]) ∧
    (∀ b, s.sec.staged = some b → s.sec.images.length = 2 → s.updateFlash < 2 → s.bamurn.flash.ok = true → s.bamurn.flash.inSecond < 100 → ∃ t, exec (.imageApply sess ok) s = .next t ∧
      if verifyImage (s.obj 0x8000 1) b = false then t.obj 0x7060 3 = stBadValue ∧ t.obj 0x7060 0 s.updateFlash = 3 ∧ t.sec = s.sec
      else if ok = false then t.obj 0x7060 3 = stRefused ∧ t.sec = s.sec
      else t.obj 0x7060 3 = stOk ∧ t.imageBytes s.updateFlash = b ∧ t.imageBytes (1 - s.updateFlash) = s.imageBytes (1 - s.updateFlash) ∧ t.sec.staged = none ∧ t.obj 0x7060 4 = s.updateFlash ∧
        t.obj 0x7060 1 s.updateFlash = imageBuild b ∧ t.obj 0x7060 0 s.updateFlash = 0)) ∧
  (∀ (s : State) (sess v : Nat), s.writeGuard sess 0x8000 2 = none →
    ∃ t, exec (.svnCommit sess v) s = .next t ∧ t = { s with regs := t.regs, sent := t.sent } ∧ s.sameRegs t [okey 0x8000 1 0, okey 0x8000 2 0] ∧
      (if s.obj 0x8000 1 < v ∧ v ≤ imageSvn (s.imageBytes s.running) then t.obj 0x8000 1 = v ∧ t.obj 0x8000 2 = stOk else t.obj 0x8000 1 = s.obj 0x8000 1 ∧ t.obj 0x8000 2 = stBadValue)) ∧
  (∀ (s : State) (sess k r : Nat) (v : BitVec 320), s.writeGuard sess 0x8000 4 = none → k = fieldOf v.toNat 0 8 → r = fieldOf v.toNat 32 32 →
    (fieldOf v.toNat 8 24 ≠ 0 ∨ 15 < k ∨ 64 ≤ r → ∃ t, exec (.credentialSet sess v) s = .next t ∧ t.obj 0x8000 4 = stBadValue ∧ t = { s with regs := t.regs, sent := t.sent }) ∧
    (fieldOf v.toNat 8 24 = 0 → k ≤ 15 → r < 64 → s.securityLeft k r = false → ∃ t, exec (.credentialSet sess v) s = .next t ∧ t.obj 0x8000 4 = stRefused ∧ t = { s with regs := t.regs, sent := t.sent }) ∧
    (fieldOf v.toNat 8 24 = 0 → k ≤ 15 → r < 64 → s.securityLeft k r = true → ∃ t, exec (.credentialSet sess v) s = .next t ∧ t.obj 0x8000 4 = stOk ∧
      Tbl.get t.sec.creds none k = (if r = 0 then none else some { key := some (leBytes 32 (fieldOf v.toNat 64 256)), rights := r }) ∧ (∀ i, i ≠ k → Tbl.get t.sec.creds none i = Tbl.get s.sec.creds none i) ∧
      (∀ x, x ∈ t.bamurn.sessions → x.credential = k → x.authed = false) ∧ (∀ x, x ∈ s.bamurn.sessions → x.credential ≠ k → x ∈ t.bamurn.sessions))) ∧
  (∀ (s : State) (sess : Nat) (value : List Byte), s.writeGuard sess 0x8010 2 = none →
    ((∃ q nonce, value = q :: nonce ∧ (q.toNat < 12 ∨ q.toNat = 0xFF) ∧ 16 ≤ nonce.length ∧ nonce.length ≤ 64) → ∃ t, exec (.attestRequest sess value) s = .next t ∧
      (if s.sec.attests.length < 4 then t.obj 0x8010 2 = stPending ∧ t.sec = { s.sec with attests := s.sec.attests ++ [((value.headD 0).toNat, value.tail)] } else t.obj 0x8010 2 = stBusy ∧ t.sec = s.sec)) ∧
    ((∀ q nonce, value = q :: nonce → ¬ ((q.toNat < 12 ∨ q.toNat = 0xFF) ∧ 16 ≤ nonce.length ∧ nonce.length ≤ 64)) →
      ∃ t, exec (.attestRequest sess value) s = .next t ∧ t.obj 0x8010 2 = stBadValue ∧ t = { s with regs := t.regs, sent := t.sent })) ∧
  (∀ (s : State), s.sec.attests = [] → exec .attestSigned s = .next s) ∧
  (∀ (s : State) (q : Nat) (nonce : List Byte) (rest : List (Nat × List Byte)), s.sec.attests = (q, nonce) :: rest →
    ∃ t, exec .attestSigned s = .next t ∧ t.sec.attests = rest ∧ t.sec.report = cborMap (s.attestKeys q nonce ++ [(31, cborBytes (Config.slhSign (cborMap (s.attestKeys q nonce))))]) ∧
      t.obj 0x8010 5 = min (s.obj 0x8010 5 + 1) (2 ^ 32 - 1) ∧ (rest = [] → t.obj 0x8010 2 = stOk) ∧ t = { s with regs := t.regs, sec := { s.sec with attests := rest, report := t.sec.report } } ∧
      s.sameRegs t [okey 0x8010 5 0, okey 0x8010 2 0]) ∧
  (∀ (s : State) (sess : Nat), s.writeGuard sess 0x8020 0 = none →
    ∃ t, exec (.tlsKeygen sess) s = .next t ∧ t.obj 0x8020 0 = stOk ∧ t.sec = { s.sec with keyGens := s.sec.keyGens + 1, tlsNext := some (s.sec.keyGens + 1) } ∧ t = { s with regs := t.regs, sec := t.sec, sent := t.sent }) ∧
  (∀ (s : State) (sess : Nat) (chain : List Byte), s.writeGuard sess 0x8020 2 = none →
    (8192 < chain.length → exec (.tlsChainWrite sess chain) s = .next (s.answer sess 0x8020 2 stBadValue)) ∧
    (chain.length ≤ 8192 → s.bamurn.flash.ok = true → s.bamurn.flash.inSecond < 100 → ∃ t, exec (.tlsChainWrite sess chain) s = .next t ∧
      if Config.leafKey chain ≠ none ∧ s.sec.tlsNext.map Config.tlsKey = Config.leafKey chain then t.sec.tlsChain = chain ∧ some t.sec.tlsKey = s.sec.tlsNext ∧ t.sec.tlsNext = none ∧ t.sent = .answer sess 0x8020 2 stOk :: s.sent
      else if Config.leafKey chain = some (Config.tlsKey s.sec.tlsKey) then t.sec.tlsChain = chain ∧ t.sec.tlsKey = s.sec.tlsKey ∧ t.sec.tlsNext = s.sec.tlsNext ∧ t.sent = .answer sess 0x8020 2 stOk :: s.sent
      else t = s.answer sess 0x8020 2 stBadValue)) ∧
  (∀ (s : State) (sess n bank row count : Nat) (v : BitVec 64), s.writeGuard sess 0x8030 1 = none → n = fieldOf v.toNat 48 16 → bank = fieldOf v.toNat 44 4 → row = fieldOf v.toNat 34 10 → count = fieldOf v.toNat 28 6 →
    (n ∉ s.sec.held → ∃ t, exec (.debugRead sess v) s = .next t ∧ t.obj 0x8030 1 = stFenced ∧ t = { s with regs := t.regs, sent := t.sent }) ∧
    (n ∈ s.sec.held → fieldOf v.toNat 0 28 ≠ 0 ∨ 11 < bank ∨ count = 0 ∨ 32 < count ∨ 1024 < row + count → ∃ t, exec (.debugRead sess v) s = .next t ∧ t.obj 0x8030 1 = stBadValue ∧ t = { s with regs := t.regs, sent := t.sent }) ∧
    (n ∈ s.sec.held → fieldOf v.toNat 0 28 = 0 → bank ≤ 11 → 1 ≤ count → count ≤ 32 → row + count ≤ 1024 → ∃ t, exec (.debugRead sess v) s = .next t ∧ t.obj 0x8030 1 = stOk ∧ t.sec.debugRead = true ∧
      (∀ i, i < count → (t.sec.debugData.drop (8 + 32 * i)).take 32 = leBytes 32 (decodedRow (Tbl.get (s.tile n).spad 0 (bank * 1024 + row + i))).toNat) ∧
      t = { s with regs := t.regs, sec := { s.sec with debugData := t.sec.debugData, debugRead := true }, sent := t.sent } ∧ s.sameRegs t [okey 0x8030 1 0])) ∧
  (∀ (s : State) (sess n : Nat), s.writeGuard sess 0x8030 3 = none →
    (n < 1224 → ∃ t, exec (.debugRelease sess n) s = .next t ∧ t.obj 0x8030 3 = stOk ∧ (∀ m, m ∈ t.sec.held ↔ m ∈ s.sec.held ∧ m ≠ n) ∧ t = { s with regs := t.regs, sec := { s.sec with held := t.sec.held }, sent := t.sent }) ∧
    (n = 0xFFFF → ∃ t, exec (.debugRelease sess n) s = .next t ∧ t.obj 0x8030 3 = stOk ∧ t.sec.held = []) ∧
    (1224 ≤ n → n ≠ 0xFFFF → ∃ t, exec (.debugRelease sess n) s = .next t ∧ t.obj 0x8030 3 = stBadValue ∧ t.sec = s.sec)) ∧
  (∀ (s : State), s.stagePast 10000 = false → exec .debugHoldExpiry s = .next s) ∧
  (∀ (s : State), s.stagePast 10000 = true → ∃ t, exec .debugHoldExpiry s = .next t ∧ t = { s with regs := t.regs, sec := { s.sec with held := [] } } ∧ ∀ n, n ∈ s.sec.held → n < 1224 → t.obj (tileIx n) 0x2A = 1) ∧
  (∀ (s : State) (sess : Nat) (token : List Byte), s.writeGuard sess 0x8040 2 = none →
    (s.device.mode ≠ .test → s.device.mode ≠ .safe → exec (.unlockToken sess token) s = .next (s.answer sess 0x8040 2 stNotReady)) ∧
    (s.device.mode = .test ∨ s.device.mode = .safe → s.sec.challenge = none → exec (.unlockToken sess token) s = .next (s.answer sess 0x8040 2 stAccessDenied)) ∧
    (∀ c, s.device.mode = .test ∨ s.device.mode = .safe → s.sec.challenge = some c → ∃ t, exec (.unlockToken sess token) s = .next t ∧
      if Config.tokenVerify (leBytes 8 (s.obj 0x4000 2) ++ c) token = true then t.hbm = [] ∧ t.ddr = [] ∧ t.ctxs = [] ∧ (∀ n, (t.tile n).spad = []) ∧ t.sec.unlocked = true ∧ t.sec.challenge = none ∧ t.obj 0x8040 0 = 1 ∧
        t.sent.head? = some (.answer sess 0x8040 2 stOk)
      else t = s.answer sess 0x8040 2 stAccessDenied))

/-- SESSION_OPEN of an active credential with fewer than 16 sessions opens one under a free number and answers its challenge; with 16 it answers BUSY, for another credential ACCESS_DENIED. SESSION_AUTH with the right proof authenticates the session with its credential's rights and answers under the session key; a wrong proof frees the session, counts in 0200:04 and answers ACCESS_DENIED. ECHO is answered. READ answers an object's value, WRITE the status of the write, READ_BLOCK the bytes asked for, clearing an RC object unless it peeks, WRITE_BLOCK of one whole block the status of its write, DESCRIBE the description, without a session too. A wrong MAC or an unknown session is discarded and counted in 0200:05; a repeated sequence number is answered with the cached response and not executed, any other old one counts in 0200:06. RELAY forwards a message to its target's route, returns the response to its source, and counts one that comes over Causeway. OBJECT_WRITE of a value in range is answered OK and, where nothing else follows from the value, sets an RW object alone, and an RWP object with a record; a value that does not fit answers BAD_VALUE. A handshake past 5 s, a lock past its end, and a block sequence without a block for 10 s are dropped, and none before. (R382, R385, R386, R387, R388, R389, R390, R393, R394, R395, R396, R405) -/
def Obligations.BamurnServesTheDictionary : Prop :=
  (∀ (s : State) (p : Path) (b : List Byte) (h cred : Nat), s.sessionless p 1 b h → b.length = 48 → hCount h = 0 → cred = leNat ((b.drop 16).take 1) → leNat ((b.drop 17).take 15) = 0 →
    (cred ≤ 15 → s.credState cred = 1 → s.bamurn.sessions.length < 16 → ∃ t y, exec (.sessionOpen p b) s = .next t ∧ t.bamurn = { s.bamurn with sessions := s.bamurn.sessions ++ [y] } ∧ y.credential = cred ∧
      y.authed = false ∧ y.path = p ∧ 1 ≤ y.number ∧ y.number ≤ 0xFFFE ∧ (∀ x, x ∈ s.bamurn.sessions → x.number ≠ y.number) ∧ y.cnonce = BitVec.ofNat 128 (leNat (b.drop 32)) ∧
      t.sent = .bytes (backPath p) (Reply.bytes { mtype := 2, session := y.number, body := leBytes 32 (2 ^ 128 * y.dnonce.toNat + 2 ^ 64 * s.obj 0x4000 2) } h none) :: s.sent ∧
      t = { s with regs := t.regs, fresh := t.fresh, bamurn := t.bamurn, sent := t.sent } ∧ s.sameRegs t [okey 0x0280 6 0, okey 0x0280 7 0]) ∧
    (15 < cred ∨ s.credState cred ≠ 1 → ∃ t, exec (.sessionOpen p b) s = .next t ∧ t.sent = .bytes (backPath p) (Reply.bytes { mtype := 2, session := 0, status := stAccessDenied } h none) :: s.sent ∧ t = { s with regs := t.regs, sent := t.sent }) ∧
    (cred ≤ 15 → s.credState cred = 1 → 16 ≤ s.bamurn.sessions.length → ∃ t, exec (.sessionOpen p b) s = .next t ∧ t.sent = .bytes (backPath p) (Reply.bytes { mtype := 2, session := 0, status := stBusy } h none) :: s.sent ∧
      t = { s with regs := t.regs, sent := t.sent })) ∧
  (∀ (s : State) (p : Path) (b : List Byte) (h : Nat) (x : Session) (c : Credential), s.portRequest p 3 b h → hMac h = false → s.bamurn.sessions.find? (fun x => x.number == hSession h && !x.authed) = some x →
      Tbl.get s.sec.creds none x.credential = some c → b.length = 48 → hCount h = 0 → x.failed = false →
    (b.drop 16 = s.proofOf x c.bytes → ∃ t y, exec (.sessionAuth p b) s = .next t ∧ y ∈ t.bamurn.sessions ∧ y.number = x.number ∧ y.authed = true ∧ y.rights = c.rights ∧ y.key = sessionKey x c.bytes ∧
      t.sent = .bytes (backPath p) (Reply.bytes { mtype := 3, session := x.number, body := leBytes 4 c.rights } h (some (sessionKey x c.bytes))) :: s.sent ∧ t = { s with regs := t.regs, bamurn := t.bamurn, sent := t.sent }) ∧
    (b.drop 16 ≠ s.proofOf x c.bytes → ∃ t, exec (.sessionAuth p b) s = .next t ∧ (∀ y, y ∈ t.bamurn.sessions → y.number ≠ x.number) ∧ t.obj 0x0200 4 = min (s.obj 0x0200 4 + 1) (2 ^ 32 - 1) ∧
      t.sent = .bytes (backPath p) (Reply.bytes { mtype := 3, session := x.number, status := stAccessDenied } h none) :: s.sent)) ∧
  (∀ (s : State) (p : Path) (b : List Byte) (h : Nat), s.sessionless p 5 b h → b.length = 16 → hCount h = 0 →
    ∃ t, exec (.echo p b) s = .next t ∧ t.sent = .bytes (backPath p) (Reply.bytes { mtype := 5, session := 0 } h none) :: s.sent ∧ t = { s with regs := t.regs, sent := t.sent } ∧ s.sameRegs t [okey 0x0280 6 0, okey 0x0280 7 0]) ∧
  (∀ (s u v : State) (p : Path) (b val : List Byte) (h w : Nat) (x : Session), s.inSession p 0x10 b h x → u = s.heard p → hCount h = 1 → b.length = 36 → w = leNat (macBody b) → fieldOf w 1 7 = 0 →
      u.readValue (hSession h) (iIndex w) (iSub w) (iPeek w) = (v, stOk, val) → val.length ≤ 1400 →
    ∃ t, exec (.bamRead p b) s = .next t ∧ t.sent = .bytes (backPath p) (Reply.bytes { mtype := 0x10, session := hSession h, count := 1, body := valueItem w (readTy w) stOk val } h (some x.key)) :: s.sent ∧
      v.sameRegs t [okey 0x0280 7 0] ∧ t = { s with regs := t.regs, fresh := t.fresh, sec := t.sec, bamurn := t.bamurn, sent := t.sent }) ∧
  (∀ (s u v : State) (p : Path) (b : List Byte) (h w vlen st : Nat) (x : Session), s.inSession p 0x11 b h x → u = s.heard p → hCount h = 1 → w = leNat ((macBody b).take 8) → vlen = fieldOf w 48 16 → vlen ≤ 1400 →
      (macBody b).length = 8 + (vlen + 3) / 4 * 4 → fieldOf w 1 7 = 0 → fieldOf w 40 8 = 0 → (∀ a, a ∈ (macBody b).drop (8 + vlen) → a = 0) →
      u.writeValue (hSession h) (iIndex w) (iSub w) (fieldOf w 32 8) (((macBody b).drop 8).take vlen) = (v, st) →
    ∃ t, exec (.bamWrite p b) s = .next t ∧ v.sameRegs t [okey 0x0280 7 0] ∧ t = { v with regs := t.regs, bamurn := t.bamurn, sent := t.sent } ∧
      t.sent = .bytes (backPath p) (Reply.bytes { mtype := 0x11, session := hSession h, count := 1, body := bareItem w (fieldOf w 32 8) st (if st = stBadValue then largeSize w else 0) } h (some x.key)) :: v.sent) ∧
  (∀ (s u : State) (p : Path) (b : List Byte) (h w : Nat) (x : Session) (d : ObjDesc) (f : State × List Byte) (g : State), s.inSession p 0x12 b h x → u = s.heard p → hCount h = 1 → b.length = 48 → w = leNat (macBody b) →
      fieldOf w 2 6 = 0 → fieldOf w 40 8 = 0 → objAt (iIndex w) (iSub w) = some d → u.readGuard (hSession h) (iIndex w) (iSub w) (iPeek w) = none → f = u.fetch (iIndex w) (iSub w) d →
      g = (if d.access = 6 ∧ iPeek w = false then f.1.cleared (iIndex w) (iSub w) d else f.1) →
    ∃ t data, exec (.readBlock p b) s = .next t ∧ data = (f.2.drop (fieldOf w 64 32)).take (min (fieldOf w 48 16) 1392) ∧ g.sameRegs t [okey 0x0280 7 0] ∧
      t.sent = .bytes (backPath p) (Reply.bytes { mtype := 0x12, session := hSession h, count := 1, body := blockItem w (readTy w) stOk data.length f.2.length (fieldOf w 64 32) data } h (some x.key)) :: s.sent) ∧
  (∀ (s u : State) (p : Path) (b data : List Byte) (h w vlen : Nat) (x : Session) (d : ObjDesc) (r : State × Nat), s.inSession p 0x13 b h x → u = s.heard p → hCount h = 1 → w = leNat ((macBody b).take 16) → vlen = fieldOf w 48 16 →
      vlen ≤ 1392 → (macBody b).length = 16 + (vlen + 3) / 4 * 4 → fieldOf w 2 6 = 0 → fieldOf w 40 8 = 0 → (∀ a, a ∈ (macBody b).drop (16 + vlen) → a = 0) → data = ((macBody b).drop 16).take vlen →
      objAt (iIndex w) (iSub w) = some d → (s.sessionOf (hSession h)).bind (fun y => y.block) = none → u.writeGuard (hSession h) (iIndex w) (iSub w) = none → blockFits d (fieldOf w 64 32) vlen = true → fieldOf w 96 32 = vlen →
      bitOf w 1 = true → r = u.writeValue (hSession h) (iIndex w) (iSub w) (fieldOf w 32 8) (u.spliced d { index := iIndex w, sub := iSub w, ty := fieldOf w 32 8, offset := fieldOf w 64 32, total := vlen, data := data }) →
    ∃ t, exec (.writeBlock p b) s = .next t ∧ r.1.sameRegs t [okey 0x0280 7 0] ∧ t = { r.1 with regs := t.regs, bamurn := t.bamurn, sent := t.sent } ∧
      t.sent = .bytes (backPath p) (Reply.bytes { mtype := 0x13, session := hSession h, count := 1, body := blockItem w (fieldOf w 32 8) r.2 0 vlen (fieldOf w 64 32) [] } h (some x.key)) :: r.1.sent) ∧
  (∀ (s : State) (p : Path) (b : List Byte) (h w : Nat) (d : ObjDesc), s.sessionless p 0x14 b h → hCount h = 1 → b.length = 20 → w = leNat (b.drop 16) → fieldOf w 1 7 = 0 → objAt (iIndex w) (iSub w) = some d → s.device.mode ≠ .safe →
    ∃ t u, exec (.describe p b) s = .next t ∧ u = s.heard p ∧ t.sent = .bytes (backPath p) (Reply.bytes { mtype := 0x14, session := 0, count := 1, body := valueItem w 9 stOk (u.description (iIndex w) (iSub w) d) } h none) :: s.sent ∧
      t = { s with regs := t.regs, sent := t.sent } ∧ s.sameRegs t [okey 0x0280 6 0, okey 0x0280 7 0]) ∧
  (∀ (s : State) (p : Path) (b : List Byte) (h mtype : Nat) (i : Instr),
      (i = .echo p b ∨ i = .bamRead p b ∨ i = .bamWrite p b ∨ i = .readBlock p b ∨ i = .writeBlock p b ∨ i = .describe p b ∨ i = .sessionClose p b) → s.portRequest p mtype b h → hSession h ≠ 0 → hSession h ≠ 0xFFFF →
    (s.session (hSession h) = none ∨ (∃ x, s.session (hSession h) = some x ∧ (hMac h = false ∨ b.length < 32 ∨ macOf x.key (b.take (b.length - 16)) ≠ b.drop (b.length - 16))) →
      ∃ t, exec i s = .next t ∧ t.obj 0x0200 5 = min (s.obj 0x0200 5 + 1) (2 ^ 32 - 1) ∧ t = { s with regs := t.regs } ∧ s.sameRegs t [okey 0x0280 6 0, okey 0x0200 5 0]) ∧
    (∀ x c, s.authentic p mtype b h x → x.cache.find? (fun c => c.1 == hSeq h) = some c →
      ∃ t, exec i s = .next t ∧ t.sent = .bytes (backPath p) c.2 :: s.sent ∧ t = { s with regs := t.regs, sent := t.sent } ∧ s.sameRegs t [okey 0x0280 6 0, okey 0x0280 7 0]) ∧
    (∀ x, s.authentic p mtype b h x → x.cache.find? (fun c => c.1 == hSeq h) = none → hSeq h ≤ x.high →
      ∃ t, exec i s = .next t ∧ t.obj 0x0200 6 = min (s.obj 0x0200 6 + 1) (2 ^ 32 - 1) ∧ t = { s with regs := t.regs } ∧ s.sameRegs t [okey 0x0280 6 0, okey 0x0200 6 0])) ∧
  (∀ (s : State) (src h j : Nat) (f : MgmtFrame) (b : List Byte), 16 ≤ b.length → h = headOf b → hVersion h = 1 → hRelay h = true → hPortRelay h = false →
    (s.takesFrame f b.length = true → hResponse h = false → hTarget h ≠ s.obj 0x4000 0 → s.routePort (hTarget h) = some j →
      ∃ t, exec (.relay (.port src f) b) s = .next t ∧ t.sent = .mgmt j { dst := hTarget h, src := s.ownDevice, local' := false, length := b.length, bytes := b } :: s.sent ∧
        t.bamurn = { s.bamurn with relays := s.bamurn.relays ++ [(hTarget h, hTag h, .port src f)] } ∧ t = { s with regs := t.regs, bamurn := t.bamurn, ports := t.ports, sent := t.sent }) ∧
    (∀ k, hResponse h = false → hTarget h ≠ s.obj 0x4000 0 → ∃ t, exec (.relay (.link k src false) b) s = .next t ∧ t.obj 0x0200 5 = min (s.obj 0x0200 5 + 1) (2 ^ 32 - 1) ∧ t = { s with regs := t.regs }) ∧
    (∀ k at', hResponse h = true → s.bamurn.relays = [(src, hTag h, .port at')] →
      ∃ t, exec (.relay (.link k src false) b) s = .next t ∧ t.sent = .bytes (.port at') b :: s.sent ∧ t.bamurn.relays = [])) ∧
  (∀ (s : State) (sess index sub ty : Nat) (value : List Byte) (d : ObjDesc), objAt index sub = some d → s.writeGuard sess index sub = none → d.ty ≠ 11 → 0 < d.size → d.access = 2 ∨ d.access = 3 → index ≠ 0x4000 →
    (s.valueOk index sub ty d value = false → exec (.objectWrite sess index sub ty value) s = .next (s.answer sess index sub stBadValue)) ∧
    (s.valueOk index sub ty d value = true → d.access = 2 ∨ s.bamurn.flash.ok = true ∧ s.bamurn.flash.inSecond < 100 ∧ 0x100040 + value.length ≤ s.bamurn.flash.free → ∃ t, exec (.objectWrite sess index sub ty value) s = .next t ∧ t.sent.head? = some (.answer sess index sub stOk)) ∧
    (s.valueOk index sub ty d value = true → d.access = 2 → ¬ (index = 0x1420 ∧ sub = 1) → ¬ (0x4010 ≤ index ∧ index < 0x4020 ∧ sub = 0x14) → ¬ (0x3410 ≤ index ∧ index < 0x341C ∧ 7 ≤ sub ∧ sub ≤ 9) →
      ∃ t, exec (.objectWrite sess index sub ty value) s = .next t ∧ t.obj index sub = leNat value ∧ t.sent = .answer sess index sub stOk :: s.sent ∧
      t = { s with regs := t.regs, sent := t.sent } ∧ s.sameRegs t [okey index sub 0]) ∧
    (s.valueOk index sub ty d value = true → d.access = 3 → ¬ (0x4010 ≤ index ∧ index < 0x4020 ∧ sub = 0x14) → ¬ (index = 0x1420 ∧ sub = 1) → ¬ (0x3410 ≤ index ∧ index < 0x341C ∧ 7 ≤ sub ∧ sub ≤ 9) → s.bamurn.flash.ok = true → s.bamurn.flash.inSecond < 100 → 0x100040 + value.length ≤ s.bamurn.flash.free →
      ∃ t r, exec (.objectWrite sess index sub ty value) s = .next t ∧ t.obj index sub = leNat value ∧ t.sent = .answer sess index sub stOk :: s.sent ∧ r ∈ t.bamurn.flash.current ∧ r.index = index ∧ r.sub = sub ∧ r.value = value ∧
        r.commit = true ∧ s.sameRegs t [okey index sub 0] ∧ t = { s with regs := t.regs, bamurn := t.bamurn, sent := t.sent })) ∧
  (∀ (s : State) (sess : Nat), ∃ t, exec (.sessionAuthTimeout sess) s = .next t ∧ (∀ x, x ∈ t.bamurn.sessions ↔ x ∈ s.bamurn.sessions ∧ (x.number ≠ sess ∨ x.authed = true ∨ s.elapsed < x.heard + secTide * 5)) ∧
    t = { s with bamurn := { s.bamurn with sessions := t.bamurn.sessions } }) ∧
  (∀ (s : State) (cred : Nat), (∀ k, k ∈ s.bamurn.locked → k.1 = cred → s.elapsed < k.2) → exec (.credentialLockExpiry cred) s = .next s) ∧
  (∀ (s : State) (cred h : Nat), (cred, h) ∈ s.bamurn.locked → h ≤ s.elapsed → ∃ t, exec (.credentialLockExpiry cred) s = .next t ∧ (∀ k, k ∈ t.bamurn.locked ↔ k ∈ s.bamurn.locked ∧ k.1 ≠ cred) ∧ t.regs = s.regs ∧
    t.bamurn = { s.bamurn with locked := t.bamurn.locked }) ∧
  (∀ (s : State) (sess : Nat), ∃ t, exec (.blockSequenceTimeout sess) s = .next t ∧ (∀ x y, x ∈ t.bamurn.sessions → x.number = sess → x.block = some y → s.elapsed < y.heard + secTide * 10) ∧ (∀ x, x ∈ s.bamurn.sessions → x.number ≠ sess → x ∈ t.bamurn.sessions) ∧
    t = { s with bamurn := t.bamurn })

/-- After SESSION_CLOSE in an open session, after SESSION_IDLE_TIMEOUT of an authenticated session whose idle limit has passed with no accepted request, and after a write of its number to object 0200:03 by the session itself or by one with SECURITY, no session of that number is left and the others stay as they were. After a recovery reset, a cold start and a warm start begun in SERVICE or TEST no session is left. A session that is gone takes its block sequence with it: every session left is one that was there, and the mailbox that a reset or start leaves has no block sequence. (R391) -/
def Obligations.SessionsEndAndDropTheirBlocks : Prop :=
  (∀ (s : State) (p : Path) (b : List Byte) (h : Nat) (x : Session), s.inSession p 4 b h x → b.length = 32 → hCount h = 0 →
    ∃ t, exec (.sessionClose p b) s = .next t ∧ (∀ y, y ∈ t.bamurn.sessions ↔ y ∈ s.bamurn.sessions ∧ y.number ≠ hSession h) ∧
      t.sent = .bytes (backPath p) (Reply.bytes { mtype := 4, session := hSession h } h (some x.key)) :: s.sent ∧ t = { s with regs := t.regs, device := t.device, bamurn := t.bamurn, sent := t.sent } ∧
      s.sameRegs t [okey 0x0280 6 0, okey 0x0280 7 0]) ∧
  (∀ (s : State) (n : Nat), ∃ t, exec (.sessionIdleTimeout n) s = .next t ∧ (∀ y, y ∈ t.bamurn.sessions ↔ y ∈ s.bamurn.sessions ∧ ¬ (y.number = n ∧ y.authed = true ∧ y.heard + secTide * y.idleLimit ≤ s.elapsed)) ∧ t.sent = s.sent ∧ t.regs = s.regs ∧
      t = { s with device := t.device, bamurn := t.bamurn }) ∧
  (∀ (s : State) (sess n : Nat), s.writeGuard sess 0x0200 3 = none →
    ((∃ y, y ∈ s.bamurn.sessions ∧ y.number = n) → n = sess ∨ s.holds sess rSecurity = true →
      ∃ t, exec (.sessionCloseCommand sess n) s = .next t ∧ t.obj 0x0200 3 = stOk ∧ (∀ y, y ∈ t.bamurn.sessions ↔ y ∈ s.bamurn.sessions ∧ y.number ≠ n) ∧ s.sameRegs t [okey 0x0200 3 0]) ∧
    ((∀ y, y ∈ s.bamurn.sessions → y.number ≠ n) → ∃ t, exec (.sessionCloseCommand sess n) s = .next t ∧ t.obj 0x0200 3 = stNotReady ∧ t = { s with regs := t.regs, sent := t.sent }) ∧
    ((∃ y, y ∈ s.bamurn.sessions ∧ y.number = n) → n ≠ sess → s.holds sess rSecurity = false →
      ∃ t, exec (.sessionCloseCommand sess n) s = .next t ∧ t.obj 0x0200 3 = stAccessDenied ∧ t = { s with regs := t.regs, sent := t.sent })) ∧
  (∀ (s : State) (sess i j : Nat) (c : Instr), (c = .recoveryResetCommand sess ∧ i = 0x6020 ∧ j = 0 ∨ c = .startCommandWarm sess ∧ i = 0x7000 ∧ j = 1 ∨ c = .startCommandCold sess ∧ i = 0x7000 ∧ j = 1) →
      s.writeGuard sess i j = none → s.device.mode = .service ∨ s.device.mode = .test →
    ∃ t, exec c s = .next t ∧ t.obj i j = stOk ∧ t.bamurn.sessions = [] ∧ t.bamurn.mailbox.block = none) ∧
  (∀ (s : State) (m : Nat) (d : DtlMsg), soundMsg d → s.faults.asked = none → 2 ≤ d.addr % 256 → d.addr % 256 ≤ 4 → s.device.mode = .service ∨ s.device.mode = .test →
    ∃ t, exec (.recoverReq m d) s = .next t ∧ t.bamurn.sessions = [] ∧ t.bamurn.mailbox.block = none)

/-- A position of field f with local column lx and local row ly has x = 17 * (f mod 3) + lx and y = 12 * (f div 3) + ly, its tile number is y * 51 + x, below 1,224, and from the number come back x, y and the field, with lx = x mod 17 and ly = y mod 12; every number below 1,224 is one of a position. Its object index is 0x2100 + n, in 0x2100 to 0x25C7, one for each tile. Local column 16, at x = 16, 33 and 50, is the reserve column and columns 0 to 15 are not; 1,152 positions are regular and 72 reserve. (R13, R14, R15) -/
def Obligations.PositionsTileNumbersAndColumns : Prop :=
  (∀ f lx ly x y, f < 6 → lx < 17 → ly < 12 → x = 17 * (f % 3) + lx → y = 12 * (f / 3) + ly →
    posOf x y = y * 51 + x ∧ posOf x y < 1224 ∧ xOf (posOf x y) = x ∧ yOf (posOf x y) = y ∧ fieldNo (posOf x y) = f ∧ fieldNo (posOf x y) = 3 * (y / 12) + x / 17 ∧ lx = x % 17 ∧ ly = y % 12 ∧
      tileIx (posOf x y) = 0x2100 + (y * 51 + x) ∧ (isReserveCol (posOf x y) = true ↔ lx = 16) ∧ (lx = 16 ↔ x = 16 ∨ x = 33 ∨ x = 50)) ∧
  (∀ n, n < 1224 → (∃ f lx ly, f < 6 ∧ lx < 17 ∧ ly < 12 ∧ n = posOf (17 * (f % 3) + lx) (12 * (f / 3) + ly)) ∧ 0x2100 ≤ tileIx n ∧ tileIx n ≤ 0x25C7 ∧ (∀ m, m < 1224 → tileIx m = tileIx n → m = n)) ∧
  (∀ i, 0x2100 ≤ i → i ≤ 0x25C7 → ∃ n, n < 1224 ∧ tileIx n = i) ∧
  (allTiles.filter (fun n => !isReserveCol n)).length = 1152 ∧ (allTiles.filter (fun n => isReserveCol n)).length = 72

/-- Each of these start, input, plane, phase and feed commands completes: for every state and every operands that meet the conditions its clause names on them alone, exec answers a next state, and that state holds the result the clause writes out (the registers, answers, queues, messages or memory the command sets). TEST_SESSION_ENTER, TEST_SESSION_LEAVE, OBJECT_WRITE, COLD_START, START_COMMAND_WARM, START_COMMAND_COLD, STAGE_END, STAGE_TIMEOUT, NEXT_ATTEMPT, TOPOLOGY_WAIT_EXPIRY, TRAIN_DISCARD, MEMTEST_NEXT, INPUT_SAG, SAVE_AND_CLOSE, INPUT_OVERVOLTAGE, BUSCONV_LOST, PHASE_LOST, PLANE_SHORT, SENSE_FALLBACK, PATH_RESISTANCE_CHECK, CRACK_CHAIN_CHECK, SLUICE_STAGE_DECISION, SLUICE_HOLD_READING, HOLD_BUDGET_EXPIRY, CLUSTER_CLOCK_LOCK, CLUSTER_GATE_REQUEST, GATING_COMPLETE, POWER_OFF_N_LOW, POWER_OFF_N_RELEASE. (R9, R408, R409, R414, R417, R418, R467, R470, R485, R487, R565, R566) -/
def Obligations.BootAndPowerCommandsComplete : Prop :=
  (∀ (s : State) (sess : Nat), s.writeGuard sess 0x0110 1 = none → s.device.mode = .service → (∀ q, q < 12 →
    s.jobState q = 0) → ∃ t, exec (.testSessionEnter sess) s = .next t ∧ t.reg (okey 0x0110 1 0) = stOk ∧
    t.device = { s.device with mode := .test, holder := sess }) ∧
  (∀ (s : State) (sess : Nat), s.writeGuard sess 0x0110 1 = none → s.device.mode = .test →
    (s.device.holder = sess ∨ s.holds sess rSecurity = true) → ∃ t, exec (.testSessionLeave sess) s = .next t ∧
    t.reg (okey 0x0110 1 0) = stOk ∧ t.device = { s.device with mode := .service, holder := 0 }) ∧
  (∀ (s : State) (sess index sub ty : Nat) (value : List Byte) (d : ObjDesc), objAt index sub = some d →
    s.writeGuard sess index sub = none → d.ty ≠ 11 → 0 < d.size → (d.access = 2 ∨ d.access = 3) →
    index ≠ 0x4000 → s.valueOk index sub ty d value = true → d.access = 2 → (¬ (index = 0x1420 ∧ sub = 1)) →
    (¬ (0x4010 ≤ index ∧ index < 0x4020 ∧ sub = 0x14)) → (¬ (0x3410 ≤ index ∧ index < 0x341C ∧ 7 ≤ sub ∧
    sub ≤ 9)) → ∃ t, exec (.objectWrite sess index sub ty value) s = .next t ∧ t.obj index sub = leNat value ∧
    t.sent = .answer sess index sub stOk :: s.sent) ∧
  (∀ (s : State) (mv : Nat), s.power.closed = true → s.power.cause ≠ 3 → 42000 ≤ mv →
    s.power.pinLow = false → ∃ t, exec (.coldStart mv) s = .next t ∧ t.power.closed = false ∧
    t.power.pinLow = false) ∧
  (∀ (s : State) (sess : Nat), s.writeGuard sess 0x7000 1 = none →
    (s.device.mode = .service ∨ s.device.mode = .test ∨ (s.device.mode = .safe ∧ s.sec.installed = true)) → ∃ t,
    exec (.startCommandWarm sess) s = .next t ∧ t.device.mode = .startup ∧ t.device.latched = none) ∧
  (∀ (s : State) (sess : Nat), s.writeGuard sess 0x7000 1 = none →
    (s.device.mode = .service ∨ s.device.mode = .test ∨ (s.device.mode = .safe ∧ s.sec.installed = true)) → ∃ t,
    exec (.startCommandCold sess) s = .next t ∧ t.device.mode = .startup ∧ t.device.latched = none) ∧
  (∀ (s : State) (r : StageReport), s.boot.active = true → s.obj 0x7000 3 = 0 → r.failed = none →
    (∀ i ∈ [0x10A0, 0x10A5, 0x10A6], s.obj i 0 ≠ 2 ∧ popCount (railPhases (i - 0x10A0) - s.obj i 1) 6 < 2) → ∃ t,
    exec (.stageEnd r) s = .next t ∧ t.obj 0x7000 3 = 1 ∧ t.obj 0x7000 4 = s.tide) ∧
  (∀ (s : State) (unit : Nat) (full : Bool), s.boot.active = true → s.obj 0x7000 3 ≠ 9 →
    s.stagePast (2 * s.stageLimit (s.obj 0x7000 3) full) = true → s.bamurn.flash.ok = true →
    s.boot.testDdr < 16 → s.boot.testHbm < 16 → ∃ t, exec (.stageTimeout ⟨unit, full⟩) s = .next t ∧
    t.boot.active = false ∧ t.obj 0x7000 2 = min 3 (s.obj 0x7000 2 + 1)) ∧
  (∀ (s : State) (kind : Nat), s.boot.waiting = some kind → s.power.closed = false →
    s.boot.failedAt + secTide ≤ s.elapsed → ∃ t, exec .nextAttempt s = .next t ∧ t.device.mode = .startup ∧
    t.boot.active = true) ∧
  (∀ (s : State), s.boot.active = true → s.obj 0x7000 3 = 9 → s.boot.topoHold = false →
    s.stagePast (s.stageLimit 9 false) = true → ∃ t, exec .topologyWaitExpiry s = .next t ∧ t.obj 0x7000 3 = 10 ∧
    t.obj 0x7000 4 = s.tide) ∧
  (∀ (s : State) (sess : Nat), s.writeGuard sess 0x7020 1 = none → ∃ t,
    exec (.trainDiscard sess) s = .next t ∧ t.obj 0x7020 1 = stOk) ∧
  (∀ (s : State) (sess mode : Nat), s.writeGuard sess 0x7030 2 = none → mode ≤ 2 → ∃ t,
    exec (.memtestNext sess mode) s = .next t ∧ t.obj 0x7030 2 = stOk) ∧
  (∀ (s : State) (mv : Nat), s.power.closed = false → ∃ t, exec (.inputSag mv) s = .next t ∧
    t.obj 0x1000 0 = mv ∧
    t.power = { s.power with sag := if mv < 40000 then some (s.power.sag.getD s.elapsed) else none }) ∧
  (∀ (s : State), s.power.closed = false → (∃ since, s.power.sag = some since ∧ since + msTide < s.elapsed) →
    ∃ t, exec .saveAndClose s = .next t ∧ t.power.closed = true ∧ t.power.cause = 1) ∧
  (∀ (s : State) (mv : Nat), s.power.closed = false → 60000 < mv → ∃ t,
    exec (.inputOvervoltage mv) s = .next t ∧ t.power.closed = true ∧ t.power.cause = 1) ∧
  (∀ (s : State) (i : Nat), i < 4 → s.obj 0x1000 4 i = 0 → ∃ t, exec (.busconvLost i) s = .next t ∧
    t.obj 0x1000 4 i = 1) ∧
  (∀ (s : State) (c phase : Nat), c < 90 → phase < phaseCount (.vl c) →
    s.obj (0x1040 + c) 1 ≤ (if c < 72 then 7 else 3) → bitOf (s.obj (0x1040 + c) 1) phase = true →
    s.plane c ≠ 4 → ∃ t, exec (.phaseLost (.vl c) phase) s = .next t ∧ (∃ r, .report r ∈ t.sent ∧
    r.cls = clPower ∧ r.suspect = susCluster c ∧ r.detail = phase)) ∧
  (∀ (s : State) (c : Nat), c < 90 → s.plane c ≠ 4 → ∃ t, exec (.planeShort (.vl c)) s = .next t ∧
    t.plane c = 4 ∧ t.obj (0x1040 + c) 1 = 0) ∧
  (∀ (s : State) (c : Nat), s.obj (0x1040 + c) 0xA ≠ 1 → ∃ t, exec (.senseFallback (.vl c)) s = .next t ∧
    t.obj (0x1040 + c) 0xA = 1 ∧ (∃ r, t.sent = .report r :: s.sent ∧ r.cls = clPower ∧
    r.suspect = susCluster c ∧ r.detail = 1)) ∧
  (∀ (s : State) (c a b ma : Nat), s.obj (0x1040 + c) 0xA ≠ 1 → (if c < 72 then 10000 else 3000) ≤ ma →
    4 * (1000000 * (a - b) / ma) ≤ 5 * s.obj (0x1040 + c) 9 → ∃ t,
    exec (.pathResistanceCheck (.vl c) a b ma false) s = .next t ∧
    t.obj (0x1040 + c) 8 = 1000000 * (a - b) / ma ∧ t.obj (0x1040 + c) 4 = a) ∧
  (∀ (s : State) (l : List Nat), ∃ t, exec (.crackChainCheck l) s = .next t ∧ (∀ f, f < 6 →
    t.obj (0x1020 + f) 4 = if f ∈ l then 1 else 0)) ∧
  (∀ (s : State) (c ma : Nat) (w : Wake), s.wakeOf c = some w → w.due ≤ s.elapsed → w.stages < 8 → w.holding = false →
    w.expired = false → ∃ t, exec (.sluiceStageDecision c ma) s = .next t ∧
    t.obj (0x1020 + clusterField c) 1 = ma ∧
    t.wakeOf c = some (if ma > s.obj (0x1020 + clusterField c) 0 * 980 then w.hold s.elapsed else w.closeStage s.elapsed (if ma > s.obj (0x1020 + clusterField c) 0 * 900 then 2 else 1))) ∧
  (∀ (s : State) (c ma : Nat) (w : Wake), s.wakeOf c = some w → w.due ≤ s.elapsed → w.holding = true → w.spent s.elapsed = false → ∃ t,
    exec (.sluiceHoldReading c ma) s = .next t ∧ t.obj (0x1020 + clusterField c) 1 = ma ∧
    t.wakeOf c = some (if ma > s.obj (0x1020 + clusterField c) 0 * 980 then w.hold s.elapsed else w.closeStage s.elapsed (if ma > s.obj (0x1020 + clusterField c) 0 * 900 then 2 else 1))) ∧
  (∀ (s : State) (c : Nat) (w : Wake), s.wakeOf c = some w → w.holding = true → w.spent s.elapsed = true → ∃ t,
    exec (.holdBudgetExpiry c) s = .next t ∧
    t.wakeOf c = some (w.closeExpired s.elapsed) ∧
    t.obj 0x1010 4 = min (s.obj 0x1010 4 + 1) (2 ^ 32 - 1)) ∧
  (∀ (s : State) (c : Nat) (w : Wake), c < 90 → s.wakeOf c = some w → 8 ≤ w.stages → w.due ≤ s.elapsed → s.planeWaits c = none →
    (s.wakeGroup (clusterField c)).queue = [] → ∃ t, exec (.clusterClockLock c) s = .next t ∧ t.plane c = 2 ∧
    t.obj (0x1040 + c) 0xC = min (s.obj (0x1040 + c) 0xC + 1) (2 ^ 32 - 1)) ∧
  (∀ (s : State) (c : Nat), c < 90 → s.plane c = 2 → s.gateable c = true → ∃ t,
    exec (.clusterGateRequest c) s = .next t ∧ t.plane c = 3) ∧
  (∀ (s : State) (c : Nat), c < 90 → s.plane c = 3 → s.planeWaits c = none → ∃ t,
    exec (.gatingComplete c) s = .next t ∧ t.plane c = 0) ∧
  (∀ (s : State), s.power.closed = false → ∃ t, exec .powerOffNLow s = .next t ∧ t.power.closed = true ∧
    t.power.cause = 2) ∧
  (∀ (s : State) (mv : Nat), s.power.closed = true → s.power.cause ≠ 3 → 42000 ≤ mv → ∃ t,
    exec (.powerOffNRelease mv) s = .next t ∧ t.power.closed = false ∧ t.power.pinLow = false)

/-- Each of these power-limit, temperature, slack and clock commands completes: for every state and every operands that meet the conditions its clause names on them alone, exec answers a next state, and that state holds the result the clause writes out (the registers, answers, queues, messages or memory the command sets). DIMM_FEED_TRIP, CONTROL_TICK, RAIL_GROUP_CURRENT_READING, ARRAY_RAMP_UP, ARRAY_RAMP_DOWN, DROOP_EVENT, DROOP_EXIT, DROOP_HOLD_EXPIRY, DIE_SENSOR_READING, HBM_TEMP_READING, DIMM_TEMP_READING, COOLANT_READING, COOLANT_RESTORED, WEIR_HOLD_EXPIRY, SLACK_NOTICE_SEND, SLACK, PEER_SLACK_EXPIRY, FREQUENCY_CHANGE, CLOCK_FAULT, CLOCK_RELOCK, REFERENCE_LOSS, TIDE_SYNC_PULSE, PTP_SYNC, DEVICE_ID_WRITE. (R320, R436, R438, R439, R440, R441, R451, R452, R455, R456, R458, R464) -/
def Obligations.LimitAndClockCommandsComplete : Prop :=
  (∀ (s : State) (ch : Nat), ch < 16 → s.obj (0x3110 + ch) 0 = 1 → Tbl.get s.channels {} ch = {} → ∃ t,
    exec (.dimmFeedTrip ch) s = .next t ∧ t.obj (0x3110 + ch) 0 = 4 ∧ t.hbm = s.hbm) ∧
  (∀ (s : State) (a b h : Nat), s.obj 0x1100 1 ≤ h → (∀ c, c < 90 → s.plane c = 2 →
    s.obj (0x1310 + c) 0 ≤ h) → (h = s.obj 0x1100 1 ∨ ∃ c, c < 90 ∧ s.plane c = 2 ∧ s.obj (0x1310 + c) 0 = h) →
    ∃ t, exec (.controlTick a b) s = .next t ∧ t.obj 0x1101 2 = a ∧ t.obj 0x1101 3 = b) ∧
  (∀ (s : State) (f ma : Nat), f < 6 → ∃ t, exec (.railGroupCurrentReading f ma) s = .next t ∧
    t.obj (0x1020 + f) 1 = ma) ∧
  (∀ (s : State) (n c : Nat) (rest : List Nat), (Tbl.get s.slopes {} (fieldNo n)).waiting = n :: rest →
    s.stopped n = false →
    3 * (((Tbl.get s.slopes {} (fieldNo n)).charges.filter (fun t => decide (s.elapsed < t + 4000))).length + 1) ≤ s.obj (0x1110 + fieldNo n) 0 →
    ∃ t, exec (.arrayRampUp n c) s = .next t ∧ (Tbl.get t.slopes {} (fieldNo n)).waiting = rest ∧
    (Tbl.get t.slopes {} (fieldNo n)).charges = (Tbl.get s.slopes {} (fieldNo n)).charges.filter (fun t => decide (s.elapsed < t + 4000)) ++ [s.elapsed]) ∧
  (∀ (s : State) (n c : Nat), (s.tile n).arr.ramp.up = true → s.stopped n = false →
    (s.tile n).arr.ramp.downAt = none → 0 < (s.tile n).arr.ramp.last →
    (s.tile n).arr.ramp.last + (s.tile n).arr.ramp.len < c → ∃ t, exec (.arrayRampDown n c) s = .next t ∧
    t.tile n = { s.tile n with arr := { (s.tile n).arr with ramp := { (s.tile n).arr.ramp with downAt := some c } } } ∧
    t.obj (tileIx n) 0x1C = min (s.obj (tileIx n) 0x1C + (s.tile n).arr.ramp.len) (2 ^ 64 - 1)) ∧
  (∀ (s : State) (c : Nat), c < 90 → s.plane c = 2 → s.obj (0x1450 + c) 4 = 0 → ∃ t,
    exec (.droopEvent c) s = .next t ∧ t.obj (0x1450 + c) 4 = 1 ∧
    t.obj (0x1450 + c) 1 = s.obj (0x1450 + c) 1 / 2) ∧
  (∀ (s : State) (c : Nat), c < 90 → s.obj (0x1450 + c) 4 = 1 → s.obj (0x1450 + c) 1 ≠ 0 → ∃ t,
    exec (.droopExit c) s = .next t ∧ t.obj (0x1450 + c) 4 = 0 ∧
    t.obj (0x1450 + c) 1 = freqTable.getD (s.obj (0x1310 + c) 0) 0) ∧
  (∀ (s : State) (c : Nat), (s.limits c).hold = true → (s.limits c).holdAt + 100 * msTide ≤ s.elapsed → ∃ t, exec (.droopHoldExpiry c) s = .next t ∧
    (t.limits c).hold = false ∧ (t.limits c).droop = (s.limits c).droop) ∧
  (∀ (s : State) (c : Nat) (x : Int), c < 90 → ∃ t, exec (.dieSensorReading c x) s = .next t ∧
    t.obj (0x1310 + c) 5 = unsignedOf x 32) ∧
  (∀ (s : State) (h : Nat) (x : Int), h < 12 → ∃ t, exec (.hbmTempReading h x) s = .next t ∧
    t.obj 0x1400 4 h = unsignedOf x 32) ∧
  (∀ (s : State) (ch : Nat) (x : Int), ch < 16 → ∃ t, exec (.dimmTempReading ch x) s = .next t ∧
    t.obj 0x1400 5 ch = unsignedOf x 32) ∧
  (∀ (s : State) (inlet outlet : Int) (flow : Nat), ∃ t,
    exec (.coolantReading inlet outlet flow) s = .next t ∧ t.obj 0x1400 1 = unsignedOf inlet 32 ∧
    t.obj 0x1400 2 = unsignedOf outlet 32) ∧
  (∀ (s : State), s.power.closed = true → s.power.cause = 3 → signedOf (s.obj 0x1400 1) 32 ≤ 450 →
    4500 ≤ s.obj 0x1400 3 → (∀ c, c < 90 → signedOf (s.obj (0x1310 + c) 5) 32 < 600) → ∃ t,
    exec .coolantRestored s = .next t ∧ t.power.closed = false ∧ t.device.mode = .startup) ∧
  (∀ (s u : State) (q : Nat) (j : Job), q < 12 → s.job q = some j → j.weirHold = true → j.cadence = false →
    j.scourHold = false → s.jobState q = 2 → u = s.setJob q (some { j with weirHold := false }) →
    u.readEntry q (u.step' q) = (u, none) → ∃ t k, exec (.weirHoldExpiry q) s = .next t ∧ t.job q = some k ∧
    k.weirHold = false ∧ t.obj (0x5010 + q) 9 = min (s.obj (0x5010 + q) 9 + 1) (2 ^ 64 - 1)) ∧
  (∀ (s : State) (q : Nat), s.sendsSlack q = true → s.jobId q < 65536 → ∃ t,
    exec (.slackNoticeSend q) s = .next t ∧ q ∈ t.throttle.told) ∧
  (∀ (s : State) (m : CtrlMsg) (q : Nat), ctrlOk 0x16 m = true → s.obj 0x1102 0 = 1 → q < 12 →
    (s.jobState q = 2 ∨ s.jobState q = 3) → s.jobId q = fieldOf m.body.toNat 208 16 →
    bitOf (s.obj (0x5040 + q) 9) m.src = true → fieldOf m.body.toNat 200 8 ≠ 0 → ∃ t,
    exec (.slack m) s = .next t ∧ (q, m.src, fieldOf m.body.toNat 192 8) ∈ t.throttle.peers) ∧
  (∀ (s : State) (q sender : Nat), Tbl.get s.throttle.slackAt 0 (256 * q + sender) + 15 * msTide ≤ s.elapsed → ∃ t, exec (.peerSlackExpiry q sender) s = .next t ∧ (∀ p d l, (p, d,
    l) ∈ t.throttle.peers ↔ ((p, d, l) ∈ s.throttle.peers ∧ ¬ (p = q ∧ d = sender)))) ∧
  (∀ (s : State) (c : Nat), c < 90 → s.plane c = 2 → (s.obj (0x1450 + c) 0 = 2 ∨ s.obj (0x1450 + c) 0 = 3) →
    s.obj (0x1310 + c) 0 < 32 → s.targetStep c < 32 → (∀ k, k < 32 → s.stepUsable k = true) →
    s.obj (0x1310 + c) 0 ≠ s.targetStep c → ∃ t, exec (.frequencyChange c) s = .next t ∧
    t.obj (0x1310 + c) 0 = (if s.obj (0x1310 + c) 0 < s.targetStep c then s.obj (0x1310 + c) 0 + 1 else s.obj (0x1310 + c) 0 - 1) ∧
    t.obj (0x1450 + c) 1 = (if s.obj (0x1450 + c) 4 = 1 then freqTable.getD (t.obj (0x1310 + c) 0) 0 / 2 else freqTable.getD (t.obj (0x1310 + c) 0) 0)) ∧
  (∀ (s : State) (c : Nat) (ph : Bool), c < 90 → s.plane c = 2 →
    (s.obj (0x1450 + c) 0 = 2 ∨ s.obj (0x1450 + c) 0 = 3) → s.clusterJobs c = [] →
    s.hist (susCode (susCluster c)) clClock = none → ∃ t, exec (.clockFault c ph) s = .next t ∧
    t.obj (0x1450 + c) 0 = 1 ∧ t.obj (0x1450 + c) 1 = 0) ∧
  (∀ (s : State) (c : Nat), c < 90 → s.plane c = 2 → s.obj (0x1450 + c) 0 = 1 → ∃ t,
    exec (.clockRelock c) s = .next t ∧ t.obj (0x1450 + c) 1 = s.outputMHz c ∧ t.obj (0x1450 + c) 6 = s.tide) ∧
  (∀ (s : State), s.power.closed = false → ∃ t, exec (.referenceLoss [.tidePll]) s = .next t ∧
    t.power.closed = true ∧ t.obj 0x1410 1 = 1) ∧
  (∀ (s : State) (a b : Nat), ∃ t, exec (.tideSyncPulse a b) s = .next t ∧
    t.obj 0x1420 6 = if a + 64 < b ∨ b + 64 < a then min (s.obj 0x1420 6 + 1) (2 ^ 32 - 1) else s.obj 0x1420 6) ∧
  (∀ (s : State) (k bt bn : Nat) (r : Int), s.ptpPort = some k → s.portState k = 6 → ∃ t,
    exec (.ptpSync k bt bn r) s = .next t ∧ t.obj 0x1430 0 = 2 ∧ t.obj 0x1430 1 = k) ∧
  (∀ (s : State) (sess v : Nat), s.writeGuard sess 0x4000 0 = none → (∀ q, q < 12 → s.jobState q = 0) →
    (v < 256 ∨ v = 0xFFFF) → (s.storeRecord 0x4000 0 3 (leBytes 2 v)).2 = stOk → ∃ t,
    exec (.deviceIdWrite sess v) s = .next t ∧ t.obj 0x4000 0 = v ∧
    t.sent.head? = some (.answer sess 0x4000 0 stOk))

/-- Each of these port, link, lane, topology, time and management commands completes: for every state and every operands that meet the conditions its clause names on them alone, exec answers a next state, and that state holds the result the clause writes out (the registers, answers, queues, messages or memory the command sets). PORT_RESET_RETRAIN, PORT_RESET_CLEAR, PORT_RETRY_TIMER, TRAINING_TIMEOUT, CODEWORD_LOCK_LOSS, HELLO_SEND, HELLO, FLIT_RECEIVE, ACK_SEND, LANE_SPARING_CHECK, LANE_SWAP, LANE_ACK, LANE_SWITCH, CABLE_INSERT, CABLE_REMOVE, TOPO_SEND, TOPO, TSYNC_SEND, TSYNC, TSYNC_REPLY, INGRESS_REQUEST, INGRESS_REPLY, EGRESS_FORK_BRANCH, MGMT_UNIT, ETH_LINK_UP, ETH_LINK_DOWN, ETH_FRAME_RECEIVE. (R324, R325, R326, R327, R333, R334, R335, R342, R343, R344, R345, R399) -/
def Obligations.CausewayCommandsComplete : Prop :=
  (∀ (s : State) (sess k : Nat), k < 16 → s.writeGuard sess (0x4010 + k) 4 = none → s.portState k ≠ 1 →
    (s.port k).fwd = [] → s.obj (0x4010 + k) 0 ≠ 0 → s.portState k ≠ 5 → ∃ t,
    exec (.portResetRetrain sess k) s = .next t ∧ t.obj (0x4010 + k) 4 = stOk ∧ t.portState k = 1) ∧
  (∀ (s : State) (sess k : Nat), k < 16 → s.writeGuard sess (0x4010 + k) 4 = none → s.portState k ≠ 1 →
    (s.port k).fwd = [] → s.obj (0x4010 + k) 0 ≠ 0 → ∃ t, exec (.portResetClear sess k) s = .next t ∧
    t.obj (0x4010 + k) 4 = stOk ∧ t.portState k = 1 ∧ t.obj (0x4010 + k) 2 = 0x0688 ∧ t.obj (0x4010 + k) 9 = 0) ∧
  (∀ (s : State) (k : Nat), k < 16 → s.portState k = 0 → ∃ t, exec (.portRetryTimer k) s = .next t ∧
    t.portState k = 1 ∧ (t.port k).locked = []) ∧
  (∀ (s : State) (k : Nat), k < 16 → s.portState k = 1 → (s.port k).locked.length < (s.port k).lanesNeeded →
    (s.port k).latch = none → (s.port k).resume = none → ∃ t, exec (.trainingTimeout k) s = .next t ∧
    t.portState k = 0 ∧ t.obj (0x4010 + k) 0xE = min (s.obj (0x4010 + k) 0xE + 1) (2 ^ 32 - 1)) ∧
  (∀ (s : State) (k lane : Nat), k < 16 → s.portUp k = true → (∃ i ∈ s.activeLanes k, s.laneOf k i = lane) →
    ∃ t, exec (.codewordLockLoss k lane) s = .next t ∧ t.portState k = 1 ∧
    t.port k = { s.port k with locked := [], prbsDone := false, resume := some (s.portState k) }) ∧
  (∀ (s : State) (k : Nat), k < 16 → (s.port k).mode = 1 → s.portState k ∈ [1, 2, 3, 4] →
    s.obj 0x4000 1 < 2 ^ 32 → s.obj 0x4000 0 < 2 ^ 16 → (s.portUp k = true → (s.port k).stuck = [] ∧
    s.roomTx k 8 1 = true) → ∃ t m, exec (.helloSend k) s = .next t ∧ t.sent = .ctrl k m :: s.sent ∧
    m.mtype = 1) ∧
  (∀ (s : State) (k : Nat) (m : CtrlMsg), k < 16 → ctrlOk 0x01 m = true → s.portState k = 1 →
    (s.port k).resume = none → (s.port k).latch = none → 4 ≤ (s.port k).locked.length →
    fieldOf m.body.toNat 128 32 = s.obj 0x4000 1 → fieldOf m.body.toNat 100 8 = 1 → (s.port k).egress = [] →
    (s.port k).ingress = [] → (s.port k).stuck = [] → ∃ t, exec (.hello k m) s = .next t ∧ t.portState k = 2 ∧
    t.obj (0x4010 + k) 3 = fieldOf m.body.toNat 112 16 * 65536 + fieldOf m.body.toNat 108 4 * 4096) ∧
  (∀ (s : State) (k : Nat) (f : Flit), k < 16 → s.portUp k = true → flitCrcOk f = true →
    flitSeq f = (s.port k).rxSeq → ∃ t, exec (.flitReceive k f true) s = .next t ∧
    (t.port k).rxSeq = (flitSeq f + 1) % 65536 ∧
    t.obj (0x4010 + k) 6 = min (s.obj (0x4010 + k) 6 + 1) (2 ^ 64 - 1)) ∧
  (∀ (s : State) (k : Nat), k < 16 → s.portUp k = true → ∃ t, exec (.ackSend k) s = .next t ∧
    t.sent = .credits k ((s.port k).owed.map (min 255)) :: .linkAck k (((s.port k).rxSeq + 65535) % 65536) false :: s.sent ∧
    (t.port k).owed = (s.port k).owed.map (fun v => v - min 255 v)) ∧
  (∀ (s : State) (k : Nat), k < 16 → s.portUp k = true → ∃ t, exec (.laneSparingCheck k) s = .next t ∧
    t.obj (0x4010 + k) 8 = min 65535 ((s.port k).marks.filter (fun m => decide (s.elapsed < 4000000000 + m))).length ∧
    (((s.port k).marks.filter (fun m => decide (s.elapsed < 4000000000 + m))).length ≤ 64 →
    (t.port k).badChecks = 0 ∧ t.sent = s.sent ∧ (t.port k).swaps = (s.port k).swaps)) ∧
  (∀ (s : State) (k : Nat) (m : CtrlMsg), k < 16 → s.portUp k = true → ctrlOk 0x02 m = true →
    (s.port k).stuck = [] → s.roomTx k 8 1 = true → (∀ x ∈ (s.port k).swaps, ∀ v, x.tx = some v → v < 65536) →
    ∃ t a, exec (.laneSwap k m) s = .next t ∧ t.sent = .ctrl k a :: s.sent ∧ a.mtype = 3) ∧
  (∀ (s : State) (k : Nat) (m : CtrlMsg), ctrlOk 0x03 m = true → ∃ t, exec (.laneAck k m) s = .next t ∧
    t.port k = { s.port k with swaps := (s.port k).swaps.map (fun x => if x.lane = fieldOf m.body.toNat 205 3 then { x with rx := some (fieldOf m.body.toNat 208 16) } else x) }) ∧
  (∀ (s : State) (k seq lane : Nat) (x : Swap), k < 16 → lane < 4 → (s.port k).swaps = [x] → x.lane = lane →
    x.drop = false → x.tx = some seq → x.txDone = false → x.rx ≠ some seq → x.rxDone = true → ∃ t,
    exec (.laneSwitch k seq) s = .next t ∧ t.laneOf k lane = 4 ∧ (∀ i, i < 4 → i ≠ lane →
    t.laneOf k i = s.laneOf k i)) ∧
  (∀ (s : State) (k : Nat), k < 16 → s.portState k = 0 → ∃ t, exec (.cableInsert k) s = .next t ∧
    t.portState k = 1 ∧ (t.port k).locked = []) ∧
  (∀ (s : State) (k : Nat), k < 16 → s.portState k = 6 → ∃ t, exec (.cableRemove k) s = .next t ∧
    t.portState k = 1 ∧ t.ports = s.ports) ∧
  (∀ (s : State), s.obj 0x4000 0 ≠ 0xFFFF → ∃ t, exec .topoSend s = .next t ∧ (∀ k, k < 16 →
    s.portUp k = true → ∃ m, m.mtype = 6 ∧ (.ctrl k m ∈ t.sent ∨ (8, 1, .ctrl k m) ∈ (t.port k).stuck))) ∧
  (∀ (s : State) (k : Nat) (m : CtrlMsg), ctrlOk 0x06 m = true →
    fieldOf m.body.toNat 216 8 ≠ s.obj 0x4000 0 → Tbl.get s.topo none (fieldOf m.body.toNat 216 8) = none → ∃ t,
    exec (.topo k m) s = .next t ∧ t.obj 0x4000 3 = (s.obj 0x4000 3 + 1) % 2 ^ 32 ∧ t.tiles = s.tiles) ∧
  (∀ (s : State) (k : Nat), s.portUp k = true → (s.port k).stuck = [] → s.roomTx k 8 1 = true →
    (s.port k).syncAt + nsTide (1000 * s.obj 0x4000 7) ≤ s.elapsed → ∃ t m, exec (.tsyncSend k) s = .next t ∧
    t.sent = .ctrl k m :: s.sent ∧ m.mtype = 4) ∧
  (∀ (s : State) (k : Nat) (m : CtrlMsg), s.portUp k = true → ctrlOk 0x04 m = true → (s.port k).stuck = [] →
    s.roomTx k 8 1 = true → ∃ t a, exec (.tsync k m) s = .next t ∧ t.sent = .ctrl k a :: s.sent ∧ a.mtype = 5) ∧
  (∀ (s : State) (k x : Nat) (m : CtrlMsg), s.portUp k = true → ctrlOk 0x05 m = true →
    fieldOf m.body.toNat 208 16 = (s.port k).syncSeq → s.obj 0x1420 2 = 0 → ∃ t,
    exec (.tsyncReply k m x) s = .next t ∧ t = { s with ports := t.ports } ∧
    (t.port k).offsets = ((((fieldOf m.body.toNat 144 64 : Int) - (s.port k).t1) - ((x : Int) - fieldOf m.body.toNat 80 64)) / 2 :: (s.port k).offsets).take 16) ∧
  (∀ (s : State) (k hop d : Nat) (p : Packet), s.obj 0x4000 0 ≠ 0xFFFF → s.device.mode ≠ .safe →
    s.isOwn (farDevice p.farAddr.toNat) = true → s.ingressDest p = .ok d → (s.port k).egress = [] →
    (s.port k).ingress = [] → (s.port k).stuck = [] → (s.port k).reserved + p.rows + 1 ≤ 4096 → ∃ t x,
    exec (.ingressRequest k hop p) s = .next t ∧ t.sent = .packet (s.portPos k) false x :: s.sent ∧ (x.dstX,
    x.dstY) = (xOf d, yOf d)) ∧
  (∀ (s : State) (k hop : Nat) (p r : Packet) (rest : List Packet), (s.port k).fwd = r :: rest →
    sameKey r p = true → (s.port k).egress = [] → (s.port k).ingress = [] → (s.port k).stuck = [] → ∃ t,
    exec (.ingressReply k hop p) s = .next t ∧ (t.port k).fwd = rest ∧ (∃ x,
    t.sent = .packet (s.portPos k) true x :: s.sent ∧ x.dstX = r.srcX ∧ x.dstY = r.srcY ∧ x.data = p.data ∧
    x.status = p.status ∧ x.tag = p.tag)) ∧
  (∀ (s : State) (k hop : Nat) (p r : Packet) (rest : List (Nat × Packet)), (s.port k).inbound = (hop,
    r) :: rest → (r.ptype = .read ∨ r.ptype = .memRead) → r.farAddr = p.farAddr → r.rows = p.rows →
    r.stride = p.stride → (s.port k).egress = [] → (s.port k).ingress = [] → ∃ t x,
    exec (.egressForkBranch k p) s = .next t ∧ x.ptype = .data ∧ x.data = p.data ∧ x.tag = r.tag ∧
    ((min 3 (hop + 1),
    x) ∈ (t.port k).egress ∨ .egress k (min 3 (hop + 1)) { x with srcX := 0, srcY := 0, dstX := 0, dstY := 0 } ∈ t.sent)) ∧
  (∀ (s : State) (k slots : Nat) (u : MgmtUnit), u.reserved = 0 → 1 ≤ u.length → u.length ≤ 1536 →
    slots ≤ 48 → slots = (u.length + 31) / 32 → u.hops ≤ 3 → (u.local' = true ∨ (s.obj 0x4000 0 ≠ 0xFFFF ∧
    u.dst = s.ownDevice)) →
    exec (.mgmtUnit k u slots) s = .next (s.emit (.deliver (.link k u.src u.local') (u.bytes.take u.length)))) ∧
  (∀ (s : State) (k : Nat), k < 16 → 2 ≤ (s.port k).mode → s.portState k ≠ 7 → (s.port k).latch = none → ∃ t,
    exec (.ethLinkUp k) s = .next t ∧ t.portState k = 6 ∧ t.ports = s.ports) ∧
  (∀ (s : State) (k : Nat), k < 16 → s.portState k = 6 → ∃ t, exec (.ethLinkDown k) s = .next t ∧
    t.portState k = 1 ∧ (∀ j, j ≠ k → t.port j = s.port j)) ∧
  (∀ (s : State) (k : Nat) (f : EthFrame), s.portState k = 6 → f.fcsOk = true → isTagged f.bytes = false →
    64 ≤ f.bytes.length → f.bytes.length ≤ 9216 → ∃ t, exec (.ethFrameReceive k f) s = .next t ∧
    t.obj (0x4010 + k) 0x11 = min (s.obj (0x4010 + k) 0x11 + 1) (2 ^ 64 - 1) ∧
    t.sent = .frame k { f with stamp := if s.obj (0x4010 + k) 0x14 = 1 ∧ ptpEvent f.bytes = true then some s.tide else none } :: s.sent)

/-- Each of these queue, array and vector commands completes: for every state and every operands that meet the conditions its clause names on them alone, exec answers a next state, and that state holds the result the clause writes out (the registers, answers, queues, messages or memory the command sets). WAIT, SIGNAL, SIGNAL_APPLY, END, NOP, LOAD_STATIONARY, LOAD_STATIONARY_ROWS_START, SWAP, PASS, FOLD_LAND, SET_HANDLE, SET_SENTINEL, CONVERT, SPILL_FIX, REQUANT, ADD, MUL, MAX, MIN, ACT, REDUCE, SOFTMAX, NORM, DEQUANT, TOPK, RANDOM, VEC_WRITE_COMPLETE. (R47, R89, R124, R125, R146, R147, R148, R149, R151, R152, R153, R154) -/
def Obligations.QueueAndComputeCommandsComplete : Prop :=
  (∀ (s : State) (n q c w : Nat), s.headIs n q c w → opcodeOf w = 0x01 →
    (s.qPc n q ≠ s.qEntry n q ∨ (s.queue n q).ended = none) →
    (s.gaugeAt n (fieldOf w 112 7) c % 2 ^ 32 + 2 ^ 32 - (fieldOf w 64 32 + fieldOf w 96 16 * s.stepOffset n) % 2 ^ 32) % 2 ^ 32 < 2 ^ 31 →
    ∃ t, exec (.wait n q c) s = .next t ∧ s.issuedTo t n q (s.qPc n q + 1) (c + 1) ∧ s.onlyQueues t n) ∧
  (∀ (s : State) (n q c w : Nat), q < 3 → s.headIs n q c w → opcodeOf w = 0x02 → bitOf w 119 = false →
    (s.queue n q).deferred.length < 8 → ∃ t d, exec (.signal n q c) s = .next t ∧
    s.issuedTo t n q (s.qPc n q + 1) (c + 1) ∧ (t.queue n q).deferred = (s.queue n q).deferred ++ [d] ∧
    d.far = false ∧ d.gauge = fieldOf w 112 7 ∧ d.add = fieldOf w 96 16) ∧
  (∀ (s : State) (n c : Nat) (d : Deferred) (rest : List Deferred), (s.queue n 1).deferred = d :: rest →
    s.qState n 1 ≠ 6 → d.ready ≤ c → d.far = false → (s.tile n).vec = [] → (s.tile n).gau.st = .live → ∃ t,
    exec (.signalApply n 1 c) s = .next t ∧ (t.queue n 1).deferred = rest ∧
    (t.gauge n d.gauge).value = ((s.gauge n d.gauge).value + d.add) % 2 ^ 32) ∧
  (∀ (s : State) (n q c w : Nat), s.headIs n q c w → opcodeOf w = 0x03 → ∃ t,
    exec (.queueEnd n q c) s = .next t ∧ s.issuedTo t n q (s.qEntry n q) (c + 3) ∧
    (t.queue n q).deferred = (s.queue n q).deferred) ∧
  (∀ (s : State) (n q c w : Nat), s.headIs n q c w → opcodeOf w = 0x04 → ∃ t, exec (.nop n q c) s = .next t ∧
    s.issuedTo t n q (s.qPc n q + 1) (c + max 1 (fieldOf w 104 16)) ∧ s.onlyQueues t n) ∧
  (∀ (s : State) (n c w : Nat), s.headIs n 0 c w → opcodeOf w = 0x10 → (s.tile n).arr.load = .idle →
    fieldOf w 116 4 < 6 → handleCheck (s.handle n (fieldOf w 54 6)) hrStationary (fieldOf w 40 14) 192 = none →
    (handleCheck (s.handle n (fieldOf w 34 6)) hrStationary (fieldOf w 20 14) (if fieldOf w 116 4 = 3 then 12 else if fieldOf w 116 4 = 4 ∨ fieldOf w 116 4 = 5 then 6 else 24) = none) →
    ∃ t r, exec (.loadStationary n c) s = .next t ∧ s.issuedTo t n 0 (s.qPc n 0 + 1) (c + 1) ∧
    (t.tile n).arr = { (s.tile n).arr with load := .waiting r } ∧ r.fmt = fieldOf w 116 4 ∧
    r.eHandle = s.handle n (fieldOf w 54 6) ∧ r.eRow = fieldOf w 40 14 ∧
    r.sHandle = s.handle n (fieldOf w 34 6) ∧ r.sRow = fieldOf w 20 14) ∧
  (∀ (s : State) (n c : Nat) (r : LoadReq) (es ss : List Row), (s.tile n).arr.load = .waiting r →
    s.stopped n = false → (s.tile n).grants = [] → r.cond = none → r.fmt ≠ 2 → es.length = 192 →
    ss.length = scaleRows r.fmt → s.holds' n r.eHandle r.eRow es → s.holds' n r.sHandle r.sRow ss → (∀ x,
    x ∈ planeBytes ss (outputsOf r.fmt * bandsOf r.fmt) → fieldOf r.sentinel 0 8 ≤ x ∧
    x ≤ fieldOf r.sentinel 8 8 ∧ x ≠ 0xFF) → ∃ t, exec (.loadStationaryRowsStart n c []) s = .next t ∧
    (t.tile n).arr.load = .crossing (c + 95) none false ∧ (t.tile n).arr.live = (s.tile n).arr.live) ∧
  (∀ (s : State) (n c w : Nat), s.headIs n 0 c w → opcodeOf w = 0x11 →
    ((s.tile n).arr.load = .done ∨ (∃ last, (s.tile n).arr.load = .crossing last none false ∧ last < c)) → ∃ t,
    exec (.swap n c) s = .next t ∧ s.issuedTo t n 0 (s.qPc n 0 + 1) (c + 1) ∧
    (t.tile n).arr.live = (s.tile n).arr.shadow) ∧
  (∀ (s : State) (n c w : Nat) (es ss : List Row), s.headIs n 0 c w → opcodeOf w = 0x12 →
    (s.tile n).arr.swapped = true → (s.tile n).grants = [] →
    passOk (s.tile n).arr.live.fmt (fieldOf w 118 2) (fieldOf w 115 3) (fieldOf w 111 4) (bitOf w 110) (bitOf w 109) (bitOf w 108) (fieldOf w 94 14) (fieldOf w 84 10) = true →
    es.length = streamRows (fieldOf w 111 4) (fieldOf w 94 14) →
    ss.length = (fieldOf w 94 14 * streamScales (fieldOf w 111 4) + 31) / 32 →
    s.reads n (fieldOf w 78 6) hrStream (fieldOf w 64 14) es →
    s.reads n (fieldOf w 58 6) hrStream (fieldOf w 44 14) ss → (s.tile n).arr.ramp.up = true →
    (s.tile n).arr.ramp.downAt = none → 0 < fieldOf w 94 14 → (∀ x,
    x ∈ planeBytes ss (fieldOf w 94 14 * streamScales (fieldOf w 111 4)) →
    fieldOf (s.obj (tileIx n) 0x12 1) 0 8 ≤ x ∧ x ≤ fieldOf (s.obj (tileIx n) 0x12 1) 8 8 ∧ x ≠ 0xFF) →
    ∃ t start fs, exec (.pass n c []) s = .next t ∧ start = max c (s.tile n).arr.ramp.full ∧
    s.issuedTo t n 0 (s.qPc n 0 + 1) (start + fieldOf w 94 14 * rowCycles (fieldOf w 111 4)) ∧
    (t.tile n).arr.folds = (s.tile n).arr.folds ++ fs ∧ fs.length = fieldOf w 94 14) ∧
  (∀ (s : State) (n c : Nat) (f : Fold) (rest : List Fold), (s.tile n).arr.folds = f :: rest → f.lands ≤ c →
    s.stopped n = false → f.act = none → f.collided = false → f.fold < 2 → f.outs.length ≤ 128 → ∃ t,
    exec (.foldLand n c) s = .next t ∧ (t.tile n).arr.folds = rest ∧ s.onlyTile t n) ∧
  (∀ (s : State) (n c w : Nat), s.headIs n 3 c w → opcodeOf w = 0x40 →
    bitOf (s.handle n (fieldOf w 64 6)) 56 = false → bitOf (s.handle n (fieldOf w 64 6)) 55 = false →
    fieldOf w 52 3 = 0 → fieldOf w 0 16 = 0 → (bitOf (fieldOf w 0 64) 63 = true →
    0 < popCount (fieldOf w 40 12) 12 ∧ 0 < fieldOf w 26 14 ∧ fieldOf w 26 14 ≤ 12288 ∧
    fieldOf w 16 10 + (fieldOf w 26 14 + popCount (fieldOf w 40 12) 12 - 1) / popCount (fieldOf w 40 12) 12 ≤ 1024) →
    ∃ t, exec (.setHandle n c) s = .next t ∧ s.issuedTo t n 3 (s.qPc n 3 + 1) (c + 1) ∧
    t.handle n (fieldOf w 64 6) = (if bitOf (fieldOf w 0 64) 63 = true then fieldOf w 0 64 else 0)) ∧
  (∀ (s : State) (n c w : Nat), s.headIs n 3 c w → opcodeOf w = 0x41 → fieldOf w 32 2 < 3 →
    fieldOf w 8 8 ≠ 0xFF → fieldOf w 0 8 ≤ fieldOf w 8 8 → bitOf w 31 = false → fieldOf w 16 6 = 0 → ∃ t,
    exec (.setSentinel n c) s = .next t ∧ s.issuedTo t n 3 (s.qPc n 3 + 1) (c + 1) ∧
    t.obj (tileIx n) 0x12 (fieldOf w 32 2) = fieldOf w 0 32) ∧
  (∀ (s : State) (n c : Nat) (v : VecWord) (xs : List F32) (ds : List Row),
    s.vecSource n v 0 (64 * v.count) xs → s.vecHead n c 0x01 v → isWide v.fmtOut = true → v.fmtIn ≠ v.fmtOut →
    v.aux = 0 → ds = packWide v.fmtOut (xs.map (toFmt (v.fmtOut == fmtBF16))) →
    handleCheck (s.handle n v.dHandle) hrVecWrite v.dRow ds.length = none → ∃ t,
    exec (.vecConvert n c []) s = .next t ∧ s.vecIssued t n (s.placed n v.dHandle v.dRow ds) []) ∧
  (∀ (s : State) (n c : Nat) (v : VecWord) (xs : List F32) (ps we wc ae ac ds : List Row) (p : SpillParam),
    s.vecHead n c 0x02 v → v.fmtIn = fmtFP32 → v.fmtOut = fmtFP32 → v.aux = 0 → ps.length = 1 →
    s.reads n v.bHandle hrVecRead v.bRow ps → p = spillParam (ps.getD 0 0).toNat →
    fieldOf (ps.getD 0 0).toNat 0 112 = 0 → p.wFmt = fmtM4 → p.aFmt = fmtM4 → p.wSp = false → p.aSp = false →
    p.m0 = 0 → s.vecSource n v 0 (128 * v.count) xs → we.length = 192 →
    s.reads n p.weHandle hrVecRead p.weRow we → wc.length = 24 → s.reads n p.wcHandle hrVecRead p.wcRow wc →
    ae.length = (96 * v.count + 63) / 64 → s.reads n p.aeHandle hrVecRead p.aeRow ae →
    ac.length = (6 * v.count + 31) / 32 → s.reads n p.acHandle hrVecRead p.acRow ac →
    ds = packWide fmtFP32 (xs.map BitVec.toNat) →
    handleCheck (s.handle n v.dHandle) hrVecWrite v.dRow ds.length = none → ∃ t,
    exec (.vecSpillFix n c []) s = .next t ∧
    s.vecIssued t n (s.placed n v.dHandle v.dRow ds) [okey (tileIx n) 0x16 0]) ∧
  (∀ (s : State) (n c : Nat) (v : VecWord) (xs : List F32) (scales : List Nat) (ds bs : List Row),
    s.vecSource n v 0 (64 * v.count) xs → s.vecHead n c 0x03 v → v.fmtOut < 6 → v.aux = 0 →
    scales = (List.range (64 * v.count / blockSize v.fmtOut)).map (fun b => scaleCode v.fmtOut ((xs.drop (b * blockSize v.fmtOut)).take (blockSize v.fmtOut))) →
    ds = packRows (elemBits v.fmtOut) (perRow v.fmtOut) ((List.range (64 * v.count)).map (fun j => (requantElem v.fmtOut (scales.getD (j / blockSize v.fmtOut) 0) (xs.getD j 0) (if v.rnd = true then some (draw24 (s.drawAt n 0 v.site j)) else none)).1)) →
    bs = packRows 8 32 scales → handleCheck (s.handle n v.dHandle) hrVecWrite v.dRow ds.length = none →
    handleCheck (s.handle n v.bHandle) hrVecWrite v.bRow bs.length = none → ∃ t,
    exec (.vecRequant n c []) s = .next t ∧
    s.vecIssued t n (s.placed n v.dHandle v.dRow ds ++ s.placed n v.bHandle v.bRow bs) [okey (tileIx n) 0x11 0, okey (tileIx n) 0x13 2, okey (tileIx n) 0x14 2, okey (tileIx n) 0x15 2]) ∧
  (∀ (s : State) (n c : Nat) (v : VecWord) (xs : List F32) (bs ds : List Row),
    s.vecSource n v 0 (64 * v.count) xs → isWide v.fmtOut = true → v.aux < 2 →
    bs.length = rowsFor v.fmtIn (if bitOf v.aux 0 = true then 64 else 64 * v.count) →
    s.reads n v.bHandle hrVecRead v.bRow bs → s.vecHead n c 0x04 v →
    ds = packWide v.fmtOut ((List.range (64 * v.count)).map (fun j => (fun x y => ((decodeF32 x).add (decodeF32 y)).round (v.fmtOut == fmtBF16)) (xs.getD j 0) ((wideElems v.fmtIn bs (if bitOf v.aux 0 = true then 64 else 64 * v.count)).getD (if bitOf v.aux 0 = true then j % 64 else j) 0))) →
    handleCheck (s.handle n v.dHandle) hrVecWrite v.dRow ds.length = none → ∃ t,
    exec (.vecAdd n c []) s = .next t ∧ s.vecIssued t n (s.placed n v.dHandle v.dRow ds) []) ∧
  (∀ (s : State) (n c : Nat) (v : VecWord) (xs : List F32) (bs ds : List Row),
    s.vecSource n v 0 (64 * v.count) xs → isWide v.fmtOut = true → v.aux < 2 →
    bs.length = rowsFor v.fmtIn (if bitOf v.aux 0 = true then 64 else 64 * v.count) →
    s.reads n v.bHandle hrVecRead v.bRow bs → s.vecHead n c 0x05 v →
    ds = packWide v.fmtOut ((List.range (64 * v.count)).map (fun j => (fun x y => ((decodeF32 x).mul (decodeF32 y)).round (v.fmtOut == fmtBF16)) (xs.getD j 0) ((wideElems v.fmtIn bs (if bitOf v.aux 0 = true then 64 else 64 * v.count)).getD (if bitOf v.aux 0 = true then j % 64 else j) 0))) →
    handleCheck (s.handle n v.dHandle) hrVecWrite v.dRow ds.length = none → ∃ t,
    exec (.vecMul n c []) s = .next t ∧ s.vecIssued t n (s.placed n v.dHandle v.dRow ds) []) ∧
  (∀ (s : State) (n c : Nat) (v : VecWord) (xs : List F32) (bs ds : List Row),
    s.vecSource n v 0 (64 * v.count) xs → isWide v.fmtOut = true → v.aux < 2 →
    bs.length = rowsFor v.fmtIn (if bitOf v.aux 0 = true then 64 else 64 * v.count) →
    s.reads n v.bHandle hrVecRead v.bRow bs → s.vecHead n c 0x06 v →
    ds = packWide v.fmtOut ((List.range (64 * v.count)).map (fun j => (fun x y => toFmt (v.fmtOut == fmtBF16) (pickF32 true x y)) (xs.getD j 0) ((wideElems v.fmtIn bs (if bitOf v.aux 0 = true then 64 else 64 * v.count)).getD (if bitOf v.aux 0 = true then j % 64 else j) 0))) →
    handleCheck (s.handle n v.dHandle) hrVecWrite v.dRow ds.length = none → ∃ t,
    exec (.vecMax n c []) s = .next t ∧ s.vecIssued t n (s.placed n v.dHandle v.dRow ds) []) ∧
  (∀ (s : State) (n c : Nat) (v : VecWord) (xs : List F32) (bs ds : List Row),
    s.vecSource n v 0 (64 * v.count) xs → isWide v.fmtOut = true → v.aux < 2 →
    bs.length = rowsFor v.fmtIn (if bitOf v.aux 0 = true then 64 else 64 * v.count) →
    s.reads n v.bHandle hrVecRead v.bRow bs → s.vecHead n c 0x07 v →
    ds = packWide v.fmtOut ((List.range (64 * v.count)).map (fun j => (fun x y => toFmt (v.fmtOut == fmtBF16) (pickF32 false x y)) (xs.getD j 0) ((wideElems v.fmtIn bs (if bitOf v.aux 0 = true then 64 else 64 * v.count)).getD (if bitOf v.aux 0 = true then j % 64 else j) 0))) →
    handleCheck (s.handle n v.dHandle) hrVecWrite v.dRow ds.length = none → ∃ t,
    exec (.vecMin n c []) s = .next t ∧ s.vecIssued t n (s.placed n v.dHandle v.dRow ds) []) ∧
  (∀ (s : State) (n c : Nat) (v : VecWord) (xs : List F32) (ds : List Row),
    s.vecSource n v 0 (64 * v.count) xs → s.vecHead n c 0x08 v → isWide v.fmtOut = true → v.aux < 10 →
    ds = packWide v.fmtOut (xs.map (fun x => if v.aux = 9 then ((decodeF32 x).mul (decodeF32 x)).round (v.fmtOut == fmtBF16) else toFmt (v.fmtOut == fmtBF16) (actF32 v.aux x))) →
    handleCheck (s.handle n v.dHandle) hrVecWrite v.dRow ds.length = none → ∃ t,
    exec (.vecAct n c []) s = .next t ∧ s.vecIssued t n (s.placed n v.dHandle v.dRow ds) []) ∧
  (∀ (s : State) (n c : Nat) (v : VecWord) (ps : List Row) (w len stride : Nat) (vs : List (List F32)) (ds : List Row),
    ps.length = 1 → s.reads n v.bHandle hrVecRead v.bRow ps → w = (ps.getD 0 0).toNat → len = fieldOf w 0 16 →
    stride = fieldOf w 16 16 → fieldOf w 67 149 = 0 → 0 < len → 64 ≤ stride → stride % 64 = 0 → len ≤ stride →
    vs.length = v.count → (∀ i, i < v.count → s.vecSource n v (i * stride) len (vs.getD i [])) →
    s.vecHead n c 0x09 v → v.fmtOut = fmtFP32 → v.aux < 6 → fieldOf w 32 32 = 0 →
    ds = packWide fmtFP32 (vs.map (fun xs => (reduceF32 v.aux xs).1)) →
    handleCheck (s.handle n v.dHandle) hrVecWrite v.dRow ds.length = none → ∃ t,
    exec (.vecReduce n c []) s = .next t ∧
    s.vecIssued t n (s.placed n v.dHandle v.dRow ds) [okey (tileIx n) 0x41 0]) ∧
  (∀ (s : State) (n c : Nat) (v : VecWord) (ps : List Row) (w len stride : Nat) (vs : List (List F32)),
    ps.length = 1 → s.reads n v.bHandle hrVecRead v.bRow ps → w = (ps.getD 0 0).toNat → len = fieldOf w 0 16 →
    stride = fieldOf w 16 16 → fieldOf w 67 149 = 0 → 0 < len → 64 ≤ stride → stride % 64 = 0 → len ≤ stride →
    vs.length = v.count → (∀ i, i < v.count → s.vecSource n v (i * stride) len (vs.getD i [])) →
    s.vecHead n c 0x0A v → isWide v.fmtOut = true → v.aux = 0 → (∀ i, i < v.count →
    handleCheck (s.handle n v.dHandle) hrVecWrite (v.dRow + i * stride / perRow v.fmtOut) (rowsFor v.fmtOut len) = none) →
    ∃ t, exec (.vecSoftmax n c []) s = .next t ∧
    s.vecIssued t n ((vs.zipIdx).flatMap (fun x => s.placed n v.dHandle (v.dRow + x.2 * stride / perRow v.fmtOut) (packWide v.fmtOut ((softmaxF32 (if fieldOf w 32 32 = 0 then 0x3F800000#32 else BitVec.ofNat 32 (fieldOf w 32 32)) x.1).map (toFmt (v.fmtOut == fmtBF16)))))) []) ∧
  (∀ (s : State) (n c : Nat) (v : VecWord) (ps : List Row) (w len stride : Nat) (vs : List (List F32)),
    ps.length = 1 → s.reads n v.bHandle hrVecRead v.bRow ps → w = (ps.getD 0 0).toNat → len = fieldOf w 0 16 →
    stride = fieldOf w 16 16 → fieldOf w 67 149 = 0 → 0 < len → 64 ≤ stride → stride % 64 = 0 → len ≤ stride →
    vs.length = v.count → (∀ i, i < v.count → s.vecSource n v (i * stride) len (vs.getD i [])) →
    s.vecHead n c 0x0B v → isWide v.fmtOut = true → v.aux < 2 → bitOf w 65 = false → bitOf w 66 = false → (∀ i,
    i < v.count →
    handleCheck (s.handle n v.dHandle) hrVecWrite (v.dRow + i * stride / perRow v.fmtOut) (rowsFor v.fmtOut len) = none) →
    ∃ t, exec (.vecNorm n c []) s = .next t ∧
    s.vecIssued t n ((vs.zipIdx).flatMap (fun x => s.placed n v.dHandle (v.dRow + x.2 * stride / perRow v.fmtOut) (packWide v.fmtOut ((normF32 (v.aux == 1) (BitVec.ofNat 32 (fieldOf w 32 32)) none none x.1).map (toFmt (v.fmtOut == fmtBF16)))))) []) ∧
  (∀ (s : State) (n c : Nat) (v : VecWord) (es ss ds : List Row), s.vecHead n c 0x0C v → v.fmtIn < 6 →
    isWide v.fmtOut = true → v.aux = 0 → v.aAcc = false → es.length = rowsFor v.fmtIn (64 * v.count) →
    ss.length = (64 * v.count / blockSize v.fmtIn + 31) / 32 → s.reads n v.aHandle hrVecRead v.aRow es →
    s.reads n v.bHandle hrVecRead v.bRow ss →
    ds = packWide v.fmtOut ((List.range (64 * v.count)).map (fun j => toFmt (v.fmtOut == fmtBF16) (dequantElem v.fmtIn (planeByte ss (j / blockSize v.fmtIn)) (elemCode v.fmtIn es j)))) →
    handleCheck (s.handle n v.dHandle) hrVecWrite v.dRow ds.length = none → ∃ t,
    exec (.vecDequant n c []) s = .next t ∧
    s.vecIssued t n (s.placed n v.dHandle v.dRow ds) [okey (tileIx n) 0x16 0]) ∧
  (∀ (s : State) (n c : Nat) (v : VecWord) (ps : List Row) (w len stride : Nat) (vs : List (List F32)),
    ps.length = 1 → s.reads n v.bHandle hrVecRead v.bRow ps → w = (ps.getD 0 0).toNat → len = fieldOf w 0 16 →
    stride = fieldOf w 16 16 → fieldOf w 67 149 = 0 → 0 < len → 64 ≤ stride → stride % 64 = 0 → len ≤ stride →
    vs.length = v.count → (∀ i, i < v.count → s.vecSource n v (i * stride) len (vs.getD i [])) →
    s.vecHead n c 0x0D v → v.fmtOut = fmtFP32 → 1 ≤ v.aux → v.aux ≤ 8 → bitOf w 64 = true → (∀ i, i < v.count →
    handleCheck (s.handle n v.dHandle) hrVecWrite (v.dRow + 2 * i) 2 = none) → ∃ t,
    exec (.vecTopk n c []) s = .next t ∧
    s.vecIssued t n ((vs.zipIdx).flatMap (fun x => let sel := topF32 v.aux ((x.1.zipIdx).filter (fun y => !isNaN32 y.1)); s.placed n v.dHandle (v.dRow + 2 * x.2) (packRows 32 8 (sel.map (fun y => y.1.toNat) ++ List.replicate (8 - sel.length) 0) ++ packRows 32 8 (sel.map (·.2) ++ List.replicate (8 - sel.length) 0xFFFFFFFF)))) [okey (tileIx n) 0x41 0]) ∧
  (∀ (s : State) (n c : Nat) (v : VecWord) (ds : List Row), s.vecHead n c 0x0E v → isWide v.fmtOut = true →
    v.aux < 2 → (v.aux = 0 → v.fmtOut = fmtFP32) →
    ds = packWide v.fmtOut ((List.range (64 * v.count)).map (fun j => if v.aux = 0 then (s.drawAt n 1 v.site j).toNat / 2 ^ 32 else (FVal.fin false ((s.drawAt n 1 v.site j).toNat / 2 ^ 40) (-24)).round (v.fmtOut == fmtBF16))) →
    handleCheck (s.handle n v.dHandle) hrVecWrite v.dRow ds.length = none → ∃ t,
    exec (.vecRandom n c []) s = .next t ∧ s.vecIssued t n (s.placed n v.dHandle v.dRow ds) []) ∧
  (∀ (s : State) (n c : Nat) (r : VecRun) (rest : List VecRun), (s.tile n).vec = r :: rest →
    r.lastWrite ≤ c → s.stopped n = false → r.act = none → r.collided = false → ∃ t,
    exec (.vecWriteComplete n c) s = .next t ∧ (t.tile n).vec = rest ∧
    t.obj (tileIx n) 0x43 = min (s.obj (tileIx n) 0x43 + 1) (2 ^ 64 - 1))

/-- Each of these mover, fabric and memory commands completes: for every state and every operands that meet the conditions its clause names on them alone, exec answers a next state, and that state holds the result the clause writes out (the registers, answers, queues, messages or memory the command sets). FILL, COPY, PUT, GET, LOAD, STORE, DESCRIPTOR_COMPLETE, QUEUE_WATCHDOG_FIRE, HEAD_FLIT_ROUTE, FLIT_PARITY_ERROR, FORK_SPLIT, POSITION_NON_FORWARDING, NON_FORWARDING_DRAIN_END, READ_PACKET, WRITE_PACKET, SIGNAL_PACKET, PENDING_HOLD_RELEASE, MEM_READ, MEM_WRITE, MEMORY_READ_COMPLETE, WRITE_BUFFER_FLUSH, PATROL_READ, STACK_ECC_POLL, HOLD_BUFFER_EXPIRY, DATA_PACKET, FORK_PACKET, ACK_PACKET, STATUS_PACKET. (R95, R96, R106, R107, R112, R113, R124, R137, R171, R175, R182, R258) -/
def Obligations.MoverFabricAndMemoryCommandsComplete : Prop :=
  (∀ (s : State) (n c : Nat) (d : Row) (src : List Row), s.moveHead n c d → s.descCheck n d = none →
    dOp d = 1 → (∃ pat, s.holds' n (s.handle n (farHandle (dFar d))) (farRow (dFar d)) [pat] ∧
    src = List.replicate (dRows d) pat) → ∃ t x, exec (.moveFill n c []) s = .next t ∧
    s.issuedTo t n 2 (s.qPc n 2 + 1) (c + 1) ∧ (t.tile n).mov.descs = (s.tile n).mov.descs ++ [x]) ∧
  (∀ (s : State) (n c : Nat) (d : Row) (src : List Row), s.moveHead n c d → s.descCheck n d = none →
    dOp d = 2 → src.length = dRows d → s.holds' n (s.handle n (farHandle (dFar d))) (farRow (dFar d)) src →
    ∃ t x, exec (.moveCopy n c []) s = .next t ∧ s.issuedTo t n 2 (s.qPc n 2 + 1) (c + 1) ∧
    (t.tile n).mov.descs = (s.tile n).mov.descs ++ [x]) ∧
  (∀ (s : State) (n c pos : Nat) (d : Row) (src : List Row), s.moveHead n c d → s.descCheck n d = none →
    (s.tile n).mov.descs = [] → (s.tile n).mov.tracks = [] → (s.tile n).mov.waits = none → dRows d ≤ 8 →
    requestRows d 0 = dRows d → s.requestDest n d 0 0 = .ok pos → s.isTwin n = false → s.inTwin n = false →
    dOp d = 3 → (if dOp d = 3 ∨ dOp d = 6 then src.length = dRows d ∧
    s.holds' n (s.handle n (dHandle d)) (dRow d) src else src = []) → ∃ t p, exec (.movePut n c []) s = .next t ∧
    s.issuedTo t n 2 (s.qPc n 2 + 1) (c + 1) ∧ t.sent = .packet n false p :: s.sent ∧ p.ptype = .write ∧
    p.rows = dRows d ∧ p.farAddr = BitVec.ofNat 64 (dFar d) ∧ p.data = src.map encodeRow ∧ (p.dstX,
    p.dstY) = (xOf pos, yOf pos)) ∧
  (∀ (s : State) (n c pos : Nat) (d : Row) (src : List Row), s.moveHead n c d → s.descCheck n d = none →
    (s.tile n).mov.descs = [] → (s.tile n).mov.tracks = [] → (s.tile n).mov.waits = none → dRows d ≤ 8 →
    requestRows d 0 = dRows d → s.requestDest n d 0 0 = .ok pos → s.isTwin n = false → s.inTwin n = false →
    dOp d = 4 → (if dOp d = 3 ∨ dOp d = 6 then src.length = dRows d ∧
    s.holds' n (s.handle n (dHandle d)) (dRow d) src else src = []) → ∃ t p, exec (.moveGet n c []) s = .next t ∧
    s.issuedTo t n 2 (s.qPc n 2 + 1) (c + 1) ∧ t.sent = .packet n false p :: s.sent ∧ p.ptype = .read ∧
    p.rows = dRows d ∧ p.farAddr = BitVec.ofNat 64 (dFar d) ∧ p.data = src.map encodeRow ∧ (p.dstX,
    p.dstY) = (xOf pos, yOf pos)) ∧
  (∀ (s : State) (n c pos : Nat) (d : Row) (src : List Row), s.moveHead n c d → s.descCheck n d = none →
    (s.tile n).mov.descs = [] → (s.tile n).mov.tracks = [] → (s.tile n).mov.waits = none → dRows d ≤ 8 →
    requestRows d 0 = dRows d → s.requestDest n d 0 0 = .ok pos → s.isTwin n = false → s.inTwin n = false →
    dOp d = 5 → (if dOp d = 3 ∨ dOp d = 6 then src.length = dRows d ∧
    s.holds' n (s.handle n (dHandle d)) (dRow d) src else src = []) → ∃ t p,
    exec (.moveLoad n c []) s = .next t ∧ s.issuedTo t n 2 (s.qPc n 2 + 1) (c + 1) ∧
    t.sent = .packet n false p :: s.sent ∧ p.ptype = .memRead ∧ p.rows = dRows d ∧
    p.farAddr = BitVec.ofNat 64 (dFar d) ∧ p.data = src.map encodeRow ∧ (p.dstX, p.dstY) = (xOf pos, yOf pos)) ∧
  (∀ (s : State) (n c pos : Nat) (d : Row) (src : List Row), s.moveHead n c d → s.descCheck n d = none →
    (s.tile n).mov.descs = [] → (s.tile n).mov.tracks = [] → (s.tile n).mov.waits = none → dRows d ≤ 8 →
    requestRows d 0 = dRows d → s.requestDest n d 0 0 = .ok pos → s.isTwin n = false → s.inTwin n = false →
    dOp d = 6 → (if dOp d = 3 ∨ dOp d = 6 then src.length = dRows d ∧
    s.holds' n (s.handle n (dHandle d)) (dRow d) src else src = []) → ∃ t p,
    exec (.moveStore n c []) s = .next t ∧ s.issuedTo t n 2 (s.qPc n 2 + 1) (c + 1) ∧
    t.sent = .packet n false p :: s.sent ∧ p.ptype = .memWrite ∧ p.rows = dRows d ∧
    p.farAddr = BitVec.ofNat 64 (dFar d) ∧ p.data = src.map encodeRow ∧ (p.dstX, p.dstY) = (xOf pos, yOf pos)) ∧
  (∀ (s : State) (n c : Nat) (d : MoveDesc), (s.tile n).mov.descs = [d] → (s.tile n).mov.tracks = [] →
    dRows d.word ≤ d.asked → d.discard = false → d.told = false → d.collided = false → d.status = 0 →
    s.stopped n = false → (s.tile n).gau.st = .live → ∃ t, exec (.descriptorComplete n d.id c) s = .next t ∧
    (t.tile n).mov = { (s.tile n).mov with descs := [] } ∧ s.onlyTile t n) ∧
  (∀ (s : State) (n q c w : Nat), s.qState n q = 3 → s.cmdWord n (s.qPc n q) = some w → opcodeOf w ≠ 1 →
    s.waitedOut n q = true → s.waitMet n q c = false → s.isTwin n = false → ∃ t,
    exec (.queueWatchdogFire n ⟨q, c⟩) s = .next t ∧ t.qState n q = 5 ∧ t.qPc n q = s.qPc n q) ∧
  (∀ (s : State) (pos : Nat) (leg : Leg) (p : Packet), p.ptype ≠ .fork → s.carries pos = true →
    s.hop pos leg.vc leg.legX leg.legY p.dstX p.dstY = .eject → ∃ t,
    exec (.headFlitRoute pos leg p) s = .next t ∧ t.sent = .hop pos pos leg p :: s.sent ∧
    t.obj (tileIx pos) 0x51 (if isReply p then 1 else 0) = min (s.obj (tileIx pos) 0x51 (if isReply p then 1 else 0) + (1 + (p.data.length + 1) / 2)) (2 ^ 64 - 1)) ∧
  (∀ (s : State) (pos input : Nat), input ∉ (s.tile pos).parity → ∃ t,
    exec (.flitParityError pos input) s = .next t ∧
    t.tile pos = { s.tile pos with parity := (s.tile pos).parity ++ [input] } ∧
    t.obj (tileIx pos) 0x52 = min (s.obj (tileIx pos) 0x52 + 1) (2 ^ 32 - 1)) ∧
  (∀ (s : State) (pos waits : Nat) (p : Packet), s.carries pos = true → p.head = [] → p.list ≠ [] → (∀ e,
    e ∈ p.list → nextDir pos e.1 e.2 = none) → ∃ t, exec (.forkSplit pos waits p) s = .next t ∧
    t.sent = .hop pos pos ⟨0, 0x3F, 0x1F⟩ p :: s.sent ∧
    t.obj (tileIx pos) 0x56 = min (s.obj (tileIx pos) 0x56 + waits) (2 ^ 64 - 1)) ∧
  (∀ (s : State) (n : Nat), s.usable n = false → s.jobs = [] → ∃ t,
    exec (.positionNonForwarding n) s = .next t ∧ t.forwards n = false ∧ (∀ m, m ∈ neighbours n →
    s.tileState m ≠ tsHole → t.obj (tileIx m) 0x50 = t.detourOf m)) ∧
  (∀ (s : State) (n : Nat), s.forwards n = false → (s.tile n).gau.held = [] → (s.tile n).merges = [] →
    (s.tile n).inputs = [] → ∃ t, exec (.nonForwardingDrainEnd n) s = .next t ∧
    t.tile n = { s.tile n with drains := false } ∧ ∀ m, m ≠ n → t.tile m = s.tile m) ∧
  (∀ (s : State) (n : Nat) (p : Packet), s.enters n p → s.remoteCheck n p (some hrRemoteRead) = stOk →
    (s.tile n).merges = [] → ∃ t, exec (.readPacket n p []) s = .next t ∧ (∃ m, (t.tile n).merges = [m] ∧
    m.reqs = [{ p with ptype := .read }] ∧ m.addr = p.farAddr.toNat ∧ m.rows = p.rows ∧ m.opened = s.elapsed)) ∧
  (∀ (s : State) (n : Nat) (p : Packet) (ds : List Row), s.enters n p →
    s.remoteCheck n p (some hrRemoteWrite) = stOk → p.xferId = 0 → p.sigEn = false →
    p.data.map decodeWord = ds.map Decoded.clean → s.twinOf n = none → ∃ t a,
    exec (.writePacket n p []) s = .next t ∧ t.sent = .packet n true a :: s.sent ∧ a.ptype = .ack ∧ (∀ x rest,
    ds = rest ++ [x] →
    Tbl.get (t.tile n).spad 0 (spadKey (s.handle n (farHandle p.farAddr.toNat)) (farRow p.farAddr.toNat + rest.length)) = encodeRow x)) ∧
  (∀ (s : State) (n q : Nat) (p : Packet), s.enters n p → s.remoteCheck n p none = stOk →
    s.ownerOf n = some q → p.job = s.jobId q → (s.tile n).gau.st = .live → s.twinOf n = none → ∃ t a,
    exec (.signalPacket n p) s = .next t ∧ t.sent = .packet n true a :: s.sent ∧ (∀ g,
    (t.gauge n g).value = if g = p.sigGauge then ((s.gauge n g).value + p.sigAdd) % 2 ^ 32 else (s.gauge n g).value)) ∧
  (∀ (s : State) (n k : Nat) (p : Packet) (ds : List Row), (s.tile n).gau.held = [p] → p.ptype = .write →
    s.remoteCheck n p (some hrRemoteWrite) = stOk → p.xferId ≠ 0 → fromBlock p = false → p.sigEn = false →
    pendOf (s.tile n).gau.pend p = none → pendFree (s.tile n).gau.pend = some k →
    Tbl.get (s.tile n).gau.pend {} k = {} → p.data.map decodeWord = ds.map Decoded.clean → s.twinOf n = none →
    ∃ t a, exec (.pendingHoldRelease n) s = .next t ∧ t.sent = .packet n true a :: s.sent ∧ a.ptype = .ack ∧
    a.tag = p.tag ∧ (t.tile n).gau.held = [] ∧
    (Tbl.get (t.tile n).gau.pend {} k).landed = min (32 * p.rows) (2 ^ 20 - 1)) ∧
  (∀ (s : State) (h a pos : Nat) (p : Packet),
    s.memPlace p.partition (farForm p.farAddr.toNat) (farOffset p.farAddr.toNat) = (.stack h, a) →
    soundPacket p → pos = s.serverPos p → (s.server (.stack h)).dead = false →
    (s.server (.stack h)).merges = [] → (s.server (.stack h)).hold = [] → ∃ t e, exec (.memRead p) s = .next t ∧
    t.sent = .memRead (.stack h) (s.server (.stack h)).nextId :: s.sent ∧ (t.server (.stack h)).merges = [e] ∧
    e.reqs = [p]) ∧
  (∀ (s : State) (h a pos : Nat) (p : Packet) (ds : List Row),
    s.memPlace p.partition (farForm p.farAddr.toNat) (farOffset p.farAddr.toNat) = (.stack h, a) →
    soundPacket p → pos = s.serverPos p → (s.server (.stack h)).dead = false →
    (s.server (.stack h)).wbuf.length + p.rows ≤ 8192 → (s.server (.stack h)).waiting = [] →
    (s.server (.stack h)).merges = [] → (s.server (.stack h)).hold = [] →
    p.data.map decodeWord = ds.map Decoded.clean → ∃ t x, exec (.memWrite p) s = .next t ∧
    t.sent = .packet pos true x :: s.sent ∧ x.ptype = .ack ∧
    (t.server (.stack h)).wbuf = (s.server (.stack h)).wbuf ++ (s.requestRowsAt p.partition p.farAddr.toNat p.rows p.stride).zip ds) ∧
  (∀ (s : State) (h : Nat) (g : MemMerge) (p : Packet) (ds : List Row), (s.server (.stack h)).merges = [g] →
    g.reqs = [p] → g.data = none → g.hint = false → (s.server (.stack h)).wbuf = [] → ds.length = g.rows → (∀ i,
    i < g.rows →
    decodeWord (Tbl.get s.hbm 0 ((s.requestRowsAt g.partition g.addr g.rows g.stride).getD i 0)) = .clean (ds.getD i 0)) →
    (∀ i, i < g.rows → isTableRow ((s.requestRowsAt g.partition g.addr g.rows g.stride).getD i 0) = false) →
    ∃ t x, exec (.memoryReadComplete (.stack h) g.id) s = .next t ∧
    t.sent = .packet (s.serverPos p) true x :: s.sent ∧ x.ptype = .data ∧ x.data = ds.map encodeRow ∧
    x.tag = p.tag ∧ (x.dstX, x.dstY) = (p.srcX, p.srcY) ∧ (t.server (.stack h)).merges = []) ∧
  (∀ (s : State) (h : Nat), (s.server (.stack h)).waiting = [] → (s.server (.stack h)).dtl = [] → ∃ t,
    exec (.writeBufferFlush (.stack h)) s = .next t ∧ (t.server (.stack h)).wbuf = [] ∧ (∀ a, (∀ w,
    w ∈ (s.server (.stack h)).wbuf → w.1 ≠ a) → Tbl.get t.hbm 0 a = Tbl.get s.hbm 0 a)) ∧
  (∀ (s : State) (h t0 : Nat) (d : Row), (s.server (.stack h)).passFrom = some t0 →
    s.patrolDue (.stack h) = true →
    hbmStack (32 * (h / 2 * (regionBytes / 32) + (s.server (.stack h)).patrol)) = h →
    (s.server (.stack h)).dead = false → (s.server (.stack h)).wbuf = [] →
    decodeWord (Tbl.get s.hbm 0 (h / 2 * (regionBytes / 32) + (s.server (.stack h)).patrol)) = .clean d → ∃ t,
    exec (.patrolRead (.stack h)) s = .next t ∧
    (t.server (.stack h)) = { s.server (.stack h) with patrol := if regionBytes / 32 ≤ (s.server (.stack h)).patrol + 1 then 0 else (s.server (.stack h)).patrol + 1, passFrom := if regionBytes / 32 ≤ (s.server (.stack h)).patrol + 1 then none else some t0 }) ∧
  (∀ (s : State) (h count : Nat), ∃ t, exec (.stackEccPoll h count) s = .next t ∧
    t.obj (0x3010 + h) 4 = min (s.obj (0x3010 + h) 4 + count) (2 ^ 64 - 1)) ∧
  (∀ (s : State) (h : Nat), ∃ t, exec (.holdBufferExpiry h) s = .next t ∧
    (t.server (.stack h)).hold = (s.server (.stack h)).hold.filter (fun x => decide (s.elapsed < x.since + 4 * (1000 * s.obj 0x5200 4)))) ∧
  (∀ (s : State) (n : Nat) (p : Packet) (x : MoveDesc) (k : Track) (ds : List Row),
    (s.tile n).mov.descs = [x] → (s.tile n).mov.tracks = [k] → k.desc = x.id → x.discard = false → p.head = [] →
    p.reserved = 0 → (s.tile n).mov.waits = none → dRows x.word ≤ x.asked →
    (k.ptype = .read ∨ k.ptype = .memRead) → p.data.map decodeWord = ds.map Decoded.clean → p.tag = k.tag → ∃ t,
    exec (.dataPacket n p []) s = .next t ∧ (t.tile n).mov = { (s.tile n).mov with tracks := [] } ∧
    t.obj (tileIx n) 0x27 = 0) ∧
  (∀ (s : State) (n : Nat) (p : Packet) (x : MoveDesc) (k : Track) (ds : List Row),
    (s.tile n).mov.descs = [x] → (s.tile n).mov.tracks = [k] → k.desc = x.id → x.discard = false → p.head = [] →
    p.reserved = 0 → (s.tile n).mov.waits = none → dRows x.word ≤ x.asked →
    (k.ptype = .read ∨ k.ptype = .memRead) → p.data.map decodeWord = ds.map Decoded.clean →
    p.farAddr.toNat = k.addr → p.rows = k.rows → p.stride = k.stride → ∃ t,
    exec (.forkPacket n p []) s = .next t ∧ (t.tile n).mov = { (s.tile n).mov with tracks := [] } ∧
    t.obj (tileIx n) 0x27 = 0) ∧
  (∀ (s : State) (n : Nat) (p : Packet) (x : MoveDesc) (k : Track), (s.tile n).mov.descs = [x] →
    (s.tile n).mov.tracks = [k] → k.desc = x.id → dRows x.word ≤ x.asked → p.tag = k.tag →
    p.farAddr.toNat = k.addr → p.srcLogical ≠ 0xFFFF → p.head = [] → p.reserved = 0 →
    (s.tile n).mov.waits = none → (k.ptype = .write ∨ k.ptype = .memWrite) → ∃ t,
    exec (.ackPacket n p) s = .next t ∧
    t.tile n = { s.tile n with mov := { (s.tile n).mov with tracks := [] } } ∧ t.obj (tileIx n) 0x27 = 0) ∧
  (∀ (s : State) (n : Nat) (p : Packet) (x : MoveDesc) (k : Track), (s.tile n).mov.descs = [x] →
    (s.tile n).mov.tracks = [k] → k.desc = x.id → dRows x.word ≤ x.asked → p.tag = k.tag →
    p.farAddr.toNat = k.addr → p.srcLogical ≠ 0xFFFF → p.head = [] → p.reserved = 0 →
    (s.tile n).mov.waits = none → p.status ≠ 0 → p.status ≠ stUncorrectable → x.status = 0 →
    s.carriesSignal n k = false → ∃ t, exec (.statusPacket n p) s = .next t ∧
    (t.tile n).mov = { (s.tile n).mov with tracks := [], descs := [{ x with status := if p.status < 14 then p.status else stBadValue }] } ∧
    (t.tile n).spad = (s.tile n).spad)

/-- Each of these partition, job and step commands completes: for every state and every operands that meet the conditions its clause names on them alone, exec answers a next state, and that state holds the result the clause writes out (the registers, answers, queues, messages or memory the command sets). CLOSURE_DRAIN_EXPIRY, DRAIN_COMPLETE, LOCAL_DRAIN_TIMEOUT, REMAP_COMPLETE, GAUGE_SET, PARTITION_APPLY, GRANULE_FILL_COMPLETE, JOB_LOAD, JOB_END_AT_BOUNDARY, JOB_END_AT_ONCE, JOB_PREEMPT, JOB_RESUME, JOB_SCRUB_COMPLETE, PROGRAM_FAULT_END, ENTRY_POLL, PIN_WAIT_RELEASE, STEP_START_RELEASE, WATCH_NOTICE, CADENCE_TICK, OUTSIDE_DECLARE, READY, START, BARRIER_START_TIME. (R97, R125, R214, R223, R224, R231, R232, R233, R234, R240, R241, R298) -/
def Obligations.JobAndStepCommandsComplete : Prop :=
  (∀ (s : State) (n h : Nat) (p : Packet), n < 1224 → s.faults.closing = [(.tile n, h)] → h ≤ s.elapsed →
    (s.tile n).merges = [] → (s.tile n).gau.held = [p] → (s.tileState n ≠ 5 ∨ (s.tile n).owner ≠ none) → ∃ t x,
    exec (.closureDrainExpiry (.tile n)) s = .next t ∧ t.faults.closing = [] ∧
    t.sent = .packet n true x :: s.sent ∧ x.status = stFenced ∧ x.tag = p.tag ∧ (t.tile n).gau.held = []) ∧
  (∀ (s : State) (q : Nat) (j : Job), q < 12 → s.job q = some j → s.jobState q = 4 → j.selfDone = false →
    s.drainedHere q = true → j.barrier = false → j.remaps = [] → j.twin = none → (∀ n, n ∈ j.map → n < 1224) →
    ∃ t k, exec (.drainComplete q) s = .next t ∧ t.job q = some k ∧ k.starting = true) ∧
  (∀ (s : State) (q : Nat) (j : Job), s.job q = some j → s.jobState q = 4 → s.drainPast q = true →
    j.selfDone = false → s.device.mode = .service → ∃ t, exec (.localDrainTimeout q) s = .next t ∧
    t.device.mode = .recovery ∧ t.obj 0x6020 4 = 2) ∧
  (∀ (s : State) (q : Nat) (j : Job) (r : Remap) (rest : List Remap), q < 12 → s.job q = some j →
    j.remaps = r :: rest → s.jobState q = 4 → j.selfDone = false → r.target < 1224 → r.closed < 1224 →
    r.closed ≠ r.target → (s.tile r.closed).cause ≠ 0 → s.plane (clusterOf r.target) = 2 → ∃ t,
    exec (.remapComplete q true) s = .next t ∧
    ((s.prepareTile q r.target r.logical (s.step' q)).scrubFailed r.target = false → ∃ k, t.job q = some k ∧
    k.remaps = rest ∧ k.map = j.map.set r.logical r.target ∧ t.tileState r.target = 4 ∧
    t.tileState r.closed = 6 ∧ t.obj (0x5040 + q) 2 = min (s.obj (0x5040 + q) 2 + 1) (2 ^ 32 - 1) ∧
    t.jobState q = 4)) ∧
  (∀ (s : State) (sess n : Nat) (v : BitVec 64) (q : Nat), s.writeGuard sess (tileIx n) 0x62 = none →
    (s.tile n).owner = some q → (s.tile n).gau.st = .live → fieldOf v.toNat 39 25 = 0 → ∃ t,
    exec (.gaugeSet sess n v) s = .next t ∧ t.obj (tileIx n) 0x62 = stOk ∧
    t.gauge n (fieldOf v.toNat 32 7) = { s.gauge n (fieldOf v.toNat 32 7) with value := v.toNat % 2 ^ 32, handSet := true, tide := s.tide }) ∧
  (∀ (s : State) (sess q : Nat) (c : PartCfg), q < 12 → s.writeGuard sess (0x5000 + q) 8 = none →
    c = s.newCfg q → s.jobState q = 0 → s.fillOf q = none → c.clusters ≠ 0 → s.cfgBad q c = false → (∀ g,
    Tbl.get s.hbmTags 0 g = 0 ∨ Tbl.get s.hbmTags 0 g = c.tenant + 1) → (∀ g,
    Tbl.get s.ddrTags 0 g = 0 ∨ Tbl.get s.ddrTags 0 g = c.tenant + 1) → ∃ t,
    exec (.partitionApply sess q) s = .next t ∧ t.obj (0x5000 + q) 8 = stOk ∧ t.obj (0x5000 + q) 0 = 1) ∧
  (∀ (s : State) (q : Nat) (f : PartFill), q < 12 → s.fillOf q = some f → ∃ t,
    exec (.granuleFillComplete q) s = .next t ∧ t.cfg q = f.cfg ∧ t.fillOf q = none) ∧
  (∀ (s s3 : State) (sess q raw : Nat) (x : JobTable), q < 12 → s.writeGuard sess (0x5010 + q) 1 = none →
    s.device.mode ≠ .test → s.device.mode ≠ .startup → (s.jobState q = 0 ∨ s.jobState q = 5) →
    s.floor.chosen = [] → s.configured q = true → s.windowLost q = false → s.readWin q (s.cfg q).jobTable 4 = (s,
    some raw) → fieldOf raw 0 8 = 1 → s.headerFieldsOk q ((s.offeredIn q).length) raw = true →
    s.readTables q raw = (s, some x) → s.tableFault q x (x.placed.map (fun e => (placedOf e).physical)) = none →
    s.imagesFault q (x.polders.map (fun e => fieldOf e 64 64)) = (s3, none) →
    s3.routesOk q (x.placed.map (fun e => (placedOf e).physical)) = true → ∃ t k,
    exec (.jobLoad sess q) s = .next t ∧ t.obj (0x5010 + q) 1 = stOk ∧ t.job q = some k ∧ k.hdr = x.hdr ∧
    k.map = (x.placed.map (fun e => (placedOf e).physical))) ∧
  (∀ (s : State) (sess q : Nat), q < 12 → s.writeGuard sess (0x5010 + q) 2 = none →
    s.jobState q ∉ [0, 5, 6, 7] → ∃ t, exec (.jobEndAtBoundary sess q) s = .next t ∧
    t.obj (0x5010 + q) 2 = stRestartPending ∧ Tbl.get t.latches none q = some .finish) ∧
  (∀ (s : State) (sess q : Nat), q < 12 → s.writeGuard sess (0x5010 + q) 2 = none → s.jobState q ∉ [0, 6] →
    ∃ t, exec (.jobEndAtOnce sess q) s = .next t ∧ t.obj (0x5010 + q) 2 = stOk ∧ t.jobState q = 6) ∧
  (∀ (s : State) (sess q : Nat), q < 12 → s.writeGuard sess (0x5010 + q) 3 = none →
    s.jobState q ∉ [0, 5, 6, 7] → ∃ t, exec (.jobPreempt sess q) s = .next t ∧
    t.obj (0x5010 + q) 3 = stRestartPending ∧ Tbl.get t.latches none q = some .preempt) ∧
  (∀ (s s3 : State) (sess q raw step : Nat) (x : JobTable) (map : List Nat), q < 12 →
    s.writeGuard sess (0x5010 + q) 4 = none → s.device.mode ≠ .test → s.device.mode ≠ .startup →
    (s.jobState q = 0 ∨ s.jobState q = 5) → s.floor.chosen = [] → s.configured q = true →
    s.windowLost q = false → s.readWin q (s.cfg q).jobTable 4 = (s, some raw) → fieldOf raw 0 8 = 1 →
    s.headerFieldsOk q 1224 raw = true → s.readTables q raw = (s, some x) → s.savePlan q x = (s, .inr (map,
    step)) → s.tableFault q x map = none → s.imagesFault q (x.polders.map (fun e => fieldOf e 64 64)) = (s3,
    none) → s3.routesOk q map = true → ∃ t k, exec (.jobResume sess q) s = .next t ∧
    t.obj (0x5010 + q) 4 = stOk ∧ t.job q = some k ∧ k.hdr = x.hdr ∧ k.map = map) ∧
  (∀ (s : State) (q : Nat) (j : Job), q < 12 → s.job q = some j → s.jobState q = 6 →
    Tbl.get s.latches none q = none → ∃ t, exec (.jobScrubComplete q []) s = .next t ∧ t.jobState q = 0 ∧
    t.job q = none) ∧
  (∀ (s : State) (q : Nat) (j : Job) (n k : Nat), q < 12 → s.job q = some j → n ∈ j.map → k < 4 →
    s.qState n k = 4 → s.jobState q ≠ 6 → ∃ t, exec (.programFaultEnd q) s = .next t ∧ t.jobState q = 6 ∧
    t.hbm = s.hbm) ∧
  (∀ (s : State) (q : Nat) (j : Job) (e : Entry), q < 12 → s.job q = some j → s.jobState q = 2 →
    s.pollDue q = true → j.cadence = false → j.weirHold = false → j.scourHold = false →
    s.readEntry q (s.step' q) = (s, some (some e)) → ∃ t k, exec (.entryPoll q) s = .next t ∧ t.jobState q = 3 ∧
    t.job q = some k ∧ k.entry = some e) ∧
  (∀ (s : State) (q : Nat) (rest : List Nat) (j : Job) (e : Entry), s.pinQueue = q :: rest →
    s.job q = some j → j.entry = some e → s.pinsHeld + e.lanes ≤ 8192 → ∃ t k,
    exec (.pinWaitRelease q) s = .next t ∧ t.pinQueue = rest ∧ t.job q = some k) ∧
  (∀ (s : State) (q : Nat) (j : Job), q < 12 → s.job q = some j → s.startReady q = true → j.barrier = false →
    j.twin = none → j.twinNext = none → j.retwin = none → j.twinEvery = 0 → j.watches ≠ [] → (∀ w,
    w ∈ j.watches → s.watchMet q j w = false) → j.map.Nodup → (∀ n, n ∈ j.map → (s.tile n).gau.st = .live ∧
    Tbl.wf (s.tile n).gau.gauges (fun _ => {}) = true) → ∃ t k, exec (.stepStartRelease q) s = .next t ∧
    t.jobState q = 3 ∧ t.job q = some k) ∧
  (∀ (s : State) (q : Nat) (j : Job) (w : Nat) (x y : Watch), q < 12 → s.job q = some j →
    j.watches[w]? = some x → s.jobState q = 3 → j.starting = false → x.reached = false →
    s.watchMet q j x = true → y ∈ j.watches.eraseIdx w → y.reached = false → ∃ t,
    exec (.watchNotice q w) s = .next t ∧
    t.job q = some { j with watches := j.watches.set w { x with reached := true } }) ∧
  (∀ (s : State) (q : Nat) (j : Job) (c : Nat), q < 12 → s.job q = some j → j.cadence = true →
    s.jobState q = 3 → j.tickNow s.tide c = true → ∃ t, exec (.cadenceTick q c) s = .next t ∧ t.jobState q = 3 ∧
    t.step' q = s.step' q) ∧
  (∀ (s : State) (sess q : Nat), q < 12 → s.writeGuard sess (0x5040 + q) 4 = none → s.job q ≠ none → ∃ t,
    exec (.outsideDeclare sess q) s = .next t ∧ t.obj (0x5040 + q) 4 = stOk ∧
    bitOf (t.obj (0x5040 + q) 0) 3 = true) ∧
  (∀ (s : State) (m : CtrlMsg) (q : Nat) (j : Job), s.partitionOfJob (fieldOf m.body.toNat 208 16) = some q →
    s.job q = some j → j.ready = false → ctrlOk 0x14 m = true → ∃ t k, exec (.ready m) s = .next t ∧
    t.job q = some k ∧ k = { j with readys := k.readys }) ∧
  (∀ (s : State) (m : CtrlMsg) (q : Nat) (j : Job), s.partitionOfJob (fieldOf m.body.toNat 208 16) = some q →
    s.job q = some j → j.barrier = true → j.ready = true → j.starting = true → ctrlOk 0x15 m = true →
    j.startAt = none → s.startReady q = true → fieldOf m.body.toNat 144 64 = s.step' q →
    s.tide + 4000 ≤ fieldOf m.body.toNat 80 64 → j.twin = none → ∃ t k, exec (.start m) s = .next t ∧
    t.job q = some k ∧ k.startAt = some (fieldOf m.body.toNat 80 64)) ∧
  (∀ (s : State) (q : Nat) (j : Job) (v : Nat), q < 12 → s.job q = some j → j.startAt = some v → v ≤ s.tide →
    s.jobState q = 3 → j.twin = none → j.twinNext = none → j.retwin = none → j.twinEvery = 0 → (∃ w,
    w ∈ j.watches ∧ w.reached = false) → j.map.Nodup → (∀ n, n ∈ j.map → (s.tile n).gau.st = .live) → ∃ t k,
    exec (.barrierStartTime q) s = .next t ∧ t.jobState q = 3 ∧ t.job q = some k)

/-- Each of these dispatcher, expert, context and pool commands completes: for every state and every operands that meet the conditions its clause names on them alone, exec answers a next state, and that state holds the result the clause writes out (the registers, answers, queues, messages or memory the command sets). EXPERT_APPLY, TOKEN_REQUEST, RELEASE_REQUEST, HINT_REQUEST, STAGING_HOLD_RELEASE, RESERVE, GRANT, RESERVATION_CANCEL, DSTATUS, NO_CREDIT_RETRY, MULTICAST_TIMEOUT, COPY_ARRIVE, COPY_RECEIPT_CONFIRM, OPEN, CLOSE, SET_POSITION, SET_PRIORITY, PIN, UNPIN, PROMOTE, DEMOTE, CONTEXT_READ, POOL_APPLY, PAGE_MOVE_COMPLETE, PAGE_RELEASE_COMPLETE. (R247, R249, R250, R251, R252, R253, R254, R255, R256, R258, R259, R269) -/
def Obligations.ExpertAndContextCommandsComplete : Prop :=
  (∀ (s : State) (sess : Nat), s.writeGuard sess 0x5200 2 = none → (∀ q, q < 12 →
    s.jobState q = 0 ∨ s.jobState q = 5) → (∀ e, e < 4096 → xValid (s.obj 0x5200 1 e) = true →
    expertOk (s.obj 0x5200 1 e) = true) →
    (((s.objs 0x5200 1 4096).filter xValid).filter (fun e => s.isOwn (xDevice e))).length ≤ 512 → ∃ t,
    exec (.expertApply sess) s = .next t ∧ t.obj 0x5200 2 = stOk ∧ (∀ e, e < 4096 →
    t.expert e = s.obj 0x5200 1 e)) ∧
  (∀ (s : State) (q pos rows : Nat) (p : Packet) (e : Nat) (ds : List Row), pos = (s.sequencerPos q).getD 0 →
    (s.disp q).parts = [] → soundPacket p → (s.disp q).tokens = [] → s.tokenCheck rows p = stOk →
    (s.disp q).held = [] → p.data.length ≤ 16384 → p.data.length = rows →
    p.data.map decodeWord = ds.map Decoded.clean → reqTargets ((reqRows p).headD 0).toNat = [e] → ∃ t k,
    exec (.tokenRequest q ⟨rows, p⟩) s = .next t ∧ (t.disp q).tokens = [k] ∧ k.rows = reqRows p) ∧
  (∀ (s : State) (q : Nat) (r : Taken) (p : Packet) (v : Row), (s.disp q).taken = [r] →
    (s.disp q).queue = [] → soundPacket p → (s.disp q).held = [] → commonOk p = true →
    p.data.map decodeWord = [Decoded.clean v] → s.releaseOk q v.toNat = true → ∃ t a,
    exec (.releaseRequest q p) s = .next t ∧ (t.disp q).taken = [] ∧
    t.sent = .packet ((s.sequencerPos q).getD 0) true a :: s.sent ∧ a.ptype = .ack) ∧
  (∀ (s : State) (q rows : Nat) (p : Packet) (h : Row) (e x a k : Nat) (srv : Server), soundPacket p →
    (s.disp q).held = [] → s.isOwn p.srcDevice = true → p.data.map decodeWord = [Decoded.clean h] → rows = 1 →
    commonOk p = true → reqKind h.toNat = 3 → s.headerOk h.toNat = true → (s.disp q).tokens = [] →
    (s.disp q).parts = [] → reqTargets h.toNat = [e] → s.isOwn (xDevice (s.expert e)) = true →
    s.expertPartition e = some x → hintReads (s.expert e) = [(a, k)] → srv = (s.memPlace x 1 (farOffset a)).1 →
    (s.server srv).dead = false → s.holdFull x e = false → ∃ t y, exec (.hintRequest q ⟨rows, p⟩) s = .next t ∧
    t.sent = .memRead srv (s.server srv).nextId :: .packet ((s.sequencerPos q).getD 0) true y :: s.sent ∧
    y.ptype = .ack) ∧
  (∀ (s : State) (q pos rows : Nat) (p : Packet) (e : Nat) (ds : List Row), pos = (s.sequencerPos q).getD 0 →
    (s.disp q).parts = [] → soundPacket p → (s.disp q).tokens = [] → s.tokenCheck rows p = stOk →
    (s.disp q).held = [⟨1, rows, p⟩] → p.data.length ≤ 16384 → p.data.length = rows →
    p.data.map decodeWord = ds.map Decoded.clean → reqTargets ((reqRows p).headD 0).toNat = [e] → ∃ t k,
    exec (.stagingHoldRelease q) s = .next t ∧ (t.disp q).tokens = [k] ∧ k.rows = reqRows p) ∧
  (∀ (s : State) (m : CtrlMsg) (q n : Nat), xValid (s.expert (mExpert m)) = true →
    s.isOwn (xDevice (s.expert (mExpert m))) = true → s.expertPartition (mExpert m) = some q →
    s.jobId q = mJob m → s.physicalOf q (xIntake (s.expert (mExpert m))) = some n → s.tileState n ≠ 5 →
    (s.disp q).taken = [] → (s.disp q).tokens = [] → (s.disp q).parts = [] → (∀ r, r ∈ (s.disp q).queue →
    r.expert ≠ mExpert m) → ctrlOk 0x10 m = true → 0 < xSlots (s.expert (mExpert m)) → ∃ t r,
    exec (.reserve m) s = .next t ∧ (t.disp q).taken = [r] ∧ r.expert = mExpert m) ∧
  (∀ (s : State) (q : Nat) (k : Token) (x : Target) (m : CtrlMsg), (s.disp q).tokens = [k] →
    k.targets = [x] → k.unicast = false → x.st = .asked → ctrlOk 0x11 m = true → mPart m = q → mRes m = x.resId →
    s.isOwn (xDevice (s.expert x.expert)) = true → ∃ t k' y, exec (.grant m) s = .next t ∧
    (t.disp q).tokens = [k'] ∧ k'.targets = [y] ∧ y.st = .launched) ∧
  (∀ (s : State) (q : Nat) (r : Taken) (m : CtrlMsg), (s.disp q).taken = [r] → (s.disp q).queue = [] →
    q < 12 → ctrlOk 0x12 m = true → (∀ j, j < q → (s.disp j).taken = [] ∧ (s.disp j).queue = []) →
    mRes m = r.resId → m.src = r.device → mPart m = r.part → mExpert m = r.expert → ∃ t,
    exec (.reservationCancel m) s = .next t ∧ (t.disp q).taken = []) ∧
  (∀ (s : State) (q : Nat) (k : Token) (x : Target) (m : CtrlMsg), (s.disp q).tokens = [k] →
    k.targets = [x] → k.unicast = false → x.st = .asked → ctrlOk 0x13 m = true → mPart m = q → mRes m = x.resId →
    mStatus m = stNoCredit → ∃ t, exec (.dstatus m) s = .next t ∧
    (t.disp q).tokens = [{ k with targets := [{ x with st := .retry, retry := s.elapsed + 720 }] }]) ∧
  (∀ (s : State) (q : Nat) (k : Token) (x : Target), (s.disp q).tokens = [k] → k.targets = [x] →
    k.unicast = false → x.st = .retry → x.retry ≤ s.elapsed → ∃ t m, exec (.noCreditRetry q x.resId) s = .next t ∧
    (t.disp q).tokens = [{ k with targets := [{ x with st := .asked }] }] ∧ t.sent = .control m :: s.sent) ∧
  (∀ (s : State) (q : Nat) (k : Token) (x : Target), (s.disp q).tokens = [k] → k.targets = [x] →
    k.unicast = false → x.st = .asked → k.began + s.castLimit q ≤ s.elapsed → ∃ t k',
    exec (.multicastTimeout q k.id) s = .next t ∧ (t.disp q).tokens = [k'] ∧ k'.unicast = true) ∧
  (∀ (s : State) (q n : Nat) (r : Taken) (h : Row) (rest : List Row), (s.disp q).taken = [r] →
    (s.disp q).queue = [] → r.landed = false → s.physicalOf q (xIntake (s.expert r.expert)) = some n →
    (h :: rest).length ≤ 8 → ∃ t p, exec (.copyArrive q ⟨r.device, r.part, r.resId⟩ (h :: rest)) s = .next t ∧
    t.sent = .confirm r.device r.part r.resId :: .packet ((s.sequencerPos q).getD 0) false p :: s.sent ∧
    p.ptype = .write ∧ p.rows = (h :: rest).length ∧ (p.dstX, p.dstY) = (xOf n, yOf n) ∧
    p.data.drop 1 = rest.map encodeRow ∧ (t.disp q).taken = [{ r with landed := true }] ∧
    t.obj (0x5210 + q) 1 = min (s.obj (0x5210 + q) 1 + 1) (2 ^ 64 - 1)) ∧
  (∀ (s : State) (q : Nat) (k : Token) (x : Target), (s.disp q).tokens = [k] → k.targets = [x] →
    k.unicast = false → x.st = .launched → (s.disp q).queue = [] → ∃ t,
    exec (.copyReceiptConfirm q x.resId) s = .next t ∧ (t.disp q).tokens = []) ∧
  (∀ (s : State) (sess slot q : Nat) (v : BitVec 256), s.writeGuard sess 0x3400 2 = none →
    ctxFieldsOk v.toNat 1 = true → slot = ctxSlot v.toNat → q = fieldOf v.toNat 132 4 → q ≤ 11 →
    (s.pool q).applied = true → (s.ctx slot).st = .free → (s.pool q).hbm.front = [] → (s.pool q).hbm.back = [] →
    (s.pool q).hbm.next + 2 ≤ (s.pool q).hbm.size → s.spans = [] → ∃ t, exec (.ctxOpen sess v) s = .next t ∧
    t.obj 0x3400 2 = stOk ∧ (t.ctx slot).st = .idle) ∧
  (∀ (s : State) (sess slot : Nat) (v : BitVec 256) (c : Ctx), s.writeGuard sess 0x3400 2 = none →
    slot = ctxSlot v.toNat → c = s.ctx slot → ctxFieldsOk v.toNat 2 = true → c.st = .idle → ∃ t,
    exec (.ctxClose sess v) s = .next t ∧ t.obj 0x3400 2 = stOk ∧ t.ctx slot = { c with st := .releasing }) ∧
  (∀ (s : State) (sess slot : Nat) (v : BitVec 256) (c : Ctx), s.writeGuard sess 0x3400 2 = none →
    slot = ctxSlot v.toNat → c = s.ctx slot → (c.st = .idle ∨ c.st = .active) → ctxFieldsOk v.toNat 3 = true →
    c.position ≤ fieldOf v.toNat 192 32 → fieldOf v.toNat 192 32 ≤ 16384 → ∃ t,
    exec (.ctxSetPosition sess v) s = .next t ∧ t.obj 0x3400 2 = stOk ∧
    t.ctx slot = { c with position := fieldOf v.toNat 192 32 }) ∧
  (∀ (s : State) (sess slot : Nat) (v : BitVec 256) (c : Ctx), s.writeGuard sess 0x3400 2 = none →
    slot = ctxSlot v.toNat → c = s.ctx slot → (c.st = .idle ∨ c.st = .active) → ctxFieldsOk v.toNat 4 = true →
    ∃ t, exec (.ctxSetPriority sess v) s = .next t ∧ t.obj 0x3400 2 = stOk ∧
    t.ctx slot = { c with priority := fieldOf v.toNat 192 8 }) ∧
  (∀ (s : State) (sess slot : Nat) (v : BitVec 256) (c : Ctx), s.writeGuard sess 0x3400 2 = none →
    slot = ctxSlot v.toNat → c = s.ctx slot → (c.st = .idle ∨ c.st = .active) → ctxFieldsOk v.toNat 5 = true →
    ∃ t, exec (.ctxPin sess v) s = .next t ∧ t.obj 0x3400 2 = stOk ∧
    t.ctx slot = { c with pinned := true, damaged := (t.ctx slot).damaged }) ∧
  (∀ (s : State) (sess slot : Nat) (v : BitVec 256) (c : Ctx), s.writeGuard sess 0x3400 2 = none →
    slot = ctxSlot v.toNat → c = s.ctx slot → (c.st = .idle ∨ c.st = .active) → ctxFieldsOk v.toNat 6 = true →
    ∃ t, exec (.ctxUnpin sess v) s = .next t ∧ t.obj 0x3400 2 = stOk ∧ t.ctx slot = { c with pinned := false }) ∧
  (∀ (s : State) (sess slot : Nat) (v : BitVec 256) (c : Ctx), s.writeGuard sess 0x3400 2 = none →
    slot = ctxSlot v.toNat → c = s.ctx slot → (c.st = .idle ∨ c.st = .active) → ctxFieldsOk v.toNat 7 = true →
    ∃ t, exec (.ctxPromote sess v) s = .next t ∧ t.obj 0x3400 2 = stOk ∧
    t.ctx slot = { c with damaged := (t.ctx slot).damaged }) ∧
  (∀ (s : State) (sess slot : Nat) (v : BitVec 256) (c : Ctx), s.writeGuard sess 0x3400 2 = none →
    slot = ctxSlot v.toNat → c = s.ctx slot → ctxFieldsOk v.toNat 8 = true → c.st = .idle →
    (s.pool c.partition).ddr.size ≠ 0 → c.pinned = false → ∃ t, exec (.ctxDemote sess v) s = .next t ∧
    t.obj 0x3400 2 = stOk ∧ t.ctx slot = { c with damaged := (t.ctx slot).damaged }) ∧
  (∀ (s : State) (sess slot : Nat) (v : BitVec 256) (c : Ctx), s.writeGuard sess 0x3400 2 = none →
    slot = ctxSlot v.toNat → c = s.ctx slot → ctxFieldsOk v.toNat 9 = true → c.st ≠ .free → ∃ t,
    exec (.ctxRead sess v) s = .next t ∧ t.obj 0x3400 2 = stOk ∧ t.obj 0x3400 3 = c.word) ∧
  (∀ (s : State) (sess q : Nat), q < 12 → s.writeGuard sess (0x3410 + q) 6 = none → s.jobState q = 0 → (∀ e,
    e ∈ s.ctxs → e.2.st = .free ∨ e.2.partition ≠ q) → s.windowLost q = false →
    s.obj (0x3410 + q) 0 % 65536 = 0 →
    s.obj (0x3410 + q) 0 + 65536 * s.obj (0x3410 + q) 1 ≤ s.obj (0x3410 + q) 4 →
    s.obj (0x3410 + q) 2 % 65536 = 0 → s.obj (0x3410 + q) 3 = 0 → s.obj (0x3410 + q) 4 % 32 = 0 →
    s.obj (0x3410 + q) 4 + 262144 ≤ (s.cfg q).hbmSize → s.obj (0x3410 + q) 5 % 32 = 0 →
    32 ≤ s.obj (0x3410 + q) 5 → s.obj (0x3410 + q) 5 ≤ 32768 → (s.cfg q).tenant = 0 → s.pagers = [] → ∃ t,
    exec (.poolApply sess q) s = .next t ∧ t.obj (0x3410 + q) 6 = stOk ∧ (t.pool q).applied = true) ∧
  (∀ (s : State) (q i : Nat) (m : PageMove), q < 12 → (s.pager q).flight = [m] → m.kind = .background →
    m.page = 0 → m.dst = some i → s.job q = none → (s.pager q).queue = [] → (∀ e, e ∈ s.ctxs →
    e.2.partition ≠ q) → ∃ t, exec (.pageMoveComplete q m.id) s = .next t ∧
    t.obj (0x3410 + q) 0xF = min (s.obj (0x3410 + q) 0xF + 1) (2 ^ 64 - 1) ∧ ∀ r, r < 2048 →
    Tbl.get t.hbm 0 (s.pageAddr q false i / 32 + r) = 0) ∧
  (∀ (s : State) (slot : Nat) (c : Ctx), c = s.ctx slot → c.st = .releasing →
    (s.pager c.partition).flight = [] → c.pages = 0 → c.mapEntry = 0 → c.commitEntry = 0 → c.opens = none → ∃ t,
    exec (.pageReleaseComplete slot) s = .next t ∧
    t.ctx slot = { c with st := .free, damaged := false, pinned := false } ∧ ∀ k, k ≠ slot →
    t.ctx k = { s.ctx k with damaged := (t.ctx k).damaged })

/-- Each of these die-to-die link commands completes: for every state and every operands that meet the conditions its clause names on them alone, exec answers a next state, and that state holds the result the clause writes out (the registers, answers, queues, messages or memory the command sets). UCIE_RETRAIN_TIMEOUT, DTL_MEM_READ, DTL_MEM_WRITE, MEM_DATA, MEM_ACK, HBM_READ, HBM_WRITE, HBM_DATA, HBM_ACK, OBJ_REQ, OBJ_RSP, EVENT_LEVEE, EVENT_BOUNDARY, EVENT_JOB_STATE, EVENT_PORT_STATE, DTL_MGMT, DTL_ETH, CREDIT, RECOVER_REQ, CLOSE_GO, QUIESCED, RESTART, REMAPPED. (R347, R350, R351, R356, R358, R359, R361, R362, R363, R364, R365, R497) -/
def Obligations.DieToDieCommandsComplete : Prop :=
  (∀ (s : State) (m j : Nat), m < 8 → s.obj (0x3210 + m) 0 = 1 → j < 8 → j ≠ m → s.obj (0x3210 + j) 0 ≠ 3 →
    (s.ucie m).out = [] → (s.ucie m).waiting = [] → ∃ t, exec (.ucieRetrainTimeout m) s = .next t ∧
    t.obj (0x3210 + m) 0 = 3 ∧ t.ucie m = {}) ∧
  (∀ (s : State) (m c : Nat) (d : DtlMsg) (ds : List (Row × Row)) (rows : List Nat), soundMsg d →
    s.ddrUsed ≠ [] → d.dtype = 1 → c = (s.ddrDecode d.addr).1 → (s.server (.channel c)).dead = false →
    (s.server (.channel c)).wbuf = [] → rows = dtlRows d (fieldOf d.arg 0 4) → ds.length = rows.length → (∀ i,
    i < rows.length → burstRead (rows.getD i 0 / 2) (s.burst (rows.getD i 0 / 2)) = some ((ds.getD i (0, 0)).1,
    (ds.getD i (0, 0)).2, 0, false)) → ∃ t x y, exec (.dtlMemRead m d) s = .next t ∧
    t.sent = .dtl m true y :: .dtl m true x :: s.sent ∧ y.dtype = 3 ∧ y.dtag = d.dtag ∧ y.status = 0 ∧
    y.cells = (List.range rows.length).map (fun i => encodeRow (if rows.getD i 0 % 2 = 0 then (ds.getD i (0,
    0)).1 else (ds.getD i (0, 0)).2))) ∧
  (∀ (s : State) (m c : Nat) (d : DtlMsg), soundMsg d → s.ddrUsed ≠ [] → d.dtype = 2 →
    c = (s.ddrDecode d.addr).1 → (s.server (.channel c)).dead = false → (s.server (.channel c)).merges = [] →
    (s.server (.channel c)).dtl = [] → (s.server (.channel c)).wbuf.length + d.cells.length ≤ 4096 →
    (s.server (.channel c)).hold = [] → d.cells.any isBadWord = false → ∃ t x y,
    exec (.dtlMemWrite m d) s = .next t ∧ t.sent = .dtl m true y :: .dtl m true x :: s.sent ∧ y.dtype = 4 ∧
    y.dtag = d.dtag ∧ y.status = 0 ∧
    (t.server (.channel c)).wbuf = (s.server (.channel c)).wbuf ++ (dtlRows d d.cells.length).zip (d.cells.map decodedRow)) ∧
  (∀ (s : State) (m : Nat) (d : DtlMsg) (r : DtlReq) (g : MemMerge) (p : Packet), soundMsg d → d.dtype = 3 →
    d.status = 0 → (s.ucie m).out = [r] → r.dtag = d.dtag → (s.ucie m).waiting = [] → r.merge = some g.id →
    (s.server (.channel r.chan)).merges = [g] → g.reqs = [p] → g.data = none → ∃ t a rest,
    exec (.memData m d) s = .next t ∧ t.sent = .packet (s.serverPos r.pkt) true a :: rest ∧ a.ptype = .data ∧
    a.data = d.cells ∧ a.tag = p.tag ∧ (a.dstX, a.dstY) = (p.srcX, p.srcY) ∧ (t.ucie m).out = []) ∧
  (∀ (s : State) (m : Nat) (d : DtlMsg) (r : DtlReq), soundMsg d → d.dtype = 4 → d.status = 0 →
    (s.ucie m).out = [r] → r.dtag = d.dtag → (s.ucie m).waiting = [] → r.merge = none → ∃ t a rest,
    exec (.memAck m d) s = .next t ∧ t.sent = .packet (s.serverPos r.pkt) true a :: rest ∧ a.ptype = .ack ∧
    a.tag = r.pkt.tag ∧ (t.ucie m).out = []) ∧
  (∀ (s : State) (m h : Nat) (d : DtlMsg) (ds : List Row) (rows : List Nat), soundMsg d → d.dtype = 5 →
    h = hbmStack d.addr → rows = dtlRows d (fieldOf d.arg 0 4) → (∀ r, r ∈ rows → 32 * r < 6 * regionBytes ∧
    isTableRow r = false) → (s.server (.stack h)).dead = false → (s.server (.stack h)).wbuf = [] →
    ds.length = rows.length → (∀ i, i < rows.length →
    decodeWord (Tbl.get s.hbm 0 (rows.getD i 0)) = .clean (ds.getD i 0)) → ∃ t x y,
    exec (.hbmRead m d) s = .next t ∧ t.sent = .dtl m false y :: .dtl m false x :: s.sent ∧ y.dtype = 7 ∧
    y.dtag = d.dtag ∧ y.status = 0 ∧ y.cells = ds.map encodeRow) ∧
  (∀ (s : State) (m h : Nat) (d : DtlMsg), soundMsg d → d.dtype = 6 → h = hbmStack d.addr → (∀ r,
    r ∈ dtlRows d d.cells.length → 32 * r < 6 * regionBytes) → (s.server (.stack h)).dead = false →
    (s.server (.stack h)).merges = [] → (s.server (.stack h)).dtl = [] →
    (s.server (.stack h)).wbuf.length + d.cells.length ≤ 8192 → (s.server (.stack h)).hold = [] →
    d.cells.any isBadWord = false → ∃ t x y, exec (.hbmWrite m d) s = .next t ∧
    t.sent = .dtl m false y :: .dtl m false x :: s.sent ∧ y.dtype = 8 ∧ y.dtag = d.dtag ∧ y.status = 0 ∧
    (t.server (.stack h)).wbuf = (s.server (.stack h)).wbuf ++ (dtlRows d d.cells.length).zip (d.cells.map decodedRow)) ∧
  (∀ (s : State) (m : Nat) (d : DtlMsg), soundMsg d → d.dtype = 7 → ∃ t x, exec (.hbmData m d) s = .next t ∧
    t.sent = .dtl m true x :: s.sent ∧ x.dtype = 0xE ∧ x.arg = (d.cells.length + 1) * 65536) ∧
  (∀ (s : State) (m : Nat) (d : DtlMsg), soundMsg d → d.dtype = 8 → ∃ t x, exec (.hbmAck m d) s = .next t ∧
    t.sent = .dtl m true x :: s.sent ∧ x.dtype = 0xE ∧ x.arg = (d.cells.length + 1) * 65536) ∧
  (∀ (s u : State) (m : Nat) (d : DtlMsg) (o : ObjDesc), soundMsg d → d.dtype = 9 → fieldOf d.arg 0 8 = 1 →
    objAt (fieldOf d.addr 16 16) (fieldOf d.addr 8 8) = some o → o.access ≠ 4 → o.access ≠ 6 →
    u = s.dtlIn m true d → ∃ t y rest, exec (.objReq m d) s = .next t ∧ t.sent = .dtl m false y :: rest ∧
    y.dtype = 0xA ∧ y.dtag = d.dtag ∧ y.status = stOk ∧
    y.cells = valueCells (u.fetch (fieldOf d.addr 16 16) (fieldOf d.addr 8 8) o).2) ∧
  (∀ (s : State) (m : Nat) (d : DtlMsg), soundMsg d → d.dtype = 0xA → ∃ t x, exec (.objRsp m d) s = .next t ∧
    t.sent = .dtl m true x :: s.sent ∧ x.dtype = 0xE) ∧
  (∀ (s : State) (m : Nat) (d : DtlMsg) (lo hi : Codeword), soundMsg d → d.dtype = 0xB → d.cells = [lo, hi] →
    ∃ t w, exec (.eventLevee m d) s = .next t ∧ w = 2 ^ 256 * (decodedRow hi).toNat + (decodedRow lo).toNat ∧
    t.faults = { s.faults with archive := (w :: s.faults.archive.filter (fun x => !sameRecord x w)).take 4096 }) ∧
  (∀ (s : State) (m n : Nat) (d : DtlMsg) (r : SvcReq) (o : OutRecord), soundMsg d → n < 16 →
    s.closers = [] → s.obj (0x9100 + n) 0 ≠ 0 → s.svcPart n = d.partition → (∀ k, k < 16 → k ≠ n →
    s.obj (0x9100 + k) 0 = 0 ∨ s.svcPart k ≠ d.partition) → s.svcVal n 1 = 1 → fieldOf d.arg 8 8 = 2 →
    (s.svc n).sealed = [(d.addr, [r.seq])] → (s.svc n).active = [r] → (s.svc n).waiting = [] →
    (s.svc n).stopAt = false → r.gen = true → r.leave = none → r.lost = false → r.askers = [] →
    s.readOutput n d.addr 0 = (s, some o) → bitOf o.flags 0 = true → ∃ t, exec (.eventBoundary m d) s = .next t ∧
    (t.svc n).active = [] ∧ (t.svc n).sealed = []) ∧
  (∀ (s : State) (m n st : Nat) (d : DtlMsg), soundMsg d → n < 16 → st = fieldOf d.arg 8 8 →
    (st = 2 ∨ st = 3) → (s.obj (0x9100 + n) 0 = 1 ∨ s.obj (0x9100 + n) 0 = 3) → s.svcPart n = d.partition →
    (s.svc n).latch = none → s.closers = [] → (∀ k, k < 16 → k ≠ n → s.svcPart k ≠ d.partition) → ∃ t,
    exec (.eventJobState m d) s = .next t ∧ t.obj (0x9100 + n) 0 = 2 ∧
    t.svc n = { s.svc n with nextKey := none, sealed := [] }) ∧
  (∀ (s : State) (m : Nat) (d : DtlMsg), soundMsg d → d.dtype = 0xB → ∃ t x,
    exec (.eventPortState m d) s = .next t ∧ t.sent = .dtl m true x :: s.sent ∧ x.dtype = 0xE) ∧
  (∀ (s : State) (m : Nat) (d : DtlMsg), soundMsg d → d.dtype = 0xC → ∃ t u x,
    exec (.dtlMgmt m true d) s = .next t ∧ t.sent = .mgmt (fieldOf d.arg 16 4) u :: x :: s.sent ∧
    u.local' = true) ∧
  (∀ (s : State) (m : Nat) (d : DtlMsg), soundMsg d → d.dtype = 0xD → s.portState (fieldOf d.arg 16 4) = 6 →
    ∃ t x stamp, exec (.dtlEth m true d) s = .next t ∧
    t.sent = stamp ++ .ethOut (fieldOf d.arg 16 4) (dtlBytes d (fieldOf d.arg 0 16)) :: x :: s.sent ∧
    stamp = (if s.obj (0x4010 + fieldOf d.arg 16 4) 0x14 = 1 ∧
    ptpEvent (dtlBytes d (fieldOf d.arg 0 16)) = true then [.ptpStamp (fieldOf d.arg 16 4) s.tide] else [])) ∧
  (∀ (s : State) (m : Nat) (d : DtlMsg), soundMsg d → d.dtype = 0xE → (s.ucie m).waiting = [] → ∃ t,
    exec (.credit m true d) s = .next t ∧
    t.ucie m = { s.ucie m with req := min 4096 ((s.ucie m).req + fieldOf d.arg 0 16), rsp := min 4096 ((s.ucie m).rsp + fieldOf d.arg 16 16), ctrl := min 1024 ((s.ucie m).ctrl + fieldOf d.addr 0 16) }) ∧
  (∀ (s u : State) (m : Nat) (d : DtlMsg), u = s.dtlIn m false d → soundMsg d → s.faults.asked = none →
    2 ≤ d.addr % 256 → d.addr % 256 ≤ 4 → (s.device.mode = .service ∨ s.device.mode = .test) → ∃ t,
    exec (.recoverReq m d) s = .next t ∧ t.device.mode = .recovery ∧ t.obj 0x6020 4 = d.addr % 256) ∧
  (∀ (s u : State) (m : Nat) (d : DtlMsg), u = s.dtlIn m true d → soundMsg d → s.faults.recovery = .closing →
    ∃ t, exec (.closeGo m d) s = .next t ∧ t.faults.closing = s.faults.closing ++ [(.device, s.drainEnd)] ∧ (∀ n,
    n ∈ Tbl.keys s.tiles → (s.tile n).gau.st = .live → (t.tile n).gau.st = .frozen)) ∧
  (∀ (s u : State) (m : Nat) (d : DtlMsg), u = s.dtlIn m false d → soundMsg d →
    s.faults.recovery = .quiesced → ∃ t n, exec (.quiesced m d) s = .next t ∧
    t.sent = .dtl n true { dtype := 0x0F, arg := 4 } :: u.sent) ∧
  (∀ (s u : State) (m : Nat) (d : DtlMsg), u = s.dtlIn m true d → soundMsg d →
    s.faults.recovery = .quiesced → ∃ t, exec (.restart m d) s = .next t ∧ t.jobs = [] ∧ t.cfgs = []) ∧
  (∀ (s : State) (m : Nat) (d : DtlMsg), soundMsg d → d.dtype = 0xF → ∃ t x,
    exec (.remapped m d) s = .next t ∧ t.sent = .dtl m true x :: s.sent ∧ x.dtype = 0xE)

/-- Each of these service, request and BAMURN commands completes: for every state and every operands that meet the conditions its clause names on them alone, exec answers a next state, and that state holds the result the clause writes out (the registers, answers, queues, messages or memory the command sets). SVC_APPLY, SVC_START, SVC_STOP, OPEN_CONTEXT, APPEND, GENERATE, CANCEL, CLOSE_CONTEXT, SUBMIT_FRAME, STATUS, ENTRY_SEAL, VISION_TICK_SEAL, CONNECTION_LOST, CONTEXT_IDLE_TIMEOUT, RECOVERY_RESUME_TIMEOUT, SESSION_OPEN, SESSION_AUTH, SESSION_CLOSE, ECHO, READ, WRITE, READ_BLOCK, WRITE_BLOCK, DESCRIBE, RELAY, SESSION_CLOSE_COMMAND, SESSION_IDLE_TIMEOUT, SESSION_AUTH_TIMEOUT, CREDENTIAL_LOCK_EXPIRY, BLOCK_SEQUENCE_TIMEOUT. (R373, R374, R375, R376, R382, R385, R386, R387, R388, R389, R390, R393) -/
def Obligations.ServiceAndBamurnCommandsComplete : Prop :=
  (∀ (s : State) (sess n : Nat), n < 16 → s.writeGuard sess (0x9100 + n) 0xF = none →
    s.obj (0x9100 + n) 0 = 0 → s.svcAreasOk ((List.range 14).map (fun i => s.obj (0x9100 + n) (i + 1))) = true →
    ∃ t, exec (.svcApply sess n) s = .next t ∧ t.obj (0x9100 + n) 0xF = stOk ∧
    t.svc n = { s.svc n with cfg := (List.range 14).map (fun i => s.obj (0x9100 + n) (i + 1)) }) ∧
  (∀ (s : State) (sess n : Nat), n < 16 → s.writeGuard sess (0x9100 + n) 0xF = none →
    s.obj (0x9100 + n) 0 = 0 → ∃ t, exec (.svcStart sess n) s = .next t ∧ t.obj (0x9100 + n) 0xF = stOk ∧
    t.obj (0x9100 + n) 0 = (if s.jobRuns (s.svcPart n) then 2 else 1)) ∧
  (∀ (s : State) (sess n : Nat) (x : SvcReq), n < 16 → s.writeGuard sess (0x9100 + n) 0xF = none →
    s.obj (0x9100 + n) 0 = 2 → (s.svc n).stopAt = false → (s.svc n).latch = none → s.jobState (s.svcPart n) ≠ 3 →
    s.jobState (s.svcPart n) ≠ 4 → (s.svc n).waiting = [x] → (s.svc n).active = [] → (s.svc n).frames = [] →
    x.lost = false → x.askers = [] → ∃ t, exec (.svcStop sess n) s = .next t ∧ t.obj (0x9100 + n) 0xF = stOk ∧
    t.obj (0x9100 + n) 0 = 0) ∧
  (∀ (s : State) (r : Request) (m : CborMap) (n seed prio e q slot : Nat),
    s.requestMap r 1 [2] [9, 10] = some m → uintOr m 2 16 16 = some n → n < 16 →
    uintOr m 9 0 (2 ^ 64) = some seed → uintOr m 10 128 256 = some prio → s.answers n = true →
    s.tenantOf r.client = some e → s.openOf (teTenant e) < teMax e → s.pickSlot.2 = some slot →
    (s.ctx slot).st = .free → q = s.svcPart n → q ≤ 11 → (s.pool q).applied = true → (s.pool q).hbm.front = [] →
    (s.pool q).hbm.back = [] → (s.pool q).hbm.next + 2 ≤ (s.pool q).hbm.size → s.spans = [] → ∃ t,
    exec (.reqOpenContext r) s = .next t ∧ (t.ctx slot).st = .idle ∧ (t.ctx slot).tenant = teTenant e ∧ (∃ rest,
    t.sent = .response r.client [(0, .uint 0), (1, .uint (reqIdOf r)), (2, .uint stOk), (3, .uint (2 ^ 18 * (t.ctx slot).epoch + slot))] :: rest)) ∧
  (∀ (s : State) (r : Request) (m : CborMap) (v slot n tenant : Nat) (ts : List Nat),
    s.requestMap r 2 [3, 4] [] = some m → uintOf m 3 = some v → arrayOr m 4 1 65536 (2 ^ 32 - 1) = some ts →
    s.ctxFor r v = .ok (slot, n, tenant) → s.reqOn slot = none →
    Tbl.get s.lens 0 slot + ts.length ≤ s.svcVal n 8 → (s.svc n).waiting.length < s.svcVal n 9 → ∃ t,
    exec (.reqAppend r) s = .next t ∧
    t.svc n = { s.svc n with waiting := (s.svc n).waiting ++ [{ client := r.client, reqId := reqIdOf r, gen := false, slot := slot, tenant := tenant, tokens := ts, seq := s.svcSeq }] }) ∧
  (∀ (s : State) (r : Request) (m : CborMap) (v k temp topP slot n tenant : Nat) (ts stop : List Nat),
    s.requestMap r 3 [3, 5] [4, 6, 7, 8] = some m → uintOf m 3 = some v → uintOf m 5 = some k →
    arrayOr m 4 1 65536 (2 ^ 32 - 1) = some ts → floatOr m 6 0x3F800000 0 0x40000000 = some temp →
    floatOr m 7 0x3F800000 1 0x3F800000 = some topP → arrayOr m 8 0 4 (2 ^ 32) = some stop → 1 ≤ k → k ≤ 16383 →
    s.ctxFor r v = .ok (slot, n, tenant) → s.reqOn slot = none → (s.svc n).waiting.length < s.svcVal n 9 → ∃ t,
    exec (.reqGenerate r) s = .next t ∧
    t.svc n = { s.svc n with waiting := (s.svc n).waiting ++ [{ client := r.client, reqId := reqIdOf r, gen := true, slot := slot, tenant := tenant, tokens := ts, sample := !ts.isEmpty, temp := temp, topP := topP, stop := stop, left := k, seq := s.svcSeq }] }) ∧
  (∀ (s : State) (r : Request) (m : CborMap) (v slot n tenant : Nat) (x : SvcReq) (k : Nat),
    s.requestMap r 4 [3] [] = some m → uintOf m 3 = some v → s.ctxFor r v = .ok (slot, n, tenant) →
    s.reqOn slot = some (k, x) → k < 16 → (s.svc k).waiting = [x] → (s.svc k).active = [] → x.lastKey = none →
    x.leave = none → x.lost = false → x.askers = [] → ∃ t, exec (.reqCancel r) s = .next t ∧
    (t.svc k).waiting = []) ∧
  (∀ (s : State) (r : Request) (m : CborMap) (v slot n tenant : Nat), s.requestMap r 5 [3] [] = some m →
    uintOf m 3 = some v → s.ctxFor r v = .ok (slot, n, tenant) → s.reqOn slot = none → (s.ctx slot).st = .idle →
    ∃ t rest, exec (.reqCloseContext r) s = .next t ∧ t.ctx slot = { s.ctx slot with st := .releasing } ∧
    t.sent = .response r.client [(0, .uint 0), (1, .uint (reqIdOf r)), (2, .uint stOk), (6, .uint 4)] :: rest) ∧
  (∀ (s : State) (r : Request) (m : CborMap) (n k : Nat) (b : List Byte),
    s.requestMap r 6 [2, 11, 12] [] = some m → uintOr m 2 16 16 = some n → n < 16 →
    uintOr m 11 512 512 = some k → k < 512 → keyOf m 12 = some (.bytes b) → s.answers n = true →
    s.svcVal n 1 = 2 → b.length = s.svcVal n 0xC → (∀ f, f ∈ (s.svc n).frames → f.stream ≠ k) → ∃ t,
    exec (.reqSubmitFrame r) s = .next t ∧
    t.svc n = { s.svc n with frames := (s.svc n).frames ++ [{ stream := k, client := r.client, reqId := reqIdOf r, bytes := b }] }) ∧
  (∀ (s : State) (r : Request) (m : CborMap) (e n : Nat), s.requestMap r 7 [] [2, 3] = some m →
    keyOf m 3 = none → s.tenantOf r.client = some e → n < 16 → keyOf m 2 = some (.uint n) → s.answers n = true →
    ∃ t, exec (.reqStatus r) s = .next t ∧
    s.answered t r.client (reqIdOf r) stOk [(9, .info [(0, s.device.mode.code), (2, s.openOf (teTenant e)), (1, s.obj (0x9100 + n) 0), (3, (s.svc n).waiting.length), (4, (s.svc n).lanes.length)])]) ∧
  (∀ (s : State) (n q key k : Nat) (j : Job) (x : SvcReq), s.obj (0x9100 + n) 0 = 2 → s.svcVal n 1 = 1 →
    q = s.svcPart n → s.jobRuns q = true → s.job q = some j → key = s.entryKey n → s.quietMemory →
    (s.svc n).waiting = [x] → (s.svc n).active = [] → (s.svc n).lanes = [] → x.leave = none → 1 ≤ s.svcVal n 5 →
    k = min (s.svcVal n 7) x.tokens.length → k ≤ s.svcVal n 6 → ∃ t, exec (.entrySeal n) s = .next t ∧
    t.entryWritten q key 1 (32 * Config.laneListAt n key) j ∧ t.sent = s.sent) ∧
  (∀ (s : State) (n tick q : Nat) (j : Job), s.obj (0x9100 + n) 0 = 2 → s.svcVal n 1 = 2 → q = s.svcPart n →
    s.jobRuns q = true → s.job q = some j → s.quietMemory → ∃ t, exec (.visionTickSeal n tick) s = .next t ∧
    t.entryWritten q tick 0 0 j ∧ t.sent = s.sent) ∧
  (∀ (s : State) (conn n : Nat) (x : SvcReq), n < 16 → (s.svc n).waiting = [x] → (s.svc n).active = [] →
    (∀ k, k < 16 → k ≠ n → (s.svc k).waiting = [] ∧ (s.svc k).active = []) → x.client.conn = conn →
    x.lastKey = none → x.askers = [] → ∃ t, exec (.connectionLost conn) s = .next t ∧
    t.svc n = { s.svc n with waiting := [] } ∧ t.ctx x.slot = { s.ctx x.slot with used := s.elapsed }) ∧
  (∀ (s : State) (slot : Nat), slot < 262144 → (s.ctx slot).st = .idle → s.reqOn slot = none →
    (s.ctx slot).used + secTide * s.obj 0x9000 5 ≤ s.elapsed → ∃ t, exec (.contextIdleTimeout slot) s = .next t ∧
    t.ctx slot = { s.ctx slot with st := .releasing }) ∧
  (∀ (s : State) (n : Nat), n < 16 → s.obj (0x9100 + n) 0 = 3 → s.faults.recoverAt + 5 * secTide ≤ s.elapsed → ∃ t,
    exec (.recoveryResumeTimeout n) s = .next t ∧
    t.svc n = { s.svc n with waiting := [], active := [], lanes := [], sealed := [], frames := [] } ∧
    t.obj (0x9100 + n) 0 = 3) ∧
  (∀ (s : State) (p : Path) (b : List Byte) (h cred : Nat), s.sessionless p 1 b h → b.length = 48 →
    hCount h = 0 → cred = leNat ((b.drop 16).take 1) → leNat ((b.drop 17).take 15) = 0 → cred ≤ 15 →
    s.credState cred = 1 → s.bamurn.sessions.length < 16 → ∃ t y, exec (.sessionOpen p b) s = .next t ∧
    t.bamurn = { s.bamurn with sessions := s.bamurn.sessions ++ [y] } ∧ y.credential = cred) ∧
  (∀ (s : State) (p : Path) (b : List Byte) (h : Nat) (x : Session) (c : Credential), s.portRequest p 3 b h →
    hMac h = false → s.bamurn.sessions.find? (fun x => x.number == hSession h && !x.authed) = some x →
    Tbl.get s.sec.creds none x.credential = some c → b.length = 48 → hCount h = 0 → x.failed = false →
    b.drop 16 = s.proofOf x c.bytes → ∃ t y, exec (.sessionAuth p b) s = .next t ∧ y ∈ t.bamurn.sessions ∧
    y.number = x.number ∧ y.authed = true ∧ y.rights = c.rights) ∧
  (∀ (s : State) (p : Path) (b : List Byte) (h : Nat) (x : Session), s.inSession p 4 b h x → b.length = 32 →
    hCount h = 0 → ∃ t, exec (.sessionClose p b) s = .next t ∧ (∀ y,
    y ∈ t.bamurn.sessions ↔ y ∈ s.bamurn.sessions ∧ y.number ≠ hSession h)) ∧
  (∀ (s : State) (p : Path) (b : List Byte) (h : Nat), s.sessionless p 5 b h → b.length = 16 → hCount h = 0 →
    ∃ t, exec (.echo p b) s = .next t ∧
    t.sent = .bytes (backPath p) (Reply.bytes { mtype := 5, session := 0 } h none) :: s.sent) ∧
  (∀ (s u v : State) (p : Path) (b val : List Byte) (h w : Nat) (x : Session), s.inSession p 0x10 b h x →
    u = s.heard p → hCount h = 1 → b.length = 36 → w = leNat (macBody b) → fieldOf w 1 7 = 0 →
    u.readValue (hSession h) (iIndex w) (iSub w) (iPeek w) = (v, stOk, val) → val.length ≤ 1400 → ∃ t,
    exec (.bamRead p b) s = .next t ∧
    t.sent = .bytes (backPath p) (Reply.bytes { mtype := 0x10, session := hSession h, count := 1, body := valueItem w (readTy w) stOk val } h (some x.key)) :: s.sent) ∧
  (∀ (s u v : State) (p : Path) (b : List Byte) (h w vlen st : Nat) (x : Session), s.inSession p 0x11 b h x →
    u = s.heard p → hCount h = 1 → w = leNat ((macBody b).take 8) → vlen = fieldOf w 48 16 → vlen ≤ 1400 →
    (macBody b).length = 8 + (vlen + 3) / 4 * 4 → fieldOf w 1 7 = 0 → fieldOf w 40 8 = 0 → (∀ a,
    a ∈ (macBody b).drop (8 + vlen) → a = 0) →
    u.writeValue (hSession h) (iIndex w) (iSub w) (fieldOf w 32 8) (((macBody b).drop 8).take vlen) = (v, st) →
    ∃ t, exec (.bamWrite p b) s = .next t ∧ t = { v with regs := t.regs, bamurn := t.bamurn, sent := t.sent }) ∧
  (∀ (s u : State) (p : Path) (b : List Byte) (h w : Nat) (x : Session) (d : ObjDesc) (f : State × List Byte) (g : State),
    s.inSession p 0x12 b h x → u = s.heard p → hCount h = 1 → b.length = 48 → w = leNat (macBody b) →
    fieldOf w 2 6 = 0 → fieldOf w 40 8 = 0 → objAt (iIndex w) (iSub w) = some d →
    u.readGuard (hSession h) (iIndex w) (iSub w) (iPeek w) = none → f = u.fetch (iIndex w) (iSub w) d →
    (g = (if d.access = 6 ∧ iPeek w = false then f.1.cleared (iIndex w) (iSub w) d else f.1)) → ∃ t data,
    exec (.readBlock p b) s = .next t ∧ data = (f.2.drop (fieldOf w 64 32)).take (min (fieldOf w 48 16) 1392) ∧
    t.sent = .bytes (backPath p) (Reply.bytes { mtype := 0x12, session := hSession h, count := 1, body := blockItem w (readTy w) stOk data.length f.2.length (fieldOf w 64 32) data } h (some x.key)) :: s.sent) ∧
  (∀ (s u : State) (p : Path) (b data : List Byte) (h w vlen : Nat) (x : Session) (d : ObjDesc) (r : State × Nat),
    s.inSession p 0x13 b h x → u = s.heard p → hCount h = 1 → w = leNat ((macBody b).take 16) →
    vlen = fieldOf w 48 16 → vlen ≤ 1392 → (macBody b).length = 16 + (vlen + 3) / 4 * 4 → fieldOf w 2 6 = 0 →
    fieldOf w 40 8 = 0 → (∀ a, a ∈ (macBody b).drop (16 + vlen) → a = 0) →
    data = ((macBody b).drop 16).take vlen → objAt (iIndex w) (iSub w) = some d →
    (s.sessionOf (hSession h)).bind (fun y => y.block) = none →
    u.writeGuard (hSession h) (iIndex w) (iSub w) = none → blockFits d (fieldOf w 64 32) vlen = true →
    fieldOf w 96 32 = vlen → bitOf w 1 = true →
    r = u.writeValue (hSession h) (iIndex w) (iSub w) (fieldOf w 32 8) (u.spliced d { index := iIndex w, sub := iSub w, ty := fieldOf w 32 8, offset := fieldOf w 64 32, total := vlen, data := data }) →
    ∃ t, exec (.writeBlock p b) s = .next t ∧
    t = { r.1 with regs := t.regs, bamurn := t.bamurn, sent := t.sent }) ∧
  (∀ (s : State) (p : Path) (b : List Byte) (h w : Nat) (d : ObjDesc), s.sessionless p 0x14 b h →
    hCount h = 1 → b.length = 20 → w = leNat (b.drop 16) → fieldOf w 1 7 = 0 →
    objAt (iIndex w) (iSub w) = some d → s.device.mode ≠ .safe → ∃ t u, exec (.describe p b) s = .next t ∧
    u = s.heard p ∧
    t.sent = .bytes (backPath p) (Reply.bytes { mtype := 0x14, session := 0, count := 1, body := valueItem w 9 stOk (u.description (iIndex w) (iSub w) d) } h none) :: s.sent) ∧
  (∀ (s : State) (src h j : Nat) (f : MgmtFrame) (b : List Byte), 16 ≤ b.length → h = headOf b →
    hVersion h = 1 → hRelay h = true → hPortRelay h = false → s.takesFrame f b.length = true →
    hResponse h = false → hTarget h ≠ s.obj 0x4000 0 → s.routePort (hTarget h) = some j → ∃ t,
    exec (.relay (.port src f) b) s = .next t ∧
    t.sent = .mgmt j { dst := hTarget h, src := s.ownDevice, local' := false, length := b.length, bytes := b } :: s.sent ∧
    t.bamurn = { s.bamurn with relays := s.bamurn.relays ++ [(hTarget h, hTag h, .port src f)] }) ∧
  (∀ (s : State) (sess n : Nat), s.writeGuard sess 0x0200 3 = none → (∃ y, y ∈ s.bamurn.sessions ∧
    y.number = n) → (n = sess ∨ s.holds sess rSecurity = true) → ∃ t,
    exec (.sessionCloseCommand sess n) s = .next t ∧ t.obj 0x0200 3 = stOk ∧ (∀ y,
    y ∈ t.bamurn.sessions ↔ y ∈ s.bamurn.sessions ∧ y.number ≠ n)) ∧
  (∀ (s : State) (n : Nat), ∃ t, exec (.sessionIdleTimeout n) s = .next t ∧ (∀ y,
    y ∈ t.bamurn.sessions ↔ y ∈ s.bamurn.sessions ∧ ¬ (y.number = n ∧ y.authed = true ∧
    y.heard + secTide * y.idleLimit ≤ s.elapsed)) ∧ t.sent = s.sent) ∧
  (∀ (s : State) (sess : Nat), ∃ t, exec (.sessionAuthTimeout sess) s = .next t ∧ (∀ x,
    x ∈ t.bamurn.sessions ↔ x ∈ s.bamurn.sessions ∧
    (x.number ≠ sess ∨ x.authed = true ∨ s.elapsed < x.heard + secTide * 5))) ∧
  (∀ (s : State) (cred h : Nat), (cred, h) ∈ s.bamurn.locked → h ≤ s.elapsed → ∃ t,
    exec (.credentialLockExpiry cred) s = .next t ∧ (∀ k, k ∈ t.bamurn.locked ↔ k ∈ s.bamurn.locked ∧
    k.1 ≠ cred) ∧ t.regs = s.regs) ∧
  (∀ (s : State) (sess : Nat), ∃ t, exec (.blockSequenceTimeout sess) s = .next t ∧ (∀ x y,
    x ∈ t.bamurn.sessions → x.number = sess → x.block = some y → s.elapsed < y.heard + secTide * 10) ∧ (∀ x,
    x ∈ s.bamurn.sessions → x.number ≠ sess → x ∈ t.bamurn.sessions))

/-- Each of these fault, recovery, scour and twin commands completes: for every state and every operands that meet the conditions its clause names on them alone, exec answers a next state, and that state holds the result the clause writes out (the registers, answers, queues, messages or memory the command sets). LEVEE_REPORT, STORM_CLEAR, LEVEE_NOTICE, LEVEE_ENTRY_FREE, POWERED_SECOND, WATCHDOG_CHECK, ABANDON, DRAINED, DRAINED_MISSING_TIMEOUT, JOB_HALT, CLOSING, RECOVERED, RECOVERY_RESET_COMMAND, HISTORY_CLEAR, PACKAGE_APPLY, SCOUR_CHUNK_START, SCOUR_INSERT, SCOUR_CHUNK_TIMEOUT, SCOUR_CHUNK_COMPLETE, TWIN_COMPARE, TWIN_LIMIT_EXPIRY, UFR_SELECT. (R214, R233, R505, R506, R507, R509, R511, R512, R513, R514, R515, R516) -/
def Obligations.FaultAndScourCommandsComplete : Prop :=
  (∀ (s : State) (r : Report) (e : Nat), e < 255 → s.levee e = none → (∀ i, i < e → s.levee i ≠ none) → (∀ i x,
    i < 255 → s.levee i = some x → x.suspect ≠ reportKey r ∨ x.cls ≠ r.cls) → ∃ t x,
    exec (.leveeReport r) s = .next t ∧ t.levee e = some x ∧ x.suspect = reportKey r) ∧
  (∀ (s : State) (e : Nat) (x : LeveeRec), s.levee e = some x →
    x.firstAt + ((x.aboveAt - x.firstAt) / msTide + 11) * msTide ≤ s.elapsed → ∃ t, exec (.stormClear e) s = .next t ∧
    t.levee e = some { x with active := false } ∧ ∀ i, i ≠ e → t.levee i = s.levee i) ∧
  (∀ (s : State) (e : Nat) (x : LeveeRec), s.levee e = some x → x.noticed < x.count →
    x.noticeAt + 10 * msTide ≤ s.elapsed → ∃ t m d,
    exec (.leveeNotice e) s = .next t ∧
    t.levee e = some { x with notices := x.notices + 1, noticed := x.count, noticeAt := s.elapsed } ∧
    t.sent = .dtl m false d :: s.sent) ∧
  (∀ (s : State) (e : Nat) (x : LeveeRec), s.levee e = some x → x.count = x.noticed →
    x.lastAt + secTide ≤ s.elapsed → ∃ t,
    exec (.leveeEntryFree e) s = .next t ∧ t.levee e = none ∧ ∀ i, i ≠ e → t.levee i = s.levee i) ∧
  (∀ (s : State), s.power.closed = false → ∃ t, exec .poweredSecond s = .next t ∧
    t.obj 0x6010 1 = min (s.obj 0x6010 1 + 1) (2 ^ 64 - 1) ∧ t.bamurn.flash.inSecond = 0) ∧
  (∀ (s : State) (q : Nat) (ok : Bool) (j : Job), s.job q = some j → s.dogFired q = true → s.jobState q = 3 →
    s.controlOk q ok = true → j.dogStep ≠ some (s.step' q) → s.obj (0x6030 + q) 2 < 3 → ∃ t,
    exec (.watchdogCheck q ok) s = .next t ∧ t.jobState q = 4) ∧
  (∀ (s : State) (m : CtrlMsg) (q : Nat) (j : Job), s.partitionOfJob (mJobId m) = some q → s.job q = some j →
    ctrlOk 0x20 m = true → s.before' q (mStep m) j = false → s.jobState q = 3 → s.step' q = mStep m →
    s.obj (0x6030 + q) 2 < 3 → ∃ t, exec (.abandon m) s = .next t ∧ t.jobState q = 4) ∧
  (∀ (s : State) (m : CtrlMsg) (q : Nat) (j : Job), s.partitionOfJob (mJobId m) = some q → s.job q = some j →
    ctrlOk 0x21 m = true → s.step' q = mStep m → j.selfDone = false → ∃ t, exec (.drained m) s = .next t ∧
    t.job q = some { j with drained := if j.drained.contains m.src then j.drained else j.drained ++ [m.src] }) ∧
  (∀ (s : State) (q : Nat) (j : Job) (d : Nat), s.job q = some j → s.jobState q = 4 → s.drainPast q = true →
    j.selfDone = true → d ∈ s.members q → d ∉ j.drained → ∃ t, exec (.drainedMissingTimeout q) s = .next t ∧
    t.jobState q = 7) ∧
  (∀ (s : State) (m : CtrlMsg) (q : Nat) (j : Job), s.partitionOfJob (mJobId m) = some q → s.job q = some j →
    ctrlOk 0x22 m = true → (s.jobState q = 1 ∨ s.jobState q = 2 ∨ s.jobState q = 3 ∨ s.jobState q = 4) → ∃ t,
    exec (.jobHalt m) s = .next t ∧ t.jobState q = 7) ∧
  (∀ (s : State) (m : CtrlMsg), ctrlOk 0x23 m = true → (∀ q, q < 12 → m.src ∉ s.members q) → (∀ q, q < 12 →
    (s.disp q).tokens = [] ∧ (s.disp q).queue = []) → ∃ t, exec (.closing m) s = .next t ∧
    m.src ∈ t.faults.peersClosed) ∧
  (∀ (s : State) (m : CtrlMsg), ctrlOk 0x24 m = true → ∃ t, exec (.recovered m) s = .next t ∧ (∀ d,
    d ∈ t.faults.peersClosed ↔ d ∈ s.faults.peersClosed ∧ d ≠ m.src)) ∧
  (∀ (s : State) (sess : Nat), s.writeGuard sess 0x6020 0 = none →
    (s.device.mode = .service ∨ s.device.mode = .test) → ∃ t, exec (.recoveryResetCommand sess) s = .next t ∧
    t.obj 0x6020 0 = stOk ∧ t.device.mode = .recovery) ∧
  (∀ (s : State) (sess code : Nat), s.writeGuard sess 0x6010 2 = none → (∃ h, h ∈ s.faults.history ∧
    h.suspect = code) → ∃ t, exec (.historyClear sess code) s = .next t ∧
    t.faults = { s.faults with history := s.faults.history.filter (fun h => h.suspect != code) } ∧
    t.obj 0x6010 2 = stOk) ∧
  (∀ (s : State) (sess : Nat) (ok : Bool) (b : List Byte), s.writeGuard sess 0x6041 3 = none →
    s.pkg.staged = some b → ∃ t, exec (.packageApply sess ok) s = .next t ∧
    (if verifyPackage b = false then t.obj 0x6041 3 = stBadValue ∧ t.obj 0x6041 4 = 2 ∧
    t = { s with regs := t.regs, sent := t.sent } ∧
    s.sameRegs t [okey 0x6041 3 0, okey 0x6041 4 0] else if ok = false then t.obj 0x6041 3 = stRefused ∧
    t = { s with regs := t.regs, sent := t.sent } ∧ s.sameRegs t [okey 0x6041 3 0] else t.obj 0x6041 3 = stOk ∧
    t.obj 0x6041 4 = 0 ∧ t.obj 0x6041 0 = pkgId b ∧ t.obj 0x6041 1 = pkgVersion b ∧
    t.pkg = { active := some b, staged := none } ∧ (∀ n, (Tbl.get t.scour {} n).next = 0 ∧
    (Tbl.get t.scour {} n).again = false) ∧
    t = { s with regs := t.regs, sent := t.sent, pkg := t.pkg, scour := t.scour, chunks := t.chunks })) ∧
  (∀ (s : State) (n c : Nat), s.obj 0x6040 0 ≠ 0 → Tbl.get s.chunks none (s.scourGroup n) = none →
    s.scourable n = true → s.scourFirst n = true → s.plane (clusterOf n) = 2 → s.nextChunk n = some c → ∃ t k,
    exec (.scourChunkStart n) s = .next t ∧ Tbl.get t.chunks none (s.scourGroup n) = some k ∧ k.tile = n ∧
    k.chunk = c ∧ k.window = (Tbl.get s.scour {} n).counter % 25 ∧
    k.saved = (windowRows k.window).map (fun r => Tbl.get (s.tile n).spad 0 r) ∧ (∀ i, i < k.saved.length →
    Tbl.get t.hbm 0 (saveRow n + i) = k.saved.getD i 0) ∧
    (Tbl.get t.scour {} n).counter = (Tbl.get s.scour {} n).counter + 1) ∧
  (∀ (s : State) (q : Nat) (j : Job), s.job q = some j → s.obj 0x6040 0 = 1 → s.insertDue q j = true →
    j.scourHold = false → Tbl.get s.chunks none q = none → ∃ t, exec (.scourInsert q) s = .next t ∧
    t.job q = some { j with scourHold := true, insertAt := some s.elapsed } ∧
    t.obj 0x6040 7 = min (s.obj 0x6040 7 + 1) (2 ^ 32 - 1)) ∧
  (∀ (s : State) (n g : Nat) (k : Chunk), s.chunkOn n = some (g, k) →
    k.startAt + nsTide 16000 ≤ s.elapsed → ∃ t, exec (.scourChunkTimeout n) s = .next t ∧ Tbl.get t.chunks none g = some { k with stopped := true }) ∧
  (∀ (s : State) (n g crc : Nat) (bad : List (Nat × Nat)) (k : Chunk), s.chunkOn n = some (g, k) →
    k.window < 25 → k.old = false → (s.job g).elim false (fun j => j.scourHold) = false → k.stopped = false →
    k.kind ≠ 1 → (Tbl.get s.scour {} n).again = false → ∃ t,
    exec (.scourChunkComplete n crc bad true) s = .next t ∧
    t.obj 0x6040 4 = min (s.obj 0x6040 4 + 1) (2 ^ 64 - 1) ∧ Tbl.get t.chunks none g = none) ∧
  (∀ (s : State) (q : Nat) (w : TwinRun) (j : Job) (p : List (BitVec 64)), q < 12 → s.job q = some j →
    j.twin = some w → s.primaryDigest w = some p → w.differs = none → s.twinComplete w = true → w.twin < 1224 →
    w.primary < 1224 → p = (s.tile w.twin).digest → w.held = false → ∃ t, exec (.twinCompare q) s = .next t ∧
    t.obj 0x6050 3 = min (s.obj 0x6050 3 + 1) (2 ^ 64 - 1) ∧ t.obj 0x6050 5 = s.obj 0x6050 5) ∧
  (∀ (s : State) (q : Nat) (w : TwinRun) (j : Job), s.job q = some j → j.twin = some w → w.held = true →
    w.heldAt + msTide * s.obj 0x6050 2 ≤ s.elapsed → s.twinComplete w = false → w.twin < 1224 → s.jobState q ≠ 3 →
    ∃ t, exec (.twinLimitExpiry q) s = .next t ∧ t.obj 0x6050 4 = min (s.obj 0x6050 4 + 1) (2 ^ 32 - 1) ∧
    t.twinRun q = none) ∧
  (∀ (s : State) (sess v : Nat), s.writeGuard sess 0x6060 1 = none → v < 0x80000000 → s.ufr v ≠ none → ∃ t,
    exec (.ufrSelect sess v) s = .next t ∧ t.obj 0x6060 1 = stOk ∧ t.ufrShown = v)

/-- Each of these security and debug commands completes: for every state and every operands that meet the conditions its clause names on them alone, exec answers a next state, and that state holds the result the clause writes out (the registers, answers, queues, messages or memory the command sets). IMAGE_APPLY, SVN_COMMIT, CREDENTIAL_SET, ATTEST_REQUEST, ATTEST_SIGNED, TLS_KEYGEN, TLS_CHAIN_WRITE, DEBUG_READ, DEBUG_RELEASE, DEBUG_HOLD_EXPIRY, UNLOCK_TOKEN, MEMORY_UNIT_NOT_ANSWERING, PRBS_PHASE_END, CODEWORD_LOCK, EGRESS_PACKET, UCIE_ADAPTER_RETRY_FAILURE, UCIE_RETRAINED. (R99, R324, R543, R546, R547, R549, R550, R551, R552, R553, R558, R559) -/
def Obligations.SecurityCommandsComplete : Prop :=
  (∀ (s : State) (sess : Nat) (ok : Bool) (b : List Byte), s.writeGuard sess 0x7060 3 = none →
    s.sec.staged = some b → s.sec.images.length = 2 → s.updateFlash < 2 → s.bamurn.flash.ok = true →
    s.bamurn.flash.inSecond < 100 → ∃ t, exec (.imageApply sess ok) s = .next t ∧
    (if verifyImage (s.obj 0x8000 1) b = false then t.obj 0x7060 3 = stBadValue ∧
    t.obj 0x7060 0 s.updateFlash = 3 ∧ t.sec = s.sec else if ok = false then t.obj 0x7060 3 = stRefused ∧
    t.sec = s.sec else t.obj 0x7060 3 = stOk ∧ t.imageBytes s.updateFlash = b ∧
    t.imageBytes (1 - s.updateFlash) = s.imageBytes (1 - s.updateFlash) ∧ t.sec.staged = none ∧
    t.obj 0x7060 4 = s.updateFlash ∧ t.obj 0x7060 1 s.updateFlash = imageBuild b ∧
    t.obj 0x7060 0 s.updateFlash = 0)) ∧
  (∀ (s : State) (sess v : Nat), s.writeGuard sess 0x8000 2 = none → s.obj 0x8000 1 < v →
    v ≤ imageSvn (s.imageBytes s.running) → ∃ t, exec (.svnCommit sess v) s = .next t ∧ t.obj 0x8000 1 = v ∧
    t.obj 0x8000 2 = stOk) ∧
  (∀ (s : State) (sess k r : Nat) (v : BitVec 320), s.writeGuard sess 0x8000 4 = none →
    k = fieldOf v.toNat 0 8 → r = fieldOf v.toNat 32 32 → fieldOf v.toNat 8 24 = 0 → k ≤ 15 → r < 64 →
    s.securityLeft k r = true → ∃ t, exec (.credentialSet sess v) s = .next t ∧ t.obj 0x8000 4 = stOk ∧
    Tbl.get t.sec.creds none k = (if r = 0 then none else some { key := some (leBytes 32 (fieldOf v.toNat 64 256)), rights := r })) ∧
  (∀ (s : State) (sess : Nat) (value : List Byte), s.writeGuard sess 0x8010 2 = none → (∃ q nonce,
    value = q :: nonce ∧ (q.toNat < 12 ∨ q.toNat = 0xFF) ∧ 16 ≤ nonce.length ∧ nonce.length ≤ 64) → ∃ t,
    exec (.attestRequest sess value) s = .next t ∧ (if s.sec.attests.length < 4 then t.obj 0x8010 2 = stPending ∧
    t.sec = { s.sec with attests := s.sec.attests ++ [((value.headD 0).toNat, value.tail)] } else t.obj 0x8010 2 = stBusy ∧
    t.sec = s.sec)) ∧
  (∀ (s : State) (q : Nat) (nonce : List Byte) (rest : List (Nat × List Byte)), s.sec.attests = (q,
    nonce) :: rest → ∃ t, exec .attestSigned s = .next t ∧ t.sec.attests = rest ∧
    t.sec.report = cborMap (s.attestKeys q nonce ++ [(31, cborBytes (Config.slhSign (cborMap (s.attestKeys q nonce))))])) ∧
  (∀ (s : State) (sess : Nat), s.writeGuard sess 0x8020 0 = none → ∃ t, exec (.tlsKeygen sess) s = .next t ∧
    t.obj 0x8020 0 = stOk ∧
    t.sec = { s.sec with keyGens := s.sec.keyGens + 1, tlsNext := some (s.sec.keyGens + 1) }) ∧
  (∀ (s : State) (sess : Nat) (chain : List Byte), s.writeGuard sess 0x8020 2 = none → chain.length ≤ 8192 →
    s.bamurn.flash.ok = true → s.bamurn.flash.inSecond < 100 → ∃ t,
    exec (.tlsChainWrite sess chain) s = .next t ∧ (if Config.leafKey chain ≠ none ∧
    s.sec.tlsNext.map Config.tlsKey = Config.leafKey chain then t.sec.tlsChain = chain ∧
    some t.sec.tlsKey = s.sec.tlsNext ∧ t.sec.tlsNext = none ∧
    t.sent = .answer sess 0x8020 2 stOk :: s.sent else if Config.leafKey chain = some (Config.tlsKey s.sec.tlsKey) then t.sec.tlsChain = chain ∧
    t.sec.tlsKey = s.sec.tlsKey ∧ t.sec.tlsNext = s.sec.tlsNext ∧
    t.sent = .answer sess 0x8020 2 stOk :: s.sent else t = s.answer sess 0x8020 2 stBadValue)) ∧
  (∀ (s : State) (sess n bank row count : Nat) (v : BitVec 64), s.writeGuard sess 0x8030 1 = none →
    n = fieldOf v.toNat 48 16 → bank = fieldOf v.toNat 44 4 → row = fieldOf v.toNat 34 10 →
    count = fieldOf v.toNat 28 6 → n ∈ s.sec.held → fieldOf v.toNat 0 28 = 0 → bank ≤ 11 → 1 ≤ count →
    count ≤ 32 → row + count ≤ 1024 → ∃ t, exec (.debugRead sess v) s = .next t ∧ t.obj 0x8030 1 = stOk ∧
    t.sec.debugRead = true) ∧
  (∀ (s : State) (sess n : Nat), s.writeGuard sess 0x8030 3 = none → n < 1224 → ∃ t,
    exec (.debugRelease sess n) s = .next t ∧ t.obj 0x8030 3 = stOk ∧ (∀ m, m ∈ t.sec.held ↔ m ∈ s.sec.held ∧
    m ≠ n)) ∧
  (∀ (s : State), s.stagePast 10000 = true → ∃ t, exec .debugHoldExpiry s = .next t ∧ ∀ n, n ∈ s.sec.held → n < 1224 →
    t.obj (tileIx n) 0x2A = 1) ∧
  (∀ (s : State) (sess : Nat) (token c : List Byte), s.writeGuard sess 0x8040 2 = none →
    (s.device.mode = .test ∨ s.device.mode = .safe) → s.sec.challenge = some c → ∃ t,
    exec (.unlockToken sess token) s = .next t ∧
    (if Config.tokenVerify (leBytes 8 (s.obj 0x4000 2) ++ c) token = true then t.hbm = [] ∧ t.ddr = [] ∧
    t.ctxs = [] ∧ (∀ n, (t.tile n).spad = []) ∧ t.sec.unlocked = true ∧ t.sec.challenge = none ∧
    t.obj 0x8040 0 = 1 ∧
    t.sent.head? = some (.answer sess 0x8040 2 stOk) else t = s.answer sess 0x8040 2 stAccessDenied)) ∧
  (∀ (s : State) (h : Nat), (s.server (.stack h)).dead = false → (s.server (.stack h)).merges = [] →
    (s.server (.stack h)).waiting = [] → (s.server (.stack h)).dtl = [] → ∃ t,
    exec (.memoryUnitNotAnswering (.stack h)) s = .next t ∧ (t.server (.stack h)).dead = true ∧
    (t.server (.stack h)).wbuf = (s.server (.stack h)).wbuf) ∧
  (∀ (s : State) (k : Nat), ∃ t, exec (.prbsPhaseEnd k) s = .next t ∧ (∀ j, j ≠ k → t.port j = s.port j) ∧
    t.port k = if s.portState k = 1 then { s.port k with prbsDone := true } else s.port k) ∧
  (∀ (s : State) (k lane : Nat), ∃ t, exec (.codewordLock k lane) s = .next t ∧ (∀ j, j ≠ k →
    t.port j = s.port j) ∧ ((s.port k).prbsDone = true ∨ s.portState k ≠ 1 → lane ∈ (t.port k).locked)) ∧
  (∀ (s : State) (k hop : Nat) (p : Packet), s.obj 0x4000 0 ≠ 0xFFFF → s.device.mode ≠ .safe →
    (s.port k).egress = [] → (s.port k).ingress = [] → (s.port k).stuck = [] → (s.port k).stalled = none →
    s.mayLeave k hop p = true → ∃ t, exec (.egressPacket k hop p) s = .next t ∧
    t.sent = .egress k hop { p with srcX := 0, srcY := 0, dstX := 0, dstY := 0 } :: s.sent ∧
    (t.port k).egress = [] ∧ (isReply p = false → (t.port k).fwd = (s.port k).fwd ++ [{ p with data := [] }])) ∧
  (∀ (s : State) (m : Nat), m < 8 → s.obj (0x3210 + m) 0 = 2 → (s.ucie m).stalled = none → ∃ t,
    exec (.ucieAdapterRetryFailure m) s = .next t ∧ t.obj (0x3210 + m) 0 = 1 ∧
    t.obj (0x3210 + m) 1 = min (s.obj (0x3210 + m) 1 + 1) (2 ^ 32 - 1)) ∧
  (∀ (s : State) (m : Nat), m < 8 → s.obj (0x3210 + m) 0 = 1 → (s.ucie m).waiting = [] → ∃ t,
    exec (.ucieRetrained m) s = .next t ∧ t.obj (0x3210 + m) 0 = 2 ∧ bitOf (t.obj 0x3200 0) m = true)
end

