-- ==== Sys2Proof/Laws/Bytes.lean ====
section
/-! SUPPORT. Byte strings: their lengths and values, and the shape of a message that carries a MAC. -/

namespace Sys2Proof.Machine

@[simp] theorem leBytes_length (k v : Nat) : (leBytes k v).length = k := by
  induction k generalizing v with
  | zero => rfl
  | succ n ih => simp [leBytes, ih]

@[simp] theorem beBytes_length (k v : Nat) : (beBytes k v).length = k := by simp [beBytes]

/-- The number that `k` bytes of `v` spell. -/
theorem leNat_leBytes (k v : Nat) : leNat (leBytes k v) = v % 256 ^ k := by
  induction k generalizing v with
  | zero => simp [leBytes, leNat, Nat.mod_one]
  | succ n ih =>
    rw [leBytes, leNat, ih, BitVec.toNat_ofNat]
    show v % 256 + 256 * _ = _
    rw [Nat.pow_succ, Nat.mul_comm (256 ^ n) 256, Nat.mod_mul]

@[simp] theorem hashRound_length (w k : BitVec 32) (l : List (BitVec 32)) : (hashRound w k l).length = l.length := by
  unfold hashRound
  split <;> rfl

@[simp] theorem hashRounds_length (n i : Nat) (r l : List (BitVec 32)) : (hashRounds n i r l).length = l.length := by
  induction n generalizing i r l with
  | zero => rfl
  | succ n ih => simp [hashRounds, ih]

@[simp] theorem hashBlock_length (h : List (BitVec 32)) (b : List Byte) : (hashBlock h b).length = h.length := by
  simp [hashBlock]

theorem hashBlocks_length (bs : List (List Byte)) (h : List (BitVec 32)) : (bs.foldl hashBlock h).length = h.length := by
  induction bs generalizing h with
  | nil => rfl
  | cons b bs ih => simp [ih]

@[simp] theorem sha256_length (m : List Byte) : (sha256 m).length = 32 := by
  simp [sha256, List.length_flatMap, hashBlocks_length, hashWords]

@[simp] theorem hmacSha256_length (k m : List Byte) : (hmacSha256 k m).length = 32 := by simp [hmacSha256]

@[simp] theorem macOf_length (k m : List Byte) : (macOf k m).length = 16 := by simp [macOf]

/-- A message with its MAC behind it: the message, the MAC, the header and the body read back. -/
theorem mac_take (k m : List Byte) : (m ++ macOf k m).take ((m ++ macOf k m).length - 16) = m := by simp

theorem mac_drop (k m : List Byte) : (m ++ macOf k m).drop ((m ++ macOf k m).length - 16) = macOf k m := by simp

theorem headOf_append (m r : List Byte) (h : 16 ≤ m.length) : headOf (m ++ r) = headOf m := by
  unfold headOf
  rw [List.take_append_of_le_length h]

end Sys2Proof.Machine
end

