-- ==== Sys2Proof/Laws/State.lean ====
section
/-! SUPPORT. What each update of one field leaves unchanged: one lemma for each update and each other field of the state, true by definition. -/

namespace Sys2Proof.Machine

/-! ### State.setObj -/

@[simp] theorem State.setObj_pending (s : State) (index sub elem v : Nat) : (s.setObj index sub elem v).pending = s.pending := rfl
@[simp] theorem State.setObj_sent (s : State) (index sub elem v : Nat) : (s.setObj index sub elem v).sent = s.sent := rfl
@[simp] theorem State.setObj_fresh (s : State) (index sub elem v : Nat) : (s.setObj index sub elem v).fresh = s.fresh := rfl
@[simp] theorem State.setObj_tide (s : State) (index sub elem v : Nat) : (s.setObj index sub elem v).tide = s.tide := rfl
@[simp] theorem State.setObj_elapsed (s : State) (index sub elem v : Nat) : (s.setObj index sub elem v).elapsed = s.elapsed := rfl
@[simp] theorem State.setObj_device (s : State) (index sub elem v : Nat) : (s.setObj index sub elem v).device = s.device := rfl
@[simp] theorem State.setObj_bamurn (s : State) (index sub elem v : Nat) : (s.setObj index sub elem v).bamurn = s.bamurn := rfl
@[simp] theorem State.setObj_floor (s : State) (index sub elem v : Nat) : (s.setObj index sub elem v).floor = s.floor := rfl
@[simp] theorem State.setObj_cfgs (s : State) (index sub elem v : Nat) : (s.setObj index sub elem v).cfgs = s.cfgs := rfl
@[simp] theorem State.setObj_tiles (s : State) (index sub elem v : Nat) : (s.setObj index sub elem v).tiles = s.tiles := rfl
@[simp] theorem State.setObj_jobs (s : State) (index sub elem v : Nat) : (s.setObj index sub elem v).jobs = s.jobs := rfl
@[simp] theorem State.setObj_latches (s : State) (index sub elem v : Nat) : (s.setObj index sub elem v).latches = s.latches := rfl
@[simp] theorem State.setObj_fills (s : State) (index sub elem v : Nat) : (s.setObj index sub elem v).fills = s.fills := rfl
@[simp] theorem State.setObj_hbmTags (s : State) (index sub elem v : Nat) : (s.setObj index sub elem v).hbmTags = s.hbmTags := rfl
@[simp] theorem State.setObj_ddrTags (s : State) (index sub elem v : Nat) : (s.setObj index sub elem v).ddrTags = s.ddrTags := rfl
@[simp] theorem State.setObj_experts (s : State) (index sub elem v : Nat) : (s.setObj index sub elem v).experts = s.experts := rfl
@[simp] theorem State.setObj_disps (s : State) (index sub elem v : Nat) : (s.setObj index sub elem v).disps = s.disps := rfl
@[simp] theorem State.setObj_ctxs (s : State) (index sub elem v : Nat) : (s.setObj index sub elem v).ctxs = s.ctxs := rfl
@[simp] theorem State.setObj_cached (s : State) (index sub elem v : Nat) : (s.setObj index sub elem v).cached = s.cached := rfl
@[simp] theorem State.setObj_pools (s : State) (index sub elem v : Nat) : (s.setObj index sub elem v).pools = s.pools := rfl
@[simp] theorem State.setObj_pagers (s : State) (index sub elem v : Nat) : (s.setObj index sub elem v).pagers = s.pagers := rfl
@[simp] theorem State.setObj_pinQueue (s : State) (index sub elem v : Nat) : (s.setObj index sub elem v).pinQueue = s.pinQueue := rfl
@[simp] theorem State.setObj_hbm (s : State) (index sub elem v : Nat) : (s.setObj index sub elem v).hbm = s.hbm := rfl
@[simp] theorem State.setObj_ddr (s : State) (index sub elem v : Nat) : (s.setObj index sub elem v).ddr = s.ddr := rfl
@[simp] theorem State.setObj_channels (s : State) (index sub elem v : Nat) : (s.setObj index sub elem v).channels = s.channels := rfl
@[simp] theorem State.setObj_spans (s : State) (index sub elem v : Nat) : (s.setObj index sub elem v).spans = s.spans := rfl
@[simp] theorem State.setObj_ports (s : State) (index sub elem v : Nat) : (s.setObj index sub elem v).ports = s.ports := rfl
@[simp] theorem State.setObj_topo (s : State) (index sub elem v : Nat) : (s.setObj index sub elem v).topo = s.topo := rfl
@[simp] theorem State.setObj_topoSeq (s : State) (index sub elem v : Nat) : (s.setObj index sub elem v).topoSeq = s.topoSeq := rfl
@[simp] theorem State.setObj_timeRoot (s : State) (index sub elem v : Nat) : (s.setObj index sub elem v).timeRoot = s.timeRoot := rfl
@[simp] theorem State.setObj_steady (s : State) (index sub elem v : Nat) : (s.setObj index sub elem v).steady = s.steady := rfl
@[simp] theorem State.setObj_wide (s : State) (index sub elem v : Nat) : (s.setObj index sub elem v).wide = s.wide := rfl
@[simp] theorem State.setObj_svcs (s : State) (index sub elem v : Nat) : (s.setObj index sub elem v).svcs = s.svcs := rfl
@[simp] theorem State.setObj_lens (s : State) (index sub elem v : Nat) : (s.setObj index sub elem v).lens = s.lens := rfl
@[simp] theorem State.setObj_closers (s : State) (index sub elem v : Nat) : (s.setObj index sub elem v).closers = s.closers := rfl
@[simp] theorem State.setObj_svcSeq (s : State) (index sub elem v : Nat) : (s.setObj index sub elem v).svcSeq = s.svcSeq := rfl
@[simp] theorem State.setObj_ucies (s : State) (index sub elem v : Nat) : (s.setObj index sub elem v).ucies = s.ucies := rfl
@[simp] theorem State.setObj_slopes (s : State) (index sub elem v : Nat) : (s.setObj index sub elem v).slopes = s.slopes := rfl
@[simp] theorem State.setObj_wakes (s : State) (index sub elem v : Nat) : (s.setObj index sub elem v).wakes = s.wakes := rfl
@[simp] theorem State.setObj_planeLatch (s : State) (index sub elem v : Nat) : (s.setObj index sub elem v).planeLatch = s.planeLatch := rfl
@[simp] theorem State.setObj_power (s : State) (index sub elem v : Nat) : (s.setObj index sub elem v).power = s.power := rfl
@[simp] theorem State.setObj_throttle (s : State) (index sub elem v : Nat) : (s.setObj index sub elem v).throttle = s.throttle := rfl
@[simp] theorem State.setObj_running (s : State) (index sub elem v : Nat) : (s.setObj index sub elem v).running = s.running := rfl
@[simp] theorem State.setObj_boot (s : State) (index sub elem v : Nat) : (s.setObj index sub elem v).boot = s.boot := rfl
@[simp] theorem State.setObj_faults (s : State) (index sub elem v : Nat) : (s.setObj index sub elem v).faults = s.faults := rfl
@[simp] theorem State.setObj_chunks (s : State) (index sub elem v : Nat) : (s.setObj index sub elem v).chunks = s.chunks := rfl
@[simp] theorem State.setObj_scour (s : State) (index sub elem v : Nat) : (s.setObj index sub elem v).scour = s.scour := rfl
@[simp] theorem State.setObj_ufrs (s : State) (index sub elem v : Nat) : (s.setObj index sub elem v).ufrs = s.ufrs := rfl
@[simp] theorem State.setObj_ufrKept (s : State) (index sub elem v : Nat) : (s.setObj index sub elem v).ufrKept = s.ufrKept := rfl
@[simp] theorem State.setObj_ufrShown (s : State) (index sub elem v : Nat) : (s.setObj index sub elem v).ufrShown = s.ufrShown := rfl
@[simp] theorem State.setObj_pkg (s : State) (index sub elem v : Nat) : (s.setObj index sub elem v).pkg = s.pkg := rfl
@[simp] theorem State.setObj_sec (s : State) (index sub elem v : Nat) : (s.setObj index sub elem v).sec = s.sec := rfl

/-! ### State.emit -/

@[simp] theorem State.emit_pending (s : State) (m : Msg) : (s.emit m).pending = s.pending := rfl
@[simp] theorem State.emit_fresh (s : State) (m : Msg) : (s.emit m).fresh = s.fresh := rfl
@[simp] theorem State.emit_tide (s : State) (m : Msg) : (s.emit m).tide = s.tide := rfl
@[simp] theorem State.emit_elapsed (s : State) (m : Msg) : (s.emit m).elapsed = s.elapsed := rfl
@[simp] theorem State.emit_regs (s : State) (m : Msg) : (s.emit m).regs = s.regs := rfl
@[simp] theorem State.emit_device (s : State) (m : Msg) : (s.emit m).device = s.device := rfl
@[simp] theorem State.emit_bamurn (s : State) (m : Msg) : (s.emit m).bamurn = s.bamurn := rfl
@[simp] theorem State.emit_floor (s : State) (m : Msg) : (s.emit m).floor = s.floor := rfl
@[simp] theorem State.emit_cfgs (s : State) (m : Msg) : (s.emit m).cfgs = s.cfgs := rfl
@[simp] theorem State.emit_tiles (s : State) (m : Msg) : (s.emit m).tiles = s.tiles := rfl
@[simp] theorem State.emit_jobs (s : State) (m : Msg) : (s.emit m).jobs = s.jobs := rfl
@[simp] theorem State.emit_latches (s : State) (m : Msg) : (s.emit m).latches = s.latches := rfl
@[simp] theorem State.emit_fills (s : State) (m : Msg) : (s.emit m).fills = s.fills := rfl
@[simp] theorem State.emit_hbmTags (s : State) (m : Msg) : (s.emit m).hbmTags = s.hbmTags := rfl
@[simp] theorem State.emit_ddrTags (s : State) (m : Msg) : (s.emit m).ddrTags = s.ddrTags := rfl
@[simp] theorem State.emit_experts (s : State) (m : Msg) : (s.emit m).experts = s.experts := rfl
@[simp] theorem State.emit_disps (s : State) (m : Msg) : (s.emit m).disps = s.disps := rfl
@[simp] theorem State.emit_ctxs (s : State) (m : Msg) : (s.emit m).ctxs = s.ctxs := rfl
@[simp] theorem State.emit_cached (s : State) (m : Msg) : (s.emit m).cached = s.cached := rfl
@[simp] theorem State.emit_pools (s : State) (m : Msg) : (s.emit m).pools = s.pools := rfl
@[simp] theorem State.emit_pagers (s : State) (m : Msg) : (s.emit m).pagers = s.pagers := rfl
@[simp] theorem State.emit_pinQueue (s : State) (m : Msg) : (s.emit m).pinQueue = s.pinQueue := rfl
@[simp] theorem State.emit_hbm (s : State) (m : Msg) : (s.emit m).hbm = s.hbm := rfl
@[simp] theorem State.emit_ddr (s : State) (m : Msg) : (s.emit m).ddr = s.ddr := rfl
@[simp] theorem State.emit_channels (s : State) (m : Msg) : (s.emit m).channels = s.channels := rfl
@[simp] theorem State.emit_spans (s : State) (m : Msg) : (s.emit m).spans = s.spans := rfl
@[simp] theorem State.emit_ports (s : State) (m : Msg) : (s.emit m).ports = s.ports := rfl
@[simp] theorem State.emit_topo (s : State) (m : Msg) : (s.emit m).topo = s.topo := rfl
@[simp] theorem State.emit_topoSeq (s : State) (m : Msg) : (s.emit m).topoSeq = s.topoSeq := rfl
@[simp] theorem State.emit_timeRoot (s : State) (m : Msg) : (s.emit m).timeRoot = s.timeRoot := rfl
@[simp] theorem State.emit_steady (s : State) (m : Msg) : (s.emit m).steady = s.steady := rfl
@[simp] theorem State.emit_wide (s : State) (m : Msg) : (s.emit m).wide = s.wide := rfl
@[simp] theorem State.emit_svcs (s : State) (m : Msg) : (s.emit m).svcs = s.svcs := rfl
@[simp] theorem State.emit_lens (s : State) (m : Msg) : (s.emit m).lens = s.lens := rfl
@[simp] theorem State.emit_closers (s : State) (m : Msg) : (s.emit m).closers = s.closers := rfl
@[simp] theorem State.emit_svcSeq (s : State) (m : Msg) : (s.emit m).svcSeq = s.svcSeq := rfl
@[simp] theorem State.emit_ucies (s : State) (m : Msg) : (s.emit m).ucies = s.ucies := rfl
@[simp] theorem State.emit_slopes (s : State) (m : Msg) : (s.emit m).slopes = s.slopes := rfl
@[simp] theorem State.emit_wakes (s : State) (m : Msg) : (s.emit m).wakes = s.wakes := rfl
@[simp] theorem State.emit_planeLatch (s : State) (m : Msg) : (s.emit m).planeLatch = s.planeLatch := rfl
@[simp] theorem State.emit_power (s : State) (m : Msg) : (s.emit m).power = s.power := rfl
@[simp] theorem State.emit_throttle (s : State) (m : Msg) : (s.emit m).throttle = s.throttle := rfl
@[simp] theorem State.emit_running (s : State) (m : Msg) : (s.emit m).running = s.running := rfl
@[simp] theorem State.emit_boot (s : State) (m : Msg) : (s.emit m).boot = s.boot := rfl
@[simp] theorem State.emit_faults (s : State) (m : Msg) : (s.emit m).faults = s.faults := rfl
@[simp] theorem State.emit_chunks (s : State) (m : Msg) : (s.emit m).chunks = s.chunks := rfl
@[simp] theorem State.emit_scour (s : State) (m : Msg) : (s.emit m).scour = s.scour := rfl
@[simp] theorem State.emit_ufrs (s : State) (m : Msg) : (s.emit m).ufrs = s.ufrs := rfl
@[simp] theorem State.emit_ufrKept (s : State) (m : Msg) : (s.emit m).ufrKept = s.ufrKept := rfl
@[simp] theorem State.emit_ufrShown (s : State) (m : Msg) : (s.emit m).ufrShown = s.ufrShown := rfl
@[simp] theorem State.emit_pkg (s : State) (m : Msg) : (s.emit m).pkg = s.pkg := rfl
@[simp] theorem State.emit_sec (s : State) (m : Msg) : (s.emit m).sec = s.sec := rfl

/-! ### State.count -/

@[simp] theorem State.count_pending (s : State) (index sub elem w d : Nat) : (s.count index sub elem w d).pending = s.pending := rfl
@[simp] theorem State.count_sent (s : State) (index sub elem w d : Nat) : (s.count index sub elem w d).sent = s.sent := rfl
@[simp] theorem State.count_fresh (s : State) (index sub elem w d : Nat) : (s.count index sub elem w d).fresh = s.fresh := rfl
@[simp] theorem State.count_tide (s : State) (index sub elem w d : Nat) : (s.count index sub elem w d).tide = s.tide := rfl
@[simp] theorem State.count_elapsed (s : State) (index sub elem w d : Nat) : (s.count index sub elem w d).elapsed = s.elapsed := rfl
@[simp] theorem State.count_device (s : State) (index sub elem w d : Nat) : (s.count index sub elem w d).device = s.device := rfl
@[simp] theorem State.count_bamurn (s : State) (index sub elem w d : Nat) : (s.count index sub elem w d).bamurn = s.bamurn := rfl
@[simp] theorem State.count_floor (s : State) (index sub elem w d : Nat) : (s.count index sub elem w d).floor = s.floor := rfl
@[simp] theorem State.count_cfgs (s : State) (index sub elem w d : Nat) : (s.count index sub elem w d).cfgs = s.cfgs := rfl
@[simp] theorem State.count_tiles (s : State) (index sub elem w d : Nat) : (s.count index sub elem w d).tiles = s.tiles := rfl
@[simp] theorem State.count_jobs (s : State) (index sub elem w d : Nat) : (s.count index sub elem w d).jobs = s.jobs := rfl
@[simp] theorem State.count_latches (s : State) (index sub elem w d : Nat) : (s.count index sub elem w d).latches = s.latches := rfl
@[simp] theorem State.count_fills (s : State) (index sub elem w d : Nat) : (s.count index sub elem w d).fills = s.fills := rfl
@[simp] theorem State.count_hbmTags (s : State) (index sub elem w d : Nat) : (s.count index sub elem w d).hbmTags = s.hbmTags := rfl
@[simp] theorem State.count_ddrTags (s : State) (index sub elem w d : Nat) : (s.count index sub elem w d).ddrTags = s.ddrTags := rfl
@[simp] theorem State.count_experts (s : State) (index sub elem w d : Nat) : (s.count index sub elem w d).experts = s.experts := rfl
@[simp] theorem State.count_disps (s : State) (index sub elem w d : Nat) : (s.count index sub elem w d).disps = s.disps := rfl
@[simp] theorem State.count_ctxs (s : State) (index sub elem w d : Nat) : (s.count index sub elem w d).ctxs = s.ctxs := rfl
@[simp] theorem State.count_cached (s : State) (index sub elem w d : Nat) : (s.count index sub elem w d).cached = s.cached := rfl
@[simp] theorem State.count_pools (s : State) (index sub elem w d : Nat) : (s.count index sub elem w d).pools = s.pools := rfl
@[simp] theorem State.count_pagers (s : State) (index sub elem w d : Nat) : (s.count index sub elem w d).pagers = s.pagers := rfl
@[simp] theorem State.count_pinQueue (s : State) (index sub elem w d : Nat) : (s.count index sub elem w d).pinQueue = s.pinQueue := rfl
@[simp] theorem State.count_hbm (s : State) (index sub elem w d : Nat) : (s.count index sub elem w d).hbm = s.hbm := rfl
@[simp] theorem State.count_ddr (s : State) (index sub elem w d : Nat) : (s.count index sub elem w d).ddr = s.ddr := rfl
@[simp] theorem State.count_channels (s : State) (index sub elem w d : Nat) : (s.count index sub elem w d).channels = s.channels := rfl
@[simp] theorem State.count_spans (s : State) (index sub elem w d : Nat) : (s.count index sub elem w d).spans = s.spans := rfl
@[simp] theorem State.count_ports (s : State) (index sub elem w d : Nat) : (s.count index sub elem w d).ports = s.ports := rfl
@[simp] theorem State.count_topo (s : State) (index sub elem w d : Nat) : (s.count index sub elem w d).topo = s.topo := rfl
@[simp] theorem State.count_topoSeq (s : State) (index sub elem w d : Nat) : (s.count index sub elem w d).topoSeq = s.topoSeq := rfl
@[simp] theorem State.count_timeRoot (s : State) (index sub elem w d : Nat) : (s.count index sub elem w d).timeRoot = s.timeRoot := rfl
@[simp] theorem State.count_steady (s : State) (index sub elem w d : Nat) : (s.count index sub elem w d).steady = s.steady := rfl
@[simp] theorem State.count_wide (s : State) (index sub elem w d : Nat) : (s.count index sub elem w d).wide = s.wide := rfl
@[simp] theorem State.count_svcs (s : State) (index sub elem w d : Nat) : (s.count index sub elem w d).svcs = s.svcs := rfl
@[simp] theorem State.count_lens (s : State) (index sub elem w d : Nat) : (s.count index sub elem w d).lens = s.lens := rfl
@[simp] theorem State.count_closers (s : State) (index sub elem w d : Nat) : (s.count index sub elem w d).closers = s.closers := rfl
@[simp] theorem State.count_svcSeq (s : State) (index sub elem w d : Nat) : (s.count index sub elem w d).svcSeq = s.svcSeq := rfl
@[simp] theorem State.count_ucies (s : State) (index sub elem w d : Nat) : (s.count index sub elem w d).ucies = s.ucies := rfl
@[simp] theorem State.count_slopes (s : State) (index sub elem w d : Nat) : (s.count index sub elem w d).slopes = s.slopes := rfl
@[simp] theorem State.count_wakes (s : State) (index sub elem w d : Nat) : (s.count index sub elem w d).wakes = s.wakes := rfl
@[simp] theorem State.count_planeLatch (s : State) (index sub elem w d : Nat) : (s.count index sub elem w d).planeLatch = s.planeLatch := rfl
@[simp] theorem State.count_power (s : State) (index sub elem w d : Nat) : (s.count index sub elem w d).power = s.power := rfl
@[simp] theorem State.count_throttle (s : State) (index sub elem w d : Nat) : (s.count index sub elem w d).throttle = s.throttle := rfl
@[simp] theorem State.count_running (s : State) (index sub elem w d : Nat) : (s.count index sub elem w d).running = s.running := rfl
@[simp] theorem State.count_boot (s : State) (index sub elem w d : Nat) : (s.count index sub elem w d).boot = s.boot := rfl
@[simp] theorem State.count_faults (s : State) (index sub elem w d : Nat) : (s.count index sub elem w d).faults = s.faults := rfl
@[simp] theorem State.count_chunks (s : State) (index sub elem w d : Nat) : (s.count index sub elem w d).chunks = s.chunks := rfl
@[simp] theorem State.count_scour (s : State) (index sub elem w d : Nat) : (s.count index sub elem w d).scour = s.scour := rfl
@[simp] theorem State.count_ufrs (s : State) (index sub elem w d : Nat) : (s.count index sub elem w d).ufrs = s.ufrs := rfl
@[simp] theorem State.count_ufrKept (s : State) (index sub elem w d : Nat) : (s.count index sub elem w d).ufrKept = s.ufrKept := rfl
@[simp] theorem State.count_ufrShown (s : State) (index sub elem w d : Nat) : (s.count index sub elem w d).ufrShown = s.ufrShown := rfl
@[simp] theorem State.count_pkg (s : State) (index sub elem w d : Nat) : (s.count index sub elem w d).pkg = s.pkg := rfl
@[simp] theorem State.count_sec (s : State) (index sub elem w d : Nat) : (s.count index sub elem w d).sec = s.sec := rfl

/-! ### State.setTile -/

@[simp] theorem State.setTile_pending (s : State) (n : Nat) (x : Tile) : (s.setTile n x).pending = s.pending := rfl
@[simp] theorem State.setTile_sent (s : State) (n : Nat) (x : Tile) : (s.setTile n x).sent = s.sent := rfl
@[simp] theorem State.setTile_fresh (s : State) (n : Nat) (x : Tile) : (s.setTile n x).fresh = s.fresh := rfl
@[simp] theorem State.setTile_tide (s : State) (n : Nat) (x : Tile) : (s.setTile n x).tide = s.tide := rfl
@[simp] theorem State.setTile_elapsed (s : State) (n : Nat) (x : Tile) : (s.setTile n x).elapsed = s.elapsed := rfl
@[simp] theorem State.setTile_regs (s : State) (n : Nat) (x : Tile) : (s.setTile n x).regs = s.regs := rfl
@[simp] theorem State.setTile_device (s : State) (n : Nat) (x : Tile) : (s.setTile n x).device = s.device := rfl
@[simp] theorem State.setTile_bamurn (s : State) (n : Nat) (x : Tile) : (s.setTile n x).bamurn = s.bamurn := rfl
@[simp] theorem State.setTile_floor (s : State) (n : Nat) (x : Tile) : (s.setTile n x).floor = s.floor := rfl
@[simp] theorem State.setTile_cfgs (s : State) (n : Nat) (x : Tile) : (s.setTile n x).cfgs = s.cfgs := rfl
@[simp] theorem State.setTile_jobs (s : State) (n : Nat) (x : Tile) : (s.setTile n x).jobs = s.jobs := rfl
@[simp] theorem State.setTile_latches (s : State) (n : Nat) (x : Tile) : (s.setTile n x).latches = s.latches := rfl
@[simp] theorem State.setTile_fills (s : State) (n : Nat) (x : Tile) : (s.setTile n x).fills = s.fills := rfl
@[simp] theorem State.setTile_hbmTags (s : State) (n : Nat) (x : Tile) : (s.setTile n x).hbmTags = s.hbmTags := rfl
@[simp] theorem State.setTile_ddrTags (s : State) (n : Nat) (x : Tile) : (s.setTile n x).ddrTags = s.ddrTags := rfl
@[simp] theorem State.setTile_experts (s : State) (n : Nat) (x : Tile) : (s.setTile n x).experts = s.experts := rfl
@[simp] theorem State.setTile_disps (s : State) (n : Nat) (x : Tile) : (s.setTile n x).disps = s.disps := rfl
@[simp] theorem State.setTile_ctxs (s : State) (n : Nat) (x : Tile) : (s.setTile n x).ctxs = s.ctxs := rfl
@[simp] theorem State.setTile_cached (s : State) (n : Nat) (x : Tile) : (s.setTile n x).cached = s.cached := rfl
@[simp] theorem State.setTile_pools (s : State) (n : Nat) (x : Tile) : (s.setTile n x).pools = s.pools := rfl
@[simp] theorem State.setTile_pagers (s : State) (n : Nat) (x : Tile) : (s.setTile n x).pagers = s.pagers := rfl
@[simp] theorem State.setTile_pinQueue (s : State) (n : Nat) (x : Tile) : (s.setTile n x).pinQueue = s.pinQueue := rfl
@[simp] theorem State.setTile_hbm (s : State) (n : Nat) (x : Tile) : (s.setTile n x).hbm = s.hbm := rfl
@[simp] theorem State.setTile_ddr (s : State) (n : Nat) (x : Tile) : (s.setTile n x).ddr = s.ddr := rfl
@[simp] theorem State.setTile_channels (s : State) (n : Nat) (x : Tile) : (s.setTile n x).channels = s.channels := rfl
@[simp] theorem State.setTile_spans (s : State) (n : Nat) (x : Tile) : (s.setTile n x).spans = s.spans := rfl
@[simp] theorem State.setTile_ports (s : State) (n : Nat) (x : Tile) : (s.setTile n x).ports = s.ports := rfl
@[simp] theorem State.setTile_topo (s : State) (n : Nat) (x : Tile) : (s.setTile n x).topo = s.topo := rfl
@[simp] theorem State.setTile_topoSeq (s : State) (n : Nat) (x : Tile) : (s.setTile n x).topoSeq = s.topoSeq := rfl
@[simp] theorem State.setTile_timeRoot (s : State) (n : Nat) (x : Tile) : (s.setTile n x).timeRoot = s.timeRoot := rfl
@[simp] theorem State.setTile_steady (s : State) (n : Nat) (x : Tile) : (s.setTile n x).steady = s.steady := rfl
@[simp] theorem State.setTile_wide (s : State) (n : Nat) (x : Tile) : (s.setTile n x).wide = s.wide := rfl
@[simp] theorem State.setTile_svcs (s : State) (n : Nat) (x : Tile) : (s.setTile n x).svcs = s.svcs := rfl
@[simp] theorem State.setTile_lens (s : State) (n : Nat) (x : Tile) : (s.setTile n x).lens = s.lens := rfl
@[simp] theorem State.setTile_closers (s : State) (n : Nat) (x : Tile) : (s.setTile n x).closers = s.closers := rfl
@[simp] theorem State.setTile_svcSeq (s : State) (n : Nat) (x : Tile) : (s.setTile n x).svcSeq = s.svcSeq := rfl
@[simp] theorem State.setTile_ucies (s : State) (n : Nat) (x : Tile) : (s.setTile n x).ucies = s.ucies := rfl
@[simp] theorem State.setTile_slopes (s : State) (n : Nat) (x : Tile) : (s.setTile n x).slopes = s.slopes := rfl
@[simp] theorem State.setTile_wakes (s : State) (n : Nat) (x : Tile) : (s.setTile n x).wakes = s.wakes := rfl
@[simp] theorem State.setTile_planeLatch (s : State) (n : Nat) (x : Tile) : (s.setTile n x).planeLatch = s.planeLatch := rfl
@[simp] theorem State.setTile_power (s : State) (n : Nat) (x : Tile) : (s.setTile n x).power = s.power := rfl
@[simp] theorem State.setTile_throttle (s : State) (n : Nat) (x : Tile) : (s.setTile n x).throttle = s.throttle := rfl
@[simp] theorem State.setTile_running (s : State) (n : Nat) (x : Tile) : (s.setTile n x).running = s.running := rfl
@[simp] theorem State.setTile_boot (s : State) (n : Nat) (x : Tile) : (s.setTile n x).boot = s.boot := rfl
@[simp] theorem State.setTile_faults (s : State) (n : Nat) (x : Tile) : (s.setTile n x).faults = s.faults := rfl
@[simp] theorem State.setTile_chunks (s : State) (n : Nat) (x : Tile) : (s.setTile n x).chunks = s.chunks := rfl
@[simp] theorem State.setTile_scour (s : State) (n : Nat) (x : Tile) : (s.setTile n x).scour = s.scour := rfl
@[simp] theorem State.setTile_ufrs (s : State) (n : Nat) (x : Tile) : (s.setTile n x).ufrs = s.ufrs := rfl
@[simp] theorem State.setTile_ufrKept (s : State) (n : Nat) (x : Tile) : (s.setTile n x).ufrKept = s.ufrKept := rfl
@[simp] theorem State.setTile_ufrShown (s : State) (n : Nat) (x : Tile) : (s.setTile n x).ufrShown = s.ufrShown := rfl
@[simp] theorem State.setTile_pkg (s : State) (n : Nat) (x : Tile) : (s.setTile n x).pkg = s.pkg := rfl
@[simp] theorem State.setTile_sec (s : State) (n : Nat) (x : Tile) : (s.setTile n x).sec = s.sec := rfl

/-! ### State.modTile -/

@[simp] theorem State.modTile_pending (s : State) (n : Nat) (f : Tile → Tile) : (s.modTile n f).pending = s.pending := rfl
@[simp] theorem State.modTile_sent (s : State) (n : Nat) (f : Tile → Tile) : (s.modTile n f).sent = s.sent := rfl
@[simp] theorem State.modTile_fresh (s : State) (n : Nat) (f : Tile → Tile) : (s.modTile n f).fresh = s.fresh := rfl
@[simp] theorem State.modTile_tide (s : State) (n : Nat) (f : Tile → Tile) : (s.modTile n f).tide = s.tide := rfl
@[simp] theorem State.modTile_elapsed (s : State) (n : Nat) (f : Tile → Tile) : (s.modTile n f).elapsed = s.elapsed := rfl
@[simp] theorem State.modTile_regs (s : State) (n : Nat) (f : Tile → Tile) : (s.modTile n f).regs = s.regs := rfl
@[simp] theorem State.modTile_device (s : State) (n : Nat) (f : Tile → Tile) : (s.modTile n f).device = s.device := rfl
@[simp] theorem State.modTile_bamurn (s : State) (n : Nat) (f : Tile → Tile) : (s.modTile n f).bamurn = s.bamurn := rfl
@[simp] theorem State.modTile_floor (s : State) (n : Nat) (f : Tile → Tile) : (s.modTile n f).floor = s.floor := rfl
@[simp] theorem State.modTile_cfgs (s : State) (n : Nat) (f : Tile → Tile) : (s.modTile n f).cfgs = s.cfgs := rfl
@[simp] theorem State.modTile_jobs (s : State) (n : Nat) (f : Tile → Tile) : (s.modTile n f).jobs = s.jobs := rfl
@[simp] theorem State.modTile_latches (s : State) (n : Nat) (f : Tile → Tile) : (s.modTile n f).latches = s.latches := rfl
@[simp] theorem State.modTile_fills (s : State) (n : Nat) (f : Tile → Tile) : (s.modTile n f).fills = s.fills := rfl
@[simp] theorem State.modTile_hbmTags (s : State) (n : Nat) (f : Tile → Tile) : (s.modTile n f).hbmTags = s.hbmTags := rfl
@[simp] theorem State.modTile_ddrTags (s : State) (n : Nat) (f : Tile → Tile) : (s.modTile n f).ddrTags = s.ddrTags := rfl
@[simp] theorem State.modTile_experts (s : State) (n : Nat) (f : Tile → Tile) : (s.modTile n f).experts = s.experts := rfl
@[simp] theorem State.modTile_disps (s : State) (n : Nat) (f : Tile → Tile) : (s.modTile n f).disps = s.disps := rfl
@[simp] theorem State.modTile_ctxs (s : State) (n : Nat) (f : Tile → Tile) : (s.modTile n f).ctxs = s.ctxs := rfl
@[simp] theorem State.modTile_cached (s : State) (n : Nat) (f : Tile → Tile) : (s.modTile n f).cached = s.cached := rfl
@[simp] theorem State.modTile_pools (s : State) (n : Nat) (f : Tile → Tile) : (s.modTile n f).pools = s.pools := rfl
@[simp] theorem State.modTile_pagers (s : State) (n : Nat) (f : Tile → Tile) : (s.modTile n f).pagers = s.pagers := rfl
@[simp] theorem State.modTile_pinQueue (s : State) (n : Nat) (f : Tile → Tile) : (s.modTile n f).pinQueue = s.pinQueue := rfl
@[simp] theorem State.modTile_hbm (s : State) (n : Nat) (f : Tile → Tile) : (s.modTile n f).hbm = s.hbm := rfl
@[simp] theorem State.modTile_ddr (s : State) (n : Nat) (f : Tile → Tile) : (s.modTile n f).ddr = s.ddr := rfl
@[simp] theorem State.modTile_channels (s : State) (n : Nat) (f : Tile → Tile) : (s.modTile n f).channels = s.channels := rfl
@[simp] theorem State.modTile_spans (s : State) (n : Nat) (f : Tile → Tile) : (s.modTile n f).spans = s.spans := rfl
@[simp] theorem State.modTile_ports (s : State) (n : Nat) (f : Tile → Tile) : (s.modTile n f).ports = s.ports := rfl
@[simp] theorem State.modTile_topo (s : State) (n : Nat) (f : Tile → Tile) : (s.modTile n f).topo = s.topo := rfl
@[simp] theorem State.modTile_topoSeq (s : State) (n : Nat) (f : Tile → Tile) : (s.modTile n f).topoSeq = s.topoSeq := rfl
@[simp] theorem State.modTile_timeRoot (s : State) (n : Nat) (f : Tile → Tile) : (s.modTile n f).timeRoot = s.timeRoot := rfl
@[simp] theorem State.modTile_steady (s : State) (n : Nat) (f : Tile → Tile) : (s.modTile n f).steady = s.steady := rfl
@[simp] theorem State.modTile_wide (s : State) (n : Nat) (f : Tile → Tile) : (s.modTile n f).wide = s.wide := rfl
@[simp] theorem State.modTile_svcs (s : State) (n : Nat) (f : Tile → Tile) : (s.modTile n f).svcs = s.svcs := rfl
@[simp] theorem State.modTile_lens (s : State) (n : Nat) (f : Tile → Tile) : (s.modTile n f).lens = s.lens := rfl
@[simp] theorem State.modTile_closers (s : State) (n : Nat) (f : Tile → Tile) : (s.modTile n f).closers = s.closers := rfl
@[simp] theorem State.modTile_svcSeq (s : State) (n : Nat) (f : Tile → Tile) : (s.modTile n f).svcSeq = s.svcSeq := rfl
@[simp] theorem State.modTile_ucies (s : State) (n : Nat) (f : Tile → Tile) : (s.modTile n f).ucies = s.ucies := rfl
@[simp] theorem State.modTile_slopes (s : State) (n : Nat) (f : Tile → Tile) : (s.modTile n f).slopes = s.slopes := rfl
@[simp] theorem State.modTile_wakes (s : State) (n : Nat) (f : Tile → Tile) : (s.modTile n f).wakes = s.wakes := rfl
@[simp] theorem State.modTile_planeLatch (s : State) (n : Nat) (f : Tile → Tile) : (s.modTile n f).planeLatch = s.planeLatch := rfl
@[simp] theorem State.modTile_power (s : State) (n : Nat) (f : Tile → Tile) : (s.modTile n f).power = s.power := rfl
@[simp] theorem State.modTile_throttle (s : State) (n : Nat) (f : Tile → Tile) : (s.modTile n f).throttle = s.throttle := rfl
@[simp] theorem State.modTile_running (s : State) (n : Nat) (f : Tile → Tile) : (s.modTile n f).running = s.running := rfl
@[simp] theorem State.modTile_boot (s : State) (n : Nat) (f : Tile → Tile) : (s.modTile n f).boot = s.boot := rfl
@[simp] theorem State.modTile_faults (s : State) (n : Nat) (f : Tile → Tile) : (s.modTile n f).faults = s.faults := rfl
@[simp] theorem State.modTile_chunks (s : State) (n : Nat) (f : Tile → Tile) : (s.modTile n f).chunks = s.chunks := rfl
@[simp] theorem State.modTile_scour (s : State) (n : Nat) (f : Tile → Tile) : (s.modTile n f).scour = s.scour := rfl
@[simp] theorem State.modTile_ufrs (s : State) (n : Nat) (f : Tile → Tile) : (s.modTile n f).ufrs = s.ufrs := rfl
@[simp] theorem State.modTile_ufrKept (s : State) (n : Nat) (f : Tile → Tile) : (s.modTile n f).ufrKept = s.ufrKept := rfl
@[simp] theorem State.modTile_ufrShown (s : State) (n : Nat) (f : Tile → Tile) : (s.modTile n f).ufrShown = s.ufrShown := rfl
@[simp] theorem State.modTile_pkg (s : State) (n : Nat) (f : Tile → Tile) : (s.modTile n f).pkg = s.pkg := rfl
@[simp] theorem State.modTile_sec (s : State) (n : Nat) (f : Tile → Tile) : (s.modTile n f).sec = s.sec := rfl

/-! ### State.modGau -/

@[simp] theorem State.modGau_pending (s : State) (n : Nat) (f : GaugeUnit → GaugeUnit) : (s.modGau n f).pending = s.pending := rfl
@[simp] theorem State.modGau_sent (s : State) (n : Nat) (f : GaugeUnit → GaugeUnit) : (s.modGau n f).sent = s.sent := rfl
@[simp] theorem State.modGau_fresh (s : State) (n : Nat) (f : GaugeUnit → GaugeUnit) : (s.modGau n f).fresh = s.fresh := rfl
@[simp] theorem State.modGau_tide (s : State) (n : Nat) (f : GaugeUnit → GaugeUnit) : (s.modGau n f).tide = s.tide := rfl
@[simp] theorem State.modGau_elapsed (s : State) (n : Nat) (f : GaugeUnit → GaugeUnit) : (s.modGau n f).elapsed = s.elapsed := rfl
@[simp] theorem State.modGau_regs (s : State) (n : Nat) (f : GaugeUnit → GaugeUnit) : (s.modGau n f).regs = s.regs := rfl
@[simp] theorem State.modGau_device (s : State) (n : Nat) (f : GaugeUnit → GaugeUnit) : (s.modGau n f).device = s.device := rfl
@[simp] theorem State.modGau_bamurn (s : State) (n : Nat) (f : GaugeUnit → GaugeUnit) : (s.modGau n f).bamurn = s.bamurn := rfl
@[simp] theorem State.modGau_floor (s : State) (n : Nat) (f : GaugeUnit → GaugeUnit) : (s.modGau n f).floor = s.floor := rfl
@[simp] theorem State.modGau_cfgs (s : State) (n : Nat) (f : GaugeUnit → GaugeUnit) : (s.modGau n f).cfgs = s.cfgs := rfl
@[simp] theorem State.modGau_jobs (s : State) (n : Nat) (f : GaugeUnit → GaugeUnit) : (s.modGau n f).jobs = s.jobs := rfl
@[simp] theorem State.modGau_latches (s : State) (n : Nat) (f : GaugeUnit → GaugeUnit) : (s.modGau n f).latches = s.latches := rfl
@[simp] theorem State.modGau_fills (s : State) (n : Nat) (f : GaugeUnit → GaugeUnit) : (s.modGau n f).fills = s.fills := rfl
@[simp] theorem State.modGau_hbmTags (s : State) (n : Nat) (f : GaugeUnit → GaugeUnit) : (s.modGau n f).hbmTags = s.hbmTags := rfl
@[simp] theorem State.modGau_ddrTags (s : State) (n : Nat) (f : GaugeUnit → GaugeUnit) : (s.modGau n f).ddrTags = s.ddrTags := rfl
@[simp] theorem State.modGau_experts (s : State) (n : Nat) (f : GaugeUnit → GaugeUnit) : (s.modGau n f).experts = s.experts := rfl
@[simp] theorem State.modGau_disps (s : State) (n : Nat) (f : GaugeUnit → GaugeUnit) : (s.modGau n f).disps = s.disps := rfl
@[simp] theorem State.modGau_ctxs (s : State) (n : Nat) (f : GaugeUnit → GaugeUnit) : (s.modGau n f).ctxs = s.ctxs := rfl
@[simp] theorem State.modGau_cached (s : State) (n : Nat) (f : GaugeUnit → GaugeUnit) : (s.modGau n f).cached = s.cached := rfl
@[simp] theorem State.modGau_pools (s : State) (n : Nat) (f : GaugeUnit → GaugeUnit) : (s.modGau n f).pools = s.pools := rfl
@[simp] theorem State.modGau_pagers (s : State) (n : Nat) (f : GaugeUnit → GaugeUnit) : (s.modGau n f).pagers = s.pagers := rfl
@[simp] theorem State.modGau_pinQueue (s : State) (n : Nat) (f : GaugeUnit → GaugeUnit) : (s.modGau n f).pinQueue = s.pinQueue := rfl
@[simp] theorem State.modGau_hbm (s : State) (n : Nat) (f : GaugeUnit → GaugeUnit) : (s.modGau n f).hbm = s.hbm := rfl
@[simp] theorem State.modGau_ddr (s : State) (n : Nat) (f : GaugeUnit → GaugeUnit) : (s.modGau n f).ddr = s.ddr := rfl
@[simp] theorem State.modGau_channels (s : State) (n : Nat) (f : GaugeUnit → GaugeUnit) : (s.modGau n f).channels = s.channels := rfl
@[simp] theorem State.modGau_spans (s : State) (n : Nat) (f : GaugeUnit → GaugeUnit) : (s.modGau n f).spans = s.spans := rfl
@[simp] theorem State.modGau_ports (s : State) (n : Nat) (f : GaugeUnit → GaugeUnit) : (s.modGau n f).ports = s.ports := rfl
@[simp] theorem State.modGau_topo (s : State) (n : Nat) (f : GaugeUnit → GaugeUnit) : (s.modGau n f).topo = s.topo := rfl
@[simp] theorem State.modGau_topoSeq (s : State) (n : Nat) (f : GaugeUnit → GaugeUnit) : (s.modGau n f).topoSeq = s.topoSeq := rfl
@[simp] theorem State.modGau_timeRoot (s : State) (n : Nat) (f : GaugeUnit → GaugeUnit) : (s.modGau n f).timeRoot = s.timeRoot := rfl
@[simp] theorem State.modGau_steady (s : State) (n : Nat) (f : GaugeUnit → GaugeUnit) : (s.modGau n f).steady = s.steady := rfl
@[simp] theorem State.modGau_wide (s : State) (n : Nat) (f : GaugeUnit → GaugeUnit) : (s.modGau n f).wide = s.wide := rfl
@[simp] theorem State.modGau_svcs (s : State) (n : Nat) (f : GaugeUnit → GaugeUnit) : (s.modGau n f).svcs = s.svcs := rfl
@[simp] theorem State.modGau_lens (s : State) (n : Nat) (f : GaugeUnit → GaugeUnit) : (s.modGau n f).lens = s.lens := rfl
@[simp] theorem State.modGau_closers (s : State) (n : Nat) (f : GaugeUnit → GaugeUnit) : (s.modGau n f).closers = s.closers := rfl
@[simp] theorem State.modGau_svcSeq (s : State) (n : Nat) (f : GaugeUnit → GaugeUnit) : (s.modGau n f).svcSeq = s.svcSeq := rfl
@[simp] theorem State.modGau_ucies (s : State) (n : Nat) (f : GaugeUnit → GaugeUnit) : (s.modGau n f).ucies = s.ucies := rfl
@[simp] theorem State.modGau_slopes (s : State) (n : Nat) (f : GaugeUnit → GaugeUnit) : (s.modGau n f).slopes = s.slopes := rfl
@[simp] theorem State.modGau_wakes (s : State) (n : Nat) (f : GaugeUnit → GaugeUnit) : (s.modGau n f).wakes = s.wakes := rfl
@[simp] theorem State.modGau_planeLatch (s : State) (n : Nat) (f : GaugeUnit → GaugeUnit) : (s.modGau n f).planeLatch = s.planeLatch := rfl
@[simp] theorem State.modGau_power (s : State) (n : Nat) (f : GaugeUnit → GaugeUnit) : (s.modGau n f).power = s.power := rfl
@[simp] theorem State.modGau_throttle (s : State) (n : Nat) (f : GaugeUnit → GaugeUnit) : (s.modGau n f).throttle = s.throttle := rfl
@[simp] theorem State.modGau_running (s : State) (n : Nat) (f : GaugeUnit → GaugeUnit) : (s.modGau n f).running = s.running := rfl
@[simp] theorem State.modGau_boot (s : State) (n : Nat) (f : GaugeUnit → GaugeUnit) : (s.modGau n f).boot = s.boot := rfl
@[simp] theorem State.modGau_faults (s : State) (n : Nat) (f : GaugeUnit → GaugeUnit) : (s.modGau n f).faults = s.faults := rfl
@[simp] theorem State.modGau_chunks (s : State) (n : Nat) (f : GaugeUnit → GaugeUnit) : (s.modGau n f).chunks = s.chunks := rfl
@[simp] theorem State.modGau_scour (s : State) (n : Nat) (f : GaugeUnit → GaugeUnit) : (s.modGau n f).scour = s.scour := rfl
@[simp] theorem State.modGau_ufrs (s : State) (n : Nat) (f : GaugeUnit → GaugeUnit) : (s.modGau n f).ufrs = s.ufrs := rfl
@[simp] theorem State.modGau_ufrKept (s : State) (n : Nat) (f : GaugeUnit → GaugeUnit) : (s.modGau n f).ufrKept = s.ufrKept := rfl
@[simp] theorem State.modGau_ufrShown (s : State) (n : Nat) (f : GaugeUnit → GaugeUnit) : (s.modGau n f).ufrShown = s.ufrShown := rfl
@[simp] theorem State.modGau_pkg (s : State) (n : Nat) (f : GaugeUnit → GaugeUnit) : (s.modGau n f).pkg = s.pkg := rfl
@[simp] theorem State.modGau_sec (s : State) (n : Nat) (f : GaugeUnit → GaugeUnit) : (s.modGau n f).sec = s.sec := rfl

/-! ### State.setGauge -/

@[simp] theorem State.setGauge_pending (s : State) (n g : Nat) (v : Gauge) : (s.setGauge n g v).pending = s.pending := rfl
@[simp] theorem State.setGauge_sent (s : State) (n g : Nat) (v : Gauge) : (s.setGauge n g v).sent = s.sent := rfl
@[simp] theorem State.setGauge_fresh (s : State) (n g : Nat) (v : Gauge) : (s.setGauge n g v).fresh = s.fresh := rfl
@[simp] theorem State.setGauge_tide (s : State) (n g : Nat) (v : Gauge) : (s.setGauge n g v).tide = s.tide := rfl
@[simp] theorem State.setGauge_elapsed (s : State) (n g : Nat) (v : Gauge) : (s.setGauge n g v).elapsed = s.elapsed := rfl
@[simp] theorem State.setGauge_regs (s : State) (n g : Nat) (v : Gauge) : (s.setGauge n g v).regs = s.regs := rfl
@[simp] theorem State.setGauge_device (s : State) (n g : Nat) (v : Gauge) : (s.setGauge n g v).device = s.device := rfl
@[simp] theorem State.setGauge_bamurn (s : State) (n g : Nat) (v : Gauge) : (s.setGauge n g v).bamurn = s.bamurn := rfl
@[simp] theorem State.setGauge_floor (s : State) (n g : Nat) (v : Gauge) : (s.setGauge n g v).floor = s.floor := rfl
@[simp] theorem State.setGauge_cfgs (s : State) (n g : Nat) (v : Gauge) : (s.setGauge n g v).cfgs = s.cfgs := rfl
@[simp] theorem State.setGauge_jobs (s : State) (n g : Nat) (v : Gauge) : (s.setGauge n g v).jobs = s.jobs := rfl
@[simp] theorem State.setGauge_latches (s : State) (n g : Nat) (v : Gauge) : (s.setGauge n g v).latches = s.latches := rfl
@[simp] theorem State.setGauge_fills (s : State) (n g : Nat) (v : Gauge) : (s.setGauge n g v).fills = s.fills := rfl
@[simp] theorem State.setGauge_hbmTags (s : State) (n g : Nat) (v : Gauge) : (s.setGauge n g v).hbmTags = s.hbmTags := rfl
@[simp] theorem State.setGauge_ddrTags (s : State) (n g : Nat) (v : Gauge) : (s.setGauge n g v).ddrTags = s.ddrTags := rfl
@[simp] theorem State.setGauge_experts (s : State) (n g : Nat) (v : Gauge) : (s.setGauge n g v).experts = s.experts := rfl
@[simp] theorem State.setGauge_disps (s : State) (n g : Nat) (v : Gauge) : (s.setGauge n g v).disps = s.disps := rfl
@[simp] theorem State.setGauge_ctxs (s : State) (n g : Nat) (v : Gauge) : (s.setGauge n g v).ctxs = s.ctxs := rfl
@[simp] theorem State.setGauge_cached (s : State) (n g : Nat) (v : Gauge) : (s.setGauge n g v).cached = s.cached := rfl
@[simp] theorem State.setGauge_pools (s : State) (n g : Nat) (v : Gauge) : (s.setGauge n g v).pools = s.pools := rfl
@[simp] theorem State.setGauge_pagers (s : State) (n g : Nat) (v : Gauge) : (s.setGauge n g v).pagers = s.pagers := rfl
@[simp] theorem State.setGauge_pinQueue (s : State) (n g : Nat) (v : Gauge) : (s.setGauge n g v).pinQueue = s.pinQueue := rfl
@[simp] theorem State.setGauge_hbm (s : State) (n g : Nat) (v : Gauge) : (s.setGauge n g v).hbm = s.hbm := rfl
@[simp] theorem State.setGauge_ddr (s : State) (n g : Nat) (v : Gauge) : (s.setGauge n g v).ddr = s.ddr := rfl
@[simp] theorem State.setGauge_channels (s : State) (n g : Nat) (v : Gauge) : (s.setGauge n g v).channels = s.channels := rfl
@[simp] theorem State.setGauge_spans (s : State) (n g : Nat) (v : Gauge) : (s.setGauge n g v).spans = s.spans := rfl
@[simp] theorem State.setGauge_ports (s : State) (n g : Nat) (v : Gauge) : (s.setGauge n g v).ports = s.ports := rfl
@[simp] theorem State.setGauge_topo (s : State) (n g : Nat) (v : Gauge) : (s.setGauge n g v).topo = s.topo := rfl
@[simp] theorem State.setGauge_topoSeq (s : State) (n g : Nat) (v : Gauge) : (s.setGauge n g v).topoSeq = s.topoSeq := rfl
@[simp] theorem State.setGauge_timeRoot (s : State) (n g : Nat) (v : Gauge) : (s.setGauge n g v).timeRoot = s.timeRoot := rfl
@[simp] theorem State.setGauge_steady (s : State) (n g : Nat) (v : Gauge) : (s.setGauge n g v).steady = s.steady := rfl
@[simp] theorem State.setGauge_wide (s : State) (n g : Nat) (v : Gauge) : (s.setGauge n g v).wide = s.wide := rfl
@[simp] theorem State.setGauge_svcs (s : State) (n g : Nat) (v : Gauge) : (s.setGauge n g v).svcs = s.svcs := rfl
@[simp] theorem State.setGauge_lens (s : State) (n g : Nat) (v : Gauge) : (s.setGauge n g v).lens = s.lens := rfl
@[simp] theorem State.setGauge_closers (s : State) (n g : Nat) (v : Gauge) : (s.setGauge n g v).closers = s.closers := rfl
@[simp] theorem State.setGauge_svcSeq (s : State) (n g : Nat) (v : Gauge) : (s.setGauge n g v).svcSeq = s.svcSeq := rfl
@[simp] theorem State.setGauge_ucies (s : State) (n g : Nat) (v : Gauge) : (s.setGauge n g v).ucies = s.ucies := rfl
@[simp] theorem State.setGauge_slopes (s : State) (n g : Nat) (v : Gauge) : (s.setGauge n g v).slopes = s.slopes := rfl
@[simp] theorem State.setGauge_wakes (s : State) (n g : Nat) (v : Gauge) : (s.setGauge n g v).wakes = s.wakes := rfl
@[simp] theorem State.setGauge_planeLatch (s : State) (n g : Nat) (v : Gauge) : (s.setGauge n g v).planeLatch = s.planeLatch := rfl
@[simp] theorem State.setGauge_power (s : State) (n g : Nat) (v : Gauge) : (s.setGauge n g v).power = s.power := rfl
@[simp] theorem State.setGauge_throttle (s : State) (n g : Nat) (v : Gauge) : (s.setGauge n g v).throttle = s.throttle := rfl
@[simp] theorem State.setGauge_running (s : State) (n g : Nat) (v : Gauge) : (s.setGauge n g v).running = s.running := rfl
@[simp] theorem State.setGauge_boot (s : State) (n g : Nat) (v : Gauge) : (s.setGauge n g v).boot = s.boot := rfl
@[simp] theorem State.setGauge_faults (s : State) (n g : Nat) (v : Gauge) : (s.setGauge n g v).faults = s.faults := rfl
@[simp] theorem State.setGauge_chunks (s : State) (n g : Nat) (v : Gauge) : (s.setGauge n g v).chunks = s.chunks := rfl
@[simp] theorem State.setGauge_scour (s : State) (n g : Nat) (v : Gauge) : (s.setGauge n g v).scour = s.scour := rfl
@[simp] theorem State.setGauge_ufrs (s : State) (n g : Nat) (v : Gauge) : (s.setGauge n g v).ufrs = s.ufrs := rfl
@[simp] theorem State.setGauge_ufrKept (s : State) (n g : Nat) (v : Gauge) : (s.setGauge n g v).ufrKept = s.ufrKept := rfl
@[simp] theorem State.setGauge_ufrShown (s : State) (n g : Nat) (v : Gauge) : (s.setGauge n g v).ufrShown = s.ufrShown := rfl
@[simp] theorem State.setGauge_pkg (s : State) (n g : Nat) (v : Gauge) : (s.setGauge n g v).pkg = s.pkg := rfl
@[simp] theorem State.setGauge_sec (s : State) (n g : Nat) (v : Gauge) : (s.setGauge n g v).sec = s.sec := rfl

/-! ### State.setJob -/

@[simp] theorem State.setJob_pending (s : State) (q : Nat) (j : Option Job) : (s.setJob q j).pending = s.pending := rfl
@[simp] theorem State.setJob_sent (s : State) (q : Nat) (j : Option Job) : (s.setJob q j).sent = s.sent := rfl
@[simp] theorem State.setJob_fresh (s : State) (q : Nat) (j : Option Job) : (s.setJob q j).fresh = s.fresh := rfl
@[simp] theorem State.setJob_tide (s : State) (q : Nat) (j : Option Job) : (s.setJob q j).tide = s.tide := rfl
@[simp] theorem State.setJob_elapsed (s : State) (q : Nat) (j : Option Job) : (s.setJob q j).elapsed = s.elapsed := rfl
@[simp] theorem State.setJob_regs (s : State) (q : Nat) (j : Option Job) : (s.setJob q j).regs = s.regs := rfl
@[simp] theorem State.setJob_device (s : State) (q : Nat) (j : Option Job) : (s.setJob q j).device = s.device := rfl
@[simp] theorem State.setJob_bamurn (s : State) (q : Nat) (j : Option Job) : (s.setJob q j).bamurn = s.bamurn := rfl
@[simp] theorem State.setJob_floor (s : State) (q : Nat) (j : Option Job) : (s.setJob q j).floor = s.floor := rfl
@[simp] theorem State.setJob_cfgs (s : State) (q : Nat) (j : Option Job) : (s.setJob q j).cfgs = s.cfgs := rfl
@[simp] theorem State.setJob_tiles (s : State) (q : Nat) (j : Option Job) : (s.setJob q j).tiles = s.tiles := rfl
@[simp] theorem State.setJob_latches (s : State) (q : Nat) (j : Option Job) : (s.setJob q j).latches = s.latches := rfl
@[simp] theorem State.setJob_fills (s : State) (q : Nat) (j : Option Job) : (s.setJob q j).fills = s.fills := rfl
@[simp] theorem State.setJob_hbmTags (s : State) (q : Nat) (j : Option Job) : (s.setJob q j).hbmTags = s.hbmTags := rfl
@[simp] theorem State.setJob_ddrTags (s : State) (q : Nat) (j : Option Job) : (s.setJob q j).ddrTags = s.ddrTags := rfl
@[simp] theorem State.setJob_experts (s : State) (q : Nat) (j : Option Job) : (s.setJob q j).experts = s.experts := rfl
@[simp] theorem State.setJob_disps (s : State) (q : Nat) (j : Option Job) : (s.setJob q j).disps = s.disps := rfl
@[simp] theorem State.setJob_ctxs (s : State) (q : Nat) (j : Option Job) : (s.setJob q j).ctxs = s.ctxs := rfl
@[simp] theorem State.setJob_cached (s : State) (q : Nat) (j : Option Job) : (s.setJob q j).cached = s.cached := rfl
@[simp] theorem State.setJob_pools (s : State) (q : Nat) (j : Option Job) : (s.setJob q j).pools = s.pools := rfl
@[simp] theorem State.setJob_pagers (s : State) (q : Nat) (j : Option Job) : (s.setJob q j).pagers = s.pagers := rfl
@[simp] theorem State.setJob_pinQueue (s : State) (q : Nat) (j : Option Job) : (s.setJob q j).pinQueue = s.pinQueue := rfl
@[simp] theorem State.setJob_hbm (s : State) (q : Nat) (j : Option Job) : (s.setJob q j).hbm = s.hbm := rfl
@[simp] theorem State.setJob_ddr (s : State) (q : Nat) (j : Option Job) : (s.setJob q j).ddr = s.ddr := rfl
@[simp] theorem State.setJob_channels (s : State) (q : Nat) (j : Option Job) : (s.setJob q j).channels = s.channels := rfl
@[simp] theorem State.setJob_spans (s : State) (q : Nat) (j : Option Job) : (s.setJob q j).spans = s.spans := rfl
@[simp] theorem State.setJob_ports (s : State) (q : Nat) (j : Option Job) : (s.setJob q j).ports = s.ports := rfl
@[simp] theorem State.setJob_topo (s : State) (q : Nat) (j : Option Job) : (s.setJob q j).topo = s.topo := rfl
@[simp] theorem State.setJob_topoSeq (s : State) (q : Nat) (j : Option Job) : (s.setJob q j).topoSeq = s.topoSeq := rfl
@[simp] theorem State.setJob_timeRoot (s : State) (q : Nat) (j : Option Job) : (s.setJob q j).timeRoot = s.timeRoot := rfl
@[simp] theorem State.setJob_steady (s : State) (q : Nat) (j : Option Job) : (s.setJob q j).steady = s.steady := rfl
@[simp] theorem State.setJob_wide (s : State) (q : Nat) (j : Option Job) : (s.setJob q j).wide = s.wide := rfl
@[simp] theorem State.setJob_svcs (s : State) (q : Nat) (j : Option Job) : (s.setJob q j).svcs = s.svcs := rfl
@[simp] theorem State.setJob_lens (s : State) (q : Nat) (j : Option Job) : (s.setJob q j).lens = s.lens := rfl
@[simp] theorem State.setJob_closers (s : State) (q : Nat) (j : Option Job) : (s.setJob q j).closers = s.closers := rfl
@[simp] theorem State.setJob_svcSeq (s : State) (q : Nat) (j : Option Job) : (s.setJob q j).svcSeq = s.svcSeq := rfl
@[simp] theorem State.setJob_ucies (s : State) (q : Nat) (j : Option Job) : (s.setJob q j).ucies = s.ucies := rfl
@[simp] theorem State.setJob_slopes (s : State) (q : Nat) (j : Option Job) : (s.setJob q j).slopes = s.slopes := rfl
@[simp] theorem State.setJob_wakes (s : State) (q : Nat) (j : Option Job) : (s.setJob q j).wakes = s.wakes := rfl
@[simp] theorem State.setJob_planeLatch (s : State) (q : Nat) (j : Option Job) : (s.setJob q j).planeLatch = s.planeLatch := rfl
@[simp] theorem State.setJob_power (s : State) (q : Nat) (j : Option Job) : (s.setJob q j).power = s.power := rfl
@[simp] theorem State.setJob_throttle (s : State) (q : Nat) (j : Option Job) : (s.setJob q j).throttle = s.throttle := rfl
@[simp] theorem State.setJob_running (s : State) (q : Nat) (j : Option Job) : (s.setJob q j).running = s.running := rfl
@[simp] theorem State.setJob_boot (s : State) (q : Nat) (j : Option Job) : (s.setJob q j).boot = s.boot := rfl
@[simp] theorem State.setJob_faults (s : State) (q : Nat) (j : Option Job) : (s.setJob q j).faults = s.faults := rfl
@[simp] theorem State.setJob_chunks (s : State) (q : Nat) (j : Option Job) : (s.setJob q j).chunks = s.chunks := rfl
@[simp] theorem State.setJob_scour (s : State) (q : Nat) (j : Option Job) : (s.setJob q j).scour = s.scour := rfl
@[simp] theorem State.setJob_ufrs (s : State) (q : Nat) (j : Option Job) : (s.setJob q j).ufrs = s.ufrs := rfl
@[simp] theorem State.setJob_ufrKept (s : State) (q : Nat) (j : Option Job) : (s.setJob q j).ufrKept = s.ufrKept := rfl
@[simp] theorem State.setJob_ufrShown (s : State) (q : Nat) (j : Option Job) : (s.setJob q j).ufrShown = s.ufrShown := rfl
@[simp] theorem State.setJob_pkg (s : State) (q : Nat) (j : Option Job) : (s.setJob q j).pkg = s.pkg := rfl
@[simp] theorem State.setJob_sec (s : State) (q : Nat) (j : Option Job) : (s.setJob q j).sec = s.sec := rfl

/-! ### State.modJob -/

@[simp] theorem State.modJob_pending (s : State) (q : Nat) (f : Job → Job) : (s.modJob q f).pending = s.pending := by unfold State.modJob; split <;> rfl
@[simp] theorem State.modJob_sent (s : State) (q : Nat) (f : Job → Job) : (s.modJob q f).sent = s.sent := by unfold State.modJob; split <;> rfl
@[simp] theorem State.modJob_fresh (s : State) (q : Nat) (f : Job → Job) : (s.modJob q f).fresh = s.fresh := by unfold State.modJob; split <;> rfl
@[simp] theorem State.modJob_tide (s : State) (q : Nat) (f : Job → Job) : (s.modJob q f).tide = s.tide := by unfold State.modJob; split <;> rfl
@[simp] theorem State.modJob_elapsed (s : State) (q : Nat) (f : Job → Job) : (s.modJob q f).elapsed = s.elapsed := by unfold State.modJob; split <;> rfl
@[simp] theorem State.modJob_regs (s : State) (q : Nat) (f : Job → Job) : (s.modJob q f).regs = s.regs := by unfold State.modJob; split <;> rfl
@[simp] theorem State.modJob_device (s : State) (q : Nat) (f : Job → Job) : (s.modJob q f).device = s.device := by unfold State.modJob; split <;> rfl
@[simp] theorem State.modJob_bamurn (s : State) (q : Nat) (f : Job → Job) : (s.modJob q f).bamurn = s.bamurn := by unfold State.modJob; split <;> rfl
@[simp] theorem State.modJob_floor (s : State) (q : Nat) (f : Job → Job) : (s.modJob q f).floor = s.floor := by unfold State.modJob; split <;> rfl
@[simp] theorem State.modJob_cfgs (s : State) (q : Nat) (f : Job → Job) : (s.modJob q f).cfgs = s.cfgs := by unfold State.modJob; split <;> rfl
@[simp] theorem State.modJob_tiles (s : State) (q : Nat) (f : Job → Job) : (s.modJob q f).tiles = s.tiles := by unfold State.modJob; split <;> rfl
@[simp] theorem State.modJob_latches (s : State) (q : Nat) (f : Job → Job) : (s.modJob q f).latches = s.latches := by unfold State.modJob; split <;> rfl
@[simp] theorem State.modJob_fills (s : State) (q : Nat) (f : Job → Job) : (s.modJob q f).fills = s.fills := by unfold State.modJob; split <;> rfl
@[simp] theorem State.modJob_hbmTags (s : State) (q : Nat) (f : Job → Job) : (s.modJob q f).hbmTags = s.hbmTags := by unfold State.modJob; split <;> rfl
@[simp] theorem State.modJob_ddrTags (s : State) (q : Nat) (f : Job → Job) : (s.modJob q f).ddrTags = s.ddrTags := by unfold State.modJob; split <;> rfl
@[simp] theorem State.modJob_experts (s : State) (q : Nat) (f : Job → Job) : (s.modJob q f).experts = s.experts := by unfold State.modJob; split <;> rfl
@[simp] theorem State.modJob_disps (s : State) (q : Nat) (f : Job → Job) : (s.modJob q f).disps = s.disps := by unfold State.modJob; split <;> rfl
@[simp] theorem State.modJob_ctxs (s : State) (q : Nat) (f : Job → Job) : (s.modJob q f).ctxs = s.ctxs := by unfold State.modJob; split <;> rfl
@[simp] theorem State.modJob_cached (s : State) (q : Nat) (f : Job → Job) : (s.modJob q f).cached = s.cached := by unfold State.modJob; split <;> rfl
@[simp] theorem State.modJob_pools (s : State) (q : Nat) (f : Job → Job) : (s.modJob q f).pools = s.pools := by unfold State.modJob; split <;> rfl
@[simp] theorem State.modJob_pagers (s : State) (q : Nat) (f : Job → Job) : (s.modJob q f).pagers = s.pagers := by unfold State.modJob; split <;> rfl
@[simp] theorem State.modJob_pinQueue (s : State) (q : Nat) (f : Job → Job) : (s.modJob q f).pinQueue = s.pinQueue := by unfold State.modJob; split <;> rfl
@[simp] theorem State.modJob_hbm (s : State) (q : Nat) (f : Job → Job) : (s.modJob q f).hbm = s.hbm := by unfold State.modJob; split <;> rfl
@[simp] theorem State.modJob_ddr (s : State) (q : Nat) (f : Job → Job) : (s.modJob q f).ddr = s.ddr := by unfold State.modJob; split <;> rfl
@[simp] theorem State.modJob_channels (s : State) (q : Nat) (f : Job → Job) : (s.modJob q f).channels = s.channels := by unfold State.modJob; split <;> rfl
@[simp] theorem State.modJob_spans (s : State) (q : Nat) (f : Job → Job) : (s.modJob q f).spans = s.spans := by unfold State.modJob; split <;> rfl
@[simp] theorem State.modJob_ports (s : State) (q : Nat) (f : Job → Job) : (s.modJob q f).ports = s.ports := by unfold State.modJob; split <;> rfl
@[simp] theorem State.modJob_topo (s : State) (q : Nat) (f : Job → Job) : (s.modJob q f).topo = s.topo := by unfold State.modJob; split <;> rfl
@[simp] theorem State.modJob_topoSeq (s : State) (q : Nat) (f : Job → Job) : (s.modJob q f).topoSeq = s.topoSeq := by unfold State.modJob; split <;> rfl
@[simp] theorem State.modJob_timeRoot (s : State) (q : Nat) (f : Job → Job) : (s.modJob q f).timeRoot = s.timeRoot := by unfold State.modJob; split <;> rfl
@[simp] theorem State.modJob_steady (s : State) (q : Nat) (f : Job → Job) : (s.modJob q f).steady = s.steady := by unfold State.modJob; split <;> rfl
@[simp] theorem State.modJob_wide (s : State) (q : Nat) (f : Job → Job) : (s.modJob q f).wide = s.wide := by unfold State.modJob; split <;> rfl
@[simp] theorem State.modJob_svcs (s : State) (q : Nat) (f : Job → Job) : (s.modJob q f).svcs = s.svcs := by unfold State.modJob; split <;> rfl
@[simp] theorem State.modJob_lens (s : State) (q : Nat) (f : Job → Job) : (s.modJob q f).lens = s.lens := by unfold State.modJob; split <;> rfl
@[simp] theorem State.modJob_closers (s : State) (q : Nat) (f : Job → Job) : (s.modJob q f).closers = s.closers := by unfold State.modJob; split <;> rfl
@[simp] theorem State.modJob_svcSeq (s : State) (q : Nat) (f : Job → Job) : (s.modJob q f).svcSeq = s.svcSeq := by unfold State.modJob; split <;> rfl
@[simp] theorem State.modJob_ucies (s : State) (q : Nat) (f : Job → Job) : (s.modJob q f).ucies = s.ucies := by unfold State.modJob; split <;> rfl
@[simp] theorem State.modJob_slopes (s : State) (q : Nat) (f : Job → Job) : (s.modJob q f).slopes = s.slopes := by unfold State.modJob; split <;> rfl
@[simp] theorem State.modJob_wakes (s : State) (q : Nat) (f : Job → Job) : (s.modJob q f).wakes = s.wakes := by unfold State.modJob; split <;> rfl
@[simp] theorem State.modJob_planeLatch (s : State) (q : Nat) (f : Job → Job) : (s.modJob q f).planeLatch = s.planeLatch := by unfold State.modJob; split <;> rfl
@[simp] theorem State.modJob_power (s : State) (q : Nat) (f : Job → Job) : (s.modJob q f).power = s.power := by unfold State.modJob; split <;> rfl
@[simp] theorem State.modJob_throttle (s : State) (q : Nat) (f : Job → Job) : (s.modJob q f).throttle = s.throttle := by unfold State.modJob; split <;> rfl
@[simp] theorem State.modJob_running (s : State) (q : Nat) (f : Job → Job) : (s.modJob q f).running = s.running := by unfold State.modJob; split <;> rfl
@[simp] theorem State.modJob_boot (s : State) (q : Nat) (f : Job → Job) : (s.modJob q f).boot = s.boot := by unfold State.modJob; split <;> rfl
@[simp] theorem State.modJob_faults (s : State) (q : Nat) (f : Job → Job) : (s.modJob q f).faults = s.faults := by unfold State.modJob; split <;> rfl
@[simp] theorem State.modJob_chunks (s : State) (q : Nat) (f : Job → Job) : (s.modJob q f).chunks = s.chunks := by unfold State.modJob; split <;> rfl
@[simp] theorem State.modJob_scour (s : State) (q : Nat) (f : Job → Job) : (s.modJob q f).scour = s.scour := by unfold State.modJob; split <;> rfl
@[simp] theorem State.modJob_ufrs (s : State) (q : Nat) (f : Job → Job) : (s.modJob q f).ufrs = s.ufrs := by unfold State.modJob; split <;> rfl
@[simp] theorem State.modJob_ufrKept (s : State) (q : Nat) (f : Job → Job) : (s.modJob q f).ufrKept = s.ufrKept := by unfold State.modJob; split <;> rfl
@[simp] theorem State.modJob_ufrShown (s : State) (q : Nat) (f : Job → Job) : (s.modJob q f).ufrShown = s.ufrShown := by unfold State.modJob; split <;> rfl
@[simp] theorem State.modJob_pkg (s : State) (q : Nat) (f : Job → Job) : (s.modJob q f).pkg = s.pkg := by unfold State.modJob; split <;> rfl
@[simp] theorem State.modJob_sec (s : State) (q : Nat) (f : Job → Job) : (s.modJob q f).sec = s.sec := by unfold State.modJob; split <;> rfl

/-! ### State.modPort -/

@[simp] theorem State.modPort_pending (s : State) (k : Nat) (f : Port → Port) : (s.modPort k f).pending = s.pending := rfl
@[simp] theorem State.modPort_sent (s : State) (k : Nat) (f : Port → Port) : (s.modPort k f).sent = s.sent := rfl
@[simp] theorem State.modPort_fresh (s : State) (k : Nat) (f : Port → Port) : (s.modPort k f).fresh = s.fresh := rfl
@[simp] theorem State.modPort_tide (s : State) (k : Nat) (f : Port → Port) : (s.modPort k f).tide = s.tide := rfl
@[simp] theorem State.modPort_elapsed (s : State) (k : Nat) (f : Port → Port) : (s.modPort k f).elapsed = s.elapsed := rfl
@[simp] theorem State.modPort_regs (s : State) (k : Nat) (f : Port → Port) : (s.modPort k f).regs = s.regs := rfl
@[simp] theorem State.modPort_device (s : State) (k : Nat) (f : Port → Port) : (s.modPort k f).device = s.device := rfl
@[simp] theorem State.modPort_bamurn (s : State) (k : Nat) (f : Port → Port) : (s.modPort k f).bamurn = s.bamurn := rfl
@[simp] theorem State.modPort_floor (s : State) (k : Nat) (f : Port → Port) : (s.modPort k f).floor = s.floor := rfl
@[simp] theorem State.modPort_cfgs (s : State) (k : Nat) (f : Port → Port) : (s.modPort k f).cfgs = s.cfgs := rfl
@[simp] theorem State.modPort_tiles (s : State) (k : Nat) (f : Port → Port) : (s.modPort k f).tiles = s.tiles := rfl
@[simp] theorem State.modPort_jobs (s : State) (k : Nat) (f : Port → Port) : (s.modPort k f).jobs = s.jobs := rfl
@[simp] theorem State.modPort_latches (s : State) (k : Nat) (f : Port → Port) : (s.modPort k f).latches = s.latches := rfl
@[simp] theorem State.modPort_fills (s : State) (k : Nat) (f : Port → Port) : (s.modPort k f).fills = s.fills := rfl
@[simp] theorem State.modPort_hbmTags (s : State) (k : Nat) (f : Port → Port) : (s.modPort k f).hbmTags = s.hbmTags := rfl
@[simp] theorem State.modPort_ddrTags (s : State) (k : Nat) (f : Port → Port) : (s.modPort k f).ddrTags = s.ddrTags := rfl
@[simp] theorem State.modPort_experts (s : State) (k : Nat) (f : Port → Port) : (s.modPort k f).experts = s.experts := rfl
@[simp] theorem State.modPort_disps (s : State) (k : Nat) (f : Port → Port) : (s.modPort k f).disps = s.disps := rfl
@[simp] theorem State.modPort_ctxs (s : State) (k : Nat) (f : Port → Port) : (s.modPort k f).ctxs = s.ctxs := rfl
@[simp] theorem State.modPort_cached (s : State) (k : Nat) (f : Port → Port) : (s.modPort k f).cached = s.cached := rfl
@[simp] theorem State.modPort_pools (s : State) (k : Nat) (f : Port → Port) : (s.modPort k f).pools = s.pools := rfl
@[simp] theorem State.modPort_pagers (s : State) (k : Nat) (f : Port → Port) : (s.modPort k f).pagers = s.pagers := rfl
@[simp] theorem State.modPort_pinQueue (s : State) (k : Nat) (f : Port → Port) : (s.modPort k f).pinQueue = s.pinQueue := rfl
@[simp] theorem State.modPort_hbm (s : State) (k : Nat) (f : Port → Port) : (s.modPort k f).hbm = s.hbm := rfl
@[simp] theorem State.modPort_ddr (s : State) (k : Nat) (f : Port → Port) : (s.modPort k f).ddr = s.ddr := rfl
@[simp] theorem State.modPort_channels (s : State) (k : Nat) (f : Port → Port) : (s.modPort k f).channels = s.channels := rfl
@[simp] theorem State.modPort_spans (s : State) (k : Nat) (f : Port → Port) : (s.modPort k f).spans = s.spans := rfl
@[simp] theorem State.modPort_topo (s : State) (k : Nat) (f : Port → Port) : (s.modPort k f).topo = s.topo := rfl
@[simp] theorem State.modPort_topoSeq (s : State) (k : Nat) (f : Port → Port) : (s.modPort k f).topoSeq = s.topoSeq := rfl
@[simp] theorem State.modPort_timeRoot (s : State) (k : Nat) (f : Port → Port) : (s.modPort k f).timeRoot = s.timeRoot := rfl
@[simp] theorem State.modPort_steady (s : State) (k : Nat) (f : Port → Port) : (s.modPort k f).steady = s.steady := rfl
@[simp] theorem State.modPort_wide (s : State) (k : Nat) (f : Port → Port) : (s.modPort k f).wide = s.wide := rfl
@[simp] theorem State.modPort_svcs (s : State) (k : Nat) (f : Port → Port) : (s.modPort k f).svcs = s.svcs := rfl
@[simp] theorem State.modPort_lens (s : State) (k : Nat) (f : Port → Port) : (s.modPort k f).lens = s.lens := rfl
@[simp] theorem State.modPort_closers (s : State) (k : Nat) (f : Port → Port) : (s.modPort k f).closers = s.closers := rfl
@[simp] theorem State.modPort_svcSeq (s : State) (k : Nat) (f : Port → Port) : (s.modPort k f).svcSeq = s.svcSeq := rfl
@[simp] theorem State.modPort_ucies (s : State) (k : Nat) (f : Port → Port) : (s.modPort k f).ucies = s.ucies := rfl
@[simp] theorem State.modPort_slopes (s : State) (k : Nat) (f : Port → Port) : (s.modPort k f).slopes = s.slopes := rfl
@[simp] theorem State.modPort_wakes (s : State) (k : Nat) (f : Port → Port) : (s.modPort k f).wakes = s.wakes := rfl
@[simp] theorem State.modPort_planeLatch (s : State) (k : Nat) (f : Port → Port) : (s.modPort k f).planeLatch = s.planeLatch := rfl
@[simp] theorem State.modPort_power (s : State) (k : Nat) (f : Port → Port) : (s.modPort k f).power = s.power := rfl
@[simp] theorem State.modPort_throttle (s : State) (k : Nat) (f : Port → Port) : (s.modPort k f).throttle = s.throttle := rfl
@[simp] theorem State.modPort_running (s : State) (k : Nat) (f : Port → Port) : (s.modPort k f).running = s.running := rfl
@[simp] theorem State.modPort_boot (s : State) (k : Nat) (f : Port → Port) : (s.modPort k f).boot = s.boot := rfl
@[simp] theorem State.modPort_faults (s : State) (k : Nat) (f : Port → Port) : (s.modPort k f).faults = s.faults := rfl
@[simp] theorem State.modPort_chunks (s : State) (k : Nat) (f : Port → Port) : (s.modPort k f).chunks = s.chunks := rfl
@[simp] theorem State.modPort_scour (s : State) (k : Nat) (f : Port → Port) : (s.modPort k f).scour = s.scour := rfl
@[simp] theorem State.modPort_ufrs (s : State) (k : Nat) (f : Port → Port) : (s.modPort k f).ufrs = s.ufrs := rfl
@[simp] theorem State.modPort_ufrKept (s : State) (k : Nat) (f : Port → Port) : (s.modPort k f).ufrKept = s.ufrKept := rfl
@[simp] theorem State.modPort_ufrShown (s : State) (k : Nat) (f : Port → Port) : (s.modPort k f).ufrShown = s.ufrShown := rfl
@[simp] theorem State.modPort_pkg (s : State) (k : Nat) (f : Port → Port) : (s.modPort k f).pkg = s.pkg := rfl
@[simp] theorem State.modPort_sec (s : State) (k : Nat) (f : Port → Port) : (s.modPort k f).sec = s.sec := rfl

/-! ### State.modUcie -/

@[simp] theorem State.modUcie_pending (s : State) (m : Nat) (f : Ucie → Ucie) : (s.modUcie m f).pending = s.pending := rfl
@[simp] theorem State.modUcie_sent (s : State) (m : Nat) (f : Ucie → Ucie) : (s.modUcie m f).sent = s.sent := rfl
@[simp] theorem State.modUcie_fresh (s : State) (m : Nat) (f : Ucie → Ucie) : (s.modUcie m f).fresh = s.fresh := rfl
@[simp] theorem State.modUcie_tide (s : State) (m : Nat) (f : Ucie → Ucie) : (s.modUcie m f).tide = s.tide := rfl
@[simp] theorem State.modUcie_elapsed (s : State) (m : Nat) (f : Ucie → Ucie) : (s.modUcie m f).elapsed = s.elapsed := rfl
@[simp] theorem State.modUcie_regs (s : State) (m : Nat) (f : Ucie → Ucie) : (s.modUcie m f).regs = s.regs := rfl
@[simp] theorem State.modUcie_device (s : State) (m : Nat) (f : Ucie → Ucie) : (s.modUcie m f).device = s.device := rfl
@[simp] theorem State.modUcie_bamurn (s : State) (m : Nat) (f : Ucie → Ucie) : (s.modUcie m f).bamurn = s.bamurn := rfl
@[simp] theorem State.modUcie_floor (s : State) (m : Nat) (f : Ucie → Ucie) : (s.modUcie m f).floor = s.floor := rfl
@[simp] theorem State.modUcie_cfgs (s : State) (m : Nat) (f : Ucie → Ucie) : (s.modUcie m f).cfgs = s.cfgs := rfl
@[simp] theorem State.modUcie_tiles (s : State) (m : Nat) (f : Ucie → Ucie) : (s.modUcie m f).tiles = s.tiles := rfl
@[simp] theorem State.modUcie_jobs (s : State) (m : Nat) (f : Ucie → Ucie) : (s.modUcie m f).jobs = s.jobs := rfl
@[simp] theorem State.modUcie_latches (s : State) (m : Nat) (f : Ucie → Ucie) : (s.modUcie m f).latches = s.latches := rfl
@[simp] theorem State.modUcie_fills (s : State) (m : Nat) (f : Ucie → Ucie) : (s.modUcie m f).fills = s.fills := rfl
@[simp] theorem State.modUcie_hbmTags (s : State) (m : Nat) (f : Ucie → Ucie) : (s.modUcie m f).hbmTags = s.hbmTags := rfl
@[simp] theorem State.modUcie_ddrTags (s : State) (m : Nat) (f : Ucie → Ucie) : (s.modUcie m f).ddrTags = s.ddrTags := rfl
@[simp] theorem State.modUcie_experts (s : State) (m : Nat) (f : Ucie → Ucie) : (s.modUcie m f).experts = s.experts := rfl
@[simp] theorem State.modUcie_disps (s : State) (m : Nat) (f : Ucie → Ucie) : (s.modUcie m f).disps = s.disps := rfl
@[simp] theorem State.modUcie_ctxs (s : State) (m : Nat) (f : Ucie → Ucie) : (s.modUcie m f).ctxs = s.ctxs := rfl
@[simp] theorem State.modUcie_cached (s : State) (m : Nat) (f : Ucie → Ucie) : (s.modUcie m f).cached = s.cached := rfl
@[simp] theorem State.modUcie_pools (s : State) (m : Nat) (f : Ucie → Ucie) : (s.modUcie m f).pools = s.pools := rfl
@[simp] theorem State.modUcie_pagers (s : State) (m : Nat) (f : Ucie → Ucie) : (s.modUcie m f).pagers = s.pagers := rfl
@[simp] theorem State.modUcie_pinQueue (s : State) (m : Nat) (f : Ucie → Ucie) : (s.modUcie m f).pinQueue = s.pinQueue := rfl
@[simp] theorem State.modUcie_hbm (s : State) (m : Nat) (f : Ucie → Ucie) : (s.modUcie m f).hbm = s.hbm := rfl
@[simp] theorem State.modUcie_ddr (s : State) (m : Nat) (f : Ucie → Ucie) : (s.modUcie m f).ddr = s.ddr := rfl
@[simp] theorem State.modUcie_channels (s : State) (m : Nat) (f : Ucie → Ucie) : (s.modUcie m f).channels = s.channels := rfl
@[simp] theorem State.modUcie_spans (s : State) (m : Nat) (f : Ucie → Ucie) : (s.modUcie m f).spans = s.spans := rfl
@[simp] theorem State.modUcie_ports (s : State) (m : Nat) (f : Ucie → Ucie) : (s.modUcie m f).ports = s.ports := rfl
@[simp] theorem State.modUcie_topo (s : State) (m : Nat) (f : Ucie → Ucie) : (s.modUcie m f).topo = s.topo := rfl
@[simp] theorem State.modUcie_topoSeq (s : State) (m : Nat) (f : Ucie → Ucie) : (s.modUcie m f).topoSeq = s.topoSeq := rfl
@[simp] theorem State.modUcie_timeRoot (s : State) (m : Nat) (f : Ucie → Ucie) : (s.modUcie m f).timeRoot = s.timeRoot := rfl
@[simp] theorem State.modUcie_steady (s : State) (m : Nat) (f : Ucie → Ucie) : (s.modUcie m f).steady = s.steady := rfl
@[simp] theorem State.modUcie_wide (s : State) (m : Nat) (f : Ucie → Ucie) : (s.modUcie m f).wide = s.wide := rfl
@[simp] theorem State.modUcie_svcs (s : State) (m : Nat) (f : Ucie → Ucie) : (s.modUcie m f).svcs = s.svcs := rfl
@[simp] theorem State.modUcie_lens (s : State) (m : Nat) (f : Ucie → Ucie) : (s.modUcie m f).lens = s.lens := rfl
@[simp] theorem State.modUcie_closers (s : State) (m : Nat) (f : Ucie → Ucie) : (s.modUcie m f).closers = s.closers := rfl
@[simp] theorem State.modUcie_svcSeq (s : State) (m : Nat) (f : Ucie → Ucie) : (s.modUcie m f).svcSeq = s.svcSeq := rfl
@[simp] theorem State.modUcie_slopes (s : State) (m : Nat) (f : Ucie → Ucie) : (s.modUcie m f).slopes = s.slopes := rfl
@[simp] theorem State.modUcie_wakes (s : State) (m : Nat) (f : Ucie → Ucie) : (s.modUcie m f).wakes = s.wakes := rfl
@[simp] theorem State.modUcie_planeLatch (s : State) (m : Nat) (f : Ucie → Ucie) : (s.modUcie m f).planeLatch = s.planeLatch := rfl
@[simp] theorem State.modUcie_power (s : State) (m : Nat) (f : Ucie → Ucie) : (s.modUcie m f).power = s.power := rfl
@[simp] theorem State.modUcie_throttle (s : State) (m : Nat) (f : Ucie → Ucie) : (s.modUcie m f).throttle = s.throttle := rfl
@[simp] theorem State.modUcie_running (s : State) (m : Nat) (f : Ucie → Ucie) : (s.modUcie m f).running = s.running := rfl
@[simp] theorem State.modUcie_boot (s : State) (m : Nat) (f : Ucie → Ucie) : (s.modUcie m f).boot = s.boot := rfl
@[simp] theorem State.modUcie_faults (s : State) (m : Nat) (f : Ucie → Ucie) : (s.modUcie m f).faults = s.faults := rfl
@[simp] theorem State.modUcie_chunks (s : State) (m : Nat) (f : Ucie → Ucie) : (s.modUcie m f).chunks = s.chunks := rfl
@[simp] theorem State.modUcie_scour (s : State) (m : Nat) (f : Ucie → Ucie) : (s.modUcie m f).scour = s.scour := rfl
@[simp] theorem State.modUcie_ufrs (s : State) (m : Nat) (f : Ucie → Ucie) : (s.modUcie m f).ufrs = s.ufrs := rfl
@[simp] theorem State.modUcie_ufrKept (s : State) (m : Nat) (f : Ucie → Ucie) : (s.modUcie m f).ufrKept = s.ufrKept := rfl
@[simp] theorem State.modUcie_ufrShown (s : State) (m : Nat) (f : Ucie → Ucie) : (s.modUcie m f).ufrShown = s.ufrShown := rfl
@[simp] theorem State.modUcie_pkg (s : State) (m : Nat) (f : Ucie → Ucie) : (s.modUcie m f).pkg = s.pkg := rfl
@[simp] theorem State.modUcie_sec (s : State) (m : Nat) (f : Ucie → Ucie) : (s.modUcie m f).sec = s.sec := rfl

/-! ### State.modPool -/

@[simp] theorem State.modPool_pending (s : State) (q : Nat) (f : CtxPool → CtxPool) : (s.modPool q f).pending = s.pending := rfl
@[simp] theorem State.modPool_sent (s : State) (q : Nat) (f : CtxPool → CtxPool) : (s.modPool q f).sent = s.sent := rfl
@[simp] theorem State.modPool_fresh (s : State) (q : Nat) (f : CtxPool → CtxPool) : (s.modPool q f).fresh = s.fresh := rfl
@[simp] theorem State.modPool_tide (s : State) (q : Nat) (f : CtxPool → CtxPool) : (s.modPool q f).tide = s.tide := rfl
@[simp] theorem State.modPool_elapsed (s : State) (q : Nat) (f : CtxPool → CtxPool) : (s.modPool q f).elapsed = s.elapsed := rfl
@[simp] theorem State.modPool_regs (s : State) (q : Nat) (f : CtxPool → CtxPool) : (s.modPool q f).regs = s.regs := rfl
@[simp] theorem State.modPool_device (s : State) (q : Nat) (f : CtxPool → CtxPool) : (s.modPool q f).device = s.device := rfl
@[simp] theorem State.modPool_bamurn (s : State) (q : Nat) (f : CtxPool → CtxPool) : (s.modPool q f).bamurn = s.bamurn := rfl
@[simp] theorem State.modPool_floor (s : State) (q : Nat) (f : CtxPool → CtxPool) : (s.modPool q f).floor = s.floor := rfl
@[simp] theorem State.modPool_cfgs (s : State) (q : Nat) (f : CtxPool → CtxPool) : (s.modPool q f).cfgs = s.cfgs := rfl
@[simp] theorem State.modPool_tiles (s : State) (q : Nat) (f : CtxPool → CtxPool) : (s.modPool q f).tiles = s.tiles := rfl
@[simp] theorem State.modPool_jobs (s : State) (q : Nat) (f : CtxPool → CtxPool) : (s.modPool q f).jobs = s.jobs := rfl
@[simp] theorem State.modPool_latches (s : State) (q : Nat) (f : CtxPool → CtxPool) : (s.modPool q f).latches = s.latches := rfl
@[simp] theorem State.modPool_fills (s : State) (q : Nat) (f : CtxPool → CtxPool) : (s.modPool q f).fills = s.fills := rfl
@[simp] theorem State.modPool_hbmTags (s : State) (q : Nat) (f : CtxPool → CtxPool) : (s.modPool q f).hbmTags = s.hbmTags := rfl
@[simp] theorem State.modPool_ddrTags (s : State) (q : Nat) (f : CtxPool → CtxPool) : (s.modPool q f).ddrTags = s.ddrTags := rfl
@[simp] theorem State.modPool_experts (s : State) (q : Nat) (f : CtxPool → CtxPool) : (s.modPool q f).experts = s.experts := rfl
@[simp] theorem State.modPool_disps (s : State) (q : Nat) (f : CtxPool → CtxPool) : (s.modPool q f).disps = s.disps := rfl
@[simp] theorem State.modPool_ctxs (s : State) (q : Nat) (f : CtxPool → CtxPool) : (s.modPool q f).ctxs = s.ctxs := rfl
@[simp] theorem State.modPool_cached (s : State) (q : Nat) (f : CtxPool → CtxPool) : (s.modPool q f).cached = s.cached := rfl
@[simp] theorem State.modPool_pagers (s : State) (q : Nat) (f : CtxPool → CtxPool) : (s.modPool q f).pagers = s.pagers := rfl
@[simp] theorem State.modPool_pinQueue (s : State) (q : Nat) (f : CtxPool → CtxPool) : (s.modPool q f).pinQueue = s.pinQueue := rfl
@[simp] theorem State.modPool_hbm (s : State) (q : Nat) (f : CtxPool → CtxPool) : (s.modPool q f).hbm = s.hbm := rfl
@[simp] theorem State.modPool_ddr (s : State) (q : Nat) (f : CtxPool → CtxPool) : (s.modPool q f).ddr = s.ddr := rfl
@[simp] theorem State.modPool_channels (s : State) (q : Nat) (f : CtxPool → CtxPool) : (s.modPool q f).channels = s.channels := rfl
@[simp] theorem State.modPool_spans (s : State) (q : Nat) (f : CtxPool → CtxPool) : (s.modPool q f).spans = s.spans := rfl
@[simp] theorem State.modPool_ports (s : State) (q : Nat) (f : CtxPool → CtxPool) : (s.modPool q f).ports = s.ports := rfl
@[simp] theorem State.modPool_topo (s : State) (q : Nat) (f : CtxPool → CtxPool) : (s.modPool q f).topo = s.topo := rfl
@[simp] theorem State.modPool_topoSeq (s : State) (q : Nat) (f : CtxPool → CtxPool) : (s.modPool q f).topoSeq = s.topoSeq := rfl
@[simp] theorem State.modPool_timeRoot (s : State) (q : Nat) (f : CtxPool → CtxPool) : (s.modPool q f).timeRoot = s.timeRoot := rfl
@[simp] theorem State.modPool_steady (s : State) (q : Nat) (f : CtxPool → CtxPool) : (s.modPool q f).steady = s.steady := rfl
@[simp] theorem State.modPool_wide (s : State) (q : Nat) (f : CtxPool → CtxPool) : (s.modPool q f).wide = s.wide := rfl
@[simp] theorem State.modPool_svcs (s : State) (q : Nat) (f : CtxPool → CtxPool) : (s.modPool q f).svcs = s.svcs := rfl
@[simp] theorem State.modPool_lens (s : State) (q : Nat) (f : CtxPool → CtxPool) : (s.modPool q f).lens = s.lens := rfl
@[simp] theorem State.modPool_closers (s : State) (q : Nat) (f : CtxPool → CtxPool) : (s.modPool q f).closers = s.closers := rfl
@[simp] theorem State.modPool_svcSeq (s : State) (q : Nat) (f : CtxPool → CtxPool) : (s.modPool q f).svcSeq = s.svcSeq := rfl
@[simp] theorem State.modPool_ucies (s : State) (q : Nat) (f : CtxPool → CtxPool) : (s.modPool q f).ucies = s.ucies := rfl
@[simp] theorem State.modPool_slopes (s : State) (q : Nat) (f : CtxPool → CtxPool) : (s.modPool q f).slopes = s.slopes := rfl
@[simp] theorem State.modPool_wakes (s : State) (q : Nat) (f : CtxPool → CtxPool) : (s.modPool q f).wakes = s.wakes := rfl
@[simp] theorem State.modPool_planeLatch (s : State) (q : Nat) (f : CtxPool → CtxPool) : (s.modPool q f).planeLatch = s.planeLatch := rfl
@[simp] theorem State.modPool_power (s : State) (q : Nat) (f : CtxPool → CtxPool) : (s.modPool q f).power = s.power := rfl
@[simp] theorem State.modPool_throttle (s : State) (q : Nat) (f : CtxPool → CtxPool) : (s.modPool q f).throttle = s.throttle := rfl
@[simp] theorem State.modPool_running (s : State) (q : Nat) (f : CtxPool → CtxPool) : (s.modPool q f).running = s.running := rfl
@[simp] theorem State.modPool_boot (s : State) (q : Nat) (f : CtxPool → CtxPool) : (s.modPool q f).boot = s.boot := rfl
@[simp] theorem State.modPool_faults (s : State) (q : Nat) (f : CtxPool → CtxPool) : (s.modPool q f).faults = s.faults := rfl
@[simp] theorem State.modPool_chunks (s : State) (q : Nat) (f : CtxPool → CtxPool) : (s.modPool q f).chunks = s.chunks := rfl
@[simp] theorem State.modPool_scour (s : State) (q : Nat) (f : CtxPool → CtxPool) : (s.modPool q f).scour = s.scour := rfl
@[simp] theorem State.modPool_ufrs (s : State) (q : Nat) (f : CtxPool → CtxPool) : (s.modPool q f).ufrs = s.ufrs := rfl
@[simp] theorem State.modPool_ufrKept (s : State) (q : Nat) (f : CtxPool → CtxPool) : (s.modPool q f).ufrKept = s.ufrKept := rfl
@[simp] theorem State.modPool_ufrShown (s : State) (q : Nat) (f : CtxPool → CtxPool) : (s.modPool q f).ufrShown = s.ufrShown := rfl
@[simp] theorem State.modPool_pkg (s : State) (q : Nat) (f : CtxPool → CtxPool) : (s.modPool q f).pkg = s.pkg := rfl
@[simp] theorem State.modPool_sec (s : State) (q : Nat) (f : CtxPool → CtxPool) : (s.modPool q f).sec = s.sec := rfl

/-! ### State.modPager -/

@[simp] theorem State.modPager_pending (s : State) (q : Nat) (f : Pager → Pager) : (s.modPager q f).pending = s.pending := rfl
@[simp] theorem State.modPager_sent (s : State) (q : Nat) (f : Pager → Pager) : (s.modPager q f).sent = s.sent := rfl
@[simp] theorem State.modPager_fresh (s : State) (q : Nat) (f : Pager → Pager) : (s.modPager q f).fresh = s.fresh := rfl
@[simp] theorem State.modPager_tide (s : State) (q : Nat) (f : Pager → Pager) : (s.modPager q f).tide = s.tide := rfl
@[simp] theorem State.modPager_elapsed (s : State) (q : Nat) (f : Pager → Pager) : (s.modPager q f).elapsed = s.elapsed := rfl
@[simp] theorem State.modPager_regs (s : State) (q : Nat) (f : Pager → Pager) : (s.modPager q f).regs = s.regs := rfl
@[simp] theorem State.modPager_device (s : State) (q : Nat) (f : Pager → Pager) : (s.modPager q f).device = s.device := rfl
@[simp] theorem State.modPager_bamurn (s : State) (q : Nat) (f : Pager → Pager) : (s.modPager q f).bamurn = s.bamurn := rfl
@[simp] theorem State.modPager_floor (s : State) (q : Nat) (f : Pager → Pager) : (s.modPager q f).floor = s.floor := rfl
@[simp] theorem State.modPager_cfgs (s : State) (q : Nat) (f : Pager → Pager) : (s.modPager q f).cfgs = s.cfgs := rfl
@[simp] theorem State.modPager_tiles (s : State) (q : Nat) (f : Pager → Pager) : (s.modPager q f).tiles = s.tiles := rfl
@[simp] theorem State.modPager_jobs (s : State) (q : Nat) (f : Pager → Pager) : (s.modPager q f).jobs = s.jobs := rfl
@[simp] theorem State.modPager_latches (s : State) (q : Nat) (f : Pager → Pager) : (s.modPager q f).latches = s.latches := rfl
@[simp] theorem State.modPager_fills (s : State) (q : Nat) (f : Pager → Pager) : (s.modPager q f).fills = s.fills := rfl
@[simp] theorem State.modPager_hbmTags (s : State) (q : Nat) (f : Pager → Pager) : (s.modPager q f).hbmTags = s.hbmTags := rfl
@[simp] theorem State.modPager_ddrTags (s : State) (q : Nat) (f : Pager → Pager) : (s.modPager q f).ddrTags = s.ddrTags := rfl
@[simp] theorem State.modPager_experts (s : State) (q : Nat) (f : Pager → Pager) : (s.modPager q f).experts = s.experts := rfl
@[simp] theorem State.modPager_disps (s : State) (q : Nat) (f : Pager → Pager) : (s.modPager q f).disps = s.disps := rfl
@[simp] theorem State.modPager_ctxs (s : State) (q : Nat) (f : Pager → Pager) : (s.modPager q f).ctxs = s.ctxs := rfl
@[simp] theorem State.modPager_cached (s : State) (q : Nat) (f : Pager → Pager) : (s.modPager q f).cached = s.cached := rfl
@[simp] theorem State.modPager_pools (s : State) (q : Nat) (f : Pager → Pager) : (s.modPager q f).pools = s.pools := rfl
@[simp] theorem State.modPager_pinQueue (s : State) (q : Nat) (f : Pager → Pager) : (s.modPager q f).pinQueue = s.pinQueue := rfl
@[simp] theorem State.modPager_hbm (s : State) (q : Nat) (f : Pager → Pager) : (s.modPager q f).hbm = s.hbm := rfl
@[simp] theorem State.modPager_ddr (s : State) (q : Nat) (f : Pager → Pager) : (s.modPager q f).ddr = s.ddr := rfl
@[simp] theorem State.modPager_channels (s : State) (q : Nat) (f : Pager → Pager) : (s.modPager q f).channels = s.channels := rfl
@[simp] theorem State.modPager_spans (s : State) (q : Nat) (f : Pager → Pager) : (s.modPager q f).spans = s.spans := rfl
@[simp] theorem State.modPager_ports (s : State) (q : Nat) (f : Pager → Pager) : (s.modPager q f).ports = s.ports := rfl
@[simp] theorem State.modPager_topo (s : State) (q : Nat) (f : Pager → Pager) : (s.modPager q f).topo = s.topo := rfl
@[simp] theorem State.modPager_topoSeq (s : State) (q : Nat) (f : Pager → Pager) : (s.modPager q f).topoSeq = s.topoSeq := rfl
@[simp] theorem State.modPager_timeRoot (s : State) (q : Nat) (f : Pager → Pager) : (s.modPager q f).timeRoot = s.timeRoot := rfl
@[simp] theorem State.modPager_steady (s : State) (q : Nat) (f : Pager → Pager) : (s.modPager q f).steady = s.steady := rfl
@[simp] theorem State.modPager_wide (s : State) (q : Nat) (f : Pager → Pager) : (s.modPager q f).wide = s.wide := rfl
@[simp] theorem State.modPager_svcs (s : State) (q : Nat) (f : Pager → Pager) : (s.modPager q f).svcs = s.svcs := rfl
@[simp] theorem State.modPager_lens (s : State) (q : Nat) (f : Pager → Pager) : (s.modPager q f).lens = s.lens := rfl
@[simp] theorem State.modPager_closers (s : State) (q : Nat) (f : Pager → Pager) : (s.modPager q f).closers = s.closers := rfl
@[simp] theorem State.modPager_svcSeq (s : State) (q : Nat) (f : Pager → Pager) : (s.modPager q f).svcSeq = s.svcSeq := rfl
@[simp] theorem State.modPager_ucies (s : State) (q : Nat) (f : Pager → Pager) : (s.modPager q f).ucies = s.ucies := rfl
@[simp] theorem State.modPager_slopes (s : State) (q : Nat) (f : Pager → Pager) : (s.modPager q f).slopes = s.slopes := rfl
@[simp] theorem State.modPager_wakes (s : State) (q : Nat) (f : Pager → Pager) : (s.modPager q f).wakes = s.wakes := rfl
@[simp] theorem State.modPager_planeLatch (s : State) (q : Nat) (f : Pager → Pager) : (s.modPager q f).planeLatch = s.planeLatch := rfl
@[simp] theorem State.modPager_power (s : State) (q : Nat) (f : Pager → Pager) : (s.modPager q f).power = s.power := rfl
@[simp] theorem State.modPager_throttle (s : State) (q : Nat) (f : Pager → Pager) : (s.modPager q f).throttle = s.throttle := rfl
@[simp] theorem State.modPager_running (s : State) (q : Nat) (f : Pager → Pager) : (s.modPager q f).running = s.running := rfl
@[simp] theorem State.modPager_boot (s : State) (q : Nat) (f : Pager → Pager) : (s.modPager q f).boot = s.boot := rfl
@[simp] theorem State.modPager_faults (s : State) (q : Nat) (f : Pager → Pager) : (s.modPager q f).faults = s.faults := rfl
@[simp] theorem State.modPager_chunks (s : State) (q : Nat) (f : Pager → Pager) : (s.modPager q f).chunks = s.chunks := rfl
@[simp] theorem State.modPager_scour (s : State) (q : Nat) (f : Pager → Pager) : (s.modPager q f).scour = s.scour := rfl
@[simp] theorem State.modPager_ufrs (s : State) (q : Nat) (f : Pager → Pager) : (s.modPager q f).ufrs = s.ufrs := rfl
@[simp] theorem State.modPager_ufrKept (s : State) (q : Nat) (f : Pager → Pager) : (s.modPager q f).ufrKept = s.ufrKept := rfl
@[simp] theorem State.modPager_ufrShown (s : State) (q : Nat) (f : Pager → Pager) : (s.modPager q f).ufrShown = s.ufrShown := rfl
@[simp] theorem State.modPager_pkg (s : State) (q : Nat) (f : Pager → Pager) : (s.modPager q f).pkg = s.pkg := rfl
@[simp] theorem State.modPager_sec (s : State) (q : Nat) (f : Pager → Pager) : (s.modPager q f).sec = s.sec := rfl

/-! ### State.setCtx -/

@[simp] theorem State.setCtx_pending (s : State) (slot : Nat) (c : Ctx) : (s.setCtx slot c).pending = s.pending := rfl
@[simp] theorem State.setCtx_sent (s : State) (slot : Nat) (c : Ctx) : (s.setCtx slot c).sent = s.sent := rfl
@[simp] theorem State.setCtx_fresh (s : State) (slot : Nat) (c : Ctx) : (s.setCtx slot c).fresh = s.fresh := rfl
@[simp] theorem State.setCtx_tide (s : State) (slot : Nat) (c : Ctx) : (s.setCtx slot c).tide = s.tide := rfl
@[simp] theorem State.setCtx_elapsed (s : State) (slot : Nat) (c : Ctx) : (s.setCtx slot c).elapsed = s.elapsed := rfl
@[simp] theorem State.setCtx_regs (s : State) (slot : Nat) (c : Ctx) : (s.setCtx slot c).regs = s.regs := rfl
@[simp] theorem State.setCtx_device (s : State) (slot : Nat) (c : Ctx) : (s.setCtx slot c).device = s.device := rfl
@[simp] theorem State.setCtx_bamurn (s : State) (slot : Nat) (c : Ctx) : (s.setCtx slot c).bamurn = s.bamurn := rfl
@[simp] theorem State.setCtx_floor (s : State) (slot : Nat) (c : Ctx) : (s.setCtx slot c).floor = s.floor := rfl
@[simp] theorem State.setCtx_cfgs (s : State) (slot : Nat) (c : Ctx) : (s.setCtx slot c).cfgs = s.cfgs := rfl
@[simp] theorem State.setCtx_tiles (s : State) (slot : Nat) (c : Ctx) : (s.setCtx slot c).tiles = s.tiles := rfl
@[simp] theorem State.setCtx_jobs (s : State) (slot : Nat) (c : Ctx) : (s.setCtx slot c).jobs = s.jobs := rfl
@[simp] theorem State.setCtx_latches (s : State) (slot : Nat) (c : Ctx) : (s.setCtx slot c).latches = s.latches := rfl
@[simp] theorem State.setCtx_fills (s : State) (slot : Nat) (c : Ctx) : (s.setCtx slot c).fills = s.fills := rfl
@[simp] theorem State.setCtx_hbmTags (s : State) (slot : Nat) (c : Ctx) : (s.setCtx slot c).hbmTags = s.hbmTags := rfl
@[simp] theorem State.setCtx_ddrTags (s : State) (slot : Nat) (c : Ctx) : (s.setCtx slot c).ddrTags = s.ddrTags := rfl
@[simp] theorem State.setCtx_experts (s : State) (slot : Nat) (c : Ctx) : (s.setCtx slot c).experts = s.experts := rfl
@[simp] theorem State.setCtx_disps (s : State) (slot : Nat) (c : Ctx) : (s.setCtx slot c).disps = s.disps := rfl
@[simp] theorem State.setCtx_cached (s : State) (slot : Nat) (c : Ctx) : (s.setCtx slot c).cached = s.cached := rfl
@[simp] theorem State.setCtx_pools (s : State) (slot : Nat) (c : Ctx) : (s.setCtx slot c).pools = s.pools := rfl
@[simp] theorem State.setCtx_pagers (s : State) (slot : Nat) (c : Ctx) : (s.setCtx slot c).pagers = s.pagers := rfl
@[simp] theorem State.setCtx_pinQueue (s : State) (slot : Nat) (c : Ctx) : (s.setCtx slot c).pinQueue = s.pinQueue := rfl
@[simp] theorem State.setCtx_hbm (s : State) (slot : Nat) (c : Ctx) : (s.setCtx slot c).hbm = s.hbm := rfl
@[simp] theorem State.setCtx_ddr (s : State) (slot : Nat) (c : Ctx) : (s.setCtx slot c).ddr = s.ddr := rfl
@[simp] theorem State.setCtx_channels (s : State) (slot : Nat) (c : Ctx) : (s.setCtx slot c).channels = s.channels := rfl
@[simp] theorem State.setCtx_spans (s : State) (slot : Nat) (c : Ctx) : (s.setCtx slot c).spans = s.spans := rfl
@[simp] theorem State.setCtx_ports (s : State) (slot : Nat) (c : Ctx) : (s.setCtx slot c).ports = s.ports := rfl
@[simp] theorem State.setCtx_topo (s : State) (slot : Nat) (c : Ctx) : (s.setCtx slot c).topo = s.topo := rfl
@[simp] theorem State.setCtx_topoSeq (s : State) (slot : Nat) (c : Ctx) : (s.setCtx slot c).topoSeq = s.topoSeq := rfl
@[simp] theorem State.setCtx_timeRoot (s : State) (slot : Nat) (c : Ctx) : (s.setCtx slot c).timeRoot = s.timeRoot := rfl
@[simp] theorem State.setCtx_steady (s : State) (slot : Nat) (c : Ctx) : (s.setCtx slot c).steady = s.steady := rfl
@[simp] theorem State.setCtx_wide (s : State) (slot : Nat) (c : Ctx) : (s.setCtx slot c).wide = s.wide := rfl
@[simp] theorem State.setCtx_svcs (s : State) (slot : Nat) (c : Ctx) : (s.setCtx slot c).svcs = s.svcs := rfl
@[simp] theorem State.setCtx_lens (s : State) (slot : Nat) (c : Ctx) : (s.setCtx slot c).lens = s.lens := rfl
@[simp] theorem State.setCtx_closers (s : State) (slot : Nat) (c : Ctx) : (s.setCtx slot c).closers = s.closers := rfl
@[simp] theorem State.setCtx_svcSeq (s : State) (slot : Nat) (c : Ctx) : (s.setCtx slot c).svcSeq = s.svcSeq := rfl
@[simp] theorem State.setCtx_ucies (s : State) (slot : Nat) (c : Ctx) : (s.setCtx slot c).ucies = s.ucies := rfl
@[simp] theorem State.setCtx_slopes (s : State) (slot : Nat) (c : Ctx) : (s.setCtx slot c).slopes = s.slopes := rfl
@[simp] theorem State.setCtx_wakes (s : State) (slot : Nat) (c : Ctx) : (s.setCtx slot c).wakes = s.wakes := rfl
@[simp] theorem State.setCtx_planeLatch (s : State) (slot : Nat) (c : Ctx) : (s.setCtx slot c).planeLatch = s.planeLatch := rfl
@[simp] theorem State.setCtx_power (s : State) (slot : Nat) (c : Ctx) : (s.setCtx slot c).power = s.power := rfl
@[simp] theorem State.setCtx_throttle (s : State) (slot : Nat) (c : Ctx) : (s.setCtx slot c).throttle = s.throttle := rfl
@[simp] theorem State.setCtx_running (s : State) (slot : Nat) (c : Ctx) : (s.setCtx slot c).running = s.running := rfl
@[simp] theorem State.setCtx_boot (s : State) (slot : Nat) (c : Ctx) : (s.setCtx slot c).boot = s.boot := rfl
@[simp] theorem State.setCtx_faults (s : State) (slot : Nat) (c : Ctx) : (s.setCtx slot c).faults = s.faults := rfl
@[simp] theorem State.setCtx_chunks (s : State) (slot : Nat) (c : Ctx) : (s.setCtx slot c).chunks = s.chunks := rfl
@[simp] theorem State.setCtx_scour (s : State) (slot : Nat) (c : Ctx) : (s.setCtx slot c).scour = s.scour := rfl
@[simp] theorem State.setCtx_ufrs (s : State) (slot : Nat) (c : Ctx) : (s.setCtx slot c).ufrs = s.ufrs := rfl
@[simp] theorem State.setCtx_ufrKept (s : State) (slot : Nat) (c : Ctx) : (s.setCtx slot c).ufrKept = s.ufrKept := rfl
@[simp] theorem State.setCtx_ufrShown (s : State) (slot : Nat) (c : Ctx) : (s.setCtx slot c).ufrShown = s.ufrShown := rfl
@[simp] theorem State.setCtx_pkg (s : State) (slot : Nat) (c : Ctx) : (s.setCtx slot c).pkg = s.pkg := rfl
@[simp] theorem State.setCtx_sec (s : State) (slot : Nat) (c : Ctx) : (s.setCtx slot c).sec = s.sec := rfl

/-! ### State.modSvc -/

@[simp] theorem State.modSvc_pending (s : State) (n : Nat) (f : Service → Service) : (s.modSvc n f).pending = s.pending := rfl
@[simp] theorem State.modSvc_sent (s : State) (n : Nat) (f : Service → Service) : (s.modSvc n f).sent = s.sent := rfl
@[simp] theorem State.modSvc_fresh (s : State) (n : Nat) (f : Service → Service) : (s.modSvc n f).fresh = s.fresh := rfl
@[simp] theorem State.modSvc_tide (s : State) (n : Nat) (f : Service → Service) : (s.modSvc n f).tide = s.tide := rfl
@[simp] theorem State.modSvc_elapsed (s : State) (n : Nat) (f : Service → Service) : (s.modSvc n f).elapsed = s.elapsed := rfl
@[simp] theorem State.modSvc_regs (s : State) (n : Nat) (f : Service → Service) : (s.modSvc n f).regs = s.regs := rfl
@[simp] theorem State.modSvc_device (s : State) (n : Nat) (f : Service → Service) : (s.modSvc n f).device = s.device := rfl
@[simp] theorem State.modSvc_bamurn (s : State) (n : Nat) (f : Service → Service) : (s.modSvc n f).bamurn = s.bamurn := rfl
@[simp] theorem State.modSvc_floor (s : State) (n : Nat) (f : Service → Service) : (s.modSvc n f).floor = s.floor := rfl
@[simp] theorem State.modSvc_cfgs (s : State) (n : Nat) (f : Service → Service) : (s.modSvc n f).cfgs = s.cfgs := rfl
@[simp] theorem State.modSvc_tiles (s : State) (n : Nat) (f : Service → Service) : (s.modSvc n f).tiles = s.tiles := rfl
@[simp] theorem State.modSvc_jobs (s : State) (n : Nat) (f : Service → Service) : (s.modSvc n f).jobs = s.jobs := rfl
@[simp] theorem State.modSvc_latches (s : State) (n : Nat) (f : Service → Service) : (s.modSvc n f).latches = s.latches := rfl
@[simp] theorem State.modSvc_fills (s : State) (n : Nat) (f : Service → Service) : (s.modSvc n f).fills = s.fills := rfl
@[simp] theorem State.modSvc_hbmTags (s : State) (n : Nat) (f : Service → Service) : (s.modSvc n f).hbmTags = s.hbmTags := rfl
@[simp] theorem State.modSvc_ddrTags (s : State) (n : Nat) (f : Service → Service) : (s.modSvc n f).ddrTags = s.ddrTags := rfl
@[simp] theorem State.modSvc_experts (s : State) (n : Nat) (f : Service → Service) : (s.modSvc n f).experts = s.experts := rfl
@[simp] theorem State.modSvc_disps (s : State) (n : Nat) (f : Service → Service) : (s.modSvc n f).disps = s.disps := rfl
@[simp] theorem State.modSvc_ctxs (s : State) (n : Nat) (f : Service → Service) : (s.modSvc n f).ctxs = s.ctxs := rfl
@[simp] theorem State.modSvc_cached (s : State) (n : Nat) (f : Service → Service) : (s.modSvc n f).cached = s.cached := rfl
@[simp] theorem State.modSvc_pools (s : State) (n : Nat) (f : Service → Service) : (s.modSvc n f).pools = s.pools := rfl
@[simp] theorem State.modSvc_pagers (s : State) (n : Nat) (f : Service → Service) : (s.modSvc n f).pagers = s.pagers := rfl
@[simp] theorem State.modSvc_pinQueue (s : State) (n : Nat) (f : Service → Service) : (s.modSvc n f).pinQueue = s.pinQueue := rfl
@[simp] theorem State.modSvc_hbm (s : State) (n : Nat) (f : Service → Service) : (s.modSvc n f).hbm = s.hbm := rfl
@[simp] theorem State.modSvc_ddr (s : State) (n : Nat) (f : Service → Service) : (s.modSvc n f).ddr = s.ddr := rfl
@[simp] theorem State.modSvc_channels (s : State) (n : Nat) (f : Service → Service) : (s.modSvc n f).channels = s.channels := rfl
@[simp] theorem State.modSvc_spans (s : State) (n : Nat) (f : Service → Service) : (s.modSvc n f).spans = s.spans := rfl
@[simp] theorem State.modSvc_ports (s : State) (n : Nat) (f : Service → Service) : (s.modSvc n f).ports = s.ports := rfl
@[simp] theorem State.modSvc_topo (s : State) (n : Nat) (f : Service → Service) : (s.modSvc n f).topo = s.topo := rfl
@[simp] theorem State.modSvc_topoSeq (s : State) (n : Nat) (f : Service → Service) : (s.modSvc n f).topoSeq = s.topoSeq := rfl
@[simp] theorem State.modSvc_timeRoot (s : State) (n : Nat) (f : Service → Service) : (s.modSvc n f).timeRoot = s.timeRoot := rfl
@[simp] theorem State.modSvc_steady (s : State) (n : Nat) (f : Service → Service) : (s.modSvc n f).steady = s.steady := rfl
@[simp] theorem State.modSvc_wide (s : State) (n : Nat) (f : Service → Service) : (s.modSvc n f).wide = s.wide := rfl
@[simp] theorem State.modSvc_lens (s : State) (n : Nat) (f : Service → Service) : (s.modSvc n f).lens = s.lens := rfl
@[simp] theorem State.modSvc_closers (s : State) (n : Nat) (f : Service → Service) : (s.modSvc n f).closers = s.closers := rfl
@[simp] theorem State.modSvc_svcSeq (s : State) (n : Nat) (f : Service → Service) : (s.modSvc n f).svcSeq = s.svcSeq := rfl
@[simp] theorem State.modSvc_ucies (s : State) (n : Nat) (f : Service → Service) : (s.modSvc n f).ucies = s.ucies := rfl
@[simp] theorem State.modSvc_slopes (s : State) (n : Nat) (f : Service → Service) : (s.modSvc n f).slopes = s.slopes := rfl
@[simp] theorem State.modSvc_wakes (s : State) (n : Nat) (f : Service → Service) : (s.modSvc n f).wakes = s.wakes := rfl
@[simp] theorem State.modSvc_planeLatch (s : State) (n : Nat) (f : Service → Service) : (s.modSvc n f).planeLatch = s.planeLatch := rfl
@[simp] theorem State.modSvc_power (s : State) (n : Nat) (f : Service → Service) : (s.modSvc n f).power = s.power := rfl
@[simp] theorem State.modSvc_throttle (s : State) (n : Nat) (f : Service → Service) : (s.modSvc n f).throttle = s.throttle := rfl
@[simp] theorem State.modSvc_running (s : State) (n : Nat) (f : Service → Service) : (s.modSvc n f).running = s.running := rfl
@[simp] theorem State.modSvc_boot (s : State) (n : Nat) (f : Service → Service) : (s.modSvc n f).boot = s.boot := rfl
@[simp] theorem State.modSvc_faults (s : State) (n : Nat) (f : Service → Service) : (s.modSvc n f).faults = s.faults := rfl
@[simp] theorem State.modSvc_chunks (s : State) (n : Nat) (f : Service → Service) : (s.modSvc n f).chunks = s.chunks := rfl
@[simp] theorem State.modSvc_scour (s : State) (n : Nat) (f : Service → Service) : (s.modSvc n f).scour = s.scour := rfl
@[simp] theorem State.modSvc_ufrs (s : State) (n : Nat) (f : Service → Service) : (s.modSvc n f).ufrs = s.ufrs := rfl
@[simp] theorem State.modSvc_ufrKept (s : State) (n : Nat) (f : Service → Service) : (s.modSvc n f).ufrKept = s.ufrKept := rfl
@[simp] theorem State.modSvc_ufrShown (s : State) (n : Nat) (f : Service → Service) : (s.modSvc n f).ufrShown = s.ufrShown := rfl
@[simp] theorem State.modSvc_pkg (s : State) (n : Nat) (f : Service → Service) : (s.modSvc n f).pkg = s.pkg := rfl
@[simp] theorem State.modSvc_sec (s : State) (n : Nat) (f : Service → Service) : (s.modSvc n f).sec = s.sec := rfl

/-! ### State.modDisp -/

@[simp] theorem State.modDisp_pending (s : State) (q : Nat) (f : Disp → Disp) : (s.modDisp q f).pending = s.pending := rfl
@[simp] theorem State.modDisp_sent (s : State) (q : Nat) (f : Disp → Disp) : (s.modDisp q f).sent = s.sent := rfl
@[simp] theorem State.modDisp_fresh (s : State) (q : Nat) (f : Disp → Disp) : (s.modDisp q f).fresh = s.fresh := rfl
@[simp] theorem State.modDisp_tide (s : State) (q : Nat) (f : Disp → Disp) : (s.modDisp q f).tide = s.tide := rfl
@[simp] theorem State.modDisp_elapsed (s : State) (q : Nat) (f : Disp → Disp) : (s.modDisp q f).elapsed = s.elapsed := rfl
@[simp] theorem State.modDisp_regs (s : State) (q : Nat) (f : Disp → Disp) : (s.modDisp q f).regs = s.regs := rfl
@[simp] theorem State.modDisp_device (s : State) (q : Nat) (f : Disp → Disp) : (s.modDisp q f).device = s.device := rfl
@[simp] theorem State.modDisp_bamurn (s : State) (q : Nat) (f : Disp → Disp) : (s.modDisp q f).bamurn = s.bamurn := rfl
@[simp] theorem State.modDisp_floor (s : State) (q : Nat) (f : Disp → Disp) : (s.modDisp q f).floor = s.floor := rfl
@[simp] theorem State.modDisp_cfgs (s : State) (q : Nat) (f : Disp → Disp) : (s.modDisp q f).cfgs = s.cfgs := rfl
@[simp] theorem State.modDisp_tiles (s : State) (q : Nat) (f : Disp → Disp) : (s.modDisp q f).tiles = s.tiles := rfl
@[simp] theorem State.modDisp_jobs (s : State) (q : Nat) (f : Disp → Disp) : (s.modDisp q f).jobs = s.jobs := rfl
@[simp] theorem State.modDisp_latches (s : State) (q : Nat) (f : Disp → Disp) : (s.modDisp q f).latches = s.latches := rfl
@[simp] theorem State.modDisp_fills (s : State) (q : Nat) (f : Disp → Disp) : (s.modDisp q f).fills = s.fills := rfl
@[simp] theorem State.modDisp_hbmTags (s : State) (q : Nat) (f : Disp → Disp) : (s.modDisp q f).hbmTags = s.hbmTags := rfl
@[simp] theorem State.modDisp_ddrTags (s : State) (q : Nat) (f : Disp → Disp) : (s.modDisp q f).ddrTags = s.ddrTags := rfl
@[simp] theorem State.modDisp_experts (s : State) (q : Nat) (f : Disp → Disp) : (s.modDisp q f).experts = s.experts := rfl
@[simp] theorem State.modDisp_ctxs (s : State) (q : Nat) (f : Disp → Disp) : (s.modDisp q f).ctxs = s.ctxs := rfl
@[simp] theorem State.modDisp_cached (s : State) (q : Nat) (f : Disp → Disp) : (s.modDisp q f).cached = s.cached := rfl
@[simp] theorem State.modDisp_pools (s : State) (q : Nat) (f : Disp → Disp) : (s.modDisp q f).pools = s.pools := rfl
@[simp] theorem State.modDisp_pagers (s : State) (q : Nat) (f : Disp → Disp) : (s.modDisp q f).pagers = s.pagers := rfl
@[simp] theorem State.modDisp_pinQueue (s : State) (q : Nat) (f : Disp → Disp) : (s.modDisp q f).pinQueue = s.pinQueue := rfl
@[simp] theorem State.modDisp_hbm (s : State) (q : Nat) (f : Disp → Disp) : (s.modDisp q f).hbm = s.hbm := rfl
@[simp] theorem State.modDisp_ddr (s : State) (q : Nat) (f : Disp → Disp) : (s.modDisp q f).ddr = s.ddr := rfl
@[simp] theorem State.modDisp_channels (s : State) (q : Nat) (f : Disp → Disp) : (s.modDisp q f).channels = s.channels := rfl
@[simp] theorem State.modDisp_spans (s : State) (q : Nat) (f : Disp → Disp) : (s.modDisp q f).spans = s.spans := rfl
@[simp] theorem State.modDisp_ports (s : State) (q : Nat) (f : Disp → Disp) : (s.modDisp q f).ports = s.ports := rfl
@[simp] theorem State.modDisp_topo (s : State) (q : Nat) (f : Disp → Disp) : (s.modDisp q f).topo = s.topo := rfl
@[simp] theorem State.modDisp_topoSeq (s : State) (q : Nat) (f : Disp → Disp) : (s.modDisp q f).topoSeq = s.topoSeq := rfl
@[simp] theorem State.modDisp_timeRoot (s : State) (q : Nat) (f : Disp → Disp) : (s.modDisp q f).timeRoot = s.timeRoot := rfl
@[simp] theorem State.modDisp_steady (s : State) (q : Nat) (f : Disp → Disp) : (s.modDisp q f).steady = s.steady := rfl
@[simp] theorem State.modDisp_wide (s : State) (q : Nat) (f : Disp → Disp) : (s.modDisp q f).wide = s.wide := rfl
@[simp] theorem State.modDisp_svcs (s : State) (q : Nat) (f : Disp → Disp) : (s.modDisp q f).svcs = s.svcs := rfl
@[simp] theorem State.modDisp_lens (s : State) (q : Nat) (f : Disp → Disp) : (s.modDisp q f).lens = s.lens := rfl
@[simp] theorem State.modDisp_closers (s : State) (q : Nat) (f : Disp → Disp) : (s.modDisp q f).closers = s.closers := rfl
@[simp] theorem State.modDisp_svcSeq (s : State) (q : Nat) (f : Disp → Disp) : (s.modDisp q f).svcSeq = s.svcSeq := rfl
@[simp] theorem State.modDisp_ucies (s : State) (q : Nat) (f : Disp → Disp) : (s.modDisp q f).ucies = s.ucies := rfl
@[simp] theorem State.modDisp_slopes (s : State) (q : Nat) (f : Disp → Disp) : (s.modDisp q f).slopes = s.slopes := rfl
@[simp] theorem State.modDisp_wakes (s : State) (q : Nat) (f : Disp → Disp) : (s.modDisp q f).wakes = s.wakes := rfl
@[simp] theorem State.modDisp_planeLatch (s : State) (q : Nat) (f : Disp → Disp) : (s.modDisp q f).planeLatch = s.planeLatch := rfl
@[simp] theorem State.modDisp_power (s : State) (q : Nat) (f : Disp → Disp) : (s.modDisp q f).power = s.power := rfl
@[simp] theorem State.modDisp_throttle (s : State) (q : Nat) (f : Disp → Disp) : (s.modDisp q f).throttle = s.throttle := rfl
@[simp] theorem State.modDisp_running (s : State) (q : Nat) (f : Disp → Disp) : (s.modDisp q f).running = s.running := rfl
@[simp] theorem State.modDisp_boot (s : State) (q : Nat) (f : Disp → Disp) : (s.modDisp q f).boot = s.boot := rfl
@[simp] theorem State.modDisp_faults (s : State) (q : Nat) (f : Disp → Disp) : (s.modDisp q f).faults = s.faults := rfl
@[simp] theorem State.modDisp_chunks (s : State) (q : Nat) (f : Disp → Disp) : (s.modDisp q f).chunks = s.chunks := rfl
@[simp] theorem State.modDisp_scour (s : State) (q : Nat) (f : Disp → Disp) : (s.modDisp q f).scour = s.scour := rfl
@[simp] theorem State.modDisp_ufrs (s : State) (q : Nat) (f : Disp → Disp) : (s.modDisp q f).ufrs = s.ufrs := rfl
@[simp] theorem State.modDisp_ufrKept (s : State) (q : Nat) (f : Disp → Disp) : (s.modDisp q f).ufrKept = s.ufrKept := rfl
@[simp] theorem State.modDisp_ufrShown (s : State) (q : Nat) (f : Disp → Disp) : (s.modDisp q f).ufrShown = s.ufrShown := rfl
@[simp] theorem State.modDisp_pkg (s : State) (q : Nat) (f : Disp → Disp) : (s.modDisp q f).pkg = s.pkg := rfl
@[simp] theorem State.modDisp_sec (s : State) (q : Nat) (f : Disp → Disp) : (s.modDisp q f).sec = s.sec := rfl

/-! ### State.modBoot -/

@[simp] theorem State.modBoot_pending (s : State) (f : Boot → Boot) : (s.modBoot f).pending = s.pending := rfl
@[simp] theorem State.modBoot_sent (s : State) (f : Boot → Boot) : (s.modBoot f).sent = s.sent := rfl
@[simp] theorem State.modBoot_fresh (s : State) (f : Boot → Boot) : (s.modBoot f).fresh = s.fresh := rfl
@[simp] theorem State.modBoot_tide (s : State) (f : Boot → Boot) : (s.modBoot f).tide = s.tide := rfl
@[simp] theorem State.modBoot_elapsed (s : State) (f : Boot → Boot) : (s.modBoot f).elapsed = s.elapsed := rfl
@[simp] theorem State.modBoot_regs (s : State) (f : Boot → Boot) : (s.modBoot f).regs = s.regs := rfl
@[simp] theorem State.modBoot_device (s : State) (f : Boot → Boot) : (s.modBoot f).device = s.device := rfl
@[simp] theorem State.modBoot_bamurn (s : State) (f : Boot → Boot) : (s.modBoot f).bamurn = s.bamurn := rfl
@[simp] theorem State.modBoot_floor (s : State) (f : Boot → Boot) : (s.modBoot f).floor = s.floor := rfl
@[simp] theorem State.modBoot_cfgs (s : State) (f : Boot → Boot) : (s.modBoot f).cfgs = s.cfgs := rfl
@[simp] theorem State.modBoot_tiles (s : State) (f : Boot → Boot) : (s.modBoot f).tiles = s.tiles := rfl
@[simp] theorem State.modBoot_jobs (s : State) (f : Boot → Boot) : (s.modBoot f).jobs = s.jobs := rfl
@[simp] theorem State.modBoot_latches (s : State) (f : Boot → Boot) : (s.modBoot f).latches = s.latches := rfl
@[simp] theorem State.modBoot_fills (s : State) (f : Boot → Boot) : (s.modBoot f).fills = s.fills := rfl
@[simp] theorem State.modBoot_hbmTags (s : State) (f : Boot → Boot) : (s.modBoot f).hbmTags = s.hbmTags := rfl
@[simp] theorem State.modBoot_ddrTags (s : State) (f : Boot → Boot) : (s.modBoot f).ddrTags = s.ddrTags := rfl
@[simp] theorem State.modBoot_experts (s : State) (f : Boot → Boot) : (s.modBoot f).experts = s.experts := rfl
@[simp] theorem State.modBoot_disps (s : State) (f : Boot → Boot) : (s.modBoot f).disps = s.disps := rfl
@[simp] theorem State.modBoot_ctxs (s : State) (f : Boot → Boot) : (s.modBoot f).ctxs = s.ctxs := rfl
@[simp] theorem State.modBoot_cached (s : State) (f : Boot → Boot) : (s.modBoot f).cached = s.cached := rfl
@[simp] theorem State.modBoot_pools (s : State) (f : Boot → Boot) : (s.modBoot f).pools = s.pools := rfl
@[simp] theorem State.modBoot_pagers (s : State) (f : Boot → Boot) : (s.modBoot f).pagers = s.pagers := rfl
@[simp] theorem State.modBoot_pinQueue (s : State) (f : Boot → Boot) : (s.modBoot f).pinQueue = s.pinQueue := rfl
@[simp] theorem State.modBoot_hbm (s : State) (f : Boot → Boot) : (s.modBoot f).hbm = s.hbm := rfl
@[simp] theorem State.modBoot_ddr (s : State) (f : Boot → Boot) : (s.modBoot f).ddr = s.ddr := rfl
@[simp] theorem State.modBoot_channels (s : State) (f : Boot → Boot) : (s.modBoot f).channels = s.channels := rfl
@[simp] theorem State.modBoot_spans (s : State) (f : Boot → Boot) : (s.modBoot f).spans = s.spans := rfl
@[simp] theorem State.modBoot_ports (s : State) (f : Boot → Boot) : (s.modBoot f).ports = s.ports := rfl
@[simp] theorem State.modBoot_topo (s : State) (f : Boot → Boot) : (s.modBoot f).topo = s.topo := rfl
@[simp] theorem State.modBoot_topoSeq (s : State) (f : Boot → Boot) : (s.modBoot f).topoSeq = s.topoSeq := rfl
@[simp] theorem State.modBoot_timeRoot (s : State) (f : Boot → Boot) : (s.modBoot f).timeRoot = s.timeRoot := rfl
@[simp] theorem State.modBoot_steady (s : State) (f : Boot → Boot) : (s.modBoot f).steady = s.steady := rfl
@[simp] theorem State.modBoot_wide (s : State) (f : Boot → Boot) : (s.modBoot f).wide = s.wide := rfl
@[simp] theorem State.modBoot_svcs (s : State) (f : Boot → Boot) : (s.modBoot f).svcs = s.svcs := rfl
@[simp] theorem State.modBoot_lens (s : State) (f : Boot → Boot) : (s.modBoot f).lens = s.lens := rfl
@[simp] theorem State.modBoot_closers (s : State) (f : Boot → Boot) : (s.modBoot f).closers = s.closers := rfl
@[simp] theorem State.modBoot_svcSeq (s : State) (f : Boot → Boot) : (s.modBoot f).svcSeq = s.svcSeq := rfl
@[simp] theorem State.modBoot_ucies (s : State) (f : Boot → Boot) : (s.modBoot f).ucies = s.ucies := rfl
@[simp] theorem State.modBoot_slopes (s : State) (f : Boot → Boot) : (s.modBoot f).slopes = s.slopes := rfl
@[simp] theorem State.modBoot_wakes (s : State) (f : Boot → Boot) : (s.modBoot f).wakes = s.wakes := rfl
@[simp] theorem State.modBoot_planeLatch (s : State) (f : Boot → Boot) : (s.modBoot f).planeLatch = s.planeLatch := rfl
@[simp] theorem State.modBoot_power (s : State) (f : Boot → Boot) : (s.modBoot f).power = s.power := rfl
@[simp] theorem State.modBoot_throttle (s : State) (f : Boot → Boot) : (s.modBoot f).throttle = s.throttle := rfl
@[simp] theorem State.modBoot_running (s : State) (f : Boot → Boot) : (s.modBoot f).running = s.running := rfl
@[simp] theorem State.modBoot_faults (s : State) (f : Boot → Boot) : (s.modBoot f).faults = s.faults := rfl
@[simp] theorem State.modBoot_chunks (s : State) (f : Boot → Boot) : (s.modBoot f).chunks = s.chunks := rfl
@[simp] theorem State.modBoot_scour (s : State) (f : Boot → Boot) : (s.modBoot f).scour = s.scour := rfl
@[simp] theorem State.modBoot_ufrs (s : State) (f : Boot → Boot) : (s.modBoot f).ufrs = s.ufrs := rfl
@[simp] theorem State.modBoot_ufrKept (s : State) (f : Boot → Boot) : (s.modBoot f).ufrKept = s.ufrKept := rfl
@[simp] theorem State.modBoot_ufrShown (s : State) (f : Boot → Boot) : (s.modBoot f).ufrShown = s.ufrShown := rfl
@[simp] theorem State.modBoot_pkg (s : State) (f : Boot → Boot) : (s.modBoot f).pkg = s.pkg := rfl
@[simp] theorem State.modBoot_sec (s : State) (f : Boot → Boot) : (s.modBoot f).sec = s.sec := rfl

/-! ### State.modPower -/

@[simp] theorem State.modPower_pending (s : State) (f : Power → Power) : (s.modPower f).pending = s.pending := rfl
@[simp] theorem State.modPower_sent (s : State) (f : Power → Power) : (s.modPower f).sent = s.sent := rfl
@[simp] theorem State.modPower_fresh (s : State) (f : Power → Power) : (s.modPower f).fresh = s.fresh := rfl
@[simp] theorem State.modPower_tide (s : State) (f : Power → Power) : (s.modPower f).tide = s.tide := rfl
@[simp] theorem State.modPower_elapsed (s : State) (f : Power → Power) : (s.modPower f).elapsed = s.elapsed := rfl
@[simp] theorem State.modPower_regs (s : State) (f : Power → Power) : (s.modPower f).regs = s.regs := rfl
@[simp] theorem State.modPower_device (s : State) (f : Power → Power) : (s.modPower f).device = s.device := rfl
@[simp] theorem State.modPower_bamurn (s : State) (f : Power → Power) : (s.modPower f).bamurn = s.bamurn := rfl
@[simp] theorem State.modPower_floor (s : State) (f : Power → Power) : (s.modPower f).floor = s.floor := rfl
@[simp] theorem State.modPower_cfgs (s : State) (f : Power → Power) : (s.modPower f).cfgs = s.cfgs := rfl
@[simp] theorem State.modPower_tiles (s : State) (f : Power → Power) : (s.modPower f).tiles = s.tiles := rfl
@[simp] theorem State.modPower_jobs (s : State) (f : Power → Power) : (s.modPower f).jobs = s.jobs := rfl
@[simp] theorem State.modPower_latches (s : State) (f : Power → Power) : (s.modPower f).latches = s.latches := rfl
@[simp] theorem State.modPower_fills (s : State) (f : Power → Power) : (s.modPower f).fills = s.fills := rfl
@[simp] theorem State.modPower_hbmTags (s : State) (f : Power → Power) : (s.modPower f).hbmTags = s.hbmTags := rfl
@[simp] theorem State.modPower_ddrTags (s : State) (f : Power → Power) : (s.modPower f).ddrTags = s.ddrTags := rfl
@[simp] theorem State.modPower_experts (s : State) (f : Power → Power) : (s.modPower f).experts = s.experts := rfl
@[simp] theorem State.modPower_disps (s : State) (f : Power → Power) : (s.modPower f).disps = s.disps := rfl
@[simp] theorem State.modPower_ctxs (s : State) (f : Power → Power) : (s.modPower f).ctxs = s.ctxs := rfl
@[simp] theorem State.modPower_cached (s : State) (f : Power → Power) : (s.modPower f).cached = s.cached := rfl
@[simp] theorem State.modPower_pools (s : State) (f : Power → Power) : (s.modPower f).pools = s.pools := rfl
@[simp] theorem State.modPower_pagers (s : State) (f : Power → Power) : (s.modPower f).pagers = s.pagers := rfl
@[simp] theorem State.modPower_pinQueue (s : State) (f : Power → Power) : (s.modPower f).pinQueue = s.pinQueue := rfl
@[simp] theorem State.modPower_hbm (s : State) (f : Power → Power) : (s.modPower f).hbm = s.hbm := rfl
@[simp] theorem State.modPower_ddr (s : State) (f : Power → Power) : (s.modPower f).ddr = s.ddr := rfl
@[simp] theorem State.modPower_channels (s : State) (f : Power → Power) : (s.modPower f).channels = s.channels := rfl
@[simp] theorem State.modPower_spans (s : State) (f : Power → Power) : (s.modPower f).spans = s.spans := rfl
@[simp] theorem State.modPower_ports (s : State) (f : Power → Power) : (s.modPower f).ports = s.ports := rfl
@[simp] theorem State.modPower_topo (s : State) (f : Power → Power) : (s.modPower f).topo = s.topo := rfl
@[simp] theorem State.modPower_topoSeq (s : State) (f : Power → Power) : (s.modPower f).topoSeq = s.topoSeq := rfl
@[simp] theorem State.modPower_timeRoot (s : State) (f : Power → Power) : (s.modPower f).timeRoot = s.timeRoot := rfl
@[simp] theorem State.modPower_steady (s : State) (f : Power → Power) : (s.modPower f).steady = s.steady := rfl
@[simp] theorem State.modPower_wide (s : State) (f : Power → Power) : (s.modPower f).wide = s.wide := rfl
@[simp] theorem State.modPower_svcs (s : State) (f : Power → Power) : (s.modPower f).svcs = s.svcs := rfl
@[simp] theorem State.modPower_lens (s : State) (f : Power → Power) : (s.modPower f).lens = s.lens := rfl
@[simp] theorem State.modPower_closers (s : State) (f : Power → Power) : (s.modPower f).closers = s.closers := rfl
@[simp] theorem State.modPower_svcSeq (s : State) (f : Power → Power) : (s.modPower f).svcSeq = s.svcSeq := rfl
@[simp] theorem State.modPower_ucies (s : State) (f : Power → Power) : (s.modPower f).ucies = s.ucies := rfl
@[simp] theorem State.modPower_slopes (s : State) (f : Power → Power) : (s.modPower f).slopes = s.slopes := rfl
@[simp] theorem State.modPower_wakes (s : State) (f : Power → Power) : (s.modPower f).wakes = s.wakes := rfl
@[simp] theorem State.modPower_planeLatch (s : State) (f : Power → Power) : (s.modPower f).planeLatch = s.planeLatch := rfl
@[simp] theorem State.modPower_throttle (s : State) (f : Power → Power) : (s.modPower f).throttle = s.throttle := rfl
@[simp] theorem State.modPower_running (s : State) (f : Power → Power) : (s.modPower f).running = s.running := rfl
@[simp] theorem State.modPower_boot (s : State) (f : Power → Power) : (s.modPower f).boot = s.boot := rfl
@[simp] theorem State.modPower_faults (s : State) (f : Power → Power) : (s.modPower f).faults = s.faults := rfl
@[simp] theorem State.modPower_chunks (s : State) (f : Power → Power) : (s.modPower f).chunks = s.chunks := rfl
@[simp] theorem State.modPower_scour (s : State) (f : Power → Power) : (s.modPower f).scour = s.scour := rfl
@[simp] theorem State.modPower_ufrs (s : State) (f : Power → Power) : (s.modPower f).ufrs = s.ufrs := rfl
@[simp] theorem State.modPower_ufrKept (s : State) (f : Power → Power) : (s.modPower f).ufrKept = s.ufrKept := rfl
@[simp] theorem State.modPower_ufrShown (s : State) (f : Power → Power) : (s.modPower f).ufrShown = s.ufrShown := rfl
@[simp] theorem State.modPower_pkg (s : State) (f : Power → Power) : (s.modPower f).pkg = s.pkg := rfl
@[simp] theorem State.modPower_sec (s : State) (f : Power → Power) : (s.modPower f).sec = s.sec := rfl

/-! ### State.modThrottle -/

@[simp] theorem State.modThrottle_pending (s : State) (f : Throttle → Throttle) : (s.modThrottle f).pending = s.pending := rfl
@[simp] theorem State.modThrottle_sent (s : State) (f : Throttle → Throttle) : (s.modThrottle f).sent = s.sent := rfl
@[simp] theorem State.modThrottle_fresh (s : State) (f : Throttle → Throttle) : (s.modThrottle f).fresh = s.fresh := rfl
@[simp] theorem State.modThrottle_tide (s : State) (f : Throttle → Throttle) : (s.modThrottle f).tide = s.tide := rfl
@[simp] theorem State.modThrottle_elapsed (s : State) (f : Throttle → Throttle) : (s.modThrottle f).elapsed = s.elapsed := rfl
@[simp] theorem State.modThrottle_regs (s : State) (f : Throttle → Throttle) : (s.modThrottle f).regs = s.regs := rfl
@[simp] theorem State.modThrottle_device (s : State) (f : Throttle → Throttle) : (s.modThrottle f).device = s.device := rfl
@[simp] theorem State.modThrottle_bamurn (s : State) (f : Throttle → Throttle) : (s.modThrottle f).bamurn = s.bamurn := rfl
@[simp] theorem State.modThrottle_floor (s : State) (f : Throttle → Throttle) : (s.modThrottle f).floor = s.floor := rfl
@[simp] theorem State.modThrottle_cfgs (s : State) (f : Throttle → Throttle) : (s.modThrottle f).cfgs = s.cfgs := rfl
@[simp] theorem State.modThrottle_tiles (s : State) (f : Throttle → Throttle) : (s.modThrottle f).tiles = s.tiles := rfl
@[simp] theorem State.modThrottle_jobs (s : State) (f : Throttle → Throttle) : (s.modThrottle f).jobs = s.jobs := rfl
@[simp] theorem State.modThrottle_latches (s : State) (f : Throttle → Throttle) : (s.modThrottle f).latches = s.latches := rfl
@[simp] theorem State.modThrottle_fills (s : State) (f : Throttle → Throttle) : (s.modThrottle f).fills = s.fills := rfl
@[simp] theorem State.modThrottle_hbmTags (s : State) (f : Throttle → Throttle) : (s.modThrottle f).hbmTags = s.hbmTags := rfl
@[simp] theorem State.modThrottle_ddrTags (s : State) (f : Throttle → Throttle) : (s.modThrottle f).ddrTags = s.ddrTags := rfl
@[simp] theorem State.modThrottle_experts (s : State) (f : Throttle → Throttle) : (s.modThrottle f).experts = s.experts := rfl
@[simp] theorem State.modThrottle_disps (s : State) (f : Throttle → Throttle) : (s.modThrottle f).disps = s.disps := rfl
@[simp] theorem State.modThrottle_ctxs (s : State) (f : Throttle → Throttle) : (s.modThrottle f).ctxs = s.ctxs := rfl
@[simp] theorem State.modThrottle_cached (s : State) (f : Throttle → Throttle) : (s.modThrottle f).cached = s.cached := rfl
@[simp] theorem State.modThrottle_pools (s : State) (f : Throttle → Throttle) : (s.modThrottle f).pools = s.pools := rfl
@[simp] theorem State.modThrottle_pagers (s : State) (f : Throttle → Throttle) : (s.modThrottle f).pagers = s.pagers := rfl
@[simp] theorem State.modThrottle_pinQueue (s : State) (f : Throttle → Throttle) : (s.modThrottle f).pinQueue = s.pinQueue := rfl
@[simp] theorem State.modThrottle_hbm (s : State) (f : Throttle → Throttle) : (s.modThrottle f).hbm = s.hbm := rfl
@[simp] theorem State.modThrottle_ddr (s : State) (f : Throttle → Throttle) : (s.modThrottle f).ddr = s.ddr := rfl
@[simp] theorem State.modThrottle_channels (s : State) (f : Throttle → Throttle) : (s.modThrottle f).channels = s.channels := rfl
@[simp] theorem State.modThrottle_spans (s : State) (f : Throttle → Throttle) : (s.modThrottle f).spans = s.spans := rfl
@[simp] theorem State.modThrottle_ports (s : State) (f : Throttle → Throttle) : (s.modThrottle f).ports = s.ports := rfl
@[simp] theorem State.modThrottle_topo (s : State) (f : Throttle → Throttle) : (s.modThrottle f).topo = s.topo := rfl
@[simp] theorem State.modThrottle_topoSeq (s : State) (f : Throttle → Throttle) : (s.modThrottle f).topoSeq = s.topoSeq := rfl
@[simp] theorem State.modThrottle_timeRoot (s : State) (f : Throttle → Throttle) : (s.modThrottle f).timeRoot = s.timeRoot := rfl
@[simp] theorem State.modThrottle_steady (s : State) (f : Throttle → Throttle) : (s.modThrottle f).steady = s.steady := rfl
@[simp] theorem State.modThrottle_wide (s : State) (f : Throttle → Throttle) : (s.modThrottle f).wide = s.wide := rfl
@[simp] theorem State.modThrottle_svcs (s : State) (f : Throttle → Throttle) : (s.modThrottle f).svcs = s.svcs := rfl
@[simp] theorem State.modThrottle_lens (s : State) (f : Throttle → Throttle) : (s.modThrottle f).lens = s.lens := rfl
@[simp] theorem State.modThrottle_closers (s : State) (f : Throttle → Throttle) : (s.modThrottle f).closers = s.closers := rfl
@[simp] theorem State.modThrottle_svcSeq (s : State) (f : Throttle → Throttle) : (s.modThrottle f).svcSeq = s.svcSeq := rfl
@[simp] theorem State.modThrottle_ucies (s : State) (f : Throttle → Throttle) : (s.modThrottle f).ucies = s.ucies := rfl
@[simp] theorem State.modThrottle_slopes (s : State) (f : Throttle → Throttle) : (s.modThrottle f).slopes = s.slopes := rfl
@[simp] theorem State.modThrottle_wakes (s : State) (f : Throttle → Throttle) : (s.modThrottle f).wakes = s.wakes := rfl
@[simp] theorem State.modThrottle_planeLatch (s : State) (f : Throttle → Throttle) : (s.modThrottle f).planeLatch = s.planeLatch := rfl
@[simp] theorem State.modThrottle_power (s : State) (f : Throttle → Throttle) : (s.modThrottle f).power = s.power := rfl
@[simp] theorem State.modThrottle_running (s : State) (f : Throttle → Throttle) : (s.modThrottle f).running = s.running := rfl
@[simp] theorem State.modThrottle_boot (s : State) (f : Throttle → Throttle) : (s.modThrottle f).boot = s.boot := rfl
@[simp] theorem State.modThrottle_faults (s : State) (f : Throttle → Throttle) : (s.modThrottle f).faults = s.faults := rfl
@[simp] theorem State.modThrottle_chunks (s : State) (f : Throttle → Throttle) : (s.modThrottle f).chunks = s.chunks := rfl
@[simp] theorem State.modThrottle_scour (s : State) (f : Throttle → Throttle) : (s.modThrottle f).scour = s.scour := rfl
@[simp] theorem State.modThrottle_ufrs (s : State) (f : Throttle → Throttle) : (s.modThrottle f).ufrs = s.ufrs := rfl
@[simp] theorem State.modThrottle_ufrKept (s : State) (f : Throttle → Throttle) : (s.modThrottle f).ufrKept = s.ufrKept := rfl
@[simp] theorem State.modThrottle_ufrShown (s : State) (f : Throttle → Throttle) : (s.modThrottle f).ufrShown = s.ufrShown := rfl
@[simp] theorem State.modThrottle_pkg (s : State) (f : Throttle → Throttle) : (s.modThrottle f).pkg = s.pkg := rfl
@[simp] theorem State.modThrottle_sec (s : State) (f : Throttle → Throttle) : (s.modThrottle f).sec = s.sec := rfl

/-! ### State.setHbm -/

@[simp] theorem State.setHbm_pending (s : State) (m : Tbl Codeword) : (s.setHbm m).pending = s.pending := rfl
@[simp] theorem State.setHbm_sent (s : State) (m : Tbl Codeword) : (s.setHbm m).sent = s.sent := rfl
@[simp] theorem State.setHbm_fresh (s : State) (m : Tbl Codeword) : (s.setHbm m).fresh = s.fresh := rfl
@[simp] theorem State.setHbm_tide (s : State) (m : Tbl Codeword) : (s.setHbm m).tide = s.tide := rfl
@[simp] theorem State.setHbm_elapsed (s : State) (m : Tbl Codeword) : (s.setHbm m).elapsed = s.elapsed := rfl
@[simp] theorem State.setHbm_regs (s : State) (m : Tbl Codeword) : (s.setHbm m).regs = s.regs := rfl
@[simp] theorem State.setHbm_device (s : State) (m : Tbl Codeword) : (s.setHbm m).device = s.device := rfl
@[simp] theorem State.setHbm_bamurn (s : State) (m : Tbl Codeword) : (s.setHbm m).bamurn = s.bamurn := rfl
@[simp] theorem State.setHbm_floor (s : State) (m : Tbl Codeword) : (s.setHbm m).floor = s.floor := rfl
@[simp] theorem State.setHbm_cfgs (s : State) (m : Tbl Codeword) : (s.setHbm m).cfgs = s.cfgs := rfl
@[simp] theorem State.setHbm_tiles (s : State) (m : Tbl Codeword) : (s.setHbm m).tiles = s.tiles := rfl
@[simp] theorem State.setHbm_jobs (s : State) (m : Tbl Codeword) : (s.setHbm m).jobs = s.jobs := rfl
@[simp] theorem State.setHbm_latches (s : State) (m : Tbl Codeword) : (s.setHbm m).latches = s.latches := rfl
@[simp] theorem State.setHbm_fills (s : State) (m : Tbl Codeword) : (s.setHbm m).fills = s.fills := rfl
@[simp] theorem State.setHbm_hbmTags (s : State) (m : Tbl Codeword) : (s.setHbm m).hbmTags = s.hbmTags := rfl
@[simp] theorem State.setHbm_ddrTags (s : State) (m : Tbl Codeword) : (s.setHbm m).ddrTags = s.ddrTags := rfl
@[simp] theorem State.setHbm_experts (s : State) (m : Tbl Codeword) : (s.setHbm m).experts = s.experts := rfl
@[simp] theorem State.setHbm_disps (s : State) (m : Tbl Codeword) : (s.setHbm m).disps = s.disps := rfl
@[simp] theorem State.setHbm_ctxs (s : State) (m : Tbl Codeword) : (s.setHbm m).ctxs = s.ctxs := rfl
@[simp] theorem State.setHbm_cached (s : State) (m : Tbl Codeword) : (s.setHbm m).cached = s.cached := rfl
@[simp] theorem State.setHbm_pools (s : State) (m : Tbl Codeword) : (s.setHbm m).pools = s.pools := rfl
@[simp] theorem State.setHbm_pagers (s : State) (m : Tbl Codeword) : (s.setHbm m).pagers = s.pagers := rfl
@[simp] theorem State.setHbm_pinQueue (s : State) (m : Tbl Codeword) : (s.setHbm m).pinQueue = s.pinQueue := rfl
@[simp] theorem State.setHbm_ddr (s : State) (m : Tbl Codeword) : (s.setHbm m).ddr = s.ddr := rfl
@[simp] theorem State.setHbm_channels (s : State) (m : Tbl Codeword) : (s.setHbm m).channels = s.channels := rfl
@[simp] theorem State.setHbm_spans (s : State) (m : Tbl Codeword) : (s.setHbm m).spans = s.spans := rfl
@[simp] theorem State.setHbm_ports (s : State) (m : Tbl Codeword) : (s.setHbm m).ports = s.ports := rfl
@[simp] theorem State.setHbm_topo (s : State) (m : Tbl Codeword) : (s.setHbm m).topo = s.topo := rfl
@[simp] theorem State.setHbm_topoSeq (s : State) (m : Tbl Codeword) : (s.setHbm m).topoSeq = s.topoSeq := rfl
@[simp] theorem State.setHbm_timeRoot (s : State) (m : Tbl Codeword) : (s.setHbm m).timeRoot = s.timeRoot := rfl
@[simp] theorem State.setHbm_steady (s : State) (m : Tbl Codeword) : (s.setHbm m).steady = s.steady := rfl
@[simp] theorem State.setHbm_wide (s : State) (m : Tbl Codeword) : (s.setHbm m).wide = s.wide := rfl
@[simp] theorem State.setHbm_svcs (s : State) (m : Tbl Codeword) : (s.setHbm m).svcs = s.svcs := rfl
@[simp] theorem State.setHbm_lens (s : State) (m : Tbl Codeword) : (s.setHbm m).lens = s.lens := rfl
@[simp] theorem State.setHbm_closers (s : State) (m : Tbl Codeword) : (s.setHbm m).closers = s.closers := rfl
@[simp] theorem State.setHbm_svcSeq (s : State) (m : Tbl Codeword) : (s.setHbm m).svcSeq = s.svcSeq := rfl
@[simp] theorem State.setHbm_ucies (s : State) (m : Tbl Codeword) : (s.setHbm m).ucies = s.ucies := rfl
@[simp] theorem State.setHbm_slopes (s : State) (m : Tbl Codeword) : (s.setHbm m).slopes = s.slopes := rfl
@[simp] theorem State.setHbm_wakes (s : State) (m : Tbl Codeword) : (s.setHbm m).wakes = s.wakes := rfl
@[simp] theorem State.setHbm_planeLatch (s : State) (m : Tbl Codeword) : (s.setHbm m).planeLatch = s.planeLatch := rfl
@[simp] theorem State.setHbm_power (s : State) (m : Tbl Codeword) : (s.setHbm m).power = s.power := rfl
@[simp] theorem State.setHbm_throttle (s : State) (m : Tbl Codeword) : (s.setHbm m).throttle = s.throttle := rfl
@[simp] theorem State.setHbm_running (s : State) (m : Tbl Codeword) : (s.setHbm m).running = s.running := rfl
@[simp] theorem State.setHbm_boot (s : State) (m : Tbl Codeword) : (s.setHbm m).boot = s.boot := rfl
@[simp] theorem State.setHbm_faults (s : State) (m : Tbl Codeword) : (s.setHbm m).faults = s.faults := rfl
@[simp] theorem State.setHbm_chunks (s : State) (m : Tbl Codeword) : (s.setHbm m).chunks = s.chunks := rfl
@[simp] theorem State.setHbm_scour (s : State) (m : Tbl Codeword) : (s.setHbm m).scour = s.scour := rfl
@[simp] theorem State.setHbm_ufrs (s : State) (m : Tbl Codeword) : (s.setHbm m).ufrs = s.ufrs := rfl
@[simp] theorem State.setHbm_ufrKept (s : State) (m : Tbl Codeword) : (s.setHbm m).ufrKept = s.ufrKept := rfl
@[simp] theorem State.setHbm_ufrShown (s : State) (m : Tbl Codeword) : (s.setHbm m).ufrShown = s.ufrShown := rfl
@[simp] theorem State.setHbm_pkg (s : State) (m : Tbl Codeword) : (s.setHbm m).pkg = s.pkg := rfl
@[simp] theorem State.setHbm_sec (s : State) (m : Tbl Codeword) : (s.setHbm m).sec = s.sec := rfl

/-! ### State.setDdr -/

@[simp] theorem State.setDdr_pending (s : State) (m : Tbl (BitVec 640)) : (s.setDdr m).pending = s.pending := rfl
@[simp] theorem State.setDdr_sent (s : State) (m : Tbl (BitVec 640)) : (s.setDdr m).sent = s.sent := rfl
@[simp] theorem State.setDdr_fresh (s : State) (m : Tbl (BitVec 640)) : (s.setDdr m).fresh = s.fresh := rfl
@[simp] theorem State.setDdr_tide (s : State) (m : Tbl (BitVec 640)) : (s.setDdr m).tide = s.tide := rfl
@[simp] theorem State.setDdr_elapsed (s : State) (m : Tbl (BitVec 640)) : (s.setDdr m).elapsed = s.elapsed := rfl
@[simp] theorem State.setDdr_regs (s : State) (m : Tbl (BitVec 640)) : (s.setDdr m).regs = s.regs := rfl
@[simp] theorem State.setDdr_device (s : State) (m : Tbl (BitVec 640)) : (s.setDdr m).device = s.device := rfl
@[simp] theorem State.setDdr_bamurn (s : State) (m : Tbl (BitVec 640)) : (s.setDdr m).bamurn = s.bamurn := rfl
@[simp] theorem State.setDdr_floor (s : State) (m : Tbl (BitVec 640)) : (s.setDdr m).floor = s.floor := rfl
@[simp] theorem State.setDdr_cfgs (s : State) (m : Tbl (BitVec 640)) : (s.setDdr m).cfgs = s.cfgs := rfl
@[simp] theorem State.setDdr_tiles (s : State) (m : Tbl (BitVec 640)) : (s.setDdr m).tiles = s.tiles := rfl
@[simp] theorem State.setDdr_jobs (s : State) (m : Tbl (BitVec 640)) : (s.setDdr m).jobs = s.jobs := rfl
@[simp] theorem State.setDdr_latches (s : State) (m : Tbl (BitVec 640)) : (s.setDdr m).latches = s.latches := rfl
@[simp] theorem State.setDdr_fills (s : State) (m : Tbl (BitVec 640)) : (s.setDdr m).fills = s.fills := rfl
@[simp] theorem State.setDdr_hbmTags (s : State) (m : Tbl (BitVec 640)) : (s.setDdr m).hbmTags = s.hbmTags := rfl
@[simp] theorem State.setDdr_ddrTags (s : State) (m : Tbl (BitVec 640)) : (s.setDdr m).ddrTags = s.ddrTags := rfl
@[simp] theorem State.setDdr_experts (s : State) (m : Tbl (BitVec 640)) : (s.setDdr m).experts = s.experts := rfl
@[simp] theorem State.setDdr_disps (s : State) (m : Tbl (BitVec 640)) : (s.setDdr m).disps = s.disps := rfl
@[simp] theorem State.setDdr_ctxs (s : State) (m : Tbl (BitVec 640)) : (s.setDdr m).ctxs = s.ctxs := rfl
@[simp] theorem State.setDdr_cached (s : State) (m : Tbl (BitVec 640)) : (s.setDdr m).cached = s.cached := rfl
@[simp] theorem State.setDdr_pools (s : State) (m : Tbl (BitVec 640)) : (s.setDdr m).pools = s.pools := rfl
@[simp] theorem State.setDdr_pagers (s : State) (m : Tbl (BitVec 640)) : (s.setDdr m).pagers = s.pagers := rfl
@[simp] theorem State.setDdr_pinQueue (s : State) (m : Tbl (BitVec 640)) : (s.setDdr m).pinQueue = s.pinQueue := rfl
@[simp] theorem State.setDdr_hbm (s : State) (m : Tbl (BitVec 640)) : (s.setDdr m).hbm = s.hbm := rfl
@[simp] theorem State.setDdr_channels (s : State) (m : Tbl (BitVec 640)) : (s.setDdr m).channels = s.channels := rfl
@[simp] theorem State.setDdr_spans (s : State) (m : Tbl (BitVec 640)) : (s.setDdr m).spans = s.spans := rfl
@[simp] theorem State.setDdr_ports (s : State) (m : Tbl (BitVec 640)) : (s.setDdr m).ports = s.ports := rfl
@[simp] theorem State.setDdr_topo (s : State) (m : Tbl (BitVec 640)) : (s.setDdr m).topo = s.topo := rfl
@[simp] theorem State.setDdr_topoSeq (s : State) (m : Tbl (BitVec 640)) : (s.setDdr m).topoSeq = s.topoSeq := rfl
@[simp] theorem State.setDdr_timeRoot (s : State) (m : Tbl (BitVec 640)) : (s.setDdr m).timeRoot = s.timeRoot := rfl
@[simp] theorem State.setDdr_steady (s : State) (m : Tbl (BitVec 640)) : (s.setDdr m).steady = s.steady := rfl
@[simp] theorem State.setDdr_wide (s : State) (m : Tbl (BitVec 640)) : (s.setDdr m).wide = s.wide := rfl
@[simp] theorem State.setDdr_svcs (s : State) (m : Tbl (BitVec 640)) : (s.setDdr m).svcs = s.svcs := rfl
@[simp] theorem State.setDdr_lens (s : State) (m : Tbl (BitVec 640)) : (s.setDdr m).lens = s.lens := rfl
@[simp] theorem State.setDdr_closers (s : State) (m : Tbl (BitVec 640)) : (s.setDdr m).closers = s.closers := rfl
@[simp] theorem State.setDdr_svcSeq (s : State) (m : Tbl (BitVec 640)) : (s.setDdr m).svcSeq = s.svcSeq := rfl
@[simp] theorem State.setDdr_ucies (s : State) (m : Tbl (BitVec 640)) : (s.setDdr m).ucies = s.ucies := rfl
@[simp] theorem State.setDdr_slopes (s : State) (m : Tbl (BitVec 640)) : (s.setDdr m).slopes = s.slopes := rfl
@[simp] theorem State.setDdr_wakes (s : State) (m : Tbl (BitVec 640)) : (s.setDdr m).wakes = s.wakes := rfl
@[simp] theorem State.setDdr_planeLatch (s : State) (m : Tbl (BitVec 640)) : (s.setDdr m).planeLatch = s.planeLatch := rfl
@[simp] theorem State.setDdr_power (s : State) (m : Tbl (BitVec 640)) : (s.setDdr m).power = s.power := rfl
@[simp] theorem State.setDdr_throttle (s : State) (m : Tbl (BitVec 640)) : (s.setDdr m).throttle = s.throttle := rfl
@[simp] theorem State.setDdr_running (s : State) (m : Tbl (BitVec 640)) : (s.setDdr m).running = s.running := rfl
@[simp] theorem State.setDdr_boot (s : State) (m : Tbl (BitVec 640)) : (s.setDdr m).boot = s.boot := rfl
@[simp] theorem State.setDdr_faults (s : State) (m : Tbl (BitVec 640)) : (s.setDdr m).faults = s.faults := rfl
@[simp] theorem State.setDdr_chunks (s : State) (m : Tbl (BitVec 640)) : (s.setDdr m).chunks = s.chunks := rfl
@[simp] theorem State.setDdr_scour (s : State) (m : Tbl (BitVec 640)) : (s.setDdr m).scour = s.scour := rfl
@[simp] theorem State.setDdr_ufrs (s : State) (m : Tbl (BitVec 640)) : (s.setDdr m).ufrs = s.ufrs := rfl
@[simp] theorem State.setDdr_ufrKept (s : State) (m : Tbl (BitVec 640)) : (s.setDdr m).ufrKept = s.ufrKept := rfl
@[simp] theorem State.setDdr_ufrShown (s : State) (m : Tbl (BitVec 640)) : (s.setDdr m).ufrShown = s.ufrShown := rfl
@[simp] theorem State.setDdr_pkg (s : State) (m : Tbl (BitVec 640)) : (s.setDdr m).pkg = s.pkg := rfl
@[simp] theorem State.setDdr_sec (s : State) (m : Tbl (BitVec 640)) : (s.setDdr m).sec = s.sec := rfl

end Sys2Proof.Machine
end

