-- ==== Sys2Proof/Laws/Store.lean ====
section
/-! SUPPORT. The laws of the sparse table: a read after a write, and that writing and dropping keys keep the canonical form. -/

namespace Sys2Proof.Machine

variable {α : Type}

/-- Every key of `t` exceeds `k`. -/
def Tbl.above (t : Tbl α) (k : Nat) : Prop := ∀ e ∈ t, k < e.1

theorem Tbl.sorted_cons (e : Nat × α) (t : Tbl α) :
    Tbl.sorted (e :: t) = true ↔ Tbl.above t e.1 ∧ Tbl.sorted t = true := by
  induction t generalizing e with
  | nil => simp [Tbl.sorted, Tbl.above]
  | cons x r ih =>
    obtain ⟨j, v⟩ := e
    obtain ⟨k, w⟩ := x
    simp only [Tbl.sorted, Bool.and_eq_true, decide_eq_true_eq]
    constructor
    · rintro ⟨hjk, hs⟩
      refine ⟨?_, hs⟩
      intro a ha
      rcases List.mem_cons.1 ha with rfl | ha
      · exact hjk
      · exact lt_trans hjk (((ih (k, w)).1 hs).1 a ha)
    · rintro ⟨ha, hs⟩
      exact ⟨ha (k, w) (List.mem_cons_self ..), hs⟩

theorem Tbl.mem_insert (t : Tbl α) (k : Nat) (v : α) (e : Nat × α) (h : e ∈ Tbl.insert t k v) : e = (k, v) ∨ e ∈ t := by
  induction t with
  | nil => simpa [Tbl.insert] using h
  | cons x r ih =>
    obtain ⟨j, w⟩ := x
    simp only [Tbl.insert] at h
    split at h
    · simpa using h
    · split at h
      · simp only [List.mem_cons] at h ⊢
        tauto
      · simp only [List.mem_cons] at h ⊢
        rcases h with h | h
        · tauto
        · rcases ih h with h | h <;> tauto

theorem Tbl.sorted_insert (t : Tbl α) (k : Nat) (v : α) (h : Tbl.sorted t = true) : Tbl.sorted (Tbl.insert t k v) = true := by
  induction t with
  | nil => simp [Tbl.insert, Tbl.sorted]
  | cons x r ih =>
    obtain ⟨j, w⟩ := x
    have hx := (Tbl.sorted_cons (j, w) r).1 h
    simp only [Tbl.insert]
    split
    · next hk =>
      refine (Tbl.sorted_cons _ _).2 ⟨?_, h⟩
      intro e he
      rcases List.mem_cons.1 he with rfl | he
      · exact hk
      · exact lt_trans hk (hx.1 e he)
    · split
      · next hk =>
        subst hk
        exact (Tbl.sorted_cons _ _).2 hx
      · next hk1 hk2 =>
        refine (Tbl.sorted_cons _ _).2 ⟨?_, ih hx.2⟩
        intro e he
        rcases Tbl.mem_insert r k v e he with rfl | he
        · simp only; omega
        · exact hx.1 e he

theorem Tbl.sorted_filter (t : Tbl α) (p : Nat × α → Bool) (h : Tbl.sorted t = true) : Tbl.sorted (t.filter p) = true := by
  induction t with
  | nil => simpa using h
  | cons x r ih =>
    have hx := (Tbl.sorted_cons x r).1 h
    simp only [List.filter_cons]
    split
    · refine (Tbl.sorted_cons _ _).2 ⟨?_, ih hx.2⟩
      intro e he
      exact hx.1 e (List.mem_filter.1 he).1
    · exact ih hx.2

section Canonical
variable [DecidableEq α]

theorem Tbl.wf_iff (t : Tbl α) (d : Nat → α) : Tbl.wf t d = true ↔ Tbl.sorted t = true ∧ ∀ e ∈ t, e.2 ≠ d e.1 := by
  simp [Tbl.wf]

theorem Tbl.wf_nil (d : Nat → α) : Tbl.wf ([] : Tbl α) d = true := by simp [Tbl.wf, Tbl.sorted]

/-- Dropping keys keeps the canonical form. -/
theorem Tbl.wf_filter (t : Tbl α) (d : Nat → α) (p : Nat × α → Bool) (h : Tbl.wf t d = true) : Tbl.wf (t.filter p) d = true := by
  rw [Tbl.wf_iff] at h ⊢
  exact ⟨Tbl.sorted_filter t p h.1, fun e he => h.2 e (List.mem_filter.1 he).1⟩

/-- A write keeps the canonical form. -/
theorem Tbl.wf_put (t : Tbl α) (d : Nat → α) (k : Nat) (v : α) (h : Tbl.wf t d = true) : Tbl.wf (Tbl.put t (d k) k v) d = true := by
  unfold Tbl.put
  split
  · exact Tbl.wf_filter t d _ h
  · next hv =>
    rw [Tbl.wf_iff] at h ⊢
    refine ⟨Tbl.sorted_insert t k v h.1, fun e he => ?_⟩
    rcases Tbl.mem_insert t k v e he with rfl | he
    · exact hv
    · exact h.2 e he

end Canonical

theorem Tbl.find_insert_same (t : Tbl α) (k : Nat) (v : α) : Tbl.find (Tbl.insert t k v) k = some v := by
  induction t with
  | nil => simp [Tbl.insert, Tbl.find]
  | cons x r ih =>
    obtain ⟨j, w⟩ := x
    simp only [Tbl.insert]
    split
    · simp [Tbl.find]
    · split
      · simp [Tbl.find]
      · next h => simp [Tbl.find, h, ih]

theorem Tbl.find_insert_other (t : Tbl α) (k j : Nat) (v : α) (h : j ≠ k) : Tbl.find (Tbl.insert t k v) j = Tbl.find t j := by
  induction t with
  | nil => simp [Tbl.insert, Tbl.find, Ne.symm h]
  | cons x r ih =>
    obtain ⟨i, w⟩ := x
    simp only [Tbl.insert]
    split
    · simp [Tbl.find, Ne.symm h]
    · split
      · next hi => subst hi; simp [Tbl.find, Ne.symm h]
      · simp [Tbl.find, ih]

theorem Tbl.find_filter_other (t : Tbl α) (k j : Nat) (h : j ≠ k) : Tbl.find (Tbl.erase t k) j = Tbl.find t j := by
  induction t with
  | nil => rfl
  | cons x r ih =>
    obtain ⟨i, w⟩ := x
    simp only [Tbl.erase, List.filter_cons] at ih ⊢
    split
    · simp only [Tbl.find, ih]
    · next hi =>
      have : i = k := by simpa using hi
      subst this
      simpa [Tbl.find, Ne.symm h] using ih

theorem Tbl.find_erase_same (t : Tbl α) (k : Nat) : Tbl.find (Tbl.erase t k) k = none := by
  induction t with
  | nil => rfl
  | cons x r ih =>
    obtain ⟨i, w⟩ := x
    simp only [Tbl.erase, List.filter_cons] at ih ⊢
    split
    · next hi =>
      have : i ≠ k := by simpa using hi
      simp only [Tbl.find, this, if_false, ih]
    · exact ih

section Read
variable [DecidableEq α]

/-- A read after a write to the same key gives what was written. -/
@[simp] theorem Tbl.get_put_same (t : Tbl α) (d : α) (k : Nat) (v : α) : Tbl.get (Tbl.put t d k v) d k = v := by
  unfold Tbl.put Tbl.get
  split
  · next h => simp [Tbl.find_erase_same, h]
  · simp [Tbl.find_insert_same]

/-- A write leaves what every other key reads as. -/
theorem Tbl.get_put_other (t : Tbl α) (d d' : α) (k j : Nat) (v : α) (h : j ≠ k) : Tbl.get (Tbl.put t d k v) d' j = Tbl.get t d' j := by
  unfold Tbl.put Tbl.get
  split
  · rw [Tbl.find_filter_other t k j h]
  · rw [Tbl.find_insert_other t k j v h]

end Read

/-- Two objects share a key only where index, subindex and entry agree. -/
theorem okey_inj (i s e i' s' e' : Nat) (hs : s < 256) (he : e < 65536) (hs' : s' < 256) (he' : e' < 65536)
    (h : okey i s e = okey i' s' e') : i = i' ∧ s = s' ∧ e = e' := by
  unfold okey at h
  omega

end Sys2Proof.Machine
end

