-- ==== Sys2Proof/Laws/Ops.lean ====
section
/-! SUPPORT. What the shared operations do, once: reading a register after a write to one, which registers a write leaves, and what a write to a CMD object answers. -/

namespace Sys2Proof.Machine

/-! ### Registers -/

theorem State.obj_eq_reg (s : State) (index sub elem : Nat) : s.obj index sub elem = s.reg (okey index sub elem) := rfl

/-- What a key reads as depends on the register file alone. -/
theorem State.reg_congr {s t : State} (h : t.regs = s.regs) (k : Nat) : t.reg k = s.reg k := by
  unfold State.reg
  rw [h]

theorem State.obj_congr {s t : State} (h : t.regs = s.regs) (index sub elem : Nat) : t.obj index sub elem = s.obj index sub elem :=
  State.reg_congr h _

/-- A register after a write to one. -/
theorem State.reg_setObj (s : State) (index sub elem v k : Nat) :
    (s.setObj index sub elem v).reg k = if k = okey index sub elem then v else s.reg k := by
  unfold State.reg State.setObj
  split
  · next h => subst h; exact Tbl.get_put_same ..
  · next h => exact Tbl.get_put_other _ _ _ _ _ _ h

theorem State.obj_setObj (s : State) (index sub elem v i j e : Nat) :
    (s.setObj index sub elem v).obj i j e = if okey i j e = okey index sub elem then v else s.obj i j e :=
  State.reg_setObj ..

@[simp] theorem State.obj_setObj_same (s : State) (index sub elem v : Nat) : (s.setObj index sub elem v).obj index sub elem = v := by
  simp [State.obj_setObj]

@[simp] theorem State.reg_setObj_same (s : State) (index sub elem v : Nat) : (s.setObj index sub elem v).reg (okey index sub elem) = v := by
  simp [State.reg_setObj]

theorem State.reg_count (s : State) (index sub elem w n k : Nat) :
    (s.count index sub elem w n).reg k = if k = okey index sub elem then min (s.obj index sub elem + n) (2 ^ w - 1) else s.reg k :=
  State.reg_setObj ..

@[simp] theorem State.reg_emit (s : State) (m : Msg) (k : Nat) : (s.emit m).reg k = s.reg k := rfl
@[simp] theorem State.obj_emit (s : State) (m : Msg) (i j e : Nat) : (s.emit m).obj i j e = s.obj i j e := rfl
@[simp] theorem State.emit_sent (s : State) (m : Msg) : (s.emit m).sent = m :: s.sent := rfl
@[simp] theorem State.answer_sent (s : State) (sess i j st : Nat) : (s.answer sess i j st).sent = .answer sess i j st :: s.sent := rfl
@[simp] theorem State.reg_answer (s : State) (sess i j st k : Nat) : (s.answer sess i j st).reg k = s.reg k := rfl
@[simp] theorem State.obj_answer (s : State) (sess i j st a b c : Nat) : (s.answer sess i j st).obj a b c = s.obj a b c := rfl
@[simp] theorem State.answer_regs (s : State) (sess i j st : Nat) : (s.answer sess i j st).regs = s.regs := rfl

/-! ### Which registers stay -/

theorem State.sameRegs_refl (s : State) (ks : List Nat) : s.sameRegs s ks := fun _ _ => rfl

theorem State.sameRegs_of_regs {s t : State} (h : t.regs = s.regs) (ks : List Nat) : s.sameRegs t ks := fun k _ => State.reg_congr h k

theorem State.sameRegs_trans {s t u : State} {ks : List Nat} (h : s.sameRegs t ks) (g : t.sameRegs u ks) : s.sameRegs u ks :=
  fun k hk => (g k hk).trans (h k hk)

theorem State.sameRegs_setObj {s t : State} {ks : List Nat} (index sub elem v : Nat) (h : s.sameRegs t ks) (hk : okey index sub elem ∈ ks) :
    s.sameRegs (t.setObj index sub elem v) ks := by
  intro k hk'
  rw [State.reg_setObj]
  split
  · next e => exact absurd (e ▸ hk) hk'
  · exact h k hk'

theorem State.sameRegs_count {s t : State} {ks : List Nat} (index sub elem w n : Nat) (h : s.sameRegs t ks) (hk : okey index sub elem ∈ ks) :
    s.sameRegs (t.count index sub elem w n) ks := State.sameRegs_setObj _ _ _ _ h hk

/-- The same registers stay where the register file of the later state is replaced by an equal one. -/
theorem State.sameRegs_congr {s t u : State} {ks : List Nat} (h : s.sameRegs t ks) (e : u.regs = t.regs) : s.sameRegs u ks :=
  fun k hk => (State.reg_congr e k).trans (h k hk)

/-! ### Writes to CMD objects (R396) -/

/-- A write that a check refuses answers the status and keeps it as the object's last status. -/
theorem State.commandOut_refused {s : State} {sess index sub st : Nat} (own : State → State × Nat)
    (h : s.writeGuard sess index sub = some st) (ho : (objAt index sub).isSome = true) :
    s.commandOut sess index sub own = .next ((s.setObj index sub 0 st).answer sess index sub st) := by
  simp [State.commandOut, State.command, h, ho]

/-- A write that the checks pass does what its own rule says. -/
theorem State.commandOut_passed {s : State} {sess index sub : Nat} (own : State → State × Nat) (h : s.writeGuard sess index sub = none) :
    s.commandOut sess index sub own = .next (((own s).1.setObj index sub 0 (own s).2).answer sess index sub (own s).2) := by
  simp [State.commandOut, State.command, h]

end Sys2Proof.Machine
end

