-- ==== Sys2Proof/Laws/Memory.lean ====
section
/-! SUPPORT. Every operation over HBM, DDR5 and the register file keeps their canonical form: rising keys, and no entry equal to what an unlisted key reads as. A meaning's own proof chains these. -/

namespace Sys2Proof.Machine

/-! ### The form itself -/

theorem Memory.wf_iff (s : State) : Memory.wf s = true ↔
    Tbl.wf s.hbm (fun _ => 0) = true ∧ Tbl.wf s.ddr blankBurst = true ∧ Tbl.wf s.regs regDefault = true := by
  simp [Memory.wf, and_assoc]

/-- The form rests on three fields alone. -/
theorem Memory.wf_congr {s t : State} (w : Memory.wf s = true) (h : t.hbm = s.hbm) (d : t.ddr = s.ddr) (r : t.regs = s.regs) :
    Memory.wf t = true := by
  rw [Memory.wf_iff] at w ⊢
  rwa [h, d, r]

/-- Folding a keeping operation keeps the form. -/
theorem Memory.wf_foldl {α : Type} (xs : List α) (f : State → α → State) (k : ∀ t x, Memory.wf t = true → Memory.wf (f t x) = true)
    {s : State} (w : Memory.wf s = true) : Memory.wf (xs.foldl f s) = true := by
  induction xs generalizing s with
  | nil => exact w
  | cons x xs ih => exact ih (k s x w)

theorem Memory.wf_each {α : Type} (xs : List α) (f : State → α → State) (k : ∀ t x, Memory.wf t = true → Memory.wf (f t x) = true)
    {s : State} (w : Memory.wf s = true) : Memory.wf (s.each xs f) = true := Memory.wf_foldl xs f k w

/-- Folding a keeping operation that carries a result along keeps the form. -/
theorem Memory.wf_foldl_fst {α β : Type} (xs : List α) (f : State × β → α → State × β)
    (k : ∀ a x, Memory.wf a.1 = true → Memory.wf (f a x).1 = true) {a : State × β} (w : Memory.wf a.1 = true) :
    Memory.wf (xs.foldl f a).1 = true := by
  induction xs generalizing a with
  | nil => exact w
  | cons x xs ih => exact ih (k a x w)

/-- Both branches keep the form. -/
theorem Memory.wf_ite {c : Prop} [Decidable c] {a b : State} (ha : Memory.wf a = true) (hb : Memory.wf b = true) :
    Memory.wf (if c then a else b) = true := by
  split
  · exact ha
  · exact hb

section Keeps
variable {s : State} (w : Memory.wf s = true)
include w

/-! ### Registers -/

theorem Memory.wf_setObj (i j e v : Nat) : Memory.wf (s.setObj i j e v) = true := by
  rw [Memory.wf_iff] at w ⊢
  exact ⟨w.1, w.2.1, Tbl.wf_put _ _ _ _ w.2.2⟩

theorem Memory.wf_count (i j e n b : Nat) : Memory.wf (s.count i j e n b) = true := Memory.wf_setObj w _ _ _ _

theorem Memory.wf_setObjs (i j e : Nat) (vs : List Nat) : Memory.wf (s.setObjs i j e vs) = true := by
  induction vs generalizing s e with
  | nil => exact w
  | cons v vs ih => exact ih (Memory.wf_setObj w _ _ _ _) _

/-- Dropping registers, as a start, a restart and a scrub do, keeps the form. -/
theorem Memory.wf_dropRegs (p : Nat × Nat → Bool) : Memory.wf { s with regs := s.regs.filter p } = true := by
  rw [Memory.wf_iff] at w ⊢
  exact ⟨w.1, w.2.1, Tbl.wf_filter _ _ _ w.2.2⟩

/-! ### Sending and the parts beside the memories -/

theorem Memory.wf_emit (m : Msg) : Memory.wf (s.emit m) = true := Memory.wf_congr w rfl rfl rfl
theorem Memory.wf_emits (ms : List Msg) : Memory.wf (s.emits ms) = true := Memory.wf_foldl ms _ (fun _ m h => Memory.wf_emit h m) w
theorem Memory.wf_answer (a i j st : Nat) : Memory.wf (s.answer a i j st) = true := Memory.wf_congr w rfl rfl rfl
theorem Memory.wf_report (r : Report) : Memory.wf (s.report r) = true := Memory.wf_congr w rfl rfl rfl
theorem Memory.wf_reportFor (q : Option Nat) (c : Nat) (x y : Suspect) (st d : Nat) (u : Option Suspect) :
    Memory.wf (s.reportFor q c x y st d u) = true := Memory.wf_congr w rfl rfl rfl
theorem Memory.wf_tileReport (n c st d : Nat) (u : Option Suspect) : Memory.wf (s.tileReport n c st d u) = true :=
  Memory.wf_congr w rfl rfl rfl
theorem Memory.wf_draw : Memory.wf s.draw.2 = true := Memory.wf_congr w rfl rfl rfl
theorem Memory.wf_setTile (n : Nat) (t : Tile) : Memory.wf (s.setTile n t) = true := Memory.wf_congr w rfl rfl rfl
theorem Memory.wf_modTile (n : Nat) (f : Tile → Tile) : Memory.wf (s.modTile n f) = true := Memory.wf_congr w rfl rfl rfl
theorem Memory.wf_setJob (q : Nat) (j : Option Job) : Memory.wf (s.setJob q j) = true := Memory.wf_congr w rfl rfl rfl
theorem Memory.wf_modJob (q : Nat) (f : Job → Job) : Memory.wf (s.modJob q f) = true := by
  unfold State.modJob
  split
  · exact Memory.wf_setJob w _ _
  · exact w
theorem Memory.wf_modPort (k : Nat) (f : Port → Port) : Memory.wf (s.modPort k f) = true := Memory.wf_congr w rfl rfl rfl
theorem Memory.wf_setServer (v : Server) (m : MemServer) : Memory.wf (s.setServer v m) = true := by
  cases v <;> exact Memory.wf_congr w rfl rfl rfl
theorem Memory.wf_modServer (v : Server) (f : MemServer → MemServer) : Memory.wf (s.modServer v f) = true := Memory.wf_setServer w _ _

/-! ### Writes -/

/-- A codeword written as it is (a saved row of a scour slot, a command of the test port). -/
theorem Memory.wf_setHbm_put (k : Nat) (c : Codeword) : Memory.wf (s.setHbm (Tbl.put s.hbm 0 k c)) = true := by
  rw [Memory.wf_iff] at w ⊢
  exact ⟨Tbl.wf_put s.hbm (fun _ => 0) _ _ w.1, w.2⟩

theorem Memory.wf_putHbm (row : Nat) (d : Row) : Memory.wf (s.putHbm row d) = true := Memory.wf_setHbm_put w row (encodeRow d)

theorem Memory.wf_setDdr_put (k : Nat) (b : BitVec 640) : Memory.wf (s.setDdr (Tbl.put s.ddr (blankBurst k) k b)) = true := by
  rw [Memory.wf_iff] at w ⊢
  exact ⟨w.1, Tbl.wf_put s.ddr blankBurst _ _ w.2.1, w.2.2⟩

theorem Memory.wf_putDdr (row : Nat) (d : Row) : Memory.wf (s.putDdr row d) = true := Memory.wf_setDdr_put w _ _

theorem Memory.wf_putRow (v : Server) (row : Nat) (d : Row) : Memory.wf (s.putRow v row d) = true := by
  cases v
  · exact Memory.wf_putHbm w _ _
  · exact Memory.wf_putDdr w _ _

theorem Memory.wf_dropHbm (p : Nat × Codeword → Bool) : Memory.wf { s with hbm := s.hbm.filter p } = true := by
  rw [Memory.wf_iff] at w ⊢
  exact ⟨Tbl.wf_filter _ _ _ w.1, w.2⟩

theorem Memory.wf_dropDdr (p : Nat × BitVec 640 → Bool) : Memory.wf { s with ddr := s.ddr.filter p } = true := by
  rw [Memory.wf_iff] at w ⊢
  exact ⟨w.1, Tbl.wf_filter _ _ _ w.2.1, w.2.2⟩

theorem Memory.wf_zeroRange (ddr : Bool) (lo hi : Nat) : Memory.wf (s.zeroRange ddr lo hi) = true := by
  unfold State.zeroRange
  split
  · exact Memory.wf_dropDdr w _
  · exact Memory.wf_dropHbm w _

/-! ### Corrections and retirement -/

theorem Memory.wf_syncRequests (v : Server) : Memory.wf (s.syncRequests v) = true := by
  cases v
  · exact Memory.wf_setObj w _ _ _ _
  · exact w

theorem Memory.wf_setSpans (l : List Nat) : Memory.wf { s with spans := l } = true := Memory.wf_congr w rfl rfl rfl

theorem Memory.wf_retireBank (v : Server) (b : Nat) : Memory.wf (s.retireBank v b) = true := by
  unfold State.retireBank
  refine Memory.wf_ite w ?_
  have h := Memory.wf_count (Memory.wf_modServer w v (fun m => { m with banks := m.banks ++ [b] })) (serverIx v) 6 0 16 1
  cases v with
  | stack n => exact Memory.wf_ite (Memory.wf_setObj (Memory.wf_setSpans h _) _ _ _ _) (Memory.wf_setSpans h _)
  | channel n => exact h

theorem Memory.wf_retireRow (v : Server) (b r : Nat) : Memory.wf (s.retireRow v b r) = true := by
  unfold State.retireRow
  dsimp only
  split
  · exact w
  · split
    · exact Memory.wf_retireBank w v b
    · split
      · exact Memory.wf_retireBank (Memory.wf_count (Memory.wf_modServer w _ _) _ _ _ _ _) v b
      · exact Memory.wf_count (Memory.wf_modServer w _ _) _ _ _ _ _

theorem Memory.wf_trackCorrection (v : Server) (b r : Nat) : Memory.wf (s.trackCorrection v b r) = true := by
  unfold State.trackCorrection
  dsimp only
  split
  · exact Memory.wf_ite (Memory.wf_retireRow (Memory.wf_modServer w _ _) _ _ _) (Memory.wf_modServer w _ _)
  · refine Memory.wf_ite (Memory.wf_modServer w _ _) ?_
    split
    · exact Memory.wf_modServer w _ _
    · exact w

theorem Memory.wf_corrected (v : Server) (row n : Nat) (d : Row) : Memory.wf (s.corrected v row n d) = true := by
  unfold State.corrected
  dsimp only
  have h := Memory.wf_reportFor (Memory.wf_count w (serverIx v) 2 0 64 n) none clMemoryCorrected (serverSus v) (serverSus v) 0 row none
  exact Memory.wf_each _ _ (fun _ _ k => Memory.wf_trackCorrection k _ _ _) (Memory.wf_ite h (Memory.wf_putRow h _ _ _))

theorem Memory.wf_uncorrectable (v : Server) (row : Nat) (q : Option Nat) : Memory.wf (s.uncorrectable v row q) = true :=
  Memory.wf_reportFor (Memory.wf_count w _ _ _ _ _) _ _ _ _ _ _ _

/-! ### Reads, which correct and count -/

theorem Memory.wf_readStack (n row : Nat) (q : Option Nat) (x : Decoded) : Memory.wf (match x with
    | .clean d => (s, some d)
    | .corrected d => (s.corrected (.stack n) row 1 d, some d)
    | .bad => (s.uncorrectable (.stack n) row q, none)).1 = true := by
  cases x with
  | clean d => exact w
  | corrected d => exact Memory.wf_corrected w (.stack n) row 1 d
  | bad => exact Memory.wf_uncorrectable w (.stack n) row q

theorem Memory.wf_readChannel (n row : Nat) (q : Option Nat) (x : Option (Row × Row × Nat × Bool)) : Memory.wf (match x with
    | some (r0, r1, c, differ) =>
      (if c = 0 then (if differ then s.count (0x3110 + n) 4 0 32 else s)
        else (if differ then s.count (0x3110 + n) 4 0 32 else s).corrected (.channel n) row c (if row % 2 = 0 then r0 else r1),
        some (if row % 2 = 0 then r0 else r1))
    | none => (s.uncorrectable (.channel n) row q, none)).1 = true := by
  cases x with
  | none => exact Memory.wf_uncorrectable w (.channel n) row q
  | some y =>
    obtain ⟨r0, r1, c, differ⟩ := y
    have h : Memory.wf (if differ = true then s.count (0x3110 + n) 4 0 32 else s) = true :=
      Memory.wf_ite (Memory.wf_count w _ _ _ _ _) w
    exact Memory.wf_ite h (Memory.wf_corrected h _ _ _ _)

theorem Memory.wf_readMem (v : Server) (row : Nat) (q : Option Nat) : Memory.wf (s.readMem v row q).1 = true := by
  unfold State.readMem
  split
  · exact w
  · cases v with
    | stack n =>
      show Memory.wf (if isTableRow row = true then (s, some (s.tableRow row)) else _).1 = true
      split
      · exact w
      · exact Memory.wf_readStack w n row q (decodeWord (Tbl.get s.hbm 0 row))
    | channel n => exact Memory.wf_readChannel w n row q (burstRead (row / 2) (s.burst (row / 2)))

theorem Memory.wf_readMemRows (v : Server) (rows : List Nat) (q : Option Nat) : Memory.wf (s.readMemRows v rows q).1 = true :=
  Memory.wf_foldl_fst rows _ (fun _ x h => Memory.wf_readMem h v x q) (β := List (Option Row)) (a := (s, [])) w

theorem Memory.wf_ringRead (ddr : Bool) (row : Nat) (q : Option Nat) : Memory.wf (s.ringRead ddr row q).1 = true :=
  Memory.wf_readMem w _ _ _

theorem Memory.wf_ringWord (ddr : Bool) (q : Option Nat) (k row : Nat) : Memory.wf (s.ringWord ddr row q k).1 = true := by
  induction k generalizing s row with
  | zero => exact w
  | succ k ih =>
    have h := Memory.wf_ringRead w ddr row q
    simp only [State.ringWord]
    split
    · next e => rw [e] at h; exact h
    · next e =>
      rw [e] at h
      have g := ih h (row + 1)
      split
      · next e' => rw [e'] at g; exact g
      · next e' => rw [e'] at g; exact g

/-! ### Writes behind the buffers -/

theorem Memory.wf_closeOverlap (v : Server) (rows : List Nat) : Memory.wf (s.closeOverlap v rows) = true := by
  unfold State.closeOverlap
  refine Memory.wf_foldl _ _ ?_ w
  intro t m h
  dsimp only
  split
  · exact Memory.wf_modServer (Memory.wf_readMemRows h _ _ _) _ _
  · exact h

theorem Memory.wf_dropHeld (v : Server) (rows : List Nat) : Memory.wf (s.dropHeld v rows) = true := Memory.wf_modServer w _ _

theorem Memory.wf_ringWrite (ddr : Bool) (row : Nat) (d : Row) : Memory.wf (s.ringWrite ddr row d) = true := by
  unfold State.ringWrite
  dsimp only
  have h := Memory.wf_dropHeld (Memory.wf_closeOverlap w (s.rowServer ddr row) [row]) (s.rowServer ddr row) [row]
  split
  · exact Memory.wf_modServer h _ _
  · exact Memory.wf_putRow h _ _ _

theorem Memory.wf_ringPut (ddr : Bool) (k row v : Nat) : Memory.wf (s.ringPut ddr row k v) = true := by
  induction k generalizing s row v with
  | zero => exact w
  | succ k ih => exact ih (Memory.wf_ringWrite w _ _ _) _ _

theorem Memory.wf_flushServer (v : Server) : Memory.wf (s.flushServer v) = true :=
  Memory.wf_modServer (Memory.wf_each _ _ (fun _ _ h => Memory.wf_putRow h _ _ _) w) _ _

theorem Memory.wf_zeroRows (ddr : Bool) (row n : Nat) : Memory.wf (s.zeroRows ddr row n) = true := by
  have h : ∀ (l : List Server) (g : MemServer → MemServer), Memory.wf (s.each l (fun t v =>
      ((t.closeOverlap v ((List.range n).map (fun i => row + i))).dropHeld v ((List.range n).map (fun i => row + i))).modServer v g)) = true :=
    fun l g => Memory.wf_each l _ (fun _ _ k => Memory.wf_modServer (Memory.wf_dropHeld (Memory.wf_closeOverlap k _ _) _ _) _ _) w
  unfold State.zeroRows
  dsimp only
  split
  · exact Memory.wf_each _ _ (fun _ _ k => Memory.wf_ringWrite k _ _ _) (Memory.wf_dropDdr (h _ _) _)
  · exact Memory.wf_dropHbm (h _ _) _

theorem Memory.wf_zeroPage (q : Nat) (ddr : Bool) (i : Nat) : Memory.wf (s.zeroPage q ddr i) = true :=
  Memory.wf_count (Memory.wf_zeroRows w _ _ _) _ _ _ _ _

theorem Memory.wf_copyRows (q : Nat) (a : Bool) (b : Bool) (n src dst : Nat) : Memory.wf (s.copyRows q a src b dst n).1 = true := by
  induction n generalizing s src dst with
  | zero => exact w
  | succ n ih =>
    have h := Memory.wf_ringRead w a src (some q)
    simp only [State.copyRows]
    split
    · next e => rw [e] at h; exact h
    · next e => rw [e] at h; exact ih (Memory.wf_ringWrite h _ _ _) _ _

/-! ### Scratchpads, which lie in the tiles -/

theorem Memory.wf_writeSpad (n b r : Nat) (d : Row) : Memory.wf (s.writeSpad n b r d) = true := Memory.wf_modTile w _ _

theorem Memory.wf_writeRows (n e f : Nat) (ds : List Row) : Memory.wf (s.writeRows n e f ds) = true := by
  induction ds generalizing s f with
  | nil => exact w
  | cons d ds ih => exact ih (Memory.wf_writeSpad w _ _ _ _) _

theorem Memory.wf_queueSparing (n b r : Nat) : Memory.wf (s.queueSparing n b r) = true := by
  unfold State.queueSparing
  split
  · exact w
  · exact Memory.wf_count (Memory.wf_modTile w _ _) _ _ _ _ _

theorem Memory.wf_trackRow (n b r : Nat) : Memory.wf (s.trackRow n b r) = true := by
  unfold State.trackRow
  dsimp only
  split
  · split
    · exact w
    · split
      · exact Memory.wf_queueSparing (Memory.wf_modTile w _ _) _ _ _
      · exact Memory.wf_modTile w _ _
  · split
    · exact Memory.wf_modTile w _ _
    · exact w

theorem Memory.wf_readSpad (n b r : Nat) : Memory.wf (s.readSpad n b r).1 = true := by
  unfold State.readSpad
  split
  · exact w
  · exact Memory.wf_trackRow (Memory.wf_count w _ _ _ _ _) _ _ _
  · exact Memory.wf_tileReport (Memory.wf_queueSparing (Memory.wf_count w _ _ _ _ _) _ _ _) _ _ _ _ _

theorem Memory.wf_readRows (n e k f : Nat) : Memory.wf (s.readRows n e f k).1 = true := by
  induction k generalizing s f with
  | zero => exact w
  | succ k ih =>
    have h := Memory.wf_readSpad w n (hPlace e f).1 (hPlace e f).2
    simp only [State.readRows]
    split
    · next e' => rw [e'] at h; exact h
    · next e' =>
      rw [e'] at h
      have g := ih h (f + 1)
      split
      · next e'' => rw [e''] at g; exact g
      · next e'' => rw [e''] at g; exact g

theorem Memory.wf_spareRow (n b r : Nat) : Memory.wf (s.spareRow n b r).1 = true := by
  unfold State.spareRow
  split
  · exact w
  · exact Memory.wf_modTile (Memory.wf_setObj w _ _ _ _) _ _

theorem Memory.wf_wipeTile (n : Nat) : Memory.wf (s.wipeTile n) = true :=
  Memory.wf_setObj (Memory.wf_setObj (Memory.wf_setObj (Memory.wf_modTile
    (Memory.wf_each _ _ (fun _ _ h => Memory.wf_setObj h _ _ _ _)
      (Memory.wf_each _ _ (fun _ _ h => Memory.wf_setObj h _ _ _ _)
        (Memory.wf_each _ _ (fun _ _ h => Memory.wf_spareRow h _ _ _) w))) _ _) _ _ _ _) _ _ _ _) _ _ _ _

/-! ### A write to a CMD object -/

/-- A write to a CMD object keeps the form where its own rule does. -/
theorem Memory.wf_command (a i j : Nat) (own : State → State × Nat) (k : Memory.wf (own s).1 = true) :
    Memory.wf (s.command a i j own).1 = true := by
  unfold State.command
  split
  · exact Memory.wf_ite (Memory.wf_setObj w _ _ _ _) w
  · exact Memory.wf_setObj k _ _ _ _

theorem Memory.wf_commandOut {t : State} (a i j : Nat) (own : State → State × Nat) (k : Memory.wf (own s).1 = true)
    (h : s.commandOut a i j own = .next t) : Memory.wf t = true := by
  unfold State.commandOut at h
  cases h
  exact Memory.wf_answer (Memory.wf_command w a i j own k) _ _ _ _

end Keeps

/-! ### The scratchpads' own canonical form -/

/-- A tile after a change to one. -/
theorem State.tile_modTile (s : State) (n : Nat) (f : Tile → Tile) (k : Nat) :
    (s.modTile n f).tile k = if k = n then f (s.tile n) else s.tile k := by
  unfold State.modTile State.setTile State.tile
  split
  · next h => subst h; exact Tbl.get_put_same ..
  · next h => exact Tbl.get_put_other _ _ _ _ _ _ h

/-- Every tile's scratchpad lists rising rows, none of them the zero codeword. -/
def State.spadsWf (s : State) : Prop := ∀ n, Tbl.wf (s.tile n).spad (fun _ => 0) = true

theorem State.spadsWf_writeSpad {s : State} (h : s.spadsWf) (n b r : Nat) (d : Row) : (s.writeSpad n b r d).spadsWf := by
  intro k
  rw [State.writeSpad, State.tile_modTile]
  split
  · exact Tbl.wf_put (s.tile n).spad (fun _ => 0) _ _ (h n)
  · exact h k

theorem State.spadsWf_writeRows {s : State} (h : s.spadsWf) (n e f : Nat) (ds : List Row) : (s.writeRows n e f ds).spadsWf := by
  induction ds generalizing s f with
  | nil => exact h
  | cons d ds ih => exact ih (State.spadsWf_writeSpad h _ _ _ _) _

/-- A scratchpad row after a write: the encoded row in its place, every other row of every tile as before. -/
theorem State.spad_writeSpad (s : State) (n b r : Nat) (d : Row) (k j : Nat) :
    Tbl.get ((s.writeSpad n b r d).tile k).spad 0 j = if k = n ∧ j = b * 1024 + r then encodeRow d else Tbl.get (s.tile k).spad 0 j := by
  rw [State.writeSpad, State.tile_modTile]
  by_cases hk : k = n
  · subst hk
    by_cases hj : j = b * 1024 + r
    · subst hj; simp
    · simp [hj, Tbl.get_put_other]
  · simp [hk]

/-! ### Reads after writes -/

/-- An HBM row after a write. -/
theorem State.hbm_putHbm (s : State) (row : Nat) (d : Row) (j : Nat) :
    Tbl.get (s.putHbm row d).hbm 0 j = if j = row then encodeRow d else Tbl.get s.hbm 0 j := by
  unfold State.putHbm State.setHbm
  split
  · next h => subst h; exact Tbl.get_put_same ..
  · next h => exact Tbl.get_put_other _ _ _ _ _ _ h

/-- A burst of DDR5 that a write does not touch. -/
theorem State.burst_putDdr_other (s : State) (row : Nat) (d : Row) (k : Nat) (h : k ≠ row / 2) : (s.putDdr row d).burst k = s.burst k :=
  Tbl.get_put_other _ _ _ _ _ _ h

/-- After reset every table is in the form. -/
theorem Memory.wf_reset_tables : Tbl.wf State.reset.hbm (fun _ => (0 : Codeword)) = true ∧ Tbl.wf State.reset.ddr blankBurst = true :=
  ⟨Tbl.wf_nil _, Tbl.wf_nil _⟩

end Sys2Proof.Machine
end

