-- ==== Sys2Proof/WellFormed.lean ====
section
/-! DEFINITION. Which commands are well-formed: every number in the range the spec gives it. -/

namespace Sys2Proof

/-! ### Numbers -/

def isU8 (x : Nat) : Bool := decide (x < 2 ^ 8)
def isU16 (x : Nat) : Bool := decide (x < 2 ^ 16)
def isU32 (x : Nat) : Bool := decide (x < 2 ^ 32)

/-- A session number, the mailbox's included (R383, R384). -/
def isSession (x : Nat) : Bool := isU16 x

/-- A physical tile number (R14). -/
def isTile (n : Nat) : Bool := decide (n < 1224)

/-- A cluster (R16). -/
def isCluster (c : Nat) : Bool := decide (c < 90)

/-- A reticle field, and its rail group (R13, R413). -/
def isField (f : Nat) : Bool := decide (f < 6)

/-- A partition (R223). -/
def isPartition (q : Nat) : Bool := decide (q < 12)

/-- A queue of a tile (R117). -/
def isQueue (q : Nat) : Bool := decide (q < 4)

/-- An HBM stack (R304). -/
def isStack (h : Nat) : Bool := decide (h < 12)

/-- A DDR5 channel (R309). -/
def isChannel (c : Nat) : Bool := decide (c < 16)

/-- A port (R324). -/
def isPort (k : Nat) : Bool := decide (k < 16)

/-- A physical lane of a port, the spare included (R326). -/
def isLane (l : Nat) : Bool := decide (l < 5)

/-- The hops of a unit (R329, R341). -/
def isHop (h : Nat) : Bool := decide (h < 4)

/-- A router input: a neighbour's link or the local port (R164). -/
def isInput (x : Nat) : Bool := decide (x < 12)

/-- A UCIe module (R358). -/
def isModule (m : Nat) : Bool := decide (m < 8)

/-- A service (R368). -/
def isService (n : Nat) : Bool := decide (n < 16)

/-- A credential (R387). -/
def isCredential (k : Nat) : Bool := decide (k < 16)

/-- A context slot (R268). -/
def isSlot (x : Nat) : Bool := decide (x < 262144)

/-- An entry of the levee log (R494). -/
def isEntry (e : Nat) : Bool := decide (e < 256)

/-! ### Messages -/

/-- A packet whose fields fit its header (R170-R172). -/
def Packet.wf (p : Packet) : Bool :=
  decide (p.rows < 16) && decide (p.tag < 64) && isU16 p.job && decide (p.partition < 16) && decide (p.srcX < 64)
    && decide (p.srcY < 32) && decide (p.dstX < 64) && decide (p.dstY < 32) && isU8 p.status && isU32 p.byteCount
    && isU16 p.xferId && isU16 p.sigAdd && decide (p.sigGauge < 128) && isU8 p.srcDevice && isU16 p.srcLogical
    && isU32 p.stride && decide (p.list.length ≤ 32) && decide (p.reserved < 2 ^ 256) && decide (p.head.length ≤ 2)

/-- The leg of a head flit (R164). -/
def Leg.wf (l : Leg) : Bool := decide (l.vc < 3) && decide (l.legX < 64) && decide (l.legY < 32)

/-- A contested cycle: its bank (R83, R91). -/
def Contest.wf (c : Contest) : Bool :=
  decide (c.bank < 12) && c.ready.all (fun e => decide (e < 5)) && decide (2 ≤ c.ready.eraseDups.length)

/-- A CTRL message whose fields fit its header (R341). -/
def CtrlMsg.wf (m : CtrlMsg) : Bool := isU8 m.mtype && isU8 m.dst && isU8 m.src && decide (m.hops < 16) && decide (m.reserved < 16)

/-- A MGMT unit (R341, R347). -/
def MgmtUnit.wf (u : MgmtUnit) : Bool := isU8 u.dst && isU8 u.src && decide (u.hops < 16) && decide (u.reserved < 8) && isU16 u.length

/-- A flit: four slots (R329). -/
def Flit.wf (f : Flit) : Bool := f.slots.length == 4

/-- A DTL message whose fields fit its header cell (R360). -/
def DtlMsg.wf (d : DtlMsg) : Bool :=
  isU8 d.dtype && decide (d.addr < 2 ^ 64) && isU32 d.stride && isU32 d.arg && isU16 d.job && decide (d.dtag < 4096)
    && isU8 d.status && decide (d.partition < 16) && decide (d.cells.length ≤ 288) && decide (d.reserved < 2 ^ 60)

/-- An Ethernet frame's length (R350, R361). -/
def EthFrame.wf (f : EthFrame) : Bool := decide (f.bytes.length ≤ 9216)

/-- A path: its port and its source device (R381). -/
def Path.wf : Path → Bool
  | .port _ f => f.mac.all (fun a => decide (a < 2 ^ 48)) && f.dst.all (fun a => decide (a < 2 ^ 128)) && f.udpPort.all (fun a => decide (a < 2 ^ 16))
  | .link k src _ => isPort k && isU8 src
  | .mailbox => true

/-- A rail of R410. -/
def Rail.wf : Rail → Bool
  | .vl c => isCluster c
  | .va f => isField f
  | .vf f => isField f
  | .ve => true
  | .vs k => decide (k < 4)
  | .vp => true
  | .vr => true
  | .vh h => isStack h
  | .dimm c => isChannel c

/-- A unit with a PHY reference (R456). -/
def PhyUnit.wf : PhyUnit → Bool
  | .port k => isPort k
  | .stack h => isStack h
  | .channel c => isChannel c
  | .ucie m => isModule m
  | .tidePll => true

/-- A memory server. -/
def Server.wf : Server → Bool
  | .stack h => isStack h
  | .channel c => isChannel c

/-- A fenced domain (R503). -/
def Domain.wf : Domain → Bool
  | .tile n => isTile n
  | .cluster c => isCluster c
  | .partition q => isPartition q
  | .device => true

/-- A suspect code's kind and number (R492). -/
def Suspect.wf (x : Suspect) : Bool := decide (x.kind < 16) && decide (x.number < 4096)

/-- A fault report (R493). -/
def Report.wf (r : Report) : Bool :=
  isU8 r.cls && r.suspect.wf && r.reporter.wf && isU8 r.status && decide (r.partition < 16) && isU16 r.job

/-! ### Commands -/

/-- Is a command well-formed? -/
def Instr.wf : Instr → Bool
  | .testSessionEnter sess => isSession sess
  | .testSessionLeave sess => isSession sess
  | .objectWrite sess index sub ty _ => isSession sess && isU16 index && isU8 sub && isU8 ty
  | .coldStart _ => true
  | .startCommandWarm sess => isSession sess
  | .startCommandCold sess => isSession sess
  | .stageEnd _ => true
  | .stageTimeout _ => true
  | .nextAttempt => true
  | .topologyWaitExpiry => true
  | .trainDiscard sess => isSession sess
  | .memtestNext sess mode => isSession sess && isU8 mode
  | .inputSag _ => true
  | .saveAndClose => true
  | .inputOvervoltage _ => true
  | .busconvLost i => decide (i < 4)
  | .phaseLost rail _ => rail.wf
  | .planeShort rail => rail.wf
  | .senseFallback rail => rail.wf
  | .pathResistanceCheck rail _ _ _ _ => rail.wf
  | .crackChainCheck _ => true
  | .sluiceStageDecision c _ => isCluster c
  | .sluiceHoldReading c _ => isCluster c
  | .holdBudgetExpiry c => isCluster c
  | .clusterClockLock c => isCluster c
  | .clusterGateRequest c => isCluster c
  | .gatingComplete c => isCluster c
  | .powerOffNLow => true
  | .powerOffNRelease _ => true
  | .dimmFeedTrip ch => isChannel ch
  | .controlTick _ _ => true
  | .railGroupCurrentReading f _ => isField f
  | .arrayRampUp n _ => isTile n
  | .arrayRampDown n _ => isTile n
  | .droopEvent c => isCluster c
  | .droopExit c => isCluster c
  | .droopHoldExpiry c => isCluster c
  | .dieSensorReading c _ => isCluster c
  | .hbmTempReading h _ => isStack h
  | .dimmTempReading ch _ => isChannel ch
  | .coolantReading _ _ _ => true
  | .coolantRestored => true
  | .weirHoldExpiry q => isPartition q
  | .slackNoticeSend q => isPartition q
  | .slack m => m.wf
  | .peerSlackExpiry q sender => isPartition q && isU8 sender
  | .frequencyChange c => isCluster c
  | .clockFault c _ => isCluster c
  | .clockRelock c => isCluster c
  | .referenceLoss units => units.all PhyUnit.wf
  | .tideSyncPulse _ _ => true
  | .ptpSync port _ _ _ => isPort port
  | .deviceIdWrite sess v => isSession sess && isU16 v
  | .portResetRetrain sess k => isSession sess && isPort k
  | .portResetClear sess k => isSession sess && isPort k
  | .portRetryTimer k => isPort k
  | .trainingTimeout k => isPort k
  | .codewordLockLoss k lane => isPort k && isLane lane
  | .helloSend k => isPort k
  | .hello k m => isPort k && m.wf
  | .flitReceive k f _ => isPort k && f.wf
  | .ackSend k => isPort k
  | .laneSparingCheck k => isPort k
  | .laneSwap k m => isPort k && m.wf
  | .laneAck k m => isPort k && m.wf
  | .laneSwitch k _ => isPort k
  | .cableInsert k => isPort k
  | .cableRemove k => isPort k
  | .topoSend => true
  | .topo k m => isPort k && m.wf
  | .tsyncSend k => isPort k
  | .tsync k m => isPort k && m.wf
  | .tsyncReply k m _ => isPort k && m.wf
  | .ingressRequest k hop p => isPort k && isHop hop && p.wf
  | .ingressReply k hop p => isPort k && isHop hop && p.wf
  | .egressForkBranch k p => isPort k && p.wf
  | .mgmtUnit k u _ => isPort k && u.wf
  | .ethLinkUp k => isPort k
  | .ethLinkDown k => isPort k
  | .ethFrameReceive k f => isPort k && f.wf
  | .wait n q _ => isTile n && isQueue q
  | .signal n q _ => isTile n && isQueue q
  | .signalApply n q _ => isTile n && isQueue q
  | .queueEnd n q _ => isTile n && isQueue q
  | .nop n q _ => isTile n && isQueue q
  | .loadStationary n _ => isTile n
  | .loadStationaryRowsStart n _ hits => isTile n && hits.all Contest.wf
  | .swap n _ => isTile n
  | .pass n _ hits => isTile n && hits.all Contest.wf
  | .foldLand n _ => isTile n
  | .setHandle n _ => isTile n
  | .setSentinel n _ => isTile n
  | .vecConvert n _ hits => isTile n && hits.all Contest.wf
  | .vecSpillFix n _ hits => isTile n && hits.all Contest.wf
  | .vecRequant n _ hits => isTile n && hits.all Contest.wf
  | .vecAdd n _ hits => isTile n && hits.all Contest.wf
  | .vecMul n _ hits => isTile n && hits.all Contest.wf
  | .vecMax n _ hits => isTile n && hits.all Contest.wf
  | .vecMin n _ hits => isTile n && hits.all Contest.wf
  | .vecAct n _ hits => isTile n && hits.all Contest.wf
  | .vecReduce n _ hits => isTile n && hits.all Contest.wf
  | .vecSoftmax n _ hits => isTile n && hits.all Contest.wf
  | .vecNorm n _ hits => isTile n && hits.all Contest.wf
  | .vecDequant n _ hits => isTile n && hits.all Contest.wf
  | .vecTopk n _ hits => isTile n && hits.all Contest.wf
  | .vecRandom n _ hits => isTile n && hits.all Contest.wf
  | .vecWriteComplete n _ => isTile n
  | .moveFill n _ hits => isTile n && hits.all Contest.wf
  | .moveCopy n _ hits => isTile n && hits.all Contest.wf
  | .movePut n _ hits => isTile n && hits.all Contest.wf
  | .moveGet n _ hits => isTile n && hits.all Contest.wf
  | .moveLoad n _ hits => isTile n && hits.all Contest.wf
  | .moveStore n _ hits => isTile n && hits.all Contest.wf
  | .descriptorComplete n _ _ => isTile n
  | .queueWatchdogFire n q => isTile n && isQueue q.queue
  | .headFlitRoute pos leg p => isTile pos && leg.wf && p.wf
  | .flitParityError pos input => isTile pos && isInput input
  | .forkSplit pos _ p => isTile pos && p.wf
  | .positionNonForwarding n => isTile n
  | .nonForwardingDrainEnd n => isTile n
  | .readPacket n p hits => isTile n && p.wf && hits.all Contest.wf
  | .writePacket n p hits => isTile n && p.wf && hits.all Contest.wf
  | .signalPacket n p => isTile n && p.wf
  | .pendingHoldRelease n => isTile n
  | .memRead p => p.wf
  | .memWrite p => p.wf
  | .memoryReadComplete srv _ => srv.wf
  | .writeBufferFlush srv => srv.wf
  | .patrolRead srv => srv.wf
  | .stackEccPoll h _ => isStack h
  | .holdBufferExpiry h => isStack h
  | .dataPacket n p hits => isTile n && p.wf && hits.all Contest.wf
  | .forkPacket n p hits => isTile n && p.wf && hits.all Contest.wf
  | .ackPacket n p => isTile n && p.wf
  | .statusPacket n p => isTile n && p.wf
  | .closureDrainExpiry d => d.wf
  | .drainComplete q => isPartition q
  | .localDrainTimeout q => isPartition q
  | .remapComplete q _ => isPartition q
  | .gaugeSet sess n _ => isSession sess && isTile n
  | .partitionApply sess q => isSession sess && isPartition q
  | .granuleFillComplete q => isPartition q
  | .jobLoad sess q => isSession sess && isPartition q
  | .jobEndAtBoundary sess q => isSession sess && isPartition q
  | .jobEndAtOnce sess q => isSession sess && isPartition q
  | .jobPreempt sess q => isSession sess && isPartition q
  | .jobResume sess q => isSession sess && isPartition q
  | .jobScrubComplete q _ => isPartition q
  | .programFaultEnd q => isPartition q
  | .entryPoll q => isPartition q
  | .pinWaitRelease q => isPartition q
  | .stepStartRelease q => isPartition q
  | .watchNotice q _ => isPartition q
  | .cadenceTick q _ => isPartition q
  | .outsideDeclare sess q => isSession sess && isPartition q
  | .ready m => m.wf
  | .start m => m.wf
  | .barrierStartTime q => isPartition q
  | .expertApply sess => isSession sess
  | .tokenRequest q p => isPartition q && p.pkt.wf
  | .releaseRequest q p => isPartition q && p.wf
  | .hintRequest q p => isPartition q && p.pkt.wf
  | .stagingHoldRelease q => isPartition q
  | .reserve m => m.wf
  | .grant m => m.wf
  | .reservationCancel m => m.wf
  | .dstatus m => m.wf
  | .noCreditRetry q _ => isPartition q
  | .multicastTimeout q _ => isPartition q
  | .copyArrive q r _ => isPartition q && isU8 r.device && isPartition r.part
  | .copyReceiptConfirm q _ => isPartition q
  | .ctxOpen sess _ => isSession sess
  | .ctxClose sess _ => isSession sess
  | .ctxSetPosition sess _ => isSession sess
  | .ctxSetPriority sess _ => isSession sess
  | .ctxPin sess _ => isSession sess
  | .ctxUnpin sess _ => isSession sess
  | .ctxPromote sess _ => isSession sess
  | .ctxDemote sess _ => isSession sess
  | .ctxRead sess _ => isSession sess
  | .poolApply sess q => isSession sess && isPartition q
  | .pageMoveComplete q _ => isPartition q
  | .pageReleaseComplete slot => isSlot slot
  | .ucieRetrainTimeout m => isModule m
  | .dtlMemRead m d => isModule m && d.wf
  | .dtlMemWrite m d => isModule m && d.wf
  | .memData m d => isModule m && d.wf
  | .memAck m d => isModule m && d.wf
  | .hbmRead m d => isModule m && d.wf
  | .hbmWrite m d => isModule m && d.wf
  | .hbmData m d => isModule m && d.wf
  | .hbmAck m d => isModule m && d.wf
  | .objReq m d => isModule m && d.wf
  | .objRsp m d => isModule m && d.wf
  | .eventLevee m d => isModule m && d.wf
  | .eventBoundary m d => isModule m && d.wf
  | .eventJobState m d => isModule m && d.wf
  | .eventPortState m d => isModule m && d.wf
  | .dtlMgmt m _ d => isModule m && d.wf
  | .dtlEth m _ d => isModule m && d.wf
  | .credit m _ d => isModule m && d.wf
  | .recoverReq m d => isModule m && d.wf
  | .closeGo m d => isModule m && d.wf
  | .quiesced m d => isModule m && d.wf
  | .restart m d => isModule m && d.wf
  | .remapped m d => isModule m && d.wf
  | .svcApply sess svc => isSession sess && isService svc
  | .svcStart sess svc => isSession sess && isService svc
  | .svcStop sess svc => isSession sess && isService svc
  | .reqOpenContext _ => true
  | .reqAppend _ => true
  | .reqGenerate _ => true
  | .reqCancel _ => true
  | .reqCloseContext _ => true
  | .reqSubmitFrame _ => true
  | .reqStatus _ => true
  | .entrySeal svc => isService svc
  | .visionTickSeal svc _ => isService svc
  | .connectionLost _ => true
  | .contextIdleTimeout slot => isSlot slot
  | .recoveryResumeTimeout svc => isService svc
  | .sessionOpen path _ => path.wf
  | .sessionAuth path _ => path.wf
  | .sessionClose path _ => path.wf
  | .echo path _ => path.wf
  | .bamRead path _ => path.wf
  | .bamWrite path _ => path.wf
  | .readBlock path _ => path.wf
  | .writeBlock path _ => path.wf
  | .describe path _ => path.wf
  | .relay path _ => path.wf
  | .sessionCloseCommand sess target => isSession sess && isU16 target
  | .sessionIdleTimeout sess => isSession sess
  | .sessionAuthTimeout sess => isSession sess
  | .credentialLockExpiry cred => isCredential cred
  | .blockSequenceTimeout sess => isSession sess
  | .leveeReport r => r.wf
  | .stormClear entry => isEntry entry
  | .leveeNotice entry => isEntry entry
  | .leveeEntryFree entry => isEntry entry
  | .poweredSecond => true
  | .watchdogCheck q _ => isPartition q
  | .abandon m => m.wf
  | .drained m => m.wf
  | .drainedMissingTimeout q => isPartition q
  | .jobHalt m => m.wf
  | .closing m => m.wf
  | .recovered m => m.wf
  | .recoveryResetCommand sess => isSession sess
  | .historyClear sess code => isSession sess && isU16 code
  | .packageApply sess _ => isSession sess
  | .scourChunkStart n => isTile n
  | .scourInsert q => isPartition q
  | .scourChunkTimeout n => isTile n
  | .scourChunkComplete n crc _ _ => isTile n && isU32 crc
  | .twinCompare q => isPartition q
  | .twinLimitExpiry q => isPartition q
  | .ufrSelect sess v => isSession sess && isU32 v
  | .imageApply sess _ => isSession sess
  | .svnCommit sess v => isSession sess && isU8 v
  | .credentialSet sess _ => isSession sess
  | .attestRequest sess _ => isSession sess
  | .attestSigned => true
  | .tlsKeygen sess => isSession sess
  | .tlsChainWrite sess _ => isSession sess
  | .debugRead sess _ => isSession sess
  | .debugRelease sess n => isSession sess && isU16 n
  | .debugHoldExpiry => true
  | .unlockToken sess _ => isSession sess
  | .memoryUnitNotAnswering srv => srv.wf
  | .prbsPhaseEnd k => isPort k
  | .codewordLock k lane => isPort k && isLane lane
  | .egressPacket k hop p => isPort k && isHop hop && p.wf
  | .ucieAdapterRetryFailure m => isModule m
  | .ucieRetrained m => isModule m

end Sys2Proof
end

