-- ==== Sys2Proof/Tests/Slice0.lean ====
section
/-! SUPPORT. Tests: the smoke test of the operand checks, the worked examples of spec/, and a witness for the hypotheses of each statement. -/

namespace Sys2Proof.Tests

-- Kernel evaluations, elaborated one after the other: at once they need more threads than the memory limit of a check admits.
set_option Elab.async false

open Sys2Proof Sys2Proof.Machine

/-! ### States that the tests start from -/

/-- A session with every right. -/
def sess5 : Session := { number := 5, credential := 0, rights := 0x3F, authed := true, path := .port 0, high := 1 }

/-- A device in a mode with session 5 open, its rails on, no start in progress. -/
def dev (m : Mode) : State :=
  { State.reset with device := { mode := m }, power := { closed := false }, bamurn := { sessions := [sess5] }, regs := [(okey 0x7000 3 0, 0xFF)] }

/-- A device in SERVICE. -/
abbrev svc : State := dev .service

/-- A state with objects set: index, subindex, element, value. -/
def obs (l : List (Nat × Nat × Nat × Nat)) (s : State) : State := l.foldl (fun t e => t.setObj e.1 e.2.1 e.2.2.1 e.2.2.2) s

/-- A state whose rails are off. -/
def off : State := { svc with power := { cause := 1 } }

/-- A state with a wake of cluster 0 in progress. -/
def waking (w : Wake) : State := { obs [(0x1040, 0, 0, 1)] svc with wakes := [(0, { now := some w })] }

/-- An idle flit with a sequence number and a CRC. -/
def idleFlit (seq crc : Nat) : Flit := { ctl := BitVec.ofNat 192 (seq * 2 ^ 176 + crc), slots := [] }

/-- Tile 0 with command word `w` at word 4 of its store, where a running queue stands. -/
def head (q w : Nat) (s : State) : State :=
  (obs [(tileIx 0, 0x30, q, 2), (tileIx 0, 0x31, q, 4)] s).modTile 0 (fun t => { t with store := [(2, encodeRow (BitVec.ofNat 256 w))] })

/-- A handle entry over 12 banks from bank row 0, of 1000 rows, with every right. -/
def entryAll : Nat := 2 ^ 63 + 0xFF * 2 ^ 55 + 0xFFF * 2 ^ 40 + 1000 * 2 ^ 26

/-- A PASS of 2 rows of format 0 from handle 1, elements at row 0 and scales at row 400. -/
def passWord : Nat := 0x12 * 2 ^ 120 + 2 * 2 ^ 94 + 3 * 2 ^ 84 + 2 ^ 78 + 2 ^ 58 + 400 * 2 ^ 44

/-- A VEC word: function, formats, count and aux; source a in the accumulator file from slot 0, b at row 0 of handle 2, d at row 500 of handle 1. -/
def vecW (func fmtIn fmtOut count aux : Nat) : Nat :=
  0x20 * 2 ^ 120 + func * 2 ^ 112 + 2 * 2 ^ 86 + 2 ^ 66 + 500 * 2 ^ 52 + count * 2 ^ 36 + fmtIn * 2 ^ 32 + fmtOut * 2 ^ 28 + aux * 2 ^ 4 + 8

/-- A handle entry of 12 rows at bank row 1000, with every right. -/
def entryPar : Nat := 2 ^ 63 + 0xFF * 2 ^ 55 + 0xFFF * 2 ^ 40 + 12 * 2 ^ 26 + 1000 * 2 ^ 16

/-- Tile 0 with a VEC word at the head of Q-vector, handles 1 and 2, and a parameter row at row 0 of handle 2. -/
def vst (w par : Nat) : State :=
  (head 1 w (obs [(tileIx 0, 0x20, 1, entryAll), (tileIx 0, 0x20, 2, entryPar)] svc)).modTile 0
    (fun t => { t with spad := [(spadKey entryPar 0, encodeRow (BitVec.ofNat 256 par))] })

/-- A VEC word at the head of its queue. -/
theorem vecHead_of {s : State} {n c func w : Nat} (h : s.headIs n 1 c w)
    (h2 : opcodeOf w = 0x20 ∧ fieldOf w 112 8 = func ∧ fieldOf w 0 3 = 0 ∧ 0 < (vecWord w).count ∧ ((vecWord w).rnd = true → func = 0x03) ∧ (s.tile n).vec = [] ∧ (s.tile n).grants = []) :
    s.vecHead n c func (vecWord w) :=
  ⟨w, h, h2.1, h2.2.1, rfl, h2.2.2.1, h2.2.2.2.1, h2.2.2.2.2.1, h2.2.2.2.2.2⟩

/-- Elements of an empty accumulator file. -/
theorem vecSource_zero {s : State} {n : Nat} {v : VecWord} {start count : Nat}
    (h : isWide v.fmtIn = true ∧ 0 < count ∧ v.aAcc = true ∧ v.fmtIn = fmtFP32 ∧ v.aRow + (start + count - 1) / 128 < 1024 ∧ (s.tile n).arr.acc = [] ∧ (s.tile n).arr.folds = []) :
    s.vecSource n v start count (List.replicate count 0) := by
  refine ⟨h.1, h.2.1, ?_⟩
  rw [if_pos h.2.2.1]
  refine ⟨h.2.2.2.2.2.2, h.2.2.2.1, h.2.2.2.2.1, ?_⟩
  rw [h.2.2.2.2.2.1]
  have e : ∀ i j, accGet [] i j = 0 := fun _ _ => rfl
  simp only [e, List.map_const', List.length_range]

/-- Partition 0 stepping a job of two tiles, positions 0 and 1, with windows of 1 MiB and its gauges live. -/
def jst (j : Job) : State :=
  let s := obs [(0x4000, 0, 0, 0), (0x5000, 0, 0, 1), (0x5010, 0, 0, 3), (tileIx 0, 0, 0, 4), (tileIx 1, 0, 0, 4), (tileIx 0, 4, 0, 0), (tileIx 1, 4, 0, 1),
    (tileIx 0, 0x20, 1, entryAll), (tileIx 0, 0x20, 2, entryPar)] svc
  { s with cfgs := [(0, { clusters := 1, hbmBase := 2 ^ 31, hbmSize := 2 ^ 20, ddrSize := 2 ^ 20 })], jobs := [(0, some j)],
           tiles := [(0, { owner := some 0, gau := { st := .live } }), (1, { owner := some 0, gau := { st := .live } })] }

/-- The job of these states. -/
def job9 : Job := { hdr := { jobId := 9, tiles := 2 }, map := [0, 1] }

/-- A MOVE at the head of Q-move of tile 0, its descriptor at row 0 of handle 2. -/
def mst (d : Nat) : State :=
  (head 2 (0x30 * 2 ^ 120 + 2 * 2 ^ 114) (jst job9)).modTile 0 (fun t => { t with spad := [(spadKey entryPar 0, encodeRow (BitVec.ofNat 256 d))] })

/-- A descriptor: operation, local row, rows, far address; local handle 1. -/
def desc (op row rows far : Nat) : Nat := op * 2 ^ 252 + 2 ^ 242 + row * 2 ^ 228 + rows * 2 ^ 214 + far * 2 ^ 64

/-- A MOVE at the head of its queue. -/
theorem moveHead_of {s : State} {n c : Nat} {d : Row} (w : Nat) (h : s.headIs n 2 c w)
    (h2 : opcodeOf w = 0x30 ∧ s.reads n (fieldOf w 114 6) hrMoveRead (fieldOf w 100 14) [d] ∧ (s.tile n).mov.descs.length < 8) : s.moveHead n c d :=
  ⟨w, h, h2.1, h2.2.1, h2.2.2⟩

/-- The header of a job of one tile (R226): job 9, start gauge 1, one watch of gauge 2 one further each step, ring of 16 entries at 0x10000, tables from 0x2000, save area at 0x8000. -/
def hdr1 : Nat :=
  1 + 9 * 2 ^ 16 + 1 * 2 ^ 32 + 1 * 2 ^ 48 + 1 * 2 ^ 56 + 0x10000 * 2 ^ 192 + 4 * 2 ^ 256 + 1 * 2 ^ 260 + 0x2000 * 2 ^ 320 + 0x3000 * 2 ^ 384
    + 0x4000 * 2 ^ 448 + 0x4000 * 2 ^ 512 + 0x8000 * 2 ^ 576 + (2 * 2 ^ 32 + 1 * 2 ^ 48) * 2 ^ 640

/-- HBM rows of a window that begins at 2 GiB: offset and value. -/
def rowsAt (l : List (Nat × Nat)) : Tbl Codeword := l.map (fun e => ((2 ^ 31 + e.1) / 32, encodeRow (BitVec.ofNat 256 e.2)))

/-- Partition 0 configured on cluster 0, tile 0 OFFERED, and the tables of a job of one tile in its window: header, placement, polder, save area of step 5, and an image whose Q-array holds one END. -/
def lst : State :=
  { obs [(0x5000, 0, 0, 1), (tileIx 0, 0, 0, 2)] svc with
    cfgs := [(0, { clusters := 1, hbmBase := 2 ^ 31, hbmSize := 2 ^ 20, jobTable := 0x1000 })],
    hbm := rowsAt [(0x1000, hdr1 % 2 ^ 256), (0x1020, hdr1 / 2 ^ 256 % 2 ^ 256), (0x1040, hdr1 / 2 ^ 512), (0x3000, 0x5000 * 2 ^ 64),
      (0x5000, 2 + 2 ^ 16 + 2 ^ 208), (0x5020, 3 * 2 ^ 120), (0x8000, 5 + 9 * 2 ^ 64 + 2 ^ 80 + (2 ^ 64 - 6) * 2 ^ 192)] }

/-- A partition configuration without a window, and one that may be applied: cluster 0 with 256 MiB of HBM at 2 GiB. -/
def pbad : State := obs [(0x5000, 1, 0, 1), (0x5000, 2, 0, 1)] svc
def pok : State := obs [(0x5000, 1, 0, 1), (0x5000, 2, 0, 2 ^ 31), (0x5000, 3, 0, 2 ^ 28)] svc

/-- An expert entry: valid, this device, polder 3, intake tile 0, handle 1, gauge 6, 8 rows a slot, 2 slots. -/
def ent7 : Nat := 2 ^ 127 + 3 * 2 ^ 104 + 2 ^ 82 + 6 * 2 ^ 75 + 8 * 2 ^ 64 + 2 * 2 ^ 54

/-- A job that holds expert 7. -/
def xst : State := { obs [(0x5103, 0, 0, 1), (0x5103, 1, 0, 0)] (jst job9) with experts := [(7, ent7)] }

/-- A token for expert 7: its dispatch header and one row. -/
def tokenPacket : Packet := { ptype := .write, rows := 2, tag := 4, data := [encodeRow (BitVec.ofNat 256 (1 + 2 ^ 60 + 7 * 2 ^ 64)), encodeRow 5] }

/-- A dispatcher that stages one token with one target, in a state. -/
def token1 (st : TargetState) : Token := { id := 3, pos := 0, logical := 0, rows := [1, 5], targets := [{ expert := 7, resId := 11, st := st }] }
def tst (st : TargetState) : State := { xst with disps := [(0, { tokens := [token1 st], nextRes := 12 })] }

/-- Every entry of an object reads the same default, but for the operating points and the PLL table (R430, R451). -/
theorem regDefault_elem (i j e : Nat) (hj : j < 256) (he : e < 65536) (h1 : i ≠ 0x1410) (h2 : i ≠ 0x1100) :
    regDefault (okey i j e) = regDefault (okey i j 0) := by
  have k1 : okey i j e / 16777216 = i := by unfold okey; omega
  have k2 : okey i j 0 / 16777216 = i := by unfold okey; omega
  have k3 : okey i j e / 65536 % 256 = j := by unfold okey; omega
  have k4 : okey i j 0 / 65536 % 256 = j := by unfold okey; omega
  unfold regDefault
  rw [k1, k2, k3, k4]
  simp only [h1, h2, false_and, if_false]

/-- No expert entry is written in a device that has just started. -/
theorem experts_blank (e : Nat) (h : e < 4096) : svc.obj 0x5200 1 e = 0 := by
  have hk : okey 0x7000 3 0 ≠ okey 0x5200 1 e := by unfold okey; omega
  have h0 : svc.obj 0x5200 1 e = regDefault (okey 0x5200 1 e) := by
    simp [State.obj, dev, Tbl.get, Tbl.find, hk]
  rw [h0, regDefault_elem _ _ _ (by decide) (by omega) (by decide) (by decide)]
  decide +kernel

/-- So no staged expert entry is valid. -/
theorem experts_none : (svc.objs 0x5200 1 4096).filter xValid = [] := by
  rw [List.filter_eq_nil_iff]
  intro a ha
  simp only [State.objs, List.mem_map, List.mem_range] at ha
  obtain ⟨e, he, rfl⟩ := ha
  rw [experts_blank e he]; decide

/-- A client, its entry of the tenant table (tenant 6, two contexts), and the configurations of a language and of a vision service on partition 0. -/
def client1 : Client := { conn := 1, fingerprint := 77 }
def langCfg : List Nat := [1, 0, 0x20000, 0x40000, 4, 64, 16, 1000, 2, 1, 0, 0, 0, 0]
def visCfg : List Nat := [2, 0, 0, 0, 4, 64, 16, 1000, 2, 1, 0x20000, 64, 0x40000, 32]

/-- Service 0 in a state of its own, beside a stepping job whose ring of 16 entries begins at 0x10000; context 3 of tenant 6 is IDLE in partition 0. -/
def ssv (st : Nat) (v : Service) : State :=
  { obs [(0x9100, 0, 0, st), (0x9010, 0, 0, 77 * 2 ^ 128 + 6 * 2 ^ 96 + 2 * 2 ^ 64 + 50 * 2 ^ 56)] (jst { job9 with hdr := { jobId := 9, tiles := 2, ringOffset := 0x10000, ringLog2 := 4 } }) with
    svcs := [(0, v)], svcSeq := 9, pools := [(0, { applied := true, hbm := { size := 4 }, ddr := { size := 0 } })], ctxs := [(3, { st := .idle, position := 5, tenant := 6, epoch := 1 })] }

/-- A request whose map holds an operation, request number 30 and further keys; a request in progress on context 3. -/
def rq (op : Nat) (more : CborMap) : Request := { client := client1, size := 40, map := some ([(0, .uint op), (1, .uint 30)] ++ more) }
def rq3 : SvcReq := { client := { conn := 2, fingerprint := 77 }, reqId := 20, gen := false, slot := 3, tenant := 6, tokens := [7, 8], seq := 4 }

/-- A levee report of tile 3, class 1; a record of another suspect, and a log of `n` such records. -/
def rep1 : Report := { cls := 1, suspect := susTile 3, reporter := susTile 3, detail := 9 }
def lrec : LeveeRec := { first := 0, last := 0, detail := 0, reporter := 1, suspect := 1, cls := 1, status := 0, part := 0, job := 0, step := 0, noticed := 1, notices := 1 }
def logOf (n : Nat) (f : LeveeRec → LeveeRec) : State := { svc with faults := { levee := (List.range n).map (fun i => (i, some (f lrec))) } }

/-- What holds of each entry listed holds of each record. -/
theorem log_all {s : State} {n : Nat} (p : LeveeRec → Bool) (h : ∀ i, i < n → (s.levee i).elim true p = true) (i : Nat) (x : LeveeRec) (hi : i < n) (e : s.levee i = some x) : p x = true := by
  have k := h i hi
  rw [e] at k; exact k

/-- A full log has a record in every entry. -/
theorem log_full {s : State} {n : Nat} (p : LeveeRec → Bool) (h : ∀ i, i < n → (s.levee i).elim false p = true) (i : Nat) (hi : i < n) : ∃ y, s.levee i = some y ∧ p y = true := by
  have k := h i hi
  cases e : s.levee i with
  | none => rw [e] at k; cases k
  | some y => rw [e] at k; exact ⟨y, rfl, k⟩

/-- A chunk that runs on tile 0 in window 24, a package of one chunk, and a twin of tile 0 on position 5. -/
def chunk1 : Chunk := { tile := 0, chunk := 0, kind := 2, expect := 7, pkgId := 1, version := 1, window := 24, saved := List.replicate 192 5 }
def pkg1 : List Byte := leBytes 32 (1 * 2 ^ 192) ++ leBytes 32 (2 * 2 ^ 242 + 7 * 2 ^ 118)
def twin1 : TwinRun := { logical := 0, primary := 0, twin := 5, step := 0 }

/-- The header of a request: type, session, sequence number, bytes, items; with the MAC bit in a session. -/
def hd (mtype sess seq n count : Nat) : List Byte :=
  leBytes 16 (1 + mtype * 2 ^ 8 + 3 * 2 ^ 16 + (if sess = 0 then 0 else 2 ^ 33) + n * 2 ^ 48 + count * 2 ^ 64 + sess * 2 ^ 80 + seq * 2 ^ 96)

/-- A request with the MAC of a session behind it. -/
def sign (x : Session) (m : List Byte) : List Byte := m ++ macOf x.key m

@[simp] theorem sign_length (x : Session) (m : List Byte) : (sign x m).length = m.length + 16 := by simp [sign]

theorem sign_body (x : Session) (m : List Byte) (h : 16 ≤ m.length) : macBody (sign x m) = m.drop 16 := by
  have e : (sign x m).drop 16 = m.drop 16 ++ macOf x.key m := by rw [sign, List.drop_append_of_le_length h]
  rw [macBody, e, sign_length]
  exact List.take_left' (by simp)

/-- A short message in a plain frame is taken. -/
theorem taken_plain {s : State} {src : Nat} {b : List Byte} (h : b.length ≤ 1440) : s.taken (.port src) b = true := by
  have e : s.taken (.port src) b = (decide (64 ≤ 66 + 0 + b.length) && decide (66 + 0 + b.length ≤ 1518)) := by
    simp [State.taken, State.takesFrame, mgmtLength]
  rw [e, Bool.and_eq_true, decide_eq_true_eq, decide_eq_true_eq]
  omega

/-- A signed request is authentic where its header is in order and its session open. -/
theorem signed {s : State} {src mtype : Nat} {x : Session} {m : List Byte}
    (h : 16 ≤ m.length ∧ hVersion (headOf m) = 1 ∧ hResponse (headOf m) = false ∧ hRelay (headOf m) = false ∧
      (hBytes (headOf m) == m.length + 16 && (m.length + 16) % 4 == 0 && decide (m.length + 16 ≤ 1440) && fieldOf (headOf m) 36 3 == 0 && hStatus (headOf m) == 0
        && hType (headOf m) == mtype && (!hPortRelay (headOf m) && hTarget (headOf m) == 0)) = true ∧
      hSession (headOf m) ≠ 0 ∧ hSession (headOf m) ≠ 0xFFFF ∧ s.session (hSession (headOf m)) = some x ∧ hMac (headOf m) = true) :
    s.authentic (.port src) mtype (sign x m) (headOf m) x := by
  obtain ⟨h1, h2, h3, h4, h5, h6, h7, h8, h9⟩ := h
  have l : (sign x m).length ≤ 1440 := by
    rw [sign_length]; simp only [Bool.and_eq_true, decide_eq_true_eq] at h5; exact h5.1.1.1.1.2
  refine ⟨⟨⟨src, {}, rfl⟩, taken_plain l, by rw [sign_length]; omega, (headOf_append m _ h1).symm, h2, h3, h4, ?_⟩, h6, h7, h8, h9, by rw [sign_length]; omega, ?_⟩
  · rw [requestOk, sign_length, h4]; exact h5
  · rw [sign_length, Nat.add_sub_cancel, sign, List.take_left' rfl, List.drop_left' rfl]

/-- The answer to a challenge, and 32 bytes that are none. -/
theorem proof_length (s : State) (x : Session) (k : List Byte) : (s.proofOf x k).length = 32 := by simp [State.proofOf]
def wrongBytes (p : List Byte) : List Byte := if p = List.replicate 32 0 then List.replicate 32 1 else List.replicate 32 0
theorem wrong_length (p : List Byte) : (wrongBytes p).length = 32 := by unfold wrongBytes; split <;> simp
theorem wrong_ne (p : List Byte) : wrongBytes p ≠ p := by
  unfold wrongBytes
  split
  · intro h; rename_i e; rw [e] at h; exact absurd h (by decide)
  · intro h; rename_i e; exact e h.symm

/-- A request of one item in session 5: a read of object 0200:01, a write of 100 to it, a read block, a write block and a description of it. -/
def readMsg : List Byte := hd 0x10 5 2 36 1 ++ leBytes 4 (1 * 2 ^ 8 + 0x200 * 2 ^ 16)
def writeMsg : List Byte := hd 0x11 5 2 44 1 ++ leBytes 12 (1 * 2 ^ 8 + 0x200 * 2 ^ 16 + 3 * 2 ^ 32 + 2 * 2 ^ 48 + 100 * 2 ^ 64)
def readBlockMsg : List Byte := hd 0x12 5 2 48 1 ++ leBytes 16 (1 * 2 ^ 8 + 0x200 * 2 ^ 16 + 1392 * 2 ^ 48)
def writeBlockMsg : List Byte := hd 0x13 5 2 52 1 ++ leBytes 20 (2 + 1 * 2 ^ 8 + 0x200 * 2 ^ 16 + 3 * 2 ^ 32 + 2 * 2 ^ 48 + 2 * 2 ^ 96 + 100 * 2 ^ 128)
def describeMsg : List Byte := hd 0x14 0 0 20 1 ++ leBytes 4 (1 * 2 ^ 8 + 0x200 * 2 ^ 16)
def openMsg (cred : Nat) : List Byte := hd 1 0 0 48 0 ++ leBytes 32 (cred + 9 * 2 ^ 128)

/-- A session not yet authenticated, and a device that holds it. -/
def hand7 : Session := { number := 7, credential := 0, path := .port 0 }
def hsv : State := { svc with bamurn := { sessions := [sess5, hand7] } }
def authHead : List Byte := leBytes 16 (1 + 3 * 2 ^ 8 + 3 * 2 ^ 16 + 48 * 2 ^ 48 + 7 * 2 ^ 80 + 1 * 2 ^ 96)

/-- A message of 16 bytes of head and 32 of proof is a well-formed SESSION_AUTH. -/
theorem auth_request {s : State} {r : List Byte} (h : r.length = 32) : s.portRequest (.port 0) 3 (authHead ++ r) (headOf authHead) := by
  have l : (authHead ++ r).length = 48 := by rw [List.length_append, h]; rfl
  refine ⟨⟨0, {}, rfl⟩, taken_plain (by omega), by omega, (headOf_append authHead r (by decide)).symm, by decide +kernel, by decide +kernel, by decide +kernel, ?_⟩
  rw [requestOk, l]
  decide +kernel

/-- Memories that nothing has touched are quiet. -/
theorem quiet_of {s : State} (h : s.hbms = [] ∧ s.channels = []) : s.quietMemory := by
  intro srv
  cases srv <;> simp only [State.server, h.1, h.2] <;> exact ⟨rfl, rfl⟩

/-- Where no context is listed, OPEN_CONTEXT finds a free slot. -/
theorem pickSlot_free {s : State} (h : s.ctxs = []) : s.pickSlot.2 = some (s.pickSlot.2.getD 0) ∧ (s.ctx (s.pickSlot.2.getD 0)).st = .free := by
  have c : ∀ k, (s.ctx k).st = .free := fun k => by unfold State.ctx; rw [h]; rfl
  refine ⟨?_, c _⟩
  have l : lowestFree 0 s.ctxs < 262144 := by rw [h]; decide
  simp only [State.pickSlot, c, and_true, l, if_true]
  split <;> rfl

/-! ### Witnesses of the statements -/

/-- States that meet the hypotheses of StepRunsFrontCommand. -/
theorem witness_StepRunsFrontCommand :
    (∃ (c : Instr) (rest : List Instr) (s : State), (s.pending = c :: rest)) ∧
    (∃ (s : State), (s.pending = [])) := by
  exact ⟨⟨.poweredSecond, [.debugHoldExpiry], ({ svc with pending := [.poweredSecond, .debugHoldExpiry] }), by decide +kernel⟩,
    ⟨svc, by decide +kernel⟩⟩

/-- States that meet the hypotheses of ResetIsUnpoweredAndCanonical. -/
theorem witness_ResetIsUnpoweredAndCanonical :
    (∃ (q : Nat), (q < 12)) := by
  exact ⟨11, by decide +kernel⟩

/-- States that meet the hypotheses of StepKeepsMemoryCanonical. -/
theorem witness_StepKeepsMemoryCanonical :
    (∃ (s : State) (t : State), (Memory.wf s = true) ∧ (step s = .next t)) := by
  exact ⟨State.reset, _, by decide +kernel, rfl⟩

/-- States that meet the hypotheses of CommandsLeaveTheQueue. -/
theorem witness_CommandsLeaveTheQueue :
    (∃ (c : Instr) (s : State) (t : State), (exec c s = .next t)) := by
  exact ⟨.debugHoldExpiry, svc, _, rfl⟩

/-- States that meet the hypotheses of RefusedWriteHasNoEffect. -/
theorem witness_RefusedWriteHasNoEffect :
    (∃ (c : Instr) (s : State) (sess : Nat) (i : Nat) (j : Nat) (st : Nat), (cmdObject c = some (sess, i, j)) ∧ ((objAt i j).isSome) ∧ (s.writeGuard sess i j = some st)) ∧
    (∃ (c : Instr) (s : State) (sess : Nat) (i : Nat) (j : Nat), (cmdObject c = some (sess, i, j)) ∧ ((objAt i j).isSome) ∧ (s.holds sess rWrite = false)) := by
  exact ⟨⟨(.jobLoad 9 3), svc, 9, 0x5013, 1, stAccessDenied, by decide +kernel⟩,
    ⟨(.jobLoad 9 3), svc, 9, 0x5013, 1, by decide +kernel⟩⟩

/-- States that meet the hypotheses of TestSessionsAndStartCommands. -/
theorem witness_TestSessionsAndStartCommands :
    (∃ (s : State) (sess : Nat), (s.writeGuard sess 0x0110 1 = none)) ∧
    (∃ (s : State) (sess : Nat), (s.writeGuard sess 0x0110 1 = none)) ∧
    (∃ (s : State) (sess : Nat), (s.writeGuard sess 0x0110 1 = none)) ∧
    (∃ (s : State) (sess : Nat), (s.writeGuard sess 0x0110 1 = none)) ∧
    (∃ (s : State) (sess : Nat), (s.writeGuard sess 0x0110 1 = none)) ∧
    (∃ (s : State) (sess : Nat) (c : Instr) (kind : Nat) (r : ModeRequest), ((c = .startCommandWarm sess ∧ kind = 2 ∧ r = .warmStart sess) ∨ (c = .startCommandCold sess ∧ kind = 1 ∧ r = .coldStart sess)) ∧ (s.writeGuard sess 0x7000 1 = none) ∧ (s.device.mode = .service ∨ s.device.mode = .test ∨ (s.device.mode = .safe ∧ s.sec.installed = true))) ∧
    (∃ (s : State) (sess : Nat) (c : Instr) (kind : Nat) (r : ModeRequest), ((c = .startCommandWarm sess ∧ kind = 2 ∧ r = .warmStart sess) ∨ (c = .startCommandCold sess ∧ kind = 1 ∧ r = .coldStart sess)) ∧ (s.writeGuard sess 0x7000 1 = none) ∧ (s.device.mode = .service ∨ s.device.mode = .test ∨ (s.device.mode = .safe ∧ s.sec.installed = true))) ∧
    (∃ (s : State) (sess : Nat) (c : Instr) (kind : Nat) (r : ModeRequest), ((c = .startCommandWarm sess ∧ kind = 2 ∧ r = .warmStart sess) ∨ (c = .startCommandCold sess ∧ kind = 1 ∧ r = .coldStart sess)) ∧ (s.writeGuard sess 0x7000 1 = none) ∧ (s.device.mode = .service ∨ s.device.mode = .test ∨ (s.device.mode = .safe ∧ s.sec.installed = true))) ∧
    (∃ (s : State) (sess : Nat) (c : Instr) (kind : Nat) (r : ModeRequest), ((c = .startCommandWarm sess ∧ kind = 2 ∧ r = .warmStart sess) ∨ (c = .startCommandCold sess ∧ kind = 1 ∧ r = .coldStart sess)) ∧ (s.writeGuard sess 0x7000 1 = none) ∧ (s.device.mode = .startup ∨ s.device.mode = .recovery)) ∧
    (∃ (s : State) (sess : Nat) (c : Instr) (kind : Nat) (r : ModeRequest), ((c = .startCommandWarm sess ∧ kind = 2 ∧ r = .warmStart sess) ∨ (c = .startCommandCold sess ∧ kind = 1 ∧ r = .coldStart sess)) ∧ (s.writeGuard sess 0x7000 1 = none) ∧ (s.device.mode = .safe ∧ s.sec.installed = false)) := by
  exact ⟨⟨svc, 5, by decide +kernel⟩,
    ⟨(dev .test), 5, by decide +kernel⟩,
    ⟨(dev .recovery), 5, by decide +kernel⟩,
    ⟨(svc.setObj 0x5013 0 0 2), 5, by decide +kernel⟩,
    ⟨({ svc with device := { mode := .test, holder := 5 } }), 5, by decide +kernel⟩,
    ⟨svc, 5, (.startCommandWarm 5), 2, (.warmStart 5), by decide +kernel⟩,
    ⟨(dev .test), 5, (.startCommandCold 5), 1, (.coldStart 5), by decide +kernel⟩,
    ⟨({ dev .safe with sec := { installed := true } }), 5, (.startCommandCold 5), 1, (.coldStart 5), by decide +kernel⟩,
    ⟨(dev .startup), 5, (.startCommandWarm 5), 2, (.warmStart 5), by decide +kernel⟩,
    ⟨(dev .safe), 5, (.startCommandWarm 5), 2, (.warmStart 5), by decide +kernel⟩⟩

/-- States that meet the hypotheses of StagesEndFailAndStartAgain. -/
theorem witness_StagesEndFailAndStartAgain :
    (∃ (s : State) (r : StageReport), (s.boot.active = true) ∧ (s.obj 0x7000 3 = 0) ∧ (r.failed = none) ∧ (∀ i ∈ [0x10A0, 0x10A5, 0x10A6], s.obj i 0 ≠ 2 ∧ popCount (railPhases (i - 0x10A0) - s.obj i 1) 6 < 2)) ∧
    (∃ (s : State) (r : StageReport), (s.boot.active = true) ∧ (s.obj 0x7000 3 = 9) ∧ (s.topologyMet = false)) ∧
    (∃ (s : State), (s.boot.active = true) ∧ (s.obj 0x7000 3 = 9) ∧ (s.boot.topoHold = false) ∧ (s.stagePast (s.stageLimit 9 false) = true)) ∧
    (∃ (s : State) (r : StageReport), (s.boot.active = true) ∧ (s.obj 0x7000 3 = 11) ∧ (s.mayReady = true) ∧ (s.device.latched = none)) ∧
    (∃ (s : State) (r : StageReport), (s.boot.active = false)) ∧
    (∃ (s : State) (unit : Nat) (full : Bool), (s.boot.active = true) ∧ (s.obj 0x7000 3 ≠ 9) ∧ (s.stagePast (2 * s.stageLimit (s.obj 0x7000 3) full) = true) ∧ (s.bamurn.flash.ok = true) ∧ (s.boot.testDdr < 16) ∧ (s.boot.testHbm < 16)) ∧
    (∃ (s : State) (unit : Nat) (full : Bool), (s.boot.active = true) ∧ (s.obj 0x7000 3 ≠ 9) ∧ (s.stagePast (2 * s.stageLimit (s.obj 0x7000 3) full) = true) ∧ (s.bamurn.flash.ok = true) ∧ (s.boot.testDdr < 16) ∧ (s.boot.testHbm < 16)) ∧
    (∃ (s : State) (kind : Nat), (s.boot.waiting = some kind) ∧ (s.power.closed = false) ∧ (s.boot.failedAt + secTide ≤ s.elapsed)) ∧
    (∃ (s : State) (kind : Nat), (s.boot.waiting = some kind) ∧ (s.power.closed = false) ∧ (s.boot.failedAt + secTide ≤ s.elapsed)) ∧
    (∃ (s : State), (s.boot.waiting = none)) ∧
    (∃ (s : State) (unit : Nat) (full : Bool), (s.boot.active = false ∨ s.obj 0x7000 3 = 9 ∨ s.stagePast (2 * s.stageLimit (s.obj 0x7000 3) full) = false)) := by
  exact ⟨⟨({ (dev .startup).setObj 0x7000 3 0 0 with boot := { active := true } }), {}, by decide +kernel⟩,
    ⟨({ (((dev .startup).setObj 0x7000 3 0 9)) with boot := { active := true, topoHold := true, expected := [1] } }), {}, by decide +kernel⟩,
    ⟨({ (((dev .startup).setObj 0x7000 3 0 9)) with elapsed := msTide * 2000, boot := { active := true, expected := [1] } }), by decide +kernel⟩,
    ⟨({ obs [(0x7000,3,0,11),(0x3010,0,0,1),(0x3011,0,0,1),(0x3210,0,0,2),(0x2010,0,0,2)] (dev .startup) with boot := { active := true } }), {}, by decide +kernel⟩,
    ⟨svc, {}, by decide +kernel⟩,
    ⟨({ (dev .startup).setObj 0x7000 2 0 2 with elapsed := secTide, boot := { active := true } }), 65535, false, by decide +kernel⟩,
    ⟨({ (dev .startup).setObj 0x7000 3 0 4 with elapsed := secTide * 120, boot := { active := true } }), 3, true, by decide +kernel⟩,
    ⟨({ dev .startup with elapsed := secTide, boot := { waiting := some 2 } }), 2, by decide +kernel⟩,
    ⟨({ dev .startup with elapsed := secTide, device := { mode := .startup, latched := some (.coldStart 5) }, boot := { waiting := some 2 } }), 2, by decide +kernel⟩,
    ⟨svc, by decide +kernel⟩,
    ⟨svc, 0, false, by decide +kernel⟩⟩

/-- States that meet the hypotheses of TrainingAndMemoryTestCommands. -/
theorem witness_TrainingAndMemoryTestCommands :
    (∃ (s : State) (sess : Nat), (s.writeGuard sess 0x7020 1 = none)) ∧
    (∃ (s : State) (sess : Nat) (mode : Nat), (s.writeGuard sess 0x7030 2 = none) ∧ (mode ≤ 2)) ∧
    (∃ (s : State) (sess : Nat) (mode : Nat), (s.writeGuard sess 0x7030 2 = none) ∧ (2 < mode)) := by
  exact ⟨⟨svc, 5, by decide +kernel⟩,
    ⟨svc, 5, 2, by decide +kernel⟩,
    ⟨svc, 5, 3, by decide +kernel⟩⟩

/-- States that meet the hypotheses of SupplyClosesAndColdStarts. -/
theorem witness_SupplyClosesAndColdStarts :
    (∃ (s : State) (mv : Nat), (s.power.closed = false)) ∧
    (∃ (s : State) (mv : Nat), (s.power.closed = false)) ∧
    (∃ (s : State) (c : Instr) (cause : Nat), (s.power.closed = false) ∧ ((c = .saveAndClose ∧ (∃ since, s.power.sag = some since ∧ since + msTide < s.elapsed) ∧ cause = 1) ∨ (∃ mv, c = .inputOvervoltage mv ∧ 60000 < mv ∧ cause = 1) ∨ (c = .powerOffNLow ∧ cause = 2))) ∧
    (∃ (s : State) (c : Instr) (cause : Nat), (s.power.closed = false) ∧ ((c = .saveAndClose ∧ (∃ since, s.power.sag = some since ∧ since + msTide < s.elapsed) ∧ cause = 1) ∨ (∃ mv, c = .inputOvervoltage mv ∧ 60000 < mv ∧ cause = 1) ∨ (c = .powerOffNLow ∧ cause = 2))) ∧
    (∃ (s : State) (c : Instr) (cause : Nat), (s.power.closed = false) ∧ ((c = .saveAndClose ∧ (∃ since, s.power.sag = some since ∧ since + msTide < s.elapsed) ∧ cause = 1) ∨ (∃ mv, c = .inputOvervoltage mv ∧ 60000 < mv ∧ cause = 1) ∨ (c = .powerOffNLow ∧ cause = 2))) ∧
    (∃ (s : State), (∀ since, s.power.sag = some since → s.elapsed ≤ since + msTide)) ∧
    (∃ (s : State) (mv : Nat), (s.power.closed = false) ∧ (mv ≤ 60000)) ∧
    (∃ (s : State) (i : Nat), (i < 4) ∧ (s.obj 0x1000 4 i = 0)) ∧
    (∃ (s : State) (i : Nat), (i < 4) ∧ (s.obj 0x1000 4 i = 0)) ∧
    (∃ (s : State) (i : Nat), (i < 4) ∧ (s.obj 0x1000 4 i = 0)) ∧
    (∃ (s : State) (i : Nat), (s.obj 0x1000 4 i = 1)) ∧
    (∃ (s : State) (c : Instr) (mv : Nat), (s.power.closed = true) ∧ (s.power.cause ≠ 3) ∧ (42000 ≤ mv) ∧ ((c = .coldStart mv ∧ s.power.pinLow = false) ∨ c = .powerOffNRelease mv)) ∧
    (∃ (s : State) (c : Instr) (mv : Nat), (s.power.closed = true) ∧ (s.power.cause ≠ 3) ∧ (42000 ≤ mv) ∧ ((c = .coldStart mv ∧ s.power.pinLow = false) ∨ c = .powerOffNRelease mv)) ∧
    (∃ (s : State) (mv : Nat), (s.power.closed = false ∨ s.power.cause = 3 ∨ s.power.pinLow = true ∨ mv < 42000)) ∧
    (∃ (s : State) (mv : Nat), (s.power.closed = false ∨ s.power.cause = 3 ∨ s.power.pinLow = true ∨ mv < 42000)) ∧
    (∃ (s : State) (mv : Nat), (s.power.closed = false ∨ s.power.cause = 3 ∨ mv < 42000)) := by
  exact ⟨⟨svc, 39999, by decide +kernel⟩,
    ⟨svc, 40000, by decide +kernel⟩,
    ⟨({ svc with elapsed := msTide + 1, power := { closed := false, sag := some 0 } }), .saveAndClose, 1, ⟨by decide, .inl ⟨rfl, ⟨0, by decide⟩, rfl⟩⟩⟩,
    ⟨svc, .powerOffNLow, 2, ⟨by decide, .inr (.inr (by decide))⟩⟩,
    ⟨svc, (.inputOvervoltage 60001), 1, ⟨by decide, .inr (.inl ⟨60001, by decide⟩)⟩⟩,
    ⟨svc, by decide +kernel⟩,
    ⟨svc, 60000, by decide +kernel⟩,
    ⟨svc, 3, by decide +kernel⟩,
    ⟨(obs [(0x1000,4,0,1)] svc), 3, by decide +kernel⟩,
    ⟨(obs [(0x1000,4,0,1),(0x1000,4,1,1)] svc), 2, by decide +kernel⟩,
    ⟨(obs [(0x1000,4,0,1)] svc), 0, by decide +kernel⟩,
    ⟨off, (.coldStart 42000), 42000, by decide +kernel⟩,
    ⟨({ svc with power := { cause := 2, pinLow := true } }), (.powerOffNRelease 50000), 50000, by decide +kernel⟩,
    ⟨off, 41999, by decide +kernel⟩,
    ⟨svc, 50000, by decide +kernel⟩,
    ⟨off, 41999, by decide +kernel⟩⟩

/-- States that meet the hypotheses of PhaseLossAndFeedChecks. -/
theorem witness_PhaseLossAndFeedChecks :
    (∃ (s : State) (c : Nat) (phase : Nat), (c < 90) ∧ (phase < phaseCount (.vl c)) ∧ (s.obj (0x1040 + c) 1 ≤ (if c < 72 then 7 else 3)) ∧ (bitOf (s.obj (0x1040 + c) 1) phase = true) ∧ (s.plane c ≠ 4)) ∧
    (∃ (s : State) (c : Nat) (phase : Nat), (c < 90) ∧ (phase < phaseCount (.vl c)) ∧ (s.obj (0x1040 + c) 1 ≤ (if c < 72 then 7 else 3)) ∧ (bitOf (s.obj (0x1040 + c) 1) phase = true) ∧ (s.plane c ≠ 4)) ∧
    (∃ (s : State) (rail : Rail) (phase : Nat), (phaseCount rail ≤ phase ∨ bitOf (s.phasesLost rail) phase = true)) ∧
    (∃ (s : State) (c : Nat), (c < 90) ∧ (s.plane c ≠ 4)) ∧
    (∃ (s : State) (f : Nat) (phase : Nat), (f < 6) ∧ (phase < 4) ∧ (bitOf (s.phasesLost (.va f)) phase = false) ∧ (popCount (s.phasesLost (.va f)) 6 = 1)) ∧
    (∃ (s : State) (f : Nat) (phase : Nat), (f < 6) ∧ (phase < 3) ∧ (bitOf (s.phasesLost (.vf f)) phase = false) ∧ (popCount (s.phasesLost (.vf f)) 6 = 1)) ∧
    (∃ (s : State) (c : Nat), (s.obj (0x1040 + c) 0xA ≠ 1)) ∧
    (∃ (s : State) (c : Nat), (s.obj (0x1040 + c) 0xA = 1)) ∧
    (∃ (s : State) (c : Nat) (a : Nat) (b : Nat) (ma : Nat), (s.obj (0x1040 + c) 0xA ≠ 1) ∧ ((if c < 72 then 10000 else 3000) ≤ ma) ∧ (4 * (1000000 * (a - b) / ma) ≤ 5 * s.obj (0x1040 + c) 9)) ∧
    (∃ (s : State) (c : Nat) (a : Nat) (b : Nat) (ma : Nat), (s.obj (0x1040 + c) 0xA ≠ 1) ∧ (ma < (if c < 72 then 10000 else 3000))) ∧
    (∃ (s : State) (ch : Nat), (ch < 16) ∧ (s.obj (0x3110 + ch) 0 = 1) ∧ (Tbl.get s.channels {} ch = {})) := by
  exact ⟨⟨(obs [(0x1040,0,0,2)] svc), 0, 2, by decide +kernel⟩,
    ⟨(obs [(0x1040+72,0,0,2),(0x1040+72,1,0,1)] svc), 72, 0, by decide +kernel⟩,
    ⟨svc, (.vl 72), 2, by decide +kernel⟩,
    ⟨svc, 89, by decide +kernel⟩,
    ⟨({ svc with power := { closed := false, lost := [(5, 1)] } }), 5, 3, by decide +kernel⟩,
    ⟨({ svc with power := { closed := false, lost := [(6, 1)] } }), 0, 2, by decide +kernel⟩,
    ⟨svc, 3, by decide +kernel⟩,
    ⟨(obs [(0x1043,0xA,0,1)] svc), 3, by decide +kernel⟩,
    ⟨(obs [(0x1040,9,0,100)] svc), 0, 751, 750, 10000, by decide +kernel⟩,
    ⟨svc, 72, 751, 750, 2999, by decide +kernel⟩,
    ⟨(obs [(0x3110,0,0,1)] svc), 0, by decide +kernel⟩⟩

/-- States that meet the hypotheses of PlanesGateAndWakeBySluice. -/
theorem witness_PlanesGateAndWakeBySluice :
    (∃ (s : State) (c : Nat) (ma : Nat) (w : Wake) (i : Instr), (s.wakeOf c = some w) ∧ (w.due ≤ s.elapsed) ∧ ((i = .sluiceStageDecision c ma ∧ w.stages < 8 ∧ w.holding = false ∧ w.expired = false) ∨ (i = .sluiceHoldReading c ma ∧ w.holding = true ∧ w.spent s.elapsed = false))) ∧
    (∃ (s : State) (c : Nat) (ma : Nat) (w : Wake) (i : Instr), (s.wakeOf c = some w) ∧ (w.due ≤ s.elapsed) ∧ ((i = .sluiceStageDecision c ma ∧ w.stages < 8 ∧ w.holding = false ∧ w.expired = false) ∨ (i = .sluiceHoldReading c ma ∧ w.holding = true ∧ w.spent s.elapsed = false))) ∧
    (∃ (s : State) (c : Nat) (ma : Nat) (w : Wake) (i : Instr), (s.wakeOf c = some w) ∧ (w.due ≤ s.elapsed) ∧ ((i = .sluiceStageDecision c ma ∧ w.stages < 8 ∧ w.holding = false ∧ w.expired = false) ∨ (i = .sluiceHoldReading c ma ∧ w.holding = true ∧ w.spent s.elapsed = false))) ∧
    (∃ (s : State) (c : Nat) (ma : Nat) (w : Wake), (s.wakeOf c = some w) ∧ (w.stages < 8) ∧ (w.holding = false) ∧ (w.expired = true) ∧ (w.due ≤ s.elapsed)) ∧
    (∃ (s : State) (c : Nat) (ma : Nat) (w : Wake), (s.wakeOf c = some w) ∧ (s.elapsed < w.due)) ∧
    (∃ (s : State) (c : Nat) (ma : Nat) (w : Wake), (s.wakeOf c = some w) ∧ (w.holding = false)) ∧
    (∃ (s : State) (c : Nat) (w : Wake), (s.wakeOf c = some w) ∧ (w.spent s.elapsed = false)) ∧
    (∃ (s : State) (c : Nat) (w : Wake), (s.wakeOf c = some w) ∧ (w.holding = true) ∧ (w.spent s.elapsed = true)) ∧
    (∃ (s : State) (c : Nat) (ma : Nat), (s.wakeOf c = none)) ∧
    (∃ (s : State) (c : Nat), (c < 90) ∧ (s.plane c = 2) ∧ (s.gateable c = true)) ∧
    (∃ (s : State) (c : Nat), (s.plane c = 2) ∧ (s.gateable c = false)) ∧
    (∃ (s : State) (c : Nat), (s.plane c = 1)) ∧
    (∃ (s : State) (c : Nat), (s.plane c = 3)) ∧
    (∃ (s : State) (c : Nat), (s.plane c = 0 ∨ s.plane c = 4)) ∧
    (∃ (s : State) (c : Nat), (c < 90) ∧ (s.plane c = 3) ∧ (s.planeWaits c = none)) ∧
    (∃ (s : State) (c : Nat), (c < 90) ∧ (s.plane c = 3) ∧ (s.planeWaits c = some true)) ∧
    (∃ (s : State) (c : Nat), (s.plane c ≠ 3)) ∧
    (∃ (s : State) (c : Nat) (w : Wake), (c < 90) ∧ (s.wakeOf c = some w) ∧ (8 ≤ w.stages) ∧ (w.due ≤ s.elapsed) ∧ (s.planeWaits c = none) ∧ ((s.wakeGroup (clusterField c)).queue = [])) ∧
    (∃ (s : State) (c : Nat), (s.wakeOf c = none ∨ (∃ w, s.wakeOf c = some w ∧ w.stages < 8))) ∧
    (∃ (s : State) (c : Nat), (s.wakeOf c = none ∨ (∃ w, s.wakeOf c = some w ∧ w.stages < 8))) := by
  exact ⟨⟨(waking { cluster := 0, asked := 0, interval := 1 }), 0, 5, ({ cluster := 0, asked := 0, interval := 1 }), (.sluiceStageDecision 0 5), by decide +kernel⟩,
    ⟨(waking { cluster := 0, asked := 0, interval := 1 }), 0, 10000000, ({ cluster := 0, asked := 0, interval := 1 }), (.sluiceStageDecision 0 10000000), by decide +kernel⟩,
    ⟨(waking { cluster := 0, asked := 0, interval := 1, holding := true }), 0, 7, ({ cluster := 0, asked := 0, interval := 1, holding := true }), (.sluiceHoldReading 0 7), by decide +kernel⟩,
    ⟨(waking { cluster := 0, asked := 0, interval := 4, expired := true }), 0, 7, ({ cluster := 0, asked := 0, interval := 4, expired := true }), by decide +kernel⟩,
    ⟨(waking { cluster := 0, asked := 0, interval := 4, due := 9 }), 0, 7, ({ cluster := 0, asked := 0, interval := 4, due := 9 }), by decide +kernel⟩,
    ⟨(waking { cluster := 0, asked := 0, interval := 4 }), 0, 7, ({ cluster := 0, asked := 0, interval := 4 }), by decide +kernel⟩,
    ⟨(waking { cluster := 0, asked := 0, interval := 4, holding := true }), 0, ({ cluster := 0, asked := 0, interval := 4, holding := true }), by decide +kernel⟩,
    ⟨(waking { cluster := 0, asked := 0, interval := 4, holding := true, held := 200000, stages := 7 }), 0, ({ cluster := 0, asked := 0, interval := 4, holding := true, held := 200000, stages := 7 }), by decide +kernel⟩,
    ⟨svc, 89, 0, by decide +kernel⟩,
    ⟨(obs [(0x1040,0,0,2)] svc), 0, by decide +kernel⟩,
    ⟨(obs [(0x1040,0,0,2),(tileIx ((tilesOfCluster 0).headD 0),0,0,4)] svc), 0, by decide +kernel⟩,
    ⟨(obs [(0x1040,0,0,1)] svc), 0, by decide +kernel⟩,
    ⟨(obs [(0x1099,0,0,3)] svc), 89, by decide +kernel⟩,
    ⟨(obs [(0x1099,0,0,4)] svc), 89, by decide +kernel⟩,
    ⟨(obs [(0x1099,0,0,3)] svc), 89, by decide +kernel⟩,
    ⟨({ obs [(0x1040,0,0,3)] svc with planeLatch := [(0, some true)] }), 0, by decide +kernel⟩,
    ⟨svc, 0, by decide +kernel⟩,
    ⟨(waking { cluster := 0, asked := 0, interval := 1, stages := 8 }), 0, ({ cluster := 0, asked := 0, interval := 1, stages := 8 }), by decide +kernel⟩,
    ⟨svc, 5, by decide +kernel⟩,
    ⟨(waking { cluster := 0, asked := 0, interval := 1, stages := 7 }), 0, .inr ⟨{ cluster := 0, asked := 0, interval := 1, stages := 7 }, by decide +kernel⟩⟩⟩

/-- States that meet the hypotheses of ControlTickCurrentAndDroop. -/
theorem witness_ControlTickCurrentAndDroop :
    (∃ (s : State) (a : Nat) (b : Nat) (h : Nat), (s.obj 0x1100 1 ≤ h) ∧ (∀ c, c < 90 → s.plane c = 2 → s.obj (0x1310 + c) 0 ≤ h) ∧ (h = s.obj 0x1100 1 ∨ ∃ c, c < 90 ∧ s.plane c = 2 ∧ s.obj (0x1310 + c) 0 = h)) ∧
    (∃ (s : State) (a : Nat) (b : Nat) (h : Nat), (s.obj 0x1100 1 ≤ h) ∧ (∀ c, c < 90 → s.plane c = 2 → s.obj (0x1310 + c) 0 ≤ h) ∧ (h = s.obj 0x1100 1 ∨ ∃ c, c < 90 ∧ s.plane c = 2 ∧ s.obj (0x1310 + c) 0 = h)) ∧
    (∃ (s : State) (a : Nat) (b : Nat) (h : Nat), (s.obj 0x1100 1 ≤ h) ∧ (∀ c, c < 90 → s.plane c = 2 → s.obj (0x1310 + c) 0 ≤ h) ∧ (h = s.obj 0x1100 1 ∨ ∃ c, c < 90 ∧ s.plane c = 2 ∧ s.obj (0x1310 + c) 0 = h)) ∧
    (∃ (s : State) (a : Nat) (b : Nat) (h : Nat), (s.obj 0x1100 1 ≤ h) ∧ (∀ c, c < 90 → s.plane c = 2 → s.obj (0x1310 + c) 0 ≤ h) ∧ (h = s.obj 0x1100 1 ∨ ∃ c, c < 90 ∧ s.plane c = 2 ∧ s.obj (0x1310 + c) 0 = h)) ∧
    (∃ (s : State) (a : Nat) (b : Nat) (h : Nat), (s.obj 0x1100 1 ≤ h) ∧ (∀ c, c < 90 → s.plane c = 2 → s.obj (0x1310 + c) 0 ≤ h) ∧ (h = s.obj 0x1100 1 ∨ ∃ c, c < 90 ∧ s.plane c = 2 ∧ s.obj (0x1310 + c) 0 = h)) ∧
    (∃ (s : State) (a : Nat) (b : Nat) (h : Nat), (s.obj 0x1100 1 ≤ h) ∧ (∀ c, c < 90 → s.plane c = 2 → s.obj (0x1310 + c) 0 ≤ h) ∧ (h = s.obj 0x1100 1 ∨ ∃ c, c < 90 ∧ s.plane c = 2 ∧ s.obj (0x1310 + c) 0 = h)) ∧
    (∃ (s : State) (f : Nat) (ma : Nat), (f < 6)) ∧
    (∃ (s : State) (f : Nat) (ma : Nat), (f < 6)) ∧
    (∃ (s : State) (f : Nat) (ma : Nat), (f < 6)) ∧
    (∃ (s : State) (c : Nat), (c < 90) ∧ (s.plane c = 2) ∧ (s.obj (0x1450 + c) 4 = 0)) ∧
    (∃ (s : State) (c : Nat), (c < 90) ∧ (s.plane c = 2) ∧ (s.obj (0x1450 + c) 4 = 0)) ∧
    (∃ (s : State) (c : Nat), (s.plane c ≠ 2 ∨ s.obj (0x1450 + c) 4 ≠ 0)) ∧
    (∃ (s : State) (c : Nat), (c < 90) ∧ (s.obj (0x1450 + c) 4 = 1) ∧ (s.obj (0x1450 + c) 1 ≠ 0)) ∧
    (∃ (s : State) (c : Nat), (s.obj (0x1450 + c) 4 ≠ 1)) ∧
    (∃ (s : State) (c : Nat), ((s.limits c).hold = true) ∧ ((s.limits c).holdAt + 100 * msTide ≤ s.elapsed)) ∧
    (∃ (s : State) (c : Nat), ((s.limits c).hold = false ∨ s.elapsed < (s.limits c).holdAt + 100 * msTide)) := by
  exact ⟨⟨(obs [(0x1101,4,0,31)] svc), 500000, 500000, (svc.obj 0x1100 1), by decide +kernel⟩,
    ⟨(obs [(0x1101,4,0,20),(0x1040,0,0,2),(0x1310,0,0,20)] svc), 5000000, 500000, 20, by decide +kernel⟩,
    ⟨(obs [(0x1101,4,0,20),(0x1101,5,0,16)] svc), 1000, 1000, (svc.obj 0x1100 1), by decide +kernel⟩,
    ⟨(obs [(0x1101,4,0,20),(0x1101,5,0,15)] svc), 1000, 1000, (svc.obj 0x1100 1), by decide +kernel⟩,
    ⟨(obs [(0x1101,4,0,20),(0x1101,5,0,15),(0x5013,0,0,2)] svc), 5000000, 1000, (svc.obj 0x1100 1), by decide +kernel⟩,
    ⟨({ obs [(0x1101,4,0,20),(0x1101,5,0,15),(0x5013,0,0,2)] svc with throttle := { since := 3 } }), 5000000, 1000, (svc.obj 0x1100 1), by decide +kernel⟩,
    ⟨svc, 5, 1000, by decide +kernel⟩,
    ⟨({ obs [(0x1020,0,0,10)] svc with throttle := { groups := [(0, { above := 3 })] } }), 0, 10001, by decide +kernel⟩,
    ⟨({ obs [(0x1020,0,0,10)] svc with throttle := { groups := [(0, { below := 199, duty := true })] } }), 0, 9000, by decide +kernel⟩,
    ⟨(obs [(0x1040,0,0,2)] svc), 0, by decide +kernel⟩,
    ⟨({ obs [(0x1099,0,0,2)] svc with throttle := { clusters := [(89, { marks := [0,0,0,0,0,0,0] })] } }), 89, by decide +kernel⟩,
    ⟨svc, 0, by decide +kernel⟩,
    ⟨(obs [(0x1499+16,4,0,1),(0x1450,4,0,1),(0x1450,1,0,600)] svc), 0, by decide +kernel⟩,
    ⟨svc, 0, by decide +kernel⟩,
    ⟨({ svc with elapsed := 400000000, throttle := { clusters := [(3, { hold := true, droop := 10 })] } }), 3, by decide +kernel⟩,
    ⟨svc, 3, by decide +kernel⟩⟩

/-- States that meet the hypotheses of HeatLimitsAndSlackNotices. -/
theorem witness_HeatLimitsAndSlackNotices :
    (∃ (s : State) (c : Nat) (x : Int), (c < 90)) ∧
    (∃ (s : State) (c : Nat) (x : Int), (c < 90)) ∧
    (∃ (s : State) (c : Nat) (x : Int), (c < 90)) ∧
    (∃ (s : State) (h : Nat) (x : Int), (h < 12)) ∧
    (∃ (s : State) (h : Nat) (x : Int), (h < 12)) ∧
    (∃ (s : State) (h : Nat) (x : Int), (h < 12)) ∧
    (∃ (s : State) (ch : Nat) (x : Int), (ch < 16)) ∧
    (∃ (s : State) (ch : Nat) (x : Int), (ch < 16)) ∧
    (∃ (s : State), (s.power.closed = true) ∧ (s.power.cause = 3) ∧ (signedOf (s.obj 0x1400 1) 32 ≤ 450) ∧ (4500 ≤ s.obj 0x1400 3) ∧ (∀ c, c < 90 → signedOf (s.obj (0x1310 + c) 5) 32 < 600)) ∧
    (∃ (s : State), (s.power.closed = false ∨ s.power.cause ≠ 3 ∨ 450 < signedOf (s.obj 0x1400 1) 32 ∨ s.obj 0x1400 3 < 4500 ∨ (∃ c, c < 90 ∧ 600 ≤ signedOf (s.obj (0x1310 + c) 5) 32))) ∧
    (∃ (s : State) (q : Nat), (s.sendsSlack q = true) ∧ (s.jobId q < 65536)) ∧
    (∃ (s : State) (q : Nat), (s.sendsSlack q = false)) ∧
    (∃ (s : State) (m : CtrlMsg), (ctrlOk 0x16 m = true) ∧ (s.obj 0x1102 0 = 0)) ∧
    (∃ (s : State) (m : CtrlMsg) (q : Nat), (ctrlOk 0x16 m = true) ∧ (s.obj 0x1102 0 = 1) ∧ (q < 12) ∧ (s.jobState q = 2 ∨ s.jobState q = 3) ∧ (s.jobId q = fieldOf m.body.toNat 208 16) ∧ (bitOf (s.obj (0x5040 + q) 9) m.src = true)) ∧
    (∃ (s : State) (m : CtrlMsg) (q : Nat), (ctrlOk 0x16 m = true) ∧ (s.obj 0x1102 0 = 1) ∧ (q < 12) ∧ (s.jobState q = 2 ∨ s.jobState q = 3) ∧ (s.jobId q = fieldOf m.body.toNat 208 16) ∧ (bitOf (s.obj (0x5040 + q) 9) m.src = true)) ∧
    (∃ (s : State) (q : Nat) (sender : Nat), (s.elapsed < Tbl.get s.throttle.slackAt 0 (256 * q + sender) + 15 * msTide)) ∧
    (∃ (s : State) (q : Nat) (sender : Nat), (Tbl.get s.throttle.slackAt 0 (256 * q + sender) + 15 * msTide ≤ s.elapsed)) := by
  exact ⟨⟨svc, 89, 1090, by decide +kernel⟩,
    ⟨svc, 0, -5, by decide +kernel⟩,
    ⟨({ svc with throttle := { clusters := [(3, { tripReads := 9 })] } }), 3, 1100, by decide +kernel⟩,
    ⟨svc, 11, 951, by decide +kernel⟩,
    ⟨svc, 0, 930, by decide +kernel⟩,
    ⟨({ svc with throttle := { hbms := [(0, { trip := 9 })] } }), 0, 1050, by decide +kernel⟩,
    ⟨svc, 15, 851, by decide +kernel⟩,
    ⟨({ obs [(0x3110,0,0,1)] svc with throttle := { dimms := [(0, { trip := 9 })] } }), 0, 950, by decide +kernel⟩,
    ⟨({ obs [(0x1400,1,0,450),(0x1400,3,0,4500)] svc with power := { cause := 3 } }), by decide +kernel⟩,
    ⟨svc, by decide +kernel⟩,
    ⟨({ obs [(0x1102,0,0,1),(0x4000,0,0,7),(0x5010,0,0,2),(0x5000,0,0,1),(0x5040,9,0,5)] svc with cfgs := [(0, { clusters := 1 })], throttle := { slackFor := [(0, (1000, 5))] }, jobs := [(0, some { hdr := { jobId := 9 } })] }), 0, by decide +kernel⟩,
    ⟨svc, 0, by decide +kernel⟩,
    ⟨svc, {}, by decide +kernel⟩,
    ⟨({ obs [(0x1102,0,0,1),(0x5010,0,0,2),(0x5000,0,0,1),(0x5040,9,0,4)] svc with cfgs := [(0, { clusters := 1 })], jobs := [(0, some { hdr := { jobId := 9 } })] }), ({ mtype := 0x16, src := 2, body := BitVec.ofNat 224 (9 * 2 ^ 208 + 2 * 2 ^ 200 + 12 * 2 ^ 192) }), 0, by decide +kernel⟩,
    ⟨({ obs [(0x1102,0,0,1),(0x5010,0,0,2),(0x5000,0,0,1),(0x5040,9,0,4)] svc with cfgs := [(0, { clusters := 1 })], jobs := [(0, some { hdr := { jobId := 9 } })] }), ({ mtype := 0x16, src := 2, body := BitVec.ofNat 224 (9 * 2 ^ 208) }), 0, by decide +kernel⟩,
    ⟨svc, 0, 4, by decide +kernel⟩,
    ⟨({ svc with elapsed := 60000000, throttle := { peers := [(0, 4, 3), (0, 5, 9)] } }), 0, 4, by decide +kernel⟩⟩

/-- States that meet the hypotheses of ClockGenerators. -/
theorem witness_ClockGenerators :
    (∃ (s : State) (c : Nat), (c < 90) ∧ (s.plane c = 2) ∧ (s.obj (0x1450 + c) 0 = 2 ∨ s.obj (0x1450 + c) 0 = 3) ∧ (s.obj (0x1310 + c) 0 < 32) ∧ (s.targetStep c < 32) ∧ (∀ k, k < 32 → s.stepUsable k = true) ∧ (s.obj (0x1310 + c) 0 ≠ s.targetStep c)) ∧
    (∃ (s : State) (c : Nat), (s.plane c = 2) ∧ (s.obj (0x1450 + c) 0 = 2 ∨ s.obj (0x1450 + c) 0 = 3) ∧ (s.obj (0x1310 + c) 0 = s.targetStep c)) ∧
    (∃ (s : State) (c : Nat) (ph : Bool), (c < 90) ∧ (s.plane c = 2) ∧ (s.obj (0x1450 + c) 0 = 2 ∨ s.obj (0x1450 + c) 0 = 3) ∧ (s.clusterJobs c = []) ∧ (s.hist (susCode (susCluster c)) clClock = none)) ∧
    (∃ (s : State) (c : Nat) (ph : Bool), (c < 90) ∧ (s.plane c = 2) ∧ (s.obj (0x1450 + c) 0 = 2 ∨ s.obj (0x1450 + c) 0 = 3) ∧ (s.clusterJobs c = []) ∧ (s.hist (susCode (susCluster c)) clClock = none)) ∧
    (∃ (s : State) (c : Nat), (c < 90) ∧ (s.plane c = 2) ∧ (s.obj (0x1450 + c) 0 = 1)) ∧
    (∃ (s : State) (c : Nat) (ph : Bool), (s.plane c ≠ 2)) ∧
    (∃ (s : State) (c : Nat), (s.plane c ≠ 2)) ∧
    (∃ (s : State), (s.power.closed = false)) ∧
    (∃ (s : State) (k : Nat) (bt : Nat) (bn : Nat) (r : Int), (s.ptpPort = some k) ∧ (s.portState k = 6)) ∧
    (∃ (s : State) (k : Nat) (bt : Nat) (bn : Nat) (r : Int), (s.ptpPort ≠ some k ∨ s.portState k ≠ 6)) := by
  exact ⟨⟨(obs ((0x1040,0,0,2) :: (0x1450,0,0,2) :: (0x1101,4,0,31) :: (List.range 32).map (fun k => (0x1100, 0, k, 1))) svc), 0, by decide +kernel⟩,
    ⟨(obs [(0x1040,0,0,2),(0x1450,0,0,3),(0x1310,0,0,(obs [(0x1040,0,0,2)] svc).targetStep 0)] svc), 0, by decide +kernel⟩,
    ⟨(obs [(0x1040,0,0,2),(0x1450,0,0,3)] svc), 0, true, by decide +kernel⟩,
    ⟨(obs [(0x1040,0,0,2),(0x1450,0,0,2)] svc), 0, false, by decide +kernel⟩,
    ⟨(obs [(0x1040,0,0,2),(0x1450,0,0,1)] svc), 0, by decide +kernel⟩,
    ⟨svc, 0, false, by decide +kernel⟩,
    ⟨svc, 0, by decide +kernel⟩,
    ⟨svc, by decide +kernel⟩,
    ⟨(obs [(0x401D,0x14,0,1),(0x401D,1,0,6)] svc), 13, 5, 6, -7, by decide +kernel⟩,
    ⟨(obs [(0x401D,0x14,0,1)] svc), 13, 5, 6, -7, by decide +kernel⟩⟩

/-- States that meet the hypotheses of DeviceIdentifierHelloAndTopology. -/
theorem witness_DeviceIdentifierHelloAndTopology :
    (∃ (s : State) (sess : Nat) (v : Nat), (s.writeGuard sess 0x4000 0 = none) ∧ (∀ q, q < 12 → s.jobState q = 0) ∧ (v < 256 ∨ v = 0xFFFF) ∧ ((s.storeRecord 0x4000 0 3 (leBytes 2 v)).2 = stOk)) ∧
    (∃ (s : State) (sess : Nat) (v : Nat), (s.writeGuard sess 0x4000 0 = none) ∧ (∀ q, q < 12 → s.jobState q = 0) ∧ (v < 256 ∨ v = 0xFFFF) ∧ ((s.storeRecord 0x4000 0 3 (leBytes 2 v)).2 = stOk)) ∧
    (∃ (s : State) (sess : Nat) (v : Nat), (s.writeGuard sess 0x4000 0 = none) ∧ (v < 256 ∨ v = 0xFFFF) ∧ (∃ q, q < 12 ∧ s.jobState q ≠ 0)) ∧
    (∃ (s : State) (sess : Nat) (v : Nat), (s.writeGuard sess 0x4000 0 = none) ∧ (256 ≤ v) ∧ (v ≠ 0xFFFF)) ∧
    (∃ (s : State) (sess : Nat) (v : Nat), (s.writeGuard sess 0x4000 0 = none) ∧ (256 ≤ v) ∧ (v ≠ 0xFFFF)) ∧
    (∃ (s : State) (k : Nat), (k < 16) ∧ ((s.port k).mode = 1) ∧ (s.portState k ∈ [1, 2, 3, 4]) ∧ (s.obj 0x4000 1 < 2 ^ 32) ∧ (s.obj 0x4000 0 < 2 ^ 16) ∧ (s.portUp k = true → (s.port k).stuck = [] ∧ s.roomTx k 8 1 = true)) ∧
    (∃ (s : State) (k : Nat), ((s.port k).mode ≠ 1 ∨ s.portState k ∉ [1, 2, 3, 4])) ∧
    (∃ (s : State) (k : Nat) (m : CtrlMsg), (k < 16) ∧ (ctrlOk 0x01 m = true) ∧ (s.portState k = 1) ∧ ((s.port k).resume = none) ∧ ((s.port k).latch = none) ∧ (4 ≤ (s.port k).locked.length) ∧ (fieldOf m.body.toNat 128 32 = s.obj 0x4000 1) ∧ (fieldOf m.body.toNat 100 8 = 1) ∧ ((s.port k).egress = []) ∧ ((s.port k).ingress = []) ∧ ((s.port k).stuck = [])) ∧
    (∃ (s : State) (k : Nat) (m : CtrlMsg), (k < 16) ∧ (ctrlOk 0x01 m = true) ∧ (s.portState k = 1) ∧ ((s.port k).resume = none) ∧ ((s.port k).latch = none) ∧ (fieldOf m.body.toNat 128 32 ≠ s.obj 0x4000 1)) ∧
    (∃ (s : State) (k : Nat) (m : CtrlMsg), (s.portState k ∉ [1, 2, 3, 4])) ∧
    (∃ (s : State), (s.obj 0x4000 0 ≠ 0xFFFF)) ∧
    (∃ (s : State), (s.obj 0x4000 0 = 0xFFFF)) ∧
    (∃ (s : State) (k : Nat) (m : CtrlMsg), (ctrlOk 0x06 m = true) ∧ (fieldOf m.body.toNat 216 8 ≠ s.obj 0x4000 0) ∧ (Tbl.get s.topo none (fieldOf m.body.toNat 216 8) = none)) ∧
    (∃ (s : State) (k : Nat) (m : CtrlMsg), (fieldOf m.body.toNat 216 8 = s.obj 0x4000 0 ∨ (∃ ps, Tbl.get s.topo none (fieldOf m.body.toNat 216 8) = some (fieldOf m.body.toNat 184 32, ps)))) ∧
    (∃ (s : State) (k : Nat) (m : CtrlMsg), (fieldOf m.body.toNat 216 8 = s.obj 0x4000 0 ∨ (∃ ps, Tbl.get s.topo none (fieldOf m.body.toNat 216 8) = some (fieldOf m.body.toNat 184 32, ps)))) := by
  exact ⟨⟨svc, 5, 255, by decide +kernel⟩,
    ⟨svc, 5, 0xFFFF, by decide +kernel⟩,
    ⟨(obs [(0x501B,0,0,7)] svc), 5, 3, by decide +kernel⟩,
    ⟨svc, 5, 256, by decide +kernel⟩,
    ⟨svc, 5, 0xFFFE, by decide +kernel⟩,
    ⟨(obs [(0x4011,1,0,1),(0x4000,1,0,77),(0x4000,2,0,12345),(0x4000,0,0,9)] svc), 1, by decide +kernel⟩,
    ⟨svc, 1, by decide +kernel⟩,
    ⟨({ obs [(0x4011,1,0,1),(0x4000,1,0,77)] svc with ports := [(1, { locked := [0,1,2,3] })] }), 1, ({ mtype := 1, body := BitVec.ofNat 224 (5 * 2 ^ 160 + 77 * 2 ^ 128 + 3 * 2 ^ 112 + 4 * 2 ^ 108 + 1 * 2 ^ 100) }), by decide +kernel⟩,
    ⟨(obs [(0x4011,1,0,1),(0x4000,1,0,77)] svc), 1, ({ mtype := 1 }), by decide +kernel⟩,
    ⟨svc, 1, {}, by decide +kernel⟩,
    ⟨(obs [(0x4011,1,0,2),(0x4000,0,0,3)] svc), by decide +kernel⟩,
    ⟨(obs [(0x4011,1,0,2)] svc), by decide +kernel⟩,
    ⟨(obs [(0x4011,1,0,2),(0x4000,0,0,3)] svc), 1, ({ mtype := 6, body := BitVec.ofNat 224 (9 * 2 ^ 216 + 4 * 2 ^ 184 + 0x103 * 2 ^ 40) }), by decide +kernel⟩,
    ⟨(obs [(0x4011,1,0,2),(0x4000,0,0,9)] svc), 1, ({ mtype := 6, body := BitVec.ofNat 224 (9 * 2 ^ 216 + 4 * 2 ^ 184) }), .inl (by decide +kernel)⟩,
    ⟨({ svc with topo := [(9, some (4, [3]))] }), 1, ({ mtype := 6, body := BitVec.ofNat 224 (9 * 2 ^ 216 + 4 * 2 ^ 184) }), .inr ⟨[3], by decide +kernel⟩⟩⟩

/-- States that meet the hypotheses of PortStatesAndTraining. -/
theorem witness_PortStatesAndTraining :
    (∃ (s : State) (sess : Nat) (k : Nat) (v : Nat) (c : Instr), (k < 16) ∧ (s.writeGuard sess (0x4010 + k) 4 = none) ∧ ((c = .portResetRetrain sess k ∧ v = 1) ∨ (c = .portResetClear sess k ∧ v = 2)) ∧ (s.portState k = 1)) ∧
    (∃ (s : State) (sess : Nat) (k : Nat) (v : Nat) (c : Instr), (k < 16) ∧ (s.writeGuard sess (0x4010 + k) 4 = none) ∧ ((c = .portResetRetrain sess k ∧ v = 1) ∨ (c = .portResetClear sess k ∧ v = 2)) ∧ (s.portState k = 1)) ∧
    (∃ (s : State) (sess : Nat) (k : Nat) (v : Nat) (c : Instr), (k < 16) ∧ (s.writeGuard sess (0x4010 + k) 4 = none) ∧ ((c = .portResetRetrain sess k ∧ v = 1) ∨ (c = .portResetClear sess k ∧ v = 2)) ∧ (s.portState k ≠ 1) ∧ ((s.port k).fwd = [])) ∧
    (∃ (s : State) (sess : Nat) (k : Nat) (v : Nat) (c : Instr), (k < 16) ∧ (s.writeGuard sess (0x4010 + k) 4 = none) ∧ ((c = .portResetRetrain sess k ∧ v = 1) ∨ (c = .portResetClear sess k ∧ v = 2)) ∧ (s.portState k ≠ 1) ∧ ((s.port k).fwd = [])) ∧
    (∃ (s : State) (sess : Nat) (k : Nat) (v : Nat) (c : Instr), (k < 16) ∧ (s.writeGuard sess (0x4010 + k) 4 = none) ∧ ((c = .portResetRetrain sess k ∧ v = 1) ∨ (c = .portResetClear sess k ∧ v = 2)) ∧ (s.portState k ≠ 1) ∧ ((s.port k).fwd = [])) := by
  exact ⟨⟨(obs [(0x4011,1,0,1)] svc), 5, 1, 1, (.portResetRetrain 5 1), by decide +kernel⟩,
    ⟨(obs [(0x4011,1,0,1)] svc), 5, 1, 2, (.portResetClear 5 1), by decide +kernel⟩,
    ⟨(obs [(0x4011,1,0,2)] svc), 5, 1, 1, (.portResetRetrain 5 1), by decide +kernel⟩,
    ⟨(obs [(0x4011,1,0,5)] svc), 5, 1, 1, (.portResetRetrain 5 1), by decide +kernel⟩,
    ⟨(obs [(0x401F,1,0,5),(0x401F,2,0,7)] svc), 5, 15, 2, (.portResetClear 5 15), by decide +kernel⟩⟩

/-- States that meet the hypotheses of PortStatesAndTraining. -/
theorem witness_PortStatesAndTraining_2 :
    (∃ (s : State) (sess : Nat) (k : Nat) (v : Nat) (c : Instr), (k < 16) ∧ (s.writeGuard sess (0x4010 + k) 4 = none) ∧ ((c = .portResetRetrain sess k ∧ v = 1) ∨ (c = .portResetClear sess k ∧ v = 2)) ∧ (s.portState k ≠ 1) ∧ ((s.port k).fwd = [])) ∧
    (∃ (s : State) (k : Nat) (c : Instr), (k < 16) ∧ (c = .portRetryTimer k ∨ c = .cableInsert k) ∧ (s.portState k = 0)) ∧
    (∃ (s : State) (k : Nat) (c : Instr), (k < 16) ∧ (c = .portRetryTimer k ∨ c = .cableInsert k) ∧ (s.portState k = 0)) ∧
    (∃ (s : State) (k : Nat) (c : Instr), (k < 16) ∧ (c = .portRetryTimer k ∨ c = .cableInsert k) ∧ (s.portState k ≠ 0)) ∧
    (∃ (s : State) (k : Nat), (k < 16) ∧ (s.portState k = 1) ∧ ((s.port k).locked.length < (s.port k).lanesNeeded) ∧ ((s.port k).latch = none) ∧ ((s.port k).resume = none)) := by
  exact ⟨⟨(obs [(0x401F,0,0,0),(0x401F,1,0,2)] svc), 5, 15, 2, (.portResetClear 5 15), by decide +kernel⟩,
    ⟨svc, 15, (.cableInsert 15), by decide +kernel⟩,
    ⟨svc, 0, (.portRetryTimer 0), by decide +kernel⟩,
    ⟨(obs [(0x4011,1,0,2)] svc), 1, (.cableInsert 1), by decide +kernel⟩,
    ⟨(obs [(0x4011,1,0,1)] svc), 1, by decide +kernel⟩⟩

/-- States that meet the hypotheses of PortStatesAndTraining. -/
theorem witness_PortStatesAndTraining_3 :
    (∃ (s : State) (k : Nat), (k < 16) ∧ (s.portState k = 1) ∧ ((s.port k).locked.length < (s.port k).lanesNeeded) ∧ ((s.port k).resume ≠ none) ∧ ((s.port k).failed < 2)) ∧
    (∃ (s : State) (k : Nat), (k < 16) ∧ (s.portState k ≠ 1 ∨ (s.port k).lanesNeeded ≤ (s.port k).locked.length)) ∧
    (∃ (s : State) (k : Nat) (lane : Nat), (k < 16)) ∧
    (∃ (s : State) (k : Nat) (lane : Nat), (k < 16)) ∧
    (∃ (s : State) (k : Nat), (k < 16) ∧ (s.portState k = 5 ∨ s.portState k = 7 ∨ s.portState k = 0)) := by
  exact ⟨⟨({ obs [(0x4011,1,0,1)] svc with ports := [(1, { resume := some 2, failed := 1 })] }), 1, by decide +kernel⟩,
    ⟨svc, 15, by decide +kernel⟩,
    ⟨(obs [(0x4011,1,0,2)] svc), 1, 3, by decide +kernel⟩,
    ⟨({ svc with ports := [(1, { locked := [0, 3] })] }), 1, 3, by decide +kernel⟩,
    ⟨svc, 1, by decide +kernel⟩⟩

/-- States that meet the hypotheses of PortStatesAndTraining. -/
theorem witness_PortStatesAndTraining_4 :
    (∃ (s : State) (k : Nat), (k < 16) ∧ (s.portState k = 6)) ∧
    (∃ (s : State) (k : Nat), (k < 16) ∧ (s.portState k = 1 ∨ s.portState k = 4) ∧ ((s.port k).resume = none)) ∧
    (∃ (s : State) (k : Nat), (k < 16) ∧ (s.portState k = 2 ∨ s.portState k = 3) ∧ ((s.port k).fwd = [])) ∧
    (∃ (s : State) (k : Nat), (k < 16) ∧ (2 ≤ (s.port k).mode) ∧ (s.portState k ≠ 7) ∧ ((s.port k).latch = none)) ∧
    (∃ (s : State) (k : Nat), (k < 16) ∧ (s.portState k = 6)) := by
  exact ⟨⟨(obs [(0x4011,1,0,6)] svc), 1, by decide +kernel⟩,
    ⟨(obs [(0x4011,1,0,4)] svc), 1, by decide +kernel⟩,
    ⟨(obs [(0x4011,1,0,3)] svc), 1, by decide +kernel⟩,
    ⟨({ svc with ports := [(12, { mode := 2 })] }), 12, by decide +kernel⟩,
    ⟨(obs [(0x4011,1,0,6)] svc), 1, by decide +kernel⟩⟩

/-- States that meet the hypotheses of PortStatesAndTraining. -/
theorem witness_PortStatesAndTraining_5 :
    (∃ (s : State) (k : Nat), (s.portState k ≠ 6)) ∧
    (∃ (s : State) (k : Nat), ((s.port k).mode < 2 ∨ s.portState k = 7)) := by
  exact ⟨⟨svc, 1, by decide +kernel⟩,
    ⟨svc, 1, by decide +kernel⟩⟩

/-- States that meet the hypotheses of FlitsAndAcknowledgements. -/
theorem witness_FlitsAndAcknowledgements :
    (∃ (s : State) (k : Nat) (f : Flit) (ok : Bool), (s.portUp k = false)) ∧
    (∃ (s : State) (k : Nat) (f : Flit) (ok : Bool), (k < 16) ∧ (s.portUp k = true) ∧ (ok = false ∨ flitCrcOk f = false) ∧ ((s.port k).discarding = false)) ∧
    (∃ (s : State) (k : Nat) (f : Flit) (ok : Bool), (k < 16) ∧ (s.portUp k = true) ∧ (ok = false ∨ flitCrcOk f = false) ∧ ((s.port k).discarding = false)) ∧
    (∃ (s : State) (k : Nat) (f : Flit) (ok : Bool), (ok = false ∨ flitCrcOk f = false) ∧ ((s.port k).discarding = true)) ∧
    (∃ (s : State) (k : Nat) (f : Flit), (flitCrcOk f = true) ∧ (flitSeq f ≠ (s.port k).rxSeq)) ∧
    (∃ (s : State) (k : Nat) (f : Flit), (k < 16) ∧ (s.portUp k = true) ∧ (flitCrcOk f = true) ∧ (flitSeq f = (s.port k).rxSeq)) ∧
    (∃ (s : State) (k : Nat), (k < 16) ∧ (s.portUp k = true)) ∧
    (∃ (s : State) (k : Nat), (s.portUp k = false)) := by
  exact ⟨⟨svc, 1, {}, true, by decide +kernel⟩,
    ⟨(obs [(0x4011,1,0,2)] svc), 1, {}, false, by decide +kernel⟩,
    ⟨(obs [(0x4011,1,0,2)] svc), 1, ({ ctl := 1 }), true, by decide +kernel⟩,
    ⟨({ svc with ports := [(1, { discarding := true })] }), 1, {}, false, by decide +kernel⟩,
    ⟨({ svc with ports := [(1, { rxSeq := 3 })] }), 1, (idleFlit 2 4198967585), by decide +kernel⟩,
    ⟨({ obs [(0x4011,1,0,2)] svc with ports := [(1, { rxSeq := 65535, discarding := true })] }), 1, (idleFlit 65535 3901967949), by decide +kernel⟩,
    ⟨({ obs [(0x4011,1,0,2)] svc with ports := [(1, { rxSeq := 0, owed := [300,0,0,0,0,1,0,0,0,0] })] }), 1, by decide +kernel⟩,
    ⟨svc, 1, by decide +kernel⟩⟩

/-- States that meet the hypotheses of LaneSparing. -/
theorem witness_LaneSparing :
    (∃ (s : State) (k : Nat), (k < 16) ∧ (s.portUp k = true)) ∧
    (∃ (s : State) (k : Nat), (k < 16) ∧ (s.portUp k = true)) ∧
    (∃ (s : State) (k : Nat), (k < 16) ∧ (s.portUp k = true)) ∧
    (∃ (s : State) (k : Nat), (s.portUp k = false)) ∧
    (∃ (s : State) (k : Nat) (m : CtrlMsg), (k < 16) ∧ (s.portUp k = true) ∧ (ctrlOk 0x02 m = true) ∧ ((s.port k).stuck = []) ∧ (s.roomTx k 8 1 = true) ∧ (∀ x ∈ (s.port k).swaps, ∀ v, x.tx = some v → v < 65536)) ∧
    (∃ (s : State) (k : Nat) (m : CtrlMsg), (s.portUp k = false)) ∧
    (∃ (s : State) (k : Nat) (m : CtrlMsg), (ctrlOk 0x03 m = true)) ∧
    (∃ (s : State) (k : Nat) (seq : Nat), ((s.port k).swaps = [])) ∧
    (∃ (s : State) (k : Nat) (seq : Nat) (lane : Nat) (x : Swap), (k < 16) ∧ (lane < 4) ∧ ((s.port k).swaps = [x]) ∧ (x.lane = lane) ∧ (x.drop = false) ∧ (x.tx = some seq) ∧ (x.txDone = false) ∧ (x.rx ≠ some seq) ∧ (x.rxDone = true)) := by
  exact ⟨⟨({ obs [(0x4011,1,0,2)] svc with ports := [(1, { marks := List.replicate 64 0 })] }), 1, by decide +kernel⟩,
    ⟨({ obs [(0x4011,1,0,2)] svc with ports := [(1, { marks := List.replicate 65 0, badChecks := 1 })] }), 1, by decide +kernel⟩,
    ⟨({ obs [(0x4011,1,0,2),(0x4011,2,0,0x688)] svc with ports := [(1, { marks := List.replicate 65 0, badChecks := 99, laneBad := [(2, 0)] })] }), 1, by decide +kernel⟩,
    ⟨svc, 1, by decide +kernel⟩,
    ⟨(obs [(0x4011,1,0,2)] svc), 1, ({ mtype := 2, body := BitVec.ofNat 224 (70 * 2 ^ 208 + 2 * 2 ^ 205) }), ⟨by decide +kernel, by decide +kernel, by decide +kernel, by decide +kernel, by decide +kernel, by intro x hx; cases hx⟩⟩,
    ⟨svc, 1, {}, by decide +kernel⟩,
    ⟨({ obs [(0x4011,1,0,2)] svc with ports := [(1, { swaps := [{ lane := 2, drop := false, tx := some 9 }] })] }), 1, ({ mtype := 3, body := BitVec.ofNat 224 (70 * 2 ^ 208 + 2 * 2 ^ 205) }), by decide +kernel⟩,
    ⟨svc, 1, 9, by decide +kernel⟩,
    ⟨({ obs [(0x4011,1,0,2),(0x4011,2,0,0x688)] svc with ports := [(1, { swaps := [{ lane := 2, drop := false, tx := some 9, rx := some 8, rxDone := true }] })] }), 1, 9, 2, ({ lane := 2, drop := false, tx := some 9, rx := some 8, rxDone := true }), by decide +kernel⟩⟩

/-- States that meet the hypotheses of PacketsBetweenDevices. -/
theorem witness_PacketsBetweenDevices :
    (∃ (s : State) (k : Nat) (hop : Nat) (p : Packet) (c : Instr), (c = .egressPacket k hop p ∨ c = .ingressRequest k hop p) ∧ (s.obj 0x4000 0 = 0xFFFF ∨ s.device.mode = .safe)) ∧
    (∃ (s : State) (k : Nat) (hop : Nat) (p : Packet) (c : Instr), (c = .egressPacket k hop p ∨ c = .ingressRequest k hop p) ∧ (s.obj 0x4000 0 = 0xFFFF ∨ s.device.mode = .safe)) ∧
    (∃ (s : State) (k : Nat) (hop : Nat) (p : Packet), (s.obj 0x4000 0 ≠ 0xFFFF) ∧ (s.device.mode ≠ .safe) ∧ ((s.port k).egress = []) ∧ ((s.port k).ingress = []) ∧ ((s.port k).stuck = []) ∧ ((s.port k).stalled = none)) ∧
    (∃ (s : State) (k : Nat) (hop : Nat) (p : Packet), (s.obj 0x4000 0 ≠ 0xFFFF) ∧ (s.device.mode ≠ .safe) ∧ ((s.port k).egress = []) ∧ ((s.port k).ingress = []) ∧ ((s.port k).stuck = []) ∧ ((s.port k).stalled = none)) ∧
    (∃ (s : State) (k : Nat) (hop : Nat) (p : Packet), (s.obj 0x4000 0 ≠ 0xFFFF) ∧ (s.device.mode ≠ .safe) ∧ (s.isOwn (farDevice p.farAddr.toNat) = true) ∧ (s.deviceClosed = true ∨ s.partitionsOfJob p.job = []) ∧ ((s.port k).ingress = [])) ∧
    (∃ (s : State) (k : Nat) (hop : Nat) (p : Packet), (∀ r ∈ (s.port k).fwd, sameKey r p = false)) ∧
    (∃ (s : State) (k : Nat) (hop : Nat) (p : Packet) (r : Packet) (rest : List Packet), ((s.port k).fwd = r :: rest) ∧ (sameKey r p = true) ∧ ((s.port k).egress = []) ∧ ((s.port k).ingress = []) ∧ ((s.port k).stuck = [])) ∧
    (∃ (s : State) (k : Nat) (p : Packet), (∀ e ∈ (s.port k).inbound, e.2.farAddr ≠ p.farAddr ∨ e.2.rows ≠ p.rows ∨ e.2.stride ≠ p.stride ∨ (e.2.ptype ≠ .read ∧ e.2.ptype ≠ .memRead))) ∧
    (∃ (s : State) (k : Nat) (hop : Nat) (p : Packet) (r : Packet) (rest : List (Nat × Packet)), ((s.port k).inbound = (hop, r) :: rest) ∧ (r.ptype = .read ∨ r.ptype = .memRead) ∧ (r.farAddr = p.farAddr) ∧ (r.rows = p.rows) ∧ (r.stride = p.stride) ∧ ((s.port k).egress = []) ∧ ((s.port k).ingress = [])) ∧
    (∃ (s : State) (k : Nat) (hop : Nat) (j : Nat) (p : Packet), (s.obj 0x4000 0 ≠ 0xFFFF) ∧ (s.device.mode ≠ .safe) ∧ (s.isOwn (farDevice p.farAddr.toNat) = false) ∧ (bitsOf (s.routeMask (farDevice p.farAddr.toNat)) 16 = [j]) ∧ (hop < 3)) ∧
    (∃ (s : State) (k : Nat) (hop : Nat) (d : Nat) (p : Packet), (s.obj 0x4000 0 ≠ 0xFFFF) ∧ (s.device.mode ≠ .safe) ∧ (s.isOwn (farDevice p.farAddr.toNat) = true) ∧ (s.ingressDest p = .ok d) ∧ ((s.port k).egress = []) ∧ ((s.port k).ingress = []) ∧ ((s.port k).stuck = []) ∧ ((s.port k).reserved + p.rows + 1 ≤ 4096)) := by
  exact ⟨⟨svc, 1, 0, {}, (.egressPacket 1 0 {}), by decide +kernel⟩,
    ⟨(obs [(0x4000,0,0,3)] (dev .safe)), 1, 0, {}, (.ingressRequest 1 0 {}), by decide +kernel⟩,
    ⟨(obs [(0x4000,0,0,3)] svc), 1, 1, {}, by decide +kernel⟩,
    ⟨(obs [(0x4000,0,0,3),(0x4011,1,0,2)] svc), 1, 1, ({ ptype := .write, rows := 2, data := [0, 0] }), by decide +kernel⟩,
    ⟨(obs [(0x4000,0,0,3)] svc), 1, 0, ({ farAddr := BitVec.ofNat 64 (3 * 2 ^ 54), tag := 5, job := 9 }), by decide +kernel⟩,
    ⟨svc, 1, 0, {}, by decide +kernel⟩,
    ⟨({ svc with ports := [(1, { fwd := [{ tag := 4, srcX := 3, srcY := 2 }] })] }), 1, 0, ({ ptype := .ack, tag := 4 }), ({ tag := 4, srcX := 3, srcY := 2 }), [], by decide +kernel⟩,
    ⟨svc, 1, {}, by decide +kernel⟩,
    ⟨({ svc with ports := [(1, { inbound := [(1, { tag := 4, rows := 2 })] })] }), 1, 1, ({ ptype := .fork, rows := 2, data := [1, 2] }), ({ tag := 4, rows := 2 }), [], by decide +kernel⟩,
    ⟨(obs [(0x4000,0,0,3),(0x4000,4,5,4)] svc), 1, 0, 2, ({ farAddr := BitVec.ofNat 64 (5 * 2 ^ 54), tag := 5, job := 9 }), by decide +kernel⟩,
    ⟨(obs [(0x4000,0,0,3)] (jst job9)), 1, 0, 1, ({ farAddr := BitVec.ofNat 64 (3 * 2 ^ 54 + 2 ^ 38), tag := 5, job := 9 }), by decide +kernel⟩⟩

/-- States that meet the hypotheses of DomainTimeManagementAndFrames. -/
theorem witness_DomainTimeManagementAndFrames :
    (∃ (s : State) (k : Nat), (s.portUp k = true) ∧ ((s.port k).stuck = []) ∧ (s.roomTx k 8 1 = true) ∧ ((s.port k).syncAt + nsTide (1000 * s.obj 0x4000 7) ≤ s.elapsed)) ∧
    (∃ (s : State) (k : Nat) (m : CtrlMsg), (s.portUp k = true) ∧ (ctrlOk 0x04 m = true) ∧ ((s.port k).stuck = []) ∧ (s.roomTx k 8 1 = true)) ∧
    (∃ (s : State) (k : Nat) (x : Nat) (m : CtrlMsg), (s.portUp k = false)) ∧
    (∃ (s : State) (k : Nat) (x : Nat) (m : CtrlMsg), (fieldOf m.body.toNat 208 16 ≠ (s.port k).syncSeq)) ∧
    (∃ (s : State) (k : Nat) (x : Nat) (m : CtrlMsg), (s.portUp k = true) ∧ (ctrlOk 0x05 m = true) ∧ (fieldOf m.body.toNat 208 16 = (s.port k).syncSeq)) ∧
    (∃ (s : State) (k : Nat) (slots : Nat) (u : MgmtUnit), (u.reserved = 0) ∧ (1 ≤ u.length) ∧ (u.length ≤ 1536) ∧ (slots ≤ 48) ∧ (slots = (u.length + 31) / 32) ∧ (u.hops ≤ 3) ∧ (u.local' = true ∨ (s.obj 0x4000 0 ≠ 0xFFFF ∧ u.dst = s.ownDevice))) ∧
    (∃ (s : State) (k : Nat) (slots : Nat) (u : MgmtUnit), (u.reserved = 0) ∧ (1 ≤ u.length) ∧ (u.length ≤ 1536) ∧ (slots ≤ 48) ∧ (slots = (u.length + 31) / 32) ∧ (u.hops ≤ 3) ∧ (u.local' = true ∨ (s.obj 0x4000 0 ≠ 0xFFFF ∧ u.dst = s.ownDevice))) ∧
    (∃ (s : State) (k : Nat) (slots : Nat) (u : MgmtUnit) (j : Nat), (u.reserved = 0) ∧ (1 ≤ u.length) ∧ (u.length ≤ 1536) ∧ (slots ≤ 48) ∧ (slots = (u.length + 31) / 32) ∧ (u.hops ≤ 3) ∧ (u.local' = false) ∧ (s.obj 0x4000 0 = 0xFFFF ∨ u.dst ≠ s.ownDevice) ∧ (u.hops < 3) ∧ ((bitsOf (s.routeMask u.dst) 16).head? = some j) ∧ ((s.port j).stuck = []) ∧ (s.roomTx j 9 (1 + (u.length + 31) / 32) = true)) ∧
    (∃ (s : State) (k : Nat) (slots : Nat) (u : MgmtUnit), (u.reserved = 0) ∧ (1 ≤ u.length) ∧ (u.length ≤ 1536) ∧ (slots ≤ 48) ∧ (slots = (u.length + 31) / 32) ∧ (u.hops ≤ 3) ∧ (u.local' = false) ∧ (s.obj 0x4000 0 = 0xFFFF ∨ u.dst ≠ s.ownDevice) ∧ (u.hops = 3 ∨ bitsOf (s.routeMask u.dst) 16 = [])) ∧
    (∃ (s : State) (k : Nat) (slots : Nat) (u : MgmtUnit), (u.reserved = 0) ∧ (u.length = 0 ∨ 1536 < u.length ∨ 48 < slots ∨ slots ≠ (u.length + 31) / 32 ∨ 3 < u.hops)) ∧
    (∃ (s : State) (k : Nat) (f : EthFrame), (s.portState k ≠ 6)) ∧
    (∃ (s : State) (k : Nat) (f : EthFrame), (s.portState k = 6)) ∧
    (∃ (s : State) (k : Nat) (f : EthFrame), (s.portState k = 6)) ∧
    (∃ (s : State) (k : Nat) (f : EthFrame), (s.portState k = 6)) ∧
    (∃ (s : State) (k : Nat) (f : EthFrame), (s.portState k = 6)) ∧
    (∃ (s : State) (k : Nat) (f : EthFrame), (s.portState k = 6)) := by
  exact ⟨⟨({ obs [(0x4011,1,0,2)] svc with elapsed := 4000000000 }), 1, by decide +kernel⟩,
    ⟨(obs [(0x4011,1,0,2)] svc), 1, ({ mtype := 4, body := BitVec.ofNat 224 (8 * 2 ^ 208) }), by decide +kernel⟩,
    ⟨svc, 1, 0, {}, by decide +kernel⟩,
    ⟨svc, 1, 0, ({ mtype := 5, body := BitVec.ofNat 224 (8 * 2 ^ 208) }), by decide +kernel⟩,
    ⟨({ obs [(0x4011,1,0,3)] svc with ports := [(1, { syncSeq := 8, t1 := 5 })] }), 1, 40, ({ mtype := 5, body := BitVec.ofNat 224 (8 * 2 ^ 208 + 100 * 2 ^ 144 + 30 * 2 ^ 80) }), by decide +kernel⟩,
    ⟨svc, 1, 1, ({ local' := true, length := 32, bytes := List.replicate 32 7 }), by decide +kernel⟩,
    ⟨(obs [(0x4000,0,0,3)] svc), 1, 48, ({ dst := 3, length := 1536, hops := 3 }), by decide +kernel⟩,
    ⟨(obs [(0x4000,0,0,3),(0x4000,4,9,6)] svc), 5, 1, ({ dst := 9, length := 1, hops := 2, bytes := [1] }), 1, by decide +kernel⟩,
    ⟨(obs [(0x4000,0,0,3),(0x4000,4,9,6)] svc), 5, 1, ({ dst := 9, length := 1, hops := 3 }), by decide +kernel⟩,
    ⟨svc, 5, 2, ({ dst := 9, length := 32 }), by decide +kernel⟩,
    ⟨svc, 5, {}, by decide +kernel⟩,
    ⟨(obs [(0x401D,1,0,6)] svc), 13, ({ bytes := [1, 2], fcsOk := false }), by decide +kernel⟩,
    ⟨(obs [(0x401D,1,0,6)] svc), 13, ({ bytes := [1, 2] }), by decide +kernel⟩,
    ⟨(obs [(0x401D,1,0,6)] svc), 13, ({ bytes := List.replicate 12 1 ++ [0x88, 0xF7] ++ List.replicate 60 0 }), by decide +kernel⟩,
    ⟨({ obs [(0x401D,1,0,6),(0x401D,0x14,0,1)] svc with tide := 77 }), 13, ({ bytes := List.replicate 12 1 ++ [0x88, 0xF7] ++ List.replicate 60 0 }), by decide +kernel⟩,
    ⟨(obs [(0x401D,1,0,6)] svc), 13, ({ bytes := List.replicate 12 1 ++ [0x81, 0x00] ++ List.replicate 60 0 }), by decide +kernel⟩⟩

/-- States that meet the hypotheses of QueueHeadsHandlesAndSentinels. -/
theorem witness_QueueHeadsHandlesAndSentinels :
    (∃ (s : State) (i : Instr) (n : Nat) (q : Nat) (c : Nat) (op : Nat), (queueHead i = some (n, q, c, op)) ∧ (s.mayIssue n q c = false ∨ (∃ w, s.cmdWord n (s.qPc n q) = some w ∧ opcodeOf w ≠ op))) ∧
    (∃ (s : State) (i : Instr) (n : Nat) (q : Nat) (c : Nat) (op : Nat), (queueHead i = some (n, q, c, op)) ∧ (s.mayIssue n q c = false ∨ (∃ w, s.cmdWord n (s.qPc n q) = some w ∧ opcodeOf w ≠ op))) ∧
    (∃ (s : State) (n : Nat) (q : Nat) (c : Nat) (w : Nat), (s.headIs n q c w) ∧ (opcodeOf w = 0x04)) ∧
    (∃ (s : State) (n : Nat) (q : Nat) (c : Nat) (w : Nat), (s.headIs n q c w) ∧ (opcodeOf w = 0x04)) ∧
    (∃ (s : State) (n : Nat) (q : Nat) (c : Nat) (w : Nat), (s.headIs n q c w) ∧ (opcodeOf w = 0x03)) ∧
    (∃ (s : State) (n : Nat) (c : Nat) (w : Nat), (s.headIs n 3 c w) ∧ (opcodeOf w = 0x40) ∧ (bitOf (s.handle n (fieldOf w 64 6)) 56 = false) ∧ (bitOf (s.handle n (fieldOf w 64 6)) 55 = false) ∧ (fieldOf w 52 3 = 0) ∧ (fieldOf w 0 16 = 0) ∧ (bitOf (fieldOf w 0 64) 63 = true → 0 < popCount (fieldOf w 40 12) 12 ∧ 0 < fieldOf w 26 14 ∧ fieldOf w 26 14 ≤ 12288 ∧ fieldOf w 16 10 + (fieldOf w 26 14 + popCount (fieldOf w 40 12) 12 - 1) / popCount (fieldOf w 40 12) 12 ≤ 1024)) ∧
    (∃ (s : State) (n : Nat) (c : Nat) (w : Nat), (s.headIs n 3 c w) ∧ (opcodeOf w = 0x40) ∧ (bitOf (s.handle n (fieldOf w 64 6)) 56 = false) ∧ (bitOf (s.handle n (fieldOf w 64 6)) 55 = false) ∧ (fieldOf w 52 3 = 0) ∧ (fieldOf w 0 16 = 0) ∧ (bitOf (fieldOf w 0 64) 63 = true → 0 < popCount (fieldOf w 40 12) 12 ∧ 0 < fieldOf w 26 14 ∧ fieldOf w 26 14 ≤ 12288 ∧ fieldOf w 16 10 + (fieldOf w 26 14 + popCount (fieldOf w 40 12) 12 - 1) / popCount (fieldOf w 40 12) 12 ≤ 1024)) ∧
    (∃ (s : State) (n : Nat) (c : Nat) (w : Nat), (s.headIs n 3 c w) ∧ (opcodeOf w = 0x40) ∧ (s.isTwin n = false) ∧ (fieldOf w 52 3 ≠ 0 ∨ fieldOf w 0 16 ≠ 0 ∨ (bitOf (fieldOf w 0 64) 63 = true ∧ (popCount (fieldOf w 40 12) 12 = 0 ∨ fieldOf w 26 14 = 0 ∨ 12288 < fieldOf w 26 14)))) ∧
    (∃ (s : State) (n : Nat) (c : Nat) (w : Nat), (s.headIs n 3 c w) ∧ (opcodeOf w = 0x40) ∧ (s.isTwin n = false) ∧ (fieldOf w 52 3 ≠ 0 ∨ fieldOf w 0 16 ≠ 0 ∨ (bitOf (fieldOf w 0 64) 63 = true ∧ (popCount (fieldOf w 40 12) 12 = 0 ∨ fieldOf w 26 14 = 0 ∨ 12288 < fieldOf w 26 14)))) ∧
    (∃ (s : State) (n : Nat) (c : Nat) (w : Nat), (s.headIs n 3 c w) ∧ (opcodeOf w = 0x41) ∧ (fieldOf w 32 2 < 3) ∧ (fieldOf w 8 8 ≠ 0xFF) ∧ (fieldOf w 0 8 ≤ fieldOf w 8 8) ∧ (bitOf w 31 = false) ∧ (fieldOf w 16 6 = 0)) ∧
    (∃ (s : State) (n : Nat) (c : Nat) (w : Nat), (s.headIs n 3 c w) ∧ (opcodeOf w = 0x41) ∧ (s.isTwin n = false) ∧ (fieldOf w 32 2 = 3 ∨ fieldOf w 8 8 = 0xFF ∨ fieldOf w 8 8 < fieldOf w 0 8)) ∧
    (∃ (s : State) (n : Nat) (c : Nat) (w : Nat), (s.headIs n 3 c w) ∧ (opcodeOf w = 0x41) ∧ (s.isTwin n = false) ∧ (fieldOf w 32 2 = 3 ∨ fieldOf w 8 8 = 0xFF ∨ fieldOf w 8 8 < fieldOf w 0 8)) ∧
    (∃ (s : State) (n : Nat) (c : Nat) (w : Nat), (s.headIs n 3 c w) ∧ (opcodeOf w = 0x41) ∧ (s.isTwin n = false) ∧ (fieldOf w 32 2 = 3 ∨ fieldOf w 8 8 = 0xFF ∨ fieldOf w 8 8 < fieldOf w 0 8)) := by
  exact ⟨⟨svc, (.nop 0 0 0), 0, 0, 0, 4, by decide +kernel⟩,
    ⟨(head 0 (4 * 2 ^ 120) svc), (.wait 0 0 9), 0, 0, 9, 1, ⟨by decide, .inr ⟨4 * 2 ^ 120, by decide +kernel⟩⟩⟩,
    ⟨(head 3 (4 * 2 ^ 120 + 7 * 2 ^ 104) svc), 0, 3, 2, (4 * 2 ^ 120 + 7 * 2 ^ 104), by simp only [State.headIs]; decide +kernel⟩,
    ⟨(head 0 (4 * 2 ^ 120) svc), 0, 0, 0, (4 * 2 ^ 120), by simp only [State.headIs]; decide +kernel⟩,
    ⟨(head 2 (3 * 2 ^ 120) svc), 0, 2, 11, (3 * 2 ^ 120), by simp only [State.headIs]; decide +kernel⟩,
    ⟨(head 3 (0x40 * 2 ^ 120 + 7 * 2 ^ 64 + 2 ^ 63 + 2 ^ 60 + 0xFFF * 2 ^ 40 + 12288 * 2 ^ 26) svc), 0, 1, (0x40 * 2 ^ 120 + 7 * 2 ^ 64 + 2 ^ 63 + 2 ^ 60 + 0xFFF * 2 ^ 40 + 12288 * 2 ^ 26), by simp only [State.headIs]; decide +kernel⟩,
    ⟨(head 3 (0x40 * 2 ^ 120 + 7 * 2 ^ 64) (obs [(tileIx 0, 0x20, 7, 2 ^ 63)] svc)), 0, 1, (0x40 * 2 ^ 120 + 7 * 2 ^ 64), by simp only [State.headIs]; decide +kernel⟩,
    ⟨(head 3 (0x40 * 2 ^ 120 + 7 * 2 ^ 64 + 2 ^ 63 + 2 ^ 60 + 0xFFF * 2 ^ 40 + 12289 * 2 ^ 26) svc), 0, 1, (0x40 * 2 ^ 120 + 7 * 2 ^ 64 + 2 ^ 63 + 2 ^ 60 + 0xFFF * 2 ^ 40 + 12289 * 2 ^ 26), by simp only [State.headIs]; decide +kernel⟩,
    ⟨(head 3 (0x40 * 2 ^ 120 + 1) svc), 0, 1, (0x40 * 2 ^ 120 + 1), by simp only [State.headIs]; decide +kernel⟩,
    ⟨(head 3 (0x41 * 2 ^ 120 + 2 * 2 ^ 32 + 0xFE00) svc), 0, 1, (0x41 * 2 ^ 120 + 2 * 2 ^ 32 + 0xFE00), by simp only [State.headIs]; decide +kernel⟩,
    ⟨(head 3 (0x41 * 2 ^ 120 + 3 * 2 ^ 32 + 0xFE00) svc), 0, 1, (0x41 * 2 ^ 120 + 3 * 2 ^ 32 + 0xFE00), by simp only [State.headIs]; decide +kernel⟩,
    ⟨(head 3 (0x41 * 2 ^ 120 + 0xFF00) svc), 0, 1, (0x41 * 2 ^ 120 + 0xFF00), by simp only [State.headIs]; decide +kernel⟩,
    ⟨(head 3 (0x41 * 2 ^ 120 + 0x0304) svc), 0, 1, (0x41 * 2 ^ 120 + 0x0304), by simp only [State.headIs]; decide +kernel⟩⟩

/-- States that meet the hypotheses of WaitIssuesAtTheThreshold. -/
theorem witness_WaitIssuesAtTheThreshold :
    (∃ (s : State) (n : Nat) (q : Nat) (c : Nat) (w : Nat), (s.headIs n q c w) ∧ (opcodeOf w = 0x01)) ∧
    (∃ (s : State) (n : Nat) (q : Nat) (c : Nat) (w : Nat), (s.headIs n q c w) ∧ (opcodeOf w = 0x01)) ∧
    (∃ (s : State) (n : Nat) (q : Nat) (c : Nat), (s.qState n q ≠ 3 ∨ s.waitedOut n q = false ∨ s.waitMet n q c = true)) ∧
    (∃ (s : State) (n : Nat) (q : Nat) (c : Nat) (w : Nat), (s.qState n q = 3) ∧ (s.cmdWord n (s.qPc n q) = some w) ∧ (opcodeOf w ≠ 1) ∧ (s.waitedOut n q = true) ∧ (s.waitMet n q c = false) ∧ (s.isTwin n = false)) := by
  exact ⟨⟨(head 0 (2 ^ 120 + 5 * 2 ^ 112 + 9 * 2 ^ 64) svc), 0, 0, 0, (2 ^ 120 + 5 * 2 ^ 112 + 9 * 2 ^ 64), by simp only [State.headIs]; decide +kernel⟩,
    ⟨(head 1 (2 ^ 120 + 5 * 2 ^ 112) svc), 0, 1, 0, (2 ^ 120 + 5 * 2 ^ 112), by simp only [State.headIs]; decide +kernel⟩,
    ⟨svc, 0, 1, 0, by decide +kernel⟩,
    ⟨({ ((head 1 (2 * 2 ^ 120) svc).setQState 0 1 3).modTile 0 (fun t => { t with qs := [(1, { deferred := List.replicate 8 ⟨false, 0, 1, 0, 0, 0⟩ })] }) with elapsed := 2000000000 }), 0, 1, 0, (2 * 2 ^ 120), by decide +kernel⟩⟩

/-- States that meet the hypotheses of SignalsAreDeferredAndApplied. -/
theorem witness_SignalsAreDeferredAndApplied :
    (∃ (s : State) (n : Nat) (q : Nat) (c : Nat) (w : Nat), (q < 3) ∧ (s.headIs n q c w) ∧ (opcodeOf w = 0x02) ∧ (bitOf w 119 = false) ∧ ((s.queue n q).deferred.length < 8)) ∧
    (∃ (s : State) (n : Nat) (q : Nat) (c : Nat) (w : Nat), (q < 3) ∧ (s.headIs n q c w) ∧ (opcodeOf w = 0x02) ∧ (bitOf w 119 = false) ∧ (8 ≤ (s.queue n q).deferred.length)) ∧
    (∃ (s : State) (n : Nat) (c : Nat) (w : Nat), (s.headIs n 3 c w) ∧ (opcodeOf w = 0x02) ∧ (bitOf w 119 = false) ∧ ((s.queue n 3).deferred.length < 8) ∧ ((s.tile n).gau.st = .live)) ∧
    (∃ (s : State) (n : Nat) (q : Nat) (c : Nat), ((s.queue n q).deferred = [] ∨ s.qState n q = 6)) ∧
    (∃ (s : State) (n : Nat) (c : Nat) (d : Deferred) (rest : List Deferred), ((s.queue n 1).deferred = d :: rest) ∧ (s.qState n 1 ≠ 6) ∧ (d.ready ≤ c) ∧ (d.far = false) ∧ ((s.tile n).vec = []) ∧ ((s.tile n).gau.st = .live)) ∧
    (∃ (s : State) (n : Nat) (c : Nat) (d : Deferred) (rest : List Deferred), ((s.queue n 2).deferred = d :: rest) ∧ (s.qState n 2 ≠ 6) ∧ ((s.tile n).mov.descs = []) ∧ (d.far = false) ∧ (∃ id, (s.queue n 2).moveBad = some id ∧ id < d.ready)) := by
  exact ⟨⟨(head 2 (2 * 2 ^ 120 + 3 * 2 ^ 112 + 5 * 2 ^ 96) svc), 0, 2, 1, (2 * 2 ^ 120 + 3 * 2 ^ 112 + 5 * 2 ^ 96), by simp only [State.headIs]; decide +kernel⟩,
    ⟨((head 1 (2 * 2 ^ 120) svc).modTile 0 (fun t => { t with qs := [(1, { deferred := List.replicate 8 ⟨false, 0, 1, 0, 0, 0⟩ })] })), 0, 1, 1, (2 * 2 ^ 120), by simp only [State.headIs]; decide +kernel⟩,
    ⟨((head 3 (2 * 2 ^ 120 + 127 * 2 ^ 112 + 5 * 2 ^ 96) svc).modTile 0 (fun t => { t with gau := { st := .live } })), 0, 1, (2 * 2 ^ 120 + 127 * 2 ^ 112 + 5 * 2 ^ 96), by simp only [State.headIs]; decide +kernel⟩,
    ⟨svc, 0, 1, 0, by decide +kernel⟩,
    ⟨((head 1 (2 * 2 ^ 120) svc).modTile 0 (fun t => { t with gau := { st := .live }, qs := [(1, { deferred := [⟨false, 6, 9, 0, 0, 3⟩] })] })), 0, 3, (⟨false, 6, 9, 0, 0, 3⟩), [], by decide +kernel⟩,
    ⟨((head 2 (2 * 2 ^ 120) svc).modTile 0 (fun t => { t with qs := [(2, { moveBad := some 2, deferred := [⟨false, 6, 9, 0, 0, 3⟩] })] })), 0, 3, (⟨false, 6, 9, 0, 0, 3⟩), [], by decide +kernel⟩⟩

/-- States that meet the hypotheses of StationaryOperandsLoadAndSwap. -/
theorem witness_StationaryOperandsLoadAndSwap :
    (∃ (s : State) (n : Nat) (c : Nat) (w : Nat), (s.headIs n 0 c w) ∧ (opcodeOf w = 0x10) ∧ ((s.tile n).arr.load = .idle) ∧ (fieldOf w 116 4 < 6) ∧ (handleCheck (s.handle n (fieldOf w 54 6)) hrStationary (fieldOf w 40 14) 192 = none) ∧ (handleCheck (s.handle n (fieldOf w 34 6)) hrStationary (fieldOf w 20 14) (if fieldOf w 116 4 = 3 then 12 else if fieldOf w 116 4 = 4 ∨ fieldOf w 116 4 = 5 then 6 else 24) = none)) ∧
    (∃ (s : State) (n : Nat) (c : Nat) (w : Nat), (s.headIs n 0 c w) ∧ (opcodeOf w = 0x10) ∧ ((s.tile n).arr.load = .idle) ∧ (fieldOf w 116 4 < 6) ∧ (handleCheck (s.handle n (fieldOf w 54 6)) hrStationary (fieldOf w 40 14) 192 = none) ∧ (handleCheck (s.handle n (fieldOf w 34 6)) hrStationary (fieldOf w 20 14) (if fieldOf w 116 4 = 3 then 12 else if fieldOf w 116 4 = 4 ∨ fieldOf w 116 4 = 5 then 6 else 24) = none)) ∧
    (∃ (s : State) (n : Nat) (c : Nat) (w : Nat), (s.headIs n 0 c w) ∧ (opcodeOf w = 0x10) ∧ ((s.tile n).arr.load ≠ .idle)) ∧
    (∃ (s : State) (n : Nat) (c : Nat) (w : Nat), (s.headIs n 0 c w) ∧ (opcodeOf w = 0x10) ∧ ((s.tile n).arr.load = .idle) ∧ (6 ≤ fieldOf w 116 4) ∧ (s.isTwin n = false)) ∧
    (∃ (s : State) (n : Nat) (c : Nat) (hits : List Contest) (r : LoadReq) (g : Nat) (v : Nat), ((s.tile n).arr.load = .waiting r) ∧ (r.cond = some (g, v)) ∧ (reached (s.gaugeAt n g c) v = false)) ∧
    (∃ (s : State) (n : Nat) (c : Nat) (hits : List Contest), ((s.tile n).arr.load = .idle)) ∧
    (∃ (s : State) (n : Nat) (c : Nat) (r : LoadReq) (es : List Row) (ss : List Row), ((s.tile n).arr.load = .waiting r) ∧ (s.stopped n = false) ∧ ((s.tile n).grants = []) ∧ (r.cond = none) ∧ (r.fmt ≠ 2) ∧ (es.length = 192) ∧ (ss.length = scaleRows r.fmt) ∧ (s.holds' n r.eHandle r.eRow es) ∧ (s.holds' n r.sHandle r.sRow ss) ∧ (∀ x, x ∈ planeBytes ss (outputsOf r.fmt * bandsOf r.fmt) → fieldOf r.sentinel 0 8 ≤ x ∧ x ≤ fieldOf r.sentinel 8 8 ∧ x ≠ 0xFF)) ∧
    (∃ (s : State) (n : Nat) (c : Nat) (w : Nat), (s.headIs n 0 c w) ∧ (opcodeOf w = 0x11) ∧ ((s.tile n).arr.load = .idle) ∧ (s.isTwin n = false)) ∧
    (∃ (s : State) (n : Nat) (c : Nat) (last : Nat) (hits : List Contest), (s.stopped n = false) ∧ ((s.tile n).arr.load = .crossing last none false) ∧ (last < c)) ∧
    (∃ (s : State) (n : Nat) (c : Nat) (w : Nat), (s.headIs n 0 c w) ∧ (opcodeOf w = 0x11) ∧ ((s.tile n).arr.load = .done ∨ (∃ last, (s.tile n).arr.load = .crossing last none false ∧ last < c))) ∧
    (∃ (s : State) (n : Nat) (c : Nat) (w : Nat), (s.headIs n 0 c w) ∧ (opcodeOf w = 0x11) ∧ ((s.tile n).arr.load = .done ∨ (∃ last, (s.tile n).arr.load = .crossing last none false ∧ last < c))) ∧
    (∃ (s : State) (n : Nat) (c : Nat) (w : Nat) (last : Nat) (act : Option Nat) (met : Bool), (s.headIs n 0 c w) ∧ (opcodeOf w = 0x11) ∧ ((s.tile n).arr.load = .crossing last act met) ∧ (c ≤ last)) := by
  exact ⟨⟨(head 0 (0x10 * 2 ^ 120 + 2 ^ 54 + 2 ^ 34 + 192 * 2 ^ 20) (obs [(tileIx 0, 0x20, 1, entryAll)] svc)), 0, 1, (0x10 * 2 ^ 120 + 2 ^ 54 + 2 ^ 34 + 192 * 2 ^ 20), by simp only [State.headIs]; decide +kernel⟩,
    ⟨(head 0 (0x10 * 2 ^ 120 + 3 * 2 ^ 116 + 2 ^ 115 + 2 ^ 54 + 2 ^ 34 + 192 * 2 ^ 20) (obs [(tileIx 0, 0x20, 1, entryAll)] svc)), 0, 1, (0x10 * 2 ^ 120 + 3 * 2 ^ 116 + 2 ^ 115 + 2 ^ 54 + 2 ^ 34 + 192 * 2 ^ 20), by simp only [State.headIs]; decide +kernel⟩,
    ⟨((head 0 (0x10 * 2 ^ 120) svc).modArr 0 (fun a => { a with load := .done })), 0, 1, (0x10 * 2 ^ 120), by simp only [State.headIs]; decide +kernel⟩,
    ⟨(head 0 (0x10 * 2 ^ 120 + 6 * 2 ^ 116) svc), 0, 1, (0x10 * 2 ^ 120 + 6 * 2 ^ 116), by simp only [State.headIs]; decide +kernel⟩,
    ⟨(svc.modArr 0 (fun a => { a with load := .waiting ⟨0, some (3, 1), 0, 0, 0, 0, 0⟩ })), 0, 1, [], (⟨0, some (3, 1), 0, 0, 0, 0, 0⟩), 3, 1, by decide +kernel⟩,
    ⟨svc, 0, 0, [], by decide +kernel⟩,
    ⟨(svc.modArr 0 (fun a => { a with load := .waiting ⟨0, none, entryAll, 0, entryAll, 192, 0xFE00⟩ })), 0, 1, (⟨0, none, entryAll, 0, entryAll, 192, 0xFE00⟩), (List.replicate 192 0), (List.replicate (scaleRows 0) 0), by simp only [State.holds']; decide +kernel⟩,
    ⟨(head 0 (0x11 * 2 ^ 120) svc), 0, 1, (0x11 * 2 ^ 120), by simp only [State.headIs]; decide +kernel⟩,
    ⟨(svc.modArr 0 (fun a => { a with load := .crossing 95 none false })), 0, 96, 95, [], by decide +kernel⟩,
    ⟨((head 0 (0x11 * 2 ^ 120) svc).modArr 0 (fun a => { a with load := .crossing 95 none false, shadow := { fmt := 3 } })), 0, 96, (0x11 * 2 ^ 120), ⟨by unfold State.headIs; decide +kernel, by decide +kernel, .inr ⟨95, by decide +kernel, by decide⟩⟩⟩,
    ⟨((head 0 (0x11 * 2 ^ 120) svc).modArr 0 (fun a => { a with load := .done, shadow := { fmt := 3 } })), 0, 1, (0x11 * 2 ^ 120), ⟨by unfold State.headIs; decide +kernel, by decide +kernel, .inl (by decide +kernel)⟩⟩,
    ⟨((head 0 (0x11 * 2 ^ 120) svc).modArr 0 (fun a => { a with load := .crossing 95 none false, shadow := { fmt := 3 } })), 0, 95, (0x11 * 2 ^ 120), 95, none, false, by simp only [State.headIs]; decide +kernel⟩⟩

/-- States that meet the hypotheses of PassesStreamAndFoldsLand. -/
theorem witness_PassesStreamAndFoldsLand :
    (∃ (s : State) (n : Nat) (c : Nat) (w : Nat), (s.headIs n 0 c w) ∧ (opcodeOf w = 0x12) ∧ ((s.tile n).arr.swapped = false) ∧ (s.isTwin n = false)) ∧
    (∃ (s : State) (n : Nat) (c : Nat) (w : Nat) (es : List Row) (ss : List Row), (s.headIs n 0 c w) ∧ (opcodeOf w = 0x12) ∧ ((s.tile n).arr.swapped = true) ∧ ((s.tile n).grants = []) ∧ (passOk (s.tile n).arr.live.fmt (fieldOf w 118 2) (fieldOf w 115 3) (fieldOf w 111 4) (bitOf w 110) (bitOf w 109) (bitOf w 108) (fieldOf w 94 14) (fieldOf w 84 10) = true) ∧ (es.length = streamRows (fieldOf w 111 4) (fieldOf w 94 14)) ∧ (ss.length = (fieldOf w 94 14 * streamScales (fieldOf w 111 4) + 31) / 32) ∧ (s.reads n (fieldOf w 78 6) hrStream (fieldOf w 64 14) es) ∧ (s.reads n (fieldOf w 58 6) hrStream (fieldOf w 44 14) ss) ∧ ((s.tile n).arr.ramp.up = true) ∧ ((s.tile n).arr.ramp.downAt = none) ∧ (0 < fieldOf w 94 14) ∧ (∀ x, x ∈ planeBytes ss (fieldOf w 94 14 * streamScales (fieldOf w 111 4)) → fieldOf (s.obj (tileIx n) 0x12 1) 0 8 ≤ x ∧ x ≤ fieldOf (s.obj (tileIx n) 0x12 1) 8 8 ∧ x ≠ 0xFF)) ∧
    (∃ (s : State) (n : Nat) (c : Nat) (w : Nat) (es : List Row) (ss : List Row), (s.headIs n 0 c w) ∧ (opcodeOf w = 0x12) ∧ ((s.tile n).arr.swapped = true) ∧ ((s.tile n).grants = []) ∧ (passOk (s.tile n).arr.live.fmt (fieldOf w 118 2) (fieldOf w 115 3) (fieldOf w 111 4) (bitOf w 110) (bitOf w 109) (bitOf w 108) (fieldOf w 94 14) (fieldOf w 84 10) = true) ∧ (es.length = streamRows (fieldOf w 111 4) (fieldOf w 94 14)) ∧ (ss.length = (fieldOf w 94 14 * streamScales (fieldOf w 111 4) + 31) / 32) ∧ (s.reads n (fieldOf w 78 6) hrStream (fieldOf w 64 14) es) ∧ (s.reads n (fieldOf w 58 6) hrStream (fieldOf w 44 14) ss) ∧ ((s.tile n).arr.ramp.up = false)) ∧
    (∃ (s : State) (n : Nat) (c : Nat), ((∀ f rest, (s.tile n).arr.folds = f :: rest → c < f.lands) ∨ s.stopped n = true)) ∧
    (∃ (s : State) (n : Nat) (c : Nat) (f : Fold) (rest : List Fold), ((s.tile n).arr.folds = f :: rest) ∧ (f.lands ≤ c) ∧ (s.stopped n = false) ∧ (f.act = none) ∧ (f.collided = false) ∧ (f.fold < 2) ∧ (f.outs.length ≤ 128)) := by
  exact ⟨⟨(head 0 passWord (obs [(tileIx 0, 0x20, 1, entryAll)] svc)), 0, 3, passWord, by simp only [State.headIs]; decide +kernel⟩,
    ⟨((head 0 passWord (obs [(tileIx 0, 0x20, 1, entryAll), (tileIx 0, 0x12, 1, 0xFE00)] svc)).modArr 0 (fun a => { a with swapped := true, ramp := { up := true, full := 5 } })), 0, 3, passWord, (List.replicate (streamRows 0 2) 0), [0], by simp only [State.reads, State.headIs, State.holds']; decide +kernel⟩,
    ⟨((head 0 passWord (obs [(tileIx 0, 0x20, 1, entryAll), (tileIx 0, 0x12, 1, 0xFE00)] svc)).modArr 0 (fun a => { a with swapped := true })), 0, 3, passWord, (List.replicate (streamRows 0 2) 0), [0], by simp only [State.reads, State.headIs, State.holds']; decide +kernel⟩,
    ⟨svc, 0, 0, .inl (by intro f rest h; cases h)⟩,
    ⟨(svc.modArr 0 (fun a => { a with acc := [(4, [0x3F800000])], folds := [{ issued := 1, lands := 9, fold := 1, slot := 3, row := 1, index := 0, outs := [[⟨3, 0, false, false⟩], []] }] })), 0, 9, ({ issued := 1, lands := 9, fold := 1, slot := 3, row := 1, index := 0, outs := [[⟨3, 0, false, false⟩], []] }), [], by decide +kernel⟩⟩

/-- States that meet the hypotheses of ArrayRamps. -/
theorem witness_ArrayRamps :
    (∃ (s : State) (n : Nat) (c : Nat) (rest : List Nat), ((Tbl.get s.slopes {} (fieldNo n)).waiting = n :: rest) ∧ (s.stopped n = false) ∧ (3 * (((Tbl.get s.slopes {} (fieldNo n)).charges.filter (fun t => decide (s.elapsed < t + 4000))).length + 1) ≤ s.obj (0x1110 + fieldNo n) 0)) ∧
    (∃ (s : State) (n : Nat) (c : Nat), ((Tbl.get s.slopes {} (fieldNo n)).waiting.head? ≠ some n ∨ s.stopped n = true ∨ s.obj (0x1110 + fieldNo n) 0 < 3 * (((Tbl.get s.slopes {} (fieldNo n)).charges.filter (fun t => decide (s.elapsed < t + 4000))).length + 1))) ∧
    (∃ (s : State) (n : Nat) (c : Nat), ((s.tile n).arr.ramp.up = true) ∧ (s.stopped n = false) ∧ ((s.tile n).arr.ramp.downAt = none) ∧ (0 < (s.tile n).arr.ramp.last) ∧ ((s.tile n).arr.ramp.last + (s.tile n).arr.ramp.len < c)) ∧
    (∃ (s : State) (n : Nat) (c : Nat), ((s.tile n).arr.ramp.up = false ∨ s.stopped n = true ∨ (s.tile n).arr.ramp.downAt ≠ none ∨ (s.tile n).arr.ramp.last = 0 ∨ c ≤ (s.tile n).arr.ramp.last + (s.tile n).arr.ramp.len)) := by
  exact ⟨⟨({ obs [(0x1110, 0, 0, 3)] svc with slopes := [(0, { waiting := [0] })] }), 0, 4, [], by decide +kernel⟩,
    ⟨svc, 0, 0, by decide +kernel⟩,
    ⟨(svc.modArr 0 (fun a => { a with ramp := { up := true, last := 4 } })), 0, 53, by decide +kernel⟩,
    ⟨(svc.modArr 0 (fun a => { a with ramp := { up := true, last := 4 } })), 0, 52, by decide +kernel⟩⟩

/-- States that meet the hypotheses of VectorElementwise. -/
theorem witness_VectorElementwise :
    (∃ (s : State) (n : Nat) (c : Nat) (v : VecWord) (xs : List F32) (ds : List Row), (s.vecSource n v 0 (64 * v.count) xs) ∧ (s.vecHead n c 0x01 v) ∧ (isWide v.fmtOut = true) ∧ (v.fmtIn ≠ v.fmtOut) ∧ (v.aux = 0) ∧ (ds = packWide v.fmtOut (xs.map (toFmt (v.fmtOut == fmtBF16)))) ∧ (handleCheck (s.handle n v.dHandle) hrVecWrite v.dRow ds.length = none)) ∧
    (∃ (s : State) (n : Nat) (c : Nat) (v : VecWord) (xs : List F32) (ds : List Row), (s.vecSource n v 0 (64 * v.count) xs) ∧ (s.vecHead n c 0x08 v) ∧ (isWide v.fmtOut = true) ∧ (v.aux < 10) ∧ (ds = packWide v.fmtOut (xs.map (fun x => if v.aux = 9 then ((decodeF32 x).mul (decodeF32 x)).round (v.fmtOut == fmtBF16) else toFmt (v.fmtOut == fmtBF16) (actF32 v.aux x)))) ∧ (handleCheck (s.handle n v.dHandle) hrVecWrite v.dRow ds.length = none)) ∧
    (∃ (s : State) (n : Nat) (c : Nat) (v : VecWord) (xs : List F32) (bs : List Row) (i : Instr) (f : F32 → F32 → Nat) (ds : List Row), (s.vecSource n v 0 (64 * v.count) xs) ∧ (isWide v.fmtOut = true) ∧ (v.aux < 2) ∧ (bs.length = rowsFor v.fmtIn (if bitOf v.aux 0 = true then 64 else 64 * v.count)) ∧ (s.reads n v.bHandle hrVecRead v.bRow bs) ∧ (i = .vecAdd n c [] ∧ s.vecHead n c 0x04 v ∧ f = (fun x y => ((decodeF32 x).add (decodeF32 y)).round (v.fmtOut == fmtBF16)) ∨ i = .vecMul n c [] ∧ s.vecHead n c 0x05 v ∧ f = (fun x y => ((decodeF32 x).mul (decodeF32 y)).round (v.fmtOut == fmtBF16)) ∨ i = .vecMax n c [] ∧ s.vecHead n c 0x06 v ∧ f = (fun x y => toFmt (v.fmtOut == fmtBF16) (pickF32 true x y)) ∨ i = .vecMin n c [] ∧ s.vecHead n c 0x07 v ∧ f = (fun x y => toFmt (v.fmtOut == fmtBF16) (pickF32 false x y))) ∧ (ds = packWide v.fmtOut ((List.range (64 * v.count)).map (fun j => f (xs.getD j 0) ((wideElems v.fmtIn bs (if bitOf v.aux 0 = true then 64 else 64 * v.count)).getD (if bitOf v.aux 0 = true then j % 64 else j) 0)))) ∧ (handleCheck (s.handle n v.dHandle) hrVecWrite v.dRow ds.length = none)) ∧
    (∃ (s : State) (n : Nat) (c : Nat) (v : VecWord) (xs : List F32) (bs : List Row) (i : Instr) (f : F32 → F32 → Nat) (ds : List Row), (s.vecSource n v 0 (64 * v.count) xs) ∧ (isWide v.fmtOut = true) ∧ (v.aux < 2) ∧ (bs.length = rowsFor v.fmtIn (if bitOf v.aux 0 = true then 64 else 64 * v.count)) ∧ (s.reads n v.bHandle hrVecRead v.bRow bs) ∧ (i = .vecAdd n c [] ∧ s.vecHead n c 0x04 v ∧ f = (fun x y => ((decodeF32 x).add (decodeF32 y)).round (v.fmtOut == fmtBF16)) ∨ i = .vecMul n c [] ∧ s.vecHead n c 0x05 v ∧ f = (fun x y => ((decodeF32 x).mul (decodeF32 y)).round (v.fmtOut == fmtBF16)) ∨ i = .vecMax n c [] ∧ s.vecHead n c 0x06 v ∧ f = (fun x y => toFmt (v.fmtOut == fmtBF16) (pickF32 true x y)) ∨ i = .vecMin n c [] ∧ s.vecHead n c 0x07 v ∧ f = (fun x y => toFmt (v.fmtOut == fmtBF16) (pickF32 false x y))) ∧ (ds = packWide v.fmtOut ((List.range (64 * v.count)).map (fun j => f (xs.getD j 0) ((wideElems v.fmtIn bs (if bitOf v.aux 0 = true then 64 else 64 * v.count)).getD (if bitOf v.aux 0 = true then j % 64 else j) 0)))) ∧ (handleCheck (s.handle n v.dHandle) hrVecWrite v.dRow ds.length = none)) ∧
    (∃ (s : State) (n : Nat) (c : Nat) (v : VecWord) (xs : List F32) (bs : List Row) (i : Instr) (f : F32 → F32 → Nat) (ds : List Row), (s.vecSource n v 0 (64 * v.count) xs) ∧ (isWide v.fmtOut = true) ∧ (v.aux < 2) ∧ (bs.length = rowsFor v.fmtIn (if bitOf v.aux 0 = true then 64 else 64 * v.count)) ∧ (s.reads n v.bHandle hrVecRead v.bRow bs) ∧ (i = .vecAdd n c [] ∧ s.vecHead n c 0x04 v ∧ f = (fun x y => ((decodeF32 x).add (decodeF32 y)).round (v.fmtOut == fmtBF16)) ∨ i = .vecMul n c [] ∧ s.vecHead n c 0x05 v ∧ f = (fun x y => ((decodeF32 x).mul (decodeF32 y)).round (v.fmtOut == fmtBF16)) ∨ i = .vecMax n c [] ∧ s.vecHead n c 0x06 v ∧ f = (fun x y => toFmt (v.fmtOut == fmtBF16) (pickF32 true x y)) ∨ i = .vecMin n c [] ∧ s.vecHead n c 0x07 v ∧ f = (fun x y => toFmt (v.fmtOut == fmtBF16) (pickF32 false x y))) ∧ (ds = packWide v.fmtOut ((List.range (64 * v.count)).map (fun j => f (xs.getD j 0) ((wideElems v.fmtIn bs (if bitOf v.aux 0 = true then 64 else 64 * v.count)).getD (if bitOf v.aux 0 = true then j % 64 else j) 0)))) ∧ (handleCheck (s.handle n v.dHandle) hrVecWrite v.dRow ds.length = none)) ∧
    (∃ (s : State) (n : Nat) (c : Nat) (v : VecWord) (xs : List F32) (bs : List Row) (i : Instr) (f : F32 → F32 → Nat) (ds : List Row), (s.vecSource n v 0 (64 * v.count) xs) ∧ (isWide v.fmtOut = true) ∧ (v.aux < 2) ∧ (bs.length = rowsFor v.fmtIn (if bitOf v.aux 0 = true then 64 else 64 * v.count)) ∧ (s.reads n v.bHandle hrVecRead v.bRow bs) ∧ (i = .vecAdd n c [] ∧ s.vecHead n c 0x04 v ∧ f = (fun x y => ((decodeF32 x).add (decodeF32 y)).round (v.fmtOut == fmtBF16)) ∨ i = .vecMul n c [] ∧ s.vecHead n c 0x05 v ∧ f = (fun x y => ((decodeF32 x).mul (decodeF32 y)).round (v.fmtOut == fmtBF16)) ∨ i = .vecMax n c [] ∧ s.vecHead n c 0x06 v ∧ f = (fun x y => toFmt (v.fmtOut == fmtBF16) (pickF32 true x y)) ∨ i = .vecMin n c [] ∧ s.vecHead n c 0x07 v ∧ f = (fun x y => toFmt (v.fmtOut == fmtBF16) (pickF32 false x y))) ∧ (ds = packWide v.fmtOut ((List.range (64 * v.count)).map (fun j => f (xs.getD j 0) ((wideElems v.fmtIn bs (if bitOf v.aux 0 = true then 64 else 64 * v.count)).getD (if bitOf v.aux 0 = true then j % 64 else j) 0)))) ∧ (handleCheck (s.handle n v.dHandle) hrVecWrite v.dRow ds.length = none)) ∧
    (∃ (s : State) (n : Nat) (c : Nat) (v : VecWord) (es : List Row) (ss : List Row) (ds : List Row), (s.vecHead n c 0x0C v) ∧ (v.fmtIn < 6) ∧ (isWide v.fmtOut = true) ∧ (v.aux = 0) ∧ (v.aAcc = false) ∧ (es.length = rowsFor v.fmtIn (64 * v.count)) ∧ (ss.length = (64 * v.count / blockSize v.fmtIn + 31) / 32) ∧ (s.reads n v.aHandle hrVecRead v.aRow es) ∧ (s.reads n v.bHandle hrVecRead v.bRow ss) ∧ (ds = packWide v.fmtOut ((List.range (64 * v.count)).map (fun j => toFmt (v.fmtOut == fmtBF16) (dequantElem v.fmtIn (planeByte ss (j / blockSize v.fmtIn)) (elemCode v.fmtIn es j))))) ∧ (handleCheck (s.handle n v.dHandle) hrVecWrite v.dRow ds.length = none)) := by
  exact ⟨⟨(vst (vecW 1 7 6 1 0) 0), 0, 4, (vecWord (vecW 1 7 6 1 0)), (List.replicate 64 0), _, ⟨vecSource_zero (by decide +kernel), vecHead_of (by unfold State.headIs; decide +kernel) (by decide +kernel), by decide, by decide, by decide, rfl, by decide +kernel⟩⟩,
    ⟨(vst (vecW 8 7 7 1 9) 0), 0, 4, (vecWord (vecW 8 7 7 1 9)), (List.replicate 64 0), _, ⟨vecSource_zero (by decide +kernel), vecHead_of (by unfold State.headIs; decide +kernel) (by decide +kernel), by decide, by decide, rfl, by decide +kernel⟩⟩,
    ⟨(vst (vecW 4 7 7 1 1) 0x3F800000), 0, 4, (vecWord (vecW 4 7 7 1 1)), (List.replicate 64 0), (BitVec.ofNat 256 0x3F800000 :: List.replicate 7 0), (.vecAdd 0 4 []), _, _, ⟨vecSource_zero (by decide +kernel), by decide, by decide, by decide, by simp only [State.reads, State.holds']; decide +kernel, .inl ⟨rfl, vecHead_of (by unfold State.headIs; decide +kernel) (by decide +kernel), rfl⟩, rfl, by decide +kernel⟩⟩,
    ⟨(vst (vecW 5 7 7 1 1) 0x3F800000), 0, 4, (vecWord (vecW 5 7 7 1 1)), (List.replicate 64 0), (BitVec.ofNat 256 0x3F800000 :: List.replicate 7 0), (.vecMul 0 4 []), _, _, ⟨vecSource_zero (by decide +kernel), by decide, by decide, by decide, by simp only [State.reads, State.holds']; decide +kernel, .inr (.inl ⟨rfl, vecHead_of (by unfold State.headIs; decide +kernel) (by decide +kernel), rfl⟩), rfl, by decide +kernel⟩⟩,
    ⟨(vst (vecW 6 7 7 1 1) 0x3F800000), 0, 4, (vecWord (vecW 6 7 7 1 1)), (List.replicate 64 0), (BitVec.ofNat 256 0x3F800000 :: List.replicate 7 0), (.vecMax 0 4 []), _, _, ⟨vecSource_zero (by decide +kernel), by decide, by decide, by decide, by simp only [State.reads, State.holds']; decide +kernel, .inr (.inr (.inl ⟨rfl, vecHead_of (by unfold State.headIs; decide +kernel) (by decide +kernel), rfl⟩)), rfl, by decide +kernel⟩⟩,
    ⟨(vst (vecW 7 7 7 1 1) 0x3F800000), 0, 4, (vecWord (vecW 7 7 7 1 1)), (List.replicate 64 0), (BitVec.ofNat 256 0x3F800000 :: List.replicate 7 0), (.vecMin 0 4 []), _, _, ⟨vecSource_zero (by decide +kernel), by decide, by decide, by decide, by simp only [State.reads, State.holds']; decide +kernel, .inr (.inr (.inr ⟨rfl, vecHead_of (by unfold State.headIs; decide +kernel) (by decide +kernel), rfl⟩)), rfl, by decide +kernel⟩⟩,
    ⟨(vst (vecW 0xC 0 7 1 0 - 8 + 2 ^ 106) 0), 0, 4, (vecWord (vecW 0xC 0 7 1 0 - 8 + 2 ^ 106)), [0], [0], _, ⟨vecHead_of (by unfold State.headIs; decide +kernel) (by decide +kernel), by decide, by decide, by decide, by decide, by decide, by decide, by simp only [State.reads, State.holds']; decide +kernel, by simp only [State.reads, State.holds']; decide +kernel, rfl, by decide +kernel⟩⟩⟩

/-- States that meet the hypotheses of VectorRequantRandomAndCompletion. -/
theorem witness_VectorRequantRandomAndCompletion :
    (∃ (s : State) (n : Nat) (c : Nat) (v : VecWord) (xs : List F32) (scales : List Nat) (ds : List Row) (bs : List Row), (s.vecSource n v 0 (64 * v.count) xs) ∧ (s.vecHead n c 0x03 v) ∧ (v.fmtOut < 6) ∧ (v.aux = 0) ∧ (scales = (List.range (64 * v.count / blockSize v.fmtOut)).map (fun b => scaleCode v.fmtOut ((xs.drop (b * blockSize v.fmtOut)).take (blockSize v.fmtOut)))) ∧ (ds = packRows (elemBits v.fmtOut) (perRow v.fmtOut) ((List.range (64 * v.count)).map (fun j => (requantElem v.fmtOut (scales.getD (j / blockSize v.fmtOut) 0) (xs.getD j 0) (if v.rnd = true then some (draw24 (s.drawAt n 0 v.site j)) else none)).1))) ∧ (bs = packRows 8 32 scales) ∧ (handleCheck (s.handle n v.dHandle) hrVecWrite v.dRow ds.length = none) ∧ (handleCheck (s.handle n v.bHandle) hrVecWrite v.bRow bs.length = none)) ∧
    (∃ (s : State) (n : Nat) (c : Nat) (v : VecWord) (ds : List Row), (s.vecHead n c 0x0E v) ∧ (isWide v.fmtOut = true) ∧ (v.aux < 2) ∧ (v.aux = 0 → v.fmtOut = fmtFP32) ∧ (ds = packWide v.fmtOut ((List.range (64 * v.count)).map (fun j => if v.aux = 0 then (s.drawAt n 1 v.site j).toNat / 2 ^ 32 else (FVal.fin false ((s.drawAt n 1 v.site j).toNat / 2 ^ 40) (-24)).round (v.fmtOut == fmtBF16)))) ∧ (handleCheck (s.handle n v.dHandle) hrVecWrite v.dRow ds.length = none)) ∧
    (∃ (s : State) (n : Nat) (c : Nat) (v : VecWord) (ds : List Row), (s.vecHead n c 0x0E v) ∧ (isWide v.fmtOut = true) ∧ (v.aux < 2) ∧ (v.aux = 0 → v.fmtOut = fmtFP32) ∧ (ds = packWide v.fmtOut ((List.range (64 * v.count)).map (fun j => if v.aux = 0 then (s.drawAt n 1 v.site j).toNat / 2 ^ 32 else (FVal.fin false ((s.drawAt n 1 v.site j).toNat / 2 ^ 40) (-24)).round (v.fmtOut == fmtBF16)))) ∧ (handleCheck (s.handle n v.dHandle) hrVecWrite v.dRow ds.length = none)) ∧
    (∃ (s : State) (n : Nat) (c : Nat) (v : VecWord) (xs : List F32) (ps : List Row) (we : List Row) (wc : List Row) (ae : List Row) (ac : List Row) (ds : List Row) (p : SpillParam), (s.vecHead n c 0x02 v) ∧ (v.fmtIn = fmtFP32) ∧ (v.fmtOut = fmtFP32) ∧ (v.aux = 0) ∧ (ps.length = 1) ∧ (s.reads n v.bHandle hrVecRead v.bRow ps) ∧ (p = spillParam (ps.getD 0 0).toNat) ∧ (fieldOf (ps.getD 0 0).toNat 0 112 = 0) ∧ (p.wFmt = fmtM4) ∧ (p.aFmt = fmtM4) ∧ (p.wSp = false) ∧ (p.aSp = false) ∧ (p.m0 = 0) ∧ (s.vecSource n v 0 (128 * v.count) xs) ∧ (we.length = 192) ∧ (s.reads n p.weHandle hrVecRead p.weRow we) ∧ (wc.length = 24) ∧ (s.reads n p.wcHandle hrVecRead p.wcRow wc) ∧ (ae.length = (96 * v.count + 63) / 64) ∧ (s.reads n p.aeHandle hrVecRead p.aeRow ae) ∧ (ac.length = (6 * v.count + 31) / 32) ∧ (s.reads n p.acHandle hrVecRead p.acRow ac) ∧ (ds = packWide fmtFP32 (xs.map BitVec.toNat)) ∧ (handleCheck (s.handle n v.dHandle) hrVecWrite v.dRow ds.length = none)) ∧
    (∃ (s : State) (n : Nat) (c : Nat), ((∀ r rest, (s.tile n).vec = r :: rest → c < r.lastWrite) ∨ s.stopped n = true)) ∧
    (∃ (s : State) (n : Nat) (c : Nat) (r : VecRun) (rest : List VecRun), ((s.tile n).vec = r :: rest) ∧ (r.lastWrite ≤ c) ∧ (s.stopped n = false) ∧ (r.act = none) ∧ (r.collided = false)) := by
  exact ⟨⟨((vst (vecW 3 7 0 1 0) 0)), 0, 4, (vecWord (vecW 3 7 0 1 0)), (List.replicate 64 0), _, _, _, ⟨vecSource_zero (by decide +kernel), vecHead_of (by unfold State.headIs; decide +kernel) (by decide +kernel), by decide, by decide, rfl, rfl, rfl, by decide +kernel, by decide +kernel⟩⟩,
    ⟨((vst (vecW 0xE 7 7 1 0) 0)), 0, 4, (vecWord (vecW 0xE 7 7 1 0)), _, ⟨vecHead_of (by unfold State.headIs; decide +kernel) (by decide +kernel), by decide, by decide, by decide, rfl, by decide +kernel⟩⟩,
    ⟨((vst (vecW 0xE 7 6 1 1) 0)), 0, 4, (vecWord (vecW 0xE 7 6 1 1)), _, ⟨vecHead_of (by unfold State.headIs; decide +kernel) (by decide +kernel), by decide, by decide, by decide, rfl, by decide +kernel⟩⟩,
    ⟨(vst (vecW 2 7 7 1 0) (2 ^ 230 + 2 ^ 210 + 2 ^ 170 + 2 ^ 150)), 0, 4, (vecWord (vecW 2 7 7 1 0)), (List.replicate 128 0), ([BitVec.ofNat 256 (2 ^ 230 + 2 ^ 210 + 2 ^ 170 + 2 ^ 150)]), (List.replicate 192 0), (List.replicate 24 0), (List.replicate 2 0), [0], _, _, ⟨vecHead_of (by unfold State.headIs; decide +kernel) (by decide +kernel), by decide, by decide, by decide, rfl, by simp only [State.reads, State.holds']; decide +kernel, rfl, by decide +kernel, by decide +kernel, by decide +kernel, by decide +kernel, by decide +kernel, by decide +kernel, vecSource_zero (by decide +kernel), rfl, by simp only [State.reads, State.holds']; decide +kernel, rfl, by simp only [State.reads, State.holds']; decide +kernel, rfl, by simp only [State.reads, State.holds']; decide +kernel, rfl, by simp only [State.reads, State.holds']; decide +kernel, rfl, by decide +kernel⟩⟩,
    ⟨svc, 0, 0, .inl (by intro r rest h; cases h)⟩,
    ⟨(svc.modTile 0 (fun t => { t with vec := [{ start := 0, lastRead := 1, lastWrite := 6, writes := [(1, 4, 7), (1, 4, 8), (0, 3, 9)] }], spad := [(3, 5), (9, 6)] })), 0, 6, ({ start := 0, lastRead := 1, lastWrite := 6, writes := [(1, 4, 7), (1, 4, 8), (0, 3, 9)] }), [], by decide +kernel⟩⟩

/-- States that meet the hypotheses of VectorRowwise. -/
theorem witness_VectorRowwise :
    (∃ (s : State) (n : Nat) (c : Nat) (v : VecWord) (ps : List Row) (w : Nat) (len : Nat) (stride : Nat) (vs : List (List F32)) (ds : List Row), (ps.length = 1) ∧ (s.reads n v.bHandle hrVecRead v.bRow ps) ∧ (w = (ps.getD 0 0).toNat) ∧ (len = fieldOf w 0 16) ∧ (stride = fieldOf w 16 16) ∧ (fieldOf w 67 149 = 0) ∧ (0 < len) ∧ (64 ≤ stride) ∧ (stride % 64 = 0) ∧ (len ≤ stride) ∧ (vs.length = v.count) ∧ (∀ i, i < v.count → s.vecSource n v (i * stride) len (vs.getD i [])) ∧ (s.vecHead n c 0x09 v) ∧ (v.fmtOut = fmtFP32) ∧ (v.aux < 6) ∧ (fieldOf w 32 32 = 0) ∧ (ds = packWide fmtFP32 (vs.map (fun xs => (reduceF32 v.aux xs).1))) ∧ (handleCheck (s.handle n v.dHandle) hrVecWrite v.dRow ds.length = none)) ∧
    (∃ (s : State) (n : Nat) (c : Nat) (v : VecWord) (ps : List Row) (w : Nat) (len : Nat) (stride : Nat) (vs : List (List F32)) (ds : List Row), (ps.length = 1) ∧ (s.reads n v.bHandle hrVecRead v.bRow ps) ∧ (w = (ps.getD 0 0).toNat) ∧ (len = fieldOf w 0 16) ∧ (stride = fieldOf w 16 16) ∧ (fieldOf w 67 149 = 0) ∧ (0 < len) ∧ (64 ≤ stride) ∧ (stride % 64 = 0) ∧ (len ≤ stride) ∧ (vs.length = v.count) ∧ (∀ i, i < v.count → s.vecSource n v (i * stride) len (vs.getD i [])) ∧ (s.vecHead n c 0x0A v) ∧ (isWide v.fmtOut = true) ∧ (v.aux = 0) ∧ (∀ i, i < v.count → handleCheck (s.handle n v.dHandle) hrVecWrite (v.dRow + i * stride / perRow v.fmtOut) (rowsFor v.fmtOut len) = none)) ∧
    (∃ (s : State) (n : Nat) (c : Nat) (v : VecWord) (ps : List Row) (w : Nat) (len : Nat) (stride : Nat) (vs : List (List F32)) (ds : List Row), (ps.length = 1) ∧ (s.reads n v.bHandle hrVecRead v.bRow ps) ∧ (w = (ps.getD 0 0).toNat) ∧ (len = fieldOf w 0 16) ∧ (stride = fieldOf w 16 16) ∧ (fieldOf w 67 149 = 0) ∧ (0 < len) ∧ (64 ≤ stride) ∧ (stride % 64 = 0) ∧ (len ≤ stride) ∧ (vs.length = v.count) ∧ (∀ i, i < v.count → s.vecSource n v (i * stride) len (vs.getD i [])) ∧ (s.vecHead n c 0x0B v) ∧ (isWide v.fmtOut = true) ∧ (v.aux < 2) ∧ (bitOf w 65 = false) ∧ (bitOf w 66 = false) ∧ (∀ i, i < v.count → handleCheck (s.handle n v.dHandle) hrVecWrite (v.dRow + i * stride / perRow v.fmtOut) (rowsFor v.fmtOut len) = none)) ∧
    (∃ (s : State) (n : Nat) (c : Nat) (v : VecWord) (ps : List Row) (w : Nat) (len : Nat) (stride : Nat) (vs : List (List F32)) (ds : List Row), (ps.length = 1) ∧ (s.reads n v.bHandle hrVecRead v.bRow ps) ∧ (w = (ps.getD 0 0).toNat) ∧ (len = fieldOf w 0 16) ∧ (stride = fieldOf w 16 16) ∧ (fieldOf w 67 149 = 0) ∧ (0 < len) ∧ (64 ≤ stride) ∧ (stride % 64 = 0) ∧ (len ≤ stride) ∧ (vs.length = v.count) ∧ (∀ i, i < v.count → s.vecSource n v (i * stride) len (vs.getD i [])) ∧ (s.vecHead n c 0x0D v) ∧ (v.fmtOut = fmtFP32) ∧ (1 ≤ v.aux) ∧ (v.aux ≤ 8) ∧ (bitOf w 64 = true) ∧ (∀ i, i < v.count → handleCheck (s.handle n v.dHandle) hrVecWrite (v.dRow + 2 * i) 2 = none)) := by
  exact ⟨⟨(vst (vecW 9 7 7 1 4) (5 + 64 * 2 ^ 16)), 0, 4, (vecWord (vecW 9 7 7 1 4)), ([BitVec.ofNat 256 (5 + 64 * 2 ^ 16)]), (5 + 64 * 2 ^ 16), 5, 64, ([List.replicate 5 0]), _, ⟨rfl, by simp only [State.reads, State.holds']; decide +kernel, rfl, rfl, rfl, by decide +kernel, by decide +kernel, by decide +kernel, by decide +kernel, by decide +kernel, by decide +kernel, by intro i hi; obtain rfl : i = 0 := (by have h1 : i < 1 := hi; omega); exact vecSource_zero (by decide +kernel), vecHead_of (by unfold State.headIs; decide +kernel) (by decide +kernel), rfl, by decide, by decide +kernel, rfl, by decide +kernel⟩⟩,
    ⟨(vst (vecW 0xA 7 6 1 0) (5 + 64 * 2 ^ 16)), 0, 4, (vecWord (vecW 0xA 7 6 1 0)), ([BitVec.ofNat 256 (5 + 64 * 2 ^ 16)]), (5 + 64 * 2 ^ 16), 5, 64, ([List.replicate 5 0]), [], ⟨rfl, by simp only [State.reads, State.holds']; decide +kernel, rfl, rfl, rfl, by decide +kernel, by decide +kernel, by decide +kernel, by decide +kernel, by decide +kernel, by decide +kernel, by intro i hi; obtain rfl : i = 0 := (by have h1 : i < 1 := hi; omega); exact vecSource_zero (by decide +kernel), vecHead_of (by unfold State.headIs; decide +kernel) (by decide +kernel), rfl, rfl, by decide +kernel⟩⟩,
    ⟨(vst (vecW 0xB 7 7 1 1) (5 + 64 * 2 ^ 16)), 0, 4, (vecWord (vecW 0xB 7 7 1 1)), ([BitVec.ofNat 256 (5 + 64 * 2 ^ 16)]), (5 + 64 * 2 ^ 16), 5, 64, ([List.replicate 5 0]), [], ⟨rfl, by simp only [State.reads, State.holds']; decide +kernel, rfl, rfl, rfl, by decide +kernel, by decide +kernel, by decide +kernel, by decide +kernel, by decide +kernel, by decide +kernel, by intro i hi; obtain rfl : i = 0 := (by have h1 : i < 1 := hi; omega); exact vecSource_zero (by decide +kernel), vecHead_of (by unfold State.headIs; decide +kernel) (by decide +kernel), by decide +kernel, by decide +kernel, by decide +kernel, by decide +kernel, by decide +kernel⟩⟩,
    ⟨(vst (vecW 0xD 7 7 1 8) (5 + 64 * 2 ^ 16 + 2 ^ 64)), 0, 4, (vecWord (vecW 0xD 7 7 1 8)), ([BitVec.ofNat 256 (5 + 64 * 2 ^ 16 + 2 ^ 64)]), (5 + 64 * 2 ^ 16 + 2 ^ 64), 5, 64, ([List.replicate 5 0]), [], ⟨rfl, by simp only [State.reads, State.holds']; decide +kernel, rfl, rfl, rfl, by decide +kernel, by decide +kernel, by decide +kernel, by decide +kernel, by decide +kernel, by decide +kernel, by intro i hi; obtain rfl : i = 0 := (by have h1 : i < 1 := hi; omega); exact vecSource_zero (by decide +kernel), vecHead_of (by unfold State.headIs; decide +kernel) (by decide +kernel), by decide +kernel, by decide +kernel, by decide +kernel, by decide +kernel, by decide +kernel⟩⟩⟩

/-- States that meet the hypotheses of MovesInsideAndOutOfATile. -/
theorem witness_MovesInsideAndOutOfATile :
    (∃ (s : State) (n : Nat) (c : Nat) (d : Row) (i : Instr) (src : List Row), (s.moveHead n c d) ∧ (s.descCheck n d = none) ∧ ((i = .moveFill n c [] ∧ dOp d = 1 ∧ (∃ pat, s.holds' n (s.handle n (farHandle (dFar d))) (farRow (dFar d)) [pat] ∧ src = List.replicate (dRows d) pat)) ∨ (i = .moveCopy n c [] ∧ dOp d = 2 ∧ src.length = dRows d ∧ s.holds' n (s.handle n (farHandle (dFar d))) (farRow (dFar d)) src))) ∧
    (∃ (s : State) (n : Nat) (c : Nat) (d : Row) (i : Instr) (src : List Row), (s.moveHead n c d) ∧ (s.descCheck n d = none) ∧ ((i = .moveFill n c [] ∧ dOp d = 1 ∧ (∃ pat, s.holds' n (s.handle n (farHandle (dFar d))) (farRow (dFar d)) [pat] ∧ src = List.replicate (dRows d) pat)) ∨ (i = .moveCopy n c [] ∧ dOp d = 2 ∧ src.length = dRows d ∧ s.holds' n (s.handle n (farHandle (dFar d))) (farRow (dFar d)) src))) ∧
    (∃ (s : State) (n : Nat) (c : Nat) (pos : Nat) (d : Row) (i : Instr) (ty : Ptype) (src : List Row), (s.moveHead n c d) ∧ (s.descCheck n d = none) ∧ ((s.tile n).mov.descs = []) ∧ ((s.tile n).mov.tracks = []) ∧ ((s.tile n).mov.waits = none) ∧ (dRows d ≤ 8) ∧ (requestRows d 0 = dRows d) ∧ (s.requestDest n d 0 0 = .ok pos) ∧ (s.isTwin n = false) ∧ (s.inTwin n = false) ∧ (i = .movePut n c [] ∧ dOp d = 3 ∧ ty = .write ∨ i = .moveGet n c [] ∧ dOp d = 4 ∧ ty = .read ∨ i = .moveLoad n c [] ∧ dOp d = 5 ∧ ty = .memRead ∨ i = .moveStore n c [] ∧ dOp d = 6 ∧ ty = .memWrite) ∧ (if dOp d = 3 ∨ dOp d = 6 then src.length = dRows d ∧ s.holds' n (s.handle n (dHandle d)) (dRow d) src else src = [])) ∧
    (∃ (s : State) (n : Nat) (c : Nat) (pos : Nat) (d : Row) (i : Instr) (ty : Ptype) (src : List Row), (s.moveHead n c d) ∧ (s.descCheck n d = none) ∧ ((s.tile n).mov.descs = []) ∧ ((s.tile n).mov.tracks = []) ∧ ((s.tile n).mov.waits = none) ∧ (dRows d ≤ 8) ∧ (requestRows d 0 = dRows d) ∧ (s.requestDest n d 0 0 = .ok pos) ∧ (s.isTwin n = false) ∧ (s.inTwin n = false) ∧ (i = .movePut n c [] ∧ dOp d = 3 ∧ ty = .write ∨ i = .moveGet n c [] ∧ dOp d = 4 ∧ ty = .read ∨ i = .moveLoad n c [] ∧ dOp d = 5 ∧ ty = .memRead ∨ i = .moveStore n c [] ∧ dOp d = 6 ∧ ty = .memWrite) ∧ (if dOp d = 3 ∨ dOp d = 6 then src.length = dRows d ∧ s.holds' n (s.handle n (dHandle d)) (dRow d) src else src = [])) ∧
    (∃ (s : State) (n : Nat) (c : Nat) (pos : Nat) (d : Row) (i : Instr) (ty : Ptype) (src : List Row), (s.moveHead n c d) ∧ (s.descCheck n d = none) ∧ ((s.tile n).mov.descs = []) ∧ ((s.tile n).mov.tracks = []) ∧ ((s.tile n).mov.waits = none) ∧ (dRows d ≤ 8) ∧ (requestRows d 0 = dRows d) ∧ (s.requestDest n d 0 0 = .ok pos) ∧ (s.isTwin n = false) ∧ (s.inTwin n = false) ∧ (i = .movePut n c [] ∧ dOp d = 3 ∧ ty = .write ∨ i = .moveGet n c [] ∧ dOp d = 4 ∧ ty = .read ∨ i = .moveLoad n c [] ∧ dOp d = 5 ∧ ty = .memRead ∨ i = .moveStore n c [] ∧ dOp d = 6 ∧ ty = .memWrite) ∧ (if dOp d = 3 ∨ dOp d = 6 then src.length = dRows d ∧ s.holds' n (s.handle n (dHandle d)) (dRow d) src else src = [])) ∧
    (∃ (s : State) (n : Nat) (c : Nat) (pos : Nat) (d : Row) (i : Instr) (ty : Ptype) (src : List Row), (s.moveHead n c d) ∧ (s.descCheck n d = none) ∧ ((s.tile n).mov.descs = []) ∧ ((s.tile n).mov.tracks = []) ∧ ((s.tile n).mov.waits = none) ∧ (dRows d ≤ 8) ∧ (requestRows d 0 = dRows d) ∧ (s.requestDest n d 0 0 = .ok pos) ∧ (s.isTwin n = false) ∧ (s.inTwin n = false) ∧ (i = .movePut n c [] ∧ dOp d = 3 ∧ ty = .write ∨ i = .moveGet n c [] ∧ dOp d = 4 ∧ ty = .read ∨ i = .moveLoad n c [] ∧ dOp d = 5 ∧ ty = .memRead ∨ i = .moveStore n c [] ∧ dOp d = 6 ∧ ty = .memWrite) ∧ (if dOp d = 3 ∨ dOp d = 6 then src.length = dRows d ∧ s.holds' n (s.handle n (dHandle d)) (dRow d) src else src = [])) ∧
    (∃ (s : State) (n : Nat) (c : Nat) (st : Nat) (d : Row), (s.moveHead n c d) ∧ (s.descCheck n d = some st) ∧ (dOp d = 4)) ∧
    (∃ (s : State) (n : Nat) (id : Nat) (c : Nat), (∀ d, d ∈ (s.tile n).mov.descs → d.id = id → (d.asked < dRows d.word ∧ d.discard = false) ∨ ∃ t, t ∈ (s.tile n).mov.tracks ∧ t.desc = id)) ∧
    (∃ (s : State) (n : Nat) (c : Nat) (d : MoveDesc), ((s.tile n).mov.descs = [d]) ∧ ((s.tile n).mov.tracks = []) ∧ (dRows d.word ≤ d.asked) ∧ (d.discard = false) ∧ (d.told = false) ∧ (d.collided = false) ∧ (d.status = 0) ∧ (s.stopped n = false) ∧ ((s.tile n).gau.st = .live)) := by
  exact ⟨⟨(mst (desc 1 20 3 (2 ^ 32 + 7))), 0, 1, (BitVec.ofNat 256 (desc 1 20 3 (2 ^ 32 + 7))), (.moveFill 0 1 []), ([0, 0, 0]), ⟨moveHead_of (0x30 * 2 ^ 120 + 2 * 2 ^ 114) (by unfold State.headIs; decide +kernel) (by simp only [State.reads, State.holds']; decide +kernel), by decide +kernel, .inl ⟨rfl, rfl, 0, by simp only [State.holds']; decide +kernel, rfl⟩⟩⟩,
    ⟨(mst (desc 2 20 2 (2 ^ 32 + 7))), 0, 1, (BitVec.ofNat 256 (desc 2 20 2 (2 ^ 32 + 7))), (.moveCopy 0 1 []), ([0, 0]), ⟨moveHead_of (0x30 * 2 ^ 120 + 2 * 2 ^ 114) (by unfold State.headIs; decide +kernel) (by simp only [State.reads, State.holds']; decide +kernel), by decide +kernel, .inr ⟨rfl, rfl, rfl, by simp only [State.holds']; decide +kernel⟩⟩⟩,
    ⟨(mst (desc 3 20 3 (2 ^ 38))), 0, 1, 1, (BitVec.ofNat 256 (desc 3 20 3 (2 ^ 38))), (.movePut 0 1 []), .write, ([0, 0, 0]), ⟨moveHead_of (0x30 * 2 ^ 120 + 2 * 2 ^ 114) (by unfold State.headIs; decide +kernel) (by simp only [State.reads, State.holds']; decide +kernel), by decide +kernel, rfl, rfl, rfl, by decide +kernel, by decide +kernel, rfl, by decide +kernel, by decide +kernel, .inl ⟨rfl, rfl, rfl⟩, by rw [if_pos (by decide +kernel)]; exact ⟨rfl, by simp only [State.holds']; decide +kernel⟩⟩⟩,
    ⟨(mst (desc 4 20 3 (2 ^ 38))), 0, 1, 1, (BitVec.ofNat 256 (desc 4 20 3 (2 ^ 38))), (.moveGet 0 1 []), .read, [], ⟨moveHead_of (0x30 * 2 ^ 120 + 2 * 2 ^ 114) (by unfold State.headIs; decide +kernel) (by simp only [State.reads, State.holds']; decide +kernel), by decide +kernel, rfl, rfl, rfl, by decide +kernel, by decide +kernel, rfl, by decide +kernel, by decide +kernel, .inr (.inl ⟨rfl, rfl, rfl⟩), by rw [if_neg (by decide +kernel)]⟩⟩,
    ⟨(mst (desc 5 20 3 (2 ^ 62 + 64))), 0, 1, 0, (BitVec.ofNat 256 (desc 5 20 3 (2 ^ 62 + 64))), (.moveLoad 0 1 []), .memRead, [], ⟨moveHead_of (0x30 * 2 ^ 120 + 2 * 2 ^ 114) (by unfold State.headIs; decide +kernel) (by simp only [State.reads, State.holds']; decide +kernel), by decide +kernel, rfl, rfl, rfl, by decide +kernel, by decide +kernel, rfl, by decide +kernel, by decide +kernel, .inr (.inr (.inl ⟨rfl, rfl, rfl⟩)), by rw [if_neg (by decide +kernel)]⟩⟩,
    ⟨(mst (desc 6 20 3 (2 ^ 63 + 64))), 0, 1, 408, (BitVec.ofNat 256 (desc 6 20 3 (2 ^ 63 + 64))), (.moveStore 0 1 []), .memWrite, ([0, 0, 0]), ⟨moveHead_of (0x30 * 2 ^ 120 + 2 * 2 ^ 114) (by unfold State.headIs; decide +kernel) (by simp only [State.reads, State.holds']; decide +kernel), by decide +kernel, rfl, rfl, rfl, by decide +kernel, by decide +kernel, rfl, by decide +kernel, by decide +kernel, .inr (.inr (.inr ⟨rfl, rfl, rfl⟩)), by rw [if_pos (by decide +kernel)]; exact ⟨rfl, by simp only [State.holds']; decide +kernel⟩⟩⟩,
    ⟨(mst (desc 4 20 0 (2 ^ 38))), 0, 1, stBadValue, (BitVec.ofNat 256 (desc 4 20 0 (2 ^ 38))), ⟨moveHead_of (0x30 * 2 ^ 120 + 2 * 2 ^ 114) (by unfold State.headIs; decide +kernel) (by simp only [State.reads, State.holds']; decide +kernel), by decide +kernel, by decide +kernel⟩⟩,
    ⟨svc, 0, 0, 0, by intro d h; cases h⟩,
    ⟨((jst job9).modMov 0 (fun m => { m with descs := [{ id := 3, word := BitVec.ofNat 256 (desc 4 20 3 (2 ^ 38) + 2 ^ 199 + 5 * 2 ^ 191 + 9 * 2 ^ 175), handle := entryAll, asked := 3, reqs := 1 }] })), 0, 1, ({ id := 3, word := BitVec.ofNat 256 (desc 4 20 3 (2 ^ 38) + 2 ^ 199 + 5 * 2 ^ 191 + 9 * 2 ^ 175), handle := entryAll, asked := 3, reqs := 1 }), by decide +kernel⟩⟩

/-- States that meet the hypotheses of RequestsAtFabricRemote. -/
theorem witness_RequestsAtFabricRemote :
    (∃ (s : State) (n : Nat) (st : Nat) (p : Packet) (i : Instr) (r : Option Nat), (i = .readPacket n p [] ∧ r = some hrRemoteRead ∨ i = .writePacket n p [] ∧ r = some hrRemoteWrite ∨ i = .signalPacket n p ∧ r = none) ∧ (s.enters n p) ∧ (s.remoteCheck n p r = st) ∧ (st ≠ stOk)) ∧
    (∃ (s : State) (n : Nat) (st : Nat) (p : Packet) (i : Instr) (r : Option Nat), (i = .readPacket n p [] ∧ r = some hrRemoteRead ∨ i = .writePacket n p [] ∧ r = some hrRemoteWrite ∨ i = .signalPacket n p ∧ r = none) ∧ (s.enters n p) ∧ (s.remoteCheck n p r = st) ∧ (st ≠ stOk)) ∧
    (∃ (s : State) (n : Nat) (st : Nat) (p : Packet) (i : Instr) (r : Option Nat), (i = .readPacket n p [] ∧ r = some hrRemoteRead ∨ i = .writePacket n p [] ∧ r = some hrRemoteWrite ∨ i = .signalPacket n p ∧ r = none) ∧ (s.enters n p) ∧ (s.remoteCheck n p r = st) ∧ (st ≠ stOk)) ∧
    (∃ (s : State) (n : Nat) (p : Packet), (s.enters n p) ∧ (s.remoteCheck n p (some hrRemoteRead) = stOk)) ∧
    (∃ (s : State) (n : Nat) (p : Packet) (ds : List Row), (s.enters n p) ∧ (s.remoteCheck n p (some hrRemoteWrite) = stOk) ∧ (p.xferId = 0) ∧ (p.sigEn = false) ∧ (p.data.map decodeWord = ds.map Decoded.clean) ∧ (s.twinOf n = none)) ∧
    (∃ (s : State) (n : Nat) (q : Nat) (p : Packet), (s.enters n p) ∧ (s.remoteCheck n p none = stOk) ∧ (s.ownerOf n = some q) ∧ (p.job = s.jobId q) ∧ ((s.tile n).gau.st = .live) ∧ (s.twinOf n = none)) ∧
    (∃ (s : State) (n : Nat), ((s.tile n).gau.held = [] ∨ (∃ p rest, (s.tile n).gau.held = p :: rest ∧ s.blocked n p = true))) ∧
    (∃ (s : State) (n : Nat) (k : Nat) (p : Packet) (ds : List Row), ((s.tile n).gau.held = [p]) ∧ (p.ptype = .write) ∧ (s.remoteCheck n p (some hrRemoteWrite) = stOk) ∧ (p.xferId ≠ 0) ∧ (fromBlock p = false) ∧ (p.sigEn = false) ∧ (pendOf (s.tile n).gau.pend p = none) ∧ (pendFree (s.tile n).gau.pend = some k) ∧ (Tbl.get (s.tile n).gau.pend {} k = {}) ∧ (p.data.map decodeWord = ds.map Decoded.clean) ∧ (s.twinOf n = none)) := by
  exact ⟨⟨(jst job9), 0, stAccessDenied, ({ ptype := .read, rows := 3, tag := 4, job := 8, partition := 0, srcX := 2, srcY := 3, farAddr := BitVec.ofNat 64 (2 ^ 32 + 30) }), (.readPacket 0 ({ ptype := .read, rows := 3, tag := 4, job := 8, partition := 0, srcX := 2, srcY := 3, farAddr := BitVec.ofNat 64 (2 ^ 32 + 30) }) []), (some hrRemoteRead), ⟨.inl ⟨rfl, rfl⟩, ⟨rfl, rfl, by decide +kernel⟩, by decide +kernel, by decide⟩⟩,
    ⟨svc, 0, stFenced, ({ ptype := .read, rows := 3, tag := 4, job := 9, partition := 0, srcX := 2, srcY := 3, farAddr := BitVec.ofNat 64 (2 ^ 32 + 30) }), (.signalPacket 0 ({ ptype := .read, rows := 3, tag := 4, job := 9, partition := 0, srcX := 2, srcY := 3, farAddr := BitVec.ofNat 64 (2 ^ 32 + 30) })), none, ⟨.inr (.inr ⟨rfl, rfl⟩), ⟨rfl, rfl, by decide +kernel⟩, by decide +kernel, by decide⟩⟩,
    ⟨(jst job9), 0, stBadValue, ({ ptype := .read, rows := 3, tag := 4, job := 9, partition := 0, srcX := 2, srcY := 3, farAddr := BitVec.ofNat 64 (2 ^ 32 + 998) }), (.writePacket 0 ({ ptype := .read, rows := 3, tag := 4, job := 9, partition := 0, srcX := 2, srcY := 3, farAddr := BitVec.ofNat 64 (2 ^ 32 + 998) }) []), (some hrRemoteWrite), ⟨.inr (.inl ⟨rfl, rfl⟩), ⟨rfl, rfl, by decide +kernel⟩, by decide +kernel, by decide⟩⟩,
    ⟨(jst job9), 0, ({ ptype := .read, rows := 3, tag := 4, job := 9, partition := 0, srcX := 2, srcY := 3, farAddr := BitVec.ofNat 64 (2 ^ 32 + 30) }), by simp only [State.enters]; decide +kernel⟩,
    ⟨(jst job9), 0, ({ ptype := .write, rows := 3, tag := 4, job := 9, partition := 0, srcX := 2, srcY := 3, farAddr := BitVec.ofNat 64 (2 ^ 32 + 30), data := [encodeRow 7, encodeRow 8, encodeRow 7] }), ([7, 8, 7]), by simp only [State.enters]; decide +kernel⟩,
    ⟨(jst job9), 1, 0, ({ ptype := .signal, job := 9, srcX := 2, srcY := 3, srcDevice := 4, srcLogical := 5, sigGauge := 6, sigAdd := 7 }), by simp only [State.enters]; decide +kernel⟩,
    ⟨svc, 1, .inl rfl⟩,
    ⟨((jst job9).modGau 0 (fun u => { u with held := [{ ptype := .write, rows := 3, tag := 4, job := 9, partition := 0, srcX := 2, srcY := 3, srcLogical := 1, xferId := 6, farAddr := BitVec.ofNat 64 (2 ^ 32 + 30), data := [encodeRow 7, encodeRow 8, encodeRow 7] }] })), 0, 0, ({ ptype := .write, rows := 3, tag := 4, job := 9, partition := 0, srcX := 2, srcY := 3, srcLogical := 1, xferId := 6, farAddr := BitVec.ofNat 64 (2 ^ 32 + 30), data := [encodeRow 7, encodeRow 8, encodeRow 7] }), ([7, 8, 7]), by decide +kernel⟩⟩

/-- States that meet the hypotheses of RepliesAtTheMover. -/
theorem witness_RepliesAtTheMover :
    (∃ (s : State) (n : Nat) (p : Packet) (x : MoveDesc) (k : Track) (ds : List Row) (i : Instr), ((s.tile n).mov.descs = [x]) ∧ ((s.tile n).mov.tracks = [k]) ∧ (k.desc = x.id) ∧ (x.discard = false) ∧ (p.head = []) ∧ (p.reserved = 0) ∧ ((s.tile n).mov.waits = none) ∧ (dRows x.word ≤ x.asked) ∧ (k.ptype = .read ∨ k.ptype = .memRead) ∧ (p.data.map decodeWord = ds.map Decoded.clean) ∧ (i = .dataPacket n p [] ∧ p.tag = k.tag ∨ i = .forkPacket n p [] ∧ p.farAddr.toNat = k.addr ∧ p.rows = k.rows ∧ p.stride = k.stride)) ∧
    (∃ (s : State) (n : Nat) (p : Packet) (x : MoveDesc) (k : Track) (ds : List Row) (i : Instr), ((s.tile n).mov.descs = [x]) ∧ ((s.tile n).mov.tracks = [k]) ∧ (k.desc = x.id) ∧ (x.discard = false) ∧ (p.head = []) ∧ (p.reserved = 0) ∧ ((s.tile n).mov.waits = none) ∧ (dRows x.word ≤ x.asked) ∧ (k.ptype = .read ∨ k.ptype = .memRead) ∧ (p.data.map decodeWord = ds.map Decoded.clean) ∧ (i = .dataPacket n p [] ∧ p.tag = k.tag ∨ i = .forkPacket n p [] ∧ p.farAddr.toNat = k.addr ∧ p.rows = k.rows ∧ p.stride = k.stride)) ∧
    (∃ (s : State) (n : Nat) (p : Packet), ((s.tile n).mov.tracks = []) ∧ (p.head = []) ∧ (p.reserved = 0) ∧ (p.srcLogical ≠ 0xFFFF) ∧ (∀ x, x ∈ (s.tile n).mov.signals → x.2 ≠ p.farAddr.toNat)) ∧
    (∃ (s : State) (n : Nat) (p : Packet), ((s.tile n).mov.tracks = []) ∧ (p.head = []) ∧ (p.reserved = 0)) ∧
    (∃ (s : State) (n : Nat) (p : Packet) (x : MoveDesc) (k : Track), ((s.tile n).mov.descs = [x]) ∧ ((s.tile n).mov.tracks = [k]) ∧ (k.desc = x.id) ∧ (dRows x.word ≤ x.asked) ∧ (p.tag = k.tag) ∧ (p.farAddr.toNat = k.addr) ∧ (p.srcLogical ≠ 0xFFFF) ∧ (p.head = []) ∧ (p.reserved = 0) ∧ ((s.tile n).mov.waits = none) ∧ (k.ptype = .write ∨ k.ptype = .memWrite)) ∧
    (∃ (s : State) (n : Nat) (p : Packet) (x : MoveDesc) (k : Track), ((s.tile n).mov.descs = [x]) ∧ ((s.tile n).mov.tracks = [k]) ∧ (k.desc = x.id) ∧ (dRows x.word ≤ x.asked) ∧ (p.tag = k.tag) ∧ (p.farAddr.toNat = k.addr) ∧ (p.srcLogical ≠ 0xFFFF) ∧ (p.head = []) ∧ (p.reserved = 0) ∧ ((s.tile n).mov.waits = none) ∧ (p.status ≠ 0) ∧ (p.status ≠ stUncorrectable) ∧ (x.status = 0) ∧ (s.carriesSignal n k = false)) ∧
    (∃ (s : State) (n : Nat) (q : Nat) (p : Packet), (p.srcLogical ≠ 0xFFFF) ∧ (p.head = []) ∧ (p.reserved = 0) ∧ ((s.tile n).mov.tracks = []) ∧ ((s.tile n).mov.signals = [(q, p.farAddr.toNat)])) := by
  exact ⟨⟨((jst job9).modMov 0 (fun m => { m with descs := [{ id := 3, word := BitVec.ofNat 256 (desc 4 20 3 (2 ^ 38)), handle := entryAll, asked := 3, reqs := 1 }], tracks := [{ tag := 5, desc := 3, ptype := .read, first := 0, rows := 3, addr := 2 ^ 38, stride := 0 }] })), 0, ({ ptype := .data, tag := 5, rows := 3, srcLogical := 1, farAddr := BitVec.ofNat 64 (2 ^ 38), data := [encodeRow 7, encodeRow 8, encodeRow 9] }), ({ id := 3, word := BitVec.ofNat 256 (desc 4 20 3 (2 ^ 38)), handle := entryAll, asked := 3, reqs := 1 }), ({ tag := 5, desc := 3, ptype := .read, first := 0, rows := 3, addr := 2 ^ 38, stride := 0 }), ([7, 8, 9]), (.dataPacket 0 ({ ptype := .data, tag := 5, rows := 3, srcLogical := 1, farAddr := BitVec.ofNat 64 (2 ^ 38), data := [encodeRow 7, encodeRow 8, encodeRow 9] }) []), ⟨rfl, rfl, rfl, rfl, rfl, rfl, rfl, by decide +kernel, by decide, by decide +kernel, .inl ⟨rfl, rfl⟩⟩⟩,
    ⟨((jst job9).modMov 0 (fun m => { m with descs := [{ id := 3, word := BitVec.ofNat 256 (desc 4 20 3 (2 ^ 38)), handle := entryAll, asked := 3, reqs := 1 }], tracks := [{ tag := 5, desc := 3, ptype := .read, first := 0, rows := 3, addr := 2 ^ 38, stride := 0 }] })), 0, ({ ptype := .data, tag := 5, rows := 3, srcLogical := 1, farAddr := BitVec.ofNat 64 (2 ^ 38), data := [encodeRow 7, encodeRow 8, encodeRow 9] }), ({ id := 3, word := BitVec.ofNat 256 (desc 4 20 3 (2 ^ 38)), handle := entryAll, asked := 3, reqs := 1 }), ({ tag := 5, desc := 3, ptype := .read, first := 0, rows := 3, addr := 2 ^ 38, stride := 0 }), ([7, 8, 9]), (.forkPacket 0 ({ ptype := .data, tag := 5, rows := 3, srcLogical := 1, farAddr := BitVec.ofNat 64 (2 ^ 38), data := [encodeRow 7, encodeRow 8, encodeRow 9] }) []), ⟨rfl, rfl, rfl, rfl, rfl, rfl, rfl, by decide +kernel, by decide, by decide +kernel, .inr ⟨rfl, by decide +kernel, rfl, rfl⟩⟩⟩,
    ⟨(jst job9), 0, {}, by decide +kernel⟩,
    ⟨(jst job9), 0, {}, by decide +kernel⟩,
    ⟨((jst job9).modMov 0 (fun m => { m with descs := [{ id := 3, word := BitVec.ofNat 256 (desc 4 20 3 (2 ^ 38)), handle := entryAll, asked := 3, reqs := 1 }], tracks := [{ tag := 5, desc := 3, ptype := .write, first := 0, rows := 3, addr := 2 ^ 38, stride := 0 }] })), 0, ({ ptype := .ack, tag := 5, farAddr := BitVec.ofNat 64 (2 ^ 38) }), ({ id := 3, word := BitVec.ofNat 256 (desc 4 20 3 (2 ^ 38)), handle := entryAll, asked := 3, reqs := 1 }), ({ tag := 5, desc := 3, ptype := .write, first := 0, rows := 3, addr := 2 ^ 38, stride := 0 }), by decide +kernel⟩,
    ⟨((jst job9).modMov 0 (fun m => { m with descs := [{ id := 3, word := BitVec.ofNat 256 (desc 4 20 3 (2 ^ 38)), handle := entryAll, asked := 3, reqs := 1 }], tracks := [{ tag := 5, desc := 3, ptype := .write, first := 0, rows := 3, addr := 2 ^ 38, stride := 0 }] })), 0, ({ ptype := .status, tag := 5, status := stFenced, farAddr := BitVec.ofNat 64 (2 ^ 38) }), ({ id := 3, word := BitVec.ofNat 256 (desc 4 20 3 (2 ^ 38)), handle := entryAll, asked := 3, reqs := 1 }), ({ tag := 5, desc := 3, ptype := .write, first := 0, rows := 3, addr := 2 ^ 38, stride := 0 }), by decide +kernel⟩,
    ⟨((jst job9).modMov 0 (fun m => { m with credits := 15, signals := [(2, 7)] })), 0, 2, ({ ptype := .ack, sigEn := true, farAddr := 7 }), by decide +kernel⟩⟩

/-- States that meet the hypotheses of RoutersAndFailedPositions. -/
theorem witness_RoutersAndFailedPositions :
    (∃ (s : State) (pos : Nat) (leg : Leg) (p : Packet), (p.ptype ≠ .fork) ∧ (s.carries pos = true) ∧ (s.hop pos leg.vc leg.legX leg.legY p.dstX p.dstY = .eject)) ∧
    (∃ (s : State) (pos : Nat) (m : Nat) (d : Dir) (leg : Leg) (p : Packet), (p.ptype ≠ .fork) ∧ (s.carries pos = true) ∧ (s.hop pos leg.vc leg.legX leg.legY p.dstX p.dstY = .forward m d) ∧ (s.bufferFree m (arrivesAt p d) leg.vc = true) ∧ (m ≠ pos)) ∧
    (∃ (s : State) (pos : Nat) (m : Nat) (d : Dir) (leg : Leg) (p : Packet), (p.ptype ≠ .fork) ∧ (s.carries pos = true) ∧ (s.hop pos leg.vc leg.legX leg.legY p.dstX p.dstY = .forward m d) ∧ (s.bufferFree m (arrivesAt p d) leg.vc = false)) ∧
    (∃ (s : State) (pos : Nat) (leg : Leg) (p : Packet), (p.ptype ≠ .fork) ∧ (s.carries pos = true) ∧ (s.hop pos leg.vc leg.legX leg.legY p.dstX p.dstY = .fenced)) ∧
    (∃ (s : State) (pos : Nat) (input : Nat), (input ∉ (s.tile pos).parity)) ∧
    (∃ (s : State) (pos : Nat) (waits : Nat) (p : Packet), (s.carries pos = true) ∧ (p.head = []) ∧ (p.list ≠ []) ∧ (∀ e, e ∈ p.list → nextDir pos e.1 e.2 = none)) ∧
    (∃ (s : State) (n : Nat), (s.usable n = true)) ∧
    (∃ (s : State) (n : Nat), (s.forwards n = true)) ∧
    (∃ (s : State) (n : Nat), (s.usable n = false)) ∧
    (∃ (s : State) (n : Nat), (s.usable n = false) ∧ (s.jobs = [])) ∧
    (∃ (s : State) (n : Nat), (s.forwards n = false) ∧ ((s.tile n).gau.held = []) ∧ ((s.tile n).merges = []) ∧ ((s.tile n).inputs = [])) ∧
    (∃ (s : State) (sess : Nat) (n : Nat) (v : BitVec 64), (s.writeGuard sess (tileIx n) 0x62 = none) ∧ ((s.tile n).owner = none)) ∧
    (∃ (s : State) (sess : Nat) (n : Nat) (v : BitVec 64) (q : Nat), (s.writeGuard sess (tileIx n) 0x62 = none) ∧ ((s.tile n).owner = some q) ∧ ((s.tile n).gau.st = .live) ∧ (fieldOf v.toNat 39 25 = 0)) := by
  exact ⟨⟨svc, 60, ({ legX := 9, legY := 1 }), ({ dstX := 9, dstY := 1 }), by decide +kernel⟩,
    ⟨(obs [(tileIx 61, 0, 0, 4)] svc), 60, 61, .east, ({ legX := 12, legY := 1 }), ({ ptype := .ack, dstX := 12, dstY := 1 }), by decide +kernel⟩,
    ⟨({ obs [(tileIx 61, 0, 0, 4)] svc with tiles := [(61, { inputs := [⟨arrivesAt { ptype := .ack, dstX := 12, dstY := 1 } .east, { legX := 12, legY := 1 }, { ptype := .ack }⟩] })] }), 60, 61, .east, ({ legX := 12, legY := 1 }), ({ ptype := .ack, dstX := 12, dstY := 1 }), by decide +kernel⟩,
    ⟨(obs [(tileIx 61, 0, 0, 6)] svc), 60, ({ legX := 10, legY := 1 }), ({ dstX := 10, dstY := 1 }), by decide +kernel⟩,
    ⟨svc, 60, 3, by decide +kernel⟩,
    ⟨(obs [(tileIx 60, 0, 0, 4)] svc), 60, 4, ({ ptype := .fork, list := [(9, 1)] }), by decide +kernel⟩,
    ⟨(obs [(tileIx 61, 0, 0, 4)] svc), 61, by decide +kernel⟩,
    ⟨(obs [(tileIx 61, 0, 0, 4)] svc), 61, by decide +kernel⟩,
    ⟨(obs [(tileIx 61, 0, 0, 6)] svc), 61, by decide +kernel⟩,
    ⟨(obs [(tileIx 61, 0, 0, 6)] svc), 61, by decide +kernel⟩,
    ⟨(obs [(tileIx 61, 0, 0, 6)] svc), 61, by decide +kernel⟩,
    ⟨svc, 5, 61, 0, by decide +kernel⟩,
    ⟨(jst job9), 5, 1, (BitVec.ofNat 64 (127 * 2 ^ 32 + 5)), 0, by decide +kernel⟩⟩

/-- States that meet the hypotheses of MemoryServersReadAndWrite. -/
theorem witness_MemoryServersReadAndWrite :
    (∃ (s : State) (h : Nat) (a : Nat) (pos : Nat) (p : Packet), (s.memPlace p.partition (farForm p.farAddr.toNat) (farOffset p.farAddr.toNat) = (.stack h, a)) ∧ (soundPacket p) ∧ (pos = s.serverPos p) ∧ ((s.server (.stack h)).dead = false) ∧ ((s.server (.stack h)).merges = []) ∧ ((s.server (.stack h)).hold = [])) ∧
    (∃ (s : State) (h : Nat) (a : Nat) (pos : Nat) (p : Packet), (s.memPlace p.partition (farForm p.farAddr.toNat) (farOffset p.farAddr.toNat) = (.stack h, a)) ∧ (soundPacket p) ∧ (pos = s.serverPos p) ∧ ((s.server (.stack h)).dead = true)) ∧
    (∃ (s : State) (h : Nat) (a : Nat) (pos : Nat) (p : Packet) (ds : List Row), (s.memPlace p.partition (farForm p.farAddr.toNat) (farOffset p.farAddr.toNat) = (.stack h, a)) ∧ (soundPacket p) ∧ (pos = s.serverPos p) ∧ ((s.server (.stack h)).dead = false) ∧ ((s.server (.stack h)).wbuf.length + p.rows ≤ 8192) ∧ ((s.server (.stack h)).waiting = []) ∧ ((s.server (.stack h)).merges = []) ∧ ((s.server (.stack h)).hold = []) ∧ (p.data.map decodeWord = ds.map Decoded.clean)) ∧
    (∃ (s : State) (srv : Server) (id : Nat), (∀ g, g ∈ (s.server srv).merges → g.id ≠ id)) ∧
    (∃ (s : State) (h : Nat) (g : MemMerge) (p : Packet) (ds : List Row), ((s.server (.stack h)).merges = [g]) ∧ (g.reqs = [p]) ∧ (g.data = none) ∧ (g.hint = false) ∧ ((s.server (.stack h)).wbuf = []) ∧ (ds.length = g.rows) ∧ (∀ i, i < g.rows → decodeWord (Tbl.get s.hbm 0 ((s.requestRowsAt g.partition g.addr g.rows g.stride).getD i 0)) = .clean (ds.getD i 0)) ∧ (∀ i, i < g.rows → isTableRow ((s.requestRowsAt g.partition g.addr g.rows g.stride).getD i 0) = false)) ∧
    (∃ (s : State) (h : Nat), ((s.server (.stack h)).waiting = []) ∧ ((s.server (.stack h)).dtl = [])) ∧
    (∃ (s : State) (h : Nat) (t0 : Nat), ((s.server (.stack h)).passFrom = some t0) ∧ (s.patrolDue (.stack h) = false)) ∧
    (∃ (s : State) (h : Nat) (t0 : Nat) (d : Row), ((s.server (.stack h)).passFrom = some t0) ∧ (s.patrolDue (.stack h) = true) ∧ (hbmStack (32 * (h / 2 * (regionBytes / 32) + (s.server (.stack h)).patrol)) = h) ∧ ((s.server (.stack h)).dead = false) ∧ ((s.server (.stack h)).wbuf = []) ∧ (decodeWord (Tbl.get s.hbm 0 (h / 2 * (regionBytes / 32) + (s.server (.stack h)).patrol)) = .clean d)) ∧
    (∃ (s : State) (h : Nat) (t0 : Nat) (d : Row), ((s.server (.stack h)).passFrom = some t0) ∧ (s.patrolDue (.stack h) = true) ∧ (hbmStack (32 * (h / 2 * (regionBytes / 32) + (s.server (.stack h)).patrol)) = h) ∧ ((s.server (.stack h)).dead = false) ∧ ((s.server (.stack h)).wbuf = []) ∧ (decodeWord (Tbl.get s.hbm 0 (h / 2 * (regionBytes / 32) + (s.server (.stack h)).patrol)) = .clean d)) ∧
    (∃ (s : State) (srv : Server), ((s.server srv).dead = true)) ∧
    (∃ (s : State) (h : Nat), ((s.server (.stack h)).dead = false) ∧ ((s.server (.stack h)).merges = []) ∧ ((s.server (.stack h)).waiting = []) ∧ ((s.server (.stack h)).dtl = [])) := by
  exact ⟨⟨(jst job9), 0, (2 ^ 31 + 64), ((jst job9).serverPos ({ ptype := .memRead, rows := 2, tag := 4, job := 9, partition := 0, srcX := 2, srcY := 3, farAddr := BitVec.ofNat 64 (2 ^ 62 + 64) })), ({ ptype := .memRead, rows := 2, tag := 4, job := 9, partition := 0, srcX := 2, srcY := 3, farAddr := BitVec.ofNat 64 (2 ^ 62 + 64) }), by simp only [soundPacket]; decide +kernel⟩,
    ⟨({ jst job9 with hbms := [(0, { dead := true })] }), 0, (2 ^ 31 + 64), ((jst job9).serverPos ({ ptype := .memRead, rows := 2, tag := 4, job := 9, partition := 0, srcX := 2, srcY := 3, farAddr := BitVec.ofNat 64 (2 ^ 62 + 64) })), ({ ptype := .memRead, rows := 2, tag := 4, job := 9, partition := 0, srcX := 2, srcY := 3, farAddr := BitVec.ofNat 64 (2 ^ 62 + 64) }), by simp only [soundPacket]; decide +kernel⟩,
    ⟨(jst job9), 0, (2 ^ 31 + 64), ((jst job9).serverPos ({ ptype := .memWrite, rows := 2, tag := 4, job := 9, partition := 0, srcX := 2, srcY := 3, farAddr := BitVec.ofNat 64 (2 ^ 62 + 64), data := [encodeRow 7, encodeRow 8] })), ({ ptype := .memWrite, rows := 2, tag := 4, job := 9, partition := 0, srcX := 2, srcY := 3, farAddr := BitVec.ofNat 64 (2 ^ 62 + 64), data := [encodeRow 7, encodeRow 8] }), ([7, 8]), by simp only [soundPacket]; decide +kernel⟩,
    ⟨svc, (.channel 3), 1, by intro g h; cases h⟩,
    ⟨({ jst job9 with hbms := [(0, { merges := [{ id := 4, partition := 0, job := 9, addr := 2 ^ 62 + 64, rows := 2, stride := 0, reqs := [{ ptype := .memRead, rows := 2, tag := 4, job := 9, partition := 0, srcX := 2, srcY := 3, farAddr := BitVec.ofNat 64 (2 ^ 62 + 64) }] }] })], hbm := [(2 ^ 26 + 2, encodeRow 5)] }), 0, ({ id := 4, partition := 0, job := 9, addr := 2 ^ 62 + 64, rows := 2, stride := 0, reqs := [{ ptype := .memRead, rows := 2, tag := 4, job := 9, partition := 0, srcX := 2, srcY := 3, farAddr := BitVec.ofNat 64 (2 ^ 62 + 64) }] }), ({ ptype := .memRead, rows := 2, tag := 4, job := 9, partition := 0, srcX := 2, srcY := 3, farAddr := BitVec.ofNat 64 (2 ^ 62 + 64) }), ([5, 0]), by decide +kernel⟩,
    ⟨({ svc with hbms := [(3, { wbuf := [(5, 7), (5, 8), (9, 1)] })] }), 3, by decide +kernel⟩,
    ⟨({ svc with hbms := [(0, { passFrom := some 0, passHours := 24, patrol := 1000000 })] }), 0, 0, by decide +kernel⟩,
    ⟨({ svc with hbms := [(0, { passFrom := some 0 })] }), 0, 0, 0, by decide +kernel⟩,
    ⟨({ svc with elapsed := 2 ^ 60, hbms := [(0, { passFrom := some 0, passHours := 24, patrol := regionBytes / 32 - 1 })] }), 0, 0, 0, by decide +kernel⟩,
    ⟨({ svc with channels := [(1, { dead := true })] }), (.channel 1), by decide +kernel⟩,
    ⟨svc, 11, by decide +kernel⟩⟩

/-- States that meet the hypotheses of DieToDieMemory. -/
theorem witness_DieToDieMemory :
    (∃ (s : State) (m : Nat) (c : Nat) (d : DtlMsg) (ds : List (Row × Row)) (rows : List Nat), (soundMsg d) ∧ (s.ddrUsed ≠ []) ∧ (d.dtype = 1) ∧ (c = (s.ddrDecode d.addr).1) ∧ ((s.server (.channel c)).dead = false) ∧ ((s.server (.channel c)).wbuf = []) ∧ (rows = dtlRows d (fieldOf d.arg 0 4)) ∧ (ds.length = rows.length) ∧ (∀ i, i < rows.length → burstRead (rows.getD i 0 / 2) (s.burst (rows.getD i 0 / 2)) = some ((ds.getD i (0, 0)).1, (ds.getD i (0, 0)).2, 0, false))) ∧
    (∃ (s : State) (m : Nat) (d : DtlMsg), (d.head = none) ∧ (dtlShape d = false) ∧ (d.dtype = 1)) ∧
    (∃ (s : State) (m : Nat) (c : Nat) (d : DtlMsg), (soundMsg d) ∧ (s.ddrUsed ≠ []) ∧ (d.dtype = 2) ∧ (c = (s.ddrDecode d.addr).1) ∧ ((s.server (.channel c)).dead = false) ∧ ((s.server (.channel c)).merges = []) ∧ ((s.server (.channel c)).dtl = []) ∧ ((s.server (.channel c)).wbuf.length + d.cells.length ≤ 4096) ∧ ((s.server (.channel c)).hold = []) ∧ (d.cells.any isBadWord = false)) ∧
    (∃ (s : State) (m : Nat) (d : DtlMsg), (∃ r, r ∈ dtlRows d (fieldOf d.arg 0 4) ∧ 6 * regionBytes ≤ 32 * r)) ∧
    (∃ (s : State) (m : Nat) (d : DtlMsg), (∃ r, r ∈ dtlRows d d.cells.length ∧ 6 * regionBytes ≤ 32 * r)) ∧
    (∃ (s : State) (m : Nat) (h : Nat) (d : DtlMsg) (ds : List Row) (rows : List Nat), (soundMsg d) ∧ (d.dtype = 5) ∧ (h = hbmStack d.addr) ∧ (rows = dtlRows d (fieldOf d.arg 0 4)) ∧ (∀ r, r ∈ rows → 32 * r < 6 * regionBytes ∧ isTableRow r = false) ∧ ((s.server (.stack h)).dead = false) ∧ ((s.server (.stack h)).wbuf = []) ∧ (ds.length = rows.length) ∧ (∀ i, i < rows.length → decodeWord (Tbl.get s.hbm 0 (rows.getD i 0)) = .clean (ds.getD i 0))) ∧
    (∃ (s : State) (m : Nat) (h : Nat) (d : DtlMsg), (soundMsg d) ∧ (d.dtype = 6) ∧ (h = hbmStack d.addr) ∧ (∀ r, r ∈ dtlRows d d.cells.length → 32 * r < 6 * regionBytes) ∧ ((s.server (.stack h)).dead = false) ∧ ((s.server (.stack h)).merges = []) ∧ ((s.server (.stack h)).dtl = []) ∧ ((s.server (.stack h)).wbuf.length + d.cells.length ≤ 8192) ∧ ((s.server (.stack h)).hold = []) ∧ (d.cells.any isBadWord = false)) ∧
    (∃ (s : State) (m : Nat) (d : DtlMsg) (r : DtlReq) (g : MemMerge) (p : Packet), (soundMsg d) ∧ (d.dtype = 3) ∧ (d.status = 0) ∧ ((s.ucie m).out = [r]) ∧ (r.dtag = d.dtag) ∧ ((s.ucie m).waiting = []) ∧ (r.merge = some g.id) ∧ ((s.server (.channel r.chan)).merges = [g]) ∧ (g.reqs = [p]) ∧ (g.data = none)) ∧
    (∃ (s : State) (m : Nat) (d : DtlMsg) (r : DtlReq), (soundMsg d) ∧ (d.dtype = 4) ∧ (d.status = 0) ∧ ((s.ucie m).out = [r]) ∧ (r.dtag = d.dtag) ∧ ((s.ucie m).waiting = []) ∧ (r.merge = none)) ∧
    (∃ (s : State) (m : Nat) (d : DtlMsg) (i : Instr), (soundMsg d) ∧ (i = .hbmData m d ∧ d.dtype = 7 ∨ i = .hbmAck m d ∧ d.dtype = 8)) ∧
    (∃ (s : State) (m : Nat) (d : DtlMsg) (i : Instr), (soundMsg d) ∧ (i = .hbmData m d ∧ d.dtype = 7 ∨ i = .hbmAck m d ∧ d.dtype = 8)) := by
  exact ⟨⟨(obs [(0x3100, 2, 0, 1)] svc), 2, 0, ({ dtype := 1, addr := 64, arg := 3, dtag := 8 }), ([(0, 0), (0, 0), (0, 0)]), ([2, 3, 4]), by simp only [soundMsg]; decide +kernel⟩,
    ⟨svc, 2, ({ dtype := 1, arg := 9 }), by decide +kernel⟩,
    ⟨(obs [(0x3100, 2, 0, 1)] svc), 2, 0, ({ dtype := 2, addr := 64, dtag := 8, cells := [encodeRow 7] }), by simp only [soundMsg]; decide +kernel⟩,
    ⟨svc, 2, ({ dtype := 5, addr := 6 * regionBytes, arg := 1 }), ⟨6 * regionBytes / 32, by decide +kernel, by decide +kernel⟩⟩,
    ⟨svc, 2, ({ dtype := 6, addr := 6 * regionBytes - 32, cells := [0, 0] }), ⟨6 * regionBytes / 32, by decide +kernel, by decide +kernel⟩⟩,
    ⟨svc, 2, (hbmStack 64), ({ dtype := 5, addr := 64, arg := 2, dtag := 8 }), ([0, 0]), ([2, 3]), by simp only [soundMsg]; decide +kernel⟩,
    ⟨svc, 2, (hbmStack 64), ({ dtype := 6, addr := 64, dtag := 8, cells := [encodeRow 7, 0] }), by simp only [soundMsg]; decide +kernel⟩,
    ⟨({ svc with ucies := [(2, { out := [{ dtag := 8, pkt := { tag := 4, srcX := 2 }, chan := 3, merge := some 4 }] })], channels := [(3, { merges := [{ id := 4, partition := 0, job := 9, addr := 2 ^ 63 + 64, rows := 1, stride := 0, reqs := [{ tag := 4, srcX := 2 }] }] })] }), 2, ({ dtype := 3, dtag := 8, cells := [7] }), ({ dtag := 8, pkt := { tag := 4, srcX := 2 }, chan := 3, merge := some 4 }), ({ id := 4, partition := 0, job := 9, addr := 2 ^ 63 + 64, rows := 1, stride := 0, reqs := [{ tag := 4, srcX := 2 }] }), ({ tag := 4, srcX := 2 }), by simp only [soundMsg]; decide +kernel⟩,
    ⟨({ svc with ucies := [(2, { out := [{ dtag := 8, pkt := { tag := 4, srcX := 2 }, chan := 3, merge := none }] })] }), 2, ({ dtype := 4, dtag := 8 }), ({ dtag := 8, pkt := { tag := 4, srcX := 2 }, chan := 3, merge := none }), by simp only [soundMsg]; decide +kernel⟩,
    ⟨svc, 2, ({ dtype := 8 }), (.hbmAck 2 { dtype := 8 }), ⟨⟨rfl, by decide +kernel⟩, .inr ⟨rfl, rfl⟩⟩⟩,
    ⟨svc, 2, ({ dtype := 7, cells := [1] }), (.hbmData 2 { dtype := 7, cells := [1] }), ⟨⟨rfl, by decide +kernel⟩, .inl ⟨rfl, rfl⟩⟩⟩⟩

/-- States that meet the hypotheses of DieToDieObjectsAndLinks. -/
theorem witness_DieToDieObjectsAndLinks :
    (∃ (s : State) (m : Nat) (d : DtlMsg), (soundMsg d) ∧ (d.dtype = 9) ∧ (objAt (fieldOf d.addr 16 16) (fieldOf d.addr 8 8) = none)) ∧
    (∃ (s : State) (m : Nat) (d : DtlMsg) (i : Instr), (soundMsg d) ∧ (i = .objRsp m d ∧ d.dtype = 0xA ∨ i = .eventPortState m d ∧ d.dtype = 0xB ∨ i = .remapped m d ∧ d.dtype = 0xF)) ∧
    (∃ (s : State) (m : Nat) (d : DtlMsg) (i : Instr), (soundMsg d) ∧ (i = .objRsp m d ∧ d.dtype = 0xA ∨ i = .eventPortState m d ∧ d.dtype = 0xB ∨ i = .remapped m d ∧ d.dtype = 0xF)) ∧
    (∃ (s : State) (m : Nat) (d : DtlMsg) (i : Instr), (soundMsg d) ∧ (i = .objRsp m d ∧ d.dtype = 0xA ∨ i = .eventPortState m d ∧ d.dtype = 0xB ∨ i = .remapped m d ∧ d.dtype = 0xF)) ∧
    (∃ (s : State) (m : Nat) (d : DtlMsg) (lo : Codeword) (hi : Codeword), (soundMsg d) ∧ (d.dtype = 0xB) ∧ (d.cells = [lo, hi])) ∧
    (∃ (s : State) (m : Nat) (d : DtlMsg), (soundMsg d) ∧ (d.dtype = 0xC)) ∧
    (∃ (s : State) (m : Nat) (d : DtlMsg), (soundMsg d) ∧ (d.dtype = 0xD) ∧ (s.portState (fieldOf d.arg 16 4) = 6)) ∧
    (∃ (s : State) (m : Nat) (d : DtlMsg), (soundMsg d) ∧ (d.dtype = 0xD)) ∧
    (∃ (s : State) (m : Nat) (d : DtlMsg), (soundMsg d) ∧ (d.dtype = 0xE) ∧ ((s.ucie m).waiting = [])) ∧
    (∃ (s : State) (m : Nat) (d : DtlMsg), (soundMsg d) ∧ (d.dtype = 0xE)) ∧
    (∃ (s : State) (m : Nat), (m < 8) ∧ (s.obj (0x3210 + m) 0 = 2) ∧ ((s.ucie m).stalled = none)) ∧
    (∃ (s : State) (m : Nat), (m < 8) ∧ (s.obj (0x3210 + m) 0 ≠ 2)) ∧
    (∃ (s : State) (m : Nat), (m < 8) ∧ (s.obj (0x3210 + m) 0 = 1) ∧ ((s.ucie m).waiting = [])) ∧
    (∃ (s : State) (m : Nat), (m < 8) ∧ (s.obj (0x3210 + m) 0 ≠ 1)) ∧
    (∃ (s : State) (m : Nat) (j : Nat), (m < 8) ∧ (s.obj (0x3210 + m) 0 = 1) ∧ (j < 8) ∧ (j ≠ m) ∧ (s.obj (0x3210 + j) 0 ≠ 3) ∧ ((s.ucie m).out = []) ∧ ((s.ucie m).waiting = [])) := by
  exact ⟨⟨svc, 2, ({ dtype := 9, dtag := 4, addr := 0xFFFF * 2 ^ 16 }), by simp only [soundMsg]; decide +kernel⟩,
    ⟨svc, 2, ({ dtype := 0xA, cells := [0] }), (.objRsp 2 { dtype := 0xA, cells := [0] }), ⟨⟨rfl, by decide +kernel⟩, .inl ⟨rfl, rfl⟩⟩⟩,
    ⟨svc, 2, ({ dtype := 0xB, arg := 4 }), (.eventPortState 2 { dtype := 0xB, arg := 4 }), ⟨⟨rfl, by decide +kernel⟩, .inr (.inl ⟨rfl, rfl⟩)⟩⟩,
    ⟨svc, 2, ({ dtype := 0xF, arg := 1 }), (.remapped 2 { dtype := 0xF, arg := 1 }), ⟨⟨rfl, by decide +kernel⟩, .inr (.inr ⟨rfl, rfl⟩)⟩⟩,
    ⟨svc, 2, ({ dtype := 0xB, arg := 1, cells := [encodeRow 7, encodeRow 8] }), (encodeRow 7), (encodeRow 8), by simp only [soundMsg]; decide +kernel⟩,
    ⟨svc, 2, ({ dtype := 0xC, arg := 33 + 5 * 2 ^ 16, cells := [encodeRow 7, encodeRow 8] }), by simp only [soundMsg]; decide +kernel⟩,
    ⟨(obs [(0x401D, 1, 0, 6)] svc), 2, ({ dtype := 0xD, arg := 64 + 13 * 2 ^ 16, cells := [encodeRow 7, encodeRow 8] }), by simp only [soundMsg]; decide +kernel⟩,
    ⟨svc, 2, ({ dtype := 0xD, arg := 64 + 13 * 2 ^ 16, cells := [encodeRow 7, encodeRow 8] }), by simp only [soundMsg]; decide +kernel⟩,
    ⟨({ svc with ucies := [(2, { req := 4095, rsp := 7, ctrl := 1 })] }), 2, ({ dtype := 0xE, arg := 2 ^ 16 + 4, addr := 2 }), by simp only [soundMsg]; decide +kernel⟩,
    ⟨svc, 2, ({ dtype := 0xE, arg := 2 ^ 16 + 4, addr := 2 }), by simp only [soundMsg]; decide +kernel⟩,
    ⟨(obs [(0x3212, 0, 0, 2), (0x3200, 0, 0, 255)] svc), 2, by decide +kernel⟩,
    ⟨(obs [(0x3212, 0, 0, 1)] svc), 2, by decide +kernel⟩,
    ⟨(obs [(0x3212, 0, 0, 1)] svc), 2, by decide +kernel⟩,
    ⟨(obs [(0x3212, 0, 0, 2)] svc), 2, by decide +kernel⟩,
    ⟨(obs [(0x3212, 0, 0, 1), (0x3217, 0, 0, 2)] svc), 2, 7, by decide +kernel⟩⟩

/-- States that meet the hypotheses of StepsStartAndEnd. -/
theorem witness_StepsStartAndEnd :
    (∃ (s : State) (q : Nat) (j : Job), (q < 12) ∧ (s.job q = some j) ∧ (s.jobState q ≠ 2 ∨ j.cadence = true ∨ j.weirHold = true ∨ j.scourHold = true ∨ s.pollDue q = false)) ∧
    (∃ (s : State) (q : Nat) (j : Job), (q < 12) ∧ (s.job q = some j) ∧ (s.jobState q = 2) ∧ (s.pollDue q = true) ∧ (j.cadence = false) ∧ (j.weirHold = false) ∧ (j.scourHold = false) ∧ (s.readEntry q (s.step' q) = (s, none))) ∧
    (∃ (s : State) (q : Nat) (j : Job) (e : Entry), (q < 12) ∧ (s.job q = some j) ∧ (s.jobState q = 2) ∧ (s.pollDue q = true) ∧ (j.cadence = false) ∧ (j.weirHold = false) ∧ (j.scourHold = false) ∧ (s.readEntry q (s.step' q) = (s, some (some e)))) ∧
    (∃ (s : State) (q : Nat) (j : Job), (q < 12) ∧ (s.job q = some j) ∧ (s.startReady q = false)) ∧
    (∃ (s : State) (q : Nat) (j : Job), (q < 12) ∧ (s.job q = some j) ∧ (s.startReady q = true) ∧ (j.barrier = false) ∧ (j.twin = none) ∧ (j.twinNext = none) ∧ (j.retwin = none) ∧ (j.twinEvery = 0) ∧ (j.watches ≠ []) ∧ (∀ w, w ∈ j.watches → s.watchMet q j w = false) ∧ (j.map.Nodup) ∧ (∀ n, n ∈ j.map → (s.tile n).gau.st = .live ∧ Tbl.wf (s.tile n).gau.gauges (fun _ => {}) = true)) ∧
    (∃ (s : State) (q : Nat) (j : Job) (w : Nat) (x : Watch), (q < 12) ∧ (s.job q = some j) ∧ (j.watches[w]? = some x) ∧ (x.reached = true ∨ s.watchMet q j x = false ∨ s.jobState q ≠ 3)) ∧
    (∃ (s : State) (q : Nat) (j : Job) (w : Nat) (x : Watch) (y : Watch), (q < 12) ∧ (s.job q = some j) ∧ (j.watches[w]? = some x) ∧ (s.jobState q = 3) ∧ (j.starting = false) ∧ (x.reached = false) ∧ (s.watchMet q j x = true) ∧ (y ∈ j.watches.eraseIdx w) ∧ (y.reached = false)) ∧
    (∃ (s : State) (q : Nat) (j : Job) (w : Nat) (x : Watch), (q < 12) ∧ (s.job q = some j) ∧ (j.watches[w]? = some x) ∧ (s.jobState q = 3) ∧ (j.starting = false) ∧ (x.reached = false) ∧ (s.watchMet q j x = true) ∧ (∀ y, y ∈ j.watches.eraseIdx w → y.reached = true) ∧ (j.twin = none) ∧ (j.routeBad = false) ∧ (Tbl.get s.latches none q = none) ∧ (∀ e, j.entry = some e → e.endAfter = false)) ∧
    (∃ (s : State) (q : Nat) (j : Job), (q < 12) ∧ (s.job q = some j) ∧ (j.startAt = none)) ∧
    (∃ (s : State) (q : Nat) (j : Job) (v : Nat), (q < 12) ∧ (s.job q = some j) ∧ (j.startAt = some v) ∧ (s.tide < v)) ∧
    (∃ (s : State) (q : Nat) (j : Job) (v : Nat), (q < 12) ∧ (s.job q = some j) ∧ (j.startAt = some v) ∧ (v ≤ s.tide) ∧ (s.jobState q = 3) ∧ (j.twin = none) ∧ (j.twinNext = none) ∧ (j.retwin = none) ∧ (j.twinEvery = 0) ∧ (∃ w, w ∈ j.watches ∧ w.reached = false) ∧ (j.map.Nodup) ∧ (∀ n, n ∈ j.map → (s.tile n).gau.st = .live)) ∧
    (∃ (s : State) (q : Nat) (j : Job) (c : Nat), (q < 12) ∧ (s.job q = some j) ∧ (j.cadence = false ∨ j.tickNow s.tide c = false)) ∧
    (∃ (s : State) (q : Nat) (j : Job) (c : Nat), (q < 12) ∧ (s.job q = some j) ∧ (j.cadence = true) ∧ (s.jobState q = 3) ∧ (j.tickNow s.tide c = true)) ∧
    (∃ (s : State) (q : Nat) (j : Job), (q < 12) ∧ (s.job q = some j) ∧ (j.weirHold = false)) ∧
    (∃ (s : State) (q : Nat) (j : Job), (q < 12) ∧ (s.job q = some j) ∧ (j.weirHold = true) ∧ (s.pollDue q = true)) ∧
    (∃ (s : State) (m : CtrlMsg), (s.partitionOfJob (fieldOf m.body.toNat 208 16) = none)) ∧
    (∃ (s : State) (m : CtrlMsg) (q : Nat) (j : Job), (s.partitionOfJob (fieldOf m.body.toNat 208 16) = some q) ∧ (s.job q = some j) ∧ (j.ready = false) ∧ (ctrlOk 0x14 m = true)) ∧
    (∃ (s : State) (m : CtrlMsg) (q : Nat) (j : Job), (s.partitionOfJob (fieldOf m.body.toNat 208 16) = some q) ∧ (s.job q = some j) ∧ (j.barrier = false ∨ j.ready = false ∨ j.starting = false ∨ fieldOf m.body.toNat 144 64 ≠ s.step' q)) ∧
    (∃ (s : State) (m : CtrlMsg) (q : Nat) (j : Job), (s.partitionOfJob (fieldOf m.body.toNat 208 16) = some q) ∧ (s.job q = some j) ∧ (j.barrier = true) ∧ (j.ready = true) ∧ (j.starting = true) ∧ (ctrlOk 0x15 m = true) ∧ (j.startAt = none) ∧ (s.startReady q = true) ∧ (fieldOf m.body.toNat 144 64 = s.step' q) ∧ (s.tide + 4000 ≤ fieldOf m.body.toNat 80 64) ∧ (j.twin = none)) := by
  exact ⟨⟨((jst ({ job9 with map := [0], watches := [{ gauge := 2, base := 0, perStep := 1, logical := 0 }], cadence := true })).setObj 0x5010 0 0 2), 0, ({ job9 with map := [0], watches := [{ gauge := 2, base := 0, perStep := 1, logical := 0 }], cadence := true }), by decide +kernel⟩,
    ⟨((jst ({ job9 with map := [0], watches := [{ gauge := 2, base := 0, perStep := 1, logical := 0 }] })).setObj 0x5010 0 0 2), 0, ({ job9 with map := [0], watches := [{ gauge := 2, base := 0, perStep := 1, logical := 0 }] }), by decide +kernel⟩,
    ⟨({ (jst ({ job9 with map := [0], watches := [{ gauge := 2, base := 0, perStep := 1, logical := 0 }] })).setObj 0x5010 0 0 2 with hbm := rowsAt [(0xE0, (2 ^ 64 - 1) * 2 ^ 192)] }), 0, ({ job9 with map := [0], watches := [{ gauge := 2, base := 0, perStep := 1, logical := 0 }] }), ({ key := 0, lanes := 0, laneList := 0, endAfter := false, args := [0, 0, 0, 0] }), by decide +kernel⟩,
    ⟨(jst ({ job9 with map := [0], watches := [{ gauge := 2, base := 0, perStep := 1, logical := 0 }] })), 0, ({ job9 with map := [0], watches := [{ gauge := 2, base := 0, perStep := 1, logical := 0 }] }), by decide +kernel⟩,
    ⟨(obs [(0x1040, 0, 0, 2)] (jst ({ job9 with map := [0], watches := [{ gauge := 2, base := 5, perStep := 1, logical := 0 }], starting := true, lanes := true, twinEvery := 0 }))), 0, ({ job9 with map := [0], watches := [{ gauge := 2, base := 5, perStep := 1, logical := 0 }], starting := true, lanes := true, twinEvery := 0 }), by decide +kernel⟩,
    ⟨(jst ({ job9 with map := [0], watches := [{ gauge := 2, base := 5, perStep := 1, logical := 0 }, { gauge := 3, base := 5, perStep := 1, logical := 0 }] })), 0, ({ job9 with map := [0], watches := [{ gauge := 2, base := 5, perStep := 1, logical := 0 }, { gauge := 3, base := 5, perStep := 1, logical := 0 }] }), 0, ({ gauge := 2, base := 5, perStep := 1, logical := 0 }), by decide +kernel⟩,
    ⟨((jst ({ job9 with map := [0], watches := [{ gauge := 2, base := 0, perStep := 1, logical := 0 }, { gauge := 3, base := 0, perStep := 1, logical := 0 }] })).modGau 0 (fun u => { u with gauges := [(2, { value := 1 })] })), 0, ({ job9 with map := [0], watches := [{ gauge := 2, base := 0, perStep := 1, logical := 0 }, { gauge := 3, base := 0, perStep := 1, logical := 0 }] }), 0, ({ gauge := 2, base := 0, perStep := 1, logical := 0 }), ({ gauge := 3, base := 0, perStep := 1, logical := 0 }), ⟨by decide, rfl, rfl, by decide +kernel, rfl, rfl, by decide +kernel, by decide, rfl⟩⟩,
    ⟨((jst ({ job9 with map := [0], watches := [{ gauge := 2, base := 0, perStep := 1, logical := 0 }] })).modGau 0 (fun u => { u with gauges := [(2, { value := 1 })] })), 0, ({ job9 with map := [0], watches := [{ gauge := 2, base := 0, perStep := 1, logical := 0 }] }), 0, ({ gauge := 2, base := 0, perStep := 1, logical := 0 }), ⟨by decide, rfl, rfl, by decide +kernel, rfl, rfl, by decide +kernel, by decide, rfl, rfl, rfl, by intro e h; cases h⟩⟩,
    ⟨(jst ({ job9 with map := [0], watches := [{ gauge := 2, base := 0, perStep := 1, logical := 0 }] })), 0, ({ job9 with map := [0], watches := [{ gauge := 2, base := 0, perStep := 1, logical := 0 }] }), by decide +kernel⟩,
    ⟨(jst ({ job9 with map := [0], watches := [{ gauge := 2, base := 0, perStep := 1, logical := 0 }], startAt := some 77, starting := true, twinEvery := 0 })), 0, ({ job9 with map := [0], watches := [{ gauge := 2, base := 0, perStep := 1, logical := 0 }], startAt := some 77, starting := true, twinEvery := 0 }), 77, by decide +kernel⟩,
    ⟨({ jst ({ job9 with map := [0], watches := [{ gauge := 2, base := 0, perStep := 1, logical := 0 }], startAt := some 77, starting := true, twinEvery := 0 }) with tide := 77 }), 0, ({ job9 with map := [0], watches := [{ gauge := 2, base := 0, perStep := 1, logical := 0 }], startAt := some 77, starting := true, twinEvery := 0 }), 77, ⟨by decide, rfl, rfl, by decide, by decide +kernel, rfl, rfl, rfl, rfl, ⟨{ gauge := 2, base := 0, perStep := 1, logical := 0 }, by decide, rfl⟩, by decide, by decide +kernel⟩⟩,
    ⟨(jst ({ job9 with map := [0], watches := [{ gauge := 2, base := 0, perStep := 1, logical := 0 }] })), 0, ({ job9 with map := [0], watches := [{ gauge := 2, base := 0, perStep := 1, logical := 0 }] }), 4, by decide +kernel⟩,
    ⟨(jst ({ job9 with map := [0], watches := [{ gauge := 2, base := 0, perStep := 1, logical := 0 }], cadence := true, tick := some 3, phase := 1 })), 0, ({ job9 with map := [0], watches := [{ gauge := 2, base := 0, perStep := 1, logical := 0 }], cadence := true, tick := some 3, phase := 1 }), 4, by decide +kernel⟩,
    ⟨(jst ({ job9 with map := [0], watches := [{ gauge := 2, base := 0, perStep := 1, logical := 0 }] })), 0, ({ job9 with map := [0], watches := [{ gauge := 2, base := 0, perStep := 1, logical := 0 }] }), by decide +kernel⟩,
    ⟨((jst ({ job9 with map := [0], watches := [{ gauge := 2, base := 0, perStep := 1, logical := 0 }], weirHold := true })).setObj 0x5010 0 0 2), 0, ({ job9 with map := [0], watches := [{ gauge := 2, base := 0, perStep := 1, logical := 0 }], weirHold := true }), by decide +kernel⟩,
    ⟨svc, ({ body := BitVec.ofNat 224 (9 * 2 ^ 208) }), by decide +kernel⟩,
    ⟨(jst ({ job9 with map := [0], watches := [{ gauge := 2, base := 0, perStep := 1, logical := 0 }] })), ({ src := 3, body := BitVec.ofNat 224 (9 * 2 ^ 208 + 6 * 2 ^ 144) }), 0, ({ job9 with map := [0], watches := [{ gauge := 2, base := 0, perStep := 1, logical := 0 }] }), by decide +kernel⟩,
    ⟨(jst ({ job9 with map := [0], watches := [{ gauge := 2, base := 0, perStep := 1, logical := 0 }] })), ({ src := 3, body := BitVec.ofNat 224 (9 * 2 ^ 208 + 6 * 2 ^ 144) }), 0, ({ job9 with map := [0], watches := [{ gauge := 2, base := 0, perStep := 1, logical := 0 }] }), by decide +kernel⟩,
    ⟨(obs [(0x1040, 0, 0, 2)] (jst ({ job9 with map := [0], watches := [{ gauge := 2, base := 0, perStep := 1, logical := 0 }], starting := true, lanes := true, barrier := true, ready := true }))), ({ src := 3, body := BitVec.ofNat 224 (9 * 2 ^ 208 + 4000 * 2 ^ 80) }), 0, ({ job9 with map := [0], watches := [{ gauge := 2, base := 0, perStep := 1, logical := 0 }], starting := true, lanes := true, barrier := true, ready := true }), by decide +kernel⟩⟩

/-- States that meet the hypotheses of PartitionsAndJobs. -/
theorem witness_PartitionsAndJobs :
    (∃ (s : State) (sess : Nat) (q : Nat) (c : PartCfg), (q < 12) ∧ (s.writeGuard sess (0x5000 + q) 8 = none) ∧ (c = s.newCfg q) ∧ (s.jobState q ≠ 0 ∨ s.fillOf q ≠ none)) ∧
    (∃ (s : State) (sess : Nat) (q : Nat) (c : PartCfg), (q < 12) ∧ (s.writeGuard sess (0x5000 + q) 8 = none) ∧ (c = s.newCfg q) ∧ (s.jobState q = 0) ∧ (s.fillOf q = none) ∧ (c.clusters = 0)) ∧
    (∃ (s : State) (sess : Nat) (q : Nat) (c : PartCfg), (q < 12) ∧ (s.writeGuard sess (0x5000 + q) 8 = none) ∧ (c = s.newCfg q) ∧ (s.jobState q = 0) ∧ (s.fillOf q = none) ∧ (c.clusters ≠ 0) ∧ (s.cfgBad q c = true)) ∧
    (∃ (s : State) (sess : Nat) (q : Nat) (c : PartCfg), (q < 12) ∧ (s.writeGuard sess (0x5000 + q) 8 = none) ∧ (c = s.newCfg q) ∧ (s.jobState q = 0) ∧ (s.fillOf q = none) ∧ (c.clusters ≠ 0) ∧ (s.cfgBad q c = false) ∧ (∀ g, Tbl.get s.hbmTags 0 g = 0 ∨ Tbl.get s.hbmTags 0 g = c.tenant + 1) ∧ (∀ g, Tbl.get s.ddrTags 0 g = 0 ∨ Tbl.get s.ddrTags 0 g = c.tenant + 1)) ∧
    (∃ (s : State) (sess : Nat) (q : Nat) (c : PartCfg) (g : Nat), (q < 12) ∧ (s.writeGuard sess (0x5000 + q) 8 = none) ∧ (c = s.newCfg q) ∧ (s.jobState q = 0) ∧ (s.fillOf q = none) ∧ (c.clusters ≠ 0) ∧ (s.cfgBad q c = false) ∧ (c.hbmBase ≤ 0x10000000 * g) ∧ (0x10000000 * g < c.hbmBase + c.hbmSize) ∧ (Tbl.get s.hbmTags 0 g ≠ 0) ∧ (Tbl.get s.hbmTags 0 g ≠ c.tenant + 1)) := by
  exact ⟨⟨(obs [(0x5010, 0, 0, 2)] svc), 5, 0, ((obs [(0x5010, 0, 0, 2)] svc).newCfg 0), by decide +kernel⟩,
    ⟨svc, 5, 0, (svc.newCfg 0), by decide +kernel⟩,
    ⟨pbad, 5, 0, (pbad.newCfg 0), by decide +kernel⟩,
    ⟨pok, 5, 0, (pok.newCfg 0), ⟨by decide, by decide +kernel, rfl, by decide +kernel, by decide +kernel, by decide +kernel, by decide +kernel, fun _ => .inl rfl, fun _ => .inl rfl⟩⟩,
    ⟨({ pok with hbmTags := [(8, 9)] }), 5, 0, (pok.newCfg 0), 8, by decide +kernel⟩⟩

/-- States that meet the hypotheses of PartitionsAndJobs. -/
theorem witness_PartitionsAndJobs_2 :
    (∃ (s : State) (q : Nat), (s.fillOf q = none)) ∧
    (∃ (s : State) (q : Nat) (f : PartFill), (q < 12) ∧ (s.fillOf q = some f)) ∧
    (∃ (s : State) (sess : Nat) (q : Nat) (sub : Nat) (st : Nat) (i : Instr), (q < 12) ∧ (s.writeGuard sess (0x5010 + q) sub = none) ∧ (i = .jobLoad sess q ∧ sub = 1 ∨ i = .jobResume sess q ∧ sub = 4) ∧ (s.device.mode = .test ∨ s.device.mode = .startup) ∧ (st = stNotReady)) ∧
    (∃ (s : State) (sess : Nat) (q : Nat) (sub : Nat) (st : Nat) (i : Instr), (q < 12) ∧ (s.writeGuard sess (0x5010 + q) sub = none) ∧ (i = .jobLoad sess q ∧ sub = 1 ∨ i = .jobResume sess q ∧ sub = 4) ∧ (s.device.mode = .test ∨ s.device.mode = .startup) ∧ (st = stNotReady)) ∧
    (∃ (s : State) (sess : Nat) (q : Nat) (sub : Nat) (st : Nat) (i : Instr), (q < 12) ∧ (s.writeGuard sess (0x5010 + q) sub = none) ∧ (i = .jobLoad sess q ∧ sub = 1 ∨ i = .jobResume sess q ∧ sub = 4) ∧ (s.device.mode ≠ .test) ∧ (s.device.mode ≠ .startup) ∧ (s.jobState q ∉ [0, 5, 6]) ∧ (st = stBusy)) := by
  exact ⟨⟨svc, 0, by decide +kernel⟩,
    ⟨({ svc with fills := [(0, some { cfg := { clusters := 1 }, hbm := [8], ddr := [] })] }), 0, ({ cfg := { clusters := 1 }, hbm := [8], ddr := [] }), by decide +kernel⟩,
    ⟨(dev .test), 5, 0, 1, stNotReady, (.jobLoad 5 0), ⟨by decide, by decide +kernel, .inl ⟨rfl, rfl⟩, .inl rfl, rfl⟩⟩,
    ⟨(obs [(0x7000, 3, 0, 10)] (dev .startup)), 5, 0, 4, stNotReady, (.jobResume 5 0), ⟨by decide, by decide +kernel, .inr ⟨rfl, rfl⟩, .inr rfl, rfl⟩⟩,
    ⟨(obs [(0x5010, 0, 0, 2)] svc), 5, 0, 1, stBusy, (.jobLoad 5 0), ⟨by decide, by decide +kernel, .inl ⟨rfl, rfl⟩, by decide +kernel, by decide +kernel, by decide +kernel, rfl⟩⟩⟩

/-- States that meet the hypotheses of PartitionsAndJobs. -/
theorem witness_PartitionsAndJobs_3 :
    (∃ (s : State) (sess : Nat) (q : Nat) (sub : Nat) (st : Nat) (i : Instr), (q < 12) ∧ (s.writeGuard sess (0x5010 + q) sub = none) ∧ (i = .jobLoad sess q ∧ sub = 1 ∨ i = .jobResume sess q ∧ sub = 4) ∧ (s.device.mode ≠ .test) ∧ (s.device.mode ≠ .startup) ∧ (s.jobState q ∉ [0, 5, 6]) ∧ (st = stBusy)) ∧
    (∃ (s : State) (sess : Nat) (q : Nat) (sub : Nat) (st : Nat) (i : Instr), (q < 12) ∧ (s.writeGuard sess (0x5010 + q) sub = none) ∧ (i = .jobLoad sess q ∧ sub = 1 ∨ i = .jobResume sess q ∧ sub = 4) ∧ (s.device.mode ≠ .test) ∧ (s.device.mode ≠ .startup) ∧ (s.jobState q = 6) ∧ (st = stRestartPending)) ∧
    (∃ (s : State) (s3 : State) (sess : Nat) (q : Nat) (sub : Nat) (raw : Nat) (step : Nat) (i : Instr) (x : JobTable) (map : List Nat), (q < 12) ∧ (s.writeGuard sess (0x5010 + q) sub = none) ∧ (s.device.mode ≠ .test) ∧ (s.device.mode ≠ .startup) ∧ (s.jobState q = 0 ∨ s.jobState q = 5) ∧ (s.floor.chosen = []) ∧ (s.configured q = true) ∧ (s.windowLost q = false) ∧ (s.readWin q (s.cfg q).jobTable 4 = (s, some raw)) ∧ (fieldOf raw 0 8 = 1) ∧ (s.headerFieldsOk q (if sub = 4 then 1224 else (s.offeredIn q).length) raw = true) ∧ (s.readTables q raw = (s, some x)) ∧ (i = .jobLoad sess q ∧ sub = 1 ∧ map = x.placed.map (fun e => (placedOf e).physical) ∧ step = x.hdr.firstStep ∨ i = .jobResume sess q ∧ sub = 4 ∧ s.savePlan q x = (s, .inr (map, step))) ∧ (s.tableFault q x map = none) ∧ (s.imagesFault q (x.polders.map (fun e => fieldOf e 64 64)) = (s3, none)) ∧ (s3.routesOk q map = true)) ∧
    (∃ (s : State) (s3 : State) (sess : Nat) (q : Nat) (sub : Nat) (raw : Nat) (step : Nat) (i : Instr) (x : JobTable) (map : List Nat), (q < 12) ∧ (s.writeGuard sess (0x5010 + q) sub = none) ∧ (s.device.mode ≠ .test) ∧ (s.device.mode ≠ .startup) ∧ (s.jobState q = 0 ∨ s.jobState q = 5) ∧ (s.floor.chosen = []) ∧ (s.configured q = true) ∧ (s.windowLost q = false) ∧ (s.readWin q (s.cfg q).jobTable 4 = (s, some raw)) ∧ (fieldOf raw 0 8 = 1) ∧ (s.headerFieldsOk q (if sub = 4 then 1224 else (s.offeredIn q).length) raw = true) ∧ (s.readTables q raw = (s, some x)) ∧ (i = .jobLoad sess q ∧ sub = 1 ∧ map = x.placed.map (fun e => (placedOf e).physical) ∧ step = x.hdr.firstStep ∨ i = .jobResume sess q ∧ sub = 4 ∧ s.savePlan q x = (s, .inr (map, step))) ∧ (s.tableFault q x map = none) ∧ (s.imagesFault q (x.polders.map (fun e => fieldOf e 64 64)) = (s3, none)) ∧ (s3.routesOk q map = true)) ∧
    (∃ (s : State) (sess : Nat) (q : Nat), (q < 12) ∧ (s.writeGuard sess (0x5010 + q) 2 = none) ∧ (s.jobState q = 0)) := by
  exact ⟨⟨(obs [(0x5010, 0, 0, 3)] svc), 5, 0, 4, stBusy, (.jobResume 5 0), ⟨by decide, by decide +kernel, .inr ⟨rfl, rfl⟩, by decide +kernel, by decide +kernel, by decide +kernel, rfl⟩⟩,
    ⟨(obs [(0x5010, 0, 0, 6)] svc), 5, 0, 4, stRestartPending, (.jobResume 5 0), ⟨by decide, by decide +kernel, .inr ⟨rfl, rfl⟩, by decide +kernel, by decide +kernel, by decide +kernel, rfl⟩⟩,
    ⟨lst, lst, 5, 0, 1, hdr1, 0, (.jobLoad 5 0), ({ raw := hdr1, hdr := headerOf hdr1, placed := [0], polders := [0x5000 * 2 ^ 64], targets := [], shared := [] }), [0], ⟨by decide, by decide +kernel, by decide +kernel, by decide +kernel, by decide +kernel, by decide +kernel, by decide +kernel, by decide +kernel, by decide +kernel, by decide +kernel, by decide +kernel, by decide +kernel, .inl ⟨rfl, rfl, by decide +kernel, by decide +kernel⟩, by decide +kernel, by decide +kernel, by decide +kernel⟩⟩,
    ⟨lst, lst, 5, 0, 4, hdr1, 5, (.jobResume 5 0), ({ raw := hdr1, hdr := headerOf hdr1, placed := [0], polders := [0x5000 * 2 ^ 64], targets := [], shared := [] }), [0], ⟨by decide, by decide +kernel, by decide +kernel, by decide +kernel, by decide +kernel, by decide +kernel, by decide +kernel, by decide +kernel, by decide +kernel, by decide +kernel, by decide +kernel, by decide +kernel, .inr ⟨rfl, rfl, by decide +kernel⟩, by decide +kernel, by decide +kernel, by decide +kernel⟩⟩,
    ⟨svc, 5, 11, by decide +kernel⟩⟩

/-- States that meet the hypotheses of PartitionsAndJobs. -/
theorem witness_PartitionsAndJobs_4 :
    (∃ (s : State) (sess : Nat) (q : Nat), (q < 12) ∧ (s.writeGuard sess (0x5010 + q) 2 = none) ∧ (s.jobState q ∉ [0, 5, 6, 7])) ∧
    (∃ (s : State) (sess : Nat) (q : Nat), (q < 12) ∧ (s.writeGuard sess (0x5010 + q) 2 = none) ∧ (s.jobState q ∉ [0, 6])) ∧
    (∃ (s : State) (sess : Nat) (q : Nat), (q < 12) ∧ (s.writeGuard sess (0x5010 + q) 3 = none) ∧ (s.jobState q ∉ [0, 5, 6, 7])) ∧
    (∃ (s : State) (sess : Nat) (q : Nat), (q < 12) ∧ (s.writeGuard sess (0x5040 + q) 4 = none) ∧ (s.job q ≠ none)) ∧
    (∃ (s : State) (q : Nat), (s.jobState q ≠ 6)) := by
  exact ⟨⟨(obs [(0x5010, 0, 0, 3)] svc), 5, 0, by decide +kernel⟩,
    ⟨(jst job9), 5, 0, by decide +kernel⟩,
    ⟨(obs [(0x5010, 0, 0, 4)] svc), 5, 0, by decide +kernel⟩,
    ⟨(jst job9), 5, 0, by decide +kernel⟩,
    ⟨svc, 0, by decide +kernel⟩⟩

/-- States that meet the hypotheses of PartitionsAndJobs. -/
theorem witness_PartitionsAndJobs_5 :
    (∃ (s : State) (q : Nat) (j : Job), (q < 12) ∧ (s.job q = some j) ∧ (s.jobState q = 6) ∧ (Tbl.get s.latches none q = none)) ∧
    (∃ (s : State) (q : Nat) (j : Job), (q < 12) ∧ (s.job q = some j) ∧ ((∀ n k, n ∈ j.map → k < 4 → s.qState n k ≠ 4) ∨ s.jobState q = 6)) ∧
    (∃ (s : State) (q : Nat) (j : Job) (n : Nat) (k : Nat), (q < 12) ∧ (s.job q = some j) ∧ (n ∈ j.map) ∧ (k < 4) ∧ (s.qState n k = 4) ∧ (s.jobState q ≠ 6)) := by
  exact ⟨⟨((jst ({ job9 with scrubLeft := [0, 1] })).setObj 0x5010 0 0 6), 0, ({ job9 with scrubLeft := [0, 1] }), by decide +kernel⟩,
    ⟨(jst job9), 0, job9, ⟨by decide, rfl, .inl (by intro n k hn; have h : n = 0 ∨ n = 1 := (by simpa [job9] using hn); revert k; obtain rfl | rfl := h <;> decide +kernel)⟩⟩,
    ⟨((jst job9).setObj (tileIx 1) 0x30 3 4), 0, job9, 1, 3, by decide +kernel⟩⟩

/-- States that meet the hypotheses of ExpertsAndDispatchers. -/
theorem witness_ExpertsAndDispatchers :
    (∃ (s : State) (sess : Nat) (q : Nat), (s.writeGuard sess 0x5200 2 = none) ∧ (q < 12) ∧ (s.jobState q ≠ 0) ∧ (s.jobState q ≠ 5)) ∧
    (∃ (s : State) (sess : Nat), (s.writeGuard sess 0x5200 2 = none) ∧ (∀ q, q < 12 → s.jobState q = 0 ∨ s.jobState q = 5) ∧ (∀ e, e < 4096 → xValid (s.obj 0x5200 1 e) = true → expertOk (s.obj 0x5200 1 e) = true) ∧ ((((s.objs 0x5200 1 4096).filter xValid).filter (fun e => s.isOwn (xDevice e))).length ≤ 512)) ∧
    (∃ (s : State) (q : Nat) (pos : Nat) (rows : Nat) (p : Packet) (st : Nat), (pos = (s.sequencerPos q).getD 0) ∧ ((s.disp q).parts = []) ∧ (soundPacket p) ∧ (s.tokenCheck rows p = st) ∧ (st ≠ stOk) ∧ ((s.disp q).held = [])) ∧
    (∃ (s : State) (q : Nat) (pos : Nat) (rows : Nat) (p : Packet), (pos = (s.sequencerPos q).getD 0) ∧ ((s.disp q).parts = []) ∧ (soundPacket p) ∧ ((s.disp q).held ≠ [])) ∧
    (∃ (s : State) (q : Nat) (pos : Nat) (rows : Nat) (p : Packet), (pos = (s.sequencerPos q).getD 0) ∧ ((s.disp q).parts = []) ∧ (soundPacket p) ∧ (s.tokenCheck rows p = stOk) ∧ ((s.disp q).held = []) ∧ (16384 < s.staged q + p.data.length)) := by
  exact ⟨⟨(obs [(0x501B, 0, 0, 3)] svc), 5, 11, by decide +kernel⟩,
    ⟨svc, 5, ⟨by decide +kernel, by decide +kernel, fun e he h => absurd h (by rw [experts_blank e he]; decide), by rw [experts_none]; decide⟩⟩,
    ⟨xst, 0, ((xst.sequencerPos 0).getD 0), 2, ({ tokenPacket with data := [] }), stBadValue, by simp only [soundPacket]; decide +kernel⟩,
    ⟨({ xst with disps := [(0, { held := [⟨1, 2, tokenPacket⟩] })] }), 0, ((xst.sequencerPos 0).getD 0), 2, tokenPacket, by simp only [soundPacket]; decide +kernel⟩,
    ⟨({ xst with disps := [(0, { tokens := (List.range 64).map (fun i => { id := i, pos := 0, logical := 0, rows := List.replicate 256 0, targets := [] }) })] }), 0, ((xst.sequencerPos 0).getD 0), 2, tokenPacket, by simp only [soundPacket]; decide +kernel⟩⟩

/-- States that meet the hypotheses of ExpertsAndDispatchers. -/
theorem witness_ExpertsAndDispatchers_2 :
    (∃ (s : State) (q : Nat) (pos : Nat) (rows : Nat) (p : Packet) (ds : List Row), (pos = (s.sequencerPos q).getD 0) ∧ ((s.disp q).parts = []) ∧ (soundPacket p) ∧ (s.tokenCheck rows p = stOk) ∧ ((s.disp q).held = []) ∧ (s.staged q + p.data.length ≤ 16384) ∧ (p.data.length < rows) ∧ (p.data.map decodeWord = ds.map Decoded.clean)) ∧
    (∃ (s : State) (q : Nat) (pos : Nat) (rows : Nat) (p : Packet) (e : Nat) (ds : List Row) (i : Instr), (pos = (s.sequencerPos q).getD 0) ∧ ((s.disp q).parts = []) ∧ (soundPacket p) ∧ ((s.disp q).tokens = []) ∧ (s.tokenCheck rows p = stOk) ∧ (i = .tokenRequest q ⟨rows, p⟩ ∧ (s.disp q).held = [] ∨ i = .stagingHoldRelease q ∧ (s.disp q).held = [⟨1, rows, p⟩]) ∧ (p.data.length ≤ 16384) ∧ (p.data.length = rows) ∧ (p.data.map decodeWord = ds.map Decoded.clean) ∧ (reqTargets ((reqRows p).headD 0).toNat = [e])) ∧
    (∃ (s : State) (q : Nat) (pos : Nat) (rows : Nat) (p : Packet) (e : Nat) (ds : List Row) (i : Instr), (pos = (s.sequencerPos q).getD 0) ∧ ((s.disp q).parts = []) ∧ (soundPacket p) ∧ ((s.disp q).tokens = []) ∧ (s.tokenCheck rows p = stOk) ∧ (i = .tokenRequest q ⟨rows, p⟩ ∧ (s.disp q).held = [] ∨ i = .stagingHoldRelease q ∧ (s.disp q).held = [⟨1, rows, p⟩]) ∧ (p.data.length ≤ 16384) ∧ (p.data.length = rows) ∧ (p.data.map decodeWord = ds.map Decoded.clean) ∧ (reqTargets ((reqRows p).headD 0).toNat = [e])) ∧
    (∃ (s : State) (q : Nat) (pos : Nat) (rows : Nat) (p : Packet), (pos = (s.sequencerPos q).getD 0) ∧ ((s.disp q).parts = []) ∧ (soundPacket p) ∧ ((s.disp q).held = [])) ∧
    (∃ (s : State) (q : Nat) (pos : Nat) (rows : Nat) (p : Packet), (pos = (s.sequencerPos q).getD 0) ∧ ((s.disp q).parts = []) ∧ (soundPacket p) ∧ (s.tokenCheck rows p = stOk) ∧ ((s.disp q).held = [⟨1, rows, p⟩]) ∧ (16384 < s.staged q + p.data.length)) := by
  exact ⟨⟨xst, 0, ((xst.sequencerPos 0).getD 0), 3, tokenPacket, ([BitVec.ofNat 256 (1 + 2 ^ 60 + 7 * 2 ^ 64), 5]), by simp only [soundPacket]; decide +kernel⟩,
    ⟨xst, 0, ((xst.sequencerPos 0).getD 0), 2, tokenPacket, 7, ([BitVec.ofNat 256 (1 + 2 ^ 60 + 7 * 2 ^ 64), 5]), (.tokenRequest 0 ⟨2, tokenPacket⟩), ⟨by decide +kernel, rfl, ⟨rfl, rfl⟩, rfl, by decide +kernel, .inl ⟨rfl, rfl⟩, by decide, by decide, by decide +kernel, by decide +kernel⟩⟩,
    ⟨({ xst with disps := [(0, { held := [⟨1, 2, tokenPacket⟩] })] }), 0, ((xst.sequencerPos 0).getD 0), 2, tokenPacket, 7, ([BitVec.ofNat 256 (1 + 2 ^ 60 + 7 * 2 ^ 64), 5]), (.stagingHoldRelease 0), ⟨by decide +kernel, rfl, ⟨rfl, rfl⟩, rfl, by decide +kernel, .inr ⟨rfl, rfl⟩, by decide, by decide, by decide +kernel, by decide +kernel⟩⟩,
    ⟨xst, 0, ((xst.sequencerPos 0).getD 0), 2, tokenPacket, by simp only [soundPacket]; decide +kernel⟩,
    ⟨({ xst with disps := [(0, { tokens := (List.range 64).map (fun i => { id := i, pos := 0, logical := 0, rows := List.replicate 256 0, targets := [] }), held := [⟨1, 2, tokenPacket⟩] })] }), 0, ((xst.sequencerPos 0).getD 0), 2, tokenPacket, by simp only [soundPacket]; decide +kernel⟩⟩

/-- States that meet the hypotheses of ExpertsAndDispatchers. -/
theorem witness_ExpertsAndDispatchers_3 :
    (∃ (s : State) (m : CtrlMsg), (xValid (s.expert (mExpert m)) = false ∨ s.isOwn (xDevice (s.expert (mExpert m))) = false) ∧ (ctrlOk 0x10 m = true)) ∧
    (∃ (s : State) (m : CtrlMsg) (q : Nat) (n : Nat), (xValid (s.expert (mExpert m)) = true) ∧ (s.isOwn (xDevice (s.expert (mExpert m))) = true) ∧ (s.expertPartition (mExpert m) = some q) ∧ (s.jobId q = mJob m) ∧ (s.physicalOf q (xIntake (s.expert (mExpert m))) = some n) ∧ (s.tileState n ≠ 5) ∧ ((s.disp q).taken = []) ∧ ((s.disp q).tokens = []) ∧ ((s.disp q).parts = []) ∧ (∀ r, r ∈ (s.disp q).queue → r.expert ≠ mExpert m) ∧ (ctrlOk 0x10 m = true) ∧ (0 < xSlots (s.expert (mExpert m)))) ∧
    (∃ (s : State) (q : Nat) (resId : Nat) (device : Nat) (part : Nat) (m : CtrlMsg) (rows : List Row), (s.tokenOfRes q resId = none) ∧ (mPart m = q) ∧ (mRes m = resId)) ∧
    (∃ (s : State) (q : Nat) (resId : Nat) (device : Nat) (part : Nat) (m : CtrlMsg) (rows : List Row), (s.tokenOfRes q resId = none) ∧ ((s.disp q).taken = [])) ∧
    (∃ (s : State) (q : Nat) (resId : Nat) (device : Nat) (part : Nat) (m : CtrlMsg) (rows : List Row), (s.tokenOfRes q resId = none)) := by
  exact ⟨⟨xst, ({ mtype := 0x10, src := 4, body := BitVec.ofNat 224 (8 * 2 ^ 180) }), by decide +kernel⟩,
    ⟨xst, ({ mtype := 0x10, src := 4, body := BitVec.ofNat 224 (11 * 2 ^ 192 + 7 * 2 ^ 180 + 9 * 2 ^ 164) }), 0, 0, by decide +kernel⟩,
    ⟨xst, 0, 11, 0, 0, ({ mtype := 0x11, src := 4, body := BitVec.ofNat 224 (11 * 2 ^ 192 + 7 * 2 ^ 180 + 9 * 2 ^ 164) }), {}, by decide +kernel⟩,
    ⟨xst, 0, 11, 0, 0, {}, [1], by decide +kernel⟩,
    ⟨xst, 0, 11, 0, 0, {}, {}, by decide +kernel⟩⟩

/-- States that meet the hypotheses of ExpertsAndDispatchers. -/
theorem witness_ExpertsAndDispatchers_4 :
    (∃ (s : State) (m : CtrlMsg), (∀ q, q < 12 → (s.disp q).taken = [] ∧ (s.disp q).queue = [])) ∧
    (∃ (s : State) (q : Nat) (token : Nat), (∀ k, s.token q token = some k → s.elapsed < k.began + s.castLimit q)) ∧
    (∃ (s : State) (q : Nat) (k : Token) (x : Target) (m : CtrlMsg), ((s.disp q).tokens = [k]) ∧ (k.targets = [x]) ∧ (k.unicast = false) ∧ (x.st = .asked) ∧ (ctrlOk 0x11 m = true) ∧ (mPart m = q) ∧ (mRes m = x.resId) ∧ (s.isOwn (xDevice (s.expert x.expert)) = true)) ∧
    (∃ (s : State) (q : Nat) (k : Token) (x : Target) (m : CtrlMsg), ((s.disp q).tokens = [k]) ∧ (k.targets = [x]) ∧ (k.unicast = false) ∧ (x.st = .asked) ∧ (ctrlOk 0x13 m = true) ∧ (mPart m = q) ∧ (mRes m = x.resId) ∧ (mStatus m = stNoCredit)) ∧
    (∃ (s : State) (q : Nat) (k : Token) (x : Target), ((s.disp q).tokens = [k]) ∧ (k.targets = [x]) ∧ (k.unicast = false) ∧ (x.st = .retry) ∧ (x.retry ≤ s.elapsed)) := by
  exact ⟨⟨xst, ({ mtype := 0x12, src := 4, body := BitVec.ofNat 224 (11 * 2 ^ 192 + 7 * 2 ^ 180 + 9 * 2 ^ 164) }), by decide +kernel⟩,
    ⟨xst, 0, 3, by decide +kernel⟩,
    ⟨(tst .asked), 0, (token1 .asked), ({ expert := 7, resId := 11, st := .asked }), ({ mtype := 0x11, body := BitVec.ofNat 224 (11 * 2 ^ 192 + 2 ^ 142) }), by decide +kernel⟩,
    ⟨(tst .asked), 0, (token1 .asked), ({ expert := 7, resId := 11, st := .asked }), ({ mtype := 0x13, body := BitVec.ofNat 224 (11 * 2 ^ 192 + stNoCredit * 2 ^ 134) }), by decide +kernel⟩,
    ⟨(tst .retry), 0, (token1 .retry), ({ expert := 7, resId := 11, st := .retry }), by decide +kernel⟩⟩

/-- States that meet the hypotheses of ExpertsAndDispatchers. -/
theorem witness_ExpertsAndDispatchers_5 :
    (∃ (s : State) (q : Nat) (k : Token) (x : Target), ((s.disp q).tokens = [k]) ∧ (k.targets = [x]) ∧ (k.unicast = false) ∧ (x.st = .asked) ∧ (k.began + s.castLimit q ≤ s.elapsed)) ∧
    (∃ (s : State) (q : Nat) (k : Token) (x : Target), ((s.disp q).tokens = [k]) ∧ (k.targets = [x]) ∧ (k.unicast = false) ∧ (x.st = .launched) ∧ ((s.disp q).queue = [])) ∧
    (∃ (s : State) (q : Nat) (n : Nat) (r : Taken) (h : Row) (rest : List Row), ((s.disp q).taken = [r]) ∧ ((s.disp q).queue = []) ∧ (r.landed = false) ∧ (s.physicalOf q (xIntake (s.expert r.expert)) = some n) ∧ ((h :: rest).length ≤ 8)) ∧
    (∃ (s : State) (q : Nat) (n : Nat) (r : Taken) (m : CtrlMsg), ((s.disp q).taken = [r]) ∧ ((s.disp q).queue = []) ∧ (q < 12) ∧ (ctrlOk 0x12 m = true) ∧ (∀ j, j < q → (s.disp j).taken = [] ∧ (s.disp j).queue = []) ∧ (mRes m = r.resId) ∧ (m.src = r.device) ∧ (mPart m = r.part) ∧ (mExpert m = r.expert)) ∧
    (∃ (s : State) (q : Nat) (n : Nat) (r : Taken) (p : Packet) (v : Row), ((s.disp q).taken = [r]) ∧ ((s.disp q).queue = []) ∧ (soundPacket p) ∧ ((s.disp q).held = []) ∧ (commonOk p = true) ∧ (p.data.map decodeWord = [Decoded.clean v]) ∧ (s.releaseOk q v.toNat = true)) := by
  exact ⟨⟨({ tst .asked with elapsed := 2 ^ 20 }), 0, (token1 .asked), ({ expert := 7, resId := 11, st := .asked }), by decide +kernel⟩,
    ⟨(tst .launched), 0, (token1 .launched), ({ expert := 7, resId := 11, st := .launched }), by decide +kernel⟩,
    ⟨({ xst with disps := [(0, { taken := [{ expert := 7, device := 4, part := 2, resId := 11, job := 9 }] })] }), 0, 0, ({ expert := 7, device := 4, part := 2, resId := 11, job := 9 }), 1, [5], by decide +kernel⟩,
    ⟨({ xst with disps := [(0, { taken := [{ expert := 7, device := 4, part := 2, resId := 11, job := 9 }] })] }), 0, 0, ({ expert := 7, device := 4, part := 2, resId := 11, job := 9 }), ({ src := 4, body := BitVec.ofNat 224 (11 * 2 ^ 192 + 7 * 2 ^ 180 + 2 * 2 ^ 160) }), by decide +kernel⟩,
    ⟨({ xst with disps := [(0, { taken := [{ expert := 7, device := 4, part := 2, resId := 11, job := 9 }] })] }), 0, 0, ({ expert := 7, device := 4, part := 2, resId := 11, job := 9 }), ({ data := [encodeRow (BitVec.ofNat 256 (2 + 7 * 2 ^ 16))] }), (BitVec.ofNat 256 (2 + 7 * 2 ^ 16)), by simp only [soundPacket]; decide +kernel⟩⟩

/-- States that meet the hypotheses of ExpertsAndDispatchers. -/
theorem witness_ExpertsAndDispatchers_6 :
    (∃ (s : State) (q : Nat) (rows : Nat) (p : Packet) (h : Row), (soundPacket p) ∧ ((s.disp q).held = []) ∧ (s.isOwn p.srcDevice = true) ∧ (p.data.map decodeWord = [Decoded.clean h]) ∧ (rows ≠ 1 ∨ commonOk p = false ∨ reqKind h.toNat ≠ 3 ∨ s.headerOk h.toNat = false)) ∧
    (∃ (s : State) (q : Nat) (rows : Nat) (p : Packet) (h : Row), (soundPacket p) ∧ ((s.disp q).held = []) ∧ (s.isOwn p.srcDevice = true) ∧ (p.data.map decodeWord = [Decoded.clean h]) ∧ (rows = 1) ∧ (commonOk p = true) ∧ (reqKind h.toNat = 3) ∧ (s.headerOk h.toNat = true) ∧ ((s.disp q).tokens = []) ∧ ((s.disp q).parts = []) ∧ (∀ e, e ∈ reqTargets h.toNat → xRows (s.expert e) = 0)) ∧
    (∃ (s : State) (q : Nat) (rows : Nat) (p : Packet) (h : Row) (e : Nat) (x : Nat) (a : Nat) (k : Nat) (srv : Server), (soundPacket p) ∧ ((s.disp q).held = []) ∧ (s.isOwn p.srcDevice = true) ∧ (p.data.map decodeWord = [Decoded.clean h]) ∧ (rows = 1) ∧ (commonOk p = true) ∧ (reqKind h.toNat = 3) ∧ (s.headerOk h.toNat = true) ∧ ((s.disp q).tokens = []) ∧ ((s.disp q).parts = []) ∧ (reqTargets h.toNat = [e]) ∧ (s.isOwn (xDevice (s.expert e)) = true) ∧ (s.expertPartition e = some x) ∧ (hintReads (s.expert e) = [(a, k)]) ∧ (srv = (s.memPlace x 1 (farOffset a)).1) ∧ ((s.server srv).dead = false) ∧ (s.holdFull x e = false)) := by
  exact ⟨⟨xst, 0, 1, ({ data := [encodeRow 2] }), 2, by simp only [soundPacket]; decide +kernel⟩,
    ⟨xst, 0, 1, ({ data := [encodeRow (BitVec.ofNat 256 (3 + 2 ^ 60 + 7 * 2 ^ 64))] }), (BitVec.ofNat 256 (3 + 2 ^ 60 + 7 * 2 ^ 64)), by simp only [soundPacket]; decide +kernel⟩,
    ⟨({ xst with experts := [(7, ent7 + 8 * 2 ^ 176)] }), 0, 1, ({ data := [encodeRow (BitVec.ofNat 256 (3 + 2 ^ 60 + 7 * 2 ^ 64))] }), (BitVec.ofNat 256 (3 + 2 ^ 60 + 7 * 2 ^ 64)), 7, 0, (2 ^ 62), 8, (({ xst with experts := [(7, ent7 + 8 * 2 ^ 176)] }.memPlace 0 1 0).1), by simp only [soundPacket]; decide +kernel⟩⟩

/-- States that meet the hypotheses of ContextsPoolsAndPages. -/
theorem witness_ContextsPoolsAndPages :
    (∃ (s : State) (sess : Nat) (op : Nat) (v : BitVec 256) (i : Instr), (s.writeGuard sess 0x3400 2 = none) ∧ (op = 1 ∧ i = .ctxOpen sess v ∨ op = 2 ∧ i = .ctxClose sess v ∨ op = 3 ∧ i = .ctxSetPosition sess v ∨ op = 4 ∧ i = .ctxSetPriority sess v ∨ op = 5 ∧ i = .ctxPin sess v ∨ op = 6 ∧ i = .ctxUnpin sess v ∨ op = 7 ∧ i = .ctxPromote sess v ∨ op = 8 ∧ i = .ctxDemote sess v ∨ op = 9 ∧ i = .ctxRead sess v) ∧ (ctxFieldsOk v.toNat op = false)) ∧
    (∃ (s : State) (sess : Nat) (op : Nat) (v : BitVec 256) (i : Instr), (s.writeGuard sess 0x3400 2 = none) ∧ (op = 1 ∧ i = .ctxOpen sess v ∨ op = 2 ∧ i = .ctxClose sess v ∨ op = 3 ∧ i = .ctxSetPosition sess v ∨ op = 4 ∧ i = .ctxSetPriority sess v ∨ op = 5 ∧ i = .ctxPin sess v ∨ op = 6 ∧ i = .ctxUnpin sess v ∨ op = 7 ∧ i = .ctxPromote sess v ∨ op = 8 ∧ i = .ctxDemote sess v ∨ op = 9 ∧ i = .ctxRead sess v) ∧ (ctxFieldsOk v.toNat op = false)) ∧
    (∃ (s : State) (sess : Nat) (op : Nat) (v : BitVec 256) (i : Instr), (s.writeGuard sess 0x3400 2 = none) ∧ (op = 1 ∧ i = .ctxOpen sess v ∨ op = 2 ∧ i = .ctxClose sess v ∨ op = 3 ∧ i = .ctxSetPosition sess v ∨ op = 4 ∧ i = .ctxSetPriority sess v ∨ op = 5 ∧ i = .ctxPin sess v ∨ op = 6 ∧ i = .ctxUnpin sess v ∨ op = 7 ∧ i = .ctxPromote sess v ∨ op = 8 ∧ i = .ctxDemote sess v ∨ op = 9 ∧ i = .ctxRead sess v) ∧ (ctxFieldsOk v.toNat op = true) ∧ (op ≠ 1) ∧ ((s.ctx (ctxSlot v.toNat)).st = .free)) ∧
    (∃ (s : State) (sess : Nat) (op : Nat) (v : BitVec 256) (i : Instr), (s.writeGuard sess 0x3400 2 = none) ∧ (op = 1 ∧ i = .ctxOpen sess v ∨ op = 2 ∧ i = .ctxClose sess v ∨ op = 3 ∧ i = .ctxSetPosition sess v ∨ op = 4 ∧ i = .ctxSetPriority sess v ∨ op = 5 ∧ i = .ctxPin sess v ∨ op = 6 ∧ i = .ctxUnpin sess v ∨ op = 7 ∧ i = .ctxPromote sess v ∨ op = 8 ∧ i = .ctxDemote sess v ∨ op = 9 ∧ i = .ctxRead sess v) ∧ (op ≠ 1)) ∧
    (∃ (s : State) (sess : Nat) (slot : Nat) (q : Nat) (v : BitVec 256), (s.writeGuard sess 0x3400 2 = none) ∧ (ctxFieldsOk v.toNat 1 = true) ∧ (slot = ctxSlot v.toNat) ∧ (q = fieldOf v.toNat 132 4) ∧ (q ≤ 11) ∧ ((s.pool q).applied = true) ∧ ((s.ctx slot).st = .free) ∧ ((s.pool q).hbm.front = []) ∧ ((s.pool q).hbm.back = []) ∧ ((s.pool q).hbm.next + 2 ≤ (s.pool q).hbm.size) ∧ (s.spans = [])) := by
  exact ⟨⟨svc, 5, 1, (BitVec.ofNat 256 (2 ^ 136)), (.ctxOpen 5 (BitVec.ofNat 256 (2 ^ 136))), ⟨by decide +kernel, .inl ⟨rfl, rfl⟩, by decide +kernel⟩⟩,
    ⟨svc, 5, 9, (BitVec.ofNat 256 (2 ^ 136)), (.ctxRead 5 (BitVec.ofNat 256 (2 ^ 136))), ⟨by decide +kernel, .inr (.inr (.inr (.inr (.inr (.inr (.inr (.inr (⟨rfl, rfl⟩)))))))), by decide +kernel⟩⟩,
    ⟨svc, 5, 5, (BitVec.ofNat 256 (3 * 2 ^ 142)), (.ctxPin 5 (BitVec.ofNat 256 (3 * 2 ^ 142))), ⟨by decide +kernel, .inr (.inr (.inr (.inr (.inl ⟨rfl, rfl⟩)))), by decide +kernel, by decide, by decide +kernel⟩⟩,
    ⟨svc, 5, 2, (BitVec.ofNat 256 (3 * 2 ^ 142)), (.ctxClose 5 (BitVec.ofNat 256 (3 * 2 ^ 142))), ⟨by decide +kernel, .inr (.inl ⟨rfl, rfl⟩), by decide⟩⟩,
    ⟨({ svc with pools := [(2, { applied := true, hbm := { size := 4 }, ddr := { size := 0 } })] }), 5, 3, 2, (BitVec.ofNat 256 (3 * 2 ^ 142 + 2 * 2 ^ 132 + 6 * 2 ^ 160 + 7 * 2 ^ 192)), by decide +kernel⟩⟩

/-- States that meet the hypotheses of ContextsPoolsAndPages. -/
theorem witness_ContextsPoolsAndPages_2 :
    (∃ (s : State) (sess : Nat) (slot : Nat) (v : BitVec 256) (c : Ctx), (s.writeGuard sess 0x3400 2 = none) ∧ (slot = ctxSlot v.toNat) ∧ (c = s.ctx slot) ∧ (ctxFieldsOk v.toNat 2 = true) ∧ (c.st = .idle)) ∧
    (∃ (s : State) (sess : Nat) (slot : Nat) (v : BitVec 256) (c : Ctx), (s.writeGuard sess 0x3400 2 = none) ∧ (slot = ctxSlot v.toNat) ∧ (c = s.ctx slot) ∧ (ctxFieldsOk v.toNat 2 = true) ∧ (c.st = .active)) ∧
    (∃ (s : State) (sess : Nat) (slot : Nat) (v : BitVec 256) (c : Ctx), (s.writeGuard sess 0x3400 2 = none) ∧ (slot = ctxSlot v.toNat) ∧ (c = s.ctx slot) ∧ (c.st = .idle ∨ c.st = .active) ∧ (ctxFieldsOk v.toNat 3 = true)) ∧
    (∃ (s : State) (sess : Nat) (slot : Nat) (v : BitVec 256) (c : Ctx), (s.writeGuard sess 0x3400 2 = none) ∧ (slot = ctxSlot v.toNat) ∧ (c = s.ctx slot) ∧ (c.st = .idle ∨ c.st = .active) ∧ (ctxFieldsOk v.toNat 3 = true)) ∧
    (∃ (s : State) (sess : Nat) (slot : Nat) (v : BitVec 256) (c : Ctx), (s.writeGuard sess 0x3400 2 = none) ∧ (slot = ctxSlot v.toNat) ∧ (c = s.ctx slot) ∧ (c.st = .idle ∨ c.st = .active) ∧ (ctxFieldsOk v.toNat 3 = true)) := by
  exact ⟨⟨({ svc with pools := [(2, { applied := true, hbm := { size := 4 }, ddr := { size := 0 } })], ctxs := [(3, { st := .idle, position := 5, tenant := 6, partition := 2 })] }), 5, 3, (BitVec.ofNat 256 (3 * 2 ^ 142)), ({ st := .idle, position := 5, tenant := 6, partition := 2 }), by decide +kernel⟩,
    ⟨({ svc with pools := [(2, { applied := true, hbm := { size := 4 }, ddr := { size := 0 } })], ctxs := [(3, { st := .active, position := 5, tenant := 6, partition := 2 })] }), 5, 3, (BitVec.ofNat 256 (3 * 2 ^ 142)), ({ st := .active, position := 5, tenant := 6, partition := 2 }), by decide +kernel⟩,
    ⟨({ svc with pools := [(2, { applied := true, hbm := { size := 4 }, ddr := { size := 0 } })], ctxs := [(3, { st := .idle, position := 5, tenant := 6, partition := 2 })] }), 5, 3, (BitVec.ofNat 256 (3 * 2 ^ 142 + 16384 * 2 ^ 192)), ({ st := .idle, position := 5, tenant := 6, partition := 2 }), by decide +kernel⟩,
    ⟨({ svc with pools := [(2, { applied := true, hbm := { size := 4 }, ddr := { size := 0 } })], ctxs := [(3, { st := .active, position := 5, tenant := 6, partition := 2 })] }), 5, 3, (BitVec.ofNat 256 (3 * 2 ^ 142 + 4 * 2 ^ 192)), ({ st := .active, position := 5, tenant := 6, partition := 2 }), by decide +kernel⟩,
    ⟨({ svc with pools := [(2, { applied := true, hbm := { size := 4 }, ddr := { size := 0 } })], ctxs := [(3, { st := .active, position := 5, tenant := 6, partition := 2 })] }), 5, 3, (BitVec.ofNat 256 (3 * 2 ^ 142 + 5 * 2 ^ 192)), ({ st := .active, position := 5, tenant := 6, partition := 2 }), by decide +kernel⟩⟩

/-- States that meet the hypotheses of ContextsPoolsAndPages. -/
theorem witness_ContextsPoolsAndPages_3 :
    (∃ (s : State) (sess : Nat) (slot : Nat) (v : BitVec 256) (c : Ctx), (s.writeGuard sess 0x3400 2 = none) ∧ (slot = ctxSlot v.toNat) ∧ (c = s.ctx slot) ∧ (c.st = .idle ∨ c.st = .active) ∧ (ctxFieldsOk v.toNat 3 = true)) ∧
    (∃ (s : State) (sess : Nat) (slot : Nat) (v : BitVec 256) (c : Ctx), (s.writeGuard sess 0x3400 2 = none) ∧ (slot = ctxSlot v.toNat) ∧ (c = s.ctx slot) ∧ (c.st = .idle ∨ c.st = .active) ∧ (ctxFieldsOk v.toNat 4 = true)) ∧
    (∃ (s : State) (sess : Nat) (slot : Nat) (v : BitVec 256) (c : Ctx), (s.writeGuard sess 0x3400 2 = none) ∧ (slot = ctxSlot v.toNat) ∧ (c = s.ctx slot) ∧ (c.st = .idle ∨ c.st = .active) ∧ (ctxFieldsOk v.toNat 5 = true)) ∧
    (∃ (s : State) (sess : Nat) (slot : Nat) (v : BitVec 256) (c : Ctx), (s.writeGuard sess 0x3400 2 = none) ∧ (slot = ctxSlot v.toNat) ∧ (c = s.ctx slot) ∧ (c.st = .idle ∨ c.st = .active) ∧ (ctxFieldsOk v.toNat 6 = true)) ∧
    (∃ (s : State) (sess : Nat) (slot : Nat) (v : BitVec 256) (c : Ctx), (s.writeGuard sess 0x3400 2 = none) ∧ (slot = ctxSlot v.toNat) ∧ (c = s.ctx slot) ∧ (c.st = .idle ∨ c.st = .active) ∧ (ctxFieldsOk v.toNat 7 = true)) := by
  exact ⟨⟨({ svc with pools := [(2, { applied := true, hbm := { size := 4 }, ddr := { size := 0 } })], ctxs := [(3, { st := .active, position := 5, tenant := 6, partition := 2 })] }), 5, 3, (BitVec.ofNat 256 (3 * 2 ^ 142 + 16385 * 2 ^ 192)), ({ st := .active, position := 5, tenant := 6, partition := 2 }), by decide +kernel⟩,
    ⟨({ svc with pools := [(2, { applied := true, hbm := { size := 4 }, ddr := { size := 0 } })], ctxs := [(3, { st := .active, position := 5, tenant := 6, partition := 2 })] }), 5, 3, (BitVec.ofNat 256 (3 * 2 ^ 142 + 255 * 2 ^ 192)), ({ st := .active, position := 5, tenant := 6, partition := 2 }), by decide +kernel⟩,
    ⟨({ svc with pools := [(2, { applied := true, hbm := { size := 4 }, ddr := { size := 0 } })], ctxs := [(3, { st := .idle, position := 5, tenant := 6, partition := 2 })] }), 5, 3, (BitVec.ofNat 256 (3 * 2 ^ 142)), ({ st := .idle, position := 5, tenant := 6, partition := 2 }), by decide +kernel⟩,
    ⟨({ svc with pools := [(2, { applied := true, hbm := { size := 4 }, ddr := { size := 0 } })], ctxs := [(3, { st := .idle, position := 5, tenant := 6, partition := 2, pinned := true })] }), 5, 3, (BitVec.ofNat 256 (3 * 2 ^ 142)), ({ st := .idle, position := 5, tenant := 6, partition := 2, pinned := true }), by decide +kernel⟩,
    ⟨({ svc with pools := [(2, { applied := true, hbm := { size := 4 }, ddr := { size := 0 } })], ctxs := [(3, { st := .idle, position := 5, tenant := 6, partition := 2 })] }), 5, 3, (BitVec.ofNat 256 (3 * 2 ^ 142)), ({ st := .idle, position := 5, tenant := 6, partition := 2 }), by decide +kernel⟩⟩

/-- States that meet the hypotheses of ContextsPoolsAndPages. -/
theorem witness_ContextsPoolsAndPages_4 :
    (∃ (s : State) (sess : Nat) (slot : Nat) (v : BitVec 256) (c : Ctx), (s.writeGuard sess 0x3400 2 = none) ∧ (slot = ctxSlot v.toNat) ∧ (c = s.ctx slot) ∧ (ctxFieldsOk v.toNat 8 = true) ∧ (c.st ≠ .free) ∧ ((s.pool c.partition).ddr.size = 0)) ∧
    (∃ (s : State) (sess : Nat) (slot : Nat) (v : BitVec 256) (c : Ctx), (s.writeGuard sess 0x3400 2 = none) ∧ (slot = ctxSlot v.toNat) ∧ (c = s.ctx slot) ∧ (ctxFieldsOk v.toNat 8 = true) ∧ (c.st ≠ .free) ∧ ((s.pool c.partition).ddr.size ≠ 0) ∧ (c.st ≠ .idle ∨ c.pinned = true)) ∧
    (∃ (s : State) (sess : Nat) (slot : Nat) (v : BitVec 256) (c : Ctx), (s.writeGuard sess 0x3400 2 = none) ∧ (slot = ctxSlot v.toNat) ∧ (c = s.ctx slot) ∧ (ctxFieldsOk v.toNat 8 = true) ∧ (c.st ≠ .free) ∧ ((s.pool c.partition).ddr.size ≠ 0) ∧ (c.st ≠ .idle ∨ c.pinned = true)) ∧
    (∃ (s : State) (sess : Nat) (slot : Nat) (v : BitVec 256) (c : Ctx), (s.writeGuard sess 0x3400 2 = none) ∧ (slot = ctxSlot v.toNat) ∧ (c = s.ctx slot) ∧ (ctxFieldsOk v.toNat 8 = true) ∧ (c.st = .idle) ∧ ((s.pool c.partition).ddr.size ≠ 0) ∧ (c.pinned = false)) ∧
    (∃ (s : State) (sess : Nat) (slot : Nat) (v : BitVec 256) (c : Ctx), (s.writeGuard sess 0x3400 2 = none) ∧ (slot = ctxSlot v.toNat) ∧ (c = s.ctx slot) ∧ (ctxFieldsOk v.toNat 9 = true) ∧ (c.st ≠ .free)) := by
  exact ⟨⟨({ svc with pools := [(2, { applied := true, hbm := { size := 4 }, ddr := { size := 0 } })], ctxs := [(3, { st := .idle, position := 5, tenant := 6, partition := 2 })] }), 5, 3, (BitVec.ofNat 256 (3 * 2 ^ 142)), ({ st := .idle, position := 5, tenant := 6, partition := 2 }), by decide +kernel⟩,
    ⟨({ svc with pools := [(2, { applied := true, hbm := { size := 4 }, ddr := { size := 4 } })], ctxs := [(3, { st := .active, position := 5, tenant := 6, partition := 2 })] }), 5, 3, (BitVec.ofNat 256 (3 * 2 ^ 142)), ({ st := .active, position := 5, tenant := 6, partition := 2 }), by decide +kernel⟩,
    ⟨({ svc with pools := [(2, { applied := true, hbm := { size := 4 }, ddr := { size := 4 } })], ctxs := [(3, { st := .idle, position := 5, tenant := 6, partition := 2, pinned := true })] }), 5, 3, (BitVec.ofNat 256 (3 * 2 ^ 142)), ({ st := .idle, position := 5, tenant := 6, partition := 2, pinned := true }), by decide +kernel⟩,
    ⟨({ svc with pools := [(2, { applied := true, hbm := { size := 4 }, ddr := { size := 4 } })], ctxs := [(3, { st := .idle, position := 5, tenant := 6, partition := 2 })] }), 5, 3, (BitVec.ofNat 256 (3 * 2 ^ 142)), ({ st := .idle, position := 5, tenant := 6, partition := 2 }), by decide +kernel⟩,
    ⟨({ svc with pools := [(2, { applied := true, hbm := { size := 4 }, ddr := { size := 0 } })], ctxs := [(3, { st := .closing, position := 5, tenant := 6, partition := 2 })] }), 5, 3, (BitVec.ofNat 256 (3 * 2 ^ 142)), ({ st := .closing, position := 5, tenant := 6, partition := 2 }), by decide +kernel⟩⟩

/-- States that meet the hypotheses of ContextsPoolsAndPages. -/
theorem witness_ContextsPoolsAndPages_5 :
    (∃ (s : State) (sess : Nat) (q : Nat), (q < 12) ∧ (s.writeGuard sess (0x3410 + q) 6 = none) ∧ (s.jobState q ≠ 0 ∨ (∃ e, e ∈ s.ctxs ∧ e.2.st ≠ .free ∧ e.2.partition = q))) ∧
    (∃ (s : State) (sess : Nat) (q : Nat), (q < 12) ∧ (s.writeGuard sess (0x3410 + q) 6 = none) ∧ (s.jobState q ≠ 0 ∨ (∃ e, e ∈ s.ctxs ∧ e.2.st ≠ .free ∧ e.2.partition = q))) ∧
    (∃ (s : State) (sess : Nat) (q : Nat), (q < 12) ∧ (s.writeGuard sess (0x3410 + q) 6 = none) ∧ (s.jobState q = 0) ∧ (∀ e, e ∈ s.ctxs → e.2.st = .free ∨ e.2.partition ≠ q) ∧ (s.windowLost q = false) ∧ (s.obj (0x3410 + q) 0 % 65536 = 0) ∧ (s.obj (0x3410 + q) 0 + 65536 * s.obj (0x3410 + q) 1 ≤ s.obj (0x3410 + q) 4) ∧ (s.obj (0x3410 + q) 2 % 65536 = 0) ∧ (s.obj (0x3410 + q) 3 = 0) ∧ (s.obj (0x3410 + q) 4 % 32 = 0) ∧ (s.obj (0x3410 + q) 4 + 262144 ≤ (s.cfg q).hbmSize) ∧ (s.obj (0x3410 + q) 5 % 32 = 0) ∧ (32 ≤ s.obj (0x3410 + q) 5) ∧ (s.obj (0x3410 + q) 5 ≤ 32768) ∧ ((s.cfg q).tenant = 0) ∧ (s.pagers = [])) ∧
    (∃ (s : State) (q : Nat) (id : Nat), (∀ m, m ∈ (s.pager q).flight → m.id ≠ id)) ∧
    (∃ (s : State) (q : Nat) (i : Nat) (m : PageMove), (q < 12) ∧ ((s.pager q).flight = [m]) ∧ (m.kind = .background) ∧ (m.page = 0) ∧ (m.dst = some i) ∧ (s.job q = none) ∧ ((s.pager q).queue = []) ∧ (∀ e, e ∈ s.ctxs → e.2.partition ≠ q)) := by
  exact ⟨⟨(obs [(0x501B, 0, 0, 1)] svc), 5, 11, ⟨by decide, by decide +kernel, .inl (by decide +kernel)⟩⟩,
    ⟨({ svc with pools := [(2, { applied := true, hbm := { size := 4 }, ddr := { size := 0 } })], ctxs := [(3, { st := .idle, position := 5, tenant := 6, partition := 2 })] }), 5, 2, ⟨by decide, by decide +kernel, .inr ⟨_, List.mem_singleton_self _, by decide, rfl⟩⟩⟩,
    ⟨({ obs [(0x3410, 1, 0, 2), (0x3410, 4, 0, 0x40000), (0x3410, 5, 0, 32768)] svc with cfgs := [(0, { clusters := 1, hbmBase := 2 ^ 31, hbmSize := 2 ^ 20 })] }), 5, 0, by decide +kernel⟩,
    ⟨svc, 0, 1, by intro m h; cases h⟩,
    ⟨({ svc with cfgs := [(0, { clusters := 1, hbmBase := 2 ^ 31, hbmSize := 2 ^ 20 })], pools := [(0, { applied := true, hbm := { size := 4 }, ddr := { size := 0 } })], pagers := [(0, { flight := [{ id := 4, kind := .background, slot := 0, page := 0, src := 0, dst := some 1, cls := 3 }] })] }), 0, 1, ({ id := 4, kind := .background, slot := 0, page := 0, src := 0, dst := some 1, cls := 3 }), by decide +kernel⟩⟩

/-- States that meet the hypotheses of ContextsPoolsAndPages. -/
theorem witness_ContextsPoolsAndPages_6 :
    (∃ (s : State) (slot : Nat), ((s.ctx slot).st ≠ .releasing)) ∧
    (∃ (s : State) (slot : Nat) (c : Ctx), (c = s.ctx slot) ∧ (c.st = .releasing) ∧ ((s.pager c.partition).flight = []) ∧ (c.pages = 0) ∧ (c.mapEntry = 0) ∧ (c.commitEntry = 0) ∧ (c.opens = none)) ∧
    (∃ (s : State) (q : Nat), (s.pinQueue.head? ≠ some q)) ∧
    (∃ (s : State) (q : Nat) (rest : List Nat) (j : Job) (e : Entry), (s.pinQueue = q :: rest) ∧ (s.job q = some j) ∧ (j.entry = some e) ∧ (s.pinsHeld + e.lanes ≤ 8192)) := by
  exact ⟨⟨svc, 3, by decide +kernel⟩,
    ⟨({ svc with pools := [(2, { applied := true, hbm := { size := 4 }, ddr := { size := 0 } })], ctxs := [(3, { st := .releasing, position := 5, tenant := 6, partition := 2 })] }), 3, ({ st := .releasing, position := 5, tenant := 6, partition := 2 }), by decide +kernel⟩,
    ⟨svc, 3, by decide +kernel⟩,
    ⟨({ jst ({ job9 with entry := some { key := 0, lanes := 2, laneList := 0, endAfter := false, args := [] }, pins := true }) with pinQueue := [0] }), 0, {}, ({ job9 with entry := some { key := 0, lanes := 2, laneList := 0, endAfter := false, args := [] }, pins := true }), ({ key := 0, lanes := 2, laneList := 0, endAfter := false, args := [] }), by decide +kernel⟩⟩

/-- States that meet the hypotheses of ServicesAreConfiguredStartedAndFed. -/
theorem witness_ServicesAreConfiguredStartedAndFed :
    (∃ (s : State) (sess : Nat) (n : Nat), (n < 16) ∧ (s.writeGuard sess (0x9100 + n) 0xF = none)) ∧
    (∃ (s : State) (sess : Nat) (n : Nat), (n < 16) ∧ (s.writeGuard sess (0x9100 + n) 0xF = none)) ∧
    (∃ (s : State) (sess : Nat) (n : Nat), (n < 16) ∧ (s.writeGuard sess (0x9100 + n) 0xF = none)) ∧
    (∃ (s : State) (sess : Nat) (n : Nat), (n < 16) ∧ (s.writeGuard sess (0x9100 + n) 0xF = none)) ∧
    (∃ (s : State) (sess : Nat) (n : Nat), (n < 16) ∧ (s.writeGuard sess (0x9100 + n) 0xF = none)) := by
  exact ⟨⟨(ssv 0 {}), 5, 0, by decide +kernel⟩,
    ⟨(ssv 2 {}), 5, 0, by decide +kernel⟩,
    ⟨(obs [(0x910F, 1, 0, 1), (0x910F, 3, 0, 2 ^ 40)] svc), 5, 15, by decide +kernel⟩,
    ⟨(obs [(0x9100, 1, 0, 1), (0x9100, 3, 0, 0)] { svc with cfgs := [(0, { clusters := 1, hbmBase := 2 ^ 31, hbmSize := 2 ^ 24 })] }), 5, 0, by decide +kernel⟩,
    ⟨(ssv 0 { cfg := langCfg }), 5, 0, by decide +kernel⟩⟩

/-- States that meet the hypotheses of ServicesAreConfiguredStartedAndFed. -/
theorem witness_ServicesAreConfiguredStartedAndFed_2 :
    (∃ (s : State) (sess : Nat) (n : Nat), (n < 16) ∧ (s.writeGuard sess (0x9100 + n) 0xF = none)) ∧
    (∃ (s : State) (sess : Nat) (n : Nat), (n < 16) ∧ (s.writeGuard sess (0x9100 + n) 0xF = none)) ∧
    (∃ (s : State) (sess : Nat) (n : Nat), (n < 16) ∧ (s.writeGuard sess (0x9100 + n) 0xF = none)) ∧
    (∃ (s : State) (sess : Nat) (n : Nat), (n < 16) ∧ (s.writeGuard sess (0x9100 + n) 0xF = none)) ∧
    (∃ (s : State) (sess : Nat) (n : Nat), (n < 16) ∧ (s.writeGuard sess (0x9100 + n) 0xF = none)) := by
  exact ⟨⟨(ssv 2 { cfg := langCfg }), 5, 0, by decide +kernel⟩,
    ⟨(ssv 2 { cfg := langCfg, stopAt := true }), 5, 0, by decide +kernel⟩,
    ⟨(ssv 1 { cfg := langCfg, latch := some 0 }), 5, 0, by decide +kernel⟩,
    ⟨(ssv 1 { cfg := langCfg }), 5, 0, by decide +kernel⟩,
    ⟨svc, 5, 15, by decide +kernel⟩⟩

/-- States that meet the hypotheses of ServicesAreConfiguredStartedAndFed. -/
theorem witness_ServicesAreConfiguredStartedAndFed_3 :
    (∃ (s : State) (sess : Nat) (n : Nat), (n < 16) ∧ (s.writeGuard sess (0x9100 + n) 0xF = none) ∧ (s.obj (0x9100 + n) 0 = 0)) ∧
    (∃ (s : State) (sess : Nat) (n : Nat), (n < 16) ∧ (s.writeGuard sess (0x9100 + n) 0xF = none) ∧ (s.obj (0x9100 + n) 0 = 2) ∧ ((s.svc n).stopAt = false) ∧ (s.jobState (s.svcPart n) = 3 ∨ s.jobState (s.svcPart n) = 4)) ∧
    (∃ (s : State) (sess : Nat) (n : Nat) (x : SvcReq), (n < 16) ∧ (s.writeGuard sess (0x9100 + n) 0xF = none) ∧ (s.obj (0x9100 + n) 0 = 2) ∧ ((s.svc n).stopAt = false) ∧ ((s.svc n).latch = none) ∧ (s.jobState (s.svcPart n) ≠ 3) ∧ (s.jobState (s.svcPart n) ≠ 4) ∧ ((s.svc n).waiting = [x]) ∧ ((s.svc n).active = []) ∧ ((s.svc n).frames = []) ∧ (x.lost = false) ∧ (x.askers = [])) ∧
    (∃ (s : State) (sess : Nat) (n : Nat), (n < 16) ∧ (s.writeGuard sess (0x9100 + n) 0xF = none) ∧ (s.obj (0x9100 + n) 0 ≠ 0) ∧ ((s.svc n).stopAt = true ∨ s.obj (0x9100 + n) 0 = 1)) ∧
    (∃ (s : State) (sess : Nat) (n : Nat), (n < 16) ∧ (s.writeGuard sess (0x9100 + n) 0xF = none) ∧ (s.obj (0x9100 + n) 0 ≠ 0) ∧ ((s.svc n).stopAt = true ∨ s.obj (0x9100 + n) 0 = 1)) := by
  exact ⟨⟨(ssv 0 {}), 5, 0, by decide +kernel⟩,
    ⟨(ssv 2 { cfg := langCfg }), 5, 0, by decide +kernel⟩,
    ⟨(obs [(0x5010, 0, 0, 2)] (ssv 2 { cfg := langCfg, waiting := [rq3] })), 5, 0, rq3, by decide +kernel⟩,
    ⟨(ssv 1 { cfg := langCfg }), 5, 0, by decide +kernel⟩,
    ⟨(ssv 2 { cfg := langCfg, stopAt := true, latch := some 2 }), 5, 0, by decide +kernel⟩⟩

/-- States that meet the hypotheses of ServicesAreConfiguredStartedAndFed. -/
theorem witness_ServicesAreConfiguredStartedAndFed_4 :
    (∃ (s : State) (n : Nat), (s.obj (0x9100 + n) 0 ≠ 2 ∨ s.svcVal n 1 ≠ 1 ∨ s.jobRuns (s.svcPart n) = false)) ∧
    (∃ (s : State) (n : Nat) (q : Nat) (key : Nat) (k : Nat) (j : Job) (x : SvcReq), (s.obj (0x9100 + n) 0 = 2) ∧ (s.svcVal n 1 = 1) ∧ (q = s.svcPart n) ∧ (s.jobRuns q = true) ∧ (s.job q = some j) ∧ (key = s.entryKey n) ∧ (s.quietMemory) ∧ ((s.svc n).waiting = [x]) ∧ ((s.svc n).active = []) ∧ ((s.svc n).lanes = []) ∧ (x.leave = none) ∧ (1 ≤ s.svcVal n 5) ∧ (k = min (s.svcVal n 7) x.tokens.length) ∧ (k ≤ s.svcVal n 6)) ∧
    (∃ (s : State) (n : Nat) (tick : Nat), (s.obj (0x9100 + n) 0 ≠ 2 ∨ s.svcVal n 1 ≠ 2 ∨ s.jobRuns (s.svcPart n) = false)) ∧
    (∃ (s : State) (n : Nat) (tick : Nat) (q : Nat) (j : Job), (s.obj (0x9100 + n) 0 = 2) ∧ (s.svcVal n 1 = 2) ∧ (q = s.svcPart n) ∧ (s.jobRuns q = true) ∧ (s.job q = some j) ∧ (s.quietMemory)) ∧
    (∃ (s : State) (m : Nat) (d : DtlMsg), (soundMsg d) ∧ (∀ n, n < 16 → s.obj (0x9100 + n) 0 = 0 ∨ s.svcPart n ≠ d.partition) ∧ (s.closers = [])) := by
  exact ⟨⟨svc, 15, by decide +kernel⟩,
    ⟨(ssv 2 { cfg := langCfg, waiting := [rq3] }), 0, _, _, _, ({ job9 with hdr := { jobId := 9, tiles := 2, ringOffset := 0x10000, ringLog2 := 4 } }), rq3, ⟨by decide +kernel, by decide +kernel, rfl, by decide +kernel, by decide +kernel, rfl, quiet_of ⟨rfl, rfl⟩, by decide +kernel, by decide +kernel, by decide +kernel, by decide, by decide +kernel, rfl, by decide +kernel⟩⟩,
    ⟨svc, 15, 0, by decide +kernel⟩,
    ⟨(ssv 2 { cfg := visCfg, frames := [{ stream := 3, client := client1, reqId := 30, bytes := List.replicate 64 1 }] }), 0, 7, _, ({ job9 with hdr := { jobId := 9, tiles := 2, ringOffset := 0x10000, ringLog2 := 4 } }), ⟨by decide +kernel, by decide +kernel, rfl, by decide +kernel, by decide +kernel, quiet_of ⟨rfl, rfl⟩⟩⟩,
    ⟨svc, 1, ({ dtype := 0x0B, arg := 0x202, partition := 3 }), by simp only [soundMsg]; decide +kernel⟩⟩

/-- States that meet the hypotheses of ServicesAreConfiguredStartedAndFed. -/
theorem witness_ServicesAreConfiguredStartedAndFed_5 :
    (∃ (s : State) (m : Nat) (n : Nat) (d : DtlMsg) (r : SvcReq) (o : OutRecord), (soundMsg d) ∧ (n < 16) ∧ (s.closers = []) ∧ (s.obj (0x9100 + n) 0 ≠ 0) ∧ (s.svcPart n = d.partition) ∧ (∀ k, k < 16 → k ≠ n → s.obj (0x9100 + k) 0 = 0 ∨ s.svcPart k ≠ d.partition) ∧ (s.svcVal n 1 = 1) ∧ (fieldOf d.arg 8 8 = 2) ∧ ((s.svc n).sealed = [(d.addr, [r.seq])]) ∧ ((s.svc n).active = [r]) ∧ ((s.svc n).waiting = []) ∧ ((s.svc n).stopAt = false) ∧ (r.gen = true) ∧ (r.leave = none) ∧ (r.lost = false) ∧ (r.askers = []) ∧ (s.readOutput n d.addr 0 = (s, some o)) ∧ (bitOf o.flags 0 = true)) ∧
    (∃ (s : State) (m : Nat) (n : Nat) (st : Nat) (d : DtlMsg), (soundMsg d) ∧ (n < 16) ∧ (st = fieldOf d.arg 8 8) ∧ (st = 2 ∨ st = 3) ∧ (s.obj (0x9100 + n) 0 = 1 ∨ s.obj (0x9100 + n) 0 = 3) ∧ (s.svcPart n = d.partition) ∧ ((s.svc n).latch = none) ∧ (s.closers = []) ∧ (∀ k, k < 16 → k ≠ n → s.svcPart k ≠ d.partition)) ∧
    (∃ (s : State) (m : Nat) (n : Nat) (st : Nat) (d : DtlMsg), (soundMsg d) ∧ (n < 16) ∧ (st = fieldOf d.arg 8 8) ∧ (st = 2 ∨ st = 3) ∧ (s.obj (0x9100 + n) 0 = 1 ∨ s.obj (0x9100 + n) 0 = 3) ∧ (s.svcPart n = d.partition) ∧ ((s.svc n).latch = none) ∧ (s.closers = []) ∧ (∀ k, k < 16 → k ≠ n → s.svcPart k ≠ d.partition)) ∧
    (∃ (s : State) (conn : Nat), (∀ n, n < 16 → ∀ r, r ∈ (s.svc n).waiting ++ (s.svc n).active → r.client.conn ≠ conn)) ∧
    (∃ (s : State) (conn : Nat) (n : Nat) (x : SvcReq), (n < 16) ∧ ((s.svc n).waiting = [x]) ∧ ((s.svc n).active = []) ∧ (∀ k, k < 16 → k ≠ n → (s.svc k).waiting = [] ∧ (s.svc k).active = []) ∧ (x.client.conn = conn) ∧ (x.lastKey = none) ∧ (x.askers = [])) := by
  exact ⟨⟨({ ssv 2 { cfg := langCfg, active := [{ rq3 with gen := true, tokens := [], left := 5, lastKey := some 6 }], sealed := [(6, [4])], lanes := [4] } with hbm := [((2 ^ 31 + 0x40000) / 32, encodeRow (BitVec.ofNat 256 (1 + 1 * 2 ^ 64 + 6 * 2 ^ 96 + 55 * 2 ^ 128)))] }), 0, 0, ({ dtype := 0x0B, addr := 6, arg := 0x202, partition := 0 }), ({ rq3 with gen := true, tokens := [], left := 5, lastKey := some 6 }), ({ tokens := [55], length := 6, count := 1, left := 0, flags := 1 }), by simp only [soundMsg]; decide +kernel⟩,
    ⟨({ obs [(0x910F, 0, 0, 1)] svc with svcs := [(15, { cfg := [1, 2, 0, 0, 4, 64, 16, 1000, 2, 1, 0, 0, 0, 0] })] }), 0, 15, 2, ({ dtype := 0x0B, arg := 0x203, partition := 2 }), by simp only [soundMsg]; decide +kernel⟩,
    ⟨({ obs [(0x910F, 0, 0, 3)] svc with svcs := [(15, { cfg := [1, 2, 0, 0, 4, 64, 16, 1000, 2, 1, 0, 0, 0, 0] })] }), 0, 15, 3, ({ dtype := 0x0B, arg := 0x303, partition := 2 }), by simp only [soundMsg]; decide +kernel⟩,
    ⟨(ssv 2 { cfg := langCfg, waiting := [rq3] }), 1, by decide +kernel⟩,
    ⟨(ssv 2 { cfg := langCfg, waiting := [rq3] }), 2, 0, rq3, by decide +kernel⟩⟩

/-- States that meet the hypotheses of ServicesAreConfiguredStartedAndFed. -/
theorem witness_ServicesAreConfiguredStartedAndFed_6 :
    (∃ (s : State) (slot : Nat), ((s.ctx slot).st = .free ∨ (s.reqOn slot).isSome = true ∨ s.elapsed < (s.ctx slot).used + secTide * s.obj 0x9000 5)) ∧
    (∃ (s : State) (slot : Nat), ((s.ctx slot).st = .free ∨ (s.reqOn slot).isSome = true ∨ s.elapsed < (s.ctx slot).used + secTide * s.obj 0x9000 5)) ∧
    (∃ (s : State) (slot : Nat), ((s.ctx slot).st = .free ∨ (s.reqOn slot).isSome = true ∨ s.elapsed < (s.ctx slot).used + secTide * s.obj 0x9000 5)) ∧
    (∃ (s : State) (slot : Nat), (slot < 262144) ∧ ((s.ctx slot).st = .idle) ∧ (s.reqOn slot = none) ∧ ((s.ctx slot).used + secTide * s.obj 0x9000 5 ≤ s.elapsed)) ∧
    (∃ (s : State) (n : Nat), (s.obj (0x9100 + n) 0 ≠ 3 ∨ s.elapsed < s.faults.recoverAt + 5 * secTide)) := by
  exact ⟨⟨svc, 262143, by decide +kernel⟩,
    ⟨(ssv 2 { cfg := langCfg }), 3, by decide +kernel⟩,
    ⟨(ssv 2 { cfg := langCfg, waiting := [rq3] }), 3, by decide +kernel⟩,
    ⟨({ ssv 2 { cfg := langCfg } with elapsed := secTide * 1000000 }), 3, by decide +kernel⟩,
    ⟨(ssv 2 { cfg := langCfg }), 0, by decide +kernel⟩⟩

/-- States that meet the hypotheses of ServicesAreConfiguredStartedAndFed. -/
theorem witness_ServicesAreConfiguredStartedAndFed_7 :
    (∃ (s : State) (n : Nat), (n < 16) ∧ (s.obj (0x9100 + n) 0 = 3) ∧ (s.faults.recoverAt + 5 * secTide ≤ s.elapsed)) := by
  exact ⟨({ ssv 3 { cfg := langCfg, waiting := [rq3], lanes := [3] } with elapsed := 20000000000 }), 0, by decide +kernel⟩

/-- States that meet the hypotheses of EndpointRequestsAreServed. -/
theorem witness_EndpointRequestsAreServed :
    (∃ (s : State) (r : Request) (i : Instr) (op : Nat) (need : List Nat) (may : List Nat), (i = .reqOpenContext r ∧ op = 1 ∧ need = [2] ∧ may = [9, 10] ∨ i = .reqAppend r ∧ op = 2 ∧ need = [3, 4] ∧ may = [] ∨ i = .reqGenerate r ∧ op = 3 ∧ need = [3, 5] ∧ may = [4, 6, 7, 8] ∨ i = .reqCancel r ∧ op = 4 ∧ need = [3] ∧ may = [] ∨ i = .reqCloseContext r ∧ op = 5 ∧ need = [3] ∧ may = [] ∨ i = .reqSubmitFrame r ∧ op = 6 ∧ need = [2, 11, 12] ∧ may = [] ∨ i = .reqStatus r ∧ op = 7 ∧ need = [] ∧ may = [2, 3]) ∧ (s.requestMap r op need may = none)) ∧
    (∃ (s : State) (r : Request) (i : Instr) (op : Nat) (need : List Nat) (may : List Nat), (i = .reqOpenContext r ∧ op = 1 ∧ need = [2] ∧ may = [9, 10] ∨ i = .reqAppend r ∧ op = 2 ∧ need = [3, 4] ∧ may = [] ∨ i = .reqGenerate r ∧ op = 3 ∧ need = [3, 5] ∧ may = [4, 6, 7, 8] ∨ i = .reqCancel r ∧ op = 4 ∧ need = [3] ∧ may = [] ∨ i = .reqCloseContext r ∧ op = 5 ∧ need = [3] ∧ may = [] ∨ i = .reqSubmitFrame r ∧ op = 6 ∧ need = [2, 11, 12] ∧ may = [] ∨ i = .reqStatus r ∧ op = 7 ∧ need = [] ∧ may = [2, 3]) ∧ (s.requestMap r op need may = none)) ∧
    (∃ (s : State) (r : Request) (i : Instr) (op : Nat) (need : List Nat) (may : List Nat), (i = .reqOpenContext r ∧ op = 1 ∧ need = [2] ∧ may = [9, 10] ∨ i = .reqAppend r ∧ op = 2 ∧ need = [3, 4] ∧ may = [] ∨ i = .reqGenerate r ∧ op = 3 ∧ need = [3, 5] ∧ may = [4, 6, 7, 8] ∨ i = .reqCancel r ∧ op = 4 ∧ need = [3] ∧ may = [] ∨ i = .reqCloseContext r ∧ op = 5 ∧ need = [3] ∧ may = [] ∨ i = .reqSubmitFrame r ∧ op = 6 ∧ need = [2, 11, 12] ∧ may = [] ∨ i = .reqStatus r ∧ op = 7 ∧ need = [] ∧ may = [2, 3]) ∧ (s.requestMap r op need may = none)) ∧
    (∃ (s : State) (r : Request) (i : Instr) (op : Nat) (need : List Nat) (may : List Nat), (i = .reqOpenContext r ∧ op = 1 ∧ need = [2] ∧ may = [9, 10] ∨ i = .reqAppend r ∧ op = 2 ∧ need = [3, 4] ∧ may = [] ∨ i = .reqGenerate r ∧ op = 3 ∧ need = [3, 5] ∧ may = [4, 6, 7, 8] ∨ i = .reqCancel r ∧ op = 4 ∧ need = [3] ∧ may = [] ∨ i = .reqCloseContext r ∧ op = 5 ∧ need = [3] ∧ may = [] ∨ i = .reqSubmitFrame r ∧ op = 6 ∧ need = [2, 11, 12] ∧ may = [] ∨ i = .reqStatus r ∧ op = 7 ∧ need = [] ∧ may = [2, 3]) ∧ (s.requestMap r op need may = none)) ∧
    (∃ (s : State) (r : Request) (i : Instr) (op : Nat) (need : List Nat) (may : List Nat), (i = .reqOpenContext r ∧ op = 1 ∧ need = [2] ∧ may = [9, 10] ∨ i = .reqAppend r ∧ op = 2 ∧ need = [3, 4] ∧ may = [] ∨ i = .reqGenerate r ∧ op = 3 ∧ need = [3, 5] ∧ may = [4, 6, 7, 8] ∨ i = .reqCancel r ∧ op = 4 ∧ need = [3] ∧ may = [] ∨ i = .reqCloseContext r ∧ op = 5 ∧ need = [3] ∧ may = [] ∨ i = .reqSubmitFrame r ∧ op = 6 ∧ need = [2, 11, 12] ∧ may = [] ∨ i = .reqStatus r ∧ op = 7 ∧ need = [] ∧ may = [2, 3]) ∧ (s.requestMap r op need may = none)) := by
  exact ⟨⟨svc, (rq 1 [(77, .uint 0)]), (.reqOpenContext (rq 1 [(77, .uint 0)])), 1, [2], ([9, 10]), ⟨.inl ⟨rfl, rfl, rfl, rfl⟩, by decide +kernel⟩⟩,
    ⟨svc, (rq 2 [(77, .uint 0)]), (.reqAppend (rq 2 [(77, .uint 0)])), 2, ([3, 4]), [], ⟨.inr (.inl ⟨rfl, rfl, rfl, rfl⟩), by decide +kernel⟩⟩,
    ⟨svc, (rq 3 [(77, .uint 0)]), (.reqGenerate (rq 3 [(77, .uint 0)])), 3, ([3, 5]), ([4, 6, 7, 8]), ⟨.inr (.inr (.inl ⟨rfl, rfl, rfl, rfl⟩)), by decide +kernel⟩⟩,
    ⟨svc, (rq 4 [(77, .uint 0)]), (.reqCancel (rq 4 [(77, .uint 0)])), 4, [3], [], ⟨.inr (.inr (.inr (.inl ⟨rfl, rfl, rfl, rfl⟩))), by decide +kernel⟩⟩,
    ⟨svc, (rq 5 [(77, .uint 0)]), (.reqCloseContext (rq 5 [(77, .uint 0)])), 5, [3], [], ⟨.inr (.inr (.inr (.inr (.inl ⟨rfl, rfl, rfl, rfl⟩)))), by decide +kernel⟩⟩⟩

/-- States that meet the hypotheses of EndpointRequestsAreServed. -/
theorem witness_EndpointRequestsAreServed_2 :
    (∃ (s : State) (r : Request) (i : Instr) (op : Nat) (need : List Nat) (may : List Nat), (i = .reqOpenContext r ∧ op = 1 ∧ need = [2] ∧ may = [9, 10] ∨ i = .reqAppend r ∧ op = 2 ∧ need = [3, 4] ∧ may = [] ∨ i = .reqGenerate r ∧ op = 3 ∧ need = [3, 5] ∧ may = [4, 6, 7, 8] ∨ i = .reqCancel r ∧ op = 4 ∧ need = [3] ∧ may = [] ∨ i = .reqCloseContext r ∧ op = 5 ∧ need = [3] ∧ may = [] ∨ i = .reqSubmitFrame r ∧ op = 6 ∧ need = [2, 11, 12] ∧ may = [] ∨ i = .reqStatus r ∧ op = 7 ∧ need = [] ∧ may = [2, 3]) ∧ (s.requestMap r op need may = none)) ∧
    (∃ (s : State) (r : Request) (i : Instr) (op : Nat) (need : List Nat) (may : List Nat), (i = .reqOpenContext r ∧ op = 1 ∧ need = [2] ∧ may = [9, 10] ∨ i = .reqAppend r ∧ op = 2 ∧ need = [3, 4] ∧ may = [] ∨ i = .reqGenerate r ∧ op = 3 ∧ need = [3, 5] ∧ may = [4, 6, 7, 8] ∨ i = .reqCancel r ∧ op = 4 ∧ need = [3] ∧ may = [] ∨ i = .reqCloseContext r ∧ op = 5 ∧ need = [3] ∧ may = [] ∨ i = .reqSubmitFrame r ∧ op = 6 ∧ need = [2, 11, 12] ∧ may = [] ∨ i = .reqStatus r ∧ op = 7 ∧ need = [] ∧ may = [2, 3]) ∧ (s.requestMap r op need may = none)) ∧
    (∃ (s : State) (r : Request) (m : CborMap) (n : Nat) (seed : Nat) (prio : Nat) (e : Nat) (q : Nat) (slot : Nat), (s.requestMap r 1 [2] [9, 10] = some m) ∧ (uintOr m 2 16 16 = some n) ∧ (n < 16) ∧ (uintOr m 9 0 (2 ^ 64) = some seed) ∧ (uintOr m 10 128 256 = some prio) ∧ (s.answers n = true) ∧ (s.tenantOf r.client = some e) ∧ (teMax e ≤ s.openOf (teTenant e))) ∧
    (∃ (s : State) (r : Request) (m : CborMap) (n : Nat) (seed : Nat) (prio : Nat) (e : Nat) (q : Nat) (slot : Nat), (s.requestMap r 1 [2] [9, 10] = some m) ∧ (uintOr m 2 16 16 = some n) ∧ (n < 16) ∧ (uintOr m 9 0 (2 ^ 64) = some seed) ∧ (uintOr m 10 128 256 = some prio) ∧ (s.answers n = true) ∧ (s.tenantOf r.client = some e) ∧ (s.openOf (teTenant e) < teMax e) ∧ (s.pickSlot.2 = some slot) ∧ ((s.ctx slot).st = .free) ∧ (q = s.svcPart n) ∧ (q ≤ 11) ∧ ((s.pool q).applied = true) ∧ ((s.pool q).hbm.front = []) ∧ ((s.pool q).hbm.back = []) ∧ ((s.pool q).hbm.next + 2 ≤ (s.pool q).hbm.size) ∧ (s.spans = [])) ∧
    (∃ (s : State) (r : Request) (m : CborMap) (v : Nat) (slot : Nat) (n : Nat) (tenant : Nat) (ts : List Nat), (s.requestMap r 2 [3, 4] [] = some m) ∧ (uintOf m 3 = some v) ∧ (arrayOr m 4 1 65536 (2 ^ 32 - 1) = some ts) ∧ (s.ctxFor r v = .ok (slot, n, tenant)) ∧ ((s.reqOn slot).isSome = true)) := by
  exact ⟨⟨svc, (rq 6 [(77, .uint 0)]), (.reqSubmitFrame (rq 6 [(77, .uint 0)])), 6, ([2, 11, 12]), [], ⟨.inr (.inr (.inr (.inr (.inr (.inl ⟨rfl, rfl, rfl, rfl⟩))))), by decide +kernel⟩⟩,
    ⟨svc, (rq 7 [(77, .uint 0)]), (.reqStatus (rq 7 [(77, .uint 0)])), 7, [], ([2, 3]), ⟨.inr (.inr (.inr (.inr (.inr (.inr (⟨rfl, rfl, rfl, rfl⟩)))))), by decide +kernel⟩⟩,
    ⟨({ ssv 2 { cfg := langCfg } with ctxs := [(3, { st := .idle, tenant := 6 }), (4, { st := .active, tenant := 6 })] }), (rq 1 [(2, .uint 0)]), ([(0, .uint 1), (1, .uint 30), (2, .uint 0)]), 0, 0, 128, (77 * 2 ^ 128 + 6 * 2 ^ 96 + 2 * 2 ^ 64 + 50 * 2 ^ 56), 0, 0, by decide +kernel⟩,
    ⟨({ ssv 2 { cfg := langCfg } with ctxs := [] }), (rq 1 [(2, .uint 0), (9, .uint 5), (10, .uint 255)]), ([(0, .uint 1), (1, .uint 30), (2, .uint 0), (9, .uint 5), (10, .uint 255)]), 0, 5, 255, (77 * 2 ^ 128 + 6 * 2 ^ 96 + 2 * 2 ^ 64 + 50 * 2 ^ 56), _, ((State.pickSlot ({ ssv 2 { cfg := langCfg } with ctxs := [] })).2.getD 0), ⟨by decide +kernel, by decide +kernel, by decide, by decide +kernel, by decide +kernel, by decide +kernel, by decide +kernel, by decide +kernel, (pickSlot_free rfl).1, (pickSlot_free rfl).2, rfl, by decide +kernel, by decide +kernel, by decide +kernel, by decide +kernel, by decide +kernel, by decide +kernel⟩⟩,
    ⟨(ssv 2 { cfg := langCfg, waiting := [rq3] }), (rq 2 [(3, .uint 262147), (4, .array [7, 8])]), ([(0, .uint 2), (1, .uint 30), (3, .uint 262147), (4, .array [7, 8])]), 262147, 3, 0, 6, ([7, 8]), by decide +kernel⟩⟩

/-- States that meet the hypotheses of EndpointRequestsAreServed. -/
theorem witness_EndpointRequestsAreServed_3 :
    (∃ (s : State) (r : Request) (m : CborMap) (v : Nat) (slot : Nat) (n : Nat) (tenant : Nat) (ts : List Nat), (s.requestMap r 2 [3, 4] [] = some m) ∧ (uintOf m 3 = some v) ∧ (arrayOr m 4 1 65536 (2 ^ 32 - 1) = some ts) ∧ (s.ctxFor r v = .ok (slot, n, tenant)) ∧ (s.reqOn slot = none) ∧ (s.svcVal n 8 < Tbl.get s.lens 0 slot + ts.length)) ∧
    (∃ (s : State) (r : Request) (m : CborMap) (v : Nat) (slot : Nat) (n : Nat) (tenant : Nat) (ts : List Nat), (s.requestMap r 2 [3, 4] [] = some m) ∧ (uintOf m 3 = some v) ∧ (arrayOr m 4 1 65536 (2 ^ 32 - 1) = some ts) ∧ (s.ctxFor r v = .ok (slot, n, tenant)) ∧ (s.reqOn slot = none) ∧ (Tbl.get s.lens 0 slot + ts.length ≤ s.svcVal n 8) ∧ (s.svcVal n 9 ≤ (s.svc n).waiting.length)) ∧
    (∃ (s : State) (r : Request) (m : CborMap) (v : Nat) (slot : Nat) (n : Nat) (tenant : Nat) (ts : List Nat), (s.requestMap r 2 [3, 4] [] = some m) ∧ (uintOf m 3 = some v) ∧ (arrayOr m 4 1 65536 (2 ^ 32 - 1) = some ts) ∧ (s.ctxFor r v = .ok (slot, n, tenant)) ∧ (s.reqOn slot = none) ∧ (Tbl.get s.lens 0 slot + ts.length ≤ s.svcVal n 8) ∧ ((s.svc n).waiting.length < s.svcVal n 9)) ∧
    (∃ (s : State) (r : Request) (m : CborMap) (v : Nat) (k : Nat) (temp : Nat) (topP : Nat) (slot : Nat) (n : Nat) (tenant : Nat) (ts : List Nat) (stop : List Nat), (s.requestMap r 3 [3, 5] [4, 6, 7, 8] = some m) ∧ (uintOf m 3 = some v) ∧ (uintOf m 5 = some k) ∧ (arrayOr m 4 1 65536 (2 ^ 32 - 1) = some ts) ∧ (floatOr m 6 0x3F800000 0 0x40000000 = some temp) ∧ (floatOr m 7 0x3F800000 1 0x3F800000 = some topP) ∧ (arrayOr m 8 0 4 (2 ^ 32) = some stop) ∧ (k = 0 ∨ 16383 < k)) ∧
    (∃ (s : State) (r : Request) (m : CborMap) (v : Nat) (k : Nat) (temp : Nat) (topP : Nat) (slot : Nat) (n : Nat) (tenant : Nat) (ts : List Nat) (stop : List Nat), (s.requestMap r 3 [3, 5] [4, 6, 7, 8] = some m) ∧ (uintOf m 3 = some v) ∧ (uintOf m 5 = some k) ∧ (arrayOr m 4 1 65536 (2 ^ 32 - 1) = some ts) ∧ (floatOr m 6 0x3F800000 0 0x40000000 = some temp) ∧ (floatOr m 7 0x3F800000 1 0x3F800000 = some topP) ∧ (arrayOr m 8 0 4 (2 ^ 32) = some stop) ∧ (k = 0 ∨ 16383 < k)) := by
  exact ⟨⟨({ ssv 2 { cfg := langCfg } with lens := [(3, 999)] }), (rq 2 [(3, .uint 262147), (4, .array [7, 8])]), ([(0, .uint 2), (1, .uint 30), (3, .uint 262147), (4, .array [7, 8])]), 262147, 3, 0, 6, ([7, 8]), by decide +kernel⟩,
    ⟨(ssv 2 { cfg := langCfg, waiting := [{ rq3 with slot := 4 }, { rq3 with slot := 5 }] }), (rq 2 [(3, .uint 262147), (4, .array [7, 8])]), ([(0, .uint 2), (1, .uint 30), (3, .uint 262147), (4, .array [7, 8])]), 262147, 3, 0, 6, ([7, 8]), by decide +kernel⟩,
    ⟨({ ssv 2 { cfg := langCfg } with lens := [(3, 998)] }), (rq 2 [(3, .uint 262147), (4, .array [7, 8])]), ([(0, .uint 2), (1, .uint 30), (3, .uint 262147), (4, .array [7, 8])]), 262147, 3, 0, 6, ([7, 8]), by decide +kernel⟩,
    ⟨(ssv 2 { cfg := langCfg }), (rq 3 [(3, .uint 262147), (5, .uint 0)]), ([(0, .uint 3), (1, .uint 30), (3, .uint 262147), (5, .uint 0)]), 262147, 0, 0x3F800000, 0x3F800000, 3, 0, 6, [], [], by decide +kernel⟩,
    ⟨(ssv 2 { cfg := langCfg }), (rq 3 [(3, .uint 262147), (5, .uint 16384)]), ([(0, .uint 3), (1, .uint 30), (3, .uint 262147), (5, .uint 16384)]), 262147, 16384, 0x3F800000, 0x3F800000, 3, 0, 6, [], [], by decide +kernel⟩⟩

/-- States that meet the hypotheses of EndpointRequestsAreServed. -/
theorem witness_EndpointRequestsAreServed_4 :
    (∃ (s : State) (r : Request) (m : CborMap) (v : Nat) (k : Nat) (temp : Nat) (topP : Nat) (slot : Nat) (n : Nat) (tenant : Nat) (ts : List Nat) (stop : List Nat), (s.requestMap r 3 [3, 5] [4, 6, 7, 8] = some m) ∧ (uintOf m 3 = some v) ∧ (uintOf m 5 = some k) ∧ (arrayOr m 4 1 65536 (2 ^ 32 - 1) = some ts) ∧ (floatOr m 6 0x3F800000 0 0x40000000 = some temp) ∧ (floatOr m 7 0x3F800000 1 0x3F800000 = some topP) ∧ (arrayOr m 8 0 4 (2 ^ 32) = some stop) ∧ (1 ≤ k) ∧ (k ≤ 16383) ∧ (s.ctxFor r v = .ok (slot, n, tenant)) ∧ (s.reqOn slot = none) ∧ ((s.svc n).waiting.length < s.svcVal n 9)) ∧
    (∃ (s : State) (r : Request) (m : CborMap) (v : Nat) (k : Nat) (temp : Nat) (topP : Nat) (slot : Nat) (n : Nat) (tenant : Nat) (ts : List Nat) (stop : List Nat), (s.requestMap r 3 [3, 5] [4, 6, 7, 8] = some m) ∧ (uintOf m 3 = some v) ∧ (uintOf m 5 = some k) ∧ (arrayOr m 4 1 65536 (2 ^ 32 - 1) = some ts) ∧ (floatOr m 6 0x3F800000 0 0x40000000 = some temp) ∧ (floatOr m 7 0x3F800000 1 0x3F800000 = some topP) ∧ (arrayOr m 8 0 4 (2 ^ 32) = some stop) ∧ (1 ≤ k) ∧ (k ≤ 16383) ∧ (s.ctxFor r v = .ok (slot, n, tenant)) ∧ (s.reqOn slot = none) ∧ ((s.svc n).waiting.length < s.svcVal n 9)) ∧
    (∃ (s : State) (r : Request) (m : CborMap) (v : Nat) (i : Instr) (n : Nat) (e : Nat), (i = .reqCancel r ∧ s.requestMap r 4 [3] [] = some m ∨ i = .reqCloseContext r ∧ s.requestMap r 5 [3] [] = some m) ∧ (uintOf m 3 = some v) ∧ (s.svcOf (s.ctx (v % 2 ^ 18)).partition = some n) ∧ (s.answers n = true) ∧ (s.tenantOf r.client = some e) ∧ ((s.ctx (v % 2 ^ 18)).st ≠ .free) ∧ ((s.ctx (v % 2 ^ 18)).tenant ≠ teTenant e)) ∧
    (∃ (s : State) (r : Request) (m : CborMap) (v : Nat) (i : Instr) (n : Nat) (e : Nat), (i = .reqCancel r ∧ s.requestMap r 4 [3] [] = some m ∨ i = .reqCloseContext r ∧ s.requestMap r 5 [3] [] = some m) ∧ (uintOf m 3 = some v) ∧ (s.svcOf (s.ctx (v % 2 ^ 18)).partition = some n) ∧ (s.answers n = true) ∧ (s.tenantOf r.client = some e) ∧ ((s.ctx (v % 2 ^ 18)).st ≠ .free) ∧ ((s.ctx (v % 2 ^ 18)).tenant ≠ teTenant e)) ∧
    (∃ (s : State) (r : Request) (m : CborMap) (v : Nat) (i : Instr) (n : Nat) (e : Nat), (i = .reqCancel r ∧ s.requestMap r 4 [3] [] = some m ∨ i = .reqCloseContext r ∧ s.requestMap r 5 [3] [] = some m) ∧ (uintOf m 3 = some v) ∧ (s.svcOf (s.ctx (v % 2 ^ 18)).partition = some n) ∧ (s.answers n = true) ∧ (s.tenantOf r.client = some e) ∧ ((s.ctx (v % 2 ^ 18)).st ≠ .free) ∧ ((s.ctx (v % 2 ^ 18)).tenant = teTenant e) ∧ ((s.ctx (v % 2 ^ 18)).epoch ≠ v / 2 ^ 18)) := by
  exact ⟨⟨(ssv 2 { cfg := langCfg }), (rq 3 [(3, .uint 262147), (5, .uint 1)]), ([(0, .uint 3), (1, .uint 30), (3, .uint 262147), (5, .uint 1)]), 262147, 1, 0x3F800000, 0x3F800000, 3, 0, 6, [], [], by decide +kernel⟩,
    ⟨(ssv 2 { cfg := langCfg }), (rq 3 [(3, .uint 262147), (5, .uint 16383)]), ([(0, .uint 3), (1, .uint 30), (3, .uint 262147), (5, .uint 16383)]), 262147, 16383, 0x3F800000, 0x3F800000, 3, 0, 6, [], [], by decide +kernel⟩,
    ⟨({ ssv 2 { cfg := langCfg } with ctxs := [(3, { st := .idle, tenant := 7, epoch := 1 })] }), (rq 4 [(3, .uint 262147)]), ([(0, .uint 4), (1, .uint 30), (3, .uint 262147)]), 262147, (.reqCancel (rq 4 [(3, .uint 262147)])), 0, (77 * 2 ^ 128 + 6 * 2 ^ 96 + 2 * 2 ^ 64 + 50 * 2 ^ 56), ⟨.inl ⟨rfl, by decide +kernel⟩, by decide +kernel, by decide +kernel, by decide +kernel, by decide +kernel, by decide +kernel, by decide +kernel⟩⟩,
    ⟨({ ssv 2 { cfg := langCfg } with ctxs := [(3, { st := .idle, tenant := 7, epoch := 1 })] }), (rq 5 [(3, .uint 262147)]), ([(0, .uint 5), (1, .uint 30), (3, .uint 262147)]), 262147, (.reqCloseContext (rq 5 [(3, .uint 262147)])), 0, (77 * 2 ^ 128 + 6 * 2 ^ 96 + 2 * 2 ^ 64 + 50 * 2 ^ 56), ⟨.inr ⟨rfl, by decide +kernel⟩, by decide +kernel, by decide +kernel, by decide +kernel, by decide +kernel, by decide +kernel, by decide +kernel⟩⟩,
    ⟨(ssv 2 { cfg := langCfg }), (rq 4 [(3, .uint 3)]), ([(0, .uint 4), (1, .uint 30), (3, .uint 3)]), 3, (.reqCancel (rq 4 [(3, .uint 3)])), 0, (77 * 2 ^ 128 + 6 * 2 ^ 96 + 2 * 2 ^ 64 + 50 * 2 ^ 56), ⟨.inl ⟨rfl, by decide +kernel⟩, by decide +kernel, by decide +kernel, by decide +kernel, by decide +kernel, by decide +kernel, by decide +kernel, by decide +kernel⟩⟩⟩

/-- States that meet the hypotheses of EndpointRequestsAreServed. -/
theorem witness_EndpointRequestsAreServed_5 :
    (∃ (s : State) (r : Request) (m : CborMap) (v : Nat) (i : Instr) (n : Nat) (e : Nat), (i = .reqCancel r ∧ s.requestMap r 4 [3] [] = some m ∨ i = .reqCloseContext r ∧ s.requestMap r 5 [3] [] = some m) ∧ (uintOf m 3 = some v) ∧ (s.svcOf (s.ctx (v % 2 ^ 18)).partition = some n) ∧ (s.answers n = true) ∧ (s.tenantOf r.client = some e) ∧ ((s.ctx (v % 2 ^ 18)).st ≠ .free) ∧ ((s.ctx (v % 2 ^ 18)).tenant = teTenant e) ∧ ((s.ctx (v % 2 ^ 18)).epoch ≠ v / 2 ^ 18)) ∧
    (∃ (s : State) (r : Request) (m : CborMap) (v : Nat) (i : Instr) (slot : Nat) (n : Nat) (tenant : Nat), (i = .reqCancel r ∧ s.requestMap r 4 [3] [] = some m ∨ i = .reqCloseContext r ∧ s.requestMap r 5 [3] [] = some m) ∧ (uintOf m 3 = some v) ∧ (s.ctxFor r v = .ok (slot, n, tenant)) ∧ (i = .reqCancel r) ∧ (s.reqOn slot = none)) ∧
    (∃ (s : State) (r : Request) (m : CborMap) (v : Nat) (i : Instr) (slot : Nat) (n : Nat) (tenant : Nat) (x : SvcReq) (k : Nat), (i = .reqCancel r ∧ s.requestMap r 4 [3] [] = some m ∨ i = .reqCloseContext r ∧ s.requestMap r 5 [3] [] = some m) ∧ (uintOf m 3 = some v) ∧ (s.ctxFor r v = .ok (slot, n, tenant)) ∧ (i = .reqCancel r) ∧ (s.reqOn slot = some (k, x)) ∧ (k < 16) ∧ ((s.svc k).waiting = [x]) ∧ ((s.svc k).active = []) ∧ (x.lastKey = none) ∧ (x.leave = none) ∧ (x.lost = false) ∧ (x.askers = [])) ∧
    (∃ (s : State) (r : Request) (m : CborMap) (v : Nat) (i : Instr) (slot : Nat) (n : Nat) (tenant : Nat), (i = .reqCancel r ∧ s.requestMap r 4 [3] [] = some m ∨ i = .reqCloseContext r ∧ s.requestMap r 5 [3] [] = some m) ∧ (uintOf m 3 = some v) ∧ (s.ctxFor r v = .ok (slot, n, tenant)) ∧ (i = .reqCloseContext r) ∧ (s.reqOn slot = none) ∧ ((s.ctx slot).st = .idle)) ∧
    (∃ (s : State) (r : Request) (m : CborMap) (n : Nat) (k : Nat) (b : List Byte), (s.requestMap r 6 [2, 11, 12] [] = some m) ∧ (uintOr m 2 16 16 = some n) ∧ (n < 16) ∧ (uintOr m 11 512 512 = some k) ∧ (k < 512) ∧ (keyOf m 12 = some (.bytes b)) ∧ (s.answers n = false)) := by
  exact ⟨⟨(ssv 2 { cfg := langCfg }), (rq 5 [(3, .uint 3)]), ([(0, .uint 5), (1, .uint 30), (3, .uint 3)]), 3, (.reqCloseContext (rq 5 [(3, .uint 3)])), 0, (77 * 2 ^ 128 + 6 * 2 ^ 96 + 2 * 2 ^ 64 + 50 * 2 ^ 56), ⟨.inr ⟨rfl, by decide +kernel⟩, by decide +kernel, by decide +kernel, by decide +kernel, by decide +kernel, by decide +kernel, by decide +kernel, by decide +kernel⟩⟩,
    ⟨(ssv 2 { cfg := langCfg }), (rq 4 [(3, .uint 262147)]), ([(0, .uint 4), (1, .uint 30), (3, .uint 262147)]), 262147, (.reqCancel (rq 4 [(3, .uint 262147)])), 3, 0, 6, ⟨.inl ⟨rfl, by decide +kernel⟩, by decide +kernel, by decide +kernel, rfl, by decide +kernel⟩⟩,
    ⟨(ssv 2 { cfg := langCfg, waiting := [rq3] }), (rq 4 [(3, .uint 262147)]), ([(0, .uint 4), (1, .uint 30), (3, .uint 262147)]), 262147, (.reqCancel (rq 4 [(3, .uint 262147)])), 3, 0, 6, rq3, 0, ⟨.inl ⟨rfl, by decide +kernel⟩, by decide +kernel, by decide +kernel, rfl, by decide +kernel, by decide +kernel, by decide +kernel, by decide +kernel, by decide +kernel, by decide +kernel, by decide +kernel, by decide +kernel⟩⟩,
    ⟨(ssv 2 { cfg := langCfg }), (rq 5 [(3, .uint 262147)]), ([(0, .uint 5), (1, .uint 30), (3, .uint 262147)]), 262147, (.reqCloseContext (rq 5 [(3, .uint 262147)])), 3, 0, 6, ⟨.inr ⟨rfl, by decide +kernel⟩, by decide +kernel, by decide +kernel, rfl, by decide +kernel, by decide +kernel⟩⟩,
    ⟨(ssv 1 { cfg := visCfg }), (rq 6 [(2, .uint 0), (11, .uint 511), (12, .bytes (List.replicate 64 1))]), ([(0, .uint 6), (1, .uint 30), (2, .uint 0), (11, .uint 511), (12, .bytes (List.replicate 64 1))]), 0, 511, (List.replicate 64 1), by decide +kernel⟩⟩

/-- States that meet the hypotheses of EndpointRequestsAreServed. -/
theorem witness_EndpointRequestsAreServed_6 :
    (∃ (s : State) (r : Request) (m : CborMap) (n : Nat) (k : Nat) (b : List Byte), (s.requestMap r 6 [2, 11, 12] [] = some m) ∧ (uintOr m 2 16 16 = some n) ∧ (n < 16) ∧ (uintOr m 11 512 512 = some k) ∧ (k < 512) ∧ (keyOf m 12 = some (.bytes b)) ∧ (s.answers n = true) ∧ (s.svcVal n 1 = 2) ∧ (b.length = s.svcVal n 0xC) ∧ (∀ f, f ∈ (s.svc n).frames → f.stream ≠ k)) ∧
    (∃ (s : State) (r : Request) (m : CborMap) (n : Nat) (k : Nat) (b : List Byte) (f : SvcFrame), (s.requestMap r 6 [2, 11, 12] [] = some m) ∧ (uintOr m 2 16 16 = some n) ∧ (n < 16) ∧ (uintOr m 11 512 512 = some k) ∧ (k < 512) ∧ (keyOf m 12 = some (.bytes b)) ∧ (s.answers n = true) ∧ (s.svcVal n 1 = 2) ∧ (b.length = s.svcVal n 0xC) ∧ ((s.svc n).frames = [f]) ∧ (f.stream = k) ∧ (f.tick = none)) ∧
    (∃ (s : State) (r : Request) (m : CborMap) (e : Nat), (s.requestMap r 7 [] [2, 3] = some m) ∧ (keyOf m 3 = none) ∧ (s.tenantOf r.client = some e) ∧ (keyOf m 2 = none) ∧ (s.endpointOpen = false)) ∧
    (∃ (s : State) (r : Request) (m : CborMap) (e : Nat) (n : Nat), (s.requestMap r 7 [] [2, 3] = some m) ∧ (keyOf m 3 = none) ∧ (s.tenantOf r.client = some e) ∧ (n < 16) ∧ (keyOf m 2 = some (.uint n)) ∧ (s.answers n = false)) ∧
    (∃ (s : State) (r : Request) (m : CborMap) (e : Nat), (s.requestMap r 7 [] [2, 3] = some m) ∧ (keyOf m 3 = none) ∧ (s.tenantOf r.client = some e) ∧ (keyOf m 2 = none) ∧ (s.endpointOpen = true)) := by
  exact ⟨⟨(ssv 2 { cfg := visCfg }), (rq 6 [(2, .uint 0), (11, .uint 511), (12, .bytes (List.replicate 64 1))]), ([(0, .uint 6), (1, .uint 30), (2, .uint 0), (11, .uint 511), (12, .bytes (List.replicate 64 1))]), 0, 511, (List.replicate 64 1), by decide +kernel⟩,
    ⟨(ssv 2 { cfg := visCfg, frames := [{ stream := 5, client := { conn := 3 }, reqId := 8, bytes := [] }] }), (rq 6 [(2, .uint 0), (11, .uint 5), (12, .bytes (List.replicate 64 1))]), ([(0, .uint 6), (1, .uint 30), (2, .uint 0), (11, .uint 5), (12, .bytes (List.replicate 64 1))]), 0, 5, (List.replicate 64 1), ({ stream := 5, client := { conn := 3 }, reqId := 8, bytes := [] }), by decide +kernel⟩,
    ⟨({ ssv 2 { cfg := langCfg } with device := { mode := .safe } }), (rq 7 []), ([(0, .uint 7), (1, .uint 30)]), (77 * 2 ^ 128 + 6 * 2 ^ 96 + 2 * 2 ^ 64 + 50 * 2 ^ 56), by decide +kernel⟩,
    ⟨(ssv 1 { cfg := langCfg }), (rq 7 [(2, .uint 0)]), ([(0, .uint 7), (1, .uint 30), (2, .uint 0)]), (77 * 2 ^ 128 + 6 * 2 ^ 96 + 2 * 2 ^ 64 + 50 * 2 ^ 56), 0, by decide +kernel⟩,
    ⟨(ssv 2 { cfg := langCfg }), (rq 7 []), ([(0, .uint 7), (1, .uint 30)]), (77 * 2 ^ 128 + 6 * 2 ^ 96 + 2 * 2 ^ 64 + 50 * 2 ^ 56), by decide +kernel⟩⟩

/-- States that meet the hypotheses of EndpointRequestsAreServed. -/
theorem witness_EndpointRequestsAreServed_7 :
    (∃ (s : State) (r : Request) (m : CborMap) (e : Nat) (n : Nat), (s.requestMap r 7 [] [2, 3] = some m) ∧ (keyOf m 3 = none) ∧ (s.tenantOf r.client = some e) ∧ (n < 16) ∧ (keyOf m 2 = some (.uint n)) ∧ (s.answers n = true)) := by
  exact ⟨(ssv 2 { cfg := langCfg, waiting := [rq3] }), (rq 7 [(2, .uint 0)]), ([(0, .uint 7), (1, .uint 30), (2, .uint 0)]), (77 * 2 ^ 128 + 6 * 2 ^ 96 + 2 * 2 ^ 64 + 50 * 2 ^ 56), 0, by decide +kernel⟩

/-- States that meet the hypotheses of FaultsAreCoalescedAndRecorded. -/
theorem witness_FaultsAreCoalescedAndRecorded :
    (∃ (s : State) (r : Report) (e : Nat), (e < 255) ∧ (s.levee e = none) ∧ (∀ i, i < e → s.levee i ≠ none) ∧ (∀ i x, i < 255 → s.levee i = some x → x.suspect ≠ reportKey r ∨ x.cls ≠ r.cls)) ∧
    (∃ (s : State) (r : Report) (e : Nat), (e < 255) ∧ (s.levee e = none) ∧ (∀ i, i < e → s.levee i ≠ none) ∧ (∀ i x, i < 255 → s.levee i = some x → x.suspect ≠ reportKey r ∨ x.cls ≠ r.cls)) ∧
    (∃ (s : State) (r : Report) (e : Nat) (x : LeveeRec), (e < 255) ∧ (s.levee e = some x) ∧ (x.suspect = reportKey r) ∧ (x.cls = r.cls) ∧ (∀ i y, i < e → s.levee i = some y → y.suspect ≠ reportKey r ∨ y.cls ≠ r.cls)) ∧
    (∃ (s : State) (r : Report) (e : Nat) (x : LeveeRec), (e < 255) ∧ (s.levee e = some x) ∧ (x.suspect = reportKey r) ∧ (x.cls = r.cls) ∧ (∀ i y, i < e → s.levee i = some y → y.suspect ≠ reportKey r ∨ y.cls ≠ r.cls)) ∧
    (∃ (s : State) (r : Report) (x : LeveeRec), (∀ i, i < 255 → ∃ y, s.levee i = some y ∧ (y.suspect ≠ reportKey r ∨ y.cls ≠ r.cls)) ∧ (s.levee 255 = some x)) := by
  exact ⟨⟨svc, rep1, 0, ⟨by decide, by decide +kernel, fun i hi => absurd hi (by omega), fun i x _ h => by cases h⟩⟩,
    ⟨(logOf 254 id), rep1, 254, ⟨by decide, by decide +kernel, by decide +kernel, fun i x hi h => of_decide_eq_true (log_all (fun x => decide (x.suspect ≠ reportKey rep1 ∨ x.cls ≠ rep1.cls)) (by decide +kernel) i x hi h)⟩⟩,
    ⟨({ svc with faults := { levee := [(0, some { lrec with suspect := reportKey rep1 })] } }), rep1, 0, ({ lrec with suspect := reportKey rep1 }), ⟨by decide, by decide +kernel, by decide +kernel, by decide +kernel, fun i y hi => absurd hi (by omega)⟩⟩,
    ⟨({ svc with faults := { levee := [(254, some { lrec with suspect := reportKey rep1 })] } }), rep1, 254, ({ lrec with suspect := reportKey rep1 }), ⟨by decide, by decide +kernel, by decide +kernel, by decide +kernel, fun i x hi h => of_decide_eq_true (log_all (fun x => decide (x.suspect ≠ reportKey rep1 ∨ x.cls ≠ rep1.cls)) (by decide +kernel) i x hi h)⟩⟩,
    ⟨(logOf 256 id), rep1, lrec, ⟨fun i hi => (log_full (fun x => decide (x.suspect ≠ reportKey rep1 ∨ x.cls ≠ rep1.cls)) (by decide +kernel) i hi).imp (fun _ h => ⟨h.1, of_decide_eq_true h.2⟩), by decide +kernel⟩⟩⟩

/-- States that meet the hypotheses of FaultsAreCoalescedAndRecorded. -/
theorem witness_FaultsAreCoalescedAndRecorded_2 :
    (∃ (s : State) (e : Nat), (s.levee e = none)) ∧
    (∃ (s : State) (e : Nat) (x : LeveeRec), (s.levee e = some x) ∧ (x.firstAt + ((x.aboveAt - x.firstAt) / msTide + 11) * msTide ≤ s.elapsed)) ∧
    (∃ (s : State) (e : Nat) (x : LeveeRec), (s.levee e = some x) ∧ (¬ (x.firstAt + ((x.aboveAt - x.firstAt) / msTide + 11) * msTide ≤ s.elapsed))) ∧
    (∃ (s : State) (e : Nat) (x : LeveeRec), (s.levee e = some x) ∧ (x.noticed < x.count) ∧ (x.noticeAt + 10 * msTide ≤ s.elapsed)) ∧
    (∃ (s : State) (e : Nat) (x : LeveeRec), (s.levee e = some x) ∧ (x.count ≤ x.noticed ∨ s.elapsed < x.noticeAt + 10 * msTide)) := by
  exact ⟨⟨svc, 255, by decide +kernel⟩,
    ⟨({ logOf 2 (fun x => { x with active := true, storm := true }) with elapsed := 44000000 }), 1, ({ lrec with active := true, storm := true }), by decide +kernel⟩,
    ⟨({ logOf 2 (fun x => { x with active := true, storm := true }) with elapsed := 43999999 }), 1, ({ lrec with active := true, storm := true }), by decide +kernel⟩,
    ⟨({ logOf 2 (fun x => { x with count := 5 }) with elapsed := 40000000 }), 1, ({ lrec with count := 5 }), by decide +kernel⟩,
    ⟨(logOf 2 id), 1, lrec, by decide +kernel⟩⟩

/-- States that meet the hypotheses of FaultsAreCoalescedAndRecorded. -/
theorem witness_FaultsAreCoalescedAndRecorded_3 :
    (∃ (s : State) (e : Nat) (x : LeveeRec), (s.levee e = some x) ∧ (x.count ≤ x.noticed ∨ s.elapsed < x.noticeAt + 10 * msTide)) ∧
    (∃ (s : State) (e : Nat) (x : LeveeRec), (s.levee e = some x) ∧ (x.count = x.noticed) ∧ (x.lastAt + secTide ≤ s.elapsed)) ∧
    (∃ (s : State) (e : Nat) (x : LeveeRec), (s.levee e = some x) ∧ (x.count ≠ x.noticed ∨ s.elapsed < x.lastAt + secTide)) ∧
    (∃ (s : State) (e : Nat) (x : LeveeRec), (s.levee e = some x) ∧ (x.count ≠ x.noticed ∨ s.elapsed < x.lastAt + secTide)) ∧
    (∃ (s : State) (m : Nat) (w : Nat) (d : DtlMsg) (lo : Codeword) (hi : Codeword), (soundMsg d) ∧ (d.cells = [lo, hi]) ∧ (w = 2 ^ 256 * (decodedRow hi).toNat + (decodedRow lo).toNat)) := by
  exact ⟨⟨({ logOf 2 (fun x => { x with count := 5 }) with elapsed := 39999999 }), 1, ({ lrec with count := 5 }), by decide +kernel⟩,
    ⟨({ logOf 2 id with elapsed := secTide }), 1, lrec, by decide +kernel⟩,
    ⟨(logOf 2 (fun x => { x with count := 5 })), 1, ({ lrec with count := 5 }), by decide +kernel⟩,
    ⟨({ logOf 2 id with elapsed := 3999999999 }), 1, lrec, by decide +kernel⟩,
    ⟨({ svc with faults := { archive := [1, 2, 3] } }), 1, _, ({ dtype := 0x0B, arg := 1, cells := [encodeRow 5, encodeRow 7] }), (encodeRow 5), (encodeRow 7), ⟨by simp only [soundMsg]; decide +kernel, by decide +kernel, rfl⟩⟩⟩

/-- States that meet the hypotheses of FaultsAreCoalescedAndRecorded. -/
theorem witness_FaultsAreCoalescedAndRecorded_4 :
    (∃ (s : State), (s.power.closed = true)) ∧
    (∃ (s : State), (s.power.closed = false)) ∧
    (∃ (s : State), (s.power.closed = false)) ∧
    (∃ (s : State) (sess : Nat) (code : Nat), (s.writeGuard sess 0x6010 2 = none)) ∧
    (∃ (s : State) (sess : Nat) (code : Nat), (s.writeGuard sess 0x6010 2 = none)) := by
  exact ⟨⟨({ svc with power := { closed := true } }), by decide +kernel⟩,
    ⟨svc, by decide +kernel⟩,
    ⟨(obs [(0x6010, 1, 0, 59)] svc), by decide +kernel⟩,
    ⟨({ svc with faults := { history := [{ suspect := 3, cls := 1 }] } }), 5, 3, by decide +kernel⟩,
    ⟨({ svc with faults := { history := [{ suspect := 3, cls := 1 }] } }), 5, 4, by decide +kernel⟩⟩

/-- States that meet the hypotheses of FaultsAreCoalescedAndRecorded. -/
theorem witness_FaultsAreCoalescedAndRecorded_5 :
    (∃ (s : State) (d : Domain), (∀ e, e ∈ s.faults.closing → e.1 = d → s.elapsed < e.2)) ∧
    (∃ (s : State) (n : Nat) (h : Nat) (p : Packet), (n < 1224) ∧ (s.faults.closing = [(.tile n, h)]) ∧ (h ≤ s.elapsed) ∧ ((s.tile n).merges = []) ∧ ((s.tile n).gau.held = [p]) ∧ (s.tileState n ≠ 5 ∨ (s.tile n).owner ≠ none)) ∧
    (∃ (s : State) (n : Nat) (h : Nat), (n < 1224) ∧ (s.faults.closing = [(.tile n, h)]) ∧ (h ≤ s.elapsed) ∧ ((s.tile n).merges = []) ∧ ((s.tile n).gau.held = []) ∧ (s.tileState n = 5) ∧ ((s.tile n).owner = none) ∧ ((s.tile n).cause ≠ 0)) ∧
    (∃ (s : State) (h : Nat), (s.faults.closing = [(.device, h)]) ∧ (h ≤ s.elapsed) ∧ (s.faults.recovery = .closing)) := by
  exact ⟨⟨({ svc with faults := { closing := [(.device, svc.elapsed + 1)] } }), .device, fun e h => by simp at h; subst h; intro _; exact Nat.lt_succ_self _⟩,
    ⟨({ svc with tiles := [(1223, { gau := { held := [{ tag := 7 }] } })], faults := { closing := [(.tile 1223, 0)] } }), 1223, 0, ({ tag := 7 }), by decide +kernel⟩,
    ⟨({ obs [(tileIx 1223, 0, 0, 5)] svc with tiles := [(1223, { cause := 1 })], faults := { closing := [(.tile 1223, 0)] } }), 1223, 0, by decide +kernel⟩,
    ⟨({ svc with faults := { closing := [(.device, 0)], recovery := .closing } }), 0, by decide +kernel⟩⟩

/-- States that meet the hypotheses of StepsDrainRestoreAndDevicesRecover. -/
theorem witness_StepsDrainRestoreAndDevicesRecover :
    (∃ (s : State) (q : Nat), (s.jobState q ≠ 4 ∧ s.jobState q ≠ 7 ∨ s.drainedHere q = false ∨ s.job q = none ∨ (∃ j, s.job q = some j ∧ j.selfDone = true ∧ s.jobState q ≠ 7))) ∧
    (∃ (s : State) (q : Nat), (s.jobState q ≠ 4 ∧ s.jobState q ≠ 7 ∨ s.drainedHere q = false ∨ s.job q = none ∨ (∃ j, s.job q = some j ∧ j.selfDone = true ∧ s.jobState q ≠ 7))) ∧
    (∃ (s : State) (q : Nat), (s.jobState q ≠ 4 ∧ s.jobState q ≠ 7 ∨ s.drainedHere q = false ∨ s.job q = none ∨ (∃ j, s.job q = some j ∧ j.selfDone = true ∧ s.jobState q ≠ 7))) ∧
    (∃ (s : State) (q : Nat) (j : Job), (q < 12) ∧ (s.job q = some j) ∧ (s.jobState q = 4) ∧ (j.selfDone = false) ∧ (s.drainedHere q = true) ∧ (j.barrier = false) ∧ (j.remaps = []) ∧ (j.twin = none) ∧ (∀ n, n ∈ j.map → n < 1224)) ∧
    (∃ (s : State) (q : Nat) (readable : Bool), (s.job q = none ∨ (∃ j, s.job q = some j ∧ j.remaps = []))) := by
  exact ⟨⟨svc, 11, by decide +kernel⟩,
    ⟨(obs [(0x5010, 0, 0, 3)] (jst job9)), 0, by decide +kernel⟩,
    ⟨(obs [(0x5010, 0, 0, 4)] (jst { job9 with selfDone := true })), 0, .inr (.inr (.inr ⟨{ job9 with selfDone := true }, by decide +kernel, rfl, by decide +kernel⟩))⟩,
    ⟨({ obs [(0x5010, 0, 0, 4)] (jst job9) with tiles := [(0, { owner := some 0, gau := { st := .live, gauges := [(1, { value := 9, mask := 1 })], snapshot := [(1, 5)] } }), (1, { owner := some 0, gau := { st := .live } })] }), 0, job9, by decide +kernel⟩,
    ⟨svc, 11, true, .inl (by decide +kernel)⟩⟩

/-- States that meet the hypotheses of StepsDrainRestoreAndDevicesRecover. -/
theorem witness_StepsDrainRestoreAndDevicesRecover_2 :
    (∃ (s : State) (q : Nat) (readable : Bool), (s.job q = none ∨ (∃ j, s.job q = some j ∧ j.remaps = []))) ∧
    (∃ (s : State) (q : Nat) (j : Job) (r : Remap) (rest : List Remap), (q < 12) ∧ (s.job q = some j) ∧ (j.remaps = r :: rest) ∧ (s.jobState q = 1 ∨ s.jobState q = 2 ∨ s.jobState q = 3 ∨ s.jobState q = 4)) ∧
    (∃ (s : State) (q : Nat) (j : Job) (r : Remap) (rest : List Remap), (q < 12) ∧ (s.job q = some j) ∧ (j.remaps = r :: rest) ∧ (s.jobState q = 1 ∨ s.jobState q = 2 ∨ s.jobState q = 3 ∨ s.jobState q = 4)) ∧
    (∃ (s : State) (q : Nat) (j : Job) (r : Remap) (rest : List Remap), (q < 12) ∧ (s.job q = some j) ∧ (j.remaps = r :: rest) ∧ (s.jobState q = 1 ∨ s.jobState q = 2 ∨ s.jobState q = 3 ∨ s.jobState q = 4)) ∧
    (∃ (s : State) (q : Nat) (j : Job) (r : Remap) (rest : List Remap), (q < 12) ∧ (s.job q = some j) ∧ (j.remaps = r :: rest) ∧ (s.jobState q = 1 ∨ s.jobState q = 2 ∨ s.jobState q = 3 ∨ s.jobState q = 4)) := by
  exact ⟨⟨(obs [(0x5010, 0, 0, 4)] (jst job9)), 0, true, .inr ⟨job9, by decide +kernel, rfl⟩⟩,
    ⟨(obs [(0x5010, 0, 0, 1)] (jst { job9 with remaps := [{ logical := 0, closed := 0, target := 5 }] })), 0, ({ job9 with remaps := [{ logical := 0, closed := 0, target := 5 }] }), ({ logical := 0, closed := 0, target := 5 }), [], by decide +kernel⟩,
    ⟨(obs [(0x5010, 0, 0, 2)] (jst { job9 with remaps := [{ logical := 0, closed := 0, target := 5 }] })), 0, ({ job9 with remaps := [{ logical := 0, closed := 0, target := 5 }] }), ({ logical := 0, closed := 0, target := 5 }), [], by decide +kernel⟩,
    ⟨(obs [(0x5010, 0, 0, 3)] (jst { job9 with remaps := [{ logical := 0, closed := 0, target := 5 }] })), 0, ({ job9 with remaps := [{ logical := 0, closed := 0, target := 5 }] }), ({ logical := 0, closed := 0, target := 5 }), [], by decide +kernel⟩,
    ⟨(obs [(0x5010, 0, 0, 4)] (jst { job9 with remaps := [{ logical := 0, closed := 0, target := 5 }] })), 0, ({ job9 with remaps := [{ logical := 0, closed := 0, target := 5 }] }), ({ logical := 0, closed := 0, target := 5 }), [], by decide +kernel⟩⟩

/-- States that meet the hypotheses of StepsDrainRestoreAndDevicesRecover. -/
theorem witness_StepsDrainRestoreAndDevicesRecover_3 :
    (∃ (s : State) (q : Nat) (j : Job) (r : Remap) (rest : List Remap), (q < 12) ∧ (s.job q = some j) ∧ (j.remaps = r :: rest) ∧ (s.jobState q = 4) ∧ (j.selfDone = false) ∧ (r.target < 1224) ∧ (r.closed < 1224) ∧ (r.closed ≠ r.target) ∧ ((s.tile r.closed).cause ≠ 0) ∧ (s.plane (clusterOf r.target) = 2)) ∧
    (∃ (s : State) (q : Nat), (s.jobState q ≠ 4 ∨ s.drainPast q = false ∨ (∃ j, s.job q = some j ∧ j.selfDone = true))) ∧
    (∃ (s : State) (q : Nat), (s.jobState q ≠ 4 ∨ s.drainPast q = false ∨ (∃ j, s.job q = some j ∧ j.selfDone = true))) ∧
    (∃ (s : State) (q : Nat) (j : Job), (s.job q = some j) ∧ (s.jobState q = 4) ∧ (s.drainPast q = true) ∧ (j.selfDone = false) ∧ (s.device.mode = .service)) ∧
    (∃ (s : State) (q : Nat) (j : Job), (s.job q = some j) ∧ (s.jobState q ≠ 4 ∨ s.drainPast q = false ∨ j.selfDone = false ∨ (∀ d, d ∈ s.members q → d ∈ j.drained))) := by
  exact ⟨⟨({ obs [(0x5010, 0, 0, 4), (0x1040, 0, 0, 2), (tileIx 0, 0, 0, 5), (tileIx 2, 0, 0, 1)] (jst { job9 with remaps := [{ logical := 0, closed := 0, target := 2 }] }) with tiles := [(0, { owner := some 0, cause := 1, gau := { st := .live } }), (1, { owner := some 0, gau := { st := .live } })] }), 0, ({ job9 with remaps := [{ logical := 0, closed := 0, target := 2 }] }), ({ logical := 0, closed := 0, target := 2 }), [], by decide +kernel⟩,
    ⟨svc, 11, .inl (by decide +kernel)⟩,
    ⟨(obs [(0x5010, 0, 0, 4)] (jst { job9 with selfDone := true })), 0, .inr (.inr ⟨{ job9 with selfDone := true }, by decide +kernel, rfl⟩)⟩,
    ⟨({ obs [(0x5010, 0, 0, 4)] (jst job9) with elapsed := 2 ^ 50 }), 0, job9, by decide +kernel⟩,
    ⟨(obs [(0x5010, 0, 0, 3)] (jst job9)), 0, job9, ⟨by decide +kernel, .inl (by decide +kernel)⟩⟩⟩

/-- States that meet the hypotheses of StepsDrainRestoreAndDevicesRecover. -/
theorem witness_StepsDrainRestoreAndDevicesRecover_4 :
    (∃ (s : State) (q : Nat) (j : Job), (s.job q = some j) ∧ (s.jobState q ≠ 4 ∨ s.drainPast q = false ∨ j.selfDone = false ∨ (∀ d, d ∈ s.members q → d ∈ j.drained))) ∧
    (∃ (s : State) (q : Nat) (j : Job) (d : Nat), (s.job q = some j) ∧ (s.jobState q = 4) ∧ (s.drainPast q = true) ∧ (j.selfDone = true) ∧ (d ∈ s.members q) ∧ (d ∉ j.drained)) ∧
    (∃ (s : State) (q : Nat) (ok : Bool), (s.dogFired q = false)) ∧
    (∃ (s : State) (q : Nat) (ok : Bool) (j : Job), (s.job q = some j) ∧ (s.dogFired q = true) ∧ (s.jobState q = 2)) ∧
    (∃ (s : State) (q : Nat) (ok : Bool) (j : Job), (s.job q = some j) ∧ (s.dogFired q = true) ∧ (s.jobState q = 3) ∧ (s.controlOk q ok = true) ∧ (j.dogStep ≠ some (s.step' q)) ∧ (s.obj (0x6030 + q) 2 < 3)) := by
  exact ⟨⟨({ obs [(0x5010, 0, 0, 4)] (jst { job9 with selfDone := true }) with elapsed := 2 ^ 50 }), 0, ({ job9 with selfDone := true }), ⟨by decide +kernel, .inr (.inr (.inr (by decide +kernel)))⟩⟩,
    ⟨({ obs [(0x5010, 0, 0, 4)] (jst { job9 with barrier := true, group := 16, selfDone := true }) with elapsed := 2 ^ 50 }), 0, ({ job9 with barrier := true, group := 16, selfDone := true }), 4, by decide +kernel⟩,
    ⟨svc, 11, true, by decide +kernel⟩,
    ⟨(obs [(0x5010, 0, 0, 2), (tileIx 0, 0x30, 1, 5)] (jst job9)), 0, true, job9, by decide +kernel⟩,
    ⟨(obs [(0x5010, 0, 0, 3), (tileIx 0, 0x30, 1, 5)] (jst job9)), 0, true, job9, by decide +kernel⟩⟩

/-- States that meet the hypotheses of StepsDrainRestoreAndDevicesRecover. -/
theorem witness_StepsDrainRestoreAndDevicesRecover_5 :
    (∃ (s : State) (q : Nat) (ok : Bool) (j : Job), (s.job q = some j) ∧ (s.dogFired q = true) ∧ (s.jobState q = 3) ∧ (s.controlOk q ok = true) ∧ (j.dogStep = some (s.step' q))) ∧
    (∃ (s : State) (q : Nat) (ok : Bool) (j : Job), (s.job q = some j) ∧ (s.dogFired q = true) ∧ (s.jobState q = 3) ∧ (s.controlOk q ok = true) ∧ (j.dogStep = some (s.step' q))) ∧
    (∃ (s : State) (q : Nat) (ok : Bool) (j : Job), (s.job q = some j) ∧ (s.dogFired q = true) ∧ (s.jobState q = 3) ∧ (s.controlOk q ok = false) ∧ (s.device.mode = .service)) ∧
    (∃ (s : State) (q : Nat) (ok : Bool) (j : Job), (s.job q = some j) ∧ (s.dogFired q = true) ∧ (s.jobState q = 3) ∧ (s.controlOk q ok = false) ∧ (s.device.mode = .service)) ∧
    (∃ (s : State) (m : CtrlMsg), (s.partitionOfJob (mJobId m) = none)) := by
  exact ⟨⟨(obs [(0x5010, 0, 0, 3), (tileIx 0, 0x30, 1, 5)] (jst { job9 with dogStep := some 0, dogOwner := true })), 0, true, ({ job9 with dogStep := some 0, dogOwner := true }), by decide +kernel⟩,
    ⟨(obs [(0x5010, 0, 0, 3), (tileIx 0, 0x30, 1, 5)] (jst { job9 with dogStep := some 0, dogOwner := false })), 0, true, ({ job9 with dogStep := some 0, dogOwner := false }), by decide +kernel⟩,
    ⟨(obs [(0x5010, 0, 0, 3), (tileIx 0, 0x30, 1, 5)] (jst job9)), 0, false, job9, by decide +kernel⟩,
    ⟨(obs [(0x5010, 0, 0, 3), (tileIx 0, 0x30, 1, 5), (tileIx 0, 0x38, 0, 4)] (jst job9)), 0, true, job9, by decide +kernel⟩,
    ⟨svc, ({ mtype := 0x20, src := 4, body := BitVec.ofNat 224 (9 * 2 ^ 208 + 0 * 2 ^ 144 + 3 * 2 ^ 136) }), by decide +kernel⟩⟩

/-- States that meet the hypotheses of StepsDrainRestoreAndDevicesRecover. -/
theorem witness_StepsDrainRestoreAndDevicesRecover_6 :
    (∃ (s : State) (m : CtrlMsg) (q : Nat) (j : Job), (s.partitionOfJob (mJobId m) = some q) ∧ (s.job q = some j) ∧ (ctrlOk 0x20 m = true) ∧ (s.before' q (mStep m) j = false) ∧ (s.jobState q = 3) ∧ (s.step' q = mStep m) ∧ (s.obj (0x6030 + q) 2 < 3)) ∧
    (∃ (s : State) (m : CtrlMsg) (q : Nat) (j : Job), (s.partitionOfJob (mJobId m) = some q) ∧ (s.job q = some j) ∧ (ctrlOk 0x20 m = true) ∧ (s.before' q (mStep m) j = false) ∧ (s.jobState q = 3) ∧ (mStep m < s.step' q)) ∧
    (∃ (s : State) (m : CtrlMsg) (q : Nat) (j : Job), (s.partitionOfJob (mJobId m) = some q) ∧ (s.job q = some j) ∧ (ctrlOk 0x20 m = true) ∧ (s.before' q (mStep m) j = true) ∧ (s.obj (0x6030 + q) 2 < 3) ∧ (∀ n, n ∈ s.jobTiles q → n < 1224)) ∧
    (∃ (s : State) (m : CtrlMsg) (q : Nat) (j : Job), (s.partitionOfJob (mJobId m) = some q) ∧ (s.job q = some j) ∧ (ctrlOk 0x20 m = true) ∧ (s.before' q (mStep m) j = true) ∧ (s.obj (0x6030 + q) 2 < 3) ∧ (∀ n, n ∈ s.jobTiles q → n < 1224)) ∧
    (∃ (s : State) (m : CtrlMsg) (q : Nat) (j : Job), (s.partitionOfJob (mJobId m) = some q) ∧ (s.job q = some j) ∧ (s.step' q ≠ mStep m)) := by
  exact ⟨⟨(obs [(0x5010, 0, 0, 3)] (jst job9)), ({ mtype := 0x20, src := 4, body := BitVec.ofNat 224 (9 * 2 ^ 208 + 0 * 2 ^ 144 + 3 * 2 ^ 136) }), 0, job9, by decide +kernel⟩,
    ⟨(obs [(0x5010, 0, 0, 3), (0x5010, 5, 0, 7)] (jst job9)), ({ mtype := 0x20, src := 4, body := BitVec.ofNat 224 (9 * 2 ^ 208 + 5 * 2 ^ 144 + 3 * 2 ^ 136) }), 0, job9, by decide +kernel⟩,
    ⟨(obs [(0x5010, 0, 0, 2), (0x5010, 5, 0, 7)] (jst job9)), ({ mtype := 0x20, src := 4, body := BitVec.ofNat 224 (9 * 2 ^ 208 + 6 * 2 ^ 144 + 3 * 2 ^ 136) }), 0, job9, by decide +kernel⟩,
    ⟨(obs [(0x5010, 0, 0, 3), (0x5010, 5, 0, 7)] (jst { job9 with starting := true })), ({ mtype := 0x20, src := 4, body := BitVec.ofNat 224 (9 * 2 ^ 208 + 6 * 2 ^ 144 + 3 * 2 ^ 136) }), 0, ({ job9 with starting := true }), by decide +kernel⟩,
    ⟨(obs [(0x5010, 0, 0, 4)] (jst job9)), ({ mtype := 0x20, src := 4, body := BitVec.ofNat 224 (9 * 2 ^ 208 + 3 * 2 ^ 144) }), 0, job9, by decide +kernel⟩⟩

/-- States that meet the hypotheses of StepsDrainRestoreAndDevicesRecover. -/
theorem witness_StepsDrainRestoreAndDevicesRecover_7 :
    (∃ (s : State) (m : CtrlMsg) (q : Nat) (j : Job), (s.partitionOfJob (mJobId m) = some q) ∧ (s.job q = some j) ∧ (ctrlOk 0x21 m = true) ∧ (s.step' q = mStep m) ∧ (j.selfDone = false)) ∧
    (∃ (s : State) (m : CtrlMsg) (q : Nat) (j : Job), (s.partitionOfJob (mJobId m) = some q) ∧ (s.job q = some j) ∧ (ctrlOk 0x21 m = true) ∧ (s.step' q = mStep m) ∧ (j.selfDone = false)) ∧
    (∃ (s : State) (m : CtrlMsg) (q : Nat) (j : Job), (s.partitionOfJob (mJobId m) = some q) ∧ (s.job q = some j) ∧ (ctrlOk 0x22 m = true) ∧ (s.jobState q = 1 ∨ s.jobState q = 2 ∨ s.jobState q = 3 ∨ s.jobState q = 4)) ∧
    (∃ (s : State) (m : CtrlMsg) (q : Nat) (j : Job), (s.partitionOfJob (mJobId m) = some q) ∧ (s.job q = some j) ∧ (ctrlOk 0x22 m = true) ∧ (s.jobState q = 1 ∨ s.jobState q = 2 ∨ s.jobState q = 3 ∨ s.jobState q = 4)) ∧
    (∃ (s : State) (m : CtrlMsg) (q : Nat) (j : Job), (s.partitionOfJob (mJobId m) = some q) ∧ (s.job q = some j) ∧ (ctrlOk 0x22 m = true) ∧ (s.jobState q = 1 ∨ s.jobState q = 2 ∨ s.jobState q = 3 ∨ s.jobState q = 4)) := by
  exact ⟨⟨(obs [(0x5010, 0, 0, 4)] (jst job9)), ({ mtype := 0x20, src := 4, body := BitVec.ofNat 224 (9 * 2 ^ 208 + 0 * 2 ^ 144) }), 0, job9, by decide +kernel⟩,
    ⟨(obs [(0x5010, 0, 0, 4)] (jst { job9 with drained := [4] })), ({ mtype := 0x20, src := 4, body := BitVec.ofNat 224 (9 * 2 ^ 208 + 0 * 2 ^ 144) }), 0, ({ job9 with drained := [4] }), by decide +kernel⟩,
    ⟨(obs [(0x5010, 0, 0, 1)] (jst job9)), ({ mtype := 0x20, src := 4, body := BitVec.ofNat 224 (9 * 2 ^ 208 + 0 * 2 ^ 144 + 3 * 2 ^ 136) }), 0, job9, by decide +kernel⟩,
    ⟨(obs [(0x5010, 0, 0, 2)] (jst job9)), ({ mtype := 0x20, src := 4, body := BitVec.ofNat 224 (9 * 2 ^ 208 + 0 * 2 ^ 144 + 3 * 2 ^ 136) }), 0, job9, by decide +kernel⟩,
    ⟨(obs [(0x5010, 0, 0, 3)] (jst job9)), ({ mtype := 0x20, src := 4, body := BitVec.ofNat 224 (9 * 2 ^ 208 + 0 * 2 ^ 144 + 3 * 2 ^ 136) }), 0, job9, by decide +kernel⟩⟩

/-- States that meet the hypotheses of StepsDrainRestoreAndDevicesRecover. -/
theorem witness_StepsDrainRestoreAndDevicesRecover_8 :
    (∃ (s : State) (m : CtrlMsg) (q : Nat) (j : Job), (s.partitionOfJob (mJobId m) = some q) ∧ (s.job q = some j) ∧ (ctrlOk 0x22 m = true) ∧ (s.jobState q = 1 ∨ s.jobState q = 2 ∨ s.jobState q = 3 ∨ s.jobState q = 4)) ∧
    (∃ (s : State) (m : CtrlMsg) (q : Nat) (j : Job), (s.partitionOfJob (mJobId m) = some q) ∧ (s.job q = some j) ∧ (s.jobState q = 0 ∨ s.jobState q = 5 ∨ s.jobState q = 6 ∨ s.jobState q = 7)) ∧
    (∃ (s : State) (m : CtrlMsg) (q : Nat) (j : Job), (s.partitionOfJob (mJobId m) = some q) ∧ (s.job q = some j) ∧ (s.jobState q = 0 ∨ s.jobState q = 5 ∨ s.jobState q = 6 ∨ s.jobState q = 7)) ∧
    (∃ (s : State) (m : CtrlMsg) (q : Nat) (j : Job), (s.partitionOfJob (mJobId m) = some q) ∧ (s.job q = some j) ∧ (s.jobState q = 0 ∨ s.jobState q = 5 ∨ s.jobState q = 6 ∨ s.jobState q = 7)) ∧
    (∃ (s : State) (m : CtrlMsg) (q : Nat) (j : Job), (s.partitionOfJob (mJobId m) = some q) ∧ (s.job q = some j) ∧ (s.jobState q = 0 ∨ s.jobState q = 5 ∨ s.jobState q = 6 ∨ s.jobState q = 7)) := by
  exact ⟨⟨(obs [(0x5010, 0, 0, 4)] (jst job9)), ({ mtype := 0x20, src := 4, body := BitVec.ofNat 224 (9 * 2 ^ 208 + 0 * 2 ^ 144 + 3 * 2 ^ 136) }), 0, job9, by decide +kernel⟩,
    ⟨(obs [(0x5010, 0, 0, 0)] (jst job9)), ({ mtype := 0x20, src := 4, body := BitVec.ofNat 224 (9 * 2 ^ 208 + 0 * 2 ^ 144 + 3 * 2 ^ 136) }), 0, job9, by decide +kernel⟩,
    ⟨(obs [(0x5010, 0, 0, 5)] (jst job9)), ({ mtype := 0x20, src := 4, body := BitVec.ofNat 224 (9 * 2 ^ 208 + 0 * 2 ^ 144 + 3 * 2 ^ 136) }), 0, job9, by decide +kernel⟩,
    ⟨(obs [(0x5010, 0, 0, 6)] (jst job9)), ({ mtype := 0x20, src := 4, body := BitVec.ofNat 224 (9 * 2 ^ 208 + 0 * 2 ^ 144 + 3 * 2 ^ 136) }), 0, job9, by decide +kernel⟩,
    ⟨(obs [(0x5010, 0, 0, 7)] (jst job9)), ({ mtype := 0x20, src := 4, body := BitVec.ofNat 224 (9 * 2 ^ 208 + 0 * 2 ^ 144 + 3 * 2 ^ 136) }), 0, job9, by decide +kernel⟩⟩

/-- States that meet the hypotheses of StepsDrainRestoreAndDevicesRecover. -/
theorem witness_StepsDrainRestoreAndDevicesRecover_9 :
    (∃ (s : State) (m : CtrlMsg), (ctrlOk 0x23 m = true) ∧ (∀ q, q < 12 → m.src ∉ s.members q) ∧ (∀ q, q < 12 → (s.disp q).tokens = [] ∧ (s.disp q).queue = [])) ∧
    (∃ (s : State) (m : CtrlMsg) (q : Nat), (ctrlOk 0x23 m = true) ∧ (q < 12) ∧ (m.src ∈ s.members q) ∧ (∀ k, k < 12 → k ≠ q → m.src ∉ s.members k) ∧ (∀ k, k < 12 → (s.disp k).tokens = [] ∧ (s.disp k).queue = []) ∧ (s.jobState q = 2 ∨ s.jobState q = 3 ∨ s.jobState q = 4)) ∧
    (∃ (s : State) (m : CtrlMsg) (q : Nat), (ctrlOk 0x23 m = true) ∧ (q < 12) ∧ (m.src ∈ s.members q) ∧ (∀ k, k < 12 → k ≠ q → m.src ∉ s.members k) ∧ (∀ k, k < 12 → (s.disp k).tokens = [] ∧ (s.disp k).queue = []) ∧ (s.jobState q = 2 ∨ s.jobState q = 3 ∨ s.jobState q = 4)) ∧
    (∃ (s : State) (m : CtrlMsg) (q : Nat), (ctrlOk 0x23 m = true) ∧ (q < 12) ∧ (m.src ∈ s.members q) ∧ (∀ k, k < 12 → k ≠ q → m.src ∉ s.members k) ∧ (∀ k, k < 12 → (s.disp k).tokens = [] ∧ (s.disp k).queue = []) ∧ (s.jobState q = 2 ∨ s.jobState q = 3 ∨ s.jobState q = 4)) ∧
    (∃ (s : State) (m : CtrlMsg), (ctrlOk 0x24 m = true)) := by
  exact ⟨⟨(obs [(0x5010, 0, 0, 3)] (jst job9)), ({ mtype := 0x20, src := 4, body := BitVec.ofNat 224 (9 * 2 ^ 208 + 0 * 2 ^ 144) }), by decide +kernel⟩,
    ⟨(obs [(0x5010, 0, 0, 2)] (jst { job9 with barrier := true, group := 16 })), ({ mtype := 0x20, src := 4, body := BitVec.ofNat 224 (9 * 2 ^ 208 + 0 * 2 ^ 144) }), 0, by decide +kernel⟩,
    ⟨(obs [(0x5010, 0, 0, 3)] (jst { job9 with barrier := true, group := 16 })), ({ mtype := 0x20, src := 4, body := BitVec.ofNat 224 (9 * 2 ^ 208 + 0 * 2 ^ 144) }), 0, by decide +kernel⟩,
    ⟨(obs [(0x5010, 0, 0, 4)] (jst { job9 with barrier := true, group := 16 })), ({ mtype := 0x20, src := 4, body := BitVec.ofNat 224 (9 * 2 ^ 208 + 0 * 2 ^ 144) }), 0, by decide +kernel⟩,
    ⟨({ svc with faults := { peersClosed := [4, 5] } }), ({ mtype := 0x20, src := 4, body := BitVec.ofNat 224 (9 * 2 ^ 208 + 0 * 2 ^ 144) }), by decide +kernel⟩⟩

/-- States that meet the hypotheses of StepsDrainRestoreAndDevicesRecover. -/
theorem witness_StepsDrainRestoreAndDevicesRecover_10 :
    (∃ (s : State) (sess : Nat), (s.writeGuard sess 0x6020 0 = none) ∧ (s.device.mode = .service ∨ s.device.mode = .test)) ∧
    (∃ (s : State) (sess : Nat), (s.writeGuard sess 0x6020 0 = none) ∧ (s.device.mode = .service ∨ s.device.mode = .test)) ∧
    (∃ (s : State) (sess : Nat), (s.writeGuard sess 0x6020 0 = none) ∧ (s.device.mode = .recovery)) ∧
    (∃ (s : State) (sess : Nat), (s.writeGuard sess 0x6020 0 = none) ∧ (s.device.mode = .startup)) ∧
    (∃ (s : State) (sess : Nat), (s.writeGuard sess 0x6020 0 = none) ∧ (s.device.mode = .safe)) := by
  exact ⟨⟨(dev .service), 5, by decide +kernel⟩,
    ⟨(dev .test), 5, by decide +kernel⟩,
    ⟨(dev .recovery), 5, by decide +kernel⟩,
    ⟨(dev .startup), 5, by decide +kernel⟩,
    ⟨(dev .safe), 5, by decide +kernel⟩⟩

/-- States that meet the hypotheses of StepsDrainRestoreAndDevicesRecover. -/
theorem witness_StepsDrainRestoreAndDevicesRecover_11 :
    (∃ (s : State) (u : State) (m : Nat) (d : DtlMsg), (u = s.dtlIn m false d) ∧ (soundMsg d) ∧ (s.faults.asked = some (d.addr % 256))) ∧
    (∃ (s : State) (u : State) (m : Nat) (d : DtlMsg), (u = s.dtlIn m false d) ∧ (soundMsg d) ∧ (s.faults.asked = none) ∧ (2 ≤ d.addr % 256) ∧ (d.addr % 256 ≤ 4) ∧ (s.device.mode = .service ∨ s.device.mode = .test)) ∧
    (∃ (s : State) (u : State) (m : Nat) (d : DtlMsg), (u = s.dtlIn m false d) ∧ (soundMsg d) ∧ (s.faults.asked = none) ∧ (2 ≤ d.addr % 256) ∧ (d.addr % 256 ≤ 4) ∧ (s.device.mode = .service ∨ s.device.mode = .test)) ∧
    (∃ (s : State) (u : State) (m : Nat) (d : DtlMsg), (u = s.dtlIn m false d) ∧ (soundMsg d) ∧ (s.faults.asked = none) ∧ (d.addr % 256 < 2 ∨ 4 < d.addr % 256)) ∧
    (∃ (s : State) (u : State) (m : Nat) (d : DtlMsg), (u = s.dtlIn m false d) ∧ (soundMsg d) ∧ (s.faults.asked = none) ∧ (d.addr % 256 < 2 ∨ 4 < d.addr % 256)) := by
  exact ⟨⟨({ svc with faults := { asked := some 2 } }), _, 1, ({ dtype := 0x0F, addr := 2, arg := 1 }), ⟨rfl, by simp only [soundMsg]; decide +kernel, by decide +kernel⟩⟩,
    ⟨svc, _, 1, ({ dtype := 0x0F, addr := 2, arg := 1 }), ⟨rfl, by simp only [soundMsg]; decide +kernel, by decide +kernel, by decide +kernel, by decide +kernel, by decide +kernel⟩⟩,
    ⟨svc, _, 1, ({ dtype := 0x0F, addr := 4, arg := 1 }), ⟨rfl, by simp only [soundMsg]; decide +kernel, by decide +kernel, by decide +kernel, by decide +kernel, by decide +kernel⟩⟩,
    ⟨svc, _, 1, ({ dtype := 0x0F, addr := 1, arg := 1 }), ⟨rfl, by simp only [soundMsg]; decide +kernel, by decide +kernel, by decide +kernel⟩⟩,
    ⟨svc, _, 1, ({ dtype := 0x0F, addr := 5, arg := 1 }), ⟨rfl, by simp only [soundMsg]; decide +kernel, by decide +kernel, by decide +kernel⟩⟩⟩

/-- States that meet the hypotheses of StepsDrainRestoreAndDevicesRecover. -/
theorem witness_StepsDrainRestoreAndDevicesRecover_12 :
    (∃ (s : State) (u : State) (m : Nat) (d : DtlMsg), (u = s.dtlIn m false d) ∧ (soundMsg d) ∧ (s.faults.recovery ≠ .quiesced)) ∧
    (∃ (s : State) (u : State) (m : Nat) (d : DtlMsg), (u = s.dtlIn m false d) ∧ (soundMsg d) ∧ (s.faults.recovery = .quiesced)) ∧
    (∃ (s : State) (u : State) (m : Nat) (d : DtlMsg), (u = s.dtlIn m true d) ∧ (soundMsg d) ∧ (s.faults.recovery ≠ .closing)) ∧
    (∃ (s : State) (u : State) (m : Nat) (d : DtlMsg), (u = s.dtlIn m true d) ∧ (soundMsg d) ∧ (s.faults.recovery = .closing)) ∧
    (∃ (s : State) (u : State) (m : Nat) (d : DtlMsg), (u = s.dtlIn m true d) ∧ (soundMsg d) ∧ (s.faults.recovery ≠ .quiesced)) := by
  exact ⟨⟨svc, _, 1, ({ dtype := 0x0F, arg := 3 }), ⟨rfl, by simp only [soundMsg]; decide +kernel, by decide +kernel⟩⟩,
    ⟨({ svc with faults := { recovery := .quiesced } }), _, 1, ({ dtype := 0x0F, arg := 3 }), ⟨rfl, by simp only [soundMsg]; decide +kernel, by decide +kernel⟩⟩,
    ⟨svc, _, 1, ({ dtype := 0x0F, arg := 2 }), ⟨rfl, by simp only [soundMsg]; decide +kernel, by decide +kernel⟩⟩,
    ⟨({ obs [(tileIx 0, 0x30, 2, 3)] svc with tiles := [(0, { owner := some 0, gau := { st := .live } })], faults := { recovery := .closing } }), _, 1, ({ dtype := 0x0F, arg := 2 }), ⟨rfl, by simp only [soundMsg]; decide +kernel, by decide +kernel⟩⟩,
    ⟨svc, _, 1, ({ dtype := 0x0F, arg := 4 }), ⟨rfl, by simp only [soundMsg]; decide +kernel, by decide +kernel⟩⟩⟩

/-- States that meet the hypotheses of StepsDrainRestoreAndDevicesRecover. -/
theorem witness_StepsDrainRestoreAndDevicesRecover_13 :
    (∃ (s : State) (u : State) (m : Nat) (d : DtlMsg), (u = s.dtlIn m true d) ∧ (soundMsg d) ∧ (s.faults.recovery = .quiesced)) ∧
    (∃ (s : State) (q : Nat) (j : Job), (s.job q = some j) ∧ (s.jobState q = 7) ∧ (s.drainedHere q = true)) ∧
    (∃ (s : State) (m : CtrlMsg), (ctrlOk 0x20 m = false)) ∧
    (∃ (s : State) (m : CtrlMsg), (ctrlOk 0x21 m = false)) ∧
    (∃ (s : State) (m : CtrlMsg), (ctrlOk 0x22 m = false)) := by
  exact ⟨⟨({ obs [(0x5010, 0, 0, 3)] (jst job9) with faults := { recovery := .quiesced } }), _, 1, ({ dtype := 0x0F, arg := 4 }), ⟨rfl, by simp only [soundMsg]; decide +kernel, by decide +kernel⟩⟩,
    ⟨({ obs [(0x5010, 0, 0, 7)] (jst job9) with tiles := [(0, { owner := some 0, gau := { st := .draining, gauges := [(1, { value := 9, mask := 1 })], snapshot := [(1, 5)] } }), (1, { owner := some 0, gau := { st := .live } })] }), 0, job9, by decide +kernel⟩,
    ⟨(jst job9), ({ mtype := 0x20, src := 4, body := 1 }), by decide +kernel⟩,
    ⟨(jst job9), ({ mtype := 0x21, src := 4, body := 1 }), by decide +kernel⟩,
    ⟨(jst job9), ({ mtype := 0x22, src := 4, body := 1 }), by decide +kernel⟩⟩

/-- States that meet the hypotheses of StepsDrainRestoreAndDevicesRecover. -/
theorem witness_StepsDrainRestoreAndDevicesRecover_14 :
    (∃ (s : State) (m : CtrlMsg), (ctrlOk 0x23 m = false)) ∧
    (∃ (s : State) (m : CtrlMsg), (ctrlOk 0x24 m = false)) := by
  exact ⟨⟨(jst job9), ({ mtype := 0x23, src := 4, body := 1 }), by decide +kernel⟩,
    ⟨(jst job9), ({ mtype := 0x24, src := 4, body := 1 }), by decide +kernel⟩⟩

/-- States that meet the hypotheses of ScourTwinsAndFaultRecords. -/
theorem witness_ScourTwinsAndFaultRecords :
    (∃ (s : State) (sess : Nat) (ok : Bool), (s.writeGuard sess 0x6041 3 = none) ∧ (s.pkg.staged = none)) ∧
    (∃ (s : State) (sess : Nat) (ok : Bool) (b : List Byte), (s.writeGuard sess 0x6041 3 = none) ∧ (s.pkg.staged = some b)) ∧
    (∃ (s : State) (n : Nat), (s.obj 0x6040 0 = 0 ∨ Tbl.get s.chunks none (s.scourGroup n) ≠ none)) ∧
    (∃ (s : State) (n : Nat), (s.obj 0x6040 0 = 0 ∨ Tbl.get s.chunks none (s.scourGroup n) ≠ none)) ∧
    (∃ (s : State) (n : Nat), (s.scourable n = false) ∧ (s.ownerOf n = none) ∧ (s.job 12 = none)) := by
  exact ⟨⟨svc, 5, true, by decide +kernel⟩,
    ⟨({ svc with pkg := { staged := some [0] } }), 5, true, [0], by decide +kernel⟩,
    ⟨(obs [(0x6040, 0, 0, 0)] svc), 0, by decide +kernel⟩,
    ⟨({ obs [(0x6040, 0, 0, 1)] svc with chunks := [(12, some chunk1)] }), 1223, by decide +kernel⟩,
    ⟨(obs [(0x6040, 0, 0, 1), (tileIx 1223, 0, 0, 6)] svc), 1223, by decide +kernel⟩⟩

/-- States that meet the hypotheses of ScourTwinsAndFaultRecords. -/
theorem witness_ScourTwinsAndFaultRecords_2 :
    (∃ (s : State) (n : Nat), (s.scourable n = true) ∧ (s.scourFirst n = false)) ∧
    (∃ (s : State) (n : Nat) (c : Nat), (s.obj 0x6040 0 ≠ 0) ∧ (Tbl.get s.chunks none (s.scourGroup n) = none) ∧ (s.scourable n = true) ∧ (s.scourFirst n = true) ∧ (s.plane (clusterOf n) = 2) ∧ (s.nextChunk n = some c)) ∧
    (∃ (s : State) (n : Nat) (c : Nat), (s.obj 0x6040 0 ≠ 0) ∧ (Tbl.get s.chunks none (s.scourGroup n) = none) ∧ (s.scourable n = true) ∧ (s.scourFirst n = true) ∧ (s.plane (clusterOf n) = 2) ∧ (s.nextChunk n = some c)) ∧
    (∃ (s : State) (q : Nat) (j : Job), (s.job q = some j) ∧ (s.obj 0x6040 0 = 1) ∧ (s.insertDue q j = true) ∧ (j.scourHold = false) ∧ (Tbl.get s.chunks none q = none)) ∧
    (∃ (s : State) (q : Nat) (j : Job), (s.job q = some j) ∧ (s.obj 0x6040 0 ≠ 1 ∨ s.insertDue q j = false ∨ j.scourHold = true ∨ Tbl.get s.chunks none q ≠ none)) := by
  exact ⟨⟨(obs [(0x6040, 0, 0, 1), (tileIx 0, 0, 0, 1), (tileIx 3, 0, 0, 1)] svc), 3, by decide +kernel⟩,
    ⟨({ obs [(0x6040, 0, 0, 1), (0x1040, 0, 0, 2), (tileIx 0, 0, 0, 1)] svc with pkg := { active := some pkg1 }, scour := [(0, { counter := 24 })] }), 0, 0, by decide +kernel⟩,
    ⟨({ obs [(0x6040, 0, 0, 1), (0x1040 + clusterOf 1223, 0, 0, 2), (0x5010, 0, 0, 2), (tileIx 1223, 0, 0, 4)] svc with tiles := [(1223, { owner := some 0 })], pkg := { active := some pkg1 }, scour := [(1223, { counter := 50 })] }), 1223, 0, by decide +kernel⟩,
    ⟨({ obs [(0x6040, 0, 0, 1), (0x5010, 0, 0, 3)] (jst job9) with elapsed := 2 ^ 50 }), 0, job9, by decide +kernel⟩,
    ⟨(obs [(0x6040, 0, 0, 2), (0x5010, 0, 0, 2)] (jst job9)), 0, job9, by decide +kernel⟩⟩

/-- States that meet the hypotheses of ScourTwinsAndFaultRecords. -/
theorem witness_ScourTwinsAndFaultRecords_3 :
    (∃ (s : State) (q : Nat) (j : Job), (s.job q = some j) ∧ (s.obj 0x6040 0 ≠ 1 ∨ s.insertDue q j = false ∨ j.scourHold = true ∨ Tbl.get s.chunks none q ≠ none)) ∧
    (∃ (s : State) (n : Nat) (crc : Nat) (bad : List (Nat × Nat)) (ok : Bool), (s.chunkOn n = none)) ∧
    (∃ (s : State) (n : Nat) (g : Nat) (k : Chunk), (s.chunkOn n = some (g, k)) ∧ (k.startAt + nsTide 16000 ≤ s.elapsed)) ∧
    (∃ (s : State) (n : Nat) (g : Nat) (k : Chunk), (s.chunkOn n = some (g, k)) ∧ (s.elapsed < k.startAt + nsTide 16000)) ∧
    (∃ (s : State) (n : Nat) (g : Nat) (crc : Nat) (bad : List (Nat × Nat)) (k : Chunk), (s.chunkOn n = some (g, k)) ∧ (k.window < 25) ∧ (k.old = false) ∧ ((s.job g).elim false (fun j => j.scourHold) = false)) := by
  exact ⟨⟨(obs [(0x6040, 0, 0, 1), (0x5010, 0, 0, 4)] (jst job9)), 0, job9, by decide +kernel⟩,
    ⟨svc, 1223, 0, [], true, by decide +kernel⟩,
    ⟨({ svc with chunks := [(12, some chunk1)], elapsed := 64000 }), 0, 12, chunk1, by decide +kernel⟩,
    ⟨({ svc with chunks := [(12, some chunk1)], elapsed := 63999 }), 0, 12, chunk1, by decide +kernel⟩,
    ⟨({ svc with chunks := [(12, some { chunk1 with stopped := true })], scour := [(0, {})], pkg := { active := some pkg1 } }), 0, 12, 7, [], ({ chunk1 with stopped := true }), by decide +kernel⟩⟩

/-- States that meet the hypotheses of ScourTwinsAndFaultRecords. -/
theorem witness_ScourTwinsAndFaultRecords_4 :
    (∃ (s : State) (n : Nat) (g : Nat) (crc : Nat) (bad : List (Nat × Nat)) (k : Chunk), (s.chunkOn n = some (g, k)) ∧ (k.window < 25) ∧ (k.old = false) ∧ ((s.job g).elim false (fun j => j.scourHold) = false)) ∧
    (∃ (s : State) (n : Nat) (g : Nat) (crc : Nat) (bad : List (Nat × Nat)) (k : Chunk), (s.chunkOn n = some (g, k)) ∧ (k.window < 25) ∧ (k.old = false) ∧ ((s.job g).elim false (fun j => j.scourHold) = false)) ∧
    (∃ (s : State) (n : Nat) (g : Nat) (crc : Nat) (bad : List (Nat × Nat)) (k : Chunk), (s.chunkOn n = some (g, k)) ∧ (k.window < 25) ∧ (k.old = false) ∧ ((s.job g).elim false (fun j => j.scourHold) = false)) ∧
    (∃ (s : State) (n : Nat) (g : Nat) (crc : Nat) (bad : List (Nat × Nat)) (k : Chunk), (s.chunkOn n = some (g, k)) ∧ (k.window < 25) ∧ (k.old = false) ∧ ((s.job g).elim false (fun j => j.scourHold) = false)) ∧
    (∃ (s : State) (n : Nat) (g : Nat) (crc : Nat) (bad : List (Nat × Nat)) (k : Chunk), (s.chunkOn n = some (g, k)) ∧ (k.window < 25) ∧ (k.old = false) ∧ ((s.job g).elim false (fun j => j.scourHold) = false)) := by
  exact ⟨⟨({ svc with chunks := [(12, some { chunk1 with stopped := true })], scour := [(0, {})], pkg := { active := some pkg1 } }), 0, 12, 8, [], ({ chunk1 with stopped := true }), by decide +kernel⟩,
    ⟨({ svc with chunks := [(12, some { chunk1 with window := 0, saved := List.replicate 504 5 })], scour := [(0, {})], pkg := { active := some pkg1 } }), 0, 12, 7, [], ({ chunk1 with window := 0, saved := List.replicate 504 5 }), by decide +kernel⟩,
    ⟨({ svc with chunks := [(12, some { chunk1 with window := 0, saved := List.replicate 504 5 })], scour := [(0, {})], pkg := { active := some pkg1 } }), 0, 12, 8, [], ({ chunk1 with window := 0, saved := List.replicate 504 5 }), by decide +kernel⟩,
    ⟨({ svc with chunks := [(12, some chunk1)], scour := [(0, { again := true })], pkg := { active := some pkg1 } }), 0, 12, 7, [], chunk1, by decide +kernel⟩,
    ⟨({ svc with chunks := [(12, some chunk1)], scour := [(0, { again := true })], pkg := { active := some pkg1 } }), 0, 12, 8, [], chunk1, by decide +kernel⟩⟩

/-- States that meet the hypotheses of ScourTwinsAndFaultRecords. -/
theorem witness_ScourTwinsAndFaultRecords_5 :
    (∃ (s : State) (n : Nat) (g : Nat) (crc : Nat) (bad : List (Nat × Nat)) (k : Chunk), (s.chunkOn n = some (g, k)) ∧ (k.window < 25) ∧ (k.old = false) ∧ ((s.job g).elim false (fun j => j.scourHold) = false)) ∧
    (∃ (s : State) (n : Nat) (g : Nat) (crc : Nat) (bad : List (Nat × Nat)) (k : Chunk), (s.chunkOn n = some (g, k)) ∧ (k.window < 25) ∧ (k.old = false) ∧ ((s.job g).elim false (fun j => j.scourHold) = false)) ∧
    (∃ (s : State) (q : Nat), (s.twinRun q = none)) ∧
    (∃ (s : State) (q : Nat) (w : TwinRun), (s.twinRun q = some w) ∧ (s.twinComplete w = false) ∧ (w.held = false ∨ s.elapsed < w.heldAt + msTide * s.obj 0x6050 2)) ∧
    (∃ (s : State) (q : Nat) (w : TwinRun), (s.twinRun q = some w) ∧ (s.twinComplete w = false)) := by
  exact ⟨⟨({ svc with chunks := [(12, some { chunk1 with kind := 1 })], scour := [(0, {})], pkg := { active := some pkg1 } }), 0, 12, 7, [], ({ chunk1 with kind := 1 }), by decide +kernel⟩,
    ⟨({ svc with chunks := [(12, some { chunk1 with kind := 1 })], scour := [(0, {})], pkg := { active := some pkg1 } }), 0, 12, 8, [], ({ chunk1 with kind := 1 }), by decide +kernel⟩,
    ⟨svc, 11, by decide +kernel⟩,
    ⟨(jst ({ job9 with twin := some twin1 })), 0, twin1, by decide +kernel⟩,
    ⟨(jst ({ job9 with twin := some twin1 })), 0, twin1, by decide +kernel⟩⟩

/-- States that meet the hypotheses of ScourTwinsAndFaultRecords. -/
theorem witness_ScourTwinsAndFaultRecords_6 :
    (∃ (s : State) (q : Nat) (w : TwinRun) (j : Job), (s.job q = some j) ∧ (j.twin = some w) ∧ (w.held = true) ∧ (w.heldAt + msTide * s.obj 0x6050 2 ≤ s.elapsed) ∧ (s.twinComplete w = false) ∧ (w.twin < 1224) ∧ (s.jobState q ≠ 3)) ∧
    (∃ (s : State) (q : Nat) (w : TwinRun) (j : Job) (p : List (BitVec 64)), (q < 12) ∧ (s.job q = some j) ∧ (j.twin = some w) ∧ (s.primaryDigest w = some p) ∧ (w.differs = none) ∧ (s.twinComplete w = true) ∧ (w.twin < 1224) ∧ (w.primary < 1224) ∧ (p = (s.tile w.twin).digest) ∧ (w.held = false)) ∧
    (∃ (s : State) (q : Nat) (w : TwinRun) (j : Job) (p : List (BitVec 64)), (q < 12) ∧ (s.job q = some j) ∧ (j.twin = some w) ∧ (s.primaryDigest w = some p) ∧ (w.differs = none) ∧ (s.twinComplete w = true) ∧ (w.twin < 1224) ∧ (w.primary < 1224) ∧ (p ≠ (s.tile w.twin).digest) ∧ (w.held = true) ∧ (s.jobState q = 3) ∧ (s.obj (0x6030 + q) 2 < 3)) ∧
    (∃ (s : State) (sess : Nat) (v : Nat), (s.writeGuard sess 0x6060 1 = none) ∧ (v < 0x80000000) ∧ (s.ufr v ≠ none)) ∧
    (∃ (s : State) (sess : Nat) (v : Nat), (s.writeGuard sess 0x6060 1 = none) ∧ (v < 0x80000000) ∧ (s.ufr v = none)) := by
  exact ⟨⟨({ obs [(0x5010, 0, 0, 2)] (jst ({ job9 with twin := some { twin1 with held := true } })) with elapsed := 2 ^ 50 }), 0, ({ twin1 with held := true }), ({ job9 with twin := some { twin1 with held := true } }), by decide +kernel⟩,
    ⟨(State.modTile (jst ({ job9 with twin := some { twin1 with started := true, prim := some [3] } })) 5 (fun x => { x with digest := [3] })), 0, ({ twin1 with started := true, prim := some [3] }), ({ job9 with twin := some { twin1 with started := true, prim := some [3] } }), [3], by decide +kernel⟩,
    ⟨(State.modTile (jst ({ job9 with twin := some { twin1 with started := true, held := true } })) 5 (fun x => { x with digest := [3] })), 0, ({ twin1 with started := true, held := true }), ({ job9 with twin := some { twin1 with started := true, held := true } }), [], by decide +kernel⟩,
    ⟨({ svc with ufrs := [{ kind := 1, seq := 4, suspect := 3, cls := 1 }] }), 5, 4, by decide +kernel⟩,
    ⟨svc, 5, 0x7FFFFFFF, by decide +kernel⟩⟩

/-- States that meet the hypotheses of ScourTwinsAndFaultRecords. -/
theorem witness_ScourTwinsAndFaultRecords_7 :
    (∃ (s : State) (sess : Nat) (v : Nat) (w : Nat), (s.writeGuard sess 0x6060 1 = none) ∧ (0x80000000 ≤ v) ∧ (s.faults.archive[v - 0x80000000]? = some w)) ∧
    (∃ (s : State) (sess : Nat) (v : Nat), (s.writeGuard sess 0x6060 1 = none) ∧ (0x80000000 ≤ v) ∧ (s.faults.archive[v - 0x80000000]? = none)) := by
  exact ⟨⟨({ svc with faults := { archive := [3 * 2 ^ 256 + 9 * 2 ^ 248] } }), 5, 0x80000000, (3 * 2 ^ 256 + 9 * 2 ^ 248), by decide +kernel⟩,
    ⟨({ svc with faults := { archive := [3] } }), 5, 0x80000001, by decide +kernel⟩⟩

/-- States that meet the hypotheses of SecurityCommandsActByTheirChecks. -/
theorem witness_SecurityCommandsActByTheirChecks :
    (∃ (s : State) (sess : Nat) (ok : Bool), (s.writeGuard sess 0x7060 3 = none) ∧ (s.sec.staged = none)) ∧
    (∃ (s : State) (sess : Nat) (ok : Bool) (b : List Byte), (s.writeGuard sess 0x7060 3 = none) ∧ (s.sec.staged = some b) ∧ (s.sec.images.length = 2) ∧ (s.updateFlash < 2) ∧ (s.bamurn.flash.ok = true) ∧ (s.bamurn.flash.inSecond < 100)) ∧
    (∃ (s : State) (sess : Nat) (ok : Bool) (b : List Byte), (s.writeGuard sess 0x7060 3 = none) ∧ (s.sec.staged = some b) ∧ (s.sec.images.length = 2) ∧ (s.updateFlash < 2) ∧ (s.bamurn.flash.ok = true) ∧ (s.bamurn.flash.inSecond < 100)) ∧
    (∃ (s : State) (sess : Nat) (ok : Bool) (b : List Byte), (s.writeGuard sess 0x7060 3 = none) ∧ (s.sec.staged = some b) ∧ (s.sec.images.length = 2) ∧ (s.updateFlash < 2) ∧ (s.bamurn.flash.ok = true) ∧ (s.bamurn.flash.inSecond < 100)) ∧
    (∃ (s : State) (sess : Nat) (ok : Bool) (b : List Byte), (s.writeGuard sess 0x7060 3 = none) ∧ (s.sec.staged = some b) ∧ (s.sec.images.length = 2) ∧ (s.updateFlash < 2) ∧ (s.bamurn.flash.ok = true) ∧ (s.bamurn.flash.inSecond < 100)) := by
  exact ⟨⟨svc, 5, true, by decide +kernel⟩,
    ⟨({ svc with sec := { staged := some [1, 2] } }), 5, true, ([1, 2]), by decide +kernel⟩,
    ⟨({ dev .safe with sec := { staged := some [1, 2] } }), 5, true, ([1, 2]), by decide +kernel⟩,
    ⟨({ svc with sec := { staged := some [1, 2] } }), 5, false, ([1, 2]), by decide +kernel⟩,
    ⟨({ dev .safe with sec := { staged := some [1, 2] } }), 5, false, ([1, 2]), by decide +kernel⟩⟩

/-- States that meet the hypotheses of SecurityCommandsActByTheirChecks. -/
theorem witness_SecurityCommandsActByTheirChecks_2 :
    (∃ (s : State) (sess : Nat) (v : Nat), (s.writeGuard sess 0x8000 2 = none)) ∧
    (∃ (s : State) (sess : Nat) (v : Nat), (s.writeGuard sess 0x8000 2 = none)) ∧
    (∃ (s : State) (sess : Nat) (v : Nat), (s.writeGuard sess 0x8000 2 = none)) ∧
    (∃ (s : State) (sess : Nat) (k : Nat) (r : Nat) (v : BitVec 320), (s.writeGuard sess 0x8000 4 = none) ∧ (k = fieldOf v.toNat 0 8) ∧ (r = fieldOf v.toNat 32 32) ∧ (fieldOf v.toNat 8 24 ≠ 0 ∨ 15 < k ∨ 64 ≤ r)) ∧
    (∃ (s : State) (sess : Nat) (k : Nat) (r : Nat) (v : BitVec 320), (s.writeGuard sess 0x8000 4 = none) ∧ (k = fieldOf v.toNat 0 8) ∧ (r = fieldOf v.toNat 32 32) ∧ (fieldOf v.toNat 8 24 ≠ 0 ∨ 15 < k ∨ 64 ≤ r)) := by
  exact ⟨⟨svc, 5, 0, by decide +kernel⟩,
    ⟨svc, 5, 1, by decide +kernel⟩,
    ⟨svc, 5, 2147483648, by decide +kernel⟩,
    ⟨svc, 5, _, _, (BitVec.ofNat 320 (0 + 1 * 2 ^ 8 + 1 * 2 ^ 32 + 0 * 2 ^ 64)), ⟨by decide +kernel, rfl, rfl, by decide +kernel⟩⟩,
    ⟨svc, 5, _, _, (BitVec.ofNat 320 (16 + 0 * 2 ^ 8 + 1 * 2 ^ 32 + 0 * 2 ^ 64)), ⟨by decide +kernel, rfl, rfl, by decide +kernel⟩⟩⟩

/-- States that meet the hypotheses of SecurityCommandsActByTheirChecks. -/
theorem witness_SecurityCommandsActByTheirChecks_3 :
    (∃ (s : State) (sess : Nat) (k : Nat) (r : Nat) (v : BitVec 320), (s.writeGuard sess 0x8000 4 = none) ∧ (k = fieldOf v.toNat 0 8) ∧ (r = fieldOf v.toNat 32 32) ∧ (fieldOf v.toNat 8 24 ≠ 0 ∨ 15 < k ∨ 64 ≤ r)) ∧
    (∃ (s : State) (sess : Nat) (k : Nat) (r : Nat) (v : BitVec 320), (s.writeGuard sess 0x8000 4 = none) ∧ (k = fieldOf v.toNat 0 8) ∧ (r = fieldOf v.toNat 32 32) ∧ (fieldOf v.toNat 8 24 ≠ 0 ∨ 15 < k ∨ 64 ≤ r)) ∧
    (∃ (s : State) (sess : Nat) (k : Nat) (r : Nat) (v : BitVec 320), (s.writeGuard sess 0x8000 4 = none) ∧ (k = fieldOf v.toNat 0 8) ∧ (r = fieldOf v.toNat 32 32) ∧ (fieldOf v.toNat 8 24 = 0) ∧ (k ≤ 15) ∧ (r < 64) ∧ (s.securityLeft k r = false)) ∧
    (∃ (s : State) (sess : Nat) (k : Nat) (r : Nat) (v : BitVec 320), (s.writeGuard sess 0x8000 4 = none) ∧ (k = fieldOf v.toNat 0 8) ∧ (r = fieldOf v.toNat 32 32) ∧ (fieldOf v.toNat 8 24 = 0) ∧ (k ≤ 15) ∧ (r < 64) ∧ (s.securityLeft k r = false)) ∧
    (∃ (s : State) (sess : Nat) (k : Nat) (r : Nat) (v : BitVec 320), (s.writeGuard sess 0x8000 4 = none) ∧ (k = fieldOf v.toNat 0 8) ∧ (r = fieldOf v.toNat 32 32) ∧ (fieldOf v.toNat 8 24 = 0) ∧ (k ≤ 15) ∧ (r < 64) ∧ (s.securityLeft k r = true)) := by
  exact ⟨⟨svc, 5, _, _, (BitVec.ofNat 320 (255 + 0 * 2 ^ 8 + 0 * 2 ^ 32 + 0 * 2 ^ 64)), ⟨by decide +kernel, rfl, rfl, by decide +kernel⟩⟩,
    ⟨svc, 5, _, _, (BitVec.ofNat 320 (1 + 0 * 2 ^ 8 + 64 * 2 ^ 32 + 0 * 2 ^ 64)), ⟨by decide +kernel, rfl, rfl, by decide +kernel⟩⟩,
    ⟨svc, 5, _, _, (BitVec.ofNat 320 (0 + 0 * 2 ^ 8 + 0 * 2 ^ 32 + 0 * 2 ^ 64)), ⟨by decide +kernel, rfl, rfl, by decide +kernel, by decide +kernel, by decide +kernel, by decide +kernel⟩⟩,
    ⟨svc, 5, _, _, (BitVec.ofNat 320 (0 + 0 * 2 ^ 8 + 31 * 2 ^ 32 + 0 * 2 ^ 64)), ⟨by decide +kernel, rfl, rfl, by decide +kernel, by decide +kernel, by decide +kernel, by decide +kernel⟩⟩,
    ⟨svc, 5, _, _, (BitVec.ofNat 320 (15 + 0 * 2 ^ 8 + 63 * 2 ^ 32 + 7 * 2 ^ 64)), ⟨by decide +kernel, rfl, rfl, by decide +kernel, by decide +kernel, by decide +kernel, by decide +kernel⟩⟩⟩

/-- States that meet the hypotheses of SecurityCommandsActByTheirChecks. -/
theorem witness_SecurityCommandsActByTheirChecks_4 :
    (∃ (s : State) (sess : Nat) (k : Nat) (r : Nat) (v : BitVec 320), (s.writeGuard sess 0x8000 4 = none) ∧ (k = fieldOf v.toNat 0 8) ∧ (r = fieldOf v.toNat 32 32) ∧ (fieldOf v.toNat 8 24 = 0) ∧ (k ≤ 15) ∧ (r < 64) ∧ (s.securityLeft k r = true)) ∧
    (∃ (s : State) (sess : Nat) (k : Nat) (r : Nat) (v : BitVec 320), (s.writeGuard sess 0x8000 4 = none) ∧ (k = fieldOf v.toNat 0 8) ∧ (r = fieldOf v.toNat 32 32) ∧ (fieldOf v.toNat 8 24 = 0) ∧ (k ≤ 15) ∧ (r < 64) ∧ (s.securityLeft k r = true)) ∧
    (∃ (s : State) (sess : Nat) (value : List Byte), (s.writeGuard sess 0x8010 2 = none) ∧ (∃ q nonce, value = q :: nonce ∧ (q.toNat < 12 ∨ q.toNat = 0xFF) ∧ 16 ≤ nonce.length ∧ nonce.length ≤ 64)) ∧
    (∃ (s : State) (sess : Nat) (value : List Byte), (s.writeGuard sess 0x8010 2 = none) ∧ (∃ q nonce, value = q :: nonce ∧ (q.toNat < 12 ∨ q.toNat = 0xFF) ∧ 16 ≤ nonce.length ∧ nonce.length ≤ 64)) ∧
    (∃ (s : State) (sess : Nat) (value : List Byte), (s.writeGuard sess 0x8010 2 = none) ∧ (∃ q nonce, value = q :: nonce ∧ (q.toNat < 12 ∨ q.toNat = 0xFF) ∧ 16 ≤ nonce.length ∧ nonce.length ≤ 64)) := by
  exact ⟨⟨svc, 5, _, _, (BitVec.ofNat 320 (1 + 0 * 2 ^ 8 + 0 * 2 ^ 32 + 7 * 2 ^ 64)), ⟨by decide +kernel, rfl, rfl, by decide +kernel, by decide +kernel, by decide +kernel, by decide +kernel⟩⟩,
    ⟨svc, 5, _, _, (BitVec.ofNat 320 (1 + 0 * 2 ^ 8 + 63 * 2 ^ 32 + 9 * 2 ^ 64)), ⟨by decide +kernel, rfl, rfl, by decide +kernel, by decide +kernel, by decide +kernel, by decide +kernel⟩⟩,
    ⟨svc, 5, (0 :: List.replicate 16 0), ⟨by decide +kernel, 0, List.replicate 16 0, rfl, by decide⟩⟩,
    ⟨svc, 5, (11 :: List.replicate 64 0), ⟨by decide +kernel, 11, List.replicate 64 0, rfl, by decide⟩⟩,
    ⟨svc, 5, (255 :: List.replicate 16 0), ⟨by decide +kernel, 255, List.replicate 16 0, rfl, by decide⟩⟩⟩

/-- States that meet the hypotheses of SecurityCommandsActByTheirChecks. -/
theorem witness_SecurityCommandsActByTheirChecks_5 :
    (∃ (s : State) (sess : Nat) (value : List Byte), (s.writeGuard sess 0x8010 2 = none) ∧ (∃ q nonce, value = q :: nonce ∧ (q.toNat < 12 ∨ q.toNat = 0xFF) ∧ 16 ≤ nonce.length ∧ nonce.length ≤ 64)) ∧
    (∃ (s : State) (sess : Nat) (value : List Byte), (s.writeGuard sess 0x8010 2 = none) ∧ (∀ q nonce, value = q :: nonce → ¬ ((q.toNat < 12 ∨ q.toNat = 0xFF) ∧ 16 ≤ nonce.length ∧ nonce.length ≤ 64))) ∧
    (∃ (s : State) (sess : Nat) (value : List Byte), (s.writeGuard sess 0x8010 2 = none) ∧ (∀ q nonce, value = q :: nonce → ¬ ((q.toNat < 12 ∨ q.toNat = 0xFF) ∧ 16 ≤ nonce.length ∧ nonce.length ≤ 64))) ∧
    (∃ (s : State) (sess : Nat) (value : List Byte), (s.writeGuard sess 0x8010 2 = none) ∧ (∀ q nonce, value = q :: nonce → ¬ ((q.toNat < 12 ∨ q.toNat = 0xFF) ∧ 16 ≤ nonce.length ∧ nonce.length ≤ 64))) ∧
    (∃ (s : State) (sess : Nat) (value : List Byte), (s.writeGuard sess 0x8010 2 = none) ∧ (∀ q nonce, value = q :: nonce → ¬ ((q.toNat < 12 ∨ q.toNat = 0xFF) ∧ 16 ≤ nonce.length ∧ nonce.length ≤ 64))) := by
  exact ⟨⟨({ svc with sec := { attests := List.replicate 4 (0, []) } }), 5, (0 :: List.replicate 16 0), ⟨by decide +kernel, 0, List.replicate 16 0, rfl, by decide⟩⟩,
    ⟨svc, 5, (12 :: List.replicate 16 0), ⟨by decide +kernel, fun q n h => by cases h; decide⟩⟩,
    ⟨svc, 5, (254 :: List.replicate 16 0), ⟨by decide +kernel, fun q n h => by cases h; decide⟩⟩,
    ⟨svc, 5, (0 :: List.replicate 15 0), ⟨by decide +kernel, fun q n h => by cases h; decide⟩⟩,
    ⟨svc, 5, (0 :: List.replicate 65 0), ⟨by decide +kernel, fun q n h => by cases h; decide⟩⟩⟩

/-- States that meet the hypotheses of SecurityCommandsActByTheirChecks. -/
theorem witness_SecurityCommandsActByTheirChecks_6 :
    (∃ (s : State) (sess : Nat) (value : List Byte), (s.writeGuard sess 0x8010 2 = none) ∧ (∀ q nonce, value = q :: nonce → ¬ ((q.toNat < 12 ∨ q.toNat = 0xFF) ∧ 16 ≤ nonce.length ∧ nonce.length ≤ 64))) ∧
    (∃ (s : State), (s.sec.attests = [])) ∧
    (∃ (s : State) (q : Nat) (nonce : List Byte) (rest : List (Nat × List Byte)), (s.sec.attests = (q, nonce) :: rest)) ∧
    (∃ (s : State) (sess : Nat), (s.writeGuard sess 0x8020 0 = none)) ∧
    (∃ (s : State) (sess : Nat) (chain : List Byte), (s.writeGuard sess 0x8020 2 = none) ∧ (8192 < chain.length)) := by
  exact ⟨⟨svc, 5, [], ⟨by decide +kernel, fun q n h => by cases h⟩⟩,
    ⟨svc, by decide +kernel⟩,
    ⟨({ svc with sec := { attests := [(255, List.replicate 16 0)] } }), 255, (List.replicate 16 0), [], by decide +kernel⟩,
    ⟨svc, 5, by decide +kernel⟩,
    ⟨svc, 5, (List.replicate 8193 0), ⟨by decide +kernel, by rw [List.length_replicate]; decide⟩⟩⟩

/-- States that meet the hypotheses of SecurityCommandsActByTheirChecks. -/
theorem witness_SecurityCommandsActByTheirChecks_7 :
    (∃ (s : State) (sess : Nat) (chain : List Byte), (s.writeGuard sess 0x8020 2 = none) ∧ (chain.length ≤ 8192) ∧ (s.bamurn.flash.ok = true) ∧ (s.bamurn.flash.inSecond < 100)) ∧
    (∃ (s : State) (sess : Nat) (n : Nat) (bank : Nat) (row : Nat) (count : Nat) (v : BitVec 64), (s.writeGuard sess 0x8030 1 = none) ∧ (n = fieldOf v.toNat 48 16) ∧ (bank = fieldOf v.toNat 44 4) ∧ (row = fieldOf v.toNat 34 10) ∧ (count = fieldOf v.toNat 28 6) ∧ (n ∉ s.sec.held)) ∧
    (∃ (s : State) (sess : Nat) (n : Nat) (bank : Nat) (row : Nat) (count : Nat) (v : BitVec 64), (s.writeGuard sess 0x8030 1 = none) ∧ (n = fieldOf v.toNat 48 16) ∧ (bank = fieldOf v.toNat 44 4) ∧ (row = fieldOf v.toNat 34 10) ∧ (count = fieldOf v.toNat 28 6) ∧ (n ∈ s.sec.held) ∧ (fieldOf v.toNat 0 28 ≠ 0 ∨ 11 < bank ∨ count = 0 ∨ 32 < count ∨ 1024 < row + count)) ∧
    (∃ (s : State) (sess : Nat) (n : Nat) (bank : Nat) (row : Nat) (count : Nat) (v : BitVec 64), (s.writeGuard sess 0x8030 1 = none) ∧ (n = fieldOf v.toNat 48 16) ∧ (bank = fieldOf v.toNat 44 4) ∧ (row = fieldOf v.toNat 34 10) ∧ (count = fieldOf v.toNat 28 6) ∧ (n ∈ s.sec.held) ∧ (fieldOf v.toNat 0 28 ≠ 0 ∨ 11 < bank ∨ count = 0 ∨ 32 < count ∨ 1024 < row + count)) ∧
    (∃ (s : State) (sess : Nat) (n : Nat) (bank : Nat) (row : Nat) (count : Nat) (v : BitVec 64), (s.writeGuard sess 0x8030 1 = none) ∧ (n = fieldOf v.toNat 48 16) ∧ (bank = fieldOf v.toNat 44 4) ∧ (row = fieldOf v.toNat 34 10) ∧ (count = fieldOf v.toNat 28 6) ∧ (n ∈ s.sec.held) ∧ (fieldOf v.toNat 0 28 ≠ 0 ∨ 11 < bank ∨ count = 0 ∨ 32 < count ∨ 1024 < row + count)) := by
  exact ⟨⟨svc, 5, [1], by decide +kernel⟩,
    ⟨({ svc with sec := { held := [3] } }), 5, _, _, _, _, (BitVec.ofNat 64 (2 * 2 ^ 48 + 0 * 2 ^ 44 + 0 * 2 ^ 34 + 1 * 2 ^ 28 + 0)), ⟨by decide +kernel, rfl, rfl, rfl, rfl, by decide +kernel⟩⟩,
    ⟨({ svc with sec := { held := [3] } }), 5, _, _, _, _, (BitVec.ofNat 64 (3 * 2 ^ 48 + 0 * 2 ^ 44 + 0 * 2 ^ 34 + 1 * 2 ^ 28 + 1)), ⟨by decide +kernel, rfl, rfl, rfl, rfl, by decide +kernel, by decide +kernel⟩⟩,
    ⟨({ svc with sec := { held := [3] } }), 5, _, _, _, _, (BitVec.ofNat 64 (3 * 2 ^ 48 + 12 * 2 ^ 44 + 0 * 2 ^ 34 + 1 * 2 ^ 28 + 0)), ⟨by decide +kernel, rfl, rfl, rfl, rfl, by decide +kernel, by decide +kernel⟩⟩,
    ⟨({ svc with sec := { held := [3] } }), 5, _, _, _, _, (BitVec.ofNat 64 (3 * 2 ^ 48 + 0 * 2 ^ 44 + 0 * 2 ^ 34 + 0 * 2 ^ 28 + 0)), ⟨by decide +kernel, rfl, rfl, rfl, rfl, by decide +kernel, by decide +kernel⟩⟩⟩

/-- States that meet the hypotheses of SecurityCommandsActByTheirChecks. -/
theorem witness_SecurityCommandsActByTheirChecks_8 :
    (∃ (s : State) (sess : Nat) (n : Nat) (bank : Nat) (row : Nat) (count : Nat) (v : BitVec 64), (s.writeGuard sess 0x8030 1 = none) ∧ (n = fieldOf v.toNat 48 16) ∧ (bank = fieldOf v.toNat 44 4) ∧ (row = fieldOf v.toNat 34 10) ∧ (count = fieldOf v.toNat 28 6) ∧ (n ∈ s.sec.held) ∧ (fieldOf v.toNat 0 28 ≠ 0 ∨ 11 < bank ∨ count = 0 ∨ 32 < count ∨ 1024 < row + count)) ∧
    (∃ (s : State) (sess : Nat) (n : Nat) (bank : Nat) (row : Nat) (count : Nat) (v : BitVec 64), (s.writeGuard sess 0x8030 1 = none) ∧ (n = fieldOf v.toNat 48 16) ∧ (bank = fieldOf v.toNat 44 4) ∧ (row = fieldOf v.toNat 34 10) ∧ (count = fieldOf v.toNat 28 6) ∧ (n ∈ s.sec.held) ∧ (fieldOf v.toNat 0 28 ≠ 0 ∨ 11 < bank ∨ count = 0 ∨ 32 < count ∨ 1024 < row + count)) ∧
    (∃ (s : State) (sess : Nat) (n : Nat) (bank : Nat) (row : Nat) (count : Nat) (v : BitVec 64), (s.writeGuard sess 0x8030 1 = none) ∧ (n = fieldOf v.toNat 48 16) ∧ (bank = fieldOf v.toNat 44 4) ∧ (row = fieldOf v.toNat 34 10) ∧ (count = fieldOf v.toNat 28 6) ∧ (n ∈ s.sec.held) ∧ (fieldOf v.toNat 0 28 = 0) ∧ (bank ≤ 11) ∧ (1 ≤ count) ∧ (count ≤ 32) ∧ (row + count ≤ 1024)) ∧
    (∃ (s : State) (sess : Nat) (n : Nat) (bank : Nat) (row : Nat) (count : Nat) (v : BitVec 64), (s.writeGuard sess 0x8030 1 = none) ∧ (n = fieldOf v.toNat 48 16) ∧ (bank = fieldOf v.toNat 44 4) ∧ (row = fieldOf v.toNat 34 10) ∧ (count = fieldOf v.toNat 28 6) ∧ (n ∈ s.sec.held) ∧ (fieldOf v.toNat 0 28 = 0) ∧ (bank ≤ 11) ∧ (1 ≤ count) ∧ (count ≤ 32) ∧ (row + count ≤ 1024)) ∧
    (∃ (s : State) (sess : Nat) (n : Nat) (bank : Nat) (row : Nat) (count : Nat) (v : BitVec 64), (s.writeGuard sess 0x8030 1 = none) ∧ (n = fieldOf v.toNat 48 16) ∧ (bank = fieldOf v.toNat 44 4) ∧ (row = fieldOf v.toNat 34 10) ∧ (count = fieldOf v.toNat 28 6) ∧ (n ∈ s.sec.held) ∧ (fieldOf v.toNat 0 28 = 0) ∧ (bank ≤ 11) ∧ (1 ≤ count) ∧ (count ≤ 32) ∧ (row + count ≤ 1024)) := by
  exact ⟨⟨({ svc with sec := { held := [3] } }), 5, _, _, _, _, (BitVec.ofNat 64 (3 * 2 ^ 48 + 0 * 2 ^ 44 + 0 * 2 ^ 34 + 33 * 2 ^ 28 + 0)), ⟨by decide +kernel, rfl, rfl, rfl, rfl, by decide +kernel, by decide +kernel⟩⟩,
    ⟨({ svc with sec := { held := [3] } }), 5, _, _, _, _, (BitVec.ofNat 64 (3 * 2 ^ 48 + 0 * 2 ^ 44 + 1023 * 2 ^ 34 + 2 * 2 ^ 28 + 0)), ⟨by decide +kernel, rfl, rfl, rfl, rfl, by decide +kernel, by decide +kernel⟩⟩,
    ⟨({ svc with sec := { held := [3] } }), 5, _, _, _, _, (BitVec.ofNat 64 (3 * 2 ^ 48 + 0 * 2 ^ 44 + 0 * 2 ^ 34 + 1 * 2 ^ 28 + 0)), ⟨by decide +kernel, rfl, rfl, rfl, rfl, by decide +kernel, by decide +kernel, by decide +kernel, by decide +kernel, by decide +kernel, by decide +kernel⟩⟩,
    ⟨({ svc with sec := { held := [3] } }), 5, _, _, _, _, (BitVec.ofNat 64 (3 * 2 ^ 48 + 11 * 2 ^ 44 + 992 * 2 ^ 34 + 32 * 2 ^ 28 + 0)), ⟨by decide +kernel, rfl, rfl, rfl, rfl, by decide +kernel, by decide +kernel, by decide +kernel, by decide +kernel, by decide +kernel, by decide +kernel⟩⟩,
    ⟨({ svc with sec := { held := [3] } }), 5, _, _, _, _, (BitVec.ofNat 64 (3 * 2 ^ 48 + 0 * 2 ^ 44 + 1023 * 2 ^ 34 + 1 * 2 ^ 28 + 0)), ⟨by decide +kernel, rfl, rfl, rfl, rfl, by decide +kernel, by decide +kernel, by decide +kernel, by decide +kernel, by decide +kernel, by decide +kernel⟩⟩⟩

/-- States that meet the hypotheses of SecurityCommandsActByTheirChecks. -/
theorem witness_SecurityCommandsActByTheirChecks_9 :
    (∃ (s : State) (sess : Nat) (n : Nat), (s.writeGuard sess 0x8030 3 = none) ∧ (n < 1224)) ∧
    (∃ (s : State) (sess : Nat) (n : Nat), (s.writeGuard sess 0x8030 3 = none) ∧ (n < 1224)) ∧
    (∃ (s : State) (sess : Nat) (n : Nat), (s.writeGuard sess 0x8030 3 = none) ∧ (n < 1224)) ∧
    (∃ (s : State) (sess : Nat) (n : Nat), (s.writeGuard sess 0x8030 3 = none) ∧ (n = 0xFFFF)) ∧
    (∃ (s : State) (sess : Nat) (n : Nat), (s.writeGuard sess 0x8030 3 = none) ∧ (1224 ≤ n) ∧ (n ≠ 0xFFFF)) := by
  exact ⟨⟨({ svc with sec := { held := [3] } }), 5, 0, by decide +kernel⟩,
    ⟨({ svc with sec := { held := [3] } }), 5, 3, by decide +kernel⟩,
    ⟨({ svc with sec := { held := [3] } }), 5, 1223, by decide +kernel⟩,
    ⟨({ svc with sec := { held := [3] } }), 5, _, ⟨by decide +kernel, rfl⟩⟩,
    ⟨({ svc with sec := { held := [3] } }), 5, 1224, by decide +kernel⟩⟩

/-- States that meet the hypotheses of SecurityCommandsActByTheirChecks. -/
theorem witness_SecurityCommandsActByTheirChecks_10 :
    (∃ (s : State) (sess : Nat) (n : Nat), (s.writeGuard sess 0x8030 3 = none) ∧ (1224 ≤ n) ∧ (n ≠ 0xFFFF)) ∧
    (∃ (s : State), (s.stagePast 10000 = false)) ∧
    (∃ (s : State), (s.stagePast 10000 = true)) ∧
    (∃ (s : State) (sess : Nat) (token : List Byte), (s.writeGuard sess 0x8040 2 = none) ∧ (s.device.mode ≠ .test) ∧ (s.device.mode ≠ .safe)) ∧
    (∃ (s : State) (sess : Nat) (token : List Byte), (s.writeGuard sess 0x8040 2 = none) ∧ (s.device.mode = .test ∨ s.device.mode = .safe) ∧ (s.sec.challenge = none)) := by
  exact ⟨⟨({ svc with sec := { held := [3] } }), 5, 65534, by decide +kernel⟩,
    ⟨({ svc with sec := { held := [3] }, elapsed := 39999999999 }), by decide +kernel⟩,
    ⟨({ svc with sec := { held := [3, 1223] }, elapsed := 40000000000 }), by decide +kernel⟩,
    ⟨svc, 5, [], by decide +kernel⟩,
    ⟨(dev .test), 5, [], by decide +kernel⟩⟩

/-- States that meet the hypotheses of SecurityCommandsActByTheirChecks. -/
theorem witness_SecurityCommandsActByTheirChecks_11 :
    (∃ (s : State) (sess : Nat) (token : List Byte), (s.writeGuard sess 0x8040 2 = none) ∧ (s.device.mode = .test ∨ s.device.mode = .safe) ∧ (s.sec.challenge = none)) ∧
    (∃ (s : State) (sess : Nat) (token : List Byte) (c : List Byte), (s.writeGuard sess 0x8040 2 = none) ∧ (s.device.mode = .test ∨ s.device.mode = .safe) ∧ (s.sec.challenge = some c)) ∧
    (∃ (s : State) (sess : Nat) (token : List Byte) (c : List Byte), (s.writeGuard sess 0x8040 2 = none) ∧ (s.device.mode = .test ∨ s.device.mode = .safe) ∧ (s.sec.challenge = some c)) := by
  exact ⟨⟨(dev .safe), 5, [], by decide +kernel⟩,
    ⟨({ dev .test with sec := { challenge := some [1] } }), 5, [], [1], by decide +kernel⟩,
    ⟨({ dev .safe with sec := { challenge := some [1] } }), 5, [], [1], by decide +kernel⟩⟩

/-- States that meet the hypotheses of BamurnServesTheDictionary. -/
theorem witness_BamurnServesTheDictionary :
    (∃ (s : State) (p : Path) (b : List Byte) (h : Nat) (cred : Nat), (s.sessionless p 1 b h) ∧ (b.length = 48) ∧ (hCount h = 0) ∧ (cred = leNat ((b.drop 16).take 1)) ∧ (leNat ((b.drop 17).take 15) = 0) ∧ (cred ≤ 15) ∧ (s.credState cred = 1) ∧ (s.bamurn.sessions.length < 16)) ∧
    (∃ (s : State) (p : Path) (b : List Byte) (h : Nat) (cred : Nat), (s.sessionless p 1 b h) ∧ (b.length = 48) ∧ (hCount h = 0) ∧ (cred = leNat ((b.drop 16).take 1)) ∧ (leNat ((b.drop 17).take 15) = 0) ∧ (cred ≤ 15) ∧ (s.credState cred = 1) ∧ (s.bamurn.sessions.length < 16)) ∧
    (∃ (s : State) (p : Path) (b : List Byte) (h : Nat) (cred : Nat), (s.sessionless p 1 b h) ∧ (b.length = 48) ∧ (hCount h = 0) ∧ (cred = leNat ((b.drop 16).take 1)) ∧ (leNat ((b.drop 17).take 15) = 0) ∧ (15 < cred ∨ s.credState cred ≠ 1)) ∧
    (∃ (s : State) (p : Path) (b : List Byte) (h : Nat) (cred : Nat), (s.sessionless p 1 b h) ∧ (b.length = 48) ∧ (hCount h = 0) ∧ (cred = leNat ((b.drop 16).take 1)) ∧ (leNat ((b.drop 17).take 15) = 0) ∧ (15 < cred ∨ s.credState cred ≠ 1)) ∧
    (∃ (s : State) (p : Path) (b : List Byte) (h : Nat) (cred : Nat), (s.sessionless p 1 b h) ∧ (b.length = 48) ∧ (hCount h = 0) ∧ (cred = leNat ((b.drop 16).take 1)) ∧ (leNat ((b.drop 17).take 15) = 0) ∧ (15 < cred ∨ s.credState cred ≠ 1)) := by
  exact ⟨⟨svc, (.port 0), (openMsg 0), (headOf (openMsg 0)), 0, ⟨⟨⟨⟨0, {}, rfl⟩, taken_plain (by decide +kernel), by decide +kernel, rfl, by decide +kernel, by decide +kernel, by decide +kernel, by decide +kernel⟩, by decide +kernel, by decide +kernel⟩, by decide +kernel, by decide +kernel, by decide +kernel, by decide +kernel, by decide +kernel, by decide +kernel, by decide +kernel⟩⟩,
    ⟨({ svc with sec := { creds := [(15, some {})] }, bamurn := { sessions := List.replicate 15 sess5 } }), (.port 0), (openMsg 15), (headOf (openMsg 15)), 15, ⟨⟨⟨⟨0, {}, rfl⟩, taken_plain (by decide +kernel), by decide +kernel, rfl, by decide +kernel, by decide +kernel, by decide +kernel, by decide +kernel⟩, by decide +kernel, by decide +kernel⟩, by decide +kernel, by decide +kernel, by decide +kernel, by decide +kernel, by decide +kernel, by decide +kernel, by decide +kernel⟩⟩,
    ⟨svc, (.port 0), (openMsg 1), (headOf (openMsg 1)), 1, ⟨⟨⟨⟨0, {}, rfl⟩, taken_plain (by decide +kernel), by decide +kernel, rfl, by decide +kernel, by decide +kernel, by decide +kernel, by decide +kernel⟩, by decide +kernel, by decide +kernel⟩, by decide +kernel, by decide +kernel, by decide +kernel, by decide +kernel, .inr (by decide +kernel)⟩⟩,
    ⟨svc, (.port 0), (openMsg 16), (headOf (openMsg 16)), 16, ⟨⟨⟨⟨0, {}, rfl⟩, taken_plain (by decide +kernel), by decide +kernel, rfl, by decide +kernel, by decide +kernel, by decide +kernel, by decide +kernel⟩, by decide +kernel, by decide +kernel⟩, by decide +kernel, by decide +kernel, by decide +kernel, by decide +kernel, .inl (by decide)⟩⟩,
    ⟨({ svc with bamurn := { locked := [(0, 5)] } }), (.port 0), (openMsg 0), (headOf (openMsg 0)), 0, ⟨⟨⟨⟨0, {}, rfl⟩, taken_plain (by decide +kernel), by decide +kernel, rfl, by decide +kernel, by decide +kernel, by decide +kernel, by decide +kernel⟩, by decide +kernel, by decide +kernel⟩, by decide +kernel, by decide +kernel, by decide +kernel, by decide +kernel, .inr (by decide +kernel)⟩⟩⟩

/-- States that meet the hypotheses of BamurnServesTheDictionary. -/
theorem witness_BamurnServesTheDictionary_2 :
    (∃ (s : State) (p : Path) (b : List Byte) (h : Nat) (cred : Nat), (s.sessionless p 1 b h) ∧ (b.length = 48) ∧ (hCount h = 0) ∧ (cred = leNat ((b.drop 16).take 1)) ∧ (leNat ((b.drop 17).take 15) = 0) ∧ (cred ≤ 15) ∧ (s.credState cred = 1) ∧ (16 ≤ s.bamurn.sessions.length)) ∧
    (∃ (s : State) (p : Path) (b : List Byte) (h : Nat) (x : Session) (c : Credential), (s.portRequest p 3 b h) ∧ (hMac h = false) ∧ (s.bamurn.sessions.find? (fun x => x.number == hSession h && !x.authed) = some x) ∧ (Tbl.get s.sec.creds none x.credential = some c) ∧ (b.length = 48) ∧ (hCount h = 0) ∧ (x.failed = false) ∧ (b.drop 16 = s.proofOf x c.bytes)) ∧
    (∃ (s : State) (p : Path) (b : List Byte) (h : Nat) (x : Session) (c : Credential), (s.portRequest p 3 b h) ∧ (hMac h = false) ∧ (s.bamurn.sessions.find? (fun x => x.number == hSession h && !x.authed) = some x) ∧ (Tbl.get s.sec.creds none x.credential = some c) ∧ (b.length = 48) ∧ (hCount h = 0) ∧ (x.failed = false) ∧ (b.drop 16 ≠ s.proofOf x c.bytes)) ∧
    (∃ (s : State) (p : Path) (b : List Byte) (h : Nat), (s.sessionless p 5 b h) ∧ (b.length = 16) ∧ (hCount h = 0)) ∧
    (∃ (s : State) (u : State) (v : State) (p : Path) (b : List Byte) (val : List Byte) (h : Nat) (w : Nat) (x : Session), (s.inSession p 0x10 b h x) ∧ (u = s.heard p) ∧ (hCount h = 1) ∧ (b.length = 36) ∧ (w = leNat (macBody b)) ∧ (fieldOf w 1 7 = 0) ∧ (u.readValue (hSession h) (iIndex w) (iSub w) (iPeek w) = (v, stOk, val)) ∧ (val.length ≤ 1400)) := by
  exact ⟨⟨({ svc with bamurn := { sessions := List.replicate 16 sess5 } }), (.port 0), (openMsg 0), (headOf (openMsg 0)), 0, ⟨⟨⟨⟨0, {}, rfl⟩, taken_plain (by decide +kernel), by decide +kernel, rfl, by decide +kernel, by decide +kernel, by decide +kernel, by decide +kernel⟩, by decide +kernel, by decide +kernel⟩, by decide +kernel, by decide +kernel, by decide +kernel, by decide +kernel, by decide +kernel, by decide +kernel, by decide +kernel⟩⟩,
    ⟨hsv, (.port 0), (authHead ++ hsv.proofOf hand7 (Credential.bytes {})), (headOf authHead), hand7, {}, ⟨auth_request (proof_length _ _ _), by decide +kernel, by decide +kernel, by decide +kernel, by rw [List.length_append, proof_length]; rfl, by decide +kernel, rfl, List.drop_left' rfl⟩⟩,
    ⟨hsv, (.port 0), (authHead ++ wrongBytes (hsv.proofOf hand7 (Credential.bytes {}))), (headOf authHead), hand7, {}, ⟨auth_request (wrong_length _), by decide +kernel, by decide +kernel, by decide +kernel, by rw [List.length_append, wrong_length]; rfl, by decide +kernel, rfl, by rw [List.drop_left' (show authHead.length = 16 by decide)]; exact wrong_ne _⟩⟩,
    ⟨svc, (.port 0), (leBytes 16 (1 + 5 * 2 ^ 8 + 16 * 2 ^ 48)), (headOf (leBytes 16 (1 + 5 * 2 ^ 8 + 16 * 2 ^ 48))), ⟨⟨⟨⟨0, {}, rfl⟩, taken_plain (by decide +kernel), by decide +kernel, rfl, by decide +kernel, by decide +kernel, by decide +kernel, by decide +kernel⟩, by decide +kernel, by decide +kernel⟩, by decide +kernel, by decide +kernel⟩⟩,
    ⟨svc, _, (((svc.heard (.port 0)).readValue 5 0x200 1 false).1), (.port 0), (sign sess5 readMsg), (((svc.heard (.port 0)).readValue 5 0x200 1 false).2.2), (headOf readMsg), (leNat (readMsg.drop 16)), sess5, ⟨⟨signed (by decide +kernel), by decide +kernel, by decide +kernel⟩, rfl, by decide +kernel, by rw [sign_length]; decide, by rw [sign_body _ _ (by decide)], by decide +kernel, by decide +kernel, by decide +kernel⟩⟩⟩

/-- States that meet the hypotheses of BamurnServesTheDictionary. -/
theorem witness_BamurnServesTheDictionary_3 :
    (∃ (s : State) (u : State) (v : State) (p : Path) (b : List Byte) (h : Nat) (w : Nat) (vlen : Nat) (st : Nat) (x : Session), (s.inSession p 0x11 b h x) ∧ (u = s.heard p) ∧ (hCount h = 1) ∧ (w = leNat ((macBody b).take 8)) ∧ (vlen = fieldOf w 48 16) ∧ (vlen ≤ 1400) ∧ ((macBody b).length = 8 + (vlen + 3) / 4 * 4) ∧ (fieldOf w 1 7 = 0) ∧ (fieldOf w 40 8 = 0) ∧ (∀ a, a ∈ (macBody b).drop (8 + vlen) → a = 0) ∧ (u.writeValue (hSession h) (iIndex w) (iSub w) (fieldOf w 32 8) (((macBody b).drop 8).take vlen) = (v, st))) ∧
    (∃ (s : State) (u : State) (p : Path) (b : List Byte) (h : Nat) (w : Nat) (x : Session) (d : ObjDesc) (f : State × List Byte) (g : State), (s.inSession p 0x12 b h x) ∧ (u = s.heard p) ∧ (hCount h = 1) ∧ (b.length = 48) ∧ (w = leNat (macBody b)) ∧ (fieldOf w 2 6 = 0) ∧ (fieldOf w 40 8 = 0) ∧ (objAt (iIndex w) (iSub w) = some d) ∧ (u.readGuard (hSession h) (iIndex w) (iSub w) (iPeek w) = none) ∧ (f = u.fetch (iIndex w) (iSub w) d) ∧ (g = (if d.access = 6 ∧ iPeek w = false then f.1.cleared (iIndex w) (iSub w) d else f.1))) ∧
    (∃ (s : State) (u : State) (p : Path) (b : List Byte) (data : List Byte) (h : Nat) (w : Nat) (vlen : Nat) (x : Session) (d : ObjDesc) (r : State × Nat), (s.inSession p 0x13 b h x) ∧ (u = s.heard p) ∧ (hCount h = 1) ∧ (w = leNat ((macBody b).take 16)) ∧ (vlen = fieldOf w 48 16) ∧ (vlen ≤ 1392) ∧ ((macBody b).length = 16 + (vlen + 3) / 4 * 4) ∧ (fieldOf w 2 6 = 0) ∧ (fieldOf w 40 8 = 0) ∧ (∀ a, a ∈ (macBody b).drop (16 + vlen) → a = 0) ∧ (data = ((macBody b).drop 16).take vlen) ∧ (objAt (iIndex w) (iSub w) = some d) ∧ ((s.sessionOf (hSession h)).bind (fun y => y.block) = none) ∧ (u.writeGuard (hSession h) (iIndex w) (iSub w) = none) ∧ (blockFits d (fieldOf w 64 32) vlen = true) ∧ (fieldOf w 96 32 = vlen) ∧ (bitOf w 1 = true) ∧ (r = u.writeValue (hSession h) (iIndex w) (iSub w) (fieldOf w 32 8) (u.spliced d { index := iIndex w, sub := iSub w, ty := fieldOf w 32 8, offset := fieldOf w 64 32, total := vlen, data := data }))) ∧
    (∃ (s : State) (p : Path) (b : List Byte) (h : Nat) (w : Nat) (d : ObjDesc), (s.sessionless p 0x14 b h) ∧ (hCount h = 1) ∧ (b.length = 20) ∧ (w = leNat (b.drop 16)) ∧ (fieldOf w 1 7 = 0) ∧ (objAt (iIndex w) (iSub w) = some d) ∧ (s.device.mode ≠ .safe)) ∧
    (∃ (s : State) (p : Path) (b : List Byte) (h : Nat) (mtype : Nat) (i : Instr), (i = .echo p b ∨ i = .bamRead p b ∨ i = .bamWrite p b ∨ i = .readBlock p b ∨ i = .writeBlock p b ∨ i = .describe p b ∨ i = .sessionClose p b) ∧ (s.portRequest p mtype b h) ∧ (hSession h ≠ 0) ∧ (hSession h ≠ 0xFFFF) ∧ (s.session (hSession h) = none ∨ (∃ x, s.session (hSession h) = some x ∧ (hMac h = false ∨ b.length < 32 ∨ macOf x.key (b.take (b.length - 16)) ≠ b.drop (b.length - 16))))) := by
  exact ⟨⟨svc, _, _, (.port 0), (sign sess5 writeMsg), (headOf writeMsg), (leNat ((writeMsg.drop 16).take 8)), 2, _, sess5, ⟨⟨signed (by decide +kernel), by decide +kernel, by decide +kernel⟩, rfl, by decide +kernel, by rw [sign_body _ _ (by decide)], by decide +kernel, by decide, by rw [sign_body _ _ (by decide)]; decide +kernel, by decide +kernel, by decide +kernel, by rw [sign_body _ _ (by decide)]; decide +kernel, Prod.mk.eta.symm⟩⟩,
    ⟨svc, _, (.port 0), (sign sess5 readBlockMsg), (headOf readBlockMsg), (leNat (readBlockMsg.drop 16)), sess5, (⟨0x0200, 1, 0x01, "session_idle_s", 3, 3, 0, 2, 10, 3600, true⟩), _, _, ⟨⟨signed (by decide +kernel), by decide +kernel, by decide +kernel⟩, rfl, by decide +kernel, by rw [sign_length]; decide, by rw [sign_body _ _ (by decide)], by decide +kernel, by decide +kernel, by decide +kernel, by decide +kernel, rfl, rfl⟩⟩,
    ⟨svc, _, (.port 0), (sign sess5 writeBlockMsg), _, (headOf writeBlockMsg), (leNat ((writeBlockMsg.drop 16).take 16)), 2, sess5, (⟨0x0200, 1, 0x01, "session_idle_s", 3, 3, 0, 2, 10, 3600, true⟩), _, ⟨⟨signed (by decide +kernel), by decide +kernel, by decide +kernel⟩, rfl, by decide +kernel, by rw [sign_body _ _ (by decide)], by decide +kernel, by decide, by rw [sign_body _ _ (by decide)]; decide +kernel, by decide +kernel, by decide +kernel, by rw [sign_body _ _ (by decide)]; decide +kernel, rfl, by decide +kernel, by decide +kernel, by decide +kernel, by decide +kernel, by decide +kernel, by decide +kernel, rfl⟩⟩,
    ⟨svc, (.port 0), describeMsg, (headOf describeMsg), _, (⟨0x0200, 1, 0x01, "session_idle_s", 3, 3, 0, 2, 10, 3600, true⟩), ⟨⟨⟨⟨0, {}, rfl⟩, taken_plain (by decide +kernel), by decide +kernel, rfl, by decide +kernel, by decide +kernel, by decide +kernel, by decide +kernel⟩, by decide +kernel, by decide +kernel⟩, by decide +kernel, by decide +kernel, rfl, by decide +kernel, by decide +kernel, by decide +kernel⟩⟩,
    ⟨svc, (.port 0), (leBytes 16 (1 + 5 * 2 ^ 8 + 16 * 2 ^ 48 + 7 * 2 ^ 80 + 2 * 2 ^ 96)), (headOf (leBytes 16 (1 + 5 * 2 ^ 8 + 16 * 2 ^ 48 + 7 * 2 ^ 80 + 2 * 2 ^ 96))), 5, (.echo (.port 0) (leBytes 16 (1 + 5 * 2 ^ 8 + 16 * 2 ^ 48 + 7 * 2 ^ 80 + 2 * 2 ^ 96))), ⟨.inl rfl, ⟨⟨0, {}, rfl⟩, taken_plain (by decide +kernel), by decide +kernel, rfl, by decide +kernel, by decide +kernel, by decide +kernel, by decide +kernel⟩, by decide +kernel, by decide +kernel, .inl (by decide +kernel)⟩⟩⟩

/-- States that meet the hypotheses of BamurnServesTheDictionary. -/
theorem witness_BamurnServesTheDictionary_4 :
    (∃ (s : State) (p : Path) (b : List Byte) (h : Nat) (mtype : Nat) (i : Instr), (i = .echo p b ∨ i = .bamRead p b ∨ i = .bamWrite p b ∨ i = .readBlock p b ∨ i = .writeBlock p b ∨ i = .describe p b ∨ i = .sessionClose p b) ∧ (s.portRequest p mtype b h) ∧ (hSession h ≠ 0) ∧ (hSession h ≠ 0xFFFF) ∧ (s.session (hSession h) = none ∨ (∃ x, s.session (hSession h) = some x ∧ (hMac h = false ∨ b.length < 32 ∨ macOf x.key (b.take (b.length - 16)) ≠ b.drop (b.length - 16))))) ∧
    (∃ (s : State) (p : Path) (b : List Byte) (h : Nat) (mtype : Nat) (i : Instr), (i = .echo p b ∨ i = .bamRead p b ∨ i = .bamWrite p b ∨ i = .readBlock p b ∨ i = .writeBlock p b ∨ i = .describe p b ∨ i = .sessionClose p b) ∧ (s.portRequest p mtype b h) ∧ (hSession h ≠ 0) ∧ (hSession h ≠ 0xFFFF) ∧ (s.session (hSession h) = none ∨ (∃ x, s.session (hSession h) = some x ∧ (hMac h = false ∨ b.length < 32 ∨ macOf x.key (b.take (b.length - 16)) ≠ b.drop (b.length - 16))))) ∧
    (∃ (s : State) (p : Path) (b : List Byte) (h : Nat) (mtype : Nat) (i : Instr), (i = .echo p b ∨ i = .bamRead p b ∨ i = .bamWrite p b ∨ i = .readBlock p b ∨ i = .writeBlock p b ∨ i = .describe p b ∨ i = .sessionClose p b) ∧ (s.portRequest p mtype b h) ∧ (hSession h ≠ 0) ∧ (hSession h ≠ 0xFFFF) ∧ (s.session (hSession h) = none ∨ (∃ x, s.session (hSession h) = some x ∧ (hMac h = false ∨ b.length < 32 ∨ macOf x.key (b.take (b.length - 16)) ≠ b.drop (b.length - 16))))) ∧
    (∃ (s : State) (p : Path) (b : List Byte) (h : Nat) (mtype : Nat) (i : Instr), (i = .echo p b ∨ i = .bamRead p b ∨ i = .bamWrite p b ∨ i = .readBlock p b ∨ i = .writeBlock p b ∨ i = .describe p b ∨ i = .sessionClose p b) ∧ (s.portRequest p mtype b h) ∧ (hSession h ≠ 0) ∧ (hSession h ≠ 0xFFFF) ∧ (s.session (hSession h) = none ∨ (∃ x, s.session (hSession h) = some x ∧ (hMac h = false ∨ b.length < 32 ∨ macOf x.key (b.take (b.length - 16)) ≠ b.drop (b.length - 16))))) ∧
    (∃ (s : State) (p : Path) (b : List Byte) (h : Nat) (mtype : Nat) (i : Instr), (i = .echo p b ∨ i = .bamRead p b ∨ i = .bamWrite p b ∨ i = .readBlock p b ∨ i = .writeBlock p b ∨ i = .describe p b ∨ i = .sessionClose p b) ∧ (s.portRequest p mtype b h) ∧ (hSession h ≠ 0) ∧ (hSession h ≠ 0xFFFF) ∧ (s.session (hSession h) = none ∨ (∃ x, s.session (hSession h) = some x ∧ (hMac h = false ∨ b.length < 32 ∨ macOf x.key (b.take (b.length - 16)) ≠ b.drop (b.length - 16))))) := by
  exact ⟨⟨svc, (.port 0), (leBytes 16 (1 + 5 * 2 ^ 8 + 16 * 2 ^ 48 + 5 * 2 ^ 80 + 2 * 2 ^ 96)), (headOf (leBytes 16 (1 + 5 * 2 ^ 8 + 16 * 2 ^ 48 + 5 * 2 ^ 80 + 2 * 2 ^ 96))), 5, (.echo (.port 0) (leBytes 16 (1 + 5 * 2 ^ 8 + 16 * 2 ^ 48 + 5 * 2 ^ 80 + 2 * 2 ^ 96))), ⟨.inl rfl, ⟨⟨0, {}, rfl⟩, taken_plain (by decide +kernel), by decide +kernel, rfl, by decide +kernel, by decide +kernel, by decide +kernel, by decide +kernel⟩, by decide +kernel, by decide +kernel, .inr ⟨sess5, by decide +kernel, .inl (by decide +kernel)⟩⟩⟩,
    ⟨svc, (.port 0), (leBytes 16 (1 + 16 * 2 ^ 8 + 16 * 2 ^ 48 + 7 * 2 ^ 80 + 2 * 2 ^ 96)), (headOf (leBytes 16 (1 + 16 * 2 ^ 8 + 16 * 2 ^ 48 + 7 * 2 ^ 80 + 2 * 2 ^ 96))), 16, (.bamRead (.port 0) (leBytes 16 (1 + 16 * 2 ^ 8 + 16 * 2 ^ 48 + 7 * 2 ^ 80 + 2 * 2 ^ 96))), ⟨.inr (.inl rfl), ⟨⟨0, {}, rfl⟩, taken_plain (by decide +kernel), by decide +kernel, rfl, by decide +kernel, by decide +kernel, by decide +kernel, by decide +kernel⟩, by decide +kernel, by decide +kernel, .inl (by decide +kernel)⟩⟩,
    ⟨svc, (.port 0), (leBytes 16 (1 + 17 * 2 ^ 8 + 16 * 2 ^ 48 + 7 * 2 ^ 80 + 2 * 2 ^ 96)), (headOf (leBytes 16 (1 + 17 * 2 ^ 8 + 16 * 2 ^ 48 + 7 * 2 ^ 80 + 2 * 2 ^ 96))), 17, (.bamWrite (.port 0) (leBytes 16 (1 + 17 * 2 ^ 8 + 16 * 2 ^ 48 + 7 * 2 ^ 80 + 2 * 2 ^ 96))), ⟨.inr (.inr (.inl rfl)), ⟨⟨0, {}, rfl⟩, taken_plain (by decide +kernel), by decide +kernel, rfl, by decide +kernel, by decide +kernel, by decide +kernel, by decide +kernel⟩, by decide +kernel, by decide +kernel, .inl (by decide +kernel)⟩⟩,
    ⟨svc, (.port 0), (leBytes 16 (1 + 18 * 2 ^ 8 + 16 * 2 ^ 48 + 7 * 2 ^ 80 + 2 * 2 ^ 96)), (headOf (leBytes 16 (1 + 18 * 2 ^ 8 + 16 * 2 ^ 48 + 7 * 2 ^ 80 + 2 * 2 ^ 96))), 18, (.readBlock (.port 0) (leBytes 16 (1 + 18 * 2 ^ 8 + 16 * 2 ^ 48 + 7 * 2 ^ 80 + 2 * 2 ^ 96))), ⟨.inr (.inr (.inr (.inl rfl))), ⟨⟨0, {}, rfl⟩, taken_plain (by decide +kernel), by decide +kernel, rfl, by decide +kernel, by decide +kernel, by decide +kernel, by decide +kernel⟩, by decide +kernel, by decide +kernel, .inl (by decide +kernel)⟩⟩,
    ⟨svc, (.port 0), (leBytes 16 (1 + 19 * 2 ^ 8 + 16 * 2 ^ 48 + 7 * 2 ^ 80 + 2 * 2 ^ 96)), (headOf (leBytes 16 (1 + 19 * 2 ^ 8 + 16 * 2 ^ 48 + 7 * 2 ^ 80 + 2 * 2 ^ 96))), 19, (.writeBlock (.port 0) (leBytes 16 (1 + 19 * 2 ^ 8 + 16 * 2 ^ 48 + 7 * 2 ^ 80 + 2 * 2 ^ 96))), ⟨.inr (.inr (.inr (.inr (.inl rfl)))), ⟨⟨0, {}, rfl⟩, taken_plain (by decide +kernel), by decide +kernel, rfl, by decide +kernel, by decide +kernel, by decide +kernel, by decide +kernel⟩, by decide +kernel, by decide +kernel, .inl (by decide +kernel)⟩⟩⟩

/-- States that meet the hypotheses of BamurnServesTheDictionary. -/
theorem witness_BamurnServesTheDictionary_5 :
    (∃ (s : State) (p : Path) (b : List Byte) (h : Nat) (mtype : Nat) (i : Instr), (i = .echo p b ∨ i = .bamRead p b ∨ i = .bamWrite p b ∨ i = .readBlock p b ∨ i = .writeBlock p b ∨ i = .describe p b ∨ i = .sessionClose p b) ∧ (s.portRequest p mtype b h) ∧ (hSession h ≠ 0) ∧ (hSession h ≠ 0xFFFF) ∧ (s.session (hSession h) = none ∨ (∃ x, s.session (hSession h) = some x ∧ (hMac h = false ∨ b.length < 32 ∨ macOf x.key (b.take (b.length - 16)) ≠ b.drop (b.length - 16))))) ∧
    (∃ (s : State) (p : Path) (b : List Byte) (h : Nat) (mtype : Nat) (i : Instr), (i = .echo p b ∨ i = .bamRead p b ∨ i = .bamWrite p b ∨ i = .readBlock p b ∨ i = .writeBlock p b ∨ i = .describe p b ∨ i = .sessionClose p b) ∧ (s.portRequest p mtype b h) ∧ (hSession h ≠ 0) ∧ (hSession h ≠ 0xFFFF) ∧ (s.session (hSession h) = none ∨ (∃ x, s.session (hSession h) = some x ∧ (hMac h = false ∨ b.length < 32 ∨ macOf x.key (b.take (b.length - 16)) ≠ b.drop (b.length - 16))))) ∧
    (∃ (s : State) (p : Path) (b : List Byte) (h : Nat) (mtype : Nat) (i : Instr) (x : Session) (c : Nat × List Byte), (i = .echo p b ∨ i = .bamRead p b ∨ i = .bamWrite p b ∨ i = .readBlock p b ∨ i = .writeBlock p b ∨ i = .describe p b ∨ i = .sessionClose p b) ∧ (s.portRequest p mtype b h) ∧ (hSession h ≠ 0) ∧ (hSession h ≠ 0xFFFF) ∧ (s.authentic p mtype b h x) ∧ (x.cache.find? (fun c => c.1 == hSeq h) = some c)) ∧
    (∃ (s : State) (p : Path) (b : List Byte) (h : Nat) (mtype : Nat) (i : Instr) (x : Session), (i = .echo p b ∨ i = .bamRead p b ∨ i = .bamWrite p b ∨ i = .readBlock p b ∨ i = .writeBlock p b ∨ i = .describe p b ∨ i = .sessionClose p b) ∧ (s.portRequest p mtype b h) ∧ (hSession h ≠ 0) ∧ (hSession h ≠ 0xFFFF) ∧ (s.authentic p mtype b h x) ∧ (x.cache.find? (fun c => c.1 == hSeq h) = none) ∧ (hSeq h ≤ x.high)) ∧
    (∃ (s : State) (src : Nat) (h : Nat) (j : Nat) (f : MgmtFrame) (b : List Byte), (16 ≤ b.length) ∧ (h = headOf b) ∧ (hVersion h = 1) ∧ (hRelay h = true) ∧ (hPortRelay h = false) ∧ (s.takesFrame f b.length = true) ∧ (hResponse h = false) ∧ (hTarget h ≠ s.obj 0x4000 0) ∧ (s.routePort (hTarget h) = some j)) := by
  exact ⟨⟨svc, (.port 0), (leBytes 16 (1 + 20 * 2 ^ 8 + 16 * 2 ^ 48 + 7 * 2 ^ 80 + 2 * 2 ^ 96)), (headOf (leBytes 16 (1 + 20 * 2 ^ 8 + 16 * 2 ^ 48 + 7 * 2 ^ 80 + 2 * 2 ^ 96))), 20, (.describe (.port 0) (leBytes 16 (1 + 20 * 2 ^ 8 + 16 * 2 ^ 48 + 7 * 2 ^ 80 + 2 * 2 ^ 96))), ⟨.inr (.inr (.inr (.inr (.inr (.inl rfl))))), ⟨⟨0, {}, rfl⟩, taken_plain (by decide +kernel), by decide +kernel, rfl, by decide +kernel, by decide +kernel, by decide +kernel, by decide +kernel⟩, by decide +kernel, by decide +kernel, .inl (by decide +kernel)⟩⟩,
    ⟨svc, (.port 0), (leBytes 16 (1 + 4 * 2 ^ 8 + 16 * 2 ^ 48 + 7 * 2 ^ 80 + 2 * 2 ^ 96)), (headOf (leBytes 16 (1 + 4 * 2 ^ 8 + 16 * 2 ^ 48 + 7 * 2 ^ 80 + 2 * 2 ^ 96))), 4, (.sessionClose (.port 0) (leBytes 16 (1 + 4 * 2 ^ 8 + 16 * 2 ^ 48 + 7 * 2 ^ 80 + 2 * 2 ^ 96))), ⟨.inr (.inr (.inr (.inr (.inr (.inr (rfl)))))), ⟨⟨0, {}, rfl⟩, taken_plain (by decide +kernel), by decide +kernel, rfl, by decide +kernel, by decide +kernel, by decide +kernel, by decide +kernel⟩, by decide +kernel, by decide +kernel, .inl (by decide +kernel)⟩⟩,
    ⟨({ svc with bamurn := { sessions := [{ sess5 with cache := [(2, [9])], high := 2 }] } }), (.port 0), (sign ({ sess5 with cache := [(2, [9])], high := 2 }) readMsg), (headOf readMsg), 0x10, (.bamRead (.port 0) (sign ({ sess5 with cache := [(2, [9])], high := 2 }) readMsg)), ({ sess5 with cache := [(2, [9])], high := 2 }), ((2, [9])), ⟨.inr (.inl rfl), (signed (s := { svc with bamurn := { sessions := [{ sess5 with cache := [(2, [9])], high := 2 }] } }) (x := { sess5 with cache := [(2, [9])], high := 2 }) (by decide +kernel)).1, by decide +kernel, by decide +kernel, signed (by decide +kernel), by decide +kernel⟩⟩,
    ⟨({ svc with bamurn := { sessions := [{ sess5 with high := 2 }] } }), (.port 0), (sign ({ sess5 with high := 2 }) readMsg), (headOf readMsg), 0x10, (.bamRead (.port 0) (sign ({ sess5 with high := 2 }) readMsg)), ({ sess5 with high := 2 }), ⟨.inr (.inl rfl), (signed (s := { svc with bamurn := { sessions := [{ sess5 with high := 2 }] } }) (x := { sess5 with high := 2 }) (by decide +kernel)).1, by decide +kernel, by decide +kernel, signed (by decide +kernel), by decide +kernel, by decide +kernel⟩⟩,
    ⟨(obs [(0x4000, 4, 4, 4)] svc), 1, _, 2, {}, (leBytes 16 (1 + 5 * 2 ^ 8 + 2 ^ 34 + 0 + 16 * 2 ^ 48 + 4 * 2 ^ 72)), ⟨by decide +kernel, rfl, by decide +kernel, by decide +kernel, by decide +kernel, by decide +kernel, by decide +kernel, by decide +kernel, by decide +kernel⟩⟩⟩

/-- States that meet the hypotheses of BamurnServesTheDictionary. -/
theorem witness_BamurnServesTheDictionary_6 :
    (∃ (s : State) (src : Nat) (h : Nat) (j : Nat) (f : MgmtFrame) (b : List Byte) (k : Nat), (16 ≤ b.length) ∧ (h = headOf b) ∧ (hVersion h = 1) ∧ (hRelay h = true) ∧ (hPortRelay h = false) ∧ (hResponse h = false) ∧ (hTarget h ≠ s.obj 0x4000 0)) ∧
    (∃ (s : State) (src : Nat) (h : Nat) (j : Nat) (f : MgmtFrame) (b : List Byte) (k : Nat) (at' : Nat), (16 ≤ b.length) ∧ (h = headOf b) ∧ (hVersion h = 1) ∧ (hRelay h = true) ∧ (hPortRelay h = false) ∧ (hResponse h = true) ∧ (s.bamurn.relays = [(src, hTag h, .port at')])) ∧
    (∃ (s : State) (sess : Nat) (index : Nat) (sub : Nat) (ty : Nat) (value : List Byte) (d : ObjDesc), (objAt index sub = some d) ∧ (s.writeGuard sess index sub = none) ∧ (d.ty ≠ 11) ∧ (0 < d.size) ∧ (d.access = 2 ∨ d.access = 3) ∧ (index ≠ 0x4000) ∧ (s.valueOk index sub ty d value = false)) ∧
    (∃ (s : State) (sess : Nat) (index : Nat) (sub : Nat) (ty : Nat) (value : List Byte) (d : ObjDesc), (objAt index sub = some d) ∧ (s.writeGuard sess index sub = none) ∧ (d.ty ≠ 11) ∧ (0 < d.size) ∧ (d.access = 2 ∨ d.access = 3) ∧ (index ≠ 0x4000) ∧ (s.valueOk index sub ty d value = false)) ∧
    (∃ (s : State) (sess : Nat) (index : Nat) (sub : Nat) (ty : Nat) (value : List Byte) (d : ObjDesc), (objAt index sub = some d) ∧ (s.writeGuard sess index sub = none) ∧ (d.ty ≠ 11) ∧ (0 < d.size) ∧ (d.access = 2 ∨ d.access = 3) ∧ (index ≠ 0x4000) ∧ (s.valueOk index sub ty d value = true) ∧ (d.access = 2 ∨ s.bamurn.flash.ok = true ∧ s.bamurn.flash.inSecond < 100 ∧ 0x100040 + value.length ≤ s.bamurn.flash.free)) := by
  exact ⟨⟨svc, 1, _, 0, {}, (leBytes 16 (1 + 5 * 2 ^ 8 + 2 ^ 34 + 0 + 16 * 2 ^ 48 + 4 * 2 ^ 72)), 15, ⟨by decide +kernel, rfl, by decide +kernel, by decide +kernel, by decide +kernel, by decide +kernel, by decide +kernel⟩⟩,
    ⟨({ svc with bamurn := { relays := [(4, 0, .port 9)] } }), 4, _, 0, {}, (leBytes 16 (1 + 5 * 2 ^ 8 + 2 ^ 34 + 4294967296 + 16 * 2 ^ 48 + 4 * 2 ^ 72)), 2, 9, ⟨by decide +kernel, rfl, by decide +kernel, by decide +kernel, by decide +kernel, by decide +kernel, by decide +kernel⟩⟩,
    ⟨svc, 5, 0x200, 1, 3, (leBytes 2 9), (⟨0x0200, 1, 0x01, "session_idle_s", 3, 3, 0, 2, 10, 3600, true⟩), by decide +kernel⟩,
    ⟨svc, 5, 0x200, 1, 4, (leBytes 2 100), (⟨0x0200, 1, 0x01, "session_idle_s", 3, 3, 0, 2, 10, 3600, true⟩), by decide +kernel⟩,
    ⟨svc, 5, 0x1420, 1, 2, (leBytes 1 1), (⟨0x1420, 1, 0x01, "time_mode", 2, 3, 0, 1, 0, 1, true⟩), by decide +kernel⟩⟩

/-- States that meet the hypotheses of BamurnServesTheDictionary. -/
theorem witness_BamurnServesTheDictionary_7 :
    (∃ (s : State) (sess : Nat) (index : Nat) (sub : Nat) (ty : Nat) (value : List Byte) (d : ObjDesc), (objAt index sub = some d) ∧ (s.writeGuard sess index sub = none) ∧ (d.ty ≠ 11) ∧ (0 < d.size) ∧ (d.access = 2 ∨ d.access = 3) ∧ (index ≠ 0x4000) ∧ (s.valueOk index sub ty d value = true) ∧ (d.access = 2) ∧ (¬ (index = 0x1420 ∧ sub = 1)) ∧ (¬ (0x4010 ≤ index ∧ index < 0x4020 ∧ sub = 0x14)) ∧ (¬ (0x3410 ≤ index ∧ index < 0x341C ∧ 7 ≤ sub ∧ sub ≤ 9))) ∧
    (∃ (s : State) (sess : Nat) (index : Nat) (sub : Nat) (ty : Nat) (value : List Byte) (d : ObjDesc), (objAt index sub = some d) ∧ (s.writeGuard sess index sub = none) ∧ (d.ty ≠ 11) ∧ (0 < d.size) ∧ (d.access = 2 ∨ d.access = 3) ∧ (index ≠ 0x4000) ∧ (s.valueOk index sub ty d value = true) ∧ (d.access = 3) ∧ (¬ (0x4010 ≤ index ∧ index < 0x4020 ∧ sub = 0x14)) ∧ (¬ (index = 0x1420 ∧ sub = 1)) ∧ (¬ (0x3410 ≤ index ∧ index < 0x341C ∧ 7 ≤ sub ∧ sub ≤ 9)) ∧ (s.bamurn.flash.ok = true) ∧ (s.bamurn.flash.inSecond < 100) ∧ (0x100040 + value.length ≤ s.bamurn.flash.free)) ∧
    (∃ (s : State) (cred : Nat), (∀ k, k ∈ s.bamurn.locked → k.1 = cred → s.elapsed < k.2)) ∧
    (∃ (s : State) (cred : Nat) (h : Nat), ((cred, h) ∈ s.bamurn.locked) ∧ (h ≤ s.elapsed)) := by
  exact ⟨⟨svc, 5, 0x502B, 1, 4, (leBytes 4 0x186A0), (⟨0x5020, 12, 0x01, "cadence_period_ns", 4, 2, 0, 4, 0x186A0, 0x3B9ACA00, false⟩), by decide +kernel⟩,
    ⟨svc, 5, 0x200, 1, 3, (leBytes 2 3600), (⟨0x0200, 1, 0x01, "session_idle_s", 3, 3, 0, 2, 10, 3600, true⟩), by decide +kernel⟩,
    ⟨({ svc with bamurn := { locked := [(15, svc.elapsed + 1)] } }), 15, fun k h _ => by simp at h; subst h; exact Nat.lt_succ_self _⟩,
    ⟨({ svc with bamurn := { locked := [(3, 0)] } }), 3, 0, by decide +kernel⟩⟩

/-- States that meet the hypotheses of SessionsEndAndDropTheirBlocks. -/
theorem witness_SessionsEndAndDropTheirBlocks :
    (∃ (s : State) (p : Path) (b : List Byte) (h : Nat) (x : Session), (s.inSession p 4 b h x) ∧ (b.length = 32) ∧ (hCount h = 0)) ∧
    (∃ (s : State) (sess : Nat) (n : Nat), (s.writeGuard sess 0x0200 3 = none) ∧ (∃ y, y ∈ s.bamurn.sessions ∧ y.number = n) ∧ (n = sess ∨ s.holds sess rSecurity = true)) ∧
    (∃ (s : State) (sess : Nat) (n : Nat), (s.writeGuard sess 0x0200 3 = none) ∧ (∃ y, y ∈ s.bamurn.sessions ∧ y.number = n) ∧ (n = sess ∨ s.holds sess rSecurity = true)) ∧
    (∃ (s : State) (sess : Nat) (n : Nat), (s.writeGuard sess 0x0200 3 = none) ∧ (∀ y, y ∈ s.bamurn.sessions → y.number ≠ n)) ∧
    (∃ (s : State) (sess : Nat) (n : Nat), (s.writeGuard sess 0x0200 3 = none) ∧ (∃ y, y ∈ s.bamurn.sessions ∧ y.number = n) ∧ (n ≠ sess) ∧ (s.holds sess rSecurity = false)) ∧
    (∃ (s : State) (sess : Nat) (i : Nat) (j : Nat) (c : Instr), (c = .recoveryResetCommand sess ∧ i = 0x6020 ∧ j = 0 ∨ c = .startCommandWarm sess ∧ i = 0x7000 ∧ j = 1 ∨ c = .startCommandCold sess ∧ i = 0x7000 ∧ j = 1) ∧ (s.writeGuard sess i j = none) ∧ (s.device.mode = .service ∨ s.device.mode = .test)) ∧
    (∃ (s : State) (sess : Nat) (i : Nat) (j : Nat) (c : Instr), (c = .recoveryResetCommand sess ∧ i = 0x6020 ∧ j = 0 ∨ c = .startCommandWarm sess ∧ i = 0x7000 ∧ j = 1 ∨ c = .startCommandCold sess ∧ i = 0x7000 ∧ j = 1) ∧ (s.writeGuard sess i j = none) ∧ (s.device.mode = .service ∨ s.device.mode = .test)) ∧
    (∃ (s : State) (sess : Nat) (i : Nat) (j : Nat) (c : Instr), (c = .recoveryResetCommand sess ∧ i = 0x6020 ∧ j = 0 ∨ c = .startCommandWarm sess ∧ i = 0x7000 ∧ j = 1 ∨ c = .startCommandCold sess ∧ i = 0x7000 ∧ j = 1) ∧ (s.writeGuard sess i j = none) ∧ (s.device.mode = .service ∨ s.device.mode = .test)) ∧
    (∃ (s : State) (sess : Nat) (i : Nat) (j : Nat) (c : Instr), (c = .recoveryResetCommand sess ∧ i = 0x6020 ∧ j = 0 ∨ c = .startCommandWarm sess ∧ i = 0x7000 ∧ j = 1 ∨ c = .startCommandCold sess ∧ i = 0x7000 ∧ j = 1) ∧ (s.writeGuard sess i j = none) ∧ (s.device.mode = .service ∨ s.device.mode = .test)) ∧
    (∃ (s : State) (sess : Nat) (i : Nat) (j : Nat) (c : Instr), (c = .recoveryResetCommand sess ∧ i = 0x6020 ∧ j = 0 ∨ c = .startCommandWarm sess ∧ i = 0x7000 ∧ j = 1 ∨ c = .startCommandCold sess ∧ i = 0x7000 ∧ j = 1) ∧ (s.writeGuard sess i j = none) ∧ (s.device.mode = .service ∨ s.device.mode = .test)) ∧
    (∃ (s : State) (sess : Nat) (i : Nat) (j : Nat) (c : Instr), (c = .recoveryResetCommand sess ∧ i = 0x6020 ∧ j = 0 ∨ c = .startCommandWarm sess ∧ i = 0x7000 ∧ j = 1 ∨ c = .startCommandCold sess ∧ i = 0x7000 ∧ j = 1) ∧ (s.writeGuard sess i j = none) ∧ (s.device.mode = .service ∨ s.device.mode = .test)) ∧
    (∃ (s : State) (m : Nat) (d : DtlMsg), (soundMsg d) ∧ (s.faults.asked = none) ∧ (2 ≤ d.addr % 256) ∧ (d.addr % 256 ≤ 4) ∧ (s.device.mode = .service ∨ s.device.mode = .test)) ∧
    (∃ (s : State) (m : Nat) (d : DtlMsg), (soundMsg d) ∧ (s.faults.asked = none) ∧ (2 ≤ d.addr % 256) ∧ (d.addr % 256 ≤ 4) ∧ (s.device.mode = .service ∨ s.device.mode = .test)) ∧
    (∃ (s : State) (m : Nat) (d : DtlMsg), (soundMsg d) ∧ (s.faults.asked = none) ∧ (2 ≤ d.addr % 256) ∧ (d.addr % 256 ≤ 4) ∧ (s.device.mode = .service ∨ s.device.mode = .test)) ∧
    (∃ (s : State) (m : Nat) (d : DtlMsg), (soundMsg d) ∧ (s.faults.asked = none) ∧ (2 ≤ d.addr % 256) ∧ (d.addr % 256 ≤ 4) ∧ (s.device.mode = .service ∨ s.device.mode = .test)) := by
  exact ⟨⟨svc, (.port 0), (sign sess5 (hd 4 5 2 32 0)), (headOf (hd 4 5 2 32 0)), sess5, ⟨⟨signed (by decide +kernel), by decide +kernel, by decide +kernel⟩, by rw [sign_length]; decide, by decide +kernel⟩⟩,
    ⟨svc, 5, 5, ⟨by decide +kernel, ⟨sess5, List.mem_singleton_self _, rfl⟩, .inl rfl⟩⟩,
    ⟨hsv, 5, 7, ⟨by decide +kernel, ⟨hand7, by decide +kernel, rfl⟩, .inr (by decide +kernel)⟩⟩,
    ⟨svc, 5, 6, by decide +kernel⟩,
    ⟨({ svc with bamurn := { sessions := [{ sess5 with rights := 3 }, hand7] } }), 5, 7, ⟨by decide +kernel, ⟨hand7, by decide +kernel, rfl⟩, by decide, by decide +kernel⟩⟩,
    ⟨(dev .service), 5, 24608, 0, (.recoveryResetCommand 5), ⟨.inl ⟨rfl, rfl, rfl⟩, by decide +kernel, by decide +kernel⟩⟩,
    ⟨(dev .test), 5, 24608, 0, (.recoveryResetCommand 5), ⟨.inl ⟨rfl, rfl, rfl⟩, by decide +kernel, by decide +kernel⟩⟩,
    ⟨(dev .service), 5, 28672, 1, (.startCommandWarm 5), ⟨.inr (.inl ⟨rfl, rfl, rfl⟩), by decide +kernel, by decide +kernel⟩⟩,
    ⟨(dev .test), 5, 28672, 1, (.startCommandWarm 5), ⟨.inr (.inl ⟨rfl, rfl, rfl⟩), by decide +kernel, by decide +kernel⟩⟩,
    ⟨(dev .service), 5, 28672, 1, (.startCommandCold 5), ⟨.inr (.inr ⟨rfl, rfl, rfl⟩), by decide +kernel, by decide +kernel⟩⟩,
    ⟨(dev .test), 5, 28672, 1, (.startCommandCold 5), ⟨.inr (.inr ⟨rfl, rfl, rfl⟩), by decide +kernel, by decide +kernel⟩⟩,
    ⟨(dev .service), 1, ({ dtype := 0x0F, addr := 2, arg := 1 }), by simp only [soundMsg]; decide +kernel⟩,
    ⟨(dev .test), 1, ({ dtype := 0x0F, addr := 2, arg := 1 }), by simp only [soundMsg]; decide +kernel⟩,
    ⟨(dev .service), 1, ({ dtype := 0x0F, addr := 4, arg := 1 }), by simp only [soundMsg]; decide +kernel⟩,
    ⟨(dev .test), 1, ({ dtype := 0x0F, addr := 4, arg := 1 }), by simp only [soundMsg]; decide +kernel⟩⟩

/-- States that meet the hypotheses of PositionsTileNumbersAndColumns. -/
theorem witness_PositionsTileNumbersAndColumns :
    (∃ (f : Nat) (lx : Nat) (ly : Nat) (x : Nat) (y : Nat), (f < 6) ∧ (lx < 17) ∧ (ly < 12) ∧ (x = 17 * (f % 3) + lx) ∧ (y = 12 * (f / 3) + ly)) ∧
    (∃ (f : Nat) (lx : Nat) (ly : Nat) (x : Nat) (y : Nat), (f < 6) ∧ (lx < 17) ∧ (ly < 12) ∧ (x = 17 * (f % 3) + lx) ∧ (y = 12 * (f / 3) + ly)) ∧
    (∃ (f : Nat) (lx : Nat) (ly : Nat) (x : Nat) (y : Nat), (f < 6) ∧ (lx < 17) ∧ (ly < 12) ∧ (x = 17 * (f % 3) + lx) ∧ (y = 12 * (f / 3) + ly)) ∧
    (∃ (n : Nat) (m : Nat), (n < 1224) ∧ (m < 1224) ∧ (tileIx m = tileIx n)) ∧
    (∃ (n : Nat), (n < 1224)) ∧
    (∃ (n : Nat), (n < 1224)) ∧
    (∃ (i : Nat), (0x2100 ≤ i) ∧ (i ≤ 0x25C7)) ∧
    (∃ (i : Nat), (0x2100 ≤ i) ∧ (i ≤ 0x25C7)) := by
  exact ⟨⟨0, 0, 0, 0, 0, by decide +kernel⟩,
    ⟨5, 16, 11, 50, 23, by decide +kernel⟩,
    ⟨2, 16, 0, 50, 0, by decide +kernel⟩,
    ⟨1223, 1223, by decide +kernel⟩,
    ⟨0, by decide +kernel⟩,
    ⟨1223, by decide +kernel⟩,
    ⟨0x2100, by decide +kernel⟩,
    ⟨0x25C7, by decide +kernel⟩⟩

/-- States that meet the hypotheses of BootAndPowerCommandsComplete. -/
theorem witness_BootAndPowerCommandsComplete :
    (∃ (s : State) (sess : Nat), (s.writeGuard sess 0x0110 1 = none) ∧ (s.device.mode = .service) ∧ (∀ q, q < 12 → s.jobState q = 0)) ∧
    (∃ (s : State) (sess : Nat), (s.writeGuard sess 0x0110 1 = none) ∧ (s.device.mode = .test) ∧ (s.device.holder = sess ∨ s.holds sess rSecurity = true)) ∧
    (∃ (s : State) (sess : Nat) (index : Nat) (sub : Nat) (ty : Nat) (value : List Byte) (d : ObjDesc), (objAt index sub = some d) ∧ (s.writeGuard sess index sub = none) ∧ (d.ty ≠ 11) ∧ (0 < d.size) ∧ (d.access = 2 ∨ d.access = 3) ∧ (index ≠ 0x4000) ∧ (s.valueOk index sub ty d value = true) ∧ (d.access = 2) ∧ (¬ (index = 0x1420 ∧ sub = 1)) ∧ (¬ (0x4010 ≤ index ∧ index < 0x4020 ∧ sub = 0x14)) ∧ (¬ (0x3410 ≤ index ∧ index < 0x341C ∧ 7 ≤ sub ∧ sub ≤ 9))) ∧
    (∃ (s : State) (mv : Nat), (s.power.closed = true) ∧ (s.power.cause ≠ 3) ∧ (42000 ≤ mv) ∧ (s.power.pinLow = false)) ∧
    (∃ (s : State) (sess : Nat), (s.writeGuard sess 0x7000 1 = none) ∧ (s.device.mode = .service ∨ s.device.mode = .test ∨ (s.device.mode = .safe ∧ s.sec.installed = true))) := by
  exact ⟨⟨svc, 5, by decide +kernel⟩,
    ⟨({ svc with device := { mode := .test, holder := 5 } }), 5, by decide +kernel⟩,
    ⟨svc, 5, 0x502B, 1, 4, (leBytes 4 0x186A0), (⟨0x5020, 12, 0x01, "cadence_period_ns", 4, 2, 0, 4, 0x186A0, 0x3B9ACA00, false⟩), by decide +kernel⟩,
    ⟨off, 42000, by decide +kernel⟩,
    ⟨svc, 5, by decide +kernel⟩⟩

/-- States that meet the hypotheses of BootAndPowerCommandsComplete. -/
theorem witness_BootAndPowerCommandsComplete_2 :
    (∃ (s : State) (sess : Nat), (s.writeGuard sess 0x7000 1 = none) ∧ (s.device.mode = .service ∨ s.device.mode = .test ∨ (s.device.mode = .safe ∧ s.sec.installed = true))) ∧
    (∃ (s : State) (r : StageReport), (s.boot.active = true) ∧ (s.obj 0x7000 3 = 0) ∧ (r.failed = none) ∧ (∀ i ∈ [0x10A0, 0x10A5, 0x10A6], s.obj i 0 ≠ 2 ∧ popCount (railPhases (i - 0x10A0) - s.obj i 1) 6 < 2)) ∧
    (∃ (s : State) (unit : Nat) (full : Bool), (s.boot.active = true) ∧ (s.obj 0x7000 3 ≠ 9) ∧ (s.stagePast (2 * s.stageLimit (s.obj 0x7000 3) full) = true) ∧ (s.bamurn.flash.ok = true) ∧ (s.boot.testDdr < 16) ∧ (s.boot.testHbm < 16)) ∧
    (∃ (s : State) (kind : Nat), (s.boot.waiting = some kind) ∧ (s.power.closed = false) ∧ (s.boot.failedAt + secTide ≤ s.elapsed)) ∧
    (∃ (s : State), (s.boot.active = true) ∧ (s.obj 0x7000 3 = 9) ∧ (s.boot.topoHold = false) ∧ (s.stagePast (s.stageLimit 9 false) = true)) := by
  exact ⟨⟨(dev .test), 5, by decide +kernel⟩,
    ⟨({ (dev .startup).setObj 0x7000 3 0 0 with boot := { active := true } }), {}, by decide +kernel⟩,
    ⟨({ (dev .startup).setObj 0x7000 2 0 2 with elapsed := secTide, boot := { active := true } }), 65535, false, by decide +kernel⟩,
    ⟨({ dev .startup with elapsed := secTide, boot := { waiting := some 2 } }), 2, by decide +kernel⟩,
    ⟨({ (((dev .startup).setObj 0x7000 3 0 9)) with elapsed := msTide * 2000, boot := { active := true, expected := [1] } }), by decide +kernel⟩⟩

/-- States that meet the hypotheses of BootAndPowerCommandsComplete. -/
theorem witness_BootAndPowerCommandsComplete_3 :
    (∃ (s : State) (sess : Nat), (s.writeGuard sess 0x7020 1 = none)) ∧
    (∃ (s : State) (sess : Nat) (mode : Nat), (s.writeGuard sess 0x7030 2 = none) ∧ (mode ≤ 2)) ∧
    (∃ (s : State) (mv : Nat), (s.power.closed = false)) ∧
    (∃ (s : State), (s.power.closed = false) ∧ (∃ since, s.power.sag = some since ∧ since + msTide < s.elapsed)) ∧
    (∃ (s : State) (mv : Nat), (s.power.closed = false) ∧ (60000 < mv)) := by
  exact ⟨⟨svc, 5, by decide +kernel⟩,
    ⟨svc, 5, 2, by decide +kernel⟩,
    ⟨svc, 39999, by decide +kernel⟩,
    ⟨({ svc with elapsed := msTide + 1, power := { closed := false, sag := some 0 } }), by decide +kernel⟩,
    ⟨svc, 60001, by decide +kernel⟩⟩

/-- States that meet the hypotheses of BootAndPowerCommandsComplete. -/
theorem witness_BootAndPowerCommandsComplete_4 :
    (∃ (s : State) (i : Nat), (i < 4) ∧ (s.obj 0x1000 4 i = 0)) ∧
    (∃ (s : State) (c : Nat) (phase : Nat), (c < 90) ∧ (phase < phaseCount (.vl c)) ∧ (s.obj (0x1040 + c) 1 ≤ (if c < 72 then 7 else 3)) ∧ (bitOf (s.obj (0x1040 + c) 1) phase = true) ∧ (s.plane c ≠ 4)) ∧
    (∃ (s : State) (c : Nat), (c < 90) ∧ (s.plane c ≠ 4)) ∧
    (∃ (s : State) (c : Nat), (s.obj (0x1040 + c) 0xA ≠ 1)) ∧
    (∃ (s : State) (c : Nat) (a : Nat) (b : Nat) (ma : Nat), (s.obj (0x1040 + c) 0xA ≠ 1) ∧ ((if c < 72 then 10000 else 3000) ≤ ma) ∧ (4 * (1000000 * (a - b) / ma) ≤ 5 * s.obj (0x1040 + c) 9)) := by
  exact ⟨⟨svc, 3, by decide +kernel⟩,
    ⟨(obs [(0x1040,0,0,2)] svc), 0, 2, by decide +kernel⟩,
    ⟨svc, 89, by decide +kernel⟩,
    ⟨svc, 3, by decide +kernel⟩,
    ⟨(obs [(0x1040,9,0,100)] svc), 0, 751, 750, 10000, by decide +kernel⟩⟩

/-- States that meet the hypotheses of BootAndPowerCommandsComplete. -/
theorem witness_BootAndPowerCommandsComplete_5 :
    (∃ (s : State) (c : Nat) (ma : Nat) (w : Wake), (s.wakeOf c = some w) ∧ (w.due ≤ s.elapsed) ∧ (w.stages < 8) ∧ (w.holding = false) ∧ (w.expired = false)) ∧
    (∃ (s : State) (c : Nat) (ma : Nat) (w : Wake), (s.wakeOf c = some w) ∧ (w.due ≤ s.elapsed) ∧ (w.holding = true) ∧ (w.spent s.elapsed = false)) ∧
    (∃ (s : State) (c : Nat) (w : Wake), (s.wakeOf c = some w) ∧ (w.holding = true) ∧ (w.spent s.elapsed = true)) ∧
    (∃ (s : State) (c : Nat) (w : Wake), (c < 90) ∧ (s.wakeOf c = some w) ∧ (8 ≤ w.stages) ∧ (w.due ≤ s.elapsed) ∧ (s.planeWaits c = none) ∧ ((s.wakeGroup (clusterField c)).queue = [])) ∧
    (∃ (s : State) (c : Nat), (c < 90) ∧ (s.plane c = 2) ∧ (s.gateable c = true)) := by
  exact ⟨⟨(waking { cluster := 0, asked := 0, interval := 1 }), 0, 5, ({ cluster := 0, asked := 0, interval := 1 }), by decide +kernel⟩,
    ⟨(waking { cluster := 0, asked := 0, interval := 1, holding := true }), 0, 7, ({ cluster := 0, asked := 0, interval := 1, holding := true }), by decide +kernel⟩,
    ⟨(waking { cluster := 0, asked := 0, interval := 4, holding := true, held := 200000, stages := 7 }), 0, ({ cluster := 0, asked := 0, interval := 4, holding := true, held := 200000, stages := 7 }), by decide +kernel⟩,
    ⟨(waking { cluster := 0, asked := 0, interval := 1, stages := 8 }), 0, ({ cluster := 0, asked := 0, interval := 1, stages := 8 }), by decide +kernel⟩,
    ⟨(obs [(0x1040,0,0,2)] svc), 0, by decide +kernel⟩⟩

/-- States that meet the hypotheses of BootAndPowerCommandsComplete. -/
theorem witness_BootAndPowerCommandsComplete_6 :
    (∃ (s : State) (c : Nat), (c < 90) ∧ (s.plane c = 3) ∧ (s.planeWaits c = none)) ∧
    (∃ (s : State), (s.power.closed = false)) ∧
    (∃ (s : State) (mv : Nat), (s.power.closed = true) ∧ (s.power.cause ≠ 3) ∧ (42000 ≤ mv)) := by
  exact ⟨⟨(obs [(0x1099,0,0,3)] svc), 89, by decide +kernel⟩,
    ⟨svc, by decide +kernel⟩,
    ⟨({ svc with power := { cause := 2, pinLow := true } }), 50000, by decide +kernel⟩⟩

/-- States that meet the hypotheses of LimitAndClockCommandsComplete. -/
theorem witness_LimitAndClockCommandsComplete :
    (∃ (s : State) (ch : Nat), (ch < 16) ∧ (s.obj (0x3110 + ch) 0 = 1) ∧ (Tbl.get s.channels {} ch = {})) ∧
    (∃ (s : State) (a : Nat) (b : Nat) (h : Nat), (s.obj 0x1100 1 ≤ h) ∧ (∀ c, c < 90 → s.plane c = 2 → s.obj (0x1310 + c) 0 ≤ h) ∧ (h = s.obj 0x1100 1 ∨ ∃ c, c < 90 ∧ s.plane c = 2 ∧ s.obj (0x1310 + c) 0 = h)) ∧
    (∃ (s : State) (f : Nat) (ma : Nat), (f < 6)) ∧
    (∃ (s : State) (n : Nat) (c : Nat) (rest : List Nat), ((Tbl.get s.slopes {} (fieldNo n)).waiting = n :: rest) ∧ (s.stopped n = false) ∧ (3 * (((Tbl.get s.slopes {} (fieldNo n)).charges.filter (fun t => decide (s.elapsed < t + 4000))).length + 1) ≤ s.obj (0x1110 + fieldNo n) 0)) ∧
    (∃ (s : State) (n : Nat) (c : Nat), ((s.tile n).arr.ramp.up = true) ∧ (s.stopped n = false) ∧ ((s.tile n).arr.ramp.downAt = none) ∧ (0 < (s.tile n).arr.ramp.last) ∧ ((s.tile n).arr.ramp.last + (s.tile n).arr.ramp.len < c)) := by
  exact ⟨⟨(obs [(0x3110,0,0,1)] svc), 0, by decide +kernel⟩,
    ⟨(obs [(0x1101,4,0,31)] svc), 500000, 500000, (svc.obj 0x1100 1), by decide +kernel⟩,
    ⟨svc, 5, 1000, by decide +kernel⟩,
    ⟨({ obs [(0x1110, 0, 0, 3)] svc with slopes := [(0, { waiting := [0] })] }), 0, 4, [], by decide +kernel⟩,
    ⟨(svc.modArr 0 (fun a => { a with ramp := { up := true, last := 4 } })), 0, 53, by decide +kernel⟩⟩

/-- States that meet the hypotheses of LimitAndClockCommandsComplete. -/
theorem witness_LimitAndClockCommandsComplete_2 :
    (∃ (s : State) (c : Nat), (c < 90) ∧ (s.plane c = 2) ∧ (s.obj (0x1450 + c) 4 = 0)) ∧
    (∃ (s : State) (c : Nat), (c < 90) ∧ (s.obj (0x1450 + c) 4 = 1) ∧ (s.obj (0x1450 + c) 1 ≠ 0)) ∧
    (∃ (s : State) (c : Nat), ((s.limits c).hold = true) ∧ ((s.limits c).holdAt + 100 * msTide ≤ s.elapsed)) ∧
    (∃ (s : State) (c : Nat) (x : Int), (c < 90)) ∧
    (∃ (s : State) (h : Nat) (x : Int), (h < 12)) := by
  exact ⟨⟨(obs [(0x1040,0,0,2)] svc), 0, by decide +kernel⟩,
    ⟨(obs [(0x1499+16,4,0,1),(0x1450,4,0,1),(0x1450,1,0,600)] svc), 0, by decide +kernel⟩,
    ⟨({ svc with elapsed := 400000000, throttle := { clusters := [(3, { hold := true, droop := 10 })] } }), 3, by decide +kernel⟩,
    ⟨svc, 89, 1090, by decide +kernel⟩,
    ⟨svc, 11, 951, by decide +kernel⟩⟩

/-- States that meet the hypotheses of LimitAndClockCommandsComplete. -/
theorem witness_LimitAndClockCommandsComplete_3 :
    (∃ (s : State) (ch : Nat) (x : Int), (ch < 16)) ∧
    (∃ (s : State), (s.power.closed = true) ∧ (s.power.cause = 3) ∧ (signedOf (s.obj 0x1400 1) 32 ≤ 450) ∧ (4500 ≤ s.obj 0x1400 3) ∧ (∀ c, c < 90 → signedOf (s.obj (0x1310 + c) 5) 32 < 600)) ∧
    (∃ (s : State) (u : State) (q : Nat) (j : Job), (q < 12) ∧ (s.job q = some j) ∧ (j.weirHold = true) ∧ (j.cadence = false) ∧ (j.scourHold = false) ∧ (s.jobState q = 2) ∧ (u = s.setJob q (some { j with weirHold := false })) ∧ (u.readEntry q (u.step' q) = (u, none))) ∧
    (∃ (s : State) (q : Nat), (s.sendsSlack q = true) ∧ (s.jobId q < 65536)) ∧
    (∃ (s : State) (m : CtrlMsg) (q : Nat), (ctrlOk 0x16 m = true) ∧ (s.obj 0x1102 0 = 1) ∧ (q < 12) ∧ (s.jobState q = 2 ∨ s.jobState q = 3) ∧ (s.jobId q = fieldOf m.body.toNat 208 16) ∧ (bitOf (s.obj (0x5040 + q) 9) m.src = true) ∧ (fieldOf m.body.toNat 200 8 ≠ 0)) := by
  exact ⟨⟨svc, 15, 851, by decide +kernel⟩,
    ⟨({ obs [(0x1400,1,0,450),(0x1400,3,0,4500)] svc with power := { cause := 3 } }), by decide +kernel⟩,
    ⟨((jst ({ job9 with map := [0], watches := [{ gauge := 2, base := 0, perStep := 1, logical := 0 }], weirHold := true })).setObj 0x5010 0 0 2), _, 0, ({ job9 with map := [0], watches := [{ gauge := 2, base := 0, perStep := 1, logical := 0 }], weirHold := true }), ⟨by decide +kernel, by decide +kernel, by decide +kernel, by decide +kernel, by decide +kernel, by decide +kernel, rfl, by decide +kernel⟩⟩,
    ⟨({ obs [(0x1102,0,0,1),(0x4000,0,0,7),(0x5010,0,0,2),(0x5000,0,0,1),(0x5040,9,0,5)] svc with cfgs := [(0, { clusters := 1 })], throttle := { slackFor := [(0, (1000, 5))] }, jobs := [(0, some { hdr := { jobId := 9 } })] }), 0, by decide +kernel⟩,
    ⟨({ obs [(0x1102,0,0,1),(0x5010,0,0,2),(0x5000,0,0,1),(0x5040,9,0,4)] svc with cfgs := [(0, { clusters := 1 })], jobs := [(0, some { hdr := { jobId := 9 } })] }), ({ mtype := 0x16, src := 2, body := BitVec.ofNat 224 (9 * 2 ^ 208 + 2 * 2 ^ 200 + 12 * 2 ^ 192) }), 0, by decide +kernel⟩⟩

/-- States that meet the hypotheses of LimitAndClockCommandsComplete. -/
theorem witness_LimitAndClockCommandsComplete_4 :
    (∃ (s : State) (q : Nat) (sender : Nat), (Tbl.get s.throttle.slackAt 0 (256 * q + sender) + 15 * msTide ≤ s.elapsed)) ∧
    (∃ (s : State) (c : Nat), (c < 90) ∧ (s.plane c = 2) ∧ (s.obj (0x1450 + c) 0 = 2 ∨ s.obj (0x1450 + c) 0 = 3) ∧ (s.obj (0x1310 + c) 0 < 32) ∧ (s.targetStep c < 32) ∧ (∀ k, k < 32 → s.stepUsable k = true) ∧ (s.obj (0x1310 + c) 0 ≠ s.targetStep c)) ∧
    (∃ (s : State) (c : Nat) (ph : Bool), (c < 90) ∧ (s.plane c = 2) ∧ (s.obj (0x1450 + c) 0 = 2 ∨ s.obj (0x1450 + c) 0 = 3) ∧ (s.clusterJobs c = []) ∧ (s.hist (susCode (susCluster c)) clClock = none)) ∧
    (∃ (s : State) (c : Nat), (c < 90) ∧ (s.plane c = 2) ∧ (s.obj (0x1450 + c) 0 = 1)) ∧
    (∃ (s : State), (s.power.closed = false)) := by
  exact ⟨⟨({ svc with elapsed := 60000000, throttle := { peers := [(0, 4, 3), (0, 5, 9)] } }), 0, 4, by decide +kernel⟩,
    ⟨(obs ((0x1040,0,0,2) :: (0x1450,0,0,2) :: (0x1101,4,0,31) :: (List.range 32).map (fun k => (0x1100, 0, k, 1))) svc), 0, by decide +kernel⟩,
    ⟨(obs [(0x1040,0,0,2),(0x1450,0,0,3)] svc), 0, true, by decide +kernel⟩,
    ⟨(obs [(0x1040,0,0,2),(0x1450,0,0,1)] svc), 0, by decide +kernel⟩,
    ⟨svc, by decide +kernel⟩⟩

/-- States that meet the hypotheses of LimitAndClockCommandsComplete. -/
theorem witness_LimitAndClockCommandsComplete_5 :
    (∃ (s : State) (k : Nat) (bt : Nat) (bn : Nat) (r : Int), (s.ptpPort = some k) ∧ (s.portState k = 6)) ∧
    (∃ (s : State) (sess : Nat) (v : Nat), (s.writeGuard sess 0x4000 0 = none) ∧ (∀ q, q < 12 → s.jobState q = 0) ∧ (v < 256 ∨ v = 0xFFFF) ∧ ((s.storeRecord 0x4000 0 3 (leBytes 2 v)).2 = stOk)) := by
  exact ⟨⟨(obs [(0x401D,0x14,0,1),(0x401D,1,0,6)] svc), 13, 5, 6, -7, by decide +kernel⟩,
    ⟨svc, 5, 255, by decide +kernel⟩⟩

/-- States that meet the hypotheses of CausewayCommandsComplete. -/
theorem witness_CausewayCommandsComplete :
    (∃ (s : State) (sess : Nat) (k : Nat), (k < 16) ∧ (s.writeGuard sess (0x4010 + k) 4 = none) ∧ (s.portState k ≠ 1) ∧ ((s.port k).fwd = []) ∧ (s.obj (0x4010 + k) 0 ≠ 0) ∧ (s.portState k ≠ 5)) ∧
    (∃ (s : State) (sess : Nat) (k : Nat), (k < 16) ∧ (s.writeGuard sess (0x4010 + k) 4 = none) ∧ (s.portState k ≠ 1) ∧ ((s.port k).fwd = []) ∧ (s.obj (0x4010 + k) 0 ≠ 0)) ∧
    (∃ (s : State) (k : Nat), (k < 16) ∧ (s.portState k = 0)) ∧
    (∃ (s : State) (k : Nat), (k < 16) ∧ (s.portState k = 1) ∧ ((s.port k).locked.length < (s.port k).lanesNeeded) ∧ ((s.port k).latch = none) ∧ ((s.port k).resume = none)) ∧
    (∃ (s : State) (k : Nat) (lane : Nat), (k < 16) ∧ (s.portUp k = true) ∧ (∃ i ∈ s.activeLanes k, s.laneOf k i = lane)) := by
  exact ⟨⟨(obs [(0x4011,1,0,2)] svc), 5, 1, by decide +kernel⟩,
    ⟨(obs [(0x401F,1,0,5),(0x401F,2,0,7)] svc), 5, 15, by decide +kernel⟩,
    ⟨svc, 0, by decide +kernel⟩,
    ⟨(obs [(0x4011,1,0,1)] svc), 1, by decide +kernel⟩,
    ⟨(obs [(0x4011,1,0,2)] svc), 1, 3, by decide +kernel⟩⟩

/-- States that meet the hypotheses of CausewayCommandsComplete. -/
theorem witness_CausewayCommandsComplete_2 :
    (∃ (s : State) (k : Nat), (k < 16) ∧ ((s.port k).mode = 1) ∧ (s.portState k ∈ [1, 2, 3, 4]) ∧ (s.obj 0x4000 1 < 2 ^ 32) ∧ (s.obj 0x4000 0 < 2 ^ 16) ∧ (s.portUp k = true → (s.port k).stuck = [] ∧ s.roomTx k 8 1 = true)) ∧
    (∃ (s : State) (k : Nat) (m : CtrlMsg), (k < 16) ∧ (ctrlOk 0x01 m = true) ∧ (s.portState k = 1) ∧ ((s.port k).resume = none) ∧ ((s.port k).latch = none) ∧ (4 ≤ (s.port k).locked.length) ∧ (fieldOf m.body.toNat 128 32 = s.obj 0x4000 1) ∧ (fieldOf m.body.toNat 100 8 = 1) ∧ ((s.port k).egress = []) ∧ ((s.port k).ingress = []) ∧ ((s.port k).stuck = [])) ∧
    (∃ (s : State) (k : Nat) (f : Flit), (k < 16) ∧ (s.portUp k = true) ∧ (flitCrcOk f = true) ∧ (flitSeq f = (s.port k).rxSeq)) ∧
    (∃ (s : State) (k : Nat), (k < 16) ∧ (s.portUp k = true)) ∧
    (∃ (s : State) (k : Nat), (k < 16) ∧ (s.portUp k = true)) := by
  exact ⟨⟨(obs [(0x4011,1,0,1),(0x4000,1,0,77),(0x4000,2,0,12345),(0x4000,0,0,9)] svc), 1, by decide +kernel⟩,
    ⟨({ obs [(0x4011,1,0,1),(0x4000,1,0,77)] svc with ports := [(1, { locked := [0,1,2,3] })] }), 1, ({ mtype := 1, body := BitVec.ofNat 224 (5 * 2 ^ 160 + 77 * 2 ^ 128 + 3 * 2 ^ 112 + 4 * 2 ^ 108 + 1 * 2 ^ 100) }), by decide +kernel⟩,
    ⟨({ obs [(0x4011,1,0,2)] svc with ports := [(1, { rxSeq := 65535, discarding := true })] }), 1, (idleFlit 65535 3901967949), by decide +kernel⟩,
    ⟨({ obs [(0x4011,1,0,2)] svc with ports := [(1, { rxSeq := 0, owed := [300,0,0,0,0,1,0,0,0,0] })] }), 1, by decide +kernel⟩,
    ⟨({ obs [(0x4011,1,0,2)] svc with ports := [(1, { marks := List.replicate 64 0 })] }), 1, by decide +kernel⟩⟩

/-- States that meet the hypotheses of CausewayCommandsComplete. -/
theorem witness_CausewayCommandsComplete_3 :
    (∃ (s : State) (k : Nat) (m : CtrlMsg), (k < 16) ∧ (s.portUp k = true) ∧ (ctrlOk 0x02 m = true) ∧ ((s.port k).stuck = []) ∧ (s.roomTx k 8 1 = true) ∧ (∀ x ∈ (s.port k).swaps, ∀ v, x.tx = some v → v < 65536)) ∧
    (∃ (s : State) (k : Nat) (m : CtrlMsg), (ctrlOk 0x03 m = true)) ∧
    (∃ (s : State) (k : Nat) (seq : Nat) (lane : Nat) (x : Swap), (k < 16) ∧ (lane < 4) ∧ ((s.port k).swaps = [x]) ∧ (x.lane = lane) ∧ (x.drop = false) ∧ (x.tx = some seq) ∧ (x.txDone = false) ∧ (x.rx ≠ some seq) ∧ (x.rxDone = true)) ∧
    (∃ (s : State) (k : Nat), (k < 16) ∧ (s.portState k = 0)) ∧
    (∃ (s : State) (k : Nat), (k < 16) ∧ (s.portState k = 6)) := by
  exact ⟨⟨(obs [(0x4011,1,0,2)] svc), 1, ({ mtype := 2, body := BitVec.ofNat 224 (70 * 2 ^ 208 + 2 * 2 ^ 205) }), ⟨by decide +kernel, by decide +kernel, by decide +kernel, by decide +kernel, by decide +kernel, by intro x hx; cases hx⟩⟩,
    ⟨({ obs [(0x4011,1,0,2)] svc with ports := [(1, { swaps := [{ lane := 2, drop := false, tx := some 9 }] })] }), 1, ({ mtype := 3, body := BitVec.ofNat 224 (70 * 2 ^ 208 + 2 * 2 ^ 205) }), by decide +kernel⟩,
    ⟨({ obs [(0x4011,1,0,2),(0x4011,2,0,0x688)] svc with ports := [(1, { swaps := [{ lane := 2, drop := false, tx := some 9, rx := some 8, rxDone := true }] })] }), 1, 9, 2, ({ lane := 2, drop := false, tx := some 9, rx := some 8, rxDone := true }), by decide +kernel⟩,
    ⟨svc, 15, by decide +kernel⟩,
    ⟨(obs [(0x4011,1,0,6)] svc), 1, by decide +kernel⟩⟩

/-- States that meet the hypotheses of CausewayCommandsComplete. -/
theorem witness_CausewayCommandsComplete_4 :
    (∃ (s : State), (s.obj 0x4000 0 ≠ 0xFFFF)) ∧
    (∃ (s : State) (k : Nat) (m : CtrlMsg), (ctrlOk 0x06 m = true) ∧ (fieldOf m.body.toNat 216 8 ≠ s.obj 0x4000 0) ∧ (Tbl.get s.topo none (fieldOf m.body.toNat 216 8) = none)) ∧
    (∃ (s : State) (k : Nat), (s.portUp k = true) ∧ ((s.port k).stuck = []) ∧ (s.roomTx k 8 1 = true) ∧ ((s.port k).syncAt + nsTide (1000 * s.obj 0x4000 7) ≤ s.elapsed)) ∧
    (∃ (s : State) (k : Nat) (m : CtrlMsg), (s.portUp k = true) ∧ (ctrlOk 0x04 m = true) ∧ ((s.port k).stuck = []) ∧ (s.roomTx k 8 1 = true)) ∧
    (∃ (s : State) (k : Nat) (x : Nat) (m : CtrlMsg), (s.portUp k = true) ∧ (ctrlOk 0x05 m = true) ∧ (fieldOf m.body.toNat 208 16 = (s.port k).syncSeq) ∧ (s.obj 0x1420 2 = 0)) := by
  exact ⟨⟨(obs [(0x4011,1,0,2),(0x4000,0,0,3)] svc), by decide +kernel⟩,
    ⟨(obs [(0x4011,1,0,2),(0x4000,0,0,3)] svc), 1, ({ mtype := 6, body := BitVec.ofNat 224 (9 * 2 ^ 216 + 4 * 2 ^ 184 + 0x103 * 2 ^ 40) }), by decide +kernel⟩,
    ⟨({ obs [(0x4011,1,0,2)] svc with elapsed := 4000000000 }), 1, by decide +kernel⟩,
    ⟨(obs [(0x4011,1,0,2)] svc), 1, ({ mtype := 4, body := BitVec.ofNat 224 (8 * 2 ^ 208) }), by decide +kernel⟩,
    ⟨({ obs [(0x4011,1,0,3)] svc with ports := [(1, { syncSeq := 8, t1 := 5 })] }), 1, 40, ({ mtype := 5, body := BitVec.ofNat 224 (8 * 2 ^ 208 + 100 * 2 ^ 144 + 30 * 2 ^ 80) }), by decide +kernel⟩⟩

/-- States that meet the hypotheses of CausewayCommandsComplete. -/
theorem witness_CausewayCommandsComplete_5 :
    (∃ (s : State) (k : Nat) (hop : Nat) (d : Nat) (p : Packet), (s.obj 0x4000 0 ≠ 0xFFFF) ∧ (s.device.mode ≠ .safe) ∧ (s.isOwn (farDevice p.farAddr.toNat) = true) ∧ (s.ingressDest p = .ok d) ∧ ((s.port k).egress = []) ∧ ((s.port k).ingress = []) ∧ ((s.port k).stuck = []) ∧ ((s.port k).reserved + p.rows + 1 ≤ 4096)) ∧
    (∃ (s : State) (k : Nat) (hop : Nat) (p : Packet) (r : Packet) (rest : List Packet), ((s.port k).fwd = r :: rest) ∧ (sameKey r p = true) ∧ ((s.port k).egress = []) ∧ ((s.port k).ingress = []) ∧ ((s.port k).stuck = [])) ∧
    (∃ (s : State) (k : Nat) (hop : Nat) (p : Packet) (r : Packet) (rest : List (Nat × Packet)), ((s.port k).inbound = (hop, r) :: rest) ∧ (r.ptype = .read ∨ r.ptype = .memRead) ∧ (r.farAddr = p.farAddr) ∧ (r.rows = p.rows) ∧ (r.stride = p.stride) ∧ ((s.port k).egress = []) ∧ ((s.port k).ingress = [])) ∧
    (∃ (s : State) (k : Nat) (slots : Nat) (u : MgmtUnit), (u.reserved = 0) ∧ (1 ≤ u.length) ∧ (u.length ≤ 1536) ∧ (slots ≤ 48) ∧ (slots = (u.length + 31) / 32) ∧ (u.hops ≤ 3) ∧ (u.local' = true ∨ (s.obj 0x4000 0 ≠ 0xFFFF ∧ u.dst = s.ownDevice))) ∧
    (∃ (s : State) (k : Nat), (k < 16) ∧ (2 ≤ (s.port k).mode) ∧ (s.portState k ≠ 7) ∧ ((s.port k).latch = none)) := by
  exact ⟨⟨(obs [(0x4000,0,0,3)] (jst job9)), 1, 0, 1, ({ farAddr := BitVec.ofNat 64 (3 * 2 ^ 54 + 2 ^ 38), tag := 5, job := 9 }), by decide +kernel⟩,
    ⟨({ svc with ports := [(1, { fwd := [{ tag := 4, srcX := 3, srcY := 2 }] })] }), 1, 0, ({ ptype := .ack, tag := 4 }), ({ tag := 4, srcX := 3, srcY := 2 }), [], by decide +kernel⟩,
    ⟨({ svc with ports := [(1, { inbound := [(1, { tag := 4, rows := 2 })] })] }), 1, 1, ({ ptype := .fork, rows := 2, data := [1, 2] }), ({ tag := 4, rows := 2 }), [], by decide +kernel⟩,
    ⟨svc, 1, 1, ({ local' := true, length := 32, bytes := List.replicate 32 7 }), by decide +kernel⟩,
    ⟨({ svc with ports := [(12, { mode := 2 })] }), 12, by decide +kernel⟩⟩

/-- States that meet the hypotheses of CausewayCommandsComplete. -/
theorem witness_CausewayCommandsComplete_6 :
    (∃ (s : State) (k : Nat), (k < 16) ∧ (s.portState k = 6)) ∧
    (∃ (s : State) (k : Nat) (f : EthFrame), (s.portState k = 6) ∧ (f.fcsOk = true) ∧ (isTagged f.bytes = false) ∧ (64 ≤ f.bytes.length) ∧ (f.bytes.length ≤ 9216)) := by
  exact ⟨⟨(obs [(0x4011,1,0,6)] svc), 1, by decide +kernel⟩,
    ⟨(obs [(0x401D,1,0,6)] svc), 13, ({ bytes := List.replicate 64 0, fcsOk := true }), by decide +kernel⟩⟩

/-- States that meet the hypotheses of QueueAndComputeCommandsComplete. -/
theorem witness_QueueAndComputeCommandsComplete :
    (∃ (s : State) (n : Nat) (q : Nat) (c : Nat) (w : Nat), (s.headIs n q c w) ∧ (opcodeOf w = 0x01) ∧ (s.qPc n q ≠ s.qEntry n q ∨ (s.queue n q).ended = none) ∧ ((s.gaugeAt n (fieldOf w 112 7) c % 2 ^ 32 + 2 ^ 32 - (fieldOf w 64 32 + fieldOf w 96 16 * s.stepOffset n) % 2 ^ 32) % 2 ^ 32 < 2 ^ 31)) ∧
    (∃ (s : State) (n : Nat) (q : Nat) (c : Nat) (w : Nat), (q < 3) ∧ (s.headIs n q c w) ∧ (opcodeOf w = 0x02) ∧ (bitOf w 119 = false) ∧ ((s.queue n q).deferred.length < 8)) ∧
    (∃ (s : State) (n : Nat) (c : Nat) (d : Deferred) (rest : List Deferred), ((s.queue n 1).deferred = d :: rest) ∧ (s.qState n 1 ≠ 6) ∧ (d.ready ≤ c) ∧ (d.far = false) ∧ ((s.tile n).vec = []) ∧ ((s.tile n).gau.st = .live)) ∧
    (∃ (s : State) (n : Nat) (q : Nat) (c : Nat) (w : Nat), (s.headIs n q c w) ∧ (opcodeOf w = 0x03)) ∧
    (∃ (s : State) (n : Nat) (q : Nat) (c : Nat) (w : Nat), (s.headIs n q c w) ∧ (opcodeOf w = 0x04)) := by
  exact ⟨⟨(head 0 (2 ^ 120 + 5 * 2 ^ 112) svc), 0, 0, 0, (2 ^ 120 + 5 * 2 ^ 112), by simp only [State.headIs]; decide +kernel⟩,
    ⟨(head 2 (2 * 2 ^ 120 + 3 * 2 ^ 112 + 5 * 2 ^ 96) svc), 0, 2, 1, (2 * 2 ^ 120 + 3 * 2 ^ 112 + 5 * 2 ^ 96), by simp only [State.headIs]; decide +kernel⟩,
    ⟨((head 1 (2 * 2 ^ 120) svc).modTile 0 (fun t => { t with gau := { st := .live }, qs := [(1, { deferred := [⟨false, 6, 9, 0, 0, 3⟩] })] })), 0, 3, (⟨false, 6, 9, 0, 0, 3⟩), [], by decide +kernel⟩,
    ⟨(head 2 (3 * 2 ^ 120) svc), 0, 2, 11, (3 * 2 ^ 120), by simp only [State.headIs]; decide +kernel⟩,
    ⟨(head 3 (4 * 2 ^ 120 + 7 * 2 ^ 104) svc), 0, 3, 2, (4 * 2 ^ 120 + 7 * 2 ^ 104), by simp only [State.headIs]; decide +kernel⟩⟩

/-- States that meet the hypotheses of QueueAndComputeCommandsComplete. -/
theorem witness_QueueAndComputeCommandsComplete_2 :
    (∃ (s : State) (n : Nat) (c : Nat) (w : Nat), (s.headIs n 0 c w) ∧ (opcodeOf w = 0x10) ∧ ((s.tile n).arr.load = .idle) ∧ (fieldOf w 116 4 < 6) ∧ (handleCheck (s.handle n (fieldOf w 54 6)) hrStationary (fieldOf w 40 14) 192 = none) ∧ (handleCheck (s.handle n (fieldOf w 34 6)) hrStationary (fieldOf w 20 14) (if fieldOf w 116 4 = 3 then 12 else if fieldOf w 116 4 = 4 ∨ fieldOf w 116 4 = 5 then 6 else 24) = none)) ∧
    (∃ (s : State) (n : Nat) (c : Nat) (r : LoadReq) (es : List Row) (ss : List Row), ((s.tile n).arr.load = .waiting r) ∧ (s.stopped n = false) ∧ ((s.tile n).grants = []) ∧ (r.cond = none) ∧ (r.fmt ≠ 2) ∧ (es.length = 192) ∧ (ss.length = scaleRows r.fmt) ∧ (s.holds' n r.eHandle r.eRow es) ∧ (s.holds' n r.sHandle r.sRow ss) ∧ (∀ x, x ∈ planeBytes ss (outputsOf r.fmt * bandsOf r.fmt) → fieldOf r.sentinel 0 8 ≤ x ∧ x ≤ fieldOf r.sentinel 8 8 ∧ x ≠ 0xFF)) ∧
    (∃ (s : State) (n : Nat) (c : Nat) (w : Nat), (s.headIs n 0 c w) ∧ (opcodeOf w = 0x11) ∧ ((s.tile n).arr.load = .done ∨ (∃ last, (s.tile n).arr.load = .crossing last none false ∧ last < c))) ∧
    (∃ (s : State) (n : Nat) (c : Nat) (w : Nat) (es : List Row) (ss : List Row), (s.headIs n 0 c w) ∧ (opcodeOf w = 0x12) ∧ ((s.tile n).arr.swapped = true) ∧ ((s.tile n).grants = []) ∧ (passOk (s.tile n).arr.live.fmt (fieldOf w 118 2) (fieldOf w 115 3) (fieldOf w 111 4) (bitOf w 110) (bitOf w 109) (bitOf w 108) (fieldOf w 94 14) (fieldOf w 84 10) = true) ∧ (es.length = streamRows (fieldOf w 111 4) (fieldOf w 94 14)) ∧ (ss.length = (fieldOf w 94 14 * streamScales (fieldOf w 111 4) + 31) / 32) ∧ (s.reads n (fieldOf w 78 6) hrStream (fieldOf w 64 14) es) ∧ (s.reads n (fieldOf w 58 6) hrStream (fieldOf w 44 14) ss) ∧ ((s.tile n).arr.ramp.up = true) ∧ ((s.tile n).arr.ramp.downAt = none) ∧ (0 < fieldOf w 94 14) ∧ (∀ x, x ∈ planeBytes ss (fieldOf w 94 14 * streamScales (fieldOf w 111 4)) → fieldOf (s.obj (tileIx n) 0x12 1) 0 8 ≤ x ∧ x ≤ fieldOf (s.obj (tileIx n) 0x12 1) 8 8 ∧ x ≠ 0xFF)) ∧
    (∃ (s : State) (n : Nat) (c : Nat) (f : Fold) (rest : List Fold), ((s.tile n).arr.folds = f :: rest) ∧ (f.lands ≤ c) ∧ (s.stopped n = false) ∧ (f.act = none) ∧ (f.collided = false) ∧ (f.fold < 2) ∧ (f.outs.length ≤ 128)) := by
  exact ⟨⟨(head 0 (0x10 * 2 ^ 120 + 2 ^ 54 + 2 ^ 34 + 192 * 2 ^ 20) (obs [(tileIx 0, 0x20, 1, entryAll)] svc)), 0, 1, (0x10 * 2 ^ 120 + 2 ^ 54 + 2 ^ 34 + 192 * 2 ^ 20), by simp only [State.headIs]; decide +kernel⟩,
    ⟨(svc.modArr 0 (fun a => { a with load := .waiting ⟨0, none, entryAll, 0, entryAll, 192, 0xFE00⟩ })), 0, 1, (⟨0, none, entryAll, 0, entryAll, 192, 0xFE00⟩), (List.replicate 192 0), (List.replicate (scaleRows 0) 0), by simp only [State.holds']; decide +kernel⟩,
    ⟨((head 0 (0x11 * 2 ^ 120) svc).modArr 0 (fun a => { a with load := .crossing 95 none false, shadow := { fmt := 3 } })), 0, 96, (0x11 * 2 ^ 120), ⟨by unfold State.headIs; decide +kernel, by decide +kernel, .inr ⟨95, by decide +kernel, by decide⟩⟩⟩,
    ⟨((head 0 passWord (obs [(tileIx 0, 0x20, 1, entryAll), (tileIx 0, 0x12, 1, 0xFE00)] svc)).modArr 0 (fun a => { a with swapped := true, ramp := { up := true, full := 5 } })), 0, 3, passWord, (List.replicate (streamRows 0 2) 0), [0], by simp only [State.reads, State.headIs, State.holds']; decide +kernel⟩,
    ⟨(svc.modArr 0 (fun a => { a with acc := [(4, [0x3F800000])], folds := [{ issued := 1, lands := 9, fold := 1, slot := 3, row := 1, index := 0, outs := [[⟨3, 0, false, false⟩], []] }] })), 0, 9, ({ issued := 1, lands := 9, fold := 1, slot := 3, row := 1, index := 0, outs := [[⟨3, 0, false, false⟩], []] }), [], by decide +kernel⟩⟩

/-- States that meet the hypotheses of QueueAndComputeCommandsComplete. -/
theorem witness_QueueAndComputeCommandsComplete_3 :
    (∃ (s : State) (n : Nat) (c : Nat) (w : Nat), (s.headIs n 3 c w) ∧ (opcodeOf w = 0x40) ∧ (bitOf (s.handle n (fieldOf w 64 6)) 56 = false) ∧ (bitOf (s.handle n (fieldOf w 64 6)) 55 = false) ∧ (fieldOf w 52 3 = 0) ∧ (fieldOf w 0 16 = 0) ∧ (bitOf (fieldOf w 0 64) 63 = true → 0 < popCount (fieldOf w 40 12) 12 ∧ 0 < fieldOf w 26 14 ∧ fieldOf w 26 14 ≤ 12288 ∧ fieldOf w 16 10 + (fieldOf w 26 14 + popCount (fieldOf w 40 12) 12 - 1) / popCount (fieldOf w 40 12) 12 ≤ 1024)) ∧
    (∃ (s : State) (n : Nat) (c : Nat) (w : Nat), (s.headIs n 3 c w) ∧ (opcodeOf w = 0x41) ∧ (fieldOf w 32 2 < 3) ∧ (fieldOf w 8 8 ≠ 0xFF) ∧ (fieldOf w 0 8 ≤ fieldOf w 8 8) ∧ (bitOf w 31 = false) ∧ (fieldOf w 16 6 = 0)) ∧
    (∃ (s : State) (n : Nat) (c : Nat) (v : VecWord) (xs : List F32) (ds : List Row), (s.vecSource n v 0 (64 * v.count) xs) ∧ (s.vecHead n c 0x01 v) ∧ (isWide v.fmtOut = true) ∧ (v.fmtIn ≠ v.fmtOut) ∧ (v.aux = 0) ∧ (ds = packWide v.fmtOut (xs.map (toFmt (v.fmtOut == fmtBF16)))) ∧ (handleCheck (s.handle n v.dHandle) hrVecWrite v.dRow ds.length = none)) ∧
    (∃ (s : State) (n : Nat) (c : Nat) (v : VecWord) (xs : List F32) (ps : List Row) (we : List Row) (wc : List Row) (ae : List Row) (ac : List Row) (ds : List Row) (p : SpillParam), (s.vecHead n c 0x02 v) ∧ (v.fmtIn = fmtFP32) ∧ (v.fmtOut = fmtFP32) ∧ (v.aux = 0) ∧ (ps.length = 1) ∧ (s.reads n v.bHandle hrVecRead v.bRow ps) ∧ (p = spillParam (ps.getD 0 0).toNat) ∧ (fieldOf (ps.getD 0 0).toNat 0 112 = 0) ∧ (p.wFmt = fmtM4) ∧ (p.aFmt = fmtM4) ∧ (p.wSp = false) ∧ (p.aSp = false) ∧ (p.m0 = 0) ∧ (s.vecSource n v 0 (128 * v.count) xs) ∧ (we.length = 192) ∧ (s.reads n p.weHandle hrVecRead p.weRow we) ∧ (wc.length = 24) ∧ (s.reads n p.wcHandle hrVecRead p.wcRow wc) ∧ (ae.length = (96 * v.count + 63) / 64) ∧ (s.reads n p.aeHandle hrVecRead p.aeRow ae) ∧ (ac.length = (6 * v.count + 31) / 32) ∧ (s.reads n p.acHandle hrVecRead p.acRow ac) ∧ (ds = packWide fmtFP32 (xs.map BitVec.toNat)) ∧ (handleCheck (s.handle n v.dHandle) hrVecWrite v.dRow ds.length = none)) ∧
    (∃ (s : State) (n : Nat) (c : Nat) (v : VecWord) (xs : List F32) (scales : List Nat) (ds : List Row) (bs : List Row), (s.vecSource n v 0 (64 * v.count) xs) ∧ (s.vecHead n c 0x03 v) ∧ (v.fmtOut < 6) ∧ (v.aux = 0) ∧ (scales = (List.range (64 * v.count / blockSize v.fmtOut)).map (fun b => scaleCode v.fmtOut ((xs.drop (b * blockSize v.fmtOut)).take (blockSize v.fmtOut)))) ∧ (ds = packRows (elemBits v.fmtOut) (perRow v.fmtOut) ((List.range (64 * v.count)).map (fun j => (requantElem v.fmtOut (scales.getD (j / blockSize v.fmtOut) 0) (xs.getD j 0) (if v.rnd = true then some (draw24 (s.drawAt n 0 v.site j)) else none)).1))) ∧ (bs = packRows 8 32 scales) ∧ (handleCheck (s.handle n v.dHandle) hrVecWrite v.dRow ds.length = none) ∧ (handleCheck (s.handle n v.bHandle) hrVecWrite v.bRow bs.length = none)) := by
  exact ⟨⟨(head 3 (0x40 * 2 ^ 120 + 7 * 2 ^ 64 + 2 ^ 63 + 2 ^ 60 + 0xFFF * 2 ^ 40 + 12288 * 2 ^ 26) svc), 0, 1, (0x40 * 2 ^ 120 + 7 * 2 ^ 64 + 2 ^ 63 + 2 ^ 60 + 0xFFF * 2 ^ 40 + 12288 * 2 ^ 26), by simp only [State.headIs]; decide +kernel⟩,
    ⟨(head 3 (0x41 * 2 ^ 120 + 2 * 2 ^ 32 + 0xFE00) svc), 0, 1, (0x41 * 2 ^ 120 + 2 * 2 ^ 32 + 0xFE00), by simp only [State.headIs]; decide +kernel⟩,
    ⟨(vst (vecW 1 7 6 1 0) 0), 0, 4, (vecWord (vecW 1 7 6 1 0)), (List.replicate 64 0), _, ⟨vecSource_zero (by decide +kernel), vecHead_of (by unfold State.headIs; decide +kernel) (by decide +kernel), by decide, by decide, by decide, rfl, by decide +kernel⟩⟩,
    ⟨(vst (vecW 2 7 7 1 0) (2 ^ 230 + 2 ^ 210 + 2 ^ 170 + 2 ^ 150)), 0, 4, (vecWord (vecW 2 7 7 1 0)), (List.replicate 128 0), ([BitVec.ofNat 256 (2 ^ 230 + 2 ^ 210 + 2 ^ 170 + 2 ^ 150)]), (List.replicate 192 0), (List.replicate 24 0), (List.replicate 2 0), [0], _, _, ⟨vecHead_of (by unfold State.headIs; decide +kernel) (by decide +kernel), by decide, by decide, by decide, rfl, by simp only [State.reads, State.holds']; decide +kernel, rfl, by decide +kernel, by decide +kernel, by decide +kernel, by decide +kernel, by decide +kernel, by decide +kernel, vecSource_zero (by decide +kernel), rfl, by simp only [State.reads, State.holds']; decide +kernel, rfl, by simp only [State.reads, State.holds']; decide +kernel, rfl, by simp only [State.reads, State.holds']; decide +kernel, rfl, by simp only [State.reads, State.holds']; decide +kernel, rfl, by decide +kernel⟩⟩,
    ⟨((vst (vecW 3 7 0 1 0) 0)), 0, 4, (vecWord (vecW 3 7 0 1 0)), (List.replicate 64 0), _, _, _, ⟨vecSource_zero (by decide +kernel), vecHead_of (by unfold State.headIs; decide +kernel) (by decide +kernel), by decide, by decide, rfl, rfl, rfl, by decide +kernel, by decide +kernel⟩⟩⟩

/-- States that meet the hypotheses of QueueAndComputeCommandsComplete. -/
theorem witness_QueueAndComputeCommandsComplete_4 :
    (∃ (s : State) (n : Nat) (c : Nat) (v : VecWord) (xs : List F32) (bs : List Row) (ds : List Row), (s.vecSource n v 0 (64 * v.count) xs) ∧ (isWide v.fmtOut = true) ∧ (v.aux < 2) ∧ (bs.length = rowsFor v.fmtIn (if bitOf v.aux 0 = true then 64 else 64 * v.count)) ∧ (s.reads n v.bHandle hrVecRead v.bRow bs) ∧ (s.vecHead n c 0x04 v) ∧ (ds = packWide v.fmtOut ((List.range (64 * v.count)).map (fun j => (fun x y => ((decodeF32 x).add (decodeF32 y)).round (v.fmtOut == fmtBF16)) (xs.getD j 0) ((wideElems v.fmtIn bs (if bitOf v.aux 0 = true then 64 else 64 * v.count)).getD (if bitOf v.aux 0 = true then j % 64 else j) 0)))) ∧ (handleCheck (s.handle n v.dHandle) hrVecWrite v.dRow ds.length = none)) ∧
    (∃ (s : State) (n : Nat) (c : Nat) (v : VecWord) (xs : List F32) (bs : List Row) (ds : List Row), (s.vecSource n v 0 (64 * v.count) xs) ∧ (isWide v.fmtOut = true) ∧ (v.aux < 2) ∧ (bs.length = rowsFor v.fmtIn (if bitOf v.aux 0 = true then 64 else 64 * v.count)) ∧ (s.reads n v.bHandle hrVecRead v.bRow bs) ∧ (s.vecHead n c 0x05 v) ∧ (ds = packWide v.fmtOut ((List.range (64 * v.count)).map (fun j => (fun x y => ((decodeF32 x).mul (decodeF32 y)).round (v.fmtOut == fmtBF16)) (xs.getD j 0) ((wideElems v.fmtIn bs (if bitOf v.aux 0 = true then 64 else 64 * v.count)).getD (if bitOf v.aux 0 = true then j % 64 else j) 0)))) ∧ (handleCheck (s.handle n v.dHandle) hrVecWrite v.dRow ds.length = none)) ∧
    (∃ (s : State) (n : Nat) (c : Nat) (v : VecWord) (xs : List F32) (bs : List Row) (ds : List Row), (s.vecSource n v 0 (64 * v.count) xs) ∧ (isWide v.fmtOut = true) ∧ (v.aux < 2) ∧ (bs.length = rowsFor v.fmtIn (if bitOf v.aux 0 = true then 64 else 64 * v.count)) ∧ (s.reads n v.bHandle hrVecRead v.bRow bs) ∧ (s.vecHead n c 0x06 v) ∧ (ds = packWide v.fmtOut ((List.range (64 * v.count)).map (fun j => (fun x y => toFmt (v.fmtOut == fmtBF16) (pickF32 true x y)) (xs.getD j 0) ((wideElems v.fmtIn bs (if bitOf v.aux 0 = true then 64 else 64 * v.count)).getD (if bitOf v.aux 0 = true then j % 64 else j) 0)))) ∧ (handleCheck (s.handle n v.dHandle) hrVecWrite v.dRow ds.length = none)) ∧
    (∃ (s : State) (n : Nat) (c : Nat) (v : VecWord) (xs : List F32) (bs : List Row) (ds : List Row), (s.vecSource n v 0 (64 * v.count) xs) ∧ (isWide v.fmtOut = true) ∧ (v.aux < 2) ∧ (bs.length = rowsFor v.fmtIn (if bitOf v.aux 0 = true then 64 else 64 * v.count)) ∧ (s.reads n v.bHandle hrVecRead v.bRow bs) ∧ (s.vecHead n c 0x07 v) ∧ (ds = packWide v.fmtOut ((List.range (64 * v.count)).map (fun j => (fun x y => toFmt (v.fmtOut == fmtBF16) (pickF32 false x y)) (xs.getD j 0) ((wideElems v.fmtIn bs (if bitOf v.aux 0 = true then 64 else 64 * v.count)).getD (if bitOf v.aux 0 = true then j % 64 else j) 0)))) ∧ (handleCheck (s.handle n v.dHandle) hrVecWrite v.dRow ds.length = none)) ∧
    (∃ (s : State) (n : Nat) (c : Nat) (v : VecWord) (xs : List F32) (ds : List Row), (s.vecSource n v 0 (64 * v.count) xs) ∧ (s.vecHead n c 0x08 v) ∧ (isWide v.fmtOut = true) ∧ (v.aux < 10) ∧ (ds = packWide v.fmtOut (xs.map (fun x => if v.aux = 9 then ((decodeF32 x).mul (decodeF32 x)).round (v.fmtOut == fmtBF16) else toFmt (v.fmtOut == fmtBF16) (actF32 v.aux x)))) ∧ (handleCheck (s.handle n v.dHandle) hrVecWrite v.dRow ds.length = none)) := by
  exact ⟨⟨(vst (vecW 4 7 7 1 1) 0x3F800000), 0, 4, (vecWord (vecW 4 7 7 1 1)), (List.replicate 64 0), (BitVec.ofNat 256 0x3F800000 :: List.replicate 7 0), _, ⟨vecSource_zero (by decide +kernel), by decide, by decide, by decide, by simp only [State.reads, State.holds']; decide +kernel, vecHead_of (by unfold State.headIs; decide +kernel) (by decide +kernel), rfl, by decide +kernel⟩⟩,
    ⟨(vst (vecW 5 7 7 1 1) 0x3F800000), 0, 4, (vecWord (vecW 5 7 7 1 1)), (List.replicate 64 0), (BitVec.ofNat 256 0x3F800000 :: List.replicate 7 0), _, ⟨vecSource_zero (by decide +kernel), by decide, by decide, by decide, by simp only [State.reads, State.holds']; decide +kernel, vecHead_of (by unfold State.headIs; decide +kernel) (by decide +kernel), rfl, by decide +kernel⟩⟩,
    ⟨(vst (vecW 6 7 7 1 1) 0x3F800000), 0, 4, (vecWord (vecW 6 7 7 1 1)), (List.replicate 64 0), (BitVec.ofNat 256 0x3F800000 :: List.replicate 7 0), _, ⟨vecSource_zero (by decide +kernel), by decide, by decide, by decide, by simp only [State.reads, State.holds']; decide +kernel, vecHead_of (by unfold State.headIs; decide +kernel) (by decide +kernel), rfl, by decide +kernel⟩⟩,
    ⟨(vst (vecW 7 7 7 1 1) 0x3F800000), 0, 4, (vecWord (vecW 7 7 7 1 1)), (List.replicate 64 0), (BitVec.ofNat 256 0x3F800000 :: List.replicate 7 0), _, ⟨vecSource_zero (by decide +kernel), by decide, by decide, by decide, by simp only [State.reads, State.holds']; decide +kernel, vecHead_of (by unfold State.headIs; decide +kernel) (by decide +kernel), rfl, by decide +kernel⟩⟩,
    ⟨(vst (vecW 8 7 7 1 9) 0), 0, 4, (vecWord (vecW 8 7 7 1 9)), (List.replicate 64 0), _, ⟨vecSource_zero (by decide +kernel), vecHead_of (by unfold State.headIs; decide +kernel) (by decide +kernel), by decide, by decide, rfl, by decide +kernel⟩⟩⟩

/-- States that meet the hypotheses of QueueAndComputeCommandsComplete. -/
theorem witness_QueueAndComputeCommandsComplete_5 :
    (∃ (s : State) (n : Nat) (c : Nat) (v : VecWord) (ps : List Row) (w : Nat) (len : Nat) (stride : Nat) (vs : List (List F32)) (ds : List Row), (ps.length = 1) ∧ (s.reads n v.bHandle hrVecRead v.bRow ps) ∧ (w = (ps.getD 0 0).toNat) ∧ (len = fieldOf w 0 16) ∧ (stride = fieldOf w 16 16) ∧ (fieldOf w 67 149 = 0) ∧ (0 < len) ∧ (64 ≤ stride) ∧ (stride % 64 = 0) ∧ (len ≤ stride) ∧ (vs.length = v.count) ∧ (∀ i, i < v.count → s.vecSource n v (i * stride) len (vs.getD i [])) ∧ (s.vecHead n c 0x09 v) ∧ (v.fmtOut = fmtFP32) ∧ (v.aux < 6) ∧ (fieldOf w 32 32 = 0) ∧ (ds = packWide fmtFP32 (vs.map (fun xs => (reduceF32 v.aux xs).1))) ∧ (handleCheck (s.handle n v.dHandle) hrVecWrite v.dRow ds.length = none)) ∧
    (∃ (s : State) (n : Nat) (c : Nat) (v : VecWord) (ps : List Row) (w : Nat) (len : Nat) (stride : Nat) (vs : List (List F32)), (ps.length = 1) ∧ (s.reads n v.bHandle hrVecRead v.bRow ps) ∧ (w = (ps.getD 0 0).toNat) ∧ (len = fieldOf w 0 16) ∧ (stride = fieldOf w 16 16) ∧ (fieldOf w 67 149 = 0) ∧ (0 < len) ∧ (64 ≤ stride) ∧ (stride % 64 = 0) ∧ (len ≤ stride) ∧ (vs.length = v.count) ∧ (∀ i, i < v.count → s.vecSource n v (i * stride) len (vs.getD i [])) ∧ (s.vecHead n c 0x0A v) ∧ (isWide v.fmtOut = true) ∧ (v.aux = 0) ∧ (∀ i, i < v.count → handleCheck (s.handle n v.dHandle) hrVecWrite (v.dRow + i * stride / perRow v.fmtOut) (rowsFor v.fmtOut len) = none)) ∧
    (∃ (s : State) (n : Nat) (c : Nat) (v : VecWord) (ps : List Row) (w : Nat) (len : Nat) (stride : Nat) (vs : List (List F32)), (ps.length = 1) ∧ (s.reads n v.bHandle hrVecRead v.bRow ps) ∧ (w = (ps.getD 0 0).toNat) ∧ (len = fieldOf w 0 16) ∧ (stride = fieldOf w 16 16) ∧ (fieldOf w 67 149 = 0) ∧ (0 < len) ∧ (64 ≤ stride) ∧ (stride % 64 = 0) ∧ (len ≤ stride) ∧ (vs.length = v.count) ∧ (∀ i, i < v.count → s.vecSource n v (i * stride) len (vs.getD i [])) ∧ (s.vecHead n c 0x0B v) ∧ (isWide v.fmtOut = true) ∧ (v.aux < 2) ∧ (bitOf w 65 = false) ∧ (bitOf w 66 = false) ∧ (∀ i, i < v.count → handleCheck (s.handle n v.dHandle) hrVecWrite (v.dRow + i * stride / perRow v.fmtOut) (rowsFor v.fmtOut len) = none)) ∧
    (∃ (s : State) (n : Nat) (c : Nat) (v : VecWord) (es : List Row) (ss : List Row) (ds : List Row), (s.vecHead n c 0x0C v) ∧ (v.fmtIn < 6) ∧ (isWide v.fmtOut = true) ∧ (v.aux = 0) ∧ (v.aAcc = false) ∧ (es.length = rowsFor v.fmtIn (64 * v.count)) ∧ (ss.length = (64 * v.count / blockSize v.fmtIn + 31) / 32) ∧ (s.reads n v.aHandle hrVecRead v.aRow es) ∧ (s.reads n v.bHandle hrVecRead v.bRow ss) ∧ (ds = packWide v.fmtOut ((List.range (64 * v.count)).map (fun j => toFmt (v.fmtOut == fmtBF16) (dequantElem v.fmtIn (planeByte ss (j / blockSize v.fmtIn)) (elemCode v.fmtIn es j))))) ∧ (handleCheck (s.handle n v.dHandle) hrVecWrite v.dRow ds.length = none)) ∧
    (∃ (s : State) (n : Nat) (c : Nat) (v : VecWord) (ps : List Row) (w : Nat) (len : Nat) (stride : Nat) (vs : List (List F32)), (ps.length = 1) ∧ (s.reads n v.bHandle hrVecRead v.bRow ps) ∧ (w = (ps.getD 0 0).toNat) ∧ (len = fieldOf w 0 16) ∧ (stride = fieldOf w 16 16) ∧ (fieldOf w 67 149 = 0) ∧ (0 < len) ∧ (64 ≤ stride) ∧ (stride % 64 = 0) ∧ (len ≤ stride) ∧ (vs.length = v.count) ∧ (∀ i, i < v.count → s.vecSource n v (i * stride) len (vs.getD i [])) ∧ (s.vecHead n c 0x0D v) ∧ (v.fmtOut = fmtFP32) ∧ (1 ≤ v.aux) ∧ (v.aux ≤ 8) ∧ (bitOf w 64 = true) ∧ (∀ i, i < v.count → handleCheck (s.handle n v.dHandle) hrVecWrite (v.dRow + 2 * i) 2 = none)) := by
  exact ⟨⟨(vst (vecW 9 7 7 1 4) (5 + 64 * 2 ^ 16)), 0, 4, (vecWord (vecW 9 7 7 1 4)), ([BitVec.ofNat 256 (5 + 64 * 2 ^ 16)]), (5 + 64 * 2 ^ 16), 5, 64, ([List.replicate 5 0]), _, ⟨rfl, by simp only [State.reads, State.holds']; decide +kernel, rfl, rfl, rfl, by decide +kernel, by decide +kernel, by decide +kernel, by decide +kernel, by decide +kernel, by decide +kernel, by intro i hi; obtain rfl : i = 0 := (by have h1 : i < 1 := hi; omega); exact vecSource_zero (by decide +kernel), vecHead_of (by unfold State.headIs; decide +kernel) (by decide +kernel), rfl, by decide, by decide +kernel, rfl, by decide +kernel⟩⟩,
    ⟨(vst (vecW 0xA 7 6 1 0) (5 + 64 * 2 ^ 16)), 0, 4, (vecWord (vecW 0xA 7 6 1 0)), ([BitVec.ofNat 256 (5 + 64 * 2 ^ 16)]), (5 + 64 * 2 ^ 16), 5, 64, ([List.replicate 5 0]), ⟨rfl, by simp only [State.reads, State.holds']; decide +kernel, rfl, rfl, rfl, by decide +kernel, by decide +kernel, by decide +kernel, by decide +kernel, by decide +kernel, by decide +kernel, by intro i hi; obtain rfl : i = 0 := (by have h1 : i < 1 := hi; omega); exact vecSource_zero (by decide +kernel), vecHead_of (by unfold State.headIs; decide +kernel) (by decide +kernel), rfl, rfl, by decide +kernel⟩⟩,
    ⟨(vst (vecW 0xB 7 7 1 1) (5 + 64 * 2 ^ 16)), 0, 4, (vecWord (vecW 0xB 7 7 1 1)), ([BitVec.ofNat 256 (5 + 64 * 2 ^ 16)]), (5 + 64 * 2 ^ 16), 5, 64, ([List.replicate 5 0]), ⟨rfl, by simp only [State.reads, State.holds']; decide +kernel, rfl, rfl, rfl, by decide +kernel, by decide +kernel, by decide +kernel, by decide +kernel, by decide +kernel, by decide +kernel, by intro i hi; obtain rfl : i = 0 := (by have h1 : i < 1 := hi; omega); exact vecSource_zero (by decide +kernel), vecHead_of (by unfold State.headIs; decide +kernel) (by decide +kernel), by decide +kernel, by decide +kernel, by decide +kernel, by decide +kernel, by decide +kernel⟩⟩,
    ⟨(vst (vecW 0xC 0 7 1 0 - 8 + 2 ^ 106) 0), 0, 4, (vecWord (vecW 0xC 0 7 1 0 - 8 + 2 ^ 106)), [0], [0], _, ⟨vecHead_of (by unfold State.headIs; decide +kernel) (by decide +kernel), by decide, by decide, by decide, by decide, by decide, by decide, by simp only [State.reads, State.holds']; decide +kernel, by simp only [State.reads, State.holds']; decide +kernel, rfl, by decide +kernel⟩⟩,
    ⟨(vst (vecW 0xD 7 7 1 8) (5 + 64 * 2 ^ 16 + 2 ^ 64)), 0, 4, (vecWord (vecW 0xD 7 7 1 8)), ([BitVec.ofNat 256 (5 + 64 * 2 ^ 16 + 2 ^ 64)]), (5 + 64 * 2 ^ 16 + 2 ^ 64), 5, 64, ([List.replicate 5 0]), ⟨rfl, by simp only [State.reads, State.holds']; decide +kernel, rfl, rfl, rfl, by decide +kernel, by decide +kernel, by decide +kernel, by decide +kernel, by decide +kernel, by decide +kernel, by intro i hi; obtain rfl : i = 0 := (by have h1 : i < 1 := hi; omega); exact vecSource_zero (by decide +kernel), vecHead_of (by unfold State.headIs; decide +kernel) (by decide +kernel), by decide +kernel, by decide +kernel, by decide +kernel, by decide +kernel, by decide +kernel⟩⟩⟩

/-- States that meet the hypotheses of QueueAndComputeCommandsComplete. -/
theorem witness_QueueAndComputeCommandsComplete_6 :
    (∃ (s : State) (n : Nat) (c : Nat) (v : VecWord) (ds : List Row), (s.vecHead n c 0x0E v) ∧ (isWide v.fmtOut = true) ∧ (v.aux < 2) ∧ (v.aux = 0 → v.fmtOut = fmtFP32) ∧ (ds = packWide v.fmtOut ((List.range (64 * v.count)).map (fun j => if v.aux = 0 then (s.drawAt n 1 v.site j).toNat / 2 ^ 32 else (FVal.fin false ((s.drawAt n 1 v.site j).toNat / 2 ^ 40) (-24)).round (v.fmtOut == fmtBF16)))) ∧ (handleCheck (s.handle n v.dHandle) hrVecWrite v.dRow ds.length = none)) ∧
    (∃ (s : State) (n : Nat) (c : Nat) (r : VecRun) (rest : List VecRun), ((s.tile n).vec = r :: rest) ∧ (r.lastWrite ≤ c) ∧ (s.stopped n = false) ∧ (r.act = none) ∧ (r.collided = false)) := by
  exact ⟨⟨((vst (vecW 0xE 7 7 1 0) 0)), 0, 4, (vecWord (vecW 0xE 7 7 1 0)), _, ⟨vecHead_of (by unfold State.headIs; decide +kernel) (by decide +kernel), by decide, by decide, by decide, rfl, by decide +kernel⟩⟩,
    ⟨(svc.modTile 0 (fun t => { t with vec := [{ start := 0, lastRead := 1, lastWrite := 6, writes := [(1, 4, 7), (1, 4, 8), (0, 3, 9)] }], spad := [(3, 5), (9, 6)] })), 0, 6, ({ start := 0, lastRead := 1, lastWrite := 6, writes := [(1, 4, 7), (1, 4, 8), (0, 3, 9)] }), [], by decide +kernel⟩⟩

/-- States that meet the hypotheses of MoverFabricAndMemoryCommandsComplete. -/
theorem witness_MoverFabricAndMemoryCommandsComplete :
    (∃ (s : State) (n : Nat) (c : Nat) (d : Row) (src : List Row), (s.moveHead n c d) ∧ (s.descCheck n d = none) ∧ (dOp d = 1) ∧ (∃ pat, s.holds' n (s.handle n (farHandle (dFar d))) (farRow (dFar d)) [pat] ∧ src = List.replicate (dRows d) pat)) ∧
    (∃ (s : State) (n : Nat) (c : Nat) (d : Row) (src : List Row), (s.moveHead n c d) ∧ (s.descCheck n d = none) ∧ (dOp d = 2) ∧ (src.length = dRows d) ∧ (s.holds' n (s.handle n (farHandle (dFar d))) (farRow (dFar d)) src)) ∧
    (∃ (s : State) (n : Nat) (c : Nat) (pos : Nat) (d : Row) (src : List Row), (s.moveHead n c d) ∧ (s.descCheck n d = none) ∧ ((s.tile n).mov.descs = []) ∧ ((s.tile n).mov.tracks = []) ∧ ((s.tile n).mov.waits = none) ∧ (dRows d ≤ 8) ∧ (requestRows d 0 = dRows d) ∧ (s.requestDest n d 0 0 = .ok pos) ∧ (s.isTwin n = false) ∧ (s.inTwin n = false) ∧ (dOp d = 3) ∧ (if dOp d = 3 ∨ dOp d = 6 then src.length = dRows d ∧ s.holds' n (s.handle n (dHandle d)) (dRow d) src else src = [])) ∧
    (∃ (s : State) (n : Nat) (c : Nat) (pos : Nat) (d : Row) (src : List Row), (s.moveHead n c d) ∧ (s.descCheck n d = none) ∧ ((s.tile n).mov.descs = []) ∧ ((s.tile n).mov.tracks = []) ∧ ((s.tile n).mov.waits = none) ∧ (dRows d ≤ 8) ∧ (requestRows d 0 = dRows d) ∧ (s.requestDest n d 0 0 = .ok pos) ∧ (s.isTwin n = false) ∧ (s.inTwin n = false) ∧ (dOp d = 4) ∧ (if dOp d = 3 ∨ dOp d = 6 then src.length = dRows d ∧ s.holds' n (s.handle n (dHandle d)) (dRow d) src else src = [])) ∧
    (∃ (s : State) (n : Nat) (c : Nat) (pos : Nat) (d : Row) (src : List Row), (s.moveHead n c d) ∧ (s.descCheck n d = none) ∧ ((s.tile n).mov.descs = []) ∧ ((s.tile n).mov.tracks = []) ∧ ((s.tile n).mov.waits = none) ∧ (dRows d ≤ 8) ∧ (requestRows d 0 = dRows d) ∧ (s.requestDest n d 0 0 = .ok pos) ∧ (s.isTwin n = false) ∧ (s.inTwin n = false) ∧ (dOp d = 5) ∧ (if dOp d = 3 ∨ dOp d = 6 then src.length = dRows d ∧ s.holds' n (s.handle n (dHandle d)) (dRow d) src else src = [])) := by
  exact ⟨⟨(mst (desc 1 20 3 (2 ^ 32 + 7))), 0, 1, (BitVec.ofNat 256 (desc 1 20 3 (2 ^ 32 + 7))), ([0, 0, 0]), ⟨moveHead_of (0x30 * 2 ^ 120 + 2 * 2 ^ 114) (by unfold State.headIs; decide +kernel) (by simp only [State.reads, State.holds']; decide +kernel), by decide +kernel, rfl, 0, by simp only [State.holds']; decide +kernel, rfl⟩⟩,
    ⟨(mst (desc 2 20 2 (2 ^ 32 + 7))), 0, 1, (BitVec.ofNat 256 (desc 2 20 2 (2 ^ 32 + 7))), ([0, 0]), ⟨moveHead_of (0x30 * 2 ^ 120 + 2 * 2 ^ 114) (by unfold State.headIs; decide +kernel) (by simp only [State.reads, State.holds']; decide +kernel), by decide +kernel, rfl, rfl, by simp only [State.holds']; decide +kernel⟩⟩,
    ⟨(mst (desc 3 20 3 (2 ^ 38))), 0, 1, 1, (BitVec.ofNat 256 (desc 3 20 3 (2 ^ 38))), ([0, 0, 0]), ⟨moveHead_of (0x30 * 2 ^ 120 + 2 * 2 ^ 114) (by unfold State.headIs; decide +kernel) (by simp only [State.reads, State.holds']; decide +kernel), by decide +kernel, rfl, rfl, rfl, by decide +kernel, by decide +kernel, rfl, by decide +kernel, by decide +kernel, rfl, by rw [if_pos (by decide +kernel)]; exact ⟨rfl, by simp only [State.holds']; decide +kernel⟩⟩⟩,
    ⟨(mst (desc 4 20 3 (2 ^ 38))), 0, 1, 1, (BitVec.ofNat 256 (desc 4 20 3 (2 ^ 38))), [], ⟨moveHead_of (0x30 * 2 ^ 120 + 2 * 2 ^ 114) (by unfold State.headIs; decide +kernel) (by simp only [State.reads, State.holds']; decide +kernel), by decide +kernel, rfl, rfl, rfl, by decide +kernel, by decide +kernel, rfl, by decide +kernel, by decide +kernel, rfl, by rw [if_neg (by decide +kernel)]⟩⟩,
    ⟨(mst (desc 5 20 3 (2 ^ 62 + 64))), 0, 1, 0, (BitVec.ofNat 256 (desc 5 20 3 (2 ^ 62 + 64))), [], ⟨moveHead_of (0x30 * 2 ^ 120 + 2 * 2 ^ 114) (by unfold State.headIs; decide +kernel) (by simp only [State.reads, State.holds']; decide +kernel), by decide +kernel, rfl, rfl, rfl, by decide +kernel, by decide +kernel, rfl, by decide +kernel, by decide +kernel, rfl, by rw [if_neg (by decide +kernel)]⟩⟩⟩

/-- States that meet the hypotheses of MoverFabricAndMemoryCommandsComplete. -/
theorem witness_MoverFabricAndMemoryCommandsComplete_2 :
    (∃ (s : State) (n : Nat) (c : Nat) (pos : Nat) (d : Row) (src : List Row), (s.moveHead n c d) ∧ (s.descCheck n d = none) ∧ ((s.tile n).mov.descs = []) ∧ ((s.tile n).mov.tracks = []) ∧ ((s.tile n).mov.waits = none) ∧ (dRows d ≤ 8) ∧ (requestRows d 0 = dRows d) ∧ (s.requestDest n d 0 0 = .ok pos) ∧ (s.isTwin n = false) ∧ (s.inTwin n = false) ∧ (dOp d = 6) ∧ (if dOp d = 3 ∨ dOp d = 6 then src.length = dRows d ∧ s.holds' n (s.handle n (dHandle d)) (dRow d) src else src = [])) ∧
    (∃ (s : State) (n : Nat) (c : Nat) (d : MoveDesc), ((s.tile n).mov.descs = [d]) ∧ ((s.tile n).mov.tracks = []) ∧ (dRows d.word ≤ d.asked) ∧ (d.discard = false) ∧ (d.told = false) ∧ (d.collided = false) ∧ (d.status = 0) ∧ (s.stopped n = false) ∧ ((s.tile n).gau.st = .live)) ∧
    (∃ (s : State) (n : Nat) (q : Nat) (c : Nat) (w : Nat), (s.qState n q = 3) ∧ (s.cmdWord n (s.qPc n q) = some w) ∧ (opcodeOf w ≠ 1) ∧ (s.waitedOut n q = true) ∧ (s.waitMet n q c = false) ∧ (s.isTwin n = false)) ∧
    (∃ (s : State) (pos : Nat) (leg : Leg) (p : Packet), (p.ptype ≠ .fork) ∧ (s.carries pos = true) ∧ (s.hop pos leg.vc leg.legX leg.legY p.dstX p.dstY = .eject)) ∧
    (∃ (s : State) (pos : Nat) (input : Nat), (input ∉ (s.tile pos).parity)) := by
  exact ⟨⟨(mst (desc 6 20 3 (2 ^ 63 + 64))), 0, 1, 408, (BitVec.ofNat 256 (desc 6 20 3 (2 ^ 63 + 64))), ([0, 0, 0]), ⟨moveHead_of (0x30 * 2 ^ 120 + 2 * 2 ^ 114) (by unfold State.headIs; decide +kernel) (by simp only [State.reads, State.holds']; decide +kernel), by decide +kernel, rfl, rfl, rfl, by decide +kernel, by decide +kernel, rfl, by decide +kernel, by decide +kernel, rfl, by rw [if_pos (by decide +kernel)]; exact ⟨rfl, by simp only [State.holds']; decide +kernel⟩⟩⟩,
    ⟨((jst job9).modMov 0 (fun m => { m with descs := [{ id := 3, word := BitVec.ofNat 256 (desc 4 20 3 (2 ^ 38) + 2 ^ 199 + 5 * 2 ^ 191 + 9 * 2 ^ 175), handle := entryAll, asked := 3, reqs := 1 }] })), 0, 1, ({ id := 3, word := BitVec.ofNat 256 (desc 4 20 3 (2 ^ 38) + 2 ^ 199 + 5 * 2 ^ 191 + 9 * 2 ^ 175), handle := entryAll, asked := 3, reqs := 1 }), by decide +kernel⟩,
    ⟨({ ((head 1 (2 * 2 ^ 120) svc).setQState 0 1 3).modTile 0 (fun t => { t with qs := [(1, { deferred := List.replicate 8 ⟨false, 0, 1, 0, 0, 0⟩ })] }) with elapsed := 2000000000 }), 0, 1, 0, (2 * 2 ^ 120), by decide +kernel⟩,
    ⟨svc, 60, ({ legX := 9, legY := 1 }), ({ dstX := 9, dstY := 1 }), by decide +kernel⟩,
    ⟨svc, 60, 3, by decide +kernel⟩⟩

/-- States that meet the hypotheses of MoverFabricAndMemoryCommandsComplete. -/
theorem witness_MoverFabricAndMemoryCommandsComplete_3 :
    (∃ (s : State) (pos : Nat) (waits : Nat) (p : Packet), (s.carries pos = true) ∧ (p.head = []) ∧ (p.list ≠ []) ∧ (∀ e, e ∈ p.list → nextDir pos e.1 e.2 = none)) ∧
    (∃ (s : State) (n : Nat), (s.usable n = false) ∧ (s.jobs = [])) ∧
    (∃ (s : State) (n : Nat), (s.forwards n = false) ∧ ((s.tile n).gau.held = []) ∧ ((s.tile n).merges = []) ∧ ((s.tile n).inputs = [])) ∧
    (∃ (s : State) (n : Nat) (p : Packet), (s.enters n p) ∧ (s.remoteCheck n p (some hrRemoteRead) = stOk) ∧ ((s.tile n).merges = [])) ∧
    (∃ (s : State) (n : Nat) (p : Packet) (ds : List Row), (s.enters n p) ∧ (s.remoteCheck n p (some hrRemoteWrite) = stOk) ∧ (p.xferId = 0) ∧ (p.sigEn = false) ∧ (p.data.map decodeWord = ds.map Decoded.clean) ∧ (s.twinOf n = none)) := by
  exact ⟨⟨(obs [(tileIx 60, 0, 0, 4)] svc), 60, 4, ({ ptype := .fork, list := [(9, 1)] }), by decide +kernel⟩,
    ⟨(obs [(tileIx 61, 0, 0, 6)] svc), 61, by decide +kernel⟩,
    ⟨(obs [(tileIx 61, 0, 0, 6)] svc), 61, by decide +kernel⟩,
    ⟨(jst job9), 0, ({ ptype := .read, rows := 3, tag := 4, job := 9, partition := 0, srcX := 2, srcY := 3, farAddr := BitVec.ofNat 64 (2 ^ 32 + 30) }), by simp only [State.enters]; decide +kernel⟩,
    ⟨(jst job9), 0, ({ ptype := .write, rows := 3, tag := 4, job := 9, partition := 0, srcX := 2, srcY := 3, farAddr := BitVec.ofNat 64 (2 ^ 32 + 30), data := [encodeRow 7, encodeRow 8, encodeRow 7] }), ([7, 8, 7]), by simp only [State.enters]; decide +kernel⟩⟩

/-- States that meet the hypotheses of MoverFabricAndMemoryCommandsComplete. -/
theorem witness_MoverFabricAndMemoryCommandsComplete_4 :
    (∃ (s : State) (n : Nat) (q : Nat) (p : Packet), (s.enters n p) ∧ (s.remoteCheck n p none = stOk) ∧ (s.ownerOf n = some q) ∧ (p.job = s.jobId q) ∧ ((s.tile n).gau.st = .live) ∧ (s.twinOf n = none)) ∧
    (∃ (s : State) (n : Nat) (k : Nat) (p : Packet) (ds : List Row), ((s.tile n).gau.held = [p]) ∧ (p.ptype = .write) ∧ (s.remoteCheck n p (some hrRemoteWrite) = stOk) ∧ (p.xferId ≠ 0) ∧ (fromBlock p = false) ∧ (p.sigEn = false) ∧ (pendOf (s.tile n).gau.pend p = none) ∧ (pendFree (s.tile n).gau.pend = some k) ∧ (Tbl.get (s.tile n).gau.pend {} k = {}) ∧ (p.data.map decodeWord = ds.map Decoded.clean) ∧ (s.twinOf n = none)) ∧
    (∃ (s : State) (h : Nat) (a : Nat) (pos : Nat) (p : Packet), (s.memPlace p.partition (farForm p.farAddr.toNat) (farOffset p.farAddr.toNat) = (.stack h, a)) ∧ (soundPacket p) ∧ (pos = s.serverPos p) ∧ ((s.server (.stack h)).dead = false) ∧ ((s.server (.stack h)).merges = []) ∧ ((s.server (.stack h)).hold = [])) ∧
    (∃ (s : State) (h : Nat) (a : Nat) (pos : Nat) (p : Packet) (ds : List Row), (s.memPlace p.partition (farForm p.farAddr.toNat) (farOffset p.farAddr.toNat) = (.stack h, a)) ∧ (soundPacket p) ∧ (pos = s.serverPos p) ∧ ((s.server (.stack h)).dead = false) ∧ ((s.server (.stack h)).wbuf.length + p.rows ≤ 8192) ∧ ((s.server (.stack h)).waiting = []) ∧ ((s.server (.stack h)).merges = []) ∧ ((s.server (.stack h)).hold = []) ∧ (p.data.map decodeWord = ds.map Decoded.clean)) ∧
    (∃ (s : State) (h : Nat) (g : MemMerge) (p : Packet) (ds : List Row), ((s.server (.stack h)).merges = [g]) ∧ (g.reqs = [p]) ∧ (g.data = none) ∧ (g.hint = false) ∧ ((s.server (.stack h)).wbuf = []) ∧ (ds.length = g.rows) ∧ (∀ i, i < g.rows → decodeWord (Tbl.get s.hbm 0 ((s.requestRowsAt g.partition g.addr g.rows g.stride).getD i 0)) = .clean (ds.getD i 0)) ∧ (∀ i, i < g.rows → isTableRow ((s.requestRowsAt g.partition g.addr g.rows g.stride).getD i 0) = false)) := by
  exact ⟨⟨(jst job9), 1, 0, ({ ptype := .signal, job := 9, srcX := 2, srcY := 3, srcDevice := 4, srcLogical := 5, sigGauge := 6, sigAdd := 7 }), by simp only [State.enters]; decide +kernel⟩,
    ⟨((jst job9).modGau 0 (fun u => { u with held := [{ ptype := .write, rows := 3, tag := 4, job := 9, partition := 0, srcX := 2, srcY := 3, srcLogical := 1, xferId := 6, farAddr := BitVec.ofNat 64 (2 ^ 32 + 30), data := [encodeRow 7, encodeRow 8, encodeRow 7] }] })), 0, 0, ({ ptype := .write, rows := 3, tag := 4, job := 9, partition := 0, srcX := 2, srcY := 3, srcLogical := 1, xferId := 6, farAddr := BitVec.ofNat 64 (2 ^ 32 + 30), data := [encodeRow 7, encodeRow 8, encodeRow 7] }), ([7, 8, 7]), by decide +kernel⟩,
    ⟨(jst job9), 0, (2 ^ 31 + 64), ((jst job9).serverPos ({ ptype := .memRead, rows := 2, tag := 4, job := 9, partition := 0, srcX := 2, srcY := 3, farAddr := BitVec.ofNat 64 (2 ^ 62 + 64) })), ({ ptype := .memRead, rows := 2, tag := 4, job := 9, partition := 0, srcX := 2, srcY := 3, farAddr := BitVec.ofNat 64 (2 ^ 62 + 64) }), by simp only [soundPacket]; decide +kernel⟩,
    ⟨(jst job9), 0, (2 ^ 31 + 64), ((jst job9).serverPos ({ ptype := .memWrite, rows := 2, tag := 4, job := 9, partition := 0, srcX := 2, srcY := 3, farAddr := BitVec.ofNat 64 (2 ^ 62 + 64), data := [encodeRow 7, encodeRow 8] })), ({ ptype := .memWrite, rows := 2, tag := 4, job := 9, partition := 0, srcX := 2, srcY := 3, farAddr := BitVec.ofNat 64 (2 ^ 62 + 64), data := [encodeRow 7, encodeRow 8] }), ([7, 8]), by simp only [soundPacket]; decide +kernel⟩,
    ⟨({ jst job9 with hbms := [(0, { merges := [{ id := 4, partition := 0, job := 9, addr := 2 ^ 62 + 64, rows := 2, stride := 0, reqs := [{ ptype := .memRead, rows := 2, tag := 4, job := 9, partition := 0, srcX := 2, srcY := 3, farAddr := BitVec.ofNat 64 (2 ^ 62 + 64) }] }] })], hbm := [(2 ^ 26 + 2, encodeRow 5)] }), 0, ({ id := 4, partition := 0, job := 9, addr := 2 ^ 62 + 64, rows := 2, stride := 0, reqs := [{ ptype := .memRead, rows := 2, tag := 4, job := 9, partition := 0, srcX := 2, srcY := 3, farAddr := BitVec.ofNat 64 (2 ^ 62 + 64) }] }), ({ ptype := .memRead, rows := 2, tag := 4, job := 9, partition := 0, srcX := 2, srcY := 3, farAddr := BitVec.ofNat 64 (2 ^ 62 + 64) }), ([5, 0]), by decide +kernel⟩⟩

/-- States that meet the hypotheses of MoverFabricAndMemoryCommandsComplete. -/
theorem witness_MoverFabricAndMemoryCommandsComplete_5 :
    (∃ (s : State) (h : Nat), ((s.server (.stack h)).waiting = []) ∧ ((s.server (.stack h)).dtl = [])) ∧
    (∃ (s : State) (h : Nat) (t0 : Nat) (d : Row), ((s.server (.stack h)).passFrom = some t0) ∧ (s.patrolDue (.stack h) = true) ∧ (hbmStack (32 * (h / 2 * (regionBytes / 32) + (s.server (.stack h)).patrol)) = h) ∧ ((s.server (.stack h)).dead = false) ∧ ((s.server (.stack h)).wbuf = []) ∧ (decodeWord (Tbl.get s.hbm 0 (h / 2 * (regionBytes / 32) + (s.server (.stack h)).patrol)) = .clean d)) ∧
    (∃ (s : State) (n : Nat) (p : Packet) (x : MoveDesc) (k : Track) (ds : List Row), ((s.tile n).mov.descs = [x]) ∧ ((s.tile n).mov.tracks = [k]) ∧ (k.desc = x.id) ∧ (x.discard = false) ∧ (p.head = []) ∧ (p.reserved = 0) ∧ ((s.tile n).mov.waits = none) ∧ (dRows x.word ≤ x.asked) ∧ (k.ptype = .read ∨ k.ptype = .memRead) ∧ (p.data.map decodeWord = ds.map Decoded.clean) ∧ (p.tag = k.tag)) ∧
    (∃ (s : State) (n : Nat) (p : Packet) (x : MoveDesc) (k : Track) (ds : List Row), ((s.tile n).mov.descs = [x]) ∧ ((s.tile n).mov.tracks = [k]) ∧ (k.desc = x.id) ∧ (x.discard = false) ∧ (p.head = []) ∧ (p.reserved = 0) ∧ ((s.tile n).mov.waits = none) ∧ (dRows x.word ≤ x.asked) ∧ (k.ptype = .read ∨ k.ptype = .memRead) ∧ (p.data.map decodeWord = ds.map Decoded.clean) ∧ (p.farAddr.toNat = k.addr) ∧ (p.rows = k.rows) ∧ (p.stride = k.stride)) ∧
    (∃ (s : State) (n : Nat) (p : Packet) (x : MoveDesc) (k : Track), ((s.tile n).mov.descs = [x]) ∧ ((s.tile n).mov.tracks = [k]) ∧ (k.desc = x.id) ∧ (dRows x.word ≤ x.asked) ∧ (p.tag = k.tag) ∧ (p.farAddr.toNat = k.addr) ∧ (p.srcLogical ≠ 0xFFFF) ∧ (p.head = []) ∧ (p.reserved = 0) ∧ ((s.tile n).mov.waits = none) ∧ (k.ptype = .write ∨ k.ptype = .memWrite)) := by
  exact ⟨⟨({ svc with hbms := [(3, { wbuf := [(5, 7), (5, 8), (9, 1)] })] }), 3, by decide +kernel⟩,
    ⟨({ svc with hbms := [(0, { passFrom := some 0 })] }), 0, 0, 0, by decide +kernel⟩,
    ⟨((jst job9).modMov 0 (fun m => { m with descs := [{ id := 3, word := BitVec.ofNat 256 (desc 4 20 3 (2 ^ 38)), handle := entryAll, asked := 3, reqs := 1 }], tracks := [{ tag := 5, desc := 3, ptype := .read, first := 0, rows := 3, addr := 2 ^ 38, stride := 0 }] })), 0, ({ ptype := .data, tag := 5, rows := 3, srcLogical := 1, farAddr := BitVec.ofNat 64 (2 ^ 38), data := [encodeRow 7, encodeRow 8, encodeRow 9] }), ({ id := 3, word := BitVec.ofNat 256 (desc 4 20 3 (2 ^ 38)), handle := entryAll, asked := 3, reqs := 1 }), ({ tag := 5, desc := 3, ptype := .read, first := 0, rows := 3, addr := 2 ^ 38, stride := 0 }), ([7, 8, 9]), by decide +kernel⟩,
    ⟨((jst job9).modMov 0 (fun m => { m with descs := [{ id := 3, word := BitVec.ofNat 256 (desc 4 20 3 (2 ^ 38)), handle := entryAll, asked := 3, reqs := 1 }], tracks := [{ tag := 5, desc := 3, ptype := .read, first := 0, rows := 3, addr := 2 ^ 38, stride := 0 }] })), 0, ({ ptype := .data, tag := 5, rows := 3, srcLogical := 1, farAddr := BitVec.ofNat 64 (2 ^ 38), data := [encodeRow 7, encodeRow 8, encodeRow 9] }), ({ id := 3, word := BitVec.ofNat 256 (desc 4 20 3 (2 ^ 38)), handle := entryAll, asked := 3, reqs := 1 }), ({ tag := 5, desc := 3, ptype := .read, first := 0, rows := 3, addr := 2 ^ 38, stride := 0 }), ([7, 8, 9]), by decide +kernel⟩,
    ⟨((jst job9).modMov 0 (fun m => { m with descs := [{ id := 3, word := BitVec.ofNat 256 (desc 4 20 3 (2 ^ 38)), handle := entryAll, asked := 3, reqs := 1 }], tracks := [{ tag := 5, desc := 3, ptype := .write, first := 0, rows := 3, addr := 2 ^ 38, stride := 0 }] })), 0, ({ ptype := .ack, tag := 5, farAddr := BitVec.ofNat 64 (2 ^ 38) }), ({ id := 3, word := BitVec.ofNat 256 (desc 4 20 3 (2 ^ 38)), handle := entryAll, asked := 3, reqs := 1 }), ({ tag := 5, desc := 3, ptype := .write, first := 0, rows := 3, addr := 2 ^ 38, stride := 0 }), by decide +kernel⟩⟩

/-- States that meet the hypotheses of MoverFabricAndMemoryCommandsComplete. -/
theorem witness_MoverFabricAndMemoryCommandsComplete_6 :
    (∃ (s : State) (n : Nat) (p : Packet) (x : MoveDesc) (k : Track), ((s.tile n).mov.descs = [x]) ∧ ((s.tile n).mov.tracks = [k]) ∧ (k.desc = x.id) ∧ (dRows x.word ≤ x.asked) ∧ (p.tag = k.tag) ∧ (p.farAddr.toNat = k.addr) ∧ (p.srcLogical ≠ 0xFFFF) ∧ (p.head = []) ∧ (p.reserved = 0) ∧ ((s.tile n).mov.waits = none) ∧ (p.status ≠ 0) ∧ (p.status ≠ stUncorrectable) ∧ (x.status = 0) ∧ (s.carriesSignal n k = false)) := by
  exact ⟨((jst job9).modMov 0 (fun m => { m with descs := [{ id := 3, word := BitVec.ofNat 256 (desc 4 20 3 (2 ^ 38)), handle := entryAll, asked := 3, reqs := 1 }], tracks := [{ tag := 5, desc := 3, ptype := .write, first := 0, rows := 3, addr := 2 ^ 38, stride := 0 }] })), 0, ({ ptype := .status, tag := 5, status := stFenced, farAddr := BitVec.ofNat 64 (2 ^ 38) }), ({ id := 3, word := BitVec.ofNat 256 (desc 4 20 3 (2 ^ 38)), handle := entryAll, asked := 3, reqs := 1 }), ({ tag := 5, desc := 3, ptype := .write, first := 0, rows := 3, addr := 2 ^ 38, stride := 0 }), by decide +kernel⟩

/-- States that meet the hypotheses of JobAndStepCommandsComplete. -/
theorem witness_JobAndStepCommandsComplete :
    (∃ (s : State) (n : Nat) (h : Nat) (p : Packet), (n < 1224) ∧ (s.faults.closing = [(.tile n, h)]) ∧ (h ≤ s.elapsed) ∧ ((s.tile n).merges = []) ∧ ((s.tile n).gau.held = [p]) ∧ (s.tileState n ≠ 5 ∨ (s.tile n).owner ≠ none)) ∧
    (∃ (s : State) (q : Nat) (j : Job), (q < 12) ∧ (s.job q = some j) ∧ (s.jobState q = 4) ∧ (j.selfDone = false) ∧ (s.drainedHere q = true) ∧ (j.barrier = false) ∧ (j.remaps = []) ∧ (j.twin = none) ∧ (∀ n, n ∈ j.map → n < 1224)) ∧
    (∃ (s : State) (q : Nat) (j : Job), (s.job q = some j) ∧ (s.jobState q = 4) ∧ (s.drainPast q = true) ∧ (j.selfDone = false) ∧ (s.device.mode = .service)) ∧
    (∃ (s : State) (q : Nat) (j : Job) (r : Remap) (rest : List Remap), (q < 12) ∧ (s.job q = some j) ∧ (j.remaps = r :: rest) ∧ (s.jobState q = 4) ∧ (j.selfDone = false) ∧ (r.target < 1224) ∧ (r.closed < 1224) ∧ (r.closed ≠ r.target) ∧ ((s.tile r.closed).cause ≠ 0) ∧ (s.plane (clusterOf r.target) = 2)) ∧
    (∃ (s : State) (sess : Nat) (n : Nat) (v : BitVec 64) (q : Nat), (s.writeGuard sess (tileIx n) 0x62 = none) ∧ ((s.tile n).owner = some q) ∧ ((s.tile n).gau.st = .live) ∧ (fieldOf v.toNat 39 25 = 0)) := by
  exact ⟨⟨({ svc with tiles := [(1223, { gau := { held := [{ tag := 7 }] } })], faults := { closing := [(.tile 1223, 0)] } }), 1223, 0, ({ tag := 7 }), by decide +kernel⟩,
    ⟨({ obs [(0x5010, 0, 0, 4)] (jst job9) with tiles := [(0, { owner := some 0, gau := { st := .live, gauges := [(1, { value := 9, mask := 1 })], snapshot := [(1, 5)] } }), (1, { owner := some 0, gau := { st := .live } })] }), 0, job9, by decide +kernel⟩,
    ⟨({ obs [(0x5010, 0, 0, 4)] (jst job9) with elapsed := 2 ^ 50 }), 0, job9, by decide +kernel⟩,
    ⟨({ obs [(0x5010, 0, 0, 4), (0x1040, 0, 0, 2), (tileIx 0, 0, 0, 5), (tileIx 2, 0, 0, 1)] (jst { job9 with remaps := [{ logical := 0, closed := 0, target := 2 }] }) with tiles := [(0, { owner := some 0, cause := 1, gau := { st := .live } }), (1, { owner := some 0, gau := { st := .live } })] }), 0, ({ job9 with remaps := [{ logical := 0, closed := 0, target := 2 }] }), ({ logical := 0, closed := 0, target := 2 }), [], by decide +kernel⟩,
    ⟨(jst job9), 5, 1, (BitVec.ofNat 64 (127 * 2 ^ 32 + 5)), 0, by decide +kernel⟩⟩

/-- States that meet the hypotheses of JobAndStepCommandsComplete. -/
theorem witness_JobAndStepCommandsComplete_2 :
    (∃ (s : State) (sess : Nat) (q : Nat) (c : PartCfg), (q < 12) ∧ (s.writeGuard sess (0x5000 + q) 8 = none) ∧ (c = s.newCfg q) ∧ (s.jobState q = 0) ∧ (s.fillOf q = none) ∧ (c.clusters ≠ 0) ∧ (s.cfgBad q c = false) ∧ (∀ g, Tbl.get s.hbmTags 0 g = 0 ∨ Tbl.get s.hbmTags 0 g = c.tenant + 1) ∧ (∀ g, Tbl.get s.ddrTags 0 g = 0 ∨ Tbl.get s.ddrTags 0 g = c.tenant + 1)) ∧
    (∃ (s : State) (q : Nat) (f : PartFill), (q < 12) ∧ (s.fillOf q = some f)) ∧
    (∃ (s : State) (s3 : State) (sess : Nat) (q : Nat) (raw : Nat) (x : JobTable), (q < 12) ∧ (s.writeGuard sess (0x5010 + q) 1 = none) ∧ (s.device.mode ≠ .test) ∧ (s.device.mode ≠ .startup) ∧ (s.jobState q = 0 ∨ s.jobState q = 5) ∧ (s.floor.chosen = []) ∧ (s.configured q = true) ∧ (s.windowLost q = false) ∧ (s.readWin q (s.cfg q).jobTable 4 = (s, some raw)) ∧ (fieldOf raw 0 8 = 1) ∧ (s.headerFieldsOk q ((s.offeredIn q).length) raw = true) ∧ (s.readTables q raw = (s, some x)) ∧ (s.tableFault q x (x.placed.map (fun e => (placedOf e).physical)) = none) ∧ (s.imagesFault q (x.polders.map (fun e => fieldOf e 64 64)) = (s3, none)) ∧ (s3.routesOk q (x.placed.map (fun e => (placedOf e).physical)) = true)) ∧
    (∃ (s : State) (sess : Nat) (q : Nat), (q < 12) ∧ (s.writeGuard sess (0x5010 + q) 2 = none) ∧ (s.jobState q ∉ [0, 5, 6, 7])) ∧
    (∃ (s : State) (sess : Nat) (q : Nat), (q < 12) ∧ (s.writeGuard sess (0x5010 + q) 2 = none) ∧ (s.jobState q ∉ [0, 6])) := by
  exact ⟨⟨pok, 5, 0, (pok.newCfg 0), ⟨by decide, by decide +kernel, rfl, by decide +kernel, by decide +kernel, by decide +kernel, by decide +kernel, fun _ => .inl rfl, fun _ => .inl rfl⟩⟩,
    ⟨({ svc with fills := [(0, some { cfg := { clusters := 1 }, hbm := [8], ddr := [] })] }), 0, ({ cfg := { clusters := 1 }, hbm := [8], ddr := [] }), by decide +kernel⟩,
    ⟨lst, lst, 5, 0, hdr1, ({ raw := hdr1, hdr := headerOf hdr1, placed := [0], polders := [0x5000 * 2 ^ 64], targets := [], shared := [] }), by decide +kernel⟩,
    ⟨(obs [(0x5010, 0, 0, 3)] svc), 5, 0, by decide +kernel⟩,
    ⟨(jst job9), 5, 0, by decide +kernel⟩⟩

/-- States that meet the hypotheses of JobAndStepCommandsComplete. -/
theorem witness_JobAndStepCommandsComplete_3 :
    (∃ (s : State) (sess : Nat) (q : Nat), (q < 12) ∧ (s.writeGuard sess (0x5010 + q) 3 = none) ∧ (s.jobState q ∉ [0, 5, 6, 7])) ∧
    (∃ (s : State) (s3 : State) (sess : Nat) (q : Nat) (raw : Nat) (step : Nat) (x : JobTable) (map : List Nat), (q < 12) ∧ (s.writeGuard sess (0x5010 + q) 4 = none) ∧ (s.device.mode ≠ .test) ∧ (s.device.mode ≠ .startup) ∧ (s.jobState q = 0 ∨ s.jobState q = 5) ∧ (s.floor.chosen = []) ∧ (s.configured q = true) ∧ (s.windowLost q = false) ∧ (s.readWin q (s.cfg q).jobTable 4 = (s, some raw)) ∧ (fieldOf raw 0 8 = 1) ∧ (s.headerFieldsOk q 1224 raw = true) ∧ (s.readTables q raw = (s, some x)) ∧ (s.savePlan q x = (s, .inr (map, step))) ∧ (s.tableFault q x map = none) ∧ (s.imagesFault q (x.polders.map (fun e => fieldOf e 64 64)) = (s3, none)) ∧ (s3.routesOk q map = true)) ∧
    (∃ (s : State) (q : Nat) (j : Job), (q < 12) ∧ (s.job q = some j) ∧ (s.jobState q = 6) ∧ (Tbl.get s.latches none q = none)) ∧
    (∃ (s : State) (q : Nat) (j : Job) (n : Nat) (k : Nat), (q < 12) ∧ (s.job q = some j) ∧ (n ∈ j.map) ∧ (k < 4) ∧ (s.qState n k = 4) ∧ (s.jobState q ≠ 6)) ∧
    (∃ (s : State) (q : Nat) (j : Job) (e : Entry), (q < 12) ∧ (s.job q = some j) ∧ (s.jobState q = 2) ∧ (s.pollDue q = true) ∧ (j.cadence = false) ∧ (j.weirHold = false) ∧ (j.scourHold = false) ∧ (s.readEntry q (s.step' q) = (s, some (some e)))) := by
  exact ⟨⟨(obs [(0x5010, 0, 0, 4)] svc), 5, 0, by decide +kernel⟩,
    ⟨lst, lst, 5, 0, hdr1, 5, ({ raw := hdr1, hdr := headerOf hdr1, placed := [0], polders := [0x5000 * 2 ^ 64], targets := [], shared := [] }), [0], by decide +kernel⟩,
    ⟨((jst ({ job9 with scrubLeft := [0, 1] })).setObj 0x5010 0 0 6), 0, ({ job9 with scrubLeft := [0, 1] }), by decide +kernel⟩,
    ⟨((jst job9).setObj (tileIx 1) 0x30 3 4), 0, job9, 1, 3, by decide +kernel⟩,
    ⟨({ (jst ({ job9 with map := [0], watches := [{ gauge := 2, base := 0, perStep := 1, logical := 0 }] })).setObj 0x5010 0 0 2 with hbm := rowsAt [(0xE0, (2 ^ 64 - 1) * 2 ^ 192)] }), 0, ({ job9 with map := [0], watches := [{ gauge := 2, base := 0, perStep := 1, logical := 0 }] }), ({ key := 0, lanes := 0, laneList := 0, endAfter := false, args := [0, 0, 0, 0] }), by decide +kernel⟩⟩

/-- States that meet the hypotheses of JobAndStepCommandsComplete. -/
theorem witness_JobAndStepCommandsComplete_4 :
    (∃ (s : State) (q : Nat) (rest : List Nat) (j : Job) (e : Entry), (s.pinQueue = q :: rest) ∧ (s.job q = some j) ∧ (j.entry = some e) ∧ (s.pinsHeld + e.lanes ≤ 8192)) ∧
    (∃ (s : State) (q : Nat) (j : Job), (q < 12) ∧ (s.job q = some j) ∧ (s.startReady q = true) ∧ (j.barrier = false) ∧ (j.twin = none) ∧ (j.twinNext = none) ∧ (j.retwin = none) ∧ (j.twinEvery = 0) ∧ (j.watches ≠ []) ∧ (∀ w, w ∈ j.watches → s.watchMet q j w = false) ∧ (j.map.Nodup) ∧ (∀ n, n ∈ j.map → (s.tile n).gau.st = .live ∧ Tbl.wf (s.tile n).gau.gauges (fun _ => {}) = true)) ∧
    (∃ (s : State) (q : Nat) (j : Job) (w : Nat) (x : Watch) (y : Watch), (q < 12) ∧ (s.job q = some j) ∧ (j.watches[w]? = some x) ∧ (s.jobState q = 3) ∧ (j.starting = false) ∧ (x.reached = false) ∧ (s.watchMet q j x = true) ∧ (y ∈ j.watches.eraseIdx w) ∧ (y.reached = false)) ∧
    (∃ (s : State) (q : Nat) (j : Job) (c : Nat), (q < 12) ∧ (s.job q = some j) ∧ (j.cadence = true) ∧ (s.jobState q = 3) ∧ (j.tickNow s.tide c = true)) ∧
    (∃ (s : State) (sess : Nat) (q : Nat), (q < 12) ∧ (s.writeGuard sess (0x5040 + q) 4 = none) ∧ (s.job q ≠ none)) := by
  exact ⟨⟨({ jst ({ job9 with entry := some { key := 0, lanes := 2, laneList := 0, endAfter := false, args := [] }, pins := true }) with pinQueue := [0] }), 0, {}, ({ job9 with entry := some { key := 0, lanes := 2, laneList := 0, endAfter := false, args := [] }, pins := true }), ({ key := 0, lanes := 2, laneList := 0, endAfter := false, args := [] }), by decide +kernel⟩,
    ⟨(obs [(0x1040, 0, 0, 2)] (jst ({ job9 with map := [0], watches := [{ gauge := 2, base := 5, perStep := 1, logical := 0 }], starting := true, lanes := true, twinEvery := 0 }))), 0, ({ job9 with map := [0], watches := [{ gauge := 2, base := 5, perStep := 1, logical := 0 }], starting := true, lanes := true, twinEvery := 0 }), by decide +kernel⟩,
    ⟨((jst ({ job9 with map := [0], watches := [{ gauge := 2, base := 0, perStep := 1, logical := 0 }, { gauge := 3, base := 0, perStep := 1, logical := 0 }] })).modGau 0 (fun u => { u with gauges := [(2, { value := 1 })] })), 0, ({ job9 with map := [0], watches := [{ gauge := 2, base := 0, perStep := 1, logical := 0 }, { gauge := 3, base := 0, perStep := 1, logical := 0 }] }), 0, ({ gauge := 2, base := 0, perStep := 1, logical := 0 }), ({ gauge := 3, base := 0, perStep := 1, logical := 0 }), ⟨by decide, rfl, rfl, by decide +kernel, rfl, rfl, by decide +kernel, by decide, rfl⟩⟩,
    ⟨(jst ({ job9 with map := [0], watches := [{ gauge := 2, base := 0, perStep := 1, logical := 0 }], cadence := true, tick := some 3, phase := 1 })), 0, ({ job9 with map := [0], watches := [{ gauge := 2, base := 0, perStep := 1, logical := 0 }], cadence := true, tick := some 3, phase := 1 }), 4, by decide +kernel⟩,
    ⟨(jst job9), 5, 0, by decide +kernel⟩⟩

/-- States that meet the hypotheses of JobAndStepCommandsComplete. -/
theorem witness_JobAndStepCommandsComplete_5 :
    (∃ (s : State) (m : CtrlMsg) (q : Nat) (j : Job), (s.partitionOfJob (fieldOf m.body.toNat 208 16) = some q) ∧ (s.job q = some j) ∧ (j.ready = false) ∧ (ctrlOk 0x14 m = true)) ∧
    (∃ (s : State) (m : CtrlMsg) (q : Nat) (j : Job), (s.partitionOfJob (fieldOf m.body.toNat 208 16) = some q) ∧ (s.job q = some j) ∧ (j.barrier = true) ∧ (j.ready = true) ∧ (j.starting = true) ∧ (ctrlOk 0x15 m = true) ∧ (j.startAt = none) ∧ (s.startReady q = true) ∧ (fieldOf m.body.toNat 144 64 = s.step' q) ∧ (s.tide + 4000 ≤ fieldOf m.body.toNat 80 64) ∧ (j.twin = none)) ∧
    (∃ (s : State) (q : Nat) (j : Job) (v : Nat), (q < 12) ∧ (s.job q = some j) ∧ (j.startAt = some v) ∧ (v ≤ s.tide) ∧ (s.jobState q = 3) ∧ (j.twin = none) ∧ (j.twinNext = none) ∧ (j.retwin = none) ∧ (j.twinEvery = 0) ∧ (∃ w, w ∈ j.watches ∧ w.reached = false) ∧ (j.map.Nodup) ∧ (∀ n, n ∈ j.map → (s.tile n).gau.st = .live)) := by
  exact ⟨⟨(jst ({ job9 with map := [0], watches := [{ gauge := 2, base := 0, perStep := 1, logical := 0 }] })), ({ src := 3, body := BitVec.ofNat 224 (9 * 2 ^ 208 + 6 * 2 ^ 144) }), 0, ({ job9 with map := [0], watches := [{ gauge := 2, base := 0, perStep := 1, logical := 0 }] }), by decide +kernel⟩,
    ⟨(obs [(0x1040, 0, 0, 2)] (jst ({ job9 with map := [0], watches := [{ gauge := 2, base := 0, perStep := 1, logical := 0 }], starting := true, lanes := true, barrier := true, ready := true }))), ({ src := 3, body := BitVec.ofNat 224 (9 * 2 ^ 208 + 4000 * 2 ^ 80) }), 0, ({ job9 with map := [0], watches := [{ gauge := 2, base := 0, perStep := 1, logical := 0 }], starting := true, lanes := true, barrier := true, ready := true }), by decide +kernel⟩,
    ⟨({ jst ({ job9 with map := [0], watches := [{ gauge := 2, base := 0, perStep := 1, logical := 0 }], startAt := some 77, starting := true, twinEvery := 0 }) with tide := 77 }), 0, ({ job9 with map := [0], watches := [{ gauge := 2, base := 0, perStep := 1, logical := 0 }], startAt := some 77, starting := true, twinEvery := 0 }), 77, ⟨by decide, rfl, rfl, by decide, by decide +kernel, rfl, rfl, rfl, rfl, ⟨{ gauge := 2, base := 0, perStep := 1, logical := 0 }, by decide, rfl⟩, by decide, by decide +kernel⟩⟩⟩

/-- States that meet the hypotheses of ExpertAndContextCommandsComplete. -/
theorem witness_ExpertAndContextCommandsComplete :
    (∃ (s : State) (sess : Nat), (s.writeGuard sess 0x5200 2 = none) ∧ (∀ q, q < 12 → s.jobState q = 0 ∨ s.jobState q = 5) ∧ (∀ e, e < 4096 → xValid (s.obj 0x5200 1 e) = true → expertOk (s.obj 0x5200 1 e) = true) ∧ ((((s.objs 0x5200 1 4096).filter xValid).filter (fun e => s.isOwn (xDevice e))).length ≤ 512)) ∧
    (∃ (s : State) (q : Nat) (pos : Nat) (rows : Nat) (p : Packet) (e : Nat) (ds : List Row), (pos = (s.sequencerPos q).getD 0) ∧ ((s.disp q).parts = []) ∧ (soundPacket p) ∧ ((s.disp q).tokens = []) ∧ (s.tokenCheck rows p = stOk) ∧ ((s.disp q).held = []) ∧ (p.data.length ≤ 16384) ∧ (p.data.length = rows) ∧ (p.data.map decodeWord = ds.map Decoded.clean) ∧ (reqTargets ((reqRows p).headD 0).toNat = [e])) ∧
    (∃ (s : State) (q : Nat) (r : Taken) (p : Packet) (v : Row), ((s.disp q).taken = [r]) ∧ ((s.disp q).queue = []) ∧ (soundPacket p) ∧ ((s.disp q).held = []) ∧ (commonOk p = true) ∧ (p.data.map decodeWord = [Decoded.clean v]) ∧ (s.releaseOk q v.toNat = true)) ∧
    (∃ (s : State) (q : Nat) (rows : Nat) (p : Packet) (h : Row) (e : Nat) (x : Nat) (a : Nat) (k : Nat) (srv : Server), (soundPacket p) ∧ ((s.disp q).held = []) ∧ (s.isOwn p.srcDevice = true) ∧ (p.data.map decodeWord = [Decoded.clean h]) ∧ (rows = 1) ∧ (commonOk p = true) ∧ (reqKind h.toNat = 3) ∧ (s.headerOk h.toNat = true) ∧ ((s.disp q).tokens = []) ∧ ((s.disp q).parts = []) ∧ (reqTargets h.toNat = [e]) ∧ (s.isOwn (xDevice (s.expert e)) = true) ∧ (s.expertPartition e = some x) ∧ (hintReads (s.expert e) = [(a, k)]) ∧ (srv = (s.memPlace x 1 (farOffset a)).1) ∧ ((s.server srv).dead = false) ∧ (s.holdFull x e = false)) ∧
    (∃ (s : State) (q : Nat) (pos : Nat) (rows : Nat) (p : Packet) (e : Nat) (ds : List Row), (pos = (s.sequencerPos q).getD 0) ∧ ((s.disp q).parts = []) ∧ (soundPacket p) ∧ ((s.disp q).tokens = []) ∧ (s.tokenCheck rows p = stOk) ∧ ((s.disp q).held = [⟨1, rows, p⟩]) ∧ (p.data.length ≤ 16384) ∧ (p.data.length = rows) ∧ (p.data.map decodeWord = ds.map Decoded.clean) ∧ (reqTargets ((reqRows p).headD 0).toNat = [e])) := by
  exact ⟨⟨svc, 5, ⟨by decide +kernel, by decide +kernel, fun e he h => absurd h (by rw [experts_blank e he]; decide), by rw [experts_none]; decide⟩⟩,
    ⟨xst, 0, ((xst.sequencerPos 0).getD 0), 2, tokenPacket, 7, ([BitVec.ofNat 256 (1 + 2 ^ 60 + 7 * 2 ^ 64), 5]), by simp only [soundPacket]; decide +kernel⟩,
    ⟨({ xst with disps := [(0, { taken := [{ expert := 7, device := 4, part := 2, resId := 11, job := 9 }] })] }), 0, ({ expert := 7, device := 4, part := 2, resId := 11, job := 9 }), ({ data := [encodeRow (BitVec.ofNat 256 (2 + 7 * 2 ^ 16))] }), (BitVec.ofNat 256 (2 + 7 * 2 ^ 16)), by simp only [soundPacket]; decide +kernel⟩,
    ⟨({ xst with experts := [(7, ent7 + 8 * 2 ^ 176)] }), 0, 1, ({ data := [encodeRow (BitVec.ofNat 256 (3 + 2 ^ 60 + 7 * 2 ^ 64))] }), (BitVec.ofNat 256 (3 + 2 ^ 60 + 7 * 2 ^ 64)), 7, 0, (2 ^ 62), 8, (({ xst with experts := [(7, ent7 + 8 * 2 ^ 176)] }.memPlace 0 1 0).1), by simp only [soundPacket]; decide +kernel⟩,
    ⟨({ xst with disps := [(0, { held := [⟨1, 2, tokenPacket⟩] })] }), 0, ((xst.sequencerPos 0).getD 0), 2, tokenPacket, 7, ([BitVec.ofNat 256 (1 + 2 ^ 60 + 7 * 2 ^ 64), 5]), by simp only [soundPacket]; decide +kernel⟩⟩

/-- States that meet the hypotheses of ExpertAndContextCommandsComplete. -/
theorem witness_ExpertAndContextCommandsComplete_2 :
    (∃ (s : State) (m : CtrlMsg) (q : Nat) (n : Nat), (xValid (s.expert (mExpert m)) = true) ∧ (s.isOwn (xDevice (s.expert (mExpert m))) = true) ∧ (s.expertPartition (mExpert m) = some q) ∧ (s.jobId q = mJob m) ∧ (s.physicalOf q (xIntake (s.expert (mExpert m))) = some n) ∧ (s.tileState n ≠ 5) ∧ ((s.disp q).taken = []) ∧ ((s.disp q).tokens = []) ∧ ((s.disp q).parts = []) ∧ (∀ r, r ∈ (s.disp q).queue → r.expert ≠ mExpert m) ∧ (ctrlOk 0x10 m = true) ∧ (0 < xSlots (s.expert (mExpert m)))) ∧
    (∃ (s : State) (q : Nat) (k : Token) (x : Target) (m : CtrlMsg), ((s.disp q).tokens = [k]) ∧ (k.targets = [x]) ∧ (k.unicast = false) ∧ (x.st = .asked) ∧ (ctrlOk 0x11 m = true) ∧ (mPart m = q) ∧ (mRes m = x.resId) ∧ (s.isOwn (xDevice (s.expert x.expert)) = true)) ∧
    (∃ (s : State) (q : Nat) (r : Taken) (m : CtrlMsg), ((s.disp q).taken = [r]) ∧ ((s.disp q).queue = []) ∧ (q < 12) ∧ (ctrlOk 0x12 m = true) ∧ (∀ j, j < q → (s.disp j).taken = [] ∧ (s.disp j).queue = []) ∧ (mRes m = r.resId) ∧ (m.src = r.device) ∧ (mPart m = r.part) ∧ (mExpert m = r.expert)) ∧
    (∃ (s : State) (q : Nat) (k : Token) (x : Target) (m : CtrlMsg), ((s.disp q).tokens = [k]) ∧ (k.targets = [x]) ∧ (k.unicast = false) ∧ (x.st = .asked) ∧ (ctrlOk 0x13 m = true) ∧ (mPart m = q) ∧ (mRes m = x.resId) ∧ (mStatus m = stNoCredit)) ∧
    (∃ (s : State) (q : Nat) (k : Token) (x : Target), ((s.disp q).tokens = [k]) ∧ (k.targets = [x]) ∧ (k.unicast = false) ∧ (x.st = .retry) ∧ (x.retry ≤ s.elapsed)) := by
  exact ⟨⟨xst, ({ mtype := 0x10, src := 4, body := BitVec.ofNat 224 (11 * 2 ^ 192 + 7 * 2 ^ 180 + 9 * 2 ^ 164) }), 0, 0, by decide +kernel⟩,
    ⟨(tst .asked), 0, (token1 .asked), ({ expert := 7, resId := 11, st := .asked }), ({ mtype := 0x11, body := BitVec.ofNat 224 (11 * 2 ^ 192 + 2 ^ 142) }), by decide +kernel⟩,
    ⟨({ xst with disps := [(0, { taken := [{ expert := 7, device := 4, part := 2, resId := 11, job := 9 }] })] }), 0, ({ expert := 7, device := 4, part := 2, resId := 11, job := 9 }), ({ src := 4, body := BitVec.ofNat 224 (11 * 2 ^ 192 + 7 * 2 ^ 180 + 2 * 2 ^ 160) }), by decide +kernel⟩,
    ⟨(tst .asked), 0, (token1 .asked), ({ expert := 7, resId := 11, st := .asked }), ({ mtype := 0x13, body := BitVec.ofNat 224 (11 * 2 ^ 192 + stNoCredit * 2 ^ 134) }), by decide +kernel⟩,
    ⟨(tst .retry), 0, (token1 .retry), ({ expert := 7, resId := 11, st := .retry }), by decide +kernel⟩⟩

/-- States that meet the hypotheses of ExpertAndContextCommandsComplete. -/
theorem witness_ExpertAndContextCommandsComplete_3 :
    (∃ (s : State) (q : Nat) (k : Token) (x : Target), ((s.disp q).tokens = [k]) ∧ (k.targets = [x]) ∧ (k.unicast = false) ∧ (x.st = .asked) ∧ (k.began + s.castLimit q ≤ s.elapsed)) ∧
    (∃ (s : State) (q : Nat) (n : Nat) (r : Taken) (h : Row) (rest : List Row), ((s.disp q).taken = [r]) ∧ ((s.disp q).queue = []) ∧ (r.landed = false) ∧ (s.physicalOf q (xIntake (s.expert r.expert)) = some n) ∧ ((h :: rest).length ≤ 8)) ∧
    (∃ (s : State) (q : Nat) (k : Token) (x : Target), ((s.disp q).tokens = [k]) ∧ (k.targets = [x]) ∧ (k.unicast = false) ∧ (x.st = .launched) ∧ ((s.disp q).queue = [])) ∧
    (∃ (s : State) (sess : Nat) (slot : Nat) (q : Nat) (v : BitVec 256), (s.writeGuard sess 0x3400 2 = none) ∧ (ctxFieldsOk v.toNat 1 = true) ∧ (slot = ctxSlot v.toNat) ∧ (q = fieldOf v.toNat 132 4) ∧ (q ≤ 11) ∧ ((s.pool q).applied = true) ∧ ((s.ctx slot).st = .free) ∧ ((s.pool q).hbm.front = []) ∧ ((s.pool q).hbm.back = []) ∧ ((s.pool q).hbm.next + 2 ≤ (s.pool q).hbm.size) ∧ (s.spans = [])) ∧
    (∃ (s : State) (sess : Nat) (slot : Nat) (v : BitVec 256) (c : Ctx), (s.writeGuard sess 0x3400 2 = none) ∧ (slot = ctxSlot v.toNat) ∧ (c = s.ctx slot) ∧ (ctxFieldsOk v.toNat 2 = true) ∧ (c.st = .idle)) := by
  exact ⟨⟨({ tst .asked with elapsed := 2 ^ 20 }), 0, (token1 .asked), ({ expert := 7, resId := 11, st := .asked }), by decide +kernel⟩,
    ⟨({ xst with disps := [(0, { taken := [{ expert := 7, device := 4, part := 2, resId := 11, job := 9 }] })] }), 0, 0, ({ expert := 7, device := 4, part := 2, resId := 11, job := 9 }), 1, [5], by decide +kernel⟩,
    ⟨(tst .launched), 0, (token1 .launched), ({ expert := 7, resId := 11, st := .launched }), by decide +kernel⟩,
    ⟨({ svc with pools := [(2, { applied := true, hbm := { size := 4 }, ddr := { size := 0 } })] }), 5, 3, 2, (BitVec.ofNat 256 (3 * 2 ^ 142 + 2 * 2 ^ 132 + 6 * 2 ^ 160 + 7 * 2 ^ 192)), by decide +kernel⟩,
    ⟨({ svc with pools := [(2, { applied := true, hbm := { size := 4 }, ddr := { size := 0 } })], ctxs := [(3, { st := .idle, position := 5, tenant := 6, partition := 2 })] }), 5, 3, (BitVec.ofNat 256 (3 * 2 ^ 142)), ({ st := .idle, position := 5, tenant := 6, partition := 2 }), by decide +kernel⟩⟩

/-- States that meet the hypotheses of ExpertAndContextCommandsComplete. -/
theorem witness_ExpertAndContextCommandsComplete_4 :
    (∃ (s : State) (sess : Nat) (slot : Nat) (v : BitVec 256) (c : Ctx), (s.writeGuard sess 0x3400 2 = none) ∧ (slot = ctxSlot v.toNat) ∧ (c = s.ctx slot) ∧ (c.st = .idle ∨ c.st = .active) ∧ (ctxFieldsOk v.toNat 3 = true) ∧ (c.position ≤ fieldOf v.toNat 192 32) ∧ (fieldOf v.toNat 192 32 ≤ 16384)) ∧
    (∃ (s : State) (sess : Nat) (slot : Nat) (v : BitVec 256) (c : Ctx), (s.writeGuard sess 0x3400 2 = none) ∧ (slot = ctxSlot v.toNat) ∧ (c = s.ctx slot) ∧ (c.st = .idle ∨ c.st = .active) ∧ (ctxFieldsOk v.toNat 4 = true)) ∧
    (∃ (s : State) (sess : Nat) (slot : Nat) (v : BitVec 256) (c : Ctx), (s.writeGuard sess 0x3400 2 = none) ∧ (slot = ctxSlot v.toNat) ∧ (c = s.ctx slot) ∧ (c.st = .idle ∨ c.st = .active) ∧ (ctxFieldsOk v.toNat 5 = true)) ∧
    (∃ (s : State) (sess : Nat) (slot : Nat) (v : BitVec 256) (c : Ctx), (s.writeGuard sess 0x3400 2 = none) ∧ (slot = ctxSlot v.toNat) ∧ (c = s.ctx slot) ∧ (c.st = .idle ∨ c.st = .active) ∧ (ctxFieldsOk v.toNat 6 = true)) ∧
    (∃ (s : State) (sess : Nat) (slot : Nat) (v : BitVec 256) (c : Ctx), (s.writeGuard sess 0x3400 2 = none) ∧ (slot = ctxSlot v.toNat) ∧ (c = s.ctx slot) ∧ (c.st = .idle ∨ c.st = .active) ∧ (ctxFieldsOk v.toNat 7 = true)) := by
  exact ⟨⟨({ svc with pools := [(2, { applied := true, hbm := { size := 4 }, ddr := { size := 0 } })], ctxs := [(3, { st := .idle, position := 5, tenant := 6, partition := 2 })] }), 5, 3, (BitVec.ofNat 256 (3 * 2 ^ 142 + 16384 * 2 ^ 192)), ({ st := .idle, position := 5, tenant := 6, partition := 2 }), by decide +kernel⟩,
    ⟨({ svc with pools := [(2, { applied := true, hbm := { size := 4 }, ddr := { size := 0 } })], ctxs := [(3, { st := .active, position := 5, tenant := 6, partition := 2 })] }), 5, 3, (BitVec.ofNat 256 (3 * 2 ^ 142 + 255 * 2 ^ 192)), ({ st := .active, position := 5, tenant := 6, partition := 2 }), by decide +kernel⟩,
    ⟨({ svc with pools := [(2, { applied := true, hbm := { size := 4 }, ddr := { size := 0 } })], ctxs := [(3, { st := .idle, position := 5, tenant := 6, partition := 2 })] }), 5, 3, (BitVec.ofNat 256 (3 * 2 ^ 142)), ({ st := .idle, position := 5, tenant := 6, partition := 2 }), by decide +kernel⟩,
    ⟨({ svc with pools := [(2, { applied := true, hbm := { size := 4 }, ddr := { size := 0 } })], ctxs := [(3, { st := .idle, position := 5, tenant := 6, partition := 2, pinned := true })] }), 5, 3, (BitVec.ofNat 256 (3 * 2 ^ 142)), ({ st := .idle, position := 5, tenant := 6, partition := 2, pinned := true }), by decide +kernel⟩,
    ⟨({ svc with pools := [(2, { applied := true, hbm := { size := 4 }, ddr := { size := 0 } })], ctxs := [(3, { st := .idle, position := 5, tenant := 6, partition := 2 })] }), 5, 3, (BitVec.ofNat 256 (3 * 2 ^ 142)), ({ st := .idle, position := 5, tenant := 6, partition := 2 }), by decide +kernel⟩⟩

/-- States that meet the hypotheses of ExpertAndContextCommandsComplete. -/
theorem witness_ExpertAndContextCommandsComplete_5 :
    (∃ (s : State) (sess : Nat) (slot : Nat) (v : BitVec 256) (c : Ctx), (s.writeGuard sess 0x3400 2 = none) ∧ (slot = ctxSlot v.toNat) ∧ (c = s.ctx slot) ∧ (ctxFieldsOk v.toNat 8 = true) ∧ (c.st = .idle) ∧ ((s.pool c.partition).ddr.size ≠ 0) ∧ (c.pinned = false)) ∧
    (∃ (s : State) (sess : Nat) (slot : Nat) (v : BitVec 256) (c : Ctx), (s.writeGuard sess 0x3400 2 = none) ∧ (slot = ctxSlot v.toNat) ∧ (c = s.ctx slot) ∧ (ctxFieldsOk v.toNat 9 = true) ∧ (c.st ≠ .free)) ∧
    (∃ (s : State) (sess : Nat) (q : Nat), (q < 12) ∧ (s.writeGuard sess (0x3410 + q) 6 = none) ∧ (s.jobState q = 0) ∧ (∀ e, e ∈ s.ctxs → e.2.st = .free ∨ e.2.partition ≠ q) ∧ (s.windowLost q = false) ∧ (s.obj (0x3410 + q) 0 % 65536 = 0) ∧ (s.obj (0x3410 + q) 0 + 65536 * s.obj (0x3410 + q) 1 ≤ s.obj (0x3410 + q) 4) ∧ (s.obj (0x3410 + q) 2 % 65536 = 0) ∧ (s.obj (0x3410 + q) 3 = 0) ∧ (s.obj (0x3410 + q) 4 % 32 = 0) ∧ (s.obj (0x3410 + q) 4 + 262144 ≤ (s.cfg q).hbmSize) ∧ (s.obj (0x3410 + q) 5 % 32 = 0) ∧ (32 ≤ s.obj (0x3410 + q) 5) ∧ (s.obj (0x3410 + q) 5 ≤ 32768) ∧ ((s.cfg q).tenant = 0) ∧ (s.pagers = [])) ∧
    (∃ (s : State) (q : Nat) (i : Nat) (m : PageMove), (q < 12) ∧ ((s.pager q).flight = [m]) ∧ (m.kind = .background) ∧ (m.page = 0) ∧ (m.dst = some i) ∧ (s.job q = none) ∧ ((s.pager q).queue = []) ∧ (∀ e, e ∈ s.ctxs → e.2.partition ≠ q)) ∧
    (∃ (s : State) (slot : Nat) (c : Ctx), (c = s.ctx slot) ∧ (c.st = .releasing) ∧ ((s.pager c.partition).flight = []) ∧ (c.pages = 0) ∧ (c.mapEntry = 0) ∧ (c.commitEntry = 0) ∧ (c.opens = none)) := by
  exact ⟨⟨({ svc with pools := [(2, { applied := true, hbm := { size := 4 }, ddr := { size := 4 } })], ctxs := [(3, { st := .idle, position := 5, tenant := 6, partition := 2 })] }), 5, 3, (BitVec.ofNat 256 (3 * 2 ^ 142)), ({ st := .idle, position := 5, tenant := 6, partition := 2 }), by decide +kernel⟩,
    ⟨({ svc with pools := [(2, { applied := true, hbm := { size := 4 }, ddr := { size := 0 } })], ctxs := [(3, { st := .closing, position := 5, tenant := 6, partition := 2 })] }), 5, 3, (BitVec.ofNat 256 (3 * 2 ^ 142)), ({ st := .closing, position := 5, tenant := 6, partition := 2 }), by decide +kernel⟩,
    ⟨({ obs [(0x3410, 1, 0, 2), (0x3410, 4, 0, 0x40000), (0x3410, 5, 0, 32768)] svc with cfgs := [(0, { clusters := 1, hbmBase := 2 ^ 31, hbmSize := 2 ^ 20 })] }), 5, 0, by decide +kernel⟩,
    ⟨({ svc with cfgs := [(0, { clusters := 1, hbmBase := 2 ^ 31, hbmSize := 2 ^ 20 })], pools := [(0, { applied := true, hbm := { size := 4 }, ddr := { size := 0 } })], pagers := [(0, { flight := [{ id := 4, kind := .background, slot := 0, page := 0, src := 0, dst := some 1, cls := 3 }] })] }), 0, 1, ({ id := 4, kind := .background, slot := 0, page := 0, src := 0, dst := some 1, cls := 3 }), by decide +kernel⟩,
    ⟨({ svc with pools := [(2, { applied := true, hbm := { size := 4 }, ddr := { size := 0 } })], ctxs := [(3, { st := .releasing, position := 5, tenant := 6, partition := 2 })] }), 3, ({ st := .releasing, position := 5, tenant := 6, partition := 2 }), by decide +kernel⟩⟩

/-- States that meet the hypotheses of DieToDieCommandsComplete. -/
theorem witness_DieToDieCommandsComplete :
    (∃ (s : State) (m : Nat) (j : Nat), (m < 8) ∧ (s.obj (0x3210 + m) 0 = 1) ∧ (j < 8) ∧ (j ≠ m) ∧ (s.obj (0x3210 + j) 0 ≠ 3) ∧ ((s.ucie m).out = []) ∧ ((s.ucie m).waiting = [])) ∧
    (∃ (s : State) (m : Nat) (c : Nat) (d : DtlMsg) (ds : List (Row × Row)) (rows : List Nat), (soundMsg d) ∧ (s.ddrUsed ≠ []) ∧ (d.dtype = 1) ∧ (c = (s.ddrDecode d.addr).1) ∧ ((s.server (.channel c)).dead = false) ∧ ((s.server (.channel c)).wbuf = []) ∧ (rows = dtlRows d (fieldOf d.arg 0 4)) ∧ (ds.length = rows.length) ∧ (∀ i, i < rows.length → burstRead (rows.getD i 0 / 2) (s.burst (rows.getD i 0 / 2)) = some ((ds.getD i (0, 0)).1, (ds.getD i (0, 0)).2, 0, false))) ∧
    (∃ (s : State) (m : Nat) (c : Nat) (d : DtlMsg), (soundMsg d) ∧ (s.ddrUsed ≠ []) ∧ (d.dtype = 2) ∧ (c = (s.ddrDecode d.addr).1) ∧ ((s.server (.channel c)).dead = false) ∧ ((s.server (.channel c)).merges = []) ∧ ((s.server (.channel c)).dtl = []) ∧ ((s.server (.channel c)).wbuf.length + d.cells.length ≤ 4096) ∧ ((s.server (.channel c)).hold = []) ∧ (d.cells.any isBadWord = false)) ∧
    (∃ (s : State) (m : Nat) (d : DtlMsg) (r : DtlReq) (g : MemMerge) (p : Packet), (soundMsg d) ∧ (d.dtype = 3) ∧ (d.status = 0) ∧ ((s.ucie m).out = [r]) ∧ (r.dtag = d.dtag) ∧ ((s.ucie m).waiting = []) ∧ (r.merge = some g.id) ∧ ((s.server (.channel r.chan)).merges = [g]) ∧ (g.reqs = [p]) ∧ (g.data = none)) ∧
    (∃ (s : State) (m : Nat) (d : DtlMsg) (r : DtlReq), (soundMsg d) ∧ (d.dtype = 4) ∧ (d.status = 0) ∧ ((s.ucie m).out = [r]) ∧ (r.dtag = d.dtag) ∧ ((s.ucie m).waiting = []) ∧ (r.merge = none)) := by
  exact ⟨⟨(obs [(0x3212, 0, 0, 1), (0x3217, 0, 0, 2)] svc), 2, 7, by decide +kernel⟩,
    ⟨(obs [(0x3100, 2, 0, 1)] svc), 2, 0, ({ dtype := 1, addr := 64, arg := 3, dtag := 8 }), ([(0, 0), (0, 0), (0, 0)]), ([2, 3, 4]), by simp only [soundMsg]; decide +kernel⟩,
    ⟨(obs [(0x3100, 2, 0, 1)] svc), 2, 0, ({ dtype := 2, addr := 64, dtag := 8, cells := [encodeRow 7] }), by simp only [soundMsg]; decide +kernel⟩,
    ⟨({ svc with ucies := [(2, { out := [{ dtag := 8, pkt := { tag := 4, srcX := 2 }, chan := 3, merge := some 4 }] })], channels := [(3, { merges := [{ id := 4, partition := 0, job := 9, addr := 2 ^ 63 + 64, rows := 1, stride := 0, reqs := [{ tag := 4, srcX := 2 }] }] })] }), 2, ({ dtype := 3, dtag := 8, cells := [7] }), ({ dtag := 8, pkt := { tag := 4, srcX := 2 }, chan := 3, merge := some 4 }), ({ id := 4, partition := 0, job := 9, addr := 2 ^ 63 + 64, rows := 1, stride := 0, reqs := [{ tag := 4, srcX := 2 }] }), ({ tag := 4, srcX := 2 }), by simp only [soundMsg]; decide +kernel⟩,
    ⟨({ svc with ucies := [(2, { out := [{ dtag := 8, pkt := { tag := 4, srcX := 2 }, chan := 3, merge := none }] })] }), 2, ({ dtype := 4, dtag := 8 }), ({ dtag := 8, pkt := { tag := 4, srcX := 2 }, chan := 3, merge := none }), by simp only [soundMsg]; decide +kernel⟩⟩

/-- States that meet the hypotheses of DieToDieCommandsComplete. -/
theorem witness_DieToDieCommandsComplete_2 :
    (∃ (s : State) (m : Nat) (h : Nat) (d : DtlMsg) (ds : List Row) (rows : List Nat), (soundMsg d) ∧ (d.dtype = 5) ∧ (h = hbmStack d.addr) ∧ (rows = dtlRows d (fieldOf d.arg 0 4)) ∧ (∀ r, r ∈ rows → 32 * r < 6 * regionBytes ∧ isTableRow r = false) ∧ ((s.server (.stack h)).dead = false) ∧ ((s.server (.stack h)).wbuf = []) ∧ (ds.length = rows.length) ∧ (∀ i, i < rows.length → decodeWord (Tbl.get s.hbm 0 (rows.getD i 0)) = .clean (ds.getD i 0))) ∧
    (∃ (s : State) (m : Nat) (h : Nat) (d : DtlMsg), (soundMsg d) ∧ (d.dtype = 6) ∧ (h = hbmStack d.addr) ∧ (∀ r, r ∈ dtlRows d d.cells.length → 32 * r < 6 * regionBytes) ∧ ((s.server (.stack h)).dead = false) ∧ ((s.server (.stack h)).merges = []) ∧ ((s.server (.stack h)).dtl = []) ∧ ((s.server (.stack h)).wbuf.length + d.cells.length ≤ 8192) ∧ ((s.server (.stack h)).hold = []) ∧ (d.cells.any isBadWord = false)) ∧
    (∃ (s : State) (m : Nat) (d : DtlMsg), (soundMsg d) ∧ (d.dtype = 7)) ∧
    (∃ (s : State) (m : Nat) (d : DtlMsg), (soundMsg d) ∧ (d.dtype = 8)) ∧
    (∃ (s : State) (u : State) (m : Nat) (d : DtlMsg) (o : ObjDesc), (soundMsg d) ∧ (d.dtype = 9) ∧ (fieldOf d.arg 0 8 = 1) ∧ (objAt (fieldOf d.addr 16 16) (fieldOf d.addr 8 8) = some o) ∧ (o.access ≠ 4) ∧ (o.access ≠ 6) ∧ (u = s.dtlIn m true d)) := by
  exact ⟨⟨svc, 2, (hbmStack 64), ({ dtype := 5, addr := 64, arg := 2, dtag := 8 }), ([0, 0]), ([2, 3]), by simp only [soundMsg]; decide +kernel⟩,
    ⟨svc, 2, (hbmStack 64), ({ dtype := 6, addr := 64, dtag := 8, cells := [encodeRow 7, 0] }), by simp only [soundMsg]; decide +kernel⟩,
    ⟨svc, 2, ({ dtype := 7, cells := [1] }), by simp only [soundMsg]; decide +kernel⟩,
    ⟨svc, 2, ({ dtype := 8 }), by simp only [soundMsg]; decide +kernel⟩,
    ⟨svc, _, 2, ({ dtype := 9, dtag := 4, arg := 1, addr := 0x0110 * 2 ^ 16 }), (⟨0x0110, 1, 0x00, "device_mode", 2, 1, 0, 1, 0, 255, false⟩), ⟨by simp only [soundMsg]; decide +kernel, by decide +kernel, by decide +kernel, by decide +kernel, by decide +kernel, by decide +kernel, rfl⟩⟩⟩

/-- States that meet the hypotheses of DieToDieCommandsComplete. -/
theorem witness_DieToDieCommandsComplete_3 :
    (∃ (s : State) (m : Nat) (d : DtlMsg), (soundMsg d) ∧ (d.dtype = 0xA)) ∧
    (∃ (s : State) (m : Nat) (d : DtlMsg) (lo : Codeword) (hi : Codeword), (soundMsg d) ∧ (d.dtype = 0xB) ∧ (d.cells = [lo, hi])) ∧
    (∃ (s : State) (m : Nat) (n : Nat) (d : DtlMsg) (r : SvcReq) (o : OutRecord), (soundMsg d) ∧ (n < 16) ∧ (s.closers = []) ∧ (s.obj (0x9100 + n) 0 ≠ 0) ∧ (s.svcPart n = d.partition) ∧ (∀ k, k < 16 → k ≠ n → s.obj (0x9100 + k) 0 = 0 ∨ s.svcPart k ≠ d.partition) ∧ (s.svcVal n 1 = 1) ∧ (fieldOf d.arg 8 8 = 2) ∧ ((s.svc n).sealed = [(d.addr, [r.seq])]) ∧ ((s.svc n).active = [r]) ∧ ((s.svc n).waiting = []) ∧ ((s.svc n).stopAt = false) ∧ (r.gen = true) ∧ (r.leave = none) ∧ (r.lost = false) ∧ (r.askers = []) ∧ (s.readOutput n d.addr 0 = (s, some o)) ∧ (bitOf o.flags 0 = true)) ∧
    (∃ (s : State) (m : Nat) (n : Nat) (st : Nat) (d : DtlMsg), (soundMsg d) ∧ (n < 16) ∧ (st = fieldOf d.arg 8 8) ∧ (st = 2 ∨ st = 3) ∧ (s.obj (0x9100 + n) 0 = 1 ∨ s.obj (0x9100 + n) 0 = 3) ∧ (s.svcPart n = d.partition) ∧ ((s.svc n).latch = none) ∧ (s.closers = []) ∧ (∀ k, k < 16 → k ≠ n → s.svcPart k ≠ d.partition)) ∧
    (∃ (s : State) (m : Nat) (d : DtlMsg), (soundMsg d) ∧ (d.dtype = 0xB)) := by
  exact ⟨⟨svc, 2, ({ dtype := 0xA, cells := [0] }), by simp only [soundMsg]; decide +kernel⟩,
    ⟨svc, 2, ({ dtype := 0xB, arg := 1, cells := [encodeRow 7, encodeRow 8] }), (encodeRow 7), (encodeRow 8), by simp only [soundMsg]; decide +kernel⟩,
    ⟨({ ssv 2 { cfg := langCfg, active := [{ rq3 with gen := true, tokens := [], left := 5, lastKey := some 6 }], sealed := [(6, [4])], lanes := [4] } with hbm := [((2 ^ 31 + 0x40000) / 32, encodeRow (BitVec.ofNat 256 (1 + 1 * 2 ^ 64 + 6 * 2 ^ 96 + 55 * 2 ^ 128)))] }), 0, 0, ({ dtype := 0x0B, addr := 6, arg := 0x202, partition := 0 }), ({ rq3 with gen := true, tokens := [], left := 5, lastKey := some 6 }), ({ tokens := [55], length := 6, count := 1, left := 0, flags := 1 }), by simp only [soundMsg]; decide +kernel⟩,
    ⟨({ obs [(0x910F, 0, 0, 1)] svc with svcs := [(15, { cfg := [1, 2, 0, 0, 4, 64, 16, 1000, 2, 1, 0, 0, 0, 0] })] }), 0, 15, 2, ({ dtype := 0x0B, arg := 0x203, partition := 2 }), by simp only [soundMsg]; decide +kernel⟩,
    ⟨svc, 2, ({ dtype := 0xB, arg := 4 }), by simp only [soundMsg]; decide +kernel⟩⟩

/-- States that meet the hypotheses of DieToDieCommandsComplete. -/
theorem witness_DieToDieCommandsComplete_4 :
    (∃ (s : State) (m : Nat) (d : DtlMsg), (soundMsg d) ∧ (d.dtype = 0xC)) ∧
    (∃ (s : State) (m : Nat) (d : DtlMsg), (soundMsg d) ∧ (d.dtype = 0xD) ∧ (s.portState (fieldOf d.arg 16 4) = 6)) ∧
    (∃ (s : State) (m : Nat) (d : DtlMsg), (soundMsg d) ∧ (d.dtype = 0xE) ∧ ((s.ucie m).waiting = [])) ∧
    (∃ (s : State) (u : State) (m : Nat) (d : DtlMsg), (u = s.dtlIn m false d) ∧ (soundMsg d) ∧ (s.faults.asked = none) ∧ (2 ≤ d.addr % 256) ∧ (d.addr % 256 ≤ 4) ∧ (s.device.mode = .service ∨ s.device.mode = .test)) ∧
    (∃ (s : State) (u : State) (m : Nat) (d : DtlMsg), (u = s.dtlIn m true d) ∧ (soundMsg d) ∧ (s.faults.recovery = .closing)) := by
  exact ⟨⟨svc, 2, ({ dtype := 0xC, arg := 33 + 5 * 2 ^ 16, cells := [encodeRow 7, encodeRow 8] }), by simp only [soundMsg]; decide +kernel⟩,
    ⟨(obs [(0x401D, 1, 0, 6)] svc), 2, ({ dtype := 0xD, arg := 64 + 13 * 2 ^ 16, cells := [encodeRow 7, encodeRow 8] }), by simp only [soundMsg]; decide +kernel⟩,
    ⟨({ svc with ucies := [(2, { req := 4095, rsp := 7, ctrl := 1 })] }), 2, ({ dtype := 0xE, arg := 2 ^ 16 + 4, addr := 2 }), by simp only [soundMsg]; decide +kernel⟩,
    ⟨svc, _, 1, ({ dtype := 0x0F, addr := 2, arg := 1 }), ⟨rfl, by simp only [soundMsg]; decide +kernel, by decide +kernel, by decide +kernel, by decide +kernel, by decide +kernel⟩⟩,
    ⟨({ obs [(tileIx 0, 0x30, 2, 3)] svc with tiles := [(0, { owner := some 0, gau := { st := .live } })], faults := { recovery := .closing } }), _, 1, ({ dtype := 0x0F, arg := 2 }), ⟨rfl, by simp only [soundMsg]; decide +kernel, by decide +kernel⟩⟩⟩

/-- States that meet the hypotheses of DieToDieCommandsComplete. -/
theorem witness_DieToDieCommandsComplete_5 :
    (∃ (s : State) (u : State) (m : Nat) (d : DtlMsg), (u = s.dtlIn m false d) ∧ (soundMsg d) ∧ (s.faults.recovery = .quiesced)) ∧
    (∃ (s : State) (u : State) (m : Nat) (d : DtlMsg), (u = s.dtlIn m true d) ∧ (soundMsg d) ∧ (s.faults.recovery = .quiesced)) ∧
    (∃ (s : State) (m : Nat) (d : DtlMsg), (soundMsg d) ∧ (d.dtype = 0xF)) := by
  exact ⟨⟨({ svc with faults := { recovery := .quiesced } }), _, 1, ({ dtype := 0x0F, arg := 3 }), ⟨rfl, by simp only [soundMsg]; decide +kernel, by decide +kernel⟩⟩,
    ⟨({ obs [(0x5010, 0, 0, 3)] (jst job9) with faults := { recovery := .quiesced } }), _, 1, ({ dtype := 0x0F, arg := 4 }), ⟨rfl, by simp only [soundMsg]; decide +kernel, by decide +kernel⟩⟩,
    ⟨svc, 2, ({ dtype := 0xF, arg := 1 }), by simp only [soundMsg]; decide +kernel⟩⟩

/-- States that meet the hypotheses of ServiceAndBamurnCommandsComplete. -/
theorem witness_ServiceAndBamurnCommandsComplete :
    (∃ (s : State) (sess : Nat) (n : Nat), (n < 16) ∧ (s.writeGuard sess (0x9100 + n) 0xF = none) ∧ (s.obj (0x9100 + n) 0 = 0) ∧ (s.svcAreasOk ((List.range 14).map (fun i => s.obj (0x9100 + n) (i + 1))) = true)) ∧
    (∃ (s : State) (sess : Nat) (n : Nat), (n < 16) ∧ (s.writeGuard sess (0x9100 + n) 0xF = none) ∧ (s.obj (0x9100 + n) 0 = 0)) ∧
    (∃ (s : State) (sess : Nat) (n : Nat) (x : SvcReq), (n < 16) ∧ (s.writeGuard sess (0x9100 + n) 0xF = none) ∧ (s.obj (0x9100 + n) 0 = 2) ∧ ((s.svc n).stopAt = false) ∧ ((s.svc n).latch = none) ∧ (s.jobState (s.svcPart n) ≠ 3) ∧ (s.jobState (s.svcPart n) ≠ 4) ∧ ((s.svc n).waiting = [x]) ∧ ((s.svc n).active = []) ∧ ((s.svc n).frames = []) ∧ (x.lost = false) ∧ (x.askers = [])) ∧
    (∃ (s : State) (r : Request) (m : CborMap) (n : Nat) (seed : Nat) (prio : Nat) (e : Nat) (q : Nat) (slot : Nat), (s.requestMap r 1 [2] [9, 10] = some m) ∧ (uintOr m 2 16 16 = some n) ∧ (n < 16) ∧ (uintOr m 9 0 (2 ^ 64) = some seed) ∧ (uintOr m 10 128 256 = some prio) ∧ (s.answers n = true) ∧ (s.tenantOf r.client = some e) ∧ (s.openOf (teTenant e) < teMax e) ∧ (s.pickSlot.2 = some slot) ∧ ((s.ctx slot).st = .free) ∧ (q = s.svcPart n) ∧ (q ≤ 11) ∧ ((s.pool q).applied = true) ∧ ((s.pool q).hbm.front = []) ∧ ((s.pool q).hbm.back = []) ∧ ((s.pool q).hbm.next + 2 ≤ (s.pool q).hbm.size) ∧ (s.spans = [])) ∧
    (∃ (s : State) (r : Request) (m : CborMap) (v : Nat) (slot : Nat) (n : Nat) (tenant : Nat) (ts : List Nat), (s.requestMap r 2 [3, 4] [] = some m) ∧ (uintOf m 3 = some v) ∧ (arrayOr m 4 1 65536 (2 ^ 32 - 1) = some ts) ∧ (s.ctxFor r v = .ok (slot, n, tenant)) ∧ (s.reqOn slot = none) ∧ (Tbl.get s.lens 0 slot + ts.length ≤ s.svcVal n 8) ∧ ((s.svc n).waiting.length < s.svcVal n 9)) := by
  exact ⟨⟨(ssv 0 {}), 5, 0, by decide +kernel⟩,
    ⟨(ssv 0 { cfg := langCfg }), 5, 0, by decide +kernel⟩,
    ⟨(obs [(0x5010, 0, 0, 2)] (ssv 2 { cfg := langCfg, waiting := [rq3] })), 5, 0, rq3, by decide +kernel⟩,
    ⟨({ ssv 2 { cfg := langCfg } with ctxs := [] }), (rq 1 [(2, .uint 0), (9, .uint 5), (10, .uint 255)]), ([(0, .uint 1), (1, .uint 30), (2, .uint 0), (9, .uint 5), (10, .uint 255)]), 0, 5, 255, (77 * 2 ^ 128 + 6 * 2 ^ 96 + 2 * 2 ^ 64 + 50 * 2 ^ 56), _, ((State.pickSlot ({ ssv 2 { cfg := langCfg } with ctxs := [] })).2.getD 0), ⟨by decide +kernel, by decide +kernel, by decide, by decide +kernel, by decide +kernel, by decide +kernel, by decide +kernel, by decide +kernel, (pickSlot_free rfl).1, (pickSlot_free rfl).2, rfl, by decide +kernel, by decide +kernel, by decide +kernel, by decide +kernel, by decide +kernel, by decide +kernel⟩⟩,
    ⟨({ ssv 2 { cfg := langCfg } with lens := [(3, 998)] }), (rq 2 [(3, .uint 262147), (4, .array [7, 8])]), ([(0, .uint 2), (1, .uint 30), (3, .uint 262147), (4, .array [7, 8])]), 262147, 3, 0, 6, ([7, 8]), by decide +kernel⟩⟩

/-- States that meet the hypotheses of ServiceAndBamurnCommandsComplete. -/
theorem witness_ServiceAndBamurnCommandsComplete_2 :
    (∃ (s : State) (r : Request) (m : CborMap) (v : Nat) (k : Nat) (temp : Nat) (topP : Nat) (slot : Nat) (n : Nat) (tenant : Nat) (ts : List Nat) (stop : List Nat), (s.requestMap r 3 [3, 5] [4, 6, 7, 8] = some m) ∧ (uintOf m 3 = some v) ∧ (uintOf m 5 = some k) ∧ (arrayOr m 4 1 65536 (2 ^ 32 - 1) = some ts) ∧ (floatOr m 6 0x3F800000 0 0x40000000 = some temp) ∧ (floatOr m 7 0x3F800000 1 0x3F800000 = some topP) ∧ (arrayOr m 8 0 4 (2 ^ 32) = some stop) ∧ (1 ≤ k) ∧ (k ≤ 16383) ∧ (s.ctxFor r v = .ok (slot, n, tenant)) ∧ (s.reqOn slot = none) ∧ ((s.svc n).waiting.length < s.svcVal n 9)) ∧
    (∃ (s : State) (r : Request) (m : CborMap) (v : Nat) (slot : Nat) (n : Nat) (tenant : Nat) (x : SvcReq) (k : Nat), (s.requestMap r 4 [3] [] = some m) ∧ (uintOf m 3 = some v) ∧ (s.ctxFor r v = .ok (slot, n, tenant)) ∧ (s.reqOn slot = some (k, x)) ∧ (k < 16) ∧ ((s.svc k).waiting = [x]) ∧ ((s.svc k).active = []) ∧ (x.lastKey = none) ∧ (x.leave = none) ∧ (x.lost = false) ∧ (x.askers = [])) ∧
    (∃ (s : State) (r : Request) (m : CborMap) (v : Nat) (slot : Nat) (n : Nat) (tenant : Nat), (s.requestMap r 5 [3] [] = some m) ∧ (uintOf m 3 = some v) ∧ (s.ctxFor r v = .ok (slot, n, tenant)) ∧ (s.reqOn slot = none) ∧ ((s.ctx slot).st = .idle)) ∧
    (∃ (s : State) (r : Request) (m : CborMap) (n : Nat) (k : Nat) (b : List Byte), (s.requestMap r 6 [2, 11, 12] [] = some m) ∧ (uintOr m 2 16 16 = some n) ∧ (n < 16) ∧ (uintOr m 11 512 512 = some k) ∧ (k < 512) ∧ (keyOf m 12 = some (.bytes b)) ∧ (s.answers n = true) ∧ (s.svcVal n 1 = 2) ∧ (b.length = s.svcVal n 0xC) ∧ (∀ f, f ∈ (s.svc n).frames → f.stream ≠ k)) ∧
    (∃ (s : State) (r : Request) (m : CborMap) (e : Nat) (n : Nat), (s.requestMap r 7 [] [2, 3] = some m) ∧ (keyOf m 3 = none) ∧ (s.tenantOf r.client = some e) ∧ (n < 16) ∧ (keyOf m 2 = some (.uint n)) ∧ (s.answers n = true)) := by
  exact ⟨⟨(ssv 2 { cfg := langCfg }), (rq 3 [(3, .uint 262147), (5, .uint 1)]), ([(0, .uint 3), (1, .uint 30), (3, .uint 262147), (5, .uint 1)]), 262147, 1, 0x3F800000, 0x3F800000, 3, 0, 6, [], [], by decide +kernel⟩,
    ⟨(ssv 2 { cfg := langCfg, waiting := [rq3] }), (rq 4 [(3, .uint 262147)]), ([(0, .uint 4), (1, .uint 30), (3, .uint 262147)]), 262147, 3, 0, 6, rq3, 0, by decide +kernel⟩,
    ⟨(ssv 2 { cfg := langCfg }), (rq 5 [(3, .uint 262147)]), ([(0, .uint 5), (1, .uint 30), (3, .uint 262147)]), 262147, 3, 0, 6, by decide +kernel⟩,
    ⟨(ssv 2 { cfg := visCfg }), (rq 6 [(2, .uint 0), (11, .uint 511), (12, .bytes (List.replicate 64 1))]), ([(0, .uint 6), (1, .uint 30), (2, .uint 0), (11, .uint 511), (12, .bytes (List.replicate 64 1))]), 0, 511, (List.replicate 64 1), by decide +kernel⟩,
    ⟨(ssv 2 { cfg := langCfg, waiting := [rq3] }), (rq 7 [(2, .uint 0)]), ([(0, .uint 7), (1, .uint 30), (2, .uint 0)]), (77 * 2 ^ 128 + 6 * 2 ^ 96 + 2 * 2 ^ 64 + 50 * 2 ^ 56), 0, by decide +kernel⟩⟩

/-- States that meet the hypotheses of ServiceAndBamurnCommandsComplete. -/
theorem witness_ServiceAndBamurnCommandsComplete_3 :
    (∃ (s : State) (n : Nat) (q : Nat) (key : Nat) (k : Nat) (j : Job) (x : SvcReq), (s.obj (0x9100 + n) 0 = 2) ∧ (s.svcVal n 1 = 1) ∧ (q = s.svcPart n) ∧ (s.jobRuns q = true) ∧ (s.job q = some j) ∧ (key = s.entryKey n) ∧ (s.quietMemory) ∧ ((s.svc n).waiting = [x]) ∧ ((s.svc n).active = []) ∧ ((s.svc n).lanes = []) ∧ (x.leave = none) ∧ (1 ≤ s.svcVal n 5) ∧ (k = min (s.svcVal n 7) x.tokens.length) ∧ (k ≤ s.svcVal n 6)) ∧
    (∃ (s : State) (n : Nat) (tick : Nat) (q : Nat) (j : Job), (s.obj (0x9100 + n) 0 = 2) ∧ (s.svcVal n 1 = 2) ∧ (q = s.svcPart n) ∧ (s.jobRuns q = true) ∧ (s.job q = some j) ∧ (s.quietMemory)) ∧
    (∃ (s : State) (conn : Nat) (n : Nat) (x : SvcReq), (n < 16) ∧ ((s.svc n).waiting = [x]) ∧ ((s.svc n).active = []) ∧ (∀ k, k < 16 → k ≠ n → (s.svc k).waiting = [] ∧ (s.svc k).active = []) ∧ (x.client.conn = conn) ∧ (x.lastKey = none) ∧ (x.askers = [])) ∧
    (∃ (s : State) (slot : Nat), (slot < 262144) ∧ ((s.ctx slot).st = .idle) ∧ (s.reqOn slot = none) ∧ ((s.ctx slot).used + secTide * s.obj 0x9000 5 ≤ s.elapsed)) ∧
    (∃ (s : State) (n : Nat), (n < 16) ∧ (s.obj (0x9100 + n) 0 = 3) ∧ (s.faults.recoverAt + 5 * secTide ≤ s.elapsed)) := by
  exact ⟨⟨(ssv 2 { cfg := langCfg, waiting := [rq3] }), 0, _, _, _, ({ job9 with hdr := { jobId := 9, tiles := 2, ringOffset := 0x10000, ringLog2 := 4 } }), rq3, ⟨by decide +kernel, by decide +kernel, rfl, by decide +kernel, by decide +kernel, rfl, quiet_of ⟨rfl, rfl⟩, by decide +kernel, by decide +kernel, by decide +kernel, by decide, by decide +kernel, rfl, by decide +kernel⟩⟩,
    ⟨(ssv 2 { cfg := visCfg, frames := [{ stream := 3, client := client1, reqId := 30, bytes := List.replicate 64 1 }] }), 0, 7, _, ({ job9 with hdr := { jobId := 9, tiles := 2, ringOffset := 0x10000, ringLog2 := 4 } }), ⟨by decide +kernel, by decide +kernel, rfl, by decide +kernel, by decide +kernel, quiet_of ⟨rfl, rfl⟩⟩⟩,
    ⟨(ssv 2 { cfg := langCfg, waiting := [rq3] }), 2, 0, rq3, by decide +kernel⟩,
    ⟨({ ssv 2 { cfg := langCfg } with elapsed := secTide * 1000000 }), 3, by decide +kernel⟩,
    ⟨({ ssv 3 { cfg := langCfg, waiting := [rq3], lanes := [3] } with elapsed := 20000000000 }), 0, by decide +kernel⟩⟩

/-- States that meet the hypotheses of ServiceAndBamurnCommandsComplete. -/
theorem witness_ServiceAndBamurnCommandsComplete_4 :
    (∃ (s : State) (p : Path) (b : List Byte) (h : Nat) (cred : Nat), (s.sessionless p 1 b h) ∧ (b.length = 48) ∧ (hCount h = 0) ∧ (cred = leNat ((b.drop 16).take 1)) ∧ (leNat ((b.drop 17).take 15) = 0) ∧ (cred ≤ 15) ∧ (s.credState cred = 1) ∧ (s.bamurn.sessions.length < 16)) ∧
    (∃ (s : State) (p : Path) (b : List Byte) (h : Nat) (x : Session) (c : Credential), (s.portRequest p 3 b h) ∧ (hMac h = false) ∧ (s.bamurn.sessions.find? (fun x => x.number == hSession h && !x.authed) = some x) ∧ (Tbl.get s.sec.creds none x.credential = some c) ∧ (b.length = 48) ∧ (hCount h = 0) ∧ (x.failed = false) ∧ (b.drop 16 = s.proofOf x c.bytes)) ∧
    (∃ (s : State) (p : Path) (b : List Byte) (h : Nat) (x : Session), (s.inSession p 4 b h x) ∧ (b.length = 32) ∧ (hCount h = 0)) ∧
    (∃ (s : State) (p : Path) (b : List Byte) (h : Nat), (s.sessionless p 5 b h) ∧ (b.length = 16) ∧ (hCount h = 0)) ∧
    (∃ (s : State) (u : State) (v : State) (p : Path) (b : List Byte) (val : List Byte) (h : Nat) (w : Nat) (x : Session), (s.inSession p 0x10 b h x) ∧ (u = s.heard p) ∧ (hCount h = 1) ∧ (b.length = 36) ∧ (w = leNat (macBody b)) ∧ (fieldOf w 1 7 = 0) ∧ (u.readValue (hSession h) (iIndex w) (iSub w) (iPeek w) = (v, stOk, val)) ∧ (val.length ≤ 1400)) := by
  exact ⟨⟨svc, (.port 0), (openMsg 0), (headOf (openMsg 0)), 0, ⟨⟨⟨⟨0, {}, rfl⟩, taken_plain (by decide +kernel), by decide +kernel, rfl, by decide +kernel, by decide +kernel, by decide +kernel, by decide +kernel⟩, by decide +kernel, by decide +kernel⟩, by decide +kernel, by decide +kernel, by decide +kernel, by decide +kernel, by decide +kernel, by decide +kernel, by decide +kernel⟩⟩,
    ⟨hsv, (.port 0), (authHead ++ hsv.proofOf hand7 (Credential.bytes {})), (headOf authHead), hand7, {}, ⟨auth_request (proof_length _ _ _), by decide +kernel, by decide +kernel, by decide +kernel, by rw [List.length_append, proof_length]; rfl, by decide +kernel, rfl, List.drop_left' rfl⟩⟩,
    ⟨svc, (.port 0), (sign sess5 (hd 4 5 2 32 0)), (headOf (hd 4 5 2 32 0)), sess5, ⟨⟨signed (by decide +kernel), by decide +kernel, by decide +kernel⟩, by rw [sign_length]; decide, by decide +kernel⟩⟩,
    ⟨svc, (.port 0), (leBytes 16 (1 + 5 * 2 ^ 8 + 16 * 2 ^ 48)), (headOf (leBytes 16 (1 + 5 * 2 ^ 8 + 16 * 2 ^ 48))), ⟨⟨⟨⟨0, {}, rfl⟩, taken_plain (by decide +kernel), by decide +kernel, rfl, by decide +kernel, by decide +kernel, by decide +kernel, by decide +kernel⟩, by decide +kernel, by decide +kernel⟩, by decide +kernel, by decide +kernel⟩⟩,
    ⟨svc, _, (((svc.heard (.port 0)).readValue 5 0x200 1 false).1), (.port 0), (sign sess5 readMsg), (((svc.heard (.port 0)).readValue 5 0x200 1 false).2.2), (headOf readMsg), (leNat (readMsg.drop 16)), sess5, ⟨⟨signed (by decide +kernel), by decide +kernel, by decide +kernel⟩, rfl, by decide +kernel, by rw [sign_length]; decide, by rw [sign_body _ _ (by decide)], by decide +kernel, by decide +kernel, by decide +kernel⟩⟩⟩

/-- States that meet the hypotheses of ServiceAndBamurnCommandsComplete. -/
theorem witness_ServiceAndBamurnCommandsComplete_5 :
    (∃ (s : State) (u : State) (v : State) (p : Path) (b : List Byte) (h : Nat) (w : Nat) (vlen : Nat) (st : Nat) (x : Session), (s.inSession p 0x11 b h x) ∧ (u = s.heard p) ∧ (hCount h = 1) ∧ (w = leNat ((macBody b).take 8)) ∧ (vlen = fieldOf w 48 16) ∧ (vlen ≤ 1400) ∧ ((macBody b).length = 8 + (vlen + 3) / 4 * 4) ∧ (fieldOf w 1 7 = 0) ∧ (fieldOf w 40 8 = 0) ∧ (∀ a, a ∈ (macBody b).drop (8 + vlen) → a = 0) ∧ (u.writeValue (hSession h) (iIndex w) (iSub w) (fieldOf w 32 8) (((macBody b).drop 8).take vlen) = (v, st))) ∧
    (∃ (s : State) (u : State) (p : Path) (b : List Byte) (h : Nat) (w : Nat) (x : Session) (d : ObjDesc) (f : State × List Byte) (g : State), (s.inSession p 0x12 b h x) ∧ (u = s.heard p) ∧ (hCount h = 1) ∧ (b.length = 48) ∧ (w = leNat (macBody b)) ∧ (fieldOf w 2 6 = 0) ∧ (fieldOf w 40 8 = 0) ∧ (objAt (iIndex w) (iSub w) = some d) ∧ (u.readGuard (hSession h) (iIndex w) (iSub w) (iPeek w) = none) ∧ (f = u.fetch (iIndex w) (iSub w) d) ∧ (g = (if d.access = 6 ∧ iPeek w = false then f.1.cleared (iIndex w) (iSub w) d else f.1))) ∧
    (∃ (s : State) (u : State) (p : Path) (b : List Byte) (data : List Byte) (h : Nat) (w : Nat) (vlen : Nat) (x : Session) (d : ObjDesc) (r : State × Nat), (s.inSession p 0x13 b h x) ∧ (u = s.heard p) ∧ (hCount h = 1) ∧ (w = leNat ((macBody b).take 16)) ∧ (vlen = fieldOf w 48 16) ∧ (vlen ≤ 1392) ∧ ((macBody b).length = 16 + (vlen + 3) / 4 * 4) ∧ (fieldOf w 2 6 = 0) ∧ (fieldOf w 40 8 = 0) ∧ (∀ a, a ∈ (macBody b).drop (16 + vlen) → a = 0) ∧ (data = ((macBody b).drop 16).take vlen) ∧ (objAt (iIndex w) (iSub w) = some d) ∧ ((s.sessionOf (hSession h)).bind (fun y => y.block) = none) ∧ (u.writeGuard (hSession h) (iIndex w) (iSub w) = none) ∧ (blockFits d (fieldOf w 64 32) vlen = true) ∧ (fieldOf w 96 32 = vlen) ∧ (bitOf w 1 = true) ∧ (r = u.writeValue (hSession h) (iIndex w) (iSub w) (fieldOf w 32 8) (u.spliced d { index := iIndex w, sub := iSub w, ty := fieldOf w 32 8, offset := fieldOf w 64 32, total := vlen, data := data }))) ∧
    (∃ (s : State) (p : Path) (b : List Byte) (h : Nat) (w : Nat) (d : ObjDesc), (s.sessionless p 0x14 b h) ∧ (hCount h = 1) ∧ (b.length = 20) ∧ (w = leNat (b.drop 16)) ∧ (fieldOf w 1 7 = 0) ∧ (objAt (iIndex w) (iSub w) = some d) ∧ (s.device.mode ≠ .safe)) ∧
    (∃ (s : State) (src : Nat) (h : Nat) (j : Nat) (f : MgmtFrame) (b : List Byte), (16 ≤ b.length) ∧ (h = headOf b) ∧ (hVersion h = 1) ∧ (hRelay h = true) ∧ (hPortRelay h = false) ∧ (s.takesFrame f b.length = true) ∧ (hResponse h = false) ∧ (hTarget h ≠ s.obj 0x4000 0) ∧ (s.routePort (hTarget h) = some j)) := by
  exact ⟨⟨svc, _, _, (.port 0), (sign sess5 writeMsg), (headOf writeMsg), (leNat ((writeMsg.drop 16).take 8)), 2, _, sess5, ⟨⟨signed (by decide +kernel), by decide +kernel, by decide +kernel⟩, rfl, by decide +kernel, by rw [sign_body _ _ (by decide)], by decide +kernel, by decide, by rw [sign_body _ _ (by decide)]; decide +kernel, by decide +kernel, by decide +kernel, by rw [sign_body _ _ (by decide)]; decide +kernel, Prod.mk.eta.symm⟩⟩,
    ⟨svc, _, (.port 0), (sign sess5 readBlockMsg), (headOf readBlockMsg), (leNat (readBlockMsg.drop 16)), sess5, (⟨0x0200, 1, 0x01, "session_idle_s", 3, 3, 0, 2, 10, 3600, true⟩), _, _, ⟨⟨signed (by decide +kernel), by decide +kernel, by decide +kernel⟩, rfl, by decide +kernel, by rw [sign_length]; decide, by rw [sign_body _ _ (by decide)], by decide +kernel, by decide +kernel, by decide +kernel, by decide +kernel, rfl, rfl⟩⟩,
    ⟨svc, _, (.port 0), (sign sess5 writeBlockMsg), _, (headOf writeBlockMsg), (leNat ((writeBlockMsg.drop 16).take 16)), 2, sess5, (⟨0x0200, 1, 0x01, "session_idle_s", 3, 3, 0, 2, 10, 3600, true⟩), _, ⟨⟨signed (by decide +kernel), by decide +kernel, by decide +kernel⟩, rfl, by decide +kernel, by rw [sign_body _ _ (by decide)], by decide +kernel, by decide, by rw [sign_body _ _ (by decide)]; decide +kernel, by decide +kernel, by decide +kernel, by rw [sign_body _ _ (by decide)]; decide +kernel, rfl, by decide +kernel, by decide +kernel, by decide +kernel, by decide +kernel, by decide +kernel, by decide +kernel, rfl⟩⟩,
    ⟨svc, (.port 0), describeMsg, (headOf describeMsg), _, (⟨0x0200, 1, 0x01, "session_idle_s", 3, 3, 0, 2, 10, 3600, true⟩), ⟨⟨⟨⟨0, {}, rfl⟩, taken_plain (by decide +kernel), by decide +kernel, rfl, by decide +kernel, by decide +kernel, by decide +kernel, by decide +kernel⟩, by decide +kernel, by decide +kernel⟩, by decide +kernel, by decide +kernel, rfl, by decide +kernel, by decide +kernel, by decide +kernel⟩⟩,
    ⟨(obs [(0x4000, 4, 4, 4)] svc), 1, _, 2, {}, (leBytes 16 (1 + 5 * 2 ^ 8 + 2 ^ 34 + 0 + 16 * 2 ^ 48 + 4 * 2 ^ 72)), ⟨by decide +kernel, rfl, by decide +kernel, by decide +kernel, by decide +kernel, by decide +kernel, by decide +kernel, by decide +kernel, by decide +kernel⟩⟩⟩

/-- States that meet the hypotheses of ServiceAndBamurnCommandsComplete. -/
theorem witness_ServiceAndBamurnCommandsComplete_6 :
    (∃ (s : State) (sess : Nat) (n : Nat), (s.writeGuard sess 0x0200 3 = none) ∧ (∃ y, y ∈ s.bamurn.sessions ∧ y.number = n) ∧ (n = sess ∨ s.holds sess rSecurity = true)) ∧
    (∃ (s : State) (cred : Nat) (h : Nat), ((cred, h) ∈ s.bamurn.locked) ∧ (h ≤ s.elapsed)) := by
  exact ⟨⟨svc, 5, 5, ⟨by decide +kernel, ⟨sess5, List.mem_singleton_self _, rfl⟩, .inl rfl⟩⟩,
    ⟨({ svc with bamurn := { locked := [(3, 0)] } }), 3, 0, by decide +kernel⟩⟩

/-- States that meet the hypotheses of FaultAndScourCommandsComplete. -/
theorem witness_FaultAndScourCommandsComplete :
    (∃ (s : State) (r : Report) (e : Nat), (e < 255) ∧ (s.levee e = none) ∧ (∀ i, i < e → s.levee i ≠ none) ∧ (∀ i x, i < 255 → s.levee i = some x → x.suspect ≠ reportKey r ∨ x.cls ≠ r.cls)) ∧
    (∃ (s : State) (e : Nat) (x : LeveeRec), (s.levee e = some x) ∧ (x.firstAt + ((x.aboveAt - x.firstAt) / msTide + 11) * msTide ≤ s.elapsed)) ∧
    (∃ (s : State) (e : Nat) (x : LeveeRec), (s.levee e = some x) ∧ (x.noticed < x.count) ∧ (x.noticeAt + 10 * msTide ≤ s.elapsed)) ∧
    (∃ (s : State) (e : Nat) (x : LeveeRec), (s.levee e = some x) ∧ (x.count = x.noticed) ∧ (x.lastAt + secTide ≤ s.elapsed)) ∧
    (∃ (s : State), (s.power.closed = false)) := by
  exact ⟨⟨svc, rep1, 0, ⟨by decide, by decide +kernel, fun i hi => absurd hi (by omega), fun i x _ h => by cases h⟩⟩,
    ⟨({ logOf 2 (fun x => { x with active := true, storm := true }) with elapsed := 11 * msTide }), 1, ({ lrec with active := true, storm := true }), by decide +kernel⟩,
    ⟨({ logOf 2 (fun x => { x with count := 5 }) with elapsed := 10 * msTide }), 1, ({ lrec with count := 5 }), by decide +kernel⟩,
    ⟨({ logOf 2 id with elapsed := secTide }), 1, lrec, by decide +kernel⟩,
    ⟨svc, by decide +kernel⟩⟩

/-- States that meet the hypotheses of FaultAndScourCommandsComplete. -/
theorem witness_FaultAndScourCommandsComplete_2 :
    (∃ (s : State) (q : Nat) (ok : Bool) (j : Job), (s.job q = some j) ∧ (s.dogFired q = true) ∧ (s.jobState q = 3) ∧ (s.controlOk q ok = true) ∧ (j.dogStep ≠ some (s.step' q)) ∧ (s.obj (0x6030 + q) 2 < 3)) ∧
    (∃ (s : State) (m : CtrlMsg) (q : Nat) (j : Job), (s.partitionOfJob (mJobId m) = some q) ∧ (s.job q = some j) ∧ (ctrlOk 0x20 m = true) ∧ (s.before' q (mStep m) j = false) ∧ (s.jobState q = 3) ∧ (s.step' q = mStep m) ∧ (s.obj (0x6030 + q) 2 < 3)) ∧
    (∃ (s : State) (m : CtrlMsg) (q : Nat) (j : Job), (s.partitionOfJob (mJobId m) = some q) ∧ (s.job q = some j) ∧ (ctrlOk 0x21 m = true) ∧ (s.step' q = mStep m) ∧ (j.selfDone = false)) ∧
    (∃ (s : State) (q : Nat) (j : Job) (d : Nat), (s.job q = some j) ∧ (s.jobState q = 4) ∧ (s.drainPast q = true) ∧ (j.selfDone = true) ∧ (d ∈ s.members q) ∧ (d ∉ j.drained)) ∧
    (∃ (s : State) (m : CtrlMsg) (q : Nat) (j : Job), (s.partitionOfJob (mJobId m) = some q) ∧ (s.job q = some j) ∧ (ctrlOk 0x22 m = true) ∧ (s.jobState q = 1 ∨ s.jobState q = 2 ∨ s.jobState q = 3 ∨ s.jobState q = 4)) := by
  exact ⟨⟨(obs [(0x5010, 0, 0, 3), (tileIx 0, 0x30, 1, 5)] (jst job9)), 0, true, job9, by decide +kernel⟩,
    ⟨(obs [(0x5010, 0, 0, 3)] (jst job9)), ({ mtype := 0x20, src := 4, body := BitVec.ofNat 224 (9 * 2 ^ 208 + 0 * 2 ^ 144 + 3 * 2 ^ 136) }), 0, job9, by decide +kernel⟩,
    ⟨(obs [(0x5010, 0, 0, 4)] (jst job9)), ({ mtype := 0x20, src := 4, body := BitVec.ofNat 224 (9 * 2 ^ 208 + 0 * 2 ^ 144) }), 0, job9, by decide +kernel⟩,
    ⟨({ obs [(0x5010, 0, 0, 4)] (jst { job9 with barrier := true, group := 16, selfDone := true }) with elapsed := 2 ^ 50 }), 0, ({ job9 with barrier := true, group := 16, selfDone := true }), 4, by decide +kernel⟩,
    ⟨(obs [(0x5010, 0, 0, 1)] (jst job9)), ({ mtype := 0x20, src := 4, body := BitVec.ofNat 224 (9 * 2 ^ 208 + 0 * 2 ^ 144 + 3 * 2 ^ 136) }), 0, job9, by decide +kernel⟩⟩

/-- States that meet the hypotheses of FaultAndScourCommandsComplete. -/
theorem witness_FaultAndScourCommandsComplete_3 :
    (∃ (s : State) (m : CtrlMsg), (ctrlOk 0x23 m = true) ∧ (∀ q, q < 12 → m.src ∉ s.members q) ∧ (∀ q, q < 12 → (s.disp q).tokens = [] ∧ (s.disp q).queue = [])) ∧
    (∃ (s : State) (m : CtrlMsg), (ctrlOk 0x24 m = true)) ∧
    (∃ (s : State) (sess : Nat), (s.writeGuard sess 0x6020 0 = none) ∧ (s.device.mode = .service ∨ s.device.mode = .test)) ∧
    (∃ (s : State) (sess : Nat) (code : Nat), (s.writeGuard sess 0x6010 2 = none) ∧ (∃ h, h ∈ s.faults.history ∧ h.suspect = code)) ∧
    (∃ (s : State) (sess : Nat) (ok : Bool) (b : List Byte), (s.writeGuard sess 0x6041 3 = none) ∧ (s.pkg.staged = some b)) := by
  exact ⟨⟨(obs [(0x5010, 0, 0, 3)] (jst job9)), ({ mtype := 0x20, src := 4, body := BitVec.ofNat 224 (9 * 2 ^ 208 + 0 * 2 ^ 144) }), by decide +kernel⟩,
    ⟨({ svc with faults := { peersClosed := [4, 5] } }), ({ mtype := 0x20, src := 4, body := BitVec.ofNat 224 (9 * 2 ^ 208 + 0 * 2 ^ 144) }), by decide +kernel⟩,
    ⟨(dev .service), 5, by decide +kernel⟩,
    ⟨({ svc with faults := { history := [{ suspect := 3, cls := 1 }] } }), 5, 3, by decide +kernel⟩,
    ⟨({ svc with pkg := { staged := some [0] } }), 5, true, [0], by decide +kernel⟩⟩

/-- States that meet the hypotheses of FaultAndScourCommandsComplete. -/
theorem witness_FaultAndScourCommandsComplete_4 :
    (∃ (s : State) (n : Nat) (c : Nat), (s.obj 0x6040 0 ≠ 0) ∧ (Tbl.get s.chunks none (s.scourGroup n) = none) ∧ (s.scourable n = true) ∧ (s.scourFirst n = true) ∧ (s.plane (clusterOf n) = 2) ∧ (s.nextChunk n = some c)) ∧
    (∃ (s : State) (q : Nat) (j : Job), (s.job q = some j) ∧ (s.obj 0x6040 0 = 1) ∧ (s.insertDue q j = true) ∧ (j.scourHold = false) ∧ (Tbl.get s.chunks none q = none)) ∧
    (∃ (s : State) (n : Nat) (g : Nat) (k : Chunk), (s.chunkOn n = some (g, k)) ∧ (k.startAt + nsTide 16000 ≤ s.elapsed)) ∧
    (∃ (s : State) (n : Nat) (g : Nat) (crc : Nat) (bad : List (Nat × Nat)) (k : Chunk), (s.chunkOn n = some (g, k)) ∧ (k.window < 25) ∧ (k.old = false) ∧ ((s.job g).elim false (fun j => j.scourHold) = false) ∧ (k.stopped = false) ∧ (k.kind ≠ 1) ∧ ((Tbl.get s.scour {} n).again = false)) ∧
    (∃ (s : State) (q : Nat) (w : TwinRun) (j : Job) (p : List (BitVec 64)), (q < 12) ∧ (s.job q = some j) ∧ (j.twin = some w) ∧ (s.primaryDigest w = some p) ∧ (w.differs = none) ∧ (s.twinComplete w = true) ∧ (w.twin < 1224) ∧ (w.primary < 1224) ∧ (p = (s.tile w.twin).digest) ∧ (w.held = false)) := by
  exact ⟨⟨({ obs [(0x6040, 0, 0, 1), (0x1040, 0, 0, 2), (tileIx 0, 0, 0, 1)] svc with pkg := { active := some pkg1 }, scour := [(0, { counter := 24 })] }), 0, 0, by decide +kernel⟩,
    ⟨({ obs [(0x6040, 0, 0, 1), (0x5010, 0, 0, 3)] (jst job9) with elapsed := 2 ^ 50 }), 0, job9, by decide +kernel⟩,
    ⟨({ svc with chunks := [(12, some chunk1)], elapsed := 64000 }), 0, 12, chunk1, by decide +kernel⟩,
    ⟨({ svc with chunks := [(12, some chunk1)], scour := [(0, {})], pkg := { active := some pkg1 } }), 0, 12, 7, [], chunk1, by decide +kernel⟩,
    ⟨(State.modTile (jst ({ job9 with twin := some { twin1 with started := true, prim := some [3] } })) 5 (fun x => { x with digest := [3] })), 0, ({ twin1 with started := true, prim := some [3] }), ({ job9 with twin := some { twin1 with started := true, prim := some [3] } }), [3], by decide +kernel⟩⟩

/-- States that meet the hypotheses of FaultAndScourCommandsComplete. -/
theorem witness_FaultAndScourCommandsComplete_5 :
    (∃ (s : State) (q : Nat) (w : TwinRun) (j : Job), (s.job q = some j) ∧ (j.twin = some w) ∧ (w.held = true) ∧ (w.heldAt + msTide * s.obj 0x6050 2 ≤ s.elapsed) ∧ (s.twinComplete w = false) ∧ (w.twin < 1224) ∧ (s.jobState q ≠ 3)) ∧
    (∃ (s : State) (sess : Nat) (v : Nat), (s.writeGuard sess 0x6060 1 = none) ∧ (v < 0x80000000) ∧ (s.ufr v ≠ none)) := by
  exact ⟨⟨({ obs [(0x5010, 0, 0, 2)] (jst ({ job9 with twin := some { twin1 with held := true } })) with elapsed := 2 ^ 50 }), 0, ({ twin1 with held := true }), ({ job9 with twin := some { twin1 with held := true } }), by decide +kernel⟩,
    ⟨({ svc with ufrs := [{ kind := 1, seq := 4, suspect := 3, cls := 1 }] }), 5, 4, by decide +kernel⟩⟩

/-- States that meet the hypotheses of SecurityCommandsComplete. -/
theorem witness_SecurityCommandsComplete :
    (∃ (s : State) (sess : Nat) (ok : Bool) (b : List Byte), (s.writeGuard sess 0x7060 3 = none) ∧ (s.sec.staged = some b) ∧ (s.sec.images.length = 2) ∧ (s.updateFlash < 2) ∧ (s.bamurn.flash.ok = true) ∧ (s.bamurn.flash.inSecond < 100)) ∧
    (∃ (s : State) (sess : Nat) (v : Nat), (s.writeGuard sess 0x8000 2 = none) ∧ (s.obj 0x8000 1 < v) ∧ (v ≤ imageSvn (s.imageBytes s.running))) ∧
    (∃ (s : State) (sess : Nat) (k : Nat) (r : Nat) (v : BitVec 320), (s.writeGuard sess 0x8000 4 = none) ∧ (k = fieldOf v.toNat 0 8) ∧ (r = fieldOf v.toNat 32 32) ∧ (fieldOf v.toNat 8 24 = 0) ∧ (k ≤ 15) ∧ (r < 64) ∧ (s.securityLeft k r = true)) ∧
    (∃ (s : State) (sess : Nat) (value : List Byte), (s.writeGuard sess 0x8010 2 = none) ∧ (∃ q nonce, value = q :: nonce ∧ (q.toNat < 12 ∨ q.toNat = 0xFF) ∧ 16 ≤ nonce.length ∧ nonce.length ≤ 64)) ∧
    (∃ (s : State) (q : Nat) (nonce : List Byte) (rest : List (Nat × List Byte)), (s.sec.attests = (q, nonce) :: rest)) ∧
    (∃ (s : State) (sess : Nat), (s.writeGuard sess 0x8020 0 = none)) ∧
    (∃ (s : State) (sess : Nat) (chain : List Byte), (s.writeGuard sess 0x8020 2 = none) ∧ (chain.length ≤ 8192) ∧ (s.bamurn.flash.ok = true) ∧ (s.bamurn.flash.inSecond < 100)) ∧
    (∃ (s : State) (sess : Nat) (n : Nat) (bank : Nat) (row : Nat) (count : Nat) (v : BitVec 64), (s.writeGuard sess 0x8030 1 = none) ∧ (n = fieldOf v.toNat 48 16) ∧ (bank = fieldOf v.toNat 44 4) ∧ (row = fieldOf v.toNat 34 10) ∧ (count = fieldOf v.toNat 28 6) ∧ (n ∈ s.sec.held) ∧ (fieldOf v.toNat 0 28 = 0) ∧ (bank ≤ 11) ∧ (1 ≤ count) ∧ (count ≤ 32) ∧ (row + count ≤ 1024)) ∧
    (∃ (s : State) (sess : Nat) (n : Nat), (s.writeGuard sess 0x8030 3 = none) ∧ (n < 1224)) ∧
    (∃ (s : State), (s.stagePast 10000 = true)) ∧
    (∃ (s : State) (sess : Nat) (token : List Byte) (c : List Byte), (s.writeGuard sess 0x8040 2 = none) ∧ (s.device.mode = .test ∨ s.device.mode = .safe) ∧ (s.sec.challenge = some c)) ∧
    (∃ (s : State) (h : Nat), ((s.server (.stack h)).dead = false) ∧ ((s.server (.stack h)).merges = []) ∧ ((s.server (.stack h)).waiting = []) ∧ ((s.server (.stack h)).dtl = [])) ∧
    (∃ (s : State) (k : Nat) (hop : Nat) (p : Packet), (s.obj 0x4000 0 ≠ 0xFFFF) ∧ (s.device.mode ≠ .safe) ∧ ((s.port k).egress = []) ∧ ((s.port k).ingress = []) ∧ ((s.port k).stuck = []) ∧ ((s.port k).stalled = none) ∧ (s.mayLeave k hop p = true)) ∧
    (∃ (s : State) (m : Nat), (m < 8) ∧ (s.obj (0x3210 + m) 0 = 2) ∧ ((s.ucie m).stalled = none)) ∧
    (∃ (s : State) (m : Nat), (m < 8) ∧ (s.obj (0x3210 + m) 0 = 1) ∧ ((s.ucie m).waiting = [])) := by
  exact ⟨⟨({ svc with sec := { staged := some [1, 2] } }), 5, true, ([1, 2]), by decide +kernel⟩,
    ⟨({ svc with sec := { images := [some (List.replicate 19 0 ++ [1] ++ List.replicate 12 0)] } }), 5, 1, by decide +kernel⟩,
    ⟨svc, 5, _, _, (BitVec.ofNat 320 (15 + 0 * 2 ^ 8 + 63 * 2 ^ 32 + 7 * 2 ^ 64)), ⟨by decide +kernel, rfl, rfl, by decide +kernel, by decide +kernel, by decide +kernel, by decide +kernel⟩⟩,
    ⟨svc, 5, (0 :: List.replicate 16 0), ⟨by decide +kernel, 0, List.replicate 16 0, rfl, by decide⟩⟩,
    ⟨({ svc with sec := { attests := [(255, List.replicate 16 0)] } }), 255, (List.replicate 16 0), [], by decide +kernel⟩,
    ⟨svc, 5, by decide +kernel⟩,
    ⟨svc, 5, [1], by decide +kernel⟩,
    ⟨({ svc with sec := { held := [3] } }), 5, _, _, _, _, (BitVec.ofNat 64 (3 * 2 ^ 48 + 0 * 2 ^ 44 + 0 * 2 ^ 34 + 1 * 2 ^ 28 + 0)), ⟨by decide +kernel, rfl, rfl, rfl, rfl, by decide +kernel, by decide +kernel, by decide +kernel, by decide +kernel, by decide +kernel, by decide +kernel⟩⟩,
    ⟨({ svc with sec := { held := [3] } }), 5, 0, by decide +kernel⟩,
    ⟨({ svc with sec := { held := [3, 1223] }, elapsed := 40000000000 }), by decide +kernel⟩,
    ⟨({ dev .test with sec := { challenge := some [1] } }), 5, [], [1], by decide +kernel⟩,
    ⟨svc, 11, by decide +kernel⟩,
    ⟨(obs [(0x4000,0,0,3),(0x4011,1,0,2)] svc), 1, 1, ({ ptype := .write, rows := 2, data := [0, 0] }), by decide +kernel⟩,
    ⟨(obs [(0x3212, 0, 0, 2), (0x3200, 0, 0, 255)] svc), 2, by decide +kernel⟩,
    ⟨(obs [(0x3212, 0, 0, 1)] svc), 2, by decide +kernel⟩⟩

/-! ### Operands out of range are refused -/

theorem test_wf_numbers :
    isSession 0xFFFF = true ∧ isSession 0x10000 = false ∧ isU8 255 = true ∧ isU8 256 = false ∧ isU16 65535 = true ∧ isU16 65536 = false ∧ isU32 (2 ^ 32 - 1) = true ∧ isU32 (2 ^ 32) = false := by decide

theorem test_wf_units :
    isTile 1223 = true ∧ isTile 1224 = false ∧ isCluster 89 = true ∧ isCluster 90 = false ∧ isField 5 = true ∧ isField 6 = false ∧ isPartition 11 = true ∧ isPartition 12 = false ∧ isQueue 3 = true ∧ isQueue 4 = false := by decide

theorem test_wf_memory :
    isStack 11 = true ∧ isStack 12 = false ∧ isChannel 15 = true ∧ isChannel 16 = false ∧ isSlot 262143 = true ∧ isSlot 262144 = false ∧ isEntry 255 = true ∧ isEntry 256 = false := by decide

theorem test_wf_links :
    isPort 15 = true ∧ isPort 16 = false ∧ isLane 4 = true ∧ isLane 5 = false ∧ isHop 3 = true ∧ isHop 4 = false ∧ isInput 11 = true ∧ isInput 12 = false ∧ isModule 7 = true ∧ isModule 8 = false := by decide

theorem test_wf_service : isService 15 = true ∧ isService 16 = false ∧ isCredential 15 = true ∧ isCredential 16 = false := by decide

theorem test_wf_packet : Packet.wf {} = true ∧ Packet.wf { rows := 16 } = false ∧ Packet.wf { tag := 64 } = false ∧ Packet.wf { sigGauge := 128 } = false := by decide

theorem test_wf_leg : Leg.wf { vc := 2, legX := 63, legY := 31 } = true ∧ Leg.wf { vc := 3, legX := 0, legY := 0 } = false := by decide

theorem test_wf_contest : (Instr.pass 0 0 [⟨11, 7, [0, 4]⟩]).wf = true ∧ (Instr.pass 0 0 [⟨12, 7, [0, 4]⟩]).wf = false ∧ (Instr.pass 0 0 [⟨11, 7, [0, 5]⟩]).wf = false ∧ (Instr.pass 0 0 [⟨11, 7, [0, 0]⟩]).wf = false := by decide

theorem test_wf_ctrl : CtrlMsg.wf { hops := 15 } = true ∧ CtrlMsg.wf { hops := 16 } = false := by decide

theorem test_wf_mgmt : MgmtUnit.wf { length := 65535 } = true ∧ MgmtUnit.wf { length := 65536 } = false := by decide

theorem test_wf_flit : Flit.wf { ctl := 0, slots := [0, 0, 0, 0] } = true ∧ Flit.wf { ctl := 0, slots := [0] } = false := by decide

theorem test_wf_dtl : DtlMsg.wf { partition := 15 } = true ∧ DtlMsg.wf { partition := 16 } = false ∧ DtlMsg.wf { dtag := 4096 } = false := by decide

theorem test_wf_frame : EthFrame.wf { bytes := List.replicate 64 0 } = true ∧ EthFrame.wf { bytes := List.replicate 9217 0 } = false := by
  constructor
  · decide +kernel
  · rw [EthFrame.wf, List.length_replicate]; decide

theorem test_wf_path : Path.wf (.link 15 255 false) = true ∧ Path.wf (.link 16 0 false) = false := by decide

theorem test_wf_rail : Rail.wf (.vl 89) = true ∧ Rail.wf (.vl 90) = false ∧ Rail.wf (.vs 4) = false ∧ Rail.wf (.dimm 16) = false := by decide

theorem test_wf_phy : PhyUnit.wf (.port 15) = true ∧ PhyUnit.wf (.stack 12) = false := by decide

theorem test_wf_server : Server.wf (.stack 11) = true ∧ Server.wf (.channel 16) = false := by decide

theorem test_wf_domain : Domain.wf (.cluster 89) = true ∧ Domain.wf (.partition 12) = false := by decide

theorem test_wf_report : Suspect.wf ⟨15, 4095⟩ = true ∧ Suspect.wf ⟨16, 0⟩ = false ∧ Report.wf rep1 = true ∧ Report.wf { rep1 with partition := 16 } = false := by decide

theorem test_wf_busconv : (Instr.busconvLost 3).wf = true ∧ (Instr.busconvLost 4).wf = false := by decide

/-! ### Worked examples of spec/ -/

/-- 01_module_and_floor_plan.md, naming two positions. -/
theorem test_positions : posOf 37 14 = 751 ∧ fieldNo 751 = 5 ∧ clusterOf 751 = 60 ∧ tileIx 751 = 0x23EF ∧ clusterOf (posOf 50 20) = 89 ∧ isReserveCol (posOf 50 20) = true := by decide +kernel

/-- 04_scratchpad_and_mover.md: encoding, one correction. -/
theorem test_codeword :
    checkNibbles (BitVec.ofNat 256 (3 + 5 * 2 ^ 84)) = 0x923D ∧
    decodeWord (encodeRow (BitVec.ofNat 256 (3 + 5 * 2 ^ 84)) ^^^ BitVec.ofNat 272 (3 * 2 ^ 85)) = .corrected (BitVec.ofNat 256 (3 + 5 * 2 ^ 84)) := by decide +kernel

/-- The same, a second fault: detected. -/
theorem test_codeword_bad : decodeWord (encodeRow (BitVec.ofNat 256 (3 + 5 * 2 ^ 84)) ^^^ BitVec.ofNat 272 (3 * 2 ^ 85 + 1)) = .bad := by decide +kernel

/-- 13_memory_tiers.md, decoding one address. -/
theorem test_hbm_address :
    hbmStack 0x4300400000 = 2 ∧ hbmChannel 0x4300400000 = 12 ∧ hbmPseudo 0x4300400000 % 64 = 25 ∧ hbmBank 0x4300400000 = 3 ∧ hbmRow 0x4300400000 = 32 ∧ hbmPortOf 0x4300400000 = posOf 20 0 := by decide +kernel

/-- 02_number_formats.md: one M4 block with two outliers, its fold and its correction. -/
theorem test_fold : (fusedStep 0 (-16) (-2)).1 = 0xC0800000#32 ∧ (fusedStep 0xC0800000#32 (-38) (-2)).1 = 0xC1580000#32 := by decide +kernel

/-- The same block's spill word: +23 at index 2, -19 at index 14. -/
theorem test_spill : spillEntries 16 0x8EED8217 = ([(2, 23), (14, -19)], false) := by decide +kernel

/-- 02_number_formats.md: stochastic rounding of 5.25 under amax 10.5. -/
theorem test_rounding :
    scaleCode 0 [0x41280000#32, 0x40A80000#32] = 0x80 ∧ (requantElem 0 0x80 0x40A80000#32 (some 0x9C4000)).1 = 3 ∧ (requantElem 0 0x80 0x40A80000#32 (some 0xB00000)).1 = 2
      ∧ (requantElem 0 0x80 0x40A80000#32 none).1 = 3 := by decide +kernel

/-- 16_object_dictionary.md, a mailbox read: the request, and the head and second item of its response. -/
def mailboxRead : List Byte :=
  [0x01, 0x10, 0x31, 0, 0, 0, 0x18, 0, 2, 0, 0xFF, 0xFF, 5, 1, 0, 0, 0, 0, 2, 1, 1, 9, 0x12, 0x50]

theorem test_mailbox_read :
    (match exec (.bamRead .mailbox mailboxRead) (obs [(0x5012, 9, 0, 0x733)] svc) with
      | .next t => (match t.sent with
        | [.bytes .mailbox r] => some (r.take 16, r.drop 28, t.obj 0x5012 9)
        | _ => none)
      | _ => none)
    = some ([0x01, 0x10, 0x31, 0, 1, 0, 0x2C, 0, 2, 0, 0xFF, 0xFF, 5, 1, 0, 0], [1, 9, 0x12, 0x50, 5, 0, 8, 0, 0x33, 7, 0, 0, 0, 0, 0, 0], 0x733) := by decide +kernel

/-- 05_command_queues.md: the words of one stage. SET_HANDLE writes entry 1 of the handle table. -/
theorem test_set_handle :
    (match exec (.setHandle 0 0) (head 3 0x4000000000000001C080030600000000 svc) with
      | .next t => t.obj (tileIx 0) 0x20 1
      | _ => 0) = 0xC080030600000000 := by decide +kernel

/-- The entry wait of q-array, before the step's signal and after it. -/
theorem test_wait :
    (match exec (.wait 0 0 0) (head 0 0x01800001000000010000000000000000 svc) with
      | .next t => t.qPc 0 0
      | _ => 0) = 4 ∧
    (match exec (.wait 0 0 0) ((head 0 0x01800001000000010000000000000000 svc).modTile 0 (fun t => { t with gau := { t.gau with gauges := [(0, { value := 1 })] } })) with
      | .next t => t.qPc 0 0
      | _ => 0) = 5 := by decide +kernel

/-- A step runs the command in front and leaves the queue's rest; an empty queue ticks. -/
theorem test_step : (match step { svc with pending := [.debugHoldExpiry, .attestSigned] } with
    | .next t => t.pending
    | _ => []) = [.attestSigned] := by decide +kernel

theorem test_tick : (match step svc with
    | .next t => t.tide
    | _ => 0) = svc.tide + 1 := by decide +kernel

end Sys2Proof.Tests
end

section
/-! PROOF. The state after reset, and which writes to CMD objects the checks of R396 refuse (00_scope.md). -/

namespace Sys2Proof.Machine

/-! ### The state after reset -/

/-- After reset no partition holds a job. -/
theorem State.jobState_reset {q : Nat} (h : q < 12) : State.reset.jobState q = jsNone := by
  have all : ∀ q < 12, State.reset.jobState q = jsNone := by decide
  exact all q h

/-- After reset HBM, DDR5 and the register file, which list nothing, are in canonical form. -/
theorem Memory.wf_reset : Memory.wf State.reset = true :=
  (Memory.wf_iff _).2 ⟨Memory.wf_reset_tables.1, Memory.wf_reset_tables.2, Tbl.wf_nil _⟩

/-- Settles O2: every field is the one `State.reset` gives it; an unlisted register reads its default. -/
theorem resetIsUnpoweredAndCanonical : Obligations.ResetIsUnpoweredAndCanonical :=
  ⟨rfl, rfl, rfl, rfl, rfl, rfl, rfl, rfl, rfl, fun _ => rfl, fun _ => rfl, fun _ => State.jobState_reset,
    fun _ => rfl, Memory.wf_reset⟩

/-! ### A write without the WRITE right that the checks pass -/

/-- A module in SERVICE whose one session, 5, holds PERSIST and no other right (R387). -/
def persistSession : State :=
  { State.reset with device := { mode := .service },
                     bamurn := { sessions := [{ number := 5, credential := 0, rights := 4, authed := true, path := .port 0 }] } }

/-- PARTITION_APPLY of partition number 64 addresses object 5040:08, barrier_enable, which is no CMD object but an RWP one and asks for PERSIST in place of WRITE: session 5 passes every check. -/
theorem writeGuard_persistSession : persistSession.writeGuard 5 (0x5000 + 64) 8 = none := by decide +kernel

/-- The rule of an apply then runs: with no cluster written, partition number 64 is unconfigured with OK. -/
theorem rulePartitionApply_persistSession : (rulePartitionApply 64 1 persistSession).2 = stOk := by decide +kernel

/-- Refutes O5: its second clause fails where a partition number beyond the twelve turns PARTITION_APPLY into a write to an RWP object. Partition number 64 addresses object 5040:08, whose right is PERSIST, so a session with PERSIST and without WRITE is answered OK, not ACCESS_DENIED. -/
theorem not_refusedWriteHasNoEffect : ¬ Obligations.RefusedWriteHasNoEffect := by
  rintro ⟨-, denied⟩
  obtain ⟨t, run, sent⟩ := denied (.partitionApply 5 64) persistSession 5 (0x5000 + 64) 8 rfl (by decide) (by decide)
  have passes : exec (.partitionApply 5 64) persistSession = _ :=
    State.commandOut_passed (rulePartitionApply 64 1) writeGuard_persistSession
  rw [passes, Host.Outcome.next.injEq] at run
  rw [← run, State.answer_sent, rulePartitionApply_persistSession] at sent
  have status : stOk = stAccessDenied := by simpa using congrArg List.head? sent
  exact absurd status (by decide)

end Sys2Proof.Machine
end

section
/-! PROOF. What a start begins with, the test session and the start command (00_scope.md, 20_bring_up.md). -/

namespace Sys2Proof.Machine

/-! ### Small laws -/

@[simp] theorem State.emits_nil (s : State) : s.emits [] = s := rfl
@[simp] theorem State.emits_cons (s : State) (m : Msg) (ms : List Msg) : s.emits (m :: ms) = (s.emit m).emits ms := rfl

@[simp] theorem State.obj_count_same (s : State) (i j e w n : Nat) : (s.count i j e w n).obj i j e = min (s.obj i j e + n) (2 ^ w - 1) :=
  State.obj_setObj_same ..

/-- An object after a write to one of another index or subindex. -/
theorem State.obj_setObj_ne (s : State) {i j e i' j' e' : Nat} (v : Nat) (hj : j < 256) (he : e < 65536) (hj' : j' < 256) (he' : e' < 65536)
    (h : i ≠ i' ∨ j ≠ j' ∨ e ≠ e') : (s.setObj i' j' e' v).obj i j e = s.obj i j e := by
  rw [State.obj_setObj, if_neg]
  intro k
  obtain ⟨rfl, rfl, rfl⟩ := okey_inj _ _ _ _ _ _ hj he hj' he' k
  simp at h

/-! ### The beginning of a start (R467) -/

section StartUp
variable (s : State) (kind : Nat)

/-- A start begins in STARTUP mode, with no test session and nothing latched. -/
@[simp] theorem State.startUp_device : (s.startUp kind).device = {} := by
  unfold State.startUp; cases kind == 1 <;> rfl
@[simp] theorem State.startUp_bootActive : (s.startUp kind).boot.active = true := by
  unfold State.startUp; cases kind == 1 <;> rfl
@[simp] theorem State.startUp_sessions : (s.startUp kind).bamurn.sessions = [] := by
  unfold State.startUp; cases kind == 1 <;> rfl
@[simp] theorem State.startUp_flash : (s.startUp kind).bamurn.flash = { s.bamurn.flash with inSecond := 0 } := by
  unfold State.startUp; cases kind == 1 <;> rfl
@[simp] theorem State.startUp_hbm : (s.startUp kind).hbm = [] := by
  unfold State.startUp; cases kind == 1 <;> rfl
@[simp] theorem State.startUp_ddr : (s.startUp kind).ddr = [] := by
  unfold State.startUp; cases kind == 1 <;> rfl
@[simp] theorem State.startUp_jobs : (s.startUp kind).jobs = [] := by
  unfold State.startUp; cases kind == 1 <;> rfl
@[simp] theorem State.startUp_floor : (s.startUp kind).floor = s.floor := by
  unfold State.startUp; cases kind == 1 <;> simp [State.blank]
@[simp] theorem State.startUp_pending : (s.startUp kind).pending = s.pending := by
  unfold State.startUp; cases kind == 1 <;> simp [State.blank]
@[simp] theorem State.startUp_power : (s.startUp kind).power =
    { s.power with closed := false, sag := none, over125 := [], over150 := [], suspect := [], local' := [], capHold := false } := by
  unfold State.startUp; cases kind == 1 <;> rfl

/-- The tide count goes on over a warm start and is 0 after a cold one. -/
@[simp] theorem State.startUp_tide : (s.startUp kind).tide = if kind = 1 then 0 else s.tide := by
  unfold State.startUp
  by_cases h : kind = 1 <;> simp [h, State.blank]

@[simp] theorem State.startUp_kind : (s.startUp kind).obj 0x7000 0 = kind := by
  simp [State.startUp, State.count, State.obj_setObj, okey]

@[simp] theorem State.startUp_stage : (s.startUp kind).obj 0x7000 3 = 0 := by
  simp [State.startUp, State.count, State.obj_setObj, okey]

end StartUp

/-! ### The test session (R11) -/

theorem State.allJobsNone_iff (s : State) : s.allJobsNone = true ↔ ∀ q, q < 12 → s.jobState q = 0 := by
  simp [State.allJobsNone, partitionNumbers]

/-- Where the mode and the test session are all that its own rule changes, a command that passes the checks answers the rule's status; what holds of the rule's device and status holds of the device and the object. -/
theorem State.commandOut_device_and {s : State} {sess i j : Nat} {own : State → State × Nat} {P : Device → Nat → Prop}
    (g : s.writeGuard sess i j = none) (h : (own s).1 = { s with device := (own s).1.device }) (p : P (own s).1.device (own s).2) :
    ∃ t, s.commandOut sess i j own = .next t ∧ t = { s with regs := t.regs, sent := t.sent, device := t.device } ∧
      s.sameRegs t [okey i j 0] ∧ t.sent = .answer sess i j (t.reg (okey i j 0)) :: s.sent ∧ P t.device (t.reg (okey i j 0)) := by
  refine ⟨_, State.commandOut_passed own g, ?_⟩
  revert p
  generalize (own s).2 = st
  rw [h]
  intro p
  have status : (({ s with device := (own s).1.device }.setObj i j 0 st).answer sess i j st).reg (okey i j 0) = st := by simp
  rw [status]
  refine ⟨rfl, ?_, rfl, p⟩
  exact State.sameRegs_congr (State.sameRegs_setObj _ _ _ _ (State.sameRegs_of_regs rfl _) (by simp)) rfl

/-- What ENTER does in each mode (R11): the device and the status it answers. -/
def entered (s : State) (sess : Nat) (d : Device) (st : Nat) : Prop :=
  (s.device.mode = .service → (∀ q, q < 12 → s.jobState q = 0) → st = stOk ∧ d = { s.device with mode := .test, holder := sess }) ∧
  (s.device.mode = .service → (∃ q, q < 12 ∧ s.jobState q ≠ 0) → st = stBusy ∧ d = s.device) ∧
  (s.device.mode = .test → d = s.device ∧ st = if s.device.holder = sess then stOk else stBusy) ∧
  (s.device.mode ∈ [.startup, .recovery, .safe] → d = s.device ∧ st = stNotReady)

/-- What LEAVE does in each mode (R11). -/
def left (s : State) (sess : Nat) (d : Device) (st : Nat) : Prop :=
  (s.device.mode = .test → (s.device.holder = sess ∨ s.holds sess rSecurity = true) → st = stOk ∧ d = { s.device with mode := .service, holder := 0 }) ∧
  (s.device.mode = .test → s.device.holder ≠ sess → s.holds sess rSecurity = false → st = stAccessDenied ∧ d = s.device) ∧
  (s.device.mode ≠ .test → st = stOk ∧ d = s.device)

theorem ruleTestSession_enter (sess : Nat) (s : State) :
    (ruleTestSession sess 1 s).1 = { s with device := (ruleTestSession sess 1 s).1.device } ∧
      entered s sess (ruleTestSession sess 1 s).1.device (ruleTestSession sess 1 s).2 := by
  unfold entered
  cases mode : s.device.mode with
  | service =>
    by_cases jobs : s.allJobsNone = true
    · have rule : ruleTestSession sess 1 s = ({ s with device := { s.device with mode := .test, holder := sess } }, stOk) := by
        simp [ruleTestSession, mode, jobs]
      rw [rule]
      refine ⟨rfl, fun _ _ => ⟨rfl, rfl⟩, ?_, by simp, by simp⟩
      rintro - ⟨q, hq, job⟩
      exact absurd ((State.allJobsNone_iff s).1 jobs q hq) job
    · have rule : ruleTestSession sess 1 s = (s, stBusy) := by simp [ruleTestSession, mode, jobs]
      rw [rule]
      exact ⟨rfl, fun _ none => absurd ((State.allJobsNone_iff s).2 none) jobs, fun _ _ => ⟨rfl, rfl⟩, by simp, by simp⟩
  | test => by_cases own : s.device.holder = sess <;> simp [ruleTestSession, mode, own]
  | startup => simp [ruleTestSession, mode]
  | recovery => simp [ruleTestSession, mode]
  | safe => simp [ruleTestSession, mode]

theorem ruleTestSession_leave (sess : Nat) (s : State) :
    (ruleTestSession sess 0 s).1 = { s with device := (ruleTestSession sess 0 s).1.device } ∧
      left s sess (ruleTestSession sess 0 s).1.device (ruleTestSession sess 0 s).2 := by
  unfold left
  by_cases mode : s.device.mode = .test
  · by_cases may : s.device.holder = sess ∨ s.holds sess rSecurity = true
    · have rule : ruleTestSession sess 0 s = ({ s with device := { s.device with mode := .service, holder := 0 } }, stOk) := by
        simp [ruleTestSession, mode, may]
      rw [rule]
      refine ⟨rfl, fun _ _ => ⟨rfl, rfl⟩, fun _ other none => ?_, fun other => absurd mode other⟩
      rcases may with own | security
      · exact absurd own other
      · exact absurd (none.symm.trans security) (by decide)
    · simp [ruleTestSession, mode, may]
  · simp [ruleTestSession, mode]

/-- The first clauses of the test session, as O6 and O50 ask for them. -/
theorem execTestSessionEnter_enters {s : State} {sess : Nat} (g : s.writeGuard sess 0x0110 1 = none) :
    ∃ t, exec (.testSessionEnter sess) s = .next t ∧
      t = { s with regs := t.regs, sent := t.sent, device := t.device } ∧ s.sameRegs t [okey 0x0110 1 0] ∧
      t.sent = .answer sess 0x0110 1 (t.reg (okey 0x0110 1 0)) :: s.sent ∧ entered s sess t.device (t.reg (okey 0x0110 1 0)) :=
  have rule := ruleTestSession_enter sess s
  State.commandOut_device_and g rule.1 rule.2

theorem execTestSessionLeave_leaves {s : State} {sess : Nat} (g : s.writeGuard sess 0x0110 1 = none) :
    ∃ t, exec (.testSessionLeave sess) s = .next t ∧
      t = { s with regs := t.regs, sent := t.sent, device := t.device } ∧ s.sameRegs t [okey 0x0110 1 0] ∧
      t.sent = .answer sess 0x0110 1 (t.reg (okey 0x0110 1 0)) :: s.sent ∧ left s sess t.device (t.reg (okey 0x0110 1 0)) :=
  have rule := ruleTestSession_leave sess s
  State.commandOut_device_and g rule.1 rule.2

/-! ### The start command (R10, R468) -/

/-- What a start command that runs begins: STARTUP mode, stage 0, the tide count of the kind of start, no session, no job and no memory contents, the fuses' holes and the record flash kept (R322, R391, R467). -/
def begun (s t : State) (sess kind : Nat) : Prop :=
  t.device.mode = .startup ∧ t.device.latched = none ∧ t.boot.active = true ∧
    t.obj 0x7000 0 = kind ∧ t.obj 0x7000 3 = 0 ∧ t.obj 0x7000 1 = stOk ∧ t.sent.head? = some (.answer sess 0x7000 1 stOk) ∧
    t.tide = (if kind = 1 then 0 else s.tide) ∧ t.bamurn.sessions = [] ∧ t.hbm = [] ∧ t.ddr = [] ∧ (∀ q, t.job q = none) ∧
    t.floor = s.floor ∧ t.bamurn.flash.current = s.bamurn.flash.current ∧ t.pending = s.pending

/-- A start of state `u`, which keeps what a start keeps of `s`, answered to the session that asked for it. -/
theorem begun_startUp {s u : State} (sess kind : Nat) (tide : u.tide = s.tide) (floor : u.floor = s.floor)
    (flash : u.bamurn.flash.current = s.bamurn.flash.current) (pending : u.pending = s.pending) :
    begun s (((u.startUp kind).setObj 0x7000 1 0 stOk).answer sess 0x7000 1 stOk) sess kind := by
  simp [begun, State.answer, State.obj_setObj, okey, State.job, Tbl.get, Tbl.find, tide, floor, flash, pending]

/-- A start command that a mode refuses or latches changes the device alone. -/
theorem commandOut_startCommand_kept {s : State} {sess v st : Nat} {d : Device} (g : s.writeGuard sess 0x7000 1 = none)
    (rule : ruleStartCommand sess v s = ({ s with device := d }, st)) :
    ∃ t, s.commandOut sess 0x7000 1 (ruleStartCommand sess v) = .next t ∧
      t = { s with regs := t.regs, sent := .answer sess 0x7000 1 st :: s.sent, device := d } ∧
      s.sameRegs t [okey 0x7000 1 0] ∧ t.obj 0x7000 1 = st := by
  refine ⟨_, State.commandOut_passed _ g, ?_⟩
  rw [rule]
  exact ⟨rfl, State.sameRegs_congr (State.sameRegs_setObj _ _ _ _ (State.sameRegs_of_regs rfl _) (by simp)) rfl, by simp⟩

/-- Command `c` is the start command of a kind of start, which is latched as request `r` (R10). -/
def isStartCommand (c : Instr) (sess kind : Nat) (r : ModeRequest) : Prop :=
  (c = .startCommandWarm sess ∧ kind = 2 ∧ r = .warmStart sess) ∨ (c = .startCommandCold sess ∧ kind = 1 ∧ r = .coldStart sess)

/-- Both start commands follow one rule, by the value they write. -/
theorem exec_startCommand {c : Instr} {sess kind : Nat} {r : ModeRequest} (hc : isStartCommand c sess kind r) (s : State) :
    ∃ v, (v = 1 ∨ v = 2) ∧ kind = (if v = 1 then 2 else 1) ∧ r = (if v = 1 then .warmStart sess else .coldStart sess) ∧
      exec c s = s.commandOut sess 0x7000 1 (ruleStartCommand sess v) := by
  rcases hc with ⟨rfl, rfl, rfl⟩ | ⟨rfl, rfl, rfl⟩
  · exact ⟨1, .inl rfl, rfl, rfl, rfl⟩
  · exact ⟨2, .inr rfl, rfl, rfl, rfl⟩

/-- Where the mode lets it run, the rule starts the module, with no failed start counted where SAFE is left. -/
theorem ruleStartCommand_runs {sess v : Nat} {s : State} (hv : v = 1 ∨ v = 2)
    (mode : s.device.mode = .service ∨ s.device.mode = .test ∨ (s.device.mode = .safe ∧ s.sec.installed = true)) :
    ∃ u : State, (u = s ∨ u = (s.setObj 0x7000 2 0 0).setObj 0x7000 6 0 0) ∧
      ruleStartCommand sess v s = (u.startUp (if v = 1 then 2 else 1), stOk) := by
  have value : ¬ (v ≠ 1 ∧ v ≠ 2) := by omega
  rcases mode with m | m | ⟨m, installed⟩
  · exact ⟨s, .inl rfl, by simp only [ruleStartCommand, m, if_neg value]⟩
  · exact ⟨s, .inl rfl, by simp only [ruleStartCommand, m, if_neg value]⟩
  · exact ⟨_, .inr rfl, by simp only [ruleStartCommand, m, if_neg value, if_pos installed]⟩

/-- Where the mode lets it run, a start command begins its start (R10). -/
theorem execStartCommand_begins {s : State} {c : Instr} {sess kind : Nat} {r : ModeRequest} (hc : isStartCommand c sess kind r)
    (g : s.writeGuard sess 0x7000 1 = none)
    (mode : s.device.mode = .service ∨ s.device.mode = .test ∨ (s.device.mode = .safe ∧ s.sec.installed = true)) :
    ∃ t, exec c s = .next t ∧ begun s t sess kind := by
  obtain ⟨v, hv, rfl, -, run⟩ := exec_startCommand hc s
  obtain ⟨u, kept, rule⟩ := ruleStartCommand_runs (sess := sess) hv mode
  refine ⟨_, run.trans (State.commandOut_passed _ g), ?_⟩
  rw [rule]
  rcases kept with rfl | rfl
  · exact begun_startUp sess _ rfl rfl rfl rfl
  · exact begun_startUp sess _ rfl rfl rfl rfl

/-- While a start runs, a start command is latched, in place of what was latched before (R10, R489). -/
theorem ruleStartCommand_latches {sess v : Nat} {s : State} (hv : v = 1 ∨ v = 2) (mode : s.device.mode = .startup ∨ s.device.mode = .recovery) :
    ruleStartCommand sess v s =
      ({ s with device := { s.device with latched := some (if v = 1 then .warmStart sess else .coldStart sess) } }, stRestartPending) := by
  have value : ¬ (v ≠ 1 ∧ v ≠ 2) := by omega
  rcases mode with m | m
  · simp only [ruleStartCommand, m, if_neg value]
  · simp only [ruleStartCommand, m, if_neg value]

/-- In SAFE without an installed image a start command is refused (R468). -/
theorem ruleStartCommand_refuses {sess v : Nat} {s : State} (hv : v = 1 ∨ v = 2) (mode : s.device.mode = .safe) (image : s.sec.installed = false) :
    ruleStartCommand sess v s = ({ s with device := s.device }, stRefused) := by
  have value : ¬ (v ≠ 1 ∧ v ≠ 2) := by omega
  simp [ruleStartCommand, mode, if_neg value, image]

/-- Settles O6, by the rule of each object in each mode. -/
theorem testSessionsAndStartCommands : Obligations.TestSessionsAndStartCommands := by
  refine ⟨fun s sess g => ⟨execTestSessionEnter_enters g, execTestSessionLeave_leaves g⟩,
    fun s sess c kind r hc g => ⟨execStartCommand_begins hc g, fun mode => ?_, fun ⟨mode, image⟩ => ?_⟩⟩
  · obtain ⟨v, hv, -, rfl, run⟩ := exec_startCommand hc s
    rw [run]
    exact commandOut_startCommand_kept g (ruleStartCommand_latches hv mode)
  · obtain ⟨v, hv, -, -, run⟩ := exec_startCommand hc s
    rw [run]
    exact commandOut_startCommand_kept g (ruleStartCommand_refuses hv mode image)

end Sys2Proof.Machine
end

section
/-! PROOF. What faults, closures, remaps and the limits of power leave of the supply: the objects of 1000 to 10FF but the planes' states and the wakes queued, and every DARK plane (17_power_delivery.md). -/

namespace Sys2Proof.Machine

/-- State `t` comes of `s` with no change to the supply but that planes that are not DARK may gate and wake: what was sent stays sent, every register of objects 1000 to 10FF stays but the states (:00) and the queued wakes (:05), and a DARK plane is DARK. -/
structure State.KeepsSupply (s t : State) : Prop where
  sent : ∃ new, t.sent = new ++ s.sent
  regs : ∀ i j e, 0x1000 ≤ i → i < 0x1100 → j < 256 → j ≠ 0 → j ≠ 5 → e < 65536 → t.obj i j e = s.obj i j e
  dark : ∀ c, c < 90 → s.plane c = plDark → t.plane c = plDark

namespace State.KeepsSupply

theorem refl (s : State) : s.KeepsSupply s := ⟨⟨[], rfl⟩, fun _ _ _ _ _ _ _ _ _ => rfl, fun _ _ d => d⟩

section Operations
variable {s t : State} (h : s.KeepsSupply t)
include h

/-! ### The primitive updates -/

/-- A change to anything but registers and what has been sent. -/
theorem other {u : State} (regs : u.regs = t.regs) (sent : u.sent = t.sent) : s.KeepsSupply u := by
  refine ⟨sent ▸ h.sent, fun i j e h1 h2 h3 h4 h5 h6 => ?_, fun c hc d => ?_⟩
  · exact (State.obj_congr regs i j e).trans (h.regs i j e h1 h2 h3 h4 h5 h6)
  · exact (State.obj_congr regs _ _ _).trans (h.dark c hc d)

theorem emit (m : Msg) : s.KeepsSupply (t.emit m) := by
  obtain ⟨new, hn⟩ := h.sent
  exact ⟨⟨m :: new, by simp [hn]⟩, h.regs, h.dark⟩

/-- A register outside the objects of the supply. -/
theorem setObj {i : Nat} (j e v : Nat) (hi : 0x1100 ≤ i) : s.KeepsSupply (t.setObj i j e v) := by
  refine ⟨h.sent, fun i' j' e' h1 h2 h3 h4 h5 h6 => ?_, fun c hc d => ?_⟩
  · rw [State.obj_setObj, if_neg (by unfold okey; omega)]
    exact h.regs i' j' e' h1 h2 h3 h4 h5 h6
  · rw [State.plane, State.obj_setObj, if_neg (by unfold okey; omega)]
    exact h.dark c hc d

theorem count {i : Nat} (j e w n : Nat) (hi : 0x1100 ≤ i) : s.KeepsSupply (t.count i j e w n) := h.setObj _ _ _ hi

/-- The number of queued wakes. -/
theorem setQueued (i v : Nat) : s.KeepsSupply (t.setObj i 5 0 v) := by
  refine ⟨h.sent, fun i' j' e' h1 h2 h3 h4 h5 h6 => ?_, fun c hc d => ?_⟩
  · rw [State.obj_setObj, if_neg (by unfold okey; omega)]
    exact h.regs i' j' e' h1 h2 h3 h4 h5 h6
  · rw [State.plane, State.obj_setObj, if_neg (by unfold okey; omega)]
    exact h.dark c hc d

/-- The state of a plane that is not DARK. -/
theorem setPlane {c : Nat} (v : Nat) (hc : t.plane c ≠ plDark) : s.KeepsSupply (t.setPlane c v) := by
  refine ⟨h.sent, fun i j e h1 h2 h3 h4 h5 h6 => ?_, fun c' hc' d => ?_⟩
  · rw [State.setPlane, State.obj_setObj, if_neg (by unfold okey; omega)]
    exact h.regs i j e h1 h2 h3 h4 h5 h6
  · have dark := h.dark c' hc' d
    have other : c' ≠ c := fun e => hc (e ▸ dark)
    rw [State.setPlane, State.plane, State.obj_setObj, if_neg (by unfold okey; omega)]
    exact dark

theorem each {α : Type} (xs : List α) {f : State → α → State} (k : ∀ u x, s.KeepsSupply u → s.KeepsSupply (f u x)) :
    s.KeepsSupply (t.each xs f) := by
  unfold State.each
  induction xs generalizing t with
  | nil => exact h
  | cons x xs ih => exact ih (k t x h)

theorem setObjs {i : Nat} (j e : Nat) (vs : List Nat) (hi : 0x1100 ≤ i) : s.KeepsSupply (t.setObjs i j e vs) := by
  induction vs generalizing t e with
  | nil => exact h
  | cons v vs ih => exact ih (h.setObj _ _ _ hi) _

theorem report (r : Report) : s.KeepsSupply (t.report r) := h.emit _
theorem reportFor (q : Option Nat) (c : Nat) (x y : Suspect) (st d : Nat) (u : Option Suspect) : s.KeepsSupply (t.reportFor q c x y st d u) := h.emit _
theorem control (dst mtype body : Nat) : s.KeepsSupply (t.control dst mtype body) := h.emit _
theorem modTile (n : Nat) (f : Tile → Tile) : s.KeepsSupply (t.modTile n f) := h.other rfl rfl
theorem modGau (n : Nat) (f : GaugeUnit → GaugeUnit) : s.KeepsSupply (t.modGau n f) := h.other rfl rfl
theorem modJob (q : Nat) (f : Job → Job) : s.KeepsSupply (t.modJob q f) := h.other (State.modJob_regs ..) (State.modJob_sent ..)
theorem setCtx (n : Nat) (c : Ctx) : s.KeepsSupply (t.setCtx n c) := h.other rfl rfl
theorem draw : s.KeepsSupply t.draw.2 := h.other rfl rfl
theorem discardChunk (n : Nat) : s.KeepsSupply (t.discardChunk n) := h.other rfl rfl
theorem leaveRamp (n : Nat) : s.KeepsSupply (t.leaveRamp n) := h.other rfl rfl
theorem discardWork (n : Nat) : s.KeepsSupply (t.discardWork n) := h.other rfl rfl
theorem clearPending (n : Nat) : s.KeepsSupply (t.clearPending n) := h.other rfl rfl
theorem snapshotTile (n : Nat) : s.KeepsSupply (t.snapshotTile n) := h.other rfl rfl
theorem freezeGauges (n : Nat) : s.KeepsSupply (t.freezeGauges n) := h.other rfl rfl
theorem choose (n m : Nat) : s.KeepsSupply (t.choose n m) := h.other rfl rfl
theorem putHist (x : HistEntry) : s.KeepsSupply (t.putHist x) := h.other rfl rfl

/-! ### Tiles -/

theorem setTileState (n v : Nat) : s.KeepsSupply (t.setTileState n v) := h.setObj _ _ _ (by unfold tileIx; omega)
theorem setTileObj (n j e v : Nat) : s.KeepsSupply (t.setObj (tileIx n) j e v) := h.setObj _ _ _ (by unfold tileIx; omega)
theorem setQState (n q v : Nat) : s.KeepsSupply (t.setQState n q v) := h.setTileObj _ _ _ _

theorem closeDomain (d : Domain) (x : Suspect) (q : Option Nat) : s.KeepsSupply (t.closeDomain d x q) :=
  (h.other (u := { t with faults := { t.faults with closing := t.faults.closing ++ [(d, t.drainEnd)] } }) rfl rfl).reportFor _ _ _ _ _ _ _

theorem freezeQueues (n : Nat) : s.KeepsSupply (t.freezeQueues n) := by
  refine h.each _ fun u q k => ?_
  split
  · exact k
  · exact (k.setQState _ _ _).setTileObj _ _ _ _

theorem emptyQueues (n : Nat) : s.KeepsSupply (t.emptyQueues n) :=
  h.each _ fun _ _ k => ((k.setQState _ _ _).setTileObj _ _ _ _).setTileObj _ _ _ _

theorem unassign (n : Nat) : s.KeepsSupply (t.unassign n) :=
  ((((h.emptyQueues n).modTile _ _).setTileObj _ _ _ _).setTileObj _ _ _ _).setTileObj _ _ _ _

theorem spareRow (n b r : Nat) : s.KeepsSupply (t.spareRow n b r).1 := by
  unfold State.spareRow
  split
  · exact h
  · dsimp only
    exact (h.setTileObj _ _ _ _).modTile _ _

theorem wipeTile (n : Nat) : s.KeepsSupply (t.wipeTile n) := by
  have spared := h.each (t.tile n).queued (f := fun u r => (u.spareRow n r.1 r.2).1) fun _ _ k => k.spareRow _ _ _
  have unpending := spared.each (List.range 12) (f := fun u b => u.setObj (tileIx n) 0x26 b 0) fun _ _ k => k.setTileObj _ _ _ _
  have unhandled := unpending.each (List.range 64) (f := fun u e => u.setObj (tileIx n) 0x20 e 0) fun _ _ k => k.setTileObj _ _ _ _
  exact (((unhandled.modTile n _).setTileObj _ _ _ _).setTileObj _ _ _ _).setTileObj _ _ _ _

theorem releaseTile (n : Nat) : s.KeepsSupply (t.releaseTile n) := (h.wipeTile n).unassign n

theorem readBack (n : Nat) (bad : List (Nat × Nat)) : s.KeepsSupply (t.readBack n bad) := by
  have spared : ∀ (xs : List (Nat × Nat)) (a : State × Bool), s.KeepsSupply a.1 →
      s.KeepsSupply (xs.foldl (fun a x => ((a.1.spareRow n x.1 x.2).1, a.2 && (a.1.spareRow n x.1 x.2).2)) a).1 := by
    intro xs
    induction xs with
    | nil => exact fun _ k => k
    | cons x xs ih => exact fun a k => ih _ (k.spareRow _ _ _)
  unfold State.readBack
  dsimp only
  split
  · exact spared bad (t, true) h
  · exact (spared bad (t, true) h).setTileObj _ _ _ _

theorem checkScrub (n : Nat) : s.KeepsSupply (t.checkScrub n) := h.draw.readBack _ _

theorem scrubbed (n : Nat) : s.KeepsSupply (t.scrubbed n) := (h.releaseTile n).checkScrub n

theorem failScrub (n st : Nat) : s.KeepsSupply (t.failScrub n st) := ((h.setTileState n _).modTile n _).closeDomain _ _ _

theorem passScrub (n st : Nat) : s.KeepsSupply (t.passScrub n st) := by
  unfold State.passScrub
  split
  · exact h.failScrub _ _
  · exact h.setTileState _ _

theorem sendBack (n : Nat) : s.KeepsSupply (t.sendBack n) := by
  unfold State.sendBack
  split
  · exact h.modTile _ _
  · exact (h.scrubbed n).passScrub _ _

/-! ### Twins -/

theorem discardRun (q : Nat) : s.KeepsSupply (t.discardRun q) := by
  unfold State.discardRun
  split
  · exact (h.modJob _ _).sendBack _
  · exact h

theorem discardNext (q : Nat) : s.KeepsSupply (t.discardNext q) := by
  unfold State.discardNext
  split
  · exact (h.modJob _ _).sendBack _
  · exact h

theorem discardTwin (q : Nat) : s.KeepsSupply (t.discardTwin q) := (h.discardRun q).discardNext q

theorem dropTwin (q : Nat) : s.KeepsSupply (t.dropTwin q) := by
  unfold State.dropTwin
  split
  · exact (h.discardRun q).count _ _ _ _ (by decide)
  · exact h

theorem dropTwinOf (n : Nat) : s.KeepsSupply (t.dropTwinOf n) := by
  unfold State.dropTwinOf
  split
  · exact h
  · next q _ =>
    have dropped : s.KeepsSupply (if (t.twinRun q).elim false (·.names n) then t.dropTwin q else t) := by
      split
      · exact h.dropTwin q
      · exact h
    dsimp only
    revert dropped
    generalize (if (t.twinRun q).elim false (·.names n) then t.dropTwin q else t) = u
    intro dropped
    split
    · exact dropped.discardNext q
    · exact dropped

/-! ### Closing and retiring tiles -/

theorem shutTile (n cls : Nat) : s.KeepsSupply (t.shutTile n cls) := by
  unfold State.shutTile
  split
  · exact ((((((h.setTileState n _).discardChunk n).leaveRamp n).dropTwinOf n).freezeQueues n).freezeGauges n).modTile _ _
  · exact h

theorem writeUfr (u : Ufr) : s.KeepsSupply (t.writeUfr u) := (h.setObj (i := 0x6060) 0 0 (t.obj 0x6060 0 + 1) (by decide)).other rfl rfl

theorem verdict (x cls : Nat) : s.KeepsSupply (t.verdict x cls) := (h.putHist _).writeUfr _

theorem shrink : s.KeepsSupply t.shrink := by
  unfold State.shrink
  split
  · exact h
  · exact (h.count _ _ _ _ (by decide)).report _

theorem chooseReplacement (n : Nat) : s.KeepsSupply (t.chooseReplacement n) := by
  unfold State.chooseReplacement
  cases t.replacementFor n with
  | none => exact h.shrink
  | some m => exact h.choose _ _

theorem retireTile (n cls : Nat) (r : Option Nat) : s.KeepsSupply (t.retireTile n cls r) := by
  have retired := (((h.setTileState n tsRetired).verdict (susCode (susTile n)) cls).unassign n).modTile n (fun u => { u with gau := {} })
  unfold State.retireTile
  dsimp only
  split
  · exact retired.choose _ _
  · split
    · exact retired
    · exact retired.chooseReplacement _

/-! ### Jobs -/

theorem dtlOut (m : Nat) (up : Bool) (d : DtlMsg) : s.KeepsSupply (t.dtlOut m up d) := by
  unfold State.dtlOut
  split
  · exact h.emit _
  · exact (h.emit _).count _ _ _ _ (by omega)

theorem toJobState (q v : Nat) : s.KeepsSupply (t.toJobState q v) := by
  unfold State.toJobState
  split
  · exact h
  · exact ((h.setObj (i := 0x5010 + q) 0 0 v (by omega)).modJob q _).dtlOut _ _ _

theorem toMembers (q mtype step low : Nat) : s.KeepsSupply (t.toMembers q mtype step low) := h.each _ fun _ _ k => k.control _ _ _

theorem holdQueue (dog : Bool) (n q : Nat) : s.KeepsSupply (t.holdQueue dog n q) := by
  unfold State.holdQueue
  dsimp only
  split
  · exact (((h.setQState _ _ _).setTileObj _ _ _ _).setTileObj _ _ _ _).setTileObj _ _ _ _
  · exact h

theorem abandonTile (dog : Bool) (n : Nat) : s.KeepsSupply (t.abandonTile dog n) := by
  unfold State.abandonTile
  split
  · exact h
  · exact (((h.each _ fun _ _ k => k.holdQueue _ _ _).discardWork n).clearPending n).modGau n _

theorem unpinLanes (q : Nat) (f : Ctx → Ctx) : s.KeepsSupply (t.unpinLanes q f) := by
  refine other (modJob (h.each _ fun u e k => ?_) q _) rfl rfl
  split
  · exact k.setCtx _ _
  · exact k.setCtx _ _
  · exact k

theorem retireClosed (q : Nat) : s.KeepsSupply (t.retireClosed q) := by
  unfold State.retireClosed
  split
  · exact h.each _ fun _ _ k => k.retireTile _ _ _
  · exact h

theorem dropRemaps (q : Nat) : s.KeepsSupply (t.dropRemaps q) := by
  unfold State.dropRemaps
  split
  · exact (h.modJob _ _).each _ fun _ _ k => k.sendBack _
  · exact h

theorem haltJob (q cause : Nat) : s.KeepsSupply (t.haltJob q cause) := by
  unfold State.haltJob
  dsimp only
  split
  · exact h
  · have told := ((h.setObj (i := 0x6030 + q) 0 0 cause (by omega)).setObj (i := 0x6030 + q) 1 0 (t.step' q) (by omega)).toMembers q 0x22 (t.step' q) cause
    exact closeDomain (toJobState (retireClosed (modJob (each (unpinLanes (dropRemaps (discardTwin (each told _
      fun _ n k => k.discardChunk n) q) q) q id) _ fun _ n k => (k.abandonTile false n).modGau n _) q _) q) q jsHalted) _ _ _

theorem abandonStep (q cls : Nat) (dog : Bool) : s.KeepsSupply (t.abandonStep q cls dog) := by
  unfold State.abandonStep
  split
  · exact h
  · split
    · exact (h.setObj _ _ _ (by omega)).haltJob _ _
    · dsimp only
      refine toJobState (modJob (each (toMembers (count ?_ _ _ _ _ (by omega)) _ _ _ _) _ fun _ _ k => k.abandonTile _ _) _ _) _ _
      split
      · exact h.each _ fun _ _ k => k.snapshotTile _
      · exact h

theorem stepFault_none (q cls : Nat) : s.KeepsSupply (t.stepFault q cls none) := h.abandonStep _ _ _

/-! ### Wakes and remaps -/

theorem modWakes (f : Nat) (g : WakeGroup → WakeGroup) : s.KeepsSupply (t.modWakes f g) :=
  (h.other (u := { t with wakes := Tbl.put t.wakes {} f (g (t.wakeGroup f)) }) rfl rfl).setQueued _ _

theorem latchPlane (c : Nat) (r : Option Bool) : s.KeepsSupply (t.latchPlane c r) := h.other rfl rfl

theorem wakeRequest (c : Nat) : s.KeepsSupply (t.wakeRequest c) := by
  unfold State.wakeRequest
  dsimp only
  split
  · next gated =>
    have waking := h.setPlane plWaking (by rw [gated]; decide : t.plane c ≠ plDark)
    split
    · exact waking.modWakes _ _
    · exact waking.modWakes _ _
  · split
    · exact h.latchPlane _ _
    · split
      · exact h.latchPlane _ _
      · exact h

theorem nextWake (f : Nat) : s.KeepsSupply (t.nextWake f) := by
  unfold State.nextWake
  split
  · exact h.modWakes _ _
  · exact h.modWakes _ _

theorem dropWake (c : Nat) : s.KeepsSupply (t.dropWake c) := by
  unfold State.dropWake
  dsimp only
  split
  · exact (h.modWakes _ _).nextWake _
  · exact h.modWakes _ _

theorem remapOne (q l n : Nat) : s.KeepsSupply (t.remapOne q l n) := by
  unfold State.remapOne
  cases t.remapCandidate q n with
  | none => exact h.haltJob _ _
  | some m => exact (((h.dropTwinOf m).discardChunk m).wakeRequest _).modJob _ _

theorem startRemaps (q : Nat) : s.KeepsSupply (t.startRemaps q) := by
  unfold State.startRemaps
  split
  · exact h
  · refine h.each _ fun u l k => ?_
    split
    · exact k
    · exact k.remapOne _ _ _

theorem dropTarget (q n : Nat) : s.KeepsSupply (t.dropTarget q n) := (h.modJob _ _).modTile _ _

theorem condemnCluster (c cls : Nat) : s.KeepsSupply (t.condemnCluster c cls) := by
  have faulted := h.each (t.clusterJobs c) (f := fun u q => u.stepFault q cls none) fun _ q k => k.stepFault_none q cls
  have shut := faulted.each (tilesOfCluster c) (f := fun u n => u.shutTile n cls) fun _ n k => k.shutTile n cls
  exact (shut.closeDomain _ _ _).each _ fun _ q k => (k.each _ fun _ n k' => k'.dropTarget q n).startRemaps q

/-! ### Clocks and limits -/

theorem setClock (c v mhz : Nat) : s.KeepsSupply (t.setClock c v mhz) := by
  unfold State.setClock
  split
  · exact h
  · exact (h.setObj _ _ _ (by omega)).setObj _ _ _ (by omega)

theorem retarget (c : Nat) : s.KeepsSupply (t.retarget c) := by
  have shown := ((h.setObj (i := 0x1310 + c) 1 0 (t.prefStep c) (by omega)).setObj (i := 0x1310 + c) 2 0 (t.ownCeiling c) (by omega)).setObj
    (i := 0x1310 + c) 3 0 (t.issueDuty c) (by omega)
  unfold State.retarget
  dsimp only
  split
  · split
    · exact shown.setObj _ _ _ (by omega)
    · exact shown
  · exact shown.setObj _ _ _ (by omega)

theorem setReason (r : Nat) (on : Bool) : s.KeepsSupply (t.setReason r on) := by
  unfold State.setReason
  split
  · exact ((h.setObj _ _ _ (by omega)).count _ _ _ _ (by omega)).setObj _ _ _ (by omega)
  · split
    · exact h
    · exact h.setObj _ _ _ (by omega)

theorem refresh : s.KeepsSupply t.refresh :=
  (((h.each _ fun _ c k => k.retarget c).each _ fun _ _ k => k.setObj _ _ _ (by omega)).each _ fun _ r k => k.setReason r _).setReason _ _

end Operations

end State.KeepsSupply

end Sys2Proof.Machine
end

section
/-! PROOF. The rails: closes of the module, lost phases, shorted planes, path checks (17_power_delivery.md). -/

namespace Sys2Proof.Machine

/-! ### The save and close (R409) -/

namespace State.KeepsSupply
variable {s t : State} (h : s.KeepsSupply t)
include h

theorem putRow (v : Server) (row : Nat) (d : Row) : s.KeepsSupply (t.putRow v row d) := by
  cases v with
  | stack => exact h.other rfl rfl
  | channel => exact h.other rfl rfl

theorem modServer (v : Server) (f : MemServer → MemServer) : s.KeepsSupply (t.modServer v f) := by
  cases v with
  | stack => exact h.other rfl rfl
  | channel => exact h.other rfl rfl

theorem flushServer (v : Server) : s.KeepsSupply (t.flushServer v) := (h.each _ fun _ _ k => k.putRow _ _ _).modServer _ _

theorem drainBuffers : s.KeepsSupply t.drainBuffers := (h.each _ fun _ _ k => k.flushServer _).each _ fun _ _ k => k.flushServer _

theorem freezeDevice : s.KeepsSupply t.freezeDevice := h.each _ fun _ n k => (k.freezeQueues n).freezeGauges n

theorem stopAll : s.KeepsSupply t.stopAll := by
  refine each (each (each h.freezeDevice _ fun u c k => ?_) _ fun _ _ k => k.setQueued _ _) _ fun _ _ k => k.other rfl rfl
  split
  · exact k
  · next notDark =>
    split
    · exact k
    · exact (((k.setPlane _ notDark).setClock _ _ _).setObj _ _ _ (by omega)).setObj _ _ _ (by omega)

end State.KeepsSupply

/-- A count of another object leaves an object, whether it happens or not. -/
theorem State.obj_ite_count_ne (s : State) (p : Prop) [Decidable p] {i j e i' j' e' w n : Nat} (h : okey i j e ≠ okey i' j' e') :
    (if p then s.count i' j' e' w n else s).obj i j e = s.obj i j e := by
  split
  · exact (State.obj_setObj ..).trans (if_neg h)
  · rfl

/-- A close leaves the state of the bus converters (R408, R409). -/
theorem State.obj_saveClose_converter (s : State) (cause : Nat) {i : Nat} (hi : i < 4) : (s.saveClose cause).obj 0x1000 4 i = s.obj 0x1000 4 i := by
  unfold State.saveClose
  split
  · rfl
  · have closing := (((((State.KeepsSupply.refl s).emit (.pin .alertN false)).stopAll.drainBuffers.closeDomain .device susModule none)).reportFor
      none clPower susModule susModule 0 cause none)
    dsimp only
    revert closing
    generalize State.reportFor _ none clPower susModule susModule 0 cause none = u
    intro closing
    have recorded : s.KeepsSupply (if u.boot.active then u.pushRecord (u.bootRecord 2 0 0 (u.obj 0x7000 3) false) else u) := by
      split
      · exact closing.setObjs _ _ _ (by decide)
      · exact closing
    revert recorded
    generalize (if u.boot.active then u.pushRecord (u.bootRecord 2 0 0 (u.obj 0x7000 3) false) else u) = v
    intro recorded
    have key : ∀ k < 4, okey 0x1000 4 k ≠ okey 0x1000 3 0 ∧ okey 0x1000 4 k ≠ okey 0x0280 9 0 := by decide
    show (if cause = 2 then _ else _ : State).obj 0x1000 4 i = _
    rw [State.obj_ite_count_ne _ _ (key i hi).2, State.obj_ite_count_ne _ _ (key i hi).1]
    exact recorded.regs _ _ _ (by decide) (by decide) (by decide) (by decide) (by decide) (by omega)

/-- A close turns the rails off and keeps its cause (R409, R429). -/
theorem State.saveClose_power {s : State} (cause : Nat) (open' : s.power.closed = false) :
    (s.saveClose cause).power.closed = true ∧ (s.saveClose cause).power.cause = cause := by
  simp [State.saveClose, open', State.emits, State.emit]

end Sys2Proof.Machine
end

section
/-! PROOF. The rails: lost phases, shorted planes, path checks. -/

namespace Sys2Proof.Machine

@[simp] theorem State.modPower_power (s : State) (f : Power → Power) : (s.modPower f).power = f s.power := rfl
@[simp] theorem State.obj_modPower (s : State) (f : Power → Power) (i j e : Nat) : (s.modPower f).obj i j e = s.obj i j e := rfl

/-! ### The supply's commands -/

/-- A converter lost is marked, whatever follows of the loss (R408). -/
theorem execBusconvLost_marks {s : State} {i : Nat} (hi : i < 4) (works : s.obj 0x1000 4 i = 0) :
    ∃ t, exec (.busconvLost i) s = .next t ∧ t.obj 0x1000 4 i = 1 := by
  refine ⟨_, rfl, ?_⟩
  rw [if_neg (by omega)]
  dsimp only
  have marked : ((s.setObj 0x1000 4 i 1).reportFor none clPower susModule susModule 0 i).obj 0x1000 4 i = 1 := State.obj_setObj_same ..
  revert marked
  generalize (s.setObj 0x1000 4 i 1).reportFor none clPower susModule susModule 0 i = u
  intro marked
  split
  · exact (State.obj_saveClose_converter u 1 hi).trans marked
  · split
    · have kept := (State.KeepsSupply.refl (u.modPower (fun p => { p with capHold := true }))).refresh
      exact (kept.regs _ _ _ (by decide) (by decide) (by decide) (by decide) (by decide) (by omega)).trans marked
    · exact marked

/-- A sample below 40 V begins a sag or goes on with one, and one of 40 V or more ends it (R408). -/
theorem execInputSag_keeps {s : State} (mv : Nat) (open' : s.power.closed = false) :
    ∃ t, exec (.inputSag mv) s = .next t ∧ t.obj 0x1000 0 = mv ∧
      t.power = { s.power with sag := if mv < 40000 then some (s.power.sag.getD s.elapsed) else none } := by
  refine ⟨_, rfl, ?_⟩
  rw [if_neg (by simp [open'])]
  dsimp only
  by_cases low : mv < 40000
  · have notOver : ¬ mv ≥ 40000 := by omega
    rw [if_neg notOver, if_pos low]
    cases sag : s.power.sag with
    | none => simp [State.count, State.obj_setObj, okey]
    | some since =>
      have going : s.power = { s.power with sag := some since } := by rw [← sag]
      simp [← going]
  · rw [if_pos (Nat.le_of_not_lt low), if_neg low]
    exact ⟨State.obj_setObj_same .., rfl⟩

/-! ### Planes -/

/-- A report of a plane stamps its last event (R429) and names its cluster (R425). -/
theorem State.obj_railReport_vl (s : State) (c st d i j e : Nat) :
    (s.railReport (.vl c) st d).obj i j e = (s.setObj (0x1040 + c) 0xD 0 s.tide).obj i j e := rfl

theorem State.sent_railReport_vl (s : State) (c st d : Nat) :
    ∃ r, (s.railReport (.vl c) st d).sent = .report r :: s.sent ∧ r.cls = clPower ∧ r.suspect = susCluster c ∧ r.detail = d :=
  ⟨_, rfl, rfl, rfl, rfl⟩

theorem State.plane_setObj_ne (s : State) (c : Nat) {i j e : Nat} (v : Nat) (h : okey (0x1040 + c) 0 0 ≠ okey i j e) :
    (s.setObj i j e v).plane c = s.plane c := (State.obj_setObj ..).trans (if_neg h)

/-- A plane that goes DARK is DARK and has no phase (R417, R425). -/
theorem State.planeDark_dark {s : State} {c : Nat} (hc : c < 90) (lit : s.plane c ≠ plDark) :
    (s.planeDark c).plane c = plDark ∧ (s.planeDark c).obj (0x1040 + c) 1 = 0 ∧ ∃ new, (s.planeDark c).sent = new ++ s.sent := by
  have kept : ((s.setPlane c plDark).setObj (0x1040 + c) 1 0 0).KeepsSupply (s.planeDark c) := by
    rw [State.planeDark, if_neg lit]
    exact (((((((State.KeepsSupply.refl _).dropWake c).latchPlane c none).setClock c 0 0).setObj 4 0 0 (by omega)).verdict _ _).condemnCluster _ _).refresh
  refine ⟨kept.dark c hc ?_, ?_, ?_⟩
  · rw [State.plane_setObj_ne _ _ _ (by unfold okey; omega)]
    exact State.obj_setObj_same ..
  · rw [kept.regs _ _ _ (by omega) (by omega) (by decide) (by decide) (by decide) (by decide)]
    exact State.obj_setObj_same ..
  · have sent := kept.sent
    rwa [State.setObj_sent, State.setPlane, State.setObj_sent] at sent

/-- What was sent stays sent when a plane goes DARK. -/
theorem State.planeDark_sent (s : State) (c : Nat) (hc : c < 90) : ∃ new, (s.planeDark c).sent = new ++ s.sent := by
  by_cases dark : s.plane c = plDark
  · exact ⟨[], by simp [State.planeDark, dark]⟩
  · exact (State.planeDark_dark hc dark).2.2

/-- The loss of a phase of a plane is reported under POWER, with the cluster as suspect and the phase as detail (R420). -/
theorem execPhaseLost_reports {s : State} {c phase : Nat} (hc : c < 90) (has : phase < phaseCount (.vl c))
    (kept : bitOf (s.phasesLost (.vl c)) phase = false) :
    ∃ t, exec (.phaseLost (.vl c) phase) s = .next t ∧ ∃ r, .report r ∈ t.sent ∧ r.cls = clPower ∧ r.suspect = susCluster c ∧ r.detail = phase := by
  refine ⟨_, rfl, ?_⟩
  rw [if_neg (by simp [kept]; omega)]
  dsimp only
  generalize hu : (s.disablePhase (.vl c) phase).railReport (.vl c) 0 phase = u
  obtain ⟨r, sent, facts⟩ := (s.disablePhase (.vl c) phase).sent_railReport_vl c 0 phase
  rw [hu] at sent
  have derated : ∀ n, ∃ new, (u.phaseEffect (.vl c) n).sent = new ++ u.sent := by
    intro n
    unfold State.phaseEffect
    dsimp only
    split
    · exact u.planeDark_sent c hc
    · exact ⟨[], rfl⟩
  obtain ⟨new, effect⟩ := derated (popCount (u.phasesLost (.vl c)) 6)
  obtain ⟨more, limits⟩ := (State.KeepsSupply.refl (u.phaseEffect (.vl c) (popCount (u.phasesLost (.vl c)) 6))).refresh.sent
  refine ⟨r, ?_, facts⟩
  rw [limits, effect, sent]
  simp

/-- Disabling phases of a plane leaves its state. -/
theorem State.plane_disablePhases (s : State) (c : Nat) (ps : List Nat) :
    (s.each ps (fun t i => t.disablePhase (.vl c) i)).plane c = s.plane c := by
  induction ps generalizing s with
  | nil => rfl
  | cons p ps ih =>
    refine (ih (s.disablePhase (.vl c) p)).trans ?_
    exact State.plane_setObj_ne _ _ _ (by unfold okey; omega)

/-- A short of a plane leaves it DARK with no phase (R423, R424). -/
theorem execPlaneShort_dark {s : State} {c : Nat} (hc : c < 90) (lit : s.plane c ≠ plDark) :
    ∃ t, exec (.planeShort (.vl c)) s = .next t ∧ t.plane c = plDark ∧ t.obj (0x1040 + c) 1 = 0 := by
  refine ⟨_, rfl, ?_⟩
  have reported : ∀ u : State, (u.railReport (.vl c) 0 0xFF).plane c = u.plane c := fun u =>
    (u.obj_railReport_vl c 0 0xFF (0x1040 + c) 0 0).trans (u.plane_setObj_ne c _ (by unfold okey; omega))
  have still : ((s.each (List.range (phaseCount (.vl c))) (fun t i => t.disablePhase (.vl c) i)).railReport (.vl c) 0 0xFF).plane c ≠ plDark := by
    rw [reported, State.plane_disablePhases]
    exact lit
  have dark := State.planeDark_dark hc still
  exact ⟨dark.1, dark.2.1⟩

/-! ### Sense and cracks (R414, R415) -/

theorem execSenseFallback_falls {s : State} {c : Nat} (remote : s.obj (0x1040 + c) 0xA ≠ 1) :
    ∃ t, exec (.senseFallback (.vl c)) s = .next t ∧ t.obj (0x1040 + c) 0xA = 1 ∧
      ∃ r, t.sent = .report r :: s.sent ∧ r.cls = clPower ∧ r.suspect = susCluster c ∧ r.detail = 1 := by
  refine ⟨_, rfl, ?_⟩
  rw [if_neg (by simpa [State.localSense] using remote)]
  obtain ⟨r, sent, facts⟩ := (s.setObj (0x1040 + c) 0xA 0 1).sent_railReport_vl c 0 1
  rw [State.setObj_sent] at sent
  refine ⟨?_, r, sent, facts⟩
  dsimp only
  rw [State.obj_railReport_vl, State.obj_setObj_ne _ _ (by decide) (by decide) (by decide) (by decide) (.inr (.inl (by decide)))]
  exact State.obj_setObj_same ..

/-- A resistance of at most 1.25 of the baseline changes no register and loses no rail (R415). -/
theorem State.regs_judgeZ {s : State} {c z : Nat} (low : 4 * z ≤ 5 * s.obj (0x1040 + c) 9) : (s.judgeZ (.vl c) z).regs = s.regs := by
  have under125 : ¬ 4 * z > 5 * s.baseline (.vl c) := by simpa [State.baseline] using low
  have under150 : ¬ 2 * z > 3 * s.baseline (.vl c) := by simp only [State.baseline]; omega
  unfold State.judgeZ
  simp [under125, under150]

theorem execPathResistanceCheck_computes {s : State} {c a b ma : Nat} (remote : s.obj (0x1040 + c) 0xA ≠ 1)
    (enough : (if c < 72 then 10000 else 3000) ≤ ma) (low : 4 * (1000000 * (a - b) / ma) ≤ 5 * s.obj (0x1040 + c) 9) :
    ∃ t, exec (.pathResistanceCheck (.vl c) a b ma false) s = .next t ∧ t.obj (0x1040 + c) 8 = 1000000 * (a - b) / ma ∧ t.obj (0x1040 + c) 4 = a := by
  refine ⟨_, rfl, ?_⟩
  rw [if_neg (by simpa [hasSense, State.localSense] using remote)]
  dsimp only
  rw [if_neg (by decide), if_neg (by simpa [senseFloor] using enough)]
  generalize 1000000 * (a - b) / ma = z at *
  have judged : (((s.keepSense (.vl c) a b ma).keepZ (.vl c) z).judgeZ (.vl c) z).regs = ((s.keepSense (.vl c) a b ma).keepZ (.vl c) z).regs := by
    apply State.regs_judgeZ
    simpa [State.keepSense, State.keepZ, State.obj_setObj, okey] using low
  rw [State.obj_congr judged, State.obj_congr judged]
  simp [State.keepSense, State.keepZ, State.obj_setObj, okey]

/-- A table of objects written one after the other, one entry for each index from a base on. -/
theorem State.obj_each_range {f : State → Nat → State} {base j : Nat} {v : Nat → Nat}
    (writes : ∀ t k, (f t k).regs = (t.setObj (base + k) j 0 (v k)).regs) (s : State) (n k : Nat) (hk : k < n) :
    (s.each (List.range n) f).obj (base + k) j = v k := by
  induction n with
  | zero => omega
  | succ n ih =>
    have last : s.each (List.range (n + 1)) f = f (s.each (List.range n) f) n := by simp [State.each, List.range_succ]
    rw [last, State.obj_congr (writes _ n), State.obj_setObj]
    split
    · next same =>
      have : k = n := by unfold okey at same; omega
      rw [this]
    · next other => exact ih (by rcases Nat.lt_succ_iff_lt_or_eq.1 hk with l | rfl; exact l; exact absurd rfl other)

theorem execCrackChainCheck_shows (s : State) (l : List Nat) :
    ∃ t, exec (.crackChainCheck l) s = .next t ∧ ∀ f, f < 6 → t.obj (0x1020 + f) 4 = if f ∈ l then 1 else 0 := by
  refine ⟨_, rfl, fun f hf => ?_⟩
  refine (State.obj_each_range (v := fun f => if l.contains f then 1 else 0) (fun t k => ?_) s 6 f hf).trans (by simp)
  dsimp only
  split
  · rfl
  · rfl

end Sys2Proof.Machine
end

section
/-! PROOF. The stages of a wake and the gating of a cluster (R416-R419). -/

namespace Sys2Proof.Machine

/-! ### Wakes (R418, R419) -/

theorem State.cluster_of_wakeOf {s : State} {c : Nat} {w : Wake} (h : s.wakeOf c = some w) : w.cluster = c := by
  unfold State.wakeOf at h
  split at h
  · split at h
    · next same => rwa [Option.some.inj h] at same
    · cases h
  · cases h

theorem State.wakes_setWake (s : State) (c : Nat) (w : Wake) :
    (s.setWake c w).wakes = Tbl.put s.wakes {} (clusterField c) { s.wakeGroup (clusterField c) with now := some w } := rfl

/-- The wake in progress depends on the wake groups alone. -/
theorem State.wakeOf_congr {s t : State} (h : t.wakes = s.wakes) (c : Nat) : t.wakeOf c = s.wakeOf c := by
  unfold State.wakeOf State.wakeGroup
  rw [h]

theorem State.wakeOf_setWake (s : State) {c : Nat} {w : Wake} (h : w.cluster = c) : (s.setWake c w).wakeOf c = some w := by
  simp [State.wakeOf, State.wakeGroup, State.wakes_setWake, h]

theorem State.obj_setWake (s : State) (c : Nat) (w : Wake) {i j e : Nat} (h : j ≠ 5) (hj : j < 256) (he : e < 65536) :
    (s.setWake c w).obj i j e = s.obj i j e :=
  State.obj_setObj_ne _ _ hj he (by decide) (by decide) (.inr (.inl h))

/-- A decided stage keeps the reading of the rail group's current and holds, or closes with a plain or a doubled interval (R419). -/
theorem State.decideStage_decides (s : State) {c : Nat} (ma : Nat) {w : Wake} (h : w.cluster = c) :
    (s.decideStage c ma w).obj (0x1020 + clusterField c) 1 = ma ∧
      (s.decideStage c ma w).wakeOf c = some (if ma > s.obj (0x1020 + clusterField c) 0 * 980 then w.hold s.elapsed
        else w.closeStage s.elapsed (if ma > s.obj (0x1020 + clusterField c) 0 * 900 then 2 else 1)) := by
  have reading : ∀ x : Wake, ((s.setObj (0x1020 + clusterField c) 1 0 ma).setWake c x).obj (0x1020 + clusterField c) 1 = ma := fun x =>
    (State.obj_setWake _ c x (by decide) (by decide) (by decide)).trans (State.obj_setObj_same ..)
  have counted : ∀ (x : Wake) (j : Nat), j < 256 → j ≠ 1 →
      (((s.setObj (0x1020 + clusterField c) 1 0 ma).setWake c x).count 0x1010 j 0 32).obj (0x1020 + clusterField c) 1 = ma := fun x j hj h1 =>
    (State.obj_setObj_ne _ _ (by decide) (by decide) hj (by decide) (.inr (.inl (Ne.symm h1)))).trans (reading x)
  unfold State.decideStage State.groupAbove
  dsimp only
  by_cases full : ma > s.obj (0x1020 + clusterField c) 0 * 980
  · rw [if_pos (by simpa using full), if_pos full]
    by_cases goes : w.holding = true
    · rw [if_pos goes]
      exact ⟨reading _, State.wakeOf_setWake _ h⟩
    · rw [if_neg goes]
      exact ⟨counted _ 2 (by decide) (by decide), (State.wakeOf_congr (State.count_wakes ..) c).trans (State.wakeOf_setWake _ h)⟩
  · rw [if_neg (by simpa using full), if_neg full]
    by_cases near : ma > s.obj (0x1020 + clusterField c) 0 * 900
    · rw [if_pos (by simpa using near), if_pos near]
      exact ⟨counted _ 3 (by decide) (by decide), (State.wakeOf_congr (State.count_wakes ..) c).trans (State.wakeOf_setWake _ h)⟩
    · rw [if_neg (by simpa using near), if_neg near]
      exact ⟨reading _, State.wakeOf_setWake _ h⟩

theorem execSluiceStageDecision_decides {s : State} {c ma : Nat} {w : Wake} (waking : s.wakeOf c = some w) (due : w.due ≤ s.elapsed)
    (left : w.stages < 8) (free : w.holding = false) (budget : w.expired = false) :
    exec (.sluiceStageDecision c ma) s = .next (s.decideStage c ma w) := by
  show execSluiceStageDecision c ma s = _
  have goes : ¬ (w.stages ≥ 8 ∨ w.holding = true ∨ s.elapsed < w.due) := by simp [free]; omega
  simp only [execSluiceStageDecision, waking, if_neg goes, budget, if_neg Bool.false_ne_true]

theorem execSluiceHoldReading_decides {s : State} {c ma : Nat} {w : Wake} (waking : s.wakeOf c = some w) (due : w.due ≤ s.elapsed)
    (holds : w.holding = true) (budget : w.spent s.elapsed = false) :
    exec (.sluiceHoldReading c ma) s = .next (s.decideStage c ma w) := by
  show execSluiceHoldReading c ma s = _
  simp [execSluiceHoldReading, waking, due, holds, budget]

theorem execHoldBudgetExpiry_expires {s : State} {c : Nat} {w : Wake} (waking : s.wakeOf c = some w) (holds : w.holding = true)
    (spent : w.spent s.elapsed = true) :
    ∃ t, exec (.holdBudgetExpiry c) s = .next t ∧ t.wakeOf c = some (w.closeExpired s.elapsed) ∧
      t.obj 0x1010 4 = min (s.obj 0x1010 4 + 1) (2 ^ 32 - 1) := by
  have run : exec (.holdBudgetExpiry c) s = .next ((s.setWake c (w.closeExpired s.elapsed)).count 0x1010 4 0 32) := by
    show execHoldBudgetExpiry c s = _
    simp [execHoldBudgetExpiry, waking, holds, spent]
  have same : (w.closeExpired s.elapsed).cluster = c := show w.cluster = c from State.cluster_of_wakeOf waking
  refine ⟨_, run, ?_, ?_⟩
  · exact (State.wakeOf_congr (State.count_wakes ..) c).trans (State.wakeOf_setWake _ same)
  · rw [State.obj_count_same, State.obj_setWake _ _ _ (by decide) (by decide) (by decide)]

/-! ### Gating (R416, R417) -/

/-- Changing the states of tiles leaves every object below the tiles'. -/
theorem State.obj_each_setTileState (s : State) (ns : List Nat) (p : State → Nat → Prop) [∀ t n, Decidable (p t n)] (v : Nat) {i j e : Nat}
    (hi : i < 0x2100) (hj : j < 256) (he : e < 65536) :
    (s.each ns (fun t n => if p t n then t.setTileState n v else t)).obj i j e = s.obj i j e := by
  induction ns generalizing s with
  | nil => rfl
  | cons n ns ih =>
    refine (ih (if p s n then s.setTileState n v else s)).trans ?_
    split
    · exact State.obj_setObj_ne _ _ hj he (by decide) (by decide) (.inl (by unfold tileIx; omega))
    · rfl

theorem State.obj_setClock (s : State) (c v mhz : Nat) {i j e : Nat} (hi : i < 0x1450) (hj : j < 256) (he : e < 65536) :
    (s.setClock c v mhz).obj i j e = s.obj i j e := by
  unfold State.setClock
  split
  · rfl
  · rw [State.obj_setObj_ne _ _ hj he (by decide) (by decide) (.inl (by omega)), State.obj_setObj_ne _ _ hj he (by decide) (by decide) (.inl (by omega))]

theorem State.plane_setPlane (s : State) (c v : Nat) : (s.setPlane c v).plane c = v := State.obj_setObj_same ..

/-- A gate begun at an ON plane leaves it GATING. -/
theorem execClusterGateRequest_gates {s : State} {c : Nat} (hc : c < 90) (on : s.plane c = plOn) (may : s.gateable c = true) :
    ∃ t, exec (.clusterGateRequest c) s = .next t ∧ t.plane c = plGating := by
  refine ⟨_, rfl, ?_⟩
  rw [State.gateRequest, if_pos on, if_pos may]
  unfold State.startGate State.plane
  dsimp only
  rw [State.obj_each_setTileState _ _ _ _ (by omega) (by decide) (by decide), State.obj_setObj_ne _ _ (by decide) (by decide) (by decide) (by decide)
    (.inl (by omega)), State.obj_setClock _ _ _ _ (by omega) (by decide) (by decide)]
  exact State.plane_setPlane s c plGating

theorem State.regs_each_loseArray (s : State) (ns : List Nat) : (s.each ns State.loseArray).regs = s.regs := by
  induction ns generalizing s with
  | nil => rfl
  | cons n ns ih => exact (ih (s.loseArray n)).trans rfl

theorem execGatingComplete_gated {s : State} {c : Nat} (gating : s.plane c = plGating) (noWait : s.planeWaits c = none) :
    ∃ t, exec (.gatingComplete c) s = .next t ∧ t.plane c = plGated := by
  refine ⟨_, rfl, ?_⟩
  rw [if_pos gating]
  dsimp only
  rw [if_neg (by simp [noWait])]
  exact (State.obj_congr (State.regs_each_loseArray ..) _ _ _).trans (State.plane_setPlane s c plGated)

/-- A cluster that comes ON keeps every other object below 1310. -/
theorem State.obj_clusterOn (s : State) (c : Nat) {i j e : Nat} (hi : i < 0x1310) (hj : j < 256) (he : e < 65536) :
    (s.clusterOn c).obj i j e = (s.setPlane c plOn).obj i j e := by
  unfold State.clusterOn
  dsimp only
  rw [State.obj_each_setTileState _ _ _ _ (by omega) hj he, State.obj_setClock _ _ _ _ (by omega) hj he]

theorem execClusterClockLock_on {s : State} {c : Nat} {w : Wake} (hc : c < 90) (waking : s.wakeOf c = some w) (done : 8 ≤ w.stages)
    (due : w.due ≤ s.elapsed) (noWait : s.planeWaits c = none) :
    ∃ t, exec (.clusterClockLock c) s = .next t ∧ t.plane c = plOn ∧
      t.obj (0x1040 + c) 0xC = min (s.obj (0x1040 + c) 0xC + 1) (2 ^ 32 - 1) := by
  have goes : ¬ (w.stages < 8 ∨ s.elapsed < w.due) := by omega
  have run : exec (.clusterClockLock c) s = .next
      ((((s.clusterOn c).setObj (0x1040 + c) 0xB 0 ((s.elapsed - w.asked) / 4)).count (0x1040 + c) 0xC 0 32).nextWake (clusterField c)) := by
    show execClusterClockLock c s = _
    simp only [execClusterClockLock, waking, if_neg goes, noWait, if_neg (show ¬ (none : Option Bool) = some false by decide)]
  have next : ∀ (u : State) (f j : Nat), j < 256 → j ≠ 5 → (u.nextWake f).obj (0x1040 + c) j = u.obj (0x1040 + c) j := by
    intro u f j hj h5
    unfold State.nextWake
    split
    · exact State.obj_setObj_ne _ _ hj (by decide) (by decide) (by decide) (.inr (.inl h5))
    · exact State.obj_setObj_ne _ _ hj (by decide) (by decide) (by decide) (.inr (.inl h5))
  refine ⟨_, run, ?_, ?_⟩
  · rw [State.plane, next _ _ _ (by decide) (by decide), State.count, State.obj_setObj_ne _ _ (by decide) (by decide) (by decide) (by decide) (.inr (.inl (by decide))),
      State.obj_setObj_ne _ _ (by decide) (by decide) (by decide) (by decide) (.inr (.inl (by decide))), State.obj_clusterOn _ _ (by omega) (by decide) (by decide)]
    exact State.plane_setPlane s c plOn
  · rw [next _ _ _ (by decide) (by decide), State.obj_count_same, State.obj_setObj_ne _ _ (by decide) (by decide) (by decide) (by decide) (.inr (.inl (by decide))),
      State.obj_clusterOn _ _ (by omega) (by decide) (by decide), State.setPlane, State.obj_setObj_ne _ _ (by decide) (by decide) (by decide) (by decide) (.inr (.inl (by decide)))]

end Sys2Proof.Machine
end

section
/-! PROOF. The stages of a start (R469, R470, R482, R485-R489), a plain write (R396), and the boot and power commands together. -/

namespace Sys2Proof.Machine

/-! ### The stages of a start -/

/-- A stage that its own work neither fails nor moves is followed by the next (R467). -/
theorem State.endStage_next {s w : State} {r : StageReport} {k : Nat} (stage : s.obj 0x7000 3 = k) (before : k < 11) (ordinary : k ≠ 7)
    (work : (s.setObj 0x7010 1 k ((s.elapsed - s.boot.stageAt) / msTide)).stageWork k r = w) (active : w.boot.active = true)
    (still : w.obj 0x7000 3 = k) : (s.endStage r).obj 0x7000 3 = k + 1 ∧ (s.endStage r).obj 0x7000 4 = w.tide := by
  unfold State.endStage
  dsimp only
  rw [stage, work, if_pos ⟨active, still, before⟩, if_neg (fun h => ordinary h.1)]
  exact ⟨(State.obj_setObj_ne _ _ (by decide) (by decide) (by decide) (by decide) (.inr (.inl (by decide)))).trans (State.obj_setObj_same ..),
    State.obj_setObj_same ..⟩

/-- S0 fails for no pair of lost phases of the core rails: the module goes on to S1 (R469, R470). -/
theorem execStageEnd_leavesS0 {s : State} {r : StageReport} (active : s.boot.active = true) (stage : s.obj 0x7000 3 = 0) (passed : r.failed = none)
    (rails : ∀ i ∈ [0x10A0, 0x10A5, 0x10A6], s.obj i 0 ≠ 2 ∧ popCount (railPhases (i - 0x10A0) - s.obj i 1) 6 < 2) :
    ∃ t, exec (.stageEnd r) s = .next t ∧ t.obj 0x7000 3 = 1 ∧ t.obj 0x7000 4 = s.tide := by
  have due : s.stageDue = true := by simp [State.stageDue, active, stage]
  have run : exec (.stageEnd r) s = .next (s.endStage r) := congrArg Host.Outcome.next (if_pos due)
  let u := s.setObj 0x7010 1 0 ((s.elapsed - s.boot.stageAt) / msTide)
  have other : ∀ i j : Nat, j < 256 → i ≠ 0x7010 → u.obj i j = s.obj i j := fun i j hj hi =>
    State.obj_setObj_ne _ _ hj (by decide) (by decide) (by decide) (.inl hi)
  have sound : [0x10A0, 0x10A5, 0x10A6].find? (fun i => u.obj i 0 == 2 || decide (popCount (railPhases (i - 0x10A0) - u.obj i 1) 6 ≥ 2)) = none := by
    rw [List.find?_eq_none]
    intro i hi
    have listed : i ≠ 0x7010 := by rintro rfl; revert hi; decide
    obtain ⟨works, phases⟩ := rails i hi
    rw [other i 0 (by decide) listed, other i 1 (by decide) listed]
    simp [works]; omega
  have work : u.stageWork 0 r = u := by
    show u.stage0 r = u
    unfold State.stage0
    rw [passed, sound]
  have next := State.endStage_next stage (by decide) (by decide) work active ((other 0x7000 3 (by decide) (by decide)).trans stage)
  exact ⟨_, run, next.1, next.2⟩

/-- S9 that holds no mismatching port keeps everything but the mask of the ports and the mismatch. -/
theorem State.stage9_unheld {s : State} (hold : s.boot.topoHold = false) :
    s.stage9.boot.active = s.boot.active ∧ s.stage9.tide = s.tide ∧ s.stage9.obj 0x7000 3 = s.obj 0x7000 3 := by
  unfold State.stage9
  dsimp only
  rw [if_neg (by simp [hold])]
  exact ⟨rfl, rfl, State.obj_setObj_ne _ _ (by decide) (by decide) (by decide) (by decide) (.inl (by decide))⟩

/-- S9 ends when its wait is over (R482). -/
theorem execTopologyWaitExpiry_leavesS9 {s : State} (active : s.boot.active = true) (stage : s.obj 0x7000 3 = 9) (hold : s.boot.topoHold = false)
    (past : s.stagePast (s.stageLimit 9 false) = true) :
    ∃ t, exec .topologyWaitExpiry s = .next t ∧ t.obj 0x7000 3 = 10 ∧ t.obj 0x7000 4 = s.tide := by
  have run : exec .topologyWaitExpiry s = .next (s.endStage {}) := congrArg Host.Outcome.next (if_pos ⟨active, stage, past⟩)
  let u := s.setObj 0x7010 1 9 ((s.elapsed - s.boot.stageAt) / msTide)
  obtain ⟨keptActive, keptTide, keptStage⟩ := State.stage9_unheld (s := u) hold
  have still : u.obj 0x7000 3 = 9 :=
    (State.obj_setObj_ne _ _ (by decide) (by decide) (by decide) (by decide) (.inl (by decide))).trans stage
  have next := State.endStage_next (r := {}) stage (by decide) (by decide) rfl (keptActive.trans active) (keptStage.trans still)
  exact ⟨_, run, next.1, next.2.trans keptTide⟩

/-- A failed start whose record the flash takes is over and counts, whether it enters SAFE or plans the next attempt (R487, R488). -/
theorem State.failStart_counts {s : State} (unit reason : Nat) (active : s.boot.active = true) (flash : s.bamurn.flash.ok = true) :
    (s.failStart unit reason).boot.active = false ∧ (s.failStart unit reason).obj 0x7000 2 = min 3 (s.obj 0x7000 2 + 1) := by
  generalize failed : s.failStart unit reason = t
  rw [State.failStart, if_neg (by simp [active])] at failed
  extract_lets +lift stage kept recorded n counter boot ended adj marked kind next planned at failed
  have counts : n = min 3 (s.obj 0x7000 2 + 1) := if_pos flash
  rw [← counts]
  clear_value recorded n stage
  have counted : ∀ u : State, u.regs = (recorded.setObj 0x7000 2 0 n).regs → u.obj 0x7000 2 = n := fun u h =>
    (State.obj_congr h ..).trans (State.obj_setObj_same ..)
  have other : ∀ (u : State) (i j e v : Nat), okey 0x7000 2 0 ≠ okey i j e → (u.setObj i j e v).obj 0x7000 2 = u.obj 0x7000 2 := fun u i j e v h =>
    (State.obj_setObj ..).trans (if_neg h)
  split at failed
  · rw [← failed]
    exact ⟨rfl, counted _ rfl⟩
  · have stays : ∀ i, (ended.markImage i).obj 0x7000 2 = n := fun i =>
      (other ended 0x7060 0 i 1 (by unfold okey; omega)).trans (counted ended rfl)
    have waits : marked.boot.active = false ∧ marked.obj 0x7000 2 = n := by
      by_cases image : stage = 1
      · exact (show marked = ended.markImage ended.running from if_pos image) ▸ ⟨rfl, stays _⟩
      · exact (show marked = ended from if_neg image) ▸ ⟨rfl, counted _ rfl⟩
    rw [← failed]
    exact ⟨waits.1, (other planned 0x7000 6 0 adj (by decide)).trans waits.2⟩

theorem execStageTimeout_fails {s : State} {unit : Nat} {full : Bool} (active : s.boot.active = true) (stage : s.obj 0x7000 3 ≠ 9)
    (past : s.stagePast (2 * s.stageLimit (s.obj 0x7000 3) full) = true) (flash : s.bamurn.flash.ok = true) :
    ∃ t, exec (.stageTimeout ⟨unit, full⟩) s = .next t ∧ t.boot.active = false ∧ t.obj 0x7000 2 = min 3 (s.obj 0x7000 2 + 1) :=
  ⟨_, congrArg Host.Outcome.next (if_pos ⟨stage, past⟩), State.failStart_counts unit stTimeout active flash⟩

theorem execNextAttempt_starts {s : State} {kind : Nat} (waiting : s.boot.waiting = some kind) (open' : s.power.closed = false)
    (past : s.boot.failedAt + secTide ≤ s.elapsed) :
    ∃ t, exec .nextAttempt s = .next t ∧ t.device.mode = .startup ∧ t.boot.active = true := by
  have run : exec .nextAttempt s = .next (s.startUp (s.nextKind kind)) := by
    show execNextAttempt s = _
    simp [execNextAttempt, waiting, open', Nat.not_lt.2 past]
  exact ⟨_, run, by simp, by simp⟩

/-- A command that passes the checks and that its own rule answers with `st` has the object keep `st`. -/
theorem State.commandOut_keeps_status {s : State} {sess i j st : Nat} {own : State → State × Nat} (g : s.writeGuard sess i j = none)
    (status : (own s).2 = st) : ∃ t, s.commandOut sess i j own = .next t ∧ t.obj i j = st :=
  ⟨_, State.commandOut_passed own g, (State.obj_setObj_same ..).trans status⟩

theorem ruleMemtestNext_ok {v : Nat} (s : State) (h : v ≤ 2) : (ruleMemtestNext v s).2 = stOk := by
  simp [ruleMemtestNext, h]

/-! ### A plain write (R396) -/

/-- What the directory lists at an index and subindex covers them. -/
theorem objAt_covers {index sub : Nat} {d : ObjDesc} (h : objAt index sub = some d) : d ∈ objects ∧ d.covers index sub = true := by
  unfold objAt at h
  exact ⟨List.mem_of_find?_eq_some h, List.find?_some (p := fun x : ObjDesc => x.covers index sub) h⟩

/-- Object 9010 is persistent and therefore no object of access 2. -/
theorem index_ne_tenants {index sub : Nat} {d : ObjDesc} (h : objAt index sub = some d) (access : d.access = 2) : index ≠ 0x9010 := by
  rintro rfl
  have persistent : ∀ d ∈ objects, d.access = 2 → ¬ (d.base ≤ 0x9010 ∧ 0x9010 < d.base + d.count) := by decide +kernel
  obtain ⟨listed, covers⟩ := objAt_covers h
  simp only [ObjDesc.covers, Bool.and_eq_true, decide_eq_true_eq] at covers
  exact persistent d listed access covers.1

/-- Keeping the value in force changes neither a register nor a message (R431). -/
theorem State.keepInForce_kept (s : State) (i j : Nat) : (s.keepInForce i j).regs = s.regs ∧ (s.keepInForce i j).sent = s.sent := by
  unfold State.keepInForce
  split
  · exact ⟨rfl, rfl⟩
  · exact ⟨rfl, rfl⟩

/-- A write to an object of access 2 after which nothing more follows puts the value and answers OK. -/
theorem execObjectWrite_puts {s : State} {sess index sub ty : Nat} {value : List Byte} {d : ObjDesc} (listed : objAt index sub = some d)
    (g : s.writeGuard sess index sub = none) (single : d.ty ≠ 11) (ok : s.valueOk index sub ty d value = true) (access : d.access = 2)
    (retimes : ¬ (index = 0x1420 ∧ sub = 1)) (chooses : ¬ (0x4010 ≤ index ∧ index < 0x4020 ∧ sub = 0x14))
    (pages : ¬ (0x3410 ≤ index ∧ index < 0x341C ∧ 7 ≤ sub ∧ sub ≤ 9)) :
    ∃ t, exec (.objectWrite sess index sub ty value) s = .next t ∧ t.obj index sub = leNat value ∧ t.sent = .answer sess index sub stOk :: s.sent := by
  have put : s.putValue index sub d value = (s.keepInForce index sub).setObj index sub 0 (leNat value) := by
    simp only [State.putValue, State.afterWrite, if_neg single, if_neg retimes, if_neg chooses, if_neg pages, if_neg (index_ne_tenants listed access)]
  have written : s.writeValue sess index sub ty value = ((s.keepInForce index sub).setObj index sub 0 (leNat value), stOk) := by
    simp [State.writeValue, listed, access, g, ok, put]
  have run : exec (.objectWrite sess index sub ty value) s =
      .next (((s.keepInForce index sub).setObj index sub 0 (leNat value)).answer sess index sub stOk) := by
    show execObjectWrite sess index sub ty value s = _
    rw [execObjectWrite, written]
  refine ⟨_, run, State.obj_setObj_same .., ?_⟩
  rw [State.answer_sent, State.setObj_sent, (s.keepInForce_kept index sub).2]

/-! ### Closes and cold starts (R408, R409, R566) -/

/-- A cold start closes no rail and leaves the power-off pin. -/
theorem State.coldStart_power (s : State) (mv : Nat) : (s.coldStart mv).power.closed = false ∧ (s.coldStart mv).power.pinLow = s.power.pinLow := by
  have started : (s.coldStart mv).power = _ := s.startUp_power 1
  rw [started]
  exact ⟨rfl, rfl⟩

theorem execColdStart_starts {s : State} {mv : Nat} (closed : s.power.closed = true) (cause : s.power.cause ≠ 3) (enough : 42000 ≤ mv)
    (pin : s.power.pinLow = false) : ∃ t, exec (.coldStart mv) s = .next t ∧ t.power.closed = false ∧ t.power.pinLow = false := by
  obtain ⟨started, kept⟩ := s.coldStart_power mv
  refine ⟨_, rfl, ?_⟩
  rw [if_pos ⟨closed, cause, by simp [pin], enough⟩]
  exact ⟨started, kept.trans pin⟩

theorem execPowerOffNRelease_starts {s : State} {mv : Nat} (closed : s.power.closed = true) (cause : s.power.cause ≠ 3) (enough : 42000 ≤ mv) :
    ∃ t, exec (.powerOffNRelease mv) s = .next t ∧ t.power.closed = false ∧ t.power.pinLow = false := by
  refine ⟨_, rfl, ?_⟩
  rw [if_pos ⟨closed, cause, enough⟩]
  exact (s.modPower (fun p => { p with pinLow := false })).coldStart_power mv

/-- More than 1 ms into a sag the module closes (R408). -/
theorem execSaveAndClose_of_sag {s : State} {since : Nat} (sag : s.power.sag = some since) (past : since + msTide < s.elapsed) :
    execSaveAndClose s = .next (s.saveClose 1) := by
  unfold execSaveAndClose
  rw [sag, Option.elim_some, if_pos (decide_eq_true past)]

theorem execSaveAndClose_closes {s : State} (open' : s.power.closed = false) (long : ∃ since, s.power.sag = some since ∧ since + msTide < s.elapsed) :
    ∃ t, exec .saveAndClose s = .next t ∧ t.power.closed = true ∧ t.power.cause = 1 := by
  obtain ⟨since, sag, past⟩ := long
  exact ⟨_, execSaveAndClose_of_sag sag past, State.saveClose_power 1 open'⟩

theorem execInputOvervoltage_closes {s : State} {mv : Nat} (open' : s.power.closed = false) (high : 60000 < mv) :
    ∃ t, exec (.inputOvervoltage mv) s = .next t ∧ t.power.closed = true ∧ t.power.cause = 1 := by
  refine ⟨_, rfl, ?_⟩
  rw [if_neg (by simp [open'])]
  dsimp only
  rw [if_pos high]
  exact State.saveClose_power (s := s.setObj 0x1000 0 0 mv) 1 open'

theorem execPowerOffNLow_closes {s : State} (open' : s.power.closed = false) :
    ∃ t, exec .powerOffNLow s = .next t ∧ t.power.closed = true ∧ t.power.cause = 2 :=
  ⟨_, rfl, State.saveClose_power 2 open'⟩

/-- A phase of a plane that its register shows is not lost. -/
theorem phasesLost_of_shown {s : State} {c phase : Nat} (range : s.obj (0x1040 + c) 1 ≤ (if c < 72 then 7 else 3))
    (has : phase < phaseCount (.vl c)) (shown : bitOf (s.obj (0x1040 + c) 1) phase = true) : bitOf (s.phasesLost (.vl c)) phase = false := by
  have logic : ∀ v ≤ 7, ∀ p < 3, bitOf v p = true → bitOf (7 - v) p = false := by decide
  have bed : ∀ v ≤ 3, ∀ p < 2, bitOf v p = true → bitOf (3 - v) p = false := by decide
  show bitOf ((if c < 72 then 7 else 3) - s.obj (0x1040 + c) 1) phase = false
  replace has : phase < if c < 72 then 3 else 2 := has
  split at has
  · next below =>
    rw [if_pos below] at range ⊢
    exact logic _ range phase has shown
  · next above =>
    rw [if_neg above] at range ⊢
    exact bed _ range phase has shown

/-! ### All of them -/

/-- Settles O50: one lemma for each command. -/
theorem bootAndPowerCommandsComplete : Obligations.BootAndPowerCommandsComplete := by
  refine ⟨fun s sess g mode jobs => ?enter, fun s sess g mode may => ?leave,
    fun s sess index sub ty value d listed g single _ _ _ ok access retimes chooses pages =>
      execObjectWrite_puts listed g single ok access retimes chooses pages,
    fun s mv => execColdStart_starts,
    fun s sess g mode => ?warm, fun s sess g mode => ?cold,
    fun s r => execStageEnd_leavesS0,
    fun s unit full active stage past flash _ _ => execStageTimeout_fails active stage past flash,
    fun s kind => execNextAttempt_starts,
    fun s => execTopologyWaitExpiry_leavesS9,
    fun s sess g => State.commandOut_keeps_status g rfl,
    fun s sess mode g small => State.commandOut_keeps_status g (ruleMemtestNext_ok s small),
    fun s mv => execInputSag_keeps mv,
    fun s => execSaveAndClose_closes,
    fun s mv => execInputOvervoltage_closes,
    fun s i => execBusconvLost_marks,
    fun s c phase hc has range shown _ => execPhaseLost_reports hc has (phasesLost_of_shown range has shown),
    fun s c => execPlaneShort_dark,
    fun s c => execSenseFallback_falls,
    fun s c a b ma => execPathResistanceCheck_computes,
    execCrackChainCheck_shows,
    fun s c ma w waking due left free budget => ?decision,
    fun s c ma w waking due holds budget => ?holding,
    fun s c w => execHoldBudgetExpiry_expires,
    fun s c w hc waking done due noWait _ => execClusterClockLock_on hc waking done due noWait,
    fun s c => execClusterGateRequest_gates,
    fun s c _ gating noWait => execGatingComplete_gated gating noWait,
    fun s => execPowerOffNLow_closes,
    fun s mv => execPowerOffNRelease_starts⟩
  case enter =>
    obtain ⟨t, run, -, -, -, begins, -⟩ := execTestSessionEnter_enters g
    exact ⟨t, run, begins mode jobs⟩
  case leave =>
    obtain ⟨t, run, -, -, -, ends, -⟩ := execTestSessionLeave_leaves g
    exact ⟨t, run, ends mode may⟩
  case warm =>
    obtain ⟨t, run, startup, latched, -⟩ := execStartCommand_begins (.inl ⟨rfl, rfl, rfl⟩) g mode
    exact ⟨t, run, startup, latched⟩
  case cold =>
    obtain ⟨t, run, startup, latched, -⟩ := execStartCommand_begins (.inr ⟨rfl, rfl, rfl⟩) g mode
    exact ⟨t, run, startup, latched⟩
  case decision =>
    exact ⟨_, execSluiceStageDecision_decides waking due left free budget, State.decideStage_decides s ma (State.cluster_of_wakeOf waking)⟩
  case holding =>
    exact ⟨_, execSluiceHoldReading_decides waking due holds budget, State.decideStage_decides s ma (State.cluster_of_wakeOf waking)⟩

end Sys2Proof.Machine
end

section
/-! PROOF. Tile positions, their physical numbers and object indices, and the reserve columns (01_module_and_floor_plan.md). -/

namespace Sys2Proof.Machine

/-! ### Coordinates and physical numbers (R13, R14) -/

@[simp] theorem xOf_posOf {x : Nat} (y : Nat) (h : x < 51) : xOf (posOf x y) = x := by
  rw [xOf, posOf, Nat.mul_add_mod', Nat.mod_eq_of_lt h]

@[simp] theorem yOf_posOf {x : Nat} (y : Nat) (h : x < 51) : yOf (posOf x y) = y := by
  rw [yOf, posOf, Nat.add_comm, Nat.add_mul_div_right _ _ (by decide), Nat.div_eq_of_lt h, Nat.zero_add]

@[simp] theorem posOf_xOf_yOf (n : Nat) : posOf (xOf n) (yOf n) = n := Nat.div_add_mod' n 51

theorem fieldNo_posOf {x : Nat} (y : Nat) (h : x < 51) : fieldNo (posOf x y) = 3 * (y / 12) + x / 17 := by
  rw [fieldNo, xOf_posOf y h, yOf_posOf y h]

theorem posOf_lt {x y : Nat} (hx : x < 51) (hy : y < 24) : posOf x y < 1224 := by
  unfold posOf
  omega

theorem xOf_lt (n : Nat) : xOf n < 51 := Nat.mod_lt n (by decide)

theorem yOf_lt {n : Nat} (h : n < 1224) : yOf n < 24 := Nat.div_lt_of_lt_mul h

theorem fieldNo_lt {n : Nat} (h : n < 1224) : fieldNo n < 6 := by
  have x := xOf_lt n
  have y := yOf_lt h
  unfold fieldNo
  omega

/-- The field and the local coordinates of a tile give back its global coordinates. -/
theorem coordinates_of_fieldNo (n : Nat) :
    17 * (fieldNo n % 3) + xOf n % 17 = xOf n ∧ 12 * (fieldNo n / 3) + yOf n % 12 = yOf n := by
  have x := xOf_lt n
  unfold fieldNo
  omega

theorem exists_position {n : Nat} (h : n < 1224) :
    ∃ f lx ly, f < 6 ∧ lx < 17 ∧ ly < 12 ∧ n = posOf (17 * (f % 3) + lx) (12 * (f / 3) + ly) := by
  refine ⟨fieldNo n, xOf n % 17, yOf n % 12, fieldNo_lt h, Nat.mod_lt _ (by decide), Nat.mod_lt _ (by decide), ?_⟩
  obtain ⟨x, y⟩ := coordinates_of_fieldNo n
  rw [x, y, posOf_xOf_yOf]

/-! ### Object indices (R14) -/

theorem tileIx_injective : Function.Injective tileIx := fun _ _ => Nat.add_left_cancel

theorem exists_tileIx {i : Nat} (low : 0x2100 ≤ i) (high : i ≤ 0x25C7) : ∃ n, n < 1224 ∧ tileIx n = i :=
  ⟨i - 0x2100, by omega, Nat.add_sub_cancel' low⟩

/-! ### Regular and reserve columns (R15) -/

theorem isReserveCol_posOf {x : Nat} (y : Nat) (h : x < 51) : isReserveCol (posOf x y) = true ↔ x % 17 = 16 := by
  rw [isReserveCol, xOf_posOf y h, beq_iff_eq]

/-- A row is three fields of 17 columns wide, so the physical number alone shows the local column. -/
theorem isReserveCol_iff_modEq (n : Nat) : isReserveCol n = true ↔ n ≡ 16 [MOD 17] := by
  rw [isReserveCol, xOf, beq_iff_eq, Nat.mod_mod_of_dvd n (by decide : 17 ∣ 51)]
  rfl

/-- One tile number in 17 is in a reserve column. -/
theorem length_reserve : (allTiles.filter (fun n => isReserveCol n)).length = 72 := by
  have numbers : allTiles.filter (fun n => isReserveCol n) = allTiles.filter (fun n => decide (n ≡ 16 [MOD 17])) :=
    List.filter_congr fun n _ => by rw [Bool.eq_iff_iff, isReserveCol_iff_modEq, decide_eq_true_iff]
  calc (allTiles.filter (fun n => isReserveCol n)).length
      = Nat.count (· ≡ 16 [MOD 17]) 1224 := by rw [numbers, Nat.count, List.countP_eq_length_filter]
    _ = 1224 / 17 + if 16 % 17 < 1224 % 17 then 1 else 0 := Nat.count_modEq_card 1224 (by decide) 16
    _ = 72 := by decide

theorem length_filter_not {α : Type} (p : α → Bool) (l : List α) :
    (l.filter (fun a => !p a)).length = l.length - (l.filter (fun a => p a)).length :=
  Nat.eq_sub_of_add_eq' (List.length_eq_length_filter_add p).symm

theorem length_regular : (allTiles.filter (fun n => !isReserveCol n)).length = 1152 := by
  rw [length_filter_not isReserveCol, List.length_range, length_reserve]

/-! ### All of them -/

/-- Settles O49: a row of the die is 51 positions, three fields of 17 columns, and the die 24 rows, two fields of 12. -/
theorem positionsTileNumbersAndColumns : Obligations.PositionsTileNumbersAndColumns := by
  refine ⟨fun f lx ly x y hf hlx hly hx hy => ?position, fun n h => ⟨exists_position h, ?low, ?high, fun m _ same => tileIx_injective same⟩,
    fun i => exists_tileIx, length_regular, length_reserve⟩
  case position =>
    have x51 : x < 51 := by omega
    have y24 : y < 24 := by omega
    have field : 3 * (y / 12) + x / 17 = f := by omega
    have column : x % 17 = lx := by omega
    have row : y % 12 = ly := by omega
    have reserve : isReserveCol (posOf x y) = true ↔ lx = 16 := column ▸ isReserveCol_posOf y x51
    exact ⟨rfl, posOf_lt x51 y24, xOf_posOf y x51, yOf_posOf y x51, (fieldNo_posOf y x51).trans field, fieldNo_posOf y x51,
      column.symm, row.symm, rfl, reserve, by omega⟩
  case low => exact Nat.le_add_right _ _
  case high => exact Nat.add_le_add_left (Nat.le_of_lt_succ h) 0x2100

end Sys2Proof.Machine
end

section
/-! PROOF. A tile after each of its updates, the head of a queue, and the commands that every queue or Q-control may issue (05 R120-R131, R138). -/

namespace Sys2Proof.Machine

/-! ### A tile after an update -/

theorem State.tile_modTile_ne (s : State) {n m : Nat} (f : Tile → Tile) (h : m ≠ n) : (s.modTile n f).tile m = s.tile m := by
  rw [State.tile_modTile, if_neg h]

@[simp] theorem State.tile_modTile_same (s : State) (n : Nat) (f : Tile → Tile) : (s.modTile n f).tile n = f (s.tile n) := by
  rw [State.tile_modTile, if_pos rfl]

@[simp] theorem State.tile_modArr_same (s : State) (n : Nat) (f : ArrayUnit → ArrayUnit) :
    (s.modArr n f).tile n = { s.tile n with arr := f (s.tile n).arr } := State.tile_modTile_same ..

@[simp] theorem State.tile_modQueue_same (s : State) (n q : Nat) (f : QueueUnit → QueueUnit) :
    (s.modQueue n q f).tile n = { s.tile n with qs := Tbl.put (s.tile n).qs {} q (f (s.queue n q)) } := State.tile_modTile_same ..

@[simp] theorem State.queue_modQueue_same (s : State) (n q : Nat) (f : QueueUnit → QueueUnit) : (s.modQueue n q f).queue n q = f (s.queue n q) := by
  rw [State.queue, State.tile_modQueue_same]
  exact Tbl.get_put_same ..

@[simp] theorem State.queue_modArr (s : State) (n q : Nat) (f : ArrayUnit → ArrayUnit) : (s.modArr n f).queue n q = s.queue n q := by
  rw [State.queue, State.tile_modArr_same, State.queue]

@[simp] theorem State.tile_setObj (s : State) (i j e v m : Nat) : (s.setObj i j e v).tile m = s.tile m := rfl
@[simp] theorem State.tile_count (s : State) (i j e w k m : Nat) : (s.count i j e w k).tile m = s.tile m := rfl
@[simp] theorem State.queue_setObj (s : State) (i j e v n q : Nat) : (s.setObj i j e v).queue n q = s.queue n q := rfl
@[simp] theorem State.queue_count (s : State) (i j e w k n q : Nat) : (s.count i j e w k).queue n q = s.queue n q := rfl
@[simp] theorem State.obj_modTile (s : State) (n : Nat) (f : Tile → Tile) (i j e : Nat) : (s.modTile n f).obj i j e = s.obj i j e := rfl
@[simp] theorem State.obj_modArr (s : State) (n : Nat) (f : ArrayUnit → ArrayUnit) (i j e : Nat) : (s.modArr n f).obj i j e = s.obj i j e := rfl
@[simp] theorem State.obj_modQueue (s : State) (n q : Nat) (f : QueueUnit → QueueUnit) (i j e : Nat) : (s.modQueue n q f).obj i j e = s.obj i j e := rfl

/-! ### What differs in one tile alone -/

theorem State.onlyTile_trans {s t u : State} {n : Nat} (h : s.onlyTile t n) (g : t.onlyTile u n) : s.onlyTile u n := by
  obtain ⟨rest, others⟩ := h
  obtain ⟨rest', others'⟩ := g
  exact ⟨rest'.trans (by rw [rest]), fun m hm => (others' m hm).trans (others m hm)⟩

theorem State.onlyTile_modTile (s : State) (n : Nat) (f : Tile → Tile) : s.onlyTile (s.modTile n f) n :=
  ⟨rfl, fun _ hm => s.tile_modTile_ne f hm⟩

theorem State.onlyTile_setObj (s : State) (n i j e v : Nat) : s.onlyTile (s.setObj i j e v) n := ⟨rfl, fun _ _ => rfl⟩

theorem State.onlyTile_foldl {α : Type} {n : Nat} (xs : List α) {f : State → α → State} (k : ∀ (t : State) x, t.onlyTile (f t x) n) (s : State) :
    s.onlyTile (xs.foldl f s) n := by
  induction xs generalizing s with
  | nil => exact ⟨rfl, fun _ _ => rfl⟩
  | cons x xs ih => exact State.onlyTile_trans (k s x) (ih (f s x))

theorem State.onlyQueues_trans {s t u : State} {n : Nat} (h : s.onlyQueues t n) (g : t.onlyQueues u n) : s.onlyQueues u n :=
  ⟨State.onlyTile_trans h.1 g.1, g.2.trans (by rw [h.2])⟩

theorem State.onlyQueues_modQueue (s : State) (n q : Nat) (f : QueueUnit → QueueUnit) : s.onlyQueues (s.modQueue n q f) n :=
  ⟨s.onlyTile_modTile n _, by rw [State.tile_modQueue_same]⟩

theorem State.onlyQueues_setObj (s : State) (n i j e v : Nat) : s.onlyQueues (s.setObj i j e v) n := ⟨s.onlyTile_setObj n i j e v, rfl⟩

/-! ### The head of a queue (R121-R124, R143) -/

theorem State.atHead_of_headIs {s : State} {n q c w op : Nat} (f : Nat → State) (head : s.headIs n q c w) (code : opcodeOf w = op) :
    s.atHead n q c op f = f w := by
  obtain ⟨may, -, word⟩ := head
  simp [State.atHead, may, word, code]

theorem State.headIs.prologue {s : State} {n q c w : Nat} (head : s.headIs n q c w) : (s.queue n q).prologue = false := by
  obtain ⟨-, pro, -⟩ := head
  exact pro

theorem State.advance_eq_issued {s : State} {n q : Nat} (free : Nat) (pro : (s.queue n q).prologue = false) :
    s.advance n q free = s.issued n q (s.qPc n q + 1) free := by
  simp [State.advance, pro]

theorem State.queue_issued (s : State) (n q pc free : Nat) : (s.issued n q pc free).queue n q = { s.queue n q with free := free } := by
  unfold State.issued State.setQState
  dsimp only
  rw [State.queue_modQueue_same, State.queue_count, State.queue_setObj, State.queue_setObj, State.queue_setObj, State.queue_setObj]

/-- An entry of an object after a write to the same entry of another object of the index. -/
theorem State.obj_setObj_sub (s : State) (i e v : Nat) {j j' : Nat} (h : j ≠ j') : (s.setObj i j' e v).obj i j e = s.obj i j e := by
  rw [State.obj_setObj, if_neg]
  unfold okey
  omega

theorem State.issued_issuedTo (s : State) (n q pc free : Nat) : s.issuedTo (s.issued n q pc free) n q pc free := by
  unfold State.issuedTo State.issued State.setQState State.qState State.qPc State.count
  refine ⟨?_, ?_, ?_, ?_, ?_, ?_⟩
  case refine_3 => rw [State.queue_modQueue_same]
  all_goals
    rw [State.obj_modQueue]
    simp only [State.obj_setObj_same, State.obj_setObj_sub, ne_eq, Nat.reduceEqDiff, not_false_eq_true]

theorem State.issued_onlyQueues (s : State) (n q pc free : Nat) : s.onlyQueues (s.issued n q pc free) n := by
  unfold State.issued State.setQState State.count
  dsimp only
  apply State.onlyQueues_trans _ (State.onlyQueues_modQueue ..)
  iterate 4 apply State.onlyQueues_trans _ (State.onlyQueues_setObj ..)
  exact s.onlyQueues_setObj ..

theorem State.issued_sameRegs (s : State) (n q pc free : Nat) : s.sameRegs (s.issued n q pc free) (queueKeys n q) := by
  have listed : ∀ j ∈ [0x30, 0x31, 0x32, 0x33, 0x34, 0x35], okey (tileIx n) j q ∈ queueKeys n q := fun j hj =>
    List.mem_map_of_mem (f := fun sub => okey (tileIx n) sub q) hj
  unfold State.issued State.setQState State.count
  dsimp only
  apply State.sameRegs_congr _ (State.modTile_regs ..)
  iterate 5 refine State.sameRegs_setObj _ _ _ _ ?_ (listed _ (by decide))
  exact s.sameRegs_refl _

/-- A queue has issued its head, seen from an earlier state of the same issue count. -/
theorem State.issuedTo_of_count {s s' t : State} {n q pc free : Nat} (h : s'.issuedTo t n q pc free)
    (count : s'.obj (tileIx n) 0x35 q = s.obj (tileIx n) 0x35 q) : s.issuedTo t n q pc free := by
  unfold State.issuedTo at h ⊢
  rwa [← count]

/-- What a queue has issued stays so where neither its objects nor its next free cycle change. -/
theorem State.issuedTo_of_kept {s t u : State} {n q pc free : Nat} (h : s.issuedTo t n q pc free)
    (objs : ∀ j, 0x30 ≤ j → j ≤ 0x35 → u.obj (tileIx n) j q = t.obj (tileIx n) j q) (kept : (u.queue n q).free = (t.queue n q).free) :
    s.issuedTo u n q pc free := by
  unfold State.issuedTo State.qState State.qPc at h ⊢
  rwa [kept, objs 0x30 (by decide) (by decide), objs 0x31 (by decide) (by decide), objs 0x33 (by decide) (by decide),
    objs 0x34 (by decide) (by decide), objs 0x35 (by decide) (by decide)]

theorem State.issuedTo_modQueue {s t : State} {n q pc free : Nat} {f : QueueUnit → QueueUnit} (h : s.issuedTo t n q pc free)
    (kept : (f (t.queue n q)).free = (t.queue n q).free) : s.issuedTo (t.modQueue n q f) n q pc free :=
  State.issuedTo_of_kept h (fun _ _ _ => rfl) (by rw [State.queue_modQueue_same, kept])

theorem State.issuedTo_modArr {s t : State} {n q pc free : Nat} (f : ArrayUnit → ArrayUnit) (h : s.issuedTo t n q pc free) :
    s.issuedTo (t.modArr n f) n q pc free :=
  State.issuedTo_of_kept h (fun _ _ _ => rfl) (by rw [State.queue_modArr])

theorem State.issuedTo_setObj {s t : State} {n q pc free j e : Nat} (v : Nat) (h : s.issuedTo t n q pc free) (hq : q < 65536) (he : e < 65536)
    (hj : j < 0x30) : s.issuedTo (t.setObj (tileIx n) j e v) n q pc free :=
  State.issuedTo_of_kept h (fun _ low high => State.obj_setObj_ne t v (by omega) hq (by omega) he (.inr (.inl (by omega)))) rfl

/-! ### WAIT, SIGNAL, END, NOP (R126-R131) -/

theorem State.waitOffset_eq_stepOffset {s : State} {n q : Nat} (inside : s.qPc n q ≠ s.qEntry n q ∨ (s.queue n q).ended = none) :
    s.waitOffset n q = s.stepOffset n := by
  unfold State.waitOffset
  dsimp only
  split
  · next entry => rw [inside.resolve_left (not_not_intro entry)]
  · rfl

/-- The beginning of a pass changes nothing but the step offset that its queue holds. -/
theorem State.beginPass_eq (s : State) (n q : Nat) :
    s.beginPass n q = s ∨ s.beginPass n q = s.modQueue n q (fun u => { u with run := s.waitOffset n q }) := by
  unfold State.beginPass
  split
  · exact .inr rfl
  · exact .inl rfl

theorem State.advance_issuedTo {s : State} {n q : Nat} (free : Nat) (pro : (s.queue n q).prologue = false) :
    s.issuedTo (s.advance n q free) n q (s.qPc n q + 1) free := by
  rw [State.advance_eq_issued free pro]
  exact s.issued_issuedTo ..

theorem State.advance_onlyQueues {s : State} {n q : Nat} (free : Nat) (pro : (s.queue n q).prologue = false) :
    s.onlyQueues (s.advance n q free) n := by
  rw [State.advance_eq_issued free pro]
  exact s.issued_onlyQueues ..

theorem State.advance_beginPass {s : State} {n q : Nat} (free : Nat) (pro : (s.queue n q).prologue = false) :
    s.issuedTo ((s.beginPass n q).advance n q free) n q (s.qPc n q + 1) free ∧ s.onlyQueues ((s.beginPass n q).advance n q free) n := by
  rcases s.beginPass_eq n q with kept | begun
  · rw [kept]
    exact ⟨State.advance_issuedTo free pro, State.advance_onlyQueues free pro⟩
  · rw [begun]
    have pro' : ((s.modQueue n q (fun u => { u with run := s.waitOffset n q })).queue n q).prologue = false := by
      rw [State.queue_modQueue_same]
      exact pro
    exact ⟨State.issuedTo_of_count (State.advance_issuedTo free pro') rfl,
      State.onlyQueues_trans (s.onlyQueues_modQueue n q _) (State.advance_onlyQueues free pro')⟩

theorem execWait_issues {s : State} {n q c w : Nat} (head : s.headIs n q c w) (code : opcodeOf w = 0x01)
    (inside : s.qPc n q ≠ s.qEntry n q ∨ (s.queue n q).ended = none)
    (due : (s.gaugeAt n (fieldOf w 112 7) c % 2 ^ 32 + 2 ^ 32 - (fieldOf w 64 32 + fieldOf w 96 16 * s.stepOffset n) % 2 ^ 32) % 2 ^ 32 < 2 ^ 31) :
    ∃ t, exec (.wait n q c) s = .next t ∧ s.issuedTo t n q (s.qPc n q + 1) (c + 1) ∧ s.onlyQueues t n := by
  have met : reached (s.gaugeAt n (fieldOf w 112 7) c) (s.waitThreshold n q w) = true := by
    rw [State.waitThreshold, State.waitOffset_eq_stepOffset inside, thresholdAt, reached, Nat.mod_mod, decide_eq_true_iff]
    exact due
  refine ⟨(s.beginPass n q).advance n q (c + 1), ?_, State.advance_beginPass _ head.prologue⟩
  show execWait n q c s = _
  rw [execWait, State.atHead_of_headIs _ head code]
  dsimp only
  rw [if_pos met]

theorem execSignal_defers {s : State} {n q c w : Nat} (hq : q < 3) (head : s.headIs n q c w) (code : opcodeOf w = 0x02)
    (near : bitOf w 119 = false) (room : (s.queue n q).deferred.length < 8) :
    ∃ t d, exec (.signal n q c) s = .next t ∧ s.issuedTo t n q (s.qPc n q + 1) (c + 1) ∧
      (t.queue n q).deferred = (s.queue n q).deferred ++ [d] ∧ d.far = false ∧ d.gauge = fieldOf w 112 7 ∧ d.add = fieldOf w 96 16 := by
  have pro := head.prologue
  have credit : s.noSignalCredit n (signalOf w (s.signalReady n q c)) = false := by simp [State.noSignalCredit, signalOf, near]
  refine ⟨(s.advance n q (c + 1)).modQueue n q (fun u => { u with deferred := u.deferred ++ [signalOf w (s.signalReady n q c)] }),
    signalOf w (s.signalReady n q c), ?_,
    State.issuedTo_modQueue (State.advance_issuedTo _ pro) rfl, ?_, near, rfl, rfl⟩
  · show execSignal n q c s = _
    rw [execSignal, State.atHead_of_headIs _ head code]
    dsimp only
    rw [if_neg (by simp [credit, room]), if_neg (by omega)]
  · rw [State.queue_modQueue_same, State.advance_eq_issued _ pro, State.queue_issued]

theorem State.gauge_addGauge_value (s : State) (n g amount device logical : Nat) (other cycle : Option Nat) :
    ((s.addGauge n g amount device logical other cycle).gauge n g).value = ((s.gauge n g).value + amount) % 2 ^ 32 := by
  simp [State.addGauge, State.setGauge, State.modGau, State.gauge]

theorem State.queue_addGauge (s : State) (n g amount device logical : Nat) (other cycle : Option Nat) (q : Nat) :
    (s.addGauge n g amount device logical other cycle).queue n q = s.queue n q := by
  simp [State.addGauge, State.setGauge, State.modGau, State.queue]

theorem execSignalApply_adds {s : State} {n c : Nat} {d : Deferred} {rest : List Deferred} (oldest : (s.queue n 1).deferred = d :: rest)
    (thawed : s.qState n 1 ≠ 6) (ready : d.ready ≤ c) (near : d.far = false) (still : (s.tile n).vec = []) (live : (s.tile n).gau.st = .live) :
    ∃ t, exec (.signalApply n 1 c) s = .next t ∧ (t.queue n 1).deferred = rest ∧
      (t.gauge n d.gauge).value = ((s.gauge n d.gauge).value + d.add) % 2 ^ 32 := by
  have due : s.signalDue n 1 c d = true := by simp [State.signalDue, ready, still, State.noSignalCredit, near]
  have sent : s.suppressed n 1 d = false := rfl
  let u := s.modQueue n 1 (fun u => { u with deferred := rest })
  have live' : (u.tile n).gau.st = .live := by rw [State.tile_modQueue_same, live]
  have value : u.gauge n d.gauge = s.gauge n d.gauge := by rw [State.gauge, State.tile_modQueue_same, State.gauge]
  refine ⟨u.addGauge n d.gauge d.add u.ownDevice (u.logicalOf n) none (some c), ?_, ?_, ?_⟩
  · show execSignalApply n 1 c s = _
    simp only [execSignalApply, oldest, if_neg thawed, due, if_true, sent, Bool.false_eq_true, if_false, State.applySignal, near, State.signalTile]
    rw [live']
  · rw [State.queue_addGauge, State.queue_modQueue_same]
  · rw [State.gauge_addGauge_value, value]

theorem execQueueEnd_returns {s : State} {n q c w : Nat} (head : s.headIs n q c w) (code : opcodeOf w = 0x03) :
    ∃ t, exec (.queueEnd n q c) s = .next t ∧ s.issuedTo t n q (s.qEntry n q) (c + 3) ∧ (t.queue n q).deferred = (s.queue n q).deferred := by
  refine ⟨(s.issued n q (s.qEntry n q) (c + 3)).modQueue n q (fun u => { u with moveBad := none, ended := some u.run }), ?_,
    State.issuedTo_modQueue (s.issued_issuedTo ..) rfl, ?_⟩
  · show execQueueEnd n q c s = _
    rw [execQueueEnd, State.atHead_of_headIs _ head code, head.prologue, if_neg Bool.false_ne_true]
  · rw [State.queue_modQueue_same, State.queue_issued]

theorem execNop_occupies {s : State} {n q c w : Nat} (head : s.headIs n q c w) (code : opcodeOf w = 0x04) :
    ∃ t, exec (.nop n q c) s = .next t ∧ s.issuedTo t n q (s.qPc n q + 1) (c + max 1 (fieldOf w 104 16)) ∧ s.onlyQueues t n := by
  refine ⟨s.advance n q (c + max 1 (fieldOf w 104 16)), ?_, State.advance_issuedTo _ head.prologue, State.advance_onlyQueues _ head.prologue⟩
  show execNop n q c s = _
  rw [execNop, State.atHead_of_headIs _ head code]

/-! ### Q-control (R53, R88, R89) -/

/-- A field within a field of a word. -/
theorem fieldOf_fieldOf (v lo w lo' w' : Nat) (h : lo' + w' ≤ w) : fieldOf (fieldOf v lo w) lo' w' = fieldOf v (lo + lo') w' := by
  unfold fieldOf
  obtain ⟨k, rfl⟩ := Nat.exists_eq_add_of_le h
  rw [Nat.add_assoc, Nat.pow_add 2 lo', Nat.mod_mul_right_div_self, Nat.pow_add 2 w', Nat.mod_mul_right_mod, Nat.div_div_eq_div_mul,
    ← Nat.pow_add]

theorem bitOf_fieldOf (v lo w i : Nat) (h : i < w) : bitOf (fieldOf v lo w) i = bitOf v (lo + i) := by
  have field := fieldOf_fieldOf v lo w i 1 h
  simp only [fieldOf, pow_one] at field
  rw [bitOf, bitOf, fieldOf, field]

theorem fieldOf_lt (v lo w : Nat) : fieldOf v lo w < 2 ^ w := Nat.mod_lt _ (by positivity)

theorem handleEntry_valid {e : Nat} (low : fieldOf e 52 3 = 0) (pad : fieldOf e 0 16 = 0) (fits : bitOf e 63 = true →
    0 < popCount (fieldOf e 40 12) 12 ∧ 0 < fieldOf e 26 14 ∧ fieldOf e 26 14 ≤ 12288 ∧
    fieldOf e 16 10 + (fieldOf e 26 14 + popCount (fieldOf e 40 12) 12 - 1) / popCount (fieldOf e 40 12) 12 ≤ 1024) :
    handleEntry e = some (if bitOf e 63 = true then e else 0) := by
  unfold handleEntry hValid hMask hLength hBase
  rw [if_neg (by omega)]
  by_cases valid : bitOf e 63 = true
  · obtain ⟨banks, rows, most, within⟩ := fits valid
    simp only [valid]
    rw [if_neg (by decide), if_neg (by omega), if_neg (by omega), if_pos trivial]
  · rw [Bool.not_eq_true] at valid
    simp [valid]

theorem execSetHandle_stores {s : State} {n c w : Nat} (head : s.headIs n 3 c w) (code : opcodeOf w = 0x40)
    (noRead : bitOf (s.handle n (fieldOf w 64 6)) 56 = false) (noWrite : bitOf (s.handle n (fieldOf w 64 6)) 55 = false)
    (low : fieldOf w 52 3 = 0) (pad : fieldOf w 0 16 = 0) (fits : bitOf (fieldOf w 0 64) 63 = true →
      0 < popCount (fieldOf w 40 12) 12 ∧ 0 < fieldOf w 26 14 ∧ fieldOf w 26 14 ≤ 12288 ∧
      fieldOf w 16 10 + (fieldOf w 26 14 + popCount (fieldOf w 40 12) 12 - 1) / popCount (fieldOf w 40 12) 12 ≤ 1024) :
    ∃ t, exec (.setHandle n c) s = .next t ∧ s.issuedTo t n 3 (s.qPc n 3 + 1) (c + 1) ∧
      t.handle n (fieldOf w 64 6) = (if bitOf (fieldOf w 0 64) 63 = true then fieldOf w 0 64 else 0) := by
  have field : ∀ lo k, lo + k ≤ 64 → fieldOf (fieldOf w 0 64) lo k = fieldOf w lo k := fun lo k h => by
    rw [fieldOf_fieldOf w 0 64 lo k h, Nat.zero_add]
  have entry : handleEntry (fieldOf w 0 64) = some (if bitOf (fieldOf w 0 64) 63 = true then fieldOf w 0 64 else 0) := by
    apply handleEntry_valid
    · rw [field 52 3 (by decide), low]
    · rw [field 0 16 (by decide), pad]
    · rwa [field 40 12 (by decide), field 26 14 (by decide), field 16 10 (by decide)]
  have small : fieldOf w 64 6 < 65536 := (fieldOf_lt w 64 6).trans (by decide)
  refine ⟨(s.advance n 3 (c + 1)).setObj (tileIx n) 0x20 (fieldOf w 64 6) (if bitOf (fieldOf w 0 64) 63 = true then fieldOf w 0 64 else 0), ?_,
    State.issuedTo_setObj _ (State.advance_issuedTo _ head.prologue) (by decide) small (by decide), State.obj_setObj_same ..⟩
  show execSetHandle n c s = _
  rw [execSetHandle, State.atHead_of_headIs _ head code]
  simp [entry, noRead, noWrite]

theorem execSetSentinel_sets {s : State} {n c w : Nat} (head : s.headIs n 3 c w) (code : opcodeOf w = 0x41) (which : fieldOf w 32 2 < 3)
    (top : fieldOf w 8 8 ≠ 0xFF) (range : fieldOf w 0 8 ≤ fieldOf w 8 8) (high : bitOf w 31 = false) (pad : fieldOf w 16 6 = 0) :
    ∃ t, exec (.setSentinel n c) s = .next t ∧ s.issuedTo t n 3 (s.qPc n 3 + 1) (c + 1) ∧ t.obj (tileIx n) 0x12 (fieldOf w 32 2) = fieldOf w 0 32 := by
  have field : ∀ lo k, lo + k ≤ 32 → fieldOf (fieldOf w 0 32) lo k = fieldOf w lo k := fun lo k h => by
    rw [fieldOf_fieldOf w 0 32 lo k h, Nat.zero_add]
  have sound : sentinelOk (fieldOf w 0 32) = true := by
    rw [sentinelOk, field 8 8 (by decide), field 0 8 (by decide), field 16 6 (by decide), bitOf_fieldOf w 0 32 31 (by decide)]
    simp [top, range, high, pad]
  refine ⟨(s.advance n 3 (c + 1)).setObj (tileIx n) 0x12 (fieldOf w 32 2) (fieldOf w 0 32), ?_,
    State.issuedTo_setObj _ (State.advance_issuedTo _ head.prologue) (by decide) (by omega) (by decide), State.obj_setObj_same ..⟩
  show execSetSentinel n c s = _
  rw [execSetSentinel, State.atHead_of_headIs _ head code, if_pos ⟨which, sound⟩]

end Sys2Proof.Machine
end

section
/-! PROOF. Rows that read clean, and the commands of the MAC array: loading, swapping, passes and their folds (02, 03, 05 R132, R133). -/

namespace Sys2Proof.Machine

/-! ### Rows that read clean (R87, R103) -/

theorem State.holds'_congr {s t : State} {n e first : Nat} {ds : List Row} (tile : t.tile n = s.tile n) (h : s.holds' n e first ds) :
    t.holds' n e first ds := by
  unfold State.holds' at h ⊢
  rwa [tile]

theorem State.holds'_cons {s : State} {n e first : Nat} {d : Row} {ds : List Row} (h : s.holds' n e first (d :: ds)) :
    decodeWord (Tbl.get (s.tile n).spad 0 (spadKey e first)) = .clean d ∧ s.holds' n e (first + 1) ds := by
  refine ⟨h 0 (Nat.succ_pos _), fun i hi => ?_⟩
  have later := h (i + 1) (Nat.succ_lt_succ hi)
  rwa [List.getD_cons_succ, Nat.add_comm i 1, ← Nat.add_assoc] at later

/-- Rows that decode clean are read as they stand, and the read changes nothing. -/
theorem State.readRows_clean {s : State} {n e first : Nat} {ds : List Row} (h : s.holds' n e first ds) :
    s.readRows n e first ds.length = (s, some ds) := by
  induction ds generalizing first with
  | nil => rfl
  | cons d ds ih =>
    obtain ⟨here, later⟩ := State.holds'_cons h
    have read : s.readSpad n (hPlace e first).1 (hPlace e first).2 = (s, some d) := by
      rw [State.readSpad, show (hPlace e first).1 * 1024 + (hPlace e first).2 = spadKey e first from rfl, here]
    rw [List.length_cons, State.readRows, read]
    dsimp only
    rw [ih later]

theorem State.readRows_of_length {s : State} {n e first count : Nat} {ds : List Row} (h : s.holds' n e first ds) (length : ds.length = count) :
    s.readRows n e first count = (s, some ds) :=
  length ▸ State.readRows_clean h

/-! ### No contest, no event, no report -/

@[simp] theorem State.collide_nil (s : State) (n e c : Nat) (banks : List Nat) : s.collide n [] e c banks = (s, false) := rfl

@[simp] theorem slipped_nil (base : Nat) : slipped [] base = base := rfl

theorem State.lostCycles_of_grants {s : State} {n : Nat} (h : (s.tile n).grants = []) (e c : Nat) : s.lostCycles n e c = [] := by
  rw [State.lostCycles, h]
  rfl

/-- Scale codes within a sentinel's range are no events (R52). -/
theorem State.sentinelCount_within {s : State} (n i : Nat) {word : Nat} {codes : List Nat}
    (h : ∀ x ∈ codes, fieldOf word 0 8 ≤ x ∧ x ≤ fieldOf word 8 8 ∧ x ≠ 0xFF) : s.sentinelCount n i word codes = (s, false) := by
  have none' : codes.filter (fun c => decide (c < fieldOf word 0 8) || decide (c > fieldOf word 8 8) || c == 0xFF) = [] := by
    rw [List.filter_eq_nil_iff]
    intro x hx
    obtain ⟨low, high, number⟩ := h x hx
    simp [low, high, number]
  rw [State.sentinelCount, none']
  rfl

@[simp] theorem State.completed_none (s : State) (n c : Nat) : s.completed n c none false = s := rfl

theorem State.arr_advance {s : State} {n q : Nat} (free : Nat) (pro : (s.queue n q).prologue = false) :
    ((s.advance n q free).tile n).arr = (s.tile n).arr :=
  (congrArg Tile.arr (State.advance_onlyQueues free pro).2 :)

/-! ### Loads and swaps (R69, R70, R132) -/

theorem execLoadStationary_captures {s : State} {n c w : Nat} (head : s.headIs n 0 c w) (code : opcodeOf w = 0x10)
    (idle : (s.tile n).arr.load = .idle) (narrow : fieldOf w 116 4 < 6)
    (elems : handleCheck (s.handle n (fieldOf w 54 6)) hrStationary (fieldOf w 40 14) 192 = none)
    (scales : handleCheck (s.handle n (fieldOf w 34 6)) hrStationary (fieldOf w 20 14)
      (if fieldOf w 116 4 = 3 then 12 else if fieldOf w 116 4 = 4 ∨ fieldOf w 116 4 = 5 then 6 else 24) = none) :
    ∃ t r, exec (.loadStationary n c) s = .next t ∧ s.issuedTo t n 0 (s.qPc n 0 + 1) (c + 1) ∧
      (t.tile n).arr = { (s.tile n).arr with load := .waiting r } ∧ r.fmt = fieldOf w 116 4 ∧
      r.eHandle = s.handle n (fieldOf w 54 6) ∧ r.eRow = fieldOf w 40 14 ∧ r.sHandle = s.handle n (fieldOf w 34 6) ∧ r.sRow = fieldOf w 20 14 := by
  have pro := head.prologue
  have rows : (if fieldOf w 116 4 = 3 then 12 else if fieldOf w 116 4 = 4 ∨ fieldOf w 116 4 = 5 then 6 else 24) = scaleRows (fieldOf w 116 4) := by
    simp [scaleRows, is8]
  rw [rows] at scales
  let r : LoadReq := {
    fmt := fieldOf w 116 4, cond := if bitOf w 115 then some (fieldOf w 108 7, s.threshold n (fieldOf w 60 32) (fieldOf w 92 16)) else none,
    eHandle := s.handle n (fieldOf w 54 6), eRow := fieldOf w 40 14, sHandle := s.handle n (fieldOf w 34 6), sRow := fieldOf w 20 14,
    sentinel := s.obj (tileIx n) 0x12 0 }
  refine ⟨(s.advance n 0 (c + 1)).modArr n (fun a => { a with load := .waiting r }), r, ?_, State.issuedTo_modArr _ (State.advance_issuedTo _ pro),
    ?_, rfl, rfl, rfl, rfl, rfl⟩
  · show execLoadStationary n c s = _
    rw [execLoadStationary, State.atHead_of_headIs _ head code]
    dsimp only
    rw [if_neg (not_not_intro idle), if_neg (by simp [stationaryFmt, narrow]), elems]
    dsimp only
    rw [scales]
  · rw [State.tile_modArr_same, State.arr_advance _ pro]

theorem execLoadStationaryRowsStart_crosses {s : State} {n c : Nat} {r : LoadReq} {es ss : List Row} (waiting : (s.tile n).arr.load = .waiting r)
    (works : s.stopped n = false) (alone : (s.tile n).grants = []) (at' : r.cond = none) (valid : r.fmt ≠ 2) (elems : es.length = 192)
    (scales : ss.length = scaleRows r.fmt) (holdsE : s.holds' n r.eHandle r.eRow es) (holdsS : s.holds' n r.sHandle r.sRow ss)
    (within : ∀ x, x ∈ planeBytes ss (outputsOf r.fmt * bandsOf r.fmt) → fieldOf r.sentinel 0 8 ≤ x ∧ x ≤ fieldOf r.sentinel 8 8 ∧ x ≠ 0xFF) :
    ∃ t, exec (.loadStationaryRowsStart n c []) s = .next t ∧ (t.tile n).arr.load = .crossing (c + 95) none false ∧
      (t.tile n).arr.live = (s.tile n).arr.live := by
  have ready : s.loadReady n c r = true := by rw [State.loadReady, at']
  let st : Station := { fmt := r.fmt, rows := pairRows es, scales := planeBytes ss (outputsOf r.fmt * bandsOf r.fmt) }
  refine ⟨(s.count (tileIx n) 0x16 0 32 0).modArr n (fun a => { a with shadow := st, load := .crossing (c + 95) none false }), ?_, ?_, ?_⟩
  · show execLoadStationaryRowsStart n c [] s = _
    simp only [execLoadStationaryRowsStart, works, Bool.false_eq_true, if_false, waiting, ready, if_true, State.readRows_of_length holdsE elems,
      State.readRows_of_length holdsS scales, State.collide_nil, if_neg valid, State.sentinelCount_within n 0 within,
      State.lostCycles_of_grants alone, slipped_nil, st]
  · rw [State.tile_modArr_same]
  · rw [State.tile_modArr_same, State.tile_count]

/-- A load that is done, or whose rows have all crossed without a collision or an event, completes without a report. -/
theorem State.completeLoad_quiet {s : State} {n c : Nat}
    (h : (s.tile n).arr.load = .done ∨ (∃ last, (s.tile n).arr.load = .crossing last none false ∧ last < c)) :
    ((s.completeLoad n c).tile n).arr = { (s.tile n).arr with load := .done } ∧ (s.completeLoad n c).queue n 0 = s.queue n 0
      ∧ (s.completeLoad n c).regs = s.regs := by
  unfold State.completeLoad
  rcases h with done | ⟨last, crossing, crossed⟩
  · rw [done]
    dsimp only
    exact ⟨by rw [← done], rfl, rfl⟩
  · rw [crossing]
    dsimp only
    rw [if_pos crossed, State.completed_none, State.tile_modArr_same, State.queue_modArr]
    exact ⟨rfl, rfl, rfl⟩

theorem execSwap_swaps {s : State} {n c w : Nat} (head : s.headIs n 0 c w) (code : opcodeOf w = 0x11)
    (loaded : (s.tile n).arr.load = .done ∨ (∃ last, (s.tile n).arr.load = .crossing last none false ∧ last < c)) :
    ∃ t, exec (.swap n c) s = .next t ∧ s.issuedTo t n 0 (s.qPc n 0 + 1) (c + 1) ∧ (t.tile n).arr.live = (s.tile n).arr.shadow := by
  obtain ⟨arr, queue, regs⟩ := State.completeLoad_quiet loaded
  have pro : ((s.completeLoad n c).queue n 0).prologue = false := queue ▸ head.prologue
  have pc : (s.completeLoad n c).qPc n 0 = s.qPc n 0 := State.obj_congr regs ..
  refine ⟨((s.completeLoad n c).advance n 0 (c + 1)).modArr n (fun a => { a with live := a.shadow, load := .idle, swapped := true }), ?_,
    State.issuedTo_modArr _ (State.issuedTo_of_count (pc ▸ State.advance_issuedTo _ pro) (State.obj_congr regs ..)), ?_⟩
  · show execSwap n c s = _
    rw [execSwap, State.atHead_of_headIs _ head code]
    dsimp only
    rw [arr]
  · rw [State.tile_modArr_same, State.arr_advance _ pro, arr]

/-! ### Passes (R72-R75, R133) -/

theorem rampIssue_up {r : Ramp} (up : r.up = true) (on : r.downAt = none) (c : Nat) : rampIssue r c = some (max c r.full) := by
  simp [rampIssue, up, on]

theorem rowCycles_pos (a : Nat) : 0 < rowCycles a := by
  unfold rowCycles
  split <;> decide

@[simp] theorem length_passFolds (live : Station) (op a fold slot index start : Nat) (ks : List Nat) (act : Option Nat) (met : Bool)
    (es ss : List Row) (rows : Nat) : (passFolds live op a fold slot index start ks act met es ss rows).length = rows := by
  simp [passFolds]

theorem execPass_streams {s : State} {n c w : Nat} {es ss : List Row} (head : s.headIs n 0 c w) (code : opcodeOf w = 0x12)
    (swapped : (s.tile n).arr.swapped = true) (alone : (s.tile n).grants = [])
    (accepted : passOk (s.tile n).arr.live.fmt (fieldOf w 118 2) (fieldOf w 115 3) (fieldOf w 111 4) (bitOf w 110) (bitOf w 109) (bitOf w 108)
      (fieldOf w 94 14) (fieldOf w 84 10) = true)
    (elems : es.length = streamRows (fieldOf w 111 4) (fieldOf w 94 14))
    (scales : ss.length = (fieldOf w 94 14 * streamScales (fieldOf w 111 4) + 31) / 32)
    (readsE : s.reads n (fieldOf w 78 6) hrStream (fieldOf w 64 14) es) (readsS : s.reads n (fieldOf w 58 6) hrStream (fieldOf w 44 14) ss)
    (up : (s.tile n).arr.ramp.up = true) (on : (s.tile n).arr.ramp.downAt = none) (some' : 0 < fieldOf w 94 14)
    (within : ∀ x, x ∈ planeBytes ss (fieldOf w 94 14 * streamScales (fieldOf w 111 4)) →
      fieldOf (s.obj (tileIx n) 0x12 1) 0 8 ≤ x ∧ x ≤ fieldOf (s.obj (tileIx n) 0x12 1) 8 8 ∧ x ≠ 0xFF) :
    ∃ t start fs, exec (.pass n c []) s = .next t ∧ start = max c (s.tile n).arr.ramp.full ∧
      s.issuedTo t n 0 (s.qPc n 0 + 1) (start + fieldOf w 94 14 * rowCycles (fieldOf w 111 4)) ∧
      (t.tile n).arr.folds = (s.tile n).arr.folds ++ fs ∧ fs.length = fieldOf w 94 14 := by
  obtain ⟨allowedE, holdsE⟩ := readsE
  obtain ⟨allowedS, holdsS⟩ := readsS
  rw [elems] at allowedE
  rw [scales] at allowedS
  let r := (s.tile n).arr.ramp
  let start := max c r.full
  let busy := fieldOf w 94 14 * rowCycles (fieldOf w 111 4)
  let idle := if r.last = 0 ∨ r.downAt.isSome ∨ r.last < r.full then 0 else min r.len (start - (r.last + 1))
  let counted := (s.count (tileIx n) 0x1B 0 64 busy).count (tileIx n) 0x1C 0 64 idle
  let fs := passFolds (s.tile n).arr.live (fieldOf w 118 2) (fieldOf w 111 4) (fieldOf w 115 3) (fieldOf w 84 10) (fieldOf w 0 32) start [] none false
    es ss (fieldOf w 94 14)
  have last : start + busy - 1 + 1 = start + busy :=
    Nat.sub_add_cancel ((Nat.mul_pos some' (rowCycles_pos _)).trans_le (Nat.le_add_left ..))
  have pro : (counted.queue n 0).prologue = false := head.prologue
  have kept : ∀ j, 0x30 ≤ j → counted.obj (tileIx n) j 0 = s.obj (tileIx n) j 0 := fun j hj =>
    (State.obj_setObj_sub _ _ _ _ (by omega)).trans (State.obj_setObj_sub _ _ _ _ (by omega))
  have pc : counted.qPc n 0 = s.qPc n 0 := kept 0x31 (by decide)
  have issued : s.issuedTo (counted.advance n 0 (start + busy)) n 0 (s.qPc n 0 + 1) (start + busy) :=
    State.issuedTo_of_count (pc ▸ State.advance_issuedTo _ pro) (kept 0x35 (by decide))
  refine ⟨(counted.advance n 0 (start + busy)).modArr n (fun u => { u with
    folds := u.folds ++ fs, ramp := { u.ramp with last := start + busy - 1, downAt := none } }), start, fs, ?_, rfl,
    State.issuedTo_modArr _ issued, ?_, length_passFolds ..⟩
  · show execPass n c [] s = _
    rw [execPass, State.atHead_of_headIs _ head code]
    simp only [swapped, Bool.not_true, Bool.false_eq_true, if_false, accepted, allowedE, allowedS, rampIssue_up up on,
      State.readRows_of_length holdsE elems, State.readRows_of_length holdsS scales, State.collide_nil, State.lostCycles_of_grants alone, slipped_nil,
      State.sentinelCount_within n 1 within]
    rw [last]
  · rw [State.tile_modArr_same, show ((counted.advance n 0 (start + busy)).tile n).arr = (s.tile n).arr from State.arr_advance _ pro]

/-! ### Folds (R41, R62-R67) -/

theorem State.onlyTile_modArr {s t : State} {n : Nat} (f : ArrayUnit → ArrayUnit) (h : s.onlyTile t n) : s.onlyTile (t.modArr n f) n :=
  State.onlyTile_trans h (t.onlyTile_modTile n _)

theorem State.onlyTile_count {s t : State} {n : Nat} (i j e w k : Nat) (h : s.onlyTile t n) : s.onlyTile (t.count i j e w k) n :=
  State.onlyTile_trans h (t.onlyTile_setObj n i j e _)

theorem State.onlyTile_ite {s a b : State} {n : Nat} {c : Prop} [Decidable c] (ha : s.onlyTile a n) (hb : s.onlyTile b n) :
    s.onlyTile (if c then a else b) n := by
  split
  · exact ha
  · exact hb

theorem State.onlyTile_landFold (s : State) (n : Nat) (f : Fold) : s.onlyTile (s.landFold n f) n := by
  unfold State.landFold
  refine State.onlyTile_foldl _ (fun t o => ?_) s
  have counted : ∀ column sats nans faults,
      t.onlyTile (((t.count (tileIx n) 0x10 column 16 sats).count (tileIx n) 0x17 0 32 nans).count (tileIx n) 0x18 0 32 faults) n := fun _ _ _ _ =>
    State.onlyTile_count _ _ _ _ _ (State.onlyTile_count _ _ _ _ _ (State.onlyTile_count _ _ _ _ _ ⟨rfl, fun _ _ => rfl⟩))
  refine State.onlyTile_ite (State.onlyTile_modArr _ (counted _ _ _ _)) (State.onlyTile_ite (State.onlyTile_modArr _ ?_) (State.onlyTile_ite ?_
    (State.onlyTile_ite (State.onlyTile_modArr _ ?_) (counted _ _ _ _))))
  · exact State.onlyTile_modArr _ (counted _ _ _ _)
  · exact State.onlyTile_count _ _ _ _ _ (counted _ _ _ _)
  · exact State.onlyTile_modArr _ (counted _ _ _ _)

theorem execFoldLand_lands {s : State} {n c : Nat} {f : Fold} {rest : List Fold} (oldest : (s.tile n).arr.folds = f :: rest) (due : f.lands ≤ c)
    (works : s.stopped n = false) (quiet : f.act = none) (clear : f.collided = false) :
    ∃ t, exec (.foldLand n c) s = .next t ∧ (t.tile n).arr.folds = rest ∧ s.onlyTile t n := by
  refine ⟨(s.landFold n f).modArr n (fun u => { u with folds := rest }), ?_, ?_, ?_⟩
  · show execFoldLand n c s = _
    simp only [execFoldLand, oldest, due, works, Bool.not_false, and_self, if_true, quiet, clear, State.completed_none]
  · rw [State.tile_modArr_same]
  · exact State.onlyTile_modArr _ (s.onlyTile_landFold n f)

end Sys2Proof.Machine
end

section
/-! PROOF. The stages of a vector command: a rule for each stage, and what a VEC whose body ends leaves (06 R146-R151). -/

namespace Sys2Proof.Machine

/-! ### Stages that end -/

/-- Stage `m` run from `x` ends, and its value and context meet `Q`. -/
def Vec.Ends {α : Type} (m : Vec α) (x : VecCtx) (Q : α → VecCtx → Prop) : Prop := ∃ a y, m.run x = .ok (a, y) ∧ Q a y

theorem Vec.ends_pure {α : Type} {a : α} {x : VecCtx} {Q : α → VecCtx → Prop} (h : Q a x) : Vec.Ends (pure a) x Q := ⟨a, x, rfl, h⟩

theorem Vec.ends_bind {α β : Type} {m : Vec α} {f : α → Vec β} {x : VecCtx} {Q : β → VecCtx → Prop}
    (h : Vec.Ends m x (fun a y => Vec.Ends (f a) y Q)) : Vec.Ends (m >>= f) x Q := by
  obtain ⟨a, y, run, b, z, run', q⟩ := h
  refine ⟨b, z, ?_, q⟩
  rw [StateT.run_bind, run]
  exact run'

theorem Vec.ends_get {x : VecCtx} {Q : VecCtx → VecCtx → Prop} (h : Q x x) : Vec.Ends (get : Vec VecCtx) x Q := ⟨x, x, rfl, h⟩

theorem Vec.ends_modify {f : VecCtx → VecCtx} {x : VecCtx} {Q : Unit → VecCtx → Prop} (h : Q () (f x)) : Vec.Ends (modify f : Vec Unit) x Q :=
  ⟨(), f x, rfl, h⟩

theorem Vec.ends_set {x y : VecCtx} {Q : Unit → VecCtx → Prop} (h : Q () y) : Vec.Ends (set y : Vec Unit) x Q := ⟨(), y, rfl, h⟩

theorem Vec.ends_need {b : Bool} {x : VecCtx} {Q : Unit → VecCtx → Prop} (hb : b = true) (h : Q () x) : Vec.Ends (Vec.need b) x Q := by
  subst hb
  exact Vec.ends_pure h

/-! ### What a VEC under way has changed -/

/-- The counters and marks of a tile that the functions of VEC write while they compute. -/
def vecCounters (n : Nat) : List Nat :=
  [(0x11, 0), (0x13, 2), (0x14, 2), (0x15, 2), (0x16, 0), (0x41, 0)].map (fun x => okey (tileIx n) x.1 x.2)

/-- No tile, no message, and of the registers at most `ks`, counters of the vector unit, have changed. -/
structure State.countsOnly (s t : State) (n : Nat) (ks : List Nat) : Prop where
  rest : t = { s with regs := t.regs, tiles := t.tiles, fresh := t.fresh }
  tiles : ∀ m, t.tile m = s.tile m
  regs : s.sameRegs t ks
  listed : ks ⊆ vecCounters n

/-- A VEC under way on tile `n`: begun in state `s`, it has changed counters alone, sees the accumulator file `acc`, and is to write `ws`. -/
structure VecCtx.At (x : VecCtx) (s : State) (n : Nat) (ks : List Nat) (acc : Nat → List F32) (ws : List (Nat × Nat × Row)) : Prop where
  state : s.countsOnly x.s n ks
  file : x.acc = acc
  writes : x.writes = ws

/-- A register that is no counter of the vector unit. -/
theorem okey_notMem_vecCounters {n j e : Nat} (hj : j < 256) (he : e < 65536)
    (other : (j, e) ∉ [(0x11, 0), (0x13, 2), (0x14, 2), (0x15, 2), (0x16, 0), (0x41, 0)]) : okey (tileIx n) j e ∉ vecCounters n := by
  unfold vecCounters
  rw [List.mem_map]
  rintro ⟨⟨j', e'⟩, mem, same⟩
  have small : ∀ x ∈ [(0x11, 0), (0x13, 2), (0x14, 2), (0x15, 2), (0x16, 0), (0x41, 0)], x.1 < 256 ∧ x.2 < 65536 := by decide
  obtain ⟨hj', he'⟩ := small _ mem
  obtain ⟨-, rfl, rfl⟩ := okey_inj _ _ _ _ _ _ hj' he' hj he same
  exact other mem

theorem State.countsOnly.obj {s t : State} {n : Nat} {ks : List Nat} (h : s.countsOnly t n ks) {j e : Nat} (hj : j < 256) (he : e < 65536)
    (other : (j, e) ∉ [(0x11, 0), (0x13, 2), (0x14, 2), (0x15, 2), (0x16, 0), (0x41, 0)]) : t.obj (tileIx n) j e = s.obj (tileIx n) j e :=
  h.regs _ fun mem => okey_notMem_vecCounters hj he other (h.listed mem)

theorem State.countsOnly.handle {s t : State} {n : Nat} {ks : List Nat} (h : s.countsOnly t n ks) {k : Nat} (hk : k < 64) :
    t.handle n k = s.handle n k :=
  h.obj (by decide) (by omega) (by simp)

theorem State.countsOnly.drawAt {s t : State} {n : Nat} {ks : List Nat} (h : s.countsOnly t n ks) (stream site index : Nat) :
    t.drawAt n stream site index = s.drawAt n stream site index := by
  have jobs : t.jobs = s.jobs := by rw [h.rest]
  unfold State.drawAt State.logicalOf State.ownerOf State.job
  rw [jobs, h.tiles, h.obj (j := 0x38) (e := 0) (by decide) (by decide) (by decide), h.obj (j := 4) (e := 0) (by decide) (by decide) (by decide)]

theorem State.countsOnly.setObj {s t : State} {n : Nat} {ks : List Nat} (h : s.countsOnly t n ks) (j e v : Nat) (mem : okey (tileIx n) j e ∈ ks) :
    s.countsOnly (t.setObj (tileIx n) j e v) n ks :=
  ⟨by rw [h.rest]; rfl, h.tiles, State.sameRegs_setObj _ _ _ _ h.regs mem, h.listed⟩

theorem State.countsOnly.count {s t : State} {n : Nat} {ks : List Nat} (h : s.countsOnly t n ks) (j e w k : Nat) (mem : okey (tileIx n) j e ∈ ks) :
    s.countsOnly (t.count (tileIx n) j e w k) n ks := h.setObj j e _ mem

theorem State.countsOnly.sentinelCount {s t : State} {n : Nat} {ks : List Nat} (h : s.countsOnly t n ks) (i word : Nat) (codes : List Nat)
    (count : okey (tileIx n) 0x13 i ∈ ks) (last : okey (tileIx n) 0x14 i ∈ ks) (code : okey (tileIx n) 0x15 i ∈ ks) :
    s.countsOnly (t.sentinelCount n i word codes).1 n ks := by
  unfold State.sentinelCount
  dsimp only
  split
  · exact h
  · exact ((h.count _ _ _ _ count).setObj _ _ _ last).setObj _ _ _ code

/-! ### The rules of the stages -/

section Rules
variable {s : State} {n : Nat} {ks : List Nat} {acc : Nat → List F32} {ws : List (Nat × Nat × Row)} {x : VecCtx} (hx : x.At s n ks acc ws)
include hx

theorem VecCtx.At.withState {t : State} (ht : s.countsOnly t n ks) : VecCtx.At { x with s := t } s n ks acc ws := ⟨ht, hx.file, hx.writes⟩

theorem Vec.ends_check {h right first rows : Nat} {Q : Nat → VecCtx → Prop} (hh : h < 64)
    (allowed : handleCheck (s.handle n h) right first rows = none) (q : Q (s.handle n h) x) : Vec.Ends (Vec.check n h right first rows) x Q := by
  unfold Vec.check
  refine Vec.ends_bind (Vec.ends_get ?_)
  dsimp only
  rw [hx.state.handle hh, allowed]
  exact Vec.ends_pure q

theorem Vec.ends_rows {h first count : Nat} {ds : List Row} {Q : List Row → VecCtx → Prop} (hh : h < 64) (length : ds.length = count)
    (reads : s.reads n h hrVecRead first ds) (q : ∀ y : VecCtx, y.At s n ks acc ws → Q ds y) : Vec.Ends (Vec.rows n h first count) x Q := by
  obtain ⟨allowed, holds⟩ := reads
  have read := State.readRows_of_length (State.holds'_congr (hx.state.tiles n) holds) length
  unfold Vec.rows
  refine Vec.ends_bind (Vec.ends_check hx hh (length ▸ allowed) (Vec.ends_bind (Vec.ends_get ?_)))
  rw [read]
  exact Vec.ends_bind (Vec.ends_set (Vec.ends_pure (q _ ⟨hx.state, hx.file, hx.writes⟩)))

theorem Vec.ends_slots {first count : Nat} {Q : List F32 → VecCtx → Prop} (bound : first + count ≤ 1024)
    (q : ∀ y : VecCtx, y.At s n ks acc ws →
      Q ((List.range count).flatMap (fun i => (List.range 128).map (fun e => (acc (first + i)).getD e 0))) y) :
    Vec.Ends (Vec.slots first count) x Q := by
  obtain ⟨state, rfl, writes⟩ := hx
  unfold Vec.slots
  exact Vec.ends_bind (Vec.ends_need (decide_eq_true bound) (Vec.ends_bind (Vec.ends_get (Vec.ends_bind (Vec.ends_set (Vec.ends_pure
    (q _ ⟨state, rfl, writes⟩)))))))

theorem Vec.ends_write {h first : Nat} {ds : List Row} {Q : Unit → VecCtx → Prop} (hh : h < 64)
    (allowed : handleCheck (s.handle n h) hrVecWrite first ds.length = none)
    (q : ∀ y : VecCtx, y.At s n ks acc (ws ++ s.placed n h first ds) → Q () y) : Vec.Ends (Vec.write n h first ds) x Q := by
  unfold Vec.write
  refine Vec.ends_bind (Vec.ends_check hx hh allowed (Vec.ends_modify (q _ ⟨hx.state, hx.file, ?_⟩)))
  rw [hx.writes]
  rfl

end Rules

/-! ### Source a (R60, R147) -/

/-- The elements of source a for a VEC that sees the accumulator file `acc`, where `xs` are those of the rows behind its handle. -/
def VecWord.elems (v : VecWord) (acc : Nat → List F32) (start count : Nat) (xs : List F32) : List F32 :=
  if v.aAcc then (List.range count).map (fun i => (acc (v.aRow + (start + i) / 128)).getD ((start + i) % 128) 0) else xs

theorem State.vecSource_length {s : State} {n : Nat} {v : VecWord} {start count : Nat} {xs : List F32} (src : s.vecSource n v start count xs) :
    xs.length = count := by
  obtain ⟨-, -, src⟩ := src
  split at src
  · rw [src.2.2.2, List.length_map, List.length_range]
  · obtain ⟨ds, -, -, rfl⟩ := src
    rw [wideElems, List.length_map, List.length_range]

theorem VecWord.length_elems {s : State} {n : Nat} {v : VecWord} {start count : Nat} {xs : List F32} (src : s.vecSource n v start count xs)
    (acc : Nat → List F32) : (v.elems acc start count xs).length = count := by
  unfold VecWord.elems
  split
  · rw [List.length_map, List.length_range]
  · exact State.vecSource_length src

/-- A VEC that sees the file as it stands reads what its source holds. -/
theorem VecWord.elems_file {s : State} {n : Nat} {v : VecWord} {start count : Nat} {xs : List F32} (src : s.vecSource n v start count xs)
    {acc : Nat → List F32} (file : (s.tile n).arr.folds = [] → ∀ slot, acc slot = Tbl.get (s.tile n).arr.acc [] slot) :
    v.elems acc start count xs = xs := by
  obtain ⟨-, -, src⟩ := src
  unfold VecWord.elems
  split
  · next aAcc =>
    rw [if_pos aAcc] at src
    obtain ⟨still, -, -, rfl⟩ := src
    simp only [file still, accGet]
  · rfl

/-- Blocks of `m` numbered entries are one list of entries numbered through. -/
theorem flatMap_range_map {α : Type} (f : Nat → Nat → α) {m : Nat} (hm : 0 < m) (k : Nat) :
    (List.range k).flatMap (fun i => (List.range m).map (f i)) = (List.range (k * m)).map (fun j => f (j / m) (j % m)) := by
  induction k with
  | zero => simp
  | succ k ih =>
    rw [List.range_succ, List.flatMap_append, ih, Nat.succ_mul, List.range_add, List.map_append, List.map_map, List.flatMap_singleton]
    congr 1
    refine List.map_congr_left fun j hj => ?_
    have lt : j < m := List.mem_range.1 hj
    simp [Nat.mul_comm k m, Nat.mul_add_div hm, Nat.div_eq_of_lt lt, Nat.mod_eq_of_lt lt]

/-- The elements of a source in the accumulator file, from those of the slots that hold them. -/
theorem take_drop_slots (acc : Nat → List F32) (row : Nat) {start count : Nat} (some' : 0 < count) :
    (((List.range ((start + count - 1) / 128 - start / 128 + 1)).flatMap (fun i =>
      (List.range 128).map (fun e => (acc (row + start / 128 + i)).getD e 0))).drop (start - start / 128 * 128)).take count
      = (List.range count).map (fun i => (acc (row + (start + i) / 128)).getD ((start + i) % 128) 0) := by
  rw [flatMap_range_map (fun i e => (acc (row + start / 128 + i)).getD e 0) (by decide)]
  refine List.ext_getElem ?_ fun i hi hi' => ?_
  · simp only [List.length_take, List.length_drop, List.length_map, List.length_range]
    omega
  · simp only [List.getElem_take, List.getElem_drop, List.getElem_map, List.getElem_range]
    rw [show row + start / 128 + (start - start / 128 * 128 + i) / 128 = row + (start + i) / 128 by omega,
      show (start - start / 128 * 128 + i) % 128 = (start + i) % 128 by omega]

theorem Vec.ends_source {s : State} {n : Nat} {ks : List Nat} {acc : Nat → List F32} {ws : List (Nat × Nat × Row)} {x : VecCtx}
    (hx : x.At s n ks acc ws) {v : VecWord} {start count : Nat} {xs : List F32} {Q : List F32 → VecCtx → Prop} (hh : v.aHandle < 64)
    (src : s.vecSource n v start count xs) (q : ∀ y : VecCtx, y.At s n ks acc ws → Q (v.elems acc start count xs) y) :
    Vec.Ends (Vec.source n v start count) x Q := by
  obtain ⟨wide, some', src⟩ := src
  unfold Vec.source
  unfold VecWord.elems at q
  refine Vec.ends_bind (Vec.ends_need wide ?_)
  by_cases aAcc : v.aAcc = true
  · rw [if_pos aAcc] at src q ⊢
    obtain ⟨-, fmt, bound, -⟩ := src
    refine Vec.ends_bind (Vec.ends_need (by rw [fmt]; rfl) (Vec.ends_bind (Vec.ends_slots hx (by omega) fun y hy => Vec.ends_pure ?_)))
    rw [take_drop_slots acc v.aRow some']
    exact q y hy
  · rw [if_neg aAcc] at src q ⊢
    obtain ⟨ds, length, reads, rfl⟩ := src
    exact Vec.ends_bind (Vec.ends_get (Vec.ends_bind (Vec.ends_rows hx hh length reads fun y hy =>
      Vec.ends_bind (Vec.ends_modify (Vec.ends_pure (q _ ⟨hy.state, hy.file, hy.writes⟩))))))

/-! ### A VEC as a whole (R149) -/

/-- With nothing still to write, the rows of earlier vector commands change nothing but how the tiles are listed. -/
theorem State.flushVec_of_idle {s : State} {n : Nat} (idle : (s.tile n).vec = []) : s.countsOnly (s.flushVec n) n [] := by
  have flushed : s.flushVec n = s.modTile n (fun t => { t with vec := t.vec.map (fun r => { r with writes := [] }) }) := by
    rw [State.flushVec, idle]
    rfl
  rw [flushed]
  refine ⟨rfl, fun m => ?_, State.sameRegs_of_regs rfl _, List.nil_subset _⟩
  rw [State.tile_modTile]
  split
  · next same => rw [same, idle, List.map_nil, ← idle]
  · rfl

theorem State.draw_countsOnly {s t : State} {n : Nat} {ks : List Nat} (h : s.countsOnly t n ks) : s.countsOnly t.draw.2 n ks :=
  ⟨by unfold State.draw; rw [h.rest], h.tiles, State.sameRegs_congr h.regs rfl, h.listed⟩

/-- With no fold in flight a VEC sees the accumulator file as it stands (R60). -/
theorem State.accSeen_of_still {s : State} {n : Nat} (still : (s.tile n).arr.folds = []) (start last pick slot : Nat) :
    s.accSeen n start last pick slot = Tbl.get (s.tile n).arr.acc [] slot := by
  unfold State.accSeen
  rw [still]
  simp only [List.filter_nil, List.length_nil, List.take_nil, List.append_nil, Nat.zero_add, List.range_one, List.map_cons, List.map_nil,
    List.length_cons, Nat.mod_one]
  rfl

theorem State.sameRegs_mono {s t : State} {ks ks' : List Nat} (h : s.sameRegs t ks) (sub : ks ⊆ ks') : s.sameRegs t ks' :=
  fun k hk => h k fun mem => hk (sub mem)

theorem State.sameRest_trans {s t u : State} (h : t = { s with regs := t.regs, tiles := t.tiles, fresh := t.fresh })
    (g : u = { t with regs := u.regs, tiles := u.tiles, fresh := u.fresh }) : u = { s with regs := u.regs, tiles := u.tiles, fresh := u.fresh } :=
  g.trans (by rw [h])

theorem State.sameRest_of_fresh {s t : State} (h : t = { s with regs := t.regs, tiles := t.tiles }) :
    t = { s with regs := t.regs, tiles := t.tiles, fresh := t.fresh } := by
  have fresh : t.fresh = s.fresh := by rw [h]
  rw [fresh]
  exact h

/-- A VEC that has changed counters alone issues. -/
theorem State.vecIssued_of_countsOnly {s u : State} {n : Nat} {ks : List Nat} (h : s.countsOnly u n ks) (pro : (s.queue n 1).prologue = false)
    (idle : (s.tile n).vec = []) (wait busy free : Nat) (r : VecRun) :
    s.vecIssued ((((u.count (tileIx n) 0x42 0 64 wait).count (tileIx n) 0x40 0 64 busy).advance n 1 free).modTile n
      (fun t => { t with vec := t.vec ++ [r] })) n r.writes ks := by
  let u' := (u.count (tileIx n) 0x42 0 64 wait).count (tileIx n) 0x40 0 64 busy
  have tiles : ∀ m, u'.tile m = s.tile m := h.tiles
  have pro' : (u'.queue n 1).prologue = false := by rw [State.queue, tiles]; exact pro
  have kept : ∀ j, 0x30 ≤ j → j ≤ 0x35 → u'.obj (tileIx n) j 1 = s.obj (tileIx n) j 1 := fun j low high =>
    have ne : ∀ (t : State) (j' v : Nat), (t.setObj (tileIx n) j' 0 v).obj (tileIx n) j 1 = t.obj (tileIx n) j 1 := fun t j' v => by
      rw [State.obj_setObj, if_neg]
      unfold okey
      omega
    ((ne _ _ _).trans (ne _ _ _)).trans (h.obj (by omega) (by decide) (by simp))
  have issued : s.issuedTo (u'.advance n 1 free) n 1 (s.qPc n 1 + 1) free := by
    have pc : u'.qPc n 1 = s.qPc n 1 := kept 0x31 (by decide) (by decide)
    exact State.issuedTo_of_count (pc ▸ State.advance_issuedTo free pro') (kept 0x35 (by decide) (by decide))
  obtain ⟨⟨rest, others⟩, mine⟩ := State.advance_onlyQueues free pro'
  have regs : s.sameRegs (u'.advance n 1 free) (queueKeys n 1 ++ okey (tileIx n) 0x40 0 :: okey (tileIx n) 0x42 0 :: ks) := by
    rw [State.advance_eq_issued free pro']
    refine State.sameRegs_trans (State.sameRegs_count _ _ _ _ _ (State.sameRegs_count _ _ _ _ _ (State.sameRegs_mono h.regs ?_) ?_) ?_)
      (State.sameRegs_mono (u'.issued_sameRegs n 1 _ _) (List.subset_append_left ..))
    · exact fun k hk => List.mem_append_right _ (List.mem_cons_of_mem _ (List.mem_cons_of_mem _ hk))
    · exact List.mem_append_right _ (List.mem_cons_of_mem _ List.mem_cons_self)
    · exact List.mem_append_right _ List.mem_cons_self
  refine ⟨⟨free, State.issuedTo_of_kept issued (fun _ _ _ => rfl) ?_⟩, ⟨r, ?_, rfl⟩, ?_, fun m hm => ?_, ?_, State.sameRegs_congr regs rfl⟩
  · rw [State.queue, State.tile_modTile_same, State.queue]
  · rw [State.tile_modTile_same, mine, tiles, idle]
    rfl
  · exact State.sameRest_trans h.rest (State.sameRest_trans rfl (State.sameRest_trans (State.sameRest_of_fresh rest) rfl))
  · rw [State.tile_modTile_ne _ _ hm, others m hm, tiles]
  · rw [State.tile_modTile_same, mine, tiles]

/-- A VEC whose body ends, whatever accumulator file it sees, issues; it is to write what the body staged on the file as it stands. -/
theorem execVec_issues {s : State} {n c func : Nat} {v : VecWord} {body : Nat → VecWord → Vec (Nat × Nat × Nat)} {ks : List Nat}
    {ws : List (Nat × Nat × Row)} (staged : (Nat → List F32) → List (Nat × Nat × Row)) (head : s.vecHead n c func v) (listed : ks ⊆ vecCounters n)
    (ends : ∀ acc x, x.At s n ks acc [] → Vec.Ends (body n v) x (fun _ y => y.At s n ks acc (staged acc)))
    (file : ∀ acc, ((s.tile n).arr.folds = [] → ∀ slot, acc slot = Tbl.get (s.tile n).arr.acc [] slot) → staged acc = ws) :
    ∃ t, execVec n c [] func body s = .next t ∧ s.vecIssued t n ws ks := by
  obtain ⟨w, head, code, function, rfl, pad, some', rnd, idle, alone⟩ := head
  let run : Vec (Nat × Nat × Nat) := do
    Vec.need (decide (0 < (vecWord w).count) && (!(vecWord w).rnd || func == 0x03) && fieldOf w 0 3 == 0)
    body n (vecWord w)
  have needed : (decide (0 < (vecWord w).count) && (!(vecWord w).rnd || func == 0x03) && fieldOf w 0 3 == 0) = true := by
    simp only [Bool.and_eq_true, Bool.or_eq_true, Bool.not_eq_true', decide_eq_true_eq, beq_iff_eq]
    refine ⟨⟨some', ?_⟩, pad⟩
    cases h : (vecWord w).rnd with
    | false => exact .inl rfl
    | true => exact .inr (rnd h)
  have runs : ∀ (t : State) acc, s.countsOnly t n [] → Vec.Ends run { s := t, acc := acc } (fun _ y => y.At s n ks acc (staged acc)) := fun t acc h =>
    Vec.ends_bind (Vec.ends_need needed (ends acc _ ⟨⟨h.rest, h.tiles, fun k hk => h.regs k List.not_mem_nil, listed⟩, rfl, rfl⟩))
  have flushed := State.flushVec_of_idle (n := n) idle
  obtain ⟨r, x, first, -⟩ := runs _ (fun _ => []) flushed
  let len := x.issueLength r
  let start := s.vecStart n c x.banks x.slots
  let pick := if x.slots.isEmpty then (0, s.flushVec n) else (s.flushVec n).draw
  have picked : s.countsOnly pick.2 n [] := by
    unfold pick
    split
    · exact flushed
    · exact State.draw_countsOnly flushed
  let seen := pick.2.accSeen n start (start + len - 1) (Config.unordered pick.1)
  obtain ⟨r', y, second, hy⟩ := runs _ seen picked
  have written : ws = y.writes := Eq.symm <| hy.writes.trans (file seen fun still slot => by
    rw [← picked.tiles] at still ⊢
    exact State.accSeen_of_still still ..)
  have lost : (s.flushVec n).lostCycles n 2 start = [] := State.lostCycles_of_grants (by rw [flushed.tiles, alone]) ..
  subst written
  refine ⟨_, ?_, State.vecIssued_of_countsOnly hy.state head.prologue idle (start - c) len (start + len - 1 + 1) {
    start := start, lastRead := start + len - 1, lastWrite := start + len - 1 + r.2.2, banks := writeBanks y.writes, writes := y.writes, act := y.act }⟩
  unfold execVec
  rw [State.atHead_of_headIs _ head code, if_neg (not_not_intro function)]
  dsimp only
  rw [first]
  dsimp only
  rw [State.collide_nil]
  dsimp only
  rw [lost, slipped_nil, second]
  rfl

end Sys2Proof.Machine
end

section
/-! PROOF. The elementwise functions of VEC: CONVERT, ADD, MUL, MAX, MIN, ACT, DEQUANT, REQUANT and RANDOM (02 R47-R49, 06 R151-R154, R161). -/

namespace Sys2Proof.Machine

/-! ### Fields and rows -/

theorem State.vecHead_handles {s : State} {n c func : Nat} {v : VecWord} (head : s.vecHead n c func v) :
    v.aHandle < 64 ∧ v.bHandle < 64 ∧ v.dHandle < 64 := by
  obtain ⟨w, -, -, -, rfl, -⟩ := head
  exact ⟨fieldOf_lt .., fieldOf_lt .., fieldOf_lt ..⟩

theorem length_packRows (w per : Nat) (units : List Nat) : (packRows w per units).length = (units.length + per - 1) / per := by
  rw [packRows, List.length_map, List.length_range]

theorem length_packWide {f : Nat} (wide : isWide f = true) (vals : List Nat) : (packWide f vals).length = rowsFor f vals.length := by
  simp only [isWide, Bool.or_eq_true, beq_iff_eq] at wide
  unfold packWide
  rcases wide with rfl | rfl
  · rw [if_neg (by decide), length_packRows]
    rfl
  · rw [if_pos rfl, length_packRows]
    rfl

/-- The rows that hold results are as many as those that hold as many others. -/
theorem length_packWide_congr {f : Nat} {vals vals' : List Nat} (h : vals.length = vals'.length) :
    (packWide f vals).length = (packWide f vals').length := by
  unfold packWide
  split
  · rw [length_packRows, length_packRows, h]
  · rw [length_packRows, length_packRows, h]

section Rules
variable {s : State} {n : Nat} {ks : List Nat} {acc : Nat → List F32} {ws : List (Nat × Nat × Row)} {x : VecCtx} (hx : x.At s n ks acc ws)
include hx

theorem Vec.ends_putWide {v : VecWord} {f start : Nat} {vals : List Nat} {Q : Unit → VecCtx → Prop} (hh : v.dHandle < 64)
    (allowed : handleCheck (s.handle n v.dHandle) hrVecWrite (v.dRow + start / perRow f) (packWide f vals).length = none)
    (q : ∀ y : VecCtx, y.At s n ks acc (ws ++ s.placed n v.dHandle (v.dRow + start / perRow f) (packWide f vals)) → Q () y) :
    Vec.Ends (Vec.putWide n v f start vals) x Q := Vec.ends_write hx hh allowed q

/-- Results that begin with element 0 of d. -/
theorem Vec.ends_putWide_zero {v : VecWord} {f : Nat} {vals : List Nat} {Q : Unit → VecCtx → Prop} (hh : v.dHandle < 64)
    (allowed : handleCheck (s.handle n v.dHandle) hrVecWrite v.dRow (packWide f vals).length = none)
    (q : ∀ y : VecCtx, y.At s n ks acc (ws ++ s.placed n v.dHandle v.dRow (packWide f vals)) → Q () y) :
    Vec.Ends (Vec.putWide n v f 0 vals) x Q := by
  have row : v.dRow + 0 / perRow f = v.dRow := by rw [Nat.zero_div, Nat.add_zero]
  exact Vec.ends_putWide hx hh (row.symm ▸ allowed) (row.symm ▸ q)

end Rules

/-- A VEC that reads source a once, from its element 0. -/
theorem execVec_elementwise {s : State} {n c func count : Nat} {v : VecWord} {body : Nat → VecWord → Vec (Nat × Nat × Nat)} {ks : List Nat}
    {xs : List F32} (staged : List F32 → List (Nat × Nat × Row)) (head : s.vecHead n c func v) (src : s.vecSource n v 0 count xs)
    (listed : ks ⊆ vecCounters n)
    (ends : ∀ acc x, x.At s n ks acc [] → Vec.Ends (body n v) x (fun _ y => y.At s n ks acc (staged (v.elems acc 0 count xs)))) :
    ∃ t, execVec n c [] func body s = .next t ∧ s.vecIssued t n (staged xs) ks :=
  execVec_issues (fun acc => staged (v.elems acc 0 count xs)) head listed ends fun acc file => by rw [VecWord.elems_file src file]

/-! ### CONVERT, ACT, ADD, MUL, MAX, MIN (R152, R153) -/

/-- One result for each element of source a. -/
theorem execVec_map {s : State} {n c func : Nat} {v : VecWord} {body : Nat → VecWord → Vec (Nat × Nat × Nat)} {xs : List F32} {ds : List Row}
    (g : F32 → Nat) (head : s.vecHead n c func v) (src : s.vecSource n v 0 (64 * v.count) xs) (rows : ds = packWide v.fmtOut (xs.map g))
    (allowed : handleCheck (s.handle n v.dHandle) hrVecWrite v.dRow ds.length = none)
    (body_eq : ∃ b r, b = true ∧ body n v = do
      Vec.need b
      let xs ← Vec.source n v 0 (64 * v.count)
      Vec.putWide n v v.fmtOut 0 (xs.map g)
      pure r) :
    ∃ t, execVec n c [] func body s = .next t ∧ s.vecIssued t n (s.placed n v.dHandle v.dRow ds) [] := by
  subst rows
  obtain ⟨aSmall, -, dSmall⟩ := State.vecHead_handles head
  obtain ⟨b, r, needed, body_eq⟩ := body_eq
  refine execVec_elementwise (fun xs => s.placed n v.dHandle v.dRow (packWide v.fmtOut (xs.map g))) head src (List.nil_subset _) fun acc x hx => ?_
  rw [body_eq]
  refine Vec.ends_bind (Vec.ends_need needed (Vec.ends_bind (Vec.ends_source hx aSmall src fun y hy => ?_)))
  refine Vec.ends_bind (Vec.ends_putWide_zero hy dSmall ?_ fun z hz => Vec.ends_pure hz)
  rwa [length_packWide_congr (vals' := xs.map g) (by rw [List.length_map, List.length_map, VecWord.length_elems src, State.vecSource_length src])]

theorem execVecConvert_converts {s : State} {n c : Nat} {v : VecWord} {xs : List F32} {ds : List Row}
    (src : s.vecSource n v 0 (64 * v.count) xs) (head : s.vecHead n c 0x01 v) (wide : isWide v.fmtOut = true) (other : v.fmtIn ≠ v.fmtOut)
    (aux : v.aux = 0) (rows : ds = packWide v.fmtOut (xs.map (toFmt (v.fmtOut == fmtBF16))))
    (allowed : handleCheck (s.handle n v.dHandle) hrVecWrite v.dRow ds.length = none) :
    ∃ t, exec (.vecConvert n c []) s = .next t ∧ s.vecIssued t n (s.placed n v.dHandle v.dRow ds) [] :=
  execVec_map (toFmt (v.fmtOut == fmtBF16)) head src rows allowed ⟨_, _, by simp [wide, other, aux], rfl⟩

theorem execVecAct_acts {s : State} {n c : Nat} {v : VecWord} {xs : List F32} {ds : List Row}
    (src : s.vecSource n v 0 (64 * v.count) xs) (head : s.vecHead n c 0x08 v) (wide : isWide v.fmtOut = true) (aux : v.aux < 10)
    (rows : ds = packWide v.fmtOut (xs.map (fun x =>
      if v.aux = 9 then ((decodeF32 x).mul (decodeF32 x)).round (v.fmtOut == fmtBF16) else toFmt (v.fmtOut == fmtBF16) (actF32 v.aux x))))
    (allowed : handleCheck (s.handle n v.dHandle) hrVecWrite v.dRow ds.length = none) :
    ∃ t, exec (.vecAct n c []) s = .next t ∧ s.vecIssued t n (s.placed n v.dHandle v.dRow ds) [] := by
  show ∃ t, execVecAct n c [] s = .next t ∧ _
  unfold execVecAct
  exact execVec_map _ head src rows allowed ⟨_, _, by simp [wide, aux], rfl⟩

/-- ADD, MUL, MAX and MIN without the old elements of d. -/
theorem execVec_binary {s : State} {n c func : Nat} {v : VecWord} {xs : List F32} {bs ds : List Row} (isMul : Bool)
    (f : Bool → F32 → F32 → Option F32 → Nat) (src : s.vecSource n v 0 (64 * v.count) xs) (wide : isWide v.fmtOut = true) (aux : v.aux < 2)
    (length : bs.length = rowsFor v.fmtIn (if bitOf v.aux 0 = true then 64 else 64 * v.count)) (reads : s.reads n v.bHandle hrVecRead v.bRow bs)
    (head : s.vecHead n c func v)
    (rows : ds = packWide v.fmtOut ((List.range (64 * v.count)).map (fun j => f (v.fmtOut == fmtBF16) (xs.getD j 0)
      ((wideElems v.fmtIn bs (if bitOf v.aux 0 = true then 64 else 64 * v.count)).getD (if bitOf v.aux 0 = true then j % 64 else j) 0) none)))
    (allowed : handleCheck (s.handle n v.dHandle) hrVecWrite v.dRow ds.length = none) :
    ∃ t, execVec n c [] func (vecBinaryBody isMul f) s = .next t ∧ s.vecIssued t n (s.placed n v.dHandle v.dRow ds) [] := by
  subst rows
  obtain ⟨aSmall, bSmall, dSmall⟩ := State.vecHead_handles head
  have noOld : (isMul && bitOf v.aux 1) = false := by
    have bit : bitOf v.aux 1 = false := by simp [bitOf, Nat.div_eq_of_lt aux]
    rw [bit, Bool.and_false]
  have few : v.aux < if isMul = true then 4 else 2 := by split <;> omega
  refine execVec_elementwise (fun xs => s.placed n v.dHandle v.dRow (packWide v.fmtOut ((List.range (64 * v.count)).map (fun j =>
    f (v.fmtOut == fmtBF16) (xs.getD j 0) ((wideElems v.fmtIn bs (if bitOf v.aux 0 = true then 64 else 64 * v.count)).getD
      (if bitOf v.aux 0 = true then j % 64 else j) 0) none)))) head src (List.nil_subset _) fun acc x hx => ?_
  unfold vecBinaryBody
  refine Vec.ends_bind (Vec.ends_need (by simp [wide, few]) (Vec.ends_bind (Vec.ends_source hx aSmall src fun y hy => ?_)))
  refine Vec.ends_bind (Vec.ends_rows hy bSmall length reads fun z hz => ?_)
  dsimp only
  rw [noOld, if_neg Bool.false_ne_true]
  refine Vec.ends_bind (Vec.ends_pure (Vec.ends_bind (Vec.ends_putWide_zero hz dSmall ?_ fun u hu => Vec.ends_pure hu)))
  simpa only [length_packWide wide, List.length_map] using allowed

/-! ### RANDOM (R161) -/

theorem execVecRandom_draws {s : State} {n c : Nat} {v : VecWord} {ds : List Row} (head : s.vecHead n c 0x0E v) (wide : isWide v.fmtOut = true)
    (aux : v.aux < 2) (whole : v.aux = 0 → v.fmtOut = fmtFP32)
    (rows : ds = packWide v.fmtOut ((List.range (64 * v.count)).map (fun j => if v.aux = 0 then (s.drawAt n 1 v.site j).toNat / 2 ^ 32
      else (FVal.fin false ((s.drawAt n 1 v.site j).toNat / 2 ^ 40) (-24)).round (v.fmtOut == fmtBF16))))
    (allowed : handleCheck (s.handle n v.dHandle) hrVecWrite v.dRow ds.length = none) :
    ∃ t, exec (.vecRandom n c []) s = .next t ∧ s.vecIssued t n (s.placed n v.dHandle v.dRow ds) [] := by
  obtain ⟨-, -, dSmall⟩ := State.vecHead_handles head
  show ∃ t, execVecRandom n c [] s = .next t ∧ _
  unfold execVecRandom
  refine execVec_issues (fun _ => s.placed n v.dHandle v.dRow ds) head (List.nil_subset _) (fun acc x hx => ?_) (fun _ _ => rfl)
  have needed : (isWide v.fmtOut && decide (v.aux < 3) && (v.aux != 0 || v.fmtOut == fmtFP32)) = true := by
    by_cases zero : v.aux = 0
    · rw [wide, zero, whole zero]
      rfl
    · simp [wide, zero, Nat.lt_succ_of_lt aux]
  have drawn : ds = packWide v.fmtOut ((List.range (64 * v.count)).map (fun i =>
      if v.aux = 0 then (x.s.drawAt n 1 v.site i).toNat / 2 ^ 32
      else if v.aux = 1 then (FVal.fin false ((x.s.drawAt n 1 v.site i).toNat / 2 ^ 40) (-24)).round (v.fmtOut == fmtBF16)
      else toFmt (v.fmtOut == fmtBF16) (negF32 (logF32 (negF32 (logOf (Config.vecLogWide (2 * ((x.s.drawAt n 1 v.site i).toNat / 2 ^ 40) + 1))
        (2 * ((x.s.drawAt n 1 v.site i).toNat / 2 ^ 40) + 1) (-25))))))) := by
    simp only [rows, hx.state.drawAt]
    by_cases zero : v.aux = 0
    · simp only [zero, if_true]
    · simp only [if_neg zero, if_pos (show v.aux = 1 by omega)]
  refine Vec.ends_bind (Vec.ends_need needed (Vec.ends_bind (Vec.ends_get ?_)))
  dsimp only
  rw [drawn] at allowed ⊢
  exact Vec.ends_bind (Vec.ends_putWide_zero hx dSmall allowed fun y hy => Vec.ends_pure hy)

/-! ### DEQUANT and REQUANT (R47, R48, R154) -/

theorem execVecDequant_restores {s : State} {n c : Nat} {v : VecWord} {es ss ds : List Row} (head : s.vecHead n c 0x0C v) (narrow : v.fmtIn < 6)
    (wide : isWide v.fmtOut = true) (aux : v.aux = 0) (rowsA : v.aAcc = false) (lengthE : es.length = rowsFor v.fmtIn (64 * v.count))
    (lengthS : ss.length = (64 * v.count / blockSize v.fmtIn + 31) / 32) (readsE : s.reads n v.aHandle hrVecRead v.aRow es)
    (readsS : s.reads n v.bHandle hrVecRead v.bRow ss)
    (rows : ds = packWide v.fmtOut ((List.range (64 * v.count)).map (fun j =>
      toFmt (v.fmtOut == fmtBF16) (dequantElem v.fmtIn (planeByte ss (j / blockSize v.fmtIn)) (elemCode v.fmtIn es j)))))
    (allowed : handleCheck (s.handle n v.dHandle) hrVecWrite v.dRow ds.length = none) :
    ∃ t, exec (.vecDequant n c []) s = .next t ∧ s.vecIssued t n (s.placed n v.dHandle v.dRow ds) [okey (tileIx n) 0x16 0] := by
  subst rows
  obtain ⟨aSmall, bSmall, dSmall⟩ := State.vecHead_handles head
  show ∃ t, execVecDequant n c [] s = .next t ∧ _
  unfold execVecDequant
  refine execVec_issues (ks := [okey (tileIx n) 0x16 0]) (fun _ => _) head (by simp [vecCounters]) (fun acc x hx => ?_) (fun _ _ => rfl)
  refine Vec.ends_bind (Vec.ends_need (by simp [isNarrow, narrow, wide, aux, rowsA]) ?_)
  dsimp only
  refine Vec.ends_bind (Vec.ends_rows hx aSmall lengthE readsE fun y hy => Vec.ends_bind (Vec.ends_rows hy bSmall lengthS readsS fun z hz => ?_))
  refine Vec.ends_bind (Vec.ends_modify ?_)
  exact Vec.ends_bind (Vec.ends_putWide_zero (hz.withState (hz.state.count _ _ _ _ List.mem_cons_self)) dSmall allowed fun u hu => Vec.ends_pure hu)

/-- The scale codes that REQUANT chooses for its blocks (R47). -/
def requantScales (f count : Nat) (xs : List F32) : List Nat :=
  (List.range (count / blockSize f)).map (fun b => scaleCode f ((xs.drop (b * blockSize f)).take (blockSize f)))

/-- The codes of the elements that REQUANT writes, with the clamps (R48). -/
def State.requantCodes (s : State) (n : Nat) (v : VecWord) (count : Nat) (xs : List F32) : List (Nat × Bool) :=
  (List.range count).map (fun j => requantElem v.fmtOut ((requantScales v.fmtOut count xs).getD (j / blockSize v.fmtOut) 0) (xs.getD j 0)
    (if v.rnd then some (draw24 (s.drawAt n 0 v.site j)) else none))

/-- The rows that REQUANT writes: the element plane and the scale plane (R154). -/
def State.requantRows (s : State) (n : Nat) (v : VecWord) (count : Nat) (xs : List F32) : List (Nat × Nat × Row) :=
  s.placed n v.dHandle v.dRow (packRows (elemBits v.fmtOut) (perRow v.fmtOut) ((s.requantCodes n v count xs).map (·.1)))
    ++ s.placed n v.bHandle v.bRow (packRows 8 32 (requantScales v.fmtOut count xs))

theorem State.countsOnly.requantCodes {s t : State} {n : Nat} {ks : List Nat} (h : s.countsOnly t n ks) (v : VecWord) (count : Nat) (xs : List F32) :
    t.requantCodes n v count xs = s.requantCodes n v count xs := by
  simp only [State.requantCodes, h.drawAt]

theorem execVecRequant_writes {s : State} {n c : Nat} {v : VecWord} {xs : List F32} {scales : List Nat} {ds bs : List Row}
    (src : s.vecSource n v 0 (64 * v.count) xs) (head : s.vecHead n c 0x03 v) (narrow : v.fmtOut < 6) (aux : v.aux = 0)
    (codes : scales = (List.range (64 * v.count / blockSize v.fmtOut)).map (fun b =>
      scaleCode v.fmtOut ((xs.drop (b * blockSize v.fmtOut)).take (blockSize v.fmtOut))))
    (rowsD : ds = packRows (elemBits v.fmtOut) (perRow v.fmtOut) ((List.range (64 * v.count)).map (fun j =>
      (requantElem v.fmtOut (scales.getD (j / blockSize v.fmtOut) 0) (xs.getD j 0)
        (if v.rnd = true then some (draw24 (s.drawAt n 0 v.site j)) else none)).1)))
    (rowsB : bs = packRows 8 32 scales) (allowedD : handleCheck (s.handle n v.dHandle) hrVecWrite v.dRow ds.length = none)
    (allowedB : handleCheck (s.handle n v.bHandle) hrVecWrite v.bRow bs.length = none) :
    ∃ t, exec (.vecRequant n c []) s = .next t ∧ s.vecIssued t n (s.placed n v.dHandle v.dRow ds ++ s.placed n v.bHandle v.bRow bs)
      [okey (tileIx n) 0x11 0, okey (tileIx n) 0x13 2, okey (tileIx n) 0x14 2, okey (tileIx n) 0x15 2] := by
  have elements : ds = packRows (elemBits v.fmtOut) (perRow v.fmtOut) ((s.requantCodes n v (64 * v.count) xs).map (·.1)) := by
    rw [rowsD, codes, State.requantCodes, List.map_map]
    rfl
  have scaleRows' : bs = packRows 8 32 (requantScales v.fmtOut (64 * v.count) xs) := rowsB.trans (by rw [codes]; rfl)
  rw [elements] at allowedD ⊢
  rw [scaleRows'] at allowedB ⊢
  obtain ⟨aSmall, bSmall, dSmall⟩ := State.vecHead_handles head
  show ∃ t, execVecRequant n c [] s = .next t ∧ _
  unfold execVecRequant
  refine execVec_elementwise (s.requantRows n v (64 * v.count)) head src (by simp [vecCounters]) fun acc x hx => ?_
  refine Vec.ends_bind (Vec.ends_need (by simp [isNarrow, narrow, aux]) ?_)
  dsimp only
  refine Vec.ends_bind (Vec.ends_source hx aSmall src fun y hy => Vec.ends_bind (Vec.ends_get ?_))
  have drawn := hy.state.requantCodes v (64 * v.count) (v.elems acc 0 (64 * v.count) xs)
  unfold State.requantCodes requantScales at drawn
  rw [drawn]
  refine Vec.ends_bind (Vec.ends_write hy dSmall ?_ fun z hz => Vec.ends_bind (Vec.ends_write hz bSmall ?_ fun u hu => ?_))
  · simpa only [length_packRows, State.requantCodes, List.length_map, List.length_range] using allowedD
  · simpa only [length_packRows, requantScales, List.length_map, List.length_range] using allowedB
  refine Vec.ends_bind (Vec.ends_modify (Vec.ends_pure ?_))
  refine ⟨?_, hu.file, hu.writes⟩
  exact (hu.state.count 0x11 _ _ _ (by simp)).sentinelCount _ _ _ (by simp) (by simp) (by simp)

end Sys2Proof.Machine
end

section
/-! PROOF. The row-wise functions of VEC: REDUCE, SOFTMAX, NORM and TOPK (06 R156-R160). -/

namespace Sys2Proof.Machine

/-! ### The parameter row and the vectors (R156) -/

/-- The parameters of a row-wise function in its parameter row. -/
def rowParamOf (w : Nat) : RowParam :=
  RowParam.mk (fieldOf w 250 6) (fieldOf w 236 14) (fieldOf w 230 6) (fieldOf w 216 14) (bitOf w 66) (bitOf w 65) (bitOf w 64)
    (BitVec.ofNat 32 (fieldOf w 32 32)) (fieldOf w 16 16) (fieldOf w 0 16)

/-- The parameter row of a VEC reads clean as `w`, which names vectors of `len` elements, `stride` apart; `vs` are its vectors. -/
structure State.rowsOf (s : State) (n : Nat) (v : VecWord) (ps : List Row) (w len stride : Nat) (vs : List (List F32)) : Prop where
  single : ps.length = 1
  reads : s.reads n v.bHandle hrVecRead v.bRow ps
  word : w = (ps.getD 0 0).toNat
  len' : len = fieldOf w 0 16
  stride' : stride = fieldOf w 16 16
  pad : fieldOf w 67 149 = 0
  some' : 0 < len
  least : 64 ≤ stride
  whole : stride % 64 = 0
  within : len ≤ stride
  count : vs.length = v.count
  source : ∀ i, i < v.count → s.vecSource n v (i * stride) len (vs.getD i [])

/-- Vector `i` for a VEC that sees the accumulator file `acc`. -/
def VecWord.vector (v : VecWord) (acc : Nat → List F32) (stride len : Nat) (vs : List (List F32)) (i : Nat) : List F32 :=
  v.elems acc (i * stride) len (vs.getD i [])

section Rules
variable {s : State} {n : Nat} {ks : List Nat} {acc : Nat → List F32} {ws : List (Nat × Nat × Row)} {x : VecCtx} (hx : x.At s n ks acc ws)
  {v : VecWord} {ps : List Row} {w len stride : Nat} {vs : List (List F32)} (rows : s.rowsOf n v ps w len stride vs)
include rows

theorem State.rowsOf.length_vector {i : Nat} (hi : i < v.count) (acc : Nat → List F32) : (v.vector acc stride len vs i).length = len :=
  VecWord.length_elems (rows.source i hi) acc

/-- A VEC that sees the accumulator file as it stands reads the vectors as they are. -/
theorem State.rowsOf.vectors_file {acc : Nat → List F32}
    (file : (s.tile n).arr.folds = [] → ∀ slot, acc slot = Tbl.get (s.tile n).arr.acc [] slot) :
    (List.range v.count).map (v.vector acc stride len vs) = vs := by
  refine List.ext_getElem (by rw [List.length_map, List.length_range, rows.count]) fun i hi hi' => ?_
  have lt : i < v.count := rows.count ▸ hi'
  rw [List.getElem_map, List.getElem_range, VecWord.vector, VecWord.elems_file (rows.source i lt) file, List.getD_eq_getElem _ _ hi']

include hx

theorem Vec.ends_rowParam {Q : RowParam → VecCtx → Prop} (hb : v.bHandle < 64) (q : ∀ y : VecCtx, y.At s n ks acc ws → Q (rowParamOf w) y) :
    Vec.Ends (Vec.rowParam n v) x Q := by
  obtain ⟨single, reads, rfl, rfl, rfl, pad, some', least, whole, within, -, -⟩ := rows
  unfold Vec.rowParam
  refine Vec.ends_bind (Vec.ends_rows hx hb single reads fun y hy => ?_)
  dsimp only
  refine Vec.ends_bind (Vec.ends_need ?_ (Vec.ends_pure (q y hy)))
  simp only [Bool.and_eq_true, beq_iff_eq, decide_eq_true_eq]
  exact ⟨⟨⟨⟨pad, some'⟩, least⟩, whole⟩, within⟩

/-- Work on each vector in turn stages what it stages on each, vector by vector. -/
theorem Vec.ends_vectors {f : Nat → List F32 → Vec Unit} (staged : Nat → List F32 → List (Nat × Nat × Row)) (ha : v.aHandle < 64)
    (each : ∀ i xs ws y, i < v.count → xs.length = len → VecCtx.At y s n ks acc ws →
      Vec.Ends (f i xs) y (fun _ z => z.At s n ks acc (ws ++ staged i xs))) (i k : Nat) (hk : i + k = v.count) :
    Vec.Ends (Vec.vectors n v (rowParamOf w) f i k) x
      (fun _ y => y.At s n ks acc (ws ++ (List.range' i k).flatMap (fun j => staged j (v.vector acc stride len vs j)))) := by
  induction k generalizing i x ws with
  | zero =>
    refine Vec.ends_pure ?_
    rwa [List.range'_zero, List.flatMap_nil, List.append_nil]
  | succ k ih =>
    have hi : i < v.count := by omega
    have source := rows.source i hi
    have length := rows.length_vector hi acc
    unfold Vec.vectors
    have param : (rowParamOf w).stride = stride ∧ (rowParamOf w).len = len := ⟨rows.stride'.symm, rows.len'.symm⟩
    rw [param.1, param.2]
    refine Vec.ends_bind (Vec.ends_source hx ha source fun y hy => Vec.ends_bind ?_)
    obtain ⟨a, z, run, hz⟩ := each i _ _ y hi length hy
    refine ⟨a, z, run, ?_⟩
    rw [List.range'_succ, List.flatMap_cons, ← List.append_assoc]
    exact ih hz (i + 1) (by omega)

end Rules

/-- The vectors with their numbers. -/
theorem zipIdx_map_range {α : Type} (f : Nat → α) (k : Nat) : ((List.range k).map f).zipIdx = (List.range k).map (fun i => (f i, i)) := by
  refine List.ext_getElem (by simp) fun i hi hi' => ?_
  simp

/-- A row-wise VEC that stages rows vector by vector. -/
theorem execVec_vectors {s : State} {n c func : Nat} {v : VecWord} {body : Nat → VecWord → Vec (Nat × Nat × Nat)} {ks : List Nat}
    {ps : List Row} {w len stride : Nat} {vs : List (List F32)} (rows : s.rowsOf n v ps w len stride vs)
    (staged : Nat → List F32 → List (Nat × Nat × Row)) (head : s.vecHead n c func v) (listed : ks ⊆ vecCounters n)
    (ends : ∀ acc x, x.At s n ks acc [] → Vec.Ends (body n v) x (fun _ y => y.At s n ks acc
      ((List.range v.count).flatMap (fun j => staged j (v.vector acc stride len vs j))))) :
    ∃ t, execVec n c [] func body s = .next t ∧ s.vecIssued t n ((vs.zipIdx).flatMap (fun x => staged x.2 x.1)) ks := by
  refine execVec_issues _ head listed ends fun acc file => ?_
  conv_rhs => rw [← rows.vectors_file file, zipIdx_map_range, List.flatMap_map]

/-! ### SOFTMAX and NORM (R158, R159) -/

theorem length_softmaxF32 (tau : F32) (xs : List F32) : (softmaxF32 tau xs).length = xs.length := by
  unfold softmaxF32
  split
  · rw [List.length_map]
  · simp

theorem length_normF32 (layer : Bool) (eps : F32) (g h : Option (List F32)) (xs : List F32) : (normF32 layer eps g h xs).length = xs.length := by
  unfold normF32
  cases layer <;> simp

theorem rowParamOf_tau (w : Nat) : (rowParamOf w).tau = if fieldOf w 32 32 = 0 then 0x3F800000#32 else BitVec.ofNat 32 (fieldOf w 32 32) := by
  have zero : BitVec.ofNat 32 (fieldOf w 32 32) = 0 ↔ fieldOf w 32 32 = 0 := by
    rw [← BitVec.toNat_inj, BitVec.toNat_ofNat, Nat.mod_eq_of_lt (fieldOf_lt w 32 32)]
    rfl
  unfold RowParam.tau rowParamOf
  simp only [zero]

/-- Work that writes one wide result for each element of a vector. -/
theorem Vec.ends_putVector {s : State} {n : Nat} {ks : List Nat} {acc : Nat → List F32} {ws : List (Nat × Nat × Row)} {y : VecCtx} {v : VecWord}
    {start len : Nat} (hy : y.At s n ks acc ws) (hd : v.dHandle < 64) (wide : isWide v.fmtOut = true) {vals : List Nat} (length : vals.length = len)
    (allowed : handleCheck (s.handle n v.dHandle) hrVecWrite (v.dRow + start / perRow v.fmtOut) (rowsFor v.fmtOut len) = none) :
    Vec.Ends (Vec.putWide n v v.fmtOut start vals) y (fun _ z => z.At s n ks acc
      (ws ++ s.placed n v.dHandle (v.dRow + start / perRow v.fmtOut) (packWide v.fmtOut vals))) :=
  Vec.ends_putWide hy hd (by rwa [length_packWide wide, length]) fun _ hz => hz

theorem execVecSoftmax_writes {s : State} {n c : Nat} {v : VecWord} {ps : List Row} {w len stride : Nat} {vs : List (List F32)}
    (rows : s.rowsOf n v ps w len stride vs) (head : s.vecHead n c 0x0A v) (wide : isWide v.fmtOut = true) (aux : v.aux = 0)
    (allowed : ∀ i, i < v.count →
      handleCheck (s.handle n v.dHandle) hrVecWrite (v.dRow + i * stride / perRow v.fmtOut) (rowsFor v.fmtOut len) = none) :
    ∃ t, exec (.vecSoftmax n c []) s = .next t ∧ s.vecIssued t n ((vs.zipIdx).flatMap (fun x =>
      s.placed n v.dHandle (v.dRow + x.2 * stride / perRow v.fmtOut) (packWide v.fmtOut ((softmaxF32
        (if fieldOf w 32 32 = 0 then 0x3F800000#32 else BitVec.ofNat 32 (fieldOf w 32 32)) x.1).map (toFmt (v.fmtOut == fmtBF16)))))) [] := by
  obtain ⟨aSmall, bSmall, dSmall⟩ := State.vecHead_handles head
  have param : (rowParamOf w).stride = stride := rows.stride'.symm
  show ∃ t, execVecSoftmax n c [] s = .next t ∧ _
  unfold execVecSoftmax
  rw [← rowParamOf_tau]
  refine execVec_vectors rows (fun i xs => s.placed n v.dHandle (v.dRow + i * stride / perRow v.fmtOut)
    (packWide v.fmtOut ((softmaxF32 (rowParamOf w).tau xs).map (toFmt (v.fmtOut == fmtBF16))))) head (List.nil_subset _) fun acc x hx => ?_
  refine Vec.ends_bind (Vec.ends_need (by simp [wide, aux]) (Vec.ends_bind (Vec.ends_rowParam hx rows bSmall fun y hy => Vec.ends_bind ?_)))
  obtain ⟨a, z, run, hz⟩ := Vec.ends_vectors hy rows _ aSmall (fun i xs ws z hi length hz =>
    Vec.ends_putVector (vals := (softmaxF32 (rowParamOf w).tau xs).map (toFmt (v.fmtOut == fmtBF16))) hz dSmall wide
      (by rw [List.length_map, length_softmaxF32, length]) (allowed i hi)) 0 v.count (Nat.zero_add _)
  rw [param]
  refine ⟨a, z, run, Vec.ends_pure ?_⟩
  rwa [List.nil_append, ← List.range_eq_range'] at hz

theorem execVecNorm_writes {s : State} {n c : Nat} {v : VecWord} {ps : List Row} {w len stride : Nat} {vs : List (List F32)}
    (rows : s.rowsOf n v ps w len stride vs) (head : s.vecHead n c 0x0B v) (wide : isWide v.fmtOut = true) (aux : v.aux < 2)
    (noGain : bitOf w 65 = false) (noOffset : bitOf w 66 = false)
    (allowed : ∀ i, i < v.count →
      handleCheck (s.handle n v.dHandle) hrVecWrite (v.dRow + i * stride / perRow v.fmtOut) (rowsFor v.fmtOut len) = none) :
    ∃ t, exec (.vecNorm n c []) s = .next t ∧ s.vecIssued t n ((vs.zipIdx).flatMap (fun x =>
      s.placed n v.dHandle (v.dRow + x.2 * stride / perRow v.fmtOut) (packWide v.fmtOut ((normF32 (v.aux == 1)
        (BitVec.ofNat 32 (fieldOf w 32 32)) none none x.1).map (toFmt (v.fmtOut == fmtBF16)))))) [] := by
  obtain ⟨aSmall, bSmall, dSmall⟩ := State.vecHead_handles head
  have param : (rowParamOf w).stride = stride := rows.stride'.symm
  have gain : (rowParamOf w).gEn = false := noGain
  have offset : (rowParamOf w).hEn = false := noOffset
  show ∃ t, execVecNorm n c [] s = .next t ∧ _
  unfold execVecNorm
  refine execVec_vectors rows (fun i xs => s.placed n v.dHandle (v.dRow + i * stride / perRow v.fmtOut)
    (packWide v.fmtOut ((normF32 (v.aux == 1) (rowParamOf w).param none none xs).map (toFmt (v.fmtOut == fmtBF16))))) head (List.nil_subset _)
    fun acc x hx => ?_
  refine Vec.ends_bind (Vec.ends_need (by simp [wide, aux]) (Vec.ends_bind (Vec.ends_rowParam hx rows bSmall fun y hy => ?_)))
  refine Vec.ends_bind (Vec.ends_need (by rw [offset]; rfl) ?_)
  dsimp only
  rw [gain, offset, if_neg Bool.false_ne_true]
  refine Vec.ends_bind (Vec.ends_pure ?_)
  rw [if_neg Bool.false_ne_true]
  refine Vec.ends_bind (Vec.ends_pure (Vec.ends_bind ?_))
  obtain ⟨a, z, run, hz⟩ := Vec.ends_vectors hy rows _ aSmall (fun i xs ws z hi length hz =>
    Vec.ends_putVector (vals := (normF32 (v.aux == 1) (rowParamOf w).param none none xs).map (toFmt (v.fmtOut == fmtBF16))) hz dSmall wide
      (by rw [List.length_map, length_normF32, length]) (allowed i hi)) 0 v.count (Nat.zero_add _)
  rw [param]
  refine ⟨a, z, run, Vec.ends_pure ?_⟩
  rwa [List.nil_append, ← List.range_eq_range'] at hz

/-! ### TOPK (R160) -/

theorem length_topF32 (k : Nat) (xs : List (F32 × Nat)) : (topF32 k xs).length ≤ k := by
  induction k generalizing xs with
  | zero => exact Nat.le_refl 0
  | succ k ih =>
    unfold topF32
    split
    · exact Nat.zero_le _
    · exact Nat.succ_le_succ (ih _)

/-- The two rows that TOPK writes for a vector: the values and their indices, in selection order (R160). -/
def topRows (k : Nat) (xs : List F32) : List Row :=
  let sel := topF32 k ((xs.zipIdx).filter (fun y => !isNaN32 y.1))
  packRows 32 8 (sel.map (fun y => y.1.toNat) ++ List.replicate (8 - sel.length) 0)
    ++ packRows 32 8 (sel.map (·.2) ++ List.replicate (8 - sel.length) 0xFFFFFFFF)

theorem length_topRows {k : Nat} (hk : k ≤ 8) (xs : List F32) : (topRows k xs).length = 2 := by
  have few := (length_topF32 k ((xs.zipIdx).filter (fun y => !isNaN32 y.1))).trans hk
  simp only [topRows, List.length_append, length_packRows, List.length_map, List.length_replicate]
  rw [Nat.add_sub_cancel' few]

theorem execVecTopk_selects {s : State} {n c : Nat} {v : VecWord} {ps : List Row} {w len stride : Nat} {vs : List (List F32)}
    (rows : s.rowsOf n v ps w len stride vs) (head : s.vecHead n c 0x0D v) (fmt : v.fmtOut = fmtFP32) (least : 1 ≤ v.aux) (most : v.aux ≤ 8)
    (raw : bitOf w 64 = true)
    (allowed : ∀ i, i < v.count → handleCheck (s.handle n v.dHandle) hrVecWrite (v.dRow + 2 * i) 2 = none) :
    ∃ t, exec (.vecTopk n c []) s = .next t ∧
      s.vecIssued t n ((vs.zipIdx).flatMap (fun x => s.placed n v.dHandle (v.dRow + 2 * x.2) (topRows v.aux x.1))) [okey (tileIx n) 0x41 0] := by
  obtain ⟨aSmall, bSmall, dSmall⟩ := State.vecHead_handles head
  have raw' : (rowParamOf w).raw = true := raw
  show ∃ t, execVecTopk n c [] s = .next t ∧ _
  unfold execVecTopk
  refine execVec_vectors rows (fun i xs => s.placed n v.dHandle (v.dRow + 2 * i) (topRows v.aux xs)) head (by simp [vecCounters]) fun acc x hx => ?_
  refine Vec.ends_bind (Vec.ends_need (by simp [fmt, least, most]) (Vec.ends_bind (Vec.ends_rowParam hx rows bSmall fun y hy => Vec.ends_bind ?_)))
  obtain ⟨a, z, run, hz⟩ := Vec.ends_vectors hy rows (fun i xs => s.placed n v.dHandle (v.dRow + 2 * i) (topRows v.aux xs)) aSmall
    (f := fun i xs => do
      modify (fun x => { x with s := x.s.count (tileIx n) 0x41 0 32 (nanCount xs) })
      let sel := topF32 v.aux ((xs.zipIdx).filter (fun x => !isNaN32 x.1))
      let vals := sel.map (·.1)
      let ws := if (rowParamOf w).raw then vals else softmaxF32 (rowParamOf w).tau vals
      let pad := 8 - sel.length
      Vec.write n v.dHandle (v.dRow + 2 * i)
        (packRows 32 8 (ws.map BitVec.toNat ++ List.replicate pad 0)
          ++ packRows 32 8 (sel.map (·.2) ++ List.replicate pad 0xFFFFFFFF))) (fun i xs ws z hi _ hz => by
      refine Vec.ends_bind (Vec.ends_modify ?_)
      dsimp only
      rw [raw', if_pos rfl, List.map_map]
      exact Vec.ends_write (hz.withState (hz.state.count _ _ _ _ List.mem_cons_self)) dSmall
        ((length_topRows most xs).symm ▸ allowed i hi) fun _ hu => hu) 0 v.count (Nat.zero_add _)
  refine ⟨a, z, run, Vec.ends_pure ?_⟩
  rwa [List.nil_append, ← List.range_eq_range'] at hz

/-! ### REDUCE (R157) -/

/-- The reductions of the vectors from `i` on, the first of them already read. -/
theorem Vec.ends_reduceGo {s : State} {n : Nat} {ks : List Nat} {acc : Nat → List F32} {ws : List (Nat × Nat × Row)} {x : VecCtx}
    (hx : x.At s n ks acc ws) {v : VecWord} {ps : List Row} {w len stride : Nat} {vs : List (List F32)} (rows : s.rowsOf n v ps w len stride vs)
    (ha : v.aHandle < 64) (counted : okey (tileIx n) 0x41 0 ∈ ks) {Q : List Nat → VecCtx → Prop} (i k : Nat) (hk : i + k = v.count) (xs : List F32)
    (first : 0 < k → xs = v.vector acc stride len vs i) (outs : List Nat)
    (q : ∀ y : VecCtx, y.At s n ks acc ws →
      Q (outs ++ (List.range' i k).map (fun j => (reduceF32 v.aux (v.vector acc stride len vs j)).1)) y) :
    Vec.Ends (execVecReduce.go n v (rowParamOf w) i k xs outs) x Q := by
  induction k generalizing i x xs outs with
  | zero =>
    refine Vec.ends_pure ?_
    have done := q x hx
    rwa [List.range'_zero, List.map_nil, List.append_nil] at done
  | succ k ih =>
    obtain rfl := first (Nat.succ_pos k)
    have param : (rowParamOf w).stride = stride ∧ (rowParamOf w).len = len := ⟨rows.stride'.symm, rows.len'.symm⟩
    unfold execVecReduce.go
    rw [param.1, param.2]
    dsimp only
    have hx' := hx.withState (hx.state.count 0x41 0 32 (reduceF32 v.aux (v.vector acc stride len vs i)).2 counted)
    have q' : ∀ y : VecCtx, y.At s n ks acc ws → Q ((outs ++ [(reduceF32 v.aux (v.vector acc stride len vs i)).1])
        ++ (List.range' (i + 1) k).map (fun j => (reduceF32 v.aux (v.vector acc stride len vs j)).1)) y := fun y hy => by
      rw [List.append_assoc, List.singleton_append, ← List.map_cons (f := fun j => (reduceF32 v.aux (v.vector acc stride len vs j)).1),
        ← List.range'_succ]
      exact q y hy
    refine Vec.ends_bind (Vec.ends_modify ?_)
    split
    · next last =>
      exact Vec.ends_bind (Vec.ends_pure (ih hx' (i + 1) (by omega) [] (fun more => absurd last (by omega)) _ q'))
    · next more =>
      exact Vec.ends_bind (Vec.ends_source hx' ha (rows.source (i + 1) (by omega)) fun y hy =>
        ih hy (i + 1) (by omega) _ (fun _ => rfl) _ q')

theorem execVecReduce_reduces {s : State} {n c : Nat} {v : VecWord} {ps : List Row} {w len stride : Nat} {vs : List (List F32)} {ds : List Row}
    (rows : s.rowsOf n v ps w len stride vs) (head : s.vecHead n c 0x09 v) (fmt : v.fmtOut = fmtFP32) (aux : v.aux < 6) (param : fieldOf w 32 32 = 0)
    (packed : ds = packWide fmtFP32 (vs.map (fun xs => (reduceF32 v.aux xs).1)))
    (allowed : handleCheck (s.handle n v.dHandle) hrVecWrite v.dRow ds.length = none) :
    ∃ t, exec (.vecReduce n c []) s = .next t ∧ s.vecIssued t n (s.placed n v.dHandle v.dRow ds) [okey (tileIx n) 0x41 0] := by
  subst packed
  obtain ⟨aSmall, bSmall, dSmall⟩ := State.vecHead_handles head
  have some' : 0 < v.count := by
    obtain ⟨_, -, -, -, -, -, some', -⟩ := head
    exact some'
  show ∃ t, execVecReduce n c [] s = .next t ∧ _
  unfold execVecReduce
  refine execVec_issues (fun acc => s.placed n v.dHandle v.dRow (packWide fmtFP32
    ((List.range v.count).map (fun j => (reduceF32 v.aux (v.vector acc stride len vs j)).1)))) head (by simp [vecCounters])
    (fun acc x hx => ?_) fun acc file => ?_
  case refine_2 =>
    conv_rhs => rw [← rows.vectors_file file, List.map_map]
    rfl
  refine Vec.ends_bind (Vec.ends_need (by simp [fmt, aux]) (Vec.ends_bind (Vec.ends_rowParam hx rows bSmall fun y hy => ?_)))
  refine Vec.ends_bind (Vec.ends_need (by rw [rowParamOf, param]; rfl) ?_)
  have len' : (rowParamOf w).len = len := rows.len'.symm
  have source : s.vecSource n v 0 len (vs.getD 0 []) := by
    have source := rows.source 0 some'
    rwa [Nat.zero_mul] at source
  rw [len']
  refine Vec.ends_bind (Vec.ends_source hy aSmall source fun z hz => Vec.ends_bind ?_)
  refine Vec.ends_reduceGo hz rows aSmall List.mem_cons_self 0 v.count (Nat.zero_add _) _ (fun _ => by rw [VecWord.vector, Nat.zero_mul]) [] fun u hu => ?_
  rw [List.nil_append, ← List.range_eq_range']
  refine Vec.ends_bind (Vec.ends_putWide_zero hu dSmall ?_ fun r hr => Vec.ends_pure hr)
  rwa [length_packWide_congr (vals' := vs.map (fun xs => (reduceF32 v.aux xs).1))
    (by rw [List.length_map, List.length_map, List.length_range, rows.count])]

end Sys2Proof.Machine
end

section
/-! PROOF. SPILL_FIX of a pass without spill planes, the completion of a VEC, and the queue, array and vector commands together (02 R43-R46, 06 R149, R155). -/

namespace Sys2Proof.Machine

/-! ### SPILL_FIX (R155) -/

theorem spillEntries_zero (block : Nat) : spillEntries block 0 = ([], false) := rfl

/-- A segment with no spilled row needs no correction. -/
theorem spillSegment_nil (wGrid aGrid : Nat → Int) (lo len : Nat) : spillSegment wGrid aGrid [] [] lo len = (0, false) := rfl

theorem foldl_of_fixed {α β : Type} {f : β → α → β} {b : β} {l : List α} (h : ∀ a ∈ l, f b a = b) : l.foldl f b = b := by
  induction l with
  | nil => rfl
  | cons a l ih =>
    rw [List.foldl_cons, h a List.mem_cons_self]
    exact ih fun a' ha' => h a' (List.mem_cons_of_mem _ ha')

/-- Elements without a correction, by slot, each with no saturation. -/
def unspilled (count : Nat) (es : List F32) : List (List (F32 × Nat)) :=
  (List.range count).map (fun i => (List.range 128).map (fun e => (es.getD (128 * i + e) 0, 0)))

theorem map_unspilled {count : Nat} {es : List F32} (length : es.length = 128 * count) :
    (unspilled count es).flatten.map (fun y => y.1.toNat) = es.map BitVec.toNat := by
  have through : (unspilled count es).flatten = (List.range (count * 128)).map (fun j => (es.getD (128 * (j / 128) + j % 128) 0, 0)) :=
    flatMap_range_map (fun i e => (es.getD (128 * i + e) 0, 0)) (by decide) count
  rw [through, List.map_map]
  refine List.ext_getElem (by simp [length, Nat.mul_comm]) fun j hj hj' => ?_
  have lt : j < es.length := by simpa using hj'
  simp [Nat.div_add_mod, lt]

/-- Counting the saturations of elements without a correction counts none. -/
theorem foldl_unspilled {β : Type} (count : Nat) (es : List F32) (f : β → Nat → Nat → Nat → β) (b : β) :
    (unspilled count es).zipIdx.foldl (fun s r => r.1.zipIdx.foldl (fun s y => if y.1.2 = 0 then s else f s r.2 y.2 y.1.2) s) b = b := by
  refine foldl_of_fixed fun r hr => foldl_of_fixed fun y hy => if_pos ?_
  obtain ⟨i, -, slot⟩ := List.mem_map.1 (List.fst_mem_of_mem_zipIdx hr)
  have elem := List.fst_mem_of_mem_zipIdx hy
  rw [← slot] at elem
  obtain ⟨e, -, pair⟩ := List.mem_map.1 elem
  rw [← pair]

/-- A span that begins with unit 0. -/
theorem Vec.ends_span_zero {s : State} {n : Nat} {ks : List Nat} {acc : Nat → List F32} {ws : List (Nat × Nat × Row)} {x : VecCtx}
    (hx : x.At s n ks acc ws) {h first per hi : Nat} {ds : List Row} {Q : Nat × List Row → VecCtx → Prop} (hh : h < 64)
    (length : ds.length = (hi + per - 1) / per) (reads : s.reads n h hrVecRead first ds) (q : ∀ y : VecCtx, y.At s n ks acc ws → Q (0, ds) y) :
    Vec.Ends (Vec.span n h first per 0 hi) x Q := by
  unfold Vec.span
  simp only [Nat.zero_div, Nat.add_zero, Nat.sub_zero, Nat.zero_mul]
  exact Vec.ends_bind (Vec.ends_rows hx hh length reads fun y hy => Vec.ends_pure (q y hy))

theorem execVecSpillFix_copies {s : State} {n c : Nat} {v : VecWord} {xs : List F32} {ps we wc ae ac ds : List Row} {p : SpillParam}
    (head : s.vecHead n c 0x02 v) (fmtIn : v.fmtIn = fmtFP32) (fmtOut : v.fmtOut = fmtFP32) (aux : v.aux = 0) (single : ps.length = 1)
    (readsP : s.reads n v.bHandle hrVecRead v.bRow ps) (param : p = spillParam (ps.getD 0 0).toNat) (pad : fieldOf (ps.getD 0 0).toNat 0 112 = 0)
    (wFmt : p.wFmt = fmtM4) (aFmt : p.aFmt = fmtM4) (wSp : p.wSp = false) (aSp : p.aSp = false) (m0 : p.m0 = 0)
    (src : s.vecSource n v 0 (128 * v.count) xs) (lengthWe : we.length = 192) (readsWe : s.reads n p.weHandle hrVecRead p.weRow we)
    (lengthWc : wc.length = 24) (readsWc : s.reads n p.wcHandle hrVecRead p.wcRow wc) (lengthAe : ae.length = (96 * v.count + 63) / 64)
    (readsAe : s.reads n p.aeHandle hrVecRead p.aeRow ae) (lengthAc : ac.length = (6 * v.count + 31) / 32)
    (readsAc : s.reads n p.acHandle hrVecRead p.acRow ac) (packed : ds = packWide fmtFP32 (xs.map BitVec.toNat))
    (allowed : handleCheck (s.handle n v.dHandle) hrVecWrite v.dRow ds.length = none) :
    ∃ t, exec (.vecSpillFix n c []) s = .next t ∧ s.vecIssued t n (s.placed n v.dHandle v.dRow ds) [okey (tileIx n) 0x16 0] := by
  subst packed
  obtain ⟨aSmall, bSmall, dSmall⟩ := State.vecHead_handles head
  have weSmall : p.weHandle < 64 := param ▸ fieldOf_lt ..
  have wcSmall : p.wcHandle < 64 := param ▸ fieldOf_lt ..
  have aeSmall : p.aeHandle < 64 := param ▸ fieldOf_lt ..
  have acSmall : p.acHandle < 64 := param ▸ fieldOf_lt ..
  show ∃ t, execVecSpillFix n c [] s = .next t ∧ _
  unfold execVecSpillFix
  refine execVec_elementwise (fun xs => s.placed n v.dHandle v.dRow (packWide fmtFP32 (xs.map BitVec.toNat))) head src (by simp [vecCounters])
    fun acc x hx => ?_
  refine Vec.ends_bind (Vec.ends_need (by simp [fmtIn, fmtOut, aux]) (Vec.ends_bind (Vec.ends_rows hx bSmall single readsP fun y hy => ?_)))
  dsimp only
  rw [← param]
  have two : (fmtM4 == fmtT2) = false := rfl
  have blocks : 96 / blockSize fmtM4 = 6 := rfl
  have scales : scaleRows fmtM4 = 24 := rfl
  have perRow' : perRow fmtM4 = 64 := rfl
  have noSpill : ∀ l : List Nat, l.flatMap (fun _ => ([] : List (Nat × Int))) = [] := fun l => List.flatMap_eq_nil_iff.2 fun _ _ => rfl
  simp only [pad, wFmt, aFmt, wSp, aSp, m0, two, blocks, scales, perRow', Bool.false_eq_true, if_false, Nat.mul_zero, Nat.zero_add, spillEntries_zero,
    List.map_nil, noSpill, spillSegment_nil, Bool.not_false, if_true, List.foldl_fixed, ite_self]
  refine Vec.ends_bind (Vec.ends_need rfl (Vec.ends_bind (Vec.ends_source hy aSmall src fun z hz => ?_)))
  refine Vec.ends_bind (Vec.ends_rows hz weSmall lengthWe readsWe fun y hy => Vec.ends_bind (Vec.ends_rows hy wcSmall lengthWc readsWc fun z hz => ?_))
  refine Vec.ends_bind (Vec.ends_pure (Vec.ends_bind (Vec.ends_span_zero hz aeSmall lengthAe readsAe fun y hy => ?_)))
  refine Vec.ends_bind (Vec.ends_span_zero hy acSmall lengthAc readsAc fun z hz => ?_)
  refine Vec.ends_bind (Vec.ends_pure (Vec.ends_bind (Vec.ends_modify ?_)))
  have length := VecWord.length_elems src acc
  generalize v.elems acc 0 (128 * v.count) xs = es at length ⊢
  have still := foldl_unspilled v.count es (fun (u : State) _ e sat => u.count (tileIx n) 0x10 (columnOf (outputsOf fmtM4) e) 16 sat)
    (z.s.count (tileIx n) 0x16 0 32 0)
  beta_reduce at still
  rw [← unspilled, map_unspilled length, still]
  refine Vec.ends_bind (Vec.ends_putWide_zero (hz.withState (hz.state.count _ _ _ _ List.mem_cons_self)) dSmall ?_ fun u hu => Vec.ends_pure hu)
  rwa [length_packWide_congr (vals' := xs.map BitVec.toNat) (by rw [List.length_map, List.length_map, length, State.vecSource_length src])]

/-! ### Completion (R149) -/

theorem execVecWriteComplete_completes {s : State} {n c : Nat} {r : VecRun} {rest : List VecRun} (oldest : (s.tile n).vec = r :: rest)
    (due : r.lastWrite ≤ c) (works : s.stopped n = false) (quiet : r.act = none) (clear : r.collided = false) :
    ∃ t, exec (.vecWriteComplete n c) s = .next t ∧ (t.tile n).vec = rest ∧ t.obj (tileIx n) 0x43 = min (s.obj (tileIx n) 0x43 + 1) (2 ^ 64 - 1) := by
  have regs : ∀ (ws : List (Nat × Nat × Row)) (u : State), (u.each ws (fun t w => t.writeSpad n w.1 w.2.1 w.2.2)).regs = u.regs := fun ws => by
    induction ws with
    | nil => exact fun _ => rfl
    | cons w ws ih => exact fun u => ih (u.writeSpad n w.1 w.2.1 w.2.2)
  refine ⟨((s.each r.writes (fun t w => t.writeSpad n w.1 w.2.1 w.2.2)).modTile n (fun t => { t with vec := rest })).count (tileIx n) 0x43 0 64,
    ?_, ?_, ?_⟩
  · show execVecWriteComplete n c s = _
    simp only [execVecWriteComplete, oldest, due, works, Bool.not_false, and_self, if_true, quiet, clear, State.completed_none]
  · rw [State.tile_count, State.tile_modTile_same]
  · rw [State.obj_count_same, State.obj_modTile, State.obj_congr (regs r.writes s)]

/-! ### All of them -/

/-- Settles O53: one lemma for each command; a VEC has a rule for each stage of its body, which ends whatever the accumulator file holds. -/
theorem queueAndComputeCommandsComplete : Obligations.QueueAndComputeCommandsComplete := by
  refine ⟨fun s n q c w => execWait_issues,
    fun s n q c w => execSignal_defers,
    fun s n c d rest => execSignalApply_adds,
    fun s n q c w => execQueueEnd_returns,
    fun s n q c w => execNop_occupies,
    fun s n c w => execLoadStationary_captures,
    fun s n c r es ss => execLoadStationaryRowsStart_crosses,
    fun s n c w => execSwap_swaps,
    fun s n c w es ss => execPass_streams,
    fun s n c f rest oldest due works quiet clear _ _ => execFoldLand_lands oldest due works quiet clear,
    fun s n c w => execSetHandle_stores,
    fun s n c w => execSetSentinel_sets,
    fun s n c v xs ds => execVecConvert_converts,
    fun s n c v xs ps we wc ae ac ds p => execVecSpillFix_copies,
    fun s n c v xs scales ds bs => execVecRequant_writes,
    fun s n c v xs bs ds => execVec_binary false fun bf x y _ => ((decodeF32 x).add (decodeF32 y)).round bf,
    fun s n c v xs bs ds => execVec_binary true fun bf x y d =>
      let p := (decodeF32 x).mul (decodeF32 y)
      match d with
      | some z => (p.add (decodeF32 z)).round bf
      | none => p.round bf,
    fun s n c v xs bs ds => execVec_binary false fun bf x y _ => toFmt bf (pickF32 true x y),
    fun s n c v xs bs ds => execVec_binary false fun bf x y _ => toFmt bf (pickF32 false x y),
    fun s n c v xs ds => execVecAct_acts,
    fun s n c v ps w len stride vs ds single reads word len' stride' pad some' least whole within count source =>
      execVecReduce_reduces ⟨single, reads, word, len', stride', pad, some', least, whole, within, count, source⟩,
    fun s n c v ps w len stride vs single reads word len' stride' pad some' least whole within count source =>
      execVecSoftmax_writes ⟨single, reads, word, len', stride', pad, some', least, whole, within, count, source⟩,
    fun s n c v ps w len stride vs single reads word len' stride' pad some' least whole within count source =>
      execVecNorm_writes ⟨single, reads, word, len', stride', pad, some', least, whole, within, count, source⟩,
    fun s n c v es ss ds => execVecDequant_restores,
    fun s n c v ps w len stride vs single reads word len' stride' pad some' least whole within count source =>
      execVecTopk_selects ⟨single, reads, word, len', stride', pad, some', least, whole, within, count, source⟩,
    fun s n c v ds => execVecRandom_draws,
    fun s n c r rest => execVecWriteComplete_completes⟩

end Sys2Proof.Machine
end

section
/-! PROOF. How a queue halts or waits at its head, and what a command of Q-array that issues leaves (05 R121, R124, R125, R142). -/

namespace Sys2Proof.Machine

/-! ### Halts and waits (R125, R142) -/

theorem State.haltFault_regs (s : State) (n q st : Nat) : (s.haltFault n q st).regs =
    ((((s.setObj (tileIx n) 0x30 q 4).setObj (tileIx n) 0x32 q st).setObj (tileIx n) 0x33 q 0).setObj (tileIx n) 0x34 q 0).regs := rfl

theorem State.haltFault_tiles (s : State) (n q st : Nat) : (s.haltFault n q st).tiles = s.tiles := by
  unfold State.haltFault State.tileReport State.reportFor State.report State.setQState
  dsimp only
  rw [State.emit_tiles]
  iterate 4 rw [State.setObj_tiles]

/-- A failed issue-time check in a tile that is no twin halts the queue at its head with the check's status. -/
theorem State.issueFault_halts {s : State} {n : Nat} (q st : Nat) (single : s.isTwin n = false) :
    (s.issueFault n q st).qState n q = 4 ∧ (s.issueFault n q st).obj (tileIx n) 0x32 q = st ∧ (s.issueFault n q st).qPc n q = s.qPc n q
      ∧ (s.issueFault n q st).tiles = s.tiles := by
  rw [State.issueFault, single, if_neg Bool.false_ne_true]
  unfold State.qState State.qPc
  refine ⟨?_, ?_, ?_, s.haltFault_tiles n q st⟩
  all_goals
    rw [State.obj_congr (s.haltFault_regs ..)]
    simp only [State.obj_setObj_same, State.obj_setObj_sub, ne_eq, Nat.reduceEqDiff, not_false_eq_true]

theorem okey_mem_queueKeys (n q : Nat) {j : Nat} (hj : j ∈ [0x30, 0x31, 0x32, 0x33, 0x34, 0x35]) : okey (tileIx n) j q ∈ queueKeys n q :=
  List.mem_map_of_mem (f := fun sub => okey (tileIx n) sub q) hj

theorem State.stall_stalls (s : State) (n q target : Nat) :
    (s.stall n q target).qState n q = 3 ∧ (s.stall n q target).qPc n q = s.qPc n q := by
  unfold State.stall State.setQState State.qState State.qPc
  dsimp only
  rw [State.obj_setObj_sub _ _ _ _ (by decide), State.obj_setObj_sub _ _ _ _ (by decide)]
  split
  · rw [State.obj_modQueue, State.obj_modQueue]
    simp only [State.obj_setObj_same, State.obj_setObj_sub, ne_eq, Nat.reduceEqDiff, not_false_eq_true, and_self]
  · simp only [State.obj_setObj_same, State.obj_setObj_sub, ne_eq, Nat.reduceEqDiff, not_false_eq_true, and_self]

theorem State.stall_onlyQueues (s : State) (n q target : Nat) : s.onlyQueues (s.stall n q target) n := by
  unfold State.stall State.setQState
  dsimp only
  refine State.onlyQueues_trans ?_ (State.onlyQueues_setObj ..)
  have stalled := s.onlyQueues_setObj n (tileIx n) 0x30 q qsStalled
  split
  · exact State.onlyQueues_trans (State.onlyQueues_trans stalled (State.onlyQueues_setObj ..)) (State.onlyQueues_modQueue ..)
  · exact stalled

theorem State.stall_sameRegs (s : State) (n q target : Nat) : s.sameRegs (s.stall n q target) (queueKeys n q) := by
  unfold State.stall State.setQState
  dsimp only
  refine State.sameRegs_setObj _ _ _ _ ?_ (okey_mem_queueKeys n q (by decide))
  have stalled := State.sameRegs_setObj _ _ _ qsStalled (s.sameRegs_refl _) (okey_mem_queueKeys n q (j := 0x30) (by decide))
  split
  · exact State.sameRegs_congr (State.sameRegs_setObj _ _ _ _ stalled (okey_mem_queueKeys n q (by decide))) (State.modTile_regs ..)
  · exact stalled

/-! ### Commands of Q-array that issue (R121, R124) -/

/-- A command of Q-array has issued, which is free again at cycle `free`: the tile's array is now `a`, and beside the queue and the registers `ks` nothing else differs. -/
structure State.arrayIssued (s t : State) (n free : Nat) (a : ArrayUnit) (ks : List Nat) : Prop where
  issued : s.issuedTo t n 0 (s.qPc n 0 + 1) free
  tile : t.tile n = { s.tile n with qs := (t.tile n).qs, arr := a }
  only : s.onlyTile t n
  regs : s.sameRegs t (ks ++ queueKeys n 0)

theorem State.arrayIssued.arr {s t : State} {n free : Nat} {a : ArrayUnit} {ks : List Nat} (h : s.arrayIssued t n free a ks) :
    (t.tile n).arr = a := (congrArg Tile.arr h.tile :)

theorem State.arrayIssued.spad {s t : State} {n free : Nat} {a : ArrayUnit} {ks : List Nat} (h : s.arrayIssued t n free a ks) :
    (t.tile n).spad = (s.tile n).spad := (congrArg Tile.spad h.tile :)

theorem okey_notMem_queueKeys (n q : Nat) {j e : Nat} (hj : j < 0x30) (he : e < 65536) : okey (tileIx n) j e ∉ queueKeys n q := by
  unfold queueKeys okey
  rw [List.mem_map]
  rintro ⟨j', mem, same⟩
  have above : ∀ x ∈ [0x30, 0x31, 0x32, 0x33, 0x34, 0x35], 0x30 ≤ x := by decide
  have := above j' mem
  omega

/-- An object of a tile that is no queue's, after Q-array has moved on. -/
theorem State.obj_advance_modArr {u : State} {n : Nat} (free : Nat) (f : ArrayUnit → ArrayUnit) (pro : (u.queue n 0).prologue = false) {j e : Nat}
    (hj : j < 0x30) (he : e < 65536) : ((u.advance n 0 free).modArr n f).obj (tileIx n) j e = u.obj (tileIx n) j e := by
  rw [State.obj_modArr, State.advance_eq_issued free pro]
  exact u.issued_sameRegs n 0 _ free _ (okey_notMem_queueKeys n 0 hj he)

/-- Q-array moves on from a state `u` that differs from `s` in the array and in the registers `ks`, none of them a queue's, and the array changes by `f`. -/
theorem State.advance_arrayIssued {s u : State} {n : Nat} {b : ArrayUnit} {ks : List Nat} (free : Nat) (f : ArrayUnit → ArrayUnit)
    (pro : (u.queue n 0).prologue = false) (tile : u.tile n = { s.tile n with arr := b }) (only : s.onlyTile u n) (regs : s.sameRegs u ks)
    (kept : ∀ j, 0x30 ≤ j → u.obj (tileIx n) j 0 = s.obj (tileIx n) j 0) :
    s.arrayIssued ((u.advance n 0 free).modArr n f) n free (f b) ks := by
  have pc : u.qPc n 0 = s.qPc n 0 := kept 0x31 (by decide)
  obtain ⟨others, mine⟩ := State.advance_onlyQueues free pro
  refine ⟨?_, ?_, ?_, ?_⟩
  · exact State.issuedTo_modArr f (State.issuedTo_of_count (pc ▸ State.advance_issuedTo free pro) (kept 0x35 (by decide)))
  · rw [State.tile_modArr_same, mine, tile]
  · exact State.onlyTile_modArr f (State.onlyTile_trans only others)
  · refine State.sameRegs_congr ?_ (State.modTile_regs ..)
    rw [State.advance_eq_issued free pro]
    exact State.sameRegs_trans (State.sameRegs_mono regs (List.subset_append_left ..))
      (State.sameRegs_mono (u.issued_sameRegs n 0 _ free) (List.subset_append_right ..))

end Sys2Proof.Machine
end

section
/-! PROOF. Stationary operands: the load, its crossing and SWAP (03 R68-R70, 05 R132). -/

namespace Sys2Proof.Machine

/-! ### LOAD_STATIONARY (R69, R132) -/

theorem scaleRows_eq (f : Nat) : scaleRows f = if f = 3 then 12 else if f = 4 ∨ f = 5 then 6 else 24 := by
  simp [scaleRows, is8]

/-- What a LOAD_STATIONARY word captures as it issues. -/
def State.loadReq (s : State) (n w : Nat) : LoadReq where
  fmt := fieldOf w 116 4
  cond := if bitOf w 115 then some (fieldOf w 108 7, s.threshold n (fieldOf w 60 32) (fieldOf w 92 16)) else none
  eHandle := s.handle n (fieldOf w 54 6)
  eRow := fieldOf w 40 14
  sHandle := s.handle n (fieldOf w 34 6)
  sRow := fieldOf w 20 14
  sentinel := s.obj (tileIx n) 0x12 0

section Load
variable {s : State} {n c w : Nat} (head : s.headIs n 0 c w) (code : opcodeOf w = 0x10)
include head code

theorem execLoadStationary_issues (idle : (s.tile n).arr.load = .idle) (narrow : fieldOf w 116 4 < 6)
    (elems : handleCheck (s.handle n (fieldOf w 54 6)) hrStationary (fieldOf w 40 14) 192 = none)
    (scales : handleCheck (s.handle n (fieldOf w 34 6)) hrStationary (fieldOf w 20 14) (scaleRows (fieldOf w 116 4)) = none) :
    ∃ t, exec (.loadStationary n c) s = .next t ∧
      s.arrayIssued t n (c + 1) { (s.tile n).arr with load := .waiting (s.loadReq n w) } [] := by
  refine ⟨_, ?_, State.advance_arrayIssued (c + 1) (fun a => { a with load := .waiting (s.loadReq n w) }) head.prologue rfl ⟨rfl, fun _ _ => rfl⟩
    (s.sameRegs_refl _) fun _ _ => rfl⟩
  show execLoadStationary n c s = _
  rw [execLoadStationary, State.atHead_of_headIs _ head code]
  dsimp only
  rw [if_neg (not_not_intro idle), if_neg (by simp [stationaryFmt, narrow]), elems]
  dsimp only
  rw [scales]
  rfl

theorem execLoadStationary_waits (busy : (s.tile n).arr.load ≠ .idle) : exec (.loadStationary n c) s = .next (s.stall n 0 0) := by
  show execLoadStationary n c s = _
  rw [execLoadStationary, State.atHead_of_headIs _ head code, if_pos busy]

theorem execLoadStationary_halts (idle : (s.tile n).arr.load = .idle) (wide : 6 ≤ fieldOf w 116 4) :
    exec (.loadStationary n c) s = .next (s.issueFault n 0 stBadValue) := by
  show execLoadStationary n c s = _
  rw [execLoadStationary, State.atHead_of_headIs _ head code]
  dsimp only
  rw [if_neg (not_not_intro idle), if_pos (by simp [stationaryFmt, wide])]

end Load

/-! ### The crossing (R69) -/

theorem execLoadStationaryRowsStart_of_unmet {s : State} {n c : Nat} (hits : List Contest) {r : LoadReq} (waiting : (s.tile n).arr.load = .waiting r)
    (unmet : s.loadReady n c r = false) : exec (.loadStationaryRowsStart n c hits) s = .next s := by
  show execLoadStationaryRowsStart n c hits s = _
  rw [execLoadStationaryRowsStart, waiting]
  dsimp only
  rw [unmet, if_neg Bool.false_ne_true, ite_self]

theorem State.completeLoad_of_idle {s : State} {n : Nat} (c : Nat) (idle : (s.tile n).arr.load = .idle) : s.completeLoad n c = s := by
  rw [State.completeLoad, idle]

theorem State.completeLoad_of_done {s : State} {n : Nat} (c : Nat) (done : (s.tile n).arr.load = .done) : s.completeLoad n c = s := by
  rw [State.completeLoad, done]

theorem State.completeLoad_of_crossed {s : State} {n c last : Nat} (crossing : (s.tile n).arr.load = .crossing last none false) (crossed : last < c) :
    s.completeLoad n c = s.modArr n (fun a => { a with load := .done }) := by
  rw [State.completeLoad, crossing]
  dsimp only
  rw [if_pos crossed, State.completed_none]

theorem State.completeLoad_of_not_crossed {s : State} {n c last : Nat} {act : Option Nat} {met : Bool}
    (crossing : (s.tile n).arr.load = .crossing last act met) (under : c ≤ last) : s.completeLoad n c = s := by
  rw [State.completeLoad, crossing]
  exact if_neg (Nat.not_lt.2 under)

theorem execLoadStationaryRowsStart_of_idle {s : State} {n : Nat} (c : Nat) (hits : List Contest) (idle : (s.tile n).arr.load = .idle) :
    exec (.loadStationaryRowsStart n c hits) s = .next s := by
  show execLoadStationaryRowsStart n c hits s = _
  rw [execLoadStationaryRowsStart, idle]
  dsimp only
  rw [State.completeLoad_of_idle c idle, ite_self]

theorem execLoadStationaryRowsStart_of_crossing {s : State} {n c last : Nat} {act : Option Nat} {met : Bool} (hits : List Contest)
    (works : s.stopped n = false) (crossing : (s.tile n).arr.load = .crossing last act met) :
    exec (.loadStationaryRowsStart n c hits) s = .next (s.completeLoad n c) := by
  show execLoadStationaryRowsStart n c hits s = _
  rw [execLoadStationaryRowsStart, works, crossing]
  rfl

/-- The rows of a load as they stand in the shadow registers. -/
def LoadReq.station (r : LoadReq) (es ss : List Row) : Station where
  fmt := r.fmt
  rows := pairRows es
  scales := planeBytes ss (outputsOf r.fmt * bandsOf r.fmt)

theorem execLoadStationaryRowsStart_eq {s : State} {n c : Nat} {r : LoadReq} {es ss : List Row} (waiting : (s.tile n).arr.load = .waiting r)
    (works : s.stopped n = false) (alone : (s.tile n).grants = []) (at' : r.cond = none) (valid : r.fmt ≠ 2) (elems : es.length = 192)
    (scales : ss.length = scaleRows r.fmt) (holdsE : s.holds' n r.eHandle r.eRow es) (holdsS : s.holds' n r.sHandle r.sRow ss)
    (within : ∀ x, x ∈ planeBytes ss (outputsOf r.fmt * bandsOf r.fmt) → fieldOf r.sentinel 0 8 ≤ x ∧ x ≤ fieldOf r.sentinel 8 8 ∧ x ≠ 0xFF) :
    exec (.loadStationaryRowsStart n c []) s = .next ((s.count (tileIx n) 0x16 0 32 0).modArr n (fun a =>
      { a with shadow := r.station es ss, load := .crossing (c + 95) none false })) := by
  have ready : s.loadReady n c r = true := by rw [State.loadReady, at']
  show execLoadStationaryRowsStart n c [] s = _
  simp only [execLoadStationaryRowsStart, works, Bool.false_eq_true, if_false, waiting, ready, if_true, State.readRows_of_length holdsE elems,
    State.readRows_of_length holdsS scales, State.collide_nil, if_neg valid, State.sentinelCount_within n 0 within,
    State.lostCycles_of_grants alone, slipped_nil, LoadReq.station]

/-! ### SWAP (R70) -/

section Swap
variable {s : State} {n c w : Nat} (head : s.headIs n 0 c w) (code : opcodeOf w = 0x11)
include head code

theorem execSwap_of_idle (idle : (s.tile n).arr.load = .idle) : exec (.swap n c) s = .next (s.issueFault n 0 stBadValue) := by
  show execSwap n c s = _
  rw [execSwap, State.atHead_of_headIs _ head code, State.completeLoad_of_idle c idle]
  dsimp only
  rw [idle]

theorem execSwap_of_crossing {last : Nat} {act : Option Nat} {met : Bool} (crossing : (s.tile n).arr.load = .crossing last act met)
    (under : c ≤ last) : exec (.swap n c) s = .next (s.stall n 0 0) := by
  show execSwap n c s = _
  rw [execSwap, State.atHead_of_headIs _ head code, State.completeLoad_of_not_crossed crossing under]
  dsimp only
  rw [crossing]

/-- SWAP once its load has completed, without a report, in `u`. -/
theorem execSwap_of_loaded {u : State} (complete : s.completeLoad n c = u) (done : (u.tile n).arr.load = .done) :
    exec (.swap n c) s = .next ((u.advance n 0 (c + 1)).modArr n (fun a => { a with live := a.shadow, load := .idle, swapped := true })) := by
  show execSwap n c s = _
  rw [execSwap, State.atHead_of_headIs _ head code, complete]
  dsimp only
  rw [done]

theorem execSwap_issues (loaded : (s.tile n).arr.load = .done ∨ (∃ last, (s.tile n).arr.load = .crossing last none false ∧ last < c)) :
    ∃ t, exec (.swap n c) s = .next t ∧
      s.arrayIssued t n (c + 1) { (s.tile n).arr with live := (s.tile n).arr.shadow, load := .idle, swapped := true } [] := by
  rcases loaded with done | ⟨last, crossing, crossed⟩
  · exact ⟨_, execSwap_of_loaded head code (State.completeLoad_of_done c done) done, State.advance_arrayIssued (c + 1) _ head.prologue rfl
      ⟨rfl, fun _ _ => rfl⟩ (s.sameRegs_refl _) fun _ _ => rfl⟩
  · refine ⟨_, execSwap_of_loaded head code (State.completeLoad_of_crossed crossing crossed) (by rw [State.tile_modArr_same]),
      State.advance_arrayIssued (b := { (s.tile n).arr with load := .done }) (c + 1) _ ?_ (State.tile_modArr_same ..) (s.onlyTile_modTile ..) (State.sameRegs_of_regs (State.modTile_regs ..) _)
        fun _ _ => State.obj_modArr ..⟩
    rw [State.queue_modArr]
    exact head.prologue

end Swap

/-- Settles O24: the load waits in the array until its rows cross, and SWAP finds the crossing ended or not. -/
theorem stationaryOperandsLoadAndSwap : Obligations.StationaryOperandsLoadAndSwap := by
  refine ⟨fun s n c w head code => ⟨?_, ?_, ?_⟩, ?_, fun s n c hits => execLoadStationaryRowsStart_of_idle c hits, ?_, ?_,
    fun s n c w head code => ⟨?_, ?_, ?_⟩⟩
  · intro idle narrow elems scales
    rw [← scaleRows_eq] at scales
    obtain ⟨t, run, h⟩ := execLoadStationary_issues head code idle narrow elems scales
    refine ⟨t, s.loadReq n w, run, h.issued, h.arr, rfl, rfl, rfl, rfl, rfl, fun plain => ?_, fun cond => ?_, h.only, h.regs⟩
    · rw [State.loadReq, plain, if_neg Bool.false_ne_true]
    · rw [State.loadReq, if_pos cond]
      rfl
  · intro busy
    obtain ⟨stalled, pc⟩ := s.stall_stalls n 0 0
    exact ⟨_, execLoadStationary_waits head code busy, stalled, pc, s.stall_onlyQueues .., s.stall_sameRegs n 0 0⟩
  · intro idle wide single
    exact ⟨_, execLoadStationary_halts head code idle wide, State.issueFault_halts 0 stBadValue single⟩
  · intro s n c hits r waiting g v cond unmet
    exact execLoadStationaryRowsStart_of_unmet hits waiting (by rw [State.loadReady, cond]; exact unmet)
  · intro s n c r es ss waiting works alone at' valid elems scales holdsE holdsS within
    refine ⟨_, execLoadStationaryRowsStart_eq waiting works alone at' valid elems scales holdsE holdsS within, ?_, ?_, ?_,
      State.onlyTile_modArr _ (s.onlyTile_setObj ..), ?_, ?_⟩
    · rw [State.tile_modArr_same]
    · rw [State.tile_modArr_same, State.tile_count]
    · rw [State.tile_modArr_same]
      rfl
    · exact (State.modTile_sent ..).trans (State.count_sent ..)
    · exact State.sameRegs_congr (State.sameRegs_count _ _ _ _ _ (s.sameRegs_refl _) List.mem_cons_self) (State.modTile_regs ..)
  · intro s n c last hits works crossing crossed
    refine ⟨_, execLoadStationaryRowsStart_of_crossing hits works crossing, ?_⟩
    rw [State.completeLoad_of_crossed crossing crossed]
    exact ⟨State.tile_modArr_same .., s.onlyTile_modTile .., State.modTile_regs ..⟩
  · intro idle single
    obtain ⟨halted, status, -, tiles⟩ := State.issueFault_halts 0 stBadValue single
    exact ⟨_, execSwap_of_idle head code idle, halted, status, tiles⟩
  · intro loaded
    obtain ⟨t, run, h⟩ := execSwap_issues head code loaded
    exact ⟨t, run, h.issued, by rw [h.arr], by rw [h.arr], by rw [h.arr], by rw [h.arr], h.only, h.regs⟩
  · intro last act met crossing under
    obtain ⟨stalled, pc⟩ := s.stall_stalls n 0 0
    exact ⟨_, execSwap_of_crossing head code crossing under, stalled, pc, s.stall_onlyQueues ..⟩

end Sys2Proof.Machine
end

section
/-! PROOF. A PASS and the folds it queues, and how a fold changes the accumulator file (03 R62-R64, R72-R76, 05 R133). -/

namespace Sys2Proof.Machine

/-! ### PASS (R72-R76, R133) -/

theorem execPass_of_unswapped {s : State} {n c w : Nat} (head : s.headIs n 0 c w) (code : opcodeOf w = 0x12)
    (unswapped : (s.tile n).arr.swapped = false) : exec (.pass n c []) s = .next (s.issueFault n 0 stBadValue) := by
  show execPass n c [] s = _
  rw [execPass, State.atHead_of_headIs _ head code]
  dsimp only
  rw [unswapped]
  rfl

/-- The folds of a PASS with no sentinel event, no collision and no lost cycle: in row order, each L cycles after its row's last issue cycle. -/
theorem getElem?_passFolds_quiet (live : Station) (op a fold slot index start : Nat) (es ss : List Row) {rows m : Nat} (h : m < rows) :
    ∃ f, (passFolds live op a fold slot index start [] none false es ss rows)[m]? = some f ∧ f.row = m ∧ f.fold = fold ∧ f.slot = slot ∧
      f.act = none ∧ f.collided = false ∧ f.lands = start + m * rowCycles a + (rowCycles a - 1) + passLatency live.fmt a := by
  rw [passFolds, List.getElem?_map, List.getElem?_range h]
  exact ⟨_, rfl, rfl, rfl, rfl, ite_self _, Bool.and_false _, rfl⟩

/-- The idle cycles that the ramp held all groups on before a row that issues in cycle `start` (R76). -/
def Ramp.held (r : Ramp) (start : Nat) : Nat :=
  if r.last = 0 ∨ r.downAt.isSome ∨ r.last < r.full then 0 else min r.len (start - (r.last + 1))

/-- The state in which a PASS has counted the cycles `busy` of its rows and the held cycles before them. -/
def State.passCounted (s : State) (n start busy : Nat) : State :=
  (s.count (tileIx n) 0x1B 0 64 busy).count (tileIx n) 0x1C 0 64 ((s.tile n).arr.ramp.held start)

/-- What a PASS without sentinel event, collision or lost cycle adds to an array. -/
def ArrayUnit.streamed (u : ArrayUnit) (fs : List Fold) (last : Nat) : ArrayUnit :=
  { u with folds := u.folds ++ fs, ramp := { u.ramp with last := last, downAt := none } }

theorem State.obj_passCounted (s : State) (n start busy : Nat) {j : Nat} (hj : 0x30 ≤ j) :
    (s.passCounted n start busy).obj (tileIx n) j 0 = s.obj (tileIx n) j 0 := by
  unfold State.passCounted State.count
  rw [State.obj_setObj_sub _ _ _ _ (by omega), State.obj_setObj_sub _ _ _ _ (by omega)]

theorem State.obj_passCounted_busy (s : State) (n start busy : Nat) :
    (s.passCounted n start busy).obj (tileIx n) 0x1B = min (s.obj (tileIx n) 0x1B + busy) (2 ^ 64 - 1) := by
  unfold State.passCounted
  rw [State.count, State.obj_setObj_sub _ _ _ _ (by decide), State.obj_count_same]

theorem State.passCounted_sameRegs (s : State) (n start busy : Nat) :
    s.sameRegs (s.passCounted n start busy) [okey (tileIx n) 0x1B 0, okey (tileIx n) 0x1C 0] :=
  State.sameRegs_count _ _ _ _ _ (State.sameRegs_count _ _ _ _ _ (s.sameRegs_refl _) (by simp)) (by simp)

/-- The state in which a tile's ramp-up waits in its rail group's list (R76). -/
def State.awaitRamp (s : State) (n : Nat) : State :=
  let g := Tbl.get s.slopes {} (fieldNo n)
  if g.waiting.contains n then s
  else { s with slopes := Tbl.put s.slopes {} (fieldNo n) { g with waiting := g.waiting ++ [n] } }

theorem State.awaitRamp_slopes (s : State) (n : Nat) : s.awaitRamp n = { s with slopes := (s.awaitRamp n).slopes } := by
  unfold State.awaitRamp
  dsimp only
  split
  · rfl
  · rfl

theorem State.passCounted_onlyTile (s : State) (n start busy : Nat) : s.onlyTile (s.passCounted n start busy) n :=
  State.onlyTile_count _ _ _ _ _ (s.onlyTile_setObj ..)

@[simp] theorem State.tile_passCounted (s : State) (n start busy m : Nat) : (s.passCounted n start busy).tile m = s.tile m := rfl

section Pass
variable {s : State} {n c w : Nat} {es ss : List Row} (head : s.headIs n 0 c w) (code : opcodeOf w = 0x12)
  (swapped : (s.tile n).arr.swapped = true)
  (accepted : passOk (s.tile n).arr.live.fmt (fieldOf w 118 2) (fieldOf w 115 3) (fieldOf w 111 4) (bitOf w 110) (bitOf w 109) (bitOf w 108)
    (fieldOf w 94 14) (fieldOf w 84 10) = true)
  (elems : es.length = streamRows (fieldOf w 111 4) (fieldOf w 94 14))
  (scales : ss.length = (fieldOf w 94 14 * streamScales (fieldOf w 111 4) + 31) / 32)
  (readsE : s.reads n (fieldOf w 78 6) hrStream (fieldOf w 64 14) es) (readsS : s.reads n (fieldOf w 58 6) hrStream (fieldOf w 44 14) ss)
include head code swapped accepted elems scales readsE readsS

/-- With all groups off a PASS only joins its rail group's waiting list (R76). -/
theorem execPass_of_ramp_down (off : (s.tile n).arr.ramp.up = false) : ∃ t, exec (.pass n c []) s = .next t ∧ t = { s with slopes := t.slopes } := by
  have noRow : rampIssue (s.tile n).arr.ramp c = none := by rw [rampIssue, off]; rfl
  obtain ⟨allowedE, -⟩ := readsE
  obtain ⟨allowedS, -⟩ := readsS
  rw [elems] at allowedE
  rw [scales] at allowedS
  have run : execPass n c [] s = .next (s.awaitRamp n) := by
    rw [execPass, State.atHead_of_headIs _ head code]
    simp only [swapped, Bool.not_true, Bool.false_eq_true, if_false, accepted, allowedE, allowedS, noRow]
    rfl
  exact ⟨_, run, s.awaitRamp_slopes n⟩

/-- With all groups on a PASS streams its rows from the first cycle in which they are, and queues a fold for each. -/
theorem execPass_issues (alone : (s.tile n).grants = []) (up : (s.tile n).arr.ramp.up = true) (on : (s.tile n).arr.ramp.downAt = none)
    (some' : 0 < fieldOf w 94 14) (within : ∀ x, x ∈ planeBytes ss (fieldOf w 94 14 * streamScales (fieldOf w 111 4)) →
      fieldOf (s.obj (tileIx n) 0x12 1) 0 8 ≤ x ∧ x ≤ fieldOf (s.obj (tileIx n) 0x12 1) 8 8 ∧ x ≠ 0xFF)
    {start busy : Nat} (hstart : start = max c (s.tile n).arr.ramp.full) (hbusy : busy = fieldOf w 94 14 * rowCycles (fieldOf w 111 4)) :
    ∃ t, exec (.pass n c []) s = .next t ∧
      s.arrayIssued t n (start + busy) ((s.tile n).arr.streamed (passFolds (s.tile n).arr.live (fieldOf w 118 2) (fieldOf w 111 4)
          (fieldOf w 115 3) (fieldOf w 84 10) (fieldOf w 0 32) start [] none false es ss (fieldOf w 94 14)) (start + busy - 1))
        [okey (tileIx n) 0x1B 0, okey (tileIx n) 0x1C 0] ∧
      t.obj (tileIx n) 0x1B = min (s.obj (tileIx n) 0x1B + busy) (2 ^ 64 - 1) := by
  have last : start + busy - 1 + 1 = start + busy :=
    Nat.sub_add_cancel ((hbusy ▸ Nat.mul_pos some' (rowCycles_pos _)).trans_le (Nat.le_add_left ..))
  have pro : ((s.passCounted n start busy).queue n 0).prologue = false := head.prologue
  obtain ⟨allowedE, holdsE⟩ := readsE
  obtain ⟨allowedS, holdsS⟩ := readsS
  rw [elems] at allowedE
  rw [scales] at allowedS
  subst hstart hbusy
  refine ⟨_, ?_, State.advance_arrayIssued _ (fun u => u.streamed _ _) pro (s.tile_passCounted ..) (s.passCounted_onlyTile ..)
    (s.passCounted_sameRegs n _ _) fun _ => s.obj_passCounted n _ _, ?_⟩
  · show execPass n c [] s = _
    rw [execPass, State.atHead_of_headIs _ head code]
    simp only [swapped, Bool.not_true, Bool.false_eq_true, if_false, accepted, allowedE, allowedS, rampIssue_up up on,
      State.readRows_of_length holdsE elems, State.readRows_of_length holdsS scales, State.collide_nil, State.lostCycles_of_grants alone, slipped_nil,
      State.sentinelCount_within n 1 within]
    rw [last]
    rfl
  · rw [State.obj_advance_modArr _ _ pro (by decide) (by decide), State.obj_passCounted_busy]

end Pass

/-! ### The accumulator file (R59) -/

/-- Zeros appended to a list change no entry that reads as zero past its end. -/
theorem getD_append_zeros (row : List F32) (k i : Nat) : (row ++ List.replicate k 0).getD i 0 = row.getD i 0 := by
  by_cases h : i < row.length
  · exact List.getD_append _ _ _ _ h
  · have past : row.length ≤ i := Nat.not_lt.1 h
    rw [List.getD_append_right _ _ _ _ past, List.getD_eq_default _ _ past, List.getD_eq_getElem?_getD, List.getElem?_replicate]
    split <;> rfl

theorem getD_of_all_zero {row : List F32} (h : row.all (· == 0) = true) (i : Nat) : row.getD i 0 = 0 := by
  rw [List.getD_eq_getElem?_getD]
  cases entry : row[i]? with
  | none => rfl
  | some v => exact beq_iff_eq.1 (List.all_eq_true.1 h v (List.mem_of_getElem? entry))

theorem accGet_accPut (acc : Tbl (List F32)) (slot : Nat) {e : Nat} (v : F32) (he : e < 128) (slot' e' : Nat) :
    accGet (accPut acc slot e v) slot' e' = if slot' = slot ∧ e' = e then v else accGet acc slot' e' := by
  unfold accGet accPut
  by_cases same : slot' = slot
  · subst same
    rw [Tbl.get_put_same]
    generalize Tbl.get acc [] slot' = row
    have long : e < (row ++ List.replicate (128 - row.length) 0).length := by
      rw [List.length_append, List.length_replicate]
      omega
    have entry : ((row ++ List.replicate (128 - row.length) 0).set e v).getD e' 0 = if e' = e then v else row.getD e' 0 := by
      rw [← getD_append_zeros row (128 - row.length) e', List.getD_eq_getElem?_getD, List.getD_eq_getElem?_getD, List.getElem?_set]
      by_cases at' : e' = e
      · rw [if_pos at'.symm, if_pos long, if_pos at', Option.getD_some]
      · rw [if_neg (Ne.symm at'), if_neg at']
    simp only [true_and]
    rw [← entry]
    split
    · next zeros => rw [getD_of_all_zero zeros, List.getD_nil]
    · rfl
  · rw [Tbl.get_put_other _ _ _ _ _ _ same, if_neg (fun h => same h.1)]

/-! ### FOLD_LAND (R41, R62) -/

theorem execFoldLand_of_not_due {s : State} {n c : Nat}
    (h : (∀ f rest, (s.tile n).arr.folds = f :: rest → c < f.lands) ∨ s.stopped n = true) : exec (.foldLand n c) s = .next s := by
  show execFoldLand n c s = _
  rw [execFoldLand]
  cases folds : (s.tile n).arr.folds with
  | nil => rfl
  | cons f rest =>
    dsimp only
    rw [if_neg]
    rintro ⟨due, works⟩
    rcases h with early | stopped
    · exact absurd due (Nat.not_le.2 (early f rest folds))
    · simp [stopped] at works

/-- What a fold that overwrites or accumulates makes of an entry that held `old`: its output's segments folded from 0, or into `old` (R41, R62). -/
def Fold.result (f : Fold) (old : F32) (segs : List Segment) : FoldSum := foldSegments (if f.fold = 1 then old else 0) segs

/-- The landing of one output of a fold that overwrites or accumulates over at most 128 outputs (R62, R64). -/
def State.landEntry (s : State) (n : Nat) (f : Fold) (o : List Segment × Nat) : State :=
  let r := f.result (accGet (s.tile n).arr.acc (f.slot + f.row) o.2) o.1
  (((s.count (tileIx n) 0x10 (columnOf f.outs.length o.2) 16 r.sat).count (tileIx n) 0x17 0 32 r.nans).count (tileIx n) 0x18 0 32 r.faults).modArr n
    fun u => { u with acc := accPut u.acc (f.slot + f.row) o.2 r.acc }

theorem State.landFold_eq_landEntry (s : State) (n : Nat) {f : Fold} (plain : f.fold < 2) (narrow : f.outs.length ≤ 128) :
    s.landFold n f = f.outs.zipIdx.foldl (fun t o => t.landEntry n f o) s := by
  unfold State.landFold
  refine List.foldl_ext _ _ _ fun t o mem => ?_
  have low : o.2 < 128 := (List.snd_lt_of_mem_zipIdx mem).trans_le (by omega)
  have one : (f.outs.length == 256) = false := by simp; omega
  have writes : decide (f.fold ≥ 2) = false := by simp [plain]
  rw [one, writes]
  simp only [Nat.mod_eq_of_lt low, Bool.false_eq_true, if_false, Bool.not_false, if_true]
  rfl

theorem State.accGet_landEntry (s : State) (n : Nat) (f : Fold) {o : List Segment × Nat} (low : o.2 < 128) (slot j : Nat) :
    accGet ((s.landEntry n f o).tile n).arr.acc slot j = if slot = f.slot + f.row ∧ j = o.2
      then (f.result (accGet (s.tile n).arr.acc slot j) o.1).acc else accGet (s.tile n).arr.acc slot j := by
  rw [State.landEntry, State.tile_modArr_same, State.tile_count, State.tile_count, State.tile_count, accGet_accPut _ _ _ low]
  by_cases h : slot = f.slot + f.row ∧ j = o.2
  · rw [if_pos h, if_pos h, h.1, h.2]
  · rw [if_neg h, if_neg h]

/-- Landing the outputs from number `k` on writes their entries of the slot, each from what it held, and no other. -/
theorem State.accGet_foldl_landEntry (n : Nat) (f : Fold) (outs : List (List Segment)) (s : State) (k : Nat) (narrow : k + outs.length ≤ 128)
    (slot j : Nat) : accGet (((outs.zipIdx k).foldl (fun t o => t.landEntry n f o) s).tile n).arr.acc slot j =
      if slot = f.slot + f.row ∧ k ≤ j ∧ j < k + outs.length
        then (f.result (accGet (s.tile n).arr.acc slot j) (outs.getD (j - k) [])).acc else accGet (s.tile n).arr.acc slot j := by
  induction outs generalizing s k with
  | nil =>
    rw [if_neg]
    · rfl
    · rintro ⟨-, low, high⟩
      exact absurd high (Nat.not_lt.2 low)
  | cons segs outs ih =>
    rw [List.length_cons] at narrow ⊢
    rw [List.zipIdx_cons, List.foldl_cons, ih _ _ (by omega), State.accGet_landEntry _ _ _ (by dsimp only; omega)]
    dsimp only
    by_cases here : j = k
    · subst here
      rw [if_neg (by omega), Nat.sub_self, List.getD_cons_zero]
      by_cases at' : slot = f.slot + f.row
      · rw [if_pos ⟨at', rfl⟩, if_pos ⟨at', Nat.le_refl _, by omega⟩]
      · rw [if_neg (fun h => at' h.1), if_neg (fun h => at' h.1)]
    · rw [if_neg (c := slot = f.slot + f.row ∧ j = k) (fun h => here h.2)]
      by_cases later : slot = f.slot + f.row ∧ k + 1 ≤ j ∧ j < k + 1 + outs.length
      · rw [if_pos later, if_pos ⟨later.1, by omega, by omega⟩, show j - k = j - (k + 1) + 1 by omega, List.getD_cons_succ]
      · rw [if_neg later, if_neg (fun h => later ⟨h.1, by omega, by omega⟩)]

theorem State.accGet_landFold (s : State) (n : Nat) {f : Fold} (plain : f.fold < 2) (narrow : f.outs.length ≤ 128) (slot j : Nat) :
    accGet ((s.landFold n f).tile n).arr.acc slot j = if slot = f.slot + f.row ∧ j < f.outs.length
      then (f.result (accGet (s.tile n).arr.acc slot j) (f.outs.getD j [])).acc else accGet (s.tile n).arr.acc slot j := by
  rw [s.landFold_eq_landEntry n plain narrow, State.accGet_foldl_landEntry n f f.outs s 0 (by omega)]
  simp only [Nat.zero_le, true_and, Nat.zero_add, Nat.sub_zero]

theorem execFoldLand_eq {s : State} {n c : Nat} {f : Fold} {rest : List Fold} (oldest : (s.tile n).arr.folds = f :: rest) (due : f.lands ≤ c)
    (works : s.stopped n = false) (quiet : f.act = none) (clear : f.collided = false) :
    exec (.foldLand n c) s = .next ((s.landFold n f).modArr n (fun u => { u with folds := rest })) := by
  show execFoldLand n c s = _
  simp only [execFoldLand, oldest, due, works, Bool.not_false, and_self, if_true, quiet, clear, State.completed_none]

/-- Settles O25: a PASS issues with its folds behind those in flight, and a fold's outputs land one entry after the other. -/
theorem passesStreamAndFoldsLand : Obligations.PassesStreamAndFoldsLand := by
  refine ⟨?_, fun s n c w es ss head code swapped alone accepted elems scales readsE readsS => ⟨?_, ?_⟩,
    fun s n c => execFoldLand_of_not_due, ?_⟩
  · intro s n c w head code unswapped single
    exact ⟨_, execPass_of_unswapped head code unswapped, State.issueFault_halts 0 stBadValue single⟩
  · intro up on some' within
    obtain ⟨t, run, h, busy⟩ := execPass_issues head code swapped accepted elems scales readsE readsS alone up on some' within rfl rfl
    refine ⟨t, _, _, run, rfl, h.issued, by rw [h.arr]; rfl, length_passFolds .., fun m hm => getElem?_passFolds_quiet _ _ _ _ _ _ _ _ _ hm,
      by rw [h.arr]; rfl, by rw [h.arr]; rfl, h.spad, busy, h.only, h.regs⟩
  · exact execPass_of_ramp_down head code swapped accepted elems scales readsE readsS
  · intro s n c f rest oldest due works quiet clear plain narrow
    refine ⟨_, execFoldLand_eq oldest due works quiet clear, by rw [State.tile_modArr_same],
      State.onlyTile_modArr _ (s.onlyTile_landFold n f), fun j hj => ?_, fun slot j other => ?_⟩
    · rw [State.tile_modArr_same]
      exact (s.accGet_landFold n plain narrow _ j).trans (if_pos ⟨rfl, hj⟩)
    · rw [State.tile_modArr_same]
      refine (s.accGet_landFold n plain narrow slot j).trans (if_neg ?_)
      rintro ⟨same, low⟩
      exact other.elim (fun h => h same) (fun h => absurd low (Nat.not_lt.2 h))

end Sys2Proof.Machine
end

section
/-! PROOF. The activity ramp and its share of the rail group's slope budget (03 R76, 18 R437). -/

namespace Sys2Proof.Machine

/-- The state in which a ramp-up has left its rail group's waiting list, now `rest`, and the group carries its charge (R437). -/
def State.rampCharged (s : State) (n : Nat) (rest : List Nat) : State :=
  let g : RailGroup := { charges := recentCharges (Tbl.get s.slopes {} (fieldNo n)) s.elapsed ++ [s.elapsed], waiting := rest }
  { s with slopes := Tbl.put s.slopes {} (fieldNo n) g }

theorem State.rampCharged_group (s : State) (n : Nat) (rest : List Nat) : Tbl.get (s.rampCharged n rest).slopes {} (fieldNo n) =
    { charges := recentCharges (Tbl.get s.slopes {} (fieldNo n)) s.elapsed ++ [s.elapsed], waiting := rest } := Tbl.get_put_same ..

@[simp] theorem State.tile_rampCharged (s : State) (n : Nat) (rest : List Nat) (m : Nat) : (s.rampCharged n rest).tile m = s.tile m := rfl

@[simp] theorem State.rampCharged_regs (s : State) (n : Nat) (rest : List Nat) : (s.rampCharged n rest).regs = s.regs := rfl

theorem execArrayRampUp_of_waiting {s : State} {n c : Nat} {rest : List Nat} (first : (Tbl.get s.slopes {} (fieldNo n)).waiting = n :: rest)
    (works : s.stopped n = false)
    (room : 3 * ((recentCharges (Tbl.get s.slopes {} (fieldNo n)) s.elapsed).length + 1) ≤ s.obj (0x1110 + fieldNo n) 0) :
    exec (.arrayRampUp n c) s = .next (((s.rampCharged n rest).count (tileIx n) 0x19 0 32).modArr n fun u =>
      { u with ramp := { u.ramp with up := true, full := c + u.ramp.len, last := 0, downAt := none } }) := by
  show execArrayRampUp n c s = _
  rw [execArrayRampUp]
  dsimp only
  rw [first, works, if_pos ⟨rfl, rfl, room⟩]
  rfl

theorem execArrayRampUp_of_not_ready {s : State} {n : Nat} (c : Nat)
    (h : (Tbl.get s.slopes {} (fieldNo n)).waiting.head? ≠ some n ∨ s.stopped n = true ∨
      s.obj (0x1110 + fieldNo n) 0 < 3 * ((recentCharges (Tbl.get s.slopes {} (fieldNo n)) s.elapsed).length + 1)) :
    exec (.arrayRampUp n c) s = .next s := by
  show execArrayRampUp n c s = _
  rw [execArrayRampUp]
  dsimp only
  rw [if_neg]
  rintro ⟨first, works, room⟩
  rcases h with other | stopped | full
  · exact other first
  · simp [stopped] at works
  · exact absurd room (Nat.not_le.2 full)

/-- A ramp-down is due in cycle `c`: the groups are on, none has begun, and the last row issued more than the ramp length ago (R76). -/
def Ramp.downDue (r : Ramp) (c : Nat) : Prop := r.up = true ∧ r.downAt = none ∧ 0 < r.last ∧ r.last + r.len < c

theorem execArrayRampDown_of_due {s : State} {n c : Nat} (works : s.stopped n = false) (due : (s.tile n).arr.ramp.downDue c) :
    exec (.arrayRampDown n c) s = .next ((s.count (tileIx n) 0x1C 0 64 (s.tile n).arr.ramp.len).modArr n fun u =>
      { u with ramp := { u.ramp with downAt := some c } }) := by
  obtain ⟨up, on, some', held⟩ := due
  show execArrayRampDown n c s = _
  rw [execArrayRampDown]
  dsimp only
  rw [if_pos ⟨up, by rw [works]; rfl, on, some', held⟩]

theorem execArrayRampDown_of_not_due {s : State} {n c : Nat} (h : s.stopped n = true ∨ ¬ (s.tile n).arr.ramp.downDue c) :
    exec (.arrayRampDown n c) s = .next s := by
  show execArrayRampDown n c s = _
  rw [execArrayRampDown]
  dsimp only
  rw [if_neg]
  rintro ⟨up, works, on, some', held⟩
  rcases h with stopped | early
  · simp [stopped] at works
  · exact early ⟨up, on, some', held⟩

/-- Settles O26: each ramp command either acts, where all its conditions hold, or leaves the state. -/
theorem arrayRamps : Obligations.ArrayRamps := by
  refine ⟨?_, fun s n c => execArrayRampUp_of_not_ready c, ?_, ?_⟩
  · intro s n c rest first works room
    have group := s.rampCharged_group n rest
    refine ⟨_, execArrayRampUp_of_waiting first works room, ?_, ?_, ?_, ?_, ?_, ?_⟩
    · rw [State.modArr, State.modTile_slopes, State.count_slopes, group]
    · rw [State.modArr, State.modTile_slopes, State.count_slopes, group]
      rfl
    · rw [State.obj_modArr, State.obj_count_same, State.obj_congr (s.rampCharged_regs ..)]
    · rw [State.tile_modArr_same, State.tile_count, State.tile_rampCharged]
    · unfold State.modArr State.modTile State.setTile State.count State.setObj State.rampCharged
      rfl
    · exact State.sameRegs_congr (State.sameRegs_count _ _ _ _ _ (State.sameRegs_of_regs (s.rampCharged_regs ..) _) List.mem_cons_self)
        (State.modTile_regs ..)
  · intro s n c up works on some' held
    refine ⟨_, execArrayRampDown_of_due works ⟨up, on, some', held⟩, ?_, ?_, State.onlyTile_modArr _ (s.onlyTile_setObj ..), ?_⟩
    · rw [State.tile_modArr_same, State.tile_count]
    · rw [State.obj_modArr, State.obj_count_same]
    · exact State.sameRegs_congr (State.sameRegs_count _ _ _ _ _ (s.sameRegs_refl _) List.mem_cons_self) (State.modTile_regs ..)
  · rintro s n c (off | stopped | begun | fresh | held)
    · exact execArrayRampDown_of_not_due (.inr fun ⟨up, _⟩ => by simp [off] at up)
    · exact execArrayRampDown_of_not_due (.inl stopped)
    · exact execArrayRampDown_of_not_due (.inr fun ⟨_, on, _⟩ => begun on)
    · exact execArrayRampDown_of_not_due (.inr fun ⟨_, _, some', _⟩ => Nat.ne_of_gt some' fresh)
    · exact execArrayRampDown_of_not_due (.inr fun ⟨_, _, _, past⟩ => Nat.not_lt.2 held past)

end Sys2Proof.Machine
end

section
/-! PROOF. Which state a queue command acts in, what the commands of every queue and of Q-control leave unchanged, and which words SET_HANDLE and SET_SENTINEL refuse (04 R85, R88, 05 R120-R125, R131, R138). -/

namespace Sys2Proof.Machine

/-! ### Commands that do not stand at the head (R121-R124) -/

theorem State.atHead_of_not_head {s : State} {n q c op : Nat} (f : Nat → State)
    (h : s.mayIssue n q c = false ∨ ∃ w, s.cmdWord n (s.qPc n q) = some w ∧ opcodeOf w ≠ op) : s.atHead n q c op f = s := by
  unfold State.atHead
  split
  · next may =>
    obtain held | ⟨w, word, other⟩ := h
    · rw [held] at may
      contradiction
    · rw [word]
      exact if_neg other
  · rfl

/-- Every queue command acts on the word at the head of its queue and in no other way. -/
theorem exec_eq_atHead_of_queueHead {i : Instr} {n q c op : Nat} (s : State) (h : queueHead i = some (n, q, c, op)) :
    ∃ f, exec i s = .next (s.atHead n q c op f) := by
  unfold queueHead at h
  split at h
  case h_30 => contradiction
  all_goals
    cases h
    exact ⟨_, rfl⟩

theorem exec_queueCommand_of_not_head {s : State} {i : Instr} {n q c op : Nat} (command : queueHead i = some (n, q, c, op))
    (h : s.mayIssue n q c = false ∨ ∃ w, s.cmdWord n (s.qPc n q) = some w ∧ opcodeOf w ≠ op) : exec i s = .next s := by
  obtain ⟨f, run⟩ := exec_eq_atHead_of_queueHead s command
  rw [run, State.atHead_of_not_head f h]

/-! ### Registers beside those of a queue -/

theorem State.advance_sameRegs {s : State} {n q : Nat} (free : Nat) (pro : (s.queue n q).prologue = false) :
    s.sameRegs (s.advance n q free) (queueKeys n q) := by
  rw [State.advance_eq_issued free pro]
  exact s.issued_sameRegs n q _ free

/-- A halt at a failed issue-time check writes registers of its queue alone. -/
theorem State.issueFault_sameRegs {s : State} {n : Nat} (q st : Nat) (single : s.isTwin n = false) :
    s.sameRegs (s.issueFault n q st) (queueKeys n q) := by
  rw [State.issueFault, single, if_neg Bool.false_ne_true]
  refine State.sameRegs_congr ?_ (s.haltFault_regs n q st)
  iterate 4 refine State.sameRegs_setObj _ _ _ _ ?_ (okey_mem_queueKeys n q (by decide))
  exact s.sameRegs_refl _

/-- An object of a tile below its queues' objects, such as a handle or a sentinel, stays where only registers of a queue change. -/
theorem State.sameRegs.obj_of_queueKeys {s t : State} {n q : Nat} (h : s.sameRegs t (queueKeys n q)) {j e : Nat} (hj : j < 0x30) (he : e < 65536) :
    t.obj (tileIx n) j e = s.obj (tileIx n) j e :=
  h _ (okey_notMem_queueKeys n q hj he)

/-! ### NOP and END (R121, R131) -/

theorem execNop_frame {s : State} {n q c w : Nat} (head : s.headIs n q c w) (code : opcodeOf w = 0x04) :
    ∃ t, exec (.nop n q c) s = .next t ∧ s.issuedTo t n q (s.qPc n q + 1) (c + max 1 (fieldOf w 104 16)) ∧ s.onlyQueues t n ∧
      s.sameRegs t (queueKeys n q) := by
  have pro := head.prologue
  refine ⟨_, ?_, State.advance_issuedTo _ pro, State.advance_onlyQueues _ pro, State.advance_sameRegs _ pro⟩
  show execNop n q c s = _
  rw [execNop, State.atHead_of_headIs _ head code]

theorem execQueueEnd_frame {s : State} {n q c w : Nat} (head : s.headIs n q c w) (code : opcodeOf w = 0x03) :
    ∃ t, exec (.queueEnd n q c) s = .next t ∧ s.issuedTo t n q (s.qEntry n q) (c + 3) ∧ (t.queue n q).deferred = (s.queue n q).deferred ∧
      (t.queue n q).moveBad = none ∧ s.onlyQueues t n ∧ s.sameRegs t (queueKeys n q) := by
  refine ⟨(s.issued n q (s.qEntry n q) (c + 3)).modQueue n q (fun u => { u with moveBad := none, ended := some u.run }), ?_,
    State.issuedTo_modQueue (s.issued_issuedTo ..) rfl, ?_, ?_,
    State.onlyQueues_trans (s.issued_onlyQueues ..) (State.onlyQueues_modQueue ..),
    State.sameRegs_congr (s.issued_sameRegs n q _ _) (State.modTile_regs ..)⟩
  · show execQueueEnd n q c s = _
    rw [execQueueEnd, State.atHead_of_headIs _ head code, head.prologue, if_neg Bool.false_ne_true]
  · rw [State.queue_modQueue_same, State.queue_issued]
  · rw [State.queue_modQueue_same]

/-! ### Q-control writes an object of its tile (R53, R88) -/

/-- Q-control moves on and writes one entry of an object of its tile that is no queue's. -/
theorem State.advance_setObj_frame {s : State} {n j e : Nat} (free v : Nat) (pro : (s.queue n 3).prologue = false) (hj : j < 0x30) (he : e < 65536) :
    s.issuedTo ((s.advance n 3 free).setObj (tileIx n) j e v) n 3 (s.qPc n 3 + 1) free ∧
      s.onlyQueues ((s.advance n 3 free).setObj (tileIx n) j e v) n ∧
      s.sameRegs ((s.advance n 3 free).setObj (tileIx n) j e v) (okey (tileIx n) j e :: queueKeys n 3) :=
  ⟨State.issuedTo_setObj v (State.advance_issuedTo free pro) (by decide) he hj,
    State.onlyQueues_trans (State.advance_onlyQueues free pro) (State.onlyQueues_setObj ..),
    State.sameRegs_setObj _ _ _ _ (State.sameRegs_mono (State.advance_sameRegs free pro) (List.subset_cons_self ..)) List.mem_cons_self⟩

/-- A word of SET_SENTINEL is acceptable by the fields of the command (R53). -/
theorem sentinelOk_iff (w : Nat) : sentinelOk (fieldOf w 0 32) = true ↔
    fieldOf w 8 8 ≠ 0xFF ∧ fieldOf w 0 8 ≤ fieldOf w 8 8 ∧ bitOf w 31 = false ∧ fieldOf w 16 6 = 0 := by
  have field : ∀ lo k, lo + k ≤ 32 → fieldOf (fieldOf w 0 32) lo k = fieldOf w lo k := fun lo k h => by
    rw [fieldOf_fieldOf w 0 32 lo k h, Nat.zero_add]
  rw [sentinelOk, field 8 8 (by decide), field 0 8 (by decide), field 16 6 (by decide), bitOf_fieldOf w 0 32 31 (by decide)]
  simp [and_assoc]

/-- SET_HANDLE of an entry whose stored form is `e`, over a handle without a remote right, stores it (R88, R89). -/
theorem execSetHandle_frame {s : State} {n c w e : Nat} (head : s.headIs n 3 c w) (code : opcodeOf w = 0x40)
    (entry : handleEntry (fieldOf w 0 64) = some e) (noRead : bitOf (s.handle n (fieldOf w 64 6)) 56 = false)
    (noWrite : bitOf (s.handle n (fieldOf w 64 6)) 55 = false) :
    ∃ t, exec (.setHandle n c) s = .next t ∧ s.issuedTo t n 3 (s.qPc n 3 + 1) (c + 1) ∧ t.handle n (fieldOf w 64 6) = e ∧
      s.onlyQueues t n ∧ s.sameRegs t (okey (tileIx n) 0x20 (fieldOf w 64 6) :: queueKeys n 3) := by
  obtain ⟨issued, only, regs⟩ := State.advance_setObj_frame (j := 0x20) (c + 1) e head.prologue (by decide)
    ((fieldOf_lt w 64 6).trans (by decide))
  refine ⟨_, ?_, issued, State.obj_setObj_same .., only, regs⟩
  show execSetHandle n c s = _
  rw [execSetHandle, State.atHead_of_headIs _ head code]
  simp [entry, noRead, noWrite]

theorem execSetSentinel_frame {s : State} {n c w : Nat} (head : s.headIs n 3 c w) (code : opcodeOf w = 0x41) (which : fieldOf w 32 2 < 3)
    (top : fieldOf w 8 8 ≠ 0xFF) (range : fieldOf w 0 8 ≤ fieldOf w 8 8) (high : bitOf w 31 = false) (pad : fieldOf w 16 6 = 0) :
    ∃ t, exec (.setSentinel n c) s = .next t ∧ s.issuedTo t n 3 (s.qPc n 3 + 1) (c + 1) ∧
      t.obj (tileIx n) 0x12 (fieldOf w 32 2) = fieldOf w 0 32 ∧ s.onlyQueues t n ∧
      s.sameRegs t (okey (tileIx n) 0x12 (fieldOf w 32 2) :: queueKeys n 3) := by
  obtain ⟨issued, only, regs⟩ := State.advance_setObj_frame (j := 0x12) (c + 1) (fieldOf w 0 32) head.prologue (by decide)
    (show fieldOf w 32 2 < 65536 by omega)
  refine ⟨_, ?_, issued, State.obj_setObj_same .., only, regs⟩
  show execSetSentinel n c s = _
  rw [execSetSentinel, State.atHead_of_headIs _ head code, if_pos ⟨which, (sentinelOk_iff w).2 ⟨top, range, high, pad⟩⟩]

/-! ### Words that Q-control refuses (R53, R88, R125) -/

theorem handleEntry_invalid {e : Nat} (h : fieldOf e 52 3 ≠ 0 ∨ fieldOf e 0 16 ≠ 0 ∨ (bitOf e 63 = true ∧
    (popCount (fieldOf e 40 12) 12 = 0 ∨ fieldOf e 26 14 = 0 ∨ 12288 < fieldOf e 26 14 ∨
      1024 < fieldOf e 16 10 + (fieldOf e 26 14 + popCount (fieldOf e 40 12) 12 - 1) / popCount (fieldOf e 40 12) 12))) : handleEntry e = none := by
  unfold handleEntry hValid hMask hLength hBase
  split
  · rfl
  · next pads =>
    obtain ⟨valid, bad⟩ := (h.resolve_left fun low => pads (.inl low)).resolve_left fun pad => pads (.inr pad)
    rw [valid, if_neg (by decide)]
    dsimp only
    split
    · rfl
    · exact if_pos (by omega)

/-- SET_HANDLE of an entry that has no stored form halts Q-control and leaves the handle. -/
theorem execSetHandle_halts {s : State} {n c w : Nat} (head : s.headIs n 3 c w) (code : opcodeOf w = 0x40) (single : s.isTwin n = false)
    (entry : handleEntry (fieldOf w 0 64) = none) :
    ∃ t, exec (.setHandle n c) s = .next t ∧ t.qState n 3 = 4 ∧ t.obj (tileIx n) 0x32 3 = stBadValue ∧ t.qPc n 3 = s.qPc n 3 ∧
      t.handle n (fieldOf w 64 6) = s.handle n (fieldOf w 64 6) ∧ t.tiles = s.tiles := by
  obtain ⟨state, status, pc, tiles⟩ := State.issueFault_halts 3 stBadValue single
  refine ⟨_, ?_, state, status, pc, (State.issueFault_sameRegs 3 stBadValue single).obj_of_queueKeys (by decide)
    ((fieldOf_lt w 64 6).trans (by decide)), tiles⟩
  show execSetHandle n c s = _
  rw [execSetHandle, State.atHead_of_headIs _ head code, entry]

/-- SET_SENTINEL of a word that is not acceptable halts Q-control and leaves every entry of 2100+n:12 that an entry number of 16 bits names. -/
theorem execSetSentinel_halts {s : State} {n c w : Nat} (head : s.headIs n 3 c w) (code : opcodeOf w = 0x41) (single : s.isTwin n = false)
    (bad : fieldOf w 32 2 = 3 ∨ fieldOf w 8 8 = 0xFF ∨ fieldOf w 8 8 < fieldOf w 0 8 ∨ bitOf w 31 = true ∨ fieldOf w 16 6 ≠ 0) :
    ∃ t, exec (.setSentinel n c) s = .next t ∧ t.qState n 3 = 4 ∧ t.obj (tileIx n) 0x32 3 = stBadValue ∧ t.qPc n 3 = s.qPc n 3 ∧
      t.tiles = s.tiles ∧ ∀ i < 65536, t.obj (tileIx n) 0x12 i = s.obj (tileIx n) 0x12 i := by
  obtain ⟨state, status, pc, tiles⟩ := State.issueFault_halts 3 stBadValue single
  refine ⟨_, ?_, state, status, pc, tiles, fun i small => (State.issueFault_sameRegs 3 stBadValue single).obj_of_queueKeys (by decide) small⟩
  show execSetSentinel n c s = _
  rw [execSetSentinel, State.atHead_of_headIs _ head code, if_neg]
  rintro ⟨which, sound⟩
  obtain ⟨top, range, high, pad⟩ := (sentinelOk_iff w).1 sound
  rcases bad with three | full | above | set | padded
  · omega
  · exact top full
  · omega
  · simp [high] at set
  · exact padded pad

/-! ### The entries of 2100+n:12 -/

/-- An entry number of 2100+n:12 from 0x1E0000 names the registers of 2100+n:30: their keys are the same numbers. -/
theorem okey_sentinel_overflow (n q : Nat) : okey (tileIx n) 0x12 (0x1E0000 + q) = okey (tileIx n) 0x30 q := by
  unfold okey
  omega

/-- SET_SENTINEL of sentinel 3, which there is not. -/
def sentinelThree : Nat := 0x41 * 2 ^ 120 + 3 * 2 ^ 32 + 0xFE00

/-- Tile 0 with Q-control RUNNING at word 0 of its store, which holds `sentinelThree`. -/
def atSentinelThree : State :=
  (State.reset.setQState 0 3 2).modTile 0 (fun t => { t with store := [(0, encodeRow (BitVec.ofNat 256 sentinelThree))] })

theorem headIs_atSentinelThree : atSentinelThree.headIs 0 3 0 sentinelThree := by
  unfold State.headIs
  decide +kernel

/-- Refutes O21: the last clause, which says that a halted SET_SENTINEL leaves every entry `i` of 2100+n:12, bounds `i` by nothing, and entry 0x1E0003 has the key of 2100+n:30:3, the state of Q-control, which the halt changes from RUNNING to HALTED_FAULT. Every other clause holds, and so does this one for `i` below 2^16: `exec_queueCommand_of_not_head`, `execNop_frame`, `execQueueEnd_frame`, `execSetHandle_frame` with `handleEntry_valid`, `execSetHandle_halts` with `handleEntry_invalid`, `execSetSentinel_frame`, and `execSetSentinel_halts` for the clause with the bound. -/
theorem not_queueHeadsHandlesAndSentinels : ¬ Obligations.QueueHeadsHandlesAndSentinels := by
  rintro ⟨-, -, -, -, sentinels⟩
  obtain ⟨-, halts⟩ := sentinels atSentinelThree 0 0 sentinelThree headIs_atSentinelThree (by decide)
  obtain ⟨t, -, halted, -, -, -, entries⟩ := halts (by decide +kernel) (.inl (by decide))
  have same : t.qState 0 3 = atSentinelThree.qState 0 3 := by
    have entry := entries (0x1E0000 + 3)
    rwa [State.obj_eq_reg, State.obj_eq_reg, okey_sentinel_overflow] at entry
  have running : atSentinelThree.qState 0 3 = 2 := State.obj_setObj_same State.reset (tileIx 0) 0x30 3 2
  rw [halted, running] at same
  contradiction

end Sys2Proof.Machine
end

section
/-! PROOF. Signals: what SIGNAL and SIGNAL_APPLY change and leave unchanged (05 R129, 08 R174, R195). -/

namespace Sys2Proof.Machine

/-! ### An addition to a gauge (R195) -/

section AddGauge
variable (s : State) (n g amount device logical : Nat) (other cycle : Option Nat)

theorem State.gauge_addGauge_signaller :
    ((s.addGauge n g amount device logical other cycle).gauge n g).device = device ∧
      ((s.addGauge n g amount device logical other cycle).gauge n g).logical = logical ∧
      ((s.addGauge n g amount device logical other cycle).gauge n g).add = amount := by
  simp [State.addGauge, State.setGauge, State.modGau, State.gauge]

theorem State.gauge_addGauge_ne {g' : Nat} (h : g' ≠ g) :
    (s.addGauge n g amount device logical other cycle).gauge n g' = s.gauge n g' := by
  simp [State.addGauge, State.setGauge, State.modGau, State.gauge, Tbl.get_put_other _ _ _ _ _ _ h]

theorem State.addGauge_onlyTile : s.onlyTile (s.addGauge n g amount device logical other cycle) n :=
  State.onlyTile_trans (s.onlyTile_modTile n _) (State.onlyTile_setObj ..)

theorem State.addGauge_sameRegs : s.sameRegs (s.addGauge n g amount device logical other cycle) [okey (tileIx n) 0x64 0] :=
  State.sameRegs_count _ _ _ _ _ (State.sameRegs_of_regs (State.modGau_regs ..) _) List.mem_cons_self

theorem State.obj_addGauge_count :
    (s.addGauge n g amount device logical other cycle).obj (tileIx n) 0x64 = min (s.obj (tileIx n) 0x64 + 1) (2 ^ 64 - 1) := by
  unfold State.addGauge
  exact State.obj_count_same ..

end AddGauge

/-- A signal within the tile's own job in a live tile is an addition to its gauge (R129, R195). -/
theorem State.applySignal_eq_addGauge {s : State} {n : Nat} (q c : Nat) {d : Deferred} (near : d.far = false) (live : (s.tile n).gau.st = .live) :
    s.applySignal n q c d = s.addGauge n d.gauge d.add s.ownDevice (s.logicalOf n) none (some c) := by
  simp [State.applySignal, State.signalTile, near, live]

/-! ### SIGNAL (R129, R174) -/

theorem State.noSignalCredit_of_near {s : State} {n : Nat} {d : Deferred} (near : d.far = false) : s.noSignalCredit n d = false := by
  simp [State.noSignalCredit, near]

/-- A local SIGNAL at the head of its queue waits behind 8 deferred signals, acts at once in Q-control and joins the deferred elsewhere. -/
theorem execSignal_eq {s : State} {n q c w : Nat} (head : s.headIs n q c w) (code : opcodeOf w = 0x02) (near : bitOf w 119 = false) :
    exec (.signal n q c) s = .next (
      if 8 ≤ (s.queue n q).deferred.length then s.stall n q 0
      else if q = 3 then (s.advance n q (c + 1)).applySignal n q c (signalOf w (s.signalReady n q c))
      else (s.advance n q (c + 1)).modQueue n q (fun u => { u with deferred := u.deferred ++ [signalOf w (s.signalReady n q c)] })) := by
  have credit : s.noSignalCredit n (signalOf w (s.signalReady n q c)) = false := State.noSignalCredit_of_near near
  show execSignal n q c s = _
  rw [execSignal, State.atHead_of_headIs _ head code]
  simp only [credit, Bool.false_eq_true, or_false, ge_iff_le]

theorem execSignal_deferred_frame {s : State} {n q c w : Nat} (hq : q < 3) (head : s.headIs n q c w) (code : opcodeOf w = 0x02)
    (near : bitOf w 119 = false) (room : (s.queue n q).deferred.length < 8) :
    ∃ t d, exec (.signal n q c) s = .next t ∧ s.issuedTo t n q (s.qPc n q + 1) (c + 1) ∧
      (t.queue n q).deferred = (s.queue n q).deferred ++ [d] ∧ d.far = false ∧ d.gauge = fieldOf w 112 7 ∧ d.add = fieldOf w 96 16 ∧
      s.onlyQueues t n ∧ s.sameRegs t (queueKeys n q) := by
  have pro := head.prologue
  refine ⟨(s.advance n q (c + 1)).modQueue n q (fun u => { u with deferred := u.deferred ++ [signalOf w (s.signalReady n q c)] }),
    signalOf w (s.signalReady n q c), ?_, State.issuedTo_modQueue (State.advance_issuedTo _ pro) rfl, ?_, near, rfl, rfl,
    State.onlyQueues_trans (State.advance_onlyQueues _ pro) (State.onlyQueues_modQueue ..),
    State.sameRegs_congr (State.advance_sameRegs _ pro) (State.modTile_regs ..)⟩
  · rw [execSignal_eq head code near, if_neg (Nat.not_le.2 room), if_neg (Nat.ne_of_lt hq)]
  · rw [State.queue_modQueue_same, State.advance_eq_issued _ pro, State.queue_issued]

theorem execSignal_stalls {s : State} {n q c w : Nat} (head : s.headIs n q c w) (code : opcodeOf w = 0x02) (near : bitOf w 119 = false)
    (full : 8 ≤ (s.queue n q).deferred.length) :
    ∃ t, exec (.signal n q c) s = .next t ∧ t.qState n q = 3 ∧ t.qPc n q = s.qPc n q ∧ s.onlyQueues t n ∧ s.sameRegs t (queueKeys n q) := by
  obtain ⟨state, pc⟩ := s.stall_stalls n q 0
  refine ⟨_, ?_, state, pc, s.stall_onlyQueues n q 0, s.stall_sameRegs n q 0⟩
  rw [execSignal_eq head code near, if_pos full]

/-- No object of a subindex other than a queue's has the key of one of a queue's. -/
theorem okey_notMem_queueKeys_of_sub (n : Nat) {q i j e : Nat} (hq : q < 65536) (hj : j < 256) (he : e < 65536) (other : j < 0x30 ∨ 0x35 < j) :
    okey i j e ∉ queueKeys n q := by
  unfold queueKeys
  rw [List.mem_map]
  rintro ⟨j', listed, same⟩
  have bounds : ∀ x ∈ [0x30, 0x31, 0x32, 0x33, 0x34, 0x35], 0x30 ≤ x ∧ x ≤ 0x35 := by decide
  obtain ⟨low, high⟩ := bounds j' listed
  obtain ⟨-, rfl, -⟩ := okey_inj _ _ _ _ _ _ (by omega) hq hj he same
  omega

/-- The device's own number stays where only registers of a queue of a tile change. -/
theorem State.ownDevice_of_queueKeys {s t : State} {n q : Nat} (hq : q < 65536) (h : s.sameRegs t (queueKeys n q)) :
    t.ownDevice = s.ownDevice := by
  have kept : t.obj 0x4000 0 = s.obj 0x4000 0 :=
    h _ (okey_notMem_queueKeys_of_sub n hq (by decide) (by decide) (.inl (by decide)))
  rw [State.ownDevice, State.ownDevice, kept]

/-- What a queue has issued stays so when a gauge of the tile is added to. -/
theorem State.issuedTo_addGauge {s t : State} {n q pc free : Nat} (hq : q < 65536) (h : s.issuedTo t n q pc free) (g amount device logical : Nat)
    (other cycle : Option Nat) : s.issuedTo (t.addGauge n g amount device logical other cycle) n q pc free := by
  refine State.issuedTo_of_kept h (fun j low high => ?_) (by rw [State.queue_addGauge])
  refine t.addGauge_sameRegs n g amount device logical other cycle _ fun mem => ?_
  have same := List.mem_singleton.1 mem
  unfold okey at same
  omega

theorem execSignal_adds {s : State} {n c w : Nat} (head : s.headIs n 3 c w) (code : opcodeOf w = 0x02) (near : bitOf w 119 = false)
    (room : (s.queue n 3).deferred.length < 8) (live : (s.tile n).gau.st = .live) :
    ∃ u, exec (.signal n 3 c) s = .next (u.addGauge n (fieldOf w 112 7) (fieldOf w 96 16) s.ownDevice (s.logicalOf n) none (some c)) ∧
      s.issuedTo u n 3 (s.qPc n 3 + 1) (c + 1) ∧ s.onlyQueues u n ∧ s.sameRegs u (queueKeys n 3) := by
  have pro := head.prologue
  have only := State.advance_onlyQueues (c + 1) pro
  have regs := State.advance_sameRegs (c + 1) pro
  refine ⟨s.advance n 3 (c + 1), ?_, State.advance_issuedTo _ pro, only, regs⟩
  have live' : ((s.advance n 3 (c + 1)).tile n).gau.st = .live := by
    rw [only.2]
    exact live
  have signal : (signalOf w (s.signalReady n 3 c)).far = false := near
  rw [execSignal_eq head code near, if_neg (Nat.not_le.2 room), if_pos rfl, State.applySignal_eq_addGauge 3 c signal live',
    State.ownDevice_of_queueKeys (by decide) regs, State.logicalOf, State.sameRegs.obj_of_queueKeys regs (by decide) (by decide)]
  rfl

/-! ### SIGNAL_APPLY (R129, R195) -/

theorem execSignalApply_of_none {s : State} {n q c : Nat} (h : (s.queue n q).deferred = [] ∨ s.qState n q = 6) :
    exec (.signalApply n q c) s = .next s := by
  show execSignalApply n q c s = _
  rw [execSignalApply]
  split
  · rfl
  · next d rest oldest =>
    rw [if_pos (h.resolve_left (by simp [oldest]))]

/-- SIGNAL_APPLY takes the oldest deferred signal of a queue, which is due. -/
theorem execSignalApply_of_due {s : State} {n q c : Nat} {d : Deferred} {rest : List Deferred} (oldest : (s.queue n q).deferred = d :: rest)
    (thawed : s.qState n q ≠ 6) (due : s.signalDue n q c d = true) :
    exec (.signalApply n q c) s = .next (
      if s.suppressed n q d then (s.modQueue n q (fun u => { u with deferred := rest })).count (tileIx n) 0x39 0 32
      else (s.modQueue n q (fun u => { u with deferred := rest })).applySignal n q c d) := by
  show execSignalApply n q c s = _
  rw [execSignalApply, oldest]
  dsimp only
  rw [if_neg thawed, if_pos due]

theorem execSignalApply_vector {s : State} {n c : Nat} {d : Deferred} {rest : List Deferred} (oldest : (s.queue n 1).deferred = d :: rest)
    (thawed : s.qState n 1 ≠ 6) (ready : d.ready ≤ c) (near : d.far = false) (still : (s.tile n).vec = []) (live : (s.tile n).gau.st = .live) :
    ∃ t, exec (.signalApply n 1 c) s = .next t ∧ (t.queue n 1).deferred = rest ∧
      (t.gauge n d.gauge).value = ((s.gauge n d.gauge).value + d.add) % 2 ^ 32 ∧ (∀ g, g ≠ d.gauge → t.gauge n g = s.gauge n g) ∧
      s.onlyTile t n ∧ s.sameRegs t [okey (tileIx n) 0x64 0] := by
  have due : s.signalDue n 1 c d = true := by simp [State.signalDue, ready, still, State.noSignalCredit_of_near near]
  let u := s.modQueue n 1 (fun u => { u with deferred := rest })
  have live' : (u.tile n).gau.st = .live := by rw [State.tile_modQueue_same, live]
  have gauge : ∀ g, u.gauge n g = s.gauge n g := fun g => by rw [State.gauge, State.tile_modQueue_same, State.gauge]
  refine ⟨u.addGauge n d.gauge d.add u.ownDevice (u.logicalOf n) none (some c), ?_, ?_, ?_, fun g other => ?_, ?_, ?_⟩
  · rw [execSignalApply_of_due oldest thawed due, if_neg (show ¬ s.suppressed n 1 d = true from Bool.false_ne_true),
      State.applySignal_eq_addGauge 1 c near live']
  · rw [State.queue_addGauge, State.queue_modQueue_same]
  · rw [State.gauge_addGauge_value, gauge]
  · rw [State.gauge_addGauge_ne _ _ _ _ _ _ _ _ other, gauge]
  · exact State.onlyTile_trans (s.onlyTile_modTile n _) (u.addGauge_onlyTile ..)
  · exact State.sameRegs_trans (State.sameRegs_of_regs (State.modTile_regs ..) _) (u.addGauge_sameRegs n _ _ _ _ _ _)

theorem execSignalApply_move_suppressed {s : State} {n c id : Nat} {d : Deferred} {rest : List Deferred}
    (oldest : (s.queue n 2).deferred = d :: rest) (thawed : s.qState n 2 ≠ 6) (still : (s.tile n).mov.descs = []) (near : d.far = false)
    (failed : (s.queue n 2).moveBad = some id) (earlier : id < d.ready) :
    ∃ t, exec (.signalApply n 2 c) s = .next t ∧ (t.queue n 2).deferred = rest ∧
      t.obj (tileIx n) 0x39 = min (s.obj (tileIx n) 0x39 + 1) (2 ^ 32 - 1) ∧ s.onlyQueues t n ∧ s.sameRegs t [okey (tileIx n) 0x39 0] := by
  have due : s.signalDue n 2 c d = true := by simp [State.signalDue, still, State.noSignalCredit_of_near near]
  have suppressed : s.suppressed n 2 d = true := by simp [State.suppressed, failed, earlier]
  refine ⟨_, (execSignalApply_of_due oldest thawed due).trans (by rw [if_pos suppressed]), ?_, ?_, ?_, ?_⟩
  · rw [State.queue_count, State.queue_modQueue_same]
  · rw [State.obj_count_same, State.obj_modQueue]
  · exact State.onlyQueues_trans (s.onlyQueues_modQueue n 2 _) (State.onlyQueues_setObj ..)
  · exact State.sameRegs_count _ _ _ _ _ (State.sameRegs_of_regs (State.modTile_regs ..) _) List.mem_cons_self

/-- Settles O23: SIGNAL either stalls, joins the deferred or adds to its gauge; SIGNAL_APPLY takes the oldest that is due. -/
theorem signalsAreDeferredAndApplied : Obligations.SignalsAreDeferredAndApplied := by
  refine ⟨fun s n q c w hq head code near => ⟨execSignal_deferred_frame hq head code near, execSignal_stalls head code near⟩, ?_,
    fun s n q c => execSignalApply_of_none, fun s n c d rest => execSignalApply_vector, ?_⟩
  · intro s n c w head code near room live
    obtain ⟨u, run, issued, only, regs⟩ := execSignal_adds head code near room live
    have gauge : ∀ g, u.gauge n g = s.gauge n g := fun g => by
      rw [State.gauge, only.2, State.gauge]
    have count : u.obj (tileIx n) 0x64 = s.obj (tileIx n) 0x64 :=
      regs _ (okey_notMem_queueKeys_of_sub n (by decide) (by decide) (by decide) (.inr (by decide)))
    obtain ⟨device, logical, add⟩ := u.gauge_addGauge_signaller n (fieldOf w 112 7) (fieldOf w 96 16) s.ownDevice (s.logicalOf n) none (some c)
    refine ⟨_, run, State.issuedTo_addGauge (by decide) issued .., ?_, device, logical, add, fun g other => ?_, ?_, ?_, ?_⟩
    · rw [State.gauge_addGauge_value, gauge]
    · rw [State.gauge_addGauge_ne _ _ _ _ _ _ _ _ other, gauge]
    · rw [State.obj_addGauge_count, count]
    · exact State.onlyTile_trans only.1 (u.addGauge_onlyTile ..)
    · exact State.sameRegs_trans (State.sameRegs_mono regs (List.subset_cons_self ..))
        (State.sameRegs_mono (u.addGauge_sameRegs n _ _ _ _ _ _) (by simp))
  · rintro s n c d rest oldest thawed still near ⟨id, failed, earlier⟩
    exact execSignalApply_move_suppressed oldest thawed still near failed earlier

end Sys2Proof.Machine
end

section
/-! PROOF. The vector unit's commands by family: the elementwise and the row-wise functions, each with what it issues (06 R146-R160). -/

namespace Sys2Proof.Machine

/-- Settles O27: CONVERT and ACT map source a, the four functions of two operands pair it with b, and DEQUANT restores the elements of a narrow format. -/
theorem vectorElementwise : Obligations.VectorElementwise := by
  refine ⟨fun s n c v xs src => ⟨?convert, ?act, ?binary⟩, ?dequant⟩
  case convert => exact fun head wide other aux ds => execVecConvert_converts src head wide other aux
  case act => exact fun head wide aux ds => execVecAct_acts src head wide aux
  case binary =>
    -- ADD, MUL, MAX and MIN share one body; with aux bit 1 clear, MUL's operation gets no old element of d.
    rintro bs i f ds wide aux length reads (⟨rfl, head, rfl⟩ | ⟨rfl, head, rfl⟩ | ⟨rfl, head, rfl⟩ | ⟨rfl, head, rfl⟩) rows allowed
    all_goals exact execVec_binary _ _ src wide aux length reads head rows allowed
  case dequant => exact fun s n c v es ss ds => execVecDequant_restores

/-- Settles O29: under one parameter row, REDUCE packs one result per vector, and SOFTMAX, NORM and TOPK write vector by vector. -/
theorem vectorRowwise : Obligations.VectorRowwise := by
  intro s n c v ps w len stride vs ds single reads word len' stride' pad some' least whole within count source
  have rows : s.rowsOf n v ps w len stride vs := ⟨single, reads, word, len', stride', pad, some', least, whole, within, count, source⟩
  exact ⟨execVecReduce_reduces rows, execVecSoftmax_writes rows, execVecNorm_writes rows, execVecTopk_selects rows⟩

end Sys2Proof.Machine
end

section
/-! PROOF. Routers: what a head flit, a refused flit and a FORK at its own position change (07 R164, R165, R176, R179, R184, R191). -/

namespace Sys2Proof.Machine

/-! ### Where only registers, tiles and messages differ -/

/-- Nothing but registers, tiles and what has been sent differs. -/
def State.onlyFabric (s t : State) : Prop := t = { s with regs := t.regs, tiles := t.tiles, sent := t.sent }

theorem State.onlyFabric_refl (s : State) : s.onlyFabric s := rfl

theorem State.onlyFabric_trans {s t u : State} (h : s.onlyFabric t) (g : t.onlyFabric u) : s.onlyFabric u := by
  unfold State.onlyFabric at h g ⊢
  exact g.trans (by rw [h])

theorem State.onlyFabric_setObj {s t : State} (h : s.onlyFabric t) (i j e v : Nat) : s.onlyFabric (t.setObj i j e v) := State.onlyFabric_trans h rfl
theorem State.onlyFabric_count {s t : State} (h : s.onlyFabric t) (i j e w k : Nat) : s.onlyFabric (t.count i j e w k) := State.onlyFabric_trans h rfl
theorem State.onlyFabric_emit {s t : State} (h : s.onlyFabric t) (m : Msg) : s.onlyFabric (t.emit m) := State.onlyFabric_trans h rfl
theorem State.onlyFabric_modTile {s t : State} (h : s.onlyFabric t) (n : Nat) (f : Tile → Tile) : s.onlyFabric (t.modTile n f) :=
  State.onlyFabric_trans h rfl

/-- What holds before a list is worked through, and stays with each of its elements, holds after. -/
theorem State.each_induction {α : Type} {s : State} {xs : List α} {f : State → α → State} (motive : State → Prop) (base : motive s)
    (step : ∀ t x, x ∈ xs → motive t → motive (f t x)) : motive (s.each xs f) :=
  List.foldlRecOn xs f base fun t kept x mem => step t x mem kept

@[simp] theorem State.tile_emit (s : State) (m : Msg) (n : Nat) : (s.emit m).tile n = s.tile n := rfl

/-! ### A packet leaves its buffer and counts its flits (R176, R191) -/

section Unbuffer
variable (s : State) (pos : Nat) (leg : Leg) (p : Packet)

theorem State.unbuffer_cases : s.unbuffer pos leg p = s ∨
    ∃ x ∈ (s.tile pos).inputs, s.unbuffer pos leg p = s.modTile pos (fun t => { t with inputs := t.inputs.erase x }) := by
  unfold State.unbuffer
  split
  · next x found => exact .inr ⟨x, List.mem_of_find?_eq_some found, rfl⟩
  · exact .inl rfl

@[simp] theorem State.unbuffer_regs : (s.unbuffer pos leg p).regs = s.regs := by
  obtain same | ⟨x, -, taken⟩ := s.unbuffer_cases pos leg p
  · rw [same]
  · rw [taken, State.modTile_regs]

@[simp] theorem State.unbuffer_sent : (s.unbuffer pos leg p).sent = s.sent := by
  obtain same | ⟨x, -, taken⟩ := s.unbuffer_cases pos leg p
  · rw [same]
  · rw [taken, State.modTile_sent]

theorem State.unbuffer_onlyFabric : s.onlyFabric (s.unbuffer pos leg p) := by
  obtain same | ⟨x, -, taken⟩ := s.unbuffer_cases pos leg p
  · rw [same]
    exact s.onlyFabric_refl
  · rw [taken]
    exact State.onlyFabric_modTile s.onlyFabric_refl ..

theorem State.tile_unbuffer_ne {m : Nat} (h : m ≠ pos) : (s.unbuffer pos leg p).tile m = s.tile m := by
  obtain same | ⟨x, -, taken⟩ := s.unbuffer_cases pos leg p
  · rw [same]
  · rw [taken, State.tile_modTile_ne _ _ h]

theorem State.tile_unbuffer_same :
    (s.unbuffer pos leg p).tile pos = { s.tile pos with inputs := ((s.unbuffer pos leg p).tile pos).inputs } := by
  obtain same | ⟨x, -, taken⟩ := s.unbuffer_cases pos leg p
  · rw [same]
  · rw [taken, State.tile_modTile_same]

theorem State.inputs_unbuffer_nil (h : (s.tile pos).inputs = []) : ((s.unbuffer pos leg p).tile pos).inputs = [] := by
  obtain same | ⟨x, mem, -⟩ := s.unbuffer_cases pos leg p
  · rw [same, h]
  · simp [h] at mem

theorem State.obj_countFlits_unbuffer : ((s.unbuffer pos leg p).countFlits pos p).obj (tileIx pos) 0x51 (if isReply p then 1 else 0) =
    min (s.obj (tileIx pos) 0x51 (if isReply p then 1 else 0) + (1 + (p.data.length + 1) / 2)) (2 ^ 64 - 1) := by
  rw [State.countFlits, State.obj_count_same, State.obj_congr (s.unbuffer_regs pos leg p), flitsOf]

theorem State.countFlits_unbuffer_sameRegs :
    s.sameRegs ((s.unbuffer pos leg p).countFlits pos p) [okey (tileIx pos) 0x51 (if isReply p then 1 else 0)] :=
  State.sameRegs_count _ _ _ _ _ (State.sameRegs_of_regs (s.unbuffer_regs pos leg p) _) List.mem_cons_self

theorem State.countFlits_unbuffer_onlyFabric : s.onlyFabric ((s.unbuffer pos leg p).countFlits pos p) :=
  State.onlyFabric_count (s.unbuffer_onlyFabric pos leg p) ..

theorem State.obj_countFlits_unbuffer_of_ne {j : Nat} (h : j ≠ 0x51) :
    ((s.unbuffer pos leg p).countFlits pos p).obj (tileIx pos) j = s.obj (tileIx pos) j :=
  s.countFlits_unbuffer_sameRegs pos leg p _ (by
    rw [List.mem_singleton]
    unfold okey
    split <;> omega)

theorem State.countFlits_unbuffer_sent : ((s.unbuffer pos leg p).countFlits pos p).sent = s.sent := s.unbuffer_sent pos leg p

end Unbuffer

/-! ### A packet passes on (R164, R176) -/

theorem State.passOn_sent (s : State) (pos m : Nat) (d : Dir) (leg : Leg) (p : Packet) :
    (s.passOn pos m d leg p).sent = .hop pos m leg p :: s.sent := rfl

theorem State.tile_passOn_same (s : State) (pos m : Nat) (d : Dir) (leg : Leg) (p : Packet) : (s.passOn pos m d leg p).tile m =
    { s.tile m with inputs := (s.tile m).inputs ++ [⟨arrivesAt p d, leg, p⟩], parity := (s.tile m).parity.erase (arrivesAt p d) } := by
  rw [State.passOn, State.tile_emit, State.tile_modTile_same]

theorem State.tile_passOn_ne (s : State) (pos : Nat) {m x : Nat} (d : Dir) (leg : Leg) (p : Packet) (h : x ≠ m) :
    (s.passOn pos m d leg p).tile x = s.tile x := by
  rw [State.passOn, State.tile_emit, State.tile_modTile_ne s _ h]

theorem State.onlyFabric_passOn {s t : State} (h : s.onlyFabric t) (pos m : Nat) (d : Dir) (leg : Leg) (p : Packet) :
    s.onlyFabric (t.passOn pos m d leg p) := State.onlyFabric_emit (State.onlyFabric_modTile h ..) _

/-! ### The head flit (R179) -/

section HeadFlit
variable {s : State} {pos : Nat} {leg : Leg} {p : Packet} (plain : p.ptype ≠ .fork) (carries : s.carries pos = true)
include plain carries

theorem execHeadFlitRoute_of_eject (hop : s.hop pos leg.vc leg.legX leg.legY p.dstX p.dstY = .eject) :
    exec (.headFlitRoute pos leg p) s = .next (((s.unbuffer pos leg p).countFlits pos p).emit (.hop pos pos leg p)) := by
  show execHeadFlitRoute pos leg p s = _
  simp [execHeadFlitRoute, plain, State.routeHead, carries, State.nextHop, hop]

theorem execHeadFlitRoute_of_forward {m : Nat} {d : Dir} (hop : s.hop pos leg.vc leg.legX leg.legY p.dstX p.dstY = .forward m d) :
    exec (.headFlitRoute pos leg p) s = .next (if s.bufferFree m (arrivesAt p d) leg.vc then
      ((s.unbuffer pos leg p).countFlits pos p).passOn pos m d leg p else s) := by
  show execHeadFlitRoute pos leg p s = _
  simp [execHeadFlitRoute, plain, State.routeHead, carries, State.nextHop, hop]

theorem execHeadFlitRoute_of_fenced (hop : s.hop pos leg.vc leg.legX leg.legY p.dstX p.dstY = .fenced) :
    exec (.headFlitRoute pos leg p) s = .next (((s.unbuffer pos leg p).countFlits pos p).stopPacket pos p stFenced) := by
  show execHeadFlitRoute pos leg p s = _
  simp [execHeadFlitRoute, plain, State.routeHead, carries, State.nextHop, hop]

theorem execHeadFlitRoute_ejects (hop : s.hop pos leg.vc leg.legX leg.legY p.dstX p.dstY = .eject) :
    ∃ t, exec (.headFlitRoute pos leg p) s = .next t ∧ t.sent = .hop pos pos leg p :: s.sent ∧
      t.obj (tileIx pos) 0x51 (if isReply p then 1 else 0) = min (s.obj (tileIx pos) 0x51 (if isReply p then 1 else 0) + (1 + (p.data.length + 1) / 2)) (2 ^ 64 - 1) ∧
      t.tile pos = { s.tile pos with inputs := (t.tile pos).inputs } ∧ ((s.tile pos).inputs = [] → (t.tile pos).inputs = []) ∧ (∀ m, m ≠ pos → t.tile m = s.tile m) ∧
      t = { s with regs := t.regs, tiles := t.tiles, sent := t.sent } ∧ s.sameRegs t [okey (tileIx pos) 0x51 (if isReply p then 1 else 0)] := by
  refine ⟨_, execHeadFlitRoute_of_eject plain carries hop, ?_, s.obj_countFlits_unbuffer pos leg p, s.tile_unbuffer_same pos leg p,
    s.inputs_unbuffer_nil pos leg p, fun _ => s.tile_unbuffer_ne pos leg p, ?_, s.countFlits_unbuffer_sameRegs pos leg p⟩
  · rw [State.emit_sent, State.countFlits_unbuffer_sent]
  · exact State.onlyFabric_emit (s.countFlits_unbuffer_onlyFabric pos leg p) _

theorem execHeadFlitRoute_passes {m : Nat} {d : Dir} (hop : s.hop pos leg.vc leg.legX leg.legY p.dstX p.dstY = .forward m d)
    (free : s.bufferFree m (arrivesAt p d) leg.vc = true) (other : m ≠ pos) :
    ∃ t, exec (.headFlitRoute pos leg p) s = .next t ∧ t.sent = .hop pos m leg p :: s.sent ∧
      t.obj (tileIx pos) 0x51 (if isReply p then 1 else 0) = min (s.obj (tileIx pos) 0x51 (if isReply p then 1 else 0) + (1 + (p.data.length + 1) / 2)) (2 ^ 64 - 1) ∧
      t.tile m = { s.tile m with inputs := (s.tile m).inputs ++ [⟨arrivesAt p d, leg, p⟩], parity := (s.tile m).parity.erase (arrivesAt p d) } ∧
      (∀ x, x ≠ pos → x ≠ m → t.tile x = s.tile x) ∧
      t = { s with regs := t.regs, tiles := t.tiles, sent := t.sent } ∧ s.sameRegs t [okey (tileIx pos) 0x51 (if isReply p then 1 else 0)] := by
  let u := (s.unbuffer pos leg p).countFlits pos p
  have tile : ∀ x, x ≠ pos → u.tile x = s.tile x := fun x => s.tile_unbuffer_ne pos leg p
  refine ⟨u.passOn pos m d leg p, ?_, ?_, s.obj_countFlits_unbuffer pos leg p, ?_, fun x off away => ?_, ?_,
    s.countFlits_unbuffer_sameRegs pos leg p⟩
  · rw [execHeadFlitRoute_of_forward plain carries hop, if_pos free]
  · rw [State.passOn_sent, s.countFlits_unbuffer_sent pos leg p]
  · rw [State.tile_passOn_same, tile m other]
  · rw [State.tile_passOn_ne u pos d leg p away, tile x off]
  · exact State.onlyFabric_passOn (s.countFlits_unbuffer_onlyFabric pos leg p) pos m d leg p

theorem execHeadFlitRoute_waits {m : Nat} {d : Dir} (hop : s.hop pos leg.vc leg.legX leg.legY p.dstX p.dstY = .forward m d)
    (full : s.bufferFree m (arrivesAt p d) leg.vc = false) : exec (.headFlitRoute pos leg p) s = .next s := by
  rw [execHeadFlitRoute_of_forward plain carries hop, full, if_neg Bool.false_ne_true]

theorem execHeadFlitRoute_fences (hop : s.hop pos leg.vc leg.legX leg.legY p.dstX p.dstY = .fenced) :
    ∃ t, exec (.headFlitRoute pos leg p) s = .next t ∧ t.obj (tileIx pos) 0x57 = min (s.obj (tileIx pos) 0x57 + 1) (2 ^ 32 - 1) ∧
      (isReply p = true → t.sent = s.sent) ∧
      (isReply p = false → ∃ a, t.sent = .packet pos true a :: s.sent ∧ a.ptype = .status ∧ a.status = stFenced ∧ a.tag = p.tag ∧ (a.dstX, a.dstY) = (p.srcX, p.srcY)) := by
  let u := (s.unbuffer pos leg p).countFlits pos p
  have sent : u.sent = s.sent := s.countFlits_unbuffer_sent pos leg p
  have counted : (u.count (tileIx pos) 0x57 0 32).obj (tileIx pos) 0x57 = min (s.obj (tileIx pos) 0x57 + 1) (2 ^ 32 - 1) := by
    rw [State.obj_count_same, s.obj_countFlits_unbuffer_of_ne pos leg p (by decide)]
  have run := execHeadFlitRoute_of_fenced plain carries hop
  unfold State.stopPacket at run
  cases reply : isReply p with
  | true =>
    rw [reply, if_pos rfl] at run
    exact ⟨_, run, counted, fun _ => sent, nofun⟩
  | false =>
    rw [reply, if_neg Bool.false_ne_true] at run
    refine ⟨_, run, counted, nofun, fun _ => ⟨replyTo pos p .status stFenced [], ?_, rfl, rfl, rfl, rfl⟩⟩
    show _ :: u.sent = _
    rw [sent]
    rfl

end HeadFlit

/-! ### A refused flit (R165) -/

theorem execFlitParityError_refuses {s : State} {pos input : Nat} (first : input ∉ (s.tile pos).parity) :
    ∃ t, exec (.flitParityError pos input) s = .next t ∧ t.tile pos = { s.tile pos with parity := (s.tile pos).parity ++ [input] } ∧
      t.obj (tileIx pos) 0x52 = min (s.obj (tileIx pos) 0x52 + 1) (2 ^ 32 - 1) ∧ s.onlyTile t pos ∧ s.sameRegs t [okey (tileIx pos) 0x52 0] := by
  let u := s.count (tileIx pos) 0x52 0 32
  refine ⟨u.modTile pos (fun t => { t with parity := t.parity ++ [input] }), ?_, State.tile_modTile_same .., s.obj_count_same ..,
    State.onlyTile_trans (State.onlyTile_setObj ..) (u.onlyTile_modTile pos _),
    State.sameRegs_congr (State.sameRegs_count _ _ _ _ _ (s.sameRegs_refl _) List.mem_cons_self) (State.modTile_regs ..)⟩
  show execFlitParityError pos input s = _
  simp [execFlitParityError, first, u]

/-! ### A FORK all of whose entries are at its own position (R184) -/

section ForkHere
variable {pos : Nat} {p : Packet} (here : ∀ e, e ∈ p.list → nextDir pos e.1 e.2 = none)
include here

theorem forkPart_none_of_here : forkPart pos p none = p.list :=
  List.filter_eq_self.2 fun e mem => decide_eq_true (here e mem)

theorem forkPart_some_of_here (d : Dir) : forkPart pos p (some d) = [] := by
  refine List.filter_eq_nil_iff.2 fun e mem => ?_
  simp [forkOutput, here e mem]

theorem State.forkBranch_some_of_here (s : State) (d : Dir) : s.forkBranch pos p (some d) = s := by
  simp [State.forkBranch, forkPart_some_of_here here d]

theorem State.forkBranch_none_of_here (s : State) (sound : p.head = []) (some' : p.list ≠ []) :
    s.forkBranch pos p none = s.emit (.hop pos pos ⟨0, 0x3F, 0x1F⟩ p) := by
  have whole : ({ mended p with list := p.list } : Packet) = p := by rw [mended, ← sound]
  simp [State.forkBranch, forkPart_none_of_here here, some', whole]

theorem State.branchFree_of_here (s : State) (d : Option Dir) : s.branchFree pos p d = true := by
  cases d with
  | none => rfl
  | some d =>
    simp only [State.branchFree, forkPart_some_of_here here d]
    split <;> rfl

theorem State.splitFork_of_here {s : State} (waits : Nat) (carries : s.carries pos = true) (sound : p.head = []) (some' : p.list ≠ []) :
    s.splitFork pos waits p = (((s.unbuffer pos ⟨0, 0x3F, 0x1F⟩ p).countFlits pos p).count (tileIx pos) 0x56 0 64 waits).emit
      (.hop pos pos ⟨0, 0x3F, 0x1F⟩ p) := by
  have intact : ∀ k, headBad p k = false := fun k => by simp [headBad, sound]
  simp [State.splitFork, carries, intact, State.branchFree_of_here here, State.each, State.forkBranch_none_of_here here _ sound some',
    State.forkBranch_some_of_here here]

theorem execForkSplit_ejects {s : State} (waits : Nat) (carries : s.carries pos = true) (sound : p.head = []) (some' : p.list ≠ []) :
    ∃ t, exec (.forkSplit pos waits p) s = .next t ∧ t.sent = .hop pos pos ⟨0, 0x3F, 0x1F⟩ p :: s.sent ∧
      t.obj (tileIx pos) 0x56 = min (s.obj (tileIx pos) 0x56 + waits) (2 ^ 64 - 1) ∧
      t = { s with regs := t.regs, tiles := t.tiles, sent := t.sent } ∧ (∀ m, m ≠ pos → t.tile m = s.tile m) := by
  let u := (s.unbuffer pos ⟨0, 0x3F, 0x1F⟩ p).countFlits pos p
  refine ⟨(u.count (tileIx pos) 0x56 0 64 waits).emit (.hop pos pos ⟨0, 0x3F, 0x1F⟩ p), ?_, ?_, ?_, ?_, fun _ => s.tile_unbuffer_ne pos _ p⟩
  · show execForkSplit pos waits p s = _
    rw [execForkSplit, State.splitFork_of_here here waits carries sound some']
  · show _ :: u.sent = _
    rw [s.countFlits_unbuffer_sent pos _ p]
  · rw [State.obj_emit, State.obj_count_same, s.obj_countFlits_unbuffer_of_ne pos _ p (by decide)]
  · exact State.onlyFabric_emit (State.onlyFabric_count (s.countFlits_unbuffer_onlyFabric pos _ p) ..) _

end ForkHere

/-! ### The end of a drain (R181) -/

theorem execNonForwardingDrainEnd_of_forwards {s : State} {n : Nat} (forwards : s.forwards n = true) :
    exec (.nonForwardingDrainEnd n) s = .next s := by
  show execNonForwardingDrainEnd n s = _
  rw [execNonForwardingDrainEnd, if_pos forwards]

theorem execNonForwardingDrainEnd_of_empty {s : State} {n : Nat} (stopped : s.forwards n = false) (held : (s.tile n).gau.held = [])
    (merges : (s.tile n).merges = []) (inputs : (s.tile n).inputs = []) :
    ∃ t, exec (.nonForwardingDrainEnd n) s = .next t ∧ t = { s with tiles := t.tiles } ∧ t.tile n = { s.tile n with drains := false } ∧
      ∀ m, m ≠ n → t.tile m = s.tile m := by
  refine ⟨s.modTile n (fun t => { t with drains := false, inputs := [], merges := [], gau := { t.gau with held := [] } }), ?_, rfl, ?_,
    fun _ => s.tile_modTile_ne _⟩
  · show execNonForwardingDrainEnd n s = _
    simp [execNonForwardingDrainEnd, stopped, held, merges, inputs]
  · rw [State.tile_modTile_same, ← held, ← merges, ← inputs]

end Sys2Proof.Machine
end

section
/-! PROOF. The detour entries around a position that forwards no more (07 R177, R178, R181). -/

namespace Sys2Proof.Machine

/-! ### A detour entry depends on which positions forward alone (R178) -/

section Congr
variable {s t : State} (h : t.forwards = s.forwards)
include h

theorem State.blockedRun_congr (fuel n : Nat) (d : Dir) : t.blockedRun fuel n d = s.blockedRun fuel n d := by
  induction fuel generalizing n with
  | zero => rfl
  | succ fuel ih => simp only [State.blockedRun, h, ih]

theorem State.columnClear_congr (x a b : Nat) : t.columnClear x a b = s.columnClear x a b := by
  simp only [State.columnClear, h]

theorem State.rowClear_congr (y a b : Nat) : t.rowClear y a b = s.rowClear y a b := by
  simp only [State.rowClear, h]

theorem State.waypoint_congr (n : Nat) (d : Dir) : t.waypoint n d = s.waypoint n d := by
  simp only [State.waypoint, State.blockedRun_congr h, State.columnClear_congr h, State.rowClear_congr h, h]

theorem State.detourOf_congr (n : Nat) : t.detourOf n = s.detourOf n := by
  simp only [State.detourOf, State.detourField, State.waypoint_congr h, h]

end Congr

/-- Which positions forward depends on the tile states and the tiles alone. -/
theorem State.forwards_congr {s t : State} (state : ∀ n, t.tileState n = s.tileState n) (tiles : t.tiles = s.tiles) : t.forwards = s.forwards := by
  funext n
  simp only [State.forwards, State.usable, state, tiles]

/-! ### Writing the entries (R177) -/

theorem State.partitionOf_lt {s : State} {n q : Nat} (h : s.partitionOf n = some q) : q < 12 :=
  List.mem_range.1 (List.mem_of_find?_eq_some h)

theorem State.countDetour_onlyFabric (s : State) (q : Option Nat) : s.onlyFabric (s.countDetour q) := by
  cases q with
  | none => exact State.onlyFabric_count s.onlyFabric_refl ..
  | some q => exact State.onlyFabric_count s.onlyFabric_refl ..

theorem State.countDetour_tiles (s : State) (q : Option Nat) : (s.countDetour q).tiles = s.tiles := by
  cases q with
  | none => rfl
  | some q => rfl

theorem State.setDetours_onlyFabric (s : State) (ns : List Nat) : s.onlyFabric (s.setDetours ns).1 := by
  refine State.each_induction s.onlyFabric (State.each_induction s.onlyFabric s.onlyFabric_refl ?_) ?_
  · exact fun t n _ kept => State.onlyFabric_setObj kept ..
  · exact fun t q _ kept => State.onlyFabric_trans kept (t.countDetour_onlyFabric q)

theorem State.setDetours_tiles (s : State) (ns : List Nat) : (s.setDetours ns).1.tiles = s.tiles := by
  refine State.each_induction (fun t => t.tiles = s.tiles) (State.each_induction (fun t => t.tiles = s.tiles) rfl ?_) ?_
  · exact fun t n _ kept => kept
  · exact fun t q _ kept => (t.countDetour_tiles q).trans kept

/-- A tile's register lies outside the tables that count detour events. -/
theorem State.obj_countDetour_tile (s : State) {q : Option Nat} (hq : ∀ k, q = some k → k < 12) (m : Nat) {j : Nat} (hj : j < 256) :
    (s.countDetour q).obj (tileIx m) j = s.obj (tileIx m) j := by
  cases q with
  | none => exact State.obj_setObj_ne s _ hj (by decide) (by decide) (by decide) (.inl (by unfold tileIx; omega))
  | some k =>
    have small := hq k rfl
    exact State.obj_setObj_ne s _ hj (by decide) (by decide) (by decide) (.inl (by unfold tileIx; omega))

theorem State.obj_each_countDetour_tile (s : State) (ns : List Nat) (m : Nat) {j : Nat} (hj : j < 256) (u : State) :
    (u.each (ns.map s.partitionOf).eraseDups State.countDetour).obj (tileIx m) j = u.obj (tileIx m) j := by
  refine State.each_induction (fun t => t.obj (tileIx m) j = u.obj (tileIx m) j) rfl fun t q mem kept => ?_
  obtain ⟨n, -, of⟩ := List.mem_map.1 (List.mem_eraseDups.1 mem)
  rw [State.obj_countDetour_tile t (fun k some' => State.partitionOf_lt (of.trans some')) m hj, kept]

theorem State.obj_each_setObj (s : State) (ns : List Nat) (j : Nat) (v : Nat → Nat) (m : Nat) :
    (s.each ns (fun t n => t.setObj (tileIx n) j 0 (v n))).obj (tileIx m) j = if m ∈ ns then v m else s.obj (tileIx m) j := by
  unfold State.each
  induction ns generalizing s with
  | nil => rfl
  | cons n ns ih =>
    rw [List.foldl_cons, ih]
    by_cases later : m ∈ ns
    · rw [if_pos later, if_pos (List.mem_cons_of_mem n later)]
    · rw [if_neg later, State.obj_setObj]
      by_cases same : m = n
      · rw [same, if_pos rfl, if_pos List.mem_cons_self]
      · rw [if_neg (by unfold okey tileIx; omega), if_neg (by simp [same, later])]

theorem State.obj_each_setObj_sub (s : State) (ns : List Nat) {i j : Nat} (h : i ≠ j) (v : Nat → Nat) (m : Nat) (hi : i < 256) (hj : j < 256) :
    (s.each ns (fun t n => t.setObj (tileIx n) j 0 (v n))).obj (tileIx m) i = s.obj (tileIx m) i := by
  refine State.each_induction (fun t => t.obj (tileIx m) i = s.obj (tileIx m) i) rfl fun t n _ kept => ?_
  rw [State.obj_setObj_ne t _ hi (by decide) hj (by decide) (.inr (.inl h)), kept]

theorem State.tileState_setDetours (s : State) (ns : List Nat) (m : Nat) : (s.setDetours ns).1.tileState m = s.tileState m :=
  (s.obj_each_countDetour_tile _ m (by decide) _).trans (s.obj_each_setObj_sub _ (by decide) s.detourOf m (by decide) (by decide))

/-- After the entries of some routers are set, each that is no HOLE holds the entry of R177. -/
theorem State.obj_setDetours_entry (s : State) {ns : List Nat} {m : Nat} (listed : m ∈ ns) (router : s.tileState m ≠ tsHole) :
    (s.setDetours ns).1.obj (tileIx m) 0x50 = s.detourOf m := by
  refine (s.obj_each_countDetour_tile _ m (by decide) _).trans ((s.obj_each_setObj _ 0x50 s.detourOf m).trans ?_)
  split
  · rfl
  · next same => simpa [listed, router] using same

/-! ### The end of a position's forwarding with no job loaded (R181) -/

theorem State.reportUnreachable_onlyFabric (s before : State) : s.onlyFabric (s.reportUnreachable before) :=
  State.each_induction s.onlyFabric s.onlyFabric_refl fun _ _ _ kept => State.onlyFabric_emit kept _

theorem State.reportUnreachable_regs (s before : State) : (s.reportUnreachable before).regs = s.regs :=
  State.each_induction (fun t => t.regs = s.regs) rfl fun _ _ _ kept => kept

theorem State.reportUnreachable_tiles (s before : State) : (s.reportUnreachable before).tiles = s.tiles :=
  State.each_induction (fun t => t.tiles = s.tiles) rfl fun _ _ _ kept => kept

theorem State.job_of_no_jobs {s : State} (none' : s.jobs = []) (q : Nat) : s.job q = none := by rw [State.job, none']; rfl

theorem State.recheckRoutes_of_no_jobs {s : State} (none' : s.jobs = []) : s.recheckRoutes = s := by
  simp [State.recheckRoutes, State.job_of_no_jobs none', State.each]

/-- A position that forwards no more and drains what it held while it forwarded (R181). -/
def State.ceased (s : State) (n : Nat) : State :=
  s.modTile n (fun t => { t with through := false, drains := t.drains || (s.tile n).through })

theorem State.forwards_ceased {s : State} {n : Nat} (lost : s.usable n = false) : (s.ceased n).forwards n = false := by
  have through : ((s.ceased n).tile n).through = false := by rw [State.ceased, State.tile_modTile_same]
  exact Bool.or_eq_false_iff.2 ⟨lost, through⟩

/-- With no job loaded no step is abandoned and no route checked: the entries around the position are set, and reports may be sent. -/
theorem execPositionNonForwarding_of_no_jobs {s : State} {n : Nat} (lost : s.usable n = false) (none' : s.jobs = []) :
    ∃ t, exec (.positionNonForwarding n) s = .next t ∧ ((s.ceased n).setDetours (neighbours n)).1.onlyFabric t ∧
      t.regs = ((s.ceased n).setDetours (neighbours n)).1.regs ∧ t.tiles = (s.ceased n).tiles := by
  let r := ((s.ceased n).setDetours (neighbours n)).1
  have tiles : r.tiles = (s.ceased n).tiles := State.setDetours_tiles ..
  have still : r.jobs = [] := (congrArg State.jobs (State.setDetours_onlyFabric (s.ceased n) (neighbours n))).trans none'
  have run : exec (.positionNonForwarding n) s =
      .next (if (s.tile n).through then r.reportUnreachable (s.setTileState n (s.tile n).before) else r) := by
    show execPositionNonForwarding n s = _
    simp [execPositionNonForwarding, lost, State.job_of_no_jobs none', State.each, r, ← State.ceased.eq_1, State.recheckRoutes_of_no_jobs still]
  refine ⟨_, run, ?_⟩
  split
  · exact ⟨r.reportUnreachable_onlyFabric _, r.reportUnreachable_regs _, (r.reportUnreachable_tiles _).trans tiles⟩
  · exact ⟨r.onlyFabric_refl, rfl, tiles⟩

theorem execPositionNonForwarding_detours {s : State} {n : Nat} (lost : s.usable n = false) (none' : s.jobs = []) :
    ∃ t, exec (.positionNonForwarding n) s = .next t ∧ s.onlyFabric t ∧
      t.forwards n = false ∧ (∀ m, m ≠ n → t.tile m = s.tile m) ∧ ∀ m, m ∈ neighbours n → s.tileState m ≠ tsHole → t.obj (tileIx m) 0x50 = t.detourOf m := by
  obtain ⟨t, run, frame, regs, tiles⟩ := execPositionNonForwarding_of_no_jobs lost none'
  have ceased : s.onlyFabric (s.ceased n) := State.onlyFabric_modTile s.onlyFabric_refl ..
  have forwards : t.forwards = (s.ceased n).forwards :=
    State.forwards_congr (fun m => (State.obj_congr regs ..).trans (State.tileState_setDetours ..)) tiles
  refine ⟨t, run, State.onlyFabric_trans ceased (State.onlyFabric_trans (State.setDetours_onlyFabric ..) frame), ?_, fun m away => ?_,
    fun m near router => ?_⟩
  · exact (congrFun forwards n).trans (State.forwards_ceased lost)
  · rw [State.tile, tiles]
    exact s.tile_modTile_ne _ away
  · rw [State.obj_congr regs, State.detourOf_congr forwards]
    exact (s.ceased n).obj_setDetours_entry near router

end Sys2Proof.Machine
end

section
/-! PROOF. What the end of a position's forwarding leaves of the memories, the supply and the ports: it abandons steps and halts jobs, which touch registers, tiles, jobs, contexts, faults and messages alone (07 R181, 08 R214, 09 R233). -/

namespace Sys2Proof.Machine

/-- HBM, DDR5, the supply and the ports. -/
def State.plant (s : State) : Tbl Codeword × Tbl (BitVec 640) × Power × Tbl Port := (s.hbm, s.ddr, s.power, s.ports)

theorem State.plant_eq_iff (s t : State) : t.plant = s.plant ↔ t.hbm = s.hbm ∧ t.ddr = s.ddr ∧ t.power = s.power ∧ t.ports = s.ports := by
  simp [State.plant]

theorem State.plant_congr {s t : State} (hbm : t.hbm = s.hbm) (ddr : t.ddr = s.ddr) (power : t.power = s.power) (ports : t.ports = s.ports) :
    t.plant = s.plant := (State.plant_eq_iff s t).2 ⟨hbm, ddr, power, ports⟩

theorem State.plant_of_onlyFabric {s t : State} (h : s.onlyFabric t) : t.plant = s.plant := by
  unfold State.onlyFabric at h
  rw [h]
  exact State.plant_congr rfl rfl rfl rfl

/-! ### The primitive updates -/

theorem State.plant_ite (c : Prop) [Decidable c] (s t : State) : (if c then s else t).plant = if c then s.plant else t.plant := apply_ite ..

theorem State.plant_each {α : Type} (s : State) (xs : List α) {f : State → α → State} (k : ∀ t x, (f t x).plant = t.plant) :
    (s.each xs f).plant = s.plant :=
  State.each_induction (fun t => t.plant = s.plant) rfl fun t x _ kept => (k t x).trans kept

@[simp] theorem State.plant_setObj (s : State) (i j e v : Nat) : (s.setObj i j e v).plant = s.plant := State.plant_congr rfl rfl rfl rfl
@[simp] theorem State.plant_count (s : State) (i j e w k : Nat) : (s.count i j e w k).plant = s.plant := State.plant_congr rfl rfl rfl rfl
@[simp] theorem State.plant_emit (s : State) (m : Msg) : (s.emit m).plant = s.plant := State.plant_congr rfl rfl rfl rfl
@[simp] theorem State.plant_reportFor (s : State) (q : Option Nat) (c : Nat) (x y : Suspect) (st d : Nat) (u : Option Suspect) :
    (s.reportFor q c x y st d u).plant = s.plant := State.plant_congr rfl rfl rfl rfl
@[simp] theorem State.plant_modTile (s : State) (n : Nat) (f : Tile → Tile) : (s.modTile n f).plant = s.plant := State.plant_congr rfl rfl rfl rfl
@[simp] theorem State.plant_modGau (s : State) (n : Nat) (f : GaugeUnit → GaugeUnit) : (s.modGau n f).plant = s.plant := State.plant_congr rfl rfl rfl rfl
@[simp] theorem State.plant_discardWork (s : State) (n : Nat) : (s.discardWork n).plant = s.plant := State.plant_congr rfl rfl rfl rfl
@[simp] theorem State.plant_clearPending (s : State) (n : Nat) : (s.clearPending n).plant = s.plant := State.plant_congr rfl rfl rfl rfl
@[simp] theorem State.plant_snapshotTile (s : State) (n : Nat) : (s.snapshotTile n).plant = s.plant := State.plant_congr rfl rfl rfl rfl
@[simp] theorem State.plant_discardChunk (s : State) (n : Nat) : (s.discardChunk n).plant = s.plant := State.plant_congr rfl rfl rfl rfl
@[simp] theorem State.plant_closeDomain (s : State) (d : Domain) (x : Suspect) (q : Option Nat) : (s.closeDomain d x q).plant = s.plant := State.plant_congr rfl rfl rfl rfl
@[simp] theorem State.plant_verdict (s : State) (x cls : Nat) : (s.verdict x cls).plant = s.plant := State.plant_congr rfl rfl rfl rfl
@[simp] theorem State.plant_draw (s : State) : s.draw.2.plant = s.plant := State.plant_congr rfl rfl rfl rfl
@[simp] theorem State.plant_choose (s : State) (n m : Nat) : (s.choose n m).plant = s.plant := State.plant_congr rfl rfl rfl rfl
@[simp] theorem State.plant_setCtx (s : State) (slot : Nat) (c : Ctx) : (s.setCtx slot c).plant = s.plant := State.plant_congr rfl rfl rfl rfl

@[simp] theorem State.plant_modJob (s : State) (q : Nat) (f : Job → Job) : (s.modJob q f).plant = s.plant := by
  simp [State.plant]

/-! ### Tiles (R97, R505) -/

@[simp] theorem State.plant_setTileState (s : State) (n v : Nat) : (s.setTileState n v).plant = s.plant := State.plant_setObj ..

@[simp] theorem State.plant_emptyQueues (s : State) (n : Nat) : (s.emptyQueues n).plant = s.plant := by
  unfold State.emptyQueues State.setQState
  exact State.plant_each _ _ fun t k => by simp only [State.plant_setObj]

@[simp] theorem State.plant_unassign (s : State) (n : Nat) : (s.unassign n).plant = s.plant := by
  simp only [State.unassign, State.plant_setObj, State.plant_modTile, State.plant_emptyQueues]

@[simp] theorem State.plant_spareRow (s : State) (n b r : Nat) : (s.spareRow n b r).1.plant = s.plant := by
  unfold State.spareRow
  split
  · rfl
  · simp only [State.plant_setObj, State.plant_modTile]

@[simp] theorem State.plant_wipeTile (s : State) (n : Nat) : (s.wipeTile n).plant = s.plant := by
  simp only [State.wipeTile, State.plant_setObj, State.plant_modTile]
  rw [State.plant_each, State.plant_each, State.plant_each]
  · exact fun t r => t.plant_spareRow n r.1 r.2
  · exact fun t b => t.plant_setObj _ _ _ _
  · exact fun t h => t.plant_setObj _ _ _ _

@[simp] theorem State.plant_readBack (s : State) (n : Nat) (bad : List (Nat × Nat)) : (s.readBack n bad).plant = s.plant := by
  have spared : ∀ (xs : List (Nat × Nat)) (a : State × Bool),
      (xs.foldl (fun a x => ((a.1.spareRow n x.1 x.2).1, a.2 && (a.1.spareRow n x.1 x.2).2)) a).1.plant = a.1.plant := by
    intro xs
    induction xs with
    | nil => exact fun _ => rfl
    | cons x xs ih => exact fun a => (ih _).trans (a.1.plant_spareRow n x.1 x.2)
  unfold State.readBack
  dsimp only
  split
  · exact spared bad (s, true)
  · exact (State.plant_setObj ..).trans (spared bad (s, true))

@[simp] theorem State.plant_scrubbed (s : State) (n : Nat) : (s.scrubbed n).plant = s.plant := by
  rw [State.scrubbed, State.checkScrub, State.plant_readBack, State.plant_draw, State.releaseTile, State.plant_unassign, State.plant_wipeTile]

@[simp] theorem State.plant_passScrub (s : State) (n st : Nat) : (s.passScrub n st).plant = s.plant := by
  unfold State.passScrub State.failScrub
  split
  · simp only [State.plant_closeDomain, State.plant_modTile, State.plant_setTileState]
  · exact State.plant_setTileState ..

@[simp] theorem State.plant_sendBack (s : State) (n : Nat) : (s.sendBack n).plant = s.plant := by
  unfold State.sendBack
  split
  · exact State.plant_modTile ..
  · rw [State.plant_passScrub, State.plant_scrubbed]

@[simp] theorem State.plant_chooseReplacement (s : State) (n : Nat) : (s.chooseReplacement n).plant = s.plant := by
  unfold State.chooseReplacement
  cases s.replacementFor n with
  | none =>
    show s.shrink.plant = s.plant
    unfold State.shrink
    split
    · rfl
    · exact (State.plant_emit ..).trans (State.plant_count ..)
  | some m => exact State.plant_choose ..

@[simp] theorem State.plant_retireTile (s : State) (n cls : Nat) (r : Option Nat) : (s.retireTile n cls r).plant = s.plant := by
  have retired : ((((s.setTileState n tsRetired).verdict (susCode (susTile n)) cls).unassign n).modTile n (fun t => { t with gau := {} })).plant = s.plant := by
    rw [State.plant_modTile, State.plant_unassign, State.plant_verdict, State.plant_setTileState]
  unfold State.retireTile
  dsimp only
  split
  · exact (State.plant_choose ..).trans retired
  · split
    · exact retired
    · exact (State.plant_chooseReplacement ..).trans retired

/-! ### Jobs (R214, R233) -/

theorem State.plant_discardRun (s : State) (q : Nat) : (s.discardRun q).plant = s.plant := by
  unfold State.discardRun
  split
  · rw [State.freeTwin, State.plant_sendBack, State.plant_modJob]
  · rfl

theorem State.plant_discardNext (s : State) (q : Nat) : (s.discardNext q).plant = s.plant := by
  unfold State.discardNext
  split
  · rw [State.freeTwin, State.plant_sendBack, State.plant_modJob]
  · rfl

@[simp] theorem State.plant_discardTwin (s : State) (q : Nat) : (s.discardTwin q).plant = s.plant :=
  (State.plant_discardNext ..).trans (State.plant_discardRun ..)

@[simp] theorem State.plant_dropRemaps (s : State) (q : Nat) : (s.dropRemaps q).plant = s.plant := by
  unfold State.dropRemaps
  split
  · simp [State.plant_each]
  · rfl

@[simp] theorem State.plant_unpinLanes (s : State) (q : Nat) (f : Ctx → Ctx) : (s.unpinLanes q f).plant = s.plant := by
  refine (State.plant_congr rfl rfl rfl rfl).trans ((State.plant_modJob _ q _).trans (State.plant_each s _ fun t e => ?_))
  split
  · exact State.plant_setCtx ..
  · exact State.plant_setCtx ..
  · rfl

@[simp] theorem State.plant_holdQueue (s : State) (dog : Bool) (n q : Nat) : (s.holdQueue dog n q).plant = s.plant := by
  unfold State.holdQueue State.setQState
  dsimp only
  split
  · simp only [State.plant_setObj]
  · rfl

@[simp] theorem State.plant_abandonTile (s : State) (dog : Bool) (n : Nat) : (s.abandonTile dog n).plant = s.plant := by
  unfold State.abandonTile
  split
  · rfl
  · simp only [State.plant_modGau, State.plant_clearPending, State.plant_discardWork]
    exact State.plant_each s _ fun t q => t.plant_holdQueue dog n q

@[simp] theorem State.plant_retireClosed (s : State) (q : Nat) : (s.retireClosed q).plant = s.plant := by
  unfold State.retireClosed
  split
  · simp [State.plant_each]
  · rfl

@[simp] theorem State.plant_toMembers (s : State) (q mtype step low : Nat) : (s.toMembers q mtype step low).plant = s.plant :=
  State.plant_each s _ fun _ _ => rfl

@[simp] theorem State.plant_toJobState (s : State) (q v : Nat) : (s.toJobState q v).plant = s.plant := by
  unfold State.toJobState
  split
  · rfl
  · simp only [State.setJobState, State.event, State.dtlOut, Bool.false_eq_true, if_false, State.plant_count, State.plant_emit,
      State.plant_modJob, State.plant_setObj]

@[simp] theorem State.plant_haltJob (s : State) (q cause : Nat) : (s.haltJob q cause).plant = s.plant := by
  unfold State.haltJob
  dsimp only
  split
  · rfl
  · simp [State.plant_each]

@[simp] theorem State.plant_abandonStep (s : State) (q cls : Nat) (dog : Bool) : (s.abandonStep q cls dog).plant = s.plant := by
  unfold State.abandonStep
  split
  · rfl
  · split
    · simp
    · simp [State.plant_each, State.plant_ite]

/-! ### The end of a position's forwarding (R181) -/

theorem State.plant_stepFault_none (s : State) (q cls : Nat) : (s.stepFault q cls none).plant = s.plant := s.plant_abandonStep q cls false

theorem State.plant_recheckRoutes (s : State) : s.recheckRoutes.plant = s.plant := by
  refine State.plant_each s _ fun t q => ?_
  split
  · simp only [State.plant_ite, State.plant_haltJob, State.plant_modJob, ite_self]
  · rfl

theorem execPositionNonForwarding_of_usable {s : State} {n : Nat} (usable : s.usable n = true) :
    exec (.positionNonForwarding n) s = .next s := by
  show execPositionNonForwarding n s = _
  rw [execPositionNonForwarding, if_pos usable]

theorem execPositionNonForwarding_plant {s : State} {n : Nat} (lost : s.usable n = false) :
    ∃ t, exec (.positionNonForwarding n) s = .next t ∧ t.hbm = s.hbm ∧ t.ddr = s.ddr ∧ t.power = s.power ∧ t.ports = s.ports := by
  refine ⟨_, rfl, (State.plant_eq_iff ..).1 ?_⟩
  rw [lost, if_neg Bool.false_ne_true]
  dsimp only
  rw [State.plant_ite, State.plant_of_onlyFabric (State.reportUnreachable_onlyFabric ..), ite_self, State.plant_recheckRoutes,
    State.plant_each _ _ fun t q => t.plant_stepFault_none q clFabricPath, State.plant_of_onlyFabric (State.setDetours_onlyFabric ..),
    State.plant_modTile]

end Sys2Proof.Machine
end

section
/-! PROOF. The hand-set of a gauge (08 R196, R220). -/

namespace Sys2Proof.Machine

theorem bitOf_setBit (v i : Nat) (b : Bool) : bitOf (setBit v i b) i = b := by
  have shape : setBit v i b = v % 2 ^ i + 2 ^ i * (2 * (v / 2 ^ (i + 1)) + (if b then 1 else 0)) := by
    cases b <;> simp [setBit, setField, pow_succ] <;> ring
  rw [bitOf, shape, Nat.add_mul_div_left _ _ (by positivity), Nat.div_eq_of_lt (Nat.mod_lt _ (by positivity))]
  cases b <;> simp

theorem State.gauge_congr {s t : State} {n : Nat} (tile : t.tile n = s.tile n) (g : Nat) : t.gauge n g = s.gauge n g := by
  rw [State.gauge, tile, State.gauge]

theorem State.gauge_setGauge_same (s : State) (n g : Nat) (v : Gauge) : (s.setGauge n g v).gauge n g = v := by
  simp [State.setGauge, State.modGau, State.gauge]

theorem State.gauge_setGauge_ne (s : State) (n : Nat) {g g' : Nat} (v : Gauge) (h : g' ≠ g) : (s.setGauge n g v).gauge n g' = s.gauge n g' := by
  simp [State.setGauge, State.modGau, State.gauge, Tbl.get_put_other _ _ _ _ _ _ h]

theorem State.obj_outside_flags (s : State) (q bit : Nat) : (s.outside q bit).obj (0x5040 + q) 0 = setBit (s.obj (0x5040 + q) 0) bit true := by
  rw [State.outside, State.obj_setObj_same]

theorem State.outside_onlyFabric (s : State) (q bit : Nat) : s.onlyFabric (s.outside q bit) := by
  refine State.onlyFabric_setObj ?_ ..
  split
  · exact State.onlyFabric_setObj s.onlyFabric_refl ..
  · exact s.onlyFabric_refl

theorem State.outside_tiles (s : State) (q bit : Nat) : (s.outside q bit).tiles = s.tiles := by
  refine (State.setObj_tiles ..).trans ?_
  split
  · rfl
  · rfl

/-- The own rule of GAUGE_SET on a live gauge unit of a tile that a job holds (R220). -/
theorem ruleGaugeSet_of_live {s : State} {n q v : Nat} (held : (s.tile n).owner = some q) (live : (s.tile n).gau.st = .live) (pad : fieldOf v 39 25 = 0) :
    ruleGaugeSet n v s = (((s.setGauge n (fieldOf v 32 7) { s.gauge n (fieldOf v 32 7) with value := v % 2 ^ 32, handSet := true, tide := s.tide }).tileReport
      n clOperator 0 (fieldOf v 32 7)).outside q 0, stOk) := by
  simp [ruleGaugeSet, State.ownerOf, held, live, pad]

theorem execGaugeSet_of_unowned {s : State} {sess n : Nat} (v : BitVec 64) (passed : s.writeGuard sess (tileIx n) 0x62 = none)
    (free : (s.tile n).owner = none) :
    ∃ t, exec (.gaugeSet sess n v) s = .next t ∧ t.obj (tileIx n) 0x62 = stNotReady ∧ t.tiles = s.tiles ∧
      t.sent = .answer sess (tileIx n) 0x62 stNotReady :: s.sent := by
  have rule : ruleGaugeSet n v.toNat s = (s, stNotReady) := by simp [ruleGaugeSet, State.ownerOf, free]
  refine ⟨(s.setObj (tileIx n) 0x62 0 stNotReady).answer sess (tileIx n) 0x62 stNotReady, ?_, ?_, ?_, ?_⟩
  · show execGaugeSet sess n v s = _
    rw [execGaugeSet, State.commandOut_passed _ passed, rule]
  · rw [State.obj_answer, State.obj_setObj_same]
  · rw [State.answer, State.emit_tiles, State.setObj_tiles]
  · rw [State.answer_sent, State.setObj_sent]

theorem execGaugeSet_sets {s : State} {sess n q : Nat} {v : BitVec 64} (passed : s.writeGuard sess (tileIx n) 0x62 = none)
    (held : (s.tile n).owner = some q) (live : (s.tile n).gau.st = .live) (pad : fieldOf v.toNat 39 25 = 0) :
    ∃ t, exec (.gaugeSet sess n v) s = .next t ∧ t.obj (tileIx n) 0x62 = stOk ∧
      t.gauge n (fieldOf v.toNat 32 7) = { s.gauge n (fieldOf v.toNat 32 7) with value := v.toNat % 2 ^ 32, handSet := true, tide := s.tide } ∧
      (∀ g, g ≠ fieldOf v.toNat 32 7 → t.gauge n g = s.gauge n g) ∧ (∀ m, m ≠ n → t.tile m = s.tile m) ∧ bitOf (t.obj (0x5040 + q) 0) 0 = true ∧
      t = { s with regs := t.regs, tiles := t.tiles, sent := t.sent } := by
  let g := fieldOf v.toNat 32 7
  let u := s.setGauge n g { s.gauge n g with value := v.toNat % 2 ^ 32, handSet := true, tide := s.tide }
  let w := (u.tileReport n clOperator 0 g).outside q 0
  have frame : s.onlyFabric w := State.onlyFabric_trans
    (State.onlyFabric_emit (State.onlyFabric_modTile s.onlyFabric_refl ..) _) (State.outside_onlyFabric ..)
  have tile : ∀ m, ((w.setObj (tileIx n) 0x62 0 stOk).answer sess (tileIx n) 0x62 stOk).tile m = u.tile m := fun m => by
    rw [State.answer, State.tile_emit, State.tile_setObj, State.tile, show w.tiles = u.tiles from State.outside_tiles .., ← State.tile]
  refine ⟨(w.setObj (tileIx n) 0x62 0 stOk).answer sess (tileIx n) 0x62 stOk, ?_, ?_, ?_, fun g' other => ?_, fun m away => ?_,
    ?_, ?_⟩
  · show execGaugeSet sess n v s = _
    rw [execGaugeSet, State.commandOut_passed _ passed, ruleGaugeSet_of_live held live pad]
  · rw [State.obj_answer, State.obj_setObj_same]
  · exact (State.gauge_congr (tile n) g).trans (State.gauge_setGauge_same ..)
  · exact (State.gauge_congr (tile n) g').trans (State.gauge_setGauge_ne _ _ _ other)
  · exact (tile m).trans (s.tile_modTile_ne _ away)
  · rw [State.obj_answer, State.obj_setObj_ne _ _ (by decide) (by decide) (by decide) (by decide) (.inr (.inl (by decide))),
      show w.obj (0x5040 + q) 0 = _ from State.obj_outside_flags .., bitOf_setBit]
  · exact State.onlyFabric_emit (State.onlyFabric_setObj frame ..) _

end Sys2Proof.Machine
end

section
/-! PROOF. Routers, failed positions and the hand-set of a gauge together (07 R164-R191, 08 R196, R220). -/

namespace Sys2Proof.Machine

/-- Settles O33: one lemma for each decision of a router, for a refused flit, for a FORK at its own position, for each stage of a failed position, and for each answer of GAUGE_SET. -/
theorem routersAndFailedPositions : Obligations.RoutersAndFailedPositions := by
  refine ⟨fun s pos leg p => execHeadFlitRoute_ejects, fun s pos m d leg p plain carries hop => ⟨execHeadFlitRoute_passes plain carries hop,
    execHeadFlitRoute_waits plain carries hop⟩, fun s pos leg p => execHeadFlitRoute_fences, fun s pos input => execFlitParityError_refuses,
    fun s pos waits p carries sound some' here => execForkSplit_ejects here waits carries sound some',
    fun s n => ⟨execPositionNonForwarding_of_usable, execNonForwardingDrainEnd_of_forwards⟩, fun s n => execPositionNonForwarding_plant,
    fun s n => execPositionNonForwarding_detours, fun s n => execNonForwardingDrainEnd_of_empty,
    fun s sess n v passed => ⟨execGaugeSet_of_unowned v passed, fun q => execGaugeSet_sets passed⟩⟩

end Sys2Proof.Machine
end

section
/-! PROOF. Cadence ticks of a STEPPING job, whose step entry is read from memory before the tick is dropped (09 R244, 13 R316). -/

namespace Sys2Proof.Machine

/-! ### A tick that is missed (R244) -/

theorem State.obj_outside_of_sub (s : State) (q bit : Nat) {i j e : Nat} (above : 1 < j) (hj : j < 256) (he : e < 65536) :
    (s.outside q bit).obj i j e = s.obj i j e := by
  have flag (t : State) (v : Nat) : (t.setObj (0x5040 + q) 0 0 v).obj i j e = t.obj i j e :=
    State.obj_setObj_ne t v hj he (by decide) (by decide) (.inr (.inl (by omega)))
  have since (v : Nat) : (s.setObj (0x5040 + q) 1 0 v).obj i j e = s.obj i j e :=
    State.obj_setObj_ne s v hj he (by decide) (by decide) (.inr (.inl (by omega)))
  unfold State.outside
  rw [flag]
  split
  · exact since _
  · rfl

theorem State.obj_event_of_sub (s : State) (code partition addr extra : Nat) {i j e : Nat} (other : j ≠ 4) (hj : j < 256) (he : e < 65536) :
    (s.event code partition addr extra).obj i j e = s.obj i j e :=
  State.obj_setObj_ne (s.emit _) _ hj he (by decide) (by decide) (.inr (.inl other))

/-- A dropped tick counts once among the misses of its partition. -/
theorem State.obj_dropTick_misses (s : State) (q c : Nat) :
    (s.dropTick q c).obj (0x5020 + q) 3 = min (s.obj (0x5020 + q) 3 + 1) (2 ^ 64 - 1) :=
  calc (s.dropTick q c).obj (0x5020 + q) 3
      = ((s.count (0x5020 + q) 3 0 64).outside q 2).obj (0x5020 + q) 3 := State.obj_event_of_sub _ 2 q _ 3 (by decide) (by decide) (by decide)
    _ = (s.count (0x5020 + q) 3 0 64).obj (0x5020 + q) 3 := State.obj_outside_of_sub _ q 2 (by decide) (by decide) (by decide)
    _ = min (s.obj (0x5020 + q) 3 + 1) (2 ^ 64 - 1) := State.obj_count_same ..

/-- A missed tick without a sealed entry is dropped once its entry has been read. -/
theorem State.missTick_of_unsealed {s : State} {q c : Nat} (unsealed : (s.readEntry q c).2 = none) :
    s.missTick q c = (s.readEntry q c).1.dropTick q c := by
  simp [State.missTick, unsealed]

/-- The state in which a tick of a partition is taken: it is the last one, at its own tide count, and a period written since is in force. -/
def State.tickTaken (s : State) (q c : Nat) (j : Job) : State :=
  s.modJob q (fun k => { k with tick := some c, tickBase := j.tickDue c, period := s.obj (0x5020 + q) 1 })

theorem execCadenceTick_of_stepping {s : State} {q c : Nat} {j : Job} (loaded : s.job q = some j) (cadence : j.cadence = true)
    (now : j.tickNow s.tide c = true) (stepping : s.jobState q = 3) : exec (.cadenceTick q c) s = .next ((s.tickTaken q c j).missTick q c) := by
  show execCadenceTick q c s = _
  simp [execCadenceTick, State.tickTaken, loaded, cadence, now, stepping]

/-! ### A window beyond the HBM -/

/-- The first byte of the region of the stacks 0x2010 and 0x2011, which there are not: the index of the first one's objects, 0x3010 + 0x2010, is that of partition 0's cadence. -/
def cadenceRegion : Nat := 0x1008 * regionBytes

/-- A job in cadence mode whose tick 0 stands at tide count 0. -/
def cadenceJob : Job := { cadence := true, phase := 1 }

/-- Partition 0 runs a step of `cadenceJob`; its window begins at `cadenceRegion`, and the first row of its ring does not decode. -/
def farRing : State :=
  { State.reset with regs := [(okey 0x5010 0 0, 3)], cfgs := [(0, { hbmBase := cadenceRegion })], jobs := [(0, some cadenceJob)],
                     hbm := [(cadenceRegion / 32, 0x11)] }

theorem serverIx_farRing : serverIx (farRing.rowServer false (cadenceRegion / 32)) = 0x5020 := by decide

/-- The read of tick 0's entry finds no seal, and its uncorrectable row counts at the row's server. -/
theorem readEntry_farRing : ((farRing.tickTaken 0 0 cadenceJob).readEntry 0 0).2 = none ∧
    ((farRing.tickTaken 0 0 cadenceJob).readEntry 0 0).1.obj (serverIx (farRing.rowServer false (cadenceRegion / 32))) 3 = 1 := by
  decide +kernel

/-- Refutes O37: the clause of CADENCE_TICK in a STEPPING job lets the partition's window lie anywhere. In `farRing` it lies beyond the HBM, where the number of a row's stack grows until the index of that stack's objects is another object's, here 5020 (`serverIx_farRing`). So the uncorrectable row of the entry that the dropped tick reads counts in 5020:03, as the tick itself does: one tick, two misses. -/
theorem not_stepsStartAndEnd : ¬ Obligations.StepsStartAndEnd := by
  rintro ⟨commands, -, -⟩
  obtain ⟨-, -, -, -, -, -, -, -, -, -, -, -, ticks, -, -⟩ := commands farRing 0 cadenceJob (by decide) rfl
  have stepping : farRing.jobState 0 = 3 := by decide +kernel
  have now : cadenceJob.tickNow farRing.tide 0 = true := by decide +kernel
  obtain ⟨unsealed, counted⟩ := readEntry_farRing
  rw [serverIx_farRing] at counted
  obtain ⟨t, _, run, -, -, -, -, misses, -⟩ := ticks 0 rfl stepping now
  rw [execCadenceTick_of_stepping rfl rfl now stepping, State.missTick_of_unsealed unsealed, Host.Outcome.next.injEq] at run
  have twice : t.obj (0x5020 + 0) 3 = 2 := by rw [← run, State.obj_dropTick_misses, counted]; rfl
  have unmissed : farRing.obj (0x5020 + 0) 3 = 0 := by decide +kernel
  rw [twice, unmissed] at misses
  exact absurd misses (by decide)

end Sys2Proof.Machine
end

section
/-! PROOF. Steps that are abandoned or rolled back, and jobs that halt (21 R503, R506, R512). -/

namespace Sys2Proof.Machine

/-! ### Where a job goes (R233) -/

@[simp] theorem State.jobState_setJobState (s : State) (q v : Nat) : (s.setJobState q v).jobState q = v := State.obj_setObj_same ..

theorem State.jobState_modJob (s : State) (q k : Nat) (f : Job → Job) : (s.modJob q f).jobState k = s.jobState k :=
  State.obj_congr (State.modJob_regs ..) ..

@[simp] theorem State.jobState_toJobState (s : State) (q v : Nat) : (s.toJobState q v).jobState q = v := by
  unfold State.toJobState
  split
  · next already => exact already
  · calc (((s.setJobState q v).modJob q (fun j => { j with since := s.elapsed })).event 3 q 0 v).jobState q
        = ((s.setJobState q v).modJob q (fun j => { j with since := s.elapsed })).jobState q :=
          State.obj_event_of_sub _ 3 q 0 v (by decide) (by decide) (by decide)
      _ = v := by rw [State.jobState_modJob, State.jobState_setJobState]

@[simp] theorem State.jobState_closeDomain (s : State) (d : Domain) (u : Suspect) (p : Option Nat) (q : Nat) :
    (s.closeDomain d u p).jobState q = s.jobState q := rfl

/-- A job that is loaded, and not saved, ENDING or HALTED, halts. -/
theorem State.jobState_haltJob {s : State} {q : Nat} (cause : Nat) (runs : s.jobState q ∉ [jsNone, jsSaved, jsEnding, jsHalted]) :
    (s.haltJob q cause).jobState q = jsHalted := by
  unfold State.haltJob
  dsimp only
  rw [if_neg (by simpa using runs), State.jobState_closeDomain, State.jobState_toJobState]

/-- A fourth abandonment of one step halts the job. -/
theorem State.jobState_abandonStep_of_limit {s : State} {q : Nat} (cls : Nat) (dog : Bool) (stepping : s.jobState q = jsStepping)
    (limit : 3 ≤ s.obj (0x6030 + q) 2) : (s.abandonStep q cls dog).jobState q = jsHalted := by
  have still : (s.setObj (0x6030 + q) 2 0 4).jobState q = jsStepping :=
    (State.obj_setObj_ne s 4 (by decide) (by decide) (by decide) (by decide) (.inr (.inl (by decide)))).trans stepping
  unfold State.abandonStep
  rw [if_neg (not_not.2 stepping), if_pos limit]
  exact State.jobState_haltJob 3 (by rw [still]; decide)

/-- ABANDON of the step before the one that a member waits to start rolls the member back. -/
theorem execAbandon_of_before {s : State} {m : CtrlMsg} {q : Nat} {j : Job} (sound : ctrlOk 0x20 m = true)
    (found : s.partitionOfJob (mJobId m) = some q) (loaded : s.job q = some j) (before : s.before' q (mStep m) j = true) :
    exec (.abandon m) s = .next (s.rollBack q (mStep m) (fieldOf m.body.toNat 136 8) j) := by
  show execAbandon m s = _
  simp [execAbandon, State.onCtrl, sound, found, loaded, before]

/-! ### A window beyond the HBM -/

/-- The first byte of the region of the stacks 0x3020 and 0x3021, which there are not: the index of the first one's objects, 0x3010 + 0x3020, is that of partition 0's halts and abandonments. -/
def abandonRegion : Nat := 0x1810 * regionBytes

/-- A member's job of identifier 1 in partition 0, WAITING for step 1, its last step abandoned twice; its window begins at `abandonRegion`, and the row of entry 0's disposition has one wrong bit. -/
def farMember : State :=
  { State.reset with regs := [(okey 0x5010 0 0, 2), (okey 0x5010 5 0, 1), (okey 0x6030 2 0, 2)], cfgs := [(0, { hbmBase := abandonRegion })],
                     jobs := [(0, some {})], hbm := [(abandonRegion / 32 + 7, 1)] }

/-- ABANDON of step 0 of job 1. -/
def abandonFirst : CtrlMsg := { mtype := 0x20, dst := 0, src := 0, body := BitVec.ofNat 224 (2 ^ 208) }

theorem serverIx_farMember : serverIx (farMember.rowServer false (abandonRegion / 32 + 7)) = 0x6030 + 0 := by decide

/-- The roll-back of `farMember` writes the disposition of entry 0; the correction of its row, counted at the row's server, makes the abandonment that follows a fourth one. -/
theorem rollBack_farMember : (farMember.rollBack 0 0 0 {}).jobState 0 = 7 := by
  unfold State.rollBack
  refine State.jobState_abandonStep_of_limit 0 false (by decide +kernel) ?_
  rw [← serverIx_farMember]
  decide +kernel

/-- Refutes O44: the clause of an ABANDON that rolls a member back lets the partition's window lie anywhere. In `farMember` it lies beyond the HBM, in a stack the index of whose objects is 6030 (`serverIx_farMember`), and so the correction of a row that the roll-back reads counts in 6030:02, the abandonments of the step. With two before it the job halts (7), where the clause says that it drains (4). -/
theorem not_stepsDrainRestoreAndDevicesRecover : ¬ Obligations.StepsDrainRestoreAndDevicesRecover := by
  rintro ⟨-, -, -, -, -, -, -, -, -, -, members, -⟩
  have sound : ctrlOk 0x20 abandonFirst = true := by decide +kernel
  have found : farMember.partitionOfJob (mJobId abandonFirst) = some 0 := by decide +kernel
  have before : farMember.before' 0 (mStep abandonFirst) {} = true := by decide +kernel
  obtain ⟨-, -, rolls, -⟩ := members farMember abandonFirst 0 {} found rfl
  obtain ⟨t, run, drains⟩ := rolls sound before (by decide +kernel) (by decide +kernel)
  have names : mStep abandonFirst = 0 ∧ fieldOf abandonFirst.body.toNat 136 8 = 0 := by decide +kernel
  rw [execAbandon_of_before sound found rfl before, names.1, names.2, Host.Outcome.next.injEq] at run
  rw [← run, rollBack_farMember] at drains
  exact absurd drains (by decide)

end Sys2Proof.Machine
end

section
/-! PROOF. The spares that a scrub takes, and the twin that a comparison sends back to a scrub (04 R84, R97, R98, 22 R533-R537). -/

namespace Sys2Proof.Machine

/-! ### What a scrub's read-back leaves of the registers (R97, R98) -/

/-- A spare taken lowers the count of spares left, and no object rises. -/
theorem State.obj_spareRow_le (s : State) (n b r i j e : Nat) : (s.spareRow n b r).1.obj i j e ≤ s.obj i j e := by
  unfold State.spareRow
  split
  · exact le_rfl
  · dsimp only
    rw [State.obj_modTile, State.obj_setObj]
    split
    · next same =>
      rw [State.obj_eq_reg s i j e, same, ← State.obj_eq_reg]
      exact Nat.sub_le ..
    · exact le_rfl

/-- Whatever rows a read-back names, it raises no object beside the tile's scrub result. -/
theorem State.obj_readBack_le (s : State) (n : Nat) (bad : List (Nat × Nat)) {i j e : Nat} (other : okey i j e ≠ okey (tileIx n) 0x2A 0) :
    (s.readBack n bad).obj i j e ≤ s.obj i j e := by
  have spared : ∀ (xs : List (Nat × Nat)) (a : State × Bool),
      (xs.foldl (fun a x => ((a.1.spareRow n x.1 x.2).1, a.2 && (a.1.spareRow n x.1 x.2).2)) a).1.obj i j e ≤ a.1.obj i j e := by
    intro xs
    induction xs with
    | nil => exact fun a => le_rfl
    | cons x xs ih => exact fun a => (ih _).trans (State.obj_spareRow_le ..)
  unfold State.readBack
  dsimp only
  split
  · exact spared bad (s, true)
  · rw [State.obj_setObj, if_neg other]
    exact spared bad (s, true)

theorem State.obj_checkScrub_le (s : State) (n : Nat) {i j e : Nat} (other : okey i j e ≠ okey (tileIx n) 0x2A 0) :
    (s.checkScrub n).obj i j e ≤ s.obj i j e := State.obj_readBack_le s.draw.2 n _ other

theorem State.obj_passScrub_of_other (s : State) (n st : Nat) {i j e : Nat} (other : okey i j e ≠ okey (tileIx n) 0 0) :
    (s.passScrub n st).obj i j e = s.obj i j e := by
  have write (v : Nat) : (s.setTileState n v).obj i j e = s.obj i j e := by rw [State.setTileState, State.obj_setObj, if_neg other]
  unfold State.passScrub
  split
  · exact write tsClosed
  · exact write st

/-- A tile sent back raises no object beside its own state and scrub result above what its wipe left. -/
theorem State.obj_sendBack_le {s : State} {n : Nat} (works : s.tileState n ≠ tsClosed) {i j e : Nat} (state : okey i j e ≠ okey (tileIx n) 0 0)
    (result : okey i j e ≠ okey (tileIx n) 0x2A 0) : (s.sendBack n).obj i j e ≤ (s.releaseTile n).obj i j e := by
  unfold State.sendBack
  rw [if_neg works, State.obj_passScrub_of_other _ _ _ state]
  exact State.obj_checkScrub_le _ n result

/-! ### A comparison of equal digests (R534, R535) -/

/-- Where the digests are equal and the boundary did not wait, a comparison counts and ends the run. -/
theorem execTwinCompare_of_equal {s : State} {q : Nat} {w : TwinRun} (run : s.twinRun q = some w) (open' : w.differs = none)
    (done : s.twinComplete w = true) (equal : s.primaryDigest w = some (s.tile w.twin).digest) (free : w.held = false) :
    exec (.twinCompare q) s = .next ((s.count 0x6050 3 0 64).discardRun q) := by
  show execTwinCompare q s = _
  simp [execTwinCompare, run, open', done, equal, free]

/-! ### A row queued for sparing in a bank that is none of the twelve -/

/-- The bank number at which the entries of 2101:25, the spares left in tile 1, reach object 6050:03. -/
def farBank : Nat := okey 0x6050 3 0 - okey (tileIx 1) 0x25 0

theorem State.obj_farBank (s : State) : s.obj (tileIx 1) 0x25 farBank = s.obj 0x6050 3 := by
  have key : okey (tileIx 1) 0x25 farBank = okey 0x6050 3 0 := by decide +kernel
  rw [State.obj_eq_reg, key, ← State.obj_eq_reg]

/-- A twin run of tile 0, with tile 1 as the twin, that has started and whose primary's digest is known. -/
def doneRun : TwinRun := { logical := 0, primary := 0, twin := 1, step := 0, started := true, prim := some [] }

/-- Partition 0 waits to compare `doneRun`; a row of bank `farBank` of the twin is queued for sparing. -/
def twinQueued : State :=
  { State.reset with jobs := [(0, some { twin := some doneRun })], tiles := [(1, { queued := [(farBank, 0)] })] }

/-- `twinQueued` once the comparison is counted and the run has left the job. -/
def twinLeaves : State := (twinQueued.count 0x6050 3 0 64).modJob 0 (fun j => { j with twin := none })

/-- The wipe of the twin takes a spare for the queued row. -/
theorem spares_twinLeaves : (twinLeaves.releaseTile 1).obj (tileIx 1) 0x25 farBank = 0 := by decide +kernel

/-- Refutes O59: the clause of a TWIN_COMPARE of equal digests does not bound the banks of the rows that the twin has queued for sparing. In `twinQueued` one lies in bank `farBank`, whose count of spares left is object 6050:03 (`State.obj_farBank`); the scrub that ends the twin's part takes a spare there, and so takes back the comparison it has just counted. -/
theorem not_faultAndScourCommandsComplete : ¬ Obligations.FaultAndScourCommandsComplete := by
  rintro ⟨-, -, -, -, -, -, -, -, -, -, -, -, -, -, -, -, -, -, -, compares, -, -⟩
  have done : twinQueued.twinComplete doneRun = true := by decide +kernel
  have digest : twinQueued.primaryDigest doneRun = some (twinQueued.tile doneRun.twin).digest := by decide +kernel
  have works : twinLeaves.tileState 1 ≠ tsClosed := by decide +kernel
  have before : twinQueued.obj 0x6050 3 = 0 := by decide +kernel
  obtain ⟨t, run, counted, -⟩ := compares twinQueued 0 doneRun _ _ (by decide) rfl rfl digest rfl done (by decide) (by decide) rfl rfl
  rw [execTwinCompare_of_equal rfl rfl done digest rfl, Host.Outcome.next.injEq] at run
  have scrubbed : t.obj 0x6050 3 ≤ (twinLeaves.releaseTile 1).obj 0x6050 3 := by
    rw [← run]
    exact State.obj_sendBack_le works (by decide) (by decide)
  rw [← State.obj_farBank (twinLeaves.releaseTile 1), spares_twinLeaves, counted, before] at scrubbed
  exact absurd scrubbed (by decide)

end Sys2Proof.Machine
end

section
/-! PROOF. A service's own state, and what SVC_APPLY and SVC_START leave (15 R368, R399). -/

namespace Sys2Proof.Machine

/-! ### A service after a change -/

@[simp] theorem State.svc_modSvc_same (s : State) (n : Nat) (f : Service → Service) : (s.modSvc n f).svc n = f (s.svc n) := Tbl.get_put_same ..

theorem State.svc_modSvc_ne (s : State) {n m : Nat} (f : Service → Service) (h : m ≠ n) : (s.modSvc n f).svc m = s.svc m :=
  Tbl.get_put_other _ _ _ _ _ _ h

theorem State.svc_congr {s t : State} (h : t.svcs = s.svcs) (n : Nat) : t.svc n = s.svc n := by
  rw [State.svc, h, State.svc]

/-- Nothing but registers, services and what has been sent differs. -/
def State.onlyServices (s t : State) : Prop := t = { s with regs := t.regs, svcs := t.svcs, sent := t.sent }

theorem State.onlyServices_refl (s : State) : s.onlyServices s := rfl

theorem State.onlyServices_trans {s t u : State} (h : s.onlyServices t) (g : t.onlyServices u) : s.onlyServices u := by
  unfold State.onlyServices at h g ⊢
  exact g.trans (by rw [h])

theorem State.modSvc_onlyServices (s : State) (n : Nat) (f : Service → Service) : s.onlyServices (s.modSvc n f) := rfl

/-! ### The answer to a write of 9100+n:0F (R396) -/

/-- A service command is answered with a status, which 9100+n:0F then holds. -/
def State.svcAnswered (s : State) (sess n st : Nat) : State := (s.setObj (0x9100 + n) 0xF 0 st).answer sess (0x9100 + n) 0xF st

section Answered
variable (s : State) (sess n st : Nat)

@[simp] theorem State.svcAnswered_status : (s.svcAnswered sess n st).obj (0x9100 + n) 0xF = st := State.obj_setObj_same ..

@[simp] theorem State.svcAnswered_state : (s.svcAnswered sess n st).obj (0x9100 + n) 0 = s.obj (0x9100 + n) 0 :=
  State.obj_setObj_ne _ _ (by decide) (by decide) (by decide) (by decide) (.inr (.inl (by decide)))

@[simp] theorem State.svcAnswered_svcs : (s.svcAnswered sess n st).svcs = s.svcs := rfl
@[simp] theorem State.svcAnswered_ctxs : (s.svcAnswered sess n st).ctxs = s.ctxs := rfl
@[simp] theorem State.svcAnswered_svc (k : Nat) : (s.svcAnswered sess n st).svc k = s.svc k := rfl

@[simp] theorem State.svcAnswered_sent : (s.svcAnswered sess n st).sent = .answer sess (0x9100 + n) 0xF st :: s.sent := rfl
theorem State.svcAnswered_frame :
    s.svcAnswered sess n st = { s with regs := (s.svcAnswered sess n st).regs, sent := (s.svcAnswered sess n st).sent } := rfl

theorem State.svcAnswered_onlyServices {t : State} (h : t.onlyServices s) : t.onlyServices (s.svcAnswered sess n st) :=
  State.onlyServices_trans h rfl

theorem State.svcAnswered_sameRegs {t : State} {ks : List Nat} (h : t.sameRegs s ks) (hk : okey (0x9100 + n) 0xF 0 ∈ ks) :
    t.sameRegs (s.svcAnswered sess n st) ks :=
  State.sameRegs_setObj _ _ _ _ h hk

end Answered

section Passed
variable {s u : State} {sess n st : Nat} (passed : s.writeGuard sess (0x9100 + n) 0xF = none)
include passed

theorem exec_svcApply (rule : ruleSvc n 1 s = (u, st)) : exec (.svcApply sess n) s = .next (u.svcAnswered sess n st) := by
  refine (State.commandOut_passed (ruleSvc n 1) passed).trans ?_
  rw [rule, State.svcAnswered]

theorem exec_svcStart (rule : ruleSvc n 2 s = (u, st)) : exec (.svcStart sess n) s = .next (u.svcAnswered sess n st) := by
  refine (State.commandOut_passed (ruleSvc n 2) passed).trans ?_
  rw [rule, State.svcAnswered]

theorem exec_svcStop (rule : ruleSvc n 0 s = (u, st)) : exec (.svcStop sess n) s = .next (u.svcAnswered sess n st) := by
  refine (State.commandOut_passed (ruleSvc n 0) passed).trans ?_
  rw [rule, State.svcAnswered]

end Passed

/-! ### SVC_APPLY (R368) -/

/-- The fourteen configuration values that objects 9100+n:01 to :0E hold. -/
abbrev State.svcWritten (s : State) (n : Nat) : List Nat := (List.range 14).map (fun i => s.obj (0x9100 + n) (i + 1))

theorem ruleSvc_apply_of_active {s : State} {n : Nat} (active : s.obj (0x9100 + n) 0 ≠ 0) : ruleSvc n 1 s = (s, stBusy) := by
  simp only [ruleSvc, State.svcState, if_pos, ne_eq, active, not_false_eq_true]

theorem ruleSvc_apply_of_outside {s : State} {n : Nat} (stopped : s.obj (0x9100 + n) 0 = 0) (outside : s.svcAreasOk (s.svcWritten n) = false) :
    ruleSvc n 1 s = (s, stBadValue) := by
  simp only [ruleSvc, State.svcState, if_pos, ne_eq, stopped, not_true, if_false, outside, Bool.not_false]

theorem ruleSvc_apply_of_inside {s : State} {n : Nat} (stopped : s.obj (0x9100 + n) 0 = 0) (inside : s.svcAreasOk (s.svcWritten n) = true) :
    ruleSvc n 1 s = (s.modSvc n (fun v => { v with cfg := s.svcWritten n }), stOk) := by
  simp only [ruleSvc, State.svcState, if_pos, ne_eq, stopped, not_true, if_false, inside, Bool.not_true, Bool.false_eq_true]

theorem execSvcApply_applies {s : State} {sess n : Nat} (passed : s.writeGuard sess (0x9100 + n) 0xF = none) :
    ∃ t, exec (.svcApply sess n) s = .next t ∧ t = { s with regs := t.regs, svcs := t.svcs, sent := t.sent } ∧
      s.sameRegs t [okey (0x9100 + n) 0xF 0] ∧ (∀ m, m ≠ n → t.svc m = s.svc m) ∧
      (s.obj (0x9100 + n) 0 ≠ 0 → t.obj (0x9100 + n) 0xF = stBusy ∧ t.svcs = s.svcs) ∧
      (s.obj (0x9100 + n) 0 = 0 → s.svcAreasOk (s.svcWritten n) = false → t.obj (0x9100 + n) 0xF = stBadValue ∧ t.svcs = s.svcs) ∧
      (s.obj (0x9100 + n) 0 = 0 → s.svcAreasOk (s.svcWritten n) = true →
        t.obj (0x9100 + n) 0xF = stOk ∧ t.svc n = { s.svc n with cfg := s.svcWritten n }) := by
  have kept (st : Nat) : s.onlyServices (s.svcAnswered sess n st) := s.svcAnswered_onlyServices _ _ _ s.onlyServices_refl
  have regs (st : Nat) : s.sameRegs (s.svcAnswered sess n st) [okey (0x9100 + n) 0xF 0] :=
    s.svcAnswered_sameRegs sess n st (s.sameRegs_refl _) List.mem_cons_self
  by_cases active : s.obj (0x9100 + n) 0 ≠ 0
  · exact ⟨_, exec_svcApply passed (ruleSvc_apply_of_active active), kept _, regs _, fun _ _ => State.svcAnswered_svc ..,
      fun _ => ⟨s.svcAnswered_status .., s.svcAnswered_svcs ..⟩, fun stopped => absurd stopped active, fun stopped => absurd stopped active⟩
  rw [not_not] at active
  cases areas : s.svcAreasOk (s.svcWritten n) with
  | false =>
    exact ⟨_, exec_svcApply passed (ruleSvc_apply_of_outside active areas), kept _, regs _, fun _ _ => State.svcAnswered_svc ..,
      fun running => absurd active running, fun _ _ => ⟨s.svcAnswered_status .., s.svcAnswered_svcs ..⟩, fun _ inside => absurd inside (by decide)⟩
  | true =>
    refine ⟨_, exec_svcApply passed (ruleSvc_apply_of_inside active areas), State.svcAnswered_onlyServices _ _ _ _ (s.modSvc_onlyServices ..),
      State.svcAnswered_sameRegs _ _ _ _ (State.sameRegs_of_regs (State.modSvc_regs ..) _) List.mem_cons_self,
      fun m other => (State.svcAnswered_svc ..).trans (s.svc_modSvc_ne _ other), fun running => absurd active running,
      fun _ outside => absurd outside (by decide), fun _ _ => ⟨State.svcAnswered_status .., ?_⟩⟩
    rw [State.svcAnswered_svc, State.svc_modSvc_same]

/-! ### SVC_START (R368, R399) -/

theorem State.startSvc_regs (s : State) (n : Nat) :
    (s.startSvc n).regs = (s.setObj (0x9100 + n) 0 0 (if s.jobRuns (s.svcPart n) then svRunning else svStarting)).regs := State.modSvc_regs ..

theorem State.startSvc_onlyServices (s : State) (n : Nat) : s.onlyServices (s.startSvc n) :=
  State.onlyServices_trans (t := s.setObj (0x9100 + n) 0 0 _) rfl (State.modSvc_onlyServices ..)

/-- Is a start or a stop of the service latched rather than run: while a stop waits, or while it starts with a request latched already? -/
def State.startLatches (s : State) (n : Nat) : Prop := (s.svc n).stopAt = true ∨ s.obj (0x9100 + n) 0 = 1 ∧ (s.svc n).latch ≠ none

theorem ruleSvc_start_of_stopped {s : State} {n : Nat} (stopped : s.obj (0x9100 + n) 0 = 0) : ruleSvc n 2 s = (s.startSvc n, stOk) := by
  simp [ruleSvc, State.svcState, stopped]

theorem ruleSvc_start_of_latches {s : State} {n : Nat} (active : s.obj (0x9100 + n) 0 ≠ 0) (latches : s.startLatches n) :
    ruleSvc n 2 s = (s.modSvc n (fun v => { v with latch := some 2 }), stRestartPending) := by
  obtain waits | ⟨starting, latched⟩ := latches
  · simp [ruleSvc, State.svcState, active, waits]
  · simp [ruleSvc, State.svcState, starting, Option.isSome_iff_ne_none, latched]

theorem ruleSvc_start_of_runs {s : State} {n : Nat} (active : s.obj (0x9100 + n) 0 ≠ 0) (runs : ¬ s.startLatches n) :
    ruleSvc n 2 s = (s, stOk) := by
  simp only [State.startLatches, not_or, not_and, not_not, Bool.not_eq_true] at runs
  obtain ⟨goes, free⟩ := runs
  have unlatched : ¬ (s.obj (0x9100 + n) 0 = svStarting ∧ (s.svc n).latch.isSome = true) := fun ⟨starting, latched⟩ => by
    simp [free starting] at latched
  simp [ruleSvc, State.svcState, active, goes, unlatched]

theorem State.obj_startSvc (s : State) (n : Nat) : (s.startSvc n).obj (0x9100 + n) 0 = if s.jobRuns (s.svcPart n) then 2 else 1 :=
  (State.obj_congr (s.startSvc_regs n) _ _ _).trans (State.obj_setObj_same ..)

theorem execSvcStart_starts {s : State} {sess n : Nat} (passed : s.writeGuard sess (0x9100 + n) 0xF = none) :
    ∃ t, exec (.svcStart sess n) s = .next t ∧ t = { s with regs := t.regs, svcs := t.svcs, sent := t.sent } ∧
      s.sameRegs t [okey (0x9100 + n) 0xF 0, okey (0x9100 + n) 0 0] ∧
      (s.obj (0x9100 + n) 0 = 0 → t.obj (0x9100 + n) 0xF = stOk ∧ t.obj (0x9100 + n) 0 = (if s.jobRuns (s.svcPart n) then 2 else 1)) ∧
      (s.obj (0x9100 + n) 0 ≠ 0 → (s.svc n).stopAt = true →
        t.obj (0x9100 + n) 0xF = stRestartPending ∧ t.svc n = { s.svc n with latch := some 2 } ∧ t.obj (0x9100 + n) 0 = s.obj (0x9100 + n) 0) ∧
      (s.obj (0x9100 + n) 0 = 1 → (s.svc n).latch ≠ none →
        t.obj (0x9100 + n) 0xF = stRestartPending ∧ t.svc n = { s.svc n with latch := some 2 } ∧ t.obj (0x9100 + n) 0 = 1) ∧
      (s.obj (0x9100 + n) 0 = 2 ∨ s.obj (0x9100 + n) 0 = 1 ∧ (s.svc n).latch = none → (s.svc n).stopAt = false →
        t.obj (0x9100 + n) 0xF = stOk ∧ t.svcs = s.svcs ∧ t.obj (0x9100 + n) 0 = s.obj (0x9100 + n) 0) := by
  have answered {u : State} (st : Nat) (h : s.sameRegs u [okey (0x9100 + n) 0xF 0, okey (0x9100 + n) 0 0]) :
      s.sameRegs (u.svcAnswered sess n st) [okey (0x9100 + n) 0xF 0, okey (0x9100 + n) 0 0] :=
    State.svcAnswered_sameRegs u sess n st h List.mem_cons_self
  have same := s.sameRegs_refl [okey (0x9100 + n) 0xF 0, okey (0x9100 + n) 0 0]
  by_cases stopped : s.obj (0x9100 + n) 0 = 0
  · refine ⟨_, exec_svcStart passed (ruleSvc_start_of_stopped stopped), State.svcAnswered_onlyServices _ _ _ _ (s.startSvc_onlyServices n), answered _ ?_, fun _ => ⟨State.svcAnswered_status .., ?_⟩, fun active => absurd stopped active, fun starting => ?_, fun active => ?_⟩
    · exact State.sameRegs_congr (State.sameRegs_setObj (0x9100 + n) 0 0 _ same (by simp)) (s.startSvc_regs n)
    · rw [State.svcAnswered_state, State.obj_startSvc]
    · omega
    · omega
  by_cases latches : s.startLatches n
  · have svc : ((s.modSvc n (fun v => { v with latch := some 2 })).svcAnswered sess n stRestartPending).svc n = { s.svc n with latch := some 2 } := by
      rw [State.svcAnswered_svc, State.svc_modSvc_same]
    have state : ((s.modSvc n (fun v => { v with latch := some 2 })).svcAnswered sess n stRestartPending).obj (0x9100 + n) 0 = s.obj (0x9100 + n) 0 :=
      (State.svcAnswered_state ..).trans (State.obj_congr (State.modSvc_regs ..) _ _ _)
    refine ⟨_, exec_svcStart passed (ruleSvc_start_of_latches stopped latches), State.svcAnswered_onlyServices _ _ _ _ (s.modSvc_onlyServices ..), answered _ (State.sameRegs_of_regs (State.modSvc_regs ..) _), fun h => absurd h stopped, fun _ _ => ⟨State.svcAnswered_status .., svc, state⟩,
      fun starting _ => ⟨State.svcAnswered_status .., svc, state.trans starting⟩, fun runs goes => ?_⟩
    obtain waits | ⟨starting, latched⟩ := latches
    · simp [goes] at waits
    · obtain running | ⟨-, free⟩ := runs
      · omega
      · exact absurd free latched
  · exact ⟨_, exec_svcStart passed (ruleSvc_start_of_runs stopped latches), State.svcAnswered_onlyServices _ _ _ _ s.onlyServices_refl, answered _ same, fun h => absurd h stopped, fun _ waits => absurd (.inl waits) latches,
      fun starting latched => absurd (.inr ⟨starting, latched⟩) latches, fun _ _ => ⟨State.svcAnswered_status .., State.svcAnswered_svcs .., State.svcAnswered_state ..⟩⟩

end Sys2Proof.Machine
end

section
/-! PROOF. What CLOSE and SET_POSITION of a context leave (11 R271-R276), and CONTEXT_IDLE_TIMEOUT (15 R372). -/

namespace Sys2Proof.Machine

/-! ### Where only the contexts, their cache and their pagers differ -/

/-- Nothing but contexts, the context cache with its two counters, the pools and the pagers differs. -/
structure State.onlyContexts (s t : State) : Prop where
  frame : t = { s with regs := t.regs, fresh := t.fresh, cached := t.cached, ctxs := t.ctxs, pools := t.pools, pagers := t.pagers }
  regs : s.sameRegs t [okey 0x3400 5 0, okey 0x3400 6 0]

namespace State.onlyContexts

theorem refl (s : State) : s.onlyContexts s := ⟨rfl, s.sameRegs_refl _⟩

theorem trans {s t u : State} (h : s.onlyContexts t) (g : t.onlyContexts u) : s.onlyContexts u :=
  ⟨g.frame.trans (by rw [h.frame]), State.sameRegs_trans h.regs g.regs⟩

section Kept
variable {s t : State} (h : s.onlyContexts t)
include h

theorem svcs : t.svcs = s.svcs := by rw [h.frame]
theorem sent : t.sent = s.sent := by rw [h.frame]
theorem lens : t.lens = s.lens := by rw [h.frame]
theorem closers : t.closers = s.closers := by rw [h.frame]

theorem setCtx (slot : Nat) (c : Ctx) : s.onlyContexts (t.setCtx slot c) := h.trans ⟨rfl, State.sameRegs_of_regs rfl _⟩

theorem obj_of_ne {i j e : Nat} (hits : okey i j e ≠ okey 0x3400 5 0) (misses : okey i j e ≠ okey 0x3400 6 0) : t.obj i j e = s.obj i j e :=
  h.regs _ (by simp [hits, misses])

end Kept

theorem lookup (s : State) (slot : Nat) : s.onlyContexts (s.lookup slot) := by
  refine ⟨rfl, ?_⟩
  show s.sameRegs (s.draw.2.count 0x3400 _ 0 64 1) _
  refine State.sameRegs_count _ _ _ _ _ (State.sameRegs_of_regs rfl _) ?_
  split
  · exact List.mem_cons_self
  · exact List.mem_cons_of_mem _ List.mem_cons_self

theorem freePage (s : State) (q : Nat) (ddr : Bool) (i tag : Nat) : s.onlyContexts (s.freePage q ddr i tag) := by
  unfold State.freePage
  split
  · exact refl s
  · exact ⟨rfl, State.sameRegs_of_regs rfl _⟩

theorem dropMoves (s : State) (q slot : Nat) : s.onlyContexts (s.dropMoves q slot) := by
  refine State.each_induction s.onlyContexts ⟨rfl, State.sameRegs_of_regs rfl _⟩ fun t m _ kept => ?_
  split
  · exact kept.trans (freePage ..)
  · exact kept

/-- An operation on a context that is not FREE changes no more than `f` does after the lookup. -/
theorem ruleCtx (v op : Nat) {f : State → Nat → Ctx → State × Nat} (s : State) (k : ∀ (t : State) slot c, t.onlyContexts (f t slot c).1) :
    s.onlyContexts (ruleCtx v op f s).1 := by
  unfold Machine.ruleCtx
  dsimp only
  split_ifs
  · exact refl s
  · exact lookup ..
  · exact (lookup ..).trans (k ..)

theorem ruleCtxClose (v : Nat) (s : State) : s.onlyContexts (ruleCtxClose v s).1 := by
  refine ruleCtx v 2 s fun t slot c => ?_
  cases c.st
  case idle => exact (dropMoves ..).setCtx ..
  all_goals exact (refl t).setCtx ..

theorem ruleCtxSetPosition (v : Nat) (s : State) : s.onlyContexts (ruleCtxSetPosition v s).1 := by
  refine ruleCtx v 3 s fun t slot c => ?_
  dsimp only
  split_ifs
  · exact refl t
  · exact (refl t).setCtx ..
  · exact refl t

end State.onlyContexts

/-! ### A context's descriptor after a change -/

@[simp] theorem State.ctx_setCtx_same (s : State) (slot : Nat) (c : Ctx) : (s.setCtx slot c).ctx slot = c := Tbl.get_put_same ..

theorem State.ctx_setCtx_ne (s : State) {slot k : Nat} (c : Ctx) (h : k ≠ slot) : (s.setCtx slot c).ctx k = s.ctx k :=
  Tbl.get_put_other _ _ _ _ _ _ h

theorem State.ctx_congr {s t : State} (h : t.ctxs = s.ctxs) (k : Nat) : t.ctx k = s.ctx k := by rw [State.ctx, h, State.ctx]

/-! ### CONTEXT_IDLE_TIMEOUT (R372) -/

theorem ctxSlot_ctxWord_close {slot : Nat} (small : slot < 262144) : ctxSlot (ctxWord 2 slot 0 0 0) = slot := by
  simp only [ctxSlot, ctxWord, fieldOf]
  omega

theorem ctxFieldsOk_ctxWord_close {slot : Nat} (small : slot < 262144) : ctxFieldsOk (ctxWord 2 slot 0 0 0) 2 = true := by
  simp only [ctxFieldsOk, ctxWord, fieldOf, Bool.and_eq_true, Bool.or_eq_true, beq_iff_eq, if_neg (show ¬ (2 = 1) by decide),
    if_neg (show ¬ (2 = 3) by decide), if_neg (show ¬ (2 = 4) by decide)]
  omega

theorem ruleCtxClose_of_idle {s : State} {slot : Nat} (small : slot < 262144) (idle : (s.ctx slot).st = .idle) :
    (ruleCtxClose (ctxWord 2 slot 0 0 0) s).1 =
      ((s.lookup slot).dropMoves (s.ctx slot).partition slot).setCtx slot { s.ctx slot with st := .releasing } := by
  have found : (s.lookup slot).ctx slot = s.ctx slot := rfl
  simp [ruleCtxClose, ruleCtx, ctxFieldsOk_ctxWord_close small, ctxSlot_ctxWord_close small, found, idle]

theorem execContextIdleTimeout_of_used {s : State} {slot : Nat}
    (used : (s.ctx slot).st = .free ∨ (s.reqOn slot).isSome = true ∨ s.elapsed < (s.ctx slot).used + secTide * s.obj 0x9000 5) :
    exec (.contextIdleTimeout slot) s = .next s := by
  show execContextIdleTimeout slot s = _
  rw [execContextIdleTimeout, if_pos used]

theorem execContextIdleTimeout_releases {s : State} {slot : Nat} (small : slot < 262144) (idle : (s.ctx slot).st = .idle) (free : s.reqOn slot = none)
    (past : (s.ctx slot).used + secTide * s.obj 0x9000 5 ≤ s.elapsed) :
    ∃ t, exec (.contextIdleTimeout slot) s = .next t ∧ t.ctx slot = { s.ctx slot with st := .releasing } := by
  refine ⟨_, ?_, State.ctx_setCtx_same ((s.lookup slot).dropMoves (s.ctx slot).partition slot) slot _⟩
  show execContextIdleTimeout slot s = _
  rw [execContextIdleTimeout, if_neg (by simp [idle, free, past]), ruleCtxClose_of_idle small idle]

end Sys2Proof.Machine
end

section
/-! PROOF. How requests end: at a stop, with their connection, and where a job was not resumed (15 R373, R374). -/

namespace Sys2Proof.Machine

/-- Nothing but registers, services, contexts and what has been sent differs. -/
def State.onlyEndpoint (s t : State) : Prop := t = { s with regs := t.regs, svcs := t.svcs, ctxs := t.ctxs, sent := t.sent }

theorem State.onlyEndpoint_trans {s t u : State} (h : s.onlyEndpoint t) (g : t.onlyEndpoint u) : s.onlyEndpoint u := by
  unfold State.onlyEndpoint at h g ⊢
  exact g.trans (by rw [h])

theorem State.onlyEndpoint_setObj {s t : State} (h : s.onlyEndpoint t) (i j e v : Nat) : s.onlyEndpoint (t.setObj i j e v) := State.onlyEndpoint_trans h rfl
theorem State.onlyEndpoint_modSvc {s t : State} (h : s.onlyEndpoint t) (n : Nat) (f : Service → Service) : s.onlyEndpoint (t.modSvc n f) :=
  State.onlyEndpoint_trans h rfl
theorem State.onlyEndpoint_final {s t : State} (h : s.onlyEndpoint t) (c : Client) (reqId st : Nat) (more : CborMap) :
    s.onlyEndpoint (t.final c reqId st more) := State.onlyEndpoint_trans h rfl
theorem State.onlyEndpoint_svcAnswered {s t : State} (h : s.onlyEndpoint t) (sess n st : Nat) : s.onlyEndpoint (t.svcAnswered sess n st) :=
  State.onlyEndpoint_trans h rfl

/-! ### One request ends (R373) -/

/-- A request has left the lists of its service, and its context counts as used now. -/
def State.unlisted (s : State) (n : Nat) (r : SvcReq) : State :=
  (s.modSvc n (fun v => { v with waiting := v.waiting.filter (fun x => x.seq != r.seq), active := v.active.filter (fun x => x.seq != r.seq) })).setCtx
    r.slot { s.ctx r.slot with used := s.elapsed }

section Unlisted
variable (s : State) (n : Nat) (r : SvcReq)

@[simp] theorem State.unlisted_sent : (s.unlisted n r).sent = s.sent := rfl
@[simp] theorem State.unlisted_regs : (s.unlisted n r).regs = s.regs := rfl
@[simp] theorem State.unlisted_lens : (s.unlisted n r).lens = s.lens := rfl
@[simp] theorem State.unlisted_closers : (s.unlisted n r).closers = s.closers := rfl
theorem State.unlisted_frame : s.unlisted n r = { s with svcs := (s.unlisted n r).svcs, ctxs := (s.unlisted n r).ctxs } := rfl
theorem State.unlisted_onlyEndpoint : s.onlyEndpoint (s.unlisted n r) := rfl

theorem State.ctx_unlisted_same : (s.unlisted n r).ctx r.slot = { s.ctx r.slot with used := s.elapsed } := State.ctx_setCtx_same ..
theorem State.ctx_unlisted_ne {k : Nat} (h : k ≠ r.slot) : (s.unlisted n r).ctx k = s.ctx k := State.ctx_setCtx_ne _ _ h

theorem State.svc_unlisted_same : (s.unlisted n r).svc n =
    { s.svc n with waiting := (s.svc n).waiting.filter (fun x => x.seq != r.seq), active := (s.svc n).active.filter (fun x => x.seq != r.seq) } := by
  rw [State.unlisted, State.svc_congr (State.setCtx_svcs ..), State.svc_modSvc_same]

theorem State.svc_unlisted_ne {k : Nat} (h : k ≠ n) : (s.unlisted n r).svc k = s.svc k := by
  rw [State.unlisted, State.svc_congr (State.setCtx_svcs ..), State.svc_modSvc_ne _ _ h]

/-- A request that its service alone holds, waiting, leaves none behind. -/
theorem State.svc_unlisted_of_single {w : SvcReq} (waits : (s.svc n).waiting = [w]) (number : w.seq = r.seq) (idle : (s.svc n).active = []) :
    (s.unlisted n r).svc n = { s.svc n with waiting := [] } := by
  rw [State.svc_unlisted_same, waits, idle]
  simp [number, idle]

end Unlisted

theorem State.endReq_of_lost {s : State} {n : Nat} {r : SvcReq} (st : Nat) (more : CborMap) (lost : r.lost = true) (alone : r.askers = []) :
    s.endReq n r st more = s.unlisted n r := by
  simp only [State.endReq, lost, alone, State.each, List.foldl_nil, if_pos]
  rfl

theorem State.endReq_of_present {s : State} {n : Nat} {r : SvcReq} (st : Nat) (more : CborMap) (present : r.lost = false) (alone : r.askers = []) :
    s.endReq n r st more = (s.unlisted n r).final r.client r.reqId st more := by
  simp only [State.endReq, present, alone, State.each, List.foldl_nil, Bool.false_eq_true, if_false]
  rfl

section Final
variable (s : State) (c : Client) (reqId st : Nat) (more : CborMap)

@[simp] theorem State.final_sent :
    (s.final c reqId st more).sent = .response c ([(0, .uint 0), (1, .uint reqId), (2, .uint st)] ++ more) :: s.sent :=
  (State.count_sent ..).trans (State.emit_sent ..)
@[simp] theorem State.final_svcs : (s.final c reqId st more).svcs = s.svcs := rfl
@[simp] theorem State.final_ctxs : (s.final c reqId st more).ctxs = s.ctxs := rfl
@[simp] theorem State.final_lens : (s.final c reqId st more).lens = s.lens := rfl
@[simp] theorem State.final_closers : (s.final c reqId st more).closers = s.closers := rfl
theorem State.final_sameRegs : s.sameRegs (s.final c reqId st more) [okey 0x9000 7 0] :=
  State.sameRegs_count _ _ _ _ _ (State.sameRegs_of_regs rfl _) List.mem_cons_self

end Final

/-! ### All requests of a service end (R373) -/

/-- A service in two states differs in its requests alone, and its state register not at all. -/
def State.sameButRequests (s t : State) (n : Nat) : Prop :=
  (t.svc n = { s.svc n with waiting := (t.svc n).waiting, active := (t.svc n).active }) ∧ t.obj (0x9100 + n) 0 = s.obj (0x9100 + n) 0

namespace State.sameButRequests

theorem trans {s t u : State} {n : Nat} (h : s.sameButRequests t n) (g : t.sameButRequests u n) : s.sameButRequests u n :=
  ⟨g.1.trans (by rw [h.1]), g.2.trans h.2⟩

theorem of_svcs {s t : State} {n : Nat} (svcs : t.svcs = s.svcs) (state : t.obj (0x9100 + n) 0 = s.obj (0x9100 + n) 0) : s.sameButRequests t n :=
  ⟨by rw [State.svc_congr svcs], state⟩

theorem unlisted (s : State) (n : Nat) (r : SvcReq) : s.sameButRequests (s.unlisted n r) n :=
  ⟨by rw [State.svc_unlisted_same], State.obj_congr (State.unlisted_regs ..) _ _ _⟩

theorem final (s : State) (n : Nat) (c : Client) (reqId st : Nat) (more : CborMap) : s.sameButRequests (s.final c reqId st more) n :=
  of_svcs (State.final_svcs ..) (State.final_sameRegs _ _ _ _ _ _ (by simp only [okey, List.mem_singleton]; omega))

theorem onlyContexts {s t : State} {n : Nat} (h : s.onlyContexts t) : s.sameButRequests t n :=
  of_svcs h.svcs (h.obj_of_ne (by unfold okey; omega) (by unfold okey; omega))

theorem closeFor (s : State) (n slot : Nat) (c : Client) (reqId : Nat) : s.sameButRequests (s.closeFor slot c reqId) n := by
  have closed : s.sameButRequests (ruleCtxClose (ctxWord 2 slot 0 0 0) s).1 n := onlyContexts (.ruleCtxClose ..)
  unfold State.closeFor
  dsimp only
  split_ifs
  · exact closed.trans (of_svcs rfl rfl)
  · exact closed.trans (final ..)

theorem endReq (s : State) (n : Nat) (r : SvcReq) (st : Nat) (more : CborMap) : s.sameButRequests (s.endReq n r st more) n := by
  refine State.each_induction (s.sameButRequests · n) ?_ fun t a _ kept => ?_
  · split_ifs
    · exact unlisted ..
    · exact (unlisted ..).trans (final ..)
  · split_ifs
    · exact kept.trans (closeFor ..)
    · exact kept.trans (final ..)

end State.sameButRequests

/-- Once its requests are dropped, a service holds none, nor frames, lanes or sealed entries, and is otherwise as it was. -/
theorem State.dropRequests_spec (s : State) (n : Nat) :
    (s.dropRequests n).svc n = { s.svc n with waiting := [], active := [], lanes := [], sealed := [], frames := [] } ∧
      (s.dropRequests n).obj (0x9100 + n) 0 = s.obj (0x9100 + n) 0 := by
  have refl : s.sameButRequests s n := ⟨rfl, rfl⟩
  have ended := State.each_induction (xs := (s.svc n).waiting ++ (s.svc n).active) (f := fun t r => t.endReq n r stDegraded (t.endKeys r 5))
    (s.sameButRequests · n) refl fun t r _ kept => kept.trans (State.sameButRequests.endReq ..)
  have answered := State.each_induction (xs := (s.svc n).frames) (f := fun t f => t.final f.client f.reqId stDegraded [(6, .uint 5)])
    (s.sameButRequests · n) ended fun t f _ kept => kept.trans (State.sameButRequests.final ..)
  refine ⟨(State.svc_modSvc_same ..).trans ?_, (State.obj_congr (State.modSvc_regs ..) _ _ _).trans answered.2⟩
  rw [answered.1]

/-! ### SVC_STOP (R368, R399) -/

theorem ruleSvc_stop_of_stopped {s : State} {n : Nat} (stopped : s.obj (0x9100 + n) 0 = 0) : ruleSvc n 0 s = (s, stOk) := by
  simp [ruleSvc, State.svcState, stopped]

theorem ruleSvc_stop_of_latches {s : State} {n : Nat} (active : s.obj (0x9100 + n) 0 ≠ 0) (latches : (s.svc n).stopAt = true ∨ s.obj (0x9100 + n) 0 = 1) :
    ruleSvc n 0 s = (s.modSvc n (fun v => { v with latch := some 0 }), stRestartPending) := by
  simp [ruleSvc, State.svcState, active, latches]

theorem ruleSvc_stop_of_running {s : State} {n : Nat} (running : s.obj (0x9100 + n) 0 = 2) (goes : (s.svc n).stopAt = false) :
    ruleSvc n 0 s = s.stopSvc n := by
  simp [ruleSvc, State.svcState, running, goes]

theorem execSvcStop_of_stopped {s : State} {sess n : Nat} (passed : s.writeGuard sess (0x9100 + n) 0xF = none) (stopped : s.obj (0x9100 + n) 0 = 0) :
    ∃ t, exec (.svcStop sess n) s = .next t ∧ t.obj (0x9100 + n) 0xF = stOk ∧ t = { s with regs := t.regs, sent := t.sent } ∧
      s.sameRegs t [okey (0x9100 + n) 0xF 0] :=
  ⟨_, exec_svcStop passed (ruleSvc_stop_of_stopped stopped), State.svcAnswered_status .., s.svcAnswered_frame sess n stOk,
    State.svcAnswered_sameRegs _ _ _ _ (s.sameRegs_refl _) List.mem_cons_self⟩

theorem execSvcStop_of_latches {s : State} {sess n : Nat} (passed : s.writeGuard sess (0x9100 + n) 0xF = none) (active : s.obj (0x9100 + n) 0 ≠ 0)
    (latches : (s.svc n).stopAt = true ∨ s.obj (0x9100 + n) 0 = 1) :
    ∃ t, exec (.svcStop sess n) s = .next t ∧ t.obj (0x9100 + n) 0xF = stRestartPending ∧ t.svc n = { s.svc n with latch := some 0 } ∧
      (∀ k, k ≠ n → t.svc k = s.svc k) ∧ t = { s with regs := t.regs, svcs := t.svcs, sent := t.sent } ∧ s.sameRegs t [okey (0x9100 + n) 0xF 0] :=
  ⟨_, exec_svcStop passed (ruleSvc_stop_of_latches active latches), State.svcAnswered_status ..,
    (State.svcAnswered_svc ..).trans (State.svc_modSvc_same ..), fun _ other => (State.svcAnswered_svc ..).trans (State.svc_modSvc_ne _ _ other),
    State.svcAnswered_onlyServices _ _ _ _ (s.modSvc_onlyServices ..),
    State.svcAnswered_sameRegs _ _ _ _ (State.sameRegs_of_regs (State.modSvc_regs ..) _) List.mem_cons_self⟩

theorem execSvcStop_pends {s : State} {sess n : Nat} (passed : s.writeGuard sess (0x9100 + n) 0xF = none) (running : s.obj (0x9100 + n) 0 = 2)
    (goes : (s.svc n).stopAt = false) (steps : s.jobState (s.svcPart n) = 3 ∨ s.jobState (s.svcPart n) = 4) :
    ∃ t, exec (.svcStop sess n) s = .next t ∧ t.obj (0x9100 + n) 0xF = stPending ∧ t.svc n = { s.svc n with stopAt := true } ∧
      t = { s with regs := t.regs, svcs := t.svcs, sent := t.sent } ∧ s.sameRegs t [okey (0x9100 + n) 0xF 0] := by
  have rule : ruleSvc n 0 s = (s.modSvc n (fun v => { v with stopAt := true }), stPending) := by
    rw [ruleSvc_stop_of_running running goes, State.stopSvc, if_pos steps]
  exact ⟨_, exec_svcStop passed rule, State.svcAnswered_status .., (State.svcAnswered_svc ..).trans (State.svc_modSvc_same ..),
    State.svcAnswered_onlyServices _ _ _ _ (s.modSvc_onlyServices ..),
    State.svcAnswered_sameRegs _ _ _ _ (State.sameRegs_of_regs (State.modSvc_regs ..) _) List.mem_cons_self⟩

/-- The module once the one request `x` of service `n` is answered DEGRADED with reason 5 and the service has stopped. -/
def State.stoppedAfter (s : State) (n : Nat) (x : SvcReq) : State :=
  ((((s.unlisted n x).final x.client x.reqId stDegraded (s.endKeys x 5)).modSvc n (fun v =>
    { v with waiting := [], active := [], lanes := [], sealed := [], frames := [] })).setObj (0x9100 + n) 0 0 svStopped).modSvc n (fun v =>
      { v with stopAt := false, latch := none })

section StoppedAfter
variable (s : State) (n : Nat) (x : SvcReq)

theorem State.stoppedAfter_sent : (s.stoppedAfter n x).sent =
    .response x.client ([(0, .uint 0), (1, .uint x.reqId), (2, .uint stDegraded)] ++ s.endKeys x 5) :: s.sent := by
  rw [State.stoppedAfter, State.modSvc_sent, State.setObj_sent, State.modSvc_sent, State.final_sent, State.unlisted_sent]

theorem State.stoppedAfter_onlyEndpoint : s.onlyEndpoint (s.stoppedAfter n x) :=
  State.onlyEndpoint_modSvc (State.onlyEndpoint_setObj (State.onlyEndpoint_modSvc (State.onlyEndpoint_final (s.unlisted_onlyEndpoint n x) ..) ..) ..) ..

theorem State.stoppedAfter_ctxs : (s.stoppedAfter n x).ctxs = (s.unlisted n x).ctxs := by
  rw [State.stoppedAfter, State.modSvc_ctxs, State.setObj_ctxs, State.modSvc_ctxs, State.final_ctxs]

theorem State.stoppedAfter_regs : (s.stoppedAfter n x).regs =
    (((s.unlisted n x).final x.client x.reqId stDegraded (s.endKeys x 5)).setObj (0x9100 + n) 0 0 svStopped).regs := rfl

theorem State.stoppedAfter_state : (s.stoppedAfter n x).obj (0x9100 + n) 0 = 0 :=
  (State.obj_congr (s.stoppedAfter_regs n x) _ _ _).trans (State.obj_setObj_same ..)

theorem State.stoppedAfter_sameRegs : s.sameRegs (s.stoppedAfter n x) [okey (0x9100 + n) 0xF 0, okey (0x9100 + n) 0 0, okey 0x9000 7 0] := by
  refine State.sameRegs_congr (State.sameRegs_setObj _ _ _ _ ?_ (by simp)) (s.stoppedAfter_regs n x)
  exact State.sameRegs_trans (State.sameRegs_of_regs (State.unlisted_regs s n x) _) (State.sameRegs_mono (State.final_sameRegs _ _ _ _ _) (by simp))

/-- A service that has stopped holds no request. -/
theorem State.stoppedAfter_svc : ((s.stoppedAfter n x).svc n).waiting = [] ∧ ((s.stoppedAfter n x).svc n).active = [] := by
  rw [State.stoppedAfter, State.svc_modSvc_same, State.svc_congr (State.setObj_svcs ..), State.svc_modSvc_same]
  exact ⟨rfl, rfl⟩

end StoppedAfter

theorem State.stopNow_of_single {s : State} {n : Nat} {x : SvcReq} (unlatched : (s.svc n).latch = none) (waits : (s.svc n).waiting = [x])
    (idle : (s.svc n).active = []) (blind : (s.svc n).frames = []) (present : x.lost = false) (alone : x.askers = []) :
    s.stopNow n = s.stoppedAfter n x := by
  have dropped : s.dropRequests n = ((s.unlisted n x).final x.client x.reqId stDegraded (s.endKeys x 5)).modSvc n (fun v =>
      { v with waiting := [], active := [], lanes := [], sealed := [], frames := [] }) := by
    simp only [State.dropRequests, waits, idle, blind, State.each, List.append_nil, List.foldl_cons, List.foldl_nil, State.endReq_of_present _ _ present alone]
  have latch : (((s.dropRequests n).setObj (0x9100 + n) 0 0 svStopped).svc n).latch = none := by
    rw [State.svc_congr (State.setObj_svcs ..), (s.dropRequests_spec n).1, unlatched]
  simp only [State.stopNow, latch, reduceCtorEq, if_false]
  rw [dropped, State.stoppedAfter]

theorem execSvcStop_of_single {s : State} {sess n : Nat} {x : SvcReq} (passed : s.writeGuard sess (0x9100 + n) 0xF = none)
    (running : s.obj (0x9100 + n) 0 = 2) (goes : (s.svc n).stopAt = false) (unlatched : (s.svc n).latch = none)
    (still : s.jobState (s.svcPart n) ≠ 3) (settled : s.jobState (s.svcPart n) ≠ 4) (waits : (s.svc n).waiting = [x]) (idle : (s.svc n).active = [])
    (blind : (s.svc n).frames = []) (present : x.lost = false) (alone : x.askers = []) :
    ∃ t, exec (.svcStop sess n) s = .next t ∧ t.obj (0x9100 + n) 0xF = stOk ∧ t.obj (0x9100 + n) 0 = 0 ∧ (t.svc n).waiting = [] ∧ (t.svc n).active = [] ∧
      t.sent = .answer sess (0x9100 + n) 0xF stOk :: .response x.client ([(0, .uint 0), (1, .uint x.reqId), (2, .uint stDegraded)] ++ s.endKeys x 5) :: s.sent ∧
      t = { s with regs := t.regs, svcs := t.svcs, ctxs := t.ctxs, sent := t.sent } ∧ t.ctx x.slot = { s.ctx x.slot with used := s.elapsed } ∧
      (∀ k, k ≠ x.slot → t.ctx k = s.ctx k) ∧ s.sameRegs t [okey (0x9100 + n) 0xF 0, okey (0x9100 + n) 0 0, okey 0x9000 7 0] := by
  have rule : ruleSvc n 0 s = (s.stoppedAfter n x, stOk) := by
    rw [ruleSvc_stop_of_running running goes, State.stopSvc, if_neg (by simp [still, settled]),
      State.stopNow_of_single unlatched waits idle blind present alone]
  have ctx (k : Nat) : ((s.stoppedAfter n x).svcAnswered sess n stOk).ctx k = (s.unlisted n x).ctx k :=
    State.ctx_congr ((State.svcAnswered_ctxs ..).trans (s.stoppedAfter_ctxs n x)) k
  obtain ⟨waiting, active⟩ := s.stoppedAfter_svc n x
  refine ⟨_, exec_svcStop passed rule, State.svcAnswered_status .., (State.svcAnswered_state ..).trans (s.stoppedAfter_state n x), ?_, ?_, ?_, ?_, ?_, ?_, ?_⟩
  · rw [State.svcAnswered_svc, waiting]
  · rw [State.svcAnswered_svc, active]
  · rw [State.svcAnswered_sent, State.stoppedAfter_sent]
  · exact State.onlyEndpoint_svcAnswered (s.stoppedAfter_onlyEndpoint n x) ..
  · exact (ctx _).trans (s.ctx_unlisted_same n x)
  · exact fun k other => (ctx k).trans (s.ctx_unlisted_ne n x other)
  · exact State.svcAnswered_sameRegs _ _ _ _ (s.stoppedAfter_sameRegs n x) List.mem_cons_self

/-! ### RECOVERY_RESUME_TIMEOUT (R374) -/

theorem execRecoveryResumeTimeout_of_early {s : State} {n : Nat} (early : s.obj (0x9100 + n) 0 ≠ 3 ∨ s.elapsed < s.faults.recoverAt + 5 * secTide) :
    exec (.recoveryResumeTimeout n) s = .next s := by
  show execRecoveryResumeTimeout n s = _
  rw [execRecoveryResumeTimeout, if_neg]
  rintro ⟨recovering, past⟩
  obtain other | before := early
  · exact other recovering
  · exact absurd past (not_le.2 before)

theorem execRecoveryResumeTimeout_drops {s : State} {n : Nat} (recovering : s.obj (0x9100 + n) 0 = 3) (past : s.faults.recoverAt + 5 * secTide ≤ s.elapsed) :
    ∃ t, exec (.recoveryResumeTimeout n) s = .next t ∧
      t.svc n = { s.svc n with waiting := [], active := [], lanes := [], sealed := [], frames := [] } ∧ t.obj (0x9100 + n) 0 = 3 := by
  obtain ⟨dropped, kept⟩ := s.dropRequests_spec n
  refine ⟨s.dropRequests n, ?_, dropped, kept.trans recovering⟩
  show execRecoveryResumeTimeout n s = _
  rw [execRecoveryResumeTimeout, if_pos ⟨recovering, past⟩]

end Sys2Proof.Machine
end

section
/-! PROOF. A command that concerns one of the sixteen services, and CONNECTION_LOST (15 R373, R374). -/

namespace Sys2Proof.Machine

/-! ### One of a range acts -/

/-- A range around one of its numbers. -/
theorem range_eq_append_cons {N n : Nat} (h : n < N) :
    ∃ before after, List.range N = before ++ n :: after ∧ ∀ k, k ∈ before ∨ k ∈ after → k < N ∧ k ≠ n := by
  obtain ⟨before, after, split⟩ := List.append_of_mem (List.mem_range.2 h)
  have nodup := split ▸ List.nodup_range (n := N)
  rw [List.nodup_append, List.nodup_cons] at nodup
  obtain ⟨-, ⟨notAfter, -⟩, apart⟩ := nodup
  refine ⟨before, after, split, fun k mem => ⟨?_, ?_⟩⟩
  · rw [← List.mem_range, split]
    simp only [List.mem_append, List.mem_cons]
    tauto
  · rintro rfl
    obtain inBefore | inAfter := mem
    · exact apart k inBefore k List.mem_cons_self rfl
    · exact notAfter inAfter

theorem filter_range_eq_singleton {N n : Nat} {p : Nat → Bool} (h : n < N) (yes : p n = true) (no : ∀ k, k < N → k ≠ n → p k = false) :
    (List.range N).filter p = [n] := by
  obtain ⟨before, after, split, others⟩ := range_eq_append_cons h
  have none' (xs : List Nat) (sub : ∀ k ∈ xs, k ∈ before ∨ k ∈ after) : xs.filter p = [] :=
    List.filter_eq_nil_iff.2 fun k mem => by
      obtain ⟨small, other⟩ := others k (sub k mem)
      simp [no k small other]
  rw [split, List.filter_append, List.filter_cons_of_pos yes, none' before fun _ => .inl, none' after fun _ => .inr, List.nil_append]

theorem flatMap_range_eq_single {α : Type} {N n : Nat} {f : Nat → List α} (h : n < N) (no : ∀ k, k < N → k ≠ n → f k = []) :
    (List.range N).flatMap f = f n := by
  obtain ⟨before, after, split, others⟩ := range_eq_append_cons h
  have none' (xs : List Nat) (sub : ∀ k ∈ xs, k ∈ before ∨ k ∈ after) : xs.flatMap f = [] :=
    List.flatMap_eq_nil_iff.2 fun k mem => by
      obtain ⟨small, other⟩ := others k (sub k mem)
      exact no k small other
  rw [split, List.flatMap_append, List.flatMap_cons, none' before fun _ => .inl, none' after fun _ => .inr, List.nil_append, List.append_nil]

/-- A list none of whose elements acts. -/
theorem State.each_eq_self {α : Type} {s : State} {xs : List α} {f : State → α → State} (idle : ∀ x ∈ xs, f s x = s) : s.each xs f = s :=
  State.each_induction (· = s) rfl fun t x mem same => by rw [same, idle x mem]

/-- Of a range one number alone acts, before and after which the others are idle. -/
theorem State.each_range_eq_single {s t : State} {N n : Nat} {f : State → Nat → State} (h : n < N) (acts : f s n = t)
    (idle : ∀ k, k < N → k ≠ n → f s k = s ∧ f t k = t) : s.each (List.range N) f = t := by
  obtain ⟨before, after, split, others⟩ := range_eq_append_cons h
  have first : s.each before f = s := State.each_eq_self fun k mem => (idle k (others k (.inl mem)).1 (others k (.inl mem)).2).1
  have last : t.each after f = t := State.each_eq_self fun k mem => (idle k (others k (.inr mem)).1 (others k (.inr mem)).2).2
  unfold State.each at first last ⊢
  rw [split, List.foldl_append, first, List.foldl_cons, acts, last]

/-! ### CONNECTION_LOST (R373, R374) -/

/-- The request of a connection that has been lost leaves, and nobody is answered. -/
def markLost (x : SvcReq) : SvcReq := { x with leave := some (x.leave.getD 3), lost := true }

/-- CONNECTION_LOST at one service. -/
def State.loseAt (s : State) (conn n : Nat) : State :=
  s.each (((s.svc n).waiting ++ (s.svc n).active).filter (fun r => r.client.conn == conn)) (fun u r => (u.modReq n r.seq markLost).leaveReq n r)

theorem execConnectionLost_eq (conn : Nat) (s : State) : execConnectionLost conn s = .next (s.each serviceNumbers (fun t n => t.loseAt conn n)) := rfl

theorem State.loseAt_of_none {s : State} {conn n : Nat} (none' : ∀ r ∈ (s.svc n).waiting ++ (s.svc n).active, r.client.conn ≠ conn) :
    s.loseAt conn n = s := by
  rw [State.loseAt, List.filter_eq_nil_iff.2 fun r mem => by simpa using none' r mem]
  rfl

theorem execConnectionLost_of_none {s : State} {conn : Nat}
    (none' : ∀ n, n < 16 → ∀ r, r ∈ (s.svc n).waiting ++ (s.svc n).active → r.client.conn ≠ conn) : exec (.connectionLost conn) s = .next s := by
  refine (execConnectionLost_eq conn s).trans (congrArg _ (State.each_eq_self fun n mem => ?_))
  exact State.loseAt_of_none (none' n (List.mem_range.1 mem))

theorem State.reqOn_of_single {s : State} {n : Nat} {x : SvcReq} (small : n < 16) (waits : (s.svc n).waiting = [x]) (idle : (s.svc n).active = [])
    (others : ∀ k, k < 16 → k ≠ n → (s.svc k).waiting = [] ∧ (s.svc k).active = []) : s.reqOn x.slot = some (n, x) := by
  rw [State.reqOn, flatMap_range_eq_single small fun k bound other => by rw [(others k bound other).1, (others k bound other).2]; rfl, waits, idle]
  exact List.find?_cons_of_pos (by simp)

/-- Nothing but services and contexts differs. -/
def State.onlyRequests (s t : State) : Prop := t = { s with svcs := t.svcs, ctxs := t.ctxs }

theorem State.onlyRequests_trans {s t u : State} (h : s.onlyRequests t) (g : t.onlyRequests u) : s.onlyRequests u := by
  unfold State.onlyRequests at h g ⊢
  exact g.trans (by rw [h])

theorem State.modReq_onlyRequests (s : State) (n seq : Nat) (f : SvcReq → SvcReq) : s.onlyRequests (s.modReq n seq f) := rfl

theorem State.ctx_unlisted_modReq (s : State) (n seq : Nat) (f : SvcReq → SvcReq) (r : SvcReq) :
    ((s.modReq n seq f).unlisted n r).ctx r.slot = { s.ctx r.slot with used := s.elapsed } := State.ctx_unlisted_same ..

/-- The one request of the connection, which no sealed entry holds, leaves its service at once. -/
theorem State.loseAt_of_single {s : State} {conn n : Nat} {x : SvcReq} (small : n < 16) (waits : (s.svc n).waiting = [x]) (idle : (s.svc n).active = [])
    (others : ∀ k, k < 16 → k ≠ n → (s.svc k).waiting = [] ∧ (s.svc k).active = []) (mine : x.client.conn = conn) (unsealed : x.lastKey = none)
    (alone : x.askers = []) : s.loseAt conn n = (s.modReq n x.seq markLost).unlisted n (markLost x) := by
  have marked : ((s.modReq n x.seq markLost).svc n) = { s.svc n with waiting := [markLost x], active := [] } := by
    rw [State.modReq, State.svc_modSvc_same, waits, idle]
    simp
  have found : (s.modReq n x.seq markLost).reqOn x.slot = some (n, markLost x) :=
    State.reqOn_of_single (x := markLost x) small (by rw [marked]) (by rw [marked]) fun k bound other => by
      rw [State.modReq, State.svc_modSvc_ne _ _ other]
      exact others k bound other
  have one : ((s.svc n).waiting ++ (s.svc n).active).filter (fun r => r.client.conn == conn) = [x] := by simp [waits, idle, mine]
  rw [State.loseAt, one]
  show (s.modReq n x.seq markLost).leaveReq n x = _
  simp only [State.leaveReq, found, show (markLost x).lastKey = none from unsealed, Option.elim_none, Bool.false_eq_true, if_false]
  exact State.endReq_of_lost _ _ rfl alone

theorem execConnectionLost_ends {s : State} {conn n : Nat} {x : SvcReq} (small : n < 16) (waits : (s.svc n).waiting = [x]) (idle : (s.svc n).active = [])
    (others : ∀ k, k < 16 → k ≠ n → (s.svc k).waiting = [] ∧ (s.svc k).active = []) (mine : x.client.conn = conn) (unsealed : x.lastKey = none)
    (alone : x.askers = []) :
    ∃ t, exec (.connectionLost conn) s = .next t ∧ t = { s with svcs := t.svcs, ctxs := t.ctxs } ∧ t.svc n = { s.svc n with waiting := [] } ∧
      t.ctx x.slot = { s.ctx x.slot with used := s.elapsed } ∧ (∀ k, k ≠ x.slot → t.ctx k = s.ctx k) := by
  have elsewhere (k : Nat) (other : k ≠ n) : ((s.modReq n x.seq markLost).unlisted n (markLost x)).svc k = s.svc k := by
    rw [State.svc_unlisted_ne _ _ _ other, State.modReq, State.svc_modSvc_ne _ _ other]
  refine ⟨(s.modReq n x.seq markLost).unlisted n (markLost x), ?_, State.onlyRequests_trans (s.modReq_onlyRequests ..) (State.unlisted_frame ..), ?_,
    s.ctx_unlisted_modReq n x.seq markLost (markLost x), fun k other => State.ctx_unlisted_ne _ _ _ other⟩
  · refine (execConnectionLost_eq conn s).trans (congrArg _ (State.each_range_eq_single small
      (State.loseAt_of_single small waits idle others mine unsealed alone) fun k bound other => ⟨State.loseAt_of_none ?_, State.loseAt_of_none ?_⟩))
    · simp [others k bound other]
    · simp [elsewhere k other, others k bound other]
  · have marked : (s.modReq n x.seq markLost).svc n = { s.svc n with waiting := [markLost x] } := by
      rw [State.modReq, State.svc_modSvc_same, waits, idle]
      simp [idle]
    rw [State.svc_unlisted_of_single _ n (markLost x) (by rw [marked]) rfl (by rw [marked, idle]), marked]

end Sys2Proof.Machine
end

section
/-! PROOF. What a block of the module writes to memory while no buffer and no merge holds a row (13 R308), and the sealing of step entries (15 R229, R230, R366, R376). -/

namespace Sys2Proof.Machine

/-! ### Servers after a change -/

theorem State.server_setServer (s : State) (v w : Server) (m : MemServer) : (s.setServer v m).server w = if w = v then m else s.server w := by
  cases v with
  | stack h =>
    cases w with
    | stack k =>
      by_cases same : k = h
      · subst same
        rw [if_pos rfl]
        exact Tbl.get_put_same ..
      · rw [if_neg (by simpa using same)]
        exact Tbl.get_put_other _ _ _ _ _ _ same
    | channel c => rw [if_neg (by simp)]; rfl
  | channel c =>
    cases w with
    | stack k => rw [if_neg (by simp)]; rfl
    | channel k =>
      by_cases same : k = c
      · subst same
        rw [if_pos rfl]
        exact Tbl.get_put_same ..
      · rw [if_neg (by simpa using same)]
        exact Tbl.get_put_other _ _ _ _ _ _ same

/-! ### Where only memory and the jobs' prepared contexts differ -/

/-- From one state with quiet memory to another, nothing but memory, its servers and the contexts that jobs have prepared differs. -/
structure State.onlyRows (s t : State) : Prop where
  frame : t = { s with hbm := t.hbm, ddr := t.ddr, hbms := t.hbms, channels := t.channels, jobs := t.jobs }
  quiet : t.quietMemory
  headers : ∀ q, (t.job q).map Job.hdr = (s.job q).map Job.hdr

namespace State.onlyRows

theorem refl {s : State} (quiet : s.quietMemory) : s.onlyRows s := ⟨rfl, quiet, fun _ => rfl⟩

theorem trans {s t u : State} (h : s.onlyRows t) (g : t.onlyRows u) : s.onlyRows u :=
  ⟨g.frame.trans (by rw [h.frame]), g.quiet, fun q => (g.headers q).trans (h.headers q)⟩

theorem each {α : Type} {s : State} {xs : List α} {f : State → α → State} (quiet : s.quietMemory) (k : ∀ (t : State) x, t.quietMemory → t.onlyRows (f t x)) :
    s.onlyRows (s.each xs f) :=
  State.each_induction s.onlyRows (refl quiet) fun t x _ kept => kept.trans (k t x kept.quiet)

theorem setServer {s : State} (quiet : s.quietMemory) (v : Server) {m : MemServer} (buffer : m.wbuf = []) (merges : m.merges = []) :
    s.onlyRows (s.setServer v m) := by
  refine ⟨?_, fun w => ?_, fun q => ?_⟩
  · cases v <;> rfl
  · rw [State.server_setServer]
    split
    · exact ⟨buffer, merges⟩
    · exact quiet w
  · cases v <;> rfl

theorem setHbm {s : State} (quiet : s.quietMemory) (h : Tbl Codeword) : s.onlyRows (s.setHbm h) := ⟨rfl, quiet, fun _ => rfl⟩
theorem setDdr {s : State} (quiet : s.quietMemory) (d : Tbl (BitVec 640)) : s.onlyRows (s.setDdr d) := ⟨rfl, quiet, fun _ => rfl⟩

theorem dropHeld {s : State} (quiet : s.quietMemory) (v : Server) (rows : List Nat) : s.onlyRows (s.dropHeld v rows) :=
  setServer quiet v (quiet v).1 (quiet v).2

theorem putRow {s : State} (quiet : s.quietMemory) (v : Server) (row : Nat) (d : Row) : s.onlyRows (s.putRow v row d) := by
  cases v with
  | stack h => exact setHbm quiet _
  | channel c => exact setDdr quiet _

end State.onlyRows

/-! ### A row written (R308) -/

theorem State.closeOverlap_of_quiet {s : State} (quiet : s.quietMemory) (v : Server) (rows : List Nat) : s.closeOverlap v rows = s := by
  rw [State.closeOverlap, (quiet v).2, List.foldl_nil]

/-- With no buffer in the way, a row goes to its memory at once. -/
theorem State.ringWrite_of_quiet {s : State} (quiet : s.quietMemory) (ddr : Bool) (row : Nat) (d : Row) :
    s.ringWrite ddr row d = (s.dropHeld (s.rowServer ddr row) [row]).putRow (s.rowServer ddr row) row d := by
  have unbuffered : ((s.dropHeld (s.rowServer ddr row) [row]).server (s.rowServer ddr row)).wbuf = [] :=
    ((State.onlyRows.dropHeld quiet _ _).quiet _).1
  simp only [State.ringWrite, State.closeOverlap_of_quiet quiet, unbuffered, List.any_nil, Bool.false_eq_true, if_false]

theorem State.onlyRows.ringWrite {s : State} (quiet : s.quietMemory) (ddr : Bool) (row : Nat) (d : Row) : s.onlyRows (s.ringWrite ddr row d) := by
  rw [State.ringWrite_of_quiet quiet]
  have dropped := State.onlyRows.dropHeld quiet (s.rowServer ddr row) [row]
  exact dropped.trans (.putRow dropped.quiet ..)

theorem State.onlyRows.ringPut {s : State} (quiet : s.quietMemory) (ddr : Bool) (row k v : Nat) : s.onlyRows (s.ringPut ddr row k v) := by
  induction k generalizing s row v with
  | zero => exact refl quiet
  | succ k ih =>
    have first := State.onlyRows.ringWrite quiet ddr row (BitVec.ofNat 256 v)
    exact first.trans (ih first.quiet _ _)

theorem State.hbm_ringWrite {s : State} (quiet : s.quietMemory) (row : Nat) (d : Row) (j : Nat) :
    Tbl.get (s.ringWrite false row d).hbm 0 j = if j = row then encodeRow d else Tbl.get s.hbm 0 j := by
  rw [State.ringWrite_of_quiet quiet]
  exact State.hbm_putHbm ..

/-- An HBM row after `k` rows of a word are written from `row`. -/
theorem State.hbm_ringPut {s : State} (quiet : s.quietMemory) (row k v j : Nat) : Tbl.get (s.ringPut false row k v).hbm 0 j =
    if row ≤ j ∧ j < row + k then encodeRow (BitVec.ofNat 256 (v / 2 ^ (256 * (j - row)))) else Tbl.get s.hbm 0 j := by
  induction k generalizing s row v with
  | zero =>
    rw [if_neg (by omega)]
    rfl
  | succ k ih =>
    have first := State.onlyRows.ringWrite quiet false row (BitVec.ofNat 256 v)
    rw [State.ringPut, ih first.quiet, State.hbm_ringWrite quiet]
    obtain before | rfl | after := lt_trichotomy j row
    · rw [if_neg (by omega), if_neg (by omega), if_neg (by omega)]
    · rw [if_neg (by omega), if_pos rfl, if_pos (by omega), Nat.sub_self, Nat.mul_zero, Nat.pow_zero, Nat.div_one]
    · have shift : 256 * (j - row) = 256 + 256 * (j - (row + 1)) := by omega
      rw [if_neg (show ¬ j = row by omega), Nat.div_div_eq_div_mul, ← Nat.pow_add, ← shift]
      exact if_congr (by omega) rfl rfl

/-! ### Commit words zeroed before a context runs in another job (R265) -/

theorem State.onlyRows.zeroRows {s : State} (quiet : s.quietMemory) (ddr : Bool) (row n : Nat) : s.onlyRows (s.zeroRows ddr row n) := by
  have emptied {t : State} (still : t.quietMemory) (v : Server) (rows : List Nat) (keep : Nat × Row → Bool) :
      t.onlyRows (((t.closeOverlap v rows).dropHeld v rows).modServer v (fun m => { m with wbuf := m.wbuf.filter keep })) := by
    rw [State.closeOverlap_of_quiet still]
    have dropped := dropHeld still v rows
    refine dropped.trans (setServer dropped.quiet v ?_ (dropped.quiet v).2)
    show ((t.dropHeld v rows).server v).wbuf.filter keep = []
    rw [(dropped.quiet v).1, List.filter_nil]
  have servers (vs : List Server) (rows : List Nat) (keep : Nat × Row → Bool) : s.onlyRows (s.each vs (fun t v =>
      ((t.closeOverlap v rows).dropHeld v rows).modServer v (fun m => { m with wbuf := m.wbuf.filter keep }))) :=
    each quiet fun t v still => emptied still v rows keep
  unfold State.zeroRows
  dsimp only
  split_ifs
  · exact (servers ..).trans ((setDdr (servers ..).quiet _).trans (each (servers ..).quiet fun t r still => ringWrite still ..))
  · exact (servers ..).trans (setHbm (servers ..).quiet _)

theorem State.onlyRows.modJob {s : State} (quiet : s.quietMemory) (q : Nat) {f : Job → Job} (header : ∀ j, (f j).hdr = j.hdr) : s.onlyRows (s.modJob q f) := by
  unfold State.modJob
  split
  · next j found =>
    refine ⟨rfl, quiet, fun k => ?_⟩
    by_cases same : k = q
    · subst same
      rw [found, State.setJob, State.job, Tbl.get_put_same, Option.map_some, Option.map_some, header]
    · rw [State.setJob, State.job, Tbl.get_put_other _ _ _ _ _ _ same, State.job]
  · exact refl quiet

theorem State.onlyRows.prepareCtx {s : State} (quiet : s.quietMemory) (q slot : Nat) : s.onlyRows (s.prepareCtx q slot) := by
  unfold State.prepareCtx
  dsimp only
  split_ifs
  · exact refl quiet
  · exact (zeroRows quiet ..).trans (modJob (zeroRows quiet ..).quiet q fun _ => rfl)

/-! ### A step entry written (R229) -/

theorem State.onlyRows.writeEntry {s : State} (quiet : s.quietMemory) (q key lanes list : Nat) : s.onlyRows (s.writeEntry q key lanes list) := by
  unfold State.writeEntry
  split
  · exact refl quiet
  · exact ringPut quiet ..

/-- The entry stands in the ring of the job once it is written. -/
theorem State.entryWritten_writeEntry {s : State} (quiet : s.quietMemory) {q : Nat} (key lanes list : Nat) {j k : Job} (loaded : s.job q = some k)
    (header : k.hdr = j.hdr) : (s.writeEntry q key lanes list).entryWritten q key lanes list j := by
  intro i small
  have place (offset : Nat) : (s.writeEntry q key lanes list).winRow q offset = s.winRow q offset := by
    rw [(State.onlyRows.writeEntry quiet q key lanes list).frame]
    rfl
  rw [place, State.writeEntry, loaded, ← header]
  dsimp only
  rw [State.hbm_ringPut quiet, if_pos (by omega), Nat.add_sub_cancel_left]

end Sys2Proof.Machine
end

section
/-! PROOF. ENTRY_SEAL and VISION_TICK_SEAL (15 R229, R230, R366, R375, R376). -/

namespace Sys2Proof.Machine

/-! ### What a service that seals has written -/

namespace State.onlyRows

variable {s t : State} (h : s.onlyRows t)
include h

theorem svcs : t.svcs = s.svcs := by rw [h.frame]
theorem sent : t.sent = s.sent := by rw [h.frame]
theorem ctxs : t.ctxs = s.ctxs := by rw [h.frame]
theorem regs : t.regs = s.regs := by rw [h.frame]

theorem job {q : Nat} {j : Job} (loaded : s.job q = some j) : ∃ k, t.job q = some k ∧ k.hdr = j.hdr := by
  have header := h.headers q
  rw [loaded, Option.map_some] at header
  exact Option.map_eq_some_iff.1 header

end State.onlyRows

/-- Rows are written, then the step entry of a key, then the service notes it: the entry stands in the ring, and beside memory and the service nothing differs. -/
theorem State.onlyRows.sealed {s u : State} (h : s.onlyRows u) {q : Nat} (key lanes list n : Nat) (f : Service → Service) {j : Job} (loaded : s.job q = some j) :
    ((u.writeEntry q key lanes list).modSvc n f).entryWritten q key lanes list j ∧ ((u.writeEntry q key lanes list).modSvc n f).sent = s.sent ∧
      ((u.writeEntry q key lanes list).modSvc n f).ctxs = s.ctxs ∧ ((u.writeEntry q key lanes list).modSvc n f).regs = s.regs ∧
      ((u.writeEntry q key lanes list).modSvc n f).svc n = f (s.svc n) := by
  obtain ⟨k, there, header⟩ := h.job loaded
  have all := h.trans (.writeEntry h.quiet q key lanes list)
  refine ⟨State.entryWritten_writeEntry h.quiet key lanes list there header, all.sent, all.ctxs, all.regs, ?_⟩
  rw [State.svc_modSvc_same, State.svc_congr all.svcs]

/-! ### ENTRY_SEAL (R230, R366, R375) -/

theorem execEntrySeal_of_idle {s : State} {n : Nat} (idle : s.obj (0x9100 + n) 0 ≠ 2 ∨ s.svcVal n 1 ≠ 1 ∨ s.jobRuns (s.svcPart n) = false) :
    exec (.entrySeal n) s = .next s := by
  have skips : s.svcState n ≠ svRunning ∨ s.svcVal n 1 ≠ 1 ∨ (!s.jobRuns (s.svcPart n)) = true := by simpa [State.svcState] using idle
  exact congrArg Host.Outcome.next (if_pos skips)

/-- A request alone within the limits is admitted. -/
theorem State.admitReqs_of_single {s : State} {n budget : Nat} {x : SvcReq} (waits : (s.svc n).waiting = [x]) (lanes : 1 ≤ s.svcVal n 5)
    (fits : min (s.svcVal n 7) x.tokens.length ≤ budget) : s.admitReqs n [x] [] budget = [x] := by
  have lane : ¬ (([] : List SvcReq).length + 1 > s.svcVal n 5 ∨ min (s.svcVal n 7) x.tokens.length > budget) := by
    rintro (tooMany | tooLong)
    · exact absurd lanes (not_le.2 tooMany)
    · exact absurd fits (not_le.2 tooLong)
  simp only [State.admitReqs, if_neg lane, waits]
  simp

theorem chunksOf_single {chunk budget : Nat} {x : SvcReq} (fits : min chunk x.tokens.length ≤ budget) :
    chunksOf chunk budget [x] = [min chunk x.tokens.length] := by
  simp only [chunksOf, Nat.min_eq_left fits]

/-- The lanes of a service's next entry: the active requests that go on, then the waiting ones admitted. -/
def State.nextLanes (s : State) (n : Nat) : List SvcReq :=
  let v := s.svc n
  let goOn := (v.lanes.filterMap (fun i => v.active.find? (fun r => r.seq == i))).filter (fun r => r.leave.isNone && (r.gen || !r.tokens.isEmpty))
  s.admitReqs n ((v.waiting.filter (fun r => r.leave.isNone)).foldr (fun x acc => s.insertReq x acc) []) goOn
    (s.svcVal n 6 - (chunksOf (s.svcVal n 7) (s.svcVal n 6) goOn).sum)

/-- The token list and the input record of lane `e.2`, whose request `e.1.1` appends `e.1.2` tokens, are written. -/
def State.writeLane (s : State) (n q key : Nat) (e : (SvcReq × Nat) × Nat) : State :=
  let off := 32 * Config.tokenListAt n key e.2
  let t := (s.prepareCtx q e.1.1.slot).ringPut false (s.winRow q off) ((4 * e.1.2 + 31) / 32) (packWords 32 (e.1.1.tokens.take e.1.2))
  t.ringPut false (t.winRow q (t.svcVal n 3 + 64 * (8192 * (key % 2) + e.2))) 2 (inputRecord e.1.1 e.1.2 off)

/-- The records of every lane and the lane list are written. -/
def State.writeLanes (s : State) (n key : Nat) (lanes : List SvcReq) : State :=
  let q := s.svcPart n
  let t := s.each (lanes.zip (chunksOf (s.svcVal n 7) (s.svcVal n 6) lanes)).zipIdx (fun t e => t.writeLane n q key e)
  t.ringPut false (t.winRow q (32 * Config.laneListAt n key)) ((4 * lanes.length + 31) / 32) (packWords 32 (lanes.map (·.slot)))

/-- What a service notes when it seals an entry: its lanes are active, without the tokens that the entry appends, `ks` for each. -/
def Service.sealLanes (v : Service) (key : Nat) (lanes : List SvcReq) (ks : List Nat) : Service :=
  { v with
    waiting := v.waiting.filter (fun r => !lanes.any (fun x => x.seq == r.seq)),
    active := v.active.filter (fun r => !lanes.any (fun x => x.seq == r.seq)) ++ (lanes.zip ks).map (fun e =>
      { e.1 with tokens := e.1.tokens.drop e.2, sample := e.1.sample && !(e.1.tokens.drop e.2).isEmpty, lastKey := some key }),
    lanes := lanes.map (·.seq), sealed := v.sealed ++ [(key, lanes.map (·.seq))], nextKey := some (key + 1) }

/-- ENTRY_SEAL of a running language service: the lanes' records, then the entry, then the service. -/
theorem execEntrySeal_of_running {s : State} {n : Nat} (running : s.obj (0x9100 + n) 0 = 2) (language : s.svcVal n 1 = 1)
    (runs : s.jobRuns (s.svcPart n) = true) :
    exec (.entrySeal n) s = .next (((s.writeLanes n (s.entryKey n) (s.nextLanes n)).writeEntry (s.svcPart n) (s.entryKey n) (s.nextLanes n).length
      (32 * Config.laneListAt n (s.entryKey n))).modSvc n (fun v =>
        v.sealLanes (s.entryKey n) (s.nextLanes n) (chunksOf (s.svcVal n 7) (s.svcVal n 6) (s.nextLanes n)))) := by
  have acts : ¬ (s.svcState n ≠ svRunning ∨ s.svcVal n 1 ≠ 1 ∨ (!s.jobRuns (s.svcPart n)) = true) := by simp [State.svcState, running, language, runs]
  exact congrArg Host.Outcome.next (if_neg acts)

theorem State.onlyRows.writeLane {s : State} (quiet : s.quietMemory) (n q key : Nat) (e : (SvcReq × Nat) × Nat) : s.onlyRows (s.writeLane n q key e) := by
  have prepared := State.onlyRows.prepareCtx quiet q e.1.1.slot
  have tokens (row k v : Nat) := prepared.trans (.ringPut prepared.quiet false row k v)
  exact (tokens ..).trans (.ringPut (tokens ..).quiet ..)

theorem State.onlyRows.writeLanes {s : State} (quiet : s.quietMemory) (n key : Nat) (lanes : List SvcReq) : s.onlyRows (s.writeLanes n key lanes) := by
  have written : s.onlyRows (s.each _ (fun t e => t.writeLane n (s.svcPart n) key e)) :=
    each quiet (xs := (lanes.zip (chunksOf (s.svcVal n 7) (s.svcVal n 6) lanes)).zipIdx) fun t e still => writeLane still ..
  exact written.trans (.ringPut written.quiet ..)

theorem State.nextLanes_of_single {s : State} {n : Nat} {x : SvcReq} (waits : (s.svc n).waiting = [x]) (empty : (s.svc n).lanes = [])
    (stays : x.leave = none) (lanes : 1 ≤ s.svcVal n 5) (fits : min (s.svcVal n 7) x.tokens.length ≤ s.svcVal n 6) : s.nextLanes n = [x] := by
  have order : ([x].filter (fun r => r.leave.isNone)).foldr (fun x acc => s.insertReq x acc) [] = [x] := by simp [stays, State.insertReq]
  simp only [State.nextLanes, waits, empty, List.filterMap_nil, List.filter_nil, order, chunksOf, List.sum_nil, Nat.sub_zero]
  exact State.admitReqs_of_single waits lanes fits

theorem Service.sealLanes_of_single {v : Service} {x : SvcReq} (waits : v.waiting = [x]) (idle : v.active = []) (key k : Nat) : v.sealLanes key [x] [k] =
    { v with waiting := [], lanes := [x.seq], sealed := v.sealed ++ [(key, [x.seq])], nextKey := some (key + 1),
             active := [{ x with tokens := x.tokens.drop k, sample := x.sample && !(x.tokens.drop k).isEmpty, lastKey := some key }] } := by
  simp [Service.sealLanes, waits, idle]

theorem execEntrySeal_of_single {s : State} {n q key k : Nat} {j : Job} {x : SvcReq} (running : s.obj (0x9100 + n) 0 = 2) (language : s.svcVal n 1 = 1)
    (part : q = s.svcPart n) (runs : s.jobRuns q = true) (loaded : s.job q = some j) (next : key = s.entryKey n) (quiet : s.quietMemory)
    (waits : (s.svc n).waiting = [x]) (idle : (s.svc n).active = []) (empty : (s.svc n).lanes = []) (stays : x.leave = none) (lanes : 1 ≤ s.svcVal n 5)
    (chunk : k = min (s.svcVal n 7) x.tokens.length) (fits : k ≤ s.svcVal n 6) :
    ∃ t, exec (.entrySeal n) s = .next t ∧ t.entryWritten q key 1 (32 * Config.laneListAt n key) j ∧ t.sent = s.sent ∧ t.ctxs = s.ctxs ∧ t.regs = s.regs ∧
      t.svc n = { s.svc n with waiting := [], lanes := [x.seq], sealed := (s.svc n).sealed ++ [(key, [x.seq])], nextKey := some (key + 1), active := [{ x with tokens := x.tokens.drop k, sample := x.sample && !(x.tokens.drop k).isEmpty, lastKey := some key }] } := by
  subst part next chunk
  have all := State.nextLanes_of_single waits empty stays lanes fits
  obtain ⟨entry, sent, ctxs, regs, noted⟩ := (State.onlyRows.writeLanes quiet n (s.entryKey n) [x]).sealed (s.entryKey n) [x].length (32 * Config.laneListAt n (s.entryKey n)) n
    (fun v => v.sealLanes (s.entryKey n) [x] (chunksOf (s.svcVal n 7) (s.svcVal n 6) [x])) loaded
  refine ⟨_, (execEntrySeal_of_running running language runs).trans (by rw [all]), entry, sent, ctxs, regs, noted.trans ?_⟩
  rw [chunksOf_single fits, Service.sealLanes_of_single waits idle]

/-! ### VISION_TICK_SEAL (R376) -/

theorem execVisionTickSeal_of_idle {s : State} {n tick : Nat} (idle : s.obj (0x9100 + n) 0 ≠ 2 ∨ s.svcVal n 1 ≠ 2 ∨ s.jobRuns (s.svcPart n) = false) :
    exec (.visionTickSeal n tick) s = .next s := by
  have skips : s.svcState n ≠ svRunning ∨ s.svcVal n 1 ≠ 2 ∨ (!s.jobRuns (s.svcPart n)) = true := by simpa [State.svcState] using idle
  exact congrArg Host.Outcome.next (if_pos skips)

theorem execVisionTickSeal_places {s : State} {n tick q : Nat} {j : Job} (running : s.obj (0x9100 + n) 0 = 2) (vision : s.svcVal n 1 = 2)
    (part : q = s.svcPart n) (runs : s.jobRuns q = true) (loaded : s.job q = some j) (quiet : s.quietMemory) :
    ∃ t, exec (.visionTickSeal n tick) s = .next t ∧ t.entryWritten q tick 0 0 j ∧ t.sent = s.sent ∧ t.ctxs = s.ctxs ∧ t.regs = s.regs ∧
      t.svc n = { s.svc n with sealed := (s.svc n).sealed ++ [(tick, [])],
                               frames := (s.svc n).frames.map (fun f => if f.tick.isNone && f.stream % s.svcGroups n == tick % s.svcGroups n then
                                 { f with tick := some tick } else f) } := by
  subst part
  have acts : ¬ (s.svcState n ≠ svRunning ∨ s.svcVal n 1 ≠ 2 ∨ (!s.jobRuns (s.svcPart n)) = true) := by simp [State.svcState, running, vision, runs]
  have placed (fs : List SvcFrame) (g : Nat) : s.onlyRows (s.each fs (fun t f =>
      t.ringPut false (t.winRow (s.svcPart n) (t.svcVal n 0xB + t.svcVal n 0xC * visionIndex g tick f.stream)) (f.bytes.length / 32) (leNat f.bytes))) :=
    .each quiet fun t f still => .ringPut still ..
  exact ⟨_, congrArg Host.Outcome.next (if_neg acts), (placed ..).sealed tick 0 0 n _ loaded⟩

end Sys2Proof.Machine
end

section
/-! PROOF. Reads of HBM that correct nothing, and messages of the compute die to the serving firmware (13 R312, R316; 15 R359, R362). -/

namespace Sys2Proof.Machine

/-! ### Reads that change nothing (R312, R316) -/

/-- The data that a read of an HBM row finds without a correction. -/
def State.cleanRow (s : State) (row : Nat) : Option Row :=
  match (s.server (s.rowServer false row)).wbuf.reverse.find? (fun w => w.1 == row) with
  | some w => some w.2
  | none =>
    if isTableRow row then some (s.tableRow row)
    else match decodeWord (Tbl.get s.hbm 0 row) with
      | .clean d => some d
      | _ => none

theorem State.ringRead_of_clean {s : State} {row : Nat} {d : Row} (q : Option Nat) (clean : s.cleanRow row = some d) :
    s.ringRead false row q = (s, some d) := by
  have server : s.rowServer false row = .stack (hbmStack (32 * row)) := rfl
  rw [State.cleanRow, server] at clean
  rw [State.ringRead, server, State.readMem]
  cases buffered : (s.server (.stack (hbmStack (32 * row)))).wbuf.reverse.find? (fun w => w.1 == row) with
  | some w =>
    rw [buffered] at clean
    exact congrArg (Prod.mk s) clean
  | none =>
    rw [buffered] at clean
    dsimp only at clean ⊢
    by_cases table : isTableRow row = true
    · rw [if_pos table] at clean ⊢
      exact congrArg (Prod.mk s) clean
    rw [if_neg table] at clean ⊢
    cases read : decodeWord (Tbl.get s.hbm 0 row) with
    | clean e =>
      rw [read] at clean
      exact congrArg (Prod.mk s) clean
    | corrected e =>
      rw [read] at clean
      exact absurd clean (by simp)
    | bad =>
      rw [read] at clean
      exact absurd clean (by simp)

theorem State.sent_retireBank (s : State) (v : Server) (b : Nat) : (s.retireBank v b).sent = s.sent := by
  unfold State.retireBank
  split
  · rfl
  · cases v with
    | stack h =>
      simp only [apply_ite State.sent, State.setObj_sent, ite_self]
      rfl
    | channel c => rfl

theorem State.sent_retireRow (s : State) (v : Server) (b r : Nat) : (s.retireRow v b r).sent = s.sent := by
  have server (f : MemServer → MemServer) : (s.modServer v f).sent = s.sent := by cases v <;> rfl
  unfold State.retireRow
  dsimp only
  split_ifs
  · rfl
  · exact State.sent_retireBank ..
  · exact (State.sent_retireBank ..).trans (server _)
  · exact server _

theorem State.sent_trackCorrection (s : State) (v : Server) (b r : Nat) : (s.trackCorrection v b r).sent = s.sent := by
  have server (f : MemServer → MemServer) : (s.modServer v f).sent = s.sent := by cases v <;> rfl
  unfold State.trackCorrection
  dsimp only
  split
  · simp only [apply_ite State.sent, State.sent_retireRow, server, ite_self]
  · split_ifs
    · exact server _
    · split
      · exact server _
      · rfl

theorem State.length_sent_corrected (s : State) (v : Server) (row n : Nat) (d : Row) : (s.corrected v row n d).sent.length = s.sent.length + 1 := by
  unfold State.corrected
  refine State.each_induction (·.sent.length = s.sent.length + 1) ?_ fun t _ _ kept => by rw [State.sent_trackCorrection, kept]
  split_ifs
  · rfl
  · cases v <;> rfl

/-- A read of an HBM row that does not find it clean reports. -/
theorem State.length_sent_ringRead_of_unclean {s : State} {row : Nat} (q : Option Nat) (unclean : s.cleanRow row = none) :
    (s.ringRead false row q).1.sent.length = s.sent.length + 1 := by
  have server : s.rowServer false row = .stack (hbmStack (32 * row)) := rfl
  rw [State.cleanRow, server] at unclean
  rw [State.ringRead, server, State.readMem]
  cases buffered : (s.server (.stack (hbmStack (32 * row)))).wbuf.reverse.find? (fun w => w.1 == row) with
  | some w =>
    rw [buffered] at unclean
    exact absurd unclean (by simp)
  | none =>
    rw [buffered] at unclean
    dsimp only at unclean ⊢
    by_cases table : isTableRow row = true
    · rw [if_pos table] at unclean
      exact absurd unclean (by simp)
    rw [if_neg table] at unclean ⊢
    cases read : decodeWord (Tbl.get s.hbm 0 row) with
    | clean e =>
      rw [read] at unclean
      exact absurd unclean (by simp)
    | corrected e => exact State.length_sent_corrected ..
    | bad => rfl

theorem State.length_sent_ringRead_le (s : State) (row : Nat) (q : Option Nat) : s.sent.length ≤ (s.ringRead false row q).1.sent.length := by
  cases found : s.cleanRow row with
  | some d => rw [State.ringRead_of_clean q found]
  | none => rw [State.length_sent_ringRead_of_unclean q found]; exact Nat.le_succ _

theorem State.length_sent_ringWord_le (s : State) (row k : Nat) (q : Option Nat) : s.sent.length ≤ (s.ringWord false row q k).1.sent.length := by
  induction k generalizing s row with
  | zero => exact le_rfl
  | succ k ih =>
    have first := s.length_sent_ringRead_le row q
    simp only [State.ringWord]
    split
    · next read => rwa [read] at first
    · next s1 d read =>
      rw [read] at first
      have rest := first.trans (ih s1 (row + 1))
      split
      · next word => rwa [word] at rest
      · next word => rwa [word] at rest

/-- The state with other credits of the UCIe modules and other messages sent, as after a message of the compute die. -/
def State.received (s : State) (credits : Tbl Ucie) (sent : List Msg) : State := { s with ucies := credits, sent := sent }

section Received
variable (s : State) (credits : Tbl Ucie) (sent : List Msg)

@[simp] theorem State.obj_received (i j e : Nat) : (s.received credits sent).obj i j e = s.obj i j e := rfl
@[simp] theorem State.svcPart_received (n : Nat) : (s.received credits sent).svcPart n = s.svcPart n := rfl

end Received

/-- A word whose reading changes nothing is clean in every row, and so reads the same where only messages and credits differ. -/
theorem State.ringWord_congr_of_unchanged {s : State} {row k v : Nat} {q : Option Nat} (unchanged : s.ringWord false row q k = (s, some v))
    (credits : Tbl Ucie) (sent : List Msg) :
    (s.received credits sent).ringWord false row q k = (s.received credits sent, some v) := by
  induction k generalizing row v with
  | zero =>
    simp only [State.ringWord, Prod.mk.injEq, true_and] at unchanged ⊢
    exact unchanged
  | succ k ih =>
    cases found : s.cleanRow row with
    | none =>
      have longer := State.length_sent_ringRead_of_unclean q found
      have kept : (s.ringWord false row q (k + 1)).1.sent.length = s.sent.length := by rw [unchanged]
      simp only [State.ringWord] at kept
      split at kept
      · next read => rw [read] at longer; omega
      · next s1 d read =>
        rw [read] at longer
        have rest := s1.length_sent_ringWord_le (row + 1) k q
        split at kept
        · next word => rw [word] at rest; exact absurd (rest.trans_eq kept) (by rw [longer]; omega)
        · next word => rw [word] at rest; exact absurd (rest.trans_eq kept) (by rw [longer]; omega)
    | some d =>
      have there : (s.received credits sent).cleanRow row = some d := found
      simp only [State.ringWord, State.ringRead_of_clean q found, State.ringRead_of_clean q there] at unchanged ⊢
      split at unchanged
      · next s2 w word =>
        obtain ⟨rfl, value⟩ := Prod.mk.inj unchanged
        rw [ih word]
        exact congrArg _ value
      · exact absurd (Prod.mk.inj unchanged).2 (by simp)

/-! ### A message of the compute die is received (R359, R362) -/

theorem State.onDtl_of_sound {s : State} {d : DtlMsg} (sound : soundMsg d) (m : Nat) (up : Bool) (f : State → State) :
    s.onDtl m up d f = f (s.dtlIn m up d) := by
  obtain ⟨intact, shape⟩ := sound
  simp [State.onDtl, headerLost, intact, shape]

/-- A message towards the reeve die changes credits and messages alone. -/
theorem State.dtlIn_reeve (s : State) (m : Nat) (d : DtlMsg) :
    ∃ credits sent, s.dtlIn m false d = s.received credits sent := by
  have spent : ∃ credits, s.spend m false d = { s with ucies := credits } := by
    unfold State.spend
    dsimp only
    split
    all_goals exact ⟨_, rfl⟩
  obtain ⟨credits, spent⟩ := spent
  unfold State.dtlIn
  simp only [Bool.false_eq_true, if_false]
  split
  · rw [spent]
    exact ⟨_, _, rfl⟩
  · exact ⟨_, _, rfl⟩

theorem State.answerClosers_of_none {s : State} (none' : s.closers = []) : s.answerClosers = s := by
  simp only [State.answerClosers, none', List.filter_nil, State.each, List.foldl_nil]
  rw [← none']

end Sys2Proof.Machine
end

section
/-! PROOF. EVENT_BOUNDARY and EVENT_JOB_STATE (15 R365, R367, R368, R372, R373). -/

namespace Sys2Proof.Machine

/-! ### An output record (R367) -/

/-- A record whose reading changes nothing reads the same where only messages and credits differ. -/
theorem State.readOutput_congr_of_unchanged {s : State} {n step lane : Nat} {o : OutRecord} (unchanged : s.readOutput n step lane = (s, some o))
    (credits : Tbl Ucie) (sent : List Msg) :
    (s.received credits sent).readOutput n step lane = (s.received credits sent, some o) := by
  unfold State.readOutput at unchanged
  dsimp only at unchanged
  split at unchanged
  · exact absurd (Prod.mk.inj unchanged).2 (by simp)
  · next s1 v word =>
    obtain ⟨rfl, record⟩ := Prod.mk.inj unchanged
    have there := State.ringWord_congr_of_unchanged word credits sent
    unfold State.readOutput
    dsimp only
    split
    · next lost => exact absurd (Prod.mk.inj (lost.symm.trans there)).2 (by simp)
    · next u w found =>
      obtain ⟨rfl, value⟩ := Prod.mk.inj (found.symm.trans there)
      rw [Option.some.inj value]
      exact congrArg _ record

/-- The length and the position of a request's context follow its output record. -/
def State.recordTaken (s : State) (r : SvcReq) (o : OutRecord) : State :=
  (ruleCtxSetPosition (ctxWord 3 r.slot (o.length - 1) 0 0) { s with lens := Tbl.put s.lens 0 r.slot o.length }).1

section RecordTaken
variable (s : State) (r : SvcReq) (o : OutRecord)

theorem State.recordTaken_onlyContexts : State.onlyContexts { s with lens := Tbl.put s.lens 0 r.slot o.length } (s.recordTaken r o) :=
  .ruleCtxSetPosition ..

theorem State.recordTaken_sent : (s.recordTaken r o).sent = s.sent := (s.recordTaken_onlyContexts r o).sent
theorem State.recordTaken_svcs : (s.recordTaken r o).svcs = s.svcs := (s.recordTaken_onlyContexts r o).svcs
theorem State.recordTaken_closers : (s.recordTaken r o).closers = s.closers := (s.recordTaken_onlyContexts r o).closers
theorem State.recordTaken_length : Tbl.get (s.recordTaken r o).lens 0 r.slot = o.length := by
  rw [(s.recordTaken_onlyContexts r o).lens]
  exact Tbl.get_put_same ..

end RecordTaken

/-! ### EVENT_BOUNDARY (R365, R367, R372) -/

/-- EVENT_BOUNDARY at one service of the partition. -/
def State.boundaryAt (s : State) (d : DtlMsg) (n : Nat) : State :=
  let t := if s.svcVal n 1 = 2 then s.each ((s.svc n).sealed.map (·.1)) (fun u k => u.tickDone n k)
    else if fieldOf d.arg 8 8 = 2 then
      match (s.svc n).sealed.find? (fun e => e.1 == d.addr) with
      | none => s
      | some e =>
        let u := (e.2.zipIdx).foldl (fun u x => u.laneDone n d.addr x.2 x.1) s
        let u1 := u.modSvc n (fun v => { v with sealed := v.sealed.filter (fun x => decide (x.1 > d.addr)) })
        u1.each ((u1.svc n).active.filter (fun r => r.leave.isSome)) (fun w r => w.leaveReq n r)
    else s
  if (t.svc n).stopAt then t.stopNow n else t

theorem execEventBoundary_eq {s : State} {d : DtlMsg} (sound : soundMsg d) (m : Nat) : exec (.eventBoundary m d) s =
    .next (((s.dtlIn m false d).each (serviceNumbers.filter (fun n =>
      (s.dtlIn m false d).svcState n != svStopped && (s.dtlIn m false d).svcPart n == d.partition)) (fun t n => t.boundaryAt d n)).answerClosers) :=
  congrArg Host.Outcome.next (State.onDtl_of_sound sound m false _)

theorem execEventBoundary_of_no_service {s : State} {m : Nat} {d : DtlMsg} (sound : soundMsg d)
    (none' : ∀ n, n < 16 → s.obj (0x9100 + n) 0 = 0 ∨ s.svcPart n ≠ d.partition) (open' : s.closers = []) :
    exec (.eventBoundary m d) s = .next (s.dtlIn m false d) := by
  rw [execEventBoundary_eq sound]
  obtain ⟨credits, sent, received⟩ := s.dtlIn_reeve m d
  rw [received]
  refine congrArg Host.Outcome.next ?_
  rw [List.filter_eq_nil_iff.2 fun n mem => ?_]
  · exact State.answerClosers_of_none open'
  · obtain stopped | other := none' n (List.mem_range.1 mem)
    · simp [State.svcState, stopped]
    · simp [other]

/-- A done record ends its GENERATE with its tokens, its length and its reason. -/
theorem State.laneDone_of_done {s : State} {n step lane : Nat} {r : SvcReq} {o : OutRecord} (active : (s.svc n).active = [r])
    (read : s.readOutput n step lane = (s, some o)) (generates : r.gen = true) (done : bitOf o.flags 0 = true) (present : r.lost = false)
    (alone : r.askers = []) : s.laneDone n step lane r.seq = ((s.recordTaken r o).unlisted n r).final r.client r.reqId stOk
      [(5, .array o.tokens), (4, .uint o.length), (6, .uint (doneReason o.flags))] := by
  have found : [r].find? (fun x => x.seq == r.seq) = some r := List.find?_cons_of_pos (by simp)
  simp only [State.laneDone, active, found, read, generates, done, Bool.not_true, Bool.false_eq_true, if_false, if_true]
  exact State.endReq_of_present _ _ present alone

/-- The module once the sole request `r` of service `n` has ended with its done record. -/
def State.boundaryDone (s : State) (n step : Nat) (r : SvcReq) (o : OutRecord) : State :=
  (((s.recordTaken r o).unlisted n r).final r.client r.reqId stOk [(5, .array o.tokens), (4, .uint o.length), (6, .uint (doneReason o.flags))]).modSvc n
    (fun v => { v with sealed := v.sealed.filter (fun x => decide (x.1 > step)) })

theorem State.svc_boundaryDone {s : State} {n step : Nat} {r : SvcReq} (o : OutRecord) (sealed : (s.svc n).sealed = [(step, [r.seq])])
    (active : (s.svc n).active = [r]) (waits : (s.svc n).waiting = []) :
    (s.boundaryDone n step r o).svc n = { s.svc n with active := [], sealed := [] } := by
  rw [State.boundaryDone, State.svc_modSvc_same, State.svc_congr (State.final_svcs ..), State.svc_unlisted_same,
    State.svc_congr (s.recordTaken_svcs r o), sealed, active, waits]
  simp [waits]

theorem State.boundaryAt_of_done {s : State} {d : DtlMsg} {n : Nat} {r : SvcReq} {o : OutRecord} (language : s.svcVal n 1 = 1)
    (completes : fieldOf d.arg 8 8 = 2) (sealed : (s.svc n).sealed = [(d.addr, [r.seq])]) (active : (s.svc n).active = [r])
    (waits : (s.svc n).waiting = []) (goes : (s.svc n).stopAt = false) (generates : r.gen = true) (present : r.lost = false) (alone : r.askers = [])
    (read : s.readOutput n d.addr 0 = (s, some o)) (done : bitOf o.flags 0 = true) : s.boundaryAt d n = s.boundaryDone n d.addr r o := by
  have found : [(d.addr, [r.seq])].find? (fun e => e.1 == d.addr) = some (d.addr, [r.seq]) := List.find?_cons_of_pos (by simp)
  have after := State.svc_boundaryDone o sealed active waits
  have noted : (s.laneDone n d.addr 0 r.seq).modSvc n (fun v => { v with sealed := v.sealed.filter (fun x => decide (x.1 > d.addr)) }) =
      s.boundaryDone n d.addr r o := by rw [State.laneDone_of_done active read generates done present alone, State.boundaryDone]
  simp only [State.boundaryAt, language, completes, sealed, found, List.zipIdx_cons, List.zipIdx_nil, List.foldl_cons, List.foldl_nil, noted, after,
    List.filter_nil, State.each, goes, if_neg (show ¬ (1 = 2) by decide), if_true, Bool.false_eq_true, if_false]

theorem execEventBoundary_of_done {s : State} {m n : Nat} {d : DtlMsg} {r : SvcReq} {o : OutRecord} (sound : soundMsg d) (small : n < 16)
    (open' : s.closers = []) (runs : s.obj (0x9100 + n) 0 ≠ 0) (part : s.svcPart n = d.partition)
    (others : ∀ k, k < 16 → k ≠ n → s.obj (0x9100 + k) 0 = 0 ∨ s.svcPart k ≠ d.partition) (language : s.svcVal n 1 = 1)
    (completes : fieldOf d.arg 8 8 = 2) (sealed : (s.svc n).sealed = [(d.addr, [r.seq])]) (active : (s.svc n).active = [r])
    (waits : (s.svc n).waiting = []) (goes : (s.svc n).stopAt = false) (generates : r.gen = true) (present : r.lost = false) (alone : r.askers = [])
    (read : s.readOutput n d.addr 0 = (s, some o)) (done : bitOf o.flags 0 = true) :
    ∃ t u, exec (.eventBoundary m d) s = .next t ∧ u = s.dtlIn m false d ∧ (t.svc n).active = [] ∧ (t.svc n).sealed = [] ∧ Tbl.get t.lens 0 r.slot = o.length ∧
      t.sent = .response r.client [(0, .uint 0), (1, .uint r.reqId), (2, .uint stOk), (5, .array o.tokens), (4, .uint o.length),
        (6, .uint (doneReason o.flags))] :: u.sent := by
  obtain ⟨credits, sent, received⟩ := s.dtlIn_reeve m d
  refine ⟨(s.dtlIn m false d).boundaryDone n d.addr r o, _, ?_, rfl, ?_⟩
  · rw [execEventBoundary_eq sound, received, filter_range_eq_singleton small ?mine ?theirs]
    · refine congrArg Host.Outcome.next ?_
      have ended : (s.received credits sent).boundaryAt d n = _ :=
        State.boundaryAt_of_done language completes sealed active waits goes generates present alone (State.readOutput_congr_of_unchanged read credits sent) done
      show ((s.received credits sent).boundaryAt d n).answerClosers = _
      rw [ended, State.answerClosers_of_none]
      rw [State.boundaryDone, State.modSvc_closers, State.final_closers, State.unlisted_closers, State.recordTaken_closers]
      exact open'
    case mine => simp [State.svcState, runs, part]
    case theirs =>
      intro k bound other
      obtain stopped | away := others k bound other
      · simp [State.svcState, stopped]
      · simp [away]
  · rw [received]
    have after : ((s.received credits sent).boundaryDone n d.addr r o).svc n = { s.svc n with active := [], sealed := [] } :=
      State.svc_boundaryDone o sealed active waits
    refine ⟨by rw [after], by rw [after], ?_, ?_⟩
    · rw [State.boundaryDone, State.modSvc_lens, State.final_lens, State.unlisted_lens, State.recordTaken_length]
    · rw [State.boundaryDone, State.modSvc_sent, State.final_sent, State.unlisted_sent, State.recordTaken_sent]
      rfl

/-! ### EVENT_JOB_STATE (R365, R368) -/

/-- EVENT_JOB_STATE at one service that starts or recovers. -/
def State.jobStateAt (s : State) (m : Nat) (d : DtlMsg) (n : Nat) : State :=
  if fieldOf d.arg 8 8 = jsWaiting ∨ fieldOf d.arg 8 8 = jsStepping then
    let t := (s.setObj (0x9100 + n) 0 0 svRunning).modSvc n (fun v => { v with nextKey := none, sealed := [] })
    let u := t.modSvc n (fun v => { v with latch := none })
    if (t.svc n).latch = some 0 then (u.stopSvc n).1 else u
  else if fieldOf d.arg 8 8 = jsNone ∧ s.svcState n = svRecovering then s.reloadJob m d.partition
  else s

theorem execEventJobState_eq {s : State} {d : DtlMsg} (sound : soundMsg d) (m : Nat) : exec (.eventJobState m d) s =
    .next (((s.dtlIn m false d).each (serviceNumbers.filter (fun n =>
      ((s.dtlIn m false d).svcState n == svStarting || (s.dtlIn m false d).svcState n == svRecovering) && (s.dtlIn m false d).svcPart n == d.partition))
        (fun t n => t.jobStateAt m d n)).answerClosers) :=
  congrArg Host.Outcome.next (State.onDtl_of_sound sound m false _)

theorem State.setObj_modSvc_frame (s : State) (i j e v n : Nat) (f g : Service → Service) : ((s.setObj i j e v).modSvc n f).modSvc n g =
    { s with regs := (((s.setObj i j e v).modSvc n f).modSvc n g).regs, svcs := (((s.setObj i j e v).modSvc n f).modSvc n g).svcs } := rfl

/-- A service runs once its job does. -/
def State.svcRuns (s : State) (n : Nat) : State :=
  ((s.setObj (0x9100 + n) 0 0 svRunning).modSvc n (fun v => { v with nextKey := none, sealed := [] })).modSvc n (fun v => { v with latch := none })

section SvcRuns
variable (s : State) (n : Nat)

theorem State.svcRuns_regs : (s.svcRuns n).regs = (s.setObj (0x9100 + n) 0 0 svRunning).regs := by
  rw [State.svcRuns, State.modSvc_regs, State.modSvc_regs]

theorem State.svcRuns_state : (s.svcRuns n).obj (0x9100 + n) 0 = 2 :=
  (State.obj_congr (s.svcRuns_regs n) _ _ _).trans (State.obj_setObj_same ..)

theorem State.svcRuns_sameRegs : s.sameRegs (s.svcRuns n) [okey (0x9100 + n) 0 0] :=
  State.sameRegs_congr (State.sameRegs_setObj _ _ _ _ (s.sameRegs_refl _) List.mem_cons_self) (s.svcRuns_regs n)

theorem State.svcRuns_closers : (s.svcRuns n).closers = s.closers := by
  rw [State.svcRuns, State.modSvc_closers, State.modSvc_closers, State.setObj_closers]

theorem State.svcRuns_frame : s.svcRuns n = { s with regs := (s.svcRuns n).regs, svcs := (s.svcRuns n).svcs } := State.setObj_modSvc_frame ..

theorem State.svc_svcRuns {s : State} {n : Nat} (unlatched : (s.svc n).latch = none) :
    (s.svcRuns n).svc n = { s.svc n with nextKey := none, sealed := [] } := by
  rw [State.svcRuns, State.svc_modSvc_same, State.svc_modSvc_same, State.svc_congr (State.setObj_svcs ..)]
  simp [unlatched]

end SvcRuns

theorem State.jobStateAt_of_running {s : State} {m n : Nat} {d : DtlMsg} (works : fieldOf d.arg 8 8 = 2 ∨ fieldOf d.arg 8 8 = 3)
    (unlatched : (s.svc n).latch = none) : s.jobStateAt m d n = s.svcRuns n := by
  have latch : (((s.setObj (0x9100 + n) 0 0 svRunning).modSvc n (fun v => { v with nextKey := none, sealed := [] })).svc n).latch = none := by
    rw [State.svc_modSvc_same, State.svc_congr (State.setObj_svcs ..), unlatched]
  simp only [State.jobStateAt, if_pos works, latch, reduceCtorEq, if_false]
  rfl

theorem execEventJobState_of_running {s : State} {m n st : Nat} {d : DtlMsg} (sound : soundMsg d) (small : n < 16) (state : st = fieldOf d.arg 8 8)
    (works : st = 2 ∨ st = 3) (waits : s.obj (0x9100 + n) 0 = 1 ∨ s.obj (0x9100 + n) 0 = 3) (part : s.svcPart n = d.partition)
    (unlatched : (s.svc n).latch = none) (open' : s.closers = []) (others : ∀ k, k < 16 → k ≠ n → s.svcPart k ≠ d.partition) :
    ∃ t u, exec (.eventJobState m d) s = .next t ∧ u = s.dtlIn m false d ∧ t.obj (0x9100 + n) 0 = 2 ∧
      t.svc n = { s.svc n with nextKey := none, sealed := [] } ∧ t = { u with regs := t.regs, svcs := t.svcs } ∧ u.sameRegs t [okey (0x9100 + n) 0 0] := by
  subst state
  obtain ⟨credits, sent, received⟩ := s.dtlIn_reeve m d
  refine ⟨(s.dtlIn m false d).svcRuns n, _, ?_, rfl, State.svcRuns_state .., ?_, State.svcRuns_frame .., State.svcRuns_sameRegs _ _⟩
  · rw [execEventJobState_eq sound, received, filter_range_eq_singleton small ?mine ?theirs]
    · refine congrArg Host.Outcome.next ?_
      have running : (s.received credits sent).jobStateAt m d n = _ := State.jobStateAt_of_running works unlatched
      show ((s.received credits sent).jobStateAt m d n).answerClosers = _
      rw [running, State.answerClosers_of_none]
      exact (State.svcRuns_closers ..).trans open'
    case mine => simpa [State.svcState, part] using waits
    case theirs => exact fun k bound other => by simp [others k bound other]
  · rw [received]
    exact State.svc_svcRuns unlatched

end Sys2Proof.Machine
end

section
/-! PROOF. Services, their requests, their entries and their boundaries together (15 R229, R230, R365-R376, R399). -/

namespace Sys2Proof.Machine

/-- Settles O41: one lemma for each command, and one for each of the cases in which it acts or does nothing. -/
theorem servicesAreConfiguredStartedAndFed : Obligations.ServicesAreConfiguredStartedAndFed := by
  refine ⟨fun s sess n _ => execSvcApply_applies, fun s sess n _ => execSvcStart_starts,
    fun s sess n _ passed => ⟨execSvcStop_of_stopped passed, execSvcStop_pends passed, fun x => execSvcStop_of_single passed, execSvcStop_of_latches passed⟩,
    fun s n => execEntrySeal_of_idle, fun s n q key k j x => execEntrySeal_of_single,
    fun s n tick => execVisionTickSeal_of_idle, fun s n tick q j => execVisionTickSeal_places,
    fun s m d => execEventBoundary_of_no_service, ?_,
    fun s m n st d => execEventJobState_of_running, fun s conn => execConnectionLost_of_none, fun s conn n x => execConnectionLost_ends,
    fun s slot => execContextIdleTimeout_of_used, fun s slot => execContextIdleTimeout_releases,
    fun s n => execRecoveryResumeTimeout_of_early, fun s n _ => execRecoveryResumeTimeout_drops⟩
  intro s m n d r o sound small open' runs part others language completes sealed active waits goes generates _ present alone read done
  exact execEventBoundary_of_done sound small open' runs part others language completes sealed active waits goes generates present alone read done

end Sys2Proof.Machine
end

section
/-! PROOF. The expert table (10 R245-R247), the dispatcher after a change, and what a packet finds at its port (10 R248-R250). -/

namespace Sys2Proof.Machine

/-! ### EXPERT_APPLY (R247) -/

/-- The table that lists the entries of a list other than 0, numbered from `n`. -/
def sparseFrom (n : Nat) (es : List Nat) : Tbl Nat := ((es.zipIdx n).filter (fun e => e.1 != 0)).map (fun e => (e.2, e.1))

theorem get_sparseFrom (es : List Nat) (n k : Nat) : Tbl.get (sparseFrom n es) 0 k = if n ≤ k then es.getD (k - n) 0 else 0 := by
  induction es generalizing n with
  | nil => simp [sparseFrom, Tbl.get, Tbl.find]
  | cons e es ih =>
    have rest := ih (n + 1)
    have here : n < k → (e :: es).getD (k - n) 0 = es.getD (k - (n + 1)) 0 := fun past => by
      rw [show k - n = k - (n + 1) + 1 by omega, List.getD_cons_succ]
    by_cases zero : e = 0
    · have skip : sparseFrom n (e :: es) = sparseFrom (n + 1) es := by simp [sparseFrom, zero]
      rw [skip, rest]
      obtain before | rfl | after := lt_trichotomy k n
      · rw [if_neg (by omega), if_neg (by omega)]
      · rw [if_neg (by omega), if_pos le_rfl, Nat.sub_self, List.getD_cons_zero, zero]
      · rw [if_pos (by omega), if_pos (by omega), here after]
    · have lists : sparseFrom n (e :: es) = (n, e) :: sparseFrom (n + 1) es := by simp [sparseFrom, zero]
      rw [lists, Tbl.get, Tbl.find]
      by_cases same : n = k
      · subst same
        simp
      · rw [if_neg same]
        refine Eq.trans rest ?_
        by_cases after : n < k
        · rw [if_pos (by omega), if_pos (by omega), here after]
        · rw [if_neg (by omega), if_neg (by omega)]

theorem ruleExpertApply_of_job {s : State} {q : Nat} (small : q < 12) (loaded : s.jobState q ≠ 0) (unsaved : s.jobState q ≠ 5) :
    ruleExpertApply 1 s = (s, stBusy) := by
  have busy : partitionNumbers.any (fun q => s.jobState q != jsNone && s.jobState q != jsSaved) = true :=
    List.any_eq_true.2 ⟨q, List.mem_range.2 small, by simp [loaded, unsaved]⟩
  simp [ruleExpertApply, busy]

theorem State.getD_objs (s : State) (i j : Nat) {n e : Nat} (small : e < n) : (s.objs i j n).getD e 0 = s.obj i j e := by
  simp [State.objs, small]

/-- The state with a table of entries in force. -/
def State.withExperts (s : State) (es : List Nat) : State :=
  ({ s with experts := sparseFrom 0 es }).setObj 0x5200 0 0 ((s.obj 0x5200 0 + 1) % 2 ^ 32)

@[simp] theorem State.expert_setObj (s : State) (i j k v e : Nat) : (s.setObj i j k v).expert e = s.expert e := rfl
@[simp] theorem State.expert_answer (s : State) (sess i j st e : Nat) : (s.answer sess i j st).expert e = s.expert e := rfl

theorem State.expert_withExperts (s : State) (es : List Nat) (e : Nat) : (s.withExperts es).expert e = es.getD e 0 := by
  rw [State.expert, State.withExperts, State.setObj_experts, get_sparseFrom, if_pos (Nat.zero_le e), Nat.sub_zero]

theorem ruleExpertApply_applies {s : State} (idle : ∀ q, q < 12 → s.jobState q = 0 ∨ s.jobState q = 5)
    (valid : ∀ e, e < 4096 → xValid (s.obj 0x5200 1 e) = true → expertOk (s.obj 0x5200 1 e) = true)
    (own : (((s.objs 0x5200 1 4096).filter xValid).filter (fun e => s.isOwn (xDevice e))).length ≤ 512) :
    ruleExpertApply 1 s = (s.withExperts (s.objs 0x5200 1 4096), stOk) := by
  have free : ¬ partitionNumbers.any (fun q => s.jobState q != jsNone && s.jobState q != jsSaved) = true := by
    simp only [List.any_eq_true, List.mem_range, not_exists, not_and]
    intro q small
    obtain none' | saved := idle q small
    · simp [none']
    · simp [saved]
  have pass : ((s.objs 0x5200 1 4096).filter xValid).all expertOk = true := by
    simp only [List.all_eq_true, List.mem_filter, State.objs, List.mem_map, List.mem_range, and_imp, forall_exists_index]
    rintro _ e small rfl
    exact valid e small
  simp only [ruleExpertApply, if_neg (show ¬ (1 ≠ 1) by decide), if_neg free, pass, Bool.not_true, Bool.false_eq_true, false_or, if_neg (Nat.not_lt.2 own)]
  rfl

/-- A write that the checks pass answers and keeps what its own rule answers. -/
theorem State.commandOut_of_rule {s u : State} {sess i j st : Nat} {own : State → State × Nat} (passed : s.writeGuard sess i j = none)
    (rule : own s = (u, st)) : s.commandOut sess i j own = .next ((u.setObj i j 0 st).answer sess i j st) := by
  rw [State.commandOut_passed own passed, rule]

theorem execExpertApply_of_job {s : State} {sess q : Nat} (passed : s.writeGuard sess 0x5200 2 = none) (small : q < 12) (loaded : s.jobState q ≠ 0)
    (unsaved : s.jobState q ≠ 5) : ∃ t, exec (.expertApply sess) s = .next t ∧ t.obj 0x5200 2 = stBusy ∧ t.experts = s.experts ∧
      s.sameRegs t [okey 0x5200 2 0] := by
  refine ⟨_, State.commandOut_of_rule passed (ruleExpertApply_of_job small loaded unsaved), ?_, rfl, ?_⟩
  · rw [State.obj_answer, State.obj_setObj_same]
  · exact State.sameRegs_congr (State.sameRegs_setObj _ _ _ _ (s.sameRegs_refl _) List.mem_cons_self) (State.answer_regs ..)

theorem execExpertApply_applies {s : State} {sess : Nat} (passed : s.writeGuard sess 0x5200 2 = none)
    (idle : ∀ q, q < 12 → s.jobState q = 0 ∨ s.jobState q = 5)
    (valid : ∀ e, e < 4096 → xValid (s.obj 0x5200 1 e) = true → expertOk (s.obj 0x5200 1 e) = true)
    (own : (((s.objs 0x5200 1 4096).filter xValid).filter (fun e => s.isOwn (xDevice e))).length ≤ 512) :
    ∃ t, exec (.expertApply sess) s = .next t ∧ t.obj 0x5200 2 = stOk ∧ (∀ e, e < 4096 → t.expert e = s.obj 0x5200 1 e) ∧
      t.obj 0x5200 0 = (s.obj 0x5200 0 + 1) % 2 ^ 32 ∧ t = { s with regs := t.regs, experts := t.experts, sent := t.sent } := by
  refine ⟨_, State.commandOut_of_rule passed (ruleExpertApply_applies idle valid own), ?_, fun e small => ?_, ?_, ?_⟩
  · rw [State.obj_answer, State.obj_setObj_same]
  · rw [State.expert_answer, State.expert_setObj, State.expert_withExperts, s.getD_objs _ _ small]
  · rw [State.obj_answer, State.obj_setObj_sub _ _ _ _ (by decide), State.withExperts, State.obj_setObj_same]
  · generalize s.objs 0x5200 1 4096 = es
    rfl

/-! ### The dispatcher after a change -/

@[simp] theorem State.disp_modDisp_same (s : State) (q : Nat) (f : Disp → Disp) : (s.modDisp q f).disp q = f (s.disp q) := Tbl.get_put_same ..

@[simp] theorem State.disp_emit (s : State) (m : Msg) (q : Nat) : (s.emit m).disp q = s.disp q := rfl
@[simp] theorem State.disp_count (s : State) (i j e w n q : Nat) : (s.count i j e w n).disp q = s.disp q := rfl
@[simp] theorem State.disp_sendReply (s : State) (pos : Nat) (p : Packet) (st q : Nat) : (s.sendReply pos p st).disp q = s.disp q := rfl
@[simp] theorem State.disp_sendReserve (s : State) (q : Nat) (k : Token) (e r j : Nat) : (s.sendReserve q k e r).disp j = s.disp j := rfl

/-- With no RESERVE queued, a slot that has become free goes to nobody. -/
theorem State.serveQueue_of_none {s : State} {q : Nat} (none' : (s.disp q).queue = []) (e : Nat) : s.serveQueue q e = s := by
  simp [State.serveQueue, State.serveWith, none']

theorem State.serveStaged_of_none {s : State} {q : Nat} (none' : (s.disp q).queue = []) : s.serveStaged q = s := by
  simp [State.serveStaged, none', State.each]

theorem State.staged_of_none {s : State} {q : Nat} (tokens : (s.disp q).tokens = []) (parts : (s.disp q).parts = []) : s.staged q = 0 := by
  simp [State.staged, tokens, parts]

/-! ### Payloads that decode clean (R173) -/

theorem reqRows_of_clean {p : Packet} {ds : List Row} (clean : p.data.map decodeWord = ds.map Decoded.clean) : reqRows p = ds := by
  unfold reqRows
  generalize p.data = ws at clean ⊢
  induction ws generalizing ds with
  | nil => simpa using clean.symm
  | cons w ws ih =>
    cases ds with
    | nil => simp at clean
    | cons d ds =>
      obtain ⟨first, rest⟩ := List.cons_eq_cons.1 (List.map_cons ▸ List.map_cons ▸ clean)
      rw [List.map_cons, ih rest, decodedRow, first]

/-- A payload without an error counts nothing at its position; a counter beyond its all-ones value stops there. -/
def State.payloadCounted (s : State) (pos : Nat) : State := (s.count (tileIx pos) 0x53 0 32 0).count (tileIx pos) 0x54 0 32 0

theorem State.landAt_of_clean (s : State) (pos : Nat) {p : Packet} {ds : List Row} (clean : p.data.map decodeWord = ds.map Decoded.clean) :
    s.landAt pos p = (s.payloadCounted pos, some (reqRows p)) := by
  have sound (d : Row) : (Decoded.clean d == Decoded.bad) = false := by simp
  simp [State.landAt, State.payloadCounted, reqRows, clean, List.countP_map, Function.comp_def, sound]

@[simp] theorem State.disp_payloadCounted (s : State) (pos q : Nat) : (s.payloadCounted pos).disp q = s.disp q := rfl
@[simp] theorem State.expert_payloadCounted (s : State) (pos e : Nat) : (s.payloadCounted pos).expert e = s.expert e := rfl

theorem State.obj_payloadCounted (s : State) (pos i : Nat) {j e : Nat} (sub : j < 0x53) (small : e < 65536) :
    (s.payloadCounted pos).obj i j e = s.obj i j e := by
  rw [State.payloadCounted, State.count, State.obj_setObj_ne _ _ (by omega) small (by decide) (by decide) (.inr (.inl (by omega))),
    State.count, State.obj_setObj_ne _ _ (by omega) small (by decide) (by decide) (.inr (.inl (by omega)))]

/-! ### Where only dispatchers, registers and messages differ -/

/-- Nothing but registers, dispatchers and messages differs. -/
def State.onlyDispatch (s t : State) : Prop := t = { s with regs := t.regs, disps := t.disps, sent := t.sent }

namespace State.onlyDispatch

theorem refl (s : State) : s.onlyDispatch s := rfl

section Kept
variable {s t : State} (h : s.onlyDispatch t)
include h

theorem trans {u : State} (g : t.onlyDispatch u) : s.onlyDispatch u := Eq.trans g (by rw [h])
theorem modDisp (q : Nat) (f : Disp → Disp) : s.onlyDispatch (t.modDisp q f) := h.trans rfl
theorem modToken (q id : Nat) (f : Token → Token) : s.onlyDispatch (t.modToken q id f) := h.modDisp ..
theorem emit (m : Msg) : s.onlyDispatch (t.emit m) := h.trans rfl
theorem count (i j e w n : Nat) : s.onlyDispatch (t.count i j e w n) := h.trans rfl
theorem sendReply (pos : Nat) (p : Packet) (st : Nat) : s.onlyDispatch (t.sendReply pos p st) := h.emit _
theorem payloadCounted (pos : Nat) : s.onlyDispatch (t.payloadCounted pos) := (h.count ..).count ..
theorem with_regs (same : t.regs = s.regs) : t = { s with disps := t.disps, sent := t.sent } := Eq.trans h (by rw [same])
theorem with_sent (same : t.sent = s.sent) : t = { s with regs := t.regs, disps := t.disps } := Eq.trans h (by rw [same])

end Kept

end State.onlyDispatch

/-! ### The dispatcher's port (R250) -/

theorem State.onPacket_of_sound {p : Packet} (sound : soundPacket p) (s : State) (n : Nat) (f : State → State) : s.onPacket n p f = f s := by
  obtain ⟨head, reserved⟩ := sound
  simp [State.onPacket, headBad, head, reserved]

theorem State.arriveDisp_of_held {s : State} {q : Nat} {w : DispWrite} (sound : soundPacket w.pkt) (held : (s.disp q).held ≠ []) :
    s.arriveDisp q w = s.modDisp q (fun d => { d with held := d.held ++ [w] }) := by
  simp [State.arriveDisp, State.onPacket_of_sound sound, held]

/-- A WRITE that need not be held enters a port before which none is held. -/
theorem State.arriveDisp_enters {s : State} {q : Nat} {w : DispWrite} (sound : soundPacket w.pkt) (open' : (s.disp q).held = [])
    (room : w.kind ≠ 1 ∨ s.mustStage q w.rows w.pkt = false) : s.arriveDisp q w = (s.takeDispWrite q w).modDisp q (fun d => { d with held := [] }) := by
  have enters : (w.kind == 1 && s.mustStage q w.rows w.pkt) = false := by
    obtain other | fits := room
    · simp [other]
    · simp [fits]
  simp only [State.arriveDisp, State.onPacket_of_sound sound, open', List.isEmpty_nil, if_true, State.enterDisp, enters, Bool.false_eq_true, if_false]

theorem State.arriveDisp_waits {s : State} {q : Nat} {w : DispWrite} (sound : soundPacket w.pkt) (open' : (s.disp q).held = [])
    (token : w.kind = 1) (full : s.mustStage q w.rows w.pkt = true) :
    s.arriveDisp q w = (s.count (0x5210 + q) 6 0 32).modDisp q (fun d => { d with held := [w] }) := by
  simp [State.arriveDisp, State.onPacket_of_sound sound, open', State.enterDisp, token, full]

end Sys2Proof.Machine
end

section
/-! PROOF. A dispatcher whose one token has one target: reservations, grants, launches, timeouts and receipts (10 R251-R255). -/

namespace Sys2Proof.Machine

/-! ### The one token and its one target -/

theorem Token.modRes_of_single {k : Token} {x : Target} (targets : k.targets = [x]) (live : x.st ≠ .idle) (f : Target → Target) :
    k.modRes x.resId f = { k with targets := [f x] } := by
  simp [Token.modRes, targets, live]

/-- A target of a token has the dispatcher's next identifier, and its reservation is asked for. -/
def State.asked (s : State) (q id expert : Nat) : State :=
  (s.modDisp q (fun d => { d with nextRes := ((s.disp q).nextRes + 1) % 2 ^ 32 })).modToken q id (fun t =>
    { t with targets := t.targets.map (fun x => if x.expert = expert then { x with resId := (s.disp q).nextRes, st := .asked } else x) })

theorem State.asked_regs (s : State) (q id expert : Nat) : (s.asked q id expert).regs = s.regs := rfl
theorem State.asked_sent (s : State) (q id expert : Nat) : (s.asked q id expert).sent = s.sent := rfl

theorem State.onlyDispatch.asked {s t : State} (h : s.onlyDispatch t) (q id expert : Nat) : s.onlyDispatch (t.asked q id expert) :=
  (h.modDisp ..).modToken ..

/-- A RESERVE is a CTRL message of type 0x10 to the expert's device. -/
theorem State.sendReserve_eq (s : State) (q : Nat) (k : Token) (e r : Nat) :
    ∃ m, s.sendReserve q k e r = s.emit (.control m) ∧ m.mtype = 0x10 ∧ m.dst = xDevice (s.expert e) := ⟨_, rfl, rfl, rfl⟩

section Single
variable {s : State} {q : Nat} {k : Token} {x : Target} (tokens : (s.disp q).tokens = [k]) (targets : k.targets = [x])
include tokens

theorem State.token_of_single : s.token q k.id = some k := by simp [State.token, tokens]

theorem State.disp_modToken_of_single (f : Token → Token) : (s.modToken q k.id f).disp q = { s.disp q with tokens := [f k] } := by
  simp [State.modToken, tokens]

theorem State.tokens_modToken_of_single (f : Token → Token) : ((s.modToken q k.id f).disp q).tokens = [f k] := by
  rw [State.disp_modToken_of_single tokens]

include targets

theorem State.tokenOfRes_of_single (live : x.st ≠ .idle) : s.tokenOfRes q x.resId = some k := by
  simp [State.tokenOfRes, tokens, targets, live]

theorem State.tokens_modRes_of_single (live : x.st ≠ .idle) (f : Target → Target) :
    ((s.modToken q k.id (fun t => t.modRes x.resId f)).disp q).tokens = [{ k with targets := [f x] }] := by
  rw [State.tokens_modToken_of_single tokens, Token.modRes_of_single targets live]

/-! ### Launches (R252, R253) -/

/-- A copy for a target of this device leaves with as many rows as its token has. -/
theorem State.launch_of_own (live : x.st ≠ .idle) (own : s.isOwn (xDevice (s.expert x.expert)) = true) :
    ∃ (t : State) (dev part : Nat) (rows : List Row), s.launch q k x = t.emit (.copy dev part x.resId rows) ∧ rows.length = k.rows.length ∧ t = { s with disps := t.disps } ∧
      (t.disp q).tokens = [{ k with targets := [{ x with st := .launched }], sentAt := some s.elapsed }] := by
  refine ⟨s.modToken q k.id (fun t => { t.modRes x.resId (fun y => { y with st := .launched }) with sentAt := some s.elapsed }), _, _, _,
    if_pos own, ?_, rfl, ?_⟩
  · split <;> simp [*]
  · rw [State.tokens_modToken_of_single tokens, Token.modRes_of_single targets live]

/-- With its one GRANT held, a token in its multicast phase launches and counts its wait. -/
theorem State.settleToken_of_granted (granted : x.st = .granted) (multicast : k.unicast = false) (own : s.isOwn (xDevice (s.expert x.expert)) = true) :
    ∃ t k' dev part rows, s.settleToken q k.id = t ∧ (t.disp q).tokens = [k'] ∧ k'.targets = [{ x with st := .launched }] ∧
      t.sent = .copy dev part x.resId rows :: s.sent ∧ rows.length = k.rows.length ∧ t = { s with regs := t.regs, disps := t.disps, sent := t.sent } := by
  obtain ⟨u, dev, part, rows, launched, length, frame, after⟩ := State.launch_of_own tokens targets (by simp [granted]) own
  have found : (u.emit (.copy dev part x.resId rows)).token q k.id = some { k with targets := [{ x with st := .launched }], sentAt := some s.elapsed } :=
    State.token_of_single (k := { k with targets := [{ x with st := .launched }], sentAt := some s.elapsed }) after
  have settled : s.settleToken q k.id =
      (u.emit (.copy dev part x.resId rows)).count (0x5210 + q) 4 0 64 ((s.elapsed - k.began) / 4) := by
    simp only [State.settleToken, State.token_of_single tokens, multicast, targets, List.all_cons, List.all_nil, granted, beq_self_eq_true, Bool.and_true,
      Bool.not_false, if_true, State.each, List.foldl_cons, List.foldl_nil, launched, State.countWait, found, Option.elim_some]
  refine ⟨_, _, dev, part, rows, settled, after, rfl, ?_, length, ?_⟩
  · show .copy dev part x.resId rows :: u.sent = _
    rw [frame]
  · rw [frame]
    rfl

/-! ### Unicasts in target order (R253) -/

/-- A token in its unicast phase whose target has no reservation asks for it. -/
theorem State.settleToken_of_idle (idle : x.st = .idle) (unicast : k.unicast = true) : s.settleToken q k.id = s.ask q k.id x.expert := by
  simp [State.settleToken, State.token_of_single tokens, unicast, targets, idle, State.each]

omit targets in
theorem State.ask_of_single (e : Nat) : s.ask q k.id e = (s.asked q k.id e).sendReserve q k e (s.disp q).nextRes := by
  rw [State.ask, State.token_of_single tokens]
  rfl

theorem State.disp_asked_of_single : (s.asked q k.id x.expert).disp q = { s.disp q with
    nextRes := ((s.disp q).nextRes + 1) % 2 ^ 32, tokens := [{ k with targets := [{ x with resId := (s.disp q).nextRes, st := .asked }] }] } := by
  have same : ((s.modDisp q (fun d => { d with nextRes := ((s.disp q).nextRes + 1) % 2 ^ 32 })).disp q).tokens = [k] := by
    rw [State.disp_modDisp_same, tokens]
  rw [State.asked, State.disp_modToken_of_single same, State.disp_modDisp_same, targets]
  simp

/-! ### The commands of R251 to R255 -/

theorem execGrant_launches {m : CtrlMsg} (multicast : k.unicast = false) (asked : x.st = .asked) (sound : ctrlOk 0x11 m = true) (part : mPart m = q)
    (res : mRes m = x.resId) (own : s.isOwn (xDevice (s.expert x.expert)) = true) :
    ∃ t k' y dev part rows, exec (.grant m) s = .next t ∧ (t.disp q).tokens = [k'] ∧ k'.targets = [y] ∧ y.st = .launched ∧ y.slot = mSlot m ∧
      t.sent = .copy dev part x.resId rows :: s.sent ∧ rows.length = k.rows.length ∧ t = { s with regs := t.regs, disps := t.disps, sent := t.sent } := by
  have live : x.st ≠ .idle := by simp [asked]
  have granted := State.tokens_modRes_of_single tokens targets live
    (fun y => if y.st = .asked ∨ y.st = .retry then { y with st := .granted, slot := mSlot m } else y)
  rw [if_pos (.inl asked)] at granted
  obtain ⟨t, k', dev, at', rows, settled, after, launched, sent, length, frame⟩ :=
    State.settleToken_of_granted granted rfl rfl multicast own
  refine ⟨t, k', _, dev, at', rows, ?_, after, launched, rfl, rfl, sent, length, frame⟩
  show Host.Outcome.next (s.onCtrl 0x11 m _) = _
  simp only [State.onCtrl, if_pos sound, part, res, State.tokenOfRes_of_single tokens targets live, settled]

theorem execDstatus_of_noCredit {m : CtrlMsg} (asked : x.st = .asked) (sound : ctrlOk 0x13 m = true) (part : mPart m = q) (res : mRes m = x.resId)
    (status : mStatus m = stNoCredit) : ∃ t, exec (.dstatus m) s = .next t ∧
      (t.disp q).tokens = [{ k with targets := [{ x with st := .retry, retry := s.elapsed + 720 }] }] ∧ t = { s with disps := t.disps } := by
  have live : x.st ≠ .idle := by simp [asked]
  refine ⟨s.modToken q k.id (fun t => t.modRes x.resId (fun x => { x with st := .retry, retry := s.elapsed + nsTide 180 })), ?_,
    State.tokens_modRes_of_single tokens targets live _, rfl⟩
  show Host.Outcome.next (s.onCtrl 0x13 m _) = _
  rw [State.onCtrl, if_pos sound, State.takeDstatus, part, res, State.tokenOfRes_of_single tokens targets live]
  simp only [status, if_true]

theorem execNoCreditRetry_asks (retries : x.st = .retry) (due : x.retry ≤ s.elapsed) : ∃ t m, exec (.noCreditRetry q x.resId) s = .next t ∧
    (t.disp q).tokens = [{ k with targets := [{ x with st := .asked }] }] ∧ t.sent = .control m :: s.sent ∧ m.mtype = 0x10 ∧
      t.obj (0x5210 + q) 3 = min (s.obj (0x5210 + q) 3 + 1) (2 ^ 32 - 1) ∧ t = { s with regs := t.regs, disps := t.disps, sent := t.sent } := by
  have live : x.st ≠ .idle := by simp [retries]
  have after := State.tokens_modRes_of_single (s := s.count (0x5210 + q) 3 0 32) tokens targets live (fun x => { x with st := .asked })
  refine ⟨((s.count (0x5210 + q) 3 0 32).modToken q k.id (fun t => t.modRes x.resId (fun x => { x with st := .asked }))).sendReserve q k x.expert x.resId,
    _, ?_, after, rfl, rfl, State.obj_count_same .., (((State.onlyDispatch.refl s).count ..).modToken ..).emit _⟩
  show execNoCreditRetry q x.resId s = _
  simp [execNoCreditRetry, State.tokenOfRes_of_single tokens targets live, targets, retries, due]

/-- Once its one reservation is cancelled, a token's identifier is nobody's. -/
theorem State.cancelAll_of_single (asked : x.st = .asked) : ((s.cancelAll q k).disp q).tokens = [{ k with targets := [{ x with st := .idle }] }] ∧
    s.cancelAll q k = { s with disps := (s.cancelAll q k).disps, sent := (s.cancelAll q k).sent } := by
  have live : [x].filter (fun x => x.st == .asked || x.st == .retry || x.st == .granted) = [x] := by simp [asked]
  rw [State.cancelAll, targets, live]
  refine ⟨(State.tokens_modToken_of_single (s := s.emit _) tokens _).trans ?_, rfl⟩
  simp [targets]

theorem execMulticastTimeout_cancels (multicast : k.unicast = false) (asked : x.st = .asked) (past : k.began + s.castLimit q ≤ s.elapsed) :
    ∃ t k', exec (.multicastTimeout q k.id) s = .next t ∧ (t.disp q).tokens = [k'] ∧ k'.unicast = true ∧
      t.obj (0x5210 + q) 2 = min (s.obj (0x5210 + q) 2 + 1) (2 ^ 32 - 1) ∧ t = { s with regs := t.regs, disps := t.disps, sent := t.sent } := by
  obtain ⟨idle, frame⟩ := State.cancelAll_of_single tokens targets asked
  generalize cancelled : s.cancelAll q k = u at idle frame
  have unicast := State.tokens_modToken_of_single (s := u.count (0x5210 + q) 2 0 32) (k := { k with targets := [{ x with st := .idle }] }) idle
    (fun t => { t with unicast := true })
  have settled := (State.settleToken_of_idle unicast rfl rfl rfl).trans (State.ask_of_single unicast _)
  have open' : ¬ (k.unicast = true ∨ s.elapsed < k.began + s.castLimit q ∨ k.targets.any (fun x => x.st == .launched || x.st == .done) = true) := by
    simp [multicast, targets, asked, past]
  refine ⟨_, _, Eq.trans ?run (congrArg Host.Outcome.next settled), congrArg Disp.tokens (State.disp_asked_of_single unicast rfl), rfl, ?_, ?_⟩
  case run =>
    show execMulticastTimeout q k.id s = _
    rw [execMulticastTimeout, State.token_of_single tokens]
    dsimp only
    rw [if_neg open', cancelled]
  · refine (State.obj_count_same u _ _ _ _ _).trans ?_
    rw [frame]
    rfl
  · rw [frame]
    rfl

theorem execCopyReceiptConfirm_drops (launched : x.st = .launched) (none' : (s.disp q).queue = []) :
    ∃ t, exec (.copyReceiptConfirm q x.resId) s = .next t ∧ (t.disp q).tokens = [] ∧ t = { s with disps := t.disps } := by
  have live : x.st ≠ .idle := by simp [launched]
  have done := State.tokens_modRes_of_single tokens targets live (fun x => if x.st = .launched then { x with st := .done } else x)
  rw [if_pos launched] at done
  have queue : ((s.modToken q k.id (fun t => t.modRes x.resId (fun x => if x.st = .launched then { x with st := .done } else x))).disp q).queue = [] := by
    rw [State.disp_modToken_of_single tokens, none']
  refine ⟨(s.modToken q k.id (fun t => t.modRes x.resId (fun x => if x.st = .launched then { x with st := .done } else x))).modDisp q
      (fun d => { d with tokens := d.tokens.filter (fun t => !t.finished) }), ?_, ?_, rfl⟩
  · show execCopyReceiptConfirm q x.resId s = _
    rw [execCopyReceiptConfirm, State.tokenOfRes_of_single tokens targets live]
    dsimp only
    rw [State.dropFinished, if_pos (by rw [done]; rfl), State.serveStaged_of_none (by rw [State.disp_modDisp_same]; exact queue)]
  · rw [State.disp_modDisp_same, done]
    rfl

end Single

/-! ### Reservations that nobody holds -/

section Unknown
variable {s : State} {q resId : Nat} (none' : s.tokenOfRes q resId = none)
include none'

theorem execGrant_of_unknown {m : CtrlMsg} (part : mPart m = q) (res : mRes m = resId) : exec (.grant m) s = .next s := by
  show Host.Outcome.next (s.onCtrl 0x11 m _) = _
  simp only [part, res, none', State.onCtrl, ite_self]

theorem execDstatus_of_unknown {m : CtrlMsg} (part : mPart m = q) (res : mRes m = resId) : exec (.dstatus m) s = .next s := by
  show Host.Outcome.next (s.onCtrl 0x13 m _) = _
  rw [State.onCtrl, State.takeDstatus, part, res, none', ite_self]

theorem execNoCreditRetry_of_unknown : exec (.noCreditRetry q resId) s = .next s := by
  show execNoCreditRetry q resId s = _
  rw [execNoCreditRetry, none']

theorem execCopyReceiptConfirm_of_unknown : exec (.copyReceiptConfirm q resId) s = .next s := by
  show execCopyReceiptConfirm q resId s = _
  rw [execCopyReceiptConfirm, none']

end Unknown

theorem execMulticastTimeout_of_early {s : State} {q token : Nat} (early : ∀ k, s.token q token = some k → s.elapsed < k.began + s.castLimit q) :
    exec (.multicastTimeout q token) s = .next s := by
  show execMulticastTimeout q token s = _
  rw [execMulticastTimeout]
  split
  · rfl
  · next k found => rw [if_pos (.inr (.inl (early k found)))]

end Sys2Proof.Machine
end

section
/-! PROOF. TOKEN requests at a dispatcher that assembles no token (10 R248, R250, R252). -/

namespace Sys2Proof.Machine

/-! ### The first WRITE of a TOKEN -/

/-- Of the tokens being assembled those that a WRITE does not belong to stay, and some join them. -/
def State.partsKept (s : State) (q : Nat) (p : Packet) (ks : List TokenPart) : State :=
  s.modDisp q (fun d => { d with parts := d.parts.filter (fun x => !x.holds p) ++ ks })

section Token
variable {s : State} {q rows : Nat} {p : Packet} (parts : (s.disp q).parts = [])
include parts

/-- The token that a WRITE begins. -/
theorem State.partOf_of_none : s.partOf q rows p =
    { pos := srcPos p, start := farRow p.farAddr.toNat, total := rows, status := s.tokenCheck rows p } := by
  simp [State.partOf, parts]

theorem State.mustStage_of_bad (bad : s.tokenCheck rows p ≠ stOk) : s.mustStage q rows p = false := by
  simp [State.mustStage, State.partOf_of_none parts, bad]

theorem State.mustStage_of_good (good : s.tokenCheck rows p = stOk) : s.mustStage q rows p = decide (16384 < s.staged q + p.data.length) := by
  simp [State.mustStage, State.partOf_of_none parts, good]

theorem State.disp_partsKept_of_none (ks : List TokenPart) : (s.partsKept q p ks).disp q = { s.disp q with parts := ks } := by
  rw [State.partsKept, State.disp_modDisp_same, parts]
  rfl

/-- A request that fails its check is answered with its status (R250). -/
theorem State.takeToken_of_bad (bad : s.tokenCheck rows p ≠ stOk) : ∃ ks, (rows ≤ p.data.length → ks = []) ∧
    s.takeToken q rows p = (s.partsKept q p ks).sendReply (s.dispPos q) p (s.tokenCheck rows p) := by
  refine ⟨if 0 + p.data.length < rows then
      [{ pos := srcPos p, start := farRow p.farAddr.toNat, total := rows, got := 0 + p.data.length, status := s.tokenCheck rows p }] else [],
    fun all => if_neg (by omega), ?_⟩
  rw [State.takeToken, State.partOf_of_none parts]
  exact if_pos bad

variable (good : s.tokenCheck rows p = stOk) {ds : List Row} (clean : p.data.map decodeWord = ds.map Decoded.clean)
include good clean

/-- Rows that come before the last are kept and acknowledged. -/
theorem State.takeToken_of_some (more : p.data.length < rows) : ∃ k, k.rows = reqRows p ∧ k.total = rows ∧
    s.takeToken q rows p = ((s.payloadCounted (s.dispPos q)).partsKept q p [k]).sendReply (s.dispPos q) p stOk := by
  refine ⟨{ pos := srcPos p, start := farRow p.farAddr.toNat, total := rows, rows := [] ++ reqRows p, got := 0 + (reqRows p).length, status := stOk },
    rfl, rfl, ?_⟩
  rw [State.takeToken, State.partOf_of_none parts]
  simp only [good, ne_eq, not_true_eq_false, if_false, State.landAt_of_clean s _ clean]
  exact if_pos (by simpa [reqRows] using more)

/-- With its last rows the token is acknowledged and staged. -/
theorem State.takeToken_of_all (all : p.data.length = rows) : s.takeToken q rows p =
    (((s.payloadCounted (s.dispPos q)).partsKept q p []).sendReply (s.dispPos q) p stOk).stageToken q p (reqRows p) := by
  rw [State.takeToken, State.partOf_of_none parts]
  simp only [good, ne_eq, not_true_eq_false, if_false, State.landAt_of_clean s _ clean, State.partsKept, List.append_nil]
  exact if_neg (by simp [reqRows, all])

end Token

/-! ### Staging (R252) -/

/-- The token that a request's rows make. -/
def State.tokenOf (s : State) (q : Nat) (p : Packet) (rs : List Row) : Token :=
  { id := (s.disp q).nextId, pos := srcPos p, logical := p.srcLogical, rows := rs,
    targets := (reqTargets (rs.headD 0).toNat).map (fun e => { expert := e }), began := s.elapsed }

/-- A token is staged and counted, and asks for nothing yet. -/
def State.withToken (s : State) (q : Nat) (k : Token) : State :=
  (s.modDisp q (fun d => { d with tokens := d.tokens ++ [k], nextId := k.id + 1 })).count (0x5210 + q) 0 0 64

theorem State.withToken_sent (s : State) (q : Nat) (k : Token) : (s.withToken q k).sent = s.sent := rfl

theorem State.stageToken_eq (s : State) (q : Nat) (p : Packet) (rs : List Row) : s.stageToken q p rs =
    (s.withToken q (s.tokenOf q p rs)).each (reqTargets (rs.headD 0).toNat) (fun u e => u.ask q (s.tokenOf q p rs).id e) := rfl

/-- A token of one target that is staged where none was asks for its target. -/
theorem State.stageToken_of_single {s : State} {q e : Nat} (p : Packet) {rs : List Row} (none' : (s.disp q).tokens = [])
    (target : reqTargets (rs.headD 0).toNat = [e]) : ∃ (t : State) (k : Token) (m : CtrlMsg), s.stageToken q p rs = t.emit (.control m) ∧ (t.disp q).tokens = [k] ∧ k.rows = rs ∧
      k.targets = [{ expert := e, resId := (s.disp q).nextRes, st := .asked }] ∧ k.unicast = false ∧ m.mtype = 0x10 ∧ m.dst = xDevice (s.expert e) ∧
      (t.disp q).nextRes = ((s.disp q).nextRes + 1) % 2 ^ 32 ∧ t.obj (0x5210 + q) 0 = min (s.obj (0x5210 + q) 0 + 1) (2 ^ 64 - 1) ∧
      t.sent = s.sent ∧ s.onlyDispatch t := by
  have staged : ((s.withToken q (s.tokenOf q p rs)).disp q).tokens = [s.tokenOf q p rs] := by
    rw [State.withToken, State.disp_count, State.disp_modDisp_same, none', List.nil_append]
  have next : ((s.withToken q (s.tokenOf q p rs)).disp q).nextRes = (s.disp q).nextRes := by
    rw [State.withToken, State.disp_count, State.disp_modDisp_same]
  have single : (s.tokenOf q p rs).targets = [{ expert := e }] := by rw [State.tokenOf, target]; rfl
  have after := State.disp_asked_of_single staged single
  obtain ⟨m, sends, type, dst⟩ := State.sendReserve_eq ((s.withToken q (s.tokenOf q p rs)).asked q (s.tokenOf q p rs).id e) q (s.tokenOf q p rs) e
    ((s.withToken q (s.tokenOf q p rs)).disp q).nextRes
  refine ⟨_, _, m, ?_, congrArg Disp.tokens after, rfl, ?_, rfl, type, dst, ?_, ?_, ?_, ?_⟩
  · rw [← sends, ← State.ask_of_single staged, State.stageToken_eq, target]
    rfl
  · rw [next]
  · rw [after, next]
  · rw [State.obj_congr (State.asked_regs ..), State.withToken, State.obj_count_same]
    rfl
  · rw [State.asked_sent, State.withToken_sent]
  · exact (((State.onlyDispatch.refl s).modDisp ..).count ..).trans (.asked (.refl _) ..)

/-! ### TOKEN_REQUEST and STAGING_HOLD_RELEASE -/

section Request
variable {s : State} {q rows : Nat} {p : Packet} (sound : soundPacket p) (parts : (s.disp q).parts = [])
include sound

theorem execTokenRequest_of_held (held : (s.disp q).held ≠ []) : ∃ t, exec (.tokenRequest q ⟨rows, p⟩) s = .next t ∧
    (t.disp q).held = (s.disp q).held ++ [⟨1, rows, p⟩] ∧ (t.disp q).tokens = (s.disp q).tokens ∧ t = { s with disps := t.disps } :=
  ⟨_, congrArg Host.Outcome.next (State.arriveDisp_of_held sound held), by rw [State.disp_modDisp_same], by rw [State.disp_modDisp_same], rfl⟩

include parts

theorem execTokenRequest_of_bad (bad : s.tokenCheck rows p ≠ stOk) (open' : (s.disp q).held = []) : ∃ t a, exec (.tokenRequest q ⟨rows, p⟩) s = .next t ∧
    t.sent = .packet (s.dispPos q) true a :: s.sent ∧ a.ptype = .status ∧ a.status = s.tokenCheck rows p ∧ a.tag = p.tag ∧
      (t.disp q).tokens = (s.disp q).tokens ∧ (rows ≤ p.data.length → (t.disp q).parts = []) ∧ t = { s with disps := t.disps, sent := t.sent } := by
  obtain ⟨ks, emptied, taken⟩ := State.takeToken_of_bad parts bad
  have enters := State.arriveDisp_enters (w := ⟨1, rows, p⟩) sound open' (.inr (State.mustStage_of_bad parts bad))
  have takes : s.takeDispWrite q ⟨1, rows, p⟩ = _ := taken
  rw [takes] at enters
  refine ⟨_, _, congrArg Host.Outcome.next enters, rfl, if_neg bad, rfl, rfl, ?_, ?_,
    ((((State.onlyDispatch.refl s).modDisp ..).sendReply ..).modDisp ..).with_regs rfl⟩
  · rw [State.disp_modDisp_same, State.disp_sendReply, State.disp_partsKept_of_none parts]
  · rw [State.disp_modDisp_same, State.disp_sendReply, State.disp_partsKept_of_none parts]
    exact emptied

variable (good : s.tokenCheck rows p = stOk)
include good

theorem execTokenRequest_of_full (open' : (s.disp q).held = []) (full : 16384 < s.staged q + p.data.length) :
    ∃ t, exec (.tokenRequest q ⟨rows, p⟩) s = .next t ∧ (t.disp q).held = [⟨1, rows, p⟩] ∧ (t.disp q).tokens = (s.disp q).tokens ∧
      t.obj (0x5210 + q) 6 = min (s.obj (0x5210 + q) 6 + 1) (2 ^ 32 - 1) ∧ t = { s with regs := t.regs, disps := t.disps } := by
  have must : s.mustStage q rows p = true := by rw [State.mustStage_of_good parts good, decide_eq_true full]
  refine ⟨_, congrArg Host.Outcome.next (State.arriveDisp_waits (w := ⟨1, rows, p⟩) sound open' rfl must), by rw [State.disp_modDisp_same],
    by rw [State.disp_modDisp_same, State.disp_count], State.obj_count_same .., rfl⟩

variable {ds : List Row} (clean : p.data.map decodeWord = ds.map Decoded.clean)
include clean

theorem execTokenRequest_of_some (open' : (s.disp q).held = []) (room : s.staged q + p.data.length ≤ 16384) (more : p.data.length < rows) :
    ∃ t k a, exec (.tokenRequest q ⟨rows, p⟩) s = .next t ∧ (t.disp q).parts = [k] ∧ k.rows = reqRows p ∧ k.total = rows ∧
      (t.disp q).tokens = (s.disp q).tokens ∧ t.sent = .packet (s.dispPos q) true a :: s.sent ∧ a.ptype = .ack ∧
      t = { s with regs := t.regs, disps := t.disps, sent := t.sent } := by
  obtain ⟨k, kept, total, taken⟩ := State.takeToken_of_some parts good clean more
  have assembles := State.disp_partsKept_of_none (s := s.payloadCounted (s.dispPos q)) (p := p) parts [k]
  have enters := State.arriveDisp_enters (w := ⟨1, rows, p⟩) sound open'
    (.inr (by rw [State.mustStage_of_good parts good, decide_eq_false (Nat.not_lt.2 room)]))
  have takes : s.takeDispWrite q ⟨1, rows, p⟩ = _ := taken
  rw [takes] at enters
  refine ⟨_, k, _, congrArg Host.Outcome.next enters, ?_, kept, total, ?_, rfl, rfl, ?_⟩
  · rw [State.disp_modDisp_same, State.disp_sendReply, assembles]
  · rw [State.disp_modDisp_same, State.disp_sendReply, assembles, State.disp_payloadCounted]
  · exact ((((State.onlyDispatch.refl s).payloadCounted _).modDisp ..).sendReply ..).modDisp ..

/-- The last WRITE of a token stages it, whether it arrives or has waited at the port. -/
theorem execTokenRequest_of_all {e : Nat} {i : Instr} (none' : (s.disp q).tokens = [])
    (comes : i = .tokenRequest q ⟨rows, p⟩ ∧ (s.disp q).held = [] ∨ i = .stagingHoldRelease q ∧ (s.disp q).held = [⟨1, rows, p⟩])
    (fits : p.data.length ≤ 16384) (all : p.data.length = rows) (target : reqTargets ((reqRows p).headD 0).toNat = [e]) :
    ∃ t k m a, exec i s = .next t ∧ (t.disp q).tokens = [k] ∧ k.rows = reqRows p ∧
      k.targets = [{ expert := e, resId := (s.disp q).nextRes, st := .asked }] ∧ k.unicast = false ∧ (t.disp q).held = [] ∧
      t.sent = .control m :: .packet (s.dispPos q) true a :: s.sent ∧ a.ptype = .ack ∧ m.mtype = 0x10 ∧ m.dst = xDevice (s.expert e) ∧
      (t.disp q).nextRes = ((s.disp q).nextRes + 1) % 2 ^ 32 ∧ t.obj (0x5210 + q) 0 = min (s.obj (0x5210 + q) 0 + 1) (2 ^ 64 - 1) ∧
      t = { s with regs := t.regs, disps := t.disps, sent := t.sent } := by
  have room : s.mustStage q rows p = false := by
    rw [State.mustStage_of_good parts good, State.staged_of_none none' parts, decide_eq_false (by omega)]
  have enters : exec i s = .next ((s.takeDispWrite q ⟨1, rows, p⟩).modDisp q (fun d => { d with held := [] })) := by
    obtain ⟨rfl, open'⟩ | ⟨rfl, held⟩ := comes
    · exact congrArg Host.Outcome.next (State.arriveDisp_enters sound open' (.inr room))
    · show execStagingHoldRelease q s = _
      simp [execStagingHoldRelease, held, room, State.enterDisp]
  have emptied : (((s.payloadCounted (s.dispPos q)).partsKept q p []).sendReply (s.dispPos q) p stOk).disp q = { s.disp q with parts := [] } :=
    State.disp_partsKept_of_none (s := s.payloadCounted (s.dispPos q)) parts []
  obtain ⟨t, k, m, staged, tokens, kept, asked, multicast, type, dst, next, counts, sent, after⟩ :=
    State.stageToken_of_single p ((congrArg Disp.tokens emptied).trans none') target
  have takes : s.takeDispWrite q ⟨1, rows, p⟩ = t.emit (.control m) := (State.takeToken_of_all parts good clean all).trans staged
  rw [takes] at enters
  refine ⟨_, k, m, replyTo (s.dispPos q) p .ack stOk [], enters, ?_, kept, ?_, multicast, ?_, ?_, rfl, type, dst, ?_, ?_, ?_⟩
  · rw [State.disp_modDisp_same, State.disp_emit, tokens]
  · rw [asked, emptied]
  · rw [State.disp_modDisp_same]
  · rw [State.modDisp_sent, State.emit_sent, sent]
    rfl
  · rw [State.disp_modDisp_same, State.disp_emit, next, emptied]
  · exact counts.trans (congrArg (fun v => min (v + 1) (2 ^ 64 - 1)) (s.obj_payloadCounted _ _ (by decide) (by decide)))
  · exact ((((((State.onlyDispatch.refl s).payloadCounted _).modDisp ..).sendReply ..).trans after).emit _).modDisp ..

end Request

theorem execStagingHoldRelease_of_none {s : State} {q : Nat} (none' : (s.disp q).held = []) : exec (.stagingHoldRelease q) s = .next s := by
  show execStagingHoldRelease q s = _
  rw [execStagingHoldRelease, none']

theorem execStagingHoldRelease_of_full {s : State} {q rows : Nat} {p : Packet} (parts : (s.disp q).parts = []) (good : s.tokenCheck rows p = stOk)
    (held : (s.disp q).held = [⟨1, rows, p⟩]) (full : 16384 < s.staged q + p.data.length) : exec (.stagingHoldRelease q) s = .next s := by
  have must : s.mustStage q rows p = true := by rw [State.mustStage_of_good parts good, decide_eq_true full]
  show execStagingHoldRelease q s = _
  simp [execStagingHoldRelease, held, must]

end Sys2Proof.Machine
end

section
/-! PROOF. Landing slots: RESERVE, RESERVATION_CANCEL, COPY_ARRIVE, RELEASE_REQUEST (10 R251, R253, R255, R256). -/

namespace Sys2Proof.Machine

/-! ### RESERVE (R251) -/

theorem execReserve_of_foreign {s : State} {m : CtrlMsg}
    (foreign : xValid (s.expert (mExpert m)) = false ∨ s.isOwn (xDevice (s.expert (mExpert m))) = false) (sound : ctrlOk 0x10 m = true) :
    ∃ a, exec (.reserve m) s = .next { s with sent := .control a :: s.sent } ∧ a.mtype = 0x13 ∧ a.dst = m.src := by
  refine ⟨{ mtype := 0x13, dst := m.src, src := s.ownDevice,
            body := BitVec.ofNat 224 (resBody (mRes m) (mExpert m) (mJob m) (mPart m) + 2 ^ 134 * stRefused) }, ?_, rfl, rfl⟩
  show Host.Outcome.next (s.onCtrl 0x10 m _) = _
  rw [State.onCtrl, if_pos sound]
  dsimp only
  rw [if_pos (by simpa using foreign)]
  rfl

theorem xSlotRows_lt (e : Nat) : xSlotRows e < 256 := Nat.mod_lt _ (by decide)

/-- With no slot taken and no row staged, an expert's first slot may be given. -/
theorem State.grantable_of_none {s : State} {q e : Nat} (taken : (s.disp q).taken = []) (tokens : (s.disp q).tokens = []) (parts : (s.disp q).parts = [])
    (slots : 0 < xSlots (s.expert e)) : s.grantable q e = some 0 := by
  have rows := xSlotRows_lt (s.expert e)
  obtain ⟨n, some'⟩ := Nat.exists_eq_succ_of_ne_zero (Nat.ne_of_gt slots)
  rw [State.grantable, State.staged_of_none tokens parts, if_pos (show 0 + xSlotRows (s.expert e) ≤ 16384 by omega), State.freeSlot, some', List.range_succ_eq_map]
  exact List.find?_cons_of_pos (by simp [taken])

theorem execReserve_grants {s : State} {m : CtrlMsg} {q n : Nat} (valid : xValid (s.expert (mExpert m)) = true)
    (own : s.isOwn (xDevice (s.expert (mExpert m))) = true) (home : s.expertPartition (mExpert m) = some q) (job : s.jobId q = mJob m)
    (place : s.physicalOf q (xIntake (s.expert (mExpert m))) = some n) (open' : s.tileState n ≠ 5) (taken : (s.disp q).taken = [])
    (tokens : (s.disp q).tokens = []) (parts : (s.disp q).parts = []) (first : ∀ r, r ∈ (s.disp q).queue → r.expert ≠ mExpert m)
    (sound : ctrlOk 0x10 m = true) (slots : 0 < xSlots (s.expert (mExpert m))) :
    ∃ t a r, exec (.reserve m) s = .next t ∧ (t.disp q).taken = [r] ∧ r.expert = mExpert m ∧ r.slot = 0 ∧ r.device = m.src ∧ r.resId = mRes m ∧
      t.sent = .control a :: s.sent ∧ a.mtype = 0x11 ∧ a.dst = m.src ∧ t = { s with disps := t.disps, sent := t.sent } := by
  have alone : (s.disp q).queue.any (fun r => r.expert == mExpert m) = false := by simpa using first
  have closed : (s.tileState n == tsClosed) = false := by simpa using open'
  refine ⟨s.giveSlot q { expert := mExpert m, device := m.src, part := mPart m, resId := mRes m, job := mJob m } 0, _, _, ?_,
    by rw [State.giveSlot, State.control, State.disp_emit, State.disp_modDisp_same, taken]; rfl, rfl, rfl, rfl, rfl, rfl, rfl, rfl,
    (((State.onlyDispatch.refl s).modDisp ..).emit _).with_regs rfl⟩
  show Host.Outcome.next (s.onCtrl 0x10 m _) = _
  rw [State.onCtrl, if_pos sound]
  simp only [valid, own, Bool.not_true, Bool.false_eq_true, or_self, if_false, home, job, ne_eq, not_true_eq_false, place, Option.elim_some, closed,
    alone, Bool.not_false, if_true, State.grantable_of_none taken tokens parts slots]

/-! ### The one slot taken -/

theorem execReservationCancel_of_none {s : State} {m : CtrlMsg} (none' : ∀ q, q < 12 → (s.disp q).taken = [] ∧ (s.disp q).queue = []) :
    exec (.reservationCancel m) s = .next s := by
  have unknown (same : Taken → Bool) : partitionNumbers.find? (fun q => (s.disp q).taken.any same || (s.disp q).queue.any same) = none := by
    refine List.find?_eq_none.2 fun q small => ?_
    obtain ⟨taken, queue⟩ := none' q (List.mem_range.1 small)
    simp [taken, queue]
  show Host.Outcome.next (s.onCtrl 0x12 m _) = _
  rw [State.onCtrl]
  dsimp only
  rw [unknown, ite_self]

theorem execCopyArrive_of_none {s : State} {q : Nat} (none' : (s.disp q).taken = []) (i : CopyId) (rows : List Row) :
    exec (.copyArrive q i rows) s = .next s := by
  show execCopyArrive q i rows s = _
  rw [execCopyArrive, none']
  rfl

/-- A copy of up to 8 rows lands with one WRITE. -/
theorem State.landingPackets_of_short (s : State) (q : Nat) (r : Taken) (n : Nat) (h : Row) (rest : List Row) (short : (h :: rest).length ≤ 8) :
    ∃ p, s.landingPackets q r n (h :: rest) = [p] ∧ p.ptype = .write ∧ p.rows = (h :: rest).length ∧ p.sigEn = true ∧ p.sigAdd = 1 ∧
      p.sigGauge = xGauge (s.expert r.expert) ∧ (p.dstX, p.dstY) = (xOf n, yOf n) ∧ p.data.drop 1 = rest.map encodeRow := by
  have one : ((h :: rest).length + 7) / 8 = 1 := by rw [List.length_cons] at short ⊢; omega
  have whole : ((h :: rest).drop (8 * 0)).take 8 = h :: rest := List.take_of_length_le short
  have single : (s.landingPackets q r n (h :: rest)).length = 1 := by rw [State.landingPackets, List.length_map, List.length_range, one]
  obtain ⟨p, packets⟩ := List.length_eq_one_iff.1 single
  have mem : p ∈ s.landingPackets q r n (h :: rest) := by rw [packets]; exact List.mem_cons_self
  rw [State.landingPackets, one] at mem
  obtain ⟨i, first, rfl⟩ := List.mem_map.1 mem
  obtain rfl : i = 0 := by simpa using first
  refine ⟨_, packets, rfl, ?_, ?_, rfl, rfl, rfl, ?_⟩
  · exact congrArg List.length whole
  · simp only [whole]
    simp
  · simp only [whole]
    rfl

/-- A slot given back goes to nobody where no RESERVE is queued. -/
theorem State.serveQueue_modDisp_of_none {s : State} {q : Nat} {f : Disp → Disp} (none' : (f (s.disp q)).queue = []) (e : Nat) :
    (s.modDisp q f).serveQueue q e = s.modDisp q f := State.serveQueue_of_none (by rw [State.disp_modDisp_same, none']) e

/-- Does a CANCEL name a reservation, granted or queued? -/
def cancelNames (m : CtrlMsg) : Taken → Bool := fun r => r.resId == mRes m && r.device == m.src && r.part == mPart m && r.expert == mExpert m

section Slot
variable {s : State} {q : Nat} {r : Taken} (taken : (s.disp q).taken = [r])
include taken

/-- The marks of an arriving copy name the one slot taken. -/
theorem execCopyArrive_lands {n : Nat} {h : Row} {rest : List Row} (waits : r.landed = false)
    (place : s.physicalOf q (xIntake (s.expert r.expert)) = some n) (short : (h :: rest).length ≤ 8) :
    ∃ t p, exec (.copyArrive q ⟨r.device, r.part, r.resId⟩ (h :: rest)) s = .next t ∧
      t.sent = .confirm r.device r.part r.resId :: .packet ((s.sequencerPos q).getD 0) false p :: s.sent ∧ p.ptype = .write ∧
      p.rows = (h :: rest).length ∧ p.sigEn = true ∧ p.sigAdd = 1 ∧ p.sigGauge = xGauge (s.expert r.expert) ∧ (p.dstX, p.dstY) = (xOf n, yOf n) ∧
      p.data.drop 1 = rest.map encodeRow ∧ (t.disp q).taken = [{ r with landed := true }] ∧
      t.obj (0x5210 + q) 1 = min (s.obj (0x5210 + q) 1 + 1) (2 ^ 64 - 1) ∧ t = { s with regs := t.regs, disps := t.disps, sent := t.sent } := by
  obtain ⟨p, packets, type, rows, signals, adds, gauge, dst, data⟩ := s.landingPackets_of_short q r n
    (landedHeader h ((reqTargets h.toNat).findIdx (fun e => e == r.expert)) r.device (fieldOf h.toNat 32 16) r.slot) rest short
  have found : (s.disp q).taken.find? (fun x => x.resId == r.resId && x.device == r.device && x.part == r.part && !x.landed) = some r := by
    rw [taken]
    exact List.find?_cons_of_pos (by simp [waits])
  refine ⟨(((s.modDisp q (fun d => { d with taken := d.taken.map (fun x => if x = r then { x with landed := true } else x) })).emit
      (.packet ((s.sequencerPos q).getD 0) false p)).count (0x5210 + q) 1 0 64).emit (.confirm r.device r.part r.resId), p, ?_, rfl, type, rows,
    signals, adds, gauge, dst, data, ?_, State.obj_count_same .., ((((State.onlyDispatch.refl s).modDisp ..).emit _).count ..).emit _⟩
  · show execCopyArrive q _ _ s = _
    simp only [execCopyArrive, found, place, packets, List.map_cons, List.map_nil, State.emits_cons, State.emits_nil]
  · rw [State.disp_emit, State.disp_count, State.disp_emit, State.disp_modDisp_same, taken]
    simp

variable (none' : (s.disp q).queue = [])
include none'

theorem execReservationCancel_frees {m : CtrlMsg} (small : q < 12) (sound : ctrlOk 0x12 m = true)
    (before : ∀ j, j < q → (s.disp j).taken = [] ∧ (s.disp j).queue = []) (res : mRes m = r.resId) (src : m.src = r.device) (part : mPart m = r.part)
    (expert : mExpert m = r.expert) : ∃ t, exec (.reservationCancel m) s = .next t ∧ (t.disp q).taken = [] ∧ t = { s with disps := t.disps } := by
  have names : cancelNames m r = true := by simp [cancelNames, res, src, part, expert]
  have found : partitionNumbers.find? (fun q => (s.disp q).taken.any (cancelNames m) || (s.disp q).queue.any (cancelNames m)) = some q := by
    refine List.find?_range_eq_some.2 ⟨by simp [taken, names], List.mem_range.2 small, fun j lt => ?_⟩
    obtain ⟨noSlot, noQueue⟩ := before j lt
    simp [noSlot, noQueue]
  refine ⟨s.modDisp q (fun d => { d with taken := d.taken.filter (fun r => !cancelNames m r), queue := d.queue.filter (fun r => !cancelNames m r) }), ?_, ?_, rfl⟩
  · show Host.Outcome.next (s.onCtrl 0x12 m _) = _
    rw [State.onCtrl, if_pos sound]
    unfold cancelNames at found ⊢
    dsimp only
    rw [found]
    exact congrArg Host.Outcome.next (State.serveQueue_modDisp_of_none (by rw [none', List.filter_nil]) _)
  · rw [State.disp_modDisp_same, taken, List.filter_cons_of_neg (by simp [names]), List.filter_nil]

/-- A RELEASE row that names the one slot taken is acknowledged and frees it. -/
theorem execReleaseRequest_frees {p : Packet} {v : Row} (sound : soundPacket p) (open' : (s.disp q).held = []) (common : commonOk p = true)
    (clean : p.data.map decodeWord = [Decoded.clean v]) (ok : s.releaseOk q v.toNat = true) :
    ∃ t a, exec (.releaseRequest q p) s = .next t ∧ (t.disp q).taken = [] ∧ t.sent = .packet ((s.sequencerPos q).getD 0) true a :: s.sent ∧
      a.ptype = .ack ∧ t = { s with regs := t.regs, disps := t.disps, sent := t.sent } := by
  have rows : reqRows p = [v] := reqRows_of_clean (ds := [v]) clean
  have names : (r.expert == fieldOf v.toNat 16 12 && r.slot == fieldOf v.toNat 32 10) = true := by
    simp only [State.releaseOk, Bool.and_eq_true, taken, List.any_cons, List.any_nil, Bool.or_false] at ok
    obtain ⟨-, names⟩ := ok
    simpa using names
  have takes : s.takeDispWrite q ⟨2, p.data.length, p⟩ = ((s.payloadCounted (s.dispPos q)).sendReply (s.dispPos q) p stOk).modDisp q
      (fun d => { d with taken := d.taken.filter (fun r => !(r.expert == fieldOf v.toNat 16 12 && r.slot == fieldOf v.toNat 32 10)) }) := by
    show s.takeRelease q p = _
    rw [State.takeRelease, rows]
    simp only [common, List.map_cons, List.map_nil, List.isEmpty_cons, List.all_cons, List.all_nil, ok, Bool.not_true, Bool.and_true, Bool.false_eq_true,
      false_or, State.landAt_of_clean s _ (ds := [v]) clean]
    rw [if_neg (by simp [List.eraseDups_cons])]
    exact State.serveQueue_modDisp_of_none none' _
  have enters := State.arriveDisp_enters (q := q) (w := ⟨2, p.data.length, p⟩) sound open' (.inl (by simp))
  rw [takes] at enters
  refine ⟨_, _, congrArg Host.Outcome.next enters, ?_, rfl, rfl,
    ((((State.onlyDispatch.refl s).payloadCounted _).sendReply ..).modDisp ..).modDisp ..⟩
  rw [State.disp_modDisp_same, State.disp_modDisp_same, State.disp_sendReply, State.disp_payloadCounted, taken,
    List.filter_cons_of_neg (by simp [names]), List.filter_nil]

end Slot

end Sys2Proof.Machine
end

section
/-! PROOF. HINT_REQUEST: a hint of this device that is refused, that prefetches nothing, that issues one read (10 R250, R258). -/

namespace Sys2Proof.Machine

/-! ### The header of a hint -/

/-- A WRITE of which nothing is corrected is acknowledged from a position. -/
def State.acked (s : State) (pos : Nat) (p : Packet) : State := (s.payloadCounted pos).sendReply pos p stOk

section Acked
variable (s : State) (pos : Nat) (p : Packet)

theorem State.acked_sent : (s.acked pos p).sent = .packet pos true (replyTo pos p .ack stOk []) :: s.sent := rfl
theorem State.disp_acked (q : Nat) : (s.acked pos p).disp q = s.disp q := rfl
theorem State.expert_acked (e : Nat) : (s.acked pos p).expert e = s.expert e := rfl
theorem State.server_acked (v : Server) : (s.acked pos p).server v = s.server v := by cases v <;> rfl
theorem State.cfg_acked (q : Nat) : (s.acked pos p).cfg q = s.cfg q := rfl

theorem State.memPlace_acked (q offset : Nat) : (s.acked pos p).memPlace q 1 offset = s.memPlace q 1 offset := by
  rw [State.memPlace, if_neg (by decide), State.memPlace, if_neg (by decide), State.cfg_acked]

theorem State.obj_acked (i : Nat) {j : Nat} (sub : j < 0x53) : (s.acked pos p).obj i j = s.obj i j := by
  rw [State.acked, State.sendReply, State.obj_emit, State.obj_payloadCounted _ _ _ sub (by decide)]

theorem State.isOwn_acked (d : Nat) : (s.acked pos p).isOwn d = s.isOwn d := by
  rw [State.isOwn, State.ownDevice, State.obj_acked _ _ _ _ (by decide), State.isOwn, State.ownDevice]

theorem State.expertPartition_acked (e : Nat) : (s.acked pos p).expertPartition e = s.expertPartition e := by
  simp only [State.expertPartition, State.expert_acked, State.obj_acked s pos p _ (show 0 < 0x53 by decide), State.obj_acked s pos p _ (show 1 < 0x53 by decide)]

theorem State.holdFull_acked (x e : Nat) : (s.acked pos p).holdFull x e = s.holdFull x e := by
  simp only [State.holdFull, State.expert_acked, State.memPlace_acked, State.server_acked]

theorem State.acked_onlyDispatch : s.onlyDispatch (s.acked pos p) := ((State.onlyDispatch.refl s).payloadCounted pos).sendReply ..

end Acked

section Hint
variable {s : State} {q rows : Nat} {p : Packet} {h : Row} (sound : soundPacket p) (open' : (s.disp q).held = []) (own : s.isOwn p.srcDevice = true)
  (clean : p.data.map decodeWord = [Decoded.clean h])
include sound open' own clean

/-- A hint with a bad header is answered BAD_VALUE and changes nothing else. -/
theorem execHintRequest_of_bad (bad : rows ≠ 1 ∨ commonOk p = false ∨ reqKind h.toNat ≠ 3 ∨ s.headerOk h.toNat = false) :
    ∃ t a, exec (.hintRequest q ⟨rows, p⟩) s = .next t ∧ t = { s with disps := t.disps, sent := .packet ((s.sequencerPos q).getD 0) true a :: s.sent } ∧
      a.ptype = .status ∧ a.status = stBadValue ∧ t.disp q = s.disp q := by
  have header : reqRows p = [h] := reqRows_of_clean (ds := [h]) clean
  have takes : s.takeDispWrite q ⟨3, rows, p⟩ = s.sendReply (s.dispPos q) p stBadValue := by
    show s.takeHint q rows p = _
    rw [State.takeHint, header, own]
    refine (if_neg (by simp)).trans (if_pos ?_)
    obtain size | common | kind | fields := bad
    · exact .inl size
    · exact .inr (.inr (.inl (by simp [common])))
    · exact .inr (.inr (.inr (.inl kind)))
    · exact .inr (.inr (.inr (.inr (by simpa using fields))))
  have enters := State.arriveDisp_enters (q := q) (w := ⟨3, rows, p⟩) sound open' (.inl (by simp))
  rw [takes] at enters
  refine ⟨_, _, congrArg Host.Outcome.next enters, (((State.onlyDispatch.refl s).sendReply ..).modDisp ..).with_regs rfl, rfl, rfl, ?_⟩
  rw [State.disp_modDisp_same, State.disp_sendReply, ← open']

variable (size : rows = 1) (common : commonOk p = true) (kind : reqKind h.toNat = 3) (fields : s.headerOk h.toNat = true)
include size common kind fields

/-- A good hint is acknowledged, then run. -/
theorem execHintRequest_runs : exec (.hintRequest q ⟨rows, p⟩) s = .next
    (((s.acked (s.dispPos q) p).runHint q h.toNat false).modDisp q (fun d => { d with held := [] })) := by
  have header : reqRows p = [h] := reqRows_of_clean (ds := [h]) clean
  have one : p.data.length = 1 := by simpa using congrArg List.length clean
  have takes : s.takeDispWrite q ⟨3, rows, p⟩ =
      (s.acked (s.dispPos q) p).runHint q h.toNat false := by
    show s.takeHint q rows p = _
    rw [State.takeHint, header, own, List.headD_cons]
    refine (if_neg (by simp)).trans ((if_neg (by simp [size, one, common, kind, fields])).trans ?_)
    rw [State.landAt_of_clean s _ (ds := [h]) clean]
    rfl
  rw [← takes]
  exact congrArg Host.Outcome.next (State.arriveDisp_enters (w := ⟨3, rows, p⟩) sound open' (.inl (by simp)))

end Hint

/-! ### Hints that run (R258) -/

theorem xRows_ne_zero_of_hintReads {e : Nat} {r : Nat × Nat} {rs : List (Nat × Nat)} (reads : hintReads e = r :: rs) : xRows e ≠ 0 := by
  intro none'
  simp [hintReads, none'] at reads

theorem State.modServer_frame (s : State) (v : Server) (f : MemServer → MemServer) :
    s.modServer v f = { s with hbms := (s.modServer v f).hbms, channels := (s.modServer v f).channels } := by cases v <;> rfl

/-- The one read of a hint goes to a server that answers. -/
theorem State.issueHint_of_single {s : State} {x e a k : Nat} (reads : Machine.hintReads (s.expert e) = [(a, k)])
    (alive : (s.server (s.memPlace x 1 (farOffset a)).1).dead = false) : ∃ f, s.issueHint x e =
      (s.modServer (s.memPlace x 1 (farOffset a)).1 f).emit
        (.memRead (s.memPlace x 1 (farOffset a)).1 (s.server (s.memPlace x 1 (farOffset a)).1).nextId) := by
  rw [State.issueHint, reads]
  exact ⟨_, if_neg (by simp [alive])⟩

section Run
variable {s : State} {q h : Nat} (tokens : (s.disp q).tokens = []) (parts : (s.disp q).parts = [])
include tokens parts

/-- A hint for experts without weights does nothing. -/
theorem State.runHint_of_weightless (far : Bool) (empty : ∀ e, e ∈ reqTargets h → xRows (s.expert e) = 0) : s.runHint q h far = s := by
  have none' : (reqTargets h).filter (fun e => xRows (s.expert e) != 0) = [] := by simpa using empty
  simp only [State.runHint, none', List.filter_nil, ite_self, State.staged_of_none tokens parts, List.any_nil]
  simp [State.each]

/-- A hint for one loaded expert that one read fetches issues that read and counts. -/
theorem State.runHint_of_single {e x a k : Nat} {srv : Server} (target : reqTargets h = [e]) (own : s.isOwn (xDevice (s.expert e)) = true)
    (home : s.expertPartition e = some x) (reads : Machine.hintReads (s.expert e) = [(a, k)]) (place : srv = (s.memPlace x 1 (farOffset a)).1)
    (alive : (s.server srv).dead = false) (room : s.holdFull x e = false) : ∃ f, s.runHint q h false =
      ((s.modServer srv f).emit (.memRead srv (s.server srv).nextId)).count (0x5210 + q) 7 0 32 := by
  subst place
  have weights : [e].filter (fun e => xRows (s.expert e) != 0) = [e] := by simp [xRows_ne_zero_of_hintReads reads]
  have mine : [e].filter (fun e => s.isOwn (xDevice (s.expert e))) = [e] := by simp [own]
  have others : [e].filter (fun e => !s.isOwn (xDevice (s.expert e))) = [] := by simp [own]
  have fetches : s.hintReads e = true := by simp [State.hintReads, home, reads, alive]
  obtain ⟨f, issued⟩ := State.issueHint_of_single reads alive
  refine ⟨f, ?_⟩
  simp only [State.runHint, target, weights, mine, others, State.staged_of_none tokens parts, List.any_cons, List.any_nil, home, Option.elim_some, room,
    fetches, State.each, List.foldl_cons, List.foldl_nil, issued, Bool.or_false, Bool.false_eq_true, if_false, if_true, or_self, Nat.zero_mul]
  rfl

end Run

/-! ### HINT_REQUEST -/

section Hint
variable {s : State} {q rows : Nat} {p : Packet} {h : Row} (sound : soundPacket p) (open' : (s.disp q).held = []) (own : s.isOwn p.srcDevice = true)
  (clean : p.data.map decodeWord = [Decoded.clean h]) (size : rows = 1) (common : commonOk p = true) (kind : reqKind h.toNat = 3)
  (fields : s.headerOk h.toNat = true) (tokens : (s.disp q).tokens = []) (parts : (s.disp q).parts = [])
include sound open' own clean size common kind fields tokens parts

theorem execHintRequest_of_weightless (empty : ∀ e, e ∈ reqTargets h.toNat → xRows (s.expert e) = 0) :
    ∃ t a, exec (.hintRequest q ⟨rows, p⟩) s = .next t ∧ t.sent = .packet ((s.sequencerPos q).getD 0) true a :: s.sent ∧ a.ptype = .ack ∧
      t.obj (0x5210 + q) 7 = s.obj (0x5210 + q) 7 ∧ t = { s with regs := t.regs, disps := t.disps, sent := t.sent } := by
  have run := execHintRequest_runs sound open' own clean size common kind fields
  rw [State.runHint_of_weightless (s := s.acked (s.dispPos q) p) tokens parts false empty] at run
  exact ⟨_, _, run, s.acked_sent .., rfl, State.obj_payloadCounted _ _ _ (by decide) (by decide), (s.acked_onlyDispatch ..).modDisp ..⟩

theorem execHintRequest_of_single {e x a k : Nat} {srv : Server} (target : reqTargets h.toNat = [e]) (near : s.isOwn (xDevice (s.expert e)) = true)
    (home : s.expertPartition e = some x) (reads : hintReads (s.expert e) = [(a, k)]) (place : srv = (s.memPlace x 1 (farOffset a)).1)
    (alive : (s.server srv).dead = false) (room : s.holdFull x e = false) :
    ∃ t y, exec (.hintRequest q ⟨rows, p⟩) s = .next t ∧
      t.sent = .memRead srv (s.server srv).nextId :: .packet ((s.sequencerPos q).getD 0) true y :: s.sent ∧ y.ptype = .ack ∧
      t.obj (0x5210 + q) 7 = min (s.obj (0x5210 + q) 7 + 1) (2 ^ 32 - 1) ∧
      t = { s with regs := t.regs, disps := t.disps, hbms := t.hbms, channels := t.channels, sent := t.sent } := by
  have run := execHintRequest_runs sound open' own clean size common kind fields
  obtain ⟨f, issued⟩ := State.runHint_of_single (s := s.acked (s.dispPos q) p) (srv := srv) tokens parts target
    ((s.isOwn_acked ..).trans near) ((s.expertPartition_acked ..).trans home) reads (place.trans (congrArg Prod.fst (s.memPlace_acked ..)).symm)
    (by rw [State.server_acked, alive])
    ((s.holdFull_acked ..).trans room)
  rw [issued, State.server_acked] at run
  have fetched := (s.acked (s.dispPos q) p).modServer_frame srv f
  refine ⟨_, replyTo (s.dispPos q) p .ack stOk [], run, ?_, rfl, ?_, ?_⟩
  · rw [State.modDisp_sent, State.count_sent, State.emit_sent, fetched]
    rfl
  · refine (State.obj_count_same ..).trans ?_
    rw [State.obj_emit, fetched]
    exact congrArg (fun v => min (v + 1) (2 ^ 32 - 1)) (s.obj_payloadCounted _ _ (by decide) (by decide))
  · rw [fetched, s.acked_onlyDispatch]
    rfl

end Hint

end Sys2Proof.Machine
end

section
/-! PROOF. The expert table and the dispatchers together (10 R247-R259). -/

namespace Sys2Proof.Machine

/-- Settles O39: one lemma for each command, and one for each of the cases in which it acts or does nothing. -/
theorem expertsAndDispatchers : Obligations.ExpertsAndDispatchers := by
  refine ⟨fun s sess passed => ⟨fun q => execExpertApply_of_job passed, execExpertApply_applies passed⟩, ?tokens,
    fun s m => execReserve_of_foreign, fun s m q n => execReserve_grants, ?unknown, fun s m => execReservationCancel_of_none,
    fun s q token => execMulticastTimeout_of_early, ?single, ?slot, ?hint⟩
  case tokens =>
    rintro s q pos rows p rfl parts sound
    refine ⟨?_, execTokenRequest_of_held sound, execTokenRequest_of_full sound parts, fun ds good open' room more clean =>
      execTokenRequest_of_some sound parts good clean open' room more, fun e ds i none' good comes fits all clean =>
      execTokenRequest_of_all sound parts good clean none' comes fits all, execStagingHoldRelease_of_none, execStagingHoldRelease_of_full parts⟩
    rintro st rfl bad open'
    exact execTokenRequest_of_bad sound parts bad open'
  case unknown =>
    exact fun s q resId device part m rows none' => ⟨fun to' res => ⟨execGrant_of_unknown none' to' res, execDstatus_of_unknown none' to' res⟩,
      execNoCreditRetry_of_unknown none', execCopyReceiptConfirm_of_unknown none', fun empty => execCopyArrive_of_none empty _ rows⟩
  case single =>
    intro s q k x tokens targets multicast
    refine ⟨fun m => execGrant_launches tokens targets multicast, fun m => execDstatus_of_noCredit tokens targets, fun retries due => ?_,
      execMulticastTimeout_cancels tokens targets multicast, execCopyReceiptConfirm_drops tokens targets⟩
    exact execNoCreditRetry_asks tokens targets retries due
  case slot =>
    intro s q n r taken none'
    exact ⟨fun h rest waits place short => execCopyArrive_lands taken waits place short, fun m => execReservationCancel_frees taken none',
      fun p v => execReleaseRequest_frees taken none'⟩
  case hint =>
    intro s q rows p h sound open' own clean
    refine ⟨execHintRequest_of_bad sound open' own clean, fun size common kind fields tokens parts =>
      execHintRequest_of_weightless sound open' own clean size common kind fields tokens parts, ?_⟩
    intro e x a k srv size common kind fields tokens parts target near home reads place alive room
    exact execHintRequest_of_single sound open' own clean size common kind fields tokens parts target near home reads place alive room

end Sys2Proof.Machine
end

section
/-! PROOF. What reading and zeroing rows of memory leaves: contexts, pools, pagers and jobs, the counts of zero fills, and rows that are zero (11 R275, 13 R308-R319). -/

namespace Sys2Proof.Machine

/-! ### Tables without some of their keys -/

theorem Tbl.find_filter_key {α : Type} (t : Tbl α) (p : Nat → Bool) (k : Nat) : Tbl.find (t.filter (fun e => p e.1)) k = if p k then Tbl.find t k else none := by
  induction t with
  | nil => simp [Tbl.find]
  | cons e r ih =>
    obtain ⟨j, v⟩ := e
    by_cases same : j = k
    · subst same
      cases kept : p j <;> simp [Tbl.find, kept, ih]
    · cases kept : p j <;> simp [Tbl.find, kept, ih, same]

theorem Tbl.get_filter_key {α : Type} (t : Tbl α) (d : α) (p : Nat → Bool) (k : Nat) :
    Tbl.get (t.filter (fun e => p e.1)) d k = if p k then Tbl.get t d k else d := by
  rw [Tbl.get, Tbl.find_filter_key, Tbl.get]
  split <;> rfl

/-! ### Where only memory, its servers, registers and reports differ -/

/-- Nothing but memory, its servers with the spans retired, registers and messages differs; no count of zero fills moves, and a zero row of HBM stays zero. -/
structure State.readsMemory (s t : State) : Prop where
  frame : t = { s with regs := t.regs, sent := t.sent, hbm := t.hbm, ddr := t.ddr, hbms := t.hbms, channels := t.channels, spans := t.spans }
  fills : ∀ i, t.obj i 0xF = s.obj i 0xF
  zeros : ∀ row, Tbl.get s.hbm 0 row = 0 → Tbl.get t.hbm 0 row = 0

namespace State.readsMemory

theorem refl (s : State) : s.readsMemory s := ⟨rfl, fun _ => rfl, fun _ zero => zero⟩

/-- Where neither registers nor HBM differ. -/
theorem of_frame {s t : State} (frame : t = { s with sent := t.sent, ddr := t.ddr, hbms := t.hbms, channels := t.channels, spans := t.spans }) :
    s.readsMemory t := by
  rw [frame]
  exact ⟨rfl, fun _ => rfl, fun _ zero => zero⟩

section Kept
variable {s t : State} (h : s.readsMemory t)
include h

theorem trans {u : State} (g : t.readsMemory u) : s.readsMemory u :=
  ⟨g.frame.trans (by rw [h.frame]), fun i => (g.fills i).trans (h.fills i), fun row zero => g.zeros row (h.zeros row zero)⟩

theorem ctxs : t.ctxs = s.ctxs := by rw [h.frame]
theorem pools : t.pools = s.pools := by rw [h.frame]
theorem pagers : t.pagers = s.pagers := by rw [h.frame]
theorem jobs : t.jobs = s.jobs := by rw [h.frame]

/-! ### Registers, servers, rows of DDR5 -/

theorem setObj (i e v : Nat) {j : Nat} (other : j ≠ 0xF) (small : j < 256) (element : e < 65536) : s.readsMemory (t.setObj i j e v) :=
  h.trans ⟨rfl, fun k => t.obj_setObj_ne v (by decide) (by decide) small element (.inr (.inl other.symm)), fun _ zero => zero⟩

theorem count (i w n : Nat) {j : Nat} (other : j ≠ 0xF) (small : j < 256) : s.readsMemory (t.count i j 0 w n) := h.setObj i 0 _ other small (by decide)

theorem reportFor (q : Option Nat) (c : Nat) (x y : Suspect) (st d : Nat) (u : Option Suspect) : s.readsMemory (t.reportFor q c x y st d u) :=
  h.trans (of_frame rfl)

theorem modServer (v : Server) (f : MemServer → MemServer) : s.readsMemory (t.modServer v f) := by
  cases v <;> exact h.trans (of_frame rfl)

theorem setDdr (d : Tbl (BitVec 640)) : s.readsMemory (t.setDdr d) := h.trans (of_frame rfl)

theorem setSpans (l : List Nat) : s.readsMemory { t with spans := l } := h.trans (of_frame rfl)

theorem dropHeld (v : Server) (rows : List Nat) : s.readsMemory (t.dropHeld v rows) := h.modServer ..

theorem ite {c : Prop} [Decidable c] {u : State} (g : s.readsMemory u) : s.readsMemory (if c then t else u) := by
  split
  · exact h
  · exact g

theorem each {α : Type} {xs : List α} {f : State → α → State} (k : ∀ (u : State) x, u.readsMemory (f u x)) : s.readsMemory (t.each xs f) :=
  State.each_induction s.readsMemory h fun u x _ kept => kept.trans (k u x)

/-! ### Corrections and retirement (R314-R319) -/

theorem retireBank (v : Server) (b : Nat) : s.readsMemory (t.retireBank v b) := by
  have counted := (h.modServer v (fun m => { m with banks := m.banks ++ [b] })).count (serverIx v) 16 1 (j := 6) (by decide) (by decide)
  refine h.ite ?_
  cases v with
  | stack n => exact ((counted.setSpans _).setObj _ 0 1 (j := 0) (by decide) (by decide) (by decide)).ite (counted.setSpans _)
  | channel n => exact counted

theorem retireRow (v : Server) (b r : Nat) : s.readsMemory (t.retireRow v b r) := by
  have spare (f : MemServer → MemServer) := (h.modServer v f).count (serverIx v) 16 1 (j := 5) (by decide) (by decide)
  exact h.ite ((h.retireBank v b).ite (((spare _).retireBank v b).ite (spare _)))

theorem trackCorrection (v : Server) (b r : Nat) : s.readsMemory (t.trackCorrection v b r) := by
  unfold State.trackCorrection
  dsimp only
  split
  · exact ((h.modServer v _).retireRow v b r).ite (h.modServer v _)
  · refine (h.modServer v _).ite ?_
    split
    · exact h.modServer v _
    · exact h

/-- A row is written where it was not zero, or to DDR5. -/
theorem putRow (v : Server) (row : Nat) (d : Row) (written : (∃ c, v = .channel c) ∨ Tbl.get t.hbm 0 row ≠ 0) : s.readsMemory (t.putRow v row d) := by
  cases v with
  | channel c => exact h.setDdr _
  | stack n =>
    have nonzero : Tbl.get t.hbm 0 row ≠ 0 := written.resolve_left (by simp)
    refine h.trans ⟨rfl, fun _ => rfl, fun j zero => ?_⟩
    have other : j ≠ row := by rintro rfl; exact nonzero zero
    exact (Tbl.get_put_other _ _ _ _ _ _ other).trans zero

theorem corrected (v : Server) (row n : Nat) (d : Row) (written : (∃ c, v = .channel c) ∨ Tbl.get t.hbm 0 row ≠ 0) : s.readsMemory (t.corrected v row n d) := by
  have reported := (h.count (serverIx v) 64 n (j := 2) (by decide) (by decide)).reportFor none clMemoryCorrected (serverSus v) (serverSus v) 0 row none
  unfold State.corrected
  refine each ?_ fun u _ => (refl u).trackCorrection ..
  split
  · exact reported
  · exact reported.putRow v row d written

theorem uncorrectable (v : Server) (row : Nat) (q : Option Nat) : s.readsMemory (t.uncorrectable v row q) :=
  (h.count _ _ _ (by decide) (by decide)).reportFor ..

end Kept

/-! ### Reads (R312, R314, R316) -/

theorem decodeWord_zero : decodeWord 0 = .clean 0 := by decide +kernel

theorem readMem (s : State) (v : Server) (row : Nat) (q : Option Nat) : s.readsMemory (s.readMem v row q).1 := by
  unfold State.readMem
  split
  · exact refl s
  · cases v with
    | stack n =>
      dsimp only
      split
      · exact refl s
      · split
        · exact refl s
        · next d read =>
          refine (refl s).corrected _ _ _ _ (.inr fun zero => ?_)
          rw [zero, decodeWord_zero] at read
          cases read
        · exact (refl s).uncorrectable ..
    | channel c =>
      dsimp only
      split
      · have counted := (refl s).count (0x3110 + c) 32 1 (j := 4) (by decide) (by decide)
        exact (counted.ite (refl s)).ite ((counted.ite (refl s)).corrected _ _ _ _ (.inl ⟨c, rfl⟩))
      · exact (refl s).uncorrectable ..

theorem ringRead (s : State) (ddr : Bool) (row : Nat) (q : Option Nat) : s.readsMemory (s.ringRead ddr row q).1 := readMem ..

theorem readMemRows (s : State) (v : Server) (rows : List Nat) (q : Option Nat) : s.readsMemory (s.readMemRows v rows q).1 :=
  List.foldlRecOn (motive := fun acc : State × List (Option Row) => s.readsMemory acc.1) rows _ (refl s) fun acc kept row _ => kept.trans (readMem acc.1 v row q)

/-! ### Rows written and zeroed (R275, R308) -/

theorem closeOverlap (s : State) (v : Server) (rows : List Nat) : s.readsMemory (s.closeOverlap v rows) := by
  refine List.foldlRecOn (motive := s.readsMemory) _ _ (refl s) fun t kept m _ => ?_
  dsimp only
  split
  · exact (kept.trans (readMemRows ..)).modServer ..
  · exact kept

theorem ringWrite_ddr (s : State) (row : Nat) (d : Row) : s.readsMemory (s.ringWrite true row d) := by
  have cleared := (closeOverlap s (s.rowServer true row) [row]).dropHeld (s.rowServer true row) [row]
  unfold State.ringWrite
  dsimp only
  split
  · exact cleared.modServer ..
  · exact cleared.putRow _ _ _ (.inl ⟨_, rfl⟩)

/-- A zeroed range leaves no entry of HBM that it covers. -/
theorem dropHbm (s : State) (keep : Nat → Bool) : s.readsMemory { s with hbm := s.hbm.filter (fun e => keep e.1) } := by
  refine ⟨rfl, fun _ => rfl, fun row zero => ?_⟩
  exact (Tbl.get_filter_key s.hbm 0 keep row).trans (by rw [zero, ite_self])

theorem zeroRows (s : State) (ddr : Bool) (row n : Nat) : s.readsMemory (s.zeroRows ddr row n) := by
  have cleared (vs : List Server) (rows : List Nat) (keep : Nat × Row → Bool) : s.readsMemory (s.each vs (fun t v =>
      ((t.closeOverlap v rows).dropHeld v rows).modServer v (fun m => { m with wbuf := m.wbuf.filter keep }))) :=
    (refl s).each fun u v => ((closeOverlap u v rows).dropHeld v rows).modServer ..
  unfold State.zeroRows
  dsimp only
  split
  · exact ((cleared ..).setDdr _).each fun u r => ringWrite_ddr ..
  · exact (cleared ..).trans (dropHbm _ (fun k => !(decide (row ≤ k) && decide (k < row + n))))

end State.readsMemory

/-- Every row of a zeroed range of HBM is zero. -/
theorem State.hbm_zeroRows (s : State) {row n j : Nat} (low : row ≤ j) (high : j < row + n) : Tbl.get (s.zeroRows false row n).hbm 0 j = 0 := by
  unfold State.zeroRows
  refine (Tbl.get_filter_key _ 0 (fun k => !(decide (row ≤ k) && decide (k < row + n))) j).trans (if_neg ?_)
  simp [low, high]

end Sys2Proof.Machine
end

section
/-! PROOF. What the pager's run leaves: contexts and pools, the zero rows of HBM, and a partition that queues no move (11 R275, R281). -/

namespace Sys2Proof.Machine

/-- The pager has worked beside partition `p`: the contexts stand, no pool was applied or dropped, a zero row of HBM stays zero, and the queue and the count of fills of `p` are as they were. -/
structure State.pagesBeside (p : Nat) (s t : State) : Prop where
  ctxs : t.ctxs = s.ctxs
  applied : ∀ q, (t.pool q).applied = (s.pool q).applied
  zeros : ∀ row, Tbl.get s.hbm 0 row = 0 → Tbl.get t.hbm 0 row = 0
  queue : (t.pager p).queue = (s.pager p).queue
  fills : t.obj (0x3410 + p) 0xF = s.obj (0x3410 + p) 0xF

/-! ### Pools and pagers after a change -/

@[simp] theorem State.pool_modPool_same (s : State) (q : Nat) (f : CtxPool → CtxPool) : (s.modPool q f).pool q = f (s.pool q) := Tbl.get_put_same ..

theorem State.pool_modPool_ne (s : State) {q p : Nat} (f : CtxPool → CtxPool) (h : p ≠ q) : (s.modPool q f).pool p = s.pool p :=
  Tbl.get_put_other _ _ _ _ _ _ h

@[simp] theorem State.pager_modPager_same (s : State) (q : Nat) (f : Pager → Pager) : (s.modPager q f).pager q = f (s.pager q) := Tbl.get_put_same ..

theorem State.pager_modPager_ne (s : State) {q p : Nat} (f : Pager → Pager) (h : p ≠ q) : (s.modPager q f).pager p = s.pager p :=
  Tbl.get_put_other _ _ _ _ _ _ h

theorem State.applied_modPool (s : State) (q : Nat) {f : CtxPool → CtxPool} (kept : ∀ x, (f x).applied = x.applied) (p : Nat) :
    ((s.modPool q f).pool p).applied = (s.pool p).applied := by
  by_cases same : p = q
  · subst same
    rw [State.pool_modPool_same, kept]
  · rw [State.pool_modPool_ne s f same]

theorem State.applied_setFreeList (s : State) (q : Nat) (ddr : Bool) (l : FreeList) (p : Nat) :
    ((s.setFreeList q ddr l).pool p).applied = (s.pool p).applied :=
  s.applied_modPool q (fun x => by cases ddr <;> rfl) p

theorem State.queue_modPager (s : State) (q : Nat) {p : Nat} {f : Pager → Pager} (kept : q = p → ∀ x, (f x).queue = x.queue) :
    ((s.modPager q f).pager p).queue = (s.pager p).queue := by
  by_cases same : p = q
  · subst same
    rw [State.pager_modPager_same, kept rfl]
  · rw [State.pager_modPager_ne s f same]

namespace State.pagesBeside

variable {p : Nat}

theorem refl (s : State) : s.pagesBeside p s := ⟨rfl, fun _ => rfl, fun _ zero => zero, rfl, rfl⟩

section Kept
variable {s t : State} (h : s.pagesBeside p t)
include h

theorem trans {u : State} (g : t.pagesBeside p u) : s.pagesBeside p u :=
  ⟨g.ctxs.trans h.ctxs, fun q => (g.applied q).trans (h.applied q), fun row zero => g.zeros row (h.zeros row zero),
    g.queue.trans h.queue, g.fills.trans h.fills⟩

theorem readsMemory {u : State} (g : t.readsMemory u) : s.pagesBeside p u := by
  refine h.trans ⟨g.ctxs, fun q => ?_, g.zeros, ?_, g.fills _⟩
  · rw [State.pool, g.pools, State.pool]
  · rw [State.pager, g.pagers, State.pager]

theorem modPool (q : Nat) {f : CtxPool → CtxPool} (kept : ∀ x, (f x).applied = x.applied) : s.pagesBeside p (t.modPool q f) :=
  h.trans ⟨rfl, t.applied_modPool q kept, fun _ zero => zero, rfl, rfl⟩

theorem setFreeList (q : Nat) (ddr : Bool) (l : FreeList) : s.pagesBeside p (t.setFreeList q ddr l) :=
  h.modPool q fun x => by cases ddr <;> rfl

theorem modPager (q : Nat) {f : Pager → Pager} (kept : q = p → ∀ x, (f x).queue = x.queue) : s.pagesBeside p (t.modPager q f) :=
  h.trans ⟨rfl, fun _ => rfl, fun _ zero => zero, t.queue_modPager q kept, rfl⟩

theorem zeroPage {q : Nat} (other : q ≠ p) (ddr : Bool) (i : Nat) : s.pagesBeside p (t.zeroPage q ddr i) :=
  (h.readsMemory (State.readsMemory.zeroRows ..)).trans ⟨rfl, fun _ => rfl, fun _ zero => zero, rfl,
    State.obj_setObj_ne _ _ (by decide) (by decide) (by decide) (by decide) (.inl (by omega))⟩

end Kept

/-! ### Pages taken (R275) -/

theorem takePage (n : Nat) (s : State) (q : Nat) (ddr : Bool) : s.pagesBeside p (State.takePage n s q ddr).1 := by
  induction n generalizing s with
  | zero => exact refl s
  | succ n ih =>
    rw [State.takePage]
    split
    · exact refl s
    · next x l _ =>
      dsimp only
      split
      · exact ((refl s).setFreeList q ddr l).trans (ih _)
      · exact (refl s).setFreeList q ddr l

theorem newPage (s : State) (q : Nat) (ddr : Bool) : s.pagesBeside p (s.newPage q ddr).1 := takePage ..

theorem takeFor (s : State) {q : Nat} (other : q ≠ p) (ddr : Bool) (tenant : Nat) : s.pagesBeside p (s.takeFor q ddr tenant).1 := by
  have taken := newPage (p := p) s q ddr
  unfold State.takeFor
  split
  · next s1 x found =>
    rw [found] at taken
    split
    · exact taken
    · exact taken.zeroPage other ddr x.1
  · next s1 found =>
    rw [found] at taken
    exact taken

theorem destOf (s : State) {q : Nat} (other : q ≠ p) (m : PageMove) : s.pagesBeside p (s.destOf q m).1 := by
  unfold State.destOf
  split
  · exact newPage ..
  · exact takeFor s other ..

/-! ### Moves and fills started (R281, R283) -/

theorem startMove (s : State) {q : Nat} (other : q ≠ p) (ms : List PageMove) : s.pagesBeside p (s.startMove q ms).1 := by
  induction ms generalizing s with
  | nil => exact refl s
  | cons m ms ih =>
    have dest := destOf (p := p) s other m
    rw [State.startMove]
    split
    · dsimp only
      exact (refl s).modPager q fun same => absurd same other
    · split
      · next s1 x found =>
        rw [found] at dest
        dsimp only at dest ⊢
        exact dest.modPager q fun same => absurd same other
      · next s1 found =>
        rw [found] at dest
        exact dest.trans (ih s1)

/-- A partition that is none, or that queues no move, is left alone. -/
theorem startAny (s : State) {order : List (Nat × Nat)} (idle : ∀ x ∈ order, x.2 = p → (s.pager p).queue = []) :
    s.pagesBeside p (s.startAny order).1 := by
  induction order generalizing s with
  | nil => exact refl s
  | cons x rest ih =>
    obtain ⟨c, q⟩ := x
    have first : s.pagesBeside p (s.startMove q ((s.pager q).queue.filter (fun m => m.cls == c))).1 := by
      by_cases same : q = p
      · rw [same, idle _ List.mem_cons_self same]
        exact refl s
      · exact startMove s same _
    rw [State.startAny]
    split
    · next s1 found =>
      rw [found] at first
      exact first
    · next s1 found =>
      rw [found] at first
      refine first.trans (ih s1 fun x mem same => ?_)
      rw [first.queue]
      exact idle x (List.mem_cons_of_mem _ mem) same

theorem startFill (s : State) (q : Nat) (ddr : Bool) : s.pagesBeside p (s.startFill q ddr) := by
  unfold State.startFill
  dsimp only
  split
  · exact ((refl s).setFreeList ..).modPager q fun _ _ => rfl
  · split
    · exact ((refl s).setFreeList ..).modPager q fun _ _ => rfl
    · split
      · exact ((refl s).setFreeList ..).modPager q fun _ _ => rfl
      · exact refl s

theorem idleFill (s : State) (q : Nat) : s.pagesBeside p (s.idleFill q) := by
  unfold State.idleFill
  dsimp only
  split
  · exact refl s
  · split
    · exact startFill ..
    · exact (startFill ..).trans (startFill ..)

theorem pumpPages (n : Nat) (s : State) (idle : p < 12 → (s.pager p).queue = []) : s.pagesBeside p (State.pumpPages n s) := by
  induction n generalizing s with
  | zero => exact refl s
  | succ n ih =>
    have started : s.pagesBeside p (s.startAny pagerOrder).1 := startAny s fun x mem same => idle (by
      simp only [pagerOrder, List.mem_flatMap, List.mem_map] at mem
      obtain ⟨c, _, q, small, rfl⟩ := mem
      exact same ▸ List.mem_range.1 small)
    rw [State.pumpPages]
    split
    · exact refl s
    · split
      · next s1 found =>
        rw [found] at started
        exact started.trans (ih s1 fun small => started.queue.trans (idle small))
      · next s1 found =>
        rw [found] at started
        exact started.trans (State.each_induction (s1.pagesBeside p) (refl s1) fun t q _ kept => kept.trans (idleFill t q))

end State.pagesBeside

end Sys2Proof.Machine
end

section
/-! PROOF. What the pager's work on map entries, its queues and its runs leave of contexts: a lost map row damages a context, nothing else of one changes (11 R269, R281-R284). -/

namespace Sys2Proof.Machine

/-- No pool was applied or dropped, and contexts stand but for the damage of some that hold pages. -/
structure State.onlyDamage (s t : State) : Prop where
  ctx : ∀ k, t.ctx k = s.ctx k ∨ (s.ctx k).pages ≠ 0 ∧ t.ctx k = { s.ctx k with damaged := true }
  applied : ∀ p, (t.pool p).applied = (s.pool p).applied

namespace State.onlyDamage

theorem refl (s : State) : s.onlyDamage s := ⟨fun _ => .inl rfl, fun _ => rfl⟩

theorem of_frame {s t : State} (ctxs : t.ctxs = s.ctxs) (pools : t.pools = s.pools) : s.onlyDamage t :=
  ⟨fun k => .inl (State.ctx_congr ctxs k), fun p => by rw [State.pool, pools, State.pool]⟩

section Kept
variable {s t : State} (h : s.onlyDamage t)
include h

/-! ### A context afterwards -/

theorem ctx_eq (k : Nat) : t.ctx k = { s.ctx k with damaged := (t.ctx k).damaged } := by
  obtain same | ⟨_, damaged⟩ := h.ctx k
  · rw [same]
  · rw [damaged]

theorem pages (k : Nat) : (t.ctx k).pages = (s.ctx k).pages := by rw [h.ctx_eq k]
theorem st (k : Nat) : (t.ctx k).st = (s.ctx k).st := by rw [h.ctx_eq k]

/-- A context without pages stands. -/
theorem ctx_of_empty {k : Nat} (empty : (s.ctx k).pages = 0) : t.ctx k = s.ctx k :=
  (h.ctx k).resolve_right fun damage => damage.1 empty

/-! ### Composition -/

theorem trans {u : State} (g : t.onlyDamage u) : s.onlyDamage u := by
  refine ⟨fun k => ?_, fun p => (g.applied p).trans (h.applied p)⟩
  obtain kept | ⟨held, damaged⟩ := h.ctx k
  · rw [← kept]
    exact g.ctx k
  · right
    refine ⟨held, ?_⟩
    obtain kept | ⟨_, again⟩ := g.ctx k
    · rw [kept, damaged]
    · rw [again, damaged]

theorem readsMemory {u : State} (g : t.readsMemory u) : s.onlyDamage u := h.trans (of_frame g.ctxs g.pools)

theorem pagesBeside {p : Nat} {u : State} (g : t.pagesBeside p u) : s.onlyDamage u :=
  h.trans ⟨fun k => .inl (State.ctx_congr g.ctxs k), g.applied⟩

theorem modPool (q : Nat) {f : CtxPool → CtxPool} (kept : ∀ x, (f x).applied = x.applied) : s.onlyDamage (t.modPool q f) :=
  h.trans ⟨fun _ => .inl rfl, t.applied_modPool q kept⟩

theorem queueMove (q : Nat) (kind : MoveKind) (slot page src : Nat) (dst : Option (Nat × Nat)) (cls : Nat) :
    s.onlyDamage (t.queueMove q kind slot page src dst cls) := h.trans (of_frame rfl rfl)

theorem damage {slot : Nat} (held : (t.ctx slot).pages ≠ 0) : s.onlyDamage (t.setCtx slot { t.ctx slot with damaged := true }) := by
  refine h.trans ⟨fun k => ?_, fun _ => rfl⟩
  by_cases same : k = slot
  · subst same
    exact .inr ⟨held, State.ctx_setCtx_same ..⟩
  · exact .inl (State.ctx_setCtx_ne _ _ same)

end Kept

/-! ### Entries read (R269, R284) -/

theorem entryOf (s : State) (slot page : Nat) (listed : page = commitPage ∨ page = mapPage ∨ (s.ctx slot).pages ≠ 0) :
    s.onlyDamage (s.entryOf slot page).1 := by
  unfold State.entryOf
  dsimp only
  split
  · exact refl s
  · next data =>
    split
    · exact refl s
    · next own =>
      have held : (s.ctx slot).pages ≠ 0 := (listed.resolve_left own).resolve_left data
      have read := State.readsMemory.ringRead s (eDdr (s.ctx slot).mapEntry) (s.mapRow (s.ctx slot) page) (some (s.ctx slot).partition)
      split
      · next s1 d found =>
        rw [found] at read
        exact (refl s).readsMemory read
      · next s1 found =>
        rw [found] at read
        refine ((refl s).readsMemory read).damage ?_
        rw [State.ctx_congr read.ctxs]
        exact held

theorem entries (s : State) (slot n : Nat) (held : n ≠ 0 → (s.ctx slot).pages ≠ 0) : s.onlyDamage (s.entries slot n).1 := by
  refine List.foldlRecOn (motive := fun acc : State × List (Nat × Nat) => s.onlyDamage acc.1) _ _ (refl s) fun acc kept page mem => ?_
  refine kept.trans (entryOf acc.1 slot page ?_)
  simp only [List.mem_append, List.mem_range, List.mem_cons, List.not_mem_nil, or_false] at mem
  obtain data | commit | map := mem
  · refine .inr (.inr ?_)
    rw [kept.pages]
    exact held (by omega)
  · exact .inl commit
  · exact .inr (.inl map)

theorem pagesIn (s : State) (slot : Nat) (ddr : Bool) : s.onlyDamage (s.pagesIn slot ddr).1 := entries s slot _ id

/-! ### Queues and runs (R281, R282) -/

theorem pumpPages (n : Nat) (s : State) : s.onlyDamage (State.pumpPages n s) :=
  (refl s).pagesBeside (State.pagesBeside.pumpPages (p := 12) n s (by omega))

theorem queueDemotion (s : State) (q slot cls : Nat) : s.onlyDamage (s.queueDemotion q slot cls) := by
  refine List.foldlRecOn (motive := s.onlyDamage) _ _ (pagesIn s slot false) fun t kept p _ => ?_
  dsimp only
  split
  · exact kept
  · exact kept.queueMove ..

theorem waterMarks (s : State) (q : Nat) : s.onlyDamage (s.waterMarks q) := by
  have marked (on : Bool) := (refl s).modPool q (f := fun p => { p with demoting := on }) fun _ => rfl
  unfold State.waterMarks
  dsimp only
  split
  · refine List.foldlRecOn (motive := s.onlyDamage) _ _ (marked _) fun t kept slot _ => ?_
    split
    · exact kept
    · exact kept.trans (queueDemotion ..)
  · exact marked _

theorem pagerRun (s : State) (q : Nat) : s.onlyDamage (s.pagerRun q) := (waterMarks s q).trans (pumpPages 65 _)

theorem queuePromotion (s : State) (slot : Nat) : s.onlyDamage (s.queuePromotion slot) := by
  refine trans ?_ (pagerRun ..)
  refine List.foldlRecOn (motive := s.onlyDamage) _ _ (pagesIn s slot true) fun t kept p _ => ?_
  split
  · exact kept
  · exact kept.queueMove ..

end State.onlyDamage

end Sys2Proof.Machine
end

section
/-! PROOF. The operations of context_op on a context they may change (11 R271-R273), POOL_APPLY (R274). -/

namespace Sys2Proof.Machine

/-! ### The command and its rule -/

/-- A rule of context_op answers in 3400:02 and leaves the contexts and the other registers of 3400 as its state has them. -/
theorem ctxCommand_answers {s u : State} {sess : Nat} {rule : State → State × Nat} (passed : s.writeGuard sess 0x3400 2 = none)
    (own : rule s = (u, stOk)) : ∃ t, s.commandOut sess 0x3400 2 rule = .next t ∧ t.obj 0x3400 2 = stOk ∧
      (∀ k, t.ctx k = u.ctx k) ∧ t.obj 0x3400 3 = u.obj 0x3400 3 := by
  refine ⟨_, State.commandOut_of_rule passed own, ?_, fun _ => rfl, ?_⟩
  · rw [State.obj_answer, State.obj_setObj_same]
  · rw [State.obj_answer, State.obj_setObj_sub _ _ _ _ (by decide)]

section Rules
variable {s : State} {v op : Nat} {f : State → Nat → Ctx → State × Nat}

theorem ruleCtx_of_held (fields : ctxFieldsOk v op = true) (held : (s.ctx (ctxSlot v)).st ≠ .free) :
    ruleCtx v op f s = f (s.lookup (ctxSlot v)) (ctxSlot v) (s.ctx (ctxSlot v)) := by
  have found : (s.lookup (ctxSlot v)).ctx (ctxSlot v) = s.ctx (ctxSlot v) := rfl
  simp [ruleCtx, fields, found, held]

theorem ruleUsable_of_usable (fields : ctxFieldsOk v op = true) (usable : (s.ctx (ctxSlot v)).st = .idle ∨ (s.ctx (ctxSlot v)).st = .active) :
    ruleUsable v op f s = f (s.lookup (ctxSlot v)) (ctxSlot v) (s.ctx (ctxSlot v)) := by
  have held : (s.ctx (ctxSlot v)).st ≠ .free := by rintro free; simp [free] at usable
  have counts : (s.ctx (ctxSlot v)).usable = true := by simpa [Ctx.usable] using usable
  rw [ruleUsable, ruleCtx_of_held fields held, if_pos counts]

end Rules

/-! ### Operations on a context -/

section Operations
variable {s : State} {sess : Nat} {v : BitVec 256} (passed : s.writeGuard sess 0x3400 2 = none)
include passed

theorem execCtxClose_releases (fields : ctxFieldsOk v.toNat 2 = true) (idle : (s.ctx (ctxSlot v.toNat)).st = .idle) :
    ∃ t, exec (.ctxClose sess v) s = .next t ∧ t.obj 0x3400 2 = stOk ∧
      t.ctx (ctxSlot v.toNat) = { s.ctx (ctxSlot v.toNat) with st := .releasing } := by
  have own : ruleCtxClose v.toNat s = (((s.lookup (ctxSlot v.toNat)).dropMoves (s.ctx (ctxSlot v.toNat)).partition (ctxSlot v.toNat)).setCtx
      (ctxSlot v.toNat) { s.ctx (ctxSlot v.toNat) with st := .releasing }, stOk) := by
    rw [ruleCtxClose, ruleCtx_of_held fields (by simp [idle])]
    simp only [idle]
  obtain ⟨t, out, answered, ctxs, _⟩ := ctxCommand_answers passed own
  exact ⟨t, out, answered, (ctxs _).trans (State.ctx_setCtx_same ..)⟩

theorem execCtxSetPosition_sets (fields : ctxFieldsOk v.toNat 3 = true)
    (usable : (s.ctx (ctxSlot v.toNat)).st = .idle ∨ (s.ctx (ctxSlot v.toNat)).st = .active)
    (ahead : (s.ctx (ctxSlot v.toNat)).position ≤ fieldOf v.toNat 192 32) (low : fieldOf v.toNat 192 32 ≤ 16384) :
    ∃ t, exec (.ctxSetPosition sess v) s = .next t ∧ t.obj 0x3400 2 = stOk ∧
      t.ctx (ctxSlot v.toNat) = { s.ctx (ctxSlot v.toNat) with position := fieldOf v.toNat 192 32 } := by
  have own : ruleCtxSetPosition v.toNat s = ((s.lookup (ctxSlot v.toNat)).setCtx (ctxSlot v.toNat)
      { s.ctx (ctxSlot v.toNat) with position := fieldOf v.toNat 192 32 }, stOk) := by
    rw [ruleCtxSetPosition, ruleUsable_of_usable fields usable]
    exact if_neg (by omega)
  obtain ⟨t, out, answered, ctxs, _⟩ := ctxCommand_answers passed own
  exact ⟨t, out, answered, (ctxs _).trans (State.ctx_setCtx_same ..)⟩

theorem execCtxSetPriority_sets (fields : ctxFieldsOk v.toNat 4 = true)
    (usable : (s.ctx (ctxSlot v.toNat)).st = .idle ∨ (s.ctx (ctxSlot v.toNat)).st = .active) :
    ∃ t, exec (.ctxSetPriority sess v) s = .next t ∧ t.obj 0x3400 2 = stOk ∧
      t.ctx (ctxSlot v.toNat) = { s.ctx (ctxSlot v.toNat) with priority := fieldOf v.toNat 192 8 } := by
  obtain ⟨t, out, answered, ctxs, _⟩ := ctxCommand_answers passed (rule := ruleCtxSetPriority v.toNat) (ruleUsable_of_usable fields usable)
  exact ⟨t, out, answered, (ctxs _).trans (State.ctx_setCtx_same ..)⟩

theorem execCtxPin_pins (fields : ctxFieldsOk v.toNat 5 = true)
    (usable : (s.ctx (ctxSlot v.toNat)).st = .idle ∨ (s.ctx (ctxSlot v.toNat)).st = .active) :
    ∃ t, exec (.ctxPin sess v) s = .next t ∧ t.obj 0x3400 2 = stOk ∧
      t.ctx (ctxSlot v.toNat) = { s.ctx (ctxSlot v.toNat) with pinned := true, damaged := (t.ctx (ctxSlot v.toNat)).damaged } := by
  obtain ⟨t, out, answered, ctxs, _⟩ := ctxCommand_answers passed (rule := ruleCtxPin v.toNat) (ruleUsable_of_usable fields usable)
  refine ⟨t, out, answered, ?_⟩
  rw [ctxs, (State.onlyDamage.queuePromotion ..).ctx_eq, State.ctx_setCtx_same]

theorem execCtxUnpin_unpins (fields : ctxFieldsOk v.toNat 6 = true)
    (usable : (s.ctx (ctxSlot v.toNat)).st = .idle ∨ (s.ctx (ctxSlot v.toNat)).st = .active) :
    ∃ t, exec (.ctxUnpin sess v) s = .next t ∧ t.obj 0x3400 2 = stOk ∧
      t.ctx (ctxSlot v.toNat) = { s.ctx (ctxSlot v.toNat) with pinned := false } := by
  obtain ⟨t, out, answered, ctxs, _⟩ := ctxCommand_answers passed (rule := ruleCtxUnpin v.toNat) (ruleUsable_of_usable fields usable)
  exact ⟨t, out, answered, (ctxs _).trans (State.ctx_setCtx_same ..)⟩

theorem execCtxPromote_keeps (fields : ctxFieldsOk v.toNat 7 = true)
    (usable : (s.ctx (ctxSlot v.toNat)).st = .idle ∨ (s.ctx (ctxSlot v.toNat)).st = .active) :
    ∃ t, exec (.ctxPromote sess v) s = .next t ∧ t.obj 0x3400 2 = stOk ∧
      t.ctx (ctxSlot v.toNat) = { s.ctx (ctxSlot v.toNat) with damaged := (t.ctx (ctxSlot v.toNat)).damaged } := by
  obtain ⟨t, out, answered, ctxs, _⟩ := ctxCommand_answers passed (rule := ruleCtxPromote v.toNat) (ruleUsable_of_usable fields usable)
  exact ⟨t, out, answered, by rw [ctxs]; exact (State.onlyDamage.queuePromotion ..).ctx_eq _⟩

theorem execCtxDemote_keeps (fields : ctxFieldsOk v.toNat 8 = true) (idle : (s.ctx (ctxSlot v.toNat)).st = .idle)
    (tier : (s.pool (s.ctx (ctxSlot v.toNat)).partition).ddr.size ≠ 0) (unpinned : (s.ctx (ctxSlot v.toNat)).pinned = false) :
    ∃ t, exec (.ctxDemote sess v) s = .next t ∧ t.obj 0x3400 2 = stOk ∧
      t.ctx (ctxSlot v.toNat) = { s.ctx (ctxSlot v.toNat) with damaged := (t.ctx (ctxSlot v.toNat)).damaged } := by
  have own : ruleCtxDemote v.toNat s = (((s.lookup (ctxSlot v.toNat)).queueDemotion (s.ctx (ctxSlot v.toNat)).partition
      (ctxSlot v.toNat) 2).pagerRun (s.ctx (ctxSlot v.toNat)).partition, stOk) := by
    rw [ruleCtxDemote, ruleCtx_of_held fields (by simp [idle])]
    exact (if_neg tier).trans (if_neg (by simp [idle, unpinned]))
  obtain ⟨t, out, answered, ctxs, _⟩ := ctxCommand_answers passed own
  exact ⟨t, out, answered, by
    rw [ctxs]; exact ((State.onlyDamage.queueDemotion ..).trans (State.onlyDamage.pagerRun ..)).ctx_eq _⟩

theorem execCtxRead_shows (fields : ctxFieldsOk v.toNat 9 = true) (held : (s.ctx (ctxSlot v.toNat)).st ≠ .free) :
    ∃ t, exec (.ctxRead sess v) s = .next t ∧ t.obj 0x3400 2 = stOk ∧ t.obj 0x3400 3 = (s.ctx (ctxSlot v.toNat)).word := by
  obtain ⟨t, out, answered, _, shown⟩ := ctxCommand_answers passed (rule := ruleCtxRead v.toNat) (ruleCtx_of_held fields held)
  exact ⟨t, out, answered, shown.trans (State.obj_setObj_same ..)⟩

end Operations

/-! ### OPEN (R271, R272, R275) -/

section Open
variable {s : State} {q : Nat}

/-- Without retired spans and returned pages, the pages no context has held are free. -/
theorem State.freePages_of_ahead (spans : s.spans = []) (front : (s.pool q).hbm.front = []) (back : (s.pool q).hbm.back = []) :
    s.freePages q false = (s.pool q).hbm.size - (s.pool q).hbm.next := by
  simp [State.freePages, State.freeList, FreeList.length, State.retiredAhead, spans, front, back]

theorem State.makeRoom_of_free {n : Nat} (free : n ≤ s.freePages q false) (but : Option Nat) : s.makeRoom q n but = s :=
  List.foldlRecOn (motive := (· = s)) _ _ rfl fun t same slot _ => by rw [same, if_pos free]

/-- The next page no context has held is taken. -/
theorem State.newPage_of_ahead (spans : s.spans = []) (front : (s.pool q).hbm.front = []) (more : (s.pool q).hbm.next < (s.pool q).hbm.size) :
    s.newPage q false = (s.setFreeList q false { (s.pool q).hbm with next := (s.pool q).hbm.next + 1 },
      some ((s.pool q).hbm.next, (s.pool q).hbm.tag)) := by
  have taken : (s.freeList q false).take = some (((s.pool q).hbm.next, (s.pool q).hbm.tag),
      { (s.pool q).hbm with next := (s.pool q).hbm.next + 1 }) := by
    simp [State.freeList, FreeList.take, front, more]
  rw [State.newPage, State.takePage, taken]
  simp [State.pageRetired, spans]

theorem State.openCtx_of_free {slot : Nat} {o : CtxOpen} (spans : s.spans = []) (front : (s.pool o.partition).hbm.front = [])
    (back : (s.pool o.partition).hbm.back = []) (two : (s.pool o.partition).hbm.next + 2 ≤ (s.pool o.partition).hbm.size) :
    ∃ t : State, s.openCtx slot o = some t ∧ (t.ctx slot).st = .idle := by
  have room : s.makeRoom o.partition 2 (some slot) = s := State.makeRoom_of_free (by rw [State.freePages_of_ahead spans front back]; omega) _
  let u := s.setFreeList o.partition false { (s.pool o.partition).hbm with next := (s.pool o.partition).hbm.next + 1 }
  have pool : (u.pool o.partition).hbm = { (s.pool o.partition).hbm with next := (s.pool o.partition).hbm.next + 1 } := by
    simp [u, State.setFreeList]
  have second := State.newPage_of_ahead (s := u) (q := o.partition) spans (by rw [pool]; exact front) (by rw [pool]; dsimp only; omega)
  rw [State.openCtx, room, State.newPage_of_ahead spans front (by omega)]
  dsimp only
  rw [show s.setFreeList o.partition false _ = u from rfl, second]
  refine ⟨_, rfl, ?_⟩
  rw [(State.onlyDamage.pagerRun ..).st, State.ctx_setCtx_same]

theorem execCtxOpen_opens {sess : Nat} {v : BitVec 256} (passed : s.writeGuard sess 0x3400 2 = none) (fields : ctxFieldsOk v.toNat 1 = true)
    (number : q = fieldOf v.toNat 132 4) (small : q ≤ 11) (applied : (s.pool q).applied = true) (free : (s.ctx (ctxSlot v.toNat)).st = .free)
    (front : (s.pool q).hbm.front = []) (back : (s.pool q).hbm.back = []) (two : (s.pool q).hbm.next + 2 ≤ (s.pool q).hbm.size)
    (spans : s.spans = []) :
    ∃ t, exec (.ctxOpen sess v) s = .next t ∧ t.obj 0x3400 2 = stOk ∧ (t.ctx (ctxSlot v.toNat)).st = .idle := by
  subst number
  obtain ⟨u, opened, idle⟩ := State.openCtx_of_free (s := s.lookup (ctxSlot v.toNat)) (slot := ctxSlot v.toNat)
    (o := { seed := fieldOf v.toNat 192 64, tenant := fieldOf v.toNat 160 32, partition := fieldOf v.toNat 132 4 }) spans front back two
  have found : (s.lookup (ctxSlot v.toNat)).ctx (ctxSlot v.toNat) = s.ctx (ctxSlot v.toNat) := rfl
  have own : ruleCtxOpen v.toNat s = (u, stOk) := by
    rw [ruleCtxOpen, if_neg (by simp [fields, applied]; omega)]
    simp only [found, free, opened]
  obtain ⟨t, out, answered, ctxs, _⟩ := ctxCommand_answers passed own
  exact ⟨t, out, answered, by rw [ctxs, idle]⟩

end Open

/-! ### POOL_APPLY (R274) -/

@[simp] theorem State.pool_setObj (s : State) (i j e v q : Nat) : (s.setObj i j e v).pool q = s.pool q := rfl
@[simp] theorem State.pool_answer (s : State) (sess i j st q : Nat) : (s.answer sess i j st).pool q = s.pool q := rfl

theorem State.applied_pagerRun_withPagers (s : State) (pagers : Tbl Pager) (q : Nat) :
    (({ s with pagers := pagers }.pagerRun q).pool q).applied = (s.pool q).applied := (State.onlyDamage.pagerRun _ q).applied q

theorem execPoolApply_applies {s : State} {sess q : Nat} (passed : s.writeGuard sess (0x3410 + q) 6 = none) (bare : s.jobState q = 0)
    (unheld : ∀ e, e ∈ s.ctxs → e.2.st = .free ∨ e.2.partition ≠ q) (whole : s.windowLost q = false) (hbmOffset : s.obj (0x3410 + q) 0 % 65536 = 0)
    (below : s.obj (0x3410 + q) 0 + 65536 * s.obj (0x3410 + q) 1 ≤ s.obj (0x3410 + q) 4) (ddrOffset : s.obj (0x3410 + q) 2 % 65536 = 0)
    (noDdr : s.obj (0x3410 + q) 3 = 0) (lanes : s.obj (0x3410 + q) 4 % 32 = 0) (window : s.obj (0x3410 + q) 4 + 262144 ≤ (s.cfg q).hbmSize)
    (rows : s.obj (0x3410 + q) 5 % 32 = 0) (some32 : 32 ≤ s.obj (0x3410 + q) 5) (most : s.obj (0x3410 + q) 5 ≤ 32768) :
    ∃ t, exec (.poolApply sess q) s = .next t ∧ t.obj (0x3410 + q) 6 = stOk ∧ (t.pool q).applied = true := by
  have unused : s.ctxs.any (fun e => e.2.st != .free && e.2.partition == q) = false := by
    rw [List.any_eq_false]
    intro e mem
    obtain free | other := unheld e mem
    · simp [free]
    · simp [other]
  have own : ∃ u : State, rulePoolApply q 1 s = (u, stOk) ∧ (u.pool q).applied = true := by
    unfold rulePoolApply
    dsimp only
    rw [if_neg (by simp), if_neg (by simp [unused, bare]), if_neg (by omega), if_neg (by simp [whole])]
    refine ⟨_, rfl, ?_⟩
    rw [State.applied_pagerRun_withPagers, State.pool_modPool_same]
  obtain ⟨u, own, applied⟩ := own
  refine ⟨_, State.commandOut_of_rule passed own, ?_, ?_⟩
  · rw [State.obj_answer, State.obj_setObj_same]
  · rw [State.pool_answer, State.pool_setObj, applied]

end Sys2Proof.Machine
end

section
/-! PROOF. A background fill completes (11 R275), and the pages of a closed context are released (11 R271, R276). -/

namespace Sys2Proof.Machine

/-! ### A page zeroed (R275) -/

theorem State.readsMemory.pager {s t : State} (h : s.readsMemory t) (p : Nat) : t.pager p = s.pager p := by rw [State.pager, h.pagers, State.pager]
theorem State.readsMemory.job {s t : State} (h : s.readsMemory t) (p : Nat) : t.job p = s.job p := by rw [State.job, h.jobs, State.job]

section ZeroPage
variable (s : State) (q : Nat) (ddr : Bool) (i : Nat)

theorem State.zeroPage_eq : ∃ t, s.readsMemory t ∧ s.zeroPage q ddr i = t.count (0x3410 + q) 0xF 0 64 := ⟨_, .zeroRows .., rfl⟩

theorem State.obj_zeroPage : (s.zeroPage q ddr i).obj (0x3410 + q) 0xF = min (s.obj (0x3410 + q) 0xF + 1) (2 ^ 64 - 1) := by
  obtain ⟨t, reads, zeroed⟩ := s.zeroPage_eq q ddr i
  rw [zeroed, State.obj_count_same, reads.fills]

theorem State.ctxs_zeroPage : (s.zeroPage q ddr i).ctxs = s.ctxs := by
  obtain ⟨t, reads, zeroed⟩ := s.zeroPage_eq q ddr i
  rw [zeroed]
  exact reads.ctxs

theorem State.pager_zeroPage (p : Nat) : (s.zeroPage q ddr i).pager p = s.pager p := by
  obtain ⟨t, reads, zeroed⟩ := s.zeroPage_eq q ddr i
  rw [zeroed]
  exact reads.pager p

theorem State.job_zeroPage (p : Nat) : (s.zeroPage q ddr i).job p = s.job p := by
  obtain ⟨t, reads, zeroed⟩ := s.zeroPage_eq q ddr i
  rw [zeroed]
  exact reads.job p

theorem State.hbm_count (i j e w n : Nat) : (s.count i j e w n).hbm = s.hbm := rfl

theorem State.hbm_zeroPage {r : Nat} (small : r < 2048) : Tbl.get (s.zeroPage q false i).hbm 0 (s.pageAddr q false i / 32 + r) = 0 := by
  rw [State.zeroPage, State.hbm_count]
  exact s.hbm_zeroRows (Nat.le_add_right ..) (Nat.add_lt_add_left small _)

end ZeroPage

/-! ### A background fill completes (R275) -/

theorem State.job_setFreeList (s : State) (q : Nat) (ddr : Bool) (l : FreeList) (p : Nat) : (s.setFreeList q ddr l).job p = s.job p := rfl

/-- Behind a background fill of an HBM page at most the free lists differ. -/
theorem State.endMove_of_background (s : State) (q i : Nat) {m : PageMove} (kind : m.kind = .background) (page : m.page = 0) :
    (s.zeroPage q false i).pagesBeside q (s.endMove q m i) ∧ (s.endMove q m i).job q = s.job q := by
  simp only [State.endMove, kind, page]
  split
  · exact ⟨.refl _, s.job_zeroPage ..⟩
  · exact ⟨(State.pagesBeside.refl _).setFreeList .., (State.job_setFreeList ..).trans (s.job_zeroPage ..)⟩

theorem State.lanesReady_of_none {s : State} {q : Nat} (none : s.job q = none) : s.lanesReady q = s := by
  rw [State.lanesReady, none]

theorem State.demotable_of_none {s : State} {q : Nat} (none : ∀ e, e ∈ s.ctxs → e.2.partition ≠ q) (age : Nat) (but : Option Nat) :
    s.demotable q age but = [] := by
  refine List.eq_nil_iff_forall_not_mem.2 fun slot mem => ?_
  simp only [State.demotable, List.mem_map, List.mem_mergeSort, List.mem_filter] at mem
  obtain ⟨e, ⟨held, demoted⟩, _⟩ := mem
  simp [none e held] at demoted

/-- Without a context of the partition the water marks demote nothing. -/
theorem State.waterMarks_of_none {s : State} {q : Nat} (none : ∀ e, e ∈ s.ctxs → e.2.partition ≠ q) : s.pagesBeside q (s.waterMarks q) := by
  have marked (on : Bool) := (State.pagesBeside.refl (p := q) s).modPool q (f := fun p => { p with demoting := on }) fun _ => rfl
  unfold State.waterMarks
  dsimp only
  split
  · rw [State.demotable_of_none (s := s.modPool q _) none]
    exact marked _
  · exact marked _

theorem execPageMoveComplete_fills {s : State} {q i : Nat} {m : PageMove} (flight : (s.pager q).flight = [m]) (kind : m.kind = .background)
    (page : m.page = 0) (dst : m.dst = some i) (bare : s.job q = none) (queue : (s.pager q).queue = [])
    (unheld : ∀ e, e ∈ s.ctxs → e.2.partition ≠ q) :
    ∃ t : State, exec (.pageMoveComplete q m.id) s = .next t ∧ t.obj (0x3410 + q) 0xF = min (s.obj (0x3410 + q) 0xF + 1) (2 ^ 64 - 1) ∧
      ∀ r, r < 2048 → Tbl.get t.hbm 0 (s.pageAddr q false i / 32 + r) = 0 := by
  let landed := s.modPager q (fun p => { p with flight := p.flight.filter (fun x => x.id ≠ m.id) })
  have out : exec (.pageMoveComplete q m.id) s = .next (((landed.endMove q m (m.dst.getD 0)).lanesReady q).pagerRun q) := by
    show execPageMoveComplete q m.id s = _
    rw [execPageMoveComplete, flight, List.find?_cons_of_pos (by simp)]
  obtain ⟨ended, jobs⟩ := landed.endMove_of_background q i kind page
  have idle : ((landed.zeroPage q false i).pager q).queue = [] := by
    rw [State.pager_zeroPage, State.pager_modPager_same, queue]
  have marked := ended.trans (State.waterMarks_of_none (q := q) (by rw [ended.ctxs, State.ctxs_zeroPage]; exact unheld))
  have run := marked.trans (State.pagesBeside.pumpPages 65 _ fun _ => marked.queue.trans idle)
  rw [dst, Option.getD_some, State.lanesReady_of_none (jobs.trans bare)] at out
  refine ⟨_, out, ?_, fun r small => run.zeros _ (landed.hbm_zeroPage q i small)⟩
  exact run.fills.trans (landed.obj_zeroPage q false i)

/-! ### The pages of a closed context are released (R271, R276) -/

theorem State.dropMoves_ctxs (s : State) (q slot : Nat) : (s.dropMoves q slot).ctxs = s.ctxs := by
  refine State.each_induction (·.ctxs = s.ctxs) rfl fun t m _ kept => ?_
  split
  · rw [State.freePage]
    split
    · exact kept
    · exact kept
  · exact kept

/-- A context without pages has none in either tier. -/
theorem State.pagesIn_of_none {s : State} {slot : Nat} (empty : (s.ctx slot).pages = 0) (map : (s.ctx slot).mapEntry = 0)
    (commit : (s.ctx slot).commitEntry = 0) (ddr : Bool) : s.pagesIn slot ddr = (s, []) := by
  simp [State.pagesIn, State.entries, State.entryOf, empty, map, commit, eValid, bitOf]

/-- Freeing a context that holds no page and waits for no OPEN changes its state and its marks alone. -/
theorem Ctx.freed_of_none {c : Ctx} (empty : c.pages = 0) (map : c.mapEntry = 0) (commit : c.commitEntry = 0) (unopened : c.opens = none) :
    ({ c with st := .free, mapEntry := 0, commitEntry := 0, pages := 0, opens := none, damaged := false, pinned := false } : Ctx)
      = { c with st := .free, damaged := false, pinned := false } := by
  cases c
  simp_all

theorem execPageReleaseComplete_frees {s : State} {slot : Nat} (releasing : (s.ctx slot).st = .releasing)
    (flight : (s.pager (s.ctx slot).partition).flight = []) (empty : (s.ctx slot).pages = 0) (map : (s.ctx slot).mapEntry = 0)
    (commit : (s.ctx slot).commitEntry = 0) (unopened : (s.ctx slot).opens = none) :
    ∃ t, exec (.pageReleaseComplete slot) s = .next t ∧ t.ctx slot = { s.ctx slot with st := .free, damaged := false, pinned := false } ∧
      ∀ k, k ≠ slot → t.ctx k = { s.ctx k with damaged := (t.ctx k).damaged } := by
  have same (k : Nat) : (s.dropMoves (s.ctx slot).partition slot).ctx k = s.ctx k := State.ctx_congr (State.dropMoves_ctxs ..) k
  have none (ddr : Bool) := State.pagesIn_of_none (s := s.dropMoves (s.ctx slot).partition slot) (slot := slot)
    (by rw [same, empty]) (by rw [same, map]) (by rw [same, commit]) ddr
  let u := (s.dropMoves (s.ctx slot).partition slot).setCtx slot { s.ctx slot with st := .free, damaged := false, pinned := false }
  have out : exec (.pageReleaseComplete slot) s = .next (u.pagerRun (s.ctx slot).partition) := by
    show execPageReleaseComplete slot s = _
    rw [execPageReleaseComplete]
    simp [releasing, flight, none, unopened, Ctx.freed_of_none empty map commit unopened, u]
  have run := State.onlyDamage.pagerRun u (s.ctx slot).partition
  refine ⟨_, out, ?_, fun k other => ?_⟩
  · rw [run.ctx_of_empty (by rw [State.ctx_setCtx_same, empty]), State.ctx_setCtx_same]
  · rw [run.ctx_eq k, State.ctx_setCtx_ne _ _ other, same]

end Sys2Proof.Machine
end

section
/-! PROOF. Every command of the experts, the dispatchers, the contexts and the pools completes (10 R247-R259, 11 R269-R283). -/

namespace Sys2Proof.Machine

/-- Settles O56: each clause is the lemma about its command; those of the dispatchers say less here than they prove. -/
theorem expertAndContextCommandsComplete : Obligations.ExpertAndContextCommandsComplete := by
  refine ⟨?expertApply, ?tokenRequest, ?releaseRequest, ?hintRequest, ?stagingHoldRelease, ?reserve, ?grant, ?reservationCancel, ?dstatus,
    ?noCreditRetry, ?multicastTimeout, ?copyArrive, ?copyReceiptConfirm, ?ctxOpen, ?ctxClose, ?ctxSetPosition, ?ctxSetPriority, ?ctxPin,
    ?ctxUnpin, ?ctxPromote, ?ctxDemote, ?ctxRead, ?poolApply, ?pageMoveComplete, ?pageReleaseComplete⟩
  case expertApply =>
    intro s sess passed idle valid own
    obtain ⟨t, out, answered, entries, _⟩ := execExpertApply_applies passed idle valid own
    exact ⟨t, out, answered, entries⟩
  case tokenRequest =>
    intro s q pos rows p e ds _ parts sound none' good open' fits all clean target
    obtain ⟨t, k, _, _, out, tokens, kept, _⟩ := execTokenRequest_of_all sound parts good clean none' (.inl ⟨rfl, open'⟩) fits all target
    exact ⟨t, k, out, tokens, kept⟩
  case releaseRequest =>
    intro s q r p v taken none' sound open' common clean ok
    obtain ⟨t, a, out, freed, sent, ack, _⟩ := execReleaseRequest_frees taken none' sound open' common clean ok
    exact ⟨t, a, out, freed, sent, ack⟩
  case hintRequest =>
    intro s q rows p h e x a k srv sound open' own clean size common kind fields tokens parts target near home reads place alive room
    obtain ⟨t, y, out, sent, ack, _⟩ :=
      execHintRequest_of_single sound open' own clean size common kind fields tokens parts target near home reads place alive room
    exact ⟨t, y, out, sent, ack⟩
  case stagingHoldRelease =>
    intro s q pos rows p e ds _ parts sound none' good held fits all clean target
    obtain ⟨t, k, _, _, out, tokens, kept, _⟩ := execTokenRequest_of_all sound parts good clean none' (.inr ⟨rfl, held⟩) fits all target
    exact ⟨t, k, out, tokens, kept⟩
  case reserve =>
    intro s m q n valid own home job place open' taken tokens parts first sound slots
    obtain ⟨t, _, r, out, takes, expert, _⟩ := execReserve_grants valid own home job place open' taken tokens parts first sound slots
    exact ⟨t, r, out, takes, expert⟩
  case grant =>
    intro s q k x m tokens targets multicast asked sound part res own
    obtain ⟨t, k', y, _, _, _, out, token, target, launched, _⟩ := execGrant_launches tokens targets multicast asked sound part res own
    exact ⟨t, k', y, out, token, target, launched⟩
  case reservationCancel =>
    intro s q r m taken none' small sound before res src part expert
    obtain ⟨t, out, freed, _⟩ := execReservationCancel_frees taken none' small sound before res src part expert
    exact ⟨t, out, freed⟩
  case dstatus =>
    intro s q k x m tokens targets _ asked sound part res status
    obtain ⟨t, out, waits, _⟩ := execDstatus_of_noCredit tokens targets asked sound part res status
    exact ⟨t, out, waits⟩
  case noCreditRetry =>
    intro s q k x tokens targets _ retries due
    obtain ⟨t, m, out, asks, sent, _⟩ := execNoCreditRetry_asks tokens targets retries due
    exact ⟨t, m, out, asks, sent⟩
  case multicastTimeout =>
    intro s q k x tokens targets multicast asked past
    obtain ⟨t, k', out, token, unicast, _⟩ := execMulticastTimeout_cancels tokens targets multicast asked past
    exact ⟨t, k', out, token, unicast⟩
  case copyArrive =>
    intro s q n r h rest taken none' waits place short
    obtain ⟨t, p, out, sent, write, rows, _, _, _, tile, data, landed, counted, _⟩ := execCopyArrive_lands taken waits place short
    exact ⟨t, p, out, sent, write, rows, tile, data, landed, counted⟩
  case copyReceiptConfirm =>
    intro s q k x tokens targets _ launched none'
    obtain ⟨t, out, left, _⟩ := execCopyReceiptConfirm_drops tokens targets launched none'
    exact ⟨t, out, left⟩
  case ctxOpen =>
    rintro s sess _ q v passed fields rfl number small applied free front back two spans
    exact execCtxOpen_opens passed fields number small applied free front back two spans
  case ctxClose =>
    rintro s sess _ v _ passed rfl rfl fields idle
    exact execCtxClose_releases passed fields idle
  case ctxSetPosition =>
    rintro s sess _ v _ passed rfl rfl usable fields ahead low
    exact execCtxSetPosition_sets passed fields usable ahead low
  case ctxSetPriority =>
    rintro s sess _ v _ passed rfl rfl usable fields
    exact execCtxSetPriority_sets passed fields usable
  case ctxPin =>
    rintro s sess _ v _ passed rfl rfl usable fields
    exact execCtxPin_pins passed fields usable
  case ctxUnpin =>
    rintro s sess _ v _ passed rfl rfl usable fields
    exact execCtxUnpin_unpins passed fields usable
  case ctxPromote =>
    rintro s sess _ v _ passed rfl rfl usable fields
    exact execCtxPromote_keeps passed fields usable
  case ctxDemote =>
    rintro s sess _ v _ passed rfl rfl fields idle tier unpinned
    exact execCtxDemote_keeps passed fields idle tier unpinned
  case ctxRead =>
    rintro s sess _ v _ passed rfl rfl fields held
    exact execCtxRead_shows passed fields held
  case poolApply =>
    intro s sess q _ passed bare unheld whole hbmOffset below ddrOffset noDdr lanes window rows least most _ _
    exact execPoolApply_applies passed bare unheld whole hbmOffset below ddrOffset noDdr lanes window rows least most
  case pageMoveComplete =>
    intro s q i m _ flight kind page dst bare queue unheld
    exact execPageMoveComplete_fills flight kind page dst bare queue unheld
  case pageReleaseComplete =>
    rintro s slot _ rfl releasing flight empty map commit unopened
    exact execPageReleaseComplete_frees releasing flight empty map commit unopened

end Sys2Proof.Machine
end

section
/-! PROOF. What every command keeps: the queue, what was sent, the counter of free values, the canonical form. -/

namespace Sys2Proof.Machine

/-- The parts of the state that the invariant of every step speaks of: the queue, what was sent, the counter of free values, HBM, DDR5 and the registers. -/
def State.core (s : State) : List Instr × List Msg × Nat × Tbl Codeword × Tbl (BitVec 640) × Tbl Nat :=
  (s.pending, s.sent, s.fresh, s.hbm, s.ddr, s.regs)

/-- State `t` comes of `s` with the queue as it was, everything sent still sent, the counter of free values not turned back, and the memories and registers in canonical form if they were. -/
structure State.KeepsCore (s t : State) : Prop where
  pending : t.pending = s.pending
  sent : ∃ new, t.sent = new ++ s.sent
  fresh : s.fresh ≤ t.fresh
  canonical : Memory.wf s = true → Memory.wf t = true

namespace State.KeepsCore

theorem refl (s : State) : s.KeepsCore s := ⟨rfl, ⟨[], rfl⟩, le_rfl, id⟩

/-- Both branches keep the core. -/
theorem ite {s a b : State} {c : Prop} [Decidable c] (ha : s.KeepsCore a) (hb : s.KeepsCore b) : s.KeepsCore (if c then a else b) := by
  split
  · exact ha
  · exact hb

theorem ite_fst {α : Type} {s : State} {a b : State × α} {c : Prop} [Decidable c] (ha : s.KeepsCore a.1) (hb : s.KeepsCore b.1) :
    s.KeepsCore (if c then a else b).1 := by
  split
  · exact ha
  · exact hb

/-- Both results of an optional value keep the core. -/
theorem elim {α : Type} {s b : State} {f : α → State} {o : Option α} (hb : s.KeepsCore b) (hf : ∀ x, s.KeepsCore (f x)) : s.KeepsCore (o.elim b f) := by
  cases o with
  | none => exact hb
  | some x => exact hf x

/-- An optional state or else the state before it. -/
theorem getD {s t : State} {o : Option State} (h : s.KeepsCore t) (k : ∀ {u}, o = some u → s.KeepsCore u) : s.KeepsCore (o.getD t) := by
  cases o with
  | none => exact h
  | some u => exact k rfl

section Primitives
variable {s t : State} (h : s.KeepsCore t)
include h

/-- A change beside the core. -/
theorem other {u : State} (e : u.core = t.core) : s.KeepsCore u := by
  simp only [core, Prod.mk.injEq] at e
  obtain ⟨pending, sent, fresh, hbm, ddr, regs⟩ := e
  exact ⟨pending.trans h.pending, sent ▸ h.sent, fresh ▸ h.fresh, fun w => Memory.wf_congr (h.canonical w) hbm ddr regs⟩

/-- A change to any fields beside the core. -/
theorem beside {tide elapsed device bamurn floor cfgs tiles jobs latches fills hbmTags ddrTags experts disps ctxs cached pools pagers pinQueue hbms channels spans ports topo topoSeq timeRoot steady wide svcs lens closers svcSeq ucies slopes wakes planeLatch power throttle running boot faults chunks scour ufrs ufrKept ufrShown pkg sec} :
    s.KeepsCore ⟨t.pending, t.sent, t.fresh, tide, elapsed, t.regs, device, bamurn, floor, cfgs, tiles, jobs, latches, fills, hbmTags, ddrTags, experts, disps, ctxs, cached, pools, pagers, pinQueue, t.hbm, t.ddr, hbms, channels, spans, ports, topo, topoSeq, timeRoot, steady, wide, svcs, lens, closers, svcSeq, ucies, slopes, wakes, planeLatch, power, throttle, running, boot, faults, chunks, scour, ufrs, ufrKept, ufrShown, pkg, sec⟩ := h.other rfl

/-- A change of the memories and registers that keeps their form. -/
theorem stored {u : State} (e : (u.pending, u.sent, u.fresh) = (t.pending, t.sent, t.fresh)) (w : Memory.wf t = true → Memory.wf u = true) : s.KeepsCore u := by
  simp only [Prod.mk.injEq] at e
  obtain ⟨pending, sent, fresh⟩ := e
  exact ⟨pending.trans h.pending, sent ▸ h.sent, fresh ▸ h.fresh, fun v => w (h.canonical v)⟩

theorem emit {m : Msg} : s.KeepsCore (t.emit m) := by
  obtain ⟨new, sent⟩ := h.sent
  exact ⟨h.pending, ⟨m :: new, by simp [sent]⟩, h.fresh, fun w => Memory.wf_emit (h.canonical w) m⟩

theorem draw : s.KeepsCore t.draw.2 :=
  ⟨h.pending, h.sent, Nat.le_succ_of_le h.fresh, fun w => Memory.wf_draw (h.canonical w)⟩

theorem setObj {i j e v : Nat} : s.KeepsCore (t.setObj i j e v) := h.stored rfl fun w => Memory.wf_setObj w i j e v

theorem count {i j e w n : Nat} : s.KeepsCore (t.count i j e w n) := h.setObj

/-- Registers dropped, as a start, a restart and a scrub do. -/
theorem dropRegs {p : Nat × Nat → Bool} : s.KeepsCore { t with regs := t.regs.filter p } := h.stored rfl fun w => Memory.wf_dropRegs w p

theorem dropHbm {p : Nat × Codeword → Bool} : s.KeepsCore { t with hbm := t.hbm.filter p } := h.stored rfl fun w => Memory.wf_dropHbm w p

theorem dropDdr {p : Nat × BitVec 640 → Bool} : s.KeepsCore { t with ddr := t.ddr.filter p } := h.stored rfl fun w => Memory.wf_dropDdr w p

theorem setHbm_put {k : Nat} {c : Codeword} : s.KeepsCore (t.setHbm (Tbl.put t.hbm 0 k c)) := h.stored rfl fun w => Memory.wf_setHbm_put w k c

/-- The memories emptied, as a start and an unlock do. -/
theorem emptyMemories : s.KeepsCore { t with hbm := [], ddr := [] } := h.stored rfl fun w => by
  rw [Memory.wf_iff] at w ⊢
  exact ⟨Tbl.wf_nil _, Tbl.wf_nil _, w.2.2⟩

/-- Free values passed over. -/
theorem skip {n : Nat} : s.KeepsCore { t with fresh := t.fresh + n } :=
  ⟨h.pending, h.sent, h.fresh.trans (Nat.le_add_right _ _), fun w => Memory.wf_congr (h.canonical w) rfl rfl rfl⟩

/-- Folding an operation that keeps the core. -/
theorem foldl {α : Type} {xs : List α} {f : State → α → State} (k : ∀ u x, s.KeepsCore u → s.KeepsCore (f u x)) : s.KeepsCore (xs.foldl f t) := by
  induction xs generalizing t with
  | nil => exact h
  | cons x xs ih => exact ih (k t x h)

theorem each {α : Type} {xs : List α} {f : State → α → State} (k : ∀ u x, s.KeepsCore u → s.KeepsCore (f u x)) : s.KeepsCore (t.each xs f) :=
  h.foldl k

/-- Folding an operation that carries a result along. -/
theorem foldl_fst {α β : Type} {xs : List α} {b : β} {f : State × β → α → State × β}
    (k : ∀ a x, s.KeepsCore a.1 → s.KeepsCore (f a x).1) : s.KeepsCore (xs.foldl f (t, b)).1 := by
  have all : ∀ a : State × β, s.KeepsCore a.1 → s.KeepsCore (xs.foldl f a).1 := by
    induction xs with
    | nil => exact fun _ k => k
    | cons x xs ih => exact fun a k' => ih _ (k a x k')
  exact all (t, b) h

theorem emits {ms : List Msg} : s.KeepsCore (t.emits ms) := h.foldl fun _ _ k => k.emit

theorem setObjs {i j e : Nat} {vs : List Nat} : s.KeepsCore (t.setObjs i j e vs) := by
  induction vs generalizing t e with
  | nil => exact h
  | cons v vs ih => exact ih h.setObj

/-- A write to a CMD object keeps the core where its own rule does. -/
theorem command {a i j : Nat} {own : State → State × Nat} (k : ∀ u, s.KeepsCore u → s.KeepsCore (own u).1) : s.KeepsCore (t.command a i j own).1 := by
  unfold State.command
  split
  · exact ite h.setObj h
  · exact (k t h).setObj

end Primitives

/-- The state of a pair. -/
theorem pair {α : Type} {s u : State} {x : α} (h : s.KeepsCore u) : s.KeepsCore (u, x).1 := h

/-- The state that a pair is matched to. -/
theorem of_eq {α : Type} {s u : State} {p : State × α} {x : α} (e : p = (u, x)) (h : s.KeepsCore p.1) : s.KeepsCore u := by
  subst e
  exact h

end State.KeepsCore

/-- Where an outcome is a next state, that state comes of `s` with the core kept. -/
def State.Yields (s : State) (o : Out) : Prop := ∀ t, o = .next t → s.KeepsCore t

namespace State.KeepsCore

theorem yields_next {s t : State} (h : s.KeepsCore t) : s.Yields (.next t) := by
  intro u e
  cases e
  exact h

theorem yields_fault {s : State} {r : Fault} : s.Yields (.fault r) := fun _ e => nomatch e

theorem yields_ite {s : State} {a b : Out} {c : Prop} [Decidable c] (ha : s.Yields a) (hb : s.Yields b) : s.Yields (if c then a else b) := by
  split
  · exact ha
  · exact hb

theorem commandOut {s t : State} (h : s.KeepsCore t) {a i j : Nat} {own : State → State × Nat} (k : ∀ u, s.KeepsCore u → s.KeepsCore (own u).1) :
    s.Yields (t.commandOut a i j own) := yields_next (h.command k).emit

end State.KeepsCore

end Sys2Proof.Machine
end

section
/-! PROOF. What the operations of Ops keep: the core of the state. -/

namespace Sys2Proof.Machine
namespace State.KeepsCore
section
variable {s t : State} (h : s.KeepsCore t)
include h

theorem answer {sess index sub st : Nat} : s.KeepsCore (t.answer sess index sub st) := h.emit

theorem report {r : Report} : s.KeepsCore (t.report r) := h.emit

end

end State.KeepsCore
end Sys2Proof.Machine
end

section
/-! PROOF. What the operations of Floor keep: the core of the state. -/

namespace Sys2Proof.Machine
namespace State.KeepsCore
section
variable {s t : State} (h : s.KeepsCore t)
include h

theorem setTileState {n v : Nat} : s.KeepsCore (t.setTileState n v) := h.setObj

theorem deriveOffered : s.KeepsCore t.deriveOffered := beside (h.each (fun _ _ k => ite k.setTileState (ite k.setTileState k.setTileState)))

theorem choose {retired n : Nat} : s.KeepsCore (t.choose retired n) := h.beside

theorem shrink : s.KeepsCore t.shrink := ite h (report h.count)

theorem chooseReplacement {retired : Nat} : s.KeepsCore (t.chooseReplacement retired) := elim h.shrink (fun _ => h.choose)

theorem admitReplacements : s.KeepsCore t.admitReplacements := ite h (count (beside (h.each (fun _ _ k => k.setTileState))))

end

end State.KeepsCore
end Sys2Proof.Machine
end

section
/-! PROOF. What the operations of Routes keep: the core of the state. -/

namespace Sys2Proof.Machine
namespace State.KeepsCore
section
variable {s t : State} (h : s.KeepsCore t)
include h

theorem countDetour {x : Option Nat} : s.KeepsCore (t.countDetour x) := by
  unfold State.countDetour
  split
  · exact h.count
  · exact h.count

theorem writeDetours {ns : List Nat} : s.KeepsCore (t.writeDetours ns) := h.each fun _ _ k => k.setObj

theorem setDetours {ns : List Nat} : s.KeepsCore (t.setDetours ns).1 := pair (each (h.each (fun _ _ k => k.setObj)) (fun _ _ k => k.countDetour))

end

end State.KeepsCore
end Sys2Proof.Machine
end

section
/-! PROOF. What the operations of Tiles keep: the core of the state. -/

namespace Sys2Proof.Machine
namespace State.KeepsCore
section
variable {s t : State} (h : s.KeepsCore t)
include h

theorem setTile {n : Nat} {t' : Tile} : s.KeepsCore (t.setTile n t') := h.beside

theorem modTile {n : Nat} {f : Tile → Tile} : s.KeepsCore (t.modTile n f) := h.setTile

theorem modArr {n : Nat} {f : ArrayUnit → ArrayUnit} : s.KeepsCore (t.modArr n f) := h.modTile

theorem modMov {n : Nat} {f : Mover → Mover} : s.KeepsCore (t.modMov n f) := h.modTile

theorem modGau {n : Nat} {f : GaugeUnit → GaugeUnit} : s.KeepsCore (t.modGau n f) := h.modTile

theorem modQueue {n q : Nat} {f : QueueUnit → QueueUnit} : s.KeepsCore (t.modQueue n q f) := h.modTile

theorem setJob {q : Nat} {j : Option Job} : s.KeepsCore (t.setJob q j) := h.beside

theorem modJob {q : Nat} {f : Job → Job} : s.KeepsCore (t.modJob q f) := by
  unfold State.modJob
  split
  · exact h.setJob
  · exact h

theorem setJobState {q v : Nat} : s.KeepsCore (t.setJobState q v) := h.setObj

theorem modPort {k : Nat} {f : Port → Port} : s.KeepsCore (t.modPort k f) := h.beside

theorem reportFor {q : Option Nat} {cls : Nat} {suspect reporter : Suspect} {status detail : Nat} {closed : Option Suspect} : s.KeepsCore
    (t.reportFor q cls suspect reporter status detail closed) :=
  h.report

theorem tileReport {n cls status detail : Nat} {closed : Option Suspect} : s.KeepsCore (t.tileReport n cls status detail closed) := h.reportFor

theorem writeSpad {n bank row : Nat} {d : Row} : s.KeepsCore (t.writeSpad n bank row d) := h.modTile

theorem queueSparing {n bank row : Nat} : s.KeepsCore (t.queueSparing n bank row) := ite h (count h.modTile)

theorem trackRow {n bank row : Nat} : s.KeepsCore (t.trackRow n bank row) := by
  unfold State.trackRow
  dsimp only
  split
  · exact ite h (ite (queueSparing h.modTile) h.modTile)
  · exact ite h.modTile h

theorem readSpad {n bank row : Nat} : s.KeepsCore (t.readSpad n bank row).1 := by
  unfold State.readSpad
  split
  · exact h.pair
  · exact pair (trackRow h.count)
  · exact pair (tileReport (queueSparing h.count))

theorem spareRow {n bank row : Nat} : s.KeepsCore (t.spareRow n bank row).1 := ite_fst h.pair (pair (modTile h.setObj))

theorem wipeTile {n : Nat} : s.KeepsCore (t.wipeTile n) :=
  setObj (setObj (setObj (modTile (each (each (h.each (fun _ _ k => k.spareRow)) (fun _ _ k => k.setObj)) (fun _ _ k => k.setObj)))))

theorem readRows {n e first count : Nat} : s.KeepsCore (t.readRows n e first count).1 := by
  induction count generalizing t first with
  | zero => exact h
  | succ count ih =>
    unfold State.readRows
    split
    · next e' => exact of_eq e' h.readSpad
    · next e' =>
      have read := of_eq e' h.readSpad
      split
      · next e'' => exact of_eq e'' (ih read)
      · next e'' => exact of_eq e'' (ih read)

theorem writeRows {n e first : Nat} {ds : List Row} : s.KeepsCore (t.writeRows n e first ds) := by
  induction ds generalizing t first with
  | nil => exact h
  | cons d ds ih => exact ih h.writeSpad

theorem contest {n : Nat} {x : Contest} : s.KeepsCore (t.contest n x) := ite h (setObj (count (count h.modTile)))

theorem collide {n : Nat} {hits : List Contest} {e c : Nat} {banks : List Nat} : s.KeepsCore (t.collide n hits e c banks).1 :=
  pair (h.each (fun _ _ k => k.contest))

theorem collisionReport {n : Nat} {met : Bool} : s.KeepsCore (t.collisionReport n met) := ite h.tileReport h

theorem setGauge {n g : Nat} {v : Gauge} : s.KeepsCore (t.setGauge n g v) := h.modGau

theorem addGauge {n g amount device logical : Nat} {other cycle : Option Nat} : s.KeepsCore (t.addGauge n g amount device logical other cycle) :=
  count h.setGauge

theorem signalTile {n g amount device logical : Nat} {cycle : Option Nat} : s.KeepsCore (t.signalTile n g amount device logical cycle) := by
  unfold State.signalTile
  split
  · exact h.addGauge
  · exact h.count
  · exact h

theorem setQState {n q v : Nat} : s.KeepsCore (t.setQState n q v) := h.setObj

theorem haltFault {n q st : Nat} : s.KeepsCore (t.haltFault n q st) := tileReport (setObj (setObj (setObj h.setQState)))

theorem stall {n q target : Nat} : s.KeepsCore (t.stall n q target) := setObj (ite (modQueue (setObj h.setQState)) h.setQState)

theorem issued {n q pc free : Nat} : s.KeepsCore (t.issued n q pc free) := by
  unfold State.issued
  exact modQueue (count (setObj (setObj (setObj h.setQState))))

end

end State.KeepsCore
end Sys2Proof.Machine
end

section
/-! PROOF. What the operations of Banks keep: the core of the state. -/

namespace Sys2Proof.Machine
namespace State.KeepsCore
section
variable {s t : State} (h : s.KeepsCore t)
include h

theorem setServer {srv : Server} {m : MemServer} : s.KeepsCore (t.setServer srv m) := by
  unfold State.setServer
  split
  · exact h.beside
  · exact h.beside

theorem modServer {srv : Server} {f : MemServer → MemServer} : s.KeepsCore (t.modServer srv f) := h.setServer

theorem syncRequests {srv : Server} : s.KeepsCore (t.syncRequests srv) := by
  unfold State.syncRequests
  dsimp only
  split
  · exact h.setObj
  · exact h

theorem putDdr {row : Nat} {d : Row} : s.KeepsCore (t.putDdr row d) := h.stored rfl fun w => Memory.wf_putDdr w row d

theorem putHbm {row : Nat} {d : Row} : s.KeepsCore (t.putHbm row d) := h.stored rfl fun w => Memory.wf_putHbm w row d

theorem putRow {srv : Server} {row : Nat} {d : Row} : s.KeepsCore (t.putRow srv row d) := by
  unfold State.putRow
  split
  · exact h.putHbm
  · exact h.putDdr

theorem retireBank {srv : Server} {bank : Nat} : s.KeepsCore (t.retireBank srv bank) := by
  unfold State.retireBank
  dsimp only
  split
  · exact h
  · split
    · exact ite (setObj (beside (count h.modServer))) (beside (count h.modServer))
    · exact count h.modServer

theorem retireRow {srv : Server} {bank row : Nat} : s.KeepsCore (t.retireRow srv bank row) :=
  ite h (ite h.retireBank (ite (retireBank (count h.modServer)) (count h.modServer)))

theorem trackCorrection {srv : Server} {bank row : Nat} : s.KeepsCore (t.trackCorrection srv bank row) := by
  unfold State.trackCorrection
  dsimp only
  split
  · exact ite (retireRow h.modServer) h.modServer
  · split
    · exact h.modServer
    · split
      · exact h.modServer
      · exact h

theorem corrected {srv : Server} {row n : Nat} {d : Row} : s.KeepsCore (t.corrected srv row n d) :=
  each (ite (reportFor h.count) (putRow (reportFor h.count))) fun _ _ k => k.trackCorrection

theorem uncorrectable {srv : Server} {row : Nat} {q : Option Nat} : s.KeepsCore (t.uncorrectable srv row q) := reportFor h.count

theorem readMem {srv : Server} {row : Nat} {q : Option Nat} : s.KeepsCore (t.readMem srv row q).1 := by
  unfold State.readMem
  dsimp only
  split
  · exact h.pair
  · split
    · split
      · exact h.pair
      · split
        · exact h.pair
        · exact pair h.corrected
        · exact pair h.uncorrectable
    · split
      · exact pair (ite (ite h.count h) (corrected (ite h.count h)))
      · exact pair h.uncorrectable

theorem readMemRows {srv : Server} {rows : List Nat} {q : Option Nat} : s.KeepsCore (t.readMemRows srv rows q).1 :=
  foldl_fst h fun _ _ k => k.readMem

theorem closeOverlap {srv : Server} {rows : List Nat} : s.KeepsCore (t.closeOverlap srv rows) :=
  foldl h (fun _ _ k => ite (modServer k.readMemRows) k)

theorem ringRead {ddr : Bool} {row : Nat} {q : Option Nat} : s.KeepsCore (t.ringRead ddr row q).1 := h.readMem

theorem dropHeld {srv : Server} {rows : List Nat} : s.KeepsCore (t.dropHeld srv rows) := h.modServer

theorem ringWrite {ddr : Bool} {row : Nat} {d : Row} : s.KeepsCore (t.ringWrite ddr row d) :=
  ite (modServer (dropHeld h.closeOverlap)) (putRow (dropHeld h.closeOverlap))

theorem ringWord {ddr : Bool} {row : Nat} {q : Option Nat} {k : Nat} : s.KeepsCore (t.ringWord ddr row q k).1 := by
  induction k generalizing t row with
  | zero => exact h
  | succ k ih =>
    unfold State.ringWord
    split
    · next e => exact of_eq e h.ringRead
    · next e =>
      have read := of_eq e h.ringRead
      split
      · next e' => exact of_eq e' (ih read)
      · next e' => exact of_eq e' (ih read)

theorem ringPut {ddr : Bool} {row k v : Nat} : s.KeepsCore (t.ringPut ddr row k v) := by
  induction k generalizing t row v with
  | zero => exact h
  | succ k ih => exact ih h.ringWrite

end

end State.KeepsCore
end Sys2Proof.Machine
end

section
/-! PROOF. What the operations of Ufr keep: the core of the state. -/

namespace Sys2Proof.Machine
namespace State.KeepsCore
section
variable {s t : State} (h : s.KeepsCore t)
include h

theorem writeUfr {u : Ufr} : s.KeepsCore (t.writeUfr u) := beside h.setObj

end

end State.KeepsCore
end Sys2Proof.Machine
end

section
/-! PROOF. What the operations of Planes keep: the core of the state. -/

namespace Sys2Proof.Machine
namespace State.KeepsCore
section
variable {s t : State} (h : s.KeepsCore t)
include h

theorem setPlane {c v : Nat} : s.KeepsCore (t.setPlane c v) := h.setObj

theorem latchPlane {c : Nat} {r : Option Bool} : s.KeepsCore (t.latchPlane c r) := h.beside

theorem modWakes {f : Nat} {g : WakeGroup → WakeGroup} : s.KeepsCore (t.modWakes f g) := setObj h.beside

theorem wakeRequest {c : Nat} : s.KeepsCore (t.wakeRequest c) := by
  unfold State.wakeRequest
  dsimp only
  split
  · split
    · exact modWakes h.setPlane
    · exact modWakes h.setPlane
  · exact ite h.latchPlane (ite h.latchPlane h)

end

end State.KeepsCore
end Sys2Proof.Machine
end

section
/-! PROOF. What the operations of Control keep: the core of the state. -/

namespace Sys2Proof.Machine
namespace State.KeepsCore
section
variable {s t : State} (h : s.KeepsCore t)
include h

theorem dtlOut {m : Nat} {up : Bool} {d : DtlMsg} : s.KeepsCore (t.dtlOut m up d) := ite h.emit (count h.emit)

theorem event {code partition addr extra : Nat} {cells : List Codeword} : s.KeepsCore (t.event code partition addr extra cells) := h.dtlOut

theorem toJobState {q v : Nat} : s.KeepsCore (t.toJobState q v) := ite h (event (modJob h.setJobState))

theorem control {dst mtype body : Nat} : s.KeepsCore (t.control dst mtype body) := h.emit

theorem onCtrl {mtype : Nat} {m : CtrlMsg} {f : State → State} (k_f : ∀ u0, s.KeepsCore u0 → s.KeepsCore (f u0)) : s.KeepsCore (t.onCtrl mtype m f) :=
  ite (k_f _ h) h

theorem toMembers {q mtype step low : Nat} : s.KeepsCore (t.toMembers q mtype step low) := h.each fun _ _ k => k.control

theorem outside {q bit : Nat} : s.KeepsCore (t.outside q bit) := setObj (ite h.setObj h)

theorem putHist {x : HistEntry} : s.KeepsCore (t.putHist x) := h.beside

theorem countEvent {suspect cls : Nat} : s.KeepsCore (t.countEvent suspect cls).1 := pair h.putHist

theorem verdict {suspect cls : Nat} : s.KeepsCore (t.verdict suspect cls) := writeUfr h.putHist

theorem closeDomain {d : Domain} {unit : Suspect} {q : Option Nat} : s.KeepsCore (t.closeDomain d unit q) := reportFor h.beside

theorem freezeQueues {n : Nat} : s.KeepsCore (t.freezeQueues n) := h.each (fun _ _ k => ite k (setObj k.setQState))

theorem freezeGauges {n : Nat} : s.KeepsCore (t.freezeGauges n) := h.modGau

theorem freezeDevice : s.KeepsCore t.freezeDevice := h.each (fun _ _ k => freezeGauges k.freezeQueues)

theorem emptyQueues {n : Nat} : s.KeepsCore (t.emptyQueues n) := h.each (fun _ _ k => setObj (setObj k.setQState))

theorem unassign {n : Nat} : s.KeepsCore (t.unassign n) := setObj (setObj (setObj (modTile h.emptyQueues)))

theorem releaseTile {n : Nat} : s.KeepsCore (t.releaseTile n) := unassign h.wipeTile

theorem readBack {n : Nat} {bad : List (Nat × Nat)} : s.KeepsCore (t.readBack n bad) := by
  have spared := h.foldl_fst (b := true) (xs := bad) (f := fun acc x => let y := acc.1.spareRow n x.1 x.2;
      (y.1, acc.2 && y.2)) fun _ _ k => k.spareRow
  exact ite spared spared.setObj

theorem checkScrub {n : Nat} : s.KeepsCore (t.checkScrub n) := readBack h.draw

theorem scrubbed {n : Nat} : s.KeepsCore (t.scrubbed n) := checkScrub h.releaseTile

theorem failScrub {n before : Nat} : s.KeepsCore (t.failScrub n before) := closeDomain (modTile h.setTileState)

theorem passScrub {n st : Nat} : s.KeepsCore (t.passScrub n st) := ite h.failScrub h.setTileState

theorem sendBack {n : Nat} : s.KeepsCore (t.sendBack n) := ite h.modTile (passScrub h.scrubbed)

theorem freeTwin {t' : TwinRun} : s.KeepsCore (t.freeTwin t') := h.sendBack

theorem discardRun {q : Nat} : s.KeepsCore (t.discardRun q) := by
  unfold State.discardRun
  split
  · exact freeTwin h.modJob
  · exact h

theorem discardNext {q : Nat} : s.KeepsCore (t.discardNext q) := by
  unfold State.discardNext
  split
  · exact freeTwin h.modJob
  · exact h

theorem discardTwin {q : Nat} : s.KeepsCore (t.discardTwin q) := discardNext h.discardRun

theorem dropTwin {q : Nat} : s.KeepsCore (t.dropTwin q) := ite (count h.discardRun) h

theorem dropTwinOf {n : Nat} : s.KeepsCore (t.dropTwinOf n) := by
  unfold State.dropTwinOf
  dsimp only
  split
  · exact h
  · exact ite (discardNext (ite h.dropTwin h)) (ite h.dropTwin h)

theorem discardChunk {n : Nat} : s.KeepsCore (t.discardChunk n) := h.beside

theorem leaveRamp {n : Nat} : s.KeepsCore (t.leaveRamp n) := h.beside

theorem shutTile {n cls : Nat} : s.KeepsCore (t.shutTile n cls) :=
  ite (modTile (freezeGauges (freezeQueues (dropTwinOf (leaveRamp (discardChunk h.setTileState)))))) h

theorem closeTile {n cls : Nat} : s.KeepsCore (t.closeTile n cls) := ite (closeDomain h.shutTile) h

theorem retireTile {n cls : Nat} {remapped : Option Nat} : s.KeepsCore (t.retireTile n cls remapped) := by
  unfold State.retireTile
  dsimp only
  split
  · exact choose (modTile (unassign (verdict h.setTileState)))
  · exact ite (modTile (unassign (verdict h.setTileState))) (chooseReplacement (modTile (unassign (verdict h.setTileState))))

theorem settled : s.KeepsCore t.settled := each (h.each (fun _ _ k => k.modTile)) fun _ _ k => k.setDetours

theorem discardWork {n : Nat} : s.KeepsCore (t.discardWork n) := h.modTile

theorem holdQueue {dog : Bool} {n q : Nat} : s.KeepsCore (t.holdQueue dog n q) := ite (setObj (setObj (setObj h.setQState))) h

theorem clearPending {n : Nat} : s.KeepsCore (t.clearPending n) := h.modGau

theorem snapshotTile {n : Nat} : s.KeepsCore (t.snapshotTile n) := h.modGau

theorem abandonTile {dog : Bool} {n : Nat} : s.KeepsCore (t.abandonTile dog n) :=
  ite h (modGau (clearPending (discardWork (h.each (fun _ _ k => k.holdQueue)))))

theorem setCtx {slot : Nat} {c : Ctx} : s.KeepsCore (t.setCtx slot c) := h.beside

theorem unpinLanes {q : Nat} {f : Ctx → Ctx} : s.KeepsCore (t.unpinLanes q f) := by
  unfold State.unpinLanes
  dsimp only
  refine beside (modJob (h.each (fun _ _ k => ?_)))
  split
  · exact k.setCtx
  · exact k.setCtx
  · exact k

theorem retireClosed {q : Nat} : s.KeepsCore (t.retireClosed q) := by
  unfold State.retireClosed
  split
  · exact h.each fun _ _ k => k.retireTile
  · exact h

theorem dropRemaps {q : Nat} : s.KeepsCore (t.dropRemaps q) := by
  unfold State.dropRemaps
  split
  · exact each h.modJob fun _ _ k => k.sendBack
  · exact h

theorem haltJob {q cause : Nat} : s.KeepsCore (t.haltJob q cause) := by
  unfold State.haltJob
  dsimp only
  split
  · exact h
  · exact closeDomain (toJobState (retireClosed (modJob (each (unpinLanes (dropRemaps (discardTwin (each (toMembers (setObj h.setObj))
        (fun _ _ k => k.discardChunk))))) (fun _ _ k => modGau k.abandonTile)))))

theorem endJob {q : Nat} {told : Bool} : s.KeepsCore (t.endJob q told) :=
  toJobState (each (modJob (retireClosed (each (unpinLanes (dropRemaps (discardTwin (each (ite h.toMembers h)
      (fun _ _ k => k.discardChunk))))) (fun _ _ k => ite k (clearPending (discardWork k.emptyQueues)))))) (fun _ _ k => k.setObj))

theorem remapOne {q logical closed : Nat} : s.KeepsCore (t.remapOne q logical closed) :=
  elim h.haltJob (fun _ => modJob (wakeRequest (discardChunk h.dropTwinOf)))

theorem startRemaps {q : Nat} : s.KeepsCore (t.startRemaps q) := by
  unfold State.startRemaps
  split
  · exact h
  · exact h.each (fun _ _ k => ite k k.remapOne)

theorem dropTarget {q n : Nat} : s.KeepsCore (t.dropTarget q n) := modTile h.modJob

theorem abandonStep {q cls : Nat} {dog : Bool} : s.KeepsCore (t.abandonStep q cls dog) := by
  unfold State.abandonStep
  dsimp only
  split
  · exact h
  · split
    · exact haltJob h.setObj
    · exact toJobState (modJob (each (toMembers (count (ite (h.each (fun _ _ k => k.snapshotTile)) h))) (fun _ _ k => k.abandonTile)))

theorem condemnTile {n cls : Nat} : s.KeepsCore (t.condemnTile n cls) := by
  unfold State.condemnTile
  dsimp only
  split
  · exact ite (startRemaps (dropTarget h.closeTile)) (startRemaps h.closeTile)
  · exact h.closeTile

theorem stepFault {q cls : Nat} {suspect : Option Nat} : s.KeepsCore (t.stepFault q cls suspect) := by
  unfold State.stepFault
  dsimp only
  split
  · exact ite (ite (condemnTile (countEvent h.abandonStep)) (countEvent h.abandonStep)) h.abandonStep
  · exact h.abandonStep

theorem recheckRoutes : s.KeepsCore t.recheckRoutes := by
  unfold State.recheckRoutes
  refine h.each (fun _ _ k => ?_)
  split
  · exact ite k (ite k.haltJob (ite k.modJob k))
  · exact k

end

end State.KeepsCore
end Sys2Proof.Machine
end

section
/-! PROOF. What the operations of Contexts keep: the core of the state. -/

namespace Sys2Proof.Machine
namespace State.KeepsCore
section
variable {s t : State} (h : s.KeepsCore t)
include h

theorem modPool {q : Nat} {f : CtxPool → CtxPool} : s.KeepsCore (t.modPool q f) := h.beside

theorem modPager {q : Nat} {f : Pager → Pager} : s.KeepsCore (t.modPager q f) := h.beside

theorem setFreeList {q : Nat} {ddr : Bool} {f : FreeList} : s.KeepsCore (t.setFreeList q ddr f) := h.modPool

theorem takePage {fuel q : Nat} {ddr : Bool} : s.KeepsCore (State.takePage fuel t q ddr).1 := by
  induction fuel generalizing t with
  | zero => exact h
  | succ fuel ih =>
    unfold State.takePage
    split
    · exact h
    · exact ite_fst (ih h.setFreeList) (pair h.setFreeList)

theorem newPage {q : Nat} {ddr : Bool} : s.KeepsCore (t.newPage q ddr).1 := h.takePage

theorem freePage {q : Nat} {ddr : Bool} {i tag : Nat} : s.KeepsCore (t.freePage q ddr i tag) := ite h h.setFreeList

theorem zeroRows {ddr : Bool} {row n : Nat} : s.KeepsCore (t.zeroRows ddr row n) := by
  unfold State.zeroRows
  dsimp only
  split
  · exact each (dropDdr (h.each fun _ _ k => modServer (dropHeld k.closeOverlap))) fun _ _ k => k.ringWrite
  · exact dropHbm (h.each fun _ _ k => modServer (dropHeld k.closeOverlap))

theorem zeroPage {q : Nat} {ddr : Bool} {i : Nat} : s.KeepsCore (t.zeroPage q ddr i) := count h.zeroRows

theorem copyRows {q : Nat} {fromDdr : Bool} {src : Nat} {toDdr : Bool} {dst n : Nat} : s.KeepsCore (t.copyRows q fromDdr src toDdr dst n).1 := by
  induction n generalizing t src dst with
  | zero => exact h
  | succ n ih =>
    unfold State.copyRows
    split
    · next e => exact of_eq e h.ringRead
    · next e => exact ih (ringWrite (of_eq e h.ringRead))

theorem entryOf {slot page : Nat} : s.KeepsCore (t.entryOf slot page).1 := by
  unfold State.entryOf
  dsimp only
  split
  · exact h.pair
  · split
    · exact h.pair
    · split
      · next e =>
          exact pair (of_eq e h.ringRead)
      · next e =>
          exact pair (setCtx (of_eq e h.ringRead))

theorem setEntry {slot page e : Nat} : s.KeepsCore (t.setEntry slot page e).1 := by
  unfold State.setEntry
  dsimp only
  split
  · exact pair h.setCtx
  · split
    · exact pair h.setCtx
    · split
      · next e =>
          exact pair (ringWrite (of_eq e h.ringRead))
      · next e =>
          exact pair (of_eq e h.ringRead)

theorem entries {slot n : Nat} : s.KeepsCore (t.entries slot n).1 := foldl_fst h fun _ _ k => k.entryOf

theorem pagesIn {slot : Nat} {ddr : Bool} : s.KeepsCore (t.pagesIn slot ddr).1 := pair h.entries

theorem queueMove {q : Nat} {kind : MoveKind} {slot page src : Nat} {dst : Option (Nat × Nat)} {cls : Nat} : s.KeepsCore
    (t.queueMove q kind slot page src dst cls) :=
  h.modPager

theorem takeFor {q : Nat} {ddr : Bool} {tenant : Nat} : s.KeepsCore (t.takeFor q ddr tenant).1 := by
  unfold State.takeFor
  split
  · next e =>
      exact ite_fst (pair (of_eq e h.newPage)) (pair (zeroPage (of_eq e h.newPage)))
  · next e =>
      exact pair (of_eq e h.newPage)

theorem destOf {q : Nat} {m : PageMove} : s.KeepsCore (t.destOf q m).1 := ite_fst h.newPage h.takeFor

theorem startMove {q : Nat} {ms : List PageMove} : s.KeepsCore (t.startMove q ms).1 := by
  induction ms generalizing t with
  | nil => exact h
  | cons m rest ih =>
    unfold State.startMove
    split
    · exact pair h.modPager
    · split
      · next e => exact pair (modPager (of_eq e h.destOf))
      · next e => exact ih (of_eq e h.destOf)

theorem startFill {q : Nat} {ddr : Bool} : s.KeepsCore (t.startFill q ddr) := by
  unfold State.startFill
  dsimp only
  split
  · exact modPager h.setFreeList
  · split
    · exact modPager h.setFreeList
    · split
      · exact modPager h.setFreeList
      · exact h

theorem startAny {cs : List (Nat × Nat)} : s.KeepsCore (t.startAny cs).1 := by
  induction cs generalizing t with
  | nil => exact h
  | cons c rest ih =>
    unfold State.startAny
    split
    · next e => exact of_eq e h.startMove
    · next e => exact ih (of_eq e h.startMove)

theorem idleFill {q : Nat} : s.KeepsCore (t.idleFill q) := by
  unfold State.idleFill
  dsimp only
  split
  · exact h
  · split
    · exact h.startFill
    · exact startFill h.startFill

theorem pumpPages {fuel : Nat} : s.KeepsCore (State.pumpPages fuel t) := by
  induction fuel generalizing t with
  | zero => exact h
  | succ fuel ih =>
    unfold State.pumpPages
    split
    · exact h
    · split
      · next e => exact ih (of_eq e h.startAny)
      · next e => exact each (of_eq e h.startAny) fun _ _ k => k.idleFill

theorem queueDemotion {q slot cls : Nat} : s.KeepsCore (t.queueDemotion q slot cls) := foldl h.pagesIn (fun _ _ k => ite k k.queueMove)

theorem waterMarks {q : Nat} : s.KeepsCore (t.waterMarks q) := ite (foldl h.modPool (fun _ _ k => ite k k.queueDemotion)) h.modPool

theorem pagerRun {q : Nat} : s.KeepsCore (t.pagerRun q) := pumpPages h.waterMarks

theorem withdraw {q slot : Nat} {which : PageMove → Bool} : s.KeepsCore (t.withdraw q slot which) := by
  unfold State.withdraw
  dsimp only
  refine foldl h.modPager (fun _ _ k => ?_)
  split
  · exact k.freePage
  · exact k

theorem dropMoves {q slot : Nat} : s.KeepsCore (t.dropMoves q slot) := h.withdraw

theorem moveLost {q slot : Nat} {fromDdr : Bool} {src : Nat} {toDdr : Bool} {dst : Nat} : s.KeepsCore (t.moveLost q slot fromDdr src toDdr dst) :=
  reportFor (count (setCtx h.freePage))

theorem movePage {q slot page : Nat} {toDdr : Bool} {src dst : Nat} : s.KeepsCore (t.movePage q slot page toDdr src dst).1 := by
  unfold State.movePage
  split
  · next e =>
      exact pair (moveLost (of_eq e h.copyRows))
  · next e =>
      split
      · next e1 =>
          exact pair (moveLost (of_eq e1 (setEntry (of_eq e h.copyRows))))
      · next e1 =>
          exact pair (count (freePage (of_eq e1 (setEntry (of_eq e h.copyRows)))))

theorem demoteNow {q slot : Nat} : s.KeepsCore (t.demoteNow q slot) := by
  unfold State.demoteNow
  dsimp only
  refine foldl (pagesIn (foldl (modPager h.withdraw) (fun _ _ k => k.movePage))) (fun _ _ k => ?_)
  split
  · next e1 =>
      exact of_eq e1 k.takeFor
  · next e1 =>
      exact movePage (of_eq e1 k.takeFor)

theorem makeRoom {q need : Nat} {but : Option Nat} : s.KeepsCore (t.makeRoom q need but) := foldl h (fun _ _ k => ite k k.demoteNow)

theorem openCtx {slot : Nat} {o : CtxOpen} {u : State} (e : t.openCtx slot o = some u) : s.KeepsCore u := by
  unfold State.openCtx at e
  dsimp only at e
  split at e
  · cases e
  · next e₁ =>
    split at e
    · cases e
    · next e₂ =>
      obtain rfl := Option.some.inj e
      have taken := of_eq e₂ (newPage (of_eq e₁ (newPage h.makeRoom)))
      refine pagerRun (setCtx ?_)
      split
      · exact taken.zeroPage
      · exact zeroPage taken.zeroPage

theorem lookup {slot : Nat} : s.KeepsCore (t.lookup slot) := beside (count h.draw)

theorem handPage {q slot j : Nat} : s.KeepsCore (t.handPage q slot j) := by
  unfold State.handPage
  split
  · next e =>
      exact queueMove (of_eq e h.newPage)
  · next e =>
      split
      · split
        · next e1 =>
            exact of_eq e1 (setEntry (of_eq e h.newPage))
        · next e1 =>
            exact moveLost (of_eq e1 (setEntry (of_eq e h.newPage)))
      · exact queueMove (of_eq e h.newPage)

theorem placeLane {q slot : Nat} : s.KeepsCore (t.placeLane q slot).1 := by
  unfold State.placeLane
  dsimp only
  split
  · exact pair h.entries
  · split
    · exact pair h.entries
    · split
      · exact pair (setCtx (dropMoves (foldl (each (setCtx (makeRoom (withdraw h.entries))) (fun _ _ k => k.handPage))
            (fun _ _ k => queueMove k.takeFor))))
      · exact pair (foldl (each (setCtx (makeRoom (withdraw h.entries))) (fun _ _ k => k.handPage)) (fun _ _ k => queueMove k.takeFor))

theorem lanesReady {q : Nat} : s.KeepsCore (t.lanesReady q) := by
  unfold State.lanesReady
  dsimp only
  split
  · exact h
  · exact modJob (foldl h (fun _ _ k => k.ringWrite))

theorem takeLane {q lane slot : Nat} : s.KeepsCore (t.takeLane q lane slot) := by
  unfold State.takeLane
  extract_lets s1 st x s2
  have looked : s.KeepsCore s1 := ite h.lookup h
  have placed : s.KeepsCore x.1 := ite_fst looked.placeLane looked
  exact modJob (ite placed placed.count)

theorem laneSlots {q list lanes : Nat} : s.KeepsCore (t.laneSlots q list lanes).1 := foldl_fst h fun _ _ k => k.ringRead

theorem handLanes {q : Nat} {e : Entry} : s.KeepsCore (t.handLanes q e) := by
  unfold State.handLanes
  extract_lets s1 x s2
  have taken : s.KeepsCore s2 := foldl (laneSlots h.modJob) fun _ _ k => k.takeLane
  exact taken.pagerRun.lanesReady

theorem laneHandover {q : Nat} {e : Entry} : s.KeepsCore (t.laneHandover q e) := ite h.modJob (ite h.handLanes (beside (count h.modJob)))

theorem execPinWaitRelease {q : Nat} : s.Yields (Machine.execPinWaitRelease q t) := by
  unfold Machine.execPinWaitRelease
  refine yields_next ?_
  split
  · exact ite (handLanes h.beside) h
  · exact h

theorem repinLanes {q : Nat} : s.KeepsCore (t.repinLanes q) := by
  unfold State.repinLanes
  extract_lets recs s1 s2
  have placed : s.KeepsCore s2 := foldl h.modJob fun _ _ k => ite k.placeLane k
  exact placed.pagerRun.lanesReady

theorem cacheBoundary {q step : Nat} : s.KeepsCore (t.cacheBoundary q step) := pagerRun (count (modJob h.unpinLanes))

theorem moveFailed {q slot : Nat} : s.KeepsCore (t.moveFailed q slot) := ite (count (setCtx (modJob h.dropMoves))) h

theorem endMove {q : Nat} {m : PageMove} {i : Nat} : s.KeepsCore (t.endMove q m i) := by
  unfold State.endMove
  dsimp only
  split
  · exact ite h.zeroPage (setFreeList h.zeroPage)
  · split
    · next e =>
        exact of_eq e (setEntry h.zeroPage)
    · next e =>
        exact moveFailed (moveLost (of_eq e (setEntry h.zeroPage)))
  · split
    · next e =>
        exact of_eq e h.movePage
    · next e =>
        exact moveFailed (of_eq e h.movePage)
  · split
    · exact h.freePage
    · split
      · next e =>
          exact of_eq e h.movePage
      · next e =>
          exact moveFailed (of_eq e h.movePage)

theorem execPageMoveComplete {q id : Nat} : s.Yields (Machine.execPageMoveComplete q id t) := by
  unfold Machine.execPageMoveComplete
  dsimp only
  refine yields_next ?_
  split
  · exact h
  · exact pagerRun (lanesReady (endMove h.modPager))

theorem ruleCtx {v op : Nat} {f : State → Nat → Ctx → State × Nat} (k_f : ∀ u0 u1 u2, s.KeepsCore u0 → s.KeepsCore
    (f u0 u1 u2).1) : s.KeepsCore (Machine.ruleCtx v op f t).1 :=
  ite_fst h.pair (ite_fst (pair h.lookup) (k_f _ _ _ h.lookup))

theorem ruleUsable {v op : Nat} {f : State → Nat → Ctx → State × Nat} (k_f : ∀ u0 u1 u2, s.KeepsCore u0 → s.KeepsCore
    (f u0 u1 u2).1) : s.KeepsCore (Machine.ruleUsable v op f t).1 :=
  h.ruleCtx (fun _ _ _ k => ite_fst (k_f _ _ _ k) k.pair)

theorem latchOpen {slot : Nat} {o : CtxOpen} : s.KeepsCore (t.latchOpen slot o) := setObj h.setCtx

theorem ruleCtxOpen {v : Nat} : s.KeepsCore (Machine.ruleCtxOpen v t).1 := by
  unfold Machine.ruleCtxOpen
  dsimp only
  split
  · exact h
  · split
    · split
      · next e => exact openCtx h.lookup e
      · exact h.lookup
    · exact latchOpen h.lookup
    · exact latchOpen h.lookup
    · exact h.lookup

theorem ruleCtxClose {v : Nat} : s.KeepsCore (Machine.ruleCtxClose v t).1 := by
  unfold Machine.ruleCtxClose
  refine h.ruleCtx (fun _ _ _ k => ?_)
  split
  · exact pair (setCtx k.dropMoves)
  · exact pair k.setCtx
  · exact pair k.setCtx

theorem ruleCtxSetPosition {v : Nat} : s.KeepsCore (Machine.ruleCtxSetPosition v t).1 :=
  h.ruleUsable (fun _ _ _ k => ite_fst k.pair (pair k.setCtx))

theorem ruleCtxSetPriority {v : Nat} : s.KeepsCore (Machine.ruleCtxSetPriority v t).1 := h.ruleUsable (fun _ _ _ k => pair k.setCtx)

theorem queuePromotion {slot : Nat} : s.KeepsCore (t.queuePromotion slot) := pagerRun (foldl h.pagesIn (fun _ _ k => ite k k.queueMove))

theorem ruleCtxPin {v : Nat} : s.KeepsCore (Machine.ruleCtxPin v t).1 := h.ruleUsable (fun _ _ _ k => pair (queuePromotion (setCtx k.withdraw)))

theorem ruleCtxUnpin {v : Nat} : s.KeepsCore (Machine.ruleCtxUnpin v t).1 := h.ruleUsable (fun _ _ _ k => pair k.setCtx)

theorem ruleCtxPromote {v : Nat} : s.KeepsCore (Machine.ruleCtxPromote v t).1 := h.ruleUsable (fun _ _ _ k => pair k.queuePromotion)

theorem ruleCtxDemote {v : Nat} : s.KeepsCore (Machine.ruleCtxDemote v t).1 :=
  h.ruleCtx (fun _ _ _ k => ite_fst k.pair (ite_fst k.pair (pair (pagerRun k.queueDemotion))))

theorem ruleCtxRead {v : Nat} : s.KeepsCore (Machine.ruleCtxRead v t).1 := h.ruleCtx (fun _ _ _ k => pair k.setObj)

theorem execCtxOpen {sess : Nat} {v : BitVec 256} : s.Yields (Machine.execCtxOpen sess v t) := h.commandOut fun _ k => k.ruleCtxOpen

theorem execCtxClose {sess : Nat} {v : BitVec 256} : s.Yields (Machine.execCtxClose sess v t) := h.commandOut fun _ k => k.ruleCtxClose

theorem execCtxSetPosition {sess : Nat} {v : BitVec 256} : s.Yields (Machine.execCtxSetPosition sess v t) :=
  h.commandOut fun _ k => k.ruleCtxSetPosition

theorem execCtxSetPriority {sess : Nat} {v : BitVec 256} : s.Yields (Machine.execCtxSetPriority sess v t) :=
  h.commandOut fun _ k => k.ruleCtxSetPriority

theorem execCtxPin {sess : Nat} {v : BitVec 256} : s.Yields (Machine.execCtxPin sess v t) := h.commandOut fun _ k => k.ruleCtxPin

theorem execCtxUnpin {sess : Nat} {v : BitVec 256} : s.Yields (Machine.execCtxUnpin sess v t) := h.commandOut fun _ k => k.ruleCtxUnpin

theorem execCtxPromote {sess : Nat} {v : BitVec 256} : s.Yields (Machine.execCtxPromote sess v t) := h.commandOut fun _ k => k.ruleCtxPromote

theorem execCtxDemote {sess : Nat} {v : BitVec 256} : s.Yields (Machine.execCtxDemote sess v t) := h.commandOut fun _ k => k.ruleCtxDemote

theorem execCtxRead {sess : Nat} {v : BitVec 256} : s.Yields (Machine.execCtxRead sess v t) := h.commandOut fun _ k => k.ruleCtxRead

theorem execPageReleaseComplete {slot : Nat} : s.Yields (Machine.execPageReleaseComplete slot t) := by
  have back : ∀ {u : State} {ddr : Bool} {q tenant : Nat}, s.KeepsCore u →
      s.KeepsCore ((u.pagesIn slot ddr).2.foldl (fun v p => v.freePage q ddr p.2 tenant) (u.pagesIn slot ddr).1) :=
    fun k => foldl k.pagesIn fun _ _ k => k.freePage
  refine yields_next (ite h (pagerRun ?_))
  split
  · next o _ =>
    have freed : s.KeepsCore _ := setCtx (slot := slot)
        (c := { t.ctx slot with st := .free, mapEntry := 0, commitEntry := 0, pages := 0, opens := none, damaged := false, pinned := false })
      (back (ddr := true) (q := (t.ctx slot).partition) (tenant := (t.ctx slot).tenant)
        (back (ddr := false) (q := (t.ctx slot).partition) (tenant := (t.ctx slot).tenant) (h.dropMoves (q := (t.ctx slot).partition)
            (slot := slot))))
    exact getD freed fun e => openCtx freed e
  · exact setCtx (back (back h.dropMoves))

theorem rulePoolApply {q v : Nat} : s.KeepsCore (Machine.rulePoolApply q v t).1 :=
  ite_fst h.pair (ite_fst h.pair (ite_fst h.pair (ite_fst h.pair (pair (pagerRun (beside h.modPool))))))

theorem execPoolApply {sess q : Nat} : s.Yields (Machine.execPoolApply sess q t) := h.commandOut fun _ k => k.rulePoolApply

end

end State.KeepsCore
end Sys2Proof.Machine
end

section
/-! PROOF. What the operations of Gating keep: the core of the state. -/

namespace Sys2Proof.Machine
namespace State.KeepsCore
section
variable {s t : State} (h : s.KeepsCore t)
include h

theorem setWake {c : Nat} {w : Wake} : s.KeepsCore (t.setWake c w) := h.modWakes

theorem decideStage {c ma : Nat} {w : Wake} : s.KeepsCore (t.decideStage c ma w) :=
  ite (ite (setWake h.setObj) (count (setWake h.setObj))) (ite (count (setWake h.setObj)) (setWake h.setObj))

theorem execSluiceStageDecision {c ma : Nat} : s.Yields (Machine.execSluiceStageDecision c ma t) := by
  unfold Machine.execSluiceStageDecision
  refine yields_next ?_
  split
  · exact ite h (ite h.setWake h.decideStage)
  · exact h

theorem execSluiceHoldReading {c ma : Nat} : s.Yields (Machine.execSluiceHoldReading c ma t) := by
  unfold Machine.execSluiceHoldReading
  refine yields_next ?_
  split
  · exact ite h.decideStage h
  · exact h

theorem execHoldBudgetExpiry {c : Nat} : s.Yields (Machine.execHoldBudgetExpiry c t) := by
  unfold Machine.execHoldBudgetExpiry
  refine yields_next ?_
  split
  · exact ite (count h.setWake) h
  · exact h

theorem setClock {c v mhz : Nat} : s.KeepsCore (t.setClock c v mhz) := ite h (setObj h.setObj)

theorem startGate {c : Nat} : s.KeepsCore (t.startGate c) := each (setObj (setClock h.setPlane)) (fun _ _ k => ite k.setTileState k)

theorem gateRequest {c : Nat} : s.KeepsCore (t.gateRequest c) := ite (ite h.startGate h) (ite h.latchPlane (ite h.latchPlane h))

theorem execClusterGateRequest {c : Nat} : s.Yields (Machine.execClusterGateRequest c t) := yields_next h.gateRequest

theorem loseArray {n : Nat} : s.KeepsCore (t.loseArray n) := h.modTile.skip

theorem execGatingComplete {c : Nat} : s.Yields (Machine.execGatingComplete c t) := by
  unfold Machine.execGatingComplete
  dsimp only
  refine yields_next ?_
  split
  · split
    · exact wakeRequest (latchPlane (each h.setPlane (fun _ _ k => k.loseArray)))
    · exact each h.setPlane fun _ _ k => k.loseArray
  · exact h

theorem nextWake {f : Nat} : s.KeepsCore (t.nextWake f) := by
  unfold State.nextWake
  split
  · exact h.modWakes
  · exact h.modWakes

theorem clusterOn {c : Nat} : s.KeepsCore (t.clusterOn c) := each (setClock h.setPlane) (fun _ _ k => ite k.setTileState k)

theorem execClusterClockLock {c : Nat} : s.Yields (Machine.execClusterClockLock c t) := by
  unfold Machine.execClusterClockLock
  dsimp only
  refine yields_next ?_
  split
  · split
    · exact h
    · exact ite (gateRequest (latchPlane (nextWake (count (setObj h.clusterOn))))) (nextWake (count (setObj h.clusterOn)))
  · exact h

end

end State.KeepsCore
end Sys2Proof.Machine
end

section
/-! PROOF. What the operations of Prepare keep: the core of the state. -/

namespace Sys2Proof.Machine
namespace State.KeepsCore
section
variable {s t : State} (h : s.KeepsCore t)
include h

theorem resetTileObjects {n : Nat} : s.KeepsCore (t.resetTileObjects n) := h.dropRegs

theorem winRead {q offset i : Nat} : s.KeepsCore (t.winRead q offset i).1 := pair h.ringRead

theorem copyToStore {q offset n k : Nat} : s.KeepsCore (t.copyToStore q offset n k) := foldl h (fun _ _ k => modTile k.winRead)

theorem copyToBank {q offset n bank base k : Nat} : s.KeepsCore (t.copyToBank q offset n bank base k) := foldl h (fun _ _ k => writeSpad k.winRead)

theorem runQueues {n : Nat} : s.KeepsCore (t.runQueues n) := h.each (fun _ _ k => ite k (ite k.setQState (setObj k.setQState)))

theorem restartQueues {n : Nat} : s.KeepsCore (t.restartQueues n) := ite h h.runQueues

theorem enterQueues {n : Nat} : s.KeepsCore (t.enterQueues n) := by
  unfold State.enterQueues
  dsimp only
  split
  · exact runQueues (h.each (fun _ _ k => setObj k.setQState))
  · exact modQueue (setObj (h.each (fun _ _ k => setObj k.setQState)))

theorem prepareTile {q n logical step : Nat} : s.KeepsCore (t.prepareTile q n logical step) := by
  unfold State.prepareTile
  dsimp only
  split
  · exact h
  · split
    · exact modTile (resetTileObjects h.scrubbed)
    · exact enterQueues (setObj (setObj (setObj (setObj (copyToBank (copyToBank (copyToStore (modTile (resetTileObjects h.scrubbed)))))))))

theorem wakeTiles {ns : List Nat} : s.KeepsCore (t.wakeTiles ns) := h.each fun _ _ k => k.wakeRequest

theorem rewriteGauges {n : Nat} {f : Nat → Gauge → Gauge} : s.KeepsCore (t.rewriteGauges n f) := h.modGau

theorem restoreTile {n : Nat} : s.KeepsCore (t.restoreTile n) := by
  unfold State.restoreTile
  exact modGau h.rewriteGauges

theorem modDisp {q : Nat} {f : Disp → Disp} : s.KeepsCore (t.modDisp q f) := h.beside

theorem clearDispatcher {q : Nat} : s.KeepsCore (t.clearDispatcher q) := h.modDisp

end

end State.KeepsCore
end Sys2Proof.Machine
end

section
/-! PROOF. What the operations of Steps keep: the core of the state. -/

namespace Sys2Proof.Machine
namespace State.KeepsCore
section
variable {s t : State} (h : s.KeepsCore t)
include h

theorem entryRows {q at' : Nat} : s.KeepsCore (t.entryRows q at').1 := foldl_fst h fun _ _ k => k.ringRead

theorem readEntry {q key : Nat} : s.KeepsCore (t.readEntry q key).1 := by
  unfold State.readEntry
  dsimp only
  split
  · exact h.pair
  · exact ite_fst (pair h.entryRows) (pair h.entryRows)

theorem putField {q offset lo w v : Nat} : s.KeepsCore (t.putField q offset lo w v) := by
  unfold State.putField
  split
  · next e =>
      exact ringWrite (of_eq e h.ringRead)
  · next e =>
      exact of_eq e h.ringRead

theorem dispose {q key d : Nat} : s.KeepsCore (t.dispose q key d) := by
  unfold State.dispose
  split
  · exact h.putField
  · exact h

theorem refuseEntry {q key : Nat} : s.KeepsCore (t.refuseEntry q key) := ite h (reportFor (outside (count h.modJob)))

theorem sendArgs {q : Nat} : s.KeepsCore (t.sendArgs q) := by
  unfold State.sendArgs
  dsimp only
  split
  · exact h
  · exact h.each (fun _ _ k => emit k.modJob)

theorem loadTwin {q : Nat} {t' : TwinRun} : s.KeepsCore (t.loadTwin q t') := by
  unfold State.loadTwin
  dsimp only
  split
  · exact dropTwinOf (failScrub (prepareTile (wakeRequest h.discardChunk)))
  · exact rewriteGauges (prepareTile (wakeRequest h.discardChunk))

theorem prepareTwin {q step : Nat} : s.KeepsCore (t.prepareTwin q step) := by
  unfold State.prepareTwin
  dsimp only
  split
  · exact h
  · split
    · split
      · exact loadTwin h.modJob
      · exact h
    · exact h

theorem takeTwin {q step : Nat} : s.KeepsCore (t.takeTwin q step) := by
  unfold State.takeTwin
  dsimp only
  split
  · exact h.prepareTwin
  · split
    · split
      · exact modJob (dropTwin (ite (modJob h.prepareTwin) h.prepareTwin))
      · exact discardNext (ite (modJob h.prepareTwin) h.prepareTwin)
    · exact ite (count (ite (modJob h.prepareTwin) h.prepareTwin)) (ite (modJob h.prepareTwin) h.prepareTwin)

theorem armTwin {q : Nat} : s.KeepsCore (t.armTwin q) := by
  unfold State.armTwin
  split
  · exact ite h.modTile (modTile (modTile h.rewriteGauges))
  · exact h

theorem stopSlack {q : Nat} : s.KeepsCore (t.stopSlack q) := by
  unfold State.stopSlack
  split
  · exact ite h h.beside
  · exact h

theorem startStep {q : Nat} {e : Entry} : s.KeepsCore (t.startStep q e) := by
  unfold State.startStep
  dsimp only
  split
  · exact h
  · exact sendArgs (takeTwin (laneHandover (wakeTiles (stopSlack (toJobState (modJob (putField h.dispose)))))))

theorem pollEntry {q : Nat} : s.KeepsCore (t.pollEntry q) := by
  unfold State.pollEntry
  split
  · exact h
  · split
    · exact h
    · split
      · next e =>
          exact count (modJob (of_eq e h.readEntry))
      · next e =>
          exact refuseEntry (of_eq e h.readEntry)
      · next e =>
          exact startStep (of_eq e h.readEntry)

theorem execEntryPoll {q : Nat} : s.Yields (Machine.execEntryPoll q t) := yields_next (ite h.pollEntry h)

theorem writeRegisters {q : Nat} : s.KeepsCore (t.writeRegisters q) := by
  unfold State.writeRegisters
  dsimp only
  split
  · exact h
  · split
    · exact setObj (modJob (armTwin (h.each (fun _ _ k => setObj k.snapshotTile))))
    · exact modJob (armTwin (h.each (fun _ _ k => setObj k.snapshotTile)))

theorem writeSave {q : Nat} : s.KeepsCore (t.writeSave q) := by
  unfold State.writeSave
  dsimp only
  split
  · exact h
  · exact ringWrite (foldl (foldl h (fun _ _ k => k.ringWrite)) (fun _ _ k => foldl k (fun _ _ k1 => k1.ringWrite)))

theorem freePolders {q : Nat} : s.KeepsCore (t.freePolders q) := setObj (h.each (fun _ _ k => setObj (setObj (setObj (setObj k.setObj)))))

theorem settle {q : Nat} : s.KeepsCore (t.settle q) := by
  unfold State.settle
  dsimp only
  refine beside ?_
  split
  · exact h.setObj
  · exact h.setObj
  · exact h.setObj
  · exact h.setObj
  · exact h

theorem preemptSave {q : Nat} : s.KeepsCore (t.preemptSave q) := by
  unfold State.preemptSave
  dsimp only
  split
  · exact h
  · exact toJobState (setJob (settle (freePolders (each (writeSave (each h.discardTwin (fun _ _ k => k.discardChunk)))
        (fun _ _ k => passScrub k.scrubbed)))))

theorem twinUfr {q : Nat} {t' : TwinRun} {suspect : Nat} {d : List (BitVec 64) × List (BitVec 64)} {p' : List
    (BitVec 64)} {case' flags : Nat} : s.KeepsCore (t.twinUfr q t' suspect d p' case' flags) :=
  h.writeUfr

theorem silentEvent {n : Nat} : s.KeepsCore (t.silentEvent n) := ite (condemnTile h.countEvent) h.countEvent

theorem decideTwin {q : Nat} {t' : TwinRun} {d : List (BitVec 64) × List (BitVec 64)} : s.KeepsCore (t.decideTwin q t' d).1 := by
  unfold State.decideTwin
  dsimp only
  split
  · exact pair (twinUfr (silentEvent h.discardRun))
  · split
    · exact pair (twinUfr (beside (silentEvent h.discardRun)))
    · exact pair (twinUfr (condemnTile (abandonStep (silentEvent h.discardRun))))

theorem boundary {q : Nat} : s.KeepsCore (t.boundary q) := by
  unfold State.boundary
  dsimp only
  split
  · exact h
  · split
    · exact haltJob (toJobState (modJob (each (cacheBoundary (event (setObj (count (setObj (setObj h.dispose)))))) (fun _ _ k => k.modGau))))
    · split
      · exact endJob (settle (toJobState (modJob (each (cacheBoundary (event (setObj (count (setObj (setObj h.dispose))))))
            (fun _ _ k => k.modGau)))))
      · split
        · exact preemptSave (toJobState (modJob (each (cacheBoundary (event (setObj (count (setObj (setObj h.dispose)))))) (fun _ _ k => k.modGau))))
        · exact pollEntry (toJobState (modJob (each (cacheBoundary (event (setObj (count (setObj (setObj h.dispose)))))) (fun _ _ k => k.modGau))))

theorem proceed {q : Nat} : s.KeepsCore (t.proceed q) := by
  unfold State.proceed
  dsimp only
  split
  · exact h
  · split
    · exact h
    · split
      · exact h.modJob
      · split
        · split
          · exact ite h.decideTwin (boundary h.decideTwin)
          · exact h.boundary
        · exact h.boundary

theorem raiseStart {q : Nat} : s.KeepsCore (t.raiseStart q) := by
  unfold State.raiseStart
  dsimp only
  split
  · exact h
  · exact proceed (prepareTwin (modJob (h.each (fun _ _ k => k.signalTile))))

theorem onStart {q t' : Nat} : s.KeepsCore (t.onStart q t') :=
  ite (raiseStart (reportFor (count (setObj h.writeRegisters)))) (modJob (setObj h.writeRegisters))

theorem tryStart {q : Nat} : s.KeepsCore (t.tryStart q) := by
  unfold State.tryStart
  dsimp only
  split
  · exact h
  · exact ite (onStart (h.each (fun _ _ k => k.control))) h

theorem sendReady {q : Nat} : s.KeepsCore (t.sendReady q) := by
  unfold State.sendReady
  split
  · exact h
  · exact ite h (ite (tryStart (modJob h.modJob)) (control h.modJob))

theorem execStepStartRelease {q : Nat} : s.Yields (Machine.execStepStartRelease q t) :=
  yields_next (ite (ite h.sendReady (raiseStart h.writeRegisters)) h)

theorem execReady {m : CtrlMsg} : s.Yields (Machine.execReady m t) := by
  unfold Machine.execReady
  refine yields_next (h.onCtrl (fun _ k => ?_))
  split
  · exact tryStart k.modJob
  · exact k

theorem execStart {m : CtrlMsg} : s.Yields (Machine.execStart m t) := by
  unfold Machine.execStart
  refine yields_next (h.onCtrl (fun _ k => ?_))
  split
  · exact ite k.onStart k
  · exact k

theorem execBarrierStartTime {q : Nat} : s.Yields (Machine.execBarrierStartTime q t) := by
  unfold Machine.execBarrierStartTime
  refine yields_next ?_
  split
  · exact ite h.raiseStart h
  · exact h

theorem execWatchNotice {q w : Nat} : s.Yields (Machine.execWatchNotice q w t) := by
  unfold Machine.execWatchNotice
  refine yields_next ?_
  split
  · exact h
  · split
    · exact h
    · exact ite (proceed h.modJob) h

theorem endTwinOf {n : Nat} : s.KeepsCore (t.endTwinOf n) := by
  unfold State.endTwinOf
  split
  · exact proceed h.dropTwinOf
  · exact h

theorem tileStepFault {n cls : Nat} {suspect : Option Nat} : s.KeepsCore (t.tileStepFault n cls suspect) := by
  unfold State.tileStepFault
  split
  · exact ite (endTwinOf (ite h.countEvent h)) h.stepFault
  · exact h

theorem stepFaultAll {cls : Nat} : s.KeepsCore (t.stepFaultAll cls) := h.each fun _ _ k => k.stepFault

theorem tryRestore {q : Nat} : s.KeepsCore (t.tryRestore q) := by
  unfold State.tryRestore
  dsimp only
  split
  · exact h
  · split
    · refine sendArgs (wakeTiles ?_)
      split
      · split
        · exact toJobState (modJob (count (count (h.each (fun _ _ k => restartQueues k.restoreTile)))))
        · exact loadTwin (toJobState (modJob (count (count (h.each (fun _ _ k => restartQueues k.restoreTile))))))
      · exact toJobState (modJob (count (count (h.each (fun _ _ k => restartQueues k.restoreTile)))))
    · exact h

theorem execDrainComplete {q : Nat} : s.Yields (Machine.execDrainComplete q t) := by
  unfold Machine.execDrainComplete
  refine yields_next ?_
  split
  · exact h
  · exact ite (tryRestore (toMembers h.modJob)) (ite (h.each (fun _ _ k => k.restoreTile)) h)

theorem finishLoad {q : Nat} : s.KeepsCore (t.finishLoad q) := by
  unfold State.finishLoad
  split
  · exact h
  · exact ite (toJobState h.modJob) h

theorem giveGauges {q closed target : Nat} : s.KeepsCore (t.giveGauges q closed target) := ite (rewriteGauges h.modGau) h.modGau

theorem sendRemapped {q : Nat} {r : Remap} : s.KeepsCore (t.sendRemapped q r) := h.dtlOut

theorem replaceTile {closed target : Nat} : s.KeepsCore (t.replaceTile closed target) := ite (choose (modTile h.unassign)) h.retireTile

theorem doRemap {q : Nat} {r : Remap} : s.KeepsCore (t.doRemap q r) := by
  unfold State.doRemap
  dsimp only
  split
  · exact startRemaps (dropTarget (failScrub h.prepareTile))
  · exact reportFor (count (sendRemapped (replaceTile (setTileState (modJob (giveGauges h.prepareTile))))))

theorem execRemapComplete {q : Nat} {readable : Bool} : s.Yields (Machine.execRemapComplete q readable t) := by
  unfold Machine.execRemapComplete
  refine yields_next ?_
  split
  · exact h
  · split
    · exact h
    · exact ite h.haltJob (ite h.wakeRequest (tryRestore (finishLoad h.doRemap)))

theorem dropTick {q t' : Nat} : s.KeepsCore (t.dropTick q t') := reportFor (event (outside h.count))

theorem missTick {q t' : Nat} : s.KeepsCore (t.missTick q t') := dropTick (ite (dispose h.readEntry) h.readEntry)

theorem jumpTicks {q x : Nat} : s.KeepsCore (t.jumpTicks q x) := by
  unfold State.jumpTicks
  dsimp only
  split
  · exact h
  · exact ite h (modJob (h.each (fun _ _ k => ite k.dropTick k.count)))

theorem execCadenceTick {q t' : Nat} : s.Yields (Machine.execCadenceTick q t' t) := by
  unfold Machine.execCadenceTick
  dsimp only
  refine yields_next ?_
  split
  · exact h
  · split
    · exact h
    · split
      · exact missTick h.modJob
      · split
        · split
          · exact missTick h.modJob
          · split
            · next e =>
                exact count (of_eq e (readEntry h.modJob))
            · next e =>
                exact count (refuseEntry (of_eq e (readEntry h.modJob)))
            · next e =>
                exact startStep (setObj (of_eq e (readEntry h.modJob)))
        · exact count h.modJob

theorem execWeirHoldExpiry {q : Nat} : s.Yields (Machine.execWeirHoldExpiry q t) := yields_next (ite (pollEntry h.modJob) h)

end

end State.KeepsCore
end Sys2Proof.Machine
end

section
/-! PROOF. What the operations of Send keep: the core of the state. -/

namespace Sys2Proof.Machine
namespace State.KeepsCore
section
variable {s t : State} (h : s.KeepsCore t)
include h

theorem digestAdd {n q : Nat} {bs : List Byte} : s.KeepsCore (t.digestAdd n q bs) := ite h.modTile h

theorem signalRefused {n q st addr : Nat} {unsent : Bool} : s.KeepsCore (t.signalRefused n q st addr unsent) :=
  tileReport (ite (count h.setObj) h.setObj)

theorem sendSignal {n q : Nat} {d : Deferred} : s.KeepsCore (t.sendSignal n q d) := by
  unfold State.sendSignal
  dsimp only
  split
  · exact h.digestAdd
  · split
    · exact signalRefused h.digestAdd
    · exact emit (modMov h.digestAdd)

theorem applySignal {n q c : Nat} {d : Deferred} : s.KeepsCore (t.applySignal n q c d) := ite h.sendSignal h.signalTile

end

end State.KeepsCore
end Sys2Proof.Machine
end

section
/-! PROOF. What the operations of Queues keep: the core of the state. -/

namespace Sys2Proof.Machine
namespace State.KeepsCore
section
variable {s t : State} (h : s.KeepsCore t)
include h

theorem storeFault {n : Nat} : s.KeepsCore (t.storeFault n) := tileStepFault (tileReport h.count)

theorem atHead {n q c op : Nat} {f : Nat → State} (k_f : ∀ u0, s.KeepsCore (f u0)) : s.KeepsCore (t.atHead n q c op f) := by
  unfold State.atHead
  split
  · split
    · exact h.storeFault
    · exact ite (k_f _ ) h
  · exact h

theorem advance {n q free : Nat} : s.KeepsCore (t.advance n q free) := ite (setQState h.issued) h.issued

theorem issueFault {n q st : Nat} : s.KeepsCore (t.issueFault n q st) := ite h.endTwinOf h.haltFault

theorem beginPass {n q : Nat} : s.KeepsCore (t.beginPass n q) := ite h.modQueue h

theorem execWait {n q c : Nat} : s.Yields (Machine.execWait n q c t) := yields_next (h.atHead (fun _ => ite (advance h.beginPass) h.stall))

theorem execSignal {n q c : Nat} : s.Yields (Machine.execSignal n q c t) :=
  yields_next (h.atHead (fun _ => ite h.stall (ite (applySignal h.advance) (modQueue h.advance))))

theorem execSignalApply {n q c : Nat} : s.Yields (Machine.execSignalApply n q c t) := by
  unfold Machine.execSignalApply
  refine yields_next ?_
  split
  · exact h
  · exact ite h (ite (ite (count h.modQueue) (applySignal h.modQueue)) h)

theorem execQueueEnd {n q c : Nat} : s.Yields (Machine.execQueueEnd n q c t) := by
  unfold Machine.execQueueEnd
  dsimp only
  refine yields_next (h.atHead (fun _ => ?_))
  split
  · exact elim (runQueues (setQState (modQueue h.issued))) (fun _ => finishLoad (runQueues (setQState (modQueue h.issued))))
  · exact modQueue h.issued

theorem execNop {n q c : Nat} : s.Yields (Machine.execNop n q c t) := yields_next (h.atHead (fun _ => h.advance))

theorem execSetHandle {n c : Nat} : s.Yields (Machine.execSetHandle n c t) := by
  unfold Machine.execSetHandle
  dsimp only
  refine yields_next (h.atHead (fun _ => ?_))
  split
  · exact h.issueFault
  · exact ite h.stall (setObj h.advance)

theorem execSetSentinel {n c : Nat} : s.Yields (Machine.execSetSentinel n c t) :=
  yields_next (h.atHead (fun _ => ite (setObj h.advance) h.issueFault))

theorem execQueueWatchdogFire {n : Nat} {w : QueueCycle} : s.Yields (Machine.execQueueWatchdogFire n w t) := by
  unfold Machine.execQueueWatchdogFire
  dsimp only
  refine yields_next ?_
  split
  · split
    · exact h.endTwinOf
    · refine report ?_
      split
      · exact elim (count (setObj (setQState (setObj h.setObj)))) (fun _ => modJob (count (setObj (setQState (setObj h.setObj)))))
      · exact count (setObj (setQState (setObj h.setObj)))
  · exact h

end

end State.KeepsCore
end Sys2Proof.Machine
end

section
/-! PROOF. What the operations of Array keep: the core of the state. -/

namespace Sys2Proof.Machine
namespace State.KeepsCore
section
variable {s t : State} (h : s.KeepsCore t)
include h

theorem sentinelCount {n i word : Nat} {codes : List Nat} : s.KeepsCore (t.sentinelCount n i word codes).1 := by
  unfold State.sentinelCount
  dsimp only
  split
  · exact h.pair
  · exact pair (setObj (setObj h.count))

theorem sentinelAct {n word c : Nat} : s.KeepsCore (t.sentinelAct n word c) := ite (tileReport (ite h.signalTile h)) (ite h.signalTile h)

theorem completed {n c : Nat} {act : Option Nat} {met : Bool} : s.KeepsCore (t.completed n c act met) :=
  collisionReport (elim h (fun _ => h.sentinelAct))

theorem execLoadStationary {n c : Nat} : s.Yields (Machine.execLoadStationary n c t) := by
  unfold Machine.execLoadStationary
  dsimp only
  refine yields_next (h.atHead (fun _ => ?_))
  split
  · exact h.stall
  · split
    · exact h.issueFault
    · split
      · exact h.issueFault
      · split
        · exact h.issueFault
        · exact modArr h.advance

theorem completeLoad {n c : Nat} : s.KeepsCore (t.completeLoad n c) := by
  unfold State.completeLoad
  split
  · exact ite (completed h.modArr) h
  · exact h

theorem execLoadStationaryRowsStart {n c : Nat} {hits : List Contest} : s.Yields (Machine.execLoadStationaryRowsStart n c hits t) := by
  unfold Machine.execLoadStationaryRowsStart
  dsimp only
  refine yields_next ?_
  split
  · exact h
  · split
    · split
      · split
        · next e =>
            exact tileStepFault (of_eq e h.readRows)
        · next e =>
            split
            · next e1 =>
                exact tileStepFault (of_eq e1 (readRows (of_eq e h.readRows)))
            · next e1 =>
                exact modArr (sentinelCount (count (collide (of_eq e1 (readRows (of_eq e h.readRows))))))
      · exact h
    · exact h.completeLoad

theorem execSwap {n c : Nat} : s.Yields (Machine.execSwap n c t) := by
  unfold Machine.execSwap
  refine yields_next (h.atHead fun _ => ?_)
  dsimp only
  split
  · exact h.issueFault
  · exact modArr (advance h.completeLoad)
  · exact h.stall

theorem execPass {n c : Nat} {hits : List Contest} : s.Yields (Machine.execPass n c hits t) := by
  unfold Machine.execPass
  dsimp only
  refine yields_next (h.atHead (fun _ => ?_))
  split
  · exact h.issueFault
  · split
    · exact h.issueFault
    · split
      · exact h.issueFault
      · split
        · exact h.issueFault
        · split
          · exact ite h h.beside
          · split
            · next e1 =>
                exact tileStepFault (of_eq e1 h.readRows)
            · next e1 =>
                split
                · next e2 =>
                    exact tileStepFault (of_eq e2 (readRows (of_eq e1 h.readRows)))
                · next e2 =>
                    exact modArr (advance (sentinelCount (count (count (collide (of_eq e2 (readRows (of_eq e1 h.readRows))))))))

theorem landFold {n : Nat} {f : Fold} : s.KeepsCore (t.landFold n f) := by
  unfold State.landFold
  dsimp only
  refine foldl h (fun _ _ k => ?_)
  split
  · exact modArr (count (count k.count))
  · split
    · exact modArr (modArr (count (count k.count)))
    · exact ite (count (count (count k.count))) (ite (modArr (modArr (count (count k.count)))) (count (count k.count)))

theorem execFoldLand {n c : Nat} : s.Yields (Machine.execFoldLand n c t) := by
  unfold Machine.execFoldLand
  refine yields_next ?_
  split
  · exact ite (completed (modArr h.landFold)) h
  · exact h

theorem execArrayRampUp {n c : Nat} : s.Yields (Machine.execArrayRampUp n c t) := yields_next (ite (modArr (count h.beside)) h)

theorem execArrayRampDown {n c : Nat} : s.Yields (Machine.execArrayRampDown n c t) := yields_next (ite (modArr h.count) h)

end

end State.KeepsCore
end Sys2Proof.Machine
end

section
/-! PROOF. What the operations of Vector keep: the core of the state. -/

namespace Sys2Proof.Machine
namespace State.KeepsCore
section
variable {s t : State} (h : s.KeepsCore t)
include h

theorem flushVec {n : Nat} : s.KeepsCore (t.flushVec n) := by
  unfold State.flushVec
  exact modTile (h.each fun _ _ k => k.writeSpad)

end

end State.KeepsCore
end Sys2Proof.Machine
end

section
/-! PROOF. The stages of a vector command keep the core of the state. -/

namespace Sys2Proof.Machine

/-- How a stage of a VEC ends where it keeps the core of `s`. -/
def Vec.EndKeeps (s : State) {α : Type} : Except VecStop (α × VecCtx) → Prop
  | .ok r => s.KeepsCore r.2.s
  | .error (.uncorrectable u) => s.KeepsCore u
  | .error (.status _) => True

/-- A stage of a VEC that keeps the core of `s`. -/
def Vec.Keeps (s : State) {α : Type} (m : Vec α) : Prop := ∀ x : VecCtx, s.KeepsCore x.s → Vec.EndKeeps s (m.run x)

namespace Vec.Keeps
variable {s : State} {α β : Type}

theorem ret {a : α} : Keeps s (Pure.pure a : Vec α) := fun _ k => k

theorem bind {m : Vec α} {f : α → Vec β} (hm : Keeps s m) (hf : ∀ a, Keeps s (f a)) : Keeps s (m >>= f) := by
  intro x k
  have ended := hm x k
  rw [StateT.run_bind]
  cases e : m.run x with
  | error w =>
    rw [e] at ended
    cases w with
    | status => trivial
    | uncorrectable => exact ended
  | ok r =>
    rw [e] at ended
    exact hf r.1 r.2 ended

theorem stop {st : Nat} : Keeps s (Vec.stop st : Vec α) := fun _ _ => trivial

theorem ite {c : Prop} [Decidable c] {m k : Vec α} (hm : Keeps s m) (hk : Keeps s k) : Keeps s (if c then m else k) := by
  split
  · exact hm
  · exact hk

/-- A stage that goes on alike after either of two stages. -/
theorem iteBind {c : Prop} [Decidable c] {m k : Vec α} {f : α → Vec β} (hm : Keeps s m) (hk : Keeps s k) (hf : ∀ a, Keeps s (f a)) :
    Keeps s (if c then m >>= f else k >>= f) := ite (bind hm hf) (bind hk hf)

theorem need {b : Bool} : Keeps s (Vec.need b) := ite ret stop

/-- What a stage goes on with is what it has done so far. -/
theorem read {f : VecCtx → Vec β} (hf : ∀ x, s.KeepsCore x.s → Keeps s (f x)) : Keeps s (MonadState.get >>= f) := fun x k => hf x k x k

theorem change {f : VecCtx → VecCtx} (hf : ∀ x, s.KeepsCore x.s → s.KeepsCore (f x).s) : Keeps s (modify f : Vec PUnit) := fun x k => hf x k

theorem store {x : VecCtx} (k : s.KeepsCore x.s) : Keeps s (MonadStateOf.set x : Vec PUnit) := fun _ _ => k

theorem check {n h right first rows : Nat} : Keeps s (Vec.check n h right first rows) := by
  refine read fun x _ => ?_
  dsimp only
  split
  · exact stop
  · exact ret

theorem rows {n h first count : Nat} : Keeps s (Vec.rows n h first count) := by
  refine bind check fun e => read fun x k => ?_
  split
  · next e' => exact bind (store (.of_eq e' k.readRows)) fun _ => ret
  · next e' => exact fun _ _ => .of_eq e' k.readRows

theorem slots {first count : Nat} : Keeps s (Vec.slots first count) :=
  bind need fun _ => read fun _ k => bind (store k) fun _ => ret

theorem write {n h first : Nat} {ds : List Row} : Keeps s (Vec.write n h first ds) :=
  bind check fun _ => change fun _ k => k

theorem source {n : Nat} {v : VecWord} {start count : Nat} : Keeps s (Vec.source n v start count) := by
  refine bind need fun _ => ite (bind need fun _ => bind slots fun _ => ret) ?_
  exact read fun _ _ => bind rows fun _ => bind (change fun _ k => k) fun _ => ret

theorem putWide {n : Nat} {v : VecWord} {f start : Nat} {vals : List Nat} : Keeps s (Vec.putWide n v f start vals) := write

theorem rowParam {n : Nat} {v : VecWord} : Keeps s (Vec.rowParam n v) :=
  bind rows fun _ => bind need fun _ => ret

theorem vectors {n : Nat} {v : VecWord} {p : RowParam} {f : Nat → List F32 → Vec Unit} (hf : ∀ {i xs}, Keeps s (f i xs)) {i k : Nat} :
    Keeps s (Vec.vectors n v p f i k) := by
  induction k generalizing i with
  | zero => exact ret
  | succ k ih => exact bind source fun _ => bind hf fun _ => ih

theorem span {n h first per lo hi : Nat} : Keeps s (Vec.span n h first per lo hi) := bind rows fun _ => ret

theorem reduce {n : Nat} {v : VecWord} {p : RowParam} {i k : Nat} {xs : List F32} {acc : List Nat} :
    Keeps s (execVecReduce.go n v p i k xs acc) := by
  induction k generalizing i xs acc with
  | zero => exact ret
  | succ k ih => exact .bind (.change fun _ k => k.count) fun _ => .iteBind ret .source fun _ => ih

end Vec.Keeps

end Sys2Proof.Machine
end

section
/-! PROOF. What the vector commands keep: the core of the state. -/

namespace Sys2Proof.Machine
namespace State.KeepsCore
section
variable {s t : State} (h : s.KeepsCore t)
include h

theorem execVec {n c : Nat} {hits : List Contest} {func : Nat} {body : Nat → VecWord → Vec (Nat × Nat × Nat)}
    (hb : ∀ n v, Vec.Keeps s (body n v)) : s.Yields (Machine.execVec n c hits func body t) := by
  unfold Machine.execVec
  refine yields_next (h.atHead fun w => ite h ?_)
  extract_lets v s0 run
  have flushed : s.KeepsCore s0 := h.flushVec
  have ran : Vec.Keeps s run := .bind .need fun _ => hb n v
  have first := ran { s := s0, acc := fun _ => [] } flushed
  split
  · exact flushed.issueFault
  · next e => rw [e] at first; exact tileStepFault first
  · extract_lets len start co ks last pick
    have collided : s.KeepsCore co.1 := flushed.collide
    have picked : s.KeepsCore pick.2 := by
      dsimp only [pick]
      split
      · exact collided
      · exact collided.draw
    have second := ran { s := pick.2, acc := pick.2.accSeen n start last (Config.unordered pick.1) } picked
    split
    · exact flushed
    · next e => rw [e] at second; exact modTile (advance (count (count second)))

theorem execVecConvert {n c : Nat} {hits : List Contest} : s.Yields (Machine.execVecConvert n c hits t) :=
  h.execVec fun _ _ => .bind .need fun _ => .bind .source fun _ => .bind .putWide fun _ => .ret

theorem vecBinary {n c : Nat} {hits : List Contest} {func : Nat} {isMul : Bool} {f : Bool → F32 → F32 → Option F32 → Nat} :
    s.Yields (Machine.execVec n c hits func (vecBinaryBody isMul f) t) :=
  h.execVec fun _ _ => .bind .need fun _ => .bind .source fun _ => .bind .rows fun _ =>
    .iteBind (.bind .rows fun _ => .ret) .ret fun _ => .bind .putWide fun _ => .ret

theorem execVecAdd {n c : Nat} {hits : List Contest} : s.Yields (Machine.execVecAdd n c hits t) := h.vecBinary

theorem execVecMul {n c : Nat} {hits : List Contest} : s.Yields (Machine.execVecMul n c hits t) := h.vecBinary

theorem execVecMax {n c : Nat} {hits : List Contest} : s.Yields (Machine.execVecMax n c hits t) := h.vecBinary

theorem execVecMin {n c : Nat} {hits : List Contest} : s.Yields (Machine.execVecMin n c hits t) := h.vecBinary

theorem execVecAct {n c : Nat} {hits : List Contest} : s.Yields (Machine.execVecAct n c hits t) :=
  h.execVec fun _ _ => .bind .need fun _ => .bind .source fun _ => .bind .putWide fun _ => .ret

theorem execVecDequant {n c : Nat} {hits : List Contest} : s.Yields (Machine.execVecDequant n c hits t) :=
  h.execVec fun _ _ => .bind .need fun _ => .bind .rows fun _ => .bind .rows fun _ => .bind (.change fun _ k => k.count) fun _ =>
    .bind .putWide fun _ => .ret

theorem execVecRequant {n c : Nat} {hits : List Contest} : s.Yields (Machine.execVecRequant n c hits t) :=
  h.execVec fun _ _ => .bind .need fun _ => .bind .source fun _ => .read fun _ _ => .bind .write fun _ => .bind .write fun _ =>
    .bind (.change fun _ k => sentinelCount k.count) fun _ => .ret

theorem execVecRandom {n c : Nat} {hits : List Contest} : s.Yields (Machine.execVecRandom n c hits t) :=
  h.execVec fun _ _ => .bind .need fun _ => .read fun _ _ => .bind .putWide fun _ => .ret

theorem execVecReduce {n c : Nat} {hits : List Contest} : s.Yields (Machine.execVecReduce n c hits t) :=
  h.execVec fun _ _ => .bind .need fun _ => .bind .rowParam fun _ => .bind .need fun _ => .bind .source fun _ =>
    .bind .reduce fun _ => .bind .putWide fun _ => .ret

theorem execVecSoftmax {n c : Nat} {hits : List Contest} : s.Yields (Machine.execVecSoftmax n c hits t) :=
  h.execVec fun _ _ => .bind .need fun _ => .bind .rowParam fun _ => .bind (.vectors .putWide) fun _ => .ret

theorem execVecNorm {n c : Nat} {hits : List Contest} : s.Yields (Machine.execVecNorm n c hits t) :=
  h.execVec fun _ _ => .bind .need fun _ => .bind .rowParam fun _ => .bind .need fun _ => .iteBind (.bind .rows fun _ => .ret) .ret fun _ =>
    .iteBind (.bind .rows fun _ => .ret) .ret fun _ => .bind (.vectors .putWide) fun _ => .ret

theorem execVecTopk {n c : Nat} {hits : List Contest} : s.Yields (Machine.execVecTopk n c hits t) :=
  h.execVec fun _ _ => .bind .need fun _ => .bind .rowParam fun _ =>
    .bind (.vectors (.bind (.change fun _ k => k.count) fun _ => .write)) fun _ => .ret

theorem execVecSpillFix {n c : Nat} {hits : List Contest} : s.Yields (Machine.execVecSpillFix n c hits t) :=
  h.execVec fun _ _ => .bind .need fun _ => .bind .rows fun _ => .bind .need fun _ => .bind .source fun _ => .bind .rows fun _ => .bind .rows fun _ =>
    .iteBind .rows .ret fun _ => .bind .span fun _ => .bind .span fun _ => .iteBind .span .ret fun _ =>
    .bind (.change fun _ k => foldl k.count fun _ _ k => foldl k fun _ _ k => ite k k.count) fun _ => .bind .putWide fun _ => .ret

theorem execVecWriteComplete {n c : Nat} : s.Yields (Machine.execVecWriteComplete n c t) := by
  unfold Machine.execVecWriteComplete
  refine yields_next ?_
  split
  · exact h
  · exact ite (completed (count (modTile (h.each (fun _ _ k => k.writeSpad))))) h

end

end State.KeepsCore
end Sys2Proof.Machine
end

section
/-! PROOF. What the operations of Mover keep: the core of the state. -/

namespace Sys2Proof.Machine
namespace State.KeepsCore
section
variable {s t : State} (h : s.KeepsCore t)
include h

theorem syncInflight {n : Nat} : s.KeepsCore (t.syncInflight n) := h.setObj

theorem modDesc {n id : Nat} {f : MoveDesc → MoveDesc} : s.KeepsCore (t.modDesc n id f) := h.modMov

theorem issueRequest {n : Nat} {d : MoveDesc} {u : State} (e : t.issueRequest n d = some u) : s.KeepsCore u := by
  unfold State.issueRequest at e
  dsimp only at e
  split at e
  · cases e
  · split at e
    · cases e
    · split at e
      · cases e
        exact h.modDesc
      · split at e
        · next e₁ =>
          cases e
          exact tileStepFault (modDesc (of_eq e₁ (ite_fst h.readRows h)))
        · next e₁ =>
          have read := of_eq e₁ (ite_fst h.readRows h)
          split at e
          · cases e
            exact ite (digestAdd read.modDesc) read.modDesc
          · cases e
            exact emit (modMov (ite (digestAdd read.modDesc) read.modDesc))

theorem pump {fuel n : Nat} : s.KeepsCore (State.pump fuel t n) := by
  induction fuel generalizing t with
  | zero => exact h
  | succ fuel ih =>
    unfold State.pump
    split
    · next e =>
      obtain ⟨d, _, asked⟩ := List.exists_of_findSome?_eq_some e
      exact ih (h.issueRequest asked)
    · exact h

theorem countStarved {n : Nat} : s.KeepsCore (t.countStarved n) := by
  unfold State.countStarved
  dsimp only
  split
  · exact h
  · exact modMov h.count

theorem pumpAll {n : Nat} : s.KeepsCore (t.pumpAll n) := syncInflight (modMov (pump h.countStarved))

theorem descFailed {n id st : Nat} {suspect : Suspect} {closed : Option Suspect} : s.KeepsCore (t.descFailed n id st suspect closed) :=
  reportFor (modQueue h.setObj)

theorem execMove {op : Nat} {start : State → Row → Bool → State} (k_start : ∀ u0 u1 u2, s.KeepsCore u0 → s.KeepsCore
    (start u0 u1 u2)) {n c : Nat} {hits : List Contest} : s.Yields (Machine.execMove op start n c hits t) := by
  unfold Machine.execMove
  dsimp only
  refine yields_next (h.atHead (fun _ => ?_))
  split
  · exact h.stall
  · split
    · exact h.issueFault
    · split
      · next e1 =>
          exact tileStepFault (of_eq e1 h.readRows)
      · next e1 =>
          split
          · exact h
          · split
            · exact collisionReport (descFailed (modMov (advance (collide (of_eq e1 h.readRows)))))
            · exact k_start _ _ _ (advance (collide (of_eq e1 h.readRows)))

theorem addDesc {n : Nat} {w : Row} {done counted met : Bool} : s.KeepsCore (t.addDesc n w done counted met) := h.modMov

theorem execMoveFill {n c : Nat} {hits : List Contest} : s.Yields (Machine.execMoveFill n c hits t) := by
  unfold Machine.execMoveFill
  refine h.execMove (fun _ _ _ k => ?_)
  split
  · next e1 =>
      exact tileStepFault (of_eq e1 k.readRows)
  · next e1 =>
      exact addDesc (writeRows (of_eq e1 k.readRows))

theorem execMoveCopy {n c : Nat} {hits : List Contest} : s.Yields (Machine.execMoveCopy n c hits t) := by
  unfold Machine.execMoveCopy
  refine h.execMove (fun _ _ _ k => ?_)
  split
  · next e1 =>
      exact tileStepFault (of_eq e1 k.readRows)
  · next e1 =>
      exact addDesc (writeRows (of_eq e1 k.readRows))

theorem execMovePut {n c : Nat} {hits : List Contest} : s.Yields (Machine.execMovePut n c hits t) := h.execMove (fun _ _ _ k => pumpAll k.addDesc)

theorem execMoveGet {n c : Nat} {hits : List Contest} : s.Yields (Machine.execMoveGet n c hits t) := h.execMove (fun _ _ _ k => pumpAll k.addDesc)

theorem execMoveLoad {n c : Nat} {hits : List Contest} : s.Yields (Machine.execMoveLoad n c hits t) := h.execMove (fun _ _ _ k => pumpAll k.addDesc)

theorem execMoveStore {n c : Nat} {hits : List Contest} : s.Yields (Machine.execMoveStore n c hits t) := h.execMove (fun _ _ _ k => pumpAll k.addDesc)

theorem execDescriptorComplete {n id c : Nat} : s.Yields (Machine.execDescriptorComplete n id c t) := by
  unfold Machine.execDescriptorComplete
  dsimp only
  refine yields_next ?_
  split
  · exact h
  · split
    · exact h
    · split
      · exact collisionReport h.modMov
      · exact ite (descFailed (collisionReport h.modMov)) (ite (signalTile (collisionReport h.modMov)) (collisionReport h.modMov))

end

end State.KeepsCore
end Sys2Proof.Machine
end

section
/-! PROOF. What the operations of Fabric keep: the core of the state. -/

namespace Sys2Proof.Machine
namespace State.KeepsCore
section
variable {s t : State} (h : s.KeepsCore t)
include h

theorem sendReply {pos : Nat} {p : Packet} {status : Nat} : s.KeepsCore (t.sendReply pos p status) := h.emit

theorem losePacket {pos : Nat} : s.KeepsCore (t.losePacket pos) := stepFaultAll h.reportFor

theorem onPacket {n : Nat} {p : Packet} {f : State → State} (k_f : ∀ u0, s.KeepsCore u0 → s.KeepsCore (f u0)) : s.KeepsCore (t.onPacket n p f) :=
  ite h.losePacket (ite (ite h h.sendReply) (k_f _ h))

theorem landPayload {n : Nat} {p : Packet} : s.KeepsCore (t.landPayload n p).1 :=
  ite_fst (pair (count h.count)) (pair (tileStepFault (reportFor (count h.count))))

theorem remoteContest {n : Nat} {p : Packet} {hits : List Contest} : s.KeepsCore (t.remoteContest n p hits) := collisionReport h.collide

theorem takeRead {n : Nat} {p : Packet} : s.KeepsCore (t.takeRead n p) := by
  unfold State.takeRead
  dsimp only
  split
  · exact h.sendReply
  · split
    · exact modTile h.count
    · exact h.modTile

theorem answerMerge {pos : Nat} {m : Merge} {data : Option (List Codeword)} : s.KeepsCore (t.answerMerge pos m data) := by
  unfold State.answerMerge
  split
  · exact h.each fun _ _ k => k.sendReply
  · exact h.emit
  · exact h.emit
  · exact h

theorem closeMerges {n : Nat} : s.KeepsCore (t.closeMerges n) := ite h (each h.modTile (fun _ _ k => answerMerge k.readRows))

theorem setPend {n k : Nat} {e : PendSig} : s.KeepsCore (t.setPend n k e) := h.modGau

theorem countTransfer {n k : Nat} {p : Packet} : s.KeepsCore (t.countTransfer n k p) := by
  unfold State.countTransfer
  extract_lets e draining sig s1 landed e1 badCount e2 fails
  have counted : s.KeepsCore s1 := ite h.count h
  split
  · exact reportFor (count counted.setPend)
  · exact ite (signalTile counted.setPend) counted.setPend

theorem takeWrite {n : Nat} {p : Packet} {rows : List Row} : s.KeepsCore (t.takeWrite n p rows) := by
  unfold State.takeWrite
  dsimp only
  split
  · split
    · exact countTransfer h.writeRows
    · exact h.writeRows
  · exact ite (signalTile h.writeRows) h.writeRows

theorem admitWrite {n : Nat} {p : Packet} : s.KeepsCore (t.admitWrite n p) := by
  unfold State.admitWrite
  dsimp only
  split
  · next e =>
      exact of_eq e h.landPayload
  · next e =>
      exact sendReply (elim (takeWrite (of_eq e h.landPayload)) (fun _ => takeWrite (takeWrite (of_eq e h.landPayload))))

theorem takeSignal {n : Nat} {p : Packet} : s.KeepsCore (t.takeSignal n p) := by
  unfold State.takeSignal
  split
  · exact h.signalTile
  · split
    · exact h.addGauge
    · exact h.addGauge
    · exact h

theorem takeSignalPacket {n : Nat} {p : Packet} : s.KeepsCore (t.takeSignalPacket n p) :=
  ite h.sendReply (sendReply (elim h.takeSignal (fun _ => takeSignal h.takeSignal)))

theorem takeRequest {n : Nat} {p : Packet} : s.KeepsCore (t.takeRequest n p) := by
  unfold State.takeRequest
  dsimp only
  split
  · exact h.takeRead
  · exact h.takeSignalPacket
  · exact ite h.sendReply h.admitWrite

theorem enter {n : Nat} {ps : List Packet} : s.KeepsCore (State.enter n ps t) := by
  induction ps generalizing t with
  | nil => exact h.modGau
  | cons p rest ih => exact ite (modGau h.count) (ih h.takeRequest)

theorem arriveRequest {n : Nat} {p : Packet} : s.KeepsCore (t.arriveRequest n p) := ite h.enter h.modGau

theorem execReadPacket {n : Nat} {p : Packet} {hits : List Contest} : s.Yields (Machine.execReadPacket n p hits t) :=
  yields_next (h.onPacket (fun _ k => arriveRequest k.remoteContest))

theorem execWritePacket {n : Nat} {p : Packet} {hits : List Contest} : s.Yields (Machine.execWritePacket n p hits t) :=
  yields_next (h.onPacket (fun _ k => arriveRequest k.remoteContest))

theorem execSignalPacket {n : Nat} {p : Packet} : s.Yields (Machine.execSignalPacket n p t) := yields_next (h.onPacket (fun _ k => k.arriveRequest))

theorem execPendingHoldRelease {n : Nat} : s.Yields (Machine.execPendingHoldRelease n t) := by
  unfold Machine.execPendingHoldRelease
  refine yields_next ?_
  split
  · exact h
  · exact ite h (enter h.takeRequest)

theorem release {n tag : Nat} : s.KeepsCore (t.release n tag) := pumpAll h.modMov

theorem landReply {n : Nat} {t' : Track} {p : Packet} : s.KeepsCore (t.landReply n t' p) := by
  unfold State.landReply
  dsimp only
  split
  · next e =>
      exact release (modDesc (of_eq e h.landPayload))
  · next e =>
      refine release ?_
      split
      · exact ite (of_eq e h.landPayload) (writeRows (of_eq e h.landPayload))
      · exact of_eq e h.landPayload

theorem replyContest {n : Nat} {t' : Track} {hits : List Contest} : s.KeepsCore (t.replyContest n t' hits) := ite (modDesc h.collide) h.collide

theorem execDataPacket {n : Nat} {p : Packet} {hits : List Contest} : s.Yields (Machine.execDataPacket n p hits t) := by
  unfold Machine.execDataPacket
  refine yields_next (h.onPacket (fun _ k => ?_))
  split
  · exact landReply k.replyContest
  · exact k

theorem execForkPacket {n : Nat} {p : Packet} {hits : List Contest} : s.Yields (Machine.execForkPacket n p hits t) := by
  unfold Machine.execForkPacket
  refine yields_next (h.onPacket (fun _ k => ?_))
  split
  · exact landReply k.replyContest
  · exact k

theorem signalReply {n : Nat} {p : Packet} : s.KeepsCore (t.signalReply n p).1 := by
  unfold State.signalReply
  split
  · exact pair h.modMov
  · exact h.pair

theorem argAcked {p : Packet} : s.KeepsCore (t.argAcked p) := h.modJob

theorem execAckPacket {n : Nat} {p : Packet} : s.Yields (Machine.execAckPacket n p t) := by
  unfold Machine.execAckPacket
  refine yields_next (h.onPacket (fun _ k => ?_))
  split
  · exact k.argAcked
  · split
    · exact k.release
    · exact k.signalReply

theorem markFenced {n : Nat} : s.KeepsCore (t.markFenced n) := h.each fun _ _ k => k.modGau

theorem argRefused {p : Packet} {st : Nat} : s.KeepsCore (t.argRefused p st) := ite (endJob h.reportFor) h

theorem requestFailed {n st : Nat} {t' : Track} {p : Packet} : s.KeepsCore (t.requestFailed n st t' p) := by
  unfold State.requestFailed
  dsimp only
  split
  · exact tileStepFault (modDesc (descFailed (release (modDesc (ite (markFenced (ite h.count h)) (ite h.count h))))))
  · exact release (modDesc (ite (markFenced (ite h.count h)) (ite h.count h)))

theorem execStatusPacket {n : Nat} {p : Packet} : s.Yields (Machine.execStatusPacket n p t) := by
  unfold Machine.execStatusPacket
  refine yields_next (h.onPacket (fun _ k => ?_))
  split
  · exact k.argRefused
  · split
    · exact k.requestFailed
    · split
      · next e1 =>
          exact signalRefused (ite (markFenced (of_eq e1 k.signalReply)) (of_eq e1 k.signalReply))
      · next e1 =>
          exact of_eq e1 k.signalReply

theorem countFlits {pos : Nat} {p : Packet} : s.KeepsCore (t.countFlits pos p) := h.count

theorem stopPacket {pos : Nat} {p : Packet} {st : Nat} : s.KeepsCore (t.stopPacket pos p st) := ite h.count (sendReply h.count)

theorem unbuffer {pos : Nat} {leg : Leg} {p : Packet} : s.KeepsCore (t.unbuffer pos leg p) := by
  unfold State.unbuffer
  split
  · exact h.modTile
  · exact h

theorem passOn {pos m : Nat} {d : Dir} {leg : Leg} {p : Packet} : s.KeepsCore (t.passOn pos m d leg p) := emit h.modTile

theorem routeHead {pos : Nat} {leg : Leg} {p : Packet} : s.KeepsCore (t.routeHead pos leg p) := by
  unfold State.routeHead
  split
  · exact losePacket h.unbuffer
  · split
    · exact losePacket h.unbuffer
    · exact emit (countFlits h.unbuffer)
    · exact ite (passOn (countFlits h.unbuffer)) h
    · exact stopPacket (countFlits h.unbuffer)
    · exact reportFor (stopPacket (countFlits h.unbuffer))
    · exact h
    · exact h

theorem execFlitParityError {pos input : Nat} : s.Yields (Machine.execFlitParityError pos input t) :=
  yields_next (ite (losePacket (condemnTile (reportFor h.modTile))) (modTile h.count))

theorem forkBranch {pos : Nat} {p : Packet} {d : Option Dir} : s.KeepsCore (t.forkBranch pos p d) := by
  unfold State.forkBranch
  dsimp only
  split
  · exact h
  · split
    · exact h.emit
    · split
      · exact h
      · exact ite h.passOn (h.each (fun _ _ k => ite k.routeHead k.count))

theorem splitFork {pos waits : Nat} {p : Packet} : s.KeepsCore (t.splitFork pos waits p) :=
  ite (losePacket h.unbuffer) (ite (each (count (countFlits h.unbuffer)) (fun _ _ k => k.forkBranch)) h)

theorem execForkSplit {pos waits : Nat} {p : Packet} : s.Yields (Machine.execForkSplit pos waits p t) := yields_next h.splitFork

theorem execHeadFlitRoute {pos : Nat} {leg : Leg} {p : Packet} : s.Yields (Machine.execHeadFlitRoute pos leg p t) :=
  yields_next (ite h.splitFork h.routeHead)

theorem reportUnreachable {before : State} : s.KeepsCore (t.reportUnreachable before) := h.each fun _ _ k => k.reportFor

theorem execPositionNonForwarding {n : Nat} : s.Yields (Machine.execPositionNonForwarding n t) := by
  unfold Machine.execPositionNonForwarding
  dsimp only
  refine yields_next ?_
  split
  · exact h
  · split
    · exact reportUnreachable (recheckRoutes (each (setDetours h.modTile) (fun _ _ k => k.stepFault)))
    · exact recheckRoutes (each (setDetours h.modTile) (fun _ _ k => k.stepFault))

theorem execNonForwardingDrainEnd {n : Nat} : s.Yields (Machine.execNonForwardingDrainEnd n t) :=
  yields_next (ite h (ite (losePacket h.modTile) h.modTile))

theorem ruleGaugeSet {n v : Nat} : s.KeepsCore (Machine.ruleGaugeSet n v t).1 := by
  unfold Machine.ruleGaugeSet
  split
  · exact h.pair
  · split
    · exact h.pair
    · exact h.pair
    · exact h.pair
    · exact ite_fst h.pair (pair (elim (tileReport h.setGauge) (fun _ => outside (tileReport h.setGauge))))

theorem execGaugeSet {sess n : Nat} {v : BitVec 64} : s.Yields (Machine.execGaugeSet sess n v t) := h.commandOut fun _ k => k.ruleGaugeSet

end

end State.KeepsCore
end Sys2Proof.Machine
end

section
/-! PROOF. What the operations of Jobs keep: the core of the state. -/

namespace Sys2Proof.Machine
namespace State.KeepsCore
section
variable {s t : State} (h : s.KeepsCore t)
include h

theorem putCfg {q : Nat} {c : PartCfg} : s.KeepsCore (t.putCfg q c) := setObj h.beside

theorem rulePartitionApply {q v : Nat} : s.KeepsCore (Machine.rulePartitionApply q v t).1 := by
  unfold Machine.rulePartitionApply
  split
  · exact h.pair
  · exact ite_fst h.pair (ite_fst (pair (setObj h.beside)) (ite_fst h.pair (ite_fst (pair h.putCfg) (pair (setObj h.beside)))))

theorem execPartitionApply {sess q : Nat} : s.Yields (Machine.execPartitionApply sess q t) := h.commandOut fun _ k => k.rulePartitionApply

theorem zeroRange {ddr : Bool} {lo hi : Nat} : s.KeepsCore (t.zeroRange ddr lo hi) := ite h.dropDdr h.dropHbm

theorem execGranuleFillComplete {q : Nat} : s.Yields (Machine.execGranuleFillComplete q t) := by
  unfold Machine.execGranuleFillComplete
  dsimp only
  refine yields_next ?_
  split
  · exact h
  · exact setObj (putCfg (each (h.each (fun _ _ k => k.zeroRange)) (fun _ _ k => k.zeroRange)))

theorem readWin {q offset k : Nat} : s.KeepsCore (t.readWin q offset k).1 :=
  foldl_fst (f := fun (acc : State × Option (List Row)) i =>
    let y := acc.1.ringRead false (acc.1.winRow q offset + i) (some q)
    (y.1, match acc.2, y.2 with
      | some l, some d => some (l ++ [d])
      | _, _ => none)) h fun _ _ k => k.ringRead

theorem readTables {q raw : Nat} : s.KeepsCore (t.readTables q raw).1 := pair (readWin (readWin (readWin h.readWin)))

theorem imageRows {q at' : Nat} : s.KeepsCore (t.imageRows q at').1 := by
  unfold State.imageRows
  dsimp only
  split
  · next e =>
      split
      · next e1 =>
          exact pair (of_eq e1 (readWin (of_eq e h.readWin)))
      · next e1 =>
          exact pair (of_eq e1 (readWin (of_eq e h.readWin)))
  · next e =>
      exact pair (of_eq e h.readWin)

theorem imagesFault {q : Nat} {xs : List Nat} : s.KeepsCore (t.imagesFault q xs).1 := by
  induction xs generalizing t with
  | nil => exact h
  | cons x rest ih =>
    unfold State.imagesFault
    split
    · next e => exact of_eq e h.imageRows
    · next e =>
      have read := of_eq e h.imageRows
      dsimp only
      split
      · exact read
      · split
        · exact read
        · exact ih read

theorem setPolders {q : Nat} {j : Job} : s.KeepsCore (t.setPolders q j) := setObj (h.each (fun _ _ k => setObj (setObj (setObj (setObj k.setObj)))))

theorem runLoad {q : Nat} {t' : JobTable} {map : List Nat} {step : Nat} : s.KeepsCore (t.runLoad q t' map step) :=
  startRemaps (each (each (setObj (setObj (setObj (setPolders (foldl (foldl (wakeTiles (toJobState (clearDispatcher h.setJob)))
      (fun _ _ k => setTileState k.prepareTile)) (fun _ _ k => k.setGauge)))))) (fun _ _ k => k.setObj)) (fun _ _ k => k.closeTile))

theorem measureJob {q raw : Nat} {images : List Nat} : s.KeepsCore (t.measureJob q raw images) := h.beside

theorem refuseLoad {q : Nat} {f : LoadFault} : s.KeepsCore (t.refuseLoad q f).1 := pair h.setObj

theorem loadWith {q : Nat} {resume : Bool} {plan : State → JobTable → State × (LoadFault ⊕ List Nat × Nat)}
    (k_plan : ∀ u0 u1, s.KeepsCore u0 → s.KeepsCore (plan u0 u1).1) {done : State → State} (k_done : ∀ u0, s.KeepsCore u0 → s.KeepsCore
        (done u0)) : s.KeepsCore (t.loadWith q resume plan done).1 := by
  unfold State.loadWith
  split
  · exact h.refuseLoad
  · split
    · next e => exact refuseLoad (of_eq e h.readWin)
    · next e =>
      have header := of_eq e h.readWin
      refine ite_fst header.refuseLoad (ite_fst header.refuseLoad ?_)
      · split
        · next e₁ => exact refuseLoad (of_eq e₁ header.readTables)
        · next e₁ =>
          have tables := of_eq e₁ header.readTables
          split
          · next e₂ => exact refuseLoad (of_eq e₂ (k_plan _ _ tables))
          · next e₂ =>
            have planned := of_eq e₂ (k_plan _ _ tables)
            split
            · exact planned.refuseLoad
            · dsimp only
              split
              · next e₃ => exact refuseLoad (of_eq e₃ planned.imagesFault)
              · next e₃ =>
                have images := of_eq e₃ planned.imagesFault
                exact ite_fst images.refuseLoad (finishLoad (k_done _ (runLoad images.measureJob)))

theorem loadGate {q v : Nat} {l : JobLatch} {r : State × Nat} (e : t.loadGate q v l = some r) : s.KeepsCore r.1 := by
  unfold State.loadGate at e
  dsimp only at e
  split at e
  · cases e
    exact h
  · split at e
    · cases e
      exact h
    · split at e
      · cases e
        exact h.beside
      · split at e
        · cases e
          exact h
        · cases e

theorem ruleJobLoad {q v : Nat} : s.KeepsCore (Machine.ruleJobLoad q v t).1 := by
  unfold Machine.ruleJobLoad
  split
  · next e => exact h.loadGate e
  · exact loadWith h.admitReplacements (fun _ _ k => k) fun _ k => k.each fun _ _ k' => k'.setObj

theorem savePlan {q : Nat} {t' : JobTable} : s.KeepsCore (t.savePlan q t').1 := by
  unfold State.savePlan
  dsimp only
  split
  · next e =>
      exact pair (of_eq e h.readWin)
  · next e =>
      split
      · exact pair (of_eq e h.readWin)
      · split
        · exact pair (of_eq e h.readWin)
        · exact pair (of_eq e h.readWin)

theorem restoreSaved {q : Nat} : s.KeepsCore (t.restoreSaved q) := by
  unfold State.restoreSaved
  dsimp only
  split
  · exact h
  · exact foldl h fun _ _ k => k.rewriteGauges

theorem carryTicks {q : Nat} {old : Option Job} : s.KeepsCore (t.carryTicks q old) := by
  unfold State.carryTicks
  split
  · exact ite h.modJob h
  · exact h

theorem ruleJobResume {q v : Nat} : s.KeepsCore (Machine.ruleJobResume q v t).1 := by
  unfold Machine.ruleJobResume
  split
  · next e => exact h.loadGate e
  · exact loadWith h.admitReplacements (fun _ _ k => k.savePlan) fun _ k => carryTicks k.restoreSaved

theorem execJobLoad {sess q : Nat} : s.Yields (Machine.execJobLoad sess q t) := h.commandOut fun _ k => k.ruleJobLoad

theorem execJobResume {sess q : Nat} : s.Yields (Machine.execJobResume sess q t) := h.commandOut fun _ k => k.ruleJobResume

theorem endNow {q : Nat} : s.KeepsCore (t.endNow q) := endJob h.settle

theorem ruleJobEnd {q v : Nat} : s.KeepsCore (Machine.ruleJobEnd q v t).1 :=
  ite_fst h.pair (ite_fst h.pair (ite_fst (pair h.beside) (ite_fst (pair h.endNow) (pair h.beside))))

theorem ruleJobPreempt {q v : Nat} : s.KeepsCore (Machine.ruleJobPreempt q v t).1 := ite_fst h.pair (ite_fst h.pair (pair h.beside))

theorem execJobEndAtBoundary {sess q : Nat} : s.Yields (Machine.execJobEndAtBoundary sess q t) := h.commandOut fun _ k => k.ruleJobEnd

theorem execJobEndAtOnce {sess q : Nat} : s.Yields (Machine.execJobEndAtOnce sess q t) := h.commandOut fun _ k => k.ruleJobEnd

theorem execJobPreempt {sess q : Nat} : s.Yields (Machine.execJobPreempt sess q t) := h.commandOut fun _ k => k.ruleJobPreempt

theorem scrubTile {n : Nat} {bad : List (Nat × Nat)} : s.KeepsCore (t.scrubTile n bad) := passScrub (readBack h.releaseTile)

theorem execJobScrubComplete {q : Nat} {badRows : List (Nat × Nat × Nat)} : s.Yields (Machine.execJobScrubComplete q badRows t) := by
  unfold Machine.execJobScrubComplete
  refine yields_next ?_
  split
  · exact h
  · split
    · exact h
    · extract_lets -underBinder s1 s2 s3
      have ended : s.KeepsCore s3 := setJob (toJobState (setObj (freePolders (h.each fun _ _ k => k.scrubTile))))
      clear_value s3
      split
      · exact setObj (ruleJobLoad (beside ended))
      · exact setObj (ruleJobResume (beside ended))
      · exact beside ended

theorem execProgramFaultEnd {q : Nat} : s.Yields (Machine.execProgramFaultEnd q t) := yields_next (ite h.endNow h)

theorem ruleOutsideDeclare {q v : Nat} : s.KeepsCore (Machine.ruleOutsideDeclare q v t).1 := ite_fst h.pair (ite_fst h.pair (pair h.outside))

theorem execOutsideDeclare {sess q : Nat} : s.Yields (Machine.execOutsideDeclare sess q t) := h.commandOut fun _ k => k.ruleOutsideDeclare

end

end State.KeepsCore
end Sys2Proof.Machine
end

section
/-! PROOF. What the operations of Ucie keep: the core of the state. -/

namespace Sys2Proof.Machine
namespace State.KeepsCore
section
variable {s t : State} (h : s.KeepsCore t)
include h

theorem modUcie {m : Nat} {f : Ucie → Ucie} : s.KeepsCore (t.modUcie m f) := h.beside

theorem giveCredit {m : Nat} {up : Bool} {cls n : Nat} : s.KeepsCore (t.giveCredit m up cls n) := h.dtlOut

theorem launchReq {m : Nat} {r : DtlReq} : s.KeepsCore (t.launchReq m r) := dtlOut h.modUcie

theorem countStall {m : Nat} : s.KeepsCore (t.countStall m) := by
  unfold State.countStall
  dsimp only
  split
  · exact h
  · exact modUcie h.count

theorem askDtl {m : Nat} {r : DtlReq} : s.KeepsCore (t.askDtl m r) := ite h.launchReq h.modUcie

theorem sendWaiting {fuel m : Nat} : s.KeepsCore (State.sendWaiting fuel t m) := by
  induction fuel generalizing t with
  | zero => exact h
  | succ fuel ih =>
    unfold State.sendWaiting
    split
    · exact h
    · exact ite (ih (launchReq h.modUcie)) h

theorem sendAllWaiting {m : Nat} : s.KeepsCore (t.sendAllWaiting m) := ite h (modUcie (sendWaiting h.countStall))

theorem freeReq {m tag : Nat} : s.KeepsCore (t.freeReq m tag) := sendAllWaiting h.modUcie

theorem dropMergeReq {c id : Nat} : s.KeepsCore (t.dropMergeReq c id) := h.beside

theorem bufferDtl {srv : Server} {m : Nat} {up : Bool} {ack : Nat} {d : DtlMsg} : s.KeepsCore (t.bufferDtl srv m up ack d) :=
  dtlOut (dropHeld (modServer h.closeOverlap))

theorem admitDtl {fuel : Nat} {srv : Server} : s.KeepsCore (State.admitDtl fuel t srv) := by
  induction fuel generalizing t with
  | zero => exact h
  | succ fuel ih =>
    unfold State.admitDtl
    split
    · exact h
    · exact ite h (ih (bufferDtl h.modServer))

theorem takeDtl {srv : Server} {m : Nat} {d : DtlMsg} : s.KeepsCore (t.takeDtl srv m d) := ite h.modServer h.bufferDtl

theorem spend {m : Nat} {up : Bool} {d : DtlMsg} : s.KeepsCore (t.spend m up d) := by
  unfold State.spend
  dsimp only
  split
  · exact h.modUcie
  · exact h.modUcie
  · exact h.modUcie
  · exact h.modUcie
  · exact h.modUcie
  · exact h

theorem dtlIn {m : Nat} {up : Bool} {d : DtlMsg} : s.KeepsCore (t.dtlIn m up d) := by
  unfold State.dtlIn
  dsimp only
  split
  · exact giveCredit (spend (ite h.count h))
  · exact ite h.count h

theorem onDtl {m : Nat} {up : Bool} {d : DtlMsg} {f : State → State} (k_f : ∀ u0, s.KeepsCore u0 → s.KeepsCore (f u0)) : s.KeepsCore
    (t.onDtl m up d f) := by
  unfold State.onDtl
  dsimp only
  split
  · exact reportFor (count h.spend)
  · split
    · exact k_f _ h.dtlIn
    · split
      · exact dtlOut h.dtlIn
      · exact h.dtlIn

end

end State.KeepsCore
end Sys2Proof.Machine
end

section
/-! PROOF. What the operations of Memory keep: the core of the state. -/

namespace Sys2Proof.Machine
namespace State.KeepsCore
section
variable {s t : State} (h : s.KeepsCore t)
include h

theorem onMemory {p : Packet} {f : State → State} (k_f : ∀ u0, s.KeepsCore u0 → s.KeepsCore (f u0)) : s.KeepsCore (t.onMemory p f) :=
  h.onPacket (fun _ k => ite k.sendReply (k_f _ k))

theorem execMemRead {p : Packet} : s.Yields (Machine.execMemRead p t) := by
  unfold Machine.execMemRead
  dsimp only
  refine yields_next (h.onMemory (fun _ k => ?_))
  split
  · exact k.sendReply
  · split
    · exact syncRequests (count k.modServer)
    · split
      · exact count k.emit
      · split
        · exact syncRequests (emit k.modServer)
        · exact askDtl k.modServer

theorem bufferWrite {srv : Server} {p : Packet} {data : List Row} : s.KeepsCore (t.bufferWrite srv p data) :=
  sendReply (dropHeld (modServer h.closeOverlap))

theorem landAt {pos : Nat} {p : Packet} : s.KeepsCore (t.landAt pos p).1 :=
  ite_fst (pair (count h.count)) (pair (stepFault (reportFor (count h.count))))

theorem landWrite {p : Packet} : s.KeepsCore (t.landWrite p).1 := h.landAt

theorem execMemWrite {p : Packet} : s.Yields (Machine.execMemWrite p t) := by
  unfold Machine.execMemWrite
  refine yields_next (h.onMemory (fun _ k => ?_))
  refine ite k.sendReply ?_
  split
  · exact k.askDtl
  · refine ite (syncRequests k.modServer) ?_
    split
    · next e => exact of_eq e k.landWrite
    · next e => exact bufferWrite (of_eq e k.landWrite)

theorem memoryFault {q row : Nat} : s.KeepsCore (t.memoryFault q row) := by
  unfold State.memoryFault
  split
  · exact h
  · exact ite h (ite h.haltJob h.modJob)

theorem execMemoryReadComplete {srv : Server} {id : Nat} : s.Yields (Machine.execMemoryReadComplete srv id t) := by
  unfold Machine.execMemoryReadComplete
  dsimp only
  refine yields_next ?_
  split
  · exact h
  · split
    · split
      · split
        · refine modServer (syncRequests (modServer ?_))
          split
          · split
            · exact h.pair
            · exact h.readMemRows
          · refine dropMergeReq ?_
            split
            · exact h.pair
            · exact h.readMemRows
        · refine syncRequests (modServer ?_)
          split
          · split
            · exact h.pair
            · exact h.readMemRows
          · refine dropMergeReq ?_
            split
            · exact h.pair
            · exact h.readMemRows
      · refine syncRequests (modServer ?_)
        split
        · split
          · exact h.pair
          · exact h.readMemRows
        · refine dropMergeReq ?_
          split
          · exact h.pair
          · exact h.readMemRows
    · split
      · refine memoryFault (answerMerge ?_)
        split
        · split
          · refine modServer (syncRequests (modServer ?_))
            split
            · split
              · exact h.pair
              · exact h.readMemRows
            · refine dropMergeReq ?_
              split
              · exact h.pair
              · exact h.readMemRows
          · refine syncRequests (modServer ?_)
            split
            · split
              · exact h.pair
              · exact h.readMemRows
            · refine dropMergeReq ?_
              split
              · exact h.pair
              · exact h.readMemRows
        · refine syncRequests (modServer ?_)
          split
          · split
            · exact h.pair
            · exact h.readMemRows
          · refine dropMergeReq ?_
            split
            · exact h.pair
            · exact h.readMemRows
      · refine answerMerge ?_
        split
        · split
          · refine modServer (syncRequests (modServer ?_))
            split
            · split
              · exact h.pair
              · exact h.readMemRows
            · refine dropMergeReq ?_
              split
              · exact h.pair
              · exact h.readMemRows
          · refine syncRequests (modServer ?_)
            split
            · split
              · exact h.pair
              · exact h.readMemRows
            · refine dropMergeReq ?_
              split
              · exact h.pair
              · exact h.readMemRows
        · refine syncRequests (modServer ?_)
          split
          · split
            · exact h.pair
            · exact h.readMemRows
          · refine dropMergeReq ?_
            split
            · exact h.pair
            · exact h.readMemRows

theorem admitWaiting {fuel : Nat} {srv : Server} : s.KeepsCore (State.admitWaiting fuel t srv) := by
  induction fuel generalizing t with
  | zero => exact h
  | succ fuel ih =>
    unfold State.admitWaiting
    split
    · exact h
    · dsimp only
      split
      · exact h
      · split
        · next e => exact ih (of_eq e (landWrite h.modServer))
        · next e => exact ih (bufferWrite (of_eq e (landWrite h.modServer)))

theorem flushServer {srv : Server} : s.KeepsCore (t.flushServer srv) := modServer (h.each (fun _ _ k => k.putRow))

theorem execWriteBufferFlush {srv : Server} : s.Yields (Machine.execWriteBufferFlush srv t) :=
  yields_next (syncRequests (admitDtl (admitWaiting h.flushServer)))

theorem beginPatrol {srv : Server} : s.KeepsCore (t.beginPatrol srv) := ite h h.modServer

theorem execPatrolRead {srv : Server} : s.Yields (Machine.execPatrolRead srv t) := by
  unfold Machine.execPatrolRead
  dsimp only
  refine yields_next ?_
  split
  · exact h.beginPatrol
  · split
    · exact setObj (modServer (ite (readMem h.beginPatrol) h.beginPatrol))
    · exact modServer (ite (readMem h.beginPatrol) h.beginPatrol)

theorem execStackEccPoll {h' count : Nat} : s.Yields (Machine.execStackEccPoll h' count t) := yields_next h.count

theorem execHoldBufferExpiry {h' : Nat} : s.Yields (Machine.execHoldBufferExpiry h' t) := yields_next h.modServer

theorem execMemoryUnitNotAnswering {srv : Server} : s.Yields (Machine.execMemoryUnitNotAnswering srv t) := by
  unfold Machine.execMemoryUnitNotAnswering
  dsimp only
  refine yields_next ?_
  split
  · exact h
  · split
    · exact syncRequests (each (foldl (reportFor (setObj h.modServer)) (fun _ _ k => k.sendReply)) (fun _ _ k => k.dtlOut))
    · exact each (each (foldl (reportFor (setObj h.modServer)) (fun _ _ k => k.sendReply)) (fun _ _ k => k.dtlOut)) fun _ _ k => k.dropMergeReq

end

end State.KeepsCore
end Sys2Proof.Machine
end

section
/-! PROOF. What the operations of Experts keep: the core of the state. -/

namespace Sys2Proof.Machine
namespace State.KeepsCore
section
variable {s t : State} (h : s.KeepsCore t)
include h

theorem ruleExpertApply {v : Nat} : s.KeepsCore (Machine.ruleExpertApply v t).1 :=
  ite_fst h.pair (ite_fst h.pair (ite_fst h.pair (pair (setObj h.beside))))

theorem execExpertApply {sess : Nat} : s.Yields (Machine.execExpertApply sess t) := h.commandOut fun _ k => k.ruleExpertApply

theorem modToken {q id : Nat} {f : Token → Token} : s.KeepsCore (t.modToken q id f) := h.modDisp

theorem sendReserve {q : Nat} {t' : Token} {expert resId : Nat} : s.KeepsCore (t.sendReserve q t' expert resId) := h.control

theorem ask {q id expert : Nat} : s.KeepsCore (t.ask q id expert) := by
  unfold State.ask
  dsimp only
  split
  · exact h
  · exact sendReserve (modToken h.modDisp)

theorem cancelAll {q : Nat} {t' : Token} : s.KeepsCore (t.cancelAll q t') := modToken (h.each (fun _ _ k => k.control))

theorem giveSlot {q : Nat} {r : Taken} {slot : Nat} : s.KeepsCore (t.giveSlot q r slot) := control h.modDisp

theorem serveWith {q e : Nat} {slot : Option Nat} : s.KeepsCore (t.serveWith q e slot) := by
  unfold State.serveWith
  split
  · exact giveSlot h.modDisp
  · exact h

theorem serveQueue {q e : Nat} : s.KeepsCore (t.serveQueue q e) := h.serveWith

theorem serveStaged {q : Nat} : s.KeepsCore (t.serveStaged q) := h.each fun _ _ k => k.serveWith

theorem launch {q : Nat} {t' : Token} {x : Target} : s.KeepsCore (t.launch q t' x) := by
  unfold State.launch
  dsimp only
  split
  · exact emit h.modToken
  · split
    · exact emits h.modToken
    · exact h.modToken

theorem skipCopy {q : Nat} {t' : Token} {expert st : Nat} {fenced : Bool} : s.KeepsCore (t.skipCopy q t' expert st fenced) := reportFor h.count

theorem dropFinished {q : Nat} : s.KeepsCore (t.dropFinished q) := ite (serveStaged h.modDisp) h

theorem countWait {q id : Nat} : s.KeepsCore (t.countWait q id) := by
  unfold State.countWait
  split
  · exact elim h (fun _ => h.count)
  · exact h

theorem settleToken {q id : Nat} : s.KeepsCore (t.settleToken q id) := by
  unfold State.settleToken
  dsimp only
  split
  · exact h
  · split
    · exact ite (countWait (h.each (fun _ _ k => k.launch))) h
    · split
      · exact h.each fun _ _ k => k.launch
      · split
        · exact ite (ask (h.each (fun _ _ k => k.launch))) (h.each (fun _ _ k => k.launch))
        · exact dropFinished (countWait (h.each (fun _ _ k => k.launch)))

theorem stageToken {q : Nat} {p : Packet} {rows : List Row} : s.KeepsCore (t.stageToken q p rows) := each (count h.modDisp) fun _ _ k => k.ask

theorem takeToken {q total : Nat} {p : Packet} : s.KeepsCore (t.takeToken q total p) := by
  unfold State.takeToken
  dsimp only
  split
  · exact sendReply h.modDisp
  · split
    · next e =>
        exact of_eq e h.landAt
    · next e =>
        exact ite (sendReply (modDisp (of_eq e h.landAt))) (stageToken (sendReply (modDisp (of_eq e h.landAt))))

theorem execReserve {m : CtrlMsg} : s.Yields (Machine.execReserve m t) := by
  unfold Machine.execReserve
  dsimp only
  refine yields_next (h.onCtrl (fun _ k => ?_))
  split
  · exact k.control
  · split
    · exact k.control
    · split
      · exact k.control
      · split
        · exact k.control
        · split
          · exact k.giveSlot
          · exact ite k.modDisp k.control

theorem execGrant {m : CtrlMsg} : s.Yields (Machine.execGrant m t) := by
  unfold Machine.execGrant
  refine yields_next (h.onCtrl (fun _ k => ?_))
  dsimp only
  split
  · exact k
  · exact settleToken k.modToken

theorem execReservationCancel {m : CtrlMsg} : s.Yields (Machine.execReservationCancel m t) := by
  unfold Machine.execReservationCancel
  refine yields_next (h.onCtrl (fun _ k => ?_))
  dsimp only
  split
  · exact k
  · exact serveQueue k.modDisp

theorem takeDstatus {m : CtrlMsg} : s.KeepsCore (t.takeDstatus m) := by
  unfold State.takeDstatus
  dsimp only
  split
  · exact h
  · split
    · exact h.modToken
    · split
      · exact settleToken (modToken h.skipCopy)
      · exact serveStaged (modDisp (each (cancelAll h.modToken) (fun _ _ k => k.skipCopy)))

theorem execDstatus {m : CtrlMsg} : s.Yields (Machine.execDstatus m t) := yields_next (h.onCtrl (fun _ k => k.takeDstatus))

theorem execNoCreditRetry {q resId : Nat} : s.Yields (Machine.execNoCreditRetry q resId t) := by
  unfold Machine.execNoCreditRetry
  refine yields_next ?_
  split
  · exact h
  · split
    · exact h
    · exact sendReserve (modToken h.count)

theorem execMulticastTimeout {q token : Nat} : s.Yields (Machine.execMulticastTimeout q token t) := by
  unfold Machine.execMulticastTimeout
  refine yields_next ?_
  split
  · exact h
  · exact ite h (settleToken (modToken (count h.cancelAll)))

theorem execCopyArrive {q : Nat} {resId : CopyId} {rows : List Row} : s.Yields (Machine.execCopyArrive q resId rows t) := by
  unfold Machine.execCopyArrive
  dsimp only
  refine yields_next ?_
  split
  · exact h
  · split
    · exact emit (count (emits h.modDisp))
    · exact h

theorem execCopyReceiptConfirm {q resId : Nat} : s.Yields (Machine.execCopyReceiptConfirm q resId t) := by
  unfold Machine.execCopyReceiptConfirm
  refine yields_next ?_
  split
  · exact h
  · exact dropFinished h.modToken

theorem takeRelease {q : Nat} {p : Packet} : s.KeepsCore (t.takeRelease q p) := by
  unfold State.takeRelease
  dsimp only
  split
  · exact h.sendReply
  · split
    · next e =>
        exact of_eq e h.landAt
    · next e =>
        exact each (sendReply (of_eq e h.landAt)) (fun _ _ k1 => serveQueue k1.modDisp)

theorem issueHint {q e : Nat} : s.KeepsCore (t.issueHint q e) := h.each (fun _ _ k => ite k (emit k.modServer))

theorem runHint {q h' : Nat} {far' : Bool} : s.KeepsCore (t.runHint q h' far') := by
  unfold State.runHint
  extract_lets ts own far s1 s2
  have hinted : s.KeepsCore s2 := each (h.each fun _ _ k => elim k fun _ => k.issueHint) fun _ _ k => k.emit
  exact ite h.count (ite hinted.count hinted)

theorem takeHint {q total : Nat} {p : Packet} : s.KeepsCore (t.takeHint q total p) := by
  unfold State.takeHint
  dsimp only
  split
  · exact h.runHint
  · split
    · exact h.sendReply
    · split
      · next e =>
          exact of_eq e h.landAt
      · next e =>
          exact runHint (sendReply (of_eq e h.landAt))

theorem takeDispWrite {q : Nat} {w : DispWrite} : s.KeepsCore (t.takeDispWrite q w) := ite h.takeToken (ite h.takeRelease h.takeHint)

theorem enterDisp {q : Nat} {ws : List DispWrite} : s.KeepsCore (State.enterDisp q ws t) := by
  induction ws generalizing t with
  | nil => exact h.modDisp
  | cons w rest ih => exact ite (modDisp h.count) (ih h.takeDispWrite)

theorem arriveDisp {q : Nat} {w : DispWrite} : s.KeepsCore (t.arriveDisp q w) := h.onPacket (fun _ k => ite k.enterDisp k.modDisp)

theorem execTokenRequest {q : Nat} {p : PutWrite} : s.Yields (Machine.execTokenRequest q p t) := yields_next h.arriveDisp

theorem execReleaseRequest {q : Nat} {p : Packet} : s.Yields (Machine.execReleaseRequest q p t) := yields_next h.arriveDisp

theorem execHintRequest {q : Nat} {p : PutWrite} : s.Yields (Machine.execHintRequest q p t) := yields_next h.arriveDisp

theorem execStagingHoldRelease {q : Nat} : s.Yields (Machine.execStagingHoldRelease q t) := by
  unfold Machine.execStagingHoldRelease
  refine yields_next ?_
  split
  · exact h
  · exact ite h (enterDisp h.takeDispWrite)

end

end State.KeepsCore
end Sys2Proof.Machine
end

section
/-! PROOF. What the operations of Links keep: the core of the state. -/

namespace Sys2Proof.Machine
namespace State.KeepsCore
section
variable {s t : State} (h : s.KeepsCore t)
include h

theorem toPortState {k v : Nat} : s.KeepsCore (t.toPortState k v) := ite h (event h.setObj)

theorem discardUnit {k : Nat} : s.KeepsCore (t.discardUnit k) := h.count

theorem countTx {k n : Nat} : s.KeepsCore (t.countTx k n) := modPort h.count

theorem spendTx {k cls n : Nat} {m : Msg} : s.KeepsCore (t.spendTx k cls n m) := countTx (modPort h.emit)

theorem sendSlots {k cls n : Nat} {m : Msg} : s.KeepsCore (t.sendSlots k cls n m) := ite (countTx h.emit) (ite h.spendTx h.modPort)

theorem sendCtrl {k mtype body dst src hops : Nat} : s.KeepsCore (t.sendCtrl k mtype body dst src hops) := h.sendSlots

theorem sendUnit {k : Nat} {u : MgmtUnit} : s.KeepsCore (t.sendUnit k u) := h.sendSlots

theorem retime : s.KeepsCore t.retime := by
  unfold State.retime
  dsimp only
  split
  · exact setObj (setObj h.setObj)
  · exact ite (beside (setObj (setObj h.setObj))) (ite (ite h (beside (setObj h.setObj))) (beside (setObj h.setObj)))

theorem recomputeRoutes : s.KeepsCore t.recomputeRoutes := retime (setObj h.setObjs)

theorem sendTopo : s.KeepsCore t.sendTopo := ite h (h.each (fun _ _ k => k.sendCtrl))

theorem neighboursChanged : s.KeepsCore t.neighboursChanged := recomputeRoutes (sendTopo h.beside)

theorem portLoss {k : Nat} : s.KeepsCore (t.portLoss k) :=
  neighboursChanged (reportFor (each (each h.modPort (fun _ _ k => k.sendReply)) (fun _ _ k => k.stepFault)))

theorem train {k : Nat} {resume : Option Nat} : s.KeepsCore (t.train k resume) := toPortState h.modPort

theorem loseTo {k v : Nat} : s.KeepsCore (t.loseTo k v) := ite (portLoss h.toPortState) h.toPortState

theorem resetPort {k : Nat} {clear : Bool} : s.KeepsCore (t.resetPort k clear) := by
  unfold State.resetPort
  dsimp only
  split
  · exact loseTo (ite (setObj (setObj h.modPort)) h.modPort)
  · exact ite (ite (setObj (setObj h.modPort)) h.modPort) (train (loseTo (ite (setObj (setObj h.modPort)) h.modPort)))

theorem trained {k : Nat} : s.KeepsCore (t.trained k) := by
  unfold State.trained
  split
  · exact resetPort h.modPort
  · exact h

theorem rulePortReset {k v : Nat} : s.KeepsCore (Machine.rulePortReset k v t).1 :=
  ite_fst (pair h.modPort) (ite_fst (pair h.resetPort) (ite_fst (pair h.resetPort) h.pair))

theorem execPortResetRetrain {sess k : Nat} : s.Yields (Machine.execPortResetRetrain sess k t) := h.commandOut fun _ k => k.rulePortReset

theorem execPortResetClear {sess k : Nat} : s.Yields (Machine.execPortResetClear sess k t) := h.commandOut fun _ k => k.rulePortReset

theorem execPortRetryTimer {k : Nat} : s.Yields (Machine.execPortRetryTimer k t) := yields_next (ite h.train h)

theorem execTrainingTimeout {k : Nat} : s.Yields (Machine.execTrainingTimeout k t) := by
  unfold Machine.execTrainingTimeout
  dsimp only
  refine yields_next ?_
  split
  · exact h
  · split
    · exact trained (toPortState h.count)
    · exact ite (trained (loseTo h.count)) (modPort h.count)

theorem execPrbsPhaseEnd {k : Nat} : s.Yields (Machine.execPrbsPhaseEnd k t) := yields_next (ite h.modPort h)

theorem execCodewordLock {k lane : Nat} : s.Yields (Machine.execCodewordLock k lane t) := yields_next h.modPort

theorem execCodewordLockLoss {k lane : Nat} : s.Yields (Machine.execCodewordLockLoss k lane t) := yields_next (ite (train h.modPort) h.modPort)

theorem execCableInsert {k : Nat} : s.Yields (Machine.execCableInsert k t) := yields_next (ite h.train h)

theorem execCableRemove {k : Nat} : s.Yields (Machine.execCableRemove k t) := yields_next (ite h (ite h.toPortState h.loseTo))

theorem refuseIngress {k hop : Nat} {p : Packet} {st : Nat} : s.KeepsCore (t.refuseIngress k hop p st) := h.modPort

theorem enterMesh {k hop dst : Nat} {p : Packet} : s.KeepsCore (t.enterMesh k hop dst p) := emit h.modPort

theorem leave {k hop : Nat} {p : Packet} : s.KeepsCore (t.leave k hop p) := countTx (emit h.modPort)

theorem pumpStuck {k : Nat} : s.KeepsCore (t.pumpStuck k) := each h.modPort fun _ _ k => k.sendSlots

theorem countCredit {k : Nat} : s.KeepsCore (t.countCredit k) := by
  unfold State.countCredit
  dsimp only
  split
  · exact h
  · exact modPort h.count

theorem pumpTraffic {k : Nat} : s.KeepsCore (t.pumpTraffic k) := by
  unfold State.pumpTraffic
  dsimp only
  refine each (modPort (each h.modPort (fun _ _ k => ite k.leave k.modPort))) (fun _ _ k => ?_)
  split
  · split
    · exact k.enterMesh
    · exact k.refuseIngress
  · exact k.modPort

theorem pumpPort {k : Nat} : s.KeepsCore (t.pumpPort k) := ite h (modPort (pumpTraffic (pumpStuck h.countCredit)))

theorem execEgressPacket {k hop : Nat} {p : Packet} : s.Yields (Machine.execEgressPacket k hop p t) :=
  yields_next (ite h.discardUnit (pumpPort h.modPort))

theorem execIngressRequest {k hop : Nat} {p : Packet} : s.Yields (Machine.execIngressRequest k hop p t) := by
  unfold Machine.execIngressRequest
  extract_lets d
  refine yields_next (ite h.discardUnit ?_)
  split
  · split
    · exact pumpPort h.refuseIngress
    · exact ite (pumpPort h.refuseIngress) h.enterMesh
  · split
    · exact pumpPort h.refuseIngress
    · exact pumpPort h.modPort

theorem execIngressReply {k _hop : Nat} {p : Packet} : s.Yields (Machine.execIngressReply k _hop p t) := by
  unfold Machine.execIngressReply
  dsimp only
  refine yields_next ?_
  split
  · exact h.discardUnit
  · exact pumpPort (emit h.modPort)

theorem execEgressForkBranch {k : Nat} {p : Packet} : s.Yields (Machine.execEgressForkBranch k p t) := by
  unfold Machine.execEgressForkBranch
  refine yields_next ?_
  split
  · exact h
  · exact pumpPort h.modPort

theorem takeCtrl {k : Nat} {w : Codeword} : s.KeepsCore (t.takeCtrl k w) := by
  unfold State.takeCtrl
  dsimp only
  split
  · exact h.discardUnit
  · split
    · exact h.discardUnit
    · split
      · split
        · exact ite h.discardUnit h.sendCtrl
        · exact h.discardUnit
      · exact h.emit

theorem takeSlot {k cls kind : Nat} {w : Codeword} : s.KeepsCore (t.takeSlot k cls kind w) :=
  ite h (ite h.discardUnit (ite (takeCtrl h.modPort) (emit h.modPort)))

theorem ackFlits {k a : Nat} : s.KeepsCore (t.ackFlits k a) := h.modPort

theorem nakFlits {k a : Nat} : s.KeepsCore (t.nakFlits k a) := ite (train (modPort h.ackFlits)) (emit (modPort (count (modPort h.ackFlits))))

theorem refuseFlit {k : Nat} {codewordOk : Bool} : s.KeepsCore (t.refuseFlit k codewordOk) := ite h (emit (modPort (count (ite h (modPort h.count)))))

theorem execFlitReceive {k : Nat} {f : Flit} {codewordOk : Bool} : s.Yields (Machine.execFlitReceive k f codewordOk t) := by
  unfold Machine.execFlitReceive
  dsimp only
  refine yields_next ?_
  split
  · exact h
  · split
    · exact h.refuseFlit
    · split
      · exact h
      · refine pumpPort ?_
        split
        · exact ackFlits (each (modPort h.count) (fun _ _ k => k.takeSlot))
        · exact ite (nakFlits (each (modPort h.count) (fun _ _ k => k.takeSlot))) (each (modPort h.count) (fun _ _ k => k.takeSlot))

theorem execAckSend {k : Nat} : s.Yields (Machine.execAckSend k t) := yields_next (ite h (modPort (countTx (emit h.emit))))

theorem execLaneSparingCheck {k : Nat} : s.Yields (Machine.execLaneSparingCheck k t) := by
  unfold Machine.execLaneSparingCheck
  refine yields_next (ite h ?_)
  extract_lets recent s1 n bad s2
  have checked : s.KeepsCore s2 := modPort (setObj h.modPort)
  refine ite checked ?_
  split
  · exact checked
  · exact modPort checked.sendCtrl

theorem execLaneSwap {k : Nat} {m : CtrlMsg} : s.Yields (Machine.execLaneSwap k m t) := yields_next (h.onCtrl (fun _ k => ite k (modPort k.sendCtrl)))

theorem execLaneAck {k : Nat} {m : CtrlMsg} : s.Yields (Machine.execLaneAck k m t) := yields_next (h.onCtrl (fun _ k => k.modPort))

theorem finishSwap {k : Nat} {x : Swap} : s.KeepsCore (t.finishSwap k x) := by
  unfold State.finishSwap
  dsimp only
  split
  · exact reportFor (modPort (setObj h.setObj))
  · exact ite (loseTo (reportFor (modPort (setObj h.setObj)))) (toPortState (reportFor (modPort (setObj h.setObj))))

theorem execLaneSwitch {k seq : Nat} : s.Yields (Machine.execLaneSwitch k seq t) := by
  unfold Machine.execLaneSwitch
  dsimp only
  refine yields_next ?_
  split
  · exact h
  · exact ite (finishSwap h.modPort) h.modPort

theorem execHelloSend {k : Nat} : s.Yields (Machine.execHelloSend k t) := yields_next (ite h.sendCtrl h)

theorem claim {k dev serial : Nat} : s.KeepsCore (t.claim k dev serial) := ite h (ite (ite h (reportFor h.setObj)) h.setObj)

theorem execHello {k : Nat} {m : CtrlMsg} : s.Yields (Machine.execHello k m t) := by
  unfold Machine.execHello
  dsimp only
  refine yields_next (h.onCtrl (fun _ k => ?_))
  split
  · exact k
  · split
    · split
      · exact ite (claim (modPort k.setObj)) (modPort k.setObj)
      · split
        · exact trained (toPortState (ite (claim (modPort k.setObj)) (modPort k.setObj)))
        · exact loseTo (ite (claim (modPort k.setObj)) (modPort k.setObj))
    · split
      · split
        · exact neighboursChanged (ite (claim (modPort k.setObj)) (modPort k.setObj))
        · exact ite (claim (modPort k.setObj)) (modPort k.setObj)
      · split
        · exact ite (claim (modPort k.setObj)) (modPort k.setObj)
        · split
          · refine trained (pumpPort ?_)
            split
            · exact modPort (toPortState (ite (claim (modPort k.setObj)) (modPort k.setObj)))
            · exact emit (modPort (toPortState (ite (claim (modPort k.setObj)) (modPort k.setObj))))
          · exact trained (pumpPort (neighboursChanged (modPort (toPortState (ite (claim (modPort k.setObj)) (modPort k.setObj))))))

theorem execTopoSend : s.Yields (Machine.execTopoSend t) := yields_next h.sendTopo

theorem execTopo {k : Nat} {m : CtrlMsg} : s.Yields (Machine.execTopo k m t) :=
  yields_next (h.onCtrl (fun _ k => ite k (recomputeRoutes (each k.beside (fun _ _ k1 => k1.sendCtrl)))))

theorem ruleDeviceId {v : Nat} : s.KeepsCore (Machine.ruleDeviceId v t).1 := by
  refine ite_fst h (ite_fst h (pair (neighboursChanged (each (ite (setObj h.setObj) h.setObj) fun _ _ k => ?_))))
  split
  · next e => exact k.execHelloSend _ e
  · exact k

theorem execTsyncSend {k : Nat} : s.Yields (Machine.execTsyncSend k t) := yields_next (ite h (modPort h.sendCtrl))

theorem execTsync {k : Nat} {m : CtrlMsg} : s.Yields (Machine.execTsync k m t) := yields_next (h.onCtrl (fun _ k => ite k k.sendCtrl))

theorem stepTide {x : Nat} : s.KeepsCore (t.stepTide x) := beside (each (count (count (h.each (fun _ _ k => k.jumpTicks)))) (fun _ _ k => k.modPort))

theorem steer {k : Nat} {offset delay : ℤ} : s.KeepsCore (t.steer k offset delay) := by
  unfold State.steer
  dsimp only
  split
  · exact ite (beside (setObj (setObj (setObj h.setObj)))) (beside (setObj (setObj h.setObj)))
  · exact ite (beside (reportFor (setObj (setObj (setObj h.setObj))))) (beside (setObj (setObj h.setObj)))

theorem execTsyncReply {k : Nat} {m : CtrlMsg} {t4 : Nat} : s.Yields (Machine.execTsyncReply k m t4 t) :=
  yields_next (h.onCtrl (fun _ k => ite k (ite k.modPort (ite (stepTide (ite (steer k.modPort) k.modPort)) (ite (steer k.modPort) k.modPort)))))

theorem execMgmtUnit {k : Nat} {u : MgmtUnit} {slots : Nat} : s.Yields (Machine.execMgmtUnit k u slots t) := by
  unfold Machine.execMgmtUnit
  refine yields_next ?_
  split
  · exact h
  · split
    · exact h.discardUnit
    · split
      · exact h.emit
      · split
        · exact ite h.discardUnit h.sendUnit
        · exact h.discardUnit

theorem execEthLinkUp {k : Nat} : s.Yields (Machine.execEthLinkUp k t) := yields_next (ite (trained h.toPortState) h)

theorem execEthLinkDown {k : Nat} : s.Yields (Machine.execEthLinkDown k t) := yields_next (ite h.train h)

theorem sendFrame {k : Nat} {b : List Byte} : s.KeepsCore (t.sendFrame k b) := elim (emit h.count) (fun _ => emit (emit h.count))

theorem execEthFrameReceive {k : Nat} {f : EthFrame} : s.Yields (Machine.execEthFrameReceive k f t) :=
  yields_next (ite h (ite h.count (ite h.count (emit h.count))))

end

end State.KeepsCore
end Sys2Proof.Machine
end

section
/-! PROOF. What the operations of Service keep: the core of the state. -/

namespace Sys2Proof.Machine
namespace State.KeepsCore
section
variable {s t : State} (h : s.KeepsCore t)
include h

theorem modSvc {n : Nat} {f : Service → Service} : s.KeepsCore (t.modSvc n f) := h.beside

theorem final {c : Client} {reqId st : Nat} {more : CborMap} : s.KeepsCore (t.final c reqId st more) := count h.emit

theorem partialTo {c : Client} {reqId : Nat} {more : CborMap} : s.KeepsCore (t.partialTo c reqId more) := h.emit

theorem closeFor {slot : Nat} {c : Client} {reqId : Nat} : s.KeepsCore (t.closeFor slot c reqId) := ite (beside h.ruleCtxClose) (final h.ruleCtxClose)

theorem answerClosers : s.KeepsCore t.answerClosers := each h.beside fun _ _ k => k.final

theorem endReq {n : Nat} {r : SvcReq} {st : Nat} {more : CborMap} : s.KeepsCore (t.endReq n r st more) :=
  each (ite (setCtx h.modSvc) (final (setCtx h.modSvc))) (fun _ _ k => ite k.closeFor k.final)

theorem dropRequests {n : Nat} : s.KeepsCore (t.dropRequests n) := by
  unfold State.dropRequests
  exact modSvc (each (h.each fun _ _ k => k.endReq) fun _ _ k => k.final)

theorem startSvc {n : Nat} : s.KeepsCore (t.startSvc n) := modSvc h.setObj

theorem stopNow {n : Nat} : s.KeepsCore (t.stopNow n) := ite (startSvc (modSvc (setObj h.dropRequests))) (modSvc (setObj h.dropRequests))

theorem stopSvc {n : Nat} : s.KeepsCore (t.stopSvc n).1 := ite_fst (pair h.modSvc) (pair h.stopNow)

theorem ruleSvc {n v : Nat} : s.KeepsCore (Machine.ruleSvc n v t).1 := by
  unfold Machine.ruleSvc
  dsimp only
  split
  · exact ite_fst h.pair (ite_fst h.pair (pair h.modSvc))
  · split
    · exact ite_fst (pair h.startSvc) (ite_fst (pair h.modSvc) (ite_fst (pair h.modSvc) h.pair))
    · exact ite_fst (ite_fst h.pair (ite_fst (pair h.modSvc) h.stopSvc)) h.pair

theorem execSvcApply {sess n : Nat} : s.Yields (Machine.execSvcApply sess n t) := h.commandOut fun _ k => k.ruleSvc

theorem execSvcStart {sess n : Nat} : s.Yields (Machine.execSvcStart sess n t) := h.commandOut fun _ k => k.ruleSvc

theorem execSvcStop {sess n : Nat} : s.Yields (Machine.execSvcStop sess n t) := h.commandOut fun _ k => k.ruleSvc

theorem refuseReq {r : Request} {st : Nat} : s.Yields (t.refuseReq r st) := yields_next h.final

theorem pickSlot : s.KeepsCore t.pickSlot.1 := ite_fst (pair h.draw) (ite_fst (pair h.draw) (pair h.draw))

theorem execReqOpenContext {r : Request} : s.Yields (Machine.execReqOpenContext r t) := by
  unfold Machine.execReqOpenContext
  dsimp only
  split
  · exact h.refuseReq
  · split
    · split
      · exact h.refuseReq
      · split
        · exact h.refuseReq
        · split
          · exact h.refuseReq
          · split
            · exact h.refuseReq
            · split
              · next e =>
                  exact h.refuseReq
              · next e =>
                  split
                  · exact yields_next (final (ruleCtxOpen (of_eq e h.pickSlot)))
                  · exact yields_next (final (beside (ruleCtxSetPriority (ruleCtxOpen (of_eq e h.pickSlot)))))
    · exact h.refuseReq

theorem queueReq {n : Nat} {x : SvcReq} : s.KeepsCore (t.queueReq n x) := ite (final h.count) (beside h.modSvc)

theorem execReqAppend {r : Request} : s.Yields (Machine.execReqAppend r t) := by
  unfold Machine.execReqAppend
  split
  · exact h.refuseReq
  · split
    · split
      · exact h.refuseReq
      · exact yields_ite h.refuseReq (yields_ite h.refuseReq (yields_next h.queueReq))
    · exact h.refuseReq

theorem execReqGenerate {r : Request} : s.Yields (Machine.execReqGenerate r t) := by
  unfold Machine.execReqGenerate
  split
  · exact h.refuseReq
  · split
    · split
      · exact h.refuseReq
      · split
        · exact h.refuseReq
        · exact yields_ite h.refuseReq (yields_next h.queueReq)
    · exact h.refuseReq

theorem modReq {n seq : Nat} {f : SvcReq → SvcReq} : s.KeepsCore (t.modReq n seq f) := by
  unfold State.modReq
  exact h.modSvc

theorem leaveReq {n : Nat} {r : SvcReq} : s.KeepsCore (t.leaveReq n r) := by
  unfold State.leaveReq
  split
  · exact ite h h.endReq
  · exact h

theorem cancelReq {n : Nat} {x : SvcReq} {r : Request} {close : Bool} : s.KeepsCore (t.cancelReq n x r close) := leaveReq h.modReq

theorem execReqCancel {r : Request} : s.Yields (Machine.execReqCancel r t) := by
  unfold Machine.execReqCancel
  split
  · exact h.refuseReq
  · split
    · exact h.refuseReq
    · split
      · exact h.refuseReq
      · split
        · exact yields_next h.final
        · exact yields_next h.cancelReq

theorem execReqCloseContext {r : Request} : s.Yields (Machine.execReqCloseContext r t) := by
  unfold Machine.execReqCloseContext
  split
  · exact h.refuseReq
  · split
    · exact h.refuseReq
    · split
      · exact h.refuseReq
      · split
        · exact yields_next h.closeFor
        · exact yields_next h.cancelReq

theorem execConnectionLost {conn : Nat} : s.Yields (Machine.execConnectionLost conn t) :=
  yields_next (h.each (fun _ _ k => k.each (fun _ _ k1 => leaveReq k1.modReq)))

theorem execContextIdleTimeout {slot : Nat} : s.Yields (Machine.execContextIdleTimeout slot t) := yields_next (ite h h.ruleCtxClose)

theorem execRecoveryResumeTimeout {n : Nat} : s.Yields (Machine.execRecoveryResumeTimeout n t) := yields_next (ite h.dropRequests h)

theorem execReqStatus {r : Request} : s.Yields (Machine.execReqStatus r t) := by
  unfold Machine.execReqStatus
  dsimp only
  split
  · exact h.refuseReq
  · split
    · split
      · exact h.refuseReq
      · exact yields_ite (yields_ite h.refuseReq (yields_ite h.refuseReq (yields_next h.final))) (yields_next h.final)
    · exact h.refuseReq
    · exact h.refuseReq

theorem prepareCtx {q slot : Nat} : s.KeepsCore (t.prepareCtx q slot) := ite h (modJob h.zeroRows)

theorem writeEntry {q key lanes list : Nat} : s.KeepsCore (t.writeEntry q key lanes list) := by
  unfold State.writeEntry
  split
  · exact h
  · exact h.ringPut

theorem execEntrySeal {n : Nat} : s.Yields (Machine.execEntrySeal n t) :=
  yields_next (ite h (modSvc (writeEntry (ringPut (foldl h (fun _ _ k => ringPut (ringPut k.prepareCtx)))))))

theorem execReqSubmitFrame {r : Request} : s.Yields (Machine.execReqSubmitFrame r t) := by
  unfold Machine.execReqSubmitFrame
  split
  · exact h.refuseReq
  · split
    · split
      · exact h.refuseReq
      · exact yields_ite h.refuseReq (yields_ite h.refuseReq (yields_next (modSvc (h.each (fun _ _ k => k.final)))))
    · exact h.refuseReq

theorem execVisionTickSeal {n tick : Nat} : s.Yields (Machine.execVisionTickSeal n tick t) :=
  yields_next (ite h (modSvc (writeEntry (h.each (fun _ _ k => k.ringPut)))))

theorem readOutput {n step lane : Nat} : s.KeepsCore (t.readOutput n step lane).1 := by
  unfold State.readOutput
  dsimp only
  split
  · next e =>
      exact pair (of_eq e h.ringWord)
  · next e =>
      exact pair (of_eq e h.ringWord)

theorem laneDone {n step lane seq : Nat} : s.KeepsCore (t.laneDone n step lane seq) := by
  unfold State.laneDone
  dsimp only
  split
  · exact h
  · split
    · next e =>
        exact of_eq e h.readOutput
    · next e =>
        split
        · exact ite (endReq (ruleCtxSetPosition (beside (of_eq e h.readOutput)))) (ruleCtxSetPosition (beside (of_eq e h.readOutput)))
        · split
          · exact endReq (ruleCtxSetPosition (beside (of_eq e h.readOutput)))
          · split
            · exact partialTo (modReq (ruleCtxSetPosition (beside (of_eq e h.readOutput))))
            · exact modReq (ruleCtxSetPosition (beside (of_eq e h.readOutput)))

theorem tickDone {n tick : Nat} : s.KeepsCore (t.tickDone n tick) := by
  unfold State.tickDone
  dsimp only
  split
  · exact modSvc (h.each (fun _ _ k => k.final))
  · split
    · refine modSvc (h.each (fun _ _ k => ?_))
      split
      · next e1 =>
          exact final (of_eq e1 k.ringWord)
      · next e1 =>
          exact final (of_eq e1 k.ringWord)
    · exact h

theorem execEventBoundary {m : Nat} {d : DtlMsg} : s.Yields (Machine.execEventBoundary m d t) := by
  unfold Machine.execEventBoundary
  refine yields_next (h.onDtl fun _ k => answerClosers (k.each fun u n k₁ => ?_))
  extract_lets t1
  have read : s.KeepsCore t1 := by
    refine ite (k₁.each fun _ _ k₂ => k₂.tickDone) (ite ?_ k₁)
    split
    · exact k₁
    · exact each (modSvc (foldl k₁ fun _ _ k₂ => k₂.laneDone)) fun _ _ k₂ => k₂.leaveReq
  exact ite read.stopNow read

theorem reloadJob {m q : Nat} : s.KeepsCore (t.reloadJob m q) := h.dtlOut

theorem execEventJobState {m : Nat} {d : DtlMsg} : s.Yields (Machine.execEventJobState m d t) :=
  yields_next (h.onDtl (fun _ k => answerClosers (k.each (fun _ _ k1 => ite (ite (stopSvc (modSvc (modSvc k1.setObj))) (modSvc
      (modSvc k1.setObj))) (ite k1.reloadJob k1)))))

end

end State.KeepsCore
end Sys2Proof.Machine
end

section
/-! PROOF. What the operations of Records keep: the core of the state. -/

namespace Sys2Proof.Machine
namespace State.KeepsCore
section
variable {s t : State} (h : s.KeepsCore t)
include h

theorem compact : s.KeepsCore t.compact := ite h (count h.beside)

theorem storeRecord {index sub ty : Nat} {value : List Byte} : s.KeepsCore (t.storeRecord index sub ty value).1 :=
  ite_fst h.pair (ite_fst (pair h.reportFor) (pair (compact h.beside)))

theorem restore {r : FlashRec} : s.KeepsCore (t.restore r) := by
  unfold State.restore
  split
  · exact h
  · exact ite h (ite h.beside (ite h.setObjs h.setObj))

theorem scanFlash {want : Nat → Bool} : s.KeepsCore (t.scanFlash want) := each h.setObj fun _ _ k => k.restore

theorem persistOut {sess index sub ty : Nat} {value : List Byte} {own : State → State × Nat} (k_own : ∀ u0, s.KeepsCore u0 → s.KeepsCore
    (own u0).1) : s.Yields (t.persistOut sess index sub ty value own) := by
  unfold State.persistOut
  dsimp only
  split
  · exact yields_next h.answer
  · split
    · exact yields_next (answer (k_own _ h))
    · exact yields_ite (yields_next (answer h.storeRecord)) (yields_next (answer (k_own _ h.storeRecord)))

end

end State.KeepsCore
end Sys2Proof.Machine
end

section
/-! PROOF. What the operations of Starts keep: the core of the state. -/

namespace Sys2Proof.Machine
namespace State.KeepsCore
section
variable {s t : State} (h : s.KeepsCore t)
include h

theorem blank : s.KeepsCore t.blank := beside (dropRegs h.emptyMemories)

theorem startUp {kind : Nat} : s.KeepsCore (t.startUp kind) :=
  emits (count (setObj (setObj (setObj (setObj (setObj (ite (beside (beside (beside h.blank))) (beside (beside h.blank)))))))))

theorem pushRecord {r : Nat} : s.KeepsCore (t.pushRecord r) := h.setObjs

theorem markImage {i : Nat} : s.KeepsCore (t.markImage i) := beside h.setObj

theorem enterSafe : s.KeepsCore t.enterSafe := emit h.beside

theorem failStart {unit reason : Nat} {both : Bool} : s.KeepsCore (t.failStart unit reason both) := by
  unfold State.failStart
  refine ite h ?_
  extract_lets stage kept s1 n _ _ s2 adj s3 kind _ s4
  have noted : s.KeepsCore s1 := ite h.pushRecord h
  have ended : s.KeepsCore s2 := beside noted.setObj
  have marked : s.KeepsCore s3 := ite ended.markImage ended
  have planned : s.KeepsCore s4 := marked.beside
  exact ite ended.enterSafe (emit planned.setObj)

theorem stopAll : s.KeepsCore t.stopAll :=
  each (each (each h.freezeDevice (fun _ _ k => ite k (ite k (setObj (setObj (setClock k.setPlane)))))) (fun _ _ k => k.setObj)) fun _ _ k => k.beside

theorem drainBuffers : s.KeepsCore t.drainBuffers := each (h.each (fun _ _ k => k.flushServer)) fun _ _ k => k.flushServer

theorem saveClose {cause : Nat} : s.KeepsCore (t.saveClose cause) := by
  unfold State.saveClose
  dsimp only
  split
  · exact h
  · refine emits (beside ?_)
    split
    · refine count ?_
      split
      · refine count ?_
        split
        · exact pushRecord (reportFor (closeDomain (drainBuffers (stopAll h.emit))))
        · exact reportFor (closeDomain (drainBuffers (stopAll h.emit)))
      · split
        · exact pushRecord (reportFor (closeDomain (drainBuffers (stopAll h.emit))))
        · exact reportFor (closeDomain (drainBuffers (stopAll h.emit)))
    · split
      · refine count ?_
        split
        · exact pushRecord (reportFor (closeDomain (drainBuffers (stopAll h.emit))))
        · exact reportFor (closeDomain (drainBuffers (stopAll h.emit)))
      · split
        · exact pushRecord (reportFor (closeDomain (drainBuffers (stopAll h.emit))))
        · exact reportFor (closeDomain (drainBuffers (stopAll h.emit)))

theorem closeAndStart : s.KeepsCore t.closeAndStart := startUp h.saveClose

theorem toRouted {mtype body : Nat} : s.KeepsCore (t.toRouted mtype body) := h.each fun _ _ k => k.control

theorem recoveryDtl {up : Bool} {code addr : Nat} : s.KeepsCore (t.recoveryDtl up code addr) := h.dtlOut

theorem recover {cause : Nat} : s.KeepsCore (t.recover cause) := by
  unfold State.recover
  dsimp only
  split
  · exact h.failStart
  · split
    · exact h
    · exact recoveryDtl (toRouted (emit (setObj (each (setObj (setObj (count (count (setObj (setObj (setObj h.beside)))))))
          (fun _ _ k => ite k k.setObj)))))

end

end State.KeepsCore
end Sys2Proof.Machine
end

section
/-! PROOF. What the operations of Throttle keep: the core of the state. -/

namespace Sys2Proof.Machine
namespace State.KeepsCore
section
variable {s t : State} (h : s.KeepsCore t)
include h

theorem modThrottle {f : Throttle → Throttle} : s.KeepsCore (t.modThrottle f) := h.beside

theorem modLimit {c : Nat} {f : ClusterLimit → ClusterLimit} : s.KeepsCore (t.modLimit c f) := h.modThrottle

theorem setGroup {f : Nat} {g : GroupLimit} : s.KeepsCore (t.setGroup f g) := h.modThrottle

theorem keepInForce {index sub : Nat} : s.KeepsCore (t.keepInForce index sub) := ite h.modThrottle h

theorem setReason {r : Nat} {on : Bool} : s.KeepsCore (t.setReason r on) := ite (setObj (count h.setObj)) (ite h h.setObj)

theorem retarget {c : Nat} : s.KeepsCore (t.retarget c) :=
  ite (ite (setObj (setObj (setObj h.setObj))) (setObj (setObj h.setObj))) (setObj (setObj (setObj h.setObj)))

theorem refresh : s.KeepsCore t.refresh :=
  setReason (each (each (h.each (fun _ _ k => k.retarget)) (fun _ _ k => k.setObj)) (fun _ _ k => k.setReason))

theorem lowerOnce : s.KeepsCore t.lowerOnce := ite (modThrottle h.setObj) (ite (ite h (reportFor h.modThrottle)) (modThrottle (setObj h.setObj)))

theorem raiseOnce : s.KeepsCore t.raiseOnce := ite (modThrottle (setObj h.modThrottle)) (ite (modThrottle (setObj h.modThrottle)) h.modThrottle)

theorem capTick {avg1ms avg1s : Nat} : s.KeepsCore (t.capTick avg1ms avg1s) := by
  unfold State.capTick
  split
  extract_lets fast s1 s2 n s3
  have noted : s.KeepsCore s2 := modThrottle (setObj (setObj (setObj h.setObj)))
  have changed : s.KeepsCore s3 := ite noted.lowerOnce (ite noted.raiseOnce noted.modThrottle)
  exact changed.setObj

theorem droopTick : s.KeepsCore t.droopTick := h.each (fun _ _ k => ite k (ite k.modLimit k.modLimit))

theorem accrue : s.KeepsCore t.accrue := h.each (fun _ _ k => ite k.count k)

theorem slackCount {key : Nat} {on : Bool} : s.KeepsCore (t.slackCount key on) := h.modThrottle

theorem slackTo {q reason level since : Nat} : s.KeepsCore (t.slackTo q reason level since) := h.each fun _ _ k => k.control

theorem slackRelease : s.KeepsCore t.slackRelease := h.each (fun _ _ k => ite k (modThrottle k.slackTo))

theorem slackTick : s.KeepsCore t.slackTick := slackRelease (each (h.each (fun _ _ k => k.slackCount)) (fun _ _ k => k.slackCount))

theorem applyWritten : s.KeepsCore t.applyWritten := h.modThrottle

theorem execControlTick {avg1ms avg1s : Nat} : s.Yields (Machine.execControlTick avg1ms avg1s t) :=
  yields_next (slackTick (refresh (droopTick (capTick (applyWritten h.accrue)))))

theorem execSlackNoticeSend {q : Nat} : s.Yields (Machine.execSlackNoticeSend q t) := yields_next (ite (modThrottle h.slackTo) h)

theorem execSlack {m : CtrlMsg} : s.Yields (Machine.execSlack m t) :=
  yields_next (h.onCtrl (fun _ k => ite k.count (refresh (k.each (fun _ _ k1 => ite k1.modThrottle k1)))))

theorem execPeerSlackExpiry {q sender : Nat} : s.Yields (Machine.execPeerSlackExpiry q sender t) := yields_next (ite h (refresh h.modThrottle))

theorem execRailGroupCurrentReading {f ma : Nat} : s.Yields (Machine.execRailGroupCurrentReading f ma t) := yields_next (refresh (setGroup h.setObj))

theorem execDroopEvent {c : Nat} : s.Yields (Machine.execDroopEvent c t) := yields_next (ite (refresh (modLimit (count (setObj h.setObj)))) h)

theorem execDroopExit {c : Nat} : s.Yields (Machine.execDroopExit c t) := yields_next (ite (refresh (setObj h.setObj)) h)

theorem execDroopHoldExpiry {c : Nat} : s.Yields (Machine.execDroopHoldExpiry c t) := yields_next (ite h.modLimit h)

theorem execDieSensorReading {c : Nat} {temp : ℤ} : s.Yields (Machine.execDieSensorReading c temp t) :=
  yields_next (ite (saveClose (reportFor (refresh (modLimit h.setObj)))) (refresh (modLimit h.setObj)))

theorem execHbmTempReading {h' : Nat} {temp : ℤ} : s.Yields (Machine.execHbmTempReading h' temp t) :=
  yields_next (ite (saveClose (reportFor (refresh (modThrottle h.setObj)))) (refresh (modThrottle h.setObj)))

theorem execDimmTempReading {ch : Nat} {temp : ℤ} : s.Yields (Machine.execDimmTempReading ch temp t) := by
  unfold Machine.execDimmTempReading
  dsimp only
  split
  · exact execMemoryUnitNotAnswering (reportFor (refresh (modThrottle h.setObj)))
  · exact yields_next (refresh (modThrottle h.setObj))

theorem execCoolantReading {inlet outlet : ℤ} {flow : Nat} : s.Yields (Machine.execCoolantReading inlet outlet flow t) :=
  yields_next (ite (saveClose (reportFor (modThrottle (setObj (setObj h.setObj))))) (modThrottle (setObj (setObj h.setObj))))

theorem execCoolantRestored : s.Yields (Machine.execCoolantRestored t) := yields_next (ite h.startUp h)

end

end State.KeepsCore
end Sys2Proof.Machine
end

section
/-! PROOF. What the operations of Dtl keep: the core of the state. -/

namespace Sys2Proof.Machine
namespace State.KeepsCore
section
variable {s t : State} (h : s.KeepsCore t)
include h

theorem execDtlMemRead {m : Nat} {d : DtlMsg} : s.Yields (Machine.execDtlMemRead m d t) := by
  unfold Machine.execDtlMemRead
  dsimp only
  refine yields_next (h.onDtl (fun _ k => ?_))
  split
  · exact k.dtlOut
  · split
    · exact k.dtlOut
    · split
      · exact dtlOut k.readMemRows
      · exact dtlOut (memoryFault k.readMemRows)
      · exact dtlOut k.readMemRows

theorem landDtl {m : Nat} {d : DtlMsg} : s.KeepsCore (t.landDtl m d).1 := by
  unfold State.landDtl
  split
  · split
    · exact pair (stepFault h.reportFor)
    · exact h.pair
  · exact h.pair

theorem execDtlMemWrite {m : Nat} {d : DtlMsg} : s.Yields (Machine.execDtlMemWrite m d t) :=
  yields_next (h.onDtl (fun _ k => ite k.dtlOut (ite k.dtlOut (ite (takeDtl k.landDtl) (dtlOut k.landDtl)))))

theorem execMemData {m : Nat} {d : DtlMsg} : s.Yields (Machine.execMemData m d t) := by
  unfold Machine.execMemData
  dsimp only
  refine yields_next (h.onDtl (fun _ k => ?_))
  split
  · exact k
  · split
    · exact k.freeReq
    · exact ite (each (modServer k.freeReq) (fun _ _ k1 => k1.sendReply)) (answerMerge (modServer k.freeReq))

theorem execMemAck {m : Nat} {d : DtlMsg} : s.Yields (Machine.execMemAck m d t) := by
  unfold Machine.execMemAck
  dsimp only
  refine yields_next (h.onDtl (fun _ k => ?_))
  split
  · exact k
  · exact ite k.freeReq (sendReply k.freeReq)

theorem execHbmRead {m : Nat} {d : DtlMsg} : s.Yields (Machine.execHbmRead m d t) := by
  unfold Machine.execHbmRead
  dsimp only
  split
  · exact yields_fault
  · refine yields_next (h.onDtl (fun _ k => ?_))
    split
    · exact k.dtlOut
    · split
      · exact dtlOut k.readMemRows
      · exact dtlOut k.readMemRows

theorem execHbmWrite {m : Nat} {d : DtlMsg} : s.Yields (Machine.execHbmWrite m d t) :=
  yields_ite (yields_fault) (yields_next (h.onDtl (fun _ k => ite k.dtlOut k.takeDtl)))

theorem execHbmData {m : Nat} {d : DtlMsg} : s.Yields (Machine.execHbmData m d t) := yields_next (h.onDtl (fun _ k => k))

theorem execHbmAck {m : Nat} {d : DtlMsg} : s.Yields (Machine.execHbmAck m d t) := yields_next (h.onDtl (fun _ k => k))

theorem execObjRsp {m : Nat} {d : DtlMsg} : s.Yields (Machine.execObjRsp m d t) := yields_next (h.onDtl (fun _ k => k))

theorem execDtlMgmt {m : Nat} {up : Bool} {d : DtlMsg} : s.Yields (Machine.execDtlMgmt m up d t) :=
  yields_next (h.onDtl (fun _ k => ite k.emit k.emit))

theorem execDtlEth {m : Nat} {up : Bool} {d : DtlMsg} : s.Yields (Machine.execDtlEth m up d t) :=
  yields_next (h.onDtl (fun _ k => ite k.emit (ite k.sendFrame k)))

theorem execCredit {m : Nat} {up : Bool} {d : DtlMsg} : s.Yields (Machine.execCredit m up d t) :=
  yields_next (h.onDtl (fun _ k => ite (sendAllWaiting k.modUcie) k.modUcie))

theorem toModule {m v : Nat} : s.KeepsCore (t.toModule m v) := setObj h.setObj

theorem retireUcie {m : Nat} : s.KeepsCore (t.retireUcie m) := by
  unfold State.retireUcie
  dsimp only
  split
  · exact h
  · split
    · refine recover (reportFor (each (each (modUcie h.toModule) (fun _ _ k => ?_)) (fun _ _ k => k.stepFault)))
      split
      · exact k.sendReply
      · exact each k.modServer fun _ _ k1 => k1.sendReply
    · refine each (reportFor (each (each (modUcie h.toModule) (fun _ _ k => ?_)) (fun _ _ k => k.stepFault))) fun _ _ k => k.askDtl
      split
      · exact k.sendReply
      · exact each k.modServer fun _ _ k1 => k1.sendReply

theorem execUcieAdapterRetryFailure {m : Nat} : s.Yields (Machine.execUcieAdapterRetryFailure m t) :=
  yields_next (ite (count (toModule (modUcie h.countStall))) h)

theorem execUcieRetrained {m : Nat} : s.Yields (Machine.execUcieRetrained m t) := yields_next (ite (sendAllWaiting h.toModule) h)

theorem execUcieRetrainTimeout {m : Nat} : s.Yields (Machine.execUcieRetrainTimeout m t) := yields_next (ite h.retireUcie h)

end

end State.KeepsCore
end Sys2Proof.Machine
end

section
/-! PROOF. What the operations of Clocks keep: the core of the state. -/

namespace Sys2Proof.Machine
namespace State.KeepsCore
section
variable {s t : State} (h : s.KeepsCore t)
include h

theorem condemnCluster {c cls : Nat} : s.KeepsCore (t.condemnCluster c cls) :=
  each (closeDomain (each (h.each (fun _ _ k => k.stepFault)) (fun _ _ k => k.shutTile))) (fun _ _ k => startRemaps (k.each
      (fun _ _ k1 => k1.dropTarget)))

theorem execFrequencyChange {c : Nat} : s.Yields (Machine.execFrequencyChange c t) :=
  yields_next (ite (ite h.setObj (refresh (setClock (count h.setObj)))) h)

theorem execClockFault {c : Nat} {isPhase : Bool} : s.Yields (Machine.execClockFault c isPhase t) := by
  unfold Machine.execClockFault
  extract_lets st s1 r s2 s3
  refine yields_next (ite ?_ h)
  have counted : s.KeepsCore r.1 := countEvent (setObj (count h.setClock))
  have ended : s.KeepsCore s3 := each counted.reportFor fun _ _ k => k.stepFault
  exact ite (condemnCluster (verdict ended.setObj)) ended

theorem execClockRelock {c : Nat} : s.Yields (Machine.execClockRelock c t) := yields_next (ite (retarget (setObj h.setClock)) h)

theorem stateOf {o : Out} (y : s.Yields o) : s.KeepsCore (Machine.stateOf t o) := by
  cases o with
  | next u => exact y u rfl
  | fault r => exact h
  | refused r => exact h

theorem loseUnit {u : PhyUnit} : s.KeepsCore (t.loseUnit u) := by
  unfold State.loseUnit
  extract_lets s1
  have counted : s.KeepsCore s1 := reportFor h.count
  cases u with
  | port k => exact ite counted counted.loseTo
  | stack k => exact stateOf counted counted.execMemoryUnitNotAnswering
  | channel c => exact stateOf counted counted.execMemoryUnitNotAnswering
  | ucie m => exact counted.retireUcie
  | tidePll => exact counted

theorem execReferenceLoss {units : List PhyUnit} : s.Yields (Machine.execReferenceLoss units t) :=
  yields_next (ite (saveClose (setObj (h.each (fun _ _ k => k.loseUnit)))) (h.each (fun _ _ k => k.loseUnit)))

theorem execTideSyncPulse {counter master : Nat} : s.Yields (Machine.execTideSyncPulse counter master t) := yields_next (ite h.count h)

theorem execPtpSync {port baseTide baseNs : Nat} {ratePpb : ℤ} : s.Yields (Machine.execPtpSync port baseTide baseNs ratePpb t) :=
  yields_next (ite (ite (setObj (setObj (setObj (setObj (setObj h.setObj))))) (setObj (setObj (setObj (setObj h.setObj))))) h)

theorem execDeviceIdWrite {sess v : Nat} : s.Yields (Machine.execDeviceIdWrite sess v t) := h.persistOut fun _ k => k.ruleDeviceId

end

end State.KeepsCore
end Sys2Proof.Machine
end

section
/-! PROOF. What the operations of Power keep: the core of the state. -/

namespace Sys2Proof.Machine
namespace State.KeepsCore
section
variable {s t : State} (h : s.KeepsCore t)
include h

theorem stampRail {r : Rail} : s.KeepsCore (t.stampRail r) := by
  unfold State.stampRail
  split
  · exact h
  · exact h
  · exact ite h.setObj h
  · exact h.setObj

theorem railReport {r : Rail} {status detail : Nat} : s.KeepsCore (t.railReport r status detail) := reportFor h.stampRail

theorem modPower {f : Power → Power} : s.KeepsCore (t.modPower f) := h.beside

theorem dropWake {c : Nat} : s.KeepsCore (t.dropWake c) := ite (nextWake h.modWakes) h.modWakes

theorem planeDark {c : Nat} : s.KeepsCore (t.planeDark c) :=
  ite h (refresh (condemnCluster (verdict (setObj (setClock (latchPlane (dropWake (setObj h.setPlane))))))))

theorem fieldLost {f : Nat} : s.KeepsCore (t.fieldLost f) :=
  refresh (reportFor (each (each (h.each (fun _ _ k => ite (beside k.shutTile) k)) (fun _ _ k => k.haltJob)) (fun _ _ k => k.retireTile)))

theorem fieldRailLost {r : Rail} : s.KeepsCore (t.fieldRailLost r) := by
  unfold State.fieldRailLost
  split
  · exact ite h (fieldLost h.setObj)
  · exact ite h (fieldLost h.setObj)
  · exact h

theorem railLost {r : Rail} : s.KeepsCore (t.railLost r) := by
  unfold State.railLost
  extract_lets off
  have lost : s.KeepsCore (off t) := ite h.setObj h
  cases r with
  | vl c => exact h.planeDark
  | va f => exact h.fieldRailLost
  | vf f => exact h.fieldRailLost
  | ve => exact lost.closeAndStart
  | vp => exact lost.closeAndStart
  | vr => exact lost.closeAndStart
  | vs k => exact lost.each fun _ _ k => ite k k.loseTo
  | vh k => exact stateOf lost lost.execMemoryUnitNotAnswering
  | dimm c => exact stateOf lost lost.execMemoryUnitNotAnswering

theorem disablePhase {r : Rail} {phase : Nat} : s.KeepsCore (t.disablePhase r phase) := by
  unfold State.disablePhase
  split
  · exact h.setObj
  · exact h.modPower
  · exact h.modPower
  · exact h.setObj

theorem phaseEffect {r : Rail} {n : Nat} : s.KeepsCore (t.phaseEffect r n) := by
  unfold State.phaseEffect
  split
  · exact ite h.planeDark h
  · exact ite h.fieldRailLost (ite h.setObj h)
  · exact ite h.fieldRailLost (ite h.setObj h)
  · exact ite h.railLost h

theorem execPhaseLost {rail : Rail} {phase : Nat} : s.Yields (Machine.execPhaseLost rail phase t) :=
  yields_next (ite h (refresh (phaseEffect (railReport h.disablePhase))))

theorem execPlaneShort {rail : Rail} : s.Yields (Machine.execPlaneShort rail t) :=
  yields_next (railLost (railReport (h.each (fun _ _ k => k.disablePhase))))

theorem execSenseFallback {rail : Rail} : s.Yields (Machine.execSenseFallback rail t) := by
  unfold Machine.execSenseFallback
  refine yields_next ?_
  split
  · exact h
  · split
    · exact railReport h.setObj
    · exact railReport h.modPower
    · exact railReport h.modPower
    · exact h

theorem keepSense {r : Rail} {localMv senseMv ma : Nat} : s.KeepsCore (t.keepSense r localMv senseMv ma) := by
  unfold State.keepSense
  split
  · exact setObj (setObj h.setObj)
  · exact h

theorem keepZ {r : Rail} {z : Nat} : s.KeepsCore (t.keepZ r z) := by
  unfold State.keepZ
  split
  · exact h.setObj
  · exact h

theorem judgeZ {r : Rail} {z : Nat} : s.KeepsCore (t.judgeZ r z) :=
  ite (railLost (ite (railReport (modPower h.modPower)) h.modPower)) (ite (railReport (modPower h.modPower)) h.modPower)

theorem execPathResistanceCheck {rail : Rail} {localMv senseMv ma : Nat} {senseOpen : Bool} : s.Yields
    (Machine.execPathResistanceCheck rail localMv senseMv ma senseOpen t) :=
  yields_next (ite h (ite (railLost (railReport h.keepSense)) (ite h.keepSense (judgeZ (keepZ h.keepSense)))))

theorem execCrackChainCheck {openFields : List Nat} : s.Yields (Machine.execCrackChainCheck openFields t) :=
  yields_next (h.each (fun _ _ k => ite (reportFor k.setObj) k.setObj))

theorem execInputSag {mv : Nat} : s.Yields (Machine.execInputSag mv t) :=
  yields_next (ite h (ite (modPower h.setObj) (ite h.setObj (modPower (count h.setObj)))))

theorem execSaveAndClose : s.Yields (Machine.execSaveAndClose t) := yields_next (ite h.saveClose h)

theorem execInputOvervoltage {mv : Nat} : s.Yields (Machine.execInputOvervoltage mv t) := yields_next (ite h (ite (saveClose h.setObj) h.setObj))

theorem execBusconvLost {i : Nat} : s.Yields (Machine.execBusconvLost i t) :=
  yields_next (ite h (ite (saveClose (reportFor h.setObj)) (ite (refresh (modPower (reportFor h.setObj))) (reportFor h.setObj))))

theorem execDimmFeedTrip {ch : Nat} : s.Yields (Machine.execDimmFeedTrip ch t) := execMemoryUnitNotAnswering (railReport (ite h.setObj h))

theorem execPowerOffNLow : s.Yields (Machine.execPowerOffNLow t) := yields_next (modPower h.saveClose)

theorem coldStart {inputMv : Nat} : s.KeepsCore (t.coldStart inputMv) := setObj h.startUp

theorem execPowerOffNRelease {inputMv : Nat} : s.Yields (Machine.execPowerOffNRelease inputMv t) :=
  yields_next (ite (coldStart h.modPower) h.modPower)

theorem execColdStart {inputMv : Nat} : s.Yields (Machine.execColdStart inputMv t) := yields_next (ite h.coldStart h)

end

end State.KeepsCore
end Sys2Proof.Machine
end

section
/-! PROOF. What the operations of Measure keep: the core of the state. -/

namespace Sys2Proof.Machine
namespace State.KeepsCore
section
variable {s t : State} (h : s.KeepsCore t)
include h

theorem extendMeas {k : Nat} {d : List Byte} : s.KeepsCore (t.extendMeas k d) := h.beside

theorem measureConfig : s.KeepsCore t.measureConfig := h.extendMeas

end

end State.KeepsCore
end Sys2Proof.Machine
end

section
/-! PROOF. What the operations of Mgmt keep: the core of the state. -/

namespace Sys2Proof.Machine
namespace State.KeepsCore
section
variable {s t : State} (h : s.KeepsCore t)
include h

theorem mgmtUp : s.KeepsCore t.mgmtUp := by
  unfold State.mgmtUp
  dsimp only
  split
  · exact emit h.beside
  · exact h.beside

end

end State.KeepsCore
end Sys2Proof.Machine
end

section
/-! PROOF. What the operations of Boot keep: the core of the state. -/

namespace Sys2Proof.Machine
namespace State.KeepsCore
section
variable {s t : State} (h : s.KeepsCore t)
include h

theorem modBoot {f : Boot → Boot} : s.KeepsCore (t.modBoot f) := h.beside

theorem stage0 {r : StageReport} : s.KeepsCore (t.stage0 r) := by
  unfold State.stage0
  split
  · exact h.failStart
  · exact h.failStart
  · exact h

theorem settleStart : s.KeepsCore t.settleStart := by
  unfold State.settleStart
  exact h.modBoot

theorem stage1 {r : StageReport} : s.KeepsCore (t.stage1 r) := by
  unfold State.stage1
  extract_lets sel first ok run s1 s2 b s3 s4
  refine ite (failStart (markImage h.markImage)) ?_
  have chosen : s.KeepsCore s2 := beside (ite h h.markImage)
  split
  · exact chosen.failStart
  · have measured : s.KeepsCore s4 := extendMeas (extendMeas (setObjs chosen.setObj))
    exact settleStart (mgmtUp (setObj measured.scanFlash))

theorem loadBaselines : s.KeepsCore t.loadBaselines := modPower (h.each (fun _ _ k => k.setObj))

theorem derivePlan : s.KeepsCore t.derivePlan :=
  each (beside (each h.deriveOffered (fun _ _ k => ite (setTileState k.modTile) k.setTileState))) fun _ _ k => k.chooseReplacement

theorem exclude {n : Nat} : s.KeepsCore (t.exclude n) := ite h (retireTile (ite h h.modTile))

theorem stage2 {r : StageReport} : s.KeepsCore (t.stage2 r) := by
  unfold State.stage2
  extract_lets s0 before s1 s2 s3 s4 s5
  have fused : s.KeepsCore s0 := loadBaselines (setObj h.setObj)
  split
  · exact fused.failStart
  · have chains : s.KeepsCore s1 := fused.each fun _ _ k => reportFor k.setObj
    have planned : s.KeepsCore s2 := ite chains chains.derivePlan
    have shown : s.KeepsCore s5 := setDetours (each (planned.each fun _ _ k => k.exclude) fun _ _ k => k.setTileState)
    exact extendMeas shown.modBoot

theorem noteTrained {cls : Nat} {force : Bool} {t' : Trained} : s.KeepsCore (t.noteTrained cls force t') := ite h.modBoot h

theorem unitLost {cls : Nat} {x : Suspect} : s.KeepsCore (t.unitLost cls x) := reportFor h.modBoot

theorem stage3 {r : StageReport} : s.KeepsCore (t.stage3 r) := by
  unfold State.stage3
  dsimp only
  split
  · exact failStart (each (h.each (fun _ _ k => k.noteTrained)) (fun _ _ k => ite (modUcie k.toModule) (unitLost k.toModule)))
  · exact each (h.each (fun _ _ k => k.noteTrained)) (fun _ _ k => ite (modUcie k.toModule) (unitLost k.toModule))

theorem stage4 {r : StageReport} : s.KeepsCore (t.stage4 r) := by
  unfold State.stage4
  dsimp only
  split
  · exact failStart (h.each (fun _ _ k => k.setObj))
  · split
    · exact each (h.each (fun _ _ k => k.setObj)) fun _ _ k => k.setObj
    · split
      · exact each (each (each (each (h.each (fun _ _ k => k.setObj)) (fun _ _ k => k.noteTrained)) (fun _ _ k => k.setObj))
            (fun _ _ k => unitLost k.setObj)) fun _ _ k => k.setObj
      · exact setObj (setObj (setObj (setObj (each (each (each (each (h.each (fun _ _ k => k.setObj)) (fun _ _ k => k.noteTrained))
            (fun _ _ k => k.setObj)) (fun _ _ k => unitLost k.setObj)) (fun _ _ k => k.setObj)))))

theorem setHbmCapacity : s.KeepsCore t.setHbmCapacity := h.setObj

theorem dropStack {h' : Nat} : s.KeepsCore (t.dropStack h') := setHbmCapacity (unitLost h.setObj)

theorem needModuleRange : s.KeepsCore t.needModuleRange := by
  unfold State.needModuleRange
  split
  · exact h.failStart
  · exact h

theorem stage5 {r : StageReport} : s.KeepsCore (t.stage5 r) :=
  needModuleRange (setHbmCapacity (each (h.each (fun _ _ k => k.noteTrained)) (fun _ _ k => ite (dropStack k.setObj) (setObj k.setObj))))

theorem stage6 {r : StageReport} : s.KeepsCore (t.stage6 r) := by
  unfold State.stage6
  extract_lets bad first rows again s1 s2 _ s3 s4 s5
  have retired : s.KeepsCore s2 := each (h.each fun _ _ k => k.retireRow) fun _ _ k => k.retireBank
  have cleared : s.KeepsCore s3 := beside (t := { s2 with hbm := [], ddr := [] }) retired.emptyMemories
  have counted : s.KeepsCore s4 := setObj cleared.setObj
  exact needModuleRange (counted.each fun _ _ k => k.dropStack)

theorem failTile {n : Nat} : s.KeepsCore (t.failTile n) := setDetours (retireTile (ite h h.modTile))

theorem reopenTile {n : Nat} : s.KeepsCore (t.reopenTile n) := writeDetours h.setTileState

theorem scrubAtStart {n : Nat} : s.KeepsCore (t.scrubAtStart n) := by
  unfold State.scrubAtStart
  dsimp only
  split
  · exact failScrub (checkScrub (setObj (modTile (h.each (fun _ _ k => k.spareRow)))))
  · exact checkScrub (setObj (modTile (h.each (fun _ _ k => k.spareRow))))

theorem stage7 {r : StageReport} : s.KeepsCore (t.stage7 r) := by
  unfold State.stage7
  extract_lets recovery before s1 s2 tested sp bad s3 s4 s5 s6 s7
  split
  · exact h.failStart
  · have started : s.KeepsCore s1 := h.each fun _ _ k => ite k (count (clusterOn k.retarget))
    have shut : s.KeepsCore s2 := started.each fun _ _ k => k.shutTile
    have spared : s.KeepsCore sp.1 := shut.foldl_fst fun _ _ k => k.spareRow
    have reopened : s.KeepsCore s4 := each (spared.each fun _ _ k => k.failTile) fun _ _ k => k.reopenTile
    have packed : s.KeepsCore s6 := foldl (reopened.each fun _ _ k => k.scrubAtStart) fun _ _ k => k.putHbm
    have counted : s.KeepsCore s7 := ite packed.count packed
    exact ite counted counted.extendMeas

theorem stage8 {r : StageReport} : s.KeepsCore (t.stage8 r) := each (h.each (fun _ _ k => k.noteTrained)) fun _ _ k => k.resetPort

theorem stage9 : s.KeepsCore t.stage9 := ite (each (modBoot h.setObj) (fun _ _ k => loseTo k.modPort)) (modBoot h.setObj)

theorem stage10 {r : StageReport} : s.KeepsCore (t.stage10 r) := by
  unfold State.stage10
  extract_lets s1 s2 s3 s4
  split
  · exact h.failStart
  · have parts : s.KeepsCore s1 := h.each fun _ _ k => ite k.rulePartitionApply k.reportFor
    have applied : s.KeepsCore s3 := ruleExpertApply (parts.each fun _ _ k => k.rulePoolApply)
    have measured : s.KeepsCore s4 := ite applied applied.measureConfig
    exact ite measured (measured.each fun _ _ k => ruleSvc k.ruleSvc)

theorem runLatched : s.KeepsCore t.runLatched := by
  unfold State.runLatched
  dsimp only
  split
  · exact startUp h.beside
  · exact startUp h.beside
  · exact recover h.beside
  · exact h.beside

theorem reloadJobs : s.KeepsCore t.reloadJobs := h.each fun _ _ k => k.reloadJob

theorem ready : s.KeepsCore t.ready := by
  unfold State.ready
  dsimp only
  refine runLatched (emit ?_)
  split
  · refine reloadJobs (toRouted ?_)
    split
    · exact reportFor (beside (setObj (setObj (setObj (ite h.pushRecord h)))))
    · exact beside (setObj (setObj (setObj (ite h.pushRecord h))))
  · split
    · exact reportFor (beside (setObj (setObj (setObj (ite h.pushRecord h)))))
    · exact beside (setObj (setObj (setObj (ite h.pushRecord h))))

theorem stageWork {stage : Nat} {r : StageReport} : s.KeepsCore (t.stageWork stage r) := by
  unfold State.stageWork
  split
  · exact h.stage0
  · exact h.stage1
  · exact h.stage2
  · exact h.stage3
  · exact h.stage4
  · exact h.stage5
  · exact h.stage6
  · exact h.stage7
  · exact h.stage8
  · exact h.stage9
  · exact h.stage10
  · exact h.ready

theorem endStage {r : StageReport} : s.KeepsCore (t.endStage r) := ite (modBoot (setObj (setObj (stageWork h.setObj)))) (stageWork h.setObj)

theorem execStageEnd {r : StageReport} : s.Yields (Machine.execStageEnd r t) := yields_next (ite h.endStage h)

theorem execStageTimeout {unit : StageUnit} : s.Yields (Machine.execStageTimeout unit t) := yields_next (ite h.failStart h)

theorem execTopologyWaitExpiry : s.Yields (Machine.execTopologyWaitExpiry t) := yields_next (ite h.endStage h)

theorem execNextAttempt : s.Yields (Machine.execNextAttempt t) := by
  unfold Machine.execNextAttempt
  refine yields_next ?_
  split
  · exact ite h h.startUp
  · exact h

theorem ruleStartCommand {sess v : Nat} : s.KeepsCore (Machine.ruleStartCommand sess v t).1 := by
  unfold Machine.ruleStartCommand
  dsimp only
  split
  · exact h.pair
  · split
    · exact pair h.startUp
    · exact pair h.startUp
    · exact pair h.beside
    · exact pair h.beside
    · exact ite_fst (pair (startUp (setObj h.setObj))) h.pair

theorem execStartCommandWarm {sess : Nat} : s.Yields (Machine.execStartCommandWarm sess t) := h.commandOut fun _ k => k.ruleStartCommand

theorem execStartCommandCold {sess : Nat} : s.Yields (Machine.execStartCommandCold sess t) := h.commandOut fun _ k => k.ruleStartCommand

theorem ruleTrainDiscard {v : Nat} : s.KeepsCore (Machine.ruleTrainDiscard v t).1 := ite_fst (pair h.modBoot) h.pair

theorem execTrainDiscard {sess : Nat} : s.Yields (Machine.execTrainDiscard sess t) := h.commandOut fun _ k => k.ruleTrainDiscard

theorem ruleMemtestNext {v : Nat} : s.KeepsCore (Machine.ruleMemtestNext v t).1 := ite_fst (pair h.modBoot) h.pair

theorem execMemtestNext {sess mode : Nat} : s.Yields (Machine.execMemtestNext sess mode t) := h.commandOut fun _ k => k.ruleMemtestNext

theorem ruleTestSession {sess v : Nat} : s.KeepsCore (Machine.ruleTestSession sess v t).1 := by
  unfold Machine.ruleTestSession
  dsimp only
  split
  · exact ite_fst h.pair (ite_fst (pair h.beside) h.pair)
  · split
    · split
      · exact ite_fst (pair h.beside) h.pair
      · exact ite_fst h.pair h.pair
      · exact h.pair
    · exact h.pair

theorem execTestSessionEnter {sess : Nat} : s.Yields (Machine.execTestSessionEnter sess t) := h.commandOut fun _ k => k.ruleTestSession

theorem execTestSessionLeave {sess : Nat} : s.Yields (Machine.execTestSessionLeave sess t) := h.commandOut fun _ k => k.ruleTestSession

end

end State.KeepsCore
end Sys2Proof.Machine
end

section
/-! PROOF. What the operations of Faults keep: the core of the state. -/

namespace Sys2Proof.Machine
namespace State.KeepsCore
section
variable {s t : State} (h : s.KeepsCore t)
include h

theorem setLevee {e : Nat} {r : Option LeveeRec} : s.KeepsCore (t.setLevee e r) := h.beside

theorem leveeNotice {e : Nat} : s.KeepsCore (t.leveeNotice e) := by
  unfold State.leveeNotice
  dsimp only
  split
  · exact h
  · exact event h.setLevee

theorem joinRecord {e : Nat} {r : Report} {suspect : Nat} : s.KeepsCore (t.joinRecord e r suspect) := by
  unfold State.joinRecord
  dsimp only
  split
  · exact ite (count h.setLevee) h.setLevee
  · exact leveeNotice h.setLevee

theorem execLeveeReport {r : Report} : s.Yields (Machine.execLeveeReport r t) := yields_next (ite (joinRecord (count h.count)) (joinRecord h.count))

theorem execStormClear {entry : Nat} : s.Yields (Machine.execStormClear entry t) := by
  unfold Machine.execStormClear
  refine yields_next ?_
  split
  · exact ite h.setLevee h
  · exact h

theorem execLeveeNotice {entry : Nat} : s.Yields (Machine.execLeveeNotice entry t) := by
  unfold Machine.execLeveeNotice
  refine yields_next ?_
  split
  · exact ite h.leveeNotice h
  · exact h

theorem execLeveeEntryFree {entry : Nat} : s.Yields (Machine.execLeveeEntryFree entry t) := by
  unfold Machine.execLeveeEntryFree
  refine yields_next ?_
  split
  · exact ite h.setLevee h
  · exact h

theorem execEventLevee {m : Nat} {d : DtlMsg} : s.Yields (Machine.execEventLevee m d t) := by
  unfold Machine.execEventLevee
  dsimp only
  refine yields_next (h.onDtl (fun _ k => ?_))
  split
  · exact k.beside
  · exact k

theorem execEventPortState {m : Nat} {d : DtlMsg} : s.Yields (Machine.execEventPortState m d t) := yields_next (h.onDtl (fun _ k => k))

theorem keepHistory : s.KeepsCore t.keepHistory := h.beside

theorem execPoweredSecond : s.Yields (Machine.execPoweredSecond t) :=
  yields_next (ite h (ite (beside (keepHistory (beside h.count))) (keepHistory (beside h.count))))

theorem ruleHistoryClear {code : Nat} : s.KeepsCore (Machine.ruleHistoryClear code t).1 := ite_fst (pair h.beside) h.pair

theorem execHistoryClear {sess code : Nat} : s.Yields (Machine.execHistoryClear sess code t) := h.commandOut fun _ k => k.ruleHistoryClear

theorem answerHeld {n : Nat} : s.KeepsCore (t.answerHeld n) := by
  unfold State.answerHeld
  exact modTile (foldl h fun _ _ k => k.sendReply)

theorem dropTracks {n : Nat} : s.KeepsCore (t.dropTracks n) := h.modMov

theorem closureRetires {n : Nat} : s.KeepsCore (t.closureRetires n) := ite h.retireTile h

theorem answerForwards : s.KeepsCore t.answerForwards := h.each (fun _ _ k => modPort (foldl k (fun _ _ k1 => k1.sendReply)))

theorem endClosure {d : Domain} : s.KeepsCore (t.endClosure d) := by
  unfold State.endClosure
  dsimp only
  split
  · exact each (each (h.each (fun _ _ k => k.answerHeld)) (fun _ _ k => k.dropTracks)) fun _ _ k => k.closureRetires
  · exact each (each (h.each (fun _ _ k => k.answerHeld)) (fun _ _ k => k.dropTracks)) fun _ _ k => k.closureRetires
  · exact h.each fun _ _ k => k.answerHeld
  · exact answerForwards (h.each (fun _ _ k => k.answerHeld))

theorem quiesce : s.KeepsCore t.quiesce := recoveryDtl (beside (each h.drainBuffers (fun _ _ k => k.leveeNotice)))

theorem execClosureDrainExpiry {d : Domain} : s.Yields (Machine.execClosureDrainExpiry d t) := by
  unfold Machine.execClosureDrainExpiry
  dsimp only
  refine yields_next ?_
  split
  · exact ite (quiesce (endClosure h.beside)) (endClosure h.beside)
  · exact h

theorem askRecovery {cause : Nat} : s.KeepsCore (t.askRecovery cause) := recover (beside h.recoveryDtl)

theorem watchdogRow {q : Nat} {j : Job} {ok : Bool} : s.KeepsCore (t.watchdogRow q j ok) :=
  ite h.askRecovery (ite (count (modJob h.abandonStep)) (ite h.haltJob h.endNow))

theorem execWatchdogCheck {q : Nat} {stateOk : Bool} : s.Yields (Machine.execWatchdogCheck q stateOk t) := by
  unfold Machine.execWatchdogCheck
  refine yields_next ?_
  split
  · exact h
  · exact ite h (ite h.endNow (ite h.watchdogRow h))

theorem execLocalDrainTimeout {q : Nat} : s.Yields (Machine.execLocalDrainTimeout q t) := yields_next (ite h.askRecovery h)

theorem rollBack {q step cls : Nat} {j : Job} : s.KeepsCore (t.rollBack q step cls j) :=
  abandonStep (setJobState (modJob (readEntry (dispose (setObj (repinLanes (unpinLanes (discardNext h.dropTwin))))))))

theorem execAbandon {m : CtrlMsg} : s.Yields (Machine.execAbandon m t) := by
  unfold Machine.execAbandon
  dsimp only
  refine yields_next (h.onCtrl (fun _ k => ?_))
  split
  · exact k
  · split
    · exact k
    · exact ite k.rollBack (ite k.abandonStep (ite k.haltJob k))

theorem execDrained {m : CtrlMsg} : s.Yields (Machine.execDrained m t) := by
  unfold Machine.execDrained
  refine yields_next (h.onCtrl (fun _ k => ?_))
  split
  · exact k
  · exact ite (tryRestore k.modJob) k

theorem execDrainedMissingTimeout {q : Nat} : s.Yields (Machine.execDrainedMissingTimeout q t) := by
  unfold Machine.execDrainedMissingTimeout
  refine yields_next ?_
  split
  · exact h
  · exact ite h.haltJob h

theorem execJobHalt {m : CtrlMsg} : s.Yields (Machine.execJobHalt m t) := by
  unfold Machine.execJobHalt
  refine yields_next (h.onCtrl (fun _ k => ?_))
  split
  · exact k
  · exact k.haltJob

theorem fenceAsked {q device : Nat} : s.KeepsCore (t.fenceAsked q device) := h.each fun _ _ k => k.takeDstatus

theorem fenceQueued {q device : Nat} : s.KeepsCore (t.fenceQueued q device) := foldl h (fun _ _ k => control k.modDisp)

theorem execClosing {m : CtrlMsg} : s.Yields (Machine.execClosing m t) :=
  yields_next (h.onCtrl (fun _ k => each (beside (k.each (fun _ _ k1 => k1.haltJob))) (fun _ _ k1 => fenceQueued k1.fenceAsked)))

theorem execRecovered {m : CtrlMsg} : s.Yields (Machine.execRecovered m t) := yields_next (h.onCtrl (fun _ k => k.beside))

theorem ruleRecoveryReset {sess v : Nat} : s.KeepsCore (Machine.ruleRecoveryReset sess v t).1 := by
  unfold Machine.ruleRecoveryReset
  split
  · exact h.pair
  · split
    · exact pair h.recover
    · exact pair h.recover
    · exact h.pair
    · exact pair h.beside
    · exact h.pair

theorem execRecoveryResetCommand {sess : Nat} : s.Yields (Machine.execRecoveryResetCommand sess t) := h.commandOut fun _ k => k.ruleRecoveryReset

theorem execRecoverReq {m : Nat} {d : DtlMsg} : s.Yields (Machine.execRecoverReq m d t) :=
  yields_next (h.onDtl (fun _ k => ite k.beside (ite k.recover k)))

theorem execCloseGo {m : Nat} {d : DtlMsg} : s.Yields (Machine.execCloseGo m d t) :=
  yields_next (h.onDtl (fun _ k => ite (closeDomain k.freezeDevice) k))

theorem execQuiesced {m : Nat} {d : DtlMsg} : s.Yields (Machine.execQuiesced m d t) := yields_next (h.onDtl (fun _ k => ite k.recoveryDtl k))

theorem undoMove {q : Nat} {m : PageMove} : s.KeepsCore (t.undoMove q m) := by
  unfold State.undoMove
  split
  · exact h.freePage
  · exact h

theorem logicReset : s.KeepsCore t.logicReset := by
  unfold State.logicReset
  extract_lets stopped s1 s2 s3 held s4
  have undone : s.KeepsCore s1 := each h.drainBuffers fun _ _ k => k.foldl fun _ _ k' => k'.undoMove
  have offered : s.KeepsCore s2 := undone.each fun _ _ k => k.setTileState
  clear_value s2
  have dropped : s.KeepsCore s3 := beside (t := { s2 with regs := s2.regs.filter survivesRestart }) offered.dropRegs
  have marked : s.KeepsCore s4 := dropped.each fun _ _ k => k.setObj
  exact setObj marked.beside

theorem execRestart {m : Nat} {d : DtlMsg} : s.Yields (Machine.execRestart m d t) := yields_next (h.onDtl (fun _ k => ite k.logicReset k))

theorem execRemapped {m : Nat} {d : DtlMsg} : s.Yields (Machine.execRemapped m d t) := yields_next (h.onDtl (fun _ k => k))

end

end State.KeepsCore
end Sys2Proof.Machine
end

section
/-! PROOF. What the operations of Silent keep: the core of the state. -/

namespace Sys2Proof.Machine
namespace State.KeepsCore
section
variable {s t : State} (h : s.KeepsCore t)
include h

theorem showPackage : s.KeepsCore t.showPackage := setObj h.setObj

theorem rulePackageApply {flashOk : Bool} {v : Nat} : s.KeepsCore (Machine.rulePackageApply flashOk v t).1 := by
  unfold Machine.rulePackageApply
  split
  · exact h.pair
  · split
    · exact h.pair
    · exact ite_fst (pair h.setObj) (ite_fst (pair h.reportFor) (pair (setObj (showPackage h.beside))))

theorem execPackageApply {sess : Nat} {flashOk : Bool} : s.Yields (Machine.execPackageApply sess flashOk t) :=
  h.commandOut fun _ k => k.rulePackageApply

theorem beginChunk {n c : Nat} : s.KeepsCore (t.beginChunk n c) := by
  unfold State.beginChunk
  extract_lets b d g p w rows cmds k s1
  have saved : s.KeepsCore s1 := h.foldl fun _ _ k' => k'.setHbm_put
  exact saved.beside

theorem endInsert {q : Nat} : s.KeepsCore (t.endInsert q) := ite (pollEntry h.modJob) h

theorem execScourChunkStart {n : Nat} : s.Yields (Machine.execScourChunkStart n t) := by
  unfold Machine.execScourChunkStart
  extract_lets g
  refine yields_next (ite h (ite (ite h h.endInsert) (ite h (ite h.wakeRequest ?_))))
  split
  · exact h.beginChunk
  · exact h.endInsert

theorem execScourInsert {q : Nat} : s.Yields (Machine.execScourInsert q t) := yields_next (ite (count h.modJob) h)

theorem execScourChunkTimeout {n : Nat} : s.Yields (Machine.execScourChunkTimeout n t) := by
  unfold Machine.execScourChunkTimeout
  refine yields_next ?_
  split
  · exact ite h.beside h
  · exact h

theorem restoreWindow {k : Chunk} : s.KeepsCore (t.restoreWindow k) := h.modTile

theorem advancePass {k : Chunk} : s.KeepsCore (t.advancePass k) := ite h (ite h.beside (setObj (beside h.beside)))

theorem scourFail {k : Chunk} {crc : Nat} : s.KeepsCore (t.scourFail k crc) := condemnTile (writeUfr (reportFor (count h.count)))

theorem queueMarch {n : Nat} {rows : List (Nat × Nat)} : s.KeepsCore (t.queueMarch n rows).1 :=
  foldl_fst h fun _ _ k => ite_fst k (ite_fst (pair k.queueSparing) k)

theorem chunkOutcome {k : Chunk} {crc : Nat} {rawBad : List (Nat × Nat)} : s.KeepsCore (t.chunkOutcome k crc rawBad) := by
  unfold State.chunkOutcome
  dsimp only
  split
  · exact ite (advancePass (count h.queueMarch)) (scourFail h.queueMarch)
  · exact ite (ite (silentEvent (advancePass h.count)) (advancePass h.count)) (ite h.scourFail (count h.beside))

theorem execScourChunkComplete {n crc : Nat} {rawBad : List (Nat × Nat)} {restoreOk : Bool} : s.Yields
    (Machine.execScourChunkComplete n crc rawBad restoreOk t) := by
  unfold Machine.execScourChunkComplete
  dsimp only
  refine yields_next ?_
  split
  · exact h
  · refine endInsert ?_
    split
    · exact scourFail (restoreWindow h.beside)
    · exact ite (count (restoreWindow h.beside)) (chunkOutcome (restoreWindow h.beside))

theorem replayTwin {q : Nat} {p t' : List (BitVec 64)} : s.KeepsCore (t.replayTwin q p t') := modJob h.abandonStep

theorem suspectTwin {q : Nat} {t' : TwinRun} {p d : List (BitVec 64)} : s.KeepsCore (t.suspectTwin q t' p d) :=
  modJob (twinUfr (silentEvent (silentEvent h.discardRun)))

theorem execTwinCompare {q : Nat} : s.Yields (Machine.execTwinCompare q t) := by
  unfold Machine.execTwinCompare
  dsimp only
  refine yields_next ?_
  split
  · exact h
  · split
    · exact h
    · split
      · exact h
      · split
        · exact ite (proceed (discardRun h.count)) (discardRun h.count)
        · exact ite (replayTwin (count h.count)) (suspectTwin (count h.count))

theorem execTwinLimitExpiry {q : Nat} : s.Yields (Machine.execTwinLimitExpiry q t) := by
  unfold Machine.execTwinLimitExpiry
  refine yields_next ?_
  split
  · exact ite (proceed h.dropTwin) h
  · exact h

theorem leveeUfr {w : Nat} : s.KeepsCore (t.leveeUfr w) := h.writeUfr

theorem ruleUfrSelect {v : Nat} : s.KeepsCore (Machine.ruleUfrSelect v t).1 := by
  unfold Machine.ruleUfrSelect
  split
  · split
    · exact pair h.leveeUfr
    · exact h.pair
  · exact ite_fst (pair h.beside) h.pair

theorem execUfrSelect {sess v : Nat} : s.Yields (Machine.execUfrSelect sess v t) := h.commandOut fun _ k => k.ruleUfrSelect

end

end State.KeepsCore
end Sys2Proof.Machine
end

section
/-! PROOF. What the operations of Security keep: the core of the state. -/

namespace Sys2Proof.Machine
namespace State.KeepsCore
section
variable {s t : State} (h : s.KeepsCore t)
include h

theorem endSessions {p : Session → Bool} : s.KeepsCore (t.endSessions p) := ite (beside h.beside) h.beside

theorem installImage {i : Nat} {b : List Byte} : s.KeepsCore (t.installImage i b) := setObj (setObj (setObj h.beside))

theorem ruleImageApply {flashOk : Bool} {v : Nat} : s.KeepsCore (Machine.ruleImageApply flashOk v t).1 := by
  unfold Machine.ruleImageApply
  dsimp only
  split
  · exact h.pair
  · split
    · exact h.pair
    · exact ite_fst (pair h.setObj) (ite_fst (pair h.reportFor) (pair (installImage h.storeRecord)))

theorem execImageApply {sess : Nat} {flashOk : Bool} : s.Yields (Machine.execImageApply sess flashOk t) := h.commandOut fun _ k => k.ruleImageApply

theorem ruleSvnCommit {v : Nat} : s.KeepsCore (Machine.ruleSvnCommit v t).1 := ite_fst (pair h.setObj) h.pair

theorem execSvnCommit {sess v : Nat} : s.Yields (Machine.execSvnCommit sess v t) := h.commandOut fun _ k => k.ruleSvnCommit

theorem ruleCredentialSet {v : Nat} : s.KeepsCore (Machine.ruleCredentialSet v t).1 :=
  ite_fst h.pair (ite_fst h.pair (pair (measureConfig (beside h.endSessions))))

theorem execCredentialSet {sess : Nat} {v : BitVec 320} : s.Yields (Machine.execCredentialSet sess v t) :=
  h.commandOut fun _ k => k.ruleCredentialSet

theorem ruleAttest {b : List Byte} : s.KeepsCore (Machine.ruleAttest b t).1 := by
  unfold Machine.ruleAttest
  split
  · exact h.pair
  · exact ite_fst h.pair (ite_fst h.pair (pair h.beside))

theorem execAttestRequest {sess : Nat} {value : List Byte} : s.Yields (Machine.execAttestRequest sess value t) :=
  h.commandOut fun _ k => k.ruleAttest

theorem execAttestSigned : s.Yields (Machine.execAttestSigned t) := by
  unfold Machine.execAttestSigned
  dsimp only
  refine yields_next ?_
  split
  · exact h
  · exact ite (setObj (count h.beside)) (count h.beside)

theorem ruleTlsKeygen {v : Nat} : s.KeepsCore (Machine.ruleTlsKeygen v t).1 := ite_fst (pair h.beside) h.pair

theorem execTlsKeygen {sess : Nat} : s.Yields (Machine.execTlsKeygen sess t) := h.commandOut fun _ k => k.ruleTlsKeygen

theorem useChain {chain : List Byte} {pending : Bool} : s.KeepsCore (t.useChain chain pending) := measureConfig h.beside

theorem ruleTlsChain {chain : List Byte} : s.KeepsCore (Machine.ruleTlsChain chain t).1 := by
  unfold Machine.ruleTlsChain
  split
  · exact h.pair
  · split
    · exact h.pair
    · exact ite_fst (pair h.useChain) (ite_fst (pair h.useChain) h.pair)

theorem execTlsChainWrite {sess : Nat} {chain : List Byte} : s.Yields (Machine.execTlsChainWrite sess chain t) :=
  h.persistOut fun _ k => k.ruleTlsChain

theorem ruleDebugRead {v : Nat} : s.KeepsCore (Machine.ruleDebugRead v t).1 := ite_fst h.pair (ite_fst h.pair (pair (reportFor h.beside)))

theorem execDebugRead {sess : Nat} {v : BitVec 64} : s.Yields (Machine.execDebugRead sess v t) := h.commandOut fun _ k => k.ruleDebugRead

theorem releaseHeld {ns : List Nat} : s.KeepsCore (t.releaseHeld ns) := each h.beside fun _ _ k => k.setObj

theorem ruleDebugRelease {v : Nat} : s.KeepsCore (Machine.ruleDebugRelease v t).1 :=
  ite_fst (pair h.releaseHeld) (ite_fst h.pair (pair h.releaseHeld))

theorem execDebugRelease {sess n : Nat} : s.Yields (Machine.execDebugRelease sess n t) := h.commandOut fun _ k => k.ruleDebugRelease

theorem execDebugHoldExpiry : s.Yields (Machine.execDebugHoldExpiry t) := yields_next (ite h.releaseHeld h)

theorem unlockPort : s.KeepsCore t.unlockPort :=
  setObj (beside (each (beside h.emptyMemories) fun _ _ k => ite (passScrub (checkScrub k.wipeTile)) (checkScrub k.wipeTile)))

theorem ruleUnlock {token : List Byte} : s.KeepsCore (Machine.ruleUnlock token t).1 := by
  unfold Machine.ruleUnlock
  split
  · exact h.pair
  · split
    · exact h.pair
    · exact ite_fst (pair h.unlockPort) h.pair

theorem execUnlockToken {sess : Nat} {token : List Byte} : s.Yields (Machine.execUnlockToken sess token t) := by
  unfold Machine.execUnlockToken
  refine yields_next ?_
  split
  · exact h.answer
  · exact answer h.ruleUnlock

end

end State.KeepsCore
end Sys2Proof.Machine
end

section
/-! PROOF. What the operations of Dictionary keep: the core of the state. -/

namespace Sys2Proof.Machine
namespace State.KeepsCore
section
variable {s t : State} (h : s.KeepsCore t)
include h

theorem fetch {index sub : Nat} {d : ObjDesc} : s.KeepsCore (t.fetch index sub d).1 := ite_fst (pair h.draw) (ite_fst (pair (beside h.draw)) h.pair)

theorem cleared {index sub : Nat} {d : ObjDesc} : s.KeepsCore (t.cleared index sub d) := h.setObjs

theorem readValue {sess index sub : Nat} {peek : Bool} : s.KeepsCore (t.readValue sess index sub peek).1 := by
  unfold State.readValue
  dsimp only
  split
  · exact h.pair
  · exact h.pair
  · exact pair (ite (cleared h.fetch) h.fetch)

theorem ruleContextOp {v : Nat} : s.KeepsCore (Machine.ruleContextOp v t).1 := by
  unfold Machine.ruleContextOp
  split
  · exact h.ruleCtxOpen
  · exact h.ruleCtxClose
  · exact h.ruleCtxSetPosition
  · exact h.ruleCtxSetPriority
  · exact h.ruleCtxPin
  · exact h.ruleCtxUnpin
  · exact h.ruleCtxPromote
  · exact h.ruleCtxDemote
  · exact h.ruleCtxRead
  · exact h.pair

theorem ruleSessionClose {sess v : Nat} : s.KeepsCore (Machine.ruleSessionClose sess v t).1 := ite_fst h.pair (ite_fst h.pair (pair h.endSessions))

theorem ruleModule {sess index sub v : Nat} {value : List Byte} : s.KeepsCore (Machine.ruleModule sess index sub v value t).1 := by
  unfold Machine.ruleModule
  exact ite_fst h.ruleTestSession <| ite_fst h.ruleSessionClose <| ite_fst h.ruleContextOp <| ite_fst h.ruleExpertApply <|
    ite_fst h.ruleHistoryClear <| ite_fst h.ruleRecoveryReset <| ite_fst h.rulePackageApply <| ite_fst h.ruleUfrSelect <|
    ite_fst h.ruleStartCommand <| ite_fst h.ruleTrainDiscard <| ite_fst h.ruleMemtestNext <| ite_fst h.ruleImageApply <|
    ite_fst (ite_fst h.ruleSvnCommit h.ruleCredentialSet) <| ite_fst h.ruleAttest <| ite_fst h.ruleTlsKeygen <|
    ite_fst (ite_fst h.ruleDebugRead h.ruleDebugRelease) h

theorem ruleCommand {sess index sub v : Nat} {value : List Byte} : s.KeepsCore (Machine.ruleCommand sess index sub v value t).1 := by
  unfold Machine.ruleCommand
  split
  · exact h.ruleGaugeSet
  · split
    · exact h.rulePoolApply
    · split
      · exact h.rulePortReset
      · split
        · exact h.rulePartitionApply
        · split
          · exact ite_fst h.ruleJobLoad (ite_fst h.ruleJobEnd (ite_fst h.ruleJobPreempt h.ruleJobResume))
          · exact ite_fst h.ruleOutsideDeclare (ite_fst h.ruleSvc h.ruleModule)

theorem choosePtp : s.KeepsCore t.choosePtp := by
  unfold State.choosePtp
  split
  · exact setObj h.setObj
  · exact ite h (setObj h.setObj)

theorem afterWrite {index sub : Nat} : s.KeepsCore (t.afterWrite index sub) := ite h.retime (ite h.choosePtp (ite h.measureConfig (ite h.pagerRun h)))

theorem putValue {index sub : Nat} {d : ObjDesc} {value : List Byte} : s.KeepsCore (t.putValue index sub d value) :=
  afterWrite (ite (setObjs h.keepInForce) (setObj h.keepInForce))

theorem rwpRule {index sub : Nat} {d : ObjDesc} {value : List Byte} : s.KeepsCore (t.rwpRule index sub d value).1 :=
  ite_fst h.ruleDeviceId (ite_fst h.ruleTlsChain (pair h.putValue))

theorem persist {index sub : Nat} {d : ObjDesc} {value : List Byte} : s.KeepsCore (t.persist index sub d value).1 :=
  ite_fst h.rwpRule (ite_fst h.storeRecord (rwpRule h.storeRecord))

theorem stage {index : Nat} {value : List Byte} : s.KeepsCore (t.stage index value).1 :=
  ite_fst (pair (setObj h.beside)) (ite_fst (pair (setObj h.beside)) h.ruleUnlock)

theorem writeValue {sess index sub ty : Nat} {value : List Byte} : s.KeepsCore (t.writeValue sess index sub ty value).1 := by
  unfold State.writeValue
  split
  · exact h.pair
  · split
    · exact h.command (fun _ k => ite_fst k.pair k.ruleCommand)
    · split
      · exact h.pair
      · exact ite_fst h.pair (ite_fst h.stage (ite_fst h.persist (pair h.putValue)))

theorem execObjectWrite {sess index sub ty : Nat} {value : List Byte} : s.Yields (Machine.execObjectWrite sess index sub ty value t) :=
  yields_next (answer h.writeValue)

theorem execSessionCloseCommand {sess target : Nat} : s.Yields (Machine.execSessionCloseCommand sess target t) :=
  h.commandOut fun _ k => k.ruleSessionClose

theorem objRequest {index sub arg : Nat} {value : List Byte} : s.KeepsCore (t.objRequest index sub arg value).1 := by
  unfold State.objRequest
  split
  · exact h
  · split
    · exact ite_fst h (pair (ite (cleared h.fetch) h.fetch))
    · split
      · extract_lets v r
        have ruled : s.KeepsCore r.1 := ite_fst h.ruleCommand (ite_fst h.stage h.putValue)
        exact ite_fst h (ite_fst h (pair (ite ruled.setObj ruled)))
      · exact h

theorem execObjReq {m : Nat} {d : DtlMsg} : s.Yields (Machine.execObjReq m d t) := yields_next (h.onDtl (fun _ k => dtlOut k.objRequest))

end

end State.KeepsCore
end Sys2Proof.Machine
end

section
/-! PROOF. What the operations of Bamurn keep: the core of the state. -/

namespace Sys2Proof.Machine
namespace State.KeepsCore
section
variable {s t : State} (h : s.KeepsCore t)
include h

theorem sendMgmt {k dst : Nat} {isLocal : Bool} {b : List Byte} : s.KeepsCore (t.sendMgmt k dst isLocal b) := h.sendUnit

theorem sendOn {p : Path} {b : List Byte} : s.KeepsCore (t.sendOn p b) := by
  unfold State.sendOn
  split
  · exact count h.emit
  · exact h.emit
  · split
    · exact h.sendMgmt
    · split
      · exact h.sendMgmt
      · exact h

theorem heard {p : Path} : s.KeepsCore (t.heard p) := by
  unfold State.heard
  split
  · exact h.count
  · exact h

theorem discardMessage : s.KeepsCore t.discardMessage := h.count

theorem modSession {n : Nat} {f : Session → Session} : s.KeepsCore (t.modSession n f) := h.beside

theorem openSession {p : Path} {h' : Nat} {body : List Byte} : s.KeepsCore (t.openSession p h' body).1 :=
  ite_fst h.pair (ite_fst h.pair (ite_fst h.pair (pair (beside (draw h.draw)))))

theorem wrongProof {cred : Nat} : s.KeepsCore (t.wrongProof cred) := ite (beside h.count) (measureConfig (count (beside h.count)))

theorem freeSession {n : Nat} : s.KeepsCore (t.freeSession n) := h.beside

theorem authenticate {x : Session} {h' : Nat} {body : List Byte} : s.KeepsCore (t.authenticate x h' body).1 := by
  unfold State.authenticate
  dsimp only
  split
  · exact pair h.freeSession
  · exact ite_fst h.pair (ite_fst (pair h.freeSession) (ite_fst (pair (wrongProof h.freeSession)) (pair h.modSession)))

theorem readItem {sess : Nat} {it : Nat × List Byte} : s.KeepsCore (t.readItem sess it).1 :=
  ite_fst h.pair (ite_fst h.pair (ite_fst h.pair (pair h.readValue)))

theorem writeItem {sess : Nat} {it : Nat × List Byte} : s.KeepsCore (t.writeItem sess it).1 := ite_fst h.pair (pair h.writeValue)

theorem describeItem {_sess : Nat} {it : Nat × List Byte} : s.KeepsCore (t.describeItem _sess it).1 := ite_fst h.pair h.pair

theorem runItems {f : State → Nat × List Byte → State × Nat × List Byte} (k : ∀ u x, s.KeepsCore u → s.KeepsCore (f u x).1) {stop halted : Bool}
    {items : List (Nat × List Byte)} : s.KeepsCore (State.runItems f stop halted t items).1 := by
  induction items generalizing t halted with
  | nil => exact h
  | cons item rest ih => exact ite_fst (pair (ih h)) (pair (ih (k _ _ h)))

theorem itemMessage {mtype : Nat} {limit : Bool} {items : Nat → List Byte → Option (List
    (Nat × List Byte))} {f : State → Nat → Nat × List Byte → State × Nat × List Byte} (k_f : ∀ u0 u1 u2, s.KeepsCore u0 → s.KeepsCore
        (f u0 u1 u2).1) {sess h' : Nat} {body : List Byte} : s.KeepsCore (Machine.itemMessage mtype limit items f t sess h' body).1 := by
  unfold Machine.itemMessage
  dsimp only
  split
  · exact h.pair
  · exact ite_fst h.pair (ite_fst h.pair (pair (h.runItems (fun _ _ k => k_f _ _ _ k))))

theorem handleEcho {sess h' : Nat} {body : List Byte} : s.KeepsCore (Machine.handleEcho t sess h' body).1 := h.pair

theorem handleClose {sess h' : Nat} {body : List Byte} : s.KeepsCore (Machine.handleClose t sess h' body).1 :=
  ite_fst h.pair (ite_fst h.pair (pair h.endSessions))

theorem handleReadBlock {sess h' : Nat} {body : List Byte} : s.KeepsCore (Machine.handleReadBlock t sess h' body).1 := by
  unfold Machine.handleReadBlock
  dsimp only
  split
  · exact h.pair
  · split
    · exact h.pair
    · split
      · exact h.pair
      · split
        · exact h.pair
        · split
          · exact h.pair
          · exact pair (ite (cleared h.fetch) h.fetch)

theorem addBlock {sess w : Nat} {data : List Byte} : s.KeepsCore (t.addBlock sess w data).1 := by
  unfold State.addBlock
  dsimp only
  split
  · exact pair h.modSession
  · split
    · exact pair h.modSession
    · exact pair h.modSession
    · exact ite_fst (pair h.modSession) (ite_fst (pair h.modSession) (pair (modSession h.writeValue)))

theorem handleWriteBlock {sess h' : Nat} {body : List Byte} : s.KeepsCore (Machine.handleWriteBlock t sess h' body).1 :=
  ite_fst h.pair (ite_fst h.pair (ite_fst h.pair (pair h.addBlock)))

theorem answerRequest {p : Path} {h' : Nat} {x : Option Session} {r : Reply} : s.KeepsCore (t.answerRequest p h' x r) := by
  unfold State.answerRequest
  dsimp only
  split
  · exact h.sendOn
  · exact sendOn h.modSession

theorem execute {p : Path} {mtype : Nat} {f : Handler} (k_f : ∀ u0 u1 u2 u3, s.KeepsCore u0 → s.KeepsCore
    (f u0 u1 u2 u3).1) {x : Option Session} {b : List Byte} {n : Nat} : s.KeepsCore (t.execute p mtype f x b n) := by
  unfold State.execute
  dsimp only
  split
  · exact answerRequest (ite_fst (k_f _ _ _ _ h) h.pair)
  · split
    · exact h.sendOn
    · exact ite (answerRequest (ite_fst (k_f _ _ _ _ h) h.pair)) h.count

theorem receive {p : Path} {mtype : Nat} {f : Handler} (k_f : ∀ u0 u1 u2 u3, s.KeepsCore u0 → s.KeepsCore
    (f u0 u1 u2 u3).1) {b : List Byte} : s.KeepsCore (t.receive p mtype f b) := by
  unfold State.receive
  extract_lets hd s0 sess unheard
  have heard : s.KeepsCore s0 := h.heard
  refine ite h (ite heard (ite heard.discardMessage (ite heard.discardMessage ?_)))
  split
  · exact ite heard.discardMessage (execute heard fun _ _ _ _ k => k_f _ _ _ _ k)
  · split
    · exact ite heard.discardMessage (execute heard fun _ _ _ _ k => k_f _ _ _ _ k)
    · exact heard.discardMessage

theorem execSessionOpen {p : Path} {b : List Byte} : s.Yields (Machine.execSessionOpen p b t) :=
  yields_next (h.receive (fun _ _ _ _ k => k.openSession))

theorem execSessionAuth {p : Path} {b : List Byte} : s.Yields (Machine.execSessionAuth p b t) := by
  unfold Machine.execSessionAuth
  dsimp only
  refine yields_next ?_
  split
  · exact h
  · split
    · exact ite (ite (sendOn (authenticate h.heard)) (sendOn h.heard)) (discardMessage h.heard)
    · exact h.receive fun _ _ _ _ k => k.pair

theorem execSessionClose {p : Path} {b : List Byte} : s.Yields (Machine.execSessionClose p b t) :=
  yields_next (h.receive (fun _ _ _ _ k => k.handleClose))

theorem execEcho {p : Path} {b : List Byte} : s.Yields (Machine.execEcho p b t) := yields_next (h.receive (fun _ _ _ _ k => k.handleEcho))

theorem execBamRead {p : Path} {b : List Byte} : s.Yields (Machine.execBamRead p b t) :=
  yields_next (h.receive (fun _ _ _ _ k => k.itemMessage (fun _ _ _ k1 => k1.readItem)))

theorem execBamWrite {p : Path} {b : List Byte} : s.Yields (Machine.execBamWrite p b t) :=
  yields_next (h.receive (fun _ _ _ _ k => k.itemMessage (fun _ _ _ k1 => k1.writeItem)))

theorem execReadBlock {p : Path} {b : List Byte} : s.Yields (Machine.execReadBlock p b t) :=
  yields_next (h.receive (fun _ _ _ _ k => k.handleReadBlock))

theorem execWriteBlock {p : Path} {b : List Byte} : s.Yields (Machine.execWriteBlock p b t) :=
  yields_next (h.receive (fun _ _ _ _ k => k.handleWriteBlock))

theorem execDescribe {p : Path} {b : List Byte} : s.Yields (Machine.execDescribe p b t) :=
  yields_next (h.receive (fun _ _ _ _ k => k.itemMessage (fun _ _ _ k1 => k1.describeItem)))

theorem relayOut {p : Path} {h' : Nat} {b : List Byte} : s.KeepsCore (t.relayOut p h' b) := by
  unfold State.relayOut
  dsimp only
  split
  · exact h.sendOn
  · split
    · exact ite (sendMgmt h.beside) h
    · split
      · exact sendMgmt h.beside
      · exact h

theorem relayBack {origin : Nat} {b : List Byte} : s.KeepsCore (t.relayBack origin b) := by
  unfold State.relayBack
  split
  · exact h
  · exact sendOn h.beside

theorem execRelay {p : Path} {b : List Byte} : s.Yields (Machine.execRelay p b t) := by
  unfold Machine.execRelay
  dsimp only
  refine yields_next ?_
  split
  · exact h
  · split
    · exact h.heard
    · split
      · exact ite (relayOut h.heard) h.heard
      · exact ite (relayBack h.heard) (ite (discardMessage h.heard) h.heard)
      · exact h.heard

theorem execSessionIdleTimeout {sess : Nat} : s.Yields (Machine.execSessionIdleTimeout sess t) := yields_next h.endSessions

theorem execSessionAuthTimeout {sess : Nat} : s.Yields (Machine.execSessionAuthTimeout sess t) := yields_next h.beside

theorem execCredentialLockExpiry {cred : Nat} : s.Yields (Machine.execCredentialLockExpiry cred t) := yields_next (ite (measureConfig h.beside) h)

theorem execBlockSequenceTimeout {sess : Nat} : s.Yields (Machine.execBlockSequenceTimeout sess t) := yields_next h.modSession

end

end State.KeepsCore
end Sys2Proof.Machine
end

section
/-! PROOF. What the operations of Dispatch keep: the core of the state. -/

namespace Sys2Proof.Machine
namespace State.KeepsCore
section
variable {s t : State} (h : s.KeepsCore t)
include h

theorem exec {i : Instr} : s.Yields (Machine.exec i t) := by
  unfold Machine.exec
  split
  · exact h.execTestSessionEnter
  · exact h.execTestSessionLeave
  · exact h.execObjectWrite
  · exact h.execColdStart
  · exact h.execStartCommandWarm
  · exact h.execStartCommandCold
  · exact h.execStageEnd
  · exact h.execStageTimeout
  · exact h.execNextAttempt
  · exact h.execTopologyWaitExpiry
  · exact h.execTrainDiscard
  · exact h.execMemtestNext
  · exact h.execInputSag
  · exact h.execSaveAndClose
  · exact h.execInputOvervoltage
  · exact h.execBusconvLost
  · exact h.execPhaseLost
  · exact h.execPlaneShort
  · exact h.execSenseFallback
  · exact h.execPathResistanceCheck
  · exact h.execCrackChainCheck
  · exact h.execSluiceStageDecision
  · exact h.execSluiceHoldReading
  · exact h.execHoldBudgetExpiry
  · exact h.execClusterClockLock
  · exact h.execClusterGateRequest
  · exact h.execGatingComplete
  · exact h.execPowerOffNLow
  · exact h.execPowerOffNRelease
  · exact h.execDimmFeedTrip
  · exact h.execControlTick
  · exact h.execRailGroupCurrentReading
  · exact h.execArrayRampUp
  · exact h.execArrayRampDown
  · exact h.execDroopEvent
  · exact h.execDroopExit
  · exact h.execDroopHoldExpiry
  · exact h.execDieSensorReading
  · exact h.execHbmTempReading
  · exact h.execDimmTempReading
  · exact h.execCoolantReading
  · exact h.execCoolantRestored
  · exact h.execWeirHoldExpiry
  · exact h.execSlackNoticeSend
  · exact h.execSlack
  · exact h.execPeerSlackExpiry
  · exact h.execFrequencyChange
  · exact h.execClockFault
  · exact h.execClockRelock
  · exact h.execReferenceLoss
  · exact h.execTideSyncPulse
  · exact h.execPtpSync
  · exact h.execDeviceIdWrite
  · exact h.execPortResetRetrain
  · exact h.execPortResetClear
  · exact h.execPortRetryTimer
  · exact h.execTrainingTimeout
  · exact h.execCodewordLockLoss
  · exact h.execHelloSend
  · exact h.execHello
  · exact h.execFlitReceive
  · exact h.execAckSend
  · exact h.execLaneSparingCheck
  · exact h.execLaneSwap
  · exact h.execLaneAck
  · exact h.execLaneSwitch
  · exact h.execCableInsert
  · exact h.execCableRemove
  · exact h.execTopoSend
  · exact h.execTopo
  · exact h.execTsyncSend
  · exact h.execTsync
  · exact h.execTsyncReply
  · exact h.execIngressRequest
  · exact h.execIngressReply
  · exact h.execEgressForkBranch
  · exact h.execMgmtUnit
  · exact h.execEthLinkUp
  · exact h.execEthLinkDown
  · exact h.execEthFrameReceive
  · exact h.execWait
  · exact h.execSignal
  · exact h.execSignalApply
  · exact h.execQueueEnd
  · exact h.execNop
  · exact h.execLoadStationary
  · exact h.execLoadStationaryRowsStart
  · exact h.execSwap
  · exact h.execPass
  · exact h.execFoldLand
  · exact h.execSetHandle
  · exact h.execSetSentinel
  · exact h.execVecConvert
  · exact h.execVecSpillFix
  · exact h.execVecRequant
  · exact h.execVecAdd
  · exact h.execVecMul
  · exact h.execVecMax
  · exact h.execVecMin
  · exact h.execVecAct
  · exact h.execVecReduce
  · exact h.execVecSoftmax
  · exact h.execVecNorm
  · exact h.execVecDequant
  · exact h.execVecTopk
  · exact h.execVecRandom
  · exact h.execVecWriteComplete
  · exact h.execMoveFill
  · exact h.execMoveCopy
  · exact h.execMovePut
  · exact h.execMoveGet
  · exact h.execMoveLoad
  · exact h.execMoveStore
  · exact h.execDescriptorComplete
  · exact h.execQueueWatchdogFire
  · exact h.execHeadFlitRoute
  · exact h.execFlitParityError
  · exact h.execForkSplit
  · exact h.execPositionNonForwarding
  · exact h.execNonForwardingDrainEnd
  · exact h.execReadPacket
  · exact h.execWritePacket
  · exact h.execSignalPacket
  · exact h.execPendingHoldRelease
  · exact h.execMemRead
  · exact h.execMemWrite
  · exact h.execMemoryReadComplete
  · exact h.execWriteBufferFlush
  · exact h.execPatrolRead
  · exact h.execStackEccPoll
  · exact h.execHoldBufferExpiry
  · exact h.execDataPacket
  · exact h.execForkPacket
  · exact h.execAckPacket
  · exact h.execStatusPacket
  · exact h.execClosureDrainExpiry
  · exact h.execDrainComplete
  · exact h.execLocalDrainTimeout
  · exact h.execRemapComplete
  · exact h.execGaugeSet
  · exact h.execPartitionApply
  · exact h.execGranuleFillComplete
  · exact h.execJobLoad
  · exact h.execJobEndAtBoundary
  · exact h.execJobEndAtOnce
  · exact h.execJobPreempt
  · exact h.execJobResume
  · exact h.execJobScrubComplete
  · exact h.execProgramFaultEnd
  · exact h.execEntryPoll
  · exact h.execPinWaitRelease
  · exact h.execStepStartRelease
  · exact h.execWatchNotice
  · exact h.execCadenceTick
  · exact h.execOutsideDeclare
  · exact h.execReady
  · exact h.execStart
  · exact h.execBarrierStartTime
  · exact h.execExpertApply
  · exact h.execTokenRequest
  · exact h.execReleaseRequest
  · exact h.execHintRequest
  · exact h.execStagingHoldRelease
  · exact h.execReserve
  · exact h.execGrant
  · exact h.execReservationCancel
  · exact h.execDstatus
  · exact h.execNoCreditRetry
  · exact h.execMulticastTimeout
  · exact h.execCopyArrive
  · exact h.execCopyReceiptConfirm
  · exact h.execCtxOpen
  · exact h.execCtxClose
  · exact h.execCtxSetPosition
  · exact h.execCtxSetPriority
  · exact h.execCtxPin
  · exact h.execCtxUnpin
  · exact h.execCtxPromote
  · exact h.execCtxDemote
  · exact h.execCtxRead
  · exact h.execPoolApply
  · exact h.execPageMoveComplete
  · exact h.execPageReleaseComplete
  · exact h.execUcieRetrainTimeout
  · exact h.execDtlMemRead
  · exact h.execDtlMemWrite
  · exact h.execMemData
  · exact h.execMemAck
  · exact h.execHbmRead
  · exact h.execHbmWrite
  · exact h.execHbmData
  · exact h.execHbmAck
  · exact h.execObjReq
  · exact h.execObjRsp
  · exact h.execEventLevee
  · exact h.execEventBoundary
  · exact h.execEventJobState
  · exact h.execEventPortState
  · exact h.execDtlMgmt
  · exact h.execDtlEth
  · exact h.execCredit
  · exact h.execRecoverReq
  · exact h.execCloseGo
  · exact h.execQuiesced
  · exact h.execRestart
  · exact h.execRemapped
  · exact h.execSvcApply
  · exact h.execSvcStart
  · exact h.execSvcStop
  · exact h.execReqOpenContext
  · exact h.execReqAppend
  · exact h.execReqGenerate
  · exact h.execReqCancel
  · exact h.execReqCloseContext
  · exact h.execReqSubmitFrame
  · exact h.execReqStatus
  · exact h.execEntrySeal
  · exact h.execVisionTickSeal
  · exact h.execConnectionLost
  · exact h.execContextIdleTimeout
  · exact h.execRecoveryResumeTimeout
  · exact h.execSessionOpen
  · exact h.execSessionAuth
  · exact h.execSessionClose
  · exact h.execEcho
  · exact h.execBamRead
  · exact h.execBamWrite
  · exact h.execReadBlock
  · exact h.execWriteBlock
  · exact h.execDescribe
  · exact h.execRelay
  · exact h.execSessionCloseCommand
  · exact h.execSessionIdleTimeout
  · exact h.execSessionAuthTimeout
  · exact h.execCredentialLockExpiry
  · exact h.execBlockSequenceTimeout
  · exact h.execLeveeReport
  · exact h.execStormClear
  · exact h.execLeveeNotice
  · exact h.execLeveeEntryFree
  · exact h.execPoweredSecond
  · exact h.execWatchdogCheck
  · exact h.execAbandon
  · exact h.execDrained
  · exact h.execDrainedMissingTimeout
  · exact h.execJobHalt
  · exact h.execClosing
  · exact h.execRecovered
  · exact h.execRecoveryResetCommand
  · exact h.execHistoryClear
  · exact h.execPackageApply
  · exact h.execScourChunkStart
  · exact h.execScourInsert
  · exact h.execScourChunkTimeout
  · exact h.execScourChunkComplete
  · exact h.execTwinCompare
  · exact h.execTwinLimitExpiry
  · exact h.execUfrSelect
  · exact h.execImageApply
  · exact h.execSvnCommit
  · exact h.execCredentialSet
  · exact h.execAttestRequest
  · exact h.execAttestSigned
  · exact h.execTlsKeygen
  · exact h.execTlsChainWrite
  · exact h.execDebugRead
  · exact h.execDebugRelease
  · exact h.execDebugHoldExpiry
  · exact h.execUnlockToken
  · exact h.execMemoryUnitNotAnswering
  · exact h.execPrbsPhaseEnd
  · exact h.execCodewordLock
  · exact h.execEgressPacket
  · exact h.execUcieAdapterRetryFailure
  · exact h.execUcieRetrained

end

end State.KeepsCore
end Sys2Proof.Machine
end

section
/-! PROOF. What the operations of Tick keep: the core of the state. -/

namespace Sys2Proof.Machine
namespace State.KeepsCore
section
variable {s t : State} (h : s.KeepsCore t)
include h

theorem tick : s.KeepsCore t.tick := each h.beside fun _ _ k => k.closeMerges

end

end State.KeepsCore
end Sys2Proof.Machine
end

section
/-! PROOF. Obligations O3 and O4: what every command keeps. O1: what a step is, and what the passing of time leaves alone. -/

namespace Sys2Proof.Machine

/-- State `t` comes of `s` by changes of registers, tiles and messages alone. -/
def State.OnlyTiles (s t : State) : Prop := t = { s with regs := t.regs, sent := t.sent, tiles := t.tiles }

namespace State.OnlyTiles
variable {s t : State}

theorem refl (s : State) : s.OnlyTiles s := rfl

theorem setObj (h : s.OnlyTiles t) (i j e v : Nat) : s.OnlyTiles (t.setObj i j e v) := by
  rw [h]
  rfl

theorem modTile (h : s.OnlyTiles t) (n : Nat) (f : Tile → Tile) : s.OnlyTiles (t.modTile n f) := by
  rw [h]
  rfl

theorem emit (h : s.OnlyTiles t) (m : Msg) : s.OnlyTiles (t.emit m) := by
  rw [h]
  rfl

theorem foldl {α : Type} (h : s.OnlyTiles t) {f : State → α → State} (k : ∀ u x, s.OnlyTiles u → s.OnlyTiles (f u x)) (xs : List α) :
    s.OnlyTiles (xs.foldl f t) := by
  induction xs generalizing t with
  | nil => exact h
  | cons x xs ih => exact ih (k t x h)

theorem queueSparing (h : s.OnlyTiles t) (n bank row : Nat) : s.OnlyTiles (t.queueSparing n bank row) := by
  unfold State.queueSparing
  split
  · exact h
  · exact (h.modTile n _).setObj ..

theorem trackRow (h : s.OnlyTiles t) (n bank row : Nat) : s.OnlyTiles (t.trackRow n bank row) := by
  unfold State.trackRow
  dsimp only
  split
  · split
    · exact h
    · split
      · exact (h.modTile n _).queueSparing ..
      · exact h.modTile n _
  · split
    · exact h.modTile n _
    · exact h

theorem readSpad (h : s.OnlyTiles t) (n bank row : Nat) : s.OnlyTiles (t.readSpad n bank row).1 := by
  unfold State.readSpad
  split
  · exact h
  · exact (h.setObj ..).trackRow ..
  · exact ((h.setObj ..).queueSparing ..).emit _

theorem readRows (h : s.OnlyTiles t) (n e first count : Nat) : s.OnlyTiles (t.readRows n e first count).1 := by
  induction count generalizing t first with
  | zero => exact h
  | succ count ih =>
    have read := h.readSpad n (hPlace e first).1 (hPlace e first).2
    unfold State.readRows
    split
    · next e' =>
      rw [e'] at read
      exact read
    · next e' =>
      rw [e'] at read
      have rest := ih read (first + 1)
      split
      · next e'' =>
        rw [e''] at rest
        exact rest
      · next e'' =>
        rw [e''] at rest
        exact rest

theorem answerMerge (h : s.OnlyTiles t) (pos : Nat) (m : Merge) (data : Option (List Codeword)) : s.OnlyTiles (t.answerMerge pos m data) := by
  unfold State.answerMerge
  split
  · exact h.foldl (fun _ _ k => k.emit _) _
  · exact h.emit _
  · exact h.emit _
  · exact h

theorem closeMerges (h : s.OnlyTiles t) (n : Nat) : s.OnlyTiles (t.closeMerges n) := by
  unfold State.closeMerges
  dsimp only
  split
  · exact h
  · exact (h.modTile n _).foldl (fun _ _ k => (k.readRows ..).answerMerge ..) _

end State.OnlyTiles

/-- A unit of time passes: the two counts advance, and what else changes are registers, tiles and messages. -/
theorem State.tick_onlyTiles (s : State) : ({ s with tide := s.tide + 1, elapsed := s.elapsed + 1 } : State).OnlyTiles s.tick :=
  (State.OnlyTiles.refl _).foldl (fun _ _ k => k.closeMerges _) _

/-- Settles O1: a step with a command waiting is that command's `exec` by definition; without one it is `State.tick`, which changes the counts of time, registers, tiles and messages alone. -/
theorem stepRunsFrontCommand : Obligations.StepRunsFrontCommand := by
  refine ⟨fun _ _ => rfl, fun c rest s waiting => by simp only [step, waiting], fun s idle => ⟨s.tick, by simp only [step, idle], ?_⟩⟩
  have same := s.tick_onlyTiles
  generalize s.tick = t at same ⊢
  unfold State.OnlyTiles at same
  rw [same]
  exact ⟨rfl, rfl, rfl⟩

/-- Every command keeps the core of the state it runs on. -/
theorem exec_keepsCore {c : Instr} {s t : State} (e : exec c s = .next t) : s.KeepsCore t := (State.KeepsCore.refl s).exec t e

/-- Settles O4: the queue, the messages sent and the counter of free values are in the core that every command keeps. -/
theorem commandsLeaveTheQueue : Obligations.CommandsLeaveTheQueue := by
  intro c s t e
  have kept := exec_keepsCore e
  exact ⟨kept.pending, kept.sent, kept.fresh⟩

/-- Settles O3: both a command and the passing of time keep the memories and the register file in canonical form where they are. -/
theorem stepKeepsMemoryCanonical : Obligations.StepKeepsMemoryCanonical := by
  intro s t w e
  unfold step at e
  split at e
  · cases e
    exact (State.KeepsCore.refl s).tick.canonical w
  · exact (exec_keepsCore e).canonical (Memory.wf_congr w rfl rfl rfl)

end Sys2Proof.Machine
end

section
/-! PROOF. Obligation O8: TRAIN_DISCARD and MEMTEST_NEXT (R475, R481). -/

namespace Sys2Proof.Machine

/-- A command that passes the checks and whose own rule changes at most the start's data answers the rule's status, keeps it and changes nothing else. -/
theorem State.commandOut_boot {s : State} {sess i j st : Nat} {b : Boot} {own : State → State × Nat} (passed : s.writeGuard sess i j = none)
    (rule : own s = ({ s with boot := b }, st)) :
    ∃ t, s.commandOut sess i j own = .next t ∧ t.obj i j = st ∧ s.sameRegs t [okey i j 0] ∧
      t = { s with regs := t.regs, sent := .answer sess i j st :: s.sent, boot := b } := by
  refine ⟨_, State.commandOut_of_rule passed rule, ?_, ?_, rfl⟩
  · rw [State.obj_answer, State.obj_setObj_same]
  · exact State.sameRegs_congr (State.sameRegs_setObj i j 0 st (t := { s with boot := b }) (State.sameRegs_of_regs rfl _) List.mem_cons_self) rfl

theorem ruleMemtestNext_of_le {s : State} {v : Nat} (known : v ≤ 2) :
    ruleMemtestNext v s = ({ s with boot := { s.boot with memNext := some v } }, stOk) := if_pos known

theorem ruleMemtestNext_of_lt {s : State} {v : Nat} (unknown : 2 < v) : ruleMemtestNext v s = (s, stBadValue) := if_neg (Nat.not_le.2 unknown)

/-- Settles O8: each command is a write whose own rule changes the saved entries, the mode of the next start, or nothing. -/
theorem trainingAndMemoryTestCommands : Obligations.TrainingAndMemoryTestCommands :=
  ⟨fun _ _ passed => State.commandOut_boot passed rfl, fun _ _ _ passed known => State.commandOut_boot passed (ruleMemtestNext_of_le known),
    fun _ _ _ passed unknown => State.commandOut_boot passed (ruleMemtestNext_of_lt unknown)⟩

end Sys2Proof.Machine
end

section
/-! PROOF. The registers that a command may change: which ones the limits of the clusters are kept in (18_power_caps_and_thermal.md). -/

namespace Sys2Proof.Machine

/-- State `t` comes of `s` by changes of registers that meet `P` alone. -/
structure State.RegsOnly (P : Nat → Prop) (s t : State) : Prop where
  rest : t = { s with regs := t.regs }
  regs : ∀ k, ¬ P k → t.reg k = s.reg k

namespace State.RegsOnly
variable {P Q : Nat → Prop} {s t u : State}

theorem refl (s : State) : RegsOnly P s s := ⟨rfl, fun _ _ => rfl⟩

theorem trans (h : RegsOnly P s t) (g : RegsOnly P t u) : RegsOnly P s u :=
  ⟨g.rest.trans (by rw [h.rest]), fun k out => (g.regs k out).trans (h.regs k out)⟩

theorem mono (h : RegsOnly P s t) (w : ∀ k, P k → Q k) : RegsOnly Q s t := ⟨h.rest, fun k out => h.regs k fun p => out (w k p)⟩

theorem setObj (h : RegsOnly P s t) {i j e : Nat} (v : Nat) (hk : P (okey i j e)) : RegsOnly P s (t.setObj i j e v) := by
  refine h.trans ⟨rfl, fun k out => ?_⟩
  rw [State.reg_setObj, if_neg]
  rintro rfl
  exact out hk

theorem ite {c : Prop} [Decidable c] (h : RegsOnly P s t) (g : RegsOnly P s u) : RegsOnly P s (if c then t else u) := by
  split
  · exact h
  · exact g

theorem foldl {α : Type} {xs : List α} {f : State → α → State} (h : RegsOnly P s t)
    (k : ∀ u, ∀ x ∈ xs, RegsOnly P s u → RegsOnly P s (f u x)) : RegsOnly P s (xs.foldl f t) := by
  induction xs generalizing t with
  | nil => exact h
  | cons x xs ih => exact ih (k t x List.mem_cons_self h) fun u y mem => k u y (List.mem_cons_of_mem _ mem)

theorem each {α : Type} {xs : List α} {f : State → α → State} (h : RegsOnly P s t)
    (k : ∀ u, ∀ x ∈ xs, RegsOnly P s u → RegsOnly P s (f u x)) : RegsOnly P s (t.each xs f) := foldl h k

theorem obj (h : RegsOnly P s t) {i j e : Nat} (out : ¬ P (okey i j e)) : t.obj i j e = s.obj i j e := h.regs _ out

theorem throttle_eq (h : RegsOnly P s t) : t.throttle = s.throttle := by rw [h.rest]
theorem sent_eq (h : RegsOnly P s t) : t.sent = s.sent := by rw [h.rest]
theorem jobs_eq (h : RegsOnly P s t) : t.jobs = s.jobs := by rw [h.rest]
theorem tiles_eq (h : RegsOnly P s t) : t.tiles = s.tiles := by rw [h.rest]
theorem power_eq (h : RegsOnly P s t) : t.power = s.power := by rw [h.rest]

/-- Registers changed after a change of registers and of the throttle controller. -/
theorem regs_throttle (h : RegsOnly P t u) (e : t = { s with regs := t.regs, throttle := t.throttle }) :
    u = { s with regs := u.regs, throttle := u.throttle } :=
  calc u = { t with regs := u.regs } := h.rest
    _ = { s with regs := u.regs, throttle := t.throttle } := by rw [e]
    _ = { s with regs := u.regs, throttle := u.throttle } := by rw [h.throttle_eq]

end State.RegsOnly

/-- The registers that applying the limits writes: the steps, ceilings, duties and reasons of each cluster, whether its generator is on its way to a step, and the counts and state of each reason (R431, R445, R446). -/
def limitKey (k : Nat) : Prop :=
  (0x1300 ≤ k / 2 ^ 24 ∧ k / 2 ^ 24 < 0x1370 ∧ k / 2 ^ 16 % 256 < 5) ∨ (0x1450 ≤ k / 2 ^ 24 ∧ k / 2 ^ 24 < 0x14AA ∧ k / 2 ^ 16 % 256 = 0)

theorem limitKey_okey {i j e : Nat} (hj : j < 256) (he : e < 65536) :
    limitKey (okey i j e) ↔ (0x1300 ≤ i ∧ i < 0x1370 ∧ j < 5) ∨ (0x1450 ≤ i ∧ i < 0x14AA ∧ j = 0) := by
  have index : okey i j e / 2 ^ 24 = i := by unfold okey; omega
  have sub : okey i j e / 2 ^ 16 % 256 = j := by unfold okey; omega
  rw [limitKey, index, sub]

/-- A cluster sent to its step: the registers of its limits alone. -/
theorem State.RegsOnly.retarget {s t : State} (h : RegsOnly limitKey s t) {c : Nat} (hc : c < 90) : RegsOnly limitKey s (t.retarget c) := by
  have key : ∀ {j}, j < 5 → limitKey (okey (0x1310 + c) j 0) := fun hj => (limitKey_okey (by omega) (by decide)).2 (.inl (by omega))
  have clock : limitKey (okey (0x1450 + c) 0 0) := (limitKey_okey (by decide) (by decide)).2 (.inr (by omega))
  have shown : RegsOnly limitKey s (((t.setObj (0x1310 + c) 1 0 (t.prefStep c)).setObj (0x1310 + c) 2 0 (t.ownCeiling c)).setObj (0x1310 + c) 3 0 (t.issueDuty c)) :=
    ((h.setObj _ (key (by decide))).setObj _ (key (by decide))).setObj _ (key (by decide))
  exact .ite (.ite (shown.setObj _ clock) shown) (shown.setObj _ (key (by decide)))

theorem State.RegsOnly.setReason {s t : State} (h : RegsOnly limitKey s t) {r : Nat} (hr : r < 14) (on : Bool) : RegsOnly limitKey s (t.setReason r on) := by
  have key : ∀ {j}, j < 5 → limitKey (okey (0x1300 + r) j 0) := fun hj => (limitKey_okey (by omega) (by decide)).2 (.inl (by omega))
  exact .ite (((h.setObj _ (key (by decide))).setObj _ (key (by decide))).setObj _ (key (by decide))) (.ite h (h.setObj _ (key (by decide))))

/-- Applying the limits writes the registers of the limits and changes nothing else. -/
theorem State.refresh_regsOnly (s : State) : State.RegsOnly limitKey s s.refresh := by
  refine State.RegsOnly.setReason (.each (.each (.each (.refl s) fun _ c mem k => k.retarget (List.mem_range.1 mem)) fun _ c mem k => ?_) fun _ r mem k => ?_) (by decide) _
  · have hc := List.mem_range.1 mem
    exact k.setObj _ ((limitKey_okey (by decide) (by decide)).2 (.inl (by omega)))
  · exact k.setReason (List.mem_range.1 (List.mem_of_mem_drop mem)) _

/-- Applying the limits leaves an object that keeps no limit. -/
theorem State.obj_refresh (s : State) {i j e : Nat} (hj : j < 256) (he : e < 65536)
    (out : ¬ ((0x1300 ≤ i ∧ i < 0x1370 ∧ j < 5) ∨ (0x1450 ≤ i ∧ i < 0x14AA ∧ j = 0))) : s.refresh.obj i j e = s.obj i j e :=
  s.refresh_regsOnly.obj fun k => out ((limitKey_okey hj he).1 k)

@[simp] theorem State.refresh_throttle (s : State) : s.refresh.throttle = s.throttle := s.refresh_regsOnly.throttle_eq
@[simp] theorem State.refresh_sent (s : State) : s.refresh.sent = s.sent := s.refresh_regsOnly.sent_eq
@[simp] theorem State.refresh_jobs (s : State) : s.refresh.jobs = s.jobs := s.refresh_regsOnly.jobs_eq
@[simp] theorem State.refresh_tiles (s : State) : s.refresh.tiles = s.tiles := s.refresh_regsOnly.tiles_eq
@[simp] theorem State.refresh_power (s : State) : s.refresh.power = s.power := s.refresh_regsOnly.power_eq

theorem State.plane_refresh (s : State) {c : Nat} (hc : c < 90) : s.refresh.plane c = s.plane c :=
  s.obj_refresh (by decide) (by decide) (by omega)

end Sys2Proof.Machine
end

section
/-! PROOF. Obligation O10: phases, shorts, the local sense, the path and crack checks, a DIMM's feed (17_power_delivery.md). -/

namespace Sys2Proof.Machine

/-! ### Phases as bits -/

theorem bitOf_eq_testBit (v i : Nat) : bitOf v i = v.testBit i := by
  rw [Nat.testBit_eq_decide_div_mod_eq, bitOf]
  rfl

/-- The other bits of a word stay where one is set. -/
theorem bitOf_setBit_ne {v i j : Nat} {b : Bool} (h : j ≠ i) : bitOf (setBit v i b) j = bitOf v j := by
  have low : v % 2 ^ i < 2 ^ i := Nat.mod_lt _ (by positivity)
  have mid : (if b then 1 else 0) % 2 ^ 1 < 2 ^ 1 := Nat.mod_lt _ (by decide)
  have shape : setBit v i b = 2 ^ i * (2 ^ 1 * (v / 2 ^ (i + 1)) + (if b then 1 else 0) % 2 ^ 1) + v % 2 ^ i := by
    rw [setBit, setField, pow_succ]
    ring
  simp only [bitOf_eq_testBit, shape, Nat.testBit_two_pow_mul_add _ low, Nat.testBit_two_pow_mul_add _ mid, Nat.testBit_mod_two_pow,
    Nat.testBit_div_two_pow]
  by_cases below : j < i
  · simp [below]
  · rw [if_neg below, if_neg (by omega), show j - i - 1 + (i + 1) = j by omega]

/-- A bit set in a word that had it clear adds one to the count of its bits. -/
theorem popCount_setBit {v p w : Nat} (hp : p < w) (clear : bitOf v p = false) : popCount (setBit v p true) w = popCount v w + 1 := by
  have split : ∀ n, popCount (setBit v p true) n = popCount v n + if p < n then 1 else 0 := by
    intro n
    induction n with
    | zero => rfl
    | succ n ih =>
      have last : ∀ x, popCount x (n + 1) = popCount x n + if bitOf x n then 1 else 0 := by
        intro x
        unfold popCount bitsOf
        rw [List.range_succ, List.filter_append, List.length_append]
        by_cases b : bitOf x n <;> simp [b]
      rw [last, last, ih]
      by_cases e : n = p
      · subst e
        simp [bitOf_setBit, clear]
      · rw [bitOf_setBit_ne e]
        have : p < n + 1 ↔ p < n := by omega
        simp only [this]
        omega
  rw [split, if_pos hp]

/-- A phase cleared in the mask of a plane's phases: the last one leaves the mask empty and every phase lost; before, fewer are lost. -/
theorem setBit_phase {c m p : Nat} (has : p < phaseCount (.vl c)) (small : m ≤ if c < 72 then 7 else 3) (on : bitOf m p = true) :
    (m = 2 ^ p → setBit m p false = 0 ∧ phaseCount (.vl c) ≤ popCount ((if c < 72 then 7 else 3) - 0) 6) ∧
    (m ≠ 2 ^ p → setBit m p false = m - 2 ^ p ∧ popCount ((if c < 72 then 7 else 3) - (m - 2 ^ p)) 6 < phaseCount (.vl c)) := by
  have regular : ∀ p < 3, (setBit (2 ^ p) p false = 0 ∧ 3 ≤ popCount (7 - 0) 6) ∧
      ∀ m ≤ 7, bitOf m p = true → m ≠ 2 ^ p → setBit m p false = m - 2 ^ p ∧ popCount (7 - (m - 2 ^ p)) 6 < 3 := by decide
  have reserve : ∀ p < 2, (setBit (2 ^ p) p false = 0 ∧ 2 ≤ popCount (3 - 0) 6) ∧
      ∀ m ≤ 3, bitOf m p = true → m ≠ 2 ^ p → setBit m p false = m - 2 ^ p ∧ popCount (3 - (m - 2 ^ p)) 6 < 2 := by decide
  by_cases column : c < 72
  · simp only [phaseCount, column, if_true] at *
    exact ⟨fun e => e ▸ (regular p has).1, (regular p has).2 m small on⟩
  · simp only [phaseCount, column, if_false] at *
    exact ⟨fun e => e ▸ (reserve p has).1, (reserve p has).2 m small on⟩

theorem bitOf_phasesLost {c m p : Nat} (has : p < phaseCount (.vl c)) (small : m ≤ if c < 72 then 7 else 3) (on : bitOf m p = true) :
    bitOf ((if c < 72 then 7 else 3) - m) p = false := by
  have regular : ∀ m ≤ 7, ∀ p < 3, bitOf m p = true → bitOf (7 - m) p = false := by decide
  have reserve : ∀ m ≤ 3, ∀ p < 2, bitOf m p = true → bitOf (3 - m) p = false := by decide
  by_cases column : c < 72
  · simp only [phaseCount, column, if_true] at *
    exact regular m small p has on
  · simp only [phaseCount, column, if_false] at *
    exact reserve m small p has on

/-! ### Lost phases (R420-R422) -/

theorem execPhaseLost_acts {s : State} {rail : Rail} {phase : Nat} (has : phase < phaseCount rail) (kept : bitOf (s.phasesLost rail) phase = false) :
    exec (.phaseLost rail phase) s = .next ((((s.disablePhase rail phase).railReport rail 0 phase).phaseEffect rail
      (popCount (((s.disablePhase rail phase).railReport rail 0 phase).phasesLost rail) 6)).refresh) := by
  show execPhaseLost rail phase s = _
  unfold execPhaseLost
  rw [if_neg (by simp [kept]; omega)]

/-- A plane that loses a phase keeps its state while another remains, and is DARK with none left. -/
theorem execPhaseLost_plane {s : State} {c phase : Nat} (hc : c < 90) (has : phase < phaseCount (.vl c))
    (small : s.obj (0x1040 + c) 1 ≤ if c < 72 then 7 else 3) (on : bitOf (s.obj (0x1040 + c) 1) phase = true) (lit : s.plane c ≠ plDark) :
    ∃ t, exec (.phaseLost (.vl c) phase) s = .next t ∧
      (s.obj (0x1040 + c) 1 ≠ 2 ^ phase → t.obj (0x1040 + c) 1 = s.obj (0x1040 + c) 1 - 2 ^ phase ∧ t.plane c = s.plane c) ∧
      (s.obj (0x1040 + c) 1 = 2 ^ phase → t.obj (0x1040 + c) 1 = 0 ∧ t.plane c = plDark) := by
  refine ⟨_, execPhaseLost_acts has (bitOf_phasesLost has small on), ?_⟩
  have mask : ((s.disablePhase (.vl c) phase).railReport (.vl c) 0 phase).obj (0x1040 + c) 1 = setBit (s.obj (0x1040 + c) 1) phase false := by
    rw [State.obj_railReport_vl, State.obj_setObj_ne _ _ (by decide) (by decide) (by decide) (by decide) (.inr (.inl (by decide)))]
    exact State.obj_setObj_same ..
  have plane : ((s.disablePhase (.vl c) phase).railReport (.vl c) 0 phase).plane c = s.plane c := by
    rw [State.plane, State.obj_railReport_vl]
    exact (State.plane_setObj_ne _ c _ (by unfold okey; omega)).trans (State.plane_setObj_ne s c _ (by unfold okey; omega))
  generalize (s.disablePhase (.vl c) phase).railReport (.vl c) 0 phase = u at mask plane ⊢
  obtain ⟨last, more⟩ := setBit_phase has small on
  rw [State.phasesLost, mask]
  unfold State.phaseEffect
  dsimp only
  constructor
  · intro other
    obtain ⟨cleared, few⟩ := more other
    rw [cleared, if_neg (Nat.not_le.2 few)]
    exact ⟨(State.obj_refresh _ (by decide) (by decide) (by omega)).trans (mask.trans cleared), (State.plane_refresh _ hc).trans plane⟩
  · intro only
    obtain ⟨cleared, all⟩ := last only
    rw [cleared, if_pos all]
    obtain ⟨dark, none', -⟩ := State.planeDark_dark hc (plane ▸ lit)
    exact ⟨(State.obj_refresh _ (by decide) (by decide) (by omega)).trans none', (State.plane_refresh _ hc).trans dark⟩

/-- The second phase of VA or VF of a field lost derates the rail. -/
theorem execPhaseLost_field {s : State} {rail : Rail} {f phase sub : Nat} (rails : (rail = .va f ∧ sub = 2) ∨ (rail = .vf f ∧ sub = 3)) (hf : f < 6)
    (has : phase < phaseCount rail) (kept : bitOf (s.phasesLost rail) phase = false) (one : popCount (s.phasesLost rail) 6 = 1) :
    ∃ t, exec (.phaseLost rail phase) s = .next t ∧ t.obj (0x1020 + f) sub = 1 ∧ t.jobs = s.jobs ∧ t.tiles = s.tiles := by
  refine ⟨_, execPhaseLost_acts has kept, ?_⟩
  have few : phase < 6 := by
    rcases rails with ⟨rfl, -⟩ | ⟨rfl, -⟩ <;> simp only [phaseCount] at has <;> omega
  have two : popCount (((s.disablePhase rail phase).railReport rail 0 phase).phasesLost rail) 6 = 2 := by
    have lost : ((s.disablePhase rail phase).railReport rail 0 phase).phasesLost rail = setBit (s.phasesLost rail) phase true := by
      rcases rails with ⟨rfl, -⟩ | ⟨rfl, -⟩ <;> exact Tbl.get_put_same ..
    rw [lost, popCount_setBit few kept, one]
  rw [two]
  rcases rails with ⟨rfl, rfl⟩ | ⟨rfl, rfl⟩
  · refine ⟨?_, State.refresh_jobs _, State.refresh_tiles _⟩
    exact (State.obj_refresh _ (by decide) (by decide) (by omega)).trans (State.obj_setObj_same ..)
  · refine ⟨?_, State.refresh_jobs _, State.refresh_tiles _⟩
    exact (State.obj_refresh _ (by decide) (by decide) (by omega)).trans (State.obj_setObj_same ..)

/-- A short of a plane is reported under POWER. -/
theorem execPlaneShort_reports {s : State} {c : Nat} (hc : c < 90) :
    ∃ t, exec (.planeShort (.vl c)) s = .next t ∧ ∃ r, .report r ∈ t.sent ∧ r.cls = clPower ∧ r.suspect = susCluster c := by
  refine ⟨_, rfl, ?_⟩
  dsimp only
  generalize s.each (List.range (phaseCount (.vl c))) (fun t i => t.disablePhase (.vl c) i) = u
  obtain ⟨r, sent, cls, suspect, -⟩ := u.sent_railReport_vl c 0 0xFF
  obtain ⟨new, dark⟩ := (u.railReport (.vl c) 0 0xFF).planeDark_sent c hc
  refine ⟨r, ?_, cls, suspect⟩
  rw [State.railLost, dark, sent]
  simp

/-! ### Sense and cracks (R414, R415) -/

theorem State.sameRegs_railReport_vl {s t : State} {ks : List Nat} (h : s.sameRegs t ks) (c st d : Nat) (hk : okey (0x1040 + c) 0xD 0 ∈ ks) :
    s.sameRegs (t.railReport (.vl c) st d) ks := State.sameRegs_congr (State.sameRegs_setObj (0x1040 + c) 0xD 0 t.tide h hk) rfl

/-- State `t` comes of `s` by changes of registers and messages alone. -/
def State.onlyTells (s t : State) : Prop := t = { s with regs := t.regs, sent := t.sent }

theorem State.onlyTells_refl (s : State) : s.onlyTells s := rfl

theorem State.onlyTells.trans {s t u : State} (h : s.onlyTells t) (g : t.onlyTells u) : s.onlyTells u :=
  calc u = { t with regs := u.regs, sent := u.sent } := g
    _ = { s with regs := u.regs, sent := u.sent } := by rw [show t = { s with regs := t.regs, sent := t.sent } from h]

theorem State.onlyTells.setObj {s t : State} (h : s.onlyTells t) (i j e v : Nat) : s.onlyTells (t.setObj i j e v) := h.trans rfl

theorem State.onlyTells.count {s t : State} (h : s.onlyTells t) (i j e w : Nat) (n : Nat := 1) : s.onlyTells (t.count i j e w n) := h.setObj ..

theorem State.onlyTells.emit {s t : State} (h : s.onlyTells t) (m : Msg) : s.onlyTells (t.emit m) := h.trans rfl

theorem State.onlyTells.reportFor {s t : State} (h : s.onlyTells t) (q : Option Nat) (cls : Nat) (x y : Suspect) (st d : Nat) (u : Option Suspect := none) :
    s.onlyTells (t.reportFor q cls x y st d u) := h.emit _

theorem execSenseFallback_changes {s : State} {c : Nat} (remote : s.obj (0x1040 + c) 0xA ≠ 1) :
    ∃ t, exec (.senseFallback (.vl c)) s = .next t ∧ s.sameRegs t [okey (0x1040 + c) 0xA 0, okey (0x1040 + c) 0xD 0] ∧ s.onlyTells t := by
  have run : exec (.senseFallback (.vl c)) s = _ := congrArg Host.Outcome.next (if_neg (by simpa [State.localSense] using remote))
  exact ⟨_, run, State.sameRegs_railReport_vl (State.sameRegs_setObj _ _ _ _ (s.sameRegs_refl _) (by simp)) _ _ _ (by simp),
    (((s.onlyTells_refl).setObj ..).setObj ..).reportFor ..⟩

/-- A resistance of at most 1.25 of the baseline changes the counts of the checks alone (R415). -/
theorem State.judgeZ_rest {s : State} {c z : Nat} (low : 4 * z ≤ 5 * s.obj (0x1040 + c) 9) :
    s.judgeZ (.vl c) z = { s with power := (s.judgeZ (.vl c) z).power } := by
  have under125 : ¬ 4 * z > 5 * s.baseline (.vl c) := by simpa [State.baseline] using low
  have under150 : ¬ 2 * z > 3 * s.baseline (.vl c) := by simp only [State.baseline]; omega
  unfold State.judgeZ
  simp only [if_neg under125, if_neg under150]
  rw [if_neg (by decide : ¬ 0 ≥ 100), if_neg (fun h => absurd h.1 (by decide))]
  rfl

theorem State.sameRegs_keepSense (s : State) {ks : List Nat} (c a b ma : Nat) (h3 : okey (0x1040 + c) 3 0 ∈ ks) (h4 : okey (0x1040 + c) 4 0 ∈ ks)
    (h5 : okey (0x1040 + c) 5 0 ∈ ks) : s.sameRegs (s.keepSense (.vl c) a b ma) ks :=
  State.sameRegs_setObj _ _ _ _ (State.sameRegs_setObj _ _ _ _ (State.sameRegs_setObj _ _ _ _ (s.sameRegs_refl _) h3) h4) h5

theorem execPathResistanceCheck_keeps {s : State} {c a b ma : Nat} (remote : s.obj (0x1040 + c) 0xA ≠ 1)
    (enough : (if c < 72 then 10000 else 3000) ≤ ma) (low : 4 * (1000000 * (a - b) / ma) ≤ 5 * s.obj (0x1040 + c) 9) :
    ∃ t, exec (.pathResistanceCheck (.vl c) a b ma false) s = .next t ∧
      t.obj (0x1040 + c) 8 = 1000000 * (a - b) / ma ∧ t.obj (0x1040 + c) 4 = a ∧ t.obj (0x1040 + c) 3 = b ∧ t.obj (0x1040 + c) 5 = ma ∧
      s.sameRegs t [okey (0x1040 + c) 8 0, okey (0x1040 + c) 3 0, okey (0x1040 + c) 4 0, okey (0x1040 + c) 5 0] ∧ t = { s with regs := t.regs, power := t.power } := by
  refine ⟨_, rfl, ?_⟩
  rw [if_neg (by simpa [hasSense, State.localSense] using remote)]
  dsimp only
  rw [if_neg (by decide), if_neg (by simpa [senseFloor] using enough)]
  generalize 1000000 * (a - b) / ma = z at *
  have low' : 4 * z ≤ 5 * ((s.keepSense (.vl c) a b ma).keepZ (.vl c) z).obj (0x1040 + c) 9 := by
    simpa [State.keepSense, State.keepZ, State.obj_setObj, okey] using low
  have judged := State.judgeZ_rest low'
  have same := State.regs_judgeZ low'
  generalize ((s.keepSense (.vl c) a b ma).keepZ (.vl c) z).judgeZ (.vl c) z = t at judged same ⊢
  simp only [State.obj_congr same]
  refine ⟨?_, ?_, ?_, ?_, State.sameRegs_congr (State.sameRegs_setObj _ _ _ _ (s.sameRegs_keepSense c a b ma (by simp) (by simp) (by simp)) (by simp)) same, ?_⟩
  case refine_5 =>
    rw [judged]
    rfl
  all_goals simp [State.keepSense, State.keepZ, State.obj_setObj, okey]

/-- With less current than the floor the measurement is kept and nothing is computed. -/
theorem execPathResistanceCheck_below {s : State} {c a b ma : Nat} (remote : s.obj (0x1040 + c) 0xA ≠ 1) (few : ma < if c < 72 then 10000 else 3000) :
    ∃ t, exec (.pathResistanceCheck (.vl c) a b ma false) s = .next t ∧ t.obj (0x1040 + c) 4 = a ∧ t.obj (0x1040 + c) 3 = b ∧ t.obj (0x1040 + c) 5 = ma ∧
      s.sameRegs t [okey (0x1040 + c) 3 0, okey (0x1040 + c) 4 0, okey (0x1040 + c) 5 0] ∧ t = { s with regs := t.regs } := by
  refine ⟨_, rfl, ?_⟩
  rw [if_neg (by simpa [hasSense, State.localSense] using remote)]
  dsimp only
  rw [if_neg (by decide), if_pos (by simpa [senseFloor] using few)]
  refine ⟨?_, ?_, ?_, s.sameRegs_keepSense c a b ma (by simp) (by simp) (by simp), rfl⟩
  all_goals simp [State.keepSense, State.obj_setObj, okey]

/-- The crack chains of the fields as measured are the only registers a check changes. -/
theorem execCrackChainCheck_changes (s : State) (l : List Nat) :
    ∃ t, exec (.crackChainCheck l) s = .next t ∧ s.sameRegs t ((List.range 6).map (fun f => okey (0x1020 + f) 4 0)) ∧
      t = { s with regs := t.regs, sent := t.sent } := by
  refine ⟨_, rfl, ?_⟩
  have all : ∀ (xs : List Nat) (t : State), (∀ f ∈ xs, f < 6) → (s.sameRegs t ((List.range 6).map (fun f => okey (0x1020 + f) 4 0)) ∧
      t = { s with regs := t.regs, sent := t.sent }) → ∀ g : State → Nat → State,
      (∀ u f, f < 6 → (g u f).regs = (u.setObj (0x1020 + f) 4 0 (if l.contains f then 1 else 0)).regs ∧ g u f = { u with regs := (g u f).regs, sent := (g u f).sent }) →
      (s.sameRegs (t.each xs g) ((List.range 6).map (fun f => okey (0x1020 + f) 4 0)) ∧ t.each xs g = { s with regs := (t.each xs g).regs, sent := (t.each xs g).sent }) := by
    intro xs
    induction xs with
    | nil => exact fun _ _ h _ _ => h
    | cons f xs ih =>
      intro t small h g writes
      obtain ⟨same, rest⟩ := h
      have hf := small f List.mem_cons_self
      obtain ⟨regs, only⟩ := writes t f hf
      refine ih (g t f) (fun x mem => small x (List.mem_cons_of_mem _ mem)) ⟨?_, ?_⟩ g writes
      · exact State.sameRegs_congr (State.sameRegs_setObj _ _ _ _ same (List.mem_map.2 ⟨f, List.mem_range.2 hf, rfl⟩)) regs
      · rw [only, rest]
  refine all _ s (fun f mem => List.mem_range.1 mem) ⟨s.sameRegs_refl _, rfl⟩ _ fun u f _ => ?_
  dsimp only
  split
  · exact ⟨rfl, rfl⟩
  · exact ⟨rfl, rfl⟩

/-! ### A DIMM's feed (R429) -/

/-- A channel without requests whose feed trips does not answer. -/
theorem execDimmFeedTrip_lost {s : State} {ch : Nat} (idle : Tbl.get s.channels {} ch = {}) :
    ∃ t, exec (.dimmFeedTrip ch) s = .next t ∧ t.obj (0x3110 + ch) 0 = 4 ∧ t.hbm = s.hbm ∧ t.ddr = s.ddr ∧ t.jobs = s.jobs := by
  refine ⟨_, rfl, ?_⟩
  have fed : ∀ u : State, (if ch < 13 then u.setObj (0x10B3 + ch) 0 0 2 else u).channels = u.channels := fun u => by
    split <;> rfl
  generalize hu : (if ch < 13 then s.setObj (0x10B3 + ch) 0 0 2 else s).railReport (.dimm ch) 0 0 = u
  have kept : u.channels = s.channels ∧ u.hbm = s.hbm ∧ u.ddr = s.ddr ∧ u.jobs = s.jobs := by
    rw [← hu]
    unfold State.railReport State.stampRail
    dsimp only
    by_cases fed : ch < 13
    · simp only [if_pos fed]
      exact ⟨rfl, rfl, rfl, rfl⟩
    · simp only [if_neg fed]
      exact ⟨rfl, rfl, rfl, rfl⟩
  obtain ⟨channels, hbm, ddr, jobs⟩ := kept
  have empty : u.server (.channel ch) = {} := by
    rw [← idle, ← channels]
    rfl
  rw [empty]
  exact ⟨State.obj_setObj_same .., hbm, ddr, jobs⟩

/-- Two results of one command are the same state. -/
theorem exec_next_and {c : Instr} {s : State} {P Q : State → Prop} (h : ∃ t, exec c s = .next t ∧ P t) (g : ∃ t, exec c s = .next t ∧ Q t) :
    ∃ t, exec c s = .next t ∧ P t ∧ Q t := by
  obtain ⟨t, run, p⟩ := h
  obtain ⟨u, run', q⟩ := g
  obtain rfl : t = u := by simpa [run] using run'
  exact ⟨t, run, p, q⟩

/-- Settles O10, clause by clause. -/
theorem phaseLossAndFeedChecks : Obligations.PhaseLossAndFeedChecks := by
  refine ⟨fun s c phase hc has small on lit => ?_, fun s rail phase none' => ?_, fun s c hc lit => ?_, fun s f phase hf has kept one => ?_,
    fun s f phase hf has kept one => ?_, fun s c remote => ?_, fun s c local' => ?_, fun s c a b ma remote enough low => ?_, fun s c a b ma remote few => ?_, fun s l => ?_,
    fun s ch _ _ idle => execDimmFeedTrip_lost idle⟩
  · exact exec_next_and (execPhaseLost_reports hc has (bitOf_phasesLost has small on)) (execPhaseLost_plane hc has small on lit)
  · show execPhaseLost rail phase s = _
    rw [execPhaseLost, if_pos none']
  · obtain ⟨t, run, ⟨dark, none'⟩, reported⟩ := exec_next_and (execPlaneShort_dark hc lit) (execPlaneShort_reports (s := s) hc)
    exact ⟨t, run, dark, none', reported⟩
  · exact execPhaseLost_field (.inl ⟨rfl, rfl⟩) hf has kept one
  · exact execPhaseLost_field (.inr ⟨rfl, rfl⟩) hf has kept one
  · obtain ⟨t, run, ⟨fell, r, sent, cls, suspect, detail⟩, same, rest⟩ := exec_next_and (execSenseFallback_falls remote) (execSenseFallback_changes remote)
    exact ⟨t, run, fell, same, rest, r, sent, cls, suspect, detail⟩
  · show execSenseFallback (.vl c) s = _
    rw [execSenseFallback, if_pos (by simpa [State.localSense] using local')]
  · exact execPathResistanceCheck_keeps remote enough low
  · exact execPathResistanceCheck_below remote few
  · exact exec_next_and (execCrackChainCheck_shows s l) (execCrackChainCheck_changes s l)

end Sys2Proof.Machine
end

section
/-! PROOF. Obligation O12: the control tick, the current limit of a rail group, the droop limit of a cluster (18_power_caps_and_thermal.md). -/

namespace Sys2Proof.Machine

/-! ### What the limits are computed from -/

@[simp] theorem State.modThrottle_throttle (s : State) (f : Throttle → Throttle) : (s.modThrottle f).throttle = f s.throttle := rfl
@[simp] theorem State.obj_modThrottle (s : State) (f : Throttle → Throttle) (i j e : Nat) : (s.modThrottle f).obj i j e = s.obj i j e := rfl
@[simp] theorem State.obj_modLimit (s : State) (c : Nat) (f : ClusterLimit → ClusterLimit) (i j e : Nat) : (s.modLimit c f).obj i j e = s.obj i j e := rfl
@[simp] theorem State.obj_setGroup (s : State) (f : Nat) (g : GroupLimit) (i j e : Nat) : (s.setGroup f g).obj i j e = s.obj i j e := rfl

theorem State.limits_modLimit (s : State) (c : Nat) (f : ClusterLimit → ClusterLimit) : (s.modLimit c f).limits c = f (s.limits c) :=
  Tbl.get_put_same ..

theorem State.groupLimit_setGroup (s : State) (f : Nat) (g : GroupLimit) : (s.setGroup f g).groupLimit f = g := Tbl.get_put_same ..

theorem State.groupLimit_setGroup_ne (s : State) {f f' : Nat} (g : GroupLimit) (h : f' ≠ f) : (s.setGroup f g).groupLimit f' = s.groupLimit f' :=
  Tbl.get_put_other _ _ _ _ _ _ h

theorem State.limits_refresh (s : State) (c : Nat) : s.refresh.limits c = s.limits c := by
  unfold State.limits
  rw [State.refresh_throttle]

theorem State.groupLimit_refresh (s : State) (f : Nat) : s.refresh.groupLimit f = s.groupLimit f := by
  unfold State.groupLimit
  rw [State.refresh_throttle]

/-- The bounds of the steps depend on the values in force and on object 1100. -/
theorem State.stepBounds_congr {s t : State} (throttle : t.throttle.inForce = s.throttle.inForce) (floor : t.obj 0x1100 1 = s.obj 0x1100 1)
    (ceiling : t.obj 0x1100 2 = s.obj 0x1100 2) : t.stepFloor = s.stepFloor ∧ t.stepMax = s.stepMax := by
  unfold State.stepFloor State.stepMax State.inForce
  rw [throttle, floor, ceiling]
  exact ⟨rfl, rfl⟩

theorem State.lower_congr {s t : State} (throttle : t.throttle.inForce = s.throttle.inForce) (floor : t.obj 0x1100 1 = s.obj 0x1100 1)
    (ceiling : t.obj 0x1100 2 = s.obj 0x1100 2) (v : Nat) : t.lower v = max s.stepFloor (min v s.stepMax - 1) := by
  obtain ⟨floor', ceiling'⟩ := State.stepBounds_congr throttle floor ceiling
  rw [State.lower, floor', ceiling']

/-! ### The duty of a cluster -/

/-- The duty of a cluster is computed from nothing that the limits are kept in. -/
theorem State.RegsOnly.issueDuty {s t : State} (h : RegsOnly limitKey s t) {c : Nat} (hc : c < 90) : t.issueDuty c = s.issueDuty c := by
  have field : clusterField c < 6 := by
    have all : ∀ c < 90, clusterField c < 6 := by decide
    exact all c hc
  have plane : t.obj (0x1040 + c) 1 = s.obj (0x1040 + c) 1 := h.obj fun k => absurd ((limitKey_okey (by decide) (by decide)).1 k) (by omega)
  have rail : t.obj (0x1020 + clusterField c) 2 = s.obj (0x1020 + clusterField c) 2 :=
    h.obj fun k => absurd ((limitKey_okey (by decide) (by decide)).1 k) (by omega)
  unfold State.issueDuty State.phaseDuty State.groupLimit State.limits
  rw [plane, rail, h.throttle_eq]

theorem State.obj_retarget_duty (s : State) (c : Nat) : (s.retarget c).obj (0x1310 + c) 3 = s.issueDuty c := by
  unfold State.retarget
  dsimp only
  generalize hu : ((s.setObj (0x1310 + c) 1 0 (s.prefStep c)).setObj (0x1310 + c) 2 0 (s.ownCeiling c)).setObj (0x1310 + c) 3 0 (s.issueDuty c) = u
  have shown : u.obj (0x1310 + c) 3 = s.issueDuty c := by
    rw [← hu]
    exact State.obj_setObj_same ..
  split
  · split
    · rw [State.obj_setObj_ne _ _ (by decide) (by decide) (by decide) (by decide) (.inr (.inl (by decide)))]
      exact shown
    · exact shown
  · rw [State.obj_setObj_ne _ _ (by decide) (by decide) (by decide) (by decide) (.inr (.inl (by decide)))]
    exact shown

theorem State.obj_retarget_duty_ne (s : State) {c c' : Nat} (h : c' < c) (hc : c < 90) : (s.retarget c).obj (0x1310 + c') 3 = s.obj (0x1310 + c') 3 := by
  let own : Nat → Prop := fun k => (k / 2 ^ 24 = 0x1310 + c) ∨ (0x1450 ≤ k / 2 ^ 24)
  have key : ∀ j e, j < 256 → e < 65536 → own (okey (0x1310 + c) j e) := fun j e hj he => .inl (by unfold okey; omega)
  have clock : own (okey (0x1450 + c) 0 0) := .inr (by unfold okey; omega)
  have shown : State.RegsOnly own s (((s.setObj (0x1310 + c) 1 0 (s.prefStep c)).setObj (0x1310 + c) 2 0 (s.ownCeiling c)).setObj (0x1310 + c) 3 0 (s.issueDuty c)) :=
    (((State.RegsOnly.refl s).setObj _ (key 1 0 (by decide) (by decide))).setObj _ (key 2 0 (by decide) (by decide))).setObj _ (key 3 0 (by decide) (by decide))
  have all : State.RegsOnly own s (s.retarget c) := .ite (.ite (shown.setObj _ clock) shown) (shown.setObj _ (key 0 0 (by decide) (by decide)))
  refine all.obj ?_
  rintro (same | beyond) <;> unfold okey at * <;> omega

/-- Applying the limits shows each cluster the duty that applies. -/
theorem State.obj_refresh_duty (s : State) {c : Nat} (hc : c < 90) : s.refresh.obj (0x1310 + c) 3 = s.issueDuty c := by
  have sent : ∀ n ≤ 90, State.RegsOnly limitKey s (s.each (List.range n) State.retarget) ∧
      ∀ c < n, (s.each (List.range n) State.retarget).obj (0x1310 + c) 3 = s.issueDuty c := by
    intro n
    induction n with
    | zero => exact fun _ => ⟨.refl s, fun _ none' => absurd none' (by omega)⟩
    | succ n ih =>
      intro bound
      obtain ⟨only, shown⟩ := ih (by omega)
      have last : s.each (List.range (n + 1)) State.retarget = (s.each (List.range n) State.retarget).retarget n := by
        simp [State.each, List.range_succ]
      rw [last]
      refine ⟨only.retarget (by omega), fun c hc => ?_⟩
      rcases Nat.lt_succ_iff_lt_or_eq.1 hc with before | rfl
      · rw [State.obj_retarget_duty_ne _ before (by omega)]
        exact shown c before
      · rw [State.obj_retarget_duty]
        exact only.issueDuty (by omega)
  let shows : Nat → Prop := fun k => k / 2 ^ 24 < 0x130E ∨ k / 2 ^ 16 % 256 = 4
  unfold State.refresh
  dsimp only
  rw [← (sent 90 (by decide)).2 c hc]
  generalize s.each (List.range 90) State.retarget = u
  have rest : State.RegsOnly shows u ((((u.each (List.range 90) (fun t c => t.setObj (0x1310 + c) 4 0 (u.reasonBits c))).each ((List.range 14).drop 1)
      (fun t r => t.setReason r (((List.range 14).filter (fun r => decide (1 ≤ r) && (u.each (List.range 90) (fun t c => t.setObj (0x1310 + c) 4 0 (u.reasonBits c))).reasonActive r)).contains r))).setReason 0
      ((List.range 14).filter (fun r => decide (1 ≤ r) && (u.each (List.range 90) (fun t c => t.setObj (0x1310 + c) 4 0 (u.reasonBits c))).reasonActive r)).isEmpty)) := by
    have reason : ∀ (v : State) (r : Nat) (on : Bool), r < 14 → State.RegsOnly shows u v → State.RegsOnly shows u (v.setReason r on) := by
      intro v r on hr k
      have key : ∀ j, j < 256 → shows (okey (0x1300 + r) j 0) := fun j hj => .inl (by unfold okey; omega)
      exact .ite (((k.setObj _ (key 3 (by decide))).setObj _ (key 1 (by decide))).setObj _ (key 2 (by decide))) (.ite k (k.setObj _ (key 3 (by decide))))
    refine reason _ 0 _ (by decide) (.each (.each (.refl u) fun v c _ k => k.setObj _ (.inr (by unfold okey; omega))) fun v r mem k => ?_)
    exact reason v r _ (List.mem_range.1 (List.mem_of_mem_drop mem)) k
  refine rest.obj ?_
  rintro (below | four) <;> unfold okey at * <;> omega

/-! ### Current and droop (R436, R438, R454) -/

/-- The duty of a group after a reading: it holds from the fourth reading in a row above the limit until the 200th in a row at or below 90 %. -/
theorem State.groupAfter_duty (s : State) (g : GroupLimit) (limit ma : Nat) :
    (s.groupAfter g limit ma).duty = ((g.duty || decide ((if ma > 1000 * limit then g.above + 1 else 0) ≥ 4)) &&
      decide ((if ma ≤ 900 * limit then g.below + 1 else 0) < 200)) := by
  unfold State.groupAfter
  simp only [apply_ite GroupLimit.duty, ite_self]

theorem State.groupAfter_holds (s : State) {g : GroupLimit} {limit ma : Nat} (above : 3 ≤ g.above) (exceeds : 1000 * limit < ma) :
    (s.groupAfter g limit ma).duty = true := by
  rw [State.groupAfter_duty, if_pos exceeds, if_neg (by omega)]
  simp [above]

theorem State.groupAfter_releases (s : State) {g : GroupLimit} {limit ma : Nat} (below : 199 ≤ g.below) (under : ma ≤ 900 * limit) :
    (s.groupAfter g limit ma).duty = false := by
  rw [State.groupAfter_duty, if_pos under, decide_eq_false (by omega : ¬ g.below + 1 < 200), Bool.and_false]

/-- A reading above 95 % while the duty holds lowers the ceiling of the group. -/
theorem State.groupAfter_lowers (s : State) {g : GroupLimit} {limit ma : Nat} (held : g.duty = true) (near : 950 * limit < ma) (since : 199 ≤ g.since) :
    (s.groupAfter g limit ma).cur = s.lower g.cur := by
  unfold State.groupAfter
  simp only [held, Bool.true_or, true_and]
  rw [if_pos (by omega)]

theorem execRailGroupCurrentReading_limits {s : State} {f ma : Nat} (hf : f < 6) :
    ∃ t, exec (.railGroupCurrentReading f ma) s = .next t ∧ t.obj (0x1020 + f) 1 = ma ∧ t = { s with regs := t.regs, throttle := t.throttle } ∧
      (3 ≤ (s.groupLimit f).above → 1000 * s.obj (0x1020 + f) 0 < ma →
        (t.groupLimit f).duty = true ∧ ∀ c, c < 90 → clusterField c = f → t.obj (0x1310 + c) 3 ≤ 12) ∧
      (199 ≤ (s.groupLimit f).below → ma ≤ 900 * s.obj (0x1020 + f) 0 → (t.groupLimit f).duty = false) ∧
      ((s.groupLimit f).duty = true → 950 * s.obj (0x1020 + f) 0 < ma → 199 ≤ (s.groupLimit f).since →
        (t.groupLimit f).cur = max s.stepFloor (min (s.groupLimit f).cur s.stepMax - 1)) ∧
      (∀ g, g ≠ f → t.groupLimit g = s.groupLimit g) := by
  let s1 := s.setObj (0x1020 + f) 1 0 ma
  have limit : s1.obj (0x1020 + f) 0 = s.obj (0x1020 + f) 0 :=
    State.obj_setObj_ne _ _ (by decide) (by decide) (by decide) (by decide) (.inr (.inl (by decide)))
  have floor : ∀ j, j < 256 → s1.obj 0x1100 j = s.obj 0x1100 j := fun j hj =>
    State.obj_setObj_ne _ _ hj (by decide) (by decide) (by decide) (.inl (by omega))
  let g := s1.groupAfter (s.groupLimit f) (s.obj (0x1020 + f) 0) ma
  have run : exec (.railGroupCurrentReading f ma) s = .next (s1.setGroup f g).refresh := by
    show execRailGroupCurrentReading f ma s = _
    unfold execRailGroupCurrentReading
    dsimp only
    rw [show (s.setObj (0x1020 + f) 1 0 ma).obj (0x1020 + f) 0 = s.obj (0x1020 + f) 0 from limit]
    rfl
  have after : (s1.setGroup f g).refresh.groupLimit f = g := (State.groupLimit_refresh ..).trans (State.groupLimit_setGroup ..)
  refine ⟨_, run, ?_, ?_, fun above exceeds => ⟨?_, fun c hc field => ?_⟩, fun below under => ?_, fun held near since => ?_, fun g' other => ?_⟩
  · exact (State.obj_refresh _ (by decide) (by decide) (by omega)).trans (State.obj_setObj_same ..)
  · exact (s1.setGroup f g).refresh_regsOnly.regs_throttle rfl
  · exact (congrArg GroupLimit.duty after).trans (s1.groupAfter_holds above exceeds)
  · rw [State.obj_refresh_duty _ hc, State.issueDuty, field, State.groupLimit_setGroup, show g.duty = true from s1.groupAfter_holds above exceeds]
    simp only [if_true]
    omega
  · exact (congrArg GroupLimit.duty after).trans (s1.groupAfter_releases below under)
  · rw [after]
    exact (s1.groupAfter_lowers held near since).trans (State.lower_congr (s := s) (t := s1) rfl (floor 1 (by decide)) (floor 2 (by decide)) _)
  · exact (State.groupLimit_refresh ..).trans (State.groupLimit_setGroup_ne _ _ other)

/-- The controller's state changed after registers. -/
theorem State.RegsOnly.modThrottle_rest {P : Nat → Prop} {s t : State} (h : State.RegsOnly P s t) (f : Throttle → Throttle) :
    t.modThrottle f = { s with regs := (t.modThrottle f).regs, throttle := (t.modThrottle f).throttle } := by
  obtain ⟨regs, rfl⟩ : ∃ regs, t = { s with regs := regs } := ⟨_, h.rest⟩
  rfl

theorem execDroopEvent_steps {s : State} {c : Nat} (hc : c < 90) (on : s.plane c = plOn) (full : s.obj (0x1450 + c) 4 = 0) :
    ∃ t, exec (.droopEvent c) s = .next t ∧ t.obj (0x1450 + c) 4 = 1 ∧ t.obj (0x1450 + c) 1 = s.obj (0x1450 + c) 1 / 2 ∧
      t.obj (0x1310 + c) 6 = min (s.obj (0x1310 + c) 6 + 1) (2 ^ 32 - 1) ∧ t = { s with regs := t.regs, throttle := t.throttle } ∧
      ((s.limits c).hold = false → 7 ≤ ((s.limits c).marks.filter (fun m => decide (s.elapsed < 4000000 + m))).length →
        (t.limits c).hold = true ∧ (t.limits c).droop = max s.stepFloor (min (s.limits c).droop s.stepMax - 1)) ∧
      ((s.limits c).hold = false → ((s.limits c).marks.filter (fun m => decide (s.elapsed < 4000000 + m))).length < 7 →
        (t.limits c).hold = false ∧ (t.limits c).droop = (s.limits c).droop) := by
  let s1 := ((s.setObj (0x1450 + c) 4 0 1).setObj (0x1450 + c) 1 0 (s.obj (0x1450 + c) 1 / 2)).count (0x1310 + c) 6 0 32
  have run : exec (.droopEvent c) s = .next (s1.modLimit c s1.droopAfter).refresh :=
    congrArg Host.Outcome.next (if_pos ⟨on, full⟩)
  have written : State.RegsOnly (fun _ => True) s s1 := ((State.RegsOnly.refl s).setObj _ trivial).setObj _ trivial |>.setObj _ trivial
  have time : s1.elapsed = s.elapsed := by rw [written.rest]
  have before : s1.limits c = s.limits c := by unfold State.limits; rw [written.throttle_eq]
  have after : (s1.modLimit c s1.droopAfter).refresh.limits c = s1.droopAfter (s.limits c) :=
    (State.limits_refresh ..).trans ((State.limits_modLimit ..).trans (by rw [before]))
  have floor : ∀ j, j < 256 → s1.obj 0x1100 j = s.obj 0x1100 j := fun j hj => by
    simp only [s1, State.count]
    rw [State.obj_setObj_ne _ _ hj (by decide) (by decide) (by decide) (.inl (by omega)), State.obj_setObj_ne _ _ hj (by decide) (by decide) (by decide) (.inl (by omega)),
      State.obj_setObj_ne _ _ hj (by decide) (by decide) (by decide) (.inl (by omega))]
  have kept : ∀ i j, j < 256 → ¬ ((0x1300 ≤ i ∧ i < 0x1370 ∧ j < 5) ∨ (0x1450 ≤ i ∧ i < 0x14AA ∧ j = 0)) →
      (s1.modLimit c s1.droopAfter).refresh.obj i j = s1.obj i j := fun i j hj out => (State.obj_refresh _ hj (by decide) out).trans (State.obj_modThrottle ..)
  refine ⟨_, run, ?_, ?_, ?_, ?_, fun free marks => ?_, fun free marks => ?_⟩
  · rw [kept _ _ (by decide) (by omega)]
    simp only [s1, State.count]
    rw [State.obj_setObj_ne _ _ (by decide) (by decide) (by decide) (by decide) (.inl (by omega)),
      State.obj_setObj_ne _ _ (by decide) (by decide) (by decide) (by decide) (.inr (.inl (by decide)))]
    exact State.obj_setObj_same ..
  · rw [kept _ _ (by decide) (by omega)]
    simp only [s1, State.count]
    rw [State.obj_setObj_ne _ _ (by decide) (by decide) (by decide) (by decide) (.inl (by omega))]
    exact State.obj_setObj_same ..
  · rw [kept _ _ (by decide) (by omega)]
    simp only [s1]
    rw [State.obj_count_same, State.obj_setObj_ne _ _ (by decide) (by decide) (by decide) (by decide) (.inr (.inl (by decide))),
      State.obj_setObj_ne _ _ (by decide) (by decide) (by decide) (by decide) (.inr (.inl (by decide)))]
  · exact (s1.modLimit c s1.droopAfter).refresh_regsOnly.regs_throttle (written.modThrottle_rest _)
  · have eighth : (s1.elapsed :: (s.limits c).marks.filter (fun t => decide (s1.elapsed < 4000000 + t))).length ≥ 8 := by rw [time]; exact Nat.succ_le_succ marks
    rw [after, State.droopAfter]
    rw [if_neg (by simp [free]), if_pos eighth]
    exact ⟨rfl, State.lower_congr (s := s) (t := s1) (by rw [written.throttle_eq]) (floor 1 (by decide)) (floor 2 (by decide)) _⟩
  · have fewer : ¬ (s1.elapsed :: (s.limits c).marks.filter (fun t => decide (s1.elapsed < 4000000 + t))).length ≥ 8 := by
      rw [time]; exact Nat.not_le.2 (Nat.succ_lt_succ marks)
    rw [after, State.droopAfter]
    rw [if_neg (by simp [free]), if_neg fewer]
    exact ⟨free, rfl⟩

theorem execDroopExit_returns {s : State} {c : Nat} (hc : c < 90) (down : s.obj (0x1450 + c) 4 = 1) (runs : s.obj (0x1450 + c) 1 ≠ 0) :
    ∃ t, exec (.droopExit c) s = .next t ∧ t.obj (0x1450 + c) 4 = 0 ∧ t.obj (0x1450 + c) 1 = freqTable.getD (s.obj (0x1310 + c) 0) 0 ∧ t = { s with regs := t.regs } := by
  let s1 := (s.setObj (0x1450 + c) 4 0 0).setObj (0x1450 + c) 1 0 (freqTable.getD (s.obj (0x1310 + c) 0) 0)
  have run : exec (.droopExit c) s = .next s1.refresh := by
    show execDroopExit c s = _
    unfold execDroopExit
    rw [if_pos down, if_neg runs]
  refine ⟨_, run, ?_, ?_, ?_⟩
  · rw [State.obj_refresh _ (by decide) (by decide) (by omega)]
    simp [s1, State.obj_setObj, okey]
  · rw [State.obj_refresh _ (by decide) (by decide) (by omega)]
    exact State.obj_setObj_same ..
  · have written : State.RegsOnly (fun _ => True) s s1 := ((State.RegsOnly.refl s).setObj _ trivial).setObj _ trivial
    exact (written.trans (s1.refresh_regsOnly.mono fun _ _ => trivial)).rest

theorem execDroopHoldExpiry_ends {s : State} {c : Nat} (held : (s.limits c).hold = true) (past : (s.limits c).holdAt + 100 * msTide ≤ s.elapsed) :
    ∃ t, exec (.droopHoldExpiry c) s = .next t ∧ (t.limits c).hold = false ∧ (t.limits c).droop = (s.limits c).droop ∧ t = { s with throttle := t.throttle } := by
  have run : exec (.droopHoldExpiry c) s = .next (s.modLimit c (fun l => { l with hold := false, inHold := 0, riseTicks := 0 })) := by
    show execDroopHoldExpiry c s = _
    unfold execDroopHoldExpiry
    rw [if_pos ⟨held, past⟩]
  refine ⟨_, run, ?_, ?_, rfl⟩
  · rw [State.limits_modLimit]
  · rw [State.limits_modLimit]

/-! ### The control tick (R433-R435, R443) -/

/-- A step of the control tick that leaves what the caps are computed from: everything but registers of limits, messages and the controller's state. -/
structure State.TickStep (s t : State) : Prop where
  rest : t = { s with regs := t.regs, sent := t.sent, throttle := t.throttle }
  regs : ∀ k, ¬ limitKey k → t.reg k = s.reg k

namespace State.TickStep
variable {s t u : State}

theorem refl (s : State) : s.TickStep s := ⟨rfl, fun _ _ => rfl⟩

theorem trans (h : s.TickStep t) (g : t.TickStep u) : s.TickStep u :=
  ⟨g.rest.trans (by rw [h.rest]), fun k out => (g.regs k out).trans (h.regs k out)⟩

theorem of_regsOnly (h : State.RegsOnly limitKey s t) : s.TickStep t := by
  refine ⟨?_, h.regs⟩
  rw [h.rest]

theorem modThrottle (h : s.TickStep t) (f : Throttle → Throttle) : s.TickStep (t.modThrottle f) := h.trans ⟨rfl, fun _ _ => rfl⟩

theorem modLimit (h : s.TickStep t) (c : Nat) (f : ClusterLimit → ClusterLimit) : s.TickStep (t.modLimit c f) := h.modThrottle _

theorem emit (h : s.TickStep t) (m : Msg) : s.TickStep (t.emit m) := h.trans ⟨rfl, fun _ _ => rfl⟩

theorem each {α : Type} {xs : List α} {f : State → α → State} (h : s.TickStep t) (k : ∀ u x, s.TickStep u → s.TickStep (f u x)) :
    s.TickStep (t.each xs f) := by
  unfold State.each
  induction xs generalizing t with
  | nil => exact h
  | cons x xs ih => exact ih (k t x h)

theorem ite {c : Prop} [Decidable c] (h : s.TickStep t) (g : s.TickStep u) : s.TickStep (if c then t else u) := by
  split
  · exact h
  · exact g

theorem obj (h : s.TickStep t) {i j e : Nat} (hj : j < 256) (he : e < 65536)
    (out : ¬ ((0x1300 ≤ i ∧ i < 0x1370 ∧ j < 5) ∨ (0x1450 ≤ i ∧ i < 0x14AA ∧ j = 0))) : t.obj i j e = s.obj i j e :=
  h.regs _ fun k => out ((limitKey_okey hj he).1 k)

end State.TickStep

theorem State.accrue_regsOnly (s : State) : State.RegsOnly (fun k => 0x1300 ≤ k / 2 ^ 24 ∧ k / 2 ^ 24 < 0x130E ∧ k / 2 ^ 16 % 256 = 0) s s.accrue :=
  .each (.refl s) fun _ r mem k => .ite (k.setObj _ (by have := List.mem_range.1 mem; unfold okey; omega)) k

theorem State.droopTick_step (s : State) : s.TickStep s.droopTick :=
  .each (.refl s) fun _ _ k => .ite k (.ite (k.modLimit ..) (k.modLimit ..))

theorem State.slackTick_step (s : State) : s.TickStep s.slackTick := by
  refine .each (.each (.each (.refl s) fun _ _ k => k.modThrottle _) fun _ _ k => k.modThrottle _) fun _ _ k => .ite k ?_
  exact (k.each fun _ _ k => k.emit _).modThrottle _

/-- After the change of R434 a control tick changes registers of limits, messages and the controller's state alone. -/
theorem State.afterCap_step (s : State) : s.TickStep s.droopTick.refresh.slackTick :=
  (s.droopTick_step.trans (.of_regsOnly s.droopTick.refresh_regsOnly)).trans (State.slackTick_step _)

/-- What a control tick notes before its change: the averages, the effective caps, and which cap is exceeded. -/
def State.capNoted (s : State) (a b : Nat) : State :=
  ((((s.setObj 0x1101 2 0 a).setObj 0x1101 3 0 b).setObj 0x1101 7 0 s.slowCap.1).setObj 0x1101 8 0 s.fastCap).modThrottle
    (fun t => { t with fast := decide (a > s.fastCap), slow := if b > s.slowCap.1 then s.slowCap.2 else 0, since := t.since + 1 })

/-- The change of a control tick. -/
def State.capChanged (s : State) (a b : Nat) : State :=
  if (a > s.fastCap ∧ s.throttle.since + 1 ≥ 10) ∨ (b > s.slowCap.1 ∧ s.throttle.since + 1 ≥ 500) then (s.capNoted a b).lowerOnce
  else if 100 * a ≤ 97 * s.fastCap ∧ 100 * a ≤ 97 * s.slowCap.1 ∧ s.throttle.since + 1 ≥ 100 then (s.capNoted a b).raiseOnce
  else (s.capNoted a b).modThrottle (fun t => { t with unreached := false })

theorem State.capTick_eq (s : State) (a b : Nat) :
    s.capTick a b = (s.capChanged a b).setObj 0x1101 6 0 (if (s.capChanged a b).throttle.unreached then stCapUnreachable else 0) := by
  unfold State.capTick State.capChanged State.capNoted
  cases s.slowCap
  rfl

theorem State.obj_capNoted (s : State) (a b : Nat) {i j : Nat} (hj : j < 256) (h : i ≠ 0x1101 ∨ (j ≠ 2 ∧ j ≠ 3 ∧ j ≠ 7 ∧ j ≠ 8)) :
    (s.capNoted a b).obj i j = s.obj i j := by
  unfold State.capNoted
  rw [State.obj_modThrottle]
  simp only [State.obj_setObj]
  rw [if_neg (by unfold okey; omega), if_neg (by unfold okey; omega), if_neg (by unfold okey; omega), if_neg (by unfold okey; omega)]

theorem State.capNoted_bounds (s : State) (a b : Nat) : (s.capNoted a b).stepFloor = s.stepFloor ∧ (s.capNoted a b).stepMax = s.stepMax :=
  State.stepBounds_congr rfl (s.obj_capNoted a b (by decide) (.inl (by decide))) (s.obj_capNoted a b (by decide) (.inl (by decide)))

/-- The largest of some values and a base that none exceeds or that one of them is. -/
theorem foldl_max_eq {α : Type} {f : α → Nat} {h : Nat} (xs : List α) (base : Nat) (hb : base ≤ h) (all : ∀ x ∈ xs, f x ≤ h)
    (one : base = h ∨ ∃ x ∈ xs, f x = h) : xs.foldl (fun m x => max m (f x)) base = h := by
  induction xs generalizing base with
  | nil => simpa using one
  | cons x xs ih =>
    have hx := all x List.mem_cons_self
    refine ih (max base (f x)) (by omega) (fun y mem => all y (List.mem_cons_of_mem _ mem)) ?_
    rcases one with rfl | ⟨y, mem, rfl⟩
    · exact .inl (by omega)
    · rcases List.mem_cons.1 mem with rfl | mem
      · exact .inl (by omega)
      · exact .inr ⟨y, mem, rfl⟩

/-- The highest step applied to an ON cluster. -/
theorem State.highestStep_eq {s : State} {h : Nat} (low : s.stepFloor ≤ h) (all : ∀ c, c < 90 → s.plane c = 2 → s.obj (0x1310 + c) 0 ≤ h)
    (one : h = s.stepFloor ∨ ∃ c, c < 90 ∧ s.plane c = 2 ∧ s.obj (0x1310 + c) 0 = h) : s.highestStep = h := by
  refine foldl_max_eq _ _ low (fun c mem => ?_) ?_
  · obtain ⟨range, on⟩ := List.mem_filter.1 mem
    exact all c (List.mem_range.1 range) (by simpa using on)
  · rcases one with floor | ⟨c, hc, on, step⟩
    · exact .inl floor.symm
    · exact .inr ⟨c, List.mem_filter.2 ⟨List.mem_range.2 hc, by simpa using on⟩, step⟩

/-! The three ways a lowering can go (R434, R443), and a raise. -/

theorem State.lowerOnce_ceiling {s : State} (above : s.stepFloor < s.highestStep) :
    s.lowerOnce.obj 0x1101 4 = max s.stepFloor (min (s.obj 0x1101 4) s.highestStep - 1) ∧ s.lowerOnce.obj 0x1101 5 = s.obj 0x1101 5 := by
  unfold State.lowerOnce
  dsimp only
  rw [if_pos above]
  exact ⟨State.obj_setObj_same .., State.obj_setObj_sub _ _ _ _ (by decide)⟩

theorem State.lowerOnce_duty {s : State} (floor : ¬ s.stepFloor < s.highestStep) (more : 1 < s.obj 0x1101 5) (job : partitionNumbers.any s.weirJob = true) :
    s.lowerOnce.obj 0x1101 4 = s.stepFloor ∧ s.lowerOnce.obj 0x1101 5 = s.obj 0x1101 5 - 1 := by
  unfold State.lowerOnce
  dsimp only
  rw [if_neg floor, if_neg (by simp [job]; omega)]
  exact ⟨(State.obj_setObj_sub _ _ _ _ (by decide)).trans (State.obj_setObj_same ..), State.obj_setObj_same ..⟩

theorem State.lowerOnce_unreachable {s : State} (floor : ¬ s.stepFloor < s.highestStep) (none' : ¬ (1 < s.obj 0x1101 5 ∧ partitionNumbers.any s.weirJob = true)) :
    s.lowerOnce.regs = s.regs ∧ s.lowerOnce.throttle.unreached = true := by
  have least : s.obj 0x1101 5 ≤ 1 ∨ (!partitionNumbers.any s.weirJob) = true := by
    rcases Nat.lt_or_ge 1 (s.obj 0x1101 5) with more | few
    · exact .inr (by simpa using fun job => none' ⟨more, job⟩)
    · exact .inl few
  unfold State.lowerOnce
  dsimp only
  rw [if_neg floor, if_pos least]
  split
  · next stands => exact ⟨rfl, stands⟩
  · exact ⟨rfl, rfl⟩

theorem State.raiseOnce_raises (s : State) : s.raiseOnce.throttle.unreached = false ∧
    s.raiseOnce.obj 0x1101 5 = (if s.obj 0x1101 5 < 16 then s.obj 0x1101 5 + 1 else s.obj 0x1101 5) ∧
    s.raiseOnce.obj 0x1101 4 = if s.obj 0x1101 5 < 16 then s.obj 0x1101 4 else if s.obj 0x1101 4 < s.stepMax then s.obj 0x1101 4 + 1 else s.obj 0x1101 4 := by
  unfold State.raiseOnce
  dsimp only
  split
  · exact ⟨rfl, State.obj_setObj_same .., State.obj_setObj_sub _ _ _ _ (by decide)⟩
  · split
    · exact ⟨rfl, State.obj_setObj_sub _ _ _ _ (by decide), State.obj_setObj_same ..⟩
    · exact ⟨rfl, rfl, rfl⟩

/-- A lowering or raise writes the ceiling and the weir's duty alone of the registers. -/
theorem State.obj_capChanged (s : State) (a b : Nat) {i j : Nat} (hj : j < 256) (h : i ≠ 0x1101 ∨ (j ≠ 4 ∧ j ≠ 5)) :
    (s.capChanged a b).obj i j = (s.capNoted a b).obj i j := by
  have four : ∀ (u : State) (v : Nat), (u.setObj 0x1101 4 0 v).obj i j = u.obj i j := fun u v =>
    State.obj_setObj_ne u v hj (by decide) (by decide) (by decide) (by omega)
  have five : ∀ (u : State) (v : Nat), (u.setObj 0x1101 5 0 v).obj i j = u.obj i j := fun u v =>
    State.obj_setObj_ne u v hj (by decide) (by decide) (by decide) (by omega)
  unfold State.capChanged
  generalize s.capNoted a b = u
  unfold State.lowerOnce State.raiseOnce
  dsimp only
  split
  · split
    · exact four ..
    · split
      · split
        · rfl
        · rfl
      · exact (five ..).trans (four ..)
  · split
    · split
      · exact five ..
      · split
        · exact four ..
        · rfl
    · rfl

/-- State `t` comes of `s` by registers, messages and the controller's state alone. -/
def State.onlyCaps (s t : State) : Prop := t = { s with regs := t.regs, sent := t.sent, throttle := t.throttle }

theorem State.onlyCaps_refl (s : State) : s.onlyCaps s := rfl

theorem State.onlyCaps.trans {s t u : State} (h : s.onlyCaps t) (g : t.onlyCaps u) : s.onlyCaps u :=
  calc u = { t with regs := u.regs, sent := u.sent, throttle := u.throttle } := g
    _ = { s with regs := u.regs, sent := u.sent, throttle := u.throttle } := by rw [show t = { s with regs := t.regs, sent := t.sent, throttle := t.throttle } from h]

theorem State.onlyCaps.setObj {s t : State} (h : s.onlyCaps t) (i j e v : Nat) : s.onlyCaps (t.setObj i j e v) := h.trans rfl

theorem State.onlyCaps.modThrottle {s t : State} (h : s.onlyCaps t) (f : Throttle → Throttle) : s.onlyCaps (t.modThrottle f) := h.trans rfl

theorem State.onlyCaps.reportFor {s t : State} (h : s.onlyCaps t) (q : Option Nat) (cls : Nat) (x y : Suspect) (st d : Nat) : s.onlyCaps (t.reportFor q cls x y st d) :=
  h.trans rfl

theorem State.onlyCaps.lowerOnce {s t : State} (h : s.onlyCaps t) : s.onlyCaps t.lowerOnce := by
  unfold State.lowerOnce
  dsimp only
  split
  · exact (h.setObj ..).modThrottle _
  · split
    · split
      · exact h
      · exact (h.modThrottle _).reportFor ..
    · exact ((h.setObj ..).setObj ..).modThrottle _

theorem State.onlyCaps.raiseOnce {s t : State} (h : s.onlyCaps t) : s.onlyCaps t.raiseOnce := by
  unfold State.raiseOnce
  dsimp only
  split
  · exact ((h.modThrottle _).setObj ..).modThrottle _
  · split
    · exact ((h.modThrottle _).setObj ..).modThrottle _
    · exact h.modThrottle _

theorem State.capChanged_rest (s : State) (a b : Nat) : s.onlyCaps (s.capChanged a b) := by
  have noted : s.onlyCaps (s.capNoted a b) := (((((State.onlyCaps_refl s).setObj ..).setObj ..).setObj ..).setObj ..).modThrottle _
  unfold State.capChanged
  split
  · exact noted.lowerOnce
  · split
    · exact noted.raiseOnce
    · exact noted.modThrottle _

/-! The state that a control tick decides on: the reasons' time counted, every limit written in force. -/

def State.tickStart (s : State) : State := s.accrue.applyWritten

theorem State.obj_tickStart (s : State) {i j : Nat} (hj : j < 256) (h : i < 0x1300 ∨ 0x130E ≤ i) : s.tickStart.obj i j = s.obj i j := by
  rw [State.tickStart, State.applyWritten, State.obj_modThrottle]
  exact s.accrue_regsOnly.obj (by unfold okey; omega)

theorem State.tickStart_rest (s : State) : s.tickStart = { s with regs := s.tickStart.regs, throttle := s.tickStart.throttle } := by
  have only := s.accrue_regsOnly
  have kept := only.throttle_eq
  unfold State.tickStart State.applyWritten State.modThrottle
  generalize s.accrue = u at only kept ⊢
  rw [only.rest]

theorem State.tickStart_throttle (s : State) : s.tickStart.throttle = { s.throttle with inForce := [] } := by
  rw [State.tickStart, State.applyWritten, State.modThrottle_throttle, s.accrue_regsOnly.throttle_eq]

theorem State.tickStart_bounds (s : State) : s.tickStart.stepFloor = s.obj 0x1100 1 ∧ s.tickStart.stepMax = s.obj 0x1100 2 := by
  unfold State.stepFloor State.stepMax State.inForce
  rw [State.tickStart_throttle, s.obj_tickStart (by decide) (.inl (by decide)), s.obj_tickStart (by decide) (.inl (by decide))]
  exact ⟨rfl, rfl⟩

theorem State.tickStart_caps (s : State) : s.tickStart.slowCap = s.slowCap ∧ s.tickStart.fastCap = s.fastCap := by
  have slow : s.tickStart.slowCap = s.slowCap := by
    unfold State.slowCap State.inletLimit State.flowLimit
    rw [s.obj_tickStart (by decide) (.inr (by decide)), s.obj_tickStart (by decide) (.inr (by decide)), s.obj_tickStart (by decide) (.inl (by decide)),
      State.tickStart_throttle, s.tickStart_rest]
  refine ⟨slow, ?_⟩
  unfold State.fastCap
  rw [slow, s.obj_tickStart (by decide) (.inl (by decide)), s.tickStart_rest]

theorem State.weirJob_iff (s : State) : partitionNumbers.any s.weirJob = true ↔ ∃ q ∈ List.range 12, s.jobState q = 3 ∨ s.jobState q = 2 := by
  simp [State.weirJob, partitionNumbers]

theorem State.jobState_tickStart (s : State) (a b q : Nat) : (s.tickStart.capNoted a b).jobState q = s.jobState q :=
  (State.obj_capNoted _ a b (by decide) (.inl (by omega))).trans (s.obj_tickStart (by decide) (.inr (by omega)))

theorem execControlTick_changes {s : State} {a b h : Nat} (low : s.obj 0x1100 1 ≤ h) (all : ∀ c, c < 90 → s.plane c = 2 → s.obj (0x1310 + c) 0 ≤ h)
    (one : h = s.obj 0x1100 1 ∨ ∃ c, c < 90 ∧ s.plane c = 2 ∧ s.obj (0x1310 + c) 0 = h) :
    ∃ t, exec (.controlTick a b) s = .next t ∧ t = { s with regs := t.regs, sent := t.sent, throttle := t.throttle } ∧
      t.obj 0x1101 2 = a ∧ t.obj 0x1101 3 = b ∧ t.obj 0x1101 7 = s.slowCap.1 ∧ t.obj 0x1101 8 = s.fastCap ∧
      (if (s.fastCap < a ∧ 10 ≤ s.throttle.since + 1) ∨ (s.slowCap.1 < b ∧ 500 ≤ s.throttle.since + 1) then
        if s.obj 0x1100 1 < h then t.obj 0x1101 4 = max (s.obj 0x1100 1) (min (s.obj 0x1101 4) h - 1) ∧ t.obj 0x1101 5 = s.obj 0x1101 5
        else if 1 < s.obj 0x1101 5 ∧ (∃ q ∈ List.range 12, s.jobState q = 3 ∨ s.jobState q = 2) then
          t.obj 0x1101 4 = s.obj 0x1100 1 ∧ t.obj 0x1101 5 = s.obj 0x1101 5 - 1
        else t.obj 0x1101 4 = s.obj 0x1101 4 ∧ t.obj 0x1101 5 = s.obj 0x1101 5 ∧ t.obj 0x1101 6 = stCapUnreachable
      else if 100 * a ≤ 97 * s.fastCap ∧ 100 * a ≤ 97 * s.slowCap.1 ∧ 100 ≤ s.throttle.since + 1 then
        t.obj 0x1101 6 = 0 ∧
        (if s.obj 0x1101 5 < 16 then t.obj 0x1101 5 = s.obj 0x1101 5 + 1 ∧ t.obj 0x1101 4 = s.obj 0x1101 4
         else t.obj 0x1101 5 = s.obj 0x1101 5 ∧ t.obj 0x1101 4 = if s.obj 0x1101 4 < s.obj 0x1100 2 then s.obj 0x1101 4 + 1 else s.obj 0x1101 4)
      else t.obj 0x1101 4 = s.obj 0x1101 4 ∧ t.obj 0x1101 5 = s.obj 0x1101 5 ∧ t.obj 0x1101 6 = 0) := by
  refine ⟨(s.tickStart.capTick a b).droopTick.refresh.slackTick, rfl, ?_⟩
  have later := (s.tickStart.capTick a b).afterCap_step
  generalize (s.tickStart.capTick a b).droopTick.refresh.slackTick = t at later ⊢
  -- What the tick decides on, in terms of the state before it.
  have start := s.tickStart_rest
  have same : ∀ j, j < 256 → s.tickStart.obj 0x1101 j = s.obj 0x1101 j := fun j hj => s.obj_tickStart hj (.inl (by decide))
  obtain ⟨slow, fast⟩ := s.tickStart_caps
  have since : s.tickStart.throttle.since = s.throttle.since := by rw [s.tickStart_throttle]
  have noted : ∀ j, j < 256 → j = 4 ∨ j = 5 ∨ j = 6 → (s.tickStart.capNoted a b).obj 0x1101 j = s.obj 0x1101 j := fun j hj sub =>
    (s.tickStart.obj_capNoted a b hj (.inr (by omega))).trans (same j hj)
  obtain ⟨floor, ceiling⟩ : (s.tickStart.capNoted a b).stepFloor = s.obj 0x1100 1 ∧ (s.tickStart.capNoted a b).stepMax = s.obj 0x1100 2 :=
    ⟨(s.tickStart.capNoted_bounds a b).1.trans s.tickStart_bounds.1, (s.tickStart.capNoted_bounds a b).2.trans s.tickStart_bounds.2⟩
  have highest : (s.tickStart.capNoted a b).highestStep = h := by
    have plane : ∀ c, c < 90 → (s.tickStart.capNoted a b).plane c = s.plane c := fun c hc =>
      (s.tickStart.obj_capNoted a b (by decide) (.inl (by omega))).trans (s.obj_tickStart (by decide) (.inl (by omega)))
    have step : ∀ c, c < 90 → (s.tickStart.capNoted a b).obj (0x1310 + c) 0 = s.obj (0x1310 + c) 0 := fun c hc =>
      (s.tickStart.obj_capNoted a b (by decide) (.inl (by omega))).trans (s.obj_tickStart (by decide) (.inr (by omega)))
    refine State.highestStep_eq (floor ▸ low) (fun c hc on => ?_) ?_
    · rw [step c hc]
      exact all c hc ((plane c hc).symm.trans on)
    · rcases one with base | ⟨c, hc, on, top⟩
      · exact .inl (base.trans floor.symm)
      · exact .inr ⟨c, hc, (plane c hc).trans on, (step c hc).trans top⟩
  have weir : partitionNumbers.any (s.tickStart.capNoted a b).weirJob = true ↔ ∃ q ∈ List.range 12, s.jobState q = 3 ∨ s.jobState q = 2 := by
    rw [State.weirJob_iff]
    simp only [State.jobState_tickStart]
  -- What the tick shows, in terms of its change.
  have shown : ∀ j, j < 256 → t.obj 0x1101 j = (s.tickStart.capTick a b).obj 0x1101 j := fun j hj => later.obj hj (by decide) (by omega)
  have changed : ∀ j, j < 256 → j ≠ 6 → t.obj 0x1101 j = (s.tickStart.capChanged a b).obj 0x1101 j := fun j hj other => by
    rw [shown j hj, State.capTick_eq, State.obj_setObj_sub _ _ _ _ other]
  have status : t.obj 0x1101 6 = if (s.tickStart.capChanged a b).throttle.unreached then stCapUnreachable else 0 := by
    rw [shown 6 (by decide), State.capTick_eq, State.obj_setObj_same]
  have beside : ∀ j, j < 256 → j ≠ 4 → j ≠ 5 → j ≠ 6 → t.obj 0x1101 j = (s.tickStart.capNoted a b).obj 0x1101 j := fun j hj h4 h5 h6 =>
    (changed j hj h6).trans (State.obj_capChanged _ a b hj (.inr ⟨h4, h5⟩))
  refine ⟨?_, ?_, ?_, ?_, ?_, ?_⟩
  · rw [later.rest, State.capTick_eq]
    show ({ s.tickStart.capChanged a b with regs := t.regs, sent := t.sent, throttle := t.throttle } : State) = _
    rw [State.capChanged_rest, start]
  · rw [beside 2 (by decide) (by decide) (by decide) (by decide)]
    simp [State.capNoted, State.obj_setObj, okey]
  · rw [beside 3 (by decide) (by decide) (by decide) (by decide)]
    simp [State.capNoted, State.obj_setObj, okey]
  · rw [beside 7 (by decide) (by decide) (by decide) (by decide), ← slow]
    simp [State.capNoted, State.obj_setObj, okey]
  · rw [beside 8 (by decide) (by decide) (by decide) (by decide), ← fast]
    simp [State.capNoted]
  · rw [changed 4 (by decide) (by decide), changed 5 (by decide) (by decide), status]
    unfold State.capChanged
    rw [slow, fast, since]
    by_cases lower : (s.fastCap < a ∧ 10 ≤ s.throttle.since + 1) ∨ (s.slowCap.1 < b ∧ 500 ≤ s.throttle.since + 1)
    · rw [if_pos lower, if_pos lower]
      by_cases above : s.obj 0x1100 1 < h
      · rw [if_pos above]
        obtain ⟨four, five⟩ := State.lowerOnce_ceiling (s := s.tickStart.capNoted a b) (by rw [floor, highest]; exact above)
        rw [four, five, floor, highest, noted 4 (by decide) (by decide), noted 5 (by decide) (by decide)]
        exact ⟨rfl, rfl⟩
      · rw [if_neg above]
        by_cases job : 1 < s.obj 0x1101 5 ∧ (∃ q ∈ List.range 12, s.jobState q = 3 ∨ s.jobState q = 2)
        · rw [if_pos job]
          obtain ⟨more, some'⟩ := job
          obtain ⟨four, five⟩ := State.lowerOnce_duty (s := s.tickStart.capNoted a b) (by rw [floor, highest]; exact above)
            (by rw [noted 5 (by decide) (by decide)]; exact more) (weir.2 some')
          rw [four, five, floor, noted 5 (by decide) (by decide)]
          exact ⟨rfl, rfl⟩
        · rw [if_neg job]
          obtain ⟨regs, unreached⟩ := State.lowerOnce_unreachable (s := s.tickStart.capNoted a b) (by rw [floor, highest]; exact above)
            (by rw [noted 5 (by decide) (by decide), weir]; exact job)
          rw [State.obj_congr regs, State.obj_congr regs, unreached, noted 4 (by decide) (by decide), noted 5 (by decide) (by decide)]
          exact ⟨rfl, rfl, rfl⟩
    · rw [if_neg lower, if_neg lower]
      by_cases raise : 100 * a ≤ 97 * s.fastCap ∧ 100 * a ≤ 97 * s.slowCap.1 ∧ 100 ≤ s.throttle.since + 1
      · rw [if_pos raise, if_pos raise]
        obtain ⟨reached, five, four⟩ := (s.tickStart.capNoted a b).raiseOnce_raises
        rw [reached, five, four, ceiling, noted 4 (by decide) (by decide), noted 5 (by decide) (by decide)]
        refine ⟨rfl, ?_⟩
        split
        · exact ⟨rfl, rfl⟩
        · exact ⟨rfl, rfl⟩
      · rw [if_neg raise, if_neg raise, State.obj_modThrottle, State.obj_modThrottle, noted 4 (by decide) (by decide), noted 5 (by decide) (by decide)]
        exact ⟨rfl, rfl, rfl⟩

/-- Settles O12, clause by clause. -/
theorem controlTickCurrentAndDroop : Obligations.ControlTickCurrentAndDroop := by
  refine ⟨fun s a b h low all one => execControlTick_changes low all one, fun s f ma hf => execRailGroupCurrentReading_limits hf,
    fun s c hc on full => execDroopEvent_steps hc on full, fun s c not' => ?_, fun s c hc down runs => execDroopExit_returns hc down runs, fun s c not' => ?_,
    fun s c held past => execDroopHoldExpiry_ends held past, fun s c not' => ?_⟩
  · show execDroopEvent c s = _
    rw [execDroopEvent, if_neg (fun both => not'.elim (fun off => off both.1) fun down => down both.2)]
  · show execDroopExit c s = _
    rw [execDroopExit, if_neg not']
  · show execDroopHoldExpiry c s = _
    refine congrArg _ (if_neg fun both => ?_)
    rcases not' with free | early
    · simp [free] at both
    · omega

end Sys2Proof.Machine
end

section
/-! PROOF. A packet that waits among the messages of a port leaves with an answer (14_causeway_links.md). -/

namespace Sys2Proof.Machine

/-- Device 0 in service, at whose port 0, which is not up, a mesh packet stands among the messages that wait for credit. -/
def packetStuck : State :=
  { State.reset.setObj 0x4000 0 0 0 with
    device := { State.reset.device with mode := .service }
    ports := [(0, { stuck := [(8, 1, .packet 0 false {})] })] }

/-- Is a message a packet of the mesh? -/
def isMeshPacket : Msg → Bool
  | .packet _ _ _ => true
  | _ => false

/-- Does a command end in a state that has sent a packet of the mesh? -/
def sendsPacket : Out → Bool
  | .next t => t.sent.any isMeshPacket
  | _ => false

/-- Refutes O19: a request answered FENCED makes the port send what waits at it, and where a mesh packet stands among its waiting messages, it enters the mesh. -/
theorem not_packetsBetweenDevices : ¬ Obligations.PacketsBetweenDevices := by
  rintro ⟨-, -, fenced, -⟩
  obtain ⟨t, -, run, -, -, -, -, -, -, unsent, -⟩ :=
    fenced packetStuck 0 0 {} (by decide +kernel) (by decide) (by decide +kernel) (.inr (by decide +kernel)) rfl
  have sends : sendsPacket (exec (.ingressRequest 0 0 {}) packetStuck) = true := by decide +kernel
  rw [run, sendsPacket, List.any_eq_true] at sends
  obtain ⟨m, mem, packet⟩ := sends
  cases m with
  | packet n b x => exact absurd (unsent n b x mem) (by simp [packetStuck, State.setObj, State.reset])
  | _ => exact absurd packet (by simp [isMeshPacket])

end Sys2Proof.Machine
end

section
/-! PROOF. The count of comparisons that a twin's scrub takes back (22_scour_and_twins.md). -/

namespace Sys2Proof.Machine

/-- Refutes O45: its clause of a TWIN_COMPARE of equal digests does not bound the banks of the rows that the twin has queued for sparing. In `twinQueued` the scrub that ends the twin's part takes a spare out of object 6050:03 (`State.obj_farBank`), and so takes back the comparison it has just counted. -/
theorem not_scourTwinsAndFaultRecords : ¬ Obligations.ScourTwinsAndFaultRecords := by
  rintro ⟨-, -, -, -, -, -, -, -, -, -, -, -, compares, -⟩
  have done : twinQueued.twinComplete doneRun = true := by decide +kernel
  have digest : twinQueued.primaryDigest doneRun = some (twinQueued.tile doneRun.twin).digest := by decide +kernel
  have works : twinLeaves.tileState 1 ≠ tsClosed := by decide +kernel
  have before : twinQueued.obj 0x6050 3 = 0 := by decide +kernel
  obtain ⟨equal, -⟩ := compares twinQueued 0 doneRun { twin := some doneRun } _ (by decide) rfl rfl digest rfl done (by decide) (by decide)
  obtain ⟨t, run, counted, -⟩ := equal rfl rfl
  rw [execTwinCompare_of_equal rfl rfl done digest rfl, Host.Outcome.next.injEq] at run
  have scrubbed : t.obj 0x6050 3 ≤ (twinLeaves.releaseTile 1).obj 0x6050 3 := by
    rw [← run]
    exact State.obj_sendBack_le works (by decide) (by decide)
  rw [← State.obj_farBank (twinLeaves.releaseTile 1), spares_twinLeaves, counted, before] at scrubbed
  exact absurd scrubbed (by decide)

end Sys2Proof.Machine
end

section
/-! PROOF. A relayed message waits at a port without credit (16_object_dictionary.md R382, 14_causeway_links.md R331). -/

namespace Sys2Proof.Machine

/-- Device 1 lies behind port 0, which is up and has no credit. -/
def relayWithoutCredit : State :=
  { (State.reset.setObj 0x4000 4 1 1).setObj 0x4010 1 0 psUp with ports := [(0, { credits := [] })] }

/-- A message of 16 bytes that asks to be relayed to device 1. -/
def relayToOne : List Byte := leBytes 16 (1 + 2 ^ 34 + 2 ^ 48 * 16 + 2 ^ 72)

/-- How many messages a command has sent when it ends. -/
def sentCount : Out → Nat
  | .next t => t.sent.length
  | _ => 0

theorem relayWithoutCredit_waits : sentCount (exec (.relay (.port 0 {}) relayToOne) relayWithoutCredit) = 0 := by decide +kernel

theorem headOf_relayToOne : hVersion (headOf relayToOne) = 1 ∧ hRelay (headOf relayToOne) = true ∧ hPortRelay (headOf relayToOne) = false ∧
    hResponse (headOf relayToOne) = false ∧ hTarget (headOf relayToOne) ≠ relayWithoutCredit.obj 0x4000 0 ∧
    relayWithoutCredit.routePort (hTarget (headOf relayToOne)) = some 0 ∧ relayWithoutCredit.takesFrame {} relayToOne.length = true := by decide +kernel

/-- RELAY does not send at once the message that waits for credit in `relayWithoutCredit`. -/
theorem relayWithoutCredit_not_sent {t : State} {m : Msg} (run : exec (.relay (.port 0 {}) relayToOne) relayWithoutCredit = .next t) :
    t.sent ≠ m :: relayWithoutCredit.sent := by
  have none := relayWithoutCredit_waits
  rw [run, sentCount] at none
  intro sent
  rw [sent] at none
  exact absurd none (by simp)

/-- Refutes O47: its clause of RELAY does not ask for credit at the port of the target's route, where the message waits without it. -/
theorem not_bamurnServesTheDictionary : ¬ Obligations.BamurnServesTheDictionary := by
  rintro ⟨-, -, -, -, -, -, -, -, -, relays, -⟩
  obtain ⟨version, relay, own, request, other, route, frame⟩ := headOf_relayToOne
  obtain ⟨forwards, -⟩ := relays relayWithoutCredit 0 _ 0 {} relayToOne (by decide +kernel) rfl version relay own
  obtain ⟨t, run, sent, -⟩ := forwards frame request other route
  exact relayWithoutCredit_not_sent run sent

/-- Refutes O58: its clause of RELAY asks for no credit either. -/
theorem not_serviceAndBamurnCommandsComplete : ¬ Obligations.ServiceAndBamurnCommandsComplete := by
  rintro ⟨-, -, -, -, -, -, -, -, -, -, -, -, -, -, -, -, -, -, -, -, -, -, -, -, forwards, -⟩
  obtain ⟨version, relay, own, request, other, route, frame⟩ := headOf_relayToOne
  obtain ⟨t, run, sent, -⟩ := forwards relayWithoutCredit 0 _ 0 {} relayToOne (by decide +kernel) rfl version relay own frame request other route
  exact relayWithoutCredit_not_sent run sent

end Sys2Proof.Machine
end

section
/-! PROOF. The end of a stage, of a start, and the next attempt (20_bring_up.md R469, R470, R482, R483, R485, R487, R488). -/

namespace Sys2Proof.Machine

/-! ### Fields of a sum, masks, tables of objects -/

theorem bitOf_foldl_setBit (xs : List Nat) (v k : Nat) : bitOf (xs.foldl (fun m i => setBit m i true) v) k = (decide (k ∈ xs) || bitOf v k) := by
  induction xs generalizing v with
  | nil => simp
  | cons x xs ih =>
    rw [List.foldl_cons, ih]
    by_cases same : k = x
    · subst same; simp [bitOf_setBit]
    · simp [bitOf_setBit_ne same, same]

/-- A list of entries writes no entry before its first. -/
theorem State.obj_setObjs_before (s : State) (i j e : Nat) (vs : List Nat) {i' j' e' : Nat} (other : ∀ x, e ≤ x → okey i' j' e' ≠ okey i j x) :
    (s.setObjs i j e vs).obj i' j' e' = s.obj i' j' e' := by
  induction vs generalizing s e with
  | nil => rfl
  | cons v vs ih =>
    rw [State.setObjs, ih _ _ fun x h => other x (by omega), State.obj_setObj, if_neg (other e le_rfl)]

theorem State.setObjs_rest (s : State) (i j e : Nat) (vs : List Nat) : s.setObjs i j e vs = { s with regs := (s.setObjs i j e vs).regs } := by
  induction vs generalizing s e with
  | nil => rfl
  | cons v vs ih => exact ih ..

/-- What a list of entries leaves in the entries it names. -/
theorem State.obj_setObjs (s : State) (i j e k : Nat) (vs : List Nat) (hk : k < vs.length) : (s.setObjs i j e vs).obj i j (e + k) = vs[k] := by
  induction vs generalizing s e k with
  | nil => exact absurd hk (by simp)
  | cons v vs ih =>
    cases k with
    | zero =>
      rw [State.setObjs, State.obj_setObjs_before _ _ _ _ _ fun x h same => by unfold okey at same; omega, Nat.add_zero, State.obj_setObj_same]
      rfl
    | succ k =>
      rw [State.setObjs, show e + (k + 1) = e + 1 + k by omega, ih _ _ _ (by simpa using hk)]
      rfl

theorem Tbl.find_filter_of_kept {α : Type} (t : Tbl α) {p : Nat × α → Bool} {k : Nat} (kept : ∀ v, p (k, v) = true) :
    Tbl.find (t.filter p) k = Tbl.find t k := by
  induction t with
  | nil => rfl
  | cons e r ih =>
    obtain ⟨j, v⟩ := e
    by_cases same : j = k
    · subst same; simp [Tbl.find, kept]
    · cases held : p (j, v) <;> simp [Tbl.find, held, ih, same]

/-! ### Changes of what was sent alone -/

/-- State `t` comes of `s` by messages alone. -/
def State.onlySends (s t : State) : Prop := t = { s with sent := t.sent }

theorem State.onlySends_refl (s : State) : s.onlySends s := rfl

theorem State.onlySends.emit {s t : State} (h : s.onlySends t) (m : Msg) : s.onlySends (t.emit m) :=
  calc t.emit m = { t with sent := m :: t.sent } := rfl
    _ = { s with sent := m :: t.sent } := by rw [show t = { s with sent := t.sent } from h]

theorem State.onlySends.reportFor {s t : State} (h : s.onlySends t) (q : Option Nat) (cls : Nat) (x y : Suspect) (st d : Nat) (u : Option Suspect) :
    s.onlySends (t.reportFor q cls x y st d u) := h.emit _

theorem State.onlySends.ite {s t u : State} {c : Prop} [Decidable c] (h : s.onlySends t) (g : s.onlySends u) : s.onlySends (if c then t else u) := by
  split
  · exact h
  · exact g

theorem State.onlySends.toRouted {s t : State} (h : s.onlySends t) (mtype body : Nat) : s.onlySends (t.toRouted mtype body) :=
  State.each_induction _ h fun _ _ _ k => k.emit _

theorem State.onlySends.reloadJobs {s t : State} (h : s.onlySends t) : s.onlySends t.reloadJobs :=
  State.each_induction _ h fun _ _ _ k => k.emit _

/-! ### Changes of registers and of the start alone -/

@[simp] theorem State.obj_modBoot (s : State) (f : Boot → Boot) (i j e : Nat) : (s.modBoot f).obj i j e = s.obj i j e := rfl

/-- State `t` comes of `s` by registers and the start's data alone. -/
def State.onlyStart (s t : State) : Prop := t = { s with regs := t.regs, boot := t.boot }

theorem State.onlyStart_refl (s : State) : s.onlyStart s := rfl

theorem State.onlyStart.trans {s t u : State} (h : s.onlyStart t) (g : t.onlyStart u) : s.onlyStart u :=
  calc u = { t with regs := u.regs, boot := u.boot } := g
    _ = { s with regs := u.regs, boot := u.boot } := by rw [show t = { s with regs := t.regs, boot := t.boot } from h]

theorem State.onlyStart.setObj {s t : State} (h : s.onlyStart t) (i j e v : Nat) : s.onlyStart (t.setObj i j e v) := h.trans rfl

theorem State.onlyStart.modBoot {s t : State} (h : s.onlyStart t) (f : Boot → Boot) : s.onlyStart (t.modBoot f) := h.trans rfl

theorem State.onlyStart.ports_eq {s t : State} (h : s.onlyStart t) : t.ports = s.ports := by
  rw [show t = { s with regs := t.regs, boot := t.boot } from h]

/-- The start's data changed after registers. -/
theorem State.RegsOnly.modBoot_rest {P : Nat → Prop} {s t : State} (h : State.RegsOnly P s t) (f : Boot → Boot) :
    t.modBoot f = { s with regs := t.regs, boot := f s.boot } := by
  obtain ⟨regs, rfl⟩ : ∃ regs, t = { s with regs := regs } := ⟨_, h.rest⟩
  rfl

/-! ### The stages -/

/-- The next stage begins after one that its own work neither fails nor moves (R467, R469). -/
theorem State.endStage_eq {s w : State} {r : StageReport} {k : Nat} (stage : s.obj 0x7000 3 = k) (before : k < 11) (ordinary : k ≠ 7)
    (work : (s.setObj 0x7010 1 k ((s.elapsed - s.boot.stageAt) / msTide)).stageWork k r = w) (active : w.boot.active = true)
    (still : w.obj 0x7000 3 = k) :
    s.endStage r = ((w.setObj 0x7000 3 0 (k + 1)).setObj 0x7000 4 0 w.tide).modBoot (fun b => { b with stageAt := w.elapsed }) := by
  unfold State.endStage
  dsimp only
  rw [stage, work, if_pos ⟨active, still, before⟩, if_neg (fun h => ordinary h.1)]

theorem execStageEnd_of_due {s : State} (r : StageReport) (due : s.stageDue = true) : exec (.stageEnd r) s = .next (s.endStage r) :=
  congrArg Host.Outcome.next (if_pos due)

theorem execStageEnd_of_not_due {s : State} (r : StageReport) (due : s.stageDue = false) : exec (.stageEnd r) s = .next s :=
  congrArg Host.Outcome.next (if_neg (by simp [due]))

/-- S0 with no rail down and nothing found failed changes nothing (R410). -/
theorem State.stage0_of_sound {s : State} {r : StageReport} (passed : r.failed = none)
    (rails : ∀ i ∈ [0x10A0, 0x10A5, 0x10A6], s.obj i 0 ≠ 2 ∧ popCount (railPhases (i - 0x10A0) - s.obj i 1) 6 < 2) : s.stage0 r = s := by
  have sound : [0x10A0, 0x10A5, 0x10A6].find? (fun i => s.obj i 0 == 2 || decide (popCount (railPhases (i - 0x10A0) - s.obj i 1) 6 ≥ 2)) = none := by
    rw [List.find?_eq_none]
    intro i mem
    obtain ⟨works, phases⟩ := rails i mem
    simp [works]; omega
  rw [State.stage0, passed, sound]

/-- The end of S0 keeps its duration and begins S1. -/
theorem execStageEnd_keepsDuration {s : State} {r : StageReport} (active : s.boot.active = true) (stage : s.obj 0x7000 3 = 0) (passed : r.failed = none)
    (rails : ∀ i ∈ [0x10A0, 0x10A5, 0x10A6], s.obj i 0 ≠ 2 ∧ popCount (railPhases (i - 0x10A0) - s.obj i 1) 6 < 2) :
    ∃ t, exec (.stageEnd r) s = .next t ∧ t.obj 0x7000 3 = 1 ∧ t.obj 0x7000 4 = s.tide ∧ t.obj 0x7010 1 0 = (s.elapsed - s.boot.stageAt) / msTide ∧
      t = { s with regs := t.regs, boot := { s.boot with stageAt := s.elapsed } } ∧ s.sameRegs t [okey 0x7000 3 0, okey 0x7000 4 0, okey 0x7010 1 0] := by
  set u := s.setObj 0x7010 1 0 ((s.elapsed - s.boot.stageAt) / msTide) with written
  have other : ∀ i j, j < 256 → i ≠ 0x7010 → u.obj i j = s.obj i j := fun i j hj hi =>
    State.obj_setObj_ne _ _ hj (by decide) (by decide) (by decide) (.inl hi)
  have work : u.stageWork 0 r = u := State.stage0_of_sound passed fun i mem => by
    have listed : i ≠ 0x7010 := by rintro rfl; revert mem; decide
    rw [other i 0 (by decide) listed, other i 1 (by decide) listed]
    exact rails i mem
  have run := (execStageEnd_of_due r (by simp [State.stageDue, active, stage])).trans (congrArg _
    (State.endStage_eq stage (by decide) (by decide) work active ((other 0x7000 3 (by decide) (by decide)).trans stage)))
  have changed : State.RegsOnly (fun _ => True) s ((u.setObj 0x7000 3 0 1).setObj 0x7000 4 0 u.tide) :=
    ((State.RegsOnly.refl s).setObj _ trivial).setObj _ trivial |>.setObj _ trivial
  refine ⟨_, run, ?_, State.obj_setObj_same .., ?_, ?_, ?_⟩
  · exact (State.obj_setObj_ne _ _ (by decide) (by decide) (by decide) (by decide) (.inr (.inl (by decide)))).trans (State.obj_setObj_same ..)
  · have kept : ((u.setObj 0x7000 3 0 1).setObj 0x7000 4 0 u.tide).obj 0x7010 1 0 = u.obj 0x7010 1 0 := by
      simp [State.obj_setObj, okey]
    exact kept.trans (State.obj_setObj_same ..)
  · exact changed.modBoot_rest _
  · refine State.sameRegs_congr (t := (u.setObj 0x7000 3 0 1).setObj 0x7000 4 0 u.tide) ?_ rfl
    exact State.sameRegs_setObj _ _ _ _ (State.sameRegs_setObj _ _ _ _ (State.sameRegs_setObj _ _ _ _ (State.sameRegs_refl _ _) (by simp)) (by simp)) (by simp)

/-! ### S9 (R482) -/

/-- The ports of S9 that are up with a wrong peer, then those that are missing. -/
def State.mismatching (s : State) : List Nat :=
  (List.range 16).filter (fun k => s.portUp k && !s.peerMatches k (s.boot.expected.getD k 0)) ++
    (List.range 16).filter (fun k => !s.portUp k && expects (s.boot.expected.getD k 0))

theorem State.stage9_eq {s : State} (hold : s.boot.topoHold = false) :
    s.stage9 = (s.setObj 0x7040 3 0 (s.mismatching.foldl (fun m k => setBit m k true) 0)).modBoot (fun b => { b with mismatch := !s.mismatching.isEmpty }) := by
  unfold State.stage9
  dsimp only
  rw [if_neg (by simp [hold])]
  rfl

theorem State.mem_mismatching {s : State} {k : Nat} (hk : k < 16) :
    k ∈ s.mismatching ↔ (if s.portUp k then s.peerMatches k (s.boot.expected.getD k 0) = false else expects (s.boot.expected.getD k 0) = true) := by
  cases up : s.portUp k <;> simp [State.mismatching, up, hk]

theorem execTopologyWaitExpiry_records {s : State} (active : s.boot.active = true) (stage : s.obj 0x7000 3 = 9) (hold : s.boot.topoHold = false)
    (past : s.stagePast (s.stageLimit 9 false) = true) :
    ∃ t, exec .topologyWaitExpiry s = .next t ∧ t.obj 0x7000 3 = 10 ∧ t.obj 0x7000 4 = s.tide ∧
      (∀ k, k < 16 → (bitOf (t.obj 0x7040 3) k = true ↔
        (if s.portUp k then s.peerMatches k (s.boot.expected.getD k 0) = false else expects (s.boot.expected.getD k 0) = true))) ∧
      t.ports = s.ports ∧ s.sameRegs t [okey 0x7000 3 0, okey 0x7000 4 0, okey 0x7010 1 9, okey 0x7040 3 0] := by
  set u := s.setObj 0x7010 1 9 ((s.elapsed - s.boot.stageAt) / msTide) with written
  have run : exec .topologyWaitExpiry s = .next (s.endStage {}) := congrArg Host.Outcome.next (if_pos ⟨active, stage, past⟩)
  have other : ∀ i j, j < 256 → i ≠ 0x7010 → u.obj i j = s.obj i j := fun i j hj hi =>
    State.obj_setObj_ne _ _ hj (by decide) (by decide) (by decide) (.inl hi)
  have up : ∀ k, k < 16 → u.portUp k = s.portUp k := fun k hk => by
    simp only [State.portUp, State.portState, other (0x4010 + k) 1 (by decide) (by omega)]
  have peer : ∀ k e, k < 16 → u.peerMatches k e = s.peerMatches k e := fun k e hk => by
    simp only [State.peerMatches, other (0x4010 + k) 3 (by decide) (by omega)]
    rfl
  have work : u.stageWork 9 {} = _ := State.stage9_eq (s := u) hold
  have still : (u.setObj 0x7040 3 0 (u.mismatching.foldl (fun m k => setBit m k true) 0)).obj 0x7000 3 = 9 :=
    (State.obj_setObj_ne _ _ (by decide) (by decide) (by decide) (by decide) (.inl (by decide))).trans ((other 0x7000 3 (by decide) (by decide)).trans stage)
  rw [State.endStage_eq stage (by decide) (by decide) work active still] at run
  generalize mask : u.mismatching.foldl (fun m k => setBit m k true) 0 = v at run
  have changed := (((((s.onlyStart_refl.setObj 0x7010 1 9 ((s.elapsed - s.boot.stageAt) / msTide)).setObj 0x7040 3 0 v).modBoot (fun b => { b with mismatch := !u.mismatching.isEmpty })).setObj 0x7000 3 0 10).setObj 0x7000 4 0 u.tide).modBoot
    (fun b => { b with stageAt := u.elapsed })
  refine ⟨_, run, ?_, State.obj_setObj_same .., fun k hk => ?_, changed.ports_eq, ?_⟩
  · exact (State.obj_setObj_ne _ _ (by decide) (by decide) (by decide) (by decide) (.inr (.inl (by decide)))).trans (State.obj_setObj_same ..)
  · rw [State.obj_modBoot, State.obj_setObj_ne _ _ (by decide) (by decide) (by decide) (by decide) (.inl (by decide)),
      State.obj_setObj_ne _ _ (by decide) (by decide) (by decide) (by decide) (.inl (by decide)), State.obj_modBoot, State.obj_setObj_same]
    rw [← mask, bitOf_foldl_setBit, ← up k hk, ← peer k _ hk]
    refine Iff.trans ?_ (State.mem_mismatching (s := u) hk)
    simp [bitOf]
  · refine State.sameRegs_congr (t := ((u.setObj 0x7040 3 0 v).setObj 0x7000 3 0 10).setObj 0x7000 4 0 u.tide) ?_ rfl
    exact State.sameRegs_setObj _ _ _ _ (State.sameRegs_setObj _ _ _ _ (State.sameRegs_setObj _ _ _ _
      (State.sameRegs_setObj _ _ _ _ (State.sameRegs_refl _ _) (by simp)) (by simp)) (by simp)) (by simp)

/-! ### READY (R483) -/

/-- A boot record in front of the others changes registers alone. -/
theorem State.pushRecord_rest (s : State) (r : Nat) : s.pushRecord r = { s with regs := (s.pushRecord r).regs } := State.setObjs_rest ..

/-- READY with no mode change latched: SERVICE, stage 0xFF, the count and the adjustments cleared; jobs and memories stay. -/
theorem State.ready_serves {s : State} (unlatched : s.device.latched = none) :
    s.ready.device.mode = .service ∧ s.ready.obj 0x7000 3 = 0xFF ∧ s.ready.obj 0x7000 2 = 0 ∧ s.ready.obj 0x7000 6 = 0 ∧ s.ready.boot.active = false ∧
      s.ready.jobs = s.jobs ∧ s.ready.hbm = s.hbm ∧ s.ready.ddr = s.ddr := by
  generalize served : s.ready = t
  unfold State.ready at served
  extract_lets deg s1 s2 boot faults s3 s4 s5 at served
  have rest : s1 = { s with regs := s1.regs } := by
    by_cases flash : s.bamurn.flash.ok = true
    · rw [show s1 = s.pushRecord _ from if_pos flash]
      exact s.pushRecord_rest _
    · rw [show s1 = s from if_neg flash]
  have sends : s3.onlySends s5 :=
    State.onlySends.ite ((State.onlySends.ite ((State.onlySends_refl s3).reportFor ..) (State.onlySends_refl s3)).toRouted _ _).reloadJobs
      (State.onlySends.ite ((State.onlySends_refl s3).reportFor ..) (State.onlySends_refl s3))
  have latched : (s5.emit (.pin .alertN true)).device = { mode := .service, latched := none } := by
    rw [State.emit_device, show s5 = _ from sends, ← unlatched]
  have ran : t = { s5.emit (.pin .alertN true) with device := { mode := .service, latched := none } } := by
    rw [← served, State.runLatched, latched]
  have regs : t.regs = s3.regs := by rw [ran, State.emit, show s5 = _ from sends]
  have stage : s3.obj 0x7000 3 = 0xFF := State.obj_setObj_same ((s1.setObj 0x7000 2 0 0).setObj 0x7000 6 0 0) 0x7000 3 0 0xFF
  have count : s3.obj 0x7000 2 = 0 := by
    show ((((s1.setObj 0x7000 2 0 0).setObj 0x7000 6 0 0).setObj 0x7000 3 0 0xFF)).obj 0x7000 2 = 0
    simp [State.obj_setObj, okey]
  have adjustments : s3.obj 0x7000 6 = 0 := by
    show ((((s1.setObj 0x7000 2 0 0).setObj 0x7000 6 0 0).setObj 0x7000 3 0 0xFF)).obj 0x7000 6 = 0
    simp [State.obj_setObj, okey]
  refine ⟨by rw [ran], ?_, ?_, ?_, ?_, ?_, ?_, ?_⟩
  · rw [State.obj_congr regs, stage]
  · rw [State.obj_congr regs, count]
  · rw [State.obj_congr regs, adjustments]
  · rw [ran, State.emit, show s5 = _ from sends]
  · rw [ran, State.emit, show s5 = _ from sends]
    show s1.jobs = s.jobs
    rw [rest]
  · rw [ran, State.emit, show s5 = _ from sends]
    show s1.hbm = s.hbm
    rw [rest]
  · rw [ran, State.emit, show s5 = _ from sends]
    show s1.ddr = s.ddr
    rw [rest]

/-- S11 with the conditions of READY met declares READY. -/
theorem execStageEnd_serves {s : State} {r : StageReport} (active : s.boot.active = true) (stage : s.obj 0x7000 3 = 11) (may : s.mayReady = true)
    (unlatched : s.device.latched = none) :
    ∃ t, exec (.stageEnd r) s = .next t ∧ t.device.mode = .service ∧ t.obj 0x7000 3 = 0xFF ∧ t.obj 0x7000 2 = 0 ∧ t.obj 0x7000 6 = 0 ∧
      t.boot.active = false ∧ t.jobs = s.jobs ∧ t.hbm = s.hbm ∧ t.ddr = s.ddr := by
  have due : s.stageDue = true := by simp [State.stageDue, active, stage, may]
  refine ⟨_, execStageEnd_of_due r due, ?_⟩
  obtain ⟨mode, shown, count, adjustments, ended', jobs, hbm, ddr⟩ :=
    State.ready_serves (s := s.setObj 0x7010 1 11 ((s.elapsed - s.boot.stageAt) / msTide)) unlatched
  have ended : s.endStage r = (s.setObj 0x7010 1 11 ((s.elapsed - s.boot.stageAt) / msTide)).ready := by
    unfold State.endStage
    dsimp only
    rw [stage, if_neg (fun h => absurd h.2.2 (by decide))]
    rfl
  rw [ended]
  exact ⟨mode, shown, count, adjustments, ended', jobs, hbm, ddr⟩

/-! ### A start that fails (R485, R487, R488) -/

/-- The fields of a boot record, packed below one another (R485). -/
theorem fieldOf_record {tiles rows flags run adj result count ddr hbm kind stage reason unit ms began : Nat} (ht : tiles < 2 ^ 16) (hr : rows < 2 ^ 32)
    (hf : flags < 2 ^ 8) (hn : run < 2 ^ 8) (ha : adj < 2 ^ 8) (hx : result < 2 ^ 8) (hc : count < 2 ^ 8) (hd : ddr < 16) (hh : hbm < 16) (hk : kind < 16)
    (hs : stage < 16) (he : reason < 2 ^ 8) (hu : unit < 2 ^ 16) {v : Nat}
    (packed : v = 2 ^ 64 * tiles + 2 ^ 32 * rows + 2 ^ 80 * flags + 2 ^ 88 * run + 2 ^ 96 * adj + 2 ^ 104 * result + 2 ^ 112 * count + 2 ^ 120 * ddr
      + 2 ^ 124 * hbm + 2 ^ 128 * kind + 2 ^ 132 * stage + 2 ^ 136 * reason + 2 ^ 144 * unit + 2 ^ 160 * ms + 2 ^ 192 * began) :
    fieldOf v 104 8 = result ∧ fieldOf v 136 8 = reason ∧ fieldOf v 144 16 = unit := by
  unfold fieldOf
  omega

theorem State.bootRecord_fields {s : State} (unit stage : Nat) (ddr : s.boot.testDdr < 16) (hbm : s.boot.testHbm < 16) :
    fieldOf (s.bootRecord 1 unit stTimeout stage false) 104 8 = 1 ∧ fieldOf (s.bootRecord 1 unit stTimeout stage false) 136 8 = stTimeout ∧
      fieldOf (s.bootRecord 1 unit stTimeout stage false) 144 16 = unit % 65536 := by
  have flags : ((if (false : Bool) = true then 1 else 0) + (if s.boot.mismatch then 2 else 0) + (if s.boot.full then 4 else 0) : Nat) < 2 ^ 8 := by
    cases s.boot.mismatch <;> cases s.boot.full <;> decide
  exact fieldOf_record (Nat.mod_lt _ (by decide)) (Nat.mod_lt _ (by decide)) flags (Nat.mod_lt _ (by decide)) (Nat.mod_lt _ (by decide)) (by decide)
    (Nat.mod_lt _ (by decide)) ddr hbm (Nat.mod_lt _ (by decide)) (Nat.mod_lt _ (by decide)) (by decide) (Nat.mod_lt _ (by decide)) rfl

/-- The new record stands first, the older ones after it. -/
theorem State.obj_pushRecord_first (s : State) (r : Nat) : (s.pushRecord r).obj 0x7010 0 0 = r :=
  State.obj_setObjs s 0x7010 0 0 0 _ (by simp)

theorem State.obj_pushRecord_older (s : State) (r : Nat) {e : Nat} (he : e < 15) : (s.pushRecord r).obj 0x7010 0 (e + 1) = s.obj 0x7010 0 e := by
  have listed := State.obj_setObjs s 0x7010 0 0 (e + 1) (r :: s.objs 0x7010 0 15) (by simp [State.objs]; omega)
  rw [Nat.zero_add] at listed
  exact listed.trans (by simp [State.objs])

/-- What a failed start with a working record flash leaves (R487, R488). -/
theorem State.failStart_leaves {s : State} (unit reason : Nat) (active : s.boot.active = true) (flash : s.bamurn.flash.ok = true) :
    (∀ e, e < 16 → (s.failStart unit reason).obj 0x7010 0 e = (s.pushRecord (s.bootRecord 1 unit reason (s.obj 0x7000 3) false)).obj 0x7010 0 e) ∧
      (s.obj 0x7000 2 ≥ 2 → (s.failStart unit reason).device.mode = .safe ∧ (s.failStart unit reason).sent = .pin .alertN false :: s.sent) ∧
      (s.obj 0x7000 2 < 2 → (s.failStart unit reason).device.mode = .startup ∧ (s.failStart unit reason).boot.waiting.isSome = true ∧
        (s.failStart unit reason).obj 0x7000 6 = s.obj 0x7000 6 ||| adjustOf (s.obj 0x7000 3)) ∧
      s.failStart unit reason = { s with regs := (s.failStart unit reason).regs, sent := (s.failStart unit reason).sent, device := (s.failStart unit reason).device, boot := (s.failStart unit reason).boot, sec := (s.failStart unit reason).sec } := by
  generalize failed : s.failStart unit reason = t
  rw [State.failStart, if_neg (by simp [active])] at failed
  extract_lets +lift stage kept recorded n counter boot ended adj marked kind next planned at failed
  have counts : n = min 3 (s.obj 0x7000 2 + 1) := if_pos flash
  have pushed : recorded = s.pushRecord (s.bootRecord 1 unit reason stage false) := if_pos flash
  have rest : recorded = { s with regs := recorded.regs } := pushed ▸ s.pushRecord_rest _
  rw [show s.pushRecord _ = recorded from pushed.symm]
  clear_value recorded n
  obtain ⟨regs, rfl⟩ : ∃ regs, recorded = { s with regs := regs } := ⟨_, rest⟩
  have other : ∀ (u : State) (i j e' v e : Nat), okey 0x7010 0 e ≠ okey i j e' → (u.setObj i j e' v).obj 0x7010 0 e = u.obj 0x7010 0 e := fun u i j e' v e h =>
    (State.obj_setObj ..).trans (if_neg h)
  by_cases third : 2 ≤ s.obj 0x7000 2
  · rw [if_pos (.inr (by omega))] at failed
    subst failed
    exact ⟨fun e _ => other _ _ _ _ _ _ (by unfold okey; omega), fun _ => ⟨rfl, rfl⟩, fun low => absurd third (by omega), rfl⟩
  · rw [if_neg (by simp only [Bool.false_eq_true, false_or]; omega)] at failed
    have endedObj : ∀ e, ended.obj 0x7010 0 e = State.obj { s with regs := regs } 0x7010 0 e := fun e => other _ _ _ _ _ _ (by unfold okey; omega)
    have image : (∀ e, e < 16 → marked.obj 0x7010 0 e = State.obj { s with regs := regs } 0x7010 0 e) ∧
        marked = { s with regs := marked.regs, boot := marked.boot, sec := marked.sec } := by
      by_cases first : stage = 1
      · rw [show marked = ended.markImage ended.running from if_pos first]
        exact ⟨fun e he => (other ended 0x7060 0 ended.running 1 e (by unfold okey; omega)).trans (endedObj e), rfl⟩
      · rw [show marked = ended from if_neg first]
        exact ⟨fun e _ => endedObj e, rfl⟩
    obtain ⟨records, restMarked⟩ := image
    clear_value marked
    obtain ⟨regs', boot', sec', rfl⟩ : ∃ r b c, marked = { s with regs := r, boot := b, sec := c } := ⟨_, _, _, restMarked⟩
    subst failed
    exact ⟨fun e he => (other planned 0x7000 6 0 adj e (by unfold okey; omega)).trans (records e he), fun high => absurd high third,
      fun _ => ⟨rfl, rfl, State.obj_setObj_same ..⟩, rfl⟩

theorem execStageTimeout_records {s : State} {unit : Nat} {full : Bool} (active : s.boot.active = true) (stage : s.obj 0x7000 3 ≠ 9)
    (past : s.stagePast (2 * s.stageLimit (s.obj 0x7000 3) full) = true) (flash : s.bamurn.flash.ok = true) (ddr : s.boot.testDdr < 16)
    (hbm : s.boot.testHbm < 16) :
    ∃ t, exec (.stageTimeout ⟨unit, full⟩) s = .next t ∧ t.boot.active = false ∧ t.obj 0x7000 2 = min 3 (s.obj 0x7000 2 + 1) ∧
      fieldOf (t.obj 0x7010 0 0) 104 8 = 1 ∧ fieldOf (t.obj 0x7010 0 0) 136 8 = stTimeout ∧
      fieldOf (t.obj 0x7010 0 0) 144 16 = unit % 65536 ∧
      (∀ e, e < 15 → t.obj 0x7010 0 (e + 1) = s.obj 0x7010 0 e) ∧
      (s.obj 0x7000 2 ≥ 2 → t.device.mode = .safe ∧ t.sent = .pin .alertN false :: s.sent) ∧
      (s.obj 0x7000 2 < 2 → t.device.mode = .startup ∧ t.boot.waiting.isSome = true ∧
        t.obj 0x7000 6 = s.obj 0x7000 6 ||| adjustOf (s.obj 0x7000 3)) ∧
      t = { s with regs := t.regs, sent := t.sent, device := t.device, boot := t.boot, sec := t.sec } := by
  obtain ⟨ended, count⟩ := State.failStart_counts unit stTimeout active flash
  obtain ⟨records, third, next, rest⟩ := State.failStart_leaves unit stTimeout active flash
  obtain ⟨result, reason, named⟩ := State.bootRecord_fields (s := s) unit (s.obj 0x7000 3) ddr hbm
  refine ⟨_, congrArg Host.Outcome.next (if_pos ⟨stage, past⟩), ended, count, ?_, ?_, ?_, fun e he => ?_, third, next, rest⟩
  · rw [records _ (by decide), State.obj_pushRecord_first, result]
  · rw [records _ (by decide), State.obj_pushRecord_first, reason]
  · rw [records _ (by decide), State.obj_pushRecord_first, named]
  · rw [records _ (by omega), State.obj_pushRecord_older s _ he]

/-- With no start in progress, in S9 or within twice the stage's limit, STAGE_TIMEOUT changes nothing (R470, R482). -/
theorem execStageTimeout_waits {s : State} {unit : Nat} {full : Bool}
    (early : s.boot.active = false ∨ s.obj 0x7000 3 = 9 ∨ s.stagePast (2 * s.stageLimit (s.obj 0x7000 3) full) = false) :
    exec (.stageTimeout ⟨unit, full⟩) s = .next s := by
  show execStageTimeout ⟨unit, full⟩ s = _
  unfold execStageTimeout
  rcases early with inactive | linked | within
  · have none : s.failStart unit stTimeout = s := if_pos (by simp [inactive])
    simp only [none, ite_self]
  · simp [linked]
  · simp [within]

/-! ### The next attempt (R487, R489) -/

/-- The number of starts is a persistent object. -/
theorem State.obj_blank_starts (s : State) : s.blank.obj 0x7000 7 = s.obj 0x7000 7 := by
  have kept : ∀ v, survives (okey 0x7000 7 0, v) = true := fun v => by
    have index : okey 0x7000 7 0 / 16777216 = 0x7000 := rfl
    have sub : okey 0x7000 7 0 / 65536 % 256 = 7 := rfl
    unfold survives
    dsimp only
    rw [index, sub, if_neg (by decide), if_neg (by decide), if_neg (by decide), if_neg (by decide)]
    decide +kernel
  unfold State.obj
  exact congrArg (Option.getD · _) (Tbl.find_filter_of_kept s.regs kept)

theorem State.startUp_starts (s : State) (kind : Nat) : (s.startUp kind).obj 0x7000 7 = min (s.obj 0x7000 7 + 1) (2 ^ 32 - 1) := by
  have counted := s.obj_blank_starts
  have same : (s.startUp kind).obj 0x7000 7 = min (s.blank.obj 0x7000 7 + 1) (2 ^ 32 - 1) := by
    unfold State.startUp
    cases kind == 1 <;> simp [State.count, State.obj_setObj, okey] <;> rfl
  rw [same, counted]

theorem State.startUp_waiting (s : State) (kind : Nat) : (s.startUp kind).boot.waiting = none := by
  unfold State.startUp; cases kind == 1 <;> rfl

theorem execNextAttempt_begins {s : State} {kind : Nat} (waiting : s.boot.waiting = some kind) (open' : s.power.closed = false)
    (past : s.boot.failedAt + secTide ≤ s.elapsed) :
    ∃ t, exec .nextAttempt s = .next t ∧ t.device.mode = .startup ∧ t.boot.active = true ∧ t.boot.waiting = none ∧
      t.obj 0x7000 0 = (match s.device.latched with | some (.warmStart _) => 2 | some (.coldStart _) => 1 | _ => kind) ∧ t.obj 0x7000 3 = 0 ∧ t.obj 0x7000 7 = min (s.obj 0x7000 7 + 1) (2 ^ 32 - 1) := by
  have run : exec .nextAttempt s = .next (s.startUp (s.nextKind kind)) := by
    show execNextAttempt s = _
    simp [execNextAttempt, waiting, open', Nat.not_lt.2 past]
  refine ⟨_, run, by simp, by simp, State.startUp_waiting .., ?_, State.startUp_stage .., State.startUp_starts ..⟩
  rw [State.startUp_kind]
  rfl

theorem execNextAttempt_of_none {s : State} (none' : s.boot.waiting = none) : exec .nextAttempt s = .next s := by
  show execNextAttempt s = _
  simp [execNextAttempt, none']

/-- Settles O7: each stage's end by the work of its stage, the failed start by the record and the count it leaves. -/
theorem stagesEndFailAndStartAgain : Obligations.StagesEndFailAndStartAgain := by
  refine ⟨fun s r active stage passed rails => execStageEnd_keepsDuration active stage passed rails,
    fun s r active stage unmet => execStageEnd_of_not_due r (by simp [State.stageDue, active, stage, unmet]),
    fun s active stage hold past => execTopologyWaitExpiry_records active stage hold past,
    fun s r active stage may unlatched => execStageEnd_serves active stage may unlatched,
    fun s r inactive => ⟨execStageEnd_of_not_due r (by simp [State.stageDue, inactive]), ?_⟩,
    fun s unit full active stage past flash ddr hbm => execStageTimeout_records active stage past flash ddr hbm,
    fun s kind waiting open' past => execNextAttempt_begins waiting open' past, fun s none' => execNextAttempt_of_none none',
    fun s unit full early => execStageTimeout_waits early⟩
  exact congrArg Host.Outcome.next (if_neg fun h => absurd h.1 (by simp [inactive]))

end Sys2Proof.Machine
end

section
/-! PROOF. Messages of the die-to-die transport: what receiving and sending one changes (15_reeve_die_and_service.md R359-R362). -/

namespace Sys2Proof.Machine

/-! ### A UCIe module's record -/

theorem State.ucie_modUcie_same (s : State) (m : Nat) (f : Ucie → Ucie) : (s.modUcie m f).ucie m = f (s.ucie m) := Tbl.get_put_same ..

theorem State.ucie_modUcie_other (s : State) {m j : Nat} (f : Ucie → Ucie) (h : j ≠ m) : (s.modUcie m f).ucie j = s.ucie j := Tbl.get_put_other _ _ _ _ _ _ h

theorem State.ucie_congr {s t : State} (h : t.ucies = s.ucies) (m : Nat) : t.ucie m = s.ucie m := by rw [State.ucie, h]; rfl

/-! ### Changes of registers, modules and messages alone -/

/-- State `t` comes of `s` by registers, UCIe modules and messages alone. -/
def State.onlyLinks (s t : State) : Prop := t = { s with regs := t.regs, ucies := t.ucies, sent := t.sent }

theorem State.onlyLinks_refl (s : State) : s.onlyLinks s := rfl

theorem State.onlyLinks.trans {s t u : State} (h : s.onlyLinks t) (g : t.onlyLinks u) : s.onlyLinks u :=
  calc u = { t with regs := u.regs, ucies := u.ucies, sent := u.sent } := g
    _ = { s with regs := u.regs, ucies := u.ucies, sent := u.sent } := by rw [show t = { s with regs := t.regs, ucies := t.ucies, sent := t.sent } from h]

theorem State.onlyLinks.setObj {s t : State} (h : s.onlyLinks t) (i j e v : Nat) : s.onlyLinks (t.setObj i j e v) := h.trans rfl

theorem State.onlyLinks.count {s t : State} (h : s.onlyLinks t) (i j e w : Nat) (n : Nat := 1) : s.onlyLinks (t.count i j e w n) := h.setObj ..

theorem State.onlyLinks.modUcie {s t : State} (h : s.onlyLinks t) (m : Nat) (f : Ucie → Ucie) : s.onlyLinks (t.modUcie m f) := h.trans rfl

theorem State.onlyLinks.emit {s t : State} (h : s.onlyLinks t) (m : Msg) : s.onlyLinks (t.emit m) := h.trans rfl

theorem State.onlyLinks.dtlOut {s t : State} (h : s.onlyLinks t) (m : Nat) (up : Bool) (d : DtlMsg) : s.onlyLinks (t.dtlOut m up d) := by
  cases up
  · exact (h.emit _).count _ _ _ _ _
  · exact h.emit _

/-- Registers changed after a UCIe module. -/
theorem State.RegsOnly.of_modUcie {P : Nat → Prop} {s t : State} {m : Nat} {f : Ucie → Ucie} (h : State.RegsOnly P (s.modUcie m f) t) :
    t = { s with regs := t.regs, ucies := t.ucies } := by
  obtain ⟨regs, rfl⟩ : ∃ regs, t = { s.modUcie m f with regs := regs } := ⟨_, h.rest⟩
  rfl

@[simp] theorem State.obj_modUcie (s : State) (m : Nat) (f : Ucie → Ucie) (i j e : Nat) : (s.modUcie m f).obj i j e = s.obj i j e := rfl

theorem State.onlyLinks.toModule {s t : State} (h : s.onlyLinks t) (m v : Nat) : s.onlyLinks (t.toModule m v) := (h.setObj ..).setObj ..

/-! ### Credits (R361, R362) -/

/-- The CREDIT message that returns the cells of a message of one class. -/
def creditMsg (cls n : Nat) : DtlMsg :=
  { dtype := 0x0E, arg := (if cls = 0 then n else 0) + (if cls = 1 then n * 65536 else 0), addr := if cls = 2 then n else 0 }

/-- Credits that differ from a state's at module `m` alone, and not in its requests. -/
def State.creditsAt (s : State) (m : Nat) (credits : Tbl Ucie) : Prop :=
  (∀ j, j ≠ m → Tbl.get credits {} j = s.ucie j) ∧ (Tbl.get credits {} m).out = (s.ucie m).out ∧ (Tbl.get credits {} m).waiting = (s.ucie m).waiting

/-- The sender's credits alone change, and none of its waiting or outstanding requests. -/
theorem State.spend_only (s : State) (m : Nat) (up : Bool) (d : DtlMsg) :
    ∃ credits, s.spend m up d = { s with ucies := credits } ∧ s.creditsAt m credits := by
  have spent : ∀ f : Ucie → Ucie, (f (s.ucie m)).out = (s.ucie m).out → (f (s.ucie m)).waiting = (s.ucie m).waiting →
      ∃ credits, s.modUcie m f = { s with ucies := credits } ∧ s.creditsAt m credits := fun f out waiting =>
    ⟨_, rfl, fun j other => Tbl.get_put_other _ _ _ _ _ _ other, by rw [Tbl.get_put_same]; exact out, by rw [Tbl.get_put_same]; exact waiting⟩
  unfold State.spend
  dsimp only
  split
  case h_6 => exact ⟨s.ucies, rfl, fun _ _ => rfl, rfl, rfl⟩
  all_goals exact spent _ rfl rfl

/-- A message that reaches the reeve die returns its credits and changes nothing else. -/
theorem State.dtlIn_reeve_credits {d : DtlMsg} {c : Nat} (cls : dtlClass d.dtype = some c) (s : State) (m : Nat) :
    ∃ credits, s.dtlIn m false d = { s with ucies := credits, sent := .dtl m true (creditMsg c (d.cells.length + 1)) :: s.sent } ∧ s.creditsAt m credits := by
  obtain ⟨credits, spent, kept⟩ := s.spend_only m false d
  refine ⟨credits, ?_, kept⟩
  rw [State.dtlIn, cls]
  show (s.spend m false d).giveCredit m true c _ = _
  rw [spent]
  rfl

/-- A message that reaches the compute die is counted there, returns its credits, whose message is counted too, and changes nothing else. -/
theorem State.dtlIn_compute_credits {d : DtlMsg} {c : Nat} (cls : dtlClass d.dtype = some c) (s : State) (m : Nat) :
    ∃ credits regs, s.dtlIn m true d = { s with regs := regs, ucies := credits, sent := .dtl m false (creditMsg c (d.cells.length + 1)) :: s.sent } ∧
      s.creditsAt m credits ∧ s.sameRegs { s with regs := regs } [okey (0x3210 + m) 4 0, okey (0x3210 + m) 5 0] := by
  set u := s.count (0x3210 + m) 5 0 64 (DtlMsg.size d) with counted
  obtain ⟨credits, spent, kept⟩ := u.spend_only m true d
  refine ⟨credits, (u.count (0x3210 + m) 4 0 64 1).regs, ?_, kept, ?_⟩
  · rw [State.dtlIn, cls]
    show (u.spend m true d).giveCredit m false c _ = _
    rw [spent]
    rfl
  · have first : s.sameRegs u [okey (0x3210 + m) 4 0, okey (0x3210 + m) 5 0] := State.sameRegs_count _ _ _ _ _ (State.sameRegs_refl _ _) (by simp)
    exact State.sameRegs_congr (State.sameRegs_count _ 4 0 64 1 first (by simp)) rfl

/-- CREDIT itself costs no credits: towards the reeve die nothing changes, towards the compute die its cell is counted. -/
theorem State.dtlIn_reeve_free {d : DtlMsg} (cls : dtlClass d.dtype = none) (s : State) (m : Nat) : s.dtlIn m false d = s := by
  rw [State.dtlIn, cls]; rfl

theorem State.dtlIn_compute_free {d : DtlMsg} (cls : dtlClass d.dtype = none) (s : State) (m : Nat) :
    s.dtlIn m true d = s.count (0x3210 + m) 5 0 64 (DtlMsg.size d) := by
  rw [State.dtlIn, cls]; rfl

/-! ### Messages sent -/

theorem State.sameRegs_dtlOut {s t : State} {ks : List Nat} (h : s.sameRegs t ks) (m : Nat) (up : Bool) (d : DtlMsg) (hk : okey (0x3210 + m) 4 0 ∈ ks) :
    s.sameRegs (t.dtlOut m up d) ks := by
  cases up
  · exact State.sameRegs_count _ _ _ _ _ (State.sameRegs_congr h rfl) hk
  · exact State.sameRegs_congr h rfl

end Sys2Proof.Machine
end

section
/-! PROOF. Object, event, management, frame and credit messages, and the loss of a UCIe module (15_reeve_die_and_service.md R347, R350, R351, R358, R361, R362, R365, R497). -/

namespace Sys2Proof.Machine

/-! ### Objects (R361) -/

/-- A request for an object that does not exist is answered BAD_VALUE. -/
theorem execObjReq_of_none {s : State} {m : Nat} {d : DtlMsg} (sound : soundMsg d) (type : d.dtype = 9)
    (none' : objAt (fieldOf d.addr 16 16) (fieldOf d.addr 8 8) = none) :
    ∃ t x y, exec (.objReq m d) s = .next t ∧ t.sent = .dtl m false y :: .dtl m false x :: s.sent ∧ x.dtype = 0xE ∧ y.dtype = 0xA ∧ y.dtag = d.dtag ∧ y.status = stBadValue ∧ y.cells = [] ∧
      t = { s with regs := t.regs, ucies := t.ucies, sent := t.sent } ∧ s.sameRegs t [okey (0x3210 + m) 4 0, okey (0x3210 + m) 5 0] := by
  obtain ⟨credits, regs, received, -, kept⟩ := State.dtlIn_compute_credits (d := d) (c := 0) (by rw [type]; rfl) s m
  have run : exec (.objReq m d) s = .next ((s.dtlIn m true d).dtlOut m false
      { dtype := 0x0A, dtag := d.dtag, partition := d.partition, status := stBadValue, cells := valueCells [] }) := by
    refine (congrArg Host.Outcome.next (State.onDtl_of_sound sound m true _)).trans ?_
    simp only [State.objRequest, none']
  rw [received] at run
  exact ⟨_, _, _, run, rfl, rfl, rfl, rfl, rfl, rfl, rfl, State.sameRegs_dtlOut (t := { s with regs := regs, ucies := credits, sent := _ }) (State.sameRegs_congr kept rfl) m false _ (by simp)⟩

/-! ### Messages that only return credits (R361) -/

/-- A message that reeve firmware takes and the model does nothing with returns its credits. -/
theorem exec_of_taken {s : State} {m c : Nat} {d : DtlMsg} {i : Instr} (sound : soundMsg d) (cls : dtlClass d.dtype = some c)
    (taken : exec i s = .next (s.onDtl m false d id)) :
    ∃ t, exec i s = .next t ∧ t.sent = .dtl m true (creditMsg c (d.cells.length + 1)) :: s.sent ∧ t = { s with ucies := t.ucies, sent := t.sent } := by
  obtain ⟨credits, received, -⟩ := State.dtlIn_reeve_credits cls s m
  rw [State.onDtl_of_sound sound, received] at taken
  exact ⟨_, taken, rfl, rfl⟩

theorem exec_reeveMessage_credits {s : State} {m : Nat} {d : DtlMsg} {i : Instr} (sound : soundMsg d)
    (which : i = .objRsp m d ∧ d.dtype = 0xA ∨ i = .eventPortState m d ∧ d.dtype = 0xB ∨ i = .remapped m d ∧ d.dtype = 0xF) :
    ∃ t x, exec i s = .next t ∧ t.sent = .dtl m true x :: s.sent ∧ x.dtype = 0xE ∧ t = { s with ucies := t.ucies, sent := t.sent } ∧
      (d.dtype = 0xA → x.arg = (d.cells.length + 1) * 65536) ∧ (d.dtype ≠ 0xA → x.addr = d.cells.length + 1) := by
  rcases which with ⟨rfl, type⟩ | ⟨rfl, type⟩ | ⟨rfl, type⟩
  · obtain ⟨t, run, sent, rest⟩ := exec_of_taken (s := s) (m := m) (i := .objRsp m d) sound (c := 1) (by rw [type]; rfl) rfl
    exact ⟨t, _, run, sent, rfl, rest, fun _ => by simp [creditMsg], fun other => absurd type other⟩
  · obtain ⟨t, run, sent, rest⟩ := exec_of_taken (s := s) (m := m) (i := .eventPortState m d) sound (c := 2) (by rw [type]; rfl) rfl
    exact ⟨t, _, run, sent, rfl, rest, fun response => absurd (type.symm.trans response) (by decide), fun _ => rfl⟩
  · obtain ⟨t, run, sent, rest⟩ := exec_of_taken (s := s) (m := m) (i := .remapped m d) sound (c := 2) (by rw [type]; rfl) rfl
    exact ⟨t, _, run, sent, rfl, rest, fun response => absurd (type.symm.trans response) (by decide), fun _ => rfl⟩

/-! ### Records, management units and frames (R347, R350, R351, R497) -/

theorem execEventLevee_archives {s : State} {m : Nat} {d : DtlMsg} {lo hi : Codeword} (sound : soundMsg d) (type : d.dtype = 0xB) (cells : d.cells = [lo, hi]) :
    ∃ t w, exec (.eventLevee m d) s = .next t ∧ w = 2 ^ 256 * (decodedRow hi).toNat + (decodedRow lo).toNat ∧
      t.faults = { s.faults with archive := (w :: s.faults.archive.filter (fun x => !sameRecord x w)).take 4096 } ∧ t = { s with ucies := t.ucies, faults := t.faults, sent := t.sent } := by
  obtain ⟨credits, received, -⟩ := State.dtlIn_reeve_credits (d := d) (c := 2) (by rw [type]; rfl) s m
  have run : exec (.eventLevee m d) s = _ := congrArg Host.Outcome.next (State.onDtl_of_sound sound m false _)
  rw [received, cells] at run
  exact ⟨_, _, run, rfl, rfl, rfl⟩

theorem execDtlMgmt_up {s : State} {m : Nat} {d : DtlMsg} (sound : soundMsg d) (type : d.dtype = 0xC) :
    ∃ t u x, exec (.dtlMgmt m true d) s = .next t ∧ t.sent = .mgmt (fieldOf d.arg 16 4) u :: x :: s.sent ∧ u.local' = true ∧ u.length = fieldOf d.arg 0 16 ∧ u.bytes = dtlBytes d (fieldOf d.arg 0 16) ∧
      t = { s with regs := t.regs, ucies := t.ucies, sent := t.sent } := by
  obtain ⟨credits, regs, received, -⟩ := State.dtlIn_compute_credits (d := d) (c := 2) (by rw [type]; rfl) s m
  have run : exec (.dtlMgmt m true d) s = _ := congrArg Host.Outcome.next (State.onDtl_of_sound sound m true _)
  rw [received] at run
  exact ⟨_, _, _, run, rfl, rfl, rfl, rfl, rfl⟩

theorem execDtlMgmt_down {s : State} {m : Nat} {d : DtlMsg} (sound : soundMsg d) (type : d.dtype = 0xC) :
    ∃ t x, exec (.dtlMgmt m false d) s = .next t ∧ t.sent = .deliver (.link (fieldOf d.arg 16 4) 0 true) (dtlBytes d (fieldOf d.arg 0 16)) :: x :: s.sent ∧ t = { s with ucies := t.ucies, sent := t.sent } := by
  obtain ⟨credits, received, -⟩ := State.dtlIn_reeve_credits (d := d) (c := 2) (by rw [type]; rfl) s m
  have run : exec (.dtlMgmt m false d) s = _ := congrArg Host.Outcome.next (State.onDtl_of_sound sound m false _)
  rw [received] at run
  exact ⟨_, _, run, rfl, rfl⟩

theorem execDtlEth_down {s : State} {m : Nat} {d : DtlMsg} (sound : soundMsg d) (type : d.dtype = 0xD) :
    ∃ t f x, exec (.dtlEth m false d) s = .next t ∧ t.sent = .frame (fieldOf d.arg 16 4) f :: x :: s.sent ∧ f.bytes = dtlBytes d (fieldOf d.arg 0 16) ∧ t = { s with ucies := t.ucies, sent := t.sent } := by
  obtain ⟨credits, received, -⟩ := State.dtlIn_reeve_credits (d := d) (c := 2) (by rw [type]; rfl) s m
  have run : exec (.dtlEth m false d) s = _ := congrArg Host.Outcome.next (State.onDtl_of_sound sound m false _)
  rw [received] at run
  exact ⟨_, _, _, run, rfl, rfl, rfl⟩

/-- A frame that leaves a port is counted, and stamped where R351 has it so. -/
theorem State.sendFrame_leaves (s : State) (k : Nat) (b : List Byte) :
    (s.sendFrame k b).sent = (if s.obj (0x4010 + k) 0x14 = 1 ∧ ptpEvent b = true then [Msg.ptpStamp k s.tide] else []) ++ .ethOut k b :: s.sent ∧
      (s.sendFrame k b).obj (0x4010 + k) 0x12 = min (s.obj (0x4010 + k) 0x12 + 1) (2 ^ 64 - 1) ∧
      s.sendFrame k b = { s with regs := (s.sendFrame k b).regs, sent := (s.sendFrame k b).sent } := by
  have counted := State.obj_count_same s (0x4010 + k) 0x12 0 64 1
  by_cases stamped : s.obj (0x4010 + k) 0x14 = 1 ∧ ptpEvent b = true
  · have sends : s.sendFrame k b = ((s.count (0x4010 + k) 0x12 0 64).emit (.ethOut k b)).emit (.ptpStamp k s.tide) := by
      simp [State.sendFrame, State.frameStamp, stamped.1, stamped.2]
    rw [sends, if_pos stamped]
    exact ⟨rfl, counted, rfl⟩
  · have sends : s.sendFrame k b = (s.count (0x4010 + k) 0x12 0 64).emit (.ethOut k b) := by
      have none' : s.frameStamp k b = none := by
        unfold State.frameStamp
        exact if_neg (by simpa using stamped)
      simp [State.sendFrame, none']
    rw [sends, if_neg stamped]
    exact ⟨rfl, counted, rfl⟩

theorem execDtlEth_up {s : State} {m : Nat} {d : DtlMsg} (sound : soundMsg d) (type : d.dtype = 0xD) (up : s.portState (fieldOf d.arg 16 4) = 6) :
    ∃ t x stamp, exec (.dtlEth m true d) s = .next t ∧ t.sent = stamp ++ .ethOut (fieldOf d.arg 16 4) (dtlBytes d (fieldOf d.arg 0 16)) :: x :: s.sent ∧
      stamp = (if s.obj (0x4010 + fieldOf d.arg 16 4) 0x14 = 1 ∧ ptpEvent (dtlBytes d (fieldOf d.arg 0 16)) = true then [.ptpStamp (fieldOf d.arg 16 4) s.tide] else []) ∧
      t.obj (0x4010 + fieldOf d.arg 16 4) 0x12 = min (s.obj (0x4010 + fieldOf d.arg 16 4) 0x12 + 1) (2 ^ 64 - 1) ∧ t = { s with regs := t.regs, ucies := t.ucies, sent := t.sent } := by
  obtain ⟨credits, regs, received, -, kept⟩ := State.dtlIn_compute_credits (d := d) (c := 2) (by rw [type]; rfl) s m
  have run : exec (.dtlEth m true d) s = .next ((s.dtlIn m true d).sendFrame (fieldOf d.arg 16 4) (dtlBytes d (fieldOf d.arg 0 16))) := by
    refine (congrArg Host.Outcome.next (State.onDtl_of_sound sound m true _)).trans ?_
    simp [up, psEthUp]
  rw [received] at run
  generalize held : ({ s with regs := regs, ucies := credits, sent := .dtl m false (creditMsg 2 (d.cells.length + 1)) :: s.sent } : State) = u at run
  have same : ∀ j, j < 256 → j ≠ 4 → j ≠ 5 → u.obj (0x4010 + fieldOf d.arg 16 4) j = s.obj (0x4010 + fieldOf d.arg 16 4) j := fun j hj four five => by
    have key := kept (okey (0x4010 + fieldOf d.arg 16 4) j 0) (by simp [okey]; omega)
    rw [← held]
    exact key
  obtain ⟨sent, counted, rest⟩ := State.sendFrame_leaves u (fieldOf d.arg 16 4) (dtlBytes d (fieldOf d.arg 0 16))
  rw [same _ (by decide) (by decide) (by decide)] at sent counted
  refine ⟨_, .dtl m false (creditMsg 2 (d.cells.length + 1)), _, run, ?_, rfl, counted, ?_⟩
  · rw [sent, ← held]
  · rw [rest, ← held]

/-! ### Credits (R362) -/

theorem State.sendAllWaiting_of_none {s : State} {m : Nat} (none' : (s.ucie m).waiting = []) : s.sendAllWaiting m = s := by
  simp [State.sendAllWaiting, none']

theorem execCredit_up {s : State} {m : Nat} {d : DtlMsg} (sound : soundMsg d) (type : d.dtype = 0xE) (none' : (s.ucie m).waiting = []) :
    ∃ t, exec (.credit m true d) s = .next t ∧ t.sent = s.sent ∧ s.sameRegs t [okey (0x3210 + m) 5 0] ∧
      t.ucie m = { s.ucie m with req := min 4096 ((s.ucie m).req + fieldOf d.arg 0 16), rsp := min 4096 ((s.ucie m).rsp + fieldOf d.arg 16 16), ctrl := min 1024 ((s.ucie m).ctrl + fieldOf d.addr 0 16) } ∧
      (∀ j, j ≠ m → t.ucie j = s.ucie j) ∧ t = { s with regs := t.regs, ucies := t.ucies } := by
  set u := s.count (0x3210 + m) 5 0 64 (DtlMsg.size d) with counted
  have run : exec (.credit m true d) s = _ := congrArg Host.Outcome.next (State.onDtl_of_sound sound m true _)
  rw [State.dtlIn_compute_free (by rw [type]; rfl), State.sendAllWaiting_of_none (by rw [State.ucie_modUcie_same]; exact none'), if_pos rfl] at run
  exact ⟨_, run, rfl, State.sameRegs_congr (State.sameRegs_count _ _ _ _ _ (State.sameRegs_refl _ _) (by simp)) rfl, State.ucie_modUcie_same u m _,
    fun j other => State.ucie_modUcie_other u _ other, rfl⟩

theorem execCredit_down {s : State} {m : Nat} {d : DtlMsg} (sound : soundMsg d) (type : d.dtype = 0xE) :
    ∃ t, exec (.credit m false d) s = .next t ∧
      t.ucie m = { s.ucie m with rReq := min 4096 ((s.ucie m).rReq + fieldOf d.arg 0 16), rRsp := min 4096 ((s.ucie m).rRsp + fieldOf d.arg 16 16), rCtrl := min 1024 ((s.ucie m).rCtrl + fieldOf d.addr 0 16) } ∧
      t = { s with ucies := t.ucies } := by
  have run : exec (.credit m false d) s = _ := congrArg Host.Outcome.next (State.onDtl_of_sound sound m false _)
  rw [State.dtlIn_reeve_free (by rw [type]; rfl), if_neg (by decide)] at run
  exact ⟨_, run, State.ucie_modUcie_same .., rfl⟩

/-! ### Loss of a module (R358) -/

/-- A module's state and its bit in object 3200:00, and no other register. -/
theorem State.toModule_sets (s : State) {m v : Nat} :
    (s.toModule m v).obj (0x3210 + m) 0 = v ∧ bitOf ((s.toModule m v).obj 0x3200 0) m = (v == 2) ∧
      s.sameRegs (s.toModule m v) [okey (0x3210 + m) 0 0, okey 0x3200 0 0] := by
  refine ⟨?_, ?_, State.sameRegs_setObj _ _ _ _ (State.sameRegs_setObj _ _ _ _ (State.sameRegs_refl _ _) (by simp)) (by simp)⟩
  · exact (State.obj_setObj_ne _ _ (by decide) (by decide) (by decide) (by decide) (.inl (by omega))).trans (State.obj_setObj_same ..)
  · show bitOf (State.obj (State.setObj _ 0x3200 0 0 (setBit _ m (v == 2))) 0x3200 0) m = _
    rw [State.obj_setObj_same, bitOf_setBit]

theorem State.toModule_regsOnly (s : State) (m v : Nat) : State.RegsOnly (fun _ => True) s (s.toModule m v) :=
  ((State.RegsOnly.refl s).setObj _ trivial).setObj _ trivial

theorem execUcieAdapterRetryFailure_retrains {s : State} {m : Nat} (up : s.obj (0x3210 + m) 0 = 2) (free : (s.ucie m).stalled = none) :
    ∃ t, exec (.ucieAdapterRetryFailure m) s = .next t ∧ t.obj (0x3210 + m) 0 = 1 ∧ t.obj (0x3210 + m) 1 = min (s.obj (0x3210 + m) 1 + 1) (2 ^ 32 - 1) ∧
      bitOf (t.obj 0x3200 0) m = false ∧ t = { s with regs := t.regs, ucies := t.ucies } ∧ (∀ j, t.ucie j = s.ucie j) ∧ s.sameRegs t [okey (0x3210 + m) 0 0, okey (0x3210 + m) 1 0, okey 0x3200 0 0] := by
  set u := s.modUcie m (fun u => { u with stalled := none }) with freed
  have idle : s.countStall m = s := by simp [State.countStall, free]
  have run : exec (.ucieAdapterRetryFailure m) s = .next ((u.toModule m 1).count (0x3210 + m) 1 0 32) := by
    show Host.Outcome.next (ite _ _ _) = _
    rw [if_pos up, idle]
  obtain ⟨state, bit, kept⟩ := u.toModule_sets (m := m) (v := 1)
  have retries : (u.toModule m 1).obj (0x3210 + m) 1 = s.obj (0x3210 + m) 1 :=
    (kept (okey (0x3210 + m) 1 0) (by simp [okey]; omega)).trans (State.obj_modUcie ..)
  have written : State.RegsOnly (fun _ => True) u ((u.toModule m 1).count (0x3210 + m) 1 0 32) := (u.toModule_regsOnly m 1).setObj _ trivial
  have start : s.sameRegs u [okey (0x3210 + m) 0 0, okey 0x3200 0 0] := State.sameRegs_of_regs rfl _
  refine ⟨_, run, ?_, ?_, ?_, written.of_modUcie, fun j => ?_, ?_⟩
  · exact (State.obj_setObj_ne _ _ (by decide) (by decide) (by decide) (by decide) (.inr (.inl (by decide)))).trans state
  · rw [State.obj_count_same, retries]
  · exact (congrArg (bitOf · m) (State.obj_setObj_ne _ _ (by decide) (by decide) (by decide) (by decide) (.inl (by omega)))).trans bit
  · have modules : State.ucies ((u.toModule m 1).count (0x3210 + m) 1 0 32) = u.ucies := by rw [written.rest]
    refine (State.ucie_congr modules j).trans ?_
    by_cases same : j = m
    · subst same
      rw [freed, State.ucie_modUcie_same, ← free]
    · exact State.ucie_modUcie_other _ _ same
  · exact State.sameRegs_count _ _ _ _ _ (State.sameRegs_mono (State.sameRegs_trans start kept) (by simp)) (by simp)

theorem execUcieRetrained_resumes {s : State} {m : Nat} (retrains : s.obj (0x3210 + m) 0 = 1) (none' : (s.ucie m).waiting = []) :
    ∃ t, exec (.ucieRetrained m) s = .next t ∧ t.obj (0x3210 + m) 0 = 2 ∧ bitOf (t.obj 0x3200 0) m = true ∧ t = { s with regs := t.regs } ∧
      s.sameRegs t [okey (0x3210 + m) 0 0, okey 0x3200 0 0] := by
  obtain ⟨state, bit, kept⟩ := s.toModule_sets (m := m) (v := 2)
  have rest := (s.toModule_regsOnly m 2).rest
  have run : exec (.ucieRetrained m) s = .next (s.toModule m 2) := by
    show Host.Outcome.next (ite _ _ _) = _
    rw [if_pos retrains, State.sendAllWaiting_of_none]
    exact (congrArg Ucie.waiting (State.ucie_congr (by rw [rest]) m)).trans none'
  exact ⟨_, run, state, bit, rest, kept⟩

/-- A module with nothing outstanding and nothing waiting is retired by its state, its record and a report, where another module is left. -/
theorem State.retireUcie_of_idle {s : State} {m j : Nat} (working : s.obj (0x3210 + m) 0 ≠ 3) (hj : j < 8) (other : j ≠ m)
    (left : s.obj (0x3210 + j) 0 ≠ 3) (out : (s.ucie m).out = []) (none' : (s.ucie m).waiting = []) :
    s.retireUcie m = ((s.toModule m 3).modUcie m (fun _ => {})).reportFor none clLink (susUcie m) (susUcie m) stDegraded 0 (some (susUcie m)) := by
  obtain ⟨-, -, kept⟩ := s.toModule_sets (m := m) (v := 3)
  have stays : (s.toModule m 3).obj (0x3210 + j) 0 ≠ 3 := by
    rwa [show (s.toModule m 3).obj (0x3210 + j) 0 = s.obj (0x3210 + j) 0 from kept (okey (0x3210 + j) 0 0) (by simp [okey]; omega)]
  have some' : ((List.range 8).all (fun k => (s.toModule m 3).obj (0x3210 + k) 0 == 3)) = false := by
    rw [List.all_eq_false]
    exact ⟨j, List.mem_range.2 hj, by simpa using stays⟩
  have shown : ∀ k, State.obj (State.reportFor ((s.toModule m 3).modUcie m (fun _ => {})) none clLink (susUcie m) (susUcie m) stDegraded 0 (some (susUcie m))) (0x3210 + k) 0
      = (s.toModule m 3).obj (0x3210 + k) 0 := fun _ => rfl
  rw [State.retireUcie, if_neg working]
  simp only [out, none', List.map_nil, List.eraseDups_nil, State.each, List.foldl_nil, shown, some', Bool.false_eq_true, if_false]

/-- With nothing outstanding, nothing waiting and another module left, the timeout retires the module and reports it. -/
theorem execUcieRetrainTimeout_retires {s : State} {m j : Nat} (retrains : s.obj (0x3210 + m) 0 = 1) (hj : j < 8) (other : j ≠ m)
    (left : s.obj (0x3210 + j) 0 ≠ 3) (out : (s.ucie m).out = []) (none' : (s.ucie m).waiting = []) :
    ∃ t r, exec (.ucieRetrainTimeout m) s = .next t ∧ t.obj (0x3210 + m) 0 = 3 ∧ t.ucie m = {} ∧ bitOf (t.obj 0x3200 0) m = false ∧ t.sent = .report r :: s.sent ∧ r.cls = clLink ∧ r.suspect = susUcie m ∧
      r.closedUnit = some (susUcie m) ∧ t = { s with regs := t.regs, ucies := t.ucies, sent := t.sent } := by
  obtain ⟨state, bit, -⟩ := s.toModule_sets (m := m) (v := 3)
  have run : exec (.ucieRetrainTimeout m) s = .next (s.retireUcie m) := congrArg Host.Outcome.next (if_pos retrains)
  rw [State.retireUcie_of_idle (by omega) hj other left out none'] at run
  have silent : ((s.toModule m 3).modUcie m (fun _ => {})).sent = s.sent := (State.modUcie_sent ..).trans (s.toModule_regsOnly m 3).sent_eq
  have forgotten : ((s.toModule m 3).modUcie m (fun _ => {})).ucie m = {} := State.ucie_modUcie_same ..
  exact ⟨_, _, run, state, forgotten, bit, congrArg (_ :: ·) silent, rfl, rfl, rfl, ((s.onlyLinks_refl.toModule m 3).modUcie m _).emit _⟩

/-- Settles O36: each message by what receiving it changes, each state of a module by the register that keeps it. -/
theorem dieToDieObjectsAndLinks : Obligations.DieToDieObjectsAndLinks := by
  refine ⟨fun s m d sound type none' => execObjReq_of_none sound type none', fun s m d i sound which => exec_reeveMessage_credits sound which,
    fun s m d lo hi sound type cells => execEventLevee_archives sound type cells,
    fun s m d sound type => ⟨execDtlMgmt_up sound type, execDtlMgmt_down sound type⟩,
    fun s m d sound type => ⟨execDtlEth_down sound type, fun up => execDtlEth_up sound type up⟩,
    fun s m d sound type => ⟨fun none' => execCredit_up sound type none', execCredit_down sound type⟩, fun s m _ => ⟨fun up free => execUcieAdapterRetryFailure_retrains up free, fun down => ?_,
      fun retrains none' => execUcieRetrained_resumes retrains none', fun working => ⟨?_, ?_⟩,
      fun j retrains hj other left out none' => execUcieRetrainTimeout_retires retrains hj other left out none'⟩⟩
  · exact congrArg Host.Outcome.next (if_neg down)
  · exact congrArg Host.Outcome.next (if_neg working)
  · exact congrArg Host.Outcome.next (if_neg working)

end Sys2Proof.Machine
end

section
/-! PROOF. The memory messages of the die-to-die transport (15_reeve_die_and_service.md R356, R359, R361-R364). -/

namespace Sys2Proof.Machine

/-! ### Rows read and buffered -/

/-- Rows that read without a correction leave the state and come whole. -/
theorem State.readMemRows_of_clean {s : State} {v : Server} {q : Option Nat} {rows : List Nat} {ws : List Row}
    (reads : List.Forall₂ (fun r w => s.readMem v r q = (s, some w)) rows ws) : s.readMemRows v rows q = (s, ws.map some) := by
  have run : ∀ acc : List (Option Row), rows.foldl (fun (acc : State × List (Option Row)) r =>
      ((acc.1.readMem v r q).1, acc.2 ++ [(acc.1.readMem v r q).2])) (s, acc) = (s, acc ++ ws.map some) := by
    induction reads with
    | nil => simp
    | cons read _ ih =>
      intro acc
      rw [List.foldl_cons, read, ih, List.map_cons, List.append_assoc]
      rfl
  exact (run []).trans (by simp)

theorem wholeRows_map_some (ws : List Row) : wholeRows (ws.map some) = some (ws.map encodeRow) := by
  simp [wholeRows, List.filterMap_map]

/-- Rows read one by one, by their number. -/
theorem forall₂_of_getD {p : Nat → Row → Prop} {rows : List Nat} {g : Nat → Row} (h : ∀ i, i < rows.length → p (rows.getD i 0) (g i)) :
    List.Forall₂ p rows ((List.range rows.length).map g) := by
  rw [List.forall₂_iff_get]
  refine ⟨by simp, fun i small _ => ?_⟩
  have here := h i small
  rw [List.getD_eq_getElem _ _ small] at here
  simpa using here

theorem State.readMem_channel {s : State} {c row : Nat} {q : Option Nat} {a b : Row} (empty : (s.server (.channel c)).wbuf = [])
    (read : burstRead (row / 2) (s.burst (row / 2)) = some (a, b, 0, false)) : s.readMem (.channel c) row q = (s, some (if row % 2 = 0 then a else b)) := by
  simp [State.readMem, empty, read]

theorem State.readMem_stack {s : State} {h row : Nat} {q : Option Nat} {a : Row} (empty : (s.server (.stack h)).wbuf = [])
    (outside : isTableRow row = false) (read : decodeWord (Tbl.get s.hbm 0 row) = .clean a) : s.readMem (.stack h) row q = (s, some a) := by
  simp only [State.readMem, empty, List.reverse_nil, List.find?_nil, outside, Bool.false_eq_true, if_false, read]

/-- A change of a server's controller, of a channel or of a stack, changes that kind of server alone. -/
theorem State.modServer_channel (s : State) (c : Nat) (f : MemServer → MemServer) :
    s.modServer (.channel c) f = { s with channels := Tbl.put s.channels {} c (f (s.server (.channel c))) } := rfl

theorem State.modServer_stack (s : State) (h : Nat) (f : MemServer → MemServer) :
    s.modServer (.stack h) f = { s with hbms := Tbl.put s.hbms {} h (f (s.server (.stack h))) } := rfl

theorem State.server_modServer_same (s : State) (v : Server) (f : MemServer → MemServer) : (s.modServer v f).server v = f (s.server v) := by
  rw [State.modServer, State.server_setServer, if_pos rfl]

/-- The rows of a message behind those that a server has buffered. -/
def State.buffered (s : State) (v : Server) (d : DtlMsg) : State :=
  (s.modServer v (fun x => { x with wbuf := x.wbuf ++ (dtlRows d d.cells.length).zip (d.cells.map decodedRow) })).dropHeld v (dtlRows d d.cells.length)

/-- A write of a message with no merge and no other message in the way enters the buffer and is acknowledged. -/
theorem State.takeDtl_of_room {s : State} {v : Server} {m : Nat} {d : DtlMsg} (merges : (s.server v).merges = []) (none' : (s.server v).dtl = [])
    (room : (s.server v).wbuf.length + d.cells.length ≤ bufferRows v) :
    s.takeDtl v m d = (s.buffered v d).dtlOut m (dtlAck v).1 { dtype := (dtlAck v).2, dtag := d.dtag, job := d.job, partition := d.partition } := by
  have quiet : s.closeOverlap v (dtlRows d d.cells.length) = s := by rw [State.closeOverlap, merges]; rfl
  rw [State.takeDtl, if_neg (by simp [none']; omega), State.bufferDtl]
  simp only [quiet]
  rfl

theorem State.buffered_wbuf (s : State) (v : Server) (d : DtlMsg) :
    ((s.buffered v d).server v).wbuf = (s.server v).wbuf ++ (dtlRows d d.cells.length).zip (d.cells.map decodedRow) := by
  rw [State.buffered, State.dropHeld, State.server_modServer_same, State.server_modServer_same]

theorem State.buffered_channel (s : State) (c : Nat) (d : DtlMsg) : ∃ channels, s.buffered (.channel c) d = { s with channels := channels } := by
  rw [State.buffered, State.dropHeld, State.modServer_channel, State.modServer_channel]
  exact ⟨_, rfl⟩

theorem State.buffered_stack (s : State) (h : Nat) (d : DtlMsg) : ∃ hbms, s.buffered (.stack h) d = { s with hbms := hbms } := by
  rw [State.buffered, State.dropHeld, State.modServer_stack, State.modServer_stack]
  exact ⟨_, rfl⟩

/-! ### DDR5 (R313, R361, R363) -/

/-- Clean bursts are answered with the encoded rows. -/
theorem execDtlMemRead_answers {s : State} {m c : Nat} {d : DtlMsg} {ds : List (Row × Row)} {rows : List Nat} (sound : soundMsg d) (installed : s.ddrUsed ≠ [])
    (type : d.dtype = 1) (chan : c = (s.ddrDecode d.addr).1) (alive : (s.server (.channel c)).dead = false) (empty : (s.server (.channel c)).wbuf = [])
    (named : rows = dtlRows d (fieldOf d.arg 0 4))
    (clean : ∀ i, i < rows.length → burstRead (rows.getD i 0 / 2) (s.burst (rows.getD i 0 / 2)) = some ((ds.getD i (0, 0)).1, (ds.getD i (0, 0)).2, 0, false)) :
    ∃ t x y, exec (.dtlMemRead m d) s = .next t ∧ t.sent = .dtl m true y :: .dtl m true x :: s.sent ∧ x.dtype = 0xE ∧ x.arg = d.cells.length + 1 ∧ y.dtype = 3 ∧ y.dtag = d.dtag ∧ y.status = 0 ∧
      y.cells = (List.range rows.length).map (fun i => encodeRow (if rows.getD i 0 % 2 = 0 then (ds.getD i (0, 0)).1 else (ds.getD i (0, 0)).2)) ∧
      t = { s with ucies := t.ucies, sent := t.sent } := by
  subst chan
  obtain ⟨credits, received, -⟩ := State.dtlIn_reeve_credits (d := d) (c := 0) (by rw [type]; rfl) s m
  have run : exec (.dtlMemRead m d) s = _ := congrArg Host.Outcome.next (State.onDtl_of_sound sound m false _)
  rw [received] at run
  generalize held : ({ s with ucies := credits, sent := .dtl m true (creditMsg 0 (d.cells.length + 1)) :: s.sent } : State) = u at run
  have reads : u.readMemRows (.channel (s.ddrDecode d.addr).1) rows (some d.partition) = _ :=
    State.readMemRows_of_clean (forall₂_of_getD fun i small => State.readMem_channel (a := (ds.getD i (0, 0)).1) (b := (ds.getD i (0, 0)).2)
      (by rw [← held]; exact empty) (by rw [← held]; exact clean i small))
  rw [if_neg (by simpa using installed), if_neg (by simp [alive])] at run
  dsimp only at run
  rw [← named, reads] at run
  simp only [wholeRows_map_some] at run
  rw [← held] at run
  exact ⟨_, _, _, run, rfl, rfl, by simp [creditMsg], rfl, rfl, rfl, List.map_map .., rfl⟩

/-- A read of another shape is answered BAD_VALUE. -/
theorem execDtlMemRead_of_shape {s : State} {m : Nat} {d : DtlMsg} (intact : d.head = none) (shape : dtlShape d = false) (type : d.dtype = 1) :
    ∃ t x y, exec (.dtlMemRead m d) s = .next t ∧ t.sent = .dtl m true y :: .dtl m true x :: s.sent ∧ y.dtype = 3 ∧ y.dtag = d.dtag ∧ y.status = stBadValue ∧ y.cells = [] ∧ t = { s with ucies := t.ucies, sent := t.sent } := by
  obtain ⟨credits, received, -⟩ := State.dtlIn_reeve_credits (d := d) (c := 0) (by rw [type]; rfl) s m
  have run : exec (.dtlMemRead m d) s = .next ((s.dtlIn m false d).dtlOut m true { dtype := 3, dtag := d.dtag, job := d.job, partition := d.partition, status := stBadValue }) := by
    refine congrArg Host.Outcome.next ?_
    simp [State.onDtl, headerLost, intact, shape, type, responseType]
  rw [received] at run
  exact ⟨_, _, _, run, rfl, rfl, rfl, rfl, rfl, rfl⟩

theorem execDtlMemWrite_buffers {s : State} {m c : Nat} {d : DtlMsg} (sound : soundMsg d) (installed : s.ddrUsed ≠ []) (type : d.dtype = 2)
    (chan : c = (s.ddrDecode d.addr).1) (alive : (s.server (.channel c)).dead = false) (merges : (s.server (.channel c)).merges = [])
    (none' : (s.server (.channel c)).dtl = []) (room : (s.server (.channel c)).wbuf.length + d.cells.length ≤ 4096) (clean : d.cells.any isBadWord = false) :
    ∃ t x y, exec (.dtlMemWrite m d) s = .next t ∧ t.sent = .dtl m true y :: .dtl m true x :: s.sent ∧ x.dtype = 0xE ∧ y.dtype = 4 ∧ y.dtag = d.dtag ∧ y.status = 0 ∧
      (t.server (.channel c)).wbuf = (s.server (.channel c)).wbuf ++ (dtlRows d d.cells.length).zip (d.cells.map decodedRow) ∧ t = { s with ucies := t.ucies, channels := t.channels, sent := t.sent } := by
  subst chan
  obtain ⟨credits, received, -⟩ := State.dtlIn_reeve_credits (d := d) (c := 0) (by rw [type]; rfl) s m
  have run : exec (.dtlMemWrite m d) s = _ := congrArg Host.Outcome.next (State.onDtl_of_sound sound m false _)
  rw [received] at run
  generalize held : ({ s with ucies := credits, sent := .dtl m true (creditMsg 0 (d.cells.length + 1)) :: s.sent } : State) = u at run
  have server : ∀ c, u.server (.channel c) = s.server (.channel c) := fun c => by rw [← held]; rfl
  rw [if_neg (by simpa using installed), if_neg (by simp [alive])] at run
  have landed : u.landDtl m d = (u, true) := if_neg (by simp [clean])
  dsimp only at run
  rw [landed] at run
  simp only [if_true] at run
  rw [State.takeDtl_of_room (by rw [server]; exact merges) (by rw [server]; exact none') (by rw [server]; exact room)] at run
  obtain ⟨channels, filled⟩ := u.buffered_channel (s.ddrDecode d.addr).1 d
  have rows := u.buffered_wbuf (.channel (s.ddrDecode d.addr).1) d
  rw [server] at rows
  rw [filled] at run rows
  subst held
  exact ⟨_, _, _, run, rfl, rfl, rfl, rfl, rfl, rows, rfl⟩

/-! ### HBM for reeve firmware (R356, R361, R364) -/

theorem hbmMapped_of_outside {d : DtlMsg} {n : Nat} (outside : ∃ r, r ∈ dtlRows d n ∧ 6 * regionBytes ≤ 32 * r) : hbmMapped d n = false := by
  obtain ⟨r, mem, beyond⟩ := outside
  rw [hbmMapped, List.all_eq_false]
  exact ⟨r, mem, by simpa using beyond⟩

theorem hbmMapped_of_inside {d : DtlMsg} {n : Nat} (inside : ∀ r, r ∈ dtlRows d n → 32 * r < 6 * regionBytes) : hbmMapped d n = true := by
  rw [hbmMapped, List.all_eq_true]
  exact fun r mem => by simpa using inside r mem

theorem execHbmRead_faults {s : State} {m : Nat} {d : DtlMsg} (outside : ∃ r, r ∈ dtlRows d (fieldOf d.arg 0 4) ∧ 6 * regionBytes ≤ 32 * r) :
    exec (.hbmRead m d) s = .fault (.accessFault d.addr) := if_pos (by rw [hbmMapped_of_outside outside]; rfl)

theorem execHbmWrite_faults {s : State} {m : Nat} {d : DtlMsg} (outside : ∃ r, r ∈ dtlRows d d.cells.length ∧ 6 * regionBytes ≤ 32 * r) :
    exec (.hbmWrite m d) s = .fault (.accessFault d.addr) := if_pos (by rw [hbmMapped_of_outside outside]; rfl)

theorem execHbmRead_answers {s : State} {m h : Nat} {d : DtlMsg} {ds : List Row} {rows : List Nat} (sound : soundMsg d) (type : d.dtype = 5)
    (stack : h = hbmStack d.addr) (named : rows = dtlRows d (fieldOf d.arg 0 4)) (inside : ∀ r, r ∈ rows → 32 * r < 6 * regionBytes ∧ isTableRow r = false)
    (alive : (s.server (.stack h)).dead = false) (empty : (s.server (.stack h)).wbuf = []) (length : ds.length = rows.length)
    (clean : ∀ i, i < rows.length → decodeWord (Tbl.get s.hbm 0 (rows.getD i 0)) = .clean (ds.getD i 0)) :
    ∃ t x y, exec (.hbmRead m d) s = .next t ∧ t.sent = .dtl m false y :: .dtl m false x :: s.sent ∧ x.dtype = 0xE ∧ x.arg = d.cells.length + 1 ∧ y.dtype = 7 ∧ y.dtag = d.dtag ∧ y.status = 0 ∧
      y.cells = ds.map encodeRow ∧ t = { s with regs := t.regs, ucies := t.ucies, sent := t.sent } ∧ s.sameRegs t [okey (0x3210 + m) 4 0, okey (0x3210 + m) 5 0] := by
  subst stack
  obtain ⟨credits, regs, received, -, kept⟩ := State.dtlIn_compute_credits (d := d) (c := 0) (by rw [type]; rfl) s m
  have mapped : hbmMapped d (fieldOf d.arg 0 4) = true := hbmMapped_of_inside fun r mem => (inside r (named ▸ mem)).1
  have run : exec (.hbmRead m d) s = _ := (if_neg (by simp [mapped])).trans (congrArg Host.Outcome.next (State.onDtl_of_sound sound m true _))
  rw [received] at run
  generalize held : ({ s with regs := regs, ucies := credits, sent := .dtl m false (creditMsg 0 (d.cells.length + 1)) :: s.sent } : State) = u at run
  have listed : (List.range rows.length).map (fun i => ds.getD i 0) = ds := by
    rw [← length]
    exact List.ext_getElem (by simp) fun i small _ => by simp at small; simp [small]
  have reads : u.readMemRows (.stack (hbmStack d.addr)) rows none = (u, ds.map some) := by
    have each := State.readMemRows_of_clean (s := u) (v := .stack (hbmStack d.addr)) (q := none) (forall₂_of_getD (rows := rows) (g := fun i => ds.getD i 0) fun i small => State.readMem_stack
      (by rw [← held]; exact empty) (inside _ (by rw [List.getD_eq_getElem _ _ small]; exact List.getElem_mem small)).2 (by rw [← held]; exact clean i small))
    rwa [listed] at each
  rw [if_neg (by simp [alive])] at run
  dsimp only at run
  rw [← named, reads] at run
  simp only [wholeRows_map_some] at run
  rw [← held] at run
  exact ⟨_, _, _, run, rfl, rfl, by simp [creditMsg], rfl, rfl, rfl, rfl, rfl, State.sameRegs_dtlOut (t := { s with regs := regs, ucies := credits, sent := _ }) (State.sameRegs_congr kept rfl) m false _ (by simp)⟩

theorem execHbmWrite_buffers {s : State} {m h : Nat} {d : DtlMsg} (sound : soundMsg d) (type : d.dtype = 6) (stack : h = hbmStack d.addr)
    (inside : ∀ r, r ∈ dtlRows d d.cells.length → 32 * r < 6 * regionBytes) (alive : (s.server (.stack h)).dead = false)
    (merges : (s.server (.stack h)).merges = []) (none' : (s.server (.stack h)).dtl = []) (room : (s.server (.stack h)).wbuf.length + d.cells.length ≤ 8192)
    (clean : d.cells.any isBadWord = false) :
    ∃ t x y, exec (.hbmWrite m d) s = .next t ∧ t.sent = .dtl m false y :: .dtl m false x :: s.sent ∧ x.dtype = 0xE ∧ y.dtype = 8 ∧ y.dtag = d.dtag ∧ y.status = 0 ∧
      (t.server (.stack h)).wbuf = (s.server (.stack h)).wbuf ++ (dtlRows d d.cells.length).zip (d.cells.map decodedRow) ∧
      t = { s with regs := t.regs, ucies := t.ucies, hbms := t.hbms, sent := t.sent } ∧ s.sameRegs t [okey (0x3210 + m) 4 0, okey (0x3210 + m) 5 0] := by
  subst stack
  obtain ⟨credits, regs, received, -, kept⟩ := State.dtlIn_compute_credits (d := d) (c := 0) (by rw [type]; rfl) s m
  have run : exec (.hbmWrite m d) s = _ := (if_neg (by simp [hbmMapped_of_inside inside])).trans (congrArg Host.Outcome.next (State.onDtl_of_sound sound m true _))
  rw [received] at run
  generalize held : ({ s with regs := regs, ucies := credits, sent := .dtl m false (creditMsg 0 (d.cells.length + 1)) :: s.sent } : State) = u at run
  have server : ∀ h, u.server (.stack h) = s.server (.stack h) := fun h => by rw [← held]; rfl
  rw [if_neg (by simp [alive, clean])] at run
  rw [State.takeDtl_of_room (by rw [server]; exact merges) (by rw [server]; exact none') (by rw [server]; exact room)] at run
  obtain ⟨hbms, filled⟩ := u.buffered_stack (hbmStack d.addr) d
  have rows := u.buffered_wbuf (.stack (hbmStack d.addr)) d
  rw [server] at rows
  rw [filled] at run rows
  subst held
  exact ⟨_, _, _, run, rfl, rfl, rfl, rfl, rfl, rows, rfl,
    State.sameRegs_dtlOut (t := { s with regs := regs, ucies := credits, hbms := hbms, sent := _ }) (State.sameRegs_congr kept rfl) m false _ (by simp)⟩

/-! ### Answers to DDR5 requests (R183, R361) -/

/-- A request answered frees its tag; with nothing waiting nothing else happens. -/
theorem State.freeReq_of_none {s : State} {m tag : Nat} (none' : (s.ucie m).waiting = []) :
    s.freeReq m tag = s.modUcie m (fun u => { u with out := u.out.filter (fun r => r.dtag != tag) }) :=
  State.sendAllWaiting_of_none (by rw [State.ucie_modUcie_same]; exact none')

theorem State.outstanding_of_single {s : State} {m tag : Nat} {r : DtlReq} (out : (s.ucie m).out = [r]) (mine : r.dtag = tag) : s.outstanding m tag = some r := by
  simp [State.outstanding, out, mine]

theorem execMemData_answers {s : State} {m : Nat} {d : DtlMsg} {r : DtlReq} {g : MemMerge} {p : Packet} (sound : soundMsg d) (type : d.dtype = 3)
    (ok : d.status = 0) (out : (s.ucie m).out = [r]) (mine : r.dtag = d.dtag) (none' : (s.ucie m).waiting = []) (merge : r.merge = some g.id)
    (merges : (s.server (.channel r.chan)).merges = [g]) (reqs : g.reqs = [p]) (data : g.data = none) :
    ∃ t a rest, exec (.memData m d) s = .next t ∧ t.sent = .packet (s.serverPos r.pkt) true a :: rest ∧ a.ptype = .data ∧ a.data = d.cells ∧ a.tag = p.tag ∧ (a.dstX, a.dstY) = (p.srcX, p.srcY) ∧
      (t.ucie m).out = [] ∧ (t.server (.channel r.chan)).merges = [] ∧ t = { s with regs := t.regs, ucies := t.ucies, channels := t.channels, sent := t.sent } := by
  obtain ⟨credits, regs, received, ⟨-, outKept, waitingKept⟩, -⟩ := State.dtlIn_compute_credits (d := d) (c := 1) (by rw [type]; rfl) s m
  have run : exec (.memData m d) s = _ := congrArg Host.Outcome.next (State.onDtl_of_sound sound m true _)
  rw [received, State.outstanding_of_single out mine] at run
  generalize held : ({ s with regs := regs, ucies := credits, sent := .dtl m false (creditMsg 1 (d.cells.length + 1)) :: s.sent } : State) = u at run
  have waits : (u.ucie m).waiting = [] := by rw [← held]; exact waitingKept.trans none'
  dsimp only at run
  rw [State.freeReq_of_none waits, merge, Option.bind_some, merges, List.find?_cons_of_pos (by simp)] at run
  simp only [ok, stOk, ne_eq, not_true_eq_false, if_false, data, MemMerge.asMerge, State.answerMerge, reqs] at run
  subst held
  refine ⟨_, _, _, run, rfl, rfl, rfl, rfl, rfl, ?_, ?_, rfl⟩
  · refine (congrArg Ucie.out (Tbl.get_put_same credits {} m _)).trans ?_
    show List.filter _ (Tbl.get credits {} m).out = []
    rw [outKept, out]
    simp [mine]
  · refine (congrArg MemServer.merges (Tbl.get_put_same s.channels {} r.chan _)).trans ?_
    show List.filter _ (s.server (.channel r.chan)).merges = []
    rw [merges]
    simp

theorem execMemAck_acknowledges {s : State} {m : Nat} {d : DtlMsg} {r : DtlReq} (sound : soundMsg d) (type : d.dtype = 4) (ok : d.status = 0)
    (out : (s.ucie m).out = [r]) (mine : r.dtag = d.dtag) (none' : (s.ucie m).waiting = []) (write : r.merge = none) :
    ∃ t a rest, exec (.memAck m d) s = .next t ∧ t.sent = .packet (s.serverPos r.pkt) true a :: rest ∧ a.ptype = .ack ∧ a.tag = r.pkt.tag ∧ (t.ucie m).out = [] ∧
      t = { s with regs := t.regs, ucies := t.ucies, sent := t.sent } := by
  obtain ⟨credits, regs, received, ⟨-, outKept, waitingKept⟩, -⟩ := State.dtlIn_compute_credits (d := d) (c := 1) (by rw [type]; rfl) s m
  have run : exec (.memAck m d) s = _ := congrArg Host.Outcome.next (State.onDtl_of_sound sound m true _)
  rw [received, State.outstanding_of_single out mine] at run
  generalize held : ({ s with regs := regs, ucies := credits, sent := .dtl m false (creditMsg 1 (d.cells.length + 1)) :: s.sent } : State) = u at run
  have waits : (u.ucie m).waiting = [] := by rw [← held]; exact waitingKept.trans none'
  dsimp only at run
  rw [State.freeReq_of_none waits, write] at run
  subst held
  refine ⟨_, _, _, run, rfl, ?_, rfl, ?_, rfl⟩
  · simp [replyTo, ok, knownStatus, stOk]
  · refine (congrArg Ucie.out (Tbl.get_put_same credits {} m _)).trans ?_
    show List.filter _ (Tbl.get credits {} m).out = []
    rw [outKept, out]
    simp [mine]

theorem exec_hbmResponse_credits {s : State} {m : Nat} {d : DtlMsg} {i : Instr} (sound : soundMsg d)
    (which : i = .hbmData m d ∧ d.dtype = 7 ∨ i = .hbmAck m d ∧ d.dtype = 8) :
    ∃ t x, exec i s = .next t ∧ t.sent = .dtl m true x :: s.sent ∧ x.dtype = 0xE ∧ x.arg = (d.cells.length + 1) * 65536 ∧ t = { s with ucies := t.ucies, sent := t.sent } := by
  rcases which with ⟨rfl, type⟩ | ⟨rfl, type⟩
  · obtain ⟨t, run, sent, rest⟩ := exec_of_taken (s := s) (m := m) (i := .hbmData m d) sound (c := 1) (by rw [type]; rfl) rfl
    exact ⟨t, _, run, sent, rfl, by simp [creditMsg], rest⟩
  · obtain ⟨t, run, sent, rest⟩ := exec_of_taken (s := s) (m := m) (i := .hbmAck m d) sound (c := 1) (by rw [type]; rfl) rfl
    exact ⟨t, _, run, sent, rfl, by simp [creditMsg], rest⟩

/-- Settles O35: each memory message by the rows it reads or buffers, behind the credits that receiving it returns. -/
theorem dieToDieMemory : Obligations.DieToDieMemory :=
  ⟨fun _ _ _ _ _ _ sound installed type chan alive empty named _ clean => execDtlMemRead_answers sound installed type chan alive empty named clean,
    fun _ _ _ intact shape type => execDtlMemRead_of_shape intact shape type,
    fun _ _ _ _ sound installed type chan alive merges none' room _ clean => execDtlMemWrite_buffers sound installed type chan alive merges none' room clean,
    fun _ _ _ outside => execHbmRead_faults outside, fun _ _ _ outside => execHbmWrite_faults outside,
    fun _ _ _ _ _ _ sound type stack named inside alive empty length clean => execHbmRead_answers sound type stack named inside alive empty length clean,
    fun _ _ _ _ sound type stack inside alive merges none' room _ clean => execHbmWrite_buffers sound type stack inside alive merges none' room clean,
    fun _ _ _ _ _ _ sound type ok out mine none' merge merges reqs data => execMemData_answers sound type ok out mine none' merge merges reqs data,
    fun _ _ _ _ sound type ok out mine none' write => execMemAck_acknowledges sound type ok out mine none' write,
    fun _ _ _ _ sound which => exec_hbmResponse_credits sound which⟩

end Sys2Proof.Machine
end

section
/-! PROOF. Every die-to-die command completes: objects read, and the recovery messages (15_reeve_die_and_service.md R361, R504, R515-R518). -/

namespace Sys2Proof.Machine

/-! ### A message of any class is received -/

/-- Receiving a message changes registers, modules and messages alone. -/
theorem State.dtlIn_onlyLinks (s : State) (m : Nat) (up : Bool) (d : DtlMsg) : s.onlyLinks (s.dtlIn m up d) := by
  cases cls : dtlClass d.dtype with
  | some c =>
    cases up
    · obtain ⟨credits, received, -⟩ := State.dtlIn_reeve_credits cls s m
      rw [received]
      rfl
    · obtain ⟨credits, regs, received, -⟩ := State.dtlIn_compute_credits cls s m
      rw [received]
      rfl
  | none =>
    cases up
    · rw [State.dtlIn_reeve_free cls]
      exact s.onlyLinks_refl
    · rw [State.dtlIn_compute_free cls]
      exact s.onlyLinks_refl.count _ _ _ _ _

section Fields
variable {s t : State} (h : s.onlyLinks t)
include h

theorem State.onlyLinks.faults_eq : t.faults = s.faults := by rw [show t = _ from h]
theorem State.onlyLinks.device_eq : t.device = s.device := by rw [show t = _ from h]
theorem State.onlyLinks.tiles_eq : t.tiles = s.tiles := by rw [show t = _ from h]
theorem State.onlyLinks.elapsed_eq : t.elapsed = s.elapsed := by rw [show t = _ from h]

end Fields

/-- A message that reaches the compute die changes no register but the counts of its module. -/
theorem State.sameRegs_dtlIn (s : State) (m : Nat) (d : DtlMsg) : s.sameRegs (s.dtlIn m true d) [okey (0x3210 + m) 4 0, okey (0x3210 + m) 5 0] := by
  cases cls : dtlClass d.dtype with
  | some c =>
    obtain ⟨credits, regs, received, -, kept⟩ := State.dtlIn_compute_credits cls s m
    rw [received]
    exact State.sameRegs_congr kept rfl
  | none =>
    rw [State.dtlIn_compute_free cls]
    exact State.sameRegs_count _ _ _ _ _ (State.sameRegs_refl _ _) (by simp)

/-! ### Objects (R361) -/

theorem State.objRequest_reads {s : State} {i j : Nat} {v : List Byte} {o : ObjDesc} (here : objAt i j = some o) (command : o.access ≠ 4)
    (counter : o.access ≠ 6) : s.objRequest i j 1 v = ((s.fetch i j o).1, stOk, (s.fetch i j o).2) := by
  simp [State.objRequest, here, command, counter]

theorem execObjReq_reads {s : State} {m : Nat} {d : DtlMsg} {o : ObjDesc} (sound : soundMsg d) (reads : fieldOf d.arg 0 8 = 1)
    (here : objAt (fieldOf d.addr 16 16) (fieldOf d.addr 8 8) = some o) (command : o.access ≠ 4) (counter : o.access ≠ 6) :
    ∃ t y rest, exec (.objReq m d) s = .next t ∧ t.sent = .dtl m false y :: rest ∧ y.dtype = 0xA ∧ y.dtag = d.dtag ∧ y.status = stOk ∧
      y.cells = valueCells ((s.dtlIn m true d).fetch (fieldOf d.addr 16 16) (fieldOf d.addr 8 8) o).2 := by
  have run : exec (.objReq m d) s = _ := congrArg Host.Outcome.next (State.onDtl_of_sound sound m true _)
  rw [reads] at run
  dsimp only at run
  rw [State.objRequest_reads here command counter] at run
  exact ⟨_, _, _, run, rfl, rfl, rfl, rfl, rfl⟩

/-! ### A recovery reset begins (R515, R516) -/

/-- The device is in RECOVERY mode for a cause that object 6020:04 keeps. -/
def State.recoversFor (s : State) (cause : Nat) : Prop := s.device.mode = .recovery ∧ s.obj 0x6020 4 = cause

theorem State.recoversFor.setObj {s : State} {cause : Nat} (h : s.recoversFor cause) {i j : Nat} (v : Nat) (hj : j < 256) (other : i ≠ 0x6020 ∨ j ≠ 4) :
    (s.setObj i j 0 v).recoversFor cause := by
  obtain ⟨mode, kept⟩ := h
  refine ⟨mode, (State.obj_setObj_ne _ _ (by decide) (by decide) hj (by decide) ?_).trans kept⟩
  omega

theorem State.recoversFor.emit {s : State} {cause : Nat} (h : s.recoversFor cause) (m : Msg) : (s.emit m).recoversFor cause := h

theorem State.recoversFor.toRouted {s : State} {cause : Nat} (h : s.recoversFor cause) (mtype body : Nat) : (s.toRouted mtype body).recoversFor cause :=
  State.each_induction (·.recoversFor cause) h fun _ _ _ kept => kept.emit _

theorem State.recover_recovers {s : State} (cause : Nat) (mode : s.device.mode = .service ∨ s.device.mode = .test) : (s.recover cause).recoversFor cause := by
  have begins : s.device.mode ≠ .recovery := by rcases mode with mode | mode <;> simp [mode]
  rw [State.recover, if_neg begins, if_neg (by rcases mode with mode | mode <;> simp [mode])]
  extract_lets bamurn boot faults s1 s2 s3 s4 s5
  have recovery : s1.device.mode = .recovery := rfl
  clear_value s1
  have counted : s2.device.mode = .recovery := recovery
  clear_value s2
  have first : s3.recoversFor cause := 
    State.recoversFor.setObj (s := (s2.count 0x6020 3 0 32).setObj 0x6020 4 0 cause) (i := 0x6020) (j := 5) ⟨counted, State.obj_setObj_same ..⟩ s.tide (by decide) (.inr (by decide))
  clear_value s3
  have services : s4.recoversFor cause := State.each_induction (·.recoversFor cause) first fun t n mem kept => by
    split
    · exact kept
    · exact State.recoversFor.setObj kept (i := 0x9100 + n) (j := 0) _ (by decide) (.inr (by decide))
  clear_value s4
  exact ((services.setObj (i := 0x0110) (j := 2) _ (by decide) (.inl (by decide))).emit _).toRouted _ _

theorem execRecoverReq_recovers {s : State} {m : Nat} {d : DtlMsg} (sound : soundMsg d) (unasked : s.faults.asked = none) (low : 2 ≤ d.addr % 256)
    (high : d.addr % 256 ≤ 4) (mode : s.device.mode = .service ∨ s.device.mode = .test) :
    ∃ t, exec (.recoverReq m d) s = .next t ∧ t.device.mode = .recovery ∧ t.obj 0x6020 4 = d.addr % 256 := by
  have kept := s.dtlIn_onlyLinks m false d
  have run : exec (.recoverReq m d) s = .next ((s.dtlIn m false d).recover (d.addr % 256)) := by
    refine (congrArg Host.Outcome.next (State.onDtl_of_sound sound m false _)).trans (congrArg Host.Outcome.next ?_)
    dsimp only
    rw [kept.faults_eq, unasked, if_neg (by simp), if_pos ⟨low, high⟩]
  obtain ⟨recovery, cause⟩ := State.recover_recovers (s := s.dtlIn m false d) (d.addr % 256) (by rw [kept.device_eq]; exact mode)
  exact ⟨_, run, recovery, cause⟩

/-! ### The device closes (R210, R504, R516) -/

theorem State.freezeQueues_tiles (s : State) (k : Nat) : (s.freezeQueues k).tiles = s.tiles :=
  State.each_induction (fun t => t.tiles = s.tiles) rfl fun t q _ kept => by
    split
    · exact kept
    · rw [State.setObj_tiles, State.setQState, State.setObj_tiles]
      exact kept

/-- A tile that closes touches the tile table alone at its own number. -/
theorem State.freezeTile_other (s : State) {k n : Nat} (h : n ≠ k) : ((s.freezeQueues k).freezeGauges k).tile n = s.tile n := by
  rw [State.freezeGauges, State.modGau, State.tile_modTile_ne _ _ h, State.tile, State.freezeQueues_tiles, State.tile]

/-- A tile that closes freezes its gauges where they are live. -/
theorem State.freezeTile_frozen {s : State} {k : Nat} (h : (s.tile k).gau.st = .frozen ∨ (s.tile k).gau.st = .live) :
    (((s.freezeQueues k).freezeGauges k).tile k).gau.st = .frozen := by
  rw [State.freezeGauges, State.modGau, State.tile_modTile_same, State.tile, State.freezeQueues_tiles]
  rw [State.tile] at h
  rcases h with frozen | live
  · simp only [frozen]
  · simp only [live]

theorem State.each_cons {α : Type} (s : State) (x : α) (xs : List α) (f : State → α → State) : s.each (x :: xs) f = (f s x).each xs f := rfl

/-- Every tile of the table that was live is frozen. -/
theorem State.freezeDevice_frozen {s : State} {n : Nat} (tile : n ∈ Tbl.keys s.tiles) (live : (s.tile n).gau.st = .live) : (s.freezeDevice.tile n).gau.st = .frozen := by
  have run : ∀ (xs : List Nat) (t : State), (t.tile n).gau.st = .frozen ∨ (t.tile n).gau.st = .live ∧ n ∈ xs →
      ((t.each xs (fun t k => (t.freezeQueues k).freezeGauges k)).tile n).gau.st = .frozen := by
    intro xs
    induction xs with
    | nil => exact fun t here => here.resolve_right (by simp)
    | cons k xs ih =>
      intro t here
      rw [State.each_cons]
      refine ih _ ?_
      by_cases same : n = k
      · subst same
        exact .inl (State.freezeTile_frozen (here.imp_right And.left))
      · rw [State.freezeTile_other _ same]
        simpa [same] using here
  rw [State.freezeDevice]
  exact run _ s (.inr ⟨live, tile⟩)

/-- State `t` has the faults, the time and the drain delay of `s`. -/
def State.sameDrain (s t : State) : Prop := t.faults = s.faults ∧ t.elapsed = s.elapsed ∧ t.obj 0x6020 1 = s.obj 0x6020 1

theorem State.sameDrain.setObj {s t : State} (h : s.sameDrain t) {i j e v : Nat} (hj : j < 256) (he : e < 65536) (other : j ≠ 1) : s.sameDrain (t.setObj i j e v) := by
  obtain ⟨faults, elapsed, drain⟩ := h
  exact ⟨(State.setObj_faults ..).trans faults, (State.setObj_elapsed ..).trans elapsed,
    (State.obj_setObj_ne _ _ (by decide) (by decide) hj he (.inr (.inl other.symm))).trans drain⟩

theorem State.sameDrain.modGau {s t : State} (h : s.sameDrain t) (n : Nat) (f : GaugeUnit → GaugeUnit) : s.sameDrain (t.modGau n f) := h

theorem State.freezeDevice_sameDrain (s : State) : s.sameDrain s.freezeDevice := by
  rw [State.freezeDevice]
  refine State.each_induction (fun t => s.sameDrain t) ⟨rfl, rfl, rfl⟩ fun t k _ kept => State.sameDrain.modGau ?_ _ _
  rw [State.freezeQueues]
  refine State.each_induction (fun u => s.sameDrain u) kept fun u q mem same => ?_
  have small : q < 4 := by simp at mem; omega
  split
  · exact same
  · exact (State.sameDrain.setObj same (by decide) (by omega) (by decide)).setObj (by decide) (by omega) (by decide)

theorem State.closeDomain_closing (s : State) (d : Domain) (x : Suspect) (q : Option Nat) :
    (s.closeDomain d x q).faults.closing = s.faults.closing ++ [(d, s.drainEnd)] := rfl

theorem State.closeDomain_tile (s : State) (d : Domain) (x : Suspect) (q : Option Nat) (n : Nat) : (s.closeDomain d x q).tile n = s.tile n := rfl

theorem execCloseGo_closes {s : State} {m : Nat} {d : DtlMsg} (sound : soundMsg d) (closing : s.faults.recovery = .closing) :
    ∃ t, exec (.closeGo m d) s = .next t ∧ t.faults.closing = s.faults.closing ++ [(.device, s.drainEnd)] ∧
      (∀ n, n ∈ Tbl.keys s.tiles → (s.tile n).gau.st = .live → (t.tile n).gau.st = .frozen) := by
  set u := s.dtlIn m true d with received
  have kept : s.onlyLinks u := s.dtlIn_onlyLinks m true d
  have run : exec (.closeGo m d) s = .next (u.freezeDevice.closeDomain .device susModule none) := by
    refine (congrArg Host.Outcome.next (State.onDtl_of_sound sound m true _)).trans (congrArg Host.Outcome.next (if_pos ?_))
    exact (congrArg Faults.recovery kept.faults_eq).trans closing
  obtain ⟨faults, elapsed, drain⟩ := u.freezeDevice_sameDrain
  have delay : u.obj 0x6020 1 = s.obj 0x6020 1 := s.sameRegs_dtlIn m d (okey 0x6020 1 0) (by simp [okey]; omega)
  refine ⟨_, run, ?_, fun n tile live => ?_⟩
  · rw [State.closeDomain_closing, State.drainEnd, elapsed, drain, delay, faults, kept.elapsed_eq, kept.faults_eq]
    rfl
  · rw [State.closeDomain_tile]
    exact State.freezeDevice_frozen (by rwa [kept.tiles_eq]) (by rwa [State.tile, kept.tiles_eq])

/-! ### The restart (R516) -/

theorem execQuiesced_restarts {s : State} {m : Nat} {d : DtlMsg} (sound : soundMsg d) (quiet : s.faults.recovery = .quiesced) :
    ∃ t n, exec (.quiesced m d) s = .next t ∧ t.sent = .dtl n true { dtype := 0x0F, arg := 4 } :: (s.dtlIn m false d).sent := by
  have run : exec (.quiesced m d) s = .next ((s.dtlIn m false d).recoveryDtl true 4 0) := by
    refine (congrArg Host.Outcome.next (State.onDtl_of_sound sound m false _)).trans (congrArg Host.Outcome.next (if_pos ?_))
    exact (congrArg Faults.recovery (s.dtlIn_onlyLinks m false d).faults_eq).trans quiet
  exact ⟨_, _, run, rfl⟩

/-- A state with no job and no configuration. -/
def State.jobless (s : State) : Prop := s.jobs = [] ∧ s.cfgs = []

theorem State.jobless.setObj {s : State} (h : s.jobless) (i j e v : Nat) : (s.setObj i j e v).jobless := h

theorem State.jobless.of_eq {s t : State} (h : s.jobless) (jobs : t.jobs = s.jobs) (cfgs : t.cfgs = s.cfgs) : t.jobless :=
  ⟨jobs.trans h.1, cfgs.trans h.2⟩

theorem State.logicReset_jobless (s : State) : s.logicReset.jobless := by
  unfold State.logicReset
  extract_lets stopped s1 s2 s3 held s4
  clear_value s2
  have reset : s3.jobless := ⟨rfl, rfl⟩
  have kept : s4.jobless := State.each_induction (·.jobless) reset fun _ _ _ same => same.setObj ..
  apply State.jobless.setObj
  exact State.jobless.of_eq kept rfl rfl

theorem execRestart_resets {s : State} {m : Nat} {d : DtlMsg} (sound : soundMsg d) (quiet : s.faults.recovery = .quiesced) :
    ∃ t, exec (.restart m d) s = .next t ∧ t.jobless := by
  have run : exec (.restart m d) s = .next (s.dtlIn m true d).logicReset := by
    refine (congrArg Host.Outcome.next (State.onDtl_of_sound sound m true _)).trans (congrArg Host.Outcome.next (if_pos ?_))
    exact (congrArg Faults.recovery (s.dtlIn_onlyLinks m true d).faults_eq).trans quiet
  exact ⟨_, run, State.logicReset_jobless _⟩

/-- Settles O57: each die-to-die command by what receiving its message and then doing its work changes. -/
theorem dieToDieCommandsComplete : Obligations.DieToDieCommandsComplete := by
  refine ⟨fun s m j _ retrains hj other left out none' => ?_, fun s m c d ds rows sound installed type chan alive empty named _ clean => ?_,
    fun s m c d sound installed type chan alive merges none' room _ clean => ?_,
    fun s m d r g p sound type ok out mine none' merge merges reqs data => ?_,
    fun s m d r sound type ok out mine none' write => ?_,
    fun s m h d ds rows sound type stack named inside alive empty length clean => ?_,
    fun s m h d sound type stack inside alive merges none' room _ clean => ?_,
    fun s m d sound type => ?_, fun s m d sound type => ?_,
    fun s u m d o sound type reads here command counter same => same ▸ execObjReq_reads sound reads here command counter,
    fun s m d sound type => ?_,
    fun s m d lo hi sound type cells => ?_,
    fun s m n d r o sound small open' runs part others language completes sealed active waits goes generates left present alone read done => ?_,
    fun s m n st d sound small state works waits part unlatched open' others => ?_,
    fun s m d sound type => ?_, fun s m d sound type => ?_, fun s m d sound type up => ?_, fun s m d sound type none' => ?_,
    fun s u m d _ sound unasked low high mode => execRecoverReq_recovers sound unasked low high mode,
    fun s u m d _ sound closing => execCloseGo_closes sound closing,
    fun s u m d same sound quiet => same ▸ execQuiesced_restarts sound quiet,
    fun s u m d _ sound quiet => execRestart_resets sound quiet,
    fun s m d sound type => ?_⟩
  · obtain ⟨t, r, run, state, empty, -⟩ := execUcieRetrainTimeout_retires retrains hj other left out none'
    exact ⟨t, run, state, empty⟩
  · obtain ⟨t, x, y, run, sent, -, -, type', tag, status, cells, -⟩ := execDtlMemRead_answers (m := m) sound installed type chan alive empty named clean
    exact ⟨t, x, y, run, sent, type', tag, status, cells⟩
  · obtain ⟨t, x, y, run, sent, -, type', tag, status, rows, -⟩ := execDtlMemWrite_buffers (m := m) sound installed type chan alive merges none' room clean
    exact ⟨t, x, y, run, sent, type', tag, status, rows⟩
  · obtain ⟨t, a, rest, run, sent, type', cells, tag, dst, freed, -⟩ := execMemData_answers sound type ok out mine none' merge merges reqs data
    exact ⟨t, a, rest, run, sent, type', cells, tag, dst, freed⟩
  · obtain ⟨t, a, rest, run, sent, type', tag, freed, -⟩ := execMemAck_acknowledges sound type ok out mine none' write
    exact ⟨t, a, rest, run, sent, type', tag, freed⟩
  · obtain ⟨t, x, y, run, sent, -, -, type', tag, status, cells, -⟩ := execHbmRead_answers (m := m) sound type stack named inside alive empty length clean
    exact ⟨t, x, y, run, sent, type', tag, status, cells⟩
  · obtain ⟨t, x, y, run, sent, -, type', tag, status, rows, -⟩ := execHbmWrite_buffers (m := m) sound type stack inside alive merges none' room clean
    exact ⟨t, x, y, run, sent, type', tag, status, rows⟩
  · obtain ⟨t, x, run, sent, type', arg, -⟩ := exec_hbmResponse_credits (s := s) (m := m) sound (.inl ⟨rfl, type⟩)
    exact ⟨t, x, run, sent, type', arg⟩
  · obtain ⟨t, x, run, sent, type', arg, -⟩ := exec_hbmResponse_credits (s := s) (m := m) sound (.inr ⟨rfl, type⟩)
    exact ⟨t, x, run, sent, type', arg⟩
  · obtain ⟨t, x, run, sent, type', -⟩ := exec_reeveMessage_credits (s := s) (m := m) sound (.inl ⟨rfl, type⟩)
    exact ⟨t, x, run, sent, type'⟩
  · obtain ⟨t, w, run, word, archive, -⟩ := execEventLevee_archives (s := s) (m := m) sound type cells
    exact ⟨t, w, run, word, archive⟩
  · obtain ⟨t, -, run, -, done', unsealed, -⟩ := execEventBoundary_of_done (m := m) sound small open' runs part others language completes sealed active waits goes generates present alone read done
    exact ⟨t, run, done', unsealed⟩
  · obtain ⟨t, -, run, -, running, kept, -⟩ := execEventJobState_of_running (m := m) sound small state works waits part unlatched open' others
    exact ⟨t, run, running, kept⟩
  · obtain ⟨t, x, run, sent, type', -⟩ := exec_reeveMessage_credits (s := s) (m := m) sound (.inr (.inl ⟨rfl, type⟩))
    exact ⟨t, x, run, sent, type'⟩
  · obtain ⟨t, u, x, run, sent, mine, -⟩ := execDtlMgmt_up (s := s) (m := m) sound type
    exact ⟨t, u, x, run, sent, mine⟩
  · obtain ⟨t, x, stamp, run, sent, stamped, -⟩ := execDtlEth_up (m := m) sound type up
    exact ⟨t, x, stamp, run, sent, stamped⟩
  · obtain ⟨t, run, -, -, credits, -⟩ := execCredit_up sound type none'
    exact ⟨t, run, credits⟩
  · obtain ⟨t, x, run, sent, type', -⟩ := exec_reeveMessage_credits (s := s) (m := m) sound (.inr (.inr ⟨rfl, type⟩))
    exact ⟨t, x, run, sent, type'⟩

end Sys2Proof.Machine
end

section
/-! PROOF. The levee log, the history, powered seconds and the ends of closures (21_faults_reset_recovery.md R365, R403, R493-R498, R502-R504, R519). -/

namespace Sys2Proof.Machine

/-! ### Records of the levee log -/

theorem State.levee_congr {s t : State} (h : t.faults = s.faults) (e : Nat) : t.levee e = s.levee e := by rw [State.levee, h]; rfl

@[simp] theorem State.levee_setLevee_same (s : State) (e : Nat) (r : Option LeveeRec) : (s.setLevee e r).levee e = r := Tbl.get_put_same ..

theorem State.levee_setLevee_other (s : State) {e i : Nat} (r : Option LeveeRec) (h : i ≠ e) : (s.setLevee e r).levee i = s.levee i :=
  Tbl.get_put_other _ _ _ _ _ _ h

/-- State `t` comes of `s` by registers, the fault unit and messages alone. -/
def State.onlyLog (s t : State) : Prop := t = { s with regs := t.regs, faults := t.faults, sent := t.sent }

theorem State.onlyLog_refl (s : State) : s.onlyLog s := rfl

theorem State.onlyLog.trans {s t u : State} (h : s.onlyLog t) (g : t.onlyLog u) : s.onlyLog u :=
  calc u = { t with regs := u.regs, faults := u.faults, sent := u.sent } := g
    _ = { s with regs := u.regs, faults := u.faults, sent := u.sent } := by rw [show t = { s with regs := t.regs, faults := t.faults, sent := t.sent } from h]

theorem State.onlyLog.setObj {s t : State} (h : s.onlyLog t) (i j e v : Nat) : s.onlyLog (t.setObj i j e v) := h.trans rfl
theorem State.onlyLog.count {s t : State} (h : s.onlyLog t) (i j e w : Nat) (n : Nat := 1) : s.onlyLog (t.count i j e w n) := h.setObj ..
theorem State.onlyLog.setLevee {s t : State} (h : s.onlyLog t) (e : Nat) (r : Option LeveeRec) : s.onlyLog (t.setLevee e r) := h.trans rfl
theorem State.onlyLog.dtlOut {s t : State} (h : s.onlyLog t) (m : Nat) (d : DtlMsg) : s.onlyLog (t.dtlOut m false d) := h.trans rfl

@[simp] theorem State.setLevee_regs (s : State) (e : Nat) (r : Option LeveeRec) : (s.setLevee e r).regs = s.regs := rfl
@[simp] theorem State.setLevee_sent (s : State) (e : Nat) (r : Option LeveeRec) : (s.setLevee e r).sent = s.sent := rfl

theorem State.dtlOut_sent (s : State) (m : Nat) (up : Bool) (d : DtlMsg) : (s.dtlOut m up d).sent = .dtl m up d :: s.sent := by cases up <;> rfl
theorem State.dtlOut_faults (s : State) (m : Nat) (up : Bool) (d : DtlMsg) : (s.dtlOut m up d).faults = s.faults := by cases up <;> rfl

/-- The record of an entry as a notice leaves it. -/
def LeveeRec.notified (r : LeveeRec) (now : Nat) : LeveeRec := { r with notices := r.notices + 1, noticed := r.count, noticeAt := now }

/-- The EVENT message of a record's 512 bits. -/
def noticeMsg (part w : Nat) : DtlMsg :=
  { dtype := 0x0B, arg := 1, partition := part, addr := 0, cells := [encodeRow (BitVec.ofNat 256 w), encodeRow (BitVec.ofNat 256 (w / 2 ^ 256))] }

/-- A notice is the record with its number of notices and their count, and an EVENT message that carries it in two cells. -/
theorem State.leveeNotice_of_some {s : State} {e now : Nat} {r : LeveeRec} (here : s.levee e = some r) (time : s.elapsed = now) :
    ∃ m w, s.leveeNotice e = (s.setLevee e (some (r.notified now))).dtlOut m false (noticeMsg r.part w) := by
  subst time
  refine ⟨(s.setLevee e (some (r.notified s.elapsed))).upModule, s.leveeWord e (r.notified s.elapsed), ?_⟩
  rw [State.leveeNotice, here]
  rfl

theorem State.leveeNotice_of_none {s : State} {e : Nat} (empty : s.levee e = none) : s.leveeNotice e = s := by rw [State.leveeNotice, empty]

theorem State.joinRecord_of_none {s : State} {e k : Nat} {r : Report} (empty : s.levee e = none) :
    s.joinRecord e r k = (s.setLevee e (some (s.openRecord r k))).leveeNotice e := by rw [State.joinRecord, empty]

theorem State.joinRecord_of_some {s : State} {e k : Nat} {r : Report} {x : LeveeRec} (here : s.levee e = some x) :
    s.joinRecord e r k = if (x.add s.tide s.elapsed r.ownerClosed).active && !x.active
      then (s.setLevee e (some (x.add s.tide s.elapsed r.ownerClosed))).count 0x6000 3 0 32 else s.setLevee e (some (x.add s.tide s.elapsed r.ownerClosed)) := by
  rw [State.joinRecord, here]

/-! ### The entry of a report (R493, R494) -/

/-- Does an entry hold the record of a key? -/
def State.holdsKey (s : State) (k cls e : Nat) : Bool := (s.levee e).elim false (fun r => r.suspect == k && r.cls == cls)

theorem State.holdsKey_iff {s : State} {k cls e : Nat} : s.holdsKey k cls e = true ↔ ∃ x, s.levee e = some x ∧ x.suspect = k ∧ x.cls = cls := by
  cases h : s.levee e <;> simp [State.holdsKey, h]

theorem State.holdsKey_eq_false {s : State} {k cls e : Nat} (h : ∀ x, s.levee e = some x → x.suspect ≠ k ∨ x.cls ≠ cls) : s.holdsKey k cls e = false := by
  rw [Bool.eq_false_iff, Ne, State.holdsKey_iff]
  rintro ⟨x, here, rfl, rfl⟩
  simpa using h x here

theorem State.leveeEntry_of_key {s : State} {k cls e : Nat} (small : e < 255) (here : s.holdsKey k cls e = true) (first : ∀ i, i < e → s.holdsKey k cls i = false) :
    s.leveeEntry k cls = e := by
  have found : (List.range 255).find? (s.holdsKey k cls) = some e := List.find?_range_eq_some.2 ⟨here, List.mem_range.2 small, fun i lower => by simp [first i lower]⟩
  show (match (List.range 255).find? (s.holdsKey k cls) with
    | some e => e
    | none => ((List.range 255).find? (fun e => (s.levee e).isNone)).getD overflowEntry) = e
  rw [found]

theorem State.leveeEntry_of_new {s : State} {k cls : Nat} (new : ∀ i, i < 255 → s.holdsKey k cls i = false) :
    s.leveeEntry k cls = ((List.range 255).find? (fun e => (s.levee e).isNone)).getD overflowEntry := by
  have none' : (List.range 255).find? (s.holdsKey k cls) = none := List.find?_eq_none.2 fun i mem => by simp [new i (List.mem_range.1 mem)]
  show (match (List.range 255).find? (s.holdsKey k cls) with
    | some e => e
    | none => ((List.range 255).find? (fun e => (s.levee e).isNone)).getD overflowEntry) = _
  rw [none']

theorem State.leveeEntry_of_free {s : State} {k cls e : Nat} (small : e < 255) (new : ∀ i, i < 255 → s.holdsKey k cls i = false) (free : s.levee e = none)
    (lower : ∀ i, i < e → s.levee i ≠ none) : s.leveeEntry k cls = e := by
  have found : (List.range 255).find? (fun e => (s.levee e).isNone) = some e :=
    List.find?_range_eq_some.2 ⟨by simp [free], List.mem_range.2 small, fun i less => by simpa [Option.isSome_iff_ne_none] using lower i less⟩
  rw [State.leveeEntry_of_new new, found]
  rfl

theorem State.leveeEntry_of_full {s : State} {k cls : Nat} (new : ∀ i, i < 255 → s.holdsKey k cls i = false) (full : ∀ i, i < 255 → s.levee i ≠ none) :
    s.leveeEntry k cls = overflowEntry := by
  have none' : (List.range 255).find? (fun e => (s.levee e).isNone) = none := List.find?_eq_none.2 fun i mem => by simpa [Option.isSome_iff_ne_none] using full i (List.mem_range.1 mem)
  rw [State.leveeEntry_of_new new, none']
  rfl

/-! ### Reports (R493-R496) -/

/-- A report is counted. -/
abbrev State.reported (s : State) : State := s.count 0x6000 2 0 64

theorem State.reported_levee (s : State) (e : Nat) : s.reported.levee e = s.levee e := State.levee_congr rfl e

theorem State.reported_sameRegs (s : State) {ks : List Nat} (h : okey 0x6000 2 0 ∈ ks) : s.sameRegs s.reported ks :=
  State.sameRegs_count _ _ _ _ _ (s.sameRegs_refl _) h

theorem execLeveeReport_of_entry {s : State} {r : Report} {e : Nat} (entry : s.reported.leveeEntry (reportKey r) r.cls = e) (small : e < 255) :
    exec (.leveeReport r) s = .next (s.reported.joinRecord e r (reportKey r)) := by
  refine congrArg Host.Outcome.next ((if_neg ?_).trans ?_)
  · rw [entry]
    exact Nat.ne_of_lt small
  · rw [entry]

theorem execLeveeReport_of_overflow {s : State} {r : Report} (entry : s.reported.leveeEntry (reportKey r) r.cls = overflowEntry) :
    exec (.leveeReport r) s = .next ((s.reported.count 0x6000 1 0 32).joinRecord overflowEntry r overflowSuspect) :=
  congrArg Host.Outcome.next (if_pos entry)

theorem execLeveeReport_opens {s : State} {r : Report} {e : Nat} (small : e < 255) (free : s.levee e = none) (lower : ∀ i, i < e → s.levee i ≠ none)
    (new : ∀ i x, i < 255 → s.levee i = some x → x.suspect ≠ reportKey r ∨ x.cls ≠ r.cls) :
    ∃ t m d, exec (.leveeReport r) s = .next t ∧ t.levee e = some ((s.openRecord r (reportKey r)).notified s.elapsed) ∧ t.sent = .dtl m false d :: s.sent ∧ d.dtype = 0xB ∧
      d.arg = 1 ∧ d.cells.length = 2 ∧ t.obj 0x6000 2 = min (s.obj 0x6000 2 + 1) (2 ^ 64 - 1) ∧ (∀ i, i ≠ e → t.levee i = s.levee i) ∧ s.onlyLog t ∧
      s.sameRegs t [okey 0x6000 2 0, okey (0x3210 + m) 4 0] := by
  have entry : s.reported.leveeEntry (reportKey r) r.cls = e := State.leveeEntry_of_free small
    (fun i less => State.holdsKey_eq_false fun x here => new i x less (by rwa [State.reported_levee] at here))
    ((s.reported_levee e).trans free) fun i less => by rw [State.reported_levee]; exact lower i less
  have run := execLeveeReport_of_entry entry small
  rw [State.joinRecord_of_none ((s.reported_levee e).trans free)] at run
  obtain ⟨m, w, notice⟩ := State.leveeNotice_of_some (s := s.reported.setLevee e (some (s.reported.openRecord r (reportKey r)))) (now := s.elapsed) (State.levee_setLevee_same ..) rfl
  rw [notice] at run
  set u := (s.reported.setLevee e (some (s.reported.openRecord r (reportKey r)))).setLevee e (some ((s.reported.openRecord r (reportKey r)).notified s.elapsed)) with written
  have log : s.onlyLog u := ((s.onlyLog_refl.count 0x6000 2 0 64).setLevee e _).setLevee e _
  have records : ∀ i, i ≠ e → u.levee i = s.levee i := fun i other => by
    rw [written, State.levee_setLevee_other _ _ other, State.levee_setLevee_other _ _ other, State.reported_levee]
  have record : u.levee e = some ((s.openRecord r (reportKey r)).notified s.elapsed) := State.levee_setLevee_same ..
  have regs : u.regs = s.reported.regs := by rw [written, State.setLevee_regs, State.setLevee_regs]
  have silent : u.sent = s.sent := by rw [written, State.setLevee_sent, State.setLevee_sent, State.count_sent]
  clear_value u
  refine ⟨_, m, noticeMsg (s.reported.openRecord r (reportKey r)).part w, run, (State.levee_congr (State.dtlOut_faults ..) e).trans record, ?_, rfl, rfl, rfl, ?_,
    fun i other => (State.levee_congr (State.dtlOut_faults ..) i).trans (records i other), log.dtlOut m _, ?_⟩
  · rw [State.dtlOut_sent, silent]
  · refine (State.obj_setObj_ne _ _ (by decide) (by decide) (by decide) (by decide) (.inr (.inl (by decide)))).trans ?_
    exact (State.obj_congr regs 0x6000 2 0).trans (State.obj_count_same ..)
  · exact State.sameRegs_dtlOut (State.sameRegs_congr (s.reported_sameRegs (by simp)) regs) m false _ (by simp)

theorem LeveeRec.add_keeps (x : LeveeRec) (tide now : Nat) (closed : Bool) :
    x.peak ≤ (x.add tide now closed).peak ∧ (x.storm = true → (x.add tide now closed).storm = true) :=
  ⟨le_max_left .., fun storm => by simp [LeveeRec.add, storm]⟩

/-- A record with one report more, and 6000:03 where its storm begins. -/
theorem State.joinRecord_adds {s : State} {e k : Nat} {r : Report} {x : LeveeRec} (here : s.levee e = some x) :
    (s.joinRecord e r k).levee e = some (x.add s.tide s.elapsed r.ownerClosed) ∧ (∀ i, i ≠ e → (s.joinRecord e r k).levee i = s.levee i) ∧
      (s.joinRecord e r k).obj 0x6000 3 = (if (x.add s.tide s.elapsed r.ownerClosed).active = true ∧ x.active = false then min (s.obj 0x6000 3 + 1) (2 ^ 32 - 1) else s.obj 0x6000 3) ∧
      s.joinRecord e r k = { s with regs := (s.joinRecord e r k).regs, faults := (s.joinRecord e r k).faults } ∧ s.sameRegs (s.joinRecord e r k) [okey 0x6000 3 0] := by
  rw [State.joinRecord_of_some here]
  set y := x.add s.tide s.elapsed r.ownerClosed
  have others : ∀ i, i ≠ e → (s.setLevee e (some y)).levee i = s.levee i := fun i other => State.levee_setLevee_other s _ other
  by_cases begins : y.active = true ∧ x.active = false
  · rw [if_pos (by simp [begins.1, begins.2]), if_pos begins]
    exact ⟨(State.levee_congr rfl e).trans (State.levee_setLevee_same ..), fun i other => (State.levee_congr rfl i).trans (others i other), State.obj_count_same .., rfl,
      State.sameRegs_count _ _ _ _ _ (State.sameRegs_of_regs rfl _) (by simp)⟩
  · rw [if_neg (by simpa using begins), if_neg begins]
    exact ⟨State.levee_setLevee_same .., others, rfl, rfl, State.sameRegs_of_regs rfl _⟩

theorem execLeveeReport_adds {s : State} {r : Report} {e : Nat} {x : LeveeRec} (small : e < 255) (here : s.levee e = some x) (suspect : x.suspect = reportKey r)
    (cls : x.cls = r.cls) (first : ∀ i y, i < e → s.levee i = some y → y.suspect ≠ reportKey r ∨ y.cls ≠ r.cls) :
    ∃ t, exec (.leveeReport r) s = .next t ∧ t.levee e = some (x.add s.tide s.elapsed r.ownerClosed) ∧ (∀ i, i ≠ e → t.levee i = s.levee i) ∧
      t = { s with regs := t.regs, faults := t.faults } ∧ s.sameRegs t [okey 0x6000 2 0, okey 0x6000 3 0] ∧ t.obj 0x6000 2 = min (s.obj 0x6000 2 + 1) (2 ^ 64 - 1) ∧
      t.obj 0x6000 3 = (if (x.add s.tide s.elapsed r.ownerClosed).active = true ∧ x.active = false then min (s.obj 0x6000 3 + 1) (2 ^ 32 - 1) else s.obj 0x6000 3) := by
  have entry : s.reported.leveeEntry (reportKey r) r.cls = e := State.leveeEntry_of_key small
    (State.holdsKey_iff.2 ⟨x, (s.reported_levee e).trans here, suspect, cls⟩)
    fun i less => State.holdsKey_eq_false fun y held => first i y less (by rwa [State.reported_levee] at held)
  obtain ⟨record, others, storms, rest, kept⟩ := State.joinRecord_adds (k := reportKey r) (r := r) ((s.reported_levee e).trans here)
  have counted : s.reported.obj 0x6000 2 = min (s.obj 0x6000 2 + 1) (2 ^ 64 - 1) := State.obj_count_same ..
  have beside : s.reported.obj 0x6000 3 = s.obj 0x6000 3 := State.obj_setObj_ne _ _ (by decide) (by decide) (by decide) (by decide) (.inr (.inl (by decide)))
  refine ⟨_, execLeveeReport_of_entry entry small, record, fun i other => (others i other).trans (s.reported_levee i), rest, ?_, ?_, ?_⟩
  · exact State.sameRegs_trans (s.reported_sameRegs (by simp)) (State.sameRegs_mono kept (by simp))
  · exact (kept (okey 0x6000 2 0) (by decide)).trans counted
  · rw [storms, beside]
    rfl

theorem execLeveeReport_overflows {s : State} {r : Report} {x : LeveeRec} (full : ∀ i, i < 255 → ∃ y, s.levee i = some y ∧ (y.suspect ≠ reportKey r ∨ y.cls ≠ r.cls))
    (here : s.levee 255 = some x) :
    ∃ t, exec (.leveeReport r) s = .next t ∧ t.levee 255 = some (x.add s.tide s.elapsed r.ownerClosed) ∧ t.obj 0x6000 1 = min (s.obj 0x6000 1 + 1) (2 ^ 32 - 1) ∧
      t.obj 0x6000 2 = min (s.obj 0x6000 2 + 1) (2 ^ 64 - 1) ∧ ∀ i, i < 255 → t.levee i = s.levee i := by
  have entry : s.reported.leveeEntry (reportKey r) r.cls = overflowEntry := by
    refine State.leveeEntry_of_full (fun i less => State.holdsKey_eq_false fun y held => ?_) fun i less => ?_
    · obtain ⟨z, present, other⟩ := full i less
      rw [State.reported_levee, present] at held
      exact Option.some.inj held ▸ other
    · obtain ⟨z, present, -⟩ := full i less
      rw [State.reported_levee, present]
      exact Option.some_ne_none z
  have same : ∀ i, (s.reported.count 0x6000 1 0 32).levee i = s.levee i := fun i => State.levee_congr rfl i
  obtain ⟨record, others, -, -, kept⟩ := State.joinRecord_adds (k := overflowSuspect) (r := r) ((same 255).trans here)
  refine ⟨_, execLeveeReport_of_overflow entry, record, ?_, ?_, fun i less => (others i (by omega)).trans (same i)⟩
  · refine (kept (okey 0x6000 1 0) (by decide)).trans ?_
    have beside : s.reported.obj 0x6000 1 = s.obj 0x6000 1 := State.obj_setObj_ne _ _ (by decide) (by decide) (by decide) (by decide) (.inr (.inl (by decide)))
    exact (State.obj_count_same ..).trans (by rw [beside])
  · refine (kept (okey 0x6000 2 0) (by decide)).trans ?_
    have beside : (s.reported.count 0x6000 1 0 32).obj 0x6000 2 = s.reported.obj 0x6000 2 :=
      State.obj_setObj_ne _ _ (by decide) (by decide) (by decide) (by decide) (.inr (.inl (by decide)))
    exact beside.trans (State.obj_count_same ..)

/-! ### Quiet records (R495-R497) -/

theorem exec_levee_empty {s : State} {e : Nat} (empty : s.levee e = none) :
    exec (.stormClear e) s = .next s ∧ exec (.leveeNotice e) s = .next s ∧ exec (.leveeEntryFree e) s = .next s := by
  refine ⟨?_, ?_, ?_⟩
  · show execStormClear e s = _; rw [execStormClear, empty]
  · show execLeveeNotice e s = _; rw [execLeveeNotice, empty]
  · show execLeveeEntryFree e s = _; rw [execLeveeEntryFree, empty]

section Record
variable {s : State} {e : Nat} {x : LeveeRec} (here : s.levee e = some x)
include here

theorem execStormClear_eq : exec (.stormClear e) s = .next (if x.quietAt ≤ s.elapsed then s.setLevee e (some { x with active := false }) else s) := by
  show execStormClear e s = _; rw [execStormClear, here]

theorem execLeveeNotice_eq : exec (.leveeNotice e) s = .next (if x.count > x.noticed ∧ x.noticeAt + 10 * msTide ≤ s.elapsed then s.leveeNotice e else s) := by
  show execLeveeNotice e s = _; rw [execLeveeNotice, here]

theorem execLeveeEntryFree_eq : exec (.leveeEntryFree e) s = .next (if x.count = x.noticed ∧ x.lastAt + secTide ≤ s.elapsed then s.setLevee e none else s) := by
  show execLeveeEntryFree e s = _; rw [execLeveeEntryFree, here]

theorem execLeveeNotice_notifies (more : x.noticed < x.count) (later : x.noticeAt + 10 * msTide ≤ s.elapsed) :
    ∃ t m d, exec (.leveeNotice e) s = .next t ∧ t.levee e = some (x.notified s.elapsed) ∧ t.sent = .dtl m false d :: s.sent ∧ d.dtype = 0xB ∧ d.arg = 1 := by
  obtain ⟨m, w, notice⟩ := State.leveeNotice_of_some here rfl
  have run := execLeveeNotice_eq here
  rw [if_pos ⟨more, later⟩, notice] at run
  exact ⟨_, m, _, run, (State.levee_congr rfl e).trans (State.levee_setLevee_same ..), rfl, rfl, rfl⟩

end Record

/-! ### The archive (R497) -/

theorem execEventLevee_keeps {s : State} {m : Nat} {d : DtlMsg} {lo hi : Codeword} (sound : soundMsg d) (cells : d.cells = [lo, hi]) :
    ∃ t, exec (.eventLevee m d) s = .next t ∧ t.faults.archive.head? = some (2 ^ 256 * (decodedRow hi).toNat + (decodedRow lo).toNat) ∧ t.faults.archive.length ≤ 4096 ∧
      (∀ x, x ∈ t.faults.archive → x = 2 ^ 256 * (decodedRow hi).toNat + (decodedRow lo).toNat ∨ x ∈ s.faults.archive) ∧
      t = { s.dtlIn m false d with faults := { (s.dtlIn m false d).faults with archive := t.faults.archive } } := by
  have kept := (s.dtlIn_onlyLinks m false d).faults_eq
  generalize received : s.dtlIn m false d = u at kept
  have run : exec (.eventLevee m d) s = _ := congrArg Host.Outcome.next (State.onDtl_of_sound sound m false _)
  rw [received, cells] at run
  refine ⟨_, run, rfl, List.length_take_le .., fun x mem => ?_, rfl⟩
  rw [← kept]
  obtain same | old := List.mem_cons.1 (List.mem_of_mem_take mem)
  · exact .inl same
  · exact .inr (List.mem_of_mem_filter old)

/-! ### Powered seconds and the history (R403, R498, R519) -/

theorem execPoweredSecond_advances {s : State} (open' : s.power.closed = false) :
    ∃ t, exec .poweredSecond s = .next t ∧ t.obj 0x6010 1 = min (s.obj 0x6010 1 + 1) (2 ^ 64 - 1) ∧ t.bamurn.flash.inSecond = 0 ∧
      t = { s with regs := t.regs, bamurn := t.bamurn, faults := t.faults } ∧ s.sameRegs t [okey 0x6010 1 0] ∧
      t.faults = { s.faults with stored := t.faults.stored, history := s.faults.history.map (fun e => if e.writes s.elapsed then e.store s.elapsed else e) } ∧
      (s.faults.stored + 60 ≤ t.obj 0x6010 1 → t.faults.stored = t.obj 0x6010 1) := by
  have advanced : (s.count 0x6010 1 0 64).obj 0x6010 1 = min (s.obj 0x6010 1 + 1) (2 ^ 64 - 1) := State.obj_count_same ..
  have kept : s.sameRegs (s.count 0x6010 1 0 64) [okey 0x6010 1 0] := State.sameRegs_count _ _ _ _ _ (s.sameRegs_refl _) List.mem_cons_self
  set s1 := s.count 0x6010 1 0 64 with counted
  set s2 := { s1 with bamurn := { s1.bamurn with flash := { s1.bamurn.flash with inSecond := 0 } } }.keepHistory with written
  have powered : s2.powered = s1.obj 0x6010 1 := rfl
  have run : exec .poweredSecond s = .next (if s2.powered ≥ s2.faults.stored + 60 then { s2 with faults := { s2.faults with stored := s2.powered } } else s2) :=
    congrArg Host.Outcome.next (if_neg (by simp [open']))
  by_cases due : s2.powered ≥ s2.faults.stored + 60
  · rw [if_pos due] at run
    exact ⟨_, run, advanced, rfl, rfl, State.sameRegs_congr kept rfl, rfl, fun _ => powered⟩
  · rw [if_neg due] at run
    exact ⟨_, run, advanced, rfl, rfl, State.sameRegs_congr kept rfl, rfl, fun late => absurd late due⟩

theorem execHistoryClear_clears {s : State} {sess code : Nat} (passed : s.writeGuard sess 0x6010 2 = none) :
    ∃ t, exec (.historyClear sess code) s = .next t ∧ t = { s with regs := t.regs, faults := t.faults, sent := t.sent } ∧ s.sameRegs t [okey 0x6010 2 0] ∧
      t.faults = { s.faults with history := s.faults.history.filter (fun h => h.suspect != code) } ∧
      ((∃ h, h ∈ s.faults.history ∧ h.suspect = code) → t.obj 0x6010 2 = stOk) ∧ ((∀ h, h ∈ s.faults.history → h.suspect ≠ code) → t.obj 0x6010 2 = stNotReady) := by
  set u : State := { s with faults := { s.faults with history := s.faults.history.filter (fun h => h.suspect != code) } } with cleared
  have kept : ∀ st, s.sameRegs (u.setObj 0x6010 2 0 st) [okey 0x6010 2 0] := fun st => State.sameRegs_setObj _ _ _ _ (State.sameRegs_of_regs rfl _) List.mem_cons_self
  by_cases any : ∃ h, h ∈ s.faults.history ∧ h.suspect = code
  · have rule : ruleHistoryClear code s = (u, stOk) := if_pos (by simpa using any)
    refine ⟨_, State.commandOut_of_rule passed rule, rfl, State.sameRegs_congr (kept stOk) rfl, rfl, fun _ => (State.obj_answer ..).trans (State.obj_setObj_same ..), fun none' => ?_⟩
    obtain ⟨h, mem, same⟩ := any
    exact absurd same (none' h mem)
  · have none' : ∀ h, h ∈ s.faults.history → h.suspect ≠ code := fun h mem same => any ⟨h, mem, same⟩
    have unchanged : u = s := by
      have all : s.faults.history.filter (fun h => h.suspect != code) = s.faults.history := List.filter_eq_self.2 fun h mem => by simpa using none' h mem
      rw [cleared, all]
    have rule : ruleHistoryClear code s = (u, stNotReady) := by
      rw [unchanged]
      exact if_neg (by simpa using none')
    exact ⟨_, State.commandOut_of_rule passed rule, rfl, State.sameRegs_congr (kept stNotReady) rfl, rfl, fun some' => absurd some' any, fun _ => (State.obj_answer ..).trans (State.obj_setObj_same ..)⟩

/-! ### The end of a closure (R502, R504) -/

theorem execClosureDrainExpiry_early {s : State} {d : Domain} (early : ∀ e, e ∈ s.faults.closing → e.1 = d → s.elapsed < e.2) :
    exec (.closureDrainExpiry d) s = .next s := by
  have none' : s.faults.closing.find? (fun e => e.1 == d && decide (e.2 ≤ s.elapsed)) = none := by
    refine List.find?_eq_none.2 fun e mem => ?_
    simpa using fun same : e.1 = d => early e mem same
  show execClosureDrainExpiry d s = _
  rw [execClosureDrainExpiry, none']

/-- The state without the closures that drain. -/
def State.undrained (s : State) : State := { s with faults := { s.faults with closing := [] } }

theorem State.undrained_tile (s : State) (n : Nat) : s.undrained.tile n = s.tile n := rfl

theorem execClosureDrainExpiry_due {s : State} {d : Domain} {h : Nat} (only : s.faults.closing = [(d, h)]) (due : h ≤ s.elapsed) :
    exec (.closureDrainExpiry d) s = .next (if d = .device ∧ (s.undrained.endClosure d).faults.recovery = .closing then (s.undrained.endClosure d).quiesce
      else s.undrained.endClosure d) := by
  have found : s.faults.closing.find? (fun e => e.1 == d && decide (e.2 ≤ s.elapsed)) = some (d, h) := by rw [only]; simp [due]
  have erased : s.faults.closing.erase (d, h) = [] := by rw [only]; simp
  show execClosureDrainExpiry d s = _
  rw [execClosureDrainExpiry, found]
  dsimp only
  rw [erased]
  rfl

theorem execClosureDrainExpiry_tile {s : State} {n h : Nat} (only : s.faults.closing = [(.tile n, h)]) (due : h ≤ s.elapsed) :
    exec (.closureDrainExpiry (.tile n)) s = .next (((s.undrained.answerHeld n).dropTracks n).closureRetires n) := by
  rw [execClosureDrainExpiry_due only due, if_neg (by simp)]
  rfl

/-! ### The device's closure in a recovery reset (R497, R516) -/

theorem State.answerHeld_faults (s : State) (n : Nat) : (s.answerHeld n).faults = s.faults := by
  rw [State.answerHeld, State.modTile_faults]
  exact List.foldlRecOn _ _ (motive := fun (t : State) => t.faults = s.faults) rfl fun _ kept _ _ => kept

theorem State.answerForwards_faults (s : State) : s.answerForwards.faults = s.faults :=
  State.each_induction (fun t => t.faults = s.faults) rfl fun t k _ kept =>
    (State.modPort_faults ..).trans (List.foldlRecOn _ _ (motive := fun (u : State) => u.faults = s.faults) kept fun _ same _ _ => same)

theorem State.endClosure_device_faults (s : State) : (s.endClosure .device).faults = s.faults :=
  (State.answerForwards_faults _).trans (State.each_induction (fun t => t.faults = s.faults) rfl fun t n _ kept => (t.answerHeld_faults n).trans kept)

theorem State.flushServer_faults (s : State) (v : Server) : (s.flushServer v).faults = s.faults := by
  have rows : (s.each (s.server v).wbuf (fun t w => t.putRow v w.1 w.2)).faults = s.faults :=
    State.each_induction (fun t => t.faults = s.faults) rfl fun t w _ kept => by
      cases v <;> exact kept
  rw [State.flushServer]
  cases v <;> exact rows

theorem State.drainBuffers_faults (s : State) : s.drainBuffers.faults = s.faults := by
  rw [State.drainBuffers]
  refine State.each_induction (fun t => t.faults = s.faults) ?_ fun t c _ kept => (t.flushServer_faults _).trans kept
  exact State.each_induction (fun t => t.faults = s.faults) rfl fun t c _ kept => (t.flushServer_faults _).trans kept

theorem State.leveeNotice_closing (s : State) (e : Nat) : (s.leveeNotice e).faults.closing = s.faults.closing := by
  cases here : s.levee e with
  | none => rw [State.leveeNotice_of_none here]
  | some r =>
    obtain ⟨m, w, notice⟩ := State.leveeNotice_of_some here rfl
    rw [notice, State.dtlOut_faults]
    rfl

theorem State.quiesce_quiets {s : State} (none' : s.faults.closing = []) :
    ∃ m rest, s.quiesce.faults.recovery = .quiesced ∧ s.quiesce.faults.levee = [] ∧ s.quiesce.faults.closing = [] ∧
      s.quiesce.sent = .dtl m false { dtype := 0x0F, arg := 3 } :: rest := by
  have closing : (s.drainBuffers.each (Tbl.keys s.faults.levee) State.leveeNotice).faults.closing = [] :=
    State.each_induction (fun t => t.faults.closing = []) (by rw [State.drainBuffers_faults]; exact none') fun t e _ kept => (t.leveeNotice_closing e).trans kept
  rw [State.quiesce]
  generalize s.drainBuffers.each (Tbl.keys s.faults.levee) State.leveeNotice = u at closing
  exact ⟨_, _, rfl, rfl, closing, rfl⟩

theorem execClosureDrainExpiry_device {s : State} {h : Nat} (only : s.faults.closing = [(.device, h)]) (due : h ≤ s.elapsed) (reset : s.faults.recovery = .closing) :
    ∃ t m rest, exec (.closureDrainExpiry .device) s = .next t ∧ t.faults.recovery = .quiesced ∧ t.faults.levee = [] ∧ t.faults.closing = [] ∧
      t.sent = .dtl m false { dtype := 0x0F, arg := 3 } :: rest := by
  have kept := s.undrained.endClosure_device_faults
  have run := execClosureDrainExpiry_due only due
  rw [if_pos ⟨rfl, by rw [kept]; exact reset⟩] at run
  obtain ⟨m, rest, quiet⟩ := State.quiesce_quiets (s := s.undrained.endClosure .device) (by rw [kept]; rfl)
  exact ⟨_, m, rest, run, quiet⟩

/-! ### A tile's closure (R502, R504) -/

/-- The tile as the end of its closure leaves it: nothing held, nothing outstanding. -/
def Tile.givenUp (t : Tile) : Tile :=
  { t with merges := [], gau := { t.gau with held := [] }, mov := { t.mov with descs := [], tracks := [], signals := [], credits := 16 } }

/-- What a tile held is answered and what it had outstanding is given up. -/
theorem State.dropTracks_answerHeld (s : State) (n : Nat) : (s.answerHeld n).dropTracks n =
    { s with sent := (((s.tile n).merges.flatMap (·.reqs) ++ (s.tile n).gau.held).foldl (fun u p => u.sendReply n p stFenced) s).sent,
             tiles := ((s.answerHeld n).dropTracks n).tiles } ∧
      ((s.answerHeld n).dropTracks n).tile n = (s.tile n).givenUp ∧ ∀ m, m ≠ n → ((s.answerHeld n).dropTracks n).tile m = s.tile m := by
  have answered : ∀ ps : List Packet, s.onlySends (ps.foldl (fun u p => u.sendReply n p stFenced) s) := fun ps =>
    List.foldlRecOn _ _ (motive := fun (u : State) => s.onlySends u) s.onlySends_refl fun u kept _ _ => kept.emit _
  rw [State.dropTracks, State.modMov, State.answerHeld]
  have sends := answered ((s.tile n).merges.flatMap (·.reqs) ++ (s.tile n).gau.held)
  generalize ((s.tile n).merges.flatMap (·.reqs) ++ (s.tile n).gau.held).foldl (fun u p => u.sendReply n p stFenced) s = u at sends
  obtain ⟨sent, rfl⟩ : ∃ sent, u = { s with sent := sent } := ⟨_, sends⟩
  have same : ∀ m, ({ s with sent := sent } : State).tile m = s.tile m := fun _ => rfl
  refine ⟨rfl, ?_, fun m other => ?_⟩
  · rw [State.tile_modTile_same, State.tile_modTile_same, same]
    rfl
  · rw [State.tile_modTile_ne _ _ other, State.tile_modTile_ne _ _ other, same]

/-- A tile that is RETIRED, with no closure under way. -/
def State.retiredTile (n : Nat) (s : State) : Prop := s.tileState n = 6 ∧ s.faults.closing = []

theorem State.retiredTile.setObj {s : State} {n : Nat} (h : s.retiredTile n) {i j e v : Nat} (hj : j < 256) (he : e < 65536) (other : i ≠ tileIx n ∨ j ≠ 0) :
    (s.setObj i j e v).retiredTile n := by
  obtain ⟨state, closing⟩ := h
  refine ⟨(State.obj_setObj_ne _ _ (by decide) (by decide) hj he ?_).trans state, closing⟩
  exact other.imp Ne.symm fun sub => .inl (Ne.symm sub)

theorem State.retiredTile.of_eq {s t : State} {n : Nat} (h : s.retiredTile n) (regs : t.regs = s.regs) (closing : t.faults.closing = s.faults.closing) : t.retiredTile n :=
  ⟨(State.obj_congr regs _ _ _).trans h.1, closing.trans h.2⟩

theorem State.retiredTile.verdict {s : State} {n : Nat} (h : s.retiredTile n) (small : n < 1224) (x cls : Nat) : (s.verdict x cls).retiredTile n := by
  have put : ∀ y, (s.putHist y).retiredTile n := fun y => h.of_eq rfl rfl
  unfold State.verdict
  extract_lets e s1
  have noted : s1.retiredTile n := put _
  clear_value s1
  have written : (s1.setObj 0x6060 0 0 (s1.obj 0x6060 0 + 1)).retiredTile n := noted.setObj (by decide) (by decide) (.inl (by simp only [tileIx]; omega))
  exact written.of_eq rfl rfl

theorem State.retiredTile.emptyQueues {s : State} {n : Nat} (h : s.retiredTile n) : (s.emptyQueues n).retiredTile n := by
  rw [State.emptyQueues]
  refine State.each_induction (·.retiredTile n) h fun t q mem kept => ?_
  have few : q < 4 := by simp at mem; omega
  exact ((State.retiredTile.setObj kept (i := tileIx n) (j := 0x30) (by decide) (by omega) (.inr (by decide))).setObj (by decide) (by omega) (.inr (by decide))).setObj
    (by decide) (by omega) (.inr (by decide))

theorem State.retiredTile.unassign {s : State} {n : Nat} (h : s.retiredTile n) : (s.unassign n).retiredTile n := by
  unfold State.unassign
  extract_lets s1
  have emptied : s1.retiredTile n := h.emptyQueues.of_eq (State.modTile_regs ..) (congrArg Faults.closing (State.modTile_faults ..))
  clear_value s1
  exact ((emptied.setObj (by decide) (by decide) (.inr (by decide))).setObj (by decide) (by decide) (.inr (by decide))).setObj (by decide) (by decide) (.inr (by decide))

theorem State.retiredTile.chooseReplacement {s : State} {n : Nat} (h : s.retiredTile n) (m : Nat) : (s.chooseReplacement m).retiredTile n := by
  rw [State.chooseReplacement]
  cases s.replacementFor m with
  | some k => exact h.of_eq rfl rfl
  | none =>
    show (s.shrink).retiredTile n
    rw [State.shrink]
    split
    · exact h
    · have counted : (s.count 0x2000 0 0 32).retiredTile n := h.setObj (by decide) (by decide) (.inl (by simp only [tileIx]; omega))
      exact counted.of_eq rfl rfl

theorem State.retireTile_retires {s : State} {n : Nat} (small : n < 1224) (none' : s.faults.closing = []) (cls : Nat) : (s.retireTile n cls none).retiredTile n := by
  unfold State.retireTile
  extract_lets before s1
  have state : (s.setTileState n tsRetired).retiredTile n := ⟨State.obj_setObj_same .., none'⟩
  have left : s1.retiredTile n := (state.verdict small _ _).unassign.of_eq (State.modTile_regs ..) (congrArg Faults.closing (State.modTile_faults ..))
  clear_value s1
  dsimp only
  split
  · exact left
  · exact left.chooseReplacement n

theorem execClosureDrainExpiry_retires {s : State} {n h : Nat} (small : n < 1224) (only : s.faults.closing = [(.tile n, h)]) (due : h ≤ s.elapsed)
    (state : s.tileState n = 5) (free : (s.tile n).owner = none) (cause : (s.tile n).cause ≠ 0) :
    ∃ t, exec (.closureDrainExpiry (.tile n)) s = .next t ∧ t.tileState n = 6 ∧ t.faults.closing = [] := by
  have run := execClosureDrainExpiry_tile only due
  obtain ⟨rest, mine, -⟩ := s.undrained.dropTracks_answerHeld n
  generalize (s.undrained.answerHeld n).dropTracks n = u at run rest mine
  have closed : u.tileState n = 5 := (State.obj_congr (by rw [rest]; rfl) _ _ _).trans state
  have drained : u.faults.closing = [] := by rw [rest]; rfl
  rw [State.closureRetires, if_pos ⟨closed, by rw [mine, State.undrained_tile]; simpa [Tile.givenUp] using free, by rw [mine]; exact cause⟩] at run
  obtain ⟨retired, ended⟩ := State.retireTile_retires small drained (u.tile n).cause
  exact ⟨_, run, retired, ended⟩

theorem execClosureDrainExpiry_answers {s : State} {n h : Nat} {p : Packet} (only : s.faults.closing = [(.tile n, h)]) (due : h ≤ s.elapsed)
    (merges : (s.tile n).merges = []) (held : (s.tile n).gau.held = [p]) (stays : s.tileState n ≠ 5 ∨ (s.tile n).owner ≠ none) :
    ∃ t x, exec (.closureDrainExpiry (.tile n)) s = .next t ∧ t.faults.closing = [] ∧ t.sent = .packet n true x :: s.sent ∧ x.status = stFenced ∧ x.tag = p.tag ∧
      t.tile n = (s.tile n).givenUp ∧ t = { s with faults := t.faults, tiles := t.tiles, sent := t.sent } ∧ ∀ m, m ≠ n → t.tile m = s.tile m := by
  have run := execClosureDrainExpiry_tile only due
  obtain ⟨rest, mine, others⟩ := s.undrained.dropTracks_answerHeld n
  have requests : (s.undrained.tile n).merges.flatMap (·.reqs) ++ (s.undrained.tile n).gau.held = [p] := by
    show (s.tile n).merges.flatMap (·.reqs) ++ (s.tile n).gau.held = [p]
    rw [merges, held]
    rfl
  rw [requests] at rest
  generalize (s.undrained.answerHeld n).dropTracks n = u at run rest mine others
  have regs : u.tileState n = s.tileState n := State.obj_congr (by rw [rest]; rfl) _ _ _
  rw [State.closureRetires, if_neg] at run
  · refine ⟨u, replyTo n p .status stFenced [], run, by rw [rest]; rfl, by rw [rest]; rfl, rfl, rfl, mine, ?_, others⟩
    have faults : u.faults = s.undrained.faults := by rw [rest]
    have sent : u.sent = _ := congrArg State.sent rest
    rw [faults, sent]
    exact rest
  · rintro ⟨closed, free, -⟩
    refine stays.elim (fun state => state (regs ▸ closed)) fun owner => owner ?_
    rw [mine, State.undrained_tile] at free
    simpa [Tile.givenUp] using free

/-- Settles O43: the record of a report by the entry its key finds, the rest by what each command writes. -/
theorem faultsAreCoalescedAndRecorded : Obligations.FaultsAreCoalescedAndRecorded := by
  refine ⟨fun s r e small free lower new => ?_, fun s r e x small here suspect cls first => ?_, fun s r x full here => ?_,
    fun s e empty => exec_levee_empty empty, fun s e x here => ⟨fun quiet => ?_, fun early => ?_, fun more later => ?_, fun quiet => ?_, fun notified late => ?_, fun early => ?_⟩,
    fun s m w d lo hi sound cells word => ?_, fun s closed => congrArg Host.Outcome.next (if_pos closed), fun s open' => execPoweredSecond_advances open',
    fun s sess code passed => execHistoryClear_clears passed, fun s d early => execClosureDrainExpiry_early early,
    fun s n h p _ only due merges held stays => ?_, fun s n h small only due _ _ state free cause => execClosureDrainExpiry_retires small only due state free cause,
    fun s h only due reset => execClosureDrainExpiry_device only due reset⟩
  · obtain ⟨t, m, d, run, record, sent, type, arg, cells, counted, others, log, kept⟩ := execLeveeReport_opens small free lower new
    exact ⟨t, _, m, d, run, record, rfl, rfl, rfl, rfl, rfl, rfl, rfl, rfl, rfl, rfl, rfl, rfl, rfl, rfl, sent, type, arg, cells, counted, others, log, kept⟩
  · obtain ⟨t, run, record, others, rest, kept, counted, storms⟩ := execLeveeReport_adds small here suspect cls first
    obtain ⟨peak, storm⟩ := x.add_keeps s.tide s.elapsed r.ownerClosed
    exact ⟨t, _, run, record, rfl, rfl, rfl, rfl, rfl, rfl, rfl, rfl, peak, storm, others, rest, kept, counted, storms⟩
  · obtain ⟨t, run, record, overflows, counted, others⟩ := execLeveeReport_overflows full here
    exact ⟨t, _, run, record, rfl, overflows, counted, others⟩
  · exact ⟨_, (execStormClear_eq here).trans (congrArg Host.Outcome.next (if_pos quiet)), State.levee_setLevee_same .., rfl, fun i other => State.levee_setLevee_other _ _ other⟩
  · exact (execStormClear_eq here).trans (congrArg Host.Outcome.next (if_neg early))
  · exact execLeveeNotice_notifies here more later
  · exact (execLeveeNotice_eq here).trans (congrArg Host.Outcome.next (if_neg (by omega)))
  · exact ⟨_, (execLeveeEntryFree_eq here).trans (congrArg Host.Outcome.next (if_pos ⟨notified, late⟩)), State.levee_setLevee_same .., rfl,
      fun i other => State.levee_setLevee_other _ _ other⟩
  · exact (execLeveeEntryFree_eq here).trans (congrArg Host.Outcome.next (if_neg (by omega)))
  · subst word
    obtain ⟨t, run, front, few, old, rest⟩ := execEventLevee_keeps (m := m) sound cells
    exact ⟨t, _, run, rfl, front, few, old, rest⟩
  · obtain ⟨t, x, run, ended, sent, status, tag, mine, rest, others⟩ := execClosureDrainExpiry_answers only due merges held stays
    exact ⟨t, x, run, ended, sent, status, tag, by rw [mine]; rfl, by rw [mine]; rfl, by rw [mine]; rfl, rest, others⟩

end Sys2Proof.Machine
end

section
/-! PROOF. A context is opened (11_contexts_and_kv.md R271, R272, R275). -/

namespace Sys2Proof.Machine

/-! ### Zero rows of HBM stay zero -/

/-- Every row of HBM that is zero in `s` is zero in `t`. -/
def State.keepsZeros (s t : State) : Prop := ∀ row, Tbl.get s.hbm 0 row = 0 → Tbl.get t.hbm 0 row = 0

namespace State.keepsZeros
variable {s t u : State}

theorem of_hbm (h : t.hbm = s.hbm) : s.keepsZeros t := fun row zero => by rw [h]; exact zero

theorem trans (h : s.keepsZeros t) (g : t.keepsZeros u) : s.keepsZeros u := fun row zero => g row (h row zero)

theorem entryOf (s : State) (slot page : Nat) : s.keepsZeros (s.entryOf slot page).1 := by
  unfold State.entryOf
  dsimp only
  split
  · exact of_hbm rfl
  · split
    · exact of_hbm rfl
    · have read := State.readsMemory.ringRead s (eDdr (s.ctx slot).mapEntry) (s.mapRow (s.ctx slot) page) (some (s.ctx slot).partition)
      split
      · next s1 d found =>
        rw [found] at read
        exact read.zeros
      · next s1 found =>
        rw [found] at read
        exact read.zeros

theorem pagesIn (s : State) (slot : Nat) (ddr : Bool) : s.keepsZeros (s.pagesIn slot ddr).1 :=
  List.foldlRecOn (motive := fun acc : State × List (Nat × Nat) => s.keepsZeros acc.1) _ _ (of_hbm rfl) fun acc kept page _ => kept.trans (entryOf acc.1 slot page)

theorem queueDemotion (s : State) (q slot cls : Nat) : s.keepsZeros (s.queueDemotion q slot cls) := by
  refine List.foldlRecOn (motive := s.keepsZeros) _ _ (pagesIn s slot false) fun t kept p _ => ?_
  dsimp only
  split
  · exact kept
  · exact kept.trans (of_hbm rfl)

theorem waterMarks (s : State) (q : Nat) : s.keepsZeros (s.waterMarks q) := by
  unfold State.waterMarks
  dsimp only
  split
  · refine List.foldlRecOn (motive := s.keepsZeros) _ _ (of_hbm rfl) fun t kept slot _ => ?_
    split
    · exact kept
    · exact kept.trans (queueDemotion _ _ _ _)
  · exact of_hbm rfl

theorem pagerRun (s : State) (q : Nat) : s.keepsZeros (s.pagerRun q) :=
  (waterMarks s q).trans (State.pagesBeside.pumpPages (p := 12) 65 _ (by omega)).zeros

theorem zeroPage (s : State) (q : Nat) (ddr : Bool) (i : Nat) : s.keepsZeros (s.zeroPage q ddr i) := by
  obtain ⟨t, reads, zeroed⟩ := s.zeroPage_eq q ddr i
  rw [zeroed]
  exact trans reads.zeros (of_hbm rfl)

end State.keepsZeros

/-! ### OPEN (R271, R272) -/

/-- The descriptor of a slot that is opened, with the pages of its map and of its commit words. -/
def CtxOpen.opened (o : CtxOpen) (c : Ctx) (map commit now : Nat) : Ctx :=
  { c with st := .idle, epoch := (c.epoch + 1) % 2 ^ 32, seed := o.seed, tenant := o.tenant, partition := o.partition, position := 0, priority := 0x80,
           pages := 0, mapEntry := pageEntry false map, commitEntry := pageEntry false commit, opens := none, damaged := false, pinned := false, used := now }

theorem State.pageAddr_setFreeList (s : State) (q : Nat) (ddr : Bool) (f : FreeList) (i : Nat) : (s.setFreeList q ddr f).pageAddr q false i = s.pageAddr q false i := by
  simp only [State.pageAddr, State.setFreeList, State.pool_modPool_same]
  cases ddr <;> rfl

/-- The state in which a slot is opened: its first page zeroed, its second where it carries another tenant's tag. -/
theorem State.openCtx_opens {s : State} {slot q : Nat} {o : CtxOpen} (number : q = o.partition) (spans : s.spans = []) (front : (s.pool q).hbm.front = [])
    (back : (s.pool q).hbm.back = []) (two : (s.pool q).hbm.next + 2 ≤ (s.pool q).hbm.size) :
    ∃ (t : State) (now : Nat), s.openCtx slot o = some t ∧ t.ctx slot = o.opened (s.ctx slot) (s.pool q).hbm.next ((s.pool q).hbm.next + 1) now ∧
      ∀ r, r < 2048 → Tbl.get t.hbm 0 (s.pageAddr q false (s.pool q).hbm.next / 32 + r) = 0 := by
  subst number
  have room : s.makeRoom o.partition 2 (some slot) = s := State.makeRoom_of_free (by rw [State.freePages_of_ahead spans front back]; omega) _
  obtain ⟨u, taken⟩ : ∃ u, u = s.setFreeList o.partition false { (s.pool o.partition).hbm with next := (s.pool o.partition).hbm.next + 1 } := ⟨_, rfl⟩
  have pool : (u.pool o.partition).hbm = { (s.pool o.partition).hbm with next := (s.pool o.partition).hbm.next + 1 } := by
    simp [taken, State.setFreeList]
  have second := State.newPage_of_ahead (s := u) (q := o.partition) (by rw [taken]; exact spans) (by rw [pool]; exact front) (by rw [pool]; dsimp only; omega)
  rw [State.openCtx, room, State.newPage_of_ahead spans front (by omega), ← taken]
  dsimp only
  rw [second]
  dsimp only
  obtain ⟨w, stocked⟩ : ∃ w, w = u.setFreeList o.partition false { (u.pool o.partition).hbm with next := (u.pool o.partition).hbm.next + 1 } := ⟨_, rfl⟩
  rw [← stocked, pool]
  dsimp only
  have same : w.ctxs = s.ctxs := by rw [stocked, taken]; rfl
  have place : w.pageAddr o.partition false (s.pool o.partition).hbm.next = s.pageAddr o.partition false (s.pool o.partition).hbm.next := by
    rw [stocked, State.pageAddr_setFreeList, taken, State.pageAddr_setFreeList]
  obtain ⟨x, zeroed⟩ : ∃ x, x = w.zeroPage o.partition false (s.pool o.partition).hbm.next := ⟨_, rfl⟩
  have map : ∀ r, r < 2048 → Tbl.get x.hbm 0 (s.pageAddr o.partition false (s.pool o.partition).hbm.next / 32 + r) = 0 := fun r small => by
    rw [zeroed, ← place]
    exact State.hbm_zeroPage _ _ _ small
  have ctxs : x.ctxs = s.ctxs := by rw [zeroed, State.ctxs_zeroPage, same]
  rw [← zeroed]
  obtain ⟨y, filled, kept, still⟩ : ∃ y, y = (if (s.pool o.partition).hbm.tag = 0 ∨ (s.pool o.partition).hbm.tag = o.tenant then x
      else x.zeroPage o.partition false ((s.pool o.partition).hbm.next + 1)) ∧ x.keepsZeros y ∧ y.ctxs = x.ctxs := by
    refine ⟨_, rfl, ?_, ?_⟩ <;> split
    · exact .of_hbm rfl
    · exact .zeroPage _ _ _ _
    · rfl
    · exact State.ctxs_zeroPage ..
  rw [← filled]
  have descriptor : y.ctx slot = s.ctx slot := State.ctx_congr (still.trans ctxs) slot
  rw [descriptor]
  refine ⟨_, y.elapsed, rfl, ?_, fun r small => ?_⟩
  · rw [(State.onlyDamage.pagerRun _ _).ctx_of_empty (by rw [State.ctx_setCtx_same]), State.ctx_setCtx_same]
    rfl
  · exact State.keepsZeros.pagerRun _ _ _ (kept _ (map r small))

theorem ruleCtxOpen_opens {s : State} {v slot q : Nat} (fields : ctxFieldsOk v 1 = true) (named : slot = ctxSlot v) (number : q = fieldOf v 132 4) (small : q ≤ 11)
    (applied : (s.pool q).applied = true) (free : (s.ctx slot).st = .free) (spans : s.spans = []) (front : (s.pool q).hbm.front = [])
    (back : (s.pool q).hbm.back = []) (two : (s.pool q).hbm.next + 2 ≤ (s.pool q).hbm.size) :
    ∃ (t : State) (now : Nat), ruleCtxOpen v s = (t, stOk) ∧
      t.ctx slot = CtxOpen.opened { seed := fieldOf v 192 64, tenant := fieldOf v 160 32, partition := q } (s.ctx slot) (s.pool q).hbm.next ((s.pool q).hbm.next + 1) now ∧
      ∀ r, r < 2048 → Tbl.get t.hbm 0 (s.pageAddr q false (s.pool q).hbm.next / 32 + r) = 0 := by
  subst named number
  obtain ⟨t, now, opened, ctx, zeros⟩ := State.openCtx_opens (s := s.lookup (ctxSlot v)) (slot := ctxSlot v)
    (o := { seed := fieldOf v 192 64, tenant := fieldOf v 160 32, partition := fieldOf v 132 4 }) rfl spans front back two
  refine ⟨t, now, ?_, ctx, zeros⟩
  have found : (s.lookup (ctxSlot v)).ctx (ctxSlot v) = s.ctx (ctxSlot v) := rfl
  rw [ruleCtxOpen, if_neg (by simp [fields, applied]; omega)]
  simp only [found, free, opened]

end Sys2Proof.Machine
end

section
/-! PROOF. The requests of clients: malformed ones, and what each well-formed one does (15_reeve_die_and_service.md R366, R369-R376). -/

namespace Sys2Proof.Machine

/-! ### Answers (R371, R373) -/

theorem State.final_answered (s : State) (c : Client) (reqId st : Nat) (more : CborMap) : s.answered (s.final c reqId st more) c reqId st more := by
  refine ⟨State.final_sent .., ?_, rfl, State.final_sameRegs _ _ _ _ _⟩
  exact (State.obj_count_same ..).trans rfl

theorem State.refuseReq_answered (s : State) (r : Request) (st : Nat) : ∃ t, s.refuseReq r st = .next t ∧ s.answered t r.client (reqIdOf r) st [] :=
  ⟨_, rfl, s.final_answered ..⟩

theorem State.refused_of_eq {s : State} {r : Request} {st : Nat} {o : Out} (h : o = s.refuseReq r st) : ∃ t, o = .next t ∧ s.answered t r.client (reqIdOf r) st [] :=
  h ▸ s.refuseReq_answered r st

theorem exec_malformedRequest {s : State} {r : Request} {i : Instr} {op : Nat} {need may : List Nat}
    (which : i = .reqOpenContext r ∧ op = 1 ∧ need = [2] ∧ may = [9, 10] ∨ i = .reqAppend r ∧ op = 2 ∧ need = [3, 4] ∧ may = [] ∨ i = .reqGenerate r ∧ op = 3 ∧ need = [3, 5] ∧ may = [4, 6, 7, 8] ∨
       i = .reqCancel r ∧ op = 4 ∧ need = [3] ∧ may = [] ∨ i = .reqCloseContext r ∧ op = 5 ∧ need = [3] ∧ may = [] ∨ i = .reqSubmitFrame r ∧ op = 6 ∧ need = [2, 11, 12] ∧ may = [] ∨
       i = .reqStatus r ∧ op = 7 ∧ need = [] ∧ may = [2, 3]) (malformed : s.requestMap r op need may = none) :
    ∃ t, exec i s = .next t ∧ s.answered t r.client (reqIdOf r) stBadValue [] := by
  apply State.refused_of_eq
  rcases which with ⟨rfl, rfl, rfl, rfl⟩ | ⟨rfl, rfl, rfl, rfl⟩ | ⟨rfl, rfl, rfl, rfl⟩ | ⟨rfl, rfl, rfl, rfl⟩ | ⟨rfl, rfl, rfl, rfl⟩ | ⟨rfl, rfl, rfl, rfl⟩ | ⟨rfl, rfl, rfl, rfl⟩
  · show execReqOpenContext r s = _; rw [execReqOpenContext, malformed]
  · show execReqAppend r s = _; rw [execReqAppend, malformed]
  · show execReqGenerate r s = _; rw [execReqGenerate, malformed]
  · show execReqCancel r s = _; rw [execReqCancel, malformed]
  · show execReqCloseContext r s = _; rw [execReqCloseContext, malformed]
  · show execReqSubmitFrame r s = _; rw [execReqSubmitFrame, malformed]
  · show execReqStatus r s = _; rw [execReqStatus, malformed]

/-! ### OPEN_CONTEXT (R372, R375) -/

theorem uintOr_lt {m : CborMap} {k d bound v : Nat} (h : uintOr m k d bound = some v) (default : d < bound) : v < bound := by
  unfold uintOr at h
  split at h
  · exact Option.some.inj h ▸ default
  · split at h
    · next below => exact Option.some.inj h ▸ below
    · exact absurd h (by simp)
  · exact absurd h (by simp)

/-- The context_op word of OPEN, by its fields. -/
theorem ctxWord_open_fields {slot seed tenant q : Nat} (small : slot < 2 ^ 18) (short : seed < 2 ^ 64) (narrow : tenant < 2 ^ 32) (part : q < 2 ^ 4) :
    ctxFieldsOk (ctxWord 1 slot seed tenant q) 1 = true ∧ ctxSlot (ctxWord 1 slot seed tenant q) = slot ∧ fieldOf (ctxWord 1 slot seed tenant q) 132 4 = q ∧
      fieldOf (ctxWord 1 slot seed tenant q) 192 64 = seed ∧ fieldOf (ctxWord 1 slot seed tenant q) 160 32 = tenant := by
  simp only [ctxFieldsOk, ctxSlot, ctxWord, fieldOf, Bool.and_eq_true, beq_iff_eq, beq_self_eq_true, Bool.true_or, if_true, and_true]
  omega

theorem ctxWord_priority_fields {slot prio : Nat} (small : slot < 2 ^ 18) (byte : prio < 256) :
    ctxFieldsOk (ctxWord 4 slot prio 0 0) 4 = true ∧ ctxSlot (ctxWord 4 slot prio 0 0) = slot ∧ fieldOf (ctxWord 4 slot prio 0 0) 192 8 = prio := by
  simp only [ctxFieldsOk, ctxSlot, ctxWord, fieldOf, Bool.and_eq_true, Bool.or_eq_true, beq_iff_eq, if_neg (show ¬ 4 = 1 by decide), if_neg (show ¬ 4 = 3 by decide), if_true]
  omega

/-- The slot chosen is one of the 262,144, and only the counter of free values has moved. -/
theorem State.pickSlot_some {s : State} {slot : Nat} (h : s.pickSlot.2 = some slot) : s.pickSlot = ({ s with fresh := s.fresh + 1 }, some slot) ∧ slot < 2 ^ 18 := by
  unfold State.pickSlot at h ⊢
  dsimp only at h ⊢
  split_ifs at h ⊢ with drawn lowest
  · obtain rfl := Option.some.inj h
    exact ⟨rfl, drawn.1⟩
  · obtain rfl := Option.some.inj h
    exact ⟨rfl, lowest⟩

theorem ruleCtxSetPriority_of_idle {s : State} {slot prio : Nat} (small : slot < 2 ^ 18) (byte : prio < 256) (idle : (s.ctx slot).st = .idle) :
    (ruleCtxSetPriority (ctxWord 4 slot prio 0 0) s).1 = (s.lookup slot).setCtx slot { s.ctx slot with priority := prio } := by
  obtain ⟨fields, named, value⟩ := ctxWord_priority_fields small byte
  rw [ruleCtxSetPriority, ruleUsable_of_usable fields (by rw [named]; exact .inl idle), named, value]

section Open
variable {s : State} {r : Request} {m : CborMap} {n seed prio e : Nat} (formed : s.requestMap r 1 [2] [9, 10] = some m) (service : uintOr m 2 16 16 = some n)
  (small : n < 16) (seeded : uintOr m 9 0 (2 ^ 64) = some seed) (ranked : uintOr m 10 128 256 = some prio) (answers : s.answers n = true)
  (tenant : s.tenantOf r.client = some e)
include formed service small seeded ranked answers tenant

theorem execReqOpenContext_of_limit (full : teMax e ≤ s.openOf (teTenant e)) :
    ∃ t, exec (.reqOpenContext r) s = .next t ∧ s.answered t r.client (reqIdOf r) stRefused [] := by
  apply State.refused_of_eq
  show execReqOpenContext r s = _
  simp only [execReqOpenContext, formed, service, seeded, ranked, answers, tenant, Bool.not_true, Bool.false_eq_true, if_false, ge_iff_le, if_neg (Nat.not_le.2 small), full, if_true]

theorem execReqOpenContext_opens {slot q : Nat} (room : s.openOf (teTenant e) < teMax e) (picked : s.pickSlot.2 = some slot) (free : (s.ctx slot).st = .free)
    (part : q = s.svcPart n) (few : q ≤ 11) (applied : (s.pool q).applied = true) (front : (s.pool q).hbm.front = []) (back : (s.pool q).hbm.back = [])
    (two : (s.pool q).hbm.next + 2 ≤ (s.pool q).hbm.size) (spans : s.spans = []) :
    ∃ t now rest, exec (.reqOpenContext r) s = .next t ∧ t.ctx slot = { (CtxOpen.opened { seed := seed, tenant := teTenant e, partition := q } (s.ctx slot) (s.pool q).hbm.next
        ((s.pool q).hbm.next + 1) now) with priority := prio } ∧ Tbl.get t.lens 0 slot = 0 ∧
      t.sent = .response r.client [(0, .uint 0), (1, .uint (reqIdOf r)), (2, .uint stOk), (3, .uint (2 ^ 18 * (t.ctx slot).epoch + slot))] :: rest := by
  obtain ⟨picks, low⟩ := State.pickSlot_some picked
  subst part
  obtain ⟨fields, named, number, seedField, tenantField⟩ := ctxWord_open_fields (seed := seed) (tenant := teTenant e) (q := s.svcPart n) low (uintOr_lt seeded (by decide))
    (fieldOf_lt ..) (by omega)
  obtain ⟨u, now, opened, ctx, -⟩ := ruleCtxOpen_opens (s := { s with fresh := s.fresh + 1 }) fields named.symm number.symm few applied free spans front back two
  rw [seedField, tenantField] at ctx
  have idle : (u.ctx slot).st = .idle := by rw [ctx]; rfl
  have ranks := ruleCtxSetPriority_of_idle low (uintOr_lt ranked (by decide)) idle
  obtain ⟨w, ranked'⟩ : ∃ w, w = (u.lookup slot).setCtx slot { u.ctx slot with priority := prio } := ⟨_, rfl⟩
  rw [← ranked'] at ranks
  have run : exec (.reqOpenContext r) s = .next ({ w with lens := Tbl.put w.lens 0 slot 0 }.final r.client (reqIdOf r) stOk
      [(3, .uint (2 ^ 18 * (w.ctx slot).epoch + slot))]) := by
    show execReqOpenContext r s = _
    simp only [execReqOpenContext, formed, service, seeded, ranked, answers, tenant, Bool.not_true, Bool.false_eq_true, if_false, ge_iff_le, if_neg (Nat.not_le.2 small),
      if_neg (Nat.not_le.2 room), picks, opened, ne_eq, not_true_eq_false, ranks]
  refine ⟨_, now, _, run, ?_, ?_, State.final_sent ..⟩
  · have descriptor : w.ctx slot = { u.ctx slot with priority := prio } := by rw [ranked', State.ctx_setCtx_same]
    exact descriptor.trans (by rw [ctx]; rfl)
  · rw [State.final_lens]
    exact Tbl.get_put_same w.lens (0 : Nat) slot 0

end Open

/-! ### A request in progress on a slot (R374) -/

/-- A change of the requests of one number that keeps their slots changes the request found on a slot, and finds it where it was. -/
theorem State.reqOn_modReq (s : State) (n seq slot : Nat) {f : SvcReq → SvcReq} (keeps : ∀ x, (f x).slot = x.slot) :
    (s.modReq n seq f).reqOn slot = (s.reqOn slot).map (fun e => if e.1 = n ∧ e.2.seq = seq then (e.1, f e.2) else e) := by
  set g : Nat × SvcReq → Nat × SvcReq := fun e => if e.1 = n ∧ e.2.seq = seq then (e.1, f e.2) else e with changes
  have slots : ∀ e, ((g e).2.slot == slot) = (e.2.slot == slot) := fun e => by
    rw [changes]
    dsimp only
    split
    · rw [keeps]
    · rfl
  have lists : ∀ k, (((s.modReq n seq f).svc k).waiting ++ ((s.modReq n seq f).svc k).active).map (fun r => (k, r)) =
      (((s.svc k).waiting ++ (s.svc k).active).map (fun r => (k, r))).map g := fun k => by
    rw [List.map_map]
    by_cases same : k = n
    · subst same
      rw [State.modReq, State.svc_modSvc_same]
      dsimp only
      rw [← List.map_append, List.map_map]
      refine List.map_congr_left fun x _ => ?_
      simp only [changes, Function.comp, true_and]
      split <;> rfl
    · rw [State.modReq, State.svc_modSvc_ne _ _ same]
      refine List.map_congr_left fun x _ => ?_
      simp [changes, same]
  rw [State.reqOn, State.reqOn, List.flatMap_congr fun k _ => lists k, ← List.map_flatMap, List.find?_map]
  refine congrArg (Option.map g) (List.find?_congr fun e _ => slots e)

/-! ### APPEND and GENERATE (R374, R375) -/

theorem State.queueReq_of_full {s : State} {n : Nat} {x : SvcReq} (full : s.svcVal n 9 ≤ (s.svc n).waiting.length) :
    s.queueReq n x = (s.count 0x9000 8 0 32).final x.client x.reqId stBusy := if_pos full

theorem State.queueReq_of_room {s : State} {n : Nat} {x : SvcReq} (room : (s.svc n).waiting.length < s.svcVal n 9) :
    s.queueReq n x = { s.modSvc n (fun v => { v with waiting := v.waiting ++ [{ x with seq := s.svcSeq }] }) with svcSeq := s.svcSeq + 1 } := if_neg (Nat.not_le.2 room)

/-- A queue that is full answers BUSY and counts it. -/
theorem State.queueReq_busy {s : State} {n : Nat} {x : SvcReq} (full : s.svcVal n 9 ≤ (s.svc n).waiting.length) :
    (s.queueReq n x).sent = .response x.client [(0, .uint 0), (1, .uint x.reqId), (2, .uint stBusy)] :: s.sent ∧
      s.queueReq n x = { s with regs := (s.queueReq n x).regs, sent := (s.queueReq n x).sent } ∧ s.sameRegs (s.queueReq n x) [okey 0x9000 7 0, okey 0x9000 8 0] := by
  rw [State.queueReq_of_full full]
  refine ⟨State.final_sent .., rfl, ?_⟩
  exact State.sameRegs_trans (State.sameRegs_count _ _ _ _ _ (s.sameRegs_refl _) (by simp)) (State.sameRegs_mono (State.final_sameRegs _ _ _ _ _) (by simp))

/-- A queue with room takes the request behind the others, with the next number. -/
theorem State.queueReq_queues {s : State} {n : Nat} {x : SvcReq} (room : (s.svc n).waiting.length < s.svcVal n 9) :
    s.queueReq n x = { s with svcs := (s.queueReq n x).svcs, svcSeq := s.svcSeq + 1 } ∧ (∀ k, k ≠ n → (s.queueReq n x).svc k = s.svc k) ∧
      (s.queueReq n x).svc n = { s.svc n with waiting := (s.svc n).waiting ++ [{ x with seq := s.svcSeq }] } := by
  have services : ∀ k, (s.queueReq n x).svc k = (s.modSvc n (fun v => { v with waiting := v.waiting ++ [{ x with seq := s.svcSeq }] })).svc k := fun k => by
    rw [State.queueReq_of_room room]
    rfl
  refine ⟨?_, fun k other => (services k).trans (State.svc_modSvc_ne _ _ other), (services n).trans (State.svc_modSvc_same ..)⟩
  rw [State.queueReq_of_room room]
  rfl

section Append
variable {s : State} {r : Request} {m : CborMap} {v slot n tenant : Nat} {ts : List Nat} (formed : s.requestMap r 2 [3, 4] [] = some m) (handle : uintOf m 3 = some v)
  (tokens : arrayOr m 4 1 65536 (2 ^ 32 - 1) = some ts) (found : s.ctxFor r v = .ok (slot, n, tenant))
include formed handle tokens found

theorem execReqAppend_eq : exec (.reqAppend r) s = if (s.reqOn slot).isSome then s.refuseReq r stBusy
    else if Tbl.get s.lens 0 slot + ts.length > s.svcVal n 8 then s.refuseReq r stBadValue
    else .next (s.queueReq n { client := r.client, reqId := reqIdOf r, gen := false, slot := slot, tenant := tenant, tokens := ts, seq := 0 }) := by
  show execReqAppend r s = _
  simp only [execReqAppend, formed, handle, tokens, found]

theorem execReqAppend_of_busy (busy : (s.reqOn slot).isSome = true) : ∃ t, exec (.reqAppend r) s = .next t ∧ s.answered t r.client (reqIdOf r) stBusy [] :=
  State.refused_of_eq ((execReqAppend_eq formed handle tokens found).trans (if_pos busy))

theorem execReqAppend_of_long (free : s.reqOn slot = none) (long : s.svcVal n 8 < Tbl.get s.lens 0 slot + ts.length) :
    ∃ t, exec (.reqAppend r) s = .next t ∧ s.answered t r.client (reqIdOf r) stBadValue [] :=
  State.refused_of_eq ((execReqAppend_eq formed handle tokens found).trans ((if_neg (by simp [free])).trans (if_pos long)))

theorem execReqAppend_of_fit (free : s.reqOn slot = none) (fits : Tbl.get s.lens 0 slot + ts.length ≤ s.svcVal n 8) :
    exec (.reqAppend r) s = .next (s.queueReq n { client := r.client, reqId := reqIdOf r, gen := false, slot := slot, tenant := tenant, tokens := ts, seq := 0 }) :=
  (execReqAppend_eq formed handle tokens found).trans ((if_neg (by simp [free])).trans (if_neg (Nat.not_lt.2 fits)))

end Append

section Generate
variable {s : State} {r : Request} {m : CborMap} {v k temp topP : Nat} {ts stop : List Nat} (formed : s.requestMap r 3 [3, 5] [4, 6, 7, 8] = some m) (handle : uintOf m 3 = some v)
  (many : uintOf m 5 = some k) (tokens : arrayOr m 4 1 65536 (2 ^ 32 - 1) = some ts) (warm : floatOr m 6 0x3F800000 0 0x40000000 = some temp)
  (nucleus : floatOr m 7 0x3F800000 1 0x3F800000 = some topP) (stops : arrayOr m 8 0 4 (2 ^ 32) = some stop)
include formed handle many tokens warm nucleus stops

theorem execReqGenerate_of_range (bad : k = 0 ∨ 16383 < k) : ∃ t, exec (.reqGenerate r) s = .next t ∧ s.answered t r.client (reqIdOf r) stBadValue [] := by
  apply State.refused_of_eq
  show execReqGenerate r s = _
  simp only [execReqGenerate, formed, handle, many, tokens, warm, nucleus, stops]
  exact if_pos bad

theorem execReqGenerate_of_free {slot n tenant : Nat} (some' : 1 ≤ k) (few : k ≤ 16383) (found : s.ctxFor r v = .ok (slot, n, tenant)) (free : s.reqOn slot = none) :
    exec (.reqGenerate r) s = .next (s.queueReq n
      { client := r.client, reqId := reqIdOf r, gen := true, slot := slot, tenant := tenant, tokens := ts, sample := !ts.isEmpty, temp := temp, topP := topP, stop := stop, left := k, seq := 0 }) := by
  show execReqGenerate r s = _
  simp only [execReqGenerate, formed, handle, many, tokens, warm, nucleus, stops, found, free]
  exact (if_neg (by omega)).trans (if_neg (by simp))

end Generate

/-! ### CANCEL and CLOSE_CONTEXT (R372, R374) -/

theorem State.ctxFor_ok_slot {s : State} {r : Request} {v slot n tenant : Nat} (h : s.ctxFor r v = .ok (slot, n, tenant)) : slot = v % 2 ^ 18 := by
  unfold State.ctxFor at h
  dsimp only at h
  split at h
  · simp at h
  · simp at h
  · split_ifs at h
    exact (Prod.mk.inj (Except.ok.inj h)).1.symm

section Named
variable {s : State} {r : Request} {v n e : Nat} (service : s.svcOf (s.ctx (v % 2 ^ 18)).partition = some n) (answers : s.answers n = true)
  (tenant : s.tenantOf r.client = some e) (held : (s.ctx (v % 2 ^ 18)).st ≠ .free)
include service answers tenant held

theorem State.ctxFor_of_foreign (foreign : (s.ctx (v % 2 ^ 18)).tenant ≠ teTenant e) : s.ctxFor r v = .error stAccessDenied := by
  simp only [State.ctxFor, service, answers, tenant, Bool.not_true, Bool.false_eq_true, if_false]
  exact if_pos ⟨held, foreign⟩

omit held in
theorem State.ctxFor_of_stale (own : (s.ctx (v % 2 ^ 18)).tenant = teTenant e) (stale : (s.ctx (v % 2 ^ 18)).epoch ≠ v / 2 ^ 18) : s.ctxFor r v = .error stBadValue := by
  simp only [State.ctxFor, service, answers, tenant, Bool.not_true, Bool.false_eq_true, if_false]
  exact (if_neg fun foreign => foreign.2 own).trans (if_pos (.inl stale))

end Named

theorem exec_cancelOrClose_of_error {s : State} {r : Request} {m : CborMap} {v st : Nat} {i : Instr}
    (which : i = .reqCancel r ∧ s.requestMap r 4 [3] [] = some m ∨ i = .reqCloseContext r ∧ s.requestMap r 5 [3] [] = some m) (handle : uintOf m 3 = some v)
    (error : s.ctxFor r v = .error st) : ∃ t, exec i s = .next t ∧ s.answered t r.client (reqIdOf r) st [] := by
  apply State.refused_of_eq
  rcases which with ⟨rfl, formed⟩ | ⟨rfl, formed⟩
  · show execReqCancel r s = _
    simp only [execReqCancel, formed, handle, error]
  · show execReqCloseContext r s = _
    simp only [execReqCloseContext, formed, handle, error]

section Cancel
variable {s : State} {r : Request} {m : CborMap} {v slot n tenant : Nat} (handle : uintOf m 3 = some v) (found : s.ctxFor r v = .ok (slot, n, tenant))
include handle found

theorem execReqCancel_of_free (formed : s.requestMap r 4 [3] [] = some m) (free : s.reqOn slot = none) :
    ∃ t, exec (.reqCancel r) s = .next t ∧ s.answered t r.client (reqIdOf r) stOk [] := by
  refine ⟨_, ?_, s.final_answered ..⟩
  show execReqCancel r s = _
  simp only [execReqCancel, formed, handle, found, free]

/-- A request that is to leave for a reason, and whom its end is to be told. -/
def cancelled (r : Request) (y : SvcReq) : SvcReq := { y with leave := some (y.leave.getD 3), askers := y.askers ++ [(r.client, reqIdOf r, false)] }

theorem execReqCancel_ends {k : Nat} {x : SvcReq} (formed : s.requestMap r 4 [3] [] = some m) (on : s.reqOn slot = some (k, x)) (waits : (s.svc k).waiting = [x])
    (idle : (s.svc k).active = []) (unsealed : x.lastKey = none) (stays : x.leave = none) (present : x.lost = false) (alone : x.askers = []) :
    ∃ t, exec (.reqCancel r) s = .next t ∧ (t.svc k).waiting = [] ∧
      t.sent = .response r.client [(0, .uint 0), (1, .uint (reqIdOf r)), (2, .uint stOk)] :: .response x.client ([(0, .uint 0), (1, .uint x.reqId), (2, .uint stOk)] ++ s.endKeys x 3) :: s.sent := by
  have same : x.slot = slot := by simpa using List.find?_some on
  set u := s.modReq k x.seq (cancelled r) with marked
  have there : u.reqOn x.slot = some (k, cancelled r x) := by
    rw [marked, State.reqOn_modReq (f := cancelled r) _ _ _ _ fun _ => rfl, same, on]
    simp
  have list : u.svc k = { s.svc k with waiting := [cancelled r x], active := [] } := by
    rw [marked, State.modReq, State.svc_modSvc_same, waits, idle]
    simp
  have leaves : s.cancelReq k x r false = u.endReq k (cancelled r x) stOk (u.endKeys (cancelled r x) 3) := by
    show u.leaveReq k x = _
    simp only [State.leaveReq, there, show (cancelled r x).lastKey = none from unsealed, show (cancelled r x).leave = some 3 by simp [cancelled, stays], Option.elim_none,
      Bool.false_eq_true, if_false, Option.getD_some]
  have ended : u.endReq k (cancelled r x) stOk (u.endKeys (cancelled r x) 3) =
      ((u.unlisted k (cancelled r x)).final x.client x.reqId stOk (u.endKeys (cancelled r x) 3)).final r.client (reqIdOf r) stOk := by
    simp only [State.endReq, show (cancelled r x).lost = false from present, show (cancelled r x).askers = [(r.client, reqIdOf r, false)] by simp [cancelled, alone], State.each,
      List.foldl_cons, List.foldl_nil, Bool.false_eq_true, if_false]
    rfl
  have run : exec (.reqCancel r) s = .next (s.cancelReq k x r false) := by
    show execReqCancel r s = _
    simp only [execReqCancel, formed, handle, found, on]
  refine ⟨_, run, ?_, ?_⟩
  · rw [leaves, ended, State.svc_congr (State.final_svcs ..), State.svc_congr (State.final_svcs ..),
      State.svc_unlisted_of_single u k (cancelled r x) (by rw [list]) rfl (by rw [list])]
  · rw [leaves, ended, State.final_sent, State.final_sent, State.unlisted_sent]
    rfl

theorem execReqCloseContext_releases (formed : s.requestMap r 5 [3] [] = some m) (free : s.reqOn slot = none) (idle : (s.ctx slot).st = .idle) :
    ∃ t rest, exec (.reqCloseContext r) s = .next t ∧ t.ctx slot = { s.ctx slot with st := .releasing } ∧
      t.sent = .response r.client [(0, .uint 0), (1, .uint (reqIdOf r)), (2, .uint stOk), (6, .uint 4)] :: rest := by
  have small : slot < 262144 := by rw [State.ctxFor_ok_slot found]; omega
  set u := ((s.lookup slot).dropMoves (s.ctx slot).partition slot).setCtx slot { s.ctx slot with st := .releasing } with released
  have closes : ruleCtxClose (ctxWord 2 slot 0 0 0) s = (u, stOk) := by
    have there : (s.lookup slot).ctx slot = s.ctx slot := rfl
    simp [ruleCtxClose, ruleCtx, ctxFieldsOk_ctxWord_close small, ctxSlot_ctxWord_close small, there, idle, released]
  have run : exec (.reqCloseContext r) s = .next (u.final r.client (reqIdOf r) stOk [(6, .uint 4)]) := by
    show execReqCloseContext r s = _
    simp only [execReqCloseContext, formed, handle, found, free]
    rw [State.closeFor, closes]
    rfl
  exact ⟨_, u.sent, run, (State.ctx_congr (State.final_ctxs ..) slot).trans (State.ctx_setCtx_same ..), State.final_sent ..⟩

end Cancel

/-! ### SUBMIT_FRAME (R376) -/

theorem State.each_nil {α : Type} (s : State) (f : State → α → State) : s.each [] f = s := rfl

section Frame
variable {s : State} {r : Request} {m : CborMap} {n k : Nat} {b : List Byte} (formed : s.requestMap r 6 [2, 11, 12] [] = some m) (service : uintOr m 2 16 16 = some n) (small : n < 16)
  (stream : uintOr m 11 512 512 = some k) (few : k < 512) (bytes : keyOf m 12 = some (.bytes b))
include formed service small stream few bytes

theorem execReqSubmitFrame_eq : exec (.reqSubmitFrame r) s = if !s.answers n then s.refuseReq r stNotReady
    else if s.svcVal n 1 ≠ 2 ∨ b.length ≠ s.svcVal n 0xC then s.refuseReq r stBadValue
    else .next ((s.each ((s.svc n).frames.filter (fun f => f.stream == k && f.tick.isNone)) (fun u f => u.final f.client f.reqId stRefused [(6, .uint 17)])).modSvc n
      (fun v => { v with frames := v.frames.filter (fun f => !(f.stream == k && f.tick.isNone)) ++ [{ stream := k, client := r.client, reqId := reqIdOf r, bytes := b }] })) := by
  show execReqSubmitFrame r s = _
  simp only [execReqSubmitFrame, formed, service, stream, bytes]
  exact if_neg (by omega)

theorem execReqSubmitFrame_of_deaf (deaf : s.answers n = false) : ∃ t, exec (.reqSubmitFrame r) s = .next t ∧ s.answered t r.client (reqIdOf r) stNotReady [] :=
  State.refused_of_eq ((execReqSubmitFrame_eq formed service small stream few bytes).trans (if_pos (by simp [deaf])))

variable (answers : s.answers n = true) (vision : s.svcVal n 1 = 2) (length : b.length = s.svcVal n 0xC)
include answers vision length

theorem execReqSubmitFrame_takes : exec (.reqSubmitFrame r) s = .next ((s.each ((s.svc n).frames.filter (fun f => f.stream == k && f.tick.isNone))
    (fun u f => u.final f.client f.reqId stRefused [(6, .uint 17)])).modSvc n (fun v => { v with frames := v.frames.filter (fun f => !(f.stream == k && f.tick.isNone)) ++
      [{ stream := k, client := r.client, reqId := reqIdOf r, bytes := b }] })) :=
  (execReqSubmitFrame_eq formed service small stream few bytes).trans ((if_neg (by simp [answers])).trans (if_neg (by simp [vision, length])))

theorem execReqSubmitFrame_waits (new : ∀ f, f ∈ (s.svc n).frames → f.stream ≠ k) :
    ∃ t, exec (.reqSubmitFrame r) s = .next t ∧ t = { s with svcs := t.svcs } ∧
      t.svc n = { s.svc n with frames := (s.svc n).frames ++ [{ stream := k, client := r.client, reqId := reqIdOf r, bytes := b }] } := by
  have none' : (s.svc n).frames.filter (fun f => f.stream == k && f.tick.isNone) = [] := List.filter_eq_nil_iff.2 fun f mem => by simp [new f mem]
  have all : (s.svc n).frames.filter (fun f => !(f.stream == k && f.tick.isNone)) = (s.svc n).frames := List.filter_eq_self.2 fun f mem => by simp [new f mem]
  have run := execReqSubmitFrame_takes formed service small stream few bytes answers vision length
  rw [none', State.each_nil] at run
  exact ⟨_, run, rfl, by rw [State.svc_modSvc_same, all]⟩

theorem execReqSubmitFrame_supersedes {f : SvcFrame} (waits : (s.svc n).frames = [f]) (same : f.stream = k) (unplaced : f.tick = none) :
    ∃ t, exec (.reqSubmitFrame r) s = .next t ∧ t.sent = .response f.client [(0, .uint 0), (1, .uint f.reqId), (2, .uint stRefused), (6, .uint 17)] :: s.sent ∧
      (t.svc n).frames = [{ stream := k, client := r.client, reqId := reqIdOf r, bytes := b }] := by
  have run := execReqSubmitFrame_takes formed service small stream few bytes answers vision length
  have old : (s.svc n).frames.filter (fun f => f.stream == k && f.tick.isNone) = [f] := by rw [waits]; simp [same, unplaced]
  rw [old, State.each_cons, State.each_nil] at run
  refine ⟨_, run, State.final_sent .., ?_⟩
  rw [State.svc_modSvc_same, State.svc_congr (State.final_svcs ..), waits]
  simp [same, unplaced]

end Frame

/-! ### STATUS (R370) -/

section Status
variable {s : State} {r : Request} {m : CborMap} {e : Nat} (formed : s.requestMap r 7 [] [2, 3] = some m) (unnamed : keyOf m 3 = none) (tenant : s.tenantOf r.client = some e)
include formed unnamed tenant

theorem execReqStatus_eq {n : Nat} (service : uintOr m 2 16 16 = some n) : exec (.reqStatus r) s = if !s.endpointOpen ∨ (n < 16 ∧ !s.answers n) then s.refuseReq r stNotReady
    else .next (s.final r.client (reqIdOf r) stOk [(9, .info ([(0, s.device.mode.code), (2, s.openOf (teTenant e))] ++
      (if n < 16 then [(1, s.svcState n), (3, (s.svc n).waiting.length), (4, (s.svc n).lanes.length)] else [])))]) := by
  have context : uintOr m 3 (2 ^ 50) (2 ^ 50) = some (2 ^ 50) := by rw [uintOr, unnamed]
  show execReqStatus r s = _
  simp only [execReqStatus, formed, service, context, tenant, if_neg (Nat.lt_irrefl (2 ^ 50))]

theorem execReqStatus_closed (whole : keyOf m 2 = none) (closed : s.endpointOpen = false) :
    ∃ t, exec (.reqStatus r) s = .next t ∧ s.answered t r.client (reqIdOf r) stNotReady [] :=
  State.refused_of_eq ((execReqStatus_eq formed unnamed tenant (n := 16) (by rw [uintOr, whole])).trans (if_pos (.inl (by simp [closed]))))

theorem execReqStatus_deaf {n : Nat} (small : n < 16) (named : keyOf m 2 = some (.uint n)) (deaf : s.answers n = false) :
    ∃ t, exec (.reqStatus r) s = .next t ∧ s.answered t r.client (reqIdOf r) stNotReady [] :=
  State.refused_of_eq ((execReqStatus_eq formed unnamed tenant (n := n) (by simp [uintOr, named, small])).trans (if_pos (.inr ⟨small, by simp [deaf]⟩)))

theorem execReqStatus_device (whole : keyOf m 2 = none) (open' : s.endpointOpen = true) :
    ∃ t, exec (.reqStatus r) s = .next t ∧ s.answered t r.client (reqIdOf r) stOk [(9, .info [(0, s.device.mode.code), (2, s.openOf (teTenant e))])] :=
  ⟨_, (execReqStatus_eq formed unnamed tenant (n := 16) (by rw [uintOr, whole])).trans (if_neg (by simp [open'])), s.final_answered ..⟩

theorem execReqStatus_service {n : Nat} (small : n < 16) (named : keyOf m 2 = some (.uint n)) (answers : s.answers n = true) :
    ∃ t, exec (.reqStatus r) s = .next t ∧ s.answered t r.client (reqIdOf r) stOk [(9, .info [(0, s.device.mode.code), (2, s.openOf (teTenant e)), (1, s.obj (0x9100 + n) 0),
      (3, (s.svc n).waiting.length), (4, (s.svc n).lanes.length)])] := by
  have open' : s.endpointOpen = true := (Bool.and_eq_true_iff.1 answers).1
  have run := (execReqStatus_eq formed unnamed tenant (n := n) (by simp [uintOr, named, small])).trans (if_neg (by simp [open', answers]))
  rw [if_pos small] at run
  exact ⟨_, run, s.final_answered ..⟩

end Status

/-- Settles O42: the malformed requests first, then each request by the branch that its map, its service and its context take. -/
theorem endpointRequestsAreServed : Obligations.EndpointRequestsAreServed := by
  refine ⟨fun s r i op need may which malformed => exec_malformedRequest which malformed,
    fun s r m n seed prio e q slot formed service small seeded ranked answers tenant =>
      ⟨fun full => execReqOpenContext_of_limit formed service small seeded ranked answers tenant full, fun room picked free part few applied front back two spans => ?_⟩,
    fun s r m v slot n tenant ts formed handle tokens found => ⟨fun busy => execReqAppend_of_busy formed handle tokens found busy,
      fun free long => execReqAppend_of_long formed handle tokens found free long,
      fun free fits full => ⟨_, execReqAppend_of_fit formed handle tokens found free fits, State.queueReq_busy full⟩,
      fun free fits room => ⟨_, execReqAppend_of_fit formed handle tokens found free fits, State.queueReq_queues room⟩⟩,
    fun s r m v k temp topP slot n tenant ts stop formed handle many tokens warm nucleus stops =>
      ⟨fun bad => execReqGenerate_of_range formed handle many tokens warm nucleus stops bad,
        fun some' few found free room => ⟨_, execReqGenerate_of_free formed handle many tokens warm nucleus stops some' few found free, State.queueReq_queues room⟩⟩,
    fun s r m v i which handle => ⟨fun n e service answers tenant held => ⟨fun foreign => ?_, fun own stale => ?_⟩,
      fun slot n tenant found => ⟨fun cancel free => ?_, fun x k cancel on _ waits idle unsealed stays present alone => ?_, fun close free idle => ?_⟩⟩,
    fun s r m n k b formed service small stream few bytes => ⟨fun deaf => execReqSubmitFrame_of_deaf formed service small stream few bytes deaf,
      fun answers vision length new => execReqSubmitFrame_waits formed service small stream few bytes answers vision length new,
      fun f answers vision length waits same unplaced => execReqSubmitFrame_supersedes formed service small stream few bytes answers vision length waits same unplaced⟩,
    fun s r m e formed unnamed tenant => ⟨fun whole closed => execReqStatus_closed formed unnamed tenant whole closed,
      fun n small named deaf => execReqStatus_deaf formed unnamed tenant small named deaf, fun whole open' => execReqStatus_device formed unnamed tenant whole open',
      fun n small named answers => execReqStatus_service formed unnamed tenant small named answers⟩⟩
  · obtain ⟨t, now, rest, run, ctx, empty, sent⟩ := execReqOpenContext_opens formed service small seeded ranked answers tenant room picked free part few applied front back two spans
    exact ⟨t, run, by rw [ctx]; rfl, by rw [ctx]; rfl, by rw [ctx]; rfl, by rw [ctx], by rw [ctx]; rfl, by rw [ctx]; rfl, by rw [ctx]; rfl, empty, rest, sent⟩
  · exact exec_cancelOrClose_of_error which handle (State.ctxFor_of_foreign service answers tenant held foreign)
  · exact exec_cancelOrClose_of_error which handle (State.ctxFor_of_stale service answers tenant own stale)
  · obtain ⟨rfl, formed⟩ := which.resolve_right (by simp [cancel])
    exact execReqCancel_of_free handle found formed free
  · obtain ⟨rfl, formed⟩ := which.resolve_right (by simp [cancel])
    exact execReqCancel_ends handle found formed on waits idle unsealed stays present alone
  · obtain ⟨rfl, formed⟩ := which.resolve_left (by simp [close])
    exact execReqCloseContext_releases handle found formed free idle

end Sys2Proof.Machine
end

section
/-! PROOF. What every context_op answers and which descriptors it leaves (11_contexts_and_kv.md R271, R272). -/

namespace Sys2Proof.Machine

/-! ### The command and its rule -/

/-- A rule's answer: its state with the status in the command's object, nothing else in another register. -/
theorem State.commandOut_runs {s u : State} {sess i j st : Nat} {rule : State → State × Nat} (passed : s.writeGuard sess i j = none) (own : rule s = (u, st)) :
    ∃ t, s.commandOut sess i j rule = .next t ∧ t.obj i j = st ∧ t = { u with regs := t.regs, sent := t.sent } ∧ u.sameRegs t [okey i j 0] := by
  refine ⟨_, State.commandOut_of_rule passed own, ?_, rfl, ?_⟩
  · rw [State.obj_answer, State.obj_setObj_same]
  · exact State.sameRegs_congr (State.sameRegs_setObj _ _ _ _ (State.sameRegs_refl _ _) (by simp)) rfl

/-- The descriptors beside a slot stand, but for a damage mark. -/
def State.besideSlot (slot : Nat) (s t : State) : Prop := ∀ k, k ≠ slot → t.ctx k = { s.ctx k with damaged := (t.ctx k).damaged }

namespace State.besideSlot
variable {slot : Nat} {s t u : State}

theorem of_ctxs (h : t.ctxs = s.ctxs) : s.besideSlot slot t := fun k _ => by rw [State.ctx_congr h k]

theorem of_onlyDamage (h : s.onlyDamage t) : s.besideSlot slot t := fun k _ => h.ctx_eq k

theorem trans (h : s.besideSlot slot t) (g : t.besideSlot slot u) : s.besideSlot slot u := fun k other => by rw [g k other, h k other]

theorem setCtx (h : s.besideSlot slot t) (c : Ctx) : s.besideSlot slot (t.setCtx slot c) := fun k other => by
  rw [State.ctx_setCtx_ne _ _ other]
  exact h k other

end State.besideSlot

/-- An operation that leaves the descriptors beside its slot, but for a damage mark. -/
def ctxBeside (f : State → Nat → Ctx → State × Nat) : Prop := ∀ (t : State) (slot : Nat) (c : Ctx), t.besideSlot slot (f t slot c).1

theorem State.withdraw_ctxs (s : State) (q slot : Nat) (which : PageMove → Bool) : (s.withdraw q slot which).ctxs = s.ctxs := by
  refine List.foldlRecOn (motive := fun t : State => t.ctxs = s.ctxs) _ _ rfl fun t kept m _ => ?_
  split
  · rw [State.freePage]
    split
    · exact kept
    · exact kept
  · exact kept

section Beside
variable {f : State → Nat → Ctx → State × Nat}

theorem ctxBeside.usable (h : ctxBeside f) : ctxBeside (fun t slot c => if c.usable then f t slot c else (t, stBusy)) := by
  intro t slot c
  dsimp only
  split
  · exact h t slot c
  · exact .of_ctxs rfl

/-- Behind a rule that runs an operation, the descriptors beside its slot stand but for a damage mark. -/
theorem ruleCtx_beside (h : ctxBeside f) (s : State) (v op : Nat) : s.besideSlot (ctxSlot v) (ruleCtx v op f s).1 := by
  unfold ruleCtx
  split
  · exact .of_ctxs rfl
  · have looked : s.besideSlot (ctxSlot v) (s.lookup (ctxSlot v)) := .of_ctxs rfl
    dsimp only
    split
    · exact looked
    · exact looked.trans (h _ _ _)

theorem ruleCtx_of_bad {v op : Nat} (bad : ctxFieldsOk v op = false) (s : State) : ruleCtx v op f s = (s, stBadValue) := by
  rw [ruleCtx, bad]
  rfl

theorem ruleCtx_of_free {v op : Nat} (fields : ctxFieldsOk v op = true) {s : State} (free : (s.ctx (ctxSlot v)).st = .free) :
    ruleCtx v op f s = (s.lookup (ctxSlot v), stNotReady) := by
  have found : (s.lookup (ctxSlot v)).ctx (ctxSlot v) = s.ctx (ctxSlot v) := rfl
  simp [ruleCtx, fields, found, free]

end Beside

/-! ### The operations -/

theorem ctxBeside_close : ctxBeside (fun t slot c => match c.st with
    | .idle => ((t.dropMoves c.partition slot).setCtx slot { c with st := .releasing }, stOk)
    | .active => (t.setCtx slot { c with st := .closing }, stPending)
    | _ => (t.setCtx slot { c with opens := none }, stOk)) := by
  intro t slot c
  have same : t.besideSlot slot t := .of_ctxs rfl
  dsimp only
  split
  · exact (State.besideSlot.of_ctxs (State.dropMoves_ctxs ..)).setCtx _
  · exact same.setCtx _
  · exact same.setCtx _

theorem ctxBeside_setCtx (g : Ctx → Ctx) (st : Nat) : ctxBeside (fun t slot c => (t.setCtx slot (g c), st)) :=
  fun t _ _ => (State.besideSlot.of_ctxs (s := t) rfl).setCtx _

theorem ctxBeside_setPosition (v : Nat) : ctxBeside (fun t slot c =>
    let p := fieldOf v 192 32
    if p > 16384 ∨ p < c.position then (t, stBadValue) else (t.setCtx slot { c with position := p }, stOk)) := by
  intro t slot c
  dsimp only
  split
  · exact .of_ctxs rfl
  · exact (State.besideSlot.of_ctxs (s := t) rfl).setCtx _

theorem ctxBeside_pin : ctxBeside (fun t slot c =>
    (((t.withdraw c.partition slot (fun m => m.kind == .demote)).setCtx slot { c with pinned := true }).queuePromotion slot, stOk)) := by
  intro t slot c
  have withdrawn : t.besideSlot slot (t.withdraw c.partition slot (fun m => m.kind == .demote)) := .of_ctxs (State.withdraw_ctxs ..)
  have promoted (u : State) : u.besideSlot slot (u.queuePromotion slot) := .of_onlyDamage (State.onlyDamage.queuePromotion u slot)
  dsimp only
  exact (withdrawn.setCtx _).trans (promoted _)

theorem ctxBeside_promote : ctxBeside (fun t slot _ => (t.queuePromotion slot, stOk)) := by
  intro t slot c
  dsimp only
  exact .of_onlyDamage (State.onlyDamage.queuePromotion t slot)

theorem ctxBeside_demote : ctxBeside (fun t slot c =>
    if (t.pool c.partition).ddr.size = 0 then (t, stBadValue)
    else if c.st ≠ .idle ∨ c.pinned then (t, stBusy)
    else ((t.queueDemotion c.partition slot 2).pagerRun c.partition, stOk)) := by
  intro t slot c
  dsimp only
  split
  · exact .of_ctxs rfl
  · split
    · exact .of_ctxs rfl
    · dsimp only
      exact .of_onlyDamage ((State.onlyDamage.queueDemotion t _ _ _).trans (State.onlyDamage.pagerRun _ _))

theorem ctxBeside_read : ctxBeside (fun t _ c => (t.setObj 0x3400 3 0 c.word, stOk)) := fun _ _ _ => .of_ctxs rfl

/-- The commands of context_op by the number of their operation. -/
def ctxOperation (sess : Nat) (v : BitVec 256) (op : Nat) (i : Instr) : Prop :=
  op = 1 ∧ i = .ctxOpen sess v ∨ op = 2 ∧ i = .ctxClose sess v ∨ op = 3 ∧ i = .ctxSetPosition sess v ∨ op = 4 ∧ i = .ctxSetPriority sess v ∨ op = 5 ∧ i = .ctxPin sess v ∨
    op = 6 ∧ i = .ctxUnpin sess v ∨ op = 7 ∧ i = .ctxPromote sess v ∨ op = 8 ∧ i = .ctxDemote sess v ∨ op = 9 ∧ i = .ctxRead sess v

/-- Every operation but OPEN runs behind `ruleCtx` and leaves the descriptors beside its slot. -/
theorem ctxOperation.runs {sess op : Nat} {v : BitVec 256} {i : Instr} (h : ctxOperation sess v op i) :
    op = 1 ∧ i = .ctxOpen sess v ∨ op ≠ 1 ∧ ∃ rule f, ctxBeside f ∧ (∀ s, exec i s = s.commandOut sess 0x3400 2 rule) ∧ rule = ruleCtx v.toNat op f := by
  obtain ⟨rfl, rfl⟩ | ⟨rfl, rfl⟩ | ⟨rfl, rfl⟩ | ⟨rfl, rfl⟩ | ⟨rfl, rfl⟩ | ⟨rfl, rfl⟩ | ⟨rfl, rfl⟩ | ⟨rfl, rfl⟩ | ⟨rfl, rfl⟩ := h
  · exact .inl ⟨rfl, rfl⟩
  · exact .inr ⟨by decide, ruleCtxClose v.toNat, _, ctxBeside_close, fun _ => rfl, rfl⟩
  · exact .inr ⟨by decide, ruleCtxSetPosition v.toNat, _, (ctxBeside_setPosition v.toNat).usable, fun _ => rfl, rfl⟩
  · exact .inr ⟨by decide, ruleCtxSetPriority v.toNat, _, (ctxBeside_setCtx (fun c => { c with priority := fieldOf v.toNat 192 8 }) stOk).usable, fun _ => rfl, rfl⟩
  · exact .inr ⟨by decide, ruleCtxPin v.toNat, _, ctxBeside_pin.usable, fun _ => rfl, rfl⟩
  · exact .inr ⟨by decide, ruleCtxUnpin v.toNat, _, (ctxBeside_setCtx (fun c => { c with pinned := false }) stOk).usable, fun _ => rfl, rfl⟩
  · exact .inr ⟨by decide, ruleCtxPromote v.toNat, _, ctxBeside_promote.usable, fun _ => rfl, rfl⟩
  · exact .inr ⟨by decide, ruleCtxDemote v.toNat, _, ctxBeside_demote, fun _ => rfl, rfl⟩
  · exact .inr ⟨by decide, ruleCtxRead v.toNat, _, ctxBeside_read, fun _ => rfl, rfl⟩

theorem ruleCtxOpen_of_bad {v : Nat} (bad : ctxFieldsOk v 1 = false) (s : State) : ruleCtxOpen v s = (s, stBadValue) := by
  rw [ruleCtxOpen, bad]
  exact if_pos (.inl rfl)

section Operation
variable {s : State} {sess op : Nat} {v : BitVec 256} {i : Instr} (passed : s.writeGuard sess 0x3400 2 = none) (named : ctxOperation sess v op i)
include passed named

theorem ctxOperation.of_bad (bad : ctxFieldsOk v.toNat op = false) :
    ∃ t, exec i s = .next t ∧ t.obj 0x3400 2 = stBadValue ∧ t = { s with regs := t.regs, sent := t.sent } ∧ s.sameRegs t [okey 0x3400 2 0] := by
  obtain ⟨rfl, rfl⟩ | ⟨_, rule, f, _, run, rfl⟩ := named.runs
  · exact State.commandOut_runs passed (ruleCtxOpen_of_bad bad s)
  · rw [run]
    exact State.commandOut_runs passed (ruleCtx_of_bad bad s)

theorem ctxOperation.of_free (fields : ctxFieldsOk v.toNat op = true) (opens : op ≠ 1) (free : (s.ctx (ctxSlot v.toNat)).st = .free) :
    ∃ t, exec i s = .next t ∧ t.obj 0x3400 2 = stNotReady ∧ t.ctxs = s.ctxs ∧ t.hbm = s.hbm ∧ t.pools = s.pools := by
  obtain ⟨one, _⟩ | ⟨_, rule, f, _, run, rfl⟩ := named.runs
  · exact absurd one opens
  · obtain ⟨t, out, answered, frame, _⟩ := State.commandOut_runs passed (ruleCtx_of_free (f := f) fields free)
    rw [run]
    exact ⟨t, out, answered, by rw [frame]; rfl, by rw [frame]; rfl, by rw [frame]; rfl⟩

theorem ctxOperation.beside (opens : op ≠ 1) :
    ∃ t, exec i s = .next t ∧ ∀ k, k ≠ ctxSlot v.toNat → t.ctx k = { s.ctx k with damaged := (t.ctx k).damaged } := by
  obtain ⟨one, _⟩ | ⟨_, rule, f, beside, run, rfl⟩ := named.runs
  · exact absurd one opens
  · obtain ⟨t, out, _, frame, _⟩ := State.commandOut_runs passed (rule := ruleCtx v.toNat op f) (s := s) rfl
    rw [run]
    refine ⟨t, out, fun k other => ?_⟩
    rw [State.ctx_congr (by rw [frame]) k]
    exact ruleCtx_beside beside s _ _ k other

end Operation

/-! ### OPEN (R271, R275) -/

theorem execCtxOpen_fills {s : State} {sess slot q : Nat} {v : BitVec 256} (passed : s.writeGuard sess 0x3400 2 = none) (fields : ctxFieldsOk v.toNat 1 = true)
    (named : slot = ctxSlot v.toNat) (number : q = fieldOf v.toNat 132 4) (small : q ≤ 11) (applied : (s.pool q).applied = true) (free : (s.ctx slot).st = .free)
    (front : (s.pool q).hbm.front = []) (back : (s.pool q).hbm.back = []) (two : (s.pool q).hbm.next + 2 ≤ (s.pool q).hbm.size) (spans : s.spans = []) :
    ∃ (t : State) (now : Nat), exec (.ctxOpen sess v) s = .next t ∧ t.obj 0x3400 2 = stOk ∧
      t.ctx slot = CtxOpen.opened { seed := fieldOf v.toNat 192 64, tenant := fieldOf v.toNat 160 32, partition := q } (s.ctx slot) (s.pool q).hbm.next ((s.pool q).hbm.next + 1) now ∧
      ∀ r, r < 2048 → Tbl.get t.hbm 0 (s.pageAddr q false (s.pool q).hbm.next / 32 + r) = 0 := by
  obtain ⟨u, now, own, opened, zeros⟩ := ruleCtxOpen_opens fields named number small applied free spans front back two
  obtain ⟨t, out, answered, frame, _⟩ := State.commandOut_runs passed own
  refine ⟨t, now, out, answered, ?_, ?_⟩
  · rw [State.ctx_congr (by rw [frame]) slot]
    exact opened
  · rw [show t.hbm = u.hbm by rw [frame]]
    exact zeros

/-! ### CLOSE, SET_POSITION, SET_PRIORITY, UNPIN, DEMOTE, READ (R271, R272) -/

section Operations
variable {s : State} {sess slot : Nat} {v : BitVec 256} {c : Ctx} (passed : s.writeGuard sess 0x3400 2 = none) (named : slot = ctxSlot v.toNat) (held : c = s.ctx slot)
include passed named held

theorem execCtxClose_closes (fields : ctxFieldsOk v.toNat 2 = true) (active : c.st = .active) :
    ∃ t, exec (.ctxClose sess v) s = .next t ∧ t.obj 0x3400 2 = stPending ∧ t.ctx slot = { c with st := .closing } := by
  subst named held
  have own : ruleCtxClose v.toNat s = ((s.lookup (ctxSlot v.toNat)).setCtx (ctxSlot v.toNat) { s.ctx (ctxSlot v.toNat) with st := .closing }, stPending) := by
    rw [ruleCtxClose, ruleCtx_of_held fields (by simp [active])]
    simp only [active]
  obtain ⟨t, out, answered, frame, _⟩ := State.commandOut_runs passed own
  exact ⟨t, out, answered, (State.ctx_congr (by rw [frame]) _).trans (State.ctx_setCtx_same ..)⟩

section Usable
variable (usable : c.st = .idle ∨ c.st = .active)
include usable

theorem execCtxSetPosition_answers (fields : ctxFieldsOk v.toNat 3 = true) : ∃ t, exec (.ctxSetPosition sess v) s = .next t ∧ t.hbm = s.hbm ∧ t.pools = s.pools ∧
    if c.position ≤ fieldOf v.toNat 192 32 ∧ fieldOf v.toNat 192 32 ≤ 16384 then t.obj 0x3400 2 = stOk ∧ t.ctx slot = { c with position := fieldOf v.toNat 192 32 }
    else t.obj 0x3400 2 = stBadValue ∧ t.ctxs = s.ctxs := by
  subst named held
  split
  · next forward =>
    have own : ruleCtxSetPosition v.toNat s = ((s.lookup (ctxSlot v.toNat)).setCtx (ctxSlot v.toNat)
        { s.ctx (ctxSlot v.toNat) with position := fieldOf v.toNat 192 32 }, stOk) := by
      rw [ruleCtxSetPosition, ruleUsable_of_usable fields usable]
      exact if_neg (by omega)
    obtain ⟨t, out, answered, frame, _⟩ := State.commandOut_runs passed own
    exact ⟨t, out, by rw [frame]; rfl, by rw [frame]; rfl, answered, (State.ctx_congr (by rw [frame]) _).trans (State.ctx_setCtx_same ..)⟩
  · next outside =>
    have own : ruleCtxSetPosition v.toNat s = (s.lookup (ctxSlot v.toNat), stBadValue) := by
      rw [ruleCtxSetPosition, ruleUsable_of_usable fields usable]
      exact if_pos (by omega)
    obtain ⟨t, out, answered, frame, _⟩ := State.commandOut_runs passed own
    exact ⟨t, out, by rw [frame]; rfl, by rw [frame]; rfl, answered, by rw [frame]; rfl⟩

theorem execCtxSetPriority_answers (fields : ctxFieldsOk v.toNat 4 = true) : ∃ t, exec (.ctxSetPriority sess v) s = .next t ∧ t.obj 0x3400 2 = stOk ∧
    t.ctx slot = { c with priority := fieldOf v.toNat 192 8 } ∧ t.hbm = s.hbm := by
  subst named held
  obtain ⟨t, out, answered, frame, _⟩ := State.commandOut_runs passed (rule := ruleCtxSetPriority v.toNat) (ruleUsable_of_usable fields usable)
  exact ⟨t, out, answered, (State.ctx_congr (by rw [frame]) _).trans (State.ctx_setCtx_same ..), by rw [frame]; rfl⟩

theorem execCtxUnpin_answers (fields : ctxFieldsOk v.toNat 6 = true) : ∃ t, exec (.ctxUnpin sess v) s = .next t ∧ t.obj 0x3400 2 = stOk ∧
    t.ctx slot = { c with pinned := false } ∧ t.hbm = s.hbm := by
  subst named held
  obtain ⟨t, out, answered, frame, _⟩ := State.commandOut_runs passed (rule := ruleCtxUnpin v.toNat) (ruleUsable_of_usable fields usable)
  exact ⟨t, out, answered, (State.ctx_congr (by rw [frame]) _).trans (State.ctx_setCtx_same ..), by rw [frame]; rfl⟩

end Usable

section Held
variable (taken : c.st ≠ .free)
include taken

theorem execCtxDemote_of_none (fields : ctxFieldsOk v.toNat 8 = true) (none : (s.pool c.partition).ddr.size = 0) :
    ∃ t, exec (.ctxDemote sess v) s = .next t ∧ t.obj 0x3400 2 = stBadValue ∧ t.ctxs = s.ctxs := by
  subst named held
  have own : ruleCtxDemote v.toNat s = (s.lookup (ctxSlot v.toNat), stBadValue) := by
    rw [ruleCtxDemote, ruleCtx_of_held fields taken]
    exact if_pos none
  obtain ⟨t, out, answered, frame, _⟩ := State.commandOut_runs passed own
  exact ⟨t, out, answered, by rw [frame]; rfl⟩

theorem execCtxDemote_of_busy (fields : ctxFieldsOk v.toNat 8 = true) (some : (s.pool c.partition).ddr.size ≠ 0) (busy : c.st ≠ .idle ∨ c.pinned = true) :
    ∃ t, exec (.ctxDemote sess v) s = .next t ∧ t.obj 0x3400 2 = stBusy ∧ t.ctxs = s.ctxs := by
  subst named held
  have own : ruleCtxDemote v.toNat s = (s.lookup (ctxSlot v.toNat), stBusy) := by
    rw [ruleCtxDemote, ruleCtx_of_held fields taken]
    exact (if_neg some).trans (if_pos busy)
  obtain ⟨t, out, answered, frame, _⟩ := State.commandOut_runs passed own
  exact ⟨t, out, answered, by rw [frame]; rfl⟩

theorem execCtxRead_answers (fields : ctxFieldsOk v.toNat 9 = true) :
    ∃ t, exec (.ctxRead sess v) s = .next t ∧ t.obj 0x3400 2 = stOk ∧ t.obj 0x3400 3 = c.word ∧ t.ctxs = s.ctxs ∧ t.hbm = s.hbm := by
  subst named held
  obtain ⟨t, out, answered, frame, kept⟩ := State.commandOut_runs passed (rule := ruleCtxRead v.toNat) (ruleCtx_of_held fields taken)
  exact ⟨t, out, answered, (kept _ (by decide)).trans (State.obj_setObj_same ..), by rw [frame]; rfl, by rw [frame]; rfl⟩

end Held
end Operations

end Sys2Proof.Machine
end

section
/-! PROOF. Pools are applied where nothing is queued (11_contexts_and_kv.md R274, R275). -/

namespace Sys2Proof.Machine

/-- What POOL_APPLY sets of a pool: its validity, the pages of its HBM part, the lane area and the bytes of a position. -/
def CtxPool.layout (p : CtxPool) : Bool × Nat × Nat × Nat := (p.applied, p.hbm.size, p.laneArea, p.kvBytes)

/-- Pages are taken from free lists to be zeroed: only pools and pagers differ, no pool's layout, and no queue gains a move. -/
structure State.onlyFills (s t : State) : Prop where
  frame : t = { s with pools := t.pools, pagers := t.pagers }
  layout : ∀ p, (t.pool p).layout = (s.pool p).layout
  queue : ∀ p, (t.pager p).queue = (s.pager p).queue

namespace State.onlyFills

theorem refl (s : State) : s.onlyFills s := ⟨rfl, fun _ => rfl, fun _ => rfl⟩

section Kept
variable {s t : State} (h : s.onlyFills t)
include h

theorem trans {u : State} (g : t.onlyFills u) : s.onlyFills u :=
  ⟨g.frame.trans (by rw [h.frame]), fun p => (g.layout p).trans (h.layout p), fun p => (g.queue p).trans (h.queue p)⟩

theorem ctxs : t.ctxs = s.ctxs := by rw [h.frame]
theorem hbm : t.hbm = s.hbm := by rw [h.frame]

theorem modPool (q : Nat) {f : CtxPool → CtxPool} (kept : (f (t.pool q)).layout = (t.pool q).layout) : s.onlyFills (t.modPool q f) := by
  refine h.trans ⟨rfl, fun p => ?_, fun _ => rfl⟩
  by_cases same : p = q
  · subst same
    rw [State.pool_modPool_same, kept]
  · rw [State.pool_modPool_ne t f same]

theorem setFreeList (q : Nat) (ddr : Bool) {l : FreeList} (size : l.size = (t.freeList q ddr).size) : s.onlyFills (t.setFreeList q ddr l) := by
  refine h.modPool q ?_
  cases ddr with
  | false => simp only [State.freeList] at size; simp [CtxPool.layout, size]
  | true => rfl

theorem modPager (q : Nat) {f : Pager → Pager} (kept : ∀ x, (f x).queue = x.queue) : s.onlyFills (t.modPager q f) :=
  h.trans ⟨rfl, fun _ => rfl, fun p => t.queue_modPager q fun _ => kept⟩

end Kept

theorem startFill (s : State) (q : Nat) (ddr : Bool) : s.onlyFills (s.startFill q ddr) := by
  unfold State.startFill
  dsimp only
  split
  · refine modPager (setFreeList (refl s) q ddr ?_) q fun _ => ?_ <;> rfl
  · split
    · refine modPager (setFreeList (refl s) q ddr ?_) q fun _ => ?_ <;> rfl
    · split
      · refine modPager (setFreeList (refl s) q ddr ?_) q fun _ => ?_ <;> rfl
      · exact refl s

theorem idleFill (s : State) (q : Nat) : s.onlyFills (s.idleFill q) := by
  unfold State.idleFill
  dsimp only
  split
  · exact refl s
  · split
    · exact startFill s q false
    · exact (startFill s q false).trans (startFill _ q true)

end State.onlyFills

/-! ### The pager with nothing queued (R281, R282) -/

theorem State.startAny_of_idle {s : State} (idle : ∀ p, (s.pager p).queue = []) (order : List (Nat × Nat)) : s.startAny order = (s, false) := by
  induction order with
  | nil => rfl
  | cons x rest ih =>
    obtain ⟨c, q⟩ := x
    rw [State.startAny, idle q, List.filter_nil, State.startMove]
    exact ih

theorem State.pumpPages_of_idle {s : State} (idle : ∀ p, (s.pager p).queue = []) (n : Nat) : s.onlyFills (State.pumpPages n s) := by
  cases n with
  | zero => exact .refl s
  | succ n =>
    rw [State.pumpPages, State.startAny_of_idle idle]
    split
    · exact .refl s
    · exact State.each_induction s.onlyFills (.refl s) fun t q _ kept => kept.trans (.idleFill t q)

theorem State.demotable_of_unheld {s : State} {q : Nat} (unheld : ∀ e, e ∈ s.ctxs → e.2.st = .free ∨ e.2.partition ≠ q) (age : Nat) (but : Option Nat) :
    s.demotable q age but = [] := by
  refine List.eq_nil_iff_forall_not_mem.2 fun slot mem => ?_
  simp only [State.demotable, List.mem_map, List.mem_mergeSort, List.mem_filter] at mem
  obtain ⟨e, ⟨held, demoted⟩, _⟩ := mem
  obtain free | other := unheld e held
  · simp [free] at demoted
  · simp [other] at demoted

/-- Without a held context of the partition the water marks demote nothing. -/
theorem State.waterMarks_of_unheld {s : State} {q : Nat} (unheld : ∀ e, e ∈ s.ctxs → e.2.st = .free ∨ e.2.partition ≠ q) : s.onlyFills (s.waterMarks q) := by
  have marked (on : Bool) := (State.onlyFills.refl s).modPool q (f := fun p => { p with demoting := on }) rfl
  unfold State.waterMarks
  dsimp only
  split
  · rw [State.demotable_of_unheld (s := s.modPool q _) unheld]
    exact marked _
  · exact marked _

theorem State.pagerRun_of_idle {s : State} {q : Nat} (unheld : ∀ e, e ∈ s.ctxs → e.2.st = .free ∨ e.2.partition ≠ q) (idle : ∀ p, (s.pager p).queue = []) :
    s.onlyFills (s.pagerRun q) := by
  have marked := State.waterMarks_of_unheld unheld
  exact marked.trans (State.pumpPages_of_idle (fun p => (marked.queue p).trans (idle p)) 65)

/-! ### POOL_APPLY (R274) -/

theorem State.pool_withPagers (s : State) (pagers : Tbl Pager) (q : Nat) : ({ s with pagers := pagers } : State).pool q = s.pool q := rfl

section Apply
variable {s : State} {sess q : Nat} (passed : s.writeGuard sess (0x3410 + q) 6 = none)
include passed

theorem execPoolApply_of_busy (busy : s.jobState q ≠ 0 ∨ ∃ e, e ∈ s.ctxs ∧ e.2.st ≠ .free ∧ e.2.partition = q) :
    ∃ t, exec (.poolApply sess q) s = .next t ∧ t.obj (0x3410 + q) 6 = stBusy ∧ t.pools = s.pools ∧ s.sameRegs t [okey (0x3410 + q) 6 0] := by
  have held : s.ctxs.any (fun e => e.2.st != .free && e.2.partition == q) = true ∨ s.jobState q ≠ jsNone := by
    obtain job | ⟨e, mem, taken, own⟩ := busy
    · exact .inr job
    · exact .inl (List.any_eq_true.2 ⟨e, mem, by simp [taken, own]⟩)
  have own : rulePoolApply q 1 s = (s, stBusy) := by
    unfold rulePoolApply
    dsimp only
    rw [if_neg (by simp), if_pos held]
  obtain ⟨t, out, answered, frame, kept⟩ := State.commandOut_runs passed own
  exact ⟨t, out, answered, by rw [frame], kept⟩

theorem execPoolApply_lays (bare : s.jobState q = 0)
    (unheld : ∀ e, e ∈ s.ctxs → e.2.st = .free ∨ e.2.partition ≠ q) (whole : s.windowLost q = false) (hbmOffset : s.obj (0x3410 + q) 0 % 65536 = 0)
    (below : s.obj (0x3410 + q) 0 + 65536 * s.obj (0x3410 + q) 1 ≤ s.obj (0x3410 + q) 4) (ddrOffset : s.obj (0x3410 + q) 2 % 65536 = 0)
    (noDdr : s.obj (0x3410 + q) 3 = 0) (lanes : s.obj (0x3410 + q) 4 % 32 = 0) (window : s.obj (0x3410 + q) 4 + 262144 ≤ (s.cfg q).hbmSize)
    (rows : s.obj (0x3410 + q) 5 % 32 = 0) (some32 : 32 ≤ s.obj (0x3410 + q) 5) (most : s.obj (0x3410 + q) 5 ≤ 32768) (unpaged : s.pagers = []) :
    ∃ t, exec (.poolApply sess q) s = .next t ∧ t.obj (0x3410 + q) 6 = stOk ∧
      (t.pool q).layout = (true, s.obj (0x3410 + q) 1, s.obj (0x3410 + q) 4, s.obj (0x3410 + q) 5) ∧ t.hbm = s.hbm ∧ t.ctxs = s.ctxs := by
  have unused : s.ctxs.any (fun e => e.2.st != .free && e.2.partition == q) = false := by
    rw [List.any_eq_false]
    intro e mem
    obtain free | other := unheld e mem
    · simp [free]
    · simp [other]
  obtain ⟨w, run, layout, ctxs, hbm, idle⟩ : ∃ w : State, rulePoolApply q 1 s = (w.pagerRun q, stOk) ∧
      (w.pool q).layout = (true, s.obj (0x3410 + q) 1, s.obj (0x3410 + q) 4, s.obj (0x3410 + q) 5) ∧ w.ctxs = s.ctxs ∧ w.hbm = s.hbm ∧ ∀ p, (w.pager p).queue = [] := by
    unfold rulePoolApply
    dsimp only
    rw [if_neg (by simp), if_neg (by simp [unused, bare]), if_neg (by omega), if_neg (by simp [whole])]
    refine ⟨_, rfl, ?_, rfl, rfl, fun p => ?_⟩
    · rw [State.pool_withPagers, State.pool_modPool_same]
      rfl
    · rw [State.pager, State.modPool, unpaged]
      by_cases same : p = q
      · subst same
        rw [Tbl.get_put_same]
      · rw [Tbl.get_put_other _ _ _ _ _ _ same]
        rfl
  have filled := State.pagerRun_of_idle (s := w) (q := q) (by rw [ctxs]; exact unheld) idle
  clear unused
  generalize w.pagerRun q = u at run filled
  obtain ⟨t, out, answered, frame, _⟩ := State.commandOut_runs passed run
  have pools : t.pools = u.pools := by rw [frame]
  have memory : t.hbm = u.hbm := by rw [frame]
  have slots : t.ctxs = u.ctxs := by rw [frame]
  refine ⟨t, out, answered, ?_, memory.trans (filled.hbm.trans hbm), slots.trans (filled.ctxs.trans ctxs)⟩
  rw [State.pool, pools, ← State.pool, filled.layout, layout]

end Apply

end Sys2Proof.Machine
end

section
/-! PROOF. The lanes of the step start first in line for pins are handed over (11_contexts_and_kv.md R277). -/

namespace Sys2Proof.Machine

/-! ### The pager leaves the jobs and the line for pins -/

/-- The jobs and the line of step starts that wait for pins are as they were. -/
structure State.keepsJobs (s t : State) : Prop where
  jobs : t.jobs = s.jobs
  pins : t.pinQueue = s.pinQueue

namespace State.keepsJobs

theorem refl (s : State) : s.keepsJobs s := ⟨rfl, rfl⟩

section Kept
variable {s t u : State}

theorem trans (h : s.keepsJobs t) (g : t.keepsJobs u) : s.keepsJobs u := ⟨g.jobs.trans h.jobs, g.pins.trans h.pins⟩

theorem of_readsMemory (h : s.readsMemory t) : s.keepsJobs t := ⟨h.jobs, by rw [h.frame]⟩

theorem of_onlyFills (h : s.onlyFills t) : s.keepsJobs t := ⟨by rw [h.frame], by rw [h.frame]⟩

theorem ite_fst {c : Prop} [Decidable c] {x y : State × Nat} (h : s.keepsJobs x.1) (g : s.keepsJobs y.1) : s.keepsJobs (if c then x else y).1 := by
  split
  · exact h
  · exact g

theorem foldl {α : Type} {xs : List α} {f : State → α → State} (k : ∀ (u : State) x, u.keepsJobs (f u x)) (s : State) : s.keepsJobs (xs.foldl f s) :=
  List.foldlRecOn (motive := s.keepsJobs) _ _ (refl s) fun u kept x _ => kept.trans (k u x)

end Kept

/-! ### Single changes -/

theorem modPager (s : State) (q : Nat) (f : Pager → Pager) : s.keepsJobs (s.modPager q f) := ⟨rfl, rfl⟩
theorem modPool (s : State) (q : Nat) (f : CtxPool → CtxPool) : s.keepsJobs (s.modPool q f) := ⟨rfl, rfl⟩
theorem setFreeList (s : State) (q : Nat) (ddr : Bool) (l : FreeList) : s.keepsJobs (s.setFreeList q ddr l) := ⟨rfl, rfl⟩
theorem setCtx (s : State) (slot : Nat) (c : Ctx) : s.keepsJobs (s.setCtx slot c) := ⟨rfl, rfl⟩
theorem count (s : State) (i j e w n : Nat) : s.keepsJobs (s.count i j e w n) := ⟨rfl, rfl⟩
theorem reportFor (s : State) (q : Option Nat) (c : Nat) (x y : Suspect) (st d : Nat) (u : Option Suspect) : s.keepsJobs (s.reportFor q c x y st d u) := ⟨rfl, rfl⟩
theorem lookup (s : State) (slot : Nat) : s.keepsJobs (s.lookup slot) := ⟨rfl, rfl⟩
theorem queueMove (s : State) (q : Nat) (kind : MoveKind) (slot page src : Nat) (dst : Option (Nat × Nat)) (cls : Nat) :
    s.keepsJobs (s.queueMove q kind slot page src dst cls) := ⟨rfl, rfl⟩

theorem freePage (s : State) (q : Nat) (ddr : Bool) (i tag : Nat) : s.keepsJobs (s.freePage q ddr i tag) := by
  unfold State.freePage
  split
  · exact refl s
  · exact setFreeList ..

theorem zeroPage (s : State) (q : Nat) (ddr : Bool) (i : Nat) : s.keepsJobs (s.zeroPage q ddr i) := by
  obtain ⟨t, reads, zeroed⟩ := s.zeroPage_eq q ddr i
  rw [zeroed]
  exact (of_readsMemory reads).trans (count ..)

theorem ringRead (s : State) (ddr : Bool) (row : Nat) (q : Option Nat) : s.keepsJobs (s.ringRead ddr row q).1 := of_readsMemory (.ringRead ..)

theorem putRow (s : State) (v : Server) (row : Nat) (d : Row) : s.keepsJobs (s.putRow v row d) := by
  cases v <;> exact ⟨rfl, rfl⟩

theorem ringWrite (s : State) (ddr : Bool) (row : Nat) (d : Row) : s.keepsJobs (s.ringWrite ddr row d) := by
  have cleared := of_readsMemory ((State.readsMemory.closeOverlap s (s.rowServer ddr row) [row]).dropHeld (s.rowServer ddr row) [row])
  have buffered (t : State) (v : Server) (f : MemServer → MemServer) : t.keepsJobs (t.modServer v f) := of_readsMemory ((State.readsMemory.refl t).modServer v f)
  unfold State.ringWrite
  dsimp only
  split
  · exact cleared.trans (buffered _ _ _)
  · exact cleared.trans (putRow _ _ _ _)

/-! ### Pages taken, read and moved (R275, R283) -/

theorem takePage (n : Nat) (s : State) (q : Nat) (ddr : Bool) : s.keepsJobs (State.takePage n s q ddr).1 := by
  induction n generalizing s with
  | zero => exact refl s
  | succ n ih =>
    rw [State.takePage]
    split
    · exact refl s
    · dsimp only
      split
      · exact (setFreeList s q ddr _).trans (ih _)
      · exact setFreeList s q ddr _

theorem newPage (s : State) (q : Nat) (ddr : Bool) : s.keepsJobs (s.newPage q ddr).1 := takePage _ s q ddr

theorem takeFor (s : State) (q : Nat) (ddr : Bool) (tenant : Nat) : s.keepsJobs (s.takeFor q ddr tenant).1 := by
  have taken := newPage s q ddr
  unfold State.takeFor
  split
  · next s1 p found =>
    rw [found] at taken
    split
    · exact taken
    · exact taken.trans (zeroPage s1 q ddr p.1)
  · next s1 found =>
    rw [found] at taken
    exact taken

theorem entryOf (s : State) (slot page : Nat) : s.keepsJobs (s.entryOf slot page).1 := by
  unfold State.entryOf
  dsimp only
  split
  · exact refl s
  · split
    · exact refl s
    · have read := ringRead s (eDdr (s.ctx slot).mapEntry) (s.mapRow (s.ctx slot) page) (some (s.ctx slot).partition)
      split
      · next s1 d found =>
        rw [found] at read
        exact read
      · next s1 found =>
        rw [found] at read
        exact read.trans (setCtx s1 slot _)

theorem entries (s : State) (slot n : Nat) : s.keepsJobs (s.entries slot n).1 :=
  List.foldlRecOn (motive := fun acc : State × List (Nat × Nat) => s.keepsJobs acc.1) _ _ (refl s) fun acc kept page _ => kept.trans (entryOf acc.1 slot page)

theorem pagesIn (s : State) (slot : Nat) (ddr : Bool) : s.keepsJobs (s.pagesIn slot ddr).1 := entries s slot _

theorem setEntry (s : State) (slot page e : Nat) : s.keepsJobs (s.setEntry slot page e).1 := by
  unfold State.setEntry
  dsimp only
  split
  · exact setCtx s slot _
  · split
    · exact setCtx s slot _
    · have read := ringRead s (eDdr (s.ctx slot).mapEntry) (s.mapRow (s.ctx slot) page) (some (s.ctx slot).partition)
      split
      · next s1 d found =>
        rw [found] at read
        exact read.trans (ringWrite s1 _ _ _)
      · next s1 found =>
        rw [found] at read
        exact read

theorem moveLost (s : State) (q slot : Nat) (fromDdr : Bool) (src : Nat) (toDdr : Bool) (dst : Nat) : s.keepsJobs (s.moveLost q slot fromDdr src toDdr dst) := by
  have marked := (freePage s q toDdr dst (s.ctx slot).tenant).trans (setCtx _ slot { s.ctx slot with damaged := true })
  exact (marked.trans (count _ 0x3400 9 0 32 1)).trans (reportFor _ _ _ _ _ _ _ _)

theorem copyRows (s : State) (q : Nat) (fromDdr : Bool) (src : Nat) (toDdr : Bool) (dst n : Nat) : s.keepsJobs (s.copyRows q fromDdr src toDdr dst n).1 := by
  induction n generalizing s src dst with
  | zero => exact refl s
  | succ n ih =>
    have read := ringRead s fromDdr src (some q)
    rw [State.copyRows]
    split
    · next s1 found =>
      rw [found] at read
      exact read
    · next s1 d found =>
      rw [found] at read
      exact (read.trans (ringWrite s1 toDdr dst d)).trans (ih _ _ _)

theorem movePage (s : State) (q slot page : Nat) (toDdr : Bool) (src dst : Nat) : s.keepsJobs (s.movePage q slot page toDdr src dst).1 := by
  have copied := copyRows s q (!toDdr) (s.pageAddr q (!toDdr) src / 32) toDdr (s.pageAddr q toDdr dst / 32) pageRows
  unfold State.movePage
  split
  · next s1 found =>
    rw [found] at copied
    exact copied.trans (moveLost s1 q slot (!toDdr) src toDdr dst)
  · next s1 found =>
    rw [found] at copied
    have entered := setEntry s1 slot page (pageEntry toDdr dst)
    split
    · next s2 lost =>
      rw [lost] at entered
      exact (copied.trans entered).trans (moveLost s2 q slot (!toDdr) src toDdr dst)
    · next s2 written =>
      rw [written] at entered
      exact ((copied.trans entered).trans (freePage s2 q (!toDdr) src _)).trans (count _ _ _ _ _ _)

/-! ### The pager's queue and its runs (R281, R282) -/

theorem withdraw (s : State) (q slot : Nat) (which : PageMove → Bool) : s.keepsJobs (s.withdraw q slot which) := by
  refine (modPager s q _).trans (foldl (fun u m => ?_) _)
  split
  · exact freePage u q _ _ _
  · exact refl u

theorem dropMoves (s : State) (q slot : Nat) : s.keepsJobs (s.dropMoves q slot) := withdraw s q slot _

theorem queueDemotion (s : State) (q slot cls : Nat) : s.keepsJobs (s.queueDemotion q slot cls) := by
  refine (pagesIn s slot false).trans (foldl (fun u p => ?_) _)
  dsimp only
  split
  · exact refl u
  · exact queueMove u q _ _ _ _ _ _

theorem waterMarks (s : State) (q : Nat) : s.keepsJobs (s.waterMarks q) := by
  unfold State.waterMarks
  dsimp only
  split
  · refine trans (modPool s q _) (foldl (fun u slot => ?_) _)
    split
    · exact refl u
    · exact queueDemotion u q slot 3
  · exact modPool s q _

theorem startMove (s : State) (q : Nat) (ms : List PageMove) : s.keepsJobs (s.startMove q ms).1 := by
  induction ms generalizing s with
  | nil => exact refl s
  | cons m ms ih =>
    have dest : s.keepsJobs (s.destOf q m).1 := by
      unfold State.destOf
      split
      · exact newPage s q false
      · exact takeFor s q _ _
    rw [State.startMove]
    split
    · dsimp only
      exact modPager s q _
    · split
      · next s1 x found =>
        rw [found] at dest
        dsimp only at dest ⊢
        exact dest.trans (modPager s1 q _)
      · next s1 found =>
        rw [found] at dest
        exact dest.trans (ih s1)

theorem startAny (s : State) (order : List (Nat × Nat)) : s.keepsJobs (s.startAny order).1 := by
  induction order generalizing s with
  | nil => exact refl s
  | cons x rest ih =>
    obtain ⟨c, q⟩ := x
    have first := startMove s q ((s.pager q).queue.filter (fun m => m.cls == c))
    rw [State.startAny]
    split
    · next s1 found =>
      rw [found] at first
      exact first
    · next s1 found =>
      rw [found] at first
      exact first.trans (ih s1)

theorem pumpPages (n : Nat) (s : State) : s.keepsJobs (State.pumpPages n s) := by
  induction n generalizing s with
  | zero => exact refl s
  | succ n ih =>
    have started := startAny s pagerOrder
    rw [State.pumpPages]
    split
    · exact refl s
    · split
      · next s1 found =>
        rw [found] at started
        exact started.trans (ih s1)
      · next s1 found =>
        rw [found] at started
        exact started.trans (foldl (fun u q => of_onlyFills (.idleFill u q)) s1)

theorem pagerRun (s : State) (q : Nat) : s.keepsJobs (s.pagerRun q) := (waterMarks s q).trans (pumpPages 65 _)

theorem demoteNow (s : State) (q slot : Nat) : s.keepsJobs (s.demoteNow q slot) := by
  unfold State.demoteNow
  dsimp only
  refine trans (trans (trans ((withdraw s q slot _).trans (modPager _ q _)) (foldl (fun u m => movePage u q slot _ _ _ _) _)) (pagesIn _ slot false))
    (foldl (fun u p => ?_) _)
  have taken := takeFor u q true (u.ctx slot).tenant
  split
  · next t1 found =>
    rw [found] at taken
    exact taken
  · next t1 d found =>
    rw [found] at taken
    exact taken.trans (movePage t1 q slot _ _ _ _)

theorem makeRoom (s : State) (q need : Nat) (but : Option Nat) : s.keepsJobs (s.makeRoom q need but) := by
  refine foldl (fun u slot => ?_) s
  split
  · exact refl u
  · exact demoteNow u q slot

/-! ### Lanes (R277) -/

theorem handPage (s : State) (q slot j : Nat) : s.keepsJobs (s.handPage q slot j) := by
  have taken := newPage s q false
  unfold State.handPage
  split
  · next s1 found =>
    rw [found] at taken
    exact taken.trans (queueMove s1 q _ _ _ _ _ _)
  · next s1 p found =>
    rw [found] at taken
    split
    · have entered := setEntry s1 slot j (pageEntry false p.1)
      split
      · next s2 written =>
        rw [written] at entered
        exact taken.trans entered
      · next s2 lost =>
        rw [lost] at entered
        exact (taken.trans entered).trans (moveLost s2 q slot _ _ _ _)
    · exact taken.trans (queueMove s1 q _ _ _ _ _ _)

theorem placeLane (s : State) (q slot : Nat) : s.keepsJobs (s.placeLane q slot).1 := by
  unfold State.placeLane
  extract_lets n x moves comes fresh far need s1 c s2 s3 s4
  have listed : s.keepsJobs x.1 := entries s slot n
  clear_value x
  have roomy : s.keepsJobs s1 := (listed.trans (withdraw x.1 q slot _)).trans (makeRoom _ q need _)
  clear_value s1
  have active : s.keepsJobs s2 := roomy.trans (setCtx s1 slot _)
  clear_value s2
  have handed : s.keepsJobs s3 := active.trans (foldl (fun u j => handPage u q slot j) s2)
  clear_value s3
  have queued : s.keepsJobs s4 := handed.trans (foldl (fun u e => (takeFor u q false _).trans (queueMove _ q _ _ _ _ _ _)) s3)
  clear_value s4
  exact ite_fst listed (ite_fst listed (ite_fst ((queued.trans (dropMoves s4 q slot)).trans (setCtx _ slot _)) queued))

end State.keepsJobs

/-! ### The lane records of a hand-over (R277) -/

/-- The job of a partition has some pins and no wait for them, and has records of `n` lanes. -/
def State.lanesTaken (q pinned n : Nat) (s : State) : Prop := ∃ k, s.job q = some k ∧ k.pinned = pinned ∧ k.pins = false ∧ k.laneRecs.length = n

section Taken
variable {q pinned n : Nat} {s t : State}

theorem State.lanesTaken.of_keepsJobs (h : s.lanesTaken q pinned n) (g : s.keepsJobs t) : t.lanesTaken q pinned n := by
  obtain ⟨k, job, rest⟩ := h
  exact ⟨k, by rw [State.job, g.jobs]; exact job, rest⟩

theorem State.job_modJob_same {j : Job} (job : s.job q = some j) (f : Job → Job) : (s.modJob q f).job q = some (f j) := by
  rw [State.modJob, job]
  exact Tbl.get_put_same s.jobs none q (some (f j))

theorem State.lanesTaken.modJob {m : Nat} (h : s.lanesTaken q pinned n) {f : Job → Job} (pins : ∀ k, (f k).pinned = k.pinned ∧ (f k).pins = k.pins)
    (length : ∀ k, s.job q = some k → (f k).laneRecs.length = k.laneRecs.length + m) : (s.modJob q f).lanesTaken q pinned (n + m) := by
  obtain ⟨k, job, pin, wait, len⟩ := h
  exact ⟨f k, State.job_modJob_same job f, (pins k).1.trans pin, (pins k).2.trans wait, by rw [length k job, len]⟩

theorem State.takeLane_takes (h : s.lanesTaken q pinned n) (lane slot : Nat) :
    (s.takeLane q lane slot).lanesTaken q pinned (n + 1) ∧ (s.takeLane q lane slot).pinQueue = s.pinQueue := by
  unfold State.takeLane
  extract_lets s1 st x s2
  have looked : s.keepsJobs s1 := by
    simp only [s1]
    split
    · exact .lookup s slot
    · exact .refl s
  have placed : s.keepsJobs x.1 := by
    simp only [x]
    split
    · exact looked.trans (.placeLane s1 q slot)
    · exact looked
  have counted : s.keepsJobs s2 := by
    simp only [s2]
    split
    · exact placed
    · exact placed.trans (.count _ _ _ _ _ _)
  exact ⟨(h.of_keepsJobs counted).modJob (fun _ => ⟨rfl, rfl⟩) (fun k _ => by simp), by rw [State.modJob_pinQueue, counted.pins]⟩

theorem State.takeLanes_take (h : s.lanesTaken q pinned n) (slots : List (Nat × Nat)) :
    (slots.foldl (fun t p => t.takeLane q p.2 p.1) s).lanesTaken q pinned (n + slots.length) ∧
      (slots.foldl (fun t p => t.takeLane q p.2 p.1) s).pinQueue = s.pinQueue := by
  induction slots generalizing s n with
  | nil => exact ⟨h, rfl⟩
  | cons p slots ih =>
    obtain ⟨taken, line⟩ := State.takeLane_takes h p.2 p.1
    obtain ⟨rest, same⟩ := ih taken
    rw [List.foldl_cons, List.length_cons]
    exact ⟨by rw [show n + (slots.length + 1) = n + 1 + slots.length by omega]; exact rest, same.trans line⟩

theorem State.lanesReady_keeps (h : s.lanesTaken q pinned n) : (s.lanesReady q).lanesTaken q pinned n ∧ (s.lanesReady q).pinQueue = s.pinQueue := by
  obtain ⟨j, job, pin, wait, len⟩ := h
  unfold State.lanesReady
  split
  next none => rw [none] at job; cases job
  next i found =>
  obtain rfl : j = i := Option.some.inj (job.symm.trans found)
  extract_lets due s1 recs
  have written : s.keepsJobs s1 := .foldl (fun u r => .ringWrite u _ _ _) s
  have same : s1.job q = some j := by rw [State.job, written.jobs]; exact job
  refine ⟨⟨_, State.job_modJob_same same _, pin, wait, ?_⟩, by rw [State.modJob_pinQueue, written.pins]⟩
  simp only [recs, List.length_map, len]

end Taken

/-- The rows of a lane list name as many slots as the step has lanes. -/
theorem State.laneSlots_length (s : State) (q list lanes : Nat) : (s.laneSlots q list lanes).2.length = lanes ∧ s.keepsJobs (s.laneSlots q list lanes).1 := by
  have rows (n : Nat) : ((List.range n).foldl (fun (acc : State × List Nat) i =>
      let x := acc.1.ringRead false (acc.1.winRow q list + i) (some q)
      (x.1, acc.2 ++ (List.range (min 8 (lanes - 8 * i))).map (fun k => match x.2 with
        | some d => fieldOf d.toNat (32 * k) 32
        | none => 0xFFFFFFFF))) (s, [])).2.length = min (8 * n) lanes := by
    induction n with
    | zero => simp
    | succ n ih =>
      rw [List.range_succ, List.foldl_append, List.foldl_cons, List.foldl_nil]
      dsimp only
      rw [List.length_append, ih, List.length_map, List.length_range]
      omega
  refine ⟨(rows _).trans (by omega), ?_⟩
  exact List.foldlRecOn (motive := fun acc : State × List Nat => s.keepsJobs acc.1) _ _ (.refl s) fun acc kept i _ => kept.trans (.ringRead acc.1 _ _ _)

theorem State.handLanes_hands {s : State} {q : Nat} {j : Job} (job : s.job q = some j) (e : Entry) :
    (s.handLanes q e).lanesTaken q e.lanes e.lanes ∧ (s.handLanes q e).pinQueue = s.pinQueue := by
  unfold State.handLanes
  extract_lets s1 x s2
  have pinned : s1.lanesTaken q e.lanes 0 := ⟨_, State.job_modJob_same job _, rfl, rfl, rfl⟩
  obtain ⟨length, read⟩ := s1.laneSlots_length q e.laneList e.lanes
  obtain ⟨taken, line⟩ := State.takeLanes_take (pinned.of_keepsJobs read) x.2.zipIdx
  rw [List.length_zipIdx, length, Nat.zero_add] at taken
  have run := State.keepsJobs.pagerRun s2 q
  obtain ⟨ready, last⟩ := State.lanesReady_keeps (taken.of_keepsJobs run)
  refine ⟨ready, last.trans (run.pins.trans (line.trans (read.pins.trans ?_)))⟩
  exact State.modJob_pinQueue ..

theorem execPinWaitRelease_hands {s : State} {q : Nat} {rest : List Nat} {j : Job} {e : Entry} (line : s.pinQueue = q :: rest) (job : s.job q = some j)
    (entry : j.entry = some e) (room : s.pinsHeld + e.lanes ≤ 8192) :
    ∃ t k, exec (.pinWaitRelease q) s = .next t ∧ t.pinQueue = rest ∧ t.job q = some k ∧ k.pinned = e.lanes ∧ k.pins = false ∧ k.laneRecs.length = e.lanes := by
  have out : exec (.pinWaitRelease q) s = .next ({ s with pinQueue := rest }.handLanes q e) := by
    show execPinWaitRelease q s = _
    simp only [execPinWaitRelease, line, job, Option.bind_some, entry, true_and, room, if_true]
  obtain ⟨⟨k, own, pins, wait, length⟩, left⟩ := State.handLanes_hands (s := { s with pinQueue := rest }) job e
  exact ⟨_, k, out, left, own, pins, wait, length⟩

end Sys2Proof.Machine
end

section
/-! PROOF. Contexts, pools and pages: the obligation (11_contexts_and_kv.md R269-R287). -/

namespace Sys2Proof.Machine

theorem execPageMoveComplete_of_none {s : State} {q id : Nat} (none : ∀ m, m ∈ (s.pager q).flight → m.id ≠ id) : exec (.pageMoveComplete q id) s = .next s := by
  have missed : (s.pager q).flight.find? (fun m => m.id == id) = .none := List.find?_eq_none.2 fun m mem => by simp [none m mem]
  show execPageMoveComplete q id s = _
  rw [execPageMoveComplete, missed]

theorem execPageReleaseComplete_of_other {s : State} {slot : Nat} (other : (s.ctx slot).st ≠ .releasing) : exec (.pageReleaseComplete slot) s = .next s :=
  congrArg Host.Outcome.next (if_pos (.inl other))

theorem execPinWaitRelease_of_other {s : State} {q : Nat} (other : s.pinQueue.head? ≠ some q) : exec (.pinWaitRelease q) s = .next s := by
  show execPinWaitRelease q s = _
  unfold execPinWaitRelease
  split
  · next p rest e line entry =>
    rw [line, List.head?_cons] at other
    rw [if_neg fun first => other (congrArg some first.1)]
  · rfl

/-- Settles O40, command by command: what an operation does to its own slot and leaves of the others, the pager's runs as damage marks, page fills and moves that leave descriptors and jobs. -/
theorem contextsPoolsAndPages : Obligations.ContextsPoolsAndPages := by
  unfold Obligations.ContextsPoolsAndPages
  refine ⟨fun s sess op v i passed named => ?_, fun s sess slot q v passed fields slotNo poolNo small applied free front back two spans => ?_,
    fun s sess slot v c passed slotNo held => ?_, fun s sess q _ passed => ⟨execPoolApply_of_busy passed, fun bare unheld whole hbmOffset below ddrOffset noDdr lanes window rows some32 most _ unpaged => ?_⟩,
    fun s q id none => execPageMoveComplete_of_none none,
    fun s q i m _ flight kind page dst bare queue unheld => execPageMoveComplete_fills flight kind page dst bare queue unheld,
    fun s slot other => execPageReleaseComplete_of_other other, fun s slot c held releasing flight empty map commit unopened => ?_,
    fun s q other => execPinWaitRelease_of_other other, fun s q rest j e line job entry room => execPinWaitRelease_hands line job entry room⟩
  · exact ⟨ctxOperation.of_bad passed named, ctxOperation.of_free passed named, ctxOperation.beside passed named⟩
  · obtain ⟨t, now, out, answered, opened, zeros⟩ := execCtxOpen_fills passed fields slotNo poolNo small applied free front back two spans
    refine ⟨t, out, answered, ?_⟩
    rw [opened]
    exact ⟨rfl, rfl, rfl, rfl, rfl, rfl, rfl, rfl, rfl, rfl, rfl, zeros⟩
  · refine ⟨fun fields idle => ?_, execCtxClose_closes passed slotNo held, fun usable => ⟨execCtxSetPosition_answers passed slotNo held usable,
      execCtxSetPriority_answers passed slotNo held usable, fun fields => ?_, execCtxUnpin_answers passed slotNo held usable, fun fields => ?_⟩,
      fun fields taken => execCtxDemote_of_none passed slotNo held taken fields, fun fields taken => execCtxDemote_of_busy passed slotNo held taken fields,
      fun fields idle tier unpinned => ?_, fun fields taken => execCtxRead_answers passed slotNo held taken fields⟩ <;> subst slotNo held
    · exact execCtxClose_releases passed fields idle
    · exact execCtxPin_pins passed fields usable
    · exact execCtxPromote_keeps passed fields usable
    · exact execCtxDemote_keeps passed fields idle tier unpinned
  · obtain ⟨t, out, answered, layout, hbm, ctxs⟩ := execPoolApply_lays passed bare unheld whole hbmOffset below ddrOffset noDdr lanes window rows some32 most unpaged
    simp only [CtxPool.layout, Prod.mk.injEq] at layout
    obtain ⟨applied, size, area, bytes⟩ := layout
    exact ⟨t, out, answered, applied, size, area, bytes, hbm, ctxs⟩
  · subst held
    exact execPageReleaseComplete_frees releasing flight empty map commit unopened

end Sys2Proof.Machine
end

section
/-! PROOF. What the operations of a Causeway port leave: its registers by subindex, and its fields but for those of traffic (14_causeway_links.md R325-R332). -/

namespace Sys2Proof.Machine

/-! ### A port after a change -/

@[simp] theorem State.port_modPort_same (s : State) (k : Nat) (f : Port → Port) : (s.modPort k f).port k = f (s.port k) := Tbl.get_put_same ..

theorem State.port_modPort_ne (s : State) {k j : Nat} (f : Port → Port) (h : j ≠ k) : (s.modPort k f).port j = s.port j := Tbl.get_put_other _ _ _ _ _ _ h

theorem State.port_congr {s t : State} (h : t.ports = s.ports) (j : Nat) : t.port j = s.port j := by rw [State.port, h, State.port]

@[simp] theorem State.port_setObj (s : State) (i j e v k : Nat) : (s.setObj i j e v).port k = s.port k := rfl
@[simp] theorem State.port_count (s : State) (i j e w n k : Nat) : (s.count i j e w n).port k = s.port k := rfl
@[simp] theorem State.port_emit (s : State) (m : Msg) (k : Nat) : (s.emit m).port k = s.port k := rfl
@[simp] theorem State.obj_modPort (s : State) (k : Nat) (f : Port → Port) (i j e : Nat) : (s.modPort k f).obj i j e = s.obj i j e := rfl

/-- An object after a write to another subindex. -/
theorem State.obj_setObj_sub_ne (s : State) {i j e i' j' e' : Nat} (v : Nat) (hj : j < 256) (he : e < 65536) (hj' : j' < 256) (he' : e' < 65536) (h : j ≠ j') :
    (s.setObj i' j' e' v).obj i j e = s.obj i j e := s.obj_setObj_ne v hj he hj' he' (.inr (.inl h))

/-! ### A frame for port operations -/

/-- What the departure of slots does not touch of a port. -/
def Port.beside (p : Port) : Port := { p with txSeq := 0, credits := [], stuck := [], stalled := none }

/-- The receiver's place in the stream of flits, and a port_reset that waits. -/
def Port.reception (p : Port) : Nat × Bool × Option Nat := (p.rxSeq, p.discarding, p.latch)

/-- Only registers of the listed subindices, messages and ports differ, and no port in its view `π`. -/
structure State.onlyPorts {α : Type} (subs : List Nat) (π : Port → α) (s t : State) : Prop where
  frame : t = { s with regs := t.regs, sent := t.sent, ports := t.ports }
  regs : ∀ i j e, j < 256 → e < 65536 → j ∉ subs → t.obj i j e = s.obj i j e
  view : ∀ j, π (t.port j) = π (s.port j)
  sent : ∀ m ∈ s.sent, m ∈ t.sent

namespace State.onlyPorts
variable {α : Type} {subs : List Nat} {π : Port → α}

theorem refl (s : State) : s.onlyPorts subs π s := ⟨rfl, fun _ _ _ _ _ _ => rfl, fun _ => rfl, fun _ h => h⟩

section Kept
variable {s t : State} (h : s.onlyPorts subs π t)
include h

theorem trans {u : State} (g : t.onlyPorts subs π u) : s.onlyPorts subs π u :=
  ⟨g.frame.trans (by rw [h.frame]), fun i j e hj he hs => (g.regs i j e hj he hs).trans (h.regs i j e hj he hs), fun j => (g.view j).trans (h.view j),
    fun m mem => g.sent m (h.sent m mem)⟩

theorem setObj (i e v : Nat) {j : Nat} (small : j < 256) (element : e < 65536) (listed : j ∈ subs) : s.onlyPorts subs π (t.setObj i j e v) :=
  h.trans ⟨rfl, fun _ _ _ hj he hs => t.obj_setObj_sub_ne v hj he small element (fun same => hs (same ▸ listed)), fun _ => rfl, fun _ mem => mem⟩

theorem count (i w n : Nat) {j : Nat} (small : j < 256) (listed : j ∈ subs) : s.onlyPorts subs π (t.count i j 0 w n) := h.setObj i 0 _ small (by decide) listed

theorem emit (m : Msg) : s.onlyPorts subs π (t.emit m) := h.trans ⟨rfl, fun _ _ _ _ _ _ => rfl, fun _ => rfl, fun _ mem => List.mem_cons_of_mem _ mem⟩

theorem modPort (k : Nat) {f : Port → Port} (kept : ∀ x, π (f x) = π x) : s.onlyPorts subs π (t.modPort k f) := by
  refine h.trans ⟨rfl, fun _ _ _ _ _ _ => rfl, fun j => ?_, fun _ mem => mem⟩
  by_cases same : j = k
  · subst same
    rw [State.port_modPort_same, kept]
  · rw [State.port_modPort_ne t f same]

theorem ite {c : Prop} [Decidable c] {u : State} (g : s.onlyPorts subs π u) : s.onlyPorts subs π (if c then t else u) := by
  split
  · exact h
  · exact g

theorem each {β : Type} {f : State → β → State} (xs : List β) (k : ∀ (u : State) x, u.onlyPorts subs π (f u x)) : s.onlyPorts subs π (t.each xs f) :=
  State.each_induction (s.onlyPorts subs π) h fun u x _ kept => kept.trans (k u x)

theorem reportFor (q : Option Nat) (c : Nat) (x y : Suspect) (st d : Nat) (u : Option Suspect) : s.onlyPorts subs π (t.reportFor q c x y st d u) := h.emit _

theorem weaken {subs' : List Nat} (sub : subs ⊆ subs') : s.onlyPorts subs' π t :=
  ⟨h.frame, fun i j e hj he hs => h.regs i j e hj he (fun mem => hs (sub mem)), h.view, h.sent⟩

theorem map {β : Type} {ρ : Port → β} (g : α → β) (same : ∀ x, ρ x = g (π x)) : s.onlyPorts subs ρ t :=
  ⟨h.frame, h.regs, fun j => by rw [same, same, h.view], h.sent⟩

/-! ### Slots that leave (R329-R331) -/

theorem countTx (sub : 5 ∈ subs) (k n : Nat) (kept : ∀ x v, π { x with txSeq := v } = π x) : s.onlyPorts subs π (t.countTx k n) :=
  (h.count _ _ _ (by decide) sub).modPort k fun x => kept x _

end Kept

/-- A view that the departure of slots leaves. -/
def unspent (π : Port → α) : Prop := ∀ (x : Port) (a : Nat) (b : List Nat) (c : List (Nat × Nat × Msg)) (d : Option Nat),
  π { x with txSeq := a, credits := b, stuck := c, stalled := d } = π x

theorem unspent_beside : unspent Port.beside := fun _ _ _ _ _ => rfl
theorem unspent_reception : unspent Port.reception := fun _ _ _ _ _ => rfl

section Sending
variable {s t : State} (h : s.onlyPorts subs π t) (view : unspent π)
include h view

theorem spendTx (sub : 5 ∈ subs) (k cls n : Nat) (m : Msg) : s.onlyPorts subs π (t.spendTx k cls n m) :=
  ((h.emit m).modPort k fun x => view x x.txSeq _ x.stuck x.stalled).countTx sub k _ fun x v => view x v x.credits x.stuck x.stalled

theorem sendSlots (sub : 5 ∈ subs) (k cls n : Nat) (m : Msg) : s.onlyPorts subs π (t.sendSlots k cls n m) :=
  ite ((h.emit m).countTx sub k _ fun x v => view x v x.credits x.stuck x.stalled)
    (ite (h.spendTx view sub k cls n m) (h.modPort k fun x => view x x.txSeq x.credits _ _))

theorem sendCtrl (sub : 5 ∈ subs) (k mtype body dst src hops : Nat) : s.onlyPorts subs π (t.sendCtrl k mtype body dst src hops) := h.sendSlots view sub ..

theorem pumpStuck (sub : 5 ∈ subs) (k : Nat) : s.onlyPorts subs π (t.pumpStuck k) :=
  each (h.modPort k fun x => view x x.txSeq x.credits [] x.stalled) _ fun u e => (refl u).sendSlots view sub ..

theorem countCredit (sub : 0xD ∈ subs) (k : Nat) : s.onlyPorts subs π (t.countCredit k) := by
  unfold State.countCredit
  split
  · exact h
  · exact (h.count _ _ _ (by decide) sub).modPort k fun x => view x x.txSeq x.credits x.stuck _

theorem sendTopo (sub : 5 ∈ subs) : s.onlyPorts subs π t.sendTopo := ite h (h.each _ fun u k => (refl u).sendCtrl view sub ..)

end Sending

/-! ### States of a port (R325) -/

theorem event {s t : State} (h : s.onlyPorts subs π t) (sub : 4 ∈ subs) (code q a x : Nat) : s.onlyPorts subs π (t.event code q a x) :=
  (h.emit _).count _ _ _ (by decide) sub

theorem toPortState {s t : State} (h : s.onlyPorts subs π t) (own : 1 ∈ subs) (sub : 4 ∈ subs) (k v : Nat) : s.onlyPorts subs π (t.toPortState k v) :=
  ite h ((h.setObj _ _ _ (by decide) (by decide) own).event sub ..)

end State.onlyPorts

/-! ### The state of a port -/

theorem State.portState_toPortState (s : State) (k v : Nat) : (s.toPortState k v).portState k = v := by
  have events (t : State) : (t.event 0x04 0xF 0 (k + v * 256)).portState k = t.portState k :=
    ((State.onlyPorts.refl t).event (π := fun _ => ()) (subs := [4]) (by decide) ..).regs _ 1 0 (by decide) (by decide) (by decide)
  unfold State.toPortState
  split
  · next same => exact same
  · rw [events]
    exact State.obj_setObj_same ..

theorem State.toPortState_ports (s : State) (k v : Nat) : (s.toPortState k v).ports = s.ports := by
  unfold State.toPortState
  split
  · rfl
  · rfl

/-- A port's state is its object; nothing but registers and messages differs, and no register of a subindex but 1 and 4. -/
theorem State.toPortState_frame (s : State) (k v : Nat) : s.onlyPorts [1, 4] id (s.toPortState k v) := (State.onlyPorts.refl s).toPortState (by decide) (by decide) k v

theorem State.portState_train (s : State) (k : Nat) (resume : Option Nat) : (s.train k resume).portState k = 1 := State.portState_toPortState ..

theorem State.train_ports (s : State) (k : Nat) (resume : Option Nat) :
    (s.train k resume).ports = (s.modPort k (fun p => { p with locked := [], prbsDone := false, resume := resume })).ports := State.toPortState_ports ..

theorem State.port_train_same (s : State) (k : Nat) (resume : Option Nat) :
    (s.train k resume).port k = { s.port k with locked := [], prbsDone := false, resume := resume } :=
  (State.port_congr (s.train_ports k resume) k).trans (State.port_modPort_same ..)

theorem State.port_train_ne (s : State) {k j : Nat} (resume : Option Nat) (h : j ≠ k) : (s.train k resume).port j = s.port j :=
  (State.port_congr (s.train_ports k resume) j).trans (State.port_modPort_ne _ _ h)

theorem State.train_frame (s : State) (k : Nat) (resume : Option Nat) : s.onlyPorts [1, 4] Port.reception (s.train k resume) := by
  have opened : s.onlyPorts [1, 4] Port.reception (s.modPort k (fun p => { p with locked := [], prbsDone := false, resume := resume })) :=
    (State.onlyPorts.refl s).modPort k fun _ => rfl
  exact opened.toPortState (by decide) (by decide) k psTraining

theorem State.portUp_iff (s : State) (k : Nat) : s.portUp k = true ↔ s.portState k = 2 ∨ s.portState k = 3 := by
  simp [State.portUp]

/-! ### A slot that leaves at once (R331) -/

section Spend
variable (s : State) (k cls n : Nat) (m : Msg)

theorem State.spendTx_sameRegs : s.sameRegs (s.spendTx k cls n m) [okey (0x4010 + k) 5 0] :=
  State.sameRegs_congr (State.sameRegs_count (t := (s.emit m).modPort k (fun x => { x with credits := x.credits.modify cls (· - n) })) _ _ _ _ _
    (State.sameRegs_of_regs rfl _) (by simp)) rfl

theorem State.port_spendTx_same : (s.spendTx k cls n m).port k =
    { s.port k with credits := (s.port k).credits.modify cls (· - n), txSeq := ((s.port k).txSeq + (n + 3) / 4) % 65536 } := by
  rw [State.spendTx, State.countTx, State.port_modPort_same, State.port_count, State.port_modPort_same, State.port_emit]

theorem State.port_spendTx_ne {j : Nat} (h : j ≠ k) : (s.spendTx k cls n m).port j = s.port j := by
  rw [State.spendTx, State.countTx, State.port_modPort_ne _ _ h, State.port_count, State.port_modPort_ne _ _ h, State.port_emit]

end Spend

/-- With nothing waiting and credits, a slot leaves at once. -/
theorem State.sendSlots_now {s : State} {k cls n : Nat} (up : s.portUp k = true) (free : (s.port k).stuck = []) (room : s.roomTx k cls n = true) (m : Msg) :
    s.sendSlots k cls n m = s.spendTx k cls n m := by
  rw [State.sendSlots, if_neg (by simp [up]), if_pos (by simp [free, room])]

end Sys2Proof.Machine
end

section
/-! PROOF. Flits, what they carry and what a port then takes up (14_causeway_links.md R329-R332, R353). -/

namespace Sys2Proof.Machine

/-- The subindices of a port's registers that a flit in sequence, and the traffic it lets go on, may change beside the count of flits received. -/
abbrev flitSubs : List Nat := [1, 4, 5, 7, 0xD, 0xF]

/-- The subindices of the registers that a port's waiting traffic may change: flits sent, time waited for credit. -/
abbrev pumpSubs : List Nat := [5, 0xD]

namespace State.onlyPorts

/-! ### What waits at a port (R331, R338, R339) -/

section Waiting
variable {s t : State} (h : s.onlyPorts pumpSubs Port.reception t)
include h

theorem refuseIngress (k hop : Nat) (p : Packet) (st : Nat) : s.onlyPorts pumpSubs Port.reception (t.refuseIngress k hop p st) := h.modPort k fun _ => by rfl

theorem enterMesh (k hop dst : Nat) (p : Packet) : s.onlyPorts pumpSubs Port.reception (t.enterMesh k hop dst p) := (h.modPort k fun _ => by rfl).emit _

theorem leave (k hop : Nat) (p : Packet) : s.onlyPorts pumpSubs Port.reception (t.leave k hop p) := by
  unfold State.leave
  refine countTx (emit (h.modPort k fun x => ?_) _) (by decide) k _ fun _ _ => rfl
  dsimp only
  split
  · rfl
  · rfl

theorem pumpTraffic (k : Nat) : s.onlyPorts pumpSubs Port.reception (t.pumpTraffic k) := by
  unfold State.pumpTraffic
  extract_lets wait s1 ins
  have sent : s.onlyPorts pumpSubs Port.reception s1 := by
    refine each (h.modPort k fun _ => by rfl) _ fun u e => ?_
    exact ite ((refl u).leave k e.1 e.2) ((refl u).modPort k fun _ => by rfl)
  clear_value s1
  refine each (sent.modPort k fun _ => by rfl) _ fun u e => ?_
  split
  · split
    · exact (refl u).enterMesh ..
    · exact (refl u).refuseIngress ..
  · exact (refl u).modPort k fun _ => by rfl

end Waiting

theorem of_pumpPort (s : State) (k : Nat) : s.onlyPorts pumpSubs Port.reception (s.pumpPort k) := by
  unfold State.pumpPort
  extract_lets x s1
  have credited := (refl (subs := pumpSubs) s).countCredit unspent_reception (by decide) k
  have taken : s.onlyPorts pumpSubs Port.reception s1 := (credited.pumpStuck unspent_reception (by decide) k).pumpTraffic k
  clear_value s1
  exact ite (refl s) (taken.modPort k fun _ => by rfl)

/-! ### What a flit carries (R329-R332, R341) -/

variable {s t : State} (h : s.onlyPorts flitSubs Port.reception t)
include h

theorem pumpPort (k : Nat) : s.onlyPorts flitSubs Port.reception (t.pumpPort k) := h.trans ((of_pumpPort t k).weaken (by decide))

theorem discardUnit (k : Nat) : s.onlyPorts flitSubs Port.reception (t.discardUnit k) := h.count _ _ _ (by decide) (by decide)

theorem takeCtrl (k : Nat) (w : Codeword) : s.onlyPorts flitSubs Port.reception (t.takeCtrl k w) := by
  unfold State.takeCtrl
  extract_lets m
  refine ite (h.discardUnit k) (ite (h.discardUnit k) (ite ?_ (h.emit _)))
  split
  · exact ite (h.discardUnit k) (h.sendCtrl unspent_reception (by decide) ..)
  · exact h.discardUnit k

theorem takeSlot (k cls kind : Nat) (w : Codeword) : s.onlyPorts flitSubs Port.reception (t.takeSlot k cls kind w) := by
  unfold State.takeSlot
  extract_lets s1
  have owed : s.onlyPorts flitSubs Port.reception s1 := h.modPort k fun _ => by rfl
  clear_value s1
  exact ite h (ite (h.discardUnit k) (ite (owed.takeCtrl k w) (owed.emit _)))

theorem ackFlits (k a : Nat) : s.onlyPorts flitSubs Port.reception (t.ackFlits k a) := by
  refine h.modPort k fun x => ?_
  split
  · rfl
  · rfl

theorem nakFlits (k a : Nat) : s.onlyPorts flitSubs Port.reception (t.nakFlits k a) := by
  unfold State.nakFlits
  extract_lets n s1
  have acked : s.onlyPorts flitSubs Port.reception s1 := (h.ackFlits k a).modPort k fun _ => by rfl
  clear_value s1 n
  refine ite (acked.trans ((State.train_frame ..).weaken (by decide))) ?_
  refine emit (modPort (acked.count _ 32 1 (j := 7) (by decide) (by decide)) k fun _ => ?_) _
  rfl

end State.onlyPorts

/-! ### A flit that is refused (R332) -/

/-- The state in which a bad flit is refused: its lane noted where its codeword was bad, the NAK sent. -/
theorem State.refuseFlit_naks {s : State} {k : Nat} (good : Bool) (taking : (s.port k).discarding = false) :
    (s.refuseFlit k good).sent = .linkAck k (((s.port k).rxSeq + 65535) % 65536) true :: s.sent ∧
      (s.refuseFlit k good).obj (0x4010 + k) 0xC = min (s.obj (0x4010 + k) 0xC + 1) (2 ^ 32 - 1) ∧ ((s.refuseFlit k good).port k).discarding = true ∧
      ((s.refuseFlit k good).port k).rxSeq = (s.port k).rxSeq ∧ (∀ j, j ≠ k → (s.refuseFlit k good).port j = s.port j) ∧
      s.refuseFlit k good = { s with regs := (s.refuseFlit k good).regs, sent := (s.refuseFlit k good).sent, ports := (s.refuseFlit k good).ports } := by
  unfold State.refuseFlit
  dsimp only
  rw [taking, if_neg (by decide)]
  obtain ⟨s1, noted, sent, count, seq, others, frame⟩ : ∃ s1 : State, (if good = true then s else (s.count (0x4010 + k) 0xB (s.laneOfSeq k (s.port k).rxSeq) 32).modPort k
        (fun p => { p with laneBad := (s.laneOfSeq k (s.port k).rxSeq, s.elapsed) :: p.laneBad })) = s1 ∧ s1.sent = s.sent ∧
      s1.obj (0x4010 + k) 0xC = s.obj (0x4010 + k) 0xC ∧ (s1.port k).rxSeq = (s.port k).rxSeq ∧ (∀ j, j ≠ k → s1.port j = s.port j) ∧
      s1 = { s with regs := s1.regs, sent := s1.sent, ports := s1.ports } := by
    refine ⟨_, rfl, ?_⟩
    split
    · exact ⟨rfl, rfl, rfl, fun _ _ => rfl, rfl⟩
    · refine ⟨rfl, ?_, ?_, fun j other => ?_, rfl⟩
      · have lane : s.laneOfSeq k (s.port k).rxSeq < 65536 := Nat.lt_of_lt_of_le (Nat.mod_lt _ (by decide)) (by decide)
        exact s.obj_setObj_sub_ne _ (by decide) (by decide) (by decide) lane (by decide)
      · rw [State.port_modPort_same, State.port_count]
      · rw [State.port_modPort_ne _ _ other, State.port_count]
  rw [noted]
  refine ⟨congrArg (_ :: ·) sent, ?_, ?_, ?_, fun j other => ?_, ?_⟩
  · rw [State.obj_emit, State.obj_modPort, State.obj_count_same, count]
  · rw [State.port_emit, State.port_modPort_same]
  · rw [State.port_emit, State.port_modPort_same, State.port_count, seq]
  · rw [State.port_emit, State.port_modPort_ne _ _ other, State.port_count, others j other]
  · rw [frame]
    rfl

theorem execFlitReceive_refuses {s : State} {k : Nat} {f : Flit} {ok : Bool} (up : s.portUp k = true) (bad : ok = false ∨ flitCrcOk f = false) :
    exec (.flitReceive k f ok) s = .next (s.refuseFlit k ok) := by
  refine congrArg Host.Outcome.next ((if_neg (by simp [up])).trans (if_pos ?_))
  obtain bad | bad := bad
  · exact .inl (by simp [bad])
  · exact .inr (by simp [bad])

theorem execFlitReceive_of_down {s : State} {k : Nat} (f : Flit) (ok : Bool) (down : s.portUp k = false) : exec (.flitReceive k f ok) s = .next s :=
  congrArg Host.Outcome.next (if_pos (by simp [down]))

theorem execFlitReceive_of_discarding {s : State} {k : Nat} {f : Flit} {ok : Bool} (bad : ok = false ∨ flitCrcOk f = false) (discarding : (s.port k).discarding = true) :
    exec (.flitReceive k f ok) s = .next s := by
  by_cases up : s.portUp k = true
  · rw [execFlitReceive_refuses up bad]
    exact congrArg Host.Outcome.next (if_pos discarding)
  · exact execFlitReceive_of_down f ok (by simpa using up)

theorem execFlitReceive_of_other {s : State} {k : Nat} {f : Flit} (sound : flitCrcOk f = true) (other : flitSeq f ≠ (s.port k).rxSeq) :
    exec (.flitReceive k f true) s = .next s := by
  by_cases up : s.portUp k = true
  · exact congrArg Host.Outcome.next ((if_neg (by simp [up])).trans ((if_neg (by simp [sound])).trans (if_pos other)))
  · exact execFlitReceive_of_down f true (by simpa using up)

/-! ### A flit in sequence (R329, R331) -/

theorem execFlitReceive_accepts {s : State} {k : Nat} {f : Flit} (up : s.portUp k = true) (sound : flitCrcOk f = true) (next : flitSeq f = (s.port k).rxSeq) :
    ∃ t, exec (.flitReceive k f true) s = .next t ∧ (t.port k).rxSeq = (flitSeq f + 1) % 65536 ∧ (t.port k).discarding = false ∧
      t.obj (0x4010 + k) 6 = min (s.obj (0x4010 + k) 6 + 1) (2 ^ 64 - 1) ∧ t = { s with regs := t.regs, sent := t.sent, ports := t.ports } := by
  obtain ⟨s1, opened⟩ : ∃ s1, s1 = (s.count (0x4010 + k) 6 0 64).modPort k (fun p => { p with
      rxSeq := (flitSeq f + 1) % 65536, discarding := false, credits := p.credits.zipIdx.map (fun x => x.1 + flitCredits f x.2) }) := ⟨_, rfl⟩
  have received : (s1.port k).rxSeq = (flitSeq f + 1) % 65536 ∧ (s1.port k).discarding = false ∧ s1.obj (0x4010 + k) 6 = min (s.obj (0x4010 + k) 6 + 1) (2 ^ 64 - 1) ∧
      s1 = { s with regs := s1.regs, sent := s1.sent, ports := s1.ports } := by
    refine ⟨?_, ?_, ?_, ?_⟩
    · rw [opened, State.port_modPort_same]
    · rw [opened, State.port_modPort_same]
    · rw [opened, State.obj_modPort, State.obj_count_same]
    · rw [opened]
      rfl
  have run : exec (.flitReceive k f true) s = .next ((if flitAckKind f = 1 then (s1.each f.slots.zipIdx (fun t x => t.takeSlot k (flitClass f x.2) (slotKind f x.2) x.1)).ackFlits k (flitAckSeq f)
      else if flitAckKind f = 2 then (s1.each f.slots.zipIdx (fun t x => t.takeSlot k (flitClass f x.2) (slotKind f x.2) x.1)).nakFlits k (flitAckSeq f)
      else s1.each f.slots.zipIdx (fun t x => t.takeSlot k (flitClass f x.2) (slotKind f x.2) x.1)).pumpPort k) := by
    rw [opened]
    exact congrArg Host.Outcome.next ((if_neg (by simp [up])).trans ((if_neg (by simp [sound])).trans (if_neg (by simp [next]))))
  clear opened
  obtain ⟨s2, taken, slots⟩ : ∃ s2, s2 = s1.each f.slots.zipIdx (fun t x => t.takeSlot k (flitClass f x.2) (slotKind f x.2) x.1) ∧ s1.onlyPorts flitSubs Port.reception s2 :=
    ⟨_, rfl, (State.onlyPorts.refl s1).each _ fun u x => (State.onlyPorts.refl u).takeSlot ..⟩
  rw [← taken] at run
  have pumped : s1.onlyPorts flitSubs Port.reception ((if flitAckKind f = 1 then s2.ackFlits k (flitAckSeq f) else if flitAckKind f = 2 then s2.nakFlits k (flitAckSeq f) else s2).pumpPort k) :=
    ((slots.ackFlits k _).ite ((slots.nakFlits k _).ite slots)).pumpPort k
  obtain ⟨seq, taking, count, frame⟩ := received
  have view := pumped.view k
  simp only [Port.reception, Prod.mk.injEq] at view
  refine ⟨_, run, view.1.trans seq, view.2.1.trans taking, (pumped.regs _ 6 0 (by decide) (by decide) (by decide)).trans count, ?_⟩
  generalize (if flitAckKind f = 1 then s2.ackFlits k (flitAckSeq f) else if flitAckKind f = 2 then s2.nakFlits k (flitAckSeq f) else s2).pumpPort k = t at pumped
  have own := pumped.frame
  rw [frame] at own
  exact own

/-! ### Acknowledgements (R329, R331) -/

theorem execAckSend_acknowledges {s : State} {k : Nat} (up : s.portUp k = true) :
    ∃ t, exec (.ackSend k) s = .next t ∧
      t.sent = .credits k ((s.port k).owed.map (min 255)) :: .linkAck k (((s.port k).rxSeq + 65535) % 65536) false :: s.sent ∧
      (t.port k).owed = (s.port k).owed.map (fun v => v - min 255 v) ∧ (t.port k).txSeq = ((s.port k).txSeq + 1) % 65536 ∧
      (∀ j, j ≠ k → t.port j = s.port j) ∧ t = { s with regs := t.regs, sent := t.sent, ports := t.ports } ∧ s.sameRegs t [okey (0x4010 + k) 5 0] := by
  refine ⟨_, congrArg Host.Outcome.next (if_neg (by simp [up])), rfl, ?_, ?_, fun j other => ?_, rfl, ?_⟩
  · rw [State.port_modPort_same, State.countTx, State.port_modPort_same, State.port_count, State.port_emit, State.port_emit]
  · rw [State.port_modPort_same, State.countTx, State.port_modPort_same, State.port_count, State.port_emit, State.port_emit]
  · rw [State.port_modPort_ne _ _ other, State.countTx, State.port_modPort_ne _ _ other, State.port_count, State.port_emit, State.port_emit]
  · refine State.sameRegs_congr (State.sameRegs_count _ _ _ _ _ ?_ (by simp)) rfl
    exact State.sameRegs_of_regs rfl _

/-- Settles O17: which flits a port takes by their number and their check, a frame for everything a flit in sequence sets off. -/
theorem flitsAndAcknowledgements : Obligations.FlitsAndAcknowledgements := by
  unfold Obligations.FlitsAndAcknowledgements
  refine ⟨fun s k f ok down => execFlitReceive_of_down f ok down, fun s k f ok _ up bad taking => ⟨_, execFlitReceive_refuses up bad, State.refuseFlit_naks ok taking⟩,
    fun s k f ok bad discarding => execFlitReceive_of_discarding bad discarding, fun s k f sound other => execFlitReceive_of_other sound other,
    fun s k f _ up sound next => execFlitReceive_accepts up sound next, fun s k _ up => execAckSend_acknowledges up,
    fun s k down => congrArg Host.Outcome.next (if_pos (by simp [down]))⟩

end Sys2Proof.Machine
end

section
/-! PROOF. Lane changes of a port: checks, requests, answers and switch points (14_causeway_links.md R333, R334, R342). -/

namespace Sys2Proof.Machine

/-! ### Fields of a word -/

theorem setField_lt (v lo w x : Nat) : 2 ^ lo * (x % 2 ^ w) + v % 2 ^ lo < 2 ^ (lo + w) := by
  have low := Nat.mod_lt v (Nat.two_pow_pos lo)
  have field := Nat.mod_lt x (Nat.two_pow_pos w)
  calc 2 ^ lo * (x % 2 ^ w) + v % 2 ^ lo < 2 ^ lo * (x % 2 ^ w + 1) := by rw [Nat.mul_add]; omega
    _ ≤ 2 ^ lo * 2 ^ w := Nat.mul_le_mul_left _ field
    _ = 2 ^ (lo + w) := (Nat.pow_add ..).symm

theorem setField_div (v lo w x : Nat) : setField v lo w x / 2 ^ (lo + w) = v / 2 ^ (lo + w) := by
  rw [setField, Nat.add_assoc, Nat.mul_add_div (Nat.two_pow_pos _), Nat.div_eq_of_lt (setField_lt ..), Nat.add_zero]

theorem setField_mod (v lo w x : Nat) : setField v lo w x % 2 ^ lo = v % 2 ^ lo := by
  rw [setField, Nat.pow_add, Nat.mul_assoc, ← Nat.mul_add, Nat.mul_add_mod, Nat.mod_mod]

theorem fieldOf_eq_mod_div (v lo w : Nat) : fieldOf v lo w = v % 2 ^ (lo + w) / 2 ^ lo := by
  rw [fieldOf, Nat.pow_add, Nat.mod_mul_right_div_self]

/-- The field written reads what was written. -/
theorem fieldOf_setField_same (v lo w x : Nat) : fieldOf (setField v lo w x) lo w = x % 2 ^ w := by
  have low := Nat.mod_lt v (Nat.two_pow_pos lo)
  rw [fieldOf, setField, Nat.pow_add, Nat.mul_assoc, ← Nat.mul_add, Nat.mul_add_div (Nat.two_pow_pos _), Nat.div_eq_of_lt low, Nat.add_zero, Nat.mul_add_mod, Nat.mod_mod]

/-- A field below the one written. -/
theorem fieldOf_setField_below {v lo w x lo' w' : Nat} (h : lo' + w' ≤ lo) : fieldOf (setField v lo w x) lo' w' = fieldOf v lo' w' := by
  have divides : 2 ^ (lo' + w') ∣ 2 ^ lo := Nat.pow_dvd_pow 2 h
  rw [fieldOf_eq_mod_div, fieldOf_eq_mod_div, ← Nat.mod_mod_of_dvd _ divides, setField_mod, Nat.mod_mod_of_dvd _ divides]

/-- A field above the one written. -/
theorem fieldOf_setField_above {v lo w x lo' w' : Nat} (h : lo + w ≤ lo') : fieldOf (setField v lo w x) lo' w' = fieldOf v lo' w' := by
  obtain ⟨d, rfl⟩ := Nat.exists_eq_add_of_le h
  rw [fieldOf, fieldOf, Nat.pow_add, ← Nat.div_div_eq_div_mul, ← Nat.div_div_eq_div_mul, setField_div]

/-! ### LANE_SWAP and LANE_ACK (R342) -/

theorem swapBody_lane (seq lane : Nat) (drop : Bool) : fieldOf (BitVec.ofNat 224 (swapBody seq lane drop)).toNat 205 3 = lane % 8 := by
  rw [BitVec.toNat_ofNat, swapBody, fieldOf]
  split <;> omega

theorem swapBody_seq {seq lane : Nat} (small : lane < 8) (drop : Bool) : fieldOf (BitVec.ofNat 224 (swapBody seq lane drop)).toNat 208 16 = seq % 65536 := by
  rw [BitVec.toNat_ofNat, swapBody, fieldOf]
  split <;> omega

theorem mem_putSwap (xs : List Swap) (x : Swap) : x ∈ putSwap xs x := by
  unfold putSwap
  split
  · next listed =>
    obtain ⟨y, mem, lane⟩ := List.any_eq_true.1 listed
    exact List.mem_map.2 ⟨y, mem, if_pos (by simpa using lane)⟩
  · simp

/-- With nothing waiting and credits, a CTRL message leaves at once. -/
theorem State.sendCtrl_now {s : State} {k : Nat} (up : s.portUp k = true) (free : (s.port k).stuck = []) (room : s.roomTx k 8 1 = true) (mtype body dst src hops : Nat) :
    s.sendCtrl k mtype body dst src hops = s.spendTx k 8 1 (.ctrl k { mtype := mtype, dst := dst, src := src, hops := hops, body := BitVec.ofNat 224 body }) :=
  State.sendSlots_now up free room _

theorem State.port_sendCtrl_ne (s : State) {k j : Nat} (mtype body dst src hops : Nat) (h : j ≠ k) : (s.sendCtrl k mtype body dst src hops).port j = s.port j := by
  unfold State.sendCtrl State.sendSlots
  split
  · rw [State.countTx, State.port_modPort_ne _ _ h, State.port_count, State.port_emit]
  · split
    · exact State.port_spendTx_ne _ _ _ _ _ h
    · exact State.port_modPort_ne _ _ h

/-! ### LANE_SPARING_CHECK (R333) -/

/-- The elapsed counts of replays that a check still counts: those of the trailing second. -/
def State.recentMarks (s : State) (k : Nat) : List Nat := (s.port k).marks.filter (fun m => decide (s.elapsed < 4000000000 + m))

/-- The uncorrectable codewords of the trailing second, by lane. -/
def State.recentBad (s : State) (k : Nat) : List (Nat × Nat) := (s.port k).laneBad.filter (fun b => decide (s.elapsed < 4000000000 + b.2))

/-- The checks in a row that found more than 64 replays, this one among them. -/
def State.badRow (s : State) (k : Nat) : Nat := if (s.recentMarks k).length > 64 then (s.port k).badChecks + 1 else 0

/-- A check has been counted, nothing sent. -/
structure State.checked (s : State) (k : Nat) (t : State) : Prop where
  frame : t = { s with regs := t.regs, ports := t.ports }
  replays : t.obj (0x4010 + k) 8 = min 65535 (s.recentMarks k).length
  regs : ∀ i j e, j < 256 → e < 65536 → j ≠ 8 → t.obj i j e = s.obj i j e
  own : t.port k = { s.port k with marks := s.recentMarks k, laneBad := s.recentBad k, badChecks := s.badRow k }
  others : ∀ j, j ≠ k → t.port j = s.port j

/-- The request for a lane after the hundredth bad check. -/
def State.askSwap (s : State) (k lane : Nat) : State :=
  (s.sendCtrl k 0x02 (swapBody (s.switchPoint k) lane ((s.activeLanes k).any (fun i => s.laneOf k i == 4))) 0 0 0).modPort k (fun p => { p with
    badChecks := 0, swaps := putSwap p.swaps { lane := lane, drop := (s.activeLanes k).any (fun i => s.laneOf k i == 4), tx := some (s.switchPoint k) } })

theorem execLaneSparingCheck_checks {s : State} {k : Nat} (up : s.portUp k = true) : ∃ t, s.checked k t ∧
    exec (.laneSparingCheck k) s = .next (if s.badRow k < 100 then t else match t.worstLane k with
      | none => t
      | some lane => t.askSwap k lane) := by
  show ∃ t, s.checked k t ∧ execLaneSparingCheck k s = _
  unfold execLaneSparingCheck
  rw [if_neg (by simp [up])]
  extract_lets recent s1 n bad s2
  have own : s1.port k = { s.port k with marks := s.recentMarks k, laneBad := s.recentBad k } := State.port_modPort_same ..
  have others (j : Nat) (h : j ≠ k) : s1.port j = s.port j := State.port_modPort_ne _ _ h
  have regs (i j e : Nat) : s1.obj i j e = s.obj i j e := rfl
  have frame : s1 = { s with regs := s1.regs, ports := s1.ports } := rfl
  have count : n = (s.recentMarks k).length := congrArg (fun p : Port => p.marks.length) own
  have row : bad = s.badRow k := by
    show (if n > 64 then _ else _) = _
    rw [count]
    rfl
  have checked : s.checked k s2 := by
    clear_value s1 n bad
    refine ⟨?_, ?_, fun i j e hj he h => ?_, ?_, fun j h => ?_⟩
    · rw [show s2 = { s1 with regs := s2.regs, ports := s2.ports } from rfl, frame]
    · rw [State.obj_modPort, State.obj_setObj_same, count]
    · rw [State.obj_modPort, State.obj_setObj_sub_ne _ _ hj he (by decide) (by decide) h, regs]
    · rw [State.port_modPort_same, State.port_setObj, own, row]
    · rw [State.port_modPort_ne _ _ h, State.port_setObj, others j h]
  refine ⟨s2, checked, ?_⟩
  rw [← row]
  clear checked
  clear_value s2 bad
  rfl

theorem State.worstLane_congr {s t : State} {k : Nat} (bad : (t.port k).laneBad = (s.port k).laneBad) (lanes : t.obj (0x4010 + k) 2 = s.obj (0x4010 + k) 2)
    (fixed : ∀ i, t.obj (0x4010 + k) 0xA (s.laneOf k i) = s.obj (0x4010 + k) 0xA (s.laneOf k i)) : t.worstLane k = s.worstLane k := by
  have lane : t.laneOf k = s.laneOf k := funext fun i => by rw [State.laneOf, lanes, State.laneOf]
  have active : t.activeLanes k = s.activeLanes k := by rw [State.activeLanes, lane, State.activeLanes]
  unfold State.worstLane
  rw [bad, lane, active]
  simp only [fixed]

theorem State.laneOf_lt (s : State) (k i : Nat) : s.laneOf k i < 8 := Nat.mod_lt _ (by decide)

namespace State.checked
variable {s t : State} {k : Nat} (h : s.checked k t)
include h

theorem sent : t.sent = s.sent := by rw [h.frame]

theorem portUp : t.portUp k = s.portUp k := by rw [State.portUp, State.portState, h.regs _ 1 0 (by decide) (by decide) (by decide), State.portUp, State.portState]

theorem roomTx : t.roomTx k 8 1 = s.roomTx k 8 1 := by
  unfold State.roomTx
  rw [h.own]

/-- The request for a lane leaves at once where it has credit. -/
theorem askSwap_sent (up : s.portUp k = true) (free : (s.port k).stuck = []) (room : s.roomTx k 8 1 = true) (lane : Nat) :
    ∃ m, (t.askSwap k lane).sent = .ctrl k m :: s.sent ∧ m.mtype = 2 ∧ fieldOf m.body.toNat 205 3 = lane % 8 ∧ ((t.askSwap k lane).port k).badChecks = 0 := by
  unfold State.askSwap
  rw [State.sendCtrl_now (h.portUp.trans up) (by rw [h.own]; exact free) (h.roomTx.trans room)]
  refine ⟨_, congrArg (_ :: ·) h.sent, rfl, swapBody_lane _ lane _, ?_⟩
  rw [State.port_modPort_same]

theorem askSwap_keeps (lane : Nat) : t.onlyPorts [5] (fun _ => ()) (t.askSwap k lane) ∧ ∀ j, j ≠ k → (t.askSwap k lane).port j = s.port j := by
  refine ⟨((State.onlyPorts.refl t).sendCtrl (fun _ _ _ _ _ => rfl) (by decide) ..).modPort k fun _ => rfl, fun j other => ?_⟩
  rw [State.askSwap, State.port_modPort_ne _ _ other, State.port_sendCtrl_ne _ _ _ _ _ _ other, h.others j other]

end State.checked

theorem execLaneSparingCheck_answers {s : State} {k : Nat} (up : s.portUp k = true) :
    ∃ t, exec (.laneSparingCheck k) s = .next t ∧ t = { s with regs := t.regs, sent := t.sent, ports := t.ports } ∧ t.obj (0x4010 + k) 8 = min 65535 (s.recentMarks k).length ∧
      ((s.recentMarks k).length ≤ 64 → (t.port k).badChecks = 0 ∧ t.sent = s.sent ∧ (t.port k).swaps = (s.port k).swaps) ∧
      (64 < (s.recentMarks k).length → (s.port k).badChecks < 99 → (t.port k).badChecks = (s.port k).badChecks + 1 ∧ t.sent = s.sent) ∧
      (64 < (s.recentMarks k).length → 99 ≤ (s.port k).badChecks → (s.port k).stuck = [] → s.roomTx k 8 1 = true →
        ∀ lane, (s.modPort k (fun p => { p with laneBad := s.recentBad k })).worstLane k = some lane →
          ∃ m, t.sent = .ctrl k m :: s.sent ∧ m.mtype = 2 ∧ fieldOf m.body.toNat 205 3 = lane % 8 ∧ (t.port k).badChecks = 0) ∧
      (∀ j, j ≠ k → t.port j = s.port j) := by
  obtain ⟨u, checked, run⟩ := execLaneSparingCheck_checks up
  have quiet : u = { s with regs := u.regs, sent := u.sent, ports := u.ports } := by rw [checked.frame]
  have few (h : (s.recentMarks k).length ≤ 64) : s.badRow k = 0 := if_neg (Nat.not_lt.2 h)
  have many (h : 64 < (s.recentMarks k).length) : s.badRow k = (s.port k).badChecks + 1 := if_pos h
  by_cases below : s.badRow k < 100
  · rw [if_pos below] at run
    refine ⟨u, run, quiet, checked.replays, fun h => ⟨?_, checked.sent, ?_⟩, fun h _ => ⟨?_, checked.sent⟩, fun h row => ?_, checked.others⟩
    · rw [checked.own, few h]
    · rw [checked.own]
    · rw [checked.own, many h]
    · rw [many h] at below
      omega
  · rw [if_neg below] at run
    have worst : u.worstLane k = (s.modPort k (fun p => { p with laneBad := s.recentBad k })).worstLane k := by
      refine State.worstLane_congr ?_ ?_ fun i => ?_
      · rw [checked.own, State.port_modPort_same]
      · exact checked.regs _ 2 0 (by decide) (by decide) (by decide)
      · exact checked.regs _ 0xA _ (by decide) (Nat.lt_trans (State.laneOf_lt _ k i) (by decide)) (by decide)
    rw [worst] at run
    have row : 64 < (s.recentMarks k).length ∧ 99 ≤ (s.port k).badChecks := by
      by_cases h : (s.recentMarks k).length ≤ 64
      · exact absurd (few h ▸ below) (by decide)
      · rw [many (by omega)] at below
        omega
    cases asked : (s.modPort k (fun p => { p with laneBad := s.recentBad k })).worstLane k with
    | none =>
      rw [asked] at run
      exact ⟨u, run, quiet, checked.replays, fun h => by omega, fun _ h => by omega, fun _ _ _ _ lane h => absurd h (by simp), checked.others⟩
    | some lane =>
      rw [asked] at run
      obtain ⟨frame, others⟩ := checked.askSwap_keeps lane
      refine ⟨_, run, frame.frame.trans (by rw [quiet]), (frame.regs _ 8 0 (by decide) (by decide) (by decide)).trans checked.replays, fun h => by omega, fun _ h => by omega,
        fun _ _ free room lane' same => ?_, others⟩
      obtain rfl : lane = lane' := Option.some.inj same
      exact checked.askSwap_sent up free room lane

/-! ### LANE_SWAP (R334) -/

theorem onCtrl_of_ok {mtype : Nat} {m : CtrlMsg} (ok : ctrlOk mtype m = true) (s : State) (f : State → State) : s.onCtrl mtype m f = f s := if_pos ok

theorem onCtrl_of_idle {s : State} {f : State → State} (idle : f s = s) (mtype : Nat) (m : CtrlMsg) : s.onCtrl mtype m f = s := by
  unfold State.onCtrl
  split
  · exact idle
  · rfl

theorem State.switchPoint_lt (s : State) (k : Nat) : s.switchPoint k < 65536 := Nat.mod_lt _ (by decide)

theorem execLaneSwap_answers {s : State} {k : Nat} {m : CtrlMsg} (up : s.portUp k = true) (ok : ctrlOk 0x02 m = true) (free : (s.port k).stuck = [])
    (room : s.roomTx k 8 1 = true) (points : ∀ x ∈ (s.port k).swaps, ∀ v, x.tx = some v → v < 65536) :
    ∃ t a, exec (.laneSwap k m) s = .next t ∧ t.sent = .ctrl k a :: s.sent ∧ a.mtype = 3 ∧ fieldOf a.body.toNat 205 3 = fieldOf m.body.toNat 205 3 ∧
      (∃ x ∈ (t.port k).swaps, x.lane = fieldOf m.body.toNat 205 3 ∧ x.drop = bitOf m.body.toNat 204 ∧ x.rx = some (fieldOf m.body.toNat 208 16) ∧ x.tx = some (fieldOf a.body.toNat 208 16)) ∧
      t = { s with regs := t.regs, sent := t.sent, ports := t.ports } := by
  obtain ⟨seq, chosen, small⟩ : ∃ seq, (match ((s.port k).swaps.find? (fun x => x.lane == fieldOf m.body.toNat 205 3)).bind (·.tx) with
      | some t => t
      | none => s.switchPoint k) = seq ∧ seq < 65536 := by
    refine ⟨_, rfl, ?_⟩
    split
    · next v found =>
      obtain ⟨x, listed, tx⟩ := Option.bind_eq_some_iff.1 found
      exact points x (List.mem_of_find?_eq_some listed) v tx
    · exact s.switchPoint_lt k
  have lane : fieldOf m.body.toNat 205 3 < 8 := Nat.mod_lt _ (by decide)
  have run : exec (.laneSwap k m) s = .next ((s.spendTx k 8 1 (.ctrl k { mtype := 3, dst := 0, src := 0, hops := 0, body := BitVec.ofNat 224 (swapBody seq (fieldOf m.body.toNat 205 3) (bitOf m.body.toNat 204)) })).modPort k
      (fun p => { p with swaps := putSwap p.swaps { lane := fieldOf m.body.toNat 205 3, drop := bitOf m.body.toNat 204, tx := some seq, rx := some (fieldOf m.body.toNat 208 16) } })) := by
    rw [← State.sendCtrl_now up free room, ← chosen]
    exact congrArg Host.Outcome.next ((onCtrl_of_ok ok s _).trans (if_neg (by simp [up])))
  refine ⟨_, _, run, rfl, rfl, ?_, ⟨_, by rw [State.port_modPort_same]; exact mem_putSwap .., rfl, rfl, rfl, ?_⟩, rfl⟩
  · rw [swapBody_lane, Nat.mod_eq_of_lt lane]
  · rw [swapBody_seq lane, Nat.mod_eq_of_lt small]

/-! ### LANE_SWITCH (R334) -/

theorem State.port_reportFor (s : State) (q : Option Nat) (c : Nat) (x y : Suspect) (st d : Nat) (u : Option Suspect) (k : Nat) :
    (s.reportFor q c x y st d u).port k = s.port k := rfl

theorem State.obj_reportFor (s : State) (q : Option Nat) (c : Nat) (x y : Suspect) (st d : Nat) (u : Option Suspect) (i j e : Nat) :
    (s.reportFor q c x y st d u).obj i j e = s.obj i j e := rfl

theorem putSwap_single {x y : Swap} (lane : y.lane = x.lane) : putSwap [x] y = [y] := by simp [putSwap, lane]

/-- A lane change that does not drop its lane ends: the logical lane is carried by the spare. -/
theorem State.finishSwap_spares {s : State} {k : Nat} {x : Swap} (lane : x.lane < 4) (keeps : x.drop = false) :
    (s.finishSwap k x).laneOf k x.lane = 4 ∧ (∀ i, i < 4 → i ≠ x.lane → (s.finishSwap k x).laneOf k i = s.laneOf k i) ∧
      (s.finishSwap k x).obj (0x4010 + k) 9 = min 3 (s.obj (0x4010 + k) 9 + 1) ∧ ((s.finishSwap k x).port k).swaps = (s.port k).swaps.filter (fun y => y.lane != x.lane) ∧
      (∃ r, (s.finishSwap k x).sent = .report r :: s.sent ∧ r.cls = clLink) ∧ s.sameRegs (s.finishSwap k x) [okey (0x4010 + k) 2 0, okey (0x4010 + k) 9 0] ∧
      s.finishSwap k x = { s with regs := (s.finishSwap k x).regs, sent := (s.finishSwap k x).sent, ports := (s.finishSwap k x).ports } := by
  obtain ⟨v1, word⟩ : ∃ v1, v1 = setField (setField (s.obj (0x4010 + k) 2) (3 * x.lane) 3 4) 12 3 (min 3 (s.obj (0x4010 + k) 9 + 1)) := ⟨_, rfl⟩
  have ends : s.finishSwap k x = (((s.setObj (0x4010 + k) 2 0 v1).setObj (0x4010 + k) 9 0 (min 3 (s.obj (0x4010 + k) 9 + 1))).modPort k (fun p => { p with
      swaps := p.swaps.filter (fun y => y.lane != x.lane) })).reportFor none clLink (susLane k (s.laneOf k x.lane)) (susPort k) 0 x.lane := by
    unfold State.finishSwap
    rw [keeps, word]
    rfl
  have map : (s.finishSwap k x).obj (0x4010 + k) 2 = v1 := by
    rw [ends, State.obj_reportFor, State.obj_modPort]
    exact (State.obj_setObj_sub_ne _ _ (by decide) (by decide) (by decide) (by decide) (by decide)).trans (State.obj_setObj_same ..)
  have field (i : Nat) (small : i < 4) : (s.finishSwap k x).laneOf k i = fieldOf (setField (s.obj (0x4010 + k) 2) (3 * x.lane) 3 4) (3 * i) 3 := by
    rw [State.laneOf, map, word, fieldOf_setField_below (by omega)]
  refine ⟨?_, fun i small other => ?_, ?_, ?_, ?_, ?_, ?_⟩
  · rw [field _ lane, fieldOf_setField_same]
    rfl
  · rw [field i small, State.laneOf]
    obtain below | above := Nat.lt_or_gt_of_ne other
    · exact fieldOf_setField_below (by omega)
    · exact fieldOf_setField_above (by omega)
  · rw [ends, State.obj_reportFor, State.obj_modPort, State.obj_setObj_same]
  · rw [ends, State.port_reportFor, State.port_modPort_same, State.port_setObj, State.port_setObj]
  · rw [ends]
    exact ⟨_, rfl, rfl⟩
  · rw [ends]
    refine State.sameRegs_congr (State.sameRegs_setObj _ _ _ _ (State.sameRegs_setObj _ _ _ _ (State.sameRegs_refl _ _) ?_) ?_) rfl
    · simp
    · simp
  · rw [ends]
    rfl

theorem execLaneSwitch_spares {s : State} {k seq lane : Nat} {x : Swap} (small : lane < 4) (swaps : (s.port k).swaps = [x]) (named : x.lane = lane) (keeps : x.drop = false)
    (tx : x.tx = some seq) (first : x.txDone = false) (rxDone : x.rxDone = true) :
    ∃ t, exec (.laneSwitch k seq) s = .next t ∧ t.laneOf k lane = 4 ∧ (∀ i, i < 4 → i ≠ lane → t.laneOf k i = s.laneOf k i) ∧
      t.obj (0x4010 + k) 9 = min 3 (s.obj (0x4010 + k) 9 + 1) ∧ (t.port k).swaps = [] ∧ (∃ r, t.sent = .report r :: s.sent ∧ r.cls = clLink) ∧
      s.sameRegs t [okey (0x4010 + k) 2 0, okey (0x4010 + k) 9 0] ∧ t = { s with regs := t.regs, sent := t.sent, ports := t.ports } := by
  subst named
  obtain ⟨y, done⟩ : ∃ y : Swap, y = { x with txDone := x.txDone || x.tx == some seq, rxDone := x.rxDone || x.rx == some seq } := ⟨_, rfl⟩
  have lane : y.lane = x.lane := by rw [done]
  have drop : y.drop = false := by rw [done, keeps]
  have both : (y.txDone && y.rxDone) = true := by rw [done, tx, rxDone]; simp
  obtain ⟨u, put⟩ : ∃ u, u = s.modPort k (fun p => { p with swaps := putSwap p.swaps y }) := ⟨_, rfl⟩
  have run : exec (.laneSwitch k seq) s = .next (u.finishSwap k y) := by
    have hit : (s.port k).swaps.find? (fun x => (x.tx == some seq && !x.txDone) || (x.rx == some seq && !x.rxDone)) = some x := by
      rw [swaps]
      exact List.find?_cons_of_pos (by simp [tx, first])
    show execLaneSwitch k seq s = _
    rw [execLaneSwitch]
    dsimp only
    rw [hit]
    dsimp only
    rw [if_pos (by rw [done] at both; exact both), put, done]
  have swapped : (u.port k).swaps = [y] := by rw [put, State.port_modPort_same, swaps, putSwap_single lane]
  have regs : u.regs = s.regs := by rw [put]; rfl
  have obj (j : Nat) : u.obj (0x4010 + k) j = s.obj (0x4010 + k) j := State.obj_congr regs ..
  have frame : u = { s with ports := u.ports } := by rw [put]; rfl
  have sent : u.sent = s.sent := by rw [put]; rfl
  clear put
  obtain ⟨spare, others, count, left, ⟨r, report, cls⟩, same, own⟩ := State.finishSwap_spares (s := u) (k := k) (x := y) (by omega) drop
  rw [lane] at spare others left
  refine ⟨_, run, spare, fun i hi h => ?_, by rw [count, obj], ?_, ⟨r, by rw [report, sent], cls⟩, State.sameRegs_trans (State.sameRegs_of_regs regs _) same, ?_⟩
  · rw [others i hi h, State.laneOf, obj, State.laneOf]
  · rw [left, swapped]
    simp [lane]
  · generalize u.finishSwap k y = t at own
    rw [frame] at own
    exact own

/-- Settles O18: the check by its row of bad seconds, the answers by the fields of their bodies, the switch by the words of the lane map. -/
theorem laneSparing : Obligations.LaneSparing := by
  unfold Obligations.LaneSparing
  refine ⟨fun s k _ up => ?_, fun s k down => congrArg Host.Outcome.next (if_pos (by simp [down])), fun s k m _ up ok free room points => execLaneSwap_answers up ok free room points,
    fun s k m down => congrArg Host.Outcome.next (onCtrl_of_idle ?_ _ _), fun s k m ok => ?_, fun s k seq none => ?_,
    fun s k seq lane x _ small swaps named keeps tx first _ rxDone => execLaneSwitch_spares small swaps named keeps tx first rxDone⟩
  · exact execLaneSparingCheck_answers up
  · exact if_pos (by simp [down])
  · refine ⟨_, congrArg Host.Outcome.next (onCtrl_of_ok ok s _), rfl, fun j other => State.port_modPort_ne _ _ other, State.port_modPort_same ..⟩
  · show execLaneSwitch k seq s = _
    rw [execLaneSwitch]
    dsimp only
    rw [none, List.find?_nil]

end Sys2Proof.Machine
end

section
/-! PROOF. Domain time over a port, management units and Ethernet frames (14_causeway_links.md R346, R347, R350, R351, R461, R462). -/

namespace Sys2Proof.Machine

/-! ### A slot that leaves, whether the port is up or not (R331) -/

theorem State.sendSlots_leaves {s : State} {k cls n : Nat} (free : s.portUp k = true → (s.port k).stuck = [] ∧ s.roomTx k cls n = true) (m : Msg) :
    (s.sendSlots k cls n m).sent = m :: s.sent ∧ s.sameRegs (s.sendSlots k cls n m) [okey (0x4010 + k) 5 0] ∧
      s.sendSlots k cls n m = { s with regs := (s.sendSlots k cls n m).regs, sent := (s.sendSlots k cls n m).sent, ports := (s.sendSlots k cls n m).ports } := by
  cases up : s.portUp k with
  | true =>
    obtain ⟨none, room⟩ := free up
    rw [State.sendSlots_now up none room]
    exact ⟨rfl, s.spendTx_sameRegs k cls n m, rfl⟩
  | false =>
    have down : s.sendSlots k cls n m = (s.emit m).countTx k ((n + 3) / 4) := if_pos (by simp [up])
    rw [down]
    refine ⟨rfl, ?_, rfl⟩
    exact State.sameRegs_congr (State.sameRegs_count (t := s.emit m) _ _ _ _ _ (State.sameRegs_of_regs rfl _) (by simp)) rfl

/-! ### TSYNC (R346) -/

theorem tsyncBody_seq (n tide : Nat) : fieldOf (BitVec.ofNat 224 (2 ^ 208 * n + 2 ^ 144 * (tide % 2 ^ 64))).toNat 208 16 = n % 65536 := by
  rw [BitVec.toNat_ofNat, fieldOf]
  omega

theorem tsyncBody_tide (n tide : Nat) : fieldOf (BitVec.ofNat 224 (2 ^ 208 * n + 2 ^ 144 * (tide % 2 ^ 64))).toNat 144 64 = tide % 2 ^ 64 := by
  rw [BitVec.toNat_ofNat, fieldOf]
  omega

theorem tsyncReply_seq (n a b : Nat) : fieldOf (BitVec.ofNat 224 (2 ^ 208 * n + 2 ^ 144 * (a % 2 ^ 64) + 2 ^ 80 * (b % 2 ^ 64))).toNat 208 16 = n % 65536 := by
  rw [BitVec.toNat_ofNat, fieldOf]
  omega

theorem tsyncReply_sent (n a b : Nat) : fieldOf (BitVec.ofNat 224 (2 ^ 208 * n + 2 ^ 144 * (a % 2 ^ 64) + 2 ^ 80 * (b % 2 ^ 64))).toNat 144 64 = a % 2 ^ 64 := by
  rw [BitVec.toNat_ofNat, fieldOf]
  omega

theorem tsyncReply_received (n a b : Nat) : fieldOf (BitVec.ofNat 224 (2 ^ 208 * n + 2 ^ 144 * (a % 2 ^ 64) + 2 ^ 80 * (b % 2 ^ 64))).toNat 80 64 = b % 2 ^ 64 := by
  rw [BitVec.toNat_ofNat, fieldOf]
  omega

section Sync
variable {s : State} {k : Nat} (up : s.portUp k = true) (free : (s.port k).stuck = []) (room : s.roomTx k 8 1 = true)
include up free room

theorem execTsyncSend_sends (due : (s.port k).syncAt + nsTide (1000 * s.obj 0x4000 7) ≤ s.elapsed) :
    ∃ t m, exec (.tsyncSend k) s = .next t ∧ t.sent = .ctrl k m :: s.sent ∧ m.mtype = 4 ∧ fieldOf m.body.toNat 208 16 = (t.port k).syncSeq ∧ (t.port k).syncSeq = ((s.port k).syncSeq + 1) % 65536 ∧
      fieldOf m.body.toNat 144 64 = s.tide % 2 ^ 64 ∧ (t.port k).t1 = s.tide ∧ (t.port k).syncAt = s.elapsed ∧ t = { s with regs := t.regs, sent := t.sent, ports := t.ports } := by
  obtain ⟨n, next⟩ : ∃ n, n = ((s.port k).syncSeq + 1) % 65536 := ⟨_, rfl⟩
  have run : exec (.tsyncSend k) s = .next ((s.spendTx k 8 1 (.ctrl k { mtype := 4, dst := 0, src := 0, hops := 0, body := BitVec.ofNat 224 (2 ^ 208 * n + 2 ^ 144 * (s.tide % 2 ^ 64)) })).modPort k
      (fun p => { p with syncSeq := n, t1 := s.tide, syncAt := s.elapsed })) := by
    rw [← State.sendCtrl_now up free room, next]
    exact congrArg Host.Outcome.next (if_neg (by simp [up]; omega))
  refine ⟨_, _, run, rfl, rfl, ?_, ?_, tsyncBody_tide _ _, ?_, ?_, rfl⟩
  · rw [State.port_modPort_same, tsyncBody_seq, next, Nat.mod_mod]
  · rw [State.port_modPort_same, next]
  · rw [State.port_modPort_same]
  · rw [State.port_modPort_same]

theorem execTsync_replies {m : CtrlMsg} (ok : ctrlOk 0x04 m = true) :
    ∃ t a, exec (.tsync k m) s = .next t ∧ t.sent = .ctrl k a :: s.sent ∧ a.mtype = 5 ∧ fieldOf a.body.toNat 208 16 = fieldOf m.body.toNat 208 16 ∧
      fieldOf a.body.toNat 144 64 = s.tide % 2 ^ 64 ∧ fieldOf a.body.toNat 80 64 = s.tide % 2 ^ 64 ∧ t = { s with regs := t.regs, sent := t.sent, ports := t.ports } := by
  have run : exec (.tsync k m) s = .next (s.spendTx k 8 1 (.ctrl k { mtype := 5, dst := 0, src := 0, hops := 0, body := BitVec.ofNat 224 (2 ^ 208 * fieldOf m.body.toNat 208 16 + 2 ^ 144 * (s.tide % 2 ^ 64) + 2 ^ 80 * (s.tide % 2 ^ 64)) })) := by
    rw [← State.sendCtrl_now up free room]
    exact congrArg Host.Outcome.next ((onCtrl_of_ok ok s _).trans (if_neg (by simp [up])))
  exact ⟨_, _, run, rfl, rfl, (tsyncReply_seq _ _ _).trans (Nat.mod_mod _ _), tsyncReply_sent _ _ _, tsyncReply_received _ _ _, rfl⟩

end Sync

/-! ### TSYNC_REPLY (R461, R462) -/

theorem State.steer_tide (s : State) (k : Nat) (offset delay : Int) : (s.steer k offset delay).tide = s.tide := by
  unfold State.steer
  extract_lets rate s1 n m
  have same : s1.tide = s.tide := rfl
  clear_value s1
  split
  · split <;> exact same
  · split <;> exact same

theorem median_single (x : Int) : median [x] = x := by simp [median, insertInt]

/-- The offset a TSYNC_REPLY that arrived at `x` measures. -/
def State.offsetOf (s : State) (k : Nat) (m : CtrlMsg) (x : Nat) : Int :=
  (((fieldOf m.body.toNat 144 64 : Int) - (s.port k).t1) - ((x : Int) - fieldOf m.body.toNat 80 64)) / 2

/-- An offset measured enters the filter of its port. -/
def State.noteOffset (s : State) (k : Nat) (o : Int) : State := s.modPort k (fun p => { p with offsets := (o :: p.offsets).take 16 })

theorem execTsyncReply_measures {s : State} {k x : Nat} {m : CtrlMsg} (up : s.portUp k = true) (ok : ctrlOk 0x05 m = true) (own : fieldOf m.body.toNat 208 16 = (s.port k).syncSeq) :
    ∃ u : State, u.tide = s.tide ∧ exec (.tsyncReply k m x) s = .next (if s.obj 0x1420 2 = 0 then s.noteOffset k (s.offsetOf k m x)
      else if median ((s.offsetOf k m x :: (s.port k).offsets).take 16) > 40 then u.stepTide (median ((s.offsetOf k m x :: (s.port k).offsets).take 16)).toNat else u) := by
  show ∃ u : State, _ ∧ execTsyncReply k m x s = _
  unfold execTsyncReply
  rw [onCtrl_of_ok ok]
  extract_lets v p t1 t2 t3 delay offset s1 o s2
  rw [if_neg (by simp only [up, p, v, own]; simp)]
  have filtered : o = median ((s.offsetOf k m x :: (s.port k).offsets).take 16) := congrArg (fun p : Port => median p.offsets) (State.port_modPort_same ..)
  have same : s1.tide = s.tide := rfl
  have noted : s1 = s.noteOffset k (s.offsetOf k m x) := rfl
  have steered : s2.tide = s.tide := by
    show (if _ then _ else _ : State).tide = _
    split
    · exact (State.steer_tide ..).trans same
    · exact same
  refine ⟨s2, steered, ?_⟩
  rw [← filtered, ← noted]

theorem execTsyncReply_answers {s : State} {k x : Nat} {m : CtrlMsg} (up : s.portUp k = true) (ok : ctrlOk 0x05 m = true) (own : fieldOf m.body.toNat 208 16 = (s.port k).syncSeq) :
    ∃ t, exec (.tsyncReply k m x) s = .next t ∧ s.tide ≤ t.tide ∧
      (s.obj 0x1420 2 = 0 → t = { s with ports := t.ports } ∧ (t.port k).offsets = (s.offsetOf k m x :: (s.port k).offsets).take 16) ∧
      (∀ o : Int, o = s.offsetOf k m x → (s.port k).offsets = [] → s.obj 0x1420 2 ≠ 0 → t.tide = s.tide + (if 40 < o then o.toNat else 0)) := by
  obtain ⟨u, tide, run⟩ := execTsyncReply_measures (x := x) up ok own
  by_cases free : s.obj 0x1420 2 = 0
  · rw [if_pos free] at run
    refine ⟨_, run, Nat.le_refl _, fun _ => ⟨rfl, ?_⟩, fun o _ _ slave => absurd free slave⟩
    rw [State.noteOffset, State.port_modPort_same]
  · rw [if_neg free] at run
    by_cases ahead : median ((s.offsetOf k m x :: (s.port k).offsets).take 16) > 40
    · rw [if_pos ahead] at run
      refine ⟨_, run, ?_, fun h => absurd h free, fun o measured none _ => ?_⟩
      · exact Nat.le_trans (Nat.le_of_eq tide.symm) (Nat.le_add_right ..)
      · rw [none, ← measured, List.take_of_length_le (by simp), median_single] at ahead ⊢
        rw [if_pos ahead]
        exact congrArg (· + o.toNat) tide
    · rw [if_neg ahead] at run
      refine ⟨u, run, Nat.le_of_eq tide.symm, fun h => absurd h free, fun o measured none _ => ?_⟩
      rw [none, ← measured, List.take_of_length_le (by simp), median_single] at ahead
      rw [if_neg ahead, tide, Nat.add_zero]

theorem execTsyncReply_of_other {s : State} {k x : Nat} {m : CtrlMsg} (other : s.portUp k = false ∨ fieldOf m.body.toNat 208 16 ≠ (s.port k).syncSeq) :
    exec (.tsyncReply k m x) s = .next s := by
  refine congrArg Host.Outcome.next (onCtrl_of_idle ?_ _ _)
  refine if_pos ?_
  obtain down | number := other
  · exact .inl (by simp [down])
  · exact .inr number

theorem execTsync_of_down {s : State} {k : Nat} (m : CtrlMsg) (down : s.portUp k = false) : exec (.tsync k m) s = .next s := by
  refine congrArg Host.Outcome.next (onCtrl_of_idle ?_ _ _)
  exact if_pos (by simp [down])

/-! ### MGMT_UNIT (R347) -/

section Units
variable {s : State} {k slots : Nat} {u : MgmtUnit}

theorem discardUnit_counts (s : State) (k : Nat) : (s.discardUnit k).obj (0x4010 + k) 0xF = min (s.obj (0x4010 + k) 0xF + 1) (2 ^ 32 - 1) ∧
    s.sameRegs (s.discardUnit k) [okey (0x4010 + k) 0xF 0] ∧ s.discardUnit k = { s with regs := (s.discardUnit k).regs } :=
  ⟨State.obj_count_same .., State.sameRegs_count _ _ _ _ _ (State.sameRegs_refl _ _) (by simp), rfl⟩

theorem execMgmtUnit_of_malformed (plain : u.reserved = 0) (bad : u.length = 0 ∨ 1536 < u.length ∨ 48 < slots ∨ slots ≠ (u.length + 31) / 32 ∨ 3 < u.hops) :
    exec (.mgmtUnit k u slots) s = .next (s.discardUnit k) :=
  congrArg Host.Outcome.next ((if_neg (not_not_intro plain)).trans (if_pos bad))

variable (plain : u.reserved = 0) (long : 1 ≤ u.length) (most : u.length ≤ 1536) (few : slots ≤ 48) (exact' : slots = (u.length + 31) / 32) (hops : u.hops ≤ 3)
include plain long most few exact' hops

theorem execMgmtUnit_of_own (own : u.local' = true ∨ (s.obj 0x4000 0 ≠ 0xFFFF ∧ u.dst = s.ownDevice)) :
    exec (.mgmtUnit k u slots) s = .next (s.emit (.deliver (.link k u.src u.local') (u.bytes.take u.length))) := by
  have here : (u.local' = true ∨ (s.obj 0x4000 0 ≠ 0xFFFF ∧ s.isOwn u.dst = true)) := by simpa [State.isOwn] using own
  exact congrArg Host.Outcome.next ((if_neg (not_not_intro plain)).trans ((if_neg (by omega)).trans (if_pos here)))

theorem execMgmtUnit_routes (far : u.local' = false) (other : s.obj 0x4000 0 = 0xFFFF ∨ u.dst ≠ s.ownDevice) :
    exec (.mgmtUnit k u slots) s = .next (match s.routePort u.dst with
      | some j => if u.hops = 3 then s.discardUnit k else s.sendUnit j { u with hops := u.hops + 1 }
      | none => s.discardUnit k) := by
  have there : ¬ (u.local' = true ∨ (s.obj 0x4000 0 ≠ 0xFFFF ∧ s.isOwn u.dst = true)) := by
    rw [far]
    obtain unnamed | elsewhere := other
    · simp [unnamed]
    · simp [State.isOwn, elsewhere]
  exact congrArg Host.Outcome.next ((if_neg (not_not_intro plain)).trans ((if_neg (by omega)).trans (if_neg there)))

theorem execMgmtUnit_forwards (far : u.local' = false) (other : s.obj 0x4000 0 = 0xFFFF ∨ u.dst ≠ s.ownDevice) (more : u.hops < 3) {j : Nat}
    (route : (bitsOf (s.routeMask u.dst) 16).head? = some j) (free : (s.port j).stuck = []) (room : s.roomTx j 9 (1 + (u.length + 31) / 32) = true) :
    ∃ t, exec (.mgmtUnit k u slots) s = .next t ∧ t.sent = .mgmt j { u with hops := u.hops + 1 } :: s.sent ∧ t = { s with regs := t.regs, sent := t.sent, ports := t.ports } ∧
      s.sameRegs t [okey (0x4010 + j) 5 0] := by
  have run : exec (.mgmtUnit k u slots) s = .next (s.sendUnit j { u with hops := u.hops + 1 }) := by
    rw [execMgmtUnit_routes plain long most few exact' hops far other, State.routePort, route]
    exact congrArg Host.Outcome.next (if_neg (by omega))
  obtain ⟨sent, regs, frame⟩ := State.sendSlots_leaves (cls := 9) (n := 1 + (u.length + 31) / 32) (fun _ => ⟨free, room⟩) (.mgmt j { u with hops := u.hops + 1 })
  exact ⟨_, run, sent, frame, regs⟩

theorem execMgmtUnit_discards (far : u.local' = false) (other : s.obj 0x4000 0 = 0xFFFF ∨ u.dst ≠ s.ownDevice) (lost : u.hops = 3 ∨ bitsOf (s.routeMask u.dst) 16 = []) :
    exec (.mgmtUnit k u slots) s = .next (s.discardUnit k) := by
  rw [execMgmtUnit_routes plain long most few exact' hops far other]
  obtain last | unrouted := lost
  · split
    · rw [if_pos last]
    · rfl
  · rw [State.routePort, unrouted]
    rfl

end Units

/-! ### ETH_FRAME_RECEIVE (R350, R351) -/

theorem execEthFrameReceive_answers {s : State} {k : Nat} {f : EthFrame} (up : s.portState k = 6) :
    ∃ t, exec (.ethFrameReceive k f) s = .next t ∧ t = { s with regs := t.regs, sent := t.sent } ∧
      (f.fcsOk = false → t.sent = s.sent ∧ t.obj (0x4010 + k) 0x13 = min (s.obj (0x4010 + k) 0x13 + 1) (2 ^ 32 - 1) ∧ s.sameRegs t [okey (0x4010 + k) 0x13 0]) ∧
      (f.fcsOk = true → t.obj (0x4010 + k) 0x11 = min (s.obj (0x4010 + k) 0x11 + 1) (2 ^ 64 - 1) ∧ s.sameRegs t [okey (0x4010 + k) 0x11 0] ∧
        t.sent = if isTagged f.bytes = true ∨ f.bytes.length < 64 ∨ 9216 < f.bytes.length then s.sent
          else .frame k { f with stamp := if s.obj (0x4010 + k) 0x14 = 1 ∧ ptpEvent f.bytes = true then some s.tide else none } :: s.sent) := by
  have start : ¬ s.portState k ≠ psEthUp := not_not_intro up
  have counted (j : Nat) (w : Nat) : s.sameRegs (s.count (0x4010 + k) j 0 w) [okey (0x4010 + k) j 0] := State.sameRegs_count _ _ _ _ _ (State.sameRegs_refl _ _) (by simp)
  obtain check | check := Bool.eq_false_or_eq_true f.fcsOk
  case inr =>
    refine ⟨s.count (0x4010 + k) 0x13 0 32, congrArg Host.Outcome.next ((if_neg start).trans (if_pos (by simp [check]))), rfl,
      fun _ => ⟨rfl, State.obj_count_same .., counted 0x13 32⟩, fun sound => by simp [check] at sound⟩
  case inl =>
    have sound : ¬ f.fcsOk = false := by simp [check]
    by_cases dropped : isTagged f.bytes = true ∨ f.bytes.length < 64 ∨ 9216 < f.bytes.length
    · refine ⟨s.count (0x4010 + k) 0x11 0 64, congrArg Host.Outcome.next ((if_neg start).trans ((if_neg (by simp [check])).trans (if_pos dropped))), rfl, fun h => absurd h sound, fun _ => ?_⟩
      rw [if_pos dropped]
      exact ⟨State.obj_count_same .., counted 0x11 64, rfl⟩
    · refine ⟨_, congrArg Host.Outcome.next ((if_neg start).trans ((if_neg (by simp [check])).trans (if_neg dropped))), rfl, fun h => absurd h sound, fun _ => ?_⟩
      rw [if_neg dropped]
      exact ⟨State.obj_count_same .., State.sameRegs_congr (counted 0x11 64) rfl, rfl⟩

/-- Settles O20: the bodies of TSYNC and its reply by their fields, the filter by what one reply leaves, units and frames by the branch that takes them. -/
theorem domainTimeManagementAndFrames : Obligations.DomainTimeManagementAndFrames := by
  unfold Obligations.DomainTimeManagementAndFrames
  refine ⟨fun s k up free room due => execTsyncSend_sends up free room due, fun s k m up ok free room => execTsync_replies up free room ok,
    fun s k x m down => ⟨congrArg Host.Outcome.next (if_pos (.inl (by simp [down]))), execTsync_of_down m down, execTsyncReply_of_other (.inl down)⟩,
    fun s k x m other => execTsyncReply_of_other (.inr other), fun s k x m up ok own => execTsyncReply_answers up ok own,
    fun s k slots u plain long most few exact' hops => ⟨execMgmtUnit_of_own plain long most few exact' hops,
      fun far other more j route free room => execMgmtUnit_forwards plain long most few exact' hops far other more route free room, fun far other lost => ?_⟩,
    fun s k slots u plain bad => ⟨_, execMgmtUnit_of_malformed plain bad, discardUnit_counts s k⟩,
    fun s k f down => congrArg Host.Outcome.next (if_pos down), fun s k f up => execEthFrameReceive_answers up⟩
  exact ⟨_, execMgmtUnit_discards plain long most few exact' hops far other lost, discardUnit_counts s k⟩

end Sys2Proof.Machine
end

section
/-! PROOF. Port resets, training, losses, cables and Ethernet links (14_causeway_links.md R324-R327, R335, R399). -/

namespace Sys2Proof.Machine

/-! ### Routes and the own TOPO (R345) -/

theorem State.obj_setObjs_ne (s : State) {i j e i' j' : Nat} (vs : List Nat) (e' : Nat) (hj : j < 256) (he : e < 65536) (hj' : j' < 256) (room : e' + vs.length ≤ 65536) (h : i ≠ i') :
    (s.setObjs i' j' e' vs).obj i j e = s.obj i j e := by
  induction vs generalizing s e' with
  | nil => rfl
  | cons v vs ih =>
    rw [List.length_cons] at room
    rw [State.setObjs, ih _ _ (by omega), State.obj_setObj_ne _ _ hj he hj' (by omega) (.inl h)]

theorem State.setObjs_ports (s : State) (i j e : Nat) (vs : List Nat) : (s.setObjs i j e vs).ports = s.ports := by
  induction vs generalizing s e with
  | nil => rfl
  | cons v vs ih => rw [State.setObjs, ih, State.setObj_ports]

/-- The routes or the time state have been recomputed, or the own TOPO flooded: the registers of ports stand but for the count of flits sent, and ports but for what leaves or waits at them. -/
structure State.routed (s t : State) : Prop where
  regs : ∀ k j, j < 256 → j ≠ 5 → t.obj (0x4010 + k) j = s.obj (0x4010 + k) j
  ports : ∀ j, (t.port j).beside = (s.port j).beside

namespace State.routed

theorem refl (s : State) : s.routed s := ⟨fun _ _ _ _ => rfl, fun _ => rfl⟩

section Kept
variable {s t : State} (h : s.routed t)
include h

theorem trans {u : State} (g : t.routed u) : s.routed u := ⟨fun k j hj h5 => (g.regs k j hj h5).trans (h.regs k j hj h5), fun j => (g.ports j).trans (h.ports j)⟩

/-- A write beside the ports. -/
theorem setObj {i j e : Nat} (v : Nat) (below : i < 0x4010) (sub : j < 256) (element : e < 65536) : s.routed (t.setObj i j e v) :=
  h.trans ⟨fun k j' hj _ => t.obj_setObj_ne v hj (by decide) sub element (.inl (by omega)), fun _ => rfl⟩

theorem of_regs {u : State} (regs : u.regs = t.regs) (ports : u.ports = t.ports) : s.routed u :=
  h.trans ⟨fun _ _ _ _ => State.obj_congr regs .., fun j => by rw [State.port_congr ports j]⟩

theorem ite {c : Prop} [Decidable c] {u : State} (g : s.routed u) : s.routed (if c then t else u) := by
  split
  · exact h
  · exact g

theorem retime : s.routed t.retime := by
  have free : s.routed (((t.setObj 0x1420 2 0 0).setObj 0x1420 8 0 0).setObj 0x1420 3 0 0xFFFF0000) :=
    ((h.setObj 0 (by decide) (by decide) (by decide)).setObj 0 (by decide) (by decide) (by decide)).setObj _ (by decide) (by decide) (by decide)
  have root : s.routed (((t.setObj 0x1420 2 0 1).setObj 0x1420 8 0 0).setObj 0x1420 3 0 0xFFFF0000) :=
    ((h.setObj 1 (by decide) (by decide) (by decide)).setObj 0 (by decide) (by decide) (by decide)).setObj _ (by decide) (by decide) (by decide)
  have slave (parent : Nat) : s.routed ((t.setObj 0x1420 2 0 2).setObj 0x1420 3 0 parent) :=
    (h.setObj 2 (by decide) (by decide) (by decide)).setObj _ (by decide) (by decide) (by decide)
  unfold State.retime
  dsimp only
  split
  · exact free
  · split
    · exact root.of_regs rfl rfl
    · split
      · split
        · exact h
        · exact (slave _).of_regs rfl rfl
      · exact (slave _).of_regs rfl rfl

theorem recomputeRoutes : s.routed t.recomputeRoutes := by
  unfold State.recomputeRoutes
  extract_lets own ports entry
  have table : s.routed (t.setObjs 0x4000 4 0 ((List.range 256).map entry)) :=
    h.trans ⟨fun k j hj _ => State.obj_setObjs_ne t _ 0 hj (by decide) (by decide) (by simp) (by omega), fun j => by rw [State.port_congr (State.setObjs_ports ..) j]⟩
  exact (table.setObj _ (by decide) (by decide) (by decide)).retime

theorem sendTopo : s.routed t.sendTopo := by
  have sent := (State.onlyPorts.refl t).sendTopo State.onlyPorts.unspent_beside (subs := [5]) (by decide)
  exact h.trans ⟨fun k j hj h5 => sent.regs _ j 0 hj (by decide) (by simpa using h5), sent.view⟩

theorem neighboursChanged : s.routed t.neighboursChanged := by
  have counted : s.routed { t with topoSeq := (t.topoSeq + 1) % 2 ^ 32 } := h.of_regs rfl rfl
  exact counted.sendTopo.recomputeRoutes

end Kept
end State.routed

/-! ### A port that is lost (R335) -/

/-- A port has left for a state, lost where it was up: its registers but the state, the events and the flits sent stand, and so do the other ports but for what leaves or waits at them. -/
structure State.lostTo (k v : Nat) (s t : State) : Prop where
  state : t.portState k = v
  regs : ∀ i j, j < 256 → j ∉ [1, 4, 5] → t.obj (0x4010 + i) j = s.obj (0x4010 + i) j
  others : ∀ j, j ≠ k → (t.port j).beside = (s.port j).beside
  own : (t.port k).mode = (s.port k).mode ∧ (t.port k).latch = (s.port k).latch

theorem Port.beside_own {p q : Port} (h : p.beside = q.beside) : p.mode = q.mode ∧ p.latch = q.latch := by
  have mode : p.beside.mode = q.beside.mode := by rw [h]
  have latch : p.beside.latch = q.beside.latch := by rw [h]
  exact ⟨mode, latch⟩

/-- What a port forgets when it is lost. -/
def Port.forgets (x : Port) : Port :=
  { x with fwd := [], inbound := [], ingress := [], stuck := [], stalled := none, resume := none, failed := 0, ackNext := x.txSeq, naks := none, discarding := false, swaps := [] }

theorem State.portLoss_of_idle {s : State} {k : Nat} (idle : (s.port k).fwd = []) :
    s.portLoss k = ((s.modPort k Port.forgets).reportFor none clLink (susPort k) (susPort k) 0 0).neighboursChanged := by
  unfold State.portLoss
  dsimp only
  rw [idle]
  rfl

theorem State.portLoss_keeps {s : State} {k : Nat} (idle : (s.port k).fwd = []) (i j : Nat) (hj : j < 256) (h5 : j ≠ 5) :
    (s.portLoss k).obj (0x4010 + i) j = s.obj (0x4010 + i) j := by
  rw [State.portLoss_of_idle idle, (State.routed.refl _).neighboursChanged.regs i j hj h5]
  rfl

theorem State.portLoss_others {s : State} {k j : Nat} (idle : (s.port k).fwd = []) (other : j ≠ k) : ((s.portLoss k).port j).beside = (s.port j).beside := by
  rw [State.portLoss_of_idle idle, (State.routed.refl _).neighboursChanged.ports j, State.port_reportFor, State.port_modPort_ne _ _ other]

theorem State.portLoss_own {s : State} {k : Nat} (idle : (s.port k).fwd = []) : ((s.portLoss k).port k).mode = (s.port k).mode ∧ ((s.portLoss k).port k).latch = (s.port k).latch := by
  rw [State.portLoss_of_idle idle]
  obtain ⟨mode, latch⟩ := Port.beside_own ((State.routed.refl ((s.modPort k Port.forgets).reportFor none clLink (susPort k) (susPort k) 0 0)).neighboursChanged.ports k)
  rw [mode, latch, State.port_reportFor, State.port_modPort_same]
  exact ⟨rfl, rfl⟩

theorem State.port_toPortState (s : State) (k v j : Nat) : (s.toPortState k v).port j = s.port j := State.port_congr (s.toPortState_ports k v) j

theorem State.obj_toPortState (s : State) (k v i : Nat) {j : Nat} (hj : j < 256) (other : j ∉ [1, 4]) : (s.toPortState k v).obj i j = s.obj i j :=
  (s.toPortState_frame k v).regs i j 0 hj (by decide) other

theorem State.lostTo_loseTo {s : State} {k : Nat} (v : Nat) (idle : (s.port k).fwd = []) : s.lostTo k v (s.loseTo k v) := by
  have left : s.lostTo k v (s.toPortState k v) :=
    ⟨s.portState_toPortState k v, fun i j hj h => s.obj_toPortState k v _ hj (by simp at h ⊢; omega), fun j _ => by rw [State.port_toPortState], by rw [State.port_toPortState]; exact ⟨rfl, rfl⟩⟩
  unfold State.loseTo
  split
  · have idle' : ((s.toPortState k v).port k).fwd = [] := by rw [State.port_toPortState, idle]
    generalize s.toPortState k v = u at left idle'
    obtain ⟨mode, latch⟩ := State.portLoss_own idle'
    refine ⟨(State.portLoss_keeps idle' k 1 (by decide) (by decide)).trans left.state, fun i j hj h => ?_, fun j other => (State.portLoss_others idle' other).trans (left.others j other),
      mode.trans left.own.1, latch.trans left.own.2⟩
    exact (State.portLoss_keeps idle' i j hj (fun five => h (by simp [five]))).trans (left.regs i j hj h)
  · exact left

/-! ### Port resets (R324, R399) -/

theorem State.trained_of_none {s : State} {k : Nat} (none : (s.port k).latch = none) : s.trained k = s := by
  rw [State.trained, none]

theorem State.lostTo.of_train {s t : State} {k v : Nat} (h : s.lostTo k v t) (resume : Option Nat) : s.lostTo k 1 (t.train k resume) := by
  refine ⟨t.portState_train k resume, fun i j hj other => ?_, fun j other => ?_, ?_⟩
  · exact ((t.train_frame k resume).regs _ j 0 hj (by decide) (by simp at other ⊢; omega)).trans (h.regs i j hj other)
  · rw [State.port_train_ne _ _ other, h.others j other]
  · rw [State.port_train_same]
    exact h.own

/-- What a port reset leaves of a port that waits for no reply. -/
structure State.resetTo (k : Nat) (clear : Bool) (s t : State) : Prop where
  state : t.portState k = if s.obj (0x4010 + k) 0 = 0 then 7 else if s.portState k = 5 ∧ clear = false then 5 else 1
  cleared : clear = true → t.obj (0x4010 + k) 2 = 0x0688 ∧ t.obj (0x4010 + k) 9 = 0
  mode : (t.port k).mode = s.obj (0x4010 + k) 0
  others : ∀ j, j ≠ k → (t.port j).beside = (s.port j).beside

/-- With CLEAR the lane map and the count of lane changes get their defaults. -/
theorem State.resetLanes_keeps (s : State) (k : Nat) (clear : Bool) {t : State} (h : t = if clear = true then (s.setObj (0x4010 + k) 2 0 0x0688).setObj (0x4010 + k) 9 0 0 else s) :
    t.portState k = s.portState k ∧ (clear = true → t.obj (0x4010 + k) 2 = 0x0688 ∧ t.obj (0x4010 + k) 9 = 0) ∧ t.ports = s.ports := by
  cases clear with
  | false =>
    rw [if_neg (by decide)] at h
    rw [h]
    exact ⟨rfl, nofun, rfl⟩
  | true =>
    rw [if_pos rfl] at h
    rw [h]
    refine ⟨?_, fun _ => ⟨?_, State.obj_setObj_same ..⟩, by rw [State.setObj_ports, State.setObj_ports]⟩
    · rw [State.portState, State.obj_setObj_sub_ne _ _ (by decide) (by decide) (by decide) (by decide) (by decide),
        State.obj_setObj_sub_ne _ _ (by decide) (by decide) (by decide) (by decide) (by decide), State.portState]
    · rw [State.obj_setObj_sub_ne _ _ (by decide) (by decide) (by decide) (by decide) (by decide), State.obj_setObj_same]

theorem State.resetTo_resetPort {s : State} {k : Nat} (clear : Bool) (idle : (s.port k).fwd = []) : s.resetTo k clear (s.resetPort k clear) := by
  unfold State.resetPort
  extract_lets mode s0 s1
  have same : s0.port k = { s.port k with mode := mode, held := false } := State.port_modPort_same ..
  have beside (j : Nat) (h : j ≠ k) : s0.port j = s.port j := State.port_modPort_ne _ _ h
  have before : s0.portState k = s.portState k := rfl
  obtain ⟨kept, cleared, ports⟩ := s0.resetLanes_keeps k clear (t := s1) rfl
  clear_value s1 s0
  have state : s1.portState k = s.portState k := kept.trans before
  have own : (s1.port k).mode = mode := by rw [State.port_congr ports, same]
  have forwards : (s1.port k).fwd = [] := by rw [State.port_congr ports, same]; exact idle
  have others (j : Nat) (h : j ≠ k) : s1.port j = s.port j := (State.port_congr ports j).trans (beside j h)
  have after {v : Nat} {t : State} (left : s1.lostTo k v t) (h : v = if mode = 0 then 7 else if s.portState k = 5 ∧ clear = false then 5 else 1) : s.resetTo k clear t :=
    ⟨left.state.trans h, fun c => ⟨(left.regs k 2 (by decide) (by decide)).trans (cleared c).1, (left.regs k 9 (by decide) (by decide)).trans (cleared c).2⟩, left.own.1.trans own,
      fun j other => by rw [left.others j other, others j other]⟩
  by_cases off : mode = 0
  · rw [if_pos off]
    exact after (State.lostTo_loseTo 7 forwards) (by rw [if_pos off])
  · rw [if_neg off]
    by_cases retired : s.portState k = psRetired ∧ (!clear) = true
    · rw [if_pos retired]
      have stays : s1.lostTo k 5 s1 := ⟨state.trans retired.1, fun _ _ _ _ => rfl, fun _ _ => rfl, rfl, rfl⟩
      exact after stays (by rw [if_neg off, if_pos ⟨retired.1, by simpa using retired.2⟩])
    · rw [if_neg retired]
      exact after ((State.lostTo_loseTo psTraining forwards).of_train none) (by rw [if_neg off, if_neg (by simpa using retired)])

/-- A rule's answer, the last message sent. -/
theorem State.commandOut_sends {s u : State} {sess i j st : Nat} {rule : State → State × Nat} (passed : s.writeGuard sess i j = none) (own : rule s = (u, st)) :
    ∃ t, s.commandOut sess i j rule = .next t ∧ t.obj i j = st ∧ t = { u with regs := t.regs, sent := .answer sess i j st :: u.sent } ∧ u.sameRegs t [okey i j 0] := by
  refine ⟨_, State.commandOut_of_rule passed own, ?_, rfl, ?_⟩
  · rw [State.obj_answer, State.obj_setObj_same]
  · exact State.sameRegs_congr (State.sameRegs_setObj _ _ _ _ (State.sameRegs_refl _ _) (by simp)) rfl

/-- The command of a port reset by the value it writes. -/
def portReset (sess k v : Nat) (c : Instr) : Prop := (c = .portResetRetrain sess k ∧ v = 1) ∨ (c = .portResetClear sess k ∧ v = 2)

theorem portReset.runs {sess k v : Nat} {c : Instr} (h : portReset sess k v c) (s : State) : exec c s = s.commandOut sess (0x4010 + k) 4 (rulePortReset k v) ∧ (v = 1 ∨ v = 2) := by
  obtain ⟨rfl, rfl⟩ | ⟨rfl, rfl⟩ := h
  · exact ⟨rfl, .inl rfl⟩
  · exact ⟨rfl, .inr rfl⟩

section Reset
variable {s : State} {sess k v : Nat} {c : Instr} (passed : s.writeGuard sess (0x4010 + k) 4 = none) (named : portReset sess k v c)
include passed named

theorem portReset.latches (training : s.portState k = 1) : ∃ t, exec c s = .next t ∧ (t.port k).latch = some v ∧ t.obj (0x4010 + k) 4 = stRestartPending ∧
    s.sameRegs t [okey (0x4010 + k) 4 0] ∧ t = { s with regs := t.regs, ports := t.ports, sent := .answer sess (0x4010 + k) 4 stRestartPending :: s.sent } := by
  obtain ⟨run, value⟩ := named.runs s
  obtain ⟨u, latched, frame, rule⟩ : ∃ u : State, (u.port k).latch = some v ∧ u = { s with ports := u.ports } ∧ rulePortReset k v s = (u, stRestartPending) :=
    ⟨_, by rw [State.port_modPort_same], rfl, if_pos ⟨value, training⟩⟩
  have regs : u.regs = s.regs := by rw [frame]
  obtain ⟨t, out, answered, own, same⟩ := State.commandOut_sends passed rule
  have ports : t.ports = u.ports := by rw [own]
  refine ⟨t, run.trans out, by rw [State.port_congr ports, latched], answered, State.sameRegs_trans (State.sameRegs_of_regs regs _) same, ?_⟩
  rw [frame] at own
  rw [ports]
  exact own

theorem portReset.resets (other : s.portState k ≠ 1) (idle : (s.port k).fwd = []) : ∃ t, exec c s = .next t ∧ t.obj (0x4010 + k) 4 = stOk ∧ s.resetTo k (v == 2) t := by
  obtain ⟨run, value⟩ := named.runs s
  have rule : rulePortReset k v s = (s.resetPort k (v == 2), stOk) := by
    rw [rulePortReset, if_neg fun h => other h.2]
    obtain rfl | rfl := value
    · rfl
    · rfl
  have reset := State.resetTo_resetPort (v == 2) idle
  obtain ⟨t, out, answered, frame, same⟩ := State.commandOut_runs passed rule
  generalize s.resetPort k (v == 2) = u at reset frame same
  have ports (j : Nat) : t.port j = u.port j := State.port_congr (by rw [frame]) j
  have key (j : Nat) (hj : j ≠ 4) : t.obj (0x4010 + k) j = u.obj (0x4010 + k) j := same _ (by simp [okey]; omega)
  refine ⟨t, run.trans out, answered, (key 1 (by decide)).trans reset.state, fun h => ⟨(key 2 (by decide)).trans (reset.cleared h).1, (key 9 (by decide)).trans (reset.cleared h).2⟩, ?_, fun j h => ?_⟩
  · rw [ports, reset.mode]
  · rw [ports, reset.others j h]

end Reset

/-! ### Training (R325-R327) -/

theorem State.train_only (s : State) (k : Nat) (resume : Option Nat) : s.train k resume = { s with regs := (s.train k resume).regs, ports := (s.train k resume).ports, sent := (s.train k resume).sent } :=
  (s.train_frame k resume).frame

theorem execPortRetry_trains {s : State} {k : Nat} {c : Instr} (named : c = .portRetryTimer k ∨ c = .cableInsert k) :
    (s.portState k = 0 → ∃ t, exec c s = .next t ∧ t.portState k = 1 ∧ (t.port k).locked = [] ∧ (t.port k).prbsDone = false ∧ t = { s with regs := t.regs, ports := t.ports, sent := t.sent } ∧
      ∀ j, j ≠ k → t.port j = s.port j) ∧ (s.portState k ≠ 0 → exec c s = .next s) := by
  have run : exec c s = .next (if s.portState k = psDown then s.train k none else s) := by
    obtain rfl | rfl := named
    · rfl
    · rfl
  rw [run]
  refine ⟨fun down => ⟨s.train k none, by rw [if_pos down], s.portState_train k none, ?_, ?_, s.train_only k none, fun j other => State.port_train_ne _ _ other⟩, fun up => by rw [if_neg up]⟩
  · rw [State.port_train_same]
  · rw [State.port_train_same]

section Timeout
variable {s : State} {k : Nat} (training : s.portState k = 1) (unlocked : (s.port k).locked.length < (s.port k).lanesNeeded)
include training unlocked

theorem execTrainingTimeout_counts : exec (.trainingTimeout k) s = .next (match (s.port k).resume with
    | none => ((s.count (0x4010 + k) 0xE 0 32).toPortState k psDown).trained k
    | some _ => if (s.port k).failed + 1 ≥ 3 then ((s.count (0x4010 + k) 0xE 0 32).loseTo k psDown).trained k
      else (s.count (0x4010 + k) 0xE 0 32).modPort k (fun p => { p with failed := p.failed + 1, locked := [], prbsDone := false })) :=
  congrArg Host.Outcome.next (if_neg fun h => h.elim (· training) (Nat.not_le_of_lt unlocked))

theorem execTrainingTimeout_ends (unlatched : (s.port k).latch = none) (first : (s.port k).resume = none) :
    ∃ t, exec (.trainingTimeout k) s = .next t ∧ t.portState k = 0 ∧ t.obj (0x4010 + k) 0xE = min (s.obj (0x4010 + k) 0xE + 1) (2 ^ 32 - 1) ∧ t.ports = s.ports := by
  have run := execTrainingTimeout_counts training unlocked
  rw [first] at run
  dsimp only at run
  rw [State.trained_of_none (by rw [State.port_toPortState, State.port_count, unlatched])] at run
  refine ⟨_, run, State.portState_toPortState .., ?_, State.toPortState_ports ..⟩
  rw [State.obj_toPortState _ _ _ _ (by decide) (by decide), State.obj_count_same]

theorem execTrainingTimeout_retries (retrain : (s.port k).resume ≠ none) (more : (s.port k).failed < 2) :
    ∃ t, exec (.trainingTimeout k) s = .next t ∧ t.portState k = 1 ∧ t.port k = { s.port k with failed := (s.port k).failed + 1, locked := [], prbsDone := false } ∧
      t.obj (0x4010 + k) 0xE = min (s.obj (0x4010 + k) 0xE + 1) (2 ^ 32 - 1) ∧ t = { s with regs := t.regs, ports := t.ports } := by
  have run := execTrainingTimeout_counts training unlocked
  obtain ⟨st, resumed⟩ := Option.ne_none_iff_exists'.1 retrain
  rw [resumed] at run
  dsimp only at run
  rw [if_neg (by omega)] at run
  refine ⟨_, run, ?_, State.port_modPort_same .., State.obj_count_same .., rfl⟩
  exact (State.obj_setObj_sub_ne _ _ (by decide) (by decide) (by decide) (by decide) (by decide)).trans training

end Timeout

theorem execCodewordLock_records (s : State) (k lane : Nat) : ∃ t, exec (.codewordLock k lane) s = .next t ∧ t = { s with ports := t.ports } ∧ (∀ j, j ≠ k → t.port j = s.port j) ∧
    ((s.port k).prbsDone = true ∨ s.portState k ≠ 1 → lane ∈ (t.port k).locked) ∧ (s.portState k = 1 → (s.port k).prbsDone = false → t.port k = s.port k) := by
  refine ⟨_, rfl, rfl, fun j other => State.port_modPort_ne _ _ other, fun ready => ?_, fun training phase => ?_⟩
  · rw [State.port_modPort_same, if_pos ready]
    simp
  · rw [State.port_modPort_same, if_neg (by simp [phase, training])]

theorem execPrbsPhaseEnd_records (s : State) (k : Nat) : ∃ t, exec (.prbsPhaseEnd k) s = .next t ∧ t = { s with ports := t.ports } ∧ (∀ j, j ≠ k → t.port j = s.port j) ∧
    t.port k = if s.portState k = 1 then { s.port k with prbsDone := true } else s.port k := by
  have run : exec (.prbsPhaseEnd k) s = .next (if s.portState k = psTraining then s.modPort k (fun p => { p with prbsDone := true }) else s) := rfl
  by_cases training : s.portState k = 1
  · rw [if_pos training] at run ⊢
    exact ⟨_, run, rfl, fun j other => State.port_modPort_ne _ _ other, State.port_modPort_same ..⟩
  · rw [if_neg training] at run ⊢
    exact ⟨_, run, rfl, fun _ _ => rfl, rfl⟩

theorem execCodewordLockLoss_drops (s : State) (k lane : Nat) : ∃ t, exec (.codewordLockLoss k lane) s = .next t ∧ (∀ j, j ≠ k → t.port j = s.port j) ∧
    (if s.portUp k = true ∧ (∃ i ∈ s.activeLanes k, s.laneOf k i = lane) then
      t.portState k = 1 ∧ t.port k = { s.port k with locked := [], prbsDone := false, resume := some (s.portState k) }
    else t = { s with ports := t.ports } ∧ t.port k = { s.port k with locked := (s.port k).locked.erase lane }) := by
  obtain ⟨u, dropped, own, others, frame⟩ : ∃ u : State, s.modPort k (fun p => { p with locked := p.locked.erase lane }) = u ∧ u.port k = { s.port k with locked := (s.port k).locked.erase lane } ∧
      (∀ j, j ≠ k → u.port j = s.port j) ∧ u = { s with ports := u.ports } :=
    ⟨_, rfl, State.port_modPort_same .., fun j other => State.port_modPort_ne _ _ other, rfl⟩
  have run : exec (.codewordLockLoss k lane) s = .next (if s.portUp k = true ∧ (s.activeLanes k).any (fun i => s.laneOf k i == lane) = true then u.train k (some (s.portState k)) else u) := by
    rw [← dropped]
    rfl
  have active : (s.activeLanes k).any (fun i => s.laneOf k i == lane) = true ↔ ∃ i ∈ s.activeLanes k, s.laneOf k i = lane := by simp
  by_cases carries : s.portUp k = true ∧ ∃ i ∈ s.activeLanes k, s.laneOf k i = lane
  · rw [if_pos ⟨carries.1, active.2 carries.2⟩] at run
    simp only [if_pos carries]
    refine ⟨_, run, fun j other => by rw [State.port_train_ne _ _ other, others j other], State.portState_train .., ?_⟩
    rw [State.port_train_same, own]
  · rw [if_neg fun h => carries ⟨h.1, active.1 h.2⟩] at run
    simp only [if_neg carries]
    exact ⟨u, run, others, frame, own⟩

/-! ### Cables and Ethernet links (R325, R335) -/

section Cable
variable {s : State} {k : Nat}

theorem execCableRemove_of_out (out : s.portState k = 5 ∨ s.portState k = 7 ∨ s.portState k = 0) : exec (.cableRemove k) s = .next s := congrArg Host.Outcome.next (if_pos out)

theorem execCableRemove_of_eth (eth : s.portState k = 6) : exec (.cableRemove k) s = .next (s.toPortState k psTraining) := by
  refine congrArg Host.Outcome.next ((if_neg ?_).trans (if_pos eth))
  rw [eth]
  decide

theorem execCableRemove_of_in (in' : s.portState k ∈ [1, 2, 3, 4]) : exec (.cableRemove k) s = .next (s.loseTo k psDown) := by
  have no : ∀ v ∈ [1, 2, 3, 4], ¬ (v = psRetired ∨ v = psDisabled ∨ v = psDown) ∧ v ≠ psEthUp := by decide
  exact congrArg Host.Outcome.next ((if_neg (no _ in').1).trans (if_neg (no _ in').2))

theorem execCableRemove_unused (unused : s.portState k = 1 ∨ s.portState k = 4) (first : (s.port k).resume = none) :
    ∃ t, exec (.cableRemove k) s = .next t ∧ t.portState k = 0 ∧ t.ports = s.ports := by
  have left : s.loseTo k psDown = s.toPortState k psDown := if_neg (by rw [s.portUp_iff, first]; simp; omega)
  refine ⟨_, (execCableRemove_of_in (by simp; omega)).trans (congrArg _ left), State.portState_toPortState .., State.toPortState_ports ..⟩

theorem execEthLinkUp_rises (mode : 2 ≤ (s.port k).mode) (enabled : s.portState k ≠ 7) (unlatched : (s.port k).latch = none) :
    ∃ t, exec (.ethLinkUp k) s = .next t ∧ t.portState k = 6 ∧ t.ports = s.ports := by
  have run : exec (.ethLinkUp k) s = .next ((s.toPortState k psEthUp).trained k) := congrArg Host.Outcome.next (if_pos ⟨mode, enabled⟩)
  rw [State.trained_of_none (by rw [State.port_toPortState, unlatched])] at run
  exact ⟨_, run, State.portState_toPortState .., State.toPortState_ports ..⟩

theorem execEthLinkDown_falls (up : s.portState k = 6) : ∃ t, exec (.ethLinkDown k) s = .next t ∧ t.portState k = 1 ∧ (∀ j, j ≠ k → t.port j = s.port j) :=
  ⟨_, congrArg Host.Outcome.next (if_pos up), State.portState_train .., fun _ other => State.port_train_ne _ _ other⟩

end Cable

/-- Settles O16, command by command: the state a port is left in, a frame for the losses and the TOPO that follows them. -/
theorem portStatesAndTraining : Obligations.PortStatesAndTraining := by
  unfold Obligations.PortStatesAndTraining
  refine ⟨fun s sess k v c _ passed named => ⟨portReset.latches passed named, fun other idle => ?_⟩, fun s k c _ named => execPortRetry_trains named,
    fun s k _ => ⟨fun training unlocked => execTrainingTimeout_ends training unlocked, fun training unlocked => execTrainingTimeout_retries training unlocked, fun idle => congrArg Host.Outcome.next (if_pos idle)⟩,
    execPrbsPhaseEnd_records, execCodewordLock_records, fun s k lane _ => execCodewordLockLoss_drops s k lane,
    fun s k _ => ⟨execCableRemove_of_out, fun eth => ⟨_, execCableRemove_of_eth eth, State.portState_toPortState .., State.toPortState_ports ..⟩, execCableRemove_unused, fun up idle => ?_⟩,
    fun s k _ => execEthLinkUp_rises, fun s k _ => execEthLinkDown_falls, fun s k other => congrArg Host.Outcome.next (if_neg other), fun s k off => congrArg Host.Outcome.next (if_neg ?_)⟩
  · obtain ⟨t, run, answered, reset⟩ := portReset.resets passed named other idle
    have value := (portReset.runs named s).2
    refine ⟨t, run, answered, reset.state.trans ?_, fun two => reset.cleared (by simp [two]), reset.mode, reset.others⟩
    obtain rfl | rfl := value
    · simp
    · simp
  · exact ⟨_, execCableRemove_of_in (by simp; omega), (State.lostTo_loseTo 0 idle).state⟩
  · rintro ⟨mode, enabled⟩
    obtain low | disabled := off
    · omega
    · exact enabled disabled

end Sys2Proof.Machine
end

section
/-! PROOF. Discovery and packets between devices, and the Causeway commands together (14_causeway_links.md R336-R345). -/

namespace Sys2Proof.Machine

/-! ### HELLO (R343-R345) -/

theorem execHelloSend_sends {s : State} {k : Nat} (mode : (s.port k).mode = 1) (trained : s.portState k ∈ [1, 2, 3, 4])
    (free : s.portUp k = true → (s.port k).stuck = [] ∧ s.roomTx k 8 1 = true) : ∃ t m, exec (.helloSend k) s = .next t ∧ t.sent = .ctrl k m :: s.sent ∧ m.mtype = 1 := by
  have among : ∀ v ∈ [1, 2, 3, 4], v = psTraining ∨ v = psForeign ∨ v = psUp ∨ v = psUp3 := by decide
  obtain ⟨body, run⟩ : ∃ body, exec (.helloSend k) s = .next (s.sendCtrl k 0x01 body 0 0 0) := ⟨_, congrArg Host.Outcome.next (if_pos ⟨mode, among _ trained⟩)⟩
  obtain ⟨sent, _, _⟩ := State.sendSlots_leaves (cls := 8) (n := 1) free (.ctrl k { mtype := 0x01, dst := 0, src := 0, hops := 0, body := BitVec.ofNat 224 body })
  exact ⟨_, _, run, sent, rfl⟩

theorem State.routed.claim {s t : State} (h : s.routed t) (k dev serial : Nat) : s.routed (t.claim k dev serial) := by
  have reported {u : State} (g : s.routed u) (x : Suspect) : s.routed (u.reportFor none clLink x (susPort k) 0 serial) := g.of_regs rfl rfl
  unfold State.claim
  split
  · exact h
  · next small =>
    extract_lets known present
    split
    · split
      · exact h
      · exact reported (h.setObj _ (by decide) (by decide) (by decide)) _
    · exact h.setObj _ (by decide) (by decide) (by omega)

theorem State.portState_pumpPort (s : State) (k : Nat) : (s.pumpPort k).portState k = s.portState k := (State.onlyPorts.of_pumpPort s k).regs _ 1 0 (by decide) (by decide) (by decide)

/-- A first training ends: the port is up, its neighbour's TOPO goes out, what waits is taken up. -/
theorem State.comesUp {s : State} {k : Nat} (unlatched : (s.port k).latch = none) {f : Port → Port} (kept : ∀ p, (f p).latch = p.latch) :
    (((((s.toPortState k psUp).modPort k f).neighboursChanged).pumpPort k).trained k).portState k = 2 ∧
      (((((s.toPortState k psUp).modPort k f).neighboursChanged).pumpPort k).trained k).obj (0x4010 + k) 3 = s.obj (0x4010 + k) 3 := by
  obtain ⟨u, opened, up, peer, latch⟩ : ∃ u : State, (s.toPortState k psUp).modPort k f = u ∧ u.portState k = 2 ∧ u.obj (0x4010 + k) 3 = s.obj (0x4010 + k) 3 ∧ (u.port k).latch = none := by
    refine ⟨_, rfl, s.portState_toPortState k psUp, s.obj_toPortState k psUp _ (by decide) (by decide), ?_⟩
    rw [State.port_modPort_same, kept, State.port_toPortState, unlatched]
  rw [opened]
  have routed := (State.routed.refl u).neighboursChanged
  have pumped := State.onlyPorts.of_pumpPort u.neighboursChanged k
  have view := pumped.view k
  simp only [Port.reception, Prod.mk.injEq] at view
  have free : ((u.neighboursChanged.pumpPort k).port k).latch = none := by rw [view.2.2, (Port.beside_own (routed.ports k)).2, latch]
  rw [State.trained_of_none free]
  refine ⟨?_, ?_⟩
  · rw [State.portState_pumpPort, State.portState, routed.regs k 1 (by decide) (by decide), ← State.portState, up]
  · rw [pumped.regs _ 3 0 (by decide) (by decide) (by decide), routed.regs k 3 (by decide) (by decide), peer]

theorem execHello_brings {s : State} {k : Nat} {m : CtrlMsg} (ok : ctrlOk 0x01 m = true) (training : s.portState k = 1) (first : (s.port k).resume = none)
    (unlatched : (s.port k).latch = none) (locked : 4 ≤ (s.port k).locked.length) (domain : fieldOf m.body.toNat 128 32 = s.obj 0x4000 1) (version : fieldOf m.body.toNat 100 8 = 1) :
    ∃ t, exec (.hello k m) s = .next t ∧ t.portState k = 2 ∧ t.obj (0x4010 + k) 3 = fieldOf m.body.toNat 112 16 * 65536 + fieldOf m.body.toNat 108 4 * 4096 := by
  show ∃ t, execHello k m s = _ ∧ _
  unfold execHello
  rw [onCtrl_of_ok ok]
  extract_lets v serial dev same st p moved s1 s2
  have matched : same = true := by simp only [same, v, domain, version]; simp
  have state : st = 1 := training
  have needed : ¬ (st = psTraining ∧ p.locked.length < p.lanesNeeded) := by
    rintro ⟨_, few⟩
    rw [Port.lanesNeeded, if_neg (by simp only [p, first]; simp)] at few
    exact absurd few (Nat.not_lt.2 locked)
  have peer : s1.obj (0x4010 + k) 3 = dev * 65536 + fieldOf v 108 4 * 4096 := State.obj_setObj_same ..
  have latch : (s1.port k).latch = none := by
    simp only [s1]
    rw [State.port_modPort_same, State.port_setObj]
    exact unlatched
  have claimed : s2 = s1.claim k dev serial := if_pos matched
  clear_value s1
  have routed := (State.routed.refl s1).claim k dev serial
  rw [← claimed] at routed
  clear_value s2
  rw [if_neg (by rw [state]; decide), if_neg (by rw [matched, state]; simp), if_neg (by rw [state]; decide), if_neg needed]
  have unresumed : p.resume = none := first
  rw [unresumed]
  dsimp only
  have up := State.comesUp (s := s2) (k := k) ((Port.beside_own (routed.ports k)).2.trans latch) (f := fun p => { p with
    txSeq := 0, ackNext := 0, rxSeq := 0, discarding := false, naks := none, failed := 0, offsets := [], credits := ({} : Port).credits, owed := ({} : Port).owed }) fun _ => rfl
  exact ⟨_, rfl, up.1, up.2.trans ((routed.regs k 3 (by decide) (by decide)).trans peer)⟩

/-! ### TOPO (R345) -/

/-- A CTRL message of a type has left at a port, or waits at it. -/
def State.ctrlOut (k mtype : Nat) (s : State) : Prop := ∃ m : CtrlMsg, m.mtype = mtype ∧ (.ctrl k m ∈ s.sent ∨ (8, 1, .ctrl k m) ∈ (s.port k).stuck)

theorem State.stuck_sendSlots (s : State) (j cls n : Nat) (m : Msg) (k : Nat) {x : Nat × Nat × Msg} (h : x ∈ (s.port k).stuck) : x ∈ ((s.sendSlots j cls n m).port k).stuck := by
  by_cases same : k = j
  · subst same
    unfold State.sendSlots
    split
    · rw [State.countTx, State.port_modPort_same, State.port_count, State.port_emit]
      exact h
    · split
      · rw [State.port_spendTx_same]
        exact h
      · rw [State.port_modPort_same]
        exact List.mem_append_left _ h
  · unfold State.sendSlots
    split
    · rw [State.countTx, State.port_modPort_ne _ _ same, State.port_count, State.port_emit]
      exact h
    · split
      · rw [State.port_spendTx_ne _ _ _ _ _ same]
        exact h
      · rw [State.port_modPort_ne _ _ same]
        exact h

theorem State.ctrlOut.sendCtrl {s : State} {k mtype : Nat} (h : s.ctrlOut k mtype) (j mtype' body dst src hops : Nat) : (s.sendCtrl j mtype' body dst src hops).ctrlOut k mtype := by
  have kept := ((State.onlyPorts.refl (subs := [5]) s).sendCtrl State.onlyPorts.unspent_beside (by decide) j mtype' body dst src hops).sent
  obtain ⟨m, type, sent | stuck⟩ := h
  · exact ⟨m, type, .inl (kept _ sent)⟩
  · exact ⟨m, type, .inr (s.stuck_sendSlots _ _ _ _ k stuck)⟩

theorem State.ctrlOut_sendCtrl (s : State) (k mtype body dst src hops : Nat) : (s.sendCtrl k mtype body dst src hops).ctrlOut k mtype := by
  refine ⟨{ mtype := mtype, dst := dst, src := src, hops := hops, body := BitVec.ofNat 224 body }, rfl, ?_⟩
  unfold State.sendCtrl State.sendSlots
  split
  · exact .inl List.mem_cons_self
  · split
    · exact .inl List.mem_cons_self
    · rw [State.port_modPort_same]
      exact .inr (List.mem_append_right _ (List.mem_singleton.2 rfl))

theorem State.each_ctrlOut {s : State} {ks : List Nat} {k mtype : Nat} {body : State → Nat} (listed : k ∈ ks) :
    (s.each ks (fun t j => t.sendCtrl j mtype (body t) 0 0 0)).ctrlOut k mtype := by
  induction ks generalizing s with
  | nil => cases listed
  | cons j js ih =>
    rw [State.each_cons]
    obtain rfl | later := List.mem_cons.1 listed
    · exact State.each_induction (fun t => t.ctrlOut k mtype) (State.ctrlOut_sendCtrl ..) fun t i _ out => out.sendCtrl ..
    · exact ih later

theorem execTopoSend_floods {s : State} (named : s.obj 0x4000 0 ≠ 0xFFFF) : ∃ t, exec .topoSend s = .next t ∧ ∀ k, k < 16 → s.portUp k = true → t.ctrlOut k 6 := by
  refine ⟨_, congrArg Host.Outcome.next (if_neg named), fun k small up => ?_⟩
  exact State.each_ctrlOut (body := State.topoBody) (List.mem_filter.2 ⟨List.mem_range.2 small, up⟩)

theorem State.obj_retime (s : State) (j : Nat) (small : j < 256) : s.retime.obj 0x4000 j = s.obj 0x4000 j := by
  have beside (t : State) (a v : Nat) (ha : a < 256) : (t.setObj 0x1420 a 0 v).obj 0x4000 j = t.obj 0x4000 j := t.obj_setObj_ne v small (by decide) ha (by decide) (.inl (by decide))
  have one (v : Nat) : (((s.setObj 0x1420 2 0 v).setObj 0x1420 8 0 0).setObj 0x1420 3 0 0xFFFF0000).obj 0x4000 j = s.obj 0x4000 j := by
    rw [beside _ 3 _ (by decide), beside _ 8 _ (by decide), beside _ 2 _ (by decide)]
  have two (v : Nat) : ((s.setObj 0x1420 2 0 2).setObj 0x1420 3 0 v).obj 0x4000 j = s.obj 0x4000 j := by
    rw [beside _ 3 _ (by decide), beside _ 2 _ (by decide)]
  unfold State.retime
  dsimp only
  split
  · exact one 0
  · split
    · exact (State.obj_congr rfl ..).trans (one 1)
    · split
      · split
        · rfl
        · exact (State.obj_congr rfl ..).trans (two _)
      · exact (State.obj_congr rfl ..).trans (two _)

theorem State.retime_tiles (s : State) : s.retime.tiles = s.tiles := by
  unfold State.retime
  dsimp only
  split
  · simp only [State.setObj_tiles]
  · split
    · simp only [State.setObj_tiles]
    · split
      · split
        · rfl
        · simp only [State.setObj_tiles]
      · simp only [State.setObj_tiles]

theorem State.setObjs_tiles (s : State) (i j e : Nat) (vs : List Nat) : (s.setObjs i j e vs).tiles = s.tiles := by
  induction vs generalizing s e with
  | nil => rfl
  | cons v vs ih => rw [State.setObjs, ih, State.setObj_tiles]

theorem State.recomputeRoutes_counts (s : State) : s.recomputeRoutes.obj 0x4000 3 = (s.obj 0x4000 3 + 1) % 2 ^ 32 ∧ s.recomputeRoutes.tiles = s.tiles := by
  unfold State.recomputeRoutes
  dsimp only
  exact ⟨by rw [State.obj_retime _ _ (by decide), State.obj_setObj_same], by rw [State.retime_tiles, State.setObj_tiles, State.setObjs_tiles]⟩

theorem execTopo_recomputes {s : State} {k : Nat} {m : CtrlMsg} (ok : ctrlOk 0x06 m = true) (foreign : fieldOf m.body.toNat 216 8 ≠ s.obj 0x4000 0)
    (unheard : Tbl.get s.topo none (fieldOf m.body.toNat 216 8) = none) :
    ∃ t, exec (.topo k m) s = .next t ∧ t.obj 0x4000 3 = (s.obj 0x4000 3 + 1) % 2 ^ 32 ∧ t.tiles = s.tiles := by
  show ∃ t, execTopo k m s = _ ∧ _
  unfold execTopo
  rw [onCtrl_of_ok ok]
  extract_lets v origin seq newer peers s1
  have new : newer = true := by
    show (match Tbl.get s.topo none (fieldOf m.body.toNat 216 8) with
      | none => true
      | some (old, _) => _) = true
    rw [unheard]
  have regs : s1.regs = s.regs := rfl
  have tiles : s1.tiles = s.tiles := rfl
  clear_value s1
  rw [if_neg (by rw [new]; simp [origin, v, foreign])]
  have flooded := (State.onlyPorts.refl (subs := [5]) s1).each (f := fun t j => t.sendCtrl j 0x06 v 0 0 0) (s1.upPorts.filter (fun j => j != k)) fun u j =>
    (State.onlyPorts.refl u).sendCtrl State.onlyPorts.unspent_beside (by decide) ..
  generalize s1.each (s1.upPorts.filter (fun j => j != k)) (fun t j => t.sendCtrl j 0x06 v 0 0 0) = u at flooded
  obtain ⟨count, same⟩ := u.recomputeRoutes_counts
  refine ⟨_, rfl, ?_, ?_⟩
  · rw [count, flooded.regs _ 3 0 (by decide) (by decide) (by decide), State.obj_congr regs]
  · rw [same, flooded.frame]
    exact tiles

/-! ### Where packets enter the mesh (R26, R338) -/

namespace State.onlyPorts
variable {α : Type} {subs : List Nat} {π : Port → α} {s t : State} (h : s.onlyPorts subs π t) (states : 0 ∉ subs)
include h states

theorem entryPos (n : Nat) (upright : Bool) : t.entryPos n upright = s.entryPos n upright := by
  have usable : t.usable = s.usable := funext fun m => by
    have state : t.tileState m = s.tileState m := h.regs _ 0 0 (by decide) (by decide) states
    rw [State.usable, state, State.usable]
  rw [State.entryPos, State.entryPos, nearestUsable, nearestUsable, usable]

theorem portPos (k : Nat) : t.portPos k = s.portPos k := by rw [State.portPos, h.entryPos states, State.portPos]

theorem ingressDest (p : Packet) : t.ingressDest p = s.ingressDest p := by
  have faults : t.faults = s.faults := by rw [h.frame]
  have jobs : t.jobs = s.jobs := by rw [h.frame]
  have cfgs : t.cfgs = s.cfgs := by rw [h.frame]
  have job : t.job = s.job := funext fun q => by rw [State.job, jobs, State.job]
  have jobId : t.jobId = s.jobId := funext fun q => by rw [State.jobId, job, State.jobId]
  have jobState : t.jobState = s.jobState := funext fun q => h.regs _ 0 0 (by decide) (by decide) states
  have sequencer : t.sequencerPos = s.sequencerPos := funext fun q => by
    unfold State.sequencerPos State.cfg
    rw [cfgs]
    simp only [h.entryPos states]
  have physical : t.physicalOf = s.physicalOf := funext fun q => funext fun l => by rw [State.physicalOf, job, State.physicalOf]
  unfold State.ingressDest State.deviceClosed State.partitionsOfJob
  rw [faults, job, jobId, jobState, sequencer, physical]

end State.onlyPorts

/-! ### A port that takes up what waits (R331, R338, R339) -/

/-- The credit counted and the waiting messages sent, a port takes up its packets. -/
theorem State.pumpPort_takes {s : State} {k : Nat} (waits : (s.port k).egress ≠ [] ∨ (s.port k).ingress ≠ []) :
    ∃ u, u = (s.countCredit k).pumpStuck k ∧ s.onlyPorts pumpSubs Port.beside u ∧ ∃ st : Port → Option Nat, s.pumpPort k = (u.pumpTraffic k).modPort k (fun x => { x with stalled := st x }) := by
  have credited := (State.onlyPorts.refl (subs := pumpSubs) s).countCredit State.onlyPorts.unspent_beside (by decide) k
  refine ⟨_, rfl, credited.pumpStuck State.onlyPorts.unspent_beside (by decide) k, _, if_neg ?_⟩
  intro idle
  obtain egress | ingress := waits
  · simp [egress] at idle
  · simp [ingress] at idle

theorem State.pumpPort_of_idle {s : State} {k : Nat} (egress : (s.port k).egress = []) (ingress : (s.port k).ingress = []) (stuck : (s.port k).stuck = []) : s.pumpPort k = s :=
  if_pos (by simp [egress, ingress, stuck])

theorem State.countCredit_sent (s : State) (k : Nat) : (s.countCredit k).sent = s.sent := by
  unfold State.countCredit
  split
  · rfl
  · rfl

theorem State.countCredit_stuck (s : State) (k : Nat) : ((s.countCredit k).port k).stuck = (s.port k).stuck := by
  unfold State.countCredit
  split
  · rfl
  · rw [State.port_modPort_same, State.port_count]

theorem State.pumpStuck_sent {s : State} {k : Nat} (stuck : (s.port k).stuck = []) : (s.pumpStuck k).sent = s.sent := by
  rw [State.pumpStuck, stuck]
  rfl

theorem Port.beside_packets {p q : Port} (h : p.beside = q.beside) : p.egress = q.egress ∧ p.ingress = q.ingress ∧ p.inbound = q.inbound := by
  have egress : p.beside.egress = q.beside.egress := by rw [h]
  have ingress : p.beside.ingress = q.beside.ingress := by rw [h]
  have inbound : p.beside.inbound = q.beside.inbound := by rw [h]
  exact ⟨egress, ingress, inbound⟩

/-- One request that waits for room in the reply queue, and finds it, enters the mesh. -/
theorem State.pumpTraffic_enters {s : State} {k hop d : Nat} {p : Packet} (egress : (s.port k).egress = []) (ingress : (s.port k).ingress = [(hop, p)])
    (room : (s.port k).reserved + p.rows + 1 ≤ 4096) (dest : s.ingressDest p = .ok d) :
    ∃ x, (s.pumpTraffic k).sent = .packet (s.portPos k) false x :: s.sent ∧ (x.dstX, x.dstY) = (xOf d, yOf d) := by
  obtain ⟨u, emptied, frame, own⟩ : ∃ u : State, (s.modPort k (fun x => { x with egress := [] })).modPort k (fun x => { x with ingress := [] }) = u ∧
      s.onlyPorts pumpSubs (fun p => p.inbound) u ∧ u.sent = s.sent :=
    ⟨_, rfl, ((State.onlyPorts.refl s).modPort k fun _ => by rfl).modPort k fun _ => by rfl, rfl⟩
  have taken : s.pumpTraffic k = u.enterMesh k hop d p := by
    have waiting : ((s.modPort k (fun x => { x with egress := [] })).port k).ingress = [(hop, p)] := by rw [State.port_modPort_same, ingress]
    unfold State.pumpTraffic
    dsimp only
    rw [egress, State.each_nil, waiting, emptied, State.each_cons, State.each_nil, if_pos (by rw [Port.reserved, frame.view k]; exact room), frame.ingressDest (by decide), dest]
  refine ⟨{ p with srcX := xOf (s.portPos k), srcY := yOf (s.portPos k), dstX := xOf d, dstY := yOf d }, ?_, rfl⟩
  rw [taken, State.enterMesh, State.emit_sent, State.modPort_sent, own, frame.portPos (by decide)]

theorem execIngressRequest_enters {s : State} {k hop d : Nat} {p : Packet} (named : s.obj 0x4000 0 ≠ 0xFFFF) (service : s.device.mode ≠ .safe)
    (here : s.isOwn (farDevice p.farAddr.toNat) = true) (dest : s.ingressDest p = .ok d) (egress : (s.port k).egress = []) (ingress : (s.port k).ingress = [])
    (stuck : (s.port k).stuck = []) (room : (s.port k).reserved + p.rows + 1 ≤ 4096) :
    ∃ t x, exec (.ingressRequest k hop p) s = .next t ∧ t.sent = .packet (s.portPos k) false x :: s.sent ∧ (x.dstX, x.dstY) = (xOf d, yOf d) := by
  obtain ⟨w, joined, frame, own, sent⟩ : ∃ w : State, s.modPort k (fun x => { x with ingress := x.ingress ++ [(hop, p)] }) = w ∧
      s.onlyPorts pumpSubs (fun _ => ()) w ∧ w.port k = { s.port k with ingress := (s.port k).ingress ++ [(hop, p)] } ∧ w.sent = s.sent :=
    ⟨_, rfl, (State.onlyPorts.refl s).modPort k fun _ => by rfl, State.port_modPort_same .., rfl⟩
  have run : exec (.ingressRequest k hop p) s = .next (w.pumpPort k) := by
    show execIngressRequest k hop p s = _
    unfold execIngressRequest
    dsimp only
    rw [if_neg (by simp [named, service]), if_neg (by simp [here]), dest, ← joined]
  obtain ⟨u, drained, kept, st, pumped⟩ := State.pumpPort_takes (s := w) (k := k) (.inr (by rw [own]; simp))
  obtain ⟨out, in', inbound⟩ := Port.beside_packets (kept.view k)
  have quiet : u.sent = s.sent := by
    rw [drained, State.pumpStuck_sent (by rw [State.countCredit_stuck, own]; exact stuck), State.countCredit_sent, sent]
  obtain ⟨x, packet, place⟩ := State.pumpTraffic_enters (s := u) (k := k) (hop := hop) (d := d) (p := p) (by rw [out, own]; exact egress) (by rw [in', own, ingress]; rfl)
    (by rw [Port.reserved, inbound, own]; exact room) (by rw [kept.ingressDest (by decide), frame.ingressDest (by decide), dest])
  refine ⟨_, x, run, ?_, place⟩
  rw [pumped, State.modPort_sent, packet, quiet, kept.portPos (by decide), frame.portPos (by decide)]

theorem execIngressReply_returns {s : State} {k hop : Nat} {p r : Packet} {rest : List Packet} (oldest : (s.port k).fwd = r :: rest) (key : sameKey r p = true)
    (egress : (s.port k).egress = []) (ingress : (s.port k).ingress = []) (stuck : (s.port k).stuck = []) :
    ∃ t, exec (.ingressReply k hop p) s = .next t ∧ (t.port k).fwd = rest ∧
      ∃ x, t.sent = .packet (s.portPos k) true x :: s.sent ∧ x.dstX = r.srcX ∧ x.dstY = r.srcY ∧ x.data = p.data ∧ x.status = p.status ∧ x.tag = p.tag := by
  obtain ⟨u, ended, own, sent⟩ : ∃ u : State, s.modPort k (fun x => { x with fwd := x.fwd.eraseP (fun r => sameKey r p) }) = u ∧
      u.port k = { s.port k with fwd := (s.port k).fwd.eraseP (fun r => sameKey r p) } ∧ u.sent = s.sent := ⟨_, rfl, State.port_modPort_same .., rfl⟩
  have run : exec (.ingressReply k hop p) s = .next ((u.emit (.packet (s.portPos k) true
      { p with srcX := xOf (s.portPos k), srcY := yOf (s.portPos k), dstX := r.srcX, dstY := r.srcY })).pumpPort k) := by
    show execIngressReply k hop p s = _
    rw [execIngressReply, oldest, List.find?_cons_of_pos (p := fun r => sameKey r p) key, ← ended]
  rw [State.pumpPort_of_idle (by rw [State.port_emit, own]; exact egress) (by rw [State.port_emit, own]; exact ingress) (by rw [State.port_emit, own]; exact stuck)] at run
  refine ⟨_, run, ?_, { p with srcX := xOf (s.portPos k), srcY := yOf (s.portPos k), dstX := r.srcX, dstY := r.srcY }, by rw [State.emit_sent, sent], rfl, rfl, rfl, rfl, rfl⟩
  rw [State.port_emit, own]
  exact (congrArg (List.eraseP fun r => sameKey r p) oldest).trans (List.eraseP_cons_of_pos (p := fun r => sameKey r p) key)

/-! ### A branch of a FORK leaves for another device (R338) -/

theorem State.leave_sends (s : State) (k hop : Nat) (p : Packet) : .egress k hop { p with srcX := 0, srcY := 0, dstX := 0, dstY := 0 } ∈ (s.leave k hop p).sent := List.mem_cons_self

/-- One packet that waits at a port leaves, or waits on. -/
theorem State.pumpTraffic_passes {s : State} {k hop : Nat} {p : Packet} (egress : (s.port k).egress = [(hop, p)]) (ingress : (s.port k).ingress = []) :
    (hop, p) ∈ ((s.pumpTraffic k).port k).egress ∨ .egress k hop { p with srcX := 0, srcY := 0, dstX := 0, dstY := 0 } ∈ (s.pumpTraffic k).sent := by
  obtain ⟨u, emptied, own⟩ : ∃ u : State, s.modPort k (fun x => { x with egress := [] }) = u ∧ (u.port k).ingress = [] := ⟨_, rfl, by rw [State.port_modPort_same, ingress]⟩
  have idle {v : State} (none : (v.port k).ingress = []) (taken : u.each [(hop, p)] (fun t e => if t.mayLeave k e.1 e.2 then t.leave k e.1 e.2
      else t.modPort k (fun x => { x with egress := x.egress ++ [e] })) = v) : s.pumpTraffic k = v.modPort k (fun x => { x with ingress := [] }) := by
    unfold State.pumpTraffic
    dsimp only
    rw [egress, emptied, taken, none, State.each_nil]
  by_cases may : u.mayLeave k hop p = true
  · right
    have none : ((u.leave k hop p).port k).ingress = [] := by
      rw [State.leave, State.countTx, State.port_modPort_same, State.port_count, State.port_emit, State.port_modPort_same]
      dsimp only
      split
      · exact own
      · exact own
    rw [idle none (by rw [State.each_cons, State.each_nil, if_pos may]), State.modPort_sent]
    exact u.leave_sends k hop p
  · left
    rw [idle (v := u.modPort k (fun x => { x with egress := x.egress ++ [(hop, p)] })) (by rw [State.port_modPort_same]; exact own) (by rw [State.each_cons, State.each_nil, if_neg may]),
      State.port_modPort_same, State.port_modPort_same]
    simp

theorem execEgressForkBranch_answers {s : State} {k hop : Nat} {p r : Packet} {rest : List (Nat × Packet)} (oldest : (s.port k).inbound = (hop, r) :: rest)
    (read : r.ptype = .read ∨ r.ptype = .memRead) (address : r.farAddr = p.farAddr) (rows : r.rows = p.rows) (stride : r.stride = p.stride)
    (egress : (s.port k).egress = []) (ingress : (s.port k).ingress = []) :
    ∃ t x, exec (.egressForkBranch k p) s = .next t ∧ x.ptype = .data ∧ x.data = p.data ∧ x.tag = r.tag ∧
      ((min 3 (hop + 1), x) ∈ (t.port k).egress ∨ .egress k (min 3 (hop + 1)) { x with srcX := 0, srcY := 0, dstX := 0, dstY := 0 } ∈ t.sent) := by
  obtain ⟨x, answer⟩ : ∃ x, x = replyTo (s.portPos k) r .data stOk p.data := ⟨_, rfl⟩
  obtain ⟨w, joined, own⟩ : ∃ w : State, s.modPort k (fun y => { y with egress := y.egress ++ [(min 3 (hop + 1), x)] }) = w ∧
      w.port k = { s.port k with egress := (s.port k).egress ++ [(min 3 (hop + 1), x)] } := ⟨_, rfl, State.port_modPort_same ..⟩
  have run : exec (.egressForkBranch k p) s = .next (w.pumpPort k) := by
    show execEgressForkBranch k p s = _
    rw [execEgressForkBranch, oldest, List.find?_cons_of_pos (by obtain read | read := read <;> simp [read, address, rows, stride]), ← joined, answer]
  obtain ⟨u, _, kept, st, pumped⟩ := State.pumpPort_takes (s := w) (k := k) (.inl (by rw [own]; simp))
  obtain ⟨out, in', _⟩ := Port.beside_packets (kept.view k)
  refine ⟨_, x, run, by rw [answer]; rfl, by rw [answer]; rfl, by rw [answer]; rfl, ?_⟩
  rw [pumped, State.modPort_sent, State.port_modPort_same]
  exact State.pumpTraffic_passes (by rw [out, own, egress]; rfl) (by rw [in', own]; exact ingress)

/-! ### The Causeway commands together -/

/-- Settles O52: each command by the theorem that says what it leaves. -/
theorem causewayCommandsComplete : Obligations.CausewayCommandsComplete := by
  unfold Obligations.CausewayCommandsComplete
  refine ⟨?_, ?_, ?_, ?_, ?_, ?_, ?_, ?_, ?_, ?_, ?_, ?_, ?_, ?_, ?_, ?_, ?_, ?_, ?_, ?_, ?_, ?_, ?_, ?_, ?_, ?_, ?_⟩
  · intro s sess k _ passed other idle on serving
    obtain ⟨t, run, answered, reset⟩ := portReset.resets passed (v := 1) (.inl ⟨rfl, rfl⟩) other idle
    exact ⟨t, run, answered, reset.state.trans (by rw [if_neg on, if_neg fun h => serving h.1])⟩
  · intro s sess k _ passed other idle on
    obtain ⟨t, run, answered, reset⟩ := portReset.resets passed (v := 2) (.inr ⟨rfl, rfl⟩) other idle
    obtain ⟨map, count⟩ := reset.cleared rfl
    exact ⟨t, run, answered, reset.state.trans (by rw [if_neg on, if_neg (by simp)]), map, count⟩
  · intro s k _ down
    obtain ⟨t, run, state, locked, _⟩ := (execPortRetry_trains (.inl rfl)).1 down
    exact ⟨t, run, state, locked⟩
  · intro s k _ training unlocked unlatched first
    obtain ⟨t, run, state, count, _⟩ := execTrainingTimeout_ends training unlocked unlatched first
    exact ⟨t, run, state, count⟩
  · intro s k lane _ up carries
    obtain ⟨t, run, _, drops⟩ := execCodewordLockLoss_drops s k lane
    rw [if_pos ⟨up, carries⟩] at drops
    exact ⟨t, run, drops⟩
  · exact fun s k _ mode trained _ _ free => execHelloSend_sends mode trained free
  · exact fun s k m _ ok training first unlatched locked domain version _ _ _ => execHello_brings ok training first unlatched locked domain version
  · intro s k f _ up sound next
    obtain ⟨t, run, seq, _, count, _⟩ := execFlitReceive_accepts up sound next
    exact ⟨t, run, seq, count⟩
  · intro s k _ up
    obtain ⟨t, run, sent, owed, _⟩ := execAckSend_acknowledges up
    exact ⟨t, run, sent, owed⟩
  · intro s k _ up
    obtain ⟨t, run, _, replays, few, _⟩ := execLaneSparingCheck_answers up
    exact ⟨t, run, replays, few⟩
  · intro s k m _ up ok free room points
    obtain ⟨t, a, run, sent, type, _⟩ := execLaneSwap_answers up ok free room points
    exact ⟨t, a, run, sent, type⟩
  · exact fun s k m ok => ⟨_, congrArg Host.Outcome.next (onCtrl_of_ok ok s _), State.port_modPort_same ..⟩
  · intro s k seq lane x _ small swaps named keeps tx first _ rxDone
    obtain ⟨t, run, spare, others, _⟩ := execLaneSwitch_spares small swaps named keeps tx first rxDone
    exact ⟨t, run, spare, others⟩
  · intro s k _ down
    obtain ⟨t, run, state, locked, _⟩ := (execPortRetry_trains (.inr rfl)).1 down
    exact ⟨t, run, state, locked⟩
  · exact fun s k _ eth => ⟨_, execCableRemove_of_eth eth, State.portState_toPortState .., State.toPortState_ports ..⟩
  · exact fun s named => execTopoSend_floods named
  · exact fun s k m ok foreign unheard => execTopo_recomputes ok foreign unheard
  · intro s k up free room due
    obtain ⟨t, m, run, sent, type, _⟩ := execTsyncSend_sends up free room due
    exact ⟨t, m, run, sent, type⟩
  · intro s k m up ok free room
    obtain ⟨t, a, run, sent, type, _⟩ := execTsync_replies up free room ok
    exact ⟨t, a, run, sent, type⟩
  · intro s k x m up ok own free
    obtain ⟨t, run, _, noted, _⟩ := execTsyncReply_answers (x := x) up ok own
    exact ⟨t, run, noted free⟩
  · exact fun s k hop d p named service here dest egress ingress stuck room => execIngressRequest_enters named service here dest egress ingress stuck room
  · exact fun s k hop p r rest oldest key egress ingress stuck => execIngressReply_returns oldest key egress ingress stuck
  · exact fun s k hop p r rest oldest read address rows stride egress ingress => execEgressForkBranch_answers oldest read address rows stride egress ingress
  · exact fun s k slots u plain long most few exact' hops own => execMgmtUnit_of_own plain long most few exact' hops own
  · exact fun s k _ mode enabled unlatched => execEthLinkUp_rises mode enabled unlatched
  · exact fun s k _ up => execEthLinkDown_falls up
  · intro s k f up sound plain long short
    obtain ⟨t, run, _, _, answered⟩ := execEthFrameReceive_answers (f := f) up
    obtain ⟨count, _, sent⟩ := answered sound
    exact ⟨t, run, count, by rw [sent, if_neg (by rw [plain]; simp; omega)]⟩

end Sys2Proof.Machine
end
